-- ==== Sys2Proof/Word.lean ====
section
/-! DEFINITION. Words: the plain word types of the DM72 and nothing else (R10, R11). -/

namespace Sys2Proof

/-- One byte. -/
abbrev Byte := BitVec 8
/-- A 32-bit word. -/
abbrev W32 := BitVec 32
/-- A 64-bit word: a general register, a device address, a tick. -/
abbrev W64 := BitVec 64
/-- A 32-byte macro-instruction, bits [255:0] (R101). -/
abbrev W256 := BitVec 256

end Sys2Proof
end

