-- ==== Sys2Proof/Syntax.lean ====
section
/-! DEFINITION. The commands of the DM72 block: one constructor per row of spec/opcode_table.json, with the operands a command
carries. Operands that the device holds in its own state are not repeated here. -/

namespace Sys2Proof

/-- The guard of a control processor instruction: gn in bit 23, gp in bits [22:20] (R79). -/
structure Guard where
  gn : Bool := false
  gp : BitVec 3 := 0
  deriving DecidableEq, Repr

/-- A general register number. -/
abbrev Reg := BitVec 5

/-- The answer to a request that left a block: data, or a refusal with its status (Table 17.12). -/
inductive Answer where
  | data (v : W64)
  | refused (status : BitVec 8)
  deriving DecidableEq, Repr

/-- Which event of R96 is taken at an instruction boundary. -/
inductive Boundary where
  | forcedStop
  | debugHalt
  | interrupt
  deriving DecidableEq, Repr

/-- The answer to a read of an engine: bytes with the offsets of poisoned ones, or a refusal. -/
inductive ReadAns where
  | ok (data : List Byte) (bad : List Nat)
  | refused (status : Nat)
  deriving DecidableEq, Repr

/-- A channel packet (Tables 8.5, 8.6) with what its carrier adds: the sender, and on paths 2 and 3 its node, port and job. -/
structure ChMsg where
  dstEp : Nat := 0
  srcEp : Nat := 0
  srcCl : Nat := 0
  srcCore : Nat := 0
  /-- arrived from another device -/
  remote : Bool := false
  srcNode : Nat := 0
  port : Nat := 0
  job : Nat := 0
  last : Bool := false
  ackReq : Bool := false
  mc : Nat := 0
  off : Nat := 0
  conn : Nat := 0
  seq : Nat := 0
  status : Nat := 0
  data : List Byte := []
  bad : List Nat := []
  /-- the packet has a reserved ckind or a nonzero reserved field -/
  reserved : Bool := false
  deriving DecidableEq, Repr

/-- What travels beside a packet's bytes: the offsets its poison masks name (R234, R236), and the vats whose packets wait behind it (R344). -/
structure NetMarks where
  bad : List Nat := []
  behind : List Nat := []
  deriving DecidableEq, Repr

/-- Who sends a vat or device command: the vatman through VAT_CTL, the management core, the debug port, or a command ring. -/
inductive Src where
  | vatman
  | mgmt
  | debug
  | host (ring : Nat)
  deriving DecidableEq, Repr

/-- A codeword pair: the fields of its two codeword control words (Table 14.3) and the 1,280 B of its flits (R445). -/
structure Pair where
  seq : Nat := 0
  ack : Nat := 0
  nak : Bool := false
  idle : Bool := false
  pflit : Nat := 0
  pool : Nat := 0
  freed : Nat := 0
  data : List Byte := []
  deriving DecidableEq, Repr

/-- Who reaches a scratchpad through the scratchpad window: a core of the device, the management core or the debug port. -/
inductive WinBy where
  | core (c : Nat)
  | mgmt
  | debug
  deriving DecidableEq, Repr

/-- Who sends a plain request to a stack controller: a vat's core or virtual function, the management core, the debug port, or the
physical function (R357). -/
inductive StkWho where
  | vat (v : Nat)
  | mgmt
  | debug
  | pf
  deriving DecidableEq, Repr

/-- Who issued a stack engine command: a stream engine's write, or a host command (R370, R532). -/
inductive StkBy where
  | core (c e id : Nat)
  | host (ring uid : Nat)
  deriving DecidableEq, Repr

/-- Who makes a register access (R614, R615): a control processor (number 4096 is the management core), the physical function, a virtual
function, or the debug port. -/
inductive Who where
  | core (c : Nat)
  | pf
  | vf (n : Nat)
  | debug
  deriving DecidableEq, Repr

/-- The commands, one constructor per row of the table of operations and events. The core operand `c` of a control processor
instruction is the physical core number 64·cluster + position, or 4096 for the management core. -/
inductive Instr where
  /-- ADD (R82): Integer instruction setting g[rd] to g[rs1] + g[rs2] modulo 2^64. -/
  | add (c : Nat) (g : Guard) (rd rs1 rs2 : Reg)
  /-- SUB (R82): Integer instruction setting g[rd] to g[rs1] - g[rs2]. -/
  | sub (c : Nat) (g : Guard) (rd rs1 rs2 : Reg)
  /-- AND (R82): Integer instruction setting g[rd] to the bitwise and of two registers. -/
  | and (c : Nat) (g : Guard) (rd rs1 rs2 : Reg)
  /-- OR (R82): Integer instruction setting g[rd] to the bitwise or of two registers. -/
  | or (c : Nat) (g : Guard) (rd rs1 rs2 : Reg)
  /-- XOR (R82): Integer instruction setting g[rd] to the bitwise xor of two registers. -/
  | xor (c : Nat) (g : Guard) (rd rs1 rs2 : Reg)
  /-- SLL (R82): Logical left shift by g[rs2][5:0]. -/
  | sll (c : Nat) (g : Guard) (rd rs1 rs2 : Reg)
  /-- SRL (R82): Logical right shift by g[rs2][5:0]. -/
  | srl (c : Nat) (g : Guard) (rd rs1 rs2 : Reg)
  /-- SRA (R82): Arithmetic right shift by g[rs2][5:0]. -/
  | sra (c : Nat) (g : Guard) (rd rs1 rs2 : Reg)
  /-- MUL (R82): Low 64 bits of the product of two registers. -/
  | mul (c : Nat) (g : Guard) (rd rs1 rs2 : Reg)
  /-- MULH (R82): High 64 bits of the signed product of two registers. -/
  | mulh (c : Nat) (g : Guard) (rd rs1 rs2 : Reg)
  /-- MULHU (R82): High 64 bits of the unsigned product of two registers. -/
  | mulhu (c : Nat) (g : Guard) (rd rs1 rs2 : Reg)
  /-- DIV (R83): Signed division truncated toward zero with fixed results for zero divisor and overflow. -/
  | div (c : Nat) (g : Guard) (rd rs1 rs2 : Reg)
  /-- DIVU (R83): Unsigned division, all ones on a zero divisor. -/
  | divu (c : Nat) (g : Guard) (rd rs1 rs2 : Reg)
  /-- REM (R83): Signed remainder with the sign of the dividend, the dividend on a zero divisor. -/
  | rem (c : Nat) (g : Guard) (rd rs1 rs2 : Reg)
  /-- REMU (R83): Unsigned remainder, the dividend on a zero divisor. -/
  | remu (c : Nat) (g : Guard) (rd rs1 rs2 : Reg)
  /-- MIN (R82): Signed minimum of two registers. -/
  | min (c : Nat) (g : Guard) (rd rs1 rs2 : Reg)
  /-- MAX (R82): Signed maximum of two registers. -/
  | max (c : Nat) (g : Guard) (rd rs1 rs2 : Reg)
  /-- MINU (R82): Unsigned minimum of two registers. -/
  | minu (c : Nat) (g : Guard) (rd rs1 rs2 : Reg)
  /-- MAXU (R82): Unsigned maximum of two registers. -/
  | maxu (c : Nat) (g : Guard) (rd rs1 rs2 : Reg)
  /-- ADDI (R82): Adds a sign-extended imm10 to a register. -/
  | addi (c : Nat) (g : Guard) (rd rs1 : Reg) (imm : BitVec 10)
  /-- ANDI (R82): Bitwise and with a sign-extended imm10. -/
  | andi (c : Nat) (g : Guard) (rd rs1 : Reg) (imm : BitVec 10)
  /-- ORI (R82): Bitwise or with a sign-extended imm10. -/
  | ori (c : Nat) (g : Guard) (rd rs1 : Reg) (imm : BitVec 10)
  /-- XORI (R82): Bitwise xor with a sign-extended imm10. -/
  | xori (c : Nat) (g : Guard) (rd rs1 : Reg) (imm : BitVec 10)
  /-- SLLI (R82): Logical left shift by an immediate amount. -/
  | slli (c : Nat) (g : Guard) (rd rs1 : Reg) (sh : BitVec 6)
  /-- SRLI (R82): Logical right shift by an immediate amount. -/
  | srli (c : Nat) (g : Guard) (rd rs1 : Reg) (sh : BitVec 6)
  /-- SRAI (R82): Arithmetic right shift by an immediate amount. -/
  | srai (c : Nat) (g : Guard) (rd rs1 : Reg) (sh : BitVec 6)
  /-- LI (R82): Loads a sign-extended imm15 into a register. -/
  | li (c : Nat) (g : Guard) (rd : Reg) (imm : BitVec 15)
  /-- LSI (R82): Shifts a register left by 15 and ors in an unsigned imm15. -/
  | lsi (c : Nat) (g : Guard) (rd : Reg) (imm : BitVec 15)
  /-- CMP_EQ (R84): Sets a predicate to register equality. -/
  | cmpEq (c : Nat) (g : Guard) (pd : BitVec 3) (rs1 rs2 : Reg)
  /-- CMP_NE (R84): Sets a predicate to register inequality. -/
  | cmpNe (c : Nat) (g : Guard) (pd : BitVec 3) (rs1 rs2 : Reg)
  /-- CMP_LT (R84): Sets a predicate to signed less-than. -/
  | cmpLt (c : Nat) (g : Guard) (pd : BitVec 3) (rs1 rs2 : Reg)
  /-- CMP_GE (R84): Sets a predicate to signed greater-or-equal. -/
  | cmpGe (c : Nat) (g : Guard) (pd : BitVec 3) (rs1 rs2 : Reg)
  /-- CMP_LTU (R84): Sets a predicate to unsigned less-than. -/
  | cmpLtu (c : Nat) (g : Guard) (pd : BitVec 3) (rs1 rs2 : Reg)
  /-- CMP_GEU (R84): Sets a predicate to unsigned greater-or-equal. -/
  | cmpGeu (c : Nat) (g : Guard) (pd : BitVec 3) (rs1 rs2 : Reg)
  /-- CMPI_EQ (R84): Compares a register for equality with a sign-extended imm10. -/
  | cmpiEq (c : Nat) (g : Guard) (pd : BitVec 3) (rs1 : Reg) (imm : BitVec 10)
  /-- CMPI_NE (R84): Compares a register for inequality with a sign-extended imm10. -/
  | cmpiNe (c : Nat) (g : Guard) (pd : BitVec 3) (rs1 : Reg) (imm : BitVec 10)
  /-- CMPI_LT (R84): Signed less-than against a sign-extended imm10. -/
  | cmpiLt (c : Nat) (g : Guard) (pd : BitVec 3) (rs1 : Reg) (imm : BitVec 10)
  /-- CMPI_GE (R84): Signed greater-or-equal against a sign-extended imm10. -/
  | cmpiGe (c : Nat) (g : Guard) (pd : BitVec 3) (rs1 : Reg) (imm : BitVec 10)
  /-- CMPI_LTU (R84): Unsigned less-than against a sign-extended imm10. -/
  | cmpiLtu (c : Nat) (g : Guard) (pd : BitVec 3) (rs1 : Reg) (imm : BitVec 10)
  /-- CMPI_GEU (R84): Unsigned greater-or-equal against a sign-extended imm10. -/
  | cmpiGeu (c : Nat) (g : Guard) (pd : BitVec 3) (rs1 : Reg) (imm : BitVec 10)
  /-- PAND (R84): Predicate and of two optionally negated predicates. -/
  | pand (c : Nat) (g : Guard) (pd pa : BitVec 3) (na : Bool) (pb : BitVec 3) (nb : Bool)
  /-- POR (R84): Predicate or of two optionally negated predicates. -/
  | por (c : Nat) (g : Guard) (pd pa : BitVec 3) (na : Bool) (pb : BitVec 3) (nb : Bool)
  /-- PXOR (R84): Predicate xor of two optionally negated predicates. -/
  | pxor (c : Nat) (g : Guard) (pd pa : BitVec 3) (na : Bool) (pb : BitVec 3) (nb : Bool)
  /-- PGET (R84): Copies the predicates into a general register. -/
  | pget (c : Nat) (g : Guard) (rd : Reg)
  /-- PSET (R84): Sets p1-p7 from bits of a general register. -/
  | pset (c : Nat) (g : Guard) (rs1 : Reg)
  /-- LD_B (R85): Loads a sign-extended byte from the core's scratchpad. -/
  | ldB (c : Nat) (g : Guard) (rd rs1 : Reg) (imm : BitVec 10)
  /-- LD_BU (R85): Loads a zero-extended byte from the scratchpad. -/
  | ldBu (c : Nat) (g : Guard) (rd rs1 : Reg) (imm : BitVec 10)
  /-- LD_H (R85): Loads a sign-extended halfword from the scratchpad. -/
  | ldH (c : Nat) (g : Guard) (rd rs1 : Reg) (imm : BitVec 10)
  /-- LD_HU (R85): Loads a zero-extended halfword from the scratchpad. -/
  | ldHu (c : Nat) (g : Guard) (rd rs1 : Reg) (imm : BitVec 10)
  /-- LD_W (R85): Loads a sign-extended word from the scratchpad. -/
  | ldW (c : Nat) (g : Guard) (rd rs1 : Reg) (imm : BitVec 10)
  /-- LD_WU (R85): Loads a zero-extended word from the scratchpad. -/
  | ldWu (c : Nat) (g : Guard) (rd rs1 : Reg) (imm : BitVec 10)
  /-- LD_D (R85): Loads a doubleword from the scratchpad. -/
  | ldD (c : Nat) (g : Guard) (rd rs1 : Reg) (imm : BitVec 10)
  /-- ST_B (R85): Stores a byte to the scratchpad. -/
  | stB (c : Nat) (g : Guard) (rs2 rs1 : Reg) (imm : BitVec 10)
  /-- ST_H (R85): Stores a halfword to the scratchpad. -/
  | stH (c : Nat) (g : Guard) (rs2 rs1 : Reg) (imm : BitVec 10)
  /-- ST_W (R85): Stores a word to the scratchpad, clearing its poison mark. -/
  | stW (c : Nat) (g : Guard) (rs2 rs1 : Reg) (imm : BitVec 10)
  /-- ST_D (R85): Stores a doubleword to the scratchpad, clearing its poison marks. -/
  | stD (c : Nat) (g : Guard) (rs2 rs1 : Reg) (imm : BitVec 10)
  /-- LDR_W (R88): Checks and sends a 32-bit device-address read, holding the processor until data returns. -/
  | ldrW (c : Nat) (g : Guard) (rd rs1 : Reg) (imm : BitVec 10)
  /-- LDR_D (R88): Checks and sends a 64-bit device-address read. -/
  | ldrD (c : Nat) (g : Guard) (rd rs1 : Reg) (imm : BitVec 10)
  /-- STR_W (R89): Posts a checked 32-bit device-address store. -/
  | strW (c : Nat) (g : Guard) (rs2 rs1 : Reg) (imm : BitVec 10)
  /-- STR_D (R89): Posts a checked 64-bit device-address store. -/
  | strD (c : Nat) (g : Guard) (rs2 rs1 : Reg) (imm : BitVec 10)
  /-- LDR_RETURN (R89): Data or a refusal for an outstanding LDR arrives; the register is written or REMOTE is raised. -/
  | ldrReturn (c : Nat) (ans : Answer)
  /-- STR_REFUSED (R89): A refusal for a posted STR arrives; STATUS.rserr is set and RSERR records the first. -/
  | strRefused (c : Nat) (addr : W64) (status : BitVec 8)
  /-- MFS (R91): Reads a special register into a general register. -/
  | mfs (c : Nat) (g : Guard) (rd : Reg) (sr : BitVec 10)
  /-- MTS (R91): Writes a special register field by field. -/
  | mts (c : Nat) (g : Guard) (rs1 : Reg) (sr : BitVec 10)
  /-- MSET (R91): Sets bits of the RW fields of a special register. -/
  | mset (c : Nat) (g : Guard) (rs1 : Reg) (sr : BitVec 10)
  /-- MCLR (R91): Clears bits of the RW fields of a special register. -/
  | mclr (c : Nat) (g : Guard) (rs1 : Reg) (sr : BitVec 10)
  /-- QCTL_RETRY (R107): A QCTL write presents the halted head entry of a queue again. -/
  | qctlRetry (c q : Nat)
  /-- QCTL_DROP (R107): A QCTL write frees the halted head entry of a queue without effect and resumes it. -/
  | qctlDrop (c q : Nat)
  /-- BR (R98): Branches pc-relative. -/
  | br (c : Nat) (g : Guard) (off : BitVec 20)
  /-- CALL (R98): Saves pc+4 in g31 and branches pc-relative. -/
  | call (c : Nat) (g : Guard) (off : BitVec 20)
  /-- JR (R98): Jumps to a register-relative target. -/
  | jr (c : Nat) (g : Guard) (rs1 : Reg) (imm : BitVec 10)
  /-- JALR (R98): Jumps to a register-relative target, linking pc+4 in rd. -/
  | jalr (c : Nat) (g : Guard) (rd rs1 : Reg) (imm : BitVec 10)
  /-- DBNZ (R98): Decrements a register and branches if it is nonzero. -/
  | dbnz (c : Nat) (g : Guard) (rd : Reg) (imm : BitVec 15)
  /-- ERET (R94): Returns from an exception, restoring pc, predicates and interrupt enable. -/
  | eret (c : Nat) (g : Guard)
  /-- END (R110): A compute core's program ends and the core enters ENDED. -/
  | endProg (c : Nat) (g : Guard)
  /-- HALT (R111): The core enters HALTED with reason 1. -/
  | halt (c : Nat) (g : Guard)
  /-- NOP (R98): Instruction with no effect. -/
  | nop (c : Nat) (g : Guard)
  /-- MFENCE (R89): Holds the processor until every earlier STR is acknowledged. -/
  | mfence (c : Nat) (g : Guard)
  /-- MFENCE_COMPLETE (R89): The last outstanding STR acknowledgement arrives; MFENCE retires or raises REMOTE if rserr is set. -/
  | mfenceComplete (c : Nat)
  /-- TRAP (R98): Raises the TRAP exception with the code in EVAL. -/
  | trap (c : Nat) (g : Guard) (code : BitVec 20)
  /-- BRK (R111): The core enters HALTED with reason 2. -/
  | brk (c : Nat) (g : Guard)
  /-- WFI (R95): Holds a vatman or management core until its interrupt request line is asserted. -/
  | wfi (c : Nat) (g : Guard)
  /-- WFI_WAKE (R95): The request line is asserted and a waiting WFI retires. -/
  | wfiWake (c : Nat)
  /-- INTERRUPT_TAKEN (R96): At an instruction boundary the device takes a forced stop, debug halt or enabled interrupt, abandoning a waiting instruction. -/
  | interruptTaken (c : Nat) (ev : Boundary)
  /-- ISSUE (R103): Checks a scratchpad-form issue and tries to reserve an engine queue entry. -/
  | issue (c : Nat) (g : Guard) (q : BitVec 4) (nb : Bool) (rs1 : Reg) (pd : BitVec 3) (imm : BitVec 7)
  /-- ISSUE_B (R103): Checks an issue from IB0-IB3 and tries to reserve an engine queue entry. -/
  | issueB (c : Nat) (g : Guard) (q : BitVec 4) (nb : Bool) (pd : BitVec 3)
  /-- ISSUE_RESERVE (R103): A freed queue place lets a stalled ISSUE reserve, read, check and append its macro-instruction. -/
  | issueReserve (c : Nat)
  /-- IBINS (R103): Inserts a bit field of a register into an issue buffer word. -/
  | ibins (c : Nat) (g : Guard) (ib : BitVec 2) (pos lenm1 : BitVec 6) (rs1 : Reg)
  /-- QWAIT (R106): Waits until the named queues are empty, not halted and their engines idle. -/
  | qwait (c : Nat) (g : Guard) (nb : Bool) (pd : BitVec 3) (mask : BitVec 7)
  /-- QWAIT_RETIRE (R106): The queues named by a waiting QWAIT drain and it retires. -/
  | qwaitRetire (c : Nat)
  /-- SADD (R108): Adds to a sync counter after earlier stores are visible. -/
  | sadd (c : Nat) (g : Guard) (rs1 rs2 : Reg)
  /-- SSUB (R108): Checked subtract from a sync counter, raising SYNC on underflow. -/
  | ssub (c : Nat) (g : Guard) (rs1 rs2 : Reg)
  /-- SWAIT (R108): Registers a watch that holds the processor until a counter condition holds. -/
  | swait (c : Nat) (g : Guard) (rs1 rs2 : Reg) (cond : BitVec 3) (dec : Bool)
  /-- SREAD (R108): Reads a sync counter into a register. -/
  | sread (c : Nat) (g : Guard) (rd rs1 : Reg)
  /-- WAIT (R105): A WAIT macro-instruction reaches a queue head and registers a watch holding the queue. -/
  | wait (c q : Nat)
  /-- SIGNAL (R105): A SIGNAL at a queue head, once earlier work completes, adds to or subtracts from a counter. -/
  | signal (c q : Nat)
  /-- MATMUL (R139): The matrix engine accepts a dense MATMUL, reads its descriptors and makes the acceptance checks. -/
  | matmul (c : Nat)
  /-- MATMUL_SP (R138): The matrix engine accepts a MATMUL with a 2:4 sparse stationary operand. -/
  | matmulSp (c : Nat)
  /-- MAT_RING_TEST_PASS (R133): A failing ring test-and-decrease passes and the next slice's steps proceed. -/
  | matRingTestPass (c : Nat)
  /-- ACC_IN_FORMAT_HALT (R140): An ACC96 initial accumulator with a foreign anchor or reserved bit halts the MAT queue after acceptance. -/
  | accInFormatHalt (c : Nat)
  /-- MATMUL_COMPLETE (R143): The last write of a MATMUL is visible; ring counters and sig_add are applied. -/
  | matmulComplete (c : Nat)
  /-- CHAIN_RECORD_READ (R158): A VCHAIN at the VEC queue head has its chain record copied, arriving 7 cycles later. -/
  | chainRecordRead (c : Nat)
  /-- VCHAIN (R176): The vector engine accepts a fused chain and makes its acceptance checks. -/
  | vchain (c : Nat)
  /-- VCHAIN_COMPLETE (R180): A VCHAIN's last output and reduction are visible; sig_add is applied. -/
  | vchainComplete (c : Nat)
  /-- TLOAD (R155): The vector engine accepts a load of a tile register from a tensor. -/
  | tload (c : Nat)
  /-- TLOAD_COMPLETE (R181): A TLOAD finishes writing its tile. -/
  | tloadComplete (c : Nat)
  /-- TSTORE (R155): The vector engine accepts a store of a tile register to a tensor. -/
  | tstore (c : Nat)
  /-- TSTORE_COMPLETE (R181): A TSTORE's writes are complete. -/
  | tstoreComplete (c : Nat)
  /-- TFILL (R155): The vector engine accepts setting a tile register to a constant. -/
  | tfill (c : Nat)
  /-- TFILL_COMPLETE (R181): A TFILL completes after 4 cycles. -/
  | tfillComplete (c : Nat)
  /-- REDUCE (R169): The reduction unit accepts a reduction of a tensor. -/
  | reduce (c : Nat)
  /-- REDUCE_COMPLETE (R181): A REDUCE's results are visible; sig_add is applied. -/
  | reduceComplete (c : Nat)
  /-- ACC96_INPUT_HALT (R177): An ACC96 input with a foreign anchor or reserved bit halts the VEC queue after acceptance. -/
  | acc96InputHalt (c : Nat)
  /-- STREAM (R215): A stream engine accepts a STREAM, reads its descriptors and checks its program. -/
  | stream (c e : Nat)
  /-- SPLOAD (R196): A stream engine accepts copying instructions from scratchpad into its program store. -/
  | spload (c e : Nat)
  /-- SPLOAD_COMPLETE (R196): An SPLOAD's source read returns and the program store is written. -/
  | sploadComplete (c e : Nat)
  /-- SETA (R198): Stream instruction setting an address register to an immediate. -/
  | seta (c e : Nat)
  /-- ADDA (R198): Stream instruction adding an immediate to an address register. -/
  | adda (c e : Nat)
  /-- ADDR (R198): Stream instruction adding two address registers. -/
  | addr (c e : Nat)
  /-- LDD (R198): Stream instruction loading a descriptor base or scale base. -/
  | ldd (c e : Nat)
  /-- SETX (R198): Stream instruction setting the conversion element index. -/
  | setx (c e : Nat)
  /-- LOOP (R199): Stream instruction opening a counted loop. -/
  | loop (c e : Nat)
  /-- LOOPM (R201): Stream instruction reading a loop count from memory. -/
  | loopm (c e : Nat)
  /-- MOV (R200): Stream instruction moving bytes or converted elements in pieces. -/
  | mov (c e : Nat)
  /-- CVT (R202): Stream instruction setting the conversion for the STREAM. -/
  | cvt (c e : Nat)
  /-- PAGE (R203): Stream instruction looking up a page table entry. -/
  | page (c e : Nat)
  /-- STREAM_READ_RETURN (R212): Data, a page entry or a LOOPM count requested by a stream engine returns. -/
  | streamReadReturn (c e id : Nat) (ans : ReadAns)
  /-- RFILL (R205): Stream instruction selecting a ring slot to fill and starting its free test. -/
  | rfill (c e : Nat)
  /-- RFILL_FREE_TEST_PASS (R205): A repeated free-counter test of an RFILL passes and the delivery's writes may proceed. -/
  | rfillFreeTestPass (c e : Nat)
  /-- RDONE (R205): Stream instruction ending a ring delivery. -/
  | rdone (c e : Nat)
  /-- RTAKE (R205): Stream instruction waiting for a filled ring slot. -/
  | rtake (c e : Nat)
  /-- RTAKE_PASS (R205): A stalled RTAKE's ready test passes and the sequencer proceeds. -/
  | rtakePass (c e : Nat)
  /-- RFREE (R205): Stream instruction freeing a ring slot once earlier reads complete. -/
  | rfree (c e : Nat)
  /-- PUSH (R404): SE3 instruction pushing scratchpad bytes onto the couch stack. -/
  | push (c e : Nat)
  /-- POP (R404): SE3 instruction popping couch stack bytes into scratchpad. -/
  | pop (c e : Nat)
  /-- SWT (R206): Stream instruction waiting on a sync counter. -/
  | swt (c e : Nat)
  /-- SSIG (R206): Stream instruction adding to or subtracting from a counter once earlier writes and actions are done. -/
  | ssig (c e : Nat)
  /-- DELIV (R209): Stream instruction marking a delivery point without a ring. -/
  | deliv (c e : Nat)
  /-- STREAM_END (R199): Stream instruction ending the program. -/
  | streamEnd (c e : Nat)
  /-- DELIVERY_PIECE_WRITE (R210): A write piece of a deadline delivery is written in its scheduled cycle or slips. -/
  | deliveryPieceWrite (c e : Nat)
  /-- DELIVERY_ACTION (R209): At or after deadline D_k a delivery point's action is applied and lateness counted. -/
  | deliveryAction (c e : Nat)
  /-- STACK_MERGE_SEND (R207): A held stack request is sent after 4 cycles or at its block end. -/
  | stackMergeSend (c e : Nat)
  /-- DEVICE_WRITE_ACK (R214): An acknowledgement of a stream engine device write arrives. -/
  | deviceWriteAck (c e id : Nat) (status : Nat)
  /-- ACK_WINDOW_EXPIRY (R214): The acknowledgement window A of device writes ends in deterministic mode. -/
  | ackWindowExpiry (c e : Nat)
  /-- STREAM_COMPLETE (R219): A STREAM's last action or acknowledgement is done; sig_add is applied. -/
  | streamComplete (c e : Nat)
  /-- SEND (R262): The channel engine accepts a SEND of count messages. -/
  | send (c : Nat)
  /-- SEND_MESSAGE (R263): A SEND holding credit spends it and sends one message's packets. -/
  | sendMessage (c : Nat)
  /-- SEND_M (R260): The channel engine accepts a send of up to 16 B to a mailbox. -/
  | sendM (c : Nat)
  /-- RSYNC (R287): The channel engine sends a sync word to the hub's sync frame unit. -/
  | rsync (c : Nat)
  /-- OPEN (R270): The channel engine opens a dynamic connection by sending an OPEN packet. -/
  | openChan (c : Nat)
  /-- CLOSE (R271): The channel engine closes a dynamic connection and sends a CLOSE packet. -/
  | closeChan (c : Nat)
  /-- CHANNEL_DATA (R257): A channel DATA packet arrives at a receive endpoint; the message lands, spills or is refused. -/
  | channelData (c : Nat) (m : ChMsg)
  /-- ENDPOINT_FREE_TEST_PASS (R258): An endpoint's free-counter test passes, freeing the oldest slot and returning a credit. -/
  | endpointFreeTestPass (c e : Nat)
  /-- SPILL_DRAIN (R276): A drain read of the oldest spilled message returns and lands it in a freed slot. -/
  | spillDrain (c e : Nat) (ans : ReadAns)
  /-- CREDIT_RETURN (R263): A CREDIT packet returns one credit to a sender. -/
  | creditReturn (c e : Nat) (m : ChMsg)
  /-- LANDING_ACK (R263): A LACK arrives and the SEND completes. -/
  | landingAck (c e : Nat) (m : ChMsg)
  /-- SEND_REFUSED (R264): A REFUSE returns for a message of a SEND, stopping it and halting the queue once answers are in. -/
  | sendRefused (c e mc seq status : Nat)
  /-- MAILBOX_MESSAGE (R260): An MBOX packet is stored in an empty mailbox or refused. -/
  | mailboxMessage (c : Nat) (m : ChMsg)
  /-- MAILBOX_ANSWER (R263): An MBRSP returns and the SEND.M completes or halts. -/
  | mailboxAnswer (c : Nat) (m : ChMsg)
  /-- MAILBOX_CLEAR (R260): Writing 1 to CHN_MBOX.full empties the mailbox. -/
  | mailboxClear (c e : Nat)
  /-- OPEN_PACKET (R270): An accepting device checks an OPEN and answers ACCEPT or REJECT. -/
  | openPacket (c : Nat) (m : ChMsg)
  /-- ACCEPT (R270): An ACCEPT arrives; the sender stores the connection and credits and the OPEN completes. -/
  | accept (c : Nat) (m : ChMsg)
  /-- REJECT (R270): A REJECT halts the queue at the OPEN and the endpoint returns to CLOSED. -/
  | reject (c e : Nat) (m : ChMsg)
  /-- CLOSE_PACKET (R271): A CLOSE packet closes the connection entry and returns the target to LISTEN. -/
  | closePacket (m : Nat × ChMsg)
  /-- OPEN_TIMEOUT (R270): No answer within open_to ticks halts the queue with E_TIMEOUT. -/
  | openTimeout (c : Nat)
  /-- DEADLOCK_DETECT (R277): A credit-less stall count reaches 2^dl_log2 and sets the deadlock bit. -/
  | deadlockDetect (c e : Nat)
  /-- RELEASE_CYCLE (R279): A held rdy_ctr increment of a rel_en endpoint is applied at its release cycle. -/
  | releaseCycle (c e : Nat)
  /-- SYNC_APPLY (R283): A node applies the cycle's counter operations in the fixed order and tests watches. -/
  | syncApply (node : Nat)
  /-- SYNC_WORD (R287): The sync frame unit takes a sync word, stamps it and hands the frame to a span port. -/
  | syncWord (c : Nat) (w : W64)
  /-- SYNC_FRAME_RECEIVE (R288): A received sync frame is checked and applied, held to its stamp or discarded. -/
  | syncFrameReceive (port : Nat)
  /-- SYNC_FRAME_RELEASE (R340): A held tick-released event is applied at the first cycle reaching its stamp. -/
  | syncFrameRelease (i : Nat)
  /-- MESH_PACKET_ROUTE (R227): A router forwards, ejects, drops or refuses a mesh packet. -/
  | meshPacketRoute (r inPort hdr : Nat) (data : List Byte) (marks : NetMarks)
  /-- CTL_PACKET_ROUTE (R238): A control network node forwards, delivers or drops a control packet. -/
  | ctlPacketRoute (n inPort hdr : Nat) (pay : List Byte × NetMarks)
  /-- FENCE_NOTICE (R247): A FENCE notice reaches a router or remap copy and the fence takes effect there. -/
  | fenceNotice (c : Nat) (copy : Option Nat)
  /-- WINDOW_READ (R30): A READ arrives for a scratchpad window address and is served or refused. -/
  | windowRead (c off len : Nat) (by_ : WinBy)
  /-- WINDOW_WRITE (R30): A WRITE arrives for a scratchpad window address and is written or refused. -/
  | windowWrite (c off : Nat) (data : List Byte) (bad : List Nat) (by_ : WinBy)
  /-- LOAD (R306): A mould load command raises the deckle and starts fetching the header. -/
  | load (v : Nat) (src : Src)
  /-- LOAD_FRAME_FETCH (R309): A header or frame record arrives and is CRC-checked, refetched on failure. -/
  | loadFrameFetch (v i : Nat) (rec : List Byte) (bad : List Nat)
  /-- LOAD_CHECK_COMPLETE (R308): Header and check passes end; the load moves to WRITE or is rejected. -/
  | loadCheckComplete (v : Nat)
  /-- LOAD_WRITE_COMPLETE (R310): Every frame is written and every tree built; the load moves to FINISH. -/
  | loadWriteComplete (v : Nat)
  /-- LOAD_FINISH (R311): Counters are set, the deckle lowered, held increments released and the vat made READY. -/
  | loadFinish (v : Nat)
  /-- ABORT (R309): A load or scan-in in progress is ended with E_ABORTED. -/
  | abort (v : Nat) (src : Src)
  /-- RELEASE (R315): Lowers a deckle left raised from READY or FREE. -/
  | release (v : Nat) (src : Src)
  /-- START (R314): Starts a sheet of a READY vat, at once or at its armed launch. -/
  | start (v : Nat) (src : Src)
  /-- SHEET_START (R313): The vat enters RUNNING; enlisted cores, endpoints and latches are set. -/
  | sheetStart (v : Nat)
  /-- CORE_START (R313): A core's control processor executes its first instruction at CYCLE = start_off of its region. -/
  | coreStart (c : Nat)
  /-- SHEET_END (R112): Every enlisted core is ENDED and drained; the watermark is written and the vat returns to READY. -/
  | sheetEnd (v : Nat)
  /-- FORCED_STOP (R319): Every queue of the vat stops for reason 4 and store buffers drain. -/
  | forcedStop (v : Nat)
  /-- STOP (R319): Host command applying a forced stop to a READY or RUNNING vat. -/
  | stop (v r : Nat)
  /-- DRAIN_TIMEOUT (R319): A store buffer not empty within drain_to ticks is scanned with its contents. -/
  | drainTimeout (v : Nat)
  /-- SCAN_OUT_START (R323): Once every core is still, scan-out writes core slots and records. -/
  | scanOutStart (v : Nat)
  /-- SCAN_OUT_COMPLETE (R323): The header write is acknowledged and the vat enters SCANNED. -/
  | scanOutComplete (v : Nat)
  /-- SCAN_IN (R324): Checks a scan image and starts reading it into a FREE vat. -/
  | scanIn (v : Nat) (src : Src)
  /-- SCAN_IN_COMPLETE (R324): Every section is restored and the vat enters SCANNED. -/
  | scanInComplete (v : Nat)
  /-- RESUME (R319): Continues a scanned sheet, lowering the deckle and counting RESUMED. -/
  | resume (v : Nat) (src : Src)
  /-- PLAN (R293): Switches to another sealed vat plan when every affected vat is FREE. -/
  | plan (r : Nat)
  /-- KILL (R512): Stops the vat and sends it to WIPING or FAULTED. -/
  | kill (v r : Nat)
  /-- VAT_RESET (R295): Resets one vat into WIPING. -/
  | vatReset (v r : Nat)
  /-- WIPE_COMPLETE (R397): The last controller finishes the vat's wipe and the vat enters FREE. -/
  | wipeComplete (v : Nat)
  /-- ARM (R339): A write setting VAT_DET_CTL.arm arms the vat for a launch tick, or is refused. -/
  | arm (v : Nat) (x : W32)
  /-- LAUNCH_TICK (R339): A pending start enters RUNNING at the launch tick or grid tick. -/
  | launchTick (v : Nat)
  /-- GTC_SET (R332): The management core loads the GTC while no vat runs. -/
  | gtcSet (t : W64)
  /-- GTC_ALARM (R541): The GTC reaches GTC_ALARM and fires source 668. -/
  | gtcAlarm
  /-- TREQ_SEND (R336): Each sync period the device sends a TREQ to its upstream and stamps t1. -/
  | treqSend
  /-- TREQ_RECEIVE (R336): An upstream stamps a TREQ and answers with a TRSP. -/
  | treqReceive (port : Nat)
  /-- TRSP_RECEIVE (R337): A TRSP arrives; offset and delay are computed and the GTC stepped or trimmed. -/
  | trspReceive (port : Nat)
  /-- SYNC_LOSS_TIMEOUT (R337): No valid TRSP for 4 periods moves LOCKED to HOLDOVER. -/
  | syncLossTimeout
  /-- REFRESH_SLOT (R362): A refresh slot begins; every bank refreshes n_r rows and the scrubber reads a block. -/
  | refreshSlot (i : Nat)
  /-- STACK_TEMP_READ (R361): Every 100 us the controller reads layer temperatures and sets the retention time. -/
  | stackTempRead (i t : Nat)
  /-- STACK_READ (R358): A stack controller admits a read request. -/
  | stackRead (who : StkWho × Option Nat) (a n : Nat)
  /-- STACK_READ_RETURN (R359): A stack read's data is presented at the crossing. -/
  | stackReadReturn (k : Nat)
  /-- STACK_WRITE (R358): A stack controller admits a write and acknowledges it from its write queue. -/
  | stackWrite (who : StkWho × Option Nat) (a : Nat) (data : List Byte) (bad : List Nat)
  /-- READ_MODIFY_WRITE_ACK (R359): A sub-word write's read access completes and its acknowledgement is sent. -/
  | readModifyWriteAck (k : Nat)
  /-- STACK_COMMAND (R376): A controller accepts a stack engine command record and makes its checks. -/
  | stackCommand (by_ : StkBy) (v off : Nat) (data : List Byte) (bad : List Nat)
  /-- STACK_COMMAND_START (R372): A queued command starts on an engine after the one before completes. -/
  | stackCommandStart (v : Nat)
  /-- ACCUM (R378): Stack engine op adding sources into a destination. -/
  | accum (id : Nat)
  /-- CONVERT (R379): Stack engine op converting elements, optionally to 2:4 sparse form. -/
  | convert (id : Nat)
  /-- ADAM (R380): Stack engine Adam optimizer step. -/
  | adam (id : Nat)
  /-- LAMB (R381): Stack engine LAMB optimizer step in two phases. -/
  | lamb (id : Nat)
  /-- SGD (R382): Stack engine SGD optimizer step. -/
  | sgd (id : Nat)
  /-- SUMSQ (R383): Stack engine sum of squares in FP64. -/
  | sumsq (id : Nat)
  /-- GATHER (R384): Stack engine op copying indexed table rows. -/
  | gather (id : Nat)
  /-- SCATTER_ADD (R385): Stack engine op adding rows into indexed table rows. -/
  | scatterAdd (id : Nat)
  /-- KVCOPY (R386): Stack engine op copying KV pages by a pair list. -/
  | kvcopy (id : Nat)
  /-- WIPE (R387): Stack engine op writing zero with valid check bits. -/
  | wipe (id : Nat)
  /-- VDEF (R390): Defines or frees a versioned weight region. -/
  | vdef (id : Nat)
  /-- VPIN (R391): Pins a version slot and returns its base. -/
  | vpin (id : Nat)
  /-- VUNPIN (R391): Unpins a version slot by epoch. -/
  | vunpin (id : Nat)
  /-- CONTROLLER_RING_EXCHANGE (R389): The controller ring exchange completes, giving every engine all eight records. -/
  | controllerRingExchange (id : Nat)
  /-- STACK_SHARE_COMPLETE (R371): An engine completes its share of a command and answers. -/
  | stackShareComplete (id k : Nat)
  /-- SET_ASIDE_RELEASE (R393): A set-aside update starts once its target's pins reach zero. -/
  | setAsideRelease (id : Nat)
  /-- STACK_COMMAND_COMPLETE (R371): All eight answers return and the command completes with its status. -/
  | stackCommandComplete (id : Nat)
  /-- COUCH_RESET (R406): Writing VAT_COUCH_CTL.reset sets every top pointer of the vat to zero. -/
  | couchReset (v : Nat)
  /-- ADV_LOAD (R412): Reads the vat's advisor policy records and clears its banks. -/
  | advLoad (v x : Nat)
  /-- ADV_CLOSE (R413): Exchanges the advisor banks and evaluates verdicts for each slot. -/
  | advClose (v x : Nat)
  /-- ADV_CLOSE_COMPLETE (R415): Every verdict write is acknowledged; status is set and the counter raised. -/
  | advCloseComplete (v : Nat)
  /-- ADMIT (R425): Admits a sequence into an EMPTY slot as PENDING. -/
  | seqAdmit (v slot : Nat)
  /-- PAUSE (R424): Pauses a slot or requests a pause. -/
  | pause (v slot : Nat)
  /-- SEQ_RESUME (R424): Resumes a paused slot to PENDING or clears pause_req. -/
  | seqResume (v slot : Nat)
  /-- SEQ_STOP (R424): Stops a slot or requests a stop. -/
  | seqStop (v slot : Nat)
  /-- RETIRE (R424): Empties a PAUSED or DONE slot. -/
  | retire (v slot : Nat)
  /-- GROW (R425): Sets a slot's mapped page count. -/
  | grow (v slot arg : Nat)
  /-- STEP (R429): Applies the previous outcomes and builds a new step list. -/
  | step (v : Nat) (src : Src)
  /-- STEP_NOADV (R428): Builds a new step list discarding the previous outcomes. -/
  | stepNoadv (v : Nat) (src : Src)
  /-- BATCH_RESET (R428): Sets VAT_BATCH_CTL.prev to 0 without changing slots. -/
  | batchReset (v : Nat) (src : Src)
  /-- STEP_COMPLETE (R432): A STEP's writes are acknowledged; status is set, the counter raised and held commands applied. -/
  | stepComplete (v : Nat)
  /-- BAL_NEXT (R438): A read of BAL_NEXT hands out a group member's next row or none. -/
  | balNext (v group member : Nat)
  /-- PAIR_RECEIVE (R448): A codeword pair is decoded; CCWs, acks, naks, credits and flits are acted on. -/
  | pairReceive (port : Nat) (x : Option Pair) (corrected : Nat)
  /-- RETRAIN (R457): 32 bad pairs or 16 naks for one ack send the link from UP to TRAIN. -/
  | retrain (port : Nat)
  /-- LOSS_OF_SIGNAL (R457): Loss of signal on a lane sends the link to DOWN. -/
  | lossOfSignal (port : Nat)
  /-- SIGNAL_DETECT (R457): Signal on all lanes moves DOWN to TRAIN. -/
  | signalDetect (port : Nat)
  /-- TRAINING_COMPLETE (R457): Training completes and the link enters ALIGN. -/
  | trainingComplete (port : Nat)
  /-- TRAIN_TIMEOUT (R457): 500 ms without training completion returns the link to DOWN. -/
  | trainTimeout (port : Nat)
  /-- ALIGN_COMPLETE (R457): 64 consecutive good pairs move ALIGN to HELLO. -/
  | alignComplete (port : Nat) (reversed : Bool)
  /-- ALIGN_TIMEOUT (R457): 1 ms without alignment returns the link to TRAIN. -/
  | alignTimeout (port : Nat)
  /-- HELLO (R458): A HELLO or HELLO_ACK is checked; the link enters UP or FAILED. -/
  | hello (port : Nat)
  /-- HELLO_TIMEOUT (R457): 100 us without an answer in HELLO returns the link to TRAIN. -/
  | helloTimeout (port : Nat)
  /-- LINK_DOWN_FRAME (R457): A LINK DOWN frame sends the link to DOWN. -/
  | linkDownFrame (port : Nat)
  /-- SPAN_PORT_ENABLE (R457): Writing SPAN_PORT_CTL.en 1 moves DISABLED to DOWN, or 0 sends LINK DOWN and disables. -/
  | spanPortEnable (port x : Nat)
  /-- FRAME_JOIN_TIMEOUT (R453): Joining packets into a CHAN or RWRITE frame stops 8 cycles after the last joined. -/
  | frameJoinTimeout (port : Nat)
  /-- RREAD (R465): A remote read frame is admitted and read, or refused. -/
  | rread (port : Nat)
  /-- RWRITE (R465): A remote write frame is admitted and split into WRITEs, or refused. -/
  | rwrite (port : Nat)
  /-- RDATA (R467): Remote read data completes a tag's READ packets. -/
  | rdata (port : Nat)
  /-- RACK (R467): A remote write acknowledgement completes a tag's WRITE packets. -/
  | rack (port : Nat)
  /-- CHAN (R453): A CHAN frame is admitted and split into channel packets. -/
  | chan (port : Nat)
  /-- CHREQ (R463): A CHREQ frame carrying OPEN, CLOSE or MBOX is admitted or refused. -/
  | chreq (port : Nat)
  /-- CHRSP (R463): A CHRSP frame carrying a channel answer is delivered. -/
  | chrsp (port : Nat)
  /-- REFUSE (R451): A REFUSE frame answers the refused request with its status. -/
  | refuse (port : Nat)
  /-- REQUEST_TIMEOUT (R467): No response within req_to ticks answers a tag's packets with E_TIMEOUT. -/
  | requestTimeout (port : Nat)
  /-- EXPORT_WINDOW_CLOSE (R466): Writing open := 0 closes an export window from that cycle. -/
  | exportWindowClose (v i : Nat)
  /-- PAIR_ACTIVE (R476): Starts pairing as the active device. -/
  | pairActive
  /-- PAIR_MIRROR (R476): Starts pairing as the mirror device. -/
  | pairMirror
  /-- PAIRING_TIMEOUT (R476): Pairing not done within 1 s returns to SINGLE with E_TIMEOUT. -/
  | pairingTimeout
  /-- UNPAIR (R492): Leaves the pair, making or discarding withheld releases and logs. -/
  | unpair
  /-- HANDOVER (R493): The active commits every mirrored vat, makes them standby and enters MIRROR. -/
  | handover
  /-- TAKEOVER (R494): The mirror discards partial logs, applies full commits and lifts standby. -/
  | takeover
  /-- TAKEOVER_COMPLETE (R494): Owed applies finish and the device enters ACTIVE or SINGLE. -/
  | takeoverComplete
  /-- BEAT_SEND (R489): Every 10 us the device sends a heartbeat. -/
  | beatSend
  /-- BEAT_RECEIVE (R491): A valid BEAT is recorded and role conflicts detected. -/
  | beatReceive
  /-- HEARTBEAT_LOSS (R490): No valid BEAT for 30,000 ticks sends the device to BROKEN. -/
  | heartbeatLoss
  /-- MIRROR_ENABLE (R481): Writing a nonzero mode sends CTL ENABLE for a vat. -/
  | mirrorEnable (v x : Nat)
  /-- MIRROR_DISABLE (R481): Writing mode 0 sends DISABLE and lifts standby. -/
  | mirrorDisable (v x : Nat)
  /-- CTL_ENABLE (R481): The mirror checks an ENABLE and makes its vat standby or refuses. -/
  | ctlEnable
  /-- CTL_DISABLE (R481): The mirror lifts standby on a DISABLE. -/
  | ctlDisable
  /-- CTL_HANDOVER (R493): The peer learns that the active has handed over. -/
  | ctlHandover
  /-- CTLRSP (R481): A twin control answer arrives and sets TWIN_VAT_STAT.status. -/
  | ctlrsp
  /-- TWIN_COMMIT (R484): A STEP-mode commit copies dirty blocks and records and sends COMMIT. -/
  | twinCommit (v : Nat)
  /-- RESYNC (R483): Copies every block of the enabled ranges, the records and a COMMIT. -/
  | resync (v : Nat)
  /-- MWRITE (R485): The mirror logs a captured write. -/
  | mwrite
  /-- MREC (R485): The mirror logs a mirrored record. -/
  | mrec
  /-- COMMIT_FRAME (R486): The mirror receives COMMIT, answers CACK once logged, or discards on E_POISON. -/
  | commitFrame
  /-- CACK (R487): A CACK arrives and the commit's withheld releases are made. -/
  | cack
  /-- MACK (R485): A MACK reports freed log units to the active. -/
  | mack
  /-- COMMIT_APPLIED (R486): The mirror finishes applying a commit in log order. -/
  | commitApplied (v : Nat)
  /-- ASSIGN (R497): Assigns a job ID to a FREE vat and clears its accounting. -/
  | assign (v : Nat) (src : Src) (job : Nat)
  /-- RELEASE_JOB (R498): Starts a release wipe of a FREE vat with a job. -/
  | releaseJob (v r : Nat)
  /-- RELEASE_WIPE_COMPLETE (R498): A release wipe ends and the job ID is cleared. -/
  | releaseWipeComplete (v : Nat)
  /-- RECLAIM (R506): Accepts a reclaim with a deadline and interrupts the vatman. -/
  | reclaim (v r : Nat)
  /-- YIELD (R507): The vatman ends PENDING; the step turns HELD once commands complete. -/
  | yield (v : Nat)
  /-- RECLAIM_DEADLINE (R508): The image reaches the deadline in PENDING and a forced stop is applied. -/
  | reclaimDeadline (v : Nat)
  /-- EVACUATE (R510): Checks an evacuation list and starts the mover. -/
  | evacuate (v r : Nat)
  /-- EVACUATION_COMPLETE (R510): The last write leaves or is acknowledged and the vat enters WIPING. -/
  | evacuationComplete (v : Nat)
  /-- EVACUATION_FAILURE (R510): A refused or timed-out write ends the evacuation and returns to HELD. -/
  | evacuationFailure (v status : Nat)
  /-- ACCOUNTING_WINDOW_END (R504): At a window boundary accounting records are written. -/
  | accountingWindowEnd
  /-- CALIBRATION_INTERVAL (R505): Each 1 ms interval estimated energy is calibrated against measured energy. -/
  | calibrationInterval (measured : Nat)
  /-- SQ_TAIL (R524): A submission tail doorbell lets the device fetch pending entries. -/
  | sqTail (fn r len x : Nat)
  /-- CQ_HEAD (R524): A completion head doorbell frees completion records. -/
  | cqHead (fn r len x : Nat)
  /-- SHEET (R534): The SHEET doorbell starts a sheet as START with arm = 0. -/
  | sheet (fn r len x : Nat)
  /-- ENTRY_FETCH (R526): Fetched command entries arrive and are checked, or fetching halts on a read error. -/
  | entryFetch (r : Nat) (ans : ReadAns)
  /-- COMPLETION_RECORD_WRITE (R529): A completion record waiting for room is written, with its MSI-X message. -/
  | completionRecordWrite (r : Nat)
  /-- RING_DISABLE (R530): Writing en := 0 stops fetching and resets the ring once drained. -/
  | ringDisable (fn r : Nat)
  /-- FUNCTION_LEVEL_RESET (R530): An FLR stops a function's rings and resets its MSI-X and segments. -/
  | functionLevelReset (fn : Nat)
  /-- MEMORY_WINDOW_READ (R520): A BAR2 read is admitted and read, or refused. -/
  | memoryWindowRead (fn off len : Nat)
  /-- MEMORY_WINDOW_WRITE (R520): A BAR2 write is admitted and written, or refused. -/
  | memoryWindowWrite (fn off : Nat) (data : List Byte) (ep : Bool)
  /-- HOST_SADD (R342): Host command adding to a counter with an optional release tick. -/
  | hostSadd (r v : Nat)
  /-- SEQ (R425): Host command carrying a sequence slot command. -/
  | seq (r v : Nat)
  /-- STKCMD (R532): Host command reading a stack engine record and issuing it. -/
  | stkcmd (r v : Nat)
  /-- COPY (R536): Host DMA copy between host memory and a vat's memory. -/
  | copy (r v : Nat)
  /-- COPY_COMPLETE (R536): A COPY's writes are acknowledged or sent and it completes. -/
  | copyComplete (r uid : Nat)
  /-- HOST_NOP (R532): Host command with no effect. -/
  | hostNop (r : Nat)
  /-- TWIN (R532): Host command carrying a TWIN_CTL command code. -/
  | twin (r : Nat)
  /-- IRQ_EVENT (R544): An interrupt source event makes the source pending and assigns it. -/
  | irqEvent (n : Nat)
  /-- IRQ_CLAIM (R545): A target reads IRQ_CLAIM, claiming its highest pending source. -/
  | irqClaim (t : Nat) (debug : Bool)
  /-- IRQ_COMPLETE (R545): The claiming target completes a source. -/
  | irqComplete (w : Who) (t n : Nat)
  /-- WAKE_WATCH_EVENT (R548): An AO event while the fast clock is stopped sets a latch or is lost. -/
  | wakeWatchEvent (n : Nat)
  /-- WAKE_LATCH_DELIVER (R549): On hub restart each set latch is presented as one event. -/
  | wakeLatchDeliver
  /-- ERROR_REPORT (R551): A report is written to the log, held or counted as dropped. -/
  | errorReport (src event status : Nat) (vat : Option Nat) (info0 info1 : Nat)
  /-- ERRLOG_TAIL (R551): The consumer advances the tail and holders are written. -/
  | errlogTail (w : Who) (x : Nat)
  /-- CORE_FENCE (R558): The management core fences a physical position. -/
  | coreFence (w : Who) (cl pos : Nat)
  /-- DEVICE_FAULT (R560): An uncorrectable error in unowned hub state forces a stop of every vat. -/
  | deviceFault (block : Nat)
  /-- VAT_HOST_MSG (R541): A host write fires vat event 5. -/
  | vatHostMsg (fn v x : Nat)
  /-- HOST_TO_MGMT (R541): A PF write fires source 665. -/
  | hostToMgmt (x : Nat)
  /-- MGMT_TO_HOST (R541): A management core write fires source 666. -/
  | mgmtToHost (x : Nat)
  /-- DVFS_SWITCH (R563): An eligible operating point change locks, ramps and switches on a grid tick. -/
  | dvfsSwitch
  /-- DROOP_TRIP (R564): A sensor trips and a stretch episode begins within 2 ns. -/
  | droopTrip (sensor drop : Nat)
  /-- STRETCH_END (R565): The stretch episode ends at a cycle edge meeting all conditions. -/
  | stretchEnd (above : Nat)
  /-- THERMAL_SAMPLE (R573): Every 100 us sensors are read and thermal levels set. -/
  | thermalSample (t : List Int)
  /-- THROTTLE_STEP (R574): Every 10 ms at THROTTLE the thermal limit falls one point. -/
  | throttleStep
  /-- THROTTLE_RECOVERY (R574): Every 100 ms after THROTTLE clears the limit rises one point. -/
  | throttleRecovery
  /-- POWER_SAMPLE (R578): Every 1,000 ticks input is sampled, energy accumulated and cap and sag checked. -/
  | powerSample (mv ma nj : Nat)
  /-- CAP_WINDOW (R579): At a 10 ms window end the cap limit may fall one point. -/
  | capWindow
  /-- CAP_RISE_WINDOW (R579): At a 1 s window end the cap limit may rise one point. -/
  | capRiseWindow
  /-- TELEMETRY_UPDATE (R581): Every 100 ms telemetry sensors are updated. -/
  | telemetryUpdate (inlet conv : Int)
  /-- CORE_GATE (R567): An idle count of gate_idle cycles puts a core into GATED. -/
  | coreGate (c : Nat)
  /-- CLUSTER_POWER_REQUEST (R568): A PWR_CL.req write requests RUN, RETAIN or OFF. -/
  | clusterPowerRequest (w : Who) (cl req : Nat)
  /-- CLUSTER_POWER_ENTRY (R568): A cluster completes entry to RETAIN or OFF. -/
  | clusterPowerEntry (cl : Nat)
  /-- CLUSTER_WAKE_COMPLETE (R569): A cluster wake and any wipe complete, releasing the waiting command. -/
  | clusterWakeComplete (cl : Nat)
  /-- SLEEP_REQUEST (R571): Request for the device to enter SLEEP. -/
  | sleepRequest (w : Who)
  /-- DEVICE_WAKE (R572): A wake event returns the device from SLEEP to RUN. -/
  | deviceWake
  /-- MODULE_START (R635): VIN at 58 V with EN high for 1 ms starts the module. -/
  | moduleStart (mv ticks off : Nat)
  /-- MODULE_STOP (R635): VIN below 54 V or EN low for 10 us turns conversion off. -/
  | moduleStop (mv : Nat) (en : Bool) (ticks : Nat)
  /-- COLD_RESET (R584): A cold reset wipes and resets the whole device. -/
  | coldReset
  /-- RESET_COLD (R584): A RESET_CTL write of kind COLD requests a cold reset. -/
  | resetCold (w : Who) (key : Nat)
  /-- RESET_WARM (R584): A RESET_CTL write of kind WARM requests a warm reset. -/
  | resetWarm (w : Who) (key : Nat)
  /-- WARM_RESET (R585): A warm reset wipes all outside the always-on domain. -/
  | warmReset
  /-- PERST_ASSERT (R630): PERST# assertion starts a warm reset. -/
  | perstAssert
  /-- PERST_DEASSERT (R630): PERST# deassertion allows the warm reset's release. -/
  | perstDeassert
  /-- ROM_BOOT (R592): The ROM authenticates a slot and jumps to firmware or fails. -/
  | romBoot (errA errB : Nat)
  /-- PROT_SEAL (R599): A seal write is checked and freezes the protection set-up. -/
  | protSeal (w : Who)
  /-- VM_START (R595): A VM_CTL go starts a vatman. -/
  | vmStart (w : Who) (v entry evec : Nat)
  /-- VM_CHTAB_APPLY (R252): A write of word 3 applies a vatman channel descriptor. -/
  | vmChtabApply (w : Who) (v e x : Nat)
  /-- LIFECYCLE_REQUEST (R601): An LC_CTL go is checked and starts a lifecycle reset. -/
  | lifecycleRequest (w : Who) (toSt tokOff : Nat)
  /-- LIFECYCLE_STRAP_SAMPLE (R601): After the wipes the strap is sampled and the fuse bit blown or not. -/
  | lifecycleStrapSample
  /-- FUSE_PROG (R602): Programs one fuse word. -/
  | fuseProg (w : Who) (item i value : Nat)
  /-- FUSE_PROGRAM_COMPLETE (R602): A fuse word finishes programming and busy clears. -/
  | fuseProgramComplete
  /-- S1_STRAP_CHANGE (R631): A presence strap change is taken after 10 ms without change. -/
  | s1StrapChange (on : Bool) (ticks : Nat)
  /-- EXTEST (R603): A boundary test instruction holds the pins and takes their links down. -/
  | extest
  /-- DAP_READ (R604): Debug transaction reading a device address. -/
  | dapRead (addr size : Nat)
  /-- DAP_WRITE (R604): Debug transaction writing a device address. -/
  | dapWrite (addr size data : Nat)
  /-- DAP_HALT (R606): Halts a RUNNING core with reason 3. -/
  | dapHalt (c : Nat)
  /-- DAP_RESUME (R606): Returns a core halted for reason 1-3 to RUNNING. -/
  | dapResume (c : Nat)
  /-- DAP_STEP (R606): Runs one instruction of a halted core. -/
  | dapStep (c : Nat)
  /-- DAP_STEP_TIMEOUT (R606): After 65,536 cycles a waiting stepped instruction is abandoned. -/
  | dapStepTimeout (c : Nat)
  /-- DAP_NOP (R604): Debug transaction with no effect. -/
  | dapNop
  /-- DAP_TRANSACTION_COMPLETE (R604): A DAP transaction completes and pend clears. -/
  | dapTransactionComplete
  /-- GET_ACCT (R608): MCTP message returning accounting records. -/
  | getAcct (vdm : Bool) (seq : Nat)
  /-- GET_LOG (R608): MCTP message returning error log entries. -/
  | getLog (vdm : Bool)
  /-- GET_LC (R608): MCTP message returning LC_STAT and BOOT_STAT. -/
  | getLc (vdm : Bool)
  /-- MCTP_RESET (R608): MCTP message requesting a warm reset. -/
  | mctpReset (vdm : Bool)
  /-- LC_REQ (R608): MCTP lifecycle request with its token. -/
  | lcReq (vdm : Bool) (toSt : Nat) (token : List Byte)
  /-- FIRMWARE_UPDATE (R608): PLDM update writing the boot image to the other slot. -/
  | firmwareUpdate (vdm : Bool) (image : List Byte) (wp : Bool)
  /-- FLASH_READ (R621): Copies a flash page into FLASH_BUF. -/
  | flashRead (w : Who)
  /-- FLASH_PROGRAM (R621): Writes FLASH_BUF to a flash page. -/
  | flashProgram (w : Who) (wp : Bool)
  /-- FLASH_ERASE (R621): Erases a 64 KiB sector. -/
  | flashErase (w : Who) (wp : Bool)
  /-- FLASH_COMMAND_COMPLETE (R621): A flash command completes or times out. -/
  | flashCommandComplete (err : Bool)
  /-- RC_READ (R16): Read of a register with RC fields returns and clears them. -/
  | rcRead (w : Who) (off size : Nat)
  /-- WIDE_REGISTER_READ (R614): A read of the lowest word of a wide register snapshots it. -/
  | wideRegisterRead (w : Who) (off : Nat)
  /-- CORE_VIEW_ACCESS (R619): An access through CORE_VIEW reaches the selected core block. -/
  | coreViewAccess (w : Who) (write : Bool) (o size data : Nat)
  /-- SCAN_WINDOW_ACCESS (R620): An access to a halted core's scan state. -/
  | scanWindowAccess (w : Who) (write : Bool) (o size data : Nat)
  /-- SYNC_CTR_SET (R622): A write sets a sync counter value. -/
  | syncCtrSet (w : Who) (ctr value : Nat)
  /-- CONN_CLOSE (R625): A write of close = 1 closes a connection entry and increments gen. -/
  | connClose (w : Who) (i : Nat)
  /-- REGISTER_WRITE (R14): A write to a register without a row of its own, by access type. -/
  | registerWrite (w : Who) (off size data : Nat)
  /-- RESERVED_MOP (R194): An engine accepts a head entry whose mop its queue leaves reserved and halts the queue with E_FORMAT. -/
  | reservedMop (c q : Nat)
  /-- RESET_WIPE_COMPLETE (R630): The wipes of a cold, warm or lifecycle reset, stack wipe included, complete, so every stack shows ready and a reset waiting on them is released. -/
  | resetWipeComplete
  /-- BANK_REFRESH (R363): With refresh slots disabled, a bank refreshes up to 4 rows on its own count while idle, and the scrubber reads when its channel is idle. -/
  | bankRefresh (i : Nat)
  /-- SPILL_WRITE_ACK (R276): The stack controllers acknowledge a message's spill-slot writes, so the message counts as landed and its LACK may go. -/
  | spillWriteAck (c e : Nat)
  /-- PAIR_SEND (R446): A span or twin port sends its next codeword pair, forming fresh CCWs and choosing priority and ordinary frames by credit, age and share. -/
  | pairSend (port : Nat)
  /-- HOST_LINK_UP (R516): The PCIe link finishes training at a rate and width, setting HOST_LINK and firing source 650. -/
  | hostLinkUp (rate width : Nat)
  /-- HOST_LINK_DOWN (R584): The PCIe link goes down, clearing HOST_LINK.up, firing source 650 and resetting the host port's rings, segments and MSI-X state. -/
  | hostLinkDown
  /-- HOT_RESET (R584): A PCIe Hot Reset resets the host port's rings, segments and MSI-X state as R530 gives. -/
  | hotReset
  /-- HOST_READ_COMPLETION (R537): A PCIe completion for a COPY's host read arrives, its data going on to the device or ending the COPY on Unsupported Request or Completer Abort. -/
  | hostReadCompletion (r uid off : Nat) (ans : ReadAns)
  /-- DMA_COMPLETION_TIMEOUT (R537): A host read issued by the DMA engine meets no completion within HOST_CTL.cto_us, ending the COPY with E_TIMEOUT or halting ring fetching. -/
  | dmaCompletionTimeout (r : Nat) (copy : Option Nat)
  /-- TEST_LOGIC_RESET (R603): The TAP leaves a boundary instruction by Update-IR of another instruction or Test-Logic-Reset, releasing the pins that EXTEST held. -/
  | testLogicReset
  deriving DecidableEq, Repr

end Sys2Proof
end

