-- ==== Sys2Proof/Config.lean ====
section
/-! DEFINITION. What an implementation fixes and the free values: constants the spec leaves open have no body, so that
every claim holds for each of their values. -/

namespace Sys2Proof

/-- A fresh 32-bit free value: the n-th value the hardware leaves undefined. (DESIGN CHOICE, log entry 11) -/
opaque Config.freeWord : Nat → W32

/-- Result bits of a vector function of Table 5.7 for an FP32 input, within the error bound the table gives (R165, R167). (DESIGN CHOICE, log entry 12) -/
opaque Config.vecFunc : Nat → W32 → W32

/-- The scale byte of an MX element whose scale address lies outside the scratchpad (R120). (DESIGN CHOICE, log entry 29) -/
opaque Config.strayScale : Int → Byte

/-- SHA-384 of a byte string, 48 bytes (R590): the spec names the function and does not define it. (PRESUMED, log entry 13) -/
opaque Config.sha384 : List Byte → List Byte

/-- ECDSA P-384 verification of a signature over a hash under a public key x‖y (R590). (PRESUMED, log entry 13) -/
opaque Config.ecdsaVerify : List Byte → List Byte → List Byte → Bool

/-- Byte `i` of the n-th block of bytes that the hardware leaves undefined. (DESIGN CHOICE, log entry 11) -/
opaque Config.freeByte : Nat → Nat → Byte

/-- Device code and stepping code (R2). -/
def Config.deviceCode : Nat := 0x0D72
def Config.steppingCode : Nat := 0x00A1

end Sys2Proof
end

