-- ==== Sys2Proof/Machine/Bits.lean ====
section
/-! DEFINITION. Bit fields, byte order and saturating counts (R10, R11): the helpers every other file reads fields with. -/

namespace Sys2Proof.Machine

/-- Field of a natural number: `n` bits from bit `lo` (the notation x[m:l] of Table 0.5). -/
def fld (x lo n : Nat) : Nat := (x >>> lo) % 2 ^ n

/-- Bit `i` of a natural number. -/
def bit (x i : Nat) : Bool := x.testBit i

/-- A field read as a signed two's complement integer of `n` bits. -/
def sfld (x lo n : Nat) : Int :=
  let v := fld x lo n
  if v < 2 ^ (n - 1) then (v : Int) else (v : Int) - (2 ^ n : Nat)

/-- The low `n` bits of an integer, two's complement. -/
def wrapInt (v : Int) (n : Nat) : Nat := (v % ((2 ^ n : Nat) : Int)).toNat

/-- A Boolean as a bit. -/
def b2n (b : Bool) : Nat := if b then 1 else 0

/-- Little-endian value of a byte list, byte 0 lowest (R11). -/
def leNat : List Byte → Nat
  | [] => 0
  | b :: bs => b.toNat + 256 * leNat bs

/-- The `n` bytes of a value, least significant first (R11). -/
def leBytes : Nat → Nat → List Byte
  | 0, _ => []
  | n + 1, v => BitVec.ofNat 8 v :: leBytes n (v / 256)

/-- A count that stops at `top` (the saturating RC counters). -/
def satAdd (top x n : Nat) : Nat := min top (x + n)

/-- Saturation tops used by the counters of the register tables. -/
def top16 : Nat := 0xFFFF
def top24 : Nat := 0xFFFFFF
def top32 : Nat := 0xFFFFFFFF

/-- Sign extension of a `w`-bit field to 64 bits (Chapter 3, sext). -/
def sext64 {w : Nat} (x : BitVec w) : W64 := x.signExtend 64

/-- Zero extension to 64 bits (Chapter 3, zext). -/
def zext64 {w : Nat} (x : BitVec w) : W64 := x.setWidth 64

/-- Bits `[lo+n-1:lo]` of `x` replaced by the low `n` bits of `v`. -/
def insertField (x : W64) (lo n : Nat) (v : W64) : W64 :=
  let mask : W64 := BitVec.ofNat 64 ((2 ^ n - 1) <<< lo)
  (x &&& ~~~mask) ||| ((v <<< lo) &&& mask)

/-- Ceiling division. -/
def cdiv (a b : Nat) : Nat := (a + b - 1) / b

end Sys2Proof.Machine
end

