-- ==== Sys2Proof/Machine/Arith.lean ====
section
/-! DEFINITION. Number formats and exact arithmetic (Chapter 2): decoding, rounding, conversion, MX scales, the exact accumulator,
FP32 operations and the Philox generator. Values are exact: a sign, a magnitude and a power of two. -/

namespace Sys2Proof.Machine

/-- An exact value: NaN, an infinity, or (−1)^neg × n × 2^e. -/
inductive FVal where
  | nan
  | inf (neg : Bool)
  | fin (neg : Bool) (n : Nat) (e : Int)
  deriving DecidableEq, Repr

/-! ## Formats (Tables 2.1-2.3) -/

/-- Parameters of a floating-point format: exponent bits, mantissa bits, bias. -/
structure FFmt where
  eb : Nat
  mb : Nat
  bias : Nat
  deriving DecidableEq, Repr

/-- The parameters of element format code `f` (bits [3:0] of a format code); integers have none. -/
def ffmt (f : Nat) : Option FFmt :=
  match f with
  | 0 => some ⟨8, 23, 127⟩
  | 1 => some ⟨8, 7, 127⟩
  | 2 => some ⟨5, 10, 15⟩
  | 3 => some ⟨4, 3, 7⟩
  | 4 => some ⟨5, 2, 15⟩
  | 5 => some ⟨3, 2, 3⟩
  | 6 => some ⟨2, 3, 1⟩
  | 7 => some ⟨2, 1, 1⟩
  | _ => none

/-- The format codes of Table 2.1. -/
def fmtKnown (f : Nat) : Bool := f ≤ 0xA || (0x13 ≤ f && f ≤ 0x18)
/-- An MX code. -/
def fmtMx (f : Nat) : Bool := 0x13 ≤ f && f ≤ 0x18
/-- The element format of a code. -/
def fmtElem (f : Nat) : Nat := f % 16
/-- Narrow formats: codes 0x03-0x08 and the MX codes. -/
def fmtNarrow (f : Nat) : Bool := (3 ≤ f && f ≤ 8) || fmtMx f
/-- Element width in bits (Table 2.1). -/
def fmtBits (f : Nat) : Nat :=
  match fmtElem f with
  | 0 => 32 | 1 => 16 | 2 => 16 | 3 => 8 | 4 => 8 | 5 => 6 | 6 => 6 | 7 => 4 | 8 => 8 | 9 => 32 | 10 => 128 | _ => 8

/-- Has infinities: FP32, BF16, FP16 and E5M2 (R41, R43). -/
def fmtHasInf (f : Nat) : Bool := f ≤ 2 || f == 4
/-- Has a NaN (R43). -/
def fmtHasNan (f : Nat) : Bool := f ≤ 4
/-- Encoding of the largest finite value, positive (Tables 2.2, 2.3). -/
def fmtMaxEnc (f : Nat) : Nat :=
  match f with
  | 0 => 0x7F7FFFFF | 1 => 0x7F7F | 2 => 0x7BFF | 3 => 0x7E | 4 => 0x7B | 5 => 0x1F | 6 => 0x1F | 7 => 0x7 | _ => 0
/-- Encoding of +infinity. -/
def fmtInfEnc (f : Nat) : Nat := match f with | 0 => 0x7F800000 | 1 => 0x7F80 | 2 => 0x7C00 | 4 => 0x7C | _ => 0
/-- Canonical NaN (Tables 2.2, 2.3). -/
def fmtNanEnc (f : Nat) : Nat := match f with | 0 => 0x7FC00000 | 1 => 0x7FC0 | 2 => 0x7E00 | 3 => 0x7F | 4 => 0x7E | _ => 0
/-- Unbiased exponent of the largest normal value (Table 2.3, R44). -/
def fmtEmax (f : Nat) : Int := match f with | 3 => 8 | 4 => 15 | 5 => 4 | 6 => 2 | 7 => 2 | 8 => 0 | _ => 0
/-- Exponent of the lowest bit a value can carry (Table 2.3, R44). -/
def fmtMlow (f : Nat) : Int := match f with | 3 => -9 | 4 => -16 | 5 => -4 | 6 => -3 | 7 => -1 | 8 => 0 | _ => 0

/-! ## ARITH_STATUS flags (Table 2.6) -/

def fNanIn : BitVec 8 := 0x01
def fNanGen : BitVec 8 := 0x02
def fSat : BitVec 8 := 0x04
def fInfOut : BitVec 8 := 0x08
def fAccLost : BitVec 8 := 0x10
def fAccRange : BitVec 8 := 0x20
def fNanNorep : BitVec 8 := 0x40
def fUflow : BitVec 8 := 0x80

/-! ## Decoding -/

/-- The value of encoding `x` in a non-MX element format (R41-R44). INT8 is worth its integer; `mxInt` scales it by 2⁻⁶. -/
def decodeElem (f x : Nat) (mxInt : Bool := false) : FVal :=
  match ffmt f with
  | some p =>
    let s := bit x (p.eb + p.mb)
    let e := fld x p.mb p.eb
    let m := fld x 0 p.mb
    if f == 3 && e == 15 && m == 7 then .nan
    else if fmtHasInf f && e + 1 == 2 ^ p.eb then (if m == 0 then .inf s else .nan)
    else if e == 0 then .fin s m (1 - (p.bias : Int) - p.mb)
    else .fin s (2 ^ p.mb + m) ((e : Int) - p.bias - p.mb)
  | none =>
    let w := if f == 9 then 32 else 8
    let v := sfld x 0 w
    .fin (decide (v < 0)) v.natAbs (if mxInt then -6 else 0)

/-! ## Rounding (R47-R51, R70, R71) -/

/-- An encoded result with its flags. -/
structure Conv where
  bits : Nat := 0
  flags : BitVec 8 := 0
  deriving DecidableEq, Repr

/-- floor(log2(n / d)) for positive n and d. -/
def ilog2 (n d : Nat) : Int :=
  let e : Int := (Nat.log2 n : Int) - Nat.log2 d
  let ge := if 0 ≤ e then d * 2 ^ e.toNat ≤ n else d ≤ n * 2 ^ (-e).toNat
  if ge then e else e - 1

/-- Round n/d to an integer: mode 0 RNE, 1 RTZ, 2 SR with the word `r` (Table 2.4, R71). -/
def roundInt (rnd n d r : Nat) : Nat :=
  let lo := n / d
  let rem := n % d
  if rem == 0 then lo
  else if rnd == 0 then (if 2 * rem > d || (2 * rem == d && lo % 2 == 1) then lo + 1 else lo)
  else if rnd == 2 then (if rem * 2 ^ 32 / d + r ≥ 2 ^ 32 then lo + 1 else lo)
  else lo

/-- n/d × 2^k as a fraction. -/
def scaleFrac (n d : Nat) (k : Int) : Nat × Nat :=
  if 0 ≤ k then (n * 2 ^ k.toNat, d) else (n, d * 2 ^ (-k).toNat)

/-- Sign bit of a format placed above its magnitude bits. -/
def withSign (f : Nat) (neg : Bool) (mag : Nat) : Nat := mag + b2n neg * 2 ^ (fmtBits f - 1)

/-- Convert a nonzero finite magnitude n/d × 2^e of sign `neg` to floating-point format `f` (R48, R50). (DEDUCED, log entry 24; DEDUCED, log entry 25) -/
def convFin (f rnd ovf r : Nat) (neg : Bool) (n d : Nat) (e : Int) : Conv :=
  match ffmt f with
  | none => {}
  | some p =>
    let lg := ilog2 n d + e
    let emin : Int := 1 - (p.bias : Int)
    let u : Int := max lg emin - p.mb
    let (n', d') := scaleFrac n d (e - u)
    let q := roundInt rnd n' d' r
    -- magnitude encoding with an unbounded exponent
    let enc : Int := (u + p.mb + p.bias - 1) * 2 ^ p.mb + q
    if q == 0 then { bits := withSign f neg 0, flags := fUflow }
    else if enc > fmtMaxEnc f then
      if rnd == 1 || ovf == 0 || f ≥ 5 then { bits := withSign f neg (fmtMaxEnc f), flags := fSat }
      else if fmtHasInf f then { bits := withSign f neg (fmtInfEnc f), flags := fInfOut }
      else { bits := fmtNanEnc f, flags := fNanGen }
    else if rnd == 1 && enc == fmtMaxEnc f && n' % d' != 0 then { bits := withSign f neg (fmtMaxEnc f), flags := fSat }
    else { bits := withSign f neg enc.toNat, flags := 0 }

/-- Integer range of INT8, INT32. -/
def intMax (f : Nat) : Nat := if f == 9 then 2 ^ 31 - 1 else 127

/-- A clamped signed integer as bits of the format. -/
def intBits (f : Nat) (v : Int) : Nat := wrapInt v (if f == 9 then 32 else 8)

/-- Convert a finite magnitude to an integer format (R51). sat is set by R51's clamp alone: a value that truncates to the largest integer,
such as 127.5 under RTZ, is not clamped (R48 and R51 differ there; DESIGN CHOICE, log entry 145). -/
def convInt (f rnd r : Nat) (neg : Bool) (n d : Nat) (e : Int) : Conv :=
  let (n', d') := scaleFrac n d e
  let q := roundInt rnd n' d' r
  let v : Int := if neg then -(q : Int) else q
  let top : Int := intMax f
  if v > top then { bits := intBits f top, flags := fSat }
  else if v < -top - 1 then { bits := intBits f (-top - 1), flags := fSat }
  else { bits := intBits f v, flags := if q == 0 && n != 0 then fUflow else 0 }

/-- Convert an exact fraction n/d × 2^e (d > 0) to element format `f` (R47-R51). -/
def convFrac (f rnd ovf r : Nat) (neg : Bool) (n d : Nat) (e : Int) (mxInt : Bool := false) : Conv :=
  if f == 8 || f == 9 then convInt f rnd r neg n d (if mxInt then e + 6 else e)
  else if n == 0 then { bits := withSign f neg 0 }
  else convFin f rnd ovf r neg n d e

/-- Convert a value to element format `f` (R47-R51, Table 2.5). (DEDUCED, log entry 26) -/
def convert (f rnd ovf r : Nat) (x : FVal) (mxInt : Bool := false) : Conv :=
  match x with
  | .nan =>
    if f == 8 || f == 9 then { bits := 0, flags := fNanNorep }
    else if fmtHasNan f then { bits := fmtNanEnc f, flags := fNanIn }
    else { bits := 0, flags := fNanNorep }
  | .inf neg =>
    if f == 8 || f == 9 then
      let top : Int := intMax f
      { bits := intBits f (if neg then -top - 1 else top), flags := fSat }
    else if f ≥ 5 then { bits := withSign f neg (fmtMaxEnc f), flags := fSat }
    else if f == 3 then
      if ovf == 0 then { bits := withSign f neg (fmtMaxEnc f), flags := fSat } else { bits := fmtNanEnc f, flags := fNanGen }
    else if ovf == 0 && f != 0 then { bits := withSign f neg (fmtMaxEnc f), flags := fSat }
    else { bits := withSign f neg (fmtInfEnc f) }
  | .fin neg n e => convFrac f rnd ovf r neg n 1 e mxInt

/-- range_end (R64): the largest finite value, or the end of the integer range, with sign `neg`. (DEDUCED, log entry 24) -/
def rangeEnd (f : Nat) (neg : Bool) : Nat :=
  if f == 8 || f == 9 then intBits f (if neg then -(intMax f : Int) - 1 else intMax f)
  else withSign f neg (fmtMaxEnc f)

/-! ## Exact operations on values -/

/-- Negation. -/
def FVal.neg : FVal → FVal
  | .nan => .nan
  | .inf s => .inf (!s)
  | .fin s n e => .fin (!s) n e

/-- Is the value NaN? -/
def FVal.isNan : FVal → Bool
  | .nan => true
  | _ => false

/-- Is it zero? -/
def FVal.isZero : FVal → Bool
  | .fin _ n _ => n == 0
  | _ => false

/-- Sign. -/
def FVal.sign : FVal → Bool
  | .nan => false
  | .inf s => s
  | .fin s _ _ => s

/-- A signed integer times 2^e as a value; a zero has the sign given. -/
def FVal.ofInt (v : Int) (e : Int) (zneg : Bool := false) : FVal := .fin (if v == 0 then zneg else decide (v < 0)) v.natAbs e

/-- The signed numerator of a finite value at exponent `e0` at or below its own. -/
def FVal.at (x : FVal) (e0 : Int) : Int :=
  match x with
  | .fin s n e => let m : Int := n * 2 ^ (e - e0).toNat; if s then -m else m
  | _ => 0

/-- Exact sum with IEEE signs of zero under RNE; the flag says an invalid operation was met. -/
def FVal.add (a b : FVal) : FVal × Bool :=
  match a, b with
  | .nan, _ => (.nan, false)
  | _, .nan => (.nan, false)
  | .inf s, .inf t => if s == t then (.inf s, false) else (.nan, true)
  | .inf s, _ => (.inf s, false)
  | _, .inf t => (.inf t, false)
  | .fin s n e, .fin t m f =>
    let e0 := min e f
    let v := FVal.at (.fin s n e) e0 + FVal.at (.fin t m f) e0
    (FVal.ofInt v e0 (s && t), false)

/-- Exact product; the flag says ∞ × 0 was met. -/
def FVal.mul (a b : FVal) : FVal × Bool :=
  match a, b with
  | .nan, _ => (.nan, false)
  | _, .nan => (.nan, false)
  | .inf s, .inf t => (.inf (s != t), false)
  | .inf s, .fin t n _ => if n == 0 then (.nan, true) else (.inf (s != t), false)
  | .fin s n _, .inf t => if n == 0 then (.nan, true) else (.inf (s != t), false)
  | .fin s n e, .fin t m f => (.fin (s != t) (n * m) (e + f), false)

/-- Scale by a power of two. -/
def FVal.scale (x : FVal) (k : Int) : FVal :=
  match x with
  | .fin s n e => .fin s n (e + k)
  | y => y

/-- Magnitude. -/
def FVal.abs : FVal → FVal
  | .nan => .nan
  | .inf _ => .inf false
  | .fin _ n e => .fin false n e

/-- Numeric order, NaN excluded: a < b. -/
def FVal.lt (a b : FVal) : Bool :=
  match a, b with
  | .nan, _ => false
  | _, .nan => false
  | .inf s, .inf t => s && !t
  | .inf s, _ => s
  | _, .inf t => !t
  | .fin s n e, .fin t m f =>
    let e0 := min e f
    decide (FVal.at (.fin s n e) e0 < FVal.at (.fin t m f) e0)

/-- Numeric equality, NaN excluded. -/
def FVal.eq (a b : FVal) : Bool := !a.isNan && !b.isNan && !(a.lt b) && !(b.lt a)

/-! ## FP32 arithmetic, one RNE rounding each (R41, R42) -/

/-- An FP32 encoding. -/
abbrev F32 := Nat

/-- The value of FP32 bits. -/
def f32 (x : F32) : FVal := decodeElem 0 x

/-- Round a value to FP32 with RNE and overflow to infinity. -/
def toF32 (x : FVal) : F32 := (convert 0 0 1 0 x).bits

/-- FP32 sum. -/
def f32Add (a b : F32) : F32 := toF32 (FVal.add (f32 a) (f32 b)).1
/-- FP32 difference. -/
def f32Sub (a b : F32) : F32 := toF32 (FVal.add (f32 a) (f32 b).neg).1
/-- FP32 product. -/
def f32Mul (a b : F32) : F32 := toF32 (FVal.mul (f32 a) (f32 b)).1
/-- FP32 fused multiply-add. -/
def f32Fma (a b c : F32) : F32 := toF32 (FVal.add (FVal.mul (f32 a) (f32 b)).1 (f32 c)).1

/-- Quotient of two values rounded once to format `f` with RNE. -/
def divTo (f : Nat) (a b : FVal) : Conv :=
  match a, b with
  | .nan, _ => { bits := fmtNanEnc f }
  | _, .nan => { bits := fmtNanEnc f }
  | .inf _, .inf _ => { bits := fmtNanEnc f, flags := fNanGen }
  | .inf s, y => { bits := withSign f (s != y.sign) (fmtInfEnc f) }
  | .fin s _ _, .inf t => { bits := withSign f (s != t) 0 }
  | .fin s n e, .fin t m g =>
    if m == 0 then
      if n == 0 then { bits := fmtNanEnc f, flags := fNanGen } else { bits := withSign f (s != t) (fmtInfEnc f), flags := 0 }
    else convFrac f 0 1 0 (s != t) n m (e - g)

/-- FP32 quotient, correctly rounded. -/
def f32Div (a b : F32) : F32 := (divTo 0 (f32 a) (f32 b)).bits

/-- Bits of a square root from the top: `k` further bits. -/
def isqrtGo : Nat → Nat → Nat → Nat
  | 0, _, r => r
  | k + 1, n, r => isqrtGo k n (if (r + 2 ^ k) * (r + 2 ^ k) ≤ n then r + 2 ^ k else r)

/-- Integer square root. -/
def isqrt (n : Nat) : Nat := isqrtGo (Nat.log2 n / 2 + 1) n 0

/-- Square root of a finite magnitude n × 2^e rounded once to format `f` with RNE: enough bits and a sticky bit. -/
def sqrtTo (f n : Nat) (e : Int) : Conv :=
  if n == 0 then {}
  else
    let odd := e % 2
    let n1 := if odd == 0 then n else 2 * n
    let e1 := if odd == 0 then e else e - 1
    let k : Nat := 120
    let w := n1 * 2 ^ (2 * k)
    let r := isqrt w
    let sticky := if r * r == w then 0 else 1
    convFrac f 0 1 0 false (2 * r + sticky) 1 (e1 / 2 - (k : Int) - 1)

/-- FP32 square root, correctly rounded; −0 gives −0, a negative value NaN. -/
def f32Sqrt (x : F32) : F32 :=
  match f32 x with
  | .nan => fmtNanEnc 0
  | .inf s => if s then fmtNanEnc 0 else fmtInfEnc 0
  | .fin s n e => if n == 0 then x else if s then fmtNanEnc 0 else (sqrtTo 0 n e).bits

/-! ## FP64 sums of the stack engines (binary64) -/

/-- Value of a binary64 encoding. -/
def f64 (x : Nat) : FVal :=
  let s := bit x 63
  let e := fld x 52 11
  let m := fld x 0 52
  if e == 2047 then (if m == 0 then .inf s else .nan)
  else if e == 0 then .fin s m (-1074)
  else .fin s (2 ^ 52 + m) ((e : Int) - 1075)

/-- Round a value to binary64 with RNE. -/
def toF64 (x : FVal) : Nat :=
  match x with
  | .nan => 0x7FF8000000000000
  | .inf s => 0x7FF0000000000000 + b2n s * 2 ^ 63
  | .fin s n e =>
    if n == 0 then b2n s * 2 ^ 63
    else
      let lg := ilog2 n 1 + e
      let u : Int := max lg (-1022) - 52
      let (n', d') := scaleFrac n 1 (e - u)
      let q := roundInt 0 n' d' 0
      let enc : Int := (u + 52 + 1023 - 1) * 2 ^ 52 + q
      if enc ≥ 0x7FF0000000000000 then 0x7FF0000000000000 + b2n s * 2 ^ 63 else enc.toNat + b2n s * 2 ^ 63

/-! ## MX scales (R52, R54) -/

/-- The unbiased exponent of an E8M0 scale; 0xFF is NaN. -/
def scaleExp (x : Nat) : Option Int := if x == 0xFF then none else some ((x : Int) - 127)

/-- The value of an MX element under its scale byte (R52). -/
def mxValue (f x sc : Nat) : FVal :=
  match scaleExp sc with
  | none => .nan
  | some k => (decodeElem (fmtElem f) x true).scale k

/-- A produced block (R54): scale byte, element encodings and flags. `rs` supplies the random words. -/
structure MxBlock where
  scale : Nat := 0
  elems : List Nat := []
  flags : BitVec 8 := 0
  deriving DecidableEq, Repr

/-- The larger magnitude of two finite values, as (numerator, exponent). -/
def maxMag (a : FVal) (b : FVal) : FVal := if a.abs.lt b.abs then b.abs else a.abs

/-- Produce an MX block from source values (R54). A block with both a NaN and an infinity raises nan_in and sat. (DESIGN CHOICE, log entry 145) -/
def mxProduce (f rnd : Nat) (src : List (FVal × Nat)) : MxBlock :=
  let isNan := src.any (fun p => p.1.isNan)
  let isInf := src.any (fun p => match p.1 with | .inf _ => true | _ => false)
  if isNan || isInf then
    { scale := 0xFF, elems := src.map (fun _ => 0), flags := (if isNan then fNanIn else 0) ||| (if isInf then fSat else 0) }
  else
    let amax := src.foldl (fun m p => maxMag m p.1) (.fin false 0 0)
    let x : Int := match amax with
      | .fin _ n e => if n == 0 then 127 else max (-127) (min 127 (ilog2 n 1 + e - fmtEmax (fmtElem f))) + 127
      | _ => 127
    let cs := src.map (fun p => convert (fmtElem f) rnd 0 p.2 (p.1.scale (127 - x)) true)
    { scale := x.toNat, elems := cs.map (·.bits), flags := cs.foldl (fun a c => a ||| c.flags) 0 }

/-! ## The exact accumulator (R58-R66) -/

/-- An exact accumulator: {G, V} modulo 2^104 and its four flags. -/
structure Acc where
  gv : Nat := 0
  nan : Bool := false
  pinf : Bool := false
  ninf : Bool := false
  lost : Bool := false
  deriving DecidableEq, Repr

/-- Sum of the finite products of a unit, and what its special values raised. -/
structure UnitSum where
  /-- the exact sum of the finite products -/
  sum : FVal := .fin false 0 0
  nan : Bool := false
  pinf : Bool := false
  ninf : Bool := false
  flags : BitVec 8 := 0
  deriving DecidableEq, Repr

/-- One product into a unit (R59). -/
def UnitSum.put (u : UnitSum) (a b : FVal) : UnitSum :=
  if a.isNan || b.isNan then { u with nan := true, flags := u.flags ||| fNanIn }
  else
    match FVal.mul a b with
    | (.nan, _) => { u with nan := true, flags := u.flags ||| fNanGen }
    | (.inf s, _) => if s then { u with ninf := true } else { u with pinf := true }
    | (p, _) => { u with sum := (FVal.add u.sum p).1 }

/-- Add one unit to an accumulator with anchor `anchor` (R58, R59): the floor is taken once for the unit. -/
def Acc.addUnit (acc : Acc) (anchor : Int) (u : UnitSum) : Acc :=
  match u.sum with
  | .fin s n e =>
    let v : Int := if s then -(n : Int) else n
    let k := e - anchor
    let q : Int := if 0 ≤ k then v * 2 ^ k.toNat else v / (2 ^ (-k).toNat : Nat)
    let exact := 0 ≤ k || v % ((2 ^ (-k).toNat : Nat) : Int) == 0
    { gv := wrapInt ((acc.gv : Int) + q) 104, nan := acc.nan || u.nan, pinf := acc.pinf || u.pinf,
      ninf := acc.ninf || u.ninf, lost := acc.lost || !exact }
  | _ => { acc with nan := acc.nan || u.nan, pinf := acc.pinf || u.pinf, ninf := acc.ninf || u.ninf }

/-- Combine two accumulators of one anchor (R63). -/
def Acc.combine (a b : Acc) : Acc :=
  { gv := (a.gv + b.gv) % 2 ^ 104, nan := a.nan || b.nan, pinf := a.pinf || b.pinf, ninf := a.ninf || b.ninf, lost := a.lost || b.lost }

/-- The ACC96 record of an accumulator (R62). -/
def Acc.record (a : Acc) (anchor : Int) : Nat :=
  a.gv + b2n a.nan * 2 ^ 104 + b2n a.pinf * 2 ^ 105 + b2n a.ninf * 2 ^ 106 + b2n a.lost * 2 ^ 107 + wrapInt anchor 10 * 2 ^ 108

/-- The accumulator an ACC96 record holds. -/
def Acc.ofRecord (x : Nat) : Acc := { gv := fld x 0 104, nan := bit x 104, pinf := bit x 105, ninf := bit x 106, lost := bit x 107 }

/-- The anchor of a record. -/
def recordAnchor (x : Nat) : Int := sfld x 108 10
/-- A record with a nonzero reserved bit (R62). -/
def recordReserved (x : Nat) : Bool := fld x 118 10 != 0

/-- Drain an accumulator to format `f` (R64, R65). -/
def Acc.drain (a : Acc) (anchor : Int) (shift : Int) (f rnd ovf r : Nat) : Conv :=
  if f == 10 then { bits := a.record anchor }
  else
    let g := fld a.gv 96 8
    let v95 := bit a.gv 95
    let lostF : BitVec 8 := if a.lost then fAccLost else 0
    if a.nan || (a.pinf && a.ninf) then
      let c := convert f rnd ovf r .nan
      { c with flags := c.flags ||| lostF ||| (if a.nan then 0 else fNanGen) }
    else if a.pinf then let c := convert f rnd ovf r (.inf false); { c with flags := c.flags ||| lostF }
    else if a.ninf then let c := convert f rnd ovf r (.inf true); { c with flags := c.flags ||| lostF }
    else if g != (if v95 then 0xFF else 0) then { bits := rangeEnd f (bit g 7), flags := fAccRange ||| lostF }
    else
      let c := convert f rnd ovf r (FVal.ofInt (sfld a.gv 0 96) (anchor + shift))
      { c with flags := c.flags ||| lostF }

/-! ## Philox-4×32-10 (R69, R70) -/

/-- One round of R69. -/
def philoxRound (k0 k1 : Nat) (c : Nat × Nat × Nat × Nat) : Nat × Nat × Nat × Nat :=
  let (c0, c1, c2, c3) := c
  let p0 := 0xD2511F53 * c0
  let p1 := 0xCD9E8D57 * c2
  (Nat.xor (Nat.xor (fld p1 32 32) c1) k0, fld p1 0 32, Nat.xor (Nat.xor (fld p0 32 32) c3) k1, fld p0 0 32)

/-- Rounds with the key schedule of R69. -/
def philoxRounds : Nat → Nat → Nat → Nat × Nat × Nat × Nat → Nat × Nat × Nat × Nat
  | 0, _, _, c => c
  | n + 1, k0, k1, c => philoxRounds n ((k0 + 0x9E3779B9) % 2 ^ 32) ((k1 + 0xBB67AE85) % 2 ^ 32) (philoxRound k0 k1 c)

/-- The random word for output element `idx` (R70). -/
def srWord (seed : Nat) (sheet srStream purpose idx : Nat) : Nat :=
  let q := idx / 4
  let w := philoxRounds 10 (fld seed 0 32) (fld seed 32 32)
    (fld q 0 32, fld q 32 14 + (srStream % 2 ^ 16) * 2 ^ 16, sheet, purpose)
  match idx % 4 with
  | 0 => w.1
  | 1 => w.2.1
  | 2 => w.2.2.1
  | _ => w.2.2.2

/-! ## Packed elements (R45) -/

/-- Encoding of element `i` of a packed row given as a byte list. -/
def unpackElem (bits : Nat) (bytes : List Byte) (i : Nat) : Nat :=
  let lo := i * bits
  fld (leNat ((bytes.drop (lo / 8)).take ((lo % 8 + bits + 7) / 8))) (lo % 8) bits

/-- Bytes of a packed row of elements, padded with zero bits to a whole byte (6-bit rows to a 3-byte group). -/
def packElems (bits : Nat) (es : List Nat) : List Byte :=
  let v := (es.foldr (fun e acc => acc * 2 ^ bits + e % 2 ^ bits) 0)
  let n := es.length * bits
  leBytes (if bits == 6 then (n + 23) / 24 * 3 else (n + 7) / 8) v

/-- Bytes of a packed row of `n` elements (R45). -/
def rowBytes (bits n : Nat) : Nat := if bits == 6 then (n * 6 + 23) / 24 * 3 else (n * bits + 7) / 8

end Sys2Proof.Machine
end

