-- ==== Sys2Proof/Machine/FnOps.lean ====
section
/-! DEFINITION. The exact values of the functions of Table 5.7 in fixed point, and whether an FP32 result lies within the table's bound
(R165, R168). A fixed-point number is an integer in units of 2⁻²⁵⁶; a value is computed to about 2⁻²⁰⁰, far below any bound of the table.
(DESIGN CHOICE, log entry 12) -/

namespace Sys2Proof.Machine

/-- A number in units of 2⁻²⁵⁶. -/
abbrev Fx := Int

def fxOne : Fx := 2 ^ 256
def fxMul (a b : Fx) : Fx := a * b / fxOne
def fxDiv (a b : Fx) : Fx := a * fxOne / b
def fxNat (n : Nat) : Fx := (n : Int) * fxOne
/-- The square root of a number that is not negative. -/
def fxSqrt (a : Fx) : Fx := (isqrt (a * fxOne).toNat : Int)

/-- The sum of y^(2k+1) × c(k) ÷ (2k+1) over `n` terms, c alternating or 1: arctangent and its hyperbolic form. -/
def fxOddSum (n : Nat) (alt : Bool) (y : Fx) : Fx :=
  let y2 := fxMul y y
  ((List.range n).foldl (fun (t : Fx × Fx) k =>
    (fxMul t.1 y2, t.2 + (if alt && k % 2 == 1 then -t.1 else t.1) / ((2 * k + 1 : Nat) : Int))) (y, 0)).2

def fxLn2 : Fx := 2 * fxOddSum 90 false (fxDiv fxOne (fxNat 3))
def fxPi : Fx := 16 * fxOddSum 60 true (fxDiv fxOne (fxNat 5)) - 4 * fxOddSum 20 true (fxDiv fxOne (fxNat 239))

/-- eˣ, for |x| below 300. -/
def fxExp (x : Fx) : Fx :=
  let k := (2 * x + fxLn2) / (2 * fxLn2)
  let r := x - k * fxLn2
  let s := ((List.range 64).foldl (fun (t : Fx × Fx) n => (fxMul t.1 r / ((n + 1 : Nat) : Int), t.2 + t.1)) (fxOne, 0)).2
  if 0 ≤ k then s * 2 ^ k.toNat else s / 2 ^ (-k).toNat

/-- ln x, for x above zero. -/
def fxLn (x : Fx) : Fx :=
  let k : Int := (Nat.log2 x.toNat : Int) - 256
  let m := if 0 ≤ k then x / 2 ^ k.toNat else x * 2 ^ (-k).toNat
  -- m lies in [1, 2); the larger half is taken from the next power of two
  let up := decide (3 * fxOne < 2 * m)
  let m' := if up then m / 2 else m
  2 * fxOddSum 60 false (fxDiv (m' - fxOne) (m' + fxOne)) + (if up then k + 1 else k) * fxLn2

/-- tanh x. -/
def fxTanh (x : Fx) : Fx :=
  if fxNat 90 < x then fxOne else if x < -fxNat 90 then -fxOne
  else let u := fxExp (2 * x); fxDiv (u - fxOne) (u + fxOne)

/-- σ(x). -/
def fxSigmoid (x : Fx) : Fx :=
  if fxNat 200 < x then fxOne else if x < -fxNat 200 then 0
  else fxDiv fxOne (fxOne + fxExp (-x))

/-- erf x: 2 ÷ √π ÷ e^(x²) × Σ 2ⁿ x^(2n+1) ÷ (2n+1)!!. -/
def fxErf (x : Fx) : Fx :=
  if fxNat 12 < x then fxOne else if x < -fxNat 12 then -fxOne
  else
    let x2 := fxMul x x
    let s := ((List.range 700).foldl (fun (t : Fx × Fx) n => (fxMul t.1 (2 * x2) / ((2 * n + 3 : Nat) : Int), t.2 + t.1)) (x, 0)).2
    fxDiv (fxDiv (2 * s) (fxExp x2)) (fxSqrt fxPi)

/-- Φ(x) and φ(x). -/
def fxCdf (x : Fx) : Fx := (fxOne + fxErf (fxDiv x (fxSqrt (fxNat 2)))) / 2
def fxPdf (x : Fx) : Fx := if fxNat 20 < x || x < -fxNat 20 then 0 else fxDiv (fxDiv fxOne (fxExp (fxMul x x / 2))) (fxSqrt (2 * fxPi))

/-- κ = √(2/π), and t of R165. -/
def fxKappa : Fx := fxSqrt (fxDiv (fxNat 2) fxPi)
def fxGeluT (a : Fx) : Fx :=
  if fxNat 16 < a then fxOne else if a < -fxNat 16 then -fxOne
  else fxTanh (fxMul fxKappa (a + fxMul (fxMul a a) a * 44715 / 1000000))

/-- The exact result of a function op for a finite input where its formula has a value (Table 5.7). RCP, SQRT and RSQRT are not computed here. -/
def fnExact (op : Nat) (a : Fx) : Fx :=
  let cap := fun (x : Fx) => min (fxNat 290) (max (-fxNat 290) x)
  let q := fxSigmoid a
  let t := fxTanh a
  if op == 0x20 then fxExp (cap a)
  else if op == 0x21 then fxExp (fxMul (min (fxNat 400) (max (-fxNat 400) a)) fxLn2)
  else if op == 0x22 then fxLn a
  else if op == 0x23 then fxDiv (fxLn a) fxLn2
  else if op == 0x27 then t
  else if op == 0x28 || op == 0x3C then q
  else if op == 0x29 then fxMul a q
  else if op == 0x2A then fxMul a (fxCdf a)
  else if op == 0x2B then fxMul a (fxOne + fxGeluT a) / 2
  else if op == 0x2C then (if fxNat 200 < a then a else fxLn (fxOne + fxExp (cap a)))
  else if op == 0x2D then fxErf a
  else if op == 0x37 then fxOne - fxMul t t
  else if op == 0x38 then fxMul q (fxOne - q)
  else if op == 0x39 then fxMul q (fxOne + fxMul a (fxOne - q))
  else if op == 0x3A then fxCdf a + fxMul a (fxPdf a)
  else
    let u := fxGeluT a
    (fxOne + u) / 2 + (if fxNat 16 < a || a < -fxNat 16 then 0
      else fxMul (fxMul (fxMul a (fxOne - fxMul u u)) fxKappa) (fxOne + fxMul a a * 134145 / 1000000) / 2)

/-- One ulp at an exact result: the spacing of FP32 values at its magnitude, 2⁻¹⁴⁹ below the normal range (R165). -/
def fxUlp (v : Fx) : Fx := if v.natAbs < 2 ^ 130 then 2 ^ 107 else 2 ^ (Nat.log2 v.natAbs - 23)

/-- The bound of Table 5.7 at an exact result. -/
def fnBound (op : Nat) (v : Fx) : Fx :=
  if op == 0x21 then fxUlp v
  else if op == 0x29 || op == 0x2A || op == 0x2B then max (3 * fxUlp v) (2 ^ 230)
  else if op == 0x2C then 3 * fxUlp v
  else if 0x37 ≤ op then max (4 * fxUlp v) (2 ^ 232)
  else 2 * fxUlp v

/-- A finite FP32 value in fixed point. -/
def fxOf (s : Bool) (n : Nat) (e : Int) : Fx :=
  let m : Int := if s then -(n : Int) else (n : Int)
  m * 2 ^ (e + 256).toNat

/-- Does an FP32 result lie within the bound of Table 5.7 at the exact result `v`? An infinity does where the bound reaches past the largest
finite value. -/
def fnWithin (op : Nat) (v : Fx) (r : F32) : Bool :=
  match f32 r with
  | .nan => false
  | .inf s => decide (2 ^ 384 ≤ (if s then -v else v) + fnBound op v)
  | .fin s n e => decide ((fxOf s n e - v).natAbs ≤ (fnBound op v).natAbs)

/-- The exact result, rounded once to FP32. -/
def fnRounded (v : Fx) : F32 := (convert 0 0 1 0 (.fin (decide (v < 0)) v.natAbs (-256))).bits

/-- The value of a function op at ±0, where it is an FP32 value (R166). -/
def fnAtZero (op : Nat) (a : F32) : Option F32 :=
  if op == 0x20 || op == 0x21 || op == 0x37 then some 0x3F800000
  else if op == 0x27 || op == 0x29 || op == 0x2A || op == 0x2B || op == 0x2D then some a
  else if op == 0x28 || op == 0x39 || op == 0x3A || op == 0x3B || op == 0x3C then some 0x3F000000
  else if op == 0x38 then some 0x3E800000
  else none

end Sys2Proof.Machine
end

