-- ==== Sys2Proof/Machine/Table.lean ====
section
/-! DEFINITION. Sparse tables and memories as plain data. A table lists (key, value) pairs by rising key; a key not listed
holds the table's default. A memory is such a list of bytes in canonical form: no listed byte equals what an unlisted address reads as. -/

namespace Sys2Proof.Machine

/-- A sparse table of records. -/
abbrev Table (α : Type) := List (Nat × α)

/-- The record at a key, or the default. -/
def Table.get {α : Type} (d : α) : Table α → Nat → α
  | [], _ => d
  | (k, v) :: t, i => if k = i then v else Table.get d t i

/-- Set the record at a key, keeping keys rising. -/
def Table.put {α : Type} : Table α → Nat → α → Table α
  | [], i, v => [(i, v)]
  | (k, w) :: t, i, v =>
    if i < k then (i, v) :: (k, w) :: t
    else if i = k then (i, v) :: t
    else (k, w) :: Table.put t i v

/-- Remove a key. -/
def Table.del {α : Type} (t : Table α) (i : Nat) : Table α := t.filter (fun p => p.1 != i)

/-- Apply a function to the record at a key. -/
def Table.upd {α : Type} (d : α) (t : Table α) (i : Nat) (f : α → α) : Table α :=
  t.put i (f (t.get d i))

/-- Remove every key of `[lo, lo + n)`. -/
def Table.delRange {α : Type} (t : Table α) (lo n : Nat) : Table α :=
  t.filter (fun p => p.1 < lo || lo + n ≤ p.1)

/-- Keys in strictly rising order. -/
def Table.sorted {α : Type} : Table α → Bool
  | [] => true
  | [_] => true
  | a :: b :: t => decide (a.1 < b.1) && Table.sorted (b :: t)

/-- A set of numbers, kept as a strictly rising list. -/
abbrev NSet := List Nat

/-- Membership. -/
def NSet.has (s : NSet) (i : Nat) : Bool := s.any (· == i)

/-- Insertion in order. -/
def NSet.add : NSet → Nat → NSet
  | [], i => [i]
  | k :: t, i => if i < k then i :: k :: t else if i = k then k :: t else k :: NSet.add t i

/-- Removal. -/
def NSet.rem (s : NSet) (i : Nat) : NSet := s.filter (· != i)

/-- Set or clear a mark. -/
def NSet.put (s : NSet) (i : Nat) (b : Bool) : NSet := if b then s.add i else s.rem i

/-- Remove every number of `[lo, lo + n)`. -/
def NSet.remRange (s : NSet) (lo n : Nat) : NSet := s.filter (fun k => k < lo || lo + n ≤ k)

/-- Is a number of `[lo, lo + n)` in the set? -/
def NSet.hasRange (s : NSet) (lo n : Nat) : Bool := s.any (fun k => lo ≤ k && k < lo + n)

/-- A memory: (address, byte) cells, addresses strictly rising, none listed with the byte an unlisted address reads as. -/
abbrev Memory := List Host.Cell

/-- What an unlisted address reads as: zero. Every RAM of the device is wiped to zero before it can be read (R191, R397). (DESIGN CHOICE, log entry 10) -/
def Memory.unlisted : Byte := 0

/-- The byte at an address. (DESIGN CHOICE, log entry 10) -/
def Memory.read : Memory → Nat → Byte
  | [], _ => Memory.unlisted
  | (k, v) :: t, a => if k = a then v else Memory.read t a

/-- Remove the cell at an address. -/
def Memory.drop : Memory → Nat → Memory
  | [], _ => []
  | (k, w) :: t, a => if a < k then (k, w) :: t else if a = k then t else (k, w) :: Memory.drop t a

/-- List a byte at an address. -/
def Memory.ins : Memory → Nat → Byte → Memory
  | [], a, v => [(a, v)]
  | (k, w) :: t, a, v =>
    if a < k then (a, v) :: (k, w) :: t
    else if a = k then (a, v) :: t
    else (k, w) :: Memory.ins t a v

/-- Write one byte, keeping the canonical form. -/
def Memory.write (m : Memory) (a : Nat) (v : Byte) : Memory :=
  if v = Memory.unlisted then m.drop a else m.ins a v

/-- Write consecutive bytes. -/
def Memory.writeBytes : Memory → Nat → List Byte → Memory
  | m, _, [] => m
  | m, a, b :: bs => Memory.writeBytes (m.write a b) (a + 1) bs

/-- Read consecutive bytes. -/
def Memory.readBytes (m : Memory) : Nat → Nat → List Byte
  | _, 0 => []
  | a, n + 1 => m.read a :: Memory.readBytes m (a + 1) n

/-- Set every byte of `[lo, lo + n)` to the byte an unlisted address reads as. -/
def Memory.clear (m : Memory) (lo n : Nat) : Memory := m.filter (fun c => c.1 < lo || lo + n ≤ c.1)

/-- The canonical form: addresses strictly rising, no cell equal to the unlisted byte. -/
def Memory.wf : Memory → Bool
  | [] => true
  | [c] => c.2 != Memory.unlisted
  | c :: d :: t => (c.2 != Memory.unlisted) && decide (c.1 < d.1) && Memory.wf (d :: t)

end Sys2Proof.Machine
end

