-- ==== Sys2Proof/Machine/StBoot.lean ====
section
/-! DEFINITION. The state of resets, boot, protection, lifecycle, fuses, flash, the debug port and the register windows (Chapters 20 to
22). Every field carries its reset value as its default. -/

namespace Sys2Proof.Machine

/-- Resets of the whole device, by rising rank (R586). -/
inductive RstKind where
  | warm | lifecycle | cold
  deriving DecidableEq, Repr

/-- BOOT_STAT.stage (Table 20.12). -/
inductive BootStage where
  | rom | firmware | sealed | failed
  deriving DecidableEq, Repr

/-- A flash command in progress: 1 READ, 2 PROGRAM, 3 ERASE, and its page (R621). -/
structure FlashCmd where
  op : Nat := 0
  page : Nat := 0
  deriving DecidableEq, Repr

/-- A fuse word being programmed (R602). -/
structure FuseCmd where
  item : Nat := 0
  index : Nat := 0
  value : Nat := 0
  deriving DecidableEq, Repr

/-- The DAP register (Table 20.8) with the result of the transaction in progress. -/
structure Dap where
  pend : Bool := false
  ovr : Bool := false
  status : Nat := 0
  data : Nat := 0
  nextStatus : Nat := 0
  nextData : Nat := 0
  deriving DecidableEq, Repr

/-- A snapshot of a wide register for one requester (R614): the register's lowest offset and its whole value. -/
structure Snap where
  who : Who := .debug
  base : Nat := 0
  value : Nat := 0
  deriving DecidableEq, Repr

/-- A core that DAP_STEP lets run: since which fast cycle, and its pc at the step (R606). -/
structure StepRec where
  core : Nat := 0
  since : W64 := 0
  deriving DecidableEq, Repr

/-- Resets, boot, protection, lifecycle, fuses, flash, debug port and register windows. (DESIGN CHOICE, log entry 8) -/
structure Boot where
  /-- the reset in progress, whether it has taken effect, and whether its wipes are complete (R586, R587, R630) -/
  rst : Option RstKind := some .cold
  effect : Bool := true
  wiped : Bool := false
  /-- RESET_CAUSE (sticky) -/
  cause : BitVec 8 := 1
  merged : Bool := false
  /-- BOOT_STAT -/
  stage : BootStage := .rom
  slot : Nat := 0
  code : Nat := 0
  svn : Nat := 0
  /-- the manifest records that the boot firmware has applied (R594) -/
  manAt : Nat := 0
  /-- MGMT_CTL.lock and PROT_SEAL.sealed -/
  lock : Bool := false
  sealed : Bool := false
  /-- DEV_SCRATCH0-7, CORE_VIEW_SEL and DBG_SCAN_SEL -/
  scratch : Table W64 := []
  viewEn : Bool := false
  viewSel : Nat := 0
  scanEn : Bool := false
  scanSel : Nat := 0
  /-- fuse words by 256·item + index (Table 20.13, Table 21.22), their shadows, and the blown lifecycle bits with their shadow -/
  fuse : Table Nat := (List.range 12).map (fun i => (1282 + i, 0xFFFFFFFF)) ++ [(1294, 12), (1295, 3400), (1296, 3900), (1297, 70), (1298, 45),
    (1299, 28), (1300, 9), (1301, 2600), (1302, 1500), (1303, 3000), (1304, 900), (1305, 700), (1306, 900), (1309, 180000)]
  shadow : Table Nat := (List.range 12).map (fun i => (1282 + i, 0xFFFFFFFF)) ++ [(1294, 12), (1295, 3400), (1296, 3900), (1297, 70), (1298, 45),
    (1299, 28), (1300, 9), (1301, 2600), (1302, 1500), (1303, 3000), (1304, 900), (1305, 700), (1306, 900), (1309, 180000)]
  lcFuse : Nat := 0
  lcShadow : Nat := 0
  /-- LC_STAT.status and .strap, the transition a lifecycle reset carries, and the fuse word being programmed -/
  lcStatus : Nat := 0
  strap : Bool := false
  lcTo : Option Nat := none
  fuseCmd : Option FuseCmd := none
  /-- the module's flash of 4 MiB; a cell holds the complement of its byte, so that an unlisted byte reads as erased, 0xFF (R621) -/
  flash : Memory := []
  flashBuf : Memory := []
  flashPage : Nat := 0
  flashStatus : Nat := 0
  flashCmd : Option FlashCmd := none
  dap : Dap := {}
  steps : List StepRec := []
  snaps : List Snap := []
  /-- PERST# is asserted (R630), and a boundary test instruction holds the pins (R603) -/
  perst : Bool := false
  extest : Bool := false
  deriving DecidableEq, Repr

end Sys2Proof.Machine
end

