-- ==== Sys2Proof/Machine/StCluster.lean ====
section
/-! DEFINITION. The state of a cluster node and of the network: sync counters, watches, remap, route tables and drop counts
(Chapters 1, 7 and 8). Every field carries its reset value as its default. -/

namespace Sys2Proof.Machine

/-- The test of a WAIT, SWAIT or SWT (Table 3.20): GE, EQ, NE, LT. -/
inductive Cond where
  | ge | eq | ne | lt
  deriving DecidableEq, Repr

/-- The unit of a core that registered a watch, in the order of R283. -/
inductive WUnit where
  | cpu
  | queue (q : Nat)
  | stream (e : Nat)
  deriving DecidableEq, Repr

/-- A registered watch (R282). -/
structure Watch where
  core : Nat := 0
  unit : WUnit := .cpu
  ctr : Nat := 0
  cond : Cond := .ge
  value : Nat := 0
  dec : Bool := false
  deriving DecidableEq, Repr

/-- A SYNC packet presented at a node and not yet applied, with its input port in the order of R283 (0 north … 4 hub). -/
structure SyncIn where
  port : Nat := 0
  ctr : Nat := 0
  amount : Nat := 0
  sub : Bool := false
  deriving DecidableEq, Repr

/-- PLAN_VAT (Table 9.1). -/
structure PlanVat where
  valid : Bool := false
  vatmanCluster : BitVec 6 := 0
  clusters : W64 := 0
  deriving DecidableEq, Repr

/-- GSYNC_CTL (Table 8.16). -/
structure GsyncCtl where
  en : Bool := false
  shared : Bool := false
  owner : Nat := 0
  deriving DecidableEq, Repr

/-- NET_DROPS of a cluster (Table 7.9). -/
structure NetDrops where
  badHdr : Nat := 0
  routeDrop : Nat := 0
  meshFenced : Nat := 0
  ctlFenced : Nat := 0
  deriving DecidableEq, Repr

/-- ROUTE_TABLE entry of a router (Table 7.8). -/
structure RouteEnt where
  valid : Bool := false
  vat : Nat := 0
  outMask : BitVec 5 := 0
  deriving DecidableEq, Repr

/-- A connection table entry (R269): the target endpoint and the opener. -/
structure Conn where
  opened : Bool := false
  gen : Nat := 0
  /-- target: physical core and endpoint -/
  core : Nat := 0
  ep : Nat := 0
  /-- opener: node and endpoint -/
  node : Nat := 0
  peerEp : Nat := 0
  deriving DecidableEq, Repr

/-- One trace record (Table 20.10). -/
structure TraceRec where
  cycle : W64 := 0
  local_ : Nat := 0
  kind : Nat := 0
  queue : Nat := 0
  mop : Nat := 0
  status : Nat := 0
  instr : Nat := 0
  deriving DecidableEq, Repr

/-- TRACE_CTL and the trace buffer of a cluster (R607, Table 20.14). -/
structure Trace where
  lost : Nat := 0
  head : Nat := 0
  haltFreeze : Bool := false
  freeze : Bool := false
  en : Bool := false
  recs : Table TraceRec := []
  /-- the fast cycle of the last record, and how many records it holds -/
  cycle : W64 := 0
  count : Nat := 0
  deriving DecidableEq, Repr

/-- A tick-released event held in the hub (R340): a counter increment with its stamp. -/
structure HeldTick where
  stamp : W64 := 0
  ctr : Nat := 0
  amount : Nat := 0
  /-- a sync frame's source node; none for a host increment -/
  src : Option Nat := none
  /-- the job of a sync frame -/
  job : Nat := 0
  deriving DecidableEq, Repr

/-- The cluster nodes and the network. -/
structure Net where
  /-- cluster counters by address 256·cluster + index, global ones by 0x4000 + index (R102) -/
  ctrs : Table Nat := []
  /-- SYNC_ERR per cluster, and GSYNC_ERR as cluster 64: overflow and underflow counts -/
  errOvf : Table Nat := []
  errUnf : Table Nat := []
  /-- watches in the order they are tested -/
  watches : List Watch := []
  /-- SYNC packets presented per node; the hub is node 64 -/
  presented : Table (List SyncIn) := []
  gsync : Table GsyncCtl := []
  /-- CORE_DIS: the fuse-disabled position of each cluster (R24); 63 where not listed (DESIGN CHOICE, log entry 3) -/
  coreDis : Table Nat := []
  /-- physical positions fenced, by core number 64·cluster + position (R558) -/
  fenced : NSet := []
  /-- positions whose router has taken its fence notice, by core number (R247) -/
  fenceSeen : NSet := []
  /-- fence notices taken by the remap copies, by 8192·copy + core; a copy is named by its core (R222) -/
  remapSeen : NSet := []
  /-- ROUTE_TABLE by 64·router + index -/
  routes : Table RouteEnt := []
  drops : Table NetDrops := []
  /-- trace buffers by cluster (R607) -/
  traces : Table Trace := []
  /-- the device's connection table (R269) -/
  conns : Table Conn := []
  /-- tick-released events (R288, R340) -/
  heldTicks : List HeldTick := []
  /-- SYNCF_STAT (Table 8.17) -/
  syncfRefused : Nat := 0
  syncfLate : Nat := 0
  /-- COUCH_TOP by 64·cluster + logical number (R403, R406) -/
  couchTop : Table Nat := []
  /-- plans by 16·plan + vat -/
  plans : Table PlanVat := []
  /-- PLAN_SEL.active and .ok -/
  planActive : Nat := 0
  planOk : BitVec 8 := 0
  deriving DecidableEq, Repr

end Sys2Proof.Machine
end

