-- ==== Sys2Proof/Machine/StCore.lean ====
section
/-! DEFINITION. The state of a core: its control processor (Chapter 3), its engine queues (R99), its scratchpad (Chapter 6)
and its engines. Every field carries its reset value as its default. -/

namespace Sys2Proof.Machine

/-- Core execution states (Table 3.24). -/
inductive CoreRun where
  | idle | running | ended | halted | fenced
  deriving DecidableEq, Repr

/-- An instruction that has started and waits without an effect (R97). -/
inductive Waiting where
  /-- ISSUE of the scratchpad form at offset `a`, stalled for a place in queue `q` (R103). -/
  | issue (q : Nat) (a : Nat)
  /-- ISSUE.B stalled for a place in queue `q` (R103). -/
  | issueB (q : Nat)
  /-- QWAIT on the queues of `mask` (R106). -/
  | qwait (mask : BitVec 7)
  /-- SWAIT; its watch stands in the counter node (R108, R282). -/
  | swait
  /-- WFI (R95). -/
  | wfi
  /-- MFENCE waiting for acknowledgements (R89). -/
  | mfence
  deriving DecidableEq, Repr

/-- An LDR whose request has left the core (R88, R89). -/
structure LdrOut where
  /-- destination register -/
  rd : BitVec 5
  /-- 8 for LDR.D, 4 for LDR.W -/
  size : Nat
  /-- device address -/
  addr : W64
  deriving DecidableEq, Repr

/-- A control processor (R75, Table 3.9). (DESIGN CHOICE, log entry 8; DEDUCED, log entry 17) -/
structure Ctl where
  /-- g1-g31; g0 is never stored (R75) -/
  g : Table W64 := []
  /-- p1-p7 in bits 1-7; bit 0 is never read (R75) -/
  p : BitVec 8 := 0
  /-- program counter, a byte address -/
  pc : W64 := 0
  /-- STATUS.mode (R78) -/
  mode : BitVec 2 := 0
  /-- STATUS.ie -/
  ie : Bool := false
  /-- STATUS.pie -/
  pie : Bool := false
  /-- STATUS.exc -/
  exc : Bool := false
  /-- STATUS.rserr -/
  rserrSet : Bool := false
  /-- EPC -/
  epc : W64 := 0
  /-- ECAUSE.cause -/
  cause : BitVec 8 := 0
  /-- ECAUSE.status -/
  causeStatus : BitVec 8 := 0
  /-- EVAL -/
  eval : W64 := 0
  /-- EVEC -/
  evec : W64 := 0
  /-- EPRED bits 7-1 -/
  epred : BitVec 8 := 0
  /-- ESCRATCH -/
  escratch : W64 := 0
  /-- RSERR -/
  rserr : W64 := 0
  /-- fast-clock count at which CYCLE was 0 -/
  cycleBase : W64 := 0
  /-- ENTRY (R77) -/
  entry : W64 := 0
  /-- exception vector of the mould, loaded into EVEC at sheet start (R77, R303) -/
  evecInit : W64 := 0
  /-- privilege bit of the mould (R78) -/
  priv : Bool := false
  /-- HALT_REASON -/
  haltReason : BitVec 8 := 0
  /-- IB0-IB3 -/
  ib0 : W64 := 0
  ib1 : W64 := 0
  ib2 : W64 := 0
  ib3 : W64 := 0
  /-- core execution state (R110) -/
  run : CoreRun := .idle
  /-- waiting instruction (R97) -/
  waiting : Option Waiting := none
  /-- outstanding LDR (R89) -/
  ldr : Option LdrOut := none
  /-- posted STRs not yet known to be acknowledged (R89) -/
  strOut : Nat := 0
  /-- those of them whose target lies across an asynchronous crossing (R90) -/
  strAsync : Nat := 0
  /-- the core has been started in this sheet: its first instruction may run (R313) -/
  started : Bool := false
  /-- DAP_STEP lets one instruction of a halted core run (R606) -/
  stepping : Bool := false
  /-- a debug halt request waits for the outstanding LDR (R96, R97) -/
  haltReq : Bool := false
  /-- power state GATED, and the fast cycle since which the core has been idle (R567) -/
  gated : Bool := false
  idleSince : W64 := 0
  deriving DecidableEq, Repr

/-- An engine queue (R99-R107). -/
structure EngQ where
  /-- visible entries, head first -/
  entries : List W256 := []
  /-- QSTAT.halted -/
  halted : Bool := false
  /-- an entry an engine rejected, held in its halt register ahead of the queue (R107) -/
  held : Option W256 := none
  /-- an entry already held when an earlier one halts the queue (R177): it comes next -/
  held2 : Option W256 := none
  /-- QERRn.status -/
  errStatus : BitVec 8 := 0
  /-- QERRn.mop -/
  errMop : BitVec 8 := 0
  /-- the WAIT at the head is registered as a watch (R105) -/
  waiting : Bool := false
  deriving DecidableEq, Repr

/-- The scratchpad of a core (R184, R189, R190). (DESIGN CHOICE, log entry 16) -/
structure Spad where
  mem : Memory := []
  /-- poisoned aligned 4 B words, by offset div 4 -/
  poison : NSet := []
  /-- bank words holding an uncorrectable error, by offset div 16 -/
  ue : NSet := []
  /-- bank words holding a correctable error, by offset div 16 -/
  ce : NSet := []
  /-- SP_ECC.uncorrected and .corrected (Table 6.15) -/
  eccUnc : Nat := 0
  eccCor : Nat := 0
  deriving DecidableEq, Repr

/-- An address register of a stream engine: 48-bit address and space; space 1 is a device address (R197). -/
structure ARef where
  addr : Nat := 0
  dev : Bool := false
  deriving DecidableEq, Repr

/-- A MOV, PUSH or POP whose bytes are still on their way (R200). -/
structure SeMove where
  /-- order of issue within the STREAM -/
  id : Nat := 0
  /-- delivery the destination writes belong to -/
  k : Nat := 0
  dst : ARef := {}
  src : ARef := {}
  /-- source bytes and destination bytes -/
  sn : Nat := 0
  dn : Nat := 0
  /-- MX blocks, and whether the move is a PUSH -/
  blocks : Nat := 0
  push : Bool := false
  /-- the CVT instruction in force -/
  cvt : Option Nat := none
  /-- element index of the first destination element (R202) -/
  x : Nat := 0
  /-- scale array address at the MOV, for an MX source or destination -/
  scale : ARef := {}
  /-- source pieces not requested yet, as (offset, bytes), and the source bytes requested (R212, R214) -/
  todo : List (Nat × Nat) := []
  asked : Nat := 0
  /-- source bytes that have arrived, with poisoned byte offsets; scale bytes follow at offset `sn` -/
  got : Memory := []
  bad : NSet := []
  /-- requested pieces still awaited, by offset -/
  await : NSet := []
  /-- by piece offset: the cycle after its request, and the cycle its data arrived across an asynchronous boundary (R210) -/
  reqs : Table Nat := []
  arrs : Table Nat := []
  /-- the cycle after the last asynchronous value the sequencer waited for in the delivery before the move; 0: none (R210) -/
  val : Nat := 0
  /-- write pieces already made in own scratchpad, device pieces sent, and whether a device scale array is written -/
  done : Nat := 0
  sent : Nat := 0
  scaled : Bool := false
  deriving DecidableEq, Repr

/-- What a stream engine's outstanding read brings (R212). -/
inductive SeReadKind where
  /-- source bytes of moves, as (move, source offset, bytes), adjacent and in order (R207) -/
  | pieces (parts : List (Nat × Nat × Nat))
  /-- a page table entry for PAGE ra, with the offset bits of rc -/
  | page (ra low : Nat)
  /-- the count of the LOOPM at the pc -/
  | loopm
  /-- the count of the LOOPM at a slot, read by the walk of R645 -/
  | walk (slot : Nat)
  deriving DecidableEq, Repr

/-- An outstanding read of a stream engine. -/
structure SeRead where
  id : Nat := 0
  kind : SeReadKind := .loopm
  async : Bool := false
  deriving DecidableEq, Repr

/-- A delivery point or counter action not yet applied, in program order (R206, R209). -/
inductive SeAct where
  /-- delivery point `k` executed at cycle `at_`, after an asynchronous value returned before cycle `val`; RDONE names the ready counter -/
  | point (k : Nat) (rdy : Option Nat) (at_ val : Nat)
  /-- SSIG: counter, amount, subtract; waits for the moves issued before `mv`, and in deterministic mode for cycle `win` (R214) -/
  | ssig (ctr amount : Nat) (sub : Bool) (mv win : Nat)
  deriving DecidableEq, Repr

/-- A device write of a stream engine not yet acknowledged: the first move and delivery whose bytes it carries (R214). -/
structure SeWrite where
  id : Nat := 0
  async : Bool := false
  mv : Nat := 0
  k : Nat := 0
  deriving DecidableEq, Repr

/-- The stack request held in the outbound register (R207); a read carries no data. -/
structure SeHeld where
  wr : Bool := false
  id : Nat := 0
  addr : Nat := 0
  len : Nat := 0
  data : List Byte := []
  bad : NSet := []
  deriving DecidableEq, Repr

/-- A stream engine (R197, R218). -/
structure Se where
  /-- program store, 32 slots of 64 bits (R193) -/
  store : Table Nat := []
  /-- slots of the store that hold an uncorrectable error (R327) -/
  storeUe : NSet := []
  /-- the macro-instruction accepted and not complete -/
  entry : Option W256 := none
  /-- the STREAM whose moves are in progress: its fields stand after a fault (R216) -/
  prog : W256 := 0
  /-- mop of the current or last macro-instruction -/
  mop : Nat := 0
  /-- named descriptors as read at acceptance -/
  descs : Table Nat := []
  a : Table ARef := []
  ctrs : Table Nat := []
  lstart : Table Nat := []
  lend : Table Nat := []
  /-- active loops, innermost first -/
  active : List Nat := []
  x : Nat := 0
  cvt : Option Nat := none
  scaleReg : ARef := {}
  slots : Table Nat := []
  /-- index of the next delivery point -/
  k : Nat := 0
  pc : Nat := 0
  /-- END has executed -/
  ended : Bool := false
  /-- a fault has stopped the sequencer (R216) -/
  faulted : Bool := false
  waitSwt : Bool := false
  /-- an RTAKE waits on this ready counter -/
  waitTake : Option Nat := none
  /-- the sequencer waits for a PAGE or LOOPM read, or for the walk -/
  waitRead : Bool := false
  moves : List SeMove := []
  reads : List SeRead := []
  nextId : Nat := 0
  acts : List SeAct := []
  /-- free tests of RFILL not yet passed: delivery and counter -/
  freeTests : List (Nat × Nat) := []
  /-- outstanding device writes (R214) -/
  writes : List SeWrite := []
  /-- PUSH writes not yet acknowledged: write id, address, bytes (R405) -/
  pushOut : List (Nat × Nat × Nat) := []
  /-- the cycle A of the device writes made across asynchronous boundaries; 0: none (R214) -/
  asyncA : Nat := 0
  /-- stack engine commands not yet acknowledged, with the cycle A of each (R371) -/
  cmdA : List (Nat × Nat) := []
  /-- piece counts of deliveries (R645) and LOOPM counts the walk has read -/
  nk : Table Nat := []
  walkCnt : Table (Option Nat) := []
  /-- the delivery being written: write pieces made, slips so far, and whether a slip was async -/
  piecesMade : Nat := 0
  slip : Nat := 0
  asyncSlip : Bool := false
  /-- the cycle after the last own write of the delivery being written, and the cycle after a free test passed, by delivery (R205, R213) -/
  wroteAt : Nat := 0
  gate : Table Nat := []
  /-- the cycle after the last asynchronous value of the delivery being issued, and whether own writes follow its last point (R210) -/
  val : Nat := 0
  wrote : Bool := false
  /-- the sequencer waits on a full landing or store buffer (R212, R214) -/
  full : Bool := false
  /-- deliveries whose deadline lies before this cycle were due when the engine was scanned in (R218) -/
  exempt : Nat := 0
  /-- delivery points whose action the current or last STREAM has applied -/
  deliveries : Nat := 0
  /-- the stack request held in the outbound register (R207) -/
  held : Option SeHeld := none
  /-- the STREAM read stack memory or a remote window (R213) -/
  readAsync : Bool := false
  /-- an accepted SPLOAD: first slot, and the words read at acceptance (R187, R196) -/
  spload : Option (Nat × List Nat) := none
  deriving DecidableEq, Repr

/-- One accumulator of the matrix engine: an ACC96 record on the exact path, FP32 bits on the FP32 path (R131). -/
structure MCell where
  bits : Nat := 0
  bad : Bool := false
  deriving DecidableEq, Repr

/-- The matrix engine (R142, Tables 4.10-4.12). Operand 0 is A, 1 B, 2 C, 3 the metadata, 4 the initial accumulators. -/
structure Mat where
  /-- the MATMUL accepted and not complete -/
  entry : Option W256 := none
  mop : Nat := 0
  /-- descriptors as read at acceptance (R122) -/
  descs : Table Nat := []
  /-- padded and valid sizes: 0 M, 1 N, 2 K (R135, R136) -/
  padded : Table Nat := []
  valid : Table Nat := []
  /-- next step of the walk (R130) -/
  pos : Nat := 0
  stepsDone : Nat := 0
  /-- the output tile being accumulated, and its accumulators by 32·row + column -/
  out : Option (Nat × Nat × Nat) := none
  acc : Table MCell := []
  /-- DONE and PARKED by tile slot (R131) -/
  doneCnt : Table Nat := []
  parked : NSet := []
  /-- slice entered and slots used by each ring operand (R133) -/
  slice : Table (Nat × Nat × Nat) := []
  slots : Table Nat := []
  /-- input rings whose previous slice is freed when the next step begins -/
  toFree : NSet := []
  ringWait : Bool := false
  /-- fast cycle in which the ring wait began -/
  waitSince : Nat := 0
  /-- the next accumulator tile holds a record that breaks R127 -/
  badAcc : Bool := false
  /-- MAT_RING_WAIT -/
  ringCycles : Nat := 0
  /-- MAT_PARKS -/
  parks : Nat := 0
  unparks : Nat := 0
  deriving DecidableEq, Repr

/-- An element that has entered the reduction in progress: batch, row and column, its encoding or FP32 bits, its scale byte and its poison. The running
results and exact accumulators of R179 are what these elements give. -/
structure Entered where
  b : Nat := 0
  i1 : Nat := 0
  i0 : Nat := 0
  enc : Nat := 0
  scale : Nat := 127
  bad : Bool := false
  deriving DecidableEq, Repr

/-- The vector engine and the reduction unit (R179, Table 5.14). -/
structure Vec where
  /-- copy of the head VCHAIN's chain record (R158): 0 good, 1 poisoned, 2 out of range -/
  copy : Option (Nat × Nat) := none
  /-- macro-instruction held by the vector engine, and by the reduction unit -/
  vec : Option W256 := none
  red : Option W256 := none
  /-- chain record of the VCHAIN in progress -/
  chain : Nat := 0
  /-- descriptors of the vector engine's entry: 0 X, 1 Y, 2 Z, 3 O, 4 O2, 5 reduction; and of the REDUCE: 0 X, 1 O -/
  vdescs : Table Nat := []
  rdescs : Table Nat := []
  /-- sizes of logical dimensions 0 and 1: padded 0, 1 and valid 2, 3 -/
  vdim : Table Nat := []
  rdim : Table Nat := []
  /-- tile elements by 1024·register + linear element (R153) -/
  tiles : Table MCell := []
  /-- next walk position, in groups, of the vector engine's entry and of the REDUCE; the elements that have entered the reduction, kept across a halt;
  whether the groups issued before a halt have been finished (R179) -/
  next : Nat := 0
  rnext : Nat := 0
  entered : List Entered := []
  settled : Bool := false
  vecMop : Nat := 0
  redMop : Nat := 0
  groupsDone : Nat := 0
  deriving DecidableEq, Repr

/-- States of a channel endpoint (Table 8.9). -/
inductive EpSt where
  | off | ready | listen | opening | opened | closed
  deriving DecidableEq, Repr

/-- A message in a spill ring (R276). -/
structure Spilled where
  len : Nat := 0
  seq : Nat := 0
  srcNode : Nat := 0
  deriving DecidableEq, Repr

/-- A message of which packets have arrived: its sender (node, cluster, core, endpoint), its bytes and poisoned offsets so far, and whether it
is being discarded until its last packet (R266, R316). -/
structure RxMsg where
  far : Nat × Nat × Nat × Nat := (0, 0, 0, 0)
  data : List Byte := []
  bad : NSet := []
  drop : Bool := false
  deriving DecidableEq, Repr

/-- A mailbox message (Table 8.11). -/
structure MboxMsg where
  srcNode : Nat := 0
  remote : Bool := false
  srcCl : Nat := 0
  srcCore : Nat := 0
  srcEp : Nat := 0
  data : List Byte := []
  deriving DecidableEq, Repr

/-- A channel endpoint: its descriptor and everything it keeps (R251-R279, Tables 8.1, 8.9-8.11). -/
structure Ep where
  /-- channel descriptor, 32 bytes -/
  desc : Nat := 0
  /-- words 0-2 staged through VM_CHTAB (R252) -/
  staging : Table W64 := []
  st : EpSt := .off
  /-- credits held by receiver index, and the credits of an endpoint with no message outstanding -/
  credits : Table Nat := []
  creditsMax : Nat := 0
  /-- sequence number of the next message sent, or landed -/
  seq : Nat := 0
  /-- connection ID of path 3, and the far end: node, cluster, core, endpoint -/
  conn : Nat := 0
  far : Nat × Nat × Nat × Nat := (0, 0, 0, 0)
  /-- write slot, and occupied slots ending before it -/
  wp : Nat := 0
  occ : Nat := 0
  /-- spill ring: messages oldest first, head slot, and drain reads outstanding -/
  spill : List Spilled := []
  spHead : Nat := 0
  drains : Nat := 0
  /-- spilled messages whose writes are not acknowledged yet, oldest first, drained or not: is a LACK asked for (R276)? -/
  spillAcks : List Bool := []
  /-- messages of which packets have arrived -/
  rx : List RxMsg := []
  /-- rdy_ctr increments held to their release cycles (R279) -/
  heldRdy : List Nat := []
  mbox : MboxMsg := {}
  full : Bool := false
  msgs : Nat := 0
  spills : Nat := 0
  stall : Nat := 0
  /-- fast cycle since which the head message has waited with no credit arriving, whether that count has been reported (R277), and since which it
  waits -/
  dlSince : Option Nat := none
  dlTold : Bool := false
  stallSince : Option Nat := none
  overrun : Bool := false
  deadlock : Bool := false
  deriving DecidableEq, Repr

/-- The channel engine (R261-R264). -/
structure Chn where
  entry : Option W256 := none
  mop : Nat := 0
  /-- index of the next message of the SEND -/
  idx : Nat := 0
  /-- by receiver index: messages of the SEND whose acknowledgement or refusal is in (R263, R264) -/
  answered : Table Nat := []
  /-- first refusal of the SEND -/
  refusal : Option Nat := none
  /-- a message of the SEND has held poison: its first poisoned offset -/
  sentBad : Option Nat := none
  /-- tick at which the OPEN was sent -/
  openAt : Nat := 0
  /-- cycle at which the last packet left, and whether its landing acknowledgement is in (R279) -/
  lastCycle : Nat := 0
  landed : Bool := false
  /-- CHN_DROPS (Table 8.12) -/
  refused : Nat := 0
  badPkt : Nat := 0
  deriving DecidableEq, Repr

/-- Everything the cores hold, by physical core number 64·cluster + position; number 4096 is the management core. -/
structure Cores where
  ctls : Table Ctl := []
  /-- engine queues by 8·core + queue code -/
  queues : Table EngQ := []
  imems : Table Memory := []
  /-- 16 B words of a core's instruction store that hold an uncorrectable error (R327) -/
  imemUe : Table NSet := []
  spads : Table Spad := []
  /-- stream engines by 4·core + engine -/
  ses : Table Se := []
  mats : Table Mat := []
  vecs : Table Vec := []
  /-- endpoints by 64·core + endpoint, and channel engines -/
  eps : Table Ep := []
  chns : Table Chn := []
  /-- SE_LATE and SE_MERGE (Tables 6.13, 6.14) -/
  seAsyncLate : Table Nat := []
  seOndieLate : Table Nat := []
  seRequests : Table Nat := []
  seJoined : Table Nat := []
  /-- CORE_IRQ_CAUSE -/
  irqCause : Table (BitVec 6) := []
  /-- ARITH_STATUS -/
  arith : Table (BitVec 8) := []
  deriving DecidableEq, Repr

end Sys2Proof.Machine
end

