-- ==== Sys2Proof/Machine/StHost.lean ====
section
/-! DEFINITION. The state of the host port: rings, commands, windows and copies (Chapter 17). -/

namespace Sys2Proof.Machine

/-- A host command, fetched or started by a doorbell (R528, Table 17.6). -/
structure HostCmd where
  /-- the model's own number of the command within its ring -/
  uid : Nat := 0
  /-- submission index; 0xFFFF for a doorbell start -/
  index : Nat := 0
  op : Nat := 0
  vat : Nat := 0
  fence : Bool := false
  irq : Bool := false
  tag : Nat := 0
  /-- the 64 B entry -/
  entry : Nat := 0
  /-- ACCEPTED: applied to its target -/
  applied : Bool := false
  deriving DecidableEq, Repr

/-- A finished command whose record is not yet written (R529), or is withheld by a twin commit (R531). -/
structure HostDone where
  cmd : HostCmd := {}
  status : Nat := 0
  r0 : Nat := 0
  r1 : Nat := 0
  /-- the commit that covers a withheld completion (R487) -/
  commit : Nat := 0
  deriving DecidableEq, Repr

/-- A command ring with its registers (Tables 17.13-17.15). -/
structure Ring where
  sqBase : Nat := 0
  cqBase : Nat := 0
  vec : Nat := 0
  sizeLog2 : Nat := 4
  en : Bool := false
  cqHead : Nat := 0
  cqTail : Nat := 0
  sqTail : Nat := 0
  sqHead : Nat := 0
  phase : Bool := true
  /-- records written and not yet freed by CQ_HEAD -/
  cqUsed : Nat := 0
  /-- the tick at which the outstanding entry read was made -/
  fetchAt : Option W64 := none
  halted : Bool := false
  /-- commands FETCHED or ACCEPTED, in ring order -/
  cmds : List HostCmd := []
  /-- WITHHELD, in commit order -/
  withheld : List HostDone := []
  /-- finished, waiting for their records -/
  done : List HostDone := []
  nextUid : Nat := 0
  /-- records of remaining commands are discarded (FLR, R530) -/
  discard : Bool := false
  deriving DecidableEq, Repr

/-- A COPY in progress (R536). -/
structure CopyJob where
  host : Nat × Nat := (0, 0)
  vat : Nat := 0
  /-- true: device to host -/
  out : Bool := false
  hostAddr : Nat := 0
  dev : Nat := 0
  bytes : Nat := 0
  moved : Nat := 0
  /-- the device range is the scratchpad of this core -/
  spad : Option Nat := none
  /-- offsets and lengths of the host data that has arrived -/
  got : List (Nat × Nat) := []
  /-- the tick of the last host read or completion -/
  since : W64 := 0
  deriving DecidableEq, Repr

/-- The memory window segments of one function: bases of HOST_MWIN_SEG0-7. -/
structure HostFn where
  segs : Table Nat := []
  deriving DecidableEq, Repr

/-- The host side of the device. (DESIGN CHOICE, log entry 79) -/
structure HostSide where
  rings : Table Ring := []
  /-- HOST_VFMAP: valid and vat of each entry (R517) -/
  vfMap : Table (Bool × Nat) := []
  fns : Table HostFn := []
  copies : List CopyJob := []
  ctoUs : Nat := 0x2710
  ro : Bool := false
  /-- HOST_LINK (Table 17.18) -/
  up : Bool := false
  flit : Bool := false
  rate : Nat := 0
  width : Nat := 0
  /-- HOST_ERR (Table 17.18) -/
  refused : Nat := 0
  poisonedRx : Nat := 0
  cplTimeout : Nat := 0
  dbRefused : Nat := 0
  deriving DecidableEq, Repr

end Sys2Proof.Machine
end

