-- ==== Sys2Proof/Machine/StHub.lean ====
section
/-! DEFINITION. The state of the hub: interrupt controller, wake watcher, error log and message registers (Chapter 18). -/

namespace Sys2Proof.Machine

/-- One interrupt source (R543, Table 18.9). -/
structure IrqSrc where
  /-- IRQ_SRC_CFG.tgt -/
  tgt : BitVec 18 := 0
  /-- IRQ_SRC_STATE.pending -/
  pending : Bool := false
  /-- IRQ_SRC_STATE.active -/
  active : Bool := false
  /-- assigned target; none reads 0x1F -/
  assigned : Option Nat := none
  /-- last-served target -/
  last : Nat := 0x11
  /-- the target that claimed the active source (R545) -/
  claimer : Option Nat := none
  deriving DecidableEq, Repr

/-- IRQ_TGT_CTL of one target. -/
structure IrqTgt where
  en : Bool := false
  vec : BitVec 11 := 0
  deriving DecidableEq, Repr

/-- One report of an error source, the content of an error log entry (Table 18.4). -/
structure Report where
  src : Nat := 0
  event : Nat := 0
  status : Nat := 0
  vat : Option Nat := none
  tick : W64 := 0
  info0 : Nat := 0
  info1 : Nat := 0
  deriving DecidableEq, Repr

/-- One written entry of the log: the report and what the writing added (R550, R551). -/
structure LogEntry where
  rep : Report := {}
  dropped : Nat := 0
  held : Bool := false
  seq : Nat := 0
  deriving DecidableEq, Repr

/-- One holder (R551); holders are listed in the order of their reports. -/
structure Holder where
  rep : Report := {}
  drops : Nat := 0
  deriving DecidableEq, Repr

/-- WAKE_SELn (Table 18.12). -/
structure WakeSel where
  latch : Bool := false
  wake : Bool := false
  en : Bool := false
  src : BitVec 10 := 0
  deriving DecidableEq, Repr

/-- A layer slot of the format advisor (R409, R414). -/
structure AdvSlot where
  /-- counters of the live and the frozen bank by bin -/
  live : Table Nat := []
  frozen : Table Nat := []
  /-- exponent origin taken at the last LOAD -/
  eo : Int := 0
  /-- adopted candidate index and streak -/
  adopted : Option Nat := none
  streak : Nat := 0
  /-- the last verdict written (Table 12.6) since the last LOAD -/
  verdict : Option Nat := none
  /-- the bank or policy of the slot is a poisoned item (R557) -/
  bad : Bool := false
  deriving DecidableEq, Repr

/-- Sequence slot states (Table 13.2). -/
inductive SeqSt where
  | empty | pending | active | paused | done
  deriving DecidableEq, Repr

/-- A sequence slot (Table 13.1); `bad` marks a poisoned item (R557). -/
structure Seq where
  st : SeqSt := .empty
  pauseReq : Bool := false
  stopReq : Bool := false
  nopage : Bool := false
  reason : Nat := 0
  tag : Nat := 0
  promptLen : Nat := 0
  pos : Nat := 0
  maxLen : Nat := 0
  gen : Nat := 0
  ptAddr : Nat := 0
  ptPages : Nat := 0
  outAddr : Nat := 0
  admitNo : Nat := 0
  joinStep : Nat := 0
  lastStep : Nat := 0
  row : Nat := 0
  bad : Bool := false
  deriving DecidableEq, Repr

/-- GTC synchronisation states (Table 10.3). -/
inductive GsSt where
  | free | acquire | locked | holdover
  deriving DecidableEq, Repr

/-- The GTC synchronisation unit (R335-R337, Tables 10.13, 10.14). -/
structure GtcSync where
  perLog2 : Nat := 0x10
  en : Bool := false
  upPort : Nat := 7
  st : GsSt := .free
  /-- trim in 0.1 ppm, as the hardware leaves it -/
  trim : Int := 0
  hops : Nat := 0
  delay : Nat := 0
  offset : Int := 0
  /-- last TREQ: seq and t1, none when answered -/
  seq : Nat := 0
  t1 : Option W64 := none
  /-- consecutive exchanges within 4 ticks, and beyond 16 -/
  good : Nat := 0
  badN : Nat := 0
  /-- tick of the last valid TRSP -/
  lastValid : W64 := 0
  /-- node ID of the root last followed -/
  root : Option Nat := none
  deriving DecidableEq, Repr

/-- Device accounting (Table 16.8). (DESIGN CHOICE, log entry 135) -/
structure DevAcct where
  base : Nat := 0
  idx : W32 := 0
  perMs : Nat := 1000
  lost : Bool := false
  /-- a record was dropped since the last record written (Table 16.1) -/
  lostSince : Bool := false
  en : Bool := false
  slotsLog2 : Nat := 0
  weights : Table Nat := [(0, 12), (1, 3400), (2, 3900), (3, 70), (4, 45), (5, 28), (6, 9), (7, 2600), (8, 1500), (9, 3000), (10, 900),
    (11, 700), (12, 900), (15, 180000)]
  sysEnergy : W64 := 0
  /-- ACCT_SYS_ENERGY and its clamp mark at the start of the window -/
  sysEnergy0 : W64 := 0
  clamp : Bool := false
  from_ : W64 := 0
  clamps : Nat := 0
  lastC : Nat := 0x10000
  /-- the window and the calibration interval in progress, counted from tick 0 -/
  winIdx : Nat := 0
  calIdx : Nat := 0
  deriving DecidableEq, Repr

/-- The hub blocks of Chapters 12 and 18. -/
structure Hub where
  srcs : Table IrqSrc := []
  tgts : Table IrqTgt := []
  /-- ring of 512 entries -/
  log : Table LogEntry := []
  logHead : Nat := 0
  logTail : Nat := 0
  /-- ERRLOG_CTL.owner: true names the PF -/
  logOwnerPf : Bool := false
  logOvf : Bool := false
  /-- entries written since cold reset -/
  logSeq : Nat := 0
  holders : List Holder := []
  wakeSel : Table WakeSel := []
  wakeLost : Nat := 0
  hostToMgmt : W32 := 0
  mgmtToHost : W32 := 0
  gtcAlarm : W64 := BitVec.allOnes 64
  /-- source 668 has fired for the present GTC_ALARM -/
  alarmDone : Bool := false
  /-- an uncorrectable error in unowned hub state has been met (R560) -/
  deviceFault : Bool := false
  /-- PROT_CTL.hold_postmortem (R36) -/
  holdPm : Bool := false
  /-- GTC synchronisation (R335-R337) -/
  gs : GtcSync := {}
  /-- ACCT_BASE, ACCT_CTL, ACCT_WEIGHT, ACCT_SYS_ENERGY and ACCT_CAL (Table 16.8) -/
  acct : DevAcct := {}
  /-- SHARE_SYS (Table 16.8) -/
  shareSysHost : Nat := 0x100
  shareSysSpan : Nat := 0x100
  /-- DET_REFSLOT (Table 10.15): period, len, en -/
  refPeriod : Nat := 1960
  refLen : Nat := 120
  refEn : Bool := true
  /-- a DET_REFSLOT value accepted and waiting for the next slot boundary -/
  refPend : Option (Nat × Nat × Bool) := none
  /-- DVFS point in force, 0-4 for 0.8-1.5 GHz -/
  dvfs : Nat := 4
  /-- the format advisor's layer slots (R409) -/
  advs : Table AdvSlot := []
  /-- the sequence table (R421) -/
  seqs : Table Seq := []
  deriving DecidableEq, Repr

end Sys2Proof.Machine
end

