-- ==== Sys2Proof/Machine/StVat.lean ====
section
/-! DEFINITION. The state of a vat: its control block and everything the device keeps per vat (Chapters 2, 8, 9, 10, 12, 13, 14, 15, 16,
18 and 19). Every field carries its reset value as its default. -/

namespace Sys2Proof.Machine

/-- Vat states (Table 9.2). -/
inductive VatSt where
  | free | loading | ready | running | stopping | scanned | wiping | faulted
  deriving DecidableEq, Repr

/-- Mould load states (Table 9.8). -/
inductive LdSt where
  | idle | header | check | write | finish
  deriving DecidableEq, Repr

/-- A mould load or scan-in in progress (R306, R324). -/
structure LoadJob where
  /-- true for a scan-in -/
  scanIn : Bool := false
  /-- image address -/
  src : Nat := 0
  /-- vat state the load came from (R295) -/
  from_ : VatSt := .free
  /-- the header passed its CRC -/
  headerOk : Bool := false
  /-- records arrived with a good CRC: 0-2 the header, 3 + i frame i -/
  recs : Table (List Byte) := []
  /-- next frame to write of each bucket, by cluster -/
  next : Table Nat := []
  /-- the host command to complete, as (ring, index) -/
  host : Option (Nat × Nat) := none
  deriving DecidableEq, Repr

/-- VAT_LOAD_ERR (Table 9.15). -/
structure LoadErr where
  valid : Bool := false
  status : Nat := 0
  index : Nat := 0
  deriving DecidableEq, Repr

/-- Determinism registers and the sheet's record so far (Chapter 10). -/
structure VatDet where
  arm : Bool := false
  brkIrq : Bool := false
  det : Bool := false
  /-- VAT_DET_CTL.det latched at sheet start (R341) -/
  detOn : Bool := false
  launch : W64 := 0
  firstCycle : W64 := BitVec.allOnes 64
  mask : W32 := 0
  firstCause : Nat := 0
  count : Nat := 0
  wmBase : Nat := 0
  wmIdx : W32 := 0
  wmDrop : Bool := false
  wmSlots : Nat := 0
  /-- VAT_WM_RANGE0-3 as written -/
  wmRange : Table W64 := []
  /-- launch tick of a pending start (R339) -/
  pendStart : Option W64 := none
  /-- the pending start is an armed launch -/
  pendArmed : Bool := false
  /-- the pending start waits for the launch grid (R339) -/
  pendGrid : Bool := false
  /-- the pending start was accepted at or after its launch tick (R339) -/
  pendLate : Bool := false
  gtcStart : W64 := 0
  launched : Bool := false
  resumed : Bool := false
  /-- λ became nonzero during the sheet (R333) -/
  stretched : Bool := false
  /-- the GTC was LOCKED, or the device a root, throughout -/
  locked : Bool := true
  outCrc : W64 := 0
  deriving DecidableEq, Repr

/-- Accounting and reclaim steps (Chapter 16). -/
inductive ReclaimStep where
  | none | pending | stopping | held | evacuating | wiping
  deriving DecidableEq, Repr

/-- VAT_RECLAIM (Table 16.7). -/
structure Reclaim where
  deadline : W64 := 0
  status : Nat := 0
  step : ReclaimStep := .none
  /-- the host command to complete -/
  host : Option (Nat × Nat) := none
  deriving DecidableEq, Repr

/-- VAT_POISON_ORIGIN (Table 18.13). -/
structure PoisonOrigin where
  tick : W64 := 0
  more : Bool := false
  valid : Bool := false
  src : Nat := 0
  addr : Nat := 0
  deriving DecidableEq, Repr

/-- VAT_CONTAIN (Table 18.13). -/
structure Contain where
  firstPoison : Nat := 0
  addr : Nat := 0
  tick : W64 := 0
  origin : Nat := 0
  status : Nat := 0
  kind : Nat := 0
  deriving DecidableEq, Repr

/-- Accounting of a vat's job (R501-R504): VAT_ACCT0-22, STK_ACCT rd, wr, eng, xfer, and both at the start of the window. -/
structure Acct where
  acct : Table Nat := []
  stk : Table Nat := []
  acct0 : Table Nat := []
  stk0 : Table Nat := []
  /-- both at the start of the calibration interval (R505) -/
  acctCal : Table Nat := []
  stkCal : Table Nat := []
  /-- first tick of the window -/
  from_ : W64 := 0
  /-- counting has stopped (R501) -/
  stopped : Bool := true
  /-- an interval of the window was clamped -/
  clamp : Bool := false
  deriving DecidableEq, Repr

/-- One entry of an evacuation list being moved (Table 16.5). -/
structure EvacEnt where
  src : Nat := 0
  pages : Nat := 0
  peer : Bool := false
  port : Nat := 0
  addr : Nat := 0
  node : Nat := 0
  deriving DecidableEq, Repr

/-- A log entry of the mirror (R485): a captured write, a mirrored record, or the end of a commit. -/
inductive LogItem where
  | write (addr : Nat) (data : List Byte) (bad : NSet)
  | record (type : Nat) (data : List Byte)
  | commit (no : Nat)
  deriving DecidableEq, Repr

/-- A commit taken by the active and not yet acknowledged (R484, R487): its number, whether it closes a resync or a STEP commit
(whose status is a release) or follows a sheet or STEP, and the first poisoned address captured in it. -/
structure TwCommit where
  no : Nat := 0
  resync : Bool := false
  cmd : Bool := false
  bad : Option Nat := none
  deriving DecidableEq, Repr

/-- Twin mirroring of a vat (Tables 15.8-15.10). -/
structure VatTwin where
  relCtr : Nat := 0
  relEn : Bool := false
  mode : Nat := 0
  applied : W32 := 0
  committed : W32 := 0
  sent : W32 := 0
  status : Nat := 0
  standby : Bool := false
  busy : Bool := false
  /-- 0 OFF, 1 TORN, 2 SYNCED, 3 LAPSED -/
  mstat : Nat := 0
  logBase : Nat := 0
  logPages : Nat := 0
  /-- TWIN_RANGE0-7 as written -/
  ranges : Table W64 := []
  /-- mode asked of the mirror by an ENABLE not yet answered -/
  pendMode : Nat := 0
  /-- a resync or STEP commit waits for the vat's stack engine commands: 0 none, 1 COMMIT, 2 RESYNC -/
  pendCmd : Nat := 0
  /-- active: dirty 64 KiB blocks (R479), the first poisoned address captured since the last commit, number of the last commit taken,
  commits awaiting their CACK, log units of the commit being formed, and the mirror's free units -/
  dirty : NSet := []
  curBad : Option Nat := none
  no : Nat := 0
  commits : List TwCommit := []
  units : Nat := 0
  freeUnits : Nat := 0
  /-- the most units the mirror has reported free: its whole log -/
  peerUnits : Nat := 0
  /-- stack engine commands below this number were accepted before the resync or STEP commit in progress (R483) -/
  cmdLine : Nat := 0
  /-- mirror: the log in order (R485), the unit written next, and commits received in full and not yet applied -/
  log : List LogItem := []
  logAt : Nat := 0
  deriving DecidableEq, Repr

/-- A request to the batcher (R425, R426): op 1-6 of Table 13.3. -/
structure SeqReq where
  op : Nat := 0
  slot : Nat := 0
  /-- ADMIT image in Table 13.1 layout -/
  image : Nat := 0
  arg : Nat := 0
  host : Option (Nat × Nat) := none
  deriving DecidableEq, Repr

/-- The batcher registers of a vat and its step in progress (Tables 13.10-13.14). -/
structure Batch where
  base : Nat := 0
  chunk : Nat := 0x200
  tokens : Nat := 0x800
  rows : Nat := 0x100
  ptStride : Nat := 0
  pageTokens : Nat := 0x40
  bkt : Table Nat := [(0, 0x800)]
  steps : W32 := 0
  status : Nat := 0
  prev : Bool := false
  ctr : Nat := 0
  ctrEn : Bool := false
  busy : Bool := false
  rot : Nat := 0x3FFF
  stage : Nat := 0
  cmdStatus : Nat := 0
  starved : Nat := 0
  nopage : Nat := 0
  left : Nat := 0
  joined : Nat := 0
  /-- next admission number -/
  admitNext : W32 := 0
  /-- rows of the last step list: slot and q, in row order -/
  list : List (Nat × Nat) := []
  /-- the host command of the STEP in progress, and its final status -/
  host : Option (Nat × Nat) := none
  endStatus : Nat := 0
  /-- commands held while a STEP is busy (R426) -/
  held : List SeqReq := []
  deriving DecidableEq, Repr

/-- One of the 16 vats. -/
structure Vat where
  st : VatSt := .free
  /-- VAT_JOB (Table 16.7): the job, whether one is assigned, and a release wipe in progress -/
  jobId : Nat := 0
  jobValid : Bool := false
  relWipe : Bool := false
  ld : LdSt := .idle
  /-- clusters over which the deckle is raised (R315) -/
  deckle : NSet := []
  /-- held increments in order of arrival: (counter address, amount) (R317) -/
  heldIncs : List (Nat × Nat) := []
  /-- VAT_CTL.status -/
  ctlStatus : Nat := 0
  loadSrc : Nat := 0
  scanBase : Nat := 0
  progAttempts : Nat := 0
  progDone : Nat := 0
  loadErr : LoadErr := {}
  mouldId : W64 := 0
  drainTo : Nat := 100000
  deckleRefused : Nat := 0
  deckleOverflow : Nat := 0
  job_ : Option LoadJob := none
  /-- start table (R311), offsets of clock regions 0-7 -/
  startOff : Table Nat := []
  /-- enlisted physical cores (R303) -/
  enlisted : NSet := []
  /-- ROUTE payloads of the mould, as (cluster, core, payload value) (R320) -/
  routes : List (Nat × Nat × List Byte) := []
  /-- static peer table, entries as the mould wrote them: bits [16:0] node, bit 31 valid (R268, R302) -/
  peers : Table Nat := []
  /-- tick at which the forced stop was accepted, while store buffers drain (R319) -/
  stopTick : Option W64 := none
  /-- GTC and CYCLE at the stop (R321) -/
  stopGtc : W64 := 0
  stopCycle : W64 := 0
  /-- a forced stop waits for the end of a load (R295) -/
  stopWaits : Bool := false
  /-- the scan-out has started writing core slots (R323) -/
  scanning : Bool := false
  /-- a sheet was running when the vat stopped -/
  sheetLive : Bool := false
  /-- fast-clock count at CYCLE = 0 of the sheet (R313) -/
  cycleBase : W64 := 0
  /-- VAT_SR_SEED and its latch (R72) -/
  srSeed : W64 := 0
  srSeedLatch : W64 := 0
  srSheet : W32 := 0
  /-- the sheet being run is the first since a mould load (R72) -/
  firstSheet : Bool := true
  /-- VAT_SE_ACKWIN and its latch (R214) -/
  ackWin : Nat := 0x800
  ackWinLatch : Nat := 0x800
  /-- VAT_CHN_CTL -/
  openTo : Nat := 0xF4240
  dlLog2 : Nat := 0x14
  dlLog2Latch : Nat := 0x14
  /-- VAT_XSYNC_DELAY -/
  xsyncDelay : Nat := 2000
  det : VatDet := {}
  /-- VAT_CONTAIN_CTL.stop -/
  containStop : Bool := false
  contain : Contain := {}
  origin : PoisonOrigin := {}
  hostMsg : W32 := 0
  /-- VM_CTL.entry and .evec (Table 20.14) -/
  vmEntry : Nat := 0
  vmEvec : Nat := 0
  reclaim : Reclaim := {}
  /-- VAT_COUCH_BASE, VAT_COUCH_SEG.pages and VAT_COUCH_HWM (Tables 12.7-12.10) -/
  couchBase : Nat := 0
  couchPages : Nat := 0
  couchHwm : Nat := 0
  /-- VAT_ADV_RANGE, VAT_ADV_BASE, VAT_ADV_CTL and VAT_ADV_STAT (Tables 12.11, 12.12) -/
  advFirst : Nat := 0
  advCount : Nat := 0
  advBase : Nat := 0
  advCloses : W32 := 0
  advStatus : Nat := 0
  advCtr : Nat := 0
  advCtrEn : Bool := false
  advBusy : Bool := false
  /-- the status with which the close in progress ends -/
  advEnd : Nat := 0
  advBadPolicy : Nat := 0
  advForeign : Nat := 0
  /-- host commands that end with the sheet, the stop, the kill, the evacuation and the release wipe -/
  sheetHost : Option (Nat × Nat) := none
  stopHost : Option (Nat × Nat) := none
  killHost : Option (Nat × Nat) := none
  evacHost : Option (Nat × Nat) := none
  relHost : Option (Nat × Nat) := none
  /-- VAT_SHARE (Table 16.7) -/
  shareHost : Nat := 0
  shareSpan : Nat := 0
  ac : Acct := {}
  /-- VAT_EVAC (Table 16.7) and the evacuation list being moved -/
  evacEntries : Nat := 0
  evacPages : Nat := 0
  evac : List EvacEnt := []
  tw : VatTwin := {}
  /-- VAT_BAL_CTL (Table 13.15) and the balancer's positions -/
  balEn : Bool := false
  balActive : Bool := false
  balPos : Table Nat := []
  balGroup : Table Nat := []
  /-- VAT_BATCH_RANGE and the other batcher registers -/
  btFirst : Nat := 0
  btCount : Nat := 0
  bt : Batch := {}
  /-- VAT_PWR_CTL.gate_idle and its latch (R567) -/
  gateIdle : Nat := 0x40
  gateIdleLatch : Nat := 0x40
  /-- STK_SHARE, STK_ARITH_STATUS and OLDEST_VERSION_WAITS (Tables 11.7, 11.9, 11.13) -/
  stkShare : Nat := 0
  stkArith : BitVec 8 := 0
  versionWaits : Nat := 0
  /-- drain_to has passed (R319) -/
  drained : Bool := false
  /-- scratchpad COPYs in progress (R536) -/
  spadCopies : Nat := 0
  /-- a yield waits for stack engine commands (R507) -/
  yielded : Bool := false
  deriving DecidableEq, Repr

end Sys2Proof.Machine
end

