-- ==== Sys2Proof/Machine/StMem.lean ====
section
/-! DEFINITION. The state of the memory stacks and their controllers (Chapter 11), and the scan images they hold (Chapter 9). -/

namespace Sys2Proof.Machine

/-- A version table entry (Table 11.12). -/
structure VerEnt where
  aside : Bool := false
  upd : Bool := false
  cur : Nat := 0
  valid0 : Bool := false
  valid1 : Bool := false
  defined : Bool := false
  vat : Nat := 0
  size : Nat := 0
  base0 : Nat := 0
  base1 : Nat := 0
  pins0 : Nat := 0
  pins1 : Nat := 0
  epoch0 : W64 := 0
  epoch1 : W64 := 0
  /-- a poisoned item (R557) -/
  bad : Bool := false
  deriving DecidableEq, Repr

/-- A core slot of a scan image (R322). -/
structure CoreSnap where
  ctl : Ctl := {}
  queues : Table EngQ := []
  eps : Table Ep := []
  chn : Chn := {}
  ses : Table Se := []
  mat : Mat := {}
  vec : Vec := {}
  imem : Memory := []
  spad : Spad := {}
  deriving DecidableEq, Repr

/-- A scan image (R320-R323). The bytes of most sections are not given; the image is kept as the values they hold. -/
structure ScanSnap where
  /-- the 256 header bytes, which name the image wherever its bytes lie -/
  hdr : List Byte := []
  /-- core slots by 64·ordinal + logical -/
  slots : Table CoreSnap := []
  /-- counters by 256·ordinal + index, and held increments with the same numbering -/
  ctrs : Table Nat := []
  held : List (Nat × Nat) := []
  /-- watches with the same numbering of core and counter -/
  watches : List Watch := []
  /-- the vat record -/
  vat : Vat := {}
  /-- global counters the vat owns -/
  globals : Table Nat := []
  /-- enlisted cores by 64·ordinal + logical -/
  enlisted : NSet := []
  /-- version table entries the vat owns (R395) -/
  vers : Table VerEnt := []
  /-- top pointers of the couch segments by 64·ordinal + logical (R407), and advisor slots by index within the range (R417) -/
  tops : Table Nat := []
  advs : Table AdvSlot := []
  deriving DecidableEq, Repr

/-- Where a stack engine command stands: waiting to start; set aside (R392); started and waiting for the version decision; started;
its prescan made and exchanged (R388); its sums made and exchanged (R381, R383); its reads and writes made. -/
inductive StkStage where
  | queued | aside | decide | ready | scanned | go | summed | total | ran
  deriving DecidableEq, Repr

/-- A stack engine command held by the controllers (R371, R372, R392). -/
structure StkCmd where
  id : Nat := 0
  vat : Nat := 0
  by_ : StkBy := .core 0 0 0
  /-- the 128 B record -/
  rec_ : Nat := 0
  stage : StkStage := .queued
  /-- target slot of a versioned update -/
  target : Nat := 0
  /-- poison has been met; the first poisoned address, and the home address of its element -/
  poisoned : Bool := false
  badAt : Nat := 0
  pointAt : Nat := 0
  /-- partial sums by stack: FP64 bits of SW and SU, as 2·stack + kind; bit 64 poison and bit 65 NaN or infinity of SUMSQ -/
  sums : Table Nat := []
  /-- controllers that have answered, and the first status other than OK -/
  ans : NSet := []
  status : Nat := 0
  deriving DecidableEq, Repr

/-- One stack's registers (Tables 11.10, 11.11) and scrub position. (DESIGN CHOICE, log entry 16) -/
structure Stk where
  poisonRd : Nat := 0
  scrubFixed : Nat := 0
  uncorrected : Nat := 0
  corrected : Nat := 0
  temp : Nat := 0
  rows : Nat := 0
  hot : Bool := false
  ready : Bool := false
  /-- next stack-local block to scrub, and a block to rewrite in the next slot -/
  scrubAt : Nat := 0
  scrubFix : Option (Nat × Bool) := none
  /-- the tick at which the last refresh slot that was used begins (R346) -/
  slotAt : Option Nat := none
  deriving DecidableEq, Repr

/-- A read or read-modify-write admitted and not yet answered (R359). -/
structure StkReq where
  who : StkWho := .mgmt
  /-- the edge router by which the answer leaves its fabric (Table 7.1); none for a requester that is not on the mesh -/
  via : Option Nat := none
  addr : Nat := 0
  data : List Byte := []
  bad : NSet := []
  deriving DecidableEq, Repr

/-- The memory side. -/
structure MemSide where
  /-- stack memory, 576 GiB (R29) -/
  stack : Memory := []
  /-- poisoned 16 B words of stack memory, by address div 16 (R366) -/
  poison : NSet := []
  /-- STK_REGION: valid and vat of each 1 GiB granule (R356) -/
  region : Table (Bool × Nat) := []
  /-- what the scan images written so far hold -/
  scans : List ScanSnap := []
  stks : Table Stk := []
  /-- plain reads and read-modify-writes not yet answered, oldest first -/
  reads : List StkReq := []
  rmws : List StkReq := []
  /-- stack engine commands in order of acceptance -/
  cmds : List StkCmd := []
  nextCmd : Nat := 0
  /-- the version table (R390) -/
  vers : Table VerEnt := []
  /-- STK_SHARE_SYS -/
  shareSys : Nat := 0
  /-- 16 B words with an error that a read corrects or cannot correct, by address div 16 -/
  ce : NSet := []
  ue : NSet := []
  deriving DecidableEq, Repr

end Sys2Proof.Machine
end

