-- ==== Sys2Proof/Machine/StSpan.lean ====
section
/-! DEFINITION. The state of the span links and of the twin port (Chapters 14 and 15). -/

namespace Sys2Proof.Machine

/-- SPAN_PERM of a port (R463, Table 14.10). -/
structure SpanPerm where
  lo : Nat := 0
  hi : Nat := 0
  win : Bool := false
  chan : Bool := false
  sync : Bool := false
  fwd : Bool := false
  en : Bool := false
  deriving DecidableEq, Repr

/-- SPAN_VAT_PERM of a vat (R464). -/
structure SpanVatPerm where
  lo : Nat := 0
  hi : Nat := 0
  win : Bool := false
  chan : Bool := false
  sync : Bool := false
  deriving DecidableEq, Repr

/-- An export window (R465). -/
structure Export where
  base : Nat := 0
  npages : Nat := 0
  wr : Bool := false
  rd : Bool := false
  open_ : Bool := false
  deriving DecidableEq, Repr

/-- Span link states (Table 14.6). -/
inductive LinkSt where
  | disabled | down | train | align | hello | up | failed
  deriving DecidableEq, Repr

/-- A frame: the fields of its header (Table 14.4), the header units of its kind as one number, its payload, and the poisoned 4 B
words of the payload (R450-R452). The pois bit and ncells follow from the rest. -/
structure Frame where
  kind : Nat := 0
  dl : Bool := false
  dst : Nat := 0
  src : Nat := 0
  job : Nat := 0
  len : Nat := 0
  tag : Nat := 0
  status : Nat := 0
  dstCl : Nat := 0
  dstCore : Nat := 0
  hops : Nat := 0
  unit : Nat := 0
  data : List Byte := []
  bad : NSet := []
  deriving DecidableEq, Repr

/-- Who is answered for a mesh packet that a port has taken: an LDR or STR of core `c`, a read or write of stream engine `e`, or a
channel packet of endpoint `ep` of core `c` with its kind of Table 8.6. -/
inductive ReqBy where
  | ldr (c addr size : Nat)
  | str (c addr : Nat)
  | seRead (c e id : Nat)
  | seWrite (c e id : Nat)
  | packet (cl core ep kind : Nat)
  deriving DecidableEq, Repr

/-- A frame that waits at a port's egress: its client for R500 (none is the system client), the packets joined into it, whether
packets may still join it and the cycle of the last that did (R453), and the address of the first poisoned byte of a write. -/
structure TxFrame where
  f : Frame := {}
  vat : Option Nat := none
  who : List ReqBy := []
  joining : Bool := false
  joinAt : Nat := 0
  badAt : Option Nat := none
  deriving DecidableEq, Repr

/-- A pair kept for replay (R448), with the frames whose last cell it carries. -/
structure HeldPair where
  seq : Nat := 0
  pflit : Nat := 0
  data : List Byte := []
  frames : List TxFrame := []
  sentAt : W64 := 0
  deriving DecidableEq, Repr

/-- A frame received whole: the pool and cells it occupies in the receive buffer, the tick at which its pair came, and whether that
pair may be stamped (R469). -/
structure RxFrame where
  f : Frame := {}
  pool : Nat := 0
  cells : Nat := 0
  tick : W64 := 0
  stamped : Bool := true
  deriving DecidableEq, Repr

/-- An outstanding RREAD or RWRITE (R467). -/
structure TagEnt where
  who : List ReqBy := []
  read : Bool := false
  unit : Nat := 0
  sentAt : W64 := 0
  vat : Option Nat := none
  badAt : Option Nat := none
  deriving DecidableEq, Repr

/-- One span port; port 6 is the twin link. Credit pools 0-3 are class A of VC0-3, 4-7 class B, 8 priority. -/
structure SpanPort where
  perm : SpanPerm := {}
  /-- SPAN_PORT_CTL (Table 14.11), and the dateline bit in force since the last entry to UP -/
  en : Bool := false
  dateline : Bool := false
  datelineOn : Bool := false
  expect : Bool := false
  peerNode : Nat := 0
  /-- SPAN_PORT_STAT (Table 14.12) -/
  st : LinkSt := .disabled
  rt : Nat := 0
  retrains : Nat := 0
  peerPort : Nat := 0
  peer : Nat := 0
  reversed : Bool := false
  /-- tick at which the link state was entered -/
  since : W64 := 0
  /-- SPAN_ERR (Table 14.13); corrected symbols one by one -/
  badFrame : Nat := 0
  resends : Nat := 0
  badPair : Nat := 0
  corrected : Nat := 0
  /-- SPAN_CRED: sizes of pools 0-7 (Table 14.14) -/
  pools : Table Nat := [(0, 0x200), (1, 0x1000), (2, 0xC00), (3, 0x100)]
  /-- credit held, the peer's last reported freed count, and cells freed here, by pool -/
  credit : Table Nat := []
  lastRep : Table Nat := []
  freed : Table Nat := []
  nextPool : Nat := 0
  /-- next sequence number sent and expected, modulo 256 -/
  txSeq : Nat := 0
  rxSeq : Nat := 0
  held : List HeldPair := []
  resend : List HeldPair := []
  /-- a nak is due in every even CCW; the ack of the peer's last nak and how many came in a row -/
  nakOut : Bool := false
  lastNak : Option Nat := none
  nakRun : Nat := 0
  badRun : Nat := 0
  goodRun : Nat := 0
  /-- pairs left in which TIME frames are not stamped (R469) -/
  noStamp : Nat := 0
  /-- frames waiting to be sent, oldest first, and the ordinary frame in progress with its bytes left -/
  txq : List TxFrame := []
  txCur : Option (TxFrame × List Byte) := none
  /-- ordinary frame being received and the cells it still needs -/
  rxPart : List Byte := []
  rxNeed : Nat := 0
  rxq : List RxFrame := []
  tags : Table TagEnt := []
  /-- virtual time by client (R500), and flits since a ready VC was served (R455) -/
  vt : Table Nat := []
  age : Table Nat := []
  /-- the peer's HELLO_ACK has come -/
  acked : Bool := false
  deriving DecidableEq, Repr

/-- Twin states (Table 15.2). -/
inductive TwinSt where
  | single | pairing | active | mirror | takeover | broken
  deriving DecidableEq, Repr

/-- The twin unit: TWIN_CTL, TWIN_CFG and TWIN_STAT (Tables 15.5-15.7), and what it keeps. -/
structure Twin where
  st : TwinSt := .single
  /-- role kept through BROKEN: true is mirror -/
  role : Bool := false
  conflict : Bool := false
  missed : Nat := 0
  peerState : Nat := 0
  peerRole : Bool := false
  cfgPeer : Nat := 0
  cfgEn : Bool := false
  cfgVats : BitVec 16 := 0
  status : Nat := 0
  /-- role asked for by the pairing command: true is mirror; its tick, and its host command -/
  want : Bool := false
  pairAt : W64 := 0
  host : Option (Nat × Nat) := none
  beat : Nat := 0
  /-- tick of the last valid BEAT, or of entry to ACTIVE or MIRROR -/
  lastBeat : W64 := 0
  /-- a HANDOVER waits for its CACKs -/
  handover : Bool := false
  deriving DecidableEq, Repr

/-- The span side of the device. -/
structure SpanSide where
  /-- SPAN_NODE (R460) -/
  node : Nat := 0
  ports : Table SpanPort := []
  /-- SPAN_VAT_PERM by vat -/
  vatPerms : Table SpanVatPerm := []
  /-- SPAN_EXPORT by 16·vat + window, and LATE_WRITES by vat -/
  exports : Table Export := []
  lateWrites : Table Nat := []
  /-- SPAN_WIN by 64·vat + window: valid and node -/
  wins : Table (Bool × Nat) := []
  /-- SPAN_ROUTE by node; 7 means no route (R461) -/
  routes : Table Nat := []
  /-- SPAN_CTL (Table 14.15) -/
  maxHops : Nat := 64
  reqTo : Nat := 100000
  /-- SPAN_DROPS (Table 14.15) -/
  lost : Nat := 0
  late : Nat := 0
  routeDrops : Nat := 0
  permDrops : Nat := 0
  tw : Twin := {}
  deriving DecidableEq, Repr

end Sys2Proof.Machine
end

