-- ==== Sys2Proof/Machine/StOut.lean ====
section
/-! DEFINITION. What the block sends: packets, frames, messages and answers, collected oldest first in State.out. The list is the
model's own: it is where a reader sees what left the device. -/

namespace Sys2Proof.Machine

/-- One thing sent. (DESIGN CHOICE, log entry 14) -/
inductive Out where
  /-- an MSI-X message of function `fn` (0 PF, 1 + n VF n) with vector `vec` (R547, R529) -/
  | msix (fn vec : Nat)
  /-- a SYNC packet adding `amount` to the counter at `ctr` (R282) -/
  | sync (ctr amount : Nat)
  /-- a read request of core `c` for `size` bytes of device address `a` (R88); `dst`, here and below, is bits [15:0] of its mesh header, the
  position its source translated it to, where it travels on the mesh (R222, R223) -/
  | readReq (c a size : Nat) (dst : Option Nat)
  /-- a posted write of core `c` (R89) -/
  | writeReq (c a : Nat) (data : List Byte) (dst : Option Nat)
  /-- a read request of stream engine `e` of core `c` with its number (R200, R207) -/
  | seRead (c e id addr len : Nat) (dst : Option Nat)
  /-- the SECMD packet of a command record to the controller of a stack (R370) -/
  | seCmd (c e id stack addr : Nat) (data : List Byte) (bad : NSet) (dst : Nat)
  /-- a write of a stream engine to a device address, with its number and poisoned words (R214, R217) -/
  | seWrite (c e id addr : Nat) (data : List Byte) (bad : NSet) (dst : Option Nat)
  /-- a channel packet of kind `kind` (Table 8.6) to a physical core, the position its source translated it to (R222, R267), or by a route table
  entry -/
  | chan (kind : Nat) (dst : Option Nat) (route : Option Nat) (m : ChMsg)
  /-- a refusal with its status for a channel packet (R264, R266) -/
  | chanRefuse (m : ChMsg) (status : Nat)
  /-- a spill ring write and a drain read of endpoint `e` of core `c` (R275) -/
  | spillWrite (c e addr : Nat) (data : List Byte) (bad : NSet) (dst : Option Nat)
  | spillRead (c e addr len : Nat) (dst : Option Nat)
  /-- a completion record written to host memory (R529): ring, address, the 32 bytes -/
  | record (ring addr : Nat) (bytes : List Byte)
  /-- reads of submission entries (R526): ring, first index, how many -/
  | entryRead (ring first n : Nat)
  /-- a PCIe TLP of the DMA engine or the memory window: write to, and read of, host memory; a window read's completion -/
  | hostWrite (addr : Nat) (data : List Byte)
  | hostRead (addr len : Nat)
  | hostCpl (fn : Nat) (ok ep : Bool) (data : List Byte)
  /-- a write of the block to stack memory from another unit, with its poisoned offsets -/
  | memWrite (vat : Option Nat) (addr : Nat) (data : List Byte) (bad : NSet)
  /-- the answer to a register read: the register's address or name, and the value -/
  | regData (reg value : Nat)
  /-- a sync word to the hub's sync frame unit (R287) -/
  | syncWord (c : Nat) (w : W64)
  /-- a codeword pair sent by a span or twin port (R446) -/
  | pair (port : Nat) (p : Pair)
  /-- the answer of a span port to a packet it had taken: a status, and the data of a read (R459, R467) -/
  | spanAnswer (by_ : ReqBy) (status : Nat) (data : List Byte) (bad : NSet)
  /-- a mesh flit packet leaving router `r` by a port: 0 local, 1 east, 2 west, 3 north, 4 south, 5 edge (R227) -/
  | mesh (r port hdr : Nat) (data : List Byte) (bad : NSet)
  /-- a control packet leaving node `n` by a port: 0 a core, 1 east, 2 west, 3 north, 4 south, 5 the hub or a die block, 6 the node;
  `bad` holds the poisoned 4 B words of its flits (R236, R238) -/
  | ctl (n port hdr : Nat) (pay : List Byte) (bad : NSet)
  /-- the answer to an access through the scratchpad window: status, data, poisoned byte offsets (R30) -/
  | winAnswer (by_ : WinBy) (status : Nat) (data : List Byte) (bad : NSet)
  /-- FENCE notices for a core's position (R558) -/
  | fence (c : Nat)
  /-- a write of the evacuation mover to a peer, by a port or the route (R510) -/
  | evacWrite (port node addr : Nat) (data : List Byte) (bad : NSet)
  /-- the answer of a stack controller to a plain request: the edge router it leaves by, status, and the data of a read (R223, R357, R359) -/
  | stackAnswer (who : StkWho) (via : Option Nat) (addr status : Nat) (data : List Byte) (bad : NSet)
  /-- the answer to a stack engine command (R371) -/
  | commandAnswer (by_ : StkBy) (status : Nat)
  /-- a reply of the management port: 0 GET_ACCT, 1 GET_LOG, 2 GET_LC, 5 the result of a firmware update (R608) -/
  | mctp (msg : Nat) (data : List Byte)
  /-- the answer to a register access: status, and the value of a read (R613) -/
  | regAnswer (who : Who) (off status value : Nat)
  deriving DecidableEq, Repr

end Sys2Proof.Machine
end

