-- ==== Sys2Proof/Machine/StPwr.lean ====
section
/-! DEFINITION. The state of the power controller and of the module (Chapters 19 and 22). Every field carries its reset value as its
default. -/

namespace Sys2Proof.Machine

/-- PWR_CL of a cluster (Table 19.6): codes 0 RUN, 1 RETAIN, 2 OFF. -/
structure ClPwr where
  req : Nat := 0
  state : Nat := 0
  busy : Bool := false
  /-- the state held before SLEEP, to which the cluster returns (R572) -/
  before : Nat := 0
  deriving DecidableEq, Repr

/-- The power controller. -/
structure Pwr where
  /-- input power and conversion are on (R635) -/
  on : Bool := true
  /-- TRIP has turned every domain off but the always-on domain (R576) -/
  off : Bool := false
  /-- PWR_DVFS.target; the thermal and the cap limit (R563) -/
  target : Nat := 4
  thermLimit : Nat := 4
  capLimit : Nat := 4
  /-- PWR_DROOP_CFG -/
  relMv : Nat := 0x14
  tripMv : Nat := 0x2D
  /-- a stretch episode is in progress, its stretched cycles so far, and whether a thermal or cap request has held in it (R564, R565) -/
  stretch : Bool := false
  m : Nat := 0
  epTherm : Bool := false
  epCap : Bool := false
  /-- PWR_STRETCH -/
  cycles : W64 := 0
  thermEps : Nat := 0
  capEps : Nat := 0
  droopEps : Nat := 0
  /-- PWR_THERM_CFG.warn, and the levels that die sensors and stacks stand at: bit 0 WARN, 1 THROTTLE, 2 CRITICAL (R573) -/
  warn : Nat := 0x5F
  dieLvl : BitVec 3 := 0
  stackLvl : BitVec 3 := 0
  /-- PWR_THERM_STAT.sensor and .tripped (sticky) -/
  sensor : Nat := 0
  tripped : Bool := false
  /-- ticks of the last THROTTLE step and recovery, and of the end of THROTTLE (R574) -/
  stepAt : W64 := 0
  riseAt : W64 := 0
  /-- PWR_CAP.watts, c_eff and req -/
  watts : Nat := 0x708
  cEff : Nat := 0x708
  capReq : Bool := false
  /-- the last samples, newest first, at most 10: mV and mA (R577, R578) -/
  samples : List (Nat × Nat) := []
  /-- tick of the last sample; ticks of the cap window for which the request has held, and since when it holds (R579) -/
  sampleAt : W64 := 0
  capTicks : Nat := 0
  capSince : W64 := 0
  /-- the last 10 ms window, counted from 1, in which a cap request was reported (R580) -/
  capLogged : Nat := 0
  /-- ticks of the last cap window and rise window, and PWR_ENERGY at the start of the rise window -/
  winAt : W64 := 0
  riseWinAt : W64 := 0
  energyWin : W64 := 0
  /-- PWR_SAG -/
  surge : Nat := 0
  sag : Nat := 0
  minDv : Nat := 0x3FF
  warnDv : Nat := 0x26C
  /-- consecutive samples below warn_dv and above 80.5 V -/
  sagRun : Nat := 0
  surgeRun : Nat := 0
  /-- PWR_ENERGY -/
  energy : W64 := 0
  /-- PWR_TELEM0-18 and PWR_TELEM_SEQ, and the tick of the last update -/
  telem : Table Nat := []
  telemSeq : W32 := 0
  telemAt : W64 := 0
  /-- sums of the samples of the interval: mV, mA, µW and how many; hottest readings of sensors 4-13 in 0.1 °C; the highest level -/
  sumMv : Nat := 0
  sumMa : Nat := 0
  sumUw : Nat := 0
  nSum : Nat := 0
  hot : Table Int := []
  lvlMax : Nat := 0
  /-- fast cycles and stretched cycles at the start of the interval -/
  fast0 : W64 := 0
  cycles0 : W64 := 0
  /-- PWR_DEV -/
  sleep : Bool := false
  asleep : Bool := false
  /-- an event has asked for the fast clock and the hub (R548, R572) -/
  wakeAsk : Bool := false
  /-- PWR_CL by cluster -/
  cls : Table ClPwr := []
  deriving DecidableEq, Repr

end Sys2Proof.Machine
end

