-- ==== Sys2Proof/Machine/State.lean ====
section
/-! DEFINITION. The state of the DM72 block, its reasons to stop, and the state after reset. -/

namespace Sys2Proof.Machine

/-- Reasons for a fault. The block has none of its own: every error the spec gives is recorded in state. -/
inductive Fault where
  /-- raised by nobody; safe -/
  | none
  deriving DecidableEq, Repr

/-- Reasons for a refusal. -/
inductive Refusal where
  /-- raised by Dispatch for a command whose meaning is not written; safe -/
  | notModelled (mnemonic : String)
  deriving DecidableEq, Repr

/-- Time (R4, R5). -/
structure Clock where
  /-- the global tick counter -/
  gtc : W64 := 0
  /-- fast-clock cycles since reset -/
  fast : W64 := 0
  /-- the part of a tick that has passed since `gtc`, in 2160ths of a tick (Table 10.1, R564) -/
  phase : Nat := 0
  /-- the image of the counter in the previous fast-clock cycle (R333, R340) -/
  prev : W64 := 0
  /-- cycles of the always-on clock since its reset, and the ticks that have passed of the present one (R6) -/
  ao : W64 := 0
  aoTick : Nat := 0
  deriving DecidableEq, Repr

/-- The DM72 block. -/
structure State where
  /-- commands waiting, first in, first out -/
  pending : List Instr := []
  clk : Clock := {}
  cores : Cores := {}
  net : Net := {}
  vats : Table Vat := []
  mem : MemSide := {}
  hub : Hub := {}
  span : SpanSide := {}
  host : HostSide := {}
  pwr : Pwr := {}
  boot : Boot := {}
  /-- things sent, oldest first -/
  out : List Out := []
  /-- how many free values have been drawn -/
  free : Nat := 0
  deriving DecidableEq, Repr

/-- The state right after a cold reset. -/
def State.reset : State := {}

end Sys2Proof.Machine
end

