-- ==== Sys2Proof/Machine/Acc.lean ====
section
/-! DEFINITION. Reading and writing the tables of State: one reader, one writer and one updater for each, so that every part of the
state has one home. -/

namespace Sys2Proof.Machine

/-- Read the control processor of core `c`. -/
def State.ctl (s : State) (c : Nat) : Ctl := s.cores.ctls.get {} c
/-- Write the control processor of core `c`. -/
def State.setCtl (s : State) (c : Nat) (x : Ctl) : State := { s with cores := { s.cores with ctls := s.cores.ctls.put c x } }
/-- Update the control processor of core `c`. -/
def State.modCtl (s : State) (c : Nat) (f : Ctl → Ctl) : State := s.setCtl c (f (s.ctl c))

/-- Read engine queue `q` of core `c` (Table 3.15). -/
def State.queue (s : State) (c q : Nat) : EngQ := s.cores.queues.get {} (8 * c + q)
/-- Write engine queue `q` of core `c` (Table 3.15). -/
def State.setQueue (s : State) (c q : Nat) (x : EngQ) : State := { s with cores := { s.cores with queues := s.cores.queues.put (8 * c + q) x } }
/-- Update engine queue `q` of core `c` (Table 3.15). -/
def State.modQueue (s : State) (c q : Nat) (f : EngQ → EngQ) : State := s.setQueue c q (f (s.queue c q))

/-- Read the instruction store of core `c`. -/
def State.imem (s : State) (c : Nat) : Memory := s.cores.imems.get [] c
/-- Write the instruction store of core `c`. -/
def State.setImem (s : State) (c : Nat) (x : Memory) : State := { s with cores := { s.cores with imems := s.cores.imems.put c x } }
/-- Update the instruction store of core `c`. -/
def State.modImem (s : State) (c : Nat) (f : Memory → Memory) : State := s.setImem c (f (s.imem c))

/-- Read the scratchpad of core `c`. -/
def State.spad (s : State) (c : Nat) : Spad := s.cores.spads.get {} c
/-- Write the scratchpad of core `c`. -/
def State.setSpad (s : State) (c : Nat) (x : Spad) : State := { s with cores := { s.cores with spads := s.cores.spads.put c x } }
/-- Update the scratchpad of core `c`. -/
def State.modSpad (s : State) (c : Nat) (f : Spad → Spad) : State := s.setSpad c (f (s.spad c))

/-- Read CORE_IRQ_CAUSE of core `c`. -/
def State.irqCause (s : State) (c : Nat) : BitVec 6 := s.cores.irqCause.get 0 c
/-- Write CORE_IRQ_CAUSE of core `c`. -/
def State.setIrqCause (s : State) (c : Nat) (x : BitVec 6) : State := { s with cores := { s.cores with irqCause := s.cores.irqCause.put c x } }
/-- Update CORE_IRQ_CAUSE of core `c`. -/
def State.modIrqCause (s : State) (c : Nat) (f : BitVec 6 → BitVec 6) : State := s.setIrqCause c (f (s.irqCause c))

/-- Read ARITH_STATUS of core `c` (Table 2.6). -/
def State.arith (s : State) (c : Nat) : BitVec 8 := s.cores.arith.get 0 c
/-- Write ARITH_STATUS of core `c` (Table 2.6). -/
def State.setArith (s : State) (c : Nat) (x : BitVec 8) : State := { s with cores := { s.cores with arith := s.cores.arith.put c x } }
/-- Update ARITH_STATUS of core `c` (Table 2.6). -/
def State.modArith (s : State) (c : Nat) (f : BitVec 8 → BitVec 8) : State := s.setArith c (f (s.arith c))

/-- Read the matrix engine of core `c`. -/
def State.mat (s : State) (c : Nat) : Mat := s.cores.mats.get {} c
/-- Write the matrix engine of core `c`. -/
def State.setMat (s : State) (c : Nat) (x : Mat) : State := { s with cores := { s.cores with mats := s.cores.mats.put c x } }
/-- Update the matrix engine of core `c`. -/
def State.modMat (s : State) (c : Nat) (f : Mat → Mat) : State := s.setMat c (f (s.mat c))

/-- Read the vector engine and reduction unit of core `c`. -/
def State.vec (s : State) (c : Nat) : Vec := s.cores.vecs.get {} c
/-- Write the vector engine and reduction unit of core `c`. -/
def State.setVec (s : State) (c : Nat) (x : Vec) : State := { s with cores := { s.cores with vecs := s.cores.vecs.put c x } }
/-- Update the vector engine and reduction unit of core `c`. -/
def State.modVec (s : State) (c : Nat) (f : Vec → Vec) : State := s.setVec c (f (s.vec c))

/-- Read stream engine `e` of core `c`. -/
def State.se (s : State) (c e : Nat) : Se := s.cores.ses.get {} (4 * c + e)
/-- Write stream engine `e` of core `c`. -/
def State.setSe (s : State) (c e : Nat) (x : Se) : State := { s with cores := { s.cores with ses := s.cores.ses.put (4 * c + e) x } }
/-- Update stream engine `e` of core `c`. -/
def State.modSe (s : State) (c e : Nat) (f : Se → Se) : State := s.setSe c e (f (s.se c e))

/-- Read channel endpoint `e` of core `c`. -/
def State.ep (s : State) (c e : Nat) : Ep := s.cores.eps.get {} (64 * c + e)
/-- Write channel endpoint `e` of core `c`. -/
def State.setEp (s : State) (c e : Nat) (x : Ep) : State := { s with cores := { s.cores with eps := s.cores.eps.put (64 * c + e) x } }
/-- Update channel endpoint `e` of core `c`. -/
def State.modEp (s : State) (c e : Nat) (f : Ep → Ep) : State := s.setEp c e (f (s.ep c e))

/-- Read layer slot `j` of the format advisor. -/
def State.adv (s : State) (j : Nat) : AdvSlot := s.hub.advs.get {} j
/-- Write layer slot `j` of the format advisor. -/
def State.setAdv (s : State) (j : Nat) (x : AdvSlot) : State := { s with hub := { s.hub with advs := s.hub.advs.put j x } }
/-- Update layer slot `j` of the format advisor. -/
def State.modAdv (s : State) (j : Nat) (f : AdvSlot → AdvSlot) : State := s.setAdv j (f (s.adv j))

/-- Read the channel engine of core `c`. -/
def State.chn (s : State) (c : Nat) : Chn := s.cores.chns.get {} c
/-- Write the channel engine of core `c`. -/
def State.setChn (s : State) (c : Nat) (x : Chn) : State := { s with cores := { s.cores with chns := s.cores.chns.put c x } }
/-- Update the channel engine of core `c`. -/
def State.modChn (s : State) (c : Nat) (f : Chn → Chn) : State := s.setChn c (f (s.chn c))

/-- Read SE_LATE.async_late of core `c`. -/
def State.seAsyncLate (s : State) (c : Nat) : Nat := s.cores.seAsyncLate.get 0 c
/-- Write SE_LATE.async_late of core `c`. -/
def State.setSeAsyncLate (s : State) (c : Nat) (x : Nat) : State := { s with cores := { s.cores with seAsyncLate := s.cores.seAsyncLate.put c x } }
/-- Update SE_LATE.async_late of core `c`. -/
def State.modSeAsyncLate (s : State) (c : Nat) (f : Nat → Nat) : State := s.setSeAsyncLate c (f (s.seAsyncLate c))

/-- Read SE_LATE.ondie_late of core `c`. -/
def State.seOndieLate (s : State) (c : Nat) : Nat := s.cores.seOndieLate.get 0 c
/-- Write SE_LATE.ondie_late of core `c`. -/
def State.setSeOndieLate (s : State) (c : Nat) (x : Nat) : State := { s with cores := { s.cores with seOndieLate := s.cores.seOndieLate.put c x } }
/-- Update SE_LATE.ondie_late of core `c`. -/
def State.modSeOndieLate (s : State) (c : Nat) (f : Nat → Nat) : State := s.setSeOndieLate c (f (s.seOndieLate c))

/-- Read SE_MERGE.requests of core `c`. -/
def State.seRequests (s : State) (c : Nat) : Nat := s.cores.seRequests.get 0 c
/-- Write SE_MERGE.requests of core `c`. -/
def State.setSeRequests (s : State) (c : Nat) (x : Nat) : State := { s with cores := { s.cores with seRequests := s.cores.seRequests.put c x } }
/-- Update SE_MERGE.requests of core `c`. -/
def State.modSeRequests (s : State) (c : Nat) (f : Nat → Nat) : State := s.setSeRequests c (f (s.seRequests c))

/-- Read SE_MERGE.joined of core `c`. -/
def State.seJoined (s : State) (c : Nat) : Nat := s.cores.seJoined.get 0 c
/-- Write SE_MERGE.joined of core `c`. -/
def State.setSeJoined (s : State) (c : Nat) (x : Nat) : State := { s with cores := { s.cores with seJoined := s.cores.seJoined.put c x } }
/-- Update SE_MERGE.joined of core `c`. -/
def State.modSeJoined (s : State) (c : Nat) (f : Nat → Nat) : State := s.setSeJoined c (f (s.seJoined c))

/-- Read vat `v`. -/
def State.vat (s : State) (v : Nat) : Vat := s.vats.get {} v
/-- Write vat `v`. -/
def State.setVat (s : State) (v : Nat) (x : Vat) : State := { s with vats := s.vats.put v x }
/-- Update vat `v`. -/
def State.modVat (s : State) (v : Nat) (f : Vat → Vat) : State := s.setVat v (f (s.vat v))

/-- Read the sync counter at address `a` (R102). -/
def State.ctr (s : State) (a : Nat) : Nat := s.net.ctrs.get 0 a
/-- Write the sync counter at address `a` (R102). -/
def State.setCtr (s : State) (a : Nat) (x : Nat) : State := { s with net := { s.net with ctrs := s.net.ctrs.put a x } }
/-- Update the sync counter at address `a` (R102). -/
def State.modCtr (s : State) (a : Nat) (f : Nat → Nat) : State := s.setCtr a (f (s.ctr a))

/-- Read PLAN_VAT of plan `p` and vat `v`. -/
def State.plan (s : State) (p v : Nat) : PlanVat := s.net.plans.get {} (16 * p + v)
/-- Write PLAN_VAT of plan `p` and vat `v`. -/
def State.setPlan (s : State) (p v : Nat) (x : PlanVat) : State := { s with net := { s.net with plans := s.net.plans.put (16 * p + v) x } }
/-- Update PLAN_VAT of plan `p` and vat `v`. -/
def State.modPlan (s : State) (p v : Nat) (f : PlanVat → PlanVat) : State := s.setPlan p v (f (s.plan p v))

/-- Read COUCH_TOP of 64·cluster + logical. -/
def State.couchTop (s : State) (i : Nat) : Nat := s.net.couchTop.get 0 i
/-- Write COUCH_TOP of 64·cluster + logical. -/
def State.setCouchTop (s : State) (i : Nat) (x : Nat) : State := { s with net := { s.net with couchTop := s.net.couchTop.put i x } }
/-- Update COUCH_TOP of 64·cluster + logical. -/
def State.modCouchTop (s : State) (i : Nat) (f : Nat → Nat) : State := s.setCouchTop i (f (s.couchTop i))

/-- Read GSYNC_CTL of global counter `i`. -/
def State.gsync (s : State) (i : Nat) : GsyncCtl := s.net.gsync.get {} i
/-- Write GSYNC_CTL of global counter `i`. -/
def State.setGsync (s : State) (i : Nat) (x : GsyncCtl) : State := { s with net := { s.net with gsync := s.net.gsync.put i x } }
/-- Update GSYNC_CTL of global counter `i`. -/
def State.modGsync (s : State) (i : Nat) (f : GsyncCtl → GsyncCtl) : State := s.setGsync i (f (s.gsync i))

/-- Read SYNC packets presented at node `n`. -/
def State.presented (s : State) (n : Nat) : List SyncIn := s.net.presented.get [] n
/-- Write SYNC packets presented at node `n`. -/
def State.setPresented (s : State) (n : Nat) (x : List SyncIn) : State := { s with net := { s.net with presented := s.net.presented.put n x } }
/-- Update SYNC packets presented at node `n`. -/
def State.modPresented (s : State) (n : Nat) (f : List SyncIn → List SyncIn) : State := s.setPresented n (f (s.presented n))

/-- Read ROUTE_TABLE entry `i` of router `r`. -/
def State.route (s : State) (r i : Nat) : RouteEnt := s.net.routes.get {} (64 * r + i)
/-- Write ROUTE_TABLE entry `i` of router `r`. -/
def State.setRoute (s : State) (r i : Nat) (x : RouteEnt) : State := { s with net := { s.net with routes := s.net.routes.put (64 * r + i) x } }
/-- Update ROUTE_TABLE entry `i` of router `r`. -/
def State.modRoute (s : State) (r i : Nat) (f : RouteEnt → RouteEnt) : State := s.setRoute r i (f (s.route r i))

/-- Read connection table entry `i`. -/
def State.conn (s : State) (i : Nat) : Conn := s.net.conns.get {} i
/-- Write connection table entry `i`. -/
def State.setConn (s : State) (i : Nat) (x : Conn) : State := { s with net := { s.net with conns := s.net.conns.put i x } }
/-- Update connection table entry `i`. -/
def State.modConn (s : State) (i : Nat) (f : Conn → Conn) : State := s.setConn i (f (s.conn i))

/-- Read span port `p`; 6 is the twin link. -/
def State.port (s : State) (p : Nat) : SpanPort := s.span.ports.get {} p
/-- Write span port `p`; 6 is the twin link. -/
def State.setPort (s : State) (p : Nat) (x : SpanPort) : State := { s with span := { s.span with ports := s.span.ports.put p x } }
/-- Update span port `p`; 6 is the twin link. -/
def State.modPort (s : State) (p : Nat) (f : SpanPort → SpanPort) : State := s.setPort p (f (s.port p))

/-- Read SPAN_VAT_PERM of vat `v`. -/
def State.vatPerm (s : State) (v : Nat) : SpanVatPerm := s.span.vatPerms.get {} v
/-- Write SPAN_VAT_PERM of vat `v`. -/
def State.setVatPerm (s : State) (v : Nat) (x : SpanVatPerm) : State := { s with span := { s.span with vatPerms := s.span.vatPerms.put v x } }
/-- Update SPAN_VAT_PERM of vat `v`. -/
def State.modVatPerm (s : State) (v : Nat) (f : SpanVatPerm → SpanVatPerm) : State := s.setVatPerm v (f (s.vatPerm v))

/-- Read command ring `r`; 16 is the device ring. -/
def State.ring (s : State) (r : Nat) : Ring := s.host.rings.get {} r
/-- Write command ring `r`; 16 is the device ring. -/
def State.setRing (s : State) (r : Nat) (x : Ring) : State := { s with host := { s.host with rings := s.host.rings.put r x } }
/-- Update command ring `r`; 16 is the device ring. -/
def State.modRing (s : State) (r : Nat) (f : Ring → Ring) : State := s.setRing r (f (s.ring r))

/-- Read host function `n`: 0 the PF, 1 + n VF n. -/
def State.hostFn (s : State) (n : Nat) : HostFn := s.host.fns.get {} n
/-- Write host function `n`: 0 the PF, 1 + n VF n. -/
def State.setHostFn (s : State) (n : Nat) (x : HostFn) : State := { s with host := { s.host with fns := s.host.fns.put n x } }
/-- Update host function `n`: 0 the PF, 1 + n VF n. -/
def State.modHostFn (s : State) (n : Nat) (f : HostFn → HostFn) : State := s.setHostFn n (f (s.hostFn n))

/-- Read stack `i`. -/
def State.stk (s : State) (i : Nat) : Stk := s.mem.stks.get {} i
/-- Write stack `i`. -/
def State.setStk (s : State) (i : Nat) (x : Stk) : State := { s with mem := { s.mem with stks := s.mem.stks.put i x } }
/-- Update stack `i`. -/
def State.modStk (s : State) (i : Nat) (f : Stk → Stk) : State := s.setStk i (f (s.stk i))

/-- Read version table entry `i`. -/
def State.ver (s : State) (i : Nat) : VerEnt := s.mem.vers.get {} i
/-- Write version table entry `i`. -/
def State.setVer (s : State) (i : Nat) (x : VerEnt) : State := { s with mem := { s.mem with vers := s.mem.vers.put i x } }
/-- Update version table entry `i`. -/
def State.modVer (s : State) (i : Nat) (f : VerEnt → VerEnt) : State := s.setVer i (f (s.ver i))

/-- Read sequence slot `i`. -/
def State.seqSlot (s : State) (i : Nat) : Seq := s.hub.seqs.get {} i
/-- Write sequence slot `i`. -/
def State.setSeqSlot (s : State) (i : Nat) (x : Seq) : State := { s with hub := { s.hub with seqs := s.hub.seqs.put i x } }
/-- Update sequence slot `i`. -/
def State.modSeqSlot (s : State) (i : Nat) (f : Seq → Seq) : State := s.setSeqSlot i (f (s.seqSlot i))

/-- Read export window `i` of vat `v`. -/
def State.export_ (s : State) (v i : Nat) : Export := s.span.exports.get {} (16 * v + i)
/-- Write export window `i` of vat `v`. -/
def State.setExport_ (s : State) (v i : Nat) (x : Export) : State := { s with span := { s.span with exports := s.span.exports.put (16 * v + i) x } }
/-- Update export window `i` of vat `v`. -/
def State.modExport_ (s : State) (v i : Nat) (f : Export → Export) : State := s.setExport_ v i (f (s.export_ v i))

/-- Read NET_DROPS of cluster `cl`. -/
def State.drops (s : State) (cl : Nat) : NetDrops := s.net.drops.get {} cl
/-- Write NET_DROPS of cluster `cl`. -/
def State.setDrops (s : State) (cl : Nat) (x : NetDrops) : State := { s with net := { s.net with drops := s.net.drops.put cl x } }
/-- Update NET_DROPS of cluster `cl`. -/
def State.modDrops (s : State) (cl : Nat) (f : NetDrops → NetDrops) : State := s.setDrops cl (f (s.drops cl))

/-- Read interrupt source `n`. -/
def State.irqSrc (s : State) (n : Nat) : IrqSrc := s.hub.srcs.get {} n
/-- Write interrupt source `n`. -/
def State.setIrqSrc (s : State) (n : Nat) (x : IrqSrc) : State := { s with hub := { s.hub with srcs := s.hub.srcs.put n x } }
/-- Update interrupt source `n`. -/
def State.modIrqSrc (s : State) (n : Nat) (f : IrqSrc → IrqSrc) : State := s.setIrqSrc n (f (s.irqSrc n))

/-- Read IRQ_TGT_CTL of target `t`. -/
def State.irqTgt (s : State) (t : Nat) : IrqTgt := s.hub.tgts.get {} t
/-- Write IRQ_TGT_CTL of target `t`. -/
def State.setIrqTgt (s : State) (t : Nat) (x : IrqTgt) : State := { s with hub := { s.hub with tgts := s.hub.tgts.put t x } }
/-- Update IRQ_TGT_CTL of target `t`. -/
def State.modIrqTgt (s : State) (t : Nat) (f : IrqTgt → IrqTgt) : State := s.setIrqTgt t (f (s.irqTgt t))

/-- Read WAKE_SEL slot `i`. -/
def State.wakeSel (s : State) (i : Nat) : WakeSel := s.hub.wakeSel.get {} i
/-- Write WAKE_SEL slot `i`. -/
def State.setWakeSel (s : State) (i : Nat) (x : WakeSel) : State := { s with hub := { s.hub with wakeSel := s.hub.wakeSel.put i x } }
/-- Update WAKE_SEL slot `i`. -/
def State.modWakeSel (s : State) (i : Nat) (f : WakeSel → WakeSel) : State := s.setWakeSel i (f (s.wakeSel i))

/-- Read the trace buffer of cluster `cl`. -/
def State.trace (s : State) (cl : Nat) : Trace := s.net.traces.get {} cl
/-- Write the trace buffer of cluster `cl`. -/
def State.setTrace (s : State) (cl : Nat) (x : Trace) : State := { s with net := { s.net with traces := s.net.traces.put cl x } }
/-- Update the trace buffer of cluster `cl`. -/
def State.modTrace (s : State) (cl : Nat) (f : Trace → Trace) : State := s.setTrace cl (f (s.trace cl))

/-- Read PWR_CL of cluster `cl`. -/
def State.clPwr (s : State) (cl : Nat) : ClPwr := s.pwr.cls.get {} cl
/-- Write PWR_CL of cluster `cl`. -/
def State.setClPwr (s : State) (cl : Nat) (x : ClPwr) : State := { s with pwr := { s.pwr with cls := s.pwr.cls.put cl x } }
/-- Update PWR_CL of cluster `cl`. -/
def State.modClPwr (s : State) (cl : Nat) (f : ClPwr → ClPwr) : State := s.setClPwr cl (f (s.clPwr cl))

/-- Append to what the block has sent. (DESIGN CHOICE, log entry 14; DESIGN CHOICE, log entry 79) -/
def State.send (s : State) (o : Out) : State := { s with out := s.out ++ [o] }

end Sys2Proof.Machine
end

