-- ==== Sys2Proof/Machine/Ops.lean ====
section
/-! DEFINITION. The shared operations of the block: status codes, topology, interrupts, the error log, poison containment and taking
an exception. -/

namespace Sys2Proof.Machine

/-- The outcome type of every meaning. -/
abbrev Res := Host.Outcome State Fault Refusal

/-! ## Status codes (Table 17.12) -/

def eOk : Nat := 0x00
def eState : Nat := 0x01
def eRange : Nat := 0x02
def eFrameRegion : Nat := 0x03
def ePoison : Nat := 0x04
def eWindowClosed : Nat := 0x05
def eDeadlock : Nat := 0x06
def eSyncUnderflow : Nat := 0x07
def eSealed : Nat := 0x08
def eTimeout : Nat := 0x09
def eFenced : Nat := 0x0A
def eStash : Nat := 0x0B
def eAborted : Nat := 0x0C
def eFormat : Nat := 0x0D
def ePermission : Nat := 0x0E

/-! ## Topology (R24-R30, R290-R292) -/

/-- The core number of the management core among the control processors. (DEDUCED, log entry 15; DESIGN CHOICE, log entry 23) -/
def mgmtCore : Nat := 4096

/-- The cluster of a physical core number. (DEDUCED, log entry 15) -/
def clusterOf (c : Nat) : Nat := c / 64

/-- The physical core number of a position of a cluster. (DEDUCED, log entry 15) -/
def coreNo (cl pos : Nat) : Nat := 64 * cl + pos

/-- The fuse-disabled position of a cluster (R24). (DESIGN CHOICE, log entry 3) -/
def State.disabledPos (s : State) (cl : Nat) : Nat := s.net.coreDis.get 63 cl

/-- Positions a cluster offers, ascending: enabled and not fenced (R25, R26). -/
def State.offered (s : State) (cl : Nat) : List Nat :=
  (List.range 64).filter (fun p => p != s.disabledPos cl && !(s.net.fenced.has (coreNo cl p)))

/-- The physical core number of logical core `l` of a cluster (R25). -/
def State.physOf (s : State) (cl l : Nat) : Option Nat := (s.offered cl)[l]?.map (coreNo cl)

/-- The logical local number of a physical core (R25). -/
def State.logOf (s : State) (c : Nat) : Option Nat := (s.offered (clusterOf c)).idxOf? (c % 64)

/-- How many logical cores a cluster offers (R26). -/
def State.offers (s : State) (cl : Nat) : Nat := (s.offered cl).length

/-- The record of a vat in the plan in force (R290). -/
def State.planOf (s : State) (v : Nat) : PlanVat := s.plan s.net.planActive v

/-- Does a vat own a cluster in the plan in force (R27)? -/
def State.owns (s : State) (v cl : Nat) : Bool :=
  (s.planOf v).valid && (s.planOf v).clusters.getLsbD cl

/-- Every couch top pointer of a vat becomes 0: a vat reset, VAT_COUCH_CTL.reset, and the wipe after a kill or reclaim (R406). -/
def State.clearTops (s : State) (v : Nat) : State :=
  { s with net := { s.net with couchTop := s.net.couchTop.filter (fun p => !(s.owns v (p.1 / 64))) } }

/-- The vat that owns a cluster in the plan in force (R27). -/
def State.ownerOf (s : State) (cl : Nat) : Option Nat := (List.range 16).find? (fun v => s.owns v cl)

/-- The clusters of a vat, ascending. -/
def State.clustersOf (s : State) (v : Nat) : List Nat := (List.range 64).filter (s.owns v)

/-- The vatman of a vat: the highest logical core of its vatman cluster (R292). -/
def State.vatmanOf (s : State) (v : Nat) : Option Nat :=
  if (s.planOf v).valid then
    let cl := (s.planOf v).vatmanCluster.toNat
    ((s.offered cl).getLast?).map (coreNo cl)
  else none

/-- The vat whose vatman a core is. -/
def State.vatmanVat (s : State) (c : Nat) : Option Nat :=
  match s.ownerOf (clusterOf c) with
  | some v => if s.vatmanOf v = some c then some v else none
  | none => none

/-- The mould cores of a vat: every logical core but the vatman (R292). -/
def State.mouldCores (s : State) (v : Nat) : List Nat :=
  ((s.clustersOf v).flatMap (fun cl => (s.offered cl).map (coreNo cl))).filter (fun c => s.vatmanOf v != some c)

/-- Every core a vat's clusters offer. -/
def State.vatCores (s : State) (v : Nat) : List Nat :=
  (s.clustersOf v).flatMap (fun cl => (s.offered cl).map (coreNo cl))

/-- The vat of a core, through its cluster. -/
def State.vatOfCore (s : State) (c : Nat) : Option Nat := s.ownerOf (clusterOf c)

/-- The state of the vat that owns a core's cluster. -/
def State.coreVatSt (s : State) (c : Nat) : Option VatSt := (s.vatOfCore c).map (fun v => (s.vat v).st)

/-- The clock region of a cluster: 2 × 4 blocks of clusters (R241). (DEDUCED, log entry 34) -/
def regionOf (cl : Nat) : Nat := (cl % 8) / 2 + 4 * ((cl / 8) / 4)

/-! ## Free values -/

/-- Draw the next free 32-bit value. (DESIGN CHOICE, log entry 11) -/
def State.drawFree (s : State) : W32 × State := (Config.freeWord s.free, { s with free := s.free + 1 })

/-! ## Register requesters (R14-R18, R605, R613) -/

/-- The error source of a requester (Table 18.3). -/
def whoSrc : Who → Nat
  | .core c => if c = mgmtCore then 0x8000 else c
  | .pf => 0x6000
  | .vf n => 0x6001 + n
  | .debug => 0x9000

/-- The rights of the management core: its own, and the debug port's (R605). (DEDUCED, log entry 116) -/
def whoMgmt (w : Who) : Bool := w == .core mgmtCore || w == .debug

/-! ## Interrupts (R541-R547) -/

/-- Does a target exist: the management core, the PF, or the vatman of a vat valid in the plan in force (R542)? -/
def State.tgtExists (s : State) (t : Nat) : Bool :=
  t == 0 || t == 17 || (1 ≤ t && t ≤ 16 && (s.planOf (t - 1)).valid)

/-- May a source be delivered to a target now (R543)? -/
def State.tgtEligible (s : State) (src : IrqSrc) (t : Nat) : Bool :=
  src.tgt.getLsbD t && (s.irqTgt t).en && s.tgtExists t

/-- The first eligible target after the last-served one, in the cyclic order 0-17 (R543). -/
def State.nextTgt (s : State) (src : IrqSrc) : Option Nat :=
  ((List.range 18).map (fun i => (src.last + 1 + i) % 18)).find? (s.tgtEligible src)

/-- Assignment of one source (R543): pending and not active sources are assigned; an eligible assignment stays. -/
def State.assignSrc (s : State) (src : IrqSrc) : IrqSrc :=
  if src.pending && !src.active then
    match src.assigned with
    | some t => if s.tgtEligible src t then src else { src with assigned := s.nextTgt src }
    | none => { src with assigned := s.nextTgt src }
  else { src with assigned := none }

/-- The request line of a target: some pending, non-active source is assigned to it (R547). -/
def State.irqLine (s : State) (t : Nat) : Bool :=
  s.hub.srcs.any (fun p => p.2.pending && !p.2.active && p.2.assigned == some t)

/-- Assignments at the end of a controller cycle (R546), with the PF's MSI-X message at a rise of its line (R547). (DEDUCED, log entry 102) -/
def State.irqSettle (s : State) (lineWas : Bool) : State :=
  let s1 : State := { s with hub := { s.hub with srcs := s.hub.srcs.map (fun p => (p.1, s.assignSrc p.2)) } }
  if s1.irqLine 17 && !lineWas then s1.send (.msix 0 (s1.irqTgt 17).vec.toNat) else s1

/-- Sources whose events can occur while the fast clock is stopped (Table 18.1). -/
def aoSource (n : Nat) : Bool := (640 ≤ n && n ≤ 646) || n == 650 || n == 660 || n == 661 || n == 665 || (667 ≤ n && n ≤ 669)

/-- An event met by the wake watcher while the fast clock is stopped (R548). -/
def State.watchEvent (s : State) (n : Nat) : State :=
  let hit := (List.range 32).filter (fun i => (s.wakeSel i).en && (s.wakeSel i).src.toNat == n)
  if hit.isEmpty then { s with hub := { s.hub with wakeLost := satAdd top16 s.hub.wakeLost 1 } }
  else
    let s1 := hit.foldl (fun s i => s.modWakeSel i (fun w => { w with latch := true })) s
    if hit.any (fun i => (s.wakeSel i).wake) then { s1 with pwr := { s1.pwr with wakeAsk := true } } else s1

/-- An event of a source: idle to pending, active to active and pending; events merge (R544). While the fast clock is stopped it meets the
wake watcher (R548); without power it is nothing. -/
def State.fire (s : State) (n : Nat) : State :=
  if s.pwr.off || !s.pwr.on then s
  else if s.pwr.asleep && aoSource n then s.watchEvent n
  else
    let line := s.irqLine 17
    (s.modIrqSrc n (fun x => { x with pending := true })).irqSettle line

/-- Event `e` of vat `v` (Table 18.2). -/
def State.fireVat (s : State) (v e : Nat) : State := s.fire (512 + 8 * v + e)

/-- Bits of CORE_IRQ_CAUSE (Table 18.10). -/
def causeHalted : Nat := 0
def causeQhalt : Nat := 1
def causeDeadlock : Nat := 2
def causeOverrun : Nat := 3
def causeMbox : Nat := 4
def causeSramUe : Nat := 5

/-- The interrupt source of a core: vat event 7 for a vatman, else its core group (Table 18.1). -/
def State.coreSource (s : State) (c : Nat) : Option Nat :=
  match s.vatmanVat c with
  | some v => some (512 + 8 * v + 7)
  | none => (s.logOf c).map (fun l => 8 * clusterOf c + l / 8)

/-- Set a cause bit of a core; the source fires when the bit goes from 0 to 1 (R541). -/
def State.raiseCore (s : State) (c b : Nat) : State :=
  let old := s.irqCause c
  let s1 := s.setIrqCause c (old ||| (1#6 <<< b))
  if old.getLsbD b then s1
  else match s1.coreSource c with
    | some n => s1.fire n
    | none => s1

/-! ## The error log (R550-R552) -/

/-- Indices of the unconsumed entries, tail first (R550). -/
def Hub.unconsumed (h : Hub) : List Nat :=
  (List.range ((h.logHead + 512 - h.logTail) % 512)).map (fun i => (h.logTail + i) % 512)

/-- Has the ring room: one place always stays free so that equal pointers mean empty (DEDUCED, log entry 4). -/
def Hub.logRoom (h : Hub) : Bool := (h.logHead + 1) % 512 != h.logTail

/-- Has a source an unconsumed entry (R551)? -/
def Hub.hasEntry (h : Hub) (src : Nat) : Bool :=
  h.unconsumed.any (fun i => (h.log.get {} i).rep.src == src)

/-- Write an entry at the head (R550). -/
def Hub.writeEntry (h : Hub) (r : Report) (held : Bool) (dropped : Nat) : Hub :=
  { h with log := h.log.put h.logHead { rep := r, dropped := dropped, held := held, seq := h.logSeq % 2 ^ 32 },
           logHead := (h.logHead + 1) % 512, logSeq := h.logSeq + 1 }

/-- Put a report into its source's holder, replacing a report that waits there (R551). -/
def Hub.hold (h : Hub) (r : Report) : Hub :=
  match h.holders.find? (fun x => x.rep.src == r.src) with
  | some x => { h with holders := (h.holders.filter (fun y => y.rep.src != r.src)) ++ [{ rep := r, drops := min 0xFFFF (x.drops + 1) }] }
  | none => { h with holders := h.holders ++ [{ rep := r, drops := 0 }] }

/-- Order of holder writes: by tick, ties by source (R551). -/
def holderBefore (a b : Holder) : Bool :=
  a.rep.tick.toNat < b.rep.tick.toNat || (a.rep.tick == b.rep.tick && a.rep.src ≤ b.rep.src)

/-- Insert a holder in the order of writing. -/
def insertHolder (a : Holder) : List Holder → List Holder
  | [] => [a]
  | b :: t => if holderBefore a b then a :: b :: t else b :: insertHolder a t

/-- Write the holders that may be written, in order (R551, R552). -/
def Hub.drainHolders (h : Hub) : Hub :=
  (h.holders.foldr insertHolder []).foldl (fun h x =>
    if h.logRoom && !(h.hasEntry x.rep.src) then
      (({ h with holders := h.holders.filter (fun y => y.rep.src != x.rep.src) }).writeEntry x.rep true x.drops)
    else h) h

/-- A unit reports to the error log (R551). Source 659 fires when the ring becomes non-empty or ovf rises: a report must wait because the
ring is full (R552). -/
def State.report (s : State) (r : Report) : State :=
  let h := s.hub
  if !(h.hasEntry r.src) && h.logRoom then
    let s1 : State := { s with hub := h.writeEntry r false 0 }
    if h.logHead == h.logTail then s1.fire 659 else s1
  else
    let full := !(h.hasEntry r.src) && !h.logRoom
    let s1 : State := { s with hub := { h.hold r with logOvf := h.logOvf || full } }
    if full && !h.logOvf then s1.fire 659 else s1

/-- Event codes of Table 18.5. -/
def evCorrected : Nat := 0x01
def evUncorrected : Nat := 0x02
def evPoisonIn : Nat := 0x03
def evRefused : Nat := 0x04
def evDropped : Nat := 0x05
def evQhalt : Nat := 0x06
def evChalt : Nat := 0x07
def evDeadlock : Nat := 0x08
def evOverrun : Nat := 0x09
def evCommit : Nat := 0x0A
def evFence : Nat := 0x0B
def evLink : Nat := 0x0C
def evSealed : Nat := 0x0D
def evSyncErr : Nat := 0x0E
def evThermal : Nat := 0x0F
def evDevice : Nat := 0x10

/-- Error source IDs of Table 18.3. -/
def srcCore (c : Nat) : Nat := c
def srcNode (cl : Nat) : Nat := 0x1000 + cl
def srcVat (v : Nat) : Nat := 0x2000 + v
def srcStack (i : Nat) : Nat := 0x3000 + i
def srcPort (p : Nat) : Nat := if p = 6 then 0x5000 else 0x4000 + p
def srcHost (fn : Nat) : Nat := 0x6000 + fn
def srcHub (b : Nat) : Nat := 0x7000 + b
def srcMgmt : Nat := 0x8000
def srcDebug : Nat := 0x9000
def srcAo (i : Nat) : Nat := 0xA000 + i

/-- A report with the current tick. -/
def State.log (s : State) (src event status : Nat) (vat : Option Nat) (info0 info1 : Nat) : State :=
  s.report { src := src, event := event, status := status, vat := vat, tick := s.clk.gtc, info0 := info0, info1 := info1 }

/-- A poison creation met by a vat (R556): the origin is set if empty, else its more bit. -/
def State.poisonOrigin (s : State) (v src addr : Nat) : State :=
  s.modVat v (fun x =>
    if x.origin.valid then { x with origin := { x.origin with more := true } }
    else { x with origin := { tick := s.clk.gtc, more := false, valid := true, src := src, addr := addr / 4096 % 2 ^ 32 } })

/-- VAT_POISON_ORIGIN [47:0] (Table 18.13). -/
def PoisonOrigin.low48 (o : PoisonOrigin) : Nat := o.addr + o.src * 2 ^ 32

/-- An uncorrectable word of a core's SRAM at address `a`: poison is created, with the cause bit, the report, and the origin kept for the vat
whose core meets it (R189, R327, R556). -/
def State.sramError (s : State) (c a info1 : Nat) : State :=
  let s1 := (s.raiseCore c causeSramUe).log (whoSrc (.core c)) evUncorrected ePoison (s.vatOfCore c) a info1
  match s.vatOfCore c with | some v => s1.poisonOrigin v (whoSrc (.core c)) a | none => s1

/-- A commit-point event of a vat (R555): VAT_CONTAIN, vat event 3 and the log. (DEDUCED, log entry 72) -/
def State.containPoint (s : State) (v kind src addr firstPoison : Nat) : State :=
  let s1 := s.modVat v (fun x => { x with contain :=
    { firstPoison := firstPoison, addr := addr, tick := s.clk.gtc, origin := x.origin.low48, status := ePoison, kind := kind } })
  (s1.fireVat v 3).log src evCommit ePoison (some v) addr kind

/-- A refused register access: no effect, logged with its status at the requester (R613). -/
def State.regRefuse (s : State) (w : Who) (status off : Nat) : State :=
  s.log (whoSrc w) (if status = eSealed then evSealed else evRefused) status none 0 off

/-! ## Power and reset of cores (R567-R572, R588, R630) -/

/-- Has the reset in progress released the management core (R586, R630)? -/
def State.released (s : State) : Bool :=
  s.boot.effect && (match s.boot.rst with
    | none => true
    | some .cold => !s.boot.perst
    | some _ => s.boot.wiped && !s.boot.perst)

/-- Cycles in 20 ticks at an operating point (Table 10.1). -/
def cyclesPer20 (p : Nat) : Nat := if p = 0 then 16 else if p = 1 then 20 else if p = 2 then 24 else if p = 3 then 27 else 30

/-- The part of a tick, in 2160ths, by which the next cycle edge lies after tick `t`: edges fall on the ticks that are multiples of 20 (R333). (DESIGN CHOICE, log entry 108) -/
def edgePhase (t p : Nat) : Nat :=
  let len := 43200 / cyclesPer20 p
  (len - t % 20 * 2160 % len) % len

/-- Does the present cycle of a vat's sheet lie after the first one whose image reaches a stamp (R340)? -/
def State.pastStamp (s : State) (v : Nat) (stamp : W64) : Bool :=
  s.clk.fast != (s.vat v).cycleBase && decide (stamp.toNat ≤ s.clk.prev.toNat)

/-- Does this cycle reach a tick that is a multiple of `n`: the present tick, or one that the last cycle edge passed over (R333)? -/
def State.reaches (s : State) (n : Nat) : Bool := s.clk.gtc.toNat % n == 0 || s.clk.prev.toNat / n != s.clk.gtc.toNat / n

/-- The tick at which the refresh slot in progress begins: the slots are the ticks [j × period, j × period + len) (R346). -/
def State.slotNow (s : State) : Option Nat :=
  let t := s.clk.gtc.toNat
  if t % s.hub.refPeriod < s.hub.refLen then some (t - t % s.hub.refPeriod) else none

/-- Does the fast-clock domain run? -/
def State.fastOn (s : State) : Bool := s.pwr.on && !s.pwr.off && !s.pwr.asleep

/-- Is a cluster in the power state RUN? -/
def State.clRun (s : State) (cl : Nat) : Bool := (s.clPwr cl).state == 0

/-- Is a core GATED? A vatman's request line wakes it (R567). -/
def State.gatedNow (s : State) (c : Nat) : Bool :=
  (s.ctl c).gated && !(match s.vatmanVat c with | some v => s.irqLine (1 + v) | none => false)

/-- A control processor that power and reset let run. -/
def State.coreOn (s : State) (c : Nat) : Bool :=
  if c = mgmtCore then s.pwr.on && s.released else s.fastOn && s.clRun (clusterOf c) && !(s.gatedNow c)

/-- Wake a cluster that is in RETAIN or OFF (R569). (DESIGN CHOICE, log entry 109) -/
def State.wakeCl (s : State) (cl : Nat) : State :=
  if s.clRun cl then s else s.modClPwr cl (fun x => { x with req := 0, busy := true })

/-- Are the clusters of a vat in RUN? (DESIGN CHOICE, log entry 109) -/
def State.vatAwake (s : State) (v : Nat) : Bool := (s.clustersOf v).all s.clRun

/-- Wake the clusters of a vat (R569). (DESIGN CHOICE, log entry 109) -/
def State.wakeVat (s : State) (v : Nat) : State := (s.clustersOf v).foldl State.wakeCl s

/-- Host commands that need a vat's cores or their SRAM: LOAD, START, SCAN_IN, RESUME, STOP, KILL and VAT_RESET (R569). -/
def needsCores (op : Nat) : Bool := op == 0x01 || (0x04 ≤ op && op ≤ 0x07) || op == 0x24 || op == 0x25

/-- Is the thermal level CRITICAL (R575)? (DEDUCED, log entry 105) -/
def State.critical (s : State) : Bool := s.pwr.dieLvl.getLsbD 2 || s.pwr.stackLvl.getLsbD 2

/-! ## Trace (R607) -/

/-- Write a trace record of a core's queue: at most 4 in a cycle, none while frozen. Kind 0 visible, 1 accepted, 2 completed, 3 halted. (DESIGN CHOICE, log entry 117) -/
def State.traceRec (s : State) (c q kind mop status instr : Nat) : State :=
  let t := s.trace (clusterOf c)
  if !t.en || t.freeze then s
  else
    let n := if t.cycle == s.clk.fast then t.count else 0
    if n ≥ 4 then s.setTrace (clusterOf c) { t with lost := satAdd top16 t.lost 1 }
    else s.setTrace (clusterOf c) { t with
      cycle := s.clk.fast, count := n + 1, head := (t.head + 1) % 512,
      recs := t.recs.put t.head { cycle := s.clk.fast - (s.ctl c).cycleBase, local_ := c % 64, kind := kind, queue := q, mop := mop, status := status,
                                  instr := instr } }

/-! ## Core registers (R75) -/

/-- Read a general register: g0 reads as zero (R75). -/
def Ctl.rg (k : Ctl) (r : Reg) : W64 := if r = 0 then 0 else k.g.get 0 r.toNat

/-- Write a general register: writes to g0 are discarded (R75). -/
def Ctl.wg (k : Ctl) (r : Reg) (x : W64) : Ctl := if r = 0 then k else { k with g := k.g.put r.toNat x }

/-- Read a predicate: p0 reads as 1 (R75). -/
def Ctl.rp (k : Ctl) (i : BitVec 3) : Bool := if i = 0 then true else k.p.getLsbD i.toNat

/-- Write a predicate: writes to p0 are discarded (R75). -/
def Ctl.wp (k : Ctl) (i : BitVec 3) (b : Bool) : Ctl :=
  if i = 0 then k
  else { k with p := if b then k.p ||| (1#8 <<< i.toNat) else k.p &&& ~~~(1#8 <<< i.toNat) }

/-- Move past an instruction. The next address is not checked here: one outside the instruction memory raises RANGE at the fetch. (DEDUCED, log entry 19) -/
def Ctl.adv (k : Ctl) : Ctl := { k with pc := k.pc + 4 }

/-- Is the guard true: p[gp] xor gn (R79)? -/
def Ctl.guardTrue (k : Ctl) (g : Guard) : Bool := (k.rp g.gp).xor g.gn

/-- The bytes of instruction memory of a control processor: 32 KiB for a core (R76); the management core's ROM and RAM (R588). -/
def inImem (c : Nat) (a : W64) : Bool :=
  if c = mgmtCore then a.toNat < 0x38000 else a.toNat < 0x8000

/-! ## Halts and exceptions (R93, R110, R111) -/

/-- A control processor enters HALTED with a reason; its source fires and the halt is logged (R111, Table 18.10). -/
def State.haltCore (s : State) (c : Nat) (reason : BitVec 8) : State :=
  let s0 := s.modCtl c (fun k => { k with run := .halted, haltReason := reason, waiting := none })
  let s1 := if reason = 3 then s0.modTrace (clusterOf c) (fun t => { t with freeze := t.freeze || t.haltFreeze }) else s0
  if c = mgmtCore then s1.log srcMgmt evChalt 0 none 0 reason.toNat
  else (s1.raiseCore c causeHalted).log (srcCore c) evChalt 0 (s1.vatOfCore c) 0 reason.toNat

/-- An instruction of a core that DAP_STEP lets run has retired or raised: the core halts again with reason 3 (R606). (DEDUCED, log entry 116) -/
def State.stepOver (s : State) (c : Nat) : State :=
  let k := s.ctl c
  if !k.stepping || k.waiting.isSome || k.ldr.isSome then s
  else
    let s1 := s.setCtl c { k with stepping := false }
    if k.run == .halted && k.haltReason != 5 && k.haltReason != 6 then s1.haltCore c 3 else s1

/-- A control processor whose waiting instruction may retire: RUNNING, or stepped (R606). -/
def Ctl.live (k : Ctl) : Bool := k.run == .running || (k.run == .halted && k.stepping)

/-- Exception causes (Table 3.12). -/
def cIllegal : BitVec 8 := 0x01
def cPrivilege : BitVec 8 := 0x02
def cAlign : BitVec 8 := 0x03
def cRange : BitVec 8 := 0x04
def cAccess : BitVec 8 := 0x05
def cPoison : BitVec 8 := 0x06
def cRemote : BitVec 8 := 0x07
def cIssue : BitVec 8 := 0x08
def cSync : BitVec 8 := 0x09
def cTrap : BitVec 8 := 0x0A
def cInterrupt : BitVec 8 := 0x10

/-- The control processor state after entering an exception (R93, last branch). -/
def Ctl.enter (k : Ctl) (cause : BitVec 8) (status : Nat) (ep v : W64) : Ctl :=
  { k with epc := ep, cause := cause, causeStatus := BitVec.ofNat 8 status, eval := v,
           epred := k.p &&& 0xFE#8, pie := k.ie, ie := false, exc := true, pc := k.evec, waiting := none }

/-- Taking an exception (R93): a double exception or a bad vector halts the core. -/
def State.takeException (s : State) (c : Nat) (cause : BitVec 8) (status : Nat) (ep v : W64) : State :=
  let k := s.ctl c
  if k.exc then s.haltCore c 5
  else if !(inImem c k.evec) then s.haltCore c 6
  else s.setCtl c (k.enter cause status ep v)

/-- Returning from an exception (R94); ie stays 0 in modes 0 and 1 (Table 3.10). EPC is not checked here: a pc outside the instruction memory raises
RANGE at the fetch. (DEDUCED, log entry 19) -/
def Ctl.eret (k : Ctl) : Ctl := { k with pc := k.epc, p := k.epred &&& 0xFE#8, ie := 2 ≤ k.mode.toNat && k.pie, exc := false }

/-! ## Arithmetic status (R56) -/

/-- Set flags of ARITH_STATUS. -/
def State.orArith (s : State) (c : Nat) (f : BitVec 8) : State := s.modArith c (· ||| f)

/-! ## DET_BREAK (R347) -/

/-- Count a DET_BREAK cause of Table 10.5 for a vat whose sheet runs: outside deterministic mode only ASYNC_LATE (R347). (DEDUCED, log entry 101) -/
def State.detBreak (s : State) (v cause : Nat) : State :=
  let x := s.vat v
  if x.st != .running || (!x.det.detOn && cause != 1) then s
  else
    let d := x.det
    let first := d.mask == 0
    let cyc : W64 := s.clk.fast - x.cycleBase
    let s1 := s.modVat v (fun x => { x with det := { d with
      count := satAdd top32 d.count 1, mask := d.mask ||| (1#32 <<< cause),
      firstCause := if first then cause else if d.firstCycle == cyc then min d.firstCause cause else d.firstCause,
      firstCycle := if first then cyc else d.firstCycle } })
    if first && d.brkIrq then s1.fireVat v 1 else s1

/-- Count a DET_BREAK cause for the vat of a core. -/
def State.detBreakCore (s : State) (c cause : Nat) : State :=
  match s.vatOfCore c with
  | some v => s.detBreak v cause
  | none => s

/-- CYCLE of a core (Table 3.9): cycles of its own clock, the always-on clock for the management core (R588). -/
def State.cycleOf (s : State) (c : Nat) : W64 := (if c = mgmtCore then s.clk.ao else s.clk.fast) - (s.ctl c).cycleBase

end Sys2Proof.Machine
end

