-- ==== Sys2Proof/Machine/AddrMap.lean ====
section
/-! DEFINITION. The device address map (Table 1.5) and the access rights of control processors and engines (Table 3.7). -/

namespace Sys2Proof.Machine

def stackTop : Nat := 0x9000000000
def spadBase : Nat := 0x10000000000
def regBase : Nat := 0x20000000000
def regTop : Nat := 0x20003100000
def remoteBase : Nat := 0x40000000000
def addrTop : Nat := 0x1000000000000

/-- The stack of an address (R355). -/
def stackOf (a : Nat) : Nat := fld a 12 3

/-- The stack-local address (R355). -/
def stackLocal (a : Nat) : Nat := (a >>> 15) * 4096 + a % 4096

/-- What a device address names (Table 1.5). -/
inductive Target where
  /-- stack memory -/
  | stack (a : Nat)
  /-- scratchpad window: cluster, core field, offset -/
  | spad (cl l off : Nat)
  /-- register space, at an offset -/
  | reg (off : Nat)
  /-- a remote window -/
  | remote (a : Nat)
  /-- none of these -/
  | none
  deriving DecidableEq, Repr

/-- Decode a device address (R29). -/
def targetOf (a : Nat) : Target :=
  if a < stackTop then .stack a
  else if spadBase ≤ a && a < spadBase + 2 ^ 31 then .spad (fld a 25 6) (fld a 19 6) (fld a 0 19)
  else if regBase ≤ a && a < regTop then .reg (a - regBase)
  else if remoteBase ≤ a && a < addrTop then .remote a
  else .none

/-- The owner of a stack address (R356). -/
def State.stackOwner (s : State) (a : Nat) : Option Nat :=
  let e := s.mem.region.get (false, 0) (a / 2 ^ 30)
  if e.1 then some e.2 else none

/-- Do all bytes of `[a, a + n)` lie in stack regions of vat `v`? -/
def State.stackWithin (s : State) (v a n : Nat) : Bool :=
  a + n ≤ stackTop && ((List.range ((a + (n - 1)) / 2 ^ 30 - a / 2 ^ 30 + 1)).all (fun i => s.stackOwner ((a / 2 ^ 30 + i) * 2 ^ 30) == some v))

/-- Is a target across an asynchronous crossing (R31, R90): stack memory, remote windows, and the registers of host, span, twin and
always-on blocks? -/
def targetAsync : Target → Bool
  | .stack _ => true
  | .remote _ => true
  | .reg off =>
    let b := off / 0x40000
    b == 7 || b == 8 || b == 9 || b == 0 || b == 3 || b == 5 || b == 12
  | _ => false

/-- Rights of a core's own accesses to the register space (Table 3.7): own core block, own vat's control block, the cluster registers, the
batcher window of its range (R422), the connection table (R625) and global counters (R622) for the vatman, everything for the management
core; reserved parts of the register space are E_RANGE before any right (R29, Table 21.1). -/
def State.regRight (s : State) (c off : Nat) (write : Bool) : Nat :=
  if (0x380000 ≤ off && off < 0x400000) || (0xA00000 ≤ off && off < 0x1000000) then eRange
  else if c = mgmtCore then eOk
  else
    let vatman := (s.vatmanVat c).isSome
    if 0x1000000 ≤ off && off < 0x3000000 then
      let cl := (off - 0x1000000) / 0x80000
      let l := fld off 13 6
      if s.physOf cl l = none then eRange
      else if s.physOf cl l = some c then eOk
      else ePermission
    else if 0x500000 ≤ off && off < 0x600000 then
      let v := (off - 0x500000) / 0x10000
      let o := (off - 0x500000) % 0x10000
      if s.vatOfCore c != some v then ePermission
      else if 0x1000 ≤ o && o < 0x2000 then (if write then ePermission else eOk)
      else if write && !vatman then ePermission
      else eOk
    else if 0x400000 ≤ off && off < 0x500000 then
      (match s.vatmanVat c with
        | some v => if !write && (s.vat v).btFirst ≤ (off - 0x400000) / 64 && (off - 0x400000) / 64 < (s.vat v).btFirst + (s.vat v).btCount then eOk else ePermission
        | none => ePermission)
    else if (0x340000 ≤ off && off < 0x380000) || (0x280200 ≤ off && off < 0x280300 && !write) then (if vatman then eOk else ePermission)
    else if 0x600000 ≤ off && off < 0xA00000 then
      let cl := (off - 0x600000) / 0x10000
      (if vatman && (match s.vatOfCore c with | some v => s.owns v cl | none => false) then eOk else ePermission)
    else ePermission

/-- The positions the remap copy of core `src` offers for a cluster: a copy still lists a fenced core until its notice comes (R222). -/
def State.offeredFor (s : State) (src cl : Nat) : List Nat :=
  (List.range 64).filter (fun p => p != s.disabledPos cl && !(s.net.remapSeen.has (8192 * src + coreNo cl p)))

/-- The physical core that the remap copy of core `src` gives for a logical number (R222). -/
def State.physFor (s : State) (src cl l : Nat) : Option Nat := (s.offeredFor src cl)[l]?.map (coreNo cl)

/-! ## Physical positions on the mesh (R221, R223, Tables 7.1, 7.2) -/

/-- Router coordinates of a physical position (R221). -/
def routerX (c : Nat) : Nat := 8 * (c / 64 % 8) + c % 64 % 8
def routerY (c : Nat) : Nat := 8 * (c / 64 / 8) + c % 64 / 8

/-- The position at router coordinates. -/
def routerAt (x y : Nat) : Nat := 64 * (8 * (y / 8) + x / 8) + 8 * (y % 8) + x % 8

/-- The edge router by which the requests of the core at router `r` enter a fabric and its responses leave it: edge 0 west, 1 east, 2 north,
3 south (Table 7.1). -/
def edgeRouter (edge r : Nat) : Nat :=
  if edge = 0 then routerAt 0 (routerY r) else if edge = 1 then routerAt 63 (routerY r)
  else if edge = 2 then routerAt (routerX r) 0 else routerAt (routerX r) 63

/-- The place of a byte of stack memory (R355): stack, channel, bank and its layer, 256 B column and row. -/
structure StackPlace where
  stack : Nat
  chan : Nat
  bank : Nat
  layer : Nat
  col : Nat
  row : Nat
  deriving DecidableEq, Repr

/-- The index of a stack-local address among the 8 KiB that take one 256 B of each channel (R355). -/
def stackQ (l : Nat) : Nat := l / 2 ^ 13

/-- The place of a stack memory address (R355). -/
def stackPlace (a : Nat) : StackPlace :=
  let l := stackLocal a
  let q := stackQ l
  { stack := stackOf a, chan := l / 256 % 32, bank := q % 48, layer := q % 48 / 4, col := q / 48 % 8, row := q / 384 }

/-- The edge of a stack's controller (Table 7.1). -/
def stackEdge (a : Nat) : Nat := if stackOf a < 4 then 0 else 1

/-- Bits [15:0] of a mesh header for a core's router (Table 7.2). -/
def meshToCore (c : Nat) : Nat := routerX c + routerY c * 2 ^ 6

/-- Bits [15:0] of a mesh header for an edge block behind an edge, from router `r` (Tables 7.1, 7.2). -/
def meshToEdge (edge r : Nat) : Nat := meshToCore (edgeRouter edge r) + 2 ^ 12 + edge * 2 ^ 14

/-- The destination bits of the mesh header of a request of core `c` to device address `a`: a logical core is turned into its position by the
copy of core `c` (R222); a stack request is addressed to the edge router of its row (R223). Other targets, and the management core, use no mesh
packet of the core's. -/
def State.meshTo (s : State) (c a : Nat) : Option Nat :=
  if c = mgmtCore then none
  else match targetOf a with
    | .stack x => some (meshToEdge (stackEdge x) c)
    | .spad cl l _ => (s.physFor c cl l).map meshToCore
    | _ => none

/-! ## Control network headers (Tables 7.5, 7.6) -/

/-- Fields of a control header (Table 7.5). -/
def chDstKind (h : Nat) : Nat := fld h 12 2
def chOp (h : Nat) : Nat := fld h 42 4
def chPay (h : Nat) : Nat := fld h 37 5

/-- The node of the hub, beyond the node of cluster 3 (R236). (DESIGN CHOICE, log entry 61) -/
def hubNode : Nat := 64

/-- The cluster node a packet heads for: the hub lies behind cluster 3 (R236). -/
def ctlTarget (h : Nat) : Nat := if chDstKind h = 2 then hubNode else fld h 0 6

/-- The port a control packet takes at node `n`: X, then Y (R236). -/
def ctlPort (n t : Nat) : Nat :=
  if n = t then (if n = hubNode then 5 else 6)
  else if n = hubNode then 3
  else
    let d := if t = hubNode then 3 else t
    if n % 8 < d % 8 then 1 else if d % 8 < n % 8 then 2 else if n / 8 < d / 8 then 4 else if d / 8 < n / 8 then 3 else 5

/-- The source of a register's answers: the node, and the source fields of Table 7.5: a hub block of Table 21.2, a cluster node, or a core. -/
def regSource (off : Nat) (phys : Nat) : Nat × Nat :=
  if off < 0x600000 then
    (hubNode, 2 * 2 ^ 30 + (if 0x500000 ≤ off then 14 else if 0x400000 ≤ off then 4 else off / 0x40000) * 2 ^ 32)
  else if off < 0x1000000 then ((off - 0x600000) / 0x10000 % 64, (off - 0x600000) / 0x10000 % 64 * 2 ^ 18 + 2 ^ 30)
  else (clusterOf phys % 64, clusterOf phys % 64 * 2 ^ 18 + phys % 64 * 2 ^ 24)

/-- The header of a REGRSP to core `c` (Tables 7.5, 7.6): the status, and one payload flit where data comes back. -/
def regRsp (c vat src status flits : Nat) : Nat :=
  clusterOf c + c % 64 * 2 ^ 6 + src + flits * 2 ^ 37 + 5 * 2 ^ 42 + vat * 2 ^ 46 + status * 2 ^ 50

/-- Entry `w` of a vat's SPAN_WIN: valid and node (R464). -/
def State.spanWin (s : State) (v w : Nat) : Bool × Nat := s.span.wins.get (false, 0) (64 * v + w)

/-- The checks of R464 on a remote window address: a core outside every vat has no SPAN_WIN. -/
def State.remoteRight (s : State) (c a : Nat) : Nat :=
  match (if c = mgmtCore then none else s.vatOfCore c) with
  | none => eRange
  | some v =>
    let e := s.spanWin v (fld a 42 6)
    let p := s.vatPerm v
    if !e.1 || e.2 == s.span.node then eRange
    else if !(p.lo ≤ e.2 && e.2 ≤ p.hi) || !p.win then ePermission
    else eOk

/-- Rights of core `c` to device address `a` (R30, R88, R464, Table 3.7): OK, E_RANGE or E_PERMISSION. -/
def State.devRight (s : State) (c a : Nat) (write : Bool) : Nat :=
  match targetOf a with
  | .none => eRange
  | .stack x =>
    if c = mgmtCore then eOk
    else match s.vatOfCore c with
      | some v => if s.stackOwner x = some v then eOk else ePermission
      | none => ePermission
  | .spad cl l _ =>
    match s.physFor c cl l with
    | none => eRange
    | some t =>
      if l = 63 then eRange
      else if c = mgmtCore then eOk
      else if s.ownerOf cl = none || s.ownerOf cl != s.vatOfCore c then ePermission
      else if (s.vatmanVat t).isSome && t != c then ePermission
      else eOk
  | .reg off => s.regRight c off write
  | .remote _ => s.remoteRight c a

/-- Is the cluster of a scratchpad address in RUN? Other addresses need no cluster (R569). -/
def State.spadAwake (s : State) (a : Nat) : Bool := match targetOf a with | .spad cl _ _ => s.clRun cl | _ => true

/-- Wake the cluster of a scratchpad address (R569). (DESIGN CHOICE, log entry 109) -/
def State.wakeSpad (s : State) (a : Nat) : State := match targetOf a with | .spad cl _ _ => s.wakeCl cl | _ => s

end Sys2Proof.Machine
end

