-- ==== Sys2Proof/Machine/MemOps.lean ====
section
/-! DEFINITION. Stack memory with poison (R365-R367), CRC-32C (R301), the watermark checksum (R350) and accounting (R501). -/

namespace Sys2Proof.Machine

/-! ## Checksums -/

/-- Eight shifts of the reflected CRC-32C register (polynomial 0x1EDC_6F41, R301). -/
def crc32cByte : Nat → Nat → Nat
  | 0, r => r
  | n + 1, r => crc32cByte n (if r % 2 = 1 then (r / 2) ^^^ 0x82F63B78 else r / 2)

/-- CRC-32C of bytes in address order (R301). -/
def crc32c (bs : List Byte) : Nat := (bs.foldl (fun r b => crc32cByte 8 (r ^^^ b.toNat)) 0xFFFFFFFF) ^^^ 0xFFFFFFFF

/-- Eight shifts of the ECMA-182 CRC-64 register (R350). -/
def crc64Byte : Nat → Nat → Nat
  | 0, r => r
  | n + 1, r => crc64Byte n (if bit r 63 then ((r * 2) % 2 ^ 64) ^^^ 0x42F0E1EBA9EA3693 else (r * 2) % 2 ^ 64)

/-- CRC-64 of bytes, not reflected, initial value 0, no final inversion (R350). -/
def crc64 (bs : List Byte) : Nat := bs.foldl (fun r b => crc64Byte 8 (r ^^^ (b.toNat * 2 ^ 56))) 0

/-! ## Stack memory -/

/-- The 16 B words `[a, a + n)` touches, as first and count. -/
def wordsOf (a n : Nat) : Nat := if n = 0 then 0 else (a + n - 1) / 16 - a / 16 + 1

/-- Is some byte of `[a, a + n)` of stack memory poisoned or uncorrectable (R366)? -/
def State.stackBad (s : State) (a n : Nat) : Bool :=
  s.mem.poison.hasRange (a / 16) (wordsOf a n) || s.mem.ue.hasRange (a / 16) (wordsOf a n)

/-- Bytes of stack memory. -/
def State.stackRead (s : State) (a n : Nat) : List Byte := s.mem.stack.readBytes a n

/-- Little-endian value of stack bytes. -/
def State.stackNat (s : State) (a n : Nat) : Nat := leNat (s.stackRead a n)

/-- Poisoned offsets of a read of `[a, a + n)` of stack memory: whole 16 B words (R366). -/
def State.stackBadOffs (s : State) (a n : Nat) : NSet := (List.range n).filter (fun i => s.mem.poison.has ((a + i) / 16) || s.mem.ue.has ((a + i) / 16))

/-- Poison marks after a write: a word with a poisoned byte is poisoned; a word covered in part keeps its mark (R366, R367). -/
def stackMarks (p : NSet) (a n : Nat) (bad : Nat → Bool) : NSet :=
  if n = 0 then p
  else (List.range ((a + n - 1) / 16 - a / 16 + 1)).foldl (fun p i =>
    let w := a / 16 + i
    let isBad := (List.range 16).any (fun j => a ≤ 16 * w + j && 16 * w + j < a + n && bad (16 * w + j - a))
    let whole := a ≤ 16 * w && 16 * w + 16 ≤ a + n
    if isBad then p.add w else if whole then p.rem w else p) p

/-- Write bytes to stack memory with their poison; a written word has good check bits, and an uncorrectable word written in part is
poisoned (R366, R367). -/
def State.stackStore (s : State) (a : Nat) (bs : List Byte) (bad : Nat → Bool) : State :=
  let m := s.mem
  let n := wordsOf a bs.length
  let old := (m.ue.filter (fun w => a / 16 ≤ w && w < a / 16 + n)).foldl NSet.add m.poison
  { s with mem := { m with stack := m.stack.writeBytes a bs, poison := stackMarks old a bs.length bad,
                           ue := m.ue.remRange (a / 16) n, ce := m.ce.remRange (a / 16) n } }

/-! ## Mirroring of acknowledged writes (R478-R480) -/

/-- Does `[a, a + n)` meet an enabled twin range of a vat? -/
def Vat.inTwinRange (x : Vat) (a n : Nat) : Bool :=
  (List.range 8).any (fun i =>
    let r := (x.tw.ranges.get 0 i).toNat
    bit r 63 && n != 0 && decide (a < 4096 * (fld r 0 36 + fld r 36 24)) && decide (4096 * fld r 0 36 < a + n))

/-- The parts of a write within 4 KiB pages: page, offset into the data, and bytes. -/
def pagesOf (a n : Nat) : List (Nat × Nat × Nat) :=
  if n = 0 then []
  else (List.range ((a + n - 1) / 4096 - a / 4096 + 1)).map (fun i =>
    let lo := max a (4096 * (a / 4096 + i))
    let hi := min (a + n) (4096 * (a / 4096 + i + 1))
    (a / 4096 + i, lo - a, hi - lo))

/-- Poisoned 4 B words of `n` bytes from offset `o`. -/
def badWords (bad : Nat → Bool) (o n : Nat) : NSet :=
  (List.range (cdiv n 4)).filter (fun w => (List.range 4).any (fun j => decide (4 * w + j < n) && bad (o + 4 * w + j)))

/-- Bytes of captured writes that wait in the mirror queue (R480). (DESIGN CHOICE, log entry 62) -/
def State.mirrorQueue (s : State) : Nat := (s.port 6).txq.foldl (fun t x => t + if x.f.kind == 8 then x.f.data.length else 0) 0

/-- One captured write joins the mirror queue (R479). -/
def State.captureWrite (s : State) (v a : Nat) (bs : List Byte) (bad : NSet) : State :=
  let f : Frame := { kind := 8, dst := s.span.tw.cfgPeer, src := s.span.node, job := (s.vat v).jobId, len := bs.length, unit := a + v * 2 ^ 48,
                     data := bs, bad := bad }
  (s.modPort 6 (fun p => { p with txq := p.txq ++ [{ f := f, vat := some v }] })).modVat v (fun x =>
    { x with tw := { x.tw with units := x.tw.units + cdiv bs.length 256 + 1,
                               curBad := match x.tw.curBad, bad.head? with | some k, _ => some k | none, some w => some (a + 4 * w) | none, none => none } })

/-- A write acknowledged into an enabled range: marks its 64 KiB blocks dirty in STEP, is captured in CONTINUOUS (R479); while the mirror
queue is full the acknowledgement is held, which counts TWIN once (R480). -/
def State.twinCapture (s : State) (a : Nat) (bs : List Byte) (bad : Nat → Bool) : State :=
  match s.stackOwner a with
  | none => s
  | some v =>
    let w := (s.vat v).tw
    if w.standby || w.mode = 0 || w.mstat = 0 || w.mstat = 3 || w.commits.any (·.bad.isSome) then s
    else
      let ps := (pagesOf a bs.length).filter (fun p => (s.vat v).inTwinRange (4096 * p.1) 1)
      ps.foldl (fun s p =>
        if w.mode = 1 then s.modVat v (fun x => { x with tw := { x.tw with dirty := x.tw.dirty.add (p.1 / 16) } })
        else s.captureWrite v (a + p.2.1) ((bs.drop p.2.1).take p.2.2) (badWords bad p.2.1 p.2.2))
        (if !ps.isEmpty && 0x400000 ≤ s.mirrorQueue then s.detBreak v 0x11 else s)

/-- Write bytes to stack memory with their poison, mirrored where the vat's mode asks for it (R366, R367, R479). (DEDUCED, log entry 80) -/
def State.stackPut (s : State) (a : Nat) (bs : List Byte) (bad : Nat → Bool) : State := (s.stackStore a bs bad).twinCapture a bs bad

/-- The first word of a set among those of `[a, a + n)` that lie in 256 B block `b`. -/
def firstWord (w : NSet) (a n b : Nat) : Option Nat := w.find? (fun k => k / 16 == b && a / 16 ≤ k && k < a / 16 + wordsOf a n)

/-- The access of one block of a read of `[a, a + n)` counts and reports what its words hold (R365, R366, R556); an uncorrectable read fires
the stack's source. -/
def State.noteBlock (m : MemSide) (v : Option Nat) (a n : Nat) (s : State) (i : Nat) : State :=
  let b := a / 256 + i
  let st := stackOf (256 * b)
  let s1 := match firstWord m.poison a n b with
    | some _ => s.modStk st (fun x => { x with poisonRd := satAdd top16 x.poisonRd 1 })
    | none => s
  let s2 := match firstWord m.ce a n b with
    | some w => (s1.modStk st (fun x => { x with corrected := satAdd top16 x.corrected 1 })).log (srcStack st) evCorrected eOk v (16 * w) 0
    | none => s1
  match firstWord m.ue a n b with
  | some w =>
    let s3 := (((s2.modStk st (fun x => { x with uncorrected := satAdd top16 x.uncorrected 1 })).fire (651 + st)).log
      (srcStack st) evUncorrected ePoison v (16 * w) 0)
    match v with | some v => s3.poisonOrigin v (srcStack st) (16 * w) | none => s3
  | none => s2

/-- The accesses of a read of `[a, a + n)`, one for each 256 B block, count and report what their words hold (R365, R366, R556). (DEDUCED, log entry 81) -/
def State.noteStack (s : State) (v : Option Nat) (a n : Nat) : State :=
  let m := s.mem
  let k := wordsOf a n
  if !(m.ue.hasRange (a / 16) k) && !(m.ce.hasRange (a / 16) k) && !(m.poison.hasRange (a / 16) k) then s
  else (List.range ((a + n - 1) / 256 - a / 256 + 1)).foldl (State.noteBlock m v a n) s

/-- Bytes charged for an access: 256 B for each 256 B block it touches (R369). (DEDUCED, log entry 36) -/
def chargeOf (a n : Nat) : Nat := if n = 0 then 0 else 256 * ((a + n - 1) / 256 - a / 256 + 1)

/-! ## The watermark checksum (R350) -/

/-- Is an address in an enabled VAT_WM_RANGE (Table 10.11)? -/
def inWmRange (rs : Table W64) (a : Nat) : Bool :=
  (List.range 4).any (fun i =>
    let r := (rs.get 0 i).toNat
    bit r 63 && 4096 * fld r 0 36 ≤ a && a < 4096 * (fld r 0 36 + fld r 36 24))

/-- The 12 bytes of one contribution: address, byte mask, poison, data (R350). -/
def wmString (w : Nat) (a : Nat) (bs : List Byte) (bad : Nat → Bool) : List Byte :=
  let ins := (List.range 4).map (fun j => a ≤ w + j && w + j < a + bs.length)
  let at_ := fun j => bs.getD (w + j - a) 0
  leBytes 6 w ++ [BitVec.ofNat 8 ((List.range 4).foldl (fun m j => m + b2n (ins.getD j false) * 2 ^ j) 0)]
    ++ [if (List.range 4).any (fun j => ins.getD j false && bad (w + j - a)) then 1 else 0]
    ++ (List.range 4).map (fun j => if ins.getD j false then at_ j else 0)

/-- The sum of the contributions of one write. -/
def wmSum (rs : Table W64) (a : Nat) (bs : List Byte) (bad : Nat → Bool) : Nat :=
  if bs.isEmpty then 0
  else ((List.range ((a + bs.length - 1) / 4 - a / 4 + 1)).map (fun i => 4 * (a / 4 + i))).foldl (fun t w =>
    if inWmRange rs w then t + crc64 (wmString w a bs bad) else t) 0

/-- A write issued by work of vat `v` enters out_crc of its running sheet (R350). (DESIGN CHOICE, log entry 138) -/
def State.noteWrite (s : State) (v a : Nat) (bs : List Byte) (bad : Nat → Bool) : State :=
  let x := s.vat v
  if x.st == .running && !x.det.wmRange.isEmpty then
    s.setVat v { x with det := { x.det with outCrc := x.det.outCrc + BitVec.ofNat 64 (wmSum x.det.wmRange a bs bad) } }
  else s

/-- The same for work of a core, at any device address (R350). (DESIGN CHOICE, log entry 138) -/
def State.noteCoreWrite (s : State) (c a : Nat) (bs : List Byte) (bad : Nat → Bool) : State :=
  match s.vatOfCore c with
  | some v => s.noteWrite v a bs bad
  | none => s

/-! ## Accounting (R501) -/

/-- Add to an accounting counter of a vat whose counting runs (Table 16.3). -/
def State.account (s : State) (v j n : Nat) : State :=
  if (s.vat v).ac.stopped then s
  else s.modVat v (fun x => { x with ac := { x.ac with acct := x.ac.acct.put j ((x.ac.acct.get 0 j + n) % 2 ^ 64) } })

/-- Add to STK_ACCT of a vat: 0 rd, 1 wr, 2 eng, 3 xfer (R369). -/
def State.accountStk (s : State) (v j n : Nat) : State :=
  if (s.vat v).ac.stopped then s
  else s.modVat v (fun x => { x with ac := { x.ac with stk := x.ac.stk.put j ((x.ac.stk.get 0 j + n) % 2 ^ 64) } })

/-- Account for a core's vat. -/
def State.accountCore (s : State) (c j n : Nat) : State :=
  match s.vatOfCore c with
  | some v => s.account v j n
  | none => s

end Sys2Proof.Machine
end

