-- ==== Sys2Proof/Machine/SyncOps.lean ====
section
/-! DEFINITION. Sync counters (R280-R285): rights, additions, checked subtracts, the deckle's held increments, and watches. -/

namespace Sys2Proof.Machine

/-- Is a 15-bit counter address well formed (R102)? -/
def ctrWf (a : Nat) : Bool := a < 0x4000 || (0x4000 ≤ a && a < 0x4040)

/-- The node that holds a counter: its cluster, or 64 for the hub (R280). (DEDUCED, log entry 15) -/
def ctrNode (a : Nat) : Nat := if a < 0x4000 then a / 256 else 64

/-- Is a global counter in service for a vat: owned by it, or shared (Table 8.7, Table 8.16)? -/
def State.globalFor (s : State) (v : Option Nat) (a : Nat) : Bool :=
  let g := s.gsync (a - 0x4000)
  g.en && (g.shared || v == some g.owner)

/-- May core `c` add to counter `a`, or read it (Table 8.7, rows 1 and 4)? -/
def State.mayAdd (s : State) (c a : Nat) : Bool :=
  if c = mgmtCore then true
  else if a < 0x4000 then
    a / 256 == clusterOf c || (match s.vatOfCore c with | some v => s.owns v (a / 256) | none => false)
  else s.globalFor (s.vatOfCore c) a

/-- May core `c` subtract from counter `a`, or test it (Table 8.7, rows 2 and 3)? -/
def State.mayTest (_s : State) (c a : Nat) : Bool :=
  if c = mgmtCore then 0x4000 ≤ a else a < 0x4000 && a / 256 == clusterOf c

/-- The vat a counter belongs to, for a log entry. -/
def State.vatOfCtr (s : State) (a : Nat) : Option Nat :=
  if a < 0x4000 then s.ownerOf (a / 256)
  else if (s.gsync (a - 0x4000)).en then some (s.gsync (a - 0x4000)).owner else none

/-- Count an overflow or underflow in SYNC_ERR or GSYNC_ERR and log it (R284). -/
def State.syncErr (s : State) (a : Nat) (under : Bool) : State :=
  let n := ctrNode a
  let s1 : State :=
    if under then { s with net := { s.net with errUnf := s.net.errUnf.put n (satAdd top16 (s.net.errUnf.get 0 n) 1) } }
    else { s with net := { s.net with errOvf := s.net.errOvf.put n (satAdd top16 (s.net.errOvf.get 0 n) 1) } }
  s1.log (srcNode n) evSyncErr (if under then eSyncUnderflow else eOk) (s.vatOfCtr a) 0 a

/-- Add to a counter: an addition past 0xFFFF_FFFF leaves it there, is counted and logged (R284). (DESIGN CHOICE, log entry 22) -/
def State.addCtr (s : State) (a n : Nat) : State :=
  if s.ctr a + n ≤ top32 then s.setCtr a (s.ctr a + n)
  else (s.setCtr a top32).syncErr a false

/-- Checked subtract: below zero the counter is unchanged, the event counted and logged, and the requester told (R284). -/
def State.subCtr (s : State) (a n : Nat) : State × Bool :=
  if n ≤ s.ctr a then (s.setCtr a (s.ctr a - n), true) else (s.syncErr a true, false)

/-- The condition of a WAIT (Table 3.20). -/
def Cond.holds (k : Cond) (x v : Nat) : Bool :=
  match k with
  | .ge => v ≤ x
  | .eq => x == v
  | .ne => x != v
  | .lt => x < v

/-- The condition a 3-bit field names; 4-7 are reserved. -/
def Cond.ofBits (n : Nat) : Option Cond :=
  if n = 0 then some .ge else if n = 1 then some .eq else if n = 2 then some .ne else if n = 3 then some .lt else none

/-- Rank of a unit within its core (R283). -/
def WUnit.rank : WUnit → Nat
  | .cpu => 0
  | .queue q => 1 + q
  | .stream e => 3 + e

/-- The place of a watch in the order of testing (R283). -/
def Watch.key (w : Watch) : Nat := 64 * w.core + w.unit.rank

/-- Insert a watch in the order of testing. -/
def insertWatch (w : Watch) : List Watch → List Watch
  | [] => [w]
  | x :: t => if w.key < x.key then w :: x :: t else x :: insertWatch w t

/-- A unit learns that its watch has passed: SWAIT retires, a WAIT is freed, an SWT lets its stream go on (R105, R108, R206). -/
def State.release (s : State) (w : Watch) : State :=
  match w.unit with
  | .cpu => (s.modCtl w.core (fun k => { k with waiting := none, pc := k.pc + 4 })).stepOver w.core
  | .queue q =>
    ((s.traceRec w.core q 1 0xF0 0 0).modQueue w.core q (fun x => { x with entries := x.entries.tail, waiting := false })).traceRec w.core q 2 0xF0 0 0
  | .stream e => s.modSe w.core e (fun x => { x with waitSwt := false })

/-- Test one watch once: a passing watch is removed, lowers its counter if it decreases, and releases its unit (R283). -/
def State.testWatch (s : State) (w : Watch) : State :=
  if w.cond.holds (s.ctr w.ctr) w.value then
    let s1 : State := { s with net := { s.net with watches := s.net.watches.filter (· != w) } }
    let s2 := if w.dec then s1.setCtr w.ctr (s1.ctr w.ctr - w.value) else s1
    s2.release w
  else s

/-- Test the watches of a node, each once, in order: one cycle's step 4 of R283. -/
def State.watchPass (s : State) (node : Nat) : State :=
  (s.net.watches.filter (fun w => ctrNode w.ctr == node)).foldl State.testWatch s

/-- Cycles of step 4 until no watch passes: a decrease is a change of its counter, tested in the next cycle (R283). (DESIGN CHOICE, log entry 22) -/
def State.watchLoop : Nat → State → Nat → State
  | 0, s, _ => s
  | n + 1, s, node =>
    let s1 := s.watchPass node
    if s1.net.watches.length = s.net.watches.length then s1 else State.watchLoop n s1 node

/-- Test the watches of a node after a change of one of its counters (R282, R283). (DESIGN CHOICE, log entry 22) -/
def State.testWatches (s : State) (node : Nat) : State := State.watchLoop (s.net.watches.length + 1) s node

/-- A counter is set, and its watches are tested (R282, R283). -/
def State.putCtr (s : State) (a x : Nat) : State := (s.setCtr a x).testWatches (ctrNode a)

/-- A test-and-decrease of a ring or endpoint passes: the counter falls and its watches are tested (R283). -/
def State.decCtr (s : State) (a n : Nat) : State := s.putCtr a (s.ctr a - n)

/-- Register a watch; it is tested in the cycle in which it is registered (R282). -/
def State.register (s : State) (w : Watch) : State :=
  let s1 := State.testWatch { s with net := { s.net with watches := insertWatch w s.net.watches } } w
  if w.dec then s1.testWatches (ctrNode w.ctr) else s1

/-- Remove the watches of a core (R285). -/
def State.dropWatches (s : State) (c : Nat) : State :=
  { s with net := { s.net with watches := s.net.watches.filter (fun w => w.core != c) } }

/-- Remove the watch of a core's control processor: an abandoned SWAIT decreases nothing (R97). -/
def State.dropCpuWatch (s : State) (c : Nat) : State :=
  { s with net := { s.net with watches := s.net.watches.filter (fun w => w.core != c || w.unit != .cpu) } }

/-- Is the deckle raised over a cluster (R315)? -/
def State.deckled (s : State) (cl : Nat) : Bool :=
  match s.ownerOf cl with
  | some v => (s.vat v).deckle.has cl
  | none => false

/-- An increment from outside the vat to a counter: held behind a raised deckle, up to 16 for each counter; a 17th is refused
(R317). The answer says whether it was taken. (DESIGN CHOICE, log entry 40) -/
def State.addOutside (s : State) (a n : Nat) : State × Bool :=
  if a < 0x4000 && s.deckled (a / 256) then
    match s.ownerOf (a / 256) with
    | some v =>
      if ((s.vat v).heldIncs.filter (fun p => p.1 == a)).length < 16 then
        (s.modVat v (fun x => { x with heldIncs := x.heldIncs ++ [(a, n)] }), true)
      else (s.modVat v (fun x => { x with deckleOverflow := satAdd top16 x.deckleOverflow 1 }), false)
    | none => (s, false)
  else ((s.addCtr a n).testWatches (ctrNode a), true)

/-- An increment made by core `c`; one that the management core makes is not refused here (`execSadd` asks): on its own cluster's counter port at once, else as a SYNC packet (R282).
(DESIGN CHOICE, log entry 40) -/
def State.addFrom (s : State) (c a n : Nat) : State :=
  if c != mgmtCore && a / 256 == clusterOf c && a < 0x4000 then (s.addCtr a n).testWatches (ctrNode a)
  else if c == mgmtCore then (s.addOutside a n).1
  else s.send (.sync a n)

end Sys2Proof.Machine
end

