-- ==== Sys2Proof/Machine/Desc.lean ====
section
/-! DEFINITION. Tensor descriptors (Table 4.2, R117-R121) and reads and writes of a core's scratchpad with poison (R184-R190). -/

namespace Sys2Proof.Machine

/-! ## Scratchpad -/

/-- The size of a scratchpad (R184). -/
def spadSize : Nat := 0x80000

/-- Is a byte of a scratchpad poisoned: its word's mark, or an uncorrectable bank word (R189, R190)? -/
def Spad.badAt (x : Spad) (a : Nat) : Bool := x.poison.has (a / 4) || x.ue.has (a / 16)

/-- Is some byte of `[a, a + n)` poisoned? -/
def Spad.bad (x : Spad) (a n : Nat) : Bool :=
  n != 0 && (x.poison.hasRange (a / 4) ((a + n - 1) / 4 - a / 4 + 1) || x.ue.hasRange (a / 16) ((a + n - 1) / 16 - a / 16 + 1))

/-- Little-endian value of `n` bytes. -/
def Spad.nat (x : Spad) (a n : Nat) : Nat := leNat (x.mem.readBytes a n)

/-- Poison marks after a write of `n` bytes at `a`, `bad` telling which written offsets are poisoned (R190): a word covered whole
takes the data's state; a word covered in part is marked when the data is poisoned. -/
def Spad.mark (x : Spad) (a n : Nat) (bad : Nat → Bool) : NSet :=
  if n = 0 then x.poison
  else (List.range ((a + n - 1) / 4 - a / 4 + 1)).foldl (fun p i =>
    let w := a / 4 + i
    let isBad := (List.range 4).any (fun j => a ≤ 4 * w + j && 4 * w + j < a + n && bad (4 * w + j - a))
    let whole := a ≤ 4 * w && 4 * w + 4 ≤ a + n
    if isBad then p.add w else if whole then p.rem w else p) x.poison

/-- Write bytes with their poison (R190). (DEDUCED, log entry 30) -/
def Spad.put (x : Spad) (a : Nat) (bs : List Byte) (bad : Nat → Bool) : Spad :=
  { x with mem := x.mem.writeBytes a bs, poison := x.mark a bs.length bad }

/-- Count and report the bank errors of the `i`-th word of a read at `a`, as the errors `ue` and `ce` stand (R189, R556). -/
def State.noteWord (ue ce : NSet) (c a : Nat) (s : State) (i : Nat) : State :=
  let w := a / 16 + i
  if ue.has w then
    (s.modSpad c (fun y => { y with eccUnc := satAdd top16 y.eccUnc 1 })).sramError c (16 * w) (w % 16)
  else if ce.has w then
    (s.modSpad c (fun y => { y with eccCor := satAdd top16 y.eccCor 1 })).log (srcCore c) evCorrected eOk (s.vatOfCore c) (16 * w) (w % 16)
  else s

/-- Count and report the bank errors met by a read of `[a, a + n)` (R189, R556). (DESIGN CHOICE, log entry 16) -/
def State.noteRead (s : State) (c a n : Nat) : State :=
  let x := s.spad c
  if x.ue.isEmpty && x.ce.isEmpty || n = 0 then s
  else (List.range ((a + n - 1) / 16 - a / 16 + 1)).foldl (State.noteWord x.ue x.ce c a) s

/-- Write bytes into a core's scratchpad. -/
def State.spadPut (s : State) (c a : Nat) (bs : List Byte) (bad : Nat → Bool) : State := s.modSpad c (fun x => x.put a bs bad)

/-- The device address of an offset in a core's scratchpad (R29). -/
def State.spadAddr (s : State) (c a : Nat) : Nat := spadBase + clusterOf c * 2 ^ 25 + (s.logOf c).getD 0 * 2 ^ 19 + a

/-- A write that a core's own work makes in its scratchpad: the bytes are written and enter out_crc (R350). (DESIGN CHOICE, log entry 138) -/
def State.spadStore (s : State) (c a : Nat) (bs : List Byte) (bad : Nat → Bool) : State :=
  (s.spadPut c a bs bad).noteCoreWrite c (s.spadAddr c a) bs bad

/-! ## Descriptors -/

/-- Offset of descriptor slot `n` (R117). -/
def descAt (n : Nat) : Nat := 0x7C000 + 64 * n

def dFmt (d : Nat) : Nat := fld d 0 5
def dRank (d : Nat) : Nat := fld d 5 2 + 1
def dSpace (d : Nat) : Bool := bit d 7
def dTrans (d : Nat) : Bool := bit d 8
def dBaxis (d : Nat) : Nat := fld d 9 2
def dBlkOff (d : Nat) : Nat := fld d 11 5
def dBase (d : Nat) : Nat := fld d 16 48
/-- Extent field of stored dimension `i`. -/
def dExtF (d i : Nat) : Nat := fld d (64 + 24 * i) 24
/-- Extent of stored dimension `i`; dimensions at or above rank count as 1 (R118). -/
def dExt (d i : Nat) : Nat := if i < dRank d then dExtF d i else 1
/-- Signed byte stride of stored dimension `i` in 1-3. -/
def dStride (d i : Nat) : Int := sfld d (160 + 32 * (i - 1)) 32
def dScaleBase (d : Nat) : Nat := fld d 256 48
def dSStride (d i : Nat) : Int := sfld d (304 + 32 * (i - 1)) 32
def dNbuf (d : Nat) : Nat := fld d 400 3
def dSlotStride (d : Nat) : Nat := fld d 416 32
def dRdy (d : Nat) : Nat := fld d 448 15
def dFree (d : Nat) : Nat := fld d 464 15

/-- Alignment of a format's base, in bytes (R118). -/
def fmtAlign (f : Nat) : Nat :=
  match fmtElem f with
  | 0 => 4 | 1 => 2 | 2 => 2 | 9 => 4 | 10 => 16 | _ => 1

/-- A descriptor that obeys R13 and R118. -/
def descOk (d : Nat) : Bool :=
  let f := dFmt d
  let r := dRank d
  fmtKnown f
  && fld d 403 13 == 0 && fld d 463 1 == 0 && fld d 479 33 == 0
  && (List.range 4).all (fun i => if i < r then dExtF d i ≥ 1 else dExtF d i == 0)
  && (List.range 3).all (fun i => i + 1 < r || (fld d (160 + 32 * i) 32 == 0))
  && (List.range 3).all (fun i => i + 1 < r || (fld d (304 + 32 * i) 32 == 0))
  && (r < 2 || ((rowBytes (fmtBits f) (dExt d 0) : Int) ≤ dStride d 1 && (fmtBits f != 6 || dStride d 1 % 3 == 0)))
  && dBase d % fmtAlign f == 0
  && (if dNbuf d = 0 then dSlotStride d == 0 && dRdy d == 0 && dFree d == 0
      else dNbuf d ≤ 4 && ctrWf (dRdy d) && ctrWf (dFree d))
  && (fmtMx f || ( dBaxis d == 0 && dBlkOff d == 0 && dScaleBase d == 0 && fld d 304 96 == 0))

/-- Byte offset of stored indices (i1, i2, i3) from the base, dimension 0 excluded. -/
def dRowOff (d : Nat) (i1 i2 i3 : Int) : Int := dStride d 1 * i1 + dStride d 2 * i2 + dStride d 3 * i3

/-- Bit address, relative to the base, of the element at stored indices (R45, R117). -/
def dElemBit (d : Nat) (i0 : Nat) (i1 i2 i3 : Int) : Int := 8 * dRowOff d i1 i2 i3 + (fmtBits (dFmt d) : Int) * i0

/-- The scale index of stored dimension `i` (R120). -/
def dScaleIdx (d i : Nat) (ix : Nat) : Nat := if dBaxis d = i then (ix + dBlkOff d) / 32 else ix

/-- Address of the scale byte of the element at stored indices (R120). -/
def dScaleAddr (d : Nat) (i0 i1 i2 i3 : Nat) : Int :=
  (dScaleBase d : Int) + dScaleIdx d 0 i0 + dSStride d 1 * (dScaleIdx d 1 i1) + dSStride d 2 * (dScaleIdx d 2 i2) + dSStride d 3 * (dScaleIdx d 3 i3)

/-- Number of elements. -/
def dCount (d : Nat) : Nat := dExt d 0 * dExt d 1 * dExt d 2 * dExt d 3

/-- Logical extents: stored dimensions with 0 and 1 exchanged when trans = 1 (R119). -/
def dLExt (d i : Nat) : Nat :=
  if dTrans d && i = 0 then dExt d 1 else if dTrans d && i = 1 then dExt d 0 else dExt d i

end Sys2Proof.Machine
end

