-- ==== Sys2Proof/Machine/QueueOps.lean ====
section
/-! DEFINITION. Engine queues (R99-R107): headers, presentation, acceptance, halting and completion signals. -/

namespace Sys2Proof.Machine

/-- Depth of a queue (Table 3.15). -/
def qDepth (q : Nat) : Nat := if q ≤ 1 then 16 else 8

/-- Free places: the depth minus the visible entries (R107). -/
def State.qFree (s : State) (c q : Nat) : Nat := qDepth q - (s.queue c q).entries.length

/-! ## The header (R101) -/

def mMop (m : W256) : Nat := fld m.toNat 0 8
def mSigEn (m : W256) : Bool := bit m.toNat 8
def mSigAdd (m : W256) : Nat := fld m.toNat 9 7
def mSigCtr (m : W256) : Nat := fld m.toNat 16 15

def mopWait : Nat := 0xF0
def mopSignal : Nat := 0xF1

/-- A header that obeys R101. -/
def headerOk (m : W256) : Bool :=
  let x := m.toNat
  !(bit x 31) && mMop m ≤ 0xF1
  && (if mSigEn m then 1 ≤ mSigAdd m && ctrWf (mSigCtr m) else mSigAdd m == 0 && mSigCtr m == 0)
  && (mMop m < mopWait || (!mSigEn m && mSigAdd m == 0 && mSigCtr m == 0))

/-- Fields of WAIT and SIGNAL (Table 3.20). -/
def wsCtr (m : W256) : Nat := fld m.toNat 32 15
def wsValue (m : W256) : Nat := fld m.toNat 64 32
def waitCond (m : W256) : Nat := fld m.toNat 48 3
def waitDec (m : W256) : Bool := bit m.toNat 51
def signalSub (m : W256) : Bool := bit m.toNat 48

/-- A WAIT or SIGNAL that obeys its layout; other macro-instructions pass (R103). -/
def layoutOk (m : W256) : Bool :=
  let x := m.toNat
  if mMop m == mopWait then
    fld x 96 160 == 0 && fld x 52 12 == 0 && !(bit x 47) && ctrWf (wsCtr m) && waitCond m ≤ 3 && (!waitDec m || waitCond m ≤ 1)
  else if mMop m == mopSignal then
    fld x 96 160 == 0 && fld x 49 15 == 0 && !(bit x 47) && ctrWf (wsCtr m) && 1 ≤ wsValue m
  else true

/-! ## Presentation and acceptance -/

/-- Engines of a core accept entries: the core runs or has ended, or its halt stops only the control processor (R111), and the
vat of a mould core runs. -/
def State.enginesOn (s : State) (c : Nat) : Bool :=
  let k := s.ctl c
  (k.run == .running || k.run == .ended || (k.run == .halted && (k.haltReason == 1 || k.haltReason == 2 || k.haltReason == 3)))
  && (match s.vatOfCore c with
      | some v => s.vatmanOf v == some c || (s.vat v).st == .running
      | none => false)

/-- The entry a queue presents: the held entry of a retry, else its head; none while halted or waiting (R105, R107). -/
def EngQ.head (x : EngQ) : Option W256 :=
  if x.halted || x.waiting then none
  else match x.held with
    | some m => some m
    | none => x.entries.head?

/-- The queue after its presented entry is freed. -/
def EngQ.pop (x : EngQ) : EngQ :=
  match x.held with
  | some _ => { x with held := x.held2, held2 := none }
  | none => { x with entries := x.entries.tail }

/-- A queue halts: the status and mop are recorded, the core's source fires and the halt is logged (R107). -/
def State.haltQueue (s : State) (c q status : Nat) (m : W256) : State :=
  let s1 := s.modQueue c q (fun x => { x with halted := true, errStatus := BitVec.ofNat 8 status, errMop := BitVec.ofNat 8 (mMop m) })
  ((s1.raiseCore c causeQhalt).traceRec c q 3 (mMop m) status 0).log (srcCore c) evQhalt status (s.vatOfCore c) 0 (256 * q + mMop m)

/-- Remove the watch of a queue's WAIT: an entry held ahead of it is presented first (R107). -/
def State.dropQueueWatch (s : State) (c q : Nat) : State :=
  { s with net := { s.net with watches := s.net.watches.filter (fun w => !(w.core == c && w.unit == .queue q)) } }

/-- An engine rejects an entry it has accepted: the entry is held in its halt register, ahead of every entry in the queue (R107), a WAIT that
was held included. -/
def State.reject (s : State) (c q status : Nat) (m : W256) : State :=
  ((s.modQueue c q (fun x => { x with held := some m, held2 := x.held, waiting := false })).dropQueueWatch c q).haltQueue c q status m

/-- Does the signal field of an entry name a counter the core may add to (R281)? -/
def State.sigRight (s : State) (c : Nat) (m : W256) : Bool := !mSigEn m || s.mayAdd c (mSigCtr m)

/-- The signal of a completed macro-instruction (R101). -/
def State.sigDone (s : State) (c q : Nat) (m : W256) : State :=
  let s1 := s.traceRec c q 2 (mMop m) 0 0
  if mSigEn m then s1.addFrom c (mSigCtr m) (mSigAdd m) else s1

/-- Free the presented entry of a queue: it is accepted. -/
def State.popQ (s : State) (c q : Nat) : State :=
  (s.traceRec c q 1 (match (s.queue c q).head with | some m => mMop m | none => 0) 0 0).modQueue c q EngQ.pop

/-- The queue code of stream engine `e`. -/
def seQueue (e : Nat) : Nat := 2 + e

/-- Mop values an engine queue assigns (Tables 4.3, 5.1, 6.3, 8.3). -/
def mopKnown (q mop : Nat) : Bool :=
  if q = 0 then mop == 1 || mop == 2
  else if q = 1 then (1 ≤ mop && mop ≤ 4) || mop == 8
  else if q ≤ 5 then mop == 1 || mop == 2
  else 1 ≤ mop && mop ≤ 5

/-- Is a request of a stream engine still held in its outbound register (R207)? -/
def Se.inHeld (x : Se) (id : Nat) : Bool := match x.held with | some h => h.id == id | none => false

/-- A stream engine holds no macro-instruction and none of its work is on its way. -/
def Se.idle (x : Se) : Bool := x.entry.isNone && x.moves.isEmpty && x.reads.isEmpty && x.writes.isEmpty && x.acts.isEmpty

end Sys2Proof.Machine
end

