-- ==== Sys2Proof/Machine/Tensor.lean ====
section
/-! DEFINITION. Elements of tensors in a core's scratchpad: where an element lies (R45, R119-R121), reading it with its scale and its
poison, writing elements, spans and overlaps (R139). Shared by the matrix and the vector engine. -/

namespace Sys2Proof.Machine

/-- Indices of an element, dimension 0 first. -/
structure Ix where
  i0 : Nat := 0
  i1 : Nat := 0
  i2 : Nat := 0
  i3 : Nat := 0
  deriving DecidableEq, Repr

/-- Dimensions 0 and 1 exchanged. -/
def Ix.swap (x : Ix) : Ix := { x with i0 := x.i1, i1 := x.i0 }

/-- Stored indices of logical indices, and the other way round (R119). -/
def dStored (d : Nat) (x : Ix) : Ix := if dTrans d then x.swap else x

/-- Bit position in scratchpad of the element at stored indices `x`, in slot `slot` of a slice with origin `o` (R45, R117, R121). -/
def dBitPos (d slot : Nat) (o x : Ix) : Nat :=
  (8 * ((dBase d : Int) + slot * dSlotStride d + dRowOff d ((x.i1 : Int) - o.i1) ((x.i2 : Int) - o.i2) ((x.i3 : Int) - o.i3))
    + (fmtBits (dFmt d) : Int) * ((x.i0 : Int) - o.i0)).toNat

/-- The encoding in `n` bits at a bit position, and whether a byte of it is poisoned. -/
def Spad.bits (sp : Spad) (p n : Nat) : Nat × Bool :=
  (fld (sp.nat (p / 8) ((p % 8 + n + 7) / 8)) (p % 8) n, sp.bad (p / 8) ((p % 8 + n + 7) / 8))

/-- An element as read: its encoding, its scale byte (127 when not MX) and its poison. -/
structure Elem where
  enc : Nat := 0
  scale : Nat := 127
  bad : Bool := false
  deriving DecidableEq, Repr

/-- The scale byte at an address, and whether it is poisoned; outside the scratchpad the spec states no value (R120). (DESIGN CHOICE, log entry 29) -/
def Spad.scaleAt (sp : Spad) (a : Int) : Nat × Bool :=
  if 0 ≤ a && a < (spadSize : Int) then ((sp.mem.read a.toNat).toNat, sp.badAt a.toNat) else ((Config.strayScale a).toNat, false)

/-- Read the element at stored indices. -/
def Spad.elem (sp : Spad) (d slot : Nat) (o x : Ix) : Elem :=
  let e := sp.bits (dBitPos d slot o x) (fmtBits (dFmt d))
  if fmtMx (dFmt d) then
    let t := sp.scaleAt (dScaleAddr d x.i0 x.i1 x.i2 x.i3)
    { enc := e.1, scale := t.1, bad := e.2 || t.2 }
  else { enc := e.1, bad := e.2 }

/-- The value of an element of format `f` (R52). -/
def Elem.value (e : Elem) (f : Nat) : FVal := if fmtMx f then mxValue f e.enc e.scale else decodeElem f e.enc

/-- One element to write: bit position, width, encoding, poison. -/
structure ElemWrite where
  pos : Nat
  width : Nat
  enc : Nat
  bad : Bool
  deriving DecidableEq, Repr

/-- The writes of the element at stored indices: the element, and zero padding behind the last element of a row (R45). -/
def dWrite (d slot : Nat) (o x : Ix) (enc : Nat) (bad : Bool) : List ElemWrite :=
  let p := dBitPos d slot o x
  let n := fmtBits (dFmt d)
  let pad := 8 * rowBytes n (dExt d 0) - n * dExt d 0
  { pos := p, width := n, enc := enc, bad := bad } ::
    (if x.i0 + 1 = dExt d 0 && pad != 0 then [{ pos := p + n, width := pad, enc := 0, bad := bad }] else [])

/-- Replace bits of memory. -/
def Memory.putBits (m : Memory) (w : ElemWrite) : Memory :=
  let a := w.pos / 8
  let n := (w.pos % 8 + w.width + 7) / 8
  let old := leNat (m.readBytes a n)
  let sh := w.pos % 8
  let v := old - fld old sh w.width * 2 ^ sh + w.enc % 2 ^ w.width * 2 ^ sh
  m.writeBytes a (leBytes n v)

/-- Bytes a write touches. -/
def ElemWrite.bytes (w : ElemWrite) : List Nat := (List.range ((w.pos % 8 + w.width + 7) / 8)).map (w.pos / 8 + ·)

/-- Write elements as one write (R190): a word with a poisoned element is marked; a word covered whole by clean data is cleared. (DEDUCED, log entry 30) -/
def Spad.putElems (sp : Spad) (ws : List ElemWrite) : Spad :=
  let touched := ws.foldl (fun (t : NSet) w => w.bytes.foldl NSet.add t) []
  let badBytes := ws.foldl (fun (t : NSet) w => if w.bad then w.bytes.foldl NSet.add t else t) []
  let words := touched.foldl (fun (t : NSet) a => NSet.add t (a / 4)) []
  { sp with
    mem := ws.foldl Memory.putBits sp.mem
    poison := words.foldl (fun p w =>
      if NSet.hasRange badBytes (4 * w) 4 then NSet.add p w
      else if (List.range 4).all (fun j => NSet.has touched (4 * w + j)) then NSet.rem p w else p) sp.poison }

/-- The words that element writes touch, in order, as (word address, byte mask, poisoned); elements that follow one another in a word are
one write of it. (DESIGN CHOICE, log entry 138) -/
def elemWords (ws : List ElemWrite) : List (Nat × Nat × Bool) :=
  (ws.flatMap (fun w => w.bytes.map (fun a => (a, w.bad)))).foldr (fun b l =>
    let m := 2 ^ (b.1 % 4)
    match l with
    | (w, k, bad) :: t => if w = b.1 / 4 * 4 then (w, k ||| m, bad || b.2) :: t else (b.1 / 4 * 4, m, b.2) :: l
    | [] => [(b.1 / 4 * 4, m, b.2)]) []

/-- Element writes of a core in its own scratchpad, which enter out_crc (R350). (DESIGN CHOICE, log entry 138) -/
def State.storeElems (s : State) (c : Nat) (ws : List ElemWrite) : State :=
  let s1 := s.modSpad c (fun sp => sp.putElems ws)
  match s.vatOfCore c with
  | none => s1
  | some v =>
    let x := s.vat v
    if x.st == .running && !x.det.wmRange.isEmpty then
      let sum := (elemWords ws).foldl (fun t w =>
        let a := s.spadAddr c w.1
        if inWmRange x.det.wmRange a then
          t + crc64 (leBytes 6 a ++ [BitVec.ofNat 8 w.2.1, if w.2.2 then 1 else 0]
            ++ (List.range 4).map (fun j => if bit w.2.1 j then (s1.spad c).mem.read (w.1 + j) else 0))
        else t) 0
      s1.setVat v { x with det := { x.det with outCrc := x.det.outCrc + BitVec.ofNat 64 sum } }
    else s1

/-- Count and report the bank errors met by reads of the bytes at the addresses given, each bank word once (R189). -/
def State.noteBytes (s : State) (c : Nat) (as : List Nat) : State :=
  if (s.spad c).ue.isEmpty && (s.spad c).ce.isEmpty then s
  else (as.foldl (fun (t : NSet) a => NSet.add t (a / 16)) []).foldl (fun s w => s.noteRead c (16 * w) 16) s

/-- Byte addresses of an element's encoding and scale. -/
def elemBytes (d slot : Nat) (o x : Ix) : List Nat :=
  let p := dBitPos d slot o x
  ((List.range ((p % 8 + fmtBits (dFmt d) + 7) / 8)).map (p / 8 + ·))
    ++ (if fmtMx (dFmt d) then [(dScaleAddr d x.i0 x.i1 x.i2 x.i3).toNat] else [])

/-! ## Spans and overlaps -/

/-- The range `[lo, hi)` of row offsets from the base over extents `e1 e2 e3` with rows of `row` bytes. -/
def offRange (d : Nat) (row : Nat) (e1 e2 e3 : Nat) : Int × Int :=
  let part := fun (s : Int) (e : Nat) => (min 0 (s * ((e : Int) - 1)), max 0 (s * ((e : Int) - 1)))
  let a := part (dStride d 1) e1
  let b := part (dStride d 2) e2
  let c := part (dStride d 3) e3
  (a.1 + b.1 + c.1, a.2 + b.2 + c.2 + row)

/-- The span of a descriptor: lowest byte and one past the highest (R139); a ring's runs over its slots. -/
def dSpan (d : Nat) : Int × Int :=
  if dNbuf d = 0 then
    let r := offRange d (rowBytes (fmtBits (dFmt d)) (dExt d 0)) (dExt d 1) (dExt d 2) (dExt d 3)
    ((dBase d : Int) + r.1, (dBase d : Int) + r.2)
  else ((dBase d : Int), (dBase d : Int) + dNbuf d * dSlotStride d)

/-- The bytes of an MX descriptor's scale array (R120), which is no part of its span. -/
def dScaleSpan (d : Nat) : Int × Int :=
  let j := fun i => dScaleIdx d i (dExt d i - 1)
  let part := fun (s : Int) (n : Nat) => (min 0 (s * n), max 0 (s * n))
  let a := part (dSStride d 1) (j 1)
  let b := part (dSStride d 2) (j 2)
  let c := part (dSStride d 3) (j 3)
  ((dScaleBase d : Int) + a.1 + b.1 + c.1, (dScaleBase d : Int) + j 0 + a.2 + b.2 + c.2 + 1)

/-- Do two byte ranges share a byte? -/
def overlap (a b : Int × Int) : Bool := decide (a.1 < b.2) && decide (b.1 < a.2)

/-- Does a byte range lie in `[0, top)`? -/
def rangeIn (a : Int × Int) (top : Nat) : Bool := decide (0 ≤ a.1) && decide (a.2 ≤ (top : Int))

/-- The span of a tensor lies in `[0, 0x7C000)` (R139). -/
def dInside (d : Nat) : Bool := rangeIn (dSpan d) 0x7C000

/-- Integers of `(-n, n)`. -/
def diffs (n : Nat) : List Int := (List.range (2 * n - 1)).map (fun i => Int.ofNat i - ((n : Int) - 1))

/-- Do elements of a tensor overlap one another, over extents `e1 e2 e3`? Two rows overlap when their offsets differ by less than a row. -/
def dSelfOverlap (d row e1 e2 e3 : Nat) : Bool :=
  (diffs e3).any (fun k => (diffs e2).any (fun j => (diffs e1).any (fun i =>
    !(i == 0 && j == 0 && k == 0) && decide ((dRowOff d i j k).natAbs < row))))

/-- Does a slice of extents `e0 … e3` lie within its slot (R121)? -/
def sliceInSlot (d e0 e1 e2 e3 : Nat) : Bool :=
  let r := offRange d (rowBytes (fmtBits (dFmt d)) e0) e1 e2 e3
  decide (0 ≤ r.1) && decide (r.2 ≤ (dSlotStride d : Int))

/-- Linear index of logical indices in a descriptor's logical shape (R70). -/
def dLinear (d : Nat) (x : Ix) : Nat := x.i0 + dLExt d 0 * (x.i1 + dLExt d 1 * (x.i2 + dLExt d 2 * x.i3))

end Sys2Proof.Machine
end

