-- ==== Sys2Proof/Machine/MatOps.lean ====
section
/-! DEFINITION. The matrix engine and its tile sequencer (Chapter 4): fields and checks of a MATMUL, the walk, one step, drains, parks and
ring slots. -/

namespace Sys2Proof.Machine

/-! ## The body (Table 4.4) -/

def mmTd (m i : Nat) : Nat := fld m (32 + 8 * i) 8
def mmAccIn (m : Nat) : Bool := bit m 72
def mmStatA (m : Nat) : Bool := bit m 73
def mmRnd (m : Nat) : Nat := fld m 74 2
def mmOvf (m : Nat) : Nat := fld m 76 1
def mmAnchor (m : Nat) : Int := sfld m 80 10
def mmShift (m : Nat) : Int := sfld m 96 8
def mmSr (m : Nat) : Nat := fld m 104 16
def mmLoTile (m : Nat) : Nat := fld m 120 3
def mmLoBlock (m : Nat) : Nat := fld m 124 3
def mmLoStream (m : Nat) : Nat := fld m 128 3
/-- Block size on axis 0 M, 1 N, 2 K. -/
def mmBlk (m i : Nat) : Nat := fld m (136 + 8 * i) 6
def mmStr (m i : Nat) : Nat := fld m (160 + 8 * i) 6
def mmDyn (m i : Nat) : Bool := bit m (184 + i)
def mmDynAddr (m : Nat) : Nat := 128 * fld m 188 12
def mmParkEn (m : Nat) : Bool := bit m 200
def mmPark (m : Nat) : Nat := 4096 * fld m 208 7
/-- Is the macro-instruction MATMUL.SP? -/
def mmSparse (m : Nat) : Bool := fld m 0 8 == 2

/-- Reserved fields and encodings of the body (Table 4.8, check 2). -/
def mmBodyOk (m : Nat) : Bool :=
  [(77, 3), (90, 6), (123, 1), (127, 1), (131, 5), (142, 2), (150, 2), (158, 2), (166, 2), (174, 2), (182, 2), (187, 1), (201, 7), (215, 41)].all
    (fun p => fld m p.1 p.2 == 0)
  && mmLoTile m ≤ 5 && mmLoBlock m ≤ 5 && mmLoStream m ≤ 5 && mmRnd m != 3
  && (List.range 3).all (fun i => mmBlk m i != 0 || mmStr m i == 0)
  && (mmSparse m || mmTd m 3 == 0) && (mmAccIn m || mmTd m 4 == 0)
  && (fld m 184 3 != 0 || fld m 188 12 == 0) && (mmParkEn m || fld m 208 7 == 0)

/-! ## Pairings (R57, Table 4.1) -/

/-- A narrow floating-point format or its MX form. -/
def fmtNarrowFp (f : Nat) : Bool := 3 ≤ fmtElem f && fmtElem f ≤ 7 && (f ≤ 7 || fmtMx f)

/-- A pairing the matrix engine multiplies (R57). -/
def pairOk (a b : Nat) : Bool :=
  (fmtNarrowFp a && fmtNarrowFp b) || (a == 8 && b == 8) || (a == 0x18 && b == 0x18) || (a == b && a ≤ 2)

/-- The exact path. -/
def pairExact (a : Nat) : Bool := a > 2

/-- K positions of a step. -/
def pairKT (a b : Nat) (sparse : Bool) : Nat :=
  let dense := if a == 0 then 2 else if a ≤ 2 then 16
    else if 5 ≤ fmtElem a && fmtElem a ≤ 7 && 5 ≤ fmtElem b && fmtElem b ≤ 7 then 64 else 32
  if sparse then 2 * dense else dense

/-! ## A MATMUL with its descriptors -/

/-- A MATMUL as accepted: the body and its descriptors. -/
structure MM where
  m : Nat := 0
  a : Nat := 0
  b : Nat := 0
  c : Nat := 0
  meta_ : Nat := 0
  acc : Nat := 0
  deriving DecidableEq, Repr

def MM.kt (q : MM) : Nat := pairKT (dFmt q.a) (dFmt q.b) (mmSparse q.m)
def MM.exact (q : MM) : Bool := pairExact (dFmt q.a)
/-- Tile size on axis 0 M, 1 N, 2 K. -/
def MM.tile (q : MM) (i : Nat) : Nat := if i = 2 then q.kt else 32
/-- Dense K extent. -/
def MM.k (q : MM) : Nat := if mmStatA q.m then dLExt q.b 1 else dLExt q.a 0
/-- Extent on axis 0 M, 1 N, 2 K. -/
def MM.ext (q : MM) (i : Nat) : Nat := if i = 0 then dLExt q.c 1 else if i = 1 then dLExt q.c 0 else q.k
/-- Batches of C. -/
def MM.nb (q : MM) : Nat := dLExt q.c 2 * dLExt q.c 3
/-- Descriptors the MATMUL names. -/
def MM.named (q : MM) : List Nat :=
  [q.a, q.b, q.c] ++ (if mmSparse q.m then [q.meta_] else []) ++ (if mmAccIn q.m then [q.acc] else [])

/-- An extent rounded up to whole tiles. -/
def MM.padExt (q : MM) (i : Nat) : Nat := cdiv (q.ext i) (q.tile i) * q.tile i

/-- The bucket table of a dimension (Table 4.6). -/
def bucketsOf (sp : Spad) (addr i : Nat) : List Nat := (List.range 8).map (fun j => sp.nat (addr + 32 + 32 * i + 4 * j) 4)

/-- A well-formed bucket table (R134). -/
def bucketsOk (l : List Nat) (unit top : Nat) : Bool :=
  let nz := l.takeWhile (· != 0)
  nz != [] && (l.drop nz.length).all (· == 0) && nz.all (fun x => x % unit == 0 && x ≤ top)
  && (nz.zip nz.tail).all (fun p => p.1 < p.2)

/-- The bucket chosen for an actual size: the smallest entry not below it (R135). -/
def bucketFor (l : List Nat) (n : Nat) : Option Nat := (l.takeWhile (· != 0)).find? (fun x => n ≤ x)

/-- Padded size on an axis. -/
def MM.padded (q : MM) (sp : Spad) (i : Nat) : Nat :=
  if mmDyn q.m i then (bucketFor (bucketsOf sp (mmDynAddr q.m) i) (sp.nat (mmDynAddr q.m + 4 * i) 4)).getD 0 else q.padExt i

/-- Valid size on an axis (R136). -/
def MM.validSize (q : MM) (sp : Spad) (i : Nat) : Nat := if mmDyn q.m i then sp.nat (mmDynAddr q.m + 4 * i) 4 else q.ext i

/-! ## The walk (R128-R130) -/

/-- One step: batch, tile indices and chunk indices. -/
structure MStep where
  b : Nat
  tm : Nat
  tn : Nat
  tk : Nat
  cm : Nat
  cn : Nat
  ck : Nat
  deriving DecidableEq, Repr

/-- walk(code, em, en, ek) of R130. -/
def loopWalk (code em en ek : Nat) : List (Nat × Nat × Nat) :=
  let r := List.range
  match code with
  | 0 => (r em).flatMap fun m => (r en).flatMap fun n => (r ek).map fun k => (m, n, k)
  | 1 => (r em).flatMap fun m => (r ek).flatMap fun k => (r en).map fun n => (m, n, k)
  | 2 => (r en).flatMap fun n => (r em).flatMap fun m => (r ek).map fun k => (m, n, k)
  | 3 => (r en).flatMap fun n => (r ek).flatMap fun k => (r em).map fun m => (m, n, k)
  | 4 => (r ek).flatMap fun k => (r em).flatMap fun m => (r en).map fun n => (m, n, k)
  | _ => (r ek).flatMap fun k => (r en).flatMap fun n => (r em).map fun m => (m, n, k)

/-- Chunk size in tiles on an axis of `t` tiles. -/
def chunkOf (m i t : Nat) : Nat := if mmStr m i = 0 then t else mmStr m i * mmBlk m i
/-- Block size in tiles. -/
def blockOf (m i t : Nat) : Nat := if mmBlk m i = 0 then chunkOf m i t else mmBlk m i

/-- The steps of a MATMUL in order, for axes of `tm tn tk` tiles (R130). -/
def matSteps (m nb tm tn tk : Nat) : List MStep :=
  let cM := chunkOf m 0 tm
  let cN := chunkOf m 1 tn
  let cK := chunkOf m 2 tk
  let bM := blockOf m 0 tm
  let bN := blockOf m 1 tn
  let bK := blockOf m 2 tk
  (List.range nb).flatMap fun b =>
  (loopWalk (mmLoStream m) (cdiv tm cM) (cdiv tn cN) (cdiv tk cK)).flatMap fun (cm, cn, ck) =>
    let xm := min cM (tm - cm * cM)
    let xn := min cN (tn - cn * cN)
    let xk := min cK (tk - ck * cK)
    (loopWalk (mmLoBlock m) (cdiv xm bM) (cdiv xn bN) (cdiv xk bK)).flatMap fun (bm, bn, bk) =>
      (loopWalk (mmLoTile m) (min bM (xm - bm * bM)) (min bN (xn - bn * bN)) (min bK (xk - bk * bK))).map fun (jm, jn, jk) =>
        { b := b, tm := cm * cM + bm * bM + jm, tn := cn * cN + bn * bN + jn, tk := ck * cK + bk * bK + jk, cm := cm, cn := cn, ck := ck }

/-- Does the walk leave an output tile before its last K step (R132)? -/
def walkParks (steps : List MStep) (tk : Nat) : Bool :=
  let tileNo := fun (x : MStep) => (x.b, x.tm, x.tn)
  (steps.foldl (fun (acc : Table Nat × Option MStep × Bool) x =>
    let (cnt, prev, p) := acc
    let key := fun (y : MStep) => (y.b * 2 ^ 48 + y.tm * 2 ^ 24 + y.tn)
    let left := match prev with | some y => tileNo y != tileNo x && cnt.get 0 (key y) < tk | none => false
    (cnt.put (key x) (cnt.get 0 (key x) + 1), some x, p || left)) ([], none, false)).2.2

/-! ## The checks of Table 4.8 -/

/-- The stored dimension a logical dimension of a descriptor is. -/
def storedDim (d i : Nat) : Nat := if dTrans d && i < 2 then 1 - i else i

/-- Check 3: formats. -/
def MM.formatsOk (q : MM) (sp : Spad) : Bool :=
  let fa := dFmt q.a
  let fb := dFmt q.b
  let fc := dFmt q.c
  let ex := q.exact
  let stat := if mmStatA q.m then q.a else q.b
  pairOk fa fb && !fmtMx fc && (ex || fc != 10)
  && (ex || (fld q.m 80 10 == 0 && fld q.m 96 8 == 0))
  && (!fmtMx fa || (dBlkOff q.a == 0 && dBaxis q.a == storedDim q.a 0))
  && (!fmtMx fb || (dBlkOff q.b == 0 && dBaxis q.b == storedDim q.b 1))
  && (!mmAccIn q.m || dFmt q.acc == (if ex then 10 else 0))
  && (!mmSparse q.m || (dFmt q.meta_ == 8 && ex && !fmtMx (dFmt stat) && q.k % q.kt == 0
      && (!mmDyn q.m 2 || (bucketsOf sp (mmDynAddr q.m) 2).all (fun x => x % q.kt == 0))))

/-- Check 4: dimensions and rings. -/
def MM.dimsOk (q : MM) : Bool :=
  let sp := mmSparse q.m
  let stat := if mmStatA q.m then q.a else q.b
  dLExt q.a 1 == dLExt q.c 1 && dLExt q.b 0 == dLExt q.c 0
  && (if sp then 2 * (if mmStatA q.m then dLExt q.a 0 else dLExt q.b 1) == q.k else dLExt q.a 0 == dLExt q.b 1)
  && [2, 3].all (fun i => dLExt q.a i == dLExt q.c i && (dLExt q.b i == dLExt q.c i || dLExt q.b i == 1))
  && (!mmAccIn q.m || (dNbuf q.acc == 0 && (List.range 4).all (fun i => dLExt q.acc i == dLExt q.c i)))
  && (!sp || (dNbuf q.meta_ == 0
      && (let kd := if mmStatA q.m then 0 else 1
          (List.range 4).all (fun i => if i = kd then dLExt q.meta_ i == q.k / 8 else dLExt q.meta_ i == dLExt stat i))))
  && (dNbuf q.c == 0 || mmLoStream q.m == 0 || mmLoStream q.m == 2)

/-- Tiles on an axis of a given padded size. -/
def MM.tiles (q : MM) (padded : Nat → Nat) (i : Nat) : Nat := padded i / q.tile i

/-- Full chunk size on an axis, in elements, cut to the extent. -/
def MM.chunkEl (q : MM) (padded : Nat → Nat) (i : Nat) : Nat :=
  min (chunkOf q.m i (q.tiles padded i) * q.tile i) (q.ext i)

/-- Logical extents of a full slice of ring operand 0 A, 1 B, 2 C, as stored extents e0, e1. -/
def MM.sliceExt (q : MM) (padded : Nat → Nat) (op : Nat) : Nat × Nat :=
  let half := fun (isStat : Bool) (k : Nat) => if mmSparse q.m && isStat then k / 2 else k
  let (d, l0, l1) :=
    if op = 0 then (q.a, half (mmStatA q.m) (q.chunkEl padded 2), q.chunkEl padded 0)
    else if op = 1 then (q.b, q.chunkEl padded 1, half (!mmStatA q.m) (q.chunkEl padded 2))
    else (q.c, q.chunkEl padded 1, q.chunkEl padded 0)
  if dTrans d then (l1, l0) else (l0, l1)

/-- The descriptor of operand 0 A, 1 B, 2 C. -/
def MM.opDesc (q : MM) (op : Nat) : Nat := if op = 0 then q.a else if op = 1 then q.b else q.c

/-- Bytes of the park area. -/
def MM.parkSpan (q : MM) (padded : Nat → Nat) : Int × Int :=
  let n := q.tiles padded 0 * q.tiles padded 1 * q.nb * (if q.exact then 16384 else 4096)
  ((mmPark q.m : Int), (mmPark q.m : Int) + n)

/-- Check 8: places in the scratchpad. -/
def MM.rangesOk (q : MM) (padded : Nat → Nat) : Bool :=
  let others := [q.a, q.b] ++ (if mmSparse q.m then [q.meta_] else [])
  let ps := q.parkSpan padded
  let sc := q.sliceExt padded 2
  q.named.all (fun d => !dSpace d && dInside d)
  && (!mmParkEn q.m || rangeIn ps 0x7C000)
  && (List.range 3).all (fun op => dNbuf (q.opDesc op) == 0 ||
      sliceInSlot (q.opDesc op) (q.sliceExt padded op).1 (q.sliceExt padded op).2 1 1)
  && (if dNbuf q.c = 0 then !dSelfOverlap q.c (rowBytes (fmtBits (dFmt q.c)) (dExt q.c 0)) (dExt q.c 1) (dExt q.c 2) (dExt q.c 3)
      else !dSelfOverlap q.c (rowBytes (fmtBits (dFmt q.c)) sc.1) sc.2 1 1)
  && others.all (fun d => !overlap (dSpan d) (dSpan q.c))
  && (!mmAccIn q.m || mmTd q.m 4 == mmTd q.m 2 || !overlap (dSpan q.acc) (dSpan q.c))
  && (!mmParkEn q.m || q.named.all (fun d => !overlap (dSpan d) ps))

/-- Check 9: ring counters. -/
def State.matRights (s : State) (c : Nat) (q : MM) : Bool :=
  [q.a, q.b].all (fun d => dNbuf d == 0 || (s.mayTest c (dRdy d) && s.mayAdd c (dFree d)))
  && (dNbuf q.c == 0 || (s.mayTest c (dFree q.c) && s.mayAdd c (dRdy q.c)))

/-- The checks of Table 4.8 in order: OK, or the status of the first that fails. `bad a n` tells poison. -/
def State.matCheck (s : State) (c : Nat) (q : MM) : Nat :=
  let sp := s.spad c
  let m := q.m
  let tds := [mmTd m 0, mmTd m 1, mmTd m 2] ++ (if mmSparse m then [mmTd m 3] else []) ++ (if mmAccIn m then [mmTd m 4] else [])
  let dims := (List.range 3).filter (mmDyn m)
  let da := mmDynAddr m
  let padded := q.padded sp
  if tds.any (fun t => sp.bad (descAt t) 64) || dims.any (fun i => sp.bad (da + 4 * i) 4 || sp.bad (da + 32 + 32 * i) 32) then ePoison
  else if !mmBodyOk m || !q.named.all descOk then eFormat
  else if !q.formatsOk sp then eFormat
  else if !q.dimsOk then eFormat
  else if !dims.all (fun i => bucketsOk (bucketsOf sp da i) (if i = 2 then q.kt else 32) (q.padExt i)) then eFormat
  else if !dims.all (fun i => (bucketFor (bucketsOf sp da i) (sp.nat (da + 4 * i) 4)).isSome && sp.nat (da + 4 * i) 4 ≤ q.ext i) then eRange
  else if !mmParkEn m && walkParks (matSteps m q.nb (q.tiles padded 0) (q.tiles padded 1) (q.tiles padded 2)) (q.tiles padded 2) then eFormat
  else if !q.rangesOk padded then eRange
  else if !s.matRights c q then ePermission
  else eOk

/-! ## One step (R131) -/

/-- The MATMUL a matrix engine holds. -/
def Mat.mm (x : Mat) : MM :=
  { m := (x.entry.map (·.toNat)).getD 0, a := x.descs.get 0 0, b := x.descs.get 0 1, c := x.descs.get 0 2, meta_ := x.descs.get 0 3, acc := x.descs.get 0 4 }

/-- Tiles on an axis. -/
def Mat.t (x : Mat) (i : Nat) : Nat := x.padded.get 0 i / x.mm.tile i

/-- All its steps. -/
def Mat.steps (x : Mat) : List MStep := matSteps x.mm.m x.mm.nb (x.t 0) (x.t 1) (x.t 2)

/-- The slice key of operand `op` at a step (R133). -/
def sliceKey (op : Nat) (st : MStep) : Nat × Nat × Nat :=
  if op = 0 then (st.b, st.cm, st.ck) else if op = 1 then (st.b, st.ck, st.cn) else (st.b, st.cm, st.cn)

/-- The slice an operand has entered. -/
def Mat.inSlice (x : Mat) (op : Nat) : Option (Nat × Nat × Nat) := (x.slice.find? (fun p => p.1 == op)).map (·.2)

/-- Does a ring operand still have to enter the slice of a step? -/
def Mat.mustEnter (x : Mat) (op : Nat) (st : MStep) : Bool :=
  dNbuf (x.mm.opDesc op) != 0 && x.inSlice op != some (sliceKey op st)

/-- The ring test of one operand on entering a slice (R133). -/
def State.enterSlice (s : State) (c : Nat) (st : MStep) (op : Nat) : State :=
  let x := s.mat c
  if !x.mustEnter op st then s
  else
    let d := x.mm.opDesc op
    let ctr := if op = 2 then dFree d else dRdy d
    if 1 ≤ s.ctr ctr then
      let before := (x.inSlice op).isSome
      (s.decCtr ctr 1).modMat c (fun y =>
        { y with slice := y.slice.put op (sliceKey op st),
                 slots := y.slots.put op (if before then (y.slots.get 0 op + 1) % dNbuf d else 0),
                 toFree := if before && op != 2 then NSet.add y.toFree op else y.toFree })
    else s

/-- Free the previous slices of the input rings (R133). -/
def State.freeSlices (s : State) (c : Nat) : State :=
  let l := (s.mat c).toFree
  l.foldl (fun s op => s.addFrom c (dFree ((s.mat c).mm.opDesc op)) 1) (s.modMat c (fun y => { y with toFree := [] }))

/-- Batch indices of logical dimensions 2 and 3. -/
def MM.batch (q : MM) (b : Nat) : Nat × Nat := (b % dLExt q.c 2, b / dLExt q.c 2)

/-- Logical origin of a ring slice; zero for a descriptor that is no ring. -/
def Mat.origin (x : Mat) (op : Nat) (st : MStep) : Ix :=
  let q := x.mm
  if dNbuf (q.opDesc op) = 0 then {}
  else
    let m0 := st.cm * chunkOf q.m 0 (x.t 0) * 32
    let n0 := st.cn * chunkOf q.m 1 (x.t 1) * 32
    let k0 := st.ck * chunkOf q.m 2 (x.t 2) * q.kt
    let half := fun (isStat : Bool) => if mmSparse q.m && isStat then k0 / 2 else k0
    let (b2, b3) := q.batch st.b
    let bb := fun i v => if dLExt q.b i = 1 then 0 else v
    if op = 0 then { i0 := half (mmStatA q.m), i1 := m0, i2 := b2, i3 := b3 }
    else if op = 1 then { i0 := n0, i1 := half (!mmStatA q.m), i2 := bb 2 b2, i3 := bb 3 b3 }
    else { i0 := n0, i1 := m0, i2 := b2, i3 := b3 }

/-- Slot and origin of an operand, and the stored index of a logical one. -/
def Mat.place (x : Mat) (op : Nat) (st : MStep) (ix : Ix) : Nat × Nat × Ix × Ix :=
  let d := x.mm.opDesc op
  (d, x.slots.get 0 op, dStored d (x.origin op st), dStored d ix)

/-- One product: the K position, its factors' values and its poison. -/
structure Prod1 where
  k : Nat
  a : FVal
  b : FVal
  bad : Bool
  deriving DecidableEq, Repr

/-- Logical index of A's element (m, k) and of B's element (k, n) in batch `b`. -/
def MM.ixA (q : MM) (b m k : Nat) : Ix := { i0 := k, i1 := m, i2 := (q.batch b).1, i3 := (q.batch b).2 }
def MM.ixB (q : MM) (b k n : Nat) : Ix :=
  { i0 := n, i1 := k, i2 := if dLExt q.b 2 = 1 then 0 else (q.batch b).1, i3 := if dLExt q.b 3 = 1 then 0 else (q.batch b).2 }

/-- The metadata element of the stationary operand's element `k'` in a row or column (R137). -/
def Mat.metaElem (x : Mat) (sp : Spad) (st : MStep) (m n k' : Nat) : Elem :=
  let q := x.mm
  let ix : Ix := if mmStatA q.m then { q.ixA st.b m (k' / 4) with i0 := k' / 4 } else { q.ixB st.b (k' / 4) n with i1 := k' / 4 }
  sp.elem q.meta_ 0 {} (dStored q.meta_ ix)

/-- Is a metadata byte of a step poisoned that covers a position below the valid K: it poisons every output of its row or column (R141)? -/
def Mat.metaBad (x : Mat) (sp : Spad) (st : MStep) (m n : Nat) : Bool :=
  let q := x.mm
  mmSparse q.m && (List.range (q.kt / 2)).any (fun j =>
    let k' := st.tk * (q.kt / 2) + j
    decide (8 * (k' / 4) < x.valid.get 0 2) && (x.metaElem sp st m n k').bad)

/-- The K positions of a step as (stored index of the stationary operand, dense position); elements beyond the valid K are masked
(R136, R137). -/
def Mat.kList (x : Mat) (sp : Spad) (st : MStep) (m n : Nat) : List (Nat × Nat) :=
  let q := x.mm
  let vk := x.valid.get 0 2
  if mmSparse q.m then
    ((List.range (q.kt / 2)).map (fun j => st.tk * (q.kt / 2) + j)).filterMap (fun k' =>
      if 4 * (k' / 2) ≥ vk then none
      else
        let p := 4 * (k' / 2) + fld (x.metaElem sp st m n k').enc (2 * (k' % 4)) 2
        if p < vk then some (k', p) else none)
  else ((List.range q.kt).map (fun j => st.tk * q.kt + j)).filterMap (fun k => if k < vk then some (k, k) else none)

/-- The products of one output element in one step. -/
def Mat.products (x : Mat) (sp : Spad) (st : MStep) (m n : Nat) : List Prod1 :=
  let q := x.mm
  (x.kList sp st m n).map (fun (ks, k) =>
    let ka := if mmSparse q.m && mmStatA q.m then ks else k
    let kb := if mmSparse q.m && !mmStatA q.m then ks else k
    let (da, sa, oa, ia) := x.place 0 st (q.ixA st.b m ka)
    let (db, sb, ob, ib) := x.place 1 st (q.ixB st.b kb n)
    let ea := sp.elem da sa oa ia
    let eb := sp.elem db sb ob ib
    { k := k, a := ea.value (dFmt da), b := eb.value (dFmt db), bad := ea.bad || eb.bad })

/-- Split products into units (R58): blocks of 32 positions when an operand is MX, single products otherwise. -/
def unitsOf (mx : Bool) (kt k0 : Nat) (ps : List Prod1) : List (List Prod1) :=
  if mx then (List.range (kt / 32)).map (fun i => ps.filter (fun p => p.k / 32 == k0 / 32 + i)) else ps.map (fun p => [p])

/-- Accumulate a step exactly (R58, R59): the accumulator and the flags raised. -/
def accExact (mx : Bool) (kt k0 : Nat) (anchor : Int) (acc : Acc) (ps : List Prod1) : Acc × BitVec 8 :=
  (unitsOf mx kt k0 ps).foldl (fun (st : Acc × BitVec 8) u =>
    let us := u.foldl (fun (w : UnitSum) p => w.put p.a p.b) {}
    (st.1.addUnit anchor us, st.2 ||| us.flags)) (acc, 0)

/-- Flags of one rounding to FP32 of a sum, and its bits (R41, R48, R50). (DEDUCED, log entry 28) -/
def roundSum (v : FVal) (invalid : Bool) : Nat × BitVec 8 :=
  match v with
  | .nan => (fmtNanEnc 0, if invalid then fNanGen else 0)
  | x => let c := convert 0 0 1 0 x; (c.bits, c.flags)

/-- Add one slice of products to an FP32 accumulator with one rounding (R67). -/
def accSlice (acc : Nat) (ps : List (FVal × FVal)) : Nat × BitVec 8 :=
  let sum := ps.foldl (fun (t : FVal × Bool × BitVec 8) p =>
    let m := FVal.mul p.1 p.2
    let a := FVal.add t.1 m.1
    (a.1, t.2.1 || a.2, t.2.2 ||| (if p.1.isNan || p.2.isNan then fNanIn else if m.2 then fNanGen else 0))) (.fin true 0 0, false, 0)
  let r := FVal.add (f32 acc) sum.1
  let o := roundSum r.1 (sum.2.1 || r.2)
  (o.1, o.2 ||| sum.2.2)

/-- Accumulate a step on the FP32 path (R67): masked products are exact zeros. -/
def accWide (kt : Nat) (fp32 : Bool) (acc : Nat) (ps : List Prod1) : Nat × BitVec 8 :=
  let zero : FVal := .fin false 0 0
  let full := ps.map (fun p => (p.a, p.b)) ++ List.replicate (kt - ps.length) (zero, zero)
  if fp32 then full.foldl (fun (t : Nat × BitVec 8) p => let o := accSlice t.1 [p]; (o.1, t.2 ||| o.2)) (acc, 0)
  else accSlice acc full

/-- Rows and columns of a tile below the valid sizes, as (row, column, m, n). -/
def Mat.cells (x : Mat) (tm tn : Nat) : List (Nat × Nat × Nat × Nat) :=
  (List.range 32).flatMap (fun r => (List.range 32).filterMap (fun k =>
    let m := 32 * tm + r
    let n := 32 * tn + k
    if m < x.valid.get 0 0 && n < x.valid.get 0 1 then some (r, k, m, n) else none))

/-- Accumulate one step into the live tile: the accumulators and the flags raised. -/
def Mat.accumulate (x : Mat) (sp : Spad) (st : MStep) : Table MCell × BitVec 8 :=
  let q := x.mm
  let mx := fmtMx (dFmt q.a) || fmtMx (dFmt q.b)
  (x.cells st.tm st.tn).foldl (fun (t : Table MCell × BitVec 8) (r, k, m, n) =>
    let cell := t.1.get {} (32 * r + k)
    let ps := x.products sp st m n
    let bad := cell.bad || ps.any (·.bad) || x.metaBad sp st m n
    if q.exact then
      let o := accExact mx q.kt (st.tk * q.kt) (mmAnchor q.m) (Acc.ofRecord cell.bits) ps
      (t.1.put (32 * r + k) { bits := o.1.record (mmAnchor q.m), bad := bad }, t.2 ||| o.2)
    else
      let o := accWide q.kt (dFmt q.a == 0) cell.bits ps
      (t.1.put (32 * r + k) { bits := o.1, bad := bad }, t.2 ||| o.2)) (x.acc, 0)

/-- Bytes of operands a step reads, for R189. -/
def Mat.stepBytes (x : Mat) (st : MStep) : List Nat :=
  let q := x.mm
  let ks := (List.range q.kt).map (fun j => st.tk * q.kt + j) |>.filter (fun k => k < x.valid.get 0 2)
  let half := fun (isStat : Bool) (k : Nat) => if mmSparse q.m && isStat then k / 2 else k
  let rows := (List.range 32).map (32 * st.tm + ·) |>.filter (fun m => m < x.valid.get 0 0)
  let cols := (List.range 32).map (32 * st.tn + ·) |>.filter (fun n => n < x.valid.get 0 1)
  let at_ := fun (op : Nat) (ix : Ix) => let (d, sl, o, i) := x.place op st ix; elemBytes d sl o i
  rows.flatMap (fun m => ks.flatMap (fun k => at_ 0 (q.ixA st.b m (half (mmStatA q.m) k))))
    ++ cols.flatMap (fun n => ks.flatMap (fun k => at_ 1 (q.ixB st.b (half (!mmStatA q.m) k) n)))

/-- Slot of an output tile (R131). -/
def Mat.tileSlot (x : Mat) (b tm tn : Nat) : Nat := (b * x.t 0 + tm) * x.t 1 + tn

/-- Bytes of one parked accumulator. -/
def MM.cellBytes (q : MM) : Nat := if q.exact then 16 else 4

/-- Address of cell `i` of a tile in the park area (R131). -/
def Mat.parkAt (x : Mat) (slot i : Nat) : Nat := mmPark x.mm.m + slot * 1024 * x.mm.cellBytes + x.mm.cellBytes * i

/-- The content of a cell as parked: an ACC96 record or FP32 bits. -/
def Mat.parkBits (x : Mat) (i : Nat) : Nat :=
  let b := (x.acc.get {} i).bits
  if x.mm.exact then (Acc.ofRecord b).record (mmAnchor x.mm.m) else b

/-- Park the live tile (R131). -/
def State.matPark (s : State) (c slot : Nat) : State :=
  let x := s.mat c
  (s.storeElems c ((List.range 1024).map (fun i =>
      { pos := 8 * x.parkAt slot i, width := 8 * x.mm.cellBytes, enc := x.parkBits i, bad := (x.acc.get {} i).bad }))).modMat c
    (fun y => { y with parked := NSet.add y.parked slot, parks := satAdd top16 y.parks 1 })

/-- The accumulators of a parked tile (R131). -/
def Mat.unpark (x : Mat) (sp : Spad) (slot : Nat) : Table MCell :=
  (List.range 1024).map (fun i =>
    let e := sp.bits (8 * x.parkAt slot i) (8 * x.mm.cellBytes)
    (i, { bits := e.1, bad := e.2 }))

/-- The initial accumulators of a tile from td_acc (R127). -/
def Mat.initAcc (x : Mat) (sp : Spad) (st : MStep) : Table MCell :=
  let q := x.mm
  (x.cells st.tm st.tn).map (fun (r, k, m, n) =>
    let ix : Ix := { i0 := n, i1 := m, i2 := (q.batch st.b).1, i3 := (q.batch st.b).2 }
    let e := sp.elem q.acc 0 {} (dStored q.acc ix)
    (32 * r + k, { bits := e.enc, bad := e.bad }))

/-- Does an initial ACC96 record break R127? -/
def Mat.initBad (x : Mat) (t : Table MCell) : Bool :=
  x.mm.exact && t.any (fun p => recordAnchor p.2.bits != mmAnchor x.mm.m || recordReserved p.2.bits)

/-- Drain one accumulator (R126): the exact path by R64, the FP32 path by R47-R51, into FP32 too (R42; DEDUCED, log entry 143). -/
def MM.drainCell (q : MM) (bits r : Nat) : Conv :=
  if q.exact then (Acc.ofRecord bits).drain (mmAnchor q.m) (mmShift q.m) (dFmt q.c) (mmRnd q.m) (mmOvf q.m) r
  else convert (dFmt q.c) (mmRnd q.m) (mmOvf q.m) r (f32 bits)

/-- Drain the live tile to C (R131, R141). -/
def State.matDrain (s : State) (c : Nat) (st : MStep) : State :=
  let x := s.mat c
  let q := x.mm
  let v := s.vat ((s.vatOfCore c).getD 0)
  let outs := (x.cells st.tm st.tn).map (fun (r, k, m, n) =>
    let ix : Ix := { i0 := n, i1 := m, i2 := (q.batch st.b).1, i3 := (q.batch st.b).2 }
    let cell : MCell := x.acc.get {} (32 * r + k)
    let o := q.drainCell cell.bits (srWord v.srSeedLatch.toNat v.srSheet.toNat (mmSr q.m) 0 (dLinear q.c ix))
    let (d, sl, org, i) := x.place 2 st ix
    (dWrite d sl org i o.bits cell.bad, o.flags))
  (s.storeElems c (outs.flatMap (·.1))).orArith c (outs.foldl (fun f o => f ||| o.2) 0)

/-- Bring the output tile of a step into the live accumulators (R131); false when R127 stops it. -/
def State.matTile (s : State) (c : Nat) (st : MStep) : State × Bool :=
  let x := s.mat c
  if x.out == some (st.b, st.tm, st.tn) then (s, true)
  else
    let slot := x.tileSlot st.b st.tm st.tn
    let sp := s.spad c
    if NSet.has x.parked slot then
      (s.modMat c (fun y => { y with out := some (st.b, st.tm, st.tn), acc := x.unpark sp slot,
                                     unparks := satAdd top16 y.unparks 1, parked := NSet.rem y.parked slot }), true)
    else if mmAccIn x.mm.m then
      let t := x.initAcc sp st
      if x.initBad t then (s.modMat c (fun y => { y with badAcc := true, ringWait := false }), false)
      else (s.modMat c (fun y => { y with out := some (st.b, st.tm, st.tn), acc := t }), true)
    else (s.modMat c (fun y => { y with out := some (st.b, st.tm, st.tn), acc := [] }), true)

/-- Run one step, `next` being the step after it (R131, R133); false when a ring test fails or R127 stops it. Each ring operand's test is
made on its own, and one that passes lowers its counter at once (DESIGN CHOICE, log entry 141). A step that begins frees the previous
slices. (DEDUCED, log entry 32) -/
def State.matStep (s : State) (c : Nat) (st : MStep) (next : Option MStep) : State × Bool :=
  let s1 := (List.range 3).foldl (fun s op => s.enterSlice c st op) s
  if (List.range 3).any (fun op => (s1.mat c).mustEnter op st) then
    (s1.modMat c (fun y => { y with ringWait := true, waitSince := if y.ringWait then y.waitSince else s1.clk.fast.toNat }), false)
  else
    let (s2, ok) := s1.matTile c st
    if !ok then (s2, false)
    else
      let s3 := s2.freeSlices c
      let x := s3.mat c
      let (acc, fl) := x.accumulate (s3.spad c) st
      let slot := x.tileSlot st.b st.tm st.tn
      let done := x.doneCnt.get 0 slot + 1
      let s4 := ((s3.noteBytes c (x.stepBytes st)).modMat c (fun y =>
        { y with acc := acc, doneCnt := y.doneCnt.put slot done, pos := y.pos + 1, stepsDone := (y.stepsDone + 1) % 2 ^ 24, ringWait := false })).orArith c fl
      let s4 := s4.accountCore c (if x.mm.exact then 2 else 3) 1
      let leaves := match next with | some n => (n.b, n.tm, n.tn) != (st.b, st.tm, st.tn) | none => true
      let s5 := if done = x.t 2 then s4.matDrain c st else if leaves then s4.matPark c slot else s4
      let sliceEnds := match next with | some n => sliceKey 2 n != sliceKey 2 st | none => true
      let d := x.mm.c
      (if dNbuf d != 0 && sliceEnds then s5.addFrom c (dRdy d) 1 else s5, true)

/-- Run steps until one cannot run. (DESIGN CHOICE, log entry 7; DEDUCED, log entry 32) -/
def State.matGo (s : State) (c : Nat) : List MStep → State
  | [] => s
  | st :: rest =>
    let r := s.matStep c st rest.head?
    if r.2 then State.matGo r.1 c rest else r.1

/-- Run the walk from where it stands. (DEDUCED, log entry 32) -/
def State.matRun (s : State) (c : Nat) : State := s.matGo c ((s.mat c).steps.drop (s.mat c).pos)

end Sys2Proof.Machine
end

