-- ==== Sys2Proof/Machine/VecOps.lean ====
section
/-! DEFINITION. The vector engine and the reduction unit (Chapter 5): bodies, the chain record, stage arithmetic, functions, reductions and
the acceptance checks. -/

namespace Sys2Proof.Machine

/-! ## FP32 stage arithmetic (R161) -/

/-- A result with its flags. -/
abbrev FRes := F32 × BitVec 8

/-- The canonical FP32 NaN. -/
def nan32 : F32 := fmtNanEnc 0
def one32 : F32 := 0x3F800000
def inf32 (neg : Bool) : F32 := withSign 0 neg (fmtInfEnc 0)

/-- One rounding of an exact value to FP32; an invalid operation gives NaN and nan_gen. -/
def fRound (v : FVal) (invalid : Bool) : FRes :=
  match v with
  | .nan => (nan32, if invalid then fNanGen else 0)
  | x => let c := convert 0 0 1 0 x; (c.bits, c.flags)

/-- A NaN operand gives the canonical NaN and nan_in. -/
def nanGuard (args : List FVal) (r : FRes) : FRes := if args.any (·.isNan) then (nan32, fNanIn) else r

/-- a + b. -/
def fAdd (a b : F32) : FRes := nanGuard [f32 a, f32 b] (let r := FVal.add (f32 a) (f32 b); fRound r.1 r.2)
/-- a × b. -/
def fMul (a b : F32) : FRes := nanGuard [f32 a, f32 b] (let r := FVal.mul (f32 a) (f32 b); fRound r.1 r.2)
/-- a × b + c with one rounding. -/
def fFma (a b c : F32) : FRes :=
  nanGuard [f32 a, f32 b, f32 c] (let m := FVal.mul (f32 a) (f32 b); let r := FVal.add m.1 (f32 c); fRound r.1 (m.2 || r.2))
/-- Change the sign. -/
def fNegBits (a : F32) : F32 := Nat.xor a 0x80000000
/-- a ÷ b, correctly rounded; a division by zero raises no flag. -/
def fDiv (a b : F32) : FRes := nanGuard [f32 a, f32 b] (let c := divTo 0 (f32 a) (f32 b); (c.bits, c.flags))

/-- The order of MAX, MIN and the extrema: +0 above −0 (R161, R173). (DEDUCED, log entry 27) -/
def rankLt (a b : FVal) : Bool := a.lt b || (a.isZero && b.isZero && a.sign && !b.sign)

/-- Canonical NaN for a selected NaN. -/
def fPass (a : F32) : FRes := nanGuard [f32 a] (a, 0)

/-- Spacing of FP32 values at the magnitude of a finite value, as an exponent (R165). -/
def ulpExp (n : Nat) (e : Int) : Int := if n == 0 then -149 else max (ilog2 n 1 + e - 23) (-149)

/-- Is a finite FP32 result within one ulp of 1 ÷ a (R165)? (DESIGN CHOICE, log entry 12) -/
def rcpWithin (a r : F32) : Bool :=
  match f32 a, f32 r with
  | .fin s n e, .fin t m g =>
    -- |r·a − 1| ≤ u·|a| with u the spacing at the exact result
    let l := - (ilog2 n 1 + e)
    let u : Int := max ((if n == 2 ^ Nat.log2 n then l else l - 1) - 23) (-149)
    let d := (FVal.add (FVal.mul (.fin t m g) (.fin s n e)).1 (.fin true 1 0)).1
    n != 0 && !((FVal.mul (.fin false n e) (.fin false 1 u)).1.lt d.abs)
  | _, _ => false

/-- Is a positive FP32 result within one ulp of 1 ÷ √a (R165)? (DESIGN CHOICE, log entry 12) -/
def rsqrtWithin (a r : F32) : Bool :=
  match f32 a, f32 r with
  | .fin false n e, .fin false m g =>
    let x : FVal := .fin false n e
    let y : FVal := .fin false m g
    let u : FVal := .fin false 1 (ulpExp m g)
    let lo := (FVal.add y u.neg).1
    let hi := (FVal.add y u).1
    let sq := fun (v : FVal) => (FVal.mul (FVal.mul v v).1 x).1
    let one : FVal := .fin false 1 0
    n != 0 && m != 0 && !(one.lt (sq lo)) && !((sq hi).lt one)
  | _, _ => false

/-- Functions whose exact result for a finite input is zero: of ±0, or LOG and LOG2 of 1. -/
def fnExactZero (op : Nat) (a : F32) : Bool :=
  ([0x27, 0x29, 0x2A, 0x2B, 0x2D].contains op && (f32 a).isZero) || ((op == 0x22 || op == 0x23) && a == one32)

/-- The result of a function op for a finite input outside Table 5.8: a fixed function of the input's bits, within the bound of Table 5.7;
at ±0 the function's value where FP32 has it (R165-R168). (DESIGN CHOICE, log entry 12) -/
def fnFinite (op : Nat) (a : F32) : F32 :=
  let r := (Config.vecFunc op (BitVec.ofNat 32 a)).toNat
  if op == 0x24 then (if rcpWithin a r then r else (divTo 0 (.fin false 1 0) (f32 a)).bits)
  else if op == 0x26 then
    (if rsqrtWithin a r then r
     else match f32 a with
      | .fin _ n e =>
        -- 1/√(n·2^e) from the root of 2^240/n, rounded once
        let e' := if e % 2 == 0 then e else e - 1
        let n' := if e % 2 == 0 then n else 2 * n
        (convFrac 0 0 1 0 false (2 * isqrt (2 ^ 400 / n') + 1) 1 (-200 - 1 - e' / 2)).bits
      | _ => r)
  else match f32 a with
    | .fin s n e =>
      match if n == 0 then fnAtZero op a else none with
      | some z => z
      | none =>
        let v := fnExact op (fxOf s n e)
        if fnWithin op v r then r else fnRounded v
    | _ => r

/-- A function op (R165-R167, Table 5.8). (DESIGN CHOICE, log entry 12) -/
def fFn (op : Nat) (a : F32) : FRes :=
  if op == 0x25 then
    match f32 a with
    | .nan => (nan32, fNanIn)
    | .inf s => if s then (nan32, fNanGen) else (a, 0)
    | .fin s n e => if n == 0 then (a, 0) else if s then (nan32, fNanGen) else ((sqrtTo 0 n e).bits, 0)
  else
    match f32 a with
    | .nan => (nan32, fNanIn)
    | .inf s =>
      if op == 0x20 || op == 0x21 || op == 0x2C then (if s then 0 else inf32 false, 0)
      else if op == 0x22 || op == 0x23 then (if s then (nan32, fNanGen) else (inf32 false, 0))
      else if op == 0x24 then (withSign 0 s 0, 0)
      else if op == 0x26 then (if s then (nan32, fNanGen) else (0, 0))
      else if op == 0x27 || op == 0x2D then (withSign 0 s one32, 0)
      else if op == 0x28 || op == 0x3C then (if s then 0 else one32, 0)
      else if op == 0x29 || op == 0x2A || op == 0x2B then (if s then withSign 0 true 0 else inf32 false, 0)
      else if op == 0x39 || op == 0x3A || op == 0x3B then (if s then 0 else one32, 0)
      else (0, 0)
    | .fin s n _ =>
      if op == 0x24 && n == 0 then (inf32 s, 0)
      else if op == 0x26 && n == 0 then (inf32 s, 0)
      else if (op == 0x22 || op == 0x23) && n == 0 then (inf32 true, 0)
      else if (op == 0x22 || op == 0x23 || op == 0x26) && s then (nan32, fNanGen)
      else
        let r := fnFinite op a
        (r, match f32 r with
            | .inf _ => fInfOut
            | .fin _ m _ => if m == 0 && !fnExactZero op a then fUflow else 0
            | .nan => 0)

/-- Ops of Table 5.6: 1 unary, 2 binary, 0 reserved. -/
def stageKind (op : Nat) : Nat :=
  if (1 ≤ op && op ≤ 7) || (0xA ≤ op && op ≤ 0xE) || op == 0x10 then 2
  else if op == 8 || op == 9 || (0x20 ≤ op && op ≤ 0x2D) || (0x37 ≤ op && op ≤ 0x3C) then 1
  else 0

/-- One stage (R160, R161). -/
def stageOp (op : Nat) (a b imm : F32) : FRes :=
  let va := f32 a
  let vb := f32 b
  if op = 0x01 then fAdd a b
  else if op = 0x02 then (if vb.isNan || va.isNan then (nan32, fNanIn) else fAdd a (fNegBits b))
  else if op = 0x03 then (if vb.isNan || va.isNan then (nan32, fNanIn) else fAdd b (fNegBits a))
  else if op = 0x04 then fMul a b
  else if op = 0x05 then fFma a b imm
  else if op = 0x06 then nanGuard [va, vb] (if rankLt va vb then b else a, 0)
  else if op = 0x07 then nanGuard [va, vb] (if rankLt vb va then b else a, 0)
  else if op = 0x08 then nanGuard [va] (fld a 0 31, 0)
  else if op = 0x09 then nanGuard [va] (fNegBits a, 0)
  else if op = 0x0A ∨ op = 0x0B ∨ op = 0x0C then
    if va.isNan || vb.isNan then (0, fNanIn)
    else (if (if op = 0x0A then vb.lt va else if op = 0x0B then !(va.lt vb) else va.eq vb) then one32 else 0, 0)
  else if op = 0x0D then
    let r := fPass (if vb.isZero then imm else a)
    (r.1, r.2 ||| (if vb.isNan then fNanIn else 0))
  else if op = 0x0E then fPass b
  else if op = 0x10 then fDiv a b
  else fFn op a

/-! ## The VCHAIN body and the chain record (Tables 5.3, 5.4) -/

def vcIn (m i : Nat) : Bool := bit m (72 + i)
def vcO (m : Nat) : Bool := bit m 75
def vcRnd (m : Nat) : Nat := fld m 76 2
def vcOvf (m : Nat) : Nat := fld m 78 1
def vcSr (m : Nat) : Nat := fld m 80 16
def vcZmask (m i : Nat) : Nat := fld m (96 + 4 * i) 4
def vcChain (m : Nat) : Nat := 64 * fld m 109 13
def vcDynMask (m : Nat) : Nat := fld m 122 2
def vcDynAddr (m : Nat) : Nat := 128 * fld m 128 12

/-- Stage `s` of a chain record: its fields. -/
def stField (r s lo n : Nat) : Nat := fld r (48 * s + lo) n
def stOp (r s : Nat) : Nat := stField r s 0 6
def stA (r s : Nat) : Nat := stField r s 6 2
def stB (r s : Nat) : Nat := stField r s 8 4
def stTr (r s : Nat) : Nat := stField r s 12 4
def stImm (r s : Nat) : Nat := stField r s 16 32
def crNst (r : Nat) : Nat := fld r 384 3 + 1
def crO2Stage (r : Nat) : Nat := fld r 388 3
def crO2 (r : Nat) : Bool := bit r 391
def crRedStage (r : Nat) : Nat := fld r 392 3
def crRed (r : Nat) : Bool := bit r 395
def crRedOp (r : Nat) : Nat := fld r 396 3
def crRedAxis (r : Nat) : Nat := fld r 399 2
def crRedDst (r : Nat) : Bool := bit r 401
def crRedT (r : Nat) : Nat := fld r 402 4
def crRedTd (r : Nat) : Nat := fld r 406 8
def crTapStage (r : Nat) : Nat := fld r 424 3
def crTap (r : Nat) : Bool := bit r 427
def crTapSlot (r : Nat) : Nat := fld r 428 12

/-- Check 2 for the chain record and its stages (R158-R160). -/
def chainOk (m r : Nat) : Bool :=
  let n := crNst r
  (List.range 8).all (fun s =>
    if s < n then
      stageKind (stOp r s) != 0 && stB r s != 15 && (stageKind (stOp r s) == 2) == (stB r s != 0)
      && (stA r s == 0 || vcIn m (stA r s - 1))
      && (!(1 ≤ stB r s && stB r s ≤ 3) || vcIn m (stB r s - 1))
      && (!(8 ≤ stB r s && stB r s ≤ 14) || stB r s - 8 < s)
      && ((5 ≤ stB r s && stB r s ≤ 7) || stTr r s == 0)
    else stField r s 0 48 == 0)
  && !(bit r 387) && fld r 440 72 == 0 && fld r 414 10 == 0
  && (if crO2 r then crO2Stage r < n else crO2Stage r == 0)
  && (if crRed r then crRedStage r < n && crRedOp r != 7 && crRedAxis r != 3 && (if crRedDst r then crRedT r == 0 else crRedTd r == 0)
      else fld r 392 3 == 0 && fld r 396 18 == 0)
  && (if crTap r then crTapStage r < n else fld r 424 3 == 0 && fld r 428 12 == 0)

/-- Check 2 for the VCHAIN body. -/
def vchainBodyOk (m r : Nat) (known : Bool) : Bool :=
  vcIn m 0 && !(bit m 79) && !(bit m 108) && fld m 124 4 == 0 && fld m 140 116 == 0 && vcRnd m != 3
  && (List.range 3).all (fun i => vcIn m i || (fld m (32 + 8 * i) 8 == 0 && vcZmask m i == 0))
  && (vcO m || fld m 56 8 == 0) && (crO2 r || !known || fld m 64 8 == 0) && (vcDynMask m != 0 || fld m 128 12 == 0)

/-- Descriptors of a VCHAIN: 0 X, 1 Y, 2 Z, 3 O, 4 O2, 5 reduction, where present, as (index, slot). -/
def vchainTds (m r : Nat) : List (Nat × Nat) :=
  ((List.range 3).filter (vcIn m)).map (fun i => (i, fld m (32 + 8 * i) 8))
    ++ (if vcO m then [(3, fld m 56 8)] else []) ++ (if crO2 r then [(4, fld m 64 8)] else [])
    ++ (if crRed r && crRedDst r then [(5, crRedTd r)] else [])

/-- Tile registers the stages read. -/
def chainTilesRead (r : Nat) : NSet :=
  ((List.range (crNst r)).filter (fun s => 5 ≤ stB r s && stB r s ≤ 7)).foldl (fun (t : NSet) s => NSet.add t (stTr r s)) []

/-- Tile registers the reduction writes. -/
def chainTilesWritten (r : Nat) : NSet := if crRed r && !crRedDst r then [crRedT r] else []

/-! ## Sizes (R150, R152) -/

/-- The table of the dynamic-shape block for logical dimension `j`: dimension 1 takes M, dimension 0 takes N. -/
def dynIdx (j : Nat) : Nat := 1 - j

/-- Padded size of logical dimension `j`; its extent where no bucket holds the actual size, which is then rejected (R135). (DEDUCED, log entry 136) -/
def vPadded (sp : Spad) (mask addr g j : Nat) : Nat :=
  if bit mask j then (bucketFor (bucketsOf sp addr (dynIdx j)) (sp.nat (addr + 4 * dynIdx j) 4)).getD (dLExt g j) else dLExt g j
/-- Valid size. -/
def vValid (sp : Spad) (mask addr g j : Nat) : Nat := if bit mask j then sp.nat (addr + 4 * dynIdx j) 4 else dLExt g j

/-- A poisoned byte of what the dynamic-shape block is read for (check 1). -/
def dynBad (sp : Spad) (mask addr : Nat) : Bool :=
  (List.range 2).any (fun j => bit mask j && (sp.bad (addr + 4 * dynIdx j) 4 || sp.bad (addr + 32 + 32 * dynIdx j) 32))
/-- Check 5. -/
def dynTablesOk (sp : Spad) (mask addr g : Nat) : Bool :=
  (List.range 2).all (fun j => !(bit mask j) || bucketsOk (bucketsOf sp addr (dynIdx j)) 1 (dLExt g j))
/-- Check 6. -/
def dynSizesOk (sp : Spad) (mask addr g : Nat) : Bool :=
  (List.range 2).all (fun j => !(bit mask j) ||
    ((bucketFor (bucketsOf sp addr (dynIdx j)) (sp.nat (addr + 4 * dynIdx j) 4)).isSome && sp.nat (addr + 4 * dynIdx j) 4 ≤ dLExt g j))

/-- Batches of a governing shape. -/
def vBatches (g : Nat) : Nat := dLExt g 2 * dLExt g 3

/-- Can the tile index of a stage, or of a reduction's result, reach 1,024 (R154, R170)? -/
def stageIdxBad (r nb p0 p1 : Nat) : Bool :=
  (List.range (crNst r)).any (fun s => (stB r s == 6 && nb * p0 > 1024) || (stB r s == 7 && nb * p1 > 1024))
def redIdxBad (axis nb p0 p1 : Nat) : Bool := (if axis = 0 then nb * p1 else if axis = 1 then nb * p0 else nb) > 1024

/-! ## Formats and shapes -/

/-- An input of the vector engine (R156). -/
def vInFmtOk (f : Nat) : Bool := f != 9 && f != 10
/-- An output of a VCHAIN or TSTORE with its MX layout (R155, R164). -/
def vOutOk (d : Nat) : Bool :=
  vInFmtOk (dFmt d) && (!fmtMx (dFmt d) || (!dTrans d && dBaxis d == 0 && dBlkOff d == 0))

/-- The span of an input with stride 0 in its zmask dimensions (R163). -/
def zSpan (d zm : Nat) : Int × Int :=
  let e := fun i => if bit zm i then 1 else dExt d i
  let r := offRange d (rowBytes (fmtBits (dFmt d)) (e 0)) (e 1) (e 2) (e 3)
  ((dBase d : Int) + r.1, (dBase d : Int) + r.2)

/-- Extent of a reduction's output in logical dimension `i` (R170). -/
def redExt (g axis i : Nat) : Nat := if (i = 0 && axis != 1) || (i = 1 && axis != 0) then 1 else dLExt g i

/-- An output descriptor of a reduction over governing shape `g` (R170). -/
def redShapeOk (o g axis : Nat) : Bool := (List.range 4).all (fun i => dLExt o i == redExt g axis i)

/-- The bytes of an input's scale array with stride 0 in its zmask dimensions (R163). -/
def zScaleSpan (d zm : Nat) : Int × Int :=
  let j := fun i => dScaleIdx d i (if bit zm i then 0 else dExt d i - 1)
  let part := fun (s : Int) (n : Nat) => (min 0 (s * n), max 0 (s * n))
  let a := part (dSStride d 1) (j 1)
  let b := part (dSStride d 2) (j 2)
  let c := part (dSStride d 3) (j 3)
  ((dScaleBase d : Int) + a.1 + b.1 + c.1, (dScaleBase d : Int) + j 0 + a.2 + b.2 + c.2 + 1)

/-- The byte ranges a tensor occupies: its span, and its scale array. Ranges stand for the bytes, also where strides leave gaps. (DESIGN CHOICE, log entry 142) -/
def occupies (d zm : Nat) : List (Int × Int) := zSpan d zm :: (if fmtMx (dFmt d) then [zScaleSpan d zm] else [])

/-- The same place, format, layout: an output may occupy exactly an input's bytes (R164). -/
def sameBytes (o d : Nat) : Bool :=
  dBase o == dBase d && dFmt o == dFmt d && dTrans o == dTrans d && dRank o == dRank d
  && fld o 64 192 == fld d 64 192

/-- A VCHAIN as its unit sees it. -/
structure VC where
  m : Nat := 0
  r : Nat := 0
  /-- descriptors 0 X, 1 Y, 2 Z, 3 O, 4 O2, 5 reduction -/
  descs : Table Nat := []
  /-- padded sizes 0, 1 and valid sizes 2, 3 -/
  dim : Table Nat := []
  deriving DecidableEq, Repr

def VC.d (q : VC) (i : Nat) : Nat := q.descs.get 0 i
/-- The governing shape: O, or X when O is not written. -/
def VC.gov (q : VC) : Nat := if vcO q.m then q.d 3 else q.d 0
def VC.p (q : VC) (j : Nat) : Nat := q.dim.get 0 j
def VC.v (q : VC) (j : Nat) : Nat := q.dim.get 0 (2 + j)
/-- Extent an input must have in logical dimension `i`, unless 1 (R162). -/
def VC.govExt (q : VC) (i : Nat) : Nat := if i < 2 then q.p i else dLExt q.gov i
/-- Is input `i` broadcast in some dimension? -/
def VC.broadcast (q : VC) (i : Nat) : Bool := (List.range 4).any (fun j => dLExt (q.d i) j == 1 && q.govExt j > 1)
def VC.inputs (q : VC) : List Nat := (List.range 3).filter (vcIn q.m)
def VC.outputs (q : VC) : List Nat := (if vcO q.m then [3] else []) ++ (if crO2 q.r then [4] else [])

/-- May an output lie where an input lies (R164)? Apart, or exactly on the input's bytes when it is neither broadcast nor zmasked. -/
def VC.apart (q : VC) (o i : Nat) : Bool :=
  let same := sameBytes (q.d o) (q.d i) && !q.broadcast i && vcZmask q.m i == 0
  let mx := fmtMx (dFmt (q.d i)) && fmtMx (dFmt (q.d o))
  let a := q.d o
  let b := q.d i
  let zb := vcZmask q.m i
  (same || !overlap (zSpan a 0) (zSpan b zb))
  && !(fmtMx (dFmt a) && overlap (zScaleSpan a 0) (zSpan b zb)) && !(fmtMx (dFmt b) && overlap (zSpan a 0) (zScaleSpan b zb))
  && (!mx || (same && fld a 256 144 == fld b 256 144) || !overlap (zScaleSpan a 0) (zScaleSpan b zb))

/-- The checks of Table 5.11 for a VCHAIN. `copyState` is 0 for a good copy of the record, 1 poisoned, 2 out of range: then the checks that
do not need the record come first, in their order (R158). (DESIGN CHOICE, log entry 142) -/
def State.vchainCheck (s : State) (c : Nat) (q : VC) (copyState : Nat) : Nat :=
  let sp := s.spad c
  let m := q.m
  let r := q.r
  let g := q.gov
  let tds := vchainTds m r
  let ds := tds.map (fun p => q.d p.1)
  let nb := vBatches g
  let known := copyState == 0
  if copyState = 1 || tds.any (fun p => sp.bad (descAt p.2) 64) || dynBad sp (vcDynMask m) (vcDynAddr m) then ePoison
  else if !vchainBodyOk m r known || (known && !chainOk m r) || !ds.all descOk then eFormat
  else if !q.inputs.all (fun i => vInFmtOk (dFmt (q.d i))) || !q.outputs.all (fun i => vOutOk (q.d i))
      || (crRed r && crRedDst r && (fmtMx (dFmt (q.d 5)) || dFmt (q.d 5) == 10))
      || q.inputs.any (fun i => fmtMx (dFmt (q.d i)) && bit (vcZmask m i) (dBaxis (q.d i)))
      || ds.any (fun d => dNbuf d != 0)
      || (chainTilesWritten r).any (fun t => NSet.has (chainTilesRead r) t) then eFormat
  else if !q.inputs.all (fun i => (i == 0 && !vcO m) || (List.range 4).all (fun j => dLExt (q.d i) j == q.govExt j || dLExt (q.d i) j == 1))
      || (crO2 r && !(List.range 4).all (fun j => dLExt (q.d 4) j == dLExt g j))
      || (crRed r && crRedDst r && !redShapeOk (q.d 5) g (crRedAxis r)) then eFormat
  else if !dynTablesOk sp (vcDynMask m) (vcDynAddr m) g then eFormat
  else if !dynSizesOk sp (vcDynMask m) (vcDynAddr m) g || (known && stageIdxBad r nb (q.p 0) (q.p 1))
      || (crRed r && !crRedDst r && redIdxBad (crRedAxis r) nb (q.p 0) (q.p 1))
      || (crRed r && crRedAxis r == 1 && q.p 0 > 1024) then eRange
  else if !known || ds.any dSpace || !tds.all (fun p => if p.1 < 3 then rangeIn (zSpan (q.d p.1) (vcZmask m p.1)) 0x7C000 else dInside (q.d p.1))
      || q.outputs.any (fun o => q.inputs.any (fun i => !q.apart o i))
      || (vcO m && crO2 r && (occupies (q.d 3) 0).any (fun a => (occupies (q.d 4) 0).any (fun b => overlap a b))) then eRange
  else if q.inputs.any (fun i => vcZmask m i != 0) && (s.ctl c).mode == 0 then ePermission
  else eOk

/-! ## Elements of a chain -/

/-- The stored index an input reads for logical indices: broadcast dimensions read index 0, zmask dimensions stride 0 (R162, R163). -/
def inIx (d zm : Nat) (x : Ix) : Ix :=
  let b := fun i v => if dLExt d i = 1 then 0 else v
  let y := dStored d { i0 := b 0 x.i0, i1 := b 1 x.i1, i2 := b 2 x.i2, i3 := b 3 x.i3 }
  { i0 := if bit zm 0 then 0 else y.i0, i1 := if bit zm 1 then 0 else y.i1,
    i2 := if bit zm 2 then 0 else y.i2, i3 := if bit zm 3 then 0 else y.i3 }

/-- Conversion of a value on entry (R156): FP32 as it is, others by R49 and an MX value rounded. (DEDUCED, log entry 26) -/
def fEnter (f : Nat) (e : Elem) : FRes :=
  if f = 0 then (e.enc, 0) else let k := convert 0 0 1 0 (e.value f); (k.bits, k.flags)

/-- Linear element a tile operand reads (R154). -/
def tileIdx (srcB p0 p1 b : Nat) (x : Ix) : Nat :=
  if srcB = 5 then 32 * (x.i1 % 32) + x.i0 % 32 else if srcB = 6 then b * p0 + x.i0 else b * p1 + x.i1

/-- Evaluate the stages for one element: the results in stage order, each with its poison, and the flags raised (R159, R178). (DEDUCED, log entry 28) -/
def VC.eval (q : VC) (sp : Spad) (tiles : Table MCell) (b : Nat) (x : Ix) : List (F32 × Bool) × BitVec 8 :=
  let ins := q.inputs.map (fun i =>
    let e := sp.elem (q.d i) 0 {} (inIx (q.d i) (vcZmask q.m i) x)
    let v := fEnter (dFmt (q.d i)) e
    (i, v.1, e.bad, v.2))
  let inp := fun (i : Nat) => match ins.find? (fun p => p.1 == i) with | some p => (p.2.1, p.2.2.1) | none => (0, false)
  let f0 := ins.foldl (fun (f : BitVec 8) p => f ||| p.2.2.2) 0
  (List.range (crNst q.r)).foldl (fun (st : List (F32 × Bool) × BitVec 8) k =>
    let a := if stA q.r k = 0 then (match st.1.getLast? with | some v => v | none => inp 0) else inp (stA q.r k - 1)
    let sb := stB q.r k
    let bv : F32 × Bool :=
      if sb = 0 then (0, false)
      else if sb ≤ 3 then inp (sb - 1)
      else if sb = 4 then (stImm q.r k, false)
      else if sb ≤ 7 then
        let cell : MCell := tiles.get {} (1024 * stTr q.r k + tileIdx sb (q.p 0) (q.p 1) b x)
        (cell.bits, cell.bad)
      else (st.1[sb - 8]?).getD (0, false)
    let o := stageOp (stOp q.r k) a.1 bv.1 (stImm q.r k)
    (st.1 ++ [(o.1, if stOp q.r k = 0x0E then bv.2 else a.2 || bv.2)], st.2 ||| o.2)) ([], f0)

/-- The valid indices of the walk, in order (R150). -/
def walkIx (g v0 v1 : Nat) : List (Nat × Ix) :=
  (List.range (vBatches g)).flatMap (fun b => (List.range v1).flatMap (fun i1 => (List.range v0).map (fun i0 =>
    (b, { i0 := i0, i1 := i1, i2 := b % dLExt g 2, i3 := b / dLExt g 2 }))))

/-- The writes of an output: values by index with their poison (R164); an MX output in blocks of 32 (R54). -/
def outWrites (d rnd ovf : Nat) (vals : List (Ix × F32 × Bool)) (rword : Nat → Nat) : List ElemWrite × BitVec 8 :=
  if fmtMx (dFmt d) then
    let keys := vals.foldl (fun (t : List (Nat × Ix)) p =>
      let k := (p.1.i0 / 32, { p.1 with i0 := 0 })
      if t.contains k then t else t ++ [k]) []
    keys.foldl (fun (acc : List ElemWrite × BitVec 8) k =>
      let blk := vals.filter (fun p => p.1.i0 / 32 == k.1 && { p.1 with i0 := 0 } == k.2)
      let o := mxProduce (dFmt d) rnd (blk.map (fun p => (f32 p.2.1, rword (dLinear d p.1))))
      let bad := blk.any (fun p => p.2.2)
      let ws := (blk.zip o.elems).flatMap (fun p => dWrite d 0 {} p.1.1 p.2 p.1.2.2)
      let sa := dScaleAddr d (32 * k.1) k.2.i1 k.2.i2 k.2.i3
      -- a scale address outside the scratchpad has no byte (DESIGN CHOICE, log entry 29)
      let sw := if 0 ≤ sa && sa < (spadSize : Int) then [{ pos := 8 * sa.toNat, width := 8, enc := o.scale, bad := bad }] else []
      (acc.1 ++ ws ++ sw, acc.2 ||| o.flags)) ([], 0)
  else
    vals.foldl (fun (acc : List ElemWrite × BitVec 8) p =>
      let o := convert (dFmt d) rnd ovf (rword (dLinear d p.1)) (f32 p.2.1)
      (acc.1 ++ dWrite d 0 {} (dStored d p.1) o.bits p.2.2, acc.2 ||| o.flags)) ([], 0)

/-! ## Reductions (R169-R174) -/

/-- One element given to the reduction unit: its value, its ACC96 record, its FP32 bits and its poison. -/
structure RedIn where
  v : FVal := .fin false 0 0
  record : Nat := 0
  bits : F32 := 0
  bad : Bool := false
  deriving DecidableEq, Repr

/-- How a reduction works: operation, path, anchor. -/
structure RedCfg where
  op : Nat := 0
  exact : Bool := false
  acc96 : Bool := false
  anchor : Int := 0
  deriving DecidableEq, Repr

/-- Level of the pairwise tree (R172). -/
def treeLevel : List (Option F32) → List (Option F32) × BitVec 8
  | a :: b :: t =>
    let r := treeLevel t
    match a, b with
    | some x, some y => let o := fAdd x y; (some o.1 :: r.1, r.2 ||| o.2)
    | some x, none => (some x :: r.1, r.2)
    | none, y => (y :: r.1, r.2)
  | [a] => ([a], 0)
  | [] => ([], 0)

/-- Seven levels over the lanes of a group. -/
def treeSum (lanes : List (Option F32)) : Option F32 × BitVec 8 :=
  let r := (List.range 7).foldl (fun (t : List (Option F32) × BitVec 8) _ => let o := treeLevel t.1; (o.1, t.2 ||| o.2)) (lanes, 0)
  (r.1.head?.join, r.2)

/-- An element's FP32 contribution (R172). -/
def redFp (op : Nat) (e : RedIn) : FRes := if op = 1 then fMul e.bits e.bits else (e.bits, 0)

/-- The FP32 sum of the groups of one result; a group of one element on axis 1 (R172). -/
def redSumFp (op : Nat) (groups : List (List (Option RedIn))) : F32 × BitVec 8 :=
  let r := groups.foldl (fun (t : Option F32 × BitVec 8) g =>
    let ls := g.map (fun o => o.map (redFp op))
    let f1 := ls.foldl (fun (f : BitVec 8) o => f ||| (o.map (·.2)).getD 0) t.2
    let s := treeSum (ls.map (fun o => o.map (·.1)))
    match t.1, s.1 with
    | some x, some y => let o := fAdd x y; (some o.1, f1 ||| s.2 ||| o.2)
    | none, y => (y, f1 ||| s.2)
    | x, none => (x, f1 ||| s.2)) (none, 0)
  (r.1.getD 0, r.2)

/-- The exact sum (R171): each element is one unit; ACC96 records combine (R63). -/
def redSumExact (cfg : RedCfg) (es : List RedIn) : Acc × BitVec 8 :=
  es.foldl (fun (t : Acc × BitVec 8) e =>
    if cfg.acc96 then (t.1.combine (Acc.ofRecord e.record), t.2)
    else
      let u := ({} : UnitSum).put e.v (if cfg.op = 1 then e.v else .fin false 1 0)
      (t.1.addUnit cfg.anchor u, t.2 ||| u.flags)) ({}, 0)

/-- Does candidate `a` beat `b` in an extremum op? -/
def redBeats (op : Nat) (a b : FVal) : Bool := if op = 3 || op = 6 then rankLt a b else rankLt b a

/-- The extremum of elements with their indices (R173): value, index, whether a NaN was met. (DEDUCED, log entry 27) -/
def redExtreme (op : Nat) (es : List (Nat × RedIn)) : Option (FVal × Nat) × Bool :=
  es.foldl (fun (t : Option (FVal × Nat) × Bool) p =>
    if p.2.v.isNan then (t.1, true)
    else
      let w := if op = 4 then p.2.v.abs else p.2.v
      match t.1 with
      | none => (some (w, p.1), t.2)
      | some (b, i) => if redBeats op w b || (w.eq b && w.sign == b.sign && p.1 < i) then (some (w, p.1), t.2) else t) (none, false)

/-- The drained result of one output (R170-R173): groups of (index, element), absent lanes none. A sum is converted to the output format, FP32
included, so its NaN is canonical and raises nan_in (R42; DEDUCED, log entry 143). An extremum that met a NaN is NaN, also where every element
is one. (DESIGN CHOICE, log entry 156) -/
def redResult (cfg : RedCfg) (f rnd ovf r : Nat) (groups : List (List (Option (Nat × RedIn)))) : Conv × Bool :=
  let es := groups.flatMap (fun g => g.filterMap id)
  let bad := es.any (fun p => p.2.bad)
  let with_ := fun (c : Conv) (fl : BitVec 8) => ({ c with flags := c.flags ||| fl }, bad)
  if cfg.op ≤ 1 then
    if cfg.exact then
      let a := redSumExact cfg (es.map (·.2))
      with_ (a.1.drain cfg.anchor 0 f rnd ovf r) a.2
    else
      let s := redSumFp cfg.op (groups.map (fun g => g.map (fun o => o.map (·.2))))
      with_ (convert f rnd ovf r (f32 s.1)) s.2
  else
    let x := redExtreme cfg.op es
    let fl := if x.2 then fNanIn else 0
    let v : FVal :=
      if cfg.op ≥ 5 then (match x.1 with | some (_, i) => FVal.ofInt i 0 | none => FVal.ofInt (-1) 0)
      else if x.2 then .nan
      else match x.1 with
        | some (w, _) => w
        | none => if cfg.op = 2 then .inf true else if cfg.op = 3 then .inf false else .fin false 0 0
    with_ (convert f rnd ovf r v) fl

/-- The outputs of a reduction as (batch, row or column): those within the valid sizes (R170). -/
def redKeys (axis nb v0 v1 : Nat) : List (Nat × Nat) :=
  (List.range nb).flatMap (fun b =>
    if axis = 0 then (List.range v1).map (fun i => (b, i)) else if axis = 1 then (List.range v0).map (fun i => (b, i)) else [(b, 0)])

/-- The groups that one output reduces (R150, R172). -/
def redGroups (axis g p0 v0 v1 : Nat) (key : Nat × Nat) (el : Nat → Ix → RedIn) : List (List (Option (Nat × RedIn))) :=
  let b := key.1
  let ix := fun (i1 i0 : Nat) => ({ i0 := i0, i1 := i1, i2 := b % dLExt g 2, i3 := b / dLExt g 2 } : Ix)
  let row := fun (i1 : Nat) (idx : Nat → Nat) => (List.range (cdiv p0 128)).map (fun k =>
    (List.range 128).map (fun j => if 128 * k + j < v0 then some (idx (128 * k + j), el b (ix i1 (128 * k + j))) else none))
  if axis = 0 then row key.2 id
  else if axis = 1 then (List.range v1).map (fun i1 => [some (i1, el b (ix i1 key.2))])
  else (List.range v1).flatMap (fun i1 => row i1 (fun i0 => i1 * p0 + i0))

/-- Logical indices of an output in a descriptor (R170). -/
def redIx (axis g : Nat) (key : Nat × Nat) : Ix :=
  { i0 := if axis = 1 then key.2 else 0, i1 := if axis = 0 then key.2 else 0, i2 := key.1 % dLExt g 2, i3 := key.1 / dLExt g 2 }

/-- Linear index of an output in the reduced shape, for stochastic rounding (R170). -/
def redLinear (axis g : Nat) (key : Nat × Nat) : Nat :=
  let x := redIx axis g key
  x.i0 + redExt g axis 0 * (x.i1 + redExt g axis 1 * (x.i2 + dLExt g 2 * x.i3))

/-- Linear element of a tile output (R170). -/
def redTileIdx (axis p0 p1 : Nat) (key : Nat × Nat) : Nat :=
  if axis = 0 then key.1 * p1 + key.2 else if axis = 1 then key.1 * p0 + key.2 else key.1

/-- Where a reduction puts its results: a tile register or a descriptor. -/
inductive RedDst where
  | tile (t : Nat)
  | desc (d : Nat)
  deriving DecidableEq, Repr

/-- The results of a reduction for some outputs, as tile cells, element writes and flags. -/
def redAll (cfg : RedCfg) (axis g p0 p1 v0 v1 rnd ovf : Nat) (dst : RedDst) (keys : List (Nat × Nat)) (el : Nat → Ix → RedIn)
    (rword : Nat → Nat) : List (Nat × MCell) × List ElemWrite × BitVec 8 :=
  keys.foldl (fun (acc : List (Nat × MCell) × List ElemWrite × BitVec 8) key =>
    let groups := redGroups axis g p0 v0 v1 key el
    let f := match dst with | .tile _ => 0 | .desc d => dFmt d
    let r := redResult cfg f rnd ovf (rword (redLinear axis g key)) groups
    match dst with
    | .tile t => (acc.1 ++ [(1024 * t + redTileIdx axis p0 p1 key, { bits := r.1.bits, bad := r.2 })], acc.2.1, acc.2.2 ||| r.1.flags)
    | .desc d => (acc.1, acc.2.1 ++ dWrite d 0 {} (dStored d (redIx axis g key)) r.1.bits r.2, acc.2.2 ||| r.1.flags)) ([], [], 0)

/-- Make the results visible. -/
def State.redWrite (s : State) (c : Nat) (o : List (Nat × MCell) × List ElemWrite × BitVec 8) : State :=
  ((s.modVec c (fun x => { x with tiles := o.1.foldl (fun t p => t.put p.1 p.2) x.tiles })).storeElems c o.2.1).orArith c o.2.2

/-! ## REDUCE (Table 5.10) -/

def rdDst (m : Nat) : Bool := bit m 48
def rdT (m : Nat) : Nat := fld m 52 4
def rdOp (m : Nat) : Nat := fld m 56 3
def rdAxis (m : Nat) : Nat := fld m 59 2
def rdAnchor (m : Nat) : Int := sfld m 64 10
def rdRnd (m : Nat) : Nat := fld m 74 2
def rdOvf (m : Nat) : Nat := fld m 76 1
def rdSr (m : Nat) : Nat := fld m 80 16
def rdDynMask (m : Nat) : Nat := fld m 96 2
def rdDynAddr (m : Nat) : Nat := 128 * fld m 100 12

/-- A sum on the exact path (R171). -/
def rdExact (op f : Nat) : Bool := op ≤ 1 && (fmtNarrow f || f == 10)

/-- Check 2 for the REDUCE body. -/
def reduceBodyOk (m : Nat) : Bool :=
  fld m 49 3 == 0 && fld m 61 3 == 0 && fld m 77 3 == 0 && fld m 98 2 == 0 && fld m 112 144 == 0
  && rdOp m != 7 && rdAxis m != 3 && rdRnd m != 3 && (rdDynMask m != 0 || fld m 100 12 == 0)
  && (if rdDst m then rdT m == 0 else fld m 40 8 == 0)

/-- The checks of Table 5.11 for a REDUCE of X by `x` into `o`. -/
def State.reduceCheck (s : State) (c m x o : Nat) : Nat :=
  let sp := s.spad c
  let ds := if rdDst m then [x, o] else [x]
  let tds := if rdDst m then [fld m 32 8, fld m 40 8] else [fld m 32 8]
  let p := vPadded sp (rdDynMask m) (rdDynAddr m) x
  if tds.any (fun t => sp.bad (descAt t) 64) || dynBad sp (rdDynMask m) (rdDynAddr m) then ePoison
  else if !reduceBodyOk m || !ds.all descOk then eFormat
  else if dFmt x == 9 || (dFmt x == 10 && rdOp m != 0) || (!rdExact (rdOp m) (dFmt x) && fld m 64 10 != 0)
      || (rdDst m && (fmtMx (dFmt o) || (dFmt o == 10 && !rdExact (rdOp m) (dFmt x)))) || ds.any (fun d => dNbuf d != 0) then eFormat
  else if rdDst m && !redShapeOk o x (rdAxis m) then eFormat
  else if !dynTablesOk sp (rdDynMask m) (rdDynAddr m) x then eFormat
  else if !dynSizesOk sp (rdDynMask m) (rdDynAddr m) x || (!rdDst m && redIdxBad (rdAxis m) (vBatches x) (p 0) (p 1)) then eRange
  else if ds.any dSpace || !ds.all dInside || (rdDst m && overlap (dSpan o) (dSpan x)) then eRange
  else eOk

/-- What an element of X gives a REDUCE. -/
def redElem (x : Nat) (e : Elem) : RedIn × BitVec 8 :=
  if dFmt x = 10 then ({ record := e.enc, bad := e.bad }, 0)
  else
    let en := fEnter (dFmt x) e
    ({ v := e.value (dFmt x), bits := en.1, bad := e.bad }, en.2)

/-- Does a record break R177? -/
def recordBad (anchor : Int) (r : Nat) : Bool := recordAnchor r != anchor || recordReserved r

/-- The first element of the walk among `open_` whose record breaks R177, as (batch, row, column) (R150, R170). -/
def firstBadRecord (sp : Spad) (x axis v0 v1 : Nat) (anchor : Int) (open_ : Nat → Nat → Nat → Bool) : Option (Nat × Nat × Nat) :=
  let at_ := fun (b i1 i0 : Nat) => (sp.elem x 0 {} (dStored x { i0 := i0, i1 := i1, i2 := b % dLExt x 2, i3 := b / dLExt x 2 })).enc
  let strips := if axis = 1 then (List.range (cdiv v0 1024)).map (fun k => (1024 * k, min 1024 (v0 - 1024 * k))) else [(0, v0)]
  ((List.range (vBatches x)).flatMap (fun b => strips.flatMap (fun st => (List.range v1).flatMap (fun i1 =>
    (List.range st.2).map (fun j => (b, i1, st.1 + j)))))).find? (fun p => open_ p.1 p.2.1 p.2.2 && recordBad anchor (at_ p.1 p.2.1 p.2.2))

/-- Outputs drained before an element of the walk is read (R177). (DEDUCED, log entry 31) -/
def keysBefore (axis : Nat) (p : Nat × Nat × Nat) (key : Nat × Nat) : Bool :=
  key.1 < p.1 || (key.1 == p.1 && (if axis = 0 then key.2 < p.2.1 else if axis = 1 then key.2 / 1024 < p.2.2 / 1024 else false))

/-! ## TLOAD, TSTORE, TFILL (Table 5.2) -/

def tlLin (m : Nat) : Bool := bit m 44
def tlT (m : Nat) : Nat := fld m 40 4
def tlO0 (m : Nat) : Nat := fld m 48 24
def tlO1 (m : Nat) : Nat := fld m 72 24
def tlB (m : Nat) : Nat := fld m 96 24
def tlStart (m : Nat) : Nat := fld m 48 48
def tlCount (m : Nat) : Nat := fld m 96 11
def tsRnd (m : Nat) : Nat := fld m 120 2
def tsOvf (m : Nat) : Nat := fld m 122 1
def tsSr (m : Nat) : Nat := fld m 128 16

/-- Check 2 for the bodies. -/
def tileBodyOk (m mop : Nat) : Bool :=
  if mop = 4 then fld m 32 8 == 0 && fld m 44 20 == 0 && fld m 96 160 == 0
  else fld m 45 3 == 0 && fld m 123 5 == 0 && fld m 144 112 == 0
    && (!tlLin m || (1 ≤ tlCount m && tlCount m ≤ 1024 && fld m 107 13 == 0))
    && (if mop = 2 then fld m 120 3 == 0 && fld m 128 16 == 0 else tsRnd m != 3)

/-- The checks of Table 5.11 for a tile macro-instruction. -/
def State.tileCheck (s : State) (c m mop d : Nat) : Nat :=
  let sp := s.spad c
  if mop != 4 && sp.bad (descAt (fld m 32 8)) 64 then ePoison
  else if !tileBodyOk m mop || (mop != 4 && !descOk d) then eFormat
  else if mop = 4 then eOk
  else if !vInFmtOk (dFmt d) || fmtMx (dFmt d) || dNbuf d != 0 then eFormat
  else if dSpace d || !dInside d then eRange
  else eOk

/-- The logical index of tile element `n`, if it lies within the tensor (R155). -/
def tileIx (m d n : Nat) : Option Ix :=
  let e := dLExt d
  if tlLin m then
    let p := tlStart m + n
    let r := p / e 0
    let b := r / e 1
    if n < tlCount m && b < e 2 * e 3 then some { i0 := p % e 0, i1 := r % e 1, i2 := b % e 2, i3 := b / e 2 } else none
  else
    let i0 := tlO0 m + n % 32
    let i1 := tlO1 m + n / 32
    if i0 < e 0 && i1 < e 1 && tlB m < e 2 * e 3 then some { i0 := i0, i1 := i1, i2 := tlB m % e 2, i3 := tlB m / e 2 } else none

/-! ## Units and tile conflicts (R149) -/

/-- Units, tiles read and tiles written of an entry with chain record `r`: (vector, reduction, read, written). -/
def vecNeeds (e : W256) (r : Nat) (recordUsable : Bool) : Bool × Bool × NSet × NSet :=
  let m := e.toNat
  if mMop e = 1 then (if recordUsable then (true, crRed r, chainTilesRead r, chainTilesWritten r) else (true, true, [], []))
  else if mMop e = 2 then (true, false, [], [tlT m])
  else if mMop e = 3 then (true, false, [tlT m], [])
  else if mMop e = 4 then (true, false, [], [tlT m])
  else (false, true, [], if rdDst m then [] else [rdT m])

/-- Do two register sets share a register? -/
def shareReg (a b : NSet) : Bool := a.any (fun x => NSet.has b x)

/-- Does an entry conflict with the tiles of the entry another unit holds? -/
def tileConflict (n h : Bool × Bool × NSet × NSet) : Bool :=
  shareReg n.2.2.1 h.2.2.2 || shareReg n.2.2.2 h.2.2.1 || shareReg n.2.2.2 h.2.2.2

/-- May the units take an entry now (R149)? -/
def Vec.admits (x : Vec) (e : W256) : Bool :=
  let (r, usable) := match x.copy with | some (r, st) => (r, st == 0) | none => (0, false)
  let n := vecNeeds e r usable
  let held := fun (o : Option W256) => match o with | some h => tileConflict n (vecNeeds h x.chain true) | none => false
  (mMop e != 1 || x.copy.isSome) && !(n.1 && x.vec.isSome) && !(n.2.1 && x.red.isSome) && !(held x.vec) && !(held x.red)

end Sys2Proof.Machine
end

