-- ==== Sys2Proof/Machine/AdvOps.lean ====
section
/-! DEFINITION. The statistics tap (R175, R409, R410). -/

namespace Sys2Proof.Machine

/-- The bin of Table 12.4 for an FP32 result under exponent origin `eo`. -/
def tapBin (eo : Int) (x : F32) (bad : Bool) : Nat :=
  if bad then 63
  else match f32 x with
    | .nan => 62
    | .inf _ => 61
    | .fin _ n e =>
      if n == 0 then 0
      else
        let k := ilog2 n 1 + e
        if k < eo then 1 else if k > eo + 57 then 60 else (k - eo + 2).toNat

/-- Add one to a saturating counter of a bank. -/
def bankAdd (t : Table Nat) (b : Nat) : Table Nat := t.put b (satAdd top32 (t.get 0 b) 1)

/-- Tap counts of vat `v` for layer slot `j`: into the live bank, or discarded and counted outside the vat's range (R409). -/
def State.tap (s : State) (v j : Nat) (xs : List (F32 × Bool)) : State :=
  let a := s.vat v
  if a.advFirst ≤ j && j < a.advFirst + a.advCount then
    s.modAdv j (fun y => { y with live := xs.foldl (fun t p => bankAdd t (tapBin y.eo p.1 p.2)) y.live })
  else s.modVat v (fun y => { y with advForeign := satAdd top16 y.advForeign xs.length })

end Sys2Proof.Machine
end

