-- ==== Sys2Proof/Machine/SpanOps.lean ====
section
/-! DEFINITION. Span frames and their egress (R449-R456, R461, R474): encoding, decoding, classes, routing, joining and queueing. -/

namespace Sys2Proof.Machine

/-! ## Frames (Tables 14.4, 14.5, 15.1) -/

/-- The port of the twin link. -/
def twinPort : Nat := 6

/-- Bytes of the header units that follow a frame's header, by kind (Tables 14.5, 15.1). -/
def unitBytes (twin : Bool) (kind : Nat) : Nat :=
  if twin then (if kind ≤ 3 then 32 else 16)
  else if kind = 1 then 24
  else if kind = 2 || kind = 3 then 32
  else if kind = 4 || kind = 5 then 0
  else 16

/-- Most payload bytes of a kind (Tables 14.5, 15.1). (DEDUCED, log entry 51) -/
def maxLen (twin : Bool) (kind : Nat) : Nat :=
  if twin then (if kind = 8 then 4096 else if kind = 9 then 1040 else if kind = 0xB then 160 else 0)
  else if kind = 4 || kind = 9 then 256
  else if kind = 7 || kind = 0xB then 32
  else if kind = 8 then 3840
  else if kind = 0xA then 4096
  else 0

/-- Is a kind code assigned? -/
def kindOk (twin : Bool) (kind : Nat) : Bool :=
  if twin then kind != 0 && kind != 6 && kind ≤ 0xB else kind != 0 && kind != 6 && kind ≤ 0xC

/-- Is a kind a priority kind? -/
def isPrio (kind : Nat) : Bool := kind ≤ 3

/-- The virtual channel of an ordinary kind (Tables 14.5, 15.1). (DESIGN CHOICE, log entry 50) -/
def vcOf (twin : Bool) (kind : Nat) : Nat :=
  if twin then (if kind ≤ 7 then 0 else if kind ≤ 0xA then 1 else 3)
  else if kind = 8 then 1
  else if kind = 9 || kind = 0xA then 2
  else if kind = 0xB then 3
  else 0

/-- The credit pool of a frame (R455, R456); on the twin port there is one class. (DESIGN CHOICE, log entry 50) -/
def poolOf (twin : Bool) (f : Frame) : Nat := if isPrio f.kind then 8 else vcOf twin f.kind + (if f.dl && !twin then 4 else 0)

/-- Payload bytes a frame carries: an RREAD's len asks for bytes and carries none. -/
def Frame.carried (f : Frame) (twin : Bool) : Nat := if !twin && f.kind = 9 then 0 else f.len

/-- Cells of a frame (R451, R452). -/
def Frame.cells (f : Frame) (twin : Bool) : Nat :=
  cdiv (16 + unitBytes twin f.kind + (if f.bad.isEmpty then 0 else 16 * cdiv (f.carried twin) 512) + f.carried twin) 64

/-- The header of Table 14.4. (DEDUCED, log entry 51) -/
def Frame.header (f : Frame) (twin : Bool) : Nat :=
  f.kind + b2n (!f.bad.isEmpty) * 2 ^ 4 + b2n f.dl * 2 ^ 5 + f.cells twin * 2 ^ 8 + f.dst * 2 ^ 16 + f.src * 2 ^ 33 + f.job * 2 ^ 50 + f.len * 2 ^ 66
    + f.tag * 2 ^ 79 + f.status * 2 ^ 91 + f.dstCl * 2 ^ 99 + f.dstCore * 2 ^ 105 + f.hops * 2 ^ 111

/-- Bytes filled with zeros to whole cells. -/
def padCells (bs : List Byte) : List Byte := bs ++ List.replicate (64 * cdiv bs.length 64 - bs.length) 0

/-- The poison bitmap of R452. -/
def bitmap (bad : NSet) (len : Nat) : List Byte := leBytes (16 * cdiv len 512) (bad.foldl (fun m w => m + 2 ^ w) 0)

/-- The bytes of a frame, whole cells (R449-R452). (DEDUCED, log entry 51) -/
def Frame.bytes (f : Frame) (twin : Bool) : List Byte :=
  padCells (leBytes 16 (f.header twin) ++ leBytes (unitBytes twin f.kind) f.unit ++ (if f.bad.isEmpty then [] else bitmap f.bad (f.carried twin))
    ++ f.data.take (f.carried twin))

/-- Fields of a channel header (Table 8.5). -/
def chKind (u : Nat) : Nat := fld u 0 4

/-- The kind's own rules on its header units: reserved bits zero, kinds within the class, and a SYNC body that repeats the header's
fields (R451, R468, R458, Table 10.2). (DEDUCED, log entry 51) -/
def unitOk (twin : Bool) (f : Frame) : Bool :=
  let u := f.unit
  if f.kind = 2 then (fld u 0 4 == 1 || fld u 0 4 == 2) && fld u 56 8 == 0 && fld u 192 64 == 0
  else if f.kind = 3 then 1 ≤ fld u 0 4 && fld u 0 4 ≤ 3 && (if fld u 0 4 = 3 then u / 16 == 0 else if twin then fld u 218 38 == 0 else fld u 168 88 == 0)
  else if twin then
    if f.kind = 1 then fld u 36 28 == 0 && fld u 128 128 == 0
    else if f.kind = 0xB then 1 ≤ fld u 4 4 && fld u 4 4 ≤ 3 && fld u 8 120 == 0
    else if f.kind = 4 then fld u 36 92 == 0
    else if f.kind = 5 || f.kind = 0xA then fld u 4 4 == 0 && fld u 48 80 == 0
    else if f.kind = 7 then fld u 4 4 == 0 && fld u 16 112 == 0
    else if f.kind = 8 then fld u 52 76 == 0
    else if f.kind = 9 then fld u 12 116 == 0
    else true
  else if f.kind = 1 then
    fld u 49 15 == 0 && fld u 112 16 == 0 && fld u 0 17 == f.dst && fld u 17 17 == f.src && fld u 96 16 == f.job
  else if f.kind = 9 || f.kind = 0xA then fld u 48 80 == 0
  else if f.kind = 8 then chKind u == 1 && fld u 22 2 == 0 && fld u 112 16 == 0
  else if f.kind = 0xB then (chKind u == 4 || chKind u == 6 || chKind u == 9) && fld u 22 2 == 0 && fld u 112 16 == 0
  else if f.kind = 7 then (chKind u == 2 || chKind u == 3 || chKind u == 5 || chKind u == 7 || chKind u == 8) && fld u 22 2 == 0 && fld u 112 16 == 0
  else true

/-- Read a frame from its cells; the second part says whether R454 lets it pass. -/
def parseFrame (twin : Bool) (bs : List Byte) : Frame × Bool :=
  let h := leNat (bs.take 16)
  let kind := fld h 0 4
  let ub := unitBytes twin kind
  let f : Frame := { kind := kind, dl := bit h 5, dst := fld h 16 17, src := fld h 33 17, job := fld h 50 16, len := fld h 66 13, tag := fld h 79 12,
                     status := fld h 91 8, dstCl := fld h 99 6, dstCore := fld h 105 6, hops := fld h 111 17, unit := leNat ((bs.drop 16).take ub) }
  let n := f.carried twin
  let mb := if bit h 4 then 16 * cdiv n 512 else 0
  let m := leNat ((bs.drop (16 + ub)).take mb)
  let g := { f with bad := (List.range (cdiv n 4)).filter (fun w => bit m w), data := (bs.drop (16 + ub + mb)).take n }
  (g, kindOk twin kind && fld h 6 2 == 0 && !bit h 15 && f.len ≤ maxLen twin kind && fld h 8 7 == cdiv (16 + ub + mb + n) 64
      && bs.length == 64 * fld h 8 7 && unitOk twin g)

/-! ## Egress (R453, R459, R461) -/

/-- Answer the packets of a frame with a status (R459, R467). -/
def State.answerAll (s : State) (who : List ReqBy) (status : Nat) : State := who.foldl (fun s w => s.send (.spanAnswer w status [] [])) s

/-- A SYNC frame is lost on a link: counted, and the sending vat's DET_BREAK source fires (R459). -/
def State.syncLost (s : State) (vat : Option Nat) : State :=
  let s1 : State := { s with span := { s.span with lost := satAdd top16 s.span.lost 1 } }
  match vat with
  | some v => s1.fireVat v 1
  | none => s1

/-- A frame is discarded for a port that is not UP: its packets are answered with E_TIMEOUT, a SYNC frame is lost (R459). -/
def State.dropTx (s : State) (x : TxFrame) : State :=
  if x.f.kind = 1 then s.syncLost x.vat else s.answerAll x.who eTimeout

/-- The route of a node: the port, or none for the entries 6 and 7 (R461). -/
def State.spanRoute (s : State) (node : Nat) : Option Nat :=
  let p := s.span.routes.get 7 node
  if p < 6 then some p else none

/-- Queue a frame at a port. -/
def State.queueTx (s : State) (p : Nat) (x : TxFrame) : State :=
  if (s.port p).st = .up then s.modPort p (fun y => { y with txq := y.txq ++ [x] }) else s.dropTx x

/-- A frame of this device leaves by its route; without one its packets are answered with E_RANGE and it is counted (R461). -/
def State.egress (s : State) (x : TxFrame) : State :=
  match s.spanRoute x.f.dst with
  | some p => s.queueTx p x
  | none => ({ s with span := { s.span with routeDrops := satAdd top16 s.span.routeDrops 1 } } : State).answerAll x.who eRange

/-- May a DATA packet with this frame join frame `x` (R453)? -/
def joinsChan (x : TxFrame) (w : ReqBy) (f : Frame) : Bool :=
  x.joining && x.f.kind == 8 && x.who.head? == some w && x.f.dst == f.dst && x.f.dstCl == f.dstCl && x.f.dstCore == f.dstCore && x.f.job == f.job
  && fld x.f.unit 4 6 == fld f.unit 4 6 && fld x.f.unit 48 24 == fld f.unit 48 24 && fld x.f.unit 72 32 == fld f.unit 72 32
  && fld x.f.unit 24 24 + x.f.len == fld f.unit 24 24 && x.who.length < 16

/-- May a WRITE join frame `x` (R453)? -/
def joinsWrite (x : TxFrame) (core : Nat) (f : Frame) : Bool :=
  x.joining && x.f.kind == 0xA && x.f.tag == core % 4096 && x.f.dst == f.dst && x.f.unit + x.f.len == f.unit && x.f.unit / 4096 == (f.unit + f.len - 1) / 4096

/-- Join a frame's payload onto another. -/
def TxFrame.join (x : TxFrame) (y : TxFrame) (now : Nat) : TxFrame :=
  let off := x.f.len
  let f := { x.f with len := off + y.f.len, data := x.f.data ++ y.f.data, bad := (y.f.bad.map (· + off / 4)).foldl NSet.add x.f.bad,
                      unit := if x.f.kind = 8 then x.f.unit ||| (y.f.unit &&& 0x30000) else x.f.unit }
  let done := if x.f.kind = 8 then bit y.f.unit 16 || x.who.length == 15 else (f.unit + f.len) % 4096 == 0
  { x with f := f, who := x.who ++ y.who, joining := !done, joinAt := now, badAt := if x.badAt.isSome then x.badAt else y.badAt }

/-- Queue a frame that later packets may join, or join it to one that waits (R453). The core of a write stands in its tag until it is
sent. -/
def State.joinTx (s : State) (core : Nat) (x : TxFrame) : State :=
  match s.spanRoute x.f.dst with
  | none => s.egress x
  | some p =>
    if (s.port p).st != .up then s.dropTx x
    else
      let now := s.clk.fast.toNat
      let fits := fun (y : TxFrame) => if x.f.kind = 8 then (match x.who.head? with | some w => joinsChan y w x.f | none => false) else joinsWrite y core x.f
      let q := (s.port p).txq
      if q.any fits then s.modPort p (fun y => { y with txq := q.map (fun y => if fits y then y.join x now else y) })
      else
        let same := fun (y : TxFrame) => y.joining && y.f.kind == x.f.kind && (if x.f.kind = 8 then y.who.head? == x.who.head? else y.f.tag == core % 4096)
        let done := if x.f.kind = 8 then bit x.f.unit 16 else (x.f.unit + x.f.len) % 4096 == 0
        let f := if x.f.kind = 8 then x.f else { x.f with tag := core % 4096 }
        s.modPort p (fun y => { y with txq := q.map (fun y => if same y then { y with joining := false } else y) ++ [{ x with f := f, joining := !done, joinAt := now }] })

/-! ## Requests to remote windows (R464, R467) -/

/-- The node and address a remote window address names for a core (R464). -/
def State.remoteOf (s : State) (c a : Nat) : Nat × Nat × Nat :=
  let v := (s.vatOfCore c).getD 0
  (v, (s.spanWin v (fld a 42 6)).2, fld a 0 42)

/-- A read of a core: to a remote window an RREAD frame, else a packet (R464). -/
def State.devRead (s : State) (c a n : Nat) (who : ReqBy) (o : Out) : State :=
  if remoteBase ≤ a then
    let (v, node, x) := s.remoteOf c a
    s.egress { f := { kind := 9, dst := node, src := s.span.node, job := (s.vat v).jobId, len := n, unit := x }, vat := some v, who := [who] }
  else s.send o

/-- A write of a core: to a remote window it joins an RWRITE frame, else a packet (R453, R464). -/
def State.devWrite (s : State) (c a : Nat) (data : List Byte) (bad : NSet) (who : ReqBy) (o : Out) : State :=
  if remoteBase ≤ a then
    let (v, node, x) := s.remoteOf c a
    s.joinTx c { f := { kind := 0xA, dst := node, src := s.span.node, job := (s.vat v).jobId, len := data.length, unit := x, data := data,
                        bad := badWords (fun i => bad.has i) 0 data.length },
                 vat := some v, who := [who], badAt := bad.head?.map (a + ·) }
  else s.send o

/-! ## Channel packets (Table 8.5) -/

/-- The channel header of a packet of a kind (Table 8.5). (DESIGN CHOICE, log entry 60) -/
def chanHeader (kind : Nat) (m : ChMsg) : Nat :=
  kind + m.dstEp % 64 * 2 ^ 4 + m.srcEp % 64 * 2 ^ 10 + b2n m.last * 2 ^ 16 + b2n m.ackReq * 2 ^ 17 + m.mc % 16 * 2 ^ 18 + m.off % 2 ^ 24 * 2 ^ 24
    + m.conn % 2 ^ 24 * 2 ^ 48 + m.seq % 2 ^ 32 * 2 ^ 72 + m.status % 256 * 2 ^ 104

/-- Send a channel packet of core `c`: to another device it is taken by a span port in a CHAN, CHREQ or CHRSP frame, else it stays on the mesh,
addressed to the position that the copy of core `c` gives (R222, R267); a number to which it gives none has no position to send to. The frame carries the target core in dst_cluster and dst_core, and the sender's cluster and core in tag (DESIGN CHOICE, log entry 60). -/
def State.chanOut (s : State) (c kind node cl core : Nat) (route : Option Nat) (m : ChMsg) : State :=
  if !m.remote || node = s.span.node then
    (if route.isNone && (s.physFor c cl core).isNone then s else s.send (.chan kind (if route.isSome then none else s.physFor c cl core) route m))
  else
    let fk := if kind = 1 then 8 else if kind = 4 || kind = 6 || kind = 9 then 0xB else 7
    let w : ReqBy := .packet m.srcCl m.srcCore m.srcEp kind
    let x : TxFrame :=
      { f := { kind := fk, dst := node, src := s.span.node, job := m.job, len := m.data.length, tag := 64 * m.srcCl + m.srcCore, dstCl := cl, dstCore := core,
               unit := chanHeader kind m, data := m.data, bad := badWords (fun i => m.bad.contains i) 0 m.data.length },
        vat := s.ownerOf m.srcCl, who := [w] }
    if fk = 8 then s.joinTx 0 x else s.egress x

/-- The packet of a channel frame as a core receives it. (DESIGN CHOICE, log entry 60) -/
def Frame.chMsg (f : Frame) (port : Nat) : ChMsg :=
  let u := f.unit
  { dstEp := fld u 4 6, srcEp := fld u 10 6, srcCl := f.tag / 64, srcCore := f.tag % 64, remote := true, srcNode := f.src, port := port, job := f.job,
    last := bit u 16, ackReq := bit u 17, mc := fld u 18 4, off := fld u 24 24, conn := fld u 48 24, seq := fld u 72 32, status := fld u 104 8,
    data := f.data, bad := (List.range f.data.length).filter (fun i => f.bad.has (i / 4)),
    reserved := !(decide (1 ≤ fld u 0 4) && decide (fld u 0 4 ≤ 9)) || fld u 22 2 != 0 || fld u 112 16 != 0 }

/-- Cells of a port's receive buffer are freed (R455). LINK frames take no credit. -/
def State.freeCells (s : State) (port : Nat) (x : RxFrame) : State :=
  if x.f.kind = 3 then s else s.modPort port (fun p => { p with freed := p.freed.upd 0 x.pool (fun n => (n + x.cells) % 1024) })

/-- Take the first waiting frame of a port that a test picks, and free its cells. (DESIGN CHOICE, log entry 2) -/
def State.takeFrame (s : State) (port : Nat) (p : Frame → Bool) : Option (RxFrame × State) :=
  let q := (s.port port).rxq
  match q.find? (fun x => p x.f) with
  | some x => some (x, (s.modPort port (fun y => { y with rxq := q.takeWhile (fun z => !p z.f) ++ (q.dropWhile (fun z => !p z.f)).drop 1 })).freeCells port x)
  | none => none

/-- A REFUSE frame for a refused frame (R451). -/
def State.refuseFrame (s : State) (f : Frame) (status : Nat) : State :=
  s.egress { f := { kind := 0xC, dst := f.src, src := s.span.node, job := f.job, tag := f.tag, status := status, unit := f.unit % 2 ^ 128 } }

/-- A refusal of a channel packet of a kind (R264, R266): to a sender on another device a REFUSE frame. -/
def State.chanRefused (s : State) (kind : Nat) (m : ChMsg) (status : Nat) : State :=
  if !m.remote || m.srcNode = s.span.node then s.send (.chanRefuse m status)
  else s.refuseFrame { kind := 8, src := m.srcNode, job := m.job, tag := 64 * m.srcCl + m.srcCore, unit := chanHeader kind m } status

/-- Is a kind one that a REFUSE answers (R451)? -/
def refusable (kind : Nat) : Bool := kind == 8 || kind == 9 || kind == 0xA || kind == 0xB

end Sys2Proof.Machine
end

