-- ==== Sys2Proof/Machine/TwinOps.lean ====
section
/-! DEFINITION. Commits of a mirrored vat (R478, R484-R488): the records of Table 15.3, log units, and the COMMIT frame. -/

namespace Sys2Proof.Machine

/-! ## Images of mirrored items -/

/-- Codes of Table 13.2. -/
def SeqSt.code : SeqSt → Nat
  | .empty => 0
  | .pending => 1
  | .active => 2
  | .paused => 3
  | .done => 4

/-- The state of a code; codes 5-7 are reserved. -/
def SeqSt.ofCode (n : Nat) : SeqSt := if n = 1 then .pending else if n = 2 then .active else if n = 3 then .paused else if n = 4 then .done else .empty

/-- A sequence slot in Table 13.1 layout. (DESIGN CHOICE, log entry 62) -/
def Seq.image (y : Seq) : Nat :=
  y.st.code + b2n y.pauseReq * 2 ^ 3 + b2n y.stopReq * 2 ^ 4 + b2n y.nopage * 2 ^ 5 + y.reason * 2 ^ 8 + y.tag * 2 ^ 32 + y.promptLen * 2 ^ 64 + y.pos * 2 ^ 88
    + y.maxLen * 2 ^ 112 + y.gen * 2 ^ 136 + y.ptAddr * 2 ^ 160 + y.ptPages * 2 ^ 208 + y.outAddr * 2 ^ 224 + y.admitNo * 2 ^ 288 + y.joinStep * 2 ^ 320
    + y.lastStep * 2 ^ 352 + y.row * 2 ^ 384

/-- The slot an image of Table 13.1 holds. -/
def Seq.ofImage (m : Nat) : Seq :=
  { st := SeqSt.ofCode (fld m 0 3), pauseReq := bit m 3, stopReq := bit m 4, nopage := bit m 5, reason := fld m 8 2, tag := fld m 32 32,
    promptLen := fld m 64 24, pos := fld m 88 24, maxLen := fld m 112 24, gen := fld m 136 24, ptAddr := fld m 160 48, ptPages := fld m 208 16,
    outAddr := fld m 224 48, admitNo := fld m 288 32, joinStep := fld m 320 32, lastStep := fld m 352 32, row := fld m 384 13 }

/-- A version table entry in Table 11.12 layout. (DESIGN CHOICE, log entry 62) -/
def VerEnt.image (e : VerEnt) : Nat :=
  e.epoch0.toNat + e.epoch1.toNat * 2 ^ 64 + e.base0 * 2 ^ 128 + e.pins0 * 2 ^ 176 + e.base1 * 2 ^ 192 + e.pins1 * 2 ^ 240 + e.size * 2 ^ 256 + e.vat * 2 ^ 296
    + b2n e.defined * 2 ^ 300 + b2n e.valid0 * 2 ^ 301 + b2n e.valid1 * 2 ^ 302 + e.cur * 2 ^ 303 + b2n e.upd * 2 ^ 304 + b2n e.aside * 2 ^ 305

/-- The entry an image of Table 11.12 holds. -/
def VerEnt.ofImage (m : Nat) : VerEnt :=
  { epoch0 := BitVec.ofNat 64 (fld m 0 64), epoch1 := BitVec.ofNat 64 (fld m 64 64), base0 := fld m 128 48, pins0 := fld m 176 16, base1 := fld m 192 48,
    pins1 := fld m 240 16, size := fld m 256 40, vat := fld m 296 4, defined := bit m 300, valid0 := bit m 301, valid1 := bit m 302, cur := fld m 303 1,
    upd := bit m 304, aside := bit m 305 }

/-! ## Records (Table 15.3) -/

/-- The records of a vat as they stand, with their MREC types: one for each slot of its range and one for the batcher registers, one
for each version entry it owns, and one for the sheet registers. -/
def State.mirrorRecords (s : State) (v : Nat) : List (Nat × List Byte) :=
  let x := s.vat v
  (List.range x.btCount).map (fun i => (1, leBytes 4 i ++ leBytes 64 (s.seqSlot (x.btFirst + i)).image))
    ++ [(1, leBytes 4 0xFFFFFFFF ++ leBytes 4 x.bt.steps.toNat ++ leBytes 4 (b2n x.bt.prev) ++ leBytes 8 x.bt.rot)]
    ++ (s.mem.vers.filter (fun p => p.2.defined && p.2.vat == v)).map (fun p => (2, leBytes 4 p.1 ++ leBytes 64 p.2.image))
    ++ [(3, leBytes 8 x.srSeed.toNat ++ leBytes 4 x.srSheet.toNat ++ leBytes 8 x.mouldId.toNat ++ leBytes 4 x.det.wmIdx.toNat)]

/-- A frame of a mirrored vat on the twin link. -/
def State.twinFrame (s : State) (v kind unit : Nat) (data : List Byte) : TxFrame :=
  { f := { kind := kind, dst := s.span.tw.cfgPeer, src := s.span.node, job := (s.vat v).jobId, len := data.length, unit := unit, data := data }, vat := some v }

/-- Queue a frame at the twin port; the mirror queue is not lost when the link leaves UP. -/
def State.queueTwin (s : State) (x : TxFrame) : State := s.modPort twinPort (fun p => { p with txq := p.txq ++ [x] })

/-- The mirror records of a commit leave, each using a unit for each 192 B (R485). (DESIGN CHOICE, log entry 62) -/
def State.sendRecords (s : State) (v : Nat) : State :=
  (s.mirrorRecords v).foldl (fun s r =>
    (s.queueTwin (s.twinFrame v 9 (v + r.1 * 2 ^ 4) r.2)).modVat v (fun x => { x with tw := { x.tw with units := x.tw.units + cdiv r.2.length 192 } })) s

/-- Is the reclaim step of a vat HELD or later (R509)? -/
def Vat.heldOrLater (x : Vat) : Bool := x.reclaim.step == .held || x.reclaim.step == .evacuating || x.reclaim.step == .wiping

/-- Log units of a vat's TWIN_LOG, 256 B each (R485). -/
def Vat.logUnits (x : Vat) : Nat := 16 * x.tw.logPages

/-- The mirror status of a vat becomes TORN or LAPSED: vat event 6 fires (Table 18.2). -/
def State.setMstat (s : State) (v m : Nat) : State :=
  let old := (s.vat v).tw.mstat
  let s1 := s.modVat v (fun x => { x with tw := { x.tw with mstat := m } })
  if m != old && (m = 1 || m = 3) then s1.fireVat v 6 else s1

/-- Withheld completions of a vat that a test picks wait for their records, with a status of their own where one is given (R487). -/
def State.releaseHost (s : State) (v : Nat) (p : Nat → Option (Option Nat)) : State :=
  (List.range 17).foldl (fun s r =>
    let x := s.ring r
    let hit := fun (d : HostDone) => if d.cmd.vat = v then p d.commit else none
    let go := x.withheld.filterMap (fun d => (hit d).map (fun st => { d with status := st.getD d.status }))
    if go.isEmpty then s else s.setRing r { x with withheld := x.withheld.filter (fun d => (hit d).isNone), done := x.done ++ go }) s

/-- A commit closes (R484): its records leave, then COMMIT with OK or, if a captured write held poison, E_POISON, which is a commit point
(R488, R553). A commit that needs more units than the whole log ends with E_RANGE, as do the releases it covers, and the vat lapses (R485). (DEDUCED, log entry 100) -/
def State.takeCommit (s : State) (v : Nat) (resync cmd : Bool) : State :=
  let s1 := s.sendRecords v
  let w := (s1.vat v).tw
  let no := (w.no + 1) % 2 ^ 32
  if w.peerUnits < w.units then
    ((s1.modVat v (fun x => { x with tw := { x.tw with status := eRange, busy := false, units := 0, curBad := none } })).setMstat v 3).releaseHost v
      (fun k => if k = no then some (some eRange) else none)
  else
    let status := if w.curBad.isSome then ePoison else eOk
    let s2 := s1.queueTwin (s1.twinFrame v 0xA (v + status * 2 ^ 8 + no * 2 ^ 16) [])
    let s3 := s2.modVat v (fun x => { x with tw := { x.tw with no := no, sent := BitVec.ofNat 32 no, units := 0, curBad := none,
                                                               commits := x.tw.commits ++ [{ no := no, resync := resync, cmd := cmd, bad := w.curBad }] } })
    match w.curBad with
    | some a => s3.containPoint v 3 (srcHub 8) a a
    | none => s3

/-- Is a vat mirrored from this device now (R487)? -/
def Vat.mirrored (x : Vat) : Bool := x.tw.mode != 0 && !x.tw.standby && x.tw.mstat != 3

/-- A sheet or STEP of a CONTINUOUS vat has ended: a commit is taken in that cycle (R484). (DEDUCED, log entry 100) -/
def State.autoCommit (s : State) (v : Nat) : State :=
  let x := s.vat v
  if x.mirrored && x.tw.mode == 2 && !x.heldOrLater && !(x.tw.commits.any (·.bad.isSome)) then s.takeCommit v false false else s

/-- Poisoned 4 B words of a stack range, as indexes. -/
def State.stackBadWords (s : State) (a n : Nat) : NSet := badWords (fun i => s.mem.poison.has ((a + i) / 16) || s.mem.ue.has ((a + i) / 16)) 0 n

/-- Copy a range into the mirror queue, one captured write for each 4 KiB (R479, R483); the controllers' reads are charged. -/
def State.twinCopy (s : State) (v a n : Nat) : State :=
  (List.range (n / 4096)).foldl (fun s i =>
    let p := a + 4096 * i
    ((s.noteStack (some v) p 4096).accountStk v 2 4096).captureWrite v p (s.stackRead p 4096) (s.stackBadWords p 4096)) s

/-- The copy and commit of a resync or STEP commit begin once the stack engine commands accepted before it are complete (R483, R484). -/
def State.twinGo (s : State) (v : Nat) : State :=
  let w := (s.vat v).tw
  if w.pendCmd = 0 || s.mem.cmds.any (fun k => k.vat == v && k.id < w.cmdLine && k.stage != .aside) then s
  else
    let s1 :=
      if w.pendCmd = 1 then w.dirty.foldl (fun s b => s.twinCopy v (65536 * b) 65536) s
      else (List.range 8).foldl (fun s i =>
        let r := (w.ranges.get 0 i).toNat
        if bit r 63 then s.twinCopy v (4096 * fld r 0 36) (4096 * fld r 36 24) else s) s
    (s1.modVat v (fun x => { x with tw := { x.tw with dirty := [], pendCmd := 0 } })).takeCommit v (w.pendCmd == 2) (w.pendCmd == 1)

/-- The commit that covers a release made now: the last taken in CONTINUOUS, the next in STEP (R484, R487). -/
def Vat.covering (x : Vat) : Nat := if x.tw.mode = 1 then (x.tw.no + 1) % 2 ^ 32 else x.tw.no

/-- Does a release made now wait for a commit: one still to be taken in STEP, or taken and not yet acknowledged in CONTINUOUS (R487)? -/
def Vat.withholds (x : Vat) : Bool := x.mirrored && (x.tw.mode == 1 || x.tw.commits.any (·.no == x.tw.no))

end Sys2Proof.Machine
end

