-- ==== Sys2Proof/Machine/HostOps.lean ====
section
/-! DEFINITION. Host commands: taking the next one of a ring, finishing it, and its record (R526-R533, Tables 17.6-17.10). -/

namespace Sys2Proof.Machine

/-- A command of a ring by its number. -/
def Ring.find (x : Ring) (uid : Nat) : Option HostCmd := x.cmds.find? (fun k => k.uid == uid)

/-- Commands that count against the limit of R527. -/
def Ring.outstanding (x : Ring) : Nat := x.cmds.length + x.withheld.length + x.done.length

/-- The next command a ring applies: every command before it is applied, and with a fence, COMPLETE (R526). -/
def Ring.nextCmd (x : Ring) : Option HostCmd :=
  match x.cmds.find? (fun k => !k.applied) with
  | some k =>
    if k.fence && (x.cmds.any (fun j => j.uid < k.uid) || x.withheld.any (fun d => d.cmd.uid < k.uid) || x.done.any (fun d => d.cmd.uid < k.uid)) then none
    else some k
  | none => none

/-- Mark a command applied. -/
def Ring.apply (x : Ring) (uid : Nat) : Ring :=
  { x with cmds := x.cmds.map (fun k => if k.uid == uid then { k with applied := true } else k) }

/-- Commands whose completion is a release: START, RESUME, STEP and STEP_NOADV, and doorbell starts (R487, R531). -/
def HostCmd.isRelease (k : HostCmd) : Bool := k.op == 0x04 || k.op == 0x06 || (k.op == 0x0A && fld k.entry 64 2 != 3) || k.op == 0x10

/-- A disabled ring with no command left returns to its reset pointers and phase (R530). -/
def Ring.settle (x : Ring) : Ring :=
  if !x.en && x.cmds.isEmpty && x.withheld.isEmpty && x.done.isEmpty then
    { sqBase := x.sqBase, cqBase := x.cqBase, vec := x.vec, sizeLog2 := x.sizeLog2, nextUid := x.nextUid }
  else x

/-- A command finishes: it leaves ACCEPTED, to WITHHELD for a release of a mirrored vat, else to wait for its record (R528-R531). (DEDUCED, log entry 75) -/
def State.hostFinish (s : State) (h : Option (Nat × Nat)) (status r0 r1 : Nat) : State :=
  match h with
  | none => s
  | some (r, uid) =>
    let x := s.ring r
    match x.find uid with
    | none => s
    | some k =>
      let d : HostDone := { cmd := k, status := status, r0 := r0, r1 := r1 }
      let rest := x.cmds.filter (fun j => j.uid != uid)
      if x.discard then s.setRing r ({ x with cmds := rest } : Ring).settle
      else if k.isRelease && k.applied && (s.vat k.vat).withholds && status != eState then s.setRing r { x with cmds := rest, withheld := x.withheld ++ [{ d with commit := (s.vat k.vat).covering }] }
      else s.setRing r { x with cmds := rest, done := x.done ++ [d] }

/-- The vat that HOST_VFMAP maps virtual function `n` to (R517). -/
def State.vfVat (s : State) (n : Nat) : Option Nat :=
  let e := s.host.vfMap.get (false, 0) n
  if e.1 then some e.2 else none

/-- The function that owns a ring: 1 + n for the VF mapped to its vat, else the PF, 0 (R519). -/
def State.ringFn (s : State) (r : Nat) : Nat :=
  if r = 16 then 0
  else match (List.range 16).find? (fun n => s.vfVat n == some r) with
    | some n => 1 + n
    | none => 0

/-- A refused command is logged at its function (R526). -/
def State.hostRefuse (s : State) (r uid status : Nat) : State :=
  let k := ((s.ring r).find uid).getD {}
  (s.hostFinish (some (r, uid)) status 0 0).log (srcHost (s.ringFn r)) evRefused status (some k.vat) 0 k.op

/-- Who sends a command to a vat: the source, and the host command when a ring sends it. -/
structure Caller where
  host : Option (Nat × Nat) := none
  entry : Nat := 0
  deriving DecidableEq, Repr

/-- Apply a command from a source: a ring's command is taken when it is the ring's next and is this operation for this vat, and its
vat is valid in the plan in force (R526, R532). One that needs cores of clusters in RETAIN or OFF wakes them, and waits to be
presented again (R569). (DESIGN CHOICE, log entry 2) -/
def State.command (s : State) (src : Src) (op v : Nat) (f : State → Caller → State) : State :=
  match src with
  | .host r =>
    match (s.ring r).nextCmd with
    | some k =>
      if k.op != op || k.vat != v || !s.fastOn then s
      else if needsCores op && !(s.vatAwake v) then s.wakeVat v
      else
        let s1 := s.setRing r ((s.ring r).apply k.uid)
        if op != 0x26 && op != 0x27 && !(s.planOf v).valid then s1.hostRefuse r k.uid eState
        else f s1 { host := some (r, k.uid), entry := k.entry }
    | none => s
  | _ => if !(s.planOf v).valid || !s.fastOn then s else if needsCores op && !(s.vatAwake v) then s.wakeVat v else f s {}

/-- A command that is not legal in the state it meets: no side effect, logged; the vatman sees it in VAT_CTL.status and vat event 2
fires; a host command gets its record (R296, R526, Table 18.2). -/
def State.refuseCmd (s : State) (v : Nat) (k : Caller) (status : Nat) : State :=
  match k.host with
  | some (r, uid) => s.hostRefuse r uid status
  | none =>
    ((s.modVat v (fun x => { x with ctlStatus := status })).log (srcVat v) evRefused status (some v) 0 0).fireVat v 2

/-- A command applied whose completion is its application. -/
def State.okCmd (s : State) (v : Nat) (k : Caller) : State :=
  match k.host with
  | some _ => s.hostFinish k.host eOk 0 0
  | none => s.modVat v (fun x => { x with ctlStatus := eOk })

/-- Bytes of a completion record (Table 17.10). -/
def recordBytes (d : HostDone) (phase : Bool) : List Byte :=
  leBytes 32 (d.cmd.tag + d.cmd.op * 2 ^ 16 + d.status * 2 ^ 24 + d.cmd.vat * 2 ^ 32 + d.cmd.index * 2 ^ 48 + (d.r0 % 2 ^ 64) * 2 ^ 64
    + (d.r1 % 2 ^ 64) * 2 ^ 128 + b2n phase * 2 ^ 255)

end Sys2Proof.Machine
end

