-- ==== Sys2Proof/Machine/Advisor.lean ====
section
/-! DEFINITION. The couch reset and the format advisor's LOAD and close (Chapter 12). -/

namespace Sys2Proof.Machine

/-- Do the couch registers of a vat take writes now (R406)? -/
def Vat.couchOpen (x : Vat) : Bool := x.st != .loading && x.st != .running && x.st != .stopping

/-- VAT_COUCH_CTL.reset (R406): every top pointer of the vat becomes 0; refused with E_STATE and logged while LOADING, RUNNING or
STOPPING. -/
def execCouchReset (v : Nat) (s : State) : Res :=
  .next (if 16 ≤ v then s
    else if !(s.vat v).couchOpen then s.log (srcVat v) evRefused eState (some v) 0 0
    else s.clearTops v)

/-! ## Policy records (Table 12.5) -/

def polEn (r : Nat) : Bool := bit r 0
def polDump (r : Nat) : Bool := bit r 1
def polEo (r : Nat) : Int := sfld r 8 9
def polCand (r j : Nat) : Nat := fld r (24 + 8 * j) 5
def polLast (r : Nat) : Nat := fld r 56 2
def polClip (r : Nat) : Nat := fld r 64 4
def polUthr (r : Nat) : Nat := fld r 68 4
def polHyst (r : Nat) : Nat := fld r 72 4

/-- A record that keeps R411's rules: reserved bits zero, eo in range, candidates of codes 0x00-0x08, uthr_log2 not 0. -/
def polOk (r : Nat) : Bool :=
  fld r 2 6 == 0 && fld r 17 7 == 0 && (List.range 4).all (fun j => fld r (29 + 8 * j) 3 == 0) && fld r 58 6 == 0 && fld r 76 180 == 0
  && decide (-149 ≤ polEo r) && decide (polEo r ≤ 70) && (List.range (polLast r + 1)).all (fun j => decide (polCand r j ≤ 8)) && polUthr r != 0

/-- emax and m_low as the advisor takes them (R411). -/
def advEmax (f : Nat) : Int := if f ≤ 1 then 127 else if f = 2 then 15 else if f = 8 then 7 else fmtEmax f
def advMlow (f : Nat) : Int := if f = 0 then -149 else if f = 1 then -133 else if f = 2 then -24 else if f = 8 then 0 else fmtMlow f

/-! ## Evaluation (R413, R414) -/

/-- Sum of the counters of bins `[lo, lo + n)`. -/
def bankSum (b : Table Nat) (lo n : Nat) : Nat := (List.range n).foldl (fun t i => t + b.get 0 (lo + i)) 0

/-- The bins from 59 down to 2 until the clip allowance is passed: e_top. -/
def advTop (b : Table Nat) (eo : Int) (cap : Nat) : Nat → Nat → Int
  | 0, _ => eo - 1
  | k + 1, above => if above + b.get 0 (k + 2) > cap then eo + k else advTop b eo cap k (above + b.get 0 (k + 2))

/-- shift(f) (R413). -/
def advShift (f : Nat) (top : Int) : Int := if f ≤ 1 then 0 else max (-128) (min 127 (advEmax f - top))

/-- Values that underflow under a candidate. -/
def advUnder (b : Table Nat) (eo top : Int) (f : Nat) : Nat :=
  let lim := advMlow f - advShift f top
  (List.range 58).foldl (fun (t : Nat) (i : Nat) => if eo + (i : Int) < lim then t + b.get 0 (i + 2) else t) (if f ≤ 1 then 0 else b.get 0 1)

/-- What the evaluation of a bank says: whether it is empty, anomaly, range, e_top and the winning candidate. -/
structure AdvEval where
  empty : Bool := false
  anomaly : Bool := false
  range : Bool := false
  top : Int := 0
  c : Nat := 0
  deriving DecidableEq, Repr

/-- The evaluation of R413. -/
def advEval (r : Nat) (eo : Int) (b : Table Nat) : AdvEval :=
  let n := bankSum b 1 60
  let anomaly := bankSum b 61 3 != 0
  if n = 0 && !anomaly then { empty := true }
  else
    let cap := if polClip r = 0 then 0 else n / 2 ^ polClip r
    let range := decide (cap < b.get 0 60)
    let top := if range then eo + 58 else advTop b eo cap 58 (b.get 0 60)
    let c := if anomaly then polLast r
      else ((List.range (polLast r + 1)).find? (fun j => advUnder b eo top (polCand r j) * 2 ^ polUthr r ≤ n)).getD (polLast r)
    { anomaly := anomaly, range := range, top := top, c := c }

/-- Adoption (R414): the adopted index and the streak. -/
def advAdopt (y : AdvSlot) (hyst : Nat) (e : AdvEval) : Nat × Nat :=
  match y.adopted with
  | none => (e.c, 0)
  | some a => if e.anomaly || a ≤ e.c then (e.c, 0) else if y.streak + 1 > hyst then (e.c, 0) else (a, y.streak + 1)

/-- Has a counter of a bank saturated? -/
def bankSat (b : Table Nat) : Bool := b.any (fun p => p.2 == top32)

/-- The format and shift fields of a slot's previous verdict; without one the spec gives none, and they are free. (DESIGN CHOICE, log entry 94) -/
def State.advPrev (s : State) (y : AdvSlot) : Nat × State :=
  match y.verdict with
  | some p => (p &&& 0xFF1F, s)
  | none => let d := s.drawFree; (d.1.toNat &&& 0xFF1F, d.2)

/-- What the frozen bank and the streak say whether or not it is evaluated (Table 12.6): anomaly, sat, empty, streak. -/
def AdvSlot.facts (y : AdvSlot) : Nat :=
  let anomaly := bankSum y.frozen 61 3 != 0
  b2n anomaly * 2 ^ 16 + b2n (bankSat y.frozen) * 2 ^ 18 + b2n (bankSum y.frozen 1 60 == 0 && !anomaly) * 2 ^ 20 + y.streak % 16 * 2 ^ 24

/-- The fields range and e_top of a bank that is not evaluated: the spec gives them no value. (DESIGN CHOICE, log entry 94) -/
def State.advUneval (s : State) : Nat × State :=
  let d := s.drawFree
  (d.1.toNat % 2 * 2 ^ 17 + d.1.toNat / 2 % 1024 * 2 ^ 64, d.2)

/-- The verdict of a disabled slot: format, shift, changed, range and e_top are free, as the spec leaves them open; the bank says the rest. An empty
bank keeps the previous format and shift (Table 12.6). (DESIGN CHOICE, log entry 94) -/
def State.advDisabled (s : State) (y : AdvSlot) (close : Nat) : Nat × State :=
  let u := s.advUneval
  let d := u.2.drawFree
  if bit y.facts 20 then let p := s.advPrev y; (p.1 + y.facts + close, p.2)
  else ((d.1.toNat &&& 0x8FF1F) + u.1 + y.facts + close, d.2)

/-- The verdict of a malformed record: the previous format and shift, bad_policy, and what the bank says. (DESIGN CHOICE, log entry 94) -/
def State.advMalformed (s : State) (y : AdvSlot) (close : Nat) : Nat × State :=
  let p := s.advPrev y
  let u := p.2.advUneval
  (p.1 + u.1 + y.facts + 2 ^ 21 + close, u.2)

/-- The changed bit of a verdict with format `f`: against the previous verdict; without one it is free. (DESIGN CHOICE, log entry 94) -/
def State.advChanged (s : State) (y : AdvSlot) (f : Nat) : Nat × State :=
  match y.verdict with
  | some p => (b2n (fld p 0 5 != f), s)
  | none => let d := s.drawFree; (d.1.toNat % 2, d.2)

/-- The word of an evaluated bank's verdict with format `f`, changed bit `ch` and streak `n` (Table 12.6). -/
def advWord (f ch n : Nat) (e : AdvEval) (close : Nat) : Nat :=
  f + wrapInt (advShift f e.top) 8 * 2 ^ 8 + b2n e.anomaly * 2 ^ 16 + b2n e.range * 2 ^ 17 + ch * 2 ^ 19 + n % 16 * 2 ^ 24 + close
    + wrapInt e.top 10 * 2 ^ 64

/-- The verdict of an evaluated bank that adopts `a` (Table 12.6). -/
def State.advEvaluated (s : State) (y : AdvSlot) (r : Nat) (a : Nat × Nat) (e : AdvEval) (close : Nat) : AdvSlot × Nat × State :=
  match s.advChanged y (polCand r a.1) with
  | (ch, s1) => ({ y with adopted := some a.1, streak := a.2 }, advWord (polCand r a.1) ch a.2 e close, s1)

/-- The verdict of a slot (Table 12.6): of a malformed record, a disabled slot (whose verdict the spec leaves open), an empty bank, or an
evaluated one. -/
def State.advVerdict (s : State) (y : AdvSlot) (r closes : Nat) : AdvSlot × Nat × State :=
  let close := closes * 2 ^ 32
  let sat := b2n (bankSat y.frozen) * 2 ^ 18
  if !polOk r then (y, s.advMalformed y close)
  else if !polEn r then (y, s.advDisabled y close)
  else
    let e := advEval r y.eo y.frozen
    if e.empty then (y, (s.advPrev y).1 + sat + 2 ^ 20 + y.streak % 16 * 2 ^ 24 + close, (s.advPrev y).2)
    else s.advEvaluated y r (advAdopt y (polHyst r) e) e (close + sat)

/-! ## LOAD and close (R412-R415) -/

/-- A write of VAT_ADV_CTL sets ctr and ctr_en (Table 12.12). -/
def State.advCtl (s : State) (v x : Nat) : State := s.modVat v (fun y => { y with advCtr := fld x 5 15, advCtrEn := bit x 4 })

/-- A LOAD or close that is refused: its status, and the log. -/
def State.advRefuse (s : State) (v status : Nat) : State :=
  (s.modVat v (fun y => { y with advStatus := status })).log (srcVat v) evRefused status (some v) 0 0

/-- Layer slots of a vat. -/
def Vat.advSlots (x : Vat) : List Nat := (List.range x.advCount).map (x.advFirst + ·)

/-- Is some bank of the vat's range a poisoned item (R557)? (DEDUCED, log entry 93) -/
def State.advBad (s : State) (v : Nat) : Bool := (s.vat v).advSlots.any (fun j => (s.adv j).bad)

/-- VAT_ADV_CTL.cmd = LOAD (R412). (DEDUCED, log entry 93) -/
def execAdvLoad (v x : Nat) (s : State) : Res :=
  .next (
    if 16 ≤ v then s
    else
      let s1 := s.advCtl v x
      let y := s1.vat v
      let n := 32 * y.advCount
      if !((y.st == .free && y.jobValid) || y.st == .ready) then s1.advRefuse v eState
      else if s1.advBad v then (s1.advRefuse v ePoison).fireVat v 3
      else if n != 0 && !s1.stackWithin v y.advBase n then s1.advRefuse v ePermission
      else if s1.stackBad y.advBase n then ((s1.noteStack (some v) y.advBase n).advRefuse v ePoison).fireVat v 3
      else
        let s2 := (s1.noteStack (some v) y.advBase n).accountStk v 0 (chargeOf y.advBase n)
        let s3 := (List.range y.advCount).foldl (fun s i => s.setAdv (y.advFirst + i) { eo := polEo (s.stackNat (y.advBase + 32 * i) 32) }) s2
        s3.modVat v (fun z => { z with advStatus := eOk }))

/-- One slot of a close: its policy record is read again, its verdict and dump are written; the first access outside the vat's stack
regions ends the writes (R415). -/
def State.advClose1 (s : State) (v i : Nat) : State :=
  let x := s.vat v
  let j := x.advFirst + i
  let p := x.advBase + 32 * i
  let w := x.advBase + 0x20000 + 16 * i
  let d := x.advBase + 0x30000 + 256 * i
  if x.advEnd != eOk then s
  else if !s.stackWithin v p 32 || !s.stackWithin v w 16 then s.modVat v (fun y => { y with advEnd := ePermission })
  else
    let s0 := (s.noteStack (some v) p 32).accountStk v 0 256
    if s.stackBad p 32 then (s0.modVat v (fun y => { y with advEnd := ePoison })).fireVat v 3
    else
      let r := s.stackNat p 32
      let q := s0.advVerdict (s.adv j) r x.advCloses.toNat
      let s1 := (q.2.2.setAdv j { q.1 with verdict := some q.2.1 }).modVat v (fun y =>
        { y with advBadPolicy := if polOk r then y.advBadPolicy else satAdd top16 y.advBadPolicy 1 })
      let s2 := (s1.stackPut w (leBytes 16 q.2.1) (fun _ => false)).accountStk v 1 256
      if !(polDump r) then s2
      else if !s.stackWithin v d 256 then s2.modVat v (fun y => { y with advEnd := ePermission })
      else (s2.stackPut d ((List.range 64).flatMap (fun b => leBytes 4 ((s.adv j).frozen.get 0 b))) (fun _ => false)).accountStk v 1 256

/-- VAT_ADV_CTL.cmd = CLOSE (R413). (DEDUCED, log entry 93) -/
def execAdvClose (v x : Nat) (s : State) : Res :=
  .next (
    if 16 ≤ v then s
    else
      let s1 := s.advCtl v x
      let y := s1.vat v
      if y.st != .ready || y.advBusy then s1.advRefuse v eState
      else if s1.advBad v then (s1.advRefuse v ePoison).fireVat v 3
      else
        let s2 := y.advSlots.foldl (fun s j => s.modAdv j (fun a => { a with frozen := a.live, live := [] })) s1
        let s3 := s2.modVat v (fun z => { z with advBusy := true, advEnd := eOk, advCloses := z.advCloses + 1 })
        (List.range y.advCount).foldl (fun s i => s.advClose1 v i) s3)

/-- Every write of a close is acknowledged (R415): status, then the counter from outside the vat. (DEDUCED, log entry 93) -/
def execAdvCloseComplete (v : Nat) (s : State) : Res :=
  let x := s.vat v
  .next (if !x.advBusy then s
    else
      let s1 := s.modVat v (fun y => { y with advBusy := false, advStatus := y.advEnd })
      let s2 := if x.advEnd = eOk then s1 else s1.log (srcVat v) evRefused x.advEnd (some v) 0 0
      if x.advCtrEn then (s2.addOutside x.advCtr 1).1 else s2)

end Sys2Proof.Machine
end

