-- ==== Sys2Proof/Machine/VecRun.lean ====
section
/-! DEFINITION. The work of the vector engine and the reduction unit by groups of their walk (R150, R179): a run does the groups from the next walk
position up to another, and a halt that stops the engines finishes the groups whose reads it has issued. -/

namespace Sys2Proof.Machine

/-- The random word of a conversion in core `c` (R70). -/
def State.rword (s : State) (c sr purpose idx : Nat) : Nat :=
  let v := s.vat ((s.vatOfCore c).getD 0)
  srWord v.srSeedLatch.toNat v.srSheet.toNat sr purpose idx

/-- The place in the walk of the group that holds an element: batches, rows and groups of 128 columns in order; on axis 1 of a REDUCE, strips of
1,024 columns (R150). -/
def groupOf (strips : Bool) (p0 p1 b i1 i0 : Nat) : Nat :=
  let row := cdiv p0 128
  if strips then
    let k := i0 / 1024
    b * (p1 * row) + k * (8 * p1) + i1 * cdiv (min 1024 (p0 - 1024 * k)) 128 + i0 % 1024 / 128
  else (b * p1 + i1) * row + i0 / 128

/-- The last group that an output of a reduction needs (R170). -/
def keyGroup (strips : Bool) (axis p0 p1 : Nat) (key : Nat × Nat) : Nat :=
  groupOf strips p0 p1 key.1 (if axis = 0 then key.2 else p1 - 1) (if axis = 1 then key.2 else p0 - 1)

/-- An element kept as entered. -/
def enteredAt (l : List Entered) (b : Nat) (ix : Ix) : Entered := (l.find? (fun e => e.b == b && e.i1 == ix.i1 && e.i0 == ix.i0)).getD {}

/-- What an element gives the reduction of a VCHAIN. -/
def Entered.fp (e : Entered) : RedIn := { v := f32 e.enc, bits := e.enc, bad := e.bad }

/-! ## VCHAIN -/

/-- The VCHAIN in progress. -/
def Vec.vc (x : Vec) (e : W256) : VC := { m := e.toNat, r := x.chain, descs := x.vdescs, dim := x.vdim }

/-- Groups of a VCHAIN. -/
def VC.total (q : VC) : Nat := vBatches q.gov * q.p 1 * cdiv (q.p 0) 128

/-- The group of an element. -/
def VC.group (q : VC) (b : Nat) (ix : Ix) : Nat := groupOf false (q.p 0) (q.p 1) b ix.i1 ix.i0

/-- The elements of the groups of a VCHAIN from its next walk position up to `hi`. -/
def State.vchainWalk (s : State) (c : Nat) (e : W256) (hi : Nat) : List (Nat × Ix) :=
  let x := s.vec c
  let q := x.vc e
  (walkIx q.gov (q.v 0) (q.v 1)).filter (fun p => x.next ≤ q.group p.1 p.2 && q.group p.1 p.2 < hi)

/-- Those elements with their stage results and arithmetic flags (R159-R162). -/
def State.vchainPts (s : State) (c : Nat) (e : W256) (hi : Nat) : List (Nat × Ix × List (F32 × Bool) × BitVec 8) :=
  let x := s.vec c
  (s.vchainWalk c e hi).map (fun p => (p.1, p.2, (x.vc e).eval (s.spad c) x.tiles p.1 p.2))

/-- The bytes that those groups read. -/
def State.vchainReads (s : State) (c : Nat) (e : W256) (hi : Nat) : List Nat :=
  let q := (s.vec c).vc e
  q.inputs.flatMap (fun i => (s.vchainWalk c e hi).flatMap (fun p => elemBytes (q.d i) 0 {} (inIx (q.d i) (vcZmask q.m i) p.2)))

/-- The results of stage `k` in those groups. -/
def State.vchainStage (s : State) (c : Nat) (e : W256) (hi k : Nat) : List (Ix × F32 × Bool) :=
  (s.vchainPts c e hi).map (fun p => (p.2.1, (p.2.2.1[k]?).getD (0, false)))

/-- The writes of the output of descriptor `i`, the result of stage `k`, and their flags (R164). -/
def State.vchainOut (s : State) (c : Nat) (e : W256) (hi i k sr : Nat) : List ElemWrite × BitVec 8 :=
  let q := (s.vec c).vc e
  outWrites (q.d i) (vcRnd q.m) (vcOvf q.m) ((s.vchainStage c e hi k).map (fun p => (p.1, p.2.1, p.2.2))) (s.rword c sr 1)

/-- An element as it enters the reduction of a VCHAIN (R174). -/
def redEntered (r : Nat) (b : Nat) (ix : Ix) (l : List (F32 × Bool)) : Entered :=
  let v := (l[crRedStage r]?).getD (0, false)
  { b := b, i1 := ix.i1, i0 := ix.i0, enc := v.1, bad := v.2 }

/-- The reductions of a VCHAIN that are complete at group `hi` (R174). -/
def State.vchainRed (s : State) (c : Nat) (e : W256) (hi : Nat) : List (Nat × MCell) × List ElemWrite × BitVec 8 :=
  let x := s.vec c
  let q := x.vc e
  let g := q.gov
  let el := fun (b : Nat) (ix : Ix) =>
    (if q.group b ix < x.next then enteredAt x.entered b ix else redEntered q.r b ix (q.eval (s.spad c) x.tiles b ix).1).fp
  let keys := (redKeys (crRedAxis q.r) (vBatches g) (q.v 0) (q.v 1)).filter (fun k =>
    let n := keyGroup false (crRedAxis q.r) (q.p 0) (q.p 1) k
    x.next ≤ n && n < hi)
  let dst := if crRedDst q.r then RedDst.desc (q.d 5) else RedDst.tile (crRedT q.r)
  redAll { op := crRedOp q.r } (crRedAxis q.r) g (q.p 0) (q.p 1) (q.v 0) (q.v 1) (vcRnd q.m) (vcOvf q.m) dst keys el
    (s.rword c ((vcSr q.m + 2) % 2 ^ 16) 0)

/-- The groups of a VCHAIN from its next walk position up to `hi`: outputs, the results of reductions that are complete, tap counts (R164, R174,
R175, R179). -/
def State.vchainRun (s : State) (c : Nat) (e : W256) (hi : Nat) : State :=
  let q := (s.vec c).vc e
  let pts := s.vchainPts c e hi
  let flags := pts.foldl (fun (f : BitVec 8) p => f ||| p.2.2.2) 0
  let w0 := if vcO q.m then s.vchainOut c e hi 3 (crNst q.r - 1) (vcSr q.m) else ([], 0)
  let w1 := if crO2 q.r then s.vchainOut c e hi 4 (crO2Stage q.r) ((vcSr q.m + 1) % 2 ^ 16) else ([], 0)
  let s1 := (s.noteBytes c (s.vchainReads c e hi)).orArith c (flags ||| w0.2 ||| w1.2)
  let s2 := (s1.storeElems c w0.1).storeElems c w1.1
  let s3 :=
    if crRed q.r then
      (s2.redWrite c (s.vchainRed c e hi)).modVec c (fun y =>
        { y with entered := y.entered ++ pts.map (fun p => redEntered q.r p.1 p.2.1 p.2.2.1) })
    else s2
  let s4 :=
    if crTap q.r then
      (match s.vatOfCore c with | some v => s3.tap v (crTapSlot q.r) ((s.vchainStage c e hi (crTapStage q.r)).map (·.2)) | none => s3)
    else s3
  let n := hi - (s.vec c).next
  let s5 := s4.accountCore c 5 (n * crNst q.r)
  (if crRed q.r then s5.accountCore c 7 n else s5).modVec c (fun y => { y with next := hi })

/-! ## TLOAD and TSTORE -/

/-- Groups that a tile macro-instruction shows: 32 rows, or groups of 128 elements in linear mode, and none for TFILL. (DESIGN CHOICE, log entry 144) -/
def tileGroups (mop m : Nat) : Nat := if mop = 4 then 0 else if tlLin m then cdiv (tlCount m) 128 else 32

/-- The tile elements of the groups from the next walk position up to `hi`. -/
def Vec.tileElems (x : Vec) (m hi : Nat) : List Nat :=
  (List.range 1024).filter (fun n => let k := n / (if tlLin m then 128 else 32); x.next ≤ k && k < hi)

/-- Groups of a TLOAD: elements outside the tensor are +0; poison marks are copied (R155, R178, R179). -/
def State.tloadRun (s : State) (c m d hi : Nat) : State :=
  let ns := (s.vec c).tileElems m hi
  let sp := s.spad c
  let cells := ns.map (fun n => match tileIx m d n with
    | some ix => let e := sp.elem d 0 {} (dStored d ix); let v := fEnter (dFmt d) e; (n, ({ bits := v.1, bad := e.bad } : MCell), v.2)
    | none => (n, {}, 0))
  let bytes := ns.flatMap (fun n => match tileIx m d n with | some ix => elemBytes d 0 {} (dStored d ix) | none => [])
  ((s.noteBytes c bytes).modVec c (fun x =>
    { x with next := hi, tiles := cells.foldl (fun t p => t.put (1024 * tlT m + p.1) p.2.1) x.tiles })).orArith c
    (cells.foldl (fun (f : BitVec 8) p => f ||| p.2.2) 0)

/-- Groups of a TSTORE: elements are converted under rnd and ovf; those outside the tensor are not written (R155, R179). -/
def State.tstoreRun (s : State) (c m d hi : Nat) : State :=
  let x := s.vec c
  let vals := (x.tileElems m hi).filterMap (fun n => (tileIx m d n).map (fun ix =>
    let cell : MCell := x.tiles.get {} (1024 * tlT m + n)
    (ix, cell.bits, cell.bad)))
  let o := outWrites d (tsRnd m) (tsOvf m) vals (s.rword c (tsSr m) 1)
  ((s.storeElems c o.1).orArith c o.2).modVec c (fun y => { y with next := hi })

/-! ## REDUCE -/

/-- Groups of the REDUCE in progress: 128 elements of a row each. -/
def reduceGroups (y : Vec) : Nat := vBatches (y.rdescs.get 0 0) * y.rdim.get 0 1 * cdiv (y.rdim.get 0 0) 128

/-- The group of an element of the REDUCE in progress. -/
def Vec.rgroup (y : Vec) (m b i1 i0 : Nat) : Nat := groupOf (rdAxis m == 1) (y.rdim.get 0 0) (y.rdim.get 0 1) b i1 i0

/-- The REDUCE in progress from its next walk position up to group `hi`: the elements enter, and the outputs among `keep` that are then complete
drain (R169-R173, R179). -/
def State.reduceRun (s : State) (c m hi : Nat) (keep : Nat × Nat → Bool) : State :=
  let y := s.vec c
  let x := y.rdescs.get 0 0
  let dim := fun (i : Nat) => y.rdim.get 0 i
  let sp := s.spad c
  let cfg : RedCfg := { op := rdOp m, exact := rdExact (rdOp m) (dFmt x), acc96 := dFmt x == 10, anchor := rdAnchor m }
  let keys := (redKeys (rdAxis m) (vBatches x) (dim 2) (dim 3)).filter (fun k =>
    let n := keyGroup (rdAxis m == 1) (rdAxis m) (dim 0) (dim 1) k
    keep k && y.rnext ≤ n && n < hi)
  let dst := if rdDst m then RedDst.desc (y.rdescs.get 0 1) else RedDst.tile (rdT m)
  let read := fun (ix : Ix) => sp.elem x 0 {} (dStored x ix)
  let el := fun (b : Nat) (ix : Ix) => (redElem x (if y.rgroup m b ix.i1 ix.i0 < y.rnext then
      let e := enteredAt y.entered b ix; { enc := e.enc, scale := e.scale, bad := e.bad } else read ix)).1
  let walk := (walkIx x (dim 2) (dim 3)).filter (fun p => let k := y.rgroup m p.1 p.2.i1 p.2.i0; y.rnext ≤ k && k < hi)
  let enter : BitVec 8 := if cfg.exact || rdOp m ≥ 2 then 0
    else walk.foldl (fun (f : BitVec 8) p => f ||| (redElem x (read p.2)).2) 0
  let s1 := (s.noteBytes c (walk.flatMap (fun p => elemBytes x 0 {} (dStored x p.2)))).orArith c enter
  let new := walk.map (fun p => let e := read p.2; ({ b := p.1, i1 := p.2.i1, i0 := p.2.i0, enc := e.enc, scale := e.scale, bad := e.bad } : Entered))
  ((s1.redWrite c (redAll cfg (rdAxis m) x (dim 0) (dim 1) (dim 2) (dim 3) (rdRnd m) (rdOvf m) dst keys el (s.rword c (rdSr m) 0))).accountCore c 7
    (hi - y.rnext)).modVec c (fun z => { z with rnext := hi, entered := y.entered ++ new })

/-- The first record of the REDUCE in progress that breaks R177, among those that have not entered. (DEDUCED, log entry 31) -/
def State.reduceBad (s : State) (c : Nat) (m : Nat) : Option (Nat × Nat × Nat) :=
  let y := s.vec c
  let x := y.rdescs.get 0 0
  if dFmt x == 10 then firstBadRecord (s.spad c) x (rdAxis m) (y.rdim.get 0 2) (y.rdim.get 0 3) (rdAnchor m) (fun b i1 i0 => y.rnext ≤ y.rgroup m b i1 i0)
  else none

/-! ## A halt that stops the engines (R179) -/

/-- How far a unit has issued the reads of its groups when it stops, between its walk position and `total`: a free value. (DESIGN CHOICE, log entry 152) -/
def State.issued (s : State) (next total : Nat) : Nat × State :=
  let d := s.drawFree
  (next + d.1.toNat % (total - next + 1), d.2)

/-- The vector engine's part. -/
def State.settleVec (s : State) (c : Nat) : State :=
  match (s.vec c).vec with
  | none => s
  | some e =>
    let m := e.toNat
    let x := s.vec c
    let d := x.vdescs.get 0 0
    let n := s.issued x.next (if mMop e = 1 then (x.vc e).total else tileGroups (mMop e) m)
    let s1 := if mMop e = 1 then n.2.vchainRun c e n.1 else if mMop e = 2 then n.2.tloadRun c m d n.1 else if mMop e = 3 then n.2.tstoreRun c m d n.1 else n.2
    s1.modVec c (fun y => { y with groupsDone := n.1 % 2 ^ 24 })

/-- The reduction unit's part: up to the group of a record that breaks R177. -/
def State.settleRed (s : State) (c : Nat) : State :=
  match (s.vec c).red with
  | none => s
  | some e =>
    if mMop e != 8 then s
    else
      let m := e.toNat
      let y := s.vec c
      let n := s.issued y.rnext (match s.reduceBad c m with | some p => y.rgroup m p.1 p.2.1 p.2.2 | none => reduceGroups y)
      n.2.reduceRun c m n.1 (fun _ => true)

/-- When the engines of a core have stopped, each unit finishes, once, every group whose input reads it has issued (R179). (DESIGN CHOICE, log entry 152) -/
def State.vecSettle (s : State) (c : Nat) : State :=
  let x := s.vec c
  if s.enginesOn c then (if x.settled then s.modVec c (fun y => { y with settled := false }) else s)
  else if x.settled || (x.vec.isNone && x.red.isNone) then s
  else ((s.settleVec c).settleRed c).modVec c (fun y => { y with settled := true })

end Sys2Proof.Machine
end

