-- ==== Sys2Proof/Machine/SheetOps.lean ====
section
/-! DEFINITION. Sheets: start, end, watermark, abort and forced stop of a vat; the deckle (R112, R313-R319, R341-R351, R554). -/

namespace Sys2Proof.Machine

/-! ## Engines of a core -/

/-- Close the stall interval of a send endpoint (Table 8.10). -/
def Ep.stallTo (x : Ep) (now : Nat) : Ep :=
  match x.stallSince with
  | some t => { x with stall := satAdd top24 x.stall (now - t), stallSince := none }
  | none => x

/-- A credit arrives or the wait ends: the count of R277 is zero. -/
def Ep.dlReset (x : Ep) : Ep := { x with dlSince := none, dlTold := false }

/-- The waits of an endpoint whose SEND is gone are over. -/
def Ep.unwait (x : Ep) (now : Nat) : Ep := (x.stallTo now).dlReset

/-- The macro-instruction of the channel engine is gone: the waits of a SEND end. -/
def State.chnGone (s : State) (c : Nat) (m : W256) : State :=
  if mMop m == 1 then s.modEp c (fld m.toNat 32 6) (fun x => x.unwait s.clk.fast.toNat) else s

/-- Discard every queue entry and all engine work of a core; program stores, tile registers and error counts stay. -/
def State.dropEngines (s : State) (c : Nat) : State :=
  let s1 := (List.range 7).foldl (fun s q => s.setQueue c q {}) (s.dropWatches c)
  let s2 := s1.modMat c (fun x => { mop := x.mop, ringCycles := x.ringCycles, parks := x.parks, unparks := x.unparks })
  let s3 := s2.modVec c (fun x => { tiles := x.tiles, vecMop := x.vecMop, redMop := x.redMop, groupsDone := x.groupsDone })
  let s4 := (List.range 4).foldl (fun s e => s.modSe c e (fun x => { store := x.store, mop := x.mop, deliveries := x.deliveries })) s3
  let s5 := match (s4.chn c).entry with | some m => s4.chnGone c m | none => s4
  s5.modChn c (fun x => { mop := x.mop, refused := x.refused, badPkt := x.badPkt })

/-- A control processor set for a sheet start (R77); the pc and vector come from the mould. -/
def Ctl.sheetStart (k : Ctl) (now : W64) : Ctl :=
  { entry := k.entry, evecInit := k.evecInit, priv := k.priv, pc := k.entry, evec := k.evecInit, mode := if k.priv then 1 else 0,
    cycleBase := now, run := .running, started := false, idleSince := now }

/-! ## Start (R72, R313, R339, R341) -/

/-- Is the GTC LOCKED, or the device a root (Table 10.6)? -/
def State.gtcLocked (s : State) : Bool := s.hub.gs.st == .locked || s.hub.gs.upPort == 7

/-- What a sheet start clears on every core of its vat: ARITH_STATUS (R56), MAT_RING_WAIT and MAT_PARKS (R146), SE_LATE and SE_MERGE (R220). -/
def State.sheetClear (s : State) (cs : List Nat) : State :=
  let out := fun (t : Table Nat) => t.filter (fun p => !(cs.contains p.1))
  { s with cores := { s.cores with
      arith := s.cores.arith.filter (fun p => !(cs.contains p.1))
      mats := s.cores.mats.map (fun p => if cs.contains p.1 then (p.1, { p.2 with ringCycles := 0, parks := 0, unparks := 0 }) else p)
      seAsyncLate := out s.cores.seAsyncLate, seOndieLate := out s.cores.seOndieLate
      seRequests := out s.cores.seRequests, seJoined := out s.cores.seJoined } }

/-- The vat enters RUNNING: latches, enlisted cores and their endpoints are set (R313). `endpoints` resets one core's endpoints. -/
def State.sheetStart (s : State) (endpoints : State → Nat → State) (v : Nat) : State :=
  let now := s.clk.fast
  let s1 := s.modVat v (fun x =>
    { x with st := .running, cycleBase := now, srSeedLatch := x.srSeed, srSheet := if x.firstSheet then 0 else x.srSheet + 1, firstSheet := false,
             ackWinLatch := x.ackWin, dlLog2Latch := x.dlLog2, gateIdleLatch := x.gateIdle, balActive := x.balEn && !x.det.det, balPos := [],
             det := { x.det with detOn := x.det.det, arm := false, pendStart := none, pendArmed := false, pendGrid := false, pendLate := false,
                                 count := 0, mask := 0, firstCause := 0, firstCycle := BitVec.allOnes 64, gtcStart := s.clk.gtc,
                                 launched := x.det.pendArmed && !x.det.pendLate, resumed := false, stretched := false, locked := s.gtcLocked, outCrc := 0 } })
  let s2 := (s1.vat v).enlisted.foldl (fun s c => (s.modCtl c (fun k => k.sheetStart now)).modVec c (fun x => { x with tiles := [] })) s1
  let s3 := ((s2.mouldCores v).foldl (fun s c => s.modCtl c (fun k => { k with cycleBase := now })) s2).sheetClear (s2.vatCores v)
  let s4 := (s3.mouldCores v).foldl endpoints s3
  if (s.vat v).det.pendLate then s4.detBreak v 0x0C else s4

/-- Cancel a pending start and clear arm; its host command ends with E_ABORTED (R339). (DEDUCED, log entry 65; DEDUCED, log entry 134) -/
def State.cancelStart (s : State) (v : Nat) : State :=
  let x := s.vat v
  let s1 := s.setVat v { x with det := { x.det with pendStart := none, pendArmed := false, pendGrid := false, pendLate := false, arm := false },
                                sheetHost := if x.det.pendStart.isSome then none else x.sheetHost }
  if x.det.pendStart.isSome then s1.hostFinish x.sheetHost eAborted 0xFFFFFFFFFFFFFFFF 0 else s1

/-! ## End (R112, R348-R351) -/

/-- The watermark record (Table 10.6). -/
def State.wmRecord (s : State) (v status : Nat) : List Byte :=
  let x := s.vat v
  let d := x.det
  let body := 0x4D44574D + 1 * 2 ^ 32 + x.jobId * 2 ^ 48 + v * 2 ^ 64 + b2n d.detOn * 2 ^ 68 + b2n d.resumed * 2 ^ 69 + b2n d.stretched * 2 ^ 70
    + b2n (d.locked && s.gtcLocked) * 2 ^ 71 + s.hub.dvfs * 2 ^ 72 + b2n d.launched * 2 ^ 75 + status * 2 ^ 80 + d.firstCause * 2 ^ 88
    + d.count * 2 ^ 96 + x.mouldId.toNat * 2 ^ 128 + x.srSheet.toNat * 2 ^ 192 + d.gtcStart.toNat * 2 ^ 256 + s.clk.gtc.toNat * 2 ^ 320
    + (s.clk.fast - x.cycleBase).toNat * 2 ^ 384 + d.firstCycle.toNat * 2 ^ 448 + d.outCrc.toNat * 2 ^ 512 + d.mask.toNat * 2 ^ 576
    + x.srSeedLatch.toNat * 2 ^ 608
  leBytes 128 (body + crc32c (leBytes 128 body) * 2 ^ 992)

/-- Write the record into the ring, or drop it, and advance idx (R348). (DESIGN CHOICE, log entry 96) -/
def State.wmWrite (s : State) (v status : Nat) : State :=
  let d := (s.vat v).det
  let n := 2 ^ d.wmSlots
  let s1 := if s.stackWithin v d.wmBase (128 * n) then
      (s.stackPut (d.wmBase + 128 * (d.wmIdx.toNat % n)) (s.wmRecord v status) (fun _ => false)).accountStk v 1 256
    else (s.modVat v (fun x => { x with det := { x.det with wmDrop := true } })).log (srcVat v) evRefused ePermission (some v) 0 0
  s1.modVat v (fun x => { x with det := { x.det with wmIdx := x.det.wmIdx + 1 } })

/-- The sheet of a vat is over with a status: record, READY, cores IDLE, and the host command's completion (R348, R533). -/
def State.sheetOver (s : State) (v status : Nat) : State :=
  let x := s.vat v
  let s1 := (s.wmWrite v status).account v 19 1
  let s2 := s1.modVat v (fun y =>
    { y with st := .ready, sheetHost := none, sheetLive := false })
  let s3 := x.enlisted.foldl (fun s c => s.modCtl c (fun k => { k with run := .idle, started := false, waiting := none })) s2
  (s3.autoCommit v).hostFinish x.sheetHost status x.det.wmIdx.toNat (s.clk.fast - x.cycleBase).toNat

/-- Is the engine of a queue idle (R106)? -/
def State.engineIdle (s : State) (c q : Nat) : Bool :=
  if q = 0 then (s.mat c).entry.isNone
  else if q = 1 then (s.vec c).vec.isNone && (s.vec c).red.isNone
  else if q ≤ 5 then (s.se c (q - 2)).idle
  else (s.chn c).entry.isNone

/-- A queue is empty, not halted, and its engine idle (R106, R112). -/
def State.queueDrained (s : State) (c q : Nat) : Bool :=
  let x := s.queue c q
  x.entries.isEmpty && x.held.isNone && !x.halted && s.engineIdle c q

/-- The condition of R112. -/
def State.sheetEnded (s : State) (v : Nat) : Bool :=
  (s.vat v).enlisted.all (fun c => (s.ctl c).run == .ended && (List.range 7).all (s.queueDrained c))

/-! ## The deckle (R315-R317) -/

/-- Raise the deckle over clusters. (DESIGN CHOICE, log entry 63) -/
def State.raiseDeckle (s : State) (v : Nat) (cls : List Nat) : State :=
  s.modVat v (fun x => { x with deckle := cls.foldl NSet.add x.deckle })

/-- Lower the deckle of a vat: held increments are applied in order of arrival (R317). -/
def State.lowerDeckle (s : State) (v : Nat) : State :=
  let l := (s.vat v).heldIncs
  let s1 := s.modVat v (fun x => { x with deckle := [], heldIncs := [] })
  l.foldl (fun s p => (s.addCtr p.1 p.2).testWatches (ctrNode p.1)) s1

/-! ## Stopping (R319, R395, R396) -/

/-- Withdraw commands of a vat that a test picks: the engines that have not answered answer with E_ABORTED (R395, R396); the status is that of the
first stack's answer other than OK (R371). -/
def State.withdraw (s : State) (v : Nat) (p : StkCmd → Bool) : State :=
  let hit := fun (k : StkCmd) => k.vat == v && p k && k.ans.length != 8
  let s1 := s.mem.cmds.foldl (fun s k =>
    if hit k && bit k.rec_ 114 && k.stage != .queued then
      s.modVer (fld k.rec_ 104 10) (fun y => if k.stage == .aside then { y with aside := false } else { y with upd := false })
    else s) s
  { s1 with mem := { s1.mem with cmds := s1.mem.cmds.map (fun k =>
      if hit k then { k with stage := .ran, ans := List.range 8, status := if k.status != eOk && k.ans.has 0 then k.status else eAborted } else k) } }

/-- Enlisted cores under reason 4 (R319 step 1): ones halted for reason 1, 2 or 3 keep their state with the new reason; running ones stop at their boundary. -/
def State.stopEnlisted (s : State) (v : Nat) : State :=
  (s.vat v).enlisted.foldl (fun s c => s.modCtl c (fun k => if k.run == .halted && k.haltReason.toNat ≤ 3 then { k with haltReason := 4 } else k)) s

/-- A forced stop is accepted (R319): queues stop, the deckle rises, set-aside commands are withdrawn, a pending start is cancelled. (DEDUCED, log entry 134) -/
def State.forceStop (s : State) (v : Nat) : State :=
  let s0 := s.cancelStart v
  let live := (s0.vat v).st == .running
  let s1 := s0.modVat v (fun x => { x with st := .stopping, sheetLive := live, stopTick := some s.clk.gtc, stopGtc := s.clk.gtc,
                                           stopCycle := s.clk.fast - x.cycleBase, drained := false, scanning := false })
  ((s1.raiseDeckle v (s1.clustersOf v)).stopEnlisted v).withdraw v (·.stage == .aside)

/-- A forced stop that meets a load waits for its end (R295); in other states it applies at once, or is refused. -/
def State.forceStopOr (s : State) (v : Nat) : State × Bool :=
  match (s.vat v).st with
  | .ready => (s.forceStop v, true)
  | .running => (s.forceStop v, true)
  | .loading => (s.modVat v (fun x => { x with stopWaits := true }), true)
  | _ => (s, false)

/-- The abort of a RUNNING vat's sheet at a commit point (R179, R554). (DEDUCED, log entry 76) -/
def State.abortSheet (s : State) (v : Nat) : State :=
  let x := s.vat v
  if x.st != .running then s
  else if x.containStop then s.forceStop v
  else
    let s1 := x.enlisted.foldl (fun s c => ((s.modCtl c (fun k => { k with run := .halted, haltReason := 4 })).vecSettle c).dropEngines c) (s.withdraw v (·.stage == .aside))
    s1.sheetOver v ePoison

end Sys2Proof.Machine
end

