-- ==== Sys2Proof/Machine/BatchOps.lean ====
section
/-! DEFINITION. The batcher (Chapter 13): slot commands, the step list and its records. -/

namespace Sys2Proof.Machine

/-- Slots of a vat's range. -/
def Vat.inRange (x : Vat) (slot : Nat) : Bool := x.btFirst ≤ slot && slot < x.btFirst + x.btCount

/-! ## Slot commands (R424, R425, Table 13.3) -/

/-- Fields of the ADMIT image that must be zero. -/
def admitZero (m : Nat) : Bool :=
  fld m 0 32 == 0 && fld m 136 24 == 0 && fld m 272 240 == 0

/-- The result of a slot command: the slot after it, or a refusal (Table 13.3); op values 0 and 7 are reserved (R13, R424). -/
def State.seqCommand (s : State) (v : Nat) (q : SeqReq) : Except Nat (Seq × Bool) :=
  let x := s.vat v
  let y := s.seqSlot q.slot
  if q.op = 0 || q.op = 7 then .error eFormat
  else if !(x.inRange q.slot) then .error eRange
  else if y.bad then .error ePoison
  else match q.op, y.st with
    | 1, .empty =>
      let m := q.image
      if !(admitZero m) then .error eFormat
      else if fld m 64 24 = 0 || fld m 64 24 ≤ fld m 88 24 || fld m 112 24 ≤ fld m 64 24 || fld m 160 48 % 8 != 0
          || s.stackOwner (fld m 160 48) != some v || s.stackOwner (fld m 224 48) != some v then .error eRange
      else .ok ({ st := .pending, tag := fld m 32 32, promptLen := fld m 64 24, pos := fld m 88 24, maxLen := fld m 112 24, ptAddr := fld m 160 48,
                  ptPages := fld m 208 16, outAddr := fld m 224 48, admitNo := x.bt.admitNext.toNat }, true)
    | 2, .pending => .ok ({ y with st := .paused }, false)
    | 2, .active => .ok ({ y with pauseReq := true }, false)
    | 2, .paused => .ok (y, false)
    | 3, .pending => .ok (y, false)
    | 3, .active => .ok ({ y with pauseReq := false }, false)
    | 3, .paused => .ok ({ y with st := .pending, admitNo := x.bt.admitNext.toNat }, true)
    | 4, .pending => .ok ({ y with st := .done, reason := 3 }, false)
    | 4, .active => .ok ({ y with stopReq := true }, false)
    | 4, .paused => .ok ({ y with st := .done, reason := 3 }, false)
    | 4, .done => .ok (y, false)
    | 5, .paused => .ok ({}, false)
    | 5, .done => .ok ({}, false)
    | 6, .pending => .ok ({ y with ptPages := q.arg }, false)
    | 6, .active => if q.arg < y.ptPages then .error eRange else .ok ({ y with ptPages := q.arg }, false)
    | 6, .paused => .ok ({ y with ptPages := q.arg }, false)
    | _, _ => .error eState

/-- Answer a slot command: to its host command, or in SEQ_CMD.status; refusals are logged (R424). -/
def State.seqAnswer (s : State) (v : Nat) (q : SeqReq) (status r0 : Nat) : State :=
  let s1 := if status = eOk then s else s.log (srcHub 4) evRefused status (some v) 0 q.slot
  match q.host with
  | some _ => s1.hostFinish q.host status r0 0
  | none => s1.modVat v (fun x => { x with bt := { x.bt with cmdStatus := status } })

/-- Apply a slot command now. -/
def State.seqApply (s : State) (v : Nat) (q : SeqReq) : State :=
  match s.seqCommand v q with
  | .error e =>
    let s1 := if e = ePoison && (s.vat v).inRange q.slot then s.fireVat v 3 else s
    s1.seqAnswer v q e 0
  | .ok (y, adv) =>
    let s1 := (s.setSeqSlot q.slot y).modVat v (fun x => if adv then { x with bt := { x.bt with admitNext := x.bt.admitNext + 1 } } else x)
    s1.seqAnswer v q eOk y.admitNo

/-- A slot command arrives (R426): held behind a busy STEP, up to 64; refused for a standby vat and a held reclaim. -/
def State.seqReq (s : State) (v : Nat) (q : SeqReq) : State :=
  let x := s.vat v
  if x.tw.standby || x.heldOrLater then s.seqAnswer v q eState 0
  else if x.bt.busy then
    if x.bt.held.length < 64 then s.setVat v { x with bt := { x.bt with held := x.bt.held ++ [q] } } else s.seqAnswer v q eState 0
  else s.seqApply v q

/-! ## STEP (R427-R432) -/

/-- The size of a step area (Table 13.4). -/
def stepAreaSize : Nat := 0x48000

/-- Outcome record of row `r` (Table 13.7). -/
def State.outcome (s : State) (base r : Nat) : Nat := s.stackNat (base + 0x40000 + 8 * r) 8

/-- The rows of the previous list, each with its number and what it holds, whose outcome records lie in the vat's stack regions: others cannot be
read (R432). (DESIGN CHOICE, log entry 95) -/
def State.outRows (s : State) (v : Nat) : List (Nat × Nat × Nat) :=
  let b := (s.vat v).bt
  (b.list.mapIdx (fun r p => (r, p))).filter (fun p => s.stackWithin v (b.base + 0x40000 + 8 * p.1) 8)

/-- The lowest outcome record that breaks R429, with its status. (DESIGN CHOICE, log entry 95) -/
def State.badOutcome (s : State) (base : Nat) (l : List (Nat × Nat)) : Option (Nat × Nat) :=
  l.findSome? (fun p =>
    let o := s.outcome base p.1
    if s.stackBad (base + 0x40000 + 8 * p.1) 8 then some (p.1, ePoison)
    else if fld o 25 7 != 0 || fld o 56 8 != 0 || p.2 < fld o 0 24 || fld o 0 24 < fld o 32 24 then some (p.1, eFormat) else none)

/-- Apply one outcome to its slot (R429). -/
def Seq.outcome (y : Seq) (o : Nat) : Seq :=
  if y.st != .active then y
  else
    let z := { y with pos := y.pos + fld o 0 24, gen := (y.gen + fld o 32 24) % 2 ^ 24 }
    if bit o 24 then { z with st := .done, reason := 1 } else if z.maxLen ≤ z.pos then { z with st := .done, reason := 2 } else z

/-- The flags of an ACTIVE slot take effect (R429). -/
def Seq.flags (y : Seq) : Seq :=
  if y.st != .active then y
  else if y.stopReq then { y with st := .done, reason := 3, stopReq := false, pauseReq := false }
  else if y.pauseReq then { y with st := .paused, stopReq := false, pauseReq := false }
  else y

/-- The list being built (R430). -/
structure StepList where
  rows : List (Nat × Nat × Bool × Nat × Nat × Bool) := []
  t : Nat := 0
  rot : Nat := 0x3FFF
  nopage : Nat := 0
  /-- ACTIVE slots skipped for pages -/
  nopageActive : Nat := 0
  joined : Nat := 0
  prefill : Nat := 0
  stop : Bool := false
  seqs : Table Seq := []

/-- One candidate of the loop of R430; a row is (slot, q, first, tok_off, pos, prefill). -/
def StepList.add (b : Batch) (budget : Nat) (l : StepList) (c : Nat) : StepList :=
  if l.stop || l.rows.length = b.rows then { l with stop := true }
  else
    let y := l.seqs.get {} c
    let pre := decide (y.pos < y.promptLen)
    let need := if pre then min (y.promptLen - y.pos) b.chunk else 1
    let q := min need (budget - l.t)
    if q = 0 then { l with stop := true }
    else if y.ptPages * b.pageTokens < y.pos + q then { l with seqs := l.seqs.put c { y with nopage := true }, nopage := l.nopage + 1, nopageActive := l.nopageActive + b2n (y.st == .active) }
    else
      let first := y.st == .pending
      let z := { y with nopage := false, st := .active, joinStep := if first then b.steps.toNat else y.joinStep, lastStep := b.steps.toNat, row := l.rows.length }
      { l with rows := l.rows ++ [(c, q, first, l.t, y.pos, pre)], t := l.t + q, rot := if first then l.rot else c,
               joined := l.joined + b2n first, prefill := l.prefill + b2n pre, seqs := l.seqs.put c z }

/-- Insert a slot by admission number. -/
def insertAdmit (k : Nat × Nat) : List (Nat × Nat) → List (Nat × Nat)
  | [] => [k]
  | a :: t => if k.1 < a.1 then k :: a :: t else a :: insertAdmit k t

/-- Candidates: ACTIVE slots after ROT and wrapping, then PENDING ones by admission number (R430). -/
def candidates (seqs : Table Seq) (first count rot : Nat) : List Nat :=
  let slots := (List.range count).map (first + ·)
  let act := slots.filter (fun i => (seqs.get {} i).st == .active)
  let pend := slots.filter (fun i => (seqs.get {} i).st == .pending)
  act.filter (rot < ·) ++ act.filter (· ≤ rot) ++ (pend.foldr (fun i l => insertAdmit ((seqs.get {} i).admitNo, i) l) []).map (·.2)

/-- Largest nonzero bucket, and the bucket chosen for `t` tokens (R430, R431). -/
def Batch.maxBkt (b : Batch) : Nat := (List.range 8).foldl (fun m j => max m (b.bkt.get 0 j)) 0
def Batch.bucket (b : Batch) (t : Nat) : Nat := if t = 0 then 0 else ((List.range 8).find? (fun j => t ≤ b.bkt.get 0 j)).getD 0

/-- Bytes of a row record (Table 13.6). -/
def rowBytesOf (y : Seq) (r : Nat × Nat × Bool × Nat × Nat × Bool) : List Byte :=
  leBytes 32 (r.1 + b2n r.2.2.2.2.2 * 2 ^ 14 + b2n r.2.2.1 * 2 ^ 15 + r.2.2.2.2.1 * 2 ^ 16 + r.2.1 * 2 ^ 40 + y.ptAddr * 2 ^ 64 + y.ptPages * 2 ^ 112
    + y.outAddr * 2 ^ 128 + r.2.2.2.1 * 2 ^ 176)

/-- The step header with its CRC over the header and the rows (Table 13.5). -/
def stepHeader (b : Batch) (l : StepList) (left : Nat) (rowBs : List Byte) : List Byte :=
  let k := b.bucket l.t
  let h := b.steps.toNat + l.rows.length * 2 ^ 32 + k * 2 ^ 45 + l.t * 2 ^ 48 + b.bkt.get 0 k % 2 ^ 24 * 2 ^ 72 + l.prefill * 2 ^ 96
    + (l.joined % 2 ^ 16) * 2 ^ 112 + (left % 2 ^ 16) * 2 ^ 128 + (l.nopage % 2 ^ 16) * 2 ^ 144
  leBytes 64 (h + crc32c (leBytes 64 h ++ rowBs) * 2 ^ 160)

/-- The slots after the outcomes of the previous list and the flags (R429). -/
def State.stepSlots (s : State) (v : Nat) (adv : Bool) : Table Seq :=
  let x := s.vat v
  let t1 := if adv && x.bt.prev then
      (s.outRows v).foldl (fun t p => t.upd {} p.2.1 (fun y => y.outcome (s.outcome x.bt.base p.1))) s.hub.seqs
    else s.hub.seqs
  ((List.range x.btCount).map (x.btFirst + ·)).foldl (fun t i => if (t.get {} i).st == .active then t.put i (t.get {} i).flags else t) t1

/-- The STEP in progress ends at once with a status, nothing more changed. -/
def State.stepRefuse (s : State) (v : Nat) (k : Caller) (status row : Nat) : State :=
  let s1 := (s.modVat v (fun x => { x with bt := { x.bt with status := status } })).log (srcHub 4) evRefused status (some v) 0 row
  s1.hostFinish k.host status 0 0

/-- STEP and STEP_NOADV (R428-R432): outcomes, flags, the new list and its records; the STEP stays busy until the writes are acknowledged. -/
def State.stepGo (s : State) (v : Nat) (k : Caller) (adv : Bool) : State :=
  let x := s.vat v
  let b := x.bt
  let inside := s.stackWithin v b.base stepAreaSize
  let slots := (List.range x.btCount).map (x.btFirst + ·)
  let active := fun (t : Table Seq) => slots.filter (fun i => (t.get {} i).st == .active)
  if !((x.st == .ready || (x.st == .free && x.jobValid)) && !b.busy) || x.tw.standby || x.heldOrLater then s.stepRefuse v k eState 0
  else if slots.any (fun i => (s.seqSlot i).bad) then (s.stepRefuse v k ePoison 0).fireVat v 3
  else match (if adv && b.prev then s.badOutcome b.base ((s.outRows v).map (fun p => (p.1, p.2.2))) else none) with
    | some (r, st) => s.stepRefuse v k st r
    | none =>
      let t1 := s.stepSlots v adv
      let left := (active s.hub.seqs).length - (active t1).length
      let l := (candidates t1 x.btFirst x.btCount b.rot).foldl (StepList.add b (min b.tokens b.maxBkt)) { seqs := t1, rot := b.rot }
      let starved := (active t1).length - (l.rows.filter (fun r => !r.2.2.1)).length - l.nopageActive
      let rowBs := l.rows.flatMap (fun r => rowBytesOf (l.seqs.get {} r.1) r)
      let s1 : State := { s with hub := { s.hub with seqs := l.seqs } }
      let b1 := { b with busy := true, rot := l.rot, starved := satAdd top16 b.starved starved, nopage := satAdd top16 b.nopage l.nopage,
                         left := satAdd top16 b.left left, joined := satAdd top16 b.joined l.joined, host := k.host,
                         list := if inside then l.rows.map (fun r => (r.1, r.2.1)) else b.list, endStatus := if inside then eOk else ePermission }
      let s2 := s1.setVat v { x with bt := b1 }
      if inside then (s2.stackPut (b.base + 0x1000) rowBs (fun _ => false)).stackPut b.base (stepHeader b l left rowBs) (fun _ => false) else s2

/-- Every write of the STEP is acknowledged (R432): prev, steps, status, the counter, and the held commands. (DESIGN CHOICE, log entry 96) -/
def State.stepEnd (s : State) (v : Nat) : State :=
  let x := s.vat v
  let b := x.bt
  if !b.busy then s
  else
    let ok := b.endStatus == eOk
    let s1 := s.setVat v { x with bt := { b with busy := false, prev := b.prev || ok, steps := if ok then b.steps + 1 else b.steps, status := b.endStatus,
                                                 host := none, held := [] } }
    let s2 := if ok then s1 else s1.log (srcHub 4) evRefused b.endStatus (some v) 0 0
    let s3 := if b.ctrEn && ok then (s2.addOutside b.ctr 1).1 else s2
    let s4 := (s3.autoCommit v).hostFinish b.host b.endStatus b.steps.toNat 0
    b.held.foldl (fun s q => s.seqApply v q) s4

/-- Clear a vat's slots and its batcher registers but the range (R440). -/
def State.batchClear (s : State) (v : Nat) : State :=
  let x := s.vat v
  let s1 : State := { s with hub := { s.hub with seqs := s.hub.seqs.delRange x.btFirst x.btCount } }
  s1.modVat v (fun x => { x with bt := {}, balGroup := [], balEn := false, balActive := false, balPos := [] })

end Sys2Proof.Machine
end

