-- ==== Sys2Proof/Machine/Batcher.lean ====
section
/-! DEFINITION. The batcher's commands (Chapter 13). -/

namespace Sys2Proof.Machine

/-- A slot command written by the vatman to SEQ_CMD, with SEQ_STAGE (R425). -/
def State.seqVatman (s : State) (v op slot arg : Nat) : State :=
  if (s.planOf v).valid then s.seqReq v { op := op, slot := slot, image := (s.vat v).bt.stage, arg := arg } else s

/-- ADMIT (Table 13.3). -/
def execSeqAdmit (v slot : Nat) (s : State) : Res := .next (s.seqVatman v 1 slot 0)
/-- PAUSE (Table 13.3). -/
def execPause (v slot : Nat) (s : State) : Res := .next (s.seqVatman v 2 slot 0)
/-- RESUME of a slot (Table 13.3). -/
def execSeqResume (v slot : Nat) (s : State) : Res := .next (s.seqVatman v 3 slot 0)
/-- STOP of a slot (Table 13.3). -/
def execSeqStop (v slot : Nat) (s : State) : Res := .next (s.seqVatman v 4 slot 0)
/-- RETIRE (Table 13.3). -/
def execRetire (v slot : Nat) (s : State) : Res := .next (s.seqVatman v 5 slot 0)
/-- GROW (Table 13.3). -/
def execGrow (v slot arg : Nat) (s : State) : Res := .next (s.seqVatman v 6 slot (arg % 2 ^ 16))

/-- The host's slot command (R425, Table 17.8): the fields of the entry form the image. -/
def seqOfEntry (e : Nat) (h : Option (Nat × Nat)) : SeqReq :=
  { op := fld e 64 3, slot := fld e 80 14, arg := fld e 96 16, host := h,
    image := fld e 128 32 * 2 ^ 32 + fld e 160 24 * 2 ^ 64 + fld e 184 24 * 2 ^ 88 + fld e 208 24 * 2 ^ 112 + fld e 256 48 * 2 ^ 160
      + fld e 304 16 * 2 ^ 208 + fld e 320 48 * 2 ^ 224 }

/-- SEQ (Table 17.7). -/
def execSeq (r v : Nat) (s : State) : Res :=
  .next (s.command (.host r) 0x09 v (fun s k => s.seqReq v (seqOfEntry k.entry k.host)))

/-- STEP, STEP_NOADV or RESET from a source; the host's form is in bits [65:64] of its entry (Table 17.8). (DESIGN CHOICE, log entry 95) -/
def State.stepFrom (s : State) (v : Nat) (src : Src) (form : Nat) (f : State → Caller → State) : State :=
  match src with
  | .host r =>
    match (s.ring r).nextCmd with
    | some k => if fld k.entry 64 2 == form then s.command src 0x0A v f else s
    | none => s
  | _ => s.command src 0x0A v f

/-- STEP (R428). (DESIGN CHOICE, log entry 95) -/
def execStep (v : Nat) (src : Src) (s : State) : Res := .next (s.stepFrom v src 1 (fun s k => s.stepGo v k true))

/-- STEP_NOADV (R428). -/
def execStepNoadv (v : Nat) (src : Src) (s : State) : Res := .next (s.stepFrom v src 2 (fun s k => s.stepGo v k false))

/-- RESET sets prev := 0 and changes no slot (R428). (DESIGN CHOICE, log entry 95) -/
def execBatchReset (v : Nat) (src : Src) (s : State) : Res :=
  .next (s.stepFrom v src 3 (fun s k =>
    let x := s.vat v
    if x.tw.standby || x.heldOrLater then s.stepRefuse v k eState 0
    else (s.setVat v { x with bt := { x.bt with prev := false, status := if x.bt.busy then x.bt.status else eOk } }).hostFinish k.host eOk x.bt.steps.toNat 0))

/-- The STEP's writes are acknowledged (R432). -/
def execStepComplete (v : Nat) (s : State) : Res := .next (s.stepEnd v)

/-- The balancer's next row of a member, and its key among the positions (R438): none when no row remains or the member index is too high. -/
def State.balPick (s : State) (v group member : Nat) : Option (Nat × Nat) :=
  let x := s.vat v
  let n := x.balGroup.get 0 group
  let key := if x.balActive then 4096 + group else 64 * group + member
  let k := x.balPos.get 0 key
  let row := if x.balActive then k else member + n * k
  if n ≤ member || x.bt.list.length ≤ row then none else some (key, row)

/-- BAL_NEXT as a register: {none, row} (Table 13.15). -/
def State.balWord (s : State) (v group member : Nat) : Nat := match s.balPick v group member with | some r => r.2 | none => 2 ^ 13

/-- The read hands the row out; a member index at or above n is logged (R438). -/
def State.balTake (s : State) (v group member : Nat) : State :=
  if (s.vat v).balGroup.get 0 group ≤ member then s.log (srcHub 4) evRefused eRange (some v) 0 (64 * group + member)
  else match s.balPick v group member with
    | some r => s.modVat v (fun x => { x with balPos := x.balPos.put r.1 (x.balPos.get 0 r.1 + 1) })
    | none => s

/-- A read of BAL_NEXT hands out the next row, or none (R438, Table 13.15). -/
def execBalNext (v group member : Nat) (s : State) : Res :=
  .next ((s.balTake v group member).send (.regData 0 (s.balWord v group member)))

end Sys2Proof.Machine
end

