-- ==== Sys2Proof/Machine/ChanOps.lean ====
section
/-! DEFINITION. Channel descriptors (Tables 8.1, 8.4), endpoints, landing, spilling and credits (Chapter 8). -/

namespace Sys2Proof.Machine

/-! ## The descriptor (Table 8.1) -/

def cdRole (d : Nat) : Nat := fld d 0 2
def cdPath (d : Nat) : Nat := fld d 2 2
def cdSpillEn (d : Nat) : Bool := bit d 4
def cdRelEn (d : Nat) : Bool := bit d 5
def cdSlots (d : Nat) : Nat := fld d 8 8 + 1
def cdStride (d : Nat) : Nat := 32 * fld d 16 14
def cdRing (d : Nat) : Nat := fld d 32 19
def cdRec (d : Nat) : Nat := fld d 52 19
def cdRdy (d : Nat) : Nat := fld d 72 15
def cdFree (d : Nat) : Nat := fld d 88 15
def cdSpillN (d : Nat) : Nat := if cdSpillEn d then fld d 104 12 + 1 else 0
def cdSpillBase (d : Nat) : Nat := fld d 120 48
def cdPeerEp (d : Nat) : Nat := fld d 168 6
def cdPeerCore (d : Nat) : Nat := fld d 174 6
def cdPeerCl (d : Nat) : Nat := fld d 180 6
def cdMcIndex (d : Nat) : Nat := fld d 186 4
def cdPeerNode (d : Nat) : Nat := fld d 192 17
def cdRelBase (d : Nat) : Nat := fld d 209 24
def cdRelStep (d : Nat) : Nat := fld d 233 20
def cdCredits (d : Nat) : Nat := fld d 12 16
def cdDstEp (d : Nat) : Nat := fld d 32 6
def cdDstCore (d : Nat) : Nat := fld d 38 6
def cdDstCl (d : Nat) : Nat := fld d 44 6
def cdRoute (d : Nat) : Nat := fld d 50 6
def cdMcCount (d : Nat) : Nat := if cdPath d = 1 then fld d 56 4 + 1 else 1
def cdDstNode (d : Nat) : Nat := fld d 64 17
def cdDstStride (d : Nat) : Nat := 32 * fld d 96 14

/-- Bytes of a spill slot (R275). -/
def cdSpillSlot (d : Nat) : Nat := cdiv (16 + cdStride d) 256 * 256

/-- Is a counter one of a core's own cluster (R254)? -/
def ownCtr (c a : Nat) : Bool := a < 0x4000 && a / 256 == clusterOf c

/-- Do `[a, a + n)` and `[b, b + m)` share a byte? -/
def meets (a n b m : Nat) : Bool := a < b + m && b < a + n

/-- The rules of R253 and R254 that concern one descriptor of core `c`. -/
def chanDescOk (c d : Nat) : Bool :=
  let r := cdRole d
  let p := cdPath d
  if r = 0 then d == 0
  else if r = 3 then fld d 2 70 == 0 && fld d 87 169 == 0 && (cdRdy d == 0 || ownCtr c (cdRdy d))
  else if r = 1 then
    fld d 4 8 == 0 && 1 ≤ cdCredits d && cdCredits d ≤ 4352 && fld d 28 4 == 0 && fld d 60 4 == 0 && fld d 81 15 == 0 && fld d 110 146 == 0
    && (p == 0 || p == 2 || fld d 32 18 == 0) && (p == 1 || fld d 50 10 == 0) && (p == 2 || fld d 64 17 == 0)
  else
    fld d 6 2 == 0 && (!cdRelEn d || 2 ≤ p) && fld d 30 2 == 0 && fld d 16 14 != 0 && !bit d 51 && !bit d 71 && !bit d 87 && !bit d 103
    && fld d 116 4 == 0 && fld d 190 2 == 0 && fld d 253 3 == 0
    && cdRing d % 32 == 0 && cdRec d % 16 == 0 && ownCtr c (cdRdy d) && ownCtr c (cdFree d)
    && (cdSpillEn d || (fld d 104 12 == 0 && fld d 120 48 == 0)) && cdSpillBase d % 4096 == 0
    && (p ≤ 1 || fld d 168 18 == 0) && (p == 1 || fld d 186 4 == 0) && (p == 2 || fld d 192 17 == 0)
    && (cdRelEn d || fld d 209 44 == 0)
    && cdRing d + cdSlots d * cdStride d ≤ 0x7C000 && cdRec d + 16 * cdSlots d ≤ 0x7C000
    && !(meets (cdRing d) (cdSlots d * cdStride d) (cdRec d) (16 * cdSlots d))

/-- Scratchpad ranges of a receive descriptor: its ring and its slot records. -/
def cdRanges (d : Nat) : List (Nat × Nat) :=
  if cdRole d = 2 then [(cdRing d, cdSlots d * cdStride d), (cdRec d, 16 * cdSlots d)] else []

/-- Counters a descriptor names. -/
def cdCtrs (d : Nat) : List Nat :=
  if cdRole d = 2 then [cdRdy d, cdFree d] else if cdRole d = 3 && cdRdy d != 0 then [cdRdy d] else []

/-! ## Endpoint states -/

/-- The state an endpoint takes when its descriptor is set (R252, R270, Table 8.9). -/
def epStart (d : Nat) : EpSt :=
  if cdRole d = 0 then .off
  else if cdPath d = 3 then (if cdRole d = 1 then .closed else .listen)
  else .ready

/-- An endpoint reset to its descriptor (R259). (DEDUCED, log entry 45) -/
def Ep.init (x : Ep) : Ep :=
  let d := x.desc
  { desc := d, staging := x.staging, st := epStart d, mbox := x.mbox, full := x.full, overrun := x.overrun, deadlock := x.deadlock,
    spillAcks := x.spillAcks.map (fun _ => false), creditsMax := if cdRole d = 1 then cdCredits d else 0,
    credits := if cdRole d = 1 then (List.range (cdMcCount d)).map (fun i => (i, cdCredits d)) else [] }

/-- A receive endpoint without messages; its pointers, sequence number and connection stay. Writes of spilled messages still to be acknowledged ask
for no LACK (R259, R270, R271). -/
def Ep.emptied (x : Ep) : Ep :=
  { x with occ := 0, spill := [], spHead := 0, drains := 0, rx := [], heldRdy := [], spillAcks := x.spillAcks.map (fun _ => false) }

/-- The reset of one endpoint, its counters included; mailboxes and path 3 keep their state (R259). CHN_EP_COUNT is cleared (R289). (DEDUCED, log entry 45) -/
def State.epReset (s : State) (c e : Nat) : State :=
  let x := s.ep c e
  let d := x.desc
  if cdPath d = 3 || cdRole d = 0 || cdRole d = 3 then s.setEp c e { x with msgs := 0, spills := 0, stall := 0 }
  else
    let s1 := s.setEp c e x.init
    if cdRole d = 2 then (s1.putCtr (cdRdy d) 0).putCtr (cdFree d) 0 else s1

/-- Endpoints of a core that hold something. -/
def State.epsOf (s : State) (c : Nat) : List Nat := (s.cores.eps.filter (fun p => p.1 / 64 == c)).map (fun p => p.1 % 64)

/-- Is a SEND of an endpoint in progress (Table 8.9)? -/
def State.epBusy (s : State) (c e : Nat) : Bool :=
  match (s.chn c).entry with
  | some m => mMop m == 1 && fld m.toNat 32 6 == e
  | none => false

/-- The credits of a send endpoint: the lowest receiver's count (Table 8.9). -/
def Ep.creditMin (x : Ep) : Nat :=
  (List.range (cdMcCount x.desc)).foldl (fun a i => min a (x.credits.get 0 i)) 0xFFFF

/-! ## Landing (R255-R258, R276, R279) -/

/-- Is the vat of a core in deterministic mode now (R341)? -/
def State.detNow (s : State) (c : Nat) : Bool :=
  match s.vatOfCore c with
  | some v => (s.vat v).st == .running && (s.vat v).det.detOn
  | none => false

/-- The slot record of Table 8.2. -/
def slotRecord (len : Nat) (bad spilled late : Bool) (seq at_ src : Nat) : Nat :=
  len + b2n bad * 2 ^ 24 + b2n spilled * 2 ^ 25 + b2n late * 2 ^ 26 + (seq % 2 ^ 32) * 2 ^ 32 + at_ * 2 ^ 64 + src * 2 ^ 96

/-- Release cycle of message `k` (R279). -/
def cdRelease (d k : Nat) : Nat := cdRelBase d + k * cdRelStep d

/-- A message lands in the write slot: payload, then slot record, then the rdy_ctr increment, held to its release cycle in
deterministic mode (R257, R279). -/
def State.land (s : State) (c e : Nat) (data : List Byte) (bad : NSet) (seq src : Nat) (spilled : Bool) : State :=
  let x := s.ep c e
  let d := x.desc
  let at_ := cdRing d + x.wp * cdStride d
  let timed := cdRelEn d && s.detNow c
  let rel := cdRelease d seq
  let cyc := (s.cycleOf c).toNat
  let late := timed && rel < cyc
  let s1 := s.spadStore c at_ data (fun i => bad.has i)
  let s2 := s1.spadStore c (cdRec d + 16 * x.wp) (leBytes 16 (slotRecord data.length (!bad.isEmpty) spilled late seq at_ src)) (fun _ => false)
  let s3 := s2.setEp c e { x with wp := (x.wp + 1) % cdSlots d, occ := x.occ + 1, msgs := satAdd top24 x.msgs 1 }
  let s4 := if late then s3.detBreakCore c 7 else if 2 ≤ cdPath d && !cdRelEn d then s3.detBreakCore c 9 else s3
  if timed && cyc < rel then s4.modEp c e (fun y => { y with heldRdy := y.heldRdy ++ [rel] }) else s4.addFrom c (cdRdy d) 1

/-- Send a packet to a receive endpoint's sender: kind 2 CREDIT, 3 LACK (Table 8.6). -/
def State.toSender (s : State) (c e kind : Nat) : State :=
  let x := s.ep c e
  let d := x.desc
  let (node, cl, co, ep) := if cdPath d ≤ 1 then (0, cdPeerCl d, cdPeerCore d, cdPeerEp d) else x.far
  s.chanOut c kind node cl co none
    { dstEp := ep, srcEp := e, srcCl := clusterOf c, srcCore := (s.logOf c).getD 0, remote := 2 ≤ cdPath d, srcNode := if 2 ≤ cdPath d then s.span.node else 0,
      job := if 2 ≤ cdPath d then (match s.vatOfCore c with | some v => (s.vat v).jobId | none => 0) else 0,
      mc := if kind == 2 then cdMcIndex d else 0, conn := x.conn }

/-- Write a message to the tail of the spill ring (R275, R276). (DEDUCED, log entry 37) -/
def State.spillOut (s : State) (c e : Nat) (data : List Byte) (bad : NSet) (seq src : Nat) (ackReq : Bool) : State :=
  let x := s.ep c e
  let d := x.desc
  let at_ := cdSpillBase d + (x.spHead + x.spill.length) % cdSpillN d * cdSpillSlot d
  let rec_ := leBytes 16 (slotRecord data.length (!bad.isEmpty) true false seq 0 src)
  let s1 := (s.setEp c e { x with spill := x.spill ++ [{ len := data.length, seq := seq, srcNode := src }], spillAcks := x.spillAcks ++ [ackReq],
                                  spills := satAdd top16 x.spills 1 }).detBreakCore c 6
  ((s1.accountCore c 17 (chargeOf at_ (16 + data.length))).noteCoreWrite c at_ (rec_ ++ data) (fun i => 16 ≤ i && bad.has (i - 16))).send
    (.spillWrite c e at_ (rec_ ++ data) (bad.map (· + 16)) (s.meshTo c at_))

/-- Count a refusal and answer it (R265, R266). -/
def State.chanRefuse (s : State) (c kind : Nat) (m : ChMsg) (status : Nat) (badPkt : Bool) : State :=
  (s.modChn c (fun x => if badPkt then { x with badPkt := satAdd top16 x.badPkt 1 } else { x with refused := satAdd top16 x.refused 1 })).chanRefused
    kind m status

/-- May a vat's channels and sync frames name a node (R464)? -/
def State.mayName (s : State) (v node : Nat) (chan : Bool) : Bool :=
  let p := s.vatPerm v
  p.lo ≤ node && node ≤ p.hi && (if chan then p.chan else p.sync)

/-- Is the source of a packet the peer of endpoint `e`, over its current connection and for its vat's job (R266, R268, R269)? -/
def State.fromPeer (s : State) (c e : Nat) (m : ChMsg) : Bool :=
  let x := s.ep c e
  let d := x.desc
  let jobOk := match s.vatOfCore c with | some v => (s.vat v).jobValid && (s.vat v).jobId == m.job | none => false
  if cdPath d ≤ 1 then !m.remote && m.srcCl == cdPeerCl d && m.srcCore == cdPeerCore d && m.srcEp == cdPeerEp d
  else if cdPath d = 2 then
    m.remote && m.srcNode == cdPeerNode d && jobOk
    && (match s.vatOfCore c with | some v => (s.vat v).peers.any (fun p => p.2 == m.srcNode + 2 ^ 31) | none => false)
  else
    let k := s.conn (m.conn % 4096)
    m.remote && jobOk && x.st == .opened && k.opened && k.gen == m.conn / 4096 && k.core == c && k.ep == e && x.conn == m.conn
    && x.far == (m.srcNode, m.srcCl, m.srcCore, m.srcEp)

/-- Place a whole message: ring slot, spill ring, or overrun (R272, R276). -/
def State.place (s : State) (c e : Nat) (m : ChMsg) (data : List Byte) (bad : NSet) : State :=
  let x := s.ep c e
  let d := x.desc
  let src := if m.remote then m.srcNode else 0
  if x.spill.isEmpty && x.occ < cdSlots d then
    let s1 := s.land c e data bad m.seq src false
    if m.ackReq then s1.toSender c e 3 else s1
  else if x.spill.length < cdSpillN d then s.spillOut c e data bad m.seq src m.ackReq
  else
    (((s.modEp c e (fun y => { y with overrun := true })).chanRefused 1 m eState).raiseCore c causeOverrun).log (srcCore c) evOverrun eState (s.vatOfCore c) 0 e

/-- Read the oldest spilled message not yet being read, into a freed slot (R276). (DEDUCED, log entry 37) -/
def State.drainSpill (s : State) (c e : Nat) : State :=
  let x := s.ep c e
  let d := x.desc
  if x.drains < x.spill.length && x.occ + x.drains < cdSlots d then
    let q := (x.spill.drop x.drains).headD {}
    let at_ := cdSpillBase d + (x.spHead + x.drains) % cdSpillN d * cdSpillSlot d
    ((s.setEp c e { x with drains := x.drains + 1 }).accountCore c 17 (chargeOf at_ (16 + q.len))).send (.spillRead c e at_ (16 + q.len) (s.meshTo c at_))
  else s

/-! ## Sending (R261-R264) -/

def sdEp (m : Nat) : Nat := fld m 32 6
def sdSrc (m : Nat) : Nat := fld m 64 19
def sdLen (m : Nat) : Nat := fld m 88 16
def sdCount (m : Nat) : Nat := fld m 104 16 + 1
def sdStep (m : Nat) : Nat := fld m 128 24

/-- Reserved fields of a channel queue body (Table 8.4). -/
def chnBodyOk (m mop : Nat) : Bool :=
  if mop = 1 then fld m 38 26 == 0 && fld m 83 5 == 0 && fld m 120 8 == 0 && fld m 152 104 == 0 && sdLen m != 0
  else if mop = 2 then fld m 55 9 == 0 && fld m 81 47 == 0
  else if mop = 3 then fld m 96 160 == 0 && fld m 64 32 != 0
  else if mop = 4 then fld m 56 8 == 0 && fld m 81 175 == 0
  else fld m 38 218 == 0

/-- The checks of R262, with the node rights of R464. (DEDUCED, log entry 46) -/
def State.chnCheck (s : State) (c m mop : Nat) : Nat :=
  let x := s.ep c (sdEp m)
  let d := x.desc
  let v := (s.vatOfCore c).getD 0
  if !(chnBodyOk m mop) then eFormat
  else if mop = 1 && (cdRole d != 1 || (cdPath d == 3 && x.st != .opened)) then eFormat
  else if (mop = 4 || mop = 5) && (cdRole d != 1 || cdPath d != 3) then eFormat
  else if mop = 1 && (cdDstStride d < sdLen m || spadSize < sdSrc m + (sdCount m - 1) * sdStep m + sdLen m) then eRange
  else if mop = 4 && x.st != .closed then eState
  else if mop = 5 && x.st != .opened then eState
  else if mop = 4 && !(s.mayName v (fld m 64 17) true) then ePermission
  else if mop = 3 && fld m 32 17 != s.span.node && !(s.mayName v (fld m 32 17) false) then ePermission
  else if mop = 2 && bit m 50 && !(s.mayName v (fld m 64 17) true) then ePermission
  else eOk

/-- The header fields of a packet core `c` sends from endpoint `e`. -/
def State.chHead (s : State) (c e : Nat) (remote : Bool) : ChMsg :=
  { srcEp := e, srcCl := clusterOf c, srcCore := (s.logOf c).getD 0, remote := remote, srcNode := if remote then s.span.node else 0,
    job := if remote then (match s.vatOfCore c with | some v => (s.vat v).jobId | none => 0) else 0 }

/-- Where an endpoint's messages go: node, cluster, core, endpoint (R267, R268, R270). -/
def Ep.target (x : Ep) : Nat × Nat × Nat × Nat :=
  if cdPath x.desc = 3 then x.far
  else (if cdPath x.desc = 2 then cdDstNode x.desc else 0, cdDstCl x.desc, cdDstCore x.desc, cdDstEp x.desc)

/-- The packets of message `i` of a SEND (R263, R265). (DEDUCED, log entry 43) -/
def State.sendPackets (s : State) (c m i : Nat) : State :=
  let e := sdEp m
  let x := s.ep c e
  let d := x.desc
  let a := sdSrc m + i * sdStep m
  let len := sdLen m
  let sp := s.spad c
  let data := sp.mem.readBytes a len
  let bad := (List.range len).filter (fun j => sp.badAt (a + j))
  let (node, cl, co, ep) := x.target
  let h := s.chHead c e (2 ≤ cdPath d)
  let n := cdiv len 240
  let s1 := (s.noteRead c a len).modChn c (fun y =>
    { y with idx := i + 1, lastCycle := s.clk.fast.toNat, sentBad := if y.sentBad.isSome then y.sentBad else (bad.head?).map (a + ·) })
  (List.range n).foldl (fun s j =>
    s.chanOut c 1 node cl co (if cdPath d = 1 then some (cdRoute d) else none)
      { h with dstEp := ep, last := j + 1 == n, ackReq := j + 1 == n && i + 1 == sdCount m, off := 240 * j, conn := x.conn, seq := x.seq,
               data := (data.drop (240 * j)).take 240, bad := (bad.filter (fun b => 240 * j ≤ b && b < 240 * j + 240)).map (· - 240 * j) }) s1

/-- A SEND with a message left that lacks credit: its waiting cycles count from now (R263, R277). -/
def State.chnStall (s : State) (c : Nat) : State :=
  match (s.chn c).entry with
  | some m =>
    let e := sdEp m.toNat
    if mMop m == 1 && (s.chn c).idx < sdCount m.toNat && (s.chn c).refusal.isNone && (s.ep c e).creditMin == 0 then
      s.modEp c e (fun x => { x with stallSince := if x.stallSince.isSome then x.stallSince else some s.clk.fast.toNat,
                                     dlSince := if x.dlSince.isSome then x.dlSince else some s.clk.fast.toNat })
    else s
  | none => s

/-- The channel engine holds its macro-instruction no longer. -/
def State.chnEnd (s : State) (c : Nat) (m : W256) : State :=
  (s.modChn c (fun x => { x with entry := none })).chnGone c m

/-- The channel engine's macro-instruction completes: its signal is applied (R101, R263). -/
def State.chnDone (s : State) (c : Nat) : State :=
  match (s.chn c).entry with
  | some m => (s.chnEnd c m).sigDone c 6 m
  | none => s

/-- The channel engine's macro-instruction halts its queue with a status (R263, R264, R270). -/
def State.chnHalt (s : State) (c status : Nat) : State :=
  match (s.chn c).entry with
  | some m => (s.chnEnd c m).reject c 6 status m
  | none => s

/-- The end of the acknowledgement window of a SEND: counted from the cycle after its last packet leaves the core (R279). -/
def State.sendWindow (s : State) (c : Nat) : Nat := (s.chn c).lastCycle + 1 + (match s.vatOfCore c with | some v => (s.vat v).ackWinLatch | none => 0)

/-- Does the channel engine's SEND use path 2 or 3? (DEDUCED, log entry 42) -/
def State.sendFar (s : State) (c : Nat) : Bool :=
  match (s.chn c).entry with
  | some m => mMop m == 1 && 2 ≤ cdPath (s.ep c (sdEp m.toNat)).desc
  | none => false

/-- The receiver of a SEND that a LACK comes from: the mc_index of the source's descriptor on a multicast channel (R267), else the one receiver. -/
def State.ackFrom (s : State) (c : Nat) (m : ChMsg) : Nat :=
  if cdPath (s.ep c (m.dstEp % 64)).desc = 1 then
    (match s.physOf m.srcCl m.srcCore with | some t => cdMcIndex (s.ep t (m.srcEp % 64)).desc | none => 0)
  else 0

/-- Have all receivers of the SEND answered for its first `n` messages: by a landing acknowledgement or refusal, or because all credits are back,
so that each message was refused, or landed and was freed (R263, R264)? (DEDUCED, log entry 147) -/
def State.allAnswered (s : State) (c e n : Nat) (credits : Bool) : Bool :=
  let x := s.ep c e
  (List.range (cdMcCount x.desc)).all (fun i => n ≤ (s.chn c).answered.get 0 i || (credits && x.creditsMax ≤ x.credits.get 0 i))

/-- A SEND that was refused halts its queue once every message already sent has its answer (R264). -/
def State.chnRefusalDone (s : State) (c : Nat) : State :=
  match (s.chn c).entry, (s.chn c).refusal with
  | some m, some k => if mMop m == 1 && s.allAnswered c (sdEp m.toNat) (s.chn c).idx true then s.chnHalt c k else s
  | _, _ => s

end Sys2Proof.Machine
end

