-- ==== Sys2Proof/Machine/VatOps.lean ====
section
/-! DEFINITION. The ends of a vat's work: accounting records, faults, wipes and their clears, reclaim steps (R498-R513, Table 16.6). -/

namespace Sys2Proof.Machine

/-! ## Accounting records (R503, R504) -/

/-- Difference of a counter over a window; counters wrap at 2⁶⁴. -/
def delta64 (now was : Nat) : Nat := (now + 2 ^ 64 - was) % 2 ^ 64

/-- A record of Table 16.1 for a vat (kind 0 or 1), or for the system (kind 2), whose window ends at tick `e`. -/
def State.acctRecord (s : State) (v kind : Nat) (e : W64) : List Byte :=
  let a := s.hub.acct
  let x := s.vat v
  let sys := kind == 2
  let ds := (List.range 23).foldl (fun t j =>
    let d := if sys then (if j = 21 then delta64 a.sysEnergy.toNat a.sysEnergy0.toNat else 0) else delta64 (x.ac.acct.get 0 j) (x.ac.acct0.get 0 j)
    t + d * 2 ^ (256 + 64 * j)) 0
  let st := if sys then 0 else (List.range 4).foldl (fun t j => t + delta64 (x.ac.stk.get 0 j) (x.ac.stk0.get 0 j) * 2 ^ (1728 + 64 * j)) 0
  let body := 0x4D444143 + 1 * 2 ^ 32 + (if sys then 0 else x.jobId) * 2 ^ 48 + (if sys then 0 else v) * 2 ^ 64 + kind * 2 ^ 68
    + b2n (if sys then a.clamp else x.ac.clamp) * 2 ^ 70 + b2n a.lostSince * 2 ^ 71 + a.idx.toNat * 2 ^ 96
    + (if sys then a.from_ else x.ac.from_).toNat * 2 ^ 128 + e.toNat * 2 ^ 192 + ds + st
  leBytes 256 (body + crc32c (leBytes 256 body) * 2 ^ 2016)

/-- Does `[a, a + n)` lie in granules no vat owns? -/
def State.stackFree (s : State) (a n : Nat) : Bool :=
  a + n ≤ stackTop && (List.range ((a + (n - 1)) / 2 ^ 30 - a / 2 ^ 30 + 1)).all (fun i => (s.stackOwner ((a / 2 ^ 30 + i) * 2 ^ 30)).isNone)

/-- Write an accounting record, or count it lost (R504). (DESIGN CHOICE, log entry 96) -/
def State.acctWrite (s : State) (v kind : Nat) (e : W64) : State :=
  let a := s.hub.acct
  if !a.en then s
  else
    let n := 2 ^ a.slotsLog2
    if s.stackFree a.base (256 * n) then
      let s1 := s.stackPut (a.base + 256 * (a.idx.toNat % n)) (s.acctRecord v kind e) (fun _ => false)
      { s1 with hub := { s1.hub with acct := { a with idx := a.idx + 1, lostSince := false } } }
    else
      (({ s with hub := { s.hub with acct := { a with idx := a.idx + 1, lost := true, lostSince := true } } } : State)).log
        (srcHub 11) evRefused ePermission (if kind = 2 then none else some v) 0 a.idx.toNat |>.fire 663

/-- Counting for a vat's job stops: a final record covers the window to this tick (R501, R504). -/
def State.stopCounting (s : State) (v : Nat) : State :=
  if (s.vat v).ac.stopped then s
  else (s.acctWrite v 1 s.clk.gtc).modVat v (fun x => { x with ac := { x.ac with stopped := true } })

/-! ## Clearing (Table 16.6) -/

/-- Close the connections of cores a test picks (R271). -/
def State.closeConns (s : State) (p : Nat → Bool) : State :=
  { s with net := { s.net with conns := s.net.conns.map (fun q =>
      if q.2.opened && p q.2.core then (q.1, { q.2 with opened := false, gen := (q.2.gen + 1) % 4096 }) else q) } }

/-- A channel engine and a scratchpad that are replaced keep their counts, which only a read clears (R220, R289). -/
def State.setChnKeep (s : State) (c : Nat) (x : Chn) : State := s.setChn c { x with refused := (s.chn c).refused, badPkt := (s.chn c).badPkt }
def State.setSpadKeep (s : State) (c : Nat) (x : Spad) : State := s.setSpad c { x with eccUnc := (s.spad c).eccUnc, eccCor := (s.spad c).eccCor }

/-- The words of a core's instruction store hold no error (R192). -/
def State.clearImemUe (s : State) (c : Nat) : State := { s with cores := { s.cores with imemUe := s.cores.imemUe.del c } }

/-- Write bytes of a core's instruction store; 16 B words written whole hold no error (R327). -/
def State.imemWrite (s : State) (c o : Nat) (p : List Byte) : State :=
  let t := s.modImem c (fun m => m.writeBytes o p)
  { t with cores := { t.cores with imemUe := t.cores.imemUe.upd [] c (fun u => NSet.remRange u (cdiv o 16) ((o + p.length) / 16 - cdiv o 16)) } }

/-- Wipe a core's SRAM: scratchpad, instruction store, tile registers, program stores, channel table and buffers (R192). (DEDUCED, log entry 35) -/
def State.wipeCore (s : State) (c : Nat) : State :=
  let s1 := (List.range 7).foldl (fun s q => s.setQueue c q {}) (s.dropWatches c)
  let s2 := (((((s1.setSpadKeep c {}).setImem c []).clearImemUe c).setMat c {}).setVec c {}).setChnKeep c {}
  let s3 := (List.range 4).foldl (fun s e => s.setSe c e {}) s2
  { s3 with cores := { s3.cores with eps := s3.cores.eps.delRange (64 * c) 64 } }

/-- Counters of a vat's clusters and the global counters it owns become zero (Table 16.6). -/
def State.zeroCtrs (s : State) (v : Nat) : State :=
  let cls := s.clustersOf v
  { s with net := { s.net with
      ctrs := s.net.ctrs.filter (fun p => if p.1 < 0x4000 then !(cls.contains (p.1 / 256)) else !((s.gsync (p.1 - 0x4000)).owner == v && (s.gsync (p.1 - 0x4000)).en)),
      watches := s.net.watches.filter (fun w => !(cls.contains (clusterOf w.core))) } }

/-- Route entries that name a vat are cleared (R249). -/
def State.clearRoutes (s : State) (v : Nat) (p : Nat → Bool) : State :=
  { s with net := { s.net with routes := s.net.routes.filter (fun q => !(q.2.vat == v && p (q.1 / 64))) } }

/-- The trace buffers of a vat's clusters are cleared (Table 16.6). -/
def State.clearTraces (s : State) (v : Nat) : State :=
  (s.clustersOf v).foldl (fun s cl => s.modTrace cl (fun t => { t with head := 0, recs := [] })) s

/-- The advisor banks of a vat's range are cleared (Table 16.6). -/
def State.clearAdv (s : State) (v : Nat) : State :=
  { s with hub := { s.hub with advs := s.hub.advs.delRange (s.vat v).advFirst (s.vat v).advCount } }

/-- The vat control block at its reset values, but for the shares, VAT_BATCH_RANGE and VAT_ADV_RANGE; accounting counters stay
frozen, the job stays until FREE (Table 16.6). -/
def Vat.cleared (x : Vat) (st : VatSt) : Vat :=
  { st := st, jobId := x.jobId, jobValid := x.jobValid, btFirst := x.btFirst, btCount := x.btCount, advFirst := x.advFirst, advCount := x.advCount,
    shareHost := x.shareHost, shareSpan := x.shareSpan, stkShare := x.stkShare, ac := x.ac, reclaim := x.reclaim, killHost := x.killHost,
    evacHost := x.evacHost }

/-- Export windows of a vat close (R466, R509). -/
def State.closeExports (s : State) (v : Nat) : State :=
  (List.range 16).foldl (fun s i => s.modExport_ v i (fun x => { x with open_ := false })) s

/-- A vat's mirroring ends on this device (R481, R492, R496): mode and status OFF, standby lifted, the log and the mirror queue of the vat
discarded. -/
def State.endMirror (s : State) (v : Nat) : State :=
  (s.modVat v (fun x => { x with tw := { relCtr := x.tw.relCtr, relEn := x.tw.relEn, logBase := x.tw.logBase, logPages := x.tw.logPages, ranges := x.tw.ranges,
                                         no := x.tw.no, sent := x.tw.sent, committed := x.tw.committed, applied := x.tw.applied, status := x.tw.status } })).modPort
    twinPort (fun y => { y with txq := y.txq.filter (fun q => !(q.vat == some v && 8 ≤ q.f.kind && q.f.kind ≤ 0xA)) })

/-- A CTL frame of a vat (Table 15.1). -/
def State.sendCtl (s : State) (v op : Nat) (data : List Byte) : State :=
  if (s.port twinPort).st != .up then s
  else s.queueTwin { f := { kind := 0xB, dst := s.span.tw.cfgPeer, src := s.span.node, job := (s.vat v).jobId, len := data.length, unit := v + op * 2 ^ 4, data := data } }

/-- Is this device paired? -/
def State.paired (s : State) : Bool := s.span.tw.st == .active || s.span.tw.st == .mirror

/-- A vat reset ends the vat's mirroring, with DISABLE while the device is paired (R496); completions still withheld end with E_ABORTED. (DEDUCED, log entry 99) -/
def State.resetMirror (s : State) (v : Nat) : State :=
  let w := (s.vat v).tw
  let s1 := (s.endMirror v).releaseHost v (fun _ => some (some eAborted))
  if s.paired && (w.mode != 0 || w.standby) then s1.sendCtl v 2 [] else s1

/-- Host commands of a vat that end with E_ABORTED when it is killed or reset: sheet, stop, load, STEP, copies, evacuation, release (R533, R536). (DEDUCED, log entry 134) -/
def State.abortHost (s : State) (v : Nat) : State :=
  let x := s.vat v
  let all1 := 0xFFFFFFFFFFFFFFFF
  let s1 := (((((s.hostFinish x.relHost eAborted 0 0).hostFinish x.sheetHost eAborted all1 0).hostFinish x.stopHost eAborted 0 0).hostFinish ((x.job_.bind (·.host))) eAborted 0 0).hostFinish
    x.evacHost eAborted 0 0).hostFinish x.bt.host eAborted 0 0
  let s2 := (s1.host.copies.filter (fun k => k.vat == v)).foldl (fun s k => s.hostFinish (some k.host) eAborted k.moved 0) s1
  let s3 : State := { s2 with host := { s2.host with copies := s2.host.copies.filter (fun k => k.vat != v) } }
  s3.modVat v (fun x => { x with sheetHost := none, stopHost := none, evacHost := none, job_ := none, ld := .idle, spadCopies := 0, evac := [],
                                 bt := { x.bt with host := none }, stopWaits := false })

/-- A reclaim in progress ends: the step returns to NONE and the RECLAIM completes (R511). -/
def State.endReclaim (s : State) (v status : Nat) : State :=
  let h := (s.vat v).reclaim.host
  (s.modVat v (fun x => { x with reclaim := { x.reclaim with step := .none, status := status, host := none, deadline := 0 }, yielded := false })).hostFinish h status 0 0

/-- Every core of a vat stops as for a forced stop (R512). -/
def State.stopAll (s : State) (v : Nat) : State :=
  (s.vat v).enlisted.foldl (fun s c => s.modCtl c (fun k =>
    if k.run == .running || k.run == .halted then { k with run := .halted, haltReason := 4 } else k)) s

/-- A vat enters FAULTED (Table 9.3): everything is kept; counting stops; work ends. -/
def State.toFaulted (s : State) (v : Nat) : State :=
  let s1 := (((s.cancelStart v).stopAll v).withdraw v (fun _ => true)).abortHost v
  (s1.stopCounting v).modVat v (fun x => { x with st := .faulted, sheetLive := false })

/-- A vat enters WIPING (Table 9.3, Table 16.6): work ends, the deckle is lowered, on-die state is cleared. (DEDUCED, log entry 35) -/
def State.toWiping (s : State) (v : Nat) : State :=
  let s1 := ((((s.cancelStart v).stopAll v).withdraw v (fun _ => true)).abortHost v).resetMirror v
  let s2 := (s1.stopCounting v).modVat v (fun x => { x with deckle := [], heldIncs := [] })
  let s3 := ((((s2.zeroCtrs v).clearRoutes v (fun _ => true)).clearTraces v).clearAdv v).batchClear v
  let s4 := (s3.closeConns (fun c => s.vatOfCore c == some v)).closeExports v
  let s5 := (s4.mouldCores v).foldl (fun s c => (s.dropEngines c).modCtl c (fun k => if k.run == .fenced then k else { run := .idle })) s4
  s5.modVat v (fun x => x.cleared .wiping)

/-- A stack command of a wiped vat is answered with its status. -/
def State.dropCmd (s : State) (k : StkCmd) : State :=
  match k.by_ with
  | .host r uid => s.hostFinish (some (r, uid)) k.status 0 0
  | .core _ _ _ => s.send (.commandAnswer k.by_ k.status)

/-- The wipe of a vat's vatman core: its scratchpad and stream program stores (Table 6.3). Its control processor, program and channel table, which
the management core gave it, stay. (DEDUCED, log entry 35) -/
def State.wipeVatman (s : State) (c : Nat) : State :=
  (List.range 4).foldl (fun s e => s.modSe c e (fun x => { x with store := [], storeUe := [] })) (s.setSpadKeep c {})

/-- The memory of a vat is wiped: its cores, its granules, and its version entries (R192, R396, R397). -/
def State.wipeMemory (s : State) (v : Nat) : State :=
  let s0 := (s.mem.cmds.filter (fun k => k.vat == v)).foldl State.dropCmd s
  let s1 := (s.mouldCores v).foldl (fun s c => s.wipeCore c) (match s.vatmanOf v with | some c => s0.wipeVatman c | none => s0)
  let own := fun (a : Nat) => s.stackOwner a == some v
  { s1 with
    mem := { s1.mem with
      stack := s1.mem.stack.filter (fun p => !(own p.1)), poison := s1.mem.poison.filter (fun w => !(own (16 * w))),
      ce := s1.mem.ce.filter (fun w => !(own (16 * w))), ue := s1.mem.ue.filter (fun w => !(own (16 * w))),
      vers := s1.mem.vers.filter (fun p => !(p.2.defined && p.2.vat == v)),
      cmds := s1.mem.cmds.filter (fun k => k.vat != v) } }

/-- The step of a reclaim becomes HELD: export windows close (R509). (DEDUCED, log entry 69) -/
def State.toHeld (s : State) (v : Nat) : State :=
  (s.modVat v (fun x => { x with reclaim := { x.reclaim with step := .held }, yielded := false })).closeExports v

/-- Are all stack engine commands of a vat complete but set-aside ones (R507)? -/
def State.cmdsDone (s : State) (v : Nat) : Bool := (s.mem.cmds.filter (fun k => k.vat == v && k.stage != .aside)).isEmpty

end Sys2Proof.Machine
end

