-- ==== Sys2Proof/Machine/MouldOps.lean ====
section
/-! DEFINITION. Mould images: headers, frames, the checks of Table 9.9, multicast trees and the writing of frames (R297-R311). -/

namespace Sys2Proof.Machine

/-! ## Trees (R304, R227) -/

/-- Port bits of out_mask (Table 7.8). -/
def pLocal : Nat := 1
def pEast : Nat := 2
def pWest : Nat := 4
def pNorth : Nat := 8
def pSouth : Nat := 16

/-- The output port a unicast packet for `dst` takes at router `r` (R227): first along X, then along Y. -/
def portToward (r dst : Nat) : Nat :=
  if routerX r < routerX dst then pEast
  else if routerX dst < routerX r then pWest
  else if routerY r < routerY dst then pSouth
  else if routerY dst < routerY r then pNorth
  else pLocal

/-- The neighbour of a router through a port. -/
def neighbour (r p : Nat) : Nat :=
  if p = pEast then routerAt (routerX r + 1) (routerY r)
  else if p = pWest then routerAt (routerX r - 1) (routerY r)
  else if p = pSouth then routerAt (routerX r) (routerY r + 1)
  else routerAt (routerX r) (routerY r - 1)

/-- The routers of a unicast path with the ports it leaves by; a path has at most 127 routers. -/
def pathOf : Nat → Nat → Nat → List (Nat × Nat)
  | 0, _, _ => []
  | n + 1, r, dst =>
    let p := portToward r dst
    if p = pLocal then [(r, p)] else (r, p) :: pathOf n (neighbour r p) dst

/-- out_mask by router of the tree from `src` to `dsts` (R304). -/
def treeOf (src : Nat) (dsts : List Nat) : Table Nat :=
  dsts.foldl (fun t d => (pathOf 127 src d).foldl (fun t p => t.upd 0 p.1 (· ||| p.2)) t) []

/-! ## Header (Tables 9.4, R299) -/

def mhMask (h : Nat) : Nat := fld h 64 64
def mhPartial (h : Nat) : Bool := bit h 128
def mhFrames (h : Nat) : Nat := fld h 160 32
def mhStart (h r : Nat) : Nat := fld h (192 + 16 * r) 16
def mhId (h : Nat) : Nat := fld h 320 64
def mhCrc (h : Nat) : Nat := fld h 384 32

/-- Record `i` of the load. -/
def LoadJob.rec_ (j : LoadJob) (i : Nat) : List Byte := j.recs.get [] i

/-- Header record 0 as a number. -/
def LoadJob.hdr (j : LoadJob) : Nat := leNat (j.rec_ 0)

/-- Directory entry of a cluster: first and count (R299). -/
def LoadJob.dir (j : LoadJob) (cl : Nat) : Nat × Nat :=
  let e := leNat (((j.rec_ (1 + cl / 32)).drop (8 * (cl % 32))).take 8)
  (fld e 0 32, fld e 32 32)

/-- Bytes with four of them, from `i`, taken as zero. -/
def blank4 (bs : List Byte) (i : Nat) : List Byte := bs.take i ++ [0, 0, 0, 0] ++ bs.drop (i + 4)

/-- The three records obey hcrc (Table 9.4). -/
def headerCrcOk (r0 r1 r2 : List Byte) : Bool :=
  r0.length == 256 && r1.length == 256 && r2.length == 256 && crc32c (blank4 r0 48 ++ r1 ++ r2) == mhCrc (leNat r0)

/-- Clusters of the load region, ascending. -/
def LoadJob.region (j : LoadJob) : List Nat := (List.range 64).filter (fun c => bit (mhMask j.hdr) c)

/-- The directory obeys R299. -/
def LoadJob.dirOk (j : LoadJob) : Bool :=
  let r := (List.range 64).foldl (fun (a : Nat × Bool) cl =>
    let d := j.dir cl
    if bit (mhMask j.hdr) cl then (a.1 + d.2, a.2 && d.1 == a.1) else (a.1, a.2 && d.1 == 0 && d.2 == 0)) (0, true)
  r.2 && r.1 == mhFrames j.hdr

/-- The first three checks of Table 9.9; a start offset for a clock region without a cluster of the vat counts as a reserved field. (DEDUCED, log entry 64) -/
def State.headerCheck (s : State) (v : Nat) (j : LoadJob) : Nat :=
  let h := j.hdr
  let mask := mhMask h
  let own := (s.planOf v).clusters.toNat
  if !(s.stackWithin v j.src (256 * (3 + mhFrames h))) then ePermission
  else if fld h 0 32 != 0x4D444C31 || fld h 32 16 != 1 || fld h 48 16 != 0 || fld h 129 31 != 0 || fld h 416 1632 != 0 || !j.dirOk
      || (List.range 8).any (fun r => mhStart h r != 0 && !((s.clustersOf v).any (fun cl => regionOf cl == r))) then eFormat
  else if mask &&& own != mask || (if mhPartial h then mask == 0 else mask != own) then eFrameRegion
  else eOk

/-! ## Frames (Tables 9.5-9.7) -/

def fKind (r : List Byte) : Nat := fld (leNat (r.take 16)) 0 4
def fCl (r : List Byte) : Nat := fld (leNat (r.take 16)) 4 6
def fCore (r : List Byte) : Nat := fld (leNat (r.take 16)) 10 6
def fOff (r : List Byte) : Nat := fld (leNat (r.take 16)) 16 20
def fLen (r : List Byte) : Nat := fld (leNat (r.take 16)) 36 8
def fRes (r : List Byte) : Nat := fld (leNat (r.take 16)) 44 20
def fCrc (r : List Byte) : Nat := fld (leNat (r.take 16)) 64 32
def fIndex (r : List Byte) : Nat := fld (leNat (r.take 16)) 96 32
def fPay (r : List Byte) : List Byte := (r.drop 16).take (fLen r)

/-- A frame record obeys fcrc. -/
def frameCrcOk (r : List Byte) : Bool := r.length == 256 && crc32c (blank4 r 8) == fCrc r

/-- Destinations a ROUTE payload names (R304): pairs of cluster and logical core. (DEDUCED, log entry 64) -/
def routeDests (p : List Byte) : List (Nat × Nat) :=
  let x := leNat p
  (List.range (fld x 8 4 + 1)).map (fun k => (fld x (32 + 16 * k) 6, fld x (38 + 16 * k) 6))

def routeIdx (p : List Byte) : Nat := fld (leNat p) 0 6

/-- Reserved fields of a payload, by kind. -/
def payResOk (k : Nat) (p : List Byte) : Bool :=
  let x := leNat p
  if k = 5 then fld x 13 3 == 0 && fld x 29 3 == 0 && fld x 33 95 == 0
  else if k = 6 then fld x 6 2 == 0 && fld x 12 20 == 0 && (List.range (fld x 8 4 + 1)).all (fun i => fld x (44 + 16 * i) 4 == 0)
  else if k = 7 then (List.range (p.length / 4)).all (fun i => fld x (32 * i + 17) 14 == 0)
  else true

/-- Offset and length bounds of Table 9.6. -/
def frameBounds (r : List Byte) : Bool :=
  let k := fKind r
  let o := fOff r
  let n := fLen r
  let mult := fun (m top : Nat) => o % m == 0 && n % m == 0 && decide (o + n ≤ top)
  1 ≤ n && n ≤ 240
  && (if k = 1 then mult 1 0x80000 else if k = 2 then mult 4 0x8000 else if k = 3 then mult 8 0x400 else if k = 4 then mult 32 0x800
      else if k = 5 then o == 0 && n == 16 else if k = 6 then o == 0 && n == 4 + 2 * (fld (leNat (fPay r)) 8 4 + 1)
      else if k = 7 then mult 4 0x800 else mult 4 0x400)

/-- Checks 4-9 of Table 9.9 on frame `i`. (DEDUCED, log entry 64) -/
def State.frameCheck (s : State) (v : Nat) (j : LoadJob) (i : Nat) (r : List Byte) : Nat :=
  let k := fKind r
  let cl := fCl r
  let l := fCore r
  let h := j.hdr
  let inMask := bit (mhMask h) cl
  let d := j.dir cl
  let perCore := k ≤ 6
  let vman := s.vatmanOf v
  if fIndex r != i || k == 0 || 8 < k || fRes r != 0 || (!perCore && l != 0) || ((r.drop (16 + fLen r)).any (· != 0)) || !(payResOk k (fPay r))
      || (inMask && !(d.1 ≤ i && i < d.1 + d.2)) || (inMask && k == 7 && (j.region.head?).getD 0 != cl) then eFormat
  else if !inMask || (perCore && (s.physOf cl l).isSome && s.physOf cl l == vman) || (k == 7 && mhPartial h) then eFrameRegion
  else if perCore && l == 63 then eFormat
  else if perCore && (s.physOf cl l).isNone then eFenced
  else if !(frameBounds r) then eRange
  else if k == 5 && bit (leNat (fPay r)) 32 && (s.planOf v).vatmanCluster.toNat == cl then eFormat
  else eOk

/-! ## Checks across frames (R254, R268, R304, R464) -/

/-- Every frame with its index. -/
def LoadJob.frames (j : LoadJob) : List (List Byte) := (List.range (mhFrames j.hdr)).map (fun i => j.rec_ (3 + i))

/-- The channel descriptors a mould holds, as (core, endpoint, descriptor). -/
def State.mouldChans (s : State) (fs : List (List Byte)) : List (Nat × Nat × Nat) :=
  let m : Memory := fs.foldl (fun m r =>
    if fKind r = 4 then m.writeBytes (2048 * (s.physOf (fCl r) (fCore r)).getD 0 + fOff r) (fPay r) else m) []
  let keys : NSet := m.foldl (fun (k : NSet) p => k.add (p.1 / 32)) []
  keys.map (fun i => (i / 64, i % 64, leNat (m.readBytes (32 * i) 32)))

/-- The peer table after the mould. -/
def State.mouldPeers (s : State) (v : Nat) (full : Bool) (fs : List (List Byte)) : Table Nat :=
  if !full then (s.vat v).peers
  else
    let m : Memory := fs.foldl (fun m r => if fKind r = 7 then m.writeBytes (fOff r) (fPay r) else m) []
    (List.range 512).filterMap (fun i =>
      let x := leNat (m.readBytes (4 * i) 4)
      if x = 0 then none else some (i, x))

/-- Do peers and credits of one descriptor agree with the rest of the mould (R254)? `at_` answers the descriptor that the mould gives an
endpoint, and `inside` whether a core lies in the mould: there an endpoint without a descriptor names no peer. (DEDUCED, log entry 137) -/
def peersOk (s : State) (cs : List (Nat × Nat × Nat)) (at_ : Nat → Nat → Option Nat) (inside : Nat → Bool) (c e d : Nat) : Bool :=
  let out := fun (cl l : Nat) => match s.physOf cl l with | some t => !inside t | none => true
  let cl := clusterOf c
  let l := (s.logOf c).getD 64
  if cdRole d = 1 && cdPath d = 0 then
    match (s.physOf (cdDstCl d) (cdDstCore d)).bind (fun t => at_ t (cdDstEp d)) with
    | none => out (cdDstCl d) (cdDstCore d)
    | some b => cdRole b == 2 && cdPath b == 0 && cdPeerCl b == cl && cdPeerCore b == l && cdPeerEp b == e
        && cdCredits d == cdSlots b + cdSpillN b && decide (cdDstStride d ≤ cdStride b)
  else if cdRole d = 1 && cdPath d = 1 then
    let rs := (cs.map (·.2.2)).filter (fun b => cdRole b == 2 && cdPath b == 1 && cdPeerCl b == cl && cdPeerCore b == l && cdPeerEp b == e)
    rs.all (fun b => cdCredits d == cdSlots b + cdSpillN b && decide (cdDstStride d ≤ cdStride b)
      && rs.all (fun b' => cdSlots b == cdSlots b' && cdStride b == cdStride b' && cdSpillN b == cdSpillN b'))
  else if cdRole d = 2 && cdPath d ≤ 1 then
    match (s.physOf (cdPeerCl d) (cdPeerCore d)).bind (fun t => at_ t (cdPeerEp d)) with
    | none => out (cdPeerCl d) (cdPeerCore d)
    | some b => cdRole b == 1 && cdPath b == cdPath d
        && (cdPath d == 1 && decide (cdMcIndex d < cdMcCount b) || cdPath d == 0 && cdDstCl b == cl && cdDstCore b == l && cdDstEp b == e)
  else true

/-- No two entries of a list are equal. -/
def nodup (l : List Nat) : Bool :=
  match l with
  | [] => true
  | a :: t => !(t.contains a) && nodup t

/-- No two ranges of a list share a byte. -/
def apart (l : List (Nat × Nat)) : Bool :=
  match l with
  | [] => true
  | a :: t => t.all (fun b => !(meets a.1 a.2 b.1 b.2)) && apart t

/-- Channel descriptors under R254 and R268. (DEDUCED, log entry 137) -/
def State.chansOk (s : State) (v : Nat) (j : LoadJob) (cs : List (Nat × Nat × Nat)) : Bool :=
  let peers := s.mouldPeers v (!(mhPartial j.hdr)) j.frames
  let vman := s.vatmanOf v
  let at_ := fun (t e : Nat) => (cs.find? (fun p => p.1 == t && p.2.1 == e && cdRole p.2.2 != 0)).map (·.2.2)
  let inside := fun (t : Nat) => bit (mhMask j.hdr) (clusterOf t) && some t != vman
  let others := match vman with | some c => (s.epsOf c).flatMap (fun e => (cdCtrs (s.ep c e).desc).eraseDups) | none => []
  cs.all (fun p => chanDescOk p.1 p.2.2
    && (!(cdRole p.2.2 == 2 && cdSpillEn p.2.2) || s.stackWithin v (cdSpillBase p.2.2) (cdSpillN p.2.2 * cdSpillSlot p.2.2))
    && apart ((cs.filter (fun q => q.1 == p.1)).flatMap (fun q => cdRanges q.2.2))
    && peersOk s cs at_ inside p.1 p.2.1 p.2.2
    && (cdPath p.2.2 != 2 || (cdRole p.2.2 != 1 && cdRole p.2.2 != 2)
        || peers.any (fun q => q.2 == (if cdRole p.2.2 == 1 then cdDstNode p.2.2 else cdPeerNode p.2.2) + 2 ^ 31)))
  && nodup (cs.flatMap (fun p => (cdCtrs p.2.2).eraseDups) ++ others)

/-- The tree of a ROUTE payload with its source, when every core resolves. -/
def State.routeTree (s : State) (cl l : Nat) (p : List Byte) : Option (Nat × List Nat × Table Nat) :=
  match s.physOf cl l with
  | none => none
  | some c =>
    let ds := (routeDests p).map (fun d => s.physOf d.1 d.2)
    if ds.all Option.isSome then
      let d := ds.filterMap id
      some (c, d, treeOf c d)
    else none

/-- No two trees of one route index share a router. -/
def treesApart (ts : List (Nat × Table Nat)) : Bool :=
  match ts with
  | [] => true
  | a :: t => t.all (fun b => b.1 != a.1 || b.2.all (fun p => !(a.2.any (fun q => q.1 == p.1)))) && treesApart t

/-- Trees under R304. -/
def State.treesOk (s : State) (v : Nat) (fs : List (List Byte)) : Bool :=
  let rs := fs.filter (fun r => fKind r == 6)
  rs.all (fun r => match s.routeTree (fCl r) (fCore r) (fPay r) with
    | some (c, ds, t) => !(ds.contains c) && t.all (fun p => s.owns v (clusterOf p.1))
    | none => false)
  && treesApart (rs.filterMap (fun r => (s.routeTree (fCl r) (fCore r) (fPay r)).map (fun x => (routeIdx (fPay r), x.2.2))))

/-- The checks across frames: E_FORMAT, then the rights of R464. -/
def State.crossCheck (s : State) (v : Nat) (j : LoadJob) : Nat :=
  let cs := s.mouldChans j.frames
  if !(s.chansOk v j cs) || !(s.treesOk v j.frames) then eFormat
  else if cs.any (fun p => cdPath p.2.2 == 2 && (cdRole p.2.2 == 1 && !(s.mayName v (cdDstNode p.2.2) true)
      || cdRole p.2.2 == 2 && !(s.mayName v (cdPeerNode p.2.2) true))) then ePermission
  else eOk

/-! ## Writing (R305, R310, R311) -/

/-- Write a tree into the routers' tables (R304). -/
def State.putTree (s : State) (v idx : Nat) (t : Table Nat) : State :=
  t.foldl (fun s p => s.setRoute p.1 idx { valid := true, vat := v, outMask := BitVec.ofNat 5 p.2 }) s

/-- Cores of clusters other than the vatman. -/
def State.coresIn (s : State) (v : Nat) (cls : List Nat) : List Nat := (s.mouldCores v).filter (fun c => cls.contains (clusterOf c))

/-- The clearing that begins WRITE (R310); the vatman's core is left alone (R293, DEDUCED). (DEDUCED, log entry 35) -/
def State.clearRegion (s : State) (v : Nat) (j : LoadJob) : State :=
  let cls := j.region
  let cs := s.coresIn v cls
  let s1 := cs.foldl (fun s c =>
    let s1 := ((s.modCtl c (fun k => { k with entry := 0, evecInit := 0, priv := false })).setImem c []).clearImemUe c
    let s2 := (List.range 4).foldl (fun s e => s.modSe c e (fun x => { x with store := [], storeUe := [] })) s1
    { s2 with cores := { s2.cores with eps := s2.cores.eps.delRange (64 * c) 64 } }) s
  (s1.clearRoutes v (fun r => cls.contains (clusterOf r))).modVat v (fun x =>
    { x with enlisted := x.enlisted.filter (fun c => !(cs.contains c)),
             routes := x.routes.filter (fun p => !(cls.contains p.1)),
             peers := if mhPartial j.hdr then x.peers else [] })

/-- Words of `n` bytes of a payload. -/
def payWords (p : List Byte) (n : Nat) : List Nat := (List.range (p.length / n)).map (fun i => leNat ((p.drop (n * i)).take n))

/-- Write one frame; COUNTER frames wait for FINISH (R310, R311). -/
def State.putFrame (s : State) (v : Nat) (r : List Byte) (bad : NSet) : State :=
  let k := fKind r
  let c := (s.physOf (fCl r) (fCore r)).getD 0
  let o := fOff r
  let p := fPay r
  if k = 1 then s.spadPut c o p (fun i => bad.has (16 + i))
  else if k = 2 then s.imemWrite c o p
  else if k = 3 then
    ((payWords p 8).mapIdx (fun i w => (o / 8 + i, w))).foldl (fun s q => s.modSe c (q.1 / 32) (fun x => { x with store := x.store.put (q.1 % 32) q.2, storeUe := NSet.rem x.storeUe (q.1 % 32) })) s
  else if k = 4 then ((payWords p 32).mapIdx (fun i w => (o / 32 + i, w))).foldl (fun s q => s.setEp c q.1 ({ desc := q.2 } : Ep).init) s
  else if k = 5 then
    let x := leNat p
    (s.modCtl c (fun k => { k with entry := BitVec.ofNat 64 (4 * fld x 0 13), evecInit := BitVec.ofNat 64 (4 * fld x 16 13), priv := bit x 32 })).modVat v
      (fun y => { y with enlisted := y.enlisted.add c })
  else if k = 6 then
    match s.routeTree (fCl r) (fCore r) p with
    | some (_, _, t) => (s.putTree v (routeIdx p) t).modVat v (fun y => { y with routes := y.routes ++ [(fCl r, fCore r, p)] })
    | none => s
  else if k = 7 then
    s.modVat v (fun y => { y with peers := ((payWords p 4).mapIdx (fun i w => (o / 4 + i, w))).foldl (fun t q =>
      if q.2 = 0 then t.del q.1 else t.put q.1 q.2) y.peers })
  else s

/-- Set the counters of COUNTER frames in index order (R311). -/
def State.putCounters (s : State) (fs : List (List Byte)) : State :=
  (fs.filter (fun r => fKind r == 8)).foldl (fun s r =>
    ((payWords (fPay r) 4).mapIdx (fun i w => (256 * fCl r + fOff r / 4 + i, w))).foldl (fun s q => s.putCtr q.1 q.2) s) s

/-! ## Ends of a load (R308, R309, Table 9.3) -/

/-- A load or scan-in ends with a status: VAT_LOAD_ERR, VAT_CTL.status, the vat state, the host command and vat event 2. A forced
stop that waits is applied (R295). -/
def State.loadEnd (s : State) (v status index : Nat) (st : VatSt) : State :=
  let x := s.vat v
  let h := x.job_.bind (·.host)
  let err : LoadErr := if status = eOk then x.loadErr else { valid := true, status := status, index := index }
  let s1 := s.modVat v (fun y => { y with st := st, ld := .idle, job_ := none, ctlStatus := status, loadErr := err, stopWaits := false })
  let s2 := (s1.hostFinish h status err.index x.progAttempts).fireVat v 2
  let s3 := if status = eOk then s2 else s2.log (srcVat v) evRefused status (some v) 0 index
  let s4 := if st == .faulted then s3.toFaulted v else s3
  if x.stopWaits then
    let r := s4.forceStopOr v
    if r.2 then r.1
    else
      let s5 := (r.1.log (srcVat v) evRefused eState (some v) 0 0).hostFinish (r.1.vat v).stopHost eState 0 0
      (if (s5.vat v).reclaim.step == .stopping && (st == .free || st == .scanned) then s5.toHeld v else s5).modVat v (fun y => { y with stopHost := none })
  else s4

end Sys2Proof.Machine
end

