-- ==== Sys2Proof/Machine/ScanOps.lean ====
section
/-! DEFINITION. Scan images: stillness, the image of a stopped vat, and its restoration (R319-R325). -/

namespace Sys2Proof.Machine

/-- `n` bytes the spec leaves undefined. (DESIGN CHOICE, log entry 11) -/
def State.drawBytes (s : State) (n : Nat) : List Byte × State :=
  ((List.range n).map (fun i => (Config.freeWord (s.free + i)).setWidth 8), { s with free := s.free + n })

/-- Cores scanned of a cluster: every logical core but the vatman. -/
def State.scanCores (s : State) (v cl : Nat) : List Nat := s.coresIn v [cl]

/-- Every core and endpoint is still (R319 step 3): no enlisted core runs, no read is on its way, store buffers are empty or have
had their time, and the engines have completed and answered every stack engine command (R395). -/
def State.still (s : State) (v : Nat) : Bool :=
  let x := s.vat v
  x.enlisted.all (fun c => (s.ctl c).run != .running && (s.ctl c).ldr.isNone && (List.range 4).all (fun e =>
    (s.se c e).reads.all (fun r => (s.se c e).inHeld r.id) && (x.drained || (s.se c e).writes.all (fun w => (s.se c e).inHeld w.id)))) && !x.bt.busy
    && s.mem.cmds.all (fun k => k.vat != v)

/-- Bytes from VAT_SCAN_BASE to the end of the last core slot a vat can have (Table 9.10). -/
def State.scanSize (s : State) (v : Nat) : Nat := 0x400000 + 64 * (s.clustersOf v).length * 0x100000

/-- The number of a counter of the vat by ordinal and index. -/
def State.ctrOrd (s : State) (v a : Nat) : Nat := 256 * ((s.clustersOf v).idxOf (a / 256)) + a % 256

/-- The number of a core by ordinal and logical number. -/
def State.coreOrd (s : State) (v c : Nat) : Nat := 64 * ((s.clustersOf v).idxOf (clusterOf c)) + (s.logOf c).getD 0

/-- The core of a number, under the present plan and fences. -/
def State.ordCore (s : State) (v n : Nat) : Nat := (s.physOf ((s.clustersOf v).getD (n / 64) 0) (n % 64)).getD 0

/-- The counter of a number, under the present plan. -/
def State.ordCtr (s : State) (v n : Nat) : Nat := 256 * ((s.clustersOf v).getD (n / 256) 0) + n % 256

/-- Global counters a vat owns. -/
def State.globalsOf (s : State) (v : Nat) : List Nat := (List.range 64).filter (fun i => (s.gsync i).en && (s.gsync i).owner == v)

/-- One core slot (R322). -/
def State.coreSnap (s : State) (c : Nat) : CoreSnap :=
  { ctl := s.ctl c, queues := (List.range 7).map (fun q => (q, s.queue c q)), eps := (List.range 64).map (fun e => (e, s.ep c e)), chn := s.chn c,
    ses := (List.range 4).map (fun e => (e, s.se c e)), mat := s.mat c, vec := s.vec c, imem := s.imem c, spad := s.spad c }

/-- Every value of the image (Table 9.10). (DESIGN CHOICE, log entry 66) -/
def State.scanSnap (s : State) (v : Nat) (hdr : List Byte) : ScanSnap :=
  let cs := s.mouldCores v
  { hdr := hdr, slots := cs.map (fun c => (s.coreOrd v c, s.coreSnap c)),
    ctrs := (s.clustersOf v).flatMap (fun cl => (List.range 256).map (fun i => (s.ctrOrd v (256 * cl + i), s.ctr (256 * cl + i)))),
    held := (s.vat v).heldIncs.map (fun p => (s.ctrOrd v p.1, p.2)),
    watches := (s.net.watches.filter (fun w => cs.contains w.core)).map (fun w => { w with core := s.coreOrd v w.core, ctr := s.ctrOrd v w.ctr }),
    vat := s.vat v, globals := (s.globalsOf v).map (fun i => (i, s.ctr (0x4000 + i))),
    enlisted := (s.vat v).enlisted.map (s.coreOrd v),
    vers := s.mem.vers.filter (fun p => p.2.defined && p.2.vat == v),
    tops := ((s.clustersOf v).zipIdx.flatMap (fun p => (List.range 63).map (fun l => (64 * p.2 + l, s.couchTop (64 * p.1 + l))))),
    advs := (List.range (s.vat v).advCount).map (fun i => (i, s.adv ((s.vat v).advFirst + i))) }

/-- The reserved bytes of a verdict that keep a slot's frozen bank, adopted index and streak at a forced stop, and what such bytes say at a scan-in:
R417 gives no layout. (DESIGN CHOICE, log entry 153) -/
opaque Config.advKeep : Table Nat → Option Nat → Nat → BitVec 48
opaque Config.advRead : BitVec 48 → Table Nat × Option Nat × Nat

/-- At a forced stop the advisor writes the live banks into the dump array; the rest goes to the reserved bytes of the verdicts (R417). (DESIGN CHOICE, log entry 153) -/
def State.putAdv (s : State) (v : Nat) : State :=
  let x := s.vat v
  (List.range x.advCount).foldl (fun s i =>
    let d := x.advBase + 0x30000 + 256 * i
    let r := x.advBase + 0x20000 + 16 * i + 10
    let y := s.adv (x.advFirst + i)
    let bank := (List.range 64).flatMap (fun b => leBytes 4 (y.live.get 0 b))
    let s1 := if s.stackWithin v d 256 then s.stackPut d bank (fun _ => false) else s
    if s.stackWithin v r 6 then s1.stackPut r (leBytes 6 (Config.advKeep y.frozen y.adopted y.streak).toNat) (fun _ => false) else s1) s

/-- Scan-in reads the advisor's banks back from the area at VAT_ADV_BASE (R417): reserved bytes that stand as this device wrote them say what it
kept, others what they say. (DESIGN CHOICE, log entry 153) -/
def State.getAdv (s : State) (v : Nat) (t : Table AdvSlot) : State :=
  let x := s.vat v
  (List.range x.advCount).foldl (fun s i =>
    let d := x.advBase + 0x30000 + 256 * i
    let y : AdvSlot := t.get {} i
    let live := ((List.range 64).map (fun b => (b, s.stackNat (d + 4 * b) 4))).filter (fun p => p.2 != 0)
    let w := BitVec.ofNat 48 (s.stackNat (x.advBase + 0x20000 + 16 * i + 10) 6)
    let k := if w = Config.advKeep y.frozen y.adopted y.streak then (y.frozen, y.adopted, y.streak) else Config.advRead w
    s.setAdv (x.advFirst + i) { y with live := live, frozen := k.1, adopted := k.2.1, streak := k.2.2 }) s

/-- The image header (R321), with the CRC-32Cs of the vat record and of the cluster records. -/
def State.scanHeader (s : State) (v crcVat crcCl : Nat) : List Byte :=
  let x := s.vat v
  let cls := s.clustersOf v
  let counts := (cls.mapIdx (fun o cl => (s.scanCores v cl).length * 2 ^ (264 + 8 * o))).foldl (· + ·) 0
  let body := 0x4D445343 + 1 * 2 ^ 32 + x.jobId * 2 ^ 48 + x.mouldId.toNat * 2 ^ 64 + x.stopGtc.toNat * 2 ^ 128 + x.stopCycle.toNat * 2 ^ 192
    + cls.length * 2 ^ 256 + counts + crcVat * 2 ^ 776 + crcCl * 2 ^ 808 + 2 ^ 840
  leBytes 256 (body + crc32c (leBytes 256 body) * 2 ^ 2016)

/-! What the spec names but does not lay out: sections 1-5, 7 and 8 of a core slot, the vat record, the held increments of a cluster record, and
what the bytes of an image that another device wrote hold. (DESIGN CHOICE, log entry 66) -/

opaque Config.scanSection : Nat → CoreSnap → List Byte
opaque Config.scanVat : ScanSnap → List Byte
opaque Config.scanHeld : List (Nat × Nat) → List Byte
opaque Config.scanImage : (Nat → Byte) → Option ScanSnap

/-- Bits as bytes, the first in bit 0. -/
def bitBytes (n : Nat) (f : Nat → Bool) : List Byte :=
  (List.range (n / 8)).map (fun i => (List.range 8).foldl (fun b j => if f (8 * i + j) then b ||| (1#8 <<< j) else b) 0#8)

/-- `n` bytes, zeros after those given. -/
def padTo (n : Nat) (bs : List Byte) : List Byte := bs.take n ++ List.replicate (n - bs.length) 0#8

/-- Sections 1-11 of a core slot: number, offset, and the bytes written (Table 9.11). -/
def slotSections (x : CoreSnap) : List (Nat × Nat × List Byte) :=
  let free := fun (i most : Nat) => (Config.scanSection i x).take most
  [(1, 0x100, free 1 3840), (2, 0x1000, free 2 5120), (3, 0x3000, free 3 3072), (4, 0x4000, free 4 16640), (5, 0x9000, free 5 16640),
   (6, 0xE000, bitBytes 131072 (fun i => x.spad.poison.has i) ++ bitBytes 16384 (fun i => (x.vec.tiles.get {} i).bad)),
   (7, 0x13000, free 7 49152), (8, 0x1F000, free 8 32768),
   (9, 0x28000, (List.range 16384).flatMap (fun i => leBytes 4 (x.vec.tiles.get {} i).bits)),
   (10, 0x38000, x.imem.readBytes 0 0x8000), (11, 0x80000, x.spad.mem.readBytes 0 spadSize)]

/-- The directory, section 0: one 8 B entry for each section, its own the first and zero (R322). -/
def slotDir (l : List (Nat × Nat × List Byte)) : List Byte :=
  padTo 256 (leBytes 8 0 ++ l.flatMap (fun p => leBytes 8 (p.2.2.length + crc32c p.2.2 * 2 ^ 32)))

/-- Write one core slot at `a`: what no section writes is undefined (R322). -/
def State.putSlot (s : State) (a c : Nat) : State :=
  let u1 := s.drawBytes 0x38000
  let u2 := u1.2.drawBytes 0x40000
  let w := fun (s : State) (o : Nat) (bs : List Byte) => s.stackPut (a + o) bs (fun _ => false)
  let l := slotSections (s.coreSnap c)
  ((0, 0, slotDir l) :: l).foldl (fun s p => w s p.2.1 p.2.2) (w (w u2.2 0 u1.1) 0x40000 u2.1)

/-- The bytes of a cluster record: the 256 counters, then the held increments (R320). -/
def State.clusterRec (s : State) (v cl : Nat) : List Byte :=
  padTo 0x8000 ((List.range 256).flatMap (fun i => leBytes 4 (s.ctr (256 * cl + i))) ++ Config.scanHeld ((s.vat v).heldIncs.filter (fun p => p.1 / 256 == cl)))

/-- Every write of the scan-out, in the order of R323, and the image's values. (DESIGN CHOICE, log entry 66) -/
def State.writeScan (s : State) (v : Nat) : State :=
  let base := (s.vat v).scanBase
  let s1 := (s.mouldCores v).foldl (fun s c => s.putSlot (base + 0x400000 + s.coreOrd v c * 0x100000) c) (s.putAdv v)
  let recs := (s.clustersOf v).map (fun cl => s.clusterRec v cl)
  let s2 := (recs.mapIdx (fun o r => (o, r))).foldl (fun s p => s.stackPut (base + 0x20000 + p.1 * 0x8000) p.2 (fun _ => false)) s1
  let rec_ := padTo 0x10000 (Config.scanVat (s.scanSnap v []))
  let s3 := s2.stackPut (base + 0x10000) rec_ (fun _ => false)
  let h := s.scanHeader v (crc32c rec_) (crc32c recs.flatten)
  let s4 := s3.stackPut base h (fun _ => false)
  { s4 with mem := { s4.mem with scans := s4.mem.scans ++ [s.scanSnap v h] } }

/-! ## Scan-in (R324, R325) -/

/-- Header fields of an image at an address. -/
def State.scanHdr (s : State) (base : Nat) : Nat := s.stackNat base 256

/-- Ordinals whose cluster offers too few mould cores for the image. (DESIGN CHOICE, log entry 67) -/
def State.scanFits (s : State) (v h : Nat) : Bool :=
  ((s.clustersOf v).mapIdx (fun o cl => (o, cl))).all (fun p => fld h (264 + 8 * p.1) 8 ≤ (s.scanCores v p.2).length)

/-- The checks of R324; an image outside the vat's regions comes first, as for a load (Table 9.9). (DESIGN CHOICE, log entry 66) -/
def State.scanCheck (s : State) (v base : Nat) : Nat :=
  let h := s.scanHdr base
  let bs := s.stackRead base 256
  if !(s.stackWithin v base (s.scanSize v)) then ePermission
  else if fld h 0 32 != 0x4D445343 || fld h 32 16 != 1 || fld h 841 1175 != 0 || !(bit h 840) || crc32c (blank4 bs 252) != fld h 2016 32 then eFormat
  else if fld h 48 16 != (s.vat v).jobId then ePermission
  else if fld h 256 8 != (s.clustersOf v).length then eFormat
  else if !(s.scanFits v h) then eFenced
  else eOk

/-- Do the records and sections of an image pass their CRC-32Cs (R324)? -/
def State.scanCrcs (s : State) (v base : Nat) : Bool :=
  let h := s.scanHdr base
  crc32c (s.stackRead (base + 0x10000) 0x10000) == fld h 776 32
  && crc32c (s.stackRead (base + 0x20000) (0x8000 * (s.clustersOf v).length)) == fld h 808 32
  && ((s.clustersOf v).mapIdx (fun o cl => (s.scanCores v cl).take (fld h (264 + 8 * o) 8))).flatten.all (fun c =>
    let a := base + 0x400000 + s.coreOrd v c * 0x100000
    (slotSections {}).all (fun p =>
      let d := s.stackNat (a + 8 * p.1) 8
      crc32c (s.stackRead (a + p.2.1) (min 0x80000 (fld d 0 32))) == fld d 32 32))

/-- What the image at an address holds: this device's own, when its bytes stand there as written; another's, what its bytes say. (DESIGN CHOICE, log entry 66) -/
def State.scanFind (s : State) (base : Nat) : Option ScanSnap :=
  match s.mem.scans.reverse.find? (fun x => x.hdr == s.stackRead base 256) with
  | some x =>
    if x.slots.all (fun p =>
      let a := base + 0x400000 + p.1 * 0x100000
      s.stackRead (a + 0x38000) 0x8000 == p.2.imem.readBytes 0 0x8000 && s.stackRead (a + 0x80000) spadSize == p.2.spad.mem.readBytes 0 spadSize)
    then some x else Config.scanImage (fun i => s.mem.stack.read (base + i))
  | none => Config.scanImage (fun i => s.mem.stack.read (base + i))

/-- Sections of an image that are written at a scan-in: 11 of each core slot (Table 9.15). -/
def ScanSnap.sections (x : ScanSnap) : Nat := 11 * x.slots.length

/-- An endpoint after scan-in: path 3 endpoints hold no connection (R325); the counts of waiting cycles are no scan state and start again (R278). -/
def Ep.afterScan (x : Ep) : Ep :=
  { x with st := if cdPath x.desc = 3 then epStart x.desc else x.st, conn := if cdPath x.desc = 3 then 0 else x.conn,
           dlSince := none, dlTold := false, stallSince := none }

/-- Restore one core slot; deliveries due before cycle `due` had passed their deadlines (R218). -/
def State.restoreCore (s : State) (c : Nat) (x : CoreSnap) (due : Nat) : State :=
  let s1 := s.setCtl c x.ctl
  let s2 := (List.range 7).foldl (fun s q => s.setQueue c q (x.queues.get {} q)) s1
  let s3 := (List.range 64).foldl (fun s e => s.setEp c e (x.eps.get {} e).afterScan) s2
  let s4 := (List.range 4).foldl (fun s e => s.setSe c e { (x.ses.get {} e : Se) with exempt := due }) s3
  (((((s4.setChnKeep c { x.chn with lastCycle := s.clk.fast.toNat }).setMat c x.mat).setVec c x.vec).setImem c x.imem).clearImemUe c).setSpadKeep c x.spad

/-- A route of a scan image is written again where its tree stays inside the vat. -/
def State.restoreRoute (v : Nat) (s : State) (r : Nat × Nat × List Byte) : State :=
  match s.routeTree r.1 r.2.1 r.2.2 with
  | some (_, _, t) => if t.all (fun p => s.owns v (clusterOf p.1)) then s.putTree v (routeIdx r.2.2) t else s
  | none => s

/-- Restore an image into a vat: cores, counters, held increments, watches, the vat record's registers, trees and version entries
(R320, R324, R351, R395). (DESIGN CHOICE, log entry 66) -/
def State.restoreScan (s : State) (v : Nat) (x : ScanSnap) : State :=
  let y := x.vat
  let s1 := x.slots.foldl (fun s p => s.restoreCore (s.ordCore v p.1) p.2 y.stopCycle.toNat) s
  let s2 := x.ctrs.foldl (fun s p => s.setCtr (s.ordCtr v p.1) p.2) s1
  let s3 := (x.globals.filter (fun p => (s.gsync p.1).en && (s.gsync p.1).owner == v)).foldl (fun s p => s.setCtr (0x4000 + p.1) p.2) s2
  let ws := x.watches.map (fun w => { w with core := s.ordCore v w.core, ctr := s.ordCtr v w.ctr })
  let s4 : State := { s3 with net := { s3.net with watches := s3.net.watches ++ ws } }
  let s5 := x.vers.foldl (fun s p =>
    if (s.ver p.1).defined then s else s.setVer p.1 { (p.2 : VerEnt) with vat := v }) s4
  let s5b := x.tops.foldl (fun s p => s.setCouchTop (64 * ((s.clustersOf v).getD (p.1 / 64) 0) + p.1 % 64) p.2) s5
  let s6 := (s5b.getAdv v x.advs).modVat v (fun z =>
    { z with mouldId := y.mouldId, startOff := y.startOff, enlisted := x.enlisted.foldl (fun t n => t.add (s.ordCore v n)) [],
             routes := y.routes, peers := y.peers, heldIncs := x.held.map (fun p => (s.ordCtr v p.1, p.2)) ++ z.heldIncs,
             srSeed := y.srSeed, srSeedLatch := y.srSeedLatch, srSheet := y.srSheet, firstSheet := y.firstSheet, ackWin := y.ackWin,
             ackWinLatch := y.ackWinLatch, openTo := y.openTo, dlLog2 := y.dlLog2, dlLog2Latch := y.dlLog2Latch, xsyncDelay := y.xsyncDelay,
             drainTo := y.drainTo, loadSrc := y.loadSrc, stopGtc := y.stopGtc, stopCycle := y.stopCycle, sheetLive := y.sheetLive,
             gateIdleLatch := y.gateIdleLatch,
             det := { z.det with detOn := y.det.detOn, count := y.det.count, mask := y.det.mask, firstCause := y.det.firstCause,
                                 firstCycle := y.det.firstCycle, gtcStart := y.det.gtcStart, outCrc := y.det.outCrc, launched := y.det.launched,
                                 stretched := y.det.stretched, locked := y.det.locked } })
  y.routes.foldl (State.restoreRoute v) s6

/-- A SEND that a resumed core finds on a CLOSED endpoint halts its queue (R325). -/
def State.resumeChn (s : State) (c : Nat) : State :=
  match (s.chn c).entry with
  | some m =>
    let x := s.ep c (sdEp m.toNat)
    if mMop m == 1 && cdPath x.desc == 3 && x.st == .closed then s.chnHalt c eState else s.chnStall c
  | none => s

end Sys2Proof.Machine
end

