-- ==== Sys2Proof/Machine/Vats.lean ====
section
/-! DEFINITION. The commands of a vat's life: starts, stops, scans, plans, kills and resets (R293-R325, Table 9.3). -/

namespace Sys2Proof.Machine

/-- May a sheet of this vat start (R314, R339, R482, R509, R536)? Not while a close of its advisor is busy, which never falls inside a sheet (R416).
(DESIGN CHOICE, log entry 151) -/
def Vat.startable (x : Vat) : Bool :=
  x.st == .ready && x.deckle.isEmpty && x.det.pendStart.isNone && !x.heldOrLater && !x.tw.standby && !x.tw.busy && x.spadCopies == 0 && !x.advBusy

/-- A former active device in BROKEN refuses starts of every mirrored vat (R492); at CRITICAL nothing starts (R575). -/
def State.brokenHold (s : State) (v : Nat) : Bool :=
  s.critical || (s.span.tw.st == .broken && !s.span.tw.role && (s.vat v).tw.mode != 0)

/-- The next tick of the launch grid after tick `a` (R339). -/
def nextGrid (a : Nat) : Nat := (a / 20 + 1) * 20

/-- A start accepted now: at once, at the next grid tick, or at its armed launch (R339). -/
def State.acceptStart (s : State) (v : Nat) (h : Option (Nat × Nat)) : State :=
  let now := s.clk.gtc.toNat
  let x := s.vat v
  let armed := x.det.arm
  let late := armed && decide (x.det.launch.toNat ≤ now)
  let at_ : W64 := if armed && !late then x.det.launch else if armed || x.det.det then BitVec.ofNat 64 (nextGrid now) else s.clk.gtc
  s.setVat v { x with sheetHost := h, ctlStatus := eOk,
                      det := { x.det with pendStart := some at_, pendArmed := armed, pendGrid := armed || x.det.det, pendLate := late } }

/-- A write of VAT_DET_CTL.arm with its launch tick: a tick off the grid leaves arm at 0 and is logged (R339). (DEDUCED, log entry 74) -/
def State.armWrite (s : State) (v : Nat) (arm : Bool) : State :=
  if arm && (s.vat v).det.launch.toNat % 20 != 0 then
    (s.modVat v (fun x => { x with det := { x.det with arm := false } })).log (srcVat v) evRefused eRange (some v) 0 0
  else s.modVat v (fun x => { x with det := { x.det with arm := arm } })

/-- START (R314, Table 17.8); the host's carries arm and the launch tick. -/
def execStart (v : Nat) (src : Src) (s : State) : Res :=
  .next (s.command src 0x04 v (fun s k =>
    if !(s.vat v).startable || s.brokenHold v then s.refuseCmd v k eState
    else match k.host with
      | some _ =>
        let s1 := s.modVat v (fun x => { x with det := { x.det with launch := BitVec.ofNat 64 (fld k.entry 128 64) } })
        (s1.armWrite v (bit k.entry 64)).acceptStart v k.host
      | none => s.acceptStart v none))

/-- A start that waits for no tick takes effect: the vat enters RUNNING (R313). (DESIGN CHOICE, log entry 151) -/
def execSheetStart (v : Nat) (s : State) : Res :=
  let x := s.vat v
  .next (if x.det.pendStart.isNone || x.det.pendGrid || (x.st == .ready && x.advBusy) then s
    else if x.st != .ready then (s.cancelStart v) else s.sheetStart (fun s c => (s.epsOf c).foldl (fun s e => s.epReset c e) s) v)

/-- A core's control processor executes its first instruction at CYCLE = start_off of its region (R313). -/
def execCoreStart (c : Nat) (s : State) : Res :=
  .next (match s.vatOfCore c with
    | some v =>
      let x := s.vat v
      if x.st == .running && x.enlisted.has c && (s.ctl c).run == .running && x.startOff.get 0 (regionOf (clusterOf c)) ≤ (s.cycleOf c).toNat then
        s.modCtl c (fun k => { k with started := true })
      else s
    | none => s)

/-- The sheet ends when every enlisted core is ENDED and drained (R112, R348). -/
def execSheetEnd (v : Nat) (s : State) : Res :=
  .next (if (s.vat v).st == .running && s.sheetEnded v then s.sheetOver v eOk else s)

/-- A forced stop reaches a vat (R295, R319); it is refused and logged where Table 9.3 has none. -/
def execForcedStop (v : Nat) (s : State) : Res :=
  .next (if !(s.planOf v).valid then s
    else if !(s.vatAwake v) then s.wakeVat v
    else
      let r := s.forceStopOr v
      if r.2 then r.1 else r.1.log (srcVat v) evRefused eState (some v) 0 0)

/-- STOP (Table 17.7): a forced stop that completes at SCANNED; it waits for a scratchpad COPY (R536). -/
def execStop (v r : Nat) (s : State) : Res :=
  .next (if (s.vat v).spadCopies != 0 then s
    else s.command (.host r) 0x07 v (fun s k =>
      let x := s.vat v
      let s0 := if fld k.entry 64 48 = 0 then s else s.setVat v { x with scanBase := fld k.entry 64 48 }
      let f := s0.forceStopOr v
      if x.stopHost.isSome || !f.2 then s.refuseCmd v k eState
      else f.1.modVat v (fun y => { y with stopHost := k.host })))

/-- drain_to ticks have passed since the stop (R319, R352). -/
def execDrainTimeout (v : Nat) (s : State) : Res :=
  let x := s.vat v
  .next (match x.stopTick with
    | some t => if x.st == .stopping && t.toNat + x.drainTo ≤ s.clk.gtc.toNat then s.setVat v { x with drained := true } else s
    | none => s)

/-- The scan-out begins once every core and endpoint is still, its vector units having finished the groups issued (R179, R319, R323); an image outside the vat's regions is refused and the vat
stays STOPPING (DESIGN CHOICE). (DESIGN CHOICE, log entry 67) -/
def execScanOutStart (v : Nat) (s : State) : Res :=
  let x := s.vat v
  .next (if x.st != .stopping || x.scanning || !(s.still v) then s
    else if x.scanBase % 0x100000 != 0 || !(s.stackWithin v x.scanBase (s.scanSize v)) then
      (s.setVat v { x with ctlStatus := ePermission }).log (srcVat v) evRefused ePermission (some v) 0 (x.scanBase / 4096 % 2 ^ 32)
    else ((s.mouldCores v).foldl (fun s c => s.vecSettle c) s).modVat v (fun y => { y with scanning := true }))

/-- The image is complete: SCANNED (R323); STOP and the sheet's command finish (R533), and a reclaim becomes HELD (R508). -/
def execScanOutComplete (v : Nat) (s : State) : Res :=
  let x := s.vat v
  .next (if x.st != .stopping || !x.scanning then s
    else
      let s1 := (s.writeScan v).modVat v (fun y => { y with st := .scanned, scanning := false, stopTick := none, stopHost := none, sheetHost := none, ctlStatus := eOk })
      let s2 := (s1.hostFinish x.sheetHost eAborted 0xFFFFFFFFFFFFFFFF 0).hostFinish x.stopHost eOk 0 0
      let s3 := s2.fireVat v 2
      if x.reclaim.step == .stopping then s3.toHeld v else s3)

/-- SCAN_IN (R324): the checks are made before any write; the deckle rises over the whole vat (R315). (DESIGN CHOICE, log entry 67) -/
def execScanIn (v : Nat) (src : Src) (s : State) : Res :=
  .next (s.command src 0x05 v (fun s k =>
    let x := s.vat v
    if !(x.st == .free && x.jobValid && !x.relWipe) || x.heldOrLater || x.spadCopies != 0 then s.refuseCmd v k eState
    else
      let base := match k.host with | some _ => fld k.entry 64 48 | none => x.scanBase
      let s1 := s.setVat v { x with scanBase := base, st := .loading, ld := .header, loadErr := {}, progAttempts := 0, progDone := 0, ctlStatus := eOk,
                                    job_ := some { scanIn := true, src := base, from_ := .free, host := k.host } }
      let s2 := s1.raiseDeckle v (s1.clustersOf v)
      let st := s2.scanCheck v base
      if st != eOk then s2.loadEnd v st 0xFFFFFFFF .free
      else s2.modVat v (fun y => { y with ld := .check })))

/-- Every section is restored: SCANNED (R324). Sections that do not pass their CRC are fetched again (R309). -/
def execScanInComplete (v : Nat) (s : State) : Res :=
  let x := s.vat v
  .next (match x.job_ with
    | some j =>
      if !j.scanIn || x.ld != .check then s
      else match (if s.scanCrcs v j.src then s.scanFind j.src else none) with
        | some img => ((s.restoreScan v img).modVat v (fun y => { y with progDone := img.sections })).loadEnd v eOk 0 .scanned
        | none => s.setVat v { x with progAttempts := satAdd top32 x.progAttempts 1 }
    | none => s)

/-- RESUME (R315, R319, R351): the deckle is lowered, cores halted for reason 4 run on, and RESUMED is counted. (DEDUCED, log entry 68) -/
def execResume (v : Nat) (src : Src) (s : State) : Res :=
  .next (s.command src 0x06 v (fun s k =>
    let x := s.vat v
    if x.st != .scanned || s.critical || x.heldOrLater || x.tw.standby || x.tw.busy || x.spadCopies != 0 then s.refuseCmd v k eState
    else
      let base := s.clk.fast - x.stopCycle
      let s1 := (s.lowerDeckle v).modVat v (fun y =>
        { y with st := .running, cycleBase := base, sheetHost := k.host, sheetLive := false, ctlStatus := eOk, det := { y.det with resumed := true } })
      let s2 := x.enlisted.foldl (fun s c => s.modCtl c (fun k =>
        { k with run := if k.run == .halted && k.haltReason == 4 then .running else k.run })) s1
      let s3 := (s2.mouldCores v).foldl (fun s c => s.modCtl c (fun k => { k with cycleBase := base })) s2
      x.enlisted.foldl State.resumeChn (s3.detBreak v 0x0E)))

/-- Vats whose record differs between two plans (R293). (DEDUCED, log entry 70) -/
def State.affected (s : State) (p : Nat) : List Nat := (List.range 16).filter (fun v => s.plan s.net.planActive v != s.plan p v)

/-- Targets of a core group source after a plan switch (R542). (DEDUCED, log entry 70) -/
def State.retarget (s : State) (old : Nat → Option Nat) (n : Nat) (t : BitVec 18) : BitVec 18 :=
  let dead := (List.range 16).foldl (fun (t : BitVec 18) v => if (s.planOf v).valid then t else t &&& ~~~(1#18 <<< (1 + v))) t
  if 512 ≤ n then dead
  else match old (n / 8), s.ownerOf (n / 8) with
    | some a, some b => if t.getLsbD (1 + a) then (dead &&& ~~~(1#18 <<< (1 + a))) ||| (1#18 <<< (1 + b)) else dead
    | _, _ => dead

/-- PLAN (R293, R542, R595): the switch is made only when every affected vat is FREE and the plan is well formed. (DEDUCED, log entry 70) -/
def execPlan (r : Nat) (s : State) : Res :=
  .next (s.command (.host r) 0x26 (match (s.ring r).nextCmd with | some k => k.vat | none => 0) (fun s k =>
    let p := fld k.entry 64 3
    let vs := s.affected p
    let refuse := fun (e : Nat) => match k.host with | some (r, u) => s.hostRefuse r u e | none => s
    if !(s.net.planOk.getLsbD p) then refuse eFormat
    else if !(vs.all (fun v => (s.vat v).st == .free)) then refuse eState
    else
      let line := s.irqLine 17
      let vm := vs.filterMap s.vatmanOf
      let s1 := vm.foldl (fun s c => (s.wipeCore c).modCtl c (fun k => { k with run := .halted, haltReason := 4, waiting := none })) s
      let s2 : State := { s1 with net := { s1.net with planActive := p } }
      let s3 : State := { s2 with hub := { s2.hub with srcs := s2.hub.srcs.map (fun q => (q.1, { q.2 with tgt := s2.retarget s.ownerOf q.1 q.2.tgt })) } }
      (s3.irqSettle line).hostFinish k.host eOk 0 0))

/-- KILL (R512, Table 9.3): FAULTED when hold_postmortem is set, else WIPING. A reclaim ends with E_ABORTED (R511). -/
def execKill (v r : Nat) (s : State) : Res :=
  .next (s.command (.host r) 0x24 v (fun s k =>
    let st := (s.vat v).st
    if st == .free || st == .wiping || st == .faulted then s.refuseCmd v k eState
    else
      let s1 := s.endReclaim v eAborted
      if s.hub.holdPm then (s1.toFaulted v).hostFinish k.host eOk 0 0
      else (s1.modVat v (fun x => { x with killHost := k.host })).toWiping v))

/-- VAT_RESET (Table 9.3, R513). -/
def execVatReset (v r : Nat) (s : State) : Res :=
  .next (s.command (.host r) 0x25 v (fun s k =>
    let st := (s.vat v).st
    if st == .free || st == .wiping then s.refuseCmd v k eState
    else ((s.endReclaim v eAborted).modVat v (fun x => { x with killHost := k.host })).toWiping v))

/-- The last controller finishes the vat's wipe: FREE (R192, R397, R498, R511). -/
def execWipeComplete (v : Nat) (s : State) : Res :=
  let x := s.vat v
  .next (if x.st != .wiping then s
    else
      let s1 := ((s.wipeMemory v).clearTops v).modVat v (fun y => { y with st := .free, jobId := 0, jobValid := false, killHost := none, ctlStatus := eOk })
      ((if x.reclaim.step == .none then s1 else s1.endReclaim v eOk).hostFinish x.killHost eOk 0 0).fireVat v 2)

end Sys2Proof.Machine
end

