-- ==== Sys2Proof/Machine/Determ.lean ====
section
/-! DEFINITION. Launches and the global tick counter (R332-R339, R541). -/

namespace Sys2Proof.Machine

/-- A write of VAT_DET_CTL that sets arm (R339, Table 10.7). -/
def execArm (v : Nat) (x : W32) (s : State) : Res :=
  .next (if x.toNat ≥ 8 then s
    else (s.modVat v (fun y => { y with det := { y.det with det := x.getLsbD 0, brkIrq := x.getLsbD 1 } })).armWrite v (x.getLsbD 2))

/-- A pending start reaches its tick (R339): RUNNING, or the end of the start when the vat is no longer READY. It waits while a close of the
advisor is busy (R416). (DESIGN CHOICE, log entry 151) -/
def execLaunchTick (v : Nat) (s : State) : Res :=
  let x := s.vat v
  .next (match x.det.pendStart with
    | some t =>
      if !x.det.pendGrid || s.clk.gtc.toNat < t.toNat || (x.st == .ready && x.advBusy) then s
      else if x.st != .ready then s.cancelStart v
      else s.sheetStart (fun s c => (s.epsOf c).foldl (fun s e => s.epReset c e) s) v
    | none => s)

/-- Does any vat run a sheet? -/
def State.anyRunning (s : State) : Bool := (List.range 16).any (fun v => (s.vat v).st == .running)

/-- The counter takes a value; the edges fall on its launch grid, no image of it lies before it, and the slots count anew
(R332, R333, R340, R346, R503). A stretched cycle moves the edges by whole cycles of the grid (R564). (DESIGN CHOICE, log entry 108) -/
def State.setGtc (s : State) (t : W64) : State :=
  { s with clk := { s.clk with gtc := t, prev := t, phase := edgePhase t.toNat s.hub.dvfs },
           mem := { s.mem with stks := s.mem.stks.map (fun p => (p.1, { p.2 with slotAt := none })) },
           hub := { s.hub with acct := { s.hub.acct with winIdx := min s.hub.acct.winIdx (t.toNat / (s.hub.acct.perMs * 1000000)),
                                                         calIdx := min s.hub.acct.calIdx (t.toNat / 1000000) } } }

/-- GTC_SET, from the management core (R332): refused with E_STATE while any vat is RUNNING. -/
def execGtcSet (t : W64) (s : State) : Res :=
  .next (if s.anyRunning then s.log (srcHub 3) evRefused eState none 0 0 else s.setGtc t)

/-- The GTC reaches GTC_ALARM: source 668 fires once (Table 18.1). -/
def execGtcAlarm (s : State) : Res :=
  .next (if s.hub.alarmDone || s.clk.gtc.toNat < s.hub.gtcAlarm.toNat then s
    else ({ s with hub := { s.hub with alarmDone := true } } : State).fire 668)

/-- Update the synchronisation unit. -/
def State.modGs (s : State) (f : GtcSync → GtcSync) : State := { s with hub := { s.hub with gs := f s.hub.gs } }

/-- The state shown in a TRSP (Table 10.3). -/
def GsSt.code : GsSt → Nat
  | .free => 0 | .acquire => 1 | .locked => 2 | .holdover => 3

/-- Running sheets lose their locked mark unless the GTC is LOCKED or the device a root (Table 10.6). -/
def State.keepLocked (s : State) : State :=
  if s.gtcLocked then s
  else (List.range 16).foldl (fun s v => s.modVat v (fun x => { x with det := { x.det with locked := false } })) s

/-- The GTC enters a state other than LOCKED (R337): source 649 if it leaves LOCKED, and running sheets lose their locked mark (Table 10.6). -/
def State.unlock (s : State) (st : GsSt) : State :=
  let s1 := (s.modGs (fun g => { g with st := st, good := 0, badN := 0 })).keepLocked
  if s.hub.gs.st == .locked then s1.fire 649 else s1

/-- A TIME frame for the neighbour of a port (R469). -/
def State.timeFrame (s : State) (p unit : Nat) : TxFrame := { f := { kind := 2, dst := (s.port p).peer, src := s.span.node, unit := unit } }

/-- The exchange of a period begins (R336): a TREQ is queued with its number; its stamp is taken as it leaves. -/
def execTreqSend (s : State) : Res :=
  let g := s.hub.gs
  let q := (g.seq + 1) % 2 ^ 16
  .next (if !g.en || g.upPort = 7 then s
    else (s.modGs (fun g => { g with seq := q, t1 := none })).queueTx g.upPort (s.timeFrame g.upPort (1 + q * 2 ^ 4)))

/-- A TREQ arrives (R336): the device answers with its stamps, hops, state and root; one that was not stamped is not answered (R469).
Only a root shows the hop count 0. (DEDUCED, log entry 71) -/
def execTreqReceive (port : Nat) (s : State) : Res :=
  let g := s.hub.gs
  let root := g.upPort == 7
  .next (match s.takeFrame port (fun f => f.kind == 2 && fld f.unit 0 4 == 1) with
    | some (x, s1) =>
      if !x.stamped then s1
      else s1.queueTx port (s.timeFrame port (2 + fld x.f.unit 4 16 * 2 ^ 4 + (if root then 0 else max 1 g.hops) % 2 ^ 17 * 2 ^ 20 + g.st.code * 2 ^ 37
        + (if root then s.span.node else g.root.getD 0) * 2 ^ 39 + x.tick.toNat * 2 ^ 64))
    | none => s)

/-- A number within the field of GTC_SYNC_STAT.offset (Table 10.14). -/
def clampOff (x : Int) : Int := max (-32767) (min 32767 x)

/-- The trim moves toward zero offset, up for an upstream that is ahead and down for one that is behind, by an amount the spec leaves
open and never beyond ±200 ppm (R337). (DEDUCED, log entry 71) -/
def State.trimFree (s : State) (th : Int) : State :=
  let u := s.drawFree
  u.2.modGs (fun g =>
    { g with trim := if 0 < th then g.trim + ((u.1.toNat % ((2000 - g.trim).toNat + 1) : Nat) : Int)
                     else if th < 0 then g.trim - ((u.1.toNat % ((g.trim + 2000).toNat + 1) : Nat) : Int)
                     else g.trim })

/-- A valid exchange in ACQUIRE or LOCKED (R337, Table 10.3). (DEDUCED, log entry 71) -/
def State.exchange (s : State) (th : Int) : State :=
  let g := s.hub.gs
  if g.st == .acquire then
    let n := if th.natAbs ≤ 4 then g.good + 1 else 0
    let s1 := s.modGs (fun g => { g with good := n, st := if 8 ≤ n then .locked else .acquire })
    if 1000 < th.natAbs && !s.anyRunning then s1.setGtc (BitVec.ofInt 64 ((s1.clk.gtc.toNat : Int) + th))
    else s1.trimFree th
  else if g.st == .locked then
    let n := if 16 < th.natAbs then g.badN + 1 else 0
    if 2 ≤ n then s.unlock .holdover else (s.modGs (fun g => { g with badN := n })).trimFree th
  else if g.st == .holdover then s.modGs (fun g => { g with st := .acquire, good := 0, badN := 0 })
  else s

/-- A TRSP arrives (R336, R337); one that was not stamped is discarded (R469), and a sender with hop count 0 is a root (R336). One that
names another root, or with too many hops, ends LOCKED whether or not it is valid (Table 10.3). -/
def execTrspReceive (port : Nat) (s : State) : Res :=
  let g := s.hub.gs
  .next (match s.takeFrame port (fun f => f.kind == 2 && fld f.unit 0 4 == 2) with
    | none => s
    | some (x, s1) =>
      let u := x.f.unit
      let hops := fld u 20 17
      let root := fld u 39 17
      if !x.stamped || port != g.upPort || !g.en || g.upPort = 7 then s1
      else if g.st == .locked && (131071 ≤ hops || (match g.root with | some r => r != root | none => false)) then s1.unlock .holdover
      else match g.t1 with
      | none => s1
      | some t1 =>
        if fld u 4 16 != g.seq then s1
        else if t1.toNat + 2 ^ g.perLog2 ≤ x.tick.toNat || !(fld u 37 2 == 2 || hops == 0) || 131071 ≤ hops then s1
        else
          let a : Int := (fld u 64 64 : Int) - t1.toNat
          let b : Int := (x.tick.toNat : Int) - fld u 128 64
          let th := (a - b).tdiv 2
          let d := (a + b).tdiv 2
          (s1.modGs (fun g => { g with t1 := none, lastValid := s.clk.gtc, hops := hops + 1, root := some root, offset := clampOff th,
                                       delay := min 0xFFFF d.toNat })).exchange th)

/-- No valid TRSP for 4 periods: LOCKED to HOLDOVER (Table 10.3). -/
def execSyncLossTimeout (s : State) : Res :=
  let g := s.hub.gs
  .next (if g.st == .locked && g.lastValid.toNat + 4 * 2 ^ g.perLog2 ≤ s.clk.gtc.toNat then s.unlock .holdover else s)

end Sys2Proof.Machine
end

