-- ==== Sys2Proof/Machine/Jobs.lean ====
section
/-! DEFINITION. Jobs, reclaim, evacuation and accounting (Chapter 16). -/

namespace Sys2Proof.Machine

/-- A refused device command: a host command gets its record, and every refusal is logged (R526). -/
def State.refuseDev (s : State) (v : Nat) (k : Caller) (status : Nat) : State :=
  match k.host with
  | some (r, uid) => s.hostRefuse r uid status
  | none => s.log (srcVat v) evRefused status (some v) 0 0

/-- ASSIGN, from the PF's device ring or the management core (R497). -/
def execAssign (v : Nat) (src : Src) (job : Nat) (s : State) : Res :=
  .next (match src with
    | .vatman => s.log (srcVat v) evRefused ePermission (some v) 0 0
    | _ => s.command src 0x20 v (fun s k =>
      let x := s.vat v
      let j := match k.host with | some _ => fld k.entry 64 16 | none => job % 2 ^ 16
      if j = 0 then s.refuseDev v k eRange
      else if x.st != .free || x.jobValid || x.relWipe then s.refuseDev v k eState
      else (s.setVat v { x with jobId := j, jobValid := true, ac := { from_ := s.clk.gtc, stopped := false } }).hostFinish k.host eOk 0 0))

/-- RELEASE_JOB (R498): a release wipe of a FREE vat with a job. -/
def execReleaseJob (v r : Nat) (s : State) : Res :=
  .next (s.command (.host r) 0x21 v (fun s k =>
    let x := s.vat v
    if x.st != .free || !x.jobValid || x.relWipe then s.refuseDev v k eState
    else (s.stopCounting v).modVat v (fun y => { y with relWipe := true, relHost := k.host })))

/-- The release wipe ends (R498); the couch stacks' top pointers fall with the wipe of a reclaim alone (R406). (DEDUCED, log entry 69) -/
def execReleaseWipeComplete (v : Nat) (s : State) : Res :=
  let x := s.vat v
  .next (if !x.relWipe then s
    else
      let s0 := if x.reclaim.step == .none then s.wipeMemory v else (s.wipeMemory v).clearTops v
      let s1 := s0.modVat v (fun y => { y with relWipe := false, jobId := 0, jobValid := false, relHost := none })
      ((if x.reclaim.step == .none then s1 else s1.endReclaim v eOk).hostFinish x.relHost eOk 0 0).fireVat v 2)

/-- RECLAIM (R506, Table 16.4). -/
def execReclaim (v r : Nat) (s : State) : Res :=
  .next (s.command (.host r) 0x22 v (fun s k =>
    let x := s.vat v
    let go := fun (p : ReclaimStep) =>
      (s.setVat v { x with reclaim := { deadline := BitVec.ofNat 64 (fld k.entry 128 64), status := eOk, step := p, host := k.host } }).fireVat v 0
    if x.tw.standby || x.reclaim.step != .none || x.relWipe then s.refuseDev v k eState
    else match x.st with
      | .free => if x.jobValid then (go .held).toHeld v else s.refuseDev v k eState
      | .wiping => s.refuseDev v k eState
      | .faulted => s.refuseDev v k eState
      | .loading => go .pending
      | .ready => go .pending
      | .running => go .pending
      | .stopping => go .stopping
      | .scanned => (go .held).toHeld v))

/-- Commands that have been set aside are withdrawn and the step becomes HELD once every accepted one is complete (R507). (DEDUCED, log entry 69) -/
def State.yieldEnd (s : State) (v : Nat) : State :=
  if (s.vat v).yielded && (s.vat v).reclaim.step == .pending && s.cmdsDone v then s.toHeld v else s

/-- YIELD (R507): legal in PENDING while READY, or FREE with a job, below the deadline. -/
def execYield (v : Nat) (s : State) : Res :=
  let x := s.vat v
  .next (if x.reclaim.step == .pending && (x.st == .ready || (x.st == .free && x.jobValid)) && s.clk.gtc.toNat < x.reclaim.deadline.toNat then
      (((s.withdraw v (·.stage == .aside)).modVat v (fun y => { y with yielded := true, reclaim := { y.reclaim with status := eOk } }))).yieldEnd v
    else (s.modVat v (fun y => { y with reclaim := { y.reclaim with status := eState } })).log (srcVat v) evRefused eState (some v) 0 0)

/-- The image reaches the deadline in PENDING (R508): a forced stop, or HELD where none applies. (DEDUCED, log entry 69) -/
def execReclaimDeadline (v : Nat) (s : State) : Res :=
  let x := s.vat v
  .next (if x.reclaim.step != .pending || s.clk.gtc.toNat < x.reclaim.deadline.toNat then s
    else
      let s1 := s.modVat v (fun y => { y with reclaim := { y.reclaim with step := .stopping }, yielded := false })
      match x.st with
      | .free => s1.toHeld v
      | .scanned => s1.toHeld v
      | _ => (s1.forceStopOr v).1)

/-- One evacuation list entry (Table 16.5). -/
def evacEntry (e : Nat) : EvacEnt :=
  { src := fld e 0 48, pages := fld e 64 24, peer := bit e 88, port := fld e 89 3, addr := if bit e 88 then fld e 128 48 else fld e 128 64,
    node := fld e 192 17 }

/-- Reserved fields and encodings of an entry. -/
def evacFormatOk (e : Nat) : Bool :=
  fld e 48 16 == 0 && fld e 92 36 == 0 && fld e 209 47 == 0 && fld e 0 12 == 0 && fld e 64 24 != 0
  && (if bit e 88 then fld e 176 16 == 0 && fld e 89 3 != 6 else fld e 89 3 == 0 && fld e 192 17 == 0 && fld e 128 12 == 0)

/-- The wipe that ends a reclaim begins, as for a vat reset (R510). -/
def State.evacDone (s : State) (v : Nat) : State :=
  let h := (s.vat v).evacHost
  let s1 := (s.modVat v (fun y => { y with reclaim := { y.reclaim with step := .wiping, status := eOk }, evacHost := none, evac := [] })).hostFinish h eOk 0 0
  s1.toWiping v

/-- EVACUATE (R510): the whole list is checked before any byte moves. -/
def execEvacuate (v r : Nat) (s : State) : Res :=
  .next (s.command (.host r) 0x23 v (fun s k =>
    let x := s.vat v
    let a := fld k.entry 128 48
    let n := fld k.entry 192 32
    let es := (List.range n).map (fun i => s.stackNat (a + 32 * i) 32)
    let refuse := fun (e : Nat) => (s.modVat v (fun y => { y with reclaim := { y.reclaim with status := e } })).refuseDev v k e
    if x.reclaim.step != .held then s.refuseDev v k eState
    else if n = 0 then (s.setVat v { x with evacHost := k.host, evacEntries := 0, evacPages := 0 }).evacDone v
    else if !(s.stackFree a (32 * n)) then refuse ePermission
    else if s.stackBad a (32 * n) then refuse ePoison
    else if !(es.all evacFormatOk) then refuse eFormat
    else if !(es.all (fun e => s.stackWithin v (evacEntry e).src (4096 * (evacEntry e).pages))) then refuse ePermission
    else s.setVat v { x with reclaim := { x.reclaim with step := .evacuating }, evac := es.map evacEntry, evacEntries := 0, evacPages := 0, evacHost := k.host }))

/-- The mover's bytes of one entry, `n` of them: to host memory or to a peer (R510), counted under R501 and R538. (DEDUCED, log entry 72) -/
def State.evacMove (s : State) (v : Nat) (e : EvacEnt) (n : Nat) : State :=
  let data := s.stackRead e.src n
  let s1 := if e.peer then s.send (.evacWrite e.port e.node e.addr data (s.stackBadOffs e.src n)) else s.send (.hostWrite e.addr data)
  let s2 := ((s1.noteStack (some v) e.src n).accountStk v 0 (chargeOf e.src n)).account v 18 n
  if e.peer then s2 else s2.account v 15 (max 4096 n)

/-- The evacuation ends with a refusal's status: back to HELD (R510). -/
def State.evacFail (s : State) (v status : Nat) : State :=
  let h := (s.vat v).evacHost
  (s.modVat v (fun y => { y with reclaim := { y.reclaim with step := .held, status := status }, evacHost := none, evac := [] })).hostFinish h status 0 0

/-- The first poisoned byte an entry would write to the host. (DEDUCED, log entry 72) -/
def State.evacBad (s : State) (e : EvacEnt) : Option Nat :=
  if e.peer then none else (s.stackBadOffs e.src (4096 * e.pages)).head?

/-- Every write has left or been acknowledged (R510): the vat enters WIPING. Poison on its way to the host is a commit point: the entries
before it are moved, no poisoned word leaves (Table 18.6, kind 1). -/
def execEvacuationComplete (v : Nat) (s : State) : Res :=
  let x := s.vat v
  .next (if x.reclaim.step != .evacuating then s
    else
      let good := x.evac.takeWhile (fun e => (s.evacBad e).isNone)
      let s1 := good.foldl (fun s e => s.evacMove v e (4096 * e.pages)) s
      let s2 := s1.modVat v (fun y => { y with evacEntries := good.length % 2 ^ 16, evacPages := satAdd top32 0 ((good.map (·.pages)).foldl (· + ·) 0) })
      match (x.evac.drop good.length).head? with
      | none => s2.evacDone v
      | some e =>
        let off := (s.evacBad e).getD 0
        let s3 := s2.evacMove v e (off / 4 * 4)
        (s3.containPoint v 1 (srcHub 9) (e.addr + off) (e.src + off)).evacFail v ePoison)

/-- The outlet of an entry: a span port, or 8, the host port (R510, R461). -/
def State.evacOutlet (s : State) (e : EvacEnt) : Nat := if e.peer then (if e.port = 7 then (s.spanRoute e.node).getD 7 else e.port) else 8

/-- An entry is moved as far as the pages its outlet may still move; an entry that does not move whole is the last of its outlet. The
state, what the outlets may move, and the pages and entries moved so far. -/
def evacPartOne (v : Nat) (r : State × Table Nat × Nat × Nat) (e : EvacEnt) : State × Table Nat × Nat × Nat :=
  let o := r.1.evacOutlet e
  let k := min e.pages (r.2.1.get 0 o)
  let n := match r.1.evacBad e with | some off => min (4096 * k) (off / 4 * 4) | none => 4096 * k
  let whole := n == 4096 * e.pages
  (if n = 0 then r.1 else r.1.evacMove v e n, r.2.1.put o (if whole then r.2.1.get 0 o - e.pages else 0), r.2.2.1 + n / 4096, r.2.2.2 + b2n whole)

/-- What an evacuation has moved when one of its writes fails: each outlet has worked through its entries in list order (R510); how far is a
free value. (DESIGN CHOICE, log entry 154) -/
def State.evacPart (s : State) (v : Nat) : State :=
  let d := (List.range 9).foldl (fun (r : State × Table Nat) o => let u := r.1.drawFree; (u.2, r.2.put o u.1.toNat)) (s, [])
  let r := (s.vat v).evac.foldl (evacPartOne v) (d.1, d.2, 0, 0)
  r.1.modVat v (fun y => { y with evacEntries := r.2.2.2 % 2 ^ 16, evacPages := satAdd top32 0 r.2.2.1 })

/-- A refused or timed-out write ends the evacuation at once (R510). -/
def execEvacuationFailure (v status : Nat) (s : State) : Res :=
  .next (if (s.vat v).reclaim.step == .evacuating && status != eOk then (s.evacPart v).evacFail v (status % 256) else s)

/-! ## Accounting (R503-R505) -/

/-- The window of a vat begins at a tick. (DEDUCED, log entry 124) -/
def Acct.roll (a : Acct) (t : W64) : Acct := { a with acct0 := a.acct, stk0 := a.stk, from_ := t, clamp := false }

/-- A window ends (R503, R504), once the calibration intervals that it holds have ended (R505): records of kind 0 by vat, then kind 2; the
next window begins. -/
def execAccountingWindowEnd (s : State) : Res :=
  let p := s.hub.acct.perMs * 1000000
  let j := s.clk.gtc.toNat / p
  .next (if j ≤ s.hub.acct.winIdx || s.hub.acct.calIdx < j * s.hub.acct.perMs then s
    else
      let e : W64 := BitVec.ofNat 64 (j * p)
      let live := (List.range 16).filter (fun v => (s.vat v).jobValid && !(s.vat v).ac.stopped)
      let s1 := (live.foldl (fun s v => s.acctWrite v 0 e) s).acctWrite 0 2 e
      let s2 := live.foldl (fun s v => s.modVat v (fun x => { x with ac := x.ac.roll e })) s1
      let a := s2.hub.acct
      { s2 with hub := { s2.hub with acct := { a with winIdx := j, from_ := e, sysEnergy0 := a.sysEnergy, clamp := false } } })

/-- Activities of a vat since the interval began (Table 16.2). -/
def Acct.activity (a : Acct) (k : Nat) : Nat :=
  let d := fun (j : Nat) => delta64 (a.acct.get 0 j) (a.acctCal.get 0 j)
  let t := fun (j : Nat) => delta64 (a.stk.get 0 j) (a.stkCal.get 0 j)
  match k with
  | 0 => d 0 | 1 => d 2 | 2 => d 3 | 3 => d 5 | 4 => d 7 | 5 => d 10 | 6 => d 11
  | 7 => (t 0 + t 1) / 256 | 8 => t 2 / 256 | 9 => t 3 / 256 | 10 => d 12 / 64 | 11 => d 15 / 256 | 12 => d 16 / 64 | _ => 0

/-- raw[v] of R505, in nJ. -/
def Acct.raw (a : Acct) (w : Table Nat) : Nat := ((List.range 13).map (fun k => w.get 0 k * a.activity k)).foldl (· + ·) 0 / 1000

/-- A calibration interval ends with its measured energy in nJ (R505). (DEDUCED, log entry 73) -/
def execCalibrationInterval (measured : Nat) (s : State) : Res :=
  let a := s.hub.acct
  let i := s.clk.gtc.toNat / 1000000
  .next (if i ≤ a.calIdx then s
    else
      let est := a.weights.get 0 15 * 1000 + ((List.range 16).map (fun v => (s.vat v).ac.raw a.weights)).foldl (· + ·) 0
      let low := decide (2 * measured < est)
      let high := decide (2 * est < measured)
      let num := if low then 1 else if high then 2 else measured
      let den := if low then 2 else if high then 1 else est
      let clamp := low || high
      let live := (List.range 16).filter (fun v => (s.vat v).jobValid && !(s.vat v).ac.stopped)
      let en := fun (v : Nat) => (s.vat v).ac.raw a.weights * num / den
      let s1 := live.foldl (fun s v => ((s.account v 21 (en v)).account v 22 ((s.vat v).ac.raw a.weights)).modVat v
        (fun x => { x with ac := { x.ac with clamp := x.ac.clamp || clamp } })) s
      let s2 := (List.range 16).foldl (fun s v => s.modVat v (fun x => { x with ac := { x.ac with acctCal := x.ac.acct, stkCal := x.ac.stk } })) s1
      let tot := (live.map en).foldl (· + ·) 0
      let u := if den = 0 then let d := s2.drawFree; (d.1.toNat, d.2) else (min top32 (num * 65536 / den), s2)
      { u.2 with hub := { u.2.hub with acct :=
          { a with sysEnergy := a.sysEnergy + BitVec.ofNat 64 (measured - tot), clamp := a.clamp || clamp, calIdx := i, lastC := u.1,
                   clamps := if clamp then satAdd top32 a.clamps 1 else a.clamps } } })

end Sys2Proof.Machine
end

