-- ==== Sys2Proof/Machine/RingOps.lean ====
section
/-! DEFINITION. Command rings and entries, the memory window's rights and copies (R515-R538). -/

namespace Sys2Proof.Machine

/-! ## Entries (R525, R526, Table 17.8) -/

/-- A run of `n` bits from bit `lo`. -/
def maskBits (lo n : Nat) : Nat := (2 ^ n - 1) * 2 ^ lo

/-- Is an op assigned (Table 17.7)? -/
def opKnown (op : Nat) : Bool := (1 ≤ op && op ≤ 0x0C) || op == 0x0F || (0x20 ≤ op && op ≤ 0x27)

/-- Operand bits an entry assigns (Table 17.8). -/
def operandMask (e : Nat) : Nat :=
  let op := fld e 0 8
  if op = 0x01 || op = 0x05 || op = 0x07 || op = 0x0B then maskBits 64 48
  else if op = 0x04 then maskBits 64 1 + maskBits 128 64
  else if op = 0x08 then maskBits 64 15 + maskBits 96 32 + maskBits 128 64
  else if op = 0x09 then
    maskBits 64 3 + maskBits 80 14 + maskBits 96 16
    + (if fld e 64 3 = 1 then maskBits 128 32 + maskBits 160 24 + maskBits 184 24 + maskBits 208 24 + maskBits 256 48 + maskBits 304 16 + maskBits 320 48 else 0)
  else if op = 0x0A then maskBits 64 2
  else if op = 0x0C then maskBits 64 1 + maskBits 128 64 + maskBits 192 48 + maskBits 256 32
  else if op = 0x20 then maskBits 64 16
  else if op = 0x22 then maskBits 128 64
  else if op = 0x23 then maskBits 128 48 + maskBits 192 32
  else if op = 0x26 || op = 0x27 then maskBits 64 3
  else 0

/-- Reserved encodings within assigned operands. -/
def operandCoded (e : Nat) : Bool :=
  let op := fld e 0 8
  if op = 0x09 then 1 ≤ fld e 64 3 && fld e 64 3 ≤ 6
  else if op = 0x0A then fld e 64 2 != 0
  else if op = 0x27 then 1 ≤ fld e 64 3 && fld e 64 3 ≤ 5
  else true

/-- The device range of a COPY (R536): none if it is neither wholly in the vat's regions nor in one mould core's scratchpad; else the
core of a scratchpad range. -/
def State.copyRange (s : State) (v a n : Nat) : Option (Option Nat) :=
  if a + n ≤ stackTop then (if s.stackWithin v a n then some none else none)
  else match targetOf a with
    | .spad cl l off =>
      match s.physOf cl l with
      | some c => if l != 63 && off + n ≤ spadSize && (s.mouldCores v).contains c then some (some c) else none
      | none => none
    | _ => none

/-- The checks of R526 on an entry of ring `r`, in order. -/
def State.entryCheck (s : State) (r e : Nat) : Nat :=
  let op := fld e 0 8
  let v := fld e 8 4
  if !(opKnown op) || fld e 14 2 != 0 || fld e 32 32 != 0 || (e / 2 ^ 64 * 2 ^ 64) &&& operandMask e != e / 2 ^ 64 * 2 ^ 64 || !(operandCoded e) then eFormat
  else if r != 16 && (0x20 ≤ op || v != r) then ePermission
  else if op = 0x01 then (if fld e 64 12 != 0 then eRange else eOk)
  else if op = 0x05 || op = 0x07 then (if fld e 64 20 != 0 then eRange else eOk)
  else if op = 0x08 then (if !(ctrWf (fld e 64 15)) || fld e 96 32 = 0 then eRange else eOk)
  else if op = 0x0B then (if fld e 64 7 != 0 then eRange else if !(s.stackWithin v (fld e 64 48) 128) then ePermission else eOk)
  else if op = 0x0C then (if fld e 256 32 = 0 then eRange else if (s.copyRange v (fld e 192 48) (fld e 256 32)).isNone then ePermission else eOk)
  else eOk

/-! ## Rings -/

/-- Does a function own a ring's page (R519)? A VF owns only the ring of its vat. -/
def State.ownsRing (s : State) (fn r : Nat) : Bool := r ≤ 16 && s.ringFn r == fn

/-- A doorbell ignored: counted and logged (R524). -/
def State.dbRefuse (s : State) (fn status : Nat) : State :=
  (({ s with host := { s.host with dbRefused := satAdd top16 s.host.dbRefused 1 } } : State)).log (srcHost fn) evRefused status none 0 0

/-- May a doorbell write be taken (R524)? (DEDUCED, log entry 74) -/
def Ring.dbOk (x : Ring) (len val : Nat) : Bool := len == 4 && val < 2 ^ x.sizeLog2 && x.en

/-- Entries waiting in the submission ring. -/
def Ring.waiting (x : Ring) : Nat := (x.sqTail + 2 ^ x.sizeLog2 - x.sqHead) % 2 ^ x.sizeLog2

/-- Ask host memory for pending entries, one read at a time, of up to 4,096 B and not past the end of the ring (R526, R527). -/
def State.ringFetch (s : State) (r : Nat) : State :=
  let x := s.ring r
  let n := min (min x.waiting (2 ^ x.sizeLog2 - x.sqHead)) (min 64 (64 - x.outstanding))
  if !x.en || x.halted || x.fetchAt.isSome || n = 0 then s
  else (s.setRing r { x with fetchAt := some s.clk.gtc }).send (.entryRead r x.sqHead n)

/-- Take one entry (R526): it stands in the ring's order, or is refused at once. -/
def State.takeEntry (s : State) (r e : Nat) : State :=
  let x := s.ring r
  let k : HostCmd := { uid := x.nextUid, index := x.sqHead, op := fld e 0 8, vat := fld e 8 4, fence := bit e 12, irq := bit e 13, tag := fld e 16 16, entry := e }
  let s1 := s.setRing r { x with cmds := x.cmds ++ [k], nextUid := x.nextUid + 1, sqHead := (x.sqHead + 1) % 2 ^ x.sizeLog2 }
  let st := s.entryCheck r e
  if st = eOk then s1 else s1.hostRefuse r k.uid st

/-- A ring is stopped as by en := 0, its records discarded when `drop` (R530). -/
def State.ringStop (s : State) (drop : Bool) (r : Nat) : State :=
  s.modRing r (fun x => ({ x with en := false, fetchAt := none, discard := x.discard || drop, withheld := if drop then [] else x.withheld,
                                  done := if drop then [] else x.done } : Ring).settle)

/-- The host port's rings and segments return to reset, as a Function Level Reset of every function gives (R530, R584). -/
def State.hostReset (s : State) : State :=
  let s1 := (List.range 17).foldl (fun s r => s.ringStop true r) s
  { s1 with host := { s1.host with fns := [] } }

/-- The host port serves requests: after the seal (R593), and with the hub in service; else the request asks for a wake and waits (R572). -/
def State.hostOpen (s : State) : Bool := s.boot.sealed && s.fastOn

/-- A host request that finds the device in SLEEP asks for its wake (R572). (DESIGN CHOICE, log entry 109) -/
def State.hostAsk (s : State) : State := if s.pwr.asleep then { s with pwr := { s.pwr with wakeAsk := true } } else s

/-! ## The memory window (R520, R521, Table 17.4) -/

/-- The vat of a function: none for the PF. -/
def State.fnVat (s : State) (fn : Nat) : Option Nat := if fn = 0 then none else s.vfVat (fn - 1)

/-- The target of a window request: the owner of its first byte, and the core of a scratchpad range. (DEDUCED, log entry 78) -/
def State.winTarget (s : State) (a n : Nat) : Option (Option Nat × Option Nat) :=
  if n != 0 && a + n ≤ stackTop then some (s.stackOwner a, none)
  else match targetOf a with
    | .spad cl l off =>
      match s.physOf cl l with
      | some c => if n != 0 && l != 63 && off + n ≤ spadSize then some (s.ownerOf cl, some c) else none
      | none => none
    | _ => none

/-- The status of a window request (Table 17.4). (DEDUCED, log entry 78) -/
def State.winCheck (s : State) (fn a n : Nat) (write : Bool) : Nat :=
  match s.winTarget a n with
  | none => eRange
  | some (t, core) =>
    let own := s.fnVat fn
    let permit := match core with
      | some c => (s.vatmanVat c).isNone && (fn == 0 || (match own with | some v => (s.mouldCores v).contains c | none => false))
      | none => fn == 0 || (match own with | some v => s.stackWithin v a n | none => false)
    if !permit then ePermission
    else match t with
      | none => eOk
      | some v =>
        let x := s.vat v
        if x.st == .wiping || x.st == .faulted || (write && (x.heldOrLater || ((x.tw.standby || x.tw.busy) && core.isNone && x.inTwinRange a n))) then eState
        else match core with
          | some c => if s.deckled (clusterOf c) || s.detNow c || x.spadCopies != 0 then eState else eOk
          | none => eOk

/-- The device address of a BAR2 offset (R520). (DEDUCED, log entry 78) -/
def State.winAddr (s : State) (fn off : Nat) : Nat :=
  let sz := if fn = 0 then 2 ^ 33 else 2 ^ 31
  (s.hostFn fn).segs.get 0 (off / sz % 8) + off % sz

/-- A refused window request: counted and logged (R521). -/
def State.winRefuse (s : State) (fn status : Nat) (a : Nat) : State :=
  (({ s with host := { s.host with refused := satAdd top16 s.host.refused 1 } } : State)).log (srcHost fn) evRefused status (s.fnVat fn) a 0

/-! ## Copies (R536, R537) -/

/-- The copy of a command. -/
def State.copyOf (s : State) (r uid : Nat) : Option CopyJob := s.host.copies.find? (fun k => k.host == (r, uid))

/-- Replace a copy's record. -/
def State.putCopy (s : State) (k : CopyJob) : State :=
  { s with host := { s.host with copies := s.host.copies.map (fun j => if j.host == k.host then k else j) } }

/-- A copy ends with a status (R536, R538): the charge, the record, and a scratchpad copy's hold. -/
def State.copyEnd (s : State) (k : CopyJob) (status moved : Nat) : State :=
  let s1 : State := { s with host := { s.host with copies := s.host.copies.filter (fun j => j.host != k.host) } }
  let s2 := s1.account k.vat 15 (max 4096 moved)
  let s3 := if k.spad.isSome then s2.modVat k.vat (fun x => { x with spadCopies := x.spadCopies - 1 }) else s2
  s3.hostFinish (some k.host) status moved 0

/-- May a COPY run in the vat's present state (R536)? (DEDUCED, log entry 76) -/
def State.copyState (s : State) (v : Nat) (spad out : Bool) (a n : Nat) : Bool :=
  let x := s.vat v
  if spad then (x.st == .ready || x.st == .scanned || (x.st == .free && x.jobValid)) && x.deckle.isEmpty
  else x.jobValid && x.st != .wiping && x.st != .faulted && (out || !(x.heldOrLater || ((x.tw.standby || x.tw.busy) && x.inTwinRange a n)))

/-- Write bytes of a copy into the device. -/
def State.copyPut (s : State) (k : CopyJob) (off : Nat) (data : List Byte) (bad : Nat → Bool) : State :=
  match k.spad with
  | some c => s.spadPut c (fld k.dev 0 19 + off) data bad
  | none => (s.stackPut (k.dev + off) data bad).accountStk k.vat 1 (chargeOf (k.dev + off) data.length)

/-- The first poisoned byte of the device range of a copy. (DEDUCED, log entry 76) -/
def State.copyBad (s : State) (k : CopyJob) : Option Nat :=
  match k.spad with
  | some c => (List.range k.bytes).find? (fun i => (s.spad c).badAt (fld k.dev 0 19 + i))
  | none => (s.stackBadOffs k.dev k.bytes).head?

/-- Bytes of the device range of a copy. -/
def State.copyGet (s : State) (k : CopyJob) (n : Nat) : List Byte :=
  match k.spad with
  | some c => (s.spad c).mem.readBytes (fld k.dev 0 19) n
  | none => s.stackRead k.dev n

end Sys2Proof.Machine
end

