-- ==== Sys2Proof/Machine/LinkOps.lean ====
section
/-! DEFINITION. Link states, the reception and composition of codeword pairs, and transit (R446-R462, R474). -/

namespace Sys2Proof.Machine

/-! ## Link states (R457-R459) -/

/-- Codes of Table 14.6. -/
def LinkSt.code : LinkSt → Nat
  | .disabled => 0
  | .down => 1
  | .train => 2
  | .align => 3
  | .hello => 4
  | .up => 5
  | .failed => 6

/-- Sizes of the nine pools of a port (Table 14.14, R474). (DESIGN CHOICE, log entry 50) -/
def SpanPort.poolSize (x : SpanPort) (twin : Bool) (i : Nat) : Nat :=
  if twin then (if i = 0 then 1024 else if i = 1 then 14336 else if i = 3 || i = 8 then 512 else 0)
  else if i = 8 then 8192 - (List.range 8).foldl (fun t j => t + x.pools.get 0 j) 0
  else x.pools.get 0 i

/-- A port with nothing of a former link: sequence numbers, replay, credits and requests cleared (R459). -/
def SpanPort.fresh (x : SpanPort) : SpanPort :=
  { x with credit := [], lastRep := [], freed := [], nextPool := 0, txSeq := 0, rxSeq := 0, held := [], resend := [], nakOut := false, lastNak := none,
           nakRun := 0, badRun := 0, goodRun := 0, noStamp := 0,
           txCur := none, rxPart := [], rxNeed := 0, rxq := x.rxq.filter (fun y => y.f.kind != 3), tags := [], age := [], acked := false }

/-- Everything that used a port is discarded as it leaves UP, and its packets and requests are answered with E_TIMEOUT (R459). -/
def State.portLeave (s : State) (p : Nat) : State :=
  let y := s.port p
  let cur := match y.txCur with | some c => [c.1] | none => []
  let lost := y.txq ++ cur ++ y.held.flatMap (·.frames)
  let s1 := if p = twinPort then s else lost.foldl State.dropTx s
  let s2 := y.tags.foldl (fun s t => s.answerAll t.2.who eTimeout) s1
  let s3 := s2.modPort p (fun y =>
    let z := y.fresh
    { z with retrains := satAdd top16 y.retrains 1, txq := if p = twinPort then y.txq.filter (fun x => 8 ≤ x.f.kind && x.f.kind ≤ 0xA) else [] })
  s3.fire (640 + p)

/-- A port enters a link state (R457); the entry is logged, and entry to FAILED fires the port's source. -/
def State.linkTo (s : State) (p : Nat) (st : LinkSt) : State :=
  let s1 := if (s.port p).st = .up && st != .up then s.portLeave p else s
  let s2 := (s1.modPort p (fun y => { y with st := st, since := s.clk.gtc })).log (srcPort p) evLink eOk none 0 st.code
  if st = .failed then s2.fire (640 + p) else s2

/-- PLAN_VAT as Table 9.1 lays it out, for the checksum of R476. -/
def PlanVat.bytes (x : PlanVat) : List Byte := leBytes 16 (x.clusters.toNat + x.vatmanCluster.toNat * 2 ^ 64 + b2n x.valid * 2 ^ 70)

/-- CRC-32C over the plan records of TWIN_CFG.vats, in vat order (R476). -/
def State.planCrc (s : State) : Nat :=
  crc32c (((List.range 16).filter (fun v => s.span.tw.cfgVats.getLsbD v)).flatMap (fun v => (s.planOf v).bytes))

/-- The body of a LINK frame (R458, R476). -/
def State.linkUnit (s : State) (p sub : Nat) : Nat :=
  let y := s.port p
  let twin := p == twinPort
  let base := sub + s.span.node * 2 ^ 4 + p * 2 ^ 21 + (List.range 9).foldl (fun t i => t + y.poolSize twin i * 2 ^ (24 + 16 * i)) 0
  if sub = 3 then 3
  else if twin then base + (if s.span.tw.want then 2 else 1) * 2 ^ 168 + s.span.tw.cfgVats.toNat * 2 ^ 170 + s.planCrc * 2 ^ 186
  else base

/-- A LINK frame of a subkind. -/
def State.linkFrame (s : State) (p sub : Nat) : TxFrame :=
  { f := { kind := 3, dst := (s.port p).peer, src := s.span.node, unit := s.linkUnit p sub } }

/-! ## Reception (R447-R454) -/

/-- A frame breaks R454: counted and logged, and on a span port a request is answered with E_FORMAT. (DESIGN CHOICE, log entry 54) -/
def State.badFrame (s : State) (p : Nat) (f : Frame) (pool cells : Nat) : State :=
  let s1 := (s.modPort p (fun y => { y with badFrame := satAdd top16 y.badFrame 1 })).log (srcPort p) evDropped eFormat none 0 f.kind
  let s2 := if f.kind = 3 then s1 else s1.modPort p (fun y => { y with freed := y.freed.upd 0 pool (fun n => (n + cells) % 1024) })
  if p != twinPort && refusable f.kind then s2.refuseFrame f eFormat else s2

/-- A frame that may not be forwarded: counted, and a request answered (R461, R462). (DEDUCED, log entry 55) -/
def State.transitRefuse (s : State) (p : Nat) (f : Frame) (status : Nat) : State :=
  let s1 : State := { s with span :=
    if status = ePermission then { s.span with permDrops := satAdd top16 s.span.permDrops 1 } else { s.span with routeDrops := satAdd top16 s.span.routeDrops 1 } }
  let s2 := s1.log (srcPort p) evDropped status none 0 f.kind
  if refusable f.kind then s2.refuseFrame f status else s2

/-- Forward a frame for another node (R461, R462). (DEDUCED, log entry 55) -/
def State.transit (s : State) (p : Nat) (f : Frame) : State :=
  let hops := f.hops + 1
  if !(s.port p).perm.fwd then s.transitRefuse p f ePermission
  else match s.spanRoute f.dst with
    | none => s.transitRefuse p f eRange
    | some q =>
      if q = p || s.span.maxHops < hops then s.transitRefuse p f eRange
      else if (s.port q).st != .up then (if refusable f.kind then s.refuseFrame f eTimeout else if f.kind = 1 then s.syncLost none else s)
      else s.queueTx q { f := { f with hops := hops } }

/-- A whole frame has arrived: it waits for its command, or is forwarded (R456, R461). -/
def State.rxFrame (s : State) (p : Nat) (prio : Bool) (bs : List Byte) : State :=
  let twin := p == twinPort
  let (f, ok) := parseFrame twin bs
  let pool := if prio then 8 else poolOf twin f
  let cells := bs.length / 64
  if !ok || prio != isPrio f.kind then s.badFrame p f pool cells
  else
    let y := s.port p
    let g := { f with dl := f.dl || (y.datelineOn && !twin) }
    let x : RxFrame := { f := g, pool := pool, cells := cells, tick := s.clk.gtc, stamped := y.noStamp == 0 }
    if twin || f.kind = 2 || f.kind = 3 || f.dst = s.span.node then s.modPort p (fun y => { y with rxq := y.rxq ++ [x] })
    else (s.freeCells p x).transit p g

/-- Does a cell begin with 16 zero bytes (R449)? -/
def idleCell (c : List Byte) : Bool := (c.take 16).all (· == 0)

/-- One cell arrives (R449). -/
def State.rxCell (s : State) (p : Nat) (prio : Bool) (c : List Byte) : State :=
  let y := s.port p
  if prio then (if idleCell c then s else s.rxFrame p true c)
  else if y.rxNeed = 0 then
    let n := fld (leNat (c.take 2)) 8 7
    if idleCell c then s
    else if n ≤ 1 then s.rxFrame p false c
    else s.modPort p (fun y => { y with rxPart := c, rxNeed := n - 1 })
  else
    let bs := y.rxPart ++ c
    if y.rxNeed = 1 then (s.modPort p (fun y => { y with rxPart := [], rxNeed := 0 })).rxFrame p false bs
    else s.modPort p (fun y => { y with rxPart := bs, rxNeed := y.rxNeed - 1 })

/-- The flits of an accepted pair (R449). -/
def State.rxFlits (s : State) (p : Nat) (x : Pair) : State :=
  (List.range 20).foldl (fun s i => s.rxCell p (bit x.pflit (i / 4)) ((x.data.drop (64 * i)).take 64)) s

/-- Held pairs that an ack covers leave the replay store, and the round trip of the last is measured (R448, Table 14.12). -/
def SpanPort.takeAck (y : SpanPort) (ack : Nat) (now : W64) : SpanPort :=
  match y.held.find? (fun h => h.seq == ack) with
  | some h => { y with held := (y.held.dropWhile (fun k => k.seq != ack)).drop 1, rt := min 0xFFFF (now - h.sentAt).toNat }
  | none => y

/-- A nak: the first for its ack, or one that comes after its resend has reached ack + 1, resends every held pair (R448). -/
def SpanPort.takeNak (y : SpanPort) (ack : Nat) : SpanPort :=
  let reached := match y.held.head? with | some h => !(y.resend.any (fun k => k.seq == h.seq)) | none => true
  let again := y.lastNak == some ack
  { y with lastNak := some ack, nakRun := if again then y.nakRun + 1 else 1, resend := if !again || reached then y.held else y.resend }

/-- The CCWs of a good pair (R446, R448, R455). -/
def SpanPort.takeCcw (y : SpanPort) (x : Pair) (now : W64) : SpanPort :=
  let y1 := y.takeAck (x.ack % 256) now
  let y2 := if x.nak then y1.takeNak (x.ack % 256) else { y1 with lastNak := none, nakRun := 0 }
  let d := (x.freed + 1024 - y2.lastRep.get 0 x.pool) % 1024
  { y2 with credit := if y.st = .up && x.pool ≤ 8 then y2.credit.upd 0 x.pool (· + d) else y2.credit,
            lastRep := if x.pool ≤ 8 then y2.lastRep.put x.pool x.freed else y2.lastRep,
            badRun := 0, goodRun := y2.goodRun + 1, noStamp := y2.noStamp - 1 }

/-- Corrected symbols and bad pairs are counted and reported (R471). (DESIGN CHOICE, log entry 54; DEDUCED, log entry 123) -/
def State.countCorrected (s : State) (p n : Nat) : State :=
  if n = 0 then s else (s.modPort p (fun y => { y with corrected := y.corrected + n })).log (srcPort p) evCorrected eOk none 0 n

/-! ## Composition (R446, R449, R453, R455, R500) -/

/-- The client of a frame in the fair queueing of R500: the vat, or 16 the system client. -/
def TxFrame.client (x : TxFrame) : Nat := x.vat.getD 16

/-- The span share of a client. -/
def State.spanShare (s : State) (k : Nat) : Nat := if k = 16 then s.hub.shareSysSpan else (s.vat k).shareSpan

/-- Log units a frame needs at the mirror (R485). -/
def TxFrame.units (x : TxFrame) : Nat := if x.f.kind = 8 then cdiv x.f.len 256 + 1 else if x.f.kind = 9 then cdiv x.f.len 192 else 0

/-- Does a request of a span port need a tag (R467)? -/
def needsTag (twin : Bool) (f : Frame) : Bool := !twin && (f.kind == 9 || f.kind == 0xA)

/-- May an ordinary frame be sent now: complete, with credit, a tag, and at the twin port the mirror's units (R455, R467, R485)? -/
def State.canSend (s : State) (p : Nat) (x : TxFrame) : Bool :=
  let y := s.port p
  let twin := p == twinPort
  !x.joining && x.f.cells twin ≤ y.credit.get 0 (poolOf twin x.f) && (!(needsTag twin x.f) || x.f.hops != 0 || y.tags.length < 4096)
  && (!twin || x.units ≤ (s.vat (x.vat.getD 0)).tw.freeUnits)

/-- The frames of a channel that may go: of each client and pool the oldest; at the twin port the oldest of the channel. -/
def State.ready (s : State) (p vc : Nat) : List TxFrame :=
  let twin := p == twinPort
  let l := (s.port p).txq.filter (fun x => !(isPrio x.f.kind) && vcOf twin x.f.kind == vc)
  let firsts := l.foldl (fun acc x => if acc.any (fun y => twin || (y.client == x.client && poolOf twin y.f == poolOf twin x.f)) then acc else acc ++ [x]) []
  firsts.filter (s.canSend p)

/-- The client with least virtual time among those a list names; ties go to the lowest vat, the system client last (R368). -/
def leastVt (vt : Table Nat) (cs : List Nat) : Option Nat :=
  cs.foldl (fun b k => match b with
    | none => some k
    | some j => if vt.get 0 k < vt.get 0 j || (vt.get 0 k == vt.get 0 j && k < j) then some k else b) none

/-- Choose the client of a channel by weighted fair queueing, with its new virtual time (R368, R500). -/
def State.fairPick (s : State) (p : Nat) (l : List TxFrame) : Option TxFrame :=
  let vt := (s.port p).vt
  let e := l.map TxFrame.client
  let pos := e.filter (fun k => 0 < s.spanShare k)
  (leastVt vt (if pos.isEmpty then e else pos)).bind (fun k => l.find? (fun x => x.client == k))

/-- The channel served next: the lowest aged channel with a frame ready, else the lowest (R455). -/
def State.pickVc (s : State) (p : Nat) : Option Nat :=
  let vs := [0, 1, 2, 3].filter (fun v => !(s.ready p v).isEmpty)
  match vs.find? (fun v => 16 ≤ (s.port p).age.get 0 v) with
  | some v => some v
  | none => vs.head?

/-- The ordinary frame sent next. -/
def State.pickFrame (s : State) (p : Nat) : Option TxFrame :=
  (s.pickVc p).bind (fun v => if p = twinPort then (s.ready p v).head? else s.fairPick p (s.ready p v))

/-- Stamps that a frame takes as it leaves: TREQ, TRSP and BEAT (R336, R469, Table 15.4). -/
def State.stampTx (s : State) (p : Nat) (x : TxFrame) : State × TxFrame :=
  let u := x.f.unit
  if x.f.kind = 2 then
    if fld u 0 4 = 1 then ({ s with hub := { s.hub with gs := { s.hub.gs with t1 := some s.clk.gtc } } }, x)
    else (s, { x with f := { x.f with unit := u + s.clk.gtc.toNat * 2 ^ 128 } })
  else if x.f.kind = 1 && p = twinPort then (s, { x with f := { x.f with unit := u + s.clk.gtc.toNat * 2 ^ 64 } })
  else (s, x)

/-- The lowest free tag of a port. -/
def SpanPort.freeTag (y : SpanPort) : Nat := ((List.range 4096).find? (fun t => !(y.tags.any (fun q => q.1 == t)))).getD 0

/-- A frame starts to leave a port: it leaves the queue, spends credit, takes a tag, moves its client's virtual time, and is charged to
the vat that originates it (R455, R467, R500, R501). -/
def State.startTx (s : State) (p : Nat) (x : TxFrame) : State × TxFrame :=
  let twin := p == twinPort
  let cells := x.f.cells twin
  let y := s.port p
  let own := needsTag twin x.f && x.f.hops == 0
  let tag := y.freeTag
  let x1 := if own then { x with f := { x.f with tag := tag } } else x
  let k := x.client
  let vmin := (leastVt y.vt ((y.txq.filter (fun z => !(isPrio z.f.kind))).map TxFrame.client)).map (y.vt.get 0)
  let s1 := s.modPort p (fun y =>
    { y with txq := y.txq.erase x, credit := if x.f.kind = 3 then y.credit else y.credit.upd 0 (poolOf twin x.f) (· - cells),
             vt := if isPrio x.f.kind || twin then y.vt else y.vt.put k (max (y.vt.get 0 k) (vmin.getD 0) + cells * 65536 / max (s.spanShare k) 1),
             tags := if own then y.tags.put tag { who := x.who, read := x.f.kind == 9, unit := x.f.unit, sentAt := s.clk.gtc, vat := x.vat, badAt := x.badAt } else y.tags })
  let s2 := match x.vat with
    | some v =>
      if twin then (s1.account v 16 (64 * cells)).modVat v (fun z => { z with tw := { z.tw with freeUnits := z.tw.freeUnits - x.units } })
      else s1.account v 12 (64 * cells)
    | none => s1
  s2.stampTx p x1

/-- A pair being composed: its bytes, priority flits, the frames whose last cell it carries, and whether it carries a frame. -/
structure Compose where
  bytes : List Byte := []
  pflit : Nat := 0
  frames : List TxFrame := []
  used : Bool := false
  deriving DecidableEq, Repr

/-- The next priority frame of a port: before UP only LINK frames leave. -/
def State.pickPrio (s : State) (p : Nat) : Option TxFrame :=
  let y := s.port p
  y.txq.find? (fun x => isPrio x.f.kind && (x.f.kind == 3 || (y.st == .up && 1 ≤ y.credit.get 0 8)))

/-- Up to `n` cells of priority frames. -/
def State.fillPrio (p : Nat) : Nat → State → Compose → State × Compose
  | 0, s, k => (s, k)
  | n + 1, s, k =>
    match s.pickPrio p with
    | some x =>
      let (s1, x1) := s.startTx p x
      State.fillPrio p n s1 { k with bytes := k.bytes ++ x1.f.bytes (p == twinPort), frames := k.frames ++ [x1], used := true }
    | none => State.fillPrio p n s { k with bytes := k.bytes ++ List.replicate 64 0 }

/-- One cell of the ordinary frame in progress. -/
def State.sendCell (s : State) (p : Nat) (x : TxFrame) (rest : List Byte) (k : Compose) : State × Compose :=
  let left := rest.drop 64
  (s.modPort p (fun y => { y with txCur := if left.isEmpty then none else some (x, left) }),
   { k with bytes := k.bytes ++ rest.take 64, frames := if left.isEmpty then k.frames ++ [x] else k.frames, used := true })

/-- Up to `n` cells of ordinary frames, whole frames one after another (R455). -/
def State.fillOrd (p : Nat) : Nat → State → Compose → State × Compose
  | 0, s, k => (s, k)
  | n + 1, s, k =>
    let (s1, k1) :=
      match (s.port p).txCur with
      | some (x, rest) => s.sendCell p x rest k
      | none =>
        match (if (s.port p).st = .up then s.pickFrame p else none) with
        | some x =>
          let (s1, x1) := s.startTx p x
          s1.sendCell p x1 (x1.f.bytes (p == twinPort)) k
        | none => (s, { k with bytes := k.bytes ++ List.replicate 64 0 })
    State.fillOrd p n s1 k1

/-- Ages of the channels after a flit: one that is ready and was not served grows older (R455). -/
def State.ageVcs (s : State) (p : Nat) (served : List TxFrame) : State :=
  let twin := p == twinPort
  let vs := served.map (fun x => vcOf twin x.f.kind)
  let age := [0, 1, 2, 3].foldl (fun (t : Table Nat) v => Table.put t v (if !(s.ready p v).isEmpty && !(vs.contains v) then (s.port p).age.get 0 v + 1 else 0)) ([] : Table Nat)
  s.modPort p (fun y => { y with age := age })

/-- Flit `i` of a pair: priority frames go first at every flit boundary (R449, R455). -/
def State.flit (p : Nat) (r : State × Compose) (i : Nat) : State × Compose :=
  let (s, k) := r
  if (s.pickPrio p).isSome then
    let (s1, k1) := State.fillPrio p 4 s { k with pflit := k.pflit + 2 ^ i }
    (s1.ageVcs p ((s1.port p).txCur.map (fun c => [c.1]) |>.getD []), k1)
  else
    let cur := (s.port p).txCur.map (fun c => [c.1]) |>.getD []
    let (s1, k1) := State.fillOrd p 4 s k
    (s1.ageVcs p (cur ++ k1.frames.drop k.frames.length ++ ((s1.port p).txCur.map (fun c => [c.1]) |>.getD [])), k1)

/-- Send a pair with fresh CCWs (R446). -/
def State.sendPair (s : State) (p seq pflit : Nat) (idle : Bool) (data : List Byte) : State :=
  let y := s.port p
  let pr : Pair := { seq := seq, ack := (y.rxSeq + 255) % 256, nak := y.nakOut, idle := idle, pflit := pflit, pool := y.nextPool,
                     freed := y.freed.get 0 y.nextPool, data := data }
  (s.modPort p (fun y => { y with nextPool := (y.nextPool + 1) % 9, noStamp := if y.nakOut then 256 else y.noStamp })).send (.pair p pr)

/-- Compose and send the next new pair (R448, R449). -/
def State.newPair (s : State) (p : Nat) : State :=
  let r := (List.range 5).foldl (State.flit p) (s, {})
  let s1 := r.1
  let k := r.2
  let y := s1.port p
  if !k.used then s1.sendPair p ((y.txSeq + 255) % 256) 0 true (List.replicate 1280 0)
  else
    (s1.sendPair p y.txSeq k.pflit false k.bytes).modPort p (fun y =>
      { y with txSeq := (y.txSeq + 1) % 256,
               held := y.held ++ [{ seq := y.txSeq, pflit := k.pflit, data := k.bytes, frames := k.frames, sentAt := s.clk.gtc }] })

end Sys2Proof.Machine
end

