-- ==== Sys2Proof/Machine/Links.lean ====
section
/-! DEFINITION. The commands of the span links: pairs, link states, HELLO, enabling a port (R446-R459). -/

namespace Sys2Proof.Machine

/-- Is the link of a port carrying codewords? -/
def LinkSt.live (x : LinkSt) : Bool := x == .align || x == .hello || x == .up

/-- A pair arrives (R447, R448): a bad one is counted and asks for a resend; a good one's CCWs are acted on, and its flits taken when it
is the one expected. `corrected` counts the symbols the decoder corrected. -/
def execPairReceive (port : Nat) (x : Option Pair) (corrected : Nat) (s : State) : Res :=
  let y := s.port port
  .next (if !y.st.live then s
    else
      let s1 := s.countCorrected port corrected
      match x with
      | none =>
        (s1.modPort port (fun y => { y with badPair := satAdd top16 y.badPair 1, badRun := y.badRun + 1, goodRun := 0, nakOut := y.st != .align || y.nakOut,
                                            noStamp := y.noStamp - 1 })).log (srcPort port) evDropped eOk none 0 0
      | some x =>
        let s2 := s1.modPort port (fun y => y.takeCcw x s.clk.gtc)
        if y.st = .align || x.idle then s2
        else if x.seq % 256 = y.rxSeq then (s2.modPort port (fun y => { y with rxSeq := (y.rxSeq + 1) % 256, nakOut := false })).rxFlits port x
        else s2.modPort port (fun y => { y with nakOut := true }))

/-- A port sends its next pair (R446, R448): a pair due for resending, an idle pair while 255 are held, else a new one. -/
def execPairSend (port : Nat) (s : State) : Res :=
  let y := s.port port
  .next (if !y.st.live then s
    else if y.st = .align then s.sendPair port ((y.txSeq + 255) % 256) 0 true (List.replicate 1280 0)
    else match y.resend with
      | h :: rest =>
        ((s.modPort port (fun y => { y with resend := rest, resends := satAdd top16 y.resends 1 })).sendPair port h.seq h.pflit false h.data).log
          (srcPort port) evCorrected eOk none 0 h.seq
      | [] => if 255 ≤ y.held.length then s.sendPair port ((y.txSeq + 255) % 256) 0 true (List.replicate 1280 0) else s.newPair port)

/-- A retrain cause takes a link from UP to TRAIN: 32 bad pairs in a row, or 16 naks in a row for one ack (R457). -/
def execRetrain (port : Nat) (s : State) : Res :=
  let y := s.port port
  .next (if y.st = .up && (32 ≤ y.badRun || 16 ≤ y.nakRun) then s.linkTo port .train else s)

/-- Loss of signal on a lane sends the link to DOWN (R457). -/
def execLossOfSignal (port : Nat) (s : State) : Res :=
  let y := s.port port
  .next (if y.st = .train || y.st.live then s.linkTo port .down else s)

/-- Signal on all lanes: DOWN to TRAIN (R457). -/
def execSignalDetect (port : Nat) (s : State) : Res := .next (if (s.port port).st = .down && !s.boot.extest then s.linkTo port .train else s)

/-- Enter ALIGN with nothing of a former link. (DEDUCED, log entry 52) -/
def State.toAlign (s : State) (port : Nat) : State :=
  (s.modPort port (fun y => { y.fresh with txq := y.txq.filter (fun x => !(isPrio x.f.kind)) })).linkTo port .align

/-- Training completes: TRAIN to ALIGN (R457). -/
def execTrainingComplete (port : Nat) (s : State) : Res := .next (if (s.port port).st = .train then s.toAlign port else s)

/-- Is a link still in a state `n` ticks after it entered it? -/
def State.overdue (s : State) (port : Nat) (st : LinkSt) (n : Nat) : Bool :=
  (s.port port).st == st && (s.port port).since.toNat + n ≤ s.clk.gtc.toNat

/-- 500 ms in TRAIN: back to DOWN (R457). -/
def execTrainTimeout (port : Nat) (s : State) : Res := .next (if s.overdue port .train 500000000 then s.linkTo port .down else s)

/-- 64 consecutive good pairs: ALIGN to HELLO, with the lane order found; a HELLO is queued (R443, R457, R458). -/
def execAlignComplete (port : Nat) (reversed : Bool) (s : State) : Res :=
  let y := s.port port
  .next (if y.st = .align && 64 ≤ y.goodRun then
      let s1 := (s.modPort port (fun y => { y with reversed := reversed })).linkTo port .hello
      s1.modPort port (fun y => { y with txq := s1.linkFrame port 1 :: y.txq })
    else s)

/-- 1 ms in ALIGN: back to TRAIN (R457). -/
def execAlignTimeout (port : Nat) (s : State) : Res := .next (if s.overdue port .align 1000000 then s.linkTo port .train else s)

/-- The checks of R458, and on the twin port those of R476, in order: none, or the status of the check that failed. (DEDUCED, log entry 53) -/
def State.helloCheck (s : State) (port u : Nat) : Option Nat :=
  let y := s.port port
  let t := s.span.tw
  let twin := port == twinPort
  let sum := (List.range 9).foldl (fun n i => n + fld u (24 + 16 * i) 16) 0
  if fld u 4 17 = s.span.node then some ePermission
  else if !twin && y.expect && fld u 4 17 != y.peerNode then some ePermission
  else if !(if twin then t.cfgEn else y.perm.en) then some ePermission
  else if (if twin then 16384 else 8192) < sum then some eFormat
  else if !twin then none
  else if fld u 4 17 != t.cfgPeer then some ePermission
  else if fld u 168 2 != (if t.want then 1 else 2) then some eState
  else if fld u 170 16 != t.cfgVats.toNat || fld u 186 32 != s.planCrc then some eFormat
  else none

/-- A pairing fails: SINGLE, with its status (R476). (DESIGN CHOICE, log entry 54) -/
def State.pairFail (s : State) (status : Nat) : State :=
  if s.span.tw.st != .pairing then s
  else
    let h := s.span.tw.host
    ({ s with span := { s.span with tw := { s.span.tw with st := .single, status := status, host := none } } } : State).hostFinish h status 0 0

/-- A pairing succeeds: ACTIVE or MIRROR by role (R476, R477). -/
def State.pairDone (s : State) : State :=
  let t := s.span.tw
  if t.st != .pairing then s
  else
    ({ s with span := { s.span with tw := { t with st := if t.want then .mirror else .active, role := t.want, status := eOk, host := none,
                                                   lastBeat := s.clk.gtc } } } : State).hostFinish t.host eOk 0 0

/-- Entry to UP: the peer's pools are the credit held, and the dateline bit takes effect (R455, R456). -/
def State.toUp (s : State) (port u : Nat) : State :=
  let s1 := (s.modPort port (fun y => { y with datelineOn := y.dateline, credit := (List.range 9).map (fun i => (i, fld u (24 + 16 * i) 16)) })).linkTo port .up
  if port = twinPort then s1.pairDone else s1

/-- A HELLO or HELLO_ACK is checked (R458): a failed check ends in FAILED; a HELLO is answered; the answer brings the link UP. (DEDUCED, log entry 53) -/
def execHello (port : Nat) (s : State) : Res :=
  .next (match s.takeFrame port (fun f => f.kind == 3 && (fld f.unit 0 4 == 1 || fld f.unit 0 4 == 2)) with
    | none => s
    | some (x, s1) =>
      let u := x.f.unit
      if (s.port port).st != .hello && (s.port port).st != .up then s1
      else match s1.helloCheck port u with
        | some e =>
          let s2 := (s1.linkTo port .failed).log (srcPort port) evLink e none (fld u 4 17) LinkSt.failed.code
          if port = twinPort then s2.pairFail e else s2
        | none =>
          let s2 := s1.modPort port (fun y => { y with peer := fld u 4 17, peerPort := fld u 21 3 })
          if fld u 0 4 = 1 then s2.modPort port (fun y => { y with txq := s2.linkFrame port 2 :: y.txq })
          else if (s.port port).st = .hello then s2.toUp port u
          else s2)

/-- 100 µs in HELLO without an answer: back to TRAIN (R457). -/
def execHelloTimeout (port : Nat) (s : State) : Res := .next (if s.overdue port .hello 100000 then s.linkTo port .train else s)

/-- A LINK DOWN frame: UP to DOWN (R457). -/
def execLinkDownFrame (port : Nat) (s : State) : Res :=
  .next (match s.takeFrame port (fun f => f.kind == 3 && fld f.unit 0 4 == 3) with
    | none => s
    | some (_, s1) => if (s.port port).st = .up then s1.linkTo port .down else s1)

/-- SPAN_PORT_CTL is written (R457, Table 14.11): en 1 takes DISABLED to DOWN once the device is sealed (R599); en 0 sends a LINK DOWN frame from UP and disables. -/
def State.portCtl (s : State) (port x : Nat) : State :=
  let s1 := s.modPort port (fun y => { y with en := bit x 0, dateline := bit x 1, expect := bit x 2, peerNode := fld x 3 17 })
  let y := s1.port port
  if bit x 0 then (if y.st = .disabled && s.boot.sealed then s1.linkTo port .down else s1)
  else if y.st = .disabled then s1
  else
    let s2 := if y.st = .up then
        s1.sendPair port y.txSeq 1 false ((s1.linkFrame port 3).f.bytes false ++ List.replicate 1216 0)
      else s1
    s2.linkTo port .disabled

/-- A write of SPAN_PORT_CTL (R457). -/
def execSpanPortEnable (port x : Nat) (s : State) : Res := .next (if port < 6 then s.portCtl port x else s)

/-- Joining stops 8 cycles after the last packet that joined (R453). -/
def execFrameJoinTimeout (port : Nat) (s : State) : Res :=
  .next (s.modPort port (fun y => { y with txq := y.txq.map (fun x =>
    if x.joining && x.joinAt + 8 ≤ s.clk.fast.toNat then { x with joining := false } else x) }))

end Sys2Proof.Machine
end

