-- ==== Sys2Proof/Machine/Span.lean ====
section
/-! DEFINITION. The frames of the span links (R463-R468): admission, remote accesses, channel frames, sync frames, refusals, timeouts. -/

namespace Sys2Proof.Machine

/-! ## Admission (R463, R465, Table 14.7) -/

/-- Does a port's SPAN_PERM let in a source node with an enable bit (R463)? -/
def SpanPerm.admits (p : SpanPerm) (src : Nat) (en : Bool) : Bool := p.lo ≤ src && src ≤ p.hi && en

/-- The vats that hold a job. (DEDUCED, log entry 57) -/
def State.jobVats (s : State) (job : Nat) : List Nat := (List.range 16).filter (fun v => (s.vat v).jobValid && (s.vat v).jobId == job)

/-- Export windows of a vat that cover a range with a right. (DEDUCED, log entry 57) -/
def State.covers (s : State) (v a n : Nat) (write : Bool) : List Export :=
  ((List.range 16).map (s.export_ v)).filter (fun x => (if write then x.wr else x.rd) && x.base ≤ a && a + n ≤ x.base + 4096 * x.npages)

/-- The core whose scratchpad holds an address of the window. -/
def State.spadCore (s : State) (a : Nat) : Option Nat :=
  match targetOf a with
  | .spad cl l _ => if l = 63 then none else s.physOf cl l
  | _ => none

/-- The rights of a USER core of vat `v` to one address (R29, Table 3.7): registers belong to a core of its own, so none here. (DEDUCED, log entry 58) -/
def State.userRight (s : State) (v a : Nat) : Nat :=
  match targetOf a with
  | .stack x => if s.stackOwner x = some v then eOk else ePermission
  | .spad cl l _ =>
    match (if l = 63 then none else s.physOf cl l) with
    | none => eRange
    | some c => if s.ownerOf cl = some v && (s.vatmanVat c).isNone then eOk else ePermission
  | .reg _ => ePermission
  | _ => eRange

/-- Is a range in a scratchpad of a vat RUNNING in deterministic mode (Table 14.7, check 3)? -/
def State.inDetSpad (s : State) (a n : Nat) : Bool :=
  let hit := fun (a : Nat) => match s.spadCore a with | some c => s.detNow c | none => false
  hit a || hit (a + (n - 1))

/-- The checks of Table 14.7 on a remote request: the vat, or the status of the first that fails. (DEDUCED, log entry 58) -/
def State.frameAdmit (s : State) (port : Nat) (f : Frame) (write : Bool) : Except (Nat × Option Nat) Nat :=
  let p := (s.port port).perm
  let a := fld f.unit 0 48
  let n := f.len
  let vs := s.jobVats f.job
  if !(p.admits f.src p.win) then .error (ePermission, none)
  else if vs.isEmpty then .error (ePermission, none)
  else if s.inDetSpad a n then .error (eState, vs.head?)
  else match vs.find? (fun v => !(s.covers v a n write).isEmpty) with
    | none => .error (ePermission, vs.head?)
    | some v =>
      if !((s.covers v a n write).any (·.open_)) then .error (eWindowClosed, some v)
      else if s.userRight v a != eOk then .error (s.userRight v a, some v)
      else if s.userRight v (a + (n - 1)) != eOk then .error (s.userRight v (a + (n - 1)), some v)
      else .ok v

/-- A frame that fails R463 is counted; every refusal is logged and answered (R463, R465). -/
def State.frameRefuse (s : State) (port : Nat) (f : Frame) (status : Nat) (perm : Bool) (vat : Option Nat) : State :=
  let s1 : State := if perm then { s with span := { s.span with permDrops := satAdd top16 s.span.permDrops 1 } } else s
  (s1.log (srcPort port) evRefused status vat (fld f.unit 0 48) f.kind).refuseFrame f status

/-- Bytes of the cells of an admitted frame are charged to its vat (Table 16.3). -/
def State.chargeRx (s : State) (v : Nat) (x : RxFrame) : State := s.account v 13 (64 * x.cells)

/-- Poison received in a frame is created here: logged with its source node, and recorded for the vat that meets it (R556). -/
def State.poisonIn (s : State) (port v a : Nat) (f : Frame) : State :=
  match f.bad.head? with
  | some w => (s.log (srcPort port) evPoisonIn ePoison (some v) (a + 4 * w) f.src).poisonOrigin v (srcPort port) (a + 4 * w)
  | none => s

/-- The state a core's own access would meet at a scratchpad or stack address of vat `v` (R318, R357). (DEDUCED, log entry 57; DEDUCED, log entry 58) -/
def State.accessState (s : State) (v a : Nat) : Nat :=
  if (s.vat v).st == .wiping || (s.vat v).st == .faulted then eState
  else match s.spadCore a with
    | some c => if s.deckled (clusterOf c) then eState else eOk
    | none => eOk

/-- Read `n` bytes of an admitted range: data and poisoned byte offsets. -/
def State.remoteRead (s : State) (v a n : Nat) : State × List Byte × NSet :=
  match s.spadCore a with
  | some c =>
    let o := fld a 0 19
    (s.noteRead c o n, (s.spad c).mem.readBytes o n, (List.range n).filter (fun i => (s.spad c).badAt (o + i)))
  | none => ((s.noteStack (some v) a n).accountStk v 0 (chargeOf a n), s.stackRead a n, s.stackBadOffs a n)

/-- Write bytes to an admitted range. -/
def State.remoteWrite (s : State) (v a : Nat) (data : List Byte) (bad : Nat → Bool) : State :=
  match s.spadCore a with
  | some c => s.spadPut c (fld a 0 19) data bad
  | none => (s.stackPut a data bad).accountStk v 1 (chargeOf a data.length)

/-- The parts of a range within 256 B blocks: offset and length (R453). -/
def blocksOf (a n : Nat) : List (Nat × Nat) :=
  if n = 0 then []
  else (List.range ((a + n - 1) / 256 - a / 256 + 1)).map (fun i =>
    let lo := max a (256 * (a / 256 + i))
    let hi := min (a + n) (256 * (a / 256 + i + 1))
    (lo - a, hi - lo))

/-- The parts of a range within 4 KiB granules: offset and length (R355). -/
def granulesOf (a n : Nat) : List (Nat × Nat) :=
  if n = 0 then []
  else (List.range ((a + n - 1) / 4096 - a / 4096 + 1)).map (fun i =>
    let lo := max a (4096 * (a / 4096 + i))
    let hi := min (a + n) (4096 * (a / 4096 + i + 1))
    (lo - a, hi - lo))

/-! ## Requests and answers -/

/-- An RREAD is admitted and read, or refused whole (R465). -/
def execRread (port : Nat) (s : State) : Res :=
  .next (match s.takeFrame port (fun f => f.kind == 9) with
    | none => s
    | some (x, s1) =>
      let f := x.f
      let a := fld f.unit 0 48
      let back : Frame := { kind := 4, dst := f.src, src := s.span.node, job := f.job, tag := f.tag }
      match s1.frameAdmit port f false with
      | .error (st, v) => s1.frameRefuse port f st (!((s.port port).perm.admits f.src (s.port port).perm.win)) v
      | .ok v =>
        if !(s1.spadAwake a) then s.wakeSpad a
        else
        let s2 := s1.chargeRx v x
        let st := s2.accessState v a
        if st != eOk then s2.egress { f := { back with status := st } }
        else
          let (s3, data, bad) := s2.remoteRead v a f.len
          s3.egress { f := { back with len := f.len, data := data, bad := badWords (fun i => bad.has i) 0 f.len } })

/-- An RWRITE is admitted and carried out as WRITEs within 256 B blocks, answered with one RACK; or refused whole (R453, R465, R466). -/
def execRwrite (port : Nat) (s : State) : Res :=
  .next (match s.takeFrame port (fun f => f.kind == 0xA) with
    | none => s
    | some (x, s1) =>
      let f := x.f
      let a := fld f.unit 0 48
      match s1.frameAdmit port f true with
      | .error (st, v) =>
        let s2 := match v with
          | some v => if st = eWindowClosed then { s1 with span := { s1.span with lateWrites := s1.span.lateWrites.upd 0 v (fun n => satAdd top32 n 1) } } else s1
          | none => s1
        s2.frameRefuse port f st (!((s.port port).perm.admits f.src (s.port port).perm.win)) v
      | .ok v =>
        if !(s1.spadAwake a) then s.wakeSpad a
        else
        let s2 := (s1.chargeRx v x).poisonIn port v a f
        let r := (blocksOf a f.len).foldl (fun (r : State × Nat) b =>
          let st := r.1.accessState v (a + b.1)
          if st != eOk then (r.1, if r.2 = eOk then st else r.2)
          else (r.1.remoteWrite v (a + b.1) ((f.data.drop b.1).take b.2) (fun i => f.bad.has ((b.1 + i) / 4)), r.2)) (s2, eOk)
        r.1.egress { f := { kind := 5, dst := f.src, src := s.span.node, job := f.job, tag := f.tag, status := r.2 } })

/-- A response for a free tag, or at or after the deadline, is discarded and counted (R467). (DEDUCED, log entry 59) -/
def State.lateFrame (s : State) : State := { s with span := { s.span with late := satAdd top16 s.span.late 1 } }

/-- The outstanding request a response answers, within its deadline (R467). -/
def State.answered (s : State) (port : Nat) (f : Frame) (read : Bool) : Option TagEnt :=
  match (s.port port).tags.find? (fun t => t.1 == f.tag) with
  | some t => if t.2.read == read && s.clk.gtc.toNat < t.2.sentAt.toNat + s.span.reqTo then some t.2 else none
  | none => none

/-- Charge a response to the vat of its request. -/
def State.chargeTag (s : State) (t : TagEnt) (x : RxFrame) : State :=
  match t.vat with
  | some v => s.chargeRx v x
  | none => s

/-- RDATA completes its tag's READ (R467). -/
def execRdata (port : Nat) (s : State) : Res :=
  .next (match s.takeFrame port (fun f => f.kind == 4) with
    | none => s
    | some (x, s1) =>
      match s1.answered port x.f true with
      | none => s1.lateFrame
      | some t =>
        let s2 := (s1.modPort port (fun y => { y with tags := y.tags.del x.f.tag })).chargeTag t x
        let bad := (List.range x.f.data.length).filter (fun i => x.f.bad.has (i / 4))
        let s3 := match t.vat with | some v => s2.poisonIn port v (fld t.unit 0 48) x.f | none => s2
        t.who.foldl (fun s w => s.send (.spanAnswer w x.f.status x.f.data bad)) s3)

/-- RACK completes its tag's WRITEs with its status (R453, R467). -/
def execRack (port : Nat) (s : State) : Res :=
  .next (match s.takeFrame port (fun f => f.kind == 5) with
    | none => s
    | some (x, s1) =>
      match s1.answered port x.f false with
      | none => s1.lateFrame
      | some t => ((s1.modPort port (fun y => { y with tags := y.tags.del x.f.tag })).chargeTag t x).answerAll t.who x.f.status)

/-! ## Channel frames (R453, R463) -/

/-- The core of a channel frame: the connection's on path 3 where the header names a connection of this device, else the one the frame
names. -/
def State.frameCore (s : State) (f : Frame) : Nat × Nat :=
  let id := fld f.unit 48 24
  let k := s.conn (id % 4096)
  if id != 0 && k.opened && k.gen == id / 4096 && f.dstCl = 0 && f.dstCore = 0 then (clusterOf k.core, (s.logOf k.core).getD 0) else (f.dstCl, f.dstCore)

/-- Charge a channel frame to the vat that owns its core's cluster, and record poison it brings. -/
def State.chanRx (s : State) (port : Nat) (x : RxFrame) (cl : Nat) : State :=
  match s.ownerOf cl with
  | some v => (s.chargeRx v x).poisonIn port v 0 x.f
  | none => s

/-- The packets of 240 B a CHAN frame is split into (R453). -/
def splitChan (m : ChMsg) : List ChMsg :=
  let n := max 1 (cdiv m.data.length 240)
  (List.range n).map (fun i =>
    { m with off := m.off + 240 * i, last := m.last && i + 1 == n, ackReq := m.ackReq && i + 1 == n, data := (m.data.drop (240 * i)).take 240,
             bad := (m.bad.filter (fun b => 240 * i ≤ b && b < 240 * i + 240)).map (· - 240 * i) })

/-- A CHAN frame is admitted and split into channel packets, or refused (R453, R463). -/
def execChan (port : Nat) (s : State) : Res :=
  .next (match s.takeFrame port (fun f => f.kind == 8) with
    | none => s
    | some (x, s1) =>
      let p := (s.port port).perm
      if !(p.admits x.f.src p.chan) then s1.frameRefuse port x.f ePermission true none
      else
        let (cl, co) := s1.frameCore x.f
        (splitChan (x.f.chMsg port)).foldl (fun s m => s.send (.chan 1 (s.physOf cl co) none m)) (s1.chanRx port x cl))

/-- A CHREQ frame is admitted and its packet sent to the core, or refused (R463); an OPEN names its target in its data (Table 8.6). -/
def execChreq (port : Nat) (s : State) : Res :=
  .next (match s.takeFrame port (fun f => f.kind == 0xB) with
    | none => s
    | some (x, s1) =>
      let p := (s.port port).perm
      if !(p.admits x.f.src p.chan) then s1.frameRefuse port x.f ePermission true none
      else
        let d := leNat x.f.data
        let (cl, co) := if chKind x.f.unit = 6 then (fld d 28 6, fld d 22 6) else s1.frameCore x.f
        (s1.chanRx port x cl).send (.chan (chKind x.f.unit) (s1.physOf cl co) none (x.f.chMsg port)))

/-- A CHRSP frame is delivered, or refused (R463). (DEDUCED, log entry 56) -/
def execChrsp (port : Nat) (s : State) : Res :=
  .next (match s.takeFrame port (fun f => f.kind == 7) with
    | none => s
    | some (x, s1) =>
      let p := (s.port port).perm
      if !(p.admits x.f.src p.chan) then s1.frameRefuse port x.f ePermission true none
      else (s1.chanRx port x x.f.dstCl).send (.chan (chKind x.f.unit) (s1.physOf x.f.dstCl x.f.dstCore) none (x.f.chMsg port)))

/-! ## Refusals and timeouts (R451, R467, R468, R553) -/

/-- Does a REFUSE of `src` carry the body of a SYNC frame that this device sent it (R451, Table 8.8)? (DEDUCED, log entry 59) -/
def State.isSyncRefusal (s : State) (f : Frame) : Bool :=
  fld f.unit 0 17 == f.src && fld f.unit 17 17 == s.span.node && fld f.unit 49 15 == 0 && fld f.unit 112 16 == 0 && fld f.unit 96 16 == f.job

/-- A REFUSE answers the refused request with its status: the WRITEs or READ of a tag, a sync frame, or a channel message (R451, R467,
R468). A refused write that held poison is a commit point of the sender (R553, kind 4). (DEDUCED, log entry 59) -/
def execRefuse (port : Nat) (s : State) : Res :=
  .next (match s.takeFrame port (fun f => f.kind == 0xC) with
    | none => s
    | some (x, s1) =>
      let f := x.f
      match (s.port port).tags.find? (fun t => t.1 == f.tag && t.2.unit == f.unit) with
      | some t =>
        if t.2.sentAt.toNat + s.span.reqTo ≤ s.clk.gtc.toNat then s1.lateFrame
        else
          let s2 := (s1.modPort port (fun y => { y with tags := y.tags.del f.tag })).answerAll t.2.who f.status
          match t.2.badAt, t.2.vat with
          | some a, some v => (s2.containPoint v 4 (srcPort port) a a).abortSheet v
          | _, _ => s2
      | none =>
        if s.isSyncRefusal f then
          let v := (s.jobVats f.job).head?
          let s2 := s1.log (srcHub 10) evRefused f.status v 0 1
          match v with
          | some v => s2.fireVat v 4
          | none => s2
        else if chKind f.unit = 1 || chKind f.unit = 4 || chKind f.unit = 6 || chKind f.unit = 9 then
          s1.answerAll [.packet (f.tag / 64) (f.tag % 64) (fld f.unit 10 6) (chKind f.unit)] f.status
        else s1.lateFrame)

/-- Tags with no response within req_to ticks are answered with E_TIMEOUT and freed (R467). -/
def execRequestTimeout (port : Nat) (s : State) : Res :=
  let due := fun (t : Nat × TagEnt) => decide (t.2.sentAt.toNat + s.span.reqTo ≤ s.clk.gtc.toNat)
  let l := (s.port port).tags.filter due
  .next (l.foldl (fun s t => s.answerAll t.2.who eTimeout) (s.modPort port (fun y => { y with tags := y.tags.filter (fun t => !due t) })))

/-- A write of open := 0 closes an export window from this cycle (R466). -/
def execExportWindowClose (v i : Nat) (s : State) : Res := .next (s.modExport_ v i (fun x => { x with open_ := false }))

/-! ## Sync frames (R287, R288, R340, R468) -/

/-- The vat of this device that a sync frame's counter belongs to, if it holds the frame's job (R288). -/
def State.syncVat (s : State) (ctr job : Nat) : Option Nat :=
  if !ctrWf ctr then none
  else match s.vatOfCtr ctr with
    | some v => if (s.vat v).jobValid && (s.vat v).jobId == job then some v else none
    | none => none

/-- A REFUSE with E_STATE for an increment the deckle refuses (R317, R468). -/
def State.syncRefuse (s : State) (src ctr amount job : Nat) : State :=
  if src = s.span.node then s
  else s.egress { f := { kind := 0xC, dst := src, src := s.span.node, job := job, status := eState,
                         unit := s.span.node + src * 2 ^ 17 + ctr * 2 ^ 34 + amount * 2 ^ 64 + job * 2 ^ 96 } }

/-- Apply an admitted sync frame now; one applied while λ ≠ 0 counts STRETCH_RELEASE (R340, R347). -/
def State.syncApply (s : State) (v src ctr amount job : Nat) : State :=
  let r := s.addOutside ctr amount
  let s1 := if r.2 then r.1 else r.1.syncRefuse src ctr amount job
  if (s.vat v).det.stretched then s1.detBreak v 0x0D else s1

/-- The sync frame unit receives a frame (R288): applied on arrival, held to its stamp in deterministic mode, late, or discarded. -/
def State.syncAdmit (s : State) (perm : Bool) (src ctr amount job : Nat) (stamp : W64) : State :=
  match (if perm && amount != 0 then s.syncVat ctr job else none) with
  | none =>
    ({ s with net := { s.net with syncfRefused := satAdd top32 s.net.syncfRefused 1 } } : State).log (srcHub 10) evDropped ePermission (s.vatOfCtr ctr) 0 1
  | some v =>
    let x := s.vat v
    if x.st == .running && x.det.detOn then
      if s.clk.gtc.toNat < stamp.toNat then
        { s with net := { s.net with heldTicks := s.net.heldTicks ++ [{ stamp := stamp, ctr := ctr, amount := amount, src := some src, job := job }] } }
      else if s.pastStamp v stamp then
        (({ s with net := { s.net with syncfLate := satAdd top32 s.net.syncfLate 1 } } : State).detBreak v 0x0A).syncApply v src ctr amount job
      else s.syncApply v src ctr amount job
    else s.syncApply v src ctr amount job

/-- A sync word reaches the sync frame unit (R287, R468): the RSYNC completes; the frame is stamped and leaves, or is admitted at once. -/
def execSyncWord (c : Nat) (w : W64) (s : State) : Res :=
  let dst := fld w.toNat 0 17
  let ctr := fld w.toNat 17 15
  let amount := fld w.toNat 32 32
  let v := s.vatOfCore c
  let x := s.vat (v.getD 0)
  let stamp := s.clk.gtc + BitVec.ofNat 64 x.xsyncDelay
  let s1 := match (s.chn c).entry with
    | some m => if mMop m == 3 then s.chnDone c else s
    | none => s
  .next (if dst = s.span.node then s1.syncAdmit true dst ctr amount x.jobId stamp
    else
      let f : Frame := { kind := 1, dst := dst, src := s.span.node, job := x.jobId,
                         unit := dst + s.span.node * 2 ^ 17 + ctr * 2 ^ 34 + amount * 2 ^ 64 + x.jobId * 2 ^ 96 + stamp.toNat * 2 ^ 128 }
      match s.spanRoute dst with
      | some p => s1.queueTx p { f := f, vat := v }
      | none =>
        let s2 := (({ s1 with span := { s1.span with routeDrops := satAdd top16 s1.span.routeDrops 1 } } : State)).log (srcHub 10) evRefused eRange v 0 1
        match v with
        | some v => s2.fireVat v 4
        | none => s2)

/-- A SYNC frame arrives (R288, R463, R468). -/
def execSyncFrameReceive (port : Nat) (s : State) : Res :=
  .next (match s.takeFrame port (fun f => f.kind == 1) with
    | none => s
    | some (x, s1) =>
      let u := x.f.unit
      let p := (s.port port).perm
      let s2 := match s.syncVat (fld u 34 15) x.f.job with | some v => s1.chargeRx v x | none => s1
      if port = twinPort then s else s2.syncAdmit (p.admits x.f.src p.sync) x.f.src (fld u 34 15) (fld u 64 32) x.f.job (BitVec.ofNat 64 (fld u 128 64)))

/-- A held tick-released event is applied at the first cycle that reaches its stamp (R340). -/
def execSyncFrameRelease (i : Nat) (s : State) : Res :=
  .next (match s.net.heldTicks[i]? with
    | none => s
    | some h =>
      if s.clk.gtc.toNat < h.stamp.toNat then s
      else
        let s1 : State := { s with net := { s.net with heldTicks := s.net.heldTicks.eraseIdx i } }
        match s.vatOfCtr h.ctr with
        | some v => s1.syncApply v (h.src.getD s.span.node) h.ctr h.amount h.job
        | none => (s1.addOutside h.ctr h.amount).1)

end Sys2Proof.Machine
end

