-- ==== Sys2Proof/Machine/StackRec.lean ====
section
/-! DEFINITION. Stack engine command records (Chapter 11): fields, slots, operands in linear and matched layout, and the checks of
Table 11.5. -/

namespace Sys2Proof.Machine

/-! ## Fields (Tables 11.2, 11.3) -/

def rOp (r : Nat) : Nat := fld r 0 8
def rRnd (r : Nat) : Nat := fld r 8 2
def rOvf (r : Nat) : Nat := fld r 10 1
def rPrescan (r : Nat) : Bool := bit r 11
def rAux (r : Nat) : Nat := fld r 12 4
def rStream (r : Nat) : Nat := fld r 16 16
def rWin (r : Nat) : Nat := fld r 32 32
def rN (r : Nat) : Nat := fld r 64 40
def rRegion (r : Nat) : Nat := fld r 104 10
def rVout (r : Nat) : Bool := bit r 114
def rAnchor (r : Nat) : Int := sfld r 118 10
def rSlot (r j : Nat) : Nat := fld r (128 + 64 * j) 64
def rScalar (r j : Nat) : Nat := fld r (640 + 32 * j) 32
def slAddr (x : Nat) : Nat := fld x 0 48
def slFmt (x : Nat) : Nat := fld x 48 5
def slLay (x : Nat) : Bool := bit x 53
def slEn (x : Nat) : Bool := bit x 54
def slExt (x : Nat) : Nat := fld x 55 9
/-- First index of stochastic rounding, A7.addr (R377). -/
def rX0 (r : Nat) : Nat := slAddr (rSlot r 7)

/-- An optimizer: ADAM, LAMB or SGD. -/
def rOptim (r : Nat) : Bool := rOp r == 3 || rOp r == 4 || rOp r == 5

/-! ## Format check (Table 11.5, check 1) -/

/-- What Table 11.4 makes of a slot: nothing; a value; a scale or metadata array; an element operand of a set of formats; table rows with
their row length; an index list; plain bytes. -/
inductive SlotUse where
  | absent
  | value
  | scale
  | elem (fmts : List Nat)
  | row
  | index
  | bytes
  deriving DecidableEq, Repr

/-- Does a slot hold what its use allows? A value slot may have either en. (DEDUCED, log entry 83) -/
def slotOk (u : SlotUse) (x : Nat) : Bool :=
  match u with
  | .absent => x == 0
  | .value => slFmt x == 0 && !slLay x && slExt x == 0
  | .scale => slEn x && slFmt x == 0 && slExt x == 0
  | .elem fs => slEn x && fs.contains (slFmt x) && slExt x == 0
  | .row => slEn x && slFmt x == 0 && !slLay x
  | .index => slEn x && (slFmt x == 0 || slFmt x == 9) && !slLay x && slExt x == 0
  | .bytes => slEn x && slFmt x == 0 && !slLay x && slExt x == 0

/-- Every format but INT32 and ACC96; narrow and MX formats; the sources of an exact ACCUM. -/
def fmtsPlain : List Nat := [0, 1, 2, 3, 4, 5, 6, 7, 8, 0x13, 0x14, 0x15, 0x16, 0x17, 0x18]
def fmtsExact : List Nat := [3, 4, 5, 6, 7, 8, 10, 0x13, 0x14, 0x15, 0x16, 0x17, 0x18]

/-- An optional slot. -/
def opt (x : Nat) (u : SlotUse) : SlotUse := if slEn x then u else .absent
/-- A scale slot of an operand: present exactly when it is an MX form. -/
def scaleFor (x : Nat) : SlotUse := if slEn x && fmtMx (slFmt x) then .scale else .absent

/-- Table 11.4: the uses of the eight slots. (DEDUCED, log entry 83) -/
def slotUses (r : Nat) : List SlotUse :=
  let x := rSlot r
  match rOp r with
  | 0x01 =>
    let src := if slFmt (x 0) == 10 then fmtsExact else fmtsPlain
    let mx := fun j => slEn (x j) && fmtMx (slFmt (x j))
    [.elem [0, 10], .elem src, opt (x 2) (.elem src), if slEn (x 2) then opt (x 3) (.elem src) else .absent,
     if slEn (x 2) && slEn (x 3) then opt (x 4) (.elem src) else .absent, scaleFor (x 1), scaleFor (x 2), if mx 3 || mx 4 then .scale else .absent]
  | 0x02 =>
    [.elem fmtsPlain, .elem fmtsPlain, scaleFor (x 0), scaleFor (x 1), if bit (rAux r) 0 then .bytes else .absent, .absent, .absent, .value]
  | 0x03 => [.elem [0], .elem [0], .elem [0], .elem fmtsPlain, opt (x 4) (.elem fmtsPlain), scaleFor (x 4), scaleFor (x 3), .value]
  | 0x04 => [.elem [0], .elem [0], .elem [0], .elem fmtsPlain, opt (x 4) (.elem fmtsPlain), scaleFor (x 4), scaleFor (x 3), .value]
  | 0x05 => [.elem [0], .elem [0], .absent, .elem fmtsPlain, opt (x 4) (.elem fmtsPlain), scaleFor (x 4), scaleFor (x 3), .value]
  | 0x06 => [.bytes, .elem (9 :: fmtsPlain), .absent, .absent, .absent, .absent, scaleFor (x 1), .absent]
  | 0x08 => [.bytes, .row, .index, .value, .absent, .absent, .absent, .absent]
  | 0x09 => [.row, .elem [0, 1, 2], .index, .value, .absent, .absent, .absent, .absent]
  | 0x0A => [.bytes, .absent, .absent, .absent, .absent, .absent, .absent, .absent]
  | 0x0B => [.bytes, .absent, .absent, .absent, .absent, .absent, .absent, .absent]
  | 0x10 => [.bytes, .bytes, .absent, .absent, .absent, .absent, .absent, .absent]
  | 0x11 => [.bytes, .value, .absent, .absent, .absent, .absent, .absent, .absent]
  | 0x12 => [.absent, .value, .absent, .absent, .absent, .absent, .absent, .absent]
  | _ => []

/-- The scalars an op has. -/
def scalarsOf (op : Nat) : List Nat :=
  match op with
  | 1 => [0]
  | 3 => [0, 1, 2, 3, 4, 5, 6, 7]
  | 4 => [0, 1, 2, 3, 4, 5, 6, 7, 8]
  | 5 => [0, 1, 4, 7]
  | _ => []

/-- The aux bits an op has. (DEDUCED, log entry 83) -/
def auxOf (op : Nat) : Nat := match op with | 2 => 1 | 3 => 1 | 4 => 1 | 5 => 2 | 0x11 => 1 | _ => 0

/-- Does the op use a region? (DEDUCED, log entry 83) -/
def usesRegion (r : Nat) : Bool := rVout r || rOp r == 0x10 || rOp r == 0x11 || rOp r == 0x12

/-- Is slot `j` an offset from a version's base (R392)? -/
def isOffset (r j : Nat) : Bool := rVout r && (j == 4 || j == 5)

/-- Check 1 of Table 11.5. (DEDUCED, log entry 83) -/
def recordOk (r : Nat) : Bool :=
  let us := slotUses r
  let exact := rOp r == 1 && slFmt (rSlot r 0) == 10
  let sp24 := rOp r == 2 && bit (rAux r) 0
  !us.isEmpty
  && (List.range 8).all (fun j => slotOk (us.getD j .absent) (rSlot r j))
  && rRnd r != 3 && fld r 115 3 == 0 && rAux r &&& (15 - auxOf (rOp r)) == 0
  && (rOptim r || (!rPrescan r && !rVout r)) && (usesRegion r || rRegion r == 0)
  && (!rVout r || slEn (rSlot r 4))
  && (List.range 12).all (fun j => (scalarsOf (rOp r)).contains j || rScalar r j == 0)
  && (exact || rAnchor r == 0) && (!exact || rScalar r 0 == one32)
  && (List.range 8).all (fun j => let x := rSlot r j
      !slLay x || (slAddr x % 32768 == 0 && (isOffset r j || slAddr x < stackTop)))
  && !(rOp r == 2 && fmtMx (slFmt (rSlot r 0)) && fmtMx (slFmt (rSlot r 1)))
  && !(sp24 && (fmtMx (slFmt (rSlot r 0)) || slLay (rSlot r 0) || slLay (rSlot r 1) || slLay (rSlot r 3)))

/-! ## Operands (R375) -/

/-- An operand: its base, layout, element bits, whether it is a scale array, its elements and alignment, whether it is read and
written, and whether it may lie outside stack memory. -/
structure Opnd where
  base : Nat := 0
  lay : Bool := false
  bits : Nat := 8
  scale : Bool := false
  cnt : Nat := 0
  al : Nat := 1
  inp : Bool := false
  outp : Bool := false
  dev : Bool := false
  deriving DecidableEq, Repr

/-- Byte offset of element `i` within a run that starts at element 0. -/
def Opnd.off (o : Opnd) (i : Nat) : Nat := if o.scale then i / 32 else i * o.bits / 8

/-- A byte of matched layout: byte `q` of the elements that stack `st` holds. -/
def matchedAt (base st q : Nat) : Nat := base + 4096 * (st + 8 * (q / 4096)) + q % 4096

/-- The address of byte `j` of element `i` (R375). -/
def Opnd.at_ (o : Opnd) (i j : Nat) : Nat :=
  if o.lay then
    let c := i / 1024
    matchedAt o.base (c % 8) ((c / 8) * o.off 1024 + o.off (i % 1024) + j)
  else o.base + o.off i + j

/-- The bit at which element `i` starts in its first byte, and the bytes it touches. -/
def Opnd.shift (o : Opnd) (i : Nat) : Nat := if o.scale then 0 else i * o.bits % 8
def Opnd.nb (o : Opnd) (i : Nat) : Nat := if o.scale then 1 else cdiv (o.shift i + o.bits) 8

/-- Bytes of `n` elements from the start of a run. -/
def Opnd.bytes (o : Opnd) (n : Nat) : Nat := if o.scale then cdiv n 32 else rowBytes o.bits n

/-- Bytes of the elements a stack holds in matched layout. -/
def Opnd.share (o : Opnd) (st : Nat) : Nat :=
  let full := o.cnt / 1024
  let whole := full / 8 + b2n (decide (st < full % 8))
  whole * o.off 1024 + (if full % 8 = st then o.bytes (o.cnt % 1024) else 0)

/-- The address ranges of an operand. -/
def Opnd.pieces (o : Opnd) : List (Nat × Nat) :=
  if o.cnt = 0 then []
  else if o.lay then
    (List.range 8).flatMap (fun st =>
      let n := o.share st
      (List.range (cdiv n 4096)).map (fun k => (o.base + 4096 * (st + 8 * k), min 4096 (n - 4096 * k))))
  else [(o.base, o.bytes o.cnt)]

/-- Alignment of an element format. -/
def elemAlign (f : Nat) : Nat := if fmtBits f ≤ 8 then 1 else fmtBits f / 8

/-- An element operand of a slot. -/
def elemOpnd (x n : Nat) : Opnd := { base := slAddr x, lay := slLay x, bits := fmtBits (slFmt x), cnt := n, al := elemAlign (slFmt x) }
/-- A scale array of a slot. -/
def scaleOpnd (x n : Nat) : Opnd := { base := slAddr x, lay := slLay x, scale := true, cnt := n }

/-- Scales of source `j` (1-4) of an ACCUM (R378). -/
def accumScale (r j : Nat) : Opnd :=
  let n := rN r
  let x := rSlot r
  if j = 1 then scaleOpnd (x 5) n
  else if j = 2 then scaleOpnd (x 6) n
  else if j = 3 then scaleOpnd (x 7) n
  else { scaleOpnd (x 7) n with base := slAddr (x 7) + 256 * cdiv (cdiv n 32) 256 }

/-- WOUT and its scales; with vout their addresses are offsets from `vb` (R392). -/
def woutOpnd (r vb : Nat) : Opnd := let o := elemOpnd (rSlot r 4) (rN r); { o with base := o.base + vb, outp := true, dev := !rVout r }
def woutScale (r vb : Nat) : Opnd := let o := scaleOpnd (rSlot r 5) (rN r); { o with base := o.base + vb, outp := true, dev := !rVout r }

/-- The bytes of a table row. -/
def rowb (r : Nat) : Nat := 256 * slExt (rSlot r (if rOp r = 8 then 1 else 0))
/-- Row count of GATHER and SCATTER_ADD. -/
def rowCount (r : Nat) : Nat := slAddr (rSlot r 3)
/-- Elements of the source rows of SCATTER_ADD. -/
def rowElems (r : Nat) : Nat := rowb r / 4

/-- The operands of a record in slot order (Table 11.4); `vb` is the base of the target version. -/
def operands (r vb : Nat) : List Opnd :=
  let x := rSlot r
  let n := rN r
  let mx := fun j => slEn (x j) && fmtMx (slFmt (x j))
  let el := fun j => elemOpnd (x j) n
  let io := fun (o : Opnd) => { o with inp := true, outp := true }
  let in_ := fun (o : Opnd) => { o with inp := true }
  let out := fun (o : Opnd) => { o with outp := true, dev := true }
  let tail := (if slEn (x 4) then [woutOpnd r vb] else []) ++ (if mx 4 then [woutScale r vb] else []) ++ (if mx 3 then [in_ (scaleOpnd (x 6) n)] else [])
  match rOp r with
  | 0x01 => io (el 0) :: ((List.range 4).flatMap (fun j =>
      if slEn (x (j + 1)) then in_ (el (j + 1)) :: (if mx (j + 1) then [in_ (accumScale r (j + 1))] else []) else []))
  | 0x02 =>
    let half := bit (rAux r) 0
    [out (elemOpnd (x 0) (if half then n / 2 else n)), in_ (el 1)] ++ (if mx 0 then [out (scaleOpnd (x 2) n)] else [])
      ++ (if mx 1 then [in_ (scaleOpnd (x 3) n)] else []) ++ (if half then [out { base := slAddr (x 4), cnt := n / 8 }] else [])
  | 0x03 => [io (el 0), io (el 1), io (el 2), in_ (el 3)] ++ tail
  | 0x04 => [io (el 0), io (el 1), io (el 2), in_ (el 3)] ++ tail
  | 0x05 => [io (el 0), io (el 1), in_ (el 3)] ++ tail
  | 0x06 => [{ base := slAddr (x 0), cnt := 16, al := 16, outp := true }, in_ (el 1)] ++ (if mx 1 then [in_ (scaleOpnd (x 6) n)] else [])
  | 0x08 => [out { base := slAddr (x 0), cnt := n * rowb r }, in_ { base := slAddr (x 1), cnt := rowCount r * rowb r, al := 256 },
             in_ { base := slAddr (x 2), bits := 32, cnt := n, al := 4 }]
  | 0x09 => [io { base := slAddr (x 0), cnt := rowCount r * rowb r, al := 256 }, in_ (elemOpnd (x 1) (n * rowElems r)),
             in_ { base := slAddr (x 2), bits := 32, cnt := n, al := 4 }]
  | 0x0A => [in_ { base := slAddr (x 0), bits := 128, cnt := n, al := 16 }]
  | 0x0B => [{ base := slAddr (x 0), cnt := n, al := 4096, outp := true }]
  | 0x10 => [{ base := slAddr (x 0), cnt := n }, { base := slAddr (x 1), cnt := n }]
  | 0x11 => [out { base := slAddr (x 0), cnt := 16, al := 16 }]
  | _ => []

/-- The home operand of an element-wise op (Table 11.4). -/
def homeOpnd (r : Nat) : Opnd :=
  elemOpnd (rSlot r (if rOp r = 2 || rOp r = 6 then 1 else 0)) (rN r)

/-- The home stack of element `i` (R375). -/
def homeOf (r i : Nat) : Nat := stackOf ((homeOpnd r).at_ i 0)

/-! ## Checks 2-5 (Table 11.5) -/

/-- The addresses at which a device range is looked at: its first byte in every 4 KiB that it touches. No target, window or right changes
within 4 KiB (R29, Table 3.7). -/
def probes (a n : Nat) : List Nat := a :: ((granulesOf a n).drop 1).map (fun p => a + p.1)

/-- Is an operand inside the address map, in stack memory unless it may lie elsewhere, and aligned? (DEDUCED, log entry 85) -/
def Opnd.rangeOk (o : Opnd) : Bool :=
  let lasts := o.base :: o.pieces.map (fun p => p.1 + p.2 - 1)
  if o.base < stackTop then lasts.all (· < stackTop) && o.base % o.al == 0
  else o.dev && (lasts ++ o.pieces.flatMap (fun p => probes p.1 p.2)).all (fun a => targetOf a != .none && stackTop ≤ a)

/-- Do two operands share a byte? -/
def Opnd.meets (o p : Opnd) : Bool := o.pieces.any (fun a => p.pieces.any (fun b => decide (a.1 < b.1 + b.2) && decide (b.1 < a.1 + a.2)))

/-- Are two operands the same bytes read as the same elements: exactly in place? -/
def Opnd.inPlace (o p : Opnd) : Bool := o.base == p.base && o.lay == p.lay && o.bits == p.bits && o.scale == p.scale && o.cnt == p.cnt

/-- The rules of the ops on n and counts. (DEDUCED, log entry 85) -/
def countOk (r : Nat) : Bool :=
  let n := rN r
  match rOp r with
  | 0x02 =>
    let f0 := slFmt (rSlot r 0)
    let f1 := slFmt (rSlot r 1)
    let mult := fun (k : Nat) (p : Nat → Bool) => !(p f0 || p f1) || n % k == 0
    mult 32 fmtMx && mult 4 (fun f => fmtBits f == 6) && mult 2 (fun f => fmtBits f == 4) && (!bit (rAux r) 0 || n % 8 == 0)
  | 0x08 => rowb r != 0
  | 0x09 => rowb r != 0
  | 0x0B => n % 4096 == 0
  | 0x10 => n % 4096 == 0
  | 0x11 => n == 0
  | 0x12 => n == 0
  | _ => true

/-- Does a versioned output fit its region? (DEDUCED, log entry 85) -/
def State.voutFits (s : State) (r : Nat) : Bool :=
  let y := s.ver (rRegion r)
  !rVout r || !y.defined ||
    ([woutOpnd r 0] ++ (if fmtMx (slFmt (rSlot r 4)) then [woutScale r 0] else [])).all (fun o =>
      (o.base :: o.pieces.map (fun p => p.1 + p.2)).all (· ≤ y.size))

/-- The operands that a check reads as addresses: versioned outputs are offsets. -/
def checked (r : Nat) : List Opnd := (operands r 0).filter (fun o => !(rVout r && o.outp && !o.inp))

/-- Check 2. (DEDUCED, log entry 85) -/
def State.rangeCheck (s : State) (r : Nat) : Bool :=
  let os := checked r
  os.all Opnd.rangeOk && countOk r && s.voutFits r
  && os.all (fun o => !o.outp || os.all (fun p => !p.inp || !o.meets p || o.inPlace p))

/-- The right of vat `v` to one address outside stack memory: as a USER core of it (Table 3.7, R464). -/
def State.stkRight (s : State) (v a : Nat) : Nat :=
  match targetOf a with
  | .remote x =>
    let e := s.spanWin v (fld x 42 6)
    let p := s.vatPerm v
    if !e.1 || e.2 == s.span.node then eRange else if !(p.lo ≤ e.2 && e.2 ≤ p.hi) || !p.win then ePermission else eOk
  | _ => s.userRight v a

/-- Check 3: the first status among the operands. -/
def State.rightCheck (s : State) (v r : Nat) : Nat :=
  ((checked r).flatMap (fun o => o.pieces.map (fun p =>
    if p.1 < stackTop then (if s.stackWithin v p.1 p.2 then eOk else ePermission)
    else ((probes p.1 p.2).map (s.stkRight v)).find? (· != eOk) |>.getD eOk))).find? (· != eOk) |>.getD eOk

/-- A valid slot of a region with an epoch, or the current one (R391). -/
def VerEnt.find (y : VerEnt) (cur : Bool) (epoch : Nat) : Option Nat :=
  if cur then (if (if y.cur = 0 then y.valid0 else y.valid1) then some y.cur else none)
  else if y.valid0 && y.epoch0.toNat == epoch then some 0 else if y.valid1 && y.epoch1.toNat == epoch then some 1 else none

/-- Base, pins and epoch of a slot. -/
def VerEnt.base (y : VerEnt) (i : Nat) : Nat := if i = 0 then y.base0 else y.base1
def VerEnt.pins (y : VerEnt) (i : Nat) : Nat := if i = 0 then y.pins0 else y.pins1
def VerEnt.epoch (y : VerEnt) (i : Nat) : W64 := if i = 0 then y.epoch0 else y.epoch1
def VerEnt.setPins (y : VerEnt) (i n : Nat) : VerEnt := if i = 0 then { y with pins0 := n } else { y with pins1 := n }
def VerEnt.setValid (y : VerEnt) (i : Nat) (b : Bool) : VerEnt := if i = 0 then { y with valid0 := b } else { y with valid1 := b }

/-- Does a region's state allow a command (check 5, R390-R392)? -/
def VerEnt.allows (y : VerEnt) (r : Nat) : Bool :=
  match rOp r with
  | 0x10 => !y.defined || !(y.upd || y.aside || y.pins0 != 0 || y.pins1 != 0)
  | 0x11 => y.defined && (match y.find (bit (rAux r) 0) (slAddr (rSlot r 1)) with | some i => y.pins i < 65535 | none => false)
  | 0x12 => y.defined && (match y.find false (slAddr (rSlot r 1)) with | some i => y.pins i != 0 | none => false)
  | _ => !rVout r || y.defined

/-- The verdict of the checks at acceptance (Table 11.5, R376); the index lists are read when the op runs. (DEDUCED, log entry 87) -/
def State.recordCheck (s : State) (v r : Nat) : Nat :=
  let y := s.ver (rRegion r)
  if !recordOk r then eFormat
  else if !s.rangeCheck r then eRange
  else if s.rightCheck v r != eOk then s.rightCheck v r
  else if !usesRegion r then eOk
  else if y.defined && y.vat != v then ePermission
  else if y.bad then ePoison
  else if !y.allows r then eState
  else eOk

end Sys2Proof.Machine
end

