-- ==== Sys2Proof/Machine/Encode.lean ====
section
/-! DEFINITION. The instruction words of the control processors (the format diagrams of Chapter 3 and the opcodes of Tables 3.3 to
3.21): what EVAL records when a word is illegal, and which words no instruction has (R80, R81). -/

namespace Sys2Proof.Machine

/-- gn in bit 23, gp in bits [22:20] (R79). -/
def gbits (g : Guard) : BitVec 4 := BitVec.ofBool g.gn ++ g.gp

/-- Format R. -/
def encR (op : BitVec 8) (g : Guard) (rd rs1 rs2 fn : BitVec 5) : W32 := op ++ gbits g ++ rd ++ rs1 ++ rs2 ++ fn
/-- Format I, and S with rs2 in place of rd. -/
def encI (op : BitVec 8) (g : Guard) (rd rs1 : BitVec 5) (imm : BitVec 10) : W32 := op ++ gbits g ++ rd ++ rs1 ++ imm
/-- Format U. -/
def encU (op : BitVec 8) (g : Guard) (rd : BitVec 5) (imm : BitVec 15) : W32 := op ++ gbits g ++ rd ++ imm
/-- Format B. -/
def encB (op : BitVec 8) (g : Guard) (off : BitVec 20) : W32 := op ++ gbits g ++ off
/-- Format C with a register. -/
def encC (op : BitVec 8) (g : Guard) (pd : BitVec 3) (rs1 rs2 : BitVec 5) : W32 := op ++ gbits g ++ pd ++ 0#2 ++ rs1 ++ rs2 ++ 0#5
/-- Format C with an immediate. -/
def encCI (op : BitVec 8) (g : Guard) (pd : BitVec 3) (rs1 : BitVec 5) (imm : BitVec 10) : W32 := op ++ gbits g ++ pd ++ 0#2 ++ rs1 ++ imm
/-- Format P. -/
def encP (op : BitVec 8) (g : Guard) (pd pa : BitVec 3) (na : Bool) (pb : BitVec 3) (nb : Bool) : W32 :=
  op ++ gbits g ++ pd ++ pa ++ BitVec.ofBool na ++ pb ++ BitVec.ofBool nb ++ 0#9
/-- Format Q. -/
def encQ (op : BitVec 8) (g : Guard) (q : BitVec 4) (nb : Bool) (rs1 : BitVec 5) (pd : BitVec 3) (imm : BitVec 7) : W32 :=
  op ++ gbits g ++ q ++ BitVec.ofBool nb ++ rs1 ++ pd ++ imm
/-- Format X. -/
def encX (op : BitVec 8) (g : Guard) (ib : BitVec 2) (pos lenm1 : BitVec 6) (rs1 : BitVec 5) : W32 :=
  op ++ gbits g ++ ib ++ pos ++ lenm1 ++ 0#1 ++ rs1

/-- Are the fields marked zero zero, and no field at a reserved value, in a word of an assigned major opcode (R80)? Special register numbers
depend on the core and are not looked at here. -/
def fieldsOk (op w : Nat) : Bool :=
  if op ≤ 0x13 then fld w 0 5 == 0
  else if op ≤ 0x23 then true
  else if op ≤ 0x26 then fld w 6 4 == 0
  else if op ≤ 0x29 then true
  else if op ≤ 0x35 then fld w 15 2 == 0 && fld w 0 5 == 0
  else if op ≤ 0x3D then fld w 15 2 == 0
  else if op ≤ 0x42 then fld w 0 9 == 0
  else if op = 0x44 then fld w 0 15 == 0
  else if op = 0x45 then fld w 15 5 == 0 && fld w 0 10 == 0
  else if op ≤ 0x57 then true
  else if op = 0x58 then fld w 10 5 == 0
  else if op ≤ 0x5B then fld w 15 5 == 0
  else if op ≤ 0x61 then true
  else if op = 0x62 then fld w 15 5 == 0
  else if op = 0x63 then true
  else if op = 0x64 then fld w 15 5 != 0
  else if op = 0x6D then true
  else if op ≤ 0x6F then fld w 0 20 == 0
  else if op = 0x70 then decide (fld w 16 4 ≤ 6) && (bit w 15 || fld w 7 3 == 0)
  else if op = 0x71 then decide (fld w 16 4 ≤ 6) && (bit w 15 || fld w 7 3 == 0) && fld w 10 5 == 0 && fld w 0 7 == 0
  else if op = 0x72 then !(bit w 5) && decide (fld w 12 6 + fld w 6 6 < 64)
  else if op = 0x74 then fld w 16 4 == 0 && (bit w 15 || fld w 7 3 == 0) && fld w 10 5 == 0 && fld w 0 7 != 0
  else if op ≤ 0x79 then fld w 15 5 == 0 && fld w 0 5 == 0
  else if op = 0x7A then fld w 15 5 == 0 && !(bit w 4) && !(bit w 2) && !(bit w 3 && bit w 1)
  else fld w 0 10 == 0

/-- Is a major opcode assigned (R81, Table 3.2 and the tables it refers to)? -/
def opAssigned (op : Nat) : Bool :=
  (0x01 ≤ op && op ≤ 0x13) || (0x20 ≤ op && op ≤ 0x26) || op == 0x28 || op == 0x29 || (0x30 ≤ op && op ≤ 0x35) || (0x38 ≤ op && op ≤ 0x3D)
  || (0x40 ≤ op && op ≤ 0x42) || op == 0x44 || op == 0x45 || (0x48 ≤ op && op ≤ 0x4E) || (0x50 ≤ op && op ≤ 0x5B) || (0x60 ≤ op && op ≤ 0x64)
  || (0x68 ≤ op && op ≤ 0x72) || op == 0x74 || (0x78 ≤ op && op ≤ 0x7B)

/-- Is a 32-bit word one that an instruction can have (R79-R81)? The guard with gn = 1 and gp = 0 is reserved. -/
def wordOk (w : Nat) : Bool := opAssigned (fld w 24 8) && fld w 20 4 != 8 && fieldsOk (fld w 24 8) w

end Sys2Proof.Machine
end

