-- ==== Sys2Proof/Machine/Operands.lean ====
section
/-! DEFINITION. How a control processor runs one instruction: the guard, illegal words, addresses and targets (R79, R80, R85, R88, R98). -/

namespace Sys2Proof.Machine

/-- May the vat of a core run its instructions: a mould core's sheet runs; the vatman and the management core always may (R319). -/
def State.vatLets (s : State) (c : Nat) : Bool :=
  c == mgmtCore || (match s.vatOfCore c with
    | some v => s.vatmanOf v == some c || (s.vat v).st == .running
    | none => false)

/-- A control processor that can start an instruction: RUNNING, started, not held, and not being stopped (R95-R97, R313, R319); a
debug step lets a halted one run an instruction (R606). (DESIGN CHOICE, log entry 23; DEDUCED, log entry 110) -/
def State.ctlOn (s : State) (c : Nat) : Bool :=
  let k := s.ctl c
  s.coreOn c && ((k.run == .running && k.started && s.vatLets c) || (k.run == .halted && k.stepping)) && k.waiting.isNone && k.ldr.isNone

/-- Must a core stop under a forced stop of its vat: the first event of R96, for the enlisted cores (R319)? -/
def State.mustStop (s : State) (c : Nat) : Bool :=
  match s.vatOfCore c with
  | some v => (s.vat v).st == .stopping && (s.vat v).enlisted.contains c
  | none => false

/-- A debug halt request is taken at an instruction boundary: a waiting instruction is abandoned, its watch removed (R97), and a forced stop
comes first (R96). -/
def State.debugHalt (s : State) (c : Nat) : State :=
  ((s.modCtl c (fun k => { k with waiting := none, haltReq := false })).dropCpuWatch c).haltCore c (if s.mustStop c then 4 else 3)

/-- The illegal-instruction exception (R80). -/
def State.illegal (s : State) (c : Nat) (w : W32) : State := s.takeException c cIllegal eFormat (s.ctl c).pc (zext64 w)

/-- Does the word at the pc of a core hold an uncorrectable error of its instruction store (R327)? (DEDUCED, log entry 139) -/
def State.fetchBad (s : State) (c : Nat) : Bool := NSet.has (s.cores.imemUe.get [] c) ((s.ctl c).pc.toNat / 16)

/-- An uncorrectable fetch raises POISON with EVAL the pc (R327, Table 3.12); it is an error in the core's SRAM (R189, R556, Table 18.10). (DEDUCED, log entry 139) -/
def State.fetchPoison (s : State) (c : Nat) : State :=
  let k := s.ctl c
  ((s.sramError c k.pc.toNat 0).takeException c cPoison ePoison k.pc k.pc).stepOver c

/-- One instruction with word `w` (R79, R80): nothing on a core that cannot start one; a poisoned fetch raises; a reserved guard is illegal; a
false guard only moves past. (DESIGN CHOICE, log entry 2) -/
def State.instr (s : State) (c : Nat) (g : Guard) (w : W32) (f : Ctl → State) : State :=
  if !s.ctlOn c then s
  else if s.fetchBad c then s.fetchPoison c
  else
    (if g.gn && g.gp == 0 then s.illegal c w
    else if (s.ctl c).guardTrue g then f (s.ctl c)
    else s.setCtl c (s.ctl c).adv).stepOver c

/-- One instruction some of whose words are reserved: such a word is illegal whatever its guard (R13, R80). -/
def State.instrIf (s : State) (c : Nat) (g : Guard) (w : W32) (ok : Bool) (f : Ctl → State) : State :=
  if !ok && s.ctlOn c && !(s.fetchBad c) then (s.illegal c w).stepOver c else s.instr c g w f

/-- The fetch of a control processor that can start an instruction, at a pc no instruction of the table can have: an uncorrectable word raises
POISON, a pc outside the instruction memory RANGE, and a word that is no instruction ILLEGAL (R80, R81, R327). The contents of the management
core's ROM are not stated, and its fetches there are not judged. (DEDUCED, log entry 19; DEDUCED, log entry 139) -/
def State.fetch (s : State) (c : Nat) : State :=
  let k := s.ctl c
  if !s.ctlOn c then s
  else if s.fetchBad c then s.fetchPoison c
  else if !(inImem c k.pc) then (s.takeException c cRange eRange k.pc k.pc).stepOver c
  else
    let w := leNat ((s.imem c).readBytes k.pc.toNat 4)
    if wordOk w || (c == mgmtCore && k.pc.toNat < 0x8000) then s else (s.illegal c (BitVec.ofNat 32 w)).stepOver c

/-- Write a register and move past. -/
def State.retire (s : State) (c : Nat) (k : Ctl) (rd : Reg) (x : W64) : State := s.setCtl c (k.wg rd x).adv

/-- An integer instruction of format R (R82). -/
def State.aluR (s : State) (op : BitVec 8) (c : Nat) (g : Guard) (rd rs1 rs2 : Reg) (f : W64 → W64 → W64) : State :=
  s.instr c g (encR op g rd rs1 rs2 0) (fun k => s.retire c k rd (f (k.rg rs1) (k.rg rs2)))

/-- An integer instruction of format I (R82). -/
def State.aluI (s : State) (op : BitVec 8) (c : Nat) (g : Guard) (rd rs1 : Reg) (imm : BitVec 10) (f : W64 → W64) : State :=
  s.instr c g (encI op g rd rs1 imm) (fun k => s.retire c k rd (f (k.rg rs1)))

/-- A compare (R84). -/
def State.cmp (s : State) (c : Nat) (g : Guard) (w : W32) (pd : BitVec 3) (f : Ctl → Bool) : State :=
  s.instr c g w (fun k => s.setCtl c (k.wp pd (f k)).adv)

/-- The address g[rs1] + sext(imm10) × size (R85, R88). -/
def Ctl.ea (k : Ctl) (rs1 : Reg) (imm : BitVec 10) (size : Nat) : W64 := k.rg rs1 + sext64 imm * BitVec.ofNat 64 size

/-- A scratchpad load of `size` bytes (R85, R86). -/
def State.load (s : State) (op : BitVec 8) (c : Nat) (g : Guard) (rd rs1 : Reg) (imm : BitVec 10) (size : Nat) (ext : Nat → W64) : State :=
  s.instr c g (encI op g rd rs1 imm) (fun k =>
    let a := k.ea rs1 imm size
    if a.toNat % size != 0 then s.takeException c cAlign eRange k.pc a
    else if a.toNat ≥ spadSize then s.takeException c cRange eRange k.pc a
    else if (s.spad c).bad a.toNat size then (s.noteRead c a.toNat size).takeException c cPoison ePoison k.pc a
    else (s.noteRead c a.toNat size).retire c k rd (ext ((s.spad c).nat a.toNat size)))

/-- A scratchpad store of `size` bytes (R85, R190). -/
def State.store (s : State) (op : BitVec 8) (c : Nat) (g : Guard) (rs2 rs1 : Reg) (imm : BitVec 10) (size : Nat) : State :=
  s.instr c g (encI op g rs2 rs1 imm) (fun k =>
    let a := k.ea rs1 imm size
    if a.toNat % size != 0 then s.takeException c cAlign eRange k.pc a
    else if a.toNat ≥ spadSize then s.takeException c cRange eRange k.pc a
    else (s.spadStore c a.toNat (leBytes size (k.rg rs2).toNat) (fun _ => false)).setCtl c k.adv)

/-- The exception of a device access that fails its checks before leaving the core, if any (R88). -/
def State.devFault (s : State) (c : Nat) (a : W64) (size : Nat) (write : Bool) : Option (BitVec 8 × Nat) :=
  if a.toNat % size != 0 then some (cAlign, eRange)
  else if a.toNat ≥ addrTop then some (cRange, eRange)
  else
    let r := s.devRight c a.toNat write
    if r == eRange then some (cRange, eRange)
    else if r != eOk then some (cAccess, ePermission)
    else none

/-- A jump to `t` (R98): misaligned or outside the instruction memory raises, else `k'` is written with pc := t. (DEDUCED, log entry 19) -/
def State.jump (s : State) (c : Nat) (k k' : Ctl) (t : W64) : State :=
  if t.toNat % 4 != 0 then s.takeException c cAlign eRange k.pc t
  else if !(inImem c t) then s.takeException c cRange eRange k.pc t
  else s.setCtl c { k' with pc := t }

end Sys2Proof.Machine
end

