-- ==== Sys2Proof/Machine/StreamOps.lean ====
section
/-! DEFINITION. Stream engines (Chapter 6): program fields and checks, loops, the walk of a delivery, moves, conversions, delivery
points and faults. -/

namespace Sys2Proof.Machine

/-! ## Stream instructions (Table 6.7) -/

def iOp (w : Nat) : Nat := fld w 58 6
def iRa (w : Nat) : Nat := fld w 55 3
def iRb (w : Nat) : Nat := fld w 52 3
def iRc (w : Nat) : Nat := fld w 49 3
def iTd (w : Nat) : Nat := fld w 40 8
def iInc (w : Nat) : Bool := bit w 51
def iLen (w : Nat) : Nat := fld w 0 16 + 1
def iCn (w : Nat) : Nat := fld w 56 2
def iEnd (w : Nat) : Nat := fld w 48 5
def iCtr (w : Nat) : Nat := fld w 32 15
def iVal (w : Nat) : Nat := fld w 0 32

def opSeta : Nat := 0x01
def opAdda : Nat := 0x02
def opAddr : Nat := 0x03
def opLdd : Nat := 0x04
def opSetx : Nat := 0x05
def opLoop : Nat := 0x08
def opLoopm : Nat := 0x09
def opMov : Nat := 0x0C
def opCvt : Nat := 0x0D
def opPage : Nat := 0x10
def opRfill : Nat := 0x14
def opRdone : Nat := 0x15
def opRtake : Nat := 0x16
def opRfree : Nat := 0x17
def opPush : Nat := 0x18
def opPop : Nat := 0x19
def opSwt : Nat := 0x1C
def opSsig : Nat := 0x1D
def opDeliv : Nat := 0x1E
def opEnd : Nat := 0x3F

/-- A run of `n` ones from bit `lo`. -/
def ones (lo n : Nat) : Nat := (2 ^ n - 1) <<< lo

/-- The bits Table 6.7 assigns for an op below the op field; none for a reserved op. -/
def iMask (op : Nat) : Option Nat :=
  if op = opSeta then some (ones 55 3 + ones 48 1 + ones 0 48)
  else if op = opAdda then some (ones 52 6 + ones 0 32)
  else if op = opAddr || op = opPage then some (ones 49 9)
  else if op = opLdd then some (ones 55 3 + ones 39 9)
  else if op = opSetx then some (ones 0 48)
  else if op = opLoop then some (ones 56 2 + ones 48 5 + ones 0 24)
  else if op = opLoopm then some (ones 53 5 + ones 48 5)
  else if op = opMov then some (ones 51 7 + ones 0 16)
  else if op = opCvt then some (ones 41 17 + ones 0 16)
  else if op = opRfill || op = opRtake then some (ones 55 3 + ones 40 8)
  else if op = opRdone || op = opRfree then some (ones 40 8)
  else if op = opPush then some (ones 51 4 + ones 0 16)
  else if op = opPop then some (ones 55 3 + ones 51 1 + ones 0 16)
  else if op = opSwt then some (ones 54 4 + ones 32 15 + ones 0 32)
  else if op = opSsig then some (ones 54 1 + ones 32 15 + ones 0 32)
  else if op = opDeliv || op = opEnd then some 0
  else none

/-- The address register named by a LOOPM: bits [55:53]. -/
def iLoopRb (w : Nat) : Nat := fld w 53 3

/-! ## CVT (R202) -/

def cvOn (w : Nat) : Bool := bit w 57
def cvS (w : Nat) : Nat := fld w 52 5
def cvD (w : Nat) : Nat := fld w 47 5
def cvRnd (w : Nat) : Nat := fld w 45 2
def cvOvf (w : Nat) : Nat := fld w 44 1
def cvRs (w : Nat) : Nat := fld w 41 3
def cvStream (w : Nat) : Nat := fld w 0 16

/-- A CVT whose fields R202 allows. -/
def cvtOk (w : Nat) : Bool :=
  if cvOn w then
    fmtKnown (cvS w) && fmtKnown (cvD w) && cvS w != 9 && cvS w != 10 && cvD w != 9 && cvD w != 10
    && !(fmtMx (cvS w) && fmtMx (cvD w)) && cvRnd w != 3
  else fld w 0 57 == 0

/-- A MOV length the conversion allows (R202). -/
def cvtLenOk (w n : Nat) : Bool :=
  let need := fun f => if fmtMx f then 32 else if fmtBits f == 6 then 4 else if fmtBits f == 4 then 2 else 1
  n % need (cvS w) == 0 && n % need (cvD w) == 0

/-! ## STREAM and SPLOAD bodies (Table 6.6) -/

def stEntry (m : Nat) : Nat := fld m 32 5
def stDl (m : Nat) : Bool := bit m 40
def stRate (m : Nat) : Nat := 16 * 2 ^ fld m 41 2
def stBase (m : Nat) : Nat := fld m 48 48
def stStep (m : Nat) : Nat := fld m 96 24
def stP0 (m : Nat) : ARef := { addr := fld m 128 48, dev := bit m 176 }
def stP1 (m : Nat) : ARef := { addr := fld m 192 48, dev := bit m 240 }

/-- The reserved fields of a STREAM body. -/
def streamBodyOk (m : Nat) : Bool :=
  fld m 37 3 == 0 && fld m 43 5 == 0 && fld m 120 8 == 0 && fld m 177 15 == 0 && fld m 241 15 == 0
  && (stDl m || (fld m 41 2 == 0 && stBase m == 0 && stStep m == 0))

/-- The program of a STREAM: (slot, instruction) from entry up to and including the first END; none if there is none (R199). -/
def progFrom (store : Table Nat) : Nat → Nat → Option (List (Nat × Nat))
  | 0, _ => none
  | n + 1, s =>
    if s ≥ 32 then none
    else
      let w := store.get 0 s
      if iOp w = opEnd then some [(s, w)]
      else (progFrom store n (s + 1)).map (fun t => (s, w) :: t)

/-- Slot of the program's END. -/
def progEnd (p : List (Nat × Nat)) : Nat := (p.getLast?.map (·.1)).getD 0

/-- Descriptor slots the program names (R215). -/
def progTds (p : List (Nat × Nat)) : NSet :=
  p.foldl (fun a sw => if [opLdd, opRfill, opRdone, opRtake, opRfree].contains (iOp sw.2) then a.add (iTd sw.2) else a) []

/-- Ring descriptors the program names (R205). -/
def progRings (p : List (Nat × Nat)) : NSet :=
  p.foldl (fun a sw => if [opRfill, opRdone, opRtake, opRfree].contains (iOp sw.2) then a.add (iTd sw.2) else a) []

/-- Loops as (slot, counter, end). -/
def progLoops (p : List (Nat × Nat)) : List (Nat × Nat × Nat) :=
  p.filterMap (fun sw => if iOp sw.2 = opLoop || iOp sw.2 = opLoopm then some (sw.1, iCn sw.2, iEnd sw.2) else none)

/-- Loops obey R199: a loop ends after its slot and before END, nests, and does not reuse an enclosing loop's counter. -/
def loopsOk (p : List (Nat × Nat)) : Bool :=
  let ls := progLoops p
  ls.all (fun l => l.1 < l.2.2 && l.2.2 < progEnd p)
  && ls.all (fun o => ls.all (fun i => !(o.1 < i.1 && i.1 ≤ o.2.2) || (i.2.2 ≤ o.2.2 && i.2.1 != o.2.1)))

/-- The conversion of a program: its CVT instructions with on = 1 or 0. -/
def progCvts (p : List (Nat × Nat)) : List (Nat × Nat) := p.filter (fun sw => iOp sw.2 = opCvt)

/-- CVT placement and MOV lengths obey R202: at most one CVT, outside every loop, before every MOV, PUSH and POP. -/
def cvtPlaceOk (p : List (Nat × Nat)) : Bool :=
  match progCvts p with
  | [] => true
  | [(s, w)] =>
    cvtOk w && (progLoops p).all (fun l => !(l.1 < s && s ≤ l.2.2))
    && p.all (fun sw => !([opMov, opPush, opPop].contains (iOp sw.2)) || s < sw.1)
    && (!cvOn w || p.all (fun sw => iOp sw.2 != opMov || cvtLenOk w (iLen sw.2)))
  | _ => false

/-- One instruction's own form (Table 6.9, order 2). -/
def instrOk (e : Nat) (w : Nat) : Bool :=
  match iMask (iOp w) with
  | none => false
  | some m =>
    Nat.land (fld w 0 58) m == fld w 0 58
    && (!(iOp w = opPush || iOp w = opPop) || (e == 3 && iLen w % 16 == 0))
    && (!(iOp w = opSwt) || (iRa w ≤ 3 && (!(bit w 54) || iRa w ≤ 1) && ctrWf (iCtr w)))
    && (!(iOp w = opSsig) || (1 ≤ iVal w && ctrWf (iCtr w)))

/-- Rights to the counters a program names (Table 6.9, order 4). -/
def State.progRights (s : State) (c : Nat) (descs : Table Nat) (p : List (Nat × Nat)) : Bool :=
  p.all (fun sw =>
    let w := sw.2
    let d := descs.get 0 (iTd w)
    if iOp w = opRfill then s.mayTest c (dFree d)
    else if iOp w = opRdone then s.mayAdd c (dRdy d)
    else if iOp w = opRtake then s.mayTest c (dRdy d)
    else if iOp w = opRfree then s.mayAdd c (dFree d)
    else if iOp w = opSwt then s.mayTest c (iCtr w)
    else if iOp w = opSsig then (if bit w 54 then s.mayTest c (iCtr w) else s.mayAdd c (iCtr w))
    else true)

/-- The checks of Table 6.9: OK, or the status of the first that fails. -/
def State.streamCheck (s : State) (c e : Nat) (m : Nat) (store descs : Table Nat) (poisoned : Nat → Bool) : Nat :=
  match progFrom store 32 (stEntry m) with
  | none => eFormat
  | some p =>
    if (progTds p).any poisoned then ePoison
    else if !(streamBodyOk m) || !(p.all (fun sw => instrOk e sw.2)) || !(loopsOk p) || !(cvtPlaceOk p)
        || (progRings p).length > 4 || !((progTds p).all (fun t => descOk (descs.get 0 t))) then eFormat
    else if (progRings p).any (fun t => dNbuf (descs.get 0 t) == 0 || dSpace (descs.get 0 t)) then eFormat
    else if !(s.progRights c descs p) then ePermission
    else eOk

/-! ## Loops and the sequencer (R199) -/

/-- The completion step after slot `t` over the active loops, innermost first. -/
def loopExit (x : Se) (t : Nat) : List Nat → Se
  | [] => { x with active := [], pc := t + 1 }
  | l :: rest =>
    if x.lend.get 0 l = t then
      let n := x.ctrs.get 0 l - 1
      if n = 0 then loopExit { x with ctrs := x.ctrs.put l 0 } t rest
      else { x with ctrs := x.ctrs.put l n, active := l :: rest, pc := x.lstart.get 0 l }
    else { x with active := l :: rest, pc := t + 1 }

/-- Move past the instruction at the pc. -/
def Se.past (x : Se) : Se := loopExit x x.pc x.active

/-- Enter a loop of `n` turns with counter `cn` and last slot `e` (R199). -/
def Se.enterLoop (x : Se) (cn e n : Nat) : Se :=
  if n = 0 then loopExit x e x.active
  else { x with ctrs := x.ctrs.put cn n, lstart := x.lstart.put cn (x.pc + 1), lend := x.lend.put cn e,
                active := cn :: x.active, pc := x.pc + 1 }

/-- The instruction at the pc. -/
def Se.cur (x : Se) : Nat := x.store.get 0 x.pc

/-- An address register. -/
def Se.ar (x : Se) (i : Nat) : ARef := x.a.get {} i

/-- Set an address register; arithmetic is modulo 2⁴⁸ (R197). -/
def Se.setA (x : Se) (i addr : Nat) (dev : Bool) : Se := { x with a := x.a.put i { addr := addr % 2 ^ 48, dev := dev } }

/-- The descriptor an instruction names, as read at acceptance. -/
def Se.desc (x : Se) (w : Nat) : Nat := x.descs.get 0 (iTd w)

/-- Effects of the address instructions and of the ring instructions on the address registers (Table 6.7, R205). -/
def Se.addrEffect (x : Se) (w : Nat) : Se :=
  if iOp w = opSeta then x.setA (iRa w) (fld w 0 48) (bit w 48)
  else if iOp w = opAdda then x.setA (iRa w) (((x.ar (iRb w)).addr : Int) + sfld w 0 32 + 2 ^ 48).toNat (x.ar (iRb w)).dev
  else if iOp w = opAddr then x.setA (iRa w) ((x.ar (iRb w)).addr + (x.ar (iRc w)).addr) (x.ar (iRb w)).dev
  else if iOp w = opLdd then
    let d := x.desc w
    x.setA (iRa w) (if bit w 39 then dScaleBase d else dBase d) (dSpace d)
  else if iOp w = opSetx then { x with x := fld w 0 48 }
  else if iOp w = opRfill || iOp w = opRtake then
    let d := x.desc w
    let sl := x.slots.get 0 (iTd w)
    let y := x.setA (iRa w) (dBase d + sl * dSlotStride d) false
    { y with slots := y.slots.put (iTd w) ((sl + 1) % dNbuf d) }
  else x

/-- Source and destination bytes of a MOV of length field `n` under the conversion in force (R200, R202). -/
def movBytes (cvt : Option Nat) (n : Nat) : Nat × Nat :=
  match cvt with
  | some w => (rowBytes (fmtBits (cvS w)) n, rowBytes (fmtBits (cvD w)) n)
  | none => (n, n)

/-- MX blocks of a MOV. -/
def movBlocks (cvt : Option Nat) (n : Nat) : Nat :=
  match cvt with
  | some w => if fmtMx (cvS w) || fmtMx (cvD w) then n / 32 else 0
  | none => 0

/-- The registers after a MOV, PUSH or POP (R200, R202). -/
def Se.movEffect (x : Se) (w : Nat) : Se :=
  if iOp w = opMov then
    let b := movBytes x.cvt (iLen w)
    let y := if iInc w then
        (x.setA (iRa w) ((x.ar (iRa w)).addr + b.2) (x.ar (iRa w)).dev) else x
    let y := if iInc w then
        (y.setA (iRb w) ((y.ar (iRb w)).addr + b.1) (y.ar (iRb w)).dev) else y
    match x.cvt with
    | some cw =>
      let y := { y with x := (y.x + iLen w) % 2 ^ 48 }
      if fmtMx (cvS cw) || fmtMx (cvD cw) then y.setA (cvRs cw) ((y.ar (cvRs cw)).addr + iLen w / 32) (y.ar (cvRs cw)).dev else y
    | none => y
  else if iOp w = opPush then
    (if iInc w then x.setA (iRb w) ((x.ar (iRb w)).addr + iLen w) (x.ar (iRb w)).dev else x)
  else if iOp w = opPop then
    (if iInc w then x.setA (iRa w) ((x.ar (iRa w)).addr + iLen w) (x.ar (iRa w)).dev else x)
  else x

/-! ## The walk of a delivery (R645) -/

/-- What the walk of a delivery finds; `cnts` are LOOPM counts it has read from own scratchpad, by slot, and `rds` their addresses. -/
inductive WalkRes where
  /-- the piece count -/
  | count (n : Nat) (cnts : Table Nat) (rds : List Nat)
  /-- it needs the LOOPM count at a device address -/
  | read (slot addr : Nat) (cnts : Table Nat) (rds : List Nat)
  /-- it halts the queue -/
  | halt (status : Nat) (rds : List Nat)
  deriving DecidableEq, Repr

/-- Write pieces of a run of `n` bytes at `r` bytes a cycle. -/
def runPieces (n r : Nat) : Nat := cdiv n r

/-- Walk the instructions of a delivery without executing them. `written` holds registers the delivery has written, `seen` the
LOOPMs it has met, `n` the pieces counted. -/
def walkGo (sp : Spad) (r : Nat) : Nat → Se → NSet → NSet → Nat → Table Nat → List Nat → WalkRes
  | 0, _, _, _, _, _, rds => .halt eFormat rds
  | fuel + 1, x, written, seen, n, cnts, rds =>
    let w := x.cur
    let op := iOp w
    if op = opRdone || op = opDeliv || op = opEnd then .count n cnts rds
    else if op = opLoop then walkGo sp r fuel (x.enterLoop (iCn w) (iEnd w) (fld w 0 24)) written seen n cnts rds
    else if op = opLoopm then
      let a := x.ar (iLoopRb w)
      if written.has (iLoopRb w) || seen.has x.pc then .halt eFormat rds
      else match x.walkCnt.get none x.pc with
        | some cnt => walkGo sp r fuel (x.enterLoop (iCn w) (iEnd w) cnt) written (seen.add x.pc) n cnts rds
        | none =>
          if a.addr % 4 != 0 then .halt eRange rds
          else if a.dev then .read x.pc a.addr cnts rds
          else if a.addr + 4 > spadSize then .halt eRange rds
          else
            let cnt := sp.nat a.addr 4
            if sp.bad a.addr 4 then .halt ePoison (rds ++ [a.addr])
            else if cnt ≥ 2 ^ 24 then .halt eRange (rds ++ [a.addr])
            else walkGo sp r fuel (x.enterLoop (iCn w) (iEnd w) cnt) written (seen.add x.pc) n (cnts.put x.pc cnt) (rds ++ [a.addr])
    else if op = opMov then
      let b := movBytes x.cvt (iLen w)
      let own := !(x.ar (iRa w)).dev
      let scaleOwn := match x.cvt with | some cw => fmtMx (cvD cw) && !(x.ar (cvRs cw)).dev | none => false
      let k := (if own then runPieces b.2 r else 0) + (if scaleOwn then 1 else 0)
      let wr := if iInc w then (written.add (iRa w)).add (iRb w) else written
      let wr := match x.cvt with | some cw => if movBlocks x.cvt (iLen w) != 0 then wr.add (cvRs cw) else wr | none => wr
      walkGo sp r fuel (x.movEffect w).past wr seen (n + k) cnts rds
    else if op = opPop then
      walkGo sp r fuel (x.movEffect w).past (if iInc w then written.add (iRa w) else written) seen (n + runPieces (iLen w) r) cnts rds
    else if op = opPush then
      walkGo sp r fuel (x.movEffect w).past (if iInc w then written.add (iRb w) else written) seen n cnts rds
    else if op = opPage then walkGo sp r fuel (x.setA (iRa w) 0 true).past (written.add (iRa w)) seen n cnts rds
    else if op = opCvt then walkGo sp r fuel ({ x with cvt := if cvOn w then some w else none }.past) written seen n cnts rds
    else if [opSeta, opAdda, opAddr, opLdd, opRfill, opRtake].contains op then
      walkGo sp r fuel (x.addrEffect w).past (written.add (iRa w)) seen n cnts rds
    else walkGo sp r fuel x.past written seen n cnts rds

/-- The walk from the pc. -/
def Se.walk (x : Se) (sp : Spad) (r : Nat) : WalkRes := walkGo sp r (2 ^ 40) x [] [] 0 [] []

/-! ## The shape of a move (R200, R202, R209, R212, R213) -/

/-- Pieces of `[a, a + n)`, broken at every boundary of `b` bytes, as (offset, bytes). -/
def cutAt (b a n : Nat) : List (Nat × Nat) :=
  if n = 0 then []
  else (List.range ((a + n - 1) / b - a / b + 1)).map (fun i =>
    let lo := max a (b * (a / b + i))
    let hi := min (a + n) (b * (a / b + i) + b)
    (lo - a, hi - lo))

/-- Pieces of a source, broken at every 128 B boundary (R200). -/
def piecesOf (a n : Nat) : List (Nat × Nat) := cutAt 128 a n

/-- Is the source, or the destination, of a move in an MX format? -/
def SeMove.mxS (m : SeMove) : Bool := match m.cvt with | some w => fmtMx (cvS w) | none => false
def SeMove.mxD (m : SeMove) : Bool := match m.cvt with | some w => fmtMx (cvD w) | none => false

/-- Destination bytes whose values the first `b` source bytes fix. An MX block has its scale from all its elements. (DEDUCED, log entry 33) -/
def SeMove.destEnd (m : SeMove) (b : Nat) : Nat :=
  if m.sn ≤ b then m.dn
  else match m.cvt with
    | none => b
    | some w =>
      let n := b * 8 / fmtBits (cvS w)
      (if m.mxD then n / 32 * 32 else n) * fmtBits (cvD w) / 8

/-- Source bytes that the first `h` destination bytes need. -/
def SeMove.srcNeed (m : SeMove) (h : Nat) : Nat :=
  if m.dn ≤ h then m.sn
  else match m.cvt with
    | none => h
    | some w =>
      let n := cdiv (h * 8) (fmtBits (cvD w))
      min m.sn (cdiv ((if m.mxD then cdiv n 32 * 32 else n) * fmtBits (cvS w)) 8)

/-- Is a piece at offset `o` among those that the first `b` source bytes need: it begins before, or holds scale bytes? -/
def SeMove.wants (m : SeMove) (b o : Nat) : Bool := decide (o < b) || decide (m.sn ≤ o)

/-- Have the pieces that the first `h` destination bytes need been requested, and has their data arrived? -/
def SeMove.ready (m : SeMove) (h : Nat) : Bool :=
  let b := m.srcNeed h
  m.todo.all (fun p => !(m.wants b p.1)) && m.await.all (fun o => !(m.wants b o))

/-- Destination runs of the source pieces, as (offset, bytes) (R213). -/
def SeMove.runs (m : SeMove) : List (Nat × Nat) :=
  ((piecesOf m.src.addr m.sn).map (fun p => (m.destEnd p.1, m.destEnd (p.1 + p.2) - m.destEnd p.1))).filter (fun p => p.2 != 0)

/-- Write pieces in own scratchpad, as (scale bytes?, offset, bytes): runs of `r` bytes under deadline delivery, else those of the source
pieces; an MX destination's scale bytes are one further run (R209, R213). -/
def SeMove.ownRuns (m : SeMove) (r : Option Nat) : List (Bool × Nat × Nat) :=
  (if m.dst.dev then [] else match r with
    | some r => (List.range (cdiv m.dn r)).map (fun i => (false, i * r, min r (m.dn - i * r)))
    | none => m.runs.map (fun p => (false, p.1, p.2)))
  ++ (if m.mxD && !m.scale.dev then [(true, 0, m.blocks)] else [])

/-- Pieces sent to a device destination, none across a 256 B block (R207). (DESIGN CHOICE, log entry 155) -/
def SeMove.devRuns (m : SeMove) : List (Nat × Nat) :=
  if !m.dst.dev then []
  else m.runs.flatMap (fun p => (cutAt 256 (m.dst.addr + p.1) p.2).map (fun q => (p.1 + q.1, q.2)))

/-- Everything of a move is requested and written. -/
def SeMove.finished (m : SeMove) (r : Option Nat) : Bool :=
  m.todo.isEmpty && m.await.isEmpty && (m.ownRuns r).length ≤ m.done && m.devRuns.length ≤ m.sent && (m.scaled || !(m.mxD && m.scale.dev))

/-- Bytes in a list of runs. -/
def runBytes (l : List (Nat × Nat)) : Nat := l.foldl (fun n p => n + p.2) 0

/-- Destination bytes requested and not yet written or sent (R212, R214). The scale bytes of an MX destination are not counted. (DESIGN CHOICE, log entry 140) -/
def SeMove.held (m : SeMove) (r : Option Nat) : Nat :=
  m.destEnd m.asked - (if m.dst.dev then runBytes (m.devRuns.take m.sent)
    else runBytes (((m.ownRuns r).take m.done).filterMap (fun p => if p.1 then none else some p.2)))

/-- Destination bytes of a source piece. -/
def SeMove.pieceBytes (m : SeMove) (p : Nat × Nat) : Nat := if m.sn ≤ p.1 then 0 else m.destEnd (p.1 + p.2) - m.destEnd p.1

/-- Put arrived source bytes into a move, at cycle `now`; `async`: they crossed an asynchronous boundary. -/
def SeMove.arrive (m : SeMove) (off : Nat) (data : List Byte) (bad : Nat → Bool) (async : Bool) (now : Nat) : SeMove :=
  { m with got := m.got.writeBytes off data, bad := ((List.range data.length).filter bad).foldl (fun b k => b.add (off + k)) m.bad,
           await := m.await.rem off, arrs := if async then m.arrs.put off now else m.arrs }

/-- The size of a landing buffer and of a store buffer (R212, R214). -/
def seBuffer : Nat := 16384

/-- Does a device address cross an asynchronous boundary as a source or destination of a stream (R211, R213, R214)? -/
def devAsync (a : Nat) : Bool := targetAsync (targetOf a)

/-- Is a device address stack memory? -/
def isStack (a : Nat) : Bool := decide (a < stackTop)

/-! ## The STREAM in progress -/

/-- The STREAM in progress, as a number. -/
def Se.ent (x : Se) : Nat := x.prog.toNat

/-- The rate of deadline delivery, if it is in force. -/
def Se.rate (x : Se) : Option Nat := if stDl x.ent then some (stRate x.ent) else none

/-- Occupancy of the landing buffer, or of the store buffer (R212, R214). -/
def Se.occupied (x : Se) (dev : Bool) : Nat := ((x.moves.filter (fun m => m.dst.dev == dev)).map (fun m => m.held x.rate)).foldl (· + ·) 0

/-- The move whose pieces the sequencer is requesting: the last one, while pieces remain. -/
def Se.moving (x : Se) : Option SeMove := match x.moves.getLast? with | some m => if m.todo.isEmpty then none else some m | none => none

/-- Apply a function to a move. -/
def Se.modMove (x : Se) (mid : Nat) (f : SeMove → SeMove) : Se := { x with moves := x.moves.map (fun m => if m.id == mid then f m else m) }

/-! ## Faults -/

/-- A fault found while a program runs: the queue halts at the STREAM entry; earlier moves go on (R216). -/
def State.seFault (s : State) (c e status : Nat) : State :=
  match (s.se c e).entry with
  | none => s
  | some m => (s.modSe c e (fun x => { x with entry := none, faulted := true })).reject c (seQueue e) status m

/-- What stands before move `mid` of delivery `k`: nothing after a faulting instruction takes effect, and the delivery point that follows
it has no action (R216). -/
def Se.before (x : Se) (mid k : Nat) : Se :=
  { x with moves := x.moves.filter (fun m => decide (m.id < mid)), full := false,
           acts := x.acts.takeWhile (fun a => match a with | .point j _ _ _ => decide (j < k) | .ssig _ _ _ mv _ => decide (mv ≤ mid)) }

/-- A fault of the move `mid` of delivery `k`, found after the sequencer went past it: an access refused at its target (R216). (DESIGN CHOICE, log entry 140) -/
def State.seFaultAt (s : State) (c e mid k status : Nat) : State := (s.modSe c e (fun x => x.before mid k)).seFault c e status

/-! ## Requests (R200, R207, R214) -/

/-- Send the stack request held in the outbound register (R207). -/
def State.seFlush (s : State) (c e : Nat) : State :=
  match (s.se c e).held with
  | none => s
  | some h =>
    let s1 := (s.modSeRequests c (fun n => satAdd top32 n 1)).modSe c e (fun x => { x with held := none })
    if h.wr then s1.devWrite c h.addr h.data h.bad (.seWrite c e h.id) (.seWrite c e h.id h.addr h.data h.bad (s.meshTo c h.addr))
    else s1.devRead c h.addr h.len (.seRead c e h.id) (.seRead c e h.id h.addr h.len (s.meshTo c h.addr))

/-- Does a stack piece join the held request (R207)? -/
def Se.joins (x : Se) (wr : Bool) (a n : Nat) : Bool :=
  match x.held with
  | some h => h.wr == wr && h.addr + h.len == a && h.addr / 256 == (a + n - 1) / 256
  | none => false

/-- Request one piece of a move from a device address: a stack piece passes the outbound register, where it may join the held request (R207). -/
def State.seReadPiece (s : State) (c e : Nat) (mid off a n : Nat) : State :=
  let x := s.se c e
  if !isStack a then
    (s.modSe c e (fun y => { y with nextId := y.nextId + 1, reads := y.reads ++ [{ id := y.nextId, kind := .pieces [(mid, off, n)], async := devAsync a }],
                                    readAsync := y.readAsync || devAsync a })).devRead c a n (.seRead c e x.nextId) (.seRead c e x.nextId a n (s.meshTo c a))
  else
    let s1 :=
      if x.joins false a n then
        (s.modSeJoined c (fun k => satAdd top32 k 1)).modSe c e (fun y =>
          { y with held := y.held.map (fun h => { h with len := h.len + n }),
                   reads := y.reads.map (fun r => if some r.id == y.held.map (·.id) then (match r.kind with
                     | .pieces ps => { r with kind := .pieces (ps ++ [(mid, off, n)]) } | _ => r) else r) })
      else
        (s.seFlush c e).modSe c e (fun y =>
          { y with nextId := y.nextId + 1, held := some { id := y.nextId, addr := a, len := n }, readAsync := true,
                   reads := y.reads ++ [{ id := y.nextId, kind := .pieces [(mid, off, n)], async := true }] })
    if (a + n) % 256 = 0 then s1.seFlush c e else s1

/-- Request a value the sequencer waits for: a request of its own. (DESIGN CHOICE, log entry 155) -/
def State.seReadValue (s : State) (c e : Nat) (kind : SeReadKind) (a n : Nat) : State :=
  let s1 := if isStack a then (s.seFlush c e).modSeRequests c (fun k => satAdd top32 k 1) else s
  let id := (s1.se c e).nextId
  (s1.modSe c e (fun y => { y with nextId := id + 1, waitRead := true, reads := y.reads ++ [{ id := id, kind := kind, async := devAsync a }],
                                   readAsync := y.readAsync || devAsync a })).devRead c a n (.seRead c e id) (.seRead c e id a n (s.meshTo c a))

/-- The command aperture of the core's own vat (R370). -/
def State.isAperture (s : State) (c a : Nat) : Bool :=
  match targetOf a, s.vatOfCore c with
  | .reg off, some v => 0x501000 + 0x10000 * v ≤ off && off < 0x502000 + 0x10000 * v
  | _, _ => false

/-- A command record leaves as eight SECMD packets, copy `k` to the controller of stack `k` with the address of the aperture plus `k` (R370). -/
def State.seCommand (s : State) (c e id a : Nat) (data : List Byte) (bad : NSet) : State :=
  (List.range 8).foldl (fun s k => s.send (.seCmd c e id k (a + k) data bad (meshToEdge (if k < 4 then 0 else 1) c))) s

/-- The cycle A of a device write made now: with the win field of a stack engine command's record, or VAT_SE_ACKWIN.cycles when that is 0;
0 for a write that crosses no asynchronous boundary (R214, R371). -/
def State.ackCycle (s : State) (c a : Nat) (data : List Byte) : Nat :=
  let now := (s.cycleOf c).toNat
  let win := (s.vat ((s.vatOfCore c).getD 0)).ackWinLatch
  if s.isAperture c a then now + (if fld (leNat data) 32 32 = 0 then win else fld (leNat data) 32 32)
  else if devAsync a then now + win else 0

/-- The signals after move `mid`, and the completion, wait for cycle `at_` (R214). -/
def Se.awaitAck (x : Se) (mid at_ : Nat) : Se :=
  { x with asyncA := max x.asyncA at_,
           acts := x.acts.map (fun a => match a with | .ssig ctr n sub mv win => .ssig ctr n sub mv (if mid < mv then max win at_ else win) | p => p) }

/-- Send one piece of a move to a device address (R207, R214, R217). -/
def State.seWrite (s : State) (c e : Nat) (m : SeMove) (a : Nat) (data : List Byte) (bad : NSet) : State :=
  let n := data.length
  let at_ := s.ackCycle c a data
  let s0 := s.modSe c e (fun y => y.awaitAck m.id at_)
  let x := s0.se c e
  let joined := isStack a && x.joins true a n
  let s1 := if isStack a && !joined then s0.seFlush c e else s0
  let id := if joined then (x.held.map (·.id)).getD 0 else x.nextId
  let s2 := s1.modSe c e (fun y =>
    let y1 := if m.push then { y with pushOut := y.pushOut ++ [(id, a, n)] } else y
    if joined then { y1 with held := y1.held.map (fun h => { h with len := h.len + n, data := h.data ++ data, bad := bad.foldl (fun b k => b.add (h.len + k)) h.bad }) }
    else
      { y1 with nextId := id + 1, writes := y1.writes ++ [{ id := id, async := at_ != 0, mv := m.id, k := m.k }],
                cmdA := if s.isAperture c a then y1.cmdA ++ [(id, at_)] else y1.cmdA,
                held := if isStack a then some { wr := true, id := id, addr := a, len := n, data := data, bad := bad } else y1.held })
  let s3 :=
    if joined then s2.modSeJoined c (fun k => satAdd top32 k 1)
    else if isStack a then s2
    else if s.isAperture c a then s2.seCommand c e id a data bad
    else s2.devWrite c a data bad (.seWrite c e id) (.seWrite c e id a data bad (s.meshTo c a))
  (if isStack a && (a + n) % 256 = 0 then s3.seFlush c e else s3).noteCoreWrite c a data (fun i => bad.has i)

/-! ## Conversions (R202, R217) -/

/-- The result of a move's conversion: destination bytes and their poisoned offsets, scale bytes and theirs, and flags. -/
structure MovOut where
  bytes : List Byte := []
  bad : NSet := []
  scales : List Byte := []
  scaleBad : NSet := []
  flags : BitVec 8 := 0
  deriving DecidableEq, Repr

/-- Is some byte of a bit range of the source poisoned? -/
def badBits (bad : NSet) (lo n : Nat) : Bool := bad.hasRange (lo / 8) ((lo + n - 1) / 8 - lo / 8 + 1)

/-- Poisoned byte offsets of destination elements, each element poisoning the bytes it touches. -/
def badOffsets (bits : Nat) (marks : List Bool) : NSet :=
  (marks.zipIdx.flatMap (fun p => if p.1 then
    (List.range ((p.2 * bits + bits - 1) / 8 - p.2 * bits / 8 + 1)).map (fun i => p.2 * bits / 8 + i) else [])).foldl NSet.add []

/-- Convert the source of a move (R202): plain bytes without a conversion. A NaN operand raises nan_in (Table 2.6) also where the
destination format has no NaN and nan_norep is raised (Table 2.5). (DEDUCED, log entry 33; DESIGN CHOICE, log entry 145) -/
def SeMove.output (m : SeMove) (seed sheet : Nat) : MovOut :=
  match m.cvt with
  | none => { bytes := m.got.readBytes 0 m.sn, bad := m.bad }
  | some w =>
    let n := if fmtBits (cvS w) = 0 then 0 else m.sn * 8 / fmtBits (cvS w)
    let src := m.got.readBytes 0 m.sn
    let sb := fmtBits (cvS w)
    let db := fmtBits (cvD w)
    let vals := (List.range n).map (fun i =>
      let x := unpackElem sb src i
      let v := if fmtMx (cvS w) then mxValue (cvS w) x (m.got.read (m.sn + i / 32)).toNat else decodeElem (cvS w) x
      let bd := badBits m.bad (i * sb) sb || (fmtMx (cvS w) && m.bad.has (m.sn + i / 32))
      (v, bd, srWord seed sheet (cvStream w) 1 (m.x + i)))
    let nanIn : BitVec 8 := if vals.any (fun p => p.1.isNan) then fNanIn else 0
    if fmtMx (cvD w) then
      let blocks := (List.range (n / 32)).map (fun b =>
        let vs := (vals.drop (32 * b)).take 32
        (mxProduce (cvD w) (cvRnd w) (vs.map (fun p => (p.1, p.2.2))), vs.map (fun p => p.2.1)))
      { bytes := packElems db (blocks.flatMap (fun b => b.1.elems)),
        bad := badOffsets db (blocks.flatMap (fun b => b.2)),
        scales := blocks.map (fun b => BitVec.ofNat 8 b.1.scale),
        scaleBad := (blocks.zipIdx.filterMap (fun p => if p.1.2.any (fun b => b) then some p.2 else none)),
        flags := blocks.foldl (fun a b => a ||| b.1.flags) nanIn }
    else
      let cs := vals.map (fun p => convert (cvD w) (cvRnd w) (cvOvf w) p.2.2 p.1)
      { bytes := packElems db (cs.map (·.bits)), bad := badOffsets db (vals.map (fun p => p.2.1)),
        flags := cs.foldl (fun a c => a ||| c.flags) nanIn }

/-- Slice of a poison set, as offsets from `lo`. -/
def sliceBad (bad : NSet) (lo n : Nat) : NSet := (bad.filter (fun k => lo ≤ k && k < lo + n)).map (fun k => k - lo)

/-- The destination bytes of a move of core `c`, as far as its source has arrived. -/
def State.movOut (s : State) (c : Nat) (m : SeMove) : MovOut :=
  let v := s.vat ((s.vatOfCore c).getD 0)
  m.output v.srSeedLatch.toNat v.srSheet.toNat

/-- A move all of whose bytes are written leaves the engine, and its flags enter ARITH_STATUS (R202, R56). -/
def State.seDone (s : State) (c e mid : Nat) : State :=
  let x := s.se c e
  match x.moves.find? (fun m => m.id == mid) with
  | some m =>
    if m.finished x.rate then (s.modSe c e (fun y => { y with moves := y.moves.filter (fun z => z.id != mid) })).orArith c (s.movOut c m).flags
    else s
  | none => s

/-- Send what is ready of one move to its device destinations: its elements in source order, then a device scale array. Answers whether
all of it is sent (R214). -/
def State.seSend1 (s : State) (c e : Nat) (m : SeMove) : State × Bool :=
  let o := s.movOut c m
  let rs := (m.devRuns.drop m.sent).takeWhile (fun p => m.ready (p.1 + p.2))
  let s1 := rs.foldl (fun s p => s.seWrite c e m (m.dst.addr + p.1) ((o.bytes.drop p.1).take p.2) (sliceBad o.bad p.1 p.2)) s
  let sent := m.sent + rs.length
  let scale := m.mxD && m.scale.dev && !m.scaled && m.devRuns.length ≤ sent && m.ready m.dn
  let s2 := if scale then (cutAt 256 m.scale.addr m.blocks).foldl (fun s p =>
      s.seWrite c e m (m.scale.addr + p.1) ((o.scales.drop p.1).take p.2) (sliceBad o.scaleBad p.1 p.2)) s1 else s1
  ((s2.modSe c e (fun y => y.modMove m.id (fun z => { z with sent := sent, scaled := z.scaled || scale }))).seDone c e m.id,
    m.devRuns.length ≤ sent && (scale || m.scaled || !(m.mxD && m.scale.dev)))

/-- Send what is ready to device addresses, move after move (R214). -/
def State.seSend (s : State) (c e : Nat) : State :=
  ((s.se c e).moves.foldl (fun (t : State × Bool) m => if t.2 then t.1.seSend1 c e m else t) (s, true)).1

/-- Request one piece of the move in progress: an own piece is read at once, a device piece is requested (R187, R189, R200). -/
def State.sePiece (s : State) (c e : Nat) (m : SeMove) (p : Nat × Nat) : State :=
  let now := (s.cycleOf c).toNat
  let scale := decide (m.sn ≤ p.1)
  let ref := if scale then m.scale else m.src
  let a := ref.addr + (if scale then p.1 - m.sn else p.1)
  let s1 := s.modSe c e (fun y => y.modMove m.id (fun z =>
    { z with todo := z.todo.tail, asked := if scale then z.asked else p.1 + p.2, reqs := z.reqs.put p.1 (now + 1) }))
  if ref.dev then (s1.modSe c e (fun y => y.modMove m.id (fun z => { z with await := z.await.add p.1 }))).seReadPiece c e m.id p.1 a p.2
  else
    let sp := s1.spad c
    (s1.noteRead c a p.2).modSe c e (fun y => y.modMove m.id (fun z =>
      z.arrive p.1 (sp.mem.readBytes a p.2) (fun i => sp.badAt (a + i)) false now))

/-- The sequencer finds its buffer full. A store buffer that fills in deterministic mode while writes that cross an asynchronous
boundary are outstanding counts SBUF_STALL (R212, R214). -/
def State.seStall (s : State) (c e : Nat) (dev : Bool) : State :=
  let x := s.se c e
  let s1 := s.modSe c e (fun y => { y with full := true })
  if dev && !x.full && x.writes.any (·.async) && (s.vat ((s.vatOfCore c).getD 0)).det.detOn then s1.detBreakCore c 3 else s1

/-- Request pieces of the move in progress while its buffer has room; after the last, the sequencer goes past it (R200, R212, R214). -/
def State.seRequestGo : Nat → State → Nat → Nat → State
  | 0, s, _, _ => s
  | n + 1, s, c, e =>
    let x := s.se c e
    match x.moving with
    | none => s
    | some m =>
      match m.todo with
      | [] => s
      | p :: t =>
        if !(s.enginesOn c) then s
        else if seBuffer < x.occupied m.dst.dev + m.pieceBytes p then s.seStall c e m.dst.dev
        else
          let s1 := (s.sePiece c e m p).seSend c e
          if t.isEmpty then s1.modSe c e (fun y => { (y.movEffect y.cur).past with full := false }) else State.seRequestGo n s1 c e

/-- Go on requesting. -/
def State.seRequest (s : State) (c e : Nat) : State :=
  State.seRequestGo (match (s.se c e).moving with | some m => m.todo.length | none => 0) s c e

/-- Begin a move: the pieces of an MX source's scale array come first, then those of the source (R200, R202). (DESIGN CHOICE, log entry 140) -/
def State.seMove (s : State) (c e : Nat) (m : SeMove) : State :=
  let todo := (if m.mxS then (piecesOf m.scale.addr m.blocks).map (fun p => (m.sn + p.1, p.2)) else []) ++ piecesOf m.src.addr m.sn
  (s.modSe c e (fun y =>
    { y with nextId := y.nextId + 1, wrote := y.wrote || !m.dst.dev || (m.mxD && !m.scale.dev),
             moves := y.moves ++ [{ m with id := y.nextId, k := y.k, val := y.val, todo := todo }] })).seRequest c e

/-! ## Sequencer conditions and the delivery walk -/

/-- The sequencer of a stream engine can execute its next instruction. -/
def State.seqOn (s : State) (c e : Nat) : Bool :=
  let x := s.se c e
  s.enginesOn c && x.entry.isSome && x.mop == 1 && !x.ended && !x.faulted && !x.waitSwt && x.waitTake.isNone && !x.waitRead

/-- Keep the LOOPM counts a walk has read from own scratchpad (R645). -/
def State.walkKeep (s : State) (c e : Nat) (cnts : Table Nat) (rds : List Nat) : State :=
  (rds.foldl (fun s a => s.noteRead c a 4) s).modSe c e (fun y =>
    { y with walkCnt := cnts.foldl (fun t p => t.put p.1 (some p.2)) y.walkCnt })

/-- Before the first instruction of a delivery under deadline delivery, its pieces are counted (R645). -/
def State.seWalk (s : State) (c e : Nat) : State :=
  let x := s.se c e
  if !(stDl x.ent) || (x.nk.any (fun p => p.1 == x.k)) then s
  else match x.walk (s.spad c) (stRate x.ent) with
    | .count n cnts rds => (s.walkKeep c e cnts rds).modSe c e (fun y => { y with nk := y.nk.put y.k n })
    | .read slot addr cnts rds =>
      let s1 := s.walkKeep c e cnts rds
      if s.devRight c addr false != eOk then s1.seFault c e (s.devRight c addr false)
      else s1.seReadValue c e (.walk slot) addr 4
    | .halt st rds => (s.walkKeep c e [] rds).seFault c e st

/-- Execute one stream instruction of op `op` at the pc (Table 6.7); an uncorrectable fetch halts the engine (R327). (DESIGN CHOICE, log entry 2; DEDUCED, log entry 139) -/
def State.seInstr (s : State) (c e op : Nat) (f : State → Nat → State) : State :=
  if !(s.seqOn c e) then s
  else if NSet.has (s.se c e).storeUe (s.se c e).pc then s.seFault c e ePoison
  else if iOp (s.se c e).cur != op then s
  else
    let s1 := s.seWalk c e
    if s1.seqOn c e then f s1 (s1.se c e).cur else s1

/-- Move the sequencer past its instruction. -/
def State.sePast (s : State) (c e : Nat) : State := s.modSe c e Se.past

end Sys2Proof.Machine
end

