-- ==== Sys2Proof/Machine/StackOps.lean ====
section
/-! DEFINITION. Stack engine work (Chapter 11): reading and writing elements, charges, the element arithmetic of the ops, FP64 sums, and
the life of a command. -/

namespace Sys2Proof.Machine

/-! ## Commands in the store -/

/-- A command by number. -/
def State.stkCmd (s : State) (id : Nat) : Option StkCmd := s.mem.cmds.find? (fun k => k.id == id)

/-- Replace a command. -/
def State.setCmd (s : State) (k : StkCmd) : State := { s with mem := { s.mem with cmds := s.mem.cmds.map (fun j => if j.id == k.id then k else j) } }

/-- The base of the version a command writes. -/
def State.verBase (s : State) (k : StkCmd) : Nat := if rVout k.rec_ then (s.ver (rRegion k.rec_)).base k.target else 0

/-- Every engine has done its share, with a status. -/
def State.stkRan (s : State) (k : StkCmd) (status : Nat) : State := s.setCmd { k with stage := .ran, status := if k.status == eOk then status else k.status }

/-- Raise flags of STK_ARITH_STATUS (R377). -/
def State.orStk (s : State) (v : Nat) (f : BitVec 8) : State := s.modVat v (fun x => { x with stkArith := x.stkArith ||| f })

/-! ## Reading elements -/

/-- The bytes of element `i`. -/
def State.opndBytes (s : State) (o : Opnd) (i : Nat) : List Byte := (List.range (o.nb i)).map (fun j => s.mem.stack.read (o.at_ i j))

/-- The encoding of element `i`. -/
def State.elemEnc (s : State) (o : Opnd) (i : Nat) : Nat := fld (leNat (s.opndBytes o i)) (o.shift i) (if o.scale then 8 else o.bits)

/-- Is element `i` poisoned? -/
def State.elemBad (s : State) (o : Opnd) (i : Nat) : Bool := (List.range (o.nb i)).any (fun j => s.stackBad (o.at_ i j) 1)

/-- Element `i` of format `f` with its scale array, taken to FP32 (R377): value, flags, and whether it or its scale is poisoned. -/
def State.elemIn (s : State) (f : Nat) (o sc : Opnd) (i : Nat) : FRes × Bool :=
  let e := s.elemEnc o i
  if f = 0 then ((e, 0), s.elemBad o i)
  else if fmtMx f then
    let c := convert 0 0 1 0 (mxValue f e (s.elemEnc sc i))
    ((c.bits, c.flags), s.elemBad o i || s.elemBad sc i)
  else
    let c := convert 0 0 1 0 (decodeElem f e)
    ((c.bits, c.flags), s.elemBad o i)

/-! ## Writing elements: a buffer of bytes, each with the bits written and its poison -/

/-- Bytes to be written: value, mask of the bits written, poison. -/
abbrev WBuf := Table (Nat × Nat × Bool)

/-- Write bits into one byte of the buffer. -/
def WBuf.byte (b : WBuf) (a v m : Nat) (bad : Bool) : WBuf :=
  let o := b.get (0, 0, false) a
  b.put a ((o.1 &&& (255 - m)) ||| v, o.2.1 ||| m, o.2.2 || bad)

/-- Write element `i` of an operand. -/
def WBuf.elem (b : WBuf) (o : Opnd) (i enc : Nat) (bad : Bool) : WBuf :=
  let w := if o.scale then 8 else o.bits
  let v := (enc % 2 ^ w) <<< o.shift i
  let m := (2 ^ w - 1) <<< o.shift i
  (List.range (o.nb i)).foldl (fun (t : WBuf) j => t.byte (o.at_ i j) (fld v (8 * j) 8) (fld m (8 * j) 8) bad) b

/-- Write zero padding after the last of `n` elements of a row (R45). -/
def WBuf.pad (b : WBuf) (o : Opnd) (n : Nat) : WBuf :=
  let g := if o.scale then 1 else if o.bits = 6 then 4 else if o.bits = 4 then 2 else 1
  (List.range ((g - n % g) % g)).foldl (fun (t : WBuf) k => t.elem o (n + k) 0 false) b

/-- The buffer as runs of consecutive bytes: first address, bytes, poisoned offsets. -/
def WBuf.runs (b : WBuf) (mem : Nat → Nat) (oldBad : Nat → Bool) : List (Nat × List Byte × NSet) :=
  b.foldr (fun p l =>
    let v : Byte := BitVec.ofNat 8 (if p.2.2.1 = 255 then p.2.1 else p.2.1 ||| (mem p.1 &&& (255 - p.2.2.1)))
    let bad := p.2.2.2 || (p.2.2.1 != 255 && oldBad p.1)
    match l with
    | (a, bs, bd) :: t =>
      if a = p.1 + 1 then (p.1, v :: bs, (if bad then [0] else []) ++ bd.map (· + 1)) :: t
      else (p.1, [v], if bad then [0] else []) :: l
    | [] => [(p.1, [v], if bad then [0] else [])]) []

/-- Put bytes of one 256 B block for a command of vat `v`: to stack memory, a scratchpad, or a remote window as an RWRITE frame (R375). -/
def State.stkPut1 (s : State) (v a : Nat) (bs : List Byte) (bad : NSet) : State :=
  match targetOf a with
  | .stack _ => s.stackPut a bs (fun i => bad.has i)
  | .spad _ _ off =>
    match s.spadCore a with
    | some c => s.spadPut c off bs (fun i => bad.has i)
    | none => s
  | .remote x =>
    s.egress { f := { kind := 0xA, dst := (s.spanWin v (fld x 42 6)).2, src := s.span.node, job := (s.vat v).jobId, len := bs.length, unit := fld x 0 42,
                      data := bs, bad := badWords (fun i => bad.has i) 0 bs.length },
               vat := some v, badAt := bad.head?.map (a + ·) }
  | _ => s

/-- Write bytes of one 256 B block for a command of vat `v`; the write enters out_crc (R350). -/
def State.stkWrite1 (s : State) (v a : Nat) (bs : List Byte) (bad : NSet) : State :=
  (s.stkPut1 v a bs bad).noteWrite v a bs (fun i => bad.has i)

/-- Write bytes of a command, block by block. -/
def State.stkWrite (s : State) (v a : Nat) (bs : List Byte) (bad : NSet) : State :=
  (blocksOf a bs.length).foldl (fun s p => s.stkWrite1 v (a + p.1) ((bs.drop p.1).take p.2) (sliceBad bad p.1 p.2)) s

/-- Make the writes of a buffer. -/
def State.flush (s : State) (v : Nat) (b : WBuf) : State :=
  let mem := fun a => match targetOf a, s.spadCore a with
    | .stack _, _ => (s.mem.stack.read a).toNat
    | .spad _ _ off, some c => ((s.spad c).mem.read off).toNat
    | _, _ => 0
  (b.runs mem (fun a => a < stackTop && s.stackBad a 1)).foldl (fun s r => s.stkWrite v r.1 r.2.1 r.2.2) s

/-! ## Charges (R369, R375) -/

/-- Accesses of an operand by the engines whose elements they serve: own 256 B blocks and those of other stacks. (DEDUCED, log entry 36) -/
def Opnd.accesses (o : Opnd) (home : Nat → Nat) : Nat × Nat :=
  ((List.range o.cnt).foldl (fun (t : Option (Nat × Nat) × Nat × Nat) i =>
    let b := o.at_ i 0 / 256
    let k := (home i, b)
    if stackTop ≤ 256 * b || t.1 == some k then t
    else if stackOf (256 * b) = k.1 then (some k, t.2.1 + 1, t.2.2) else (some k, t.2.1, t.2.2 + 1)) (none, 0, 0)).2

/-- Charge accesses of 256 B: internal ones as ENG, cross traffic as XFER. (DEDUCED, log entry 91) -/
def State.chargeAcc (s : State) (v : Nat) (p : Nat × Nat) : State := (s.accountStk v 2 (256 * p.1)).accountStk v 3 (256 * p.2)

/-- The engines read the operands: words with errors are reported and the accesses charged. -/
def State.readOpnds (s : State) (v : Nat) (home : Nat → Nat) (os : List Opnd) : State :=
  os.foldl (fun s o => (o.pieces.foldl (fun s p => s.noteStack (some v) p.1 p.2) s).chargeAcc v (o.accesses home)) s

/-- The engines write the operands: the accesses are charged. -/
def State.chargeOut (s : State) (v : Nat) (home : Nat → Nat) (os : List Opnd) : State := os.foldl (fun s o => s.chargeAcc v (o.accesses home)) s

/-- A range is moved by the engine of stack `st`. (DEDUCED, log entry 91) -/
def State.chargeRange (s : State) (v st a n : Nat) : State :=
  (blocksOf a n).foldl (fun s b => let x := a + b.1; s.chargeAcc v (if stackTop ≤ x then (0, 0) else if stackOf x = st then (1, 0) else (0, 1))) s

/-- The other operand of a table row, `m` bytes at `b`, is moved by the engines that the row's bytes at `a` name: a row that crosses granules
has a home stack for each (R375). (DEDUCED, log entry 91) -/
def State.chargeRow (s : State) (v a w b m : Nat) : State :=
  (granulesOf a w).foldl (fun s p => s.chargeRange v (stackOf (a + p.1)) (b + p.1 * m / w) (p.2 * m / w)) s

/-! ## FP64 (R381, R383) -/

/-- Round a positive fraction n/d × 2^e to binary64 with RNE. -/
def f64Frac (n d : Nat) (e : Int) : Nat :=
  if n == 0 then 0
  else
    let u : Int := max (ilog2 n d + e) (-1022) - 52
    let (n', d') := scaleFrac n d (e - u)
    let enc : Int := (u + 52 + 1023 - 1) * 2 ^ 52 + roundInt 0 n' d' 0
    if enc ≥ 0x7FF0000000000000 then 0x7FF0000000000000 else enc.toNat

/-- Binary64 sum and product. (DEDUCED, log entry 92) -/
def f64Add (a b : Nat) : Nat := toF64 (FVal.add (f64 a) (f64 b)).1
/-- A square added to a sum; the square of an FP32 value is exact. -/
def f64AddSq (a : Nat) (x : FVal) : Nat := f64Add a (toF64 (FVal.mul x x).1)

/-- Square root of a positive binary64 value. (DEDUCED, log entry 92) -/
def f64Sqrt (a : Nat) : Nat :=
  match f64 a with
  | .fin _ n e =>
    let n1 := if e % 2 == 0 then n else 2 * n
    let e1 := if e % 2 == 0 then e else e - 1
    let w := n1 * 2 ^ 240
    let r := isqrt w
    f64Frac (2 * r + (if r * r == w then 0 else 1)) 1 (e1 / 2 - 121)
  | _ => a

/-- The trust ratio of LAMB (R381) from the totals, with its flags. -/
def lambRatio (sw su rmax : Nat) : FRes :=
  let w := f64 sw
  let u := f64 su
  let zero : FVal := .fin false 0 0
  let r : FRes :=
    if w.isNan || u.isNan then (nan32, fNanIn)
    else if zero.lt w && zero.lt u then
      match f64 (f64Sqrt sw), f64 (f64Sqrt su) with
      | .inf _, .inf _ => (nan32, fNanGen)
      | .inf _, _ => (inf32 false, 0)
      | _, .inf _ => (0, 0)
      | .fin _ n e, .fin _ m g => fRound (f64 (f64Frac n m (e - g))) false
      | _, _ => (nan32, fNanIn)
    else (one32, 0)
  if zero.lt (f32 rmax) && rankLt (f32 rmax) (f32 r.1) then (rmax, r.2) else r

/-! ## Optimizers (R380-R382, R388) -/

/-- a − b. -/
def fSub (a b : F32) : FRes := fAdd a (fNegBits b)
/-- √a. -/
def fSqrt (a : F32) : FRes := fFn 0x25 a

/-- What one element becomes: W, M or B, V, u, and the flags raised. -/
structure OptElem where
  w : F32 := 0
  m : F32 := 0
  v : F32 := 0
  u : F32 := 0
  flags : BitVec 8 := 0
  deriving DecidableEq, Repr

/-- Scalars of ADAM and LAMB in the order of Table 11.4. -/
def scLr (r : Nat) : F32 := rScalar r 0
def scB1 (r : Nat) : F32 := rScalar r 1
def scB2 (r : Nat) : F32 := rScalar r 2
def scEps (r : Nat) : F32 := rScalar r 3
def scLam (r : Nat) : F32 := rScalar r 4
def scBc1 (r : Nat) : F32 := rScalar r 5
def scBc2 (r : Nat) : F32 := rScalar r 6
def scGs (r : Nat) : F32 := rScalar r 7

/-- The update direction from moments (R380): (m × bc1) ÷ (√(v × bc2) + ε), with decoupled decay. -/
def adamU (r : Nat) (w m v : F32) : FRes :=
  let a := fMul m (scBc1 r)
  let b := fMul v (scBc2 r)
  let c := fSqrt b.1
  let d := fAdd c.1 (scEps r)
  let q := fDiv a.1 d.1
  let z := if bit (rAux r) 0 then (q.1, 0) else fFma (scLam r) w q.1
  (z.1, a.2 ||| b.2 ||| c.2 ||| d.2 ||| q.2 ||| z.2)

/-- m, v and u of ADAM for one element. -/
def adamMoments (r : Nat) (w m v g0 : F32) : OptElem :=
  let c1 := fSub one32 (scB1 r)
  let c2 := fSub one32 (scB2 r)
  let g1 := fMul (scGs r) g0
  let g := if bit (rAux r) 0 then fFma (scLam r) w g1.1 else (g1.1, 0)
  let m1 := fMul c1.1 g.1
  let m2 := fFma (scB1 r) m m1.1
  let v1 := fMul g.1 g.1
  let v2 := fMul c2.1 v1.1
  let v3 := fFma (scB2 r) v v2.1
  let u := adamU r w m2.1 v3.1
  { w := w, m := m2.1, v := v3.1, u := u.1, flags := c1.2 ||| c2.2 ||| g1.2 ||| g.2 ||| m1.2 ||| m2.2 ||| v1.2 ||| v2.2 ||| v3.2 ||| u.2 }

/-- ADAM (R380). (DEDUCED, log entry 92) -/
def adamElem (r : Nat) (w m v g : F32) : OptElem :=
  let e := adamMoments r w m v g
  let x := fFma (fNegBits (scLr r)) e.u w
  { e with w := x.1, flags := e.flags ||| x.2 }

/-- Phase 2 of LAMB (R381). (DEDUCED, log entry 92) -/
def lambElem (r : Nat) (ratio : F32) (w m v : F32) : OptElem :=
  let u := adamU r w m v
  let k := fMul (scLr r) ratio
  let x := fFma (fNegBits k.1) u.1 w
  { w := x.1, m := m, v := v, u := u.1, flags := u.2 ||| k.2 ||| x.2 }

/-- SGD (R382); B stands in m. (DEDUCED, log entry 92) -/
def sgdElem (r : Nat) (w b g0 : F32) : OptElem :=
  let g1 := fMul (scGs r) g0
  let g := fFma (scLam r) w g1.1
  let b1 := fFma (scB1 r) b g.1
  let d := if bit (rAux r) 1 then fFma (scB1 r) b1.1 g.1 else (b1.1, 0)
  let x := fFma (fNegBits (scLr r)) d.1 w
  { w := x.1, m := b1.1, flags := g1.2 ||| g.2 ||| b1.2 ||| d.2 ||| x.2 }

/-- The inputs of one optimizer element: W, M or B, V and G, the flags of conversion, and the first poisoned address (R388). -/
structure OptIn where
  w : F32 := 0
  m : F32 := 0
  v : F32 := 0
  g : F32 := 0
  flags : BitVec 8 := 0
  bad : Option Nat := none
  deriving DecidableEq, Repr

/-- Read the inputs of element `i`. -/
def State.optIn (s : State) (r i : Nat) : OptIn :=
  let n := rN r
  let el := fun j => elemOpnd (rSlot r j) n
  let sc := scaleOpnd (rSlot r 6) n
  let f := slFmt (rSlot r 3)
  let g := s.elemIn f (el 3) sc i
  let hasV := slEn (rSlot r 2)
  let os := [el 0, el 1] ++ (if hasV then [el 2] else []) ++ [el 3] ++ (if fmtMx f then [sc] else [])
  { w := s.elemEnc (el 0) i, m := s.elemEnc (el 1) i, v := if hasV then s.elemEnc (el 2) i else 0, g := g.1.1, flags := g.1.2,
    bad := (os.find? (fun o => s.elemBad o i)).map (fun o => o.at_ i 0) }

/-- The first poisoned input of a command's share: element and address. -/
def State.optScan (s : State) (r : Nat) : Option (Nat × Nat) :=
  (List.range (rN r)).findSome? (fun i => (s.optIn r i).bad.map (fun a => (i, a)))

/-- Record poison met by a command: the first address. -/
def StkCmd.meet (k : StkCmd) (p : Option (Nat × Nat)) : StkCmd :=
  match p with
  | some (i, a) => { k with poisoned := true, badAt := if k.poisoned then k.badAt else a, pointAt := if k.poisoned then k.pointAt else (homeOpnd k.rec_).at_ i 0 }
  | none => k

/-- The random word of output element `i` of a command (R377). -/
def State.stkRand (s : State) (v r i : Nat) : Nat :=
  srWord (s.vat v).srSeedLatch.toNat (s.vat v).srSheet.toNat (rStream r) 2 ((rX0 r + i) % 2 ^ 48)

/-- Write elements converted to format `f`, none where an element is not written (R388): an MX block's scale comes from the elements
written, and is poisoned when one of the block is not or is itself poisoned (R54). A block none of whose elements is written keeps its scale
byte and mark. (DEDUCED, log entry 90) -/
def State.putConv (s : State) (v r f : Nat) (o sc : Opnd) (b : WBuf) (es : List (Option (F32 × Bool))) : WBuf × BitVec 8 :=
  let one := fun (t : WBuf × BitVec 8) (p : Option (F32 × Bool) × Nat) =>
    match p.1 with
    | none => t
    | some (x, bad) =>
      let c := convert f (rRnd r) (rOvf r) (s.stkRand v r p.2) (f32 x)
      (t.1.elem o p.2 c.bits bad, t.2 ||| c.flags)
  let q :=
    if !fmtMx f then es.zipIdx.foldl one (b, 0)
    else (List.range (cdiv es.length 32)).foldl (fun (t : WBuf × BitVec 8) k =>
      let blk := ((es.zipIdx.drop (32 * k)).take 32)
      let put := blk.filterMap (fun p => p.1.map (fun e => (e, p.2)))
      let m := mxProduce f (rRnd r) (put.map (fun p => (f32 p.1.1, s.stkRand v r p.2)))
      let bad := blk.any (fun p => match p.1 with | none => true | some e => e.2)
      let t1 := (put.zip m.elems).foldl (fun (t : WBuf) p => t.elem o p.1.2 p.2 p.1.1.2) t.1
      (if put.isEmpty then t1 else t1.elem sc (32 * k) m.scale bad, t.2 ||| m.flags)) (b, 0)
  (q.1.pad o es.length, q.2)

/-- Write what the elements of an optimizer become: W, M or B and V as `parts` says, and WOUT. -/
def State.optWrite (s : State) (v : Nat) (k : StkCmd) (ws : Bool) (ms : Bool) (es : List (Option OptElem)) : State :=
  let r := k.rec_
  let n := rN r
  let el := fun j => elemOpnd (rSlot r j) n
  let hasV := slEn (rSlot r 2)
  let b := es.zipIdx.foldl (fun (t : WBuf) p =>
    match p.1 with
    | none => t
    | some e =>
      let t1 := if ws then t.elem (el 0) p.2 e.w false else t
      let t2 := if ms then t1.elem (el 1) p.2 e.m false else t1
      if ms && hasV then t2.elem (el 2) p.2 e.v false else t2) []
  let fl := es.foldl (fun f e => match e with | some e => f ||| e.flags | none => f) (0 : BitVec 8)
  let q := if ws && slEn (rSlot r 4) then
      s.putConv v r (slFmt (rSlot r 4)) (woutOpnd r (s.verBase k)) (woutScale r (s.verBase k)) b (es.map (·.map (fun e => (e.w, false))))
    else (b, 0)
  let home := homeOf r
  let outs := (if ws then [el 0] else []) ++ (if ms then [el 1] ++ (if hasV then [el 2] else []) else [])
    ++ (if ws && slEn (rSlot r 4) then [woutOpnd r (s.verBase k)] ++ (if fmtMx (slFmt (rSlot r 4)) then [woutScale r (s.verBase k)] else []) else [])
  ((s.flush v q.1).orStk v (fl ||| q.2)).chargeOut v home outs

/-- The elements of an optimizer in order, none for a poisoned one (R388). -/
def State.optElems (s : State) (r : Nat) (f : OptIn → OptElem) : List (Option OptElem) :=
  (List.range (rN r)).map (fun i =>
    let x := s.optIn r i
    if x.bad.isSome then none else let e := f x; some { e with flags := e.flags ||| x.flags })

/-- The read operands of a command. -/
def readsOf (r : Nat) : List Opnd := (operands r 0).filter (·.inp)

/-- Run a started command of an op. Optimizers with prescan read their inputs first and exchange a flag (R388). (DESIGN CHOICE, log entry 2) -/
def State.stkOp (s : State) (id op : Nat) (f : State → StkCmd → State) : State :=
  match s.stkCmd id with
  | none => s
  | some k =>
    if rOp k.rec_ != op then s
    else if k.stage == .ready && rOptim k.rec_ && rPrescan k.rec_ then
      ((s.readOpnds k.vat (homeOf k.rec_) (readsOf k.rec_)).setCmd { k.meet (s.optScan k.rec_) with stage := .scanned })
    else if k.stage == .ready || k.stage == .go || k.stage == .total then f s k
    else s

/-! ## The life of a command (R371, R372, R392, R393) -/

/-- An optimizer that writes a version takes its decision: the target, its update in progress (R392 steps 1 to 3). -/
def State.decide_ (s : State) (k : StkCmd) : State :=
  let i := rRegion k.rec_
  let t := 1 - (s.ver i).cur
  (s.modVer i (fun y => { y.setValid t false with upd := true, aside := false })).setCmd { k with stage := .decide, target := t }

/-- A command ends with a refusal of every controller. (DEDUCED, log entry 87; DEDUCED, log entry 91) -/
def State.stkRefuse (s : State) (k : StkCmd) (status : Nat) : State :=
  (s.setCmd { k with stage := .ran, ans := List.range 8, status := status }).log (srcHub 6) evRefused status (some k.vat) 0 (rOp k.rec_)

/-- A command starts: a versioned update decides, is set aside, or is refused when one is already set aside (R392). One that a forced stop or a
yield finds waiting and that would be set aside is withdrawn (R395, R507). (DESIGN CHOICE, log entry 82) -/
def State.stkStart (s : State) (k : StkCmd) : State :=
  let i := rRegion k.rec_
  let y := s.ver i
  if !rVout k.rec_ then s.setCmd { k with stage := .ready }
  else if y.bad then (s.stkRefuse k ePoison).fireVat k.vat 3
  else if !y.defined || y.vat != k.vat then s.stkRefuse k eState
  else if y.upd || y.aside || y.pins (1 - y.cur) != 0 then
    if y.aside then s.stkRefuse k eState
    else if (s.vat k.vat).st == .stopping || (s.vat k.vat).yielded then s.setCmd { k with stage := .ran, ans := List.range 8, status := eAborted }
    else ((s.modVer i (fun y => { y with aside := true })).modVat k.vat (fun x => { x with versionWaits := satAdd top32 x.versionWaits 1 })).setCmd
      { k with stage := .aside }
  else s.decide_ k

/-- All eight shares are complete: the version is published, or its update ends (R392 steps 4 and 5). -/
def State.stkPublish (s : State) (k : StkCmd) : State :=
  if !rVout k.rec_ then s
  else s.modVer (rRegion k.rec_) (fun y =>
    if k.poisoned || k.status != eOk then { y with upd := false }
    else
      let e := y.epoch y.cur + 1
      let z := y.setValid k.target true
      { z with upd := false, cur := k.target, epoch0 := if k.target = 0 then e else z.epoch0, epoch1 := if k.target = 0 then z.epoch1 else e })

/-- Accept a command, or refuse it (R357, R372, R376). A command whose vat has 16 in the store waits outside it. (DESIGN CHOICE, log entry 82) -/
def State.stkAccept (s : State) (by_ : StkBy) (v r : Nat) (poisoned : Bool) : State :=
  let id := s.mem.nextCmd
  if (s.mem.cmds.filter (fun k => k.vat == v)).length ≥ 16 then s
  else
    let k : StkCmd := { id := id, vat := v, by_ := by_, rec_ := r }
    let s1 : State := { s with mem := { s.mem with cmds := s.mem.cmds ++ [k], nextCmd := id + 1 } }
    let st := if (s.vat v).st == .wiping || (s.vat v).st == .faulted then eState else if poisoned then ePoison else s.recordCheck v r
    if st = eOk then s1
    else if st = ePoison && (s.ver (rRegion r)).bad then (s1.stkRefuse k st).fireVat v 3
    else s1.stkRefuse k st

end Sys2Proof.Machine
end

