-- ==== Sys2Proof/Machine/Stack.lean ====
section
/-! DEFINITION. The memory stacks and their engines (Chapter 11): refresh and scrub, plain requests, stack engine commands, and the
version table. -/

namespace Sys2Proof.Machine

/-! ## Refresh and scrub (R361-R364) -/

/-- The address of a stack-local address of stack `i` (R355). -/
def stackAddr (i l : Nat) : Nat := l / 4096 * 32768 + i * 4096 + l % 4096

/-- 256 B blocks of a stack. -/
def stackBlocks : Nat := 301989888

/-- A block found with an error is rewritten: corrected, or as poisoned (R364). -/
def State.scrubRewrite (s : State) (i : Nat) : State :=
  match (s.stk i).scrubFix with
  | none => s
  | some (b, _) =>
    let w := stackAddr i (256 * b) / 16
    let m := s.mem
    let ue := m.ue.filter (fun k => w ≤ k && k < w + 16)
    ({ s with mem := { m with ce := m.ce.remRange w 16, ue := m.ue.remRange w 16, poison := ue.foldl NSet.add m.poison } } : State).modStk i
      (fun x => { x with scrubFix := none, scrubFixed := satAdd top16 x.scrubFixed 1 })

/-- The scrub read of the next block, in ascending stack-local address (R364). (DESIGN CHOICE, log entry 16; DEDUCED, log entry 81) -/
def State.scrubRead (s : State) (i : Nat) : State :=
  let b := (s.stk i).scrubAt
  let a := stackAddr i (256 * b)
  let ue := s.mem.ue.hasRange (a / 16) 16
  let hit := ue || s.mem.ce.hasRange (a / 16) 16
  (s.noteStack (s.stackOwner a) a 256).modStk i (fun x =>
    { x with scrubAt := (b + 1) % stackBlocks, scrubFix := if hit then some (b, ue) else none })

/-- Rows of each bank refreshed in a slot (R362). -/
def State.slotRows (s : State) (i : Nat) : Nat := cdiv (24576 * s.hub.refPeriod) (if (s.stk i).hot then 16000000 else 32000000)

/-- A stack being wiped at 85 °C or below has suspended refresh and scrub (R397). -/
def State.noRefresh (s : State) (i : Nat) : Bool := !s.boot.wiped && !(s.stk i).hot

/-- A stack uses the refresh slot in progress, once (R346, R362); in SLEEP it refreshes itself (R571): rows, the rewrite of a block found before, and the scrub read. -/
def execRefreshSlot (i : Nat) (s : State) : Res :=
  .next (if 8 ≤ i || s.pwr.asleep || !s.hub.refEn || s.slotNow.isNone || (s.stk i).slotAt == s.slotNow || s.noRefresh i then s
    else ((s.modStk i (fun x => { x with rows := s.slotRows i, slotAt := s.slotNow })).scrubRewrite i).scrubRead i)

/-- A bank refreshes on its own count, and the scrubber reads (R363). -/
def execBankRefresh (i : Nat) (s : State) : Res := .next (if 8 ≤ i || s.pwr.asleep || s.hub.refEn || s.noRefresh i then s else (s.scrubRewrite i).scrubRead i)

/-- Layer temperatures are read (R361): a change of the retention time fires the stack's source (Table 18.1). -/
def execStackTempRead (i t : Nat) (s : State) : Res :=
  let hot := decide (85 < t)
  .next (if 8 ≤ i then s
    else
      let s1 := s.modStk i (fun x => { x with temp := min t 255, hot := hot })
      if hot != (s.stk i).hot then s1.fire (651 + i) else s1)

/-! ## Plain requests (R357-R359) -/

/-- The vat a request is charged to: none is the system client (R368). -/
def whoVat : StkWho → Option Nat
  | .vat v => some v
  | _ => none

/-- May a request reach its granule (R36, R357, R482)? (DEDUCED, log entry 80) -/
def State.stkAdmit (s : State) (who : StkWho) (a n : Nat) (write : Bool) : Nat :=
  let own := s.stackOwner a
  let named := match who with | .vat v => own == some v | _ => true
  if !named then ePermission
  else match own with
    | none => eOk
    | some v =>
      let x := s.vat v
      if x.st == .wiping then eState
      else if x.st == .faulted && (write || who != .debug || !s.hub.holdPm) then eState
      else if write && x.tw.standby && x.inTwinRange a n then eState
      else eOk

/-- A packet's bytes lie in one granule of one stack (R355). -/
def stackPacket (a n : Nat) : Bool := n != 0 && decide (a + n ≤ stackTop) && a / 4096 == (a + n - 1) / 4096

/-- The edge router by which the answer to a request for `a` leaves, for the requester at router `r` (Table 7.1). -/
def stackVia (r : Option Nat) (a : Nat) : Option Nat := r.map (edgeRouter (stackEdge a))

/-- A refused request is answered and logged (R357). -/
def State.stkReject (s : State) (who : StkWho) (via : Option Nat) (a status : Nat) : State :=
  (s.send (.stackAnswer who via a status [] [])).log (srcStack (stackOf a)) evRefused status (whoVat who) a 0

/-- Charge a plain request of a vat. (DEDUCED, log entry 36) -/
def State.stkCharge (s : State) (who : StkWho) (j n : Nat) : State := match whoVat who with | some v => s.accountStk v j n | none => s

/-- A read, of a requester and its router where it has one, is admitted (R357, R358): its data is what the block holds at its arrival. -/
def execStackRead (w : StkWho × Option Nat) (a n : Nat) (s : State) : Res :=
  let who := w.1
  let r := w.2
  let st := s.stkAdmit who a n false
  .next (if !stackPacket a n then s
    else if st != eOk then s.stkReject who (stackVia r a) a st
    else
      let q : StkReq := { who := who, via := stackVia r a, addr := a, data := s.stackRead a n, bad := s.stackBadOffs a n }
      let s1 := (s.noteStack (match who with | .vat v => some v | _ => s.stackOwner a) a n).stkCharge who 0 (chargeOf a n)
      { s1 with mem := { s1.mem with reads := s1.mem.reads ++ [q] } })

/-- A read's data is presented at the crossing (R359). -/
def execStackReadReturn (k : Nat) (s : State) : Res :=
  .next (match s.mem.reads[k]? with
    | none => s
    | some r => ({ s with mem := { s.mem with reads := s.mem.reads.eraseIdx k } } : State).send (.stackAnswer r.who r.via r.addr eOk r.data r.bad))

/-- A write is admitted and stands in the write queue (R358). One of less than 16 B or not aligned to 16 B reads its words first and is
acknowledged later (R359, R367). (DEDUCED, log entry 80) -/
def execStackWrite (w : StkWho × Option Nat) (a : Nat) (data : List Byte) (bad : List Nat) (s : State) : Res :=
  let who := w.1
  let r := w.2
  let n := data.length
  let st := s.stkAdmit who a n true
  .next (if !stackPacket a n then s
    else if st != eOk then s.stkReject who (stackVia r a) a st
    else if a % 16 = 0 && n % 16 = 0 then
      ((s.stackPut a data (fun i => bad.contains i)).stkCharge who 1 (chargeOf a n)).send (.stackAnswer who (stackVia r a) a eOk [] [])
    else
      let s1 := s.noteStack (match who with | .vat v => some v | _ => s.stackOwner a) a n
      let s2 := (s1.stackPut a data (fun i => bad.contains i)).stkCharge who 1 (2 * chargeOf a n)
      { s2 with mem := { s2.mem with rmws := s2.mem.rmws ++ [{ who := who, via := stackVia r a, addr := a }] } })

/-- A read-modify-write is acknowledged (R359). -/
def execReadModifyWriteAck (k : Nat) (s : State) : Res :=
  .next (match s.mem.rmws[k]? with
    | none => s
    | some r => ({ s with mem := { s.mem with rmws := s.mem.rmws.eraseIdx k } } : State).send (.stackAnswer r.who r.via r.addr eOk [] []))

/-! ## Acceptance and start of commands -/

/-- A record arrives at the controllers (R370, R376): a write of another size or alignment is no command. (DESIGN CHOICE, log entry 82) -/
def execStackCommand (by_ : StkBy) (v off : Nat) (data : List Byte) (bad : List Nat) (s : State) : Res :=
  .next (if data.length != 128 || off % 128 != 0 || 4096 ≤ off then
      (s.send (.commandAnswer by_ eFormat)).log (srcHub 6) evRefused eFormat (some v) off 0
    else s.stkAccept by_ v (leNat data) (!bad.isEmpty))

/-- The oldest command of a vat that waits starts once those before it are complete or set aside, and no copy of a mirrored vat is in
progress (R372, R483). -/
def execStackCommandStart (v : Nat) (s : State) : Res :=
  let l := s.mem.cmds.filter (fun k => k.vat == v)
  let pre := l.takeWhile (fun k => k.stage != .queued)
  .next (match l.find? (fun k => k.stage == .queued) with
    | none => s
    | some k => if ((s.vat v).tw.busy && (s.vat v).tw.cmdLine ≤ k.id) || !(pre.all (fun j => j.stage == .ran || j.stage == .aside)) then s else s.stkStart k)

/-! ## Element-wise ops -/

/-- Source `j` (1-4) of an ACCUM, element `i`. -/
def State.accumIn (s : State) (r j i : Nat) : FRes × Bool := s.elemIn (slFmt (rSlot r j)) (elemOpnd (rSlot r j) (rN r)) (accumScale r j) i

/-- Sources of an ACCUM that are present. -/
def accumSrcs (r : Nat) : List Nat := [1, 2, 3, 4].filter (fun j => slEn (rSlot r j))

/-- ACCUM on the FP32 path (R378): value, flags, poison of element `i`. -/
def State.accumFp (s : State) (r i : Nat) : FRes × Bool :=
  let d := elemOpnd (rSlot r 0) (rN r)
  (accumSrcs r).foldl (fun (t : FRes × Bool) j =>
    let x := s.accumIn r j i
    let y := fFma (rScalar r 0) x.1.1 t.1.1
    ((y.1, t.1.2 ||| x.1.2 ||| y.2), t.2 || x.2)) ((s.elemEnc d i, 0), s.elemBad d i)

/-- ACCUM on the exact path (R378): the record of element `i`, flags and poison; none when a record has another anchor. (DEDUCED, log entry 84; DEDUCED, log entry 88) -/
def State.accumExact (s : State) (r i : Nat) : Option (FRes × Bool) :=
  let n := rN r
  let d := elemOpnd (rSlot r 0) n
  let d0 := s.elemEnc d i
  let an := rAnchor r
  if recordBad an d0 then none
  else
    let t := (accumSrcs r).foldl (fun (t : Option (Acc × BitVec 8 × Bool)) j =>
      t.bind (fun t =>
        let f := slFmt (rSlot r j)
        let o := elemOpnd (rSlot r j) n
        let e := s.elemEnc o i
        if f = 10 then (if recordBad an e then none else some (t.1.combine (Acc.ofRecord e), t.2.1, t.2.2 || s.elemBad o i))
        else
          let x := if fmtMx f then mxValue f e (s.elemEnc (accumScale r j) i) else decodeElem f e
          let u := ({} : UnitSum).put x (.fin false 1 0)
          let a := { t.1 with lost := false }.addUnit an u
          let fl := if a.lost then fAccLost else 0
          some ({ a with lost := a.lost || t.1.lost }, t.2.1 ||| u.flags ||| fl, t.2.2 || s.elemBad o i || (fmtMx f && s.elemBad (accumScale r j) i))))
      (some (Acc.ofRecord d0, (0 : BitVec 8), s.elemBad d i))
    t.map (fun t =>
      let out := fld t.1.gv 96 8 != (if bit t.1.gv 95 then 0xFF else 0)
      ((t.1.record an, t.2.1 ||| (if out then fAccRange else 0)), t.2.2))

/-- ACCUM (R378). On the exact path an engine ends its share at the first record with another anchor; elements done stay written. (DEDUCED, log entry 88) -/
def execAccum (id : Nat) (s : State) : Res :=
  .next (s.stkOp id 0x01 (fun s k =>
    let r := k.rec_
    let n := rN r
    let d := elemOpnd (rSlot r 0) n
    let s1 := s.readOpnds k.vat (homeOf r) (readsOf r)
    let t := (List.range n).foldl (fun (t : WBuf × BitVec 8 × NSet) i =>
      let h := homeOf r i
      if t.2.2.has h then t
      else match (if slFmt (rSlot r 0) = 10 then s.accumExact r i else some (s.accumFp r i)) with
        | none => (t.1, t.2.1, t.2.2.add h)
        | some x => (t.1.elem d i x.1.1 x.2, t.2.1 ||| x.1.2, t.2.2)) ([], (0 : BitVec 8), [])
    (((s1.flush k.vat t.1).orStk k.vat t.2.1).chargeOut k.vat (homeOf r) [d]).stkRan k (if t.2.2.isEmpty then eOk else eFormat)))

/-- Positions of the two values of largest magnitude of four, the lower winning ties, ascending (R379). (DEDUCED, log entry 89) -/
def sp24Pick (xs : List F32) : Nat × Nat :=
  let mag := fun i => (f32 (xs.getD i 0)).abs
  let best := fun (skip : Option Nat) => ((List.range 4).filter (fun i => some i != skip)).foldl (fun (b : Option Nat) i =>
    match b with
    | none => some i
    | some j => if (mag j).lt (mag i) then some i else some j) none
  let a := (best none).getD 0
  let b := (best (some a)).getD 1
  (min a b, max a b)

/-- The six ascending pairs of positions: which two are kept of a group with a NaN is not given. (DEDUCED, log entry 89) -/
def sp24Free (w : Nat) : Nat × Nat := ([(0, 1), (0, 2), (0, 3), (1, 2), (1, 3), (2, 3)] : List (Nat × Nat)).getD (w % 6) (0, 1)

/-- The positions kept in each group of four, with the free values drawn. (DEDUCED, log entry 89) -/
def State.sp24Groups (s : State) (xs : List F32) : List (Nat × Nat) × State :=
  (List.range (xs.length / 4)).foldl (fun (t : List (Nat × Nat) × State) g =>
    let q := (xs.drop (4 * g)).take 4
    if q.any (fun x => (f32 x).isNan) then let d := t.2.drawFree; (t.1 ++ [sp24Free d.1.toNat], d.2)
    else (t.1 ++ [sp24Pick q], t.2)) ([], s)

/-- The outputs of a CONVERT to 2:4 are written by the engines of the source elements they keep; a metadata byte by the engine of the first
element of its two groups (R375, R379). (DEDUCED, log entry 91) -/
def sp24Charge (s : State) (v r : Nat) (g : List (Nat × Nat)) : State :=
  let n := rN r
  let x := rSlot r
  let src := fun j => let p := g.getD (j / 2) (0, 1); 4 * (j / 2) + (if j % 2 = 0 then p.1 else p.2)
  (s.chargeAcc v ((elemOpnd (x 0) (n / 2)).accesses (fun j => homeOf r (src j)))).chargeAcc v
    (({ base := slAddr (x 4), cnt := n / 8 } : Opnd).accesses (fun m => homeOf r (8 * m)))

/-- CONVERT (R379). (DEDUCED, log entry 90) -/
def execConvert (id : Nat) (s : State) : Res :=
  .next (s.stkOp id 0x02 (fun s k =>
    let r := k.rec_
    let n := rN r
    let v := k.vat
    let x := rSlot r
    let sp := bit (rAux r) 0
    let s1 := s.readOpnds v (homeOf r) (readsOf r)
    let es := (List.range n).map (fun i => s.elemIn (slFmt (x 1)) (elemOpnd (x 1) n) (scaleOpnd (x 3) n) i)
    let fl := es.foldl (fun f e => f ||| e.1.2) (0 : BitVec 8)
    let vals := es.map (fun e => (e.1.1, e.2))
    let g := if sp then s1.sp24Groups (vals.map (·.1)) else ([], s1)
    let outs := if sp then g.1.zipIdx.flatMap (fun p => [vals.getD (4 * p.2 + p.1.1) (0, false), vals.getD (4 * p.2 + p.1.2) (0, false)]) else vals
    let d := elemOpnd (x 0) (if sp then n / 2 else n)
    let q := s1.putConv v r (slFmt (x 0)) d (scaleOpnd (x 2) n) [] (outs.map some)
    let metaBad := fun (m : Nat) => ((vals.drop (8 * m)).take 8).any (·.2)
    let metas := if sp then (List.range (n / 8)).map (fun m =>
        let lo := g.1.getD (2 * m) (0, 1)
        let hi := g.1.getD (2 * m + 1) (0, 1)
        (slAddr (x 4) + m, lo.1 + 4 * lo.2 + 16 * hi.1 + 64 * hi.2, metaBad m)) else []
    let b := metas.foldl (fun (t : WBuf) p => t.byte p.1 p.2.1 255 p.2.2) q.1
    let s2 := (g.2.flush v b).orStk v (fl ||| q.2)
    (if sp then sp24Charge s2 v r g.1 else s2.chargeOut v (homeOf r) ((operands r 0).filter (·.outp))).stkRan k eOk))

/-- An optimizer's share is done: E_POISON when it met poison (R388). (DEDUCED, log entry 91) -/
def State.optDone (s : State) (k : StkCmd) : State := s.stkRan k (if k.poisoned then ePoison else eOk)

/-- ADAM (R380, R388). -/
def execAdam (id : Nat) (s : State) : Res :=
  .next (s.stkOp id 0x03 (fun s k =>
    let r := k.rec_
    let k1 := k.meet (s.optScan r)
    let es := s.optElems r (fun x => adamElem r x.w x.m x.v x.g)
    ((s.readOpnds k.vat (homeOf r) (readsOf r)).optWrite k.vat k true true es).optDone k1))

/-- SGD (R382, R388). -/
def execSgd (id : Nat) (s : State) : Res :=
  .next (s.stkOp id 0x05 (fun s k =>
    let r := k.rec_
    let k1 := k.meet (s.optScan r)
    let es := s.optElems r (fun x => sgdElem r x.w x.m x.g)
    ((s.readOpnds k.vat (homeOf r) (readsOf r)).optWrite k.vat k true true es).optDone k1))

/-- The sums of squares of LAMB by stack, home elements in ascending order (R381): key 2·stack for W, 2·stack + 1 for u. (DEDUCED, log entry 90) -/
def lambSums (r : Nat) (es : List (Option OptElem)) : Table Nat :=
  es.zipIdx.foldl (fun (t : Table Nat) p =>
    match p.1 with
    | none => t
    | some e =>
      let h := homeOf r p.2
      (t.upd 0 (2 * h) (fun a => f64AddSq a (f32 e.w))).upd 0 (2 * h + 1) (fun a => f64AddSq a (f32 e.u))) []

/-- A total over the stacks in stack order (R381). (DEDUCED, log entry 90) -/
def sumStacks (t : Table Nat) (kind : Nat) : Nat := (List.range 7).foldl (fun a i => f64Add a (t.get 0 (2 * (i + 1) + kind))) (t.get 0 kind)

/-- LAMB (R381, R388): phase 1 stores the moments and forms the sums; after the exchange phase 2 updates the weights. (DEDUCED, log entry 90) -/
def execLamb (id : Nat) (s : State) : Res :=
  .next (s.stkOp id 0x04 (fun s k =>
    let r := k.rec_
    let s1 := s.readOpnds k.vat (homeOf r) (if k.stage == .total then (readsOf r).take 3 else readsOf r)
    if k.stage == .total then
      let q := lambRatio (sumStacks k.sums 0) (sumStacks k.sums 1) (rScalar r 8)
      let es := s.optElems r (fun x => lambElem r q.1 x.w x.m x.v)
      ((s1.orStk k.vat q.2).optWrite k.vat k true false es).optDone k
    else
      let es := s.optElems r (fun x => adamMoments r x.w x.m x.v x.g)
      (s1.optWrite k.vat k false true es).setCmd { k.meet (s.optScan r) with stage := .summed, sums := lambSums r es }))

/-- SUMSQ (R383): sums by stack, and after the exchange the 16 B result by the engine whose stack holds it. (DEDUCED, log entry 84; DEDUCED, log entry 90) -/
def execSumsq (id : Nat) (s : State) : Res :=
  .next (s.stkOp id 0x06 (fun s k =>
    let r := k.rec_
    let n := rN r
    let o := elemOpnd (rSlot r 1) n
    let f := slFmt (rSlot r 1)
    if k.stage == .total then
      let sum := sumStacks k.sums 0
      let bad := k.sums.get 0 16 != 0
      let res := sum + k.sums.get 0 16 * 2 ^ 64 + k.sums.get 0 17 * 2 ^ 65
      let a := slAddr (rSlot r 0)
      ((s.stkWrite k.vat a (leBytes 16 res) (if bad then List.range 16 else [])).chargeAcc k.vat (1, 0)).stkRan k eOk
    else
      let t := (List.range n).foldl (fun (t : Table Nat × BitVec 8) i =>
        let x : FRes × Bool := if f = 9 then ((0, 0), s.elemBad o i) else s.elemIn f o (scaleOpnd (rSlot r 6) n) i
        let y := if f = 9 then decodeElem 9 (s.elemEnc o i) else f32 x.1.1
        let odd := y.isNan || (match y with | .inf _ => true | _ => false)
        let t1 := t.1.upd 0 (2 * homeOf r i) (fun a => f64AddSq a y)
        let t2 := if x.2 then t1.put 16 1 else t1
        (if odd then t2.put 17 1 else t2, t.2 ||| x.1.2 ||| (if y.isNan then fNanIn else 0))) ([], (0 : BitVec 8))
      ((s.readOpnds k.vat (homeOf r) (readsOf r)).orStk k.vat t.2).setCmd { k with stage := .summed, sums := t.1 }))

/-! ## Row and page ops -/

/-- An index list: each value, and whether it is poisoned. (DEDUCED, log entry 86) -/
def State.indexList (s : State) (r : Nat) : List (Nat × Bool) :=
  let o : Opnd := { base := slAddr (rSlot r 2), bits := 32, cnt := rN r }
  (List.range (rN r)).map (fun i => (s.elemEnc o i, s.elemBad o i))

/-- Check 6 of Table 11.5. -/
def indexOk (r : Nat) (l : List (Nat × Bool)) : Bool := l.all (fun p => p.1 < rowCount r || p.1 == 0xFFFFFFFF)

/-- Every engine reads a whole list: own accesses of its stack, and those of the other seven (R384). (DEDUCED, log entry 86) -/
def State.readList (s : State) (v a n : Nat) : State := (s.noteStack (some v) a n).chargeAcc v (chargeOf a n / 256, 7 * (chargeOf a n / 256))

/-- GATHER (R384): rows are copied as bytes with their poison; a poisoned index poisons its row (R388). -/
def execGather (id : Nat) (s : State) : Res :=
  .next (s.stkOp id 0x08 (fun s k =>
    let r := k.rec_
    let l := s.indexList r
    let w := rowb r
    let s1 := s.readList k.vat (slAddr (rSlot r 2)) (4 * rN r)
    if !indexOk r l then s1.stkRefuse k eRange
    else
      (l.zipIdx.foldl (fun s1 p =>
        if p.1.1 = 0xFFFFFFFF then s1
        else
          let a := slAddr (rSlot r 1) + p.1.1 * w
          let d := slAddr (rSlot r 0) + p.2 * w
          let bad := if p.1.2 then List.range w else s.stackBadOffs a w
          let s2 := (s1.noteStack (some k.vat) a w).chargeAcc k.vat (chargeOf a w / 256, 0)
          ((s2.stkWrite k.vat d (s.stackRead a w) bad)).chargeRow k.vat a w d w) s1).stkRan k eOk))

/-- SCATTER_ADD (R385): rows are added in list order, each element rounded once. (DEDUCED, log entry 86) -/
def execScatterAdd (id : Nat) (s : State) : Res :=
  .next (s.stkOp id 0x09 (fun s k =>
    let r := k.rec_
    let l := s.indexList r
    let w := rowb r
    let m := rowElems r
    let f := slFmt (rSlot r 1)
    let src := elemOpnd (rSlot r 1) (rN r * m)
    let srow := m * fmtBits f / 8
    let s1 := s.readList k.vat (slAddr (rSlot r 2)) (4 * rN r)
    if !indexOk r l then s1.stkRefuse k eRange
    else
      (l.zipIdx.foldl (fun s1 p =>
        if p.1.1 = 0xFFFFFFFF then s1
        else
          let a := slAddr (rSlot r 0) + p.1.1 * w
          let b := slAddr (rSlot r 1) + p.2 * srow
          let t : Opnd := { base := a, bits := 32, cnt := m }
          let es := (List.range m).map (fun i =>
            let x := s.elemIn f src {} (p.2 * m + i)
            let y := fAdd (s1.elemEnc t i) x.1.1
            (y.1, x.1.2 ||| y.2, p.1.2 || x.2 || s1.elemBad t i))
          let s2 := (((s1.noteStack (some k.vat) a w).noteStack (some k.vat) b srow).chargeAcc k.vat (2 * (chargeOf a w / 256), 0)).chargeRow k.vat a w b srow
          (s2.stkWrite k.vat a (es.flatMap (fun e => leBytes 4 e.1)) ((es.zipIdx.filter (fun e => e.1.2.2)).flatMap (fun e => (List.range 4).map (4 * e.2 + ·)))).orStk
            k.vat (es.foldl (fun g e => g ||| e.2.1) 0)) s1).stkRan k eOk))

/-- A pair of KVCOPY (R386): destination and source page, the record, and its poison. (DEDUCED, log entry 86) -/
def State.kvPairs (s : State) (r : Nat) : List (Nat × Nat × Nat × Bool) :=
  (List.range (rN r)).map (fun i =>
    let a := slAddr (rSlot r 0) + 16 * i
    let x := s.stackNat a 16
    (fld x 0 48, fld x 64 48, x, s.stackBad a 16))

/-- The checks of a pair list (R386). -/
def State.kvCheck (s : State) (v : Nat) (l : List (Nat × Nat × Nat × Bool)) : Nat :=
  let page := fun a => a % 16384 == 0 && decide (a + 16384 ≤ stackTop)
  if !(l.all (fun p => fld p.2.2.1 48 16 == 0 && fld p.2.2.1 112 16 == 0)) then eFormat
  else if !(l.all (fun p => page p.1 && page p.2.1)) || l.any (fun p => l.any (fun q => p.1 == q.2.1)) then eRange
  else if !(l.all (fun p => s.stackWithin v p.1 16384 && s.stackWithin v p.2.1 16384)) then ePermission
  else eOk

/-- KVCOPY (R386). (DEDUCED, log entry 86) -/
def execKvcopy (id : Nat) (s : State) : Res :=
  .next (s.stkOp id 0x0A (fun s k =>
    let r := k.rec_
    let l := s.kvPairs r
    let s1 := s.readList k.vat (slAddr (rSlot r 0)) (16 * rN r)
    let st := s.kvCheck k.vat l
    if st != eOk then s1.stkRefuse k st
    else
      (l.foldl (fun s1 p =>
        let d := p.1
        let a := p.2.1
        let bad := if p.2.2.2 then List.range 16384 else s.stackBadOffs a 16384
        let s2 := (s1.noteStack (some k.vat) a 16384).chargeAcc k.vat (64, 0)
        (s2.stkWrite k.vat d (s.stackRead a 16384) bad).chargeAcc k.vat (if bit d 14 == bit a 14 then (64, 0) else (0, 64))) s1).stkRan k eOk))

/-- Zero with valid check bits, every poison mark cleared (R387). -/
def State.wipeRange (s : State) (v a n : Nat) : State :=
  let m := s.mem
  let s1 : State := { s with mem := { m with stack := m.stack.clear a n, poison := m.poison.remRange (a / 16) (n / 16), ce := m.ce.remRange (a / 16) (n / 16),
                                             ue := m.ue.remRange (a / 16) (n / 16) } }
  (s1.twinCapture a (List.replicate n 0) (fun _ => false)).noteWrite v a (List.replicate n 0) (fun _ => false)

/-- WIPE (R387). -/
def execWipe (id : Nat) (s : State) : Res :=
  .next (s.stkOp id 0x0B (fun s k =>
    let a := slAddr (rSlot k.rec_ 0)
    ((s.wipeRange k.vat a (rN k.rec_)).chargeAcc k.vat (rN k.rec_ / 256, 0)).stkRan k eOk))

/-! ## Version commands (R390, R391) -/

/-- A version command reads its entry: refused for another vat's region, a poisoned entry, or a state that does not allow it. (DEDUCED, log entry 87) -/
def State.verOp (s : State) (id op : Nat) (f : State → StkCmd → VerEnt → State) : State :=
  s.stkOp id op (fun s k =>
    let y := s.ver (rRegion k.rec_)
    if y.defined && y.vat != k.vat then s.stkRefuse k ePermission
    else if y.bad then (s.stkRefuse k ePoison).fireVat k.vat 3
    else if !y.allows k.rec_ then s.stkRefuse k eState
    else (f s k y).stkRan k eOk)

/-- VDEF (R390): n = 0 frees the region. -/
def execVdef (id : Nat) (s : State) : Res :=
  .next (s.verOp id 0x10 (fun s k _ =>
    let r := k.rec_
    s.setVer (rRegion r) (if rN r = 0 then {} else
      { defined := true, vat := k.vat, size := rN r, base0 := slAddr (rSlot r 0), base1 := slAddr (rSlot r 1), valid0 := true })))

/-- VPIN (R391): the slot's base, number and epoch are written to A0. -/
def execVpin (id : Nat) (s : State) : Res :=
  .next (s.verOp id 0x11 (fun s k y =>
    let r := k.rec_
    match y.find (bit (rAux r) 0) (slAddr (rSlot r 1)) with
    | none => s
    | some i =>
      let a := slAddr (rSlot r 0)
      ((s.setVer (rRegion r) (y.setPins i (y.pins i + 1))).stkWrite k.vat a (leBytes 16 (y.base i + i * 2 ^ 48 + (y.epoch i).toNat * 2 ^ 64)) []).chargeRange k.vat 0 a 16))

/-- VUNPIN (R391). -/
def execVunpin (id : Nat) (s : State) : Res :=
  .next (s.verOp id 0x12 (fun s k y =>
    match y.find false (slAddr (rSlot k.rec_ 1)) with
    | none => s
    | some i => s.setVer (rRegion k.rec_) (y.setPins i (y.pins i - 1))))

/-! ## Exchange, release and completion -/

/-- The controller ring exchange a command waits for completes (R389). -/
def execControllerRingExchange (id : Nat) (s : State) : Res :=
  .next (match s.stkCmd id with
    | none => s
    | some k =>
      match k.stage with
      | .decide => s.setCmd { k with stage := .ready }
      | .scanned => if k.poisoned then s.stkRan k ePoison else s.setCmd { k with stage := .go }
      | .summed => s.setCmd { k with stage := .total }
      | _ => s)

/-- Engine `i` completes its share and answers; with the eighth answer a version is published (R371, R392). -/
def execStackShareComplete (id i : Nat) (s : State) : Res :=
  .next (match s.stkCmd id with
    | none => s
    | some k =>
      if k.stage != .ran || 8 ≤ i || k.ans.has i then s
      else
        let k1 := { k with ans := k.ans.add i }
        if k1.ans.length = 8 then (s.setCmd k1).stkPublish k1 else s.setCmd k1)

/-- A set-aside update starts: its target has no pin and no other update is in progress (R392, R393). -/
def execSetAsideRelease (id : Nat) (s : State) : Res :=
  .next (match s.stkCmd id with
    | none => s
    | some k =>
      let y := s.ver (rRegion k.rec_)
      if k.stage != .aside || y.upd || y.pins (1 - y.cur) != 0 then s else s.decide_ k)

/-- Answer whoever issued a command (R371, R532). -/
def State.stkAnswer (s : State) (k : StkCmd) : State :=
  match k.by_ with
  | .core _ _ _ => s.send (.commandAnswer k.by_ k.status)
  | .host r uid => s.hostFinish (some (r, uid)) k.status 0 0

/-- The command completes once all eight answers are there (R371): poison met by an optimizer is a commit point (R388, R553). -/
def execStackCommandComplete (id : Nat) (s : State) : Res :=
  .next (match s.stkCmd id with
    | none => s
    | some k =>
      if k.ans.length != 8 then s
      else
        let s1 := ({ s with mem := { s.mem with cmds := s.mem.cmds.filter (fun j => j.id != id) } } : State).stkAnswer k
        let s2 := if rOptim k.rec_ && k.poisoned then
            (s1.containPoint k.vat 2 (srcStack (stackOf k.pointAt)) k.pointAt k.badAt).abortSheet k.vat else s1
        (s2.yieldEnd k.vat).twinGo k.vat)

end Sys2Proof.Machine
end

