-- ==== Sys2Proof/Machine/Irq.lean ====
section
/-! DEFINITION. The interrupt controller, the wake watcher, the error log's consumer, fencing and device faults (Chapter 18), and the host
command STKCMD. -/

namespace Sys2Proof.Machine

/-! ## Interrupts (R541-R547) -/

/-- An event of an interrupt source (R544); reserved sources never fire (R541). -/
def execIrqEvent (n : Nat) (s : State) : Res := .next (if n < 670 then s.fire n else s)

/-- The source that a read of IRQ_CLAIM of target `t` returns: the highest pending one that is not active and assigned to it (R545). -/
def State.claimable (s : State) (t : Nat) : Option Nat :=
  (((s.hub.srcs.filter (fun p => p.2.pending && !p.2.active && p.2.assigned == some t)).map (·.1)).getLast?)

/-- A target reads IRQ_CLAIM (R545): the value is {valid, source}; through the debug port nothing is claimed. -/
def State.irqClaim (s : State) (t : Nat) (debug : Bool) : Nat × State :=
  match s.claimable t with
  | none => (0, s)
  | some n =>
    let v := 2 ^ 31 + n
    if debug then (v, s)
    else
      let line := s.irqLine 17
      (v, (s.modIrqSrc n (fun x => { x with pending := false, active := true, assigned := none, last := t, claimer := some t })).irqSettle line)

/-- IRQ_CLAIM (R545). -/
def execIrqClaim (t : Nat) (debug : Bool) (s : State) : Res :=
  .next (if 17 < t then s else ((s.irqClaim t debug).2).send (.regData (0x42000 + 16 * t) (s.irqClaim t debug).1))

/-- A write of source `n` to IRQ_COMPLETE of target `t` (R545): ignored and logged unless `t` claimed it; the PF's message is repeated if
its line stays asserted (R547). (DEDUCED, log entry 102) -/
def State.irqComplete (s : State) (w : Who) (t n : Nat) : State :=
  let x := s.irqSrc n
  if !x.active || x.claimer != some t then s.log (whoSrc w) evRefused eState none 0 n
  else
    let line := s.irqLine 17
    let s1 := (s.modIrqSrc n (fun y => { y with active := false, claimer := none, last := t })).irqSettle line
    if t = 17 && line && s1.irqLine 17 then s1.send (.msix 0 (s1.irqTgt 17).vec.toNat) else s1

/-- IRQ_COMPLETE (R545). -/
def execIrqComplete (w : Who) (t n : Nat) (s : State) : Res := .next (if 17 < t || 1023 < n then s else s.irqComplete w t n)

/-! ## The wake watcher (R548, R549) -/

/-- An event of an AO source while the fast clock is stopped (R548); while it runs the watcher passes it on. -/
def execWakeWatchEvent (n : Nat) (s : State) : Res := .next (if aoSource n then s.fire n else s)

/-- The hub runs again: the lowest set latch is presented as one event and cleared (R549). (DESIGN CHOICE, log entry 111) -/
def execWakeLatchDeliver (s : State) : Res :=
  .next (if !s.fastOn then s
    else match (List.range 32).find? (fun i => (s.wakeSel i).latch) with
      | none => s
      | some i => (s.modWakeSel i (fun x => { x with latch := false })).fire (s.wakeSel i).src.toNat)

/-! ## The error log (R550-R552) -/

/-- A unit reports an event of Table 18.5 (R551). -/
def execErrorReport (src event status : Nat) (vat : Option Nat) (info0 info1 : Nat) (s : State) : Res :=
  .next (if 0xB000 ≤ src || event = 0 || 0x10 < event then s else s.log src event status vat info0 info1)

/-- A tail write (R550, R552): only the consumer, and not beyond the head; then holders are written. (DEDUCED, log entry 103) -/
def State.logTailWrite (s : State) (w : Who) (x : Nat) : State × Nat :=
  let h := s.hub
  let i := x % 512
  if !(if h.logOwnerPf then w == .pf else whoMgmt w) then (s.regRefuse w ePermission 0x80004, ePermission)
  else if (h.logHead + 512 - h.logTail) % 512 < (i + 512 - h.logTail) % 512 then (s.regRefuse w eRange 0x80004, eRange)
  else
    let h1 : Hub := { h with logTail := i }
    let h2 := h1.drainHolders
    let s1 : State := { s with hub := h2 }
    (if h1.logHead == i && h2.logHead != h1.logHead then s1.fire 659 else s1, eOk)

/-- ERRLOG_TAIL (R550). -/
def execErrlogTail (w : Who) (x : Nat) (s : State) : Res := .next (s.logTailWrite w x).1

/-! ## Fencing (R558, R559) -/

/-- What a fence does to the vat that owns the cluster (Table 18.8). (DEDUCED, log entry 104) -/
def State.fenceVat (s : State) (v : Nat) (vatman : Bool) : State :=
  let st := (s.vat v).st
  if st == .free || st == .wiping || st == .faulted then s
  else if vatman then (s.endReclaim v eAborted).toFaulted v
  else if st == .scanned then s
  else
    let s1 := s.endReclaim v eAborted
    if s.hub.holdPm then s1.toFaulted v else s1.toWiping v

/-- The fenced core stops: its control processor, engines and endpoints, with their work (R558). (DEDUCED, log entry 104) -/
def State.fenceCore (s : State) (c : Nat) : State :=
  let s1 := (s.dropEngines c).modCtl c (fun k => { k with run := .fenced, waiting := none, ldr := none, strOut := 0, strAsync := 0, stepping := false })
  { s1 with cores := { s1.cores with eps := s1.cores.eps.map (fun p => if p.1 / 64 = c then (p.1, { p.2 with st := .off }) else p) } }

/-- A fence of physical position `c` is applied (R558). (DEDUCED, log entry 104) -/
def State.fence (s : State) (c : Nat) : State :=
  let cl := clusterOf c
  let l := (s.logOf c).getD 0
  let owner := s.ownerOf cl
  let vatman := match owner with | some v => s.vatmanOf v == some c | none => false
  let s1 := s.fenceCore c
  let s2 := ({ s1 with net := { s1.net with fenced := s1.net.fenced.add c } } : State).send (.fence c)
  let info0 := c * 2 ^ 48
  match owner with
  | none => s2.log (srcNode cl) evFence eOk none info0 l
  | some v =>
    let s3 := (s2.fenceVat v vatman).modVat v (fun x =>
      { x with contain := { firstPoison := 0, addr := c, tick := s.clk.gtc, origin := x.origin.low48, status := eFenced, kind := 5 } })
    (s3.log (srcNode cl) evFence eOk (some v) info0 l).fireVat v 3

/-- A write of CORE_FENCE (R558): only the management core; a disabled or fenced position is refused. -/
def State.fenceWrite (s : State) (w : Who) (c : Nat) : State × Nat :=
  if !(whoMgmt w) then (s.regRefuse w ePermission 0x12C, ePermission)
  else if c % 64 = s.disabledPos (clusterOf c) || s.net.fenced.has c then (s.regRefuse w eState 0x12C, eState)
  else (s.fence c, eOk)

/-- CORE_FENCE (R558). -/
def execCoreFence (w : Who) (cl pos : Nat) (s : State) : Res := .next (if 63 < cl || 63 < pos then s else (s.fenceWrite w (coreNo cl pos)).1)

/-! ## Device faults and messages (R541, R560) -/

/-- An uncorrectable error in hub state that no vat owns (R560). -/
def execDeviceFault (block : Nat) (s : State) : Res :=
  .next (if 13 < block then s
    else
      let s1 := (({ s with hub := { s.hub with deviceFault := true } } : State).log (srcHub block) evDevice 0 none 0 block).fire 664
      (List.range 16).foldl (fun s v => if (s.vat v).st == .ready || (s.vat v).st == .running then (s.forceStopOr v).1 else s) s1)

/-- The host writes VAT_HOST_MSG (R541): vat event 5. A virtual function reaches only its own vat (R518). (DEDUCED, log entry 121) -/
def execVatHostMsg (fn v x : Nat) (s : State) : Res :=
  .next (if 15 < v then s
    else if fn != 0 && s.fnVat fn != some v then s.regRefuse (if fn = 0 then .pf else .vf (fn - 1)) eRange (0x500000 + 0x10000 * v + 0xD8)
    else (s.modVat v (fun y => { y with hostMsg := BitVec.ofNat 32 x })).fireVat v 5)

/-- The PF writes HOST_TO_MGMT (R541). (DEDUCED, log entry 121) -/
def execHostToMgmt (x : Nat) (s : State) : Res := .next (({ s with hub := { s.hub with hostToMgmt := BitVec.ofNat 32 x } } : State).fire 665)

/-- The management core writes MGMT_TO_HOST (R541). (DEDUCED, log entry 121) -/
def execMgmtToHost (x : Nat) (s : State) : Res := .next (({ s with hub := { s.hub with mgmtToHost := BitVec.ofNat 32 x } } : State).fire 666)

/-! ## STKCMD (R532) -/

/-- STKCMD (R532): the record is read at application and issued as a command of the vat; a 17th command waits (R372). -/
def execStkcmd (r v : Nat) (s : State) : Res :=
  .next (if (s.mem.cmds.filter (fun k => k.vat == v)).length ≥ 16 then s
    else s.command (.host r) 0x0B v (fun s k =>
      let x := s.vat v
      let legal := x.st == .ready || x.st == .running || x.st == .scanned || (x.st == .free && x.jobValid)
      let a := fld k.entry 64 48
      let rec_ := s.stackNat a 128
      if !legal || x.tw.standby || x.heldOrLater then s.refuseCmd v k eState
      else if rWin rec_ != 0 && !(s.stackBad a 128) then s.refuseCmd v k eFormat
      else match k.host with
        | some (ring, uid) => ((s.noteStack (some v) a 128).accountStk v 0 (chargeOf a 128)).stkAccept (.host ring uid) v rec_ (s.stackBad a 128)
        | none => s))

end Sys2Proof.Machine
end

