-- ==== Sys2Proof/Machine/ResetOps.lean ====
section
/-! DEFINITION. What resets and a thermal trip do to the device (R576, R584-R587, Tables 20.1 and 20.2). -/

namespace Sys2Proof.Machine

/-- The stretch unit u of an operating point (Table 19.1). -/
def stretchUnit (p : Nat) : Nat := if p = 0 then 4 else if p = 1 then 1 else if p = 2 then 6 else if p = 3 then 27 else 3

/-- Cluster `c`'s disabled position in a fuse table (Table 21.22): bits [6c+5:6c] of the field in words 2-13 of item 5. (DESIGN CHOICE, log entry 3) -/
def fuseCoreDis (t : Table Nat) (cl : Nat) : Nat :=
  let field := (List.range 12).foldl (fun n i => n + t.get 0 (1282 + i) % 2 ^ 32 * 2 ^ (32 * i)) 0
  fld field (6 * cl) 6

/-- The disabled-core map of a fuse table, position 63 not listed. (DESIGN CHOICE, log entry 3) -/
def fuseCoreMap (t : Table Nat) : Table Nat :=
  ((List.range 64).map (fun cl => (cl, fuseCoreDis t cl))).filter (fun p => p.2 != 63)

/-- The ACCT_WEIGHT defaults of a fuse table. (DESIGN CHOICE, log entry 9; DESIGN CHOICE, log entry 135) -/
def fuseWeights (t : Table Nat) : Table Nat := ((List.range 16).map (fun k => (k, t.get 0 (1294 + k)))).filter (fun p => p.2 != 0)

/-- Everything outside the always-on domain returns to its reset values, fuse shadows are reloaded, and the wipe of the stacks begins
(Table 20.2): what a warm reset does to the device. Registers that count since cold reset are kept. (DESIGN CHOICE, log entry 108) -/
def State.devWipe (s : State) : State :=
  let h := s.hub
  { pending := s.pending, out := s.out, free := s.free, pwr := { s.pwr with stretch := false, m := 0, epTherm := false, epCap := false, asleep := false,
                                                                              sleep := false, wakeAsk := false, cls := [] }
    clk := { gtc := s.clk.gtc, prev := s.clk.gtc, fast := 0, phase := edgePhase s.clk.gtc.toNat h.dvfs, ao := s.clk.ao, aoTick := s.clk.aoTick }
    net := { coreDis := fuseCoreMap s.boot.fuse }
    mem := {}
    hub := { gs := h.gs, wakeSel := h.wakeSel, wakeLost := h.wakeLost, gtcAlarm := h.gtcAlarm, alarmDone := h.alarmDone, logSeq := h.logSeq, dvfs := h.dvfs
             acct := { idx := h.acct.idx, weights := fuseWeights s.boot.fuse } }
    boot := { s.boot with stage := .rom, slot := 0, code := 0, svn := 0, manAt := 0, lock := false, sealed := false, viewEn := false, viewSel := 0, scanEn := false,
                          scanSel := 0, shadow := s.boot.fuse, lcShadow := s.boot.lcFuse, flashBuf := [], flashPage := 0, flashStatus := 0, flashCmd := none,
                          steps := [], snaps := [], wiped := false, fuseCmd := none } }

/-- A cold reset: the always-on domain too, the tick counter and the counters since cold reset included. Flash, blown fuses and pins stay,
and the sticky registers unless input power was lost (R585). -/
def State.coldWipe (s : State) (powerLost : Bool) : State :=
  let s1 := s.devWipe
  { s1 with
    clk := {}
    pwr := { tripped := s.pwr.tripped && !powerLost }
    hub := { acct := { weights := fuseWeights s.boot.fuse } }
    mem := {}
    boot := { fuse := s.boot.fuse, shadow := s.boot.fuse, lcFuse := s.boot.lcFuse, lcShadow := s.boot.lcFuse, flash := s.boot.flash, strap := s.boot.strap,
              perst := s.boot.perst, extest := s.boot.extest, dap := s.boot.dap, rst := s.boot.rst, effect := s.boot.effect,
              cause := if powerLost then 1 else s.boot.cause, merged := s.boot.merged && !powerLost } }

/-- TRIP (R576): every domain but the always-on one is off, and every SRAM and stack content is lost. (DEDUCED, log entry 105) -/
def State.trip (s : State) : State :=
  let s1 := s.devWipe
  { s1 with pwr := { s1.pwr with off := true, tripped := true }, boot := { s1.boot with cause := s1.boot.cause ||| 4 } }

/-! ## Requests (R584, R586) -/

/-- Rank of a reset (R586). -/
def RstKind.rank : RstKind → Nat
  | .warm => 0
  | .lifecycle => 1
  | .cold => 2

/-- A request for a reset with its bit of RESET_CAUSE (R586): one of higher rank takes over, one of equal or lower rank merges. (DESIGN CHOICE, log entry 112) -/
def State.askReset (s : State) (k : RstKind) (bitNo : Nat) : State :=
  let c := s.boot.cause ||| (1#8 <<< bitNo)
  match s.boot.rst with
  | some r =>
    if r.rank < k.rank then { s with boot := { s.boot with rst := some k, effect := false, wiped := false, cause := c, lcTo := none } }
    else { s with boot := { s.boot with cause := c, merged := true } }
  | none => { s with boot := { s.boot with rst := some k, effect := false, wiped := false, cause := c } }

/-- The reset in progress takes effect (R587): nothing is scanned and no record is written. -/
def State.applyReset (s : State) (k : RstKind) : State :=
  let s1 := match k with
    | .cold => s.coldWipe false
    | _ => s.devWipe
  { s1 with boot := { s1.boot with effect := true } }

end Sys2Proof.Machine
end

