-- ==== Sys2Proof/Machine/Boot.lean ====
section
/-! DEFINITION. Resets, the boot ROM, the seal, vatman starts, lifecycle and fuses, flash and the management port (Chapter 20, R621). -/

namespace Sys2Proof.Machine

/-- Update the boot state. -/
def State.modBoot (s : State) (f : Boot → Boot) : State := { s with boot := f s.boot }

/-! ## Resets (R584-R587, R630) -/

/-- A write of RESET_CTL (R584): another requester than the management core, the PF and the debug port is ignored and logged; a wrong key or a
reserved kind is ignored. -/
def State.resetWrite (s : State) (w : Who) (x : Nat) : State × Nat :=
  if !(whoMgmt w || w == .pf) then (s.regRefuse w ePermission 0x100, ePermission)
  else if fld x 8 16 != 0x0D72 then (s, eOk)
  else if fld x 0 2 = 1 then (s.askReset .warm 3, eOk)
  else if fld x 0 2 = 2 then (s.askReset .cold 1, eOk)
  else (s, eOk)

/-- RESET_COLD (R584). -/
def execResetCold (w : Who) (key : Nat) (s : State) : Res := .next (s.resetWrite w (2 + 2 ^ 8 * (key % 2 ^ 16))).1

/-- RESET_WARM (R584). -/
def execResetWarm (w : Who) (key : Nat) (s : State) : Res := .next (s.resetWrite w (1 + 2 ^ 8 * (key % 2 ^ 16))).1

/-- A cold reset that was asked for takes effect (R585, R587). (DESIGN CHOICE, log entry 112) -/
def execColdReset (s : State) : Res :=
  .next (if s.boot.rst == some .cold && !s.boot.effect && s.pwr.on then s.applyReset .cold else s)

/-- A warm or lifecycle reset that was asked for takes effect (R585, R587). -/
def execWarmReset (s : State) : Res :=
  .next (if s.boot.effect || !s.pwr.on then s
    else match s.boot.rst with
      | some .warm => s.applyReset .warm
      | some .lifecycle => s.applyReset .lifecycle
      | _ => s)

/-- PERST# is asserted: a warm reset (R630). -/
def execPerstAssert (s : State) : Res :=
  .next (if !s.pwr.on then s.modBoot (fun b => { b with perst := true }) else (s.modBoot (fun b => { b with perst := true })).askReset .warm 4)

/-- PERST# is deasserted: the release may go on (R630). -/
def execPerstDeassert (s : State) : Res := .next (s.modBoot (fun b => { b with perst := false }))

/-- The wipes of the reset in progress are complete: every stack shows ready (R599, R630). (DESIGN CHOICE, log entry 115) -/
def execResetWipeComplete (s : State) : Res :=
  .next (if !s.boot.effect || s.boot.wiped || !s.pwr.on || s.pwr.off then s
    else (List.range 8).foldl (fun s i => s.modStk i (fun x => { x with ready := true })) (s.modBoot (fun b => { b with wiped := true })))

/-! ## Flash (R621, R641) -/

/-- Bytes of the flash. -/
def State.flashRead (s : State) (a n : Nat) : List Byte := (s.boot.flash.readBytes a n).map (fun b => ~~~b)

/-- Write bytes of the flash. -/
def State.flashWrite (s : State) (a : Nat) (data : List Byte) : State :=
  s.modBoot (fun b => { b with flash := b.flash.writeBytes a (data.map (fun x => ~~~x)) })

/-- A flash command written to FLASH_CTL: 1 READ, 2 PROGRAM, 3 ERASE (R621); `wp` is the level of FLASH_WP#, true while it is held low (R641). (DEDUCED, log entry 121) -/
def State.flashStart (s : State) (w : Who) (op : Nat) (wp : Bool) : State × Nat :=
  let b := s.boot
  let may := w == .core mgmtCore || (w == .debug && (!b.sealed || b.stage == .failed))
  if !may then (s.regRefuse w ePermission 0x300010, ePermission)
  else if b.flashCmd.isSome then (s.regRefuse w eState 0x300010, eState)
  else if op = 3 && b.flashPage % 16 != 0 then (s.regRefuse w eRange 0x300010, eRange)
  else if op = 0 then (s, eOk)
  else if op != 1 && wp then (s.modBoot (fun b => { b with flashStatus := ePermission }), eOk)
  else (s.modBoot (fun b => { b with flashCmd := some { op := op, page := b.flashPage } }), eOk)

/-- FLASH_READ, FLASH_PROGRAM and FLASH_ERASE (R621). -/
def execFlashRead (w : Who) (s : State) : Res := .next (s.flashStart w 1 false).1
def execFlashProgram (w : Who) (wp : Bool) (s : State) : Res := .next (s.flashStart w 2 wp).1
def execFlashErase (w : Who) (wp : Bool) (s : State) : Res := .next (s.flashStart w 3 wp).1

/-- A flash command completes, or ends in an error: E_TIMEOUT, and FLASH_BUF is undefined (R621). -/
def execFlashCommandComplete (err : Bool) (s : State) : Res :=
  .next (match s.boot.flashCmd with
    | none => s
    | some k =>
      let s1 := s.modBoot (fun b => { b with flashCmd := none, flashStatus := if err then eTimeout else eOk })
      if err then
        { s1 with free := s1.free + 1, boot := { s1.boot with flashBuf := Memory.writeBytes [] 0 ((List.range 4096).map (Config.freeByte s1.free)) } }
      else if k.op = 1 then s1.modBoot (fun b => { b with flashBuf := Memory.writeBytes [] 0 (s.flashRead (4096 * k.page) 4096) })
      else if k.op = 2 then s1.flashWrite (4096 * k.page) (s.boot.flashBuf.readBytes 0 4096)
      else s1.modBoot (fun b => { b with flash := b.flash.clear (4096 * k.page) 65536 }))

/-! ## The boot ROM (R590-R593) -/

/-- A fuse word as the shadows hold it. -/
def State.fuseWord (s : State) (item i : Nat) : Nat := s.boot.shadow.get 0 (256 * item + i) % 2 ^ 32

/-- 48 bytes of a hash shadow whose first word is `i` (R623, R624). -/
def State.fuseHash (s : State) (item i : Nat) : List Byte := (List.range 12).flatMap (fun j => leBytes 4 (s.fuseWord item (i + j)))

/-- FUSE_SERIAL. -/
def State.serial (s : State) : Nat := s.fuseWord 5 0 + 2 ^ 32 * s.fuseWord 5 1

/-- Is a hash programmed? -/
def hashSet (h : List Byte) : Bool := h.any (fun b => b != 0)

/-- Is vendor key slot `k` revoked or unprogrammed (R592, R623)? -/
def State.revoked (s : State) (k : Nat) : Bool := bit (s.fuseWord 3 0) k || !(hashSet (s.fuseHash 4 (12 * k)))

/-- The lifecycle state of a fuse count (Table 20.5): 0 MANUFACTURE, 1 FIELD, 2 RETURN. (DESIGN CHOICE, log entry 9) -/
def lcState (n : Nat) : Nat := if n = 0 then 0 else if n % 2 = 1 then 1 else 2

/-- The minimum security version: the set bits of the thermometer (Table 21.14). -/
def State.svnMin (s : State) : Nat := ((List.range 32).filter (fun i => bit (s.fuseWord 2 0) i)).length

/-- A byte range of a list. -/
def cut (l : List Byte) (a n : Nat) : List Byte := (l.drop a).take n

/-- Fields of an image header (Table 20.3). -/
def ihSlot (h : List Byte) : Nat := leNat (cut h 6 1)
def ihSvn (h : List Byte) : Nat := leNat (cut h 8 4)
def ihCode (h : List Byte) : Nat := leNat (cut h 12 4)
def ihData (h : List Byte) : Nat := leNat (cut h 16 4)
def ihEntry (h : List Byte) : Nat := leNat (cut h 20 4)

/-- The fields an image header and a manifest header share. -/
def headShared (h : List Byte) (magic : Nat) : Bool :=
  leNat (cut h 0 4) == magic && leNat (cut h 4 2) == 1 && ihSlot h ≤ 3 && leNat (cut h 7 1) == 0
  && !(hashSet (cut h 24 40)) && !(hashSet (cut h 304 208))

/-- Table 20.3. -/
def imageHeaderOk (h : List Byte) : Bool :=
  headShared h 0x4D444657 && decide (4 ≤ ihCode h) && decide (ihCode h ≤ 0x30000) && ihCode h % 4 == 0 && decide (ihData h ≤ 0x40000)
  && ihEntry h % 4 == 0 && decide (ihEntry h < ihCode h)

/-- The manifest header of R591. (PRESUMED, log entry 13) -/
def State.manifestOk (s : State) (h : List Byte) : Bool :=
  headShared h 0x4D44504D && decide (512 + 16 * ihSvn h ≤ 65536) && ihCode h == 0
  && (leNat (cut h 16 8) == 0 || leNat (cut h 16 8) == s.serial)

/-- Does a header's signature verify? -/
def headSigned (h : List Byte) : Bool := Config.ecdsaVerify (cut h 112 96) (Config.sha384 (cut h 0 112)) (cut h 208 96)

/-- One slot of the loop of R592: a code of the failure, or the booted machine. `err` is 0 for a slot that reads well, 1 when its header
cannot be read, 2 when what follows cannot. -/
def State.bootSlot (s : State) (slot err : Nat) : Option Nat × State :=
  let base := 0x100000 * slot
  let h := s.flashRead base 512
  if err = 1 then (some 9, s)
  else if !(imageHeaderOk h) then (some 1, s)
  else if s.revoked (ihSlot h) || Config.sha384 (cut h 112 96) != s.fuseHash 4 (12 * ihSlot h) then (some 2, s)
  else if !(headSigned h) then (some 3, s)
  else if ihSvn h < s.svnMin then (some 4, s)
  else if err != 0 then (some 9, s)
  else
    let code := s.flashRead (base + 512) (ihCode h)
    let data := s.flashRead (base + 512 + ihCode h) (ihData h)
    let s1 := (s.imemWrite mgmtCore 0x8000 code).modSpad mgmtCore (fun m => { m with mem := m.mem.writeBytes 0 data })
    if Config.sha384 (code ++ data) != cut h 64 48 then (some 5, s1)
    else
      let m := s.flashRead (base + 0x80000) 512
      let recs := s.flashRead (base + 0x80000 + 512) (16 * ihSvn m)
      let s2 := s1.modSpad mgmtCore (fun x => { x with mem := x.mem.writeBytes 0x70000 (m ++ recs) })
      let owner := s.fuseHash 1 0
      let key := if lcState s.boot.lcShadow = 1 && hashSet owner then owner else s.fuseHash 4 (12 * ihSlot h)
      if !(s.manifestOk m) then (some 6, s2)
      else if Config.sha384 (cut m 112 96) != key || !(headSigned m) || Config.sha384 recs != cut m 64 48 then (some 7, s2)
      else
        let k : Ctl := { pc := BitVec.ofNat 64 (0x8000 + ihEntry h), mode := 3, run := .running, started := true, cycleBase := s.clk.ao }
        (none, (s2.setCtl mgmtCore k).modBoot (fun b => { b with slot := slot, svn := ihSvn h % 2 ^ 16, manAt := 0, lock := true, stage := .firmware }))

/-- The ROM boots (R592): slots by descending svn, A first on a tie or an unreadable header. (DESIGN CHOICE, log entry 112) -/
def execRomBoot (errA errB : Nat) (s : State) : Res :=
  .next (if s.boot.stage != .rom || !s.released || s.boot.lcTo.isSome || !s.pwr.on || s.pwr.off || s.boot.rst.isNone then s
    else
      let svn := fun (i : Nat) => ihSvn (s.flashRead (0x100000 * i) 512)
      let order := if errA != 1 && errB != 1 && decide (svn 0 < svn 1) then [(1, errB), (0, errA)] else [(0, errA), (1, errB)]
      match order with
      | [a, b] =>
        let ra := s.bootSlot a.1 a.2
        match ra.1 with
        | none => ra.2
        | some _ =>
          let rb := ra.2.bootSlot b.1 b.2
          match rb.1 with
          | none => rb.2
          | some c => rb.2.modBoot (fun x => { x with code := c, stage := .failed, rst := none })
      | _ => s)

/-! ## The seal (R597-R599) -/

/-- Is a plan well formed (R291)? -/
def State.planWf (s : State) (p : Nat) : Bool :=
  let xs := (List.range 16).map (fun v => s.plan p v)
  let vs := xs.filter (·.valid)
  vs.all (fun x => x.clusters.getLsbD x.vatmanCluster.toNat)
  && (List.range 64).all (fun cl => (vs.filter (fun x => x.clusters.getLsbD cl)).length ≤ 1)
  && xs.all (fun x => x.valid || x == {})

/-- HOST_VFMAP names no vat twice (R517). -/
def State.vfMapOk (s : State) : Bool := nodup ((List.range 16).filterMap (fun n => s.vfVat n))

/-- A write of 1 to PROT_SEAL.go (R599). -/
def State.seal (s : State) (w : Who) : State × Nat :=
  if !(whoMgmt w) then (s.regRefuse w ePermission 0x114, ePermission)
  else if s.boot.sealed then (s, eOk)
  else if !((List.range 8).all (fun i => (s.stk i).ready)) then (s.regRefuse w eState 0x114, eState)
  else if !(s.planWf s.net.planActive) || !s.vfMapOk then (s.regRefuse w eFormat 0x114, eFormat)
  else
    let ok := (List.range 8).foldl (fun (b : BitVec 8) p => if s.planWf p then b ||| (1#8 <<< p) else b) 0
    let s1 : State := { s with net := { s.net with planOk := ok }, boot := { s.boot with sealed := true, stage := .sealed, rst := none } }
    let s2 := (List.range 6).foldl (fun s p => if (s.port p).en && (s.port p).st == .disabled then s.linkTo p .down else s) s1
    (if s2.span.tw.cfgEn && (s2.port twinPort).st == .disabled then s2.linkTo twinPort .down else s2, eOk)

/-- PROT_SEAL (R599). (DEDUCED, log entry 114) -/
def execProtSeal (w : Who) (s : State) : Res := .next (s.seal w).1

/-! ## Vatmen (R252, R595) -/

/-- A write of VM_CTL (R595, R609): entry and evec are kept, and go starts the vatman. -/
def State.vmWrite (s : State) (w : Who) (v x : Nat) : State × Nat :=
  let off := 0x5000D4 + 0x10000 * v
  if !(whoMgmt w) then (s.regRefuse w ePermission off, ePermission)
  else
    match s.vatmanOf v with
    | none => if bit x 30 then (s.regRefuse w eState off, eState) else (s.modVat v (fun y => { y with vmEntry := fld x 0 13, vmEvec := fld x 16 13 }), eOk)
    | some c =>
      if bit x 30 && (!s.boot.sealed || (s.ctl c).run == .running) then (s.regRefuse w eState off, eState)
      else
        let s1 := s.modVat v (fun y => { y with vmEntry := fld x 0 13, vmEvec := fld x 16 13 })
        if !(bit x 30) then (s1, eOk)
        else (s1.setCtl c { pc := BitVec.ofNat 64 (4 * fld x 0 13), evec := BitVec.ofNat 64 (4 * fld x 16 13), mode := 2, run := .running, started := true,
                            cycleBase := s.clk.fast, idleSince := s.clk.fast }, eOk)

/-- VM_START (R595). -/
def execVmStart (w : Who) (v entry evec : Nat) (s : State) : Res :=
  .next (if 15 < v then s else (s.vmWrite w v (entry % 2 ^ 13 + evec % 2 ^ 13 * 2 ^ 16 + 2 ^ 30)).1)

/-- May a requester write the channel table of a vatman core (R251, R252)? -/
def State.mayChtab (s : State) (w : Who) (c : Nat) : Bool :=
  w == .core mgmtCore || w == .core c || (w == .debug && ((s.ctl c).run == .idle || (s.ctl c).run == .halted))

/-- Does a descriptor pass R252 for endpoint `e` of vatman core `c`? -/
def State.vmDescOk (s : State) (v c e d : Nat) : Bool :=
  let rest := (s.epsOf c).filter (· != e)
  chanDescOk c d
  && (!(cdRole d == 2 && cdSpillEn d) || s.stackWithin v (cdSpillBase d) (cdSpillN d * cdSpillSlot d))
  && apart (cdRanges d ++ rest.flatMap (fun i => cdRanges (s.ep c i).desc))
  && nodup ((cdCtrs d).eraseDups ++ rest.flatMap (fun i => (cdCtrs (s.ep c i).desc).eraseDups))

/-- The write of word 3 applies the descriptor of endpoint `e` of vat `v`'s vatman (R252). -/
def State.chtabApply (s : State) (w : Who) (v e : Nat) (x : Nat) : State × Nat :=
  let off := 0x504000 + 0x10000 * v + 32 * e + 24
  match s.vatmanOf v with
  | none => (s.regRefuse w eRange off, eRange)
  | some c =>
    let y := s.ep c e
    if !(s.mayChtab w c) then (s.regRefuse w ePermission off, ePermission)
    else if s.epBusy c e || y.occ != 0 || y.full || !y.spill.isEmpty || y.st == .opening || y.st == .opened then (s.regRefuse w eState off, eState)
    else
      let d := (y.staging.get 0 0).toNat + (y.staging.get 0 1).toNat * 2 ^ 64 + (y.staging.get 0 2).toNat * 2 ^ 128 + x % 2 ^ 64 * 2 ^ 192
      if !(s.vmDescOk v c e d) then (s.regRefuse w eFormat off, eFormat)
      else
        let s1 := s.setEp c e ({ y with desc := d } : Ep).init
        (if cdRole d = 2 then (s1.putCtr (cdRdy d) 0).putCtr (cdFree d) 0 else s1, eOk)

/-- VM_CHTAB_APPLY (R252). -/
def execVmChtabApply (w : Who) (v e x : Nat) (s : State) : Res := .next (if 15 < v || 63 < e then s else (s.chtabApply w v e x).1)

/-! ## Lifecycle and fuses (R600-R602) -/

/-- Is a transition one of R600, from the state of count `n`? -/
def lcLegal (n toSt : Nat) : Bool := decide (n < 8) && (if lcState n = 1 then toSt == 2 else toSt == 1)

/-- The unlock token of R600. (PRESUMED, log entry 13; DEDUCED, log entry 113) -/
def State.tokenOk (s : State) (toSt : Nat) (t : List Byte) : Bool :=
  let k := leNat (cut t 5 1)
  t.length == 256 && leNat (cut t 0 4) == 0x4D444C54 && leNat (cut t 4 1) == toSt && decide (k ≤ 3) && leNat (cut t 6 2) == 0
  && leNat (cut t 8 8) == s.serial && leNat (cut t 16 1) == s.boot.lcShadow && !(hashSet (cut t 17 47))
  && !(s.revoked k) && Config.sha384 (cut t 64 96) == s.fuseHash 4 (12 * k)
  && Config.ecdsaVerify (cut t 64 96) (Config.sha384 (cut t 0 64)) (cut t 160 96)

/-- A lifecycle request and its checks, in order (R601). -/
def State.lcRequest (s : State) (w : Who) (toSt : Nat) (token : List Byte) : State × Nat :=
  let b := s.boot
  let st :=
    if !(b.stage == .sealed || b.stage == .failed) then eState
    else if !(whoMgmt w) then ePermission
    else if !b.strap then ePermission
    else if !(lcLegal b.lcShadow toSt) then eState
    else if lcState b.lcShadow != 0 && !(s.tokenOk toSt token) then ePermission
    else eOk
  let s1 := s.modBoot (fun b => { b with lcStatus := st })
  if st != eOk then (s1.regRefuse w st 0x118, st)
  else
    let s2 := s1.askReset .lifecycle 5
    (if s2.boot.rst == some .lifecycle then s2.modBoot (fun b => { b with lcTo := some toSt }) else s2, eOk)

/-- LIFECYCLE_REQUEST: the token lies in management core data SRAM (R601). -/
def execLifecycleRequest (w : Who) (toSt tokOff : Nat) (s : State) : Res :=
  .next (s.lcRequest w toSt ((s.spad mgmtCore).mem.readBytes (16 * (tokOff / 16)) 256)).1

/-- After the wipes the strap is sampled: the bit is blown, or not (R601). -/
def execLifecycleStrapSample (s : State) : Res :=
  .next (if s.boot.rst != some .lifecycle || !s.boot.effect || !s.boot.wiped || s.boot.lcTo.isNone then s
    else if s.boot.strap then s.modBoot (fun b => { b with lcFuse := b.lcFuse + 1, lcShadow := b.lcFuse + 1, lcTo := none })
    else s.modBoot (fun b => { b with lcStatus := eAborted, lcTo := none }))

/-- Words of a fuse item (Table 21.22). -/
def fuseWords (item : Nat) : Nat := if item = 1 then 12 else if item = 2 || item = 3 then 1 else if item = 4 then 48 else if item = 5 then 62 else 0

/-- Would every vendor key slot be revoked or unprogrammed with revocation bits `x`? -/
def State.allRevoked (s : State) (x : Nat) : Bool :=
  (List.range 4).all (fun k => bit x k || (List.range 12).all (fun i => s.boot.fuse.get 0 (1024 + 12 * k + i) % 2 ^ 32 == 0))

/-- The status of a fuse program (R602, Table 20.6). (DEDUCED, log entry 113) -/
def State.fuseCheck (s : State) (w : Who) (item i x : Nat) : Nat :=
  let lc := lcState s.boot.lcShadow
  let old := s.boot.fuse.get 0 (256 * item + i) % 2 ^ 32
  if !(whoMgmt w) then ePermission
  else if item = 0 || 5 < item || fuseWords item ≤ i then eRange
  else if lc != 0 && (w == .debug || 4 ≤ item || (item = 1 && lc = 2)) then ePermission
  else if s.boot.fuseCmd.isSome then eState
  else if lc = 1 && item = 1 && old != 0 then eState
  else if lc = 1 && item = 3 && s.allRevoked x then eState
  else if old &&& x != old then eState
  else eOk

/-- A write of FUSE_PROG (R602). -/
def State.fuseWrite (s : State) (w : Who) (item i value : Nat) : State × Nat :=
  let x := if item = 3 then value % 16 else value % 2 ^ 32
  let st := s.fuseCheck w item i x
  let s1 := s.modBoot (fun b => { b with lcStatus := st })
  if st != eOk then (s1.regRefuse w st 0x120, st)
  else (s1.modBoot (fun b => { b with fuseCmd := some { item := item, index := i, value := x } }), eOk)

/-- FUSE_PROG (R602). (DEDUCED, log entry 113) -/
def execFuseProg (w : Who) (item i value : Nat) (s : State) : Res := .next (s.fuseWrite w item i value).1

/-- The word is programmed: busy clears; the shadows keep their values until the next reset (R602). -/
def execFuseProgramComplete (s : State) : Res :=
  .next (match s.boot.fuseCmd with
    | none => s
    | some k => s.modBoot (fun b => { b with fuseCmd := none, fuse := b.fuse.put (256 * k.item + k.index) k.value }))

/-- S1's presence strap has stood at a level for `ticks` (R631): taken after 10 ms; source 669. -/
def execS1StrapChange (on : Bool) (ticks : Nat) (s : State) : Res :=
  .next (if ticks < 10 ^ 7 || s.boot.strap == on then s else (s.modBoot (fun b => { b with strap := on })).fire 669)

/-- MOD_READY of J1 (Table 22.4): asserted from the seal until the next device reset. -/
def State.modReady (s : State) : Bool := s.boot.sealed

/-- Is THERMTRIP# of J1 asserted (Table 22.4)? From TRIP until a cold reset. -/
def State.thermTrip (s : State) : Bool := s.pwr.off

/-! ## The management port (R608) -/

/-- Does the firmware serve the port: over SMBus from its start, over PCIe VDM from the seal? -/
def State.mctpOn (s : State) (vdm : Bool) : Bool :=
  s.pwr.on && s.released && (if vdm then s.boot.sealed else s.boot.stage == .firmware || s.boot.stage == .sealed)

/-- BOOT_STAT and LC_STAT as registers (Tables 20.12, 20.13). -/
def Boot.statWord (b : Boot) : Nat :=
  (match b.stage with | .rom => 0 | .firmware => 1 | .sealed => 2 | .failed => 3) + b.slot * 2 ^ 3 + b.code * 2 ^ 8 + b.svn * 2 ^ 16
def Boot.lcWord (b : Boot) : Nat :=
  lcState b.lcShadow + b2n b.strap * 2 ^ 2 + b2n b.fuseCmd.isSome * 2 ^ 3 + b.lcStatus * 2 ^ 8 + b.lcShadow * 2 ^ 16

/-- An error log entry (Table 18.4). -/
def LogEntry.word (e : LogEntry) : Nat :=
  let r := e.rep
  r.src + r.event * 2 ^ 16 + r.status * 2 ^ 24 + e.dropped * 2 ^ 32 + b2n e.held * 2 ^ 48 + b2n r.vat.isSome * 2 ^ 49 + r.vat.getD 0 * 2 ^ 50
    + r.tick.toNat * 2 ^ 64 + r.info0 % 2 ^ 64 * 2 ^ 128 + e.seq * 2 ^ 192 + r.info1 % 2 ^ 32 * 2 ^ 224

/-- GET_ACCT: the accounting records from index `seq` that the ring still holds. (DEDUCED, log entry 114) -/
def execGetAcct (vdm : Bool) (seq : Nat) (s : State) : Res :=
  let a := s.hub.acct
  let n := 2 ^ a.slotsLog2
  let first := max seq (a.idx.toNat - n)
  .next (if !(s.mctpOn vdm) then s
    else s.send (.mctp 0 ((List.range (a.idx.toNat - first)).flatMap (fun i => s.stackRead (a.base + 256 * ((first + i) % n)) 256))))

/-- GET_LOG: the unconsumed entries, consumed when the management core owns the log. (DEDUCED, log entry 114) -/
def execGetLog (vdm : Bool) (s : State) : Res :=
  .next (if !(s.mctpOn vdm) then s
    else
      let s1 := s.send (.mctp 1 (s.hub.unconsumed.flatMap (fun i => leBytes 32 (s.hub.log.get {} i).word)))
      if s.hub.logOwnerPf then s1 else (s1.logTailWrite (.core mgmtCore) s1.hub.logHead).1)

/-- GET_LC: LC_STAT and BOOT_STAT. -/
def execGetLc (vdm : Bool) (s : State) : Res :=
  .next (if !(s.mctpOn vdm) then s else s.send (.mctp 2 (leBytes 4 s.boot.lcWord ++ leBytes 4 s.boot.statWord)))

/-- RESET: a warm reset (R584). -/
def execMctpReset (vdm : Bool) (s : State) : Res := .next (if !(s.mctpOn vdm) then s else s.askReset .warm 6)

/-- LC_REQ: a lifecycle request with its token, the management core as writer (R608). -/
def execLcReq (vdm : Bool) (toSt : Nat) (token : List Byte) (s : State) : Res :=
  .next (if !(s.mctpOn vdm) then s else (s.lcRequest (.core mgmtCore) toSt token).1)

/-- A firmware update: the image is written to the slot that did not boot; it fails while FLASH_WP# is asserted (R608, R641). -/
def execFirmwareUpdate (vdm : Bool) (image : List Byte) (wp : Bool) (s : State) : Res :=
  .next (if !(s.mctpOn vdm) || 0x100000 < image.length then s
    else if wp then s.send (.mctp 5 [BitVec.ofNat 8 ePermission])
    else
      let base := 0x100000 * (1 - s.boot.slot)
      ((s.modBoot (fun b => { b with flash := b.flash.clear base 0x100000 })).flashWrite base image).send (.mctp 5 [BitVec.ofNat 8 eOk]))

/-! ## The TAP's boundary instructions (R603) -/

/-- EXTEST, EXTEST_PULSE or EXTEST_TRAIN holds the pins: their links go DOWN, as a loss of signal does. (DEDUCED, log entry 116) -/
def execExtest (s : State) : Res :=
  .next (
    let s1 := s.modBoot (fun b => { b with extest := true })
    let s2 := (List.range 7).foldl (fun s p =>
      let st := (s.port p).st
      if st == .up || st == .hello || st == .align || st == .train then s.linkTo p .down else s) s1
    if s2.host.up then ((({ s2 with host := { s2.host with up := false, flit := false, rate := 0, width := 0 } } : State)).fire 650).hostReset else s2)

/-- Another instruction or Test-Logic-Reset releases the pins. -/
def execTestLogicReset (s : State) : Res := .next (s.modBoot (fun b => { b with extest := false }))

/-! ## The debug port's run control (R604-R606) -/

/-- Update-DR of the DAP register: a transaction starts, or the update is lost while one is in progress (R604). -/
def State.dapStart (s : State) (f : State → State × Nat × Nat) : State :=
  if s.boot.dap.pend then s.modBoot (fun b => { b with dap := { b.dap with ovr := true } })
  else
    let r := f s
    r.1.modBoot (fun b => { b with dap := { b.dap with pend := true, ovr := false, nextStatus := r.2.1, nextData := r.2.2 } })

/-- The transaction completes (R604). -/
def execDapTransactionComplete (s : State) : Res :=
  .next (if s.boot.dap.pend then
      s.modBoot (fun b => { b with dap := { b.dap with pend := false, status := b.dap.nextStatus, data := b.dap.nextData } })
    else s)

/-- NOP (Table 20.8). -/
def execDapNop (s : State) : Res := .next (s.dapStart (fun s => (s, eOk, 0)))

/-- Reasons from which STEP and RESUME act (R606). -/
def Ctl.debugHalted (k : Ctl) : Bool := k.run == .halted && (k.haltReason == 1 || k.haltReason == 2 || k.haltReason == 3)

/-- A debug request to a core counts EXT_ACCESS for a halt request (R343), and wakes a GATED core (R567). -/
def State.dapWake (s : State) (c : Nat) : State := s.modCtl c (fun k => { k with gated := false, idleSince := s.clk.fast })

/-- HALT (R606): at the next instruction boundary, where a waiting instruction is abandoned (R96, R97). (DEDUCED, log entry 116) -/
def execDapHalt (c : Nat) (s : State) : Res :=
  .next (if 4096 ≤ c then s
    else if !(s.clRun (clusterOf c)) then s.wakeCl (clusterOf c)
    else s.dapStart (fun s =>
      let s1 := (if s.detNow c then s.detBreakCore c 0x0F else s).dapWake c
      let k := s1.ctl c
      if s.net.fenced.has c || c % 64 = s.disabledPos (clusterOf c) then (s1, eState, 0)
      else if k.run == .halted then (s1, eOk, 0)
      else if k.run == .running then (if k.ldr.isSome then s1.setCtl c { k with haltReq := true } else s1.debugHalt c, eOk, 0)
      else (s1, eState, 0)))

/-- RESUME (R606). -/
def execDapResume (c : Nat) (s : State) : Res :=
  .next (if 4096 ≤ c then s
    else if !(s.clRun (clusterOf c)) then s.wakeCl (clusterOf c)
    else s.dapStart (fun s =>
      let s1 := s.dapWake c
      if (s1.ctl c).debugHalted then (s1.modCtl c (fun k => { k with run := .running, started := true, stepping := false }), eOk, 0) else (s1, eState, 0)))

/-- STEP (R606): one instruction may run. (DEDUCED, log entry 116) -/
def execDapStep (c : Nat) (s : State) : Res :=
  .next (if 4096 ≤ c then s
    else if !(s.clRun (clusterOf c)) then s.wakeCl (clusterOf c)
    else s.dapStart (fun s =>
      let s1 := s.dapWake c
      if (s1.ctl c).debugHalted then
        ((s1.modCtl c (fun k => { k with stepping := true })).modBoot (fun b =>
          { b with steps := (b.steps.filter (fun r => r.core != c)) ++ [{ core := c, since := s.clk.fast }] }), eOk, 0)
      else (s1, eState, 0)))

/-- A stepped instruction that still waits after 65,536 cycles is abandoned under R97, and the core halts before it (R606); an LDR whose
request has left the core completes instead (R97). -/
def execDapStepTimeout (c : Nat) (s : State) : Res :=
  .next (match s.boot.steps.find? (fun r => r.core == c) with
    | none => s
    | some r =>
      if !(s.ctl c).stepping || (s.ctl c).ldr.isSome || (s.clk.fast - r.since).toNat < 65536 then s
      else (((s.modCtl c (fun k => { k with waiting := none, stepping := false })).dropCpuWatch c).haltCore c 3).modBoot (fun b =>
        { b with steps := b.steps.filter (fun r => r.core != c) }))

end Sys2Proof.Machine
end

