-- ==== Sys2Proof/Machine/Channel.lean ====
section
/-! DEFINITION. The commands of channels, mailboxes and connections (Chapter 8). -/

namespace Sys2Proof.Machine

/-- The channel engine accepts its head entry (R116, R261, R262): one macro-instruction at a time. -/
def State.chnAccept (s : State) (c mop : Nat) (f : State → Nat → State) : State :=
  match (s.queue c 6).head with
  | none => s
  | some e =>
    if mMop e != mop || !(s.enginesOn c) || (s.chn c).entry.isSome then s
    else if !(s.sigRight c e) then s.haltQueue c 6 ePermission e
    else
      let s1 := (s.popQ c 6).modChn c (fun x => { x with mop := mop })
      let k := s.chnCheck c e.toNat mop
      if k != eOk then s1.reject c 6 k e
      else f (s1.modChn c (fun x => { x with entry := some e, idx := 0, refusal := none, sentBad := none, landed := false, answered := [] })) e.toNat

/-- SEND is accepted (R262, R263). -/
def execSend (c : Nat) (s : State) : Res := .next (s.chnAccept c 1 (fun s _ => s.chnStall c))

/-- One message of the SEND: a credit of every receiver is spent and its packets leave (R263). A logical number to which the core's copy gives no
position is refused at the source with E_RANGE, as R248 says of a window. (DEDUCED, log entry 147) -/
def execSendMessage (c : Nat) (s : State) : Res :=
  .next (match (s.chn c).entry with
    | some m =>
      let y := s.chn c
      let e := sdEp m.toNat
      let x := s.ep c e
      if mMop m != 1 || !(s.enginesOn c) || y.refusal.isSome || sdCount m.toNat ≤ y.idx || x.creditMin == 0 then s
      else
        if cdPath x.desc = 0 && (s.physFor c (cdDstCl x.desc) (cdDstCore x.desc)).isNone then s.chnHalt c eRange
        else
        let s1 := s.sendPackets c m.toNat y.idx
        let s2 := s1.modEp c e (fun x => { (x.stallTo s.clk.fast.toNat) with
          credits := (List.range (cdMcCount x.desc)).map (fun i => (i, x.credits.get 0 i - 1)),
          seq := (x.seq + 1) % 2 ^ 32, msgs := satAdd top24 x.msgs 1, dlSince := none, dlTold := false })
        s2.chnStall c
    | none => s)

/-- SEND.M is accepted and its MBOX packet leaves (R260, Table 8.4). (DEDUCED, log entry 46) -/
def execSendM (c : Nat) (s : State) : Res :=
  .next (s.chnAccept c 2 (fun s m =>
    let remote := bit m 50
    if !remote && (s.physFor c (fld m 44 6) (fld m 38 6)).isNone then s.chnHalt c eRange
    else s.chanOut c 4 (if remote then fld m 64 17 else 0) (fld m 44 6) (fld m 38 6) none
      { (s.chHead c 0 remote) with dstEp := fld m 32 6, last := true, data := leBytes (fld m 51 4 + 1) (fld m 128 128) }))

/-- RSYNC is accepted and its sync word leaves for the sync frame unit (R287). (DEDUCED, log entry 46) -/
def execRsync (c : Nat) (s : State) : Res :=
  .next (s.chnAccept c 3 (fun s m =>
    s.send (.syncWord c (BitVec.ofNat 64 (fld m 32 17 + fld m 49 15 * 2 ^ 17 + fld m 64 32 * 2 ^ 32)))))

/-- OPEN sets its endpoint to OPENING and sends the OPEN packet (R270). -/
def execOpenChan (c : Nat) (s : State) : Res :=
  .next (s.chnAccept c 4 (fun s m =>
    let e := sdEp m
    let far := (fld m 64 17, fld m 50 6, fld m 44 6, fld m 38 6)
    let h := s.chHead c e true
    let body := leBytes 16 (h.job + far.2.2.2 * 2 ^ 16 + far.2.2.1 * 2 ^ 22 + far.2.1 * 2 ^ 28)
    ((s.modEp c e (fun x => { x with st := .opening, far := far })).modChn c (fun x => { x with openAt := s.clk.gtc.toNat })).chanOut c 6 far.1 far.2.1 far.2.2.1 none { h with dstEp := far.2.2.2, last := true, data := body }))

/-- CLOSE takes effect at once and its packet leaves; it completes (R271). -/
def execCloseChan (c : Nat) (s : State) : Res :=
  .next (s.chnAccept c 5 (fun s m =>
    let e := sdEp m
    let x := s.ep c e
    ((s.setEp c e { x with st := .closed }).chanOut c 9 x.far.1 x.far.2.1 x.far.2.2.1 none { (s.chHead c e true) with dstEp := x.far.2.2.2, conn := x.conn }).chnDone c))

/-- Does a message from another endpoint cross the deckle raised over core `c` (R316)? -/
def State.crossesDeckle (s : State) (c : Nat) (m : ChMsg) : Bool :=
  s.deckled (clusterOf c) && (m.remote || s.ownerOf m.srcCl != s.vatOfCore c || !(s.deckled m.srcCl))

/-- Does a deckle stand between core `c` and a cluster of this device, on either side (R316)? -/
def State.deckleBetween (s : State) (c cl : Nat) : Bool :=
  s.crossesDeckle c { srcCl := cl } || (s.deckled cl && (s.ownerOf cl != s.vatOfCore c || !(s.deckled (clusterOf c))))

/-- Count a message refused at the deckle (R316). -/
def State.countDeckle (s : State) (c : Nat) : State :=
  match s.vatOfCore c with
  | some v => s.modVat v (fun x => { x with deckleRefused := satAdd top16 x.deckleRefused 1 })
  | none => s

/-- Every channel packet of a kind that arrives at core `c`: one for a fenced core is refused by its router (R245), one with a reserved ckind or
field by the core (R265). -/
def State.chanArrive (s : State) (c kind : Nat) (m : ChMsg) (f : State → State) : State :=
  if s.net.fenced.has c then s.chanRefused kind m eFenced
  else if m.reserved then s.chanRefuse c kind m eFormat true
  else f s

/-- The sender of a packet: node, cluster, core, endpoint. -/
def chFar (m : ChMsg) : Nat × Nat × Nat × Nat := (m.srcNode, m.srcCl, m.srcCore, m.srcEp)

/-- The message of a sender that is arriving at an endpoint. -/
def Ep.arriving (x : Ep) (f : Nat × Nat × Nat × Nat) : RxMsg := (x.rx.find? (fun r => r.far == f)).getD { far := f }

/-- Set or forget the message of a sender that is arriving. -/
def Ep.arrived (x : Ep) (f : Nat × Nat × Nat × Nat) (r : Option RxMsg) : Ep :=
  { x with rx := x.rx.filter (fun y => y.far != f) ++ (match r with | some y => [y] | none => []) }

/-- The rest of a refused message is to be discarded (R266, R316). -/
def State.dropRest (s : State) (c : Nat) (m : ChMsg) : State :=
  s.modEp c (m.dstEp % 64) (fun x => x.arrived (chFar m) (if m.last then none else some { far := chFar m, drop := true }))

/-- A DATA packet arrives (R265, R266, R316): a whole message lands, spills or is refused. A refused message is answered and counted once, with its
first refused packet. A packet that does not continue its message refuses it, since no message is applied in part. (DEDUCED, log entry 148) -/
def execChannelData (c : Nat) (m : ChMsg) (s : State) : Res :=
  let e := m.dstEp % 64
  let x := s.ep c e
  let r := x.arriving (chFar m)
  .next (s.chanArrive c 1 m (fun s =>
    if r.drop then (if m.last then s.dropRest c m else s)
    else if s.crossesDeckle c m then ((s.dropRest c m).countDeckle c).chanRefused 1 m eState
    else if cdRole x.desc != 2 || !(s.fromPeer c e m) || m.off != r.data.length then (s.dropRest c m).chanRefuse c 1 m eState false
    else
      let data := r.data ++ m.data
      let bad := m.bad.foldl (fun b k => b.add (m.off + k)) r.bad
      if m.last then (s.setEp c e { (x.arrived (chFar m) none) with far := if m.remote then chFar m else x.far }).place c e m data bad
      else s.setEp c e (x.arrived (chFar m) (some { far := chFar m, data := data, bad := bad }))))

/-- The free test passes: the oldest slot is freed, a credit returns, and a spilled message is read for it (R258, R276). No credit crosses a
deckle (R316). -/
def execEndpointFreeTestPass (c e : Nat) (s : State) : Res :=
  let x := s.ep c e
  let across := if cdPath x.desc ≤ 1 then s.deckleBetween c (cdPeerCl x.desc) else s.deckled (clusterOf c)
  .next (if cdRole x.desc == 2 && x.occ != 0 && 1 ≤ s.ctr (cdFree x.desc) && !(s.net.fenced.has c) && !across then
      (((s.decCtr (cdFree x.desc) 1).modEp c e (fun y => { y with occ := y.occ - 1 })).toSender c e 2).drainSpill c e
    else s)

/-- A drain read returns and its message lands (R276). (DESIGN CHOICE, log entry 47) -/
def execSpillDrain (c e : Nat) (ans : ReadAns) (s : State) : Res :=
  let x := s.ep c e
  .next (match ans, x.spill with
    | .ok data bad, q :: rest =>
      if x.drains == 0 then s
      else
        let s1 := s.setEp c e { x with spill := rest, drains := x.drains - 1, spHead := (x.spHead + 1) % cdSpillN x.desc }
        s1.land c e ((data.drop 16).take q.len) ((bad.filter (16 ≤ ·)).map (· - 16)) q.seq q.srcNode true
    | _, _ => s)

/-- The stack controllers acknowledge the writes of the oldest unacknowledged spilled message: it counts as landed, drained or not (R276). -/
def execSpillWriteAck (c e : Nat) (s : State) : Res :=
  let x := s.ep c e
  .next (match x.spillAcks with
    | a :: rest =>
      let s1 := s.setEp c e { x with spillAcks := rest }
      if a then s1.toSender c e 3 else s1
    | [] => s)

/-- A CREDIT for endpoint `e` returns one credit (R263, R277); it may be the answer a refused SEND waited for (R264). -/
def execCreditReturn (c e : Nat) (m : ChMsg) (s : State) : Res :=
  let x := s.ep c e
  .next (s.chanArrive c 2 { m with dstEp := e } (fun s =>
    if cdRole x.desc == 1 && m.mc < cdMcCount x.desc then
      ((s.setEp c e { (x.unwait s.clk.fast.toNat) with credits := x.credits.put m.mc (x.credits.get 0 m.mc + 1) }).chnRefusalDone c).chnStall c
    else s))

/-- The SEND has landed at every receiver: on path 2 or 3 in deterministic mode it completes no earlier than its window (R263, R279). -/
def State.chnLanded (s : State) (c : Nat) : State :=
  if s.sendFar c && s.detNow c then
    if s.clk.fast.toNat < s.sendWindow c then s.modChn c (fun x => { x with landed := true })
    else if s.clk.fast.toNat = s.sendWindow c then s.chnDone c
    else (s.detBreakCore c 8).chnDone c
  else s.chnDone c

/-- A LACK arrives for endpoint `e`; with the last receiver's, the SEND completes (R263), or halts if it was refused (R264). -/
def execLandingAck (c e : Nat) (m : ChMsg) (s : State) : Res :=
  .next (s.chanArrive c 3 { m with dstEp := e } (fun s =>
    match (s.chn c).entry with
    | some w =>
      if mMop w != 1 || sdEp w.toNat != e then s
      else
        let n := sdCount w.toNat
        let s1 := s.modChn c (fun y => { y with answered := y.answered.put (s.ackFrom c m) n })
        if (s.chn c).refusal.isSome then s1.chnRefusalDone c
        else if (s.chn c).idx < n || !(s1.allAnswered c e n false) then s1
        else s1.chnLanded c
    | none => s))

/-- The OPEN of endpoint `e` ends without a connection (R270). -/
def State.openFails (s : State) (c e status : Nat) : State :=
  match (s.chn c).entry with
  | some w =>
    if mMop w == 4 && sdEp w.toNat == e && (s.ep c e).st == .opening then
      (s.modEp c e (fun x => { x with st := .closed })).chnHalt c status
    else s
  | none => s

/-- A REFUSE returns for the message with sequence number `seq`, from receiver `mc` (R264): its credit is restored, the first refusal is kept, and
the queue halts when every answer is in. A refused SEND.M or OPEN halts with its status. A refused poisoned message to another device's vat is a
commit point (R553, kind 4). (DEDUCED, log entry 147) -/
def execSendRefused (c e mc seq status : Nat) (s : State) : Res :=
  .next (match (s.chn c).entry with
    | some m =>
      if mMop m == 2 then s.chnHalt c status
      else if mMop m == 4 then s.openFails c e status
      else if mMop m != 1 || sdEp m.toNat != e then s
      else
        let y := s.chn c
        let x := s.ep c e
        let n := (seq + y.idx + 2 ^ 32 - x.seq % 2 ^ 32) % 2 ^ 32
        if y.idx ≤ n || cdMcCount x.desc ≤ mc then s
        else
          let s1 := (s.modEp c e (fun x => { (x.unwait s.clk.fast.toNat) with credits := x.credits.put mc (x.credits.get 0 mc + 1) })).modChn c
            (fun y => { y with refusal := some (y.refusal.getD status), answered := y.answered.put mc (max (n + 1) (y.answered.get 0 mc)) })
          let s2 := s1.chnRefusalDone c
          match y.sentBad, s.vatOfCore c with
          | some a, some v =>
            if s.sendFar c && (status == eState || status == ePermission) && y.refusal.isNone then
              (s2.containPoint v 4 (srcCore c) a a).abortSheet v
            else s2
          | _, _ => s2
    | none => s)

/-- An MBOX packet: stored in an empty mailbox, else refused and logged (R260); none crosses a deckle (R316). -/
def execMailboxMessage (c : Nat) (m : ChMsg) (s : State) : Res :=
  let e := m.dstEp % 64
  let x := s.ep c e
  let ans := fun (s : State) (st : Nat) => s.chanOut c 5 (if m.remote then m.srcNode else 0) m.srcCl m.srcCore none
    { (s.chHead c e m.remote) with dstEp := m.srcEp, status := st }
  .next (s.chanArrive c 4 m (fun s =>
    if s.crossesDeckle c m then (s.countDeckle c).chanRefused 4 m eState
    else if cdRole x.desc != 3 || x.full then ans (s.log (srcCore c) evRefused eState (s.vatOfCore c) 0 e) eState
    else
      let s1 := s.setEp c e { x with full := true, mbox :=
        { srcNode := if m.remote then m.srcNode else 0, remote := m.remote, srcCl := m.srcCl, srcCore := m.srcCore, srcEp := m.srcEp, data := m.data } }
      let s2 := if cdRdy x.desc != 0 then s1.addFrom c (cdRdy x.desc) 1 else s1
      ans (s2.raiseCore c causeMbox) eOk))

/-- An MBRSP: the SEND.M completes, or halts its queue with the answer's status (R263). -/
def execMailboxAnswer (c : Nat) (m : ChMsg) (s : State) : Res :=
  .next (s.chanArrive c 5 m (fun s =>
    match (s.chn c).entry with
    | some w => if mMop w != 2 then s else if m.status = eOk then s.chnDone c else s.chnHalt c m.status
    | none => s))

/-- Writing 1 to CHN_MBOX.full empties the mailbox (R260). -/
def execMailboxClear (c e : Nat) (s : State) : Res := .next (s.modEp c e (fun x => { x with full := false }))

/-- The checks of an accepting device, in order (R270 step 2). (DESIGN CHOICE, log entry 44) -/
def State.openCheck (s : State) (c : Nat) (m : ChMsg) : Nat :=
  let e := m.dstEp % 64
  let x := s.ep c e
  let p := (s.port m.port).perm
  if m.remote && !(p.chan && p.lo ≤ m.srcNode && m.srcNode ≤ p.hi) then ePermission
  else if cdRole x.desc != 2 || cdPath x.desc != 3 || x.st != .listen then eState
  else if !(match s.vatOfCore c with | some v => (s.vat v).jobValid && (s.vat v).jobId == m.job | none => false) then eState
  else if ((List.range 4096).find? (fun i => !(s.conn i).opened)).isNone then eRange
  else eOk

/-- OPEN arrives at the target's core: ACCEPT with a new connection, or REJECT (R270); none crosses a deckle (R316). (DESIGN CHOICE, log entry 44) -/
def execOpenPacket (c : Nat) (m : ChMsg) (s : State) : Res :=
  let e := m.dstEp % 64
  let x := s.ep c e
  let h := s.chHead c e true
  let k := s.openCheck c m
  .next (s.chanArrive c 6 m (fun s =>
    if s.crossesDeckle c m then (s.countDeckle c).chanRefused 6 m eState
    else if k != eOk then s.chanOut c 8 m.srcNode m.srcCl m.srcCore none { h with dstEp := m.srcEp, status := k }
    else
      let i := ((List.range 4096).find? (fun i => !(s.conn i).opened)).getD 0
      let id := (s.conn i).gen * 4096 + i
      let s1 := s.modConn i (fun k => { k with opened := true, core := c, ep := e, node := m.srcNode, peerEp := m.srcEp })
      let s2 := s1.setEp c e { (x.emptied) with st := .opened, conn := id, far := chFar m, wp := 0, seq := 0 }
      s2.chanOut c 7 m.srcNode m.srcCl m.srcCore none
        { h with dstEp := m.srcEp, conn := id, data := leBytes 16 (cdSlots x.desc + cdSpillN x.desc + fld x.desc 16 14 * 2 ^ 16) }))

/-- Is the deadline of the OPEN in progress past: open_to ticks after it was sent, half-open (R8, R270)? -/
def State.openLate (s : State) (c : Nat) : Bool :=
  match s.vatOfCore c with
  | some v => decide ((s.chn c).openAt + (s.vat v).openTo ≤ s.clk.gtc.toNat)
  | none => false

/-- ACCEPT arrives: the endpoint opens and the OPEN completes; at or after the timeout it is answered with CLOSE (R270). (DESIGN CHOICE, log entry 44) -/
def execAccept (c : Nat) (m : ChMsg) (s : State) : Res :=
  let e := m.dstEp % 64
  let x := s.ep c e
  let close := fun (s : State) => s.chanOut c 9 m.srcNode m.srcCl m.srcCore none { (s.chHead c e true) with dstEp := m.srcEp, conn := m.conn }
  .next (s.chanArrive c 7 m (fun s =>
    match (s.chn c).entry with
    | some w =>
      if mMop w == 4 && sdEp w.toNat == e && x.st == .opening then
        if s.openLate c then close (s.openFails c e eTimeout)
        else (s.setEp c e { x with st := .opened, conn := m.conn, credits := [(0, leNat (m.data.take 2))], creditsMax := leNat (m.data.take 2),
                                   wp := 0, seq := 0 }).chnDone c
      else close s
    | none => close s))

/-- REJECT halts the queue at the OPEN of endpoint `e`; one at or after the deadline finds it timed out (R8, R270). -/
def execReject (c e : Nat) (m : ChMsg) (s : State) : Res :=
  .next (s.chanArrive c 8 { m with dstEp := e } (fun s => s.openFails c e (if s.openLate c then eTimeout else m.status)))

/-- Close a connection entry: the generation advances, the target returns to LISTEN and discards its messages (R269, R271). -/
def State.closeConn (s : State) (i : Nat) : State :=
  let k := s.conn i
  if !k.opened then s
  else (s.setConn i { k with opened := false, gen := (k.gen + 1) % 4096 }).modEp k.core k.ep (fun x => { x.emptied with st := .listen, conn := 0 })

/-- CLOSE, a core and the packet that reaches it, arrives for a connection; one that names a closed entry or another generation is refused (R269, R271). -/
def execClosePacket (p : Nat × ChMsg) (s : State) : Res :=
  let c := p.1
  let m := p.2
  let k := s.conn (m.conn % 4096)
  .next (s.chanArrive c 9 m (fun s =>
    if k.opened && k.gen == m.conn / 4096 && k.node == m.srcNode then s.closeConn (m.conn % 4096)
    else s.chanRefuse c 9 m eState false))

/-- No answer within open_to ticks of the OPEN: E_TIMEOUT at or after the deadline (R8, R270). -/
def execOpenTimeout (c : Nat) (s : State) : Res :=
  .next (match (s.chn c).entry with
    | some w => if mMop w == 4 && s.openLate c then s.openFails c (sdEp w.toNat) eTimeout else s
    | none => s)

/-- A credit-less count reaches 2^dl_log2 cycles (R277): the bit is set, logged, and the vatman interrupted, once for each count; the SEND
goes on. -/
def execDeadlockDetect (c e : Nat) (s : State) : Res :=
  let x := s.ep c e
  .next (match x.dlSince, s.vatOfCore c with
    | some t, some v =>
      if x.dlTold || s.clk.fast.toNat < t + 2 ^ (s.vat v).dlLog2Latch then s
      else ((s.setEp c e { x with deadlock := true, dlTold := true }).raiseCore c causeDeadlock).log (srcCore c) evDeadlock eDeadlock (some v) 0 e
    | _, _ => s)

/-- The earliest held rdy_ctr increment is applied at its release cycle (R279). -/
def execReleaseCycle (c e : Nat) (s : State) : Res :=
  let x := s.ep c e
  .next (match x.heldRdy with
    | r :: rest => if r ≤ (s.cycleOf c).toNat then (s.setEp c e { x with heldRdy := rest }).addFrom c (cdRdy x.desc) 1 else s
    | [] => s)

/-- A node applies the SYNC packets presented in the previous cycle, by input port, then tests watches (R283). (DESIGN CHOICE, log entry 6; DESIGN CHOICE, log entry 22) -/
def execSyncApply (node : Nat) (s : State) : Res :=
  let l := s.presented node
  let ordered := (List.range 5).flatMap (fun p => l.filter (fun x => x.port == p))
  .next ((ordered.foldl (fun s x => if x.sub then (s.subCtr x.ctr x.amount).1 else s.addCtr x.ctr x.amount) (s.setPresented node [])).testWatches node)

end Sys2Proof.Machine
end

