-- ==== Sys2Proof/Machine/CtlOps.lean ====
section
/-! DEFINITION. Shared operations of the control processor's device accesses and special registers (R88-R91, Table 3.9). -/

namespace Sys2Proof.Machine

/-- The device read of an LDR at `a`: its request leaves and the processor is held (R89); across a crossing it counts LDR_ASYNC for a compute
core (R90). -/
def State.ldrIssue (s : State) (c : Nat) (k : Ctl) (rd : Reg) (a : W64) (size : Nat) : State :=
  match s.devFault c a size false with
  | some (cause, st) => s.takeException c cause st k.pc a
  | none =>
    let s1 := (s.setCtl c { k with ldr := some { rd := rd, size := size, addr := a } }).devRead c a.toNat size (.ldr c a.toNat size) (.readReq c a.toNat size (s.meshTo c a.toNat))
    if targetAsync (targetOf a.toNat) && (k.mode == 0 || k.mode == 1) then s1.detBreakCore c 5 else s1

/-- An LDR (R89). -/
def State.ldrSend (s : State) (op : BitVec 8) (c : Nat) (g : Guard) (rd rs1 : Reg) (imm : BitVec 10) (size : Nat) : State :=
  s.instr c g (encI op g rd rs1 imm) (fun k => s.ldrIssue c k rd (k.ea rs1 imm size) size)

/-- The device write of an STR at `a`: it is posted and the processor moves past (R89). -/
def State.strIssue (s : State) (c : Nat) (k : Ctl) (rs2 : Reg) (a : W64) (size : Nat) : State :=
  match s.devFault c a size true with
  | some (cause, st) => s.takeException c cause st k.pc a
  | none =>
    ((s.setCtl c { k with strOut := k.strOut + 1, strAsync := k.strAsync + b2n (targetAsync (targetOf a.toNat)) }.adv).devWrite c a.toNat (leBytes size (k.rg rs2).toNat) [] (.str c a.toNat)
      (.writeReq c a.toNat (leBytes size (k.rg rs2).toNat) (s.meshTo c a.toNat))).noteCoreWrite c a.toNat (leBytes size (k.rg rs2).toNat) (fun _ => false)

/-- An STR (R89). -/
def State.strSend (s : State) (op : BitVec 8) (c : Nat) (g : Guard) (rs2 rs1 : Reg) (imm : BitVec 10) (size : Nat) : State :=
  s.instr c g (encI op g rs2 rs1 imm) (fun k => s.strIssue c k rs2 (k.ea rs1 imm size) size)

/-- The answer of an outstanding LDR (R89): data is zero-extended into the register; a refusal raises REMOTE. A debug halt request that waited for it is
taken then (R97). (DEDUCED, log entry 20) -/
def State.ldrReturn (s : State) (c : Nat) (ans : Answer) : State :=
  let k := s.ctl c
  match k.ldr with
  | none => s
  | some o =>
    let k1 := { k with ldr := none }
    let s1 := match ans with
      | .data v => (s.retire c k1 o.rd (BitVec.ofNat 64 (v.toNat % 2 ^ (8 * o.size)))).stepOver c
      | .refused st => ((s.setCtl c k1).takeException c cRemote st.toNat k.pc o.addr).stepOver c
    if k.haltReq && (s1.ctl c).run == .running then s1.debugHalt c else s1

/-- A refusal of a posted STR (R89): rserr is set, and RSERR records the first. (DEDUCED, log entry 20) -/
def State.strRefuse (s : State) (c : Nat) (addr : W64) (st : BitVec 8) : State :=
  s.modCtl c (fun k =>
    { k with strOut := k.strOut - 1, strAsync := k.strAsync - b2n (targetAsync (targetOf addr.toNat)), rserrSet := true,
             rserr := if k.rserrSet then k.rserr else BitVec.ofNat 64 (addr.toNat % 2 ^ 48 + st.toNat * 2 ^ 48) })

/-- CORE_ID (Table 3.14). -/
def State.coreId (s : State) (c : Nat) : W64 :=
  if c = mgmtCore then BitVec.ofNat 64 (2 ^ 21)
  else BitVec.ofNat 64 ((s.logOf c).getD 0 + clusterOf c * 2 ^ 8 + (s.vatOfCore c).getD 0 * 2 ^ 16 + b2n (s.vatmanVat c).isSome * 2 ^ 20)

/-- STATUS (Table 3.10). -/
def Ctl.status (k : Ctl) : W64 :=
  BitVec.ofNat 64 (k.mode.toNat + b2n k.ie * 4 + b2n k.pie * 8 + b2n k.exc * 16 + b2n k.rserrSet * 128)

/-- QSTAT (Table 3.16). -/
def State.qstat (s : State) (c : Nat) : W64 :=
  let f := s.qFree c
  BitVec.ofNat 64 (f 0 + f 1 * 2 ^ 5 + f 2 * 2 ^ 10 + f 3 * 2 ^ 14 + f 4 * 2 ^ 18 + f 5 * 2 ^ 22 + f 6 * 2 ^ 26
    + (List.range 7).foldl (fun a q => a + b2n (s.queue c q).halted * 2 ^ (32 + q)) 0)

/-- Is a special register number assigned on a core (Table 3.9)? -/
def State.srAssigned (s : State) (c n : Nat) : Bool :=
  n ≤ 0x007 || (0x010 ≤ n && n ≤ 0x012) || n == 0x015
  || (c != mgmtCore && (n == 0x013 || (n == 0x014 && (s.vatmanVat c).isNone) || n == 0x020 || (0x028 ≤ n && n ≤ 0x02F) || (0x030 ≤ n && n ≤ 0x033)))

/-- The value of a special register (Table 3.9). (DEDUCED, log entry 17) -/
def State.srRead (s : State) (c n : Nat) : W64 :=
  let k := s.ctl c
  if n = 0x000 then k.status
  else if n = 0x001 then k.epc
  else if n = 0x002 then BitVec.ofNat 64 (k.cause.toNat + 256 * k.causeStatus.toNat)
  else if n = 0x003 then k.eval
  else if n = 0x004 then k.evec
  else if n = 0x005 then zext64 k.epred
  else if n = 0x006 then k.escratch
  else if n = 0x007 then k.rserr
  else if n = 0x010 then s.coreId c
  else if n = 0x011 then s.cycleOf c
  else if n = 0x012 then s.clk.gtc
  else if n = 0x013 then (match s.vatOfCore c with | some v => zext64 (s.vat v).srSheet | none => 0)
  else if n = 0x014 then k.entry
  else if n = 0x015 then zext64 k.haltReason
  else if n = 0x020 then s.qstat c
  else if 0x028 ≤ n && n ≤ 0x02E then
    let q := s.queue c (n - 0x028)
    BitVec.ofNat 64 (q.errStatus.toNat + 256 * q.errMop.toNat)
  else if n = 0x030 then k.ib0
  else if n = 0x031 then k.ib1
  else if n = 0x032 then k.ib2
  else if n = 0x033 then k.ib3
  else 0

/-- QCTL retry: the halted head entry is presented again (R107). -/
def State.qRetry (s : State) (c q : Nat) : State :=
  if (s.queue c q).halted then
    (s.modQueue c q (fun x => { x with halted := false })).modSe c (q - 2) (fun x => if 2 ≤ q && q ≤ 5 then { x with entry := none, faulted := false } else x)
  else s

/-- QCTL drop: the halted head entry is freed without effect, its signal fields included, and the queue resumes (R107). -/
def State.qDrop (s : State) (c q : Nat) : State :=
  if (s.queue c q).halted then
    let s1 := s.modQueue c q (fun x => { (x.pop) with halted := false })
    if 2 ≤ q && q ≤ 5 then s1.modSe c (q - 2) (fun x => { x with entry := none, faulted := false }) else s1
  else s

/-- A write of QCTL (Table 3.18): both bits for one queue leave it unchanged. -/
def State.qctlWrite (s : State) (c : Nat) (x : Nat) : State :=
  (List.range 7).foldl (fun s q =>
    let r := bit x q
    let d := bit x (8 + q)
    if r && !d then s.qRetry c q else if d && !r then s.qDrop c q else s) s

/-- RW fields of a special register written by MTS, MSET and MCLR; STATUS.ie reads zero and ignores writes in modes 0 and 1. -/
def Ctl.srPut (k : Ctl) (n : Nat) (x : W64) : Ctl :=
  if n = 0x000 then { k with pie := x.getLsbD 3, ie := if k.mode.toNat ≥ 2 then x.getLsbD 2 else false }
  else if n = 0x001 then { k with epc := x &&& ~~~3#64 }
  else if n = 0x004 then { k with evec := x &&& ~~~3#64 }
  else if n = 0x005 then { k with epred := x.setWidth 8 &&& 0xFE#8 }
  else if n = 0x006 then { k with escratch := x }
  else if n = 0x030 then { k with ib0 := x }
  else if n = 0x031 then { k with ib1 := x }
  else if n = 0x032 then { k with ib2 := x }
  else if n = 0x033 then { k with ib3 := x }
  else k

/-- MTS: a write field by field (R14, R91): RW fields, the W1C bit of STATUS, and QCTL. -/
def State.srWrite (s : State) (c n : Nat) (x : W64) : State :=
  if n = 0x02F then s.qctlWrite c x.toNat
  else s.modCtl c (fun k =>
    let k1 := k.srPut n x
    if n = 0x000 && x.getLsbD 7 then { k1 with rserrSet := false } else k1)

/-- A special register instruction (R91): a number not assigned on the core is a reserved value, illegal whatever the guard (R80). (DEDUCED, log entry 17) -/
def State.srInstr (s : State) (op : BitVec 8) (c : Nat) (g : Guard) (rd rs1 : Reg) (sr : BitVec 10) (f : Ctl → State) : State :=
  s.instrIf c g (encI op g rd rs1 sr) (s.srAssigned c sr.toNat) f

end Sys2Proof.Machine
end

