-- ==== Sys2Proof/Machine/Flags.lean ====
section
/-! DEFINITION. The 64-bit arithmetic of Table 3.3 that needs more than one operator: wide products and the division corners (R82, R83).
The control processor has no flags register; what other machines call flags are its predicates. -/

namespace Sys2Proof.Machine

/-- High 64 bits of the signed product. -/
def mulHigh (a b : W64) : W64 := BitVec.ofInt 64 ((a.toInt * b.toInt) / 2 ^ 64)

/-- High 64 bits of the unsigned product. -/
def mulHighU (a b : W64) : W64 := BitVec.ofNat 64 (a.toNat * b.toNat / 2 ^ 64)

/-- Signed quotient truncated toward zero; all ones for a zero divisor; −2⁶³ by −1 gives −2⁶³ (R83). -/
def divS (a b : W64) : W64 := if b = 0 then BitVec.allOnes 64 else BitVec.ofInt 64 (a.toInt.tdiv b.toInt)

/-- Unsigned quotient; all ones for a zero divisor (R83). -/
def divU (a b : W64) : W64 := if b = 0 then BitVec.allOnes 64 else BitVec.ofNat 64 (a.toNat / b.toNat)

/-- Signed remainder with the sign of the dividend; the dividend for a zero divisor (R83). -/
def remS (a b : W64) : W64 := if b = 0 then a else BitVec.ofInt 64 (a.toInt.tmod b.toInt)

/-- Unsigned remainder; the dividend for a zero divisor (R83). -/
def remU (a b : W64) : W64 := if b = 0 then a else BitVec.ofNat 64 (a.toNat % b.toNat)

end Sys2Proof.Machine
end

