-- ==== Sys2Proof/Machine/Control.lean ====
section
/-! DEFINITION. The control processor's integer, compare, predicate, scratchpad and device access, special register and control-flow
instructions (Tables 3.3 to 3.13). -/

namespace Sys2Proof.Machine

/-- ADD: g[rd] := g[rs1] + g[rs2] (R82). -/
def execAdd (c : Nat) (g : Guard) (rd rs1 rs2 : Reg) (s : State) : Res := .next (s.aluR 0x01 c g rd rs1 rs2 (fun a b => a + b))

/-- SUB: g[rd] := g[rs1] − g[rs2] (R82). -/
def execSub (c : Nat) (g : Guard) (rd rs1 rs2 : Reg) (s : State) : Res := .next (s.aluR 0x02 c g rd rs1 rs2 (fun a b => a - b))

/-- AND: bitwise and (R82). -/
def execAnd (c : Nat) (g : Guard) (rd rs1 rs2 : Reg) (s : State) : Res := .next (s.aluR 0x03 c g rd rs1 rs2 (fun a b => a &&& b))

/-- OR: bitwise or (R82). -/
def execOr (c : Nat) (g : Guard) (rd rs1 rs2 : Reg) (s : State) : Res := .next (s.aluR 0x04 c g rd rs1 rs2 (fun a b => a ||| b))

/-- XOR: bitwise xor (R82). -/
def execXor (c : Nat) (g : Guard) (rd rs1 rs2 : Reg) (s : State) : Res := .next (s.aluR 0x05 c g rd rs1 rs2 (fun a b => a ^^^ b))

/-- SLL: logical left shift by g[rs2][5:0] (R82). -/
def execSll (c : Nat) (g : Guard) (rd rs1 rs2 : Reg) (s : State) : Res := .next (s.aluR 0x06 c g rd rs1 rs2 (fun a b => a <<< (b.toNat % 64)))

/-- SRL: logical right shift (R82). -/
def execSrl (c : Nat) (g : Guard) (rd rs1 rs2 : Reg) (s : State) : Res := .next (s.aluR 0x07 c g rd rs1 rs2 (fun a b => a >>> (b.toNat % 64)))

/-- SRA: arithmetic right shift (R82). -/
def execSra (c : Nat) (g : Guard) (rd rs1 rs2 : Reg) (s : State) : Res := .next (s.aluR 0x08 c g rd rs1 rs2 (fun a b => a.sshiftRight (b.toNat % 64)))

/-- MUL: low 64 bits of the product (R82). -/
def execMul (c : Nat) (g : Guard) (rd rs1 rs2 : Reg) (s : State) : Res := .next (s.aluR 0x09 c g rd rs1 rs2 (fun a b => a * b))

/-- MULH: high 64 bits of the signed product (R82). -/
def execMulh (c : Nat) (g : Guard) (rd rs1 rs2 : Reg) (s : State) : Res := .next (s.aluR 0x0A c g rd rs1 rs2 (mulHigh))

/-- MULHU: high 64 bits of the unsigned product (R82). -/
def execMulhu (c : Nat) (g : Guard) (rd rs1 rs2 : Reg) (s : State) : Res := .next (s.aluR 0x0B c g rd rs1 rs2 (mulHighU))

/-- DIV: signed division (R83). -/
def execDiv (c : Nat) (g : Guard) (rd rs1 rs2 : Reg) (s : State) : Res := .next (s.aluR 0x0C c g rd rs1 rs2 (divS))

/-- DIVU: unsigned division (R83). -/
def execDivu (c : Nat) (g : Guard) (rd rs1 rs2 : Reg) (s : State) : Res := .next (s.aluR 0x0D c g rd rs1 rs2 (divU))

/-- REM: signed remainder (R83). -/
def execRem (c : Nat) (g : Guard) (rd rs1 rs2 : Reg) (s : State) : Res := .next (s.aluR 0x0E c g rd rs1 rs2 (remS))

/-- REMU: unsigned remainder (R83). -/
def execRemu (c : Nat) (g : Guard) (rd rs1 rs2 : Reg) (s : State) : Res := .next (s.aluR 0x0F c g rd rs1 rs2 (remU))

/-- MIN: signed minimum (R82). -/
def execMin (c : Nat) (g : Guard) (rd rs1 rs2 : Reg) (s : State) : Res := .next (s.aluR 0x10 c g rd rs1 rs2 (fun a b => if a.slt b then a else b))

/-- MAX: signed maximum (R82). -/
def execMax (c : Nat) (g : Guard) (rd rs1 rs2 : Reg) (s : State) : Res := .next (s.aluR 0x11 c g rd rs1 rs2 (fun a b => if a.slt b then b else a))

/-- MINU: unsigned minimum (R82). -/
def execMinu (c : Nat) (g : Guard) (rd rs1 rs2 : Reg) (s : State) : Res := .next (s.aluR 0x12 c g rd rs1 rs2 (fun a b => if a.ult b then a else b))

/-- MAXU: unsigned maximum (R82). -/
def execMaxu (c : Nat) (g : Guard) (rd rs1 rs2 : Reg) (s : State) : Res := .next (s.aluR 0x13 c g rd rs1 rs2 (fun a b => if a.ult b then b else a))

/-- ADDI with sext(imm10) (R82). -/
def execAddi (c : Nat) (g : Guard) (rd rs1 : Reg) (imm : BitVec 10) (s : State) : Res := .next (s.aluI 0x20 c g rd rs1 imm (fun a => a + sext64 imm))

/-- ANDI with sext(imm10) (R82). -/
def execAndi (c : Nat) (g : Guard) (rd rs1 : Reg) (imm : BitVec 10) (s : State) : Res := .next (s.aluI 0x21 c g rd rs1 imm (fun a => a &&& sext64 imm))

/-- ORI with sext(imm10) (R82). -/
def execOri (c : Nat) (g : Guard) (rd rs1 : Reg) (imm : BitVec 10) (s : State) : Res := .next (s.aluI 0x22 c g rd rs1 imm (fun a => a ||| sext64 imm))

/-- XORI with sext(imm10) (R82). -/
def execXori (c : Nat) (g : Guard) (rd rs1 : Reg) (imm : BitVec 10) (s : State) : Res := .next (s.aluI 0x23 c g rd rs1 imm (fun a => a ^^^ sext64 imm))

/-- SLLI: the amount is imm10[5:0], imm10[9:6] being zero (R82). -/
def execSlli (c : Nat) (g : Guard) (rd rs1 : Reg) (sh : BitVec 6) (s : State) : Res := .next (s.aluI 0x24 c g rd rs1 (sh.setWidth 10) (fun a => a <<< sh.toNat))

/-- SRLI: the amount is imm10[5:0], imm10[9:6] being zero (R82). -/
def execSrli (c : Nat) (g : Guard) (rd rs1 : Reg) (sh : BitVec 6) (s : State) : Res := .next (s.aluI 0x25 c g rd rs1 (sh.setWidth 10) (fun a => a >>> sh.toNat))

/-- SRAI: the amount is imm10[5:0], imm10[9:6] being zero (R82). -/
def execSrai (c : Nat) (g : Guard) (rd rs1 : Reg) (sh : BitVec 6) (s : State) : Res := .next (s.aluI 0x26 c g rd rs1 (sh.setWidth 10) (fun a => a.sshiftRight sh.toNat))

/-- LI: g[rd] := sext(imm15) (R82). -/
def execLi (c : Nat) (g : Guard) (rd : Reg) (imm : BitVec 15) (s : State) : Res :=
  .next (s.instr c g (encU 0x28 g rd imm) (fun k => s.retire c k rd (sext64 imm)))

/-- LSI: g[rd] := (g[rd] << 15) or zext(imm15) (R82). -/
def execLsi (c : Nat) (g : Guard) (rd : Reg) (imm : BitVec 15) (s : State) : Res :=
  .next (s.instr c g (encU 0x29 g rd imm) (fun k => s.retire c k rd ((k.rg rd <<< 15) ||| zext64 imm)))

/-- CMP.EQ (R84). -/
def execCmpEq (c : Nat) (g : Guard) (pd : BitVec 3) (rs1 rs2 : Reg) (s : State) : Res :=
  .next (s.cmp c g (encC 0x30 g pd rs1 rs2) pd (fun k => let a := k.rg rs1; let b := k.rg rs2; a == b))

/-- CMPI.EQ, against sext(imm10) (R84). -/
def execCmpiEq (c : Nat) (g : Guard) (pd : BitVec 3) (rs1 : Reg) (imm : BitVec 10) (s : State) : Res :=
  .next (s.cmp c g (encCI 0x38 g pd rs1 imm) pd (fun k => let a := k.rg rs1; let b := sext64 imm; a == b))

/-- CMP.NE (R84). -/
def execCmpNe (c : Nat) (g : Guard) (pd : BitVec 3) (rs1 rs2 : Reg) (s : State) : Res :=
  .next (s.cmp c g (encC 0x31 g pd rs1 rs2) pd (fun k => let a := k.rg rs1; let b := k.rg rs2; a != b))

/-- CMPI.NE, against sext(imm10) (R84). -/
def execCmpiNe (c : Nat) (g : Guard) (pd : BitVec 3) (rs1 : Reg) (imm : BitVec 10) (s : State) : Res :=
  .next (s.cmp c g (encCI 0x39 g pd rs1 imm) pd (fun k => let a := k.rg rs1; let b := sext64 imm; a != b))

/-- CMP.LT (R84). -/
def execCmpLt (c : Nat) (g : Guard) (pd : BitVec 3) (rs1 rs2 : Reg) (s : State) : Res :=
  .next (s.cmp c g (encC 0x32 g pd rs1 rs2) pd (fun k => let a := k.rg rs1; let b := k.rg rs2; a.slt b))

/-- CMPI.LT, against sext(imm10) (R84). -/
def execCmpiLt (c : Nat) (g : Guard) (pd : BitVec 3) (rs1 : Reg) (imm : BitVec 10) (s : State) : Res :=
  .next (s.cmp c g (encCI 0x3a g pd rs1 imm) pd (fun k => let a := k.rg rs1; let b := sext64 imm; a.slt b))

/-- CMP.GE (R84). -/
def execCmpGe (c : Nat) (g : Guard) (pd : BitVec 3) (rs1 rs2 : Reg) (s : State) : Res :=
  .next (s.cmp c g (encC 0x33 g pd rs1 rs2) pd (fun k => let a := k.rg rs1; let b := k.rg rs2; !a.slt b))

/-- CMPI.GE, against sext(imm10) (R84). -/
def execCmpiGe (c : Nat) (g : Guard) (pd : BitVec 3) (rs1 : Reg) (imm : BitVec 10) (s : State) : Res :=
  .next (s.cmp c g (encCI 0x3b g pd rs1 imm) pd (fun k => let a := k.rg rs1; let b := sext64 imm; !a.slt b))

/-- CMP.LTU (R84). -/
def execCmpLtu (c : Nat) (g : Guard) (pd : BitVec 3) (rs1 rs2 : Reg) (s : State) : Res :=
  .next (s.cmp c g (encC 0x34 g pd rs1 rs2) pd (fun k => let a := k.rg rs1; let b := k.rg rs2; a.ult b))

/-- CMPI.LTU, against sext(imm10) (R84). -/
def execCmpiLtu (c : Nat) (g : Guard) (pd : BitVec 3) (rs1 : Reg) (imm : BitVec 10) (s : State) : Res :=
  .next (s.cmp c g (encCI 0x3c g pd rs1 imm) pd (fun k => let a := k.rg rs1; let b := sext64 imm; a.ult b))

/-- CMP.GEU (R84). -/
def execCmpGeu (c : Nat) (g : Guard) (pd : BitVec 3) (rs1 rs2 : Reg) (s : State) : Res :=
  .next (s.cmp c g (encC 0x35 g pd rs1 rs2) pd (fun k => let a := k.rg rs1; let b := k.rg rs2; !a.ult b))

/-- CMPI.GEU, against sext(imm10) (R84). -/
def execCmpiGeu (c : Nat) (g : Guard) (pd : BitVec 3) (rs1 : Reg) (imm : BitVec 10) (s : State) : Res :=
  .next (s.cmp c g (encCI 0x3d g pd rs1 imm) pd (fun k => let a := k.rg rs1; let b := sext64 imm; !a.ult b))

/-- PAND of optionally negated predicates (R84). -/
def execPand (c : Nat) (g : Guard) (pd pa : BitVec 3) (na : Bool) (pb : BitVec 3) (nb : Bool) (s : State) : Res :=
  .next (s.cmp c g (encP 0x40 g pd pa na pb nb) pd (fun k => let x := (k.rp pa).xor na; let y := (k.rp pb).xor nb; x && y))

/-- POR of optionally negated predicates (R84). -/
def execPor (c : Nat) (g : Guard) (pd pa : BitVec 3) (na : Bool) (pb : BitVec 3) (nb : Bool) (s : State) : Res :=
  .next (s.cmp c g (encP 0x41 g pd pa na pb nb) pd (fun k => let x := (k.rp pa).xor na; let y := (k.rp pb).xor nb; x || y))

/-- PXOR of optionally negated predicates (R84). -/
def execPxor (c : Nat) (g : Guard) (pd pa : BitVec 3) (na : Bool) (pb : BitVec 3) (nb : Bool) (s : State) : Res :=
  .next (s.cmp c g (encP 0x42 g pd pa na pb nb) pd (fun k => let x := (k.rp pa).xor na; let y := (k.rp pb).xor nb; x.xor y))

/-- PGET: p7 to p1 and a 1 in bit 0 (R84). -/
def execPget (c : Nat) (g : Guard) (rd : Reg) (s : State) : Res :=
  .next (s.instr c g (encI 0x44 g rd 0 0) (fun k => s.retire c k rd (zext64 (k.p ||| 1#8))))

/-- PSET: p1 to p7 from bits 1 to 7 (R84). -/
def execPset (c : Nat) (g : Guard) (rs1 : Reg) (s : State) : Res :=
  .next (s.instr c g (encI 0x45 g 0 rs1 0) (fun k => s.setCtl c { k with p := (k.rg rs1).setWidth 8 &&& 0xFE#8 }.adv))

/-- A load of 1 bytes (R85, Table 3.5). -/
def execLdB (c : Nat) (g : Guard) (rd rs1 : Reg) (imm : BitVec 10) (s : State) : Res :=
  .next (s.load 0x48 c g rd rs1 imm 1 (fun x => sext64 (BitVec.ofNat 8 x)))

/-- A load of 1 bytes (R85, Table 3.5). -/
def execLdBu (c : Nat) (g : Guard) (rd rs1 : Reg) (imm : BitVec 10) (s : State) : Res :=
  .next (s.load 0x49 c g rd rs1 imm 1 (fun x => BitVec.ofNat 64 x))

/-- A load of 2 bytes (R85, Table 3.5). -/
def execLdH (c : Nat) (g : Guard) (rd rs1 : Reg) (imm : BitVec 10) (s : State) : Res :=
  .next (s.load 0x4A c g rd rs1 imm 2 (fun x => sext64 (BitVec.ofNat 16 x)))

/-- A load of 2 bytes (R85, Table 3.5). -/
def execLdHu (c : Nat) (g : Guard) (rd rs1 : Reg) (imm : BitVec 10) (s : State) : Res :=
  .next (s.load 0x4B c g rd rs1 imm 2 (fun x => BitVec.ofNat 64 x))

/-- A load of 4 bytes (R85, Table 3.5). -/
def execLdW (c : Nat) (g : Guard) (rd rs1 : Reg) (imm : BitVec 10) (s : State) : Res :=
  .next (s.load 0x4C c g rd rs1 imm 4 (fun x => sext64 (BitVec.ofNat 32 x)))

/-- A load of 4 bytes (R85, Table 3.5). -/
def execLdWu (c : Nat) (g : Guard) (rd rs1 : Reg) (imm : BitVec 10) (s : State) : Res :=
  .next (s.load 0x4D c g rd rs1 imm 4 (fun x => BitVec.ofNat 64 x))

/-- A load of 8 bytes (R85, Table 3.5). -/
def execLdD (c : Nat) (g : Guard) (rd rs1 : Reg) (imm : BitVec 10) (s : State) : Res :=
  .next (s.load 0x4E c g rd rs1 imm 8 (fun x => BitVec.ofNat 64 x))

/-- A store of 1 bytes (R85, R190). -/
def execStB (c : Nat) (g : Guard) (rs2 rs1 : Reg) (imm : BitVec 10) (s : State) : Res :=
  .next (s.store 0x50 c g rs2 rs1 imm 1)

/-- A store of 2 bytes (R85, R190). -/
def execStH (c : Nat) (g : Guard) (rs2 rs1 : Reg) (imm : BitVec 10) (s : State) : Res :=
  .next (s.store 0x51 c g rs2 rs1 imm 2)

/-- A store of 4 bytes (R85, R190). -/
def execStW (c : Nat) (g : Guard) (rs2 rs1 : Reg) (imm : BitVec 10) (s : State) : Res :=
  .next (s.store 0x52 c g rs2 rs1 imm 4)

/-- A store of 8 bytes (R85, R190). -/
def execStD (c : Nat) (g : Guard) (rs2 rs1 : Reg) (imm : BitVec 10) (s : State) : Res :=
  .next (s.store 0x53 c g rs2 rs1 imm 8)

/-- LDR of 4 bytes: checks, then the request leaves and the processor is held (R88, R89). -/
def execLdrW (c : Nat) (g : Guard) (rd rs1 : Reg) (imm : BitVec 10) (s : State) : Res :=
  .next (s.ldrSend 0x54 c g rd rs1 imm 4)

/-- LDR of 8 bytes: checks, then the request leaves and the processor is held (R88, R89). -/
def execLdrD (c : Nat) (g : Guard) (rd rs1 : Reg) (imm : BitVec 10) (s : State) : Res :=
  .next (s.ldrSend 0x55 c g rd rs1 imm 8)

/-- STR of 4 bytes, posted (R88, R89). -/
def execStrW (c : Nat) (g : Guard) (rs2 rs1 : Reg) (imm : BitVec 10) (s : State) : Res :=
  .next (s.strSend 0x56 c g rs2 rs1 imm 4)

/-- STR of 8 bytes, posted (R88, R89). -/
def execStrD (c : Nat) (g : Guard) (rs2 rs1 : Reg) (imm : BitVec 10) (s : State) : Res :=
  .next (s.strSend 0x57 c g rs2 rs1 imm 8)

/-- The answer to an LDR (R89). -/
def execLdrReturn (c : Nat) (ans : Answer) (s : State) : Res := .next (s.ldrReturn c ans)

/-- A refused STR (R89). -/
def execStrRefused (c : Nat) (addr : W64) (status : BitVec 8) (s : State) : Res := .next (s.strRefuse c addr status)

/-- MFS (R91). -/
def execMfs (c : Nat) (g : Guard) (rd : Reg) (sr : BitVec 10) (s : State) : Res :=
  .next (s.srInstr 0x58 c g rd 0 sr (fun k => s.retire c k rd (s.srRead c sr.toNat)))

/-- MTS (R91). -/
def execMts (c : Nat) (g : Guard) (rs1 : Reg) (sr : BitVec 10) (s : State) : Res :=
  .next (s.srInstr 0x59 c g 0 rs1 sr (fun k => (s.srWrite c sr.toNat (k.rg rs1)).modCtl c Ctl.adv))

/-- MSET: RW fields only (R91). -/
def execMset (c : Nat) (g : Guard) (rs1 : Reg) (sr : BitVec 10) (s : State) : Res :=
  .next (s.srInstr 0x5A c g 0 rs1 sr (fun k => s.setCtl c (k.srPut sr.toNat (s.srRead c sr.toNat ||| k.rg rs1)).adv))

/-- MCLR: RW fields only (R91). -/
def execMclr (c : Nat) (g : Guard) (rs1 : Reg) (sr : BitVec 10) (s : State) : Res :=
  .next (s.srInstr 0x5B c g 0 rs1 sr (fun k => s.setCtl c (k.srPut sr.toNat (s.srRead c sr.toNat &&& ~~~(k.rg rs1))).adv))

/-- QCTL retry of one queue (R107). -/
def execQctlRetry (c q : Nat) (s : State) : Res := .next (s.qRetry c q)

/-- QCTL drop of one queue (R107). -/
def execQctlDrop (c q : Nat) (s : State) : Res := .next (s.qDrop c q)

/-- BR (R98). -/
def execBr (c : Nat) (g : Guard) (off : BitVec 20) (s : State) : Res :=
  .next (s.instr c g (encB 0x60 g off) (fun k => s.jump c k k (k.pc + sext64 off * 4)))

/-- CALL: g31 := pc + 4 (R98). -/
def execCall (c : Nat) (g : Guard) (off : BitVec 20) (s : State) : Res :=
  .next (s.instr c g (encB 0x61 g off) (fun k => s.jump c k (k.wg 31 (k.pc + 4)) (k.pc + sext64 off * 4)))

/-- JR (R98). -/
def execJr (c : Nat) (g : Guard) (rs1 : Reg) (imm : BitVec 10) (s : State) : Res :=
  .next (s.instr c g (encI 0x62 g 0 rs1 imm) (fun k => s.jump c k k (k.rg rs1 + sext64 imm * 4)))

/-- JALR (R98). -/
def execJalr (c : Nat) (g : Guard) (rd rs1 : Reg) (imm : BitVec 10) (s : State) : Res :=
  .next (s.instr c g (encI 0x63 g rd rs1 imm) (fun k => s.jump c k (k.wg rd (k.pc + 4)) (k.rg rs1 + sext64 imm * 4)))

/-- DBNZ (R98); rd = g0 is reserved. -/
def execDbnz (c : Nat) (g : Guard) (rd : Reg) (imm : BitVec 15) (s : State) : Res :=
  .next (s.instrIf c g (encU 0x64 g rd imm) (rd != 0) (fun k =>
    let x := k.rg rd - 1
    if x = 0 then s.retire c k rd x else s.jump c k (k.wg rd x) (k.pc + sext64 imm * 4)))

/-- ERET: illegal while STATUS.exc = 0 (R94). (DEDUCED, log entry 19) -/
def execEret (c : Nat) (g : Guard) (s : State) : Res :=
  .next (s.instr c g (encB 0x68 g 0) (fun k =>
    if k.exc then s.setCtl c k.eret else s.illegal c (encB 0x68 g 0)))

/-- END: a compute core enters ENDED; illegal on a vatman or the management core (R110, Table 3.12). -/
def execEndProg (c : Nat) (g : Guard) (s : State) : Res :=
  .next (s.instr c g (encB 0x69 g 0) (fun k =>
    if k.mode = 2 || k.mode = 3 then s.illegal c (encB 0x69 g 0)
    else s.setCtl c { k with run := .ended }.adv))

/-- HALT: reason 1 (R111); the boundary lies after the instruction. -/
def execHalt (c : Nat) (g : Guard) (s : State) : Res :=
  .next (s.instr c g (encB 0x6A g 0) (fun k => (s.setCtl c k.adv).haltCore c 1))

/-- NOP (R98). -/
def execNop (c : Nat) (g : Guard) (s : State) : Res :=
  .next (s.instr c g (encB 0x6B g 0) (fun k => s.setCtl c k.adv))

/-- MFENCE ends: REMOTE with EVAL := RSERR while rserr is set, else it retires (R89). -/
def State.mfenceEnd (s : State) (c : Nat) : State :=
  let k := { s.ctl c with waiting := none, strOut := 0, strAsync := 0 }
  if k.rserrSet then (s.setCtl c k).takeException c cRemote (fld k.rserr.toNat 48 8) k.pc k.rserr
  else s.setCtl c k.adv

/-- MFENCE: waits while an earlier STR is unacknowledged (R89); one whose target lies across a crossing counts LDR_ASYNC (R90). -/
def execMfence (c : Nat) (g : Guard) (s : State) : Res :=
  .next (s.instr c g (encB 0x6C g 0) (fun k =>
    if k.strOut = 0 then s.mfenceEnd c
    else
      let s1 := s.setCtl c { k with waiting := some .mfence }
      if k.strAsync != 0 && (k.mode = 0 || k.mode = 1) then s1.detBreakCore c 5 else s1))

/-- The last outstanding acknowledgement arrives (R89): a waiting MFENCE ends; without one, SADD and SSUB may go on (R109). (DEDUCED, log entry 18) -/
def execMfenceComplete (c : Nat) (s : State) : Res :=
  .next (if (s.ctl c).waiting = some .mfence then (s.mfenceEnd c).stepOver c
    else if (s.ctl c).strOut = 0 then s else s.setCtl c { s.ctl c with strOut := 0, strAsync := 0 })

/-- TRAP: EPC is the following instruction, EVAL the code (Table 3.12). -/
def execTrap (c : Nat) (g : Guard) (code : BitVec 20) (s : State) : Res :=
  .next (s.instr c g (encB 0x6D g code) (fun k => s.takeException c cTrap eOk (k.pc + 4) (zext64 code)))

/-- BRK: reason 2 (R111). -/
def execBrk (c : Nat) (g : Guard) (s : State) : Res :=
  .next (s.instr c g (encB 0x6E g 0) (fun k => (s.setCtl c k.adv).haltCore c 2))

/-- The interrupt target of a control processor: 0 the management core, 1 + v a vatman (R542). -/
def State.tgtOf (s : State) (c : Nat) : Option Nat :=
  if c = mgmtCore then some 0 else (s.vatmanVat c).map (· + 1)

/-- Is the request line of a control processor asserted (R95, R547)? -/
def State.lineOf (s : State) (c : Nat) : Bool :=
  match s.tgtOf c with
  | some t => s.irqLine t
  | none => false

/-- WFI: PRIVILEGE in mode 0 or 1; else held until the line is asserted (R95). -/
def execWfi (c : Nat) (g : Guard) (s : State) : Res :=
  .next (s.instr c g (encB 0x6F g 0) (fun k =>
    if k.mode = 0 || k.mode = 1 then s.takeException c cPrivilege ePermission k.pc 0
    else if s.lineOf c then s.setCtl c k.adv
    else s.setCtl c { k with waiting := some .wfi }))

/-- The line is asserted and a waiting WFI retires (R95). -/
def execWfiWake (c : Nat) (s : State) : Res :=
  .next (if (s.ctl c).waiting = some .wfi && s.lineOf c then (s.modCtl c (fun k => { k with waiting := none }.adv)).stepOver c else s)

/-- An event of R96 at an instruction boundary, a forced stop before any other: a waiting instruction is abandoned, its watch removed (R97). -/
def execInterruptTaken (c : Nat) (ev : Boundary) (s : State) : Res :=
  let k := s.ctl c
  .next (if k.run != .running || k.ldr.isSome then s
    else
      let s1 := (s.setCtl c { k with waiting := none }).dropCpuWatch c
      match ev with
      | .forcedStop => if s.mustStop c then s1.haltCore c 4 else s
      | .debugHalt => s.debugHalt c
      | .interrupt =>
        if s.mustStop c then s1.haltCore c 4
        else if k.ie && s.lineOf c then s1.takeException c cInterrupt eOk k.pc 0 else s)

end Sys2Proof.Machine
end

