-- ==== Sys2Proof/Machine/HostPort.lean ====
section
/-! DEFINITION. The commands of the host port: doorbells, entries, records, the memory window, copies and the link (Chapter 17). -/

namespace Sys2Proof.Machine

/-- SQ_TAIL (R524): pending entries may be fetched. -/
def execSqTail (fn r len x : Nat) (s : State) : Res :=
  .next (if !s.hostOpen then s.hostAsk
    else if !(s.ownsRing fn r) then s
    else if !((s.ring r).dbOk len x) then s.dbRefuse fn eRange
    else (s.modRing r (fun y => { y with sqTail := x })).ringFetch r)

/-- CQ_HEAD (R524): the records before it are freed. -/
def execCqHead (fn r len x : Nat) (s : State) : Res :=
  .next (if !s.hostOpen then s.hostAsk
    else if !(s.ownsRing fn r) then s
    else if !((s.ring r).dbOk len x) then s.dbRefuse fn eRange
    else s.modRing r (fun y => { y with cqHead := x, cqUsed := y.cqUsed - (x + 2 ^ y.sizeLog2 - y.cqHead) % 2 ^ y.sizeLog2 }))

/-- The SHEET doorbell (R524, R534): a start with arm = 0, applied at once. (DEDUCED, log entry 74) -/
def execSheet (fn r len x : Nat) (s : State) : Res :=
  .next (if !s.hostOpen then s.hostAsk
    else if !(s.ownsRing fn r) then s
    else if !((s.ring r).dbOk len x) || r = 16 then s.dbRefuse fn eRange
    else if 64 ≤ (s.ring r).outstanding then s.dbRefuse fn eState
    else if !(s.vatAwake r) then s.wakeVat r
    else
      let y := s.ring r
      let k : HostCmd := { uid := y.nextUid, index := 0xFFFF, op := 0x10, vat := r, tag := x, applied := true }
      let s1 := s.setRing r { y with cmds := y.cmds ++ [k], nextUid := y.nextUid + 1 }
      if !(s.planOf r).valid || !(s.vat r).startable || s.brokenHold r then s1.hostRefuse r k.uid eState
      else (s1.armWrite r false).acceptStart r (some (r, k.uid)))

/-- Fetched entries arrive (R526), or their read fails and fetching halts (R527). -/
def execEntryFetch (r : Nat) (ans : ReadAns) (s : State) : Res :=
  let x := s.ring r
  let halt := fun (st : Nat) => (s.setRing r { x with fetchAt := none, halted := true }).log (srcHost (s.ringFn r)) evRefused st none 0 r
  .next (if x.fetchAt.isNone then s
    else match ans with
      | .refused st => halt st
      | .ok data bad =>
        if !bad.isEmpty then halt ePoison
        else
          let n := min (data.length / 64) (min x.waiting (64 - x.outstanding))
          let s1 := (List.range n).foldl (fun s i => s.takeEntry r (leNat ((data.drop (64 * i)).take 64))) (s.setRing r { x with fetchAt := none })
          s1.ringFetch r)

/-- The oldest finished command's record is written when the completion ring has room; it is then COMPLETE (R529). (DEDUCED, log entry 75) -/
def execCompletionRecordWrite (r : Nat) (s : State) : Res :=
  let x := s.ring r
  .next (match x.done with
    | [] => s
    | d :: rest =>
      if 2 ^ x.sizeLog2 ≤ x.cqUsed then s
      else
        let last := x.cqTail + 1 == 2 ^ x.sizeLog2
        let y : Ring := { x with done := rest, cqUsed := x.cqUsed + 1, cqTail := if last then 0 else x.cqTail + 1, phase := if last then !x.phase else x.phase }
        let s1 := (s.setRing r y.settle).send (.record r (x.cqBase + 32 * x.cqTail) (recordBytes d x.phase))
        (if d.cmd.irq then s1.send (.msix (s.ringFn r) x.vec) else s1).ringFetch r)

/-- en := 0 (R530). -/
def execRingDisable (fn r : Nat) (s : State) : Res := .next (if s.ownsRing fn r then s.ringStop false r else s)

/-- A Function Level Reset (R530): the function's rings and segments; a VF's vat and its work go on. -/
def execFunctionLevelReset (fn : Nat) (s : State) : Res :=
  let s1 := ((List.range 17).filter (s.ownsRing fn)).foldl (fun s r => s.ringStop true r) s
  .next { s1 with host := { s1.host with fns := s1.host.fns.del fn } }

/-- A memory-window read (R520, R521): the data as stored, with EP when any word is poisoned. -/
def execMemoryWindowRead (fn off len : Nat) (s : State) : Res :=
  let a := s.winAddr fn off
  let st := s.winCheck fn a len false
  .next (if !s.hostOpen then s.hostAsk
    else if st = eOk && !(s.spadAwake a) then s.wakeSpad a
    else if fn != 0 && (s.fnVat fn).isNone then s.send (.hostCpl fn true false (List.replicate len 0))
    else if st != eOk then (s.winRefuse fn st a).send (.hostCpl fn false false [])
    else match s.winTarget a len with
      | some (_, some c) =>
        let o := fld a 0 19
        (s.noteRead c o len).send (.hostCpl fn true ((s.spad c).bad o len) ((s.spad c).mem.readBytes o len))
      | _ =>
        let s1 := (s.noteStack (s.fnVat fn) a len).send (.hostCpl fn true (s.stackBad a len) (s.stackRead a len))
        match s.fnVat fn with | some v => s1.accountStk v 0 (chargeOf a len) | none => s1)

/-- Poison received with EP: counted, logged and kept as an origin of the target's vat (R521, R556). -/
def State.epReceived (s : State) (fn a : Nat) (v : Option Nat) : State :=
  let s1 := (({ s with host := { s.host with poisonedRx := satAdd top16 s.host.poisonedRx 1 } } : State)).log (srcHost fn) evPoisonIn ePoison v a 0
  match v with | some v => s1.poisonOrigin v (srcHost fn) a | none => s1

/-- A memory-window write (R520, R521): written whole or discarded; EP data is stored poisoned. -/
def execMemoryWindowWrite (fn off : Nat) (data : List Byte) (ep : Bool) (s : State) : Res :=
  let a := s.winAddr fn off
  let st := s.winCheck fn a data.length true
  .next (if !s.hostOpen then s.hostAsk
    else if st = eOk && !(s.spadAwake a) then s.wakeSpad a
    else if fn != 0 && (s.fnVat fn).isNone then s
    else if st != eOk then s.winRefuse fn st a
    else match s.winTarget a data.length with
      | some (t, core) =>
        let s1 := if ep then s.epReceived fn a t else s
        match core with
        | some c => s1.spadPut c (fld a 0 19) data (fun _ => ep)
        | none =>
          let s2 := s1.stackPut a data (fun _ => ep)
          match s.fnVat fn with | some v => s2.accountStk v 1 (chargeOf a data.length) | none => s2
      | none => s)

/-- A host increment reaches a counter; a 17th held one is refused (R317). (DEDUCED, log entry 77) -/
def State.hostAdd (s : State) (v : Nat) (k : Caller) (a n : Nat) : State :=
  let r := s.addOutside a n
  if r.2 then r.1.hostFinish k.host eOk 0 0 else r.1.refuseCmd v k eState

/-- SADD of the host (R342, Table 17.7): held to its tick while the counter's vat runs in deterministic mode. (DEDUCED, log entry 77) -/
def execHostSadd (r v : Nat) (s : State) : Res :=
  .next (s.command (.host r) 0x08 v (fun s k =>
    let x := s.vat v
    let a := fld k.entry 64 15
    let n := fld k.entry 96 32
    let t := fld k.entry 128 64
    let right := if a < 0x4000 then s.owns v (a / 256) else s.globalFor (some v) a
    if !x.jobValid || x.st == .wiping || x.st == .faulted then s.refuseCmd v k eState
    else if !right then s.refuseCmd v k ePermission
    else
      let tv := (s.vatOfCtr a).getD v
      let y := s.vat tv
      if y.st == .running && y.det.detOn then
        if t != 0 && s.clk.gtc.toNat < t then
          (({ s with net := { s.net with heldTicks := s.net.heldTicks ++ [{ stamp := BitVec.ofNat 64 t, ctr := a, amount := n }] } } : State)).hostFinish k.host eOk 0 0
        else
          let s1 := if t = 0 || s.pastStamp tv (BitVec.ofNat 64 t) then s.detBreak tv 0x0B else s
          (if t != 0 && y.det.stretched then s1.detBreak tv 0x0D else s1).hostAdd v k a n
      else s.hostAdd v k a n))

/-- COPY (R536): host reads leave, or the device data is read at the end. -/
def execCopy (r v : Nat) (s : State) : Res :=
  let cmd := (s.ring r).nextCmd
  let dev := match cmd with | some k => fld k.entry 192 48 | none => 0
  .next (if (match cmd with | some k => k.op == 0x0C && k.vat == v | none => false) && s.fastOn && !(s.spadAwake dev) then s.wakeSpad dev
    else s.command (.host r) 0x0C v (fun s k =>
    let e := k.entry
    let a := fld e 192 48
    let n := fld e 256 32
    let out := bit e 64
    match s.copyRange v a n with
    | none => s.refuseCmd v k ePermission
    | some core =>
      if !(s.copyState v core.isSome out a n) then s.refuseCmd v k eState
      else
        let j : CopyJob := { host := k.host.getD (0, 0), vat := v, out := out, hostAddr := fld e 128 64, dev := a, bytes := n, spad := core, since := s.clk.gtc }
        let s1 : State := { s with host := { s.host with copies := s.host.copies ++ [j] } }
        let s2 := if core.isSome then s1.modVat v (fun x => { x with spadCopies := x.spadCopies + 1 }) else s1
        if out then s2 else s2.send (.hostRead j.hostAddr n)))

/-- Host data of a COPY arrives (R537): EP data is stored poisoned; a failed read ends the COPY with E_PERMISSION. -/
def execHostReadCompletion (r uid off : Nat) (ans : ReadAns) (s : State) : Res :=
  .next (match s.copyOf r uid with
    | none => s
    | some k =>
      if k.out then s
      else match ans with
        | .refused _ => s.copyEnd k ePermission k.moved
        | .ok data bad =>
          let n := data.length
          if k.bytes < off + n || k.got.any (fun g => meets off n g.1 g.2) then s
          else
            let ep := !bad.isEmpty
            let s1 := if ep then s.epReceived (s.ringFn r) (k.dev + off) (some k.vat) else s
            (s1.copyPut k off data (fun _ => ep)).putCopy { k with moved := k.moved + n, got := k.got ++ [(off, n)], since := s.clk.gtc })

/-- A COPY is done (R536): every write acknowledged, or its last write has left. Poison on its way to the host is a commit point: no
poisoned word leaves, and the data before it stands (R537, R554). -/
def execCopyComplete (r uid : Nat) (s : State) : Res :=
  .next (match s.copyOf r uid with
    | none => s
    | some k =>
      if !k.out then (if k.moved = k.bytes then s.copyEnd k eOk k.moved else s)
      else
        let s1 := match k.spad with
          | some c => s.noteRead c (fld k.dev 0 19) k.bytes
          | none => (s.noteStack (some k.vat) k.dev k.bytes).accountStk k.vat 0 (chargeOf k.dev k.bytes)
        match s.copyBad k with
        | none => (s1.send (.hostWrite k.hostAddr (s.copyGet k k.bytes))).copyEnd k eOk k.bytes
        | some off =>
          let off4 := off / 4 * 4
          let s2 := if off4 = 0 then s1 else s1.send (.hostWrite k.hostAddr (s.copyGet k off4))
          ((s2.containPoint k.vat 1 (srcHub 9) (k.hostAddr + off4) (k.dev + off4)).copyEnd k ePoison off4).abortSheet k.vat)

/-- A host read meets no completion within cto_us (R537, R527). -/
def execDmaCompletionTimeout (r : Nat) (copy : Option Nat) (s : State) : Res :=
  let due := fun (t : W64) => decide (t.toNat + s.host.ctoUs * 1000 ≤ s.clk.gtc.toNat)
  let s1 : State := { s with host := { s.host with cplTimeout := satAdd top16 s.host.cplTimeout 1 } }
  .next (match copy with
    | some uid =>
      match s.copyOf r uid with
      | some k => if !k.out && k.moved < k.bytes && due k.since then s1.copyEnd k eTimeout k.moved else s
      | none => s
    | none =>
      match (s.ring r).fetchAt with
      | some t =>
        if due t then (s1.modRing r (fun x => { x with fetchAt := none, halted := true })).log (srcHost (s.ringFn r)) evRefused eTimeout none 0 r else s
      | none => s)

/-- NOP (Table 17.7). (DEDUCED, log entry 75) -/
def execHostNop (r : Nat) (s : State) : Res :=
  .next (match (s.ring r).nextCmd with
    | some k => if k.op != 0x0F then s else (s.setRing r ((s.ring r).apply k.uid)).hostFinish (some (r, k.uid)) eOk 0 0
    | none => s)

/-- The link trains at a rate and width of Table 17.2: 5 is 32 GT/s, 6 is 64 GT/s in FLIT mode; width 8 or 0xF (R516, Table 17.18). -/
def execHostLinkUp (rate width : Nat) (s : State) : Res :=
  .next (if s.host.up || s.boot.extest || !(rate == 5 || rate == 6) || !(width == 8 || width == 15) then s
    else ({ s with host := { s.host with up := true, flit := rate == 6, rate := rate, width := width } } : State).fire 650)

/-- The link goes down (R584): HOST_LINK.up falls and the host port resets. -/
def execHostLinkDown (s : State) : Res :=
  .next (if !s.host.up then s
    else ((({ s with host := { s.host with up := false, flit := false, rate := 0, width := 0 } } : State)).fire 650).hostReset)

/-- A Hot Reset resets the host port as R530 gives (R584). -/
def execHotReset (s : State) : Res := .next s.hostReset

end Sys2Proof.Machine
end

