-- ==== Sys2Proof/Machine/Matrix.lean ====
section
/-! DEFINITION. The matrix engine's commands (Chapter 4). -/

namespace Sys2Proof.Machine

/-- Accept a MATMUL (R122, R139): the presented entry leaves its queue place, its descriptors are read once, the checks of Table 4.8 are
made, and the walk runs as far as its ring tests allow. -/
def State.matAccept (s : State) (c mop : Nat) : State :=
  match (s.queue c 0).head with
  | none => s
  | some e =>
    if mMop e != mop || !(s.enginesOn c) || (s.mat c).entry.isSome then s
    else if !(s.sigRight c e) then s.haltQueue c 0 ePermission e
    else
      let m := e.toNat
      let sp := s.spad c
      let desc := fun i => sp.nat (descAt (mmTd m i)) 64
      let descs : Table Nat := [(0, desc 0), (1, desc 1), (2, desc 2), (3, desc 3), (4, desc 4)]
      let q : MM := { m := m, a := desc 0, b := desc 1, c := desc 2, meta_ := desc 3, acc := desc 4 }
      let st := s.matCheck c q
      let s1 := (s.popQ c 0).noteBytes c ((List.range 5).flatMap (fun i =>
        if i < 3 || (i == 3 && mmSparse m) || (i == 4 && mmAccIn m) then (List.range 64).map (descAt (mmTd m i) + ·) else []))
      if st != eOk then (s1.modMat c (fun x => { x with mop := mop, stepsDone := 0 })).reject c 0 st e
      else
        (s1.modMat c (fun x =>
          { x with entry := some e, mop := mop, descs := descs, padded := [(0, q.padded sp 0), (1, q.padded sp 1), (2, q.padded sp 2)],
                   valid := [(0, q.validSize sp 0), (1, q.validSize sp 1), (2, q.validSize sp 2)],
                   pos := 0, stepsDone := 0, out := none, acc := [], doneCnt := [], parked := [], slice := [], slots := [], toFree := [],
                   ringWait := false, badAcc := false })).matRun c

/-- MATMUL: a dense product (R139). -/
def execMatmul (c : Nat) (s : State) : Res := .next (s.matAccept c 1)

/-- MATMUL.SP: the stationary operand is in 2:4 sparse form (R137, R138). -/
def execMatmulSp (c : Nat) (s : State) : Res := .next (s.matAccept c 2)

/-- A failing ring test is made again; when it passes, the next slice's steps proceed (R133). -/
def execMatRingTestPass (c : Nat) (s : State) : Res :=
  let x := s.mat c
  .next (if x.ringWait && s.enginesOn c && x.entry.isSome then
      let s1 := s.matRun c
      if (s1.mat c).pos == x.pos && (s1.mat c).ringWait then s1
      else s1.modMat c (fun y => { y with ringCycles := satAdd top32 y.ringCycles (s.clk.fast.toNat - x.waitSince) })
    else s)

/-- A td_acc record that breaks R127 halts the queue with E_FORMAT; drained tiles and ring counters stay as they are (R140). -/
def execAccInFormatHalt (c : Nat) (s : State) : Res :=
  let x := s.mat c
  .next (match x.entry with
    | some e => if x.badAcc && s.enginesOn c then (s.modMat c (fun y => { y with entry := none, badAcc := false })).reject c 0 eFormat e else s
    | none => s)

/-- The last write is visible: the last slices of the input rings are freed and the signal is applied (R133, R143). -/
def execMatmulComplete (c : Nat) (s : State) : Res :=
  let x := s.mat c
  .next (match x.entry with
    | some e =>
      if x.badAcc || x.ringWait || x.pos < x.steps.length || !(s.enginesOn c) then s
      else
        let s1 := [0, 1].foldl (fun s op =>
          if (x.inSlice op).isSome && dNbuf (x.mm.opDesc op) != 0 then s.addFrom c (dFree (x.mm.opDesc op)) 1 else s)
          (s.modMat c (fun y => { y with entry := none }))
        s1.sigDone c 0 e
    | none => s)

end Sys2Proof.Machine
end

