-- ==== Sys2Proof/Machine/Mould.lean ====
section
/-! DEFINITION. The commands of a mould load: LOAD to FINISH, ABORT and RELEASE (R306-R311, R315). -/

namespace Sys2Proof.Machine

/-- May a load or scan-in of this vat begin or a sheet start, apart from the vat's state: no reclaim HELD or later (R509), no
scratchpad COPY (R534)? -/
def Vat.quiet (x : Vat) : Bool := !x.heldOrLater && x.spadCopies == 0

/-- The job of a load command enters HEADER with the deckle raised (R306, R315, R328). (DESIGN CHOICE, log entry 63) -/
def State.loadBegin (s : State) (v : Nat) (k : Caller) (scanIn : Bool) (src : Nat) : State :=
  s.modVat v (fun x => { x with st := .loading, ld := .header, loadErr := {}, progAttempts := 0, progDone := 0, ctlStatus := eOk,
                                job_ := some { scanIn := scanIn, src := src, from_ := x.st, host := k.host } })

/-- LOAD (R306, Table 9.3): the deckle rises over the load region, as the image's load_mask names it (R315); records 0-2 outside the
vat's regions reject it at once (Table 9.9), the deckle then standing over the whole vat (DESIGN CHOICE). (DESIGN CHOICE, log entry 63; DEDUCED, log entry 65) -/
def execLoad (v : Nat) (src : Src) (s : State) : Res :=
  .next (s.command src 0x01 v (fun s k =>
    let x := s.vat v
    if !((x.st == .free && x.jobValid && !x.relWipe) || x.st == .ready) || !x.quiet then s.refuseCmd v k eState
    else
      let a := match k.host with | some _ => 4096 * fld k.entry 76 36 | none => x.loadSrc
      let s1 := (s.modVat v (fun y => { y with loadSrc := a })).loadBegin v k false a
      let inside := s.stackWithin v a 768
      let mask := if inside then s.stackNat (a + 8) 8 else 2 ^ 64 - 1
      let s2 := s1.raiseDeckle v ((s1.clustersOf v).filter (fun cl => bit mask cl))
      if inside then s2 else s2.loadEnd v ePermission 0xFFFFFFFF x.st))

/-- A record of a load arrives (R309): a bad CRC is fetched again; a good header is checked; a frame of CHECK is kept; a frame of
WRITE is checked again and written in index order within its cluster. -/
def execLoadFrameFetch (v i : Nat) (rec : List Byte) (bad : List Nat) (s : State) : Res :=
  let x := s.vat v
  .next (match x.job_ with
    | none => s
    | some j =>
      if j.scanIn || x.st != .loading || rec.length != 256 then s
      else if x.ld == .header && i < 3 then
        let j1 := { j with recs := j.recs.put i rec }
        let s1 := s.setVat v { x with job_ := some j1 }
        if !(j1.recs.length == 3) then s1
        else if !(headerCrcOk (j1.rec_ 0) (j1.rec_ 1) (j1.rec_ 2)) then
          s.setVat v { x with job_ := some { j with recs := [] }, progAttempts := satAdd top32 x.progAttempts 1 }
        else
          let st := s.headerCheck v j1
          if st != eOk then s1.loadEnd v st 0xFFFFFFFF j.from_
          else (s1.modVat v (fun y => { y with ld := .check, job_ := some { j1 with headerOk := true } })).raiseDeckle v j1.region
      else if 3 ≤ i && i < 3 + mhFrames j.hdr && (x.ld == .check || x.ld == .write) then
        if !(frameCrcOk rec) then s.setVat v { x with progAttempts := satAdd top32 x.progAttempts 1 }
        else if x.ld == .check then s.setVat v { x with job_ := some { j with recs := j.recs.put i rec } }
        else
          match j.region.find? (fun cl => (j.dir cl).1 ≤ i - 3 && i - 3 < (j.dir cl).1 + (j.dir cl).2) with
          | none => s
          | some cl =>
            if j.next.get 0 cl != i - 3 - (j.dir cl).1 then s
            else
              let st := s.frameCheck v j (i - 3) rec
              if st != eOk then s.loadEnd v st (i - 3) .faulted
              else (s.putFrame v rec bad).modVat v (fun y =>
                { y with progDone := satAdd top32 y.progDone 1,
                         job_ := some { j with recs := j.recs.put i rec, next := j.next.put cl (i - 2 - (j.dir cl).1) } })
      else s)

/-- Every frame has arrived in CHECK: the lowest failing frame, or a check across frames, rejects the load (R308); else WRITE begins
with its clearing (R310). -/
def execLoadCheckComplete (v : Nat) (s : State) : Res :=
  let x := s.vat v
  .next (match x.job_ with
    | none => s
    | some j =>
      if j.scanIn || x.ld != .check || !((List.range (mhFrames j.hdr)).all (fun i => (j.rec_ (3 + i)).length == 256)) then s
      else
        match (List.range (mhFrames j.hdr)).find? (fun i => s.frameCheck v j i (j.rec_ (3 + i)) != eOk) with
        | some i => s.loadEnd v (s.frameCheck v j i (j.rec_ (3 + i))) i j.from_
        | none =>
          let st := s.crossCheck v j
          if st != eOk then s.loadEnd v st 0xFFFFFFFF j.from_
          else (s.clearRegion v j).modVat v (fun y => { y with ld := .write }))

/-- Every frame is written and every tree built: FINISH (R310, R311). -/
def execLoadWriteComplete (v : Nat) (s : State) : Res :=
  let x := s.vat v
  .next (match x.job_ with
    | none => s
    | some j =>
      if j.scanIn || x.ld != .write || !(j.region.all (fun cl => j.next.get 0 cl == (j.dir cl).2)) then s
      else s.setVat v { x with ld := .finish })

/-- FINISH ends (R311): counters, the deckle, the settings, READY. -/
def execLoadFinish (v : Nat) (s : State) : Res :=
  let x := s.vat v
  .next (match x.job_ with
    | none => s
    | some j =>
      if j.scanIn || x.ld != .finish then s
      else
        let s1 := (s.putCounters j.frames).lowerDeckle v
        let s2 := (s1.coresIn v j.region).foldl (fun s c => s.modCtl c (fun k => { k with run := .idle, started := false, waiting := none, haltReason := 0 })) s1
        let s3 := s2.modVat v (fun y => { y with srSheet := 0, firstSheet := true, mouldId := BitVec.ofNat 64 (mhId j.hdr),
                                                 startOff := (List.range 8).map (fun r => (r, mhStart j.hdr r)) })
        (s3.account v 20 1).loadEnd v eOk 0 .ready)

/-- ABORT (R309): before the first write the vat returns to the state it came from; in the write pass it is FAULTED. -/
def execAbort (v : Nat) (src : Src) (s : State) : Res :=
  .next (s.command src 0x02 v (fun s k =>
    let x := s.vat v
    match x.job_ with
    | none => s.refuseCmd v k eState
    | some j =>
      if x.st != .loading then s.refuseCmd v k eState
      else
        let st := if x.ld == .header || x.ld == .check then j.from_ else .faulted
        (s.loadEnd v eAborted 0xFFFFFFFF st).hostFinish k.host eOk 0 0))

/-- RELEASE (R315): lowers a deckle left raised. -/
def execRelease (v : Nat) (src : Src) (s : State) : Res :=
  .next (s.command src 0x03 v (fun s k =>
    let x := s.vat v
    if x.st == .ready || x.st == .free then (s.lowerDeckle v).okCmd v k else s.refuseCmd v k eState))

end Sys2Proof.Machine
end

