-- ==== Sys2Proof/Machine/Net.lean ====
section
/-! DEFINITION. The mesh, the control network, fence notices and the scratchpad window (Chapter 7, R30). -/

namespace Sys2Proof.Machine

/-! ## Mesh packets (Tables 7.2, 7.3) -/

/-- A mesh header's fields (Table 7.2). -/
def mhDst (h : Nat) : Nat := routerAt (fld h 0 6) (fld h 6 6)
def mhSel (h : Nat) : Nat := fld h 12 2
def mhSrc (h : Nat) : Nat := routerAt (fld h 16 6) (fld h 22 6)
def mhKind (h : Nat) : Nat := fld h 32 4
def mhVat (h : Nat) : Nat := fld h 36 4
def mhFlits (h : Nat) : Nat := fld h 30 1 + 1
def mhLen (h : Nat) : Nat := fld h 46 9

/-- Is a stack controller the destination: the west or east edge (Table 7.1)? -/
def mhStack (h : Nat) : Bool := mhSel h == 1 && fld h 14 2 ≤ 1

/-- The virtual channel of Table 7.3. -/
def meshVc (h : Nat) : Nat :=
  let k := mhKind h
  if k = 3 || k = 4 || k = 5 then 0 else if k = 6 then 1 else if k = 7 || mhStack h then 3 else 2

/-- The header faults of R232; a kind other than CHMSG may not be multicast (R228). (DEDUCED, log entry 41) -/
def meshHdrOk (h : Nat) : Bool :=
  mhSel h != 3 && 1 ≤ mhKind h && mhKind h ≤ 7 && fld h 28 2 == meshVc h && mhLen h ≤ 128 * mhFlits h && !bit h 63 && fld h 124 4 == 0
  && (mhSel h != 2 || mhKind h == 6)

/-- Is a packet one that a REFUSE answers: READ, WRITE, SECMD, CHMSG (R232, R245)? -/
def meshAsks (h : Nat) : Bool := let k := mhKind h; k == 1 || k == 2 || k == 6 || k == 7

/-- The edge of an edge router: requests come from the north and south fabrics (Table 7.1). (DEDUCED, log entry 41) -/
def edgeOf (x y : Nat) : Nat := if y = 0 then 2 else if y = 63 then 3 else if x = 0 then 0 else 1

/-- The header of the REFUSE that router `r` returns to a packet's source (R228, R232, R245). -/
def refuseHdr (r h status : Nat) : Nat :=
  fld h 16 6 + fld h 22 6 * 2 ^ 6 + (if bit h 31 then 2 ^ 12 + edgeOf (fld h 16 6) (fld h 22 6) * 2 ^ 14 else 0) + routerX r * 2 ^ 16 + routerY r * 2 ^ 22
    + 5 * 2 ^ 32 + mhVat h * 2 ^ 36 + status * 2 ^ 55 + fld h 112 12 * 2 ^ 112

/-- A REFUSE starts from router `r` (R228, R232, R245). -/
def State.meshRefuse (s : State) (r h status : Nat) : State :=
  let g := refuseHdr r h status
  let d := mhSrc h
  let p := portToward r d
  s.send (.mesh r (if p = pEast then 1 else if p = pWest then 2 else if p = pNorth then 3 else if p = pSouth then 4 else if bit h 31 then 5 else 0) g [] [])

/-- Is the core of a position out of service for its router: disabled, or its fence notice has come (R245, R247)? -/
def State.portShut (s : State) (c : Nat) : Bool := c % 64 == s.disabledPos (clusterOf c) || s.net.fenceSeen.has c

/-- An output was granted to a packet of vat `v` while packets of the vats of `behind` were eligible for it: one entry for each such cycle and vat.
Each counts FOREIGN_CONTEND for a vat RUNNING in deterministic mode (R344). (DESIGN CHOICE, log entry 146) -/
def State.foreign (s : State) (v : Nat) (behind : List Nat) : State :=
  behind.foldl (fun s w => if w != v && w < 16 && (s.vat w).st == .running && (s.vat w).det.detOn then s.detBreak w 0x12 else s) s

/-- A packet leaves router `r` by a link or a port; each hop charges its flits to the vat it carries (Table 16.3). -/
def State.meshLeave (s : State) (r port h : Nat) (data : List Byte) (bad : NSet) (behind : List Nat) : State :=
  let s0 := s.foreign (mhVat h) behind
  let s1 := if 1 ≤ port && port ≤ 4 then s0.account (mhVat h) 11 (mhFlits h) else s0
  s1.send (.mesh r port h data bad)

/-- A packet meets a local port that is out of service (R245). -/
def State.meshShut (s : State) (r h : Nat) : State :=
  let s1 := s.modDrops (clusterOf r) (fun x => { x with meshFenced := satAdd top16 x.meshFenced 1 })
  if meshAsks h then s1.meshRefuse r h eFenced else s1

/-- A header fault: dropped, counted, logged with its physical source, and a request refused (R232). -/
def State.meshBad (s : State) (r h : Nat) : State :=
  let s1 := (s.modDrops (clusterOf r) (fun x => { x with badHdr := satAdd top16 x.badHdr 1 })).log (srcNode (clusterOf r)) evDropped eFormat none
    (mhSrc h * 2 ^ 48) (mhKind h)
  if meshAsks h then s1.meshRefuse r h eFormat else s1

/-- Multicast at a router (R228): copies leave by the ports of the entry, or none does and the source is refused. -/
def State.meshMulti (s : State) (r inPort h : Nat) (data : List Byte) (bad : NSet) (behind : List Nat) : State :=
  let e := s.route r (fld h 40 6)
  let m := e.outMask.toNat
  if !e.valid || e.vat != mhVat h || ((inPort = 3 || inPort = 4) && (bit m 1 || bit m 2)) then
    ((s.modDrops (clusterOf r) (fun x => { x with routeDrop := satAdd top16 x.routeDrop 1 })).log (srcNode (clusterOf r)) evDropped eState (some (mhVat h))
      (mhSrc h * 2 ^ 48) (mhKind h)).meshRefuse r h eState
  else
    (List.range 5).foldl (fun s p =>
      if !bit m p then s
      else if p = 0 && s.portShut r then s.meshShut r h
      else s.meshLeave r p h data bad behind) s

/-- A mesh packet at router `r`, arrived by `inPort`: 0 the core, 1 east, 2 west, 3 north, 4 south, 5 the edge (R227, R228, R232, R245).
(DESIGN CHOICE, log entry 40; DESIGN CHOICE, log entry 146) -/
def execMeshPacketRoute (r inPort hdr : Nat) (data : List Byte) (k : NetMarks) (s : State) : Res :=
  let bad := k.bad
  let behind := k.behind
  .next (if !meshHdrOk hdr then s.meshBad r hdr
    else if mhSel hdr = 2 then s.meshMulti r inPort hdr data bad behind
    else
      let p := portToward r (mhDst hdr)
      if p = pLocal then
        if mhSel hdr = 1 then s.meshLeave r 5 hdr data bad behind
        else if s.portShut r then s.meshShut r hdr
        else s.meshLeave r 0 hdr data bad behind
      else s.meshLeave r (if p = pEast then 1 else if p = pWest then 2 else if p = pNorth then 3 else 4) hdr data bad behind)

/-! ## Control packets (Tables 7.5, 7.6) -/

/-- The channel of an operation (Table 7.6). -/
def ctlVc (op : Nat) : Nat := if op ≤ 6 then 0 else 1

/-- Payload flits an operation may carry (Table 7.6). -/
def ctlPayOk (op n : Nat) : Bool := if op = 8 then n == 1 else if op = 5 || op = 0xA then n ≤ 1 else if op = 9 then n ≤ 16 else n == 0

/-- Reserved fields and encodings, and the channel of Table 7.6 (R238): die block code 15 (R611), a size code other than 4 B and 8 B, and a payload
the operation does not have are reserved encodings. (DEDUCED, log entry 41) -/
def ctlHdrOk (h : Nat) : Bool :=
  chDstKind h != 3 && fld h 30 2 != 3 && 1 ≤ chOp h && chOp h ≤ 0xA && fld h 58 6 == 0 && fld h 36 1 == ctlVc (chOp h)
  && !(chDstKind h == 2 && fld h 14 4 == 15) && !(fld h 30 2 == 2 && fld h 32 4 == 15) && ctlPayOk (chOp h) (chPay h)
  && !((chOp h == 7 || chOp h == 8) && fld h 112 3 != 2 && fld h 112 3 != 3)

/-- Is an operation a request on channel 1 (Table 7.6)? -/
def ctlAsks (h : Nat) : Bool := 7 ≤ chOp h && chOp h ≤ 0xA

/-- The cluster whose NET_DROPS counts the events of a node: the hub's count at cluster 3. (DESIGN CHOICE, log entry 61) -/
def dropNode (n : Nat) : Nat := if n = hubNode then 3 else n

/-- The header of a CTLRSP to a packet's source (R238, R246). -/
def ctlRsp (h status : Nat) : Nat :=
  fld h 18 6 + fld h 24 6 * 2 ^ 6 + fld h 30 2 * 2 ^ 12 + fld h 32 4 * 2 ^ 14 + fld h 0 6 * 2 ^ 18 + fld h 6 6 * 2 ^ 24 + chDstKind h * 2 ^ 30
    + fld h 14 4 * 2 ^ 32 + 6 * 2 ^ 42 + fld h 46 4 * 2 ^ 46 + status * 2 ^ 50

/-- A response starts from node `n`. -/
def State.ctlAnswer (s : State) (n h status : Nat) : State :=
  let g := ctlRsp h status
  s.send (.ctl n (ctlPort n (ctlTarget g)) g [] [])

/-- A control packet leaves node `n` by a port, with its payload and the poison masks of its flits (R236). -/
def State.ctlLeave (s : State) (n port h : Nat) (pay : List Byte) (bad : NSet) (behind : List Nat) : State :=
  (s.foreign (fld h 46 4) behind).send (.ctl n port h pay bad)

/-- A control packet at node `n`, arrived by `inPort`: 0 a core, 1 east, 2 west, 3 north, 4 south, 5 the hub (R236-R238, R246), with its
payload and marks. A SYNC for this node is presented to its
counters. (DESIGN CHOICE, log entry 40; DESIGN CHOICE, log entry 146) -/
def execCtlPacketRoute (n inPort hdr : Nat) (p : List Byte × NetMarks) (s : State) : Res :=
  let pay := p.1
  let bad := p.2.bad
  let behind := p.2.behind
  let drop := fun (f : NetDrops → NetDrops) => s.modDrops (dropNode n) f
  .next (if !ctlHdrOk hdr then
      let s1 := (drop (fun x => { x with badHdr := satAdd top16 x.badHdr 1 })).log (srcNode (dropNode n)) evDropped eFormat none
        (coreNo (fld hdr 18 6) (fld hdr 24 6) * 2 ^ 48) (chOp hdr)
      if ctlAsks hdr then s1.ctlAnswer n hdr eFormat else s1
    else
      let p := ctlPort n (ctlTarget hdr)
      if n != ctlTarget hdr then s.ctlLeave n p hdr pay bad behind
      else if chOp hdr = 1 && chDstKind hdr != 0 then
        let a := fld hdr 64 15
        let order := if inPort = 3 then 0 else if inPort = 1 then 1 else if inPort = 4 then 2 else if inPort = 2 then 3 else 4
        s.modPresented (ctrNode a) (fun l => l ++ [{ port := order, ctr := a, amount := fld hdr 80 32, sub := bit hdr 79 }])
      else if chDstKind hdr = 0 then
        let c := coreNo (fld hdr 0 6) (fld hdr 6 6)
        if s.portShut c then
          let s1 := drop (fun x => { x with ctlFenced := satAdd top16 x.ctlFenced 1 })
          if ctlAsks hdr then s1.ctlAnswer n hdr eFenced else s1
        else s.ctlLeave n 0 hdr pay bad behind
      else s.ctlLeave n p hdr pay bad behind)

/-! ## Fence notices (R222, R247, R558) -/

/-- A FENCE notice reaches the position's router, or the remap copy of a core. -/
def execFenceNotice (c : Nat) (copy : Option Nat) (s : State) : Res :=
  .next (if !(s.net.fenced.has c) then s
    else match copy with
      | none => { s with net := { s.net with fenceSeen := s.net.fenceSeen.add c } }
      | some k => { s with net := { s.net with remapSeen := s.net.remapSeen.add (8192 * k + c) } })

/-! ## The scratchpad window (R30, R36, R248, R318, R343) -/

/-- The core number of a requester. -/
def winCore : WinBy → Option Nat
  | .core c => some c
  | _ => none

/-- The status of a window access at core `c` (R30, R36, R318, Table 3.7). -/
def State.windowCheck (s : State) (c off n : Nat) (by_ : WinBy) (write : Bool) : Nat :=
  let v := s.vatOfCore c
  let st := (s.vat (v.getD 0)).st
  if spadSize < off + n then eRange
  else match by_ with
    | .core k =>
      if v.isNone || v != s.vatOfCore k then ePermission
      else if (s.vatmanVat c).isSome && k != c then ePermission
      else if st == .wiping || st == .faulted || s.deckled (clusterOf c) then eState
      else eOk
    | .mgmt => if v.isSome && (st == .wiping || st == .faulted) then eState else eOk
    | .debug => if v.isSome && (st == .wiping || (st == .faulted && write)) then eState else eOk

/-- An access of the management core or the debug port to a core of a vat RUNNING in deterministic mode counts EXT_ACCESS (R343). (DEDUCED, log entry 127) -/
def State.extAccess (s : State) (c : Nat) (by_ : WinBy) : State := if (winCore by_).isNone && s.detNow c then s.detBreakCore c 0x0F else s

/-- A READ arrives at a core's scratchpad (R30, R245, R248). -/
def execWindowRead (c off len : Nat) (by_ : WinBy) (s : State) : Res :=
  .next (if !(s.clRun (clusterOf c)) then s.wakeCl (clusterOf c)
    else if s.portShut c then
      (s.modDrops (clusterOf c) (fun x => { x with meshFenced := satAdd top16 x.meshFenced 1 })).send (.winAnswer by_ eFenced [] [])
    else
      let st := s.windowCheck c off len by_ false
      let s1 := s.extAccess c by_
      if st != eOk then (s1.log (srcCore c) evRefused st (s.vatOfCore c) off 1).send (.winAnswer by_ st [] [])
      else (s1.noteRead c off len).send
        (.winAnswer by_ eOk ((s.spad c).mem.readBytes off len) ((List.range len).filter (fun i => (s.spad c).badAt (off + i)))))

/-- A WRITE arrives at a core's scratchpad (R30, R245, R248). -/
def execWindowWrite (c off : Nat) (data : List Byte) (bad : List Nat) (by_ : WinBy) (s : State) : Res :=
  .next (if !(s.clRun (clusterOf c)) then s.wakeCl (clusterOf c)
    else if s.portShut c then
      (s.modDrops (clusterOf c) (fun x => { x with meshFenced := satAdd top16 x.meshFenced 1 })).send (.winAnswer by_ eFenced [] [])
    else
      let st := s.windowCheck c off data.length by_ true
      let s1 := s.extAccess c by_
      if st != eOk then (s1.log (srcCore c) evRefused st (s.vatOfCore c) off 2).send (.winAnswer by_ st [] [])
      else (s1.spadPut c off data (fun i => bad.contains i)).send (.winAnswer by_ eOk [] []))

end Sys2Proof.Machine
end

