-- ==== Sys2Proof/Machine/Power.lean ====
section
/-! DEFINITION. The power controller: operating points, stretch, thermal limits, the cap, telemetry, power states and sleep (Chapter 19),
and the module's start and stop (R635). -/

namespace Sys2Proof.Machine

/-- Update the power controller. -/
def State.modPwr (s : State) (f : Pwr → Pwr) : State := { s with pwr := f s.pwr }

/-- Some sheet runs in deterministic mode (R563). -/
def State.detRunning (s : State) : Bool := (List.range 16).any (fun v => (s.vat v).st == .running && (s.vat v).det.detOn)

/-- The point asked for: the lowest of target, thermal limit and cap limit (R563). -/
def State.wantedPoint (s : State) : Nat := min s.pwr.target (min s.pwr.thermLimit s.pwr.capLimit)

/-- A thermal stretch request: a lowering for the thermal limit is held up by a deterministic sheet (R574). -/
def State.thermReq (s : State) : Bool := decide (s.pwr.thermLimit < s.hub.dvfs) && s.detRunning

/-! ## Stretch (R564, R565) -/

/-- Every sheet then running has λ ≠ 0 (R333). -/
def State.markStretched (s : State) : State :=
  (List.range 16).foldl (fun s v => if (s.vat v).st == .running && !(s.vat v).det.stretched then s.modVat v (fun x => { x with det := { x.det with stretched := true } }) else s) s

/-- A stretch episode begins, or is in progress. -/
def State.beginStretch (s : State) (droop : Bool) : State :=
  if s.pwr.stretch then s
  else (s.modPwr (fun p => { p with stretch := true, m := 0, epTherm := false, epCap := false,
                                    droopEps := if droop then satAdd top16 p.droopEps 1 else p.droopEps })).markStretched

/-- A thermal or cap request in force begins or extends an episode, which counts it once (Table 19.7). -/
def State.holdStretch (s : State) : State :=
  let s1 := if s.thermReq && !(s.pwr.stretch && s.pwr.epTherm) then
      (s.beginStretch false).modPwr (fun p => { p with epTherm := true, thermEps := satAdd top16 p.thermEps 1 })
    else s
  if s1.pwr.capReq && !(s1.pwr.stretch && s1.pwr.epCap) then
    (s1.beginStretch false).modPwr (fun p => { p with epCap := true, capEps := satAdd top16 p.capEps 1 })
  else s1

/-- A droop sensor stands `drop` mV below nominal: beyond trip_mv it trips (R564). -/
def execDroopTrip (sensor drop : Nat) (s : State) : Res :=
  .next (if 267 < sensor || drop ≤ s.pwr.tripMv || !s.fastOn then s
    else if s.pwr.stretch then s.fire 662
    else (s.beginStretch true).fire 662)

/-- An episode ends at a cycle edge (R565); `above` is for how many consecutive cycles every sensor has stood above the release level. (DESIGN CHOICE, log entry 108) -/
def execStretchEnd (above : Nat) (s : State) : Res :=
  let p := s.pwr
  .next (if !p.stretch || above < 32 || s.thermReq || p.capReq || p.m = 0 || p.m % stretchUnit s.hub.dvfs != 0 then s
    else s.modPwr (fun p => { p with stretch := false, m := 0, epTherm := false, epCap := false }))

/-- The switch to the wanted point, on a launch-grid tick at which the change is eligible (R563). (DESIGN CHOICE, log entry 111) -/
def execDvfsSwitch (s : State) : Res :=
  .next (if s.wantedPoint = s.hub.dvfs || s.detRunning || s.pwr.stretch || !s.fastOn || s.clk.gtc.toNat % 20 != 0 || s.clk.phase != 0 then s
    else { s with hub := { s.hub with dvfs := s.wantedPoint } })

/-! ## Thermal limits (R573-R576) -/

/-- Thresholds in 0.1 °C of levels WARN, THROTTLE, CRITICAL, TRIP for die sensors and stacks (Table 19.3). -/
def dieThr (warn l : Nat) : Int := if l = 0 then 10 * (warn : Int) else if l = 1 then 1000 else if l = 2 then 1040 else 1100
def stackThr (l : Nat) : Int := if l = 0 then 850 else if l = 1 then 950 else if l = 2 then 1000 else 1050

/-- The levels a kind stands at (R573): a level is reached at its threshold, and clears 5 °C below it. -/
def levelsOf (thr : Nat → Int) (old : BitVec 3) (hot : Int) : BitVec 3 :=
  (List.range 3).foldl (fun (b : BitVec 3) l =>
    if thr l ≤ hot || (old.getLsbD l && decide (thr l - 50 < hot)) then b ||| (1#3 <<< l) else b) 0

/-- The reading of sensor code `k` in 0.1 °C: die sensors 0-71 and the hub's 80 from the sample, stacks 72-79 from STK_STAT.temp. (DESIGN CHOICE, log entry 107) -/
def State.reading (s : State) (t : List Int) (k : Nat) : Int :=
  if k ≤ 71 then t.getD k 0 else if k ≤ 79 then 10 * ((s.stk (k - 72)).temp : Int) else t.getD 72 0

/-- The first code with the highest reading. -/
def hottest (f : Nat → Int) : List Nat → Nat
  | [] => 0
  | k :: l => l.foldl (fun b j => if f b < f j then j else b) k

/-- Codes of die sensors and of stacks (R573). -/
def dieCodes : List Nat := List.range 72 ++ [80]
def stackCodes : List Nat := (List.range 8).map (· + 72)

/-- The level in force: the highest that any sensor stands at. -/
def levelCode (b : BitVec 3) : Nat := if b.getLsbD 2 then 3 else if b.getLsbD 1 then 2 else if b.getLsbD 0 then 1 else 0

/-- Entry to a level: source 660 and the log with the hottest sensor that reaches it (R573). (DEDUCED, log entry 105) -/
def State.levelEntry (s : State) (old new : BitVec 3) (code : Nat → Nat) : State :=
  (List.range 3).foldl (fun s l => if new.getLsbD l && !(old.getLsbD l) then (s.log (srcAo 0) evThermal 0 none 0 (code l)).fire 660 else s) s

/-- A sample below the trip levels: the levels, the hottest sensor, the sampling maxima, the events of the levels entered, and what CRITICAL
does. -/
def State.thermalLevels (s : State) (f : Nat → Int) : State :=
  let dh := hottest f dieCodes
  let sh := hottest f stackCodes
  let p := s.pwr
  let d := levelsOf (dieThr p.warn) p.dieLvl (f dh)
  let k := levelsOf stackThr p.stackLvl (f sh)
  let old := p.dieLvl ||| p.stackLvl
  let mx := fun (i : Nat) (v : Int) (h : Table Int) => if h.any (fun q => q.1 == i) then h.put i (max v (h.get 0 i)) else h.put i v
  let hot := (List.range 8).foldl (fun h i => mx (6 + i) (f (72 + i)) h)
    (mx 5 (f (hottest f ((List.range 8).map (· + 64)))) (mx 4 (f (hottest f (List.range 64))) p.hot))
  let s1 := s.modPwr (fun p =>
    { p with dieLvl := d, stackLvl := k, sensor := hottest f (dieCodes ++ stackCodes), hot := hot, lvlMax := max p.lvlMax (levelCode (d ||| k)),
             stepAt := if d.getLsbD 1 && !(p.dieLvl.getLsbD 1) then s.clk.gtc else p.stepAt,
             riseAt := if p.dieLvl.getLsbD 1 && !(d.getLsbD 1) then s.clk.gtc else p.riseAt })
  let s2 := s1.levelEntry old (d ||| k) (fun l => if decide (dieThr p.warn l ≤ f dh) && (f sh ≤ f dh || !(decide (stackThr l ≤ f sh))) then dh else sh)
  if s2.critical then
    let s3 := (List.range 16).foldl (fun s v => if (s.vat v).st == .running then (s.forceStopOr v).1 else s) s2
    s3.modPwr (fun p => { p with thermLimit := 0 })
  else s2

/-- The sensors are read (R573): 73 readings of the die sensors, in 0.1 °C. (DESIGN CHOICE, log entry 107) -/
def execThermalSample (t : List Int) (s : State) : Res :=
  .next (if t.length != 73 || s.pwr.off || !s.pwr.on then s
    else
      let f := s.reading t
      let dh := hottest f dieCodes
      let sh := hottest f stackCodes
      if dieThr s.pwr.warn 3 ≤ f dh || stackThr 3 ≤ f sh then s.trip else s.thermalLevels f)

/-- 10 ms at THROTTLE: the thermal limit falls one point (R574). (DEDUCED, log entry 105) -/
def execThrottleStep (s : State) : Res :=
  .next (if !(s.pwr.dieLvl.getLsbD 1) || s.clk.gtc.toNat < s.pwr.stepAt.toNat + 10 ^ 7 then s
    else (s.modPwr (fun p => { p with thermLimit := p.thermLimit - 1, stepAt := s.clk.gtc })).holdStretch)

/-- 100 ms without THROTTLE: the limit rises one point until it no longer limits (R574). -/
def execThrottleRecovery (s : State) : Res :=
  .next (if s.pwr.dieLvl.getLsbD 1 || s.critical || 4 ≤ s.pwr.thermLimit || s.clk.gtc.toNat < s.pwr.riseAt.toNat + 10 ^ 8 then s
    else s.modPwr (fun p => { p with thermLimit := p.thermLimit + 1, riseAt := s.clk.gtc }))

/-! ## Measurement and the cap (R577-R580) -/

/-- Ten times the effective cap in µW over the ten samples (R578). -/
def Pwr.cap10 (p : Pwr) : Nat := min (p.watts * 10 ^ 7) (30000 * (p.samples.map (·.1)).foldl (· + ·) 0)

/-- The sum of the powers of the ten samples in µW. -/
def Pwr.power10 (p : Pwr) : Nat := (p.samples.map (fun x => x.1 * x.2)).foldl (· + ·) 0

/-- A sag, surge or cap event: source 661 and the log with its code (R580). (DEDUCED, log entry 106) -/
def State.sagEvent (s : State) (code : Nat) : State := (s.log (srcAo 0) evThermal 0 none 0 code).fire 661

/-- Runs of ten samples below warn_dv and above 80.5 V (R580). (DEDUCED, log entry 106) -/
def State.sagCount (s : State) (mv : Nat) : State :=
  let p := s.pwr
  let lo := if mv < 100 * p.warnDv then p.sagRun + 1 else 0
  let hi := if 80500 < mv then p.surgeRun + 1 else 0
  let s1 := s.modPwr (fun p => { p with sagRun := lo % 10, surgeRun := hi % 10, minDv := min p.minDv (mv / 100) })
  let s2 := if lo = 10 then (s1.modPwr (fun p => { p with sag := satAdd top16 p.sag 1 })).sagEvent 97 else s1
  if hi = 10 then (s2.modPwr (fun p => { p with surge := satAdd top16 p.surge 1 })).sagEvent 97 else s2

/-- The cap request after a sample (R578, R580). (DEDUCED, log entry 106) -/
def State.capCheck (s : State) : State :=
  let p := s.pwr
  if p.samples.length != 10 then s
  else
    let c := p.cap10
    let s1 := s.modPwr (fun p => { p with cEff := c / 10 ^ 7 })
    if !p.capReq && decide (c < p.power10) then
      let s2 := (s1.modPwr (fun p => { p with capReq := true, capSince := s.clk.gtc })).holdStretch
      let w := s.clk.gtc.toNat / 10 ^ 7 + 1
      if p.capLogged = w then s2 else (s2.modPwr (fun p => { p with capLogged := w })).sagEvent 96
    else if p.capReq && decide (20 * p.power10 ≤ 19 * c) then
      s1.modPwr (fun p => { p with capReq := false, capTicks := p.capTicks + (s.clk.gtc.toNat - p.capSince.toNat) })
    else s1

/-- An input sample of `mv` mV and `ma` mA whose energy is `nj` nJ, each 1,000 ticks (R577-R580). (DESIGN CHOICE, log entry 107) -/
def execPowerSample (mv ma nj : Nat) (s : State) : Res :=
  .next (if !s.pwr.on || !s.reaches 1000 || (s.pwr.sampleAt == s.clk.gtc && !s.pwr.samples.isEmpty) then s
    else
      let s1 := s.modPwr (fun p => { p with samples := ((mv, ma) :: p.samples).take 10, sampleAt := s.clk.gtc, energy := p.energy + BitVec.ofNat 64 nj,
                                            sumMv := p.sumMv + mv, sumMa := p.sumMa + ma, sumUw := p.sumUw + mv * ma, nSum := p.nSum + 1 })
      (s1.sagCount mv).capCheck)

/-- A 10 ms window ends (R579): with cap stretch for more than 20 % of it the cap limit falls one point. -/
def execCapWindow (s : State) : Res :=
  let p := s.pwr
  let now := s.clk.gtc.toNat
  .next (if !s.reaches (10 ^ 7) || now ≤ p.winAt.toNat then s
    else
      let held := p.capTicks + (if p.capReq then now - p.capSince.toNat else 0)
      let low := decide (10 ^ 7 < 5 * held)
      s.modPwr (fun p => { p with winAt := s.clk.gtc, capTicks := 0, capSince := if p.capReq then s.clk.gtc else p.capSince,
                                  capLimit := if low then p.capLimit - 1 else p.capLimit }))

/-- A 1 s window ends (R579): with an average input power below 0.8 C the cap limit rises one point. (DEDUCED, log entry 106) -/
def execCapRiseWindow (s : State) : Res :=
  let p := s.pwr
  let now := s.clk.gtc.toNat
  .next (if !s.reaches (10 ^ 9) || now ≤ p.riseWinAt.toNat then s
    else
      let nj := (p.energy - p.energyWin).toNat
      let c10 := if p.samples.length = 10 then p.cap10 else p.watts * 10 ^ 7
      let low := decide (5 * 10 ^ 7 * nj < 4 * 10 ^ 9 * c10)
      s.modPwr (fun p => { p with riseWinAt := s.clk.gtc, energyWin := p.energy, capLimit := if low then min 4 (p.capLimit + 1) else p.capLimit }))

/-- 32 bits of a signed value. -/
def enc32 (i : Int) : Nat := (i % 4294967296).toNat

/-- The sensors are updated at a multiple of 10⁸ ticks (R581): `inlet` and `conv` are the module's sensors 14 and 15. (DEDUCED, log entry 106) -/
def execTelemetryUpdate (inlet conv : Int) (s : State) : Res :=
  let p := s.pwr
  let now := s.clk.gtc.toNat
  .next (if !s.reaches (10 ^ 8) || now ≤ p.telemAt.toNat then s
    else
      let t0 : Table Nat := if p.nSum = 0 then p.telem
        else ((p.telem.put 0 (p.sumMv / (10 * p.nSum))).put 1 (p.sumMa / (10 * p.nSum))).put 2 (p.sumUw / (100000 * p.nSum))
      let t1 : Table Nat := t0.put 3 (p.energy.toNat / 10 ^ 9 % 2 ^ 32)
      let t2 : Table Nat := p.hot.foldl (fun (t : Table Nat) q => t.put q.1 (enc32 q.2)) t1
      let dc := (s.clk.fast - p.fast0).toNat
      let ds := (p.cycles - p.cycles0).toNat
      let t3 : Table Nat := (((t2.put 14 (enc32 inlet)).put 15 (enc32 conv)).put 16 s.hub.dvfs).put 17 (if dc = 0 then 0 else ds * 65536 / dc)
      s.modPwr (fun p => { p with telem := t3.put 18 p.lvlMax, telemSeq := p.telemSeq + 1, telemAt := s.clk.gtc, sumMv := 0, sumMa := 0, sumUw := 0, nSum := 0,
                                  hot := [], lvlMax := levelCode (p.dieLvl ||| p.stackLvl), fast0 := s.clk.fast, cycles0 := p.cycles }))

/-! ## Power states (R567-R569) -/

/-- Is a core idle in the sense of R567: IDLE, or ENDED with its queues and engines drained; a vatman in WFI? -/
def State.idleCore (s : State) (c : Nat) : Bool :=
  let k := s.ctl c
  if (s.vatmanVat c).isSome then k.run == .running && k.waiting == some .wfi
  else k.run == .idle || (k.run == .ended && (List.range 7).all (s.queueDrained c))

/-- gate_idle of a core's vat: as latched at the sheet start; the reset value outside every vat (R567). (DEDUCED, log entry 110) -/
def State.gateIdle (s : State) (c : Nat) : Nat := match s.vatOfCore c with | some v => (s.vat v).gateIdleLatch | none => 0x40

/-- A core's idle count reaches gate_idle (R567). -/
def execCoreGate (c : Nat) (s : State) : Res :=
  .next (if 4096 ≤ c || !s.fastOn || !(s.clRun (clusterOf c)) || s.gateIdle c = 0 || !(s.idleCore c)
      || (s.clk.fast - (s.ctl c).idleSince).toNat < s.gateIdle c then s
    else s.modCtl c (fun k => { k with gated := true }))

/-- May a requester ask for a cluster's power state (R568)? -/
def State.mayPwr (s : State) (w : Who) (cl : Nat) : Bool :=
  whoMgmt w || w == .pf || (match w with | .core c => (match s.vatmanVat c with | some v => s.owns v cl | none => false) | _ => false)

/-- A write of PWR_CL.req (R568). -/
def State.pwrRequest (s : State) (w : Who) (cl req : Nat) : State × Nat :=
  let off := 0x600028 + 0x10000 * cl
  let st := (s.ownerOf cl).map (fun v => (s.vat v).st)
  let legal := req = 0 || st.isNone || st == some .free || (req = 1 && (st == some .ready || st == some .scanned))
  if !(s.mayPwr w cl) then (s.regRefuse w ePermission off, ePermission)
  else if 2 < req then (s.regRefuse w eRange off, eRange)
  else if !legal then (s.regRefuse w eState off, eState)
  else (s.modClPwr cl (fun x => { x with req := req, busy := x.busy || x.state != req }), eOk)

/-- CLUSTER_POWER_REQUEST (R568). -/
def execClusterPowerRequest (w : Who) (cl req : Nat) (s : State) : Res := .next (if 63 < cl then s else (s.pwrRequest w cl req).1)

/-- A core's SRAM and its control processor lose everything in OFF (R191). (DEDUCED, log entry 110) -/
def State.loseCore (s : State) (c : Nat) : State :=
  let s1 := (List.range 7).foldl (fun s q => s.setQueue c q {}) s
  let s2 := ((((((s1.setSpadKeep c {}).setImem c []).clearImemUe c).setMat c {}).setVec c {}).setChnKeep c {}).modCtl c (fun k => if k.run == .fenced then k else { run := .idle })
  let s3 := (List.range 4).foldl (fun s e => s.setSe c e {}) s2
  { s3 with cores := { s3.cores with eps := s3.cores.eps.delRange (64 * c) 64 } }

/-- Entry to RETAIN or OFF completes (R568). (DEDUCED, log entry 110) -/
def execClusterPowerEntry (cl : Nat) (s : State) : Res :=
  let x := s.clPwr cl
  .next (if !x.busy || x.req = 0 then s
    else
      let s1 := s.setClPwr cl { x with state := x.req, busy := false }
      if x.req = 2 then (List.range 64).foldl (fun s p => s.loseCore (coreNo cl p)) s1 else s1)

/-- A wake, and for OFF the wipe, completes: the cluster returns to RUN and what waited for it may go on (R569). -/
def execClusterWakeComplete (cl : Nat) (s : State) : Res :=
  let x := s.clPwr cl
  .next (if !x.busy || x.req != 0 || !s.fastOn then s else s.setClPwr cl { x with state := 0, busy := false })

/-! ## Sleep (R571, R572) -/

/-- The conditions of R571; a command stays ACCEPTED until its record is issued (R529). -/
def State.maySleep (s : State) : Bool :=
  (List.range 16).all (fun v =>
    let x := s.vat v
    (x.st == .free || x.st == .ready || x.st == .scanned) && !x.bt.busy && !x.advBusy && !x.relWipe)
  && (List.range 17).all (fun r => (s.ring r).withheld.isEmpty && !((s.ring r).cmds.any (·.applied)) && !((s.ring r).done.any (·.cmd.applied)))
  && s.mem.cmds.isEmpty && s.span.tw.st == .single

/-- Entry to SLEEP (R571). -/
def State.enterSleep (s : State) : State :=
  let s1 := (List.range 64).foldl (fun s cl => s.modClPwr cl (fun x => { x with before := x.state, state := if x.state = 0 then 1 else x.state })) s
  let s2 := (List.range 7).foldl (fun s p => if (s.port p).st == .disabled || (s.port p).st == .down then s else s.linkTo p .down) s1
  let s3 := if s2.hub.gs.st == .locked && s2.hub.gs.upPort != 7 then s2.unlock .holdover else s2
  s3.modPwr (fun p => { p with asleep := true, wakeAsk := false, stretch := false, m := 0 })

/-- A write of PWR_DEV.sleep (R571, R572). -/
def State.sleepWrite (s : State) (w : Who) (on : Bool) : State × Nat :=
  if !(whoMgmt w) then (s.regRefuse w ePermission 0x140004, ePermission)
  else if !on then (s.modPwr (fun p => { p with sleep := false, wakeAsk := p.wakeAsk || p.asleep }), eOk)
  else if s.pwr.asleep then (s, eOk)
  else if !s.maySleep then (s.regRefuse w eState 0x140004, eState)
  else ((s.modPwr (fun p => { p with sleep := true })).enterSleep, eOk)

/-- SLEEP_REQUEST (R571). -/
def execSleepRequest (w : Who) (s : State) : Res := .next (s.sleepWrite w true).1

/-- The device wakes (R572): something has asked for it; each cluster returns to the state it held, and refresh re-enters its slots at the next
slot boundary. -/
def execDeviceWake (s : State) : Res :=
  .next (if !s.pwr.asleep || !s.pwr.wakeAsk then s
    else
      let s1 := (List.range 64).foldl (fun s cl => s.modClPwr cl (fun x => { x with state := x.before })) s
      let s2 := (List.range 8).foldl (fun s i => s.modStk i (fun x => { x with slotAt := s.slotNow })) s1
      s2.modPwr (fun p => { p with asleep := false, sleep := false, wakeAsk := false }))

/-! ## The module (R635) -/

/-- VIN stands at `mv` mV with EN high for `ticks`, and stood below 54 V, or EN low, for `off` ticks before (R635): the module starts, and its
start is a cold reset after a loss of power. (DESIGN CHOICE, log entry 111) -/
def execModuleStart (mv ticks off : Nat) (s : State) : Res :=
  .next (if s.pwr.on || mv < 58000 || ticks < 10 ^ 6 || off < 10 ^ 8 then s
    else
      let s1 : State := { s with boot := { s.boot with rst := some .cold, effect := true } }
      s1.coldWipe true)

/-- VIN stands at `mv` mV, or EN low, for `ticks` (R635): beyond 10 µs the conversion turns off, a loss of power (R587). -/
def execModuleStop (mv : Nat) (en : Bool) (ticks : Nat) (s : State) : Res :=
  .next (if !s.pwr.on || (54000 ≤ mv && en) || ticks ≤ 10 ^ 4 then s
    else
      let s1 := s.coldWipe true
      { s1 with pwr := { s1.pwr with on := false }, boot := { s1.boot with effect := false, rst := some .cold } })

end Sys2Proof.Machine
end

