-- ==== Sys2Proof/Machine/QueueCtl.lean ====
section
/-! DEFINITION. ISSUE, IBINS, QWAIT, the sync counter instructions, and WAIT and SIGNAL at a queue head (R99-R109). -/

namespace Sys2Proof.Machine

/-- The macro-instruction in the issue buffers (R103). -/
def Ctl.ibuf (k : Ctl) : W256 :=
  BitVec.ofNat 256 (k.ib0.toNat + k.ib1.toNat * 2 ^ 64 + k.ib2.toNat * 2 ^ 128 + k.ib3.toNat * 2 ^ 192)

/-- The checks of an issue after its reservation, and the append (R103); `pd` is written for the .NB form. (DESIGN CHOICE, log entry 21) -/
def State.issueEnd (s : State) (c q : Nat) (src : Option Nat) (nb : Option (BitVec 3)) : State :=
  let k := { (s.ctl c) with waiting := none }
  let m := match src with | some a => BitVec.ofNat 256 ((s.spad c).nat a 32) | none => k.ibuf
  let bad := match src with | some a => (s.spad c).bad a 32 | none => false
  let s1 := match src with | some a => s.noteRead c a 32 | none => s
  if bad then (s1.setCtl c k).takeException c cPoison ePoison k.pc (BitVec.ofNat 64 (src.getD 0))
  else if !(headerOk m) || !(layoutOk m) then (s1.setCtl c k).takeException c cIssue eFormat k.pc (BitVec.ofNat 64 q)
  else
    let k1 := match nb with | some pd => k.wp pd true | none => k
    ((s1.setCtl c k1.adv).modQueue c q (fun x => { x with entries := x.entries ++ [m] })).traceRec c q 0 (mMop m) 0 (m.toNat % 2 ^ 128)

/-- ISSUE and ISSUE.B (R103): full queues stall, or clear pd for .NB. (DESIGN CHOICE, log entry 21) -/
def State.issue (s : State) (c : Nat) (q : BitVec 4) (nb : Bool) (pd : BitVec 3) (src : Option W64) (w : W32) : State :=
  let k := s.ctl c
  if c == mgmtCore then s.illegal c w
  else if (match src with | some a => a.toNat % 32 != 0 | none => false) then s.takeException c cAlign eRange k.pc (src.getD 0)
  else if (match src with | some a => decide (a.toNat ≥ spadSize) | none => false) then s.takeException c cRange eRange k.pc (src.getD 0)
  else if s.qFree c q.toNat = 0 then
    if nb then s.setCtl c (k.wp pd false).adv
    else s.setCtl c { k with waiting := some (match src with | some a => .issue q.toNat a.toNat | none => .issueB q.toNat) }
  else s.issueEnd c q.toNat (src.map (·.toNat)) (if nb then some pd else none)

/-- Queue codes 7-15 are reserved (R99), and pd is zero without .NB (Table 3.19). -/
def issueForm (q : BitVec 4) (nb : Bool) (pd : BitVec 3) : Bool := q.toNat ≤ 6 && (nb || pd == 0)

/-- ISSUE from scratchpad (R103). -/
def execIssue (c : Nat) (g : Guard) (q : BitVec 4) (nb : Bool) (rs1 : Reg) (pd : BitVec 3) (imm : BitVec 7) (s : State) : Res :=
  .next (s.instrIf c g (encQ 0x70 g q nb rs1 pd imm) (issueForm q nb pd) (fun k =>
    s.issue c q nb pd (some (k.rg rs1 + zext64 imm * 32)) (encQ 0x70 g q nb rs1 pd imm)))

/-- ISSUE.B from the issue buffers (R103). -/
def execIssueB (c : Nat) (g : Guard) (q : BitVec 4) (nb : Bool) (pd : BitVec 3) (s : State) : Res :=
  .next (s.instrIf c g (encQ 0x71 g q nb 0 pd 0) (issueForm q nb pd) (fun _ => s.issue c q nb pd none (encQ 0x71 g q nb 0 pd 0)))

/-- A freed place lets a stalled ISSUE reserve and go on (R103). (DESIGN CHOICE, log entry 21) -/
def execIssueReserve (c : Nat) (s : State) : Res :=
  .next (if !(s.ctl c).live || !(s.vatLets c) then s
    else State.stepOver (match (s.ctl c).waiting with
      | some (.issue q a) => if s.qFree c q = 0 then s else s.issueEnd c q (some a) none
      | some (.issueB q) => if s.qFree c q = 0 then s else s.issueEnd c q none none
      | _ => s) c)

/-- The issue buffer words. -/
def Ctl.ib (k : Ctl) (i : BitVec 2) : W64 := if i = 0 then k.ib0 else if i = 1 then k.ib1 else if i = 2 then k.ib2 else k.ib3

/-- Write an issue buffer word. -/
def Ctl.setIb (k : Ctl) (i : BitVec 2) (x : W64) : Ctl :=
  if i = 0 then { k with ib0 := x } else if i = 1 then { k with ib1 := x } else if i = 2 then { k with ib2 := x } else { k with ib3 := x }

/-- IBINS (Table 3.19): pos + len above 64 is reserved, and so is the instruction on the management core. -/
def execIbins (c : Nat) (g : Guard) (ib : BitVec 2) (pos lenm1 : BitVec 6) (rs1 : Reg) (s : State) : Res :=
  let w := encX 0x72 g ib pos lenm1 rs1
  .next (s.instrIf c g w (decide (pos.toNat + lenm1.toNat + 1 ≤ 64)) (fun k =>
    if c == mgmtCore then s.illegal c w
    else s.setCtl c (k.setIb ib (insertField (k.ib ib) pos.toNat (lenm1.toNat + 1) (k.rg rs1))).adv))

/-- The condition of QWAIT (R106). -/
def State.qwaitHolds (s : State) (c : Nat) (mask : BitVec 7) : Bool :=
  (List.range 7).all (fun q => !(mask.getLsbD q) || s.queueDrained c q)

/-- QWAIT (R106); a zero mask is reserved. -/
def execQwait (c : Nat) (g : Guard) (nb : Bool) (pd : BitVec 3) (mask : BitVec 7) (s : State) : Res :=
  let w := encQ 0x74 g 0 nb 0 pd mask
  .next (s.instrIf c g w (mask != 0 && (nb || pd == 0)) (fun k =>
    if c == mgmtCore then s.illegal c w
    else if nb then s.setCtl c (k.wp pd (s.qwaitHolds c mask)).adv
    else if s.qwaitHolds c mask then s.setCtl c k.adv
    else s.setCtl c { k with waiting := some (.qwait mask) }))

/-- The queues of a waiting QWAIT have drained (R106). -/
def execQwaitRetire (c : Nat) (s : State) : Res :=
  .next (match (s.ctl c).waiting with
    | some (.qwait mask) =>
      if (s.ctl c).live && s.qwaitHolds c mask then (s.modCtl c (fun k => { k with waiting := none }.adv)).stepOver c else s
    | _ => s)

/-- A sync counter instruction (R108): a malformed address raises RANGE, a counter the core may not address ACCESS. -/
def State.syncInstr (s : State) (c : Nat) (g : Guard) (rs1 : Reg) (w : W32) (right : Nat → Bool) (f : Ctl → Nat → State) : State :=
  s.instr c g w (fun k =>
    let a := k.rg rs1
    if !(ctrWf a.toNat) then s.takeException c cRange eRange k.pc a
    else if !(right a.toNat) then s.takeException c cAccess ePermission k.pc a
    else f k a.toNat)

/-- SADD and SSUB act only when every earlier STR has been acknowledged (R109). -/
def State.strDrained (s : State) (c : Nat) : Bool := (s.ctl c).strOut = 0

/-- SADD and SSUB wait, without an effect, for the acknowledgement of earlier STRs (R109). (DEDUCED, log entry 18) -/
def State.syncWaits (s : State) (c : Nat) (g : Guard) : Bool := !(s.strDrained c) && !(s.fetchBad c) && (s.ctl c).guardTrue g

/-- SADD (R108, R109). An increment of the management core that the deckle refuses as the 17th raises E_STATE at it (R281, R317).
(DEDUCED, log entry 18; DEDUCED, log entry 149) -/
def execSadd (c : Nat) (g : Guard) (rs1 rs2 : Reg) (s : State) : Res :=
  .next (if s.syncWaits c g then s
    else s.syncInstr c g rs1 (encR 0x78 g 0 rs1 rs2 0) (s.mayAdd c) (fun k a =>
      let n := (k.rg rs2).toNat % 2 ^ 32
      if c = mgmtCore && !(s.addOutside a n).2 then (s.addOutside a n).1.takeException c cSync eState k.pc (k.rg rs1)
      else (s.setCtl c k.adv).addFrom c a n))

/-- SSUB (R108): an underflow raises SYNC and leaves the counter. (DEDUCED, log entry 18) -/
def execSsub (c : Nat) (g : Guard) (rs1 rs2 : Reg) (s : State) : Res :=
  .next (if s.syncWaits c g then s
    else s.syncInstr c g rs1 (encR 0x79 g 0 rs1 rs2 0) (s.mayTest c) (fun k a =>
      let r := s.subCtr a ((k.rg rs2).toNat % 2 ^ 32)
      if r.2 then (r.1.setCtl c k.adv).testWatches (ctrNode a)
      else r.1.takeException c cSync eSyncUnderflow k.pc (k.rg rs1)))

/-- SWAIT (R108): its watch holds the processor until the condition holds; reserved forms are illegal. -/
def execSwait (c : Nat) (g : Guard) (rs1 rs2 : Reg) (cond : BitVec 3) (dec : Bool) (s : State) : Res :=
  let w := encR 0x7A g 0 rs1 rs2 (BitVec.ofNat 5 (cond.toNat + 8 * b2n dec))
  .next (match Cond.ofBits cond.toNat with
    | none => s.instrIf c g w false (fun _ => s)
    | some cd =>
      if dec && (cd == .ne || cd == .lt) then s.instrIf c g w false (fun _ => s)
      else s.syncInstr c g rs1 w (s.mayTest c) (fun k a =>
        (s.setCtl c { k with waiting := some .swait }).register
          { core := c, unit := .cpu, ctr := a, cond := cd, value := (k.rg rs2).toNat % 2 ^ 32, dec := dec }))

/-- SREAD (R108). -/
def execSread (c : Nat) (g : Guard) (rd rs1 : Reg) (s : State) : Res :=
  .next (s.syncInstr c g rs1 (encR 0x7B g rd rs1 0 0) (s.mayAdd c) (fun k a => s.retire c k rd (BitVec.ofNat 64 (s.ctr a))))

/-- A WAIT at the head of its queue registers its watch (R105); a counter the core may not test halts the queue (R281). -/
def execWait (c q : Nat) (s : State) : Res :=
  .next (match (s.queue c q).head with
    | some m =>
      if mMop m != mopWait || !(s.enginesOn c) then s
      else if !(s.mayTest c (wsCtr m)) then (s.modVec c (fun x => if q = 1 then { x with copy := none } else x)).haltQueue c q ePermission m
      else (s.modQueue c q (fun x => { x with waiting := true })).register
        { core := c, unit := .queue q, ctr := wsCtr m, cond := (Cond.ofBits (waitCond m)).getD .ge, value := wsValue m, dec := waitDec m }
    | none => s)

/-- A SIGNAL at the head, once its engine has completed every macro-instruction before it (R105): an underflow halts the queue. -/
def execSignal (c q : Nat) (s : State) : Res :=
  .next (match (s.queue c q).head with
    | some m =>
      if mMop m != mopSignal || !(s.enginesOn c) || !(s.engineIdle c q) then s
      else if !(if signalSub m then s.mayTest c (wsCtr m) else s.mayAdd c (wsCtr m)) then s.haltQueue c q ePermission m
      else if signalSub m then
        let r := s.subCtr (wsCtr m) (wsValue m)
        if r.2 then ((r.1.popQ c q).traceRec c q 2 (mMop m) 0 0).testWatches (ctrNode (wsCtr m)) else r.1.haltQueue c q eSyncUnderflow m
      else ((s.popQ c q).traceRec c q 2 (mMop m) 0 0).addFrom c (wsCtr m) (wsValue m)
    | none => s)

/-- The status registers show the mop of an entry accepted; a reserved mop of the VEC queue counts as the vector engine's. (DESIGN CHOICE, log entry 144) -/
def State.noteMop (s : State) (c q mop : Nat) : State :=
  if q = 0 then s.modMat c (fun x => { x with mop := mop })
  else if q = 1 then s.modVec c (fun x => { x with vecMop := mop })
  else if q ≤ 5 then s.modSe c (q - 2) (fun x => { x with mop := mop })
  else s

/-- An entry whose mop its queue leaves reserved is accepted and rejected with E_FORMAT (R107, R262). -/
def execReservedMop (c q : Nat) (s : State) : Res :=
  .next (match (s.queue c q).head with
    | some m =>
      if mMop m ≥ 0xF0 || mopKnown q (mMop m) || !(s.enginesOn c) || !(s.engineIdle c q) then s
      else if !(s.sigRight c m) then s.haltQueue c q ePermission m
      else ((s.popQ c q).noteMop c q (mMop m)).reject c q eFormat m
    | none => s)

end Sys2Proof.Machine
end

