-- ==== Sys2Proof/Machine/Twin.lean ====
section
/-! DEFINITION. Twin pairing, mirroring, heartbeat and takeover (Chapter 15). -/

namespace Sys2Proof.Machine

/-- Update the twin unit. -/
def State.modTwin (s : State) (f : Twin → Twin) : State := { s with span := { s.span with tw := f s.span.tw } }

/-- Codes of Table 15.2. -/
def TwinSt.code : TwinSt → Nat
  | .single => 0
  | .pairing => 1
  | .active => 2
  | .mirror => 3
  | .takeover => 4
  | .broken => 5

/-- The twin interrupt sources of the management core and the host (R477). -/
def State.fireTwin (s : State) : State := (s.fire 647).fire 648

/-- Vats whose mode is not OFF. -/
def State.mirroredVats (s : State) : List Nat := (List.range 16).filter (fun v => (s.vat v).tw.mode != 0)

/-! ## Twin commands (R475-R477, R492-R494) -/

/-- A twin command that is refused: no effect, its status, the log (R477). -/
def State.twinRefuse (s : State) (k : Caller) (status : Nat) : State :=
  let s1 := s.modTwin (fun t => { t with status := status })
  match k.host with
  | some (r, uid) => s1.hostRefuse r uid status
  | none => s1.log (srcHub 8) evRefused status none 0 0

/-- A twin command that is applied and complete. -/
def State.twinOk (s : State) (k : Caller) : State := (s.modTwin (fun t => { t with status := eOk })).hostFinish k.host eOk 0 0

/-- PAIR_ACTIVE and PAIR_MIRROR (R476): from SINGLE to PAIRING, and the link is brought up anew to exchange the roles. (DEDUCED, log entry 100) -/
def State.twinPair (s : State) (k : Caller) (mirror : Bool) : State :=
  if s.span.tw.st != .single || !s.boot.sealed then s.twinRefuse k eState
  else (s.modTwin (fun t => { t with st := .pairing, want := mirror, pairAt := s.clk.gtc, host := k.host })).linkTo twinPort .down

/-- UNPAIR (R492): the former active makes its withheld releases; the mirror discards its logs and lifts standby; every mode becomes OFF. (DEDUCED, log entry 99) -/
def State.twinUnpair (s : State) (k : Caller) : State :=
  let t := s.span.tw
  if !(t.st == .active || t.st == .mirror || t.st == .broken) then s.twinRefuse k eState
  else
    let s1 := (List.range 16).foldl (fun s v =>
      if (s.vat v).tw.mode = 0 && !(s.vat v).tw.standby then s else ((if t.role then s else s.releaseHost v (fun _ => some none)).endMirror v)) s
    (s1.modTwin (fun t => { t with st := .single, handover := false })).twinOk k

/-- The mirrored vats of a device that has handed over, or lost, become standby: a new log begins, and its units are reported (R493). -/
def State.toStandby (s : State) (v : Nat) : State :=
  let s1 := s.modVat v (fun x => { x with tw := { x.tw with standby := true, log := [], logAt := 0, dirty := [], units := 0, freeUnits := 0, peerUnits := 0, commits := [] } })
  s1.queueTwin { f := { kind := 4, dst := s.span.tw.cfgPeer, src := s.span.node, job := (s.vat v).jobId, unit := v + (s.vat v).logUnits * 2 ^ 4 } }

/-- A HANDOVER whose CACKs have all arrived: the vats become standby, the peer is told, and the device enters MIRROR (R493). -/
def State.handoverGo (s : State) : State :=
  let vs := s.mirroredVats
  if !s.span.tw.handover || vs.any (fun v => !(s.vat v).tw.commits.isEmpty || (s.vat v).tw.pendCmd != 0) then s
  else
    let s1 := vs.foldl (fun s v => s.toStandby v) s
    (s1.sendCtl 0 3 []).modTwin (fun t => { t with st := .mirror, role := true, handover := false, lastBeat := s.clk.gtc })

/-- HANDOVER (R493): a commit of every mirrored vat, each READY or FREE and SYNCED. (DEDUCED, log entry 99) -/
def State.twinHandover (s : State) (k : Caller) : State :=
  let vs := s.mirroredVats
  if s.span.tw.st != .active || s.span.tw.handover
      || vs.any (fun v => let x := s.vat v; !(x.st == .ready || x.st == .free) || x.tw.mstat != 2 || x.tw.busy) then s.twinRefuse k eState
  else
    let s1 := vs.foldl (fun s v =>
      if (s.vat v).tw.mode = 1 then
        (s.modVat v (fun x => { x with tw := { x.tw with busy := true, pendCmd := 1, cmdLine := s.mem.nextCmd } })).twinGo v
      else s.takeCommit v false false) (s.modTwin (fun t => { t with handover := true }))
    (s1.twinOk k).handoverGo

/-- Keep of a log what ends with the last COMMIT received in full (R494). -/
def logWhole : List LogItem → List LogItem
  | [] => []
  | .commit n :: t => .commit n :: logWhole t
  | i :: t => let r := logWhole t; if r.any (fun j => match j with | .commit _ => true | _ => false) then i :: r else []

/-- TAKEOVER (R494): legal in BROKEN with role mirror, and in MIRROR after the peer's handover; further mirror frames are refused, and
partial logs discarded. -/
def State.twinTakeover (s : State) (k : Caller) : State :=
  let t := s.span.tw
  if !((t.st == .broken && t.role) || (t.st == .mirror && t.peerState == 3)) then s.twinRefuse k eState
  else
    let s1 := s.mirroredVats.foldl (fun s v => s.modVat v (fun x => { x with tw := { x.tw with log := logWhole x.tw.log } })) s
    s1.modTwin (fun t => { t with st := .takeover, host := k.host })

/-- A twin command by its code of Table 15.5 (R475). (DEDUCED, log entry 99) -/
def State.twinCmd (s : State) (code : Nat) (k : Caller) : State :=
  if !(1 ≤ code && code ≤ 5) then s.twinRefuse k eFormat
  else if !s.span.tw.cfgEn then s.twinRefuse k ePermission
  else if code = 1 then s.twinPair k false
  else if code = 2 then s.twinPair k true
  else if code = 3 then s.twinUnpair k
  else if code = 4 then s.twinTakeover k
  else s.twinHandover k

/-- TWIN_CTL.cmd = PAIR_ACTIVE, by the management core (R476). -/
def execPairActive (s : State) : Res := .next (s.twinCmd 1 {})
/-- TWIN_CTL.cmd = PAIR_MIRROR (R476). -/
def execPairMirror (s : State) : Res := .next (s.twinCmd 2 {})
/-- TWIN_CTL.cmd = UNPAIR (R492). -/
def execUnpair (s : State) : Res := .next (s.twinCmd 3 {})
/-- TWIN_CTL.cmd = TAKEOVER (R494). -/
def execTakeover (s : State) : Res := .next (s.twinCmd 4 {})
/-- TWIN_CTL.cmd = HANDOVER (R493). -/
def execHandover (s : State) : Res := .next (s.twinCmd 5 {})

/-- The host command TWIN carries the code in bits [66:64] of its entry (Table 17.8). -/
def execTwin (r : Nat) (s : State) : Res :=
  let v := match (s.ring r).nextCmd with | some k => k.vat | none => 0
  .next (s.command (.host r) 0x27 v (fun s k => s.twinCmd (fld k.entry 64 3) k))

/-- A pairing not done within 1 s of its command (R476). -/
def execPairingTimeout (s : State) : Res :=
  .next (if s.span.tw.st == .pairing && s.span.tw.pairAt.toNat + 1000000000 ≤ s.clk.gtc.toNat then s.pairFail eTimeout else s)

/-- A takeover ends once nothing is owed to apply (R494): standby is lifted; ACTIVE if the peer is in MIRROR, else SINGLE with every mode
OFF. -/
def execTakeoverComplete (s : State) : Res :=
  let t := s.span.tw
  let vs := s.mirroredVats
  .next (if t.st != .takeover || vs.any (fun v => !(s.vat v).tw.log.isEmpty) then s
    else
      let act := t.peerState == 3
      let s1 := vs.foldl (fun s v =>
        let s0 := s.modVat v (fun x => { x with tw := { x.tw with standby := false, no := x.tw.applied.toNat } })
        if act then s0
        else
          let m := (s.vat v).tw.mstat
          (s0.endMirror v).modVat v (fun x => { x with tw := { x.tw with mstat := if m = 2 then 0 else m } })) s
      ((s1.modTwin (fun t => { t with st := if act then .active else .single, role := t.role && !act, status := eOk, host := none, lastBeat := s.clk.gtc })).fireTwin).hostFinish
        t.host eOk 0 0)

/-! ## Heartbeat (R489-R491) -/

/-- A BEAT is sent at each multiple of 10,000 ticks (R489); gtc is stamped as it leaves. -/
def execBeatSend (s : State) : Res :=
  let t := s.span.tw
  let up := (s.port twinPort).st == .up
  let on := (t.st == .pairing && up) || t.st == .active || t.st == .mirror || t.st == .takeover || t.st == .broken
  .next (if !on || !s.reaches 10000 then s
    else
      let synced := (List.range 16).foldl (fun m v => m + b2n ((s.vat v).tw.mstat == 2) * 2 ^ v) 0
      let u := t.beat % 65536 + t.st.code * 2 ^ 16 + b2n t.role * 2 ^ 19 + synced * 2 ^ 20
      let s1 := s.modTwin (fun t => { t with beat := t.beat + 1 })
      if up then s1.queueTwin { f := { kind := 1, dst := t.cfgPeer, src := s.span.node, unit := u } } else s1)

/-- Entry to BROKEN (R477). -/
def State.toBroken (s : State) : State := (s.modTwin (fun t => { t with st := .broken, handover := false })).fireTwin

/-- A BEAT arrives (R490, R491): a valid one is recorded; a second active is a conflict. -/
def execBeatReceive (s : State) : Res :=
  .next (match s.takeFrame twinPort (fun f => f.kind == 1) with
    | none => s
    | some (x, s1) =>
      let u := x.f.unit
      let st := fld u 16 3
      if x.f.src != s.span.tw.cfgPeer || !x.stamped || 5 < st then s1
      else
        let s2 := s1.modTwin (fun t => { t with peerState := st, peerRole := bit u 19, lastBeat := x.tick })
        if s.span.tw.st == .active && (st == 2 || (st == 4 && !bit u 19)) then (s2.modTwin (fun t => { t with conflict := true })).toBroken else s2)

/-- No valid BEAT for 30,000 ticks (R490). -/
def execHeartbeatLoss (s : State) : Res :=
  let t := s.span.tw
  .next (if s.paired && t.lastBeat.toNat + 30000 ≤ s.clk.gtc.toNat then
      (s.modTwin (fun t => { t with missed := satAdd top16 t.missed 1 })).toBroken
    else s)

/-! ## Enabling and disabling a vat (R481) -/

/-- The writable fields of TWIN_VAT_CTL but the mode (Table 15.8). (DEDUCED, log entry 99) -/
def State.twinVatCtl (s : State) (v x : Nat) : State := s.modVat v (fun y => { y with tw := { y.tw with relCtr := fld x 6 15, relEn := bit x 5 } })

/-- A twin write of a vat that is refused: its status, and the log. -/
def State.twinVatRefuse (s : State) (v status : Nat) : State :=
  (s.modVat v (fun y => { y with tw := { y.tw with status := status } })).log (srcVat v) evRefused status (some v) 0 0

/-- A nonzero mode is written: CTL ENABLE leaves with the mode, the ranges and the slot count (R481). -/
def execMirrorEnable (v x : Nat) (s : State) : Res :=
  .next (
    if 16 ≤ v then s
    else
      let s1 := s.twinVatCtl v x
      let y := s1.vat v
      let mode := fld x 0 2
      if mode = 0 || mode = 3 then s1.twinVatRefuse v eFormat
      else if !s1.span.tw.cfgEn then s1.twinVatRefuse v ePermission
      else if s1.span.tw.st != .active || y.tw.standby || !((y.st == .free && y.jobValid) || y.st == .ready) || y.tw.busy || !y.tw.commits.isEmpty then
        s1.twinVatRefuse v eState
      else if !s1.span.tw.cfgVats.getLsbD v then s1.twinVatRefuse v ePermission
      else
        (s1.modVat v (fun y => { y with tw := { y.tw with pendMode := mode, freeUnits := 0, peerUnits := 0 } })).sendCtl v 1
          (leBytes 8 mode ++ (List.range 8).flatMap (fun i => leBytes 8 (y.tw.ranges.get 0 i).toNat) ++ leBytes 8 y.btCount))

/-- Mode 0 is written (R481): DISABLE leaves, and the vat's mirroring ends here; completions still withheld are released. -/
def execMirrorDisable (v x : Nat) (s : State) : Res :=
  .next (
    if 16 ≤ v then s
    else
      let s1 := s.twinVatCtl v x
      let w := (s1.vat v).tw
      if fld x 0 2 != 0 then s1.twinVatRefuse v eFormat
      else if w.mode = 0 && w.pendMode = 0 && !w.standby then s1
      else
        let s2 := (s1.releaseHost v (fun _ => some none)).endMirror v
        if s1.paired then s2.sendCtl v 2 [] else s2)

/-- An answer to a CTL frame (Table 15.1). -/
def State.ctlAnswerTwin (s : State) (v job status : Nat) : State :=
  s.queueTwin { f := { kind := 7, dst := s.span.tw.cfgPeer, src := s.span.node, job := job, unit := v + status * 2 ^ 8 } }

/-- MACK: log units freed of a vat (R485). (DEDUCED, log entry 97) -/
def State.sendMack (s : State) (v units : Nat) : State :=
  s.queueTwin { f := { kind := 4, dst := s.span.tw.cfgPeer, src := s.span.node, job := (s.vat v).jobId, unit := v + units * 2 ^ 4 } }

/-- The mirror's checks of an ENABLE (R481). -/
def State.enableCheck (s : State) (v job : Nat) (ranges : Table W64) (count : Nat) : Nat :=
  let x := s.vat v
  let within := fun (r : Nat) => !bit r 63 || fld r 36 24 == 0 || s.stackWithin v (4096 * fld r 0 36) (4096 * fld r 36 24)
  if s.span.tw.st != .mirror || !s.span.tw.cfgVats.getLsbD v || !x.jobValid || x.jobId != job then eState
  else if !(x.st == .free || x.st == .ready) then eState
  else if x.tw.logPages < 16 || !s.stackWithin v (4096 * x.tw.logBase) (4096 * x.tw.logPages)
      || !((List.range 8).all (fun i => within (ranges.get 0 i).toNat)) then ePermission
  else if count != x.btCount then eRange
  else eOk

/-- A CTL ENABLE arrives (R481): the vat becomes standby with the mode and ranges, or the answer carries the failure. (DEDUCED, log entry 97) -/
def execCtlEnable (s : State) : Res :=
  .next (match s.takeFrame twinPort (fun f => f.kind == 0xB && fld f.unit 4 4 == 1) with
    | none => s
    | some (x, s1) =>
      let v := fld x.f.unit 0 4
      let word := fun (i : Nat) => leNat ((x.f.data.drop (8 * i)).take 8)
      let ranges : Table W64 := (List.range 8).map (fun i => (i, BitVec.ofNat 64 (word (i + 1))))
      let st := s1.enableCheck v x.f.job ranges (word 9)
      if st != eOk then s1.ctlAnswerTwin v x.f.job st
      else
        let s2 := s1.modVat v (fun y => { y with tw := { y.tw with mode := word 0 % 4, ranges := ranges, standby := true, log := [], logAt := 0 } })
        ((s2.setMstat v 1).sendMack v (s2.vat v).logUnits).ctlAnswerTwin v x.f.job eOk)

/-- A CTL DISABLE arrives (R481). -/
def execCtlDisable (s : State) : Res :=
  .next (match s.takeFrame twinPort (fun f => f.kind == 0xB && fld f.unit 4 4 == 2) with
    | none => s
    | some (x, s1) =>
      let v := fld x.f.unit 0 4
      ((s1.releaseHost v (fun _ => some none)).endMirror v).ctlAnswerTwin v x.f.job eOk)

/-- A CTL HANDOVER arrives (R493): the peer has handed over; its BEATs will show MIRROR. -/
def execCtlHandover (s : State) : Res :=
  .next (match s.takeFrame twinPort (fun f => f.kind == 0xB && fld f.unit 4 4 == 3) with
    | none => s
    | some (x, s1) => s1.ctlAnswerTwin (fld x.f.unit 0 4) x.f.job eOk)

/-- A resync begins (R481, R483). -/
def State.resyncBegin (s : State) (v : Nat) : State :=
  ((s.modVat v (fun x => { x with tw := { x.tw with busy := true, pendCmd := 2, cmdLine := s.mem.nextCmd, units := 0, curBad := none } })).setMstat v 1).twinGo v

/-- A twin control answer arrives (R481): an accepted ENABLE sets the mode and begins a resync. -/
def execCtlrsp (s : State) : Res :=
  .next (match s.takeFrame twinPort (fun f => f.kind == 7) with
    | none => s
    | some (x, s1) =>
      let v := fld x.f.unit 0 4
      let st := fld x.f.unit 8 8
      let w := (s1.vat v).tw
      let s2 := s1.modVat v (fun y => { y with tw := { y.tw with status := st, pendMode := 0, mode := if w.pendMode != 0 && st == eOk then w.pendMode else y.tw.mode } })
      if w.pendMode != 0 && st == eOk then s2.resyncBegin v else s2)

/-! ## Commits on the active (R483-R488) -/

/-- TWIN_VAT_CTL.cmd = COMMIT (R484): legal in STEP mode while READY and SYNCED. (DEDUCED, log entry 100) -/
def execTwinCommit (v : Nat) (s : State) : Res :=
  let x := s.vat v
  .next (if x.tw.mode != 1 || x.tw.standby || x.st != .ready || x.tw.mstat != 2 || x.tw.busy || x.heldOrLater || x.tw.commits.any (·.bad.isSome) then s.twinVatRefuse v eState
    else (s.modVat v (fun y => { y with tw := { y.tw with busy := true, pendCmd := 1, cmdLine := s.mem.nextCmd } })).twinGo v)

/-- TWIN_VAT_CTL.cmd = RESYNC (R483): legal while READY or FREE with a job. (DEDUCED, log entry 100) -/
def execResync (v : Nat) (s : State) : Res :=
  let x := s.vat v
  .next (if x.tw.mode = 0 || x.tw.standby || s.span.tw.st != .active || !(x.st == .ready || (x.st == .free && x.jobValid)) || x.tw.busy || x.heldOrLater
        || !x.tw.commits.isEmpty then s.twinVatRefuse v eState
    else s.resyncBegin v)

/-- A CACK arrives (R486-R488): the commit's releases are made in order; a resync becomes SYNCED; E_POISON lapses the vat, and every
later commit already taken ends with it. (DEDUCED, log entry 98) -/
def execCack (s : State) : Res :=
  .next (match s.takeFrame twinPort (fun f => f.kind == 5) with
    | none => s
    | some (x, s1) =>
      let v := fld x.f.unit 0 4
      let st := fld x.f.unit 8 8
      let no := fld x.f.unit 16 32
      match (s1.vat v).tw.commits with
      | [] => s1
      | c :: rest =>
        if c.no != no then s1
        else
          let ok := st == eOk
          let s2 := s1.releaseHost v (fun k => if ok then (if k = no then some none else none) else some (some st))
          let s3 := s2.modVat v (fun y => { y with tw := { y.tw with
            committed := if ok then BitVec.ofNat 32 no else y.tw.committed, status := st, commits := if ok then rest else [],
            busy := y.tw.busy && !(c.resync || c.cmd), freeUnits := y.tw.freeUnits } })
          let s4 := if ok then (if c.resync then s3.setMstat v 2 else s3) else s3.setMstat v 3
          let s5 := if (s4.vat v).tw.relEn then (s4.addOutside (s4.vat v).tw.relCtr 1).1 else s4
          s5.handoverGo)

/-- A MACK reports freed log units (R485). (DEDUCED, log entry 97) -/
def execMack (s : State) : Res :=
  .next (match s.takeFrame twinPort (fun f => f.kind == 4) with
    | none => s
    | some (x, s1) =>
      s1.modVat (fld x.f.unit 0 4) (fun y =>
        let n := y.tw.freeUnits + fld x.f.unit 4 32
        { y with tw := { y.tw with freeUnits := n, peerUnits := max y.tw.peerUnits n } }))

/-! ## The mirror (R485, R486) -/

/-- Log units of an item. -/
def LogItem.units : LogItem → Nat
  | .write _ d _ => cdiv d.length 256 + 1
  | .record _ d => cdiv d.length 192
  | .commit _ => 0

/-- Does this device take mirror frames of a vat (R485, R494)? -/
def State.takesMirror (s : State) (v : Nat) : Bool :=
  (s.vat v).tw.standby && (s.span.tw.st == .mirror || (s.span.tw.st == .broken && s.span.tw.role))

/-- Put an item into a vat's log: the units written in the log area have contents that are not defined (R485). -/
def State.logItem (s : State) (v : Nat) (i : LogItem) : State :=
  let x := s.vat v
  let n := x.logUnits
  let s1 := (List.range i.units).foldl (fun s k =>
    let u := s.drawBytes 256
    u.2.stackStore (4096 * x.tw.logBase + 256 * ((x.tw.logAt + k) % max n 1)) u.1 (fun _ => false)) s
  s1.modVat v (fun y => { y with tw := { y.tw with log := y.tw.log ++ [i], logAt := (y.tw.logAt + i.units) % max n 1 } })

/-- A captured write arrives (R485). -/
def execMwrite (s : State) : Res :=
  .next (match s.takeFrame twinPort (fun f => f.kind == 8) with
    | none => s
    | some (x, s1) =>
      let v := fld x.f.unit 48 4
      if s1.takesMirror v then s1.logItem v (.write (fld x.f.unit 0 48) x.f.data x.f.bad) else s1)

/-- A mirrored record arrives (R485). -/
def execMrec (s : State) : Res :=
  .next (match s.takeFrame twinPort (fun f => f.kind == 9) with
    | none => s
    | some (x, s1) =>
      let v := fld x.f.unit 0 4
      if s1.takesMirror v then s1.logItem v (.record (fld x.f.unit 4 8) x.f.data) else s1)

/-- A CACK of a commit. -/
def State.sendCack (s : State) (v no status : Nat) : State :=
  s.queueTwin { f := { kind := 5, dst := s.span.tw.cfgPeer, src := s.span.node, job := (s.vat v).jobId, unit := v + status * 2 ^ 8 + no * 2 ^ 16 } }

/-- A COMMIT arrives (R486, R488): it closes a commit and is acknowledged, or with E_POISON its log entries are discarded. -/
def execCommitFrame (s : State) : Res :=
  .next (match s.takeFrame twinPort (fun f => f.kind == 0xA) with
    | none => s
    | some (x, s1) =>
      let v := fld x.f.unit 0 4
      let st := fld x.f.unit 8 8
      let no := fld x.f.unit 16 32
      if !s1.takesMirror v then s1
      else if st = eOk then
        let s2 := (s1.logItem v (.commit no)).modVat v (fun y => { y with tw := { y.tw with committed := BitVec.ofNat 32 no, status := eOk } })
        (s2.setMstat v 2).sendCack v no eOk
      else
        let l := (s1.vat v).tw.log
        let keep := logWhole l
        let freed := (l.drop keep.length).foldl (fun n i => n + LogItem.units i) 0
        let s2 := s1.modVat v (fun y => { y with tw := { y.tw with log := keep, status := st } })
        ((s2.setMstat v 3).sendCack v no st).sendMack v freed)

/-- A mirrored record goes to the standby vat (Table 15.3). (DEDUCED, log entry 98) -/
def State.applyRecord (s : State) (v type : Nat) (d : List Byte) : State :=
  let w := fun (o n : Nat) => leNat ((d.drop o).take n)
  if type = 1 then
    if w 0 4 = 0xFFFFFFFF then
      s.modVat v (fun x => { x with bt := { x.bt with steps := BitVec.ofNat 32 (w 4 4), prev := bit (w 8 4) 0, rot := w 12 8 } })
    else if w 0 4 < (s.vat v).btCount then s.setSeqSlot ((s.vat v).btFirst + w 0 4) (Seq.ofImage (w 4 64)) else s
  else if type = 2 then
    let y := s.ver (w 0 4)
    if 1024 ≤ w 0 4 || (y.defined && y.vat != v) then s else s.setVer (w 0 4) { VerEnt.ofImage (w 4 64) with vat := v }
  else if type = 3 then
    s.modVat v (fun x => { x with srSeed := BitVec.ofNat 64 (w 0 8), srSheet := BitVec.ofNat 32 (w 8 4), mouldId := BitVec.ofNat 64 (w 12 8),
                                  det := { x.det with wmIdx := BitVec.ofNat 32 (w 20 4) } })
  else s

/-- One item of a commit is applied (R486). -/
def State.applyItem (s : State) (v : Nat) : LogItem → State
  | .write a d bad => if s.stackWithin v a d.length then (s.stackPut a d (fun i => bad.has (i / 4))).accountStk v 2 (2 * chargeOf a d.length) else s
  | .record t d => s.applyRecord v t d
  | .commit _ => s

/-- The mirror finishes applying the oldest commit, in log order (R486): version entries that the commit does not list are freed, and its
units are reported. (DEDUCED, log entry 98) -/
def execCommitApplied (v : Nat) (s : State) : Res :=
  let l := (s.vat v).tw.log
  let notEnd := fun (i : LogItem) => match i with | .commit _ => false | _ => true
  let items := l.takeWhile notEnd
  .next (match l.dropWhile notEnd with
    | .commit no :: rest =>
      let listed := items.filterMap (fun i => match i with | .record 2 d => some (leNat (d.take 4)) | _ => none)
      let s0 : State := { s with mem := { s.mem with vers := s.mem.vers.filter (fun p => !(p.2.defined && p.2.vat == v) || listed.contains p.1) } }
      let s1 := items.foldl (fun s i => s.applyItem v i) s0
      let units := items.foldl (fun n i => n + LogItem.units i) 0
      (s1.modVat v (fun x => { x with tw := { x.tw with log := rest, applied := BitVec.ofNat 32 no } })).sendMack v units
    | _ => s)

end Sys2Proof.Machine
end

