-- ==== Sys2Proof/Machine/RegOps.lean ====
section
/-! DEFINITION. Register views: what a read of a register returns and leaves behind, and what a write does, with the rights of its
requester (R12-R18, R612-R615). -/

namespace Sys2Proof.Machine

/-- One register as a requester meets it: its lowest offset, its width in bits (32 or a multiple of 64), its value, the state that a read
leaves (R14, R16), and what a write of word `i` does, with its status. -/
structure RegView where
  base : Nat
  bits : Nat
  value : Nat
  cleared : State
  write : Nat → Nat → State × Nat

/-- The state that an outcome gives. -/
def resState (s : State) (r : Res) : State := match r with | .next t => t | _ => s

/-- Replace 64-bit word `i` of a value (R614). -/
def putWord (old i x : Nat) : Nat := old - fld old (64 * i) 64 * 2 ^ (64 * i) + x % 2 ^ 64 * 2 ^ (64 * i)

/-- A refused access and its status (R613). -/
def State.deny (s : State) (w : Who) (off st : Nat) : State × Nat := (s.regRefuse w st off, st)

/-- A write that only the management core may make; the debug port has its rights (R605). -/
def State.byMgmt (s : State) (w : Who) (off : Nat) (r : State × Nat) : State × Nat := if whoMgmt w then r else s.deny w off ePermission

/-- A write that only the management core and the physical function may make. -/
def State.byHost (s : State) (w : Who) (off : Nat) (r : State × Nat) : State × Nat := if whoMgmt w || w == .pf then r else s.deny w off ePermission

/-- A write to an RW/S field (R14, R18, R598): the management core's before the seal, nobody's after it. -/
def State.bySeal (s : State) (w : Who) (off : Nat) (r : State × Nat) : State × Nat :=
  if s.boot.sealed then s.deny w off eSealed else if w == .core mgmtCore then r else s.deny w off ePermission

/-- A write whose value must pass a test, else `st` and the old value stays. (DESIGN CHOICE, log entry 118) -/
def State.onlyIf (s : State) (w : Who) (off : Nat) (ok : Bool) (st : Nat) (r : State × Nat) : State × Nat := if ok then r else s.deny w off st

/-- A read-only register: writes are ignored (R14). -/
def State.roReg (s : State) (base bits value : Nat) : RegView := ⟨base, bits, value, s, fun _ _ => (s, eOk)⟩

/-- A register that a read clears (R14): `t` is the state it leaves. (DEDUCED, log entry 123) -/
def State.rcReg (s : State) (base bits value : Nat) (t : State) : RegView := ⟨base, bits, value, t, fun _ _ => (s, eOk)⟩

/-- A register that a write sets. -/
def State.rwReg (s : State) (base bits value : Nat) (f : Nat → Nat → State × Nat) : RegView := ⟨base, bits, value, s, f⟩

/-- A register of a vat that a write sets by an update of the vat. -/
def State.vatReg1 (s : State) (v base bits value : Nat) (f : Nat → Nat → Vat → Vat) : RegView :=
  ⟨base, bits, value, s, fun i x => (s.modVat v (f i x), eOk)⟩

/-- Entry `i` of an array of `n` registers of stride `k` at `o`, if `a` lies within one of them. -/
def inArray (a o n k width : Nat) : Option Nat := if o ≤ a && a < o + n * k && (a - o) % k < width then some ((a - o) / k) else none

/-- `n` low bits of an Int as a field (two's complement). -/
def intField (x : Int) (n : Nat) : Nat := wrapInt x n

/-- The source by which a register write gives a vat command. (DEDUCED, log entry 120) -/
def whoCmd : Who → Src
  | .core c => if c = mgmtCore then .mgmt else .vatman
  | .pf => .mgmt
  | .vf _ => .vatman
  | .debug => .debug

end Sys2Proof.Machine
end

