-- ==== Sys2Proof/Machine/RegHub.lean ====
section
/-! DEFINITION. Registers of the blocks PWR, STK, SPAN, TWIN, HOST, SYNCF, ACCT, MGMT and CONN (Tables 21.5, 21.6). -/

namespace Sys2Proof.Machine

/-! ## PWR (Tables 19.6-19.9) -/

/-- A write of the power controller by the management core or the PF, within its range (R583). (DESIGN CHOICE, log entry 118) -/
def State.pwrSet (s : State) (w : Who) (off : Nat) (ok : Bool) (f : Pwr → Pwr) : State × Nat := s.byHost w off (s.onlyIf w off ok eRange (s.modPwr f, eOk))

/-- Is a value within bounds? (DESIGN CHOICE, log entry 118) -/
def within (lo x hi : Nat) : Bool := decide (lo ≤ x) && decide (x ≤ hi)

/-- The PWR block. -/
def State.pwrReg (s : State) (w : Who) (o : Nat) : Option RegView :=
  let p := s.pwr
  let off := 0x140000 + o
  if o = 0 then
    some (s.rwReg off 32 (p.target + b2n (s.wantedPoint != s.hub.dvfs) * 2 ^ 5 + min p.thermLimit p.capLimit * 2 ^ 6 + s.hub.dvfs * 2 ^ 9) (fun _ x =>
      s.pwrSet w off (within 0 (fld x 0 3) 4) (fun p => { p with target := fld x 0 3 })))
  else if o = 4 then some (s.rwReg off 32 (b2n p.sleep + b2n p.asleep * 2) (fun _ x => s.sleepWrite w (bit x 0)))
  else if o = 8 then some (s.rwReg off 32 (p.tripMv + p.relMv * 2 ^ 8) (fun _ x =>
    s.pwrSet w off (within 20 (fld x 0 8) 120 && within 5 (fld x 8 8) 100 && decide (fld x 8 8 < fld x 0 8)) (fun p => { p with tripMv := fld x 0 8, relMv := fld x 8 8 })))
  else if o = 0xC then some (s.rwReg off 32 p.warn (fun _ x => s.pwrSet w off (within 60 (fld x 0 8) 99) (fun p => { p with warn := fld x 0 8 })))
  else if o = 0x10 then
    some (s.rcReg off 32 (levelCode (p.dieLvl ||| p.stackLvl) + p.sensor * 2 ^ 8 + b2n p.tripped * 2 ^ 16) (s.modPwr (fun p => { p with tripped := false })))
  else if o = 0x14 then some (s.rwReg off 32 (p.watts + b2n p.capReq * 2 ^ 12 + p.cEff * 2 ^ 16) (fun _ x =>
    s.pwrSet w off (within 600 (fld x 0 12) 1800) (fun p => { p with watts := fld x 0 12 })))
  else if o = 0x18 then
    some ⟨off, 64, p.warnDv + p.minDv * 2 ^ 16 + p.sag * 2 ^ 32 + p.surge * 2 ^ 48, s.modPwr (fun p => { p with minDv := 0x3FF, sag := 0, surge := 0 }),
      fun _ x => s.pwrSet w off (within 560 (fld x 0 10) 700) (fun p => { p with warnDv := fld x 0 10 })⟩
  else if o = 0x20 then some (s.roReg off 64 p.energy.toNat)
  else if o = 0x14C then some (s.roReg off 32 p.telemSeq.toNat)
  else match inArray o 0x100 19 4 4 with
  | some i => some (s.roReg off 32 (p.telem.get 0 i))
  | none => (inArray o 0x30 1 16 16).map (fun _ =>
      s.rcReg 0x140030 128 (p.droopEps + p.capEps * 2 ^ 16 + p.thermEps * 2 ^ 32 + p.cycles.toNat * 2 ^ 64)
        (s.modPwr (fun p => { p with droopEps := 0, capEps := 0, thermEps := 0, cycles := 0 })))

/-! ## STK (Tables 11.6, 11.7, 11.10-11.12) -/

/-- A wipe is in progress: of some vat's stack regions, or of every stack after a reset (R397, Table 11.11). (DESIGN CHOICE, log entry 115) -/
def State.stkWiping (s : State) : Bool := (s.boot.effect && !s.boot.wiped) || (List.range 16).any (fun v => (s.vat v).st == .wiping || (s.vat v).relWipe)

/-- A write of a share (R499). -/
def State.shareSet (s : State) (w : Who) (off : Nat) (ok : Bool) (t : State) : State × Nat := s.byHost w off (s.onlyIf w off ok eRange (t, eOk))

/-- The STK block. -/
def State.stkReg (s : State) (w : Who) (o : Nat) : Option RegView :=
  let off := 0x180000 + o
  if o = 0x1000 then some (s.rwReg off 32 s.mem.shareSys (fun _ x =>
    s.shareSet w off (decide (fld x 0 9 ≤ 256)) { s with mem := { s.mem with shareSys := fld x 0 9 } }))
  else match inArray o 0 576 4 4 with
  | some g =>
    let e := s.mem.region.get (false, 0) g
    some (s.rwReg off 32 (e.2 + b2n e.1 * 2 ^ 4) (fun _ x =>
      s.bySeal w off ({ s with mem := { s.mem with region := s.mem.region.put g (bit x 4, fld x 0 4) } }, eOk)))
  | none => match inArray o 0x1100 8 8 8 with
  | some i =>
    let k := s.stk i
    some (s.rcReg off 64 (k.corrected + k.uncorrected * 2 ^ 16 + k.scrubFixed * 2 ^ 32 + k.poisonRd * 2 ^ 48)
      (s.modStk i (fun k => { k with corrected := 0, uncorrected := 0, scrubFixed := 0, poisonRd := 0 })))
  | none => match inArray o 0x1200 8 4 4 with
  | some i =>
    let k := s.stk i
    some (s.roReg off 32 (b2n k.ready + b2n k.hot * 2 + b2n s.stkWiping * 4 + k.rows % 16 * 2 ^ 8 + k.temp * 2 ^ 16))
  | none => (inArray o 0x10000 1024 64 64).map (fun i => s.roReg (0x190000 + 64 * i) 512 (s.ver i).image)

/-! ## SPAN (Tables 14.9-14.15) -/

def SpanPerm.word (p : SpanPerm) : Nat :=
  b2n p.en + b2n p.fwd * 2 + b2n p.win * 2 ^ 2 + b2n p.chan * 2 ^ 3 + b2n p.sync * 2 ^ 4 + p.lo * 2 ^ 16 + p.hi * 2 ^ 33
def SpanPerm.ofWord (x : Nat) : SpanPerm :=
  { en := bit x 0, fwd := bit x 1, win := bit x 2, chan := bit x 3, sync := bit x 4, lo := fld x 16 17, hi := fld x 33 17 }

/-- SPAN_CRED0 and SPAN_CRED1 (Table 14.14). -/
def SpanPort.credWord (y : SpanPort) (k : Nat) : Nat := (List.range 4).foldl (fun t i => t + y.pools.get 0 (4 * k + i) * 2 ^ (16 * i)) 0
def SpanPort.setCred (y : SpanPort) (k x : Nat) : SpanPort :=
  { y with pools := (List.range 4).foldl (fun (t : Table Nat) i => t.put (4 * k + i) (fld x (16 * i) 16)) y.pools }
def SpanPort.poolSum (y : SpanPort) : Nat := (List.range 8).foldl (fun t i => t + y.pools.get 0 i) 0

/-- The registers of span port `p`, at offset `o` within them. (DEDUCED, log entry 123) -/
def State.portReg (s : State) (w : Who) (p o : Nat) : Option RegView :=
  let y := s.port p
  let off := 0x1C0100 + 0x40 * p + o
  if o = 0 then some (s.rwReg off 64 y.perm.word (fun _ x => s.bySeal w off (s.modPort p (fun y => { y with perm := SpanPerm.ofWord x }), eOk)))
  else if o = 8 then some (s.rwReg off 32 (b2n y.en + b2n y.dateline * 2 + b2n y.expect * 2 ^ 2 + y.peerNode * 2 ^ 3) (fun _ x => (s.portCtl p x, eOk)))
  else if o = 0x10 then some (s.rcReg off 64 (y.st.code + b2n y.reversed * 2 ^ 8 + y.peer % 2 ^ 17 * 2 ^ 9 + y.peerPort % 8 * 2 ^ 26 + y.retrains * 2 ^ 32
    + min 0xFFFF y.rt * 2 ^ 48) (s.modPort p (fun y => { y with retrains := 0 })))
  else if o = 0x18 then some (s.rcReg off 64 (min 0xFFFF (y.corrected / 256) + y.badPair * 2 ^ 16 + y.resends * 2 ^ 32 + y.badFrame * 2 ^ 48)
    (s.modPort p (fun y => { y with corrected := y.corrected % 256, badPair := 0, resends := 0, badFrame := 0 })))
  else if o = 0x20 || o = 0x28 then
    let k := (o - 0x20) / 8
    some (s.rwReg off 64 (y.credWord k) (fun _ x =>
      s.onlyIf w off (y.st == .disabled) eState (s.onlyIf w off (decide ((y.setCred k x).poolSum ≤ 8192)) eRange (s.modPort p (fun y => y.setCred k x), eOk))))
  else none

/-- Eight SPAN_ROUTE entries from node `n` as one word (Table 14.15). -/
def State.routeWord (s : State) (n : Nat) : Nat := (List.range 8).foldl (fun t i => t + s.span.routes.get 7 (n + i) * 2 ^ (4 * i)) 0

/-- The SPAN block. -/
def State.spanReg (s : State) (w : Who) (o : Nat) : Option RegView :=
  let off := 0x1C0000 + o
  let k := s.span
  if o = 0 then some (s.rwReg off 32 k.node (fun _ x => s.bySeal w off ({ s with span := { k with node := fld x 0 17 } }, eOk)))
  else if o = 8 then some (s.rwReg off 64 (k.reqTo + k.maxHops * 2 ^ 32) (fun _ x =>
    s.byMgmt w off ({ s with span := { k with reqTo := fld x 0 32, maxHops := fld x 32 17 } }, eOk)))
  else if o = 0x10 then some (s.rcReg off 64 (k.permDrops + k.routeDrops * 2 ^ 16 + k.late * 2 ^ 32 + k.lost * 2 ^ 48)
    { s with span := { k with permDrops := 0, routeDrops := 0, late := 0, lost := 0 } })
  else match inArray o 0x10000 16384 4 4 with
  | some i => some (s.rwReg off 32 (s.routeWord (8 * i)) (fun _ x =>
      s.byMgmt w off ({ s with span := { k with routes := (List.range 8).foldl (fun (t : Table Nat) j => t.put (8 * i + j) (fld x (4 * j) 3)) k.routes } }, eOk)))
  | none => (inArray o 0x100 6 0x40 0x40).bind (fun p => s.portReg w p ((o - 0x100) % 0x40))

/-! ## TWIN (Tables 15.5-15.7) -/

/-- The TWIN block. -/
def State.twinReg (s : State) (w : Who) (o : Nat) : Option RegView :=
  let t := s.span.tw
  let off := 0x200000 + o
  if o = 0 then some (s.rwReg off 64 (t.cfgPeer + b2n t.cfgEn * 2 ^ 17 + t.cfgVats.toNat * 2 ^ 18) (fun _ x =>
    s.bySeal w off (s.modTwin (fun t => { t with cfgPeer := fld x 0 17, cfgEn := bit x 17, cfgVats := BitVec.ofNat 16 (fld x 18 16) }), eOk)))
  else if o = 8 then some (s.rwReg off 32 (t.status * 2 ^ 8) (fun _ x => s.byMgmt w off (s.twinCmd (fld x 0 3) {}, eOk)))
  else if o = 0x10 then some ⟨off, 64, t.st.code + b2n t.role * 2 ^ 3 + b2n t.conflict * 2 ^ 7 + b2n t.peerRole * 2 ^ 8 + t.peerState % 8 * 2 ^ 9 + t.missed * 2 ^ 48,
    s.modTwin (fun t => { t with missed := 0 }), fun _ x => (s.modTwin (fun t => { t with conflict := t.conflict && !bit x 7 }), eOk)⟩
  else none

/-! ## HOST (Tables 17.13-17.18) -/

/-- The function through which a requester reaches ring registers; none for the management core and the debug port. -/
def whoFn : Who → Option Nat
  | .pf => some 0
  | .vf n => some (1 + n)
  | _ => none

/-- A write of a ring register other than en: only while the ring is not busy, else ignored and logged (R530). (DEDUCED, log entry 124) -/
def State.ringSet (s : State) (w : Who) (off r : Nat) (f : Ring → Ring) : State × Nat :=
  if (s.ring r).en || (s.ring r).outstanding != 0 then (s.regRefuse w eState off, eOk) else (s.modRing r f, eOk)

/-- A write of HOST_RING_CTL (R530, Table 17.14). -/
def State.ringCtl (s : State) (w : Who) (off r x : Nat) : State × Nat :=
  let y := s.ring r
  let same := fld x 16 11 == y.vec && fld x 8 5 == y.sizeLog2
  let s1 :=
    if y.en || y.outstanding != 0 then (if same then s else s.regRefuse w eState off)
    else s.modRing r (fun y => { y with vec := fld x 16 11, sizeLog2 := fld x 8 5 })
  if !(bit x 0) then (s1.ringStop false r, eOk) else (s1.modRing r (fun y => { y with en := true }), eOk)

def Ring.statWord (y : Ring) : Nat :=
  b2n (y.en || y.outstanding != 0) * 2 + b2n y.halted * 2 ^ 2 + b2n y.phase * 2 ^ 3 + y.outstanding * 2 ^ 8 + y.sqHead * 2 ^ 64 + y.sqTail * 2 ^ 80
    + y.cqTail * 2 ^ 96 + y.cqHead * 2 ^ 112

/-- The registers of ring `r`, at offset `o` within them; a function that does not own the ring reads zero and writes nothing (R519). (DEDUCED, log entry 124) -/
def State.ringReg (s : State) (w : Who) (r o : Nat) : Option RegView :=
  let y := s.ring r
  let b := 0x240000 + 0x40 * r
  let own := match whoFn w with | some fn => s.ownsRing fn r | none => true
  let v :=
    if o = 0 then some (s.rwReg b 64 y.sqBase (fun _ x => s.ringSet w b r (fun y => { y with sqBase := x % 2 ^ 64 / 4096 * 4096 })))
    else if o = 8 then some (s.rwReg (b + 8) 64 y.cqBase (fun _ x => s.ringSet w (b + 8) r (fun y => { y with cqBase := x % 2 ^ 64 / 4096 * 4096 })))
    else if o = 0x10 then some (s.rwReg (b + 0x10) 32 (b2n y.en + y.sizeLog2 * 2 ^ 8 + y.vec * 2 ^ 16) (fun _ x =>
      s.onlyIf w (b + 0x10) (y.en || y.outstanding != 0 || (within 4 (fld x 8 5) 15 && fld x 16 11 < (if s.ringFn r = 0 then 512 else 96))) eRange
        (s.ringCtl w (b + 0x10) r x)))
    else if 0x20 ≤ o && o < 0x30 then some (s.roReg (b + 0x20) 128 y.statWord)
    else none
  if own then v else v.map (fun k => s.roReg k.base k.bits 0)

/-- HOST_MWIN_SEG of a function (Table 17.17). -/
def State.segReg (s : State) (off fn i : Nat) : RegView :=
  s.rwReg off 64 ((s.hostFn fn).segs.get 0 i) (fun _ x => (s.modHostFn fn (fun h => { h with segs := h.segs.put i (fld x 30 18 * 2 ^ 30) }), eOk))

/-- The HOST block. -/
def State.hostReg (s : State) (w : Who) (o : Nat) : Option RegView :=
  let h := s.host
  let off := 0x240000 + o
  if o = 0xF00 then some (s.rwReg off 32 (b2n h.ro + h.ctoUs * 2 ^ 8) (fun _ x =>
    s.byHost w off (s.onlyIf w off (fld x 8 16 != 0) eRange ({ s with host := { h with ro := bit x 0, ctoUs := fld x 8 16 } }, eOk))))
  else if o = 0xF04 then some (s.roReg off 32 (h.width + h.rate * 2 ^ 4 + b2n h.flit * 2 ^ 7 + b2n h.up * 2 ^ 8))
  else if o = 0xF08 then some (s.rcReg off 64 (h.dbRefused + h.cplTimeout * 2 ^ 16 + h.poisonedRx * 2 ^ 32 + h.refused * 2 ^ 48)
    { s with host := { h with dbRefused := 0, cplTimeout := 0, poisonedRx := 0, refused := 0 } })
  else match inArray o 0 17 0x40 0x40 with
  | some r => s.ringReg w r (o % 0x40)
  | none => match inArray o 0x800 8 8 8 with
  | some i => some (s.segReg off 0 i)
  | none => match inArray o 0x900 128 8 8 with
  | some i => some (s.segReg off (1 + i / 8) (i % 8))
  | none => (inArray o 0xE00 16 4 4).map (fun n =>
      let e := h.vfMap.get (false, 0) n
      s.rwReg off 32 (e.2 + b2n e.1 * 2 ^ 4) (fun _ x =>
        s.bySeal w off ({ s with host := { h with vfMap := h.vfMap.put n (bit x 4, fld x 0 4) } }, eOk)))

/-! ## SYNCF (Tables 8.16-8.18) and counters (R622) -/

/-- A counter as a register: the management core and the debug port set any, a vatman the counters of its vat's clusters (Table 8.7); a set
applies at once (R317) and its watches are tested (R283). (DEDUCED, log entry 49) -/
def State.ctrReg (s : State) (w : Who) (off a : Nat) : RegView :=
  let may := whoMgmt w || (match w with | .core c => (s.vatmanVat c).isSome && a < 0x4000 && s.mayAdd c a | _ => false)
  s.rwReg off 32 (s.ctr a) (fun _ x => s.onlyIf w off may ePermission (s.putCtr a (x % 2 ^ 32), eOk))

def GsyncCtl.word (g : GsyncCtl) : Nat := g.owner + b2n g.shared * 2 ^ 4 + b2n g.en * 2 ^ 5

/-- The SYNCF block. -/
def State.syncfReg (s : State) (w : Who) (o : Nat) : Option RegView :=
  let n := s.net
  let off := 0x280000 + o
  if o = 0 then some (s.rcReg off 64 (n.syncfLate + n.syncfRefused * 2 ^ 32) { s with net := { n with syncfLate := 0, syncfRefused := 0 } })
  else if o = 8 then some (s.rcReg off 64 (n.errUnf.get 0 64 + n.errOvf.get 0 64 * 2 ^ 16)
    { s with net := { n with errUnf := n.errUnf.put 64 0, errOvf := n.errOvf.put 64 0 } })
  else match inArray o 0x100 64 4 4 with
  | some i => some (s.rwReg off 32 (s.gsync i).word (fun _ x =>
      s.byMgmt w off (s.setGsync i { en := bit x 5, shared := bit x 4, owner := fld x 0 4 }, eOk)))
  | none => (inArray o 0x200 64 4 4).map (fun i => s.ctrReg w off (0x4000 + i))

/-! ## ACCT (Table 16.8) -/

/-- A write of the accounting registers. (DESIGN CHOICE, log entry 118) -/
def State.acctSet (s : State) (w : Who) (off : Nat) (f : DevAcct → DevAcct) : State × Nat :=
  s.byHost w off ({ s with hub := { s.hub with acct := f s.hub.acct } }, eOk)

/-- A write of ACCT_CTL: per_ms changes only while no vat holds a job (R503). (DEDUCED, log entry 124) -/
def State.acctCtl (s : State) (w : Who) (off x : Nat) : State × Nat :=
  let a := s.hub.acct
  let p := fld x 16 16
  let jobs := (List.range 16).any (fun v => (s.vat v).jobValid)
  s.byHost w off (s.onlyIf w off (p != 0) eRange (s.onlyIf w off (p == a.perMs || !jobs) eState
    (s.acctSet w off (fun a => { a with perMs := p, winIdx := if p = a.perMs then a.winIdx else s.clk.gtc.toNat / (p * 1000000), lost := a.lost && !bit x 5,
                                        en := bit x 4, slotsLog2 := fld x 0 4 }))))

/-- The ACCT block. -/
def State.acctReg (s : State) (w : Who) (o : Nat) : Option RegView :=
  let a := s.hub.acct
  let off := 0x2C0000 + o
  if o = 0 then some (s.rwReg off 32 (s.hub.shareSysSpan + s.hub.shareSysHost * 2 ^ 16) (fun _ x =>
    s.shareSet w off (decide (fld x 0 9 ≤ 256) && decide (fld x 16 9 ≤ 256)) { s with hub := { s.hub with shareSysSpan := fld x 0 9, shareSysHost := fld x 16 9 } }))
  else if o = 8 then some (s.rwReg off 64 (a.slotsLog2 + b2n a.en * 2 ^ 4 + b2n a.lost * 2 ^ 5 + a.perMs * 2 ^ 16 + a.idx.toNat * 2 ^ 32) (fun _ x => s.acctCtl w off x))
  else if o = 0x10 then some (s.rwReg off 64 a.base (fun _ x => s.acctSet w off (fun a => { a with base := fld x 12 36 * 4096 })))
  else if o = 0x18 then some (s.roReg off 64 a.sysEnergy.toNat)
  else if o = 0x20 then some (s.rcReg off 64 (a.lastC + a.clamps * 2 ^ 32) { s with hub := { s.hub with acct := { a with clamps := 0 } } })
  else (inArray o 0x100 16 4 4).map (fun i =>
    s.rwReg off 32 (a.weights.get 0 i) (fun _ x => s.acctSet w off (fun a => { a with weights := a.weights.put i (x % 2 ^ 32) })))

/-! ## MGMT (Tables 18.13, 21.17, R589) -/

/-- The MGMT block. (DEDUCED, log entry 121) -/
def State.mgmtReg (s : State) (w : Who) (o : Nat) : Option RegView :=
  let b := s.boot
  let off := 0x300000 + o
  let mayFlash := w == .core mgmtCore || (w == .debug && (!b.sealed || b.stage == .failed))
  if o = 0 then some (s.rwReg off 32 s.hub.hostToMgmt.toNat (fun _ x => s.byHost w off (resState s (execHostToMgmt x s), eOk)))
  else if o = 4 then some (s.rwReg off 32 s.hub.mgmtToHost.toNat (fun _ x => s.byMgmt w off (resState s (execMgmtToHost x s), eOk)))
  else if o = 0x10 then some (s.rwReg off 32 (b2n b.flashCmd.isSome * 2 ^ 2 + b.flashStatus * 2 ^ 8) (fun _ x => s.flashStart w (fld x 0 2) false))
  else if o = 0x14 then some (s.rwReg off 32 (b.flashPage * 2 ^ 12) (fun _ x =>
    s.onlyIf w off mayFlash ePermission (s.modBoot (fun b => { b with flashPage := fld x 12 10 }), eOk)))
  else match inArray o 0x1000 512 8 8 with
  | some i => some (s.rwReg off 64 (leNat (b.flashBuf.readBytes (8 * i) 8)) (fun _ x =>
      s.onlyIf w off mayFlash ePermission (s.onlyIf w off b.flashCmd.isNone eState
        (s.modBoot (fun b => { b with flashBuf := b.flashBuf.writeBytes (8 * i) (leBytes 8 x) }), eOk))))
  | none => (inArray o 0x10000 0x6000 8 8).map (fun i =>
      let a := 0x8000 + 8 * i
      s.rwReg off 64 (leNat ((s.imem mgmtCore).readBytes a 8)) (fun _ x =>
        s.byMgmt w off (s.onlyIf w off (!b.lock) ePermission (s.modImem mgmtCore (fun m => m.writeBytes a (leBytes 8 x)), eOk))))

/-! ## CONN (Table 21.18) -/

/-- The vat of an open connection's target. -/
def State.connVat (s : State) (k : Conn) : Option Nat := if k.opened then s.vatOfCore k.core else none

/-- CONN_ENTRY: the parties of an entry show while it is open. (DESIGN CHOICE, log entry 122) -/
def State.connWord (s : State) (k : Conn) : Nat :=
  k.gen + (if k.opened then
      2 ^ 12 + ((s.connVat k).getD 0) * 2 ^ 19 + k.ep * 2 ^ 23 + ((s.logOf k.core).getD 0) * 2 ^ 29 + clusterOf k.core * 2 ^ 35 + k.node * 2 ^ 41 + k.peerEp * 2 ^ 58
    else 0)

/-- A close of an entry (R625). (DESIGN CHOICE, log entry 122) -/
def State.connClose (s : State) (w : Who) (i : Nat) : State × Nat :=
  let off := 0x340000 + 16 * i
  let k := s.conn i
  let may := whoMgmt w || (match w with | .core c => k.opened && (s.vatmanVat c).isSome && s.vatmanVat c == s.connVat k | _ => false)
  s.onlyIf w off (may || ((match w with | .core _ => true | _ => false) && !k.opened)) ePermission (s.onlyIf w off k.opened eState (s.closeConn i, eOk))

/-- The CONN block. -/
def State.connReg (s : State) (w : Who) (o : Nat) : Option RegView :=
  (inArray o 0 4096 16 16).map (fun i =>
    s.rwReg (0x340000 + 16 * i) 128 (s.connWord (s.conn i)) (fun k x => if k = 1 && bit x 0 then s.connClose w i else (s, eOk)))

end Sys2Proof.Machine
end

