-- ==== Sys2Proof/Machine/RegCl.lean ====
section
/-! DEFINITION. Cluster blocks and core blocks (Tables 21.8, 21.9). -/

namespace Sys2Proof.Machine

/-! ## Cluster blocks (Table 21.8) -/

/-- CORE_MAP (Table 21.20). -/
def State.coreMap (s : State) (cl : Nat) : Nat :=
  (List.range 64).foldl (fun t p => t + b2n (s.net.fenced.has (coreNo cl p)) * 2 ^ p) 0 + s.disabledPos cl * 2 ^ 64 + s.offers cl * 2 ^ 70

/-- Byte `l` of CORE_REMAP (Table 21.20). -/
def State.remapByte (s : State) (cl l : Nat) : Nat := match s.physOf cl l with | some c => c % 64 + 2 ^ 7 | none => 0

/-- CORE_EVENT (Table 18.11). -/
def State.coreEvent (s : State) (cl : Nat) : Nat :=
  (List.range 63).foldl (fun t l => t + b2n (match s.physOf cl l with | some c => s.irqCause c != 0 | none => false) * 2 ^ l) 0

def RouteEnt.word (x : RouteEnt) : Nat := x.outMask.toNat + x.vat * 2 ^ 5 + b2n x.valid * 2 ^ 9
def RouteEnt.ofWord (d : Nat) : RouteEnt := { outMask := BitVec.ofNat 5 d, vat := fld d 5 4, valid := bit d 9 }

/-- Bits of a trace record (Table 20.10). -/
def TraceRec.word (x : TraceRec) : Nat :=
  x.cycle.toNat % 2 ^ 48 + x.local_ % 64 * 2 ^ 48 + x.kind % 4 * 2 ^ 54 + x.queue % 16 * 2 ^ 56 + x.mop % 256 * 2 ^ 64 + x.status % 256 * 2 ^ 72
    + x.instr % 2 ^ 128 * 2 ^ 128

/-- A write of COUCH_TOP (R406): the vat that owns the cluster must not be LOADING, RUNNING or STOPPING. (DEDUCED, log entry 131) -/
def State.couchTopSet (s : State) (w : Who) (off cl l x : Nat) : State × Nat :=
  let open_ := match s.ownerOf cl with | some v => (s.vat v).couchOpen | none => true
  s.onlyIf w off open_ eState (s.setCouchTop (64 * cl + l) (fld x 0 40), eOk)

/-- The registers of cluster `cl`'s node below 0x100. (DEDUCED, log entry 131) -/
def State.nodeReg (s : State) (w : Who) (cl o : Nat) : Option RegView :=
  let b := 0x600000 + 0x10000 * cl
  let off := b + o
  let d := s.drops cl
  let n := s.net
  let t := s.trace cl
  if o = 0x10 then some (s.rcReg off 64 (d.badHdr + d.routeDrop * 2 ^ 16 + d.meshFenced * 2 ^ 32 + d.ctlFenced * 2 ^ 48) (s.setDrops cl {}))
  else if o = 0x18 then some (s.rcReg off 64 (n.errUnf.get 0 cl + n.errOvf.get 0 cl * 2 ^ 16)
    { s with net := { n with errUnf := n.errUnf.put cl 0, errOvf := n.errOvf.put cl 0 } })
  else if o = 0x20 then some (s.roReg off 64 (s.coreEvent cl))
  else if o = 0x28 then
    let p := s.clPwr cl
    some (s.rwReg off 32 (p.req + p.state * 2 ^ 4 + b2n p.busy * 2 ^ 6) (fun _ x => s.pwrRequest w cl (fld x 0 2)))
  else if o = 0x30 then some ⟨off, 64, b2n t.en + b2n t.freeze * 2 + b2n t.haltFreeze * 4 + t.head * 2 ^ 32 + t.lost * 2 ^ 48, s.setTrace cl { t with lost := 0 },
    fun _ x => (s.setTrace cl { t with en := bit x 0, freeze := bit x 1, haltFreeze := bit x 2 }, eOk)⟩
  else match inArray o 0 1 16 16 with
  | some _ => some (s.roReg b 128 (s.coreMap cl))
  | none => (inArray o 0x40 8 8 8).map (fun i =>
      s.roReg off 64 ((List.range 8).foldl (fun t j => t + s.remapByte cl (8 * i + j) * 2 ^ (8 * j)) 0))

/-- The block of cluster `cl`. -/
def State.clReg (s : State) (w : Who) (cl o : Nat) : Option RegView :=
  let off := 0x600000 + 0x10000 * cl + o
  if o < 0x100 then s.nodeReg w cl o
  else match inArray o 0x100 63 8 8 with
  | some l => some (s.rwReg off 64 (s.couchTop (64 * cl + l)) (fun _ x => s.couchTopSet w off cl l x))
  | none => match inArray o 0x400 256 4 4 with
  | some i => some (s.ctrReg w off (256 * cl + i))
  | none => match inArray o 0x1000 2048 4 4 with
  | some i =>
    let r := coreNo cl (i / 32)
    let e := 2 * (i % 32)
    some (s.rwReg off 32 ((s.route r e).word + (s.route r (e + 1)).word * 2 ^ 16) (fun _ x =>
      s.byMgmt w off ((s.setRoute r e (RouteEnt.ofWord x)).setRoute r (e + 1) (RouteEnt.ofWord (x >>> 16)), eOk)))
  | none => (inArray o 0x4000 2048 8 8).map (fun i => s.roReg off 64 (fld ((s.trace cl).recs.get {} (i / 4)).word (64 * (i % 4)) 64))

/-! ## Core blocks (Table 21.9) -/

/-- CORE_RUN (Table 21.21). (DEDUCED, log entry 131) -/
def State.coreRunWord (s : State) (c : Nat) : Nat :=
  let k := s.ctl c
  let st := match k.run with | .idle => 0 | .running => 1 | .ended => 2 | .halted => 3 | .fenced => 0
  let enl := match s.vatOfCore c with | some v => (s.vat v).enlisted.has c | none => false
  st + k.haltReason.toNat * 2 ^ 8 + b2n (s.gatedNow c) * 2 ^ 16 + b2n (k.mode == 1) * 2 ^ 17 + b2n enl * 2 ^ 18 + c % 64 * 2 ^ 24

/-- MAT_RING_WAIT, with the wait that goes on (Table 4.11). -/
def State.ringCycles (s : State) (c : Nat) : Nat :=
  let x := s.mat c
  satAdd top32 x.ringCycles (if x.ringWait then s.clk.fast.toNat - x.waitSince else 0)

/-- Does the head VEC entry wait on a tile register conflict (Table 5.14)? -/
def State.tileWait (s : State) (c : Nat) : Bool :=
  let x := s.vec c
  match (s.queue c 1).head with
  | none => false
  | some e =>
    if 0xF0 ≤ mMop e || !(mopKnown 1 (mMop e)) then false else
    let (r, usable) := match x.copy with | some (r, st) => (r, st == 0) | none => (0, false)
    let n := vecNeeds e r usable
    let held := fun (o : Option W256) => match o with | some h => tileConflict n (vecNeeds h x.chain true) | none => false
    held x.vec || held x.red

/-- SE_STATUS (Table 6.12). (DEDUCED, log entry 131) -/
def Se.word (x : Se) : Nat :=
  b2n x.entry.isSome + b2n x.waitSwt * 2 + b2n (x.waitTake.isSome || !x.freeTests.isEmpty) * 2 ^ 2 + (match x.moves.getLast? with | some m => if x.full then (if m.dst.dev then 2 ^ 5 else 2 ^ 3) else 0 | none => 0) + b2n (x.slip != 0) * 2 ^ 4 + x.pc % 32 * 2 ^ 8
    + x.mop % 256 * 2 ^ 16 + x.deliveries % 2 ^ 16 * 2 ^ 32

/-- Status registers of physical core `c` below 0x400; `b` is the offset of its block. (DESIGN CHOICE, log entry 7) -/
def State.statReg (s : State) (c b o : Nat) : Option RegView :=
  let off := b + o
  let m := s.mat c
  let x := s.vec c
  let h := s.chn c
  match o with
  | 0x00 => some (s.rwReg off 32 (s.arith c).toNat (fun _ d => (s.setArith c (s.arith c &&& ~~~(BitVec.ofNat 8 d)), eOk)))
  | 0x08 => some (s.roReg off 64 (b2n m.entry.isSome + b2n m.ringWait * 2 ^ 2 + m.mop % 256 * 2 ^ 8 + m.stepsDone % 2 ^ 24 * 2 ^ 16))
  | 0x10 => some (s.rcReg off 32 (s.ringCycles c) (s.modMat c (fun y => { y with ringCycles := 0, waitSince := s.clk.fast.toNat })))
  | 0x14 => some (s.rcReg off 32 (m.parks + m.unparks * 2 ^ 16) (s.modMat c (fun y => { y with parks := 0, unparks := 0 })))
  | 0x18 => some (s.roReg off 64 (b2n x.vec.isSome + b2n x.red.isSome * 2 + b2n (s.tileWait c) * 2 ^ 2 + x.groupsDone % 2 ^ 24 * 2 ^ 8 + x.vecMop % 256 * 2 ^ 32
      + x.redMop % 256 * 2 ^ 40))
  | 0x40 => some (s.rcReg off 32 (s.seOndieLate c + s.seAsyncLate c * 2 ^ 16) ((s.setSeOndieLate c 0).setSeAsyncLate c 0))
  | 0x48 => some (s.rcReg off 64 (s.seJoined c + s.seRequests c * 2 ^ 32) ((s.setSeJoined c 0).setSeRequests c 0))
  | 0x50 => some (s.rcReg off 32 ((s.spad c).eccCor + (s.spad c).eccUnc * 2 ^ 16) (s.modSpad c (fun y => { y with eccCor := 0, eccUnc := 0 })))
  | 0x54 => some (s.rcReg off 32 (h.badPkt + h.refused * 2 ^ 16) (s.modChn c (fun y => { y with badPkt := 0, refused := 0 })))
  | 0x58 => some (s.rwReg off 32 (s.irqCause c).toNat (fun _ d => (s.setIrqCause c (s.irqCause c &&& ~~~(BitVec.ofNat 6 d)), eOk)))
  | 0x5C => some (s.roReg off 32 (s.coreRunWord c))
  | _ => (inArray o 0x20 4 8 8).map (fun e => s.roReg off 64 (s.se c e).word)

/-- CHN_EP_STATUS (Table 8.9). -/
def State.epStatus (s : State) (c e : Nat) : Nat :=
  let x := s.ep c e
  let st := match x.st with | .off => 0 | .ready => 1 | .listen => 2 | .opening => 3 | .opened => 4 | .closed => 5
  let snd := cdRole x.desc == 1
  b2n (s.epBusy c e) + b2n x.stallSince.isSome * 2 + b2n x.deadlock * 2 ^ 2 + b2n x.overrun * 2 ^ 3 + st * 2 ^ 8 + (if snd then x.creditMin else 0) * 2 ^ 12
    + x.spill.length * 2 ^ 28 + x.wp % 256 * 2 ^ 41

/-- CHN_MBOX (Table 8.11). -/
def Ep.mboxWord (x : Ep) : Nat :=
  let m := x.mbox
  leNat m.data % 2 ^ 128 + b2n x.full * 2 ^ 128 + m.data.length % 32 * 2 ^ 129 + m.srcEp % 64 * 2 ^ 134 + m.srcCore % 64 * 2 ^ 140 + m.srcCl % 64 * 2 ^ 146
    + b2n m.remote * 2 ^ 152 + m.srcNode % 2 ^ 17 * 2 ^ 153

/-- A debug write of a channel descriptor, word by word, while the core is IDLE or HALTED (R251, Table 20.9); nobody else writes it. (DEDUCED, log entry 48) -/
def State.chTableWrite (s : State) (w : Who) (off c e i x : Nat) : State × Nat :=
  if w != .debug then (s, eOk)
  else s.onlyIf w off ((s.ctl c).run == .idle || (s.ctl c).run == .halted) eState (s.modEp c e (fun y => { y with desc := putWord y.desc i x }), eOk)

/-- The block of physical core `c`, at offset `o` of a block at `b`. -/
def State.coreReg (s : State) (w : Who) (c b o : Nat) : Option RegView :=
  let off := b + o
  if o < 0x400 then s.statReg c b o
  else match inArray o 0x400 64 8 8 with
  | some e => some (s.rwReg off 64 (s.epStatus c e) (fun _ d =>
      (s.modEp c e (fun y => { y with deadlock := y.deadlock && !bit d 2, overrun := y.overrun && !bit d 3 }), eOk)))
  | none => match inArray o 0x600 64 8 8 with
  | some e =>
    let x := (s.ep c e).stallTo s.clk.fast.toNat
    some (s.rcReg off 64 (x.stall + x.spills * 2 ^ 24 + x.msgs * 2 ^ 40)
      (s.modEp c e (fun y => { y with stall := 0, spills := 0, msgs := 0, stallSince := y.stallSince.map (fun _ => s.clk.fast.toNat) })))
  | none => match inArray o 0x800 64 32 32 with
  | some e => some (s.rwReg (b + 0x800 + 32 * e) 256 (s.ep c e).mboxWord (fun i d =>
      if i = 2 && bit d 0 then (s.modEp c e (fun y => { y with full := false }), eOk) else (s, eOk)))
  | none => (inArray o 0x1000 64 32 32).map (fun e =>
      s.rwReg (b + 0x1000 + 32 * e) 256 (s.ep c e).desc (fun i d => s.chTableWrite w off c e i d))

end Sys2Proof.Machine
end

