-- ==== Sys2Proof/Machine/RegDev.lean ====
section
/-! DEFINITION. Registers of the blocks DEV, IRQ, ERRLOG and GTC, and the batcher window (Tables 21.3, 21.4, Table 13.1). -/

namespace Sys2Proof.Machine

/-! ## DEV (Table 21.3) -/

/-- DEV_ID, DEV_CAP0 and DEV_CAP1 (Tables 21.12, 21.13). -/
def devId : Nat := 0xA1 + 0x0D72 * 2 ^ 16 + 0x2B9 * 2 ^ 32
def devCap0 : Nat := 0xFC0 + 0x40 * 2 ^ 13 + 8 * 2 ^ 20 + 0x48 * 2 ^ 24 + 6 * 2 ^ 32 + 2 ^ 35 + 0x10 * 2 ^ 36 + 8 * 2 ^ 41 + 0x400 * 2 ^ 45 + 0x1F * 2 ^ 56
def devCap1 : Nat := 0x4000 + 0x1000 * 2 ^ 15 + 0x1000 * 2 ^ 28 + 0x400 * 2 ^ 41

/-- Bits of a W1C field that stay after a write (R14). -/
def w1c {n : Nat} (x : BitVec n) (d : Nat) : BitVec n := x &&& ~~~(BitVec.ofNat n d)

/-- PLAN_VAT as a value (Table 9.1). -/
def PlanVat.word (x : PlanVat) : Nat := x.clusters.toNat + x.vatmanCluster.toNat * 2 ^ 64 + b2n x.valid * 2 ^ 70
def PlanVat.ofWord (m : Nat) : PlanVat := { clusters := BitVec.ofNat 64 m, vatmanCluster := BitVec.ofNat 6 (fld m 64 6), valid := bit m 70 }

/-- Resets, boot, protection, lifecycle and fuses (Tables 20.12, 20.13, 9.18, 18.13). -/
def State.bootReg (s : State) (w : Who) (o : Nat) : Option RegView :=
  let b := s.boot
  if o = 0x100 then some (s.rwReg o 32 0 (fun _ x => s.resetWrite w x))
  else if o = 0x104 then some (s.rwReg o 32 (b.cause.toNat + b2n b.merged * 2 ^ 8) (fun _ x =>
    (s.modBoot (fun b => { b with cause := w1c b.cause x, merged := b.merged && !bit x 8 }), eOk)))
  else if o = 0x108 then some (s.roReg o 32 b.statWord)
  else if o = 0x10C then some (s.rwReg o 32 (b2n b.lock) (fun _ x => s.byMgmt w o (s.modBoot (fun b => { b with lock := b.lock || bit x 0 }), eOk)))
  else if o = 0x110 then some (s.rwReg o 32 (b2n s.hub.holdPm) (fun _ x => s.bySeal w o ({ s with hub := { s.hub with holdPm := bit x 0 } }, eOk)))
  else if o = 0x114 then some (s.rwReg o 32 (2 * b2n b.sealed) (fun _ x => if bit x 0 then s.seal w else (s, eOk)))
  else if o = 0x118 then some (s.rwReg o 32 0 (fun _ x =>
    if bit x 3 then s.lcRequest w (fld x 0 2) ((s.spad mgmtCore).mem.readBytes (16 * fld x 8 15) 256) else (s, eOk)))
  else if o = 0x11C then some (s.roReg o 32 b.lcWord)
  else if o = 0x120 then some (s.rwReg o 64 0 (fun _ x => s.fuseWrite w (fld x 0 4) (fld x 4 8) (fld x 16 32)))
  else if o = 0x128 then some (s.rwReg o 32 (s.net.planActive + s.net.planOk.toNat * 2 ^ 3) (fun _ x =>
    s.bySeal w o ({ s with net := { s.net with planActive := fld x 0 3 } }, eOk)))
  else if o = 0x12C then some (s.rwReg o 32 0 (fun _ x => if bit x 12 then s.fenceWrite w (fld x 0 12) else (s, eOk)))
  else none

/-- The fuse shadows (R623, Tables 21.14, 21.16). -/
def State.fuseReg (s : State) (o : Nat) : Option RegView :=
  if o = 0x18 then some (s.roReg o 64 s.serial)
  else if o = 0x1100 then some (s.roReg o 32 (fld (s.fuseWord 3 0) 0 4))
  else if o = 0x1104 then some (s.roReg o 32 (s.fuseWord 2 0))
  else match inArray o 0x1000 4 0x40 48 with
  | some k => some (s.roReg (0x1000 + 0x40 * k) 384 (leNat (s.fuseHash 4 (12 * k))))
  | none => match inArray o 0x1140 1 48 48 with
  | some _ => some (s.roReg 0x1140 384 (leNat (s.fuseHash 1 0)))
  | none => match inArray o 0x1180 16 4 4 with
  | some i => some (s.roReg (0x1180 + 4 * i) 32 (leNat ((List.range 4).map (fun j => BitVec.ofNat 8 (s.disabledPos (4 * i + j))))))
  | none => (inArray o 0x1200 32 4 4).map (fun i => s.roReg (0x1200 + 4 * i) 32 (s.fuseWord 5 (30 + i)))

/-- The DEV block. -/
def State.devReg (s : State) (w : Who) (o : Nat) : Option RegView :=
  let b := s.boot
  if o = 0 then some (s.roReg o 64 devId)
  else if o = 8 then some (s.roReg o 64 devCap0)
  else if o = 0x10 then some (s.roReg o 64 devCap1)
  else if o = 0x60 then some (s.rwReg o 32 (b.viewSel + b2n b.viewEn * 2 ^ 12) (fun _ x =>
    s.byHost w o (s.modBoot (fun b => { b with viewEn := bit x 12, viewSel := fld x 0 12 }), eOk)))
  else if o = 0x64 then some (s.rwReg o 32 (b.scanSel + b2n b.scanEn * 2 ^ 12) (fun _ x =>
    s.byMgmt w o (s.modBoot (fun b => { b with scanEn := bit x 12, scanSel := fld x 0 12 }), eOk)))
  else if 0x100 ≤ o && o < 0x130 then s.bootReg w o
  else match inArray o 0x20 8 8 8 with
  | some i => some (s.rwReg (0x20 + 8 * i) 64 (b.scratch.get 0 i).toNat (fun _ x =>
      s.byMgmt w o (s.modBoot (fun b => { b with scratch := b.scratch.put i (BitVec.ofNat 64 x) }), eOk)))
  | none => match inArray o 0x400 128 16 16 with
  | some i =>
    let y := (s.plan (i / 16) (i % 16)).word
    some (s.rwReg (0x400 + 16 * i) 128 y (fun k x => s.bySeal w o (s.setPlan (i / 16) (i % 16) (PlanVat.ofWord (putWord y k x)), eOk)))
  | none => s.fuseReg o

/-- The batcher window: sequence slots are read only (R422). (DEDUCED, log entry 125) -/
def State.seqReg (s : State) (o : Nat) : RegView := s.roReg (0x400000 + o / 64 * 64) 512 (s.seqSlot (o / 64)).image

/-! ## IRQ (Table 18.9) -/

/-- Targets that a source may name (R542). -/
def State.irqMay (s : State) (n : Nat) : Nat :=
  let own := if n < 512 then s.ownerOf (n / 8) else if n < 640 then some ((n - 512) / 8) else none
  1 + 2 ^ 17 + (match own with | some v => 2 ^ (1 + v) | none => 0)

def IrqSrc.word (x : IrqSrc) : Nat := b2n x.pending + b2n x.active * 2 + x.assigned.getD 0x1F * 2 ^ 8 + x.last * 2 ^ 16

/-- IRQ_CLAIM and IRQ_COMPLETE of a target, at an offset of their own (R545). -/
def State.claimReg (s : State) (o t : Nat) : RegView := s.rcReg o 32 (s.irqClaim t true).1 (s.irqClaim t false).2
def State.completeReg (s : State) (w : Who) (o t : Nat) : RegView := s.rwReg o 32 0 (fun _ x => (s.irqComplete w t (fld x 0 10), eOk))

/-- The IRQ block. (DEDUCED, log entry 125) -/
def State.irqReg (s : State) (w : Who) (o : Nat) : Option RegView :=
  let off := 0x40000 + o
  match inArray o 0 1024 4 4 with
  | some n => some (s.rwReg off 32 (s.irqSrc n).tgt.toNat (fun _ x =>
      s.byMgmt w off (s.onlyIf w off (fld x 0 18 &&& s.irqMay n == fld x 0 18) ePermission
        ((s.modIrqSrc n (fun y => { y with tgt := BitVec.ofNat 18 x })).irqSettle (s.irqLine 17), eOk))))
  | none => match inArray o 0x1000 1024 4 4 with
  | some n => some (s.roReg off 32 (s.irqSrc n).word)
  | none => match inArray o 0x2000 18 16 12 with
  | none => none
  | some t =>
    if o % 16 = 0 then some (s.claimReg off t)
    else if o % 16 = 4 then some (s.completeReg w off t)
    else some (s.rwReg off 32 (b2n (s.irqTgt t).en + (s.irqTgt t).vec.toNat * 2 ^ 16) (fun _ x =>
      ((s.setIrqTgt t { en := bit x 0, vec := if t = 17 then BitVec.ofNat 11 (fld x 16 11) else 0 }).irqSettle (s.irqLine 17), eOk)))

/-! ## ERRLOG (Table 18.12) -/

def WakeSel.word (x : WakeSel) : Nat := x.src.toNat + b2n x.en * 2 ^ 10 + b2n x.wake * 2 ^ 11 + b2n x.latch * 2 ^ 12

/-- The ERRLOG block. -/
def State.logReg (s : State) (w : Who) (o : Nat) : Option RegView :=
  let h := s.hub
  let off := 0x80000 + o
  if o = 0 then some (s.roReg off 32 h.logHead)
  else if o = 4 then some (s.rwReg off 32 h.logTail (fun _ x => s.logTailWrite w x))
  else if o = 8 then some (s.rwReg off 32 (b2n h.logOwnerPf) (fun _ x => s.byMgmt w off ({ s with hub := { h with logOwnerPf := bit x 0 } }, eOk)))
  else if o = 0xC then some (s.rwReg off 32 (h.holders.length + b2n h.logOvf * 2 ^ 16) (fun _ x =>
    ({ s with hub := { h with logOvf := h.logOvf && !bit x 16 } }, eOk)))
  else if o = 0x180 then some (s.rcReg off 32 h.wakeLost { s with hub := { h with wakeLost := 0 } })
  else match inArray o 0x100 32 4 4 with
  | some i => some (s.rwReg off 32 (s.wakeSel i).word (fun _ x =>
      s.byMgmt w off (s.modWakeSel i (fun y => { y with src := BitVec.ofNat 10 x, en := bit x 10, wake := bit x 11 }), eOk)))
  | none => (inArray o 0x4000 512 32 32).map (fun i => s.roReg (0x84000 + 32 * i) 256 (h.log.get {} i).word)

/-! ## GTC (Tables 10.12-10.15, 18.13) -/

/-- GTC_SYNC_STAT (Table 10.14). -/
def GtcSync.stat (g : GtcSync) : Nat :=
  g.st.code + intField (max (-32767) (min 32767 g.offset)) 16 * 2 ^ 2 + min 0xFFFF g.delay * 2 ^ 18 + g.hops % 2 ^ 17 * 2 ^ 34 + intField g.trim 13 * 2 ^ 51

/-- A write of GTC_SYNC_CTL (Tables 10.3, 10.13). -/
def State.syncCtl (s : State) (x : Nat) : State :=
  let root := fld x 0 3 == 7
  let s1 := (s.modGs (fun g => { g with perLog2 := fld x 4 5, en := bit x 3, upPort := fld x 0 3, hops := if root then 0 else g.hops,
                                        root := if root then none else g.root })).keepLocked
  if !(bit x 3) || root then s1.unlock .free
  else if s.hub.gs.st == .free then s1.modGs (fun g => { g with st := .acquire, good := 0, badN := 0 })
  else s1

/-- The least slot length that DET_REFSLOT accepts (R362). -/
def minSlot (period : Nat) : Nat := 40 + 20 * cdiv (24576 * period) 16000000

/-- The GTC block. (DEDUCED, log entry 126) -/
def State.gtcReg (s : State) (w : Who) (o : Nat) : Option RegView :=
  let h := s.hub
  let off := 0xC0000 + o
  if o = 0 then some (s.roReg off 64 s.clk.gtc.toNat)
  else if o = 8 then some (s.rwReg off 64 0 (fun _ x =>
    s.byMgmt w off (s.onlyIf w off (!s.anyRunning) eState (resState s (execGtcSet (BitVec.ofNat 64 x) s), eOk))))
  else if o = 0x10 then some (s.rwReg off 32 (h.gs.upPort + b2n h.gs.en * 2 ^ 3 + h.gs.perLog2 * 2 ^ 4) (fun _ x =>
    s.byMgmt w off (s.onlyIf w off (decide (10 ≤ fld x 4 5) && decide (fld x 4 5 ≤ 24)) eRange (s.syncCtl x, eOk))))
  else if o = 0x18 then some (s.roReg off 64 h.gs.stat)
  else if o = 0x20 then
    let r := h.refPend.getD (h.refPeriod, h.refLen, h.refEn)
    some (s.rwReg off 32 (b2n r.2.2 + r.2.1 * 2 ^ 4 + r.1 * 2 ^ 16) (fun _ x =>
      let p := fld x 16 16
      let n := fld x 4 12
      s.byMgmt w off (s.onlyIf w off (p % 20 == 0 && decide (n < p) && decide (minSlot p ≤ n)) eRange
        ({ s with hub := { h with refPend := some (p, n, bit x 0) } }, eOk))))
  else if o = 0x28 then some (s.rwReg off 64 h.gtcAlarm.toNat (fun _ x =>
    s.byMgmt w off ({ s with hub := { h with gtcAlarm := BitVec.ofNat 64 x, alarmDone := false } }, eOk)))
  else none

end Sys2Proof.Machine
end

