-- ==== Sys2Proof/Machine/RegScan.lean ====
section
/-! DEFINITION. The debug scan window (R620): the slot of a halted core in the layout of Table 9.11. -/

namespace Sys2Proof

/-- The 8 B word that shows where a scan-out writes no bytes of a core slot (R322). (DESIGN CHOICE, log entry 130) -/
opaque Config.scanWord : Machine.CoreSnap → Nat → Nat

/-- The core slot after a write of an 8 B word at an offset outside sections 10 and 11, in the same open layout; none leaves it as it is. (DESIGN CHOICE, log entry 130) -/
opaque Config.scanPut : Machine.CoreSnap → Nat → Nat → Option Machine.CoreSnap

end Sys2Proof

namespace Sys2Proof.Machine

/-- The section of a slot that an offset lies in (Table 9.11). -/
def scanSection (o : Nat) : Nat :=
  if o < 0x100 then 0 else if o < 0x1000 then 1 else if o < 0x3000 then 2 else if o < 0x4000 then 3 else if o < 0x9000 then 4
  else if o < 0xE000 then 5 else if o < 0x13000 then 6 else if o < 0x1F000 then 7 else if o < 0x28000 then 8 else if o < 0x38000 then 9
  else if o < 0x80000 then 10 else 11

/-- The parts of a slot that a section holds, taken from `n` and put into `x` (Table 9.11). -/
def CoreSnap.takeSection (x n : CoreSnap) (k : Nat) : CoreSnap :=
  if k = 1 then { x with ctl := n.ctl, queues := n.queues }
  else if k = 2 then { x with eps := n.eps, chn := n.chn }
  else if k = 3 || k = 7 || k = 8 then { x with ses := n.ses }
  else if k = 4 then { x with mat := n.mat }
  else if k = 5 || k = 9 then { x with vec := n.vec }
  else if k = 6 then { x with spad := { x.spad with poison := n.spad.poison }, vec := { x.vec with tiles := n.vec.tiles } }
  else x

/-- Put a slot back into its core. -/
def State.putSnap (s : State) (c : Nat) (x : CoreSnap) : State :=
  let s1 := (((((s.setCtl c x.ctl).setChn c x.chn).setMat c x.mat).setVec c x.vec).setImem c x.imem).setSpad c x.spad
  let s2 := (List.range 7).foldl (fun s q => s.setQueue c q (x.queues.get {} q)) s1
  let s3 := (List.range 64).foldl (fun s e => s.setEp c e (x.eps.get {} e)) s2
  (List.range 4).foldl (fun s e => s.setSe c e (x.ses.get {} e)) s3

/-- Bytes of a slot that have their own place: the instruction store and the scratchpad. -/
def inStore (o : Nat) : Bool := decide (0x38000 ≤ o) && decide (o < 0x40000)
def inSpad (o : Nat) : Bool := decide (0x80000 ≤ o) && decide (o < 0x100000)

/-- The byte at offset `o` of a slot that a scan-out would write now, the directory of section 0 among its bytes (R322, R620); none where it writes none. -/
def slotByte (x : CoreSnap) (o : Nat) : Option Byte :=
  let l := slotSections x
  if o < 256 then (slotDir l)[o]?
  else (l.find? (fun p => decide (p.2.1 ≤ o) && decide (o < p.2.1 + p.2.2.length))).bind (fun p => p.2.2[o - p.2.1]?)

/-- The 8 B word at offset `o` of the window. -/
def State.scanWord (s : State) (c o : Nat) : Nat :=
  if inStore o then leNat ((s.imem c).readBytes (o - 0x38000) 8)
  else if inSpad o then leNat ((s.spad c).mem.readBytes (o - 0x80000) 8)
  else
    let x := s.coreSnap c
    leNat ((List.range 8).map (fun i => (slotByte x (o + i)).getD (BitVec.ofNat 8 (Config.scanWord x o / 2 ^ (8 * i)))))

/-- A write of an 8 B word at offset `o` of the window. -/
def State.scanPut (s : State) (c o x : Nat) : State :=
  if inStore o then s.modImem c (fun m => m.writeBytes (o - 0x38000) (leBytes 8 x))
  else if inSpad o then s.spadPut c (o - 0x80000) (leBytes 8 x) (fun _ => false)
  else match Config.scanPut (s.coreSnap c) o x with
    | some n => s.putSnap c ((s.coreSnap c).takeSection n (scanSection o))
    | none => s

/-- Does a core belong to a killed vat whose wipe has not completed (R36)? -/
def State.sealedOff (s : State) (c : Nat) : Bool := s.coreVatSt c == some .faulted || s.coreVatSt c == some .wiping

/-- May the window be used (R620)? What a killed vat left is shown to the debug port alone, under HOLD_POSTMORTEM (R36). -/
def State.scanOpen (s : State) (w : Who) : Nat :=
  let c := s.boot.scanSel
  if !(whoMgmt w) then ePermission
  else if s.sealedOff c && !(w == .debug && s.hub.holdPm) then ePermission
  else if !s.boot.scanEn then eRange
  else if c % 64 = s.disabledPos (clusterOf c) || s.net.fenced.has c then eFenced
  else if (s.ctl c).run != .halted then eState
  else eOk

/-- May a word of the window be written (Table 20.9): section 1 for any halt reason, the others for reasons 4-6? (DESIGN CHOICE, log entry 130) -/
def State.scanWritable (s : State) (o : Nat) : Bool :=
  let r := (s.ctl s.boot.scanSel).haltReason
  scanSection o == 1 || r == 4 || r == 5 || r == 6

/-- A read through the window: 8 B words. (DESIGN CHOICE, log entry 130) -/
def State.scanRead (s : State) (w : Who) (o size : Nat) : State × Nat × Nat :=
  let off := 0x3000000 + o
  if whoMgmt w && (size != 8 || o % 8 != 0) then (s.regRefuse w eRange off, eRange, 0)
  else
    let st := s.scanOpen w
    if st != eOk then (s.regRefuse w st off, st, 0) else (s, eOk, s.scanWord s.boot.scanSel o)

/-- A write through the window. (DESIGN CHOICE, log entry 130) -/
def State.scanWrite (s : State) (w : Who) (o size x : Nat) : State × Nat :=
  let off := 0x3000000 + o
  if whoMgmt w && (size != 8 || o % 8 != 0) then s.deny w off eRange
  else
    let st := s.scanOpen w
    if st != eOk then s.deny w off st
    else s.onlyIf w off (s.scanWritable o) eState (s.scanPut s.boot.scanSel o (x % 2 ^ 64), eOk)

end Sys2Proof.Machine
end

