-- ==== Sys2Proof/Machine/RegVat.lean ====
section
/-! DEFINITION. The vat control block (Table 21.7). -/

namespace Sys2Proof.Machine

/-- Codes of Tables 9.2, 9.8 and 16.7. -/
def VatSt.code : VatSt → Nat
  | .free => 0 | .loading => 1 | .ready => 2 | .running => 3 | .stopping => 4 | .scanned => 5 | .wiping => 6 | .faulted => 7
def LdSt.code : LdSt → Nat
  | .idle => 0 | .header => 1 | .check => 2 | .write => 3 | .finish => 4
def ReclaimStep.code : ReclaimStep → Nat
  | .none => 0 | .pending => 1 | .stopping => 2 | .held => 3 | .evacuating => 4 | .wiping => 5

/-- A command written to VAT_CTL (Table 9.12); 0 gives none and the other reserved codes are refused. (DEDUCED, log entry 119) -/
def State.vatCmd (s : State) (w : Who) (v cmd : Nat) : State :=
  let src := whoCmd w
  match cmd with
  | 0 => s
  | 1 => resState s (execLoad v src s)
  | 2 => resState s (execAbort v src s)
  | 3 => resState s (execRelease v src s)
  | 4 => resState s (execStart v src s)
  | 5 => resState s (execScanIn v src s)
  | 6 => resState s (execResume v src s)
  | _ => s.refuseCmd v {} eFormat

/-- State, loading and scanning (Tables 9.12-9.17). -/
def State.vatLoadReg (s : State) (w : Who) (v b o : Nat) : Option RegView :=
  let x := s.vat v
  match o with
  | 0x00 => some (s.rwReg b 64 (x.ctlStatus * 2 ^ 8) (fun _ d => (s.vatCmd w v (fld d 0 4), eOk)))
  | 0x08 => some (s.roReg b 64 (x.st.code + x.ld.code * 2 ^ 4 + b2n (!x.deckle.isEmpty) * 2 ^ 7))
  | 0x10 => some (s.vatReg1 v b 64 x.loadSrc (fun _ d y => { y with loadSrc := fld d 12 36 * 4096 }))
  | 0x18 => some (s.vatReg1 v b 64 x.scanBase (fun _ d y => { y with scanBase := fld d 12 36 * 4096 }))
  | 0x20 => some (s.roReg b 64 (x.progDone + x.progAttempts * 2 ^ 32))
  | 0x28 => some (s.roReg b 64 (x.loadErr.index + x.loadErr.status * 2 ^ 32 + b2n x.loadErr.valid * 2 ^ 40))
  | 0x30 => some (s.roReg b 64 x.mouldId.toNat)
  | 0x38 => some (s.vatReg1 v b 64 x.drainTo (fun _ d y => { y with drainTo := fld d 0 32 }))
  | 0x40 => some (s.rcReg b 64 (min top16 x.heldIncs.length + x.deckleOverflow * 2 ^ 16 + x.deckleRefused * 2 ^ 32)
      (s.modVat v (fun y => { y with deckleOverflow := 0, deckleRefused := 0 })))
  | 0x48 => some (s.vatReg1 v b 64 x.srSeed.toNat (fun _ d y => { y with srSeed := BitVec.ofNat 64 d }))
  | 0x50 => some (s.roReg b 32 x.srSheet.toNat)
  | 0x54 => some (s.vatReg1 v b 32 x.ackWin (fun _ d y => { y with ackWin := fld d 0 24 }))
  | 0x58 => some (s.rwReg b 32 (x.dlLog2 + x.openTo * 2 ^ 5) (fun _ d =>
      s.onlyIf w b (decide (10 ≤ fld d 0 5) && decide (fld d 0 5 ≤ 30)) eRange (s.modVat v (fun y => { y with dlLog2 := fld d 0 5, openTo := fld d 5 24 }), eOk)))
  | 0x5C => some (s.vatReg1 v b 32 x.xsyncDelay (fun _ d y => { y with xsyncDelay := d % 2 ^ 32 }))
  | _ => none

/-- Determinism (Tables 10.7-10.11) and VAT_PWR_CTL. -/
def State.vatDetReg (s : State) (v b o : Nat) : Option RegView :=
  let x := s.vat v
  let t := x.det
  match o with
  | 0x60 => some (s.rwReg b 32 (b2n t.det + b2n t.brkIrq * 2 + b2n t.arm * 2 ^ 2) (fun _ d => (resState s (execArm v (BitVec.ofNat 32 (d % 8)) s), eOk)))
  | 0x64 => some (s.vatReg1 v b 32 x.gateIdle (fun _ d y => { y with gateIdle := fld d 0 16 }))
  | 0x68 => some (s.vatReg1 v b 64 t.launch.toNat (fun _ d y => { y with det := { y.det with launch := BitVec.ofNat 64 d } }))
  | 0x80 => some (s.roReg b 64 (t.count % 2 ^ 32))
  | 0x88 => some (s.vatReg1 v b 64 t.wmBase (fun _ d y => { y with det := { y.det with wmBase := fld d 12 36 * 4096 } }))
  | 0x90 => some (s.vatReg1 v b 64 (t.wmSlots + b2n t.wmDrop * 2 ^ 4 + t.wmIdx.toNat * 2 ^ 32)
      (fun _ d y => { y with det := { y.det with wmSlots := fld d 0 4, wmDrop := y.det.wmDrop && !bit d 4 } }))
  | _ => match inArray o 0x70 1 16 16 with
    | some _ => some (s.roReg (b - o % 16) 128 (t.firstCause * 2 ^ 24 + t.mask.toNat * 2 ^ 32 + t.firstCycle.toNat * 2 ^ 64))
    | none => (inArray o 0xA0 4 8 8).map (fun i => s.vatReg1 v b 64 (t.wmRange.get 0 i).toNat
        (fun _ d y => { y with det := { y.det with wmRange := y.det.wmRange.put i (BitVec.ofNat 64 (fld d 0 60 + fld d 63 1 * 2 ^ 63)) } }))

/-- VM_CTL (Table 20.14). -/
def State.vmWord (s : State) (v : Nat) : Nat :=
  (s.vat v).vmEntry + (s.vat v).vmEvec * 2 ^ 16 + b2n (match s.vatmanOf v with | some c => (s.ctl c).run == .running | none => false) * 2 ^ 31

/-- A write of TWIN_VAT_CTL (Table 15.8): rel_ctr, rel_en and a mode that differs from the one in force, then the command. (DEDUCED, log entry 119; DEDUCED, log entry 120) -/
def State.twinCtlWrite (s : State) (v d : Nat) : State :=
  let cmd := fld d 2 3
  let s1 := if fld d 0 2 = (s.vat v).tw.mode then s.twinVatCtl v d
    else if fld d 0 2 = 0 then resState s (execMirrorDisable v d s)
    else resState s (execMirrorEnable v d s)
  if cmd = 0 then s1
  else if cmd = 1 then resState s1 (execTwinCommit v s1)
  else if cmd = 2 then resState s1 (execResync v s1)
  else s1.twinVatRefuse v eFormat

/-- A write of a couch register (R406). -/
def State.couchSet (s : State) (w : Who) (v b : Nat) (f : Vat → Vat) : State × Nat := s.onlyIf w b (s.vat v).couchOpen eState (s.modVat v f, eOk)

/-- Is `n` a power of two within 1-16,384? (DESIGN CHOICE, log entry 118) -/
def pageTokensOk (n : Nat) : Bool := (List.range 15).any (fun k => n == 2 ^ k)

/-- Jobs, shares, messages and the other words at 0xC0-0xFF. (DEDUCED, log entry 133) -/
def State.vatJobReg (s : State) (w : Who) (v b o : Nat) : Option RegView :=
  let x := s.vat v
  match o with
  | 0xC0 => some (s.rwReg b 32 (x.jobId + b2n x.jobValid * 2 ^ 16 + b2n x.relWipe * 2 ^ 17)
      (fun _ _ => match w with | .vf _ => s.deny w b ePermission | _ => (s, eOk)))
  | 0xC4 => some (s.rwReg b 32 (x.shareSpan + x.shareHost * 2 ^ 16) (fun _ d =>
      s.byHost w b (s.onlyIf w b (decide (fld d 0 9 ≤ 256) && decide (fld d 16 9 ≤ 256)) eRange
        (s.modVat v (fun y => { y with shareSpan := fld d 0 9, shareHost := fld d 16 9 }), eOk))))
  | 0xC8 => some (s.rwReg b 32 x.stkShare (fun _ d =>
      s.byHost w b (s.onlyIf w b (decide (fld d 0 9 ≤ 256)) eRange (s.modVat v (fun y => { y with stkShare := fld d 0 9 }), eOk))))
  | 0xCC => some (s.rcReg b 32 x.versionWaits (s.modVat v (fun y => { y with versionWaits := 0 })))
  | 0xD0 => some (s.vatReg1 v b 32 x.stkArith.toNat (fun _ d y => { y with stkArith := y.stkArith &&& ~~~(BitVec.ofNat 8 d) }))
  | 0xD4 => some (s.rwReg b 32 (s.vmWord v) (fun _ d => s.vmWrite w v d))
  | 0xD8 => some (s.rwReg b 32 x.hostMsg.toNat (fun _ d => ((s.modVat v (fun y => { y with hostMsg := BitVec.ofNat 32 d })).fireVat v 5, eOk)))
  | 0xDC => some (s.vatReg1 v b 32 (b2n x.containStop) (fun _ d y => { y with containStop := bit d 0 }))
  | 0xE0 => some (s.rcReg b 32 (s.irqClaim (1 + v) true).1 (s.irqClaim (1 + v) false).2)
  | 0xE4 => some (s.rwReg b 32 0 (fun _ d => (s.irqComplete w (1 + v) (fld d 0 10), eOk)))
  | 0xE8 => some (s.rcReg b 32 (s.span.lateWrites.get 0 v) { s with span := { s.span with lateWrites := s.span.lateWrites.put v 0 } })
  | 0xEC => some (s.rwReg b 32 x.couchPages (fun _ d => s.couchSet w v b (fun y => { y with couchPages := fld d 0 24 })))
  | 0xF0 => some (s.rwReg b 32 0 (fun _ d => s.onlyIf w b x.couchOpen eState (if bit d 0 then resState s (execCouchReset v s) else s, eOk)))
  | 0xF4 => some (s.vatReg1 v b 32 (b2n x.balEn + b2n x.balActive * 2) (fun _ d y => { y with balEn := bit d 0 }))
  | 0xF8 => some (s.rwReg b 32 (x.bt.pageTokens + x.bt.ptStride * 2 ^ 16) (fun _ d =>
      s.onlyIf w b (!x.bt.busy) eState (s.onlyIf w b (pageTokensOk (fld d 0 15)) eRange
        (s.modVat v (fun y => { y with bt := { y.bt with pageTokens := fld d 0 15, ptStride := fld d 16 16 } }), eOk))))
  | 0xFC => some (s.rwReg b 32 (x.tw.mode + b2n x.tw.relEn * 2 ^ 5 + x.tw.relCtr * 2 ^ 6) (fun _ d => (s.twinCtlWrite v d, eOk)))
  | _ => none

/-- Do two ranges of slots meet? An empty one meets none. -/
def rangesMeet (a n b m : Nat) : Bool := n != 0 && m != 0 && meets a n b m

/-- A write of VAT_ADV_RANGE (R409). (DEDUCED, log entry 125) -/
def State.advRange (s : State) (w : Who) (v b d : Nat) : State × Nat :=
  let a := fld d 0 12
  let n := fld d 12 13
  let clash := (List.range 16).any (fun u => u != v && rangesMeet a n (s.vat u).advFirst (s.vat u).advCount)
  s.byMgmt w b (s.onlyIf w b (decide (a + n ≤ 4096) && !clash) eRange (s.modVat v (fun y => { y with advFirst := a, advCount := n }), eOk))

/-- A write of VAT_BATCH_RANGE (R421). (DEDUCED, log entry 125) -/
def State.batchRange (s : State) (w : Who) (v b d : Nat) : State × Nat :=
  let x := s.vat v
  let a := fld d 0 14
  let n := fld d 15 15
  let clash := (List.range 16).any (fun u => u != v && rangesMeet a n (s.vat u).btFirst (s.vat u).btCount)
  let lost := (List.range x.btCount).any (fun i => !(decide (a ≤ x.btFirst + i) && decide (x.btFirst + i < a + n)) && (s.seqSlot (x.btFirst + i)).st != .empty)
  s.byMgmt w b (s.onlyIf w b (decide (a + n ≤ 16384) && !clash) eRange (s.onlyIf w b (!lost) eState
    (s.modVat v (fun y => { y with btFirst := a, btCount := n }), eOk)))

/-- A write of VAT_ADV_CTL (Table 12.12). (DEDUCED, log entry 119) -/
def State.advCtlWrite (s : State) (v d : Nat) : State :=
  let cmd := fld d 0 2
  if cmd = 1 then resState s (execAdvLoad v d s)
  else if cmd = 2 then resState s (execAdvClose v d s)
  else if cmd = 3 then (s.advCtl v d).advRefuse v eFormat
  else s.advCtl v d

/-- A write of VAT_BATCH_CTL (Table 13.13). -/
def State.batchCtlWrite (s : State) (w : Who) (v d : Nat) : State :=
  let s1 := s.modVat v (fun y => { y with bt := { y.bt with ctr := fld d 5 15, ctrEn := bit d 4 } })
  let cmd := fld d 0 2
  if cmd = 1 then resState s1 (execStep v (whoCmd w) s1)
  else if cmd = 2 then resState s1 (execStepNoadv v (whoCmd w) s1)
  else if cmd = 3 then resState s1 (execBatchReset v (whoCmd w) s1)
  else s1

/-- A write of SEQ_CMD (R425, Table 13.14). (DEDUCED, log entry 119) -/
def State.seqCmdWrite (s : State) (v d : Nat) : State :=
  let op := fld d 16 3
  if op = 0 || op = 7 then s.seqAnswer v { op := op, slot := fld d 0 14 } eFormat 0
  else s.seqVatman v op (fld d 0 14) (if op = 6 then fld d 40 16 else 0)

/-- The bucket table of a 256-bit value, and the rules of R431. -/
def bktOf (m : Nat) : Table Nat := (List.range 8).map (fun j => (j, fld m (32 * j) 32))
def bktOk (m : Nat) : Bool :=
  fld m 0 32 != 0 && (List.range 7).all (fun j =>
    let a := fld m (32 * j) 32
    let c := fld m (32 * (j + 1)) 32
    c == 0 || (a != 0 && decide (a < c)))

/-- Couch, advisor and batcher (Tables 12.7-12.12, 13.10-13.14). -/
def State.vatAreaReg (s : State) (w : Who) (v b o : Nat) : Option RegView :=
  let x := s.vat v
  let k := x.bt
  match o with
  | 0x120 => some (s.rwReg b 64 x.couchBase (fun _ d => s.couchSet w v b (fun y => { y with couchBase := fld d 12 36 * 4096 })))
  | 0x128 => some (s.rcReg b 64 x.couchHwm (s.modVat v (fun y => { y with couchHwm := 0 })))
  | 0x130 => some (s.rwReg b 64 (x.advFirst + x.advCount * 2 ^ 12) (fun _ d => s.advRange w v b d))
  | 0x138 => some (s.vatReg1 v b 64 x.advBase (fun _ d y => { y with advBase := fld d 16 32 * 65536 }))
  | 0x140 => some (s.rwReg b 64 (b2n x.advBusy * 2 ^ 3 + b2n x.advCtrEn * 2 ^ 4 + x.advCtr * 2 ^ 5 + x.advStatus * 2 ^ 24 + x.advCloses.toNat * 2 ^ 32)
      (fun _ d => (s.advCtlWrite v d, eOk)))
  | 0x148 => some (s.rcReg b 64 (x.advForeign + x.advBadPolicy * 2 ^ 16) (s.modVat v (fun y => { y with advForeign := 0, advBadPolicy := 0 })))
  | 0x150 => some (s.rwReg b 64 (x.btFirst + x.btCount * 2 ^ 15) (fun _ d => s.batchRange w v b d))
  | 0x158 => some (s.vatReg1 v b 64 k.base (fun _ d y => { y with bt := { y.bt with base := fld d 12 36 * 4096 } }))
  | 0x160 => some (s.rwReg b 64 (k.rows + k.tokens * 2 ^ 16 + k.chunk * 2 ^ 40) (fun _ d =>
      s.onlyIf w b (!k.busy) eState (s.onlyIf w b (fld d 40 24 != 0 && fld d 16 24 != 0 && decide (1 ≤ fld d 0 13) && decide (fld d 0 13 ≤ 4096)) eRange
        (s.modVat v (fun y => { y with bt := { y.bt with rows := fld d 0 13, tokens := fld d 16 24, chunk := fld d 40 24 } }), eOk))))
  | 0x168 => some (s.rwReg b 64 (b2n k.busy * 2 ^ 3 + b2n k.ctrEn * 2 ^ 4 + k.ctr * 2 ^ 5 + b2n k.prev * 2 ^ 20 + k.status * 2 ^ 24 + k.steps.toNat * 2 ^ 32)
      (fun _ d => (s.batchCtlWrite w v d, eOk)))
  | 0x170 => some (s.roReg b 64 k.rot)
  | 0x178 => some (s.rcReg b 64 (k.joined + k.left * 2 ^ 16 + k.nopage * 2 ^ 32 + k.starved * 2 ^ 48)
      (s.modVat v (fun y => { y with bt := { y.bt with joined := 0, left := 0, nopage := 0, starved := 0 } })))
  | 0x1A0 => some (s.rwReg b 64 (k.cmdStatus * 2 ^ 32) (fun _ d => (s.seqCmdWrite v d, eOk)))
  | 0x248 => some (s.vatReg1 v b 64 (x.tw.logBase + x.tw.logPages * 2 ^ 36)
      (fun _ d y => { y with tw := { y.tw with logBase := fld d 0 36, logPages := fld d 36 24 } }))
  | _ =>
    let bkt := (List.range 8).foldl (fun t j => t + k.bkt.get 0 j * 2 ^ (32 * j)) 0
    match inArray o 0x180 1 32 32 with
    | some _ => some (s.rwReg (b - o % 32) 256 bkt (fun i d =>
        let m := putWord bkt i d
        s.onlyIf w b (!k.busy) eState (s.onlyIf w b (bktOk m) eFormat (s.modVat v (fun y => { y with bt := { y.bt with bkt := bktOf m } }), eOk))))
    | none => (inArray o 0x1C0 1 64 64).map (fun _ =>
        s.vatReg1 v (b - o % 64) 512 k.stage (fun i d y => { y with bt := { y.bt with stage := putWord y.bt.stage i d } }))

def SpanVatPerm.word (p : SpanVatPerm) : Nat := p.lo + p.hi * 2 ^ 17 + b2n p.win * 2 ^ 34 + b2n p.chan * 2 ^ 35 + b2n p.sync * 2 ^ 36
def SpanVatPerm.ofWord (x : Nat) : SpanVatPerm := { lo := fld x 0 17, hi := fld x 17 17, win := bit x 34, chan := bit x 35, sync := bit x 36 }
def Export.word (e : Export) : Nat := b2n e.open_ + b2n e.rd * 2 + b2n e.wr * 2 ^ 2 + e.base + e.npages * 2 ^ 64
def Export.ofWord (m : Nat) : Export := { open_ := bit m 0, rd := bit m 1, wr := bit m 2, base := fld m 12 36 * 4096, npages := fld m 64 24 }

/-- VAT_RECLAIM, VAT_CONTAIN, VAT_POISON_ORIGIN and TWIN_VAT_STAT as values. -/
def Reclaim.word (r : Reclaim) : Nat := r.step.code + r.status * 2 ^ 16 + r.deadline.toNat * 2 ^ 64
def Contain.word (c : Contain) : Nat := c.kind + c.status * 2 ^ 8 + c.origin % 2 ^ 48 * 2 ^ 16 + c.tick.toNat * 2 ^ 64 + c.addr % 2 ^ 64 * 2 ^ 128 + c.firstPoison % 2 ^ 64 * 2 ^ 192
def PoisonOrigin.word (p : PoisonOrigin) : Nat := p.low48 + b2n p.valid * 2 ^ 48 + b2n p.more * 2 ^ 49 + p.tick.toNat * 2 ^ 64
def VatTwin.word (t : VatTwin) : Nat :=
  t.mstat + b2n t.busy * 2 ^ 2 + b2n t.standby * 2 ^ 3 + t.status * 2 ^ 8 + t.sent.toNat * 2 ^ 32 + t.committed.toNat * 2 ^ 64 + t.applied.toNat * 2 ^ 96

/-- Wide registers and arrays of the block. -/
def State.vatArrayReg (s : State) (w : Who) (v b o : Nat) : Option RegView :=
  let x := s.vat v
  let v0 := b - o
  if o = 0x240 then some (s.rwReg b 64 (s.vatPerm v).word (fun _ d => s.bySeal w b (s.setVatPerm v (SpanVatPerm.ofWord d), eOk)))
  else if o = 0x2B0 then some (s.roReg b 64 (x.evacPages + x.evacEntries * 2 ^ 32))
  else if 0x400 < o && o < 0x500 && o % 4 = 0 then
    let i := 64 * v + (o - 0x400) / 4
    let e := s.span.wins.get (false, 0) i
    some (s.rwReg b 32 (e.2 + b2n e.1 * 2 ^ 17) (fun _ d => ({ s with span := { s.span with wins := s.span.wins.put i (bit d 17, fld d 0 17) } }, eOk)))
  else match inArray o 0x100 4 8 8 with
  | some i => some (s.roReg b 64 (x.ac.stk.get 0 i))
  | none => match inArray o 0x200 16 4 4 with
  | some i => some (s.rwReg b 32 (x.balGroup.get 0 i) (fun _ d =>
      s.onlyIf w b (decide (fld d 0 7 ≤ 64)) eRange (s.modVat v (fun y => { y with balGroup := y.balGroup.put i (fld d 0 7) }), eOk)))
  | none => match inArray o 0x250 8 8 8 with
  | some i => some (s.rwReg b 64 (x.tw.ranges.get 0 i).toNat (fun _ d =>
      s.onlyIf w b (x.tw.mode == 0) eState (s.modVat v (fun y =>
        { y with tw := { y.tw with ranges := y.tw.ranges.put i (BitVec.ofNat 64 (fld d 0 60 + fld d 63 1 * 2 ^ 63)) } }), eOk)))
  | none => match inArray o 0x290 1 16 16 with
  | some _ => some (s.roReg (v0 + 0x290) 128 x.tw.word)
  | none => match inArray o 0x2A0 1 16 16 with
  | some _ => some (s.rwReg (v0 + 0x2A0) 128 x.reclaim.word (fun i d =>
      if i != 0 || !(bit d 8) then (s, eOk)
      else if w == .pf || (match w with | .vf _ => true | _ => false) then s.deny w b ePermission
      else (resState s (execYield v s), eOk)))
  | none => match inArray o 0x2C0 1 16 16 with
  | some _ => some (s.vatReg1 v (v0 + 0x2C0) 128 x.origin.word (fun _ _ y => { y with origin := {} }))
  | none => match inArray o 0x2E0 1 32 32 with
  | some _ => some (s.roReg (v0 + 0x2E0) 256 x.contain.word)
  | none => match inArray o 0x300 23 8 8 with
  | some i => some (s.roReg b 64 (x.ac.acct.get 0 i))
  | none => match inArray o 0x500 16 16 16 with
  | some i =>
    let m := (s.export_ v i).word
    some (s.rwReg (v0 + 0x500 + 16 * i) 128 m (fun k d => (s.setExport_ v i (Export.ofWord (putWord m k d)), eOk)))
  | none => (inArray o 0x800 512 4 4).map (fun i => s.roReg b 32 (x.peers.get 0 i))

/-- VM_CHTAB: word `i` of the vatman's endpoint `e` (R252). (DEDUCED, log entry 125) -/
def State.chtabReg (s : State) (w : Who) (v b e i : Nat) : RegView :=
  match s.vatmanOf v with
  | none => s.rwReg b 64 0 (fun _ _ => s.deny w b eRange)
  | some c => s.rwReg b 64 (fld (s.ep c e).desc (64 * i) 64) (fun _ d =>
      if i = 3 then s.chtabApply w v e (d % 2 ^ 64)
      else s.onlyIf w b (s.mayChtab w c) ePermission (s.modEp c e (fun y => { y with staging := y.staging.put i (BitVec.ofNat 64 d) }), eOk))

/-- VM_ISTORE: 8 B word `i` of the vatman's instruction store, written while it is not RUNNING (R76, R595, R609). -/
def State.istoreReg (s : State) (w : Who) (v b i : Nat) : RegView :=
  match s.vatmanOf v with
  | none => s.rwReg b 64 0 (fun _ _ => s.deny w b eRange)
  | some c => s.rwReg b 64 (leNat ((s.imem c).readBytes (8 * i) 8)) (fun _ d =>
      s.byMgmt w b (s.onlyIf w b ((s.ctl c).run != .running) eState (s.modImem c (fun m => m.writeBytes (8 * i) (leBytes 8 d)), eOk)))

/-- The control block of vat `v`. A write to the command aperture that is no command is E_FORMAT (R370). (DEDUCED, log entry 133) -/
def State.vatBlock (s : State) (w : Who) (v o : Nat) : Option RegView :=
  let b := 0x500000 + 0x10000 * v + o
  if o < 0x60 then s.vatLoadReg w v b o
  else if o < 0xC0 then s.vatDetReg v b o
  else if o < 0x100 then s.vatJobReg w v b o
  else if 0x1000 ≤ o && o < 0x2000 then (if o % 8 = 0 then some (s.rwReg b 64 0 (fun _ _ => s.deny w b eFormat)) else none)
  else if 0x2000 ≤ o && o < 0x4000 then
    (if o % 8 = 0 then
      let g := (o - 0x2000) / 0x200
      let j := (o - 0x2000) % 0x200 / 8
      some (s.rcReg b 64 (s.balWord v g j) (s.balTake v g j))
    else none)
  else if 0x4000 ≤ o && o < 0x4800 then (if o % 8 = 0 then some (s.chtabReg w v b ((o - 0x4000) / 32) (o % 32 / 8)) else none)
  else if 0x8000 ≤ o then (if o % 8 = 0 then some (s.istoreReg w v b ((o - 0x8000) / 8)) else none)
  else match s.vatAreaReg w v b o with
    | some k => some k
    | none => s.vatArrayReg w v b o

end Sys2Proof.Machine
end

