-- ==== Sys2Proof/Machine/Regs.lean ====
section
/-! DEFINITION. The register space: which register an access names, its rights, and the accesses themselves (R610-R625), with debug
transactions (R604, R605). -/

namespace Sys2Proof.Machine

/-! ## Which register (R610) -/

/-- The register of hub block `b` (Table 21.2). -/
def State.hubReg (s : State) (w : Who) (b o : Nat) : Option RegView :=
  match b with
  | 0 => s.devReg w o
  | 1 => s.irqReg w o
  | 2 => s.logReg w o
  | 3 => s.gtcReg w o
  | 5 => s.pwrReg w o
  | 6 => s.stkReg w o
  | 7 => s.spanReg w o
  | 8 => s.twinReg w o
  | 9 => s.hostReg w o
  | 10 => s.syncfReg w o
  | 11 => s.acctReg w o
  | 12 => s.mgmtReg w o
  | 13 => s.connReg w o
  | _ => none

/-- The physical core of a core block offset (R618). -/
def State.blockCore (s : State) (off : Nat) : Option Nat := if 0x1000000 ≤ off && off < 0x3000000 then s.physOf ((off - 0x1000000) / 0x80000) (fld off 13 6) else none

/-- The register that an offset names (Table 21.1). -/
def State.regAt (s : State) (w : Who) (off : Nat) : Option RegView :=
  if off < 0x380000 then s.hubReg w (off / 0x40000) (off % 0x40000)
  else if 0x400000 ≤ off && off < 0x500000 then some (s.seqReg (off - 0x400000))
  else if 0x500000 ≤ off && off < 0x600000 then s.vatBlock w ((off - 0x500000) / 0x10000) (off % 0x10000)
  else if 0x600000 ≤ off && off < 0xA00000 then s.clReg w ((off - 0x600000) / 0x10000) (off % 0x10000)
  else (s.blockCore off).bind (fun c => s.coreReg w c (off / 0x2000 * 0x2000) (off % 0x2000))

/-! ## Routes and rights -/

/-- CORE_VIEW: an offset of the alias as the offset of the core block it shows (R619); none while the view is shut. -/
def State.throughView (s : State) (off : Nat) : Option Nat :=
  if 0x2000 ≤ off && off < 0x4000 then
    (if s.boot.viewEn then some (0x1000000 + s.boot.viewSel * 0x2000 + (off - 0x2000)) else none)
  else some off

/-- The offset that a requester's own offset reaches (R616, Table 17.3). -/
def State.whoOff (s : State) (w : Who) (off : Nat) : Option Nat :=
  match w with
  | .pf => if off < 0x1000000 then some off else none
  | .vf n =>
    match s.vfVat n with
    | none => none
    | some v =>
      if off < 0x40 then some (0x240000 + 0x40 * v + off)
      else if 0x100 ≤ off && off < 0x140 then some (0x240900 + 0x40 * n + (off - 0x100))
      else if 0x10000 ≤ off && off < 0x20000 then some (0x500000 + 0x10000 * v + (off - 0x10000))
      else none
  | _ => some off

/-- What only some requesters may read: the version table and the trace buffer (R390, R607), connections of other vats (R625), counters of
other vats (R622). (DESIGN CHOICE, log entry 122) -/
def State.mayRead (s : State) (w : Who) (off : Nat) : Bool :=
  let tr := 0x600000 ≤ off && off < 0xA00000 && 0x4000 ≤ off % 0x10000 && off % 0x10000 < 0x8000
  if (0x190000 ≤ off && off < 0x1A0000) || tr then whoMgmt w
  else match w with
    | .core c =>
      c == mgmtCore ||
      (if 0x340000 ≤ off && off < 0x380000 then
        let k := s.conn ((off - 0x340000) / 16)
        k.opened && s.connVat k == s.vatmanVat c
      else if 0x280200 ≤ off && off < 0x280300 then s.mayAdd c (0x4000 + (off - 0x280200) / 4)
      else true)
    | _ => true

/-- The status of an access's rights (Table 3.7, R613). -/
def State.regMay (s : State) (w : Who) (off : Nat) (write : Bool) : Nat :=
  let r := match w with | .core c => s.regRight c off write | _ => eOk
  if r != eOk then r else if !write && !(s.mayRead w off) then ePermission else eOk

/-- Does an access of `size` bytes at `off` name a word of a register (R612)? -/
def RegView.fits (k : RegView) (off size : Nat) : Bool :=
  let n := if k.bits = 32 then 4 else 8
  size == n && decide (k.base ≤ off) && decide (off < k.base + max n (k.bits / 8)) && (off - k.base) % n == 0

/-- The register word an access reaches, or the status of its refusal. -/
def State.regFind (s : State) (w : Who) (off size : Nat) (write : Bool) : Except Nat (RegView × Nat) :=
  match (s.whoOff w off).bind s.throughView with
  | none => .error eRange
  | some a =>
    let r := s.regMay w a write
    if r != eOk then .error r
    else match s.regAt w a with
      | none => .error eRange
      | some k => if k.fits a size then .ok (k, a) else .error eRange

/-! ## What an access does besides (R343, R567, R569, R605) -/

/-- The core that an access to a core block reaches. -/
def State.reached (s : State) (w : Who) (off : Nat) : Option Nat := ((s.whoOff w off).bind s.throughView).bind s.blockCore

/-- Must the access wait for the wake of a cluster (R569, R605)? Only a debug access to a core's block does. (DESIGN CHOICE, log entry 109) -/
def State.sleepingCl (s : State) (w : Who) (off : Nat) : Option Nat :=
  if w != .debug then none
  else if 0x3000000 ≤ off && s.boot.scanEn && !(s.clRun (clusterOf s.boot.scanSel)) then some (clusterOf s.boot.scanSel)
  else match s.reached w off with
    | some c => if s.clRun (clusterOf c) then none else some (clusterOf c)
    | none => none

/-- A register access to a core's control processor or engines wakes it from GATED (R567), and one of the debug port counts EXT_ACCESS
(R605); a read of CORE_RUN does neither (Table 21.21). (DEDUCED, log entry 127) -/
def State.touchCore (s : State) (w : Who) (off : Nat) (write : Bool) : State :=
  match s.reached w off with
  | none => s
  | some c =>
    let o := ((s.whoOff w off).bind s.throughView).getD 0 % 0x2000
    if o = 0x5C && !write then s
    else
      let s1 := if w == .debug && s.detNow c then s.detBreakCore c 0x0F else s
      if o < 0x400 && (s1.ctl c).gated then s1.modCtl c (fun k => { k with gated := false, idleSince := s.clk.fast }) else s1

/-! ## Reads and writes -/

/-- Keep a snapshot for a requester (R614). (DEDUCED, log entry 128) -/
def State.keepSnap (s : State) (w : Who) (k : RegView) : State :=
  s.modBoot (fun b => { b with snaps := (b.snaps.filter (fun x => !(x.who == w && x.base == k.base))) ++ [{ who := w, base := k.base, value := k.value }] })

/-- The word that a read of a higher word returns: the requester's snapshot, else the live value (R614). (DEDUCED, log entry 128) -/
def State.snapWord (s : State) (w : Who) (k : RegView) (i : Nat) : Nat :=
  fld (match s.boot.snaps.find? (fun x => x.who == w && x.base == k.base) with | some x => x.value | none => k.value) (64 * i) 64

/-- The view of a register after the access has touched its core. -/
def State.freshView (s : State) (w : Who) (off size : Nat) (k : RegView) : RegView :=
  match s.regFind w off size false with
  | .ok (k1, _) => k1
  | .error _ => k

/-- A register read: the state it leaves, its status and its value. -/
def State.regRead (s : State) (w : Who) (off size : Nat) : State × Nat × Nat :=
  if 0x3000000 ≤ off && off < 0x3100000 then s.scanRead w (off - 0x3000000) size
  else match s.regFind w off size false with
    | .error st => (s.regRefuse w st off, st, 0)
    | .ok (k, a) =>
      let s0 := s.touchCore w off false
      let k := s0.freshView w off size k
      let i := (a - k.base) / 8
      let t := if w == .debug then s0 else k.cleared
      if k.bits ≤ 64 then (t, eOk, k.value % 2 ^ k.bits)
      else if i = 0 then (t.keepSnap w k, eOk, fld k.value 0 64)
      else (s0, eOk, s0.snapWord w k i)

/-- A register write: the state it leaves and its status. -/
def State.regWrite (s : State) (w : Who) (off size x : Nat) : State × Nat :=
  if 0x3000000 ≤ off && off < 0x3100000 then s.scanWrite w (off - 0x3000000) size x
  else match s.regFind w off size true with
    | .error st => s.deny w off st
    | .ok (_, _) =>
      match (s.touchCore w off true).regFind w off size true with
      | .error st => s.deny w off st
      | .ok (k, a) => k.write ((a - k.base) / 8) (x % 2 ^ (8 * size))

/-- The status a requester sees: the host's functions see none (R613). (DEDUCED, log entry 129) -/
def whoSees (w : Who) (st : Nat) : Nat := match w with | .pf => eOk | .vf _ => eOk | _ => st

/-- Registers of BAR0 that the PF reaches while the boot has FAILED (R593). (DEDUCED, log entry 129) -/
def failedBar (off : Nat) : Bool := off == 0x100 || off == 0x104 || off == 0x108

/-- The host's functions: does the PF alone stand there after a failed boot (R593)? (DEDUCED, log entry 129) -/
def State.pfAlone (s : State) (w : Who) : Bool := w == .pf && s.boot.stage == .failed

/-- Is a requester one of the host's functions? -/
def whoHost (w : Who) : Bool := match w with | .pf => true | .vf _ => true | _ => false

/-- Does a VF without a vat make the access (R517)? It reads zero and writes nothing. (DEDUCED, log entry 129) -/
def State.lostVf (s : State) (w : Who) : Bool := match w with | .vf n => (s.vfVat n).isNone | _ => false

/-- The answer of a register access leaves; a core of the mesh gets it as a REGRSP packet, with its data in the first 8 B of the payload flit
(Table 7.6). -/
def State.regAnswered (s : State) (w : Who) (off status : Nat) (value : Option Nat) : State :=
  let s1 := s.send (.regAnswer w off status (value.getD 0))
  match w with
  | .core c =>
    if c = mgmtCore then s1
    else
      let src := regSource off ((s.blockCore off).getD 0)
      let data := if status = eOk && value.isSome then leBytes 16 (value.getD 0 % 2 ^ 64) else []
      let h := regRsp c ((s.vatOfCore c).getD 0) src.2 status (data.length / 16)
      s1.send (.ctl src.1 (ctlPort src.1 (ctlTarget h)) h data [])
  | _ => s1

/-- A read as a command: the access and its answer. A host access needs a sealed device, or waits for a wake (R572, R593). (DESIGN CHOICE, log entry 132) -/
def State.readCmd (s : State) (w : Who) (off size : Nat) : State :=
  if !s.pwr.on then s
  else if s.pfAlone w then
    (if failedBar off then
      let r := s.regRead w off size
      r.1.send (.regAnswer w off eOk r.2.2)
    else s.send (.regAnswer w off eOk 0))
  else if whoHost w && !s.hostOpen then s.hostAsk
  else if s.lostVf w then s.send (.regAnswer w off eOk 0)
  else match s.sleepingCl w off with
    | some cl => s.wakeCl cl
    | none =>
      let r := s.regRead w off size
      r.1.regAnswered w off (whoSees w r.2.1) (some r.2.2)

/-- Vats whose registers an access to their control block names; a command for a vat whose clusters sleep waits for their wake (R569). (DEDUCED, log entry 133) -/
def State.cmdSleeps (s : State) (w : Who) (off x : Nat) : Option Nat :=
  match s.whoOff w off with
  | some a =>
    let v := (a - 0x500000) / 0x10000
    let op := fld x 0 4
    if 0x500000 ≤ a && a < 0x600000 && a % 0x10000 = 0 && (op == 1 || op == 4 || op == 5 || op == 6) && !(s.vatAwake v) then some v else none
  | none => none

/-- A write as a command. (DESIGN CHOICE, log entry 132) -/
def State.writeCmd (s : State) (w : Who) (off size x : Nat) : State :=
  if !s.pwr.on then s
  else if s.pfAlone w then (if failedBar off then (s.regWrite w off size x).1.send (.regAnswer w off eOk 0) else s.send (.regAnswer w off eOk 0))
  else if whoHost w && !s.hostOpen then s.hostAsk
  else if s.lostVf w then s.send (.regAnswer w off eOk 0)
  else match s.sleepingCl w off with
    | some cl => s.wakeCl cl
    | none => match s.cmdSleeps w off x with
      | some v => s.wakeVat v
      | none =>
        let r := s.regWrite w off size x
        r.1.regAnswered w off (whoSees w r.2) none

/-! ## The commands -/

/-- A read of a register word: RC fields are returned and cleared (R14, R16, R17). -/
def execRcRead (w : Who) (off size : Nat) (s : State) : Res := .next (s.readCmd w off size)

/-- A read of an 8 B word of a wide register: the lowest one takes a snapshot (R614). -/
def execWideRegisterRead (w : Who) (off : Nat) (s : State) : Res := .next (s.readCmd w off 8)

/-- The manifest record that the boot firmware applies next, in the management core's data SRAM (R591, R592, R594). (DESIGN CHOICE, log entry 150) -/
def State.manRec (s : State) : Option Nat :=
  let m := s.spad mgmtCore
  if s.boot.stage == .firmware && !s.boot.sealed && s.boot.manAt < m.nat 0x70008 4 then some (m.nat (0x70200 + 16 * s.boot.manAt) 16) else none

/-- Offset, size and value of a manifest record (R591). -/
def recOff (r : Nat) : Nat := fld r 0 40
def recSize (r : Nat) : Nat := if bit r 40 then 8 else 4
def recValue (r : Nat) : Nat := fld r 64 (8 * recSize r)

/-- Is an offset that of a register of Chapter 20 (Tables 20.12 to 20.14, 21.3)? -/
def bootChapter (off : Nat) : Bool :=
  let v := (off - 0x500000) % 0x10000
  let c := (off - 0x600000) % 0x10000
  (0x100 ≤ off && off < 0x128) || (0x500000 ≤ off && off < 0x600000 && ((0xD4 ≤ v && v < 0xD8) || 0x8000 ≤ v))
    || (0x600000 ≤ off && off < 0xA00000 && ((0x30 ≤ c && c < 0x38) || (0x4000 ≤ c && c < 0x8000)))

/-- May the firmware apply a record (R594)? It names a register, none of Chapter 20, and the management core may write every bit that it sets: a
bit whose write changes nothing is one it may not write, or a reserved one. (DESIGN CHOICE, log entry 150) -/
def State.recordFits (s : State) (r : Nat) : Bool :=
  let w : Who := .core mgmtCore
  let t := s.regWrite w (recOff r) (recSize r) (recValue r)
  fld r 41 23 == 0 && !bootChapter (recOff r) && t.2 == eOk
  && (List.range (8 * recSize r)).all (fun j => !bit (recValue r) j || (s.regWrite w (recOff r) (recSize r) (recValue r - 2 ^ j)).1 != t.1)

/-- A register write of the boot firmware while manifest records remain (R594): the next record's is applied, and counted; one that it may not
apply is not made, and the boot has FAILED with code 8. After that the firmware writes nothing further. (DESIGN CHOICE, log entry 150) -/
def State.firmwareWrite (s : State) (off size data : Nat) : State :=
  if !s.pwr.on || s.boot.stage == .failed then s
  else match s.manRec with
    | some r =>
      if off != recOff r || size != recSize r || data % 2 ^ (8 * size) != recValue r then s.writeCmd (.core mgmtCore) off size data
      else if s.recordFits r then (s.modBoot (fun b => { b with manAt := b.manAt + 1 })).writeCmd (.core mgmtCore) off size data
      else s.modBoot (fun b => { b with code := 8, stage := .failed, rst := none })
    | none => s.writeCmd (.core mgmtCore) off size data

/-- A write of a register word (R14); one of the management core is its firmware's (R594). -/
def execRegisterWrite (w : Who) (off size data : Nat) (s : State) : Res :=
  .next (if w == .core mgmtCore then s.firmwareWrite off size data else s.writeCmd w off size data)

/-- An access at an offset of CORE_VIEW (R619). -/
def execCoreViewAccess (w : Who) (write : Bool) (o size data : Nat) (s : State) : Res :=
  .next (if 0x2000 ≤ o then s else if write then s.writeCmd w (0x2000 + o) size data else s.readCmd w (0x2000 + o) size)

/-- An access at an offset of the debug scan window (R620). -/
def execScanWindowAccess (w : Who) (write : Bool) (o size data : Nat) (s : State) : Res :=
  .next (if 0x100000 ≤ o then s else if write then s.writeCmd w (0x3000000 + o) size data else s.readCmd w (0x3000000 + o) size)

/-- The register of a counter: SYNC_CTR of its cluster, or GSYNC_VAL (R622). -/
def ctrOff (a : Nat) : Nat := if a < 0x4000 then 0x600400 + 0x10000 * (a / 256) + 4 * (a % 256) else 0x280200 + 4 * (a - 0x4000)

/-- A write that sets a counter (R281, R622). (DEDUCED, log entry 49) -/
def execSyncCtrSet (w : Who) (ctr value : Nat) (s : State) : Res := .next (if 0x4040 ≤ ctr then s else s.writeCmd w (ctrOff ctr) 4 value)

/-- A write of close = 1 to a connection entry (R625). -/
def execConnClose (w : Who) (i : Nat) (s : State) : Res := .next (if 4096 ≤ i then s else s.writeCmd w (0x340008 + 16 * i) 8 1)

/-! ## Debug transactions (R604, R605, Table 20.9) -/

/-- Bytes of a DAP access: size 2 for 4 B, 3 for 8 B; the others are reserved (Table 20.8). (DESIGN CHOICE, log entry 132) -/
def dapBytes (size : Nat) : Option Nat := if size = 2 then some 4 else if size = 3 then some 8 else none

/-- The scratchpad of a window address, as the remap tables give it. -/
def State.dapCore (s : State) (a : Nat) : Option Nat := match targetOf a with | .spad cl l _ => s.physOf cl l | _ => none

/-- The cluster whose wake a debug access waits for (R569, R605). -/
def State.dapSleeps (s : State) (a : Nat) : Option Nat :=
  match targetOf a with
  | .spad cl _ _ => if s.clRun cl then none else some cl
  | .reg off => s.sleepingCl .debug off
  | _ => none

/-- A debug read of a device address. (DESIGN CHOICE, log entry 132) -/
def State.dapRead (s : State) (a n : Nat) : State × Nat × Nat :=
  match targetOf a with
  | .reg off => s.regRead .debug off n
  | .spad _ _ o =>
    (match s.dapCore a with
      | none => (s.regRefuse .debug eRange a, eRange, 0)
      | some c =>
        let s1 := s.extAccess c .debug
        let st := s.windowCheck c o n .debug false
        if st != eOk then (s1.regRefuse .debug st a, st, 0)
        else
          let bad := (List.range n).any (fun i => (s.spad c).badAt (o + i))
          (s1.noteRead c o n, if bad then ePoison else eOk, leNat ((s.spad c).mem.readBytes o n)))
  | .stack x =>
    let st := if stackTop < x + n then eRange else s.stkAdmit .debug x n false
    if st != eOk then (s.regRefuse .debug st a, st, 0)
    else (s.noteStack (s.stackOwner x) x n, if s.stackBad x n then ePoison else eOk, s.stackNat x n)
  | _ => (s.regRefuse .debug eRange a, eRange, 0)

/-- A debug write of a device address. (DESIGN CHOICE, log entry 132) -/
def State.dapWrite (s : State) (a n x : Nat) : State × Nat :=
  match targetOf a with
  | .reg off => s.regWrite .debug off n x
  | .spad _ _ o =>
    (match s.dapCore a with
      | none => s.deny .debug a eRange
      | some c =>
        let s1 := s.extAccess c .debug
        let st := s.windowCheck c o n .debug true
        if st != eOk then s1.deny .debug a st else (s1.spadPut c o (leBytes n x) (fun _ => false), eOk))
  | .stack y =>
    let st := if stackTop < y + n then eRange else s.stkAdmit .debug y n true
    if st != eOk then s.deny .debug a st else ((s.noteStack (s.stackOwner y) y n).stackPut y (leBytes n x) (fun _ => false), eOk)
  | _ => s.deny .debug a eRange

/-- READ (R604). (DEDUCED, log entry 116) -/
def execDapRead (addr size : Nat) (s : State) : Res :=
  .next (if !s.pwr.on then s
    else match s.dapSleeps addr with
      | some cl => s.wakeCl cl
      | none => s.dapStart (fun s => match dapBytes size with
          | some n => s.dapRead addr n
          | none => (s.regRefuse .debug eFormat addr, eFormat, 0)))

/-- WRITE (R604). -/
def execDapWrite (addr size data : Nat) (s : State) : Res :=
  .next (if !s.pwr.on then s
    else match s.dapSleeps addr with
      | some cl => s.wakeCl cl
      | none => s.dapStart (fun s => match dapBytes size with
          | some n => let r := s.dapWrite addr n data; (r.1, r.2, 0)
          | none => (s.regRefuse .debug eFormat addr, eFormat, 0)))

end Sys2Proof.Machine
end

