-- ==== Sys2Proof/Machine/Stream.lean ====
section
/-! DEFINITION. The commands of the stream engines: acceptance, the stream instructions, deliveries and completion (R193-R219, R404,
R645). -/

namespace Sys2Proof.Machine

/-! ## Acceptance -/

/-- Registers of a stream engine at the acceptance of a STREAM (R197). -/
def Se.start (x : Se) (m : W256) (descs : Table Nat) : Se :=
  { store := x.store, storeUe := x.storeUe, entry := some m, prog := m, mop := 1, descs := descs,
    a := [(0, stP0 m.toNat), (1, stP1 m.toNat)], pc := stEntry m.toNat, nextId := x.nextId }

/-- The descriptors a program names, as they stand in scratchpad (R215). -/
def readDescs (sp : Spad) (tds : NSet) : Table Nat := tds.foldl (fun t i => t.put i (sp.nat (descAt i) 64)) []

/-- STREAM: the engine accepts the presented entry and makes the checks of Table 6.9; a failing entry halts the queue, and so does a program
with an uncorrectable slot (R194, R215, R327). (DEDUCED, log entry 139) -/
def execStream (c e : Nat) (s : State) : Res :=
  let x := s.se c e
  let q := seQueue e
  .next (match (s.queue c q).head with
    | none => s
    | some m =>
      if mMop m != 1 || !(s.enginesOn c) || !x.idle || e ≥ 4 then s
      else if !(s.sigRight c m) then s.haltQueue c q ePermission m
      else
        let s1 := s.popQ c q
        let sp := s.spad c
        let tds := match progFrom x.store 32 (stEntry m.toNat) with | some p => progTds p | none => []
        let descs := readDescs sp tds
        let s0 := tds.foldl (fun s i => s.noteRead c (descAt i) 64) s1
        let ue := match progFrom x.store 32 (stEntry m.toNat) with | some p => p.any (fun q => NSet.has x.storeUe q.1) | none => false
        let s2 := if ue then s0.sramError c 0 0 else s0
        let st := if ue then ePoison else s.streamCheck c e m.toNat x.store descs (fun i => sp.bad (descAt i) 64)
        if st != eOk then (s2.modSe c e (fun y => { y with mop := 1 })).reject c q st m
        else s2.modSe c e (fun y => y.start m descs))

/-- SPLOAD: accepted and checked in the order of R196; its source is read at acceptance, as one record read (R187). -/
def execSpload (c e : Nat) (s : State) : Res :=
  let x := s.se c e
  let q := seQueue e
  .next (match (s.queue c q).head with
    | none => s
    | some m =>
      if mMop m != 2 || !(s.enginesOn c) || !x.idle || e ≥ 4 then s
      else if !(s.sigRight c m) then s.haltQueue c q ePermission m
      else
        let n := m.toNat
        let first := fld n 32 5
        let count := fld n 37 5 + 1
        let src := fld n 64 19
        let s1 := (s.popQ c q).modSe c e (fun y => { y with mop := 2 })
        if first + count > 32 || src % 8 != 0 || fld n 42 22 != 0 || fld n 83 173 != 0 then s1.reject c q eFormat m
        else if src + 8 * count > spadSize then s1.reject c q eRange m
        else if (s.spad c).bad src (8 * count) then (s1.noteRead c src (8 * count)).reject c q ePoison m
        else
          let sp := s.spad c
          (s1.noteRead c src (8 * count)).modSe c e (fun y =>
            { y with entry := some m, spload := some (first, (List.range count).map (fun i => sp.nat (src + 8 * i) 8)) }))

/-- The source of an SPLOAD returns and the program store is written; it completes L + 1 cycles after acceptance (R196). -/
def execSploadComplete (c e : Nat) (s : State) : Res :=
  let x := s.se c e
  .next (match x.entry, x.spload with
    | some m, some (first, ws) =>
      let store := (ws.mapIdx (fun i w => (first + i, w))).foldl (fun t q => t.put q.1 q.2) x.store
      (s.modSe c e (fun y => { y with store := store, storeUe := NSet.remRange y.storeUe first ws.length, entry := none, spload := none })).sigDone c (seQueue e) m
    | _, _ => s)

/-! ## Address and loop instructions -/

/-- An address instruction: its effect on the registers, then the next slot. -/
def State.seAddr (s : State) (c e op : Nat) : State :=
  s.seInstr c e op (fun s w => s.modSe c e (fun x => (x.addrEffect w).past))

/-- SETA (Table 6.7). -/
def execSeta (c e : Nat) (s : State) : Res := .next (s.seAddr c e opSeta)
/-- ADDA (Table 6.7). -/
def execAdda (c e : Nat) (s : State) : Res := .next (s.seAddr c e opAdda)
/-- ADDR (Table 6.7). -/
def execAddr (c e : Nat) (s : State) : Res := .next (s.seAddr c e opAddr)
/-- LDD (Table 6.7). -/
def execLdd (c e : Nat) (s : State) : Res := .next (s.seAddr c e opLdd)
/-- SETX (Table 6.7). -/
def execSetx (c e : Nat) (s : State) : Res := .next (s.seAddr c e opSetx)

/-- LOOP (R199). -/
def execLoop (c e : Nat) (s : State) : Res :=
  .next (s.seInstr c e opLoop (fun s w => s.modSe c e (fun x => x.enterLoop (iCn w) (iEnd w) (fld w 0 24))))

/-- A LOOPM count takes effect, or E_RANGE or E_POISON (R201, Table 6.10). -/
def State.loopmCount (s : State) (c e n : Nat) (bad : Bool) : State :=
  if bad then s.seFault c e ePoison
  else if n ≥ 2 ^ 24 then s.seFault c e eRange
  else s.modSe c e (fun x => { (x.enterLoop (iCn x.cur) (iEnd x.cur) n) with waitRead := false })

/-- LOOPM: the count comes from the walk, from own scratchpad, or from a device read (R201, R645). -/
def execLoopm (c e : Nat) (s : State) : Res :=
  .next (s.seInstr c e opLoopm (fun s w =>
    let x := s.se c e
    let a := x.ar (iLoopRb w)
    match x.walkCnt.get none x.pc with
    | some n => s.loopmCount c e n false
    | none =>
      if a.addr % 4 != 0 then s.seFault c e eRange
      else if a.dev then
        let r := s.devRight c a.addr false
        if r != eOk then s.seFault c e r
        else s.seReadValue c e .loopm a.addr 4
      else if a.addr + 4 > spadSize then s.seFault c e eRange
      else (s.noteRead c a.addr 4).loopmCount c e ((s.spad c).nat a.addr 4) ((s.spad c).bad a.addr 4)))

/-- CVT: the setting is in force for the whole STREAM (R202). -/
def execCvt (c e : Nat) (s : State) : Res :=
  .next (s.seInstr c e opCvt (fun s w => s.modSe c e (fun x => { x with cvt := if cvOn w then some w else none }.past)))

/-- PAGE: the entry at a[rb] gives a[ra] (R203). -/
def State.pageEntry (s : State) (c e ent ra low : Nat) (bad : Bool) : State :=
  if bad then s.seFault c e ePoison
  else if !(bit ent 0) then s.seFault c e eRange
  else s.modSe c e (fun x => { (x.setA ra (fld ent 14 34 * 2 ^ 14 + low) true).past with waitRead := false })

/-- PAGE (R203). -/
def execPage (c e : Nat) (s : State) : Res :=
  .next (s.seInstr c e opPage (fun s w =>
    let x := s.se c e
    let a := x.ar (iRb w)
    let low := (x.ar (iRc w)).addr % 2 ^ 14
    if a.addr % 8 != 0 then s.seFault c e eRange
    else if a.dev then
      let r := s.devRight c a.addr false
      if r != eOk then s.seFault c e r
      else s.seReadValue c e (.page (iRa w) low) a.addr 8
    else if a.addr + 8 > spadSize then s.seFault c e eRange
    else (s.noteRead c a.addr 8).pageEntry c e ((s.spad c).nat a.addr 8) (iRa w) low ((s.spad c).bad a.addr 8)))

/-! ## Moves -/

/-- Which directions an engine may move in (Table 6.4). -/
def dirOk (e : Nat) (src dst : Bool) : Bool :=
  if e ≤ 1 then !dst else if e = 2 then !src else true

/-- The first status other than OK among the rights to the device bytes [a, a + n), looked at 128 B by 128 B (R197). -/
def State.rangeRight (s : State) (c a n : Nat) (write : Bool) : Nat :=
  ((piecesOf a n).flatMap (fun p => [a + p.1, a + p.1 + p.2 - 1])).foldl (fun st b => if st != eOk then st else s.devRight c b write) eOk

/-- The rights to a move's device destination. A write that touches the vat's command aperture must be a command: exactly 128 B, from a
128 B-aligned source to a 128 B-aligned address, by SE2 or SE3 (R370). -/
def State.dstRight (s : State) (c e : Nat) (src dst : ARef) (sn dn : Nat) (cvt : Bool) : Nat :=
  if (piecesOf dst.addr dn).any (fun p => s.isAperture c (dst.addr + p.1)) then
    (if 2 ≤ e && sn = 128 && dn = 128 && !cvt && src.addr % 128 = 0 && dst.addr % 128 = 0 then eOk else eFormat)
  else s.rangeRight c dst.addr dn true

/-- The status of a MOV's addresses: direction, ranges, rights and overlap (R193, R197, R200). -/
def State.movCheck (s : State) (c e : Nat) (src dst : ARef) (sn dn : Nat) (cvt : Bool) : Nat :=
  if !(dirOk e src.dev dst.dev) then ePermission
  else if !src.dev && src.addr + sn > spadSize then eRange
  else if !dst.dev && dst.addr + dn > spadSize then eRange
  else if !src.dev && !dst.dev && src.addr < dst.addr + dn && dst.addr < src.addr + sn then eRange
  else
    let r1 := if src.dev then s.rangeRight c src.addr sn false else eOk
    let r2 := if dst.dev then s.dstRight c e src dst sn dn cvt else eOk
    if r1 != eOk then r1 else r2

/-- A MOV through a remote window is one transfer, charged at least 4,096 B (R208, Table 6.8). (DEDUCED, log entry 38) -/
def State.chargeRemote (s : State) (c : Nat) (src dst : ARef) (sn dn : Nat) : State :=
  let far := fun (r : ARef) => r.dev && (match targetOf r.addr with | .remote _ => true | _ => false)
  if far src then s.accountCore c 14 (max 4096 sn) else if far dst then s.accountCore c 14 (max 4096 dn) else s

/-- MOV (R200). While its pieces wait for buffer room the sequencer stays at it, and goes on requesting (R212, R214). Table 6.4 and the
overlap rule are applied to the source and the destination, not to an MX scale array. (DEDUCED, log entry 33; DESIGN CHOICE, log entry 140) -/
def execMov (c e : Nat) (s : State) : Res :=
  .next (s.seInstr c e opMov (fun s w =>
    let x := s.se c e
    if x.moving.isSome then s.seRequest c e
    else
      let b := movBytes x.cvt (iLen w)
      let dst := x.ar (iRa w)
      let src := x.ar (iRb w)
      let blocks := movBlocks x.cvt (iLen w)
      let scale := match x.cvt with | some cw => x.ar (cvRs cw) | none => {}
      let mxS := match x.cvt with | some cw => fmtMx (cvS cw) | none => false
      let st := s.movCheck c e src dst b.1 b.2 x.cvt.isSome
      let st := if st != eOk || blocks = 0 then st
        else if scale.dev then s.rangeRight c scale.addr blocks (!mxS) else if scale.addr + blocks > spadSize then eRange else eOk
      if st != eOk then s.seFault c e st
      else (s.chargeRemote c src dst b.1 b.2).seMove c e
        { dst := dst, src := src, sn := b.1, dn := b.2, blocks := blocks, cvt := x.cvt, x := x.x, scale := scale }))

/-- The couch segment of a core: its first address, size and pointer index (R403). -/
def State.couchSeg (s : State) (c : Nat) : Option (Nat × Nat × Nat × Nat) :=
  match s.vatOfCore c, s.logOf c with
  | some v, some l =>
    let o := ((s.clustersOf v).idxOf? (clusterOf c)).getD 0
    let seg := (s.vat v).couchPages * 4096
    some (v, (s.vat v).couchBase + (63 * o + l) * seg, seg, 64 * clusterOf c + l)
  | _, _ => none

/-- PUSH (R404): the pointer moves, then the bytes are written to the couch stack. -/
def execPush (c e : Nat) (s : State) : Res :=
  .next (s.seInstr c e opPush (fun s w =>
    let x := s.se c e
    let src := x.ar (iRb w)
    let n := iLen w
    if x.moving.isSome then s.seRequest c e
    else if src.dev then s.seFault c e ePermission
    else if src.addr + n > spadSize then s.seFault c e eRange
    else match s.couchSeg c with
      | none => s.seFault c e eStash
      | some (v, base, seg, i) =>
        let top := s.couchTop i
        if top + n > seg then s.seFault c e eStash
        else
          ((s.setCouchTop i (top + n)).modVat v (fun y => { y with couchHwm := max y.couchHwm (top + n) })).seMove c e
            { dst := { addr := base + top, dev := true }, src := src, sn := n, dn := n, push := true }))

/-- POP (R404): waits while its bytes overlap a PUSH not yet acknowledged (R405). -/
def execPop (c e : Nat) (s : State) : Res :=
  .next (s.seInstr c e opPop (fun s w =>
    let x := s.se c e
    let dst := x.ar (iRa w)
    let n := iLen w
    if x.moving.isSome then s.seRequest c e
    else if dst.dev then s.seFault c e ePermission
    else if dst.addr + n > spadSize then s.seFault c e eRange
    else match s.couchSeg c with
      | none => s.seFault c e eStash
      | some (_, base, _, i) =>
        let top := s.couchTop i
        if n > top then s.seFault c e eStash
        else
          let a := base + top - n
          if x.pushOut.any (fun p => p.2.1 < a + n && a < p.2.1 + p.2.2) then s
          else (s.setCouchTop i (top - n)).seMove c e { dst := dst, src := { addr := a, dev := true }, sn := n, dn := n }))

/-! ## Rings, counters and delivery points -/

/-- The free test of a delivery passes: its writes may be made from the next cycle on (R205). -/
def State.freePass (s : State) (c e k ctr : Nat) : State :=
  (s.decCtr ctr 1).modSe c e (fun y => { y with gate := y.gate.put k ((s.cycleOf c).toNat + 1) })

/-- RFILL: the register and slot index move; the free test starts and is tested at once (R205). -/
def execRfill (c e : Nat) (s : State) : Res :=
  .next (s.seInstr c e opRfill (fun s w =>
    let x := s.se c e
    let ctr := dFree (x.desc w)
    let s1 := s.modSe c e (fun y => (y.addrEffect w).past)
    if 1 ≤ s1.ctr ctr then s1.freePass c e x.k ctr
    else s1.modSe c e (fun y => { y with freeTests := y.freeTests ++ [(x.k, ctr)] })))

/-- The repeated free tests: each that passes lowers its counter (R205). -/
def execRfillFreeTestPass (c e : Nat) (s : State) : Res :=
  .next (if !(s.enginesOn c) then s
    else (s.se c e).freeTests.foldl (fun s t =>
      if 1 ≤ s.ctr t.2 then (s.freePass c e t.1 t.2).modSe c e (fun y => { y with freeTests := y.freeTests.erase t }) else s) s)

/-- A delivery point is executed at cycle `now`: it waits for its writes, and the next delivery begins (R209). -/
def Se.point (x : Se) (rdy : Option Nat) (now : Nat) : Se :=
  { x with acts := x.acts ++ [SeAct.point x.k rdy now x.val], k := x.k + 1, walkCnt := [], val := 0, wrote := false }

/-- RDONE (R205). -/
def execRdone (c e : Nat) (s : State) : Res :=
  .next (s.seInstr c e opRdone (fun s w => s.modSe c e (fun x => (x.point (some (dRdy (x.desc w))) (s.cycleOf c).toNat).past)))

/-- DELIV: a delivery point without a ring (Table 6.7). -/
def execDeliv (c e : Nat) (s : State) : Res :=
  .next (s.seInstr c e opDeliv (fun s _ => s.modSe c e (fun x => (x.point none (s.cycleOf c).toNat).past)))

/-- RTAKE: stalls until its ready test passes (R205). -/
def execRtake (c e : Nat) (s : State) : Res :=
  .next (s.seInstr c e opRtake (fun s w =>
    let ctr := dRdy ((s.se c e).desc w)
    if 1 ≤ s.ctr ctr then (s.decCtr ctr 1).modSe c e (fun y => (y.addrEffect w).past)
    else s.modSe c e (fun y => { y with waitTake := some ctr })))

/-- A stalled RTAKE's ready test passes (R205). -/
def execRtakePass (c e : Nat) (s : State) : Res :=
  .next (match (s.se c e).waitTake with
    | none => s
    | some ctr =>
      if 1 ≤ s.ctr ctr && s.enginesOn c then
        (s.decCtr ctr 1).modSe c e (fun y => { (y.addrEffect y.cur).past with waitTake := none })
      else s)

/-- RFREE: 1 to the free counter; earlier own reads have completed, since a move reads its own source when it executes (R205). -/
def execRfree (c e : Nat) (s : State) : Res :=
  .next (s.seInstr c e opRfree (fun s w =>
    let ctr := dFree ((s.se c e).desc w)
    (s.sePast c e).addFrom c ctr 1))

/-- SWT: a watch that stalls only the sequencer (R206). -/
def execSwt (c e : Nat) (s : State) : Res :=
  .next (s.seInstr c e opSwt (fun s w =>
    match Cond.ofBits (iRa w) with
    | none => s.seFault c e eFormat
    | some k =>
      (s.modSe c e (fun x => { x.past with waitSwt := true })).register
        { core := c, unit := .stream e, ctr := iCtr w, cond := k, value := iVal w, dec := bit w 54 }))

/-- Is the cycle A that a signal or the completion waits for reached (R214)? Only deterministic mode has such a cycle. -/
def State.ackOver (s : State) (c at_ : Nat) : Bool :=
  !(s.vat ((s.vatOfCore c).getD 0)).det.detOn || at_ ≤ (s.cycleOf c).toNat

/-- Apply SSIGs that stand first and whose earlier writes, device writes and delivery points are done (R206). -/
def State.ssigSettle : Nat → State → Nat → Nat → State
  | 0, s, _, _ => s
  | n + 1, s, c, e =>
    let x := s.se c e
    match x.acts with
    | .ssig ctr amt sub mv win :: t =>
      if x.moves.any (fun m => m.id < mv) || x.writes.any (fun p => p.mv < mv) || !(s.ackOver c win) then s
      else
        let s1 := s.modSe c e (fun y => { y with acts := t })
        if sub then
          let r := s1.subCtr ctr amt
          if r.2 then State.ssigSettle n (r.1.testWatches (ctrNode ctr)) c e else r.1.seFaultAt c e mv 0 eSyncUnderflow
        else State.ssigSettle n (s1.addFrom c ctr amt) c e
    | _ => s

/-- Apply what can be applied now. -/
def State.seSettle (s : State) (c e : Nat) : State := State.ssigSettle (s.se c e).acts.length s c e

/-- SSIG (R206). -/
def execSsig (c e : Nat) (s : State) : Res :=
  .next (s.seInstr c e opSsig (fun s w =>
    (s.modSe c e (fun x => { x with acts := x.acts ++ [SeAct.ssig (iCtr w) (iVal w) (bit w 54) x.nextId x.asyncA] }.past)).seSettle c e))

/-- END: the last delivery point, when own writes follow the point before it (R209). -/
def execStreamEnd (c e : Nat) (s : State) : Res :=
  .next (s.seInstr c e opEnd (fun s _ => s.modSe c e (fun x =>
    if x.wrote then { (x.point none (s.cycleOf c).toNat) with ended := true }
    else { x with ended := true })))

/-! ## Arrivals, deliveries and completion -/

/-- The first cycle in which the next write piece may be written under deadline delivery: W_k + j + slips (R209). -/
def Se.schedule (x : Se) (k : Nat) : Nat :=
  stBase x.ent + k * stStep x.ent - x.nk.get 0 k + x.piecesMade + x.slip

/-- The delivery whose pieces are written next: that of the first point not yet applied, else the one being filled. -/
def Se.delivery (x : Se) : Nat :=
  (x.acts.findSome? (fun a => match a with | .point k _ _ _ => some k | _ => none)).getD x.k

/-- Was the slip of a write piece that needs the first `h` bytes of a move, due at cycle `d`, caused by data or a value still on its way
from across an asynchronous boundary (R210)? A value the sequencer waited for counts when it came too late for the piece's request. -/
def SeMove.asyncLate (m : SeMove) (h d : Nat) : Bool :=
  let b := m.srcNeed h
  m.arrs.any (fun p => m.wants b p.1 && d < p.2) || (m.val != 0 && d ≤ m.val && m.reqs.any (fun p => m.wants b p.1 && d < p.2))

/-- A read of a stream engine returns (R212). The cycle of data or a value from across a crossing is kept, for the class of a late delivery
(R210). A refused read of a move's bytes ends that move (R216). -/
def execStreamReadReturn (c e id : Nat) (ans : ReadAns) (s : State) : Res :=
  let x := s.se c e
  let now := (s.cycleOf c).toNat
  .next (match x.reads.find? (fun r => r.id == id) with
    | none => s
    | some r =>
      let s1 := s.modSe c e (fun y => { y with reads := y.reads.filter (fun q => q.id != id) })
      let s2 := s1.modSe c e (fun y => { y with val := if r.async then now + 1 else y.val })
      match ans, r.kind with
      | .refused st, .pieces ps =>
        match ps with
        | p :: _ => s1.seFaultAt c e p.1 ((x.moves.find? (fun m => m.id == p.1)).map (·.k) |>.getD x.k) st
        | [] => s1
      | .refused st, _ => s1.seFault c e st
      | .ok data bad, .pieces ps =>
        let t := ps.foldl (fun (t : State × Nat) p =>
          (t.1.modSe c e (fun y => y.modMove p.1 (fun m =>
            m.arrive p.2.1 ((data.drop t.2).take p.2.2) (fun i => NSet.has bad (t.2 + i)) r.async now)), t.2 + p.2.2)) (s1, 0)
        let u := t.1.seSend c e
        (ps.foldl (fun s p => s.seDone c e p.1) u).seRequest c e
      | .ok data bad, .page ra low => s2.pageEntry c e (leNat data) ra low (!bad.isEmpty)
      | .ok data bad, .loopm => s2.loopmCount c e (leNat data) (!bad.isEmpty)
      | .ok data bad, .walk slot =>
        if !bad.isEmpty then s2.seFault c e ePoison
        else if leNat data ≥ 2 ^ 24 then s2.seFault c e eRange
        else s2.modSe c e (fun y => { y with waitRead := false, walkCnt := y.walkCnt.put slot (some (leNat data)) }))

/-- May the write piece `p` of a move be made at cycle `now` (R205, R210, R213): its data has arrived, its pieces were requested and its
delivery's free tests passed in earlier cycles, the delivery before is done, and its scheduled cycle, or the cycle after the last write, has come? -/
def Se.pieceDue (x : Se) (m : SeMove) (p : Bool × Nat × Nat) (now : Nat) : Bool :=
  let h := if p.1 then m.dn else p.2.1 + p.2.2
  m.ready h && m.reqs.all (fun q => !(m.wants (m.srcNeed h) q.1) || q.2 ≤ now)
  && !(x.freeTests.any (fun t => t.1 ≤ m.k)) && x.gate.get 0 m.k ≤ now && m.k == x.delivery
  && (if stDl x.ent then x.schedule m.k ≤ now else x.wroteAt ≤ now)

/-- One write piece of a delivery (R209, R210, R213). Words take the marks of the data (R190). -/
def execDeliveryPieceWrite (c e : Nat) (s : State) : Res :=
  let x := s.se c e
  let now := (s.cycleOf c).toNat
  .next (match x.moves.find? (fun m => m.done < (m.ownRuns x.rate).length) with
    | none => s
    | some m =>
      match (m.ownRuns x.rate)[m.done]? with
      | none => s
      | some p =>
        if !(s.enginesOn c) || !(x.pieceDue m p now) then s
        else
          let o := s.movOut c m
          let s1 := if p.1 then s.spadStore c m.scale.addr o.scales (fun i => o.scaleBad.has i)
            else s.spadStore c (m.dst.addr + p.2.1) ((o.bytes.drop p.2.1).take p.2.2) (fun i => o.bad.has (p.2.1 + i))
          let late := stDl x.ent && m.asyncLate (if p.1 then m.dn else p.2.1 + p.2.2) (x.schedule m.k)
          let s2 := s1.modSe c e (fun y =>
            { y.modMove m.id (fun z => { z with done := z.done + 1 }) with
              piecesMade := y.piecesMade + 1, wroteAt := now + 1,
              slip := if stDl x.ent then y.slip + (now - x.schedule m.k) else y.slip, asyncSlip := y.asyncSlip || late })
          ((s2.seDone c e m.id).seRequest c e).seSettle c e)

/-- The action of the first delivery point, at or after its deadline and after the cycles of its last write and of the point itself. Late
deliveries are counted by class; one already due when the engine was scanned in counts in neither (R209-R211, R213, R218). -/
def execDeliveryAction (c e : Nat) (s : State) : Res :=
  let x := s.se c e
  .next (match x.acts with
    | .point k rdy at_ val :: t =>
      let dl := stDl x.ent
      let now := (s.cycleOf c).toNat
      let d := stBase x.ent + k * stStep x.ent
      if x.moves.any (fun m => m.k == k && m.done < (m.ownRuns x.rate).length) || x.freeTests.any (fun f => f.1 ≤ k) || !(s.enginesOn c)
          || now ≤ at_ || now < x.wroteAt || (dl && now < d + x.slip) then s
      else
        let late := dl && now > d && x.exempt ≤ d
        let async := x.asyncSlip || (val != 0 && d ≤ val && d < at_ + 1)
        let s1 := s.modSe c e (fun y => { y with acts := t, deliveries := (y.deliveries + 1) % 2 ^ 16, piecesMade := 0, slip := 0, asyncSlip := false,
                                                 wroteAt := 0, gate := y.gate.del k })
        let s2 := match rdy with | some ctr => s1.addFrom c ctr 1 | none => s1
        let s3 := if late && async then (s2.modSeAsyncLate c (fun n => satAdd top16 n 1)).detBreakCore c 1
          else if late then s2.modSeOndieLate c (fun n => satAdd top16 n 1) else s2
        s3.seSettle c e
    | _ => s)

/-- A held stack request is sent 4 cycles after its first piece (R207). -/
def execStackMergeSend (c e : Nat) (s : State) : Res := .next (s.seFlush c e)

/-- The cycle A that the acknowledgement of a device write is held to: that of the first signal that waits for it, else the completion's (R214). -/
def Se.ackDue (x : Se) (w : SeWrite) : Nat :=
  (x.acts.findSome? (fun a => match a with | .ssig _ _ _ mv win => if w.mv < mv then some win else none | _ => none)).getD x.asyncA

/-- An acknowledgement, or a refusal, of a device write (R214, R216): past its window it counts ACK_LATE in deterministic mode, or
STACK_CMD for a stack engine command (R371). -/
def execDeviceWriteAck (c e id : Nat) (status : Nat) (s : State) : Res :=
  let x := s.se c e
  .next (match x.writes.find? (fun p => p.id == id) with
    | none => s
    | some p =>
      let s1 := s.modSe c e (fun y => { y with writes := y.writes.filter (fun q => q.id != id), pushOut := y.pushOut.filter (fun q => q.1 != id),
                                               cmdA := y.cmdA.filter (fun q => q.1 != id) })
      let now := (s.cycleOf c).toNat
      let s2 :=
        if !(s.vat ((s.vatOfCore c).getD 0)).det.detOn then s1
        else match x.cmdA.find? (fun q => q.1 == id) with
          | some q => if q.2 < now then s1.detBreakCore c 0x10 else s1
          | none => if p.async && x.ackDue p < now then s1.detBreakCore c 4 else s1
      if status != eOk then s2.seFaultAt c e p.mv p.k status else s2.seSettle c e)

/-- The acknowledgement window ends: held signals are applied (R214). -/
def execAckWindowExpiry (c e : Nat) (s : State) : Res := .next (s.seSettle c e)

/-- The STREAM completes and its signal is applied (R219); an untimed one that read across a crossing counts STREAM_UNTIMED (R213). -/
def execStreamComplete (c e : Nat) (s : State) : Res :=
  let x := s.se c e
  .next (match x.entry with
    | none => s
    | some m =>
      if x.ended && x.acts.isEmpty && x.moves.isEmpty && x.reads.isEmpty && x.writes.isEmpty && s.ackOver c x.asyncA then
        let s1 := s.modSe c e (fun y => { y with entry := none })
        let s2 := if !(stDl m.toNat) && x.readAsync then s1.detBreakCore c 2 else s1
        s2.sigDone c (seQueue e) m
      else s)

end Sys2Proof.Machine
end

