-- ==== Sys2Proof/Machine/Vector.lean ====
section
/-! DEFINITION. The commands of the vector engine and the reduction unit (Chapter 5). -/

namespace Sys2Proof.Machine

/-- A VCHAIN at the head of the VEC queue has its chain record copied (R158). -/
def execChainRecordRead (c : Nat) (s : State) : Res :=
  .next (match (s.queue c 1).head with
    | none => s
    | some e =>
      if mMop e != 1 || (s.vec c).copy.isSome || !(s.enginesOn c) then s
      else
        let a := vcChain e.toNat
        if a + 64 > 0x7C000 then s.modVec c (fun x => { x with copy := some (0, 2) })
        else
          let sp := s.spad c
          (s.noteRead c a 64).modVec c (fun x => { x with copy := some (sp.nat a 64, if sp.bad a 64 then 1 else 0) }))

/-- Accept the head entry of the VEC queue with mop `mop` (R149): `f` checks and starts it, after its queue place is freed. -/
def State.vecAccept (s : State) (c mop : Nat) (f : State → W256 → State) : State :=
  match (s.queue c 1).head with
  | none => s
  | some e =>
    if mMop e != mop || !(s.enginesOn c) || !((s.vec c).admits e) then s
    else if !(s.sigRight c e) then (s.modVec c (fun x => { x with copy := none })).haltQueue c 1 ePermission e
    else f (s.popQ c 1) e

/-- VCHAIN: a fused chain is accepted and checked (R149, R157, R176). -/
def execVchain (c : Nat) (s : State) : Res :=
  .next (s.vecAccept c 1 (fun s e =>
    let m := e.toNat
    let (r, st) := ((s.vec c).copy).getD (0, 2)
    let sp := s.spad c
    let descs : Table Nat := (vchainTds m r).map (fun p => (p.1, sp.nat (descAt p.2) 64))
    let g := if vcO m then descs.get 0 3 else descs.get 0 0
    let mask := vcDynMask m
    let da := vcDynAddr m
    let dim : Table Nat := [(0, vPadded sp mask da g 0), (1, vPadded sp mask da g 1), (2, vValid sp mask da g 0), (3, vValid sp mask da g 1)]
    let q : VC := { m := m, r := r, descs := descs, dim := dim }
    let k := s.vchainCheck c q st
    let s1 := s.modVec c (fun x => { x with copy := none, vecMop := 1, redMop := if crRed r || st != 0 then 1 else x.redMop, groupsDone := 0 })
    if k != eOk then s1.reject c 1 k e
    else (s1.noteBytes c ((vchainTds m r).flatMap (fun p => (List.range 64).map (descAt p.2 + ·)))).modVec c (fun x =>
      { x with vec := some e, red := if crRed r then some e else x.red, chain := r, vdescs := descs, vdim := dim, groupsDone := 0, next := 0,
               entered := if crRed r then [] else x.entered })))

/-- VCHAIN completes: its remaining groups, then the signal (R164, R174, R175, R180). -/
def execVchainComplete (c : Nat) (s : State) : Res :=
  .next (match (s.vec c).vec with
    | some e =>
      if mMop e != 1 || !(s.enginesOn c) then s
      else
        let q := (s.vec c).vc e
        ((s.vchainRun c e q.total).modVec c (fun y =>
          { y with vec := none, red := (if crRed q.r then none else y.red), groupsDone := q.total % 2 ^ 24 })).sigDone c 1 e
    | none => s)

/-- Accept a tile macro-instruction (R155, R176). -/
def State.tileAccept (s : State) (c mop : Nat) : State :=
  s.vecAccept c mop (fun s e =>
    let m := e.toNat
    let sp := s.spad c
    let d := if mop = 4 then 0 else sp.nat (descAt (fld m 32 8)) 64
    let k := s.tileCheck c m mop d
    let s1 := s.modVec c (fun x => { x with vecMop := mop, groupsDone := 0 })
    if k != eOk then s1.reject c 1 k e
    else (if mop = 4 then s1 else s1.noteRead c (descAt (fld m 32 8)) 64).modVec c (fun x =>
      { x with vec := some e, vdescs := [(0, d)], groupsDone := 0, next := 0 }))

/-- A tile macro-instruction of mop `mop` completes: `f` makes its effect, then the signal (R155, R181). groups_done shows 32 rows, or groups of
128 elements in linear mode, and 0 for TFILL. (DESIGN CHOICE, log entry 144) -/
def State.tileDone (s : State) (c mop : Nat) (f : State → Nat → Nat → State) : State :=
  match (s.vec c).vec with
  | some e =>
    if mMop e != mop || !(s.enginesOn c) then s
    else
      let m := e.toNat
      ((f s m ((s.vec c).vdescs.get 0 0)).modVec c (fun x => { x with vec := none, groupsDone := tileGroups mop m })).sigDone c 1 e
  | none => s

/-- TLOAD is accepted (R155). -/
def execTload (c : Nat) (s : State) : Res := .next (s.tileAccept c 2)

/-- TLOAD finishes writing its tile (R155, R178). -/
def execTloadComplete (c : Nat) (s : State) : Res := .next (s.tileDone c 2 (fun s m d => s.tloadRun c m d 32))

/-- TSTORE is accepted (R155). -/
def execTstore (c : Nat) (s : State) : Res := .next (s.tileAccept c 3)

/-- TSTORE's writes are complete (R155). -/
def execTstoreComplete (c : Nat) (s : State) : Res := .next (s.tileDone c 3 (fun s m d => s.tstoreRun c m d 32))

/-- TFILL is accepted (R155). -/
def execTfill (c : Nat) (s : State) : Res := .next (s.tileAccept c 4)

/-- TFILL completes: every element takes the value and loses its poison (R155). -/
def execTfillComplete (c : Nat) (s : State) : Res :=
  .next (s.tileDone c 4 (fun s m _ => s.modVec c (fun x =>
    { x with tiles := (List.range 1024).foldl (fun t n => t.put (1024 * tlT m + n) { bits := fld m 64 32 }) x.tiles })))

/-- REDUCE is accepted and checked (R169, R176). -/
def execReduce (c : Nat) (s : State) : Res :=
  .next (s.vecAccept c 8 (fun s e =>
    let m := e.toNat
    let sp := s.spad c
    let x := sp.nat (descAt (fld m 32 8)) 64
    let o := sp.nat (descAt (fld m 40 8)) 64
    let k := s.reduceCheck c m x o
    let s1 := s.modVec c (fun y => { y with redMop := 8 })
    let mask := rdDynMask m
    let da := rdDynAddr m
    if k != eOk then s1.reject c 1 k e
    else ((s1.noteRead c (descAt (fld m 32 8)) 64)).modVec c (fun y =>
      { y with red := some e, rdescs := [(0, x), (1, o)], rnext := 0, entered := [],
               rdim := [(0, vPadded sp mask da x 0), (1, vPadded sp mask da x 1), (2, vValid sp mask da x 0), (3, vValid sp mask da x 1)] })))

/-- REDUCE completes: its results are visible, then the signal (R181). -/
def execReduceComplete (c : Nat) (s : State) : Res :=
  .next (match (s.vec c).red with
    | some e =>
      if mMop e != 8 || !(s.enginesOn c) || (s.reduceBad c e.toNat).isSome then s
      else ((s.reduceRun c e.toNat (reduceGroups (s.vec c)) (fun _ => true)).modVec c (fun x => { x with red := none })).sigDone c 1 e
    | none => s)

/-- An ACC96 input record with a foreign anchor or a reserved bit halts the VEC queue; outputs drained before it stay (R177). -/
def execAcc96InputHalt (c : Nat) (s : State) : Res :=
  .next (match (s.vec c).red with
    | some e =>
      if mMop e != 8 || !(s.enginesOn c) then s
      else match s.reduceBad c e.toNat with
        | some p => ((s.reduceRun c e.toNat (reduceGroups (s.vec c)) (keysBefore (rdAxis e.toNat) p)).modVec c (fun x => { x with red := none })).reject c 1 eFormat e
        | none => s
    | none => s)

end Sys2Proof.Machine
end

