-- ==== Sys2Proof/Machine/Dispatch.lean ====
section
/-! DEFINITION. One arm per command: the command's meaning on everything but the queue. -/

namespace Sys2Proof.Machine

/-- The effect of a command. -/
def exec (i : Instr) (s : State) : Host.Outcome State Fault Refusal :=
  match i with
  | .add c g rd rs1 rs2 => Sys2Proof.Machine.execAdd c g rd rs1 rs2 s
  | .sub c g rd rs1 rs2 => Sys2Proof.Machine.execSub c g rd rs1 rs2 s
  | .and c g rd rs1 rs2 => Sys2Proof.Machine.execAnd c g rd rs1 rs2 s
  | .or c g rd rs1 rs2 => Sys2Proof.Machine.execOr c g rd rs1 rs2 s
  | .xor c g rd rs1 rs2 => Sys2Proof.Machine.execXor c g rd rs1 rs2 s
  | .sll c g rd rs1 rs2 => Sys2Proof.Machine.execSll c g rd rs1 rs2 s
  | .srl c g rd rs1 rs2 => Sys2Proof.Machine.execSrl c g rd rs1 rs2 s
  | .sra c g rd rs1 rs2 => Sys2Proof.Machine.execSra c g rd rs1 rs2 s
  | .mul c g rd rs1 rs2 => Sys2Proof.Machine.execMul c g rd rs1 rs2 s
  | .mulh c g rd rs1 rs2 => Sys2Proof.Machine.execMulh c g rd rs1 rs2 s
  | .mulhu c g rd rs1 rs2 => Sys2Proof.Machine.execMulhu c g rd rs1 rs2 s
  | .div c g rd rs1 rs2 => Sys2Proof.Machine.execDiv c g rd rs1 rs2 s
  | .divu c g rd rs1 rs2 => Sys2Proof.Machine.execDivu c g rd rs1 rs2 s
  | .rem c g rd rs1 rs2 => Sys2Proof.Machine.execRem c g rd rs1 rs2 s
  | .remu c g rd rs1 rs2 => Sys2Proof.Machine.execRemu c g rd rs1 rs2 s
  | .min c g rd rs1 rs2 => Sys2Proof.Machine.execMin c g rd rs1 rs2 s
  | .max c g rd rs1 rs2 => Sys2Proof.Machine.execMax c g rd rs1 rs2 s
  | .minu c g rd rs1 rs2 => Sys2Proof.Machine.execMinu c g rd rs1 rs2 s
  | .maxu c g rd rs1 rs2 => Sys2Proof.Machine.execMaxu c g rd rs1 rs2 s
  | .addi c g rd rs1 imm => Sys2Proof.Machine.execAddi c g rd rs1 imm s
  | .andi c g rd rs1 imm => Sys2Proof.Machine.execAndi c g rd rs1 imm s
  | .ori c g rd rs1 imm => Sys2Proof.Machine.execOri c g rd rs1 imm s
  | .xori c g rd rs1 imm => Sys2Proof.Machine.execXori c g rd rs1 imm s
  | .slli c g rd rs1 sh => Sys2Proof.Machine.execSlli c g rd rs1 sh s
  | .srli c g rd rs1 sh => Sys2Proof.Machine.execSrli c g rd rs1 sh s
  | .srai c g rd rs1 sh => Sys2Proof.Machine.execSrai c g rd rs1 sh s
  | .li c g rd imm => Sys2Proof.Machine.execLi c g rd imm s
  | .lsi c g rd imm => Sys2Proof.Machine.execLsi c g rd imm s
  | .cmpEq c g pd rs1 rs2 => Sys2Proof.Machine.execCmpEq c g pd rs1 rs2 s
  | .cmpNe c g pd rs1 rs2 => Sys2Proof.Machine.execCmpNe c g pd rs1 rs2 s
  | .cmpLt c g pd rs1 rs2 => Sys2Proof.Machine.execCmpLt c g pd rs1 rs2 s
  | .cmpGe c g pd rs1 rs2 => Sys2Proof.Machine.execCmpGe c g pd rs1 rs2 s
  | .cmpLtu c g pd rs1 rs2 => Sys2Proof.Machine.execCmpLtu c g pd rs1 rs2 s
  | .cmpGeu c g pd rs1 rs2 => Sys2Proof.Machine.execCmpGeu c g pd rs1 rs2 s
  | .cmpiEq c g pd rs1 imm => Sys2Proof.Machine.execCmpiEq c g pd rs1 imm s
  | .cmpiNe c g pd rs1 imm => Sys2Proof.Machine.execCmpiNe c g pd rs1 imm s
  | .cmpiLt c g pd rs1 imm => Sys2Proof.Machine.execCmpiLt c g pd rs1 imm s
  | .cmpiGe c g pd rs1 imm => Sys2Proof.Machine.execCmpiGe c g pd rs1 imm s
  | .cmpiLtu c g pd rs1 imm => Sys2Proof.Machine.execCmpiLtu c g pd rs1 imm s
  | .cmpiGeu c g pd rs1 imm => Sys2Proof.Machine.execCmpiGeu c g pd rs1 imm s
  | .pand c g pd pa na pb nb => Sys2Proof.Machine.execPand c g pd pa na pb nb s
  | .por c g pd pa na pb nb => Sys2Proof.Machine.execPor c g pd pa na pb nb s
  | .pxor c g pd pa na pb nb => Sys2Proof.Machine.execPxor c g pd pa na pb nb s
  | .pget c g rd => Sys2Proof.Machine.execPget c g rd s
  | .pset c g rs1 => Sys2Proof.Machine.execPset c g rs1 s
  | .ldB c g rd rs1 imm => Sys2Proof.Machine.execLdB c g rd rs1 imm s
  | .ldBu c g rd rs1 imm => Sys2Proof.Machine.execLdBu c g rd rs1 imm s
  | .ldH c g rd rs1 imm => Sys2Proof.Machine.execLdH c g rd rs1 imm s
  | .ldHu c g rd rs1 imm => Sys2Proof.Machine.execLdHu c g rd rs1 imm s
  | .ldW c g rd rs1 imm => Sys2Proof.Machine.execLdW c g rd rs1 imm s
  | .ldWu c g rd rs1 imm => Sys2Proof.Machine.execLdWu c g rd rs1 imm s
  | .ldD c g rd rs1 imm => Sys2Proof.Machine.execLdD c g rd rs1 imm s
  | .stB c g rs2 rs1 imm => Sys2Proof.Machine.execStB c g rs2 rs1 imm s
  | .stH c g rs2 rs1 imm => Sys2Proof.Machine.execStH c g rs2 rs1 imm s
  | .stW c g rs2 rs1 imm => Sys2Proof.Machine.execStW c g rs2 rs1 imm s
  | .stD c g rs2 rs1 imm => Sys2Proof.Machine.execStD c g rs2 rs1 imm s
  | .ldrW c g rd rs1 imm => Sys2Proof.Machine.execLdrW c g rd rs1 imm s
  | .ldrD c g rd rs1 imm => Sys2Proof.Machine.execLdrD c g rd rs1 imm s
  | .strW c g rs2 rs1 imm => Sys2Proof.Machine.execStrW c g rs2 rs1 imm s
  | .strD c g rs2 rs1 imm => Sys2Proof.Machine.execStrD c g rs2 rs1 imm s
  | .ldrReturn c ans => Sys2Proof.Machine.execLdrReturn c ans s
  | .strRefused c addr status => Sys2Proof.Machine.execStrRefused c addr status s
  | .mfs c g rd sr => Sys2Proof.Machine.execMfs c g rd sr s
  | .mts c g rs1 sr => Sys2Proof.Machine.execMts c g rs1 sr s
  | .mset c g rs1 sr => Sys2Proof.Machine.execMset c g rs1 sr s
  | .mclr c g rs1 sr => Sys2Proof.Machine.execMclr c g rs1 sr s
  | .qctlRetry c q => Sys2Proof.Machine.execQctlRetry c q s
  | .qctlDrop c q => Sys2Proof.Machine.execQctlDrop c q s
  | .br c g off => Sys2Proof.Machine.execBr c g off s
  | .call c g off => Sys2Proof.Machine.execCall c g off s
  | .jr c g rs1 imm => Sys2Proof.Machine.execJr c g rs1 imm s
  | .jalr c g rd rs1 imm => Sys2Proof.Machine.execJalr c g rd rs1 imm s
  | .dbnz c g rd imm => Sys2Proof.Machine.execDbnz c g rd imm s
  | .eret c g => Sys2Proof.Machine.execEret c g s
  | .endProg c g => Sys2Proof.Machine.execEndProg c g s
  | .halt c g => Sys2Proof.Machine.execHalt c g s
  | .nop c g => Sys2Proof.Machine.execNop c g s
  | .mfence c g => Sys2Proof.Machine.execMfence c g s
  | .mfenceComplete c => Sys2Proof.Machine.execMfenceComplete c s
  | .trap c g code => Sys2Proof.Machine.execTrap c g code s
  | .brk c g => Sys2Proof.Machine.execBrk c g s
  | .wfi c g => Sys2Proof.Machine.execWfi c g s
  | .wfiWake c => Sys2Proof.Machine.execWfiWake c s
  | .interruptTaken c ev => Sys2Proof.Machine.execInterruptTaken c ev s
  | .issue c g q nb rs1 pd imm => Sys2Proof.Machine.execIssue c g q nb rs1 pd imm s
  | .issueB c g q nb pd => Sys2Proof.Machine.execIssueB c g q nb pd s
  | .issueReserve c => Sys2Proof.Machine.execIssueReserve c s
  | .ibins c g ib pos lenm1 rs1 => Sys2Proof.Machine.execIbins c g ib pos lenm1 rs1 s
  | .qwait c g nb pd mask => Sys2Proof.Machine.execQwait c g nb pd mask s
  | .qwaitRetire c => Sys2Proof.Machine.execQwaitRetire c s
  | .sadd c g rs1 rs2 => Sys2Proof.Machine.execSadd c g rs1 rs2 s
  | .ssub c g rs1 rs2 => Sys2Proof.Machine.execSsub c g rs1 rs2 s
  | .swait c g rs1 rs2 cond dec => Sys2Proof.Machine.execSwait c g rs1 rs2 cond dec s
  | .sread c g rd rs1 => Sys2Proof.Machine.execSread c g rd rs1 s
  | .wait c q => Sys2Proof.Machine.execWait c q s
  | .signal c q => Sys2Proof.Machine.execSignal c q s
  | .matmul c => Sys2Proof.Machine.execMatmul c s
  | .matmulSp c => Sys2Proof.Machine.execMatmulSp c s
  | .matRingTestPass c => Sys2Proof.Machine.execMatRingTestPass c s
  | .accInFormatHalt c => Sys2Proof.Machine.execAccInFormatHalt c s
  | .matmulComplete c => Sys2Proof.Machine.execMatmulComplete c s
  | .chainRecordRead c => Sys2Proof.Machine.execChainRecordRead c s
  | .vchain c => Sys2Proof.Machine.execVchain c s
  | .vchainComplete c => Sys2Proof.Machine.execVchainComplete c s
  | .tload c => Sys2Proof.Machine.execTload c s
  | .tloadComplete c => Sys2Proof.Machine.execTloadComplete c s
  | .tstore c => Sys2Proof.Machine.execTstore c s
  | .tstoreComplete c => Sys2Proof.Machine.execTstoreComplete c s
  | .tfill c => Sys2Proof.Machine.execTfill c s
  | .tfillComplete c => Sys2Proof.Machine.execTfillComplete c s
  | .reduce c => Sys2Proof.Machine.execReduce c s
  | .reduceComplete c => Sys2Proof.Machine.execReduceComplete c s
  | .acc96InputHalt c => Sys2Proof.Machine.execAcc96InputHalt c s
  | .stream c e => Sys2Proof.Machine.execStream c e s
  | .spload c e => Sys2Proof.Machine.execSpload c e s
  | .sploadComplete c e => Sys2Proof.Machine.execSploadComplete c e s
  | .seta c e => Sys2Proof.Machine.execSeta c e s
  | .adda c e => Sys2Proof.Machine.execAdda c e s
  | .addr c e => Sys2Proof.Machine.execAddr c e s
  | .ldd c e => Sys2Proof.Machine.execLdd c e s
  | .setx c e => Sys2Proof.Machine.execSetx c e s
  | .loop c e => Sys2Proof.Machine.execLoop c e s
  | .loopm c e => Sys2Proof.Machine.execLoopm c e s
  | .mov c e => Sys2Proof.Machine.execMov c e s
  | .cvt c e => Sys2Proof.Machine.execCvt c e s
  | .page c e => Sys2Proof.Machine.execPage c e s
  | .streamReadReturn c e id ans => Sys2Proof.Machine.execStreamReadReturn c e id ans s
  | .rfill c e => Sys2Proof.Machine.execRfill c e s
  | .rfillFreeTestPass c e => Sys2Proof.Machine.execRfillFreeTestPass c e s
  | .rdone c e => Sys2Proof.Machine.execRdone c e s
  | .rtake c e => Sys2Proof.Machine.execRtake c e s
  | .rtakePass c e => Sys2Proof.Machine.execRtakePass c e s
  | .rfree c e => Sys2Proof.Machine.execRfree c e s
  | .push c e => Sys2Proof.Machine.execPush c e s
  | .pop c e => Sys2Proof.Machine.execPop c e s
  | .swt c e => Sys2Proof.Machine.execSwt c e s
  | .ssig c e => Sys2Proof.Machine.execSsig c e s
  | .deliv c e => Sys2Proof.Machine.execDeliv c e s
  | .streamEnd c e => Sys2Proof.Machine.execStreamEnd c e s
  | .deliveryPieceWrite c e => Sys2Proof.Machine.execDeliveryPieceWrite c e s
  | .deliveryAction c e => Sys2Proof.Machine.execDeliveryAction c e s
  | .stackMergeSend c e => Sys2Proof.Machine.execStackMergeSend c e s
  | .deviceWriteAck c e id status => Sys2Proof.Machine.execDeviceWriteAck c e id status s
  | .ackWindowExpiry c e => Sys2Proof.Machine.execAckWindowExpiry c e s
  | .streamComplete c e => Sys2Proof.Machine.execStreamComplete c e s
  | .send c => Sys2Proof.Machine.execSend c s
  | .sendMessage c => Sys2Proof.Machine.execSendMessage c s
  | .sendM c => Sys2Proof.Machine.execSendM c s
  | .rsync c => Sys2Proof.Machine.execRsync c s
  | .openChan c => Sys2Proof.Machine.execOpenChan c s
  | .closeChan c => Sys2Proof.Machine.execCloseChan c s
  | .channelData c m => Sys2Proof.Machine.execChannelData c m s
  | .endpointFreeTestPass c e => Sys2Proof.Machine.execEndpointFreeTestPass c e s
  | .spillDrain c e ans => Sys2Proof.Machine.execSpillDrain c e ans s
  | .creditReturn c e m => Sys2Proof.Machine.execCreditReturn c e m s
  | .landingAck c e m => Sys2Proof.Machine.execLandingAck c e m s
  | .sendRefused c e mc seq status => Sys2Proof.Machine.execSendRefused c e mc seq status s
  | .mailboxMessage c m => Sys2Proof.Machine.execMailboxMessage c m s
  | .mailboxAnswer c m => Sys2Proof.Machine.execMailboxAnswer c m s
  | .mailboxClear c e => Sys2Proof.Machine.execMailboxClear c e s
  | .openPacket c m => Sys2Proof.Machine.execOpenPacket c m s
  | .accept c m => Sys2Proof.Machine.execAccept c m s
  | .reject c e m => Sys2Proof.Machine.execReject c e m s
  | .closePacket m => Sys2Proof.Machine.execClosePacket m s
  | .openTimeout c => Sys2Proof.Machine.execOpenTimeout c s
  | .deadlockDetect c e => Sys2Proof.Machine.execDeadlockDetect c e s
  | .releaseCycle c e => Sys2Proof.Machine.execReleaseCycle c e s
  | .syncApply node => Sys2Proof.Machine.execSyncApply node s
  | .syncWord c w => Sys2Proof.Machine.execSyncWord c w s
  | .syncFrameReceive port => Sys2Proof.Machine.execSyncFrameReceive port s
  | .syncFrameRelease idx => Sys2Proof.Machine.execSyncFrameRelease idx s
  | .meshPacketRoute r inPort hdr data marks => Sys2Proof.Machine.execMeshPacketRoute r inPort hdr data marks s
  | .ctlPacketRoute n inPort hdr pay => Sys2Proof.Machine.execCtlPacketRoute n inPort hdr pay s
  | .fenceNotice c copy => Sys2Proof.Machine.execFenceNotice c copy s
  | .windowRead c off len by_ => Sys2Proof.Machine.execWindowRead c off len by_ s
  | .windowWrite c off data bad by_ => Sys2Proof.Machine.execWindowWrite c off data bad by_ s
  | .load v src => Sys2Proof.Machine.execLoad v src s
  | .loadFrameFetch v idx rec bad => Sys2Proof.Machine.execLoadFrameFetch v idx rec bad s
  | .loadCheckComplete v => Sys2Proof.Machine.execLoadCheckComplete v s
  | .loadWriteComplete v => Sys2Proof.Machine.execLoadWriteComplete v s
  | .loadFinish v => Sys2Proof.Machine.execLoadFinish v s
  | .abort v src => Sys2Proof.Machine.execAbort v src s
  | .release v src => Sys2Proof.Machine.execRelease v src s
  | .start v src => Sys2Proof.Machine.execStart v src s
  | .sheetStart v => Sys2Proof.Machine.execSheetStart v s
  | .coreStart c => Sys2Proof.Machine.execCoreStart c s
  | .sheetEnd v => Sys2Proof.Machine.execSheetEnd v s
  | .forcedStop v => Sys2Proof.Machine.execForcedStop v s
  | .stop v r => Sys2Proof.Machine.execStop v r s
  | .drainTimeout v => Sys2Proof.Machine.execDrainTimeout v s
  | .scanOutStart v => Sys2Proof.Machine.execScanOutStart v s
  | .scanOutComplete v => Sys2Proof.Machine.execScanOutComplete v s
  | .scanIn v src => Sys2Proof.Machine.execScanIn v src s
  | .scanInComplete v => Sys2Proof.Machine.execScanInComplete v s
  | .resume v src => Sys2Proof.Machine.execResume v src s
  | .plan r => Sys2Proof.Machine.execPlan r s
  | .kill v r => Sys2Proof.Machine.execKill v r s
  | .vatReset v r => Sys2Proof.Machine.execVatReset v r s
  | .wipeComplete v => Sys2Proof.Machine.execWipeComplete v s
  | .arm v x => Sys2Proof.Machine.execArm v x s
  | .launchTick v => Sys2Proof.Machine.execLaunchTick v s
  | .gtcSet t => Sys2Proof.Machine.execGtcSet t s
  | .gtcAlarm => Sys2Proof.Machine.execGtcAlarm s
  | .treqSend => Sys2Proof.Machine.execTreqSend s
  | .treqReceive port => Sys2Proof.Machine.execTreqReceive port s
  | .trspReceive port => Sys2Proof.Machine.execTrspReceive port s
  | .syncLossTimeout => Sys2Proof.Machine.execSyncLossTimeout s
  | .refreshSlot idx => Sys2Proof.Machine.execRefreshSlot idx s
  | .stackTempRead idx t => Sys2Proof.Machine.execStackTempRead idx t s
  | .stackRead who a n => Sys2Proof.Machine.execStackRead who a n s
  | .stackReadReturn k => Sys2Proof.Machine.execStackReadReturn k s
  | .stackWrite who a data bad => Sys2Proof.Machine.execStackWrite who a data bad s
  | .readModifyWriteAck k => Sys2Proof.Machine.execReadModifyWriteAck k s
  | .stackCommand by_ v off data bad => Sys2Proof.Machine.execStackCommand by_ v off data bad s
  | .stackCommandStart v => Sys2Proof.Machine.execStackCommandStart v s
  | .accum id => Sys2Proof.Machine.execAccum id s
  | .convert id => Sys2Proof.Machine.execConvert id s
  | .adam id => Sys2Proof.Machine.execAdam id s
  | .lamb id => Sys2Proof.Machine.execLamb id s
  | .sgd id => Sys2Proof.Machine.execSgd id s
  | .sumsq id => Sys2Proof.Machine.execSumsq id s
  | .gather id => Sys2Proof.Machine.execGather id s
  | .scatterAdd id => Sys2Proof.Machine.execScatterAdd id s
  | .kvcopy id => Sys2Proof.Machine.execKvcopy id s
  | .wipe id => Sys2Proof.Machine.execWipe id s
  | .vdef id => Sys2Proof.Machine.execVdef id s
  | .vpin id => Sys2Proof.Machine.execVpin id s
  | .vunpin id => Sys2Proof.Machine.execVunpin id s
  | .controllerRingExchange id => Sys2Proof.Machine.execControllerRingExchange id s
  | .stackShareComplete id k => Sys2Proof.Machine.execStackShareComplete id k s
  | .setAsideRelease id => Sys2Proof.Machine.execSetAsideRelease id s
  | .stackCommandComplete id => Sys2Proof.Machine.execStackCommandComplete id s
  | .couchReset v => Sys2Proof.Machine.execCouchReset v s
  | .advLoad v x => Sys2Proof.Machine.execAdvLoad v x s
  | .advClose v x => Sys2Proof.Machine.execAdvClose v x s
  | .advCloseComplete v => Sys2Proof.Machine.execAdvCloseComplete v s
  | .seqAdmit v slot => Sys2Proof.Machine.execSeqAdmit v slot s
  | .pause v slot => Sys2Proof.Machine.execPause v slot s
  | .seqResume v slot => Sys2Proof.Machine.execSeqResume v slot s
  | .seqStop v slot => Sys2Proof.Machine.execSeqStop v slot s
  | .retire v slot => Sys2Proof.Machine.execRetire v slot s
  | .grow v slot arg => Sys2Proof.Machine.execGrow v slot arg s
  | .step v src => Sys2Proof.Machine.execStep v src s
  | .stepNoadv v src => Sys2Proof.Machine.execStepNoadv v src s
  | .batchReset v src => Sys2Proof.Machine.execBatchReset v src s
  | .stepComplete v => Sys2Proof.Machine.execStepComplete v s
  | .balNext v group member => Sys2Proof.Machine.execBalNext v group member s
  | .pairReceive port x corrected => Sys2Proof.Machine.execPairReceive port x corrected s
  | .retrain port => Sys2Proof.Machine.execRetrain port s
  | .lossOfSignal port => Sys2Proof.Machine.execLossOfSignal port s
  | .signalDetect port => Sys2Proof.Machine.execSignalDetect port s
  | .trainingComplete port => Sys2Proof.Machine.execTrainingComplete port s
  | .trainTimeout port => Sys2Proof.Machine.execTrainTimeout port s
  | .alignComplete port reversed => Sys2Proof.Machine.execAlignComplete port reversed s
  | .alignTimeout port => Sys2Proof.Machine.execAlignTimeout port s
  | .hello port => Sys2Proof.Machine.execHello port s
  | .helloTimeout port => Sys2Proof.Machine.execHelloTimeout port s
  | .linkDownFrame port => Sys2Proof.Machine.execLinkDownFrame port s
  | .spanPortEnable port x => Sys2Proof.Machine.execSpanPortEnable port x s
  | .frameJoinTimeout port => Sys2Proof.Machine.execFrameJoinTimeout port s
  | .rread port => Sys2Proof.Machine.execRread port s
  | .rwrite port => Sys2Proof.Machine.execRwrite port s
  | .rdata port => Sys2Proof.Machine.execRdata port s
  | .rack port => Sys2Proof.Machine.execRack port s
  | .chan port => Sys2Proof.Machine.execChan port s
  | .chreq port => Sys2Proof.Machine.execChreq port s
  | .chrsp port => Sys2Proof.Machine.execChrsp port s
  | .refuse port => Sys2Proof.Machine.execRefuse port s
  | .requestTimeout port => Sys2Proof.Machine.execRequestTimeout port s
  | .exportWindowClose v idx => Sys2Proof.Machine.execExportWindowClose v idx s
  | .pairActive => Sys2Proof.Machine.execPairActive s
  | .pairMirror => Sys2Proof.Machine.execPairMirror s
  | .pairingTimeout => Sys2Proof.Machine.execPairingTimeout s
  | .unpair => Sys2Proof.Machine.execUnpair s
  | .handover => Sys2Proof.Machine.execHandover s
  | .takeover => Sys2Proof.Machine.execTakeover s
  | .takeoverComplete => Sys2Proof.Machine.execTakeoverComplete s
  | .beatSend => Sys2Proof.Machine.execBeatSend s
  | .beatReceive => Sys2Proof.Machine.execBeatReceive s
  | .heartbeatLoss => Sys2Proof.Machine.execHeartbeatLoss s
  | .mirrorEnable v x => Sys2Proof.Machine.execMirrorEnable v x s
  | .mirrorDisable v x => Sys2Proof.Machine.execMirrorDisable v x s
  | .ctlEnable => Sys2Proof.Machine.execCtlEnable s
  | .ctlDisable => Sys2Proof.Machine.execCtlDisable s
  | .ctlHandover => Sys2Proof.Machine.execCtlHandover s
  | .ctlrsp => Sys2Proof.Machine.execCtlrsp s
  | .twinCommit v => Sys2Proof.Machine.execTwinCommit v s
  | .resync v => Sys2Proof.Machine.execResync v s
  | .mwrite => Sys2Proof.Machine.execMwrite s
  | .mrec => Sys2Proof.Machine.execMrec s
  | .commitFrame => Sys2Proof.Machine.execCommitFrame s
  | .cack => Sys2Proof.Machine.execCack s
  | .mack => Sys2Proof.Machine.execMack s
  | .commitApplied v => Sys2Proof.Machine.execCommitApplied v s
  | .assign v src job => Sys2Proof.Machine.execAssign v src job s
  | .releaseJob v r => Sys2Proof.Machine.execReleaseJob v r s
  | .releaseWipeComplete v => Sys2Proof.Machine.execReleaseWipeComplete v s
  | .reclaim v r => Sys2Proof.Machine.execReclaim v r s
  | .yield v => Sys2Proof.Machine.execYield v s
  | .reclaimDeadline v => Sys2Proof.Machine.execReclaimDeadline v s
  | .evacuate v r => Sys2Proof.Machine.execEvacuate v r s
  | .evacuationComplete v => Sys2Proof.Machine.execEvacuationComplete v s
  | .evacuationFailure v status => Sys2Proof.Machine.execEvacuationFailure v status s
  | .accountingWindowEnd => Sys2Proof.Machine.execAccountingWindowEnd s
  | .calibrationInterval measured => Sys2Proof.Machine.execCalibrationInterval measured s
  | .sqTail fn r len x => Sys2Proof.Machine.execSqTail fn r len x s
  | .cqHead fn r len x => Sys2Proof.Machine.execCqHead fn r len x s
  | .sheet fn r len x => Sys2Proof.Machine.execSheet fn r len x s
  | .entryFetch r ans => Sys2Proof.Machine.execEntryFetch r ans s
  | .completionRecordWrite r => Sys2Proof.Machine.execCompletionRecordWrite r s
  | .ringDisable fn r => Sys2Proof.Machine.execRingDisable fn r s
  | .functionLevelReset fn => Sys2Proof.Machine.execFunctionLevelReset fn s
  | .memoryWindowRead fn off len => Sys2Proof.Machine.execMemoryWindowRead fn off len s
  | .memoryWindowWrite fn off data ep => Sys2Proof.Machine.execMemoryWindowWrite fn off data ep s
  | .hostSadd r v => Sys2Proof.Machine.execHostSadd r v s
  | .seq r v => Sys2Proof.Machine.execSeq r v s
  | .stkcmd r v => Sys2Proof.Machine.execStkcmd r v s
  | .copy r v => Sys2Proof.Machine.execCopy r v s
  | .copyComplete r uid => Sys2Proof.Machine.execCopyComplete r uid s
  | .hostNop r => Sys2Proof.Machine.execHostNop r s
  | .twin r => Sys2Proof.Machine.execTwin r s
  | .irqEvent n => Sys2Proof.Machine.execIrqEvent n s
  | .irqClaim t debug => Sys2Proof.Machine.execIrqClaim t debug s
  | .irqComplete w t n => Sys2Proof.Machine.execIrqComplete w t n s
  | .wakeWatchEvent n => Sys2Proof.Machine.execWakeWatchEvent n s
  | .wakeLatchDeliver => Sys2Proof.Machine.execWakeLatchDeliver s
  | .errorReport src event status vat info0 info1 => Sys2Proof.Machine.execErrorReport src event status vat info0 info1 s
  | .errlogTail w x => Sys2Proof.Machine.execErrlogTail w x s
  | .coreFence w cl pos => Sys2Proof.Machine.execCoreFence w cl pos s
  | .deviceFault block => Sys2Proof.Machine.execDeviceFault block s
  | .vatHostMsg fn v x => Sys2Proof.Machine.execVatHostMsg fn v x s
  | .hostToMgmt x => Sys2Proof.Machine.execHostToMgmt x s
  | .mgmtToHost x => Sys2Proof.Machine.execMgmtToHost x s
  | .dvfsSwitch => Sys2Proof.Machine.execDvfsSwitch s
  | .droopTrip sensor drop => Sys2Proof.Machine.execDroopTrip sensor drop s
  | .stretchEnd above => Sys2Proof.Machine.execStretchEnd above s
  | .thermalSample t => Sys2Proof.Machine.execThermalSample t s
  | .throttleStep => Sys2Proof.Machine.execThrottleStep s
  | .throttleRecovery => Sys2Proof.Machine.execThrottleRecovery s
  | .powerSample mv ma nj => Sys2Proof.Machine.execPowerSample mv ma nj s
  | .capWindow => Sys2Proof.Machine.execCapWindow s
  | .capRiseWindow => Sys2Proof.Machine.execCapRiseWindow s
  | .telemetryUpdate inlet conv => Sys2Proof.Machine.execTelemetryUpdate inlet conv s
  | .coreGate c => Sys2Proof.Machine.execCoreGate c s
  | .clusterPowerRequest w cl req => Sys2Proof.Machine.execClusterPowerRequest w cl req s
  | .clusterPowerEntry cl => Sys2Proof.Machine.execClusterPowerEntry cl s
  | .clusterWakeComplete cl => Sys2Proof.Machine.execClusterWakeComplete cl s
  | .sleepRequest w => Sys2Proof.Machine.execSleepRequest w s
  | .deviceWake => Sys2Proof.Machine.execDeviceWake s
  | .moduleStart mv ticks off => Sys2Proof.Machine.execModuleStart mv ticks off s
  | .moduleStop mv en ticks => Sys2Proof.Machine.execModuleStop mv en ticks s
  | .coldReset => Sys2Proof.Machine.execColdReset s
  | .resetCold w key => Sys2Proof.Machine.execResetCold w key s
  | .resetWarm w key => Sys2Proof.Machine.execResetWarm w key s
  | .warmReset => Sys2Proof.Machine.execWarmReset s
  | .perstAssert => Sys2Proof.Machine.execPerstAssert s
  | .perstDeassert => Sys2Proof.Machine.execPerstDeassert s
  | .romBoot errA errB => Sys2Proof.Machine.execRomBoot errA errB s
  | .protSeal w => Sys2Proof.Machine.execProtSeal w s
  | .vmStart w v entry evec => Sys2Proof.Machine.execVmStart w v entry evec s
  | .vmChtabApply w v e x => Sys2Proof.Machine.execVmChtabApply w v e x s
  | .lifecycleRequest w toSt tokOff => Sys2Proof.Machine.execLifecycleRequest w toSt tokOff s
  | .lifecycleStrapSample => Sys2Proof.Machine.execLifecycleStrapSample s
  | .fuseProg w item idx value => Sys2Proof.Machine.execFuseProg w item idx value s
  | .fuseProgramComplete => Sys2Proof.Machine.execFuseProgramComplete s
  | .s1StrapChange on ticks => Sys2Proof.Machine.execS1StrapChange on ticks s
  | .extest => Sys2Proof.Machine.execExtest s
  | .dapRead addr size => Sys2Proof.Machine.execDapRead addr size s
  | .dapWrite addr size data => Sys2Proof.Machine.execDapWrite addr size data s
  | .dapHalt c => Sys2Proof.Machine.execDapHalt c s
  | .dapResume c => Sys2Proof.Machine.execDapResume c s
  | .dapStep c => Sys2Proof.Machine.execDapStep c s
  | .dapStepTimeout c => Sys2Proof.Machine.execDapStepTimeout c s
  | .dapNop => Sys2Proof.Machine.execDapNop s
  | .dapTransactionComplete => Sys2Proof.Machine.execDapTransactionComplete s
  | .getAcct vdm seq => Sys2Proof.Machine.execGetAcct vdm seq s
  | .getLog vdm => Sys2Proof.Machine.execGetLog vdm s
  | .getLc vdm => Sys2Proof.Machine.execGetLc vdm s
  | .mctpReset vdm => Sys2Proof.Machine.execMctpReset vdm s
  | .lcReq vdm toSt token => Sys2Proof.Machine.execLcReq vdm toSt token s
  | .firmwareUpdate vdm image wp => Sys2Proof.Machine.execFirmwareUpdate vdm image wp s
  | .flashRead w => Sys2Proof.Machine.execFlashRead w s
  | .flashProgram w wp => Sys2Proof.Machine.execFlashProgram w wp s
  | .flashErase w wp => Sys2Proof.Machine.execFlashErase w wp s
  | .flashCommandComplete err => Sys2Proof.Machine.execFlashCommandComplete err s
  | .rcRead w off size => Sys2Proof.Machine.execRcRead w off size s
  | .wideRegisterRead w off => Sys2Proof.Machine.execWideRegisterRead w off s
  | .coreViewAccess w write o size data => Sys2Proof.Machine.execCoreViewAccess w write o size data s
  | .scanWindowAccess w write o size data => Sys2Proof.Machine.execScanWindowAccess w write o size data s
  | .syncCtrSet w ctr value => Sys2Proof.Machine.execSyncCtrSet w ctr value s
  | .connClose w idx => Sys2Proof.Machine.execConnClose w idx s
  | .registerWrite w off size data => Sys2Proof.Machine.execRegisterWrite w off size data s
  | .reservedMop c q => Sys2Proof.Machine.execReservedMop c q s
  | .resetWipeComplete => Sys2Proof.Machine.execResetWipeComplete s
  | .bankRefresh idx => Sys2Proof.Machine.execBankRefresh idx s
  | .spillWriteAck c e => Sys2Proof.Machine.execSpillWriteAck c e s
  | .pairSend port => Sys2Proof.Machine.execPairSend port s
  | .hostLinkUp rate width => Sys2Proof.Machine.execHostLinkUp rate width s
  | .hostLinkDown => Sys2Proof.Machine.execHostLinkDown s
  | .hotReset => Sys2Proof.Machine.execHotReset s
  | .hostReadCompletion r uid off ans => Sys2Proof.Machine.execHostReadCompletion r uid off ans s
  | .dmaCompletionTimeout r copy => Sys2Proof.Machine.execDmaCompletionTimeout r copy s
  | .testLogicReset => Sys2Proof.Machine.execTestLogicReset s

end Sys2Proof.Machine
end

