-- ==== Sys2Proof/Machine/Tick.lean ====
section
/-! DEFINITION. The passage of time with no command waiting, by one fast-clock cycle: the clocks (R4, R5, R564), the refresh slot setting (R346), idle counts
(R567), the accounting of cycles (R502), fetches that meet no instruction (R80), and
the groups that a halted core's vector units finish (R179). -/

namespace Sys2Proof.Machine

/-- Length of a fast-clock cycle in 2160ths of a tick (Table 10.1); a stretched cycle lasts twice as long (R564). (DESIGN CHOICE, log entry 108) -/
def State.cycleLen (s : State) : Nat := (if s.pwr.stretch then 2 else 1) * (43200 / cyclesPer20 s.hub.dvfs)

/-- The next instant of the clocks: fast-clock cycles that pass, ticks that begin, and the part of a tick then passed. It is the next cycle
edge, where blocks read the counter rounded down to whole ticks (R333); while the fast clock stands still it is the next tick. (DESIGN CHOICE, log entry 108) -/
def State.nextEdge (s : State) : Nat × Nat × Nat :=
  if s.fastOn then (1, (s.clk.phase + s.cycleLen) / 2160, (s.clk.phase + s.cycleLen) % 2160)
  else (0, 1, edgePhase (s.clk.gtc.toNat + 1) s.hub.dvfs)

/-- The clocks at the next instant; an always-on cycle is 40 ticks (R4, R6). -/
def State.tickClock (s : State) : State :=
  let n := s.nextEdge
  { s with clk := { gtc := s.clk.gtc + BitVec.ofNat 64 n.2.1, prev := s.clk.gtc, fast := s.clk.fast + BitVec.ofNat 64 n.1, phase := n.2.2,
                    ao := s.clk.ao + BitVec.ofNat 64 ((s.clk.aoTick + n.2.1) / 40), aoTick := (s.clk.aoTick + n.2.1) % 40 } }

/-- A waiting DET_REFSLOT value takes effect at a slot boundary (Table 10.15): a multiple of the period among the last `n` ticks. (DEDUCED, log entry 126) -/
def State.tickSlot (s : State) (n : Nat) : State :=
  match s.hub.refPend with
  | none => s
  | some (p, l, e) =>
    if s.clk.gtc.toNat % s.hub.refPeriod < n then { s with hub := { s.hub with refPeriod := p, refLen := l, refEn := e, refPend := none } } else s

/-- Stretched cycles (R565, Table 19.7). (DESIGN CHOICE, log entry 108) -/
def State.tickStretch (s : State) (n : Nat) : State :=
  if s.pwr.stretch then ({ s with pwr := { s.pwr with m := s.pwr.m + n, cycles := s.pwr.cycles + BitVec.ofNat 64 n } }).markStretched else s

/-- The idle count of every core that is not idle starts again, and such a core is not GATED (R567). -/
def State.tickIdle (s : State) : State :=
  { s with cores := { s.cores with ctls := s.cores.ctls.map (fun p => (p.1, if s.idleCore p.1 then p.2 else { p.2 with idleSince := s.clk.fast, gated := false })) } }

/-- How many of a vat's cores meet a condition. (DESIGN CHOICE, log entry 39) -/
def State.busyCores (s : State) (v : Nat) (f : Nat → Bool) : Nat := ((s.vatCores v).filter f).length

/-- The cycle counts of a vat over `n` cycles (Table 16.3); the wide scratchpad beats are a free value. (DESIGN CHOICE, log entry 39) -/
def State.tickVat (s : State) (n v : Nat) : State :=
  if !(s.planOf v).valid then s
  else
    let se := fun c => ((List.range 4).filter (fun e => (s.se c e).entry.isSome)).length
    let ses := (s.vatCores v).foldl (fun t c => t + se c) 0
    let s1 := s.account v 0 (n * s.busyCores v (fun c => (s.ctl c).run == .running))
    let s2 := s1.account v 1 (n * s.busyCores v (fun c => (s.mat c).entry.isSome))
    let s3 := s2.account v 4 (n * s.busyCores v (fun c => (s.vec c).vec.isSome))
    let s4 := s3.account v 6 (n * s.busyCores v (fun c => (s.vec c).red.isSome))
    let s5 := s4.account v 8 (n * ses)
    let s6 := s5.account v 9 (n * s.busyCores v (fun c => (s.chn c).entry.isSome))
    let (f, s7) := s6.drawFree
    s7.account v 10 f.toNat

/-- A SEND that has landed everywhere completes at the end of its window (R279). -/
def State.chnWindow (s : State) (c : Nat) : State := if (s.chn c).landed && s.sendWindow c ≤ s.clk.fast.toNat then s.chnDone c else s

/-- One cycle of the fast clock, or one tick while it stands still. Without input power nothing happens.
At its end each control processor that can start an instruction fetches. (DESIGN CHOICE, log entry 1; DESIGN CHOICE, log entry 7) -/
def State.tick (s : State) : State :=
  if !s.pwr.on then s
  else
    let n := s.nextEdge.1
    let s1 := ((s.tickClock.tickSlot s.nextEdge.2.1).tickStretch n).holdStretch
    let s2 := (List.range 16).foldl (fun s v => s.tickVat n v) s1.tickIdle
    let s3 := s2.cores.ctls.foldl (fun s p => s.fetch p.1) s2
    let s4 := s3.cores.chns.foldl (fun s p => s.chnWindow p.1) s3
    s4.cores.vecs.foldl (fun s p => s.vecSettle p.1) s4

end Sys2Proof.Machine
end

