-- ==== Sys2Proof/WellFormed.lean ====
section
/-! DEFINITION. Well-formed commands: every number an operand carries names something the device has (R24-R29, R197, R251, R290, R519,
Tables 18.1 and 21.1). A command that is not well formed names nothing; its meaning then leaves the state as it is or records a refusal. -/

namespace Sys2Proof

/-- A core position, a control processor (the management core is 4096), a cluster, and a cluster node or the hub. -/
def inCore (c : Nat) : Bool := decide (c < 4096)
def inCpu (c : Nat) : Bool := decide (c ≤ 4096)
def inCluster (cl : Nat) : Bool := decide (cl < 64)
def inHub (n : Nat) : Bool := decide (n ≤ 64)
/-- An engine queue, a stream engine, a channel endpoint, a sync counter. -/
def inQueue (q : Nat) : Bool := decide (q < 7)
def inEngine (e : Nat) : Bool := decide (e < 4)
def inEp (e : Nat) : Bool := decide (e < 64)
def inCounter (a : Nat) : Bool := decide (a < 0x4040)
/-- An input port of a mesh router and of a control network node. -/
def inMesh (p : Nat) : Bool := decide (p ≤ 5)
def inCtl (p : Nat) : Bool := decide (p ≤ 6)
/-- A vat, a stack, an export window, a connection, a sequence slot. -/
def inVat (v : Nat) : Bool := decide (v < 16)
def inStack (i : Nat) : Bool := decide (i < 8)
def inExport (i : Nat) : Bool := decide (i < 16)
def inConn (i : Nat) : Bool := decide (i < 4096)
def inSeq (i : Nat) : Bool := decide (i < 16384)
/-- A span port, 6 being the twin port; a host function, 0 being the PF; a command ring, 16 being the device ring. -/
def inPort (p : Nat) : Bool := decide (p < 7)
def inFn (f : Nat) : Bool := decide (f ≤ 16)
def inRing (r : Nat) : Bool := decide (r ≤ 16)
/-- An interrupt source, an interrupt target, a droop sensor. -/
def inSource (n : Nat) : Bool := decide (n < 1024)
def inTarget (t : Nat) : Bool := decide (t < 18)
def inDroop (i : Nat) : Bool := decide (i < 268)

/-- A requester of register accesses, and a source of vat commands. -/
def inWho : Who → Bool
  | .core c => inCpu c
  | .vf n => inVat n
  | .pf => true
  | .debug => true
def inSrc : Src → Bool
  | .host r => inRing r
  | .vatman => true
  | .mgmt => true
  | .debug => true

/-- A well-formed command. -/
def Instr.wf : Instr → Bool
  | .add c _ _ _ _ => inCpu c
  | .sub c _ _ _ _ => inCpu c
  | .and c _ _ _ _ => inCpu c
  | .or c _ _ _ _ => inCpu c
  | .xor c _ _ _ _ => inCpu c
  | .sll c _ _ _ _ => inCpu c
  | .srl c _ _ _ _ => inCpu c
  | .sra c _ _ _ _ => inCpu c
  | .mul c _ _ _ _ => inCpu c
  | .mulh c _ _ _ _ => inCpu c
  | .mulhu c _ _ _ _ => inCpu c
  | .div c _ _ _ _ => inCpu c
  | .divu c _ _ _ _ => inCpu c
  | .rem c _ _ _ _ => inCpu c
  | .remu c _ _ _ _ => inCpu c
  | .min c _ _ _ _ => inCpu c
  | .max c _ _ _ _ => inCpu c
  | .minu c _ _ _ _ => inCpu c
  | .maxu c _ _ _ _ => inCpu c
  | .addi c _ _ _ _ => inCpu c
  | .andi c _ _ _ _ => inCpu c
  | .ori c _ _ _ _ => inCpu c
  | .xori c _ _ _ _ => inCpu c
  | .slli c _ _ _ _ => inCpu c
  | .srli c _ _ _ _ => inCpu c
  | .srai c _ _ _ _ => inCpu c
  | .li c _ _ _ => inCpu c
  | .lsi c _ _ _ => inCpu c
  | .cmpEq c _ _ _ _ => inCpu c
  | .cmpNe c _ _ _ _ => inCpu c
  | .cmpLt c _ _ _ _ => inCpu c
  | .cmpGe c _ _ _ _ => inCpu c
  | .cmpLtu c _ _ _ _ => inCpu c
  | .cmpGeu c _ _ _ _ => inCpu c
  | .cmpiEq c _ _ _ _ => inCpu c
  | .cmpiNe c _ _ _ _ => inCpu c
  | .cmpiLt c _ _ _ _ => inCpu c
  | .cmpiGe c _ _ _ _ => inCpu c
  | .cmpiLtu c _ _ _ _ => inCpu c
  | .cmpiGeu c _ _ _ _ => inCpu c
  | .pand c _ _ _ _ _ _ => inCpu c
  | .por c _ _ _ _ _ _ => inCpu c
  | .pxor c _ _ _ _ _ _ => inCpu c
  | .pget c _ _ => inCpu c
  | .pset c _ _ => inCpu c
  | .ldB c _ _ _ _ => inCpu c
  | .ldBu c _ _ _ _ => inCpu c
  | .ldH c _ _ _ _ => inCpu c
  | .ldHu c _ _ _ _ => inCpu c
  | .ldW c _ _ _ _ => inCpu c
  | .ldWu c _ _ _ _ => inCpu c
  | .ldD c _ _ _ _ => inCpu c
  | .stB c _ _ _ _ => inCpu c
  | .stH c _ _ _ _ => inCpu c
  | .stW c _ _ _ _ => inCpu c
  | .stD c _ _ _ _ => inCpu c
  | .ldrW c _ _ _ _ => inCpu c
  | .ldrD c _ _ _ _ => inCpu c
  | .strW c _ _ _ _ => inCpu c
  | .strD c _ _ _ _ => inCpu c
  | .ldrReturn c _ => inCpu c
  | .strRefused c _ _ => inCpu c
  | .mfs c _ _ _ => inCpu c
  | .mts c _ _ _ => inCpu c
  | .mset c _ _ _ => inCpu c
  | .mclr c _ _ _ => inCpu c
  | .qctlRetry c q => inCore c && inQueue q
  | .qctlDrop c q => inCore c && inQueue q
  | .br c _ _ => inCpu c
  | .call c _ _ => inCpu c
  | .jr c _ _ _ => inCpu c
  | .jalr c _ _ _ _ => inCpu c
  | .dbnz c _ _ _ => inCpu c
  | .eret c _ => inCpu c
  | .endProg c _ => inCpu c
  | .halt c _ => inCpu c
  | .nop c _ => inCpu c
  | .mfence c _ => inCpu c
  | .mfenceComplete c => inCpu c
  | .trap c _ _ => inCpu c
  | .brk c _ => inCpu c
  | .wfi c _ => inCpu c
  | .wfiWake c => inCpu c
  | .interruptTaken c _ => inCpu c
  | .issue c _ _ _ _ _ _ => inCpu c
  | .issueB c _ _ _ _ => inCpu c
  | .issueReserve c => inCpu c
  | .ibins c _ _ _ _ _ => inCpu c
  | .qwait c _ _ _ _ => inCpu c
  | .qwaitRetire c => inCore c
  | .sadd c _ _ _ => inCpu c
  | .ssub c _ _ _ => inCpu c
  | .swait c _ _ _ _ _ => inCpu c
  | .sread c _ _ _ => inCpu c
  | .wait c q => inCore c && inQueue q
  | .signal c q => inCore c && inQueue q
  | .matmul c => inCore c
  | .matmulSp c => inCore c
  | .matRingTestPass c => inCore c
  | .accInFormatHalt c => inCore c
  | .matmulComplete c => inCore c
  | .chainRecordRead c => inCore c
  | .vchain c => inCore c
  | .vchainComplete c => inCore c
  | .tload c => inCore c
  | .tloadComplete c => inCore c
  | .tstore c => inCore c
  | .tstoreComplete c => inCore c
  | .tfill c => inCore c
  | .tfillComplete c => inCore c
  | .reduce c => inCore c
  | .reduceComplete c => inCore c
  | .acc96InputHalt c => inCore c
  | .stream c e => inCore c && inEngine e
  | .spload c e => inCore c && inEngine e
  | .sploadComplete c e => inCore c && inEngine e
  | .seta c e => inCore c && inEngine e
  | .adda c e => inCore c && inEngine e
  | .addr c e => inCore c && inEngine e
  | .ldd c e => inCore c && inEngine e
  | .setx c e => inCore c && inEngine e
  | .loop c e => inCore c && inEngine e
  | .loopm c e => inCore c && inEngine e
  | .mov c e => inCore c && inEngine e
  | .cvt c e => inCore c && inEngine e
  | .page c e => inCore c && inEngine e
  | .streamReadReturn c e _ _ => inCore c && inEngine e
  | .rfill c e => inCore c && inEngine e
  | .rfillFreeTestPass c e => inCore c && inEngine e
  | .rdone c e => inCore c && inEngine e
  | .rtake c e => inCore c && inEngine e
  | .rtakePass c e => inCore c && inEngine e
  | .rfree c e => inCore c && inEngine e
  | .push c e => inCore c && inEngine e
  | .pop c e => inCore c && inEngine e
  | .swt c e => inCore c && inEngine e
  | .ssig c e => inCore c && inEngine e
  | .deliv c e => inCore c && inEngine e
  | .streamEnd c e => inCore c && inEngine e
  | .deliveryPieceWrite c e => inCore c && inEngine e
  | .deliveryAction c e => inCore c && inEngine e
  | .stackMergeSend c e => inCore c && inEngine e
  | .deviceWriteAck c e _ _ => inCore c && inEngine e
  | .ackWindowExpiry c e => inCore c && inEngine e
  | .streamComplete c e => inCore c && inEngine e
  | .send c => inCore c
  | .sendMessage c => inCore c
  | .sendM c => inCore c
  | .rsync c => inCore c
  | .openChan c => inCore c
  | .closeChan c => inCore c
  | .channelData c _ => inCore c
  | .endpointFreeTestPass c e => inCore c && inEp e
  | .spillDrain c e _ => inCore c && inEp e
  | .creditReturn c e _ => inCore c && inEp e
  | .landingAck c e _ => inCore c && inEp e
  | .sendRefused c e _ _ _ => inCore c && inEp e
  | .mailboxMessage c _ => inCore c
  | .mailboxAnswer c _ => inCore c
  | .mailboxClear c e => inCore c && inEp e
  | .openPacket c _ => inCore c
  | .accept c _ => inCore c
  | .reject c e _ => inCore c && inEp e
  | .closePacket m => inCore m.1
  | .openTimeout c => inCore c
  | .deadlockDetect c e => inCore c && inEp e
  | .releaseCycle c e => inCore c && inEp e
  | .syncApply node => inHub node
  | .syncWord c _ => inCore c
  | .syncFrameReceive port => inPort port
  | .syncFrameRelease _ => true
  | .meshPacketRoute r inPort _ _ _ => inCore r && inMesh inPort
  | .ctlPacketRoute n inPort _ _ => inHub n && inCtl inPort
  | .fenceNotice c _ => inCore c
  | .windowRead c _ _ _ => inCore c
  | .windowWrite c _ _ _ _ => inCore c
  | .load v src => inVat v && inSrc src
  | .loadFrameFetch v _ _ _ => inVat v
  | .loadCheckComplete v => inVat v
  | .loadWriteComplete v => inVat v
  | .loadFinish v => inVat v
  | .abort v src => inVat v && inSrc src
  | .release v src => inVat v && inSrc src
  | .start v src => inVat v && inSrc src
  | .sheetStart v => inVat v
  | .coreStart c => inCore c
  | .sheetEnd v => inVat v
  | .forcedStop v => inVat v
  | .stop v r => inVat v && inRing r
  | .drainTimeout v => inVat v
  | .scanOutStart v => inVat v
  | .scanOutComplete v => inVat v
  | .scanIn v src => inVat v && inSrc src
  | .scanInComplete v => inVat v
  | .resume v src => inVat v && inSrc src
  | .plan r => inRing r
  | .kill v r => inVat v && inRing r
  | .vatReset v r => inVat v && inRing r
  | .wipeComplete v => inVat v
  | .arm v _ => inVat v
  | .launchTick v => inVat v
  | .gtcSet _ => true
  | .gtcAlarm => true
  | .treqSend => true
  | .treqReceive port => inPort port
  | .trspReceive port => inPort port
  | .syncLossTimeout => true
  | .refreshSlot i => inStack i
  | .stackTempRead i _ => inStack i
  | .stackRead _ _ _ => true
  | .stackReadReturn _ => true
  | .stackWrite _ _ _ _ => true
  | .readModifyWriteAck _ => true
  | .stackCommand _ v _ _ _ => inVat v
  | .stackCommandStart v => inVat v
  | .accum _ => true
  | .convert _ => true
  | .adam _ => true
  | .lamb _ => true
  | .sgd _ => true
  | .sumsq _ => true
  | .gather _ => true
  | .scatterAdd _ => true
  | .kvcopy _ => true
  | .wipe _ => true
  | .vdef _ => true
  | .vpin _ => true
  | .vunpin _ => true
  | .controllerRingExchange _ => true
  | .stackShareComplete _ _ => true
  | .setAsideRelease _ => true
  | .stackCommandComplete _ => true
  | .couchReset v => inVat v
  | .advLoad v _ => inVat v
  | .advClose v _ => inVat v
  | .advCloseComplete v => inVat v
  | .seqAdmit v slot => inVat v && inSeq slot
  | .pause v slot => inVat v && inSeq slot
  | .seqResume v slot => inVat v && inSeq slot
  | .seqStop v slot => inVat v && inSeq slot
  | .retire v slot => inVat v && inSeq slot
  | .grow v slot _ => inVat v && inSeq slot
  | .step v src => inVat v && inSrc src
  | .stepNoadv v src => inVat v && inSrc src
  | .batchReset v src => inVat v && inSrc src
  | .stepComplete v => inVat v
  | .balNext v group member => inVat v && inVat group && inCluster member
  | .pairReceive port _ _ => inPort port
  | .retrain port => inPort port
  | .lossOfSignal port => inPort port
  | .signalDetect port => inPort port
  | .trainingComplete port => inPort port
  | .trainTimeout port => inPort port
  | .alignComplete port _ => inPort port
  | .alignTimeout port => inPort port
  | .hello port => inPort port
  | .helloTimeout port => inPort port
  | .linkDownFrame port => inPort port
  | .spanPortEnable port _ => inPort port
  | .frameJoinTimeout port => inPort port
  | .rread port => inPort port
  | .rwrite port => inPort port
  | .rdata port => inPort port
  | .rack port => inPort port
  | .chan port => inPort port
  | .chreq port => inPort port
  | .chrsp port => inPort port
  | .refuse port => inPort port
  | .requestTimeout port => inPort port
  | .exportWindowClose v i => inVat v && inExport i
  | .pairActive => true
  | .pairMirror => true
  | .pairingTimeout => true
  | .unpair => true
  | .handover => true
  | .takeover => true
  | .takeoverComplete => true
  | .beatSend => true
  | .beatReceive => true
  | .heartbeatLoss => true
  | .mirrorEnable v _ => inVat v
  | .mirrorDisable v _ => inVat v
  | .ctlEnable => true
  | .ctlDisable => true
  | .ctlHandover => true
  | .ctlrsp => true
  | .twinCommit v => inVat v
  | .resync v => inVat v
  | .mwrite => true
  | .mrec => true
  | .commitFrame => true
  | .cack => true
  | .mack => true
  | .commitApplied v => inVat v
  | .assign v src _ => inVat v && inSrc src
  | .releaseJob v r => inVat v && inRing r
  | .releaseWipeComplete v => inVat v
  | .reclaim v r => inVat v && inRing r
  | .yield v => inVat v
  | .reclaimDeadline v => inVat v
  | .evacuate v r => inVat v && inRing r
  | .evacuationComplete v => inVat v
  | .evacuationFailure v _ => inVat v
  | .accountingWindowEnd => true
  | .calibrationInterval _ => true
  | .sqTail fn r _ _ => inFn fn && inRing r
  | .cqHead fn r _ _ => inFn fn && inRing r
  | .sheet fn r _ _ => inFn fn && inRing r
  | .entryFetch r _ => inRing r
  | .completionRecordWrite r => inRing r
  | .ringDisable fn r => inFn fn && inRing r
  | .functionLevelReset fn => inFn fn
  | .memoryWindowRead fn _ _ => inFn fn
  | .memoryWindowWrite fn _ _ _ => inFn fn
  | .hostSadd r v => inRing r && inVat v
  | .seq r v => inRing r && inVat v
  | .stkcmd r v => inRing r && inVat v
  | .copy r v => inRing r && inVat v
  | .copyComplete r _ => inRing r
  | .hostNop r => inRing r
  | .twin r => inRing r
  | .irqEvent n => inSource n
  | .irqClaim t _ => inTarget t
  | .irqComplete w t _ => inWho w && inTarget t
  | .wakeWatchEvent n => inSource n
  | .wakeLatchDeliver => true
  | .errorReport _ _ _ _ _ _ => true
  | .errlogTail w _ => inWho w
  | .coreFence w cl pos => inWho w && inCluster cl && inCluster pos
  | .deviceFault _ => true
  | .vatHostMsg fn v _ => inFn fn && inVat v
  | .hostToMgmt _ => true
  | .mgmtToHost _ => true
  | .dvfsSwitch => true
  | .droopTrip sensor _ => inDroop sensor
  | .stretchEnd _ => true
  | .thermalSample _ => true
  | .throttleStep => true
  | .throttleRecovery => true
  | .powerSample _ _ _ => true
  | .capWindow => true
  | .capRiseWindow => true
  | .telemetryUpdate _ _ => true
  | .coreGate c => inCore c
  | .clusterPowerRequest w cl _ => inWho w && inCluster cl
  | .clusterPowerEntry cl => inCluster cl
  | .clusterWakeComplete cl => inCluster cl
  | .sleepRequest w => inWho w
  | .deviceWake => true
  | .moduleStart _ _ _ => true
  | .moduleStop _ _ _ => true
  | .coldReset => true
  | .resetCold w _ => inWho w
  | .resetWarm w _ => inWho w
  | .warmReset => true
  | .perstAssert => true
  | .perstDeassert => true
  | .romBoot _ _ => true
  | .protSeal w => inWho w
  | .vmStart w v _ _ => inWho w && inVat v
  | .vmChtabApply w v e _ => inWho w && inVat v && inEp e
  | .lifecycleRequest w _ _ => inWho w
  | .lifecycleStrapSample => true
  | .fuseProg w _ _ _ => inWho w
  | .fuseProgramComplete => true
  | .s1StrapChange _ _ => true
  | .extest => true
  | .dapRead _ _ => true
  | .dapWrite _ _ _ => true
  | .dapHalt c => inCore c
  | .dapResume c => inCore c
  | .dapStep c => inCore c
  | .dapStepTimeout c => inCore c
  | .dapNop => true
  | .dapTransactionComplete => true
  | .getAcct _ _ => true
  | .getLog _ => true
  | .getLc _ => true
  | .mctpReset _ => true
  | .lcReq _ _ _ => true
  | .firmwareUpdate _ _ _ => true
  | .flashRead w => inWho w
  | .flashProgram w _ => inWho w
  | .flashErase w _ => inWho w
  | .flashCommandComplete _ => true
  | .rcRead w _ _ => inWho w
  | .wideRegisterRead w _ => inWho w
  | .coreViewAccess w _ _ _ _ => inWho w
  | .scanWindowAccess w _ _ _ _ => inWho w
  | .syncCtrSet w ctr _ => inWho w && inCounter ctr
  | .connClose w i => inWho w && inConn i
  | .registerWrite w _ _ _ => inWho w
  | .reservedMop c q => inCore c && inQueue q
  | .resetWipeComplete => true
  | .bankRefresh i => inStack i
  | .spillWriteAck c e => inCore c && inEp e
  | .pairSend port => inPort port
  | .hostLinkUp _ _ => true
  | .hostLinkDown => true
  | .hotReset => true
  | .hostReadCompletion r _ _ _ => inRing r
  | .dmaCompletionTimeout r _ => inRing r
  | .testLogicReset => true

end Sys2Proof
end

