-- ==== Sys2Proof/Safety.lean ====
section
/-! DEFINITION. The terms the claims are stated in: what a command does, which parts of the state it leaves as they are, and the invariant of
the memories. -/

namespace Sys2Proof.Machine

/-- The command `i` completes at `s`, and the state it leaves has the property `P`. -/
def Does (i : Instr) (s : State) (P : State → Prop) : Prop := ∃ t, exec i s = .next t ∧ P t

/-- The parts of the state. -/
inductive Part where
  | pending | clk | cores | net | vats | mem | hub | span | host | pwr | boot | out | free
  deriving DecidableEq, Repr

/-- A part is the same in two states. -/
def Part.same : Part → State → State → Prop
  | .pending, s, t => t.pending = s.pending
  | .clk, s, t => t.clk = s.clk
  | .cores, s, t => t.cores = s.cores
  | .net, s, t => t.net = s.net
  | .vats, s, t => t.vats = s.vats
  | .mem, s, t => t.mem = s.mem
  | .hub, s, t => t.hub = s.hub
  | .span, s, t => t.span = s.span
  | .host, s, t => t.host = s.host
  | .pwr, s, t => t.pwr = s.pwr
  | .boot, s, t => t.boot = s.boot
  | .out, s, t => t.out = s.out
  | .free, s, t => t.free = s.free

/-- Nothing but the parts of `l` may differ. -/
def Only (l : List Part) (s t : State) : Prop := ∀ p, p ∉ l → p.same s t

/-- Stack memory, the flash and its buffer are in canonical form. -/
def State.MemOk (s : State) : Prop := s.mem.stack.wf = true ∧ s.boot.flash.wf = true ∧ s.boot.flashBuf.wf = true

/-- Control processor `c` can start an instruction, its word is good (R327), and the instruction's guard holds. -/
def State.goes (s : State) (c : Nat) (g : Guard) : Bool := s.ctlOn c && !(s.fetchBad c) && (s.ctl c).guardTrue g

/-- A command completes and leaves control processor `c` as `k`; a core under DAP_STEP halts after it. -/
def State.ends (s : State) (c : Nat) (k : Ctl) : Res := .next ((s.setCtl c k).stepOver c)

/-- An instruction of control processor `c` takes an exception. -/
def State.raises (s : State) (c : Nat) (cause : BitVec 8) (status : Nat) (ep v : W64) : Res :=
  .next ((s.takeException c cause status ep v).stepOver c)

/-- The control processor and the guard of an instruction of Chapter 3 (R79). -/
def guardOf (i : Instr) : Option (Nat × Guard) :=
  match i with
  | .add c g _ _ _ | .sub c g _ _ _ | .and c g _ _ _ | .or c g _ _ _ | .xor c g _ _ _ | .sll c g _ _ _ | .srl c g _ _ _ | .sra c g _ _ _ 
  | .mul c g _ _ _ | .mulh c g _ _ _ | .mulhu c g _ _ _ | .div c g _ _ _ | .divu c g _ _ _ | .rem c g _ _ _ | .remu c g _ _ _ | .min c g _ _ _ 
  | .max c g _ _ _ | .minu c g _ _ _ | .maxu c g _ _ _ | .addi c g _ _ _ | .andi c g _ _ _ | .ori c g _ _ _ | .xori c g _ _ _ 
  | .slli c g _ _ _ | .srli c g _ _ _ | .srai c g _ _ _ | .li c g _ _ | .lsi c g _ _ | .cmpEq c g _ _ _ | .cmpNe c g _ _ _ | .cmpLt c g _ _ _ 
  | .cmpGe c g _ _ _ | .cmpLtu c g _ _ _ | .cmpGeu c g _ _ _ | .cmpiEq c g _ _ _ | .cmpiNe c g _ _ _ | .cmpiLt c g _ _ _ | .cmpiGe c g _ _ _ 
  | .cmpiLtu c g _ _ _ | .cmpiGeu c g _ _ _ | .pand c g _ _ _ _ _ | .por c g _ _ _ _ _ | .pxor c g _ _ _ _ _ | .pget c g _ | .pset c g _ 
  | .ldB c g _ _ _ | .ldBu c g _ _ _ | .ldH c g _ _ _ | .ldHu c g _ _ _ | .ldW c g _ _ _ | .ldWu c g _ _ _ | .ldD c g _ _ _ | .stB c g _ _ _ 
  | .stH c g _ _ _ | .stW c g _ _ _ | .stD c g _ _ _ | .ldrW c g _ _ _ | .ldrD c g _ _ _ | .strW c g _ _ _ | .strD c g _ _ _ | .mfs c g _ _ 
  | .mts c g _ _ | .mset c g _ _ | .mclr c g _ _ | .br c g _ | .call c g _ | .jr c g _ _ | .jalr c g _ _ _ | .dbnz c g _ _ | .eret c g 
  | .endProg c g | .halt c g | .nop c g | .mfence c g | .trap c g _ | .brk c g | .wfi c g | .issue c g _ _ _ _ _ | .issueB c g _ _ _ 
  | .ibins c g _ _ _ _ | .qwait c g _ _ _ | .sadd c g _ _ | .ssub c g _ _ | .swait c g _ _ _ _ | .sread c g _ _ => some (c, g)
  | _ => none

/-- The word of an instruction of Chapter 3 holds no reserved value but for its guard (R80): DBNZ names a register, a queue code is at most 6 and pd
stands with .NB alone, an IBINS field ends in its word, a QWAIT mask is not empty, the core has the special register, and an SWAIT condition and
decrement stand in Table 3.21. -/
def State.wordFine (s : State) (i : Instr) : Bool :=
  match i with
  | .dbnz _ _ rd _ => rd != 0
  | .issue _ _ q nb _ pd _ | .issueB _ _ q nb pd => decide (q.toNat ≤ 6) && (nb || pd == 0)
  | .ibins _ _ _ pos lenm1 _ => decide (pos.toNat + lenm1.toNat + 1 ≤ 64)
  | .qwait _ _ nb pd mask => mask != 0 && (nb || pd == 0)
  | .mfs c _ _ sr | .mts c _ _ sr | .mset c _ _ sr | .mclr c _ _ sr => s.srAssigned c sr.toNat
  | .swait _ _ _ _ cond dec => match Cond.ofBits cond.toNat with | none => false | some k => !(dec && (k == .ne || k == .lt))
  | _ => true

/-- A scratchpad load or store: control processor, guard, base register, offset and size (Table 3.5). -/
def spadAccess (i : Instr) : Option (Nat × Guard × Reg × BitVec 10 × Nat) :=
  match i with
  | .ldB c g _ rs1 imm | .ldBu c g _ rs1 imm | .stB c g _ rs1 imm => some (c, g, rs1, imm, 1)
  | .ldH c g _ rs1 imm | .ldHu c g _ rs1 imm | .stH c g _ rs1 imm => some (c, g, rs1, imm, 2)
  | .ldW c g _ rs1 imm | .ldWu c g _ rs1 imm | .stW c g _ rs1 imm => some (c, g, rs1, imm, 4)
  | .ldD c g _ rs1 imm | .stD c g _ rs1 imm => some (c, g, rs1, imm, 8)
  | _ => none

/-- The instruction is one of the seven loads. -/
def isLoad (i : Instr) : Bool :=
  match i with
  | .ldB .. | .ldBu .. | .ldH .. | .ldHu .. | .ldW .. | .ldWu .. | .ldD .. => true
  | _ => false

/-- What a jump to `t` raises, if anything (R98). -/
def State.target (_s : State) (c : Nat) (t : W64) : Option (BitVec 8) :=
  if t.toNat % 4 ≠ 0 then some cAlign else if inImem c t = false then some cRange else none

/-- `u` is `s` with macro-instruction `m` appended to queue `q` of core `c`: no other queue, no other control processor and no stack memory
has changed. -/
def State.queued (s : State) (c q : Nat) (m : W256) (u : State) : Prop :=
  u.queue c q = { s.queue c q with entries := (s.queue c q).entries ++ [m] } ∧ (∀ d p, 8 * d + p ≠ 8 * c + q → u.queue d p = s.queue d p) ∧
    (∀ d, d ≠ c → u.ctl d = s.ctl d) ∧ Only [.cores, .net, .vats, .hub, .out, .pwr] s u

/-- In `u`, entry `e` of queue `q` of core `c` has left the queue place it had in `s` and stands in the halt register of the halted queue,
with its status and mop recorded (R107). -/
def State.rejected (u s : State) (c q status : Nat) (e : W256) : Prop :=
  u.queue c q = { (s.queue c q).pop with held := some e, held2 := (s.queue c q).pop.held, waiting := false, halted := true, errStatus := BitVec.ofNat 8 status, errMop := BitVec.ofNat 8 (mMop e) } ∧
    (u.irqCause c).getLsbD 1 = true ∧ u.cores.ctls = s.cores.ctls

/-- In `u`, entry `e`, which an engine of core `c` had accepted from queue `q`, stands in the halt register of the halted queue, with its
status and mop recorded (R107). -/
def State.held (u s : State) (c q status : Nat) (e : W256) : Prop :=
  u.queue c q = { s.queue c q with held := some e, held2 := (s.queue c q).held, waiting := false, halted := true, errStatus := BitVec.ofNat 8 status, errMop := BitVec.ofNat 8 (mMop e) } ∧
    (u.irqCause c).getLsbD 1 = true ∧ u.cores.ctls = s.cores.ctls

/-- Stream engine `e` of core `c` can run the instruction `w` at its pc, whose word is good (R327); `u` is the state after the piece count of R645, which leaves the
engine able to run that instruction. -/
def State.seGoes (s : State) (c e : Nat) (u : State) (w : Nat) : Prop :=
  s.seqOn c e = true ∧ NSet.has (s.se c e).storeUe (s.se c e).pc = false ∧ u = s.seWalk c e ∧ u.seqOn c e = true ∧ w = (u.se c e).cur ∧ w = (s.se c e).cur

/-- The state and the caller with which a vat or device command of code `op` for vat `v` is applied, when it is taken now (R526, R532, R569):
a ring's command is the ring's next and is marked applied; any other source has only to name a vat of the plan in force. -/
def State.taken (s : State) (src : Src) (op v : Nat) : Option (State × Caller) :=
  if !s.fastOn || (needsCores op && !(s.vatAwake v)) then none
  else match src with
    | .host r => match (s.ring r).nextCmd with
      | some c => if c.op = op ∧ c.vat = v ∧ ((s.planOf v).valid = true ∨ op = 0x26 ∨ op = 0x27)
          then some (s.setRing r ((s.ring r).apply c.uid), { host := some (r, c.uid), entry := c.entry }) else none
      | none => none
    | _ => if (s.planOf v).valid then some (s, {}) else none

/-- The parts of the state that a command may change: every other part it leaves as it is. -/
def partsOf (i : Instr) : List Part :=
  match i with
  | .perstAssert | .perstDeassert | .lifecycleStrapSample | .fuseProgramComplete | .dapNop | .dapTransactionComplete | .mctpReset ..
  | .testLogicReset => [.boot]
  | .strRefused .. | .qctlRetry .. | .qctlDrop .. | .mailboxClear .. | .coreStart .. | .coreGate .. => [.cores]
  | .ringDisable .. | .functionLevelReset .. | .hostNop .. | .hotReset => [.host]
  | .dvfsSwitch => [.hub]
  | .controllerRingExchange .. | .stackShareComplete .. | .setAsideRelease .. => [.mem]
  | .fenceNotice .. => [.net]
  | .getAcct .. | .getLc .. => [.out]
  | .stretchEnd .. | .throttleRecovery | .capWindow | .capRiseWindow | .telemetryUpdate .. | .clusterWakeComplete .. => [.pwr]
  | .frameJoinTimeout .. | .exportWindowClose .. | .beatSend | .ctlHandover => [.span]
  | .loadWriteComplete .. | .drainTimeout .. => [.vats]
  | .flashCommandComplete .. => [.boot, .free]
  | .firmwareUpdate .. => [.boot, .out]
  | .romBoot .. => [.cores, .boot]
  | .clusterPowerEntry .. => [.cores, .pwr]
  | .completionRecordWrite .. => [.host, .out]
  | .irqClaim .. => [.hub, .out]
  | .resetWipeComplete => [.mem, .boot]
  | .stackReadReturn .. | .readModifyWriteAck .. => [.mem, .out]
  | .deviceWake => [.mem, .pwr]
  | .pairingTimeout => [.span, .host]
  | .requestTimeout .. => [.span, .out]
  | .throttleStep => [.vats, .pwr]
  | .mack => [.vats, .span]
  | .dapResume .. | .dapStep .. => [.cores, .pwr, .boot]
  | .gtcAlarm | .irqEvent .. | .irqComplete .. | .wakeWatchEvent .. | .wakeLatchDeliver | .errorReport .. | .errlogTail .. | .hostToMgmt ..
  | .mgmtToHost .. | .clusterPowerRequest .. | .getLog .. => [.hub, .pwr, .out]
  | .calibrationInterval .. => [.vats, .hub, .free]
  | .ctlDisable => [.vats, .span, .host]
  | .rack .. => [.vats, .span, .out]
  | .deadlockDetect .. => [.cores, .hub, .pwr, .out]
  | .sqTail .. | .cqHead .. | .entryFetch .. | .hostLinkUp .. | .hostLinkDown => [.hub, .host, .pwr, .out]
  | .resetCold .. | .resetWarm .. | .lifecycleRequest .. | .fuseProg .. | .s1StrapChange .. | .lcReq .. | .flashRead .. | .flashProgram ..
  | .flashErase .. => [.hub, .pwr, .boot, .out]
  | .treqSend | .treqReceive .. | .pairReceive .. | .retrain .. | .lossOfSignal .. | .signalDetect .. | .trainingComplete ..
  | .trainTimeout .. | .alignComplete .. | .alignTimeout .. | .helloTimeout .. | .linkDownFrame .. | .spanPortEnable .. | .beatReceive
  | .heartbeatLoss => [.hub, .span, .pwr, .out]
  | .stackTempRead .. | .stackCommand .. => [.mem, .hub, .pwr, .out]
  | .couchReset .. => [.net, .hub, .pwr, .out]
  | .arm .. | .syncLossTimeout | .balNext .. | .vatHostMsg .. | .droopTrip .. | .powerSample .. => [.vats, .hub, .pwr, .out]
  | .mwrite | .mrec => [.vats, .mem, .span, .free]
  | .gtcSet .. => [.clk, .mem, .hub, .pwr, .out]
  | .stackMergeSend .. | .spillWriteAck .. => [.cores, .hub, .span, .pwr, .out]
  | .ldrReturn .. | .mfenceComplete .. | .wfiWake .. | .interruptTaken .. | .qwaitRetire .. | .wait .. | .accInFormatHalt ..
  | .rfillFreeTestPass .. | .rtakePass .. | .send .. | .rsync .. | .openTimeout .. | .syncApply .. | .vmChtabApply .. | .reservedMop .. => [.cores, .net, .hub, .pwr, .out]
  | .chainRecordRead .. | .vmStart .. => [.cores, .vats, .hub, .pwr, .out]
  | .reclaimDeadline .. => [.cores, .vats, .mem, .span, .host]
  | .hello .. => [.hub, .span, .host, .pwr, .out]
  | .ctlPacketRoute .. | .meshPacketRoute .. => [.net, .vats, .hub, .pwr, .out]
  | .start .. | .seqAdmit .. | .pause .. | .seqResume .. | .seqStop .. | .retire .. | .grow .. | .batchReset .. | .assign .. | .sheet ..
  | .seq .. | .copy .. | .dmaCompletionTimeout .. => [.vats, .hub, .host, .pwr, .out]
  | .rdata .. | .chan .. | .chreq .. | .chrsp .. | .mirrorEnable .. | .ctlEnable | .sleepRequest .. | .pairSend .. => [.vats, .hub, .span, .pwr, .out]
  | .refreshSlot .. | .stackRead .. | .stackCommandStart .. | .vdef .. | .vunpin .. | .advLoad .. | .bankRefresh .. => [.vats, .mem, .hub, .pwr, .out]
  | .plan .. => [.cores, .net, .hub, .host, .pwr, .out]
  | .dapStepTimeout .. => [.cores, .net, .hub, .pwr, .boot, .out]
  | .creditReturn .. | .reject .. | .sendM .. | .openChan .. | .closePacket .. => [.cores, .net, .hub, .span, .pwr, .out]
  | .add .. | .sub .. | .and .. | .or .. | .xor .. | .sll .. | .srl .. | .sra .. | .mul .. | .mulh .. | .mulhu .. | .div .. | .divu ..
  | .rem .. | .remu .. | .min .. | .max .. | .minu .. | .maxu .. | .addi .. | .andi .. | .ori .. | .xori .. | .slli .. | .srli ..
  | .srai .. | .li .. | .lsi .. | .cmpEq .. | .cmpNe .. | .cmpLt .. | .cmpGe .. | .cmpLtu .. | .cmpGeu .. | .cmpiEq .. | .cmpiNe ..
  | .cmpiLt .. | .cmpiGe .. | .cmpiLtu .. | .cmpiGeu .. | .pand .. | .por .. | .pxor .. | .pget .. | .pset .. | .mfs .. | .mts ..
  | .mset .. | .mclr .. | .br .. | .call .. | .jr .. | .jalr .. | .dbnz .. | .eret .. | .endProg .. | .halt .. | .nop .. | .trap ..
  | .brk .. | .wfi .. | .ibins .. | .qwait .. | .ssub .. | .swait .. | .sread .. | .stB .. | .stH .. | .stW .. | .stD .. | .ldB ..
  | .ldBu .. | .ldH .. | .ldHu .. | .ldW .. | .ldWu .. | .ldD .. | .mfence .. | .issue .. | .issueB .. | .issueReserve .. | .sadd ..
  | .signal .. | .matmul .. | .matmulSp .. | .matRingTestPass .. | .matmulComplete .. | .vchain .. | .vchainComplete .. | .tload ..
  | .tloadComplete .. | .tstore .. | .tstoreComplete .. | .tfill .. | .tfillComplete .. | .reduce .. | .reduceComplete ..
  | .acc96InputHalt .. | .stream .. | .spload .. | .sploadComplete .. | .deliveryAction .. | .deviceWriteAck .. | .ackWindowExpiry ..
  | .streamComplete .. | .spillDrain .. | .releaseCycle .. | .windowRead .. | .windowWrite .. | .advCloseComplete .. => [.cores, .net, .vats, .hub, .pwr, .out]
  | .scanOutStart .. => [.cores, .vats, .hub, .pwr, .out, .free]
  | .extest => [.hub, .span, .host, .pwr, .boot, .out]
  | .protSeal .. => [.net, .hub, .span, .pwr, .boot, .out]
  | .takeoverComplete | .mirrorDisable .. | .reclaim .. => [.vats, .hub, .span, .host, .pwr, .out]
  | .stkcmd .. => [.vats, .mem, .hub, .host, .pwr, .out]
  | .stackWrite .. | .wipe .. | .commitApplied .. | .yield .. | .accountingWindowEnd => [.vats, .mem, .hub, .span, .pwr, .out]
  | .release .. | .sheetStart .. | .resume .. | .launchTick .. | .hostSadd .. => [.cores, .net, .vats, .hub, .host, .pwr, .out]
  | .dapHalt .. => [.cores, .net, .vats, .hub, .pwr, .boot, .out]
  | .seta .. | .adda .. | .addr .. | .ldd .. | .setx .. | .loop .. | .cvt .. | .rfill .. | .rdone .. | .rtake .. | .swt .. | .deliv ..
  | .streamEnd .. | .openPacket .. | .landingAck .. | .mailboxAnswer .. | .sendMessage .. | .ldrW .. | .ldrD .. | .strW .. | .strD ..
  | .loopm .. | .mov .. | .page .. | .streamReadReturn .. | .rfree .. | .push .. | .pop .. | .ssig .. | .deliveryPieceWrite ..
  | .closeChan .. | .channelData .. | .endpointFreeTestPass .. | .mailboxMessage .. | .accept .. | .syncWord .. | .syncFrameReceive ..
  | .syncFrameRelease .. => [.cores, .net, .vats, .hub, .span, .pwr, .out]
  | .forcedStop .. | .stop .. | .memoryWindowRead .. | .deviceFault .. => [.cores, .vats, .mem, .hub, .host, .pwr, .out]
  | .accum .. | .adam .. | .lamb .. | .sgd .. | .sumsq .. | .gather .. | .scatterAdd .. | .kvcopy .. | .vpin .. | .rread .. | .rwrite .. => [.cores, .vats, .mem, .hub, .span, .pwr, .out]
  | .evacuationFailure .. => [.vats, .mem, .hub, .host, .pwr, .out, .free]
  | .ctlrsp | .twinCommit .. | .resync .. | .step .. | .stepNoadv .. | .pairActive | .pairMirror | .unpair | .handover | .takeover
  | .releaseJob .. | .twin .. => [.vats, .mem, .hub, .span, .host, .pwr, .out]
  | .advClose .. | .commitFrame => [.vats, .mem, .hub, .span, .pwr, .out, .free]
  | .trspReceive .. => [.clk, .vats, .mem, .hub, .span, .pwr, .out, .free]
  | .stepComplete .. | .cack => [.cores, .net, .vats, .hub, .span, .host, .pwr, .out]
  | .wipeComplete .. | .releaseWipeComplete .. => [.cores, .net, .vats, .mem, .hub, .host, .pwr, .out]
  | .load .. | .abort .. | .sheetEnd .. | .scanIn .. | .memoryWindowWrite .. | .hostReadCompletion .. => [.cores, .vats, .mem, .hub, .span, .host, .pwr, .out]
  | .convert .. => [.cores, .vats, .mem, .hub, .span, .pwr, .out, .free]
  | .scanOutComplete .. => [.vats, .mem, .hub, .span, .host, .pwr, .out, .free]
  | .loadFrameFetch .. | .loadCheckComplete .. | .loadFinish .. | .scanInComplete .. | .kill .. | .vatReset .. | .evacuate ..
  | .evacuationComplete .. | .coreFence .. => [.cores, .net, .vats, .mem, .hub, .span, .host, .pwr, .out]
  | .moduleStart .. | .moduleStop .. | .coldReset | .warmReset => [.clk, .cores, .net, .vats, .mem, .hub, .span, .host, .pwr, .boot]
  | .sendRefused .. | .stackCommandComplete .. | .refuse .. | .copyComplete .. => [.cores, .net, .vats, .mem, .hub, .span, .host, .pwr, .out, .free]
  | .thermalSample .. => [.clk, .cores, .net, .vats, .mem, .hub, .span, .host, .pwr, .boot, .out]
  | .dapRead .. | .dapWrite .. | .rcRead .. | .wideRegisterRead .. | .coreViewAccess .. | .scanWindowAccess .. | .syncCtrSet ..
  | .connClose .. | .registerWrite .. => [.clk, .cores, .net, .vats, .mem, .hub, .span, .host, .pwr, .boot, .out, .free]

end Sys2Proof.Machine
end

