-- ==== Sys2Proof/Certificates/Slice0/Obligations.lean ====
section
/-! DEFINITION. The statements. -/

open Sys2Proof Sys2Proof.Machine

/-- Integer instructions of format R: Whenever the core can start an instruction and the guard holds, each of the nineteen instructions of format R
completes: rd takes the value Table 3.3 and R83 give (g0 takes nothing), the pc moves by 4, and nothing else changes. -/
def Obligations.AluRegister : Prop :=
  (∀ (c : Nat) (g : Guard) (rd rs1 rs2 : Reg) (s : State), s.goes c g = true →
    let k := s.ctl c; let a := k.rg rs1; let b := k.rg rs2
    exec (.add c g rd rs1 rs2) s = s.ends c (k.wg rd (a + b)).adv ∧
    exec (.sub c g rd rs1 rs2) s = s.ends c (k.wg rd (a - b)).adv ∧
    exec (.and c g rd rs1 rs2) s = s.ends c (k.wg rd (a &&& b)).adv ∧
    exec (.or c g rd rs1 rs2) s = s.ends c (k.wg rd (a ||| b)).adv ∧
    exec (.xor c g rd rs1 rs2) s = s.ends c (k.wg rd (a ^^^ b)).adv ∧
    exec (.sll c g rd rs1 rs2) s = s.ends c (k.wg rd (a <<< (b.toNat % 64))).adv ∧
    exec (.srl c g rd rs1 rs2) s = s.ends c (k.wg rd (a >>> (b.toNat % 64))).adv ∧
    exec (.sra c g rd rs1 rs2) s = s.ends c (k.wg rd (a.sshiftRight (b.toNat % 64))).adv ∧
    exec (.mul c g rd rs1 rs2) s = s.ends c (k.wg rd (a * b)).adv ∧
    exec (.mulh c g rd rs1 rs2) s = s.ends c (k.wg rd (BitVec.ofInt 64 (a.toInt * b.toInt / 2 ^ 64))).adv ∧
    exec (.mulhu c g rd rs1 rs2) s = s.ends c (k.wg rd (BitVec.ofNat 64 (a.toNat * b.toNat / 2 ^ 64))).adv ∧
    exec (.div c g rd rs1 rs2) s = s.ends c (k.wg rd (if b = 0 then BitVec.allOnes 64 else BitVec.ofInt 64 (a.toInt.tdiv b.toInt))).adv ∧
    exec (.divu c g rd rs1 rs2) s = s.ends c (k.wg rd (if b = 0 then BitVec.allOnes 64 else BitVec.ofNat 64 (a.toNat / b.toNat))).adv ∧
    exec (.rem c g rd rs1 rs2) s = s.ends c (k.wg rd (if b = 0 then a else BitVec.ofInt 64 (a.toInt.tmod b.toInt))).adv ∧
    exec (.remu c g rd rs1 rs2) s = s.ends c (k.wg rd (if b = 0 then a else BitVec.ofNat 64 (a.toNat % b.toNat))).adv ∧
    exec (.min c g rd rs1 rs2) s = s.ends c (k.wg rd (if a.toInt < b.toInt then a else b)).adv ∧
    exec (.max c g rd rs1 rs2) s = s.ends c (k.wg rd (if a.toInt < b.toInt then b else a)).adv ∧
    exec (.minu c g rd rs1 rs2) s = s.ends c (k.wg rd (if a.toNat < b.toNat then a else b)).adv ∧
    exec (.maxu c g rd rs1 rs2) s = s.ends c (k.wg rd (if a.toNat < b.toNat then b else a)).adv)

/-- Integer instructions with an immediate: Whenever the core can start an instruction and the guard holds, ADDI to XORI with the sign-extended
imm10, the three shifts by a 6-bit amount, LI and LSI write the value of Table 3.3 to rd and move past; nothing else changes. -/
def Obligations.AluImmediate : Prop :=
  (∀ (c : Nat) (g : Guard) (rd rs1 : Reg) (imm : BitVec 10) (sh : BitVec 6) (u : BitVec 15) (s : State), s.goes c g = true →
    let k := s.ctl c; let a := k.rg rs1
    exec (.addi c g rd rs1 imm) s = s.ends c (k.wg rd (a + sext64 imm)).adv ∧
    exec (.andi c g rd rs1 imm) s = s.ends c (k.wg rd (a &&& sext64 imm)).adv ∧
    exec (.ori c g rd rs1 imm) s = s.ends c (k.wg rd (a ||| sext64 imm)).adv ∧
    exec (.xori c g rd rs1 imm) s = s.ends c (k.wg rd (a ^^^ sext64 imm)).adv ∧
    exec (.slli c g rd rs1 sh) s = s.ends c (k.wg rd (a <<< sh.toNat)).adv ∧
    exec (.srli c g rd rs1 sh) s = s.ends c (k.wg rd (a >>> sh.toNat)).adv ∧
    exec (.srai c g rd rs1 sh) s = s.ends c (k.wg rd (a.sshiftRight sh.toNat)).adv ∧
    exec (.li c g rd u) s = s.ends c (k.wg rd (u.signExtend 64)).adv ∧
    exec (.lsi c g rd u) s = s.ends c (k.wg rd ((k.rg rd <<< 15) ||| u.setWidth 64)).adv)

/-- Compare and predicate instructions: Whenever the core can start an instruction and the guard holds, every instruction of Table 3.4 completes
with the predicate, the register or the predicates it names at the value the table gives; a write to p0 changes no predicate; CMPI.LTU and CMPI.GEU
compare the sign-extended imm10 taken unsigned. -/
def Obligations.CompareAndPredicate : Prop :=
  (∀ (c : Nat) (g : Guard) (pd : BitVec 3) (rs1 rs2 : Reg) (imm : BitVec 10) (s : State), s.goes c g = true →
    let k := s.ctl c; let a := k.rg rs1; let b := k.rg rs2; let i := imm.signExtend 64
    exec (.cmpEq c g pd rs1 rs2) s = s.ends c (k.wp pd (decide (a = b))).adv ∧
    exec (.cmpNe c g pd rs1 rs2) s = s.ends c (k.wp pd (decide (a ≠ b))).adv ∧
    exec (.cmpLt c g pd rs1 rs2) s = s.ends c (k.wp pd (decide (a.toInt < b.toInt))).adv ∧
    exec (.cmpGe c g pd rs1 rs2) s = s.ends c (k.wp pd (decide (b.toInt ≤ a.toInt))).adv ∧
    exec (.cmpLtu c g pd rs1 rs2) s = s.ends c (k.wp pd (decide (a.toNat < b.toNat))).adv ∧
    exec (.cmpGeu c g pd rs1 rs2) s = s.ends c (k.wp pd (decide (b.toNat ≤ a.toNat))).adv ∧
    exec (.cmpiEq c g pd rs1 imm) s = s.ends c (k.wp pd (decide (a = i))).adv ∧
    exec (.cmpiNe c g pd rs1 imm) s = s.ends c (k.wp pd (decide (a ≠ i))).adv ∧
    exec (.cmpiLt c g pd rs1 imm) s = s.ends c (k.wp pd (decide (a.toInt < i.toInt))).adv ∧
    exec (.cmpiGe c g pd rs1 imm) s = s.ends c (k.wp pd (decide (i.toInt ≤ a.toInt))).adv ∧
    exec (.cmpiLtu c g pd rs1 imm) s = s.ends c (k.wp pd (decide (a.toNat < i.toNat))).adv ∧
    exec (.cmpiGeu c g pd rs1 imm) s = s.ends c (k.wp pd (decide (i.toNat ≤ a.toNat))).adv) ∧
  (∀ (c : Nat) (g : Guard) (pd pa : BitVec 3) (na : Bool) (pb : BitVec 3) (nb : Bool) (rd rs1 : Reg) (s : State), s.goes c g = true →
    let k := s.ctl c; let x := (k.rp pa).xor na; let y := (k.rp pb).xor nb
    exec (.pand c g pd pa na pb nb) s = s.ends c (k.wp pd (x && y)).adv ∧
    exec (.por c g pd pa na pb nb) s = s.ends c (k.wp pd (x || y)).adv ∧
    exec (.pxor c g pd pa na pb nb) s = s.ends c (k.wp pd (x.xor y)).adv ∧
    exec (.pget c g rd) s = s.ends c (k.wg rd ((k.p ||| 1#8).setWidth 64)).adv ∧
    exec (.pset c g rs1) s = s.ends c { k with p := (k.rg rs1).setWidth 8 &&& 0xFE#8 }.adv) ∧
  (∀ (k : Ctl) (b : Bool),
    k.wp 0 b = k ∧ k.rp 0 = true) ∧
  (∀ (k : Ctl) (i j : BitVec 3) (b : Bool), i ≠ 0 →
    (k.wp i b).rp i = b ∧ (j ≠ i → (k.wp i b).rp j = k.rp j) ∧ { (k.wp i b) with p := k.p } = k)

/-- Scratchpad loads and stores: At the offset a = g[rs1] + sext(imm10) × size: an aligned access inside the scratchpad that meets no poison
completes, a load with the sign- or zero-extended bytes at a, a store with the low bytes of g[rs2] written at a, their poison marks updated; a
misaligned offset raises ALIGN, then an offset of 0x8_0000 or more RANGE, then a load of a poisoned byte POISON, with EVAL the offset. -/
def Obligations.ScratchpadAccess : Prop :=
  (∀ (i : Instr) (c : Nat) (g : Guard) (rs1 : Reg) (imm : BitVec 10) (n : Nat) (s : State), spadAccess i = some (c, g, rs1, imm, n) →
    s.goes c g = true → ((s.ctl c).ea rs1 imm n).toNat % n = 0 → ((s.ctl c).ea rs1 imm n).toNat < 0x80000 → (isLoad i = true →
    (s.spad c).bad ((s.ctl c).ea rs1 imm n).toNat n = false) →
    let k := s.ctl c; let a := (k.ea rs1 imm n).toNat
    let v := (s.spad c).nat a n; let r := s.noteRead c a n
    match i with
    | .ldB _ _ rd _ _ => exec i s = r.ends c (k.wg rd ((BitVec.ofNat 8 v).signExtend 64)).adv
    | .ldBu _ _ rd _ _ => exec i s = r.ends c (k.wg rd (BitVec.ofNat 64 v)).adv
    | .ldH _ _ rd _ _ => exec i s = r.ends c (k.wg rd ((BitVec.ofNat 16 v).signExtend 64)).adv
    | .ldHu _ _ rd _ _ => exec i s = r.ends c (k.wg rd (BitVec.ofNat 64 v)).adv
    | .ldW _ _ rd _ _ => exec i s = r.ends c (k.wg rd ((BitVec.ofNat 32 v).signExtend 64)).adv
    | .ldWu _ _ rd _ _ => exec i s = r.ends c (k.wg rd (BitVec.ofNat 64 v)).adv
    | .ldD _ _ rd _ _ => exec i s = r.ends c (k.wg rd (BitVec.ofNat 64 v)).adv
    | .stB _ _ rs2 _ _ | .stH _ _ rs2 _ _ | .stW _ _ rs2 _ _ | .stD _ _ rs2 _ _ =>
      exec i s = (s.spadStore c a (leBytes n (k.rg rs2).toNat) (fun _ => false)).ends c k.adv
    | _ => False) ∧
  (∀ (i : Instr) (c : Nat) (g : Guard) (rs1 : Reg) (imm : BitVec 10) (n : Nat) (s : State), spadAccess i = some (c, g, rs1, imm, n) →
    s.goes c g = true → ((s.ctl c).ea rs1 imm n).toNat % n ≠ 0 →
    exec i s = s.raises c cAlign eRange (s.ctl c).pc ((s.ctl c).ea rs1 imm n)) ∧
  (∀ (i : Instr) (c : Nat) (g : Guard) (rs1 : Reg) (imm : BitVec 10) (n : Nat) (s : State), spadAccess i = some (c, g, rs1, imm, n) →
    s.goes c g = true → ((s.ctl c).ea rs1 imm n).toNat % n = 0 → 0x80000 ≤ ((s.ctl c).ea rs1 imm n).toNat →
    exec i s = s.raises c cRange eRange (s.ctl c).pc ((s.ctl c).ea rs1 imm n)) ∧
  (∀ (i : Instr) (c : Nat) (g : Guard) (rs1 : Reg) (imm : BitVec 10) (n : Nat) (s : State), spadAccess i = some (c, g, rs1, imm, n) →
    isLoad i = true → s.goes c g = true → ((s.ctl c).ea rs1 imm n).toNat % n = 0 → ((s.ctl c).ea rs1 imm n).toNat < 0x80000 →
    (s.spad c).bad ((s.ctl c).ea rs1 imm n).toNat n = true →
    let a := (s.ctl c).ea rs1 imm n
    exec i s = (s.noteRead c a.toNat n).raises c cPoison ePoison (s.ctl c).pc a)

/-- What a store to a scratchpad leaves: Writing bytes into a scratchpad reads back as those bytes when its memory is in canonical form, which it
keeps; every byte outside the written ones, every other scratchpad, the check bits and every other part of the state are as before; poison marks
change at the written words only. A store of a core's own work writes the same bytes and, while the sheet of its vat runs with an output range, adds
the contribution of the written words to out_crc. -/
def Obligations.ScratchpadStoreFrame : Prop :=
  (∀ (s : State) (c a : Nat) (bs : List Byte) (bad : Nat → Bool),
    let t := s.spadPut c a bs bad
    (∀ b, b < a ∨ a + bs.length ≤ b → (t.spad c).mem.read b = (s.spad c).mem.read b) ∧
    (∀ w, 4 * w + 4 ≤ a ∨ a + bs.length ≤ 4 * w → (t.spad c).poison.has w = (s.spad c).poison.has w) ∧
    (t.spad c).ue = (s.spad c).ue ∧ (t.spad c).ce = (s.spad c).ce ∧ (∀ d, d ≠ c → t.spad d = s.spad d) ∧ 
    { t with cores := { t.cores with spads := s.cores.spads } } = s) ∧
  (∀ (s : State) (c a : Nat) (bs : List Byte) (bad : Nat → Bool), (s.spad c).mem.wf = true →
    let t := s.spadPut c a bs bad
    (t.spad c).mem.readBytes a bs.length = bs ∧ (t.spad c).mem.wf = true) ∧
  (∀ (s : State) (c v a : Nat) (bs : List Byte) (bad : Nat → Bool), s.vatOfCore c = some v → (s.vat v).st = .running → (s.vat v).det.wmRange ≠ [] →
    let u := s.spadStore c a bs bad; let x := (s.spadPut c a bs bad).vat v
    (u.vat v).det.outCrc = x.det.outCrc + BitVec.ofNat 64 (wmSum x.det.wmRange (s.spadAddr c a) bs bad) ∧ { u with vats := s.vats } = s.spadPut c a bs bad) ∧
  (∀ (k : Ctl) (rs1 : Reg) (imm : BitVec 10) (n : Nat),
    k.ea rs1 imm n = k.rg rs1 + imm.signExtend 64 * BitVec.ofNat 64 n) ∧
  (∀ (c : Nat),
    (State.reset.spad c).mem.wf = true)

/-- Guards and reserved words of the control processor: An instruction whose guard is false only moves past, unless its word is reserved; a reserved
guard (gn = 1, gp = 0), or a reserved value in a field whatever the guard, raises ILLEGAL with EVAL a word that carries that guard; a word with an
uncorrectable error raises POISON with EVAL the pc, after its error report. A control processor that cannot start an instruction (not running, held,
its cluster or vat stopped) is left as it is: the model's choice for a command that cannot happen then (log entry 2). -/
def Obligations.GuardAndReserved : Prop :=
  (∀ (i : Instr) (c : Nat) (g : Guard) (s : State), guardOf i = some (c, g) → s.ctlOn c = true → s.fetchBad c = false → s.wordFine i = true →
    (g.gn && g.gp == 0) = false → (s.ctl c).guardTrue g = false →
    exec i s = s.ends c (s.ctl c).adv) ∧
  (∀ (i : Instr) (c : Nat) (g : Guard) (s : State), guardOf i = some (c, g) → s.ctlOn c = true → s.fetchBad c = false → g.gn = true → g.gp = 0 →
    ∃ w : W32, w.extractLsb' 20 3 = g.gp ∧ w.getLsbD 23 = g.gn ∧ exec i s = s.raises c cIllegal eFormat (s.ctl c).pc (w.setWidth 64)) ∧
  (∀ (i : Instr) (c : Nat) (g : Guard) (s : State), guardOf i = some (c, g) → s.ctlOn c = true → s.fetchBad c = false → s.wordFine i = false →
    ∃ w : W32, w.extractLsb' 20 3 = g.gp ∧ w.getLsbD 23 = g.gn ∧ exec i s = s.raises c cIllegal eFormat (s.ctl c).pc (w.setWidth 64)) ∧
  (∀ (i : Instr) (c : Nat) (g : Guard) (s : State), guardOf i = some (c, g) → s.ctlOn c = true → s.fetchBad c = true →
    let pc := (s.ctl c).pc
    exec i s = (s.sramError c pc.toNat 0).raises c cPoison ePoison pc pc) ∧
  (∀ (i : Instr) (c : Nat) (g : Guard) (s : State), guardOf i = some (c, g) → s.ctlOn c = false →
    exec i s = .next s)

/-- Taking an exception: Taking an exception with STATUS.exc set enters HALTED with reason 5, with EVEC outside the instruction memory HALTED with
reason 6; otherwise EPC, ECAUSE, EVAL, EPRED, STATUS and pc are written as R93 says and nothing else changes. Entering HALTED raises cause bit 0 of
the core, and the interrupt source of the core becomes pending when that bit was clear (the device is powered and awake). -/
def Obligations.ExceptionEntry : Prop :=
  (∀ (s : State) (c : Nat) (cause : BitVec 8) (status : Nat) (ep v : W64), (s.ctl c).exc = true →
    s.takeException c cause status ep v = s.haltCore c 5) ∧
  (∀ (s : State) (c : Nat) (cause : BitVec 8) (status : Nat) (ep v : W64), (s.ctl c).exc = false → inImem c (s.ctl c).evec = false →
    s.takeException c cause status ep v = s.haltCore c 6) ∧
  (∀ (s : State) (c : Nat) (cause : BitVec 8) (status : Nat) (ep v : W64), (s.ctl c).exc = false → inImem c (s.ctl c).evec = true →
    let k := s.ctl c
    s.takeException c cause status ep v = s.setCtl c
      { k with epc := ep, cause := cause, causeStatus := BitVec.ofNat 8 status, eval := v, epred := k.p &&& 0xFE#8, pie := k.ie, ie := false, exc := true,
               pc := k.evec, waiting := none }) ∧
  (∀ (c : Nat) (a : W64),
    (c ≠ mgmtCore → inImem c a = decide (a.toNat < 0x8000)) ∧ inImem mgmtCore a = decide (a.toNat < 0x38000)) ∧
  (∀ (s : State) (c : Nat) (r : BitVec 8), c ≠ mgmtCore →
    let t := s.haltCore c r
    t.ctl c = { s.ctl c with run := .halted, haltReason := r, waiting := none } ∧ (∀ d, d ≠ c → t.ctl d = s.ctl d) ∧ (t.irqCause c).getLsbD 0 = true) ∧
  (∀ (s : State) (c n : Nat) (r : BitVec 8), c ≠ mgmtCore → (s.irqCause c).getLsbD 0 = false → s.coreSource c = some n → s.pwr.on = true →
    s.pwr.off = false → s.pwr.asleep = false →
    ((s.haltCore c r).irqSrc n).pending = true)

/-- ERET: ERET with STATUS.exc set completes: it restores the pc from EPC, p1 to p7 from EPRED and STATUS.ie from STATUS.pie in modes 2 and 3 (in
modes 0 and 1 ie reads zero, Table 3.10), clears STATUS.exc, and changes nothing else; with STATUS.exc clear it raises ILLEGAL with EVAL the
instruction word. -/
def Obligations.ReturnFromException : Prop :=
  (∀ (c : Nat) (g : Guard) (s : State), s.goes c g = true → (s.ctl c).exc = true →
    let k := s.ctl c
    exec (.eret c g) s = .next ((s.setCtl c { k with pc := k.epc, p := k.epred &&& 0xFE#8, ie := decide (2 ≤ k.mode.toNat) && k.pie, exc := false }).stepOver c)) ∧
  (∀ (c : Nat) (g : Guard) (s : State), s.goes c g = true → (s.ctl c).exc = false →
    ∃ w : W32, w.extractLsb' 24 8 = 0x68#8 ∧ exec (.eret c g) s = s.raises c cIllegal eFormat (s.ctl c).pc (w.setWidth 64))

/-- Branches, calls and system instructions: BR, CALL, JR, JALR and DBNZ set the pc and the link register as Table 3.13 gives when the target is a
word of the instruction memory; a misaligned target raises ALIGN and one outside the instruction memory RANGE, with EVAL the target; END enters
ENDED on a compute core, HALT and BRK enter HALTED with reasons 1 and 2 past the instruction, TRAP raises TRAP with EVAL the code and EPC the
following instruction, NOP only moves past. A reserved form of DBNZ, IBINS, QWAIT or MFS is illegal whatever its guard. A fetch of an uncorrectable
word raises POISON, one outside the instruction memory RANGE (the model's reading, log entry 19), and a word of no instruction ILLEGAL: the word 0,
a major opcode of 0x80 or above, and the reserved guard are none. -/
def Obligations.ControlFlow : Prop :=
  (∀ (c : Nat) (g : Guard) (off : BitVec 20) (rd rs1 : Reg) (imm : BitVec 10) (s : State), s.goes c g = true →
    let k := s.ctl c
    (exec (.br c g off) s = match s.target c (k.pc + off.signExtend 64 * 4) with
      | none => s.ends c { k with pc := k.pc + off.signExtend 64 * 4 }
      | some x => s.raises c x eRange k.pc (k.pc + off.signExtend 64 * 4)) ∧
    (exec (.call c g off) s = match s.target c (k.pc + off.signExtend 64 * 4) with
      | none => s.ends c { k.wg 31 (k.pc + 4) with pc := k.pc + off.signExtend 64 * 4 }
      | some x => s.raises c x eRange k.pc (k.pc + off.signExtend 64 * 4)) ∧
    (exec (.jr c g rs1 imm) s = match s.target c (k.rg rs1 + imm.signExtend 64 * 4) with
      | none => s.ends c { k with pc := k.rg rs1 + imm.signExtend 64 * 4 }
      | some x => s.raises c x eRange k.pc (k.rg rs1 + imm.signExtend 64 * 4)) ∧
    (exec (.jalr c g rd rs1 imm) s = match s.target c (k.rg rs1 + imm.signExtend 64 * 4) with
      | none => s.ends c { k.wg rd (k.pc + 4) with pc := k.rg rs1 + imm.signExtend 64 * 4 }
      | some x => s.raises c x eRange k.pc (k.rg rs1 + imm.signExtend 64 * 4))) ∧
  (∀ (c : Nat) (g : Guard) (rd : Reg) (imm : BitVec 15) (s : State), s.goes c g = true → rd ≠ 0 →
    let k := s.ctl c; let x := k.rg rd - 1; let t := k.pc + imm.signExtend 64 * 4
    exec (.dbnz c g rd imm) s = if x = 0 then s.ends c (k.wg rd x).adv else match s.target c t with
      | none => s.ends c { k.wg rd x with pc := t }
      | some y => s.raises c y eRange k.pc t) ∧
  (∀ (s : State) (c : Nat) (t : W64),
    s.target c t = if t.toNat % 4 ≠ 0 then some cAlign else if inImem c t = false then some cRange else none) ∧
  (∀ (c : Nat) (g : Guard) (code : BitVec 20) (s : State), s.goes c g = true →
    let k := s.ctl c
    exec (.nop c g) s = s.ends c k.adv ∧
    (k.mode ≠ 2 → k.mode ≠ 3 → exec (.endProg c g) s = s.ends c { k with run := .ended }.adv) ∧
    exec (.halt c g) s = .next (((s.setCtl c k.adv).haltCore c 1).stepOver c) ∧
    exec (.brk c g) s = .next (((s.setCtl c k.adv).haltCore c 2).stepOver c) ∧
    exec (.trap c g code) s = s.raises c cTrap eOk (k.pc + 4) (code.setWidth 64)) ∧
  (∀ (c : Nat) (g : Guard) (s : State), s.goes c g = true → (s.ctl c).mode.toNat ≥ 2 →
    exec (.endProg c g) s = s.raises c cIllegal eFormat (s.ctl c).pc ((encB 0x69 g 0).setWidth 64)) ∧
  (∀ (c : Nat) (g : Guard) (s : State), s.ctlOn c = true → s.fetchBad c = false →
    let bad := fun (i : Instr) (w : W32) => exec i s = .next ((s.illegal c w).stepOver c)
    (∀ imm, bad (.dbnz c g 0 imm) (encU 0x64 g 0 imm)) ∧ (∀ ib pos lenm1 rs1, 63 < pos.toNat + lenm1.toNat → bad (.ibins c g ib pos lenm1 rs1) (encX 0x72 g ib pos lenm1 rs1)) ∧
    (∀ nb pd, bad (.qwait c g nb pd 0) (encQ 0x74 g 0 nb 0 pd 0)) ∧ (∀ pd mask, pd ≠ 0 → bad (.qwait c g false pd mask) (encQ 0x74 g 0 false 0 pd mask)) ∧ (∀ rd sr, s.srAssigned c sr.toNat = false → bad (.mfs c g rd sr) (encI 0x58 g rd 0 sr))) ∧
  (∀ (c : Nat) (s : State), s.ctlOn c = true →
    let pc := (s.ctl c).pc; let w := leNat ((s.imem c).readBytes pc.toNat 4)
    (s.fetchBad c = true → s.fetch c = s.fetchPoison c) ∧ (s.fetchBad c = false → inImem c pc = false → s.fetch c = (s.takeException c cRange eRange pc pc).stepOver c) ∧
    (s.fetchBad c = false → inImem c pc = true → c ≠ mgmtCore → wordOk w = false → s.fetch c = (s.illegal c (BitVec.ofNat 32 w)).stepOver c) ∧ (s.fetchBad c = false → inImem c pc = true → wordOk w = true → s.fetch c = s) ∧
    wordOk 0 = false ∧ (∀ x, 0x80 ≤ fld x 24 8 → wordOk x = false) ∧ (∀ x, fld x 20 4 = 8 → wordOk x = false))

/-- WFI, MFENCE and the events of an instruction boundary: WFI raises PRIVILEGE in modes 0 and 1, retires while the request line is asserted and
else waits until it is; MFENCE waits for outstanding stores and then raises REMOTE with EVAL RSERR while rserr is set, or retires; a forced stop
present halts the core with reason 4 before any other event, else a debug halt halts it with reason 3 and an interrupt enters INTERRUPT, each
abandoning a waiting instruction and its watch. -/
def Obligations.WaitsAndEvents : Prop :=
  (∀ (c : Nat) (g : Guard) (s : State), s.goes c g = true →
    let k := s.ctl c
    exec (.wfi c g) s = if k.mode.toNat < 2 then s.raises c cPrivilege ePermission k.pc 0 else if s.lineOf c then s.ends c k.adv
      else s.ends c { k with waiting := some .wfi }) ∧
  (∀ (c : Nat) (s : State), (s.ctl c).waiting = some .wfi → s.lineOf c = true →
    exec (.wfiWake c) s = s.ends c { s.ctl c with waiting := none }.adv) ∧
  (∀ (c : Nat) (g : Guard) (s : State), s.goes c g = true →
    let k := s.ctl c; let z := { k with strAsync := 0 }
    (k.strOut = 0 → exec (.mfence c g) s = if k.rserrSet then (s.setCtl c z).raises c cRemote (k.rserr.toNat / 2 ^ 48 % 256) k.pc k.rserr else s.ends c z.adv) ∧
    (k.strOut ≠ 0 → Does (.mfence c g) s (fun t => t.ctl c = { k with waiting := some .mfence } ∧ (∀ d, d ≠ c → t.ctl d = s.ctl d)))) ∧
  (∀ (c : Nat) (s : State), (s.ctl c).waiting = some .mfence →
    let k := { s.ctl c with waiting := none, strOut := 0, strAsync := 0 }
    exec (.mfenceComplete c) s = if k.rserrSet then (s.setCtl c k).raises c cRemote (k.rserr.toNat / 2 ^ 48 % 256) k.pc k.rserr else s.ends c k.adv) ∧
  (∀ (c : Nat) (s : State), (s.ctl c).run = .running → (s.ctl c).ldr = none →
    let k := { s.ctl c with waiting := none }; let r := (s.setCtl c k).dropCpuWatch c; let z := (s.setCtl c { k with haltReq := false }).dropCpuWatch c
    (s.mustStop c = true → exec (.interruptTaken c .forcedStop) s = .next (r.haltCore c 4) ∧ exec (.interruptTaken c .debugHalt) s = .next (z.haltCore c 4) ∧
      exec (.interruptTaken c .interrupt) s = .next (r.haltCore c 4)) ∧
    (s.mustStop c = false → exec (.interruptTaken c .debugHalt) s = .next (z.haltCore c 3) ∧
      (k.ie = true → s.lineOf c = true → exec (.interruptTaken c .interrupt) s = .next (r.takeException c cInterrupt eOk k.pc 0)) ∧
      (k.ie = false → exec (.interruptTaken c .interrupt) s = .next s)))

/-- Special register instructions: With an assigned number MFS writes the register of Table 3.9 to rd, MTS writes the register field by field, MSET
and MCLR set and clear its RW fields, each moving past; a number that is not assigned on the core raises ILLEGAL whatever the guard. Which fields a
write changes is given for every writable register: STATUS (pie, and ie in modes 2 and 3; a 1 in bit 7 clears rserr for MTS), EPC and EVEC without
bits 1:0, EPRED bits 7:1, ESCRATCH and IB0 to IB3. -/
def Obligations.SpecialRegisters : Prop :=
  (∀ (c : Nat) (g : Guard) (rd rs1 : Reg) (sr : BitVec 10) (s : State), s.goes c g = true → s.srAssigned c sr.toNat = true →
    let k := s.ctl c; let n := sr.toNat; let x := k.rg rs1; let v := s.srRead c n
    exec (.mfs c g rd sr) s = s.ends c (k.wg rd v).adv ∧
    (n ≠ 0x02F → ¬ (n = 0 ∧ x.getLsbD 7 = true) → exec (.mts c g rs1 sr) s = s.ends c (k.srPut n x).adv) ∧
    (n = 0 → x.getLsbD 7 = true → exec (.mts c g rs1 sr) s = s.ends c { k.srPut n x with rserrSet := false }.adv) ∧
    (n = 0x02F → exec (.mts c g rs1 sr) s = .next (((s.qctlWrite c x.toNat).modCtl c Ctl.adv).stepOver c)) ∧
    exec (.mset c g rs1 sr) s = s.ends c (k.srPut n (v ||| x)).adv ∧
    exec (.mclr c g rs1 sr) s = s.ends c (k.srPut n (v &&& ~~~x)).adv) ∧
  (∀ (c : Nat) (g : Guard) (rd rs1 : Reg) (sr : BitVec 10) (s : State), s.ctlOn c = true → s.fetchBad c = false → s.srAssigned c sr.toNat = false →
    let pc := (s.ctl c).pc
    exec (.mfs c g rd sr) s = s.raises c cIllegal eFormat pc ((encI 0x58 g rd 0 sr).setWidth 64) ∧
    exec (.mts c g rs1 sr) s = s.raises c cIllegal eFormat pc ((encI 0x59 g 0 rs1 sr).setWidth 64) ∧
    exec (.mset c g rs1 sr) s = s.raises c cIllegal eFormat pc ((encI 0x5A g 0 rs1 sr).setWidth 64) ∧
    exec (.mclr c g rs1 sr) s = s.raises c cIllegal eFormat pc ((encI 0x5B g 0 rs1 sr).setWidth 64)) ∧
  (∀ (k : Ctl) (x : W64),
    k.srPut 0x000 x = { k with pie := x.getLsbD 3, ie := decide (k.mode.toNat ≥ 2) && x.getLsbD 2 } ∧
    k.srPut 0x001 x = { k with epc := x &&& ~~~3#64 } ∧
    k.srPut 0x004 x = { k with evec := x &&& ~~~3#64 } ∧
    k.srPut 0x005 x = { k with epred := x.setWidth 8 &&& 0xFE#8 } ∧
    k.srPut 0x006 x = { k with escratch := x } ∧
    k.srPut 0x030 x = { k with ib0 := x } ∧
    k.srPut 0x031 x = { k with ib1 := x } ∧
    k.srPut 0x032 x = { k with ib2 := x } ∧
    k.srPut 0x033 x = { k with ib3 := x } ∧
    (∀ n, n ∉ [0x000, 0x001, 0x004, 0x005, 0x006, 0x030, 0x031, 0x032, 0x033] → k.srPut n x = k)) ∧
  (∀ (s : State) (c : Nat),
    let k := s.ctl c
    (s.srRead c 0x000).toNat = k.mode.toNat + 4 * b2n k.ie + 8 * b2n k.pie + 16 * b2n k.exc + 128 * b2n k.rserrSet ∧
    s.srRead c 0x001 = k.epc ∧
    (s.srRead c 0x002).toNat = k.cause.toNat + 256 * k.causeStatus.toNat ∧
    s.srRead c 0x003 = k.eval ∧
    s.srRead c 0x004 = k.evec ∧
    s.srRead c 0x005 = k.epred.setWidth 64 ∧
    s.srRead c 0x006 = k.escratch ∧
    s.srRead c 0x007 = k.rserr ∧
    s.srRead c 0x011 = (if c = mgmtCore then s.clk.ao else s.clk.fast) - k.cycleBase ∧
    s.srRead c 0x012 = s.clk.gtc ∧
    s.srRead c 0x014 = k.entry ∧
    s.srRead c 0x015 = k.haltReason.setWidth 64 ∧
    s.srRead c 0x02F = 0 ∧
    s.srRead c 0x030 = k.ib0 ∧
    s.srRead c 0x031 = k.ib1 ∧
    s.srRead c 0x032 = k.ib2 ∧
    s.srRead c 0x033 = k.ib3)

/-- LDR and STR: An access that passes the checks of R88 leaves the core: an LDR holds the control processor with its destination noted and its read
request sent, an STR moves past with one more store outstanding and its write sent, and on the answer an LDR writes the zero-extended data and moves
past, or raises REMOTE with the status and the address; a refused STR sets rserr and records the first address and status; an access that fails a
check raises ALIGN, RANGE or ACCESS with EVAL the address. -/
def Obligations.DeviceAccess : Prop :=
  (∀ (c : Nat) (g : Guard) (rd rs1 : Reg) (imm : BitVec 10) (s : State), s.goes c g = true →
    ∀ n ∈ [4, 8], let k := s.ctl c; let a := k.ea rs1 imm n; let i := if n = 4 then Instr.ldrW c g rd rs1 imm else .ldrD c g rd rs1 imm
    match s.devFault c a n false with
    | some (x, st) => exec i s = s.raises c x st k.pc a
    | none => Does i s (fun t => t.ctl c = { k with ldr := some { rd := rd, size := n, addr := a } } ∧ (∀ d, d ≠ c → t.ctl d = s.ctl d) ∧
        (a.toNat < remoteBase → .readReq c a.toNat n (s.meshTo c a.toNat) ∈ t.out) ∧ Only [.cores, .vats, .hub, .span, .out, .pwr] s t)) ∧
  (∀ (c : Nat) (g : Guard) (rs2 rs1 : Reg) (imm : BitVec 10) (s : State), s.goes c g = true →
    ∀ n ∈ [4, 8], let k := s.ctl c; let a := k.ea rs1 imm n; let i := if n = 4 then Instr.strW c g rs2 rs1 imm else .strD c g rs2 rs1 imm
    match s.devFault c a n true with
    | some (x, st) => exec i s = s.raises c x st k.pc a
    | none => ∃ u : State, exec i s = .next (u.stepOver c) ∧ u.ctl c = { k with strOut := k.strOut + 1, strAsync := k.strAsync + b2n (targetAsync (targetOf a.toNat)) }.adv ∧ (∀ d, d ≠ c → u.ctl d = s.ctl d) ∧
        (a.toNat < remoteBase → u.out = s.out ++ [.writeReq c a.toNat (leBytes n (k.rg rs2).toNat) (s.meshTo c a.toNat)]) ∧ Only [.cores, .vats, .hub, .span, .out, .pwr] s u) ∧
  (∀ (s : State) (c n : Nat) (a : W64) (w : Bool),
    s.devFault c a n w = if a.toNat % n ≠ 0 then some (cAlign, eRange) else if 2 ^ 48 ≤ a.toNat ∨ s.devRight c a.toNat w = eRange then some (cRange, eRange)
      else if s.devRight c a.toNat w ≠ eOk then some (cAccess, ePermission) else none) ∧
  (∀ (c : Nat) (v : W64) (st : BitVec 8) (x : LdrOut) (s : State), (s.ctl c).ldr = some x → (s.ctl c).haltReq = false →
    let k := { s.ctl c with ldr := none }
    exec (.ldrReturn c (.data v)) s = s.ends c (k.wg x.rd (BitVec.ofNat 64 (v.toNat % 2 ^ (8 * x.size)))).adv ∧
    exec (.ldrReturn c (.refused st)) s = (s.setCtl c k).raises c cRemote st.toNat (s.ctl c).pc x.addr) ∧
  (∀ (c : Nat) (a : W64) (st : BitVec 8) (s : State),
    let k := s.ctl c
    exec (.strRefused c a st) s = .next (s.setCtl c { k with strOut := k.strOut - 1, strAsync := k.strAsync - b2n (targetAsync (targetOf a.toNat)), rserrSet := true, rserr := if k.rserrSet then k.rserr else BitVec.ofNat 64 (a.toNat % 2 ^ 48 + st.toNat * 2 ^ 48) }))

/-- ISSUE, IBINS, QWAIT and QCTL: With a free place and a well-formed macro-instruction, ISSUE from the scratchpad and ISSUE.B append it to the end
of the queue, set pd for .NB and move past, and an ISSUE that waits for a place does the same once one is free; a full queue clears pd for .NB, else
holds the processor; IBINS replaces its field of the issue buffer word; QWAIT moves past, or sets pd, or waits, by whether the queues of its mask
have drained; a retry or drop by QCTL releases a halted queue, the drop freeing its head. -/
def Obligations.IssueAndQueues : Prop :=
  (∀ (c : Nat) (g : Guard) (q : BitVec 4) (nb : Bool) (pd : BitVec 3) (s : State), s.goes c g = true → q.toNat ≤ 6 → c ≠ mgmtCore →
    (nb = true ∨ pd = 0) → headerOk (s.ctl c).ibuf = true → layoutOk (s.ctl c).ibuf = true →
    let k := s.ctl c
    if s.qFree c q.toNat = 0 then exec (.issueB c g q nb pd) s = if nb then s.ends c (k.wp pd false).adv else s.ends c { k with waiting := some (.issueB q.toNat) }
    else ∃ u : State, exec (.issueB c g q nb pd) s = .next (u.stepOver c) ∧ u.ctl c = (if nb then k.wp pd true else k).adv ∧ s.queued c q.toNat k.ibuf u) ∧
  (∀ (c : Nat) (g : Guard) (q : BitVec 4) (nb : Bool) (rs1 : Reg) (pd : BitVec 3) (imm : BitVec 7) (a : Nat) (m : W256) (s : State), s.goes c g = true → q.toNat ≤ 6 → c ≠ mgmtCore → (nb = true ∨ pd = 0) → a = ((s.ctl c).rg rs1 + imm.setWidth 64 * 32).toNat → a % 32 = 0 → a < 0x80000 → (s.spad c).bad a 32 = false → m = BitVec.ofNat 256 ((s.spad c).nat a 32) → headerOk m = true → layoutOk m = true →
    let k := s.ctl c; let i := Instr.issue c g q nb rs1 pd imm
    if s.qFree c q.toNat = 0 then exec i s = if nb then s.ends c (k.wp pd false).adv else s.ends c { k with waiting := some (.issue q.toNat a) }
    else ∃ u : State, exec i s = .next (u.stepOver c) ∧ u.ctl c = (if nb then k.wp pd true else k).adv ∧ s.queued c q.toNat m u) ∧
  (∀ (c q : Nat) (src : Option Nat) (m : W256) (s : State), (s.ctl c).waiting = (match src with | some a => some (.issue q a) | none => some (.issueB q)) → (s.ctl c).live = true → s.vatLets c = true → s.qFree c q ≠ 0 → (match src with | some a => (s.spad c).bad a 32 = false ∧ m = BitVec.ofNat 256 ((s.spad c).nat a 32) | none => m = (s.ctl c).ibuf) → headerOk m = true → layoutOk m = true →
    ∃ u : State, exec (.issueReserve c) s = .next (u.stepOver c) ∧ u.ctl c = { s.ctl c with waiting := none }.adv ∧ s.queued c q m u) ∧
  (∀ (c : Nat) (g : Guard) (ib : BitVec 2) (pos lenm1 : BitVec 6) (rs1 : Reg) (s : State), s.goes c g = true → pos.toNat + lenm1.toNat + 1 ≤ 64 →
    c ≠ mgmtCore →
    let k := s.ctl c; let w := insertField (k.ib ib) pos.toNat (lenm1.toNat + 1) (k.rg rs1)
    exec (.ibins c g ib pos lenm1 rs1) s = s.ends c (k.setIb ib w).adv ∧
    ∀ j, j < 64 → w.getLsbD j = if pos.toNat ≤ j ∧ j ≤ pos.toNat + lenm1.toNat then (k.rg rs1).getLsbD (j - pos.toNat) else (k.ib ib).getLsbD j) ∧
  (∀ (c : Nat) (g : Guard) (nb : Bool) (pd : BitVec 3) (mask : BitVec 7) (s : State), s.goes c g = true → mask ≠ 0 → c ≠ mgmtCore →
    (nb = true ∨ pd = 0) →
    let k := s.ctl c; let ok := s.qwaitHolds c mask
    exec (.qwait c g nb pd mask) s = if nb then s.ends c (k.wp pd ok).adv else if ok then s.ends c k.adv else s.ends c { k with waiting := some (.qwait mask) }) ∧
  (∀ (c : Nat) (mask : BitVec 7) (s : State), (s.ctl c).waiting = some (.qwait mask) → (s.ctl c).live = true → s.qwaitHolds c mask = true →
    exec (.qwaitRetire c) s = s.ends c { s.ctl c with waiting := none }.adv) ∧
  (∀ (c q : Nat) (s : State), (s.queue c q).halted = true → q ≤ 6 →
    let x := s.queue c q
    Does (.qctlRetry c q) s (fun t => t.queue c q = { x with halted := false } ∧ (∀ d p, 8 * d + p ≠ 8 * c + q → t.queue d p = s.queue d p) ∧ t.cores.ctls = s.cores.ctls ∧ Only [.cores] s t) ∧
    Does (.qctlDrop c q) s (fun t => t.queue c q = (match x.held with | some _ => { x with held := x.held2, held2 := none, halted := false } | none => { x with entries := x.entries.tail, halted := false }) ∧
      (∀ d p, 8 * d + p ≠ 8 * c + q → t.queue d p = s.queue d p) ∧ t.cores.ctls = s.cores.ctls ∧ Only [.cores] s t))

/-- Additions to and checked subtracts from sync counters: An addition that stays at or below 0xFFFF_FFFF adds; one that would pass it leaves the
counter at 0xFFFF_FFFF, counts in the overflow count of the counter's node and is logged; a checked subtract that stays at or above zero subtracts;
one that would pass below leaves the counter, counts in the underflow count and is logged; no other counter changes and nothing halts. -/
def Obligations.SyncCounterArithmetic : Prop :=
  (∀ (s : State) (a n : Nat),
    let t := s.addCtr a n
    t.ctr a = min (s.ctr a + n) 0xFFFFFFFF ∧ (∀ b, b ≠ a → t.ctr b = s.ctr b) ∧ t.cores.ctls = s.cores.ctls ∧ t.cores.queues = s.cores.queues ∧
    (s.ctr a + n ≤ 0xFFFFFFFF → Only [.net] s t ∧ t.net.errOvf = s.net.errOvf) ∧
    (0xFFFFFFFF < s.ctr a + n → t.net.errOvf.get 0 (ctrNode a) = min 0xFFFF (s.net.errOvf.get 0 (ctrNode a) + 1))) ∧
  (∀ (s : State) (a n : Nat),
    let r := s.subCtr a n
    (n ≤ s.ctr a → r.2 = true ∧ r.1.ctr a = s.ctr a - n ∧ (∀ b, b ≠ a → r.1.ctr b = s.ctr b) ∧ Only [.net] s r.1 ∧ r.1.net.errUnf = s.net.errUnf) ∧
    (s.ctr a < n → r.2 = false ∧ r.1.net.ctrs = s.net.ctrs ∧ r.1.net.errUnf.get 0 (ctrNode a) = min 0xFFFF (s.net.errUnf.get 0 (ctrNode a) + 1))) ∧
  (∀ (a : Nat),
    ctrNode a = (if a < 0x4000 then a / 256 else 64) ∧ (ctrWf a = true ↔ a < 0x4040))

/-- Sync counter instructions: On a well-formed counter address that the core may use, SADD (once earlier stores are acknowledged) adds the low 32
bits of g[rs2], SSUB subtracts them or raises SYNC with the counter unchanged, SREAD reads the counter into rd, and SWAIT registers its watch, which
retires it at once when the condition holds; a malformed address raises RANGE and a counter the core may not use ACCESS, with EVAL the address; a
reserved condition, or a decrease with NE or LT, raises ILLEGAL whatever the guard. An increment of the management core that a raised deckle refuses
as a 17th raises SYNC with E_STATE (R281 gives E_STATE; the cause is the model's, log entry 149). SADD and SSUB before the acknowledgement wait
without an effect (log entry 18). -/
def Obligations.SyncInstructions : Prop :=
  (∀ (c : Nat) (g : Guard) (rs1 rs2 rd : Reg) (a n : Nat) (s : State), s.goes c g = true → a = ((s.ctl c).rg rs1).toNat →
    n = ((s.ctl c).rg rs2).toNat % 2 ^ 32 → ctrWf a = true →
    let k := s.ctl c
    (s.mayAdd c a = true → exec (.sread c g rd rs1) s = s.ends c (k.wg rd (BitVec.ofNat 64 (s.ctr a))).adv) ∧
    (s.mayAdd c a = true → k.strOut = 0 → (c = mgmtCore → (s.addOutside a n).2 = true) → exec (.sadd c g rs1 rs2) s = .next (((s.setCtl c k.adv).addFrom c a n).stepOver c)) ∧
    (c = mgmtCore → k.strOut = 0 → (s.addOutside a n).2 = false → exec (.sadd c g rs1 rs2) s = (s.addOutside a n).1.raises c cSync eState k.pc (k.rg rs1)) ∧
    (k.strOut ≠ 0 → exec (.sadd c g rs1 rs2) s = .next s ∧ exec (.ssub c g rs1 rs2) s = .next s) ∧
    (s.mayTest c a = true → k.strOut = 0 → n ≤ s.ctr a → exec (.ssub c g rs1 rs2) s = .next (((((s.subCtr a n).1).setCtl c k.adv).testWatches (ctrNode a)).stepOver c)) ∧
    (s.mayTest c a = true → k.strOut = 0 → s.ctr a < n → exec (.ssub c g rs1 rs2) s = (s.subCtr a n).1.raises c cSync eSyncUnderflow k.pc (k.rg rs1))) ∧
  (∀ (c : Nat) (g : Guard) (rs1 rs2 : Reg) (cond : BitVec 3) (cd : Cond) (dec : Bool) (a n : Nat) (s : State), s.goes c g = true →
    a = ((s.ctl c).rg rs1).toNat → n = ((s.ctl c).rg rs2).toNat % 2 ^ 32 → ctrWf a = true → s.mayTest c a = true → Cond.ofBits cond.toNat = some cd →
    (dec = true → cd = .ge ∨ cd = .eq) →
    let w : Watch := { core := c, unit := .cpu, ctr := a, cond := cd, value := n, dec := dec }
    exec (.swait c g rs1 rs2 cond dec) s = .next (((s.setCtl c { s.ctl c with waiting := some .swait }).register w).stepOver c)) ∧
  (∀ (c : Nat) (g : Guard) (rs1 rs2 rd : Reg) (s : State), s.goes c g = true → (s.ctl c).strOut = 0 →
    let k := s.ctl c; let a := k.rg rs1
    (ctrWf a.toNat = false → exec (.sadd c g rs1 rs2) s = s.raises c cRange eRange k.pc a ∧ exec (.ssub c g rs1 rs2) s = s.raises c cRange eRange k.pc a ∧ exec (.sread c g rd rs1) s = s.raises c cRange eRange k.pc a) ∧
    (ctrWf a.toNat = true → s.mayAdd c a.toNat = false → exec (.sadd c g rs1 rs2) s = s.raises c cAccess ePermission k.pc a ∧ exec (.sread c g rd rs1) s = s.raises c cAccess ePermission k.pc a) ∧
    (ctrWf a.toNat = true → s.mayTest c a.toNat = false → exec (.ssub c g rs1 rs2) s = s.raises c cAccess ePermission k.pc a)) ∧
  (∀ (c : Nat) (g : Guard) (rs1 rs2 : Reg) (cond : BitVec 3) (dec : Bool) (s : State), s.ctlOn c = true → s.fetchBad c = false →
    (4 ≤ cond.toNat ∨ (dec = true ∧ 2 ≤ cond.toNat)) →
    exec (.swait c g rs1 rs2 cond dec) s = s.raises c cIllegal eFormat (s.ctl c).pc ((encR 0x7A g 0 rs1 rs2 (BitVec.ofNat 5 (cond.toNat + 8 * b2n dec))).setWidth 64)) ∧
  (∀ (s : State) (c a n : Nat), c < 4096 → a < 0x4000 →
    s.addFrom c a n = if a / 256 = c / 64 then (s.addCtr a n).testWatches (a / 256) else s.send (.sync a n))

/-- Watches on sync counters: A watch whose condition holds when it is tested is removed, lowers its counter by its value if it decreases, and
releases its unit: a SWAIT retires, a WAIT is freed from the head of its queue, an SWT lets its stream go on; a watch whose condition does not hold
changes nothing. The four conditions are those of Table 3.20. -/
def Obligations.Watches : Prop :=
  (∀ (s : State) (w : Watch),
    let t := s.testWatch w
    (w.cond.holds (s.ctr w.ctr) w.value = false → t = s) ∧
    (w.cond.holds (s.ctr w.ctr) w.value = true → w ∉ t.net.watches ∧ t.ctr w.ctr = (if w.dec then s.ctr w.ctr - w.value else s.ctr w.ctr) ∧ (∀ b, b ≠ w.ctr → t.ctr b = s.ctr b) ∧
      (∀ x ∈ s.net.watches, x ≠ w → x ∈ t.net.watches) ∧
      (∀ e, w.unit = .stream e → t.se w.core e = { s.se w.core e with waitSwt := false }) ∧
      (∀ q, w.unit = .queue q → t.queue w.core q = { s.queue w.core q with entries := (s.queue w.core q).entries.tail, waiting := false }) ∧
      (w.unit = .cpu → (s.ctl w.core).stepping = false → t.ctl w.core = { s.ctl w.core with waiting := none }.adv))) ∧
  (∀ (x v : Nat),
    (Cond.ge.holds x v = decide (v ≤ x)) ∧ (Cond.eq.holds x v = decide (x = v)) ∧ (Cond.ne.holds x v = decide (x ≠ v)) ∧ (Cond.lt.holds x v = decide (x < v)))

/-- WAIT, SIGNAL and entries with a reserved mop: For the head entry of a queue of a core whose engines run. A WAIT that the core may test stays at
the head and registers its watch, which frees it at once when the condition holds; a SIGNAL waits for its engine, then is freed and adds or
subtracts its amount. A counter the core may not use halts the queue at the entry with E_PERMISSION, before the entry is accepted, for WAIT, SIGNAL
and the signal field of an entry with a reserved mop alike; a SIGNAL.SUB that would pass below zero leaves the counter and halts the queue at the
entry with E_SYNC_UNDERFLOW; an entry with a reserved mop is accepted, shown in the mop of its status register (a choice of the model, log entry
144), and rejected with E_FORMAT, held as the halted entry ahead of the queue. A halt sets the halted bit, records status and mop in QERRn and
raises the interrupt source of the core; every other queue and the control processors carry on unchanged. -/
def Obligations.QueueWaitAndSignal : Prop :=
  (∀ (c q : Nat) (m : W256) (cd : Cond) (s : State), (s.queue c q).head = some m → mMop m = 0xF0 → s.enginesOn c = true →
    s.mayTest c (wsCtr m) = true → Cond.ofBits (waitCond m) = some cd →
    exec (.wait c q) s = .next ((s.modQueue c q (fun x => { x with waiting := true })).register { core := c, unit := .queue q, ctr := wsCtr m, cond := cd, value := wsValue m, dec := waitDec m })) ∧
  (∀ (c q : Nat) (m : W256) (s : State), (s.queue c q).head = some m → mMop m = 0xF0 → s.enginesOn c = true → s.mayTest c (wsCtr m) = false →
    exec (.wait c q) s = .next ((s.modVec c (fun x => if q = 1 then { x with copy := none } else x)).haltQueue c q ePermission m)) ∧
  (∀ (c q : Nat) (m : W256) (s : State), (s.queue c q).head = some m → mMop m = 0xF1 → s.enginesOn c = true → s.engineIdle c q = true →
    let a := wsCtr m; let u := (s.popQ c q).traceRec c q 2 0xF1 0 0
    (signalSub m = false → s.mayAdd c a = true → exec (.signal c q) s = .next (u.addFrom c a (wsValue m))) ∧
    (signalSub m = false → s.mayAdd c a = false → exec (.signal c q) s = .next (s.haltQueue c q ePermission m)) ∧
    (signalSub m = true → s.mayTest c a = true → wsValue m ≤ s.ctr a → exec (.signal c q) s = .next ((((s.subCtr a (wsValue m)).1.popQ c q).traceRec c q 2 0xF1 0 0).testWatches (ctrNode a))) ∧
    (signalSub m = true → s.mayTest c a = true → s.ctr a < wsValue m → exec (.signal c q) s = .next ((s.subCtr a (wsValue m)).1.haltQueue c q eSyncUnderflow m)) ∧
    (signalSub m = true → s.mayTest c a = false → exec (.signal c q) s = .next (s.haltQueue c q ePermission m))) ∧
  (∀ (c q : Nat) (m : W256) (s : State), (s.queue c q).head = some m → mMop m < 0xF0 → mopKnown q (mMop m) = false → s.enginesOn c = true →
    s.engineIdle c q = true →
    (s.sigRight c m = true → exec (.reservedMop c q) s = .next (((s.popQ c q).noteMop c q (mMop m)).reject c q eFormat m)) ∧
    (s.sigRight c m = false → exec (.reservedMop c q) s = .next (s.haltQueue c q ePermission m))) ∧
  (∀ (c q : Nat) (m : W256) (s : State), (s.queue c q).head = some m → mMop m = 0xF1 → s.engineIdle c q = false →
    exec (.signal c q) s = .next s) ∧
  (∀ (s : State) (c q status : Nat) (m : W256),
    let t := s.haltQueue c q status m
    t.queue c q = { s.queue c q with halted := true, errStatus := BitVec.ofNat 8 status, errMop := BitVec.ofNat 8 (mMop m) } ∧ (∀ d p, 8 * d + p ≠ 8 * c + q → t.queue d p = s.queue d p) ∧ t.net.ctrs = s.net.ctrs ∧ (t.irqCause c).getLsbD 1 = true ∧ t.cores.ctls = s.cores.ctls ∧ t.mem = s.mem) ∧
  (∀ (s : State) (c q status : Nat) (m : W256),
    (s.reject c q status m).queue c q = { s.queue c q with held := some m, held2 := (s.queue c q).held, waiting := false, halted := true, errStatus := BitVec.ofNat 8 status, errMop := BitVec.ofNat 8 (mMop m) })

/-- MATMUL and MATMUL.SP: A MATMUL or MATMUL.SP presented to an idle matrix engine leaves its queue place; one that passes the checks of Table 4.8
is held with its descriptors read once and its walk runs from the first step; one that fails stays in the halt register of the halted queue with the
status of the first failing check; one whose signal field names a counter the core may not use halts the queue with E_PERMISSION before it is
accepted; a ring test is made again; a reserved td_acc record rejects it with E_FORMAT; after the last step it is released and its signal applied.
-/
def Obligations.MatrixEngine : Prop :=
  (∀ (c : Nat) (i : Instr) (e : W256) (s : State), (s.queue c 0).head = some e → (i, mMop e) ∈ [(Instr.matmul c, 1), (.matmulSp c, 2)] →
    s.enginesOn c = true → (s.mat c).entry = none → s.sigRight c e = true →
    let d := fun (i : Nat) => (s.spad c).nat (descAt (mmTd e.toNat i)) 64; let q : MM := { m := e.toNat, a := d 0, b := d 1, c := d 2, meta_ := d 3, acc := d 4 }
    if s.matCheck c q = eOk then ∃ u : State, exec i s = .next (u.matRun c) ∧ u.queue c 0 = (s.queue c 0).pop ∧ (u.mat c).entry = some e ∧ (u.mat c).pos = 0 ∧
        (u.mat c).descs = [(0, d 0), (1, d 1), (2, d 2), (3, d 3), (4, d 4)]
    else ∃ u : State, exec i s = .next u ∧ u.rejected s c 0 (s.matCheck c q) e ∧ (u.mat c).entry = none) ∧
  (∀ (c : Nat) (i : Instr) (e : W256) (s : State), (s.queue c 0).head = some e → (i, mMop e) ∈ [(Instr.matmul c, 1), (.matmulSp c, 2)] →
    s.enginesOn c = true → (s.mat c).entry = none → s.sigRight c e = false →
    exec i s = .next (s.haltQueue c 0 ePermission e)) ∧
  (∀ (c : Nat) (e : W256) (s : State), (s.mat c).entry = some e → (s.mat c).ringWait = true → s.enginesOn c = true →
    let u := s.matRun c; let x := s.mat c; let y := u.mat c
    exec (.matRingTestPass c) s = .next (if y.pos = x.pos ∧ y.ringWait = true then u
      else u.setMat c { y with ringCycles := min 0xFFFFFFFF (y.ringCycles + (s.clk.fast.toNat - x.waitSince)) })) ∧
  (∀ (c : Nat) (e : W256) (s : State), (s.mat c).entry = some e → (s.mat c).badAcc = true → s.enginesOn c = true →
    ∃ u : State, exec (.accInFormatHalt c) s = .next u ∧ u.held s c 0 eFormat e ∧ (u.mat c).entry = none ∧ u.spad c = s.spad c ∧ u.net.ctrs = s.net.ctrs) ∧
  (∀ (c : Nat) (e : W256) (s : State), (s.mat c).entry = some e → (s.mat c).badAcc = false → (s.mat c).ringWait = false →
    (s.mat c).steps.length ≤ (s.mat c).pos → s.enginesOn c = true →
    ∃ u : State, exec (.matmulComplete c) s = .next (u.sigDone c 0 e) ∧ (u.mat c).entry = none ∧ u.spad c = s.spad c ∧
      ((∀ op ∈ [0, 1], (s.mat c).inSlice op = none ∨ dNbuf ((s.mat c).mm.opDesc op) = 0) → u.net.ctrs = s.net.ctrs))

/-- VCHAIN, TLOAD, TSTORE, TFILL and REDUCE: The chain record of a VCHAIN at the head is copied, with its poison or a range error noted, before it
is accepted. A macro-instruction at the head that the engine can admit leaves its queue place; when its checks pass it is held, its descriptors and
sizes read once, else it stays in the halt register with the status of the check; one whose signal field names a counter the core may not use halts
the queue before it is accepted. On completion the work of its remaining groups is done, it is released and its signal applied: a TLOAD has put into
every element of its tile the entered value and the poison of the tensor's element, or +0 outside the tensor; a TSTORE has written the converted
elements and nothing else, and changed no tile; a TFILL has put its value into every element of its tile without poison; a VCHAIN and a REDUCE have
run to their last group, and a VCHAIN without outputs has written no byte and no tile; a REDUCE with a foreign ACC96 record drains the outputs
before it and rejects with E_FORMAT. -/
def Obligations.VectorEngine : Prop :=
  (∀ (c : Nat) (e : W256) (s : State), (s.queue c 1).head = some e → mMop e = 1 → (s.vec c).copy = none → s.enginesOn c = true →
    let a := vcChain e.toNat; let r : Nat × Nat := if 0x7C000 < a + 64 then (0, 2) else ((s.spad c).nat a 64, if (s.spad c).bad a 64 then 1 else 0)
    ∃ t, exec (.chainRecordRead c) s = .next t ∧ t.vec c = { s.vec c with copy := some r } ∧ t.cores.queues = s.cores.queues ∧ t.cores.ctls = s.cores.ctls) ∧
  (∀ (c : Nat) (i : Instr) (e : W256) (s : State), (i, mMop e) ∈ [(Instr.tload c, 2), (.tstore c, 3), (.tfill c, 4)] → (s.queue c 1).head = some e →
    s.enginesOn c = true → (s.vec c).admits e = true → s.sigRight c e = true →
    let d := if mMop e = 4 then 0 else (s.spad c).nat (descAt (fld e.toNat 32 8)) 64; let k := s.tileCheck c e.toNat (mMop e) d
    let x := { s.vec c with vecMop := mMop e, groupsDone := 0 }
    ∃ u : State, exec i s = .next u ∧ if k = eOk then u.queue c 1 = (s.queue c 1).pop ∧ u.vec c = { x with vec := some e, vdescs := [(0, d)], next := 0 } else u.rejected s c 1 k e ∧ u.vec c = x) ∧
  (∀ (c : Nat) (i : Instr) (e : W256) (s : State), (i, mMop e) ∈ [(Instr.vchain c, 1), (.tload c, 2), (.tstore c, 3), (.tfill c, 4), (.reduce c, 8)] → (s.queue c 1).head = some e → s.enginesOn c = true → (s.vec c).admits e = true → s.sigRight c e = false →
    exec i s = .next ((s.modVec c (fun x => { x with copy := none })).haltQueue c 1 ePermission e)) ∧
  (∀ (c : Nat) (e : W256) (s : State), (s.vec c).vec = some e → mMop e = 4 → s.enginesOn c = true →
    ∃ u : State, exec (.tfillComplete c) s = .next (u.sigDone c 1 e) ∧ (u.vec c).vec = none ∧ u.cores.spads = s.cores.spads ∧ u.cores.queues = s.cores.queues ∧ (∀ n, n < 1024 → (u.vec c).tiles.get {} (1024 * tlT e.toNat + n) = { bits := fld e.toNat 64 32 }) ∧
      (∀ k, k < 1024 * tlT e.toNat ∨ 1024 * tlT e.toNat + 1024 ≤ k → (u.vec c).tiles.get {} k = (s.vec c).tiles.get {} k)) ∧
  (∀ (c : Nat) (e : W256) (s : State), (s.vec c).vec = some e → mMop e = 2 → s.enginesOn c = true →
    let m := e.toNat; let d := (s.vec c).vdescs.get 0 0
    ∃ u : State, exec (.tloadComplete c) s = .next (u.sigDone c 1 e) ∧ (u.vec c).vec = none ∧ (u.vec c).groupsDone = (if tlLin m then cdiv (tlCount m) 128 else 32) ∧ u.cores.queues = s.cores.queues ∧
      (∀ n, n < 1024 → (s.vec c).next ≤ n / (if tlLin m then 128 else 32) → (u.vec c).tiles.get {} (1024 * tlT m + n) = (match tileIx m d n with | some ix => let x := (s.spad c).elem d 0 {} (dStored d ix); { bits := (fEnter (dFmt d) x).1, bad := x.bad } | none => {})) ∧
      (∀ k, k < 1024 * tlT m ∨ 1024 * tlT m + 1024 ≤ k → (u.vec c).tiles.get {} k = (s.vec c).tiles.get {} k)) ∧
  (∀ (c : Nat) (e : W256) (s : State), (s.vec c).vec = some e → mMop e = 3 → s.enginesOn c = true →
    let m := e.toNat; let x := s.vec c; let d := x.vdescs.get 0 0
    let o := outWrites d (tsRnd m) (tsOvf m) ((x.tileElems m 32).filterMap (fun n => (tileIx m d n).map (fun ix => let y : MCell := x.tiles.get {} (1024 * tlT m + n); (ix, y.bits, y.bad)))) (s.rword c (tsSr m) 1)
    ∃ u : State, exec (.tstoreComplete c) s = .next (u.sigDone c 1 e) ∧ (u.vec c).vec = none ∧ (u.vec c).tiles = x.tiles ∧ u.spad c = (s.spad c).putElems o.1 ∧ u.arith c = s.arith c ||| o.2 ∧
      (∀ b, b ≠ c → u.spad b = s.spad b) ∧ u.cores.queues = s.cores.queues ∧ u.cores.ctls = s.cores.ctls) ∧
  (∀ (c : Nat) (e : W256) (s : State), mMop e = 1 → (s.queue c 1).head = some e → s.enginesOn c = true → (s.vec c).admits e = true →
    s.sigRight c e = true →
    let x := s.vec c; let p := x.copy.getD (0, 2); let sp := s.spad c; let m := e.toNat; let descs : Table Nat := (vchainTds m p.1).map (fun t => (t.1, sp.nat (descAt t.2) 64)); let g := if vcO m then descs.get 0 3 else descs.get 0 0
    let dim : Table Nat := [(0, vPadded sp (vcDynMask m) (vcDynAddr m) g 0), (1, vPadded sp (vcDynMask m) (vcDynAddr m) g 1), (2, vValid sp (vcDynMask m) (vcDynAddr m) g 0), (3, vValid sp (vcDynMask m) (vcDynAddr m) g 1)]
    let k := (s.popQ c 1).vchainCheck c { m := m, r := p.1, descs := descs, dim := dim } p.2
    ∃ u : State, exec (.vchain c) s = .next u ∧ (u.vec c).copy = none ∧ (u.vec c).tiles = x.tiles ∧ (u.vec c).vecMop = 1 ∧
      if k = eOk then u.queue c 1 = (s.queue c 1).pop ∧ (u.vec c).vec = some e ∧ (u.vec c).vdescs = descs ∧ (u.vec c).vdim = dim ∧ (u.vec c).chain = p.1 ∧ (u.vec c).next = 0 ∧ (u.vec c).red = (if crRed p.1 then some e else x.red)
      else u.rejected s c 1 k e ∧ (u.vec c).vec = x.vec ∧ (u.vec c).red = x.red) ∧
  (∀ (c : Nat) (e : W256) (s : State), (s.vec c).vec = some e → mMop e = 1 → s.enginesOn c = true →
    let x := s.vec c; let q := x.vc e; let w := s.vchainRun c e q.total
    ∃ u : State, exec (.vchainComplete c) s = .next (u.sigDone c 1 e) ∧ u = w.modVec c (fun y => { y with vec := none, red := (if crRed q.r then none else y.red), groupsDone := q.total % 2 ^ 24 }) ∧ (u.vec c).vec = none ∧ (crRed q.r = true → (u.vec c).red = none) ∧
      u.cores.queues = s.cores.queues ∧ u.cores.ctls = s.cores.ctls ∧ (∀ b, b ≠ c → u.vec b = s.vec b) ∧ (crRed q.r = false → (u.vec c).tiles = x.tiles) ∧ (vcO q.m = false → crO2 q.r = false → crRed q.r = false → (u.spad c).mem = (s.spad c).mem ∧ (u.spad c).poison = (s.spad c).poison)) ∧
  (∀ (c : Nat) (e : W256) (s : State), mMop e = 8 → (s.queue c 1).head = some e → s.enginesOn c = true → (s.vec c).admits e = true →
    s.sigRight c e = true →
    let x := (s.spad c).nat (descAt (fld e.toNat 32 8)) 64; let y := (s.spad c).nat (descAt (fld e.toNat 40 8)) 64; let k := (s.popQ c 1).reduceCheck c e.toNat x y
    ∃ u : State, exec (.reduce c) s = .next u ∧ (u.vec c).redMop = 8 ∧ (u.vec c).vec = (s.vec c).vec ∧ (u.vec c).tiles = (s.vec c).tiles ∧
      if k = eOk then u.queue c 1 = (s.queue c 1).pop ∧ (u.vec c).red = some e ∧ (u.vec c).rdescs = [(0, x), (1, y)] ∧ (u.vec c).rnext = 0 ∧ (u.vec c).entered = [] else u.rejected s c 1 k e ∧ (u.vec c).red = (s.vec c).red) ∧
  (∀ (c : Nat) (e : W256) (s : State), (s.vec c).red = some e → mMop e = 8 → s.enginesOn c = true →
    (s.reduceBad c e.toNat = none → ∃ u : State, exec (.reduceComplete c) s = .next (u.sigDone c 1 e) ∧ u = (s.reduceRun c e.toNat (reduceGroups (s.vec c)) (fun _ => true)).modVec c (fun x => { x with red := none }) ∧ (u.vec c).red = none ∧ u.cores.queues = s.cores.queues ∧ u.cores.ctls = s.cores.ctls) ∧
    (∀ p, s.reduceBad c e.toNat = some p → ∃ u : State, exec (.acc96InputHalt c) s = .next u ∧ u.held s c 1 eFormat e ∧ u.cores.vecs = ((s.reduceRun c e.toNat (reduceGroups (s.vec c)) (keysBefore (rdAxis e.toNat) p)).modVec c (fun x => { x with red := none })).cores.vecs ∧ u.cores.spads = (s.reduceRun c e.toNat (reduceGroups (s.vec c)) (keysBefore (rdAxis e.toNat) p)).cores.spads))

/-- STREAM and SPLOAD: A STREAM presented to an idle stream engine leaves its queue place; when its program slots hold no uncorrectable word and the
checks of Table 6.9 pass, the engine starts its program at the entry slot with a0 and a1 from the macro-instruction and the descriptors as they
stand, else it is rejected with the status; an SPLOAD is checked in the order of R196, its source read at acceptance, and on completion writes those
words into its slots of the program store and no other; an entry whose signal field names a counter the core may not use halts the queue with
E_PERMISSION before it is accepted; a STREAM whose program has ended and whose work is done is released and its signal applied. -/
def Obligations.StreamAcceptance : Prop :=
  (∀ (c e : Nat) (m : W256) (s : State), mMop m = 1 → (s.queue c (2 + e)).head = some m → e < 4 → s.enginesOn c = true → (s.se c e).idle = true →
    s.sigRight c m = true →
    let x := s.se c e; let tds := match progFrom x.store 32 (stEntry m.toNat) with | some p => progTds p | none => []
    let ue := match progFrom x.store 32 (stEntry m.toNat) with | some p => p.any (fun q => NSet.has x.storeUe q.1) | none => false
    let ds := readDescs (s.spad c) tds; let k := if ue then ePoison else s.streamCheck c e m.toNat x.store ds (fun i => (s.spad c).bad (descAt i) 64)
    ∃ u : State, exec (.stream c e) s = .next u ∧ if k = eOk then u.queue c (2 + e) = (s.queue c (2 + e)).pop ∧ u.se c e = x.start m ds else u.rejected s c (2 + e) k m ∧ (u.se c e) = { x with mop := 1 }) ∧
  (∀ (c e : Nat) (i : Instr) (m : W256) (s : State), (i, mMop m) ∈ [(Instr.stream c e, 1), (.spload c e, 2)] → (s.queue c (2 + e)).head = some m →
    e < 4 → s.enginesOn c = true → (s.se c e).idle = true → s.sigRight c m = false →
    exec i s = .next (s.haltQueue c (2 + e) ePermission m)) ∧
  (∀ (c e : Nat) (m : W256) (s : State), mMop m = 2 → (s.queue c (2 + e)).head = some m → e < 4 → s.enginesOn c = true → (s.se c e).idle = true →
    s.sigRight c m = true →
    let n := m.toNat; let first := fld n 32 5; let cnt := fld n 37 5 + 1; let src := fld n 64 19
    let k := if 32 < first + cnt ∨ src % 8 ≠ 0 ∨ fld n 42 22 ≠ 0 ∨ fld n 83 173 ≠ 0 then eFormat else if 0x80000 < src + 8 * cnt then eRange
      else if (s.spad c).bad src (8 * cnt) then ePoison else eOk
    ∃ u : State, exec (.spload c e) s = .next u ∧ if k = eOk then u.queue c (2 + e) = (s.queue c (2 + e)).pop ∧
        u.se c e = { s.se c e with mop := 2, entry := some m, spload := some (first, (List.range cnt).map (fun i => (s.spad c).nat (src + 8 * i) 8)) }
      else u.rejected s c (2 + e) k m ∧ u.se c e = { s.se c e with mop := 2 }) ∧
  (∀ (c e first : Nat) (ws : List Nat) (m : W256) (s : State), (s.se c e).entry = some m → (s.se c e).spload = some (first, ws) →
    ∃ u : State, exec (.sploadComplete c e) s = .next (u.sigDone c (2 + e) m) ∧ (u.se c e).entry = none ∧ (u.se c e).spload = none ∧ (∀ i x, ws[i]? = some x → (u.se c e).store.get 0 (first + i) = x ∧ NSet.has (u.se c e).storeUe (first + i) = false) ∧
      (∀ k, k < first ∨ first + ws.length ≤ k → (u.se c e).store.get 0 k = (s.se c e).store.get 0 k)) ∧
  (∀ (c e : Nat) (m : W256) (s : State), (s.se c e).entry = some m → (s.se c e).ended = true → (s.se c e).acts = [] → (s.se c e).moves = [] →
    (s.se c e).reads = [] → (s.se c e).writes = [] → s.ackOver c (s.se c e).asyncA = true →
    let u := s.modSe c e (fun y => { y with entry := none })
    exec (.streamComplete c e) s = .next ((if !stDl m.toNat && (s.se c e).readAsync then u.detBreakCore c 2 else u).sigDone c (2 + e) m))

/-- The stream instructions: An instruction at the pc of a stream engine that can run it (after the piece count of R645) has the effect of Table
6.7: the address instructions set one register modulo 2^48 or the pattern value, LOOP and LOOPM enter their loop with the count, MOV under any
conversion faults with the status of its addresses or begins its move, PUSH and POP move the pointer of the couch segment by their length and begin
their move or fault with E_STASH, a POP waits for an unacknowledged PUSH that it overlaps, a MOV, PUSH or POP whose pieces wait for buffer room goes
on requesting them, the ring, counter and delivery instructions take their tests, additions, watches and delivery points, and END ends the program,
with a last delivery point when own writes follow the point before it. A word with an uncorrectable error faults the engine with E_POISON instead.
-/
def Obligations.StreamInstructions : Prop :=
  (∀ (c e w : Nat) (s u : State), s.seGoes c e u w →
    let x := u.se c e
    (iOp w = opSeta → exec (.seta c e) s = .next (u.setSe c e (x.setA (iRa w) (fld w 0 48) (bit w 48)).past)) ∧
    (iOp w = opAdda → exec (.adda c e) s = .next (u.setSe c e (x.setA (iRa w) (((x.ar (iRb w)).addr : Int) + sfld w 0 32 + 2 ^ 48).toNat (x.ar (iRb w)).dev).past)) ∧
    (iOp w = opAddr → exec (.addr c e) s = .next (u.setSe c e (x.setA (iRa w) ((x.ar (iRb w)).addr + (x.ar (iRc w)).addr) (x.ar (iRb w)).dev).past)) ∧
    (iOp w = opLdd → exec (.ldd c e) s = .next (u.setSe c e (x.setA (iRa w) (if bit w 39 then dScaleBase (x.desc w) else dBase (x.desc w)) (dSpace (x.desc w))).past)) ∧
    (iOp w = opSetx → exec (.setx c e) s = .next (u.setSe c e ({ x with x := fld w 0 48 } : Se).past)) ∧
    (iOp w = opLoop → exec (.loop c e) s = .next (u.setSe c e (x.enterLoop (iCn w) (iEnd w) (fld w 0 24)))) ∧
    (iOp w = opCvt → exec (.cvt c e) s = .next (u.setSe c e ({ x with cvt := if cvOn w then some w else none } : Se).past)) ∧
    (iOp w = opRdone → exec (.rdone c e) s = .next (u.setSe c e (x.point (some (dRdy (x.desc w))) (u.cycleOf c).toNat).past)) ∧
    (iOp w = opDeliv → exec (.deliv c e) s = .next (u.setSe c e (x.point none (u.cycleOf c).toNat).past)) ∧
    (iOp w = opRfree → exec (.rfree c e) s = .next ((u.setSe c e x.past).addFrom c (dFree (x.desc w)) 1)) ∧
    (iOp w = opSsig → exec (.ssig c e) s = .next ((u.setSe c e ({ x with acts := x.acts ++ [.ssig (iCtr w) (iVal w) (bit w 54) x.nextId x.asyncA] } : Se).past).seSettle c e)) ∧
    (iOp w = opEnd → exec (.streamEnd c e) s = .next (u.setSe c e (if x.wrote then { x.point none (u.cycleOf c).toNat with ended := true } else { x with ended := true }))) ∧
    (iOp w = opRtake → 1 ≤ u.ctr (dRdy (x.desc w)) → exec (.rtake c e) s = .next ((u.decCtr (dRdy (x.desc w)) 1).modSe c e (fun y => (y.addrEffect w).past))) ∧
    (iOp w = opRtake → u.ctr (dRdy (x.desc w)) = 0 → exec (.rtake c e) s = .next (u.setSe c e { x with waitTake := some (dRdy (x.desc w)) })) ∧
    (iOp w = opRfill → 1 ≤ u.ctr (dFree (x.desc w)) → exec (.rfill c e) s = .next ((u.setSe c e (x.addrEffect w).past).freePass c e x.k (dFree (x.desc w)))) ∧
    (iOp w = opRfill → u.ctr (dFree (x.desc w)) = 0 → exec (.rfill c e) s = .next ((u.setSe c e (x.addrEffect w).past).modSe c e (fun y => { y with freeTests := y.freeTests ++ [(x.k, dFree (x.desc w))] }))) ∧
    (∀ k, iOp w = opSwt → Cond.ofBits (iRa w) = some k → exec (.swt c e) s = .next ((u.setSe c e { x.past with waitSwt := true }).register { core := c, unit := .stream e, ctr := iCtr w, cond := k, value := iVal w, dec := bit w 54 })) ∧
    (iOp w = opSwt → Cond.ofBits (iRa w) = none → exec (.swt c e) s = .next (u.seFault c e eFormat))) ∧
  (∀ (c e w : Nat) (s u : State), s.seGoes c e u w →
    let x := u.se c e; let a := x.ar (iRb w)
    (iOp w = opLoopm → x.walkCnt.get none x.pc = none → (x.ar (iLoopRb w)).dev = false → (x.ar (iLoopRb w)).addr % 4 = 0 → (x.ar (iLoopRb w)).addr + 4 ≤ 0x80000 →
      exec (.loopm c e) s = .next ((u.noteRead c (x.ar (iLoopRb w)).addr 4).loopmCount c e ((u.spad c).nat (x.ar (iLoopRb w)).addr 4) ((u.spad c).bad (x.ar (iLoopRb w)).addr 4))) ∧
    (iOp w = opLoopm → x.walkCnt.get none x.pc = none → (x.ar (iLoopRb w)).dev = true → (x.ar (iLoopRb w)).addr % 4 = 0 → u.devRight c (x.ar (iLoopRb w)).addr false = eOk →
      exec (.loopm c e) s = .next (u.seReadValue c e .loopm (x.ar (iLoopRb w)).addr 4)) ∧
    (∀ n, iOp w = opLoopm → x.walkCnt.get none x.pc = some n → exec (.loopm c e) s = .next (u.loopmCount c e n false)) ∧
    (iOp w = opLoopm → x.walkCnt.get none x.pc = none → (x.ar (iLoopRb w)).addr % 4 ≠ 0 → exec (.loopm c e) s = .next (u.seFault c e eRange)) ∧
    (iOp w = opPage → a.dev = false → a.addr % 8 = 0 → a.addr + 8 ≤ 0x80000 →
      exec (.page c e) s = .next ((u.noteRead c a.addr 8).pageEntry c e ((u.spad c).nat a.addr 8) (iRa w) ((x.ar (iRc w)).addr % 2 ^ 14) ((u.spad c).bad a.addr 8))) ∧
    (iOp w = opPage → a.dev = true → a.addr % 8 = 0 → u.devRight c a.addr false = eOk →
      exec (.page c e) s = .next (u.seReadValue c e (.page (iRa w) ((x.ar (iRc w)).addr % 2 ^ 14)) a.addr 8)) ∧
    (iOp w = opPage → a.addr % 8 ≠ 0 → exec (.page c e) s = .next (u.seFault c e eRange))) ∧
  (∀ (c e w : Nat) (s u : State), s.seGoes c e u w → iOp w = opMov →
    let x := u.se c e; let dst := x.ar (iRa w); let src := x.ar (iRb w); let b := movBytes x.cvt (iLen w); let blocks := movBlocks x.cvt (iLen w)
    let scale : ARef := match x.cvt with | some cw => x.ar (cvRs cw) | none => {}; let mxS := match x.cvt with | some cw => fmtMx (cvS cw) | none => false
    let k0 := u.movCheck c e src dst b.1 b.2 x.cvt.isSome
    let k := if k0 ≠ eOk ∨ blocks = 0 then k0 else if scale.dev then u.rangeRight c scale.addr blocks (!mxS) else if 0x80000 < scale.addr + blocks then eRange else eOk
    exec (.mov c e) s = .next (if x.moving.isSome then u.seRequest c e else if k ≠ eOk then u.seFault c e k
      else (u.chargeRemote c src dst b.1 b.2).seMove c e { dst := dst, src := src, sn := b.1, dn := b.2, blocks := blocks, cvt := x.cvt, x := x.x, scale := scale })) ∧
  (∀ (c e n ent ra low : Nat) (s : State),
    let x := s.se c e
    (n < 2 ^ 24 → s.loopmCount c e n false = s.setSe c e { x.enterLoop (iCn x.cur) (iEnd x.cur) n with waitRead := false }) ∧ (2 ^ 24 ≤ n → s.loopmCount c e n false = s.seFault c e eRange) ∧ s.loopmCount c e n true = s.seFault c e ePoison ∧
    (bit ent 0 = true → s.pageEntry c e ent ra low false = s.setSe c e { (x.setA ra (fld ent 14 34 * 2 ^ 14 + low) true).past with waitRead := false }) ∧ (bit ent 0 = false → s.pageEntry c e ent ra low false = s.seFault c e eRange) ∧ s.pageEntry c e ent ra low true = s.seFault c e ePoison) ∧
  (∀ (c e w v base seg i : Nat) (s u : State), s.seGoes c e u w → u.couchSeg c = some (v, base, seg, i) → (u.se c e).moving = none →
    let x := u.se c e; let n := iLen w; let top := u.couchTop i
    (iOp w = opPush → (x.ar (iRb w)).dev = false → (x.ar (iRb w)).addr + n ≤ 0x80000 → seg < top + n → exec (.push c e) s = .next (u.seFault c e eStash)) ∧
    (iOp w = opPush → (x.ar (iRb w)).dev = false → (x.ar (iRb w)).addr + n ≤ 0x80000 → top + n ≤ seg → exec (.push c e) s = .next (((u.setCouchTop i (top + n)).modVat v (fun y => { y with couchHwm := max y.couchHwm (top + n) })).seMove c e
      { dst := { addr := base + top, dev := true }, src := x.ar (iRb w), sn := n, dn := n, push := true })) ∧
    (iOp w = opPush → (x.ar (iRb w)).dev = true → exec (.push c e) s = .next (u.seFault c e ePermission)) ∧
    (iOp w = opPop → (x.ar (iRa w)).dev = false → (x.ar (iRa w)).addr + n ≤ 0x80000 → top < n → exec (.pop c e) s = .next (u.seFault c e eStash)) ∧
    (iOp w = opPop → (x.ar (iRa w)).dev = false → (x.ar (iRa w)).addr + n ≤ 0x80000 → n ≤ top → exec (.pop c e) s = .next
      (if x.pushOut.any (fun p => p.2.1 < base + top - n + n && base + top - n < p.2.1 + p.2.2) then u
        else (u.setCouchTop i (top - n)).seMove c e { dst := x.ar (iRa w), src := { addr := base + top - n, dev := true }, sn := n, dn := n })) ∧
    (iOp w = opPop → (x.ar (iRa w)).dev = true → exec (.pop c e) s = .next (u.seFault c e ePermission))) ∧
  (∀ (c e w : Nat) (m : SeMove) (s u : State), s.seGoes c e u w → (u.se c e).moving = some m →
    (iOp w = opPush → exec (.push c e) s = .next (u.seRequest c e)) ∧ (iOp w = opPop → exec (.pop c e) s = .next (u.seRequest c e))) ∧
  (∀ (c e : Nat) (i : Instr) (s : State), i ∈ [Instr.seta c e, .adda c e, .addr c e, .ldd c e, .setx c e, .loop c e, .loopm c e, .mov c e, .cvt c e, .page c e, .rfill c e, .rdone c e, .rtake c e, .rfree c e, .push c e, .pop c e, .swt c e, .ssig c e, .deliv c e, .streamEnd c e] → s.seqOn c e = true → NSet.has (s.se c e).storeUe (s.se c e).pc = true →
    exec i s = .next (s.seFault c e ePoison))

/-- Arrivals, tests, pieces and delivery points of streams: A read that returns is taken off the list and its data goes where its instruction wanted
it, or its refusal faults the stream with its status; a free or ready test that passes lowers its counter; the next piece of the delivery in turn is
written once, no earlier than R209, R210 and R213 allow, and slips are counted; a delivery point is passed at or after its deadline when its writes
are made, its ring counter raised, and a late delivery counted in the class of R210 and R211; the acknowledgement of a device write removes it,
counts a break when it is past its window in deterministic mode, and a refusal faults. -/
def Obligations.StreamDeliveries : Prop :=
  (∀ (c e : Nat) (r : SeRead) (ans : ReadAns) (s : State), (s.se c e).reads.find? (fun q => q.id == r.id) = some r →
    let x := s.se c e; let now := (s.cycleOf c).toNat; let u := s.modSe c e (fun y => { y with reads := y.reads.filter (fun q => q.id != r.id) })
    let v := u.modSe c e (fun y => { y with val := if r.async then now + 1 else y.val })
    exec (.streamReadReturn c e r.id ans) s = .next (match ans, r.kind with
      | .refused st, .pieces [] => u
      | .refused st, .pieces (p :: _) => u.seFaultAt c e p.1 ((x.moves.find? (fun m => m.id == p.1)).map (·.k) |>.getD x.k) st
      | .refused st, _ => u.seFault c e st
      | .ok data bad, .pieces ps =>
        let t := ps.foldl (fun (t : State × Nat) p => (t.1.modSe c e (fun y => y.modMove p.1 (fun m => m.arrive p.2.1 ((data.drop t.2).take p.2.2) (fun i => NSet.has bad (t.2 + i)) r.async now)), t.2 + p.2.2)) (u, 0)
        (ps.foldl (fun s p => s.seDone c e p.1) (t.1.seSend c e)).seRequest c e
      | .ok data bad, .page ra low => v.pageEntry c e (leNat data) ra low (!bad.isEmpty)
      | .ok data bad, .loopm => v.loopmCount c e (leNat data) (!bad.isEmpty)
      | .ok data bad, .walk slot => if !bad.isEmpty then v.seFault c e ePoison else if 2 ^ 24 ≤ leNat data then v.seFault c e eRange
          else v.modSe c e (fun y => { y with waitRead := false, walkCnt := y.walkCnt.put slot (some (leNat data)) }))) ∧
  (∀ (c e ctr k : Nat) (s : State), 1 ≤ s.ctr ctr → s.enginesOn c = true →
    (∀ l, (s.se c e).freeTests = l ++ [(k, ctr)] → (∀ t ∈ l, s.ctr t.2 = 0) → exec (.rfillFreeTestPass c e) s = .next ((s.freePass c e k ctr).modSe c e (fun y => { y with freeTests := y.freeTests.erase (k, ctr) }))) ∧
    ((s.se c e).waitTake = some ctr → exec (.rtakePass c e) s = .next ((s.decCtr ctr 1).modSe c e (fun y => { (y.addrEffect y.cur).past with waitTake := none })))) ∧
  (∀ (c e ctr k : Nat) (s : State),
    s.freePass c e k ctr = (s.decCtr ctr 1).modSe c e (fun y => { y with gate := y.gate.put k ((s.cycleOf c).toNat + 1) })) ∧
  (∀ (c e k at_ val : Nat) (rdy : Option Nat) (l : List SeAct) (s : State), (s.se c e).acts = .point k rdy at_ val :: l →
    (s.se c e).moves.any (fun m => m.k == k && m.done < (m.ownRuns (s.se c e).rate).length) = false →
    (s.se c e).freeTests.any (fun f => f.1 ≤ k) = false → s.enginesOn c = true → at_ < (s.cycleOf c).toNat →
    (s.se c e).wroteAt ≤ (s.cycleOf c).toNat → (stDl (s.se c e).ent = true →
    stBase (s.se c e).ent + k * stStep (s.se c e).ent + (s.se c e).slip ≤ (s.cycleOf c).toNat) →
    let x := s.se c e; let now := (s.cycleOf c).toNat; let d := stBase x.ent + k * stStep x.ent; let late := stDl x.ent && decide (d < now) && decide (x.exempt ≤ d)
    let u := s.modSe c e (fun y => { y with acts := l, deliveries := (y.deliveries + 1) % 2 ^ 16, piecesMade := 0, slip := 0, asyncSlip := false, wroteAt := 0, gate := y.gate.del k })
    let v := match rdy with | some a => u.addFrom c a 1 | none => u
    exec (.deliveryAction c e) s = .next ((if late && (x.asyncSlip || (val != 0 && decide (d ≤ val) && decide (d < at_ + 1))) then (v.modSeAsyncLate c (fun n => min 0xFFFF (n + 1))).detBreakCore c 1
      else if late then v.modSeOndieLate c (fun n => min 0xFFFF (n + 1)) else v).seSettle c e)) ∧
  (∀ (c e : Nat) (p : Bool × Nat × Nat) (m : SeMove) (s : State), (s.se c e).moves.find? (fun m => m.done < (m.ownRuns (s.se c e).rate).length) = some m → (m.ownRuns (s.se c e).rate)[m.done]? = some p → s.enginesOn c = true →
    let x := s.se c e; let now := (s.cycleOf c).toNat; let o := s.movOut c m
    let u := if p.1 then s.spadStore c m.scale.addr o.scales (fun i => o.scaleBad.has i) else s.spadStore c (m.dst.addr + p.2.1) ((o.bytes.drop p.2.1).take p.2.2) (fun i => o.bad.has (p.2.1 + i))
    let late := stDl x.ent && m.asyncLate (if p.1 then m.dn else p.2.1 + p.2.2) (x.schedule m.k)
    let v := u.modSe c e (fun y => { y.modMove m.id (fun z => { z with done := z.done + 1 }) with piecesMade := y.piecesMade + 1, wroteAt := now + 1, slip := if stDl x.ent then y.slip + (now - x.schedule m.k) else y.slip, asyncSlip := y.asyncSlip || late })
    (x.pieceDue m p now = true → exec (.deliveryPieceWrite c e) s = .next (((v.seDone c e m.id).seRequest c e).seSettle c e)) ∧ (x.pieceDue m p now = false → exec (.deliveryPieceWrite c e) s = .next s)) ∧
  (∀ (x : Se) (m : SeMove) (p : Bool × Nat × Nat) (now : Nat), x.pieceDue m p now = true →
    let h := if p.1 then m.dn else p.2.1 + p.2.2
    m.ready h = true ∧ (∀ q ∈ m.reqs, m.wants (m.srcNeed h) q.1 = true → q.2 ≤ now) ∧ (∀ t ∈ x.freeTests, m.k < t.1) ∧ x.gate.get 0 m.k ≤ now ∧ m.k = x.delivery ∧ (stDl x.ent = true → x.schedule m.k ≤ now) ∧ (stDl x.ent = false → x.wroteAt ≤ now)) ∧
  (∀ (c e st : Nat) (p : SeWrite) (s : State), (s.se c e).writes.find? (fun q => q.id == p.id) = some p →
    let x := s.se c e; let now := (s.cycleOf c).toNat
    let u := s.modSe c e (fun y => { y with writes := y.writes.filter (fun q => q.id != p.id), pushOut := y.pushOut.filter (fun q => q.1 != p.id), cmdA := y.cmdA.filter (fun q => q.1 != p.id) })
    let v := if (s.vat ((s.vatOfCore c).getD 0)).det.detOn then (match x.cmdA.find? (fun q => q.1 == p.id) with | some q => if q.2 < now then u.detBreakCore c 0x10 else u | none => if p.async && x.ackDue p < now then u.detBreakCore c 4 else u) else u
    exec (.deviceWriteAck c e p.id st) s = .next (if st ≠ eOk then v.seFaultAt c e p.mv p.k st else v.seSettle c e)) ∧
  (∀ (c e : Nat) (s : State),
    exec (.stackMergeSend c e) s = .next (s.seFlush c e) ∧ exec (.ackWindowExpiry c e) s = .next (s.seSettle c e)) ∧
  (∀ (c e mid k st : Nat) (m : W256) (s : State), (s.se c e).entry = some m →
    s.seFault c e st = ((s.modSe c e (fun x => { x with entry := none, faulted := true })).reject c (2 + e) st m) ∧ s.seFaultAt c e mid k st = (s.modSe c e (fun x => x.before mid k)).seFault c e st)

/-- The channel engine: The idle channel engine accepts the entry at the head of its queue, makes the checks of R262 and rejects it with the status
or begins it: a SEND waits for credit, a SEND.M, OPEN, CLOSE or RSYNC sends its packet at once; an entry whose signal field the core may not use
halts the queue before that. A message of a SEND leaves when every receiver has a credit, spends one of each and advances the sequence number; a
logical number without a position halts a SEND or SEND.M with E_RANGE (the status of R248 for a window, applied to channels by the model, log entry
147). The SEND completes with its signal when every receiver has acknowledged every message, in deterministic mode on path 2 or 3 no earlier than
its window and with a break when later, or halts with its first refusal when every answer is in; a refused message has its credit restored; the
answers to SEND.M and OPEN complete the entry or halt the queue with the status, and an OPEN without an answer within open_to ticks fails with
E_TIMEOUT. -/
def Obligations.ChannelEngine : Prop :=
  (∀ (c mop : Nat) (m : W256) (s : State), (s.queue c 6).head = some m → mMop m = mop → s.enginesOn c = true → (s.chn c).entry = none →
    s.sigRight c m = true →
    let a := (s.popQ c 6).modChn c (fun x => { x with mop := mop }); let n := m.toNat
    let b := a.modChn c (fun x => { x with entry := some m, idx := 0, refusal := none, sentBad := none, landed := false, answered := [] })
    let out := fun (f : State) => Host.Outcome.next (if s.chnCheck c n mop = eOk then f else a.reject c 6 (s.chnCheck c n mop) m); let far := (fld n 64 17, fld n 50 6, fld n 44 6, fld n 38 6)
    (mop = 1 → exec (.send c) s = out (b.chnStall c)) ∧
    (mop = 2 → exec (.sendM c) s = out (if bit n 50 = false ∧ b.physFor c (fld n 44 6) (fld n 38 6) = none then b.chnHalt c eRange
      else b.chanOut c 4 (if bit n 50 then fld n 64 17 else 0) (fld n 44 6) (fld n 38 6) none { (b.chHead c 0 (bit n 50)) with dstEp := fld n 32 6, last := true, data := leBytes (fld n 51 4 + 1) (fld n 128 128) })) ∧
    (mop = 3 → exec (.rsync c) s = out (b.send (.syncWord c (BitVec.ofNat 64 (fld n 32 17 + fld n 49 15 * 2 ^ 17 + fld n 64 32 * 2 ^ 32))))) ∧
    (mop = 4 → exec (.openChan c) s = out (((b.modEp c (sdEp n) (fun x => { x with st := .opening, far := far })).modChn c (fun x => { x with openAt := b.clk.gtc.toNat })).chanOut c 6 far.1 far.2.1 far.2.2.1 none
      { (b.chHead c (sdEp n) true) with dstEp := far.2.2.2, last := true, data := leBytes 16 ((b.chHead c (sdEp n) true).job + far.2.2.2 * 2 ^ 16 + far.2.2.1 * 2 ^ 22 + far.2.1 * 2 ^ 28) })) ∧
    (mop = 5 → exec (.closeChan c) s = out (((b.setEp c (sdEp n) { (b.ep c (sdEp n)) with st := .closed }).chanOut c 9 (b.ep c (sdEp n)).far.1 (b.ep c (sdEp n)).far.2.1 (b.ep c (sdEp n)).far.2.2.1 none
      { (b.chHead c (sdEp n) true) with dstEp := (b.ep c (sdEp n)).far.2.2.2, conn := (b.ep c (sdEp n)).conn }).chnDone c))) ∧
  (∀ (c : Nat) (i : Instr) (m : W256) (s : State), (i, mMop m) ∈ [(Instr.send c, 1), (.sendM c, 2), (.rsync c, 3), (.openChan c, 4), (.closeChan c, 5)] → (s.queue c 6).head = some m → s.enginesOn c = true → (s.chn c).entry = none → s.sigRight c m = false →
    exec i s = .next (s.haltQueue c 6 ePermission m)) ∧
  (∀ (c : Nat) (m : W256) (s : State), (s.chn c).entry = some m → mMop m = 1 → s.enginesOn c = true → (s.chn c).refusal = none →
    (s.chn c).idx < sdCount m.toNat → (s.ep c (sdEp m.toNat)).creditMin ≠ 0 →
    let d := (s.ep c (sdEp m.toNat)).desc
    exec (.sendMessage c) s = .next (if cdPath d = 0 ∧ s.physFor c (cdDstCl d) (cdDstCore d) = none then s.chnHalt c eRange
      else (((s.sendPackets c m.toNat (s.chn c).idx).modEp c (sdEp m.toNat) (fun x => { (x.stallTo s.clk.fast.toNat) with
        credits := (List.range (cdMcCount x.desc)).map (fun i => (i, x.credits.get 0 i - 1)), seq := (x.seq + 1) % 2 ^ 32, msgs := min 0xFFFFFF (x.msgs + 1), dlSince := none, dlTold := false })).chnStall c))) ∧
  (∀ (c e : Nat) (m : ChMsg) (s : State), s.net.fenced.has c = false → m.reserved = false → cdRole (s.ep c e).desc = 1 →
    m.mc < cdMcCount (s.ep c e).desc →
    let x := s.ep c e
    exec (.creditReturn c e m) s = .next (((s.setEp c e { (x.unwait s.clk.fast.toNat) with credits := x.credits.put m.mc (x.credits.get 0 m.mc + 1) }).chnRefusalDone c).chnStall c)) ∧
  (∀ (c e : Nat) (w : W256) (m : ChMsg) (s : State), s.net.fenced.has c = false → m.reserved = false → (s.chn c).entry = some w → mMop w = 1 →
    sdEp w.toNat = e →
    let n := sdCount w.toNat; let u := s.modChn c (fun y => { y with answered := y.answered.put (s.ackFrom c m) n })
    exec (.landingAck c e m) s = .next (if (s.chn c).refusal.isSome then u.chnRefusalDone c else if n ≤ (s.chn c).idx ∧ u.allAnswered c e n false = true then u.chnLanded c else u)) ∧
  (∀ (c : Nat) (s : State),
    s.chnLanded c = (if s.sendFar c = true ∧ s.detNow c = true then (if s.clk.fast.toNat < s.sendWindow c then s.modChn c (fun x => { x with landed := true }) else if s.clk.fast.toNat = s.sendWindow c then s.chnDone c else (s.detBreakCore c 8).chnDone c) else s.chnDone c)) ∧
  (∀ (c e mc seq status : Nat) (m : W256) (s : State), (s.chn c).entry = some m → mMop m = 1 → sdEp m.toNat = e → (s.chn c).sentBad = none →
    (seq + (s.chn c).idx + 2 ^ 32 - (s.ep c e).seq % 2 ^ 32) % 2 ^ 32 < (s.chn c).idx → mc < cdMcCount (s.ep c e).desc →
    let n := (seq + (s.chn c).idx + 2 ^ 32 - (s.ep c e).seq % 2 ^ 32) % 2 ^ 32
    exec (.sendRefused c e mc seq status) s = .next (((s.modEp c e (fun x => { (x.unwait s.clk.fast.toNat) with credits := x.credits.put mc (x.credits.get 0 mc + 1) })).modChn c
      (fun y => { y with refusal := some (y.refusal.getD status), answered := y.answered.put mc (max (n + 1) (y.answered.get 0 mc)) })).chnRefusalDone c)) ∧
  (∀ (c e mc seq status : Nat) (w : W256) (s : State), (s.chn c).entry = some w →
    (mMop w = 2 → exec (.sendRefused c e mc seq status) s = .next (s.chnHalt c status)) ∧ (mMop w = 4 → exec (.sendRefused c e mc seq status) s = .next (s.openFails c e status))) ∧
  (∀ (c e : Nat) (m : ChMsg) (w : W256) (s : State), s.net.fenced.has c = false → m.reserved = false → (s.chn c).entry = some w →
    let late := s.openLate c; let x := s.ep c (m.dstEp % 64); let close := fun (u : State) => u.chanOut c 9 m.srcNode m.srcCl m.srcCore none { (u.chHead c (m.dstEp % 64) true) with dstEp := m.srcEp, conn := m.conn }
    (mMop w = 2 → exec (.mailboxAnswer c m) s = .next (if m.status = eOk then s.chnDone c else s.chnHalt c m.status)) ∧
    (exec (.reject c e m) s = .next (s.openFails c e (if late then eTimeout else m.status))) ∧
    (mMop w = 4 → sdEp w.toNat = m.dstEp % 64 → x.st = .opening → late = false → exec (.accept c m) s =
      .next ((s.setEp c (m.dstEp % 64) { x with st := .opened, conn := m.conn, credits := [(0, leNat (m.data.take 2))], creditsMax := leNat (m.data.take 2), wp := 0, seq := 0 }).chnDone c)) ∧
    (mMop w = 4 → sdEp w.toNat = m.dstEp % 64 → x.st = .opening → late = true → exec (.accept c m) s = .next (close (s.openFails c (m.dstEp % 64) eTimeout))) ∧
    (mMop w ≠ 4 ∨ sdEp w.toNat ≠ m.dstEp % 64 ∨ x.st ≠ .opening → exec (.accept c m) s = .next (close s)) ∧
    (mMop w = 4 → late = true → exec (.openTimeout c) s = .next (s.openFails c (sdEp w.toNat) eTimeout)) ∧
    (mMop w = 4 → sdEp w.toNat = e → (s.ep c e).st = .opening → ∀ k, s.openFails c e k = (s.modEp c e (fun x => { x with st := .closed })).chnHalt c k))

/-- Endpoints and mailboxes: Every channel packet that reaches a fenced core is refused with E_FENCED, and one with a reserved field with E_FORMAT.
A DATA packet from the peer of a receive endpoint that continues its message is kept, and with the last one the message is placed: into the write
slot when no message is spilled and a slot is free, else on the spill ring, else it is refused as overrun; from anyone else, or across a raised
deckle, the message is refused and answered once and the rest of it discarded. A free test that passes frees the oldest slot and returns a credit,
but not across a deckle; a drained message lands; a held increment is applied at its release cycle; a credit-less count that reaches its limit is
reported once. A mailbox takes one message and refuses the next until it is cleared. -/
def Obligations.ChannelArrivals : Prop :=
  (∀ (c kind : Nat) (i : Instr) (m : ChMsg) (s : State), (i, kind) ∈ [(Instr.channelData c m, 1), (.mailboxMessage c m, 4), (.mailboxAnswer c m, 5), (.openPacket c m, 6), (.accept c m, 7), (.closePacket (c, m), 9)] →
    (s.net.fenced.has c = true → exec i s = .next (s.chanRefused kind m eFenced)) ∧ (s.net.fenced.has c = false → m.reserved = true → exec i s = .next (s.chanRefuse c kind m eFormat true))) ∧
  (∀ (c e kind : Nat) (i : Instr) (m : ChMsg) (s : State), (i, kind) ∈ [(Instr.creditReturn c e m, 2), (.landingAck c e m, 3), (.reject c e m, 8)] →
    (s.net.fenced.has c = true → exec i s = .next (s.chanRefused kind { m with dstEp := e } eFenced)) ∧ (s.net.fenced.has c = false → m.reserved = true → exec i s = .next (s.chanRefuse c kind { m with dstEp := e } eFormat true))) ∧
  (∀ (c : Nat) (m : ChMsg) (s : State), s.net.fenced.has c = false → m.reserved = false →
    let e := m.dstEp % 64; let x := s.ep c e; let f := (m.srcNode, m.srcCl, m.srcCore, m.srcEp); let r := x.arriving f; let data := r.data ++ m.data; let bad := m.bad.foldl (fun b k => b.add (m.off + k)) r.bad
    (r.drop = false → s.crossesDeckle c m = false → cdRole x.desc = 2 → s.fromPeer c e m = true → m.off = r.data.length → m.last = false → exec (.channelData c m) s = .next (s.setEp c e (x.arrived f (some { far := f, data := data, bad := bad })))) ∧
    (r.drop = false → s.crossesDeckle c m = false → cdRole x.desc = 2 → s.fromPeer c e m = true → m.off = r.data.length → m.last = true → exec (.channelData c m) s = .next
      ((s.setEp c e { (x.arrived f none) with far := if m.remote then f else x.far }).place c e m data bad)) ∧
    (r.drop = false → s.crossesDeckle c m = false → (cdRole x.desc ≠ 2 ∨ s.fromPeer c e m = false ∨ m.off ≠ r.data.length) → exec (.channelData c m) s = .next ((s.dropRest c m).chanRefuse c 1 m eState false)) ∧
    (r.drop = false → s.crossesDeckle c m = true → exec (.channelData c m) s = .next (((s.dropRest c m).countDeckle c).chanRefused 1 m eState)) ∧
    (r.drop = true → exec (.channelData c m) s = .next (if m.last then s.dropRest c m else s)) ∧
    s.dropRest c m = s.setEp c e (x.arrived f (if m.last then none else some { far := f, drop := true }))) ∧
  (∀ (c e : Nat) (m : ChMsg) (data : List Byte) (bad : NSet) (s : State),
    let x := s.ep c e; let d := x.desc; let src := if m.remote then m.srcNode else 0
    (x.spill = [] → x.occ < cdSlots d → s.place c e m data bad = if m.ackReq then (s.land c e data bad m.seq src false).toSender c e 3 else s.land c e data bad m.seq src false) ∧
    (x.spill ≠ [] ∨ cdSlots d ≤ x.occ → x.spill.length < cdSpillN d → s.place c e m data bad = s.spillOut c e data bad m.seq src m.ackReq) ∧
    (x.spill ≠ [] ∨ cdSlots d ≤ x.occ → cdSpillN d ≤ x.spill.length → s.place c e m data bad =
      ((((s.modEp c e (fun y => { y with overrun := true })).chanRefused 1 m eState).raiseCore c causeOverrun).log (srcCore c) evOverrun eState (s.vatOfCore c) 0 e))) ∧
  (∀ (c e seq src : Nat) (data : List Byte) (bad : NSet) (sp : Bool) (s : State),
    let x := s.ep c e; let d := x.desc; let at_ := cdRing d + x.wp * cdStride d; let timed := cdRelEn d && s.detNow c; let rel := cdRelBase d + seq * cdRelStep d; let cyc := (s.cycleOf c).toNat
    let u := ((s.spadStore c at_ data (fun i => bad.has i)).spadStore c (cdRec d + 16 * x.wp) (leBytes 16 (slotRecord data.length (!bad.isEmpty) sp (timed && decide (rel < cyc)) seq at_ src)) (fun _ => false)).setEp c e
      { x with wp := (x.wp + 1) % cdSlots d, occ := x.occ + 1, msgs := min 0xFFFFFF (x.msgs + 1) }
    (timed = true → cyc < rel → s.land c e data bad seq src sp = u.modEp c e (fun y => { y with heldRdy := y.heldRdy ++ [rel] })) ∧ (timed = true → rel = cyc → s.land c e data bad seq src sp = u.addFrom c (cdRdy d) 1) ∧
    (timed = true → rel < cyc → s.land c e data bad seq src sp = (u.detBreakCore c 7).addFrom c (cdRdy d) 1) ∧ (timed = false → s.land c e data bad seq src sp = (if 2 ≤ cdPath d ∧ cdRelEn d = false then u.detBreakCore c 9 else u).addFrom c (cdRdy d) 1)) ∧
  (∀ (c e : Nat) (s : State), cdRole (s.ep c e).desc = 2 → (s.ep c e).occ ≠ 0 → 1 ≤ s.ctr (cdFree (s.ep c e).desc) → s.net.fenced.has c = false →
    let d := (s.ep c e).desc; let across := if cdPath d ≤ 1 then s.deckleBetween c (cdPeerCl d) else s.deckled (c / 64)
    exec (.endpointFreeTestPass c e) s = .next (if across then s else (((s.decCtr (cdFree d) 1).modEp c e (fun y => { y with occ := y.occ - 1 })).toSender c e 2).drainSpill c e)) ∧
  (∀ (c e : Nat) (data : List Byte) (bad : NSet) (q : Spilled) (l : List Spilled) (s : State), (s.ep c e).spill = q :: l → (s.ep c e).drains ≠ 0 →
    let x := s.ep c e
    exec (.spillDrain c e (.ok data bad)) s = .next ((s.setEp c e { x with spill := l, drains := x.drains - 1, spHead := (x.spHead + 1) % cdSpillN x.desc }).land c e
      ((data.drop 16).take q.len) ((bad.filter (fun k => decide (16 ≤ k))).map (fun k => k - 16)) q.seq q.srcNode true)) ∧
  (∀ (c e : Nat) (a : Bool) (l : List Bool) (s : State), (s.ep c e).spillAcks = a :: l →
    exec (.spillWriteAck c e) s = .next (let u := s.setEp c e { (s.ep c e) with spillAcks := l }; if a then u.toSender c e 3 else u)) ∧
  (∀ (c : Nat) (m : ChMsg) (s : State), s.net.fenced.has c = false → m.reserved = false →
    let e := m.dstEp % 64; let x := s.ep c e
    let u := s.setEp c e { x with full := true, mbox := { srcNode := if m.remote then m.srcNode else 0, remote := m.remote, srcCl := m.srcCl, srcCore := m.srcCore, srcEp := m.srcEp, data := m.data } }
    let ans := fun (v : State) (st : Nat) => v.chanOut c 5 (if m.remote then m.srcNode else 0) m.srcCl m.srcCore none { (v.chHead c e m.remote) with dstEp := m.srcEp, status := st }
    (s.crossesDeckle c m = false → cdRole x.desc = 3 → x.full = false → exec (.mailboxMessage c m) s = .next (ans ((if cdRdy x.desc = 0 then u else u.addFrom c (cdRdy x.desc) 1).raiseCore c causeMbox) eOk)) ∧
    (s.crossesDeckle c m = false → cdRole x.desc ≠ 3 ∨ x.full = true → exec (.mailboxMessage c m) s = .next (ans (s.log (srcCore c) evRefused eState (s.vatOfCore c) 0 e) eState)) ∧
    (s.crossesDeckle c m = true → exec (.mailboxMessage c m) s = .next ((s.countDeckle c).chanRefused 4 m eState)) ∧
    (∀ i, exec (.mailboxClear c i) s = .next (s.modEp c i (fun y => { y with full := false })))) ∧
  (∀ (c e t v : Nat) (s : State), (s.ep c e).dlSince = some t → s.vatOfCore c = some v →
    exec (.deadlockDetect c e) s = .next (if (s.ep c e).dlTold = true ∨ s.clk.fast.toNat < t + 2 ^ (s.vat v).dlLog2Latch then s
      else ((s.setEp c e { (s.ep c e) with deadlock := true, dlTold := true }).raiseCore c causeDeadlock).log (srcCore c) evDeadlock eDeadlock (some v) 0 e)) ∧
  (∀ (c e r : Nat) (l : List Nat) (s : State), (s.ep c e).heldRdy = r :: l →
    exec (.releaseCycle c e) s = .next (if r ≤ (s.cycleOf c).toNat then (s.setEp c e { (s.ep c e) with heldRdy := l }).addFrom c (cdRdy (s.ep c e).desc) 1 else s))

/-- Opening and closing channels: At a core that is not fenced, for packets without a reserved field: an OPEN that passes the checks of R270 opens
the lowest free connection entry and its endpoint and answers ACCEPT; one that does not is answered REJECT with the status, and one across a raised
deckle is refused. A CLOSE of the connection in force advances its generation, returns the endpoint to LISTEN with nothing in it; any other CLOSE is
refused. -/
def Obligations.Connections : Prop :=
  (∀ (c : Nat) (m : ChMsg) (s : State), s.net.fenced.has c = false → m.reserved = false →
    let e := m.dstEp % 64; let x := s.ep c e; let h := s.chHead c e true; let i := ((List.range 4096).find? (fun i => !(s.conn i).opened)).getD 0; let id := (s.conn i).gen * 4096 + i
    (s.crossesDeckle c m = false → s.openCheck c m ≠ eOk → exec (.openPacket c m) s = .next (s.chanOut c 8 m.srcNode m.srcCl m.srcCore none { h with dstEp := m.srcEp, status := s.openCheck c m })) ∧
    (s.crossesDeckle c m = false → s.openCheck c m = eOk → exec (.openPacket c m) s = .next (((s.modConn i (fun k => { k with opened := true, core := c, ep := e, node := m.srcNode, peerEp := m.srcEp })).setEp c e
      { x with st := .opened, conn := id, far := (m.srcNode, m.srcCl, m.srcCore, m.srcEp), wp := 0, occ := 0, seq := 0, spill := [], spHead := 0, drains := 0, rx := [], heldRdy := [], spillAcks := x.spillAcks.map (fun _ => false) }).chanOut c 7
      m.srcNode m.srcCl m.srcCore none { h with dstEp := m.srcEp, conn := id, data := leBytes 16 (cdSlots x.desc + cdSpillN x.desc + fld x.desc 16 14 * 2 ^ 16) })) ∧
    (s.crossesDeckle c m = true → exec (.openPacket c m) s = .next ((s.countDeckle c).chanRefused 6 m eState))) ∧
  (∀ (c : Nat) (m : ChMsg) (s : State),
    let x := s.ep c (m.dstEp % 64); let p := (s.port m.port).perm
    (s.openCheck c m = eOk → cdRole x.desc = 2 ∧ cdPath x.desc = 3 ∧ x.st = .listen ∧ (m.remote = true → p.chan = true ∧ p.lo ≤ m.srcNode ∧ m.srcNode ≤ p.hi) ∧
      (∃ v, s.vatOfCore c = some v ∧ (s.vat v).jobValid = true ∧ (s.vat v).jobId = m.job) ∧ (∃ i, i < 4096 ∧ (s.conn i).opened = false)) ∧
    (m.remote = true → (p.chan = false ∨ m.srcNode < p.lo ∨ p.hi < m.srcNode) → s.openCheck c m = ePermission)) ∧
  (∀ (c : Nat) (m : ChMsg) (s : State), s.net.fenced.has c = false → m.reserved = false →
    let i := m.conn % 4096; let k := s.conn i
    (k.opened = true → k.gen = m.conn / 4096 → k.node = m.srcNode → exec (.closePacket (c, m)) s = .next ((s.setConn i { k with opened := false, gen := (k.gen + 1) % 4096 }).modEp k.core k.ep (fun x =>
      { x with st := .listen, conn := 0, occ := 0, spill := [], spHead := 0, drains := 0, rx := [], heldRdy := [], spillAcks := x.spillAcks.map (fun _ => false) }))) ∧
    (k.opened = false ∨ k.gen ≠ m.conn / 4096 ∨ k.node ≠ m.srcNode → exec (.closePacket (c, m)) s = .next (s.chanRefuse c 9 m eState false)))

/-- The mesh, the control network and the scratchpad window: A mesh packet with a good header leaves its router by the port toward its destination,
with its data and marks, or by the ports of its multicast entry; at the destination it enters the core, unless the core is fenced or absent, or the
edge; a header fault drops it, counts it, and refuses a request. A control packet moves X then Y with its payload and marks, is presented to the
counters of its node, or reaches its core, unless that core is fenced; a header fault drops it, counts it, and answers an asking operation of
channel 1 with E_FORMAT. A packet granted while packets of another vat in deterministic mode were eligible counts FOREIGN_CONTEND for that vat. The
SYNC packets of one cycle are applied in the order of their ports before watches are tested. A window access that passes the checks reads or writes
scratchpad and is answered; else it is answered with the status and logged. -/
def Obligations.Networks : Prop :=
  (∀ (r p h : Nat) (data : List Byte) (k : NetMarks) (s : State),
    let d := portToward r (mhDst h)
    (meshHdrOk h = false → exec (.meshPacketRoute r p h data k) s = .next (s.meshBad r h)) ∧
    (meshHdrOk h = true → mhSel h ≠ 2 → d ≠ pLocal → exec (.meshPacketRoute r p h data k) s = .next (s.meshLeave r (if d = pEast then 1 else if d = pWest then 2 else if d = pNorth then 3 else 4) h data k.bad k.behind)) ∧
    (meshHdrOk h = true → mhSel h = 1 → d = pLocal → exec (.meshPacketRoute r p h data k) s = .next (s.meshLeave r 5 h data k.bad k.behind)) ∧
    (meshHdrOk h = true → mhSel h = 0 → d = pLocal → exec (.meshPacketRoute r p h data k) s = .next (if s.portShut r then s.meshShut r h else s.meshLeave r 0 h data k.bad k.behind)) ∧
    (meshHdrOk h = true → mhSel h = 2 → exec (.meshPacketRoute r p h data k) s = .next (s.meshMulti r p h data k.bad k.behind))) ∧
  (∀ (r p h : Nat) (data : List Byte) (bad behind : List Nat) (s : State),
    let e := s.route r (fld h 40 6); let shut := (p = 3 ∨ p = 4) ∧ (bit e.outMask.toNat 1 = true ∨ bit e.outMask.toNat 2 = true)
    (e.valid = true → e.vat = mhVat h → ¬ shut → s.meshMulti r p h data bad behind = (List.range 5).foldl (fun u q => if bit e.outMask.toNat q = false then u else if q = 0 ∧ u.portShut r = true then u.meshShut r h else u.meshLeave r q h data bad behind) s) ∧
    (e.valid = false ∨ e.vat ≠ mhVat h ∨ shut → s.meshMulti r p h data bad behind = (((s.modDrops (clusterOf r) (fun x => { x with routeDrop := min 0xFFFF (x.routeDrop + 1) })).log (srcNode (clusterOf r)) evDropped eState (some (mhVat h)) (mhSrc h * 2 ^ 48) (mhKind h)).meshRefuse r h eState))) ∧
  (∀ (r port h v w : Nat) (data : List Byte) (bad behind : List Nat) (s : State),
    (let u := s.foreign (mhVat h) behind; s.meshLeave r port h data bad behind = ((if 1 ≤ port ∧ port ≤ 4 then u.account (mhVat h) 11 (mhFlits h) else u).send (.mesh r port h data bad))) ∧
    s.foreign v [] = s ∧ s.foreign v (w :: behind) = (if w ≠ v ∧ w < 16 ∧ (s.vat w).st = .running ∧ (s.vat w).det.detOn = true then s.detBreak w 0x12 else s).foreign v behind) ∧
  (∀ (n p h : Nat) (pay : List Byte) (k : NetMarks) (s : State), ctlHdrOk h = true →
    let t := ctlTarget h; let c := coreNo (fld h 0 6) (fld h 6 6); let out := fun (q : Nat) => (s.foreign (fld h 46 4) k.behind).send (.ctl n q h pay k.bad)
    (n ≠ t → exec (.ctlPacketRoute n p h (pay, k)) s = .next (out (ctlPort n t))) ∧
    (n = t → chOp h = 1 → chDstKind h ≠ 0 → exec (.ctlPacketRoute n p h (pay, k)) s = .next (s.modPresented (ctrNode (fld h 64 15)) (fun l =>
      l ++ [{ port := if p = 3 then 0 else if p = 1 then 1 else if p = 4 then 2 else if p = 2 then 3 else 4, ctr := fld h 64 15, amount := fld h 80 32, sub := bit h 79 }]))) ∧
    (n = t → chDstKind h = 0 → s.portShut c = false → exec (.ctlPacketRoute n p h (pay, k)) s = .next (out 0)) ∧
    (n = t → chDstKind h = 0 → s.portShut c = true → exec (.ctlPacketRoute n p h (pay, k)) s = .next (let u := s.modDrops (dropNode n) (fun x => { x with ctlFenced := min 0xFFFF (x.ctlFenced + 1) }); if ctlAsks h then u.ctlAnswer n h eFenced else u)) ∧
    (n = t → chOp h ≠ 1 → chDstKind h ≠ 0 → exec (.ctlPacketRoute n p h (pay, k)) s = .next (out (ctlPort n t)))) ∧
  (∀ (n p h : Nat) (pay : List Byte × NetMarks) (s : State), ctlHdrOk h = false →
    exec (.ctlPacketRoute n p h pay) s = .next (let u := (s.modDrops (dropNode n) (fun x => { x with badHdr := min 0xFFFF (x.badHdr + 1) })).log (srcNode (dropNode n)) evDropped eFormat none (coreNo (fld h 18 6) (fld h 24 6) * 2 ^ 48) (chOp h)
      if ctlAsks h then u.ctlAnswer n h eFormat else u)) ∧
  (∀ (h : Nat),
    let t := ctlTarget h; let d := if t = hubNode then 3 else t
    (∀ n, n < 64 → n ≠ t → n % 8 < d % 8 → ctlPort n t = 1) ∧ (∀ n, n < 64 → n ≠ t → d % 8 < n % 8 → ctlPort n t = 2) ∧ (∀ n, n < 64 → n ≠ t → n % 8 = d % 8 → n / 8 < d / 8 → ctlPort n t = 4) ∧
    (∀ n, n < 64 → n ≠ t → n % 8 = d % 8 → d / 8 < n / 8 → ctlPort n t = 3) ∧ (t = hubNode → ctlPort 3 t = 5)) ∧
  (∀ (n : Nat) (s : State),
    let l := s.presented n; let o := (List.range 5).flatMap (fun p => l.filter (fun x => x.port == p))
    exec (.syncApply n) s = .next ((o.foldl (fun u x => if x.sub then (u.subCtr x.ctr x.amount).1 else u.addCtr x.ctr x.amount) (s.setPresented n [])).testWatches n)) ∧
  (∀ (c k : Nat) (s : State), s.net.fenced.has c = true →
    exec (.fenceNotice c none) s = .next { s with net := { s.net with fenceSeen := s.net.fenceSeen.add c } } ∧ exec (.fenceNotice c (some k)) s = .next { s with net := { s.net with remapSeen := s.net.remapSeen.add (8192 * k + c) } }) ∧
  (∀ (c off n : Nat) (data : List Byte) (bad : List Nat) (w : WinBy) (s : State), s.clRun (clusterOf c) = true →
    let r := s.windowCheck c off n w false; let k := s.windowCheck c off data.length w true; let x := s.extAccess c w
    (s.portShut c = true → exec (.windowRead c off n w) s = .next ((s.modDrops (clusterOf c) (fun x => { x with meshFenced := min 0xFFFF (x.meshFenced + 1) })).send (.winAnswer w eFenced [] []))) ∧
    (s.portShut c = false → r = eOk → exec (.windowRead c off n w) s = .next ((x.noteRead c off n).send (.winAnswer w eOk ((s.spad c).mem.readBytes off n) ((List.range n).filter (fun i => (s.spad c).badAt (off + i)))))) ∧
    (s.portShut c = false → r ≠ eOk → exec (.windowRead c off n w) s = .next ((x.log (srcCore c) evRefused r (s.vatOfCore c) off 1).send (.winAnswer w r [] []))) ∧
    (s.portShut c = false → k = eOk → exec (.windowWrite c off data bad w) s = .next ((x.spadPut c off data (fun i => bad.contains i)).send (.winAnswer w eOk [] []))) ∧
    (s.portShut c = false → k ≠ eOk → exec (.windowWrite c off data bad w) s = .next ((x.log (srcCore c) evRefused k (s.vatOfCore c) off 2).send (.winAnswer w k [] []))))

/-- Counter increments over the span network: A remote sync word completes its RSYNC; a word for this node is admitted as its own frame, else a
frame with the stamp of the tick plus the vat's delay is queued at the port of the route, or the word is dropped, counted and told to the vatman. A
SYNC frame that arrives is taken and admitted by the rights of its port. A held increment is applied at the first tick that reaches its stamp. -/
def Obligations.SyncFrames : Prop :=
  (∀ (c : Nat) (w : W64) (s u : State), u = (match (s.chn c).entry with | some m => if mMop m == 3 then s.chnDone c else s | none => s) →
    let n := w.toNat; let dst := fld n 0 17; let ctr := fld n 17 15; let amount := fld n 32 32; let x := s.vat ((s.vatOfCore c).getD 0); let stamp := s.clk.gtc + BitVec.ofNat 64 x.xsyncDelay
    (dst = s.span.node → exec (.syncWord c w) s = .next (u.syncAdmit true dst ctr amount x.jobId stamp)) ∧
    (∀ p, dst ≠ s.span.node → s.spanRoute dst = some p → exec (.syncWord c w) s = .next (u.queueTx p { f := { kind := 1, dst := dst, src := s.span.node, job := x.jobId, unit := dst + s.span.node * 2 ^ 17 + ctr * 2 ^ 34 + amount * 2 ^ 64 + x.jobId * 2 ^ 96 + stamp.toNat * 2 ^ 128 }, vat := s.vatOfCore c })) ∧
    (∀ v, dst ≠ s.span.node → s.spanRoute dst = none → s.vatOfCore c = some v → exec (.syncWord c w) s = .next
      ((({ u with span := { u.span with routeDrops := satAdd top16 u.span.routeDrops 1 } } : State).log (srcHub 10) evRefused eRange (some v) 0 1).fireVat v 4))) ∧
  (∀ (port : Nat) (x : RxFrame) (s u : State), s.takeFrame port (fun f => f.kind == 1) = some (x, u) → port ≠ twinPort →
    let p := (s.port port).perm; let ctr := fld x.f.unit 34 15
    let v := match s.syncVat ctr x.f.job with | some v => u.chargeRx v x | none => u
    exec (.syncFrameReceive port) s = .next (v.syncAdmit (p.admits x.f.src p.sync) x.f.src ctr (fld x.f.unit 64 32) x.f.job (BitVec.ofNat 64 (fld x.f.unit 128 64)))) ∧
  (∀ (i : Nat) (h : HeldTick) (s : State), s.net.heldTicks[i]? = some h → h.stamp.toNat ≤ s.clk.gtc.toNat →
    let u : State := { s with net := { s.net with heldTicks := s.net.heldTicks.eraseIdx i } }
    exec (.syncFrameRelease i) s = .next (match s.vatOfCtr h.ctr with | some v => u.syncApply v (h.src.getD s.span.node) h.ctr h.amount h.job | none => (u.addOutside h.ctr h.amount).1))

/-- The states of a span link: Each event takes the link of a port to the state Table 14.9 and R457 give: signal to TRAIN, training to ALIGN, 64
good pairs to HELLO with a HELLO queued, the answered HELLO to UP with the credit of the peer, a failed check to FAILED, time, bad pairs or loss of
signal back. SPAN_PORT_CTL takes DISABLED to DOWN on a sealed device, and back to DISABLED. -/
def Obligations.LinkStates : Prop :=
  (∀ (port : Nat) (s : State),
    let y := s.port port
    (y.st = .up → 32 ≤ y.badRun ∨ 16 ≤ y.nakRun → exec (.retrain port) s = .next (s.linkTo port .train)) ∧
    (y.st = .train ∨ y.st = .align ∨ y.st = .hello ∨ y.st = .up → exec (.lossOfSignal port) s = .next (s.linkTo port .down)) ∧
    (y.st = .down → s.boot.extest = false → exec (.signalDetect port) s = .next (s.linkTo port .train)) ∧
    (y.st = .train → exec (.trainingComplete port) s = .next ((s.modPort port (fun z => { z.fresh with txq := z.txq.filter (fun x => !(isPrio x.f.kind)) })).linkTo port .align)) ∧
    (y.st = .train → y.since.toNat + 500000000 ≤ s.clk.gtc.toNat → exec (.trainTimeout port) s = .next (s.linkTo port .down)) ∧
    (y.st = .align → y.since.toNat + 1000000 ≤ s.clk.gtc.toNat → exec (.alignTimeout port) s = .next (s.linkTo port .train)) ∧
    (y.st = .hello → y.since.toNat + 100000 ≤ s.clk.gtc.toNat → exec (.helloTimeout port) s = .next (s.linkTo port .train)) ∧
    (∀ b, y.st = .align → 64 ≤ y.goodRun → exec (.alignComplete port b) s = .next
      (let u := (s.modPort port (fun z => { z with reversed := b })).linkTo port .hello; u.modPort port (fun z => { z with txq := u.linkFrame port 1 :: z.txq })))) ∧
  (∀ (port : Nat) (x : RxFrame) (s u : State), s.takeFrame port (fun f => f.kind == 3 && (fld f.unit 0 4 == 1 || fld f.unit 0 4 == 2)) = some (x, u) → (s.port port).st = .hello ∨ (s.port port).st = .up →
    let n := x.f.unit; let v := u.modPort port (fun y => { y with peer := fld n 4 17, peerPort := fld n 21 3 })
    (u.helloCheck port n = none → fld n 0 4 = 1 → exec (.hello port) s = .next (v.modPort port (fun y => { y with txq := v.linkFrame port 2 :: y.txq }))) ∧
    (u.helloCheck port n = none → fld n 0 4 = 2 → (s.port port).st = .hello → exec (.hello port) s = .next (v.toUp port n)) ∧
    (∀ e, u.helloCheck port n = some e → exec (.hello port) s = .next
      (let f := (u.linkTo port .failed).log (srcPort port) evLink e none (fld n 4 17) LinkSt.failed.code; if port = twinPort then f.pairFail e else f))) ∧
  (∀ (port n : Nat) (s : State), port ≠ twinPort →
    s.toUp port n = (s.modPort port (fun y => { y with datelineOn := y.dateline, credit := (List.range 9).map (fun i => (i, fld n (24 + 16 * i) 16)) })).linkTo port .up) ∧
  (∀ (port : Nat) (x : RxFrame) (s u : State), s.takeFrame port (fun f => f.kind == 3 && fld f.unit 0 4 == 3) = some (x, u) →
    exec (.linkDownFrame port) s = .next (if (s.port port).st = .up then u.linkTo port .down else u)) ∧
  (∀ (port n : Nat) (s : State), port < 6 →
    let u := s.modPort port (fun y => { y with en := bit n 0, dateline := bit n 1, expect := bit n 2, peerNode := fld n 3 17 }); let st := (s.port port).st
    (bit n 0 = true → st = .disabled → s.boot.sealed = true → exec (.spanPortEnable port n) s = .next (u.linkTo port .down)) ∧ (bit n 0 = true → st ≠ .disabled ∨ s.boot.sealed = false → exec (.spanPortEnable port n) s = .next u) ∧
    (bit n 0 = false → st ≠ .disabled → st ≠ .up → exec (.spanPortEnable port n) s = .next (u.linkTo port .disabled)) ∧
    (bit n 0 = false → st = .up → exec (.spanPortEnable port n) s = .next ((u.sendPair port (s.port port).txSeq 1 false ((u.linkFrame port 3).f.bytes false ++ List.replicate 1216 0)).linkTo port .disabled)))

/-- Pairs of flits on a span link: A bad pair is counted and asks for a resend; a good one's control codewords are acted on and, when it is the one
expected, its flits are taken; another one asks for a resend. A port sends the pair due for resending, an idle pair while 255 pairs are held, else a
new one. A frame stops joining 8 cycles after its last packet. -/
def Obligations.LinkPairs : Prop :=
  (∀ (port k : Nat) (p : Pair) (s : State), (s.port port).st.live = true →
    let y := s.port port; let u := s.countCorrected port k; let v := u.modPort port (fun y => y.takeCcw p s.clk.gtc)
    (exec (.pairReceive port none k) s = .next ((u.modPort port (fun y => { y with badPair := min 0xFFFF (y.badPair + 1), badRun := y.badRun + 1, goodRun := 0, nakOut := y.st != .align || y.nakOut, noStamp := y.noStamp - 1 })).log (srcPort port) evDropped eOk none 0 0)) ∧
    (y.st = .align ∨ p.idle = true → exec (.pairReceive port (some p) k) s = .next v) ∧
    (y.st ≠ .align → p.idle = false → p.seq % 256 = y.rxSeq → exec (.pairReceive port (some p) k) s = .next ((v.modPort port (fun y => { y with rxSeq := (y.rxSeq + 1) % 256, nakOut := false })).rxFlits port p)) ∧
    (y.st ≠ .align → p.idle = false → p.seq % 256 ≠ y.rxSeq → exec (.pairReceive port (some p) k) s = .next (v.modPort port (fun y => { y with nakOut := true })))) ∧
  (∀ (port : Nat) (s : State), (s.port port).st = .hello ∨ (s.port port).st = .up →
    let y := s.port port
    (∀ h l, y.resend = h :: l → exec (.pairSend port) s = .next (((s.modPort port (fun y => { y with resend := l, resends := min 0xFFFF (y.resends + 1) })).sendPair port h.seq h.pflit false h.data).log (srcPort port) evCorrected eOk none 0 h.seq)) ∧
    (y.resend = [] → 255 ≤ y.held.length → exec (.pairSend port) s = .next (s.sendPair port ((y.txSeq + 255) % 256) 0 true (List.replicate 1280 0))) ∧
    (y.resend = [] → y.held.length < 255 → exec (.pairSend port) s = .next (s.newPair port))) ∧
  (∀ (port : Nat) (s : State), (s.port port).st = .align →
    exec (.pairSend port) s = .next (s.sendPair port (((s.port port).txSeq + 255) % 256) 0 true (List.replicate 1280 0))) ∧
  (∀ (port : Nat) (s : State),
    exec (.frameJoinTimeout port) s = .next (s.modPort port (fun y => { y with txq := y.txq.map (fun x => { x with joining := x.joining && !decide (x.joinAt + 8 ≤ s.clk.fast.toNat) }) })))

/-- Requests and answers over the span network: A frame the checks of Table 14.7 admit is carried out and answered, an RREAD with the bytes and
their marks, an RWRITE block by block with one status; one they do not admit is counted, logged and refused whole. An answer within the deadline
frees its tag, is charged and given to every access that waits for it; a late one is counted. Requests past the deadline are answered E_TIMEOUT. -/
def Obligations.RemoteAccesses : Prop :=
  (∀ (port v : Nat) (x : RxFrame) (s u : State), s.takeFrame port (fun f => f.kind == 9) = some (x, u) → u.frameAdmit port x.f false = .ok v →
    u.spadAwake (fld x.f.unit 0 48) = true →
    let f := x.f; let a := fld f.unit 0 48; let w := u.chargeRx v x; let r := w.remoteRead v a f.len
    (w.accessState v a = eOk → exec (.rread port) s = .next (r.1.egress { f := { kind := 4, dst := f.src, src := s.span.node, job := f.job, tag := f.tag, len := f.len, data := r.2.1, bad := badWords (fun i => r.2.2.has i) 0 f.len } })) ∧
    (w.accessState v a ≠ eOk → exec (.rread port) s = .next (w.egress { f := { kind := 4, dst := f.src, src := s.span.node, job := f.job, tag := f.tag, status := w.accessState v a } }))) ∧
  (∀ (port v : Nat) (x : RxFrame) (s u : State), s.takeFrame port (fun f => f.kind == 0xA) = some (x, u) → u.frameAdmit port x.f true = .ok v →
    u.spadAwake (fld x.f.unit 0 48) = true →
    let f := x.f; let a := fld f.unit 0 48
    let r := (blocksOf a f.len).foldl (fun (r : State × Nat) b => if r.1.accessState v (a + b.1) = eOk
      then (r.1.remoteWrite v (a + b.1) ((f.data.drop b.1).take b.2) (fun i => f.bad.has ((b.1 + i) / 4)), r.2) else (r.1, if r.2 = eOk then r.1.accessState v (a + b.1) else r.2)) ((u.chargeRx v x).poisonIn port v a f, eOk)
    exec (.rwrite port) s = .next (r.1.egress { f := { kind := 5, dst := f.src, src := s.span.node, job := f.job, tag := f.tag, status := r.2 } })) ∧
  (∀ (port st : Nat) (v : Option Nat) (x : RxFrame) (s u : State), u.frameAdmit port x.f false = .error (st, v) →
    u.frameAdmit port x.f true = .error (st, v) → st ≠ eWindowClosed →
    let b := !((s.port port).perm.admits x.f.src (s.port port).perm.win)
    (s.takeFrame port (fun f => f.kind == 9) = some (x, u) → exec (.rread port) s = .next (u.frameRefuse port x.f st b v)) ∧ (s.takeFrame port (fun f => f.kind == 0xA) = some (x, u) → exec (.rwrite port) s = .next (u.frameRefuse port x.f st b v))) ∧
  (∀ (port v : Nat) (x : RxFrame) (s u : State), s.takeFrame port (fun f => f.kind == 0xA) = some (x, u) →
    u.frameAdmit port x.f true = .error (eWindowClosed, some v) →
    exec (.rwrite port) s = .next ((({ u with span := { u.span with lateWrites := u.span.lateWrites.upd 0 v (fun n => min 0xFFFFFFFF (n + 1)) } } : State)).frameRefuse port x.f eWindowClosed (!((s.port port).perm.admits x.f.src (s.port port).perm.win)) (some v))) ∧
  (∀ (port : Nat) (x : RxFrame) (t : TagEnt) (s u : State), u.clk.gtc.toNat < t.sentAt.toNat + u.span.reqTo →
    (u.port port).tags.find? (fun z => z.1 == x.f.tag) = some (x.f.tag, t) →
    let w := (u.modPort port (fun y => { y with tags := y.tags.del x.f.tag })).chargeTag t x
    (s.takeFrame port (fun f => f.kind == 4) = some (x, u) → t.read = true → exec (.rdata port) s = .next (t.who.foldl (fun z k => z.send (.spanAnswer k x.f.status x.f.data ((List.range x.f.data.length).filter (fun i => x.f.bad.has (i / 4)))))
      (match t.vat with | some v => w.poisonIn port v (fld t.unit 0 48) x.f | none => w))) ∧
    (s.takeFrame port (fun f => f.kind == 5) = some (x, u) → t.read = false → exec (.rack port) s = .next (w.answerAll t.who x.f.status))) ∧
  (∀ (port : Nat) (x : RxFrame) (s u : State), (u.port port).tags.find? (fun z => z.1 == x.f.tag) = none →
    let w : State := { u with span := { u.span with late := min 0xFFFF (u.span.late + 1) } }
    (s.takeFrame port (fun f => f.kind == 4) = some (x, u) → exec (.rdata port) s = .next w) ∧ (s.takeFrame port (fun f => f.kind == 5) = some (x, u) → exec (.rack port) s = .next w)) ∧
  (∀ (port : Nat) (s : State),
    let due := fun (t : Nat × TagEnt) => decide (t.2.sentAt.toNat + s.span.reqTo ≤ s.clk.gtc.toNat)
    exec (.requestTimeout port) s = .next (((s.port port).tags.filter due).foldl (fun u t => u.answerAll t.2.who eTimeout) (s.modPort port (fun y => { y with tags := y.tags.filter (fun t => !due t) }))) ∧
    (∀ v i, exec (.exportWindowClose v i) s = .next (s.modExport_ v i (fun x => { x with open_ := false }))))

/-- Channel frames and refusals: A CHAN, CHREQ or CHRSP frame that its port admits is charged and its packets go to the core it names; one that is
not admitted is refused with E_PERMISSION. A REFUSE ends the request of its tag with the status, and when the request held poison it is a commit
point; a refused sync frame is told to the vatman, a refused channel packet to its core. -/
def Obligations.ChannelFrames : Prop :=
  (∀ (port : Nat) (x : RxFrame) (s u : State), (s.port port).perm.admits x.f.src (s.port port).perm.chan = true →
    let m := x.f.chMsg port; let k := chKind x.f.unit; let d := leNat x.f.data
    let to6 := if k = 6 then (fld d 28 6, fld d 22 6) else u.frameCore x.f
    (s.takeFrame port (fun f => f.kind == 8) = some (x, u) → exec (.chan port) s = .next ((splitChan m).foldl (fun z q => z.send (.chan 1 (z.physOf (u.frameCore x.f).1 (u.frameCore x.f).2) none q)) (u.chanRx port x (u.frameCore x.f).1))) ∧
    (s.takeFrame port (fun f => f.kind == 0xB) = some (x, u) → exec (.chreq port) s = .next ((u.chanRx port x to6.1).send (.chan k (u.physOf to6.1 to6.2) none m))) ∧
    (s.takeFrame port (fun f => f.kind == 7) = some (x, u) → exec (.chrsp port) s = .next ((u.chanRx port x x.f.dstCl).send (.chan k (u.physOf x.f.dstCl x.f.dstCore) none m)))) ∧
  (∀ (port : Nat) (x : RxFrame) (s u : State), (s.port port).perm.admits x.f.src (s.port port).perm.chan = false →
    let w := u.frameRefuse port x.f ePermission true none
    (s.takeFrame port (fun f => f.kind == 8) = some (x, u) → exec (.chan port) s = .next w) ∧ (s.takeFrame port (fun f => f.kind == 0xB) = some (x, u) → exec (.chreq port) s = .next w) ∧ (s.takeFrame port (fun f => f.kind == 7) = some (x, u) → exec (.chrsp port) s = .next w)) ∧
  (∀ (port : Nat) (x : RxFrame) (s u : State), s.takeFrame port (fun f => f.kind == 0xC) = some (x, u) →
    let f := x.f; let q := (s.port port).tags.find? (fun t => t.1 == f.tag && t.2.unit == f.unit)
    (∀ t, q = some t → s.clk.gtc.toNat < t.2.sentAt.toNat + s.span.reqTo → t.2.badAt = none → exec (.refuse port) s = .next ((u.modPort port (fun y => { y with tags := y.tags.del f.tag })).answerAll t.2.who f.status)) ∧
    (∀ t a v, q = some t → s.clk.gtc.toNat < t.2.sentAt.toNat + s.span.reqTo → t.2.badAt = some a → t.2.vat = some v →
      exec (.refuse port) s = .next ((((u.modPort port (fun y => { y with tags := y.tags.del f.tag })).answerAll t.2.who f.status).containPoint v 4 (srcPort port) a a).abortSheet v)) ∧
    (∀ v, q = none → s.isSyncRefusal f = true → (s.jobVats f.job).head? = some v → exec (.refuse port) s = .next ((u.log (srcHub 10) evRefused f.status (some v) 0 1).fireVat v 4)) ∧
    (q = none → s.isSyncRefusal f = false → chKind f.unit = 1 ∨ chKind f.unit = 4 ∨ chKind f.unit = 6 ∨ chKind f.unit = 9 →
      exec (.refuse port) s = .next (u.answerAll [.packet (f.tag / 64) (f.tag % 64) (fld f.unit 10 6) (chKind f.unit)] f.status)))

/-- Pairing, heartbeat and takeover of twins: A twin command is checked against its state and its configuration and refused with the status, or
takes the device to the state R476, R492, R493 and R494 give; a pairing ends in time or with E_TIMEOUT; a beat is sent at each multiple of 10,000
ticks, a valid one is recorded, a second active or 30,000 ticks without one break the pair; a takeover ends when nothing is left to apply. -/
def Obligations.TwinPairing : Prop :=
  (∀ (s : State), s.span.tw.cfgEn = true →
    let t := s.span.tw; let vs := s.mirroredVats
    (t.st = .single → s.boot.sealed = true → exec .pairActive s = .next ((s.modTwin (fun t => { t with st := .pairing, want := false, pairAt := s.clk.gtc, host := none })).linkTo twinPort .down) ∧
      exec .pairMirror s = .next ((s.modTwin (fun t => { t with st := .pairing, want := true, pairAt := s.clk.gtc, host := none })).linkTo twinPort .down)) ∧
    (t.st ≠ .single ∨ s.boot.sealed = false → exec .pairActive s = .next (s.twinRefuse {} eState) ∧ exec .pairMirror s = .next (s.twinRefuse {} eState)) ∧
    (t.st ≠ .active → t.st ≠ .mirror → t.st ≠ .broken → exec .unpair s = .next (s.twinRefuse {} eState)) ∧
    (t.st ≠ .active ∨ t.handover = true → exec .handover s = .next (s.twinRefuse {} eState)) ∧
    ((t.st = .broken ∧ t.role = true) ∨ (t.st = .mirror ∧ t.peerState = 3) → exec .takeover s = .next
      ((vs.foldl (fun s v => s.modVat v (fun x => { x with tw := { x.tw with log := logWhole x.tw.log } })) s).modTwin (fun t => { t with st := .takeover, host := none })))) ∧
  (∀ (s : State), s.span.tw.cfgEn = true → s.span.tw.st = .active ∨ s.span.tw.st = .mirror ∨ s.span.tw.st = .broken →
    ∃ u : State, exec .unpair s = .next u ∧ u.span.tw.st = .single ∧ u.span.tw.handover = false ∧ u.span.tw.status = eOk) ∧
  (∀ (s : State), s.span.tw.cfgEn = true → s.span.tw.st = .active → s.span.tw.handover = false →
    s.mirroredVats.any (fun v => let x := s.vat v; !(x.st == .ready || x.st == .free) || x.tw.mstat != 2 || x.tw.busy) = false →
    exec .handover s = .next (((s.mirroredVats.foldl (fun u v => if (u.vat v).tw.mode = 1 then (u.modVat v (fun x => { x with tw := { x.tw with busy := true, pendCmd := 1, cmdLine := u.mem.nextCmd } })).twinGo v else u.takeCommit v false false)
      (s.modTwin (fun t => { t with handover := true }))).twinOk {}).handoverGo)) ∧
  (∀ (r code : Nat) (s : State),
    let v := match (s.ring r).nextCmd with | some k => k.vat | none => 0
    exec (.twin r) s = .next (s.command (.host r) 0x27 v (fun s k => s.twinCmd (fld k.entry 64 3) k)) ∧ (∀ k : Caller, code = 0 ∨ 5 < code → s.twinCmd code k = s.twinRefuse k eFormat) ∧
    (∀ k : Caller, 1 ≤ code → code ≤ 5 → s.span.tw.cfgEn = false → s.twinCmd code k = s.twinRefuse k ePermission)) ∧
  (∀ (s : State), s.span.tw.st = .pairing → s.span.tw.pairAt.toNat + 1000000000 ≤ s.clk.gtc.toNat →
    exec .pairingTimeout s = .next (s.pairFail eTimeout) ∧ (s.pairFail eTimeout).span.tw.st = .single ∧ (s.pairFail eTimeout).span.tw.status = eTimeout) ∧
  (∀ (s : State), s.clk.gtc.toNat % 10000 = 0 ∨ s.clk.prev.toNat / 10000 ≠ s.clk.gtc.toNat / 10000 →
    (s.span.tw.st = .pairing ∧ (s.port twinPort).st = .up) ∨ s.span.tw.st = .active ∨ s.span.tw.st = .mirror ∨ s.span.tw.st = .takeover ∨ s.span.tw.st = .broken →
    let t := s.span.tw; let w := s.modTwin (fun t => { t with beat := t.beat + 1 })
    let m := (List.range 16).foldl (fun m v => m + b2n ((s.vat v).tw.mstat == 2) * 2 ^ v) 0
    exec .beatSend s = .next (if (s.port twinPort).st = .up then w.queueTwin { f := { kind := 1, dst := t.cfgPeer, src := s.span.node, unit := t.beat % 65536 + t.st.code * 2 ^ 16 + b2n t.role * 2 ^ 19 + m * 2 ^ 20 } } else w)) ∧
  (∀ (x : RxFrame) (s u : State), s.takeFrame twinPort (fun f => f.kind == 1) = some (x, u) → x.f.src = s.span.tw.cfgPeer → x.stamped = true →
    fld x.f.unit 16 3 ≤ 5 →
    let k := fld x.f.unit 16 3; let w := u.modTwin (fun t => { t with peerState := k, peerRole := bit x.f.unit 19, lastBeat := x.tick })
    exec .beatReceive s = .next (if s.span.tw.st = .active ∧ (k = 2 ∨ (k = 4 ∧ bit x.f.unit 19 = false)) then (w.modTwin (fun t => { t with conflict := true })).toBroken else w)) ∧
  (∀ (s : State), s.paired = true → s.span.tw.lastBeat.toNat + 30000 ≤ s.clk.gtc.toNat →
    ∃ u : State, exec .heartbeatLoss s = .next u ∧ u.span.tw.st = .broken ∧ u.span.tw.handover = false ∧ u.span.tw.missed = min 0xFFFF (s.span.tw.missed + 1)) ∧
  (∀ (s : State), s.span.tw.st = .takeover → s.mirroredVats.any (fun v => !(s.vat v).tw.log.isEmpty) = false →
    ∃ u : State, exec .takeoverComplete s = .next (u.hostFinish s.span.tw.host eOk 0 0) ∧ u.span.tw.st = (if s.span.tw.peerState = 3 then .active else .single) ∧ u.span.tw.status = eOk ∧ u.span.tw.host = none ∧
      u.span.tw.lastBeat = s.clk.gtc)

/-- Mirroring of a vat: the active side: TWIN_VAT_CTL with a mode is checked and sends CTL ENABLE with the mode, the ranges and the slot count; mode
0 releases what is withheld, ends the mirroring and tells the peer. The answer sets the mode and begins a resync. COMMIT and RESYNC are refused with
E_STATE or begin a commit, and the CACK of the oldest commit makes its releases; MACK counts freed log units. -/
def Obligations.TwinControl : Prop :=
  (∀ (v n : Nat) (s : State), v < 16 →
    let w := s.twinVatCtl v n; let y := w.vat v; let m := fld n 0 2
    (m = 0 ∨ m = 3 → exec (.mirrorEnable v n) s = .next (w.twinVatRefuse v eFormat)) ∧
    (m = 1 ∨ m = 2 → s.span.tw.cfgEn = false → exec (.mirrorEnable v n) s = .next (w.twinVatRefuse v ePermission)) ∧
    (m = 1 ∨ m = 2 → s.span.tw.cfgEn = true → s.span.tw.st = .active → y.tw.standby = false → (y.st = .free ∧ y.jobValid = true) ∨ y.st = .ready → y.tw.busy = false → y.tw.commits = [] → s.span.tw.cfgVats.getLsbD v = true →
      exec (.mirrorEnable v n) s = .next ((w.modVat v (fun y => { y with tw := { y.tw with pendMode := m, freeUnits := 0, peerUnits := 0 } })).sendCtl v 1
        (leBytes 8 m ++ (List.range 8).flatMap (fun i => leBytes 8 (y.tw.ranges.get 0 i).toNat) ++ leBytes 8 y.btCount)))) ∧
  (∀ (v n : Nat) (s : State), v < 16 → fld n 0 2 = 0 →
    let w := s.twinVatCtl v n; let k := (w.releaseHost v (fun _ => some none)).endMirror v
    ((w.vat v).tw.mode = 0 → (w.vat v).tw.pendMode = 0 → (w.vat v).tw.standby = false → exec (.mirrorDisable v n) s = .next w) ∧
    ((w.vat v).tw.mode ≠ 0 ∨ (w.vat v).tw.pendMode ≠ 0 ∨ (w.vat v).tw.standby = true → exec (.mirrorDisable v n) s = .next (if w.paired then k.sendCtl v 2 [] else k))) ∧
  (∀ (x : RxFrame) (s u : State), s.takeFrame twinPort (fun f => f.kind == 7) = some (x, u) →
    let v := fld x.f.unit 0 4; let st := fld x.f.unit 8 8; let p := (u.vat v).tw.pendMode
    (p ≠ 0 → st = eOk → exec .ctlrsp s = .next ((u.modVat v (fun y => { y with tw := { y.tw with status := st, pendMode := 0, mode := p } })).resyncBegin v)) ∧
    (p = 0 ∨ st ≠ eOk → exec .ctlrsp s = .next (u.modVat v (fun y => { y with tw := { y.tw with status := st, pendMode := 0 } })))) ∧
  (∀ (v : Nat) (s : State),
    let x := s.vat v
    (x.tw.mode = 1 → x.tw.standby = false → x.st = .ready → x.tw.mstat = 2 → x.tw.busy = false → x.heldOrLater = false → x.tw.commits.any (fun c => c.bad.isSome) = false →
      exec (.twinCommit v) s = .next ((s.modVat v (fun y => { y with tw := { y.tw with busy := true, pendCmd := 1, cmdLine := s.mem.nextCmd } })).twinGo v)) ∧
    (x.tw.mode ≠ 1 ∨ x.st ≠ .ready ∨ x.tw.mstat ≠ 2 → exec (.twinCommit v) s = .next (s.twinVatRefuse v eState)) ∧
    (x.tw.mode ≠ 0 → x.tw.standby = false → s.span.tw.st = .active → x.st = .ready ∨ (x.st = .free ∧ x.jobValid = true) → x.tw.busy = false → x.heldOrLater = false → x.tw.commits = [] →
      exec (.resync v) s = .next (((s.modVat v (fun x => { x with tw := { x.tw with busy := true, pendCmd := 2, cmdLine := s.mem.nextCmd, units := 0, curBad := none } })).setMstat v 1).twinGo v)) ∧
    (x.tw.mode = 0 ∨ s.span.tw.st ≠ .active → exec (.resync v) s = .next (s.twinVatRefuse v eState))) ∧
  (∀ (c : TwCommit) (l : List TwCommit) (x : RxFrame) (s u : State), s.takeFrame twinPort (fun f => f.kind == 5) = some (x, u) →
    (u.vat (fld x.f.unit 0 4)).tw.commits = c :: l → c.no = fld x.f.unit 16 32 → fld x.f.unit 8 8 = eOk →
    let v := fld x.f.unit 0 4; let w := (u.releaseHost v (fun k => if k = fld x.f.unit 16 32 then some none else none)).modVat v (fun y => { y with tw := { y.tw with committed := BitVec.ofNat 32 (fld x.f.unit 16 32), status := eOk, commits := l, busy := y.tw.busy && !(c.resync || c.cmd) } })
    let z := if c.resync then w.setMstat v 2 else w
    exec .cack s = .next (if (z.vat v).tw.relEn then (z.addOutside (z.vat v).tw.relCtr 1).1 else z).handoverGo) ∧
  (∀ (c : TwCommit) (l : List TwCommit) (x : RxFrame) (s u : State), s.takeFrame twinPort (fun f => f.kind == 5) = some (x, u) →
    (u.vat (fld x.f.unit 0 4)).tw.commits = c :: l → c.no = fld x.f.unit 16 32 → fld x.f.unit 8 8 ≠ eOk →
    let v := fld x.f.unit 0 4; let st := fld x.f.unit 8 8; let z := ((u.releaseHost v (fun _ => some (some st))).modVat v (fun y => { y with tw := { y.tw with status := st, commits := [], busy := y.tw.busy && !(c.resync || c.cmd) } })).setMstat v 3
    exec .cack s = .next (if (z.vat v).tw.relEn then (z.addOutside (z.vat v).tw.relCtr 1).1 else z).handoverGo) ∧
  (∀ (x : RxFrame) (s u : State), s.takeFrame twinPort (fun f => f.kind == 4) = some (x, u) →
    exec .mack s = .next (u.modVat (fld x.f.unit 0 4) (fun y => { y with tw := { y.tw with freeUnits := y.tw.freeUnits + fld x.f.unit 4 32, peerUnits := max y.tw.peerUnits (y.tw.freeUnits + fld x.f.unit 4 32) } })))

/-- Mirroring of a vat: the mirror side: A CTL ENABLE that passes the checks of R481 makes the vat standby with the mode, the ranges and an empty
log, and reports its units; one that does not is answered with the status. Captured writes and records of a standby vat join its log, a COMMIT
closes a commit and is acknowledged, one with E_POISON discards what it would have closed; a closed commit is applied in log order and its units are
reported. -/
def Obligations.TwinMirror : Prop :=
  (∀ (x : RxFrame) (s u : State),
    let v := fld x.f.unit 0 4; let word := fun (i : Nat) => leNat ((x.f.data.drop (8 * i)).take 8); let ranges : Table W64 := (List.range 8).map (fun i => (i, BitVec.ofNat 64 (word (i + 1))))
    let st := u.enableCheck v x.f.job ranges (word 9); let w := u.modVat v (fun y => { y with tw := { y.tw with mode := word 0 % 4, ranges := ranges, standby := true, log := [], logAt := 0 } })
    (s.takeFrame twinPort (fun f => f.kind == 0xB && fld f.unit 4 4 == 1) = some (x, u) → st = eOk → exec .ctlEnable s = .next (((w.setMstat v 1).sendMack v (w.vat v).logUnits).ctlAnswerTwin v x.f.job eOk)) ∧ (s.takeFrame twinPort (fun f => f.kind == 0xB && fld f.unit 4 4 == 1) = some (x, u) → st ≠ eOk → exec .ctlEnable s = .next (u.ctlAnswerTwin v x.f.job st)) ∧
    (s.takeFrame twinPort (fun f => f.kind == 0xB && fld f.unit 4 4 == 2) = some (x, u) → exec .ctlDisable s = .next (((u.releaseHost v (fun _ => some none)).endMirror v).ctlAnswerTwin v x.f.job eOk)) ∧
    (s.takeFrame twinPort (fun f => f.kind == 0xB && fld f.unit 4 4 == 3) = some (x, u) → exec .ctlHandover s = .next (u.ctlAnswerTwin v x.f.job eOk))) ∧
  (∀ (x : RxFrame) (s u : State),
    (s.takeFrame twinPort (fun f => f.kind == 8) = some (x, u) → u.takesMirror (fld x.f.unit 48 4) = true → exec .mwrite s = .next (u.logItem (fld x.f.unit 48 4) (.write (fld x.f.unit 0 48) x.f.data x.f.bad))) ∧
    (s.takeFrame twinPort (fun f => f.kind == 8) = some (x, u) → u.takesMirror (fld x.f.unit 48 4) = false → exec .mwrite s = .next u) ∧
    (s.takeFrame twinPort (fun f => f.kind == 9) = some (x, u) → u.takesMirror (fld x.f.unit 0 4) = true → exec .mrec s = .next (u.logItem (fld x.f.unit 0 4) (.record (fld x.f.unit 4 8) x.f.data))) ∧
    (s.takeFrame twinPort (fun f => f.kind == 9) = some (x, u) → u.takesMirror (fld x.f.unit 0 4) = false → exec .mrec s = .next u)) ∧
  (∀ (x : RxFrame) (s u : State), s.takeFrame twinPort (fun f => f.kind == 0xA) = some (x, u) → u.takesMirror (fld x.f.unit 0 4) = true →
    let v := fld x.f.unit 0 4; let st := fld x.f.unit 8 8; let no := fld x.f.unit 16 32; let l := (u.vat v).tw.log; let keep := logWhole l
    (st = eOk → exec .commitFrame s = .next ((((u.logItem v (.commit no)).modVat v (fun y => { y with tw := { y.tw with committed := BitVec.ofNat 32 no, status := eOk } })).setMstat v 2).sendCack v no eOk)) ∧
    (st ≠ eOk → exec .commitFrame s = .next ((((u.modVat v (fun y => { y with tw := { y.tw with log := keep, status := st } })).setMstat v 3).sendCack v no st).sendMack v ((l.drop keep.length).foldl (fun n i => n + LogItem.units i) 0)))) ∧
  (∀ (v no : Nat) (items rest : List LogItem) (s : State), (s.vat v).tw.log = items ++ .commit no :: rest →
    items.all (fun i => match i with | .commit _ => false | _ => true) = true →
    let listed := items.filterMap (fun i => match i with | .record 2 d => some (leNat (d.take 4)) | _ => none)
    let w : State := { s with mem := { s.mem with vers := s.mem.vers.filter (fun p => !(p.2.defined && p.2.vat == v) || listed.contains p.1) } }
    exec (.commitApplied v) s = .next (((items.foldl (fun s i => s.applyItem v i) w).modVat v (fun x => { x with tw := { x.tw with log := rest, applied := BitVec.ofNat 32 no } })).sendMack v (items.foldl (fun n i => n + LogItem.units i) 0)))

/-- Loading a mould: LOAD is refused with E_STATE in the wrong state, or takes the vat to LOADING and HEADER with the deckle raised; records arrive,
are checked and written in index order; a frame of the write pass that fails leaves the vat FAULTED; FINISH sets the counters, lowers the deckle and
makes the vat READY with the settings of the header. ABORT returns the vat to the state it came from before the first write, and leaves it FAULTED
after; RELEASE lowers a raised deckle. -/
def Obligations.MouldLoads : Prop :=
  (∀ (v : Nat) (src : Src) (k : Caller) (s u : State), s.taken src 0x01 v = some (u, k) →
    let x := u.vat v; let a := match k.host with | some _ => 4096 * fld k.entry 76 36 | none => x.loadSrc; let w := (u.modVat v (fun y => { y with loadSrc := a })).loadBegin v k false a
    let ok := ((x.st = .free ∧ x.jobValid = true ∧ x.relWipe = false) ∨ x.st = .ready) ∧ x.quiet = true
    (¬ ok → exec (.load v src) s = .next (u.refuseCmd v k eState)) ∧
    (ok → u.stackWithin v a 768 = true → exec (.load v src) s = .next (w.raiseDeckle v ((w.clustersOf v).filter (fun cl => bit (u.stackNat (a + 8) 8) cl)))) ∧
    (ok → u.stackWithin v a 768 = false → exec (.load v src) s = .next ((w.raiseDeckle v ((w.clustersOf v).filter (fun cl => bit (2 ^ 64 - 1) cl))).loadEnd v ePermission 0xFFFFFFFF x.st))) ∧
  (∀ (v i : Nat) (j : LoadJob) (rec : List Byte) (bad : List Nat) (s : State), (s.vat v).job_ = some j → j.scanIn = false →
    (s.vat v).st = .loading → (s.vat v).ld = .header → rec.length = 256 → i < 3 →
    let x := s.vat v; let j1 := { j with recs := j.recs.put i rec }; let w := s.setVat v { x with job_ := some j1 }
    (j1.recs.length ≠ 3 → exec (.loadFrameFetch v i rec bad) s = .next w) ∧
    (j1.recs.length = 3 → headerCrcOk (j1.rec_ 0) (j1.rec_ 1) (j1.rec_ 2) = false → exec (.loadFrameFetch v i rec bad) s = .next (s.setVat v { x with job_ := some { j with recs := [] }, progAttempts := satAdd top32 x.progAttempts 1 })) ∧
    (j1.recs.length = 3 → headerCrcOk (j1.rec_ 0) (j1.rec_ 1) (j1.rec_ 2) = true → exec (.loadFrameFetch v i rec bad) s = .next (if s.headerCheck v j1 = eOk
      then (w.modVat v (fun y => { y with ld := .check, job_ := some { j1 with headerOk := true } })).raiseDeckle v j1.region else w.loadEnd v (s.headerCheck v j1) 0xFFFFFFFF j.from_))) ∧
  (∀ (v i : Nat) (j : LoadJob) (rec : List Byte) (bad : List Nat) (s : State), (s.vat v).job_ = some j → j.scanIn = false →
    (s.vat v).st = .loading → rec.length = 256 → 3 ≤ i → i < 3 + mhFrames j.hdr →
    let x := s.vat v; let again := s.setVat v { x with progAttempts := satAdd top32 x.progAttempts 1 }
    (x.ld = .check → exec (.loadFrameFetch v i rec bad) s = .next (if frameCrcOk rec then s.setVat v { x with job_ := some { j with recs := j.recs.put i rec } } else again)) ∧
    (x.ld = .write → frameCrcOk rec = false → exec (.loadFrameFetch v i rec bad) s = .next again) ∧
    (∀ cl, x.ld = .write → frameCrcOk rec = true → j.region.find? (fun cl => (j.dir cl).1 ≤ i - 3 && i - 3 < (j.dir cl).1 + (j.dir cl).2) = some cl → j.next.get 0 cl = i - 3 - (j.dir cl).1 →
      exec (.loadFrameFetch v i rec bad) s = .next (if s.frameCheck v j (i - 3) rec = eOk then (s.putFrame v rec bad).modVat v (fun y =>
        { y with progDone := satAdd top32 y.progDone 1, job_ := some { j with recs := j.recs.put i rec, next := j.next.put cl (i - 2 - (j.dir cl).1) } }) else s.loadEnd v (s.frameCheck v j (i - 3) rec) (i - 3) .faulted))) ∧
  (∀ (v : Nat) (j : LoadJob) (s : State), (s.vat v).job_ = some j → j.scanIn = false → (s.vat v).ld = .check →
    (List.range (mhFrames j.hdr)).all (fun i => (j.rec_ (3 + i)).length == 256) = true →
    let bad := (List.range (mhFrames j.hdr)).find? (fun i => s.frameCheck v j i (j.rec_ (3 + i)) != eOk)
    (∀ i, bad = some i → exec (.loadCheckComplete v) s = .next (s.loadEnd v (s.frameCheck v j i (j.rec_ (3 + i))) i j.from_)) ∧
    (bad = none → exec (.loadCheckComplete v) s = .next (if s.crossCheck v j = eOk then (s.clearRegion v j).modVat v (fun y => { y with ld := .write }) else s.loadEnd v (s.crossCheck v j) 0xFFFFFFFF j.from_))) ∧
  (∀ (v : Nat) (j : LoadJob) (s : State), (s.vat v).job_ = some j → j.scanIn = false →
    ((s.vat v).ld = .write → j.region.all (fun cl => j.next.get 0 cl == (j.dir cl).2) = true → exec (.loadWriteComplete v) s = .next (s.setVat v { (s.vat v) with ld := .finish })) ∧
    ((s.vat v).ld = .finish → exec (.loadFinish v) s = .next ((((((s.coresIn v j.region) |> fun _ => ((s.putCounters j.frames).lowerDeckle v).coresIn v j.region).foldl (fun z c =>
      z.modCtl c (fun k => { k with run := .idle, started := false, waiting := none, haltReason := 0 })) ((s.putCounters j.frames).lowerDeckle v)).modVat v
      (fun y => { y with srSheet := 0, firstSheet := true, mouldId := BitVec.ofNat 64 (mhId j.hdr), startOff := (List.range 8).map (fun r => (r, mhStart j.hdr r)) })).account v 20 1).loadEnd v eOk 0 .ready))) ∧
  (∀ (v : Nat) (src : Src) (k : Caller) (j : LoadJob) (s u : State), s.taken src 0x02 v = some (u, k) → (u.vat v).job_ = some j →
    let x := u.vat v
    (x.st = .loading → exec (.abort v src) s = .next ((u.loadEnd v eAborted 0xFFFFFFFF (if x.ld = .header ∨ x.ld = .check then j.from_ else .faulted)).hostFinish k.host eOk 0 0)) ∧
    (x.st ≠ .loading → exec (.abort v src) s = .next (u.refuseCmd v k eState))) ∧
  (∀ (v : Nat) (src : Src) (k : Caller) (s u : State), s.taken src 0x03 v = some (u, k) →
    exec (.release v src) s = .next (if (u.vat v).st = .ready ∨ (u.vat v).st = .free then (u.lowerDeckle v).okCmd v k else u.refuseCmd v k eState))

/-- Starting and ending a sheet: START is refused with E_STATE, or makes a pending start for now, for the next tick of the launch grid or for the
armed tick; a pending start that is due takes the vat to RUNNING; a core of the sheet starts at the offset of its region; the sheet ends when every
enlisted core has ended and is drained. A forced stop and the host's STOP stop the vat; the time for draining passes. An arm whose tick is off the
grid of 20 ticks does not stand. -/
def Obligations.Sheets : Prop :=
  (∀ (v : Nat) (src : Src) (k : Caller) (s u : State), s.taken src 0x04 v = some (u, k) →
    let ok := (u.vat v).startable = true ∧ u.brokenHold v = false
    (¬ ok → exec (.start v src) s = .next (u.refuseCmd v k eState)) ∧ (ok → k.host = none → exec (.start v src) s = .next (u.acceptStart v none)) ∧
    (∀ h, ok → k.host = some h → exec (.start v src) s = .next (((u.modVat v (fun x => { x with det := { x.det with launch := BitVec.ofNat 64 (fld k.entry 128 64) } })).armWrite v (bit k.entry 64)).acceptStart v (some h)))) ∧
  (∀ (v : Nat) (h : Option (Nat × Nat)) (s : State),
    let now := s.clk.gtc.toNat; let x := s.vat v; let w := (s.acceptStart v h).vat v
    w.sheetHost = h ∧ w.ctlStatus = eOk ∧ (x.det.arm = false → x.det.det = false → w.det.pendStart = some s.clk.gtc ∧ w.det.pendGrid = false) ∧
    (x.det.arm = false → x.det.det = true → w.det.pendStart = some (BitVec.ofNat 64 (nextGrid now)) ∧ w.det.pendGrid = true) ∧
    (x.det.arm = true → now < x.det.launch.toNat → w.det.pendStart = some x.det.launch ∧ w.det.pendArmed = true ∧ w.det.pendLate = false) ∧
    (x.det.arm = true → x.det.launch.toNat ≤ now → w.det.pendStart = some (BitVec.ofNat 64 (nextGrid now)) ∧ w.det.pendLate = true)) ∧
  (∀ (v : Nat) (t : W64) (s : State), (s.vat v).det.pendStart = some t → (s.vat v).st = .ready → (s.vat v).advBusy = false →
    let go := s.sheetStart (fun z c => (z.epsOf c).foldl (fun z e => z.epReset c e) z) v
    ((s.vat v).det.pendGrid = false → exec (.sheetStart v) s = .next go) ∧ ((s.vat v).det.pendGrid = true → t.toNat ≤ s.clk.gtc.toNat → exec (.launchTick v) s = .next go)) ∧
  (∀ (v : Nat) (t : W64) (s : State), (s.vat v).det.pendStart = some t → (s.vat v).st ≠ .ready →
    ((s.vat v).det.pendGrid = false → exec (.sheetStart v) s = .next (s.cancelStart v)) ∧ ((s.vat v).det.pendGrid = true → t.toNat ≤ s.clk.gtc.toNat → exec (.launchTick v) s = .next (s.cancelStart v))) ∧
  (∀ (c v : Nat) (s : State), s.vatOfCore c = some v → (s.vat v).st = .running → (s.vat v).enlisted.has c = true → (s.ctl c).run = .running →
    (s.vat v).startOff.get 0 (regionOf (clusterOf c)) ≤ (s.cycleOf c).toNat →
    exec (.coreStart c) s = .next (s.modCtl c (fun k => { k with started := true }))) ∧
  (∀ (v : Nat) (s : State),
    ((s.vat v).st = .running → s.sheetEnded v = true → exec (.sheetEnd v) s = .next (s.sheetOver v eOk)) ∧
    ((s.planOf v).valid = true → s.vatAwake v = true → exec (.forcedStop v) s = .next (if (s.forceStopOr v).2 then (s.forceStopOr v).1 else (s.forceStopOr v).1.log (srcVat v) evRefused eState (some v) 0 0)) ∧
    (∀ t, (s.vat v).stopTick = some t → (s.vat v).st = .stopping → t.toNat + (s.vat v).drainTo ≤ s.clk.gtc.toNat → exec (.drainTimeout v) s = .next (s.setVat v { (s.vat v) with drained := true }))) ∧
  (∀ (v r : Nat) (k : Caller) (s u : State), s.taken (.host r) 0x07 v = some (u, k) → (s.vat v).spadCopies = 0 →
    let w := if fld k.entry 64 48 = 0 then u else u.setVat v { (u.vat v) with scanBase := fld k.entry 64 48 }
    (((u.vat v).stopHost ≠ none ∨ (w.forceStopOr v).2 = false) → exec (.stop v r) s = .next (u.refuseCmd v k eState)) ∧
    ((u.vat v).stopHost = none → (w.forceStopOr v).2 = true → exec (.stop v r) s = .next ((w.forceStopOr v).1.modVat v (fun y => { y with stopHost := k.host })))) ∧
  (∀ (v : Nat) (x : W32) (s : State), x.toNat < 8 →
    let w := s.modVat v (fun y => { y with det := { y.det with det := x.getLsbD 0, brkIrq := x.getLsbD 1 } }); let set := fun (b : Bool) => w.modVat v (fun y => { y with det := { y.det with arm := b } })
    (x.getLsbD 2 = false ∨ (s.vat v).det.launch.toNat % 20 = 0 → exec (.arm v x) s = .next (set (x.getLsbD 2))) ∧
    (x.getLsbD 2 = true → (s.vat v).det.launch.toNat % 20 ≠ 0 → exec (.arm v x) s = .next ((set false).log (srcVat v) evRefused eRange (some v) 0 0)))

/-- Scanning a vat out and in: The scan-out of a still vat begins unless its image lies outside the vat's regions; when it is complete the vat is
SCANNED, the sheet's and STOP's commands finish and a reclaim becomes HELD. SCAN_IN is refused with E_STATE, or checks the header with the deckle
raised and goes on, and restores the image when its sections stand. RESUME takes a SCANNED vat to RUNNING with the deckle lowered, the cycle counter
going on from the stop. -/
def Obligations.ScanImages : Prop :=
  (∀ (v : Nat) (s : State), (s.vat v).st = .stopping → (s.vat v).scanning = false → s.still v = true →
    let x := s.vat v; let inside := x.scanBase % 0x100000 = 0 ∧ s.stackWithin v x.scanBase (s.scanSize v) = true
    (inside → exec (.scanOutStart v) s = .next (((s.mouldCores v).foldl (fun z c => z.vecSettle c) s).modVat v (fun y => { y with scanning := true }))) ∧
    (¬ inside → exec (.scanOutStart v) s = .next ((s.setVat v { x with ctlStatus := ePermission }).log (srcVat v) evRefused ePermission (some v) 0 (x.scanBase / 4096 % 2 ^ 32)))) ∧
  (∀ (v : Nat) (s : State), (s.vat v).st = .stopping → (s.vat v).scanning = true →
    let x := s.vat v
    let u := ((((s.writeScan v).modVat v (fun y => { y with st := .scanned, scanning := false, stopTick := none, stopHost := none, sheetHost := none, ctlStatus := eOk })).hostFinish x.sheetHost eAborted 0xFFFFFFFFFFFFFFFF 0).hostFinish x.stopHost eOk 0 0).fireVat v 2
    exec (.scanOutComplete v) s = .next (if x.reclaim.step = .stopping then u.toHeld v else u)) ∧
  (∀ (v : Nat) (src : Src) (k : Caller) (s u : State), s.taken src 0x05 v = some (u, k) →
    let x := u.vat v; let ok := x.st = .free ∧ x.jobValid = true ∧ x.relWipe = false ∧ x.heldOrLater = false ∧ x.spadCopies = 0; let a := match k.host with | some _ => fld k.entry 64 48 | none => x.scanBase
    let y := u.setVat v { x with scanBase := a, st := .loading, ld := .header, loadErr := {}, progAttempts := 0, progDone := 0, ctlStatus := eOk, job_ := some { scanIn := true, src := a, from_ := .free, host := k.host } }
    let w := y.raiseDeckle v (y.clustersOf v)
    (¬ ok → exec (.scanIn v src) s = .next (u.refuseCmd v k eState)) ∧
    (ok → exec (.scanIn v src) s = .next (if w.scanCheck v a = eOk then w.modVat v (fun z => { z with ld := .check }) else w.loadEnd v (w.scanCheck v a) 0xFFFFFFFF .free))) ∧
  (∀ (v : Nat) (j : LoadJob) (s : State), (s.vat v).job_ = some j → j.scanIn = true → (s.vat v).ld = .check →
    (∀ i, s.scanCrcs v j.src = true → s.scanFind j.src = some i → exec (.scanInComplete v) s = .next (((s.restoreScan v i).modVat v (fun x => { x with progDone := i.sections })).loadEnd v eOk 0 .scanned)) ∧
    (s.scanCrcs v j.src = false ∨ s.scanFind j.src = none → exec (.scanInComplete v) s = .next (s.modVat v (fun x => { x with progAttempts := satAdd top32 x.progAttempts 1 })))) ∧
  (∀ (v : Nat) (src : Src) (k : Caller) (s u : State), s.taken src 0x06 v = some (u, k) →
    let x := u.vat v; let ok := x.st = .scanned ∧ u.critical = false ∧ x.heldOrLater = false ∧ x.tw.standby = false ∧ x.tw.busy = false ∧ x.spadCopies = 0; let base := u.clk.fast - x.stopCycle
    let w := (u.lowerDeckle v).modVat v (fun y => { y with st := .running, cycleBase := base, sheetHost := k.host, sheetLive := false, ctlStatus := eOk, det := { y.det with resumed := true } })
    let y := x.enlisted.foldl (fun z c => z.modCtl c (fun k => { k with run := if k.run == .halted && k.haltReason == 4 then .running else k.run })) w
    (¬ ok → exec (.resume v src) s = .next (u.refuseCmd v k eState)) ∧
    (ok → exec (.resume v src) s = .next (x.enlisted.foldl State.resumeChn (((y.mouldCores v).foldl (fun z c => z.modCtl c (fun k => { k with cycleBase := base })) y).detBreak v 0x0E))))

/-- Plans, jobs, kills, resets and wipes: A command that the vat's state does not allow is refused with E_STATE and changes no vat. A plan is
switched only when it is well formed and every affected vat is FREE; ASSIGN gives a FREE vat a job; RELEASE_JOB stops its counting and wipes; KILL
takes a vat to FAULTED or WIPING and VAT_RESET to WIPING; at the end of a wipe the vat is FREE and has no job. -/
def Obligations.VatEnds : Prop :=
  (∀ (r v : Nat) (k : HostCmd) (s : State), (s.ring r).nextCmd = some k → k.op = 0x26 → s.fastOn = true →
    let u := s.setRing r ((s.ring r).apply k.uid); let p := fld k.entry 64 3; let vs := u.affected p
    let z := (vs.filterMap u.vatmanOf).foldl (fun s c => (s.wipeCore c).modCtl c (fun k => { k with run := .halted, haltReason := 4, waiting := none })) u
    let y : State := { z with net := { z.net with planActive := p } }
    (u.net.planOk.getLsbD p = false → exec (.plan r) s = .next (u.hostRefuse r k.uid eFormat)) ∧
    (u.net.planOk.getLsbD p = true → vs.all (fun v => (u.vat v).st == .free) = false → exec (.plan r) s = .next (u.hostRefuse r k.uid eState)) ∧
    (u.net.planOk.getLsbD p = true → vs.all (fun v => (u.vat v).st == .free) = true →
      exec (.plan r) s = .next ((State.irqSettle ({ y with hub := { y.hub with srcs := y.hub.srcs.map (fun q => (q.1, { q.2 with tgt := y.retarget u.ownerOf q.1 q.2.tgt })) } }) (u.irqLine 17)).hostFinish (some (r, k.uid)) eOk 0 0))) ∧
  (∀ (v : Nat) (src : Src) (job : Nat) (k : Caller) (s u : State), s.taken src 0x20 v = some (u, k) → src ≠ .vatman →
    let x := u.vat v; let j := match k.host with | some _ => fld k.entry 64 16 | none => job % 2 ^ 16
    (j = 0 → exec (.assign v src job) s = .next (u.refuseDev v k eRange)) ∧ (j ≠ 0 → x.st ≠ .free ∨ x.jobValid = true ∨ x.relWipe = true → exec (.assign v src job) s = .next (u.refuseDev v k eState)) ∧
    (j ≠ 0 → x.st = .free → x.jobValid = false → x.relWipe = false →
      exec (.assign v src job) s = .next ((u.setVat v { x with jobId := j, jobValid := true, ac := { from_ := u.clk.gtc, stopped := false } }).hostFinish k.host eOk 0 0))) ∧
  (∀ (v job : Nat) (s : State),
    exec (.assign v .vatman job) s = .next (s.log (srcVat v) evRefused ePermission (some v) 0 0)) ∧
  (∀ (v r : Nat) (k : Caller) (s u : State), s.taken (.host r) 0x21 v = some (u, k) →
    let x := u.vat v; let ok := x.st = .free ∧ x.jobValid = true ∧ x.relWipe = false
    (ok → exec (.releaseJob v r) s = .next ((u.stopCounting v).modVat v (fun y => { y with relWipe := true, relHost := k.host }))) ∧ (¬ ok → exec (.releaseJob v r) s = .next (u.refuseDev v k eState))) ∧
  (∀ (v r : Nat) (k : Caller) (s u : State), s.taken (.host r) 0x24 v = some (u, k) →
    let st := (u.vat v).st; let w := u.endReclaim v eAborted
    (st = .free ∨ st = .wiping ∨ st = .faulted → exec (.kill v r) s = .next (u.refuseCmd v k eState)) ∧
    (st ≠ .free → st ≠ .wiping → st ≠ .faulted → exec (.kill v r) s = .next (if w.hub.holdPm then (w.toFaulted v).hostFinish k.host eOk 0 0 else (w.modVat v (fun x => { x with killHost := k.host })).toWiping v))) ∧
  (∀ (v r : Nat) (k : Caller) (s u : State), s.taken (.host r) 0x25 v = some (u, k) →
    let st := (u.vat v).st
    (st = .free ∨ st = .wiping → exec (.vatReset v r) s = .next (u.refuseCmd v k eState)) ∧
    (st ≠ .free → st ≠ .wiping → exec (.vatReset v r) s = .next (((u.endReclaim v eAborted).modVat v (fun x => { x with killHost := k.host })).toWiping v))) ∧
  (∀ (v : Nat) (s : State),
    let x := s.vat v; let e := fun (u : State) => if x.reclaim.step = .none then u else u.endReclaim v eOk
    (x.st = .wiping → exec (.wipeComplete v) s = .next (((e (((s.wipeMemory v).clearTops v).modVat v (fun y => { y with st := .free, jobId := 0, jobValid := false, killHost := none, ctlStatus := eOk }))).hostFinish x.killHost eOk 0 0).fireVat v 2)) ∧
    (x.relWipe = true → exec (.releaseWipeComplete v) s = .next (((e ((if x.reclaim.step = .none then s.wipeMemory v else (s.wipeMemory v).clearTops v).modVat v (fun y => { y with relWipe := false, jobId := 0, jobValid := false, relHost := none }))).hostFinish x.relHost eOk 0 0).fireVat v 2))) ∧
  (∀ (v : Nat) (s : State),
    let u := ((s.wipeMemory v).clearTops v).modVat v (fun y => { y with st := .free, jobId := 0, jobValid := false, killHost := none, ctlStatus := eOk })
    (u.vat v).st = .free ∧ (u.vat v).jobValid = false ∧ (∀ p, p ∈ u.mem.stack → s.stackOwner p.1 ≠ some v) ∧ (∀ w, w ∈ u.mem.poison → s.stackOwner (16 * w) ≠ some v) ∧ (∀ p, p ∈ u.mem.vers → p.2.defined = true → p.2.vat ≠ v))

/-- Reclaim and evacuation of a vat: RECLAIM is refused with E_STATE, or records its deadline and takes the step of Table 16.4, which is HELD at
once for a FREE or SCANNED vat. YIELD below the deadline withdraws what has been set aside; the deadline in PENDING forces a stop. EVACUATE checks
its whole list before a byte moves; when every entry has been moved the vat is wiped; poison stops it as a commit point, and a failure returns it to
HELD with the status. -/
def Obligations.Reclaim : Prop :=
  (∀ (v r : Nat) (k : Caller) (s u : State), s.taken (.host r) 0x22 v = some (u, k) →
    let x := u.vat v; let go := fun (p : ReclaimStep) => (u.setVat v { x with reclaim := { deadline := BitVec.ofNat 64 (fld k.entry 128 64), status := eOk, step := p, host := k.host } }).fireVat v 0
    let ok := x.tw.standby = false ∧ x.reclaim.step = .none ∧ x.relWipe = false
    (¬ ok → exec (.reclaim v r) s = .next (u.refuseDev v k eState)) ∧ (ok → x.st = .loading ∨ x.st = .ready ∨ x.st = .running → exec (.reclaim v r) s = .next (go .pending)) ∧
    (ok → x.st = .stopping → exec (.reclaim v r) s = .next (go .stopping)) ∧ (ok → x.st = .scanned ∨ (x.st = .free ∧ x.jobValid = true) → exec (.reclaim v r) s = .next ((go .held).toHeld v)) ∧
    (ok → x.st = .wiping ∨ x.st = .faulted ∨ (x.st = .free ∧ x.jobValid = false) → exec (.reclaim v r) s = .next (u.refuseDev v k eState))) ∧
  (∀ (v : Nat) (s : State),
    let x := s.vat v; let ok := x.reclaim.step = .pending ∧ (x.st = .ready ∨ (x.st = .free ∧ x.jobValid = true)) ∧ s.clk.gtc.toNat < x.reclaim.deadline.toNat
    (ok → exec (.yield v) s = .next (((s.withdraw v (fun c => c.stage == .aside)).modVat v (fun y => { y with yielded := true, reclaim := { y.reclaim with status := eOk } })).yieldEnd v)) ∧
    (¬ ok → exec (.yield v) s = .next ((s.modVat v (fun y => { y with reclaim := { y.reclaim with status := eState } })).log (srcVat v) evRefused eState (some v) 0 0))) ∧
  (∀ (v : Nat) (s : State), (s.vat v).reclaim.step = .pending → (s.vat v).reclaim.deadline.toNat ≤ s.clk.gtc.toNat →
    let u := s.modVat v (fun y => { y with reclaim := { y.reclaim with step := .stopping }, yielded := false }); let st := (s.vat v).st
    (st = .free ∨ st = .scanned → exec (.reclaimDeadline v) s = .next (u.toHeld v)) ∧ (st ≠ .free → st ≠ .scanned → exec (.reclaimDeadline v) s = .next (u.forceStopOr v).1)) ∧
  (∀ (v r : Nat) (k : Caller) (s u : State), s.taken (.host r) 0x23 v = some (u, k) →
    let x := u.vat v; let a := fld k.entry 128 48; let n := fld k.entry 192 32; let es := (List.range n).map (fun i => u.stackNat (a + 32 * i) 32)
    let no := fun (e : Nat) => (u.modVat v (fun y => { y with reclaim := { y.reclaim with status := e } })).refuseDev v k e
    exec (.evacuate v r) s = .next (if x.reclaim.step ≠ .held then u.refuseDev v k eState
      else if n = 0 then (u.setVat v { x with evacHost := k.host, evacEntries := 0, evacPages := 0 }).evacDone v
      else if u.stackFree a (32 * n) = false then no ePermission else if u.stackBad a (32 * n) = true then no ePoison else if es.all evacFormatOk = false then no eFormat
      else if es.all (fun e => u.stackWithin v (evacEntry e).src (4096 * (evacEntry e).pages)) = false then no ePermission
      else u.setVat v { x with reclaim := { x.reclaim with step := .evacuating }, evac := es.map evacEntry, evacEntries := 0, evacPages := 0, evacHost := k.host })) ∧
  (∀ (v : Nat) (s : State), (s.vat v).reclaim.step = .evacuating →
    let x := s.vat v; let good := x.evac.takeWhile (fun e => (s.evacBad e).isNone)
    let u := (good.foldl (fun s e => s.evacMove v e (4096 * e.pages)) s).modVat v (fun y => { y with evacEntries := good.length % 2 ^ 16, evacPages := satAdd top32 0 ((good.map (fun e => e.pages)).foldl (fun a b => a + b) 0) })
    (x.evac.drop good.length = [] → exec (.evacuationComplete v) s = .next (u.evacDone v)) ∧
    (∀ e l, x.evac.drop good.length = e :: l → exec (.evacuationComplete v) s = .next (((u.evacMove v e ((s.evacBad e).getD 0 / 4 * 4)).containPoint v 1 (srcHub 9) (e.addr + (s.evacBad e).getD 0) (e.src + (s.evacBad e).getD 0)).evacFail v ePoison)) ∧
    (∀ st, st ≠ eOk → exec (.evacuationFailure v st) s = .next ((s.evacPart v).evacFail v (st % 256))))

/-- The global tick counter and its exchanges: GTC_SET sets the counter unless a vat is RUNNING. The alarm fires source 668 once. A TREQ carries the
next number of the synchronisation unit; one that arrives stamped is answered with its stamp, the hops, the state and the root. A TRSP that was not
stamped, comes from another port, or has another number changes nothing; one that shows a different root or too many hops takes a LOCKED unit to
HOLDOVER, whatever exchange it answers; a valid one stores hops, root, offset and delay and moves the unit; 4 periods without one take LOCKED to
HOLDOVER. The value of the trim is the free value of Config. -/
def Obligations.GlobalTime : Prop :=
  (∀ (t : W64) (s : State),
    (s.anyRunning = true → exec (.gtcSet t) s = .next (s.log (srcHub 3) evRefused eState none 0 0)) ∧
    (s.anyRunning = false → exec (.gtcSet t) s = .next (s.setGtc t)) ∧ (s.setGtc t).clk = { s.clk with gtc := t, prev := t, phase := edgePhase t.toNat s.hub.dvfs }) ∧
  (∀ (s : State), s.hub.alarmDone = false → s.hub.gtcAlarm.toNat ≤ s.clk.gtc.toNat →
    exec .gtcAlarm s = .next (({ s with hub := { s.hub with alarmDone := true } } : State).fire 668)) ∧
  (∀ (s : State), s.hub.gs.en = true → s.hub.gs.upPort ≠ 7 →
    let q := (s.hub.gs.seq + 1) % 2 ^ 16
    exec .treqSend s = .next ((s.modGs (fun g => { g with seq := q, t1 := none })).queueTx s.hub.gs.upPort (s.timeFrame s.hub.gs.upPort (1 + q * 2 ^ 4)))) ∧
  (∀ (p : Nat) (x : RxFrame) (s u : State), s.takeFrame p (fun f => f.kind == 2 && fld f.unit 0 4 == 1) = some (x, u) →
    let g := s.hub.gs; let hops := if g.upPort = 7 then 0 else max 1 g.hops; let root := if g.upPort = 7 then s.span.node else g.root.getD 0
    (x.stamped = false → exec (.treqReceive p) s = .next u) ∧
    (x.stamped = true → exec (.treqReceive p) s = .next (u.queueTx p (s.timeFrame p
      (2 + fld x.f.unit 4 16 * 2 ^ 4 + hops % 2 ^ 17 * 2 ^ 20 + g.st.code * 2 ^ 37 + root * 2 ^ 39 + x.tick.toNat * 2 ^ 64))))) ∧
  (∀ (p : Nat) (x : RxFrame) (t1 : W64) (s u : State), s.takeFrame p (fun f => f.kind == 2 && fld f.unit 0 4 == 2) = some (x, u) →
    s.hub.gs.t1 = some t1 →
    x.stamped = false ∨ p ≠ s.hub.gs.upPort ∨ s.hub.gs.en = false ∨ p = 7 ∨ (fld x.f.unit 4 16 ≠ s.hub.gs.seq ∧ (s.hub.gs.st = .locked →
    fld x.f.unit 20 17 < 131071 ∧ (s.hub.gs.root = none ∨ s.hub.gs.root = some (fld x.f.unit 39 17)))) →
    exec (.trspReceive p) s = .next u) ∧
  (∀ (p r : Nat) (x : RxFrame) (s u : State), s.takeFrame p (fun f => f.kind == 2 && fld f.unit 0 4 == 2) = some (x, u) → x.stamped = true →
    p = s.hub.gs.upPort → s.hub.gs.en = true → p ≠ 7 → s.hub.gs.st = .locked → s.hub.gs.root = some r →
    131071 ≤ fld x.f.unit 20 17 ∨ r ≠ fld x.f.unit 39 17 →
    exec (.trspReceive p) s = .next (u.unlock .holdover)) ∧
  (∀ (p : Nat) (x : RxFrame) (t1 : W64) (s u : State), s.takeFrame p (fun f => f.kind == 2 && fld f.unit 0 4 == 2) = some (x, u) →
    s.hub.gs.t1 = some t1 → x.stamped = true → p = s.hub.gs.upPort → s.hub.gs.en = true → p ≠ 7 → fld x.f.unit 4 16 = s.hub.gs.seq →
    s.hub.gs.root = none ∨ s.hub.gs.root = some (fld x.f.unit 39 17) → t1.toNat + 2 ^ s.hub.gs.perLog2 > x.tick.toNat →
    fld x.f.unit 37 2 = 2 ∨ fld x.f.unit 20 17 = 0 → fld x.f.unit 20 17 < 131071 →
    let a : Int := (fld x.f.unit 64 64 : Int) - t1.toNat; let b : Int := (x.tick.toNat : Int) - fld x.f.unit 128 64
    let th := (a - b).tdiv 2
    let w := u.modGs (fun g => { g with t1 := none, lastValid := s.clk.gtc, hops := fld x.f.unit 20 17 + 1, root := some (fld x.f.unit 39 17), offset := clampOff th, delay := min 0xFFFF ((a + b).tdiv 2).toNat })
    exec (.trspReceive p) s = .next (w.exchange th)) ∧
  (∀ (th : Int) (s : State),
    let g := s.hub.gs
    (g.st = .holdover → s.exchange th = s.modGs (fun g => { g with st := .acquire, good := 0, badN := 0 })) ∧
    (g.st = .locked → 16 < th.natAbs → 1 ≤ g.badN → s.exchange th = s.unlock .holdover) ∧
    (g.st = .locked → th.natAbs ≤ 16 → (s.exchange th).hub.gs.st = .locked) ∧
    (g.st = .acquire → th.natAbs ≤ 4 → (s.exchange th).hub.gs.st = if 7 ≤ g.good then .locked else .acquire) ∧
    (g.st = .acquire → 1000 < th.natAbs → s.anyRunning = false → (s.exchange th).clk.gtc = BitVec.ofInt 64 ((s.clk.gtc.toNat : Int) + th))) ∧
  (∀ (s : State), s.hub.gs.st = .locked → s.hub.gs.lastValid.toNat + 4 * 2 ^ s.hub.gs.perLog2 ≤ s.clk.gtc.toNat →
    exec .syncLossTimeout s = .next (s.unlock .holdover))

/-- The accounting window and the calibration interval: At the end of an accounting window, once the calibration intervals it holds have ended, one
record of kind 0 is written for each vat with a job that is counted, then one of kind 2, and the next window begins for all of them. At the end of a
calibration interval the measured energy is shared among the counted vats in proportion to their estimates, a ratio outside one half to two being
clamped, the rest going to the system, and every vat's interval begins anew. Where the estimate is zero the shown ratio is a free value. -/
def Obligations.Accounting : Prop :=
  (∀ (s : State), s.hub.acct.winIdx < s.clk.gtc.toNat / (s.hub.acct.perMs * 1000000) →
    s.clk.gtc.toNat / (s.hub.acct.perMs * 1000000) * s.hub.acct.perMs ≤ s.hub.acct.calIdx →
    let j := s.clk.gtc.toNat / (s.hub.acct.perMs * 1000000); let e : W64 := BitVec.ofNat 64 (j * (s.hub.acct.perMs * 1000000))
    let live := (List.range 16).filter (fun v => (s.vat v).jobValid && !(s.vat v).ac.stopped)
    let u := (live.foldl (fun s v => s.acctWrite v 0 e) s).acctWrite 0 2 e
    let w := live.foldl (fun s v => s.modVat v (fun x => { x with ac := { x.ac with acct0 := x.ac.acct, stk0 := x.ac.stk, from_ := e, clamp := false } })) u
    exec .accountingWindowEnd s = .next { w with hub := { w.hub with acct := { w.hub.acct with winIdx := j, from_ := e, sysEnergy0 := w.hub.acct.sysEnergy, clamp := false } } }) ∧
  (∀ (measured : Nat) (s : State), s.hub.acct.calIdx < s.clk.gtc.toNat / 1000000 →
    let a := s.hub.acct; let est := a.weights.get 0 15 * 1000 + ((List.range 16).map (fun v => (s.vat v).ac.raw a.weights)).foldl (· + ·) 0
    let live := (List.range 16).filter (fun v => (s.vat v).jobValid && !(s.vat v).ac.stopped)
    let low := decide (2 * measured < est); let high := decide (2 * est < measured); let clamp := low || high
    let num := if low then 1 else if high then 2 else measured; let den := if low then 2 else if high then 1 else est; let share := fun (v : Nat) => (s.vat v).ac.raw a.weights * num / den
    let u := live.foldl (fun s v => ((s.account v 21 (share v)).account v 22 ((s.vat v).ac.raw a.weights)).modVat v (fun x => { x with ac := { x.ac with clamp := x.ac.clamp || clamp } })) s
    let w := (List.range 16).foldl (fun s v => s.modVat v (fun x => { x with ac := { x.ac with acctCal := x.ac.acct, stkCal := x.ac.stk } })) u
    let sys := a.sysEnergy + BitVec.ofNat 64 (measured - (live.map share).foldl (· + ·) 0); let clamps := if clamp then satAdd top32 a.clamps 1 else a.clamps; let i := s.clk.gtc.toNat / 1000000
    (den = 0 → exec (.calibrationInterval measured) s = .next
      { w.drawFree.2 with hub := { w.drawFree.2.hub with acct := { a with sysEnergy := sys, clamp := a.clamp || clamp, calIdx := i, lastC := w.drawFree.1.toNat, clamps := clamps } } }) ∧
    (den ≠ 0 → exec (.calibrationInterval measured) s = .next
      { w with hub := { w.hub with acct := { a with sysEnergy := sys, clamp := a.clamp || clamp, calIdx := i, lastC := min top32 (num * 65536 / den), clamps := clamps } } }))

/-- Plain requests, refresh and scrub of a stack: An address has the place R355 gives it: every granule lies in one stack, and two consecutive
granules of one stack cover its 32 channels. A request whose bytes lie in one granule and that its granule admits reads the bytes when it is
admitted and is answered when its data is presented, or writes at its admission; a write that is not in whole 16 B words is a read-modify-write,
charged twice and acknowledged later. A request that is not admitted is answered with the status and logged. A refresh slot refreshes its rows,
rewrites the block the scrubber found and reads the next one; a bank refresh does the last two. A temperature that crosses 85 °C changes the
retention time and fires the stack's source. -/
def Obligations.StackRequests : Prop :=
  (∀ (who : StkWho) (at_ : Option Nat) (a n : Nat) (s : State), stackPacket a n = true → s.stkAdmit who a n false = eOk →
    let r : StkReq := { who := who, via := at_.map (edgeRouter (stackEdge a)), addr := a, data := s.stackRead a n, bad := s.stackBadOffs a n }
    let u := (s.noteStack (match who with | .vat v => some v | _ => s.stackOwner a) a n).stkCharge who 0 (chargeOf a n)
    exec (.stackRead (who, at_) a n) s = .next { u with mem := { u.mem with reads := u.mem.reads ++ [r] } }) ∧
  (∀ (k : Nat) (r : StkReq) (s : State), s.mem.reads[k]? = some r →
    exec (.stackReadReturn k) s = .next (({ s with mem := { s.mem with reads := s.mem.reads.eraseIdx k } } : State).send (.stackAnswer r.who r.via r.addr eOk r.data r.bad))) ∧
  (∀ (who : StkWho) (at_ : Option Nat) (a : Nat) (data : List Byte) (bad : List Nat) (s : State), stackPacket a data.length = true →
    s.stkAdmit who a data.length true = eOk →
    (a % 16 = 0 ∧ data.length % 16 = 0 → exec (.stackWrite (who, at_) a data bad) s =
      .next (((s.stackPut a data (fun i => bad.contains i)).stkCharge who 1 (chargeOf a data.length)).send (.stackAnswer who (at_.map (edgeRouter (stackEdge a))) a eOk [] []))) ∧
    (¬ (a % 16 = 0 ∧ data.length % 16 = 0) →
      let u := ((s.noteStack (match who with | .vat v => some v | _ => s.stackOwner a) a data.length).stackPut a data (fun i => bad.contains i)).stkCharge who 1 (2 * chargeOf a data.length)
      exec (.stackWrite (who, at_) a data bad) s = .next { u with mem := { u.mem with rmws := u.mem.rmws ++ [{ who := who, via := at_.map (edgeRouter (stackEdge a)), addr := a }] } })) ∧
  (∀ (who : StkWho) (at_ : Option Nat) (a n : Nat) (data : List Byte) (bad : List Nat) (s : State),
    (stackPacket a n = true → s.stkAdmit who a n false ≠ eOk → exec (.stackRead (who, at_) a n) s = .next (s.stkReject who (at_.map (edgeRouter (stackEdge a))) a (s.stkAdmit who a n false))) ∧
    (stackPacket a data.length = true → s.stkAdmit who a data.length true ≠ eOk → exec (.stackWrite (who, at_) a data bad) s = .next (s.stkReject who (at_.map (edgeRouter (stackEdge a))) a (s.stkAdmit who a data.length true))) ∧
    (∀ v st, (s.stackOwner a = some v → (s.vat v).st = .wiping → st = eState → (who = .vat v ∨ who = .mgmt) → s.stkAdmit who a n false = st) ∧ (who = .vat v → s.stackOwner a ≠ some v → s.stkAdmit who a n false = ePermission))) ∧
  (∀ (k : Nat) (r : StkReq) (s : State), s.mem.rmws[k]? = some r →
    exec (.readModifyWriteAck k) s = .next (({ s with mem := { s.mem with rmws := s.mem.rmws.eraseIdx k } } : State).send (.stackAnswer r.who r.via r.addr eOk [] []))) ∧
  (∀ (i : Nat) (s : State), i < 8 → s.pwr.asleep = false → s.boot.wiped = true ∨ (s.stk i).hot = true →
    (s.hub.refEn = false → exec (.bankRefresh i) s = .next ((s.scrubRewrite i).scrubRead i)) ∧
    (∀ t, s.hub.refEn = true → s.slotNow = some t → (s.stk i).slotAt ≠ some t → exec (.refreshSlot i) s = .next (((s.modStk i (fun x => { x with rows := s.slotRows i, slotAt := some t })).scrubRewrite i).scrubRead i)) ∧
    (∀ t, s.slotNow = some t ↔ s.clk.gtc.toNat % s.hub.refPeriod < s.hub.refLen ∧ t = s.clk.gtc.toNat - s.clk.gtc.toNat % s.hub.refPeriod)) ∧
  (∀ (a b : Nat),
    let l := a / 2 ^ 15 * 4096 + a % 4096; let q := l / 2 ^ 13
    stackPlace a = { stack := a / 4096 % 8, chan := l / 256 % 32, bank := q % 48, layer := q % 48 / 4, col := q / 48 % 8, row := q / 384 } ∧
    (a / 4096 = b / 4096 → stackOf a = stackOf b) ∧ (∀ g c, g % 2 = 0 → c < 32 → (stackPlace (2 ^ 15 * (g + c / 16) + 256 * (c % 16))).chan = c)) ∧
  (∀ (i t : Nat) (s : State), i < 8 →
    let hot := decide (85 < t); let u := s.modStk i (fun x => { x with temp := min t 255, hot := hot })
    exec (.stackTempRead i t) s = .next (if hot = (s.stk i).hot then u else u.fire (651 + i)))

/-- The life of a stack engine command: A record of another size or place is no command and answered with E_FORMAT; another is accepted or refused
by its checks. The oldest waiting command of a vat starts when those before it have run or are set aside. At an exchange a command that decided,
scanned or summed goes on; each engine answers once all have done their share, the eighth answer publishes the version; a set-aside update starts
when its target is free; with eight answers the command leaves the store and its issuer is answered. VDEF defines a region or frees it, VPIN pins
the slot it finds and writes its base, number and epoch, VUNPIN unpins it. -/
def Obligations.StackCommands : Prop :=
  (∀ (b : StkBy) (v off : Nat) (data : List Byte) (bad : List Nat) (s : State),
    let ok := data.length = 128 ∧ off % 128 = 0 ∧ off < 4096
    (ok → exec (.stackCommand b v off data bad) s = .next (s.stkAccept b v (leNat data) (!bad.isEmpty))) ∧
    (¬ ok → exec (.stackCommand b v off data bad) s = .next ((s.send (.commandAnswer b eFormat)).log (srcHub 6) evRefused eFormat (some v) off 0))) ∧
  (∀ (b : StkBy) (v r : Nat) (s : State), (s.mem.cmds.filter (fun k => k.vat == v)).length < 16 → (s.vat v).st ≠ .wiping → (s.vat v).st ≠ .faulted →
    s.recordCheck v r = eOk →
    let k : StkCmd := { id := s.mem.nextCmd, vat := v, by_ := b, rec_ := r }
    s.stkAccept b v r false = { s with mem := { s.mem with cmds := s.mem.cmds ++ [k], nextCmd := s.mem.nextCmd + 1 } }) ∧
  (∀ (v : Nat) (k : StkCmd) (s : State), (s.mem.cmds.filter (fun k => k.vat == v)).find? (fun k => k.stage == .queued) = some k →
    (s.vat v).tw.busy = false ∨ k.id < (s.vat v).tw.cmdLine →
    ((s.mem.cmds.filter (fun k => k.vat == v)).takeWhile (fun k => k.stage != .queued)).all (fun j => j.stage == .ran || j.stage == .aside) = true →
    exec (.stackCommandStart v) s = .next (s.stkStart k) ∧ (rVout k.rec_ = false → s.stkStart k = s.setCmd { k with stage := .ready })) ∧
  (∀ (id : Nat) (k : StkCmd) (s : State), s.stkCmd id = some k →
    (k.stage = .decide → exec (.controllerRingExchange id) s = .next (s.setCmd { k with stage := .ready })) ∧
    (k.stage = .scanned → exec (.controllerRingExchange id) s = .next (if k.poisoned then s.stkRan k ePoison else s.setCmd { k with stage := .go })) ∧
    (k.stage = .summed → exec (.controllerRingExchange id) s = .next (s.setCmd { k with stage := .total }))) ∧
  (∀ (id i : Nat) (k : StkCmd) (s : State), s.stkCmd id = some k → k.stage = .ran → i < 8 → k.ans.has i = false →
    let k1 := { k with ans := k.ans.add i }
    exec (.stackShareComplete id i) s = .next (if k1.ans.length = 8 then (s.setCmd k1).stkPublish k1 else s.setCmd k1)) ∧
  (∀ (k : StkCmd) (s : State), rVout k.rec_ = true → k.poisoned = false → k.status = eOk → k.target = 1 → (s.ver (rRegion k.rec_)).cur = 0 →
    s.stkPublish k = s.modVer (rRegion k.rec_) (fun y => { y.setValid 1 true with upd := false, cur := 1, epoch1 := y.epoch y.cur + 1 })) ∧
  (∀ (id : Nat) (k : StkCmd) (s : State), s.stkCmd id = some k → k.stage = .aside → (s.ver (rRegion k.rec_)).upd = false →
    (s.ver (rRegion k.rec_)).pins (1 - (s.ver (rRegion k.rec_)).cur) = 0 →
    exec (.setAsideRelease id) s = .next (s.decide_ k)) ∧
  (∀ (id : Nat) (k : StkCmd) (s : State), s.stkCmd id = some k → k.ans.length = 8 → rOptim k.rec_ = false ∨ k.poisoned = false →
    let u := ({ s with mem := { s.mem with cmds := s.mem.cmds.filter (fun j => j.id != id) } } : State).stkAnswer k
    exec (.stackCommandComplete id) s = .next ((u.yieldEnd k.vat).twinGo k.vat)) ∧
  (∀ (id : Nat) (k : StkCmd) (y : VerEnt) (s : State), s.stkCmd id = some k → rOp k.rec_ = 0x10 → k.stage = .ready → y = s.ver (rRegion k.rec_) →
    y.bad = false → y.defined = false ∨ y.vat = k.vat → y.allows k.rec_ = true →
    exec (.vdef id) s = .next ((s.setVer (rRegion k.rec_) (if rN k.rec_ = 0 then {} else
      { defined := true, vat := k.vat, size := rN k.rec_, base0 := slAddr (rSlot k.rec_ 0), base1 := slAddr (rSlot k.rec_ 1), valid0 := true })).stkRan k eOk)) ∧
  (∀ (id i : Nat) (k : StkCmd) (y : VerEnt) (s : State), s.stkCmd id = some k → rOp k.rec_ = 0x11 → k.stage = .ready → y = s.ver (rRegion k.rec_) →
    y.bad = false → y.defined = false ∨ y.vat = k.vat → y.allows k.rec_ = true → y.find (bit (rAux k.rec_) 0) (slAddr (rSlot k.rec_ 1)) = some i →
    let a := slAddr (rSlot k.rec_ 0)
    exec (.vpin id) s = .next ((((s.setVer (rRegion k.rec_) (y.setPins i (y.pins i + 1))).stkWrite k.vat a (leBytes 16 (y.base i + i * 2 ^ 48 + (y.epoch i).toNat * 2 ^ 64)) []).chargeRange k.vat 0 a 16).stkRan k eOk)) ∧
  (∀ (id i : Nat) (k : StkCmd) (y : VerEnt) (s : State), s.stkCmd id = some k → rOp k.rec_ = 0x12 → k.stage = .ready → y = s.ver (rRegion k.rec_) →
    y.bad = false → y.defined = false ∨ y.vat = k.vat → y.allows k.rec_ = true → y.find false (slAddr (rSlot k.rec_ 1)) = some i →
    exec (.vunpin id) s = .next ((s.setVer (rRegion k.rec_) (y.setPins i (y.pins i - 1))).stkRan k eOk))

/-- The element engines of the stacks: A command that is ready, past its prescan or past its exchange runs its op on all its elements: ACCUM adds up
to four scaled sources on the FP32 path or records on the exact path, CONVERT converts and prunes, ADAM, SGD and LAMB update weights and moments,
SUMSQ and the first phase of LAMB form sums by stack. The inputs are read and charged, the elements written, the flags raised, and every engine has
done its share. An optimizer with prescan first reads its inputs and exchanges whether one is poisoned. -/
def Obligations.StackEngines : Prop :=
  (∀ (id : Nat) (k : StkCmd) (s : State), s.stkCmd id = some k → rOp k.rec_ = 0x01 → k.stage = .ready ∨ k.stage = .go ∨ k.stage = .total →
    let r := k.rec_; let d := elemOpnd (rSlot r 0) (rN r)
    let t := (List.range (rN r)).foldl (fun (t : WBuf × BitVec 8 × NSet) i =>
      if t.2.2.has (homeOf r i) then t
      else match (if slFmt (rSlot r 0) = 10 then s.accumExact r i else some (s.accumFp r i)) with
        | none => (t.1, t.2.1, t.2.2.add (homeOf r i))
        | some x => (t.1.elem d i x.1.1 x.2, t.2.1 ||| x.1.2, t.2.2)) ([], (0 : BitVec 8), [])
    exec (.accum id) s = .next (((((s.readOpnds k.vat (homeOf r) (readsOf r)).flush k.vat t.1).orStk k.vat t.2.1).chargeOut k.vat (homeOf r) [d]).stkRan k (if t.2.2.isEmpty then eOk else eFormat))) ∧
  (∀ (id : Nat) (k : StkCmd) (s : State), s.stkCmd id = some k → rOp k.rec_ = 0x02 → k.stage = .ready ∨ k.stage = .go ∨ k.stage = .total →
    bit (rAux k.rec_) 0 = false →
    let r := k.rec_; let x := rSlot r; let n := rN r
    let es := (List.range n).map (fun i => s.elemIn (slFmt (x 1)) (elemOpnd (x 1) n) (scaleOpnd (x 3) n) i)
    let q := (s.readOpnds k.vat (homeOf r) (readsOf r)).putConv k.vat r (slFmt (x 0)) (elemOpnd (x 0) n) (scaleOpnd (x 2) n) [] (es.map (fun e => some (e.1.1, e.2)))
    exec (.convert id) s = .next (((((s.readOpnds k.vat (homeOf r) (readsOf r)).flush k.vat q.1).orStk k.vat (es.foldl (fun f e => f ||| e.1.2) 0 ||| q.2)).chargeOut k.vat (homeOf r) ((operands r 0).filter (·.outp))).stkRan k eOk)) ∧
  (∀ (id : Nat) (k : StkCmd) (s : State), s.stkCmd id = some k → rOp k.rec_ = 0x02 → k.stage = .ready ∨ k.stage = .go ∨ k.stage = .total →
    bit (rAux k.rec_) 0 = true →
    let r := k.rec_; let x := rSlot r; let n := rN r; let y := s.readOpnds k.vat (homeOf r) (readsOf r)
    let es := (List.range n).map (fun i => s.elemIn (slFmt (x 1)) (elemOpnd (x 1) n) (scaleOpnd (x 3) n) i); let vals := es.map (fun e => (e.1.1, e.2)); let g := y.sp24Groups (vals.map (·.1))
    let outs := g.1.zipIdx.flatMap (fun p => [vals.getD (4 * p.2 + p.1.1) (0, false), vals.getD (4 * p.2 + p.1.2) (0, false)])
    let q := y.putConv k.vat r (slFmt (x 0)) (elemOpnd (x 0) (n / 2)) (scaleOpnd (x 2) n) [] (outs.map some)
    let pair := fun m => let lo := g.1.getD (2 * m) (0, 1); let hi := g.1.getD (2 * m + 1) (0, 1); lo.1 + 4 * lo.2 + 16 * hi.1 + 64 * hi.2
    let b := ((List.range (n / 8)).map (fun m => (slAddr (x 4) + m, pair m, ((vals.drop (8 * m)).take 8).any (·.2)))).foldl (fun (t : WBuf) p => t.byte p.1 p.2.1 255 p.2.2) q.1
    exec (.convert id) s = .next ((sp24Charge ((g.2.flush k.vat b).orStk k.vat (es.foldl (fun f e => f ||| e.1.2) 0 ||| q.2)) k.vat r g.1).stkRan k eOk)) ∧
  (∀ (i : Instr) (id : Nat) (k : StkCmd) (s : State), s.stkCmd id = some k →
    (i = .adam id ∧ rOp k.rec_ = 3) ∨ (i = .lamb id ∧ rOp k.rec_ = 4) ∨ (i = .sgd id ∧ rOp k.rec_ = 5) → k.stage = .ready → rPrescan k.rec_ = true →
    exec i s = .next ((s.readOpnds k.vat (homeOf k.rec_) (readsOf k.rec_)).setCmd { k.meet (s.optScan k.rec_) with stage := .scanned })) ∧
  (∀ (id : Nat) (k : StkCmd) (s : State), s.stkCmd id = some k → rOp k.rec_ = 3 → (k.stage = .ready ∧ rPrescan k.rec_ = false) ∨ k.stage = .go →
    let r := k.rec_; let es := s.optElems r (fun x => adamElem r x.w x.m x.v x.g)
    exec (.adam id) s = .next (((s.readOpnds k.vat (homeOf r) (readsOf r)).optWrite k.vat k true true es).stkRan (k.meet (s.optScan r)) (if (k.meet (s.optScan r)).poisoned then ePoison else eOk))) ∧
  (∀ (id : Nat) (k : StkCmd) (s : State), s.stkCmd id = some k → rOp k.rec_ = 5 → (k.stage = .ready ∧ rPrescan k.rec_ = false) ∨ k.stage = .go →
    let r := k.rec_; let es := s.optElems r (fun x => sgdElem r x.w x.m x.g)
    exec (.sgd id) s = .next (((s.readOpnds k.vat (homeOf r) (readsOf r)).optWrite k.vat k true true es).stkRan (k.meet (s.optScan r)) (if (k.meet (s.optScan r)).poisoned then ePoison else eOk))) ∧
  (∀ (id : Nat) (k : StkCmd) (s : State), s.stkCmd id = some k → rOp k.rec_ = 4 → (k.stage = .ready ∧ rPrescan k.rec_ = false) ∨ k.stage = .go →
    let r := k.rec_; let es := s.optElems r (fun x => adamMoments r x.w x.m x.v x.g)
    exec (.lamb id) s = .next (((s.readOpnds k.vat (homeOf r) (readsOf r)).optWrite k.vat k false true es).setCmd { k.meet (s.optScan r) with stage := .summed, sums := lambSums r es })) ∧
  (∀ (id : Nat) (k : StkCmd) (s : State), s.stkCmd id = some k → rOp k.rec_ = 4 → k.stage = .total →
    let r := k.rec_; let q := lambRatio (sumStacks k.sums 0) (sumStacks k.sums 1) (rScalar r 8); let es := s.optElems r (fun x => lambElem r q.1 x.w x.m x.v)
    exec (.lamb id) s = .next (((((s.readOpnds k.vat (homeOf r) ((readsOf r).take 3)).orStk k.vat q.2).optWrite k.vat k true false es).stkRan k (if k.poisoned then ePoison else eOk)))) ∧
  (∀ (id : Nat) (k : StkCmd) (s : State), s.stkCmd id = some k → rOp k.rec_ = 6 → k.stage = .total →
    let bad := k.sums.get 0 16 != 0; let res := sumStacks k.sums 0 + k.sums.get 0 16 * 2 ^ 64 + k.sums.get 0 17 * 2 ^ 65
    exec (.sumsq id) s = .next (((s.stkWrite k.vat (slAddr (rSlot k.rec_ 0)) (leBytes 16 res) (if bad then List.range 16 else [])).chargeAcc k.vat (1, 0)).stkRan k eOk)) ∧
  (∀ (id : Nat) (k : StkCmd) (s : State), s.stkCmd id = some k → rOp k.rec_ = 6 → k.stage = .ready ∨ k.stage = .go →
    let r := k.rec_; let n := rN r; let o := elemOpnd (rSlot r 1) n; let f := slFmt (rSlot r 1)
    let t := (List.range n).foldl (fun (t : Table Nat × BitVec 8) i =>
      let x : FRes × Bool := if f = 9 then ((0, 0), s.elemBad o i) else s.elemIn f o (scaleOpnd (rSlot r 6) n) i; let y := if f = 9 then decodeElem 9 (s.elemEnc o i) else f32 x.1.1
      let a := t.1.upd 0 (2 * homeOf r i) (fun a => f64AddSq a y); let b := if x.2 then a.put 16 1 else a
      (if (y.isNan || (match y with | .inf _ => true | _ => false)) then b.put 17 1 else b, t.2 ||| x.1.2 ||| (if y.isNan then fNanIn else 0))) ([], (0 : BitVec 8))
    exec (.sumsq id) s = .next (((s.readOpnds k.vat (homeOf r) (readsOf r)).orStk k.vat t.2).setCmd { k with stage := .summed, sums := t.1 }))

/-- The row and page engines of the stacks: GATHER copies the rows its list names, SCATTER_ADD adds rows in list order, both skipping 0xFFFFFFFF; a
list with another index is refused with E_RANGE. KVCOPY copies 16 KB pages after its pairs pass their checks. A poisoned index or pair poisons the
whole destination. WIPE writes zeros and clears every poison mark. All are charged by what they move. -/
def Obligations.StackMoves : Prop :=
  (∀ (id : Nat) (k : StkCmd) (s : State), s.stkCmd id = some k → rOp k.rec_ = 0x08 → k.stage = .ready ∨ k.stage = .go ∨ k.stage = .total →
    let r := k.rec_; let l := s.indexList r; let w := rowb r; let y := s.readList k.vat (slAddr (rSlot r 2)) (4 * rN r)
    (indexOk r l = false → exec (.gather id) s = .next (y.stkRefuse k eRange)) ∧
    (indexOk r l = true → exec (.gather id) s = .next ((l.zipIdx.foldl (fun z p =>
      if p.1.1 = 0xFFFFFFFF then z
      else
        let a := slAddr (rSlot r 1) + p.1.1 * w; let d := slAddr (rSlot r 0) + p.2 * w; let bad := if p.1.2 then List.range w else s.stackBadOffs a w
        let x := (z.noteStack (some k.vat) a w).chargeAcc k.vat (chargeOf a w / 256, 0)
        (x.stkWrite k.vat d (s.stackRead a w) bad).chargeRow k.vat a w d w) y).stkRan k eOk))) ∧
  (∀ (id : Nat) (k : StkCmd) (s : State), s.stkCmd id = some k → rOp k.rec_ = 0x09 → k.stage = .ready ∨ k.stage = .go ∨ k.stage = .total →
    let r := k.rec_; let l := s.indexList r; let w := rowb r; let y := s.readList k.vat (slAddr (rSlot r 2)) (4 * rN r)
    let m := rowElems r; let f := slFmt (rSlot r 1); let src := elemOpnd (rSlot r 1) (rN r * m); let srow := m * fmtBits f / 8
    (indexOk r l = false → exec (.scatterAdd id) s = .next (y.stkRefuse k eRange)) ∧
    (indexOk r l = true → exec (.scatterAdd id) s = .next ((l.zipIdx.foldl (fun z p =>
      if p.1.1 = 0xFFFFFFFF then z
      else
        let a := slAddr (rSlot r 0) + p.1.1 * w; let b := slAddr (rSlot r 1) + p.2 * srow; let t : Opnd := { base := a, bits := 32, cnt := m }
        let es := (List.range m).map (fun i => let x := s.elemIn f src {} (p.2 * m + i); let q := fAdd (z.elemEnc t i) x.1.1; (q.1, x.1.2 ||| q.2, p.1.2 || x.2 || z.elemBad t i))
        let x := (((z.noteStack (some k.vat) a w).noteStack (some k.vat) b srow).chargeAcc k.vat (2 * (chargeOf a w / 256), 0)).chargeRow k.vat a w b srow
        (x.stkWrite k.vat a (es.flatMap (fun e => leBytes 4 e.1)) ((es.zipIdx.filter (fun e => e.1.2.2)).flatMap (fun e => (List.range 4).map (4 * e.2 + ·)))).orStk k.vat (es.foldl (fun g e => g ||| e.2.1) 0)) y).stkRan k eOk))) ∧
  (∀ (id : Nat) (k : StkCmd) (s : State), s.stkCmd id = some k → rOp k.rec_ = 0x0A → k.stage = .ready ∨ k.stage = .go ∨ k.stage = .total →
    let r := k.rec_; let l := s.kvPairs r; let y := s.readList k.vat (slAddr (rSlot r 0)) (16 * rN r); let st := s.kvCheck k.vat l
    (st ≠ eOk → exec (.kvcopy id) s = .next (y.stkRefuse k st)) ∧
    (st = eOk → exec (.kvcopy id) s = .next ((l.foldl (fun z p =>
      let d := p.1; let a := p.2.1; let bad := if p.2.2.2 then List.range 16384 else s.stackBadOffs a 16384
      let x := ((z.noteStack (some k.vat) a 16384).chargeAcc k.vat (64, 0)).stkWrite k.vat d (s.stackRead a 16384) bad
      x.chargeAcc k.vat (if bit d 14 == bit a 14 then (64, 0) else (0, 64))) y).stkRan k eOk))) ∧
  (∀ (id : Nat) (k : StkCmd) (s : State), s.stkCmd id = some k → rOp k.rec_ = 0x0B → k.stage = .ready ∨ k.stage = .go ∨ k.stage = .total →
    let a := slAddr (rSlot k.rec_ 0); let n := rN k.rec_
    exec (.wipe id) s = .next (((s.wipeRange k.vat a n).chargeAcc k.vat (n / 256, 0)).stkRan k eOk))

/-- The couch reset and the format advisor: VAT_COUCH_CTL.reset clears the top pointers of the vat's cores unless the vat is LOADING, RUNNING or
STOPPING. LOAD reads the policy records inside the vat's regions and sets each slot's exponent origin with empty banks. CLOSE freezes the live banks
and writes a verdict for each slot; when its writes are acknowledged the status stands and the counter is raised. A close of a slot with a
well-formed enabled record stores the verdict of its bank and writes its 16 bytes; a malformed record is counted. -/
def Obligations.CouchAndAdvisor : Prop :=
  (∀ (v : Nat) (s : State), v < 16 →
    let shut := (s.vat v).st = .loading ∨ (s.vat v).st = .running ∨ (s.vat v).st = .stopping
    (shut → exec (.couchReset v) s = .next (s.log (srcVat v) evRefused eState (some v) 0 0)) ∧
    (¬ shut → exec (.couchReset v) s = .next { s with net := { s.net with couchTop := s.net.couchTop.filter (fun p => !(s.owns v (p.1 / 64))) } })) ∧
  (∀ (v x : Nat) (y : Vat) (s u : State), v < 16 → u = s.advCtl v x → y = u.vat v → (y.st = .free ∧ y.jobValid = true) ∨ y.st = .ready →
    u.advBad v = false → y.advCount = 0 ∨ u.stackWithin v y.advBase (32 * y.advCount) = true → u.stackBad y.advBase (32 * y.advCount) = false →
    let a := y.advBase; let n := 32 * y.advCount
    let w := (u.noteStack (some v) a n).accountStk v 0 (chargeOf a n)
    exec (.advLoad v x) s = .next (((List.range y.advCount).foldl (fun z i => z.setAdv (y.advFirst + i) { eo := polEo (z.stackNat (a + 32 * i) 32) }) w).modVat v (fun z => { z with advStatus := eOk }))) ∧
  (∀ (v x : Nat) (y : Vat) (s u : State), v < 16 → u = s.advCtl v x → y = u.vat v →
    let right := (y.st = .free ∧ y.jobValid = true) ∨ y.st = .ready
    (¬ right → exec (.advLoad v x) s = .next (u.advRefuse v eState)) ∧
    (right → u.advBad v = false → y.advCount ≠ 0 → u.stackWithin v y.advBase (32 * y.advCount) = false → exec (.advLoad v x) s = .next (u.advRefuse v ePermission)) ∧
    (y.st ≠ .ready ∨ y.advBusy = true → exec (.advClose v x) s = .next (u.advRefuse v eState))) ∧
  (∀ (v x : Nat) (y : Vat) (s u : State), v < 16 → u = s.advCtl v x → y = u.vat v → y.st = .ready → y.advBusy = false → u.advBad v = false →
    let w := (y.advSlots.foldl (fun z j => z.modAdv j (fun a => { a with frozen := a.live, live := [] })) u).modVat v (fun z => { z with advBusy := true, advEnd := eOk, advCloses := z.advCloses + 1 })
    exec (.advClose v x) s = .next ((List.range y.advCount).foldl (fun z i => z.advClose1 v i) w)) ∧
  (∀ (v i r : Nat) (x : Vat) (s : State), x = s.vat v → x.advEnd = eOk → s.stackWithin v (x.advBase + 32 * i) 32 = true →
    s.stackWithin v (x.advBase + 0x20000 + 16 * i) 16 = true → s.stackBad (x.advBase + 32 * i) 32 = false → r = s.stackNat (x.advBase + 32 * i) 32 →
    polDump r = false →
    let u := (s.noteStack (some v) (x.advBase + 32 * i) 32).accountStk v 0 256; let j := x.advFirst + i; let q := u.advVerdict (s.adv j) r x.advCloses.toNat
    let w := (q.2.2.setAdv j { q.1 with verdict := some q.2.1 }).modVat v (fun y => { y with advBadPolicy := if polOk r then y.advBadPolicy else satAdd top16 y.advBadPolicy 1 })
    s.advClose1 v i = (w.stackPut (x.advBase + 0x20000 + 16 * i) (leBytes 16 q.2.1) (fun _ => false)).accountStk v 1 256) ∧
  (∀ (r n : Nat) (y : AdvSlot) (s : State), polOk r = true → polEn r = true → (advEval r y.eo y.frozen).empty = false → y.verdict = some n →
    let e := advEval r y.eo y.frozen; let a := advAdopt y (polHyst r) e; let f := polCand r a.1
    (s.advVerdict y r 0) = ({ y with adopted := some a.1, streak := a.2 }, advWord f (b2n (fld n 0 5 != f)) a.2 e (b2n (bankSat y.frozen) * 2 ^ 18), s)) ∧
  (∀ (v : Nat) (s : State), (s.vat v).advBusy = true →
    let x := s.vat v; let u := s.modVat v (fun y => { y with advBusy := false, advStatus := y.advEnd }); let w := if x.advEnd = eOk then u else u.log (srcVat v) evRefused x.advEnd (some v) 0 0
    exec (.advCloseComplete v) s = .next (if x.advCtrEn then (w.addOutside x.advCtr 1).1 else w))

/-- The batcher's commands: A slot command takes its slot through Table 13.3, or is refused with the table's status; behind a busy STEP it is held,
up to 64. STEP applies the outcomes of the previous list, lets the flags take effect, builds the new list from the candidates within the token
budget and writes its records; STEP_NOADV leaves the outcomes out; the STEP ends when its writes are acknowledged, and the held commands follow.
RESET clears prev. A read of BAL_NEXT hands out the next row of the member, or none. -/
def Obligations.Batcher : Prop :=
  (∀ (v slot arg : Nat) (s : State), (s.planOf v).valid = true → (s.vat v).tw.standby = false → (s.vat v).heldOrLater = false →
    ∀ p ∈ ([(.seqAdmit v slot, { op := 1, slot := slot, image := (s.vat v).bt.stage, arg := 0 }), (.pause v slot, { op := 2, slot := slot, image := (s.vat v).bt.stage, arg := 0 }), (.seqResume v slot, { op := 3, slot := slot, image := (s.vat v).bt.stage, arg := 0 }),
      (.seqStop v slot, { op := 4, slot := slot, image := (s.vat v).bt.stage, arg := 0 }), (.retire v slot, { op := 5, slot := slot, image := (s.vat v).bt.stage, arg := 0 }), (.grow v slot arg, { op := 6, slot := slot, image := (s.vat v).bt.stage, arg := arg % 2 ^ 16 })] : List (Instr × SeqReq)),
      ((s.vat v).bt.busy = false → exec p.1 s = .next (s.seqApply v p.2)) ∧
      ((s.vat v).bt.busy = true → (s.vat v).bt.held.length < 64 → exec p.1 s = .next (s.setVat v { s.vat v with bt := { (s.vat v).bt with held := (s.vat v).bt.held ++ [p.2] } })) ∧
      ((s.vat v).bt.busy = true → 64 ≤ (s.vat v).bt.held.length → exec p.1 s = .next (s.seqAnswer v p.2 eState 0))) ∧
  (∀ (v slot arg : Nat) (s : State) (y : Seq), (s.vat v).inRange slot = true → y = s.seqSlot slot → y.bad = false →
    let q := fun (op : Nat) => ({ op := op, slot := slot, image := (s.vat v).bt.stage, arg := arg } : SeqReq); let gives := fun (op : Nat) (z : Seq) => s.seqCommand v (q op) = .ok (z, false)
    (y.st = .pending → gives 2 { y with st := .paused } ∧ gives 4 { y with st := .done, reason := 3 } ∧ gives 6 { y with ptPages := arg }) ∧
    (y.st = .active → gives 2 { y with pauseReq := true } ∧ gives 3 { y with pauseReq := false } ∧ gives 4 { y with stopReq := true } ∧ (y.ptPages ≤ arg → gives 6 { y with ptPages := arg })) ∧
    (y.st = .paused → gives 4 { y with st := .done, reason := 3 } ∧ gives 5 {}) ∧ (y.st = .done → gives 5 {}) ∧
    (y.st = .empty → ∀ op, 2 ≤ op → op ≠ 7 → s.seqCommand v (q op) = .error eState) ∧ s.seqCommand v (q 0) = .error eFormat ∧ s.seqCommand v (q 7) = .error eFormat) ∧
  (∀ (v : Nat) (q : SeqReq) (s : State),
    (∀ y, s.seqCommand v q = .ok (y, true) → s.seqApply v q = ((s.setSeqSlot q.slot y).modVat v (fun x => { x with bt := { x.bt with admitNext := x.bt.admitNext + 1 } })).seqAnswer v q eOk y.admitNo) ∧
    (∀ e, s.seqCommand v q = .error e → e ≠ ePoison → s.seqApply v q = s.seqAnswer v q e 0)) ∧
  (∀ (v : Nat) (src : Src) (k : Caller) (s u : State), (match src with | .host r => ∃ c, (s.ring r).nextCmd = some c ∧ fld c.entry 64 2 = 1 | _ => True) → s.taken src 0x0A v = some (u, k) →
    exec (.step v src) s = .next (u.stepGo v k true)) ∧
  (∀ (v : Nat) (src : Src) (k : Caller) (s u : State), (match src with | .host r => ∃ c, (s.ring r).nextCmd = some c ∧ fld c.entry 64 2 = 2 | _ => True) → s.taken src 0x0A v = some (u, k) →
    exec (.stepNoadv v src) s = .next (u.stepGo v k false)) ∧
  (∀ (v : Nat) (src : Src) (k : Caller) (s u : State), (match src with | .host r => ∃ c, (s.ring r).nextCmd = some c ∧ fld c.entry 64 2 = 3 | _ => True) → s.taken src 0x0A v = some (u, k) →
    let x := u.vat v; let ok := x.tw.standby = false ∧ x.heldOrLater = false
    (¬ ok → exec (.batchReset v src) s = .next (u.stepRefuse v k eState 0)) ∧
    (ok → exec (.batchReset v src) s = .next ((u.setVat v { x with bt := { x.bt with prev := false, status := if x.bt.busy then x.bt.status else eOk } }).hostFinish k.host eOk x.bt.steps.toNat 0))) ∧
  (∀ (v : Nat) (k : Caller) (adv : Bool) (s : State),
    let x := s.vat v
    ((x.st ≠ .ready ∧ (x.st ≠ .free ∨ x.jobValid = false)) ∨ x.bt.busy = true ∨ x.tw.standby = true ∨ x.heldOrLater = true → s.stepGo v k adv = s.stepRefuse v k eState 0)) ∧
  (∀ (v : Nat) (k : Caller) (adv : Bool) (x : Vat) (s : State), x = s.vat v → x.st = .ready ∨ (x.st = .free ∧ x.jobValid = true) →
    x.bt.busy = false → x.tw.standby = false → x.heldOrLater = false →
    ((List.range x.btCount).map (x.btFirst + ·)).any (fun i => (s.seqSlot i).bad) = false →
    adv = false ∨ x.bt.prev = false ∨ s.badOutcome x.bt.base ((s.outRows v).map (fun p => (p.1, p.2.2))) = none →
    let b := x.bt; let inside := s.stackWithin v b.base stepAreaSize; let slots := (List.range x.btCount).map (x.btFirst + ·); let active := fun (t : Table Seq) => (slots.filter (fun i => (t.get {} i).st == .active)).length
    let t := s.stepSlots v adv; let l := (candidates t x.btFirst x.btCount b.rot).foldl (StepList.add b (min b.tokens b.maxBkt)) { seqs := t, rot := b.rot }
    let left := active s.hub.seqs - active t; let starved := active t - (l.rows.filter (fun r => !r.2.2.1)).length - l.nopageActive; let rows := l.rows.flatMap (fun r => rowBytesOf (l.seqs.get {} r.1) r)
    let c := { b with busy := true, rot := l.rot, starved := satAdd top16 b.starved starved, nopage := satAdd top16 b.nopage l.nopage, left := satAdd top16 b.left left, joined := satAdd top16 b.joined l.joined, host := k.host, list := if inside then l.rows.map (fun r => (r.1, r.2.1)) else b.list, endStatus := if inside then eOk else ePermission }
    let w := ({ s with hub := { s.hub with seqs := l.seqs } } : State).setVat v { x with bt := c }
    s.stepGo v k adv = if inside then (w.stackPut (b.base + 0x1000) rows (fun _ => false)).stackPut b.base (stepHeader b l left rows) (fun _ => false) else w) ∧
  (∀ (v : Nat) (s : State), (s.vat v).bt.busy = true → (s.vat v).bt.endStatus = eOk →
    let x := s.vat v; let b := x.bt; let u := s.setVat v { x with bt := { b with busy := false, prev := true, steps := b.steps + 1, status := eOk, host := none, held := [] } }
    let w := if b.ctrEn then (u.addOutside b.ctr 1).1 else u
    exec (.stepComplete v) s = .next (b.held.foldl (fun z q => z.seqApply v q) ((w.autoCommit v).hostFinish b.host eOk b.steps.toNat 0))) ∧
  (∀ (v g m : Nat) (s : State), m < (s.vat v).balGroup.get 0 g →
    (∀ r, s.balPick v g m = some r → exec (.balNext v g m) s = .next ((s.modVat v (fun x => { x with balPos := x.balPos.put r.1 (x.balPos.get 0 r.1 + 1) })).send (.regData 0 r.2))) ∧
    (s.balPick v g m = none → exec (.balNext v g m) s = .next (s.send (.regData 0 (2 ^ 13)))))

/-- The command rings of the host: A doorbell of a ring's own function is taken when it is a 4-byte write below the ring's size to an enabled ring:
SQ_TAIL lets entries be fetched, CQ_HEAD frees records, SHEET starts the vat at once; another is counted and logged. Entries that arrive stand in
the ring in their order; a failed read halts fetching. A record is written while the completion ring has room, with its interrupt. A disabled ring,
a Function Level Reset, a Hot Reset and a fallen link stop rings as R530 gives. Before the seal nothing is served, and in SLEEP a request asks for a
wake. NOP completes. -/
def Obligations.HostRings : Prop :=
  (∀ (fn r len x : Nat) (s : State), s.hostOpen = false →
    exec (.sqTail fn r len x) s = .next s.hostAsk ∧
    exec (.cqHead fn r len x) s = .next s.hostAsk ∧
    exec (.sheet fn r len x) s = .next s.hostAsk ∧
    s.hostAsk = if s.pwr.asleep then { s with pwr := { s.pwr with wakeAsk := true } } else s) ∧
  (∀ (fn r len x : Nat) (s : State), s.hostOpen = true → s.ownsRing fn r = true → (s.ring r).dbOk len x = false →
    exec (.sqTail fn r len x) s = .next (s.dbRefuse fn eRange) ∧
    exec (.cqHead fn r len x) s = .next (s.dbRefuse fn eRange) ∧
    exec (.sheet fn r len x) s = .next (s.dbRefuse fn eRange)) ∧
  (∀ (fn r len x : Nat) (s : State), s.hostOpen = true → s.ownsRing fn r = true → (s.ring r).dbOk len x = true →
    exec (.sqTail fn r len x) s = .next ((s.modRing r (fun y => { y with sqTail := x })).ringFetch r) ∧
    exec (.cqHead fn r len x) s = .next (s.modRing r (fun y => { y with cqHead := x, cqUsed := y.cqUsed - (x + 2 ^ y.sizeLog2 - y.cqHead) % 2 ^ y.sizeLog2 }))) ∧
  (∀ (fn r len x : Nat) (s : State), s.hostOpen = true → s.ownsRing fn r = true → (s.ring r).dbOk len x = true → r ≠ 16 →
    let y := s.ring r; let k : HostCmd := { uid := y.nextUid, index := 0xFFFF, op := 0x10, vat := r, tag := x, applied := true }; let u := s.setRing r { y with cmds := y.cmds ++ [k], nextUid := y.nextUid + 1 }
    let ok := (s.planOf r).valid = true ∧ (s.vat r).startable = true ∧ s.brokenHold r = false
    (64 ≤ y.outstanding → exec (.sheet fn r len x) s = .next (s.dbRefuse fn eState)) ∧
    (y.outstanding < 64 → s.vatAwake r = true → ok → exec (.sheet fn r len x) s = .next ((u.armWrite r false).acceptStart r (some (r, k.uid)))) ∧
    (y.outstanding < 64 → s.vatAwake r = true → ¬ ok → exec (.sheet fn r len x) s = .next (u.hostRefuse r k.uid eState))) ∧
  (∀ (r : Nat) (data : List Byte) (bad : List Nat) (s : State), (s.ring r).fetchAt.isSome = true →
    let x := s.ring r; let halt := fun (e : Nat) => (s.setRing r { x with fetchAt := none, halted := true }).log (srcHost (s.ringFn r)) evRefused e none 0 r
    (bad = [] → exec (.entryFetch r (.ok data bad)) s = .next (((List.range (min (data.length / 64) (min x.waiting (64 - x.outstanding)))).foldl
      (fun z i => z.takeEntry r (leNat ((data.drop (64 * i)).take 64))) (s.setRing r { x with fetchAt := none })).ringFetch r)) ∧
    (bad ≠ [] → exec (.entryFetch r (.ok data bad)) s = .next (halt ePoison)) ∧ (∀ e, exec (.entryFetch r (.refused e)) s = .next (halt e))) ∧
  (∀ (r e : Nat) (s : State), s.entryCheck r e = eOk →
    let x := s.ring r; let k : HostCmd := { uid := x.nextUid, index := x.sqHead, op := fld e 0 8, vat := fld e 8 4, fence := bit e 12, irq := bit e 13, tag := fld e 16 16, entry := e }
    s.takeEntry r e = s.setRing r { x with cmds := x.cmds ++ [k], nextUid := x.nextUid + 1, sqHead := (x.sqHead + 1) % 2 ^ x.sizeLog2 }) ∧
  (∀ (r : Nat) (d : HostDone) (rest : List HostDone) (s : State), (s.ring r).done = d :: rest → (s.ring r).cqUsed < 2 ^ (s.ring r).sizeLog2 →
    let x := s.ring r; let last := x.cqTail + 1 == 2 ^ x.sizeLog2
    let y : Ring := { x with done := rest, cqUsed := x.cqUsed + 1, cqTail := if last then 0 else x.cqTail + 1, phase := if last then !x.phase else x.phase }
    let u := (s.setRing r y.settle).send (.record r (x.cqBase + 32 * x.cqTail) (recordBytes d x.phase))
    exec (.completionRecordWrite r) s = .next ((if d.cmd.irq then u.send (.msix (s.ringFn r) x.vec) else u).ringFetch r)) ∧
  (∀ (fn r : Nat) (s : State),
    let all := ((List.range 17).filter (s.ownsRing fn)).foldl (fun z i => z.ringStop true i) s
    (s.ownsRing fn r = true → exec (.ringDisable fn r) s = .next (s.ringStop false r)) ∧ exec (.functionLevelReset fn) s = .next { all with host := { all.host with fns := all.host.fns.del fn } } ∧
    exec .hotReset s = .next s.hostReset ∧ (s.host.up = true → exec .hostLinkDown s = .next ((({ s with host := { s.host with up := false, flit := false, rate := 0, width := 0 } } : State).fire 650).hostReset))) ∧
  (∀ (rate width : Nat) (s : State), s.host.up = false → s.boot.extest = false → rate = 5 ∨ rate = 6 → width = 8 ∨ width = 15 →
    exec (.hostLinkUp rate width) s = .next (({ s with host := { s.host with up := true, flit := rate == 6, rate := rate, width := width } } : State).fire 650)) ∧
  (∀ (r : Nat) (k : HostCmd) (s : State), (s.ring r).nextCmd = some k → k.op = 0x0F →
    exec (.hostNop r) s = .next ((s.setRing r ((s.ring r).apply k.uid)).hostFinish (some (r, k.uid)) eOk 0 0)) ∧
  (∀ (r : Nat) (t : W64) (s : State), (s.ring r).fetchAt = some t → t.toNat + s.host.ctoUs * 1000 ≤ s.clk.gtc.toNat →
    let u : State := { s with host := { s.host with cplTimeout := satAdd top16 s.host.cplTimeout 1 } }
    exec (.dmaCompletionTimeout r none) s = .next ((u.modRing r (fun x => { x with fetchAt := none, halted := true })).log (srcHost (s.ringFn r)) evRefused eTimeout none 0 r))

/-- The memory window, copies and data commands of the host: A window request inside a function's rights reads the bytes as stored, or is written
whole; another is counted, logged and answered as refused or discarded, and a VF without a vat reads zeros. SADD adds to a counter of the vat, held
to its tick in deterministic mode. SEQ and STKCMD go to the batcher and the stack engines. COPY begins within the vat's state, moves host data as it
arrives and ends with its status; poison on its way to the host is a commit point; a host read without an answer in time ends the COPY with
E_TIMEOUT. -/
def Obligations.HostTransfers : Prop :=
  (∀ (fn off len : Nat) (c : Nat) (t : Option Nat) (s : State), s.hostOpen = true → s.winCheck fn (s.winAddr fn off) len false = eOk →
    s.spadAwake (s.winAddr fn off) = true → fn = 0 ∨ (s.fnVat fn).isSome = true → s.winTarget (s.winAddr fn off) len = some (t, some c) →
    let o := fld (s.winAddr fn off) 0 19
    exec (.memoryWindowRead fn off len) s = .next ((s.noteRead c o len).send (.hostCpl fn true ((s.spad c).bad o len) ((s.spad c).mem.readBytes o len)))) ∧
  (∀ (fn off len : Nat) (t : Option Nat) (s : State), s.hostOpen = true → s.winCheck fn (s.winAddr fn off) len false = eOk →
    s.spadAwake (s.winAddr fn off) = true → fn = 0 ∨ (s.fnVat fn).isSome = true → s.winTarget (s.winAddr fn off) len = some (t, none) →
    let a := s.winAddr fn off; let u := (s.noteStack (s.fnVat fn) a len).send (.hostCpl fn true (s.stackBad a len) (s.stackRead a len))
    exec (.memoryWindowRead fn off len) s = .next (match s.fnVat fn with | some v => u.accountStk v 0 (chargeOf a len) | none => u)) ∧
  (∀ (fn off : Nat) (data : List Byte) (ep : Bool) (c : Option Nat) (t : Option Nat) (s : State), s.hostOpen = true →
    s.winCheck fn (s.winAddr fn off) data.length true = eOk → s.spadAwake (s.winAddr fn off) = true → fn = 0 ∨ (s.fnVat fn).isSome = true →
    s.winTarget (s.winAddr fn off) data.length = some (t, c) →
    let a := s.winAddr fn off; let u := if ep then s.epReceived fn a t else s
    (∀ k, c = some k → exec (.memoryWindowWrite fn off data ep) s = .next (u.spadPut k (fld a 0 19) data (fun _ => ep))) ∧
    (c = none → exec (.memoryWindowWrite fn off data ep) s = .next (match s.fnVat fn with | some v => (u.stackPut a data (fun _ => ep)).accountStk v 1 (chargeOf a data.length) | none => u.stackPut a data (fun _ => ep)))) ∧
  (∀ (fn off : Nat) (data : List Byte) (ep : Bool) (s : State), s.hostOpen = true →
    let a := s.winAddr fn off; let er := s.winCheck fn a data.length false; let ew := s.winCheck fn a data.length true; let owner := fn = 0 ∨ (s.fnVat fn).isSome = true
    (er ≠ eOk → owner → exec (.memoryWindowRead fn off data.length) s = .next ((s.winRefuse fn er a).send (.hostCpl fn false false []))) ∧ (ew ≠ eOk → owner → exec (.memoryWindowWrite fn off data ep) s = .next (s.winRefuse fn ew a)) ∧
    (er ≠ eOk → ¬ owner → exec (.memoryWindowRead fn off data.length) s = .next (s.send (.hostCpl fn true false (List.replicate data.length 0)))) ∧ (ew ≠ eOk → ¬ owner → exec (.memoryWindowWrite fn off data ep) s = .next s)) ∧
  (∀ (r v : Nat) (k : Caller) (s u : State), s.taken (.host r) 0x08 v = some (u, k) →
    let x := u.vat v; let a := fld k.entry 64 15; let n := fld k.entry 96 32; let t := fld k.entry 128 64; let right := if a < 0x4000 then u.owns v (a / 256) else u.globalFor (some v) a
    let shut := x.jobValid = false ∨ x.st = .wiping ∨ x.st = .faulted; let tv := (u.vatOfCtr a).getD v; let live := (u.vat tv).st = .running ∧ (u.vat tv).det.detOn = true
    (shut → exec (.hostSadd r v) s = .next (u.refuseCmd v k eState)) ∧ (¬ shut → right = false → exec (.hostSadd r v) s = .next (u.refuseCmd v k ePermission)) ∧
    (¬ shut → right = true → ¬ live → exec (.hostSadd r v) s = .next (u.hostAdd v k a n)) ∧
    (¬ shut → right = true → live → t ≠ 0 → u.clk.gtc.toNat < t → exec (.hostSadd r v) s = .next
      (({ u with net := { u.net with heldTicks := u.net.heldTicks ++ [{ stamp := BitVec.ofNat 64 t, ctr := a, amount := n }] } } : State).hostFinish k.host eOk 0 0)) ∧
    (¬ shut → right = true → live → t = 0 → exec (.hostSadd r v) s = .next ((u.detBreak tv 0x0B).hostAdd v k a n)) ∧
    (¬ shut → right = true → live → t ≠ 0 → t ≤ u.clk.gtc.toNat →
      let w := if u.pastStamp tv (BitVec.ofNat 64 t) = true then u.detBreak tv 0x0B else u
      exec (.hostSadd r v) s = .next ((if (u.vat tv).det.stretched = true then w.detBreak tv 0x0D else w).hostAdd v k a n))) ∧
  (∀ (r v : Nat) (k : Caller) (s u : State), s.taken (.host r) 0x09 v = some (u, k) →
    exec (.seq r v) s = .next (u.seqReq v (seqOfEntry k.entry k.host))) ∧
  (∀ (r v ring uid : Nat) (k : Caller) (s u : State), s.taken (.host r) 0x0B v = some (u, k) →
    (s.mem.cmds.filter (fun k => k.vat == v)).length < 16 → k.host = some (ring, uid) →
    let x := u.vat v; let a := fld k.entry 64 48; let rec_ := u.stackNat a 128
    let legal := (x.st = .ready ∨ x.st = .running ∨ x.st = .scanned ∨ (x.st = .free ∧ x.jobValid = true)) ∧ x.tw.standby = false ∧ x.heldOrLater = false
    (¬ legal → exec (.stkcmd r v) s = .next (u.refuseCmd v k eState)) ∧
    (legal → rWin rec_ ≠ 0 → u.stackBad a 128 = false → exec (.stkcmd r v) s = .next (u.refuseCmd v k eFormat)) ∧
    (legal → rWin rec_ = 0 ∨ u.stackBad a 128 = true → exec (.stkcmd r v) s = .next (((u.noteStack (some v) a 128).accountStk v 0 (chargeOf a 128)).stkAccept (.host ring uid) v rec_ (u.stackBad a 128)))) ∧
  (∀ (r v : Nat) (c : HostCmd) (k : Caller) (s u : State), s.taken (.host r) 0x0C v = some (u, k) → (s.ring r).nextCmd = some c →
    s.spadAwake (fld c.entry 192 48) = true →
    let e := k.entry; let a := fld e 192 48; let n := fld e 256 32; let out := bit e 64
    (u.copyRange v a n = none → exec (.copy r v) s = .next (u.refuseCmd v k ePermission)) ∧
    (∀ core, u.copyRange v a n = some core → u.copyState v core.isSome out a n = false → exec (.copy r v) s = .next (u.refuseCmd v k eState)) ∧
    (∀ core, u.copyRange v a n = some core → u.copyState v core.isSome out a n = true →
      let j : CopyJob := { host := k.host.getD (0, 0), vat := v, out := out, hostAddr := fld e 128 64, dev := a, bytes := n, spad := core, since := u.clk.gtc }
      let y : State := { u with host := { u.host with copies := u.host.copies ++ [j] } }; let w := if core.isSome then y.modVat v (fun x => { x with spadCopies := x.spadCopies + 1 }) else y
      exec (.copy r v) s = .next (if out then w else w.send (.hostRead j.hostAddr n)))) ∧
  (∀ (r uid off : Nat) (k : CopyJob) (s : State), s.copyOf r uid = some k → k.out = false →
    (∀ e, exec (.hostReadCompletion r uid off (.refused e)) s = .next (s.copyEnd k ePermission k.moved)) ∧
    (∀ data bad, off + data.length ≤ k.bytes → k.got.any (fun g => meets off data.length g.1 g.2) = false →
      let u := if bad = [] then s else s.epReceived (s.ringFn r) (k.dev + off) (some k.vat)
      exec (.hostReadCompletion r uid off (.ok data bad)) s = .next ((u.copyPut k off data (fun _ => !bad.isEmpty)).putCopy { k with moved := k.moved + data.length, got := k.got ++ [(off, data.length)], since := s.clk.gtc }))) ∧
  (∀ (r uid : Nat) (k : CopyJob) (s : State), s.copyOf r uid = some k →
    (k.out = false → k.moved = k.bytes → exec (.copyComplete r uid) s = .next (s.copyEnd k eOk k.moved)) ∧
    (k.out = true →
      let u := match k.spad with | some c => s.noteRead c (fld k.dev 0 19) k.bytes | none => (s.noteStack (some k.vat) k.dev k.bytes).accountStk k.vat 0 (chargeOf k.dev k.bytes)
      (s.copyBad k = none → exec (.copyComplete r uid) s = .next ((u.send (.hostWrite k.hostAddr (s.copyGet k k.bytes))).copyEnd k eOk k.bytes)) ∧
      (∀ off, s.copyBad k = some off → let cut := off / 4 * 4; let w := if cut = 0 then u else u.send (.hostWrite k.hostAddr (s.copyGet k cut))
        exec (.copyComplete r uid) s = .next (((w.containPoint k.vat 1 (srcHub 9) (k.hostAddr + cut) (k.dev + cut)).copyEnd k ePoison cut).abortSheet k.vat)))) ∧
  (∀ (r uid : Nat) (k : CopyJob) (s : State), s.copyOf r uid = some k → k.out = false → k.moved < k.bytes →
    k.since.toNat + s.host.ctoUs * 1000 ≤ s.clk.gtc.toNat →
    exec (.dmaCompletionTimeout r (some uid)) s = .next (({ s with host := { s.host with cplTimeout := satAdd top16 s.host.cplTimeout 1 } } : State).copyEnd k eTimeout k.moved))

/-- Interrupts, the error log, fences and messages: An event of a source below 670 fires it. A read of IRQ_CLAIM answers the highest pending source
assigned to the target, which becomes active, through the debug port without claiming; a source that the target claimed is completed, another is
ignored and logged. A latch of the wake watcher is delivered once, the lowest first. A reported event enters the log and its consumer's tail write,
not beyond the head, frees records and writes the holders. A fence of an enabled position stops the core for good. A device fault fires source 664
and stops READY and RUNNING vats. The three message registers are written with their events. -/
def Obligations.InterruptsAndErrors : Prop :=
  (∀ (n : Nat) (s : State), n < 670 →
    exec (.irqEvent n) s = .next (s.fire n) ∧
    (aoSource n = true → exec (.wakeWatchEvent n) s = .next (s.fire n))) ∧
  (∀ (t n : Nat) (s : State), t ≤ 17 → s.claimable t = some n →
    let u := (s.modIrqSrc n (fun x => { x with pending := false, active := true, assigned := none, last := t, claimer := some t })).irqSettle (s.irqLine 17)
    exec (.irqClaim t false) s = .next (u.send (.regData (0x42000 + 16 * t) (2 ^ 31 + n))) ∧ exec (.irqClaim t true) s = .next (s.send (.regData (0x42000 + 16 * t) (2 ^ 31 + n)))) ∧
  (∀ (t : Nat) (d : Bool) (s : State), t ≤ 17 → s.claimable t = none →
    exec (.irqClaim t d) s = .next (s.send (.regData (0x42000 + 16 * t) 0))) ∧
  (∀ (w : Who) (t n : Nat) (s : State), t ≤ 17 → n ≤ 1023 →
    let x := s.irqSrc n; let line := s.irqLine 17; let u := (s.modIrqSrc n (fun y => { y with active := false, claimer := none, last := t })).irqSettle line
    (x.active = true → x.claimer = some t → exec (.irqComplete w t n) s = .next (if t = 17 ∧ line = true ∧ u.irqLine 17 = true then u.send (.msix 0 (u.irqTgt 17).vec.toNat) else u)) ∧
    (x.active = false ∨ x.claimer ≠ some t → exec (.irqComplete w t n) s = .next (s.log (whoSrc w) evRefused eState none 0 n))) ∧
  (∀ (i : Nat) (s : State), s.fastOn = true → (List.range 32).find? (fun j => (s.wakeSel j).latch) = some i →
    exec .wakeLatchDeliver s = .next ((s.modWakeSel i (fun x => { x with latch := false })).fire (s.wakeSel i).src.toNat)) ∧
  (∀ (src event status : Nat) (vat : Option Nat) (i0 i1 : Nat) (s : State), src < 0xB000 → event ≠ 0 → event ≤ 0x10 →
    exec (.errorReport src event status vat i0 i1) s = .next (s.log src event status vat i0 i1)) ∧
  (∀ (w : Who) (x : Nat) (s : State),
    let h := s.hub; let i := x % 512; let mine := if h.logOwnerPf then w == .pf else whoMgmt w; let beyond := (h.logHead + 512 - h.logTail) % 512 < (i + 512 - h.logTail) % 512
    let h1 : Hub := { h with logTail := i }; let u : State := { s with hub := h1.drainHolders }
    (mine = false → exec (.errlogTail w x) s = .next (s.regRefuse w ePermission 0x80004)) ∧ (mine = true → beyond → exec (.errlogTail w x) s = .next (s.regRefuse w eRange 0x80004)) ∧
    (mine = true → ¬ beyond → exec (.errlogTail w x) s = .next (if h1.logHead == i && h1.drainHolders.logHead != h1.logHead then u.fire 659 else u))) ∧
  (∀ (w : Who) (cl p : Nat) (s : State), cl < 64 → p < 64 →
    let c := coreNo cl p; let bad := c % 64 = s.disabledPos (clusterOf c) ∨ s.net.fenced.has c = true
    (whoMgmt w = false → exec (.coreFence w cl p) s = .next (s.regRefuse w ePermission 0x12C)) ∧ (whoMgmt w = true → bad → exec (.coreFence w cl p) s = .next (s.regRefuse w eState 0x12C)) ∧
    (whoMgmt w = true → ¬ bad → exec (.coreFence w cl p) s = .next (s.fence c)) ∧ (s.fenceCore c).ctl c = { (s.dropEngines c).ctl c with run := .fenced, waiting := none, ldr := none, strOut := 0, strAsync := 0, stepping := false }) ∧
  (∀ (b : Nat) (s : State), b ≤ 13 →
    let u := (({ s with hub := { s.hub with deviceFault := true } } : State).log (srcHub b) evDevice 0 none 0 b).fire 664
    exec (.deviceFault b) s = .next ((List.range 16).foldl (fun z v => if (z.vat v).st = .ready ∨ (z.vat v).st = .running then (z.forceStopOr v).1 else z) u)) ∧
  (∀ (fn v x : Nat) (s : State), v < 16 → fn = 0 ∨ s.fnVat fn = some v →
    exec (.vatHostMsg fn v x) s = .next ((s.modVat v (fun y => { y with hostMsg := BitVec.ofNat 32 x })).fireVat v 5) ∧
    exec (.hostToMgmt x) s = .next (({ s with hub := { s.hub with hostToMgmt := BitVec.ofNat 32 x } } : State).fire 665) ∧
    exec (.mgmtToHost x) s = .next (({ s with hub := { s.hub with mgmtToHost := BitVec.ofNat 32 x } } : State).fire 666))

/-- Operating points, stretch, limits, samples and telemetry: The point switches to the lowest of target, thermal and cap limit on a grid tick with
no deterministic sheet and no stretch. A droop beyond the trip level fires source 662 and begins a stretch, which ends when nothing asks for it. A
thermal sample trips, or sets the levels. At THROTTLE the thermal limit falls a point each 10 ms and rises one 100 ms after it. A power sample each
1,000 ticks is kept with its energy and checked against sag, surge and cap; windows of 10 ms and 1 s move the cap limit; the sensors are updated
each 10^8 ticks. The module starts after enough time and voltage, with a cold reset, and stops on a loss of power. -/
def Obligations.PowerControl : Prop :=
  (∀ (s : State), s.wantedPoint ≠ s.hub.dvfs → s.detRunning = false → s.pwr.stretch = false → s.fastOn = true → s.clk.gtc.toNat % 20 = 0 →
    s.clk.phase = 0 →
    exec .dvfsSwitch s = .next { s with hub := { s.hub with dvfs := min s.pwr.target (min s.pwr.thermLimit s.pwr.capLimit) } }) ∧
  (∀ (i d : Nat) (s : State), i ≤ 267 → s.pwr.tripMv < d → s.fastOn = true →
    exec (.droopTrip i d) s = .next ((if s.pwr.stretch then s else s.beginStretch true).fire 662)) ∧
  (∀ (b : Bool) (s : State), s.pwr.stretch = false →
    s.beginStretch b = (s.modPwr (fun p => { p with stretch := true, m := 0, epTherm := false, epCap := false, droopEps := if b then satAdd top16 p.droopEps 1 else p.droopEps })).markStretched) ∧
  (∀ (n : Nat) (s : State), s.pwr.stretch = true → 32 ≤ n → s.thermReq = false → s.pwr.capReq = false → s.pwr.m ≠ 0 →
    s.pwr.m % stretchUnit s.hub.dvfs = 0 →
    exec (.stretchEnd n) s = .next (s.modPwr (fun p => { p with stretch := false, m := 0, epTherm := false, epCap := false }))) ∧
  (∀ (t : List Int) (s : State), t.length = 73 → s.pwr.off = false → s.pwr.on = true →
    let f := s.reading t; let trips := dieThr s.pwr.warn 3 ≤ f (hottest f dieCodes) ∨ stackThr 3 ≤ f (hottest f stackCodes)
    (trips → exec (.thermalSample t) s = .next s.trip) ∧ (¬ trips → exec (.thermalSample t) s = .next (s.thermalLevels f))) ∧
  (∀ (s : State), s.pwr.dieLvl.getLsbD 1 = true → s.pwr.stepAt.toNat + 10 ^ 7 ≤ s.clk.gtc.toNat →
    exec .throttleStep s = .next ((s.modPwr (fun p => { p with thermLimit := p.thermLimit - 1, stepAt := s.clk.gtc })).holdStretch)) ∧
  (∀ (s : State), s.pwr.dieLvl.getLsbD 1 = false → s.critical = false → s.pwr.thermLimit < 4 → s.pwr.riseAt.toNat + 10 ^ 8 ≤ s.clk.gtc.toNat →
    exec .throttleRecovery s = .next (s.modPwr (fun p => { p with thermLimit := p.thermLimit + 1, riseAt := s.clk.gtc }))) ∧
  (∀ (mv ma nj : Nat) (s : State), s.pwr.on = true → s.clk.gtc.toNat % 1000 = 0 ∨ s.clk.prev.toNat / 1000 ≠ s.clk.gtc.toNat / 1000 →
    s.pwr.sampleAt ≠ s.clk.gtc ∨ s.pwr.samples = [] →
    let u := s.modPwr (fun p => { p with samples := ((mv, ma) :: p.samples).take 10, sampleAt := s.clk.gtc, energy := p.energy + BitVec.ofNat 64 nj, sumMv := p.sumMv + mv, sumMa := p.sumMa + ma, sumUw := p.sumUw + mv * ma, nSum := p.nSum + 1 })
    exec (.powerSample mv ma nj) s = .next ((u.sagCount mv).capCheck)) ∧
  (∀ (s : State), s.pwr.samples.length = 10 →
    let c := s.pwr.cap10
    (s.pwr.capReq = false → c < s.pwr.power10 → s.pwr.capLogged = s.clk.gtc.toNat / 10 ^ 7 + 1 → s.capCheck = ((s.modPwr (fun p => { p with cEff := c / 10 ^ 7 })).modPwr (fun p => { p with capReq := true, capSince := s.clk.gtc })).holdStretch) ∧
    (s.pwr.capReq = true → 20 * s.pwr.power10 ≤ 19 * c → s.capCheck = (s.modPwr (fun p => { p with cEff := c / 10 ^ 7 })).modPwr (fun p => { p with capReq := false, capTicks := p.capTicks + (s.clk.gtc.toNat - p.capSince.toNat) }))) ∧
  (∀ (s : State),
    let p := s.pwr; let now := s.clk.gtc.toNat; let held := p.capTicks + (if p.capReq then now - p.capSince.toNat else 0); let avg := (p.energy - p.energyWin).toNat; let c := if p.samples.length = 10 then p.cap10 else p.watts * 10 ^ 7
    (s.reaches (10 ^ 7) = true → p.winAt.toNat < now → exec .capWindow s = .next (s.modPwr (fun p => { p with winAt := s.clk.gtc, capTicks := 0, capSince := if p.capReq then s.clk.gtc else p.capSince, capLimit := if 10 ^ 7 < 5 * held then p.capLimit - 1 else p.capLimit }))) ∧
    (s.reaches (10 ^ 9) = true → p.riseWinAt.toNat < now → exec .capRiseWindow s = .next (s.modPwr (fun p => { p with riseWinAt := s.clk.gtc, energyWin := p.energy, capLimit := if 5 * 10 ^ 7 * avg < 4 * 10 ^ 9 * c then min 4 (p.capLimit + 1) else p.capLimit })))) ∧
  (∀ (inlet conv : Int) (s : State), s.clk.gtc.toNat % 10 ^ 8 = 0 ∨ s.clk.prev.toNat / 10 ^ 8 ≠ s.clk.gtc.toNat / 10 ^ 8 →
    s.pwr.telemAt.toNat < s.clk.gtc.toNat →
    let p := s.pwr; let t := if p.nSum = 0 then p.telem else ((p.telem.put 0 (p.sumMv / (10 * p.nSum))).put 1 (p.sumMa / (10 * p.nSum))).put 2 (p.sumUw / (100000 * p.nSum))
    let dc := (s.clk.fast - p.fast0).toNat; let ds := (p.cycles - p.cycles0).toNat; let hot := p.hot.foldl (fun (t : Table Nat) q => t.put q.1 (enc32 q.2)) (t.put 3 (p.energy.toNat / 10 ^ 9 % 2 ^ 32))
    let z := ((((hot.put 14 (enc32 inlet)).put 15 (enc32 conv)).put 16 s.hub.dvfs).put 17 (if dc = 0 then 0 else ds * 65536 / dc)).put 18 p.lvlMax
    exec (.telemetryUpdate inlet conv) s = .next (s.modPwr (fun p => { p with telem := z, telemSeq := p.telemSeq + 1, telemAt := s.clk.gtc, sumMv := 0, sumMa := 0, sumUw := 0, nSum := 0, hot := [], lvlMax := levelCode (p.dieLvl ||| p.stackLvl), fast0 := s.clk.fast, cycles0 := p.cycles }))) ∧
  (∀ (mv ticks off : Nat) (en : Bool) (s : State),
    (s.pwr.on = false → 58000 ≤ mv → 10 ^ 6 ≤ ticks → 10 ^ 8 ≤ off → exec (.moduleStart mv ticks off) s = .next (({ s with boot := { s.boot with rst := some .cold, effect := true } } : State).coldWipe true)) ∧
    (s.pwr.on = true → mv < 54000 ∨ en = false → 10 ^ 4 < ticks →
      let u := s.coldWipe true
      exec (.moduleStop mv en ticks) s = .next { u with pwr := { u.pwr with on := false }, boot := { u.boot with effect := false, rst := some .cold } }))

/-- Power states of cores, clusters and the device: A core idle for gate_idle cycles is gated. A legal request for a cluster's state is taken from
the management core, the PF or the vat's vatman; a rejected one is refused with its status and changes no cluster. Entry to OFF loses what the cores
hold. A wake returns the cluster to RUN. A sleep that R571 allows puts every cluster in RUN into RETAIN, takes the links down and stops the fast
clock; a device that something has asked for wakes with each cluster in the state it held, and each stack's refresh waits for the next slot. -/
def Obligations.PowerStates : Prop :=
  (∀ (c : Nat) (s : State), c < 4096 → s.fastOn = true → s.clRun (clusterOf c) = true → s.gateIdle c ≠ 0 → s.idleCore c = true →
    s.gateIdle c ≤ (s.clk.fast - (s.ctl c).idleSince).toNat →
    exec (.coreGate c) s = .next (s.modCtl c (fun k => { k with gated := true }))) ∧
  (∀ (w : Who) (cl req : Nat) (s : State), cl < 64 →
    let st := (s.ownerOf cl).map (fun v => (s.vat v).st); let legal := req = 0 ∨ st = none ∨ st = some .free ∨ (req = 1 ∧ (st = some .ready ∨ st = some .scanned)); let off := 0x600028 + 0x10000 * cl
    (s.mayPwr w cl = false → exec (.clusterPowerRequest w cl req) s = .next (s.regRefuse w ePermission off)) ∧ (s.mayPwr w cl = true → 2 < req → exec (.clusterPowerRequest w cl req) s = .next (s.regRefuse w eRange off)) ∧
    (s.mayPwr w cl = true → req ≤ 2 → ¬ legal → exec (.clusterPowerRequest w cl req) s = .next (s.regRefuse w eState off)) ∧
    (s.mayPwr w cl = true → req ≤ 2 → legal → exec (.clusterPowerRequest w cl req) s = .next (s.modClPwr cl (fun x => { x with req := req, busy := x.busy || x.state != req })))) ∧
  (∀ (cl : Nat) (s : State), (s.clPwr cl).busy = true →
    let x := s.clPwr cl; let u := s.setClPwr cl { x with state := x.req, busy := false }
    (x.req = 1 → exec (.clusterPowerEntry cl) s = .next u) ∧ (x.req = 2 → exec (.clusterPowerEntry cl) s = .next ((List.range 64).foldl (fun z p => z.loseCore (coreNo cl p)) u)) ∧
    (x.req = 0 → s.fastOn = true → exec (.clusterWakeComplete cl) s = .next (s.setClPwr cl { x with state := 0, busy := false }))) ∧
  (∀ (w : Who) (s : State), s.pwr.asleep = false →
    (whoMgmt w = false → exec (.sleepRequest w) s = .next (s.regRefuse w ePermission 0x140004)) ∧ (whoMgmt w = true → s.maySleep = false → exec (.sleepRequest w) s = .next (s.regRefuse w eState 0x140004)) ∧
    (whoMgmt w = true → s.maySleep = true → exec (.sleepRequest w) s = .next ((s.modPwr (fun p => { p with sleep := true })).enterSleep))) ∧
  (∀ (s : State), s.pwr.asleep = true → s.pwr.wakeAsk = true →
    let u := (List.range 64).foldl (fun z cl => z.modClPwr cl (fun x => { x with state := x.before })) s
    let w := (List.range 8).foldl (fun z i => z.modStk i (fun x => { x with slotAt := z.slotNow })) u
    exec .deviceWake s = .next (w.modPwr (fun p => { p with asleep := false, sleep := false, wakeAsk := false })))

/-- Resets, the boot ROM, the seal and vatmen: RESET_CTL with the right key asks for a cold or warm reset with its cause; without the right it is
refused. A request of higher rank takes over the one in progress, another merges. A reset that was asked for takes effect on the device; PERST# asks
for a warm reset. The wipe's end shows every stack ready. The ROM takes the slots by descending svn and boots the first good one, or ends FAILED
with the last slot's code. The seal needs ready stacks and well-formed plans and maps. VM_START starts a vatman of the sealed device at its entry,
and the write of a vatman channel descriptor's last word applies it. -/
def Obligations.ResetAndBoot : Prop :=
  (∀ (w : Who) (key : Nat) (s : State),
    let may := whoMgmt w = true ∨ w = .pf
    (¬ may → exec (.resetCold w key) s = .next (s.regRefuse w ePermission 0x100) ∧ exec (.resetWarm w key) s = .next (s.regRefuse w ePermission 0x100)) ∧
    (may → key = 0x0D72 → exec (.resetCold w key) s = .next (s.askReset .cold 1) ∧ exec (.resetWarm w key) s = .next (s.askReset .warm 3)) ∧
    (may → key % 2 ^ 16 ≠ 0x0D72 → exec (.resetCold w key) s = .next s ∧ exec (.resetWarm w key) s = .next s)) ∧
  (∀ (k : RstKind) (n : Nat) (s : State),
    let c := s.boot.cause ||| (1#8 <<< n)
    (s.boot.rst = none → s.askReset k n = { s with boot := { s.boot with rst := some k, effect := false, wiped := false, cause := c } }) ∧
    (∀ r, s.boot.rst = some r → r.rank < k.rank → s.askReset k n = { s with boot := { s.boot with rst := some k, effect := false, wiped := false, cause := c, lcTo := none } }) ∧
    (∀ r, s.boot.rst = some r → k.rank ≤ r.rank → s.askReset k n = { s with boot := { s.boot with cause := c, merged := true } })) ∧
  (∀ (s : State), s.pwr.on = true → s.boot.effect = false →
    (s.boot.rst = some .cold → exec .coldReset s = .next (s.applyReset .cold)) ∧ (s.boot.rst = some .warm → exec .warmReset s = .next (s.applyReset .warm)) ∧
    (s.boot.rst = some .lifecycle → exec .warmReset s = .next (s.applyReset .lifecycle))) ∧
  (∀ (k : RstKind) (s : State),
    let t := s.applyReset k
    t.boot.effect = true ∧ t.boot.sealed = false ∧ t.boot.stage = .rom ∧ t.boot.wiped = false ∧ t.boot.flash = s.boot.flash ∧ t.boot.fuse = s.boot.fuse ∧ t.boot.shadow = s.boot.fuse ∧ t.cores = {} ∧ t.vats = [] ∧ t.host = {} ∧ t.span = {} ∧
    t.boot.rst = s.boot.rst ∧ t.net.coreDis = (if k = .cold then t.net.coreDis else fuseCoreMap s.boot.fuse) ∧ (k ≠ .cold → t.clk.gtc = s.clk.gtc ∧ t.hub.logSeq = s.hub.logSeq)) ∧
  (∀ (s : State), s.pwr.on = true →
    exec .perstAssert s = .next ((s.modBoot (fun b => { b with perst := true })).askReset .warm 4) ∧
    exec .perstDeassert s = .next (s.modBoot (fun b => { b with perst := false }))) ∧
  (∀ (s : State), s.boot.effect = true → s.boot.wiped = false → s.pwr.on = true → s.pwr.off = false →
    exec .resetWipeComplete s = .next ((List.range 8).foldl (fun z i => z.modStk i (fun x => { x with ready := true })) (s.modBoot (fun b => { b with wiped := true })))) ∧
  (∀ (a b : Nat) (s : State), s.boot.stage = .rom → s.released = true → s.boot.lcTo = none → s.pwr.on = true → s.pwr.off = false →
    s.boot.rst.isSome = true →
    let svn := fun (i : Nat) => ihSvn (s.flashRead (0x100000 * i) 512); let bFirst := a ≠ 1 ∧ b ≠ 1 ∧ svn 0 < svn 1
    let x := if bFirst then s.bootSlot 1 b else s.bootSlot 0 a; let y := if bFirst then x.2.bootSlot 0 a else x.2.bootSlot 1 b
    (x.1 = none → exec (.romBoot a b) s = .next x.2) ∧ (x.1 ≠ none → y.1 = none → exec (.romBoot a b) s = .next y.2) ∧
    (∀ c, x.1 ≠ none → y.1 = some c → exec (.romBoot a b) s = .next (y.2.modBoot (fun z => { z with code := c, stage := .failed, rst := none })))) ∧
  (∀ (w : Who) (s : State), s.boot.sealed = false →
    let ready := (List.range 8).all (fun i => (s.stk i).ready); let formed := s.planWf s.net.planActive && s.vfMapOk
    (whoMgmt w = false → exec (.protSeal w) s = .next (s.regRefuse w ePermission 0x114)) ∧ (whoMgmt w = true → ready = false → exec (.protSeal w) s = .next (s.regRefuse w eState 0x114)) ∧
    (whoMgmt w = true → ready = true → formed = false → exec (.protSeal w) s = .next (s.regRefuse w eFormat 0x114)) ∧
    (whoMgmt w = true → ready = true → formed = true → ∃ t : State, exec (.protSeal w) s = .next t ∧ t.boot.sealed = true ∧ t.boot.stage = .sealed ∧ t.boot.rst = none ∧ (∀ p, p < 8 → t.net.planOk.getLsbD p = s.planWf p))) ∧
  (∀ (w : Who) (v e i : Nat) (c : Nat) (s : State), v < 16 → whoMgmt w = true → s.vatmanOf v = some c → s.boot.sealed = true →
    (s.ctl c).run ≠ .running →
    exec (.vmStart w v e i) s = .next ((s.modVat v (fun y => { y with vmEntry := e % 2 ^ 13, vmEvec := i % 2 ^ 13 })).setCtl c { pc := BitVec.ofNat 64 (4 * (e % 2 ^ 13)), evec := BitVec.ofNat 64 (4 * (i % 2 ^ 13)), mode := 2, run := .running, started := true, cycleBase := s.clk.fast, idleSince := s.clk.fast })) ∧
  (∀ (w : Who) (v e x c : Nat) (s : State), v < 16 → e < 64 → s.vatmanOf v = some c →
    let off := 0x504000 + 0x10000 * v + 32 * e + 24; let y := s.ep c e; let busy := s.epBusy c e = true ∨ y.occ ≠ 0 ∨ y.full = true ∨ y.spill ≠ [] ∨ y.st = .opening ∨ y.st = .opened
    let d := (y.staging.get 0 0).toNat + (y.staging.get 0 1).toNat * 2 ^ 64 + (y.staging.get 0 2).toNat * 2 ^ 128 + x % 2 ^ 64 * 2 ^ 192; let u := s.setEp c e ({ y with desc := d } : Ep).init
    (s.mayChtab w c = false → exec (.vmChtabApply w v e x) s = .next (s.regRefuse w ePermission off)) ∧ (s.mayChtab w c = true → busy → exec (.vmChtabApply w v e x) s = .next (s.regRefuse w eState off)) ∧
    (s.mayChtab w c = true → ¬ busy → s.vmDescOk v c e d = false → exec (.vmChtabApply w v e x) s = .next (s.regRefuse w eFormat off)) ∧
    (s.mayChtab w c = true → ¬ busy → s.vmDescOk v c e d = true → exec (.vmChtabApply w v e x) s = .next (if cdRole d = 2 then (u.putCtr (cdRdy d) 0).putCtr (cdFree d) 0 else u)))

/-- Lifecycle, fuses, flash and the management port: A lifecycle request passes its checks in order, its status stands, and a legal one asks for a
lifecycle reset, after whose wipes the strap decides whether the count is blown. FUSE_PROG takes a word that its checks allow; the fuse, not the
shadow, holds it when it is programmed. A strap level of 10 ms is taken and fires source 669. Flash commands are those of the management core, or of
debug before the seal; they complete with the page read, programmed or erased, or with E_TIMEOUT and an undefined buffer (a free value). The
management port answers what it is asked, resets, takes lifecycle requests and writes a firmware image unless FLASH_WP# is asserted. -/
def Obligations.LifecycleFlashAndPort : Prop :=
  (∀ (w : Who) (aim off : Nat) (s : State),
    let token := (s.spad mgmtCore).mem.readBytes (16 * (off / 16)) 256; let b := s.boot; let say := fun (e : Nat) => s.modBoot (fun b => { b with lcStatus := e }); let stage := b.stage = .sealed ∨ b.stage = .failed; let good := lcState b.lcShadow = 0 ∨ s.tokenOk aim token = true
    (¬ stage → exec (.lifecycleRequest w aim off) s = .next ((say eState).regRefuse w eState 0x118)) ∧ (stage → whoMgmt w = false ∨ b.strap = false → exec (.lifecycleRequest w aim off) s = .next ((say ePermission).regRefuse w ePermission 0x118)) ∧
    (stage → whoMgmt w = true → b.strap = true → lcLegal b.lcShadow aim = false → exec (.lifecycleRequest w aim off) s = .next ((say eState).regRefuse w eState 0x118)) ∧
    (stage → whoMgmt w = true → b.strap = true → lcLegal b.lcShadow aim = true → ¬ good → exec (.lifecycleRequest w aim off) s = .next ((say ePermission).regRefuse w ePermission 0x118)) ∧
    (stage → whoMgmt w = true → b.strap = true → lcLegal b.lcShadow aim = true → good → let u := (say eOk).askReset .lifecycle 5
      exec (.lifecycleRequest w aim off) s = .next (if u.boot.rst = some .lifecycle then u.modBoot (fun b => { b with lcTo := some aim }) else u))) ∧
  (∀ (s : State), s.boot.rst = some .lifecycle → s.boot.effect = true → s.boot.wiped = true → s.boot.lcTo.isSome = true →
    (s.boot.strap = true → exec .lifecycleStrapSample s = .next (s.modBoot (fun b => { b with lcFuse := b.lcFuse + 1, lcShadow := b.lcFuse + 1, lcTo := none }))) ∧
    (s.boot.strap = false → exec .lifecycleStrapSample s = .next (s.modBoot (fun b => { b with lcStatus := eAborted, lcTo := none })))) ∧
  (∀ (on : Bool) (n : Nat) (s : State), 10 ^ 7 ≤ n → s.boot.strap ≠ on →
    exec (.s1StrapChange on n) s = .next ((s.modBoot (fun b => { b with strap := on })).fire 669)) ∧
  (∀ (w : Who) (item i value : Nat) (s : State),
    let x := if item = 3 then value % 16 else value % 2 ^ 32; let st := s.fuseCheck w item i x; let u := s.modBoot (fun b => { b with lcStatus := st })
    (st ≠ eOk → exec (.fuseProg w item i value) s = .next (u.regRefuse w st 0x120)) ∧ (st = eOk → exec (.fuseProg w item i value) s = .next (u.modBoot (fun b => { b with fuseCmd := some { item := item, index := i, value := x } }))) ∧
    (∀ k, s.boot.fuseCmd = some k → exec .fuseProgramComplete s = .next (s.modBoot (fun b => { b with fuseCmd := none, fuse := b.fuse.put (256 * k.item + k.index) k.value })))) ∧
  (∀ (w : Who) (wp : Bool) (s : State), w = .core mgmtCore ∨ (w = .debug ∧ (s.boot.sealed = false ∨ s.boot.stage = .failed)) →
    s.boot.flashCmd = none →
    let run := fun (op : Nat) => s.modBoot (fun b => { b with flashCmd := some { op := op, page := b.flashPage } }); let held := s.modBoot (fun b => { b with flashStatus := ePermission })
    exec (.flashRead w) s = .next (run 1) ∧ exec (.flashProgram w wp) s = .next (if wp then held else run 2) ∧ (s.boot.flashPage % 16 = 0 → exec (.flashErase w wp) s = .next (if wp then held else run 3)) ∧
    (s.boot.flashPage % 16 ≠ 0 → exec (.flashErase w wp) s = .next (s.regRefuse w eRange 0x300010))) ∧
  (∀ (err : Bool) (k : FlashCmd) (s : State), s.boot.flashCmd = some k →
    let u := s.modBoot (fun b => { b with flashCmd := none, flashStatus := if err then eTimeout else eOk })
    (err = true → exec (.flashCommandComplete err) s = .next { u with free := u.free + 1, boot := { u.boot with flashBuf := Memory.writeBytes [] 0 ((List.range 4096).map (Config.freeByte u.free)) } }) ∧
    (err = false → k.op = 1 → exec (.flashCommandComplete err) s = .next (u.modBoot (fun b => { b with flashBuf := Memory.writeBytes [] 0 (s.flashRead (4096 * k.page) 4096) }))) ∧
    (err = false → k.op = 2 → exec (.flashCommandComplete err) s = .next (u.flashWrite (4096 * k.page) (s.boot.flashBuf.readBytes 0 4096))) ∧
    (err = false → k.op = 3 → exec (.flashCommandComplete err) s = .next (u.modBoot (fun b => { b with flash := b.flash.clear (4096 * k.page) 65536 })))) ∧
  (∀ (v : Bool) (seq aim : Nat) (token image : List Byte) (s : State), s.mctpOn v = true →
    let a := s.hub.acct; let n := 2 ^ a.slotsLog2; let first := max seq (a.idx.toNat - n); let log := s.send (.mctp 1 (s.hub.unconsumed.flatMap (fun i => leBytes 32 (s.hub.log.get {} i).word)))
    exec (.getAcct v seq) s = .next (s.send (.mctp 0 ((List.range (a.idx.toNat - first)).flatMap (fun i => s.stackRead (a.base + 256 * ((first + i) % n)) 256)))) ∧
    (s.hub.logOwnerPf = true → exec (.getLog v) s = .next log) ∧ (s.hub.logOwnerPf = false → exec (.getLog v) s = .next (log.logTailWrite (.core mgmtCore) log.hub.logHead).1) ∧
    exec (.getLc v) s = .next (s.send (.mctp 2 (leBytes 4 s.boot.lcWord ++ leBytes 4 s.boot.statWord))) ∧ exec (.mctpReset v) s = .next (s.askReset .warm 6) ∧ exec (.lcReq v aim token) s = .next (s.lcRequest (.core mgmtCore) aim token).1 ∧
    (image.length ≤ 0x100000 → exec (.firmwareUpdate v image true) s = .next (s.send (.mctp 5 [BitVec.ofNat 8 ePermission])) ∧
      let base := 0x100000 * (1 - s.boot.slot)
      exec (.firmwareUpdate v image false) s = .next (((s.modBoot (fun b => { b with flash := b.flash.clear base 0x100000 })).flashWrite base image).send (.mctp 5 [BitVec.ofNat 8 eOk]))))

/-- The debug port: An update of the DAP register starts a transaction, or is lost and marks OVR while one is in progress; the completion shows its
status and data. NOP does nothing else. HALT stops a running core with reason 3, leaves a halted one, and is E_STATE otherwise; RESUME and STEP act
on a core that debug halted; a step that still waits after 65,536 cycles halts before it. READ and WRITE reach registers, scratchpads and stacks
with the management core's rights, poison being answered with E_POISON (the model's choice for the data shown). A core of a sleeping cluster is
woken first. EXTEST takes the links down; another instruction releases the pins. -/
def Obligations.DebugPort : Prop :=
  (∀ (f : State → State × Nat × Nat) (s : State),
    (s.boot.dap.pend = true → s.dapStart f = s.modBoot (fun b => { b with dap := { b.dap with ovr := true } })) ∧
    (s.boot.dap.pend = false → s.dapStart f = (f s).1.modBoot (fun b => { b with dap := { b.dap with pend := true, ovr := false, nextStatus := (f s).2.1, nextData := (f s).2.2 } }))) ∧
  (∀ (s : State),
    let shown := s.modBoot (fun b => { b with dap := { b.dap with pend := false, status := b.dap.nextStatus, data := b.dap.nextData } })
    exec .dapNop s = .next (s.dapStart (fun z => (z, eOk, 0))) ∧ (s.boot.dap.pend = true → exec .dapTransactionComplete s = .next shown)) ∧
  (∀ (c : Nat) (s : State), c < 4096 → s.clRun (clusterOf c) = true → s.boot.dap.pend = false →
    let u := (if s.detNow c then s.detBreakCore c 0x0F else s).dapWake c; let k := u.ctl c; let gone := s.net.fenced.has c = true ∨ c % 64 = s.disabledPos (clusterOf c)
    (gone → exec (.dapHalt c) s = .next (u.modBoot (fun b => { b with dap := { b.dap with pend := true, ovr := false, nextStatus := eState, nextData := 0 } }))) ∧ (¬ gone → k.run = .halted → exec (.dapHalt c) s = .next (u.modBoot (fun b => { b with dap := { b.dap with pend := true, ovr := false, nextStatus := eOk, nextData := 0 } }))) ∧
    (¬ gone → k.run = .running → exec (.dapHalt c) s = .next ((if k.ldr.isSome then u.setCtl c { k with haltReq := true } else u.debugHalt c).modBoot (fun b => { b with dap := { b.dap with pend := true, ovr := false, nextStatus := eOk, nextData := 0 } }))) ∧
    (¬ gone → k.run ≠ .halted → k.run ≠ .running → exec (.dapHalt c) s = .next (u.modBoot (fun b => { b with dap := { b.dap with pend := true, ovr := false, nextStatus := eState, nextData := 0 } })))) ∧
  (∀ (c : Nat) (s : State), c < 4096 → s.clRun (clusterOf c) = true → s.boot.dap.pend = false →
    let u := s.dapWake c; let k := u.ctl c; let mine := k.run = .halted ∧ (k.haltReason = 1 ∨ k.haltReason = 2 ∨ k.haltReason = 3)
    (mine → exec (.dapResume c) s = .next ((u.modCtl c (fun k => { k with run := .running, started := true, stepping := false })).modBoot (fun b => { b with dap := { b.dap with pend := true, ovr := false, nextStatus := eOk, nextData := 0 } })) ∧
      exec (.dapStep c) s = .next (((u.modCtl c (fun k => { k with stepping := true })).modBoot (fun b => { b with steps := (b.steps.filter (fun r => r.core != c)) ++ [{ core := c, since := s.clk.fast }] })).modBoot (fun b => { b with dap := { b.dap with pend := true, ovr := false, nextStatus := eOk, nextData := 0 } }))) ∧
    (¬ mine → exec (.dapResume c) s = .next (u.modBoot (fun b => { b with dap := { b.dap with pend := true, ovr := false, nextStatus := eState, nextData := 0 } })) ∧ exec (.dapStep c) s = .next (u.modBoot (fun b => { b with dap := { b.dap with pend := true, ovr := false, nextStatus := eState, nextData := 0 } })))) ∧
  (∀ (c : Nat) (s : State), c < 4096 → s.clRun (clusterOf c) = false →
    exec (.dapHalt c) s = .next (s.wakeCl (clusterOf c)) ∧
    exec (.dapResume c) s = .next (s.wakeCl (clusterOf c)) ∧
    exec (.dapStep c) s = .next (s.wakeCl (clusterOf c))) ∧
  (∀ (c : Nat) (r : StepRec) (s : State), s.boot.steps.find? (fun r => r.core == c) = some r → (s.ctl c).stepping = true → (s.ctl c).ldr = none →
    65536 ≤ (s.clk.fast - r.since).toNat →
    exec (.dapStepTimeout c) s = .next ((((s.modCtl c (fun k => { k with waiting := none, stepping := false })).dropCpuWatch c).haltCore c 3).modBoot (fun b => { b with steps := b.steps.filter (fun r => r.core != c) }))) ∧
  (∀ (a size n x : Nat) (s : State), s.pwr.on = true → s.dapSleeps a = none → s.boot.dap.pend = false → dapBytes size = some n →
    exec (.dapRead a size) s = .next ((s.dapRead a n).1.modBoot (fun b => { b with dap := { b.dap with pend := true, ovr := false, nextStatus := (s.dapRead a n).2.1, nextData := (s.dapRead a n).2.2 } })) ∧ exec (.dapWrite a size x) s = .next ((s.dapWrite a n x).1.modBoot (fun b => { b with dap := { b.dap with pend := true, ovr := false, nextStatus := (s.dapWrite a n x).2, nextData := 0 } }))) ∧
  (∀ (a n x : Nat) (s : State), a + n ≤ stackTop → 0 < n →
    (s.stkAdmit .debug a n false = eOk → s.dapRead a n = (s.noteStack (s.stackOwner a) a n, if s.stackBad a n then ePoison else eOk, s.stackNat a n)) ∧
    (s.stkAdmit .debug a n true = eOk → s.dapWrite a n x = ((s.noteStack (s.stackOwner a) a n).stackPut a (leBytes n x) (fun _ => false), eOk)) ∧
    (s.stkAdmit .debug a n false ≠ eOk → s.dapRead a n = (s.regRefuse .debug (s.stkAdmit .debug a n false) a, s.stkAdmit .debug a n false, 0))) ∧
  (∀ (s : State), s.host.up = false →
    let u := s.modBoot (fun b => { b with extest := true })
    exec .extest s = .next ((List.range 7).foldl (fun z p => if (z.port p).st = .up ∨ (z.port p).st = .hello ∨ (z.port p).st = .align ∨ (z.port p).st = .train then z.linkTo p .down else z) u) ∧
    exec .testLogicReset s = .next (s.modBoot (fun b => { b with extest := false })))

/-- Accesses of the register space: A read by a core of a register it may read answers its value and clears what a read clears; one through the
debug port clears nothing; the lowest word of a wide register keeps a snapshot and a higher word answers it. A write does what the register's field
gives. A refused access is logged and answered with the status, which the host's functions see as zero data. A core of the mesh gets its answer as a
REGRSP packet of the control network. A PF access before the seal waits, and a VF without a vat reads zero. The debug view and the scan window are
accesses at their offsets. While manifest records remain the firmware applies the next one; one that it may not apply is not written, and the boot
has FAILED with code 8 and writes nothing further (the model's choices of log entry 150). The management core sets any counter, whose watches are
tested, and closes an open connection. -/
def Obligations.Registers : Prop :=
  (∀ (c off size a : Nat) (k y : RegView) (s x : State), s.pwr.on = true → off < 0x3000000 → s.regFind (.core c) off size false = .ok (k, a) →
    x = s.touchCore (.core c) off false → y = x.freshView (.core c) off size k → y.bits ≤ 64 →
    exec (.rcRead (.core c) off size) s = .next (y.cleared.regAnswered (.core c) off eOk (some (y.value % 2 ^ y.bits)))) ∧
  (∀ (c off a : Nat) (k y : RegView) (s x : State), s.pwr.on = true → off < 0x3000000 → s.regFind (.core c) off 8 false = .ok (k, a) →
    x = s.touchCore (.core c) off false → y = x.freshView (.core c) off 8 k → 64 < y.bits →
    let i := (a - y.base) / 8
    (i = 0 → exec (.wideRegisterRead (.core c) off) s = .next ((y.cleared.keepSnap (.core c) y).regAnswered (.core c) off eOk (some (fld y.value 0 64)))) ∧
    (i ≠ 0 → exec (.wideRegisterRead (.core c) off) s = .next (x.regAnswered (.core c) off eOk (some (x.snapWord (.core c) y i))))) ∧
  (∀ (off size a : Nat) (k y : RegView) (s x : State), s.pwr.on = true → off < 0x3000000 → s.regFind .debug off size false = .ok (k, a) →
    x = s.touchCore .debug off false → y = x.freshView .debug off size k → y.bits ≤ 64 → s.sleepingCl .debug off = none →
    exec (.rcRead .debug off size) s = .next (x.send (.regAnswer .debug off eOk (y.value % 2 ^ y.bits)))) ∧
  (∀ (c off size x a : Nat) (k : RegView) (p : RegView × Nat) (s : State), s.pwr.on = true → off < 0x3000000 →
    s.regFind (.core c) off size true = .ok p → (s.touchCore (.core c) off true).regFind (.core c) off size true = .ok (k, a) →
    s.cmdSleeps (.core c) off x = none → c ≠ mgmtCore ∨ (s.boot.stage ≠ .failed ∧ s.manRec = none) →
    let r := k.write ((a - k.base) / 8) (x % 2 ^ (8 * size))
    exec (.registerWrite (.core c) off size x) s = .next (r.1.regAnswered (.core c) off r.2 none)) ∧
  (∀ (w : Who) (off size x e : Nat) (s : State), s.pwr.on = true → off < 0x3000000 → s.pfAlone w = false → whoHost w = false ∨ s.hostOpen = true →
    s.lostVf w = false → s.sleepingCl w off = none → s.cmdSleeps w off x = none → w ≠ .core mgmtCore ∨ (s.boot.stage ≠ .failed ∧ s.manRec = none) →
    let seen := if whoHost w then eOk else e; let t := fun (z : Option Nat) => (s.regRefuse w e off).regAnswered w off seen z
    (s.regFind w off size false = .error e → exec (.rcRead w off size) s = .next (t (some 0))) ∧ (s.regFind w off size true = .error e → exec (.registerWrite w off size x) s = .next (t none))) ∧
  (∀ (w : Who) (off st : Nat) (x : Option Nat) (s : State),
    ((w = .core mgmtCore ∨ (∀ c, w ≠ .core c)) → s.regAnswered w off st x = s.send (.regAnswer w off st (x.getD 0))) ∧
    (∀ c, w = .core c → c ≠ mgmtCore →
      let src := regSource off ((s.blockCore off).getD 0); let data := if st = eOk ∧ x.isSome = true then leBytes 16 (x.getD 0 % 2 ^ 64) else []
      let h := clusterOf c + c % 64 * 2 ^ 6 + src.2 + data.length / 16 * 2 ^ 37 + 5 * 2 ^ 42 + (s.vatOfCore c).getD 0 * 2 ^ 46 + st * 2 ^ 50
      s.regAnswered w off st x = (s.send (.regAnswer w off st (x.getD 0))).send (.ctl src.1 (ctlPort src.1 (ctlTarget h)) h data []))) ∧
  (∀ (n off size x : Nat) (s : State), s.pwr.on = true → s.hostOpen = true → s.vfVat n = none →
    exec (.rcRead (.vf n) off size) s = .next (s.send (.regAnswer (.vf n) off eOk 0)) ∧
    exec (.registerWrite (.vf n) off size x) s = .next (s.send (.regAnswer (.vf n) off eOk 0))) ∧
  (∀ (r : Nat) (s : State), s.pwr.on = true → s.boot.stage ≠ .failed → s.manRec = some r →
    (s.recordFits r = true → exec (.registerWrite (.core mgmtCore) (recOff r) (recSize r) (recValue r)) s = .next ((s.modBoot (fun b => { b with manAt := b.manAt + 1 })).writeCmd (.core mgmtCore) (recOff r) (recSize r) (recValue r))) ∧
    (s.recordFits r = false → exec (.registerWrite (.core mgmtCore) (recOff r) (recSize r) (recValue r)) s = .next (s.modBoot (fun b => { b with code := 8, stage := .failed, rst := none }))) ∧
    (∀ off size x, exec (.registerWrite (.core mgmtCore) off size x) (s.modBoot (fun b => { b with code := 8, stage := .failed, rst := none })) = .next (s.modBoot (fun b => { b with code := 8, stage := .failed, rst := none }))) ∧
    (recOff r = 0x104 → s.recordFits r = false)) ∧
  (∀ (w : Who) (o size x : Nat) (s : State),
    (o < 0x2000 → exec (.coreViewAccess w false o size x) s = .next (s.readCmd w (0x2000 + o) size) ∧ exec (.coreViewAccess w true o size x) s = .next (s.writeCmd w (0x2000 + o) size x) ∧
      (s.boot.viewEn = true → s.throughView (0x2000 + o) = some (0x1000000 + s.boot.viewSel * 0x2000 + o))) ∧
    (o < 0x100000 → exec (.scanWindowAccess w false o size x) s = .next (s.readCmd w (0x3000000 + o) size) ∧ exec (.scanWindowAccess w true o size x) s = .next (s.writeCmd w (0x3000000 + o) size x) ∧ s.regRead w (0x3000000 + o) size = s.scanRead w o size)) ∧
  (∀ (n x : Nat) (s : State), s.pwr.on = true → n < 0x4040 →
    let off := if n < 0x4000 then 0x600400 + 0x10000 * (n / 256) + 4 * (n % 256) else 0x280200 + 4 * (n - 0x4000)
    exec (.syncCtrSet (.core mgmtCore) n x) s = .next (((s.setCtr n (x % 2 ^ 32)).testWatches (ctrNode n)).send (.regAnswer (.core mgmtCore) off eOk 0))) ∧
  (∀ (i : Nat) (s : State), s.pwr.on = true → i < 4096 →
    let off := 0x340008 + 16 * i; let u := (s.regRefuse (.core mgmtCore) eState (0x340000 + 16 * i))
    ((s.conn i).opened = true → exec (.connClose (.core mgmtCore) i) s = .next ((s.closeConn i).send (.regAnswer (.core mgmtCore) off eOk 0))) ∧ ((s.conn i).opened = false → exec (.connClose (.core mgmtCore) i) s = .next (u.send (.regAnswer (.core mgmtCore) off eState 0))))

/-- A step runs the command at the front of the queue: With a command at the front of the queue a step is that command's effect on the state with
the rest of the queue. On an empty queue a step is one cycle of the fast clock, or one tick of the global tick counter while that clock stands still
(the model's choice, log entries 1 and 108): a cycle adds its length to the part of a tick then passed the counter rises by the ticks that begin in
it and the count of 25 MHz cycles by one for every 40 of them, and without input power nothing happens. -/
def Obligations.StepTakesFront : Prop :=
  (∀ (c : Instr) (l : List Instr) (s : State),
    step { s with pending := c :: l } = exec c { s with pending := l }) ∧
  (∀ (s : State), s.pending = [] →
    step s = .next s.tick ∧ (s.pwr.on = false → s.tick = s) ∧ (s.pwr.on = true → s.fastOn = true → s.tick.clk = { gtc := s.clk.gtc + BitVec.ofNat 64 ((s.clk.phase + s.cycleLen) / 2160), fast := s.clk.fast + 1, phase := (s.clk.phase + s.cycleLen) % 2160, prev := s.clk.gtc, ao := s.clk.ao + BitVec.ofNat 64 ((s.clk.aoTick + (s.clk.phase + s.cycleLen) / 2160) / 40), aoTick := (s.clk.aoTick + (s.clk.phase + s.cycleLen) / 2160) % 40 }) ∧ (s.pwr.on = true → s.fastOn = false → s.tick.clk = { gtc := s.clk.gtc + 1, fast := s.clk.fast, phase := edgePhase (s.clk.gtc.toNat + 1) s.hub.dvfs, prev := s.clk.gtc, ao := s.clk.ao + BitVec.ofNat 64 ((s.clk.aoTick + 1) / 40), aoTick := (s.clk.aoTick + 1) % 40 }))

/-- What each command leaves unchanged: A command changes no part of the state but those that partsOf names for it: no command changes the queue of
waiting commands, only the commands of the counter's synchronisation, of resets and of the registers change the clock, and so on for the cores, the
networks, the vats, the memory stacks, the hub, the span, the host port, the power controller, the boot block, what was sent, and the count of free
values. -/
def Obligations.CommandFrames : Prop :=
  (∀ (i : Instr) (s t : State), exec i s = .next t →
    Only (partsOf i) s t)

/-- Every step keeps the form of the memories: In every state whose stack memory, flash and flash buffer are in canonical form (addresses rising, no
listed byte equal to what an unlisted address reads as), a step that answers a next state keeps that form, whatever command it runs, ticks included.
-/
def Obligations.StepKeepsMemoryForm : Prop :=
  (∀ (s t : State), s.MemOk → step s = .next t →
    t.MemOk)

/-- The state right after reset: After reset the queue is empty, the counter and every vat and core are as the spec gives them, no register of the
boot block shows a boot, the memories list nothing and have their canonical form, and nothing was sent. The value of a byte of memory that nothing
has written, the typical fuse values and the blank keys are the model's choices and log entries say so. -/
def Obligations.ResetState : Prop :=
  (State.reset.pending = [] ∧
    State.reset.clk.gtc = 0 ∧
    State.reset.MemOk ∧
    (∀ v, (State.reset.vat v).st = .free ∧ (State.reset.vat v).jobValid = false) ∧
    (∀ c, (State.reset.ctl c).run = .idle ∧ (State.reset.ctl c).pc = 0) ∧
    State.reset.boot.sealed = false ∧
    State.reset.boot.stage = .rom ∧
    State.reset.span.tw.st = .single ∧
    (∀ p, (State.reset.port p).st = .disabled) ∧
    State.reset.mem.stack = [] ∧
    State.reset.mem.cmds = [] ∧
    (∀ r, (State.reset.ring r).en = false) ∧
    State.reset.pwr.asleep = false ∧
    State.reset.out = [])
end

