-- ==== Sys2Proof/Laws/State.lean ====
section
/-! SUPPORT. The small lemmas of State: tables, fields of conditional and folded states, and what each reader returns after each writer. -/

namespace Sys2Proof.Machine

/-! ## Tables -/

theorem Table.get_put_self {α : Type} (d : α) (t : Table α) (i : Nat) (x : α) : (t.put i x).get d i = x := by
  induction t with
  | nil => simp [Table.put, Table.get]
  | cons c t ih =>
    obtain ⟨k, w⟩ := c
    unfold Table.put
    split
    · simp [Table.get]
    · split
      · simp [Table.get]
      · rename_i h1 h2
        simp only [Table.get, if_neg (show k ≠ i by omega), ih]

theorem Table.get_put_other {α : Type} (d : α) (t : Table α) (i j : Nat) (x : α) (h : j ≠ i) : (t.put i x).get d j = t.get d j := by
  induction t with
  | nil => simp [Table.put, Table.get, Ne.symm h]
  | cons c t ih =>
    obtain ⟨k, w⟩ := c
    unfold Table.put
    split
    · simp only [Table.get, if_neg (Ne.symm h)]
    · split
      · rename_i hk
        subst hk
        simp only [Table.get, if_neg (Ne.symm h)]
      · simp only [Table.get, ih]

/-! ## Fields of conditional and folded states -/

@[simp] theorem State.pending_ite (c : Prop) [Decidable c] (a b : State) : (if c then a else b).pending = if c then a.pending else b.pending := by split <;> rfl
@[simp] theorem State.pending_foldl {α : Type} (f : State → α → State) (h : ∀ u x, (f u x).pending = u.pending) (t : State) (xs : List α) :
    (xs.foldl f t).pending = t.pending := by
  induction xs generalizing t with
  | nil => rfl
  | cons x xs ih => rw [List.foldl_cons, ih, h]
@[simp] theorem State.pending_foldl_fst {α β : Type} (f : State × β → α → State × β) (h : ∀ t x, (f t x).1.pending = t.1.pending) (t : State × β)
    (xs : List α) : (xs.foldl f t).1.pending = t.1.pending := by
  induction xs generalizing t with
  | nil => rfl
  | cons x xs ih => rw [List.foldl_cons, ih, h]
@[simp] theorem State.pending_foldl_snd {α β : Type} (f : β × State → α → β × State) (h : ∀ t x, (f t x).2.pending = t.2.pending) (t : β × State)
    (xs : List α) : (xs.foldl f t).2.pending = t.2.pending := by
  induction xs generalizing t with
  | nil => rfl
  | cons x xs ih => rw [List.foldl_cons, ih, h]
@[simp] theorem State.clk_ite (c : Prop) [Decidable c] (a b : State) : (if c then a else b).clk = if c then a.clk else b.clk := by split <;> rfl
@[simp] theorem State.clk_foldl {α : Type} (f : State → α → State) (h : ∀ u x, (f u x).clk = u.clk) (t : State) (xs : List α) :
    (xs.foldl f t).clk = t.clk := by
  induction xs generalizing t with
  | nil => rfl
  | cons x xs ih => rw [List.foldl_cons, ih, h]
@[simp] theorem State.clk_foldl_fst {α β : Type} (f : State × β → α → State × β) (h : ∀ t x, (f t x).1.clk = t.1.clk) (t : State × β)
    (xs : List α) : (xs.foldl f t).1.clk = t.1.clk := by
  induction xs generalizing t with
  | nil => rfl
  | cons x xs ih => rw [List.foldl_cons, ih, h]
@[simp] theorem State.clk_foldl_snd {α β : Type} (f : β × State → α → β × State) (h : ∀ t x, (f t x).2.clk = t.2.clk) (t : β × State)
    (xs : List α) : (xs.foldl f t).2.clk = t.2.clk := by
  induction xs generalizing t with
  | nil => rfl
  | cons x xs ih => rw [List.foldl_cons, ih, h]
@[simp] theorem State.cores_ite (c : Prop) [Decidable c] (a b : State) : (if c then a else b).cores = if c then a.cores else b.cores := by split <;> rfl
@[simp] theorem State.cores_foldl {α : Type} (f : State → α → State) (h : ∀ u x, (f u x).cores = u.cores) (t : State) (xs : List α) :
    (xs.foldl f t).cores = t.cores := by
  induction xs generalizing t with
  | nil => rfl
  | cons x xs ih => rw [List.foldl_cons, ih, h]
@[simp] theorem State.cores_foldl_fst {α β : Type} (f : State × β → α → State × β) (h : ∀ t x, (f t x).1.cores = t.1.cores) (t : State × β)
    (xs : List α) : (xs.foldl f t).1.cores = t.1.cores := by
  induction xs generalizing t with
  | nil => rfl
  | cons x xs ih => rw [List.foldl_cons, ih, h]
@[simp] theorem State.cores_foldl_snd {α β : Type} (f : β × State → α → β × State) (h : ∀ t x, (f t x).2.cores = t.2.cores) (t : β × State)
    (xs : List α) : (xs.foldl f t).2.cores = t.2.cores := by
  induction xs generalizing t with
  | nil => rfl
  | cons x xs ih => rw [List.foldl_cons, ih, h]
@[simp] theorem State.net_ite (c : Prop) [Decidable c] (a b : State) : (if c then a else b).net = if c then a.net else b.net := by split <;> rfl
@[simp] theorem State.net_foldl {α : Type} (f : State → α → State) (h : ∀ u x, (f u x).net = u.net) (t : State) (xs : List α) :
    (xs.foldl f t).net = t.net := by
  induction xs generalizing t with
  | nil => rfl
  | cons x xs ih => rw [List.foldl_cons, ih, h]
@[simp] theorem State.net_foldl_fst {α β : Type} (f : State × β → α → State × β) (h : ∀ t x, (f t x).1.net = t.1.net) (t : State × β)
    (xs : List α) : (xs.foldl f t).1.net = t.1.net := by
  induction xs generalizing t with
  | nil => rfl
  | cons x xs ih => rw [List.foldl_cons, ih, h]
@[simp] theorem State.net_foldl_snd {α β : Type} (f : β × State → α → β × State) (h : ∀ t x, (f t x).2.net = t.2.net) (t : β × State)
    (xs : List α) : (xs.foldl f t).2.net = t.2.net := by
  induction xs generalizing t with
  | nil => rfl
  | cons x xs ih => rw [List.foldl_cons, ih, h]
@[simp] theorem State.vats_ite (c : Prop) [Decidable c] (a b : State) : (if c then a else b).vats = if c then a.vats else b.vats := by split <;> rfl
@[simp] theorem State.vats_foldl {α : Type} (f : State → α → State) (h : ∀ u x, (f u x).vats = u.vats) (t : State) (xs : List α) :
    (xs.foldl f t).vats = t.vats := by
  induction xs generalizing t with
  | nil => rfl
  | cons x xs ih => rw [List.foldl_cons, ih, h]
@[simp] theorem State.vats_foldl_fst {α β : Type} (f : State × β → α → State × β) (h : ∀ t x, (f t x).1.vats = t.1.vats) (t : State × β)
    (xs : List α) : (xs.foldl f t).1.vats = t.1.vats := by
  induction xs generalizing t with
  | nil => rfl
  | cons x xs ih => rw [List.foldl_cons, ih, h]
@[simp] theorem State.vats_foldl_snd {α β : Type} (f : β × State → α → β × State) (h : ∀ t x, (f t x).2.vats = t.2.vats) (t : β × State)
    (xs : List α) : (xs.foldl f t).2.vats = t.2.vats := by
  induction xs generalizing t with
  | nil => rfl
  | cons x xs ih => rw [List.foldl_cons, ih, h]
@[simp] theorem State.mem_ite (c : Prop) [Decidable c] (a b : State) : (if c then a else b).mem = if c then a.mem else b.mem := by split <;> rfl
@[simp] theorem State.mem_foldl {α : Type} (f : State → α → State) (h : ∀ u x, (f u x).mem = u.mem) (t : State) (xs : List α) :
    (xs.foldl f t).mem = t.mem := by
  induction xs generalizing t with
  | nil => rfl
  | cons x xs ih => rw [List.foldl_cons, ih, h]
@[simp] theorem State.mem_foldl_fst {α β : Type} (f : State × β → α → State × β) (h : ∀ t x, (f t x).1.mem = t.1.mem) (t : State × β)
    (xs : List α) : (xs.foldl f t).1.mem = t.1.mem := by
  induction xs generalizing t with
  | nil => rfl
  | cons x xs ih => rw [List.foldl_cons, ih, h]
@[simp] theorem State.mem_foldl_snd {α β : Type} (f : β × State → α → β × State) (h : ∀ t x, (f t x).2.mem = t.2.mem) (t : β × State)
    (xs : List α) : (xs.foldl f t).2.mem = t.2.mem := by
  induction xs generalizing t with
  | nil => rfl
  | cons x xs ih => rw [List.foldl_cons, ih, h]
@[simp] theorem State.hub_ite (c : Prop) [Decidable c] (a b : State) : (if c then a else b).hub = if c then a.hub else b.hub := by split <;> rfl
@[simp] theorem State.hub_foldl {α : Type} (f : State → α → State) (h : ∀ u x, (f u x).hub = u.hub) (t : State) (xs : List α) :
    (xs.foldl f t).hub = t.hub := by
  induction xs generalizing t with
  | nil => rfl
  | cons x xs ih => rw [List.foldl_cons, ih, h]
@[simp] theorem State.hub_foldl_fst {α β : Type} (f : State × β → α → State × β) (h : ∀ t x, (f t x).1.hub = t.1.hub) (t : State × β)
    (xs : List α) : (xs.foldl f t).1.hub = t.1.hub := by
  induction xs generalizing t with
  | nil => rfl
  | cons x xs ih => rw [List.foldl_cons, ih, h]
@[simp] theorem State.hub_foldl_snd {α β : Type} (f : β × State → α → β × State) (h : ∀ t x, (f t x).2.hub = t.2.hub) (t : β × State)
    (xs : List α) : (xs.foldl f t).2.hub = t.2.hub := by
  induction xs generalizing t with
  | nil => rfl
  | cons x xs ih => rw [List.foldl_cons, ih, h]
@[simp] theorem State.span_ite (c : Prop) [Decidable c] (a b : State) : (if c then a else b).span = if c then a.span else b.span := by split <;> rfl
@[simp] theorem State.span_foldl {α : Type} (f : State → α → State) (h : ∀ u x, (f u x).span = u.span) (t : State) (xs : List α) :
    (xs.foldl f t).span = t.span := by
  induction xs generalizing t with
  | nil => rfl
  | cons x xs ih => rw [List.foldl_cons, ih, h]
@[simp] theorem State.span_foldl_fst {α β : Type} (f : State × β → α → State × β) (h : ∀ t x, (f t x).1.span = t.1.span) (t : State × β)
    (xs : List α) : (xs.foldl f t).1.span = t.1.span := by
  induction xs generalizing t with
  | nil => rfl
  | cons x xs ih => rw [List.foldl_cons, ih, h]
@[simp] theorem State.span_foldl_snd {α β : Type} (f : β × State → α → β × State) (h : ∀ t x, (f t x).2.span = t.2.span) (t : β × State)
    (xs : List α) : (xs.foldl f t).2.span = t.2.span := by
  induction xs generalizing t with
  | nil => rfl
  | cons x xs ih => rw [List.foldl_cons, ih, h]
@[simp] theorem State.host_ite (c : Prop) [Decidable c] (a b : State) : (if c then a else b).host = if c then a.host else b.host := by split <;> rfl
@[simp] theorem State.host_foldl {α : Type} (f : State → α → State) (h : ∀ u x, (f u x).host = u.host) (t : State) (xs : List α) :
    (xs.foldl f t).host = t.host := by
  induction xs generalizing t with
  | nil => rfl
  | cons x xs ih => rw [List.foldl_cons, ih, h]
@[simp] theorem State.host_foldl_fst {α β : Type} (f : State × β → α → State × β) (h : ∀ t x, (f t x).1.host = t.1.host) (t : State × β)
    (xs : List α) : (xs.foldl f t).1.host = t.1.host := by
  induction xs generalizing t with
  | nil => rfl
  | cons x xs ih => rw [List.foldl_cons, ih, h]
@[simp] theorem State.host_foldl_snd {α β : Type} (f : β × State → α → β × State) (h : ∀ t x, (f t x).2.host = t.2.host) (t : β × State)
    (xs : List α) : (xs.foldl f t).2.host = t.2.host := by
  induction xs generalizing t with
  | nil => rfl
  | cons x xs ih => rw [List.foldl_cons, ih, h]
@[simp] theorem State.pwr_ite (c : Prop) [Decidable c] (a b : State) : (if c then a else b).pwr = if c then a.pwr else b.pwr := by split <;> rfl
@[simp] theorem State.pwr_foldl {α : Type} (f : State → α → State) (h : ∀ u x, (f u x).pwr = u.pwr) (t : State) (xs : List α) :
    (xs.foldl f t).pwr = t.pwr := by
  induction xs generalizing t with
  | nil => rfl
  | cons x xs ih => rw [List.foldl_cons, ih, h]
@[simp] theorem State.pwr_foldl_fst {α β : Type} (f : State × β → α → State × β) (h : ∀ t x, (f t x).1.pwr = t.1.pwr) (t : State × β)
    (xs : List α) : (xs.foldl f t).1.pwr = t.1.pwr := by
  induction xs generalizing t with
  | nil => rfl
  | cons x xs ih => rw [List.foldl_cons, ih, h]
@[simp] theorem State.pwr_foldl_snd {α β : Type} (f : β × State → α → β × State) (h : ∀ t x, (f t x).2.pwr = t.2.pwr) (t : β × State)
    (xs : List α) : (xs.foldl f t).2.pwr = t.2.pwr := by
  induction xs generalizing t with
  | nil => rfl
  | cons x xs ih => rw [List.foldl_cons, ih, h]
@[simp] theorem State.boot_ite (c : Prop) [Decidable c] (a b : State) : (if c then a else b).boot = if c then a.boot else b.boot := by split <;> rfl
@[simp] theorem State.boot_foldl {α : Type} (f : State → α → State) (h : ∀ u x, (f u x).boot = u.boot) (t : State) (xs : List α) :
    (xs.foldl f t).boot = t.boot := by
  induction xs generalizing t with
  | nil => rfl
  | cons x xs ih => rw [List.foldl_cons, ih, h]
@[simp] theorem State.boot_foldl_fst {α β : Type} (f : State × β → α → State × β) (h : ∀ t x, (f t x).1.boot = t.1.boot) (t : State × β)
    (xs : List α) : (xs.foldl f t).1.boot = t.1.boot := by
  induction xs generalizing t with
  | nil => rfl
  | cons x xs ih => rw [List.foldl_cons, ih, h]
@[simp] theorem State.boot_foldl_snd {α β : Type} (f : β × State → α → β × State) (h : ∀ t x, (f t x).2.boot = t.2.boot) (t : β × State)
    (xs : List α) : (xs.foldl f t).2.boot = t.2.boot := by
  induction xs generalizing t with
  | nil => rfl
  | cons x xs ih => rw [List.foldl_cons, ih, h]
@[simp] theorem State.out_ite (c : Prop) [Decidable c] (a b : State) : (if c then a else b).out = if c then a.out else b.out := by split <;> rfl
@[simp] theorem State.out_foldl {α : Type} (f : State → α → State) (h : ∀ u x, (f u x).out = u.out) (t : State) (xs : List α) :
    (xs.foldl f t).out = t.out := by
  induction xs generalizing t with
  | nil => rfl
  | cons x xs ih => rw [List.foldl_cons, ih, h]
@[simp] theorem State.out_foldl_fst {α β : Type} (f : State × β → α → State × β) (h : ∀ t x, (f t x).1.out = t.1.out) (t : State × β)
    (xs : List α) : (xs.foldl f t).1.out = t.1.out := by
  induction xs generalizing t with
  | nil => rfl
  | cons x xs ih => rw [List.foldl_cons, ih, h]
@[simp] theorem State.out_foldl_snd {α β : Type} (f : β × State → α → β × State) (h : ∀ t x, (f t x).2.out = t.2.out) (t : β × State)
    (xs : List α) : (xs.foldl f t).2.out = t.2.out := by
  induction xs generalizing t with
  | nil => rfl
  | cons x xs ih => rw [List.foldl_cons, ih, h]
@[simp] theorem State.free_ite (c : Prop) [Decidable c] (a b : State) : (if c then a else b).free = if c then a.free else b.free := by split <;> rfl
@[simp] theorem State.free_foldl {α : Type} (f : State → α → State) (h : ∀ u x, (f u x).free = u.free) (t : State) (xs : List α) :
    (xs.foldl f t).free = t.free := by
  induction xs generalizing t with
  | nil => rfl
  | cons x xs ih => rw [List.foldl_cons, ih, h]
@[simp] theorem State.free_foldl_fst {α β : Type} (f : State × β → α → State × β) (h : ∀ t x, (f t x).1.free = t.1.free) (t : State × β)
    (xs : List α) : (xs.foldl f t).1.free = t.1.free := by
  induction xs generalizing t with
  | nil => rfl
  | cons x xs ih => rw [List.foldl_cons, ih, h]
@[simp] theorem State.free_foldl_snd {α β : Type} (f : β × State → α → β × State) (h : ∀ t x, (f t x).2.free = t.2.free) (t : β × State)
    (xs : List α) : (xs.foldl f t).2.free = t.2.free := by
  induction xs generalizing t with
  | nil => rfl
  | cons x xs ih => rw [List.foldl_cons, ih, h]
@[simp] theorem State.snd_ite {α β : Type} (c : Prop) [Decidable c] (a b : α × β) :
    (if c then a else b).2 = if c then a.2 else b.2 := by split <;> rfl
@[simp] theorem State.fst_ite {α β : Type} (c : Prop) [Decidable c] (a b : α × β) :
    (if c then a else b).1 = if c then a.1 else b.1 := by split <;> rfl

/-! ## Outcomes -/

@[simp] theorem resState_next (s t : State) : resState s (.next t) = t := rfl
theorem resState_def {s t : State} {r : Res} (h : r = .next t) : t = resState s r := by rw [h]; rfl

/-! ## Readers after writers -/

@[simp] theorem State.ctl_setCtl (s : State) (c : Nat) (x : Ctl) : (s.setCtl c x).ctl c = x := Table.get_put_self _ _ _ _
theorem State.ctl_setCtl_other (s : State) (c c' : Nat) (x : Ctl) (h : c' ≠ c) : (s.setCtl c x).ctl c' = s.ctl c' := Table.get_put_other _ _ _ _ _ h
@[simp] theorem State.ctl_modCtl (s : State) (c : Nat) (f : Ctl → Ctl) : (s.modCtl c f).ctl c = f (s.ctl c) := State.ctl_setCtl _ _ _
@[simp] theorem State.queue_setQueue (s : State) (c : Nat) (q : Nat) (x : EngQ) : (s.setQueue c q x).queue c q = x := Table.get_put_self _ _ _ _
@[simp] theorem State.queue_modQueue (s : State) (c : Nat) (q : Nat) (f : EngQ → EngQ) : (s.modQueue c q f).queue c q = f (s.queue c q) := State.queue_setQueue _ _ _ _
@[simp] theorem State.imem_setImem (s : State) (c : Nat) (x : Memory) : (s.setImem c x).imem c = x := Table.get_put_self _ _ _ _
theorem State.imem_setImem_other (s : State) (c c' : Nat) (x : Memory) (h : c' ≠ c) : (s.setImem c x).imem c' = s.imem c' := Table.get_put_other _ _ _ _ _ h
@[simp] theorem State.imem_modImem (s : State) (c : Nat) (f : Memory → Memory) : (s.modImem c f).imem c = f (s.imem c) := State.imem_setImem _ _ _
@[simp] theorem State.spad_setSpad (s : State) (c : Nat) (x : Spad) : (s.setSpad c x).spad c = x := Table.get_put_self _ _ _ _
theorem State.spad_setSpad_other (s : State) (c c' : Nat) (x : Spad) (h : c' ≠ c) : (s.setSpad c x).spad c' = s.spad c' := Table.get_put_other _ _ _ _ _ h
@[simp] theorem State.spad_modSpad (s : State) (c : Nat) (f : Spad → Spad) : (s.modSpad c f).spad c = f (s.spad c) := State.spad_setSpad _ _ _
@[simp] theorem State.irqCause_setIrqCause (s : State) (c : Nat) (x : BitVec 6) : (s.setIrqCause c x).irqCause c = x := Table.get_put_self _ _ _ _
theorem State.irqCause_setIrqCause_other (s : State) (c c' : Nat) (x : BitVec 6) (h : c' ≠ c) : (s.setIrqCause c x).irqCause c' = s.irqCause c' := Table.get_put_other _ _ _ _ _ h
@[simp] theorem State.irqCause_modIrqCause (s : State) (c : Nat) (f : BitVec 6 → BitVec 6) : (s.modIrqCause c f).irqCause c = f (s.irqCause c) := State.irqCause_setIrqCause _ _ _
@[simp] theorem State.arith_setArith (s : State) (c : Nat) (x : BitVec 8) : (s.setArith c x).arith c = x := Table.get_put_self _ _ _ _
theorem State.arith_setArith_other (s : State) (c c' : Nat) (x : BitVec 8) (h : c' ≠ c) : (s.setArith c x).arith c' = s.arith c' := Table.get_put_other _ _ _ _ _ h
@[simp] theorem State.arith_modArith (s : State) (c : Nat) (f : BitVec 8 → BitVec 8) : (s.modArith c f).arith c = f (s.arith c) := State.arith_setArith _ _ _
@[simp] theorem State.mat_setMat (s : State) (c : Nat) (x : Mat) : (s.setMat c x).mat c = x := Table.get_put_self _ _ _ _
theorem State.mat_setMat_other (s : State) (c c' : Nat) (x : Mat) (h : c' ≠ c) : (s.setMat c x).mat c' = s.mat c' := Table.get_put_other _ _ _ _ _ h
@[simp] theorem State.mat_modMat (s : State) (c : Nat) (f : Mat → Mat) : (s.modMat c f).mat c = f (s.mat c) := State.mat_setMat _ _ _
@[simp] theorem State.vec_setVec (s : State) (c : Nat) (x : Vec) : (s.setVec c x).vec c = x := Table.get_put_self _ _ _ _
theorem State.vec_setVec_other (s : State) (c c' : Nat) (x : Vec) (h : c' ≠ c) : (s.setVec c x).vec c' = s.vec c' := Table.get_put_other _ _ _ _ _ h
@[simp] theorem State.vec_modVec (s : State) (c : Nat) (f : Vec → Vec) : (s.modVec c f).vec c = f (s.vec c) := State.vec_setVec _ _ _
@[simp] theorem State.se_setSe (s : State) (c : Nat) (e : Nat) (x : Se) : (s.setSe c e x).se c e = x := Table.get_put_self _ _ _ _
@[simp] theorem State.se_modSe (s : State) (c : Nat) (e : Nat) (f : Se → Se) : (s.modSe c e f).se c e = f (s.se c e) := State.se_setSe _ _ _ _
@[simp] theorem State.ep_setEp (s : State) (c : Nat) (e : Nat) (x : Ep) : (s.setEp c e x).ep c e = x := Table.get_put_self _ _ _ _
@[simp] theorem State.ep_modEp (s : State) (c : Nat) (e : Nat) (f : Ep → Ep) : (s.modEp c e f).ep c e = f (s.ep c e) := State.ep_setEp _ _ _ _
@[simp] theorem State.adv_setAdv (s : State) (j : Nat) (x : AdvSlot) : (s.setAdv j x).adv j = x := Table.get_put_self _ _ _ _
theorem State.adv_setAdv_other (s : State) (j j' : Nat) (x : AdvSlot) (h : j' ≠ j) : (s.setAdv j x).adv j' = s.adv j' := Table.get_put_other _ _ _ _ _ h
@[simp] theorem State.adv_modAdv (s : State) (j : Nat) (f : AdvSlot → AdvSlot) : (s.modAdv j f).adv j = f (s.adv j) := State.adv_setAdv _ _ _
@[simp] theorem State.chn_setChn (s : State) (c : Nat) (x : Chn) : (s.setChn c x).chn c = x := Table.get_put_self _ _ _ _
theorem State.chn_setChn_other (s : State) (c c' : Nat) (x : Chn) (h : c' ≠ c) : (s.setChn c x).chn c' = s.chn c' := Table.get_put_other _ _ _ _ _ h
@[simp] theorem State.chn_modChn (s : State) (c : Nat) (f : Chn → Chn) : (s.modChn c f).chn c = f (s.chn c) := State.chn_setChn _ _ _
@[simp] theorem State.seAsyncLate_setSeAsyncLate (s : State) (c : Nat) (x : Nat) : (s.setSeAsyncLate c x).seAsyncLate c = x := Table.get_put_self _ _ _ _
theorem State.seAsyncLate_setSeAsyncLate_other (s : State) (c c' : Nat) (x : Nat) (h : c' ≠ c) : (s.setSeAsyncLate c x).seAsyncLate c' = s.seAsyncLate c' := Table.get_put_other _ _ _ _ _ h
@[simp] theorem State.seAsyncLate_modSeAsyncLate (s : State) (c : Nat) (f : Nat → Nat) : (s.modSeAsyncLate c f).seAsyncLate c = f (s.seAsyncLate c) := State.seAsyncLate_setSeAsyncLate _ _ _
@[simp] theorem State.seOndieLate_setSeOndieLate (s : State) (c : Nat) (x : Nat) : (s.setSeOndieLate c x).seOndieLate c = x := Table.get_put_self _ _ _ _
theorem State.seOndieLate_setSeOndieLate_other (s : State) (c c' : Nat) (x : Nat) (h : c' ≠ c) : (s.setSeOndieLate c x).seOndieLate c' = s.seOndieLate c' := Table.get_put_other _ _ _ _ _ h
@[simp] theorem State.seOndieLate_modSeOndieLate (s : State) (c : Nat) (f : Nat → Nat) : (s.modSeOndieLate c f).seOndieLate c = f (s.seOndieLate c) := State.seOndieLate_setSeOndieLate _ _ _
@[simp] theorem State.seRequests_setSeRequests (s : State) (c : Nat) (x : Nat) : (s.setSeRequests c x).seRequests c = x := Table.get_put_self _ _ _ _
theorem State.seRequests_setSeRequests_other (s : State) (c c' : Nat) (x : Nat) (h : c' ≠ c) : (s.setSeRequests c x).seRequests c' = s.seRequests c' := Table.get_put_other _ _ _ _ _ h
@[simp] theorem State.seRequests_modSeRequests (s : State) (c : Nat) (f : Nat → Nat) : (s.modSeRequests c f).seRequests c = f (s.seRequests c) := State.seRequests_setSeRequests _ _ _
@[simp] theorem State.seJoined_setSeJoined (s : State) (c : Nat) (x : Nat) : (s.setSeJoined c x).seJoined c = x := Table.get_put_self _ _ _ _
theorem State.seJoined_setSeJoined_other (s : State) (c c' : Nat) (x : Nat) (h : c' ≠ c) : (s.setSeJoined c x).seJoined c' = s.seJoined c' := Table.get_put_other _ _ _ _ _ h
@[simp] theorem State.seJoined_modSeJoined (s : State) (c : Nat) (f : Nat → Nat) : (s.modSeJoined c f).seJoined c = f (s.seJoined c) := State.seJoined_setSeJoined _ _ _
@[simp] theorem State.vat_setVat (s : State) (v : Nat) (x : Vat) : (s.setVat v x).vat v = x := Table.get_put_self _ _ _ _
theorem State.vat_setVat_other (s : State) (v v' : Nat) (x : Vat) (h : v' ≠ v) : (s.setVat v x).vat v' = s.vat v' := Table.get_put_other _ _ _ _ _ h
@[simp] theorem State.vat_modVat (s : State) (v : Nat) (f : Vat → Vat) : (s.modVat v f).vat v = f (s.vat v) := State.vat_setVat _ _ _
@[simp] theorem State.ctr_setCtr (s : State) (a : Nat) (x : Nat) : (s.setCtr a x).ctr a = x := Table.get_put_self _ _ _ _
theorem State.ctr_setCtr_other (s : State) (a a' : Nat) (x : Nat) (h : a' ≠ a) : (s.setCtr a x).ctr a' = s.ctr a' := Table.get_put_other _ _ _ _ _ h
@[simp] theorem State.ctr_modCtr (s : State) (a : Nat) (f : Nat → Nat) : (s.modCtr a f).ctr a = f (s.ctr a) := State.ctr_setCtr _ _ _
@[simp] theorem State.plan_setPlan (s : State) (p : Nat) (v : Nat) (x : PlanVat) : (s.setPlan p v x).plan p v = x := Table.get_put_self _ _ _ _
@[simp] theorem State.plan_modPlan (s : State) (p : Nat) (v : Nat) (f : PlanVat → PlanVat) : (s.modPlan p v f).plan p v = f (s.plan p v) := State.plan_setPlan _ _ _ _
@[simp] theorem State.couchTop_setCouchTop (s : State) (i : Nat) (x : Nat) : (s.setCouchTop i x).couchTop i = x := Table.get_put_self _ _ _ _
theorem State.couchTop_setCouchTop_other (s : State) (i i' : Nat) (x : Nat) (h : i' ≠ i) : (s.setCouchTop i x).couchTop i' = s.couchTop i' := Table.get_put_other _ _ _ _ _ h
@[simp] theorem State.couchTop_modCouchTop (s : State) (i : Nat) (f : Nat → Nat) : (s.modCouchTop i f).couchTop i = f (s.couchTop i) := State.couchTop_setCouchTop _ _ _
@[simp] theorem State.gsync_setGsync (s : State) (i : Nat) (x : GsyncCtl) : (s.setGsync i x).gsync i = x := Table.get_put_self _ _ _ _
theorem State.gsync_setGsync_other (s : State) (i i' : Nat) (x : GsyncCtl) (h : i' ≠ i) : (s.setGsync i x).gsync i' = s.gsync i' := Table.get_put_other _ _ _ _ _ h
@[simp] theorem State.gsync_modGsync (s : State) (i : Nat) (f : GsyncCtl → GsyncCtl) : (s.modGsync i f).gsync i = f (s.gsync i) := State.gsync_setGsync _ _ _
@[simp] theorem State.presented_setPresented (s : State) (n : Nat) (x : List SyncIn) : (s.setPresented n x).presented n = x := Table.get_put_self _ _ _ _
theorem State.presented_setPresented_other (s : State) (n n' : Nat) (x : List SyncIn) (h : n' ≠ n) : (s.setPresented n x).presented n' = s.presented n' := Table.get_put_other _ _ _ _ _ h
@[simp] theorem State.presented_modPresented (s : State) (n : Nat) (f : List SyncIn → List SyncIn) : (s.modPresented n f).presented n = f (s.presented n) := State.presented_setPresented _ _ _
@[simp] theorem State.route_setRoute (s : State) (r : Nat) (i : Nat) (x : RouteEnt) : (s.setRoute r i x).route r i = x := Table.get_put_self _ _ _ _
@[simp] theorem State.route_modRoute (s : State) (r : Nat) (i : Nat) (f : RouteEnt → RouteEnt) : (s.modRoute r i f).route r i = f (s.route r i) := State.route_setRoute _ _ _ _
@[simp] theorem State.conn_setConn (s : State) (i : Nat) (x : Conn) : (s.setConn i x).conn i = x := Table.get_put_self _ _ _ _
theorem State.conn_setConn_other (s : State) (i i' : Nat) (x : Conn) (h : i' ≠ i) : (s.setConn i x).conn i' = s.conn i' := Table.get_put_other _ _ _ _ _ h
@[simp] theorem State.conn_modConn (s : State) (i : Nat) (f : Conn → Conn) : (s.modConn i f).conn i = f (s.conn i) := State.conn_setConn _ _ _
@[simp] theorem State.port_setPort (s : State) (p : Nat) (x : SpanPort) : (s.setPort p x).port p = x := Table.get_put_self _ _ _ _
theorem State.port_setPort_other (s : State) (p p' : Nat) (x : SpanPort) (h : p' ≠ p) : (s.setPort p x).port p' = s.port p' := Table.get_put_other _ _ _ _ _ h
@[simp] theorem State.port_modPort (s : State) (p : Nat) (f : SpanPort → SpanPort) : (s.modPort p f).port p = f (s.port p) := State.port_setPort _ _ _
@[simp] theorem State.vatPerm_setVatPerm (s : State) (v : Nat) (x : SpanVatPerm) : (s.setVatPerm v x).vatPerm v = x := Table.get_put_self _ _ _ _
theorem State.vatPerm_setVatPerm_other (s : State) (v v' : Nat) (x : SpanVatPerm) (h : v' ≠ v) : (s.setVatPerm v x).vatPerm v' = s.vatPerm v' := Table.get_put_other _ _ _ _ _ h
@[simp] theorem State.vatPerm_modVatPerm (s : State) (v : Nat) (f : SpanVatPerm → SpanVatPerm) : (s.modVatPerm v f).vatPerm v = f (s.vatPerm v) := State.vatPerm_setVatPerm _ _ _
@[simp] theorem State.ring_setRing (s : State) (r : Nat) (x : Ring) : (s.setRing r x).ring r = x := Table.get_put_self _ _ _ _
theorem State.ring_setRing_other (s : State) (r r' : Nat) (x : Ring) (h : r' ≠ r) : (s.setRing r x).ring r' = s.ring r' := Table.get_put_other _ _ _ _ _ h
@[simp] theorem State.ring_modRing (s : State) (r : Nat) (f : Ring → Ring) : (s.modRing r f).ring r = f (s.ring r) := State.ring_setRing _ _ _
@[simp] theorem State.hostFn_setHostFn (s : State) (n : Nat) (x : HostFn) : (s.setHostFn n x).hostFn n = x := Table.get_put_self _ _ _ _
theorem State.hostFn_setHostFn_other (s : State) (n n' : Nat) (x : HostFn) (h : n' ≠ n) : (s.setHostFn n x).hostFn n' = s.hostFn n' := Table.get_put_other _ _ _ _ _ h
@[simp] theorem State.hostFn_modHostFn (s : State) (n : Nat) (f : HostFn → HostFn) : (s.modHostFn n f).hostFn n = f (s.hostFn n) := State.hostFn_setHostFn _ _ _
@[simp] theorem State.stk_setStk (s : State) (i : Nat) (x : Stk) : (s.setStk i x).stk i = x := Table.get_put_self _ _ _ _
theorem State.stk_setStk_other (s : State) (i i' : Nat) (x : Stk) (h : i' ≠ i) : (s.setStk i x).stk i' = s.stk i' := Table.get_put_other _ _ _ _ _ h
@[simp] theorem State.stk_modStk (s : State) (i : Nat) (f : Stk → Stk) : (s.modStk i f).stk i = f (s.stk i) := State.stk_setStk _ _ _
@[simp] theorem State.ver_setVer (s : State) (i : Nat) (x : VerEnt) : (s.setVer i x).ver i = x := Table.get_put_self _ _ _ _
theorem State.ver_setVer_other (s : State) (i i' : Nat) (x : VerEnt) (h : i' ≠ i) : (s.setVer i x).ver i' = s.ver i' := Table.get_put_other _ _ _ _ _ h
@[simp] theorem State.ver_modVer (s : State) (i : Nat) (f : VerEnt → VerEnt) : (s.modVer i f).ver i = f (s.ver i) := State.ver_setVer _ _ _
@[simp] theorem State.seqSlot_setSeqSlot (s : State) (i : Nat) (x : Seq) : (s.setSeqSlot i x).seqSlot i = x := Table.get_put_self _ _ _ _
theorem State.seqSlot_setSeqSlot_other (s : State) (i i' : Nat) (x : Seq) (h : i' ≠ i) : (s.setSeqSlot i x).seqSlot i' = s.seqSlot i' := Table.get_put_other _ _ _ _ _ h
@[simp] theorem State.seqSlot_modSeqSlot (s : State) (i : Nat) (f : Seq → Seq) : (s.modSeqSlot i f).seqSlot i = f (s.seqSlot i) := State.seqSlot_setSeqSlot _ _ _
@[simp] theorem State.export__setExport_ (s : State) (v : Nat) (i : Nat) (x : Export) : (s.setExport_ v i x).export_ v i = x := Table.get_put_self _ _ _ _
@[simp] theorem State.export__modExport_ (s : State) (v : Nat) (i : Nat) (f : Export → Export) : (s.modExport_ v i f).export_ v i = f (s.export_ v i) := State.export__setExport_ _ _ _ _
@[simp] theorem State.drops_setDrops (s : State) (cl : Nat) (x : NetDrops) : (s.setDrops cl x).drops cl = x := Table.get_put_self _ _ _ _
theorem State.drops_setDrops_other (s : State) (cl cl' : Nat) (x : NetDrops) (h : cl' ≠ cl) : (s.setDrops cl x).drops cl' = s.drops cl' := Table.get_put_other _ _ _ _ _ h
@[simp] theorem State.drops_modDrops (s : State) (cl : Nat) (f : NetDrops → NetDrops) : (s.modDrops cl f).drops cl = f (s.drops cl) := State.drops_setDrops _ _ _
@[simp] theorem State.irqSrc_setIrqSrc (s : State) (n : Nat) (x : IrqSrc) : (s.setIrqSrc n x).irqSrc n = x := Table.get_put_self _ _ _ _
theorem State.irqSrc_setIrqSrc_other (s : State) (n n' : Nat) (x : IrqSrc) (h : n' ≠ n) : (s.setIrqSrc n x).irqSrc n' = s.irqSrc n' := Table.get_put_other _ _ _ _ _ h
@[simp] theorem State.irqSrc_modIrqSrc (s : State) (n : Nat) (f : IrqSrc → IrqSrc) : (s.modIrqSrc n f).irqSrc n = f (s.irqSrc n) := State.irqSrc_setIrqSrc _ _ _
@[simp] theorem State.irqTgt_setIrqTgt (s : State) (t : Nat) (x : IrqTgt) : (s.setIrqTgt t x).irqTgt t = x := Table.get_put_self _ _ _ _
theorem State.irqTgt_setIrqTgt_other (s : State) (t t' : Nat) (x : IrqTgt) (h : t' ≠ t) : (s.setIrqTgt t x).irqTgt t' = s.irqTgt t' := Table.get_put_other _ _ _ _ _ h
@[simp] theorem State.irqTgt_modIrqTgt (s : State) (t : Nat) (f : IrqTgt → IrqTgt) : (s.modIrqTgt t f).irqTgt t = f (s.irqTgt t) := State.irqTgt_setIrqTgt _ _ _
@[simp] theorem State.wakeSel_setWakeSel (s : State) (i : Nat) (x : WakeSel) : (s.setWakeSel i x).wakeSel i = x := Table.get_put_self _ _ _ _
theorem State.wakeSel_setWakeSel_other (s : State) (i i' : Nat) (x : WakeSel) (h : i' ≠ i) : (s.setWakeSel i x).wakeSel i' = s.wakeSel i' := Table.get_put_other _ _ _ _ _ h
@[simp] theorem State.wakeSel_modWakeSel (s : State) (i : Nat) (f : WakeSel → WakeSel) : (s.modWakeSel i f).wakeSel i = f (s.wakeSel i) := State.wakeSel_setWakeSel _ _ _
@[simp] theorem State.trace_setTrace (s : State) (cl : Nat) (x : Trace) : (s.setTrace cl x).trace cl = x := Table.get_put_self _ _ _ _
theorem State.trace_setTrace_other (s : State) (cl cl' : Nat) (x : Trace) (h : cl' ≠ cl) : (s.setTrace cl x).trace cl' = s.trace cl' := Table.get_put_other _ _ _ _ _ h
@[simp] theorem State.trace_modTrace (s : State) (cl : Nat) (f : Trace → Trace) : (s.modTrace cl f).trace cl = f (s.trace cl) := State.trace_setTrace _ _ _
@[simp] theorem State.clPwr_setClPwr (s : State) (cl : Nat) (x : ClPwr) : (s.setClPwr cl x).clPwr cl = x := Table.get_put_self _ _ _ _
theorem State.clPwr_setClPwr_other (s : State) (cl cl' : Nat) (x : ClPwr) (h : cl' ≠ cl) : (s.setClPwr cl x).clPwr cl' = s.clPwr cl' := Table.get_put_other _ _ _ _ _ h
@[simp] theorem State.clPwr_modClPwr (s : State) (cl : Nat) (f : ClPwr → ClPwr) : (s.modClPwr cl f).clPwr cl = f (s.clPwr cl) := State.clPwr_setClPwr _ _ _
@[simp] theorem State.setCtl_beside (s : State) (c : Nat) (x : Ctl) :
    (∀ (c_ : Nat) (q_ : Nat), (s.setCtl c x).queue c_ q_ = s.queue c_ q_) ∧
    (∀ (c_ : Nat), (s.setCtl c x).imem c_ = s.imem c_) ∧
    (∀ (c_ : Nat), (s.setCtl c x).spad c_ = s.spad c_) ∧
    (∀ (c_ : Nat), (s.setCtl c x).irqCause c_ = s.irqCause c_) ∧
    (∀ (c_ : Nat), (s.setCtl c x).arith c_ = s.arith c_) ∧
    (∀ (c_ : Nat), (s.setCtl c x).mat c_ = s.mat c_) ∧
    (∀ (c_ : Nat), (s.setCtl c x).vec c_ = s.vec c_) ∧
    (∀ (c_ : Nat) (e_ : Nat), (s.setCtl c x).se c_ e_ = s.se c_ e_) ∧
    (∀ (c_ : Nat) (e_ : Nat), (s.setCtl c x).ep c_ e_ = s.ep c_ e_) ∧
    (∀ (c_ : Nat), (s.setCtl c x).chn c_ = s.chn c_) ∧
    (∀ (c_ : Nat), (s.setCtl c x).seAsyncLate c_ = s.seAsyncLate c_) ∧
    (∀ (c_ : Nat), (s.setCtl c x).seOndieLate c_ = s.seOndieLate c_) ∧
    (∀ (c_ : Nat), (s.setCtl c x).seRequests c_ = s.seRequests c_) ∧
    (∀ (c_ : Nat), (s.setCtl c x).seJoined c_ = s.seJoined c_) :=
  ⟨fun _ _ => rfl, fun _ => rfl, fun _ => rfl, fun _ => rfl, fun _ => rfl, fun _ => rfl, fun _ => rfl, fun _ _ => rfl, fun _ _ => rfl, fun _ => rfl, fun _ => rfl, fun _ => rfl, fun _ => rfl, fun _ => rfl⟩
@[simp] theorem State.modCtl_beside (s : State) (c : Nat) (f : Ctl → Ctl) :
    (∀ (c_ : Nat) (q_ : Nat), (s.modCtl c f).queue c_ q_ = s.queue c_ q_) ∧
    (∀ (c_ : Nat), (s.modCtl c f).imem c_ = s.imem c_) ∧
    (∀ (c_ : Nat), (s.modCtl c f).spad c_ = s.spad c_) ∧
    (∀ (c_ : Nat), (s.modCtl c f).irqCause c_ = s.irqCause c_) ∧
    (∀ (c_ : Nat), (s.modCtl c f).arith c_ = s.arith c_) ∧
    (∀ (c_ : Nat), (s.modCtl c f).mat c_ = s.mat c_) ∧
    (∀ (c_ : Nat), (s.modCtl c f).vec c_ = s.vec c_) ∧
    (∀ (c_ : Nat) (e_ : Nat), (s.modCtl c f).se c_ e_ = s.se c_ e_) ∧
    (∀ (c_ : Nat) (e_ : Nat), (s.modCtl c f).ep c_ e_ = s.ep c_ e_) ∧
    (∀ (c_ : Nat), (s.modCtl c f).chn c_ = s.chn c_) ∧
    (∀ (c_ : Nat), (s.modCtl c f).seAsyncLate c_ = s.seAsyncLate c_) ∧
    (∀ (c_ : Nat), (s.modCtl c f).seOndieLate c_ = s.seOndieLate c_) ∧
    (∀ (c_ : Nat), (s.modCtl c f).seRequests c_ = s.seRequests c_) ∧
    (∀ (c_ : Nat), (s.modCtl c f).seJoined c_ = s.seJoined c_) :=
  ⟨fun _ _ => rfl, fun _ => rfl, fun _ => rfl, fun _ => rfl, fun _ => rfl, fun _ => rfl, fun _ => rfl, fun _ _ => rfl, fun _ _ => rfl, fun _ => rfl, fun _ => rfl, fun _ => rfl, fun _ => rfl, fun _ => rfl⟩
@[simp] theorem State.setQueue_beside (s : State) (c : Nat) (q : Nat) (x : EngQ) :
    (∀ (c_ : Nat), (s.setQueue c q x).ctl c_ = s.ctl c_) ∧
    (∀ (c_ : Nat), (s.setQueue c q x).imem c_ = s.imem c_) ∧
    (∀ (c_ : Nat), (s.setQueue c q x).spad c_ = s.spad c_) ∧
    (∀ (c_ : Nat), (s.setQueue c q x).irqCause c_ = s.irqCause c_) ∧
    (∀ (c_ : Nat), (s.setQueue c q x).arith c_ = s.arith c_) ∧
    (∀ (c_ : Nat), (s.setQueue c q x).mat c_ = s.mat c_) ∧
    (∀ (c_ : Nat), (s.setQueue c q x).vec c_ = s.vec c_) ∧
    (∀ (c_ : Nat) (e_ : Nat), (s.setQueue c q x).se c_ e_ = s.se c_ e_) ∧
    (∀ (c_ : Nat) (e_ : Nat), (s.setQueue c q x).ep c_ e_ = s.ep c_ e_) ∧
    (∀ (c_ : Nat), (s.setQueue c q x).chn c_ = s.chn c_) ∧
    (∀ (c_ : Nat), (s.setQueue c q x).seAsyncLate c_ = s.seAsyncLate c_) ∧
    (∀ (c_ : Nat), (s.setQueue c q x).seOndieLate c_ = s.seOndieLate c_) ∧
    (∀ (c_ : Nat), (s.setQueue c q x).seRequests c_ = s.seRequests c_) ∧
    (∀ (c_ : Nat), (s.setQueue c q x).seJoined c_ = s.seJoined c_) :=
  ⟨fun _ => rfl, fun _ => rfl, fun _ => rfl, fun _ => rfl, fun _ => rfl, fun _ => rfl, fun _ => rfl, fun _ _ => rfl, fun _ _ => rfl, fun _ => rfl, fun _ => rfl, fun _ => rfl, fun _ => rfl, fun _ => rfl⟩
@[simp] theorem State.modQueue_beside (s : State) (c : Nat) (q : Nat) (f : EngQ → EngQ) :
    (∀ (c_ : Nat), (s.modQueue c q f).ctl c_ = s.ctl c_) ∧
    (∀ (c_ : Nat), (s.modQueue c q f).imem c_ = s.imem c_) ∧
    (∀ (c_ : Nat), (s.modQueue c q f).spad c_ = s.spad c_) ∧
    (∀ (c_ : Nat), (s.modQueue c q f).irqCause c_ = s.irqCause c_) ∧
    (∀ (c_ : Nat), (s.modQueue c q f).arith c_ = s.arith c_) ∧
    (∀ (c_ : Nat), (s.modQueue c q f).mat c_ = s.mat c_) ∧
    (∀ (c_ : Nat), (s.modQueue c q f).vec c_ = s.vec c_) ∧
    (∀ (c_ : Nat) (e_ : Nat), (s.modQueue c q f).se c_ e_ = s.se c_ e_) ∧
    (∀ (c_ : Nat) (e_ : Nat), (s.modQueue c q f).ep c_ e_ = s.ep c_ e_) ∧
    (∀ (c_ : Nat), (s.modQueue c q f).chn c_ = s.chn c_) ∧
    (∀ (c_ : Nat), (s.modQueue c q f).seAsyncLate c_ = s.seAsyncLate c_) ∧
    (∀ (c_ : Nat), (s.modQueue c q f).seOndieLate c_ = s.seOndieLate c_) ∧
    (∀ (c_ : Nat), (s.modQueue c q f).seRequests c_ = s.seRequests c_) ∧
    (∀ (c_ : Nat), (s.modQueue c q f).seJoined c_ = s.seJoined c_) :=
  ⟨fun _ => rfl, fun _ => rfl, fun _ => rfl, fun _ => rfl, fun _ => rfl, fun _ => rfl, fun _ => rfl, fun _ _ => rfl, fun _ _ => rfl, fun _ => rfl, fun _ => rfl, fun _ => rfl, fun _ => rfl, fun _ => rfl⟩
@[simp] theorem State.setImem_beside (s : State) (c : Nat) (x : Memory) :
    (∀ (c_ : Nat), (s.setImem c x).ctl c_ = s.ctl c_) ∧
    (∀ (c_ : Nat) (q_ : Nat), (s.setImem c x).queue c_ q_ = s.queue c_ q_) ∧
    (∀ (c_ : Nat), (s.setImem c x).spad c_ = s.spad c_) ∧
    (∀ (c_ : Nat), (s.setImem c x).irqCause c_ = s.irqCause c_) ∧
    (∀ (c_ : Nat), (s.setImem c x).arith c_ = s.arith c_) ∧
    (∀ (c_ : Nat), (s.setImem c x).mat c_ = s.mat c_) ∧
    (∀ (c_ : Nat), (s.setImem c x).vec c_ = s.vec c_) ∧
    (∀ (c_ : Nat) (e_ : Nat), (s.setImem c x).se c_ e_ = s.se c_ e_) ∧
    (∀ (c_ : Nat) (e_ : Nat), (s.setImem c x).ep c_ e_ = s.ep c_ e_) ∧
    (∀ (c_ : Nat), (s.setImem c x).chn c_ = s.chn c_) ∧
    (∀ (c_ : Nat), (s.setImem c x).seAsyncLate c_ = s.seAsyncLate c_) ∧
    (∀ (c_ : Nat), (s.setImem c x).seOndieLate c_ = s.seOndieLate c_) ∧
    (∀ (c_ : Nat), (s.setImem c x).seRequests c_ = s.seRequests c_) ∧
    (∀ (c_ : Nat), (s.setImem c x).seJoined c_ = s.seJoined c_) :=
  ⟨fun _ => rfl, fun _ _ => rfl, fun _ => rfl, fun _ => rfl, fun _ => rfl, fun _ => rfl, fun _ => rfl, fun _ _ => rfl, fun _ _ => rfl, fun _ => rfl, fun _ => rfl, fun _ => rfl, fun _ => rfl, fun _ => rfl⟩
@[simp] theorem State.modImem_beside (s : State) (c : Nat) (f : Memory → Memory) :
    (∀ (c_ : Nat), (s.modImem c f).ctl c_ = s.ctl c_) ∧
    (∀ (c_ : Nat) (q_ : Nat), (s.modImem c f).queue c_ q_ = s.queue c_ q_) ∧
    (∀ (c_ : Nat), (s.modImem c f).spad c_ = s.spad c_) ∧
    (∀ (c_ : Nat), (s.modImem c f).irqCause c_ = s.irqCause c_) ∧
    (∀ (c_ : Nat), (s.modImem c f).arith c_ = s.arith c_) ∧
    (∀ (c_ : Nat), (s.modImem c f).mat c_ = s.mat c_) ∧
    (∀ (c_ : Nat), (s.modImem c f).vec c_ = s.vec c_) ∧
    (∀ (c_ : Nat) (e_ : Nat), (s.modImem c f).se c_ e_ = s.se c_ e_) ∧
    (∀ (c_ : Nat) (e_ : Nat), (s.modImem c f).ep c_ e_ = s.ep c_ e_) ∧
    (∀ (c_ : Nat), (s.modImem c f).chn c_ = s.chn c_) ∧
    (∀ (c_ : Nat), (s.modImem c f).seAsyncLate c_ = s.seAsyncLate c_) ∧
    (∀ (c_ : Nat), (s.modImem c f).seOndieLate c_ = s.seOndieLate c_) ∧
    (∀ (c_ : Nat), (s.modImem c f).seRequests c_ = s.seRequests c_) ∧
    (∀ (c_ : Nat), (s.modImem c f).seJoined c_ = s.seJoined c_) :=
  ⟨fun _ => rfl, fun _ _ => rfl, fun _ => rfl, fun _ => rfl, fun _ => rfl, fun _ => rfl, fun _ => rfl, fun _ _ => rfl, fun _ _ => rfl, fun _ => rfl, fun _ => rfl, fun _ => rfl, fun _ => rfl, fun _ => rfl⟩
@[simp] theorem State.setSpad_beside (s : State) (c : Nat) (x : Spad) :
    (∀ (c_ : Nat), (s.setSpad c x).ctl c_ = s.ctl c_) ∧
    (∀ (c_ : Nat) (q_ : Nat), (s.setSpad c x).queue c_ q_ = s.queue c_ q_) ∧
    (∀ (c_ : Nat), (s.setSpad c x).imem c_ = s.imem c_) ∧
    (∀ (c_ : Nat), (s.setSpad c x).irqCause c_ = s.irqCause c_) ∧
    (∀ (c_ : Nat), (s.setSpad c x).arith c_ = s.arith c_) ∧
    (∀ (c_ : Nat), (s.setSpad c x).mat c_ = s.mat c_) ∧
    (∀ (c_ : Nat), (s.setSpad c x).vec c_ = s.vec c_) ∧
    (∀ (c_ : Nat) (e_ : Nat), (s.setSpad c x).se c_ e_ = s.se c_ e_) ∧
    (∀ (c_ : Nat) (e_ : Nat), (s.setSpad c x).ep c_ e_ = s.ep c_ e_) ∧
    (∀ (c_ : Nat), (s.setSpad c x).chn c_ = s.chn c_) ∧
    (∀ (c_ : Nat), (s.setSpad c x).seAsyncLate c_ = s.seAsyncLate c_) ∧
    (∀ (c_ : Nat), (s.setSpad c x).seOndieLate c_ = s.seOndieLate c_) ∧
    (∀ (c_ : Nat), (s.setSpad c x).seRequests c_ = s.seRequests c_) ∧
    (∀ (c_ : Nat), (s.setSpad c x).seJoined c_ = s.seJoined c_) :=
  ⟨fun _ => rfl, fun _ _ => rfl, fun _ => rfl, fun _ => rfl, fun _ => rfl, fun _ => rfl, fun _ => rfl, fun _ _ => rfl, fun _ _ => rfl, fun _ => rfl, fun _ => rfl, fun _ => rfl, fun _ => rfl, fun _ => rfl⟩
@[simp] theorem State.modSpad_beside (s : State) (c : Nat) (f : Spad → Spad) :
    (∀ (c_ : Nat), (s.modSpad c f).ctl c_ = s.ctl c_) ∧
    (∀ (c_ : Nat) (q_ : Nat), (s.modSpad c f).queue c_ q_ = s.queue c_ q_) ∧
    (∀ (c_ : Nat), (s.modSpad c f).imem c_ = s.imem c_) ∧
    (∀ (c_ : Nat), (s.modSpad c f).irqCause c_ = s.irqCause c_) ∧
    (∀ (c_ : Nat), (s.modSpad c f).arith c_ = s.arith c_) ∧
    (∀ (c_ : Nat), (s.modSpad c f).mat c_ = s.mat c_) ∧
    (∀ (c_ : Nat), (s.modSpad c f).vec c_ = s.vec c_) ∧
    (∀ (c_ : Nat) (e_ : Nat), (s.modSpad c f).se c_ e_ = s.se c_ e_) ∧
    (∀ (c_ : Nat) (e_ : Nat), (s.modSpad c f).ep c_ e_ = s.ep c_ e_) ∧
    (∀ (c_ : Nat), (s.modSpad c f).chn c_ = s.chn c_) ∧
    (∀ (c_ : Nat), (s.modSpad c f).seAsyncLate c_ = s.seAsyncLate c_) ∧
    (∀ (c_ : Nat), (s.modSpad c f).seOndieLate c_ = s.seOndieLate c_) ∧
    (∀ (c_ : Nat), (s.modSpad c f).seRequests c_ = s.seRequests c_) ∧
    (∀ (c_ : Nat), (s.modSpad c f).seJoined c_ = s.seJoined c_) :=
  ⟨fun _ => rfl, fun _ _ => rfl, fun _ => rfl, fun _ => rfl, fun _ => rfl, fun _ => rfl, fun _ => rfl, fun _ _ => rfl, fun _ _ => rfl, fun _ => rfl, fun _ => rfl, fun _ => rfl, fun _ => rfl, fun _ => rfl⟩
@[simp] theorem State.setIrqCause_beside (s : State) (c : Nat) (x : BitVec 6) :
    (∀ (c_ : Nat), (s.setIrqCause c x).ctl c_ = s.ctl c_) ∧
    (∀ (c_ : Nat) (q_ : Nat), (s.setIrqCause c x).queue c_ q_ = s.queue c_ q_) ∧
    (∀ (c_ : Nat), (s.setIrqCause c x).imem c_ = s.imem c_) ∧
    (∀ (c_ : Nat), (s.setIrqCause c x).spad c_ = s.spad c_) ∧
    (∀ (c_ : Nat), (s.setIrqCause c x).arith c_ = s.arith c_) ∧
    (∀ (c_ : Nat), (s.setIrqCause c x).mat c_ = s.mat c_) ∧
    (∀ (c_ : Nat), (s.setIrqCause c x).vec c_ = s.vec c_) ∧
    (∀ (c_ : Nat) (e_ : Nat), (s.setIrqCause c x).se c_ e_ = s.se c_ e_) ∧
    (∀ (c_ : Nat) (e_ : Nat), (s.setIrqCause c x).ep c_ e_ = s.ep c_ e_) ∧
    (∀ (c_ : Nat), (s.setIrqCause c x).chn c_ = s.chn c_) ∧
    (∀ (c_ : Nat), (s.setIrqCause c x).seAsyncLate c_ = s.seAsyncLate c_) ∧
    (∀ (c_ : Nat), (s.setIrqCause c x).seOndieLate c_ = s.seOndieLate c_) ∧
    (∀ (c_ : Nat), (s.setIrqCause c x).seRequests c_ = s.seRequests c_) ∧
    (∀ (c_ : Nat), (s.setIrqCause c x).seJoined c_ = s.seJoined c_) :=
  ⟨fun _ => rfl, fun _ _ => rfl, fun _ => rfl, fun _ => rfl, fun _ => rfl, fun _ => rfl, fun _ => rfl, fun _ _ => rfl, fun _ _ => rfl, fun _ => rfl, fun _ => rfl, fun _ => rfl, fun _ => rfl, fun _ => rfl⟩
@[simp] theorem State.modIrqCause_beside (s : State) (c : Nat) (f : BitVec 6 → BitVec 6) :
    (∀ (c_ : Nat), (s.modIrqCause c f).ctl c_ = s.ctl c_) ∧
    (∀ (c_ : Nat) (q_ : Nat), (s.modIrqCause c f).queue c_ q_ = s.queue c_ q_) ∧
    (∀ (c_ : Nat), (s.modIrqCause c f).imem c_ = s.imem c_) ∧
    (∀ (c_ : Nat), (s.modIrqCause c f).spad c_ = s.spad c_) ∧
    (∀ (c_ : Nat), (s.modIrqCause c f).arith c_ = s.arith c_) ∧
    (∀ (c_ : Nat), (s.modIrqCause c f).mat c_ = s.mat c_) ∧
    (∀ (c_ : Nat), (s.modIrqCause c f).vec c_ = s.vec c_) ∧
    (∀ (c_ : Nat) (e_ : Nat), (s.modIrqCause c f).se c_ e_ = s.se c_ e_) ∧
    (∀ (c_ : Nat) (e_ : Nat), (s.modIrqCause c f).ep c_ e_ = s.ep c_ e_) ∧
    (∀ (c_ : Nat), (s.modIrqCause c f).chn c_ = s.chn c_) ∧
    (∀ (c_ : Nat), (s.modIrqCause c f).seAsyncLate c_ = s.seAsyncLate c_) ∧
    (∀ (c_ : Nat), (s.modIrqCause c f).seOndieLate c_ = s.seOndieLate c_) ∧
    (∀ (c_ : Nat), (s.modIrqCause c f).seRequests c_ = s.seRequests c_) ∧
    (∀ (c_ : Nat), (s.modIrqCause c f).seJoined c_ = s.seJoined c_) :=
  ⟨fun _ => rfl, fun _ _ => rfl, fun _ => rfl, fun _ => rfl, fun _ => rfl, fun _ => rfl, fun _ => rfl, fun _ _ => rfl, fun _ _ => rfl, fun _ => rfl, fun _ => rfl, fun _ => rfl, fun _ => rfl, fun _ => rfl⟩
@[simp] theorem State.setArith_beside (s : State) (c : Nat) (x : BitVec 8) :
    (∀ (c_ : Nat), (s.setArith c x).ctl c_ = s.ctl c_) ∧
    (∀ (c_ : Nat) (q_ : Nat), (s.setArith c x).queue c_ q_ = s.queue c_ q_) ∧
    (∀ (c_ : Nat), (s.setArith c x).imem c_ = s.imem c_) ∧
    (∀ (c_ : Nat), (s.setArith c x).spad c_ = s.spad c_) ∧
    (∀ (c_ : Nat), (s.setArith c x).irqCause c_ = s.irqCause c_) ∧
    (∀ (c_ : Nat), (s.setArith c x).mat c_ = s.mat c_) ∧
    (∀ (c_ : Nat), (s.setArith c x).vec c_ = s.vec c_) ∧
    (∀ (c_ : Nat) (e_ : Nat), (s.setArith c x).se c_ e_ = s.se c_ e_) ∧
    (∀ (c_ : Nat) (e_ : Nat), (s.setArith c x).ep c_ e_ = s.ep c_ e_) ∧
    (∀ (c_ : Nat), (s.setArith c x).chn c_ = s.chn c_) ∧
    (∀ (c_ : Nat), (s.setArith c x).seAsyncLate c_ = s.seAsyncLate c_) ∧
    (∀ (c_ : Nat), (s.setArith c x).seOndieLate c_ = s.seOndieLate c_) ∧
    (∀ (c_ : Nat), (s.setArith c x).seRequests c_ = s.seRequests c_) ∧
    (∀ (c_ : Nat), (s.setArith c x).seJoined c_ = s.seJoined c_) :=
  ⟨fun _ => rfl, fun _ _ => rfl, fun _ => rfl, fun _ => rfl, fun _ => rfl, fun _ => rfl, fun _ => rfl, fun _ _ => rfl, fun _ _ => rfl, fun _ => rfl, fun _ => rfl, fun _ => rfl, fun _ => rfl, fun _ => rfl⟩
@[simp] theorem State.modArith_beside (s : State) (c : Nat) (f : BitVec 8 → BitVec 8) :
    (∀ (c_ : Nat), (s.modArith c f).ctl c_ = s.ctl c_) ∧
    (∀ (c_ : Nat) (q_ : Nat), (s.modArith c f).queue c_ q_ = s.queue c_ q_) ∧
    (∀ (c_ : Nat), (s.modArith c f).imem c_ = s.imem c_) ∧
    (∀ (c_ : Nat), (s.modArith c f).spad c_ = s.spad c_) ∧
    (∀ (c_ : Nat), (s.modArith c f).irqCause c_ = s.irqCause c_) ∧
    (∀ (c_ : Nat), (s.modArith c f).mat c_ = s.mat c_) ∧
    (∀ (c_ : Nat), (s.modArith c f).vec c_ = s.vec c_) ∧
    (∀ (c_ : Nat) (e_ : Nat), (s.modArith c f).se c_ e_ = s.se c_ e_) ∧
    (∀ (c_ : Nat) (e_ : Nat), (s.modArith c f).ep c_ e_ = s.ep c_ e_) ∧
    (∀ (c_ : Nat), (s.modArith c f).chn c_ = s.chn c_) ∧
    (∀ (c_ : Nat), (s.modArith c f).seAsyncLate c_ = s.seAsyncLate c_) ∧
    (∀ (c_ : Nat), (s.modArith c f).seOndieLate c_ = s.seOndieLate c_) ∧
    (∀ (c_ : Nat), (s.modArith c f).seRequests c_ = s.seRequests c_) ∧
    (∀ (c_ : Nat), (s.modArith c f).seJoined c_ = s.seJoined c_) :=
  ⟨fun _ => rfl, fun _ _ => rfl, fun _ => rfl, fun _ => rfl, fun _ => rfl, fun _ => rfl, fun _ => rfl, fun _ _ => rfl, fun _ _ => rfl, fun _ => rfl, fun _ => rfl, fun _ => rfl, fun _ => rfl, fun _ => rfl⟩
@[simp] theorem State.setMat_beside (s : State) (c : Nat) (x : Mat) :
    (∀ (c_ : Nat), (s.setMat c x).ctl c_ = s.ctl c_) ∧
    (∀ (c_ : Nat) (q_ : Nat), (s.setMat c x).queue c_ q_ = s.queue c_ q_) ∧
    (∀ (c_ : Nat), (s.setMat c x).imem c_ = s.imem c_) ∧
    (∀ (c_ : Nat), (s.setMat c x).spad c_ = s.spad c_) ∧
    (∀ (c_ : Nat), (s.setMat c x).irqCause c_ = s.irqCause c_) ∧
    (∀ (c_ : Nat), (s.setMat c x).arith c_ = s.arith c_) ∧
    (∀ (c_ : Nat), (s.setMat c x).vec c_ = s.vec c_) ∧
    (∀ (c_ : Nat) (e_ : Nat), (s.setMat c x).se c_ e_ = s.se c_ e_) ∧
    (∀ (c_ : Nat) (e_ : Nat), (s.setMat c x).ep c_ e_ = s.ep c_ e_) ∧
    (∀ (c_ : Nat), (s.setMat c x).chn c_ = s.chn c_) ∧
    (∀ (c_ : Nat), (s.setMat c x).seAsyncLate c_ = s.seAsyncLate c_) ∧
    (∀ (c_ : Nat), (s.setMat c x).seOndieLate c_ = s.seOndieLate c_) ∧
    (∀ (c_ : Nat), (s.setMat c x).seRequests c_ = s.seRequests c_) ∧
    (∀ (c_ : Nat), (s.setMat c x).seJoined c_ = s.seJoined c_) :=
  ⟨fun _ => rfl, fun _ _ => rfl, fun _ => rfl, fun _ => rfl, fun _ => rfl, fun _ => rfl, fun _ => rfl, fun _ _ => rfl, fun _ _ => rfl, fun _ => rfl, fun _ => rfl, fun _ => rfl, fun _ => rfl, fun _ => rfl⟩
@[simp] theorem State.modMat_beside (s : State) (c : Nat) (f : Mat → Mat) :
    (∀ (c_ : Nat), (s.modMat c f).ctl c_ = s.ctl c_) ∧
    (∀ (c_ : Nat) (q_ : Nat), (s.modMat c f).queue c_ q_ = s.queue c_ q_) ∧
    (∀ (c_ : Nat), (s.modMat c f).imem c_ = s.imem c_) ∧
    (∀ (c_ : Nat), (s.modMat c f).spad c_ = s.spad c_) ∧
    (∀ (c_ : Nat), (s.modMat c f).irqCause c_ = s.irqCause c_) ∧
    (∀ (c_ : Nat), (s.modMat c f).arith c_ = s.arith c_) ∧
    (∀ (c_ : Nat), (s.modMat c f).vec c_ = s.vec c_) ∧
    (∀ (c_ : Nat) (e_ : Nat), (s.modMat c f).se c_ e_ = s.se c_ e_) ∧
    (∀ (c_ : Nat) (e_ : Nat), (s.modMat c f).ep c_ e_ = s.ep c_ e_) ∧
    (∀ (c_ : Nat), (s.modMat c f).chn c_ = s.chn c_) ∧
    (∀ (c_ : Nat), (s.modMat c f).seAsyncLate c_ = s.seAsyncLate c_) ∧
    (∀ (c_ : Nat), (s.modMat c f).seOndieLate c_ = s.seOndieLate c_) ∧
    (∀ (c_ : Nat), (s.modMat c f).seRequests c_ = s.seRequests c_) ∧
    (∀ (c_ : Nat), (s.modMat c f).seJoined c_ = s.seJoined c_) :=
  ⟨fun _ => rfl, fun _ _ => rfl, fun _ => rfl, fun _ => rfl, fun _ => rfl, fun _ => rfl, fun _ => rfl, fun _ _ => rfl, fun _ _ => rfl, fun _ => rfl, fun _ => rfl, fun _ => rfl, fun _ => rfl, fun _ => rfl⟩
@[simp] theorem State.setVec_beside (s : State) (c : Nat) (x : Vec) :
    (∀ (c_ : Nat), (s.setVec c x).ctl c_ = s.ctl c_) ∧
    (∀ (c_ : Nat) (q_ : Nat), (s.setVec c x).queue c_ q_ = s.queue c_ q_) ∧
    (∀ (c_ : Nat), (s.setVec c x).imem c_ = s.imem c_) ∧
    (∀ (c_ : Nat), (s.setVec c x).spad c_ = s.spad c_) ∧
    (∀ (c_ : Nat), (s.setVec c x).irqCause c_ = s.irqCause c_) ∧
    (∀ (c_ : Nat), (s.setVec c x).arith c_ = s.arith c_) ∧
    (∀ (c_ : Nat), (s.setVec c x).mat c_ = s.mat c_) ∧
    (∀ (c_ : Nat) (e_ : Nat), (s.setVec c x).se c_ e_ = s.se c_ e_) ∧
    (∀ (c_ : Nat) (e_ : Nat), (s.setVec c x).ep c_ e_ = s.ep c_ e_) ∧
    (∀ (c_ : Nat), (s.setVec c x).chn c_ = s.chn c_) ∧
    (∀ (c_ : Nat), (s.setVec c x).seAsyncLate c_ = s.seAsyncLate c_) ∧
    (∀ (c_ : Nat), (s.setVec c x).seOndieLate c_ = s.seOndieLate c_) ∧
    (∀ (c_ : Nat), (s.setVec c x).seRequests c_ = s.seRequests c_) ∧
    (∀ (c_ : Nat), (s.setVec c x).seJoined c_ = s.seJoined c_) :=
  ⟨fun _ => rfl, fun _ _ => rfl, fun _ => rfl, fun _ => rfl, fun _ => rfl, fun _ => rfl, fun _ => rfl, fun _ _ => rfl, fun _ _ => rfl, fun _ => rfl, fun _ => rfl, fun _ => rfl, fun _ => rfl, fun _ => rfl⟩
@[simp] theorem State.modVec_beside (s : State) (c : Nat) (f : Vec → Vec) :
    (∀ (c_ : Nat), (s.modVec c f).ctl c_ = s.ctl c_) ∧
    (∀ (c_ : Nat) (q_ : Nat), (s.modVec c f).queue c_ q_ = s.queue c_ q_) ∧
    (∀ (c_ : Nat), (s.modVec c f).imem c_ = s.imem c_) ∧
    (∀ (c_ : Nat), (s.modVec c f).spad c_ = s.spad c_) ∧
    (∀ (c_ : Nat), (s.modVec c f).irqCause c_ = s.irqCause c_) ∧
    (∀ (c_ : Nat), (s.modVec c f).arith c_ = s.arith c_) ∧
    (∀ (c_ : Nat), (s.modVec c f).mat c_ = s.mat c_) ∧
    (∀ (c_ : Nat) (e_ : Nat), (s.modVec c f).se c_ e_ = s.se c_ e_) ∧
    (∀ (c_ : Nat) (e_ : Nat), (s.modVec c f).ep c_ e_ = s.ep c_ e_) ∧
    (∀ (c_ : Nat), (s.modVec c f).chn c_ = s.chn c_) ∧
    (∀ (c_ : Nat), (s.modVec c f).seAsyncLate c_ = s.seAsyncLate c_) ∧
    (∀ (c_ : Nat), (s.modVec c f).seOndieLate c_ = s.seOndieLate c_) ∧
    (∀ (c_ : Nat), (s.modVec c f).seRequests c_ = s.seRequests c_) ∧
    (∀ (c_ : Nat), (s.modVec c f).seJoined c_ = s.seJoined c_) :=
  ⟨fun _ => rfl, fun _ _ => rfl, fun _ => rfl, fun _ => rfl, fun _ => rfl, fun _ => rfl, fun _ => rfl, fun _ _ => rfl, fun _ _ => rfl, fun _ => rfl, fun _ => rfl, fun _ => rfl, fun _ => rfl, fun _ => rfl⟩
@[simp] theorem State.setSe_beside (s : State) (c : Nat) (e : Nat) (x : Se) :
    (∀ (c_ : Nat), (s.setSe c e x).ctl c_ = s.ctl c_) ∧
    (∀ (c_ : Nat) (q_ : Nat), (s.setSe c e x).queue c_ q_ = s.queue c_ q_) ∧
    (∀ (c_ : Nat), (s.setSe c e x).imem c_ = s.imem c_) ∧
    (∀ (c_ : Nat), (s.setSe c e x).spad c_ = s.spad c_) ∧
    (∀ (c_ : Nat), (s.setSe c e x).irqCause c_ = s.irqCause c_) ∧
    (∀ (c_ : Nat), (s.setSe c e x).arith c_ = s.arith c_) ∧
    (∀ (c_ : Nat), (s.setSe c e x).mat c_ = s.mat c_) ∧
    (∀ (c_ : Nat), (s.setSe c e x).vec c_ = s.vec c_) ∧
    (∀ (c_ : Nat) (e_ : Nat), (s.setSe c e x).ep c_ e_ = s.ep c_ e_) ∧
    (∀ (c_ : Nat), (s.setSe c e x).chn c_ = s.chn c_) ∧
    (∀ (c_ : Nat), (s.setSe c e x).seAsyncLate c_ = s.seAsyncLate c_) ∧
    (∀ (c_ : Nat), (s.setSe c e x).seOndieLate c_ = s.seOndieLate c_) ∧
    (∀ (c_ : Nat), (s.setSe c e x).seRequests c_ = s.seRequests c_) ∧
    (∀ (c_ : Nat), (s.setSe c e x).seJoined c_ = s.seJoined c_) :=
  ⟨fun _ => rfl, fun _ _ => rfl, fun _ => rfl, fun _ => rfl, fun _ => rfl, fun _ => rfl, fun _ => rfl, fun _ => rfl, fun _ _ => rfl, fun _ => rfl, fun _ => rfl, fun _ => rfl, fun _ => rfl, fun _ => rfl⟩
@[simp] theorem State.modSe_beside (s : State) (c : Nat) (e : Nat) (f : Se → Se) :
    (∀ (c_ : Nat), (s.modSe c e f).ctl c_ = s.ctl c_) ∧
    (∀ (c_ : Nat) (q_ : Nat), (s.modSe c e f).queue c_ q_ = s.queue c_ q_) ∧
    (∀ (c_ : Nat), (s.modSe c e f).imem c_ = s.imem c_) ∧
    (∀ (c_ : Nat), (s.modSe c e f).spad c_ = s.spad c_) ∧
    (∀ (c_ : Nat), (s.modSe c e f).irqCause c_ = s.irqCause c_) ∧
    (∀ (c_ : Nat), (s.modSe c e f).arith c_ = s.arith c_) ∧
    (∀ (c_ : Nat), (s.modSe c e f).mat c_ = s.mat c_) ∧
    (∀ (c_ : Nat), (s.modSe c e f).vec c_ = s.vec c_) ∧
    (∀ (c_ : Nat) (e_ : Nat), (s.modSe c e f).ep c_ e_ = s.ep c_ e_) ∧
    (∀ (c_ : Nat), (s.modSe c e f).chn c_ = s.chn c_) ∧
    (∀ (c_ : Nat), (s.modSe c e f).seAsyncLate c_ = s.seAsyncLate c_) ∧
    (∀ (c_ : Nat), (s.modSe c e f).seOndieLate c_ = s.seOndieLate c_) ∧
    (∀ (c_ : Nat), (s.modSe c e f).seRequests c_ = s.seRequests c_) ∧
    (∀ (c_ : Nat), (s.modSe c e f).seJoined c_ = s.seJoined c_) :=
  ⟨fun _ => rfl, fun _ _ => rfl, fun _ => rfl, fun _ => rfl, fun _ => rfl, fun _ => rfl, fun _ => rfl, fun _ => rfl, fun _ _ => rfl, fun _ => rfl, fun _ => rfl, fun _ => rfl, fun _ => rfl, fun _ => rfl⟩
@[simp] theorem State.setEp_beside (s : State) (c : Nat) (e : Nat) (x : Ep) :
    (∀ (c_ : Nat), (s.setEp c e x).ctl c_ = s.ctl c_) ∧
    (∀ (c_ : Nat) (q_ : Nat), (s.setEp c e x).queue c_ q_ = s.queue c_ q_) ∧
    (∀ (c_ : Nat), (s.setEp c e x).imem c_ = s.imem c_) ∧
    (∀ (c_ : Nat), (s.setEp c e x).spad c_ = s.spad c_) ∧
    (∀ (c_ : Nat), (s.setEp c e x).irqCause c_ = s.irqCause c_) ∧
    (∀ (c_ : Nat), (s.setEp c e x).arith c_ = s.arith c_) ∧
    (∀ (c_ : Nat), (s.setEp c e x).mat c_ = s.mat c_) ∧
    (∀ (c_ : Nat), (s.setEp c e x).vec c_ = s.vec c_) ∧
    (∀ (c_ : Nat) (e_ : Nat), (s.setEp c e x).se c_ e_ = s.se c_ e_) ∧
    (∀ (c_ : Nat), (s.setEp c e x).chn c_ = s.chn c_) ∧
    (∀ (c_ : Nat), (s.setEp c e x).seAsyncLate c_ = s.seAsyncLate c_) ∧
    (∀ (c_ : Nat), (s.setEp c e x).seOndieLate c_ = s.seOndieLate c_) ∧
    (∀ (c_ : Nat), (s.setEp c e x).seRequests c_ = s.seRequests c_) ∧
    (∀ (c_ : Nat), (s.setEp c e x).seJoined c_ = s.seJoined c_) :=
  ⟨fun _ => rfl, fun _ _ => rfl, fun _ => rfl, fun _ => rfl, fun _ => rfl, fun _ => rfl, fun _ => rfl, fun _ => rfl, fun _ _ => rfl, fun _ => rfl, fun _ => rfl, fun _ => rfl, fun _ => rfl, fun _ => rfl⟩
@[simp] theorem State.modEp_beside (s : State) (c : Nat) (e : Nat) (f : Ep → Ep) :
    (∀ (c_ : Nat), (s.modEp c e f).ctl c_ = s.ctl c_) ∧
    (∀ (c_ : Nat) (q_ : Nat), (s.modEp c e f).queue c_ q_ = s.queue c_ q_) ∧
    (∀ (c_ : Nat), (s.modEp c e f).imem c_ = s.imem c_) ∧
    (∀ (c_ : Nat), (s.modEp c e f).spad c_ = s.spad c_) ∧
    (∀ (c_ : Nat), (s.modEp c e f).irqCause c_ = s.irqCause c_) ∧
    (∀ (c_ : Nat), (s.modEp c e f).arith c_ = s.arith c_) ∧
    (∀ (c_ : Nat), (s.modEp c e f).mat c_ = s.mat c_) ∧
    (∀ (c_ : Nat), (s.modEp c e f).vec c_ = s.vec c_) ∧
    (∀ (c_ : Nat) (e_ : Nat), (s.modEp c e f).se c_ e_ = s.se c_ e_) ∧
    (∀ (c_ : Nat), (s.modEp c e f).chn c_ = s.chn c_) ∧
    (∀ (c_ : Nat), (s.modEp c e f).seAsyncLate c_ = s.seAsyncLate c_) ∧
    (∀ (c_ : Nat), (s.modEp c e f).seOndieLate c_ = s.seOndieLate c_) ∧
    (∀ (c_ : Nat), (s.modEp c e f).seRequests c_ = s.seRequests c_) ∧
    (∀ (c_ : Nat), (s.modEp c e f).seJoined c_ = s.seJoined c_) :=
  ⟨fun _ => rfl, fun _ _ => rfl, fun _ => rfl, fun _ => rfl, fun _ => rfl, fun _ => rfl, fun _ => rfl, fun _ => rfl, fun _ _ => rfl, fun _ => rfl, fun _ => rfl, fun _ => rfl, fun _ => rfl, fun _ => rfl⟩
@[simp] theorem State.setAdv_beside (s : State) (j : Nat) (x : AdvSlot) :
    (∀ (i_ : Nat), (s.setAdv j x).seqSlot i_ = s.seqSlot i_) ∧
    (∀ (n_ : Nat), (s.setAdv j x).irqSrc n_ = s.irqSrc n_) ∧
    (∀ (t_ : Nat), (s.setAdv j x).irqTgt t_ = s.irqTgt t_) ∧
    (∀ (i_ : Nat), (s.setAdv j x).wakeSel i_ = s.wakeSel i_) :=
  ⟨fun _ => rfl, fun _ => rfl, fun _ => rfl, fun _ => rfl⟩
@[simp] theorem State.modAdv_beside (s : State) (j : Nat) (f : AdvSlot → AdvSlot) :
    (∀ (i_ : Nat), (s.modAdv j f).seqSlot i_ = s.seqSlot i_) ∧
    (∀ (n_ : Nat), (s.modAdv j f).irqSrc n_ = s.irqSrc n_) ∧
    (∀ (t_ : Nat), (s.modAdv j f).irqTgt t_ = s.irqTgt t_) ∧
    (∀ (i_ : Nat), (s.modAdv j f).wakeSel i_ = s.wakeSel i_) :=
  ⟨fun _ => rfl, fun _ => rfl, fun _ => rfl, fun _ => rfl⟩
@[simp] theorem State.setChn_beside (s : State) (c : Nat) (x : Chn) :
    (∀ (c_ : Nat), (s.setChn c x).ctl c_ = s.ctl c_) ∧
    (∀ (c_ : Nat) (q_ : Nat), (s.setChn c x).queue c_ q_ = s.queue c_ q_) ∧
    (∀ (c_ : Nat), (s.setChn c x).imem c_ = s.imem c_) ∧
    (∀ (c_ : Nat), (s.setChn c x).spad c_ = s.spad c_) ∧
    (∀ (c_ : Nat), (s.setChn c x).irqCause c_ = s.irqCause c_) ∧
    (∀ (c_ : Nat), (s.setChn c x).arith c_ = s.arith c_) ∧
    (∀ (c_ : Nat), (s.setChn c x).mat c_ = s.mat c_) ∧
    (∀ (c_ : Nat), (s.setChn c x).vec c_ = s.vec c_) ∧
    (∀ (c_ : Nat) (e_ : Nat), (s.setChn c x).se c_ e_ = s.se c_ e_) ∧
    (∀ (c_ : Nat) (e_ : Nat), (s.setChn c x).ep c_ e_ = s.ep c_ e_) ∧
    (∀ (c_ : Nat), (s.setChn c x).seAsyncLate c_ = s.seAsyncLate c_) ∧
    (∀ (c_ : Nat), (s.setChn c x).seOndieLate c_ = s.seOndieLate c_) ∧
    (∀ (c_ : Nat), (s.setChn c x).seRequests c_ = s.seRequests c_) ∧
    (∀ (c_ : Nat), (s.setChn c x).seJoined c_ = s.seJoined c_) :=
  ⟨fun _ => rfl, fun _ _ => rfl, fun _ => rfl, fun _ => rfl, fun _ => rfl, fun _ => rfl, fun _ => rfl, fun _ => rfl, fun _ _ => rfl, fun _ _ => rfl, fun _ => rfl, fun _ => rfl, fun _ => rfl, fun _ => rfl⟩
@[simp] theorem State.modChn_beside (s : State) (c : Nat) (f : Chn → Chn) :
    (∀ (c_ : Nat), (s.modChn c f).ctl c_ = s.ctl c_) ∧
    (∀ (c_ : Nat) (q_ : Nat), (s.modChn c f).queue c_ q_ = s.queue c_ q_) ∧
    (∀ (c_ : Nat), (s.modChn c f).imem c_ = s.imem c_) ∧
    (∀ (c_ : Nat), (s.modChn c f).spad c_ = s.spad c_) ∧
    (∀ (c_ : Nat), (s.modChn c f).irqCause c_ = s.irqCause c_) ∧
    (∀ (c_ : Nat), (s.modChn c f).arith c_ = s.arith c_) ∧
    (∀ (c_ : Nat), (s.modChn c f).mat c_ = s.mat c_) ∧
    (∀ (c_ : Nat), (s.modChn c f).vec c_ = s.vec c_) ∧
    (∀ (c_ : Nat) (e_ : Nat), (s.modChn c f).se c_ e_ = s.se c_ e_) ∧
    (∀ (c_ : Nat) (e_ : Nat), (s.modChn c f).ep c_ e_ = s.ep c_ e_) ∧
    (∀ (c_ : Nat), (s.modChn c f).seAsyncLate c_ = s.seAsyncLate c_) ∧
    (∀ (c_ : Nat), (s.modChn c f).seOndieLate c_ = s.seOndieLate c_) ∧
    (∀ (c_ : Nat), (s.modChn c f).seRequests c_ = s.seRequests c_) ∧
    (∀ (c_ : Nat), (s.modChn c f).seJoined c_ = s.seJoined c_) :=
  ⟨fun _ => rfl, fun _ _ => rfl, fun _ => rfl, fun _ => rfl, fun _ => rfl, fun _ => rfl, fun _ => rfl, fun _ => rfl, fun _ _ => rfl, fun _ _ => rfl, fun _ => rfl, fun _ => rfl, fun _ => rfl, fun _ => rfl⟩
@[simp] theorem State.setSeAsyncLate_beside (s : State) (c : Nat) (x : Nat) :
    (∀ (c_ : Nat), (s.setSeAsyncLate c x).ctl c_ = s.ctl c_) ∧
    (∀ (c_ : Nat) (q_ : Nat), (s.setSeAsyncLate c x).queue c_ q_ = s.queue c_ q_) ∧
    (∀ (c_ : Nat), (s.setSeAsyncLate c x).imem c_ = s.imem c_) ∧
    (∀ (c_ : Nat), (s.setSeAsyncLate c x).spad c_ = s.spad c_) ∧
    (∀ (c_ : Nat), (s.setSeAsyncLate c x).irqCause c_ = s.irqCause c_) ∧
    (∀ (c_ : Nat), (s.setSeAsyncLate c x).arith c_ = s.arith c_) ∧
    (∀ (c_ : Nat), (s.setSeAsyncLate c x).mat c_ = s.mat c_) ∧
    (∀ (c_ : Nat), (s.setSeAsyncLate c x).vec c_ = s.vec c_) ∧
    (∀ (c_ : Nat) (e_ : Nat), (s.setSeAsyncLate c x).se c_ e_ = s.se c_ e_) ∧
    (∀ (c_ : Nat) (e_ : Nat), (s.setSeAsyncLate c x).ep c_ e_ = s.ep c_ e_) ∧
    (∀ (c_ : Nat), (s.setSeAsyncLate c x).chn c_ = s.chn c_) ∧
    (∀ (c_ : Nat), (s.setSeAsyncLate c x).seOndieLate c_ = s.seOndieLate c_) ∧
    (∀ (c_ : Nat), (s.setSeAsyncLate c x).seRequests c_ = s.seRequests c_) ∧
    (∀ (c_ : Nat), (s.setSeAsyncLate c x).seJoined c_ = s.seJoined c_) :=
  ⟨fun _ => rfl, fun _ _ => rfl, fun _ => rfl, fun _ => rfl, fun _ => rfl, fun _ => rfl, fun _ => rfl, fun _ => rfl, fun _ _ => rfl, fun _ _ => rfl, fun _ => rfl, fun _ => rfl, fun _ => rfl, fun _ => rfl⟩
@[simp] theorem State.modSeAsyncLate_beside (s : State) (c : Nat) (f : Nat → Nat) :
    (∀ (c_ : Nat), (s.modSeAsyncLate c f).ctl c_ = s.ctl c_) ∧
    (∀ (c_ : Nat) (q_ : Nat), (s.modSeAsyncLate c f).queue c_ q_ = s.queue c_ q_) ∧
    (∀ (c_ : Nat), (s.modSeAsyncLate c f).imem c_ = s.imem c_) ∧
    (∀ (c_ : Nat), (s.modSeAsyncLate c f).spad c_ = s.spad c_) ∧
    (∀ (c_ : Nat), (s.modSeAsyncLate c f).irqCause c_ = s.irqCause c_) ∧
    (∀ (c_ : Nat), (s.modSeAsyncLate c f).arith c_ = s.arith c_) ∧
    (∀ (c_ : Nat), (s.modSeAsyncLate c f).mat c_ = s.mat c_) ∧
    (∀ (c_ : Nat), (s.modSeAsyncLate c f).vec c_ = s.vec c_) ∧
    (∀ (c_ : Nat) (e_ : Nat), (s.modSeAsyncLate c f).se c_ e_ = s.se c_ e_) ∧
    (∀ (c_ : Nat) (e_ : Nat), (s.modSeAsyncLate c f).ep c_ e_ = s.ep c_ e_) ∧
    (∀ (c_ : Nat), (s.modSeAsyncLate c f).chn c_ = s.chn c_) ∧
    (∀ (c_ : Nat), (s.modSeAsyncLate c f).seOndieLate c_ = s.seOndieLate c_) ∧
    (∀ (c_ : Nat), (s.modSeAsyncLate c f).seRequests c_ = s.seRequests c_) ∧
    (∀ (c_ : Nat), (s.modSeAsyncLate c f).seJoined c_ = s.seJoined c_) :=
  ⟨fun _ => rfl, fun _ _ => rfl, fun _ => rfl, fun _ => rfl, fun _ => rfl, fun _ => rfl, fun _ => rfl, fun _ => rfl, fun _ _ => rfl, fun _ _ => rfl, fun _ => rfl, fun _ => rfl, fun _ => rfl, fun _ => rfl⟩
@[simp] theorem State.setSeOndieLate_beside (s : State) (c : Nat) (x : Nat) :
    (∀ (c_ : Nat), (s.setSeOndieLate c x).ctl c_ = s.ctl c_) ∧
    (∀ (c_ : Nat) (q_ : Nat), (s.setSeOndieLate c x).queue c_ q_ = s.queue c_ q_) ∧
    (∀ (c_ : Nat), (s.setSeOndieLate c x).imem c_ = s.imem c_) ∧
    (∀ (c_ : Nat), (s.setSeOndieLate c x).spad c_ = s.spad c_) ∧
    (∀ (c_ : Nat), (s.setSeOndieLate c x).irqCause c_ = s.irqCause c_) ∧
    (∀ (c_ : Nat), (s.setSeOndieLate c x).arith c_ = s.arith c_) ∧
    (∀ (c_ : Nat), (s.setSeOndieLate c x).mat c_ = s.mat c_) ∧
    (∀ (c_ : Nat), (s.setSeOndieLate c x).vec c_ = s.vec c_) ∧
    (∀ (c_ : Nat) (e_ : Nat), (s.setSeOndieLate c x).se c_ e_ = s.se c_ e_) ∧
    (∀ (c_ : Nat) (e_ : Nat), (s.setSeOndieLate c x).ep c_ e_ = s.ep c_ e_) ∧
    (∀ (c_ : Nat), (s.setSeOndieLate c x).chn c_ = s.chn c_) ∧
    (∀ (c_ : Nat), (s.setSeOndieLate c x).seAsyncLate c_ = s.seAsyncLate c_) ∧
    (∀ (c_ : Nat), (s.setSeOndieLate c x).seRequests c_ = s.seRequests c_) ∧
    (∀ (c_ : Nat), (s.setSeOndieLate c x).seJoined c_ = s.seJoined c_) :=
  ⟨fun _ => rfl, fun _ _ => rfl, fun _ => rfl, fun _ => rfl, fun _ => rfl, fun _ => rfl, fun _ => rfl, fun _ => rfl, fun _ _ => rfl, fun _ _ => rfl, fun _ => rfl, fun _ => rfl, fun _ => rfl, fun _ => rfl⟩
@[simp] theorem State.modSeOndieLate_beside (s : State) (c : Nat) (f : Nat → Nat) :
    (∀ (c_ : Nat), (s.modSeOndieLate c f).ctl c_ = s.ctl c_) ∧
    (∀ (c_ : Nat) (q_ : Nat), (s.modSeOndieLate c f).queue c_ q_ = s.queue c_ q_) ∧
    (∀ (c_ : Nat), (s.modSeOndieLate c f).imem c_ = s.imem c_) ∧
    (∀ (c_ : Nat), (s.modSeOndieLate c f).spad c_ = s.spad c_) ∧
    (∀ (c_ : Nat), (s.modSeOndieLate c f).irqCause c_ = s.irqCause c_) ∧
    (∀ (c_ : Nat), (s.modSeOndieLate c f).arith c_ = s.arith c_) ∧
    (∀ (c_ : Nat), (s.modSeOndieLate c f).mat c_ = s.mat c_) ∧
    (∀ (c_ : Nat), (s.modSeOndieLate c f).vec c_ = s.vec c_) ∧
    (∀ (c_ : Nat) (e_ : Nat), (s.modSeOndieLate c f).se c_ e_ = s.se c_ e_) ∧
    (∀ (c_ : Nat) (e_ : Nat), (s.modSeOndieLate c f).ep c_ e_ = s.ep c_ e_) ∧
    (∀ (c_ : Nat), (s.modSeOndieLate c f).chn c_ = s.chn c_) ∧
    (∀ (c_ : Nat), (s.modSeOndieLate c f).seAsyncLate c_ = s.seAsyncLate c_) ∧
    (∀ (c_ : Nat), (s.modSeOndieLate c f).seRequests c_ = s.seRequests c_) ∧
    (∀ (c_ : Nat), (s.modSeOndieLate c f).seJoined c_ = s.seJoined c_) :=
  ⟨fun _ => rfl, fun _ _ => rfl, fun _ => rfl, fun _ => rfl, fun _ => rfl, fun _ => rfl, fun _ => rfl, fun _ => rfl, fun _ _ => rfl, fun _ _ => rfl, fun _ => rfl, fun _ => rfl, fun _ => rfl, fun _ => rfl⟩
@[simp] theorem State.setSeRequests_beside (s : State) (c : Nat) (x : Nat) :
    (∀ (c_ : Nat), (s.setSeRequests c x).ctl c_ = s.ctl c_) ∧
    (∀ (c_ : Nat) (q_ : Nat), (s.setSeRequests c x).queue c_ q_ = s.queue c_ q_) ∧
    (∀ (c_ : Nat), (s.setSeRequests c x).imem c_ = s.imem c_) ∧
    (∀ (c_ : Nat), (s.setSeRequests c x).spad c_ = s.spad c_) ∧
    (∀ (c_ : Nat), (s.setSeRequests c x).irqCause c_ = s.irqCause c_) ∧
    (∀ (c_ : Nat), (s.setSeRequests c x).arith c_ = s.arith c_) ∧
    (∀ (c_ : Nat), (s.setSeRequests c x).mat c_ = s.mat c_) ∧
    (∀ (c_ : Nat), (s.setSeRequests c x).vec c_ = s.vec c_) ∧
    (∀ (c_ : Nat) (e_ : Nat), (s.setSeRequests c x).se c_ e_ = s.se c_ e_) ∧
    (∀ (c_ : Nat) (e_ : Nat), (s.setSeRequests c x).ep c_ e_ = s.ep c_ e_) ∧
    (∀ (c_ : Nat), (s.setSeRequests c x).chn c_ = s.chn c_) ∧
    (∀ (c_ : Nat), (s.setSeRequests c x).seAsyncLate c_ = s.seAsyncLate c_) ∧
    (∀ (c_ : Nat), (s.setSeRequests c x).seOndieLate c_ = s.seOndieLate c_) ∧
    (∀ (c_ : Nat), (s.setSeRequests c x).seJoined c_ = s.seJoined c_) :=
  ⟨fun _ => rfl, fun _ _ => rfl, fun _ => rfl, fun _ => rfl, fun _ => rfl, fun _ => rfl, fun _ => rfl, fun _ => rfl, fun _ _ => rfl, fun _ _ => rfl, fun _ => rfl, fun _ => rfl, fun _ => rfl, fun _ => rfl⟩
@[simp] theorem State.modSeRequests_beside (s : State) (c : Nat) (f : Nat → Nat) :
    (∀ (c_ : Nat), (s.modSeRequests c f).ctl c_ = s.ctl c_) ∧
    (∀ (c_ : Nat) (q_ : Nat), (s.modSeRequests c f).queue c_ q_ = s.queue c_ q_) ∧
    (∀ (c_ : Nat), (s.modSeRequests c f).imem c_ = s.imem c_) ∧
    (∀ (c_ : Nat), (s.modSeRequests c f).spad c_ = s.spad c_) ∧
    (∀ (c_ : Nat), (s.modSeRequests c f).irqCause c_ = s.irqCause c_) ∧
    (∀ (c_ : Nat), (s.modSeRequests c f).arith c_ = s.arith c_) ∧
    (∀ (c_ : Nat), (s.modSeRequests c f).mat c_ = s.mat c_) ∧
    (∀ (c_ : Nat), (s.modSeRequests c f).vec c_ = s.vec c_) ∧
    (∀ (c_ : Nat) (e_ : Nat), (s.modSeRequests c f).se c_ e_ = s.se c_ e_) ∧
    (∀ (c_ : Nat) (e_ : Nat), (s.modSeRequests c f).ep c_ e_ = s.ep c_ e_) ∧
    (∀ (c_ : Nat), (s.modSeRequests c f).chn c_ = s.chn c_) ∧
    (∀ (c_ : Nat), (s.modSeRequests c f).seAsyncLate c_ = s.seAsyncLate c_) ∧
    (∀ (c_ : Nat), (s.modSeRequests c f).seOndieLate c_ = s.seOndieLate c_) ∧
    (∀ (c_ : Nat), (s.modSeRequests c f).seJoined c_ = s.seJoined c_) :=
  ⟨fun _ => rfl, fun _ _ => rfl, fun _ => rfl, fun _ => rfl, fun _ => rfl, fun _ => rfl, fun _ => rfl, fun _ => rfl, fun _ _ => rfl, fun _ _ => rfl, fun _ => rfl, fun _ => rfl, fun _ => rfl, fun _ => rfl⟩
@[simp] theorem State.setSeJoined_beside (s : State) (c : Nat) (x : Nat) :
    (∀ (c_ : Nat), (s.setSeJoined c x).ctl c_ = s.ctl c_) ∧
    (∀ (c_ : Nat) (q_ : Nat), (s.setSeJoined c x).queue c_ q_ = s.queue c_ q_) ∧
    (∀ (c_ : Nat), (s.setSeJoined c x).imem c_ = s.imem c_) ∧
    (∀ (c_ : Nat), (s.setSeJoined c x).spad c_ = s.spad c_) ∧
    (∀ (c_ : Nat), (s.setSeJoined c x).irqCause c_ = s.irqCause c_) ∧
    (∀ (c_ : Nat), (s.setSeJoined c x).arith c_ = s.arith c_) ∧
    (∀ (c_ : Nat), (s.setSeJoined c x).mat c_ = s.mat c_) ∧
    (∀ (c_ : Nat), (s.setSeJoined c x).vec c_ = s.vec c_) ∧
    (∀ (c_ : Nat) (e_ : Nat), (s.setSeJoined c x).se c_ e_ = s.se c_ e_) ∧
    (∀ (c_ : Nat) (e_ : Nat), (s.setSeJoined c x).ep c_ e_ = s.ep c_ e_) ∧
    (∀ (c_ : Nat), (s.setSeJoined c x).chn c_ = s.chn c_) ∧
    (∀ (c_ : Nat), (s.setSeJoined c x).seAsyncLate c_ = s.seAsyncLate c_) ∧
    (∀ (c_ : Nat), (s.setSeJoined c x).seOndieLate c_ = s.seOndieLate c_) ∧
    (∀ (c_ : Nat), (s.setSeJoined c x).seRequests c_ = s.seRequests c_) :=
  ⟨fun _ => rfl, fun _ _ => rfl, fun _ => rfl, fun _ => rfl, fun _ => rfl, fun _ => rfl, fun _ => rfl, fun _ => rfl, fun _ _ => rfl, fun _ _ => rfl, fun _ => rfl, fun _ => rfl, fun _ => rfl, fun _ => rfl⟩
@[simp] theorem State.modSeJoined_beside (s : State) (c : Nat) (f : Nat → Nat) :
    (∀ (c_ : Nat), (s.modSeJoined c f).ctl c_ = s.ctl c_) ∧
    (∀ (c_ : Nat) (q_ : Nat), (s.modSeJoined c f).queue c_ q_ = s.queue c_ q_) ∧
    (∀ (c_ : Nat), (s.modSeJoined c f).imem c_ = s.imem c_) ∧
    (∀ (c_ : Nat), (s.modSeJoined c f).spad c_ = s.spad c_) ∧
    (∀ (c_ : Nat), (s.modSeJoined c f).irqCause c_ = s.irqCause c_) ∧
    (∀ (c_ : Nat), (s.modSeJoined c f).arith c_ = s.arith c_) ∧
    (∀ (c_ : Nat), (s.modSeJoined c f).mat c_ = s.mat c_) ∧
    (∀ (c_ : Nat), (s.modSeJoined c f).vec c_ = s.vec c_) ∧
    (∀ (c_ : Nat) (e_ : Nat), (s.modSeJoined c f).se c_ e_ = s.se c_ e_) ∧
    (∀ (c_ : Nat) (e_ : Nat), (s.modSeJoined c f).ep c_ e_ = s.ep c_ e_) ∧
    (∀ (c_ : Nat), (s.modSeJoined c f).chn c_ = s.chn c_) ∧
    (∀ (c_ : Nat), (s.modSeJoined c f).seAsyncLate c_ = s.seAsyncLate c_) ∧
    (∀ (c_ : Nat), (s.modSeJoined c f).seOndieLate c_ = s.seOndieLate c_) ∧
    (∀ (c_ : Nat), (s.modSeJoined c f).seRequests c_ = s.seRequests c_) :=
  ⟨fun _ => rfl, fun _ _ => rfl, fun _ => rfl, fun _ => rfl, fun _ => rfl, fun _ => rfl, fun _ => rfl, fun _ => rfl, fun _ _ => rfl, fun _ _ => rfl, fun _ => rfl, fun _ => rfl, fun _ => rfl, fun _ => rfl⟩
@[simp] theorem State.setCtr_beside (s : State) (a : Nat) (x : Nat) :
    (∀ (p_ : Nat) (v_ : Nat), (s.setCtr a x).plan p_ v_ = s.plan p_ v_) ∧
    (∀ (i_ : Nat), (s.setCtr a x).couchTop i_ = s.couchTop i_) ∧
    (∀ (i_ : Nat), (s.setCtr a x).gsync i_ = s.gsync i_) ∧
    (∀ (n_ : Nat), (s.setCtr a x).presented n_ = s.presented n_) ∧
    (∀ (r_ : Nat) (i_ : Nat), (s.setCtr a x).route r_ i_ = s.route r_ i_) ∧
    (∀ (i_ : Nat), (s.setCtr a x).conn i_ = s.conn i_) ∧
    (∀ (cl_ : Nat), (s.setCtr a x).drops cl_ = s.drops cl_) ∧
    (∀ (cl_ : Nat), (s.setCtr a x).trace cl_ = s.trace cl_) :=
  ⟨fun _ _ => rfl, fun _ => rfl, fun _ => rfl, fun _ => rfl, fun _ _ => rfl, fun _ => rfl, fun _ => rfl, fun _ => rfl⟩
@[simp] theorem State.modCtr_beside (s : State) (a : Nat) (f : Nat → Nat) :
    (∀ (p_ : Nat) (v_ : Nat), (s.modCtr a f).plan p_ v_ = s.plan p_ v_) ∧
    (∀ (i_ : Nat), (s.modCtr a f).couchTop i_ = s.couchTop i_) ∧
    (∀ (i_ : Nat), (s.modCtr a f).gsync i_ = s.gsync i_) ∧
    (∀ (n_ : Nat), (s.modCtr a f).presented n_ = s.presented n_) ∧
    (∀ (r_ : Nat) (i_ : Nat), (s.modCtr a f).route r_ i_ = s.route r_ i_) ∧
    (∀ (i_ : Nat), (s.modCtr a f).conn i_ = s.conn i_) ∧
    (∀ (cl_ : Nat), (s.modCtr a f).drops cl_ = s.drops cl_) ∧
    (∀ (cl_ : Nat), (s.modCtr a f).trace cl_ = s.trace cl_) :=
  ⟨fun _ _ => rfl, fun _ => rfl, fun _ => rfl, fun _ => rfl, fun _ _ => rfl, fun _ => rfl, fun _ => rfl, fun _ => rfl⟩
@[simp] theorem State.setPlan_beside (s : State) (p : Nat) (v : Nat) (x : PlanVat) :
    (∀ (a_ : Nat), (s.setPlan p v x).ctr a_ = s.ctr a_) ∧
    (∀ (i_ : Nat), (s.setPlan p v x).couchTop i_ = s.couchTop i_) ∧
    (∀ (i_ : Nat), (s.setPlan p v x).gsync i_ = s.gsync i_) ∧
    (∀ (n_ : Nat), (s.setPlan p v x).presented n_ = s.presented n_) ∧
    (∀ (r_ : Nat) (i_ : Nat), (s.setPlan p v x).route r_ i_ = s.route r_ i_) ∧
    (∀ (i_ : Nat), (s.setPlan p v x).conn i_ = s.conn i_) ∧
    (∀ (cl_ : Nat), (s.setPlan p v x).drops cl_ = s.drops cl_) ∧
    (∀ (cl_ : Nat), (s.setPlan p v x).trace cl_ = s.trace cl_) :=
  ⟨fun _ => rfl, fun _ => rfl, fun _ => rfl, fun _ => rfl, fun _ _ => rfl, fun _ => rfl, fun _ => rfl, fun _ => rfl⟩
@[simp] theorem State.modPlan_beside (s : State) (p : Nat) (v : Nat) (f : PlanVat → PlanVat) :
    (∀ (a_ : Nat), (s.modPlan p v f).ctr a_ = s.ctr a_) ∧
    (∀ (i_ : Nat), (s.modPlan p v f).couchTop i_ = s.couchTop i_) ∧
    (∀ (i_ : Nat), (s.modPlan p v f).gsync i_ = s.gsync i_) ∧
    (∀ (n_ : Nat), (s.modPlan p v f).presented n_ = s.presented n_) ∧
    (∀ (r_ : Nat) (i_ : Nat), (s.modPlan p v f).route r_ i_ = s.route r_ i_) ∧
    (∀ (i_ : Nat), (s.modPlan p v f).conn i_ = s.conn i_) ∧
    (∀ (cl_ : Nat), (s.modPlan p v f).drops cl_ = s.drops cl_) ∧
    (∀ (cl_ : Nat), (s.modPlan p v f).trace cl_ = s.trace cl_) :=
  ⟨fun _ => rfl, fun _ => rfl, fun _ => rfl, fun _ => rfl, fun _ _ => rfl, fun _ => rfl, fun _ => rfl, fun _ => rfl⟩
@[simp] theorem State.setCouchTop_beside (s : State) (i : Nat) (x : Nat) :
    (∀ (a_ : Nat), (s.setCouchTop i x).ctr a_ = s.ctr a_) ∧
    (∀ (p_ : Nat) (v_ : Nat), (s.setCouchTop i x).plan p_ v_ = s.plan p_ v_) ∧
    (∀ (i_ : Nat), (s.setCouchTop i x).gsync i_ = s.gsync i_) ∧
    (∀ (n_ : Nat), (s.setCouchTop i x).presented n_ = s.presented n_) ∧
    (∀ (r_ : Nat) (i_ : Nat), (s.setCouchTop i x).route r_ i_ = s.route r_ i_) ∧
    (∀ (i_ : Nat), (s.setCouchTop i x).conn i_ = s.conn i_) ∧
    (∀ (cl_ : Nat), (s.setCouchTop i x).drops cl_ = s.drops cl_) ∧
    (∀ (cl_ : Nat), (s.setCouchTop i x).trace cl_ = s.trace cl_) :=
  ⟨fun _ => rfl, fun _ _ => rfl, fun _ => rfl, fun _ => rfl, fun _ _ => rfl, fun _ => rfl, fun _ => rfl, fun _ => rfl⟩
@[simp] theorem State.modCouchTop_beside (s : State) (i : Nat) (f : Nat → Nat) :
    (∀ (a_ : Nat), (s.modCouchTop i f).ctr a_ = s.ctr a_) ∧
    (∀ (p_ : Nat) (v_ : Nat), (s.modCouchTop i f).plan p_ v_ = s.plan p_ v_) ∧
    (∀ (i_ : Nat), (s.modCouchTop i f).gsync i_ = s.gsync i_) ∧
    (∀ (n_ : Nat), (s.modCouchTop i f).presented n_ = s.presented n_) ∧
    (∀ (r_ : Nat) (i_ : Nat), (s.modCouchTop i f).route r_ i_ = s.route r_ i_) ∧
    (∀ (i_ : Nat), (s.modCouchTop i f).conn i_ = s.conn i_) ∧
    (∀ (cl_ : Nat), (s.modCouchTop i f).drops cl_ = s.drops cl_) ∧
    (∀ (cl_ : Nat), (s.modCouchTop i f).trace cl_ = s.trace cl_) :=
  ⟨fun _ => rfl, fun _ _ => rfl, fun _ => rfl, fun _ => rfl, fun _ _ => rfl, fun _ => rfl, fun _ => rfl, fun _ => rfl⟩
@[simp] theorem State.setGsync_beside (s : State) (i : Nat) (x : GsyncCtl) :
    (∀ (a_ : Nat), (s.setGsync i x).ctr a_ = s.ctr a_) ∧
    (∀ (p_ : Nat) (v_ : Nat), (s.setGsync i x).plan p_ v_ = s.plan p_ v_) ∧
    (∀ (i_ : Nat), (s.setGsync i x).couchTop i_ = s.couchTop i_) ∧
    (∀ (n_ : Nat), (s.setGsync i x).presented n_ = s.presented n_) ∧
    (∀ (r_ : Nat) (i_ : Nat), (s.setGsync i x).route r_ i_ = s.route r_ i_) ∧
    (∀ (i_ : Nat), (s.setGsync i x).conn i_ = s.conn i_) ∧
    (∀ (cl_ : Nat), (s.setGsync i x).drops cl_ = s.drops cl_) ∧
    (∀ (cl_ : Nat), (s.setGsync i x).trace cl_ = s.trace cl_) :=
  ⟨fun _ => rfl, fun _ _ => rfl, fun _ => rfl, fun _ => rfl, fun _ _ => rfl, fun _ => rfl, fun _ => rfl, fun _ => rfl⟩
@[simp] theorem State.modGsync_beside (s : State) (i : Nat) (f : GsyncCtl → GsyncCtl) :
    (∀ (a_ : Nat), (s.modGsync i f).ctr a_ = s.ctr a_) ∧
    (∀ (p_ : Nat) (v_ : Nat), (s.modGsync i f).plan p_ v_ = s.plan p_ v_) ∧
    (∀ (i_ : Nat), (s.modGsync i f).couchTop i_ = s.couchTop i_) ∧
    (∀ (n_ : Nat), (s.modGsync i f).presented n_ = s.presented n_) ∧
    (∀ (r_ : Nat) (i_ : Nat), (s.modGsync i f).route r_ i_ = s.route r_ i_) ∧
    (∀ (i_ : Nat), (s.modGsync i f).conn i_ = s.conn i_) ∧
    (∀ (cl_ : Nat), (s.modGsync i f).drops cl_ = s.drops cl_) ∧
    (∀ (cl_ : Nat), (s.modGsync i f).trace cl_ = s.trace cl_) :=
  ⟨fun _ => rfl, fun _ _ => rfl, fun _ => rfl, fun _ => rfl, fun _ _ => rfl, fun _ => rfl, fun _ => rfl, fun _ => rfl⟩
@[simp] theorem State.setPresented_beside (s : State) (n : Nat) (x : List SyncIn) :
    (∀ (a_ : Nat), (s.setPresented n x).ctr a_ = s.ctr a_) ∧
    (∀ (p_ : Nat) (v_ : Nat), (s.setPresented n x).plan p_ v_ = s.plan p_ v_) ∧
    (∀ (i_ : Nat), (s.setPresented n x).couchTop i_ = s.couchTop i_) ∧
    (∀ (i_ : Nat), (s.setPresented n x).gsync i_ = s.gsync i_) ∧
    (∀ (r_ : Nat) (i_ : Nat), (s.setPresented n x).route r_ i_ = s.route r_ i_) ∧
    (∀ (i_ : Nat), (s.setPresented n x).conn i_ = s.conn i_) ∧
    (∀ (cl_ : Nat), (s.setPresented n x).drops cl_ = s.drops cl_) ∧
    (∀ (cl_ : Nat), (s.setPresented n x).trace cl_ = s.trace cl_) :=
  ⟨fun _ => rfl, fun _ _ => rfl, fun _ => rfl, fun _ => rfl, fun _ _ => rfl, fun _ => rfl, fun _ => rfl, fun _ => rfl⟩
@[simp] theorem State.modPresented_beside (s : State) (n : Nat) (f : List SyncIn → List SyncIn) :
    (∀ (a_ : Nat), (s.modPresented n f).ctr a_ = s.ctr a_) ∧
    (∀ (p_ : Nat) (v_ : Nat), (s.modPresented n f).plan p_ v_ = s.plan p_ v_) ∧
    (∀ (i_ : Nat), (s.modPresented n f).couchTop i_ = s.couchTop i_) ∧
    (∀ (i_ : Nat), (s.modPresented n f).gsync i_ = s.gsync i_) ∧
    (∀ (r_ : Nat) (i_ : Nat), (s.modPresented n f).route r_ i_ = s.route r_ i_) ∧
    (∀ (i_ : Nat), (s.modPresented n f).conn i_ = s.conn i_) ∧
    (∀ (cl_ : Nat), (s.modPresented n f).drops cl_ = s.drops cl_) ∧
    (∀ (cl_ : Nat), (s.modPresented n f).trace cl_ = s.trace cl_) :=
  ⟨fun _ => rfl, fun _ _ => rfl, fun _ => rfl, fun _ => rfl, fun _ _ => rfl, fun _ => rfl, fun _ => rfl, fun _ => rfl⟩
@[simp] theorem State.setRoute_beside (s : State) (r : Nat) (i : Nat) (x : RouteEnt) :
    (∀ (a_ : Nat), (s.setRoute r i x).ctr a_ = s.ctr a_) ∧
    (∀ (p_ : Nat) (v_ : Nat), (s.setRoute r i x).plan p_ v_ = s.plan p_ v_) ∧
    (∀ (i_ : Nat), (s.setRoute r i x).couchTop i_ = s.couchTop i_) ∧
    (∀ (i_ : Nat), (s.setRoute r i x).gsync i_ = s.gsync i_) ∧
    (∀ (n_ : Nat), (s.setRoute r i x).presented n_ = s.presented n_) ∧
    (∀ (i_ : Nat), (s.setRoute r i x).conn i_ = s.conn i_) ∧
    (∀ (cl_ : Nat), (s.setRoute r i x).drops cl_ = s.drops cl_) ∧
    (∀ (cl_ : Nat), (s.setRoute r i x).trace cl_ = s.trace cl_) :=
  ⟨fun _ => rfl, fun _ _ => rfl, fun _ => rfl, fun _ => rfl, fun _ => rfl, fun _ => rfl, fun _ => rfl, fun _ => rfl⟩
@[simp] theorem State.modRoute_beside (s : State) (r : Nat) (i : Nat) (f : RouteEnt → RouteEnt) :
    (∀ (a_ : Nat), (s.modRoute r i f).ctr a_ = s.ctr a_) ∧
    (∀ (p_ : Nat) (v_ : Nat), (s.modRoute r i f).plan p_ v_ = s.plan p_ v_) ∧
    (∀ (i_ : Nat), (s.modRoute r i f).couchTop i_ = s.couchTop i_) ∧
    (∀ (i_ : Nat), (s.modRoute r i f).gsync i_ = s.gsync i_) ∧
    (∀ (n_ : Nat), (s.modRoute r i f).presented n_ = s.presented n_) ∧
    (∀ (i_ : Nat), (s.modRoute r i f).conn i_ = s.conn i_) ∧
    (∀ (cl_ : Nat), (s.modRoute r i f).drops cl_ = s.drops cl_) ∧
    (∀ (cl_ : Nat), (s.modRoute r i f).trace cl_ = s.trace cl_) :=
  ⟨fun _ => rfl, fun _ _ => rfl, fun _ => rfl, fun _ => rfl, fun _ => rfl, fun _ => rfl, fun _ => rfl, fun _ => rfl⟩
@[simp] theorem State.setConn_beside (s : State) (i : Nat) (x : Conn) :
    (∀ (a_ : Nat), (s.setConn i x).ctr a_ = s.ctr a_) ∧
    (∀ (p_ : Nat) (v_ : Nat), (s.setConn i x).plan p_ v_ = s.plan p_ v_) ∧
    (∀ (i_ : Nat), (s.setConn i x).couchTop i_ = s.couchTop i_) ∧
    (∀ (i_ : Nat), (s.setConn i x).gsync i_ = s.gsync i_) ∧
    (∀ (n_ : Nat), (s.setConn i x).presented n_ = s.presented n_) ∧
    (∀ (r_ : Nat) (i_ : Nat), (s.setConn i x).route r_ i_ = s.route r_ i_) ∧
    (∀ (cl_ : Nat), (s.setConn i x).drops cl_ = s.drops cl_) ∧
    (∀ (cl_ : Nat), (s.setConn i x).trace cl_ = s.trace cl_) :=
  ⟨fun _ => rfl, fun _ _ => rfl, fun _ => rfl, fun _ => rfl, fun _ => rfl, fun _ _ => rfl, fun _ => rfl, fun _ => rfl⟩
@[simp] theorem State.modConn_beside (s : State) (i : Nat) (f : Conn → Conn) :
    (∀ (a_ : Nat), (s.modConn i f).ctr a_ = s.ctr a_) ∧
    (∀ (p_ : Nat) (v_ : Nat), (s.modConn i f).plan p_ v_ = s.plan p_ v_) ∧
    (∀ (i_ : Nat), (s.modConn i f).couchTop i_ = s.couchTop i_) ∧
    (∀ (i_ : Nat), (s.modConn i f).gsync i_ = s.gsync i_) ∧
    (∀ (n_ : Nat), (s.modConn i f).presented n_ = s.presented n_) ∧
    (∀ (r_ : Nat) (i_ : Nat), (s.modConn i f).route r_ i_ = s.route r_ i_) ∧
    (∀ (cl_ : Nat), (s.modConn i f).drops cl_ = s.drops cl_) ∧
    (∀ (cl_ : Nat), (s.modConn i f).trace cl_ = s.trace cl_) :=
  ⟨fun _ => rfl, fun _ _ => rfl, fun _ => rfl, fun _ => rfl, fun _ => rfl, fun _ _ => rfl, fun _ => rfl, fun _ => rfl⟩
@[simp] theorem State.setPort_beside (s : State) (p : Nat) (x : SpanPort) :
    (∀ (v_ : Nat), (s.setPort p x).vatPerm v_ = s.vatPerm v_) ∧
    (∀ (v_ : Nat) (i_ : Nat), (s.setPort p x).export_ v_ i_ = s.export_ v_ i_) :=
  ⟨fun _ => rfl, fun _ _ => rfl⟩
@[simp] theorem State.modPort_beside (s : State) (p : Nat) (f : SpanPort → SpanPort) :
    (∀ (v_ : Nat), (s.modPort p f).vatPerm v_ = s.vatPerm v_) ∧
    (∀ (v_ : Nat) (i_ : Nat), (s.modPort p f).export_ v_ i_ = s.export_ v_ i_) :=
  ⟨fun _ => rfl, fun _ _ => rfl⟩
@[simp] theorem State.setVatPerm_beside (s : State) (v : Nat) (x : SpanVatPerm) :
    (∀ (p_ : Nat), (s.setVatPerm v x).port p_ = s.port p_) ∧
    (∀ (v_ : Nat) (i_ : Nat), (s.setVatPerm v x).export_ v_ i_ = s.export_ v_ i_) :=
  ⟨fun _ => rfl, fun _ _ => rfl⟩
@[simp] theorem State.modVatPerm_beside (s : State) (v : Nat) (f : SpanVatPerm → SpanVatPerm) :
    (∀ (p_ : Nat), (s.modVatPerm v f).port p_ = s.port p_) ∧
    (∀ (v_ : Nat) (i_ : Nat), (s.modVatPerm v f).export_ v_ i_ = s.export_ v_ i_) :=
  ⟨fun _ => rfl, fun _ _ => rfl⟩
@[simp] theorem State.setRing_beside (s : State) (r : Nat) (x : Ring) :
    (∀ (n_ : Nat), (s.setRing r x).hostFn n_ = s.hostFn n_) :=
  fun _ => rfl
@[simp] theorem State.modRing_beside (s : State) (r : Nat) (f : Ring → Ring) :
    (∀ (n_ : Nat), (s.modRing r f).hostFn n_ = s.hostFn n_) :=
  fun _ => rfl
@[simp] theorem State.setHostFn_beside (s : State) (n : Nat) (x : HostFn) :
    (∀ (r_ : Nat), (s.setHostFn n x).ring r_ = s.ring r_) :=
  fun _ => rfl
@[simp] theorem State.modHostFn_beside (s : State) (n : Nat) (f : HostFn → HostFn) :
    (∀ (r_ : Nat), (s.modHostFn n f).ring r_ = s.ring r_) :=
  fun _ => rfl
@[simp] theorem State.setStk_beside (s : State) (i : Nat) (x : Stk) :
    (∀ (i_ : Nat), (s.setStk i x).ver i_ = s.ver i_) :=
  fun _ => rfl
@[simp] theorem State.modStk_beside (s : State) (i : Nat) (f : Stk → Stk) :
    (∀ (i_ : Nat), (s.modStk i f).ver i_ = s.ver i_) :=
  fun _ => rfl
@[simp] theorem State.setVer_beside (s : State) (i : Nat) (x : VerEnt) :
    (∀ (i_ : Nat), (s.setVer i x).stk i_ = s.stk i_) :=
  fun _ => rfl
@[simp] theorem State.modVer_beside (s : State) (i : Nat) (f : VerEnt → VerEnt) :
    (∀ (i_ : Nat), (s.modVer i f).stk i_ = s.stk i_) :=
  fun _ => rfl
@[simp] theorem State.setSeqSlot_beside (s : State) (i : Nat) (x : Seq) :
    (∀ (j_ : Nat), (s.setSeqSlot i x).adv j_ = s.adv j_) ∧
    (∀ (n_ : Nat), (s.setSeqSlot i x).irqSrc n_ = s.irqSrc n_) ∧
    (∀ (t_ : Nat), (s.setSeqSlot i x).irqTgt t_ = s.irqTgt t_) ∧
    (∀ (i_ : Nat), (s.setSeqSlot i x).wakeSel i_ = s.wakeSel i_) :=
  ⟨fun _ => rfl, fun _ => rfl, fun _ => rfl, fun _ => rfl⟩
@[simp] theorem State.modSeqSlot_beside (s : State) (i : Nat) (f : Seq → Seq) :
    (∀ (j_ : Nat), (s.modSeqSlot i f).adv j_ = s.adv j_) ∧
    (∀ (n_ : Nat), (s.modSeqSlot i f).irqSrc n_ = s.irqSrc n_) ∧
    (∀ (t_ : Nat), (s.modSeqSlot i f).irqTgt t_ = s.irqTgt t_) ∧
    (∀ (i_ : Nat), (s.modSeqSlot i f).wakeSel i_ = s.wakeSel i_) :=
  ⟨fun _ => rfl, fun _ => rfl, fun _ => rfl, fun _ => rfl⟩
@[simp] theorem State.setExport__beside (s : State) (v : Nat) (i : Nat) (x : Export) :
    (∀ (p_ : Nat), (s.setExport_ v i x).port p_ = s.port p_) ∧
    (∀ (v_ : Nat), (s.setExport_ v i x).vatPerm v_ = s.vatPerm v_) :=
  ⟨fun _ => rfl, fun _ => rfl⟩
@[simp] theorem State.modExport__beside (s : State) (v : Nat) (i : Nat) (f : Export → Export) :
    (∀ (p_ : Nat), (s.modExport_ v i f).port p_ = s.port p_) ∧
    (∀ (v_ : Nat), (s.modExport_ v i f).vatPerm v_ = s.vatPerm v_) :=
  ⟨fun _ => rfl, fun _ => rfl⟩
@[simp] theorem State.setDrops_beside (s : State) (cl : Nat) (x : NetDrops) :
    (∀ (a_ : Nat), (s.setDrops cl x).ctr a_ = s.ctr a_) ∧
    (∀ (p_ : Nat) (v_ : Nat), (s.setDrops cl x).plan p_ v_ = s.plan p_ v_) ∧
    (∀ (i_ : Nat), (s.setDrops cl x).couchTop i_ = s.couchTop i_) ∧
    (∀ (i_ : Nat), (s.setDrops cl x).gsync i_ = s.gsync i_) ∧
    (∀ (n_ : Nat), (s.setDrops cl x).presented n_ = s.presented n_) ∧
    (∀ (r_ : Nat) (i_ : Nat), (s.setDrops cl x).route r_ i_ = s.route r_ i_) ∧
    (∀ (i_ : Nat), (s.setDrops cl x).conn i_ = s.conn i_) ∧
    (∀ (cl_ : Nat), (s.setDrops cl x).trace cl_ = s.trace cl_) :=
  ⟨fun _ => rfl, fun _ _ => rfl, fun _ => rfl, fun _ => rfl, fun _ => rfl, fun _ _ => rfl, fun _ => rfl, fun _ => rfl⟩
@[simp] theorem State.modDrops_beside (s : State) (cl : Nat) (f : NetDrops → NetDrops) :
    (∀ (a_ : Nat), (s.modDrops cl f).ctr a_ = s.ctr a_) ∧
    (∀ (p_ : Nat) (v_ : Nat), (s.modDrops cl f).plan p_ v_ = s.plan p_ v_) ∧
    (∀ (i_ : Nat), (s.modDrops cl f).couchTop i_ = s.couchTop i_) ∧
    (∀ (i_ : Nat), (s.modDrops cl f).gsync i_ = s.gsync i_) ∧
    (∀ (n_ : Nat), (s.modDrops cl f).presented n_ = s.presented n_) ∧
    (∀ (r_ : Nat) (i_ : Nat), (s.modDrops cl f).route r_ i_ = s.route r_ i_) ∧
    (∀ (i_ : Nat), (s.modDrops cl f).conn i_ = s.conn i_) ∧
    (∀ (cl_ : Nat), (s.modDrops cl f).trace cl_ = s.trace cl_) :=
  ⟨fun _ => rfl, fun _ _ => rfl, fun _ => rfl, fun _ => rfl, fun _ => rfl, fun _ _ => rfl, fun _ => rfl, fun _ => rfl⟩
@[simp] theorem State.setIrqSrc_beside (s : State) (n : Nat) (x : IrqSrc) :
    (∀ (j_ : Nat), (s.setIrqSrc n x).adv j_ = s.adv j_) ∧
    (∀ (i_ : Nat), (s.setIrqSrc n x).seqSlot i_ = s.seqSlot i_) ∧
    (∀ (t_ : Nat), (s.setIrqSrc n x).irqTgt t_ = s.irqTgt t_) ∧
    (∀ (i_ : Nat), (s.setIrqSrc n x).wakeSel i_ = s.wakeSel i_) :=
  ⟨fun _ => rfl, fun _ => rfl, fun _ => rfl, fun _ => rfl⟩
@[simp] theorem State.modIrqSrc_beside (s : State) (n : Nat) (f : IrqSrc → IrqSrc) :
    (∀ (j_ : Nat), (s.modIrqSrc n f).adv j_ = s.adv j_) ∧
    (∀ (i_ : Nat), (s.modIrqSrc n f).seqSlot i_ = s.seqSlot i_) ∧
    (∀ (t_ : Nat), (s.modIrqSrc n f).irqTgt t_ = s.irqTgt t_) ∧
    (∀ (i_ : Nat), (s.modIrqSrc n f).wakeSel i_ = s.wakeSel i_) :=
  ⟨fun _ => rfl, fun _ => rfl, fun _ => rfl, fun _ => rfl⟩
@[simp] theorem State.setIrqTgt_beside (s : State) (t : Nat) (x : IrqTgt) :
    (∀ (j_ : Nat), (s.setIrqTgt t x).adv j_ = s.adv j_) ∧
    (∀ (i_ : Nat), (s.setIrqTgt t x).seqSlot i_ = s.seqSlot i_) ∧
    (∀ (n_ : Nat), (s.setIrqTgt t x).irqSrc n_ = s.irqSrc n_) ∧
    (∀ (i_ : Nat), (s.setIrqTgt t x).wakeSel i_ = s.wakeSel i_) :=
  ⟨fun _ => rfl, fun _ => rfl, fun _ => rfl, fun _ => rfl⟩
@[simp] theorem State.modIrqTgt_beside (s : State) (t : Nat) (f : IrqTgt → IrqTgt) :
    (∀ (j_ : Nat), (s.modIrqTgt t f).adv j_ = s.adv j_) ∧
    (∀ (i_ : Nat), (s.modIrqTgt t f).seqSlot i_ = s.seqSlot i_) ∧
    (∀ (n_ : Nat), (s.modIrqTgt t f).irqSrc n_ = s.irqSrc n_) ∧
    (∀ (i_ : Nat), (s.modIrqTgt t f).wakeSel i_ = s.wakeSel i_) :=
  ⟨fun _ => rfl, fun _ => rfl, fun _ => rfl, fun _ => rfl⟩
@[simp] theorem State.setWakeSel_beside (s : State) (i : Nat) (x : WakeSel) :
    (∀ (j_ : Nat), (s.setWakeSel i x).adv j_ = s.adv j_) ∧
    (∀ (i_ : Nat), (s.setWakeSel i x).seqSlot i_ = s.seqSlot i_) ∧
    (∀ (n_ : Nat), (s.setWakeSel i x).irqSrc n_ = s.irqSrc n_) ∧
    (∀ (t_ : Nat), (s.setWakeSel i x).irqTgt t_ = s.irqTgt t_) :=
  ⟨fun _ => rfl, fun _ => rfl, fun _ => rfl, fun _ => rfl⟩
@[simp] theorem State.modWakeSel_beside (s : State) (i : Nat) (f : WakeSel → WakeSel) :
    (∀ (j_ : Nat), (s.modWakeSel i f).adv j_ = s.adv j_) ∧
    (∀ (i_ : Nat), (s.modWakeSel i f).seqSlot i_ = s.seqSlot i_) ∧
    (∀ (n_ : Nat), (s.modWakeSel i f).irqSrc n_ = s.irqSrc n_) ∧
    (∀ (t_ : Nat), (s.modWakeSel i f).irqTgt t_ = s.irqTgt t_) :=
  ⟨fun _ => rfl, fun _ => rfl, fun _ => rfl, fun _ => rfl⟩
@[simp] theorem State.setTrace_beside (s : State) (cl : Nat) (x : Trace) :
    (∀ (a_ : Nat), (s.setTrace cl x).ctr a_ = s.ctr a_) ∧
    (∀ (p_ : Nat) (v_ : Nat), (s.setTrace cl x).plan p_ v_ = s.plan p_ v_) ∧
    (∀ (i_ : Nat), (s.setTrace cl x).couchTop i_ = s.couchTop i_) ∧
    (∀ (i_ : Nat), (s.setTrace cl x).gsync i_ = s.gsync i_) ∧
    (∀ (n_ : Nat), (s.setTrace cl x).presented n_ = s.presented n_) ∧
    (∀ (r_ : Nat) (i_ : Nat), (s.setTrace cl x).route r_ i_ = s.route r_ i_) ∧
    (∀ (i_ : Nat), (s.setTrace cl x).conn i_ = s.conn i_) ∧
    (∀ (cl_ : Nat), (s.setTrace cl x).drops cl_ = s.drops cl_) :=
  ⟨fun _ => rfl, fun _ _ => rfl, fun _ => rfl, fun _ => rfl, fun _ => rfl, fun _ _ => rfl, fun _ => rfl, fun _ => rfl⟩
@[simp] theorem State.modTrace_beside (s : State) (cl : Nat) (f : Trace → Trace) :
    (∀ (a_ : Nat), (s.modTrace cl f).ctr a_ = s.ctr a_) ∧
    (∀ (p_ : Nat) (v_ : Nat), (s.modTrace cl f).plan p_ v_ = s.plan p_ v_) ∧
    (∀ (i_ : Nat), (s.modTrace cl f).couchTop i_ = s.couchTop i_) ∧
    (∀ (i_ : Nat), (s.modTrace cl f).gsync i_ = s.gsync i_) ∧
    (∀ (n_ : Nat), (s.modTrace cl f).presented n_ = s.presented n_) ∧
    (∀ (r_ : Nat) (i_ : Nat), (s.modTrace cl f).route r_ i_ = s.route r_ i_) ∧
    (∀ (i_ : Nat), (s.modTrace cl f).conn i_ = s.conn i_) ∧
    (∀ (cl_ : Nat), (s.modTrace cl f).drops cl_ = s.drops cl_) :=
  ⟨fun _ => rfl, fun _ _ => rfl, fun _ => rfl, fun _ => rfl, fun _ => rfl, fun _ _ => rfl, fun _ => rfl, fun _ => rfl⟩

end Sys2Proof.Machine
end

