-- ==== Sys2Proof/Laws/Frame1.lean ====
section
/-! SUPPORT. What each shared operation leaves as it is, part 1: the fields of State that it never changes. -/

namespace Sys2Proof.Machine

@[simp] theorem State.setRing_same (a0 : State) (a1 : Nat) (a2 : Ring) :
    (State.setRing a0 a1 a2).pending = a0.pending ∧ (State.setRing a0 a1 a2).clk = a0.clk ∧ (State.setRing a0 a1 a2).cores = a0.cores ∧
      (State.setRing a0 a1 a2).net = a0.net ∧ (State.setRing a0 a1 a2).vats = a0.vats ∧ (State.setRing a0 a1 a2).mem = a0.mem ∧
      (State.setRing a0 a1 a2).hub = a0.hub ∧ (State.setRing a0 a1 a2).span = a0.span ∧ (State.setRing a0 a1 a2).pwr = a0.pwr ∧
      (State.setRing a0 a1 a2).boot = a0.boot ∧ (State.setRing a0 a1 a2).out = a0.out ∧ (State.setRing a0 a1 a2).free = a0.free := by
  unfold State.setRing; (repeat' split) <;> simp
@[simp] theorem State.hostFinish_same (a0 : State) (a1 : Option (Prod Nat Nat)) (a2 : Nat) (a3 : Nat) (a4 : Nat) :
    (State.hostFinish a0 a1 a2 a3 a4).pending = a0.pending ∧ (State.hostFinish a0 a1 a2 a3 a4).clk = a0.clk ∧
      (State.hostFinish a0 a1 a2 a3 a4).cores = a0.cores ∧ (State.hostFinish a0 a1 a2 a3 a4).net = a0.net ∧
      (State.hostFinish a0 a1 a2 a3 a4).vats = a0.vats ∧ (State.hostFinish a0 a1 a2 a3 a4).mem = a0.mem ∧
      (State.hostFinish a0 a1 a2 a3 a4).hub = a0.hub ∧ (State.hostFinish a0 a1 a2 a3 a4).span = a0.span ∧
      (State.hostFinish a0 a1 a2 a3 a4).pwr = a0.pwr ∧ (State.hostFinish a0 a1 a2 a3 a4).boot = a0.boot ∧
      (State.hostFinish a0 a1 a2 a3 a4).out = a0.out ∧ (State.hostFinish a0 a1 a2 a3 a4).free = a0.free := by
  unfold State.hostFinish; dsimp only; (repeat' (split <;> try dsimp only)) <;> simp_all
@[simp] theorem State.setVat_same (a0 : State) (a1 : Nat) (a2 : Vat) :
    (State.setVat a0 a1 a2).pending = a0.pending ∧ (State.setVat a0 a1 a2).clk = a0.clk ∧ (State.setVat a0 a1 a2).cores = a0.cores ∧
      (State.setVat a0 a1 a2).net = a0.net ∧ (State.setVat a0 a1 a2).mem = a0.mem ∧ (State.setVat a0 a1 a2).hub = a0.hub ∧
      (State.setVat a0 a1 a2).span = a0.span ∧ (State.setVat a0 a1 a2).host = a0.host ∧ (State.setVat a0 a1 a2).pwr = a0.pwr ∧
      (State.setVat a0 a1 a2).boot = a0.boot ∧ (State.setVat a0 a1 a2).out = a0.out ∧ (State.setVat a0 a1 a2).free = a0.free := by
  unfold State.setVat; (repeat' split) <;> simp
@[simp] theorem State.modVat_same (a0 : State) (a1 : Nat) (a2 : Vat → Vat) :
    (State.modVat a0 a1 a2).pending = a0.pending ∧ (State.modVat a0 a1 a2).clk = a0.clk ∧ (State.modVat a0 a1 a2).cores = a0.cores ∧
      (State.modVat a0 a1 a2).net = a0.net ∧ (State.modVat a0 a1 a2).mem = a0.mem ∧ (State.modVat a0 a1 a2).hub = a0.hub ∧
      (State.modVat a0 a1 a2).span = a0.span ∧ (State.modVat a0 a1 a2).host = a0.host ∧ (State.modVat a0 a1 a2).pwr = a0.pwr ∧
      (State.modVat a0 a1 a2).boot = a0.boot ∧ (State.modVat a0 a1 a2).out = a0.out ∧ (State.modVat a0 a1 a2).free = a0.free := by
  unfold State.modVat; (repeat' split) <;> simp
@[simp] theorem State.abortHost_same (a0 : State) (a1 : Nat) :
    (State.abortHost a0 a1).pending = a0.pending ∧ (State.abortHost a0 a1).clk = a0.clk ∧ (State.abortHost a0 a1).cores = a0.cores ∧
      (State.abortHost a0 a1).net = a0.net ∧ (State.abortHost a0 a1).mem = a0.mem ∧ (State.abortHost a0 a1).hub = a0.hub ∧
      (State.abortHost a0 a1).span = a0.span ∧ (State.abortHost a0 a1).pwr = a0.pwr ∧ (State.abortHost a0 a1).boot = a0.boot ∧
      (State.abortHost a0 a1).out = a0.out ∧ (State.abortHost a0 a1).free = a0.free := by
  unfold State.abortHost; (repeat' split) <;> simp
@[simp] theorem State.setEp_same (a0 : State) (a1 : Nat) (a2 : Nat) (a3 : Ep) :
    (State.setEp a0 a1 a2 a3).pending = a0.pending ∧ (State.setEp a0 a1 a2 a3).clk = a0.clk ∧ (State.setEp a0 a1 a2 a3).net = a0.net ∧
      (State.setEp a0 a1 a2 a3).vats = a0.vats ∧ (State.setEp a0 a1 a2 a3).mem = a0.mem ∧ (State.setEp a0 a1 a2 a3).hub = a0.hub ∧
      (State.setEp a0 a1 a2 a3).span = a0.span ∧ (State.setEp a0 a1 a2 a3).host = a0.host ∧ (State.setEp a0 a1 a2 a3).pwr = a0.pwr ∧
      (State.setEp a0 a1 a2 a3).boot = a0.boot ∧ (State.setEp a0 a1 a2 a3).out = a0.out ∧ (State.setEp a0 a1 a2 a3).free = a0.free := by
  unfold State.setEp; (repeat' split) <;> simp
@[simp] theorem State.modEp_same (a0 : State) (a1 : Nat) (a2 : Nat) (a3 : Ep → Ep) :
    (State.modEp a0 a1 a2 a3).pending = a0.pending ∧ (State.modEp a0 a1 a2 a3).clk = a0.clk ∧ (State.modEp a0 a1 a2 a3).net = a0.net ∧
      (State.modEp a0 a1 a2 a3).vats = a0.vats ∧ (State.modEp a0 a1 a2 a3).mem = a0.mem ∧ (State.modEp a0 a1 a2 a3).hub = a0.hub ∧
      (State.modEp a0 a1 a2 a3).span = a0.span ∧ (State.modEp a0 a1 a2 a3).host = a0.host ∧ (State.modEp a0 a1 a2 a3).pwr = a0.pwr ∧
      (State.modEp a0 a1 a2 a3).boot = a0.boot ∧ (State.modEp a0 a1 a2 a3).out = a0.out ∧ (State.modEp a0 a1 a2 a3).free = a0.free := by
  unfold State.modEp; (repeat' split) <;> simp
@[simp] theorem State.chnGone_same (a0 : State) (a1 : Nat) (a2 : W256) :
    (State.chnGone a0 a1 a2).pending = a0.pending ∧ (State.chnGone a0 a1 a2).clk = a0.clk ∧ (State.chnGone a0 a1 a2).net = a0.net ∧
      (State.chnGone a0 a1 a2).vats = a0.vats ∧ (State.chnGone a0 a1 a2).mem = a0.mem ∧ (State.chnGone a0 a1 a2).hub = a0.hub ∧
      (State.chnGone a0 a1 a2).span = a0.span ∧ (State.chnGone a0 a1 a2).host = a0.host ∧ (State.chnGone a0 a1 a2).pwr = a0.pwr ∧
      (State.chnGone a0 a1 a2).boot = a0.boot ∧ (State.chnGone a0 a1 a2).out = a0.out ∧ (State.chnGone a0 a1 a2).free = a0.free := by
  unfold State.chnGone; (repeat' split) <;> simp
@[simp] theorem State.dropWatches_same (a0 : State) (a1 : Nat) :
    (State.dropWatches a0 a1).pending = a0.pending ∧ (State.dropWatches a0 a1).clk = a0.clk ∧ (State.dropWatches a0 a1).cores = a0.cores ∧
      (State.dropWatches a0 a1).vats = a0.vats ∧ (State.dropWatches a0 a1).mem = a0.mem ∧ (State.dropWatches a0 a1).hub = a0.hub ∧
      (State.dropWatches a0 a1).span = a0.span ∧ (State.dropWatches a0 a1).host = a0.host ∧ (State.dropWatches a0 a1).pwr = a0.pwr ∧
      (State.dropWatches a0 a1).boot = a0.boot ∧ (State.dropWatches a0 a1).out = a0.out ∧ (State.dropWatches a0 a1).free = a0.free := by
  unfold State.dropWatches; (repeat' split) <;> simp
@[simp] theorem State.setChn_same (a0 : State) (a1 : Nat) (a2 : Chn) :
    (State.setChn a0 a1 a2).pending = a0.pending ∧ (State.setChn a0 a1 a2).clk = a0.clk ∧ (State.setChn a0 a1 a2).net = a0.net ∧
      (State.setChn a0 a1 a2).vats = a0.vats ∧ (State.setChn a0 a1 a2).mem = a0.mem ∧ (State.setChn a0 a1 a2).hub = a0.hub ∧
      (State.setChn a0 a1 a2).span = a0.span ∧ (State.setChn a0 a1 a2).host = a0.host ∧ (State.setChn a0 a1 a2).pwr = a0.pwr ∧
      (State.setChn a0 a1 a2).boot = a0.boot ∧ (State.setChn a0 a1 a2).out = a0.out ∧ (State.setChn a0 a1 a2).free = a0.free := by
  unfold State.setChn; (repeat' split) <;> simp
@[simp] theorem State.modChn_same (a0 : State) (a1 : Nat) (a2 : Chn → Chn) :
    (State.modChn a0 a1 a2).pending = a0.pending ∧ (State.modChn a0 a1 a2).clk = a0.clk ∧ (State.modChn a0 a1 a2).net = a0.net ∧
      (State.modChn a0 a1 a2).vats = a0.vats ∧ (State.modChn a0 a1 a2).mem = a0.mem ∧ (State.modChn a0 a1 a2).hub = a0.hub ∧
      (State.modChn a0 a1 a2).span = a0.span ∧ (State.modChn a0 a1 a2).host = a0.host ∧ (State.modChn a0 a1 a2).pwr = a0.pwr ∧
      (State.modChn a0 a1 a2).boot = a0.boot ∧ (State.modChn a0 a1 a2).out = a0.out ∧ (State.modChn a0 a1 a2).free = a0.free := by
  unfold State.modChn; (repeat' split) <;> simp
@[simp] theorem State.setMat_same (a0 : State) (a1 : Nat) (a2 : Mat) :
    (State.setMat a0 a1 a2).pending = a0.pending ∧ (State.setMat a0 a1 a2).clk = a0.clk ∧ (State.setMat a0 a1 a2).net = a0.net ∧
      (State.setMat a0 a1 a2).vats = a0.vats ∧ (State.setMat a0 a1 a2).mem = a0.mem ∧ (State.setMat a0 a1 a2).hub = a0.hub ∧
      (State.setMat a0 a1 a2).span = a0.span ∧ (State.setMat a0 a1 a2).host = a0.host ∧ (State.setMat a0 a1 a2).pwr = a0.pwr ∧
      (State.setMat a0 a1 a2).boot = a0.boot ∧ (State.setMat a0 a1 a2).out = a0.out ∧ (State.setMat a0 a1 a2).free = a0.free := by
  unfold State.setMat; (repeat' split) <;> simp
@[simp] theorem State.modMat_same (a0 : State) (a1 : Nat) (a2 : Mat → Mat) :
    (State.modMat a0 a1 a2).pending = a0.pending ∧ (State.modMat a0 a1 a2).clk = a0.clk ∧ (State.modMat a0 a1 a2).net = a0.net ∧
      (State.modMat a0 a1 a2).vats = a0.vats ∧ (State.modMat a0 a1 a2).mem = a0.mem ∧ (State.modMat a0 a1 a2).hub = a0.hub ∧
      (State.modMat a0 a1 a2).span = a0.span ∧ (State.modMat a0 a1 a2).host = a0.host ∧ (State.modMat a0 a1 a2).pwr = a0.pwr ∧
      (State.modMat a0 a1 a2).boot = a0.boot ∧ (State.modMat a0 a1 a2).out = a0.out ∧ (State.modMat a0 a1 a2).free = a0.free := by
  unfold State.modMat; (repeat' split) <;> simp
@[simp] theorem State.setSe_same (a0 : State) (a1 : Nat) (a2 : Nat) (a3 : Se) :
    (State.setSe a0 a1 a2 a3).pending = a0.pending ∧ (State.setSe a0 a1 a2 a3).clk = a0.clk ∧ (State.setSe a0 a1 a2 a3).net = a0.net ∧
      (State.setSe a0 a1 a2 a3).vats = a0.vats ∧ (State.setSe a0 a1 a2 a3).mem = a0.mem ∧ (State.setSe a0 a1 a2 a3).hub = a0.hub ∧
      (State.setSe a0 a1 a2 a3).span = a0.span ∧ (State.setSe a0 a1 a2 a3).host = a0.host ∧ (State.setSe a0 a1 a2 a3).pwr = a0.pwr ∧
      (State.setSe a0 a1 a2 a3).boot = a0.boot ∧ (State.setSe a0 a1 a2 a3).out = a0.out ∧ (State.setSe a0 a1 a2 a3).free = a0.free := by
  unfold State.setSe; (repeat' split) <;> simp
@[simp] theorem State.modSe_same (a0 : State) (a1 : Nat) (a2 : Nat) (a3 : Se → Se) :
    (State.modSe a0 a1 a2 a3).pending = a0.pending ∧ (State.modSe a0 a1 a2 a3).clk = a0.clk ∧ (State.modSe a0 a1 a2 a3).net = a0.net ∧
      (State.modSe a0 a1 a2 a3).vats = a0.vats ∧ (State.modSe a0 a1 a2 a3).mem = a0.mem ∧ (State.modSe a0 a1 a2 a3).hub = a0.hub ∧
      (State.modSe a0 a1 a2 a3).span = a0.span ∧ (State.modSe a0 a1 a2 a3).host = a0.host ∧ (State.modSe a0 a1 a2 a3).pwr = a0.pwr ∧
      (State.modSe a0 a1 a2 a3).boot = a0.boot ∧ (State.modSe a0 a1 a2 a3).out = a0.out ∧ (State.modSe a0 a1 a2 a3).free = a0.free := by
  unfold State.modSe; (repeat' split) <;> simp
@[simp] theorem State.setVec_same (a0 : State) (a1 : Nat) (a2 : Vec) :
    (State.setVec a0 a1 a2).pending = a0.pending ∧ (State.setVec a0 a1 a2).clk = a0.clk ∧ (State.setVec a0 a1 a2).net = a0.net ∧
      (State.setVec a0 a1 a2).vats = a0.vats ∧ (State.setVec a0 a1 a2).mem = a0.mem ∧ (State.setVec a0 a1 a2).hub = a0.hub ∧
      (State.setVec a0 a1 a2).span = a0.span ∧ (State.setVec a0 a1 a2).host = a0.host ∧ (State.setVec a0 a1 a2).pwr = a0.pwr ∧
      (State.setVec a0 a1 a2).boot = a0.boot ∧ (State.setVec a0 a1 a2).out = a0.out ∧ (State.setVec a0 a1 a2).free = a0.free := by
  unfold State.setVec; (repeat' split) <;> simp
@[simp] theorem State.modVec_same (a0 : State) (a1 : Nat) (a2 : Vec → Vec) :
    (State.modVec a0 a1 a2).pending = a0.pending ∧ (State.modVec a0 a1 a2).clk = a0.clk ∧ (State.modVec a0 a1 a2).net = a0.net ∧
      (State.modVec a0 a1 a2).vats = a0.vats ∧ (State.modVec a0 a1 a2).mem = a0.mem ∧ (State.modVec a0 a1 a2).hub = a0.hub ∧
      (State.modVec a0 a1 a2).span = a0.span ∧ (State.modVec a0 a1 a2).host = a0.host ∧ (State.modVec a0 a1 a2).pwr = a0.pwr ∧
      (State.modVec a0 a1 a2).boot = a0.boot ∧ (State.modVec a0 a1 a2).out = a0.out ∧ (State.modVec a0 a1 a2).free = a0.free := by
  unfold State.modVec; (repeat' split) <;> simp
@[simp] theorem State.setQueue_same (a0 : State) (a1 : Nat) (a2 : Nat) (a3 : EngQ) :
    (State.setQueue a0 a1 a2 a3).pending = a0.pending ∧ (State.setQueue a0 a1 a2 a3).clk = a0.clk ∧ (State.setQueue a0 a1 a2 a3).net = a0.net ∧
      (State.setQueue a0 a1 a2 a3).vats = a0.vats ∧ (State.setQueue a0 a1 a2 a3).mem = a0.mem ∧ (State.setQueue a0 a1 a2 a3).hub = a0.hub ∧
      (State.setQueue a0 a1 a2 a3).span = a0.span ∧ (State.setQueue a0 a1 a2 a3).host = a0.host ∧ (State.setQueue a0 a1 a2 a3).pwr = a0.pwr ∧
      (State.setQueue a0 a1 a2 a3).boot = a0.boot ∧ (State.setQueue a0 a1 a2 a3).out = a0.out ∧ (State.setQueue a0 a1 a2 a3).free = a0.free := by
  unfold State.setQueue; (repeat' split) <;> simp
@[simp] theorem State.dropEngines_same (a0 : State) (a1 : Nat) :
    (State.dropEngines a0 a1).pending = a0.pending ∧ (State.dropEngines a0 a1).clk = a0.clk ∧ (State.dropEngines a0 a1).vats = a0.vats ∧
      (State.dropEngines a0 a1).mem = a0.mem ∧ (State.dropEngines a0 a1).hub = a0.hub ∧ (State.dropEngines a0 a1).span = a0.span ∧
      (State.dropEngines a0 a1).host = a0.host ∧ (State.dropEngines a0 a1).pwr = a0.pwr ∧ (State.dropEngines a0 a1).boot = a0.boot ∧
      (State.dropEngines a0 a1).out = a0.out ∧ (State.dropEngines a0 a1).free = a0.free := by
  unfold State.dropEngines; dsimp only; split <;> simp
@[simp] theorem State.cancelStart_same (a0 : State) (a1 : Nat) :
    (State.cancelStart a0 a1).pending = a0.pending ∧ (State.cancelStart a0 a1).clk = a0.clk ∧ (State.cancelStart a0 a1).cores = a0.cores ∧
      (State.cancelStart a0 a1).net = a0.net ∧ (State.cancelStart a0 a1).mem = a0.mem ∧ (State.cancelStart a0 a1).hub = a0.hub ∧
      (State.cancelStart a0 a1).span = a0.span ∧ (State.cancelStart a0 a1).pwr = a0.pwr ∧ (State.cancelStart a0 a1).boot = a0.boot ∧
      (State.cancelStart a0 a1).out = a0.out ∧ (State.cancelStart a0 a1).free = a0.free := by
  unfold State.cancelStart; (repeat' split) <;> simp
@[simp] theorem State.raiseDeckle_same (a0 : State) (a1 : Nat) (a2 : List Nat) :
    (State.raiseDeckle a0 a1 a2).pending = a0.pending ∧ (State.raiseDeckle a0 a1 a2).clk = a0.clk ∧ (State.raiseDeckle a0 a1 a2).cores = a0.cores ∧
      (State.raiseDeckle a0 a1 a2).net = a0.net ∧ (State.raiseDeckle a0 a1 a2).mem = a0.mem ∧ (State.raiseDeckle a0 a1 a2).hub = a0.hub ∧
      (State.raiseDeckle a0 a1 a2).span = a0.span ∧ (State.raiseDeckle a0 a1 a2).host = a0.host ∧ (State.raiseDeckle a0 a1 a2).pwr = a0.pwr ∧
      (State.raiseDeckle a0 a1 a2).boot = a0.boot ∧ (State.raiseDeckle a0 a1 a2).out = a0.out ∧ (State.raiseDeckle a0 a1 a2).free = a0.free := by
  unfold State.raiseDeckle; (repeat' split) <;> simp
@[simp] theorem State.setCtl_same (a0 : State) (a1 : Nat) (a2 : Ctl) :
    (State.setCtl a0 a1 a2).pending = a0.pending ∧ (State.setCtl a0 a1 a2).clk = a0.clk ∧ (State.setCtl a0 a1 a2).net = a0.net ∧
      (State.setCtl a0 a1 a2).vats = a0.vats ∧ (State.setCtl a0 a1 a2).mem = a0.mem ∧ (State.setCtl a0 a1 a2).hub = a0.hub ∧
      (State.setCtl a0 a1 a2).span = a0.span ∧ (State.setCtl a0 a1 a2).host = a0.host ∧ (State.setCtl a0 a1 a2).pwr = a0.pwr ∧
      (State.setCtl a0 a1 a2).boot = a0.boot ∧ (State.setCtl a0 a1 a2).out = a0.out ∧ (State.setCtl a0 a1 a2).free = a0.free := by
  unfold State.setCtl; (repeat' split) <;> simp
@[simp] theorem State.modCtl_same (a0 : State) (a1 : Nat) (a2 : Ctl → Ctl) :
    (State.modCtl a0 a1 a2).pending = a0.pending ∧ (State.modCtl a0 a1 a2).clk = a0.clk ∧ (State.modCtl a0 a1 a2).net = a0.net ∧
      (State.modCtl a0 a1 a2).vats = a0.vats ∧ (State.modCtl a0 a1 a2).mem = a0.mem ∧ (State.modCtl a0 a1 a2).hub = a0.hub ∧
      (State.modCtl a0 a1 a2).span = a0.span ∧ (State.modCtl a0 a1 a2).host = a0.host ∧ (State.modCtl a0 a1 a2).pwr = a0.pwr ∧
      (State.modCtl a0 a1 a2).boot = a0.boot ∧ (State.modCtl a0 a1 a2).out = a0.out ∧ (State.modCtl a0 a1 a2).free = a0.free := by
  unfold State.modCtl; (repeat' split) <;> simp
@[simp] theorem State.stopEnlisted_same (a0 : State) (a1 : Nat) :
    (State.stopEnlisted a0 a1).pending = a0.pending ∧ (State.stopEnlisted a0 a1).clk = a0.clk ∧ (State.stopEnlisted a0 a1).net = a0.net ∧
      (State.stopEnlisted a0 a1).vats = a0.vats ∧ (State.stopEnlisted a0 a1).mem = a0.mem ∧ (State.stopEnlisted a0 a1).hub = a0.hub ∧
      (State.stopEnlisted a0 a1).span = a0.span ∧ (State.stopEnlisted a0 a1).host = a0.host ∧ (State.stopEnlisted a0 a1).pwr = a0.pwr ∧
      (State.stopEnlisted a0 a1).boot = a0.boot ∧ (State.stopEnlisted a0 a1).out = a0.out ∧ (State.stopEnlisted a0 a1).free = a0.free := by
  unfold State.stopEnlisted; (repeat' split) <;> simp
@[simp] theorem State.setVer_same (a0 : State) (a1 : Nat) (a2 : VerEnt) :
    (State.setVer a0 a1 a2).pending = a0.pending ∧ (State.setVer a0 a1 a2).clk = a0.clk ∧ (State.setVer a0 a1 a2).cores = a0.cores ∧
      (State.setVer a0 a1 a2).net = a0.net ∧ (State.setVer a0 a1 a2).vats = a0.vats ∧ (State.setVer a0 a1 a2).hub = a0.hub ∧
      (State.setVer a0 a1 a2).span = a0.span ∧ (State.setVer a0 a1 a2).host = a0.host ∧ (State.setVer a0 a1 a2).pwr = a0.pwr ∧
      (State.setVer a0 a1 a2).boot = a0.boot ∧ (State.setVer a0 a1 a2).out = a0.out ∧ (State.setVer a0 a1 a2).free = a0.free := by
  unfold State.setVer; (repeat' split) <;> simp
@[simp] theorem State.modVer_same (a0 : State) (a1 : Nat) (a2 : VerEnt → VerEnt) :
    (State.modVer a0 a1 a2).pending = a0.pending ∧ (State.modVer a0 a1 a2).clk = a0.clk ∧ (State.modVer a0 a1 a2).cores = a0.cores ∧
      (State.modVer a0 a1 a2).net = a0.net ∧ (State.modVer a0 a1 a2).vats = a0.vats ∧ (State.modVer a0 a1 a2).hub = a0.hub ∧
      (State.modVer a0 a1 a2).span = a0.span ∧ (State.modVer a0 a1 a2).host = a0.host ∧ (State.modVer a0 a1 a2).pwr = a0.pwr ∧
      (State.modVer a0 a1 a2).boot = a0.boot ∧ (State.modVer a0 a1 a2).out = a0.out ∧ (State.modVer a0 a1 a2).free = a0.free := by
  unfold State.modVer; (repeat' split) <;> simp
@[simp] theorem State.withdraw_same (a0 : State) (a1 : Nat) (a2 : StkCmd → Bool) :
    (State.withdraw a0 a1 a2).pending = a0.pending ∧ (State.withdraw a0 a1 a2).clk = a0.clk ∧ (State.withdraw a0 a1 a2).cores = a0.cores ∧
      (State.withdraw a0 a1 a2).net = a0.net ∧ (State.withdraw a0 a1 a2).vats = a0.vats ∧ (State.withdraw a0 a1 a2).hub = a0.hub ∧
      (State.withdraw a0 a1 a2).span = a0.span ∧ (State.withdraw a0 a1 a2).host = a0.host ∧ (State.withdraw a0 a1 a2).pwr = a0.pwr ∧
      (State.withdraw a0 a1 a2).boot = a0.boot ∧ (State.withdraw a0 a1 a2).out = a0.out ∧ (State.withdraw a0 a1 a2).free = a0.free := by
  unfold State.withdraw; (repeat' split) <;> simp
@[simp] theorem State.forceStop_same (a0 : State) (a1 : Nat) :
    (State.forceStop a0 a1).pending = a0.pending ∧ (State.forceStop a0 a1).clk = a0.clk ∧ (State.forceStop a0 a1).net = a0.net ∧
      (State.forceStop a0 a1).hub = a0.hub ∧ (State.forceStop a0 a1).span = a0.span ∧ (State.forceStop a0 a1).pwr = a0.pwr ∧
      (State.forceStop a0 a1).boot = a0.boot ∧ (State.forceStop a0 a1).out = a0.out ∧ (State.forceStop a0 a1).free = a0.free := by
  unfold State.forceStop; (repeat' split) <;> simp
@[simp] theorem State.account_same (a0 : State) (a1 : Nat) (a2 : Nat) (a3 : Nat) :
    (State.account a0 a1 a2 a3).pending = a0.pending ∧ (State.account a0 a1 a2 a3).clk = a0.clk ∧ (State.account a0 a1 a2 a3).cores = a0.cores ∧
      (State.account a0 a1 a2 a3).net = a0.net ∧ (State.account a0 a1 a2 a3).mem = a0.mem ∧ (State.account a0 a1 a2 a3).hub = a0.hub ∧
      (State.account a0 a1 a2 a3).span = a0.span ∧ (State.account a0 a1 a2 a3).host = a0.host ∧ (State.account a0 a1 a2 a3).pwr = a0.pwr ∧
      (State.account a0 a1 a2 a3).boot = a0.boot ∧ (State.account a0 a1 a2 a3).out = a0.out ∧ (State.account a0 a1 a2 a3).free = a0.free := by
  unfold State.account; (repeat' split) <;> simp
@[simp] theorem State.send_same (a0 : State) (a1 : Out) :
    (State.send a0 a1).pending = a0.pending ∧ (State.send a0 a1).clk = a0.clk ∧ (State.send a0 a1).cores = a0.cores ∧
      (State.send a0 a1).net = a0.net ∧ (State.send a0 a1).vats = a0.vats ∧ (State.send a0 a1).mem = a0.mem ∧ (State.send a0 a1).hub = a0.hub ∧
      (State.send a0 a1).span = a0.span ∧ (State.send a0 a1).host = a0.host ∧ (State.send a0 a1).pwr = a0.pwr ∧ (State.send a0 a1).boot = a0.boot ∧
      (State.send a0 a1).free = a0.free := by
  unfold State.send; (repeat' split) <;> simp
@[simp] theorem State.irqSettle_same (a0 : State) (a1 : Bool) :
    (State.irqSettle a0 a1).pending = a0.pending ∧ (State.irqSettle a0 a1).clk = a0.clk ∧ (State.irqSettle a0 a1).cores = a0.cores ∧
      (State.irqSettle a0 a1).net = a0.net ∧ (State.irqSettle a0 a1).vats = a0.vats ∧ (State.irqSettle a0 a1).mem = a0.mem ∧
      (State.irqSettle a0 a1).span = a0.span ∧ (State.irqSettle a0 a1).host = a0.host ∧ (State.irqSettle a0 a1).pwr = a0.pwr ∧
      (State.irqSettle a0 a1).boot = a0.boot ∧ (State.irqSettle a0 a1).free = a0.free := by
  unfold State.irqSettle; (repeat' split) <;> simp
@[simp] theorem State.setIrqSrc_same (a0 : State) (a1 : Nat) (a2 : IrqSrc) :
    (State.setIrqSrc a0 a1 a2).pending = a0.pending ∧ (State.setIrqSrc a0 a1 a2).clk = a0.clk ∧ (State.setIrqSrc a0 a1 a2).cores = a0.cores ∧
      (State.setIrqSrc a0 a1 a2).net = a0.net ∧ (State.setIrqSrc a0 a1 a2).vats = a0.vats ∧ (State.setIrqSrc a0 a1 a2).mem = a0.mem ∧
      (State.setIrqSrc a0 a1 a2).span = a0.span ∧ (State.setIrqSrc a0 a1 a2).host = a0.host ∧ (State.setIrqSrc a0 a1 a2).pwr = a0.pwr ∧
      (State.setIrqSrc a0 a1 a2).boot = a0.boot ∧ (State.setIrqSrc a0 a1 a2).out = a0.out ∧ (State.setIrqSrc a0 a1 a2).free = a0.free := by
  unfold State.setIrqSrc; (repeat' split) <;> simp
@[simp] theorem State.modIrqSrc_same (a0 : State) (a1 : Nat) (a2 : IrqSrc → IrqSrc) :
    (State.modIrqSrc a0 a1 a2).pending = a0.pending ∧ (State.modIrqSrc a0 a1 a2).clk = a0.clk ∧ (State.modIrqSrc a0 a1 a2).cores = a0.cores ∧
      (State.modIrqSrc a0 a1 a2).net = a0.net ∧ (State.modIrqSrc a0 a1 a2).vats = a0.vats ∧ (State.modIrqSrc a0 a1 a2).mem = a0.mem ∧
      (State.modIrqSrc a0 a1 a2).span = a0.span ∧ (State.modIrqSrc a0 a1 a2).host = a0.host ∧ (State.modIrqSrc a0 a1 a2).pwr = a0.pwr ∧
      (State.modIrqSrc a0 a1 a2).boot = a0.boot ∧ (State.modIrqSrc a0 a1 a2).out = a0.out ∧ (State.modIrqSrc a0 a1 a2).free = a0.free := by
  unfold State.modIrqSrc; (repeat' split) <;> simp
@[simp] theorem State.setWakeSel_same (a0 : State) (a1 : Nat) (a2 : WakeSel) :
    (State.setWakeSel a0 a1 a2).pending = a0.pending ∧ (State.setWakeSel a0 a1 a2).clk = a0.clk ∧ (State.setWakeSel a0 a1 a2).cores = a0.cores ∧
      (State.setWakeSel a0 a1 a2).net = a0.net ∧ (State.setWakeSel a0 a1 a2).vats = a0.vats ∧ (State.setWakeSel a0 a1 a2).mem = a0.mem ∧
      (State.setWakeSel a0 a1 a2).span = a0.span ∧ (State.setWakeSel a0 a1 a2).host = a0.host ∧ (State.setWakeSel a0 a1 a2).pwr = a0.pwr ∧
      (State.setWakeSel a0 a1 a2).boot = a0.boot ∧ (State.setWakeSel a0 a1 a2).out = a0.out ∧ (State.setWakeSel a0 a1 a2).free = a0.free := by
  unfold State.setWakeSel; (repeat' split) <;> simp
@[simp] theorem State.modWakeSel_same (a0 : State) (a1 : Nat) (a2 : WakeSel → WakeSel) :
    (State.modWakeSel a0 a1 a2).pending = a0.pending ∧ (State.modWakeSel a0 a1 a2).clk = a0.clk ∧ (State.modWakeSel a0 a1 a2).cores = a0.cores ∧
      (State.modWakeSel a0 a1 a2).net = a0.net ∧ (State.modWakeSel a0 a1 a2).vats = a0.vats ∧ (State.modWakeSel a0 a1 a2).mem = a0.mem ∧
      (State.modWakeSel a0 a1 a2).span = a0.span ∧ (State.modWakeSel a0 a1 a2).host = a0.host ∧ (State.modWakeSel a0 a1 a2).pwr = a0.pwr ∧
      (State.modWakeSel a0 a1 a2).boot = a0.boot ∧ (State.modWakeSel a0 a1 a2).out = a0.out ∧ (State.modWakeSel a0 a1 a2).free = a0.free := by
  unfold State.modWakeSel; (repeat' split) <;> simp
@[simp] theorem State.watchEvent_same (a0 : State) (a1 : Nat) :
    (State.watchEvent a0 a1).pending = a0.pending ∧ (State.watchEvent a0 a1).clk = a0.clk ∧ (State.watchEvent a0 a1).cores = a0.cores ∧
      (State.watchEvent a0 a1).net = a0.net ∧ (State.watchEvent a0 a1).vats = a0.vats ∧ (State.watchEvent a0 a1).mem = a0.mem ∧
      (State.watchEvent a0 a1).span = a0.span ∧ (State.watchEvent a0 a1).host = a0.host ∧ (State.watchEvent a0 a1).boot = a0.boot ∧
      (State.watchEvent a0 a1).out = a0.out ∧ (State.watchEvent a0 a1).free = a0.free := by
  unfold State.watchEvent; (repeat' split) <;> simp
@[simp] theorem State.fire_same (a0 : State) (a1 : Nat) :
    (State.fire a0 a1).pending = a0.pending ∧ (State.fire a0 a1).clk = a0.clk ∧ (State.fire a0 a1).cores = a0.cores ∧
      (State.fire a0 a1).net = a0.net ∧ (State.fire a0 a1).vats = a0.vats ∧ (State.fire a0 a1).mem = a0.mem ∧ (State.fire a0 a1).span = a0.span ∧
      (State.fire a0 a1).host = a0.host ∧ (State.fire a0 a1).boot = a0.boot ∧ (State.fire a0 a1).free = a0.free := by
  unfold State.fire; (repeat' split) <;> simp
@[simp] theorem State.fireVat_same (a0 : State) (a1 : Nat) (a2 : Nat) :
    (State.fireVat a0 a1 a2).pending = a0.pending ∧ (State.fireVat a0 a1 a2).clk = a0.clk ∧ (State.fireVat a0 a1 a2).cores = a0.cores ∧
      (State.fireVat a0 a1 a2).net = a0.net ∧ (State.fireVat a0 a1 a2).vats = a0.vats ∧ (State.fireVat a0 a1 a2).mem = a0.mem ∧
      (State.fireVat a0 a1 a2).span = a0.span ∧ (State.fireVat a0 a1 a2).host = a0.host ∧ (State.fireVat a0 a1 a2).boot = a0.boot ∧
      (State.fireVat a0 a1 a2).free = a0.free := by
  unfold State.fireVat; (repeat' split) <;> simp
@[simp] theorem State.report_same (a0 : State) (a1 : Report) :
    (State.report a0 a1).pending = a0.pending ∧ (State.report a0 a1).clk = a0.clk ∧ (State.report a0 a1).cores = a0.cores ∧
      (State.report a0 a1).net = a0.net ∧ (State.report a0 a1).vats = a0.vats ∧ (State.report a0 a1).mem = a0.mem ∧
      (State.report a0 a1).span = a0.span ∧ (State.report a0 a1).host = a0.host ∧ (State.report a0 a1).boot = a0.boot ∧
      (State.report a0 a1).free = a0.free := by
  unfold State.report; (repeat' split) <;> simp
@[simp] theorem State.log_same (a0 : State) (a1 : Nat) (a2 : Nat) (a3 : Nat) (a4 : Option Nat) (a5 : Nat) (a6 : Nat) :
    (State.log a0 a1 a2 a3 a4 a5 a6).pending = a0.pending ∧ (State.log a0 a1 a2 a3 a4 a5 a6).clk = a0.clk ∧
      (State.log a0 a1 a2 a3 a4 a5 a6).cores = a0.cores ∧ (State.log a0 a1 a2 a3 a4 a5 a6).net = a0.net ∧
      (State.log a0 a1 a2 a3 a4 a5 a6).vats = a0.vats ∧ (State.log a0 a1 a2 a3 a4 a5 a6).mem = a0.mem ∧
      (State.log a0 a1 a2 a3 a4 a5 a6).span = a0.span ∧ (State.log a0 a1 a2 a3 a4 a5 a6).host = a0.host ∧
      (State.log a0 a1 a2 a3 a4 a5 a6).boot = a0.boot ∧ (State.log a0 a1 a2 a3 a4 a5 a6).free = a0.free := by
  unfold State.log; (repeat' split) <;> simp
@[simp] theorem State.containPoint_same (a0 : State) (a1 : Nat) (a2 : Nat) (a3 : Nat) (a4 : Nat) (a5 : Nat) :
    (State.containPoint a0 a1 a2 a3 a4 a5).pending = a0.pending ∧ (State.containPoint a0 a1 a2 a3 a4 a5).clk = a0.clk ∧
      (State.containPoint a0 a1 a2 a3 a4 a5).cores = a0.cores ∧ (State.containPoint a0 a1 a2 a3 a4 a5).net = a0.net ∧
      (State.containPoint a0 a1 a2 a3 a4 a5).mem = a0.mem ∧ (State.containPoint a0 a1 a2 a3 a4 a5).span = a0.span ∧
      (State.containPoint a0 a1 a2 a3 a4 a5).host = a0.host ∧ (State.containPoint a0 a1 a2 a3 a4 a5).boot = a0.boot ∧
      (State.containPoint a0 a1 a2 a3 a4 a5).free = a0.free := by
  unfold State.containPoint; (repeat' split) <;> simp
@[simp] theorem State.setPort_same (a0 : State) (a1 : Nat) (a2 : SpanPort) :
    (State.setPort a0 a1 a2).pending = a0.pending ∧ (State.setPort a0 a1 a2).clk = a0.clk ∧ (State.setPort a0 a1 a2).cores = a0.cores ∧
      (State.setPort a0 a1 a2).net = a0.net ∧ (State.setPort a0 a1 a2).vats = a0.vats ∧ (State.setPort a0 a1 a2).mem = a0.mem ∧
      (State.setPort a0 a1 a2).hub = a0.hub ∧ (State.setPort a0 a1 a2).host = a0.host ∧ (State.setPort a0 a1 a2).pwr = a0.pwr ∧
      (State.setPort a0 a1 a2).boot = a0.boot ∧ (State.setPort a0 a1 a2).out = a0.out ∧ (State.setPort a0 a1 a2).free = a0.free := by
  unfold State.setPort; (repeat' split) <;> simp
@[simp] theorem State.modPort_same (a0 : State) (a1 : Nat) (a2 : SpanPort → SpanPort) :
    (State.modPort a0 a1 a2).pending = a0.pending ∧ (State.modPort a0 a1 a2).clk = a0.clk ∧ (State.modPort a0 a1 a2).cores = a0.cores ∧
      (State.modPort a0 a1 a2).net = a0.net ∧ (State.modPort a0 a1 a2).vats = a0.vats ∧ (State.modPort a0 a1 a2).mem = a0.mem ∧
      (State.modPort a0 a1 a2).hub = a0.hub ∧ (State.modPort a0 a1 a2).host = a0.host ∧ (State.modPort a0 a1 a2).pwr = a0.pwr ∧
      (State.modPort a0 a1 a2).boot = a0.boot ∧ (State.modPort a0 a1 a2).out = a0.out ∧ (State.modPort a0 a1 a2).free = a0.free := by
  unfold State.modPort; (repeat' split) <;> simp
@[simp] theorem State.queueTwin_same (a0 : State) (a1 : TxFrame) :
    (State.queueTwin a0 a1).pending = a0.pending ∧ (State.queueTwin a0 a1).clk = a0.clk ∧ (State.queueTwin a0 a1).cores = a0.cores ∧
      (State.queueTwin a0 a1).net = a0.net ∧ (State.queueTwin a0 a1).vats = a0.vats ∧ (State.queueTwin a0 a1).mem = a0.mem ∧
      (State.queueTwin a0 a1).hub = a0.hub ∧ (State.queueTwin a0 a1).host = a0.host ∧ (State.queueTwin a0 a1).pwr = a0.pwr ∧
      (State.queueTwin a0 a1).boot = a0.boot ∧ (State.queueTwin a0 a1).out = a0.out ∧ (State.queueTwin a0 a1).free = a0.free := by
  unfold State.queueTwin; (repeat' split) <;> simp
@[simp] theorem State.releaseHost_same (a0 : State) (a1 : Nat) (a2 : Nat → Option (Option Nat)) :
    (State.releaseHost a0 a1 a2).pending = a0.pending ∧ (State.releaseHost a0 a1 a2).clk = a0.clk ∧ (State.releaseHost a0 a1 a2).cores = a0.cores ∧
      (State.releaseHost a0 a1 a2).net = a0.net ∧ (State.releaseHost a0 a1 a2).vats = a0.vats ∧ (State.releaseHost a0 a1 a2).mem = a0.mem ∧
      (State.releaseHost a0 a1 a2).hub = a0.hub ∧ (State.releaseHost a0 a1 a2).span = a0.span ∧ (State.releaseHost a0 a1 a2).pwr = a0.pwr ∧
      (State.releaseHost a0 a1 a2).boot = a0.boot ∧ (State.releaseHost a0 a1 a2).out = a0.out ∧ (State.releaseHost a0 a1 a2).free = a0.free := by
  unfold State.releaseHost; (repeat' split) <;> simp
@[simp] theorem State.sendRecords_same (a0 : State) (a1 : Nat) :
    (State.sendRecords a0 a1).pending = a0.pending ∧ (State.sendRecords a0 a1).clk = a0.clk ∧ (State.sendRecords a0 a1).cores = a0.cores ∧
      (State.sendRecords a0 a1).net = a0.net ∧ (State.sendRecords a0 a1).mem = a0.mem ∧ (State.sendRecords a0 a1).hub = a0.hub ∧
      (State.sendRecords a0 a1).host = a0.host ∧ (State.sendRecords a0 a1).pwr = a0.pwr ∧ (State.sendRecords a0 a1).boot = a0.boot ∧
      (State.sendRecords a0 a1).out = a0.out ∧ (State.sendRecords a0 a1).free = a0.free := by
  unfold State.sendRecords; (repeat' split) <;> simp
@[simp] theorem State.setMstat_same (a0 : State) (a1 : Nat) (a2 : Nat) :
    (State.setMstat a0 a1 a2).pending = a0.pending ∧ (State.setMstat a0 a1 a2).clk = a0.clk ∧ (State.setMstat a0 a1 a2).cores = a0.cores ∧
      (State.setMstat a0 a1 a2).net = a0.net ∧ (State.setMstat a0 a1 a2).mem = a0.mem ∧ (State.setMstat a0 a1 a2).span = a0.span ∧
      (State.setMstat a0 a1 a2).host = a0.host ∧ (State.setMstat a0 a1 a2).boot = a0.boot ∧ (State.setMstat a0 a1 a2).free = a0.free := by
  unfold State.setMstat; (repeat' split) <;> simp
@[simp] theorem State.takeCommit_same (a0 : State) (a1 : Nat) (a2 : Bool) (a3 : Bool) :
    (State.takeCommit a0 a1 a2 a3).pending = a0.pending ∧ (State.takeCommit a0 a1 a2 a3).clk = a0.clk ∧
      (State.takeCommit a0 a1 a2 a3).cores = a0.cores ∧ (State.takeCommit a0 a1 a2 a3).net = a0.net ∧ (State.takeCommit a0 a1 a2 a3).mem = a0.mem ∧
      (State.takeCommit a0 a1 a2 a3).boot = a0.boot ∧ (State.takeCommit a0 a1 a2 a3).free = a0.free := by
  unfold State.takeCommit; dsimp only; (repeat' (split <;> try dsimp only)) <;> simp_all
@[simp] theorem State.autoCommit_same (a0 : State) (a1 : Nat) :
    (State.autoCommit a0 a1).pending = a0.pending ∧ (State.autoCommit a0 a1).clk = a0.clk ∧ (State.autoCommit a0 a1).cores = a0.cores ∧
      (State.autoCommit a0 a1).net = a0.net ∧ (State.autoCommit a0 a1).mem = a0.mem ∧ (State.autoCommit a0 a1).boot = a0.boot ∧
      (State.autoCommit a0 a1).free = a0.free := by
  unfold State.autoCommit; (repeat' split) <;> simp
@[simp] theorem State.accountStk_same (a0 : State) (a1 : Nat) (a2 : Nat) (a3 : Nat) :
    (State.accountStk a0 a1 a2 a3).pending = a0.pending ∧ (State.accountStk a0 a1 a2 a3).clk = a0.clk ∧
      (State.accountStk a0 a1 a2 a3).cores = a0.cores ∧ (State.accountStk a0 a1 a2 a3).net = a0.net ∧ (State.accountStk a0 a1 a2 a3).mem = a0.mem ∧
      (State.accountStk a0 a1 a2 a3).hub = a0.hub ∧ (State.accountStk a0 a1 a2 a3).span = a0.span ∧ (State.accountStk a0 a1 a2 a3).host = a0.host ∧
      (State.accountStk a0 a1 a2 a3).pwr = a0.pwr ∧ (State.accountStk a0 a1 a2 a3).boot = a0.boot ∧ (State.accountStk a0 a1 a2 a3).out = a0.out ∧
      (State.accountStk a0 a1 a2 a3).free = a0.free := by
  unfold State.accountStk; (repeat' split) <;> simp
@[simp] theorem State.stackStore_same (a0 : State) (a1 : Nat) (a2 : List Byte) (a3 : Nat → Bool) :
    (State.stackStore a0 a1 a2 a3).pending = a0.pending ∧ (State.stackStore a0 a1 a2 a3).clk = a0.clk ∧
      (State.stackStore a0 a1 a2 a3).cores = a0.cores ∧ (State.stackStore a0 a1 a2 a3).net = a0.net ∧
      (State.stackStore a0 a1 a2 a3).vats = a0.vats ∧ (State.stackStore a0 a1 a2 a3).hub = a0.hub ∧ (State.stackStore a0 a1 a2 a3).span = a0.span ∧
      (State.stackStore a0 a1 a2 a3).host = a0.host ∧ (State.stackStore a0 a1 a2 a3).pwr = a0.pwr ∧ (State.stackStore a0 a1 a2 a3).boot = a0.boot ∧
      (State.stackStore a0 a1 a2 a3).out = a0.out ∧ (State.stackStore a0 a1 a2 a3).free = a0.free := by
  unfold State.stackStore; (repeat' split) <;> simp
@[simp] theorem State.captureWrite_same (a0 : State) (a1 : Nat) (a2 : Nat) (a3 : List Byte) (a4 : NSet) :
    (State.captureWrite a0 a1 a2 a3 a4).pending = a0.pending ∧ (State.captureWrite a0 a1 a2 a3 a4).clk = a0.clk ∧
      (State.captureWrite a0 a1 a2 a3 a4).cores = a0.cores ∧ (State.captureWrite a0 a1 a2 a3 a4).net = a0.net ∧
      (State.captureWrite a0 a1 a2 a3 a4).mem = a0.mem ∧ (State.captureWrite a0 a1 a2 a3 a4).hub = a0.hub ∧
      (State.captureWrite a0 a1 a2 a3 a4).host = a0.host ∧ (State.captureWrite a0 a1 a2 a3 a4).pwr = a0.pwr ∧
      (State.captureWrite a0 a1 a2 a3 a4).boot = a0.boot ∧ (State.captureWrite a0 a1 a2 a3 a4).out = a0.out ∧
      (State.captureWrite a0 a1 a2 a3 a4).free = a0.free := by
  unfold State.captureWrite; (repeat' split) <;> simp
@[simp] theorem State.detBreak_same (a0 : State) (a1 : Nat) (a2 : Nat) :
    (State.detBreak a0 a1 a2).pending = a0.pending ∧ (State.detBreak a0 a1 a2).clk = a0.clk ∧ (State.detBreak a0 a1 a2).cores = a0.cores ∧
      (State.detBreak a0 a1 a2).net = a0.net ∧ (State.detBreak a0 a1 a2).mem = a0.mem ∧ (State.detBreak a0 a1 a2).span = a0.span ∧
      (State.detBreak a0 a1 a2).host = a0.host ∧ (State.detBreak a0 a1 a2).boot = a0.boot ∧ (State.detBreak a0 a1 a2).free = a0.free := by
  unfold State.detBreak; (repeat' split) <;> simp
@[simp] theorem State.twinCapture_same (a0 : State) (a1 : Nat) (a2 : List Byte) (a3 : Nat → Bool) :
    (State.twinCapture a0 a1 a2 a3).pending = a0.pending ∧ (State.twinCapture a0 a1 a2 a3).clk = a0.clk ∧
      (State.twinCapture a0 a1 a2 a3).cores = a0.cores ∧ (State.twinCapture a0 a1 a2 a3).net = a0.net ∧
      (State.twinCapture a0 a1 a2 a3).mem = a0.mem ∧ (State.twinCapture a0 a1 a2 a3).host = a0.host ∧
      (State.twinCapture a0 a1 a2 a3).boot = a0.boot ∧ (State.twinCapture a0 a1 a2 a3).free = a0.free := by
  unfold State.twinCapture; (repeat' split) <;> simp
@[simp] theorem State.stackPut_same (a0 : State) (a1 : Nat) (a2 : List Byte) (a3 : Nat → Bool) :
    (State.stackPut a0 a1 a2 a3).pending = a0.pending ∧ (State.stackPut a0 a1 a2 a3).clk = a0.clk ∧ (State.stackPut a0 a1 a2 a3).cores = a0.cores ∧
      (State.stackPut a0 a1 a2 a3).net = a0.net ∧ (State.stackPut a0 a1 a2 a3).host = a0.host ∧ (State.stackPut a0 a1 a2 a3).boot = a0.boot ∧
      (State.stackPut a0 a1 a2 a3).free = a0.free := by
  unfold State.stackPut; (repeat' split) <;> simp
@[simp] theorem State.wmWrite_same (a0 : State) (a1 : Nat) (a2 : Nat) :
    (State.wmWrite a0 a1 a2).pending = a0.pending ∧ (State.wmWrite a0 a1 a2).clk = a0.clk ∧ (State.wmWrite a0 a1 a2).cores = a0.cores ∧
      (State.wmWrite a0 a1 a2).net = a0.net ∧ (State.wmWrite a0 a1 a2).host = a0.host ∧ (State.wmWrite a0 a1 a2).boot = a0.boot ∧
      (State.wmWrite a0 a1 a2).free = a0.free := by
  unfold State.wmWrite; (repeat' split) <;> simp
@[simp] theorem State.sheetOver_same (a0 : State) (a1 : Nat) (a2 : Nat) :
    (State.sheetOver a0 a1 a2).pending = a0.pending ∧ (State.sheetOver a0 a1 a2).clk = a0.clk ∧ (State.sheetOver a0 a1 a2).net = a0.net ∧
      (State.sheetOver a0 a1 a2).boot = a0.boot ∧ (State.sheetOver a0 a1 a2).free = a0.free := by
  unfold State.sheetOver; (repeat' split) <;> simp
@[simp] theorem State.drawFree_same (a0 : State) :
    (State.drawFree a0).2.pending = a0.pending ∧ (State.drawFree a0).2.clk = a0.clk ∧ (State.drawFree a0).2.cores = a0.cores ∧
      (State.drawFree a0).2.net = a0.net ∧ (State.drawFree a0).2.vats = a0.vats ∧ (State.drawFree a0).2.mem = a0.mem ∧
      (State.drawFree a0).2.hub = a0.hub ∧ (State.drawFree a0).2.span = a0.span ∧ (State.drawFree a0).2.host = a0.host ∧
      (State.drawFree a0).2.pwr = a0.pwr ∧ (State.drawFree a0).2.boot = a0.boot ∧ (State.drawFree a0).2.out = a0.out := by
  unfold State.drawFree; (repeat' split) <;> simp
@[simp] theorem State.issued_same (a0 : State) (a1 : Nat) (a2 : Nat) :
    (State.issued a0 a1 a2).2.pending = a0.pending ∧ (State.issued a0 a1 a2).2.clk = a0.clk ∧ (State.issued a0 a1 a2).2.cores = a0.cores ∧
      (State.issued a0 a1 a2).2.net = a0.net ∧ (State.issued a0 a1 a2).2.vats = a0.vats ∧ (State.issued a0 a1 a2).2.mem = a0.mem ∧
      (State.issued a0 a1 a2).2.hub = a0.hub ∧ (State.issued a0 a1 a2).2.span = a0.span ∧ (State.issued a0 a1 a2).2.host = a0.host ∧
      (State.issued a0 a1 a2).2.pwr = a0.pwr ∧ (State.issued a0 a1 a2).2.boot = a0.boot ∧ (State.issued a0 a1 a2).2.out = a0.out := by
  unfold State.issued; (repeat' split) <;> simp
@[simp] theorem State.accountCore_same (a0 : State) (a1 : Nat) (a2 : Nat) (a3 : Nat) :
    (State.accountCore a0 a1 a2 a3).pending = a0.pending ∧ (State.accountCore a0 a1 a2 a3).clk = a0.clk ∧
      (State.accountCore a0 a1 a2 a3).cores = a0.cores ∧ (State.accountCore a0 a1 a2 a3).net = a0.net ∧
      (State.accountCore a0 a1 a2 a3).mem = a0.mem ∧ (State.accountCore a0 a1 a2 a3).hub = a0.hub ∧
      (State.accountCore a0 a1 a2 a3).span = a0.span ∧ (State.accountCore a0 a1 a2 a3).host = a0.host ∧
      (State.accountCore a0 a1 a2 a3).pwr = a0.pwr ∧ (State.accountCore a0 a1 a2 a3).boot = a0.boot ∧
      (State.accountCore a0 a1 a2 a3).out = a0.out ∧ (State.accountCore a0 a1 a2 a3).free = a0.free := by
  unfold State.accountCore; (repeat' split) <;> simp
@[simp] theorem State.setSpad_same (a0 : State) (a1 : Nat) (a2 : Spad) :
    (State.setSpad a0 a1 a2).pending = a0.pending ∧ (State.setSpad a0 a1 a2).clk = a0.clk ∧ (State.setSpad a0 a1 a2).net = a0.net ∧
      (State.setSpad a0 a1 a2).vats = a0.vats ∧ (State.setSpad a0 a1 a2).mem = a0.mem ∧ (State.setSpad a0 a1 a2).hub = a0.hub ∧
      (State.setSpad a0 a1 a2).span = a0.span ∧ (State.setSpad a0 a1 a2).host = a0.host ∧ (State.setSpad a0 a1 a2).pwr = a0.pwr ∧
      (State.setSpad a0 a1 a2).boot = a0.boot ∧ (State.setSpad a0 a1 a2).out = a0.out ∧ (State.setSpad a0 a1 a2).free = a0.free := by
  unfold State.setSpad; (repeat' split) <;> simp
@[simp] theorem State.modSpad_same (a0 : State) (a1 : Nat) (a2 : Spad → Spad) :
    (State.modSpad a0 a1 a2).pending = a0.pending ∧ (State.modSpad a0 a1 a2).clk = a0.clk ∧ (State.modSpad a0 a1 a2).net = a0.net ∧
      (State.modSpad a0 a1 a2).vats = a0.vats ∧ (State.modSpad a0 a1 a2).mem = a0.mem ∧ (State.modSpad a0 a1 a2).hub = a0.hub ∧
      (State.modSpad a0 a1 a2).span = a0.span ∧ (State.modSpad a0 a1 a2).host = a0.host ∧ (State.modSpad a0 a1 a2).pwr = a0.pwr ∧
      (State.modSpad a0 a1 a2).boot = a0.boot ∧ (State.modSpad a0 a1 a2).out = a0.out ∧ (State.modSpad a0 a1 a2).free = a0.free := by
  unfold State.modSpad; (repeat' split) <;> simp
@[simp] theorem State.poisonOrigin_same (a0 : State) (a1 : Nat) (a2 : Nat) (a3 : Nat) :
    (State.poisonOrigin a0 a1 a2 a3).pending = a0.pending ∧ (State.poisonOrigin a0 a1 a2 a3).clk = a0.clk ∧
      (State.poisonOrigin a0 a1 a2 a3).cores = a0.cores ∧ (State.poisonOrigin a0 a1 a2 a3).net = a0.net ∧
      (State.poisonOrigin a0 a1 a2 a3).mem = a0.mem ∧ (State.poisonOrigin a0 a1 a2 a3).hub = a0.hub ∧
      (State.poisonOrigin a0 a1 a2 a3).span = a0.span ∧ (State.poisonOrigin a0 a1 a2 a3).host = a0.host ∧
      (State.poisonOrigin a0 a1 a2 a3).pwr = a0.pwr ∧ (State.poisonOrigin a0 a1 a2 a3).boot = a0.boot ∧
      (State.poisonOrigin a0 a1 a2 a3).out = a0.out ∧ (State.poisonOrigin a0 a1 a2 a3).free = a0.free := by
  unfold State.poisonOrigin; (repeat' split) <;> simp
@[simp] theorem State.setIrqCause_same (a0 : State) (a1 : Nat) (a2 : BitVec 6) :
    (State.setIrqCause a0 a1 a2).pending = a0.pending ∧ (State.setIrqCause a0 a1 a2).clk = a0.clk ∧ (State.setIrqCause a0 a1 a2).net = a0.net ∧
      (State.setIrqCause a0 a1 a2).vats = a0.vats ∧ (State.setIrqCause a0 a1 a2).mem = a0.mem ∧ (State.setIrqCause a0 a1 a2).hub = a0.hub ∧
      (State.setIrqCause a0 a1 a2).span = a0.span ∧ (State.setIrqCause a0 a1 a2).host = a0.host ∧ (State.setIrqCause a0 a1 a2).pwr = a0.pwr ∧
      (State.setIrqCause a0 a1 a2).boot = a0.boot ∧ (State.setIrqCause a0 a1 a2).out = a0.out ∧ (State.setIrqCause a0 a1 a2).free = a0.free := by
  unfold State.setIrqCause; (repeat' split) <;> simp
@[simp] theorem State.raiseCore_same (a0 : State) (a1 : Nat) (a2 : Nat) :
    (State.raiseCore a0 a1 a2).pending = a0.pending ∧ (State.raiseCore a0 a1 a2).clk = a0.clk ∧ (State.raiseCore a0 a1 a2).net = a0.net ∧
      (State.raiseCore a0 a1 a2).vats = a0.vats ∧ (State.raiseCore a0 a1 a2).mem = a0.mem ∧ (State.raiseCore a0 a1 a2).span = a0.span ∧
      (State.raiseCore a0 a1 a2).host = a0.host ∧ (State.raiseCore a0 a1 a2).boot = a0.boot ∧ (State.raiseCore a0 a1 a2).free = a0.free := by
  unfold State.raiseCore; dsimp only; (repeat' (split <;> try dsimp only)) <;> simp_all
@[simp] theorem State.sramError_same (a0 : State) (a1 : Nat) (a2 : Nat) (a3 : Nat) :
    (State.sramError a0 a1 a2 a3).pending = a0.pending ∧ (State.sramError a0 a1 a2 a3).clk = a0.clk ∧ (State.sramError a0 a1 a2 a3).net = a0.net ∧
      (State.sramError a0 a1 a2 a3).mem = a0.mem ∧ (State.sramError a0 a1 a2 a3).span = a0.span ∧ (State.sramError a0 a1 a2 a3).host = a0.host ∧
      (State.sramError a0 a1 a2 a3).boot = a0.boot ∧ (State.sramError a0 a1 a2 a3).free = a0.free := by
  unfold State.sramError; (repeat' split) <;> simp
@[simp] theorem State.noteWord_same (a0 : NSet) (a1 : NSet) (a2 : Nat) (a3 : Nat) (a4 : State) (a5 : Nat) :
    (State.noteWord a0 a1 a2 a3 a4 a5).pending = a4.pending ∧ (State.noteWord a0 a1 a2 a3 a4 a5).clk = a4.clk ∧
      (State.noteWord a0 a1 a2 a3 a4 a5).net = a4.net ∧ (State.noteWord a0 a1 a2 a3 a4 a5).mem = a4.mem ∧
      (State.noteWord a0 a1 a2 a3 a4 a5).span = a4.span ∧ (State.noteWord a0 a1 a2 a3 a4 a5).host = a4.host ∧
      (State.noteWord a0 a1 a2 a3 a4 a5).boot = a4.boot ∧ (State.noteWord a0 a1 a2 a3 a4 a5).free = a4.free := by
  unfold State.noteWord; (repeat' split) <;> simp
@[simp] theorem State.noteRead_same (a0 : State) (a1 : Nat) (a2 : Nat) (a3 : Nat) :
    (State.noteRead a0 a1 a2 a3).pending = a0.pending ∧ (State.noteRead a0 a1 a2 a3).clk = a0.clk ∧ (State.noteRead a0 a1 a2 a3).net = a0.net ∧
      (State.noteRead a0 a1 a2 a3).mem = a0.mem ∧ (State.noteRead a0 a1 a2 a3).span = a0.span ∧ (State.noteRead a0 a1 a2 a3).host = a0.host ∧
      (State.noteRead a0 a1 a2 a3).boot = a0.boot ∧ (State.noteRead a0 a1 a2 a3).free = a0.free := by
  unfold State.noteRead; (repeat' split) <;> simp
@[simp] theorem State.noteBytes_same (a0 : State) (a1 : Nat) (a2 : List Nat) :
    (State.noteBytes a0 a1 a2).pending = a0.pending ∧ (State.noteBytes a0 a1 a2).clk = a0.clk ∧ (State.noteBytes a0 a1 a2).net = a0.net ∧
      (State.noteBytes a0 a1 a2).mem = a0.mem ∧ (State.noteBytes a0 a1 a2).span = a0.span ∧ (State.noteBytes a0 a1 a2).host = a0.host ∧
      (State.noteBytes a0 a1 a2).boot = a0.boot ∧ (State.noteBytes a0 a1 a2).free = a0.free := by
  unfold State.noteBytes; (repeat' split) <;> simp
@[simp] theorem State.setArith_same (a0 : State) (a1 : Nat) (a2 : BitVec 8) :
    (State.setArith a0 a1 a2).pending = a0.pending ∧ (State.setArith a0 a1 a2).clk = a0.clk ∧ (State.setArith a0 a1 a2).net = a0.net ∧
      (State.setArith a0 a1 a2).vats = a0.vats ∧ (State.setArith a0 a1 a2).mem = a0.mem ∧ (State.setArith a0 a1 a2).hub = a0.hub ∧
      (State.setArith a0 a1 a2).span = a0.span ∧ (State.setArith a0 a1 a2).host = a0.host ∧ (State.setArith a0 a1 a2).pwr = a0.pwr ∧
      (State.setArith a0 a1 a2).boot = a0.boot ∧ (State.setArith a0 a1 a2).out = a0.out ∧ (State.setArith a0 a1 a2).free = a0.free := by
  unfold State.setArith; (repeat' split) <;> simp
@[simp] theorem State.modArith_same (a0 : State) (a1 : Nat) (a2 : BitVec 8 → BitVec 8) :
    (State.modArith a0 a1 a2).pending = a0.pending ∧ (State.modArith a0 a1 a2).clk = a0.clk ∧ (State.modArith a0 a1 a2).net = a0.net ∧
      (State.modArith a0 a1 a2).vats = a0.vats ∧ (State.modArith a0 a1 a2).mem = a0.mem ∧ (State.modArith a0 a1 a2).hub = a0.hub ∧
      (State.modArith a0 a1 a2).span = a0.span ∧ (State.modArith a0 a1 a2).host = a0.host ∧ (State.modArith a0 a1 a2).pwr = a0.pwr ∧
      (State.modArith a0 a1 a2).boot = a0.boot ∧ (State.modArith a0 a1 a2).out = a0.out ∧ (State.modArith a0 a1 a2).free = a0.free := by
  unfold State.modArith; (repeat' split) <;> simp
@[simp] theorem State.orArith_same (a0 : State) (a1 : Nat) (a2 : BitVec 8) :
    (State.orArith a0 a1 a2).pending = a0.pending ∧ (State.orArith a0 a1 a2).clk = a0.clk ∧ (State.orArith a0 a1 a2).net = a0.net ∧
      (State.orArith a0 a1 a2).vats = a0.vats ∧ (State.orArith a0 a1 a2).mem = a0.mem ∧ (State.orArith a0 a1 a2).hub = a0.hub ∧
      (State.orArith a0 a1 a2).span = a0.span ∧ (State.orArith a0 a1 a2).host = a0.host ∧ (State.orArith a0 a1 a2).pwr = a0.pwr ∧
      (State.orArith a0 a1 a2).boot = a0.boot ∧ (State.orArith a0 a1 a2).out = a0.out ∧ (State.orArith a0 a1 a2).free = a0.free := by
  unfold State.orArith; (repeat' split) <;> simp
@[simp] theorem State.storeElems_same (a0 : State) (a1 : Nat) (a2 : List ElemWrite) :
    (State.storeElems a0 a1 a2).pending = a0.pending ∧ (State.storeElems a0 a1 a2).clk = a0.clk ∧ (State.storeElems a0 a1 a2).net = a0.net ∧
      (State.storeElems a0 a1 a2).mem = a0.mem ∧ (State.storeElems a0 a1 a2).hub = a0.hub ∧ (State.storeElems a0 a1 a2).span = a0.span ∧
      (State.storeElems a0 a1 a2).host = a0.host ∧ (State.storeElems a0 a1 a2).pwr = a0.pwr ∧ (State.storeElems a0 a1 a2).boot = a0.boot ∧
      (State.storeElems a0 a1 a2).out = a0.out ∧ (State.storeElems a0 a1 a2).free = a0.free := by
  unfold State.storeElems; (repeat' split) <;> simp
/-- A store of elements changes the cores as the element writes do, and of a vat its output checksum only. -/
@[simp] theorem State.redWrite_same (a0 : State) (a1 : Nat) (a2 : Prod (List (Prod Nat MCell)) (Prod (List ElemWrite) (BitVec 8))) :
    (State.redWrite a0 a1 a2).pending = a0.pending ∧ (State.redWrite a0 a1 a2).clk = a0.clk ∧ (State.redWrite a0 a1 a2).net = a0.net ∧
      (State.redWrite a0 a1 a2).mem = a0.mem ∧ (State.redWrite a0 a1 a2).hub = a0.hub ∧ (State.redWrite a0 a1 a2).span = a0.span ∧
      (State.redWrite a0 a1 a2).host = a0.host ∧ (State.redWrite a0 a1 a2).pwr = a0.pwr ∧ (State.redWrite a0 a1 a2).boot = a0.boot ∧
      (State.redWrite a0 a1 a2).out = a0.out ∧ (State.redWrite a0 a1 a2).free = a0.free := by
  unfold State.redWrite; (repeat' split) <;> simp
@[simp] theorem State.reduceRun_same (a0 : State) (a1 : Nat) (a2 : Nat) (a3 : Nat) (a4 : Prod Nat Nat → Bool) :
    (State.reduceRun a0 a1 a2 a3 a4).pending = a0.pending ∧ (State.reduceRun a0 a1 a2 a3 a4).clk = a0.clk ∧
      (State.reduceRun a0 a1 a2 a3 a4).net = a0.net ∧ (State.reduceRun a0 a1 a2 a3 a4).mem = a0.mem ∧
      (State.reduceRun a0 a1 a2 a3 a4).span = a0.span ∧ (State.reduceRun a0 a1 a2 a3 a4).host = a0.host ∧
      (State.reduceRun a0 a1 a2 a3 a4).boot = a0.boot ∧ (State.reduceRun a0 a1 a2 a3 a4).free = a0.free := by
  unfold State.reduceRun; (repeat' split) <;> simp
@[simp] theorem State.settleRed_same (a0 : State) (a1 : Nat) :
    (State.settleRed a0 a1).pending = a0.pending ∧ (State.settleRed a0 a1).clk = a0.clk ∧ (State.settleRed a0 a1).net = a0.net ∧
      (State.settleRed a0 a1).mem = a0.mem ∧ (State.settleRed a0 a1).span = a0.span ∧ (State.settleRed a0 a1).host = a0.host ∧
      (State.settleRed a0 a1).boot = a0.boot := by
  unfold State.settleRed; (repeat' split) <;> simp
@[simp] theorem State.tloadRun_same (a0 : State) (a1 : Nat) (a2 : Nat) (a3 : Nat) (a4 : Nat) :
    (State.tloadRun a0 a1 a2 a3 a4).pending = a0.pending ∧ (State.tloadRun a0 a1 a2 a3 a4).clk = a0.clk ∧
      (State.tloadRun a0 a1 a2 a3 a4).net = a0.net ∧ (State.tloadRun a0 a1 a2 a3 a4).mem = a0.mem ∧
      (State.tloadRun a0 a1 a2 a3 a4).span = a0.span ∧ (State.tloadRun a0 a1 a2 a3 a4).host = a0.host ∧
      (State.tloadRun a0 a1 a2 a3 a4).boot = a0.boot ∧ (State.tloadRun a0 a1 a2 a3 a4).free = a0.free := by
  unfold State.tloadRun; (repeat' split) <;> simp
@[simp] theorem State.tstoreRun_same (a0 : State) (a1 : Nat) (a2 : Nat) (a3 : Nat) (a4 : Nat) :
    (State.tstoreRun a0 a1 a2 a3 a4).pending = a0.pending ∧ (State.tstoreRun a0 a1 a2 a3 a4).clk = a0.clk ∧
      (State.tstoreRun a0 a1 a2 a3 a4).net = a0.net ∧ (State.tstoreRun a0 a1 a2 a3 a4).mem = a0.mem ∧
      (State.tstoreRun a0 a1 a2 a3 a4).hub = a0.hub ∧ (State.tstoreRun a0 a1 a2 a3 a4).span = a0.span ∧
      (State.tstoreRun a0 a1 a2 a3 a4).host = a0.host ∧ (State.tstoreRun a0 a1 a2 a3 a4).pwr = a0.pwr ∧
      (State.tstoreRun a0 a1 a2 a3 a4).boot = a0.boot ∧ (State.tstoreRun a0 a1 a2 a3 a4).out = a0.out ∧
      (State.tstoreRun a0 a1 a2 a3 a4).free = a0.free := by
  unfold State.tstoreRun; (repeat' split) <;> simp
@[simp] theorem State.setAdv_same (a0 : State) (a1 : Nat) (a2 : AdvSlot) :
    (State.setAdv a0 a1 a2).pending = a0.pending ∧ (State.setAdv a0 a1 a2).clk = a0.clk ∧ (State.setAdv a0 a1 a2).cores = a0.cores ∧
      (State.setAdv a0 a1 a2).net = a0.net ∧ (State.setAdv a0 a1 a2).vats = a0.vats ∧ (State.setAdv a0 a1 a2).mem = a0.mem ∧
      (State.setAdv a0 a1 a2).span = a0.span ∧ (State.setAdv a0 a1 a2).host = a0.host ∧ (State.setAdv a0 a1 a2).pwr = a0.pwr ∧
      (State.setAdv a0 a1 a2).boot = a0.boot ∧ (State.setAdv a0 a1 a2).out = a0.out ∧ (State.setAdv a0 a1 a2).free = a0.free := by
  unfold State.setAdv; (repeat' split) <;> simp
@[simp] theorem State.modAdv_same (a0 : State) (a1 : Nat) (a2 : AdvSlot → AdvSlot) :
    (State.modAdv a0 a1 a2).pending = a0.pending ∧ (State.modAdv a0 a1 a2).clk = a0.clk ∧ (State.modAdv a0 a1 a2).cores = a0.cores ∧
      (State.modAdv a0 a1 a2).net = a0.net ∧ (State.modAdv a0 a1 a2).vats = a0.vats ∧ (State.modAdv a0 a1 a2).mem = a0.mem ∧
      (State.modAdv a0 a1 a2).span = a0.span ∧ (State.modAdv a0 a1 a2).host = a0.host ∧ (State.modAdv a0 a1 a2).pwr = a0.pwr ∧
      (State.modAdv a0 a1 a2).boot = a0.boot ∧ (State.modAdv a0 a1 a2).out = a0.out ∧ (State.modAdv a0 a1 a2).free = a0.free := by
  unfold State.modAdv; (repeat' split) <;> simp
@[simp] theorem State.tap_same (a0 : State) (a1 : Nat) (a2 : Nat) (a3 : List (Prod F32 Bool)) :
    (State.tap a0 a1 a2 a3).pending = a0.pending ∧ (State.tap a0 a1 a2 a3).clk = a0.clk ∧ (State.tap a0 a1 a2 a3).cores = a0.cores ∧
      (State.tap a0 a1 a2 a3).net = a0.net ∧ (State.tap a0 a1 a2 a3).mem = a0.mem ∧ (State.tap a0 a1 a2 a3).span = a0.span ∧
      (State.tap a0 a1 a2 a3).host = a0.host ∧ (State.tap a0 a1 a2 a3).pwr = a0.pwr ∧ (State.tap a0 a1 a2 a3).boot = a0.boot ∧
      (State.tap a0 a1 a2 a3).out = a0.out ∧ (State.tap a0 a1 a2 a3).free = a0.free := by
  unfold State.tap; (repeat' split) <;> simp
@[simp] theorem State.vchainRun_same (a0 : State) (a1 : Nat) (a2 : W256) (a3 : Nat) :
    (State.vchainRun a0 a1 a2 a3).pending = a0.pending ∧ (State.vchainRun a0 a1 a2 a3).clk = a0.clk ∧ (State.vchainRun a0 a1 a2 a3).net = a0.net ∧
      (State.vchainRun a0 a1 a2 a3).mem = a0.mem ∧ (State.vchainRun a0 a1 a2 a3).span = a0.span ∧ (State.vchainRun a0 a1 a2 a3).host = a0.host ∧
      (State.vchainRun a0 a1 a2 a3).boot = a0.boot ∧ (State.vchainRun a0 a1 a2 a3).free = a0.free := by
  unfold State.vchainRun; (repeat' split) <;> simp
@[simp] theorem State.settleVec_same (a0 : State) (a1 : Nat) :
    (State.settleVec a0 a1).pending = a0.pending ∧ (State.settleVec a0 a1).clk = a0.clk ∧ (State.settleVec a0 a1).net = a0.net ∧
      (State.settleVec a0 a1).mem = a0.mem ∧ (State.settleVec a0 a1).span = a0.span ∧ (State.settleVec a0 a1).host = a0.host ∧
      (State.settleVec a0 a1).boot = a0.boot := by
  unfold State.settleVec; (repeat' split) <;> simp
@[simp] theorem State.vecSettle_same (a0 : State) (a1 : Nat) :
    (State.vecSettle a0 a1).pending = a0.pending ∧ (State.vecSettle a0 a1).clk = a0.clk ∧ (State.vecSettle a0 a1).net = a0.net ∧
      (State.vecSettle a0 a1).mem = a0.mem ∧ (State.vecSettle a0 a1).span = a0.span ∧ (State.vecSettle a0 a1).host = a0.host ∧
      (State.vecSettle a0 a1).boot = a0.boot := by
  unfold State.vecSettle; (repeat' split) <;> simp
@[simp] theorem State.abortSheet_same (a0 : State) (a1 : Nat) :
    (State.abortSheet a0 a1).pending = a0.pending ∧ (State.abortSheet a0 a1).clk = a0.clk ∧ (State.abortSheet a0 a1).boot = a0.boot := by
  unfold State.abortSheet; (repeat' split) <;> simp
@[simp] theorem State.acceptStart_same (a0 : State) (a1 : Nat) (a2 : Option (Prod Nat Nat)) :
    (State.acceptStart a0 a1 a2).pending = a0.pending ∧ (State.acceptStart a0 a1 a2).clk = a0.clk ∧ (State.acceptStart a0 a1 a2).cores = a0.cores ∧
      (State.acceptStart a0 a1 a2).net = a0.net ∧ (State.acceptStart a0 a1 a2).mem = a0.mem ∧ (State.acceptStart a0 a1 a2).hub = a0.hub ∧
      (State.acceptStart a0 a1 a2).span = a0.span ∧ (State.acceptStart a0 a1 a2).host = a0.host ∧ (State.acceptStart a0 a1 a2).pwr = a0.pwr ∧
      (State.acceptStart a0 a1 a2).boot = a0.boot ∧ (State.acceptStart a0 a1 a2).out = a0.out ∧ (State.acceptStart a0 a1 a2).free = a0.free := by
  unfold State.acceptStart; (repeat' split) <;> simp
@[simp] theorem State.regRefuse_same (a0 : State) (a1 : Who) (a2 : Nat) (a3 : Nat) :
    (State.regRefuse a0 a1 a2 a3).pending = a0.pending ∧ (State.regRefuse a0 a1 a2 a3).clk = a0.clk ∧
      (State.regRefuse a0 a1 a2 a3).cores = a0.cores ∧ (State.regRefuse a0 a1 a2 a3).net = a0.net ∧ (State.regRefuse a0 a1 a2 a3).vats = a0.vats ∧
      (State.regRefuse a0 a1 a2 a3).mem = a0.mem ∧ (State.regRefuse a0 a1 a2 a3).span = a0.span ∧ (State.regRefuse a0 a1 a2 a3).host = a0.host ∧
      (State.regRefuse a0 a1 a2 a3).boot = a0.boot ∧ (State.regRefuse a0 a1 a2 a3).free = a0.free := by
  unfold State.regRefuse; (repeat' split) <;> simp
@[simp] theorem State.deny_same (a0 : State) (a1 : Who) (a2 : Nat) (a3 : Nat) :
    (State.deny a0 a1 a2 a3).1.pending = a0.pending ∧ (State.deny a0 a1 a2 a3).1.clk = a0.clk ∧ (State.deny a0 a1 a2 a3).1.cores = a0.cores ∧
      (State.deny a0 a1 a2 a3).1.net = a0.net ∧ (State.deny a0 a1 a2 a3).1.vats = a0.vats ∧ (State.deny a0 a1 a2 a3).1.mem = a0.mem ∧
      (State.deny a0 a1 a2 a3).1.span = a0.span ∧ (State.deny a0 a1 a2 a3).1.host = a0.host ∧ (State.deny a0 a1 a2 a3).1.boot = a0.boot ∧
      (State.deny a0 a1 a2 a3).1.free = a0.free := by
  unfold State.deny; (repeat' split) <;> simp
@[simp] theorem State.byHost_same_pending (a0 : State) (a1 : Who) (a2 : Nat) (a3 : Prod State Nat) (h3 : a3.1.pending = a0.pending) :
    (State.byHost a0 a1 a2 a3).1.pending = a0.pending := by
  unfold State.byHost; (repeat' split) <;> simp_all
@[simp] theorem State.byHost_same_clk (a0 : State) (a1 : Who) (a2 : Nat) (a3 : Prod State Nat) (h3 : a3.1.clk = a0.clk) :
    (State.byHost a0 a1 a2 a3).1.clk = a0.clk := by
  unfold State.byHost; (repeat' split) <;> simp_all
@[simp] theorem State.byHost_same_cores (a0 : State) (a1 : Who) (a2 : Nat) (a3 : Prod State Nat) (h3 : a3.1.cores = a0.cores) :
    (State.byHost a0 a1 a2 a3).1.cores = a0.cores := by
  unfold State.byHost; (repeat' split) <;> simp_all
@[simp] theorem State.byHost_same_net (a0 : State) (a1 : Who) (a2 : Nat) (a3 : Prod State Nat) (h3 : a3.1.net = a0.net) :
    (State.byHost a0 a1 a2 a3).1.net = a0.net := by
  unfold State.byHost; (repeat' split) <;> simp_all
@[simp] theorem State.byHost_same_vats (a0 : State) (a1 : Who) (a2 : Nat) (a3 : Prod State Nat) (h3 : a3.1.vats = a0.vats) :
    (State.byHost a0 a1 a2 a3).1.vats = a0.vats := by
  unfold State.byHost; (repeat' split) <;> simp_all
@[simp] theorem State.byHost_same_mem (a0 : State) (a1 : Who) (a2 : Nat) (a3 : Prod State Nat) (h3 : a3.1.mem = a0.mem) :
    (State.byHost a0 a1 a2 a3).1.mem = a0.mem := by
  unfold State.byHost; (repeat' split) <;> simp_all
@[simp] theorem State.byHost_same_span (a0 : State) (a1 : Who) (a2 : Nat) (a3 : Prod State Nat) (h3 : a3.1.span = a0.span) :
    (State.byHost a0 a1 a2 a3).1.span = a0.span := by
  unfold State.byHost; (repeat' split) <;> simp_all
@[simp] theorem State.byHost_same_host (a0 : State) (a1 : Who) (a2 : Nat) (a3 : Prod State Nat) (h3 : a3.1.host = a0.host) :
    (State.byHost a0 a1 a2 a3).1.host = a0.host := by
  unfold State.byHost; (repeat' split) <;> simp_all
@[simp] theorem State.byHost_same_boot (a0 : State) (a1 : Who) (a2 : Nat) (a3 : Prod State Nat) (h3 : a3.1.boot = a0.boot) :
    (State.byHost a0 a1 a2 a3).1.boot = a0.boot := by
  unfold State.byHost; (repeat' split) <;> simp_all
@[simp] theorem State.byHost_same_free (a0 : State) (a1 : Who) (a2 : Nat) (a3 : Prod State Nat) (h3 : a3.1.free = a0.free) :
    (State.byHost a0 a1 a2 a3).1.free = a0.free := by
  unfold State.byHost; (repeat' split) <;> simp_all
@[simp] theorem State.acctSet_same (a0 : State) (a1 : Who) (a2 : Nat) (a3 : DevAcct → DevAcct) :
    (State.acctSet a0 a1 a2 a3).1.pending = a0.pending ∧ (State.acctSet a0 a1 a2 a3).1.clk = a0.clk ∧
      (State.acctSet a0 a1 a2 a3).1.cores = a0.cores ∧ (State.acctSet a0 a1 a2 a3).1.net = a0.net ∧ (State.acctSet a0 a1 a2 a3).1.vats = a0.vats ∧
      (State.acctSet a0 a1 a2 a3).1.mem = a0.mem ∧ (State.acctSet a0 a1 a2 a3).1.span = a0.span ∧ (State.acctSet a0 a1 a2 a3).1.host = a0.host ∧
      (State.acctSet a0 a1 a2 a3).1.boot = a0.boot ∧ (State.acctSet a0 a1 a2 a3).1.free = a0.free := by
  unfold State.acctSet; (repeat' split) <;> simp
@[simp] theorem State.onlyIf_same_pending (a0 : State) (a1 : Who) (a2 : Nat) (a3 : Bool) (a4 : Nat) (a5 : Prod State Nat)
      (h5 : a5.1.pending = a0.pending) :
    (State.onlyIf a0 a1 a2 a3 a4 a5).1.pending = a0.pending := by
  unfold State.onlyIf; (repeat' split) <;> simp_all
@[simp] theorem State.onlyIf_same_clk (a0 : State) (a1 : Who) (a2 : Nat) (a3 : Bool) (a4 : Nat) (a5 : Prod State Nat) (h5 : a5.1.clk = a0.clk) :
    (State.onlyIf a0 a1 a2 a3 a4 a5).1.clk = a0.clk := by
  unfold State.onlyIf; (repeat' split) <;> simp_all
@[simp] theorem State.onlyIf_same_cores (a0 : State) (a1 : Who) (a2 : Nat) (a3 : Bool) (a4 : Nat) (a5 : Prod State Nat)
      (h5 : a5.1.cores = a0.cores) :
    (State.onlyIf a0 a1 a2 a3 a4 a5).1.cores = a0.cores := by
  unfold State.onlyIf; (repeat' split) <;> simp_all
@[simp] theorem State.onlyIf_same_net (a0 : State) (a1 : Who) (a2 : Nat) (a3 : Bool) (a4 : Nat) (a5 : Prod State Nat) (h5 : a5.1.net = a0.net) :
    (State.onlyIf a0 a1 a2 a3 a4 a5).1.net = a0.net := by
  unfold State.onlyIf; (repeat' split) <;> simp_all
@[simp] theorem State.onlyIf_same_vats (a0 : State) (a1 : Who) (a2 : Nat) (a3 : Bool) (a4 : Nat) (a5 : Prod State Nat) (h5 : a5.1.vats = a0.vats) :
    (State.onlyIf a0 a1 a2 a3 a4 a5).1.vats = a0.vats := by
  unfold State.onlyIf; (repeat' split) <;> simp_all
@[simp] theorem State.onlyIf_same_mem (a0 : State) (a1 : Who) (a2 : Nat) (a3 : Bool) (a4 : Nat) (a5 : Prod State Nat) (h5 : a5.1.mem = a0.mem) :
    (State.onlyIf a0 a1 a2 a3 a4 a5).1.mem = a0.mem := by
  unfold State.onlyIf; (repeat' split) <;> simp_all
@[simp] theorem State.onlyIf_same_span (a0 : State) (a1 : Who) (a2 : Nat) (a3 : Bool) (a4 : Nat) (a5 : Prod State Nat) (h5 : a5.1.span = a0.span) :
    (State.onlyIf a0 a1 a2 a3 a4 a5).1.span = a0.span := by
  unfold State.onlyIf; (repeat' split) <;> simp_all
@[simp] theorem State.onlyIf_same_host (a0 : State) (a1 : Who) (a2 : Nat) (a3 : Bool) (a4 : Nat) (a5 : Prod State Nat) (h5 : a5.1.host = a0.host) :
    (State.onlyIf a0 a1 a2 a3 a4 a5).1.host = a0.host := by
  unfold State.onlyIf; (repeat' split) <;> simp_all
@[simp] theorem State.onlyIf_same_boot (a0 : State) (a1 : Who) (a2 : Nat) (a3 : Bool) (a4 : Nat) (a5 : Prod State Nat) (h5 : a5.1.boot = a0.boot) :
    (State.onlyIf a0 a1 a2 a3 a4 a5).1.boot = a0.boot := by
  unfold State.onlyIf; (repeat' split) <;> simp_all
@[simp] theorem State.onlyIf_same_free (a0 : State) (a1 : Who) (a2 : Nat) (a3 : Bool) (a4 : Nat) (a5 : Prod State Nat) (h5 : a5.1.free = a0.free) :
    (State.onlyIf a0 a1 a2 a3 a4 a5).1.free = a0.free := by
  unfold State.onlyIf; (repeat' split) <;> simp_all
@[simp] theorem State.acctCtl_same (a0 : State) (a1 : Who) (a2 : Nat) (a3 : Nat) :
    (State.acctCtl a0 a1 a2 a3).1.pending = a0.pending ∧ (State.acctCtl a0 a1 a2 a3).1.clk = a0.clk ∧
      (State.acctCtl a0 a1 a2 a3).1.cores = a0.cores ∧ (State.acctCtl a0 a1 a2 a3).1.net = a0.net ∧ (State.acctCtl a0 a1 a2 a3).1.vats = a0.vats ∧
      (State.acctCtl a0 a1 a2 a3).1.mem = a0.mem ∧ (State.acctCtl a0 a1 a2 a3).1.span = a0.span ∧ (State.acctCtl a0 a1 a2 a3).1.host = a0.host ∧
      (State.acctCtl a0 a1 a2 a3).1.boot = a0.boot ∧ (State.acctCtl a0 a1 a2 a3).1.free = a0.free := by
  unfold State.acctCtl; (repeat' split) <;> simp (maxDischargeDepth := 12)
@[simp] theorem State.shareSet_same_pending (a0 : State) (a1 : Who) (a2 : Nat) (a3 : Bool) (a4 : State) (h4 : a4.pending = a0.pending) :
    (State.shareSet a0 a1 a2 a3 a4).1.pending = a0.pending := by
  unfold State.shareSet; simp_all (maxDischargeDepth := 9)
@[simp] theorem State.shareSet_same_clk (a0 : State) (a1 : Who) (a2 : Nat) (a3 : Bool) (a4 : State) (h4 : a4.clk = a0.clk) :
    (State.shareSet a0 a1 a2 a3 a4).1.clk = a0.clk := by
  unfold State.shareSet; simp_all (maxDischargeDepth := 9)
@[simp] theorem State.shareSet_same_cores (a0 : State) (a1 : Who) (a2 : Nat) (a3 : Bool) (a4 : State) (h4 : a4.cores = a0.cores) :
    (State.shareSet a0 a1 a2 a3 a4).1.cores = a0.cores := by
  unfold State.shareSet; simp_all (maxDischargeDepth := 9)
@[simp] theorem State.shareSet_same_net (a0 : State) (a1 : Who) (a2 : Nat) (a3 : Bool) (a4 : State) (h4 : a4.net = a0.net) :
    (State.shareSet a0 a1 a2 a3 a4).1.net = a0.net := by
  unfold State.shareSet; simp_all (maxDischargeDepth := 9)
@[simp] theorem State.shareSet_same_vats (a0 : State) (a1 : Who) (a2 : Nat) (a3 : Bool) (a4 : State) (h4 : a4.vats = a0.vats) :
    (State.shareSet a0 a1 a2 a3 a4).1.vats = a0.vats := by
  unfold State.shareSet; simp_all (maxDischargeDepth := 9)
@[simp] theorem State.shareSet_same_mem (a0 : State) (a1 : Who) (a2 : Nat) (a3 : Bool) (a4 : State) (h4 : a4.mem = a0.mem) :
    (State.shareSet a0 a1 a2 a3 a4).1.mem = a0.mem := by
  unfold State.shareSet; simp_all (maxDischargeDepth := 9)
@[simp] theorem State.shareSet_same_span (a0 : State) (a1 : Who) (a2 : Nat) (a3 : Bool) (a4 : State) (h4 : a4.span = a0.span) :
    (State.shareSet a0 a1 a2 a3 a4).1.span = a0.span := by
  unfold State.shareSet; simp_all (maxDischargeDepth := 9)
@[simp] theorem State.shareSet_same_host (a0 : State) (a1 : Who) (a2 : Nat) (a3 : Bool) (a4 : State) (h4 : a4.host = a0.host) :
    (State.shareSet a0 a1 a2 a3 a4).1.host = a0.host := by
  unfold State.shareSet; simp_all (maxDischargeDepth := 9)
@[simp] theorem State.shareSet_same_boot (a0 : State) (a1 : Who) (a2 : Nat) (a3 : Bool) (a4 : State) (h4 : a4.boot = a0.boot) :
    (State.shareSet a0 a1 a2 a3 a4).1.boot = a0.boot := by
  unfold State.shareSet; simp_all (maxDischargeDepth := 9)
@[simp] theorem State.shareSet_same_free (a0 : State) (a1 : Who) (a2 : Nat) (a3 : Bool) (a4 : State) (h4 : a4.free = a0.free) :
    (State.shareSet a0 a1 a2 a3 a4).1.free = a0.free := by
  unfold State.shareSet; simp_all (maxDischargeDepth := 9)
@[simp] theorem State.acctWrite_same (a0 : State) (a1 : Nat) (a2 : Nat) (a3 : W64) :
    (State.acctWrite a0 a1 a2 a3).pending = a0.pending ∧ (State.acctWrite a0 a1 a2 a3).clk = a0.clk ∧
      (State.acctWrite a0 a1 a2 a3).cores = a0.cores ∧ (State.acctWrite a0 a1 a2 a3).net = a0.net ∧ (State.acctWrite a0 a1 a2 a3).host = a0.host ∧
      (State.acctWrite a0 a1 a2 a3).boot = a0.boot ∧ (State.acctWrite a0 a1 a2 a3).free = a0.free := by
  unfold State.acctWrite; (repeat' split) <;> simp
@[simp] theorem State.setCtr_same (a0 : State) (a1 : Nat) (a2 : Nat) :
    (State.setCtr a0 a1 a2).pending = a0.pending ∧ (State.setCtr a0 a1 a2).clk = a0.clk ∧ (State.setCtr a0 a1 a2).cores = a0.cores ∧
      (State.setCtr a0 a1 a2).vats = a0.vats ∧ (State.setCtr a0 a1 a2).mem = a0.mem ∧ (State.setCtr a0 a1 a2).hub = a0.hub ∧
      (State.setCtr a0 a1 a2).span = a0.span ∧ (State.setCtr a0 a1 a2).host = a0.host ∧ (State.setCtr a0 a1 a2).pwr = a0.pwr ∧
      (State.setCtr a0 a1 a2).boot = a0.boot ∧ (State.setCtr a0 a1 a2).out = a0.out ∧ (State.setCtr a0 a1 a2).free = a0.free := by
  unfold State.setCtr; (repeat' split) <;> simp
@[simp] theorem State.syncErr_same (a0 : State) (a1 : Nat) (a2 : Bool) :
    (State.syncErr a0 a1 a2).pending = a0.pending ∧ (State.syncErr a0 a1 a2).clk = a0.clk ∧ (State.syncErr a0 a1 a2).cores = a0.cores ∧
      (State.syncErr a0 a1 a2).vats = a0.vats ∧ (State.syncErr a0 a1 a2).mem = a0.mem ∧ (State.syncErr a0 a1 a2).span = a0.span ∧
      (State.syncErr a0 a1 a2).host = a0.host ∧ (State.syncErr a0 a1 a2).boot = a0.boot ∧ (State.syncErr a0 a1 a2).free = a0.free := by
  unfold State.syncErr; (repeat' split) <;> simp
@[simp] theorem State.addCtr_same (a0 : State) (a1 : Nat) (a2 : Nat) :
    (State.addCtr a0 a1 a2).pending = a0.pending ∧ (State.addCtr a0 a1 a2).clk = a0.clk ∧ (State.addCtr a0 a1 a2).cores = a0.cores ∧
      (State.addCtr a0 a1 a2).vats = a0.vats ∧ (State.addCtr a0 a1 a2).mem = a0.mem ∧ (State.addCtr a0 a1 a2).span = a0.span ∧
      (State.addCtr a0 a1 a2).host = a0.host ∧ (State.addCtr a0 a1 a2).boot = a0.boot ∧ (State.addCtr a0 a1 a2).free = a0.free := by
  unfold State.addCtr; (repeat' split) <;> simp
@[simp] theorem State.modQueue_same (a0 : State) (a1 : Nat) (a2 : Nat) (a3 : EngQ → EngQ) :
    (State.modQueue a0 a1 a2 a3).pending = a0.pending ∧ (State.modQueue a0 a1 a2 a3).clk = a0.clk ∧ (State.modQueue a0 a1 a2 a3).net = a0.net ∧
      (State.modQueue a0 a1 a2 a3).vats = a0.vats ∧ (State.modQueue a0 a1 a2 a3).mem = a0.mem ∧ (State.modQueue a0 a1 a2 a3).hub = a0.hub ∧
      (State.modQueue a0 a1 a2 a3).span = a0.span ∧ (State.modQueue a0 a1 a2 a3).host = a0.host ∧ (State.modQueue a0 a1 a2 a3).pwr = a0.pwr ∧
      (State.modQueue a0 a1 a2 a3).boot = a0.boot ∧ (State.modQueue a0 a1 a2 a3).out = a0.out ∧ (State.modQueue a0 a1 a2 a3).free = a0.free := by
  unfold State.modQueue; (repeat' split) <;> simp
@[simp] theorem State.setTrace_same (a0 : State) (a1 : Nat) (a2 : Trace) :
    (State.setTrace a0 a1 a2).pending = a0.pending ∧ (State.setTrace a0 a1 a2).clk = a0.clk ∧ (State.setTrace a0 a1 a2).cores = a0.cores ∧
      (State.setTrace a0 a1 a2).vats = a0.vats ∧ (State.setTrace a0 a1 a2).mem = a0.mem ∧ (State.setTrace a0 a1 a2).hub = a0.hub ∧
      (State.setTrace a0 a1 a2).span = a0.span ∧ (State.setTrace a0 a1 a2).host = a0.host ∧ (State.setTrace a0 a1 a2).pwr = a0.pwr ∧
      (State.setTrace a0 a1 a2).boot = a0.boot ∧ (State.setTrace a0 a1 a2).out = a0.out ∧ (State.setTrace a0 a1 a2).free = a0.free := by
  unfold State.setTrace; (repeat' split) <;> simp

end Sys2Proof.Machine
end

