-- ==== Sys2Proof/Laws/Frame2.lean ====
section
/-! SUPPORT. What each shared operation leaves as it is, part 2: the fields of State that it never changes. -/

namespace Sys2Proof.Machine

@[simp] theorem State.modTrace_same (a0 : State) (a1 : Nat) (a2 : Trace → Trace) :
    (State.modTrace a0 a1 a2).pending = a0.pending ∧ (State.modTrace a0 a1 a2).clk = a0.clk ∧ (State.modTrace a0 a1 a2).cores = a0.cores ∧
      (State.modTrace a0 a1 a2).vats = a0.vats ∧ (State.modTrace a0 a1 a2).mem = a0.mem ∧ (State.modTrace a0 a1 a2).hub = a0.hub ∧
      (State.modTrace a0 a1 a2).span = a0.span ∧ (State.modTrace a0 a1 a2).host = a0.host ∧ (State.modTrace a0 a1 a2).pwr = a0.pwr ∧
      (State.modTrace a0 a1 a2).boot = a0.boot ∧ (State.modTrace a0 a1 a2).out = a0.out ∧ (State.modTrace a0 a1 a2).free = a0.free := by
  unfold State.modTrace; (repeat' split) <;> simp
@[simp] theorem State.haltCore_same (a0 : State) (a1 : Nat) (a2 : BitVec 8) :
    (State.haltCore a0 a1 a2).pending = a0.pending ∧ (State.haltCore a0 a1 a2).clk = a0.clk ∧ (State.haltCore a0 a1 a2).vats = a0.vats ∧
      (State.haltCore a0 a1 a2).mem = a0.mem ∧ (State.haltCore a0 a1 a2).span = a0.span ∧ (State.haltCore a0 a1 a2).host = a0.host ∧
      (State.haltCore a0 a1 a2).boot = a0.boot ∧ (State.haltCore a0 a1 a2).free = a0.free := by
  unfold State.haltCore; (repeat' split) <;> simp
@[simp] theorem State.stepOver_same (a0 : State) (a1 : Nat) :
    (State.stepOver a0 a1).pending = a0.pending ∧ (State.stepOver a0 a1).clk = a0.clk ∧ (State.stepOver a0 a1).vats = a0.vats ∧
      (State.stepOver a0 a1).mem = a0.mem ∧ (State.stepOver a0 a1).span = a0.span ∧ (State.stepOver a0 a1).host = a0.host ∧
      (State.stepOver a0 a1).boot = a0.boot ∧ (State.stepOver a0 a1).free = a0.free := by
  unfold State.stepOver; (repeat' split) <;> simp
@[simp] theorem State.traceRec_same (a0 : State) (a1 : Nat) (a2 : Nat) (a3 : Nat) (a4 : Nat) (a5 : Nat) (a6 : Nat) :
    (State.traceRec a0 a1 a2 a3 a4 a5 a6).pending = a0.pending ∧ (State.traceRec a0 a1 a2 a3 a4 a5 a6).clk = a0.clk ∧
      (State.traceRec a0 a1 a2 a3 a4 a5 a6).cores = a0.cores ∧ (State.traceRec a0 a1 a2 a3 a4 a5 a6).vats = a0.vats ∧
      (State.traceRec a0 a1 a2 a3 a4 a5 a6).mem = a0.mem ∧ (State.traceRec a0 a1 a2 a3 a4 a5 a6).hub = a0.hub ∧
      (State.traceRec a0 a1 a2 a3 a4 a5 a6).span = a0.span ∧ (State.traceRec a0 a1 a2 a3 a4 a5 a6).host = a0.host ∧
      (State.traceRec a0 a1 a2 a3 a4 a5 a6).pwr = a0.pwr ∧ (State.traceRec a0 a1 a2 a3 a4 a5 a6).boot = a0.boot ∧
      (State.traceRec a0 a1 a2 a3 a4 a5 a6).out = a0.out ∧ (State.traceRec a0 a1 a2 a3 a4 a5 a6).free = a0.free := by
  unfold State.traceRec; (repeat' split) <;> simp
@[simp] theorem State.release_same (a0 : State) (a1 : Watch) :
    (State.release a0 a1).pending = a0.pending ∧ (State.release a0 a1).clk = a0.clk ∧ (State.release a0 a1).vats = a0.vats ∧
      (State.release a0 a1).mem = a0.mem ∧ (State.release a0 a1).span = a0.span ∧ (State.release a0 a1).host = a0.host ∧
      (State.release a0 a1).boot = a0.boot ∧ (State.release a0 a1).free = a0.free := by
  unfold State.release; (repeat' split) <;> simp
@[simp] theorem State.testWatch_same (a0 : State) (a1 : Watch) :
    (State.testWatch a0 a1).pending = a0.pending ∧ (State.testWatch a0 a1).clk = a0.clk ∧ (State.testWatch a0 a1).vats = a0.vats ∧
      (State.testWatch a0 a1).mem = a0.mem ∧ (State.testWatch a0 a1).span = a0.span ∧ (State.testWatch a0 a1).host = a0.host ∧
      (State.testWatch a0 a1).boot = a0.boot ∧ (State.testWatch a0 a1).free = a0.free := by
  unfold State.testWatch; (repeat' split) <;> simp
@[simp] theorem State.watchPass_same (a0 : State) (a1 : Nat) :
    (State.watchPass a0 a1).pending = a0.pending ∧ (State.watchPass a0 a1).clk = a0.clk ∧ (State.watchPass a0 a1).vats = a0.vats ∧
      (State.watchPass a0 a1).mem = a0.mem ∧ (State.watchPass a0 a1).span = a0.span ∧ (State.watchPass a0 a1).host = a0.host ∧
      (State.watchPass a0 a1).boot = a0.boot ∧ (State.watchPass a0 a1).free = a0.free := by
  unfold State.watchPass; (repeat' split) <;> simp
@[simp] theorem State.watchLoop_same (a0 : Nat) (a1 : State) (a2 : Nat) :
    (State.watchLoop a0 a1 a2).pending = a1.pending ∧ (State.watchLoop a0 a1 a2).clk = a1.clk ∧ (State.watchLoop a0 a1 a2).vats = a1.vats ∧
      (State.watchLoop a0 a1 a2).mem = a1.mem ∧ (State.watchLoop a0 a1 a2).span = a1.span ∧ (State.watchLoop a0 a1 a2).host = a1.host ∧
      (State.watchLoop a0 a1 a2).boot = a1.boot ∧ (State.watchLoop a0 a1 a2).free = a1.free := by
  induction a0 generalizing a1 with
  | zero => simp [State.watchLoop]
  | succ n ih => unfold State.watchLoop; dsimp only; split <;> simp_all
@[simp] theorem State.testWatches_same (a0 : State) (a1 : Nat) :
    (State.testWatches a0 a1).pending = a0.pending ∧ (State.testWatches a0 a1).clk = a0.clk ∧ (State.testWatches a0 a1).vats = a0.vats ∧
      (State.testWatches a0 a1).mem = a0.mem ∧ (State.testWatches a0 a1).span = a0.span ∧ (State.testWatches a0 a1).host = a0.host ∧
      (State.testWatches a0 a1).boot = a0.boot ∧ (State.testWatches a0 a1).free = a0.free := by
  unfold State.testWatches; (repeat' split) <;> simp
@[simp] theorem State.addOutside_same (a0 : State) (a1 : Nat) (a2 : Nat) :
    (State.addOutside a0 a1 a2).1.pending = a0.pending ∧ (State.addOutside a0 a1 a2).1.clk = a0.clk ∧ (State.addOutside a0 a1 a2).1.mem = a0.mem ∧
      (State.addOutside a0 a1 a2).1.span = a0.span ∧ (State.addOutside a0 a1 a2).1.host = a0.host ∧ (State.addOutside a0 a1 a2).1.boot = a0.boot ∧
      (State.addOutside a0 a1 a2).1.free = a0.free := by
  unfold State.addOutside; (repeat' split) <;> simp
@[simp] theorem State.addFrom_same (a0 : State) (a1 : Nat) (a2 : Nat) (a3 : Nat) :
    (State.addFrom a0 a1 a2 a3).pending = a0.pending ∧ (State.addFrom a0 a1 a2 a3).clk = a0.clk ∧ (State.addFrom a0 a1 a2 a3).mem = a0.mem ∧
      (State.addFrom a0 a1 a2 a3).span = a0.span ∧ (State.addFrom a0 a1 a2 a3).host = a0.host ∧ (State.addFrom a0 a1 a2 a3).boot = a0.boot ∧
      (State.addFrom a0 a1 a2 a3).free = a0.free := by
  unfold State.addFrom; (repeat' split) <;> simp
@[simp] theorem State.advChanged_same (a0 : State) (a1 : AdvSlot) (a2 : Nat) :
    (State.advChanged a0 a1 a2).2.pending = a0.pending ∧ (State.advChanged a0 a1 a2).2.clk = a0.clk ∧
      (State.advChanged a0 a1 a2).2.cores = a0.cores ∧ (State.advChanged a0 a1 a2).2.net = a0.net ∧ (State.advChanged a0 a1 a2).2.vats = a0.vats ∧
      (State.advChanged a0 a1 a2).2.mem = a0.mem ∧ (State.advChanged a0 a1 a2).2.hub = a0.hub ∧ (State.advChanged a0 a1 a2).2.span = a0.span ∧
      (State.advChanged a0 a1 a2).2.host = a0.host ∧ (State.advChanged a0 a1 a2).2.pwr = a0.pwr ∧ (State.advChanged a0 a1 a2).2.boot = a0.boot ∧
      (State.advChanged a0 a1 a2).2.out = a0.out := by
  unfold State.advChanged; (repeat' split) <;> simp
@[simp] theorem State.advPrev_same (a0 : State) (a1 : AdvSlot) :
    (State.advPrev a0 a1).2.pending = a0.pending ∧ (State.advPrev a0 a1).2.clk = a0.clk ∧ (State.advPrev a0 a1).2.cores = a0.cores ∧
      (State.advPrev a0 a1).2.net = a0.net ∧ (State.advPrev a0 a1).2.vats = a0.vats ∧ (State.advPrev a0 a1).2.mem = a0.mem ∧
      (State.advPrev a0 a1).2.hub = a0.hub ∧ (State.advPrev a0 a1).2.span = a0.span ∧ (State.advPrev a0 a1).2.host = a0.host ∧
      (State.advPrev a0 a1).2.pwr = a0.pwr ∧ (State.advPrev a0 a1).2.boot = a0.boot ∧ (State.advPrev a0 a1).2.out = a0.out := by
  unfold State.advPrev; (repeat' split) <;> simp
@[simp] theorem State.advUneval_same (a0 : State) :
    (State.advUneval a0).2.pending = a0.pending ∧ (State.advUneval a0).2.clk = a0.clk ∧ (State.advUneval a0).2.cores = a0.cores ∧
      (State.advUneval a0).2.net = a0.net ∧ (State.advUneval a0).2.vats = a0.vats ∧ (State.advUneval a0).2.mem = a0.mem ∧
      (State.advUneval a0).2.hub = a0.hub ∧ (State.advUneval a0).2.span = a0.span ∧ (State.advUneval a0).2.host = a0.host ∧
      (State.advUneval a0).2.pwr = a0.pwr ∧ (State.advUneval a0).2.boot = a0.boot ∧ (State.advUneval a0).2.out = a0.out := by
  unfold State.advUneval; (repeat' split) <;> simp
@[simp] theorem State.advDisabled_same (a0 : State) (a1 : AdvSlot) (a2 : Nat) :
    (State.advDisabled a0 a1 a2).2.pending = a0.pending ∧ (State.advDisabled a0 a1 a2).2.clk = a0.clk ∧
      (State.advDisabled a0 a1 a2).2.cores = a0.cores ∧ (State.advDisabled a0 a1 a2).2.net = a0.net ∧
      (State.advDisabled a0 a1 a2).2.vats = a0.vats ∧ (State.advDisabled a0 a1 a2).2.mem = a0.mem ∧ (State.advDisabled a0 a1 a2).2.hub = a0.hub ∧
      (State.advDisabled a0 a1 a2).2.span = a0.span ∧ (State.advDisabled a0 a1 a2).2.host = a0.host ∧ (State.advDisabled a0 a1 a2).2.pwr = a0.pwr ∧
      (State.advDisabled a0 a1 a2).2.boot = a0.boot ∧ (State.advDisabled a0 a1 a2).2.out = a0.out := by
  have h : (State.advDisabled a0 a1 a2).2 = if bit a1.facts 20 then (a0.advPrev a1).2 else a0.advUneval.2.drawFree.2 := by
    unfold State.advDisabled; exact apply_ite Prod.snd _ _ _
  rw [h]; split <;> simp only [State.advPrev_same, State.drawFree_same, State.advUneval_same, and_self]
@[simp] theorem State.advEvaluated_same (a0 : State) (a1 : AdvSlot) (a2 : Nat) (a3 : Prod Nat Nat) (a4 : AdvEval) (a5 : Nat) :
    (State.advEvaluated a0 a1 a2 a3 a4 a5).2.2.pending = a0.pending ∧ (State.advEvaluated a0 a1 a2 a3 a4 a5).2.2.clk = a0.clk ∧
      (State.advEvaluated a0 a1 a2 a3 a4 a5).2.2.cores = a0.cores ∧ (State.advEvaluated a0 a1 a2 a3 a4 a5).2.2.net = a0.net ∧
      (State.advEvaluated a0 a1 a2 a3 a4 a5).2.2.vats = a0.vats ∧ (State.advEvaluated a0 a1 a2 a3 a4 a5).2.2.mem = a0.mem ∧
      (State.advEvaluated a0 a1 a2 a3 a4 a5).2.2.hub = a0.hub ∧ (State.advEvaluated a0 a1 a2 a3 a4 a5).2.2.span = a0.span ∧
      (State.advEvaluated a0 a1 a2 a3 a4 a5).2.2.host = a0.host ∧ (State.advEvaluated a0 a1 a2 a3 a4 a5).2.2.pwr = a0.pwr ∧
      (State.advEvaluated a0 a1 a2 a3 a4 a5).2.2.boot = a0.boot ∧ (State.advEvaluated a0 a1 a2 a3 a4 a5).2.2.out = a0.out := by
  have h := State.advChanged_same a0 a1 (polCand a2 a3.1)
  unfold State.advEvaluated
  generalize State.advChanged a0 a1 (polCand a2 a3.1) = q at h ⊢
  obtain ⟨a, b⟩ := q
  exact h
@[simp] theorem State.advMalformed_same (a0 : State) (a1 : AdvSlot) (a2 : Nat) :
    (State.advMalformed a0 a1 a2).2.pending = a0.pending ∧ (State.advMalformed a0 a1 a2).2.clk = a0.clk ∧
      (State.advMalformed a0 a1 a2).2.cores = a0.cores ∧ (State.advMalformed a0 a1 a2).2.net = a0.net ∧
      (State.advMalformed a0 a1 a2).2.vats = a0.vats ∧ (State.advMalformed a0 a1 a2).2.mem = a0.mem ∧
      (State.advMalformed a0 a1 a2).2.hub = a0.hub ∧ (State.advMalformed a0 a1 a2).2.span = a0.span ∧
      (State.advMalformed a0 a1 a2).2.host = a0.host ∧ (State.advMalformed a0 a1 a2).2.pwr = a0.pwr ∧
      (State.advMalformed a0 a1 a2).2.boot = a0.boot ∧ (State.advMalformed a0 a1 a2).2.out = a0.out := by
  unfold State.advMalformed; (repeat' split) <;> simp
@[simp] theorem State.advVerdict_same (a0 : State) (a1 : AdvSlot) (a2 : Nat) (a3 : Nat) :
    (State.advVerdict a0 a1 a2 a3).2.2.pending = a0.pending ∧ (State.advVerdict a0 a1 a2 a3).2.2.clk = a0.clk ∧
      (State.advVerdict a0 a1 a2 a3).2.2.cores = a0.cores ∧ (State.advVerdict a0 a1 a2 a3).2.2.net = a0.net ∧
      (State.advVerdict a0 a1 a2 a3).2.2.vats = a0.vats ∧ (State.advVerdict a0 a1 a2 a3).2.2.mem = a0.mem ∧
      (State.advVerdict a0 a1 a2 a3).2.2.hub = a0.hub ∧ (State.advVerdict a0 a1 a2 a3).2.2.span = a0.span ∧
      (State.advVerdict a0 a1 a2 a3).2.2.host = a0.host ∧ (State.advVerdict a0 a1 a2 a3).2.2.pwr = a0.pwr ∧
      (State.advVerdict a0 a1 a2 a3).2.2.boot = a0.boot ∧ (State.advVerdict a0 a1 a2 a3).2.2.out = a0.out := by
  unfold State.advVerdict; simp only [State.fst_ite, State.snd_ite, State.advPrev_same, State.advMalformed_same, State.advDisabled_same, State.advEvaluated_same, and_self, ite_self, State.pending_ite, State.clk_ite, State.cores_ite, State.net_ite, State.vats_ite, State.mem_ite, State.hub_ite, State.span_ite, State.host_ite, State.pwr_ite, State.boot_ite, State.out_ite, State.free_ite]
@[simp] theorem State.setStk_same (a0 : State) (a1 : Nat) (a2 : Stk) :
    (State.setStk a0 a1 a2).pending = a0.pending ∧ (State.setStk a0 a1 a2).clk = a0.clk ∧ (State.setStk a0 a1 a2).cores = a0.cores ∧
      (State.setStk a0 a1 a2).net = a0.net ∧ (State.setStk a0 a1 a2).vats = a0.vats ∧ (State.setStk a0 a1 a2).hub = a0.hub ∧
      (State.setStk a0 a1 a2).span = a0.span ∧ (State.setStk a0 a1 a2).host = a0.host ∧ (State.setStk a0 a1 a2).pwr = a0.pwr ∧
      (State.setStk a0 a1 a2).boot = a0.boot ∧ (State.setStk a0 a1 a2).out = a0.out ∧ (State.setStk a0 a1 a2).free = a0.free := by
  unfold State.setStk; (repeat' split) <;> simp
@[simp] theorem State.modStk_same (a0 : State) (a1 : Nat) (a2 : Stk → Stk) :
    (State.modStk a0 a1 a2).pending = a0.pending ∧ (State.modStk a0 a1 a2).clk = a0.clk ∧ (State.modStk a0 a1 a2).cores = a0.cores ∧
      (State.modStk a0 a1 a2).net = a0.net ∧ (State.modStk a0 a1 a2).vats = a0.vats ∧ (State.modStk a0 a1 a2).hub = a0.hub ∧
      (State.modStk a0 a1 a2).span = a0.span ∧ (State.modStk a0 a1 a2).host = a0.host ∧ (State.modStk a0 a1 a2).pwr = a0.pwr ∧
      (State.modStk a0 a1 a2).boot = a0.boot ∧ (State.modStk a0 a1 a2).out = a0.out ∧ (State.modStk a0 a1 a2).free = a0.free := by
  unfold State.modStk; (repeat' split) <;> simp
@[simp] theorem State.noteBlock_same (a0 : MemSide) (a1 : Option Nat) (a2 : Nat) (a3 : Nat) (a4 : State) (a5 : Nat) :
    (State.noteBlock a0 a1 a2 a3 a4 a5).pending = a4.pending ∧ (State.noteBlock a0 a1 a2 a3 a4 a5).clk = a4.clk ∧
      (State.noteBlock a0 a1 a2 a3 a4 a5).cores = a4.cores ∧ (State.noteBlock a0 a1 a2 a3 a4 a5).net = a4.net ∧
      (State.noteBlock a0 a1 a2 a3 a4 a5).span = a4.span ∧ (State.noteBlock a0 a1 a2 a3 a4 a5).host = a4.host ∧
      (State.noteBlock a0 a1 a2 a3 a4 a5).boot = a4.boot ∧ (State.noteBlock a0 a1 a2 a3 a4 a5).free = a4.free := by
  unfold State.noteBlock; dsimp only; (repeat' (split <;> try dsimp only)) <;> simp_all
@[simp] theorem State.noteStack_same (a0 : State) (a1 : Option Nat) (a2 : Nat) (a3 : Nat) :
    (State.noteStack a0 a1 a2 a3).pending = a0.pending ∧ (State.noteStack a0 a1 a2 a3).clk = a0.clk ∧
      (State.noteStack a0 a1 a2 a3).cores = a0.cores ∧ (State.noteStack a0 a1 a2 a3).net = a0.net ∧ (State.noteStack a0 a1 a2 a3).span = a0.span ∧
      (State.noteStack a0 a1 a2 a3).host = a0.host ∧ (State.noteStack a0 a1 a2 a3).boot = a0.boot ∧ (State.noteStack a0 a1 a2 a3).free = a0.free := by
  unfold State.noteStack; (repeat' split) <;> simp
@[simp] theorem State.advClose1_same (a0 : State) (a1 : Nat) (a2 : Nat) :
    (State.advClose1 a0 a1 a2).pending = a0.pending ∧ (State.advClose1 a0 a1 a2).clk = a0.clk ∧ (State.advClose1 a0 a1 a2).cores = a0.cores ∧
      (State.advClose1 a0 a1 a2).net = a0.net ∧ (State.advClose1 a0 a1 a2).host = a0.host ∧ (State.advClose1 a0 a1 a2).boot = a0.boot := by
  unfold State.advClose1; (repeat' split) <;> simp
@[simp] theorem State.advCtl_same (a0 : State) (a1 : Nat) (a2 : Nat) :
    (State.advCtl a0 a1 a2).pending = a0.pending ∧ (State.advCtl a0 a1 a2).clk = a0.clk ∧ (State.advCtl a0 a1 a2).cores = a0.cores ∧
      (State.advCtl a0 a1 a2).net = a0.net ∧ (State.advCtl a0 a1 a2).mem = a0.mem ∧ (State.advCtl a0 a1 a2).hub = a0.hub ∧
      (State.advCtl a0 a1 a2).span = a0.span ∧ (State.advCtl a0 a1 a2).host = a0.host ∧ (State.advCtl a0 a1 a2).pwr = a0.pwr ∧
      (State.advCtl a0 a1 a2).boot = a0.boot ∧ (State.advCtl a0 a1 a2).out = a0.out ∧ (State.advCtl a0 a1 a2).free = a0.free := by
  unfold State.advCtl; (repeat' split) <;> simp
@[simp] theorem State.advRefuse_same (a0 : State) (a1 : Nat) (a2 : Nat) :
    (State.advRefuse a0 a1 a2).pending = a0.pending ∧ (State.advRefuse a0 a1 a2).clk = a0.clk ∧ (State.advRefuse a0 a1 a2).cores = a0.cores ∧
      (State.advRefuse a0 a1 a2).net = a0.net ∧ (State.advRefuse a0 a1 a2).mem = a0.mem ∧ (State.advRefuse a0 a1 a2).span = a0.span ∧
      (State.advRefuse a0 a1 a2).host = a0.host ∧ (State.advRefuse a0 a1 a2).boot = a0.boot ∧ (State.advRefuse a0 a1 a2).free = a0.free := by
  unfold State.advRefuse; (repeat' split) <;> simp
@[simp] theorem execAdvClose_same (a0 : Nat) (a1 : Nat) (a2 : State) :
    (resState a2 (execAdvClose a0 a1 a2)).pending = a2.pending ∧ (resState a2 (execAdvClose a0 a1 a2)).clk = a2.clk ∧
      (resState a2 (execAdvClose a0 a1 a2)).cores = a2.cores ∧ (resState a2 (execAdvClose a0 a1 a2)).net = a2.net ∧
      (resState a2 (execAdvClose a0 a1 a2)).host = a2.host ∧ (resState a2 (execAdvClose a0 a1 a2)).boot = a2.boot := by
  unfold execAdvClose; (repeat' split) <;> simp
@[simp] theorem execAdvLoad_same (a0 : Nat) (a1 : Nat) (a2 : State) :
    (resState a2 (execAdvLoad a0 a1 a2)).pending = a2.pending ∧ (resState a2 (execAdvLoad a0 a1 a2)).clk = a2.clk ∧
      (resState a2 (execAdvLoad a0 a1 a2)).cores = a2.cores ∧ (resState a2 (execAdvLoad a0 a1 a2)).net = a2.net ∧
      (resState a2 (execAdvLoad a0 a1 a2)).span = a2.span ∧ (resState a2 (execAdvLoad a0 a1 a2)).host = a2.host ∧
      (resState a2 (execAdvLoad a0 a1 a2)).boot = a2.boot ∧ (resState a2 (execAdvLoad a0 a1 a2)).free = a2.free := by
  unfold execAdvLoad; (repeat' split) <;> simp
@[simp] theorem State.advCtlWrite_same (a0 : State) (a1 : Nat) (a2 : Nat) :
    (State.advCtlWrite a0 a1 a2).pending = a0.pending ∧ (State.advCtlWrite a0 a1 a2).clk = a0.clk ∧ (State.advCtlWrite a0 a1 a2).cores = a0.cores ∧
      (State.advCtlWrite a0 a1 a2).net = a0.net ∧ (State.advCtlWrite a0 a1 a2).host = a0.host ∧ (State.advCtlWrite a0 a1 a2).boot = a0.boot := by
  unfold State.advCtlWrite; (repeat' split) <;> simp
@[simp] theorem State.byMgmt_same_pending (a0 : State) (a1 : Who) (a2 : Nat) (a3 : Prod State Nat) (h3 : a3.1.pending = a0.pending) :
    (State.byMgmt a0 a1 a2 a3).1.pending = a0.pending := by
  unfold State.byMgmt; (repeat' split) <;> simp_all
@[simp] theorem State.byMgmt_same_clk (a0 : State) (a1 : Who) (a2 : Nat) (a3 : Prod State Nat) (h3 : a3.1.clk = a0.clk) :
    (State.byMgmt a0 a1 a2 a3).1.clk = a0.clk := by
  unfold State.byMgmt; (repeat' split) <;> simp_all
@[simp] theorem State.byMgmt_same_cores (a0 : State) (a1 : Who) (a2 : Nat) (a3 : Prod State Nat) (h3 : a3.1.cores = a0.cores) :
    (State.byMgmt a0 a1 a2 a3).1.cores = a0.cores := by
  unfold State.byMgmt; (repeat' split) <;> simp_all
@[simp] theorem State.byMgmt_same_net (a0 : State) (a1 : Who) (a2 : Nat) (a3 : Prod State Nat) (h3 : a3.1.net = a0.net) :
    (State.byMgmt a0 a1 a2 a3).1.net = a0.net := by
  unfold State.byMgmt; (repeat' split) <;> simp_all
@[simp] theorem State.byMgmt_same_vats (a0 : State) (a1 : Who) (a2 : Nat) (a3 : Prod State Nat) (h3 : a3.1.vats = a0.vats) :
    (State.byMgmt a0 a1 a2 a3).1.vats = a0.vats := by
  unfold State.byMgmt; (repeat' split) <;> simp_all
@[simp] theorem State.byMgmt_same_mem (a0 : State) (a1 : Who) (a2 : Nat) (a3 : Prod State Nat) (h3 : a3.1.mem = a0.mem) :
    (State.byMgmt a0 a1 a2 a3).1.mem = a0.mem := by
  unfold State.byMgmt; (repeat' split) <;> simp_all
@[simp] theorem State.byMgmt_same_span (a0 : State) (a1 : Who) (a2 : Nat) (a3 : Prod State Nat) (h3 : a3.1.span = a0.span) :
    (State.byMgmt a0 a1 a2 a3).1.span = a0.span := by
  unfold State.byMgmt; (repeat' split) <;> simp_all
@[simp] theorem State.byMgmt_same_host (a0 : State) (a1 : Who) (a2 : Nat) (a3 : Prod State Nat) (h3 : a3.1.host = a0.host) :
    (State.byMgmt a0 a1 a2 a3).1.host = a0.host := by
  unfold State.byMgmt; (repeat' split) <;> simp_all
@[simp] theorem State.byMgmt_same_boot (a0 : State) (a1 : Who) (a2 : Nat) (a3 : Prod State Nat) (h3 : a3.1.boot = a0.boot) :
    (State.byMgmt a0 a1 a2 a3).1.boot = a0.boot := by
  unfold State.byMgmt; (repeat' split) <;> simp_all
@[simp] theorem State.byMgmt_same_free (a0 : State) (a1 : Who) (a2 : Nat) (a3 : Prod State Nat) (h3 : a3.1.free = a0.free) :
    (State.byMgmt a0 a1 a2 a3).1.free = a0.free := by
  unfold State.byMgmt; (repeat' split) <;> simp_all
@[simp] theorem State.advRange_same (a0 : State) (a1 : Who) (a2 : Nat) (a3 : Nat) (a4 : Nat) :
    (State.advRange a0 a1 a2 a3 a4).1.pending = a0.pending ∧ (State.advRange a0 a1 a2 a3 a4).1.clk = a0.clk ∧
      (State.advRange a0 a1 a2 a3 a4).1.cores = a0.cores ∧ (State.advRange a0 a1 a2 a3 a4).1.net = a0.net ∧
      (State.advRange a0 a1 a2 a3 a4).1.mem = a0.mem ∧ (State.advRange a0 a1 a2 a3 a4).1.span = a0.span ∧
      (State.advRange a0 a1 a2 a3 a4).1.host = a0.host ∧ (State.advRange a0 a1 a2 a3 a4).1.boot = a0.boot ∧
      (State.advRange a0 a1 a2 a3 a4).1.free = a0.free := by
  unfold State.advRange; (repeat' split) <;> simp
@[simp] theorem State.ageVcs_same (a0 : State) (a1 : Nat) (a2 : List TxFrame) :
    (State.ageVcs a0 a1 a2).pending = a0.pending ∧ (State.ageVcs a0 a1 a2).clk = a0.clk ∧ (State.ageVcs a0 a1 a2).cores = a0.cores ∧
      (State.ageVcs a0 a1 a2).net = a0.net ∧ (State.ageVcs a0 a1 a2).vats = a0.vats ∧ (State.ageVcs a0 a1 a2).mem = a0.mem ∧
      (State.ageVcs a0 a1 a2).hub = a0.hub ∧ (State.ageVcs a0 a1 a2).host = a0.host ∧ (State.ageVcs a0 a1 a2).pwr = a0.pwr ∧
      (State.ageVcs a0 a1 a2).boot = a0.boot ∧ (State.ageVcs a0 a1 a2).out = a0.out ∧ (State.ageVcs a0 a1 a2).free = a0.free := by
  unfold State.ageVcs; (repeat' split) <;> simp
@[simp] theorem State.takeException_same (a0 : State) (a1 : Nat) (a2 : BitVec 8) (a3 : Nat) (a4 : W64) (a5 : W64) :
    (State.takeException a0 a1 a2 a3 a4 a5).pending = a0.pending ∧ (State.takeException a0 a1 a2 a3 a4 a5).clk = a0.clk ∧
      (State.takeException a0 a1 a2 a3 a4 a5).vats = a0.vats ∧ (State.takeException a0 a1 a2 a3 a4 a5).mem = a0.mem ∧
      (State.takeException a0 a1 a2 a3 a4 a5).span = a0.span ∧ (State.takeException a0 a1 a2 a3 a4 a5).host = a0.host ∧
      (State.takeException a0 a1 a2 a3 a4 a5).boot = a0.boot ∧ (State.takeException a0 a1 a2 a3 a4 a5).free = a0.free := by
  unfold State.takeException; (repeat' split) <;> simp
@[simp] theorem State.fetchPoison_same (a0 : State) (a1 : Nat) :
    (State.fetchPoison a0 a1).pending = a0.pending ∧ (State.fetchPoison a0 a1).clk = a0.clk ∧ (State.fetchPoison a0 a1).mem = a0.mem ∧
      (State.fetchPoison a0 a1).span = a0.span ∧ (State.fetchPoison a0 a1).host = a0.host ∧ (State.fetchPoison a0 a1).boot = a0.boot ∧
      (State.fetchPoison a0 a1).free = a0.free := by
  unfold State.fetchPoison; (repeat' split) <;> simp
@[simp] theorem State.illegal_same (a0 : State) (a1 : Nat) (a2 : W32) :
    (State.illegal a0 a1 a2).pending = a0.pending ∧ (State.illegal a0 a1 a2).clk = a0.clk ∧ (State.illegal a0 a1 a2).vats = a0.vats ∧
      (State.illegal a0 a1 a2).mem = a0.mem ∧ (State.illegal a0 a1 a2).span = a0.span ∧ (State.illegal a0 a1 a2).host = a0.host ∧
      (State.illegal a0 a1 a2).boot = a0.boot ∧ (State.illegal a0 a1 a2).free = a0.free := by
  unfold State.illegal; (repeat' split) <;> simp
@[simp] theorem State.instr_same_pending (a0 : State) (a1 : Nat) (a2 : Guard) (a3 : W32) (a4 : Ctl → State)
      (h4 : ∀ k, (a4 k).pending = a0.pending) :
    (State.instr a0 a1 a2 a3 a4).pending = a0.pending := by
  unfold State.instr; (repeat' split) <;> simp_all
@[simp] theorem State.instr_same_clk (a0 : State) (a1 : Nat) (a2 : Guard) (a3 : W32) (a4 : Ctl → State) (h4 : ∀ k, (a4 k).clk = a0.clk) :
    (State.instr a0 a1 a2 a3 a4).clk = a0.clk := by
  unfold State.instr; (repeat' split) <;> simp_all
@[simp] theorem State.instr_same_mem (a0 : State) (a1 : Nat) (a2 : Guard) (a3 : W32) (a4 : Ctl → State) (h4 : ∀ k, (a4 k).mem = a0.mem) :
    (State.instr a0 a1 a2 a3 a4).mem = a0.mem := by
  unfold State.instr; (repeat' split) <;> simp_all
@[simp] theorem State.instr_same_span (a0 : State) (a1 : Nat) (a2 : Guard) (a3 : W32) (a4 : Ctl → State) (h4 : ∀ k, (a4 k).span = a0.span) :
    (State.instr a0 a1 a2 a3 a4).span = a0.span := by
  unfold State.instr; (repeat' split) <;> simp_all
@[simp] theorem State.instr_same_host (a0 : State) (a1 : Nat) (a2 : Guard) (a3 : W32) (a4 : Ctl → State) (h4 : ∀ k, (a4 k).host = a0.host) :
    (State.instr a0 a1 a2 a3 a4).host = a0.host := by
  unfold State.instr; (repeat' split) <;> simp_all
@[simp] theorem State.instr_same_boot (a0 : State) (a1 : Nat) (a2 : Guard) (a3 : W32) (a4 : Ctl → State) (h4 : ∀ k, (a4 k).boot = a0.boot) :
    (State.instr a0 a1 a2 a3 a4).boot = a0.boot := by
  unfold State.instr; (repeat' split) <;> simp_all
@[simp] theorem State.instr_same_free (a0 : State) (a1 : Nat) (a2 : Guard) (a3 : W32) (a4 : Ctl → State) (h4 : ∀ k, (a4 k).free = a0.free) :
    (State.instr a0 a1 a2 a3 a4).free = a0.free := by
  unfold State.instr; (repeat' split) <;> simp_all
@[simp] theorem State.retire_same (a0 : State) (a1 : Nat) (a2 : Ctl) (a3 : Reg) (a4 : W64) :
    (State.retire a0 a1 a2 a3 a4).pending = a0.pending ∧ (State.retire a0 a1 a2 a3 a4).clk = a0.clk ∧ (State.retire a0 a1 a2 a3 a4).net = a0.net ∧
      (State.retire a0 a1 a2 a3 a4).vats = a0.vats ∧ (State.retire a0 a1 a2 a3 a4).mem = a0.mem ∧ (State.retire a0 a1 a2 a3 a4).hub = a0.hub ∧
      (State.retire a0 a1 a2 a3 a4).span = a0.span ∧ (State.retire a0 a1 a2 a3 a4).host = a0.host ∧ (State.retire a0 a1 a2 a3 a4).pwr = a0.pwr ∧
      (State.retire a0 a1 a2 a3 a4).boot = a0.boot ∧ (State.retire a0 a1 a2 a3 a4).out = a0.out ∧ (State.retire a0 a1 a2 a3 a4).free = a0.free := by
  unfold State.retire; (repeat' split) <;> simp
@[simp] theorem State.aluI_same (a0 : State) (a1 : BitVec 8) (a2 : Nat) (a3 : Guard) (a4 : Reg) (a5 : Reg) (a6 : BitVec 10) (a7 : W64 → W64) :
    (State.aluI a0 a1 a2 a3 a4 a5 a6 a7).pending = a0.pending ∧ (State.aluI a0 a1 a2 a3 a4 a5 a6 a7).clk = a0.clk ∧
      (State.aluI a0 a1 a2 a3 a4 a5 a6 a7).mem = a0.mem ∧ (State.aluI a0 a1 a2 a3 a4 a5 a6 a7).span = a0.span ∧
      (State.aluI a0 a1 a2 a3 a4 a5 a6 a7).host = a0.host ∧ (State.aluI a0 a1 a2 a3 a4 a5 a6 a7).boot = a0.boot ∧
      (State.aluI a0 a1 a2 a3 a4 a5 a6 a7).free = a0.free := by
  unfold State.aluI; refine ⟨by first | (simp; done) | (apply State.instr_same_pending; intros; (first | (simp; done) | (dsimp only; (repeat' (split <;> try dsimp only)) <;> simp_all)); done) | ((repeat' split) <;> first | (simp; done) | (apply State.instr_same_pending; intros; (first | (simp; done) | (dsimp only; (repeat' (split <;> try dsimp only)) <;> simp_all)); done)), by first | (simp; done) | (apply State.instr_same_clk; intros; (first | (simp; done) | (dsimp only; (repeat' (split <;> try dsimp only)) <;> simp_all)); done) | ((repeat' split) <;> first | (simp; done) | (apply State.instr_same_clk; intros; (first | (simp; done) | (dsimp only; (repeat' (split <;> try dsimp only)) <;> simp_all)); done)), by first | (simp; done) | (apply State.instr_same_mem; intros; (first | (simp; done) | (dsimp only; (repeat' (split <;> try dsimp only)) <;> simp_all)); done) | ((repeat' split) <;> first | (simp; done) | (apply State.instr_same_mem; intros; (first | (simp; done) | (dsimp only; (repeat' (split <;> try dsimp only)) <;> simp_all)); done)), by first | (simp; done) | (apply State.instr_same_span; intros; (first | (simp; done) | (dsimp only; (repeat' (split <;> try dsimp only)) <;> simp_all)); done) | ((repeat' split) <;> first | (simp; done) | (apply State.instr_same_span; intros; (first | (simp; done) | (dsimp only; (repeat' (split <;> try dsimp only)) <;> simp_all)); done)), by first | (simp; done) | (apply State.instr_same_host; intros; (first | (simp; done) | (dsimp only; (repeat' (split <;> try dsimp only)) <;> simp_all)); done) | ((repeat' split) <;> first | (simp; done) | (apply State.instr_same_host; intros; (first | (simp; done) | (dsimp only; (repeat' (split <;> try dsimp only)) <;> simp_all)); done)), by first | (simp; done) | (apply State.instr_same_boot; intros; (first | (simp; done) | (dsimp only; (repeat' (split <;> try dsimp only)) <;> simp_all)); done) | ((repeat' split) <;> first | (simp; done) | (apply State.instr_same_boot; intros; (first | (simp; done) | (dsimp only; (repeat' (split <;> try dsimp only)) <;> simp_all)); done)), by first | (simp; done) | (apply State.instr_same_free; intros; (first | (simp; done) | (dsimp only; (repeat' (split <;> try dsimp only)) <;> simp_all)); done) | ((repeat' split) <;> first | (simp; done) | (apply State.instr_same_free; intros; (first | (simp; done) | (dsimp only; (repeat' (split <;> try dsimp only)) <;> simp_all)); done))⟩
@[simp] theorem State.aluR_same (a0 : State) (a1 : BitVec 8) (a2 : Nat) (a3 : Guard) (a4 : Reg) (a5 : Reg) (a6 : Reg) (a7 : W64 → W64 → W64) :
    (State.aluR a0 a1 a2 a3 a4 a5 a6 a7).pending = a0.pending ∧ (State.aluR a0 a1 a2 a3 a4 a5 a6 a7).clk = a0.clk ∧
      (State.aluR a0 a1 a2 a3 a4 a5 a6 a7).mem = a0.mem ∧ (State.aluR a0 a1 a2 a3 a4 a5 a6 a7).span = a0.span ∧
      (State.aluR a0 a1 a2 a3 a4 a5 a6 a7).host = a0.host ∧ (State.aluR a0 a1 a2 a3 a4 a5 a6 a7).boot = a0.boot ∧
      (State.aluR a0 a1 a2 a3 a4 a5 a6 a7).free = a0.free := by
  unfold State.aluR; refine ⟨by first | (simp; done) | (apply State.instr_same_pending; intros; (first | (simp; done) | (dsimp only; (repeat' (split <;> try dsimp only)) <;> simp_all)); done) | ((repeat' split) <;> first | (simp; done) | (apply State.instr_same_pending; intros; (first | (simp; done) | (dsimp only; (repeat' (split <;> try dsimp only)) <;> simp_all)); done)), by first | (simp; done) | (apply State.instr_same_clk; intros; (first | (simp; done) | (dsimp only; (repeat' (split <;> try dsimp only)) <;> simp_all)); done) | ((repeat' split) <;> first | (simp; done) | (apply State.instr_same_clk; intros; (first | (simp; done) | (dsimp only; (repeat' (split <;> try dsimp only)) <;> simp_all)); done)), by first | (simp; done) | (apply State.instr_same_mem; intros; (first | (simp; done) | (dsimp only; (repeat' (split <;> try dsimp only)) <;> simp_all)); done) | ((repeat' split) <;> first | (simp; done) | (apply State.instr_same_mem; intros; (first | (simp; done) | (dsimp only; (repeat' (split <;> try dsimp only)) <;> simp_all)); done)), by first | (simp; done) | (apply State.instr_same_span; intros; (first | (simp; done) | (dsimp only; (repeat' (split <;> try dsimp only)) <;> simp_all)); done) | ((repeat' split) <;> first | (simp; done) | (apply State.instr_same_span; intros; (first | (simp; done) | (dsimp only; (repeat' (split <;> try dsimp only)) <;> simp_all)); done)), by first | (simp; done) | (apply State.instr_same_host; intros; (first | (simp; done) | (dsimp only; (repeat' (split <;> try dsimp only)) <;> simp_all)); done) | ((repeat' split) <;> first | (simp; done) | (apply State.instr_same_host; intros; (first | (simp; done) | (dsimp only; (repeat' (split <;> try dsimp only)) <;> simp_all)); done)), by first | (simp; done) | (apply State.instr_same_boot; intros; (first | (simp; done) | (dsimp only; (repeat' (split <;> try dsimp only)) <;> simp_all)); done) | ((repeat' split) <;> first | (simp; done) | (apply State.instr_same_boot; intros; (first | (simp; done) | (dsimp only; (repeat' (split <;> try dsimp only)) <;> simp_all)); done)), by first | (simp; done) | (apply State.instr_same_free; intros; (first | (simp; done) | (dsimp only; (repeat' (split <;> try dsimp only)) <;> simp_all)); done) | ((repeat' split) <;> first | (simp; done) | (apply State.instr_same_free; intros; (first | (simp; done) | (dsimp only; (repeat' (split <;> try dsimp only)) <;> simp_all)); done))⟩
@[simp] theorem State.answerAll_same (a0 : State) (a1 : List ReqBy) (a2 : Nat) :
    (State.answerAll a0 a1 a2).pending = a0.pending ∧ (State.answerAll a0 a1 a2).clk = a0.clk ∧ (State.answerAll a0 a1 a2).cores = a0.cores ∧
      (State.answerAll a0 a1 a2).net = a0.net ∧ (State.answerAll a0 a1 a2).vats = a0.vats ∧ (State.answerAll a0 a1 a2).mem = a0.mem ∧
      (State.answerAll a0 a1 a2).hub = a0.hub ∧ (State.answerAll a0 a1 a2).span = a0.span ∧ (State.answerAll a0 a1 a2).host = a0.host ∧
      (State.answerAll a0 a1 a2).pwr = a0.pwr ∧ (State.answerAll a0 a1 a2).boot = a0.boot ∧ (State.answerAll a0 a1 a2).free = a0.free := by
  unfold State.answerAll; (repeat' split) <;> simp
@[simp] theorem State.setSeqSlot_same (a0 : State) (a1 : Nat) (a2 : Seq) :
    (State.setSeqSlot a0 a1 a2).pending = a0.pending ∧ (State.setSeqSlot a0 a1 a2).clk = a0.clk ∧ (State.setSeqSlot a0 a1 a2).cores = a0.cores ∧
      (State.setSeqSlot a0 a1 a2).net = a0.net ∧ (State.setSeqSlot a0 a1 a2).vats = a0.vats ∧ (State.setSeqSlot a0 a1 a2).mem = a0.mem ∧
      (State.setSeqSlot a0 a1 a2).span = a0.span ∧ (State.setSeqSlot a0 a1 a2).host = a0.host ∧ (State.setSeqSlot a0 a1 a2).pwr = a0.pwr ∧
      (State.setSeqSlot a0 a1 a2).boot = a0.boot ∧ (State.setSeqSlot a0 a1 a2).out = a0.out ∧ (State.setSeqSlot a0 a1 a2).free = a0.free := by
  unfold State.setSeqSlot; (repeat' split) <;> simp
@[simp] theorem State.applyRecord_same (a0 : State) (a1 : Nat) (a2 : Nat) (a3 : List Byte) :
    (State.applyRecord a0 a1 a2 a3).pending = a0.pending ∧ (State.applyRecord a0 a1 a2 a3).clk = a0.clk ∧
      (State.applyRecord a0 a1 a2 a3).cores = a0.cores ∧ (State.applyRecord a0 a1 a2 a3).net = a0.net ∧
      (State.applyRecord a0 a1 a2 a3).span = a0.span ∧ (State.applyRecord a0 a1 a2 a3).host = a0.host ∧
      (State.applyRecord a0 a1 a2 a3).pwr = a0.pwr ∧ (State.applyRecord a0 a1 a2 a3).boot = a0.boot ∧
      (State.applyRecord a0 a1 a2 a3).out = a0.out ∧ (State.applyRecord a0 a1 a2 a3).free = a0.free := by
  unfold State.applyRecord; (repeat' split) <;> simp
@[simp] theorem State.applyItem_same (a0 : State) (a1 : Nat) (a2 : LogItem) :
    (State.applyItem a0 a1 a2).pending = a0.pending ∧ (State.applyItem a0 a1 a2).clk = a0.clk ∧ (State.applyItem a0 a1 a2).cores = a0.cores ∧
      (State.applyItem a0 a1 a2).net = a0.net ∧ (State.applyItem a0 a1 a2).host = a0.host ∧ (State.applyItem a0 a1 a2).boot = a0.boot ∧
      (State.applyItem a0 a1 a2).free = a0.free := by
  unfold State.applyItem; (repeat' split) <;> simp
@[simp] theorem State.devWipe_same (a0 : State) :
    (State.devWipe a0).pending = a0.pending ∧ (State.devWipe a0).out = a0.out ∧ (State.devWipe a0).free = a0.free := by
  unfold State.devWipe; (repeat' split) <;> simp
@[simp] theorem State.coldWipe_same (a0 : State) (a1 : Bool) :
    (State.coldWipe a0 a1).pending = a0.pending ∧ (State.coldWipe a0 a1).out = a0.out ∧ (State.coldWipe a0 a1).free = a0.free := by
  unfold State.coldWipe; (repeat' split) <;> simp
@[simp] theorem State.applyReset_same (a0 : State) (a1 : RstKind) :
    (State.applyReset a0 a1).pending = a0.pending ∧ (State.applyReset a0 a1).out = a0.out ∧ (State.applyReset a0 a1).free = a0.free := by
  unfold State.applyReset; (repeat' split) <;> simp
@[simp] theorem State.armWrite_same (a0 : State) (a1 : Nat) (a2 : Bool) :
    (State.armWrite a0 a1 a2).pending = a0.pending ∧ (State.armWrite a0 a1 a2).clk = a0.clk ∧ (State.armWrite a0 a1 a2).cores = a0.cores ∧
      (State.armWrite a0 a1 a2).net = a0.net ∧ (State.armWrite a0 a1 a2).mem = a0.mem ∧ (State.armWrite a0 a1 a2).span = a0.span ∧
      (State.armWrite a0 a1 a2).host = a0.host ∧ (State.armWrite a0 a1 a2).boot = a0.boot ∧ (State.armWrite a0 a1 a2).free = a0.free := by
  unfold State.armWrite; (repeat' split) <;> simp
@[simp] theorem State.askReset_same (a0 : State) (a1 : RstKind) (a2 : Nat) :
    (State.askReset a0 a1 a2).pending = a0.pending ∧ (State.askReset a0 a1 a2).clk = a0.clk ∧ (State.askReset a0 a1 a2).cores = a0.cores ∧
      (State.askReset a0 a1 a2).net = a0.net ∧ (State.askReset a0 a1 a2).vats = a0.vats ∧ (State.askReset a0 a1 a2).mem = a0.mem ∧
      (State.askReset a0 a1 a2).hub = a0.hub ∧ (State.askReset a0 a1 a2).span = a0.span ∧ (State.askReset a0 a1 a2).host = a0.host ∧
      (State.askReset a0 a1 a2).pwr = a0.pwr ∧ (State.askReset a0 a1 a2).out = a0.out ∧ (State.askReset a0 a1 a2).free = a0.free := by
  unfold State.askReset; (repeat' split) <;> simp
@[simp] theorem State.syncLost_same (a0 : State) (a1 : Option Nat) :
    (State.syncLost a0 a1).pending = a0.pending ∧ (State.syncLost a0 a1).clk = a0.clk ∧ (State.syncLost a0 a1).cores = a0.cores ∧
      (State.syncLost a0 a1).net = a0.net ∧ (State.syncLost a0 a1).vats = a0.vats ∧ (State.syncLost a0 a1).mem = a0.mem ∧
      (State.syncLost a0 a1).host = a0.host ∧ (State.syncLost a0 a1).boot = a0.boot ∧ (State.syncLost a0 a1).free = a0.free := by
  unfold State.syncLost; (repeat' split) <;> simp
@[simp] theorem State.dropTx_same (a0 : State) (a1 : TxFrame) :
    (State.dropTx a0 a1).pending = a0.pending ∧ (State.dropTx a0 a1).clk = a0.clk ∧ (State.dropTx a0 a1).cores = a0.cores ∧
      (State.dropTx a0 a1).net = a0.net ∧ (State.dropTx a0 a1).vats = a0.vats ∧ (State.dropTx a0 a1).mem = a0.mem ∧
      (State.dropTx a0 a1).host = a0.host ∧ (State.dropTx a0 a1).boot = a0.boot ∧ (State.dropTx a0 a1).free = a0.free := by
  unfold State.dropTx; (repeat' split) <;> simp
@[simp] theorem State.queueTx_same (a0 : State) (a1 : Nat) (a2 : TxFrame) :
    (State.queueTx a0 a1 a2).pending = a0.pending ∧ (State.queueTx a0 a1 a2).clk = a0.clk ∧ (State.queueTx a0 a1 a2).cores = a0.cores ∧
      (State.queueTx a0 a1 a2).net = a0.net ∧ (State.queueTx a0 a1 a2).vats = a0.vats ∧ (State.queueTx a0 a1 a2).mem = a0.mem ∧
      (State.queueTx a0 a1 a2).host = a0.host ∧ (State.queueTx a0 a1 a2).boot = a0.boot ∧ (State.queueTx a0 a1 a2).free = a0.free := by
  unfold State.queueTx; (repeat' split) <;> simp
@[simp] theorem State.egress_same (a0 : State) (a1 : TxFrame) :
    (State.egress a0 a1).pending = a0.pending ∧ (State.egress a0 a1).clk = a0.clk ∧ (State.egress a0 a1).cores = a0.cores ∧
      (State.egress a0 a1).net = a0.net ∧ (State.egress a0 a1).vats = a0.vats ∧ (State.egress a0 a1).mem = a0.mem ∧
      (State.egress a0 a1).host = a0.host ∧ (State.egress a0 a1).boot = a0.boot ∧ (State.egress a0 a1).free = a0.free := by
  unfold State.egress; (repeat' split) <;> simp
@[simp] theorem State.refuseFrame_same (a0 : State) (a1 : Frame) (a2 : Nat) :
    (State.refuseFrame a0 a1 a2).pending = a0.pending ∧ (State.refuseFrame a0 a1 a2).clk = a0.clk ∧ (State.refuseFrame a0 a1 a2).cores = a0.cores ∧
      (State.refuseFrame a0 a1 a2).net = a0.net ∧ (State.refuseFrame a0 a1 a2).vats = a0.vats ∧ (State.refuseFrame a0 a1 a2).mem = a0.mem ∧
      (State.refuseFrame a0 a1 a2).host = a0.host ∧ (State.refuseFrame a0 a1 a2).boot = a0.boot ∧ (State.refuseFrame a0 a1 a2).free = a0.free := by
  unfold State.refuseFrame; (repeat' split) <;> simp
@[simp] theorem State.badFrame_same (a0 : State) (a1 : Nat) (a2 : Frame) (a3 : Nat) (a4 : Nat) :
    (State.badFrame a0 a1 a2 a3 a4).pending = a0.pending ∧ (State.badFrame a0 a1 a2 a3 a4).clk = a0.clk ∧
      (State.badFrame a0 a1 a2 a3 a4).cores = a0.cores ∧ (State.badFrame a0 a1 a2 a3 a4).net = a0.net ∧
      (State.badFrame a0 a1 a2 a3 a4).vats = a0.vats ∧ (State.badFrame a0 a1 a2 a3 a4).mem = a0.mem ∧
      (State.badFrame a0 a1 a2 a3 a4).host = a0.host ∧ (State.badFrame a0 a1 a2 a3 a4).boot = a0.boot ∧
      (State.badFrame a0 a1 a2 a3 a4).free = a0.free := by
  unfold State.badFrame; (repeat' split) <;> simp
@[simp] theorem State.balTake_same (a0 : State) (a1 : Nat) (a2 : Nat) (a3 : Nat) :
    (State.balTake a0 a1 a2 a3).pending = a0.pending ∧ (State.balTake a0 a1 a2 a3).clk = a0.clk ∧ (State.balTake a0 a1 a2 a3).cores = a0.cores ∧
      (State.balTake a0 a1 a2 a3).net = a0.net ∧ (State.balTake a0 a1 a2 a3).mem = a0.mem ∧ (State.balTake a0 a1 a2 a3).span = a0.span ∧
      (State.balTake a0 a1 a2 a3).host = a0.host ∧ (State.balTake a0 a1 a2 a3).boot = a0.boot ∧ (State.balTake a0 a1 a2 a3).free = a0.free := by
  unfold State.balTake; (repeat' split) <;> simp
@[simp] theorem State.batchClear_same (a0 : State) (a1 : Nat) :
    (State.batchClear a0 a1).pending = a0.pending ∧ (State.batchClear a0 a1).clk = a0.clk ∧ (State.batchClear a0 a1).cores = a0.cores ∧
      (State.batchClear a0 a1).net = a0.net ∧ (State.batchClear a0 a1).mem = a0.mem ∧ (State.batchClear a0 a1).span = a0.span ∧
      (State.batchClear a0 a1).host = a0.host ∧ (State.batchClear a0 a1).pwr = a0.pwr ∧ (State.batchClear a0 a1).boot = a0.boot ∧
      (State.batchClear a0 a1).out = a0.out ∧ (State.batchClear a0 a1).free = a0.free := by
  unfold State.batchClear; (repeat' split) <;> simp
@[simp] theorem State.hostRefuse_same (a0 : State) (a1 : Nat) (a2 : Nat) (a3 : Nat) :
    (State.hostRefuse a0 a1 a2 a3).pending = a0.pending ∧ (State.hostRefuse a0 a1 a2 a3).clk = a0.clk ∧
      (State.hostRefuse a0 a1 a2 a3).cores = a0.cores ∧ (State.hostRefuse a0 a1 a2 a3).net = a0.net ∧
      (State.hostRefuse a0 a1 a2 a3).vats = a0.vats ∧ (State.hostRefuse a0 a1 a2 a3).mem = a0.mem ∧ (State.hostRefuse a0 a1 a2 a3).span = a0.span ∧
      (State.hostRefuse a0 a1 a2 a3).boot = a0.boot ∧ (State.hostRefuse a0 a1 a2 a3).free = a0.free := by
  unfold State.hostRefuse; (repeat' split) <;> simp
@[simp] theorem State.setClPwr_same (a0 : State) (a1 : Nat) (a2 : ClPwr) :
    (State.setClPwr a0 a1 a2).pending = a0.pending ∧ (State.setClPwr a0 a1 a2).clk = a0.clk ∧ (State.setClPwr a0 a1 a2).cores = a0.cores ∧
      (State.setClPwr a0 a1 a2).net = a0.net ∧ (State.setClPwr a0 a1 a2).vats = a0.vats ∧ (State.setClPwr a0 a1 a2).mem = a0.mem ∧
      (State.setClPwr a0 a1 a2).hub = a0.hub ∧ (State.setClPwr a0 a1 a2).span = a0.span ∧ (State.setClPwr a0 a1 a2).host = a0.host ∧
      (State.setClPwr a0 a1 a2).boot = a0.boot ∧ (State.setClPwr a0 a1 a2).out = a0.out ∧ (State.setClPwr a0 a1 a2).free = a0.free := by
  unfold State.setClPwr; (repeat' split) <;> simp
@[simp] theorem State.modClPwr_same (a0 : State) (a1 : Nat) (a2 : ClPwr → ClPwr) :
    (State.modClPwr a0 a1 a2).pending = a0.pending ∧ (State.modClPwr a0 a1 a2).clk = a0.clk ∧ (State.modClPwr a0 a1 a2).cores = a0.cores ∧
      (State.modClPwr a0 a1 a2).net = a0.net ∧ (State.modClPwr a0 a1 a2).vats = a0.vats ∧ (State.modClPwr a0 a1 a2).mem = a0.mem ∧
      (State.modClPwr a0 a1 a2).hub = a0.hub ∧ (State.modClPwr a0 a1 a2).span = a0.span ∧ (State.modClPwr a0 a1 a2).host = a0.host ∧
      (State.modClPwr a0 a1 a2).boot = a0.boot ∧ (State.modClPwr a0 a1 a2).out = a0.out ∧ (State.modClPwr a0 a1 a2).free = a0.free := by
  unfold State.modClPwr; (repeat' split) <;> simp
@[simp] theorem State.wakeCl_same (a0 : State) (a1 : Nat) :
    (State.wakeCl a0 a1).pending = a0.pending ∧ (State.wakeCl a0 a1).clk = a0.clk ∧ (State.wakeCl a0 a1).cores = a0.cores ∧
      (State.wakeCl a0 a1).net = a0.net ∧ (State.wakeCl a0 a1).vats = a0.vats ∧ (State.wakeCl a0 a1).mem = a0.mem ∧
      (State.wakeCl a0 a1).hub = a0.hub ∧ (State.wakeCl a0 a1).span = a0.span ∧ (State.wakeCl a0 a1).host = a0.host ∧
      (State.wakeCl a0 a1).boot = a0.boot ∧ (State.wakeCl a0 a1).out = a0.out ∧ (State.wakeCl a0 a1).free = a0.free := by
  unfold State.wakeCl; (repeat' split) <;> simp
@[simp] theorem State.wakeVat_same (a0 : State) (a1 : Nat) :
    (State.wakeVat a0 a1).pending = a0.pending ∧ (State.wakeVat a0 a1).clk = a0.clk ∧ (State.wakeVat a0 a1).cores = a0.cores ∧
      (State.wakeVat a0 a1).net = a0.net ∧ (State.wakeVat a0 a1).vats = a0.vats ∧ (State.wakeVat a0 a1).mem = a0.mem ∧
      (State.wakeVat a0 a1).hub = a0.hub ∧ (State.wakeVat a0 a1).span = a0.span ∧ (State.wakeVat a0 a1).host = a0.host ∧
      (State.wakeVat a0 a1).boot = a0.boot ∧ (State.wakeVat a0 a1).out = a0.out ∧ (State.wakeVat a0 a1).free = a0.free := by
  unfold State.wakeVat; (repeat' split) <;> simp
@[simp] theorem State.command_same_pending (a0 : State) (a1 : Src) (a2 : Nat) (a3 : Nat) (a4 : State → Caller → State)
      (h4 : ∀ u x, (a4 u x).pending = u.pending) :
    (State.command a0 a1 a2 a3 a4).pending = a0.pending := by
  unfold State.command; (repeat' split) <;> simp_all
@[simp] theorem State.command_same_clk (a0 : State) (a1 : Src) (a2 : Nat) (a3 : Nat) (a4 : State → Caller → State)
      (h4 : ∀ u x, (a4 u x).clk = u.clk) :
    (State.command a0 a1 a2 a3 a4).clk = a0.clk := by
  unfold State.command; (repeat' split) <;> simp_all
@[simp] theorem State.command_same_cores (a0 : State) (a1 : Src) (a2 : Nat) (a3 : Nat) (a4 : State → Caller → State)
      (h4 : ∀ u x, (a4 u x).cores = u.cores) :
    (State.command a0 a1 a2 a3 a4).cores = a0.cores := by
  unfold State.command; (repeat' split) <;> simp_all
@[simp] theorem State.command_same_net (a0 : State) (a1 : Src) (a2 : Nat) (a3 : Nat) (a4 : State → Caller → State)
      (h4 : ∀ u x, (a4 u x).net = u.net) :
    (State.command a0 a1 a2 a3 a4).net = a0.net := by
  unfold State.command; (repeat' split) <;> simp_all
@[simp] theorem State.command_same_vats (a0 : State) (a1 : Src) (a2 : Nat) (a3 : Nat) (a4 : State → Caller → State)
      (h4 : ∀ u x, (a4 u x).vats = u.vats) :
    (State.command a0 a1 a2 a3 a4).vats = a0.vats := by
  unfold State.command; (repeat' split) <;> simp_all
@[simp] theorem State.command_same_mem (a0 : State) (a1 : Src) (a2 : Nat) (a3 : Nat) (a4 : State → Caller → State)
      (h4 : ∀ u x, (a4 u x).mem = u.mem) :
    (State.command a0 a1 a2 a3 a4).mem = a0.mem := by
  unfold State.command; (repeat' split) <;> simp_all
@[simp] theorem State.command_same_span (a0 : State) (a1 : Src) (a2 : Nat) (a3 : Nat) (a4 : State → Caller → State)
      (h4 : ∀ u x, (a4 u x).span = u.span) :
    (State.command a0 a1 a2 a3 a4).span = a0.span := by
  unfold State.command; (repeat' split) <;> simp_all
@[simp] theorem State.command_same_boot (a0 : State) (a1 : Src) (a2 : Nat) (a3 : Nat) (a4 : State → Caller → State)
      (h4 : ∀ u x, (a4 u x).boot = u.boot) :
    (State.command a0 a1 a2 a3 a4).boot = a0.boot := by
  unfold State.command; (repeat' split) <;> simp_all
@[simp] theorem State.command_same_free (a0 : State) (a1 : Src) (a2 : Nat) (a3 : Nat) (a4 : State → Caller → State)
      (h4 : ∀ u x, (a4 u x).free = u.free) :
    (State.command a0 a1 a2 a3 a4).free = a0.free := by
  unfold State.command; (repeat' split) <;> simp_all
@[simp] theorem State.stepFrom_same_pending (a0 : State) (a1 : Nat) (a2 : Src) (a3 : Nat) (a4 : State → Caller → State)
      (h4 : ∀ u x, (a4 u x).pending = u.pending) :
    (State.stepFrom a0 a1 a2 a3 a4).pending = a0.pending := by
  unfold State.stepFrom; (repeat' split) <;> simp_all
@[simp] theorem State.stepFrom_same_clk (a0 : State) (a1 : Nat) (a2 : Src) (a3 : Nat) (a4 : State → Caller → State)
      (h4 : ∀ u x, (a4 u x).clk = u.clk) :
    (State.stepFrom a0 a1 a2 a3 a4).clk = a0.clk := by
  unfold State.stepFrom; (repeat' split) <;> simp_all
@[simp] theorem State.stepFrom_same_cores (a0 : State) (a1 : Nat) (a2 : Src) (a3 : Nat) (a4 : State → Caller → State)
      (h4 : ∀ u x, (a4 u x).cores = u.cores) :
    (State.stepFrom a0 a1 a2 a3 a4).cores = a0.cores := by
  unfold State.stepFrom; (repeat' split) <;> simp_all
@[simp] theorem State.stepFrom_same_net (a0 : State) (a1 : Nat) (a2 : Src) (a3 : Nat) (a4 : State → Caller → State)
      (h4 : ∀ u x, (a4 u x).net = u.net) :
    (State.stepFrom a0 a1 a2 a3 a4).net = a0.net := by
  unfold State.stepFrom; (repeat' split) <;> simp_all
@[simp] theorem State.stepFrom_same_vats (a0 : State) (a1 : Nat) (a2 : Src) (a3 : Nat) (a4 : State → Caller → State)
      (h4 : ∀ u x, (a4 u x).vats = u.vats) :
    (State.stepFrom a0 a1 a2 a3 a4).vats = a0.vats := by
  unfold State.stepFrom; (repeat' split) <;> simp_all
@[simp] theorem State.stepFrom_same_mem (a0 : State) (a1 : Nat) (a2 : Src) (a3 : Nat) (a4 : State → Caller → State)
      (h4 : ∀ u x, (a4 u x).mem = u.mem) :
    (State.stepFrom a0 a1 a2 a3 a4).mem = a0.mem := by
  unfold State.stepFrom; (repeat' split) <;> simp_all
@[simp] theorem State.stepFrom_same_span (a0 : State) (a1 : Nat) (a2 : Src) (a3 : Nat) (a4 : State → Caller → State)
      (h4 : ∀ u x, (a4 u x).span = u.span) :
    (State.stepFrom a0 a1 a2 a3 a4).span = a0.span := by
  unfold State.stepFrom; (repeat' split) <;> simp_all
@[simp] theorem State.stepFrom_same_boot (a0 : State) (a1 : Nat) (a2 : Src) (a3 : Nat) (a4 : State → Caller → State)
      (h4 : ∀ u x, (a4 u x).boot = u.boot) :
    (State.stepFrom a0 a1 a2 a3 a4).boot = a0.boot := by
  unfold State.stepFrom; (repeat' split) <;> simp_all
@[simp] theorem State.stepFrom_same_free (a0 : State) (a1 : Nat) (a2 : Src) (a3 : Nat) (a4 : State → Caller → State)
      (h4 : ∀ u x, (a4 u x).free = u.free) :
    (State.stepFrom a0 a1 a2 a3 a4).free = a0.free := by
  unfold State.stepFrom; (repeat' split) <;> simp_all
@[simp] theorem State.stepRefuse_same (a0 : State) (a1 : Nat) (a2 : Caller) (a3 : Nat) (a4 : Nat) :
    (State.stepRefuse a0 a1 a2 a3 a4).pending = a0.pending ∧ (State.stepRefuse a0 a1 a2 a3 a4).clk = a0.clk ∧
      (State.stepRefuse a0 a1 a2 a3 a4).cores = a0.cores ∧ (State.stepRefuse a0 a1 a2 a3 a4).net = a0.net ∧
      (State.stepRefuse a0 a1 a2 a3 a4).mem = a0.mem ∧ (State.stepRefuse a0 a1 a2 a3 a4).span = a0.span ∧
      (State.stepRefuse a0 a1 a2 a3 a4).boot = a0.boot ∧ (State.stepRefuse a0 a1 a2 a3 a4).free = a0.free := by
  unfold State.stepRefuse; (repeat' split) <;> simp
@[simp] theorem execBatchReset_same (a0 : Nat) (a1 : Src) (a2 : State) :
    (resState a2 (execBatchReset a0 a1 a2)).pending = a2.pending ∧ (resState a2 (execBatchReset a0 a1 a2)).clk = a2.clk ∧
      (resState a2 (execBatchReset a0 a1 a2)).cores = a2.cores ∧ (resState a2 (execBatchReset a0 a1 a2)).net = a2.net ∧
      (resState a2 (execBatchReset a0 a1 a2)).mem = a2.mem ∧ (resState a2 (execBatchReset a0 a1 a2)).span = a2.span ∧
      (resState a2 (execBatchReset a0 a1 a2)).boot = a2.boot ∧ (resState a2 (execBatchReset a0 a1 a2)).free = a2.free := by
  unfold execBatchReset; refine ⟨by first | (simp; done) | (rw [resState_next]; apply State.stepFrom_same_pending; intros; (first | (simp; done) | (dsimp only; (repeat' (split <;> try dsimp only)) <;> simp_all)); done) | ((repeat' split) <;> first | (simp; done) | (rw [resState_next]; apply State.stepFrom_same_pending; intros; (first | (simp; done) | (dsimp only; (repeat' (split <;> try dsimp only)) <;> simp_all)); done)), by first | (simp; done) | (rw [resState_next]; apply State.stepFrom_same_clk; intros; (first | (simp; done) | (dsimp only; (repeat' (split <;> try dsimp only)) <;> simp_all)); done) | ((repeat' split) <;> first | (simp; done) | (rw [resState_next]; apply State.stepFrom_same_clk; intros; (first | (simp; done) | (dsimp only; (repeat' (split <;> try dsimp only)) <;> simp_all)); done)), by first | (simp; done) | (rw [resState_next]; apply State.stepFrom_same_cores; intros; (first | (simp; done) | (dsimp only; (repeat' (split <;> try dsimp only)) <;> simp_all)); done) | ((repeat' split) <;> first | (simp; done) | (rw [resState_next]; apply State.stepFrom_same_cores; intros; (first | (simp; done) | (dsimp only; (repeat' (split <;> try dsimp only)) <;> simp_all)); done)), by first | (simp; done) | (rw [resState_next]; apply State.stepFrom_same_net; intros; (first | (simp; done) | (dsimp only; (repeat' (split <;> try dsimp only)) <;> simp_all)); done) | ((repeat' split) <;> first | (simp; done) | (rw [resState_next]; apply State.stepFrom_same_net; intros; (first | (simp; done) | (dsimp only; (repeat' (split <;> try dsimp only)) <;> simp_all)); done)), by first | (simp; done) | (rw [resState_next]; apply State.stepFrom_same_mem; intros; (first | (simp; done) | (dsimp only; (repeat' (split <;> try dsimp only)) <;> simp_all)); done) | ((repeat' split) <;> first | (simp; done) | (rw [resState_next]; apply State.stepFrom_same_mem; intros; (first | (simp; done) | (dsimp only; (repeat' (split <;> try dsimp only)) <;> simp_all)); done)), by first | (simp; done) | (rw [resState_next]; apply State.stepFrom_same_span; intros; (first | (simp; done) | (dsimp only; (repeat' (split <;> try dsimp only)) <;> simp_all)); done) | ((repeat' split) <;> first | (simp; done) | (rw [resState_next]; apply State.stepFrom_same_span; intros; (first | (simp; done) | (dsimp only; (repeat' (split <;> try dsimp only)) <;> simp_all)); done)), by first | (simp; done) | (rw [resState_next]; apply State.stepFrom_same_boot; intros; (first | (simp; done) | (dsimp only; (repeat' (split <;> try dsimp only)) <;> simp_all)); done) | ((repeat' split) <;> first | (simp; done) | (rw [resState_next]; apply State.stepFrom_same_boot; intros; (first | (simp; done) | (dsimp only; (repeat' (split <;> try dsimp only)) <;> simp_all)); done)), by first | (simp; done) | (rw [resState_next]; apply State.stepFrom_same_free; intros; (first | (simp; done) | (dsimp only; (repeat' (split <;> try dsimp only)) <;> simp_all)); done) | ((repeat' split) <;> first | (simp; done) | (rw [resState_next]; apply State.stepFrom_same_free; intros; (first | (simp; done) | (dsimp only; (repeat' (split <;> try dsimp only)) <;> simp_all)); done))⟩
@[simp] theorem State.stepGo_same (a0 : State) (a1 : Nat) (a2 : Caller) (a3 : Bool) :
    (State.stepGo a0 a1 a2 a3).pending = a0.pending ∧ (State.stepGo a0 a1 a2 a3).clk = a0.clk ∧ (State.stepGo a0 a1 a2 a3).cores = a0.cores ∧
      (State.stepGo a0 a1 a2 a3).net = a0.net ∧ (State.stepGo a0 a1 a2 a3).boot = a0.boot ∧ (State.stepGo a0 a1 a2 a3).free = a0.free := by
  unfold State.stepGo; dsimp only; (repeat' (split <;> try dsimp only)) <;> simp_all
@[simp] theorem execStep_same (a0 : Nat) (a1 : Src) (a2 : State) :
    (resState a2 (execStep a0 a1 a2)).pending = a2.pending ∧ (resState a2 (execStep a0 a1 a2)).clk = a2.clk ∧
      (resState a2 (execStep a0 a1 a2)).cores = a2.cores ∧ (resState a2 (execStep a0 a1 a2)).net = a2.net ∧
      (resState a2 (execStep a0 a1 a2)).boot = a2.boot ∧ (resState a2 (execStep a0 a1 a2)).free = a2.free := by
  unfold execStep; refine ⟨by first | (simp; done) | (rw [resState_next]; apply State.stepFrom_same_pending; intros; (first | (simp; done) | (dsimp only; (repeat' (split <;> try dsimp only)) <;> simp_all)); done) | ((repeat' split) <;> first | (simp; done) | (rw [resState_next]; apply State.stepFrom_same_pending; intros; (first | (simp; done) | (dsimp only; (repeat' (split <;> try dsimp only)) <;> simp_all)); done)), by first | (simp; done) | (rw [resState_next]; apply State.stepFrom_same_clk; intros; (first | (simp; done) | (dsimp only; (repeat' (split <;> try dsimp only)) <;> simp_all)); done) | ((repeat' split) <;> first | (simp; done) | (rw [resState_next]; apply State.stepFrom_same_clk; intros; (first | (simp; done) | (dsimp only; (repeat' (split <;> try dsimp only)) <;> simp_all)); done)), by first | (simp; done) | (rw [resState_next]; apply State.stepFrom_same_cores; intros; (first | (simp; done) | (dsimp only; (repeat' (split <;> try dsimp only)) <;> simp_all)); done) | ((repeat' split) <;> first | (simp; done) | (rw [resState_next]; apply State.stepFrom_same_cores; intros; (first | (simp; done) | (dsimp only; (repeat' (split <;> try dsimp only)) <;> simp_all)); done)), by first | (simp; done) | (rw [resState_next]; apply State.stepFrom_same_net; intros; (first | (simp; done) | (dsimp only; (repeat' (split <;> try dsimp only)) <;> simp_all)); done) | ((repeat' split) <;> first | (simp; done) | (rw [resState_next]; apply State.stepFrom_same_net; intros; (first | (simp; done) | (dsimp only; (repeat' (split <;> try dsimp only)) <;> simp_all)); done)), by first | (simp; done) | (rw [resState_next]; apply State.stepFrom_same_boot; intros; (first | (simp; done) | (dsimp only; (repeat' (split <;> try dsimp only)) <;> simp_all)); done) | ((repeat' split) <;> first | (simp; done) | (rw [resState_next]; apply State.stepFrom_same_boot; intros; (first | (simp; done) | (dsimp only; (repeat' (split <;> try dsimp only)) <;> simp_all)); done)), by first | (simp; done) | (rw [resState_next]; apply State.stepFrom_same_free; intros; (first | (simp; done) | (dsimp only; (repeat' (split <;> try dsimp only)) <;> simp_all)); done) | ((repeat' split) <;> first | (simp; done) | (rw [resState_next]; apply State.stepFrom_same_free; intros; (first | (simp; done) | (dsimp only; (repeat' (split <;> try dsimp only)) <;> simp_all)); done))⟩
@[simp] theorem execStepNoadv_same (a0 : Nat) (a1 : Src) (a2 : State) :
    (resState a2 (execStepNoadv a0 a1 a2)).pending = a2.pending ∧ (resState a2 (execStepNoadv a0 a1 a2)).clk = a2.clk ∧
      (resState a2 (execStepNoadv a0 a1 a2)).cores = a2.cores ∧ (resState a2 (execStepNoadv a0 a1 a2)).net = a2.net ∧
      (resState a2 (execStepNoadv a0 a1 a2)).boot = a2.boot ∧ (resState a2 (execStepNoadv a0 a1 a2)).free = a2.free := by
  unfold execStepNoadv; refine ⟨by first | (simp; done) | (rw [resState_next]; apply State.stepFrom_same_pending; intros; (first | (simp; done) | (dsimp only; (repeat' (split <;> try dsimp only)) <;> simp_all)); done) | ((repeat' split) <;> first | (simp; done) | (rw [resState_next]; apply State.stepFrom_same_pending; intros; (first | (simp; done) | (dsimp only; (repeat' (split <;> try dsimp only)) <;> simp_all)); done)), by first | (simp; done) | (rw [resState_next]; apply State.stepFrom_same_clk; intros; (first | (simp; done) | (dsimp only; (repeat' (split <;> try dsimp only)) <;> simp_all)); done) | ((repeat' split) <;> first | (simp; done) | (rw [resState_next]; apply State.stepFrom_same_clk; intros; (first | (simp; done) | (dsimp only; (repeat' (split <;> try dsimp only)) <;> simp_all)); done)), by first | (simp; done) | (rw [resState_next]; apply State.stepFrom_same_cores; intros; (first | (simp; done) | (dsimp only; (repeat' (split <;> try dsimp only)) <;> simp_all)); done) | ((repeat' split) <;> first | (simp; done) | (rw [resState_next]; apply State.stepFrom_same_cores; intros; (first | (simp; done) | (dsimp only; (repeat' (split <;> try dsimp only)) <;> simp_all)); done)), by first | (simp; done) | (rw [resState_next]; apply State.stepFrom_same_net; intros; (first | (simp; done) | (dsimp only; (repeat' (split <;> try dsimp only)) <;> simp_all)); done) | ((repeat' split) <;> first | (simp; done) | (rw [resState_next]; apply State.stepFrom_same_net; intros; (first | (simp; done) | (dsimp only; (repeat' (split <;> try dsimp only)) <;> simp_all)); done)), by first | (simp; done) | (rw [resState_next]; apply State.stepFrom_same_boot; intros; (first | (simp; done) | (dsimp only; (repeat' (split <;> try dsimp only)) <;> simp_all)); done) | ((repeat' split) <;> first | (simp; done) | (rw [resState_next]; apply State.stepFrom_same_boot; intros; (first | (simp; done) | (dsimp only; (repeat' (split <;> try dsimp only)) <;> simp_all)); done)), by first | (simp; done) | (rw [resState_next]; apply State.stepFrom_same_free; intros; (first | (simp; done) | (dsimp only; (repeat' (split <;> try dsimp only)) <;> simp_all)); done) | ((repeat' split) <;> first | (simp; done) | (rw [resState_next]; apply State.stepFrom_same_free; intros; (first | (simp; done) | (dsimp only; (repeat' (split <;> try dsimp only)) <;> simp_all)); done))⟩
@[simp] theorem State.batchCtlWrite_same (a0 : State) (a1 : Who) (a2 : Nat) (a3 : Nat) :
    (State.batchCtlWrite a0 a1 a2 a3).pending = a0.pending ∧ (State.batchCtlWrite a0 a1 a2 a3).clk = a0.clk ∧
      (State.batchCtlWrite a0 a1 a2 a3).cores = a0.cores ∧ (State.batchCtlWrite a0 a1 a2 a3).net = a0.net ∧
      (State.batchCtlWrite a0 a1 a2 a3).boot = a0.boot ∧ (State.batchCtlWrite a0 a1 a2 a3).free = a0.free := by
  unfold State.batchCtlWrite; (repeat' split) <;> simp
@[simp] theorem State.batchRange_same (a0 : State) (a1 : Who) (a2 : Nat) (a3 : Nat) (a4 : Nat) :
    (State.batchRange a0 a1 a2 a3 a4).1.pending = a0.pending ∧ (State.batchRange a0 a1 a2 a3 a4).1.clk = a0.clk ∧
      (State.batchRange a0 a1 a2 a3 a4).1.cores = a0.cores ∧ (State.batchRange a0 a1 a2 a3 a4).1.net = a0.net ∧
      (State.batchRange a0 a1 a2 a3 a4).1.mem = a0.mem ∧ (State.batchRange a0 a1 a2 a3 a4).1.span = a0.span ∧
      (State.batchRange a0 a1 a2 a3 a4).1.host = a0.host ∧ (State.batchRange a0 a1 a2 a3 a4).1.boot = a0.boot ∧
      (State.batchRange a0 a1 a2 a3 a4).1.free = a0.free := by
  unfold State.batchRange; (repeat' split) <;> simp (maxDischargeDepth := 12)
@[simp] theorem State.markStretched_same (a0 : State) :
    (State.markStretched a0).pending = a0.pending ∧ (State.markStretched a0).clk = a0.clk ∧ (State.markStretched a0).cores = a0.cores ∧
      (State.markStretched a0).net = a0.net ∧ (State.markStretched a0).mem = a0.mem ∧ (State.markStretched a0).hub = a0.hub ∧
      (State.markStretched a0).span = a0.span ∧ (State.markStretched a0).host = a0.host ∧ (State.markStretched a0).pwr = a0.pwr ∧
      (State.markStretched a0).boot = a0.boot ∧ (State.markStretched a0).out = a0.out ∧ (State.markStretched a0).free = a0.free := by
  unfold State.markStretched; (repeat' split) <;> simp
@[simp] theorem State.modPwr_same (a0 : State) (a1 : Pwr → Pwr) :
    (State.modPwr a0 a1).pending = a0.pending ∧ (State.modPwr a0 a1).clk = a0.clk ∧ (State.modPwr a0 a1).cores = a0.cores ∧
      (State.modPwr a0 a1).net = a0.net ∧ (State.modPwr a0 a1).vats = a0.vats ∧ (State.modPwr a0 a1).mem = a0.mem ∧
      (State.modPwr a0 a1).hub = a0.hub ∧ (State.modPwr a0 a1).span = a0.span ∧ (State.modPwr a0 a1).host = a0.host ∧
      (State.modPwr a0 a1).boot = a0.boot ∧ (State.modPwr a0 a1).out = a0.out ∧ (State.modPwr a0 a1).free = a0.free := by
  unfold State.modPwr; (repeat' split) <;> simp
@[simp] theorem State.beginStretch_same (a0 : State) (a1 : Bool) :
    (State.beginStretch a0 a1).pending = a0.pending ∧ (State.beginStretch a0 a1).clk = a0.clk ∧ (State.beginStretch a0 a1).cores = a0.cores ∧
      (State.beginStretch a0 a1).net = a0.net ∧ (State.beginStretch a0 a1).mem = a0.mem ∧ (State.beginStretch a0 a1).hub = a0.hub ∧
      (State.beginStretch a0 a1).span = a0.span ∧ (State.beginStretch a0 a1).host = a0.host ∧ (State.beginStretch a0 a1).boot = a0.boot ∧
      (State.beginStretch a0 a1).out = a0.out ∧ (State.beginStretch a0 a1).free = a0.free := by
  unfold State.beginStretch; (repeat' split) <;> simp
@[simp] theorem State.bySeal_same_pending (a0 : State) (a1 : Who) (a2 : Nat) (a3 : Prod State Nat) (h3 : a3.1.pending = a0.pending) :
    (State.bySeal a0 a1 a2 a3).1.pending = a0.pending := by
  unfold State.bySeal; (repeat' split) <;> simp_all
@[simp] theorem State.bySeal_same_clk (a0 : State) (a1 : Who) (a2 : Nat) (a3 : Prod State Nat) (h3 : a3.1.clk = a0.clk) :
    (State.bySeal a0 a1 a2 a3).1.clk = a0.clk := by
  unfold State.bySeal; (repeat' split) <;> simp_all
@[simp] theorem State.bySeal_same_cores (a0 : State) (a1 : Who) (a2 : Nat) (a3 : Prod State Nat) (h3 : a3.1.cores = a0.cores) :
    (State.bySeal a0 a1 a2 a3).1.cores = a0.cores := by
  unfold State.bySeal; (repeat' split) <;> simp_all
@[simp] theorem State.bySeal_same_net (a0 : State) (a1 : Who) (a2 : Nat) (a3 : Prod State Nat) (h3 : a3.1.net = a0.net) :
    (State.bySeal a0 a1 a2 a3).1.net = a0.net := by
  unfold State.bySeal; (repeat' split) <;> simp_all
@[simp] theorem State.bySeal_same_vats (a0 : State) (a1 : Who) (a2 : Nat) (a3 : Prod State Nat) (h3 : a3.1.vats = a0.vats) :
    (State.bySeal a0 a1 a2 a3).1.vats = a0.vats := by
  unfold State.bySeal; (repeat' split) <;> simp_all
@[simp] theorem State.bySeal_same_mem (a0 : State) (a1 : Who) (a2 : Nat) (a3 : Prod State Nat) (h3 : a3.1.mem = a0.mem) :
    (State.bySeal a0 a1 a2 a3).1.mem = a0.mem := by
  unfold State.bySeal; (repeat' split) <;> simp_all
@[simp] theorem State.bySeal_same_span (a0 : State) (a1 : Who) (a2 : Nat) (a3 : Prod State Nat) (h3 : a3.1.span = a0.span) :
    (State.bySeal a0 a1 a2 a3).1.span = a0.span := by
  unfold State.bySeal; (repeat' split) <;> simp_all
@[simp] theorem State.bySeal_same_host (a0 : State) (a1 : Who) (a2 : Nat) (a3 : Prod State Nat) (h3 : a3.1.host = a0.host) :
    (State.bySeal a0 a1 a2 a3).1.host = a0.host := by
  unfold State.bySeal; (repeat' split) <;> simp_all
@[simp] theorem State.bySeal_same_boot (a0 : State) (a1 : Who) (a2 : Nat) (a3 : Prod State Nat) (h3 : a3.1.boot = a0.boot) :
    (State.bySeal a0 a1 a2 a3).1.boot = a0.boot := by
  unfold State.bySeal; (repeat' split) <;> simp_all
@[simp] theorem State.bySeal_same_free (a0 : State) (a1 : Who) (a2 : Nat) (a3 : Prod State Nat) (h3 : a3.1.free = a0.free) :
    (State.bySeal a0 a1 a2 a3).1.free = a0.free := by
  unfold State.bySeal; (repeat' split) <;> simp_all
@[simp] theorem State.fenceCore_same (a0 : State) (a1 : Nat) :
    (State.fenceCore a0 a1).pending = a0.pending ∧ (State.fenceCore a0 a1).clk = a0.clk ∧ (State.fenceCore a0 a1).vats = a0.vats ∧
      (State.fenceCore a0 a1).mem = a0.mem ∧ (State.fenceCore a0 a1).hub = a0.hub ∧ (State.fenceCore a0 a1).span = a0.span ∧
      (State.fenceCore a0 a1).host = a0.host ∧ (State.fenceCore a0 a1).pwr = a0.pwr ∧ (State.fenceCore a0 a1).boot = a0.boot ∧
      (State.fenceCore a0 a1).out = a0.out ∧ (State.fenceCore a0 a1).free = a0.free := by
  unfold State.fenceCore; (repeat' split) <;> simp
@[simp] theorem State.endReclaim_same (a0 : State) (a1 : Nat) (a2 : Nat) :
    (State.endReclaim a0 a1 a2).pending = a0.pending ∧ (State.endReclaim a0 a1 a2).clk = a0.clk ∧ (State.endReclaim a0 a1 a2).cores = a0.cores ∧
      (State.endReclaim a0 a1 a2).net = a0.net ∧ (State.endReclaim a0 a1 a2).mem = a0.mem ∧ (State.endReclaim a0 a1 a2).hub = a0.hub ∧
      (State.endReclaim a0 a1 a2).span = a0.span ∧ (State.endReclaim a0 a1 a2).pwr = a0.pwr ∧ (State.endReclaim a0 a1 a2).boot = a0.boot ∧
      (State.endReclaim a0 a1 a2).out = a0.out ∧ (State.endReclaim a0 a1 a2).free = a0.free := by
  unfold State.endReclaim; (repeat' split) <;> simp
@[simp] theorem State.stopAll_same (a0 : State) (a1 : Nat) :
    (State.stopAll a0 a1).pending = a0.pending ∧ (State.stopAll a0 a1).clk = a0.clk ∧ (State.stopAll a0 a1).net = a0.net ∧
      (State.stopAll a0 a1).vats = a0.vats ∧ (State.stopAll a0 a1).mem = a0.mem ∧ (State.stopAll a0 a1).hub = a0.hub ∧
      (State.stopAll a0 a1).span = a0.span ∧ (State.stopAll a0 a1).host = a0.host ∧ (State.stopAll a0 a1).pwr = a0.pwr ∧
      (State.stopAll a0 a1).boot = a0.boot ∧ (State.stopAll a0 a1).out = a0.out ∧ (State.stopAll a0 a1).free = a0.free := by
  unfold State.stopAll; (repeat' split) <;> simp
@[simp] theorem State.stopCounting_same (a0 : State) (a1 : Nat) :
    (State.stopCounting a0 a1).pending = a0.pending ∧ (State.stopCounting a0 a1).clk = a0.clk ∧ (State.stopCounting a0 a1).cores = a0.cores ∧
      (State.stopCounting a0 a1).net = a0.net ∧ (State.stopCounting a0 a1).host = a0.host ∧ (State.stopCounting a0 a1).boot = a0.boot ∧
      (State.stopCounting a0 a1).free = a0.free := by
  unfold State.stopCounting; (repeat' split) <;> simp
@[simp] theorem State.toFaulted_same (a0 : State) (a1 : Nat) :
    (State.toFaulted a0 a1).pending = a0.pending ∧ (State.toFaulted a0 a1).clk = a0.clk ∧ (State.toFaulted a0 a1).net = a0.net ∧
      (State.toFaulted a0 a1).boot = a0.boot ∧ (State.toFaulted a0 a1).free = a0.free := by
  unfold State.toFaulted; (repeat' split) <;> simp
@[simp] theorem State.clearAdv_same (a0 : State) (a1 : Nat) :
    (State.clearAdv a0 a1).pending = a0.pending ∧ (State.clearAdv a0 a1).clk = a0.clk ∧ (State.clearAdv a0 a1).cores = a0.cores ∧
      (State.clearAdv a0 a1).net = a0.net ∧ (State.clearAdv a0 a1).vats = a0.vats ∧ (State.clearAdv a0 a1).mem = a0.mem ∧
      (State.clearAdv a0 a1).span = a0.span ∧ (State.clearAdv a0 a1).host = a0.host ∧ (State.clearAdv a0 a1).pwr = a0.pwr ∧
      (State.clearAdv a0 a1).boot = a0.boot ∧ (State.clearAdv a0 a1).out = a0.out ∧ (State.clearAdv a0 a1).free = a0.free := by
  unfold State.clearAdv; (repeat' split) <;> simp

end Sys2Proof.Machine
end

