-- ==== Sys2Proof/Laws/Frame3.lean ====
section
/-! SUPPORT. What each shared operation leaves as it is, part 3: the fields of State that it never changes. -/

namespace Sys2Proof.Machine

@[simp] theorem State.clearRoutes_same (a0 : State) (a1 : Nat) (a2 : Nat → Bool) :
    (State.clearRoutes a0 a1 a2).pending = a0.pending ∧ (State.clearRoutes a0 a1 a2).clk = a0.clk ∧ (State.clearRoutes a0 a1 a2).cores = a0.cores ∧
      (State.clearRoutes a0 a1 a2).vats = a0.vats ∧ (State.clearRoutes a0 a1 a2).mem = a0.mem ∧ (State.clearRoutes a0 a1 a2).hub = a0.hub ∧
      (State.clearRoutes a0 a1 a2).span = a0.span ∧ (State.clearRoutes a0 a1 a2).host = a0.host ∧ (State.clearRoutes a0 a1 a2).pwr = a0.pwr ∧
      (State.clearRoutes a0 a1 a2).boot = a0.boot ∧ (State.clearRoutes a0 a1 a2).out = a0.out ∧ (State.clearRoutes a0 a1 a2).free = a0.free := by
  unfold State.clearRoutes; (repeat' split) <;> simp
@[simp] theorem State.clearTraces_same (a0 : State) (a1 : Nat) :
    (State.clearTraces a0 a1).pending = a0.pending ∧ (State.clearTraces a0 a1).clk = a0.clk ∧ (State.clearTraces a0 a1).cores = a0.cores ∧
      (State.clearTraces a0 a1).vats = a0.vats ∧ (State.clearTraces a0 a1).mem = a0.mem ∧ (State.clearTraces a0 a1).hub = a0.hub ∧
      (State.clearTraces a0 a1).span = a0.span ∧ (State.clearTraces a0 a1).host = a0.host ∧ (State.clearTraces a0 a1).pwr = a0.pwr ∧
      (State.clearTraces a0 a1).boot = a0.boot ∧ (State.clearTraces a0 a1).out = a0.out ∧ (State.clearTraces a0 a1).free = a0.free := by
  unfold State.clearTraces; (repeat' split) <;> simp
@[simp] theorem State.closeConns_same (a0 : State) (a1 : Nat → Bool) :
    (State.closeConns a0 a1).pending = a0.pending ∧ (State.closeConns a0 a1).clk = a0.clk ∧ (State.closeConns a0 a1).cores = a0.cores ∧
      (State.closeConns a0 a1).vats = a0.vats ∧ (State.closeConns a0 a1).mem = a0.mem ∧ (State.closeConns a0 a1).hub = a0.hub ∧
      (State.closeConns a0 a1).span = a0.span ∧ (State.closeConns a0 a1).host = a0.host ∧ (State.closeConns a0 a1).pwr = a0.pwr ∧
      (State.closeConns a0 a1).boot = a0.boot ∧ (State.closeConns a0 a1).out = a0.out ∧ (State.closeConns a0 a1).free = a0.free := by
  unfold State.closeConns; (repeat' split) <;> simp
@[simp] theorem State.setExport__same (a0 : State) (a1 : Nat) (a2 : Nat) (a3 : Export) :
    (State.setExport_ a0 a1 a2 a3).pending = a0.pending ∧ (State.setExport_ a0 a1 a2 a3).clk = a0.clk ∧
      (State.setExport_ a0 a1 a2 a3).cores = a0.cores ∧ (State.setExport_ a0 a1 a2 a3).net = a0.net ∧
      (State.setExport_ a0 a1 a2 a3).vats = a0.vats ∧ (State.setExport_ a0 a1 a2 a3).mem = a0.mem ∧ (State.setExport_ a0 a1 a2 a3).hub = a0.hub ∧
      (State.setExport_ a0 a1 a2 a3).host = a0.host ∧ (State.setExport_ a0 a1 a2 a3).pwr = a0.pwr ∧ (State.setExport_ a0 a1 a2 a3).boot = a0.boot ∧
      (State.setExport_ a0 a1 a2 a3).out = a0.out ∧ (State.setExport_ a0 a1 a2 a3).free = a0.free := by
  unfold State.setExport_; (repeat' split) <;> simp
@[simp] theorem State.modExport__same (a0 : State) (a1 : Nat) (a2 : Nat) (a3 : Export → Export) :
    (State.modExport_ a0 a1 a2 a3).pending = a0.pending ∧ (State.modExport_ a0 a1 a2 a3).clk = a0.clk ∧
      (State.modExport_ a0 a1 a2 a3).cores = a0.cores ∧ (State.modExport_ a0 a1 a2 a3).net = a0.net ∧
      (State.modExport_ a0 a1 a2 a3).vats = a0.vats ∧ (State.modExport_ a0 a1 a2 a3).mem = a0.mem ∧ (State.modExport_ a0 a1 a2 a3).hub = a0.hub ∧
      (State.modExport_ a0 a1 a2 a3).host = a0.host ∧ (State.modExport_ a0 a1 a2 a3).pwr = a0.pwr ∧ (State.modExport_ a0 a1 a2 a3).boot = a0.boot ∧
      (State.modExport_ a0 a1 a2 a3).out = a0.out ∧ (State.modExport_ a0 a1 a2 a3).free = a0.free := by
  unfold State.modExport_; (repeat' split) <;> simp
@[simp] theorem State.closeExports_same (a0 : State) (a1 : Nat) :
    (State.closeExports a0 a1).pending = a0.pending ∧ (State.closeExports a0 a1).clk = a0.clk ∧ (State.closeExports a0 a1).cores = a0.cores ∧
      (State.closeExports a0 a1).net = a0.net ∧ (State.closeExports a0 a1).vats = a0.vats ∧ (State.closeExports a0 a1).mem = a0.mem ∧
      (State.closeExports a0 a1).hub = a0.hub ∧ (State.closeExports a0 a1).host = a0.host ∧ (State.closeExports a0 a1).pwr = a0.pwr ∧
      (State.closeExports a0 a1).boot = a0.boot ∧ (State.closeExports a0 a1).out = a0.out ∧ (State.closeExports a0 a1).free = a0.free := by
  unfold State.closeExports; (repeat' split) <;> simp
@[simp] theorem State.endMirror_same (a0 : State) (a1 : Nat) :
    (State.endMirror a0 a1).pending = a0.pending ∧ (State.endMirror a0 a1).clk = a0.clk ∧ (State.endMirror a0 a1).cores = a0.cores ∧
      (State.endMirror a0 a1).net = a0.net ∧ (State.endMirror a0 a1).mem = a0.mem ∧ (State.endMirror a0 a1).hub = a0.hub ∧
      (State.endMirror a0 a1).host = a0.host ∧ (State.endMirror a0 a1).pwr = a0.pwr ∧ (State.endMirror a0 a1).boot = a0.boot ∧
      (State.endMirror a0 a1).out = a0.out ∧ (State.endMirror a0 a1).free = a0.free := by
  unfold State.endMirror; (repeat' split) <;> simp
@[simp] theorem State.sendCtl_same (a0 : State) (a1 : Nat) (a2 : Nat) (a3 : List Byte) :
    (State.sendCtl a0 a1 a2 a3).pending = a0.pending ∧ (State.sendCtl a0 a1 a2 a3).clk = a0.clk ∧ (State.sendCtl a0 a1 a2 a3).cores = a0.cores ∧
      (State.sendCtl a0 a1 a2 a3).net = a0.net ∧ (State.sendCtl a0 a1 a2 a3).vats = a0.vats ∧ (State.sendCtl a0 a1 a2 a3).mem = a0.mem ∧
      (State.sendCtl a0 a1 a2 a3).hub = a0.hub ∧ (State.sendCtl a0 a1 a2 a3).host = a0.host ∧ (State.sendCtl a0 a1 a2 a3).pwr = a0.pwr ∧
      (State.sendCtl a0 a1 a2 a3).boot = a0.boot ∧ (State.sendCtl a0 a1 a2 a3).out = a0.out ∧ (State.sendCtl a0 a1 a2 a3).free = a0.free := by
  unfold State.sendCtl; (repeat' split) <;> simp
@[simp] theorem State.resetMirror_same (a0 : State) (a1 : Nat) :
    (State.resetMirror a0 a1).pending = a0.pending ∧ (State.resetMirror a0 a1).clk = a0.clk ∧ (State.resetMirror a0 a1).cores = a0.cores ∧
      (State.resetMirror a0 a1).net = a0.net ∧ (State.resetMirror a0 a1).mem = a0.mem ∧ (State.resetMirror a0 a1).hub = a0.hub ∧
      (State.resetMirror a0 a1).pwr = a0.pwr ∧ (State.resetMirror a0 a1).boot = a0.boot ∧ (State.resetMirror a0 a1).out = a0.out ∧
      (State.resetMirror a0 a1).free = a0.free := by
  unfold State.resetMirror; (repeat' split) <;> simp
@[simp] theorem State.zeroCtrs_same (a0 : State) (a1 : Nat) :
    (State.zeroCtrs a0 a1).pending = a0.pending ∧ (State.zeroCtrs a0 a1).clk = a0.clk ∧ (State.zeroCtrs a0 a1).cores = a0.cores ∧
      (State.zeroCtrs a0 a1).vats = a0.vats ∧ (State.zeroCtrs a0 a1).mem = a0.mem ∧ (State.zeroCtrs a0 a1).hub = a0.hub ∧
      (State.zeroCtrs a0 a1).span = a0.span ∧ (State.zeroCtrs a0 a1).host = a0.host ∧ (State.zeroCtrs a0 a1).pwr = a0.pwr ∧
      (State.zeroCtrs a0 a1).boot = a0.boot ∧ (State.zeroCtrs a0 a1).out = a0.out ∧ (State.zeroCtrs a0 a1).free = a0.free := by
  unfold State.zeroCtrs; (repeat' split) <;> simp
@[simp] theorem State.toWiping_same (a0 : State) (a1 : Nat) :
    (State.toWiping a0 a1).pending = a0.pending ∧ (State.toWiping a0 a1).clk = a0.clk ∧ (State.toWiping a0 a1).boot = a0.boot ∧
      (State.toWiping a0 a1).free = a0.free := by
  unfold State.toWiping; (repeat' split) <;> simp
@[simp] theorem State.fenceVat_same (a0 : State) (a1 : Nat) (a2 : Bool) :
    (State.fenceVat a0 a1 a2).pending = a0.pending ∧ (State.fenceVat a0 a1 a2).clk = a0.clk ∧ (State.fenceVat a0 a1 a2).boot = a0.boot ∧
      (State.fenceVat a0 a1 a2).free = a0.free := by
  unfold State.fenceVat; (repeat' split) <;> simp
@[simp] theorem State.fence_same (a0 : State) (a1 : Nat) :
    (State.fence a0 a1).pending = a0.pending ∧ (State.fence a0 a1).clk = a0.clk ∧ (State.fence a0 a1).boot = a0.boot ∧
      (State.fence a0 a1).free = a0.free := by
  unfold State.fence; dsimp only; (repeat' (split <;> try dsimp only)) <;> simp_all
@[simp] theorem State.fenceWrite_same (a0 : State) (a1 : Who) (a2 : Nat) :
    (State.fenceWrite a0 a1 a2).1.pending = a0.pending ∧ (State.fenceWrite a0 a1 a2).1.clk = a0.clk ∧
      (State.fenceWrite a0 a1 a2).1.boot = a0.boot ∧ (State.fenceWrite a0 a1 a2).1.free = a0.free := by
  unfold State.fenceWrite; (repeat' split) <;> simp
@[simp] theorem State.modBoot_same (a0 : State) (a1 : Boot → Boot) :
    (State.modBoot a0 a1).pending = a0.pending ∧ (State.modBoot a0 a1).clk = a0.clk ∧ (State.modBoot a0 a1).cores = a0.cores ∧
      (State.modBoot a0 a1).net = a0.net ∧ (State.modBoot a0 a1).vats = a0.vats ∧ (State.modBoot a0 a1).mem = a0.mem ∧
      (State.modBoot a0 a1).hub = a0.hub ∧ (State.modBoot a0 a1).span = a0.span ∧ (State.modBoot a0 a1).host = a0.host ∧
      (State.modBoot a0 a1).pwr = a0.pwr ∧ (State.modBoot a0 a1).out = a0.out ∧ (State.modBoot a0 a1).free = a0.free := by
  unfold State.modBoot; (repeat' split) <;> simp
@[simp] theorem State.fuseWrite_same (a0 : State) (a1 : Who) (a2 : Nat) (a3 : Nat) (a4 : Nat) :
    (State.fuseWrite a0 a1 a2 a3 a4).1.pending = a0.pending ∧ (State.fuseWrite a0 a1 a2 a3 a4).1.clk = a0.clk ∧
      (State.fuseWrite a0 a1 a2 a3 a4).1.cores = a0.cores ∧ (State.fuseWrite a0 a1 a2 a3 a4).1.net = a0.net ∧
      (State.fuseWrite a0 a1 a2 a3 a4).1.vats = a0.vats ∧ (State.fuseWrite a0 a1 a2 a3 a4).1.mem = a0.mem ∧
      (State.fuseWrite a0 a1 a2 a3 a4).1.span = a0.span ∧ (State.fuseWrite a0 a1 a2 a3 a4).1.host = a0.host ∧
      (State.fuseWrite a0 a1 a2 a3 a4).1.free = a0.free := by
  unfold State.fuseWrite; (repeat' split) <;> simp
@[simp] theorem State.lcRequest_same (a0 : State) (a1 : Who) (a2 : Nat) (a3 : List Byte) :
    (State.lcRequest a0 a1 a2 a3).1.pending = a0.pending ∧ (State.lcRequest a0 a1 a2 a3).1.clk = a0.clk ∧
      (State.lcRequest a0 a1 a2 a3).1.cores = a0.cores ∧ (State.lcRequest a0 a1 a2 a3).1.net = a0.net ∧
      (State.lcRequest a0 a1 a2 a3).1.vats = a0.vats ∧ (State.lcRequest a0 a1 a2 a3).1.mem = a0.mem ∧
      (State.lcRequest a0 a1 a2 a3).1.span = a0.span ∧ (State.lcRequest a0 a1 a2 a3).1.host = a0.host ∧
      (State.lcRequest a0 a1 a2 a3).1.free = a0.free := by
  unfold State.lcRequest; (repeat' split) <;> simp
@[simp] theorem State.resetWrite_same (a0 : State) (a1 : Who) (a2 : Nat) :
    (State.resetWrite a0 a1 a2).1.pending = a0.pending ∧ (State.resetWrite a0 a1 a2).1.clk = a0.clk ∧
      (State.resetWrite a0 a1 a2).1.cores = a0.cores ∧ (State.resetWrite a0 a1 a2).1.net = a0.net ∧ (State.resetWrite a0 a1 a2).1.vats = a0.vats ∧
      (State.resetWrite a0 a1 a2).1.mem = a0.mem ∧ (State.resetWrite a0 a1 a2).1.span = a0.span ∧ (State.resetWrite a0 a1 a2).1.host = a0.host ∧
      (State.resetWrite a0 a1 a2).1.free = a0.free := by
  unfold State.resetWrite; (repeat' split) <;> simp
@[simp] theorem State.portLeave_same (a0 : State) (a1 : Nat) :
    (State.portLeave a0 a1).pending = a0.pending ∧ (State.portLeave a0 a1).clk = a0.clk ∧ (State.portLeave a0 a1).cores = a0.cores ∧
      (State.portLeave a0 a1).net = a0.net ∧ (State.portLeave a0 a1).vats = a0.vats ∧ (State.portLeave a0 a1).mem = a0.mem ∧
      (State.portLeave a0 a1).host = a0.host ∧ (State.portLeave a0 a1).boot = a0.boot ∧ (State.portLeave a0 a1).free = a0.free := by
  unfold State.portLeave; (repeat' split) <;> simp
@[simp] theorem State.linkTo_same (a0 : State) (a1 : Nat) (a2 : LinkSt) :
    (State.linkTo a0 a1 a2).pending = a0.pending ∧ (State.linkTo a0 a1 a2).clk = a0.clk ∧ (State.linkTo a0 a1 a2).cores = a0.cores ∧
      (State.linkTo a0 a1 a2).net = a0.net ∧ (State.linkTo a0 a1 a2).vats = a0.vats ∧ (State.linkTo a0 a1 a2).mem = a0.mem ∧
      (State.linkTo a0 a1 a2).host = a0.host ∧ (State.linkTo a0 a1 a2).boot = a0.boot ∧ (State.linkTo a0 a1 a2).free = a0.free := by
  unfold State.linkTo; (repeat' split) <;> simp
@[simp] theorem State.seal_same (a0 : State) (a1 : Who) :
    (State.seal a0 a1).1.pending = a0.pending ∧ (State.seal a0 a1).1.clk = a0.clk ∧ (State.seal a0 a1).1.cores = a0.cores ∧
      (State.seal a0 a1).1.vats = a0.vats ∧ (State.seal a0 a1).1.mem = a0.mem ∧ (State.seal a0 a1).1.host = a0.host ∧
      (State.seal a0 a1).1.free = a0.free := by
  unfold State.seal; (repeat' split) <;> simp
@[simp] theorem State.setImem_same (a0 : State) (a1 : Nat) (a2 : Memory) :
    (State.setImem a0 a1 a2).pending = a0.pending ∧ (State.setImem a0 a1 a2).clk = a0.clk ∧ (State.setImem a0 a1 a2).net = a0.net ∧
      (State.setImem a0 a1 a2).vats = a0.vats ∧ (State.setImem a0 a1 a2).mem = a0.mem ∧ (State.setImem a0 a1 a2).hub = a0.hub ∧
      (State.setImem a0 a1 a2).span = a0.span ∧ (State.setImem a0 a1 a2).host = a0.host ∧ (State.setImem a0 a1 a2).pwr = a0.pwr ∧
      (State.setImem a0 a1 a2).boot = a0.boot ∧ (State.setImem a0 a1 a2).out = a0.out ∧ (State.setImem a0 a1 a2).free = a0.free := by
  unfold State.setImem; (repeat' split) <;> simp
@[simp] theorem State.modImem_same (a0 : State) (a1 : Nat) (a2 : Memory → Memory) :
    (State.modImem a0 a1 a2).pending = a0.pending ∧ (State.modImem a0 a1 a2).clk = a0.clk ∧ (State.modImem a0 a1 a2).net = a0.net ∧
      (State.modImem a0 a1 a2).vats = a0.vats ∧ (State.modImem a0 a1 a2).mem = a0.mem ∧ (State.modImem a0 a1 a2).hub = a0.hub ∧
      (State.modImem a0 a1 a2).span = a0.span ∧ (State.modImem a0 a1 a2).host = a0.host ∧ (State.modImem a0 a1 a2).pwr = a0.pwr ∧
      (State.modImem a0 a1 a2).boot = a0.boot ∧ (State.modImem a0 a1 a2).out = a0.out ∧ (State.modImem a0 a1 a2).free = a0.free := by
  unfold State.modImem; (repeat' split) <;> simp
@[simp] theorem State.imemWrite_same (a0 : State) (a1 : Nat) (a2 : Nat) (a3 : List Byte) :
    (State.imemWrite a0 a1 a2 a3).pending = a0.pending ∧ (State.imemWrite a0 a1 a2 a3).clk = a0.clk ∧ (State.imemWrite a0 a1 a2 a3).net = a0.net ∧
      (State.imemWrite a0 a1 a2 a3).vats = a0.vats ∧ (State.imemWrite a0 a1 a2 a3).mem = a0.mem ∧ (State.imemWrite a0 a1 a2 a3).hub = a0.hub ∧
      (State.imemWrite a0 a1 a2 a3).span = a0.span ∧ (State.imemWrite a0 a1 a2 a3).host = a0.host ∧ (State.imemWrite a0 a1 a2 a3).pwr = a0.pwr ∧
      (State.imemWrite a0 a1 a2 a3).boot = a0.boot ∧ (State.imemWrite a0 a1 a2 a3).out = a0.out ∧ (State.imemWrite a0 a1 a2 a3).free = a0.free := by
  unfold State.imemWrite; (repeat' split) <;> simp
@[simp] theorem State.bootSlot_same (a0 : State) (a1 : Nat) (a2 : Nat) :
    (State.bootSlot a0 a1 a2).2.pending = a0.pending ∧ (State.bootSlot a0 a1 a2).2.clk = a0.clk ∧ (State.bootSlot a0 a1 a2).2.net = a0.net ∧
      (State.bootSlot a0 a1 a2).2.vats = a0.vats ∧ (State.bootSlot a0 a1 a2).2.mem = a0.mem ∧ (State.bootSlot a0 a1 a2).2.hub = a0.hub ∧
      (State.bootSlot a0 a1 a2).2.span = a0.span ∧ (State.bootSlot a0 a1 a2).2.host = a0.host ∧ (State.bootSlot a0 a1 a2).2.pwr = a0.pwr ∧
      (State.bootSlot a0 a1 a2).2.out = a0.out ∧ (State.bootSlot a0 a1 a2).2.free = a0.free := by
  unfold State.bootSlot; simp
@[simp] theorem State.holdStretch_same (a0 : State) :
    (State.holdStretch a0).pending = a0.pending ∧ (State.holdStretch a0).clk = a0.clk ∧ (State.holdStretch a0).cores = a0.cores ∧
      (State.holdStretch a0).net = a0.net ∧ (State.holdStretch a0).mem = a0.mem ∧ (State.holdStretch a0).hub = a0.hub ∧
      (State.holdStretch a0).span = a0.span ∧ (State.holdStretch a0).host = a0.host ∧ (State.holdStretch a0).boot = a0.boot ∧
      (State.holdStretch a0).out = a0.out ∧ (State.holdStretch a0).free = a0.free := by
  unfold State.holdStretch; (repeat' split) <;> simp
@[simp] theorem State.sagEvent_same (a0 : State) (a1 : Nat) :
    (State.sagEvent a0 a1).pending = a0.pending ∧ (State.sagEvent a0 a1).clk = a0.clk ∧ (State.sagEvent a0 a1).cores = a0.cores ∧
      (State.sagEvent a0 a1).net = a0.net ∧ (State.sagEvent a0 a1).vats = a0.vats ∧ (State.sagEvent a0 a1).mem = a0.mem ∧
      (State.sagEvent a0 a1).span = a0.span ∧ (State.sagEvent a0 a1).host = a0.host ∧ (State.sagEvent a0 a1).boot = a0.boot ∧
      (State.sagEvent a0 a1).free = a0.free := by
  unfold State.sagEvent; (repeat' split) <;> simp
@[simp] theorem State.capCheck_same (a0 : State) :
    (State.capCheck a0).pending = a0.pending ∧ (State.capCheck a0).clk = a0.clk ∧ (State.capCheck a0).cores = a0.cores ∧
      (State.capCheck a0).net = a0.net ∧ (State.capCheck a0).mem = a0.mem ∧ (State.capCheck a0).span = a0.span ∧
      (State.capCheck a0).host = a0.host ∧ (State.capCheck a0).boot = a0.boot ∧ (State.capCheck a0).free = a0.free := by
  unfold State.capCheck; (repeat' split) <;> simp
@[simp] theorem State.chTableWrite_same (a0 : State) (a1 : Who) (a2 : Nat) (a3 : Nat) (a4 : Nat) (a5 : Nat) (a6 : Nat) :
    (State.chTableWrite a0 a1 a2 a3 a4 a5 a6).1.pending = a0.pending ∧ (State.chTableWrite a0 a1 a2 a3 a4 a5 a6).1.clk = a0.clk ∧
      (State.chTableWrite a0 a1 a2 a3 a4 a5 a6).1.net = a0.net ∧ (State.chTableWrite a0 a1 a2 a3 a4 a5 a6).1.vats = a0.vats ∧
      (State.chTableWrite a0 a1 a2 a3 a4 a5 a6).1.mem = a0.mem ∧ (State.chTableWrite a0 a1 a2 a3 a4 a5 a6).1.span = a0.span ∧
      (State.chTableWrite a0 a1 a2 a3 a4 a5 a6).1.host = a0.host ∧ (State.chTableWrite a0 a1 a2 a3 a4 a5 a6).1.boot = a0.boot ∧
      (State.chTableWrite a0 a1 a2 a3 a4 a5 a6).1.free = a0.free := by
  unfold State.chTableWrite; (repeat' split) <;> simp
@[simp] theorem State.chanRefused_same (a0 : State) (a1 : Nat) (a2 : ChMsg) (a3 : Nat) :
    (State.chanRefused a0 a1 a2 a3).pending = a0.pending ∧ (State.chanRefused a0 a1 a2 a3).clk = a0.clk ∧
      (State.chanRefused a0 a1 a2 a3).cores = a0.cores ∧ (State.chanRefused a0 a1 a2 a3).net = a0.net ∧
      (State.chanRefused a0 a1 a2 a3).vats = a0.vats ∧ (State.chanRefused a0 a1 a2 a3).mem = a0.mem ∧
      (State.chanRefused a0 a1 a2 a3).host = a0.host ∧ (State.chanRefused a0 a1 a2 a3).boot = a0.boot ∧
      (State.chanRefused a0 a1 a2 a3).free = a0.free := by
  unfold State.chanRefused; (repeat' split) <;> simp
@[simp] theorem State.chanRefuse_same (a0 : State) (a1 : Nat) (a2 : Nat) (a3 : ChMsg) (a4 : Nat) (a5 : Bool) :
    (State.chanRefuse a0 a1 a2 a3 a4 a5).pending = a0.pending ∧ (State.chanRefuse a0 a1 a2 a3 a4 a5).clk = a0.clk ∧
      (State.chanRefuse a0 a1 a2 a3 a4 a5).net = a0.net ∧ (State.chanRefuse a0 a1 a2 a3 a4 a5).vats = a0.vats ∧
      (State.chanRefuse a0 a1 a2 a3 a4 a5).mem = a0.mem ∧ (State.chanRefuse a0 a1 a2 a3 a4 a5).host = a0.host ∧
      (State.chanRefuse a0 a1 a2 a3 a4 a5).boot = a0.boot ∧ (State.chanRefuse a0 a1 a2 a3 a4 a5).free = a0.free := by
  unfold State.chanRefuse; (repeat' split) <;> simp
@[simp] theorem State.chanArrive_same_pending (a0 : State) (a1 : Nat) (a2 : Nat) (a3 : ChMsg) (a4 : State → State)
      (h4 : ∀ u, (a4 u).pending = u.pending) :
    (State.chanArrive a0 a1 a2 a3 a4).pending = a0.pending := by
  unfold State.chanArrive; (repeat' split) <;> simp_all
@[simp] theorem State.chanArrive_same_clk (a0 : State) (a1 : Nat) (a2 : Nat) (a3 : ChMsg) (a4 : State → State) (h4 : ∀ u, (a4 u).clk = u.clk) :
    (State.chanArrive a0 a1 a2 a3 a4).clk = a0.clk := by
  unfold State.chanArrive; (repeat' split) <;> simp_all
@[simp] theorem State.chanArrive_same_net (a0 : State) (a1 : Nat) (a2 : Nat) (a3 : ChMsg) (a4 : State → State) (h4 : ∀ u, (a4 u).net = u.net) :
    (State.chanArrive a0 a1 a2 a3 a4).net = a0.net := by
  unfold State.chanArrive; (repeat' split) <;> simp_all
@[simp] theorem State.chanArrive_same_vats (a0 : State) (a1 : Nat) (a2 : Nat) (a3 : ChMsg) (a4 : State → State) (h4 : ∀ u, (a4 u).vats = u.vats) :
    (State.chanArrive a0 a1 a2 a3 a4).vats = a0.vats := by
  unfold State.chanArrive; (repeat' split) <;> simp_all
@[simp] theorem State.chanArrive_same_mem (a0 : State) (a1 : Nat) (a2 : Nat) (a3 : ChMsg) (a4 : State → State) (h4 : ∀ u, (a4 u).mem = u.mem) :
    (State.chanArrive a0 a1 a2 a3 a4).mem = a0.mem := by
  unfold State.chanArrive; (repeat' split) <;> simp_all
@[simp] theorem State.chanArrive_same_host (a0 : State) (a1 : Nat) (a2 : Nat) (a3 : ChMsg) (a4 : State → State) (h4 : ∀ u, (a4 u).host = u.host) :
    (State.chanArrive a0 a1 a2 a3 a4).host = a0.host := by
  unfold State.chanArrive; (repeat' split) <;> simp_all
@[simp] theorem State.chanArrive_same_boot (a0 : State) (a1 : Nat) (a2 : Nat) (a3 : ChMsg) (a4 : State → State) (h4 : ∀ u, (a4 u).boot = u.boot) :
    (State.chanArrive a0 a1 a2 a3 a4).boot = a0.boot := by
  unfold State.chanArrive; (repeat' split) <;> simp_all
@[simp] theorem State.chanArrive_same_free (a0 : State) (a1 : Nat) (a2 : Nat) (a3 : ChMsg) (a4 : State → State) (h4 : ∀ u, (a4 u).free = u.free) :
    (State.chanArrive a0 a1 a2 a3 a4).free = a0.free := by
  unfold State.chanArrive; (repeat' split) <;> simp_all
@[simp] theorem State.joinTx_same (a0 : State) (a1 : Nat) (a2 : TxFrame) :
    (State.joinTx a0 a1 a2).pending = a0.pending ∧ (State.joinTx a0 a1 a2).clk = a0.clk ∧ (State.joinTx a0 a1 a2).cores = a0.cores ∧
      (State.joinTx a0 a1 a2).net = a0.net ∧ (State.joinTx a0 a1 a2).vats = a0.vats ∧ (State.joinTx a0 a1 a2).mem = a0.mem ∧
      (State.joinTx a0 a1 a2).host = a0.host ∧ (State.joinTx a0 a1 a2).boot = a0.boot ∧ (State.joinTx a0 a1 a2).free = a0.free := by
  unfold State.joinTx; (repeat' split) <;> simp
@[simp] theorem State.chanOut_same (a0 : State) (a1 : Nat) (a2 : Nat) (a3 : Nat) (a4 : Nat) (a5 : Nat) (a6 : Option Nat) (a7 : ChMsg) :
    (State.chanOut a0 a1 a2 a3 a4 a5 a6 a7).pending = a0.pending ∧ (State.chanOut a0 a1 a2 a3 a4 a5 a6 a7).clk = a0.clk ∧
      (State.chanOut a0 a1 a2 a3 a4 a5 a6 a7).cores = a0.cores ∧ (State.chanOut a0 a1 a2 a3 a4 a5 a6 a7).net = a0.net ∧
      (State.chanOut a0 a1 a2 a3 a4 a5 a6 a7).vats = a0.vats ∧ (State.chanOut a0 a1 a2 a3 a4 a5 a6 a7).mem = a0.mem ∧
      (State.chanOut a0 a1 a2 a3 a4 a5 a6 a7).host = a0.host ∧ (State.chanOut a0 a1 a2 a3 a4 a5 a6 a7).boot = a0.boot ∧
      (State.chanOut a0 a1 a2 a3 a4 a5 a6 a7).free = a0.free := by
  unfold State.chanOut; (repeat' split) <;> simp
@[simp] theorem State.chargeRx_same (a0 : State) (a1 : Nat) (a2 : RxFrame) :
    (State.chargeRx a0 a1 a2).pending = a0.pending ∧ (State.chargeRx a0 a1 a2).clk = a0.clk ∧ (State.chargeRx a0 a1 a2).cores = a0.cores ∧
      (State.chargeRx a0 a1 a2).net = a0.net ∧ (State.chargeRx a0 a1 a2).mem = a0.mem ∧ (State.chargeRx a0 a1 a2).hub = a0.hub ∧
      (State.chargeRx a0 a1 a2).span = a0.span ∧ (State.chargeRx a0 a1 a2).host = a0.host ∧ (State.chargeRx a0 a1 a2).pwr = a0.pwr ∧
      (State.chargeRx a0 a1 a2).boot = a0.boot ∧ (State.chargeRx a0 a1 a2).out = a0.out ∧ (State.chargeRx a0 a1 a2).free = a0.free := by
  unfold State.chargeRx; (repeat' split) <;> simp
@[simp] theorem State.poisonIn_same (a0 : State) (a1 : Nat) (a2 : Nat) (a3 : Nat) (a4 : Frame) :
    (State.poisonIn a0 a1 a2 a3 a4).pending = a0.pending ∧ (State.poisonIn a0 a1 a2 a3 a4).clk = a0.clk ∧
      (State.poisonIn a0 a1 a2 a3 a4).cores = a0.cores ∧ (State.poisonIn a0 a1 a2 a3 a4).net = a0.net ∧
      (State.poisonIn a0 a1 a2 a3 a4).mem = a0.mem ∧ (State.poisonIn a0 a1 a2 a3 a4).span = a0.span ∧
      (State.poisonIn a0 a1 a2 a3 a4).host = a0.host ∧ (State.poisonIn a0 a1 a2 a3 a4).boot = a0.boot ∧
      (State.poisonIn a0 a1 a2 a3 a4).free = a0.free := by
  unfold State.poisonIn; (repeat' split) <;> simp
@[simp] theorem State.chanRx_same (a0 : State) (a1 : Nat) (a2 : RxFrame) (a3 : Nat) :
    (State.chanRx a0 a1 a2 a3).pending = a0.pending ∧ (State.chanRx a0 a1 a2 a3).clk = a0.clk ∧ (State.chanRx a0 a1 a2 a3).cores = a0.cores ∧
      (State.chanRx a0 a1 a2 a3).net = a0.net ∧ (State.chanRx a0 a1 a2 a3).mem = a0.mem ∧ (State.chanRx a0 a1 a2 a3).span = a0.span ∧
      (State.chanRx a0 a1 a2 a3).host = a0.host ∧ (State.chanRx a0 a1 a2 a3).boot = a0.boot ∧ (State.chanRx a0 a1 a2 a3).free = a0.free := by
  unfold State.chanRx; (repeat' split) <;> simp
@[simp] theorem State.chargeAcc_same (a0 : State) (a1 : Nat) (a2 : Prod Nat Nat) :
    (State.chargeAcc a0 a1 a2).pending = a0.pending ∧ (State.chargeAcc a0 a1 a2).clk = a0.clk ∧ (State.chargeAcc a0 a1 a2).cores = a0.cores ∧
      (State.chargeAcc a0 a1 a2).net = a0.net ∧ (State.chargeAcc a0 a1 a2).mem = a0.mem ∧ (State.chargeAcc a0 a1 a2).hub = a0.hub ∧
      (State.chargeAcc a0 a1 a2).span = a0.span ∧ (State.chargeAcc a0 a1 a2).host = a0.host ∧ (State.chargeAcc a0 a1 a2).pwr = a0.pwr ∧
      (State.chargeAcc a0 a1 a2).boot = a0.boot ∧ (State.chargeAcc a0 a1 a2).out = a0.out ∧ (State.chargeAcc a0 a1 a2).free = a0.free := by
  unfold State.chargeAcc; (repeat' split) <;> simp
@[simp] theorem State.chargeOut_same (a0 : State) (a1 : Nat) (a2 : Nat → Nat) (a3 : List Opnd) :
    (State.chargeOut a0 a1 a2 a3).pending = a0.pending ∧ (State.chargeOut a0 a1 a2 a3).clk = a0.clk ∧
      (State.chargeOut a0 a1 a2 a3).cores = a0.cores ∧ (State.chargeOut a0 a1 a2 a3).net = a0.net ∧ (State.chargeOut a0 a1 a2 a3).mem = a0.mem ∧
      (State.chargeOut a0 a1 a2 a3).hub = a0.hub ∧ (State.chargeOut a0 a1 a2 a3).span = a0.span ∧ (State.chargeOut a0 a1 a2 a3).host = a0.host ∧
      (State.chargeOut a0 a1 a2 a3).pwr = a0.pwr ∧ (State.chargeOut a0 a1 a2 a3).boot = a0.boot ∧ (State.chargeOut a0 a1 a2 a3).out = a0.out ∧
      (State.chargeOut a0 a1 a2 a3).free = a0.free := by
  unfold State.chargeOut; (repeat' split) <;> simp
@[simp] theorem State.chargeRange_same (a0 : State) (a1 : Nat) (a2 : Nat) (a3 : Nat) (a4 : Nat) :
    (State.chargeRange a0 a1 a2 a3 a4).pending = a0.pending ∧ (State.chargeRange a0 a1 a2 a3 a4).clk = a0.clk ∧
      (State.chargeRange a0 a1 a2 a3 a4).cores = a0.cores ∧ (State.chargeRange a0 a1 a2 a3 a4).net = a0.net ∧
      (State.chargeRange a0 a1 a2 a3 a4).mem = a0.mem ∧ (State.chargeRange a0 a1 a2 a3 a4).hub = a0.hub ∧
      (State.chargeRange a0 a1 a2 a3 a4).span = a0.span ∧ (State.chargeRange a0 a1 a2 a3 a4).host = a0.host ∧
      (State.chargeRange a0 a1 a2 a3 a4).pwr = a0.pwr ∧ (State.chargeRange a0 a1 a2 a3 a4).boot = a0.boot ∧
      (State.chargeRange a0 a1 a2 a3 a4).out = a0.out ∧ (State.chargeRange a0 a1 a2 a3 a4).free = a0.free := by
  unfold State.chargeRange; (repeat' split) <;> simp
@[simp] theorem State.chargeRemote_same (a0 : State) (a1 : Nat) (a2 : ARef) (a3 : ARef) (a4 : Nat) (a5 : Nat) :
    (State.chargeRemote a0 a1 a2 a3 a4 a5).pending = a0.pending ∧ (State.chargeRemote a0 a1 a2 a3 a4 a5).clk = a0.clk ∧
      (State.chargeRemote a0 a1 a2 a3 a4 a5).cores = a0.cores ∧ (State.chargeRemote a0 a1 a2 a3 a4 a5).net = a0.net ∧
      (State.chargeRemote a0 a1 a2 a3 a4 a5).mem = a0.mem ∧ (State.chargeRemote a0 a1 a2 a3 a4 a5).hub = a0.hub ∧
      (State.chargeRemote a0 a1 a2 a3 a4 a5).span = a0.span ∧ (State.chargeRemote a0 a1 a2 a3 a4 a5).host = a0.host ∧
      (State.chargeRemote a0 a1 a2 a3 a4 a5).pwr = a0.pwr ∧ (State.chargeRemote a0 a1 a2 a3 a4 a5).boot = a0.boot ∧
      (State.chargeRemote a0 a1 a2 a3 a4 a5).out = a0.out ∧ (State.chargeRemote a0 a1 a2 a3 a4 a5).free = a0.free := by
  unfold State.chargeRemote; (repeat' split) <;> simp
@[simp] theorem State.chargeRow_same (a0 : State) (a1 : Nat) (a2 : Nat) (a3 : Nat) (a4 : Nat) (a5 : Nat) :
    (State.chargeRow a0 a1 a2 a3 a4 a5).pending = a0.pending ∧ (State.chargeRow a0 a1 a2 a3 a4 a5).clk = a0.clk ∧
      (State.chargeRow a0 a1 a2 a3 a4 a5).cores = a0.cores ∧ (State.chargeRow a0 a1 a2 a3 a4 a5).net = a0.net ∧
      (State.chargeRow a0 a1 a2 a3 a4 a5).mem = a0.mem ∧ (State.chargeRow a0 a1 a2 a3 a4 a5).hub = a0.hub ∧
      (State.chargeRow a0 a1 a2 a3 a4 a5).span = a0.span ∧ (State.chargeRow a0 a1 a2 a3 a4 a5).host = a0.host ∧
      (State.chargeRow a0 a1 a2 a3 a4 a5).pwr = a0.pwr ∧ (State.chargeRow a0 a1 a2 a3 a4 a5).boot = a0.boot ∧
      (State.chargeRow a0 a1 a2 a3 a4 a5).out = a0.out ∧ (State.chargeRow a0 a1 a2 a3 a4 a5).free = a0.free := by
  unfold State.chargeRow; (repeat' split) <;> simp
@[simp] theorem State.chargeTag_same (a0 : State) (a1 : TagEnt) (a2 : RxFrame) :
    (State.chargeTag a0 a1 a2).pending = a0.pending ∧ (State.chargeTag a0 a1 a2).clk = a0.clk ∧ (State.chargeTag a0 a1 a2).cores = a0.cores ∧
      (State.chargeTag a0 a1 a2).net = a0.net ∧ (State.chargeTag a0 a1 a2).mem = a0.mem ∧ (State.chargeTag a0 a1 a2).hub = a0.hub ∧
      (State.chargeTag a0 a1 a2).span = a0.span ∧ (State.chargeTag a0 a1 a2).host = a0.host ∧ (State.chargeTag a0 a1 a2).pwr = a0.pwr ∧
      (State.chargeTag a0 a1 a2).boot = a0.boot ∧ (State.chargeTag a0 a1 a2).out = a0.out ∧ (State.chargeTag a0 a1 a2).free = a0.free := by
  unfold State.chargeTag; (repeat' split) <;> simp
@[simp] theorem State.haltQueue_same (a0 : State) (a1 : Nat) (a2 : Nat) (a3 : Nat) (a4 : W256) :
    (State.haltQueue a0 a1 a2 a3 a4).pending = a0.pending ∧ (State.haltQueue a0 a1 a2 a3 a4).clk = a0.clk ∧
      (State.haltQueue a0 a1 a2 a3 a4).vats = a0.vats ∧ (State.haltQueue a0 a1 a2 a3 a4).mem = a0.mem ∧
      (State.haltQueue a0 a1 a2 a3 a4).span = a0.span ∧ (State.haltQueue a0 a1 a2 a3 a4).host = a0.host ∧
      (State.haltQueue a0 a1 a2 a3 a4).boot = a0.boot ∧ (State.haltQueue a0 a1 a2 a3 a4).free = a0.free := by
  unfold State.haltQueue; (repeat' split) <;> simp
@[simp] theorem State.popQ_same (a0 : State) (a1 : Nat) (a2 : Nat) :
    (State.popQ a0 a1 a2).pending = a0.pending ∧ (State.popQ a0 a1 a2).clk = a0.clk ∧ (State.popQ a0 a1 a2).vats = a0.vats ∧
      (State.popQ a0 a1 a2).mem = a0.mem ∧ (State.popQ a0 a1 a2).hub = a0.hub ∧ (State.popQ a0 a1 a2).span = a0.span ∧
      (State.popQ a0 a1 a2).host = a0.host ∧ (State.popQ a0 a1 a2).pwr = a0.pwr ∧ (State.popQ a0 a1 a2).boot = a0.boot ∧
      (State.popQ a0 a1 a2).out = a0.out ∧ (State.popQ a0 a1 a2).free = a0.free := by
  unfold State.popQ; (repeat' split) <;> simp
@[simp] theorem State.dropQueueWatch_same (a0 : State) (a1 : Nat) (a2 : Nat) :
    (State.dropQueueWatch a0 a1 a2).pending = a0.pending ∧ (State.dropQueueWatch a0 a1 a2).clk = a0.clk ∧
      (State.dropQueueWatch a0 a1 a2).cores = a0.cores ∧ (State.dropQueueWatch a0 a1 a2).vats = a0.vats ∧
      (State.dropQueueWatch a0 a1 a2).mem = a0.mem ∧ (State.dropQueueWatch a0 a1 a2).hub = a0.hub ∧
      (State.dropQueueWatch a0 a1 a2).span = a0.span ∧ (State.dropQueueWatch a0 a1 a2).host = a0.host ∧
      (State.dropQueueWatch a0 a1 a2).pwr = a0.pwr ∧ (State.dropQueueWatch a0 a1 a2).boot = a0.boot ∧
      (State.dropQueueWatch a0 a1 a2).out = a0.out ∧ (State.dropQueueWatch a0 a1 a2).free = a0.free := by
  unfold State.dropQueueWatch; (repeat' split) <;> simp
@[simp] theorem State.reject_same (a0 : State) (a1 : Nat) (a2 : Nat) (a3 : Nat) (a4 : W256) :
    (State.reject a0 a1 a2 a3 a4).pending = a0.pending ∧ (State.reject a0 a1 a2 a3 a4).clk = a0.clk ∧
      (State.reject a0 a1 a2 a3 a4).vats = a0.vats ∧ (State.reject a0 a1 a2 a3 a4).mem = a0.mem ∧ (State.reject a0 a1 a2 a3 a4).span = a0.span ∧
      (State.reject a0 a1 a2 a3 a4).host = a0.host ∧ (State.reject a0 a1 a2 a3 a4).boot = a0.boot ∧ (State.reject a0 a1 a2 a3 a4).free = a0.free := by
  unfold State.reject; (repeat' split) <;> simp
@[simp] theorem State.chnAccept_same_pending (a0 : State) (a1 : Nat) (a2 : Nat) (a3 : State → Nat → State)
      (h3 : ∀ u x, (a3 u x).pending = u.pending) :
    (State.chnAccept a0 a1 a2 a3).pending = a0.pending := by
  unfold State.chnAccept; (repeat' split) <;> simp_all
@[simp] theorem State.chnAccept_same_clk (a0 : State) (a1 : Nat) (a2 : Nat) (a3 : State → Nat → State) (h3 : ∀ u x, (a3 u x).clk = u.clk) :
    (State.chnAccept a0 a1 a2 a3).clk = a0.clk := by
  unfold State.chnAccept; (repeat' split) <;> simp_all
@[simp] theorem State.chnAccept_same_vats (a0 : State) (a1 : Nat) (a2 : Nat) (a3 : State → Nat → State) (h3 : ∀ u x, (a3 u x).vats = u.vats) :
    (State.chnAccept a0 a1 a2 a3).vats = a0.vats := by
  unfold State.chnAccept; (repeat' split) <;> simp_all
@[simp] theorem State.chnAccept_same_mem (a0 : State) (a1 : Nat) (a2 : Nat) (a3 : State → Nat → State) (h3 : ∀ u x, (a3 u x).mem = u.mem) :
    (State.chnAccept a0 a1 a2 a3).mem = a0.mem := by
  unfold State.chnAccept; (repeat' split) <;> simp_all
@[simp] theorem State.chnAccept_same_span (a0 : State) (a1 : Nat) (a2 : Nat) (a3 : State → Nat → State) (h3 : ∀ u x, (a3 u x).span = u.span) :
    (State.chnAccept a0 a1 a2 a3).span = a0.span := by
  unfold State.chnAccept; (repeat' split) <;> simp_all
@[simp] theorem State.chnAccept_same_host (a0 : State) (a1 : Nat) (a2 : Nat) (a3 : State → Nat → State) (h3 : ∀ u x, (a3 u x).host = u.host) :
    (State.chnAccept a0 a1 a2 a3).host = a0.host := by
  unfold State.chnAccept; (repeat' split) <;> simp_all
@[simp] theorem State.chnAccept_same_boot (a0 : State) (a1 : Nat) (a2 : Nat) (a3 : State → Nat → State) (h3 : ∀ u x, (a3 u x).boot = u.boot) :
    (State.chnAccept a0 a1 a2 a3).boot = a0.boot := by
  unfold State.chnAccept; (repeat' split) <;> simp_all
@[simp] theorem State.chnAccept_same_free (a0 : State) (a1 : Nat) (a2 : Nat) (a3 : State → Nat → State) (h3 : ∀ u x, (a3 u x).free = u.free) :
    (State.chnAccept a0 a1 a2 a3).free = a0.free := by
  unfold State.chnAccept; (repeat' split) <;> simp_all
@[simp] theorem State.chnEnd_same (a0 : State) (a1 : Nat) (a2 : W256) :
    (State.chnEnd a0 a1 a2).pending = a0.pending ∧ (State.chnEnd a0 a1 a2).clk = a0.clk ∧ (State.chnEnd a0 a1 a2).net = a0.net ∧
      (State.chnEnd a0 a1 a2).vats = a0.vats ∧ (State.chnEnd a0 a1 a2).mem = a0.mem ∧ (State.chnEnd a0 a1 a2).hub = a0.hub ∧
      (State.chnEnd a0 a1 a2).span = a0.span ∧ (State.chnEnd a0 a1 a2).host = a0.host ∧ (State.chnEnd a0 a1 a2).pwr = a0.pwr ∧
      (State.chnEnd a0 a1 a2).boot = a0.boot ∧ (State.chnEnd a0 a1 a2).out = a0.out ∧ (State.chnEnd a0 a1 a2).free = a0.free := by
  unfold State.chnEnd; (repeat' split) <;> simp
@[simp] theorem State.sigDone_same (a0 : State) (a1 : Nat) (a2 : Nat) (a3 : W256) :
    (State.sigDone a0 a1 a2 a3).pending = a0.pending ∧ (State.sigDone a0 a1 a2 a3).clk = a0.clk ∧ (State.sigDone a0 a1 a2 a3).mem = a0.mem ∧
      (State.sigDone a0 a1 a2 a3).span = a0.span ∧ (State.sigDone a0 a1 a2 a3).host = a0.host ∧ (State.sigDone a0 a1 a2 a3).boot = a0.boot ∧
      (State.sigDone a0 a1 a2 a3).free = a0.free := by
  unfold State.sigDone; (repeat' split) <;> simp
@[simp] theorem State.chnDone_same (a0 : State) (a1 : Nat) :
    (State.chnDone a0 a1).pending = a0.pending ∧ (State.chnDone a0 a1).clk = a0.clk ∧ (State.chnDone a0 a1).mem = a0.mem ∧
      (State.chnDone a0 a1).span = a0.span ∧ (State.chnDone a0 a1).host = a0.host ∧ (State.chnDone a0 a1).boot = a0.boot ∧
      (State.chnDone a0 a1).free = a0.free := by
  unfold State.chnDone; (repeat' split) <;> simp
@[simp] theorem State.chnHalt_same (a0 : State) (a1 : Nat) (a2 : Nat) :
    (State.chnHalt a0 a1 a2).pending = a0.pending ∧ (State.chnHalt a0 a1 a2).clk = a0.clk ∧ (State.chnHalt a0 a1 a2).vats = a0.vats ∧
      (State.chnHalt a0 a1 a2).mem = a0.mem ∧ (State.chnHalt a0 a1 a2).span = a0.span ∧ (State.chnHalt a0 a1 a2).host = a0.host ∧
      (State.chnHalt a0 a1 a2).boot = a0.boot ∧ (State.chnHalt a0 a1 a2).free = a0.free := by
  unfold State.chnHalt; (repeat' split) <;> simp
@[simp] theorem State.detBreakCore_same (a0 : State) (a1 : Nat) (a2 : Nat) :
    (State.detBreakCore a0 a1 a2).pending = a0.pending ∧ (State.detBreakCore a0 a1 a2).clk = a0.clk ∧
      (State.detBreakCore a0 a1 a2).cores = a0.cores ∧ (State.detBreakCore a0 a1 a2).net = a0.net ∧ (State.detBreakCore a0 a1 a2).mem = a0.mem ∧
      (State.detBreakCore a0 a1 a2).span = a0.span ∧ (State.detBreakCore a0 a1 a2).host = a0.host ∧ (State.detBreakCore a0 a1 a2).boot = a0.boot ∧
      (State.detBreakCore a0 a1 a2).free = a0.free := by
  unfold State.detBreakCore; (repeat' split) <;> simp
@[simp] theorem State.chnLanded_same (a0 : State) (a1 : Nat) :
    (State.chnLanded a0 a1).pending = a0.pending ∧ (State.chnLanded a0 a1).clk = a0.clk ∧ (State.chnLanded a0 a1).mem = a0.mem ∧
      (State.chnLanded a0 a1).span = a0.span ∧ (State.chnLanded a0 a1).host = a0.host ∧ (State.chnLanded a0 a1).boot = a0.boot ∧
      (State.chnLanded a0 a1).free = a0.free := by
  unfold State.chnLanded; (repeat' split) <;> simp
@[simp] theorem State.chnRefusalDone_same (a0 : State) (a1 : Nat) :
    (State.chnRefusalDone a0 a1).pending = a0.pending ∧ (State.chnRefusalDone a0 a1).clk = a0.clk ∧ (State.chnRefusalDone a0 a1).vats = a0.vats ∧
      (State.chnRefusalDone a0 a1).mem = a0.mem ∧ (State.chnRefusalDone a0 a1).span = a0.span ∧ (State.chnRefusalDone a0 a1).host = a0.host ∧
      (State.chnRefusalDone a0 a1).boot = a0.boot ∧ (State.chnRefusalDone a0 a1).free = a0.free := by
  unfold State.chnRefusalDone; (repeat' split) <;> simp
@[simp] theorem State.chnStall_same (a0 : State) (a1 : Nat) :
    (State.chnStall a0 a1).pending = a0.pending ∧ (State.chnStall a0 a1).clk = a0.clk ∧ (State.chnStall a0 a1).net = a0.net ∧
      (State.chnStall a0 a1).vats = a0.vats ∧ (State.chnStall a0 a1).mem = a0.mem ∧ (State.chnStall a0 a1).hub = a0.hub ∧
      (State.chnStall a0 a1).span = a0.span ∧ (State.chnStall a0 a1).host = a0.host ∧ (State.chnStall a0 a1).pwr = a0.pwr ∧
      (State.chnStall a0 a1).boot = a0.boot ∧ (State.chnStall a0 a1).out = a0.out ∧ (State.chnStall a0 a1).free = a0.free := by
  unfold State.chnStall; (repeat' split) <;> simp
@[simp] theorem State.chnWindow_same (a0 : State) (a1 : Nat) :
    (State.chnWindow a0 a1).pending = a0.pending ∧ (State.chnWindow a0 a1).clk = a0.clk ∧ (State.chnWindow a0 a1).mem = a0.mem ∧
      (State.chnWindow a0 a1).span = a0.span ∧ (State.chnWindow a0 a1).host = a0.host ∧ (State.chnWindow a0 a1).boot = a0.boot ∧
      (State.chnWindow a0 a1).free = a0.free := by
  unfold State.chnWindow; (repeat' split) <;> simp
@[simp] theorem State.putCtr_same (a0 : State) (a1 : Nat) (a2 : Nat) :
    (State.putCtr a0 a1 a2).pending = a0.pending ∧ (State.putCtr a0 a1 a2).clk = a0.clk ∧ (State.putCtr a0 a1 a2).vats = a0.vats ∧
      (State.putCtr a0 a1 a2).mem = a0.mem ∧ (State.putCtr a0 a1 a2).span = a0.span ∧ (State.putCtr a0 a1 a2).host = a0.host ∧
      (State.putCtr a0 a1 a2).boot = a0.boot ∧ (State.putCtr a0 a1 a2).free = a0.free := by
  unfold State.putCtr; (repeat' split) <;> simp
@[simp] theorem State.chtabApply_same (a0 : State) (a1 : Who) (a2 : Nat) (a3 : Nat) (a4 : Nat) :
    (State.chtabApply a0 a1 a2 a3 a4).1.pending = a0.pending ∧ (State.chtabApply a0 a1 a2 a3 a4).1.clk = a0.clk ∧
      (State.chtabApply a0 a1 a2 a3 a4).1.vats = a0.vats ∧ (State.chtabApply a0 a1 a2 a3 a4).1.mem = a0.mem ∧
      (State.chtabApply a0 a1 a2 a3 a4).1.span = a0.span ∧ (State.chtabApply a0 a1 a2 a3 a4).1.host = a0.host ∧
      (State.chtabApply a0 a1 a2 a3 a4).1.boot = a0.boot ∧ (State.chtabApply a0 a1 a2 a3 a4).1.free = a0.free := by
  unfold State.chtabApply; (repeat' split) <;> simp
@[simp] theorem State.setCouchTop_same (a0 : State) (a1 : Nat) (a2 : Nat) :
    (State.setCouchTop a0 a1 a2).pending = a0.pending ∧ (State.setCouchTop a0 a1 a2).clk = a0.clk ∧ (State.setCouchTop a0 a1 a2).cores = a0.cores ∧
      (State.setCouchTop a0 a1 a2).vats = a0.vats ∧ (State.setCouchTop a0 a1 a2).mem = a0.mem ∧ (State.setCouchTop a0 a1 a2).hub = a0.hub ∧
      (State.setCouchTop a0 a1 a2).span = a0.span ∧ (State.setCouchTop a0 a1 a2).host = a0.host ∧ (State.setCouchTop a0 a1 a2).pwr = a0.pwr ∧
      (State.setCouchTop a0 a1 a2).boot = a0.boot ∧ (State.setCouchTop a0 a1 a2).out = a0.out ∧ (State.setCouchTop a0 a1 a2).free = a0.free := by
  unfold State.setCouchTop; (repeat' split) <;> simp
@[simp] theorem State.couchTopSet_same (a0 : State) (a1 : Who) (a2 : Nat) (a3 : Nat) (a4 : Nat) (a5 : Nat) :
    (State.couchTopSet a0 a1 a2 a3 a4 a5).1.pending = a0.pending ∧ (State.couchTopSet a0 a1 a2 a3 a4 a5).1.clk = a0.clk ∧
      (State.couchTopSet a0 a1 a2 a3 a4 a5).1.cores = a0.cores ∧ (State.couchTopSet a0 a1 a2 a3 a4 a5).1.vats = a0.vats ∧
      (State.couchTopSet a0 a1 a2 a3 a4 a5).1.mem = a0.mem ∧ (State.couchTopSet a0 a1 a2 a3 a4 a5).1.span = a0.span ∧
      (State.couchTopSet a0 a1 a2 a3 a4 a5).1.host = a0.host ∧ (State.couchTopSet a0 a1 a2 a3 a4 a5).1.boot = a0.boot ∧
      (State.couchTopSet a0 a1 a2 a3 a4 a5).1.free = a0.free := by
  unfold State.couchTopSet; (repeat' split) <;> simp
@[simp] theorem State.pwrRequest_same (a0 : State) (a1 : Who) (a2 : Nat) (a3 : Nat) :
    (State.pwrRequest a0 a1 a2 a3).1.pending = a0.pending ∧ (State.pwrRequest a0 a1 a2 a3).1.clk = a0.clk ∧
      (State.pwrRequest a0 a1 a2 a3).1.cores = a0.cores ∧ (State.pwrRequest a0 a1 a2 a3).1.net = a0.net ∧
      (State.pwrRequest a0 a1 a2 a3).1.vats = a0.vats ∧ (State.pwrRequest a0 a1 a2 a3).1.mem = a0.mem ∧
      (State.pwrRequest a0 a1 a2 a3).1.span = a0.span ∧ (State.pwrRequest a0 a1 a2 a3).1.host = a0.host ∧
      (State.pwrRequest a0 a1 a2 a3).1.boot = a0.boot ∧ (State.pwrRequest a0 a1 a2 a3).1.free = a0.free := by
  unfold State.pwrRequest; (repeat' split) <;> simp
@[simp] theorem State.setDrops_same (a0 : State) (a1 : Nat) (a2 : NetDrops) :
    (State.setDrops a0 a1 a2).pending = a0.pending ∧ (State.setDrops a0 a1 a2).clk = a0.clk ∧ (State.setDrops a0 a1 a2).cores = a0.cores ∧
      (State.setDrops a0 a1 a2).vats = a0.vats ∧ (State.setDrops a0 a1 a2).mem = a0.mem ∧ (State.setDrops a0 a1 a2).hub = a0.hub ∧
      (State.setDrops a0 a1 a2).span = a0.span ∧ (State.setDrops a0 a1 a2).host = a0.host ∧ (State.setDrops a0 a1 a2).pwr = a0.pwr ∧
      (State.setDrops a0 a1 a2).boot = a0.boot ∧ (State.setDrops a0 a1 a2).out = a0.out ∧ (State.setDrops a0 a1 a2).free = a0.free := by
  unfold State.setDrops; (repeat' split) <;> simp
@[simp] theorem State.setRoute_same (a0 : State) (a1 : Nat) (a2 : Nat) (a3 : RouteEnt) :
    (State.setRoute a0 a1 a2 a3).pending = a0.pending ∧ (State.setRoute a0 a1 a2 a3).clk = a0.clk ∧ (State.setRoute a0 a1 a2 a3).cores = a0.cores ∧
      (State.setRoute a0 a1 a2 a3).vats = a0.vats ∧ (State.setRoute a0 a1 a2 a3).mem = a0.mem ∧ (State.setRoute a0 a1 a2 a3).hub = a0.hub ∧
      (State.setRoute a0 a1 a2 a3).span = a0.span ∧ (State.setRoute a0 a1 a2 a3).host = a0.host ∧ (State.setRoute a0 a1 a2 a3).pwr = a0.pwr ∧
      (State.setRoute a0 a1 a2 a3).boot = a0.boot ∧ (State.setRoute a0 a1 a2 a3).out = a0.out ∧ (State.setRoute a0 a1 a2 a3).free = a0.free := by
  unfold State.setRoute; (repeat' split) <;> simp
@[simp] theorem State.irqClaim_same (a0 : State) (a1 : Nat) (a2 : Bool) :
    (State.irqClaim a0 a1 a2).2.pending = a0.pending ∧ (State.irqClaim a0 a1 a2).2.clk = a0.clk ∧ (State.irqClaim a0 a1 a2).2.cores = a0.cores ∧
      (State.irqClaim a0 a1 a2).2.net = a0.net ∧ (State.irqClaim a0 a1 a2).2.vats = a0.vats ∧ (State.irqClaim a0 a1 a2).2.mem = a0.mem ∧
      (State.irqClaim a0 a1 a2).2.span = a0.span ∧ (State.irqClaim a0 a1 a2).2.host = a0.host ∧ (State.irqClaim a0 a1 a2).2.pwr = a0.pwr ∧
      (State.irqClaim a0 a1 a2).2.boot = a0.boot ∧ (State.irqClaim a0 a1 a2).2.free = a0.free := by
  unfold State.irqClaim; (repeat' split) <;> simp
@[simp] theorem State.clearImemUe_same (a0 : State) (a1 : Nat) :
    (State.clearImemUe a0 a1).pending = a0.pending ∧ (State.clearImemUe a0 a1).clk = a0.clk ∧ (State.clearImemUe a0 a1).net = a0.net ∧
      (State.clearImemUe a0 a1).vats = a0.vats ∧ (State.clearImemUe a0 a1).mem = a0.mem ∧ (State.clearImemUe a0 a1).hub = a0.hub ∧
      (State.clearImemUe a0 a1).span = a0.span ∧ (State.clearImemUe a0 a1).host = a0.host ∧ (State.clearImemUe a0 a1).pwr = a0.pwr ∧
      (State.clearImemUe a0 a1).boot = a0.boot ∧ (State.clearImemUe a0 a1).out = a0.out ∧ (State.clearImemUe a0 a1).free = a0.free := by
  unfold State.clearImemUe; (repeat' split) <;> simp
@[simp] theorem State.clearRegion_same (a0 : State) (a1 : Nat) (a2 : LoadJob) :
    (State.clearRegion a0 a1 a2).pending = a0.pending ∧ (State.clearRegion a0 a1 a2).clk = a0.clk ∧ (State.clearRegion a0 a1 a2).mem = a0.mem ∧
      (State.clearRegion a0 a1 a2).hub = a0.hub ∧ (State.clearRegion a0 a1 a2).span = a0.span ∧ (State.clearRegion a0 a1 a2).host = a0.host ∧
      (State.clearRegion a0 a1 a2).pwr = a0.pwr ∧ (State.clearRegion a0 a1 a2).boot = a0.boot ∧ (State.clearRegion a0 a1 a2).out = a0.out ∧
      (State.clearRegion a0 a1 a2).free = a0.free := by
  unfold State.clearRegion; (repeat' split) <;> simp
@[simp] theorem State.clearTops_same (a0 : State) (a1 : Nat) :
    (State.clearTops a0 a1).pending = a0.pending ∧ (State.clearTops a0 a1).clk = a0.clk ∧ (State.clearTops a0 a1).cores = a0.cores ∧
      (State.clearTops a0 a1).vats = a0.vats ∧ (State.clearTops a0 a1).mem = a0.mem ∧ (State.clearTops a0 a1).hub = a0.hub ∧
      (State.clearTops a0 a1).span = a0.span ∧ (State.clearTops a0 a1).host = a0.host ∧ (State.clearTops a0 a1).pwr = a0.pwr ∧
      (State.clearTops a0 a1).boot = a0.boot ∧ (State.clearTops a0 a1).out = a0.out ∧ (State.clearTops a0 a1).free = a0.free := by
  unfold State.clearTops; (repeat' split) <;> simp
@[simp] theorem State.setConn_same (a0 : State) (a1 : Nat) (a2 : Conn) :
    (State.setConn a0 a1 a2).pending = a0.pending ∧ (State.setConn a0 a1 a2).clk = a0.clk ∧ (State.setConn a0 a1 a2).cores = a0.cores ∧
      (State.setConn a0 a1 a2).vats = a0.vats ∧ (State.setConn a0 a1 a2).mem = a0.mem ∧ (State.setConn a0 a1 a2).hub = a0.hub ∧
      (State.setConn a0 a1 a2).span = a0.span ∧ (State.setConn a0 a1 a2).host = a0.host ∧ (State.setConn a0 a1 a2).pwr = a0.pwr ∧
      (State.setConn a0 a1 a2).boot = a0.boot ∧ (State.setConn a0 a1 a2).out = a0.out ∧ (State.setConn a0 a1 a2).free = a0.free := by
  unfold State.setConn; (repeat' split) <;> simp
@[simp] theorem State.closeConn_same (a0 : State) (a1 : Nat) :
    (State.closeConn a0 a1).pending = a0.pending ∧ (State.closeConn a0 a1).clk = a0.clk ∧ (State.closeConn a0 a1).vats = a0.vats ∧
      (State.closeConn a0 a1).mem = a0.mem ∧ (State.closeConn a0 a1).hub = a0.hub ∧ (State.closeConn a0 a1).span = a0.span ∧
      (State.closeConn a0 a1).host = a0.host ∧ (State.closeConn a0 a1).pwr = a0.pwr ∧ (State.closeConn a0 a1).boot = a0.boot ∧
      (State.closeConn a0 a1).out = a0.out ∧ (State.closeConn a0 a1).free = a0.free := by
  unfold State.closeConn; (repeat' split) <;> simp
@[simp] theorem State.cmp_same (a0 : State) (a1 : Nat) (a2 : Guard) (a3 : W32) (a4 : BitVec 3) (a5 : Ctl → Bool) :
    (State.cmp a0 a1 a2 a3 a4 a5).pending = a0.pending ∧ (State.cmp a0 a1 a2 a3 a4 a5).clk = a0.clk ∧ (State.cmp a0 a1 a2 a3 a4 a5).mem = a0.mem ∧
      (State.cmp a0 a1 a2 a3 a4 a5).span = a0.span ∧ (State.cmp a0 a1 a2 a3 a4 a5).host = a0.host ∧ (State.cmp a0 a1 a2 a3 a4 a5).boot = a0.boot ∧
      (State.cmp a0 a1 a2 a3 a4 a5).free = a0.free := by
  unfold State.cmp; refine ⟨by first | (simp; done) | (apply State.instr_same_pending; intros; (first | (simp; done) | (dsimp only; (repeat' (split <;> try dsimp only)) <;> simp_all)); done) | ((repeat' split) <;> first | (simp; done) | (apply State.instr_same_pending; intros; (first | (simp; done) | (dsimp only; (repeat' (split <;> try dsimp only)) <;> simp_all)); done)), by first | (simp; done) | (apply State.instr_same_clk; intros; (first | (simp; done) | (dsimp only; (repeat' (split <;> try dsimp only)) <;> simp_all)); done) | ((repeat' split) <;> first | (simp; done) | (apply State.instr_same_clk; intros; (first | (simp; done) | (dsimp only; (repeat' (split <;> try dsimp only)) <;> simp_all)); done)), by first | (simp; done) | (apply State.instr_same_mem; intros; (first | (simp; done) | (dsimp only; (repeat' (split <;> try dsimp only)) <;> simp_all)); done) | ((repeat' split) <;> first | (simp; done) | (apply State.instr_same_mem; intros; (first | (simp; done) | (dsimp only; (repeat' (split <;> try dsimp only)) <;> simp_all)); done)), by first | (simp; done) | (apply State.instr_same_span; intros; (first | (simp; done) | (dsimp only; (repeat' (split <;> try dsimp only)) <;> simp_all)); done) | ((repeat' split) <;> first | (simp; done) | (apply State.instr_same_span; intros; (first | (simp; done) | (dsimp only; (repeat' (split <;> try dsimp only)) <;> simp_all)); done)), by first | (simp; done) | (apply State.instr_same_host; intros; (first | (simp; done) | (dsimp only; (repeat' (split <;> try dsimp only)) <;> simp_all)); done) | ((repeat' split) <;> first | (simp; done) | (apply State.instr_same_host; intros; (first | (simp; done) | (dsimp only; (repeat' (split <;> try dsimp only)) <;> simp_all)); done)), by first | (simp; done) | (apply State.instr_same_boot; intros; (first | (simp; done) | (dsimp only; (repeat' (split <;> try dsimp only)) <;> simp_all)); done) | ((repeat' split) <;> first | (simp; done) | (apply State.instr_same_boot; intros; (first | (simp; done) | (dsimp only; (repeat' (split <;> try dsimp only)) <;> simp_all)); done)), by first | (simp; done) | (apply State.instr_same_free; intros; (first | (simp; done) | (dsimp only; (repeat' (split <;> try dsimp only)) <;> simp_all)); done) | ((repeat' split) <;> first | (simp; done) | (apply State.instr_same_free; intros; (first | (simp; done) | (dsimp only; (repeat' (split <;> try dsimp only)) <;> simp_all)); done))⟩
@[simp] theorem State.irqComplete_same (a0 : State) (a1 : Who) (a2 : Nat) (a3 : Nat) :
    (State.irqComplete a0 a1 a2 a3).pending = a0.pending ∧ (State.irqComplete a0 a1 a2 a3).clk = a0.clk ∧
      (State.irqComplete a0 a1 a2 a3).cores = a0.cores ∧ (State.irqComplete a0 a1 a2 a3).net = a0.net ∧
      (State.irqComplete a0 a1 a2 a3).vats = a0.vats ∧ (State.irqComplete a0 a1 a2 a3).mem = a0.mem ∧
      (State.irqComplete a0 a1 a2 a3).span = a0.span ∧ (State.irqComplete a0 a1 a2 a3).host = a0.host ∧
      (State.irqComplete a0 a1 a2 a3).boot = a0.boot ∧ (State.irqComplete a0 a1 a2 a3).free = a0.free := by
  unfold State.irqComplete; (repeat' split) <;> simp
@[simp] theorem State.connClose_same (a0 : State) (a1 : Who) (a2 : Nat) :
    (State.connClose a0 a1 a2).1.pending = a0.pending ∧ (State.connClose a0 a1 a2).1.clk = a0.clk ∧ (State.connClose a0 a1 a2).1.vats = a0.vats ∧
      (State.connClose a0 a1 a2).1.mem = a0.mem ∧ (State.connClose a0 a1 a2).1.span = a0.span ∧ (State.connClose a0 a1 a2).1.host = a0.host ∧
      (State.connClose a0 a1 a2).1.boot = a0.boot ∧ (State.connClose a0 a1 a2).1.free = a0.free := by
  unfold State.connClose; (repeat' split) <;> simp
@[simp] theorem State.copyEnd_same (a0 : State) (a1 : CopyJob) (a2 : Nat) (a3 : Nat) :
    (State.copyEnd a0 a1 a2 a3).pending = a0.pending ∧ (State.copyEnd a0 a1 a2 a3).clk = a0.clk ∧ (State.copyEnd a0 a1 a2 a3).cores = a0.cores ∧
      (State.copyEnd a0 a1 a2 a3).net = a0.net ∧ (State.copyEnd a0 a1 a2 a3).mem = a0.mem ∧ (State.copyEnd a0 a1 a2 a3).hub = a0.hub ∧
      (State.copyEnd a0 a1 a2 a3).span = a0.span ∧ (State.copyEnd a0 a1 a2 a3).pwr = a0.pwr ∧ (State.copyEnd a0 a1 a2 a3).boot = a0.boot ∧
      (State.copyEnd a0 a1 a2 a3).out = a0.out ∧ (State.copyEnd a0 a1 a2 a3).free = a0.free := by
  unfold State.copyEnd; (repeat' split) <;> simp
@[simp] theorem State.spadPut_same (a0 : State) (a1 : Nat) (a2 : Nat) (a3 : List Byte) (a4 : Nat → Bool) :
    (State.spadPut a0 a1 a2 a3 a4).pending = a0.pending ∧ (State.spadPut a0 a1 a2 a3 a4).clk = a0.clk ∧
      (State.spadPut a0 a1 a2 a3 a4).net = a0.net ∧ (State.spadPut a0 a1 a2 a3 a4).vats = a0.vats ∧ (State.spadPut a0 a1 a2 a3 a4).mem = a0.mem ∧
      (State.spadPut a0 a1 a2 a3 a4).hub = a0.hub ∧ (State.spadPut a0 a1 a2 a3 a4).span = a0.span ∧ (State.spadPut a0 a1 a2 a3 a4).host = a0.host ∧
      (State.spadPut a0 a1 a2 a3 a4).pwr = a0.pwr ∧ (State.spadPut a0 a1 a2 a3 a4).boot = a0.boot ∧ (State.spadPut a0 a1 a2 a3 a4).out = a0.out ∧
      (State.spadPut a0 a1 a2 a3 a4).free = a0.free := by
  unfold State.spadPut; (repeat' split) <;> simp
@[simp] theorem State.copyPut_same (a0 : State) (a1 : CopyJob) (a2 : Nat) (a3 : List Byte) (a4 : Nat → Bool) :
    (State.copyPut a0 a1 a2 a3 a4).pending = a0.pending ∧ (State.copyPut a0 a1 a2 a3 a4).clk = a0.clk ∧
      (State.copyPut a0 a1 a2 a3 a4).net = a0.net ∧ (State.copyPut a0 a1 a2 a3 a4).host = a0.host ∧ (State.copyPut a0 a1 a2 a3 a4).boot = a0.boot ∧
      (State.copyPut a0 a1 a2 a3 a4).free = a0.free := by
  unfold State.copyPut; (repeat' split) <;> simp
@[simp] theorem State.setSeAsyncLate_same (a0 : State) (a1 : Nat) (a2 : Nat) :
    (State.setSeAsyncLate a0 a1 a2).pending = a0.pending ∧ (State.setSeAsyncLate a0 a1 a2).clk = a0.clk ∧
      (State.setSeAsyncLate a0 a1 a2).net = a0.net ∧ (State.setSeAsyncLate a0 a1 a2).vats = a0.vats ∧
      (State.setSeAsyncLate a0 a1 a2).mem = a0.mem ∧ (State.setSeAsyncLate a0 a1 a2).hub = a0.hub ∧
      (State.setSeAsyncLate a0 a1 a2).span = a0.span ∧ (State.setSeAsyncLate a0 a1 a2).host = a0.host ∧
      (State.setSeAsyncLate a0 a1 a2).pwr = a0.pwr ∧ (State.setSeAsyncLate a0 a1 a2).boot = a0.boot ∧
      (State.setSeAsyncLate a0 a1 a2).out = a0.out ∧ (State.setSeAsyncLate a0 a1 a2).free = a0.free := by
  unfold State.setSeAsyncLate; (repeat' split) <;> simp
@[simp] theorem State.setSeJoined_same (a0 : State) (a1 : Nat) (a2 : Nat) :
    (State.setSeJoined a0 a1 a2).pending = a0.pending ∧ (State.setSeJoined a0 a1 a2).clk = a0.clk ∧ (State.setSeJoined a0 a1 a2).net = a0.net ∧
      (State.setSeJoined a0 a1 a2).vats = a0.vats ∧ (State.setSeJoined a0 a1 a2).mem = a0.mem ∧ (State.setSeJoined a0 a1 a2).hub = a0.hub ∧
      (State.setSeJoined a0 a1 a2).span = a0.span ∧ (State.setSeJoined a0 a1 a2).host = a0.host ∧ (State.setSeJoined a0 a1 a2).pwr = a0.pwr ∧
      (State.setSeJoined a0 a1 a2).boot = a0.boot ∧ (State.setSeJoined a0 a1 a2).out = a0.out ∧ (State.setSeJoined a0 a1 a2).free = a0.free := by
  unfold State.setSeJoined; (repeat' split) <;> simp
@[simp] theorem State.setSeOndieLate_same (a0 : State) (a1 : Nat) (a2 : Nat) :
    (State.setSeOndieLate a0 a1 a2).pending = a0.pending ∧ (State.setSeOndieLate a0 a1 a2).clk = a0.clk ∧
      (State.setSeOndieLate a0 a1 a2).net = a0.net ∧ (State.setSeOndieLate a0 a1 a2).vats = a0.vats ∧
      (State.setSeOndieLate a0 a1 a2).mem = a0.mem ∧ (State.setSeOndieLate a0 a1 a2).hub = a0.hub ∧
      (State.setSeOndieLate a0 a1 a2).span = a0.span ∧ (State.setSeOndieLate a0 a1 a2).host = a0.host ∧
      (State.setSeOndieLate a0 a1 a2).pwr = a0.pwr ∧ (State.setSeOndieLate a0 a1 a2).boot = a0.boot ∧
      (State.setSeOndieLate a0 a1 a2).out = a0.out ∧ (State.setSeOndieLate a0 a1 a2).free = a0.free := by
  unfold State.setSeOndieLate; (repeat' split) <;> simp
@[simp] theorem State.setSeRequests_same (a0 : State) (a1 : Nat) (a2 : Nat) :
    (State.setSeRequests a0 a1 a2).pending = a0.pending ∧ (State.setSeRequests a0 a1 a2).clk = a0.clk ∧
      (State.setSeRequests a0 a1 a2).net = a0.net ∧ (State.setSeRequests a0 a1 a2).vats = a0.vats ∧ (State.setSeRequests a0 a1 a2).mem = a0.mem ∧
      (State.setSeRequests a0 a1 a2).hub = a0.hub ∧ (State.setSeRequests a0 a1 a2).span = a0.span ∧ (State.setSeRequests a0 a1 a2).host = a0.host ∧
      (State.setSeRequests a0 a1 a2).pwr = a0.pwr ∧ (State.setSeRequests a0 a1 a2).boot = a0.boot ∧ (State.setSeRequests a0 a1 a2).out = a0.out ∧
      (State.setSeRequests a0 a1 a2).free = a0.free := by
  unfold State.setSeRequests; (repeat' split) <;> simp
@[simp] theorem State.couchSet_same (a0 : State) (a1 : Who) (a2 : Nat) (a3 : Nat) (a4 : Vat → Vat) :
    (State.couchSet a0 a1 a2 a3 a4).1.pending = a0.pending ∧ (State.couchSet a0 a1 a2 a3 a4).1.clk = a0.clk ∧
      (State.couchSet a0 a1 a2 a3 a4).1.cores = a0.cores ∧ (State.couchSet a0 a1 a2 a3 a4).1.net = a0.net ∧
      (State.couchSet a0 a1 a2 a3 a4).1.mem = a0.mem ∧ (State.couchSet a0 a1 a2 a3 a4).1.span = a0.span ∧
      (State.couchSet a0 a1 a2 a3 a4).1.host = a0.host ∧ (State.couchSet a0 a1 a2 a3 a4).1.boot = a0.boot ∧
      (State.couchSet a0 a1 a2 a3 a4).1.free = a0.free := by
  unfold State.couchSet; (repeat' split) <;> simp
@[simp] theorem State.countCorrected_same (a0 : State) (a1 : Nat) (a2 : Nat) :
    (State.countCorrected a0 a1 a2).pending = a0.pending ∧ (State.countCorrected a0 a1 a2).clk = a0.clk ∧
      (State.countCorrected a0 a1 a2).cores = a0.cores ∧ (State.countCorrected a0 a1 a2).net = a0.net ∧
      (State.countCorrected a0 a1 a2).vats = a0.vats ∧ (State.countCorrected a0 a1 a2).mem = a0.mem ∧
      (State.countCorrected a0 a1 a2).host = a0.host ∧ (State.countCorrected a0 a1 a2).boot = a0.boot ∧
      (State.countCorrected a0 a1 a2).free = a0.free := by
  unfold State.countCorrected; (repeat' split) <;> simp
@[simp] theorem State.countDeckle_same (a0 : State) (a1 : Nat) :
    (State.countDeckle a0 a1).pending = a0.pending ∧ (State.countDeckle a0 a1).clk = a0.clk ∧ (State.countDeckle a0 a1).cores = a0.cores ∧
      (State.countDeckle a0 a1).net = a0.net ∧ (State.countDeckle a0 a1).mem = a0.mem ∧ (State.countDeckle a0 a1).hub = a0.hub ∧
      (State.countDeckle a0 a1).span = a0.span ∧ (State.countDeckle a0 a1).host = a0.host ∧ (State.countDeckle a0 a1).pwr = a0.pwr ∧
      (State.countDeckle a0 a1).boot = a0.boot ∧ (State.countDeckle a0 a1).out = a0.out ∧ (State.countDeckle a0 a1).free = a0.free := by
  unfold State.countDeckle; (repeat' split) <;> simp
@[simp] theorem State.ctlAnswer_same (a0 : State) (a1 : Nat) (a2 : Nat) (a3 : Nat) :
    (State.ctlAnswer a0 a1 a2 a3).pending = a0.pending ∧ (State.ctlAnswer a0 a1 a2 a3).clk = a0.clk ∧
      (State.ctlAnswer a0 a1 a2 a3).cores = a0.cores ∧ (State.ctlAnswer a0 a1 a2 a3).net = a0.net ∧ (State.ctlAnswer a0 a1 a2 a3).vats = a0.vats ∧
      (State.ctlAnswer a0 a1 a2 a3).mem = a0.mem ∧ (State.ctlAnswer a0 a1 a2 a3).hub = a0.hub ∧ (State.ctlAnswer a0 a1 a2 a3).span = a0.span ∧
      (State.ctlAnswer a0 a1 a2 a3).host = a0.host ∧ (State.ctlAnswer a0 a1 a2 a3).pwr = a0.pwr ∧ (State.ctlAnswer a0 a1 a2 a3).boot = a0.boot ∧
      (State.ctlAnswer a0 a1 a2 a3).free = a0.free := by
  unfold State.ctlAnswer; (repeat' split) <;> simp
@[simp] theorem State.ctlAnswerTwin_same (a0 : State) (a1 : Nat) (a2 : Nat) (a3 : Nat) :
    (State.ctlAnswerTwin a0 a1 a2 a3).pending = a0.pending ∧ (State.ctlAnswerTwin a0 a1 a2 a3).clk = a0.clk ∧
      (State.ctlAnswerTwin a0 a1 a2 a3).cores = a0.cores ∧ (State.ctlAnswerTwin a0 a1 a2 a3).net = a0.net ∧
      (State.ctlAnswerTwin a0 a1 a2 a3).vats = a0.vats ∧ (State.ctlAnswerTwin a0 a1 a2 a3).mem = a0.mem ∧
      (State.ctlAnswerTwin a0 a1 a2 a3).hub = a0.hub ∧ (State.ctlAnswerTwin a0 a1 a2 a3).host = a0.host ∧
      (State.ctlAnswerTwin a0 a1 a2 a3).pwr = a0.pwr ∧ (State.ctlAnswerTwin a0 a1 a2 a3).boot = a0.boot ∧
      (State.ctlAnswerTwin a0 a1 a2 a3).out = a0.out ∧ (State.ctlAnswerTwin a0 a1 a2 a3).free = a0.free := by
  unfold State.ctlAnswerTwin; (repeat' split) <;> simp
@[simp] theorem State.foreign_same (a0 : State) (a1 : Nat) (a2 : List Nat) :
    (State.foreign a0 a1 a2).pending = a0.pending ∧ (State.foreign a0 a1 a2).clk = a0.clk ∧ (State.foreign a0 a1 a2).cores = a0.cores ∧
      (State.foreign a0 a1 a2).net = a0.net ∧ (State.foreign a0 a1 a2).mem = a0.mem ∧ (State.foreign a0 a1 a2).span = a0.span ∧
      (State.foreign a0 a1 a2).host = a0.host ∧ (State.foreign a0 a1 a2).boot = a0.boot ∧ (State.foreign a0 a1 a2).free = a0.free := by
  unfold State.foreign; (repeat' split) <;> simp
@[simp] theorem State.ctlLeave_same (a0 : State) (a1 : Nat) (a2 : Nat) (a3 : Nat) (a4 : List Byte) (a5 : NSet) (a6 : List Nat) :
    (State.ctlLeave a0 a1 a2 a3 a4 a5 a6).pending = a0.pending ∧ (State.ctlLeave a0 a1 a2 a3 a4 a5 a6).clk = a0.clk ∧
      (State.ctlLeave a0 a1 a2 a3 a4 a5 a6).cores = a0.cores ∧ (State.ctlLeave a0 a1 a2 a3 a4 a5 a6).net = a0.net ∧
      (State.ctlLeave a0 a1 a2 a3 a4 a5 a6).mem = a0.mem ∧ (State.ctlLeave a0 a1 a2 a3 a4 a5 a6).span = a0.span ∧
      (State.ctlLeave a0 a1 a2 a3 a4 a5 a6).host = a0.host ∧ (State.ctlLeave a0 a1 a2 a3 a4 a5 a6).boot = a0.boot ∧
      (State.ctlLeave a0 a1 a2 a3 a4 a5 a6).free = a0.free := by
  unfold State.ctlLeave; (repeat' split) <;> simp
@[simp] theorem State.extAccess_same (a0 : State) (a1 : Nat) (a2 : WinBy) :
    (State.extAccess a0 a1 a2).pending = a0.pending ∧ (State.extAccess a0 a1 a2).clk = a0.clk ∧ (State.extAccess a0 a1 a2).cores = a0.cores ∧
      (State.extAccess a0 a1 a2).net = a0.net ∧ (State.extAccess a0 a1 a2).mem = a0.mem ∧ (State.extAccess a0 a1 a2).span = a0.span ∧
      (State.extAccess a0 a1 a2).host = a0.host ∧ (State.extAccess a0 a1 a2).boot = a0.boot ∧ (State.extAccess a0 a1 a2).free = a0.free := by
  unfold State.extAccess; (repeat' split) <;> simp
@[simp] theorem State.setPlan_same (a0 : State) (a1 : Nat) (a2 : Nat) (a3 : PlanVat) :
    (State.setPlan a0 a1 a2 a3).pending = a0.pending ∧ (State.setPlan a0 a1 a2 a3).clk = a0.clk ∧ (State.setPlan a0 a1 a2 a3).cores = a0.cores ∧
      (State.setPlan a0 a1 a2 a3).vats = a0.vats ∧ (State.setPlan a0 a1 a2 a3).mem = a0.mem ∧ (State.setPlan a0 a1 a2 a3).hub = a0.hub ∧
      (State.setPlan a0 a1 a2 a3).span = a0.span ∧ (State.setPlan a0 a1 a2 a3).host = a0.host ∧ (State.setPlan a0 a1 a2 a3).pwr = a0.pwr ∧
      (State.setPlan a0 a1 a2 a3).boot = a0.boot ∧ (State.setPlan a0 a1 a2 a3).out = a0.out ∧ (State.setPlan a0 a1 a2 a3).free = a0.free := by
  unfold State.setPlan; (repeat' split) <;> simp
@[simp] theorem State.keepLocked_same (a0 : State) :
    (State.keepLocked a0).pending = a0.pending ∧ (State.keepLocked a0).clk = a0.clk ∧ (State.keepLocked a0).cores = a0.cores ∧
      (State.keepLocked a0).net = a0.net ∧ (State.keepLocked a0).mem = a0.mem ∧ (State.keepLocked a0).hub = a0.hub ∧
      (State.keepLocked a0).span = a0.span ∧ (State.keepLocked a0).host = a0.host ∧ (State.keepLocked a0).pwr = a0.pwr ∧
      (State.keepLocked a0).boot = a0.boot ∧ (State.keepLocked a0).out = a0.out ∧ (State.keepLocked a0).free = a0.free := by
  unfold State.keepLocked; (repeat' split) <;> simp
@[simp] theorem State.modGs_same (a0 : State) (a1 : GtcSync → GtcSync) :
    (State.modGs a0 a1).pending = a0.pending ∧ (State.modGs a0 a1).clk = a0.clk ∧ (State.modGs a0 a1).cores = a0.cores ∧
      (State.modGs a0 a1).net = a0.net ∧ (State.modGs a0 a1).vats = a0.vats ∧ (State.modGs a0 a1).mem = a0.mem ∧
      (State.modGs a0 a1).span = a0.span ∧ (State.modGs a0 a1).host = a0.host ∧ (State.modGs a0 a1).pwr = a0.pwr ∧
      (State.modGs a0 a1).boot = a0.boot ∧ (State.modGs a0 a1).out = a0.out ∧ (State.modGs a0 a1).free = a0.free := by
  unfold State.modGs; (repeat' split) <;> simp
@[simp] theorem State.unlock_same (a0 : State) (a1 : GsSt) :
    (State.unlock a0 a1).pending = a0.pending ∧ (State.unlock a0 a1).clk = a0.clk ∧ (State.unlock a0 a1).cores = a0.cores ∧
      (State.unlock a0 a1).net = a0.net ∧ (State.unlock a0 a1).mem = a0.mem ∧ (State.unlock a0 a1).span = a0.span ∧
      (State.unlock a0 a1).host = a0.host ∧ (State.unlock a0 a1).boot = a0.boot ∧ (State.unlock a0 a1).free = a0.free := by
  unfold State.unlock; (repeat' split) <;> simp
@[simp] theorem State.syncCtl_same (a0 : State) (a1 : Nat) :
    (State.syncCtl a0 a1).pending = a0.pending ∧ (State.syncCtl a0 a1).clk = a0.clk ∧ (State.syncCtl a0 a1).cores = a0.cores ∧
      (State.syncCtl a0 a1).net = a0.net ∧ (State.syncCtl a0 a1).mem = a0.mem ∧ (State.syncCtl a0 a1).span = a0.span ∧
      (State.syncCtl a0 a1).host = a0.host ∧ (State.syncCtl a0 a1).boot = a0.boot ∧ (State.syncCtl a0 a1).free = a0.free := by
  unfold State.syncCtl; (repeat' split) <;> simp
@[simp] theorem State.setGtc_same (a0 : State) (a1 : W64) :
    (State.setGtc a0 a1).pending = a0.pending ∧ (State.setGtc a0 a1).cores = a0.cores ∧ (State.setGtc a0 a1).net = a0.net ∧
      (State.setGtc a0 a1).vats = a0.vats ∧ (State.setGtc a0 a1).span = a0.span ∧ (State.setGtc a0 a1).host = a0.host ∧
      (State.setGtc a0 a1).pwr = a0.pwr ∧ (State.setGtc a0 a1).boot = a0.boot ∧ (State.setGtc a0 a1).out = a0.out ∧
      (State.setGtc a0 a1).free = a0.free := by
  unfold State.setGtc; (repeat' split) <;> simp
@[simp] theorem execGtcSet_same (a0 : W64) (a1 : State) :
    (resState a1 (execGtcSet a0 a1)).pending = a1.pending ∧ (resState a1 (execGtcSet a0 a1)).cores = a1.cores ∧
      (resState a1 (execGtcSet a0 a1)).net = a1.net ∧ (resState a1 (execGtcSet a0 a1)).vats = a1.vats ∧
      (resState a1 (execGtcSet a0 a1)).span = a1.span ∧ (resState a1 (execGtcSet a0 a1)).host = a1.host ∧
      (resState a1 (execGtcSet a0 a1)).boot = a1.boot ∧ (resState a1 (execGtcSet a0 a1)).free = a1.free := by
  unfold execGtcSet; (repeat' split) <;> simp
@[simp] theorem State.modRing_same (a0 : State) (a1 : Nat) (a2 : Ring → Ring) :
    (State.modRing a0 a1 a2).pending = a0.pending ∧ (State.modRing a0 a1 a2).clk = a0.clk ∧ (State.modRing a0 a1 a2).cores = a0.cores ∧
      (State.modRing a0 a1 a2).net = a0.net ∧ (State.modRing a0 a1 a2).vats = a0.vats ∧ (State.modRing a0 a1 a2).mem = a0.mem ∧
      (State.modRing a0 a1 a2).hub = a0.hub ∧ (State.modRing a0 a1 a2).span = a0.span ∧ (State.modRing a0 a1 a2).pwr = a0.pwr ∧
      (State.modRing a0 a1 a2).boot = a0.boot ∧ (State.modRing a0 a1 a2).out = a0.out ∧ (State.modRing a0 a1 a2).free = a0.free := by
  unfold State.modRing; (repeat' split) <;> simp
@[simp] theorem State.ringStop_same (a0 : State) (a1 : Bool) (a2 : Nat) :
    (State.ringStop a0 a1 a2).pending = a0.pending ∧ (State.ringStop a0 a1 a2).clk = a0.clk ∧ (State.ringStop a0 a1 a2).cores = a0.cores ∧
      (State.ringStop a0 a1 a2).net = a0.net ∧ (State.ringStop a0 a1 a2).vats = a0.vats ∧ (State.ringStop a0 a1 a2).mem = a0.mem ∧
      (State.ringStop a0 a1 a2).hub = a0.hub ∧ (State.ringStop a0 a1 a2).span = a0.span ∧ (State.ringStop a0 a1 a2).pwr = a0.pwr ∧
      (State.ringStop a0 a1 a2).boot = a0.boot ∧ (State.ringStop a0 a1 a2).out = a0.out ∧ (State.ringStop a0 a1 a2).free = a0.free := by
  unfold State.ringStop; (repeat' split) <;> simp
@[simp] theorem State.ringCtl_same (a0 : State) (a1 : Who) (a2 : Nat) (a3 : Nat) (a4 : Nat) :
    (State.ringCtl a0 a1 a2 a3 a4).1.pending = a0.pending ∧ (State.ringCtl a0 a1 a2 a3 a4).1.clk = a0.clk ∧
      (State.ringCtl a0 a1 a2 a3 a4).1.cores = a0.cores ∧ (State.ringCtl a0 a1 a2 a3 a4).1.net = a0.net ∧
      (State.ringCtl a0 a1 a2 a3 a4).1.vats = a0.vats ∧ (State.ringCtl a0 a1 a2 a3 a4).1.mem = a0.mem ∧
      (State.ringCtl a0 a1 a2 a3 a4).1.span = a0.span ∧ (State.ringCtl a0 a1 a2 a3 a4).1.boot = a0.boot ∧
      (State.ringCtl a0 a1 a2 a3 a4).1.free = a0.free := by
  unfold State.ringCtl; (repeat' split) <;> simp
@[simp] theorem State.ringSet_same (a0 : State) (a1 : Who) (a2 : Nat) (a3 : Nat) (a4 : Ring → Ring) :
    (State.ringSet a0 a1 a2 a3 a4).1.pending = a0.pending ∧ (State.ringSet a0 a1 a2 a3 a4).1.clk = a0.clk ∧
      (State.ringSet a0 a1 a2 a3 a4).1.cores = a0.cores ∧ (State.ringSet a0 a1 a2 a3 a4).1.net = a0.net ∧
      (State.ringSet a0 a1 a2 a3 a4).1.vats = a0.vats ∧ (State.ringSet a0 a1 a2 a3 a4).1.mem = a0.mem ∧
      (State.ringSet a0 a1 a2 a3 a4).1.span = a0.span ∧ (State.ringSet a0 a1 a2 a3 a4).1.boot = a0.boot ∧
      (State.ringSet a0 a1 a2 a3 a4).1.free = a0.free := by
  unfold State.ringSet; (repeat' split) <;> simp
@[simp] theorem State.setHostFn_same (a0 : State) (a1 : Nat) (a2 : HostFn) :
    (State.setHostFn a0 a1 a2).pending = a0.pending ∧ (State.setHostFn a0 a1 a2).clk = a0.clk ∧ (State.setHostFn a0 a1 a2).cores = a0.cores ∧
      (State.setHostFn a0 a1 a2).net = a0.net ∧ (State.setHostFn a0 a1 a2).vats = a0.vats ∧ (State.setHostFn a0 a1 a2).mem = a0.mem ∧
      (State.setHostFn a0 a1 a2).hub = a0.hub ∧ (State.setHostFn a0 a1 a2).span = a0.span ∧ (State.setHostFn a0 a1 a2).pwr = a0.pwr ∧
      (State.setHostFn a0 a1 a2).boot = a0.boot ∧ (State.setHostFn a0 a1 a2).out = a0.out ∧ (State.setHostFn a0 a1 a2).free = a0.free := by
  unfold State.setHostFn; (repeat' split) <;> simp
@[simp] theorem State.modHostFn_same (a0 : State) (a1 : Nat) (a2 : HostFn → HostFn) :
    (State.modHostFn a0 a1 a2).pending = a0.pending ∧ (State.modHostFn a0 a1 a2).clk = a0.clk ∧ (State.modHostFn a0 a1 a2).cores = a0.cores ∧
      (State.modHostFn a0 a1 a2).net = a0.net ∧ (State.modHostFn a0 a1 a2).vats = a0.vats ∧ (State.modHostFn a0 a1 a2).mem = a0.mem ∧
      (State.modHostFn a0 a1 a2).hub = a0.hub ∧ (State.modHostFn a0 a1 a2).span = a0.span ∧ (State.modHostFn a0 a1 a2).pwr = a0.pwr ∧
      (State.modHostFn a0 a1 a2).boot = a0.boot ∧ (State.modHostFn a0 a1 a2).out = a0.out ∧ (State.modHostFn a0 a1 a2).free = a0.free := by
  unfold State.modHostFn; (repeat' split) <;> simp

end Sys2Proof.Machine
end

