-- ==== Sys2Proof/Laws/Frame4.lean ====
section
/-! SUPPORT. What each shared operation leaves as it is, part 4: the fields of State that it never changes. -/

namespace Sys2Proof.Machine

@[simp] theorem State.setIrqTgt_same (a0 : State) (a1 : Nat) (a2 : IrqTgt) :
    (State.setIrqTgt a0 a1 a2).pending = a0.pending ∧ (State.setIrqTgt a0 a1 a2).clk = a0.clk ∧ (State.setIrqTgt a0 a1 a2).cores = a0.cores ∧
      (State.setIrqTgt a0 a1 a2).net = a0.net ∧ (State.setIrqTgt a0 a1 a2).vats = a0.vats ∧ (State.setIrqTgt a0 a1 a2).mem = a0.mem ∧
      (State.setIrqTgt a0 a1 a2).span = a0.span ∧ (State.setIrqTgt a0 a1 a2).host = a0.host ∧ (State.setIrqTgt a0 a1 a2).pwr = a0.pwr ∧
      (State.setIrqTgt a0 a1 a2).boot = a0.boot ∧ (State.setIrqTgt a0 a1 a2).out = a0.out ∧ (State.setIrqTgt a0 a1 a2).free = a0.free := by
  unfold State.setIrqTgt; (repeat' split) <;> simp
@[simp] theorem State.logTailWrite_same (a0 : State) (a1 : Who) (a2 : Nat) :
    (State.logTailWrite a0 a1 a2).1.pending = a0.pending ∧ (State.logTailWrite a0 a1 a2).1.clk = a0.clk ∧
      (State.logTailWrite a0 a1 a2).1.cores = a0.cores ∧ (State.logTailWrite a0 a1 a2).1.net = a0.net ∧
      (State.logTailWrite a0 a1 a2).1.vats = a0.vats ∧ (State.logTailWrite a0 a1 a2).1.mem = a0.mem ∧
      (State.logTailWrite a0 a1 a2).1.span = a0.span ∧ (State.logTailWrite a0 a1 a2).1.host = a0.host ∧
      (State.logTailWrite a0 a1 a2).1.boot = a0.boot ∧ (State.logTailWrite a0 a1 a2).1.free = a0.free := by
  unfold State.logTailWrite; (repeat' split) <;> simp
@[simp] theorem State.flashStart_same (a0 : State) (a1 : Who) (a2 : Nat) (a3 : Bool) :
    (State.flashStart a0 a1 a2 a3).1.pending = a0.pending ∧ (State.flashStart a0 a1 a2 a3).1.clk = a0.clk ∧
      (State.flashStart a0 a1 a2 a3).1.cores = a0.cores ∧ (State.flashStart a0 a1 a2 a3).1.net = a0.net ∧
      (State.flashStart a0 a1 a2 a3).1.vats = a0.vats ∧ (State.flashStart a0 a1 a2 a3).1.mem = a0.mem ∧
      (State.flashStart a0 a1 a2 a3).1.span = a0.span ∧ (State.flashStart a0 a1 a2 a3).1.host = a0.host ∧
      (State.flashStart a0 a1 a2 a3).1.free = a0.free := by
  unfold State.flashStart; (repeat' split) <;> simp
@[simp] theorem execHostToMgmt_same (a0 : Nat) (a1 : State) :
    (resState a1 (execHostToMgmt a0 a1)).pending = a1.pending ∧ (resState a1 (execHostToMgmt a0 a1)).clk = a1.clk ∧
      (resState a1 (execHostToMgmt a0 a1)).cores = a1.cores ∧ (resState a1 (execHostToMgmt a0 a1)).net = a1.net ∧
      (resState a1 (execHostToMgmt a0 a1)).vats = a1.vats ∧ (resState a1 (execHostToMgmt a0 a1)).mem = a1.mem ∧
      (resState a1 (execHostToMgmt a0 a1)).span = a1.span ∧ (resState a1 (execHostToMgmt a0 a1)).host = a1.host ∧
      (resState a1 (execHostToMgmt a0 a1)).boot = a1.boot ∧ (resState a1 (execHostToMgmt a0 a1)).free = a1.free := by
  unfold execHostToMgmt; (repeat' split) <;> simp
@[simp] theorem execMgmtToHost_same (a0 : Nat) (a1 : State) :
    (resState a1 (execMgmtToHost a0 a1)).pending = a1.pending ∧ (resState a1 (execMgmtToHost a0 a1)).clk = a1.clk ∧
      (resState a1 (execMgmtToHost a0 a1)).cores = a1.cores ∧ (resState a1 (execMgmtToHost a0 a1)).net = a1.net ∧
      (resState a1 (execMgmtToHost a0 a1)).vats = a1.vats ∧ (resState a1 (execMgmtToHost a0 a1)).mem = a1.mem ∧
      (resState a1 (execMgmtToHost a0 a1)).span = a1.span ∧ (resState a1 (execMgmtToHost a0 a1)).host = a1.host ∧
      (resState a1 (execMgmtToHost a0 a1)).boot = a1.boot ∧ (resState a1 (execMgmtToHost a0 a1)).free = a1.free := by
  unfold execMgmtToHost; (repeat' split) <;> simp
@[simp] theorem State.pwrSet_same (a0 : State) (a1 : Who) (a2 : Nat) (a3 : Bool) (a4 : Pwr → Pwr) :
    (State.pwrSet a0 a1 a2 a3 a4).1.pending = a0.pending ∧ (State.pwrSet a0 a1 a2 a3 a4).1.clk = a0.clk ∧
      (State.pwrSet a0 a1 a2 a3 a4).1.cores = a0.cores ∧ (State.pwrSet a0 a1 a2 a3 a4).1.net = a0.net ∧
      (State.pwrSet a0 a1 a2 a3 a4).1.vats = a0.vats ∧ (State.pwrSet a0 a1 a2 a3 a4).1.mem = a0.mem ∧
      (State.pwrSet a0 a1 a2 a3 a4).1.span = a0.span ∧ (State.pwrSet a0 a1 a2 a3 a4).1.host = a0.host ∧
      (State.pwrSet a0 a1 a2 a3 a4).1.boot = a0.boot ∧ (State.pwrSet a0 a1 a2 a3 a4).1.free = a0.free := by
  unfold State.pwrSet; (repeat' split) <;> simp
@[simp] theorem State.enterSleep_same (a0 : State) :
    (State.enterSleep a0).pending = a0.pending ∧ (State.enterSleep a0).clk = a0.clk ∧ (State.enterSleep a0).cores = a0.cores ∧
      (State.enterSleep a0).net = a0.net ∧ (State.enterSleep a0).mem = a0.mem ∧ (State.enterSleep a0).host = a0.host ∧
      (State.enterSleep a0).boot = a0.boot ∧ (State.enterSleep a0).free = a0.free := by
  unfold State.enterSleep; (repeat' split) <;> simp
@[simp] theorem State.sleepWrite_same (a0 : State) (a1 : Who) (a2 : Bool) :
    (State.sleepWrite a0 a1 a2).1.pending = a0.pending ∧ (State.sleepWrite a0 a1 a2).1.clk = a0.clk ∧
      (State.sleepWrite a0 a1 a2).1.cores = a0.cores ∧ (State.sleepWrite a0 a1 a2).1.net = a0.net ∧ (State.sleepWrite a0 a1 a2).1.mem = a0.mem ∧
      (State.sleepWrite a0 a1 a2).1.host = a0.host ∧ (State.sleepWrite a0 a1 a2).1.boot = a0.boot ∧ (State.sleepWrite a0 a1 a2).1.free = a0.free := by
  unfold State.sleepWrite; (repeat' split) <;> simp
@[simp] theorem State.sendPair_same (a0 : State) (a1 : Nat) (a2 : Nat) (a3 : Nat) (a4 : Bool) (a5 : List Byte) :
    (State.sendPair a0 a1 a2 a3 a4 a5).pending = a0.pending ∧ (State.sendPair a0 a1 a2 a3 a4 a5).clk = a0.clk ∧
      (State.sendPair a0 a1 a2 a3 a4 a5).cores = a0.cores ∧ (State.sendPair a0 a1 a2 a3 a4 a5).net = a0.net ∧
      (State.sendPair a0 a1 a2 a3 a4 a5).vats = a0.vats ∧ (State.sendPair a0 a1 a2 a3 a4 a5).mem = a0.mem ∧
      (State.sendPair a0 a1 a2 a3 a4 a5).hub = a0.hub ∧ (State.sendPair a0 a1 a2 a3 a4 a5).host = a0.host ∧
      (State.sendPair a0 a1 a2 a3 a4 a5).pwr = a0.pwr ∧ (State.sendPair a0 a1 a2 a3 a4 a5).boot = a0.boot ∧
      (State.sendPair a0 a1 a2 a3 a4 a5).free = a0.free := by
  unfold State.sendPair; (repeat' split) <;> simp
@[simp] theorem State.portCtl_same (a0 : State) (a1 : Nat) (a2 : Nat) :
    (State.portCtl a0 a1 a2).pending = a0.pending ∧ (State.portCtl a0 a1 a2).clk = a0.clk ∧ (State.portCtl a0 a1 a2).cores = a0.cores ∧
      (State.portCtl a0 a1 a2).net = a0.net ∧ (State.portCtl a0 a1 a2).vats = a0.vats ∧ (State.portCtl a0 a1 a2).mem = a0.mem ∧
      (State.portCtl a0 a1 a2).host = a0.host ∧ (State.portCtl a0 a1 a2).boot = a0.boot ∧ (State.portCtl a0 a1 a2).free = a0.free := by
  unfold State.portCtl; dsimp only; (repeat' (split <;> try dsimp only)) <;> simp [-List.reduceReplicate]
@[simp] theorem State.setGsync_same (a0 : State) (a1 : Nat) (a2 : GsyncCtl) :
    (State.setGsync a0 a1 a2).pending = a0.pending ∧ (State.setGsync a0 a1 a2).clk = a0.clk ∧ (State.setGsync a0 a1 a2).cores = a0.cores ∧
      (State.setGsync a0 a1 a2).vats = a0.vats ∧ (State.setGsync a0 a1 a2).mem = a0.mem ∧ (State.setGsync a0 a1 a2).hub = a0.hub ∧
      (State.setGsync a0 a1 a2).span = a0.span ∧ (State.setGsync a0 a1 a2).host = a0.host ∧ (State.setGsync a0 a1 a2).pwr = a0.pwr ∧
      (State.setGsync a0 a1 a2).boot = a0.boot ∧ (State.setGsync a0 a1 a2).out = a0.out ∧ (State.setGsync a0 a1 a2).free = a0.free := by
  unfold State.setGsync; (repeat' split) <;> simp
@[simp] theorem State.modTwin_same (a0 : State) (a1 : Twin → Twin) :
    (State.modTwin a0 a1).pending = a0.pending ∧ (State.modTwin a0 a1).clk = a0.clk ∧ (State.modTwin a0 a1).cores = a0.cores ∧
      (State.modTwin a0 a1).net = a0.net ∧ (State.modTwin a0 a1).vats = a0.vats ∧ (State.modTwin a0 a1).mem = a0.mem ∧
      (State.modTwin a0 a1).hub = a0.hub ∧ (State.modTwin a0 a1).host = a0.host ∧ (State.modTwin a0 a1).pwr = a0.pwr ∧
      (State.modTwin a0 a1).boot = a0.boot ∧ (State.modTwin a0 a1).out = a0.out ∧ (State.modTwin a0 a1).free = a0.free := by
  unfold State.modTwin; (repeat' split) <;> simp
@[simp] theorem State.toStandby_same (a0 : State) (a1 : Nat) :
    (State.toStandby a0 a1).pending = a0.pending ∧ (State.toStandby a0 a1).clk = a0.clk ∧ (State.toStandby a0 a1).cores = a0.cores ∧
      (State.toStandby a0 a1).net = a0.net ∧ (State.toStandby a0 a1).mem = a0.mem ∧ (State.toStandby a0 a1).hub = a0.hub ∧
      (State.toStandby a0 a1).host = a0.host ∧ (State.toStandby a0 a1).pwr = a0.pwr ∧ (State.toStandby a0 a1).boot = a0.boot ∧
      (State.toStandby a0 a1).out = a0.out ∧ (State.toStandby a0 a1).free = a0.free := by
  unfold State.toStandby; (repeat' split) <;> simp
@[simp] theorem State.handoverGo_same (a0 : State) :
    (State.handoverGo a0).pending = a0.pending ∧ (State.handoverGo a0).clk = a0.clk ∧ (State.handoverGo a0).cores = a0.cores ∧
      (State.handoverGo a0).net = a0.net ∧ (State.handoverGo a0).mem = a0.mem ∧ (State.handoverGo a0).hub = a0.hub ∧
      (State.handoverGo a0).host = a0.host ∧ (State.handoverGo a0).pwr = a0.pwr ∧ (State.handoverGo a0).boot = a0.boot ∧
      (State.handoverGo a0).out = a0.out ∧ (State.handoverGo a0).free = a0.free := by
  unfold State.handoverGo; (repeat' split) <;> simp
@[simp] theorem State.twinCopy_same (a0 : State) (a1 : Nat) (a2 : Nat) (a3 : Nat) :
    (State.twinCopy a0 a1 a2 a3).pending = a0.pending ∧ (State.twinCopy a0 a1 a2 a3).clk = a0.clk ∧ (State.twinCopy a0 a1 a2 a3).cores = a0.cores ∧
      (State.twinCopy a0 a1 a2 a3).net = a0.net ∧ (State.twinCopy a0 a1 a2 a3).host = a0.host ∧ (State.twinCopy a0 a1 a2 a3).boot = a0.boot ∧
      (State.twinCopy a0 a1 a2 a3).free = a0.free := by
  unfold State.twinCopy; (repeat' split) <;> simp
@[simp] theorem State.twinGo_same (a0 : State) (a1 : Nat) :
    (State.twinGo a0 a1).pending = a0.pending ∧ (State.twinGo a0 a1).clk = a0.clk ∧ (State.twinGo a0 a1).cores = a0.cores ∧
      (State.twinGo a0 a1).net = a0.net ∧ (State.twinGo a0 a1).boot = a0.boot ∧ (State.twinGo a0 a1).free = a0.free := by
  unfold State.twinGo; (repeat' split) <;> simp
@[simp] theorem State.twinOk_same (a0 : State) (a1 : Caller) :
    (State.twinOk a0 a1).pending = a0.pending ∧ (State.twinOk a0 a1).clk = a0.clk ∧ (State.twinOk a0 a1).cores = a0.cores ∧
      (State.twinOk a0 a1).net = a0.net ∧ (State.twinOk a0 a1).vats = a0.vats ∧ (State.twinOk a0 a1).mem = a0.mem ∧
      (State.twinOk a0 a1).hub = a0.hub ∧ (State.twinOk a0 a1).pwr = a0.pwr ∧ (State.twinOk a0 a1).boot = a0.boot ∧
      (State.twinOk a0 a1).out = a0.out ∧ (State.twinOk a0 a1).free = a0.free := by
  unfold State.twinOk; (repeat' split) <;> simp
@[simp] theorem State.twinRefuse_same (a0 : State) (a1 : Caller) (a2 : Nat) :
    (State.twinRefuse a0 a1 a2).pending = a0.pending ∧ (State.twinRefuse a0 a1 a2).clk = a0.clk ∧ (State.twinRefuse a0 a1 a2).cores = a0.cores ∧
      (State.twinRefuse a0 a1 a2).net = a0.net ∧ (State.twinRefuse a0 a1 a2).vats = a0.vats ∧ (State.twinRefuse a0 a1 a2).mem = a0.mem ∧
      (State.twinRefuse a0 a1 a2).boot = a0.boot ∧ (State.twinRefuse a0 a1 a2).free = a0.free := by
  unfold State.twinRefuse; (repeat' split) <;> simp
@[simp] theorem State.twinHandover_same (a0 : State) (a1 : Caller) :
    (State.twinHandover a0 a1).pending = a0.pending ∧ (State.twinHandover a0 a1).clk = a0.clk ∧ (State.twinHandover a0 a1).cores = a0.cores ∧
      (State.twinHandover a0 a1).net = a0.net ∧ (State.twinHandover a0 a1).boot = a0.boot ∧ (State.twinHandover a0 a1).free = a0.free := by
  unfold State.twinHandover; (repeat' split) <;> simp
@[simp] theorem State.twinPair_same (a0 : State) (a1 : Caller) (a2 : Bool) :
    (State.twinPair a0 a1 a2).pending = a0.pending ∧ (State.twinPair a0 a1 a2).clk = a0.clk ∧ (State.twinPair a0 a1 a2).cores = a0.cores ∧
      (State.twinPair a0 a1 a2).net = a0.net ∧ (State.twinPair a0 a1 a2).vats = a0.vats ∧ (State.twinPair a0 a1 a2).mem = a0.mem ∧
      (State.twinPair a0 a1 a2).boot = a0.boot ∧ (State.twinPair a0 a1 a2).free = a0.free := by
  unfold State.twinPair; (repeat' split) <;> simp
@[simp] theorem State.twinTakeover_same (a0 : State) (a1 : Caller) :
    (State.twinTakeover a0 a1).pending = a0.pending ∧ (State.twinTakeover a0 a1).clk = a0.clk ∧ (State.twinTakeover a0 a1).cores = a0.cores ∧
      (State.twinTakeover a0 a1).net = a0.net ∧ (State.twinTakeover a0 a1).mem = a0.mem ∧ (State.twinTakeover a0 a1).boot = a0.boot ∧
      (State.twinTakeover a0 a1).free = a0.free := by
  unfold State.twinTakeover; (repeat' split) <;> simp
@[simp] theorem State.twinUnpair_same (a0 : State) (a1 : Caller) :
    (State.twinUnpair a0 a1).pending = a0.pending ∧ (State.twinUnpair a0 a1).clk = a0.clk ∧ (State.twinUnpair a0 a1).cores = a0.cores ∧
      (State.twinUnpair a0 a1).net = a0.net ∧ (State.twinUnpair a0 a1).mem = a0.mem ∧ (State.twinUnpair a0 a1).boot = a0.boot ∧
      (State.twinUnpair a0 a1).free = a0.free := by
  unfold State.twinUnpair; (repeat' split) <;> simp
@[simp] theorem State.twinCmd_same (a0 : State) (a1 : Nat) (a2 : Caller) :
    (State.twinCmd a0 a1 a2).pending = a0.pending ∧ (State.twinCmd a0 a1 a2).clk = a0.clk ∧ (State.twinCmd a0 a1 a2).cores = a0.cores ∧
      (State.twinCmd a0 a1 a2).net = a0.net ∧ (State.twinCmd a0 a1 a2).boot = a0.boot ∧ (State.twinCmd a0 a1 a2).free = a0.free := by
  unfold State.twinCmd; (repeat' split) <;> simp
@[simp] theorem State.seqAnswer_same (a0 : State) (a1 : Nat) (a2 : SeqReq) (a3 : Nat) (a4 : Nat) :
    (State.seqAnswer a0 a1 a2 a3 a4).pending = a0.pending ∧ (State.seqAnswer a0 a1 a2 a3 a4).clk = a0.clk ∧
      (State.seqAnswer a0 a1 a2 a3 a4).cores = a0.cores ∧ (State.seqAnswer a0 a1 a2 a3 a4).net = a0.net ∧
      (State.seqAnswer a0 a1 a2 a3 a4).mem = a0.mem ∧ (State.seqAnswer a0 a1 a2 a3 a4).span = a0.span ∧
      (State.seqAnswer a0 a1 a2 a3 a4).boot = a0.boot ∧ (State.seqAnswer a0 a1 a2 a3 a4).free = a0.free := by
  unfold State.seqAnswer; (repeat' split) <;> simp
@[simp] theorem State.seqApply_same (a0 : State) (a1 : Nat) (a2 : SeqReq) :
    (State.seqApply a0 a1 a2).pending = a0.pending ∧ (State.seqApply a0 a1 a2).clk = a0.clk ∧ (State.seqApply a0 a1 a2).cores = a0.cores ∧
      (State.seqApply a0 a1 a2).net = a0.net ∧ (State.seqApply a0 a1 a2).mem = a0.mem ∧ (State.seqApply a0 a1 a2).span = a0.span ∧
      (State.seqApply a0 a1 a2).boot = a0.boot ∧ (State.seqApply a0 a1 a2).free = a0.free := by
  unfold State.seqApply; (repeat' split) <;> simp
@[simp] theorem State.seqReq_same (a0 : State) (a1 : Nat) (a2 : SeqReq) :
    (State.seqReq a0 a1 a2).pending = a0.pending ∧ (State.seqReq a0 a1 a2).clk = a0.clk ∧ (State.seqReq a0 a1 a2).cores = a0.cores ∧
      (State.seqReq a0 a1 a2).net = a0.net ∧ (State.seqReq a0 a1 a2).mem = a0.mem ∧ (State.seqReq a0 a1 a2).span = a0.span ∧
      (State.seqReq a0 a1 a2).boot = a0.boot ∧ (State.seqReq a0 a1 a2).free = a0.free := by
  unfold State.seqReq; (repeat' split) <;> simp
@[simp] theorem State.seqVatman_same (a0 : State) (a1 : Nat) (a2 : Nat) (a3 : Nat) (a4 : Nat) :
    (State.seqVatman a0 a1 a2 a3 a4).pending = a0.pending ∧ (State.seqVatman a0 a1 a2 a3 a4).clk = a0.clk ∧
      (State.seqVatman a0 a1 a2 a3 a4).cores = a0.cores ∧ (State.seqVatman a0 a1 a2 a3 a4).net = a0.net ∧
      (State.seqVatman a0 a1 a2 a3 a4).mem = a0.mem ∧ (State.seqVatman a0 a1 a2 a3 a4).span = a0.span ∧
      (State.seqVatman a0 a1 a2 a3 a4).boot = a0.boot ∧ (State.seqVatman a0 a1 a2 a3 a4).free = a0.free := by
  unfold State.seqVatman; (repeat' split) <;> simp
@[simp] theorem State.seqCmdWrite_same (a0 : State) (a1 : Nat) (a2 : Nat) :
    (State.seqCmdWrite a0 a1 a2).pending = a0.pending ∧ (State.seqCmdWrite a0 a1 a2).clk = a0.clk ∧ (State.seqCmdWrite a0 a1 a2).cores = a0.cores ∧
      (State.seqCmdWrite a0 a1 a2).net = a0.net ∧ (State.seqCmdWrite a0 a1 a2).mem = a0.mem ∧ (State.seqCmdWrite a0 a1 a2).span = a0.span ∧
      (State.seqCmdWrite a0 a1 a2).boot = a0.boot ∧ (State.seqCmdWrite a0 a1 a2).free = a0.free := by
  unfold State.seqCmdWrite; (repeat' split) <;> simp
@[simp] theorem State.setVatPerm_same (a0 : State) (a1 : Nat) (a2 : SpanVatPerm) :
    (State.setVatPerm a0 a1 a2).pending = a0.pending ∧ (State.setVatPerm a0 a1 a2).clk = a0.clk ∧ (State.setVatPerm a0 a1 a2).cores = a0.cores ∧
      (State.setVatPerm a0 a1 a2).net = a0.net ∧ (State.setVatPerm a0 a1 a2).vats = a0.vats ∧ (State.setVatPerm a0 a1 a2).mem = a0.mem ∧
      (State.setVatPerm a0 a1 a2).hub = a0.hub ∧ (State.setVatPerm a0 a1 a2).host = a0.host ∧ (State.setVatPerm a0 a1 a2).pwr = a0.pwr ∧
      (State.setVatPerm a0 a1 a2).boot = a0.boot ∧ (State.setVatPerm a0 a1 a2).out = a0.out ∧ (State.setVatPerm a0 a1 a2).free = a0.free := by
  unfold State.setVatPerm; (repeat' split) <;> simp
@[simp] theorem State.toHeld_same (a0 : State) (a1 : Nat) :
    (State.toHeld a0 a1).pending = a0.pending ∧ (State.toHeld a0 a1).clk = a0.clk ∧ (State.toHeld a0 a1).cores = a0.cores ∧
      (State.toHeld a0 a1).net = a0.net ∧ (State.toHeld a0 a1).mem = a0.mem ∧ (State.toHeld a0 a1).hub = a0.hub ∧
      (State.toHeld a0 a1).host = a0.host ∧ (State.toHeld a0 a1).pwr = a0.pwr ∧ (State.toHeld a0 a1).boot = a0.boot ∧
      (State.toHeld a0 a1).out = a0.out ∧ (State.toHeld a0 a1).free = a0.free := by
  unfold State.toHeld; (repeat' split) <;> simp
@[simp] theorem State.yieldEnd_same (a0 : State) (a1 : Nat) :
    (State.yieldEnd a0 a1).pending = a0.pending ∧ (State.yieldEnd a0 a1).clk = a0.clk ∧ (State.yieldEnd a0 a1).cores = a0.cores ∧
      (State.yieldEnd a0 a1).net = a0.net ∧ (State.yieldEnd a0 a1).mem = a0.mem ∧ (State.yieldEnd a0 a1).hub = a0.hub ∧
      (State.yieldEnd a0 a1).host = a0.host ∧ (State.yieldEnd a0 a1).pwr = a0.pwr ∧ (State.yieldEnd a0 a1).boot = a0.boot ∧
      (State.yieldEnd a0 a1).out = a0.out ∧ (State.yieldEnd a0 a1).free = a0.free := by
  unfold State.yieldEnd; (repeat' split) <;> simp
@[simp] theorem execYield_same (a0 : Nat) (a1 : State) :
    (resState a1 (execYield a0 a1)).pending = a1.pending ∧ (resState a1 (execYield a0 a1)).clk = a1.clk ∧
      (resState a1 (execYield a0 a1)).cores = a1.cores ∧ (resState a1 (execYield a0 a1)).net = a1.net ∧
      (resState a1 (execYield a0 a1)).host = a1.host ∧ (resState a1 (execYield a0 a1)).boot = a1.boot ∧
      (resState a1 (execYield a0 a1)).free = a1.free := by
  unfold execYield; (repeat' split) <;> simp
@[simp] theorem execArm_same (a0 : Nat) (a1 : W32) (a2 : State) :
    (resState a2 (execArm a0 a1 a2)).pending = a2.pending ∧ (resState a2 (execArm a0 a1 a2)).clk = a2.clk ∧
      (resState a2 (execArm a0 a1 a2)).cores = a2.cores ∧ (resState a2 (execArm a0 a1 a2)).net = a2.net ∧
      (resState a2 (execArm a0 a1 a2)).mem = a2.mem ∧ (resState a2 (execArm a0 a1 a2)).span = a2.span ∧
      (resState a2 (execArm a0 a1 a2)).host = a2.host ∧ (resState a2 (execArm a0 a1 a2)).boot = a2.boot ∧
      (resState a2 (execArm a0 a1 a2)).free = a2.free := by
  unfold execArm; (repeat' split) <;> simp
@[simp] theorem State.twinVatCtl_same (a0 : State) (a1 : Nat) (a2 : Nat) :
    (State.twinVatCtl a0 a1 a2).pending = a0.pending ∧ (State.twinVatCtl a0 a1 a2).clk = a0.clk ∧ (State.twinVatCtl a0 a1 a2).cores = a0.cores ∧
      (State.twinVatCtl a0 a1 a2).net = a0.net ∧ (State.twinVatCtl a0 a1 a2).mem = a0.mem ∧ (State.twinVatCtl a0 a1 a2).hub = a0.hub ∧
      (State.twinVatCtl a0 a1 a2).span = a0.span ∧ (State.twinVatCtl a0 a1 a2).host = a0.host ∧ (State.twinVatCtl a0 a1 a2).pwr = a0.pwr ∧
      (State.twinVatCtl a0 a1 a2).boot = a0.boot ∧ (State.twinVatCtl a0 a1 a2).out = a0.out ∧ (State.twinVatCtl a0 a1 a2).free = a0.free := by
  unfold State.twinVatCtl; (repeat' split) <;> simp
@[simp] theorem State.twinVatRefuse_same (a0 : State) (a1 : Nat) (a2 : Nat) :
    (State.twinVatRefuse a0 a1 a2).pending = a0.pending ∧ (State.twinVatRefuse a0 a1 a2).clk = a0.clk ∧
      (State.twinVatRefuse a0 a1 a2).cores = a0.cores ∧ (State.twinVatRefuse a0 a1 a2).net = a0.net ∧ (State.twinVatRefuse a0 a1 a2).mem = a0.mem ∧
      (State.twinVatRefuse a0 a1 a2).span = a0.span ∧ (State.twinVatRefuse a0 a1 a2).host = a0.host ∧
      (State.twinVatRefuse a0 a1 a2).boot = a0.boot ∧ (State.twinVatRefuse a0 a1 a2).free = a0.free := by
  unfold State.twinVatRefuse; (repeat' split) <;> simp
@[simp] theorem execMirrorDisable_same (a0 : Nat) (a1 : Nat) (a2 : State) :
    (resState a2 (execMirrorDisable a0 a1 a2)).pending = a2.pending ∧ (resState a2 (execMirrorDisable a0 a1 a2)).clk = a2.clk ∧
      (resState a2 (execMirrorDisable a0 a1 a2)).cores = a2.cores ∧ (resState a2 (execMirrorDisable a0 a1 a2)).net = a2.net ∧
      (resState a2 (execMirrorDisable a0 a1 a2)).mem = a2.mem ∧ (resState a2 (execMirrorDisable a0 a1 a2)).boot = a2.boot ∧
      (resState a2 (execMirrorDisable a0 a1 a2)).free = a2.free := by
  unfold execMirrorDisable; (repeat' split) <;> simp
@[simp] theorem execMirrorEnable_same (a0 : Nat) (a1 : Nat) (a2 : State) :
    (resState a2 (execMirrorEnable a0 a1 a2)).pending = a2.pending ∧ (resState a2 (execMirrorEnable a0 a1 a2)).clk = a2.clk ∧
      (resState a2 (execMirrorEnable a0 a1 a2)).cores = a2.cores ∧ (resState a2 (execMirrorEnable a0 a1 a2)).net = a2.net ∧
      (resState a2 (execMirrorEnable a0 a1 a2)).mem = a2.mem ∧ (resState a2 (execMirrorEnable a0 a1 a2)).host = a2.host ∧
      (resState a2 (execMirrorEnable a0 a1 a2)).boot = a2.boot ∧ (resState a2 (execMirrorEnable a0 a1 a2)).free = a2.free := by
  unfold execMirrorEnable; (repeat' split) <;> simp
@[simp] theorem State.resyncBegin_same (a0 : State) (a1 : Nat) :
    (State.resyncBegin a0 a1).pending = a0.pending ∧ (State.resyncBegin a0 a1).clk = a0.clk ∧ (State.resyncBegin a0 a1).cores = a0.cores ∧
      (State.resyncBegin a0 a1).net = a0.net ∧ (State.resyncBegin a0 a1).boot = a0.boot ∧ (State.resyncBegin a0 a1).free = a0.free := by
  unfold State.resyncBegin; (repeat' split) <;> simp
@[simp] theorem execResync_same (a0 : Nat) (a1 : State) :
    (resState a1 (execResync a0 a1)).pending = a1.pending ∧ (resState a1 (execResync a0 a1)).clk = a1.clk ∧
      (resState a1 (execResync a0 a1)).cores = a1.cores ∧ (resState a1 (execResync a0 a1)).net = a1.net ∧
      (resState a1 (execResync a0 a1)).boot = a1.boot ∧ (resState a1 (execResync a0 a1)).free = a1.free := by
  unfold execResync; (repeat' split) <;> simp
@[simp] theorem execTwinCommit_same (a0 : Nat) (a1 : State) :
    (resState a1 (execTwinCommit a0 a1)).pending = a1.pending ∧ (resState a1 (execTwinCommit a0 a1)).clk = a1.clk ∧
      (resState a1 (execTwinCommit a0 a1)).cores = a1.cores ∧ (resState a1 (execTwinCommit a0 a1)).net = a1.net ∧
      (resState a1 (execTwinCommit a0 a1)).boot = a1.boot ∧ (resState a1 (execTwinCommit a0 a1)).free = a1.free := by
  unfold execTwinCommit; (repeat' split) <;> simp
@[simp] theorem State.twinCtlWrite_same (a0 : State) (a1 : Nat) (a2 : Nat) :
    (State.twinCtlWrite a0 a1 a2).pending = a0.pending ∧ (State.twinCtlWrite a0 a1 a2).clk = a0.clk ∧
      (State.twinCtlWrite a0 a1 a2).cores = a0.cores ∧ (State.twinCtlWrite a0 a1 a2).net = a0.net ∧ (State.twinCtlWrite a0 a1 a2).boot = a0.boot ∧
      (State.twinCtlWrite a0 a1 a2).free = a0.free := by
  unfold State.twinCtlWrite; (repeat' split) <;> simp
@[simp] theorem State.vmWrite_same (a0 : State) (a1 : Who) (a2 : Nat) (a3 : Nat) :
    (State.vmWrite a0 a1 a2 a3).1.pending = a0.pending ∧ (State.vmWrite a0 a1 a2 a3).1.clk = a0.clk ∧ (State.vmWrite a0 a1 a2 a3).1.net = a0.net ∧
      (State.vmWrite a0 a1 a2 a3).1.mem = a0.mem ∧ (State.vmWrite a0 a1 a2 a3).1.span = a0.span ∧ (State.vmWrite a0 a1 a2 a3).1.host = a0.host ∧
      (State.vmWrite a0 a1 a2 a3).1.boot = a0.boot ∧ (State.vmWrite a0 a1 a2 a3).1.free = a0.free := by
  unfold State.vmWrite; (repeat' split) <;> simp
@[simp] theorem execCouchReset_same (a0 : Nat) (a1 : State) :
    (resState a1 (execCouchReset a0 a1)).pending = a1.pending ∧ (resState a1 (execCouchReset a0 a1)).clk = a1.clk ∧
      (resState a1 (execCouchReset a0 a1)).cores = a1.cores ∧ (resState a1 (execCouchReset a0 a1)).vats = a1.vats ∧
      (resState a1 (execCouchReset a0 a1)).mem = a1.mem ∧ (resState a1 (execCouchReset a0 a1)).span = a1.span ∧
      (resState a1 (execCouchReset a0 a1)).host = a1.host ∧ (resState a1 (execCouchReset a0 a1)).boot = a1.boot ∧
      (resState a1 (execCouchReset a0 a1)).free = a1.free := by
  unfold execCouchReset; (repeat' split) <;> simp
@[simp] theorem State.refuseCmd_same (a0 : State) (a1 : Nat) (a2 : Caller) (a3 : Nat) :
    (State.refuseCmd a0 a1 a2 a3).pending = a0.pending ∧ (State.refuseCmd a0 a1 a2 a3).clk = a0.clk ∧
      (State.refuseCmd a0 a1 a2 a3).cores = a0.cores ∧ (State.refuseCmd a0 a1 a2 a3).net = a0.net ∧ (State.refuseCmd a0 a1 a2 a3).mem = a0.mem ∧
      (State.refuseCmd a0 a1 a2 a3).span = a0.span ∧ (State.refuseCmd a0 a1 a2 a3).boot = a0.boot ∧ (State.refuseCmd a0 a1 a2 a3).free = a0.free := by
  unfold State.refuseCmd; (repeat' split) <;> simp
@[simp] theorem State.forceStopOr_same (a0 : State) (a1 : Nat) :
    (State.forceStopOr a0 a1).1.pending = a0.pending ∧ (State.forceStopOr a0 a1).1.clk = a0.clk ∧ (State.forceStopOr a0 a1).1.net = a0.net ∧
      (State.forceStopOr a0 a1).1.hub = a0.hub ∧ (State.forceStopOr a0 a1).1.span = a0.span ∧ (State.forceStopOr a0 a1).1.pwr = a0.pwr ∧
      (State.forceStopOr a0 a1).1.boot = a0.boot ∧ (State.forceStopOr a0 a1).1.out = a0.out ∧ (State.forceStopOr a0 a1).1.free = a0.free := by
  unfold State.forceStopOr; (repeat' split) <;> simp
@[simp] theorem State.loadEnd_same (a0 : State) (a1 : Nat) (a2 : Nat) (a3 : Nat) (a4 : VatSt) :
    (State.loadEnd a0 a1 a2 a3 a4).pending = a0.pending ∧ (State.loadEnd a0 a1 a2 a3 a4).clk = a0.clk ∧
      (State.loadEnd a0 a1 a2 a3 a4).net = a0.net ∧ (State.loadEnd a0 a1 a2 a3 a4).boot = a0.boot ∧ (State.loadEnd a0 a1 a2 a3 a4).free = a0.free := by
  unfold State.loadEnd; (repeat' split) <;> simp
@[simp] theorem execAbort_same (a0 : Nat) (a1 : Src) (a2 : State) :
    (resState a2 (execAbort a0 a1 a2)).pending = a2.pending ∧ (resState a2 (execAbort a0 a1 a2)).clk = a2.clk ∧
      (resState a2 (execAbort a0 a1 a2)).net = a2.net ∧ (resState a2 (execAbort a0 a1 a2)).boot = a2.boot ∧
      (resState a2 (execAbort a0 a1 a2)).free = a2.free := by
  unfold execAbort; refine ⟨by first | (simp; done) | (rw [resState_next]; apply State.command_same_pending; intros; (first | (simp; done) | (dsimp only; (repeat' (split <;> try dsimp only)) <;> simp_all)); done) | ((repeat' split) <;> first | (simp; done) | (rw [resState_next]; apply State.command_same_pending; intros; (first | (simp; done) | (dsimp only; (repeat' (split <;> try dsimp only)) <;> simp_all)); done)), by first | (simp; done) | (rw [resState_next]; apply State.command_same_clk; intros; (first | (simp; done) | (dsimp only; (repeat' (split <;> try dsimp only)) <;> simp_all)); done) | ((repeat' split) <;> first | (simp; done) | (rw [resState_next]; apply State.command_same_clk; intros; (first | (simp; done) | (dsimp only; (repeat' (split <;> try dsimp only)) <;> simp_all)); done)), by first | (simp; done) | (rw [resState_next]; apply State.command_same_net; intros; (first | (simp; done) | (dsimp only; (repeat' (split <;> try dsimp only)) <;> simp_all)); done) | ((repeat' split) <;> first | (simp; done) | (rw [resState_next]; apply State.command_same_net; intros; (first | (simp; done) | (dsimp only; (repeat' (split <;> try dsimp only)) <;> simp_all)); done)), by first | (simp; done) | (rw [resState_next]; apply State.command_same_boot; intros; (first | (simp; done) | (dsimp only; (repeat' (split <;> try dsimp only)) <;> simp_all)); done) | ((repeat' split) <;> first | (simp; done) | (rw [resState_next]; apply State.command_same_boot; intros; (first | (simp; done) | (dsimp only; (repeat' (split <;> try dsimp only)) <;> simp_all)); done)), by first | (simp; done) | (rw [resState_next]; apply State.command_same_free; intros; (first | (simp; done) | (dsimp only; (repeat' (split <;> try dsimp only)) <;> simp_all)); done) | ((repeat' split) <;> first | (simp; done) | (rw [resState_next]; apply State.command_same_free; intros; (first | (simp; done) | (dsimp only; (repeat' (split <;> try dsimp only)) <;> simp_all)); done))⟩
@[simp] theorem State.loadBegin_same (a0 : State) (a1 : Nat) (a2 : Caller) (a3 : Bool) (a4 : Nat) :
    (State.loadBegin a0 a1 a2 a3 a4).pending = a0.pending ∧ (State.loadBegin a0 a1 a2 a3 a4).clk = a0.clk ∧
      (State.loadBegin a0 a1 a2 a3 a4).cores = a0.cores ∧ (State.loadBegin a0 a1 a2 a3 a4).net = a0.net ∧
      (State.loadBegin a0 a1 a2 a3 a4).mem = a0.mem ∧ (State.loadBegin a0 a1 a2 a3 a4).hub = a0.hub ∧
      (State.loadBegin a0 a1 a2 a3 a4).span = a0.span ∧ (State.loadBegin a0 a1 a2 a3 a4).host = a0.host ∧
      (State.loadBegin a0 a1 a2 a3 a4).pwr = a0.pwr ∧ (State.loadBegin a0 a1 a2 a3 a4).boot = a0.boot ∧
      (State.loadBegin a0 a1 a2 a3 a4).out = a0.out ∧ (State.loadBegin a0 a1 a2 a3 a4).free = a0.free := by
  unfold State.loadBegin; (repeat' split) <;> simp
@[simp] theorem execLoad_same (a0 : Nat) (a1 : Src) (a2 : State) :
    (resState a2 (execLoad a0 a1 a2)).pending = a2.pending ∧ (resState a2 (execLoad a0 a1 a2)).clk = a2.clk ∧
      (resState a2 (execLoad a0 a1 a2)).net = a2.net ∧ (resState a2 (execLoad a0 a1 a2)).boot = a2.boot ∧
      (resState a2 (execLoad a0 a1 a2)).free = a2.free := by
  unfold execLoad; refine ⟨by first | (simp; done) | (rw [resState_next]; apply State.command_same_pending; intros; (first | (simp; done) | (dsimp only; (repeat' (split <;> try dsimp only)) <;> simp_all)); done) | ((repeat' split) <;> first | (simp; done) | (rw [resState_next]; apply State.command_same_pending; intros; (first | (simp; done) | (dsimp only; (repeat' (split <;> try dsimp only)) <;> simp_all)); done)), by first | (simp; done) | (rw [resState_next]; apply State.command_same_clk; intros; (first | (simp; done) | (dsimp only; (repeat' (split <;> try dsimp only)) <;> simp_all)); done) | ((repeat' split) <;> first | (simp; done) | (rw [resState_next]; apply State.command_same_clk; intros; (first | (simp; done) | (dsimp only; (repeat' (split <;> try dsimp only)) <;> simp_all)); done)), by first | (simp; done) | (rw [resState_next]; apply State.command_same_net; intros; (first | (simp; done) | (dsimp only; (repeat' (split <;> try dsimp only)) <;> simp_all)); done) | ((repeat' split) <;> first | (simp; done) | (rw [resState_next]; apply State.command_same_net; intros; (first | (simp; done) | (dsimp only; (repeat' (split <;> try dsimp only)) <;> simp_all)); done)), by first | (simp; done) | (rw [resState_next]; apply State.command_same_boot; intros; (first | (simp; done) | (dsimp only; (repeat' (split <;> try dsimp only)) <;> simp_all)); done) | ((repeat' split) <;> first | (simp; done) | (rw [resState_next]; apply State.command_same_boot; intros; (first | (simp; done) | (dsimp only; (repeat' (split <;> try dsimp only)) <;> simp_all)); done)), by first | (simp; done) | (rw [resState_next]; apply State.command_same_free; intros; (first | (simp; done) | (dsimp only; (repeat' (split <;> try dsimp only)) <;> simp_all)); done) | ((repeat' split) <;> first | (simp; done) | (rw [resState_next]; apply State.command_same_free; intros; (first | (simp; done) | (dsimp only; (repeat' (split <;> try dsimp only)) <;> simp_all)); done))⟩
@[simp] theorem State.lowerDeckle_same (a0 : State) (a1 : Nat) :
    (State.lowerDeckle a0 a1).pending = a0.pending ∧ (State.lowerDeckle a0 a1).clk = a0.clk ∧ (State.lowerDeckle a0 a1).mem = a0.mem ∧
      (State.lowerDeckle a0 a1).span = a0.span ∧ (State.lowerDeckle a0 a1).host = a0.host ∧ (State.lowerDeckle a0 a1).boot = a0.boot ∧
      (State.lowerDeckle a0 a1).free = a0.free := by
  unfold State.lowerDeckle; (repeat' split) <;> simp
@[simp] theorem State.okCmd_same (a0 : State) (a1 : Nat) (a2 : Caller) :
    (State.okCmd a0 a1 a2).pending = a0.pending ∧ (State.okCmd a0 a1 a2).clk = a0.clk ∧ (State.okCmd a0 a1 a2).cores = a0.cores ∧
      (State.okCmd a0 a1 a2).net = a0.net ∧ (State.okCmd a0 a1 a2).mem = a0.mem ∧ (State.okCmd a0 a1 a2).hub = a0.hub ∧
      (State.okCmd a0 a1 a2).span = a0.span ∧ (State.okCmd a0 a1 a2).pwr = a0.pwr ∧ (State.okCmd a0 a1 a2).boot = a0.boot ∧
      (State.okCmd a0 a1 a2).out = a0.out ∧ (State.okCmd a0 a1 a2).free = a0.free := by
  unfold State.okCmd; (repeat' split) <;> simp
@[simp] theorem execRelease_same (a0 : Nat) (a1 : Src) (a2 : State) :
    (resState a2 (execRelease a0 a1 a2)).pending = a2.pending ∧ (resState a2 (execRelease a0 a1 a2)).clk = a2.clk ∧
      (resState a2 (execRelease a0 a1 a2)).mem = a2.mem ∧ (resState a2 (execRelease a0 a1 a2)).span = a2.span ∧
      (resState a2 (execRelease a0 a1 a2)).boot = a2.boot ∧ (resState a2 (execRelease a0 a1 a2)).free = a2.free := by
  unfold execRelease; refine ⟨by first | (simp; done) | (rw [resState_next]; apply State.command_same_pending; intros; (first | (simp; done) | (dsimp only; (repeat' (split <;> try dsimp only)) <;> simp_all)); done) | ((repeat' split) <;> first | (simp; done) | (rw [resState_next]; apply State.command_same_pending; intros; (first | (simp; done) | (dsimp only; (repeat' (split <;> try dsimp only)) <;> simp_all)); done)), by first | (simp; done) | (rw [resState_next]; apply State.command_same_clk; intros; (first | (simp; done) | (dsimp only; (repeat' (split <;> try dsimp only)) <;> simp_all)); done) | ((repeat' split) <;> first | (simp; done) | (rw [resState_next]; apply State.command_same_clk; intros; (first | (simp; done) | (dsimp only; (repeat' (split <;> try dsimp only)) <;> simp_all)); done)), by first | (simp; done) | (rw [resState_next]; apply State.command_same_mem; intros; (first | (simp; done) | (dsimp only; (repeat' (split <;> try dsimp only)) <;> simp_all)); done) | ((repeat' split) <;> first | (simp; done) | (rw [resState_next]; apply State.command_same_mem; intros; (first | (simp; done) | (dsimp only; (repeat' (split <;> try dsimp only)) <;> simp_all)); done)), by first | (simp; done) | (rw [resState_next]; apply State.command_same_span; intros; (first | (simp; done) | (dsimp only; (repeat' (split <;> try dsimp only)) <;> simp_all)); done) | ((repeat' split) <;> first | (simp; done) | (rw [resState_next]; apply State.command_same_span; intros; (first | (simp; done) | (dsimp only; (repeat' (split <;> try dsimp only)) <;> simp_all)); done)), by first | (simp; done) | (rw [resState_next]; apply State.command_same_boot; intros; (first | (simp; done) | (dsimp only; (repeat' (split <;> try dsimp only)) <;> simp_all)); done) | ((repeat' split) <;> first | (simp; done) | (rw [resState_next]; apply State.command_same_boot; intros; (first | (simp; done) | (dsimp only; (repeat' (split <;> try dsimp only)) <;> simp_all)); done)), by first | (simp; done) | (rw [resState_next]; apply State.command_same_free; intros; (first | (simp; done) | (dsimp only; (repeat' (split <;> try dsimp only)) <;> simp_all)); done) | ((repeat' split) <;> first | (simp; done) | (rw [resState_next]; apply State.command_same_free; intros; (first | (simp; done) | (dsimp only; (repeat' (split <;> try dsimp only)) <;> simp_all)); done))⟩
@[simp] theorem State.resumeChn_same (a0 : State) (a1 : Nat) :
    (State.resumeChn a0 a1).pending = a0.pending ∧ (State.resumeChn a0 a1).clk = a0.clk ∧ (State.resumeChn a0 a1).vats = a0.vats ∧
      (State.resumeChn a0 a1).mem = a0.mem ∧ (State.resumeChn a0 a1).span = a0.span ∧ (State.resumeChn a0 a1).host = a0.host ∧
      (State.resumeChn a0 a1).boot = a0.boot ∧ (State.resumeChn a0 a1).free = a0.free := by
  unfold State.resumeChn; (repeat' split) <;> simp
@[simp] theorem execResume_same (a0 : Nat) (a1 : Src) (a2 : State) :
    (resState a2 (execResume a0 a1 a2)).pending = a2.pending ∧ (resState a2 (execResume a0 a1 a2)).clk = a2.clk ∧
      (resState a2 (execResume a0 a1 a2)).mem = a2.mem ∧ (resState a2 (execResume a0 a1 a2)).span = a2.span ∧
      (resState a2 (execResume a0 a1 a2)).boot = a2.boot ∧ (resState a2 (execResume a0 a1 a2)).free = a2.free := by
  unfold execResume; refine ⟨by first | (simp; done) | (rw [resState_next]; apply State.command_same_pending; intros; (first | (simp; done) | (dsimp only; (repeat' (split <;> try dsimp only)) <;> simp_all)); done) | ((repeat' split) <;> first | (simp; done) | (rw [resState_next]; apply State.command_same_pending; intros; (first | (simp; done) | (dsimp only; (repeat' (split <;> try dsimp only)) <;> simp_all)); done)), by first | (simp; done) | (rw [resState_next]; apply State.command_same_clk; intros; (first | (simp; done) | (dsimp only; (repeat' (split <;> try dsimp only)) <;> simp_all)); done) | ((repeat' split) <;> first | (simp; done) | (rw [resState_next]; apply State.command_same_clk; intros; (first | (simp; done) | (dsimp only; (repeat' (split <;> try dsimp only)) <;> simp_all)); done)), by first | (simp; done) | (rw [resState_next]; apply State.command_same_mem; intros; (first | (simp; done) | (dsimp only; (repeat' (split <;> try dsimp only)) <;> simp_all)); done) | ((repeat' split) <;> first | (simp; done) | (rw [resState_next]; apply State.command_same_mem; intros; (first | (simp; done) | (dsimp only; (repeat' (split <;> try dsimp only)) <;> simp_all)); done)), by first | (simp; done) | (rw [resState_next]; apply State.command_same_span; intros; (first | (simp; done) | (dsimp only; (repeat' (split <;> try dsimp only)) <;> simp_all)); done) | ((repeat' split) <;> first | (simp; done) | (rw [resState_next]; apply State.command_same_span; intros; (first | (simp; done) | (dsimp only; (repeat' (split <;> try dsimp only)) <;> simp_all)); done)), by first | (simp; done) | (rw [resState_next]; apply State.command_same_boot; intros; (first | (simp; done) | (dsimp only; (repeat' (split <;> try dsimp only)) <;> simp_all)); done) | ((repeat' split) <;> first | (simp; done) | (rw [resState_next]; apply State.command_same_boot; intros; (first | (simp; done) | (dsimp only; (repeat' (split <;> try dsimp only)) <;> simp_all)); done)), by first | (simp; done) | (rw [resState_next]; apply State.command_same_free; intros; (first | (simp; done) | (dsimp only; (repeat' (split <;> try dsimp only)) <;> simp_all)); done) | ((repeat' split) <;> first | (simp; done) | (rw [resState_next]; apply State.command_same_free; intros; (first | (simp; done) | (dsimp only; (repeat' (split <;> try dsimp only)) <;> simp_all)); done))⟩
@[simp] theorem execScanIn_same (a0 : Nat) (a1 : Src) (a2 : State) :
    (resState a2 (execScanIn a0 a1 a2)).pending = a2.pending ∧ (resState a2 (execScanIn a0 a1 a2)).clk = a2.clk ∧
      (resState a2 (execScanIn a0 a1 a2)).net = a2.net ∧ (resState a2 (execScanIn a0 a1 a2)).boot = a2.boot ∧
      (resState a2 (execScanIn a0 a1 a2)).free = a2.free := by
  unfold execScanIn; refine ⟨by first | (simp; done) | (rw [resState_next]; apply State.command_same_pending; intros; (first | (simp; done) | (dsimp only; (repeat' (split <;> try dsimp only)) <;> simp_all)); done) | ((repeat' split) <;> first | (simp; done) | (rw [resState_next]; apply State.command_same_pending; intros; (first | (simp; done) | (dsimp only; (repeat' (split <;> try dsimp only)) <;> simp_all)); done)), by first | (simp; done) | (rw [resState_next]; apply State.command_same_clk; intros; (first | (simp; done) | (dsimp only; (repeat' (split <;> try dsimp only)) <;> simp_all)); done) | ((repeat' split) <;> first | (simp; done) | (rw [resState_next]; apply State.command_same_clk; intros; (first | (simp; done) | (dsimp only; (repeat' (split <;> try dsimp only)) <;> simp_all)); done)), by first | (simp; done) | (rw [resState_next]; apply State.command_same_net; intros; (first | (simp; done) | (dsimp only; (repeat' (split <;> try dsimp only)) <;> simp_all)); done) | ((repeat' split) <;> first | (simp; done) | (rw [resState_next]; apply State.command_same_net; intros; (first | (simp; done) | (dsimp only; (repeat' (split <;> try dsimp only)) <;> simp_all)); done)), by first | (simp; done) | (rw [resState_next]; apply State.command_same_boot; intros; (first | (simp; done) | (dsimp only; (repeat' (split <;> try dsimp only)) <;> simp_all)); done) | ((repeat' split) <;> first | (simp; done) | (rw [resState_next]; apply State.command_same_boot; intros; (first | (simp; done) | (dsimp only; (repeat' (split <;> try dsimp only)) <;> simp_all)); done)), by first | (simp; done) | (rw [resState_next]; apply State.command_same_free; intros; (first | (simp; done) | (dsimp only; (repeat' (split <;> try dsimp only)) <;> simp_all)); done) | ((repeat' split) <;> first | (simp; done) | (rw [resState_next]; apply State.command_same_free; intros; (first | (simp; done) | (dsimp only; (repeat' (split <;> try dsimp only)) <;> simp_all)); done))⟩
@[simp] theorem execStart_same (a0 : Nat) (a1 : Src) (a2 : State) :
    (resState a2 (execStart a0 a1 a2)).pending = a2.pending ∧ (resState a2 (execStart a0 a1 a2)).clk = a2.clk ∧
      (resState a2 (execStart a0 a1 a2)).cores = a2.cores ∧ (resState a2 (execStart a0 a1 a2)).net = a2.net ∧
      (resState a2 (execStart a0 a1 a2)).mem = a2.mem ∧ (resState a2 (execStart a0 a1 a2)).span = a2.span ∧
      (resState a2 (execStart a0 a1 a2)).boot = a2.boot ∧ (resState a2 (execStart a0 a1 a2)).free = a2.free := by
  unfold execStart; refine ⟨by first | (simp; done) | (rw [resState_next]; apply State.command_same_pending; intros; (first | (simp; done) | (dsimp only; (repeat' (split <;> try dsimp only)) <;> simp_all)); done) | ((repeat' split) <;> first | (simp; done) | (rw [resState_next]; apply State.command_same_pending; intros; (first | (simp; done) | (dsimp only; (repeat' (split <;> try dsimp only)) <;> simp_all)); done)), by first | (simp; done) | (rw [resState_next]; apply State.command_same_clk; intros; (first | (simp; done) | (dsimp only; (repeat' (split <;> try dsimp only)) <;> simp_all)); done) | ((repeat' split) <;> first | (simp; done) | (rw [resState_next]; apply State.command_same_clk; intros; (first | (simp; done) | (dsimp only; (repeat' (split <;> try dsimp only)) <;> simp_all)); done)), by first | (simp; done) | (rw [resState_next]; apply State.command_same_cores; intros; (first | (simp; done) | (dsimp only; (repeat' (split <;> try dsimp only)) <;> simp_all)); done) | ((repeat' split) <;> first | (simp; done) | (rw [resState_next]; apply State.command_same_cores; intros; (first | (simp; done) | (dsimp only; (repeat' (split <;> try dsimp only)) <;> simp_all)); done)), by first | (simp; done) | (rw [resState_next]; apply State.command_same_net; intros; (first | (simp; done) | (dsimp only; (repeat' (split <;> try dsimp only)) <;> simp_all)); done) | ((repeat' split) <;> first | (simp; done) | (rw [resState_next]; apply State.command_same_net; intros; (first | (simp; done) | (dsimp only; (repeat' (split <;> try dsimp only)) <;> simp_all)); done)), by first | (simp; done) | (rw [resState_next]; apply State.command_same_mem; intros; (first | (simp; done) | (dsimp only; (repeat' (split <;> try dsimp only)) <;> simp_all)); done) | ((repeat' split) <;> first | (simp; done) | (rw [resState_next]; apply State.command_same_mem; intros; (first | (simp; done) | (dsimp only; (repeat' (split <;> try dsimp only)) <;> simp_all)); done)), by first | (simp; done) | (rw [resState_next]; apply State.command_same_span; intros; (first | (simp; done) | (dsimp only; (repeat' (split <;> try dsimp only)) <;> simp_all)); done) | ((repeat' split) <;> first | (simp; done) | (rw [resState_next]; apply State.command_same_span; intros; (first | (simp; done) | (dsimp only; (repeat' (split <;> try dsimp only)) <;> simp_all)); done)), by first | (simp; done) | (rw [resState_next]; apply State.command_same_boot; intros; (first | (simp; done) | (dsimp only; (repeat' (split <;> try dsimp only)) <;> simp_all)); done) | ((repeat' split) <;> first | (simp; done) | (rw [resState_next]; apply State.command_same_boot; intros; (first | (simp; done) | (dsimp only; (repeat' (split <;> try dsimp only)) <;> simp_all)); done)), by first | (simp; done) | (rw [resState_next]; apply State.command_same_free; intros; (first | (simp; done) | (dsimp only; (repeat' (split <;> try dsimp only)) <;> simp_all)); done) | ((repeat' split) <;> first | (simp; done) | (rw [resState_next]; apply State.command_same_free; intros; (first | (simp; done) | (dsimp only; (repeat' (split <;> try dsimp only)) <;> simp_all)); done))⟩
@[simp] theorem State.vatCmd_same (a0 : State) (a1 : Who) (a2 : Nat) (a3 : Nat) :
    (State.vatCmd a0 a1 a2 a3).pending = a0.pending ∧ (State.vatCmd a0 a1 a2 a3).clk = a0.clk ∧ (State.vatCmd a0 a1 a2 a3).boot = a0.boot ∧
      (State.vatCmd a0 a1 a2 a3).free = a0.free := by
  unfold State.vatCmd; (repeat' split) <;> simp
@[simp] theorem State.keepSnap_same (a0 : State) (a1 : Who) (a2 : RegView) :
    (State.keepSnap a0 a1 a2).pending = a0.pending ∧ (State.keepSnap a0 a1 a2).clk = a0.clk ∧ (State.keepSnap a0 a1 a2).cores = a0.cores ∧
      (State.keepSnap a0 a1 a2).net = a0.net ∧ (State.keepSnap a0 a1 a2).vats = a0.vats ∧ (State.keepSnap a0 a1 a2).mem = a0.mem ∧
      (State.keepSnap a0 a1 a2).hub = a0.hub ∧ (State.keepSnap a0 a1 a2).span = a0.span ∧ (State.keepSnap a0 a1 a2).host = a0.host ∧
      (State.keepSnap a0 a1 a2).pwr = a0.pwr ∧ (State.keepSnap a0 a1 a2).out = a0.out ∧ (State.keepSnap a0 a1 a2).free = a0.free := by
  unfold State.keepSnap; (repeat' split) <;> simp
@[simp] theorem State.scanRead_same (a0 : State) (a1 : Who) (a2 : Nat) (a3 : Nat) :
    (State.scanRead a0 a1 a2 a3).1.pending = a0.pending ∧ (State.scanRead a0 a1 a2 a3).1.clk = a0.clk ∧
      (State.scanRead a0 a1 a2 a3).1.cores = a0.cores ∧ (State.scanRead a0 a1 a2 a3).1.net = a0.net ∧
      (State.scanRead a0 a1 a2 a3).1.vats = a0.vats ∧ (State.scanRead a0 a1 a2 a3).1.mem = a0.mem ∧ (State.scanRead a0 a1 a2 a3).1.span = a0.span ∧
      (State.scanRead a0 a1 a2 a3).1.host = a0.host ∧ (State.scanRead a0 a1 a2 a3).1.boot = a0.boot ∧ (State.scanRead a0 a1 a2 a3).1.free = a0.free := by
  unfold State.scanRead; (repeat' split) <;> simp
@[simp] theorem State.touchCore_same (a0 : State) (a1 : Who) (a2 : Nat) (a3 : Bool) :
    (State.touchCore a0 a1 a2 a3).pending = a0.pending ∧ (State.touchCore a0 a1 a2 a3).clk = a0.clk ∧ (State.touchCore a0 a1 a2 a3).net = a0.net ∧
      (State.touchCore a0 a1 a2 a3).mem = a0.mem ∧ (State.touchCore a0 a1 a2 a3).span = a0.span ∧ (State.touchCore a0 a1 a2 a3).host = a0.host ∧
      (State.touchCore a0 a1 a2 a3).boot = a0.boot ∧ (State.touchCore a0 a1 a2 a3).free = a0.free := by
  unfold State.touchCore; (repeat' split) <;> simp
@[simp] theorem State.dapStart_same_pending (a0 : State) (a1 : State → Prod State (Prod Nat Nat)) (h1 : ∀ u, (a1 u).1.pending = u.pending) :
    (State.dapStart a0 a1).pending = a0.pending := by
  unfold State.dapStart; (repeat' split) <;> simp_all
@[simp] theorem State.dapStart_same_clk (a0 : State) (a1 : State → Prod State (Prod Nat Nat)) (h1 : ∀ u, (a1 u).1.clk = u.clk) :
    (State.dapStart a0 a1).clk = a0.clk := by
  unfold State.dapStart; (repeat' split) <;> simp_all
@[simp] theorem State.dapStart_same_cores (a0 : State) (a1 : State → Prod State (Prod Nat Nat)) (h1 : ∀ u, (a1 u).1.cores = u.cores) :
    (State.dapStart a0 a1).cores = a0.cores := by
  unfold State.dapStart; (repeat' split) <;> simp_all
@[simp] theorem State.dapStart_same_net (a0 : State) (a1 : State → Prod State (Prod Nat Nat)) (h1 : ∀ u, (a1 u).1.net = u.net) :
    (State.dapStart a0 a1).net = a0.net := by
  unfold State.dapStart; (repeat' split) <;> simp_all
@[simp] theorem State.dapStart_same_vats (a0 : State) (a1 : State → Prod State (Prod Nat Nat)) (h1 : ∀ u, (a1 u).1.vats = u.vats) :
    (State.dapStart a0 a1).vats = a0.vats := by
  unfold State.dapStart; (repeat' split) <;> simp_all
@[simp] theorem State.dapStart_same_mem (a0 : State) (a1 : State → Prod State (Prod Nat Nat)) (h1 : ∀ u, (a1 u).1.mem = u.mem) :
    (State.dapStart a0 a1).mem = a0.mem := by
  unfold State.dapStart; (repeat' split) <;> simp_all
@[simp] theorem State.dapStart_same_hub (a0 : State) (a1 : State → Prod State (Prod Nat Nat)) (h1 : ∀ u, (a1 u).1.hub = u.hub) :
    (State.dapStart a0 a1).hub = a0.hub := by
  unfold State.dapStart; (repeat' split) <;> simp_all
@[simp] theorem State.dapStart_same_span (a0 : State) (a1 : State → Prod State (Prod Nat Nat)) (h1 : ∀ u, (a1 u).1.span = u.span) :
    (State.dapStart a0 a1).span = a0.span := by
  unfold State.dapStart; (repeat' split) <;> simp_all
@[simp] theorem State.dapStart_same_host (a0 : State) (a1 : State → Prod State (Prod Nat Nat)) (h1 : ∀ u, (a1 u).1.host = u.host) :
    (State.dapStart a0 a1).host = a0.host := by
  unfold State.dapStart; (repeat' split) <;> simp_all
@[simp] theorem State.dapStart_same_pwr (a0 : State) (a1 : State → Prod State (Prod Nat Nat)) (h1 : ∀ u, (a1 u).1.pwr = u.pwr) :
    (State.dapStart a0 a1).pwr = a0.pwr := by
  unfold State.dapStart; (repeat' split) <;> simp_all
@[simp] theorem State.dapStart_same_out (a0 : State) (a1 : State → Prod State (Prod Nat Nat)) (h1 : ∀ u, (a1 u).1.out = u.out) :
    (State.dapStart a0 a1).out = a0.out := by
  unfold State.dapStart; (repeat' split) <;> simp_all
@[simp] theorem State.dapStart_same_free (a0 : State) (a1 : State → Prod State (Prod Nat Nat)) (h1 : ∀ u, (a1 u).1.free = u.free) :
    (State.dapStart a0 a1).free = a0.free := by
  unfold State.dapStart; (repeat' split) <;> simp_all
@[simp] theorem State.dapWake_same (a0 : State) (a1 : Nat) :
    (State.dapWake a0 a1).pending = a0.pending ∧ (State.dapWake a0 a1).clk = a0.clk ∧ (State.dapWake a0 a1).net = a0.net ∧
      (State.dapWake a0 a1).vats = a0.vats ∧ (State.dapWake a0 a1).mem = a0.mem ∧ (State.dapWake a0 a1).hub = a0.hub ∧
      (State.dapWake a0 a1).span = a0.span ∧ (State.dapWake a0 a1).host = a0.host ∧ (State.dapWake a0 a1).pwr = a0.pwr ∧
      (State.dapWake a0 a1).boot = a0.boot ∧ (State.dapWake a0 a1).out = a0.out ∧ (State.dapWake a0 a1).free = a0.free := by
  unfold State.dapWake; (repeat' split) <;> simp
@[simp] theorem State.putSnap_same (a0 : State) (a1 : Nat) (a2 : CoreSnap) :
    (State.putSnap a0 a1 a2).pending = a0.pending ∧ (State.putSnap a0 a1 a2).clk = a0.clk ∧ (State.putSnap a0 a1 a2).net = a0.net ∧
      (State.putSnap a0 a1 a2).vats = a0.vats ∧ (State.putSnap a0 a1 a2).mem = a0.mem ∧ (State.putSnap a0 a1 a2).hub = a0.hub ∧
      (State.putSnap a0 a1 a2).span = a0.span ∧ (State.putSnap a0 a1 a2).host = a0.host ∧ (State.putSnap a0 a1 a2).pwr = a0.pwr ∧
      (State.putSnap a0 a1 a2).boot = a0.boot ∧ (State.putSnap a0 a1 a2).out = a0.out ∧ (State.putSnap a0 a1 a2).free = a0.free := by
  unfold State.putSnap; (repeat' split) <;> simp
@[simp] theorem State.scanPut_same (a0 : State) (a1 : Nat) (a2 : Nat) (a3 : Nat) :
    (State.scanPut a0 a1 a2 a3).pending = a0.pending ∧ (State.scanPut a0 a1 a2 a3).clk = a0.clk ∧ (State.scanPut a0 a1 a2 a3).net = a0.net ∧
      (State.scanPut a0 a1 a2 a3).vats = a0.vats ∧ (State.scanPut a0 a1 a2 a3).mem = a0.mem ∧ (State.scanPut a0 a1 a2 a3).hub = a0.hub ∧
      (State.scanPut a0 a1 a2 a3).span = a0.span ∧ (State.scanPut a0 a1 a2 a3).host = a0.host ∧ (State.scanPut a0 a1 a2 a3).pwr = a0.pwr ∧
      (State.scanPut a0 a1 a2 a3).boot = a0.boot ∧ (State.scanPut a0 a1 a2 a3).out = a0.out ∧ (State.scanPut a0 a1 a2 a3).free = a0.free := by
  unfold State.scanPut; (repeat' split) <;> simp
@[simp] theorem State.scanWrite_same (a0 : State) (a1 : Who) (a2 : Nat) (a3 : Nat) (a4 : Nat) :
    (State.scanWrite a0 a1 a2 a3 a4).1.pending = a0.pending ∧ (State.scanWrite a0 a1 a2 a3 a4).1.clk = a0.clk ∧
      (State.scanWrite a0 a1 a2 a3 a4).1.net = a0.net ∧ (State.scanWrite a0 a1 a2 a3 a4).1.vats = a0.vats ∧
      (State.scanWrite a0 a1 a2 a3 a4).1.mem = a0.mem ∧ (State.scanWrite a0 a1 a2 a3 a4).1.span = a0.span ∧
      (State.scanWrite a0 a1 a2 a3 a4).1.host = a0.host ∧ (State.scanWrite a0 a1 a2 a3 a4).1.boot = a0.boot ∧
      (State.scanWrite a0 a1 a2 a3 a4).1.free = a0.free := by
  unfold State.scanWrite; (repeat' split) <;> simp
@[simp] theorem State.dbRefuse_same (a0 : State) (a1 : Nat) (a2 : Nat) :
    (State.dbRefuse a0 a1 a2).pending = a0.pending ∧ (State.dbRefuse a0 a1 a2).clk = a0.clk ∧ (State.dbRefuse a0 a1 a2).cores = a0.cores ∧
      (State.dbRefuse a0 a1 a2).net = a0.net ∧ (State.dbRefuse a0 a1 a2).vats = a0.vats ∧ (State.dbRefuse a0 a1 a2).mem = a0.mem ∧
      (State.dbRefuse a0 a1 a2).span = a0.span ∧ (State.dbRefuse a0 a1 a2).boot = a0.boot ∧ (State.dbRefuse a0 a1 a2).free = a0.free := by
  unfold State.dbRefuse; (repeat' split) <;> simp
@[simp] theorem State.dropCpuWatch_same (a0 : State) (a1 : Nat) :
    (State.dropCpuWatch a0 a1).pending = a0.pending ∧ (State.dropCpuWatch a0 a1).clk = a0.clk ∧ (State.dropCpuWatch a0 a1).cores = a0.cores ∧
      (State.dropCpuWatch a0 a1).vats = a0.vats ∧ (State.dropCpuWatch a0 a1).mem = a0.mem ∧ (State.dropCpuWatch a0 a1).hub = a0.hub ∧
      (State.dropCpuWatch a0 a1).span = a0.span ∧ (State.dropCpuWatch a0 a1).host = a0.host ∧ (State.dropCpuWatch a0 a1).pwr = a0.pwr ∧
      (State.dropCpuWatch a0 a1).boot = a0.boot ∧ (State.dropCpuWatch a0 a1).out = a0.out ∧ (State.dropCpuWatch a0 a1).free = a0.free := by
  unfold State.dropCpuWatch; (repeat' split) <;> simp
@[simp] theorem State.debugHalt_same (a0 : State) (a1 : Nat) :
    (State.debugHalt a0 a1).pending = a0.pending ∧ (State.debugHalt a0 a1).clk = a0.clk ∧ (State.debugHalt a0 a1).vats = a0.vats ∧
      (State.debugHalt a0 a1).mem = a0.mem ∧ (State.debugHalt a0 a1).span = a0.span ∧ (State.debugHalt a0 a1).host = a0.host ∧
      (State.debugHalt a0 a1).boot = a0.boot ∧ (State.debugHalt a0 a1).free = a0.free := by
  unfold State.debugHalt; (repeat' split) <;> simp
@[simp] theorem State.decCtr_same (a0 : State) (a1 : Nat) (a2 : Nat) :
    (State.decCtr a0 a1 a2).pending = a0.pending ∧ (State.decCtr a0 a1 a2).clk = a0.clk ∧ (State.decCtr a0 a1 a2).vats = a0.vats ∧
      (State.decCtr a0 a1 a2).mem = a0.mem ∧ (State.decCtr a0 a1 a2).span = a0.span ∧ (State.decCtr a0 a1 a2).host = a0.host ∧
      (State.decCtr a0 a1 a2).boot = a0.boot ∧ (State.decCtr a0 a1 a2).free = a0.free := by
  unfold State.decCtr; (repeat' split) <;> simp
@[simp] theorem State.setCmd_same (a0 : State) (a1 : StkCmd) :
    (State.setCmd a0 a1).pending = a0.pending ∧ (State.setCmd a0 a1).clk = a0.clk ∧ (State.setCmd a0 a1).cores = a0.cores ∧
      (State.setCmd a0 a1).net = a0.net ∧ (State.setCmd a0 a1).vats = a0.vats ∧ (State.setCmd a0 a1).hub = a0.hub ∧
      (State.setCmd a0 a1).span = a0.span ∧ (State.setCmd a0 a1).host = a0.host ∧ (State.setCmd a0 a1).pwr = a0.pwr ∧
      (State.setCmd a0 a1).boot = a0.boot ∧ (State.setCmd a0 a1).out = a0.out ∧ (State.setCmd a0 a1).free = a0.free := by
  unfold State.setCmd; (repeat' split) <;> simp
@[simp] theorem State.decide__same (a0 : State) (a1 : StkCmd) :
    (State.decide_ a0 a1).pending = a0.pending ∧ (State.decide_ a0 a1).clk = a0.clk ∧ (State.decide_ a0 a1).cores = a0.cores ∧
      (State.decide_ a0 a1).net = a0.net ∧ (State.decide_ a0 a1).vats = a0.vats ∧ (State.decide_ a0 a1).hub = a0.hub ∧
      (State.decide_ a0 a1).span = a0.span ∧ (State.decide_ a0 a1).host = a0.host ∧ (State.decide_ a0 a1).pwr = a0.pwr ∧
      (State.decide_ a0 a1).boot = a0.boot ∧ (State.decide_ a0 a1).out = a0.out ∧ (State.decide_ a0 a1).free = a0.free := by
  unfold State.decide_; (repeat' split) <;> simp
@[simp] theorem State.devRead_same (a0 : State) (a1 : Nat) (a2 : Nat) (a3 : Nat) (a4 : ReqBy) (a5 : Out) :
    (State.devRead a0 a1 a2 a3 a4 a5).pending = a0.pending ∧ (State.devRead a0 a1 a2 a3 a4 a5).clk = a0.clk ∧
      (State.devRead a0 a1 a2 a3 a4 a5).cores = a0.cores ∧ (State.devRead a0 a1 a2 a3 a4 a5).net = a0.net ∧
      (State.devRead a0 a1 a2 a3 a4 a5).vats = a0.vats ∧ (State.devRead a0 a1 a2 a3 a4 a5).mem = a0.mem ∧
      (State.devRead a0 a1 a2 a3 a4 a5).host = a0.host ∧ (State.devRead a0 a1 a2 a3 a4 a5).boot = a0.boot ∧
      (State.devRead a0 a1 a2 a3 a4 a5).free = a0.free := by
  unfold State.devRead; (repeat' split) <;> simp
@[simp] theorem State.devWrite_same (a0 : State) (a1 : Nat) (a2 : Nat) (a3 : List Byte) (a4 : NSet) (a5 : ReqBy) (a6 : Out) :
    (State.devWrite a0 a1 a2 a3 a4 a5 a6).pending = a0.pending ∧ (State.devWrite a0 a1 a2 a3 a4 a5 a6).clk = a0.clk ∧
      (State.devWrite a0 a1 a2 a3 a4 a5 a6).cores = a0.cores ∧ (State.devWrite a0 a1 a2 a3 a4 a5 a6).net = a0.net ∧
      (State.devWrite a0 a1 a2 a3 a4 a5 a6).vats = a0.vats ∧ (State.devWrite a0 a1 a2 a3 a4 a5 a6).mem = a0.mem ∧
      (State.devWrite a0 a1 a2 a3 a4 a5 a6).host = a0.host ∧ (State.devWrite a0 a1 a2 a3 a4 a5 a6).boot = a0.boot ∧
      (State.devWrite a0 a1 a2 a3 a4 a5 a6).free = a0.free := by
  unfold State.devWrite; (repeat' split) <;> simp
@[simp] theorem State.drainSpill_same (a0 : State) (a1 : Nat) (a2 : Nat) :
    (State.drainSpill a0 a1 a2).pending = a0.pending ∧ (State.drainSpill a0 a1 a2).clk = a0.clk ∧ (State.drainSpill a0 a1 a2).net = a0.net ∧
      (State.drainSpill a0 a1 a2).mem = a0.mem ∧ (State.drainSpill a0 a1 a2).hub = a0.hub ∧ (State.drainSpill a0 a1 a2).span = a0.span ∧
      (State.drainSpill a0 a1 a2).host = a0.host ∧ (State.drainSpill a0 a1 a2).pwr = a0.pwr ∧ (State.drainSpill a0 a1 a2).boot = a0.boot ∧
      (State.drainSpill a0 a1 a2).free = a0.free := by
  unfold State.drainSpill; (repeat' split) <;> simp
@[simp] theorem State.drawBytes_same (a0 : State) (a1 : Nat) :
    (State.drawBytes a0 a1).2.pending = a0.pending ∧ (State.drawBytes a0 a1).2.clk = a0.clk ∧ (State.drawBytes a0 a1).2.cores = a0.cores ∧
      (State.drawBytes a0 a1).2.net = a0.net ∧ (State.drawBytes a0 a1).2.vats = a0.vats ∧ (State.drawBytes a0 a1).2.mem = a0.mem ∧
      (State.drawBytes a0 a1).2.hub = a0.hub ∧ (State.drawBytes a0 a1).2.span = a0.span ∧ (State.drawBytes a0 a1).2.host = a0.host ∧
      (State.drawBytes a0 a1).2.pwr = a0.pwr ∧ (State.drawBytes a0 a1).2.boot = a0.boot ∧ (State.drawBytes a0 a1).2.out = a0.out := by
  unfold State.drawBytes; (repeat' split) <;> simp
@[simp] theorem State.dropCmd_same (a0 : State) (a1 : StkCmd) :
    (State.dropCmd a0 a1).pending = a0.pending ∧ (State.dropCmd a0 a1).clk = a0.clk ∧ (State.dropCmd a0 a1).cores = a0.cores ∧
      (State.dropCmd a0 a1).net = a0.net ∧ (State.dropCmd a0 a1).vats = a0.vats ∧ (State.dropCmd a0 a1).mem = a0.mem ∧
      (State.dropCmd a0 a1).hub = a0.hub ∧ (State.dropCmd a0 a1).span = a0.span ∧ (State.dropCmd a0 a1).pwr = a0.pwr ∧
      (State.dropCmd a0 a1).boot = a0.boot ∧ (State.dropCmd a0 a1).free = a0.free := by
  unfold State.dropCmd; (repeat' split) <;> simp
@[simp] theorem State.dropRest_same (a0 : State) (a1 : Nat) (a2 : ChMsg) :
    (State.dropRest a0 a1 a2).pending = a0.pending ∧ (State.dropRest a0 a1 a2).clk = a0.clk ∧ (State.dropRest a0 a1 a2).net = a0.net ∧
      (State.dropRest a0 a1 a2).vats = a0.vats ∧ (State.dropRest a0 a1 a2).mem = a0.mem ∧ (State.dropRest a0 a1 a2).hub = a0.hub ∧
      (State.dropRest a0 a1 a2).span = a0.span ∧ (State.dropRest a0 a1 a2).host = a0.host ∧ (State.dropRest a0 a1 a2).pwr = a0.pwr ∧
      (State.dropRest a0 a1 a2).boot = a0.boot ∧ (State.dropRest a0 a1 a2).out = a0.out ∧ (State.dropRest a0 a1 a2).free = a0.free := by
  unfold State.dropRest; (repeat' split) <;> simp
@[simp] theorem State.enterSlice_same (a0 : State) (a1 : Nat) (a2 : MStep) (a3 : Nat) :
    (State.enterSlice a0 a1 a2 a3).pending = a0.pending ∧ (State.enterSlice a0 a1 a2 a3).clk = a0.clk ∧
      (State.enterSlice a0 a1 a2 a3).vats = a0.vats ∧ (State.enterSlice a0 a1 a2 a3).mem = a0.mem ∧ (State.enterSlice a0 a1 a2 a3).span = a0.span ∧
      (State.enterSlice a0 a1 a2 a3).host = a0.host ∧ (State.enterSlice a0 a1 a2 a3).boot = a0.boot ∧ (State.enterSlice a0 a1 a2 a3).free = a0.free := by
  unfold State.enterSlice; (repeat' split) <;> simp
@[simp] theorem State.epReceived_same (a0 : State) (a1 : Nat) (a2 : Nat) (a3 : Option Nat) :
    (State.epReceived a0 a1 a2 a3).pending = a0.pending ∧ (State.epReceived a0 a1 a2 a3).clk = a0.clk ∧
      (State.epReceived a0 a1 a2 a3).cores = a0.cores ∧ (State.epReceived a0 a1 a2 a3).net = a0.net ∧ (State.epReceived a0 a1 a2 a3).mem = a0.mem ∧
      (State.epReceived a0 a1 a2 a3).span = a0.span ∧ (State.epReceived a0 a1 a2 a3).boot = a0.boot ∧ (State.epReceived a0 a1 a2 a3).free = a0.free := by
  unfold State.epReceived; (repeat' split) <;> simp
@[simp] theorem State.epReset_same (a0 : State) (a1 : Nat) (a2 : Nat) :
    (State.epReset a0 a1 a2).pending = a0.pending ∧ (State.epReset a0 a1 a2).clk = a0.clk ∧ (State.epReset a0 a1 a2).vats = a0.vats ∧
      (State.epReset a0 a1 a2).mem = a0.mem ∧ (State.epReset a0 a1 a2).span = a0.span ∧ (State.epReset a0 a1 a2).host = a0.host ∧
      (State.epReset a0 a1 a2).boot = a0.boot ∧ (State.epReset a0 a1 a2).free = a0.free := by
  unfold State.epReset; (repeat' split) <;> simp
@[simp] theorem State.evacDone_same (a0 : State) (a1 : Nat) :
    (State.evacDone a0 a1).pending = a0.pending ∧ (State.evacDone a0 a1).clk = a0.clk ∧ (State.evacDone a0 a1).boot = a0.boot ∧
      (State.evacDone a0 a1).free = a0.free := by
  unfold State.evacDone; (repeat' split) <;> simp
@[simp] theorem State.evacFail_same (a0 : State) (a1 : Nat) (a2 : Nat) :
    (State.evacFail a0 a1 a2).pending = a0.pending ∧ (State.evacFail a0 a1 a2).clk = a0.clk ∧ (State.evacFail a0 a1 a2).cores = a0.cores ∧
      (State.evacFail a0 a1 a2).net = a0.net ∧ (State.evacFail a0 a1 a2).mem = a0.mem ∧ (State.evacFail a0 a1 a2).hub = a0.hub ∧
      (State.evacFail a0 a1 a2).span = a0.span ∧ (State.evacFail a0 a1 a2).pwr = a0.pwr ∧ (State.evacFail a0 a1 a2).boot = a0.boot ∧
      (State.evacFail a0 a1 a2).out = a0.out ∧ (State.evacFail a0 a1 a2).free = a0.free := by
  unfold State.evacFail; (repeat' split) <;> simp
@[simp] theorem State.evacMove_same (a0 : State) (a1 : Nat) (a2 : EvacEnt) (a3 : Nat) :
    (State.evacMove a0 a1 a2 a3).pending = a0.pending ∧ (State.evacMove a0 a1 a2 a3).clk = a0.clk ∧ (State.evacMove a0 a1 a2 a3).cores = a0.cores ∧
      (State.evacMove a0 a1 a2 a3).net = a0.net ∧ (State.evacMove a0 a1 a2 a3).span = a0.span ∧ (State.evacMove a0 a1 a2 a3).host = a0.host ∧
      (State.evacMove a0 a1 a2 a3).boot = a0.boot ∧ (State.evacMove a0 a1 a2 a3).free = a0.free := by
  unfold State.evacMove; (repeat' split) <;> simp
@[simp] theorem evacPartOne_same (v : Nat) (r : State × Table Nat × Nat × Nat) (e : EvacEnt) :
    (evacPartOne v r e).1.pending = r.1.pending ∧ (evacPartOne v r e).1.clk = r.1.clk ∧ (evacPartOne v r e).1.cores = r.1.cores ∧
      (evacPartOne v r e).1.net = r.1.net ∧ (evacPartOne v r e).1.span = r.1.span ∧ (evacPartOne v r e).1.host = r.1.host ∧
      (evacPartOne v r e).1.boot = r.1.boot ∧ (evacPartOne v r e).1.free = r.1.free := by
  unfold evacPartOne; dsimp only; (repeat' (split <;> try dsimp only)) <;> simp
@[simp] theorem State.evacPart_same (a0 : State) (a1 : Nat) :
    (State.evacPart a0 a1).pending = a0.pending ∧ (State.evacPart a0 a1).clk = a0.clk ∧ (State.evacPart a0 a1).cores = a0.cores ∧
      (State.evacPart a0 a1).net = a0.net ∧ (State.evacPart a0 a1).span = a0.span ∧ (State.evacPart a0 a1).host = a0.host ∧
      (State.evacPart a0 a1).boot = a0.boot := by
  unfold State.evacPart; (repeat' split) <;> simp
@[simp] theorem State.trimFree_same (a0 : State) (a1 : Int) :
    (State.trimFree a0 a1).pending = a0.pending ∧ (State.trimFree a0 a1).clk = a0.clk ∧ (State.trimFree a0 a1).cores = a0.cores ∧
      (State.trimFree a0 a1).net = a0.net ∧ (State.trimFree a0 a1).vats = a0.vats ∧ (State.trimFree a0 a1).mem = a0.mem ∧
      (State.trimFree a0 a1).span = a0.span ∧ (State.trimFree a0 a1).host = a0.host ∧ (State.trimFree a0 a1).pwr = a0.pwr ∧
      (State.trimFree a0 a1).boot = a0.boot ∧ (State.trimFree a0 a1).out = a0.out := by
  unfold State.trimFree; (repeat' split) <;> simp
@[simp] theorem State.exchange_same (a0 : State) (a1 : Int) :
    (State.exchange a0 a1).pending = a0.pending ∧ (State.exchange a0 a1).cores = a0.cores ∧ (State.exchange a0 a1).net = a0.net ∧
      (State.exchange a0 a1).span = a0.span ∧ (State.exchange a0 a1).host = a0.host ∧ (State.exchange a0 a1).boot = a0.boot := by
  unfold State.exchange; (repeat' split) <;> simp
@[simp] theorem State.fetch_same (a0 : State) (a1 : Nat) :
    (State.fetch a0 a1).pending = a0.pending ∧ (State.fetch a0 a1).clk = a0.clk ∧ (State.fetch a0 a1).mem = a0.mem ∧
      (State.fetch a0 a1).span = a0.span ∧ (State.fetch a0 a1).host = a0.host ∧ (State.fetch a0 a1).boot = a0.boot ∧
      (State.fetch a0 a1).free = a0.free := by
  unfold State.fetch; (repeat' split) <;> simp
@[simp] theorem State.sendCell_same (a0 : State) (a1 : Nat) (a2 : TxFrame) (a3 : List Byte) (a4 : Compose) :
    (State.sendCell a0 a1 a2 a3 a4).1.pending = a0.pending ∧ (State.sendCell a0 a1 a2 a3 a4).1.clk = a0.clk ∧
      (State.sendCell a0 a1 a2 a3 a4).1.cores = a0.cores ∧ (State.sendCell a0 a1 a2 a3 a4).1.net = a0.net ∧
      (State.sendCell a0 a1 a2 a3 a4).1.vats = a0.vats ∧ (State.sendCell a0 a1 a2 a3 a4).1.mem = a0.mem ∧
      (State.sendCell a0 a1 a2 a3 a4).1.hub = a0.hub ∧ (State.sendCell a0 a1 a2 a3 a4).1.host = a0.host ∧
      (State.sendCell a0 a1 a2 a3 a4).1.pwr = a0.pwr ∧ (State.sendCell a0 a1 a2 a3 a4).1.boot = a0.boot ∧
      (State.sendCell a0 a1 a2 a3 a4).1.out = a0.out ∧ (State.sendCell a0 a1 a2 a3 a4).1.free = a0.free := by
  unfold State.sendCell; (repeat' split) <;> simp
@[simp] theorem State.stampTx_same (a0 : State) (a1 : Nat) (a2 : TxFrame) :
    (State.stampTx a0 a1 a2).1.pending = a0.pending ∧ (State.stampTx a0 a1 a2).1.clk = a0.clk ∧ (State.stampTx a0 a1 a2).1.cores = a0.cores ∧
      (State.stampTx a0 a1 a2).1.net = a0.net ∧ (State.stampTx a0 a1 a2).1.vats = a0.vats ∧ (State.stampTx a0 a1 a2).1.mem = a0.mem ∧
      (State.stampTx a0 a1 a2).1.span = a0.span ∧ (State.stampTx a0 a1 a2).1.host = a0.host ∧ (State.stampTx a0 a1 a2).1.pwr = a0.pwr ∧
      (State.stampTx a0 a1 a2).1.boot = a0.boot ∧ (State.stampTx a0 a1 a2).1.out = a0.out ∧ (State.stampTx a0 a1 a2).1.free = a0.free := by
  unfold State.stampTx; (repeat' split) <;> simp
@[simp] theorem State.startTx_same (a0 : State) (a1 : Nat) (a2 : TxFrame) :
    (State.startTx a0 a1 a2).1.pending = a0.pending ∧ (State.startTx a0 a1 a2).1.clk = a0.clk ∧ (State.startTx a0 a1 a2).1.cores = a0.cores ∧
      (State.startTx a0 a1 a2).1.net = a0.net ∧ (State.startTx a0 a1 a2).1.mem = a0.mem ∧ (State.startTx a0 a1 a2).1.host = a0.host ∧
      (State.startTx a0 a1 a2).1.pwr = a0.pwr ∧ (State.startTx a0 a1 a2).1.boot = a0.boot ∧ (State.startTx a0 a1 a2).1.out = a0.out ∧
      (State.startTx a0 a1 a2).1.free = a0.free := by
  unfold State.startTx; (repeat' split) <;> simp
@[simp] theorem State.fillOrd_same (a0 : Nat) (a1 : Nat) (a2 : State) (a3 : Compose) :
    (State.fillOrd a0 a1 a2 a3).1.pending = a2.pending ∧ (State.fillOrd a0 a1 a2 a3).1.clk = a2.clk ∧
      (State.fillOrd a0 a1 a2 a3).1.cores = a2.cores ∧ (State.fillOrd a0 a1 a2 a3).1.net = a2.net ∧ (State.fillOrd a0 a1 a2 a3).1.mem = a2.mem ∧
      (State.fillOrd a0 a1 a2 a3).1.host = a2.host ∧ (State.fillOrd a0 a1 a2 a3).1.pwr = a2.pwr ∧ (State.fillOrd a0 a1 a2 a3).1.boot = a2.boot ∧
      (State.fillOrd a0 a1 a2 a3).1.out = a2.out ∧ (State.fillOrd a0 a1 a2 a3).1.free = a2.free := by
  induction a1 generalizing a2 a3 with
  | zero => simp [State.fillOrd]
  | succ n ih => unfold State.fillOrd; dsimp only; (repeat' (split <;> try dsimp only)) <;> simp_all
@[simp] theorem State.fillPrio_same (a0 : Nat) (a1 : Nat) (a2 : State) (a3 : Compose) :
    (State.fillPrio a0 a1 a2 a3).1.pending = a2.pending ∧ (State.fillPrio a0 a1 a2 a3).1.clk = a2.clk ∧
      (State.fillPrio a0 a1 a2 a3).1.cores = a2.cores ∧ (State.fillPrio a0 a1 a2 a3).1.net = a2.net ∧ (State.fillPrio a0 a1 a2 a3).1.mem = a2.mem ∧
      (State.fillPrio a0 a1 a2 a3).1.host = a2.host ∧ (State.fillPrio a0 a1 a2 a3).1.pwr = a2.pwr ∧ (State.fillPrio a0 a1 a2 a3).1.boot = a2.boot ∧
      (State.fillPrio a0 a1 a2 a3).1.out = a2.out ∧ (State.fillPrio a0 a1 a2 a3).1.free = a2.free := by
  induction a1 generalizing a2 a3 with
  | zero => simp [State.fillPrio]
  | succ n ih => unfold State.fillPrio; dsimp only; (repeat' (split <;> try dsimp only)) <;> simp_all

end Sys2Proof.Machine
end

