-- ==== Sys2Proof/Laws/Frame5.lean ====
section
/-! SUPPORT. What each shared operation leaves as it is, part 5: the fields of State that it never changes. -/

namespace Sys2Proof.Machine

@[simp] theorem State.fireTwin_same (a0 : State) :
    (State.fireTwin a0).pending = a0.pending ∧ (State.fireTwin a0).clk = a0.clk ∧ (State.fireTwin a0).cores = a0.cores ∧
      (State.fireTwin a0).net = a0.net ∧ (State.fireTwin a0).vats = a0.vats ∧ (State.fireTwin a0).mem = a0.mem ∧
      (State.fireTwin a0).span = a0.span ∧ (State.fireTwin a0).host = a0.host ∧ (State.fireTwin a0).boot = a0.boot ∧
      (State.fireTwin a0).free = a0.free := by
  unfold State.fireTwin; (repeat' split) <;> simp
@[simp] theorem State.hostAsk_same (a0 : State) :
    (State.hostAsk a0).pending = a0.pending ∧ (State.hostAsk a0).clk = a0.clk ∧ (State.hostAsk a0).cores = a0.cores ∧
      (State.hostAsk a0).net = a0.net ∧ (State.hostAsk a0).vats = a0.vats ∧ (State.hostAsk a0).mem = a0.mem ∧ (State.hostAsk a0).hub = a0.hub ∧
      (State.hostAsk a0).span = a0.span ∧ (State.hostAsk a0).host = a0.host ∧ (State.hostAsk a0).boot = a0.boot ∧ (State.hostAsk a0).out = a0.out ∧
      (State.hostAsk a0).free = a0.free := by
  unfold State.hostAsk; (repeat' split) <;> simp
@[simp] theorem State.regAnswered_same (a0 : State) (a1 : Who) (a2 : Nat) (a3 : Nat) (a4 : Option Nat) :
    (State.regAnswered a0 a1 a2 a3 a4).pending = a0.pending ∧ (State.regAnswered a0 a1 a2 a3 a4).clk = a0.clk ∧
      (State.regAnswered a0 a1 a2 a3 a4).cores = a0.cores ∧ (State.regAnswered a0 a1 a2 a3 a4).net = a0.net ∧
      (State.regAnswered a0 a1 a2 a3 a4).vats = a0.vats ∧ (State.regAnswered a0 a1 a2 a3 a4).mem = a0.mem ∧
      (State.regAnswered a0 a1 a2 a3 a4).hub = a0.hub ∧ (State.regAnswered a0 a1 a2 a3 a4).span = a0.span ∧
      (State.regAnswered a0 a1 a2 a3 a4).host = a0.host ∧ (State.regAnswered a0 a1 a2 a3 a4).pwr = a0.pwr ∧
      (State.regAnswered a0 a1 a2 a3 a4).boot = a0.boot ∧ (State.regAnswered a0 a1 a2 a3 a4).free = a0.free := by
  unfold State.regAnswered; (repeat' split) <;> simp
@[simp] theorem State.flashWrite_same (a0 : State) (a1 : Nat) (a2 : List Byte) :
    (State.flashWrite a0 a1 a2).pending = a0.pending ∧ (State.flashWrite a0 a1 a2).clk = a0.clk ∧ (State.flashWrite a0 a1 a2).cores = a0.cores ∧
      (State.flashWrite a0 a1 a2).net = a0.net ∧ (State.flashWrite a0 a1 a2).vats = a0.vats ∧ (State.flashWrite a0 a1 a2).mem = a0.mem ∧
      (State.flashWrite a0 a1 a2).hub = a0.hub ∧ (State.flashWrite a0 a1 a2).span = a0.span ∧ (State.flashWrite a0 a1 a2).host = a0.host ∧
      (State.flashWrite a0 a1 a2).pwr = a0.pwr ∧ (State.flashWrite a0 a1 a2).out = a0.out ∧ (State.flashWrite a0 a1 a2).free = a0.free := by
  unfold State.flashWrite; (repeat' split) <;> simp
@[simp] theorem State.flit_same (p : Nat) (r : State × Compose) (i : Nat) :
    (State.flit p r i).1.pending = r.1.pending ∧ (State.flit p r i).1.clk = r.1.clk ∧ (State.flit p r i).1.cores = r.1.cores ∧
      (State.flit p r i).1.net = r.1.net ∧ (State.flit p r i).1.mem = r.1.mem ∧ (State.flit p r i).1.host = r.1.host ∧
      (State.flit p r i).1.pwr = r.1.pwr ∧ (State.flit p r i).1.boot = r.1.boot ∧ (State.flit p r i).1.out = r.1.out ∧
      (State.flit p r i).1.free = r.1.free := by
  unfold State.flit; dsimp only; (repeat' (split <;> try dsimp only)) <;> simp
@[simp] theorem State.noteWrite_same (a0 : State) (a1 : Nat) (a2 : Nat) (a3 : List Byte) (a4 : Nat → Bool) :
    (State.noteWrite a0 a1 a2 a3 a4).pending = a0.pending ∧ (State.noteWrite a0 a1 a2 a3 a4).clk = a0.clk ∧
      (State.noteWrite a0 a1 a2 a3 a4).cores = a0.cores ∧ (State.noteWrite a0 a1 a2 a3 a4).net = a0.net ∧
      (State.noteWrite a0 a1 a2 a3 a4).mem = a0.mem ∧ (State.noteWrite a0 a1 a2 a3 a4).hub = a0.hub ∧
      (State.noteWrite a0 a1 a2 a3 a4).span = a0.span ∧ (State.noteWrite a0 a1 a2 a3 a4).host = a0.host ∧
      (State.noteWrite a0 a1 a2 a3 a4).pwr = a0.pwr ∧ (State.noteWrite a0 a1 a2 a3 a4).boot = a0.boot ∧
      (State.noteWrite a0 a1 a2 a3 a4).out = a0.out ∧ (State.noteWrite a0 a1 a2 a3 a4).free = a0.free := by
  unfold State.noteWrite; (repeat' split) <;> simp
@[simp] theorem State.stkPut1_same (a0 : State) (a1 : Nat) (a2 : Nat) (a3 : List Byte) (a4 : NSet) :
    (State.stkPut1 a0 a1 a2 a3 a4).pending = a0.pending ∧ (State.stkPut1 a0 a1 a2 a3 a4).clk = a0.clk ∧
      (State.stkPut1 a0 a1 a2 a3 a4).net = a0.net ∧ (State.stkPut1 a0 a1 a2 a3 a4).host = a0.host ∧ (State.stkPut1 a0 a1 a2 a3 a4).boot = a0.boot ∧
      (State.stkPut1 a0 a1 a2 a3 a4).free = a0.free := by
  unfold State.stkPut1; (repeat' split) <;> simp
@[simp] theorem State.stkWrite1_same (a0 : State) (a1 : Nat) (a2 : Nat) (a3 : List Byte) (a4 : NSet) :
    (State.stkWrite1 a0 a1 a2 a3 a4).pending = a0.pending ∧ (State.stkWrite1 a0 a1 a2 a3 a4).clk = a0.clk ∧
      (State.stkWrite1 a0 a1 a2 a3 a4).net = a0.net ∧ (State.stkWrite1 a0 a1 a2 a3 a4).host = a0.host ∧
      (State.stkWrite1 a0 a1 a2 a3 a4).boot = a0.boot ∧ (State.stkWrite1 a0 a1 a2 a3 a4).free = a0.free := by
  unfold State.stkWrite1; (repeat' split) <;> simp
@[simp] theorem State.stkWrite_same (a0 : State) (a1 : Nat) (a2 : Nat) (a3 : List Byte) (a4 : NSet) :
    (State.stkWrite a0 a1 a2 a3 a4).pending = a0.pending ∧ (State.stkWrite a0 a1 a2 a3 a4).clk = a0.clk ∧
      (State.stkWrite a0 a1 a2 a3 a4).net = a0.net ∧ (State.stkWrite a0 a1 a2 a3 a4).host = a0.host ∧
      (State.stkWrite a0 a1 a2 a3 a4).boot = a0.boot ∧ (State.stkWrite a0 a1 a2 a3 a4).free = a0.free := by
  unfold State.stkWrite; (repeat' split) <;> simp
@[simp] theorem State.flush_same (a0 : State) (a1 : Nat) (a2 : WBuf) :
    (State.flush a0 a1 a2).pending = a0.pending ∧ (State.flush a0 a1 a2).clk = a0.clk ∧ (State.flush a0 a1 a2).net = a0.net ∧
      (State.flush a0 a1 a2).host = a0.host ∧ (State.flush a0 a1 a2).boot = a0.boot ∧ (State.flush a0 a1 a2).free = a0.free := by
  unfold State.flush; (repeat' split) <;> simp
@[simp] theorem State.frameRefuse_same (a0 : State) (a1 : Nat) (a2 : Frame) (a3 : Nat) (a4 : Bool) (a5 : Option Nat) :
    (State.frameRefuse a0 a1 a2 a3 a4 a5).pending = a0.pending ∧ (State.frameRefuse a0 a1 a2 a3 a4 a5).clk = a0.clk ∧
      (State.frameRefuse a0 a1 a2 a3 a4 a5).cores = a0.cores ∧ (State.frameRefuse a0 a1 a2 a3 a4 a5).net = a0.net ∧
      (State.frameRefuse a0 a1 a2 a3 a4 a5).vats = a0.vats ∧ (State.frameRefuse a0 a1 a2 a3 a4 a5).mem = a0.mem ∧
      (State.frameRefuse a0 a1 a2 a3 a4 a5).host = a0.host ∧ (State.frameRefuse a0 a1 a2 a3 a4 a5).boot = a0.boot ∧
      (State.frameRefuse a0 a1 a2 a3 a4 a5).free = a0.free := by
  unfold State.frameRefuse; (repeat' split) <;> simp
@[simp] theorem State.freeCells_same (a0 : State) (a1 : Nat) (a2 : RxFrame) :
    (State.freeCells a0 a1 a2).pending = a0.pending ∧ (State.freeCells a0 a1 a2).clk = a0.clk ∧ (State.freeCells a0 a1 a2).cores = a0.cores ∧
      (State.freeCells a0 a1 a2).net = a0.net ∧ (State.freeCells a0 a1 a2).vats = a0.vats ∧ (State.freeCells a0 a1 a2).mem = a0.mem ∧
      (State.freeCells a0 a1 a2).hub = a0.hub ∧ (State.freeCells a0 a1 a2).host = a0.host ∧ (State.freeCells a0 a1 a2).pwr = a0.pwr ∧
      (State.freeCells a0 a1 a2).boot = a0.boot ∧ (State.freeCells a0 a1 a2).out = a0.out ∧ (State.freeCells a0 a1 a2).free = a0.free := by
  unfold State.freeCells; (repeat' split) <;> simp
@[simp] theorem State.freePass_same (a0 : State) (a1 : Nat) (a2 : Nat) (a3 : Nat) (a4 : Nat) :
    (State.freePass a0 a1 a2 a3 a4).pending = a0.pending ∧ (State.freePass a0 a1 a2 a3 a4).clk = a0.clk ∧
      (State.freePass a0 a1 a2 a3 a4).vats = a0.vats ∧ (State.freePass a0 a1 a2 a3 a4).mem = a0.mem ∧
      (State.freePass a0 a1 a2 a3 a4).span = a0.span ∧ (State.freePass a0 a1 a2 a3 a4).host = a0.host ∧
      (State.freePass a0 a1 a2 a3 a4).boot = a0.boot ∧ (State.freePass a0 a1 a2 a3 a4).free = a0.free := by
  unfold State.freePass; (repeat' split) <;> simp
@[simp] theorem State.freeSlices_same (a0 : State) (a1 : Nat) :
    (State.freeSlices a0 a1).pending = a0.pending ∧ (State.freeSlices a0 a1).clk = a0.clk ∧ (State.freeSlices a0 a1).mem = a0.mem ∧
      (State.freeSlices a0 a1).span = a0.span ∧ (State.freeSlices a0 a1).host = a0.host ∧ (State.freeSlices a0 a1).boot = a0.boot ∧
      (State.freeSlices a0 a1).free = a0.free := by
  unfold State.freeSlices; (repeat' split) <;> simp
@[simp] theorem State.getAdv_same (a0 : State) (a1 : Nat) (a2 : Table AdvSlot) :
    (State.getAdv a0 a1 a2).pending = a0.pending ∧ (State.getAdv a0 a1 a2).clk = a0.clk ∧ (State.getAdv a0 a1 a2).cores = a0.cores ∧
      (State.getAdv a0 a1 a2).net = a0.net ∧ (State.getAdv a0 a1 a2).vats = a0.vats ∧ (State.getAdv a0 a1 a2).mem = a0.mem ∧
      (State.getAdv a0 a1 a2).span = a0.span ∧ (State.getAdv a0 a1 a2).host = a0.host ∧ (State.getAdv a0 a1 a2).pwr = a0.pwr ∧
      (State.getAdv a0 a1 a2).boot = a0.boot ∧ (State.getAdv a0 a1 a2).out = a0.out ∧ (State.getAdv a0 a1 a2).free = a0.free := by
  unfold State.getAdv; (repeat' split) <;> simp
@[simp] theorem State.hostAdd_same (a0 : State) (a1 : Nat) (a2 : Caller) (a3 : Nat) (a4 : Nat) :
    (State.hostAdd a0 a1 a2 a3 a4).pending = a0.pending ∧ (State.hostAdd a0 a1 a2 a3 a4).clk = a0.clk ∧
      (State.hostAdd a0 a1 a2 a3 a4).mem = a0.mem ∧ (State.hostAdd a0 a1 a2 a3 a4).span = a0.span ∧ (State.hostAdd a0 a1 a2 a3 a4).boot = a0.boot ∧
      (State.hostAdd a0 a1 a2 a3 a4).free = a0.free := by
  unfold State.hostAdd; (repeat' split) <;> simp
@[simp] theorem State.hostReset_same (a0 : State) :
    (State.hostReset a0).pending = a0.pending ∧ (State.hostReset a0).clk = a0.clk ∧ (State.hostReset a0).cores = a0.cores ∧
      (State.hostReset a0).net = a0.net ∧ (State.hostReset a0).vats = a0.vats ∧ (State.hostReset a0).mem = a0.mem ∧
      (State.hostReset a0).hub = a0.hub ∧ (State.hostReset a0).span = a0.span ∧ (State.hostReset a0).pwr = a0.pwr ∧
      (State.hostReset a0).boot = a0.boot ∧ (State.hostReset a0).out = a0.out ∧ (State.hostReset a0).free = a0.free := by
  unfold State.hostReset; (repeat' split) <;> simp
@[simp] theorem State.instrIf_same_pending (a0 : State) (a1 : Nat) (a2 : Guard) (a3 : W32) (a4 : Bool) (a5 : Ctl → State)
      (h5 : ∀ k, (a5 k).pending = a0.pending) :
    (State.instrIf a0 a1 a2 a3 a4 a5).pending = a0.pending := by
  unfold State.instrIf; (repeat' split) <;> simp_all
@[simp] theorem State.instrIf_same_clk (a0 : State) (a1 : Nat) (a2 : Guard) (a3 : W32) (a4 : Bool) (a5 : Ctl → State)
      (h5 : ∀ k, (a5 k).clk = a0.clk) :
    (State.instrIf a0 a1 a2 a3 a4 a5).clk = a0.clk := by
  unfold State.instrIf; (repeat' split) <;> simp_all
@[simp] theorem State.instrIf_same_mem (a0 : State) (a1 : Nat) (a2 : Guard) (a3 : W32) (a4 : Bool) (a5 : Ctl → State)
      (h5 : ∀ k, (a5 k).mem = a0.mem) :
    (State.instrIf a0 a1 a2 a3 a4 a5).mem = a0.mem := by
  unfold State.instrIf; (repeat' split) <;> simp_all
@[simp] theorem State.instrIf_same_span (a0 : State) (a1 : Nat) (a2 : Guard) (a3 : W32) (a4 : Bool) (a5 : Ctl → State)
      (h5 : ∀ k, (a5 k).span = a0.span) :
    (State.instrIf a0 a1 a2 a3 a4 a5).span = a0.span := by
  unfold State.instrIf; (repeat' split) <;> simp_all
@[simp] theorem State.instrIf_same_host (a0 : State) (a1 : Nat) (a2 : Guard) (a3 : W32) (a4 : Bool) (a5 : Ctl → State)
      (h5 : ∀ k, (a5 k).host = a0.host) :
    (State.instrIf a0 a1 a2 a3 a4 a5).host = a0.host := by
  unfold State.instrIf; (repeat' split) <;> simp_all
@[simp] theorem State.instrIf_same_boot (a0 : State) (a1 : Nat) (a2 : Guard) (a3 : W32) (a4 : Bool) (a5 : Ctl → State)
      (h5 : ∀ k, (a5 k).boot = a0.boot) :
    (State.instrIf a0 a1 a2 a3 a4 a5).boot = a0.boot := by
  unfold State.instrIf; (repeat' split) <;> simp_all
@[simp] theorem State.instrIf_same_free (a0 : State) (a1 : Nat) (a2 : Guard) (a3 : W32) (a4 : Bool) (a5 : Ctl → State)
      (h5 : ∀ k, (a5 k).free = a0.free) :
    (State.instrIf a0 a1 a2 a3 a4 a5).free = a0.free := by
  unfold State.instrIf; (repeat' split) <;> simp_all
@[simp] theorem State.issueEnd_same (a0 : State) (a1 : Nat) (a2 : Nat) (a3 : Option Nat) (a4 : Option (BitVec 3)) :
    (State.issueEnd a0 a1 a2 a3 a4).pending = a0.pending ∧ (State.issueEnd a0 a1 a2 a3 a4).clk = a0.clk ∧
      (State.issueEnd a0 a1 a2 a3 a4).mem = a0.mem ∧ (State.issueEnd a0 a1 a2 a3 a4).span = a0.span ∧
      (State.issueEnd a0 a1 a2 a3 a4).host = a0.host ∧ (State.issueEnd a0 a1 a2 a3 a4).boot = a0.boot ∧
      (State.issueEnd a0 a1 a2 a3 a4).free = a0.free := by
  unfold State.issueEnd; (repeat' split) <;> simp
@[simp] theorem State.issue_same (a0 : State) (a1 : Nat) (a2 : BitVec 4) (a3 : Bool) (a4 : BitVec 3) (a5 : Option W64) (a6 : W32) :
    (State.issue a0 a1 a2 a3 a4 a5 a6).pending = a0.pending ∧ (State.issue a0 a1 a2 a3 a4 a5 a6).clk = a0.clk ∧
      (State.issue a0 a1 a2 a3 a4 a5 a6).mem = a0.mem ∧ (State.issue a0 a1 a2 a3 a4 a5 a6).span = a0.span ∧
      (State.issue a0 a1 a2 a3 a4 a5 a6).host = a0.host ∧ (State.issue a0 a1 a2 a3 a4 a5 a6).boot = a0.boot ∧
      (State.issue a0 a1 a2 a3 a4 a5 a6).free = a0.free := by
  unfold State.issue; simp only [State.setCtl_same, State.issueEnd_same, State.illegal_same, State.takeException_same, and_self, ite_self, State.pending_ite, State.clk_ite, State.cores_ite, State.net_ite, State.vats_ite, State.mem_ite, State.hub_ite, State.span_ite, State.host_ite, State.pwr_ite, State.boot_ite, State.out_ite, State.free_ite]
@[simp] theorem State.jump_same (a0 : State) (a1 : Nat) (a2 : Ctl) (a3 : Ctl) (a4 : W64) :
    (State.jump a0 a1 a2 a3 a4).pending = a0.pending ∧ (State.jump a0 a1 a2 a3 a4).clk = a0.clk ∧ (State.jump a0 a1 a2 a3 a4).vats = a0.vats ∧
      (State.jump a0 a1 a2 a3 a4).mem = a0.mem ∧ (State.jump a0 a1 a2 a3 a4).span = a0.span ∧ (State.jump a0 a1 a2 a3 a4).host = a0.host ∧
      (State.jump a0 a1 a2 a3 a4).boot = a0.boot ∧ (State.jump a0 a1 a2 a3 a4).free = a0.free := by
  unfold State.jump; (repeat' split) <;> simp
@[simp] theorem State.noteCoreWrite_same (a0 : State) (a1 : Nat) (a2 : Nat) (a3 : List Byte) (a4 : Nat → Bool) :
    (State.noteCoreWrite a0 a1 a2 a3 a4).pending = a0.pending ∧ (State.noteCoreWrite a0 a1 a2 a3 a4).clk = a0.clk ∧
      (State.noteCoreWrite a0 a1 a2 a3 a4).cores = a0.cores ∧ (State.noteCoreWrite a0 a1 a2 a3 a4).net = a0.net ∧
      (State.noteCoreWrite a0 a1 a2 a3 a4).mem = a0.mem ∧ (State.noteCoreWrite a0 a1 a2 a3 a4).hub = a0.hub ∧
      (State.noteCoreWrite a0 a1 a2 a3 a4).span = a0.span ∧ (State.noteCoreWrite a0 a1 a2 a3 a4).host = a0.host ∧
      (State.noteCoreWrite a0 a1 a2 a3 a4).pwr = a0.pwr ∧ (State.noteCoreWrite a0 a1 a2 a3 a4).boot = a0.boot ∧
      (State.noteCoreWrite a0 a1 a2 a3 a4).out = a0.out ∧ (State.noteCoreWrite a0 a1 a2 a3 a4).free = a0.free := by
  unfold State.noteCoreWrite; (repeat' split) <;> simp
@[simp] theorem State.spadStore_same (a0 : State) (a1 : Nat) (a2 : Nat) (a3 : List Byte) (a4 : Nat → Bool) :
    (State.spadStore a0 a1 a2 a3 a4).pending = a0.pending ∧ (State.spadStore a0 a1 a2 a3 a4).clk = a0.clk ∧
      (State.spadStore a0 a1 a2 a3 a4).net = a0.net ∧ (State.spadStore a0 a1 a2 a3 a4).mem = a0.mem ∧
      (State.spadStore a0 a1 a2 a3 a4).hub = a0.hub ∧ (State.spadStore a0 a1 a2 a3 a4).span = a0.span ∧
      (State.spadStore a0 a1 a2 a3 a4).host = a0.host ∧ (State.spadStore a0 a1 a2 a3 a4).pwr = a0.pwr ∧
      (State.spadStore a0 a1 a2 a3 a4).boot = a0.boot ∧ (State.spadStore a0 a1 a2 a3 a4).out = a0.out ∧
      (State.spadStore a0 a1 a2 a3 a4).free = a0.free := by
  unfold State.spadStore; (repeat' split) <;> simp
@[simp] theorem State.land_same (a0 : State) (a1 : Nat) (a2 : Nat) (a3 : List Byte) (a4 : NSet) (a5 : Nat) (a6 : Nat) (a7 : Bool) :
    (State.land a0 a1 a2 a3 a4 a5 a6 a7).pending = a0.pending ∧ (State.land a0 a1 a2 a3 a4 a5 a6 a7).clk = a0.clk ∧
      (State.land a0 a1 a2 a3 a4 a5 a6 a7).mem = a0.mem ∧ (State.land a0 a1 a2 a3 a4 a5 a6 a7).span = a0.span ∧
      (State.land a0 a1 a2 a3 a4 a5 a6 a7).host = a0.host ∧ (State.land a0 a1 a2 a3 a4 a5 a6 a7).boot = a0.boot ∧
      (State.land a0 a1 a2 a3 a4 a5 a6 a7).free = a0.free := by
  unfold State.land; (repeat' split) <;> simp
@[simp] theorem State.lateFrame_same (a0 : State) :
    (State.lateFrame a0).pending = a0.pending ∧ (State.lateFrame a0).clk = a0.clk ∧ (State.lateFrame a0).cores = a0.cores ∧
      (State.lateFrame a0).net = a0.net ∧ (State.lateFrame a0).vats = a0.vats ∧ (State.lateFrame a0).mem = a0.mem ∧
      (State.lateFrame a0).hub = a0.hub ∧ (State.lateFrame a0).host = a0.host ∧ (State.lateFrame a0).pwr = a0.pwr ∧
      (State.lateFrame a0).boot = a0.boot ∧ (State.lateFrame a0).out = a0.out ∧ (State.lateFrame a0).free = a0.free := by
  unfold State.lateFrame; (repeat' split) <;> simp
@[simp] theorem State.ldrIssue_same (a0 : State) (a1 : Nat) (a2 : Ctl) (a3 : Reg) (a4 : W64) (a5 : Nat) :
    (State.ldrIssue a0 a1 a2 a3 a4 a5).pending = a0.pending ∧ (State.ldrIssue a0 a1 a2 a3 a4 a5).clk = a0.clk ∧
      (State.ldrIssue a0 a1 a2 a3 a4 a5).mem = a0.mem ∧ (State.ldrIssue a0 a1 a2 a3 a4 a5).host = a0.host ∧
      (State.ldrIssue a0 a1 a2 a3 a4 a5).boot = a0.boot ∧ (State.ldrIssue a0 a1 a2 a3 a4 a5).free = a0.free := by
  unfold State.ldrIssue; (repeat' split) <;> simp
@[simp] theorem State.ldrReturn_same (a0 : State) (a1 : Nat) (a2 : Answer) :
    (State.ldrReturn a0 a1 a2).pending = a0.pending ∧ (State.ldrReturn a0 a1 a2).clk = a0.clk ∧ (State.ldrReturn a0 a1 a2).vats = a0.vats ∧
      (State.ldrReturn a0 a1 a2).mem = a0.mem ∧ (State.ldrReturn a0 a1 a2).span = a0.span ∧ (State.ldrReturn a0 a1 a2).host = a0.host ∧
      (State.ldrReturn a0 a1 a2).boot = a0.boot ∧ (State.ldrReturn a0 a1 a2).free = a0.free := by
  unfold State.ldrReturn; dsimp only; (repeat' (split <;> try dsimp only)) <;> simp_all
@[simp] theorem State.ldrSend_same (a0 : State) (a1 : BitVec 8) (a2 : Nat) (a3 : Guard) (a4 : Reg) (a5 : Reg) (a6 : BitVec 10) (a7 : Nat) :
    (State.ldrSend a0 a1 a2 a3 a4 a5 a6 a7).pending = a0.pending ∧ (State.ldrSend a0 a1 a2 a3 a4 a5 a6 a7).clk = a0.clk ∧
      (State.ldrSend a0 a1 a2 a3 a4 a5 a6 a7).mem = a0.mem ∧ (State.ldrSend a0 a1 a2 a3 a4 a5 a6 a7).host = a0.host ∧
      (State.ldrSend a0 a1 a2 a3 a4 a5 a6 a7).boot = a0.boot ∧ (State.ldrSend a0 a1 a2 a3 a4 a5 a6 a7).free = a0.free := by
  unfold State.ldrSend; refine ⟨by first | (simp; done) | (apply State.instr_same_pending; intros; (first | (simp; done) | (dsimp only; (repeat' (split <;> try dsimp only)) <;> simp_all)); done) | ((repeat' split) <;> first | (simp; done) | (apply State.instr_same_pending; intros; (first | (simp; done) | (dsimp only; (repeat' (split <;> try dsimp only)) <;> simp_all)); done)), by first | (simp; done) | (apply State.instr_same_clk; intros; (first | (simp; done) | (dsimp only; (repeat' (split <;> try dsimp only)) <;> simp_all)); done) | ((repeat' split) <;> first | (simp; done) | (apply State.instr_same_clk; intros; (first | (simp; done) | (dsimp only; (repeat' (split <;> try dsimp only)) <;> simp_all)); done)), by first | (simp; done) | (apply State.instr_same_mem; intros; (first | (simp; done) | (dsimp only; (repeat' (split <;> try dsimp only)) <;> simp_all)); done) | ((repeat' split) <;> first | (simp; done) | (apply State.instr_same_mem; intros; (first | (simp; done) | (dsimp only; (repeat' (split <;> try dsimp only)) <;> simp_all)); done)), by first | (simp; done) | (apply State.instr_same_host; intros; (first | (simp; done) | (dsimp only; (repeat' (split <;> try dsimp only)) <;> simp_all)); done) | ((repeat' split) <;> first | (simp; done) | (apply State.instr_same_host; intros; (first | (simp; done) | (dsimp only; (repeat' (split <;> try dsimp only)) <;> simp_all)); done)), by first | (simp; done) | (apply State.instr_same_boot; intros; (first | (simp; done) | (dsimp only; (repeat' (split <;> try dsimp only)) <;> simp_all)); done) | ((repeat' split) <;> first | (simp; done) | (apply State.instr_same_boot; intros; (first | (simp; done) | (dsimp only; (repeat' (split <;> try dsimp only)) <;> simp_all)); done)), by first | (simp; done) | (apply State.instr_same_free; intros; (first | (simp; done) | (dsimp only; (repeat' (split <;> try dsimp only)) <;> simp_all)); done) | ((repeat' split) <;> first | (simp; done) | (apply State.instr_same_free; intros; (first | (simp; done) | (dsimp only; (repeat' (split <;> try dsimp only)) <;> simp_all)); done))⟩
@[simp] theorem State.levelEntry_same (a0 : State) (a1 : BitVec 3) (a2 : BitVec 3) (a3 : Nat → Nat) :
    (State.levelEntry a0 a1 a2 a3).pending = a0.pending ∧ (State.levelEntry a0 a1 a2 a3).clk = a0.clk ∧
      (State.levelEntry a0 a1 a2 a3).cores = a0.cores ∧ (State.levelEntry a0 a1 a2 a3).net = a0.net ∧
      (State.levelEntry a0 a1 a2 a3).vats = a0.vats ∧ (State.levelEntry a0 a1 a2 a3).mem = a0.mem ∧ (State.levelEntry a0 a1 a2 a3).span = a0.span ∧
      (State.levelEntry a0 a1 a2 a3).host = a0.host ∧ (State.levelEntry a0 a1 a2 a3).boot = a0.boot ∧ (State.levelEntry a0 a1 a2 a3).free = a0.free := by
  unfold State.levelEntry; (repeat' split) <;> simp
@[simp] theorem State.load_same (a0 : State) (a1 : BitVec 8) (a2 : Nat) (a3 : Guard) (a4 : Reg) (a5 : Reg) (a6 : BitVec 10) (a7 : Nat)
      (a8 : Nat → W64) :
    (State.load a0 a1 a2 a3 a4 a5 a6 a7 a8).pending = a0.pending ∧ (State.load a0 a1 a2 a3 a4 a5 a6 a7 a8).clk = a0.clk ∧
      (State.load a0 a1 a2 a3 a4 a5 a6 a7 a8).mem = a0.mem ∧ (State.load a0 a1 a2 a3 a4 a5 a6 a7 a8).span = a0.span ∧
      (State.load a0 a1 a2 a3 a4 a5 a6 a7 a8).host = a0.host ∧ (State.load a0 a1 a2 a3 a4 a5 a6 a7 a8).boot = a0.boot ∧
      (State.load a0 a1 a2 a3 a4 a5 a6 a7 a8).free = a0.free := by
  unfold State.load; refine ⟨by first | (simp; done) | (apply State.instr_same_pending; intros; (first | (simp; done) | (dsimp only; (repeat' (split <;> try dsimp only)) <;> simp_all)); done) | ((repeat' split) <;> first | (simp; done) | (apply State.instr_same_pending; intros; (first | (simp; done) | (dsimp only; (repeat' (split <;> try dsimp only)) <;> simp_all)); done)), by first | (simp; done) | (apply State.instr_same_clk; intros; (first | (simp; done) | (dsimp only; (repeat' (split <;> try dsimp only)) <;> simp_all)); done) | ((repeat' split) <;> first | (simp; done) | (apply State.instr_same_clk; intros; (first | (simp; done) | (dsimp only; (repeat' (split <;> try dsimp only)) <;> simp_all)); done)), by first | (simp; done) | (apply State.instr_same_mem; intros; (first | (simp; done) | (dsimp only; (repeat' (split <;> try dsimp only)) <;> simp_all)); done) | ((repeat' split) <;> first | (simp; done) | (apply State.instr_same_mem; intros; (first | (simp; done) | (dsimp only; (repeat' (split <;> try dsimp only)) <;> simp_all)); done)), by first | (simp; done) | (apply State.instr_same_span; intros; (first | (simp; done) | (dsimp only; (repeat' (split <;> try dsimp only)) <;> simp_all)); done) | ((repeat' split) <;> first | (simp; done) | (apply State.instr_same_span; intros; (first | (simp; done) | (dsimp only; (repeat' (split <;> try dsimp only)) <;> simp_all)); done)), by first | (simp; done) | (apply State.instr_same_host; intros; (first | (simp; done) | (dsimp only; (repeat' (split <;> try dsimp only)) <;> simp_all)); done) | ((repeat' split) <;> first | (simp; done) | (apply State.instr_same_host; intros; (first | (simp; done) | (dsimp only; (repeat' (split <;> try dsimp only)) <;> simp_all)); done)), by first | (simp; done) | (apply State.instr_same_boot; intros; (first | (simp; done) | (dsimp only; (repeat' (split <;> try dsimp only)) <;> simp_all)); done) | ((repeat' split) <;> first | (simp; done) | (apply State.instr_same_boot; intros; (first | (simp; done) | (dsimp only; (repeat' (split <;> try dsimp only)) <;> simp_all)); done)), by first | (simp; done) | (apply State.instr_same_free; intros; (first | (simp; done) | (dsimp only; (repeat' (split <;> try dsimp only)) <;> simp_all)); done) | ((repeat' split) <;> first | (simp; done) | (apply State.instr_same_free; intros; (first | (simp; done) | (dsimp only; (repeat' (split <;> try dsimp only)) <;> simp_all)); done))⟩
@[simp] theorem State.logItem_same (a0 : State) (a1 : Nat) (a2 : LogItem) :
    (State.logItem a0 a1 a2).pending = a0.pending ∧ (State.logItem a0 a1 a2).clk = a0.clk ∧ (State.logItem a0 a1 a2).cores = a0.cores ∧
      (State.logItem a0 a1 a2).net = a0.net ∧ (State.logItem a0 a1 a2).hub = a0.hub ∧ (State.logItem a0 a1 a2).span = a0.span ∧
      (State.logItem a0 a1 a2).host = a0.host ∧ (State.logItem a0 a1 a2).pwr = a0.pwr ∧ (State.logItem a0 a1 a2).boot = a0.boot ∧
      (State.logItem a0 a1 a2).out = a0.out := by
  unfold State.logItem; (repeat' split) <;> simp
@[simp] theorem State.seFault_same (a0 : State) (a1 : Nat) (a2 : Nat) (a3 : Nat) :
    (State.seFault a0 a1 a2 a3).pending = a0.pending ∧ (State.seFault a0 a1 a2 a3).clk = a0.clk ∧ (State.seFault a0 a1 a2 a3).vats = a0.vats ∧
      (State.seFault a0 a1 a2 a3).mem = a0.mem ∧ (State.seFault a0 a1 a2 a3).span = a0.span ∧ (State.seFault a0 a1 a2 a3).host = a0.host ∧
      (State.seFault a0 a1 a2 a3).boot = a0.boot ∧ (State.seFault a0 a1 a2 a3).free = a0.free := by
  unfold State.seFault; (repeat' split) <;> simp
@[simp] theorem State.loopmCount_same (a0 : State) (a1 : Nat) (a2 : Nat) (a3 : Nat) (a4 : Bool) :
    (State.loopmCount a0 a1 a2 a3 a4).pending = a0.pending ∧ (State.loopmCount a0 a1 a2 a3 a4).clk = a0.clk ∧
      (State.loopmCount a0 a1 a2 a3 a4).vats = a0.vats ∧ (State.loopmCount a0 a1 a2 a3 a4).mem = a0.mem ∧
      (State.loopmCount a0 a1 a2 a3 a4).span = a0.span ∧ (State.loopmCount a0 a1 a2 a3 a4).host = a0.host ∧
      (State.loopmCount a0 a1 a2 a3 a4).boot = a0.boot ∧ (State.loopmCount a0 a1 a2 a3 a4).free = a0.free := by
  unfold State.loopmCount; (repeat' split) <;> simp
@[simp] theorem State.setChnKeep_same (a0 : State) (a1 : Nat) (a2 : Chn) :
    (State.setChnKeep a0 a1 a2).pending = a0.pending ∧ (State.setChnKeep a0 a1 a2).clk = a0.clk ∧ (State.setChnKeep a0 a1 a2).net = a0.net ∧
      (State.setChnKeep a0 a1 a2).vats = a0.vats ∧ (State.setChnKeep a0 a1 a2).mem = a0.mem ∧ (State.setChnKeep a0 a1 a2).hub = a0.hub ∧
      (State.setChnKeep a0 a1 a2).span = a0.span ∧ (State.setChnKeep a0 a1 a2).host = a0.host ∧ (State.setChnKeep a0 a1 a2).pwr = a0.pwr ∧
      (State.setChnKeep a0 a1 a2).boot = a0.boot ∧ (State.setChnKeep a0 a1 a2).out = a0.out ∧ (State.setChnKeep a0 a1 a2).free = a0.free := by
  unfold State.setChnKeep; (repeat' split) <;> simp
@[simp] theorem State.setSpadKeep_same (a0 : State) (a1 : Nat) (a2 : Spad) :
    (State.setSpadKeep a0 a1 a2).pending = a0.pending ∧ (State.setSpadKeep a0 a1 a2).clk = a0.clk ∧ (State.setSpadKeep a0 a1 a2).net = a0.net ∧
      (State.setSpadKeep a0 a1 a2).vats = a0.vats ∧ (State.setSpadKeep a0 a1 a2).mem = a0.mem ∧ (State.setSpadKeep a0 a1 a2).hub = a0.hub ∧
      (State.setSpadKeep a0 a1 a2).span = a0.span ∧ (State.setSpadKeep a0 a1 a2).host = a0.host ∧ (State.setSpadKeep a0 a1 a2).pwr = a0.pwr ∧
      (State.setSpadKeep a0 a1 a2).boot = a0.boot ∧ (State.setSpadKeep a0 a1 a2).out = a0.out ∧ (State.setSpadKeep a0 a1 a2).free = a0.free := by
  unfold State.setSpadKeep; (repeat' split) <;> simp
@[simp] theorem State.loseCore_same (a0 : State) (a1 : Nat) :
    (State.loseCore a0 a1).pending = a0.pending ∧ (State.loseCore a0 a1).clk = a0.clk ∧ (State.loseCore a0 a1).net = a0.net ∧
      (State.loseCore a0 a1).vats = a0.vats ∧ (State.loseCore a0 a1).mem = a0.mem ∧ (State.loseCore a0 a1).hub = a0.hub ∧
      (State.loseCore a0 a1).span = a0.span ∧ (State.loseCore a0 a1).host = a0.host ∧ (State.loseCore a0 a1).pwr = a0.pwr ∧
      (State.loseCore a0 a1).boot = a0.boot ∧ (State.loseCore a0 a1).out = a0.out ∧ (State.loseCore a0 a1).free = a0.free := by
  unfold State.loseCore; (repeat' split) <;> simp
@[simp] theorem State.matDrain_same (a0 : State) (a1 : Nat) (a2 : MStep) :
    (State.matDrain a0 a1 a2).pending = a0.pending ∧ (State.matDrain a0 a1 a2).clk = a0.clk ∧ (State.matDrain a0 a1 a2).net = a0.net ∧
      (State.matDrain a0 a1 a2).mem = a0.mem ∧ (State.matDrain a0 a1 a2).hub = a0.hub ∧ (State.matDrain a0 a1 a2).span = a0.span ∧
      (State.matDrain a0 a1 a2).host = a0.host ∧ (State.matDrain a0 a1 a2).pwr = a0.pwr ∧ (State.matDrain a0 a1 a2).boot = a0.boot ∧
      (State.matDrain a0 a1 a2).out = a0.out ∧ (State.matDrain a0 a1 a2).free = a0.free := by
  unfold State.matDrain; (repeat' split) <;> simp
@[simp] theorem State.matPark_same (a0 : State) (a1 : Nat) (a2 : Nat) :
    (State.matPark a0 a1 a2).pending = a0.pending ∧ (State.matPark a0 a1 a2).clk = a0.clk ∧ (State.matPark a0 a1 a2).net = a0.net ∧
      (State.matPark a0 a1 a2).mem = a0.mem ∧ (State.matPark a0 a1 a2).hub = a0.hub ∧ (State.matPark a0 a1 a2).span = a0.span ∧
      (State.matPark a0 a1 a2).host = a0.host ∧ (State.matPark a0 a1 a2).pwr = a0.pwr ∧ (State.matPark a0 a1 a2).boot = a0.boot ∧
      (State.matPark a0 a1 a2).out = a0.out ∧ (State.matPark a0 a1 a2).free = a0.free := by
  unfold State.matPark; (repeat' split) <;> simp
@[simp] theorem State.matTile_same (a0 : State) (a1 : Nat) (a2 : MStep) :
    (State.matTile a0 a1 a2).1.pending = a0.pending ∧ (State.matTile a0 a1 a2).1.clk = a0.clk ∧ (State.matTile a0 a1 a2).1.net = a0.net ∧
      (State.matTile a0 a1 a2).1.vats = a0.vats ∧ (State.matTile a0 a1 a2).1.mem = a0.mem ∧ (State.matTile a0 a1 a2).1.hub = a0.hub ∧
      (State.matTile a0 a1 a2).1.span = a0.span ∧ (State.matTile a0 a1 a2).1.host = a0.host ∧ (State.matTile a0 a1 a2).1.pwr = a0.pwr ∧
      (State.matTile a0 a1 a2).1.boot = a0.boot ∧ (State.matTile a0 a1 a2).1.out = a0.out ∧ (State.matTile a0 a1 a2).1.free = a0.free := by
  unfold State.matTile; (repeat' split) <;> simp
@[simp] theorem State.matStep_same (a0 : State) (a1 : Nat) (a2 : MStep) (a3 : Option MStep) :
    (State.matStep a0 a1 a2 a3).1.pending = a0.pending ∧ (State.matStep a0 a1 a2 a3).1.clk = a0.clk ∧ (State.matStep a0 a1 a2 a3).1.mem = a0.mem ∧
      (State.matStep a0 a1 a2 a3).1.span = a0.span ∧ (State.matStep a0 a1 a2 a3).1.host = a0.host ∧ (State.matStep a0 a1 a2 a3).1.boot = a0.boot ∧
      (State.matStep a0 a1 a2 a3).1.free = a0.free := by
  unfold State.matStep; (repeat' split) <;> simp
@[simp] theorem State.matGo_same (a0 : State) (a1 : Nat) (a2 : List MStep) :
    (State.matGo a0 a1 a2).pending = a0.pending ∧ (State.matGo a0 a1 a2).clk = a0.clk ∧ (State.matGo a0 a1 a2).mem = a0.mem ∧
      (State.matGo a0 a1 a2).span = a0.span ∧ (State.matGo a0 a1 a2).host = a0.host ∧ (State.matGo a0 a1 a2).boot = a0.boot ∧
      (State.matGo a0 a1 a2).free = a0.free := by
  induction a2 generalizing a0 with
  | nil => simp [State.matGo]
  | cons x xs ih => unfold State.matGo; dsimp only; (repeat' (split <;> try dsimp only)) <;> simp_all
@[simp] theorem State.matRun_same (a0 : State) (a1 : Nat) :
    (State.matRun a0 a1).pending = a0.pending ∧ (State.matRun a0 a1).clk = a0.clk ∧ (State.matRun a0 a1).mem = a0.mem ∧
      (State.matRun a0 a1).span = a0.span ∧ (State.matRun a0 a1).host = a0.host ∧ (State.matRun a0 a1).boot = a0.boot ∧
      (State.matRun a0 a1).free = a0.free := by
  unfold State.matRun; (repeat' split) <;> simp
@[simp] theorem State.matAccept_same (a0 : State) (a1 : Nat) (a2 : Nat) :
    (State.matAccept a0 a1 a2).pending = a0.pending ∧ (State.matAccept a0 a1 a2).clk = a0.clk ∧ (State.matAccept a0 a1 a2).mem = a0.mem ∧
      (State.matAccept a0 a1 a2).span = a0.span ∧ (State.matAccept a0 a1 a2).host = a0.host ∧ (State.matAccept a0 a1 a2).boot = a0.boot ∧
      (State.matAccept a0 a1 a2).free = a0.free := by
  unfold State.matAccept; (repeat' split) <;> simp
@[simp] theorem State.meshRefuse_same (a0 : State) (a1 : Nat) (a2 : Nat) (a3 : Nat) :
    (State.meshRefuse a0 a1 a2 a3).pending = a0.pending ∧ (State.meshRefuse a0 a1 a2 a3).clk = a0.clk ∧
      (State.meshRefuse a0 a1 a2 a3).cores = a0.cores ∧ (State.meshRefuse a0 a1 a2 a3).net = a0.net ∧
      (State.meshRefuse a0 a1 a2 a3).vats = a0.vats ∧ (State.meshRefuse a0 a1 a2 a3).mem = a0.mem ∧ (State.meshRefuse a0 a1 a2 a3).hub = a0.hub ∧
      (State.meshRefuse a0 a1 a2 a3).span = a0.span ∧ (State.meshRefuse a0 a1 a2 a3).host = a0.host ∧ (State.meshRefuse a0 a1 a2 a3).pwr = a0.pwr ∧
      (State.meshRefuse a0 a1 a2 a3).boot = a0.boot ∧ (State.meshRefuse a0 a1 a2 a3).free = a0.free := by
  unfold State.meshRefuse; (repeat' split) <;> simp
@[simp] theorem State.modDrops_same (a0 : State) (a1 : Nat) (a2 : NetDrops → NetDrops) :
    (State.modDrops a0 a1 a2).pending = a0.pending ∧ (State.modDrops a0 a1 a2).clk = a0.clk ∧ (State.modDrops a0 a1 a2).cores = a0.cores ∧
      (State.modDrops a0 a1 a2).vats = a0.vats ∧ (State.modDrops a0 a1 a2).mem = a0.mem ∧ (State.modDrops a0 a1 a2).hub = a0.hub ∧
      (State.modDrops a0 a1 a2).span = a0.span ∧ (State.modDrops a0 a1 a2).host = a0.host ∧ (State.modDrops a0 a1 a2).pwr = a0.pwr ∧
      (State.modDrops a0 a1 a2).boot = a0.boot ∧ (State.modDrops a0 a1 a2).out = a0.out ∧ (State.modDrops a0 a1 a2).free = a0.free := by
  unfold State.modDrops; (repeat' split) <;> simp
@[simp] theorem State.meshBad_same (a0 : State) (a1 : Nat) (a2 : Nat) :
    (State.meshBad a0 a1 a2).pending = a0.pending ∧ (State.meshBad a0 a1 a2).clk = a0.clk ∧ (State.meshBad a0 a1 a2).cores = a0.cores ∧
      (State.meshBad a0 a1 a2).vats = a0.vats ∧ (State.meshBad a0 a1 a2).mem = a0.mem ∧ (State.meshBad a0 a1 a2).span = a0.span ∧
      (State.meshBad a0 a1 a2).host = a0.host ∧ (State.meshBad a0 a1 a2).boot = a0.boot ∧ (State.meshBad a0 a1 a2).free = a0.free := by
  unfold State.meshBad; (repeat' split) <;> simp
@[simp] theorem State.meshLeave_same (a0 : State) (a1 : Nat) (a2 : Nat) (a3 : Nat) (a4 : List Byte) (a5 : NSet) (a6 : List Nat) :
    (State.meshLeave a0 a1 a2 a3 a4 a5 a6).pending = a0.pending ∧ (State.meshLeave a0 a1 a2 a3 a4 a5 a6).clk = a0.clk ∧
      (State.meshLeave a0 a1 a2 a3 a4 a5 a6).cores = a0.cores ∧ (State.meshLeave a0 a1 a2 a3 a4 a5 a6).net = a0.net ∧
      (State.meshLeave a0 a1 a2 a3 a4 a5 a6).mem = a0.mem ∧ (State.meshLeave a0 a1 a2 a3 a4 a5 a6).span = a0.span ∧
      (State.meshLeave a0 a1 a2 a3 a4 a5 a6).host = a0.host ∧ (State.meshLeave a0 a1 a2 a3 a4 a5 a6).boot = a0.boot ∧
      (State.meshLeave a0 a1 a2 a3 a4 a5 a6).free = a0.free := by
  unfold State.meshLeave; (repeat' split) <;> simp
@[simp] theorem State.meshShut_same (a0 : State) (a1 : Nat) (a2 : Nat) :
    (State.meshShut a0 a1 a2).pending = a0.pending ∧ (State.meshShut a0 a1 a2).clk = a0.clk ∧ (State.meshShut a0 a1 a2).cores = a0.cores ∧
      (State.meshShut a0 a1 a2).vats = a0.vats ∧ (State.meshShut a0 a1 a2).mem = a0.mem ∧ (State.meshShut a0 a1 a2).hub = a0.hub ∧
      (State.meshShut a0 a1 a2).span = a0.span ∧ (State.meshShut a0 a1 a2).host = a0.host ∧ (State.meshShut a0 a1 a2).pwr = a0.pwr ∧
      (State.meshShut a0 a1 a2).boot = a0.boot ∧ (State.meshShut a0 a1 a2).free = a0.free := by
  unfold State.meshShut; (repeat' split) <;> simp
@[simp] theorem State.meshMulti_same (a0 : State) (a1 : Nat) (a2 : Nat) (a3 : Nat) (a4 : List Byte) (a5 : NSet) (a6 : List Nat) :
    (State.meshMulti a0 a1 a2 a3 a4 a5 a6).pending = a0.pending ∧ (State.meshMulti a0 a1 a2 a3 a4 a5 a6).clk = a0.clk ∧
      (State.meshMulti a0 a1 a2 a3 a4 a5 a6).cores = a0.cores ∧ (State.meshMulti a0 a1 a2 a3 a4 a5 a6).mem = a0.mem ∧
      (State.meshMulti a0 a1 a2 a3 a4 a5 a6).span = a0.span ∧ (State.meshMulti a0 a1 a2 a3 a4 a5 a6).host = a0.host ∧
      (State.meshMulti a0 a1 a2 a3 a4 a5 a6).boot = a0.boot ∧ (State.meshMulti a0 a1 a2 a3 a4 a5 a6).free = a0.free := by
  unfold State.meshMulti; (repeat' split) <;> simp
@[simp] theorem State.mfenceEnd_same (a0 : State) (a1 : Nat) :
    (State.mfenceEnd a0 a1).pending = a0.pending ∧ (State.mfenceEnd a0 a1).clk = a0.clk ∧ (State.mfenceEnd a0 a1).vats = a0.vats ∧
      (State.mfenceEnd a0 a1).mem = a0.mem ∧ (State.mfenceEnd a0 a1).span = a0.span ∧ (State.mfenceEnd a0 a1).host = a0.host ∧
      (State.mfenceEnd a0 a1).boot = a0.boot ∧ (State.mfenceEnd a0 a1).free = a0.free := by
  unfold State.mfenceEnd; (repeat' split) <;> simp
@[simp] theorem State.modConn_same (a0 : State) (a1 : Nat) (a2 : Conn → Conn) :
    (State.modConn a0 a1 a2).pending = a0.pending ∧ (State.modConn a0 a1 a2).clk = a0.clk ∧ (State.modConn a0 a1 a2).cores = a0.cores ∧
      (State.modConn a0 a1 a2).vats = a0.vats ∧ (State.modConn a0 a1 a2).mem = a0.mem ∧ (State.modConn a0 a1 a2).hub = a0.hub ∧
      (State.modConn a0 a1 a2).span = a0.span ∧ (State.modConn a0 a1 a2).host = a0.host ∧ (State.modConn a0 a1 a2).pwr = a0.pwr ∧
      (State.modConn a0 a1 a2).boot = a0.boot ∧ (State.modConn a0 a1 a2).out = a0.out ∧ (State.modConn a0 a1 a2).free = a0.free := by
  unfold State.modConn; (repeat' split) <;> simp
@[simp] theorem State.modCouchTop_same (a0 : State) (a1 : Nat) (a2 : Nat → Nat) :
    (State.modCouchTop a0 a1 a2).pending = a0.pending ∧ (State.modCouchTop a0 a1 a2).clk = a0.clk ∧ (State.modCouchTop a0 a1 a2).cores = a0.cores ∧
      (State.modCouchTop a0 a1 a2).vats = a0.vats ∧ (State.modCouchTop a0 a1 a2).mem = a0.mem ∧ (State.modCouchTop a0 a1 a2).hub = a0.hub ∧
      (State.modCouchTop a0 a1 a2).span = a0.span ∧ (State.modCouchTop a0 a1 a2).host = a0.host ∧ (State.modCouchTop a0 a1 a2).pwr = a0.pwr ∧
      (State.modCouchTop a0 a1 a2).boot = a0.boot ∧ (State.modCouchTop a0 a1 a2).out = a0.out ∧ (State.modCouchTop a0 a1 a2).free = a0.free := by
  unfold State.modCouchTop; (repeat' split) <;> simp
@[simp] theorem State.modCtr_same (a0 : State) (a1 : Nat) (a2 : Nat → Nat) :
    (State.modCtr a0 a1 a2).pending = a0.pending ∧ (State.modCtr a0 a1 a2).clk = a0.clk ∧ (State.modCtr a0 a1 a2).cores = a0.cores ∧
      (State.modCtr a0 a1 a2).vats = a0.vats ∧ (State.modCtr a0 a1 a2).mem = a0.mem ∧ (State.modCtr a0 a1 a2).hub = a0.hub ∧
      (State.modCtr a0 a1 a2).span = a0.span ∧ (State.modCtr a0 a1 a2).host = a0.host ∧ (State.modCtr a0 a1 a2).pwr = a0.pwr ∧
      (State.modCtr a0 a1 a2).boot = a0.boot ∧ (State.modCtr a0 a1 a2).out = a0.out ∧ (State.modCtr a0 a1 a2).free = a0.free := by
  unfold State.modCtr; (repeat' split) <;> simp
@[simp] theorem State.modGsync_same (a0 : State) (a1 : Nat) (a2 : GsyncCtl → GsyncCtl) :
    (State.modGsync a0 a1 a2).pending = a0.pending ∧ (State.modGsync a0 a1 a2).clk = a0.clk ∧ (State.modGsync a0 a1 a2).cores = a0.cores ∧
      (State.modGsync a0 a1 a2).vats = a0.vats ∧ (State.modGsync a0 a1 a2).mem = a0.mem ∧ (State.modGsync a0 a1 a2).hub = a0.hub ∧
      (State.modGsync a0 a1 a2).span = a0.span ∧ (State.modGsync a0 a1 a2).host = a0.host ∧ (State.modGsync a0 a1 a2).pwr = a0.pwr ∧
      (State.modGsync a0 a1 a2).boot = a0.boot ∧ (State.modGsync a0 a1 a2).out = a0.out ∧ (State.modGsync a0 a1 a2).free = a0.free := by
  unfold State.modGsync; (repeat' split) <;> simp
@[simp] theorem State.modIrqCause_same (a0 : State) (a1 : Nat) (a2 : BitVec 6 → BitVec 6) :
    (State.modIrqCause a0 a1 a2).pending = a0.pending ∧ (State.modIrqCause a0 a1 a2).clk = a0.clk ∧ (State.modIrqCause a0 a1 a2).net = a0.net ∧
      (State.modIrqCause a0 a1 a2).vats = a0.vats ∧ (State.modIrqCause a0 a1 a2).mem = a0.mem ∧ (State.modIrqCause a0 a1 a2).hub = a0.hub ∧
      (State.modIrqCause a0 a1 a2).span = a0.span ∧ (State.modIrqCause a0 a1 a2).host = a0.host ∧ (State.modIrqCause a0 a1 a2).pwr = a0.pwr ∧
      (State.modIrqCause a0 a1 a2).boot = a0.boot ∧ (State.modIrqCause a0 a1 a2).out = a0.out ∧ (State.modIrqCause a0 a1 a2).free = a0.free := by
  unfold State.modIrqCause; (repeat' split) <;> simp
@[simp] theorem State.modIrqTgt_same (a0 : State) (a1 : Nat) (a2 : IrqTgt → IrqTgt) :
    (State.modIrqTgt a0 a1 a2).pending = a0.pending ∧ (State.modIrqTgt a0 a1 a2).clk = a0.clk ∧ (State.modIrqTgt a0 a1 a2).cores = a0.cores ∧
      (State.modIrqTgt a0 a1 a2).net = a0.net ∧ (State.modIrqTgt a0 a1 a2).vats = a0.vats ∧ (State.modIrqTgt a0 a1 a2).mem = a0.mem ∧
      (State.modIrqTgt a0 a1 a2).span = a0.span ∧ (State.modIrqTgt a0 a1 a2).host = a0.host ∧ (State.modIrqTgt a0 a1 a2).pwr = a0.pwr ∧
      (State.modIrqTgt a0 a1 a2).boot = a0.boot ∧ (State.modIrqTgt a0 a1 a2).out = a0.out ∧ (State.modIrqTgt a0 a1 a2).free = a0.free := by
  unfold State.modIrqTgt; (repeat' split) <;> simp
@[simp] theorem State.modPlan_same (a0 : State) (a1 : Nat) (a2 : Nat) (a3 : PlanVat → PlanVat) :
    (State.modPlan a0 a1 a2 a3).pending = a0.pending ∧ (State.modPlan a0 a1 a2 a3).clk = a0.clk ∧ (State.modPlan a0 a1 a2 a3).cores = a0.cores ∧
      (State.modPlan a0 a1 a2 a3).vats = a0.vats ∧ (State.modPlan a0 a1 a2 a3).mem = a0.mem ∧ (State.modPlan a0 a1 a2 a3).hub = a0.hub ∧
      (State.modPlan a0 a1 a2 a3).span = a0.span ∧ (State.modPlan a0 a1 a2 a3).host = a0.host ∧ (State.modPlan a0 a1 a2 a3).pwr = a0.pwr ∧
      (State.modPlan a0 a1 a2 a3).boot = a0.boot ∧ (State.modPlan a0 a1 a2 a3).out = a0.out ∧ (State.modPlan a0 a1 a2 a3).free = a0.free := by
  unfold State.modPlan; (repeat' split) <;> simp
@[simp] theorem State.setPresented_same (a0 : State) (a1 : Nat) (a2 : List SyncIn) :
    (State.setPresented a0 a1 a2).pending = a0.pending ∧ (State.setPresented a0 a1 a2).clk = a0.clk ∧
      (State.setPresented a0 a1 a2).cores = a0.cores ∧ (State.setPresented a0 a1 a2).vats = a0.vats ∧ (State.setPresented a0 a1 a2).mem = a0.mem ∧
      (State.setPresented a0 a1 a2).hub = a0.hub ∧ (State.setPresented a0 a1 a2).span = a0.span ∧ (State.setPresented a0 a1 a2).host = a0.host ∧
      (State.setPresented a0 a1 a2).pwr = a0.pwr ∧ (State.setPresented a0 a1 a2).boot = a0.boot ∧ (State.setPresented a0 a1 a2).out = a0.out ∧
      (State.setPresented a0 a1 a2).free = a0.free := by
  unfold State.setPresented; (repeat' split) <;> simp
@[simp] theorem State.modPresented_same (a0 : State) (a1 : Nat) (a2 : List SyncIn → List SyncIn) :
    (State.modPresented a0 a1 a2).pending = a0.pending ∧ (State.modPresented a0 a1 a2).clk = a0.clk ∧
      (State.modPresented a0 a1 a2).cores = a0.cores ∧ (State.modPresented a0 a1 a2).vats = a0.vats ∧ (State.modPresented a0 a1 a2).mem = a0.mem ∧
      (State.modPresented a0 a1 a2).hub = a0.hub ∧ (State.modPresented a0 a1 a2).span = a0.span ∧ (State.modPresented a0 a1 a2).host = a0.host ∧
      (State.modPresented a0 a1 a2).pwr = a0.pwr ∧ (State.modPresented a0 a1 a2).boot = a0.boot ∧ (State.modPresented a0 a1 a2).out = a0.out ∧
      (State.modPresented a0 a1 a2).free = a0.free := by
  unfold State.modPresented; (repeat' split) <;> simp
@[simp] theorem State.modRoute_same (a0 : State) (a1 : Nat) (a2 : Nat) (a3 : RouteEnt → RouteEnt) :
    (State.modRoute a0 a1 a2 a3).pending = a0.pending ∧ (State.modRoute a0 a1 a2 a3).clk = a0.clk ∧ (State.modRoute a0 a1 a2 a3).cores = a0.cores ∧
      (State.modRoute a0 a1 a2 a3).vats = a0.vats ∧ (State.modRoute a0 a1 a2 a3).mem = a0.mem ∧ (State.modRoute a0 a1 a2 a3).hub = a0.hub ∧
      (State.modRoute a0 a1 a2 a3).span = a0.span ∧ (State.modRoute a0 a1 a2 a3).host = a0.host ∧ (State.modRoute a0 a1 a2 a3).pwr = a0.pwr ∧
      (State.modRoute a0 a1 a2 a3).boot = a0.boot ∧ (State.modRoute a0 a1 a2 a3).out = a0.out ∧ (State.modRoute a0 a1 a2 a3).free = a0.free := by
  unfold State.modRoute; (repeat' split) <;> simp
@[simp] theorem State.modSeAsyncLate_same (a0 : State) (a1 : Nat) (a2 : Nat → Nat) :
    (State.modSeAsyncLate a0 a1 a2).pending = a0.pending ∧ (State.modSeAsyncLate a0 a1 a2).clk = a0.clk ∧
      (State.modSeAsyncLate a0 a1 a2).net = a0.net ∧ (State.modSeAsyncLate a0 a1 a2).vats = a0.vats ∧
      (State.modSeAsyncLate a0 a1 a2).mem = a0.mem ∧ (State.modSeAsyncLate a0 a1 a2).hub = a0.hub ∧
      (State.modSeAsyncLate a0 a1 a2).span = a0.span ∧ (State.modSeAsyncLate a0 a1 a2).host = a0.host ∧
      (State.modSeAsyncLate a0 a1 a2).pwr = a0.pwr ∧ (State.modSeAsyncLate a0 a1 a2).boot = a0.boot ∧
      (State.modSeAsyncLate a0 a1 a2).out = a0.out ∧ (State.modSeAsyncLate a0 a1 a2).free = a0.free := by
  unfold State.modSeAsyncLate; (repeat' split) <;> simp
@[simp] theorem State.modSeJoined_same (a0 : State) (a1 : Nat) (a2 : Nat → Nat) :
    (State.modSeJoined a0 a1 a2).pending = a0.pending ∧ (State.modSeJoined a0 a1 a2).clk = a0.clk ∧ (State.modSeJoined a0 a1 a2).net = a0.net ∧
      (State.modSeJoined a0 a1 a2).vats = a0.vats ∧ (State.modSeJoined a0 a1 a2).mem = a0.mem ∧ (State.modSeJoined a0 a1 a2).hub = a0.hub ∧
      (State.modSeJoined a0 a1 a2).span = a0.span ∧ (State.modSeJoined a0 a1 a2).host = a0.host ∧ (State.modSeJoined a0 a1 a2).pwr = a0.pwr ∧
      (State.modSeJoined a0 a1 a2).boot = a0.boot ∧ (State.modSeJoined a0 a1 a2).out = a0.out ∧ (State.modSeJoined a0 a1 a2).free = a0.free := by
  unfold State.modSeJoined; (repeat' split) <;> simp
@[simp] theorem State.modSeOndieLate_same (a0 : State) (a1 : Nat) (a2 : Nat → Nat) :
    (State.modSeOndieLate a0 a1 a2).pending = a0.pending ∧ (State.modSeOndieLate a0 a1 a2).clk = a0.clk ∧
      (State.modSeOndieLate a0 a1 a2).net = a0.net ∧ (State.modSeOndieLate a0 a1 a2).vats = a0.vats ∧
      (State.modSeOndieLate a0 a1 a2).mem = a0.mem ∧ (State.modSeOndieLate a0 a1 a2).hub = a0.hub ∧
      (State.modSeOndieLate a0 a1 a2).span = a0.span ∧ (State.modSeOndieLate a0 a1 a2).host = a0.host ∧
      (State.modSeOndieLate a0 a1 a2).pwr = a0.pwr ∧ (State.modSeOndieLate a0 a1 a2).boot = a0.boot ∧
      (State.modSeOndieLate a0 a1 a2).out = a0.out ∧ (State.modSeOndieLate a0 a1 a2).free = a0.free := by
  unfold State.modSeOndieLate; (repeat' split) <;> simp
@[simp] theorem State.modSeRequests_same (a0 : State) (a1 : Nat) (a2 : Nat → Nat) :
    (State.modSeRequests a0 a1 a2).pending = a0.pending ∧ (State.modSeRequests a0 a1 a2).clk = a0.clk ∧
      (State.modSeRequests a0 a1 a2).net = a0.net ∧ (State.modSeRequests a0 a1 a2).vats = a0.vats ∧ (State.modSeRequests a0 a1 a2).mem = a0.mem ∧
      (State.modSeRequests a0 a1 a2).hub = a0.hub ∧ (State.modSeRequests a0 a1 a2).span = a0.span ∧ (State.modSeRequests a0 a1 a2).host = a0.host ∧
      (State.modSeRequests a0 a1 a2).pwr = a0.pwr ∧ (State.modSeRequests a0 a1 a2).boot = a0.boot ∧ (State.modSeRequests a0 a1 a2).out = a0.out ∧
      (State.modSeRequests a0 a1 a2).free = a0.free := by
  unfold State.modSeRequests; (repeat' split) <;> simp
@[simp] theorem State.modSeqSlot_same (a0 : State) (a1 : Nat) (a2 : Seq → Seq) :
    (State.modSeqSlot a0 a1 a2).pending = a0.pending ∧ (State.modSeqSlot a0 a1 a2).clk = a0.clk ∧ (State.modSeqSlot a0 a1 a2).cores = a0.cores ∧
      (State.modSeqSlot a0 a1 a2).net = a0.net ∧ (State.modSeqSlot a0 a1 a2).vats = a0.vats ∧ (State.modSeqSlot a0 a1 a2).mem = a0.mem ∧
      (State.modSeqSlot a0 a1 a2).span = a0.span ∧ (State.modSeqSlot a0 a1 a2).host = a0.host ∧ (State.modSeqSlot a0 a1 a2).pwr = a0.pwr ∧
      (State.modSeqSlot a0 a1 a2).boot = a0.boot ∧ (State.modSeqSlot a0 a1 a2).out = a0.out ∧ (State.modSeqSlot a0 a1 a2).free = a0.free := by
  unfold State.modSeqSlot; (repeat' split) <;> simp
@[simp] theorem State.modVatPerm_same (a0 : State) (a1 : Nat) (a2 : SpanVatPerm → SpanVatPerm) :
    (State.modVatPerm a0 a1 a2).pending = a0.pending ∧ (State.modVatPerm a0 a1 a2).clk = a0.clk ∧ (State.modVatPerm a0 a1 a2).cores = a0.cores ∧
      (State.modVatPerm a0 a1 a2).net = a0.net ∧ (State.modVatPerm a0 a1 a2).vats = a0.vats ∧ (State.modVatPerm a0 a1 a2).mem = a0.mem ∧
      (State.modVatPerm a0 a1 a2).hub = a0.hub ∧ (State.modVatPerm a0 a1 a2).host = a0.host ∧ (State.modVatPerm a0 a1 a2).pwr = a0.pwr ∧
      (State.modVatPerm a0 a1 a2).boot = a0.boot ∧ (State.modVatPerm a0 a1 a2).out = a0.out ∧ (State.modVatPerm a0 a1 a2).free = a0.free := by
  unfold State.modVatPerm; (repeat' split) <;> simp
@[simp] theorem State.newPair_same (a0 : State) (a1 : Nat) :
    (State.newPair a0 a1).pending = a0.pending ∧ (State.newPair a0 a1).clk = a0.clk ∧ (State.newPair a0 a1).cores = a0.cores ∧
      (State.newPair a0 a1).net = a0.net ∧ (State.newPair a0 a1).mem = a0.mem ∧ (State.newPair a0 a1).host = a0.host ∧
      (State.newPair a0 a1).pwr = a0.pwr ∧ (State.newPair a0 a1).boot = a0.boot ∧ (State.newPair a0 a1).free = a0.free := by
  unfold State.newPair; dsimp only; split <;> simp [-List.reduceReplicate]
@[simp] theorem State.noteMop_same (a0 : State) (a1 : Nat) (a2 : Nat) (a3 : Nat) :
    (State.noteMop a0 a1 a2 a3).pending = a0.pending ∧ (State.noteMop a0 a1 a2 a3).clk = a0.clk ∧ (State.noteMop a0 a1 a2 a3).net = a0.net ∧
      (State.noteMop a0 a1 a2 a3).vats = a0.vats ∧ (State.noteMop a0 a1 a2 a3).mem = a0.mem ∧ (State.noteMop a0 a1 a2 a3).hub = a0.hub ∧
      (State.noteMop a0 a1 a2 a3).span = a0.span ∧ (State.noteMop a0 a1 a2 a3).host = a0.host ∧ (State.noteMop a0 a1 a2 a3).pwr = a0.pwr ∧
      (State.noteMop a0 a1 a2 a3).boot = a0.boot ∧ (State.noteMop a0 a1 a2 a3).out = a0.out ∧ (State.noteMop a0 a1 a2 a3).free = a0.free := by
  unfold State.noteMop; (repeat' split) <;> simp
@[simp] theorem State.openFails_same (a0 : State) (a1 : Nat) (a2 : Nat) (a3 : Nat) :
    (State.openFails a0 a1 a2 a3).pending = a0.pending ∧ (State.openFails a0 a1 a2 a3).clk = a0.clk ∧
      (State.openFails a0 a1 a2 a3).vats = a0.vats ∧ (State.openFails a0 a1 a2 a3).mem = a0.mem ∧ (State.openFails a0 a1 a2 a3).span = a0.span ∧
      (State.openFails a0 a1 a2 a3).host = a0.host ∧ (State.openFails a0 a1 a2 a3).boot = a0.boot ∧ (State.openFails a0 a1 a2 a3).free = a0.free := by
  unfold State.openFails; (repeat' split) <;> simp
@[simp] theorem State.stkRan_same (a0 : State) (a1 : StkCmd) (a2 : Nat) :
    (State.stkRan a0 a1 a2).pending = a0.pending ∧ (State.stkRan a0 a1 a2).clk = a0.clk ∧ (State.stkRan a0 a1 a2).cores = a0.cores ∧
      (State.stkRan a0 a1 a2).net = a0.net ∧ (State.stkRan a0 a1 a2).vats = a0.vats ∧ (State.stkRan a0 a1 a2).hub = a0.hub ∧
      (State.stkRan a0 a1 a2).span = a0.span ∧ (State.stkRan a0 a1 a2).host = a0.host ∧ (State.stkRan a0 a1 a2).pwr = a0.pwr ∧
      (State.stkRan a0 a1 a2).boot = a0.boot ∧ (State.stkRan a0 a1 a2).out = a0.out ∧ (State.stkRan a0 a1 a2).free = a0.free := by
  unfold State.stkRan; (repeat' split) <;> simp
@[simp] theorem State.optDone_same (a0 : State) (a1 : StkCmd) :
    (State.optDone a0 a1).pending = a0.pending ∧ (State.optDone a0 a1).clk = a0.clk ∧ (State.optDone a0 a1).cores = a0.cores ∧
      (State.optDone a0 a1).net = a0.net ∧ (State.optDone a0 a1).vats = a0.vats ∧ (State.optDone a0 a1).hub = a0.hub ∧
      (State.optDone a0 a1).span = a0.span ∧ (State.optDone a0 a1).host = a0.host ∧ (State.optDone a0 a1).pwr = a0.pwr ∧
      (State.optDone a0 a1).boot = a0.boot ∧ (State.optDone a0 a1).out = a0.out ∧ (State.optDone a0 a1).free = a0.free := by
  unfold State.optDone; (repeat' split) <;> simp
@[simp] theorem State.orStk_same (a0 : State) (a1 : Nat) (a2 : BitVec 8) :
    (State.orStk a0 a1 a2).pending = a0.pending ∧ (State.orStk a0 a1 a2).clk = a0.clk ∧ (State.orStk a0 a1 a2).cores = a0.cores ∧
      (State.orStk a0 a1 a2).net = a0.net ∧ (State.orStk a0 a1 a2).mem = a0.mem ∧ (State.orStk a0 a1 a2).hub = a0.hub ∧
      (State.orStk a0 a1 a2).span = a0.span ∧ (State.orStk a0 a1 a2).host = a0.host ∧ (State.orStk a0 a1 a2).pwr = a0.pwr ∧
      (State.orStk a0 a1 a2).boot = a0.boot ∧ (State.orStk a0 a1 a2).out = a0.out ∧ (State.orStk a0 a1 a2).free = a0.free := by
  unfold State.orStk; (repeat' split) <;> simp
@[simp] theorem State.optWrite_same (a0 : State) (a1 : Nat) (a2 : StkCmd) (a3 : Bool) (a4 : Bool) (a5 : List (Option OptElem)) :
    (State.optWrite a0 a1 a2 a3 a4 a5).pending = a0.pending ∧ (State.optWrite a0 a1 a2 a3 a4 a5).clk = a0.clk ∧
      (State.optWrite a0 a1 a2 a3 a4 a5).net = a0.net ∧ (State.optWrite a0 a1 a2 a3 a4 a5).host = a0.host ∧
      (State.optWrite a0 a1 a2 a3 a4 a5).boot = a0.boot ∧ (State.optWrite a0 a1 a2 a3 a4 a5).free = a0.free := by
  unfold State.optWrite; (repeat' split) <;> simp
@[simp] theorem State.pageEntry_same (a0 : State) (a1 : Nat) (a2 : Nat) (a3 : Nat) (a4 : Nat) (a5 : Nat) (a6 : Bool) :
    (State.pageEntry a0 a1 a2 a3 a4 a5 a6).pending = a0.pending ∧ (State.pageEntry a0 a1 a2 a3 a4 a5 a6).clk = a0.clk ∧
      (State.pageEntry a0 a1 a2 a3 a4 a5 a6).vats = a0.vats ∧ (State.pageEntry a0 a1 a2 a3 a4 a5 a6).mem = a0.mem ∧
      (State.pageEntry a0 a1 a2 a3 a4 a5 a6).span = a0.span ∧ (State.pageEntry a0 a1 a2 a3 a4 a5 a6).host = a0.host ∧
      (State.pageEntry a0 a1 a2 a3 a4 a5 a6).boot = a0.boot ∧ (State.pageEntry a0 a1 a2 a3 a4 a5 a6).free = a0.free := by
  unfold State.pageEntry; (repeat' split) <;> simp
@[simp] theorem State.pairDone_same (a0 : State) :
    (State.pairDone a0).pending = a0.pending ∧ (State.pairDone a0).clk = a0.clk ∧ (State.pairDone a0).cores = a0.cores ∧
      (State.pairDone a0).net = a0.net ∧ (State.pairDone a0).vats = a0.vats ∧ (State.pairDone a0).mem = a0.mem ∧ (State.pairDone a0).hub = a0.hub ∧
      (State.pairDone a0).pwr = a0.pwr ∧ (State.pairDone a0).boot = a0.boot ∧ (State.pairDone a0).out = a0.out ∧ (State.pairDone a0).free = a0.free := by
  unfold State.pairDone; (repeat' split) <;> simp
@[simp] theorem State.pairFail_same (a0 : State) (a1 : Nat) :
    (State.pairFail a0 a1).pending = a0.pending ∧ (State.pairFail a0 a1).clk = a0.clk ∧ (State.pairFail a0 a1).cores = a0.cores ∧
      (State.pairFail a0 a1).net = a0.net ∧ (State.pairFail a0 a1).vats = a0.vats ∧ (State.pairFail a0 a1).mem = a0.mem ∧
      (State.pairFail a0 a1).hub = a0.hub ∧ (State.pairFail a0 a1).pwr = a0.pwr ∧ (State.pairFail a0 a1).boot = a0.boot ∧
      (State.pairFail a0 a1).out = a0.out ∧ (State.pairFail a0 a1).free = a0.free := by
  unfold State.pairFail; (repeat' split) <;> simp
@[simp] theorem State.spillOut_same (a0 : State) (a1 : Nat) (a2 : Nat) (a3 : List Byte) (a4 : NSet) (a5 : Nat) (a6 : Nat) (a7 : Bool) :
    (State.spillOut a0 a1 a2 a3 a4 a5 a6 a7).pending = a0.pending ∧ (State.spillOut a0 a1 a2 a3 a4 a5 a6 a7).clk = a0.clk ∧
      (State.spillOut a0 a1 a2 a3 a4 a5 a6 a7).net = a0.net ∧ (State.spillOut a0 a1 a2 a3 a4 a5 a6 a7).mem = a0.mem ∧
      (State.spillOut a0 a1 a2 a3 a4 a5 a6 a7).span = a0.span ∧ (State.spillOut a0 a1 a2 a3 a4 a5 a6 a7).host = a0.host ∧
      (State.spillOut a0 a1 a2 a3 a4 a5 a6 a7).boot = a0.boot ∧ (State.spillOut a0 a1 a2 a3 a4 a5 a6 a7).free = a0.free := by
  unfold State.spillOut; (repeat' split) <;> simp
@[simp] theorem State.toSender_same (a0 : State) (a1 : Nat) (a2 : Nat) (a3 : Nat) :
    (State.toSender a0 a1 a2 a3).pending = a0.pending ∧ (State.toSender a0 a1 a2 a3).clk = a0.clk ∧ (State.toSender a0 a1 a2 a3).cores = a0.cores ∧
      (State.toSender a0 a1 a2 a3).net = a0.net ∧ (State.toSender a0 a1 a2 a3).vats = a0.vats ∧ (State.toSender a0 a1 a2 a3).mem = a0.mem ∧
      (State.toSender a0 a1 a2 a3).host = a0.host ∧ (State.toSender a0 a1 a2 a3).boot = a0.boot ∧ (State.toSender a0 a1 a2 a3).free = a0.free := by
  unfold State.toSender; (repeat' split) <;> simp
@[simp] theorem State.place_same (a0 : State) (a1 : Nat) (a2 : Nat) (a3 : ChMsg) (a4 : List Byte) (a5 : NSet) :
    (State.place a0 a1 a2 a3 a4 a5).pending = a0.pending ∧ (State.place a0 a1 a2 a3 a4 a5).clk = a0.clk ∧
      (State.place a0 a1 a2 a3 a4 a5).mem = a0.mem ∧ (State.place a0 a1 a2 a3 a4 a5).host = a0.host ∧
      (State.place a0 a1 a2 a3 a4 a5).boot = a0.boot ∧ (State.place a0 a1 a2 a3 a4 a5).free = a0.free := by
  unfold State.place; (repeat' split) <;> simp
@[simp] theorem State.putAdv_same (a0 : State) (a1 : Nat) :
    (State.putAdv a0 a1).pending = a0.pending ∧ (State.putAdv a0 a1).clk = a0.clk ∧ (State.putAdv a0 a1).cores = a0.cores ∧
      (State.putAdv a0 a1).net = a0.net ∧ (State.putAdv a0 a1).host = a0.host ∧ (State.putAdv a0 a1).boot = a0.boot ∧
      (State.putAdv a0 a1).free = a0.free := by
  unfold State.putAdv; (repeat' split) <;> simp
@[simp] theorem State.putCopy_same (a0 : State) (a1 : CopyJob) :
    (State.putCopy a0 a1).pending = a0.pending ∧ (State.putCopy a0 a1).clk = a0.clk ∧ (State.putCopy a0 a1).cores = a0.cores ∧
      (State.putCopy a0 a1).net = a0.net ∧ (State.putCopy a0 a1).vats = a0.vats ∧ (State.putCopy a0 a1).mem = a0.mem ∧
      (State.putCopy a0 a1).hub = a0.hub ∧ (State.putCopy a0 a1).span = a0.span ∧ (State.putCopy a0 a1).pwr = a0.pwr ∧
      (State.putCopy a0 a1).boot = a0.boot ∧ (State.putCopy a0 a1).out = a0.out ∧ (State.putCopy a0 a1).free = a0.free := by
  unfold State.putCopy; (repeat' split) <;> simp
@[simp] theorem State.putCounters_same (a0 : State) (a1 : List (List Byte)) :
    (State.putCounters a0 a1).pending = a0.pending ∧ (State.putCounters a0 a1).clk = a0.clk ∧ (State.putCounters a0 a1).vats = a0.vats ∧
      (State.putCounters a0 a1).mem = a0.mem ∧ (State.putCounters a0 a1).span = a0.span ∧ (State.putCounters a0 a1).host = a0.host ∧
      (State.putCounters a0 a1).boot = a0.boot ∧ (State.putCounters a0 a1).free = a0.free := by
  unfold State.putCounters; (repeat' split) <;> simp
@[simp] theorem State.putTree_same (a0 : State) (a1 : Nat) (a2 : Nat) (a3 : Table Nat) :
    (State.putTree a0 a1 a2 a3).pending = a0.pending ∧ (State.putTree a0 a1 a2 a3).clk = a0.clk ∧ (State.putTree a0 a1 a2 a3).cores = a0.cores ∧
      (State.putTree a0 a1 a2 a3).vats = a0.vats ∧ (State.putTree a0 a1 a2 a3).mem = a0.mem ∧ (State.putTree a0 a1 a2 a3).hub = a0.hub ∧
      (State.putTree a0 a1 a2 a3).span = a0.span ∧ (State.putTree a0 a1 a2 a3).host = a0.host ∧ (State.putTree a0 a1 a2 a3).pwr = a0.pwr ∧
      (State.putTree a0 a1 a2 a3).boot = a0.boot ∧ (State.putTree a0 a1 a2 a3).out = a0.out ∧ (State.putTree a0 a1 a2 a3).free = a0.free := by
  unfold State.putTree; (repeat' split) <;> simp
@[simp] theorem State.putFrame_same (a0 : State) (a1 : Nat) (a2 : List Byte) (a3 : NSet) :
    (State.putFrame a0 a1 a2 a3).pending = a0.pending ∧ (State.putFrame a0 a1 a2 a3).clk = a0.clk ∧ (State.putFrame a0 a1 a2 a3).mem = a0.mem ∧
      (State.putFrame a0 a1 a2 a3).hub = a0.hub ∧ (State.putFrame a0 a1 a2 a3).span = a0.span ∧ (State.putFrame a0 a1 a2 a3).host = a0.host ∧
      (State.putFrame a0 a1 a2 a3).pwr = a0.pwr ∧ (State.putFrame a0 a1 a2 a3).boot = a0.boot ∧ (State.putFrame a0 a1 a2 a3).out = a0.out ∧
      (State.putFrame a0 a1 a2 a3).free = a0.free := by
  unfold State.putFrame; dsimp only; (repeat' (split <;> try dsimp only)) <;> simp_all
@[simp] theorem State.putSlot_same (a0 : State) (a1 : Nat) (a2 : Nat) :
    (State.putSlot a0 a1 a2).pending = a0.pending ∧ (State.putSlot a0 a1 a2).clk = a0.clk ∧ (State.putSlot a0 a1 a2).cores = a0.cores ∧
      (State.putSlot a0 a1 a2).net = a0.net ∧ (State.putSlot a0 a1 a2).host = a0.host ∧ (State.putSlot a0 a1 a2).boot = a0.boot := by
  unfold State.putSlot; (repeat' split) <;> simp
@[simp] theorem State.qDrop_same (a0 : State) (a1 : Nat) (a2 : Nat) :
    (State.qDrop a0 a1 a2).pending = a0.pending ∧ (State.qDrop a0 a1 a2).clk = a0.clk ∧ (State.qDrop a0 a1 a2).net = a0.net ∧
      (State.qDrop a0 a1 a2).vats = a0.vats ∧ (State.qDrop a0 a1 a2).mem = a0.mem ∧ (State.qDrop a0 a1 a2).hub = a0.hub ∧
      (State.qDrop a0 a1 a2).span = a0.span ∧ (State.qDrop a0 a1 a2).host = a0.host ∧ (State.qDrop a0 a1 a2).pwr = a0.pwr ∧
      (State.qDrop a0 a1 a2).boot = a0.boot ∧ (State.qDrop a0 a1 a2).out = a0.out ∧ (State.qDrop a0 a1 a2).free = a0.free := by
  unfold State.qDrop; (repeat' split) <;> simp
@[simp] theorem State.qRetry_same (a0 : State) (a1 : Nat) (a2 : Nat) :
    (State.qRetry a0 a1 a2).pending = a0.pending ∧ (State.qRetry a0 a1 a2).clk = a0.clk ∧ (State.qRetry a0 a1 a2).net = a0.net ∧
      (State.qRetry a0 a1 a2).vats = a0.vats ∧ (State.qRetry a0 a1 a2).mem = a0.mem ∧ (State.qRetry a0 a1 a2).hub = a0.hub ∧
      (State.qRetry a0 a1 a2).span = a0.span ∧ (State.qRetry a0 a1 a2).host = a0.host ∧ (State.qRetry a0 a1 a2).pwr = a0.pwr ∧
      (State.qRetry a0 a1 a2).boot = a0.boot ∧ (State.qRetry a0 a1 a2).out = a0.out ∧ (State.qRetry a0 a1 a2).free = a0.free := by
  unfold State.qRetry; (repeat' split) <;> simp
@[simp] theorem State.qctlWrite_same (a0 : State) (a1 : Nat) (a2 : Nat) :
    (State.qctlWrite a0 a1 a2).pending = a0.pending ∧ (State.qctlWrite a0 a1 a2).clk = a0.clk ∧ (State.qctlWrite a0 a1 a2).net = a0.net ∧
      (State.qctlWrite a0 a1 a2).vats = a0.vats ∧ (State.qctlWrite a0 a1 a2).mem = a0.mem ∧ (State.qctlWrite a0 a1 a2).hub = a0.hub ∧
      (State.qctlWrite a0 a1 a2).span = a0.span ∧ (State.qctlWrite a0 a1 a2).host = a0.host ∧ (State.qctlWrite a0 a1 a2).pwr = a0.pwr ∧
      (State.qctlWrite a0 a1 a2).boot = a0.boot ∧ (State.qctlWrite a0 a1 a2).out = a0.out ∧ (State.qctlWrite a0 a1 a2).free = a0.free := by
  unfold State.qctlWrite; (repeat' split) <;> simp
@[simp] theorem State.readList_same (a0 : State) (a1 : Nat) (a2 : Nat) (a3 : Nat) :
    (State.readList a0 a1 a2 a3).pending = a0.pending ∧ (State.readList a0 a1 a2 a3).clk = a0.clk ∧ (State.readList a0 a1 a2 a3).cores = a0.cores ∧
      (State.readList a0 a1 a2 a3).net = a0.net ∧ (State.readList a0 a1 a2 a3).span = a0.span ∧ (State.readList a0 a1 a2 a3).host = a0.host ∧
      (State.readList a0 a1 a2 a3).boot = a0.boot ∧ (State.readList a0 a1 a2 a3).free = a0.free := by
  unfold State.readList; (repeat' split) <;> simp
@[simp] theorem State.readOpnds_same (a0 : State) (a1 : Nat) (a2 : Nat → Nat) (a3 : List Opnd) :
    (State.readOpnds a0 a1 a2 a3).pending = a0.pending ∧ (State.readOpnds a0 a1 a2 a3).clk = a0.clk ∧
      (State.readOpnds a0 a1 a2 a3).cores = a0.cores ∧ (State.readOpnds a0 a1 a2 a3).net = a0.net ∧ (State.readOpnds a0 a1 a2 a3).span = a0.span ∧
      (State.readOpnds a0 a1 a2 a3).host = a0.host ∧ (State.readOpnds a0 a1 a2 a3).boot = a0.boot ∧ (State.readOpnds a0 a1 a2 a3).free = a0.free := by
  unfold State.readOpnds; (repeat' split) <;> simp
@[simp] theorem State.refuseDev_same (a0 : State) (a1 : Nat) (a2 : Caller) (a3 : Nat) :
    (State.refuseDev a0 a1 a2 a3).pending = a0.pending ∧ (State.refuseDev a0 a1 a2 a3).clk = a0.clk ∧
      (State.refuseDev a0 a1 a2 a3).cores = a0.cores ∧ (State.refuseDev a0 a1 a2 a3).net = a0.net ∧ (State.refuseDev a0 a1 a2 a3).vats = a0.vats ∧
      (State.refuseDev a0 a1 a2 a3).mem = a0.mem ∧ (State.refuseDev a0 a1 a2 a3).span = a0.span ∧ (State.refuseDev a0 a1 a2 a3).boot = a0.boot ∧
      (State.refuseDev a0 a1 a2 a3).free = a0.free := by
  unfold State.refuseDev; (repeat' split) <;> simp
@[simp] theorem State.register_same (a0 : State) (a1 : Watch) :
    (State.register a0 a1).pending = a0.pending ∧ (State.register a0 a1).clk = a0.clk ∧ (State.register a0 a1).vats = a0.vats ∧
      (State.register a0 a1).mem = a0.mem ∧ (State.register a0 a1).span = a0.span ∧ (State.register a0 a1).host = a0.host ∧
      (State.register a0 a1).boot = a0.boot ∧ (State.register a0 a1).free = a0.free := by
  unfold State.register; (repeat' split) <;> simp
@[simp] theorem State.remoteRead_same (a0 : State) (a1 : Nat) (a2 : Nat) (a3 : Nat) :
    (State.remoteRead a0 a1 a2 a3).1.pending = a0.pending ∧ (State.remoteRead a0 a1 a2 a3).1.clk = a0.clk ∧
      (State.remoteRead a0 a1 a2 a3).1.net = a0.net ∧ (State.remoteRead a0 a1 a2 a3).1.span = a0.span ∧
      (State.remoteRead a0 a1 a2 a3).1.host = a0.host ∧ (State.remoteRead a0 a1 a2 a3).1.boot = a0.boot ∧
      (State.remoteRead a0 a1 a2 a3).1.free = a0.free := by
  unfold State.remoteRead; (repeat' split) <;> simp
@[simp] theorem State.remoteWrite_same (a0 : State) (a1 : Nat) (a2 : Nat) (a3 : List Byte) (a4 : Nat → Bool) :
    (State.remoteWrite a0 a1 a2 a3 a4).pending = a0.pending ∧ (State.remoteWrite a0 a1 a2 a3 a4).clk = a0.clk ∧
      (State.remoteWrite a0 a1 a2 a3 a4).net = a0.net ∧ (State.remoteWrite a0 a1 a2 a3 a4).host = a0.host ∧
      (State.remoteWrite a0 a1 a2 a3 a4).boot = a0.boot ∧ (State.remoteWrite a0 a1 a2 a3 a4).free = a0.free := by
  unfold State.remoteWrite; (repeat' split) <;> simp
@[simp] theorem State.restoreCore_same (a0 : State) (a1 : Nat) (a2 : CoreSnap) (a3 : Nat) :
    (State.restoreCore a0 a1 a2 a3).pending = a0.pending ∧ (State.restoreCore a0 a1 a2 a3).clk = a0.clk ∧
      (State.restoreCore a0 a1 a2 a3).net = a0.net ∧ (State.restoreCore a0 a1 a2 a3).vats = a0.vats ∧
      (State.restoreCore a0 a1 a2 a3).mem = a0.mem ∧ (State.restoreCore a0 a1 a2 a3).hub = a0.hub ∧
      (State.restoreCore a0 a1 a2 a3).span = a0.span ∧ (State.restoreCore a0 a1 a2 a3).host = a0.host ∧
      (State.restoreCore a0 a1 a2 a3).pwr = a0.pwr ∧ (State.restoreCore a0 a1 a2 a3).boot = a0.boot ∧
      (State.restoreCore a0 a1 a2 a3).out = a0.out ∧ (State.restoreCore a0 a1 a2 a3).free = a0.free := by
  unfold State.restoreCore; (repeat' split) <;> simp
@[simp] theorem State.restoreRoute_same (a0 : Nat) (a1 : State) (a2 : Prod Nat (Prod Nat (List Byte))) :
    (State.restoreRoute a0 a1 a2).pending = a1.pending ∧ (State.restoreRoute a0 a1 a2).clk = a1.clk ∧
      (State.restoreRoute a0 a1 a2).cores = a1.cores ∧ (State.restoreRoute a0 a1 a2).vats = a1.vats ∧ (State.restoreRoute a0 a1 a2).mem = a1.mem ∧
      (State.restoreRoute a0 a1 a2).hub = a1.hub ∧ (State.restoreRoute a0 a1 a2).span = a1.span ∧ (State.restoreRoute a0 a1 a2).host = a1.host ∧
      (State.restoreRoute a0 a1 a2).pwr = a1.pwr ∧ (State.restoreRoute a0 a1 a2).boot = a1.boot ∧ (State.restoreRoute a0 a1 a2).out = a1.out ∧
      (State.restoreRoute a0 a1 a2).free = a1.free := by
  unfold State.restoreRoute; (repeat' split) <;> simp
@[simp] theorem State.restoreScan_same (a0 : State) (a1 : Nat) (a2 : ScanSnap) :
    (State.restoreScan a0 a1 a2).pending = a0.pending ∧ (State.restoreScan a0 a1 a2).clk = a0.clk ∧ (State.restoreScan a0 a1 a2).span = a0.span ∧
      (State.restoreScan a0 a1 a2).host = a0.host ∧ (State.restoreScan a0 a1 a2).pwr = a0.pwr ∧ (State.restoreScan a0 a1 a2).boot = a0.boot ∧
      (State.restoreScan a0 a1 a2).out = a0.out ∧ (State.restoreScan a0 a1 a2).free = a0.free := by
  unfold State.restoreScan; (repeat' split) <;> simp
@[simp] theorem State.ringFetch_same (a0 : State) (a1 : Nat) :
    (State.ringFetch a0 a1).pending = a0.pending ∧ (State.ringFetch a0 a1).clk = a0.clk ∧ (State.ringFetch a0 a1).cores = a0.cores ∧
      (State.ringFetch a0 a1).net = a0.net ∧ (State.ringFetch a0 a1).vats = a0.vats ∧ (State.ringFetch a0 a1).mem = a0.mem ∧
      (State.ringFetch a0 a1).hub = a0.hub ∧ (State.ringFetch a0 a1).span = a0.span ∧ (State.ringFetch a0 a1).pwr = a0.pwr ∧
      (State.ringFetch a0 a1).boot = a0.boot ∧ (State.ringFetch a0 a1).free = a0.free := by
  unfold State.ringFetch; (repeat' split) <;> simp
@[simp] theorem State.transitRefuse_same (a0 : State) (a1 : Nat) (a2 : Frame) (a3 : Nat) :
    (State.transitRefuse a0 a1 a2 a3).pending = a0.pending ∧ (State.transitRefuse a0 a1 a2 a3).clk = a0.clk ∧
      (State.transitRefuse a0 a1 a2 a3).cores = a0.cores ∧ (State.transitRefuse a0 a1 a2 a3).net = a0.net ∧
      (State.transitRefuse a0 a1 a2 a3).vats = a0.vats ∧ (State.transitRefuse a0 a1 a2 a3).mem = a0.mem ∧
      (State.transitRefuse a0 a1 a2 a3).host = a0.host ∧ (State.transitRefuse a0 a1 a2 a3).boot = a0.boot ∧
      (State.transitRefuse a0 a1 a2 a3).free = a0.free := by
  unfold State.transitRefuse; (repeat' split) <;> simp
@[simp] theorem State.transit_same (a0 : State) (a1 : Nat) (a2 : Frame) :
    (State.transit a0 a1 a2).pending = a0.pending ∧ (State.transit a0 a1 a2).clk = a0.clk ∧ (State.transit a0 a1 a2).cores = a0.cores ∧
      (State.transit a0 a1 a2).net = a0.net ∧ (State.transit a0 a1 a2).vats = a0.vats ∧ (State.transit a0 a1 a2).mem = a0.mem ∧
      (State.transit a0 a1 a2).host = a0.host ∧ (State.transit a0 a1 a2).boot = a0.boot ∧ (State.transit a0 a1 a2).free = a0.free := by
  unfold State.transit; (repeat' split) <;> simp

end Sys2Proof.Machine
end

