-- ==== Sys2Proof/Laws/Frame6.lean ====
section
/-! SUPPORT. What each shared operation leaves as it is, part 6: the fields of State that it never changes. -/

namespace Sys2Proof.Machine

@[simp] theorem State.rxFrame_same (a0 : State) (a1 : Nat) (a2 : Bool) (a3 : List Byte) :
    (State.rxFrame a0 a1 a2 a3).pending = a0.pending ∧ (State.rxFrame a0 a1 a2 a3).clk = a0.clk ∧ (State.rxFrame a0 a1 a2 a3).cores = a0.cores ∧
      (State.rxFrame a0 a1 a2 a3).net = a0.net ∧ (State.rxFrame a0 a1 a2 a3).vats = a0.vats ∧ (State.rxFrame a0 a1 a2 a3).mem = a0.mem ∧
      (State.rxFrame a0 a1 a2 a3).host = a0.host ∧ (State.rxFrame a0 a1 a2 a3).boot = a0.boot ∧ (State.rxFrame a0 a1 a2 a3).free = a0.free := by
  unfold State.rxFrame; (repeat' split) <;> simp
@[simp] theorem State.rxCell_same (a0 : State) (a1 : Nat) (a2 : Bool) (a3 : List Byte) :
    (State.rxCell a0 a1 a2 a3).pending = a0.pending ∧ (State.rxCell a0 a1 a2 a3).clk = a0.clk ∧ (State.rxCell a0 a1 a2 a3).cores = a0.cores ∧
      (State.rxCell a0 a1 a2 a3).net = a0.net ∧ (State.rxCell a0 a1 a2 a3).vats = a0.vats ∧ (State.rxCell a0 a1 a2 a3).mem = a0.mem ∧
      (State.rxCell a0 a1 a2 a3).host = a0.host ∧ (State.rxCell a0 a1 a2 a3).boot = a0.boot ∧ (State.rxCell a0 a1 a2 a3).free = a0.free := by
  unfold State.rxCell; (repeat' split) <;> simp
@[simp] theorem State.rxFlits_same (a0 : State) (a1 : Nat) (a2 : Pair) :
    (State.rxFlits a0 a1 a2).pending = a0.pending ∧ (State.rxFlits a0 a1 a2).clk = a0.clk ∧ (State.rxFlits a0 a1 a2).cores = a0.cores ∧
      (State.rxFlits a0 a1 a2).net = a0.net ∧ (State.rxFlits a0 a1 a2).vats = a0.vats ∧ (State.rxFlits a0 a1 a2).mem = a0.mem ∧
      (State.rxFlits a0 a1 a2).host = a0.host ∧ (State.rxFlits a0 a1 a2).boot = a0.boot ∧ (State.rxFlits a0 a1 a2).free = a0.free := by
  unfold State.rxFlits; (repeat' split) <;> simp
@[simp] theorem State.sagCount_same (a0 : State) (a1 : Nat) :
    (State.sagCount a0 a1).pending = a0.pending ∧ (State.sagCount a0 a1).clk = a0.clk ∧ (State.sagCount a0 a1).cores = a0.cores ∧
      (State.sagCount a0 a1).net = a0.net ∧ (State.sagCount a0 a1).vats = a0.vats ∧ (State.sagCount a0 a1).mem = a0.mem ∧
      (State.sagCount a0 a1).span = a0.span ∧ (State.sagCount a0 a1).host = a0.host ∧ (State.sagCount a0 a1).boot = a0.boot ∧
      (State.sagCount a0 a1).free = a0.free := by
  unfold State.sagCount; (repeat' split) <;> simp
@[simp] theorem State.scrubRead_same (a0 : State) (a1 : Nat) :
    (State.scrubRead a0 a1).pending = a0.pending ∧ (State.scrubRead a0 a1).clk = a0.clk ∧ (State.scrubRead a0 a1).cores = a0.cores ∧
      (State.scrubRead a0 a1).net = a0.net ∧ (State.scrubRead a0 a1).span = a0.span ∧ (State.scrubRead a0 a1).host = a0.host ∧
      (State.scrubRead a0 a1).boot = a0.boot ∧ (State.scrubRead a0 a1).free = a0.free := by
  unfold State.scrubRead; (repeat' split) <;> simp
@[simp] theorem State.scrubRewrite_same (a0 : State) (a1 : Nat) :
    (State.scrubRewrite a0 a1).pending = a0.pending ∧ (State.scrubRewrite a0 a1).clk = a0.clk ∧ (State.scrubRewrite a0 a1).cores = a0.cores ∧
      (State.scrubRewrite a0 a1).net = a0.net ∧ (State.scrubRewrite a0 a1).vats = a0.vats ∧ (State.scrubRewrite a0 a1).hub = a0.hub ∧
      (State.scrubRewrite a0 a1).span = a0.span ∧ (State.scrubRewrite a0 a1).host = a0.host ∧ (State.scrubRewrite a0 a1).pwr = a0.pwr ∧
      (State.scrubRewrite a0 a1).boot = a0.boot ∧ (State.scrubRewrite a0 a1).out = a0.out ∧ (State.scrubRewrite a0 a1).free = a0.free := by
  unfold State.scrubRewrite; (repeat' split) <;> simp
@[simp] theorem State.seFlush_same (a0 : State) (a1 : Nat) (a2 : Nat) :
    (State.seFlush a0 a1 a2).pending = a0.pending ∧ (State.seFlush a0 a1 a2).clk = a0.clk ∧ (State.seFlush a0 a1 a2).net = a0.net ∧
      (State.seFlush a0 a1 a2).vats = a0.vats ∧ (State.seFlush a0 a1 a2).mem = a0.mem ∧ (State.seFlush a0 a1 a2).host = a0.host ∧
      (State.seFlush a0 a1 a2).boot = a0.boot ∧ (State.seFlush a0 a1 a2).free = a0.free := by
  unfold State.seFlush; (repeat' split) <;> simp
@[simp] theorem State.seReadValue_same (a0 : State) (a1 : Nat) (a2 : Nat) (a3 : SeReadKind) (a4 : Nat) (a5 : Nat) :
    (State.seReadValue a0 a1 a2 a3 a4 a5).pending = a0.pending ∧ (State.seReadValue a0 a1 a2 a3 a4 a5).clk = a0.clk ∧
      (State.seReadValue a0 a1 a2 a3 a4 a5).net = a0.net ∧ (State.seReadValue a0 a1 a2 a3 a4 a5).vats = a0.vats ∧
      (State.seReadValue a0 a1 a2 a3 a4 a5).mem = a0.mem ∧ (State.seReadValue a0 a1 a2 a3 a4 a5).host = a0.host ∧
      (State.seReadValue a0 a1 a2 a3 a4 a5).boot = a0.boot ∧ (State.seReadValue a0 a1 a2 a3 a4 a5).free = a0.free := by
  unfold State.seReadValue; (repeat' split) <;> simp
@[simp] theorem State.walkKeep_same (a0 : State) (a1 : Nat) (a2 : Nat) (a3 : Table Nat) (a4 : List Nat) :
    (State.walkKeep a0 a1 a2 a3 a4).pending = a0.pending ∧ (State.walkKeep a0 a1 a2 a3 a4).clk = a0.clk ∧
      (State.walkKeep a0 a1 a2 a3 a4).net = a0.net ∧ (State.walkKeep a0 a1 a2 a3 a4).mem = a0.mem ∧
      (State.walkKeep a0 a1 a2 a3 a4).span = a0.span ∧ (State.walkKeep a0 a1 a2 a3 a4).host = a0.host ∧
      (State.walkKeep a0 a1 a2 a3 a4).boot = a0.boot ∧ (State.walkKeep a0 a1 a2 a3 a4).free = a0.free := by
  unfold State.walkKeep; (repeat' split) <;> simp
@[simp] theorem State.seWalk_same (a0 : State) (a1 : Nat) (a2 : Nat) :
    (State.seWalk a0 a1 a2).pending = a0.pending ∧ (State.seWalk a0 a1 a2).clk = a0.clk ∧ (State.seWalk a0 a1 a2).mem = a0.mem ∧
      (State.seWalk a0 a1 a2).host = a0.host ∧ (State.seWalk a0 a1 a2).boot = a0.boot ∧ (State.seWalk a0 a1 a2).free = a0.free := by
  unfold State.seWalk; dsimp only; (repeat' (split <;> try dsimp only)) <;> simp_all
@[simp] theorem State.seInstr_same_pending (a0 : State) (a1 : Nat) (a2 : Nat) (a3 : Nat) (a4 : State → Nat → State)
      (h4 : ∀ u x, (a4 u x).pending = u.pending) :
    (State.seInstr a0 a1 a2 a3 a4).pending = a0.pending := by
  unfold State.seInstr; (repeat' split) <;> simp_all
@[simp] theorem State.seInstr_same_clk (a0 : State) (a1 : Nat) (a2 : Nat) (a3 : Nat) (a4 : State → Nat → State) (h4 : ∀ u x, (a4 u x).clk = u.clk) :
    (State.seInstr a0 a1 a2 a3 a4).clk = a0.clk := by
  unfold State.seInstr; (repeat' split) <;> simp_all
@[simp] theorem State.seInstr_same_mem (a0 : State) (a1 : Nat) (a2 : Nat) (a3 : Nat) (a4 : State → Nat → State) (h4 : ∀ u x, (a4 u x).mem = u.mem) :
    (State.seInstr a0 a1 a2 a3 a4).mem = a0.mem := by
  unfold State.seInstr; (repeat' split) <;> simp_all
@[simp] theorem State.seInstr_same_host (a0 : State) (a1 : Nat) (a2 : Nat) (a3 : Nat) (a4 : State → Nat → State)
      (h4 : ∀ u x, (a4 u x).host = u.host) :
    (State.seInstr a0 a1 a2 a3 a4).host = a0.host := by
  unfold State.seInstr; (repeat' split) <;> simp_all
@[simp] theorem State.seInstr_same_boot (a0 : State) (a1 : Nat) (a2 : Nat) (a3 : Nat) (a4 : State → Nat → State)
      (h4 : ∀ u x, (a4 u x).boot = u.boot) :
    (State.seInstr a0 a1 a2 a3 a4).boot = a0.boot := by
  unfold State.seInstr; (repeat' split) <;> simp_all
@[simp] theorem State.seInstr_same_free (a0 : State) (a1 : Nat) (a2 : Nat) (a3 : Nat) (a4 : State → Nat → State)
      (h4 : ∀ u x, (a4 u x).free = u.free) :
    (State.seInstr a0 a1 a2 a3 a4).free = a0.free := by
  unfold State.seInstr; (repeat' split) <;> simp_all
@[simp] theorem State.seAddr_same (a0 : State) (a1 : Nat) (a2 : Nat) (a3 : Nat) :
    (State.seAddr a0 a1 a2 a3).pending = a0.pending ∧ (State.seAddr a0 a1 a2 a3).clk = a0.clk ∧ (State.seAddr a0 a1 a2 a3).mem = a0.mem ∧
      (State.seAddr a0 a1 a2 a3).host = a0.host ∧ (State.seAddr a0 a1 a2 a3).boot = a0.boot ∧ (State.seAddr a0 a1 a2 a3).free = a0.free := by
  unfold State.seAddr; refine ⟨by first | (simp; done) | (apply State.seInstr_same_pending; intros; (first | (simp; done) | (dsimp only; (repeat' (split <;> try dsimp only)) <;> simp_all)); done) | ((repeat' split) <;> first | (simp; done) | (apply State.seInstr_same_pending; intros; (first | (simp; done) | (dsimp only; (repeat' (split <;> try dsimp only)) <;> simp_all)); done)), by first | (simp; done) | (apply State.seInstr_same_clk; intros; (first | (simp; done) | (dsimp only; (repeat' (split <;> try dsimp only)) <;> simp_all)); done) | ((repeat' split) <;> first | (simp; done) | (apply State.seInstr_same_clk; intros; (first | (simp; done) | (dsimp only; (repeat' (split <;> try dsimp only)) <;> simp_all)); done)), by first | (simp; done) | (apply State.seInstr_same_mem; intros; (first | (simp; done) | (dsimp only; (repeat' (split <;> try dsimp only)) <;> simp_all)); done) | ((repeat' split) <;> first | (simp; done) | (apply State.seInstr_same_mem; intros; (first | (simp; done) | (dsimp only; (repeat' (split <;> try dsimp only)) <;> simp_all)); done)), by first | (simp; done) | (apply State.seInstr_same_host; intros; (first | (simp; done) | (dsimp only; (repeat' (split <;> try dsimp only)) <;> simp_all)); done) | ((repeat' split) <;> first | (simp; done) | (apply State.seInstr_same_host; intros; (first | (simp; done) | (dsimp only; (repeat' (split <;> try dsimp only)) <;> simp_all)); done)), by first | (simp; done) | (apply State.seInstr_same_boot; intros; (first | (simp; done) | (dsimp only; (repeat' (split <;> try dsimp only)) <;> simp_all)); done) | ((repeat' split) <;> first | (simp; done) | (apply State.seInstr_same_boot; intros; (first | (simp; done) | (dsimp only; (repeat' (split <;> try dsimp only)) <;> simp_all)); done)), by first | (simp; done) | (apply State.seInstr_same_free; intros; (first | (simp; done) | (dsimp only; (repeat' (split <;> try dsimp only)) <;> simp_all)); done) | ((repeat' split) <;> first | (simp; done) | (apply State.seInstr_same_free; intros; (first | (simp; done) | (dsimp only; (repeat' (split <;> try dsimp only)) <;> simp_all)); done))⟩
@[simp] theorem State.seCommand_same (a0 : State) (a1 : Nat) (a2 : Nat) (a3 : Nat) (a4 : Nat) (a5 : List Byte) (a6 : NSet) :
    (State.seCommand a0 a1 a2 a3 a4 a5 a6).pending = a0.pending ∧ (State.seCommand a0 a1 a2 a3 a4 a5 a6).clk = a0.clk ∧
      (State.seCommand a0 a1 a2 a3 a4 a5 a6).cores = a0.cores ∧ (State.seCommand a0 a1 a2 a3 a4 a5 a6).net = a0.net ∧
      (State.seCommand a0 a1 a2 a3 a4 a5 a6).vats = a0.vats ∧ (State.seCommand a0 a1 a2 a3 a4 a5 a6).mem = a0.mem ∧
      (State.seCommand a0 a1 a2 a3 a4 a5 a6).hub = a0.hub ∧ (State.seCommand a0 a1 a2 a3 a4 a5 a6).span = a0.span ∧
      (State.seCommand a0 a1 a2 a3 a4 a5 a6).host = a0.host ∧ (State.seCommand a0 a1 a2 a3 a4 a5 a6).pwr = a0.pwr ∧
      (State.seCommand a0 a1 a2 a3 a4 a5 a6).boot = a0.boot ∧ (State.seCommand a0 a1 a2 a3 a4 a5 a6).free = a0.free := by
  unfold State.seCommand; (repeat' split) <;> simp
@[simp] theorem State.seDone_same (a0 : State) (a1 : Nat) (a2 : Nat) (a3 : Nat) :
    (State.seDone a0 a1 a2 a3).pending = a0.pending ∧ (State.seDone a0 a1 a2 a3).clk = a0.clk ∧ (State.seDone a0 a1 a2 a3).net = a0.net ∧
      (State.seDone a0 a1 a2 a3).vats = a0.vats ∧ (State.seDone a0 a1 a2 a3).mem = a0.mem ∧ (State.seDone a0 a1 a2 a3).hub = a0.hub ∧
      (State.seDone a0 a1 a2 a3).span = a0.span ∧ (State.seDone a0 a1 a2 a3).host = a0.host ∧ (State.seDone a0 a1 a2 a3).pwr = a0.pwr ∧
      (State.seDone a0 a1 a2 a3).boot = a0.boot ∧ (State.seDone a0 a1 a2 a3).out = a0.out ∧ (State.seDone a0 a1 a2 a3).free = a0.free := by
  unfold State.seDone; dsimp only; (repeat' (split <;> try dsimp only)) <;> simp_all
@[simp] theorem State.seFaultAt_same (a0 : State) (a1 : Nat) (a2 : Nat) (a3 : Nat) (a4 : Nat) (a5 : Nat) :
    (State.seFaultAt a0 a1 a2 a3 a4 a5).pending = a0.pending ∧ (State.seFaultAt a0 a1 a2 a3 a4 a5).clk = a0.clk ∧
      (State.seFaultAt a0 a1 a2 a3 a4 a5).vats = a0.vats ∧ (State.seFaultAt a0 a1 a2 a3 a4 a5).mem = a0.mem ∧
      (State.seFaultAt a0 a1 a2 a3 a4 a5).span = a0.span ∧ (State.seFaultAt a0 a1 a2 a3 a4 a5).host = a0.host ∧
      (State.seFaultAt a0 a1 a2 a3 a4 a5).boot = a0.boot ∧ (State.seFaultAt a0 a1 a2 a3 a4 a5).free = a0.free := by
  unfold State.seFaultAt; (repeat' split) <;> simp
@[simp] theorem State.seReadPiece_same (a0 : State) (a1 : Nat) (a2 : Nat) (a3 : Nat) (a4 : Nat) (a5 : Nat) (a6 : Nat) :
    (State.seReadPiece a0 a1 a2 a3 a4 a5 a6).pending = a0.pending ∧ (State.seReadPiece a0 a1 a2 a3 a4 a5 a6).clk = a0.clk ∧
      (State.seReadPiece a0 a1 a2 a3 a4 a5 a6).net = a0.net ∧ (State.seReadPiece a0 a1 a2 a3 a4 a5 a6).vats = a0.vats ∧
      (State.seReadPiece a0 a1 a2 a3 a4 a5 a6).mem = a0.mem ∧ (State.seReadPiece a0 a1 a2 a3 a4 a5 a6).host = a0.host ∧
      (State.seReadPiece a0 a1 a2 a3 a4 a5 a6).boot = a0.boot ∧ (State.seReadPiece a0 a1 a2 a3 a4 a5 a6).free = a0.free := by
  unfold State.seReadPiece; (repeat' split) <;> simp
@[simp] theorem State.sePiece_same (a0 : State) (a1 : Nat) (a2 : Nat) (a3 : SeMove) (a4 : Prod Nat Nat) :
    (State.sePiece a0 a1 a2 a3 a4).pending = a0.pending ∧ (State.sePiece a0 a1 a2 a3 a4).clk = a0.clk ∧
      (State.sePiece a0 a1 a2 a3 a4).net = a0.net ∧ (State.sePiece a0 a1 a2 a3 a4).mem = a0.mem ∧ (State.sePiece a0 a1 a2 a3 a4).host = a0.host ∧
      (State.sePiece a0 a1 a2 a3 a4).boot = a0.boot ∧ (State.sePiece a0 a1 a2 a3 a4).free = a0.free := by
  unfold State.sePiece; (repeat' split) <;> simp
@[simp] theorem State.seWrite_same (a0 : State) (a1 : Nat) (a2 : Nat) (a3 : SeMove) (a4 : Nat) (a5 : List Byte) (a6 : NSet) :
    (State.seWrite a0 a1 a2 a3 a4 a5 a6).pending = a0.pending ∧ (State.seWrite a0 a1 a2 a3 a4 a5 a6).clk = a0.clk ∧
      (State.seWrite a0 a1 a2 a3 a4 a5 a6).net = a0.net ∧ (State.seWrite a0 a1 a2 a3 a4 a5 a6).mem = a0.mem ∧
      (State.seWrite a0 a1 a2 a3 a4 a5 a6).host = a0.host ∧ (State.seWrite a0 a1 a2 a3 a4 a5 a6).boot = a0.boot ∧
      (State.seWrite a0 a1 a2 a3 a4 a5 a6).free = a0.free := by
  unfold State.seWrite; (repeat' split) <;> simp
@[simp] theorem State.seSend1_same (a0 : State) (a1 : Nat) (a2 : Nat) (a3 : SeMove) :
    (State.seSend1 a0 a1 a2 a3).1.pending = a0.pending ∧ (State.seSend1 a0 a1 a2 a3).1.clk = a0.clk ∧ (State.seSend1 a0 a1 a2 a3).1.net = a0.net ∧
      (State.seSend1 a0 a1 a2 a3).1.mem = a0.mem ∧ (State.seSend1 a0 a1 a2 a3).1.host = a0.host ∧ (State.seSend1 a0 a1 a2 a3).1.boot = a0.boot ∧
      (State.seSend1 a0 a1 a2 a3).1.free = a0.free := by
  unfold State.seSend1; (repeat' split) <;> simp
@[simp] theorem State.seSend_same (a0 : State) (a1 : Nat) (a2 : Nat) :
    (State.seSend a0 a1 a2).pending = a0.pending ∧ (State.seSend a0 a1 a2).clk = a0.clk ∧ (State.seSend a0 a1 a2).net = a0.net ∧
      (State.seSend a0 a1 a2).mem = a0.mem ∧ (State.seSend a0 a1 a2).host = a0.host ∧ (State.seSend a0 a1 a2).boot = a0.boot ∧
      (State.seSend a0 a1 a2).free = a0.free := by
  unfold State.seSend; (repeat' split) <;> simp
@[simp] theorem State.seStall_same (a0 : State) (a1 : Nat) (a2 : Nat) (a3 : Bool) :
    (State.seStall a0 a1 a2 a3).pending = a0.pending ∧ (State.seStall a0 a1 a2 a3).clk = a0.clk ∧ (State.seStall a0 a1 a2 a3).net = a0.net ∧
      (State.seStall a0 a1 a2 a3).mem = a0.mem ∧ (State.seStall a0 a1 a2 a3).span = a0.span ∧ (State.seStall a0 a1 a2 a3).host = a0.host ∧
      (State.seStall a0 a1 a2 a3).boot = a0.boot ∧ (State.seStall a0 a1 a2 a3).free = a0.free := by
  unfold State.seStall; (repeat' split) <;> simp
@[simp] theorem State.seRequestGo_same (a0 : Nat) (a1 : State) (a2 : Nat) (a3 : Nat) :
    (State.seRequestGo a0 a1 a2 a3).pending = a1.pending ∧ (State.seRequestGo a0 a1 a2 a3).clk = a1.clk ∧
      (State.seRequestGo a0 a1 a2 a3).net = a1.net ∧ (State.seRequestGo a0 a1 a2 a3).mem = a1.mem ∧
      (State.seRequestGo a0 a1 a2 a3).host = a1.host ∧ (State.seRequestGo a0 a1 a2 a3).boot = a1.boot ∧
      (State.seRequestGo a0 a1 a2 a3).free = a1.free := by
  induction a0 generalizing a1 with
  | zero => simp [State.seRequestGo]
  | succ n ih => unfold State.seRequestGo; (repeat' (split <;> try dsimp only)) <;> simp [ih]
@[simp] theorem State.seRequest_same (a0 : State) (a1 : Nat) (a2 : Nat) :
    (State.seRequest a0 a1 a2).pending = a0.pending ∧ (State.seRequest a0 a1 a2).clk = a0.clk ∧ (State.seRequest a0 a1 a2).net = a0.net ∧
      (State.seRequest a0 a1 a2).mem = a0.mem ∧ (State.seRequest a0 a1 a2).host = a0.host ∧ (State.seRequest a0 a1 a2).boot = a0.boot ∧
      (State.seRequest a0 a1 a2).free = a0.free := by
  unfold State.seRequest; (repeat' split) <;> simp
@[simp] theorem State.seMove_same (a0 : State) (a1 : Nat) (a2 : Nat) (a3 : SeMove) :
    (State.seMove a0 a1 a2 a3).pending = a0.pending ∧ (State.seMove a0 a1 a2 a3).clk = a0.clk ∧ (State.seMove a0 a1 a2 a3).net = a0.net ∧
      (State.seMove a0 a1 a2 a3).mem = a0.mem ∧ (State.seMove a0 a1 a2 a3).host = a0.host ∧ (State.seMove a0 a1 a2 a3).boot = a0.boot ∧
      (State.seMove a0 a1 a2 a3).free = a0.free := by
  unfold State.seMove; (repeat' split) <;> simp
@[simp] theorem State.sePast_same (a0 : State) (a1 : Nat) (a2 : Nat) :
    (State.sePast a0 a1 a2).pending = a0.pending ∧ (State.sePast a0 a1 a2).clk = a0.clk ∧ (State.sePast a0 a1 a2).net = a0.net ∧
      (State.sePast a0 a1 a2).vats = a0.vats ∧ (State.sePast a0 a1 a2).mem = a0.mem ∧ (State.sePast a0 a1 a2).hub = a0.hub ∧
      (State.sePast a0 a1 a2).span = a0.span ∧ (State.sePast a0 a1 a2).host = a0.host ∧ (State.sePast a0 a1 a2).pwr = a0.pwr ∧
      (State.sePast a0 a1 a2).boot = a0.boot ∧ (State.sePast a0 a1 a2).out = a0.out ∧ (State.sePast a0 a1 a2).free = a0.free := by
  unfold State.sePast; (repeat' split) <;> simp
@[simp] theorem State.subCtr_same (a0 : State) (a1 : Nat) (a2 : Nat) :
    (State.subCtr a0 a1 a2).1.pending = a0.pending ∧ (State.subCtr a0 a1 a2).1.clk = a0.clk ∧ (State.subCtr a0 a1 a2).1.cores = a0.cores ∧
      (State.subCtr a0 a1 a2).1.vats = a0.vats ∧ (State.subCtr a0 a1 a2).1.mem = a0.mem ∧ (State.subCtr a0 a1 a2).1.span = a0.span ∧
      (State.subCtr a0 a1 a2).1.host = a0.host ∧ (State.subCtr a0 a1 a2).1.boot = a0.boot ∧ (State.subCtr a0 a1 a2).1.free = a0.free := by
  unfold State.subCtr; (repeat' split) <;> simp
@[simp] theorem State.ssigSettle_same (a0 : Nat) (a1 : State) (a2 : Nat) (a3 : Nat) :
    (State.ssigSettle a0 a1 a2 a3).pending = a1.pending ∧ (State.ssigSettle a0 a1 a2 a3).clk = a1.clk ∧
      (State.ssigSettle a0 a1 a2 a3).mem = a1.mem ∧ (State.ssigSettle a0 a1 a2 a3).span = a1.span ∧ (State.ssigSettle a0 a1 a2 a3).host = a1.host ∧
      (State.ssigSettle a0 a1 a2 a3).boot = a1.boot ∧ (State.ssigSettle a0 a1 a2 a3).free = a1.free := by
  induction a0 generalizing a1 with
  | zero => simp [State.ssigSettle]
  | succ n ih => unfold State.ssigSettle; dsimp only; (repeat' (split <;> try dsimp only)) <;> simp_all
@[simp] theorem State.seSettle_same (a0 : State) (a1 : Nat) (a2 : Nat) :
    (State.seSettle a0 a1 a2).pending = a0.pending ∧ (State.seSettle a0 a1 a2).clk = a0.clk ∧ (State.seSettle a0 a1 a2).mem = a0.mem ∧
      (State.seSettle a0 a1 a2).span = a0.span ∧ (State.seSettle a0 a1 a2).host = a0.host ∧ (State.seSettle a0 a1 a2).boot = a0.boot ∧
      (State.seSettle a0 a1 a2).free = a0.free := by
  unfold State.seSettle; (repeat' split) <;> simp
@[simp] theorem State.sendCack_same (a0 : State) (a1 : Nat) (a2 : Nat) (a3 : Nat) :
    (State.sendCack a0 a1 a2 a3).pending = a0.pending ∧ (State.sendCack a0 a1 a2 a3).clk = a0.clk ∧ (State.sendCack a0 a1 a2 a3).cores = a0.cores ∧
      (State.sendCack a0 a1 a2 a3).net = a0.net ∧ (State.sendCack a0 a1 a2 a3).vats = a0.vats ∧ (State.sendCack a0 a1 a2 a3).mem = a0.mem ∧
      (State.sendCack a0 a1 a2 a3).hub = a0.hub ∧ (State.sendCack a0 a1 a2 a3).host = a0.host ∧ (State.sendCack a0 a1 a2 a3).pwr = a0.pwr ∧
      (State.sendCack a0 a1 a2 a3).boot = a0.boot ∧ (State.sendCack a0 a1 a2 a3).out = a0.out ∧ (State.sendCack a0 a1 a2 a3).free = a0.free := by
  unfold State.sendCack; (repeat' split) <;> simp
@[simp] theorem State.sendMack_same (a0 : State) (a1 : Nat) (a2 : Nat) :
    (State.sendMack a0 a1 a2).pending = a0.pending ∧ (State.sendMack a0 a1 a2).clk = a0.clk ∧ (State.sendMack a0 a1 a2).cores = a0.cores ∧
      (State.sendMack a0 a1 a2).net = a0.net ∧ (State.sendMack a0 a1 a2).vats = a0.vats ∧ (State.sendMack a0 a1 a2).mem = a0.mem ∧
      (State.sendMack a0 a1 a2).hub = a0.hub ∧ (State.sendMack a0 a1 a2).host = a0.host ∧ (State.sendMack a0 a1 a2).pwr = a0.pwr ∧
      (State.sendMack a0 a1 a2).boot = a0.boot ∧ (State.sendMack a0 a1 a2).out = a0.out ∧ (State.sendMack a0 a1 a2).free = a0.free := by
  unfold State.sendMack; (repeat' split) <;> simp
@[simp] theorem State.sendPackets_same (a0 : State) (a1 : Nat) (a2 : Nat) (a3 : Nat) :
    (State.sendPackets a0 a1 a2 a3).pending = a0.pending ∧ (State.sendPackets a0 a1 a2 a3).clk = a0.clk ∧
      (State.sendPackets a0 a1 a2 a3).net = a0.net ∧ (State.sendPackets a0 a1 a2 a3).mem = a0.mem ∧
      (State.sendPackets a0 a1 a2 a3).host = a0.host ∧ (State.sendPackets a0 a1 a2 a3).boot = a0.boot ∧
      (State.sendPackets a0 a1 a2 a3).free = a0.free := by
  unfold State.sendPackets; (repeat' split) <;> simp
@[simp] theorem State.sheetClear_same (a0 : State) (a1 : List Nat) :
    (State.sheetClear a0 a1).pending = a0.pending ∧ (State.sheetClear a0 a1).clk = a0.clk ∧ (State.sheetClear a0 a1).net = a0.net ∧
      (State.sheetClear a0 a1).vats = a0.vats ∧ (State.sheetClear a0 a1).mem = a0.mem ∧ (State.sheetClear a0 a1).hub = a0.hub ∧
      (State.sheetClear a0 a1).span = a0.span ∧ (State.sheetClear a0 a1).host = a0.host ∧ (State.sheetClear a0 a1).pwr = a0.pwr ∧
      (State.sheetClear a0 a1).boot = a0.boot ∧ (State.sheetClear a0 a1).out = a0.out ∧ (State.sheetClear a0 a1).free = a0.free := by
  unfold State.sheetClear; (repeat' split) <;> simp
@[simp] theorem State.sheetStart_same_pending (a0 : State) (a1 : State → Nat → State) (a2 : Nat) (h1 : ∀ u x, (a1 u x).pending = u.pending) :
    (State.sheetStart a0 a1 a2).pending = a0.pending := by
  unfold State.sheetStart; (repeat' split) <;> simp_all
@[simp] theorem State.sheetStart_same_clk (a0 : State) (a1 : State → Nat → State) (a2 : Nat) (h1 : ∀ u x, (a1 u x).clk = u.clk) :
    (State.sheetStart a0 a1 a2).clk = a0.clk := by
  unfold State.sheetStart; (repeat' split) <;> simp_all
@[simp] theorem State.sheetStart_same_net (a0 : State) (a1 : State → Nat → State) (a2 : Nat) (h1 : ∀ u x, (a1 u x).net = u.net) :
    (State.sheetStart a0 a1 a2).net = a0.net := by
  unfold State.sheetStart; (repeat' split) <;> simp_all
@[simp] theorem State.sheetStart_same_mem (a0 : State) (a1 : State → Nat → State) (a2 : Nat) (h1 : ∀ u x, (a1 u x).mem = u.mem) :
    (State.sheetStart a0 a1 a2).mem = a0.mem := by
  unfold State.sheetStart; (repeat' split) <;> simp_all
@[simp] theorem State.sheetStart_same_span (a0 : State) (a1 : State → Nat → State) (a2 : Nat) (h1 : ∀ u x, (a1 u x).span = u.span) :
    (State.sheetStart a0 a1 a2).span = a0.span := by
  unfold State.sheetStart; (repeat' split) <;> simp_all
@[simp] theorem State.sheetStart_same_host (a0 : State) (a1 : State → Nat → State) (a2 : Nat) (h1 : ∀ u x, (a1 u x).host = u.host) :
    (State.sheetStart a0 a1 a2).host = a0.host := by
  unfold State.sheetStart; (repeat' split) <;> simp_all
@[simp] theorem State.sheetStart_same_boot (a0 : State) (a1 : State → Nat → State) (a2 : Nat) (h1 : ∀ u x, (a1 u x).boot = u.boot) :
    (State.sheetStart a0 a1 a2).boot = a0.boot := by
  unfold State.sheetStart; (repeat' split) <;> simp_all
@[simp] theorem State.sheetStart_same_free (a0 : State) (a1 : State → Nat → State) (a2 : Nat) (h1 : ∀ u x, (a1 u x).free = u.free) :
    (State.sheetStart a0 a1 a2).free = a0.free := by
  unfold State.sheetStart; (repeat' split) <;> simp_all
@[simp] theorem State.sp24Groups_same (a0 : State) (a1 : List F32) :
    (State.sp24Groups a0 a1).2.pending = a0.pending ∧ (State.sp24Groups a0 a1).2.clk = a0.clk ∧ (State.sp24Groups a0 a1).2.cores = a0.cores ∧
      (State.sp24Groups a0 a1).2.net = a0.net ∧ (State.sp24Groups a0 a1).2.vats = a0.vats ∧ (State.sp24Groups a0 a1).2.mem = a0.mem ∧
      (State.sp24Groups a0 a1).2.hub = a0.hub ∧ (State.sp24Groups a0 a1).2.span = a0.span ∧ (State.sp24Groups a0 a1).2.host = a0.host ∧
      (State.sp24Groups a0 a1).2.pwr = a0.pwr ∧ (State.sp24Groups a0 a1).2.boot = a0.boot ∧ (State.sp24Groups a0 a1).2.out = a0.out := by
  unfold State.sp24Groups; simp
@[simp] theorem State.srInstr_same_pending (a0 : State) (a1 : BitVec 8) (a2 : Nat) (a3 : Guard) (a4 : Reg) (a5 : Reg) (a6 : BitVec 10)
      (a7 : Ctl → State) (h7 : ∀ k, (a7 k).pending = a0.pending) :
    (State.srInstr a0 a1 a2 a3 a4 a5 a6 a7).pending = a0.pending := by
  unfold State.srInstr; (repeat' split) <;> simp_all
@[simp] theorem State.srInstr_same_clk (a0 : State) (a1 : BitVec 8) (a2 : Nat) (a3 : Guard) (a4 : Reg) (a5 : Reg) (a6 : BitVec 10)
      (a7 : Ctl → State) (h7 : ∀ k, (a7 k).clk = a0.clk) :
    (State.srInstr a0 a1 a2 a3 a4 a5 a6 a7).clk = a0.clk := by
  unfold State.srInstr; (repeat' split) <;> simp_all
@[simp] theorem State.srInstr_same_mem (a0 : State) (a1 : BitVec 8) (a2 : Nat) (a3 : Guard) (a4 : Reg) (a5 : Reg) (a6 : BitVec 10)
      (a7 : Ctl → State) (h7 : ∀ k, (a7 k).mem = a0.mem) :
    (State.srInstr a0 a1 a2 a3 a4 a5 a6 a7).mem = a0.mem := by
  unfold State.srInstr; (repeat' split) <;> simp_all
@[simp] theorem State.srInstr_same_span (a0 : State) (a1 : BitVec 8) (a2 : Nat) (a3 : Guard) (a4 : Reg) (a5 : Reg) (a6 : BitVec 10)
      (a7 : Ctl → State) (h7 : ∀ k, (a7 k).span = a0.span) :
    (State.srInstr a0 a1 a2 a3 a4 a5 a6 a7).span = a0.span := by
  unfold State.srInstr; (repeat' split) <;> simp_all
@[simp] theorem State.srInstr_same_host (a0 : State) (a1 : BitVec 8) (a2 : Nat) (a3 : Guard) (a4 : Reg) (a5 : Reg) (a6 : BitVec 10)
      (a7 : Ctl → State) (h7 : ∀ k, (a7 k).host = a0.host) :
    (State.srInstr a0 a1 a2 a3 a4 a5 a6 a7).host = a0.host := by
  unfold State.srInstr; (repeat' split) <;> simp_all
@[simp] theorem State.srInstr_same_boot (a0 : State) (a1 : BitVec 8) (a2 : Nat) (a3 : Guard) (a4 : Reg) (a5 : Reg) (a6 : BitVec 10)
      (a7 : Ctl → State) (h7 : ∀ k, (a7 k).boot = a0.boot) :
    (State.srInstr a0 a1 a2 a3 a4 a5 a6 a7).boot = a0.boot := by
  unfold State.srInstr; (repeat' split) <;> simp_all
@[simp] theorem State.srInstr_same_free (a0 : State) (a1 : BitVec 8) (a2 : Nat) (a3 : Guard) (a4 : Reg) (a5 : Reg) (a6 : BitVec 10)
      (a7 : Ctl → State) (h7 : ∀ k, (a7 k).free = a0.free) :
    (State.srInstr a0 a1 a2 a3 a4 a5 a6 a7).free = a0.free := by
  unfold State.srInstr; (repeat' split) <;> simp_all
@[simp] theorem State.srWrite_same (a0 : State) (a1 : Nat) (a2 : Nat) (a3 : W64) :
    (State.srWrite a0 a1 a2 a3).pending = a0.pending ∧ (State.srWrite a0 a1 a2 a3).clk = a0.clk ∧ (State.srWrite a0 a1 a2 a3).net = a0.net ∧
      (State.srWrite a0 a1 a2 a3).vats = a0.vats ∧ (State.srWrite a0 a1 a2 a3).mem = a0.mem ∧ (State.srWrite a0 a1 a2 a3).hub = a0.hub ∧
      (State.srWrite a0 a1 a2 a3).span = a0.span ∧ (State.srWrite a0 a1 a2 a3).host = a0.host ∧ (State.srWrite a0 a1 a2 a3).pwr = a0.pwr ∧
      (State.srWrite a0 a1 a2 a3).boot = a0.boot ∧ (State.srWrite a0 a1 a2 a3).out = a0.out ∧ (State.srWrite a0 a1 a2 a3).free = a0.free := by
  unfold State.srWrite; (repeat' split) <;> simp
@[simp] theorem State.stepEnd_same (a0 : State) (a1 : Nat) :
    (State.stepEnd a0 a1).pending = a0.pending ∧ (State.stepEnd a0 a1).clk = a0.clk ∧ (State.stepEnd a0 a1).mem = a0.mem ∧
      (State.stepEnd a0 a1).boot = a0.boot ∧ (State.stepEnd a0 a1).free = a0.free := by
  unfold State.stepEnd; (repeat' split) <;> simp
@[simp] theorem State.stkRefuse_same (a0 : State) (a1 : StkCmd) (a2 : Nat) :
    (State.stkRefuse a0 a1 a2).pending = a0.pending ∧ (State.stkRefuse a0 a1 a2).clk = a0.clk ∧ (State.stkRefuse a0 a1 a2).cores = a0.cores ∧
      (State.stkRefuse a0 a1 a2).net = a0.net ∧ (State.stkRefuse a0 a1 a2).vats = a0.vats ∧ (State.stkRefuse a0 a1 a2).span = a0.span ∧
      (State.stkRefuse a0 a1 a2).host = a0.host ∧ (State.stkRefuse a0 a1 a2).boot = a0.boot ∧ (State.stkRefuse a0 a1 a2).free = a0.free := by
  unfold State.stkRefuse; (repeat' split) <;> simp
@[simp] theorem State.stkAccept_same (a0 : State) (a1 : StkBy) (a2 : Nat) (a3 : Nat) (a4 : Bool) :
    (State.stkAccept a0 a1 a2 a3 a4).pending = a0.pending ∧ (State.stkAccept a0 a1 a2 a3 a4).clk = a0.clk ∧
      (State.stkAccept a0 a1 a2 a3 a4).cores = a0.cores ∧ (State.stkAccept a0 a1 a2 a3 a4).net = a0.net ∧
      (State.stkAccept a0 a1 a2 a3 a4).vats = a0.vats ∧ (State.stkAccept a0 a1 a2 a3 a4).span = a0.span ∧
      (State.stkAccept a0 a1 a2 a3 a4).host = a0.host ∧ (State.stkAccept a0 a1 a2 a3 a4).boot = a0.boot ∧
      (State.stkAccept a0 a1 a2 a3 a4).free = a0.free := by
  unfold State.stkAccept; (repeat' split) <;> simp
@[simp] theorem State.stkAnswer_same (a0 : State) (a1 : StkCmd) :
    (State.stkAnswer a0 a1).pending = a0.pending ∧ (State.stkAnswer a0 a1).clk = a0.clk ∧ (State.stkAnswer a0 a1).cores = a0.cores ∧
      (State.stkAnswer a0 a1).net = a0.net ∧ (State.stkAnswer a0 a1).vats = a0.vats ∧ (State.stkAnswer a0 a1).mem = a0.mem ∧
      (State.stkAnswer a0 a1).hub = a0.hub ∧ (State.stkAnswer a0 a1).span = a0.span ∧ (State.stkAnswer a0 a1).pwr = a0.pwr ∧
      (State.stkAnswer a0 a1).boot = a0.boot ∧ (State.stkAnswer a0 a1).free = a0.free := by
  unfold State.stkAnswer; (repeat' split) <;> simp
@[simp] theorem State.stkCharge_same (a0 : State) (a1 : StkWho) (a2 : Nat) (a3 : Nat) :
    (State.stkCharge a0 a1 a2 a3).pending = a0.pending ∧ (State.stkCharge a0 a1 a2 a3).clk = a0.clk ∧
      (State.stkCharge a0 a1 a2 a3).cores = a0.cores ∧ (State.stkCharge a0 a1 a2 a3).net = a0.net ∧ (State.stkCharge a0 a1 a2 a3).mem = a0.mem ∧
      (State.stkCharge a0 a1 a2 a3).hub = a0.hub ∧ (State.stkCharge a0 a1 a2 a3).span = a0.span ∧ (State.stkCharge a0 a1 a2 a3).host = a0.host ∧
      (State.stkCharge a0 a1 a2 a3).pwr = a0.pwr ∧ (State.stkCharge a0 a1 a2 a3).boot = a0.boot ∧ (State.stkCharge a0 a1 a2 a3).out = a0.out ∧
      (State.stkCharge a0 a1 a2 a3).free = a0.free := by
  unfold State.stkCharge; (repeat' split) <;> simp
@[simp] theorem State.stkOp_same_pending (a0 : State) (a1 : Nat) (a2 : Nat) (a3 : State → StkCmd → State)
      (h3 : ∀ u x, (a3 u x).pending = u.pending) :
    (State.stkOp a0 a1 a2 a3).pending = a0.pending := by
  unfold State.stkOp; (repeat' split) <;> simp_all
@[simp] theorem State.stkOp_same_clk (a0 : State) (a1 : Nat) (a2 : Nat) (a3 : State → StkCmd → State) (h3 : ∀ u x, (a3 u x).clk = u.clk) :
    (State.stkOp a0 a1 a2 a3).clk = a0.clk := by
  unfold State.stkOp; (repeat' split) <;> simp_all
@[simp] theorem State.stkOp_same_cores (a0 : State) (a1 : Nat) (a2 : Nat) (a3 : State → StkCmd → State) (h3 : ∀ u x, (a3 u x).cores = u.cores) :
    (State.stkOp a0 a1 a2 a3).cores = a0.cores := by
  unfold State.stkOp; (repeat' split) <;> simp_all
@[simp] theorem State.stkOp_same_net (a0 : State) (a1 : Nat) (a2 : Nat) (a3 : State → StkCmd → State) (h3 : ∀ u x, (a3 u x).net = u.net) :
    (State.stkOp a0 a1 a2 a3).net = a0.net := by
  unfold State.stkOp; (repeat' split) <;> simp_all
@[simp] theorem State.stkOp_same_span (a0 : State) (a1 : Nat) (a2 : Nat) (a3 : State → StkCmd → State) (h3 : ∀ u x, (a3 u x).span = u.span) :
    (State.stkOp a0 a1 a2 a3).span = a0.span := by
  unfold State.stkOp; (repeat' split) <;> simp_all
@[simp] theorem State.stkOp_same_host (a0 : State) (a1 : Nat) (a2 : Nat) (a3 : State → StkCmd → State) (h3 : ∀ u x, (a3 u x).host = u.host) :
    (State.stkOp a0 a1 a2 a3).host = a0.host := by
  unfold State.stkOp; (repeat' split) <;> simp_all
@[simp] theorem State.stkOp_same_boot (a0 : State) (a1 : Nat) (a2 : Nat) (a3 : State → StkCmd → State) (h3 : ∀ u x, (a3 u x).boot = u.boot) :
    (State.stkOp a0 a1 a2 a3).boot = a0.boot := by
  unfold State.stkOp; (repeat' split) <;> simp_all
@[simp] theorem State.stkOp_same_free (a0 : State) (a1 : Nat) (a2 : Nat) (a3 : State → StkCmd → State) (h3 : ∀ u x, (a3 u x).free = u.free) :
    (State.stkOp a0 a1 a2 a3).free = a0.free := by
  unfold State.stkOp; (repeat' split) <;> simp_all
@[simp] theorem State.stkPublish_same (a0 : State) (a1 : StkCmd) :
    (State.stkPublish a0 a1).pending = a0.pending ∧ (State.stkPublish a0 a1).clk = a0.clk ∧ (State.stkPublish a0 a1).cores = a0.cores ∧
      (State.stkPublish a0 a1).net = a0.net ∧ (State.stkPublish a0 a1).vats = a0.vats ∧ (State.stkPublish a0 a1).hub = a0.hub ∧
      (State.stkPublish a0 a1).span = a0.span ∧ (State.stkPublish a0 a1).host = a0.host ∧ (State.stkPublish a0 a1).pwr = a0.pwr ∧
      (State.stkPublish a0 a1).boot = a0.boot ∧ (State.stkPublish a0 a1).out = a0.out ∧ (State.stkPublish a0 a1).free = a0.free := by
  unfold State.stkPublish; (repeat' split) <;> simp
@[simp] theorem State.stkReject_same (a0 : State) (a1 : StkWho) (a2 : Option Nat) (a3 : Nat) (a4 : Nat) :
    (State.stkReject a0 a1 a2 a3 a4).pending = a0.pending ∧ (State.stkReject a0 a1 a2 a3 a4).clk = a0.clk ∧
      (State.stkReject a0 a1 a2 a3 a4).cores = a0.cores ∧ (State.stkReject a0 a1 a2 a3 a4).net = a0.net ∧
      (State.stkReject a0 a1 a2 a3 a4).vats = a0.vats ∧ (State.stkReject a0 a1 a2 a3 a4).mem = a0.mem ∧
      (State.stkReject a0 a1 a2 a3 a4).span = a0.span ∧ (State.stkReject a0 a1 a2 a3 a4).host = a0.host ∧
      (State.stkReject a0 a1 a2 a3 a4).boot = a0.boot ∧ (State.stkReject a0 a1 a2 a3 a4).free = a0.free := by
  unfold State.stkReject; (repeat' split) <;> simp
@[simp] theorem State.stkStart_same (a0 : State) (a1 : StkCmd) :
    (State.stkStart a0 a1).pending = a0.pending ∧ (State.stkStart a0 a1).clk = a0.clk ∧ (State.stkStart a0 a1).cores = a0.cores ∧
      (State.stkStart a0 a1).net = a0.net ∧ (State.stkStart a0 a1).span = a0.span ∧ (State.stkStart a0 a1).host = a0.host ∧
      (State.stkStart a0 a1).boot = a0.boot ∧ (State.stkStart a0 a1).free = a0.free := by
  unfold State.stkStart; (repeat' split) <;> simp
@[simp] theorem State.store_same (a0 : State) (a1 : BitVec 8) (a2 : Nat) (a3 : Guard) (a4 : Reg) (a5 : Reg) (a6 : BitVec 10) (a7 : Nat) :
    (State.store a0 a1 a2 a3 a4 a5 a6 a7).pending = a0.pending ∧ (State.store a0 a1 a2 a3 a4 a5 a6 a7).clk = a0.clk ∧
      (State.store a0 a1 a2 a3 a4 a5 a6 a7).mem = a0.mem ∧ (State.store a0 a1 a2 a3 a4 a5 a6 a7).span = a0.span ∧
      (State.store a0 a1 a2 a3 a4 a5 a6 a7).host = a0.host ∧ (State.store a0 a1 a2 a3 a4 a5 a6 a7).boot = a0.boot ∧
      (State.store a0 a1 a2 a3 a4 a5 a6 a7).free = a0.free := by
  unfold State.store; refine ⟨by first | (simp; done) | (apply State.instr_same_pending; intros; (first | (simp; done) | (dsimp only; (repeat' (split <;> try dsimp only)) <;> simp_all)); done) | ((repeat' split) <;> first | (simp; done) | (apply State.instr_same_pending; intros; (first | (simp; done) | (dsimp only; (repeat' (split <;> try dsimp only)) <;> simp_all)); done)), by first | (simp; done) | (apply State.instr_same_clk; intros; (first | (simp; done) | (dsimp only; (repeat' (split <;> try dsimp only)) <;> simp_all)); done) | ((repeat' split) <;> first | (simp; done) | (apply State.instr_same_clk; intros; (first | (simp; done) | (dsimp only; (repeat' (split <;> try dsimp only)) <;> simp_all)); done)), by first | (simp; done) | (apply State.instr_same_mem; intros; (first | (simp; done) | (dsimp only; (repeat' (split <;> try dsimp only)) <;> simp_all)); done) | ((repeat' split) <;> first | (simp; done) | (apply State.instr_same_mem; intros; (first | (simp; done) | (dsimp only; (repeat' (split <;> try dsimp only)) <;> simp_all)); done)), by first | (simp; done) | (apply State.instr_same_span; intros; (first | (simp; done) | (dsimp only; (repeat' (split <;> try dsimp only)) <;> simp_all)); done) | ((repeat' split) <;> first | (simp; done) | (apply State.instr_same_span; intros; (first | (simp; done) | (dsimp only; (repeat' (split <;> try dsimp only)) <;> simp_all)); done)), by first | (simp; done) | (apply State.instr_same_host; intros; (first | (simp; done) | (dsimp only; (repeat' (split <;> try dsimp only)) <;> simp_all)); done) | ((repeat' split) <;> first | (simp; done) | (apply State.instr_same_host; intros; (first | (simp; done) | (dsimp only; (repeat' (split <;> try dsimp only)) <;> simp_all)); done)), by first | (simp; done) | (apply State.instr_same_boot; intros; (first | (simp; done) | (dsimp only; (repeat' (split <;> try dsimp only)) <;> simp_all)); done) | ((repeat' split) <;> first | (simp; done) | (apply State.instr_same_boot; intros; (first | (simp; done) | (dsimp only; (repeat' (split <;> try dsimp only)) <;> simp_all)); done)), by first | (simp; done) | (apply State.instr_same_free; intros; (first | (simp; done) | (dsimp only; (repeat' (split <;> try dsimp only)) <;> simp_all)); done) | ((repeat' split) <;> first | (simp; done) | (apply State.instr_same_free; intros; (first | (simp; done) | (dsimp only; (repeat' (split <;> try dsimp only)) <;> simp_all)); done))⟩
@[simp] theorem State.strIssue_same (a0 : State) (a1 : Nat) (a2 : Ctl) (a3 : Reg) (a4 : W64) (a5 : Nat) :
    (State.strIssue a0 a1 a2 a3 a4 a5).pending = a0.pending ∧ (State.strIssue a0 a1 a2 a3 a4 a5).clk = a0.clk ∧
      (State.strIssue a0 a1 a2 a3 a4 a5).mem = a0.mem ∧ (State.strIssue a0 a1 a2 a3 a4 a5).host = a0.host ∧
      (State.strIssue a0 a1 a2 a3 a4 a5).boot = a0.boot ∧ (State.strIssue a0 a1 a2 a3 a4 a5).free = a0.free := by
  unfold State.strIssue; (repeat' split) <;> simp
@[simp] theorem State.strRefuse_same (a0 : State) (a1 : Nat) (a2 : W64) (a3 : BitVec 8) :
    (State.strRefuse a0 a1 a2 a3).pending = a0.pending ∧ (State.strRefuse a0 a1 a2 a3).clk = a0.clk ∧ (State.strRefuse a0 a1 a2 a3).net = a0.net ∧
      (State.strRefuse a0 a1 a2 a3).vats = a0.vats ∧ (State.strRefuse a0 a1 a2 a3).mem = a0.mem ∧ (State.strRefuse a0 a1 a2 a3).hub = a0.hub ∧
      (State.strRefuse a0 a1 a2 a3).span = a0.span ∧ (State.strRefuse a0 a1 a2 a3).host = a0.host ∧ (State.strRefuse a0 a1 a2 a3).pwr = a0.pwr ∧
      (State.strRefuse a0 a1 a2 a3).boot = a0.boot ∧ (State.strRefuse a0 a1 a2 a3).out = a0.out ∧ (State.strRefuse a0 a1 a2 a3).free = a0.free := by
  unfold State.strRefuse; (repeat' split) <;> simp
@[simp] theorem State.strSend_same (a0 : State) (a1 : BitVec 8) (a2 : Nat) (a3 : Guard) (a4 : Reg) (a5 : Reg) (a6 : BitVec 10) (a7 : Nat) :
    (State.strSend a0 a1 a2 a3 a4 a5 a6 a7).pending = a0.pending ∧ (State.strSend a0 a1 a2 a3 a4 a5 a6 a7).clk = a0.clk ∧
      (State.strSend a0 a1 a2 a3 a4 a5 a6 a7).mem = a0.mem ∧ (State.strSend a0 a1 a2 a3 a4 a5 a6 a7).host = a0.host ∧
      (State.strSend a0 a1 a2 a3 a4 a5 a6 a7).boot = a0.boot ∧ (State.strSend a0 a1 a2 a3 a4 a5 a6 a7).free = a0.free := by
  unfold State.strSend; refine ⟨by first | (simp; done) | (apply State.instr_same_pending; intros; (first | (simp; done) | (dsimp only; (repeat' (split <;> try dsimp only)) <;> simp_all)); done) | ((repeat' split) <;> first | (simp; done) | (apply State.instr_same_pending; intros; (first | (simp; done) | (dsimp only; (repeat' (split <;> try dsimp only)) <;> simp_all)); done)), by first | (simp; done) | (apply State.instr_same_clk; intros; (first | (simp; done) | (dsimp only; (repeat' (split <;> try dsimp only)) <;> simp_all)); done) | ((repeat' split) <;> first | (simp; done) | (apply State.instr_same_clk; intros; (first | (simp; done) | (dsimp only; (repeat' (split <;> try dsimp only)) <;> simp_all)); done)), by first | (simp; done) | (apply State.instr_same_mem; intros; (first | (simp; done) | (dsimp only; (repeat' (split <;> try dsimp only)) <;> simp_all)); done) | ((repeat' split) <;> first | (simp; done) | (apply State.instr_same_mem; intros; (first | (simp; done) | (dsimp only; (repeat' (split <;> try dsimp only)) <;> simp_all)); done)), by first | (simp; done) | (apply State.instr_same_host; intros; (first | (simp; done) | (dsimp only; (repeat' (split <;> try dsimp only)) <;> simp_all)); done) | ((repeat' split) <;> first | (simp; done) | (apply State.instr_same_host; intros; (first | (simp; done) | (dsimp only; (repeat' (split <;> try dsimp only)) <;> simp_all)); done)), by first | (simp; done) | (apply State.instr_same_boot; intros; (first | (simp; done) | (dsimp only; (repeat' (split <;> try dsimp only)) <;> simp_all)); done) | ((repeat' split) <;> first | (simp; done) | (apply State.instr_same_boot; intros; (first | (simp; done) | (dsimp only; (repeat' (split <;> try dsimp only)) <;> simp_all)); done)), by first | (simp; done) | (apply State.instr_same_free; intros; (first | (simp; done) | (dsimp only; (repeat' (split <;> try dsimp only)) <;> simp_all)); done) | ((repeat' split) <;> first | (simp; done) | (apply State.instr_same_free; intros; (first | (simp; done) | (dsimp only; (repeat' (split <;> try dsimp only)) <;> simp_all)); done))⟩
@[simp] theorem State.syncRefuse_same (a0 : State) (a1 : Nat) (a2 : Nat) (a3 : Nat) (a4 : Nat) :
    (State.syncRefuse a0 a1 a2 a3 a4).pending = a0.pending ∧ (State.syncRefuse a0 a1 a2 a3 a4).clk = a0.clk ∧
      (State.syncRefuse a0 a1 a2 a3 a4).cores = a0.cores ∧ (State.syncRefuse a0 a1 a2 a3 a4).net = a0.net ∧
      (State.syncRefuse a0 a1 a2 a3 a4).vats = a0.vats ∧ (State.syncRefuse a0 a1 a2 a3 a4).mem = a0.mem ∧
      (State.syncRefuse a0 a1 a2 a3 a4).host = a0.host ∧ (State.syncRefuse a0 a1 a2 a3 a4).boot = a0.boot ∧
      (State.syncRefuse a0 a1 a2 a3 a4).free = a0.free := by
  unfold State.syncRefuse; (repeat' split) <;> simp
@[simp] theorem State.syncApply_same (a0 : State) (a1 : Nat) (a2 : Nat) (a3 : Nat) (a4 : Nat) (a5 : Nat) :
    (State.syncApply a0 a1 a2 a3 a4 a5).pending = a0.pending ∧ (State.syncApply a0 a1 a2 a3 a4 a5).clk = a0.clk ∧
      (State.syncApply a0 a1 a2 a3 a4 a5).mem = a0.mem ∧ (State.syncApply a0 a1 a2 a3 a4 a5).host = a0.host ∧
      (State.syncApply a0 a1 a2 a3 a4 a5).boot = a0.boot ∧ (State.syncApply a0 a1 a2 a3 a4 a5).free = a0.free := by
  unfold State.syncApply; (repeat' split) <;> simp
@[simp] theorem State.syncAdmit_same (a0 : State) (a1 : Bool) (a2 : Nat) (a3 : Nat) (a4 : Nat) (a5 : Nat) (a6 : W64) :
    (State.syncAdmit a0 a1 a2 a3 a4 a5 a6).pending = a0.pending ∧ (State.syncAdmit a0 a1 a2 a3 a4 a5 a6).clk = a0.clk ∧
      (State.syncAdmit a0 a1 a2 a3 a4 a5 a6).mem = a0.mem ∧ (State.syncAdmit a0 a1 a2 a3 a4 a5 a6).host = a0.host ∧
      (State.syncAdmit a0 a1 a2 a3 a4 a5 a6).boot = a0.boot ∧ (State.syncAdmit a0 a1 a2 a3 a4 a5 a6).free = a0.free := by
  unfold State.syncAdmit; (repeat' split) <;> simp
@[simp] theorem State.syncInstr_same_pending (a0 : State) (a1 : Nat) (a2 : Guard) (a3 : Reg) (a4 : W32) (a5 : Nat → Bool) (a6 : Ctl → Nat → State)
      (h6 : ∀ k x, (a6 k x).pending = a0.pending) :
    (State.syncInstr a0 a1 a2 a3 a4 a5 a6).pending = a0.pending := by
  unfold State.syncInstr; (repeat' split) <;> simp_all
@[simp] theorem State.syncInstr_same_clk (a0 : State) (a1 : Nat) (a2 : Guard) (a3 : Reg) (a4 : W32) (a5 : Nat → Bool) (a6 : Ctl → Nat → State)
      (h6 : ∀ k x, (a6 k x).clk = a0.clk) :
    (State.syncInstr a0 a1 a2 a3 a4 a5 a6).clk = a0.clk := by
  unfold State.syncInstr; (repeat' split) <;> simp_all
@[simp] theorem State.syncInstr_same_mem (a0 : State) (a1 : Nat) (a2 : Guard) (a3 : Reg) (a4 : W32) (a5 : Nat → Bool) (a6 : Ctl → Nat → State)
      (h6 : ∀ k x, (a6 k x).mem = a0.mem) :
    (State.syncInstr a0 a1 a2 a3 a4 a5 a6).mem = a0.mem := by
  unfold State.syncInstr; (repeat' split) <;> simp_all
@[simp] theorem State.syncInstr_same_span (a0 : State) (a1 : Nat) (a2 : Guard) (a3 : Reg) (a4 : W32) (a5 : Nat → Bool) (a6 : Ctl → Nat → State)
      (h6 : ∀ k x, (a6 k x).span = a0.span) :
    (State.syncInstr a0 a1 a2 a3 a4 a5 a6).span = a0.span := by
  unfold State.syncInstr; (repeat' split) <;> simp_all
@[simp] theorem State.syncInstr_same_host (a0 : State) (a1 : Nat) (a2 : Guard) (a3 : Reg) (a4 : W32) (a5 : Nat → Bool) (a6 : Ctl → Nat → State)
      (h6 : ∀ k x, (a6 k x).host = a0.host) :
    (State.syncInstr a0 a1 a2 a3 a4 a5 a6).host = a0.host := by
  unfold State.syncInstr; (repeat' split) <;> simp_all
@[simp] theorem State.syncInstr_same_boot (a0 : State) (a1 : Nat) (a2 : Guard) (a3 : Reg) (a4 : W32) (a5 : Nat → Bool) (a6 : Ctl → Nat → State)
      (h6 : ∀ k x, (a6 k x).boot = a0.boot) :
    (State.syncInstr a0 a1 a2 a3 a4 a5 a6).boot = a0.boot := by
  unfold State.syncInstr; (repeat' split) <;> simp_all
@[simp] theorem State.syncInstr_same_free (a0 : State) (a1 : Nat) (a2 : Guard) (a3 : Reg) (a4 : W32) (a5 : Nat → Bool) (a6 : Ctl → Nat → State)
      (h6 : ∀ k x, (a6 k x).free = a0.free) :
    (State.syncInstr a0 a1 a2 a3 a4 a5 a6).free = a0.free := by
  unfold State.syncInstr; (repeat' split) <;> simp_all
@[simp] theorem State.takeEntry_same (a0 : State) (a1 : Nat) (a2 : Nat) :
    (State.takeEntry a0 a1 a2).pending = a0.pending ∧ (State.takeEntry a0 a1 a2).clk = a0.clk ∧ (State.takeEntry a0 a1 a2).cores = a0.cores ∧
      (State.takeEntry a0 a1 a2).net = a0.net ∧ (State.takeEntry a0 a1 a2).vats = a0.vats ∧ (State.takeEntry a0 a1 a2).mem = a0.mem ∧
      (State.takeEntry a0 a1 a2).span = a0.span ∧ (State.takeEntry a0 a1 a2).boot = a0.boot ∧ (State.takeEntry a0 a1 a2).free = a0.free := by
  unfold State.takeEntry; (repeat' split) <;> simp
theorem State.takeFrame_same {s : State} {p : Nat} {q : Frame → Bool} {x : RxFrame} {t : State} (h : s.takeFrame p q = some (x, t)) :
    t.pending = s.pending ∧ t.clk = s.clk ∧ t.cores = s.cores ∧ t.net = s.net ∧ t.vats = s.vats ∧ t.mem = s.mem ∧ t.hub = s.hub ∧ t.host = s.host ∧
      t.pwr = s.pwr ∧ t.boot = s.boot ∧ t.out = s.out ∧ t.free = s.free := by
  unfold State.takeFrame at h; dsimp only at h; split at h
  · rw [Option.some.injEq, Prod.mk.injEq] at h
    obtain ⟨_, rfl⟩ := h
    simp
  · simp at h
@[simp] theorem State.thermalLevels_same (a0 : State) (a1 : Nat → Int) :
    (State.thermalLevels a0 a1).pending = a0.pending ∧ (State.thermalLevels a0 a1).clk = a0.clk ∧ (State.thermalLevels a0 a1).net = a0.net ∧
      (State.thermalLevels a0 a1).span = a0.span ∧ (State.thermalLevels a0 a1).boot = a0.boot ∧ (State.thermalLevels a0 a1).free = a0.free := by
  first | (unfold State.thermalLevels; (repeat' split) <;> simp; done) | (unfold State.thermalLevels; (repeat' split) <;> simp_all; done) | (unfold State.thermalLevels; dsimp only; (repeat' (split <;> try dsimp only)) <;> simp_all; done) | (unfold State.thermalLevels; simp only []; (repeat' (split <;> try simp)) <;> simp_all; done)
@[simp] theorem State.tickClock_same (a0 : State) :
    (State.tickClock a0).pending = a0.pending ∧ (State.tickClock a0).cores = a0.cores ∧ (State.tickClock a0).net = a0.net ∧
      (State.tickClock a0).vats = a0.vats ∧ (State.tickClock a0).mem = a0.mem ∧ (State.tickClock a0).hub = a0.hub ∧
      (State.tickClock a0).span = a0.span ∧ (State.tickClock a0).host = a0.host ∧ (State.tickClock a0).pwr = a0.pwr ∧
      (State.tickClock a0).boot = a0.boot ∧ (State.tickClock a0).out = a0.out ∧ (State.tickClock a0).free = a0.free := by
  unfold State.tickClock; (repeat' split) <;> simp
@[simp] theorem State.tickIdle_same (a0 : State) :
    (State.tickIdle a0).pending = a0.pending ∧ (State.tickIdle a0).clk = a0.clk ∧ (State.tickIdle a0).net = a0.net ∧
      (State.tickIdle a0).vats = a0.vats ∧ (State.tickIdle a0).mem = a0.mem ∧ (State.tickIdle a0).hub = a0.hub ∧
      (State.tickIdle a0).span = a0.span ∧ (State.tickIdle a0).host = a0.host ∧ (State.tickIdle a0).pwr = a0.pwr ∧
      (State.tickIdle a0).boot = a0.boot ∧ (State.tickIdle a0).out = a0.out ∧ (State.tickIdle a0).free = a0.free := by
  unfold State.tickIdle; (repeat' split) <;> simp
@[simp] theorem State.tickSlot_same (a0 : State) (a1 : Nat) :
    (State.tickSlot a0 a1).pending = a0.pending ∧ (State.tickSlot a0 a1).clk = a0.clk ∧ (State.tickSlot a0 a1).cores = a0.cores ∧
      (State.tickSlot a0 a1).net = a0.net ∧ (State.tickSlot a0 a1).vats = a0.vats ∧ (State.tickSlot a0 a1).mem = a0.mem ∧
      (State.tickSlot a0 a1).span = a0.span ∧ (State.tickSlot a0 a1).host = a0.host ∧ (State.tickSlot a0 a1).pwr = a0.pwr ∧
      (State.tickSlot a0 a1).boot = a0.boot ∧ (State.tickSlot a0 a1).out = a0.out ∧ (State.tickSlot a0 a1).free = a0.free := by
  unfold State.tickSlot; (repeat' split) <;> simp
@[simp] theorem State.tickStretch_same (a0 : State) (a1 : Nat) :
    (State.tickStretch a0 a1).pending = a0.pending ∧ (State.tickStretch a0 a1).clk = a0.clk ∧ (State.tickStretch a0 a1).cores = a0.cores ∧
      (State.tickStretch a0 a1).net = a0.net ∧ (State.tickStretch a0 a1).mem = a0.mem ∧ (State.tickStretch a0 a1).hub = a0.hub ∧
      (State.tickStretch a0 a1).span = a0.span ∧ (State.tickStretch a0 a1).host = a0.host ∧ (State.tickStretch a0 a1).boot = a0.boot ∧
      (State.tickStretch a0 a1).out = a0.out ∧ (State.tickStretch a0 a1).free = a0.free := by
  unfold State.tickStretch; (repeat' split) <;> simp
@[simp] theorem State.tickVat_same (a0 : State) (a1 : Nat) (a2 : Nat) :
    (State.tickVat a0 a1 a2).pending = a0.pending ∧ (State.tickVat a0 a1 a2).clk = a0.clk ∧ (State.tickVat a0 a1 a2).cores = a0.cores ∧
      (State.tickVat a0 a1 a2).net = a0.net ∧ (State.tickVat a0 a1 a2).mem = a0.mem ∧ (State.tickVat a0 a1 a2).hub = a0.hub ∧
      (State.tickVat a0 a1 a2).span = a0.span ∧ (State.tickVat a0 a1 a2).host = a0.host ∧ (State.tickVat a0 a1 a2).pwr = a0.pwr ∧
      (State.tickVat a0 a1 a2).boot = a0.boot ∧ (State.tickVat a0 a1 a2).out = a0.out := by
  unfold State.tickVat; (repeat' split) <;> simp
@[simp] theorem State.tick_same (a0 : State) :
    (State.tick a0).pending = a0.pending ∧ (State.tick a0).mem = a0.mem ∧ (State.tick a0).span = a0.span ∧ (State.tick a0).host = a0.host ∧
      (State.tick a0).boot = a0.boot := by
  unfold State.tick; (repeat' split) <;> simp
@[simp] theorem State.vecAccept_same_pending (a0 : State) (a1 : Nat) (a2 : Nat) (a3 : State → W256 → State)
      (h3 : ∀ u x, (a3 u x).pending = u.pending) :
    (State.vecAccept a0 a1 a2 a3).pending = a0.pending := by
  unfold State.vecAccept; (repeat' split) <;> simp_all
@[simp] theorem State.vecAccept_same_clk (a0 : State) (a1 : Nat) (a2 : Nat) (a3 : State → W256 → State) (h3 : ∀ u x, (a3 u x).clk = u.clk) :
    (State.vecAccept a0 a1 a2 a3).clk = a0.clk := by
  unfold State.vecAccept; (repeat' split) <;> simp_all
@[simp] theorem State.vecAccept_same_vats (a0 : State) (a1 : Nat) (a2 : Nat) (a3 : State → W256 → State) (h3 : ∀ u x, (a3 u x).vats = u.vats) :
    (State.vecAccept a0 a1 a2 a3).vats = a0.vats := by
  unfold State.vecAccept; (repeat' split) <;> simp_all
@[simp] theorem State.vecAccept_same_mem (a0 : State) (a1 : Nat) (a2 : Nat) (a3 : State → W256 → State) (h3 : ∀ u x, (a3 u x).mem = u.mem) :
    (State.vecAccept a0 a1 a2 a3).mem = a0.mem := by
  unfold State.vecAccept; (repeat' split) <;> simp_all
@[simp] theorem State.vecAccept_same_span (a0 : State) (a1 : Nat) (a2 : Nat) (a3 : State → W256 → State) (h3 : ∀ u x, (a3 u x).span = u.span) :
    (State.vecAccept a0 a1 a2 a3).span = a0.span := by
  unfold State.vecAccept; (repeat' split) <;> simp_all
@[simp] theorem State.vecAccept_same_host (a0 : State) (a1 : Nat) (a2 : Nat) (a3 : State → W256 → State) (h3 : ∀ u x, (a3 u x).host = u.host) :
    (State.vecAccept a0 a1 a2 a3).host = a0.host := by
  unfold State.vecAccept; (repeat' split) <;> simp_all
@[simp] theorem State.vecAccept_same_boot (a0 : State) (a1 : Nat) (a2 : Nat) (a3 : State → W256 → State) (h3 : ∀ u x, (a3 u x).boot = u.boot) :
    (State.vecAccept a0 a1 a2 a3).boot = a0.boot := by
  unfold State.vecAccept; (repeat' split) <;> simp_all
@[simp] theorem State.vecAccept_same_free (a0 : State) (a1 : Nat) (a2 : Nat) (a3 : State → W256 → State) (h3 : ∀ u x, (a3 u x).free = u.free) :
    (State.vecAccept a0 a1 a2 a3).free = a0.free := by
  unfold State.vecAccept; (repeat' split) <;> simp_all
@[simp] theorem State.tileAccept_same (a0 : State) (a1 : Nat) (a2 : Nat) :
    (State.tileAccept a0 a1 a2).pending = a0.pending ∧ (State.tileAccept a0 a1 a2).clk = a0.clk ∧ (State.tileAccept a0 a1 a2).mem = a0.mem ∧
      (State.tileAccept a0 a1 a2).span = a0.span ∧ (State.tileAccept a0 a1 a2).host = a0.host ∧ (State.tileAccept a0 a1 a2).boot = a0.boot ∧
      (State.tileAccept a0 a1 a2).free = a0.free := by
  unfold State.tileAccept; refine ⟨by first | (simp; done) | (apply State.vecAccept_same_pending; intros; (first | (simp; done) | (dsimp only; (repeat' (split <;> try dsimp only)) <;> simp_all)); done) | ((repeat' split) <;> first | (simp; done) | (apply State.vecAccept_same_pending; intros; (first | (simp; done) | (dsimp only; (repeat' (split <;> try dsimp only)) <;> simp_all)); done)), by first | (simp; done) | (apply State.vecAccept_same_clk; intros; (first | (simp; done) | (dsimp only; (repeat' (split <;> try dsimp only)) <;> simp_all)); done) | ((repeat' split) <;> first | (simp; done) | (apply State.vecAccept_same_clk; intros; (first | (simp; done) | (dsimp only; (repeat' (split <;> try dsimp only)) <;> simp_all)); done)), by first | (simp; done) | (apply State.vecAccept_same_mem; intros; (first | (simp; done) | (dsimp only; (repeat' (split <;> try dsimp only)) <;> simp_all)); done) | ((repeat' split) <;> first | (simp; done) | (apply State.vecAccept_same_mem; intros; (first | (simp; done) | (dsimp only; (repeat' (split <;> try dsimp only)) <;> simp_all)); done)), by first | (simp; done) | (apply State.vecAccept_same_span; intros; (first | (simp; done) | (dsimp only; (repeat' (split <;> try dsimp only)) <;> simp_all)); done) | ((repeat' split) <;> first | (simp; done) | (apply State.vecAccept_same_span; intros; (first | (simp; done) | (dsimp only; (repeat' (split <;> try dsimp only)) <;> simp_all)); done)), by first | (simp; done) | (apply State.vecAccept_same_host; intros; (first | (simp; done) | (dsimp only; (repeat' (split <;> try dsimp only)) <;> simp_all)); done) | ((repeat' split) <;> first | (simp; done) | (apply State.vecAccept_same_host; intros; (first | (simp; done) | (dsimp only; (repeat' (split <;> try dsimp only)) <;> simp_all)); done)), by first | (simp; done) | (apply State.vecAccept_same_boot; intros; (first | (simp; done) | (dsimp only; (repeat' (split <;> try dsimp only)) <;> simp_all)); done) | ((repeat' split) <;> first | (simp; done) | (apply State.vecAccept_same_boot; intros; (first | (simp; done) | (dsimp only; (repeat' (split <;> try dsimp only)) <;> simp_all)); done)), by first | (simp; done) | (apply State.vecAccept_same_free; intros; (first | (simp; done) | (dsimp only; (repeat' (split <;> try dsimp only)) <;> simp_all)); done) | ((repeat' split) <;> first | (simp; done) | (apply State.vecAccept_same_free; intros; (first | (simp; done) | (dsimp only; (repeat' (split <;> try dsimp only)) <;> simp_all)); done))⟩
@[simp] theorem State.tileDone_same_pending (a0 : State) (a1 : Nat) (a2 : Nat) (a3 : State → Nat → Nat → State)
      (h3 : ∀ u x y, (a3 u x y).pending = u.pending) :
    (State.tileDone a0 a1 a2 a3).pending = a0.pending := by
  unfold State.tileDone; (repeat' split) <;> simp_all
@[simp] theorem State.tileDone_same_clk (a0 : State) (a1 : Nat) (a2 : Nat) (a3 : State → Nat → Nat → State) (h3 : ∀ u x y, (a3 u x y).clk = u.clk) :
    (State.tileDone a0 a1 a2 a3).clk = a0.clk := by
  unfold State.tileDone; (repeat' split) <;> simp_all
@[simp] theorem State.tileDone_same_mem (a0 : State) (a1 : Nat) (a2 : Nat) (a3 : State → Nat → Nat → State) (h3 : ∀ u x y, (a3 u x y).mem = u.mem) :
    (State.tileDone a0 a1 a2 a3).mem = a0.mem := by
  unfold State.tileDone; (repeat' split) <;> simp_all
@[simp] theorem State.tileDone_same_span (a0 : State) (a1 : Nat) (a2 : Nat) (a3 : State → Nat → Nat → State)
      (h3 : ∀ u x y, (a3 u x y).span = u.span) :
    (State.tileDone a0 a1 a2 a3).span = a0.span := by
  unfold State.tileDone; (repeat' split) <;> simp_all
@[simp] theorem State.tileDone_same_host (a0 : State) (a1 : Nat) (a2 : Nat) (a3 : State → Nat → Nat → State)
      (h3 : ∀ u x y, (a3 u x y).host = u.host) :
    (State.tileDone a0 a1 a2 a3).host = a0.host := by
  unfold State.tileDone; (repeat' split) <;> simp_all
@[simp] theorem State.tileDone_same_boot (a0 : State) (a1 : Nat) (a2 : Nat) (a3 : State → Nat → Nat → State)
      (h3 : ∀ u x y, (a3 u x y).boot = u.boot) :
    (State.tileDone a0 a1 a2 a3).boot = a0.boot := by
  unfold State.tileDone; (repeat' split) <;> simp_all
@[simp] theorem State.tileDone_same_free (a0 : State) (a1 : Nat) (a2 : Nat) (a3 : State → Nat → Nat → State)
      (h3 : ∀ u x y, (a3 u x y).free = u.free) :
    (State.tileDone a0 a1 a2 a3).free = a0.free := by
  unfold State.tileDone; (repeat' split) <;> simp_all
@[simp] theorem State.toAlign_same (a0 : State) (a1 : Nat) :
    (State.toAlign a0 a1).pending = a0.pending ∧ (State.toAlign a0 a1).clk = a0.clk ∧ (State.toAlign a0 a1).cores = a0.cores ∧
      (State.toAlign a0 a1).net = a0.net ∧ (State.toAlign a0 a1).vats = a0.vats ∧ (State.toAlign a0 a1).mem = a0.mem ∧
      (State.toAlign a0 a1).host = a0.host ∧ (State.toAlign a0 a1).boot = a0.boot ∧ (State.toAlign a0 a1).free = a0.free := by
  unfold State.toAlign; (repeat' split) <;> simp
@[simp] theorem State.toBroken_same (a0 : State) :
    (State.toBroken a0).pending = a0.pending ∧ (State.toBroken a0).clk = a0.clk ∧ (State.toBroken a0).cores = a0.cores ∧
      (State.toBroken a0).net = a0.net ∧ (State.toBroken a0).vats = a0.vats ∧ (State.toBroken a0).mem = a0.mem ∧
      (State.toBroken a0).host = a0.host ∧ (State.toBroken a0).boot = a0.boot ∧ (State.toBroken a0).free = a0.free := by
  unfold State.toBroken; (repeat' split) <;> simp
@[simp] theorem State.toUp_same (a0 : State) (a1 : Nat) (a2 : Nat) :
    (State.toUp a0 a1 a2).pending = a0.pending ∧ (State.toUp a0 a1 a2).clk = a0.clk ∧ (State.toUp a0 a1 a2).cores = a0.cores ∧
      (State.toUp a0 a1 a2).net = a0.net ∧ (State.toUp a0 a1 a2).vats = a0.vats ∧ (State.toUp a0 a1 a2).mem = a0.mem ∧
      (State.toUp a0 a1 a2).boot = a0.boot ∧ (State.toUp a0 a1 a2).free = a0.free := by
  unfold State.toUp; (repeat' split) <;> simp
@[simp] theorem State.trip_same (a0 : State) :
    (State.trip a0).pending = a0.pending ∧ (State.trip a0).out = a0.out ∧ (State.trip a0).free = a0.free := by
  unfold State.trip; (repeat' split) <;> simp
@[simp] theorem State.verOp_same_pending (a0 : State) (a1 : Nat) (a2 : Nat) (a3 : State → StkCmd → VerEnt → State)
      (h3 : ∀ u x y, (a3 u x y).pending = u.pending) :
    (State.verOp a0 a1 a2 a3).pending = a0.pending := by
  unfold State.verOp; (repeat' split) <;> simp_all
@[simp] theorem State.verOp_same_clk (a0 : State) (a1 : Nat) (a2 : Nat) (a3 : State → StkCmd → VerEnt → State)
      (h3 : ∀ u x y, (a3 u x y).clk = u.clk) :
    (State.verOp a0 a1 a2 a3).clk = a0.clk := by
  unfold State.verOp; (repeat' split) <;> simp_all
@[simp] theorem State.verOp_same_cores (a0 : State) (a1 : Nat) (a2 : Nat) (a3 : State → StkCmd → VerEnt → State)
      (h3 : ∀ u x y, (a3 u x y).cores = u.cores) :
    (State.verOp a0 a1 a2 a3).cores = a0.cores := by
  unfold State.verOp; (repeat' split) <;> simp_all
@[simp] theorem State.verOp_same_net (a0 : State) (a1 : Nat) (a2 : Nat) (a3 : State → StkCmd → VerEnt → State)
      (h3 : ∀ u x y, (a3 u x y).net = u.net) :
    (State.verOp a0 a1 a2 a3).net = a0.net := by
  unfold State.verOp; (repeat' split) <;> simp_all
@[simp] theorem State.verOp_same_span (a0 : State) (a1 : Nat) (a2 : Nat) (a3 : State → StkCmd → VerEnt → State)
      (h3 : ∀ u x y, (a3 u x y).span = u.span) :
    (State.verOp a0 a1 a2 a3).span = a0.span := by
  unfold State.verOp; (repeat' split) <;> simp_all
@[simp] theorem State.verOp_same_host (a0 : State) (a1 : Nat) (a2 : Nat) (a3 : State → StkCmd → VerEnt → State)
      (h3 : ∀ u x y, (a3 u x y).host = u.host) :
    (State.verOp a0 a1 a2 a3).host = a0.host := by
  unfold State.verOp; (repeat' split) <;> simp_all
@[simp] theorem State.verOp_same_boot (a0 : State) (a1 : Nat) (a2 : Nat) (a3 : State → StkCmd → VerEnt → State)
      (h3 : ∀ u x y, (a3 u x y).boot = u.boot) :
    (State.verOp a0 a1 a2 a3).boot = a0.boot := by
  unfold State.verOp; (repeat' split) <;> simp_all
@[simp] theorem State.verOp_same_free (a0 : State) (a1 : Nat) (a2 : Nat) (a3 : State → StkCmd → VerEnt → State)
      (h3 : ∀ u x y, (a3 u x y).free = u.free) :
    (State.verOp a0 a1 a2 a3).free = a0.free := by
  unfold State.verOp; (repeat' split) <;> simp_all
@[simp] theorem State.wakeSpad_same (a0 : State) (a1 : Nat) :
    (State.wakeSpad a0 a1).pending = a0.pending ∧ (State.wakeSpad a0 a1).clk = a0.clk ∧ (State.wakeSpad a0 a1).cores = a0.cores ∧
      (State.wakeSpad a0 a1).net = a0.net ∧ (State.wakeSpad a0 a1).vats = a0.vats ∧ (State.wakeSpad a0 a1).mem = a0.mem ∧
      (State.wakeSpad a0 a1).hub = a0.hub ∧ (State.wakeSpad a0 a1).span = a0.span ∧ (State.wakeSpad a0 a1).host = a0.host ∧
      (State.wakeSpad a0 a1).boot = a0.boot ∧ (State.wakeSpad a0 a1).out = a0.out ∧ (State.wakeSpad a0 a1).free = a0.free := by
  unfold State.wakeSpad; (repeat' split) <;> simp
@[simp] theorem State.winRefuse_same (a0 : State) (a1 : Nat) (a2 : Nat) (a3 : Nat) :
    (State.winRefuse a0 a1 a2 a3).pending = a0.pending ∧ (State.winRefuse a0 a1 a2 a3).clk = a0.clk ∧
      (State.winRefuse a0 a1 a2 a3).cores = a0.cores ∧ (State.winRefuse a0 a1 a2 a3).net = a0.net ∧ (State.winRefuse a0 a1 a2 a3).vats = a0.vats ∧
      (State.winRefuse a0 a1 a2 a3).mem = a0.mem ∧ (State.winRefuse a0 a1 a2 a3).span = a0.span ∧ (State.winRefuse a0 a1 a2 a3).boot = a0.boot ∧
      (State.winRefuse a0 a1 a2 a3).free = a0.free := by
  unfold State.winRefuse; (repeat' split) <;> simp
@[simp] theorem State.wipeCore_same (a0 : State) (a1 : Nat) :
    (State.wipeCore a0 a1).pending = a0.pending ∧ (State.wipeCore a0 a1).clk = a0.clk ∧ (State.wipeCore a0 a1).vats = a0.vats ∧
      (State.wipeCore a0 a1).mem = a0.mem ∧ (State.wipeCore a0 a1).hub = a0.hub ∧ (State.wipeCore a0 a1).span = a0.span ∧
      (State.wipeCore a0 a1).host = a0.host ∧ (State.wipeCore a0 a1).pwr = a0.pwr ∧ (State.wipeCore a0 a1).boot = a0.boot ∧
      (State.wipeCore a0 a1).out = a0.out ∧ (State.wipeCore a0 a1).free = a0.free := by
  unfold State.wipeCore; (repeat' split) <;> simp
@[simp] theorem State.wipeVatman_same (a0 : State) (a1 : Nat) :
    (State.wipeVatman a0 a1).pending = a0.pending ∧ (State.wipeVatman a0 a1).clk = a0.clk ∧ (State.wipeVatman a0 a1).net = a0.net ∧
      (State.wipeVatman a0 a1).vats = a0.vats ∧ (State.wipeVatman a0 a1).mem = a0.mem ∧ (State.wipeVatman a0 a1).hub = a0.hub ∧
      (State.wipeVatman a0 a1).span = a0.span ∧ (State.wipeVatman a0 a1).host = a0.host ∧ (State.wipeVatman a0 a1).pwr = a0.pwr ∧
      (State.wipeVatman a0 a1).boot = a0.boot ∧ (State.wipeVatman a0 a1).out = a0.out ∧ (State.wipeVatman a0 a1).free = a0.free := by
  unfold State.wipeVatman; (repeat' split) <;> simp
@[simp] theorem State.wipeMemory_same (a0 : State) (a1 : Nat) :
    (State.wipeMemory a0 a1).pending = a0.pending ∧ (State.wipeMemory a0 a1).clk = a0.clk ∧ (State.wipeMemory a0 a1).vats = a0.vats ∧
      (State.wipeMemory a0 a1).hub = a0.hub ∧ (State.wipeMemory a0 a1).span = a0.span ∧ (State.wipeMemory a0 a1).pwr = a0.pwr ∧
      (State.wipeMemory a0 a1).boot = a0.boot ∧ (State.wipeMemory a0 a1).free = a0.free := by
  unfold State.wipeMemory; (repeat' split) <;> simp
@[simp] theorem State.wipeRange_same (a0 : State) (a1 : Nat) (a2 : Nat) (a3 : Nat) :
    (State.wipeRange a0 a1 a2 a3).pending = a0.pending ∧ (State.wipeRange a0 a1 a2 a3).clk = a0.clk ∧
      (State.wipeRange a0 a1 a2 a3).cores = a0.cores ∧ (State.wipeRange a0 a1 a2 a3).net = a0.net ∧ (State.wipeRange a0 a1 a2 a3).host = a0.host ∧
      (State.wipeRange a0 a1 a2 a3).boot = a0.boot ∧ (State.wipeRange a0 a1 a2 a3).free = a0.free := by
  unfold State.wipeRange; (repeat' split) <;> simp
@[simp] theorem State.withFetchWord_same (a0 : State) (a1 : Nat) (a2 : Nat) :
    (State.withFetchWord a0 a1 a2).clk = a0.clk ∧ (State.withFetchWord a0 a1 a2).cores = a0.cores ∧ (State.withFetchWord a0 a1 a2).net = a0.net ∧
      (State.withFetchWord a0 a1 a2).vats = a0.vats ∧ (State.withFetchWord a0 a1 a2).mem = a0.mem ∧ (State.withFetchWord a0 a1 a2).hub = a0.hub ∧
      (State.withFetchWord a0 a1 a2).span = a0.span ∧ (State.withFetchWord a0 a1 a2).host = a0.host ∧ (State.withFetchWord a0 a1 a2).pwr = a0.pwr ∧
      (State.withFetchWord a0 a1 a2).boot = a0.boot ∧ (State.withFetchWord a0 a1 a2).out = a0.out ∧ (State.withFetchWord a0 a1 a2).free = a0.free := by
  unfold State.withFetchWord; (repeat' split) <;> simp
@[simp] theorem State.writeScan_same (a0 : State) (a1 : Nat) :
    (State.writeScan a0 a1).pending = a0.pending ∧ (State.writeScan a0 a1).clk = a0.clk ∧ (State.writeScan a0 a1).cores = a0.cores ∧
      (State.writeScan a0 a1).net = a0.net ∧ (State.writeScan a0 a1).host = a0.host ∧ (State.writeScan a0 a1).boot = a0.boot := by
  unfold State.writeScan; (repeat' split) <;> simp
@[simp] theorem sp24Charge_same (a0 : State) (a1 : Nat) (a2 : Nat) (a3 : List (Prod Nat Nat)) :
    (sp24Charge a0 a1 a2 a3).pending = a0.pending ∧ (sp24Charge a0 a1 a2 a3).clk = a0.clk ∧ (sp24Charge a0 a1 a2 a3).cores = a0.cores ∧
      (sp24Charge a0 a1 a2 a3).net = a0.net ∧ (sp24Charge a0 a1 a2 a3).mem = a0.mem ∧ (sp24Charge a0 a1 a2 a3).hub = a0.hub ∧
      (sp24Charge a0 a1 a2 a3).span = a0.span ∧ (sp24Charge a0 a1 a2 a3).host = a0.host ∧ (sp24Charge a0 a1 a2 a3).pwr = a0.pwr ∧
      (sp24Charge a0 a1 a2 a3).boot = a0.boot ∧ (sp24Charge a0 a1 a2 a3).out = a0.out ∧ (sp24Charge a0 a1 a2 a3).free = a0.free := by
  unfold sp24Charge; (repeat' split) <;> simp
/-- A store of elements changes the cores as the element writes do, and of a vat its output checksum only. -/
theorem State.storeElems_does (s : State) (c : Nat) (ws : List ElemWrite) :
    (s.storeElems c ws).cores = (s.modSpad c (fun sp => sp.putElems ws)).cores ∧
      { s.storeElems c ws with vats := s.vats } = s.modSpad c (fun sp => sp.putElems ws) := by
  unfold State.storeElems
  dsimp only
  split
  · exact ⟨rfl, rfl⟩
  · split <;> exact ⟨rfl, rfl⟩
/-- A store of bytes changes the cores as the write of the bytes does, and of a vat its output checksum only. -/
theorem State.spadStore_does (s : State) (c a : Nat) (bs : List Byte) (bad : Nat → Bool) :
    (s.spadStore c a bs bad).cores = (s.spadPut c a bs bad).cores ∧ { s.spadStore c a bs bad with vats := s.vats } = s.spadPut c a bs bad := by
  unfold State.spadStore State.noteCoreWrite State.noteWrite
  dsimp only
  split
  · split <;> exact ⟨rfl, rfl⟩
  · exact ⟨rfl, rfl⟩

end Sys2Proof.Machine
end

