-- ==== Sys2Proof/Laws/Memory.lean ====
section
/-! SUPPORT. Memories: every operation keeps the canonical form, and what reads return after writes. -/

namespace Sys2Proof.Machine

@[simp] theorem Memory.wf_nil : Memory.wf [] = true := rfl

/-- The canonical form, said of all cells at once. -/
theorem Memory.wf_iff (m : Memory) :
    m.wf = true ↔ List.Pairwise (fun c d => c.1 < d.1) m ∧ ∀ c ∈ m, c.2 ≠ Memory.unlisted := by
  induction m with
  | nil => simp [Memory.wf]
  | cons c t ih =>
    cases t with
    | nil => simp [Memory.wf]
    | cons d t =>
      simp only [Memory.wf, Bool.and_eq_true, bne_iff_ne, ne_eq, decide_eq_true_eq, ih, List.pairwise_cons, List.mem_cons, forall_eq_or_imp]
      constructor
      · rintro ⟨⟨hc, hd⟩, ⟨hl, hp⟩, hu, hr⟩
        exact ⟨⟨⟨hd, fun x hx => lt_trans hd (hl x hx)⟩, hl, hp⟩, hc, hu, hr⟩
      · rintro ⟨⟨⟨hd, _⟩, hl, hp⟩, hc, hu, hr⟩
        exact ⟨⟨hc, hd⟩, ⟨hl, hp⟩, hu, hr⟩

/-- Cells kept by a test stay canonical. -/
@[simp] theorem Memory.filter_wf (m : Memory) (p : Host.Cell → Bool) (h : m.wf = true) : Memory.wf (m.filter p) = true := by
  rw [Memory.wf_iff] at *
  exact ⟨h.1.filter _, fun c hc => h.2 c (List.mem_filter.1 hc).1⟩

@[simp] theorem Memory.clear_wf (m : Memory) (lo n : Nat) (h : m.wf = true) : (m.clear lo n).wf = true := Memory.filter_wf m _ h

theorem Memory.mem_drop {m : Memory} {a : Nat} {c : Host.Cell} (h : c ∈ m.drop a) : c ∈ m := by
  induction m with
  | nil => exact h
  | cons x t ih =>
    obtain ⟨k, w⟩ := x
    unfold Memory.drop at h
    split at h
    · exact h
    · split at h
      · exact List.mem_cons_of_mem _ h
      · rcases List.mem_cons.1 h with h | h
        · exact h ▸ List.mem_cons_self
        · exact List.mem_cons_of_mem _ (ih h)

@[simp] theorem Memory.drop_wf (m : Memory) (a : Nat) (h : m.wf = true) : (m.drop a).wf = true := by
  rw [Memory.wf_iff] at *
  refine ⟨?_, fun c hc => h.2 c (Memory.mem_drop hc)⟩
  replace h := h.1
  induction m with
  | nil => exact h
  | cons x t ih =>
    obtain ⟨k, w⟩ := x
    rw [List.pairwise_cons] at h
    unfold Memory.drop
    split
    · exact List.pairwise_cons.2 h
    · split
      · exact h.2
      · exact List.pairwise_cons.2 ⟨fun c hc => h.1 c (Memory.mem_drop hc), ih h.2⟩

theorem Memory.mem_ins {m : Memory} {a : Nat} {v : Byte} {c : Host.Cell} (h : c ∈ m.ins a v) : c = (a, v) ∨ c ∈ m := by
  induction m with
  | nil => exact .inl (List.mem_singleton.1 h)
  | cons x t ih =>
    obtain ⟨k, w⟩ := x
    unfold Memory.ins at h
    split at h
    · exact List.mem_cons.1 h
    · split at h
      · rcases List.mem_cons.1 h with h | h
        · exact .inl h
        · exact .inr (List.mem_cons_of_mem _ h)
      · rcases List.mem_cons.1 h with h | h
        · exact .inr (h ▸ List.mem_cons_self)
        · rcases ih h with h | h
          · exact .inl h
          · exact .inr (List.mem_cons_of_mem _ h)

theorem Memory.ins_wf (m : Memory) (a : Nat) (v : Byte) (hv : v ≠ Memory.unlisted) (h : m.wf = true) : (m.ins a v).wf = true := by
  rw [Memory.wf_iff] at *
  refine ⟨?_, fun c hc => ?_⟩
  · replace h := h.1
    induction m with
    | nil => exact List.pairwise_singleton _ _
    | cons x t ih =>
      obtain ⟨k, w⟩ := x
      rw [List.pairwise_cons] at h
      unfold Memory.ins
      split
      · rename_i hk
        refine List.pairwise_cons.2 ⟨fun c hc => ?_, List.pairwise_cons.2 h⟩
        rcases List.mem_cons.1 hc with hc | hc
        · rw [hc]; exact hk
        · exact lt_trans hk (h.1 c hc)
      · split
        · rename_i hk
          exact List.pairwise_cons.2 ⟨fun c hc => by rw [hk]; exact h.1 c hc, h.2⟩
        · rename_i h1 h2
          refine List.pairwise_cons.2 ⟨fun c hc => ?_, ih h.2⟩
          rcases Memory.mem_ins hc with hc | hc
          · rw [hc]; show k < a; omega
          · exact h.1 c hc
  · rcases Memory.mem_ins hc with hc | hc
    · rw [hc]; exact hv
    · exact h.2 c hc

/-- Writing a byte keeps the canonical form. -/
@[simp] theorem Memory.write_wf (m : Memory) (a : Nat) (v : Byte) (h : m.wf = true) : (m.write a v).wf = true := by
  unfold Memory.write
  split
  · exact Memory.drop_wf m a h
  · rename_i hv; exact Memory.ins_wf m a v hv h

/-- Writing bytes keeps the canonical form. -/
@[simp] theorem Memory.writeBytes_wf (m : Memory) (a : Nat) (bs : List Byte) (h : m.wf = true) : (m.writeBytes a bs).wf = true := by
  induction bs generalizing m a with
  | nil => exact h
  | cons b bs ih => exact ih _ _ (Memory.write_wf m a b h)

/-! ## Reads after writes -/

theorem Memory.read_drop_other (m : Memory) (a x : Nat) (hx : x ≠ a) : (m.drop a).read x = m.read x := by
  induction m with
  | nil => rfl
  | cons c t ih =>
    obtain ⟨k, w⟩ := c
    unfold Memory.drop
    split
    · rfl
    · split
      · rename_i hk
        subst hk
        simp only [Memory.read, if_neg (Ne.symm hx)]
      · simp only [Memory.read, ih]

theorem Memory.read_ins_other (m : Memory) (a x : Nat) (v : Byte) (hx : x ≠ a) : (m.ins a v).read x = m.read x := by
  induction m with
  | nil => simp only [Memory.ins, Memory.read, if_neg (Ne.symm hx)]
  | cons c t ih =>
    obtain ⟨k, w⟩ := c
    unfold Memory.ins
    split
    · simp only [Memory.read, if_neg (Ne.symm hx)]
    · split
      · rename_i hk
        subst hk
        simp only [Memory.read, if_neg (Ne.symm hx)]
      · simp only [Memory.read, ih]

/-- A write leaves every other address as it is. -/
theorem Memory.read_write_other (m : Memory) (a x : Nat) (v : Byte) (hx : x ≠ a) : (m.write a v).read x = m.read x := by
  unfold Memory.write
  split
  · exact Memory.read_drop_other m a x hx
  · exact Memory.read_ins_other m a x v hx

/-- An address below every cell reads as unlisted. -/
theorem Memory.read_below (m : Memory) (a : Nat) (h : ∀ c ∈ m, a < c.1) : m.read a = Memory.unlisted := by
  induction m with
  | nil => rfl
  | cons c t ih =>
    obtain ⟨k, w⟩ := c
    have : a < k := h (k, w) List.mem_cons_self
    simp only [Memory.read, if_neg (show k ≠ a by omega)]
    exact ih (fun c hc => h c (List.mem_cons_of_mem _ hc))

theorem Memory.read_ins_self (m : Memory) (a : Nat) (v : Byte) : (m.ins a v).read a = v := by
  induction m with
  | nil => simp [Memory.ins, Memory.read]
  | cons c t ih =>
    obtain ⟨k, w⟩ := c
    unfold Memory.ins
    split
    · simp [Memory.read]
    · split
      · simp [Memory.read]
      · rename_i h1 h2
        simp only [Memory.read, if_neg (show k ≠ a by omega), ih]

theorem Memory.read_drop_self (m : Memory) (a : Nat) (h : m.wf = true) : (m.drop a).read a = Memory.unlisted := by
  rw [Memory.wf_iff] at h
  replace h := h.1
  induction m with
  | nil => rfl
  | cons c t ih =>
    obtain ⟨k, w⟩ := c
    rw [List.pairwise_cons] at h
    unfold Memory.drop
    split
    · rename_i hk
      refine Memory.read_below _ _ (fun c hc => ?_)
      rcases List.mem_cons.1 hc with hc | hc
      · rw [hc]; exact hk
      · exact lt_trans hk (h.1 c hc)
    · split
      · rename_i hk
        subst hk
        exact Memory.read_below _ _ h.1
      · rename_i h1 h2
        simp only [Memory.read, if_neg (show k ≠ a by omega)]
        exact ih h.2

/-- A byte reads back as it was written. -/
theorem Memory.read_write_self (m : Memory) (a : Nat) (v : Byte) (h : m.wf = true) : (m.write a v).read a = v := by
  unfold Memory.write
  split
  · rename_i hv; rw [hv]; exact Memory.read_drop_self m a h
  · exact Memory.read_ins_self m a v

/-- Written bytes leave every address outside them as it is. -/
theorem Memory.read_writeBytes_other (m : Memory) (a x : Nat) (bs : List Byte) (hx : x < a ∨ a + bs.length ≤ x) :
    (m.writeBytes a bs).read x = m.read x := by
  induction bs generalizing m a with
  | nil => rfl
  | cons b bs ih =>
    simp only [List.length_cons] at hx
    unfold Memory.writeBytes
    rw [ih _ _ (by omega), Memory.read_write_other _ _ _ _ (by omega)]

/-- Written bytes read back. -/
theorem Memory.readBytes_writeBytes (m : Memory) (a : Nat) (bs : List Byte) (h : m.wf = true) :
    (m.writeBytes a bs).readBytes a bs.length = bs := by
  induction bs generalizing m a with
  | nil => rfl
  | cons b bs ih =>
    simp only [List.length_cons, Memory.readBytes, Memory.writeBytes]
    rw [ih _ _ (Memory.write_wf m a b h), Memory.read_writeBytes_other _ _ _ _ (by omega), Memory.read_write_self m a b h]

end Sys2Proof.Machine
end

