-- ==== Sys2Proof/Laws/MemOk.lean ====
section
/-! SUPPORT. Every shared operation keeps the canonical form of stack memory, of the flash and of its buffer. -/

namespace Sys2Proof.Machine

@[simp] theorem mem_stack_ite (c : Prop) [Decidable c] (a b : MemSide) : (if c then a else b).stack = if c then a.stack else b.stack := by split <;> rfl
@[simp] theorem State.mem_stack_foldl {α : Type} (f : State → α → State) (h : ∀ u x, (f u x).mem.stack = u.mem.stack) (t : State) (xs : List α) :
    (xs.foldl f t).mem.stack = t.mem.stack := by
  induction xs generalizing t with
  | nil => rfl
  | cons x xs ih => rw [List.foldl_cons, ih, h]
@[simp] theorem State.mem_stack_wf_foldl {α : Type} (f : State → α → State) (h : ∀ u x, u.mem.stack.wf = true → (f u x).mem.stack.wf = true) (t : State) (xs : List α)
    (ht : t.mem.stack.wf = true) : (xs.foldl f t).mem.stack.wf = true := by
  induction xs generalizing t with
  | nil => exact ht
  | cons x xs ih => exact ih _ (h _ _ ht)
@[simp] theorem State.mem_stack_foldl_fst {α β : Type} (f : State × β → α → State × β) (h : ∀ t x, (f t x).1.mem.stack = t.1.mem.stack) (t : State × β) (xs : List α) :
    (xs.foldl f t).1.mem.stack = t.1.mem.stack := by
  induction xs generalizing t with
  | nil => rfl
  | cons x xs ih => rw [List.foldl_cons, ih, h]
@[simp] theorem State.mem_stack_wf_foldl_fst {α β : Type} (f : State × β → α → State × β) (h : ∀ t x, t.1.mem.stack.wf = true → (f t x).1.mem.stack.wf = true) (t : State × β) (xs : List α)
    (ht : t.1.mem.stack.wf = true) : (xs.foldl f t).1.mem.stack.wf = true := by
  induction xs generalizing t with
  | nil => exact ht
  | cons x xs ih => exact ih _ (h _ _ ht)
@[simp] theorem boot_flash_ite (c : Prop) [Decidable c] (a b : Boot) : (if c then a else b).flash = if c then a.flash else b.flash := by split <;> rfl
@[simp] theorem State.boot_flash_foldl {α : Type} (f : State → α → State) (h : ∀ u x, (f u x).boot.flash = u.boot.flash) (t : State) (xs : List α) :
    (xs.foldl f t).boot.flash = t.boot.flash := by
  induction xs generalizing t with
  | nil => rfl
  | cons x xs ih => rw [List.foldl_cons, ih, h]
@[simp] theorem State.boot_flash_wf_foldl {α : Type} (f : State → α → State) (h : ∀ u x, u.boot.flash.wf = true → (f u x).boot.flash.wf = true) (t : State) (xs : List α)
    (ht : t.boot.flash.wf = true) : (xs.foldl f t).boot.flash.wf = true := by
  induction xs generalizing t with
  | nil => exact ht
  | cons x xs ih => exact ih _ (h _ _ ht)
@[simp] theorem State.boot_flash_foldl_fst {α β : Type} (f : State × β → α → State × β) (h : ∀ t x, (f t x).1.boot.flash = t.1.boot.flash) (t : State × β) (xs : List α) :
    (xs.foldl f t).1.boot.flash = t.1.boot.flash := by
  induction xs generalizing t with
  | nil => rfl
  | cons x xs ih => rw [List.foldl_cons, ih, h]
@[simp] theorem State.boot_flash_wf_foldl_fst {α β : Type} (f : State × β → α → State × β) (h : ∀ t x, t.1.boot.flash.wf = true → (f t x).1.boot.flash.wf = true) (t : State × β) (xs : List α)
    (ht : t.1.boot.flash.wf = true) : (xs.foldl f t).1.boot.flash.wf = true := by
  induction xs generalizing t with
  | nil => exact ht
  | cons x xs ih => exact ih _ (h _ _ ht)
@[simp] theorem boot_flashBuf_ite (c : Prop) [Decidable c] (a b : Boot) : (if c then a else b).flashBuf = if c then a.flashBuf else b.flashBuf := by split <;> rfl
@[simp] theorem State.boot_flashBuf_foldl {α : Type} (f : State → α → State) (h : ∀ u x, (f u x).boot.flashBuf = u.boot.flashBuf) (t : State) (xs : List α) :
    (xs.foldl f t).boot.flashBuf = t.boot.flashBuf := by
  induction xs generalizing t with
  | nil => rfl
  | cons x xs ih => rw [List.foldl_cons, ih, h]
@[simp] theorem State.boot_flashBuf_wf_foldl {α : Type} (f : State → α → State) (h : ∀ u x, u.boot.flashBuf.wf = true → (f u x).boot.flashBuf.wf = true) (t : State) (xs : List α)
    (ht : t.boot.flashBuf.wf = true) : (xs.foldl f t).boot.flashBuf.wf = true := by
  induction xs generalizing t with
  | nil => exact ht
  | cons x xs ih => exact ih _ (h _ _ ht)
@[simp] theorem State.boot_flashBuf_foldl_fst {α β : Type} (f : State × β → α → State × β) (h : ∀ t x, (f t x).1.boot.flashBuf = t.1.boot.flashBuf) (t : State × β) (xs : List α) :
    (xs.foldl f t).1.boot.flashBuf = t.1.boot.flashBuf := by
  induction xs generalizing t with
  | nil => rfl
  | cons x xs ih => rw [List.foldl_cons, ih, h]
@[simp] theorem State.boot_flashBuf_wf_foldl_fst {α β : Type} (f : State × β → α → State × β) (h : ∀ t x, t.1.boot.flashBuf.wf = true → (f t x).1.boot.flashBuf.wf = true) (t : State × β) (xs : List α)
    (ht : t.1.boot.flashBuf.wf = true) : (xs.foldl f t).1.boot.flashBuf.wf = true := by
  induction xs generalizing t with
  | nil => exact ht
  | cons x xs ih => exact ih _ (h _ _ ht)
@[simp] theorem Memory.wf_ite (c : Prop) [Decidable c] (a b : Memory) : Memory.wf (if c then a else b) = if c then a.wf else b.wf := by split <;> rfl
@[simp] theorem State.setVer_kept (a0 : State) (a1 : Nat) (a2 : VerEnt) :
    (State.setVer a0 a1 a2).mem.stack = a0.mem.stack := by
  unfold State.setVer; (repeat' split) <;> simp
@[simp] theorem State.modVer_kept (a0 : State) (a1 : Nat) (a2 : VerEnt → VerEnt) :
    (State.modVer a0 a1 a2).mem.stack = a0.mem.stack := by
  unfold State.modVer; (repeat' split) <;> simp
@[simp] theorem State.withdraw_kept (a0 : State) (a1 : Nat) (a2 : StkCmd → Bool) :
    (State.withdraw a0 a1 a2).mem.stack = a0.mem.stack := by
  unfold State.withdraw; (repeat' split) <;> simp
@[simp] theorem State.forceStop_kept (a0 : State) (a1 : Nat) :
    (State.forceStop a0 a1).mem.stack = a0.mem.stack := by
  unfold State.forceStop; (repeat' split) <;> simp
@[simp] theorem State.stackStore_wf_mem_stack (a0 : State) (a1 : Nat) (a2 : List Byte) (a3 : Nat → Bool)  (hw : a0.mem.stack.wf = true) :
    (State.stackStore a0 a1 a2 a3).mem.stack.wf = true := by
  unfold State.stackStore; (repeat' split) <;> simp_all (maxDischargeDepth := 30)
@[simp] theorem State.stackPut_wf_mem_stack (a0 : State) (a1 : Nat) (a2 : List Byte) (a3 : Nat → Bool)  (hw : a0.mem.stack.wf = true) :
    (State.stackPut a0 a1 a2 a3).mem.stack.wf = true := by
  unfold State.stackPut; (repeat' split) <;> simp_all (maxDischargeDepth := 30)
@[simp] theorem State.wmWrite_wf_mem_stack (a0 : State) (a1 : Nat) (a2 : Nat)  (hw : a0.mem.stack.wf = true) :
    (State.wmWrite a0 a1 a2).mem.stack.wf = true := by
  unfold State.wmWrite; (repeat' split) <;> simp_all (maxDischargeDepth := 30)
@[simp] theorem State.sheetOver_wf_mem_stack (a0 : State) (a1 : Nat) (a2 : Nat)  (hw : a0.mem.stack.wf = true) :
    (State.sheetOver a0 a1 a2).mem.stack.wf = true := by
  unfold State.sheetOver; (repeat' split) <;> simp_all (maxDischargeDepth := 30)
@[simp] theorem State.abortSheet_wf_mem_stack (a0 : State) (a1 : Nat)  (hw : a0.mem.stack.wf = true) :
    (State.abortSheet a0 a1).mem.stack.wf = true := by
  unfold State.abortSheet; (repeat' split) <;> simp_all (maxDischargeDepth := 30)
@[simp] theorem State.byHost_kept_mem_stack (a0 : State) (a1 : Who) (a2 : Nat) (a3 : Prod State Nat) (h3 : a3.1.mem.stack = a0.mem.stack) :
    (State.byHost a0 a1 a2 a3).1.mem.stack = a0.mem.stack := by
  unfold State.byHost; (repeat' split) <;> simp_all
@[simp] theorem State.byHost_kept_boot_flash (a0 : State) (a1 : Who) (a2 : Nat) (a3 : Prod State Nat) (h3 : a3.1.boot.flash = a0.boot.flash) :
    (State.byHost a0 a1 a2 a3).1.boot.flash = a0.boot.flash := by
  unfold State.byHost; (repeat' split) <;> simp_all
@[simp] theorem State.byHost_kept_boot_flashBuf (a0 : State) (a1 : Who) (a2 : Nat) (a3 : Prod State Nat)
      (h3 : a3.1.boot.flashBuf = a0.boot.flashBuf) :
    (State.byHost a0 a1 a2 a3).1.boot.flashBuf = a0.boot.flashBuf := by
  unfold State.byHost; (repeat' split) <;> simp_all
@[simp] theorem State.byHost_wf_mem_stack (a0 : State) (a1 : Who) (a2 : Nat) (a3 : Prod State Nat) (h3 : a3.1.mem.stack.wf = true)
      (hw : a0.mem.stack.wf = true) :
    (State.byHost a0 a1 a2 a3).1.mem.stack.wf = true := by
  unfold State.byHost; (repeat' split) <;> simp_all (maxDischargeDepth := 30)
@[simp] theorem State.byHost_wf_boot_flash (a0 : State) (a1 : Who) (a2 : Nat) (a3 : Prod State Nat) (h3 : a3.1.boot.flash.wf = true)
      (hw : a0.boot.flash.wf = true) :
    (State.byHost a0 a1 a2 a3).1.boot.flash.wf = true := by
  unfold State.byHost; (repeat' split) <;> simp_all (maxDischargeDepth := 30)
@[simp] theorem State.byHost_wf_boot_flashBuf (a0 : State) (a1 : Who) (a2 : Nat) (a3 : Prod State Nat) (h3 : a3.1.boot.flashBuf.wf = true)
      (hw : a0.boot.flashBuf.wf = true) :
    (State.byHost a0 a1 a2 a3).1.boot.flashBuf.wf = true := by
  unfold State.byHost; (repeat' split) <;> simp_all (maxDischargeDepth := 30)
@[simp] theorem State.onlyIf_kept_mem_stack (a0 : State) (a1 : Who) (a2 : Nat) (a3 : Bool) (a4 : Nat) (a5 : Prod State Nat)
      (h5 : a5.1.mem.stack = a0.mem.stack) :
    (State.onlyIf a0 a1 a2 a3 a4 a5).1.mem.stack = a0.mem.stack := by
  unfold State.onlyIf; (repeat' split) <;> simp_all
@[simp] theorem State.onlyIf_kept_boot_flash (a0 : State) (a1 : Who) (a2 : Nat) (a3 : Bool) (a4 : Nat) (a5 : Prod State Nat)
      (h5 : a5.1.boot.flash = a0.boot.flash) :
    (State.onlyIf a0 a1 a2 a3 a4 a5).1.boot.flash = a0.boot.flash := by
  unfold State.onlyIf; (repeat' split) <;> simp_all
@[simp] theorem State.onlyIf_kept_boot_flashBuf (a0 : State) (a1 : Who) (a2 : Nat) (a3 : Bool) (a4 : Nat) (a5 : Prod State Nat)
      (h5 : a5.1.boot.flashBuf = a0.boot.flashBuf) :
    (State.onlyIf a0 a1 a2 a3 a4 a5).1.boot.flashBuf = a0.boot.flashBuf := by
  unfold State.onlyIf; (repeat' split) <;> simp_all
@[simp] theorem State.onlyIf_wf_mem_stack (a0 : State) (a1 : Who) (a2 : Nat) (a3 : Bool) (a4 : Nat) (a5 : Prod State Nat)
      (h5 : a5.1.mem.stack.wf = true) (hw : a0.mem.stack.wf = true) :
    (State.onlyIf a0 a1 a2 a3 a4 a5).1.mem.stack.wf = true := by
  unfold State.onlyIf; (repeat' split) <;> simp_all (maxDischargeDepth := 30)
@[simp] theorem State.onlyIf_wf_boot_flash (a0 : State) (a1 : Who) (a2 : Nat) (a3 : Bool) (a4 : Nat) (a5 : Prod State Nat)
      (h5 : a5.1.boot.flash.wf = true) (hw : a0.boot.flash.wf = true) :
    (State.onlyIf a0 a1 a2 a3 a4 a5).1.boot.flash.wf = true := by
  unfold State.onlyIf; (repeat' split) <;> simp_all (maxDischargeDepth := 30)
@[simp] theorem State.onlyIf_wf_boot_flashBuf (a0 : State) (a1 : Who) (a2 : Nat) (a3 : Bool) (a4 : Nat) (a5 : Prod State Nat)
      (h5 : a5.1.boot.flashBuf.wf = true) (hw : a0.boot.flashBuf.wf = true) :
    (State.onlyIf a0 a1 a2 a3 a4 a5).1.boot.flashBuf.wf = true := by
  unfold State.onlyIf; (repeat' split) <;> simp_all (maxDischargeDepth := 30)
@[simp] theorem State.shareSet_kept_mem_stack (a0 : State) (a1 : Who) (a2 : Nat) (a3 : Bool) (a4 : State) (h4 : a4.mem.stack = a0.mem.stack) :
    (State.shareSet a0 a1 a2 a3 a4).1.mem.stack = a0.mem.stack := by
  unfold State.shareSet; (repeat' split) <;> simp_all
@[simp] theorem State.shareSet_kept_boot_flash (a0 : State) (a1 : Who) (a2 : Nat) (a3 : Bool) (a4 : State) (h4 : a4.boot.flash = a0.boot.flash) :
    (State.shareSet a0 a1 a2 a3 a4).1.boot.flash = a0.boot.flash := by
  unfold State.shareSet; (repeat' split) <;> simp_all
@[simp] theorem State.shareSet_kept_boot_flashBuf (a0 : State) (a1 : Who) (a2 : Nat) (a3 : Bool) (a4 : State)
      (h4 : a4.boot.flashBuf = a0.boot.flashBuf) :
    (State.shareSet a0 a1 a2 a3 a4).1.boot.flashBuf = a0.boot.flashBuf := by
  unfold State.shareSet; (repeat' split) <;> simp_all
@[simp] theorem State.shareSet_wf_mem_stack (a0 : State) (a1 : Who) (a2 : Nat) (a3 : Bool) (a4 : State) (h4 : a4.mem.stack.wf = true)
      (hw : a0.mem.stack.wf = true) :
    (State.shareSet a0 a1 a2 a3 a4).1.mem.stack.wf = true := by
  unfold State.shareSet; (repeat' split) <;> simp_all (maxDischargeDepth := 30)
@[simp] theorem State.shareSet_wf_boot_flash (a0 : State) (a1 : Who) (a2 : Nat) (a3 : Bool) (a4 : State) (h4 : a4.boot.flash.wf = true)
      (hw : a0.boot.flash.wf = true) :
    (State.shareSet a0 a1 a2 a3 a4).1.boot.flash.wf = true := by
  unfold State.shareSet; (repeat' split) <;> simp_all (maxDischargeDepth := 30)
@[simp] theorem State.shareSet_wf_boot_flashBuf (a0 : State) (a1 : Who) (a2 : Nat) (a3 : Bool) (a4 : State) (h4 : a4.boot.flashBuf.wf = true)
      (hw : a0.boot.flashBuf.wf = true) :
    (State.shareSet a0 a1 a2 a3 a4).1.boot.flashBuf.wf = true := by
  unfold State.shareSet; (repeat' split) <;> simp_all (maxDischargeDepth := 30)
@[simp] theorem State.acctWrite_wf_mem_stack (a0 : State) (a1 : Nat) (a2 : Nat) (a3 : W64)  (hw : a0.mem.stack.wf = true) :
    (State.acctWrite a0 a1 a2 a3).mem.stack.wf = true := by
  unfold State.acctWrite; (repeat' split) <;> simp_all (maxDischargeDepth := 30)
@[simp] theorem State.setStk_kept (a0 : State) (a1 : Nat) (a2 : Stk) :
    (State.setStk a0 a1 a2).mem.stack = a0.mem.stack := by
  unfold State.setStk; (repeat' split) <;> simp
@[simp] theorem State.modStk_kept (a0 : State) (a1 : Nat) (a2 : Stk → Stk) :
    (State.modStk a0 a1 a2).mem.stack = a0.mem.stack := by
  unfold State.modStk; (repeat' split) <;> simp
@[simp] theorem State.noteBlock_kept (a0 : MemSide) (a1 : Option Nat) (a2 : Nat) (a3 : Nat) (a4 : State) (a5 : Nat) :
    (State.noteBlock a0 a1 a2 a3 a4 a5).mem.stack = a4.mem.stack := by
  unfold State.noteBlock; dsimp only; (repeat' (split <;> try dsimp only)) <;> simp_all
@[simp] theorem State.noteStack_kept (a0 : State) (a1 : Option Nat) (a2 : Nat) (a3 : Nat) :
    (State.noteStack a0 a1 a2 a3).mem.stack = a0.mem.stack := by
  unfold State.noteStack; (repeat' split) <;> simp
@[simp] theorem State.advClose1_wf_mem_stack (a0 : State) (a1 : Nat) (a2 : Nat)  (hw : a0.mem.stack.wf = true) :
    (State.advClose1 a0 a1 a2).mem.stack.wf = true := by
  unfold State.advClose1; dsimp only; (repeat' (split <;> try dsimp only)) <;> simp_all (maxDischargeDepth := 30)
@[simp] theorem execAdvClose_wf_mem_stack (a0 : Nat) (a1 : Nat) (a2 : State)  (hw : a2.mem.stack.wf = true) :
    (resState a2 (execAdvClose a0 a1 a2)).mem.stack.wf = true := by
  unfold execAdvClose; (repeat' split) <;> simp_all (maxDischargeDepth := 30)
@[simp] theorem execAdvLoad_kept (a0 : Nat) (a1 : Nat) (a2 : State) :
    (resState a2 (execAdvLoad a0 a1 a2)).mem.stack = a2.mem.stack := by
  unfold execAdvLoad; (repeat' split) <;> simp
@[simp] theorem State.advCtlWrite_wf_mem_stack (a0 : State) (a1 : Nat) (a2 : Nat)  (hw : a0.mem.stack.wf = true) :
    (State.advCtlWrite a0 a1 a2).mem.stack.wf = true := by
  unfold State.advCtlWrite; (repeat' split) <;> simp_all (maxDischargeDepth := 30)
@[simp] theorem State.byMgmt_kept_mem_stack (a0 : State) (a1 : Who) (a2 : Nat) (a3 : Prod State Nat) (h3 : a3.1.mem.stack = a0.mem.stack) :
    (State.byMgmt a0 a1 a2 a3).1.mem.stack = a0.mem.stack := by
  unfold State.byMgmt; (repeat' split) <;> simp_all
@[simp] theorem State.byMgmt_kept_boot_flash (a0 : State) (a1 : Who) (a2 : Nat) (a3 : Prod State Nat) (h3 : a3.1.boot.flash = a0.boot.flash) :
    (State.byMgmt a0 a1 a2 a3).1.boot.flash = a0.boot.flash := by
  unfold State.byMgmt; (repeat' split) <;> simp_all
@[simp] theorem State.byMgmt_kept_boot_flashBuf (a0 : State) (a1 : Who) (a2 : Nat) (a3 : Prod State Nat)
      (h3 : a3.1.boot.flashBuf = a0.boot.flashBuf) :
    (State.byMgmt a0 a1 a2 a3).1.boot.flashBuf = a0.boot.flashBuf := by
  unfold State.byMgmt; (repeat' split) <;> simp_all
@[simp] theorem State.byMgmt_wf_mem_stack (a0 : State) (a1 : Who) (a2 : Nat) (a3 : Prod State Nat) (h3 : a3.1.mem.stack.wf = true)
      (hw : a0.mem.stack.wf = true) :
    (State.byMgmt a0 a1 a2 a3).1.mem.stack.wf = true := by
  unfold State.byMgmt; (repeat' split) <;> simp_all (maxDischargeDepth := 30)
@[simp] theorem State.byMgmt_wf_boot_flash (a0 : State) (a1 : Who) (a2 : Nat) (a3 : Prod State Nat) (h3 : a3.1.boot.flash.wf = true)
      (hw : a0.boot.flash.wf = true) :
    (State.byMgmt a0 a1 a2 a3).1.boot.flash.wf = true := by
  unfold State.byMgmt; (repeat' split) <;> simp_all (maxDischargeDepth := 30)
@[simp] theorem State.byMgmt_wf_boot_flashBuf (a0 : State) (a1 : Who) (a2 : Nat) (a3 : Prod State Nat) (h3 : a3.1.boot.flashBuf.wf = true)
      (hw : a0.boot.flashBuf.wf = true) :
    (State.byMgmt a0 a1 a2 a3).1.boot.flashBuf.wf = true := by
  unfold State.byMgmt; (repeat' split) <;> simp_all (maxDischargeDepth := 30)
@[simp] theorem State.instr_kept_mem_stack (a0 : State) (a1 : Nat) (a2 : Guard) (a3 : W32) (a4 : Ctl → State)
      (h4 : ∀ k, (a4 k).mem.stack = a0.mem.stack) :
    (State.instr a0 a1 a2 a3 a4).mem.stack = a0.mem.stack := by
  unfold State.instr; (repeat' split) <;> simp_all
@[simp] theorem State.instr_kept_boot_flash (a0 : State) (a1 : Nat) (a2 : Guard) (a3 : W32) (a4 : Ctl → State)
      (h4 : ∀ k, (a4 k).boot.flash = a0.boot.flash) :
    (State.instr a0 a1 a2 a3 a4).boot.flash = a0.boot.flash := by
  unfold State.instr; (repeat' split) <;> simp_all
@[simp] theorem State.instr_kept_boot_flashBuf (a0 : State) (a1 : Nat) (a2 : Guard) (a3 : W32) (a4 : Ctl → State)
      (h4 : ∀ k, (a4 k).boot.flashBuf = a0.boot.flashBuf) :
    (State.instr a0 a1 a2 a3 a4).boot.flashBuf = a0.boot.flashBuf := by
  unfold State.instr; (repeat' split) <;> simp_all
@[simp] theorem State.instr_wf_mem_stack (a0 : State) (a1 : Nat) (a2 : Guard) (a3 : W32) (a4 : Ctl → State) (h4 : ∀ k, (a4 k).mem.stack.wf = true)
      (hw : a0.mem.stack.wf = true) :
    (State.instr a0 a1 a2 a3 a4).mem.stack.wf = true := by
  unfold State.instr; (repeat' split) <;> simp_all (maxDischargeDepth := 30)
@[simp] theorem State.instr_wf_boot_flash (a0 : State) (a1 : Nat) (a2 : Guard) (a3 : W32) (a4 : Ctl → State)
      (h4 : ∀ k, (a4 k).boot.flash.wf = true) (hw : a0.boot.flash.wf = true) :
    (State.instr a0 a1 a2 a3 a4).boot.flash.wf = true := by
  unfold State.instr; (repeat' split) <;> simp_all (maxDischargeDepth := 30)
@[simp] theorem State.instr_wf_boot_flashBuf (a0 : State) (a1 : Nat) (a2 : Guard) (a3 : W32) (a4 : Ctl → State)
      (h4 : ∀ k, (a4 k).boot.flashBuf.wf = true) (hw : a0.boot.flashBuf.wf = true) :
    (State.instr a0 a1 a2 a3 a4).boot.flashBuf.wf = true := by
  unfold State.instr; (repeat' split) <;> simp_all (maxDischargeDepth := 30)
@[simp] theorem State.applyRecord_kept (a0 : State) (a1 : Nat) (a2 : Nat) (a3 : List Byte) :
    (State.applyRecord a0 a1 a2 a3).mem.stack = a0.mem.stack := by
  unfold State.applyRecord; (repeat' split) <;> simp
@[simp] theorem State.applyItem_wf_mem_stack (a0 : State) (a1 : Nat) (a2 : LogItem)  (hw : a0.mem.stack.wf = true) :
    (State.applyItem a0 a1 a2).mem.stack.wf = true := by
  unfold State.applyItem; (repeat' split) <;> simp_all (maxDischargeDepth := 30)
@[simp] theorem State.devWipe_kept (a0 : State) :
    (State.devWipe a0).boot.flash = a0.boot.flash := by
  unfold State.devWipe; (repeat' split) <;> simp
@[simp] theorem State.devWipe_wf_mem_stack (a0 : State)  (hw : a0.mem.stack.wf = true) :
    (State.devWipe a0).mem.stack.wf = true := by
  unfold State.devWipe; (repeat' split) <;> simp (maxDischargeDepth := 30)
@[simp] theorem State.devWipe_wf_boot_flashBuf (a0 : State)  (hw : a0.boot.flashBuf.wf = true) :
    (State.devWipe a0).boot.flashBuf.wf = true := by
  unfold State.devWipe; (repeat' split) <;> simp (maxDischargeDepth := 30)
@[simp] theorem State.coldWipe_kept (a0 : State) (a1 : Bool) :
    (State.coldWipe a0 a1).boot.flash = a0.boot.flash := by
  unfold State.coldWipe; (repeat' split) <;> simp
@[simp] theorem State.coldWipe_wf_mem_stack (a0 : State) (a1 : Bool)  (hw : a0.mem.stack.wf = true) :
    (State.coldWipe a0 a1).mem.stack.wf = true := by
  unfold State.coldWipe; (repeat' split) <;> simp (maxDischargeDepth := 30)
@[simp] theorem State.coldWipe_wf_boot_flashBuf (a0 : State) (a1 : Bool)  (hw : a0.boot.flashBuf.wf = true) :
    (State.coldWipe a0 a1).boot.flashBuf.wf = true := by
  unfold State.coldWipe; (repeat' split) <;> simp (maxDischargeDepth := 30)
@[simp] theorem State.applyReset_kept (a0 : State) (a1 : RstKind) :
    (State.applyReset a0 a1).boot.flash = a0.boot.flash := by
  unfold State.applyReset; (repeat' split) <;> simp
@[simp] theorem State.applyReset_wf_mem_stack (a0 : State) (a1 : RstKind)  (hw : a0.mem.stack.wf = true) :
    (State.applyReset a0 a1).mem.stack.wf = true := by
  unfold State.applyReset; (repeat' split) <;> simp_all (maxDischargeDepth := 30)
@[simp] theorem State.applyReset_wf_boot_flashBuf (a0 : State) (a1 : RstKind)  (hw : a0.boot.flashBuf.wf = true) :
    (State.applyReset a0 a1).boot.flashBuf.wf = true := by
  unfold State.applyReset; (repeat' split) <;> simp_all (maxDischargeDepth := 30)
@[simp] theorem State.askReset_kept (a0 : State) (a1 : RstKind) (a2 : Nat) :
    (State.askReset a0 a1 a2).boot.flash = a0.boot.flash ∧ (State.askReset a0 a1 a2).boot.flashBuf = a0.boot.flashBuf := by
  unfold State.askReset; (repeat' split) <;> simp
@[simp] theorem State.command_kept_mem_stack (a0 : State) (a1 : Src) (a2 : Nat) (a3 : Nat) (a4 : State → Caller → State)
      (h4 : ∀ u x, (a4 u x).mem.stack = u.mem.stack) :
    (State.command a0 a1 a2 a3 a4).mem.stack = a0.mem.stack := by
  unfold State.command; (repeat' split) <;> simp_all
@[simp] theorem State.command_kept_boot_flash (a0 : State) (a1 : Src) (a2 : Nat) (a3 : Nat) (a4 : State → Caller → State)
      (h4 : ∀ u x, (a4 u x).boot.flash = u.boot.flash) :
    (State.command a0 a1 a2 a3 a4).boot.flash = a0.boot.flash := by
  unfold State.command; (repeat' split) <;> simp_all
@[simp] theorem State.command_kept_boot_flashBuf (a0 : State) (a1 : Src) (a2 : Nat) (a3 : Nat) (a4 : State → Caller → State)
      (h4 : ∀ u x, (a4 u x).boot.flashBuf = u.boot.flashBuf) :
    (State.command a0 a1 a2 a3 a4).boot.flashBuf = a0.boot.flashBuf := by
  unfold State.command; (repeat' split) <;> simp_all
@[simp] theorem State.command_wf_mem_stack (a0 : State) (a1 : Src) (a2 : Nat) (a3 : Nat) (a4 : State → Caller → State)
      (h4 : ∀ u x, u.mem.stack.wf = true → (a4 u x).mem.stack.wf = true) (hw : a0.mem.stack.wf = true) :
    (State.command a0 a1 a2 a3 a4).mem.stack.wf = true := by
  unfold State.command; (repeat' split) <;> simp_all (maxDischargeDepth := 30)
@[simp] theorem State.command_wf_boot_flash (a0 : State) (a1 : Src) (a2 : Nat) (a3 : Nat) (a4 : State → Caller → State)
      (h4 : ∀ u x, u.boot.flash.wf = true → (a4 u x).boot.flash.wf = true) (hw : a0.boot.flash.wf = true) :
    (State.command a0 a1 a2 a3 a4).boot.flash.wf = true := by
  unfold State.command; (repeat' split) <;> simp_all (maxDischargeDepth := 30)
@[simp] theorem State.command_wf_boot_flashBuf (a0 : State) (a1 : Src) (a2 : Nat) (a3 : Nat) (a4 : State → Caller → State)
      (h4 : ∀ u x, u.boot.flashBuf.wf = true → (a4 u x).boot.flashBuf.wf = true) (hw : a0.boot.flashBuf.wf = true) :
    (State.command a0 a1 a2 a3 a4).boot.flashBuf.wf = true := by
  unfold State.command; (repeat' split) <;> simp_all (maxDischargeDepth := 30)
@[simp] theorem State.stepFrom_kept_mem_stack (a0 : State) (a1 : Nat) (a2 : Src) (a3 : Nat) (a4 : State → Caller → State)
      (h4 : ∀ u x, (a4 u x).mem.stack = u.mem.stack) :
    (State.stepFrom a0 a1 a2 a3 a4).mem.stack = a0.mem.stack := by
  unfold State.stepFrom; first | (simp; done) | (apply State.command_kept_mem_stack <;> (intros; (first | (simp; done) | (simp_all; done) | (dsimp only; (repeat' (split <;> try dsimp only)) <;> simp_all; done) | ((repeat' split) <;> simp_all; done))); done) | ((repeat' split) <;> first | (simp; done) | (simp_all; done) | (apply State.command_kept_mem_stack <;> (intros; (first | (simp; done) | (simp_all; done) | (dsimp only; (repeat' (split <;> try dsimp only)) <;> simp_all; done) | ((repeat' split) <;> simp_all; done))); done))
@[simp] theorem State.stepFrom_kept_boot_flash (a0 : State) (a1 : Nat) (a2 : Src) (a3 : Nat) (a4 : State → Caller → State)
      (h4 : ∀ u x, (a4 u x).boot.flash = u.boot.flash) :
    (State.stepFrom a0 a1 a2 a3 a4).boot.flash = a0.boot.flash := by
  unfold State.stepFrom; first | (simp; done) | (apply State.command_kept_boot_flash <;> (intros; (first | (simp; done) | (simp_all; done) | (dsimp only; (repeat' (split <;> try dsimp only)) <;> simp_all; done) | ((repeat' split) <;> simp_all; done))); done) | ((repeat' split) <;> first | (simp; done) | (simp_all; done) | (apply State.command_kept_boot_flash <;> (intros; (first | (simp; done) | (simp_all; done) | (dsimp only; (repeat' (split <;> try dsimp only)) <;> simp_all; done) | ((repeat' split) <;> simp_all; done))); done))
@[simp] theorem State.stepFrom_kept_boot_flashBuf (a0 : State) (a1 : Nat) (a2 : Src) (a3 : Nat) (a4 : State → Caller → State)
      (h4 : ∀ u x, (a4 u x).boot.flashBuf = u.boot.flashBuf) :
    (State.stepFrom a0 a1 a2 a3 a4).boot.flashBuf = a0.boot.flashBuf := by
  unfold State.stepFrom; first | (simp; done) | (apply State.command_kept_boot_flashBuf <;> (intros; (first | (simp; done) | (simp_all; done) | (dsimp only; (repeat' (split <;> try dsimp only)) <;> simp_all; done) | ((repeat' split) <;> simp_all; done))); done) | ((repeat' split) <;> first | (simp; done) | (simp_all; done) | (apply State.command_kept_boot_flashBuf <;> (intros; (first | (simp; done) | (simp_all; done) | (dsimp only; (repeat' (split <;> try dsimp only)) <;> simp_all; done) | ((repeat' split) <;> simp_all; done))); done))
@[simp] theorem State.stepFrom_wf_mem_stack (a0 : State) (a1 : Nat) (a2 : Src) (a3 : Nat) (a4 : State → Caller → State)
      (h4 : ∀ u x, u.mem.stack.wf = true → (a4 u x).mem.stack.wf = true) (hw : a0.mem.stack.wf = true) :
    (State.stepFrom a0 a1 a2 a3 a4).mem.stack.wf = true := by
  unfold State.stepFrom; first | (simp (maxDischargeDepth := 30); done) | (apply State.command_wf_mem_stack <;> (intros; (first | (simp (maxDischargeDepth := 30); done) | (simp_all (maxDischargeDepth := 30); done) | (dsimp only; (repeat' (split <;> try dsimp only)) <;> simp_all (maxDischargeDepth := 30); done) | ((repeat' split) <;> simp_all (maxDischargeDepth := 30); done))); done) | ((repeat' split) <;> first | (simp (maxDischargeDepth := 30); done) | (simp_all (maxDischargeDepth := 30); done) | (apply State.command_wf_mem_stack <;> (intros; (first | (simp (maxDischargeDepth := 30); done) | (simp_all (maxDischargeDepth := 30); done) | (dsimp only; (repeat' (split <;> try dsimp only)) <;> simp_all (maxDischargeDepth := 30); done) | ((repeat' split) <;> simp_all (maxDischargeDepth := 30); done))); done))
@[simp] theorem State.stepFrom_wf_boot_flash (a0 : State) (a1 : Nat) (a2 : Src) (a3 : Nat) (a4 : State → Caller → State)
      (h4 : ∀ u x, u.boot.flash.wf = true → (a4 u x).boot.flash.wf = true) (hw : a0.boot.flash.wf = true) :
    (State.stepFrom a0 a1 a2 a3 a4).boot.flash.wf = true := by
  unfold State.stepFrom; first | (simp (maxDischargeDepth := 30); done) | (apply State.command_wf_boot_flash <;> (intros; (first | (simp (maxDischargeDepth := 30); done) | (simp_all (maxDischargeDepth := 30); done) | (dsimp only; (repeat' (split <;> try dsimp only)) <;> simp_all (maxDischargeDepth := 30); done) | ((repeat' split) <;> simp_all (maxDischargeDepth := 30); done))); done) | ((repeat' split) <;> first | (simp (maxDischargeDepth := 30); done) | (simp_all (maxDischargeDepth := 30); done) | (apply State.command_wf_boot_flash <;> (intros; (first | (simp (maxDischargeDepth := 30); done) | (simp_all (maxDischargeDepth := 30); done) | (dsimp only; (repeat' (split <;> try dsimp only)) <;> simp_all (maxDischargeDepth := 30); done) | ((repeat' split) <;> simp_all (maxDischargeDepth := 30); done))); done))
@[simp] theorem State.stepFrom_wf_boot_flashBuf (a0 : State) (a1 : Nat) (a2 : Src) (a3 : Nat) (a4 : State → Caller → State)
      (h4 : ∀ u x, u.boot.flashBuf.wf = true → (a4 u x).boot.flashBuf.wf = true) (hw : a0.boot.flashBuf.wf = true) :
    (State.stepFrom a0 a1 a2 a3 a4).boot.flashBuf.wf = true := by
  unfold State.stepFrom; first | (simp (maxDischargeDepth := 30); done) | (apply State.command_wf_boot_flashBuf <;> (intros; (first | (simp (maxDischargeDepth := 30); done) | (simp_all (maxDischargeDepth := 30); done) | (dsimp only; (repeat' (split <;> try dsimp only)) <;> simp_all (maxDischargeDepth := 30); done) | ((repeat' split) <;> simp_all (maxDischargeDepth := 30); done))); done) | ((repeat' split) <;> first | (simp (maxDischargeDepth := 30); done) | (simp_all (maxDischargeDepth := 30); done) | (apply State.command_wf_boot_flashBuf <;> (intros; (first | (simp (maxDischargeDepth := 30); done) | (simp_all (maxDischargeDepth := 30); done) | (dsimp only; (repeat' (split <;> try dsimp only)) <;> simp_all (maxDischargeDepth := 30); done) | ((repeat' split) <;> simp_all (maxDischargeDepth := 30); done))); done))
@[simp] theorem State.stepGo_wf_mem_stack (a0 : State) (a1 : Nat) (a2 : Caller) (a3 : Bool)  (hw : a0.mem.stack.wf = true) :
    (State.stepGo a0 a1 a2 a3).mem.stack.wf = true := by
  unfold State.stepGo; extract_lets; split
  · simp only [State.stepRefuse_same, hw]
  · split
    · simp only [State.fireVat_same, State.stepRefuse_same, hw]
    · split
      · simp only [State.stepRefuse_same, hw]
      · split
        · exact State.stackPut_wf_mem_stack _ _ _ _ (State.stackPut_wf_mem_stack _ _ _ _ hw)
        · exact hw
@[simp] theorem execStep_wf_mem_stack (a0 : Nat) (a1 : Src) (a2 : State)  (hw : a2.mem.stack.wf = true) :
    (resState a2 (execStep a0 a1 a2)).mem.stack.wf = true := by
  unfold execStep; first | (simp (maxDischargeDepth := 30); done) | (rw [resState_next]; apply State.stepFrom_wf_mem_stack <;> (intros; (first | (simp (maxDischargeDepth := 30); done) | (simp_all (maxDischargeDepth := 30); done) | (dsimp only; (repeat' (split <;> try dsimp only)) <;> simp_all (maxDischargeDepth := 30); done) | ((repeat' split) <;> simp_all (maxDischargeDepth := 30); done))); done) | ((repeat' split) <;> first | (simp (maxDischargeDepth := 30); done) | (simp_all (maxDischargeDepth := 30); done) | (rw [resState_next]; apply State.stepFrom_wf_mem_stack <;> (intros; (first | (simp (maxDischargeDepth := 30); done) | (simp_all (maxDischargeDepth := 30); done) | (dsimp only; (repeat' (split <;> try dsimp only)) <;> simp_all (maxDischargeDepth := 30); done) | ((repeat' split) <;> simp_all (maxDischargeDepth := 30); done))); done))
@[simp] theorem execStepNoadv_wf_mem_stack (a0 : Nat) (a1 : Src) (a2 : State)  (hw : a2.mem.stack.wf = true) :
    (resState a2 (execStepNoadv a0 a1 a2)).mem.stack.wf = true := by
  unfold execStepNoadv; first | (simp (maxDischargeDepth := 30); done) | (rw [resState_next]; apply State.stepFrom_wf_mem_stack <;> (intros; (first | (simp (maxDischargeDepth := 30); done) | (simp_all (maxDischargeDepth := 30); done) | (dsimp only; (repeat' (split <;> try dsimp only)) <;> simp_all (maxDischargeDepth := 30); done) | ((repeat' split) <;> simp_all (maxDischargeDepth := 30); done))); done) | ((repeat' split) <;> first | (simp (maxDischargeDepth := 30); done) | (simp_all (maxDischargeDepth := 30); done) | (rw [resState_next]; apply State.stepFrom_wf_mem_stack <;> (intros; (first | (simp (maxDischargeDepth := 30); done) | (simp_all (maxDischargeDepth := 30); done) | (dsimp only; (repeat' (split <;> try dsimp only)) <;> simp_all (maxDischargeDepth := 30); done) | ((repeat' split) <;> simp_all (maxDischargeDepth := 30); done))); done))
@[simp] theorem State.batchCtlWrite_wf_mem_stack (a0 : State) (a1 : Who) (a2 : Nat) (a3 : Nat)  (hw : a0.mem.stack.wf = true) :
    (State.batchCtlWrite a0 a1 a2 a3).mem.stack.wf = true := by
  unfold State.batchCtlWrite; (repeat' split) <;> simp_all (maxDischargeDepth := 30)
@[simp] theorem State.bySeal_kept_mem_stack (a0 : State) (a1 : Who) (a2 : Nat) (a3 : Prod State Nat) (h3 : a3.1.mem.stack = a0.mem.stack) :
    (State.bySeal a0 a1 a2 a3).1.mem.stack = a0.mem.stack := by
  unfold State.bySeal; (repeat' split) <;> simp_all
@[simp] theorem State.bySeal_kept_boot_flash (a0 : State) (a1 : Who) (a2 : Nat) (a3 : Prod State Nat) (h3 : a3.1.boot.flash = a0.boot.flash) :
    (State.bySeal a0 a1 a2 a3).1.boot.flash = a0.boot.flash := by
  unfold State.bySeal; (repeat' split) <;> simp_all
@[simp] theorem State.bySeal_kept_boot_flashBuf (a0 : State) (a1 : Who) (a2 : Nat) (a3 : Prod State Nat)
      (h3 : a3.1.boot.flashBuf = a0.boot.flashBuf) :
    (State.bySeal a0 a1 a2 a3).1.boot.flashBuf = a0.boot.flashBuf := by
  unfold State.bySeal; (repeat' split) <;> simp_all
@[simp] theorem State.bySeal_wf_mem_stack (a0 : State) (a1 : Who) (a2 : Nat) (a3 : Prod State Nat) (h3 : a3.1.mem.stack.wf = true)
      (hw : a0.mem.stack.wf = true) :
    (State.bySeal a0 a1 a2 a3).1.mem.stack.wf = true := by
  unfold State.bySeal; (repeat' split) <;> simp_all (maxDischargeDepth := 30)
@[simp] theorem State.bySeal_wf_boot_flash (a0 : State) (a1 : Who) (a2 : Nat) (a3 : Prod State Nat) (h3 : a3.1.boot.flash.wf = true)
      (hw : a0.boot.flash.wf = true) :
    (State.bySeal a0 a1 a2 a3).1.boot.flash.wf = true := by
  unfold State.bySeal; (repeat' split) <;> simp_all (maxDischargeDepth := 30)
@[simp] theorem State.bySeal_wf_boot_flashBuf (a0 : State) (a1 : Who) (a2 : Nat) (a3 : Prod State Nat) (h3 : a3.1.boot.flashBuf.wf = true)
      (hw : a0.boot.flashBuf.wf = true) :
    (State.bySeal a0 a1 a2 a3).1.boot.flashBuf.wf = true := by
  unfold State.bySeal; (repeat' split) <;> simp_all (maxDischargeDepth := 30)
@[simp] theorem State.stopCounting_wf_mem_stack (a0 : State) (a1 : Nat)  (hw : a0.mem.stack.wf = true) :
    (State.stopCounting a0 a1).mem.stack.wf = true := by
  unfold State.stopCounting; (repeat' split) <;> simp_all (maxDischargeDepth := 30)
@[simp] theorem State.toFaulted_wf_mem_stack (a0 : State) (a1 : Nat)  (hw : a0.mem.stack.wf = true) :
    (State.toFaulted a0 a1).mem.stack.wf = true := by
  unfold State.toFaulted; (repeat' split) <;> simp_all (maxDischargeDepth := 30)
@[simp] theorem State.toWiping_wf_mem_stack (a0 : State) (a1 : Nat)  (hw : a0.mem.stack.wf = true) :
    (State.toWiping a0 a1).mem.stack.wf = true := by
  unfold State.toWiping; (repeat' split) <;> simp_all (maxDischargeDepth := 30)
@[simp] theorem State.fenceVat_wf_mem_stack (a0 : State) (a1 : Nat) (a2 : Bool)  (hw : a0.mem.stack.wf = true) :
    (State.fenceVat a0 a1 a2).mem.stack.wf = true := by
  unfold State.fenceVat; (repeat' split) <;> simp_all (maxDischargeDepth := 30)
@[simp] theorem State.fence_wf_mem_stack (a0 : State) (a1 : Nat)  (hw : a0.mem.stack.wf = true) :
    (State.fence a0 a1).mem.stack.wf = true := by
  unfold State.fence; dsimp only; (repeat' (split <;> try dsimp only)) <;> simp_all (maxDischargeDepth := 30)
@[simp] theorem State.fenceWrite_wf_mem_stack (a0 : State) (a1 : Who) (a2 : Nat)  (hw : a0.mem.stack.wf = true) :
    (State.fenceWrite a0 a1 a2).1.mem.stack.wf = true := by
  unfold State.fenceWrite; (repeat' split) <;> simp_all (maxDischargeDepth := 30)
@[simp] theorem State.modBoot_boot (s : State) (f : Boot → Boot) : (s.modBoot f).boot = f s.boot := rfl
@[simp] theorem State.fuseWrite_kept (a0 : State) (a1 : Who) (a2 : Nat) (a3 : Nat) (a4 : Nat) :
    (State.fuseWrite a0 a1 a2 a3 a4).1.boot.flash = a0.boot.flash ∧ (State.fuseWrite a0 a1 a2 a3 a4).1.boot.flashBuf = a0.boot.flashBuf := by
  unfold State.fuseWrite; (repeat' split) <;> simp
@[simp] theorem State.lcRequest_kept (a0 : State) (a1 : Who) (a2 : Nat) (a3 : List Byte) :
    (State.lcRequest a0 a1 a2 a3).1.boot.flash = a0.boot.flash ∧ (State.lcRequest a0 a1 a2 a3).1.boot.flashBuf = a0.boot.flashBuf := by
  unfold State.lcRequest; (repeat' split) <;> simp
@[simp] theorem State.resetWrite_kept (a0 : State) (a1 : Who) (a2 : Nat) :
    (State.resetWrite a0 a1 a2).1.boot.flash = a0.boot.flash ∧ (State.resetWrite a0 a1 a2).1.boot.flashBuf = a0.boot.flashBuf := by
  unfold State.resetWrite; (repeat' split) <;> simp
@[simp] theorem State.seal_kept (a0 : State) (a1 : Who) :
    (State.seal a0 a1).1.boot.flash = a0.boot.flash ∧ (State.seal a0 a1).1.boot.flashBuf = a0.boot.flashBuf := by
  unfold State.seal; (repeat' split) <;> simp
@[simp] theorem State.bootSlot_kept (a0 : State) (a1 : Nat) (a2 : Nat) :
    (State.bootSlot a0 a1 a2).2.boot.flash = a0.boot.flash ∧ (State.bootSlot a0 a1 a2).2.boot.flashBuf = a0.boot.flashBuf := by
  unfold State.bootSlot; (repeat' split) <;> simp
@[simp] theorem State.chanArrive_kept_mem_stack (a0 : State) (a1 : Nat) (a2 : Nat) (a3 : ChMsg) (a4 : State → State)
      (h4 : ∀ u, (a4 u).mem.stack = u.mem.stack) :
    (State.chanArrive a0 a1 a2 a3 a4).mem.stack = a0.mem.stack := by
  unfold State.chanArrive; (repeat' split) <;> simp_all
@[simp] theorem State.chanArrive_kept_boot_flash (a0 : State) (a1 : Nat) (a2 : Nat) (a3 : ChMsg) (a4 : State → State)
      (h4 : ∀ u, (a4 u).boot.flash = u.boot.flash) :
    (State.chanArrive a0 a1 a2 a3 a4).boot.flash = a0.boot.flash := by
  unfold State.chanArrive; (repeat' split) <;> simp_all
@[simp] theorem State.chanArrive_kept_boot_flashBuf (a0 : State) (a1 : Nat) (a2 : Nat) (a3 : ChMsg) (a4 : State → State)
      (h4 : ∀ u, (a4 u).boot.flashBuf = u.boot.flashBuf) :
    (State.chanArrive a0 a1 a2 a3 a4).boot.flashBuf = a0.boot.flashBuf := by
  unfold State.chanArrive; (repeat' split) <;> simp_all
@[simp] theorem State.chanArrive_wf_mem_stack (a0 : State) (a1 : Nat) (a2 : Nat) (a3 : ChMsg) (a4 : State → State)
      (h4 : ∀ u, u.mem.stack.wf = true → (a4 u).mem.stack.wf = true) (hw : a0.mem.stack.wf = true) :
    (State.chanArrive a0 a1 a2 a3 a4).mem.stack.wf = true := by
  unfold State.chanArrive; (repeat' split) <;> simp_all (maxDischargeDepth := 30)
@[simp] theorem State.chanArrive_wf_boot_flash (a0 : State) (a1 : Nat) (a2 : Nat) (a3 : ChMsg) (a4 : State → State)
      (h4 : ∀ u, u.boot.flash.wf = true → (a4 u).boot.flash.wf = true) (hw : a0.boot.flash.wf = true) :
    (State.chanArrive a0 a1 a2 a3 a4).boot.flash.wf = true := by
  unfold State.chanArrive; (repeat' split) <;> simp_all (maxDischargeDepth := 30)
@[simp] theorem State.chanArrive_wf_boot_flashBuf (a0 : State) (a1 : Nat) (a2 : Nat) (a3 : ChMsg) (a4 : State → State)
      (h4 : ∀ u, u.boot.flashBuf.wf = true → (a4 u).boot.flashBuf.wf = true) (hw : a0.boot.flashBuf.wf = true) :
    (State.chanArrive a0 a1 a2 a3 a4).boot.flashBuf.wf = true := by
  unfold State.chanArrive; (repeat' split) <;> simp_all (maxDischargeDepth := 30)
@[simp] theorem State.chnAccept_kept_mem_stack (a0 : State) (a1 : Nat) (a2 : Nat) (a3 : State → Nat → State)
      (h3 : ∀ u x, (a3 u x).mem.stack = u.mem.stack) :
    (State.chnAccept a0 a1 a2 a3).mem.stack = a0.mem.stack := by
  unfold State.chnAccept; (repeat' split) <;> simp_all
@[simp] theorem State.chnAccept_kept_boot_flash (a0 : State) (a1 : Nat) (a2 : Nat) (a3 : State → Nat → State)
      (h3 : ∀ u x, (a3 u x).boot.flash = u.boot.flash) :
    (State.chnAccept a0 a1 a2 a3).boot.flash = a0.boot.flash := by
  unfold State.chnAccept; (repeat' split) <;> simp_all
@[simp] theorem State.chnAccept_kept_boot_flashBuf (a0 : State) (a1 : Nat) (a2 : Nat) (a3 : State → Nat → State)
      (h3 : ∀ u x, (a3 u x).boot.flashBuf = u.boot.flashBuf) :
    (State.chnAccept a0 a1 a2 a3).boot.flashBuf = a0.boot.flashBuf := by
  unfold State.chnAccept; (repeat' split) <;> simp_all
@[simp] theorem State.chnAccept_wf_mem_stack (a0 : State) (a1 : Nat) (a2 : Nat) (a3 : State → Nat → State)
      (h3 : ∀ u x, u.mem.stack.wf = true → (a3 u x).mem.stack.wf = true) (hw : a0.mem.stack.wf = true) :
    (State.chnAccept a0 a1 a2 a3).mem.stack.wf = true := by
  unfold State.chnAccept; (repeat' split) <;> simp_all (maxDischargeDepth := 30)
@[simp] theorem State.chnAccept_wf_boot_flash (a0 : State) (a1 : Nat) (a2 : Nat) (a3 : State → Nat → State)
      (h3 : ∀ u x, u.boot.flash.wf = true → (a3 u x).boot.flash.wf = true) (hw : a0.boot.flash.wf = true) :
    (State.chnAccept a0 a1 a2 a3).boot.flash.wf = true := by
  unfold State.chnAccept; (repeat' split) <;> simp_all (maxDischargeDepth := 30)
@[simp] theorem State.chnAccept_wf_boot_flashBuf (a0 : State) (a1 : Nat) (a2 : Nat) (a3 : State → Nat → State)
      (h3 : ∀ u x, u.boot.flashBuf.wf = true → (a3 u x).boot.flashBuf.wf = true) (hw : a0.boot.flashBuf.wf = true) :
    (State.chnAccept a0 a1 a2 a3).boot.flashBuf.wf = true := by
  unfold State.chnAccept; (repeat' split) <;> simp_all (maxDischargeDepth := 30)
@[simp] theorem State.copyPut_wf_mem_stack (a0 : State) (a1 : CopyJob) (a2 : Nat) (a3 : List Byte)
      (a4 : Nat → Bool)  (hw : a0.mem.stack.wf = true) :
    (State.copyPut a0 a1 a2 a3 a4).mem.stack.wf = true := by
  unfold State.copyPut; (repeat' split) <;> simp_all (maxDischargeDepth := 30)
@[simp] theorem State.setGtc_kept (a0 : State) (a1 : W64) :
    (State.setGtc a0 a1).mem.stack = a0.mem.stack := by
  unfold State.setGtc; (repeat' split) <;> simp
@[simp] theorem execGtcSet_kept (a0 : W64) (a1 : State) :
    (resState a1 (execGtcSet a0 a1)).mem.stack = a1.mem.stack := by
  unfold execGtcSet; (repeat' split) <;> simp
@[simp] theorem State.flashStart_kept (a0 : State) (a1 : Who) (a2 : Nat) (a3 : Bool) :
    (State.flashStart a0 a1 a2 a3).1.boot.flash = a0.boot.flash ∧ (State.flashStart a0 a1 a2 a3).1.boot.flashBuf = a0.boot.flashBuf := by
  unfold State.flashStart; (repeat' split) <;> simp
@[simp] theorem State.twinCopy_kept (a0 : State) (a1 : Nat) (a2 : Nat) (a3 : Nat) :
    (State.twinCopy a0 a1 a2 a3).mem.stack = a0.mem.stack := by
  unfold State.twinCopy; (repeat' split) <;> simp
@[simp] theorem State.twinGo_kept (a0 : State) (a1 : Nat) :
    (State.twinGo a0 a1).mem.stack = a0.mem.stack := by
  unfold State.twinGo; (repeat' split) <;> simp
@[simp] theorem State.twinHandover_kept (a0 : State) (a1 : Caller) :
    (State.twinHandover a0 a1).mem.stack = a0.mem.stack := by
  unfold State.twinHandover; (repeat' split) <;> simp
@[simp] theorem State.twinCmd_kept (a0 : State) (a1 : Nat) (a2 : Caller) :
    (State.twinCmd a0 a1 a2).mem.stack = a0.mem.stack := by
  unfold State.twinCmd; (repeat' split) <;> simp
@[simp] theorem execYield_kept (a0 : Nat) (a1 : State) :
    (resState a1 (execYield a0 a1)).mem.stack = a1.mem.stack := by
  unfold execYield; (repeat' split) <;> simp
@[simp] theorem State.resyncBegin_kept (a0 : State) (a1 : Nat) :
    (State.resyncBegin a0 a1).mem.stack = a0.mem.stack := by
  unfold State.resyncBegin; (repeat' split) <;> simp
@[simp] theorem execResync_kept (a0 : Nat) (a1 : State) :
    (resState a1 (execResync a0 a1)).mem.stack = a1.mem.stack := by
  unfold execResync; (repeat' split) <;> simp
@[simp] theorem execTwinCommit_kept (a0 : Nat) (a1 : State) :
    (resState a1 (execTwinCommit a0 a1)).mem.stack = a1.mem.stack := by
  unfold execTwinCommit; (repeat' split) <;> simp
@[simp] theorem State.twinCtlWrite_kept (a0 : State) (a1 : Nat) (a2 : Nat) :
    (State.twinCtlWrite a0 a1 a2).mem.stack = a0.mem.stack := by
  unfold State.twinCtlWrite; (repeat' split) <;> simp
@[simp] theorem State.forceStopOr_kept (a0 : State) (a1 : Nat) :
    (State.forceStopOr a0 a1).1.mem.stack = a0.mem.stack := by
  unfold State.forceStopOr; (repeat' split) <;> simp
@[simp] theorem State.loadEnd_wf_mem_stack (a0 : State) (a1 : Nat) (a2 : Nat) (a3 : Nat) (a4 : VatSt)  (hw : a0.mem.stack.wf = true) :
    (State.loadEnd a0 a1 a2 a3 a4).mem.stack.wf = true := by
  unfold State.loadEnd; (repeat' split) <;> simp_all (maxDischargeDepth := 30)
@[simp] theorem execAbort_wf_mem_stack (a0 : Nat) (a1 : Src) (a2 : State)  (hw : a2.mem.stack.wf = true) :
    (resState a2 (execAbort a0 a1 a2)).mem.stack.wf = true := by
  unfold execAbort; first | (simp (maxDischargeDepth := 30); done) | (rw [resState_next]; apply State.command_wf_mem_stack <;> (intros; (first | (simp (maxDischargeDepth := 30); done) | (simp_all (maxDischargeDepth := 30); done) | (dsimp only; (repeat' (split <;> try dsimp only)) <;> simp_all (maxDischargeDepth := 30); done) | ((repeat' split) <;> simp_all (maxDischargeDepth := 30); done))); done) | ((repeat' split) <;> first | (simp (maxDischargeDepth := 30); done) | (simp_all (maxDischargeDepth := 30); done) | (rw [resState_next]; apply State.command_wf_mem_stack <;> (intros; (first | (simp (maxDischargeDepth := 30); done) | (simp_all (maxDischargeDepth := 30); done) | (dsimp only; (repeat' (split <;> try dsimp only)) <;> simp_all (maxDischargeDepth := 30); done) | ((repeat' split) <;> simp_all (maxDischargeDepth := 30); done))); done))
@[simp] theorem execLoad_wf_mem_stack (a0 : Nat) (a1 : Src) (a2 : State)  (hw : a2.mem.stack.wf = true) :
    (resState a2 (execLoad a0 a1 a2)).mem.stack.wf = true := by
  unfold execLoad; first | (simp (maxDischargeDepth := 30); done) | (rw [resState_next]; apply State.command_wf_mem_stack <;> (intros; (first | (simp (maxDischargeDepth := 30); done) | (simp_all (maxDischargeDepth := 30); done) | (dsimp only; (repeat' (split <;> try dsimp only)) <;> simp_all (maxDischargeDepth := 30); done) | ((repeat' split) <;> simp_all (maxDischargeDepth := 30); done))); done) | ((repeat' split) <;> first | (simp (maxDischargeDepth := 30); done) | (simp_all (maxDischargeDepth := 30); done) | (rw [resState_next]; apply State.command_wf_mem_stack <;> (intros; (first | (simp (maxDischargeDepth := 30); done) | (simp_all (maxDischargeDepth := 30); done) | (dsimp only; (repeat' (split <;> try dsimp only)) <;> simp_all (maxDischargeDepth := 30); done) | ((repeat' split) <;> simp_all (maxDischargeDepth := 30); done))); done))
@[simp] theorem execScanIn_wf_mem_stack (a0 : Nat) (a1 : Src) (a2 : State)  (hw : a2.mem.stack.wf = true) :
    (resState a2 (execScanIn a0 a1 a2)).mem.stack.wf = true := by
  unfold execScanIn; first | (simp (maxDischargeDepth := 30); done) | (rw [resState_next]; apply State.command_wf_mem_stack <;> (intros; (first | (simp (maxDischargeDepth := 30); done) | (simp_all (maxDischargeDepth := 30); done) | (dsimp only; (repeat' (split <;> try dsimp only)) <;> simp_all (maxDischargeDepth := 30); done) | ((repeat' split) <;> simp_all (maxDischargeDepth := 30); done))); done) | ((repeat' split) <;> first | (simp (maxDischargeDepth := 30); done) | (simp_all (maxDischargeDepth := 30); done) | (rw [resState_next]; apply State.command_wf_mem_stack <;> (intros; (first | (simp (maxDischargeDepth := 30); done) | (simp_all (maxDischargeDepth := 30); done) | (dsimp only; (repeat' (split <;> try dsimp only)) <;> simp_all (maxDischargeDepth := 30); done) | ((repeat' split) <;> simp_all (maxDischargeDepth := 30); done))); done))
@[simp] theorem State.vatCmd_wf_mem_stack (a0 : State) (a1 : Who) (a2 : Nat) (a3 : Nat)  (hw : a0.mem.stack.wf = true) :
    (State.vatCmd a0 a1 a2 a3).mem.stack.wf = true := by
  unfold State.vatCmd; dsimp only; split
  all_goals first | exact hw | exact execLoad_wf_mem_stack _ _ _ hw | exact execAbort_wf_mem_stack _ _ _ hw | exact execScanIn_wf_mem_stack _ _ _ hw | (simp only [execRelease_same, execStart_same, execResume_same, State.refuseCmd_same, hw])
@[simp] theorem State.keepSnap_kept (a0 : State) (a1 : Who) (a2 : RegView) :
    (State.keepSnap a0 a1 a2).boot.flash = a0.boot.flash ∧ (State.keepSnap a0 a1 a2).boot.flashBuf = a0.boot.flashBuf := by
  unfold State.keepSnap; (repeat' split) <;> simp
@[simp] theorem State.dapStart_kept_mem_stack (a0 : State) (a1 : State → Prod State (Prod Nat Nat)) (h1 : ∀ u, (a1 u).1.mem.stack = u.mem.stack) :
    (State.dapStart a0 a1).mem.stack = a0.mem.stack := by
  unfold State.dapStart; (repeat' split) <;> simp_all
@[simp] theorem State.dapStart_kept_boot_flash (a0 : State) (a1 : State → Prod State (Prod Nat Nat))
      (h1 : ∀ u, (a1 u).1.boot.flash = u.boot.flash) :
    (State.dapStart a0 a1).boot.flash = a0.boot.flash := by
  unfold State.dapStart; (repeat' split) <;> simp_all
@[simp] theorem State.dapStart_kept_boot_flashBuf (a0 : State) (a1 : State → Prod State (Prod Nat Nat))
      (h1 : ∀ u, (a1 u).1.boot.flashBuf = u.boot.flashBuf) :
    (State.dapStart a0 a1).boot.flashBuf = a0.boot.flashBuf := by
  unfold State.dapStart; (repeat' split) <;> simp_all
@[simp] theorem State.dapStart_wf_mem_stack (a0 : State) (a1 : State → Prod State (Prod Nat Nat))
      (h1 : ∀ u, u.mem.stack.wf = true → (a1 u).1.mem.stack.wf = true) (hw : a0.mem.stack.wf = true) :
    (State.dapStart a0 a1).mem.stack.wf = true := by
  unfold State.dapStart; (repeat' split) <;> simp_all (maxDischargeDepth := 30)
@[simp] theorem State.dapStart_wf_boot_flash (a0 : State) (a1 : State → Prod State (Prod Nat Nat))
      (h1 : ∀ u, u.boot.flash.wf = true → (a1 u).1.boot.flash.wf = true) (hw : a0.boot.flash.wf = true) :
    (State.dapStart a0 a1).boot.flash.wf = true := by
  unfold State.dapStart; (repeat' split) <;> simp_all (maxDischargeDepth := 30)
@[simp] theorem State.dapStart_wf_boot_flashBuf (a0 : State) (a1 : State → Prod State (Prod Nat Nat))
      (h1 : ∀ u, u.boot.flashBuf.wf = true → (a1 u).1.boot.flashBuf.wf = true) (hw : a0.boot.flashBuf.wf = true) :
    (State.dapStart a0 a1).boot.flashBuf.wf = true := by
  unfold State.dapStart; (repeat' split) <;> simp_all (maxDischargeDepth := 30)
@[simp] theorem State.setCmd_kept (a0 : State) (a1 : StkCmd) :
    (State.setCmd a0 a1).mem.stack = a0.mem.stack := by
  unfold State.setCmd; (repeat' split) <;> simp
@[simp] theorem State.decide__kept (a0 : State) (a1 : StkCmd) :
    (State.decide_ a0 a1).mem.stack = a0.mem.stack := by
  unfold State.decide_; (repeat' split) <;> simp
@[simp] theorem State.evacDone_wf_mem_stack (a0 : State) (a1 : Nat)  (hw : a0.mem.stack.wf = true) :
    (State.evacDone a0 a1).mem.stack.wf = true := by
  unfold State.evacDone; (repeat' split) <;> simp_all (maxDischargeDepth := 30)
@[simp] theorem State.evacMove_kept (a0 : State) (a1 : Nat) (a2 : EvacEnt) (a3 : Nat) :
    (State.evacMove a0 a1 a2 a3).mem.stack = a0.mem.stack := by
  unfold State.evacMove; (repeat' split) <;> simp
theorem evacPartOne_kept (v : Nat) (r : State × Table Nat × Nat × Nat) (e : EvacEnt) :
    (evacPartOne v r e).1.mem.stack = r.1.mem.stack := by
  unfold evacPartOne; dsimp only; (repeat' (split <;> try dsimp only)) <;> simp
@[simp] theorem State.evacPart_kept (a0 : State) (a1 : Nat) :
    (State.evacPart a0 a1).mem.stack = a0.mem.stack := by
  unfold State.evacPart; dsimp only; simp only [State.modVat_same]; rw [State.mem_stack_foldl_fst _ (fun r e => evacPartOne_kept _ r e), State.mem_foldl_fst _ (fun r e => by simp)]
@[simp] theorem State.exchange_kept (a0 : State) (a1 : Int) :
    (State.exchange a0 a1).mem.stack = a0.mem.stack := by
  unfold State.exchange; (repeat' split) <;> simp
@[simp] theorem State.flashWrite_kept (a0 : State) (a1 : Nat) (a2 : List Byte) :
    (State.flashWrite a0 a1 a2).boot.flashBuf = a0.boot.flashBuf := by
  unfold State.flashWrite; (repeat' split) <;> simp
@[simp] theorem State.flashWrite_wf_boot_flash (a0 : State) (a1 : Nat) (a2 : List Byte)  (hw : a0.boot.flash.wf = true) :
    (State.flashWrite a0 a1 a2).boot.flash.wf = true := by
  unfold State.flashWrite State.modBoot; exact Memory.writeBytes_wf _ _ _ hw
@[simp] theorem State.stkPut1_wf_mem_stack (a0 : State) (a1 : Nat) (a2 : Nat) (a3 : List Byte) (a4 : NSet)  (hw : a0.mem.stack.wf = true) :
    (State.stkPut1 a0 a1 a2 a3 a4).mem.stack.wf = true := by
  unfold State.stkPut1; (repeat' split) <;> simp_all (maxDischargeDepth := 30)
@[simp] theorem State.stkWrite1_wf_mem_stack (a0 : State) (a1 : Nat) (a2 : Nat) (a3 : List Byte) (a4 : NSet)  (hw : a0.mem.stack.wf = true) :
    (State.stkWrite1 a0 a1 a2 a3 a4).mem.stack.wf = true := by
  unfold State.stkWrite1; (repeat' split) <;> simp_all (maxDischargeDepth := 30)
@[simp] theorem State.stkWrite_wf_mem_stack (a0 : State) (a1 : Nat) (a2 : Nat) (a3 : List Byte) (a4 : NSet)  (hw : a0.mem.stack.wf = true) :
    (State.stkWrite a0 a1 a2 a3 a4).mem.stack.wf = true := by
  unfold State.stkWrite; (repeat' split) <;> simp_all (maxDischargeDepth := 30)
@[simp] theorem State.flush_wf_mem_stack (a0 : State) (a1 : Nat) (a2 : WBuf)  (hw : a0.mem.stack.wf = true) :
    (State.flush a0 a1 a2).mem.stack.wf = true := by
  unfold State.flush; (repeat' split) <;> simp_all (maxDischargeDepth := 30)
@[simp] theorem State.instrIf_kept_mem_stack (a0 : State) (a1 : Nat) (a2 : Guard) (a3 : W32) (a4 : Bool) (a5 : Ctl → State)
      (h5 : ∀ k, (a5 k).mem.stack = a0.mem.stack) :
    (State.instrIf a0 a1 a2 a3 a4 a5).mem.stack = a0.mem.stack := by
  unfold State.instrIf; first | (simp; done) | (apply State.instr_kept_mem_stack <;> (intros; (first | (simp; done) | (simp_all; done) | (dsimp only; (repeat' (split <;> try dsimp only)) <;> simp_all; done) | ((repeat' split) <;> simp_all; done))); done) | ((repeat' split) <;> first | (simp; done) | (simp_all; done) | (apply State.instr_kept_mem_stack <;> (intros; (first | (simp; done) | (simp_all; done) | (dsimp only; (repeat' (split <;> try dsimp only)) <;> simp_all; done) | ((repeat' split) <;> simp_all; done))); done))
@[simp] theorem State.instrIf_kept_boot_flash (a0 : State) (a1 : Nat) (a2 : Guard) (a3 : W32) (a4 : Bool) (a5 : Ctl → State)
      (h5 : ∀ k, (a5 k).boot.flash = a0.boot.flash) :
    (State.instrIf a0 a1 a2 a3 a4 a5).boot.flash = a0.boot.flash := by
  unfold State.instrIf; first | (simp; done) | (apply State.instr_kept_boot_flash <;> (intros; (first | (simp; done) | (simp_all; done) | (dsimp only; (repeat' (split <;> try dsimp only)) <;> simp_all; done) | ((repeat' split) <;> simp_all; done))); done) | ((repeat' split) <;> first | (simp; done) | (simp_all; done) | (apply State.instr_kept_boot_flash <;> (intros; (first | (simp; done) | (simp_all; done) | (dsimp only; (repeat' (split <;> try dsimp only)) <;> simp_all; done) | ((repeat' split) <;> simp_all; done))); done))
@[simp] theorem State.instrIf_kept_boot_flashBuf (a0 : State) (a1 : Nat) (a2 : Guard) (a3 : W32) (a4 : Bool) (a5 : Ctl → State)
      (h5 : ∀ k, (a5 k).boot.flashBuf = a0.boot.flashBuf) :
    (State.instrIf a0 a1 a2 a3 a4 a5).boot.flashBuf = a0.boot.flashBuf := by
  unfold State.instrIf; first | (simp; done) | (apply State.instr_kept_boot_flashBuf <;> (intros; (first | (simp; done) | (simp_all; done) | (dsimp only; (repeat' (split <;> try dsimp only)) <;> simp_all; done) | ((repeat' split) <;> simp_all; done))); done) | ((repeat' split) <;> first | (simp; done) | (simp_all; done) | (apply State.instr_kept_boot_flashBuf <;> (intros; (first | (simp; done) | (simp_all; done) | (dsimp only; (repeat' (split <;> try dsimp only)) <;> simp_all; done) | ((repeat' split) <;> simp_all; done))); done))
@[simp] theorem State.instrIf_wf_mem_stack (a0 : State) (a1 : Nat) (a2 : Guard) (a3 : W32) (a4 : Bool) (a5 : Ctl → State)
      (h5 : ∀ k, (a5 k).mem.stack.wf = true) (hw : a0.mem.stack.wf = true) :
    (State.instrIf a0 a1 a2 a3 a4 a5).mem.stack.wf = true := by
  unfold State.instrIf; first | (simp (maxDischargeDepth := 30); done) | (apply State.instr_wf_mem_stack <;> (intros; (first | (simp (maxDischargeDepth := 30); done) | (simp_all (maxDischargeDepth := 30); done) | (dsimp only; (repeat' (split <;> try dsimp only)) <;> simp_all (maxDischargeDepth := 30); done) | ((repeat' split) <;> simp_all (maxDischargeDepth := 30); done))); done) | ((repeat' split) <;> first | (simp (maxDischargeDepth := 30); done) | (simp_all (maxDischargeDepth := 30); done) | (apply State.instr_wf_mem_stack <;> (intros; (first | (simp (maxDischargeDepth := 30); done) | (simp_all (maxDischargeDepth := 30); done) | (dsimp only; (repeat' (split <;> try dsimp only)) <;> simp_all (maxDischargeDepth := 30); done) | ((repeat' split) <;> simp_all (maxDischargeDepth := 30); done))); done))
@[simp] theorem State.instrIf_wf_boot_flash (a0 : State) (a1 : Nat) (a2 : Guard) (a3 : W32) (a4 : Bool) (a5 : Ctl → State)
      (h5 : ∀ k, (a5 k).boot.flash.wf = true) (hw : a0.boot.flash.wf = true) :
    (State.instrIf a0 a1 a2 a3 a4 a5).boot.flash.wf = true := by
  unfold State.instrIf; first | (simp (maxDischargeDepth := 30); done) | (apply State.instr_wf_boot_flash <;> (intros; (first | (simp (maxDischargeDepth := 30); done) | (simp_all (maxDischargeDepth := 30); done) | (dsimp only; (repeat' (split <;> try dsimp only)) <;> simp_all (maxDischargeDepth := 30); done) | ((repeat' split) <;> simp_all (maxDischargeDepth := 30); done))); done) | ((repeat' split) <;> first | (simp (maxDischargeDepth := 30); done) | (simp_all (maxDischargeDepth := 30); done) | (apply State.instr_wf_boot_flash <;> (intros; (first | (simp (maxDischargeDepth := 30); done) | (simp_all (maxDischargeDepth := 30); done) | (dsimp only; (repeat' (split <;> try dsimp only)) <;> simp_all (maxDischargeDepth := 30); done) | ((repeat' split) <;> simp_all (maxDischargeDepth := 30); done))); done))
@[simp] theorem State.instrIf_wf_boot_flashBuf (a0 : State) (a1 : Nat) (a2 : Guard) (a3 : W32) (a4 : Bool) (a5 : Ctl → State)
      (h5 : ∀ k, (a5 k).boot.flashBuf.wf = true) (hw : a0.boot.flashBuf.wf = true) :
    (State.instrIf a0 a1 a2 a3 a4 a5).boot.flashBuf.wf = true := by
  unfold State.instrIf; first | (simp (maxDischargeDepth := 30); done) | (apply State.instr_wf_boot_flashBuf <;> (intros; (first | (simp (maxDischargeDepth := 30); done) | (simp_all (maxDischargeDepth := 30); done) | (dsimp only; (repeat' (split <;> try dsimp only)) <;> simp_all (maxDischargeDepth := 30); done) | ((repeat' split) <;> simp_all (maxDischargeDepth := 30); done))); done) | ((repeat' split) <;> first | (simp (maxDischargeDepth := 30); done) | (simp_all (maxDischargeDepth := 30); done) | (apply State.instr_wf_boot_flashBuf <;> (intros; (first | (simp (maxDischargeDepth := 30); done) | (simp_all (maxDischargeDepth := 30); done) | (dsimp only; (repeat' (split <;> try dsimp only)) <;> simp_all (maxDischargeDepth := 30); done) | ((repeat' split) <;> simp_all (maxDischargeDepth := 30); done))); done))
@[simp] theorem State.logItem_wf_mem_stack (a0 : State) (a1 : Nat) (a2 : LogItem)  (hw : a0.mem.stack.wf = true) :
    (State.logItem a0 a1 a2).mem.stack.wf = true := by
  unfold State.logItem; (repeat' split) <;> simp_all (maxDischargeDepth := 30)
@[simp] theorem State.stkRan_kept (a0 : State) (a1 : StkCmd) (a2 : Nat) :
    (State.stkRan a0 a1 a2).mem.stack = a0.mem.stack := by
  unfold State.stkRan; (repeat' split) <;> simp
@[simp] theorem State.optDone_kept (a0 : State) (a1 : StkCmd) :
    (State.optDone a0 a1).mem.stack = a0.mem.stack := by
  unfold State.optDone; (repeat' split) <;> simp
@[simp] theorem State.optWrite_wf_mem_stack (a0 : State) (a1 : Nat) (a2 : StkCmd) (a3 : Bool) (a4 : Bool)
      (a5 : List (Option OptElem))  (hw : a0.mem.stack.wf = true) :
    (State.optWrite a0 a1 a2 a3 a4 a5).mem.stack.wf = true := by
  unfold State.optWrite; (repeat' split) <;> simp_all (maxDischargeDepth := 30)
@[simp] theorem State.putAdv_wf_mem_stack (a0 : State) (a1 : Nat)  (hw : a0.mem.stack.wf = true) :
    (State.putAdv a0 a1).mem.stack.wf = true := by
  unfold State.putAdv; (repeat' split) <;> simp_all (maxDischargeDepth := 30)
@[simp] theorem State.putSlot_wf_mem_stack (a0 : State) (a1 : Nat) (a2 : Nat)  (hw : a0.mem.stack.wf = true) :
    (State.putSlot a0 a1 a2).mem.stack.wf = true := by
  unfold State.putSlot; (repeat' split) <;> simp_all (maxDischargeDepth := 30)
@[simp] theorem State.readList_kept (a0 : State) (a1 : Nat) (a2 : Nat) (a3 : Nat) :
    (State.readList a0 a1 a2 a3).mem.stack = a0.mem.stack := by
  unfold State.readList; (repeat' split) <;> simp
@[simp] theorem State.readOpnds_kept (a0 : State) (a1 : Nat) (a2 : Nat → Nat) (a3 : List Opnd) :
    (State.readOpnds a0 a1 a2 a3).mem.stack = a0.mem.stack := by
  unfold State.readOpnds; (repeat' split) <;> simp
@[simp] theorem State.remoteRead_kept (a0 : State) (a1 : Nat) (a2 : Nat) (a3 : Nat) :
    (State.remoteRead a0 a1 a2 a3).1.mem.stack = a0.mem.stack := by
  unfold State.remoteRead; (repeat' split) <;> simp
@[simp] theorem State.remoteWrite_wf_mem_stack (a0 : State) (a1 : Nat) (a2 : Nat) (a3 : List Byte)
      (a4 : Nat → Bool)  (hw : a0.mem.stack.wf = true) :
    (State.remoteWrite a0 a1 a2 a3 a4).mem.stack.wf = true := by
  unfold State.remoteWrite; (repeat' split) <;> simp_all (maxDischargeDepth := 30)
@[simp] theorem State.restoreScan_kept (a0 : State) (a1 : Nat) (a2 : ScanSnap) :
    (State.restoreScan a0 a1 a2).mem.stack = a0.mem.stack := by
  unfold State.restoreScan; (repeat' split) <;> simp
@[simp] theorem State.scrubRead_kept (a0 : State) (a1 : Nat) :
    (State.scrubRead a0 a1).mem.stack = a0.mem.stack := by
  unfold State.scrubRead; (repeat' split) <;> simp
@[simp] theorem State.scrubRewrite_kept (a0 : State) (a1 : Nat) :
    (State.scrubRewrite a0 a1).mem.stack = a0.mem.stack := by
  unfold State.scrubRewrite; (repeat' split) <;> simp
@[simp] theorem State.seInstr_kept_mem_stack (a0 : State) (a1 : Nat) (a2 : Nat) (a3 : Nat) (a4 : State → Nat → State)
      (h4 : ∀ u x, (a4 u x).mem.stack = u.mem.stack) :
    (State.seInstr a0 a1 a2 a3 a4).mem.stack = a0.mem.stack := by
  unfold State.seInstr; (repeat' split) <;> simp_all
@[simp] theorem State.seInstr_kept_boot_flash (a0 : State) (a1 : Nat) (a2 : Nat) (a3 : Nat) (a4 : State → Nat → State)
      (h4 : ∀ u x, (a4 u x).boot.flash = u.boot.flash) :
    (State.seInstr a0 a1 a2 a3 a4).boot.flash = a0.boot.flash := by
  unfold State.seInstr; (repeat' split) <;> simp_all
@[simp] theorem State.seInstr_kept_boot_flashBuf (a0 : State) (a1 : Nat) (a2 : Nat) (a3 : Nat) (a4 : State → Nat → State)
      (h4 : ∀ u x, (a4 u x).boot.flashBuf = u.boot.flashBuf) :
    (State.seInstr a0 a1 a2 a3 a4).boot.flashBuf = a0.boot.flashBuf := by
  unfold State.seInstr; (repeat' split) <;> simp_all
@[simp] theorem State.seInstr_wf_mem_stack (a0 : State) (a1 : Nat) (a2 : Nat) (a3 : Nat) (a4 : State → Nat → State)
      (h4 : ∀ u x, u.mem.stack.wf = true → (a4 u x).mem.stack.wf = true) (hw : a0.mem.stack.wf = true) :
    (State.seInstr a0 a1 a2 a3 a4).mem.stack.wf = true := by
  unfold State.seInstr; (repeat' split) <;> simp_all (maxDischargeDepth := 30)
@[simp] theorem State.seInstr_wf_boot_flash (a0 : State) (a1 : Nat) (a2 : Nat) (a3 : Nat) (a4 : State → Nat → State)
      (h4 : ∀ u x, u.boot.flash.wf = true → (a4 u x).boot.flash.wf = true) (hw : a0.boot.flash.wf = true) :
    (State.seInstr a0 a1 a2 a3 a4).boot.flash.wf = true := by
  unfold State.seInstr; (repeat' split) <;> simp_all (maxDischargeDepth := 30)
@[simp] theorem State.seInstr_wf_boot_flashBuf (a0 : State) (a1 : Nat) (a2 : Nat) (a3 : Nat) (a4 : State → Nat → State)
      (h4 : ∀ u x, u.boot.flashBuf.wf = true → (a4 u x).boot.flashBuf.wf = true) (hw : a0.boot.flashBuf.wf = true) :
    (State.seInstr a0 a1 a2 a3 a4).boot.flashBuf.wf = true := by
  unfold State.seInstr; (repeat' split) <;> simp_all (maxDischargeDepth := 30)
@[simp] theorem State.sheetStart_kept_mem_stack (a0 : State) (a1 : State → Nat → State) (a2 : Nat) (h1 : ∀ u x, (a1 u x).mem.stack = u.mem.stack) :
    (State.sheetStart a0 a1 a2).mem.stack = a0.mem.stack := by
  unfold State.sheetStart; (repeat' split) <;> simp_all
@[simp] theorem State.sheetStart_kept_boot_flash (a0 : State) (a1 : State → Nat → State) (a2 : Nat)
      (h1 : ∀ u x, (a1 u x).boot.flash = u.boot.flash) :
    (State.sheetStart a0 a1 a2).boot.flash = a0.boot.flash := by
  unfold State.sheetStart; (repeat' split) <;> simp_all
@[simp] theorem State.sheetStart_kept_boot_flashBuf (a0 : State) (a1 : State → Nat → State) (a2 : Nat)
      (h1 : ∀ u x, (a1 u x).boot.flashBuf = u.boot.flashBuf) :
    (State.sheetStart a0 a1 a2).boot.flashBuf = a0.boot.flashBuf := by
  unfold State.sheetStart; (repeat' split) <;> simp_all
@[simp] theorem State.sheetStart_wf_mem_stack (a0 : State) (a1 : State → Nat → State) (a2 : Nat)
      (h1 : ∀ u x, u.mem.stack.wf = true → (a1 u x).mem.stack.wf = true) (hw : a0.mem.stack.wf = true) :
    (State.sheetStart a0 a1 a2).mem.stack.wf = true := by
  unfold State.sheetStart; (repeat' split) <;> simp_all (maxDischargeDepth := 30)
@[simp] theorem State.sheetStart_wf_boot_flash (a0 : State) (a1 : State → Nat → State) (a2 : Nat)
      (h1 : ∀ u x, u.boot.flash.wf = true → (a1 u x).boot.flash.wf = true) (hw : a0.boot.flash.wf = true) :
    (State.sheetStart a0 a1 a2).boot.flash.wf = true := by
  unfold State.sheetStart; (repeat' split) <;> simp_all (maxDischargeDepth := 30)
@[simp] theorem State.sheetStart_wf_boot_flashBuf (a0 : State) (a1 : State → Nat → State) (a2 : Nat)
      (h1 : ∀ u x, u.boot.flashBuf.wf = true → (a1 u x).boot.flashBuf.wf = true) (hw : a0.boot.flashBuf.wf = true) :
    (State.sheetStart a0 a1 a2).boot.flashBuf.wf = true := by
  unfold State.sheetStart; (repeat' split) <;> simp_all (maxDischargeDepth := 30)
@[simp] theorem State.srInstr_kept_mem_stack (a0 : State) (a1 : BitVec 8) (a2 : Nat) (a3 : Guard) (a4 : Reg) (a5 : Reg) (a6 : BitVec 10)
      (a7 : Ctl → State) (h7 : ∀ k, (a7 k).mem.stack = a0.mem.stack) :
    (State.srInstr a0 a1 a2 a3 a4 a5 a6 a7).mem.stack = a0.mem.stack := by
  unfold State.srInstr; first | (simp; done) | (apply State.instr_kept_mem_stack <;> (intros; (first | (simp; done) | (simp_all; done) | (dsimp only; (repeat' (split <;> try dsimp only)) <;> simp_all; done) | ((repeat' split) <;> simp_all; done))); done) | ((repeat' split) <;> first | (simp; done) | (simp_all; done) | (apply State.instr_kept_mem_stack <;> (intros; (first | (simp; done) | (simp_all; done) | (dsimp only; (repeat' (split <;> try dsimp only)) <;> simp_all; done) | ((repeat' split) <;> simp_all; done))); done))
@[simp] theorem State.srInstr_kept_boot_flash (a0 : State) (a1 : BitVec 8) (a2 : Nat) (a3 : Guard) (a4 : Reg) (a5 : Reg) (a6 : BitVec 10)
      (a7 : Ctl → State) (h7 : ∀ k, (a7 k).boot.flash = a0.boot.flash) :
    (State.srInstr a0 a1 a2 a3 a4 a5 a6 a7).boot.flash = a0.boot.flash := by
  unfold State.srInstr; first | (simp; done) | (apply State.instr_kept_boot_flash <;> (intros; (first | (simp; done) | (simp_all; done) | (dsimp only; (repeat' (split <;> try dsimp only)) <;> simp_all; done) | ((repeat' split) <;> simp_all; done))); done) | ((repeat' split) <;> first | (simp; done) | (simp_all; done) | (apply State.instr_kept_boot_flash <;> (intros; (first | (simp; done) | (simp_all; done) | (dsimp only; (repeat' (split <;> try dsimp only)) <;> simp_all; done) | ((repeat' split) <;> simp_all; done))); done))
@[simp] theorem State.srInstr_kept_boot_flashBuf (a0 : State) (a1 : BitVec 8) (a2 : Nat) (a3 : Guard) (a4 : Reg) (a5 : Reg) (a6 : BitVec 10)
      (a7 : Ctl → State) (h7 : ∀ k, (a7 k).boot.flashBuf = a0.boot.flashBuf) :
    (State.srInstr a0 a1 a2 a3 a4 a5 a6 a7).boot.flashBuf = a0.boot.flashBuf := by
  unfold State.srInstr; first | (simp; done) | (apply State.instr_kept_boot_flashBuf <;> (intros; (first | (simp; done) | (simp_all; done) | (dsimp only; (repeat' (split <;> try dsimp only)) <;> simp_all; done) | ((repeat' split) <;> simp_all; done))); done) | ((repeat' split) <;> first | (simp; done) | (simp_all; done) | (apply State.instr_kept_boot_flashBuf <;> (intros; (first | (simp; done) | (simp_all; done) | (dsimp only; (repeat' (split <;> try dsimp only)) <;> simp_all; done) | ((repeat' split) <;> simp_all; done))); done))
@[simp] theorem State.srInstr_wf_mem_stack (a0 : State) (a1 : BitVec 8) (a2 : Nat) (a3 : Guard) (a4 : Reg) (a5 : Reg) (a6 : BitVec 10)
      (a7 : Ctl → State) (h7 : ∀ k, (a7 k).mem.stack.wf = true) (hw : a0.mem.stack.wf = true) :
    (State.srInstr a0 a1 a2 a3 a4 a5 a6 a7).mem.stack.wf = true := by
  unfold State.srInstr; first | (simp (maxDischargeDepth := 30); done) | (apply State.instr_wf_mem_stack <;> (intros; (first | (simp (maxDischargeDepth := 30); done) | (simp_all (maxDischargeDepth := 30); done) | (dsimp only; (repeat' (split <;> try dsimp only)) <;> simp_all (maxDischargeDepth := 30); done) | ((repeat' split) <;> simp_all (maxDischargeDepth := 30); done))); done) | ((repeat' split) <;> first | (simp (maxDischargeDepth := 30); done) | (simp_all (maxDischargeDepth := 30); done) | (apply State.instr_wf_mem_stack <;> (intros; (first | (simp (maxDischargeDepth := 30); done) | (simp_all (maxDischargeDepth := 30); done) | (dsimp only; (repeat' (split <;> try dsimp only)) <;> simp_all (maxDischargeDepth := 30); done) | ((repeat' split) <;> simp_all (maxDischargeDepth := 30); done))); done))
@[simp] theorem State.srInstr_wf_boot_flash (a0 : State) (a1 : BitVec 8) (a2 : Nat) (a3 : Guard) (a4 : Reg) (a5 : Reg) (a6 : BitVec 10)
      (a7 : Ctl → State) (h7 : ∀ k, (a7 k).boot.flash.wf = true) (hw : a0.boot.flash.wf = true) :
    (State.srInstr a0 a1 a2 a3 a4 a5 a6 a7).boot.flash.wf = true := by
  unfold State.srInstr; first | (simp (maxDischargeDepth := 30); done) | (apply State.instr_wf_boot_flash <;> (intros; (first | (simp (maxDischargeDepth := 30); done) | (simp_all (maxDischargeDepth := 30); done) | (dsimp only; (repeat' (split <;> try dsimp only)) <;> simp_all (maxDischargeDepth := 30); done) | ((repeat' split) <;> simp_all (maxDischargeDepth := 30); done))); done) | ((repeat' split) <;> first | (simp (maxDischargeDepth := 30); done) | (simp_all (maxDischargeDepth := 30); done) | (apply State.instr_wf_boot_flash <;> (intros; (first | (simp (maxDischargeDepth := 30); done) | (simp_all (maxDischargeDepth := 30); done) | (dsimp only; (repeat' (split <;> try dsimp only)) <;> simp_all (maxDischargeDepth := 30); done) | ((repeat' split) <;> simp_all (maxDischargeDepth := 30); done))); done))
@[simp] theorem State.srInstr_wf_boot_flashBuf (a0 : State) (a1 : BitVec 8) (a2 : Nat) (a3 : Guard) (a4 : Reg) (a5 : Reg) (a6 : BitVec 10)
      (a7 : Ctl → State) (h7 : ∀ k, (a7 k).boot.flashBuf.wf = true) (hw : a0.boot.flashBuf.wf = true) :
    (State.srInstr a0 a1 a2 a3 a4 a5 a6 a7).boot.flashBuf.wf = true := by
  unfold State.srInstr; first | (simp (maxDischargeDepth := 30); done) | (apply State.instr_wf_boot_flashBuf <;> (intros; (first | (simp (maxDischargeDepth := 30); done) | (simp_all (maxDischargeDepth := 30); done) | (dsimp only; (repeat' (split <;> try dsimp only)) <;> simp_all (maxDischargeDepth := 30); done) | ((repeat' split) <;> simp_all (maxDischargeDepth := 30); done))); done) | ((repeat' split) <;> first | (simp (maxDischargeDepth := 30); done) | (simp_all (maxDischargeDepth := 30); done) | (apply State.instr_wf_boot_flashBuf <;> (intros; (first | (simp (maxDischargeDepth := 30); done) | (simp_all (maxDischargeDepth := 30); done) | (dsimp only; (repeat' (split <;> try dsimp only)) <;> simp_all (maxDischargeDepth := 30); done) | ((repeat' split) <;> simp_all (maxDischargeDepth := 30); done))); done))
@[simp] theorem State.stkRefuse_kept (a0 : State) (a1 : StkCmd) (a2 : Nat) :
    (State.stkRefuse a0 a1 a2).mem.stack = a0.mem.stack := by
  unfold State.stkRefuse; (repeat' split) <;> simp
@[simp] theorem State.stkAccept_kept (a0 : State) (a1 : StkBy) (a2 : Nat) (a3 : Nat) (a4 : Bool) :
    (State.stkAccept a0 a1 a2 a3 a4).mem.stack = a0.mem.stack := by
  unfold State.stkAccept; (repeat' split) <;> simp
@[simp] theorem State.stkOp_kept_mem_stack (a0 : State) (a1 : Nat) (a2 : Nat) (a3 : State → StkCmd → State)
      (h3 : ∀ u x, (a3 u x).mem.stack = u.mem.stack) :
    (State.stkOp a0 a1 a2 a3).mem.stack = a0.mem.stack := by
  unfold State.stkOp; (repeat' split) <;> simp_all
@[simp] theorem State.stkOp_kept_boot_flash (a0 : State) (a1 : Nat) (a2 : Nat) (a3 : State → StkCmd → State)
      (h3 : ∀ u x, (a3 u x).boot.flash = u.boot.flash) :
    (State.stkOp a0 a1 a2 a3).boot.flash = a0.boot.flash := by
  unfold State.stkOp; (repeat' split) <;> simp_all
@[simp] theorem State.stkOp_kept_boot_flashBuf (a0 : State) (a1 : Nat) (a2 : Nat) (a3 : State → StkCmd → State)
      (h3 : ∀ u x, (a3 u x).boot.flashBuf = u.boot.flashBuf) :
    (State.stkOp a0 a1 a2 a3).boot.flashBuf = a0.boot.flashBuf := by
  unfold State.stkOp; (repeat' split) <;> simp_all
@[simp] theorem State.stkOp_wf_mem_stack (a0 : State) (a1 : Nat) (a2 : Nat) (a3 : State → StkCmd → State)
      (h3 : ∀ u x, u.mem.stack.wf = true → (a3 u x).mem.stack.wf = true) (hw : a0.mem.stack.wf = true) :
    (State.stkOp a0 a1 a2 a3).mem.stack.wf = true := by
  unfold State.stkOp; (repeat' split) <;> simp_all (maxDischargeDepth := 30)
@[simp] theorem State.stkOp_wf_boot_flash (a0 : State) (a1 : Nat) (a2 : Nat) (a3 : State → StkCmd → State)
      (h3 : ∀ u x, u.boot.flash.wf = true → (a3 u x).boot.flash.wf = true) (hw : a0.boot.flash.wf = true) :
    (State.stkOp a0 a1 a2 a3).boot.flash.wf = true := by
  unfold State.stkOp; (repeat' split) <;> simp_all (maxDischargeDepth := 30)
@[simp] theorem State.stkOp_wf_boot_flashBuf (a0 : State) (a1 : Nat) (a2 : Nat) (a3 : State → StkCmd → State)
      (h3 : ∀ u x, u.boot.flashBuf.wf = true → (a3 u x).boot.flashBuf.wf = true) (hw : a0.boot.flashBuf.wf = true) :
    (State.stkOp a0 a1 a2 a3).boot.flashBuf.wf = true := by
  unfold State.stkOp; (repeat' split) <;> simp_all (maxDischargeDepth := 30)
@[simp] theorem State.stkPublish_kept (a0 : State) (a1 : StkCmd) :
    (State.stkPublish a0 a1).mem.stack = a0.mem.stack := by
  unfold State.stkPublish; (repeat' split) <;> simp
@[simp] theorem State.stkStart_kept (a0 : State) (a1 : StkCmd) :
    (State.stkStart a0 a1).mem.stack = a0.mem.stack := by
  unfold State.stkStart; (repeat' split) <;> simp
@[simp] theorem State.syncInstr_kept_mem_stack (a0 : State) (a1 : Nat) (a2 : Guard) (a3 : Reg) (a4 : W32) (a5 : Nat → Bool)
      (a6 : Ctl → Nat → State) (h6 : ∀ k x, (a6 k x).mem.stack = a0.mem.stack) :
    (State.syncInstr a0 a1 a2 a3 a4 a5 a6).mem.stack = a0.mem.stack := by
  unfold State.syncInstr; first | (simp; done) | (apply State.instr_kept_mem_stack <;> (intros; (first | (simp; done) | (simp_all; done) | (dsimp only; (repeat' (split <;> try dsimp only)) <;> simp_all; done) | ((repeat' split) <;> simp_all; done))); done) | ((repeat' split) <;> first | (simp; done) | (simp_all; done) | (apply State.instr_kept_mem_stack <;> (intros; (first | (simp; done) | (simp_all; done) | (dsimp only; (repeat' (split <;> try dsimp only)) <;> simp_all; done) | ((repeat' split) <;> simp_all; done))); done))
@[simp] theorem State.syncInstr_kept_boot_flash (a0 : State) (a1 : Nat) (a2 : Guard) (a3 : Reg) (a4 : W32) (a5 : Nat → Bool)
      (a6 : Ctl → Nat → State) (h6 : ∀ k x, (a6 k x).boot.flash = a0.boot.flash) :
    (State.syncInstr a0 a1 a2 a3 a4 a5 a6).boot.flash = a0.boot.flash := by
  unfold State.syncInstr; first | (simp; done) | (apply State.instr_kept_boot_flash <;> (intros; (first | (simp; done) | (simp_all; done) | (dsimp only; (repeat' (split <;> try dsimp only)) <;> simp_all; done) | ((repeat' split) <;> simp_all; done))); done) | ((repeat' split) <;> first | (simp; done) | (simp_all; done) | (apply State.instr_kept_boot_flash <;> (intros; (first | (simp; done) | (simp_all; done) | (dsimp only; (repeat' (split <;> try dsimp only)) <;> simp_all; done) | ((repeat' split) <;> simp_all; done))); done))
@[simp] theorem State.syncInstr_kept_boot_flashBuf (a0 : State) (a1 : Nat) (a2 : Guard) (a3 : Reg) (a4 : W32) (a5 : Nat → Bool)
      (a6 : Ctl → Nat → State) (h6 : ∀ k x, (a6 k x).boot.flashBuf = a0.boot.flashBuf) :
    (State.syncInstr a0 a1 a2 a3 a4 a5 a6).boot.flashBuf = a0.boot.flashBuf := by
  unfold State.syncInstr; first | (simp; done) | (apply State.instr_kept_boot_flashBuf <;> (intros; (first | (simp; done) | (simp_all; done) | (dsimp only; (repeat' (split <;> try dsimp only)) <;> simp_all; done) | ((repeat' split) <;> simp_all; done))); done) | ((repeat' split) <;> first | (simp; done) | (simp_all; done) | (apply State.instr_kept_boot_flashBuf <;> (intros; (first | (simp; done) | (simp_all; done) | (dsimp only; (repeat' (split <;> try dsimp only)) <;> simp_all; done) | ((repeat' split) <;> simp_all; done))); done))
@[simp] theorem State.syncInstr_wf_mem_stack (a0 : State) (a1 : Nat) (a2 : Guard) (a3 : Reg) (a4 : W32) (a5 : Nat → Bool) (a6 : Ctl → Nat → State)
      (h6 : ∀ k x, (a6 k x).mem.stack.wf = true) (hw : a0.mem.stack.wf = true) :
    (State.syncInstr a0 a1 a2 a3 a4 a5 a6).mem.stack.wf = true := by
  unfold State.syncInstr; first | (simp (maxDischargeDepth := 30); done) | (apply State.instr_wf_mem_stack <;> (intros; (first | (simp (maxDischargeDepth := 30); done) | (simp_all (maxDischargeDepth := 30); done) | (dsimp only; (repeat' (split <;> try dsimp only)) <;> simp_all (maxDischargeDepth := 30); done) | ((repeat' split) <;> simp_all (maxDischargeDepth := 30); done))); done) | ((repeat' split) <;> first | (simp (maxDischargeDepth := 30); done) | (simp_all (maxDischargeDepth := 30); done) | (apply State.instr_wf_mem_stack <;> (intros; (first | (simp (maxDischargeDepth := 30); done) | (simp_all (maxDischargeDepth := 30); done) | (dsimp only; (repeat' (split <;> try dsimp only)) <;> simp_all (maxDischargeDepth := 30); done) | ((repeat' split) <;> simp_all (maxDischargeDepth := 30); done))); done))
@[simp] theorem State.syncInstr_wf_boot_flash (a0 : State) (a1 : Nat) (a2 : Guard) (a3 : Reg) (a4 : W32) (a5 : Nat → Bool)
      (a6 : Ctl → Nat → State) (h6 : ∀ k x, (a6 k x).boot.flash.wf = true) (hw : a0.boot.flash.wf = true) :
    (State.syncInstr a0 a1 a2 a3 a4 a5 a6).boot.flash.wf = true := by
  unfold State.syncInstr; first | (simp (maxDischargeDepth := 30); done) | (apply State.instr_wf_boot_flash <;> (intros; (first | (simp (maxDischargeDepth := 30); done) | (simp_all (maxDischargeDepth := 30); done) | (dsimp only; (repeat' (split <;> try dsimp only)) <;> simp_all (maxDischargeDepth := 30); done) | ((repeat' split) <;> simp_all (maxDischargeDepth := 30); done))); done) | ((repeat' split) <;> first | (simp (maxDischargeDepth := 30); done) | (simp_all (maxDischargeDepth := 30); done) | (apply State.instr_wf_boot_flash <;> (intros; (first | (simp (maxDischargeDepth := 30); done) | (simp_all (maxDischargeDepth := 30); done) | (dsimp only; (repeat' (split <;> try dsimp only)) <;> simp_all (maxDischargeDepth := 30); done) | ((repeat' split) <;> simp_all (maxDischargeDepth := 30); done))); done))
@[simp] theorem State.syncInstr_wf_boot_flashBuf (a0 : State) (a1 : Nat) (a2 : Guard) (a3 : Reg) (a4 : W32) (a5 : Nat → Bool)
      (a6 : Ctl → Nat → State) (h6 : ∀ k x, (a6 k x).boot.flashBuf.wf = true) (hw : a0.boot.flashBuf.wf = true) :
    (State.syncInstr a0 a1 a2 a3 a4 a5 a6).boot.flashBuf.wf = true := by
  unfold State.syncInstr; first | (simp (maxDischargeDepth := 30); done) | (apply State.instr_wf_boot_flashBuf <;> (intros; (first | (simp (maxDischargeDepth := 30); done) | (simp_all (maxDischargeDepth := 30); done) | (dsimp only; (repeat' (split <;> try dsimp only)) <;> simp_all (maxDischargeDepth := 30); done) | ((repeat' split) <;> simp_all (maxDischargeDepth := 30); done))); done) | ((repeat' split) <;> first | (simp (maxDischargeDepth := 30); done) | (simp_all (maxDischargeDepth := 30); done) | (apply State.instr_wf_boot_flashBuf <;> (intros; (first | (simp (maxDischargeDepth := 30); done) | (simp_all (maxDischargeDepth := 30); done) | (dsimp only; (repeat' (split <;> try dsimp only)) <;> simp_all (maxDischargeDepth := 30); done) | ((repeat' split) <;> simp_all (maxDischargeDepth := 30); done))); done))
@[simp] theorem State.thermalLevels_kept (a0 : State) (a1 : Nat → Int) :
    (State.thermalLevels a0 a1).mem.stack = a0.mem.stack := by
  unfold State.thermalLevels; (repeat' split) <;> simp
@[simp] theorem State.vecAccept_kept_mem_stack (a0 : State) (a1 : Nat) (a2 : Nat) (a3 : State → W256 → State)
      (h3 : ∀ u x, (a3 u x).mem.stack = u.mem.stack) :
    (State.vecAccept a0 a1 a2 a3).mem.stack = a0.mem.stack := by
  unfold State.vecAccept; (repeat' split) <;> simp_all
@[simp] theorem State.vecAccept_kept_boot_flash (a0 : State) (a1 : Nat) (a2 : Nat) (a3 : State → W256 → State)
      (h3 : ∀ u x, (a3 u x).boot.flash = u.boot.flash) :
    (State.vecAccept a0 a1 a2 a3).boot.flash = a0.boot.flash := by
  unfold State.vecAccept; (repeat' split) <;> simp_all
@[simp] theorem State.vecAccept_kept_boot_flashBuf (a0 : State) (a1 : Nat) (a2 : Nat) (a3 : State → W256 → State)
      (h3 : ∀ u x, (a3 u x).boot.flashBuf = u.boot.flashBuf) :
    (State.vecAccept a0 a1 a2 a3).boot.flashBuf = a0.boot.flashBuf := by
  unfold State.vecAccept; (repeat' split) <;> simp_all
@[simp] theorem State.vecAccept_wf_mem_stack (a0 : State) (a1 : Nat) (a2 : Nat) (a3 : State → W256 → State)
      (h3 : ∀ u x, u.mem.stack.wf = true → (a3 u x).mem.stack.wf = true) (hw : a0.mem.stack.wf = true) :
    (State.vecAccept a0 a1 a2 a3).mem.stack.wf = true := by
  unfold State.vecAccept; (repeat' split) <;> simp_all (maxDischargeDepth := 30)
@[simp] theorem State.vecAccept_wf_boot_flash (a0 : State) (a1 : Nat) (a2 : Nat) (a3 : State → W256 → State)
      (h3 : ∀ u x, u.boot.flash.wf = true → (a3 u x).boot.flash.wf = true) (hw : a0.boot.flash.wf = true) :
    (State.vecAccept a0 a1 a2 a3).boot.flash.wf = true := by
  unfold State.vecAccept; (repeat' split) <;> simp_all (maxDischargeDepth := 30)
@[simp] theorem State.vecAccept_wf_boot_flashBuf (a0 : State) (a1 : Nat) (a2 : Nat) (a3 : State → W256 → State)
      (h3 : ∀ u x, u.boot.flashBuf.wf = true → (a3 u x).boot.flashBuf.wf = true) (hw : a0.boot.flashBuf.wf = true) :
    (State.vecAccept a0 a1 a2 a3).boot.flashBuf.wf = true := by
  unfold State.vecAccept; (repeat' split) <;> simp_all (maxDischargeDepth := 30)
@[simp] theorem State.tileDone_kept_mem_stack (a0 : State) (a1 : Nat) (a2 : Nat) (a3 : State → Nat → Nat → State)
      (h3 : ∀ u x y, (a3 u x y).mem.stack = u.mem.stack) :
    (State.tileDone a0 a1 a2 a3).mem.stack = a0.mem.stack := by
  unfold State.tileDone; (repeat' split) <;> simp_all
@[simp] theorem State.tileDone_kept_boot_flash (a0 : State) (a1 : Nat) (a2 : Nat) (a3 : State → Nat → Nat → State)
      (h3 : ∀ u x y, (a3 u x y).boot.flash = u.boot.flash) :
    (State.tileDone a0 a1 a2 a3).boot.flash = a0.boot.flash := by
  unfold State.tileDone; (repeat' split) <;> simp_all
@[simp] theorem State.tileDone_kept_boot_flashBuf (a0 : State) (a1 : Nat) (a2 : Nat) (a3 : State → Nat → Nat → State)
      (h3 : ∀ u x y, (a3 u x y).boot.flashBuf = u.boot.flashBuf) :
    (State.tileDone a0 a1 a2 a3).boot.flashBuf = a0.boot.flashBuf := by
  unfold State.tileDone; (repeat' split) <;> simp_all
@[simp] theorem State.tileDone_wf_mem_stack (a0 : State) (a1 : Nat) (a2 : Nat) (a3 : State → Nat → Nat → State)
      (h3 : ∀ u x y, u.mem.stack.wf = true → (a3 u x y).mem.stack.wf = true) (hw : a0.mem.stack.wf = true) :
    (State.tileDone a0 a1 a2 a3).mem.stack.wf = true := by
  unfold State.tileDone; (repeat' split) <;> simp_all (maxDischargeDepth := 30)
@[simp] theorem State.tileDone_wf_boot_flash (a0 : State) (a1 : Nat) (a2 : Nat) (a3 : State → Nat → Nat → State)
      (h3 : ∀ u x y, u.boot.flash.wf = true → (a3 u x y).boot.flash.wf = true) (hw : a0.boot.flash.wf = true) :
    (State.tileDone a0 a1 a2 a3).boot.flash.wf = true := by
  unfold State.tileDone; (repeat' split) <;> simp_all (maxDischargeDepth := 30)
@[simp] theorem State.tileDone_wf_boot_flashBuf (a0 : State) (a1 : Nat) (a2 : Nat) (a3 : State → Nat → Nat → State)
      (h3 : ∀ u x y, u.boot.flashBuf.wf = true → (a3 u x y).boot.flashBuf.wf = true) (hw : a0.boot.flashBuf.wf = true) :
    (State.tileDone a0 a1 a2 a3).boot.flashBuf.wf = true := by
  unfold State.tileDone; (repeat' split) <;> simp_all (maxDischargeDepth := 30)
@[simp] theorem State.trip_kept (a0 : State) :
    (State.trip a0).boot.flash = a0.boot.flash := by
  unfold State.trip; (repeat' split) <;> simp
@[simp] theorem State.trip_wf_mem_stack (a0 : State)  (hw : a0.mem.stack.wf = true) :
    (State.trip a0).mem.stack.wf = true := by
  unfold State.trip; (repeat' split) <;> simp_all (maxDischargeDepth := 30)
@[simp] theorem State.trip_wf_boot_flashBuf (a0 : State)  (hw : a0.boot.flashBuf.wf = true) :
    (State.trip a0).boot.flashBuf.wf = true := by
  unfold State.trip; (repeat' split) <;> simp_all (maxDischargeDepth := 30)
@[simp] theorem State.verOp_kept_mem_stack (a0 : State) (a1 : Nat) (a2 : Nat) (a3 : State → StkCmd → VerEnt → State)
      (h3 : ∀ u x y, (a3 u x y).mem.stack = u.mem.stack) :
    (State.verOp a0 a1 a2 a3).mem.stack = a0.mem.stack := by
  unfold State.verOp; first | (simp; done) | (apply State.stkOp_kept_mem_stack <;> (intros; (first | (simp; done) | (simp_all; done) | (dsimp only; (repeat' (split <;> try dsimp only)) <;> simp_all; done) | ((repeat' split) <;> simp_all; done))); done) | ((repeat' split) <;> first | (simp; done) | (simp_all; done) | (apply State.stkOp_kept_mem_stack <;> (intros; (first | (simp; done) | (simp_all; done) | (dsimp only; (repeat' (split <;> try dsimp only)) <;> simp_all; done) | ((repeat' split) <;> simp_all; done))); done))
@[simp] theorem State.verOp_kept_boot_flash (a0 : State) (a1 : Nat) (a2 : Nat) (a3 : State → StkCmd → VerEnt → State)
      (h3 : ∀ u x y, (a3 u x y).boot.flash = u.boot.flash) :
    (State.verOp a0 a1 a2 a3).boot.flash = a0.boot.flash := by
  unfold State.verOp; first | (simp; done) | (apply State.stkOp_kept_boot_flash <;> (intros; (first | (simp; done) | (simp_all; done) | (dsimp only; (repeat' (split <;> try dsimp only)) <;> simp_all; done) | ((repeat' split) <;> simp_all; done))); done) | ((repeat' split) <;> first | (simp; done) | (simp_all; done) | (apply State.stkOp_kept_boot_flash <;> (intros; (first | (simp; done) | (simp_all; done) | (dsimp only; (repeat' (split <;> try dsimp only)) <;> simp_all; done) | ((repeat' split) <;> simp_all; done))); done))
@[simp] theorem State.verOp_kept_boot_flashBuf (a0 : State) (a1 : Nat) (a2 : Nat) (a3 : State → StkCmd → VerEnt → State)
      (h3 : ∀ u x y, (a3 u x y).boot.flashBuf = u.boot.flashBuf) :
    (State.verOp a0 a1 a2 a3).boot.flashBuf = a0.boot.flashBuf := by
  unfold State.verOp; first | (simp; done) | (apply State.stkOp_kept_boot_flashBuf <;> (intros; (first | (simp; done) | (simp_all; done) | (dsimp only; (repeat' (split <;> try dsimp only)) <;> simp_all; done) | ((repeat' split) <;> simp_all; done))); done) | ((repeat' split) <;> first | (simp; done) | (simp_all; done) | (apply State.stkOp_kept_boot_flashBuf <;> (intros; (first | (simp; done) | (simp_all; done) | (dsimp only; (repeat' (split <;> try dsimp only)) <;> simp_all; done) | ((repeat' split) <;> simp_all; done))); done))
@[simp] theorem State.verOp_wf_mem_stack (a0 : State) (a1 : Nat) (a2 : Nat) (a3 : State → StkCmd → VerEnt → State)
      (h3 : ∀ u x y, u.mem.stack.wf = true → (a3 u x y).mem.stack.wf = true) (hw : a0.mem.stack.wf = true) :
    (State.verOp a0 a1 a2 a3).mem.stack.wf = true := by
  unfold State.verOp; first | (simp (maxDischargeDepth := 30); done) | (apply State.stkOp_wf_mem_stack <;> (intros; (first | (simp (maxDischargeDepth := 30); done) | (simp_all (maxDischargeDepth := 30); done) | (dsimp only; (repeat' (split <;> try dsimp only)) <;> simp_all (maxDischargeDepth := 30); done) | ((repeat' split) <;> simp_all (maxDischargeDepth := 30); done))); done) | ((repeat' split) <;> first | (simp (maxDischargeDepth := 30); done) | (simp_all (maxDischargeDepth := 30); done) | (apply State.stkOp_wf_mem_stack <;> (intros; (first | (simp (maxDischargeDepth := 30); done) | (simp_all (maxDischargeDepth := 30); done) | (dsimp only; (repeat' (split <;> try dsimp only)) <;> simp_all (maxDischargeDepth := 30); done) | ((repeat' split) <;> simp_all (maxDischargeDepth := 30); done))); done))
@[simp] theorem State.verOp_wf_boot_flash (a0 : State) (a1 : Nat) (a2 : Nat) (a3 : State → StkCmd → VerEnt → State)
      (h3 : ∀ u x y, u.boot.flash.wf = true → (a3 u x y).boot.flash.wf = true) (hw : a0.boot.flash.wf = true) :
    (State.verOp a0 a1 a2 a3).boot.flash.wf = true := by
  unfold State.verOp; first | (simp (maxDischargeDepth := 30); done) | (apply State.stkOp_wf_boot_flash <;> (intros; (first | (simp (maxDischargeDepth := 30); done) | (simp_all (maxDischargeDepth := 30); done) | (dsimp only; (repeat' (split <;> try dsimp only)) <;> simp_all (maxDischargeDepth := 30); done) | ((repeat' split) <;> simp_all (maxDischargeDepth := 30); done))); done) | ((repeat' split) <;> first | (simp (maxDischargeDepth := 30); done) | (simp_all (maxDischargeDepth := 30); done) | (apply State.stkOp_wf_boot_flash <;> (intros; (first | (simp (maxDischargeDepth := 30); done) | (simp_all (maxDischargeDepth := 30); done) | (dsimp only; (repeat' (split <;> try dsimp only)) <;> simp_all (maxDischargeDepth := 30); done) | ((repeat' split) <;> simp_all (maxDischargeDepth := 30); done))); done))
@[simp] theorem State.verOp_wf_boot_flashBuf (a0 : State) (a1 : Nat) (a2 : Nat) (a3 : State → StkCmd → VerEnt → State)
      (h3 : ∀ u x y, u.boot.flashBuf.wf = true → (a3 u x y).boot.flashBuf.wf = true) (hw : a0.boot.flashBuf.wf = true) :
    (State.verOp a0 a1 a2 a3).boot.flashBuf.wf = true := by
  unfold State.verOp; first | (simp (maxDischargeDepth := 30); done) | (apply State.stkOp_wf_boot_flashBuf <;> (intros; (first | (simp (maxDischargeDepth := 30); done) | (simp_all (maxDischargeDepth := 30); done) | (dsimp only; (repeat' (split <;> try dsimp only)) <;> simp_all (maxDischargeDepth := 30); done) | ((repeat' split) <;> simp_all (maxDischargeDepth := 30); done))); done) | ((repeat' split) <;> first | (simp (maxDischargeDepth := 30); done) | (simp_all (maxDischargeDepth := 30); done) | (apply State.stkOp_wf_boot_flashBuf <;> (intros; (first | (simp (maxDischargeDepth := 30); done) | (simp_all (maxDischargeDepth := 30); done) | (dsimp only; (repeat' (split <;> try dsimp only)) <;> simp_all (maxDischargeDepth := 30); done) | ((repeat' split) <;> simp_all (maxDischargeDepth := 30); done))); done))
@[simp] theorem State.wipeMemory_wf_mem_stack (a0 : State) (a1 : Nat)  (hw : a0.mem.stack.wf = true) :
    (State.wipeMemory a0 a1).mem.stack.wf = true := by
  unfold State.wipeMemory; (repeat' split) <;> simp_all (maxDischargeDepth := 30)
@[simp] theorem State.wipeRange_wf_mem_stack (a0 : State) (a1 : Nat) (a2 : Nat) (a3 : Nat)  (hw : a0.mem.stack.wf = true) :
    (State.wipeRange a0 a1 a2 a3).mem.stack.wf = true := by
  unfold State.wipeRange; (repeat' split) <;> simp_all (maxDischargeDepth := 30)
@[simp] theorem State.writeScan_wf_mem_stack (a0 : State) (a1 : Nat)  (hw : a0.mem.stack.wf = true) :
    (State.writeScan a0 a1).mem.stack.wf = true := by
  unfold State.writeScan; (repeat' split) <;> simp_all (maxDischargeDepth := 30)

end Sys2Proof.Machine
end

