-- ==== Sys2Proof/Laws/RegFine.lean ====
section
/-! SUPPORT. Every register, read or written, keeps the queue and the canonical form of the memories. -/

namespace Sys2Proof.Machine

/-- What a register view keeps, read or written: the queue, and the canonical form of the memories. -/
structure RegView.Fine (s : State) (k : RegView) : Prop where
  rdq : k.cleared.pending = s.pending
  wrq : ∀ i x, (k.write i x).1.pending = s.pending
  rdm : s.MemOk → k.cleared.MemOk
  wrm : ∀ i x, s.MemOk → (k.write i x).1.MemOk

/-- The same of a register that may not exist. -/
def optFine (s : State) (o : Option RegView) : Prop := ∀ k, o = some k → k.Fine s

@[simp] theorem optFine_none (s : State) : optFine s none := fun _ h => by contradiction
@[simp] theorem optFine_some (s : State) (k : RegView) : optFine s (some k) ↔ k.Fine s :=
  ⟨fun h => h k rfl, fun h _ e => by cases e; exact h⟩
@[simp] theorem optFine_map {α : Type} (s : State) (o : Option α) (f : α → RegView) (h : ∀ x, (f x).Fine s) : optFine s (o.map f) :=
  fun k e => by cases o with
    | none => contradiction
    | some x => cases e; exact h x
@[simp] theorem optFine_bind {α : Type} (s : State) (o : Option α) (f : α → Option RegView) (h : ∀ x, optFine s (f x)) : optFine s (o.bind f) :=
  fun k e => by cases o with
    | none => contradiction
    | some x => exact h x k e
theorem optFine_ite {s : State} {c : Prop} [Decidable c] {a b : Option RegView} (ha : optFine s a) (hb : optFine s b) : optFine s (if c then a else b) := by
  split <;> assumption
@[simp] theorem State.fine_roReg (s : State) (a b c : Nat) : (s.roReg a b c).Fine s := ⟨rfl, fun _ _ => rfl, id, fun _ _ => id⟩
@[simp] theorem State.fine_rcReg (s : State) (a b c : Nat) (t : State) : (s.rcReg a b c t).Fine s ↔ t.pending = s.pending ∧ (s.MemOk → t.MemOk) :=
  ⟨fun h => ⟨h.rdq, h.rdm⟩, fun h => ⟨h.1, fun _ _ => rfl, h.2, fun _ _ => id⟩⟩
@[simp] theorem State.fine_rwReg (s : State) (a b c : Nat) (f : Nat → Nat → State × Nat) :
    (s.rwReg a b c f).Fine s ↔ (∀ i x, (f i x).1.pending = s.pending) ∧ (∀ i x, s.MemOk → (f i x).1.MemOk) :=
  ⟨fun h => ⟨h.wrq, h.wrm⟩, fun h => ⟨rfl, h.1, id, h.2⟩⟩
@[simp] theorem RegView.fine_mk (s : State) (a b c : Nat) (t : State) (f : Nat → Nat → State × Nat) :
    RegView.Fine s ⟨a, b, c, t, f⟩ ↔ t.pending = s.pending ∧ (∀ i x, (f i x).1.pending = s.pending) ∧ (s.MemOk → t.MemOk) ∧ (∀ i x, s.MemOk → (f i x).1.MemOk) :=
  ⟨fun h => ⟨h.rdq, h.wrq, h.rdm, h.wrm⟩, fun h => ⟨h.1, h.2.1, h.2.2.1, h.2.2.2⟩⟩
@[simp] theorem State.fine_vatReg1 (s : State) (v a b c : Nat) (f : Nat → Nat → Vat → Vat) : (s.vatReg1 v a b c f).Fine s :=
  ⟨rfl, fun _ _ => by simp [State.vatReg1], id, fun _ _ => by simp [State.vatReg1, State.MemOk]⟩
@[simp] theorem State.acctReg_fine (a0 : State) (a1 : Who) (a2 : Nat) : optFine a0 (State.acctReg a0 a1 a2) := by
  unfold State.acctReg; (repeat' split) <;> simp (maxDischargeDepth := 30) +contextual [State.MemOk]
@[simp] theorem State.bootReg_fine (a0 : State) (a1 : Who) (a2 : Nat) : optFine a0 (State.bootReg a0 a1 a2) := by
  unfold State.bootReg; dsimp only; (repeat' apply optFine_ite) <;> first | (simp (maxDischargeDepth := 30) +contextual [State.MemOk]; done) | (rw [optFine_some, State.fine_rwReg]; constructor <;> intros <;> (split <;> simp_all (maxDischargeDepth := 30) [State.MemOk]))
@[simp] theorem State.chtabReg_fine (a0 : State) (a1 : Who) (a2 : Nat) (a3 : Nat) (a4 : Nat)
      (a5 : Nat) : RegView.Fine a0 (State.chtabReg a0 a1 a2 a3 a4 a5) := by
  unfold State.chtabReg; (repeat' split) <;> simp (maxDischargeDepth := 30) +contextual [State.MemOk]
@[simp] theorem State.ctrReg_fine (a0 : State) (a1 : Who) (a2 : Nat) (a3 : Nat) : RegView.Fine a0 (State.ctrReg a0 a1 a2 a3) := by
  unfold State.ctrReg; (repeat' split) <;> simp (maxDischargeDepth := 30) +contextual [State.MemOk]
@[simp] theorem State.nodeReg_fine (a0 : State) (a1 : Who) (a2 : Nat) (a3 : Nat) : optFine a0 (State.nodeReg a0 a1 a2 a3) := by
  unfold State.nodeReg; (repeat' split) <;> simp (maxDischargeDepth := 30) +contextual [State.MemOk]
@[simp] theorem State.clReg_fine (a0 : State) (a1 : Who) (a2 : Nat) (a3 : Nat) : optFine a0 (State.clReg a0 a1 a2 a3) := by
  unfold State.clReg; (repeat' split) <;> simp (maxDischargeDepth := 30) +contextual [State.MemOk]
@[simp] theorem State.claimReg_fine (a0 : State) (a1 : Nat) (a2 : Nat) : RegView.Fine a0 (State.claimReg a0 a1 a2) := by
  unfold State.claimReg; (repeat' split) <;> simp (maxDischargeDepth := 30) +contextual [State.MemOk]
@[simp] theorem State.completeReg_fine (a0 : State) (a1 : Who) (a2 : Nat) (a3 : Nat) : RegView.Fine a0 (State.completeReg a0 a1 a2 a3) := by
  unfold State.completeReg; (repeat' split) <;> simp (maxDischargeDepth := 30) +contextual [State.MemOk]
@[simp] theorem State.connReg_fine (a0 : State) (a1 : Who) (a2 : Nat) : optFine a0 (State.connReg a0 a1 a2) := by
  unfold State.connReg; (repeat' split) <;> simp (maxDischargeDepth := 30) +contextual [State.MemOk]
@[simp] theorem State.statReg_fine (a0 : State) (a1 : Nat) (a2 : Nat) (a3 : Nat) : optFine a0 (State.statReg a0 a1 a2 a3) := by
  unfold State.statReg; (repeat' split) <;> simp (maxDischargeDepth := 30) +contextual [State.MemOk]
@[simp] theorem State.coreReg_fine (a0 : State) (a1 : Who) (a2 : Nat) (a3 : Nat) (a4 : Nat) : optFine a0 (State.coreReg a0 a1 a2 a3 a4) := by
  unfold State.coreReg; (repeat' split) <;> simp (maxDischargeDepth := 30) +contextual [State.MemOk]
@[simp] theorem State.fuseReg_fine (a0 : State) (a1 : Nat) : optFine a0 (State.fuseReg a0 a1) := by
  unfold State.fuseReg; (repeat' split) <;> simp (maxDischargeDepth := 30) +contextual [State.MemOk]
@[simp] theorem State.devReg_fine (a0 : State) (a1 : Who) (a2 : Nat) : optFine a0 (State.devReg a0 a1 a2) := by
  unfold State.devReg; (repeat' split) <;> simp (maxDischargeDepth := 30) +contextual [State.MemOk]
@[simp] theorem State.gtcReg_fine (a0 : State) (a1 : Who) (a2 : Nat) : optFine a0 (State.gtcReg a0 a1 a2) := by
  unfold State.gtcReg; (repeat' split) <;> simp (maxDischargeDepth := 30) +contextual [State.MemOk]
@[simp] theorem State.ringReg_fine (a0 : State) (a1 : Who) (a2 : Nat) (a3 : Nat) : optFine a0 (State.ringReg a0 a1 a2 a3) := by
  unfold State.ringReg; dsimp only; (repeat' (split <;> try dsimp only)) <;> first | (simp; done) | (simp_all (maxDischargeDepth := 30) [State.MemOk]; done) | ((first | apply optFine_map | skip) <;> (first | rw [optFine_some] | skip); intros; constructor <;> intros <;> (try dsimp only) <;> (repeat' (split <;> try dsimp only)) <;> simp_all (maxDischargeDepth := 30) [State.MemOk])
@[simp] theorem State.segReg_fine (a0 : State) (a1 : Nat) (a2 : Nat) (a3 : Nat) : RegView.Fine a0 (State.segReg a0 a1 a2 a3) := by
  unfold State.segReg; (repeat' split) <;> simp (maxDischargeDepth := 30) +contextual [State.MemOk]
@[simp] theorem State.hostReg_fine (a0 : State) (a1 : Who) (a2 : Nat) : optFine a0 (State.hostReg a0 a1 a2) := by
  unfold State.hostReg; (repeat' split) <;> simp (maxDischargeDepth := 30) +contextual [State.MemOk]
@[simp] theorem State.irqReg_fine (a0 : State) (a1 : Who) (a2 : Nat) : optFine a0 (State.irqReg a0 a1 a2) := by
  unfold State.irqReg; (repeat' split) <;> simp (maxDischargeDepth := 30) +contextual [State.MemOk]
@[simp] theorem State.logReg_fine (a0 : State) (a1 : Who) (a2 : Nat) : optFine a0 (State.logReg a0 a1 a2) := by
  unfold State.logReg; (repeat' split) <;> simp (maxDischargeDepth := 30) +contextual [State.MemOk]
@[simp] theorem State.mgmtReg_fine (a0 : State) (a1 : Who) (a2 : Nat) : optFine a0 (State.mgmtReg a0 a1 a2) := by
  unfold State.mgmtReg; (repeat' split) <;> simp (maxDischargeDepth := 30) +contextual [State.MemOk]
@[simp] theorem State.pwrReg_fine (a0 : State) (a1 : Who) (a2 : Nat) : optFine a0 (State.pwrReg a0 a1 a2) := by
  unfold State.pwrReg; dsimp only; (repeat' apply optFine_ite) <;> first | (simp (maxDischargeDepth := 30) +contextual [State.MemOk]; done) | (split <;> simp (maxDischargeDepth := 30) +contextual [State.MemOk])
@[simp] theorem State.portReg_fine (a0 : State) (a1 : Who) (a2 : Nat) (a3 : Nat) : optFine a0 (State.portReg a0 a1 a2 a3) := by
  unfold State.portReg; (repeat' split) <;> simp (maxDischargeDepth := 30) +contextual [State.MemOk]
@[simp] theorem State.spanReg_fine (a0 : State) (a1 : Who) (a2 : Nat) : optFine a0 (State.spanReg a0 a1 a2) := by
  unfold State.spanReg; (repeat' split) <;> simp (maxDischargeDepth := 30) +contextual [State.MemOk]
@[simp] theorem State.stkReg_fine (a0 : State) (a1 : Who) (a2 : Nat) : optFine a0 (State.stkReg a0 a1 a2) := by
  unfold State.stkReg; (repeat' split) <;> simp (maxDischargeDepth := 30) +contextual [State.MemOk]
@[simp] theorem State.syncfReg_fine (a0 : State) (a1 : Who) (a2 : Nat) : optFine a0 (State.syncfReg a0 a1 a2) := by
  unfold State.syncfReg; (repeat' split) <;> simp (maxDischargeDepth := 30) +contextual [State.MemOk]
@[simp] theorem State.twinReg_fine (a0 : State) (a1 : Who) (a2 : Nat) : optFine a0 (State.twinReg a0 a1 a2) := by
  unfold State.twinReg; (repeat' split) <;> simp (maxDischargeDepth := 30) +contextual [State.MemOk]
@[simp] theorem State.hubReg_fine (a0 : State) (a1 : Who) (a2 : Nat) (a3 : Nat) : optFine a0 (State.hubReg a0 a1 a2 a3) := by
  unfold State.hubReg; (repeat' split) <;> simp (maxDischargeDepth := 30) +contextual [State.MemOk]
@[simp] theorem State.seqReg_fine (a0 : State) (a1 : Nat) : RegView.Fine a0 (State.seqReg a0 a1) := by
  unfold State.seqReg; (repeat' split) <;> simp (maxDischargeDepth := 30) +contextual [State.MemOk]
@[simp] theorem State.istoreReg_fine (a0 : State) (a1 : Who) (a2 : Nat) (a3 : Nat) (a4 : Nat) : RegView.Fine a0 (State.istoreReg a0 a1 a2 a3 a4) := by
  unfold State.istoreReg; (repeat' split) <;> simp (maxDischargeDepth := 30) +contextual [State.MemOk]
@[simp] theorem State.vatAreaReg_fine (a0 : State) (a1 : Who) (a2 : Nat) (a3 : Nat) (a4 : Nat) : optFine a0 (State.vatAreaReg a0 a1 a2 a3 a4) := by
  unfold State.vatAreaReg; (repeat' split) <;> simp (maxDischargeDepth := 30) +contextual [State.MemOk]
@[simp] theorem State.vatArrayReg_fine (a0 : State) (a1 : Who) (a2 : Nat) (a3 : Nat) (a4 : Nat) : optFine a0 (State.vatArrayReg a0 a1 a2 a3 a4) := by
  unfold State.vatArrayReg; (repeat' split) <;> simp (maxDischargeDepth := 30) +contextual [State.MemOk]
@[simp] theorem State.vatDetReg_fine (a0 : State) (a1 : Nat) (a2 : Nat) (a3 : Nat) : optFine a0 (State.vatDetReg a0 a1 a2 a3) := by
  unfold State.vatDetReg; (repeat' split) <;> simp (maxDischargeDepth := 30) +contextual [State.MemOk]
@[simp] theorem State.vatJobReg_fine (a0 : State) (a1 : Who) (a2 : Nat) (a3 : Nat) (a4 : Nat) : optFine a0 (State.vatJobReg a0 a1 a2 a3 a4) := by
  unfold State.vatJobReg; (repeat' split) <;> simp (maxDischargeDepth := 30) +contextual [State.MemOk]
@[simp] theorem State.vatLoadReg_fine (a0 : State) (a1 : Who) (a2 : Nat) (a3 : Nat) (a4 : Nat) : optFine a0 (State.vatLoadReg a0 a1 a2 a3 a4) := by
  unfold State.vatLoadReg; (repeat' split) <;> simp (maxDischargeDepth := 30) +contextual [State.MemOk]
@[simp] theorem State.vatBlock_fine (a0 : State) (a1 : Who) (a2 : Nat) (a3 : Nat) : optFine a0 (State.vatBlock a0 a1 a2 a3) := by
  unfold State.vatBlock; dsimp only; (repeat' apply optFine_ite) <;> first | (simp (maxDischargeDepth := 30) +contextual [State.MemOk]; done) | (split <;> first | exact State.vatArrayReg_fine _ _ _ _ _ | (rename_i h; exact fun k e => by cases e; exact State.vatAreaReg_fine _ _ _ _ _ _ h))
@[simp] theorem State.regAt_fine (a0 : State) (a1 : Who) (a2 : Nat) : optFine a0 (State.regAt a0 a1 a2) := by
  unfold State.regAt; (repeat' split) <;> simp (maxDischargeDepth := 30) +contextual [State.MemOk]
theorem State.regFind_fine {s : State} {w : Who} {off size : Nat} {wr : Bool} {k : RegView} {a : Nat} (h : s.regFind w off size wr = .ok (k, a)) : k.Fine s := by
  unfold State.regFind at h
  split at h
  · contradiction
  · dsimp only at h
    split at h
    · contradiction
    · split at h
      · contradiction
      · rename_i hk
        split at h
        · cases h; exact State.regAt_fine _ _ _ _ hk
        · contradiction
@[simp] theorem State.touchCore_memOk (s : State) (w : Who) (o : Nat) (b : Bool) : (s.touchCore w o b).MemOk ↔ s.MemOk := by simp [State.MemOk]
theorem State.freshView_fine {s : State} {w : Who} {off size : Nat} {k : RegView} (hk : k.Fine s) :
    RegView.Fine s ((s.touchCore w off false).freshView w off size k) := by
  unfold State.freshView
  split
  · rename_i h2
    have f := State.regFind_fine h2
    exact ⟨by rw [f.rdq]; simp, fun i x => by rw [f.wrq]; simp, fun h => f.rdm (by simp [h]), fun i x h => f.wrm i x (by simp [h])⟩
  · exact hk
@[simp] theorem State.regRead_pending (s : State) (w : Who) (off size : Nat) : (s.regRead w off size).1.pending = s.pending := by
  unfold State.regRead
  split
  · simp
  · split
    · simp
    · rename_i k a hk
      have f : RegView.Fine s ((s.touchCore w off false).freshView w off size k) := State.freshView_fine (State.regFind_fine hk)
      have := f.rdq
      dsimp only
      (repeat' split) <;> simp_all
theorem State.regRead_memOk (s : State) (w : Who) (off size : Nat) (h : s.MemOk) : (s.regRead w off size).1.MemOk := by
  unfold State.regRead
  split
  · have : (s.scanRead w (off - 0x3000000) size).1.MemOk ↔ s.MemOk := by simp [State.MemOk]
    exact this.2 h
  · split
    · have : ∀ st, ((s.regRefuse w st off)).MemOk ↔ s.MemOk := by simp [State.MemOk]
      exact (this _).2 h
    · rename_i k a hk
      have f : RegView.Fine s ((s.touchCore w off false).freshView w off size k) := State.freshView_fine (State.regFind_fine hk)
      have := f.rdm h
      have ks : ∀ (u : State) (k : RegView), (u.keepSnap w k).MemOk ↔ u.MemOk := by simp [State.MemOk]
      dsimp only
      (repeat' split) <;> simp_all
@[simp] theorem State.regWrite_pending (s : State) (w : Who) (off size x : Nat) : (s.regWrite w off size x).1.pending = s.pending := by
  unfold State.regWrite
  split
  · simp
  · split
    · simp [State.deny]
    · split
      · simp [State.deny]
      · rename_i h2; rw [(State.regFind_fine h2).wrq]; simp
theorem State.regWrite_memOk (s : State) (w : Who) (off size x : Nat) (h : s.MemOk) : (s.regWrite w off size x).1.MemOk := by
  unfold State.regWrite
  have hd : ∀ st, (s.deny w off st).1.MemOk ↔ s.MemOk := by simp [State.MemOk, State.deny]
  split
  · have : (s.scanWrite w (off - 0x3000000) size x).1.MemOk ↔ s.MemOk := by simp [State.MemOk]
    exact this.2 h
  · split
    · exact (hd _).2 h
    · split
      · exact (hd _).2 h
      · rename_i h2; exact (State.regFind_fine h2).wrm _ _ (by simp [h])

@[simp] theorem State.readCmd_pending (s : State) (w : Who) (off size : Nat) : (s.readCmd w off size).pending = s.pending := by
  unfold State.readCmd; dsimp only; (repeat' split) <;> simp
theorem State.readCmd_memOk (s : State) (w : Who) (off size : Nat) (h : s.MemOk) : (s.readCmd w off size).MemOk := by
  have hr := State.regRead_memOk s w off size h
  unfold State.MemOk at h hr ⊢
  unfold State.readCmd; dsimp only; (repeat' split) <;> simp [h, hr]
@[simp] theorem State.writeCmd_pending (s : State) (w : Who) (off size x : Nat) : (s.writeCmd w off size x).pending = s.pending := by
  unfold State.writeCmd; dsimp only; (repeat' split) <;> simp
theorem State.writeCmd_memOk (s : State) (w : Who) (off size x : Nat) (h : s.MemOk) : (s.writeCmd w off size x).MemOk := by
  have hr := State.regWrite_memOk s w off size x h
  unfold State.MemOk at h hr ⊢
  unfold State.writeCmd; dsimp only; (repeat' split) <;> simp [h, hr]
@[simp] theorem State.dapRead_pending (s : State) (a n : Nat) : (s.dapRead a n).1.pending = s.pending := by
  unfold State.dapRead; (repeat' (split <;> try dsimp only)) <;> simp
theorem State.dapRead_memOk (s : State) (a n : Nat) (h : s.MemOk) : (s.dapRead a n).1.MemOk := by
  have hr := fun o => State.regRead_memOk s .debug o n h
  unfold State.MemOk at h hr ⊢
  unfold State.dapRead; (repeat' (split <;> try dsimp only)) <;> simp [h, hr]
@[simp] theorem State.dapWrite_pending (s : State) (a n x : Nat) : (s.dapWrite a n x).1.pending = s.pending := by
  unfold State.dapWrite; (repeat' (split <;> try dsimp only)) <;> simp [State.deny]
theorem State.dapWrite_memOk (s : State) (a n x : Nat) (h : s.MemOk) : (s.dapWrite a n x).1.MemOk := by
  have hr := fun o => State.regWrite_memOk s .debug o n x h
  unfold State.MemOk at h hr ⊢
  unfold State.dapWrite; (repeat' (split <;> try dsimp only)) <;> simp (maxDischargeDepth := 30) [h, hr, State.deny]
@[simp] theorem State.firmwareWrite_pending (s : State) (off size x : Nat) : (s.firmwareWrite off size x).pending = s.pending := by
  unfold State.firmwareWrite; (repeat' split) <;> simp
theorem State.firmwareWrite_memOk (s : State) (off size x : Nat) (h : s.MemOk) : (s.firmwareWrite off size x).MemOk := by
  have hb : ∀ f : Boot → Boot, (∀ b, (f b).flash = b.flash ∧ (f b).flashBuf = b.flashBuf) → (s.modBoot f).MemOk := by
    intro f hf
    unfold State.MemOk at h ⊢
    simp [hf, h]
  unfold State.firmwareWrite
  (repeat' split) <;> first | exact h | exact State.writeCmd_memOk _ _ _ _ _ h | exact State.writeCmd_memOk _ _ _ _ _ (hb _ (fun _ => ⟨rfl, rfl⟩)) | exact hb _ (fun _ => ⟨rfl, rfl⟩)

end Sys2Proof.Machine
end

