-- ==== Sys2Proof/Laws/Exec1.lean ====
section
/-! SUPPORT. What each meaning leaves unchanged: the parts of the state it does not touch, and the canonical form of the memories (1 of 6). -/

namespace Sys2Proof.Machine

theorem State.dapStart_memOk (s : State) (f : State → State × Nat × Nat) (h : s.MemOk) (hf : (f s).1.MemOk) : (s.dapStart f).MemOk := by
  unfold State.dapStart; split
  · exact h
  · exact hf
@[simp] theorem State.wakeCl_memOk (s : State) (c : Nat) : (s.wakeCl c).MemOk ↔ s.MemOk := by simp [State.MemOk]
@[simp] theorem State.regRefuse_memOk (s : State) (w : Who) (a b : Nat) : (s.regRefuse w a b).MemOk ↔ s.MemOk := by simp [State.MemOk]
@[simp] theorem execAcc96InputHalt_same (a0 : Nat) (a1 : State) :
    (resState a1 (execAcc96InputHalt a0 a1)).pending = a1.pending ∧ (resState a1 (execAcc96InputHalt a0 a1)).clk = a1.clk ∧
      (resState a1 (execAcc96InputHalt a0 a1)).mem = a1.mem ∧ (resState a1 (execAcc96InputHalt a0 a1)).span = a1.span ∧
      (resState a1 (execAcc96InputHalt a0 a1)).host = a1.host ∧ (resState a1 (execAcc96InputHalt a0 a1)).boot = a1.boot ∧
      (resState a1 (execAcc96InputHalt a0 a1)).free = a1.free := by
  unfold execAcc96InputHalt; (repeat' split) <;> simp
@[simp] theorem execAccInFormatHalt_same (a0 : Nat) (a1 : State) :
    (resState a1 (execAccInFormatHalt a0 a1)).pending = a1.pending ∧ (resState a1 (execAccInFormatHalt a0 a1)).clk = a1.clk ∧
      (resState a1 (execAccInFormatHalt a0 a1)).vats = a1.vats ∧ (resState a1 (execAccInFormatHalt a0 a1)).mem = a1.mem ∧
      (resState a1 (execAccInFormatHalt a0 a1)).span = a1.span ∧ (resState a1 (execAccInFormatHalt a0 a1)).host = a1.host ∧
      (resState a1 (execAccInFormatHalt a0 a1)).boot = a1.boot ∧ (resState a1 (execAccInFormatHalt a0 a1)).free = a1.free := by
  unfold execAccInFormatHalt; dsimp only; (repeat' (split <;> try dsimp only)) <;> simp_all
@[simp] theorem execAccept_same (a0 : Nat) (a1 : ChMsg) (a2 : State) :
    (resState a2 (execAccept a0 a1 a2)).pending = a2.pending ∧ (resState a2 (execAccept a0 a1 a2)).clk = a2.clk ∧
      (resState a2 (execAccept a0 a1 a2)).mem = a2.mem ∧ (resState a2 (execAccept a0 a1 a2)).host = a2.host ∧
      (resState a2 (execAccept a0 a1 a2)).boot = a2.boot ∧ (resState a2 (execAccept a0 a1 a2)).free = a2.free := by
  unfold execAccept; rw [resState_next]; refine ⟨by apply State.chanArrive_same_pending; intros; (repeat' split) <;> simp, by apply State.chanArrive_same_clk; intros; (repeat' split) <;> simp, by apply State.chanArrive_same_mem; intros; (repeat' split) <;> simp, by apply State.chanArrive_same_host; intros; (repeat' split) <;> simp, by apply State.chanArrive_same_boot; intros; (repeat' split) <;> simp, by apply State.chanArrive_same_free; intros; (repeat' split) <;> simp⟩
@[simp] theorem execAccountingWindowEnd_same (a0 : State) :
    (resState a0 (execAccountingWindowEnd a0)).pending = a0.pending ∧ (resState a0 (execAccountingWindowEnd a0)).clk = a0.clk ∧
      (resState a0 (execAccountingWindowEnd a0)).cores = a0.cores ∧ (resState a0 (execAccountingWindowEnd a0)).net = a0.net ∧
      (resState a0 (execAccountingWindowEnd a0)).host = a0.host ∧ (resState a0 (execAccountingWindowEnd a0)).boot = a0.boot ∧
      (resState a0 (execAccountingWindowEnd a0)).free = a0.free := by
  unfold execAccountingWindowEnd; (try dsimp only); rw [resState_next]; split <;> simp
@[simp] theorem execAccountingWindowEnd_wf_mem_stack (a0 : State)  (hw : a0.mem.stack.wf = true) :
    (resState a0 (execAccountingWindowEnd a0)).mem.stack.wf = true := by
  unfold execAccountingWindowEnd; extract_lets p j e live s1 s2 a; rw [resState_next]; split
  · exact hw
  · have h1 : s1.mem.stack.wf = true := State.acctWrite_wf_mem_stack _ _ _ _ (State.mem_stack_wf_foldl _ (fun u x h => State.acctWrite_wf_mem_stack u x 0 e h) _ _ hw)
    have h2 : s2.mem = s1.mem := State.mem_foldl _ (fun u x => by simp only [State.modVat_same]) _ _
    show s2.mem.stack.wf = true
    rw [h2]; exact h1
@[simp] theorem execAccum_same (a0 : Nat) (a1 : State) :
    (resState a1 (execAccum a0 a1)).pending = a1.pending ∧ (resState a1 (execAccum a0 a1)).clk = a1.clk ∧
      (resState a1 (execAccum a0 a1)).net = a1.net ∧ (resState a1 (execAccum a0 a1)).host = a1.host ∧
      (resState a1 (execAccum a0 a1)).boot = a1.boot ∧ (resState a1 (execAccum a0 a1)).free = a1.free := by
  unfold execAccum; refine ⟨by first | (simp; done) | (rw [resState_next]; apply State.stkOp_same_pending; intros; (first | (simp; done) | (dsimp only; (repeat' (split <;> try dsimp only)) <;> simp_all)); done) | ((repeat' split) <;> first | (simp; done) | (rw [resState_next]; apply State.stkOp_same_pending; intros; (first | (simp; done) | (dsimp only; (repeat' (split <;> try dsimp only)) <;> simp_all)); done)), by first | (simp; done) | (rw [resState_next]; apply State.stkOp_same_clk; intros; (first | (simp; done) | (dsimp only; (repeat' (split <;> try dsimp only)) <;> simp_all)); done) | ((repeat' split) <;> first | (simp; done) | (rw [resState_next]; apply State.stkOp_same_clk; intros; (first | (simp; done) | (dsimp only; (repeat' (split <;> try dsimp only)) <;> simp_all)); done)), by first | (simp; done) | (rw [resState_next]; apply State.stkOp_same_net; intros; (first | (simp; done) | (dsimp only; (repeat' (split <;> try dsimp only)) <;> simp_all)); done) | ((repeat' split) <;> first | (simp; done) | (rw [resState_next]; apply State.stkOp_same_net; intros; (first | (simp; done) | (dsimp only; (repeat' (split <;> try dsimp only)) <;> simp_all)); done)), by first | (simp; done) | (rw [resState_next]; apply State.stkOp_same_host; intros; (first | (simp; done) | (dsimp only; (repeat' (split <;> try dsimp only)) <;> simp_all)); done) | ((repeat' split) <;> first | (simp; done) | (rw [resState_next]; apply State.stkOp_same_host; intros; (first | (simp; done) | (dsimp only; (repeat' (split <;> try dsimp only)) <;> simp_all)); done)), by first | (simp; done) | (rw [resState_next]; apply State.stkOp_same_boot; intros; (first | (simp; done) | (dsimp only; (repeat' (split <;> try dsimp only)) <;> simp_all)); done) | ((repeat' split) <;> first | (simp; done) | (rw [resState_next]; apply State.stkOp_same_boot; intros; (first | (simp; done) | (dsimp only; (repeat' (split <;> try dsimp only)) <;> simp_all)); done)), by first | (simp; done) | (rw [resState_next]; apply State.stkOp_same_free; intros; (first | (simp; done) | (dsimp only; (repeat' (split <;> try dsimp only)) <;> simp_all)); done) | ((repeat' split) <;> first | (simp; done) | (rw [resState_next]; apply State.stkOp_same_free; intros; (first | (simp; done) | (dsimp only; (repeat' (split <;> try dsimp only)) <;> simp_all)); done))⟩
@[simp] theorem execAccum_wf_mem_stack (a0 : Nat) (a1 : State)  (hw : a1.mem.stack.wf = true) :
    (resState a1 (execAccum a0 a1)).mem.stack.wf = true := by
  unfold execAccum; first | (simp (maxDischargeDepth := 30); done) | (rw [resState_next]; apply State.stkOp_wf_mem_stack <;> (intros; (first | (simp (maxDischargeDepth := 30); done) | (simp_all (maxDischargeDepth := 30); done) | (dsimp only; (repeat' (split <;> try dsimp only)) <;> simp_all (maxDischargeDepth := 30); done) | ((repeat' split) <;> simp_all (maxDischargeDepth := 30); done))); done) | ((repeat' split) <;> first | (simp (maxDischargeDepth := 30); done) | (simp_all (maxDischargeDepth := 30); done) | (rw [resState_next]; apply State.stkOp_wf_mem_stack <;> (intros; (first | (simp (maxDischargeDepth := 30); done) | (simp_all (maxDischargeDepth := 30); done) | (dsimp only; (repeat' (split <;> try dsimp only)) <;> simp_all (maxDischargeDepth := 30); done) | ((repeat' split) <;> simp_all (maxDischargeDepth := 30); done))); done))
@[simp] theorem execAckWindowExpiry_same (a0 : Nat) (a1 : Nat) (a2 : State) :
    (resState a2 (execAckWindowExpiry a0 a1 a2)).pending = a2.pending ∧ (resState a2 (execAckWindowExpiry a0 a1 a2)).clk = a2.clk ∧
      (resState a2 (execAckWindowExpiry a0 a1 a2)).mem = a2.mem ∧ (resState a2 (execAckWindowExpiry a0 a1 a2)).span = a2.span ∧
      (resState a2 (execAckWindowExpiry a0 a1 a2)).host = a2.host ∧ (resState a2 (execAckWindowExpiry a0 a1 a2)).boot = a2.boot ∧
      (resState a2 (execAckWindowExpiry a0 a1 a2)).free = a2.free := by
  unfold execAckWindowExpiry; (repeat' split) <;> simp
@[simp] theorem execAdam_same (a0 : Nat) (a1 : State) :
    (resState a1 (execAdam a0 a1)).pending = a1.pending ∧ (resState a1 (execAdam a0 a1)).clk = a1.clk ∧
      (resState a1 (execAdam a0 a1)).net = a1.net ∧ (resState a1 (execAdam a0 a1)).host = a1.host ∧ (resState a1 (execAdam a0 a1)).boot = a1.boot ∧
      (resState a1 (execAdam a0 a1)).free = a1.free := by
  unfold execAdam; refine ⟨by first | (simp; done) | (rw [resState_next]; apply State.stkOp_same_pending; intros; (first | (simp; done) | (dsimp only; (repeat' (split <;> try dsimp only)) <;> simp_all)); done) | ((repeat' split) <;> first | (simp; done) | (rw [resState_next]; apply State.stkOp_same_pending; intros; (first | (simp; done) | (dsimp only; (repeat' (split <;> try dsimp only)) <;> simp_all)); done)), by first | (simp; done) | (rw [resState_next]; apply State.stkOp_same_clk; intros; (first | (simp; done) | (dsimp only; (repeat' (split <;> try dsimp only)) <;> simp_all)); done) | ((repeat' split) <;> first | (simp; done) | (rw [resState_next]; apply State.stkOp_same_clk; intros; (first | (simp; done) | (dsimp only; (repeat' (split <;> try dsimp only)) <;> simp_all)); done)), by first | (simp; done) | (rw [resState_next]; apply State.stkOp_same_net; intros; (first | (simp; done) | (dsimp only; (repeat' (split <;> try dsimp only)) <;> simp_all)); done) | ((repeat' split) <;> first | (simp; done) | (rw [resState_next]; apply State.stkOp_same_net; intros; (first | (simp; done) | (dsimp only; (repeat' (split <;> try dsimp only)) <;> simp_all)); done)), by first | (simp; done) | (rw [resState_next]; apply State.stkOp_same_host; intros; (first | (simp; done) | (dsimp only; (repeat' (split <;> try dsimp only)) <;> simp_all)); done) | ((repeat' split) <;> first | (simp; done) | (rw [resState_next]; apply State.stkOp_same_host; intros; (first | (simp; done) | (dsimp only; (repeat' (split <;> try dsimp only)) <;> simp_all)); done)), by first | (simp; done) | (rw [resState_next]; apply State.stkOp_same_boot; intros; (first | (simp; done) | (dsimp only; (repeat' (split <;> try dsimp only)) <;> simp_all)); done) | ((repeat' split) <;> first | (simp; done) | (rw [resState_next]; apply State.stkOp_same_boot; intros; (first | (simp; done) | (dsimp only; (repeat' (split <;> try dsimp only)) <;> simp_all)); done)), by first | (simp; done) | (rw [resState_next]; apply State.stkOp_same_free; intros; (first | (simp; done) | (dsimp only; (repeat' (split <;> try dsimp only)) <;> simp_all)); done) | ((repeat' split) <;> first | (simp; done) | (rw [resState_next]; apply State.stkOp_same_free; intros; (first | (simp; done) | (dsimp only; (repeat' (split <;> try dsimp only)) <;> simp_all)); done))⟩
@[simp] theorem execAdam_wf_mem_stack (a0 : Nat) (a1 : State)  (hw : a1.mem.stack.wf = true) :
    (resState a1 (execAdam a0 a1)).mem.stack.wf = true := by
  unfold execAdam; first | (simp (maxDischargeDepth := 30); done) | (rw [resState_next]; apply State.stkOp_wf_mem_stack <;> (intros; (first | (simp (maxDischargeDepth := 30); done) | (simp_all (maxDischargeDepth := 30); done) | (dsimp only; (repeat' (split <;> try dsimp only)) <;> simp_all (maxDischargeDepth := 30); done) | ((repeat' split) <;> simp_all (maxDischargeDepth := 30); done))); done) | ((repeat' split) <;> first | (simp (maxDischargeDepth := 30); done) | (simp_all (maxDischargeDepth := 30); done) | (rw [resState_next]; apply State.stkOp_wf_mem_stack <;> (intros; (first | (simp (maxDischargeDepth := 30); done) | (simp_all (maxDischargeDepth := 30); done) | (dsimp only; (repeat' (split <;> try dsimp only)) <;> simp_all (maxDischargeDepth := 30); done) | ((repeat' split) <;> simp_all (maxDischargeDepth := 30); done))); done))
@[simp] theorem execAdd_same (a0 : Nat) (a1 : Guard) (a2 : Reg) (a3 : Reg) (a4 : Reg) (a5 : State) :
    (resState a5 (execAdd a0 a1 a2 a3 a4 a5)).pending = a5.pending ∧ (resState a5 (execAdd a0 a1 a2 a3 a4 a5)).clk = a5.clk ∧
      (resState a5 (execAdd a0 a1 a2 a3 a4 a5)).mem = a5.mem ∧ (resState a5 (execAdd a0 a1 a2 a3 a4 a5)).span = a5.span ∧
      (resState a5 (execAdd a0 a1 a2 a3 a4 a5)).host = a5.host ∧ (resState a5 (execAdd a0 a1 a2 a3 a4 a5)).boot = a5.boot ∧
      (resState a5 (execAdd a0 a1 a2 a3 a4 a5)).free = a5.free := by
  unfold execAdd; (repeat' split) <;> simp
@[simp] theorem execAdda_same (a0 : Nat) (a1 : Nat) (a2 : State) :
    (resState a2 (execAdda a0 a1 a2)).pending = a2.pending ∧ (resState a2 (execAdda a0 a1 a2)).clk = a2.clk ∧
      (resState a2 (execAdda a0 a1 a2)).mem = a2.mem ∧ (resState a2 (execAdda a0 a1 a2)).host = a2.host ∧
      (resState a2 (execAdda a0 a1 a2)).boot = a2.boot ∧ (resState a2 (execAdda a0 a1 a2)).free = a2.free := by
  unfold execAdda; (repeat' split) <;> simp
@[simp] theorem execAddi_same (a0 : Nat) (a1 : Guard) (a2 : Reg) (a3 : Reg) (a4 : BitVec 10) (a5 : State) :
    (resState a5 (execAddi a0 a1 a2 a3 a4 a5)).pending = a5.pending ∧ (resState a5 (execAddi a0 a1 a2 a3 a4 a5)).clk = a5.clk ∧
      (resState a5 (execAddi a0 a1 a2 a3 a4 a5)).mem = a5.mem ∧ (resState a5 (execAddi a0 a1 a2 a3 a4 a5)).span = a5.span ∧
      (resState a5 (execAddi a0 a1 a2 a3 a4 a5)).host = a5.host ∧ (resState a5 (execAddi a0 a1 a2 a3 a4 a5)).boot = a5.boot ∧
      (resState a5 (execAddi a0 a1 a2 a3 a4 a5)).free = a5.free := by
  unfold execAddi; (repeat' split) <;> simp
@[simp] theorem execAddr_same (a0 : Nat) (a1 : Nat) (a2 : State) :
    (resState a2 (execAddr a0 a1 a2)).pending = a2.pending ∧ (resState a2 (execAddr a0 a1 a2)).clk = a2.clk ∧
      (resState a2 (execAddr a0 a1 a2)).mem = a2.mem ∧ (resState a2 (execAddr a0 a1 a2)).host = a2.host ∧
      (resState a2 (execAddr a0 a1 a2)).boot = a2.boot ∧ (resState a2 (execAddr a0 a1 a2)).free = a2.free := by
  unfold execAddr; (repeat' split) <;> simp
@[simp] theorem execAdvCloseComplete_same (a0 : Nat) (a1 : State) :
    (resState a1 (execAdvCloseComplete a0 a1)).pending = a1.pending ∧ (resState a1 (execAdvCloseComplete a0 a1)).clk = a1.clk ∧
      (resState a1 (execAdvCloseComplete a0 a1)).mem = a1.mem ∧ (resState a1 (execAdvCloseComplete a0 a1)).span = a1.span ∧
      (resState a1 (execAdvCloseComplete a0 a1)).host = a1.host ∧ (resState a1 (execAdvCloseComplete a0 a1)).boot = a1.boot ∧
      (resState a1 (execAdvCloseComplete a0 a1)).free = a1.free := by
  unfold execAdvCloseComplete; (repeat' split) <;> simp
@[simp] theorem execAlignComplete_same (a0 : Nat) (a1 : Bool) (a2 : State) :
    (resState a2 (execAlignComplete a0 a1 a2)).pending = a2.pending ∧ (resState a2 (execAlignComplete a0 a1 a2)).clk = a2.clk ∧
      (resState a2 (execAlignComplete a0 a1 a2)).cores = a2.cores ∧ (resState a2 (execAlignComplete a0 a1 a2)).net = a2.net ∧
      (resState a2 (execAlignComplete a0 a1 a2)).vats = a2.vats ∧ (resState a2 (execAlignComplete a0 a1 a2)).mem = a2.mem ∧
      (resState a2 (execAlignComplete a0 a1 a2)).host = a2.host ∧ (resState a2 (execAlignComplete a0 a1 a2)).boot = a2.boot ∧
      (resState a2 (execAlignComplete a0 a1 a2)).free = a2.free := by
  unfold execAlignComplete; (repeat' split) <;> simp
@[simp] theorem execAlignTimeout_same (a0 : Nat) (a1 : State) :
    (resState a1 (execAlignTimeout a0 a1)).pending = a1.pending ∧ (resState a1 (execAlignTimeout a0 a1)).clk = a1.clk ∧
      (resState a1 (execAlignTimeout a0 a1)).cores = a1.cores ∧ (resState a1 (execAlignTimeout a0 a1)).net = a1.net ∧
      (resState a1 (execAlignTimeout a0 a1)).vats = a1.vats ∧ (resState a1 (execAlignTimeout a0 a1)).mem = a1.mem ∧
      (resState a1 (execAlignTimeout a0 a1)).host = a1.host ∧ (resState a1 (execAlignTimeout a0 a1)).boot = a1.boot ∧
      (resState a1 (execAlignTimeout a0 a1)).free = a1.free := by
  unfold execAlignTimeout; (repeat' split) <;> simp
@[simp] theorem execAnd_same (a0 : Nat) (a1 : Guard) (a2 : Reg) (a3 : Reg) (a4 : Reg) (a5 : State) :
    (resState a5 (execAnd a0 a1 a2 a3 a4 a5)).pending = a5.pending ∧ (resState a5 (execAnd a0 a1 a2 a3 a4 a5)).clk = a5.clk ∧
      (resState a5 (execAnd a0 a1 a2 a3 a4 a5)).mem = a5.mem ∧ (resState a5 (execAnd a0 a1 a2 a3 a4 a5)).span = a5.span ∧
      (resState a5 (execAnd a0 a1 a2 a3 a4 a5)).host = a5.host ∧ (resState a5 (execAnd a0 a1 a2 a3 a4 a5)).boot = a5.boot ∧
      (resState a5 (execAnd a0 a1 a2 a3 a4 a5)).free = a5.free := by
  unfold execAnd; (repeat' split) <;> simp
@[simp] theorem execAndi_same (a0 : Nat) (a1 : Guard) (a2 : Reg) (a3 : Reg) (a4 : BitVec 10) (a5 : State) :
    (resState a5 (execAndi a0 a1 a2 a3 a4 a5)).pending = a5.pending ∧ (resState a5 (execAndi a0 a1 a2 a3 a4 a5)).clk = a5.clk ∧
      (resState a5 (execAndi a0 a1 a2 a3 a4 a5)).mem = a5.mem ∧ (resState a5 (execAndi a0 a1 a2 a3 a4 a5)).span = a5.span ∧
      (resState a5 (execAndi a0 a1 a2 a3 a4 a5)).host = a5.host ∧ (resState a5 (execAndi a0 a1 a2 a3 a4 a5)).boot = a5.boot ∧
      (resState a5 (execAndi a0 a1 a2 a3 a4 a5)).free = a5.free := by
  unfold execAndi; (repeat' split) <;> simp
@[simp] theorem execAssign_same (a0 : Nat) (a1 : Src) (a2 : Nat) (a3 : State) :
    (resState a3 (execAssign a0 a1 a2 a3)).pending = a3.pending ∧ (resState a3 (execAssign a0 a1 a2 a3)).clk = a3.clk ∧
      (resState a3 (execAssign a0 a1 a2 a3)).cores = a3.cores ∧ (resState a3 (execAssign a0 a1 a2 a3)).net = a3.net ∧
      (resState a3 (execAssign a0 a1 a2 a3)).mem = a3.mem ∧ (resState a3 (execAssign a0 a1 a2 a3)).span = a3.span ∧
      (resState a3 (execAssign a0 a1 a2 a3)).boot = a3.boot ∧ (resState a3 (execAssign a0 a1 a2 a3)).free = a3.free := by
  unfold execAssign; refine ⟨by first | (simp; done) | (rw [resState_next]; apply State.command_same_pending; intros; (first | (simp; done) | (dsimp only; (repeat' (split <;> try dsimp only)) <;> simp_all)); done) | ((repeat' split) <;> first | (simp; done) | (rw [resState_next]; apply State.command_same_pending; intros; (first | (simp; done) | (dsimp only; (repeat' (split <;> try dsimp only)) <;> simp_all)); done)), by first | (simp; done) | (rw [resState_next]; apply State.command_same_clk; intros; (first | (simp; done) | (dsimp only; (repeat' (split <;> try dsimp only)) <;> simp_all)); done) | ((repeat' split) <;> first | (simp; done) | (rw [resState_next]; apply State.command_same_clk; intros; (first | (simp; done) | (dsimp only; (repeat' (split <;> try dsimp only)) <;> simp_all)); done)), by first | (simp; done) | (rw [resState_next]; apply State.command_same_cores; intros; (first | (simp; done) | (dsimp only; (repeat' (split <;> try dsimp only)) <;> simp_all)); done) | ((repeat' split) <;> first | (simp; done) | (rw [resState_next]; apply State.command_same_cores; intros; (first | (simp; done) | (dsimp only; (repeat' (split <;> try dsimp only)) <;> simp_all)); done)), by first | (simp; done) | (rw [resState_next]; apply State.command_same_net; intros; (first | (simp; done) | (dsimp only; (repeat' (split <;> try dsimp only)) <;> simp_all)); done) | ((repeat' split) <;> first | (simp; done) | (rw [resState_next]; apply State.command_same_net; intros; (first | (simp; done) | (dsimp only; (repeat' (split <;> try dsimp only)) <;> simp_all)); done)), by first | (simp; done) | (rw [resState_next]; apply State.command_same_mem; intros; (first | (simp; done) | (dsimp only; (repeat' (split <;> try dsimp only)) <;> simp_all)); done) | ((repeat' split) <;> first | (simp; done) | (rw [resState_next]; apply State.command_same_mem; intros; (first | (simp; done) | (dsimp only; (repeat' (split <;> try dsimp only)) <;> simp_all)); done)), by first | (simp; done) | (rw [resState_next]; apply State.command_same_span; intros; (first | (simp; done) | (dsimp only; (repeat' (split <;> try dsimp only)) <;> simp_all)); done) | ((repeat' split) <;> first | (simp; done) | (rw [resState_next]; apply State.command_same_span; intros; (first | (simp; done) | (dsimp only; (repeat' (split <;> try dsimp only)) <;> simp_all)); done)), by first | (simp; done) | (rw [resState_next]; apply State.command_same_boot; intros; (first | (simp; done) | (dsimp only; (repeat' (split <;> try dsimp only)) <;> simp_all)); done) | ((repeat' split) <;> first | (simp; done) | (rw [resState_next]; apply State.command_same_boot; intros; (first | (simp; done) | (dsimp only; (repeat' (split <;> try dsimp only)) <;> simp_all)); done)), by first | (simp; done) | (rw [resState_next]; apply State.command_same_free; intros; (first | (simp; done) | (dsimp only; (repeat' (split <;> try dsimp only)) <;> simp_all)); done) | ((repeat' split) <;> first | (simp; done) | (rw [resState_next]; apply State.command_same_free; intros; (first | (simp; done) | (dsimp only; (repeat' (split <;> try dsimp only)) <;> simp_all)); done))⟩
@[simp] theorem execBalNext_same (a0 : Nat) (a1 : Nat) (a2 : Nat) (a3 : State) :
    (resState a3 (execBalNext a0 a1 a2 a3)).pending = a3.pending ∧ (resState a3 (execBalNext a0 a1 a2 a3)).clk = a3.clk ∧
      (resState a3 (execBalNext a0 a1 a2 a3)).cores = a3.cores ∧ (resState a3 (execBalNext a0 a1 a2 a3)).net = a3.net ∧
      (resState a3 (execBalNext a0 a1 a2 a3)).mem = a3.mem ∧ (resState a3 (execBalNext a0 a1 a2 a3)).span = a3.span ∧
      (resState a3 (execBalNext a0 a1 a2 a3)).host = a3.host ∧ (resState a3 (execBalNext a0 a1 a2 a3)).boot = a3.boot ∧
      (resState a3 (execBalNext a0 a1 a2 a3)).free = a3.free := by
  unfold execBalNext; (repeat' split) <;> simp
@[simp] theorem execBankRefresh_same (a0 : Nat) (a1 : State) :
    (resState a1 (execBankRefresh a0 a1)).pending = a1.pending ∧ (resState a1 (execBankRefresh a0 a1)).clk = a1.clk ∧
      (resState a1 (execBankRefresh a0 a1)).cores = a1.cores ∧ (resState a1 (execBankRefresh a0 a1)).net = a1.net ∧
      (resState a1 (execBankRefresh a0 a1)).span = a1.span ∧ (resState a1 (execBankRefresh a0 a1)).host = a1.host ∧
      (resState a1 (execBankRefresh a0 a1)).boot = a1.boot ∧ (resState a1 (execBankRefresh a0 a1)).free = a1.free := by
  unfold execBankRefresh; (repeat' split) <;> simp
@[simp] theorem execBankRefresh_kept (a0 : Nat) (a1 : State) :
    (resState a1 (execBankRefresh a0 a1)).mem.stack = a1.mem.stack := by
  unfold execBankRefresh; (repeat' split) <;> simp
@[simp] theorem execBeatReceive_same (a0 : State) :
    (resState a0 (execBeatReceive a0)).pending = a0.pending ∧ (resState a0 (execBeatReceive a0)).clk = a0.clk ∧
      (resState a0 (execBeatReceive a0)).cores = a0.cores ∧ (resState a0 (execBeatReceive a0)).net = a0.net ∧
      (resState a0 (execBeatReceive a0)).vats = a0.vats ∧ (resState a0 (execBeatReceive a0)).mem = a0.mem ∧
      (resState a0 (execBeatReceive a0)).host = a0.host ∧ (resState a0 (execBeatReceive a0)).boot = a0.boot ∧
      (resState a0 (execBeatReceive a0)).free = a0.free := by
  unfold execBeatReceive; dsimp only; split <;> first | (rename_i hq; have hq' := State.takeFrame_same hq; (repeat' (split <;> try dsimp only)) <;> simp_all; done) | (simp; done)
@[simp] theorem execBeatSend_same (a0 : State) :
    (resState a0 (execBeatSend a0)).pending = a0.pending ∧ (resState a0 (execBeatSend a0)).clk = a0.clk ∧
      (resState a0 (execBeatSend a0)).cores = a0.cores ∧ (resState a0 (execBeatSend a0)).net = a0.net ∧
      (resState a0 (execBeatSend a0)).vats = a0.vats ∧ (resState a0 (execBeatSend a0)).mem = a0.mem ∧
      (resState a0 (execBeatSend a0)).hub = a0.hub ∧ (resState a0 (execBeatSend a0)).host = a0.host ∧
      (resState a0 (execBeatSend a0)).pwr = a0.pwr ∧ (resState a0 (execBeatSend a0)).boot = a0.boot ∧
      (resState a0 (execBeatSend a0)).out = a0.out ∧ (resState a0 (execBeatSend a0)).free = a0.free := by
  unfold execBeatSend; (repeat' split) <;> simp
@[simp] theorem execBr_same (a0 : Nat) (a1 : Guard) (a2 : BitVec 20) (a3 : State) :
    (resState a3 (execBr a0 a1 a2 a3)).pending = a3.pending ∧ (resState a3 (execBr a0 a1 a2 a3)).clk = a3.clk ∧
      (resState a3 (execBr a0 a1 a2 a3)).mem = a3.mem ∧ (resState a3 (execBr a0 a1 a2 a3)).span = a3.span ∧
      (resState a3 (execBr a0 a1 a2 a3)).host = a3.host ∧ (resState a3 (execBr a0 a1 a2 a3)).boot = a3.boot ∧
      (resState a3 (execBr a0 a1 a2 a3)).free = a3.free := by
  unfold execBr; refine ⟨by first | (simp; done) | (rw [resState_next]; apply State.instr_same_pending; intros; (first | (simp; done) | (dsimp only; (repeat' (split <;> try dsimp only)) <;> simp_all)); done) | ((repeat' split) <;> first | (simp; done) | (rw [resState_next]; apply State.instr_same_pending; intros; (first | (simp; done) | (dsimp only; (repeat' (split <;> try dsimp only)) <;> simp_all)); done)), by first | (simp; done) | (rw [resState_next]; apply State.instr_same_clk; intros; (first | (simp; done) | (dsimp only; (repeat' (split <;> try dsimp only)) <;> simp_all)); done) | ((repeat' split) <;> first | (simp; done) | (rw [resState_next]; apply State.instr_same_clk; intros; (first | (simp; done) | (dsimp only; (repeat' (split <;> try dsimp only)) <;> simp_all)); done)), by first | (simp; done) | (rw [resState_next]; apply State.instr_same_mem; intros; (first | (simp; done) | (dsimp only; (repeat' (split <;> try dsimp only)) <;> simp_all)); done) | ((repeat' split) <;> first | (simp; done) | (rw [resState_next]; apply State.instr_same_mem; intros; (first | (simp; done) | (dsimp only; (repeat' (split <;> try dsimp only)) <;> simp_all)); done)), by first | (simp; done) | (rw [resState_next]; apply State.instr_same_span; intros; (first | (simp; done) | (dsimp only; (repeat' (split <;> try dsimp only)) <;> simp_all)); done) | ((repeat' split) <;> first | (simp; done) | (rw [resState_next]; apply State.instr_same_span; intros; (first | (simp; done) | (dsimp only; (repeat' (split <;> try dsimp only)) <;> simp_all)); done)), by first | (simp; done) | (rw [resState_next]; apply State.instr_same_host; intros; (first | (simp; done) | (dsimp only; (repeat' (split <;> try dsimp only)) <;> simp_all)); done) | ((repeat' split) <;> first | (simp; done) | (rw [resState_next]; apply State.instr_same_host; intros; (first | (simp; done) | (dsimp only; (repeat' (split <;> try dsimp only)) <;> simp_all)); done)), by first | (simp; done) | (rw [resState_next]; apply State.instr_same_boot; intros; (first | (simp; done) | (dsimp only; (repeat' (split <;> try dsimp only)) <;> simp_all)); done) | ((repeat' split) <;> first | (simp; done) | (rw [resState_next]; apply State.instr_same_boot; intros; (first | (simp; done) | (dsimp only; (repeat' (split <;> try dsimp only)) <;> simp_all)); done)), by first | (simp; done) | (rw [resState_next]; apply State.instr_same_free; intros; (first | (simp; done) | (dsimp only; (repeat' (split <;> try dsimp only)) <;> simp_all)); done) | ((repeat' split) <;> first | (simp; done) | (rw [resState_next]; apply State.instr_same_free; intros; (first | (simp; done) | (dsimp only; (repeat' (split <;> try dsimp only)) <;> simp_all)); done))⟩
@[simp] theorem execBrk_same (a0 : Nat) (a1 : Guard) (a2 : State) :
    (resState a2 (execBrk a0 a1 a2)).pending = a2.pending ∧ (resState a2 (execBrk a0 a1 a2)).clk = a2.clk ∧
      (resState a2 (execBrk a0 a1 a2)).mem = a2.mem ∧ (resState a2 (execBrk a0 a1 a2)).span = a2.span ∧
      (resState a2 (execBrk a0 a1 a2)).host = a2.host ∧ (resState a2 (execBrk a0 a1 a2)).boot = a2.boot ∧
      (resState a2 (execBrk a0 a1 a2)).free = a2.free := by
  unfold execBrk; refine ⟨by first | (simp; done) | (rw [resState_next]; apply State.instr_same_pending; intros; (first | (simp; done) | (dsimp only; (repeat' (split <;> try dsimp only)) <;> simp_all)); done) | ((repeat' split) <;> first | (simp; done) | (rw [resState_next]; apply State.instr_same_pending; intros; (first | (simp; done) | (dsimp only; (repeat' (split <;> try dsimp only)) <;> simp_all)); done)), by first | (simp; done) | (rw [resState_next]; apply State.instr_same_clk; intros; (first | (simp; done) | (dsimp only; (repeat' (split <;> try dsimp only)) <;> simp_all)); done) | ((repeat' split) <;> first | (simp; done) | (rw [resState_next]; apply State.instr_same_clk; intros; (first | (simp; done) | (dsimp only; (repeat' (split <;> try dsimp only)) <;> simp_all)); done)), by first | (simp; done) | (rw [resState_next]; apply State.instr_same_mem; intros; (first | (simp; done) | (dsimp only; (repeat' (split <;> try dsimp only)) <;> simp_all)); done) | ((repeat' split) <;> first | (simp; done) | (rw [resState_next]; apply State.instr_same_mem; intros; (first | (simp; done) | (dsimp only; (repeat' (split <;> try dsimp only)) <;> simp_all)); done)), by first | (simp; done) | (rw [resState_next]; apply State.instr_same_span; intros; (first | (simp; done) | (dsimp only; (repeat' (split <;> try dsimp only)) <;> simp_all)); done) | ((repeat' split) <;> first | (simp; done) | (rw [resState_next]; apply State.instr_same_span; intros; (first | (simp; done) | (dsimp only; (repeat' (split <;> try dsimp only)) <;> simp_all)); done)), by first | (simp; done) | (rw [resState_next]; apply State.instr_same_host; intros; (first | (simp; done) | (dsimp only; (repeat' (split <;> try dsimp only)) <;> simp_all)); done) | ((repeat' split) <;> first | (simp; done) | (rw [resState_next]; apply State.instr_same_host; intros; (first | (simp; done) | (dsimp only; (repeat' (split <;> try dsimp only)) <;> simp_all)); done)), by first | (simp; done) | (rw [resState_next]; apply State.instr_same_boot; intros; (first | (simp; done) | (dsimp only; (repeat' (split <;> try dsimp only)) <;> simp_all)); done) | ((repeat' split) <;> first | (simp; done) | (rw [resState_next]; apply State.instr_same_boot; intros; (first | (simp; done) | (dsimp only; (repeat' (split <;> try dsimp only)) <;> simp_all)); done)), by first | (simp; done) | (rw [resState_next]; apply State.instr_same_free; intros; (first | (simp; done) | (dsimp only; (repeat' (split <;> try dsimp only)) <;> simp_all)); done) | ((repeat' split) <;> first | (simp; done) | (rw [resState_next]; apply State.instr_same_free; intros; (first | (simp; done) | (dsimp only; (repeat' (split <;> try dsimp only)) <;> simp_all)); done))⟩
@[simp] theorem execCack_same (a0 : State) :
    (resState a0 (execCack a0)).pending = a0.pending ∧ (resState a0 (execCack a0)).clk = a0.clk ∧ (resState a0 (execCack a0)).mem = a0.mem ∧
      (resState a0 (execCack a0)).boot = a0.boot ∧ (resState a0 (execCack a0)).free = a0.free := by
  unfold execCack; dsimp only; split <;> first | (rename_i hq; have hq' := State.takeFrame_same hq; (repeat' (split <;> try dsimp only)) <;> simp_all; done) | (simp; done)
@[simp] theorem execCalibrationInterval_same (a0 : Nat) (a1 : State) :
    (resState a1 (execCalibrationInterval a0 a1)).pending = a1.pending ∧ (resState a1 (execCalibrationInterval a0 a1)).clk = a1.clk ∧
      (resState a1 (execCalibrationInterval a0 a1)).cores = a1.cores ∧ (resState a1 (execCalibrationInterval a0 a1)).net = a1.net ∧
      (resState a1 (execCalibrationInterval a0 a1)).mem = a1.mem ∧ (resState a1 (execCalibrationInterval a0 a1)).span = a1.span ∧
      (resState a1 (execCalibrationInterval a0 a1)).host = a1.host ∧ (resState a1 (execCalibrationInterval a0 a1)).pwr = a1.pwr ∧
      (resState a1 (execCalibrationInterval a0 a1)).boot = a1.boot ∧ (resState a1 (execCalibrationInterval a0 a1)).out = a1.out := by
  unfold execCalibrationInterval; (repeat' split) <;> simp
@[simp] theorem execCall_same (a0 : Nat) (a1 : Guard) (a2 : BitVec 20) (a3 : State) :
    (resState a3 (execCall a0 a1 a2 a3)).pending = a3.pending ∧ (resState a3 (execCall a0 a1 a2 a3)).clk = a3.clk ∧
      (resState a3 (execCall a0 a1 a2 a3)).mem = a3.mem ∧ (resState a3 (execCall a0 a1 a2 a3)).span = a3.span ∧
      (resState a3 (execCall a0 a1 a2 a3)).host = a3.host ∧ (resState a3 (execCall a0 a1 a2 a3)).boot = a3.boot ∧
      (resState a3 (execCall a0 a1 a2 a3)).free = a3.free := by
  unfold execCall; refine ⟨by first | (simp; done) | (rw [resState_next]; apply State.instr_same_pending; intros; (first | (simp; done) | (dsimp only; (repeat' (split <;> try dsimp only)) <;> simp_all)); done) | ((repeat' split) <;> first | (simp; done) | (rw [resState_next]; apply State.instr_same_pending; intros; (first | (simp; done) | (dsimp only; (repeat' (split <;> try dsimp only)) <;> simp_all)); done)), by first | (simp; done) | (rw [resState_next]; apply State.instr_same_clk; intros; (first | (simp; done) | (dsimp only; (repeat' (split <;> try dsimp only)) <;> simp_all)); done) | ((repeat' split) <;> first | (simp; done) | (rw [resState_next]; apply State.instr_same_clk; intros; (first | (simp; done) | (dsimp only; (repeat' (split <;> try dsimp only)) <;> simp_all)); done)), by first | (simp; done) | (rw [resState_next]; apply State.instr_same_mem; intros; (first | (simp; done) | (dsimp only; (repeat' (split <;> try dsimp only)) <;> simp_all)); done) | ((repeat' split) <;> first | (simp; done) | (rw [resState_next]; apply State.instr_same_mem; intros; (first | (simp; done) | (dsimp only; (repeat' (split <;> try dsimp only)) <;> simp_all)); done)), by first | (simp; done) | (rw [resState_next]; apply State.instr_same_span; intros; (first | (simp; done) | (dsimp only; (repeat' (split <;> try dsimp only)) <;> simp_all)); done) | ((repeat' split) <;> first | (simp; done) | (rw [resState_next]; apply State.instr_same_span; intros; (first | (simp; done) | (dsimp only; (repeat' (split <;> try dsimp only)) <;> simp_all)); done)), by first | (simp; done) | (rw [resState_next]; apply State.instr_same_host; intros; (first | (simp; done) | (dsimp only; (repeat' (split <;> try dsimp only)) <;> simp_all)); done) | ((repeat' split) <;> first | (simp; done) | (rw [resState_next]; apply State.instr_same_host; intros; (first | (simp; done) | (dsimp only; (repeat' (split <;> try dsimp only)) <;> simp_all)); done)), by first | (simp; done) | (rw [resState_next]; apply State.instr_same_boot; intros; (first | (simp; done) | (dsimp only; (repeat' (split <;> try dsimp only)) <;> simp_all)); done) | ((repeat' split) <;> first | (simp; done) | (rw [resState_next]; apply State.instr_same_boot; intros; (first | (simp; done) | (dsimp only; (repeat' (split <;> try dsimp only)) <;> simp_all)); done)), by first | (simp; done) | (rw [resState_next]; apply State.instr_same_free; intros; (first | (simp; done) | (dsimp only; (repeat' (split <;> try dsimp only)) <;> simp_all)); done) | ((repeat' split) <;> first | (simp; done) | (rw [resState_next]; apply State.instr_same_free; intros; (first | (simp; done) | (dsimp only; (repeat' (split <;> try dsimp only)) <;> simp_all)); done))⟩
@[simp] theorem execCapRiseWindow_same (a0 : State) :
    (resState a0 (execCapRiseWindow a0)).pending = a0.pending ∧ (resState a0 (execCapRiseWindow a0)).clk = a0.clk ∧
      (resState a0 (execCapRiseWindow a0)).cores = a0.cores ∧ (resState a0 (execCapRiseWindow a0)).net = a0.net ∧
      (resState a0 (execCapRiseWindow a0)).vats = a0.vats ∧ (resState a0 (execCapRiseWindow a0)).mem = a0.mem ∧
      (resState a0 (execCapRiseWindow a0)).hub = a0.hub ∧ (resState a0 (execCapRiseWindow a0)).span = a0.span ∧
      (resState a0 (execCapRiseWindow a0)).host = a0.host ∧ (resState a0 (execCapRiseWindow a0)).boot = a0.boot ∧
      (resState a0 (execCapRiseWindow a0)).out = a0.out ∧ (resState a0 (execCapRiseWindow a0)).free = a0.free := by
  unfold execCapRiseWindow; (repeat' split) <;> simp
@[simp] theorem execCapWindow_same (a0 : State) :
    (resState a0 (execCapWindow a0)).pending = a0.pending ∧ (resState a0 (execCapWindow a0)).clk = a0.clk ∧
      (resState a0 (execCapWindow a0)).cores = a0.cores ∧ (resState a0 (execCapWindow a0)).net = a0.net ∧
      (resState a0 (execCapWindow a0)).vats = a0.vats ∧ (resState a0 (execCapWindow a0)).mem = a0.mem ∧
      (resState a0 (execCapWindow a0)).hub = a0.hub ∧ (resState a0 (execCapWindow a0)).span = a0.span ∧
      (resState a0 (execCapWindow a0)).host = a0.host ∧ (resState a0 (execCapWindow a0)).boot = a0.boot ∧
      (resState a0 (execCapWindow a0)).out = a0.out ∧ (resState a0 (execCapWindow a0)).free = a0.free := by
  unfold execCapWindow; (repeat' split) <;> simp
@[simp] theorem execChainRecordRead_same (a0 : Nat) (a1 : State) :
    (resState a1 (execChainRecordRead a0 a1)).pending = a1.pending ∧ (resState a1 (execChainRecordRead a0 a1)).clk = a1.clk ∧
      (resState a1 (execChainRecordRead a0 a1)).net = a1.net ∧ (resState a1 (execChainRecordRead a0 a1)).mem = a1.mem ∧
      (resState a1 (execChainRecordRead a0 a1)).span = a1.span ∧ (resState a1 (execChainRecordRead a0 a1)).host = a1.host ∧
      (resState a1 (execChainRecordRead a0 a1)).boot = a1.boot ∧ (resState a1 (execChainRecordRead a0 a1)).free = a1.free := by
  unfold execChainRecordRead; (repeat' split) <;> simp
@[simp] theorem execChan_same (a0 : Nat) (a1 : State) :
    (resState a1 (execChan a0 a1)).pending = a1.pending ∧ (resState a1 (execChan a0 a1)).clk = a1.clk ∧
      (resState a1 (execChan a0 a1)).cores = a1.cores ∧ (resState a1 (execChan a0 a1)).net = a1.net ∧ (resState a1 (execChan a0 a1)).mem = a1.mem ∧
      (resState a1 (execChan a0 a1)).host = a1.host ∧ (resState a1 (execChan a0 a1)).boot = a1.boot ∧ (resState a1 (execChan a0 a1)).free = a1.free := by
  unfold execChan; dsimp only; split <;> first | (rename_i hq; have hq' := State.takeFrame_same hq; (repeat' (split <;> try dsimp only)) <;> simp_all; done) | (simp; done)
@[simp] theorem execChannelData_same (a0 : Nat) (a1 : ChMsg) (a2 : State) :
    (resState a2 (execChannelData a0 a1 a2)).pending = a2.pending ∧ (resState a2 (execChannelData a0 a1 a2)).clk = a2.clk ∧
      (resState a2 (execChannelData a0 a1 a2)).mem = a2.mem ∧ (resState a2 (execChannelData a0 a1 a2)).host = a2.host ∧
      (resState a2 (execChannelData a0 a1 a2)).boot = a2.boot ∧ (resState a2 (execChannelData a0 a1 a2)).free = a2.free := by
  unfold execChannelData; (repeat' split) <;> simp
@[simp] theorem execChreq_same (a0 : Nat) (a1 : State) :
    (resState a1 (execChreq a0 a1)).pending = a1.pending ∧ (resState a1 (execChreq a0 a1)).clk = a1.clk ∧
      (resState a1 (execChreq a0 a1)).cores = a1.cores ∧ (resState a1 (execChreq a0 a1)).net = a1.net ∧
      (resState a1 (execChreq a0 a1)).mem = a1.mem ∧ (resState a1 (execChreq a0 a1)).host = a1.host ∧
      (resState a1 (execChreq a0 a1)).boot = a1.boot ∧ (resState a1 (execChreq a0 a1)).free = a1.free := by
  unfold execChreq; dsimp only; split <;> first | (rename_i hq; have hq' := State.takeFrame_same hq; (repeat' (split <;> try dsimp only)) <;> simp_all; done) | (simp; done)
@[simp] theorem execChrsp_same (a0 : Nat) (a1 : State) :
    (resState a1 (execChrsp a0 a1)).pending = a1.pending ∧ (resState a1 (execChrsp a0 a1)).clk = a1.clk ∧
      (resState a1 (execChrsp a0 a1)).cores = a1.cores ∧ (resState a1 (execChrsp a0 a1)).net = a1.net ∧
      (resState a1 (execChrsp a0 a1)).mem = a1.mem ∧ (resState a1 (execChrsp a0 a1)).host = a1.host ∧
      (resState a1 (execChrsp a0 a1)).boot = a1.boot ∧ (resState a1 (execChrsp a0 a1)).free = a1.free := by
  unfold execChrsp; dsimp only; split <;> first | (rename_i hq; have hq' := State.takeFrame_same hq; (repeat' (split <;> try dsimp only)) <;> simp_all; done) | (simp; done)
@[simp] theorem execCloseChan_same (a0 : Nat) (a1 : State) :
    (resState a1 (execCloseChan a0 a1)).pending = a1.pending ∧ (resState a1 (execCloseChan a0 a1)).clk = a1.clk ∧
      (resState a1 (execCloseChan a0 a1)).mem = a1.mem ∧ (resState a1 (execCloseChan a0 a1)).host = a1.host ∧
      (resState a1 (execCloseChan a0 a1)).boot = a1.boot ∧ (resState a1 (execCloseChan a0 a1)).free = a1.free := by
  unfold execCloseChan; refine ⟨by first | (simp; done) | (rw [resState_next]; apply State.chnAccept_same_pending; intros; (first | (simp; done) | (dsimp only; (repeat' (split <;> try dsimp only)) <;> simp_all)); done) | ((repeat' split) <;> first | (simp; done) | (rw [resState_next]; apply State.chnAccept_same_pending; intros; (first | (simp; done) | (dsimp only; (repeat' (split <;> try dsimp only)) <;> simp_all)); done)), by first | (simp; done) | (rw [resState_next]; apply State.chnAccept_same_clk; intros; (first | (simp; done) | (dsimp only; (repeat' (split <;> try dsimp only)) <;> simp_all)); done) | ((repeat' split) <;> first | (simp; done) | (rw [resState_next]; apply State.chnAccept_same_clk; intros; (first | (simp; done) | (dsimp only; (repeat' (split <;> try dsimp only)) <;> simp_all)); done)), by first | (simp; done) | (rw [resState_next]; apply State.chnAccept_same_mem; intros; (first | (simp; done) | (dsimp only; (repeat' (split <;> try dsimp only)) <;> simp_all)); done) | ((repeat' split) <;> first | (simp; done) | (rw [resState_next]; apply State.chnAccept_same_mem; intros; (first | (simp; done) | (dsimp only; (repeat' (split <;> try dsimp only)) <;> simp_all)); done)), by first | (simp; done) | (rw [resState_next]; apply State.chnAccept_same_host; intros; (first | (simp; done) | (dsimp only; (repeat' (split <;> try dsimp only)) <;> simp_all)); done) | ((repeat' split) <;> first | (simp; done) | (rw [resState_next]; apply State.chnAccept_same_host; intros; (first | (simp; done) | (dsimp only; (repeat' (split <;> try dsimp only)) <;> simp_all)); done)), by first | (simp; done) | (rw [resState_next]; apply State.chnAccept_same_boot; intros; (first | (simp; done) | (dsimp only; (repeat' (split <;> try dsimp only)) <;> simp_all)); done) | ((repeat' split) <;> first | (simp; done) | (rw [resState_next]; apply State.chnAccept_same_boot; intros; (first | (simp; done) | (dsimp only; (repeat' (split <;> try dsimp only)) <;> simp_all)); done)), by first | (simp; done) | (rw [resState_next]; apply State.chnAccept_same_free; intros; (first | (simp; done) | (dsimp only; (repeat' (split <;> try dsimp only)) <;> simp_all)); done) | ((repeat' split) <;> first | (simp; done) | (rw [resState_next]; apply State.chnAccept_same_free; intros; (first | (simp; done) | (dsimp only; (repeat' (split <;> try dsimp only)) <;> simp_all)); done))⟩
@[simp] theorem execClosePacket_same (a0 : Prod Nat ChMsg) (a1 : State) :
    (resState a1 (execClosePacket a0 a1)).pending = a1.pending ∧ (resState a1 (execClosePacket a0 a1)).clk = a1.clk ∧
      (resState a1 (execClosePacket a0 a1)).vats = a1.vats ∧ (resState a1 (execClosePacket a0 a1)).mem = a1.mem ∧
      (resState a1 (execClosePacket a0 a1)).host = a1.host ∧ (resState a1 (execClosePacket a0 a1)).boot = a1.boot ∧
      (resState a1 (execClosePacket a0 a1)).free = a1.free := by
  unfold execClosePacket; refine ⟨by first | (simp; done) | (rw [resState_next]; apply State.chanArrive_same_pending; intros; (first | (simp; done) | (dsimp only; (repeat' (split <;> try dsimp only)) <;> simp_all)); done) | ((repeat' split) <;> first | (simp; done) | (rw [resState_next]; apply State.chanArrive_same_pending; intros; (first | (simp; done) | (dsimp only; (repeat' (split <;> try dsimp only)) <;> simp_all)); done)), by first | (simp; done) | (rw [resState_next]; apply State.chanArrive_same_clk; intros; (first | (simp; done) | (dsimp only; (repeat' (split <;> try dsimp only)) <;> simp_all)); done) | ((repeat' split) <;> first | (simp; done) | (rw [resState_next]; apply State.chanArrive_same_clk; intros; (first | (simp; done) | (dsimp only; (repeat' (split <;> try dsimp only)) <;> simp_all)); done)), by first | (simp; done) | (rw [resState_next]; apply State.chanArrive_same_vats; intros; (first | (simp; done) | (dsimp only; (repeat' (split <;> try dsimp only)) <;> simp_all)); done) | ((repeat' split) <;> first | (simp; done) | (rw [resState_next]; apply State.chanArrive_same_vats; intros; (first | (simp; done) | (dsimp only; (repeat' (split <;> try dsimp only)) <;> simp_all)); done)), by first | (simp; done) | (rw [resState_next]; apply State.chanArrive_same_mem; intros; (first | (simp; done) | (dsimp only; (repeat' (split <;> try dsimp only)) <;> simp_all)); done) | ((repeat' split) <;> first | (simp; done) | (rw [resState_next]; apply State.chanArrive_same_mem; intros; (first | (simp; done) | (dsimp only; (repeat' (split <;> try dsimp only)) <;> simp_all)); done)), by first | (simp; done) | (rw [resState_next]; apply State.chanArrive_same_host; intros; (first | (simp; done) | (dsimp only; (repeat' (split <;> try dsimp only)) <;> simp_all)); done) | ((repeat' split) <;> first | (simp; done) | (rw [resState_next]; apply State.chanArrive_same_host; intros; (first | (simp; done) | (dsimp only; (repeat' (split <;> try dsimp only)) <;> simp_all)); done)), by first | (simp; done) | (rw [resState_next]; apply State.chanArrive_same_boot; intros; (first | (simp; done) | (dsimp only; (repeat' (split <;> try dsimp only)) <;> simp_all)); done) | ((repeat' split) <;> first | (simp; done) | (rw [resState_next]; apply State.chanArrive_same_boot; intros; (first | (simp; done) | (dsimp only; (repeat' (split <;> try dsimp only)) <;> simp_all)); done)), by first | (simp; done) | (rw [resState_next]; apply State.chanArrive_same_free; intros; (first | (simp; done) | (dsimp only; (repeat' (split <;> try dsimp only)) <;> simp_all)); done) | ((repeat' split) <;> first | (simp; done) | (rw [resState_next]; apply State.chanArrive_same_free; intros; (first | (simp; done) | (dsimp only; (repeat' (split <;> try dsimp only)) <;> simp_all)); done))⟩
@[simp] theorem execClusterPowerEntry_same (a0 : Nat) (a1 : State) :
    (resState a1 (execClusterPowerEntry a0 a1)).pending = a1.pending ∧ (resState a1 (execClusterPowerEntry a0 a1)).clk = a1.clk ∧
      (resState a1 (execClusterPowerEntry a0 a1)).net = a1.net ∧ (resState a1 (execClusterPowerEntry a0 a1)).vats = a1.vats ∧
      (resState a1 (execClusterPowerEntry a0 a1)).mem = a1.mem ∧ (resState a1 (execClusterPowerEntry a0 a1)).hub = a1.hub ∧
      (resState a1 (execClusterPowerEntry a0 a1)).span = a1.span ∧ (resState a1 (execClusterPowerEntry a0 a1)).host = a1.host ∧
      (resState a1 (execClusterPowerEntry a0 a1)).boot = a1.boot ∧ (resState a1 (execClusterPowerEntry a0 a1)).out = a1.out ∧
      (resState a1 (execClusterPowerEntry a0 a1)).free = a1.free := by
  unfold execClusterPowerEntry; (repeat' split) <;> simp
@[simp] theorem execClusterPowerRequest_same (a0 : Who) (a1 : Nat) (a2 : Nat) (a3 : State) :
    (resState a3 (execClusterPowerRequest a0 a1 a2 a3)).pending = a3.pending ∧ (resState a3 (execClusterPowerRequest a0 a1 a2 a3)).clk = a3.clk ∧
      (resState a3 (execClusterPowerRequest a0 a1 a2 a3)).cores = a3.cores ∧ (resState a3 (execClusterPowerRequest a0 a1 a2 a3)).net = a3.net ∧
      (resState a3 (execClusterPowerRequest a0 a1 a2 a3)).vats = a3.vats ∧ (resState a3 (execClusterPowerRequest a0 a1 a2 a3)).mem = a3.mem ∧
      (resState a3 (execClusterPowerRequest a0 a1 a2 a3)).span = a3.span ∧ (resState a3 (execClusterPowerRequest a0 a1 a2 a3)).host = a3.host ∧
      (resState a3 (execClusterPowerRequest a0 a1 a2 a3)).boot = a3.boot ∧ (resState a3 (execClusterPowerRequest a0 a1 a2 a3)).free = a3.free := by
  unfold execClusterPowerRequest; (repeat' split) <;> simp
@[simp] theorem execClusterWakeComplete_same (a0 : Nat) (a1 : State) :
    (resState a1 (execClusterWakeComplete a0 a1)).pending = a1.pending ∧ (resState a1 (execClusterWakeComplete a0 a1)).clk = a1.clk ∧
      (resState a1 (execClusterWakeComplete a0 a1)).cores = a1.cores ∧ (resState a1 (execClusterWakeComplete a0 a1)).net = a1.net ∧
      (resState a1 (execClusterWakeComplete a0 a1)).vats = a1.vats ∧ (resState a1 (execClusterWakeComplete a0 a1)).mem = a1.mem ∧
      (resState a1 (execClusterWakeComplete a0 a1)).hub = a1.hub ∧ (resState a1 (execClusterWakeComplete a0 a1)).span = a1.span ∧
      (resState a1 (execClusterWakeComplete a0 a1)).host = a1.host ∧ (resState a1 (execClusterWakeComplete a0 a1)).boot = a1.boot ∧
      (resState a1 (execClusterWakeComplete a0 a1)).out = a1.out ∧ (resState a1 (execClusterWakeComplete a0 a1)).free = a1.free := by
  unfold execClusterWakeComplete; (repeat' split) <;> simp
@[simp] theorem execCmpEq_same (a0 : Nat) (a1 : Guard) (a2 : BitVec 3) (a3 : Reg) (a4 : Reg) (a5 : State) :
    (resState a5 (execCmpEq a0 a1 a2 a3 a4 a5)).pending = a5.pending ∧ (resState a5 (execCmpEq a0 a1 a2 a3 a4 a5)).clk = a5.clk ∧
      (resState a5 (execCmpEq a0 a1 a2 a3 a4 a5)).mem = a5.mem ∧ (resState a5 (execCmpEq a0 a1 a2 a3 a4 a5)).span = a5.span ∧
      (resState a5 (execCmpEq a0 a1 a2 a3 a4 a5)).host = a5.host ∧ (resState a5 (execCmpEq a0 a1 a2 a3 a4 a5)).boot = a5.boot ∧
      (resState a5 (execCmpEq a0 a1 a2 a3 a4 a5)).free = a5.free := by
  unfold execCmpEq; (repeat' split) <;> simp
@[simp] theorem execCmpGe_same (a0 : Nat) (a1 : Guard) (a2 : BitVec 3) (a3 : Reg) (a4 : Reg) (a5 : State) :
    (resState a5 (execCmpGe a0 a1 a2 a3 a4 a5)).pending = a5.pending ∧ (resState a5 (execCmpGe a0 a1 a2 a3 a4 a5)).clk = a5.clk ∧
      (resState a5 (execCmpGe a0 a1 a2 a3 a4 a5)).mem = a5.mem ∧ (resState a5 (execCmpGe a0 a1 a2 a3 a4 a5)).span = a5.span ∧
      (resState a5 (execCmpGe a0 a1 a2 a3 a4 a5)).host = a5.host ∧ (resState a5 (execCmpGe a0 a1 a2 a3 a4 a5)).boot = a5.boot ∧
      (resState a5 (execCmpGe a0 a1 a2 a3 a4 a5)).free = a5.free := by
  unfold execCmpGe; (repeat' split) <;> simp
@[simp] theorem execCmpGeu_same (a0 : Nat) (a1 : Guard) (a2 : BitVec 3) (a3 : Reg) (a4 : Reg) (a5 : State) :
    (resState a5 (execCmpGeu a0 a1 a2 a3 a4 a5)).pending = a5.pending ∧ (resState a5 (execCmpGeu a0 a1 a2 a3 a4 a5)).clk = a5.clk ∧
      (resState a5 (execCmpGeu a0 a1 a2 a3 a4 a5)).mem = a5.mem ∧ (resState a5 (execCmpGeu a0 a1 a2 a3 a4 a5)).span = a5.span ∧
      (resState a5 (execCmpGeu a0 a1 a2 a3 a4 a5)).host = a5.host ∧ (resState a5 (execCmpGeu a0 a1 a2 a3 a4 a5)).boot = a5.boot ∧
      (resState a5 (execCmpGeu a0 a1 a2 a3 a4 a5)).free = a5.free := by
  unfold execCmpGeu; (repeat' split) <;> simp
@[simp] theorem execCmpLt_same (a0 : Nat) (a1 : Guard) (a2 : BitVec 3) (a3 : Reg) (a4 : Reg) (a5 : State) :
    (resState a5 (execCmpLt a0 a1 a2 a3 a4 a5)).pending = a5.pending ∧ (resState a5 (execCmpLt a0 a1 a2 a3 a4 a5)).clk = a5.clk ∧
      (resState a5 (execCmpLt a0 a1 a2 a3 a4 a5)).mem = a5.mem ∧ (resState a5 (execCmpLt a0 a1 a2 a3 a4 a5)).span = a5.span ∧
      (resState a5 (execCmpLt a0 a1 a2 a3 a4 a5)).host = a5.host ∧ (resState a5 (execCmpLt a0 a1 a2 a3 a4 a5)).boot = a5.boot ∧
      (resState a5 (execCmpLt a0 a1 a2 a3 a4 a5)).free = a5.free := by
  unfold execCmpLt; (repeat' split) <;> simp
@[simp] theorem execCmpLtu_same (a0 : Nat) (a1 : Guard) (a2 : BitVec 3) (a3 : Reg) (a4 : Reg) (a5 : State) :
    (resState a5 (execCmpLtu a0 a1 a2 a3 a4 a5)).pending = a5.pending ∧ (resState a5 (execCmpLtu a0 a1 a2 a3 a4 a5)).clk = a5.clk ∧
      (resState a5 (execCmpLtu a0 a1 a2 a3 a4 a5)).mem = a5.mem ∧ (resState a5 (execCmpLtu a0 a1 a2 a3 a4 a5)).span = a5.span ∧
      (resState a5 (execCmpLtu a0 a1 a2 a3 a4 a5)).host = a5.host ∧ (resState a5 (execCmpLtu a0 a1 a2 a3 a4 a5)).boot = a5.boot ∧
      (resState a5 (execCmpLtu a0 a1 a2 a3 a4 a5)).free = a5.free := by
  unfold execCmpLtu; (repeat' split) <;> simp
@[simp] theorem execCmpNe_same (a0 : Nat) (a1 : Guard) (a2 : BitVec 3) (a3 : Reg) (a4 : Reg) (a5 : State) :
    (resState a5 (execCmpNe a0 a1 a2 a3 a4 a5)).pending = a5.pending ∧ (resState a5 (execCmpNe a0 a1 a2 a3 a4 a5)).clk = a5.clk ∧
      (resState a5 (execCmpNe a0 a1 a2 a3 a4 a5)).mem = a5.mem ∧ (resState a5 (execCmpNe a0 a1 a2 a3 a4 a5)).span = a5.span ∧
      (resState a5 (execCmpNe a0 a1 a2 a3 a4 a5)).host = a5.host ∧ (resState a5 (execCmpNe a0 a1 a2 a3 a4 a5)).boot = a5.boot ∧
      (resState a5 (execCmpNe a0 a1 a2 a3 a4 a5)).free = a5.free := by
  unfold execCmpNe; (repeat' split) <;> simp
@[simp] theorem execCmpiEq_same (a0 : Nat) (a1 : Guard) (a2 : BitVec 3) (a3 : Reg) (a4 : BitVec 10) (a5 : State) :
    (resState a5 (execCmpiEq a0 a1 a2 a3 a4 a5)).pending = a5.pending ∧ (resState a5 (execCmpiEq a0 a1 a2 a3 a4 a5)).clk = a5.clk ∧
      (resState a5 (execCmpiEq a0 a1 a2 a3 a4 a5)).mem = a5.mem ∧ (resState a5 (execCmpiEq a0 a1 a2 a3 a4 a5)).span = a5.span ∧
      (resState a5 (execCmpiEq a0 a1 a2 a3 a4 a5)).host = a5.host ∧ (resState a5 (execCmpiEq a0 a1 a2 a3 a4 a5)).boot = a5.boot ∧
      (resState a5 (execCmpiEq a0 a1 a2 a3 a4 a5)).free = a5.free := by
  unfold execCmpiEq; (repeat' split) <;> simp
@[simp] theorem execCmpiGe_same (a0 : Nat) (a1 : Guard) (a2 : BitVec 3) (a3 : Reg) (a4 : BitVec 10) (a5 : State) :
    (resState a5 (execCmpiGe a0 a1 a2 a3 a4 a5)).pending = a5.pending ∧ (resState a5 (execCmpiGe a0 a1 a2 a3 a4 a5)).clk = a5.clk ∧
      (resState a5 (execCmpiGe a0 a1 a2 a3 a4 a5)).mem = a5.mem ∧ (resState a5 (execCmpiGe a0 a1 a2 a3 a4 a5)).span = a5.span ∧
      (resState a5 (execCmpiGe a0 a1 a2 a3 a4 a5)).host = a5.host ∧ (resState a5 (execCmpiGe a0 a1 a2 a3 a4 a5)).boot = a5.boot ∧
      (resState a5 (execCmpiGe a0 a1 a2 a3 a4 a5)).free = a5.free := by
  unfold execCmpiGe; (repeat' split) <;> simp
@[simp] theorem execCmpiGeu_same (a0 : Nat) (a1 : Guard) (a2 : BitVec 3) (a3 : Reg) (a4 : BitVec 10) (a5 : State) :
    (resState a5 (execCmpiGeu a0 a1 a2 a3 a4 a5)).pending = a5.pending ∧ (resState a5 (execCmpiGeu a0 a1 a2 a3 a4 a5)).clk = a5.clk ∧
      (resState a5 (execCmpiGeu a0 a1 a2 a3 a4 a5)).mem = a5.mem ∧ (resState a5 (execCmpiGeu a0 a1 a2 a3 a4 a5)).span = a5.span ∧
      (resState a5 (execCmpiGeu a0 a1 a2 a3 a4 a5)).host = a5.host ∧ (resState a5 (execCmpiGeu a0 a1 a2 a3 a4 a5)).boot = a5.boot ∧
      (resState a5 (execCmpiGeu a0 a1 a2 a3 a4 a5)).free = a5.free := by
  unfold execCmpiGeu; (repeat' split) <;> simp
@[simp] theorem execCmpiLt_same (a0 : Nat) (a1 : Guard) (a2 : BitVec 3) (a3 : Reg) (a4 : BitVec 10) (a5 : State) :
    (resState a5 (execCmpiLt a0 a1 a2 a3 a4 a5)).pending = a5.pending ∧ (resState a5 (execCmpiLt a0 a1 a2 a3 a4 a5)).clk = a5.clk ∧
      (resState a5 (execCmpiLt a0 a1 a2 a3 a4 a5)).mem = a5.mem ∧ (resState a5 (execCmpiLt a0 a1 a2 a3 a4 a5)).span = a5.span ∧
      (resState a5 (execCmpiLt a0 a1 a2 a3 a4 a5)).host = a5.host ∧ (resState a5 (execCmpiLt a0 a1 a2 a3 a4 a5)).boot = a5.boot ∧
      (resState a5 (execCmpiLt a0 a1 a2 a3 a4 a5)).free = a5.free := by
  unfold execCmpiLt; (repeat' split) <;> simp
@[simp] theorem execCmpiLtu_same (a0 : Nat) (a1 : Guard) (a2 : BitVec 3) (a3 : Reg) (a4 : BitVec 10) (a5 : State) :
    (resState a5 (execCmpiLtu a0 a1 a2 a3 a4 a5)).pending = a5.pending ∧ (resState a5 (execCmpiLtu a0 a1 a2 a3 a4 a5)).clk = a5.clk ∧
      (resState a5 (execCmpiLtu a0 a1 a2 a3 a4 a5)).mem = a5.mem ∧ (resState a5 (execCmpiLtu a0 a1 a2 a3 a4 a5)).span = a5.span ∧
      (resState a5 (execCmpiLtu a0 a1 a2 a3 a4 a5)).host = a5.host ∧ (resState a5 (execCmpiLtu a0 a1 a2 a3 a4 a5)).boot = a5.boot ∧
      (resState a5 (execCmpiLtu a0 a1 a2 a3 a4 a5)).free = a5.free := by
  unfold execCmpiLtu; (repeat' split) <;> simp
@[simp] theorem execCmpiNe_same (a0 : Nat) (a1 : Guard) (a2 : BitVec 3) (a3 : Reg) (a4 : BitVec 10) (a5 : State) :
    (resState a5 (execCmpiNe a0 a1 a2 a3 a4 a5)).pending = a5.pending ∧ (resState a5 (execCmpiNe a0 a1 a2 a3 a4 a5)).clk = a5.clk ∧
      (resState a5 (execCmpiNe a0 a1 a2 a3 a4 a5)).mem = a5.mem ∧ (resState a5 (execCmpiNe a0 a1 a2 a3 a4 a5)).span = a5.span ∧
      (resState a5 (execCmpiNe a0 a1 a2 a3 a4 a5)).host = a5.host ∧ (resState a5 (execCmpiNe a0 a1 a2 a3 a4 a5)).boot = a5.boot ∧
      (resState a5 (execCmpiNe a0 a1 a2 a3 a4 a5)).free = a5.free := by
  unfold execCmpiNe; (repeat' split) <;> simp
@[simp] theorem execColdReset_same (a0 : State) :
    (resState a0 (execColdReset a0)).pending = a0.pending ∧ (resState a0 (execColdReset a0)).out = a0.out ∧
      (resState a0 (execColdReset a0)).free = a0.free := by
  unfold execColdReset; (repeat' split) <;> simp
@[simp] theorem execColdReset_kept (a0 : State) :
    (resState a0 (execColdReset a0)).boot.flash = a0.boot.flash := by
  unfold execColdReset; (repeat' split) <;> simp
@[simp] theorem execColdReset_wf_mem_stack (a0 : State)  (hw : a0.mem.stack.wf = true) :
    (resState a0 (execColdReset a0)).mem.stack.wf = true := by
  unfold execColdReset; (repeat' split) <;> simp_all (maxDischargeDepth := 30)
@[simp] theorem execColdReset_wf_boot_flashBuf (a0 : State)  (hw : a0.boot.flashBuf.wf = true) :
    (resState a0 (execColdReset a0)).boot.flashBuf.wf = true := by
  unfold execColdReset; (repeat' split) <;> simp_all (maxDischargeDepth := 30)
@[simp] theorem execCommitApplied_same (a0 : Nat) (a1 : State) :
    (resState a1 (execCommitApplied a0 a1)).pending = a1.pending ∧ (resState a1 (execCommitApplied a0 a1)).clk = a1.clk ∧
      (resState a1 (execCommitApplied a0 a1)).cores = a1.cores ∧ (resState a1 (execCommitApplied a0 a1)).net = a1.net ∧
      (resState a1 (execCommitApplied a0 a1)).host = a1.host ∧ (resState a1 (execCommitApplied a0 a1)).boot = a1.boot ∧
      (resState a1 (execCommitApplied a0 a1)).free = a1.free := by
  unfold execCommitApplied; dsimp only; (repeat' (split <;> try dsimp only)) <;> simp_all
@[simp] theorem execCommitApplied_wf_mem_stack (a0 : Nat) (a1 : State)  (hw : a1.mem.stack.wf = true) :
    (resState a1 (execCommitApplied a0 a1)).mem.stack.wf = true := by
  unfold execCommitApplied; dsimp only; (repeat' (split <;> try dsimp only)) <;> simp_all (maxDischargeDepth := 30)
@[simp] theorem execCommitFrame_same (a0 : State) :
    (resState a0 (execCommitFrame a0)).pending = a0.pending ∧ (resState a0 (execCommitFrame a0)).clk = a0.clk ∧
      (resState a0 (execCommitFrame a0)).cores = a0.cores ∧ (resState a0 (execCommitFrame a0)).net = a0.net ∧
      (resState a0 (execCommitFrame a0)).host = a0.host ∧ (resState a0 (execCommitFrame a0)).boot = a0.boot := by
  unfold execCommitFrame; dsimp only; split <;> first | (rename_i hq; have hq' := State.takeFrame_same hq; (repeat' (split <;> try dsimp only)) <;> simp_all; done) | (simp; done)
@[simp] theorem execCommitFrame_wf_mem_stack (a0 : State)  (hw : a0.mem.stack.wf = true) :
    (resState a0 (execCommitFrame a0)).mem.stack.wf = true := by
  unfold execCommitFrame; dsimp only; split <;> first | (rename_i hq; have hq' := State.takeFrame_same hq; (repeat' (split <;> try dsimp only)) <;> simp_all (maxDischargeDepth := 30); done) | (simp (maxDischargeDepth := 30); done) | (simp_all (maxDischargeDepth := 30); done)
@[simp] theorem execCompletionRecordWrite_same (a0 : Nat) (a1 : State) :
    (resState a1 (execCompletionRecordWrite a0 a1)).pending = a1.pending ∧ (resState a1 (execCompletionRecordWrite a0 a1)).clk = a1.clk ∧
      (resState a1 (execCompletionRecordWrite a0 a1)).cores = a1.cores ∧ (resState a1 (execCompletionRecordWrite a0 a1)).net = a1.net ∧
      (resState a1 (execCompletionRecordWrite a0 a1)).vats = a1.vats ∧ (resState a1 (execCompletionRecordWrite a0 a1)).mem = a1.mem ∧
      (resState a1 (execCompletionRecordWrite a0 a1)).hub = a1.hub ∧ (resState a1 (execCompletionRecordWrite a0 a1)).span = a1.span ∧
      (resState a1 (execCompletionRecordWrite a0 a1)).pwr = a1.pwr ∧ (resState a1 (execCompletionRecordWrite a0 a1)).boot = a1.boot ∧
      (resState a1 (execCompletionRecordWrite a0 a1)).free = a1.free := by
  unfold execCompletionRecordWrite; dsimp only; (repeat' (split <;> try dsimp only)) <;> simp_all
@[simp] theorem execConnClose_same (a0 : Who) (a1 : Nat) (a2 : State) : (resState a2 (execConnClose a0 a1 a2)).pending = a2.pending := by
  unfold execConnClose; (repeat' (split <;> try dsimp only)) <;> simp
theorem execConnClose_memOk (a0 : Who) (a1 : Nat) (a2 : State) (h : a2.MemOk) : (resState a2 (execConnClose a0 a1 a2)).MemOk := by
  unfold execConnClose; rw [resState_next]
  split
  · exact h
  · exact State.writeCmd_memOk _ _ _ _ _ h
@[simp] theorem execControllerRingExchange_same (a0 : Nat) (a1 : State) :
    (resState a1 (execControllerRingExchange a0 a1)).pending = a1.pending ∧ (resState a1 (execControllerRingExchange a0 a1)).clk = a1.clk ∧
      (resState a1 (execControllerRingExchange a0 a1)).cores = a1.cores ∧ (resState a1 (execControllerRingExchange a0 a1)).net = a1.net ∧
      (resState a1 (execControllerRingExchange a0 a1)).vats = a1.vats ∧ (resState a1 (execControllerRingExchange a0 a1)).hub = a1.hub ∧
      (resState a1 (execControllerRingExchange a0 a1)).span = a1.span ∧ (resState a1 (execControllerRingExchange a0 a1)).host = a1.host ∧
      (resState a1 (execControllerRingExchange a0 a1)).pwr = a1.pwr ∧ (resState a1 (execControllerRingExchange a0 a1)).boot = a1.boot ∧
      (resState a1 (execControllerRingExchange a0 a1)).out = a1.out ∧ (resState a1 (execControllerRingExchange a0 a1)).free = a1.free := by
  unfold execControllerRingExchange; (repeat' split) <;> simp
@[simp] theorem execControllerRingExchange_kept (a0 : Nat) (a1 : State) :
    (resState a1 (execControllerRingExchange a0 a1)).mem.stack = a1.mem.stack := by
  unfold execControllerRingExchange; (repeat' split) <;> simp
@[simp] theorem execConvert_same (a0 : Nat) (a1 : State) :
    (resState a1 (execConvert a0 a1)).pending = a1.pending ∧ (resState a1 (execConvert a0 a1)).clk = a1.clk ∧
      (resState a1 (execConvert a0 a1)).net = a1.net ∧ (resState a1 (execConvert a0 a1)).host = a1.host ∧
      (resState a1 (execConvert a0 a1)).boot = a1.boot := by
  unfold execConvert; refine ⟨by first | (simp; done) | (rw [resState_next]; apply State.stkOp_same_pending; intros; (first | (simp; done) | (dsimp only; (repeat' (split <;> try dsimp only)) <;> simp_all)); done) | ((repeat' split) <;> first | (simp; done) | (rw [resState_next]; apply State.stkOp_same_pending; intros; (first | (simp; done) | (dsimp only; (repeat' (split <;> try dsimp only)) <;> simp_all)); done)), by first | (simp; done) | (rw [resState_next]; apply State.stkOp_same_clk; intros; (first | (simp; done) | (dsimp only; (repeat' (split <;> try dsimp only)) <;> simp_all)); done) | ((repeat' split) <;> first | (simp; done) | (rw [resState_next]; apply State.stkOp_same_clk; intros; (first | (simp; done) | (dsimp only; (repeat' (split <;> try dsimp only)) <;> simp_all)); done)), by first | (simp; done) | (rw [resState_next]; apply State.stkOp_same_net; intros; (first | (simp; done) | (dsimp only; (repeat' (split <;> try dsimp only)) <;> simp_all)); done) | ((repeat' split) <;> first | (simp; done) | (rw [resState_next]; apply State.stkOp_same_net; intros; (first | (simp; done) | (dsimp only; (repeat' (split <;> try dsimp only)) <;> simp_all)); done)), by first | (simp; done) | (rw [resState_next]; apply State.stkOp_same_host; intros; (first | (simp; done) | (dsimp only; (repeat' (split <;> try dsimp only)) <;> simp_all)); done) | ((repeat' split) <;> first | (simp; done) | (rw [resState_next]; apply State.stkOp_same_host; intros; (first | (simp; done) | (dsimp only; (repeat' (split <;> try dsimp only)) <;> simp_all)); done)), by first | (simp; done) | (rw [resState_next]; apply State.stkOp_same_boot; intros; (first | (simp; done) | (dsimp only; (repeat' (split <;> try dsimp only)) <;> simp_all)); done) | ((repeat' split) <;> first | (simp; done) | (rw [resState_next]; apply State.stkOp_same_boot; intros; (first | (simp; done) | (dsimp only; (repeat' (split <;> try dsimp only)) <;> simp_all)); done))⟩
@[simp] theorem execConvert_wf_mem_stack (a0 : Nat) (a1 : State)  (hw : a1.mem.stack.wf = true) :
    (resState a1 (execConvert a0 a1)).mem.stack.wf = true := by
  unfold execConvert; first | (simp (maxDischargeDepth := 30); done) | (rw [resState_next]; apply State.stkOp_wf_mem_stack <;> (intros; (first | (simp (maxDischargeDepth := 30); done) | (simp_all (maxDischargeDepth := 30); done) | (dsimp only; (repeat' (split <;> try dsimp only)) <;> simp_all (maxDischargeDepth := 30); done) | ((repeat' split) <;> simp_all (maxDischargeDepth := 30); done))); done) | ((repeat' split) <;> first | (simp (maxDischargeDepth := 30); done) | (simp_all (maxDischargeDepth := 30); done) | (rw [resState_next]; apply State.stkOp_wf_mem_stack <;> (intros; (first | (simp (maxDischargeDepth := 30); done) | (simp_all (maxDischargeDepth := 30); done) | (dsimp only; (repeat' (split <;> try dsimp only)) <;> simp_all (maxDischargeDepth := 30); done) | ((repeat' split) <;> simp_all (maxDischargeDepth := 30); done))); done))
@[simp] theorem execCopy_same (a0 : Nat) (a1 : Nat) (a2 : State) :
    (resState a2 (execCopy a0 a1 a2)).pending = a2.pending ∧ (resState a2 (execCopy a0 a1 a2)).clk = a2.clk ∧
      (resState a2 (execCopy a0 a1 a2)).cores = a2.cores ∧ (resState a2 (execCopy a0 a1 a2)).net = a2.net ∧
      (resState a2 (execCopy a0 a1 a2)).mem = a2.mem ∧ (resState a2 (execCopy a0 a1 a2)).span = a2.span ∧
      (resState a2 (execCopy a0 a1 a2)).boot = a2.boot ∧ (resState a2 (execCopy a0 a1 a2)).free = a2.free := by
  unfold execCopy; (try dsimp only); rw [resState_next]; cases (a2.ring a0).nextCmd <;> dsimp only <;> split
  all_goals first | (simp; done) | refine ⟨by apply State.command_same_pending; intros; (try dsimp only); (repeat' (split <;> try dsimp only)) <;> simp_all, by apply State.command_same_clk; intros; (try dsimp only); (repeat' (split <;> try dsimp only)) <;> simp_all, by apply State.command_same_cores; intros; (try dsimp only); (repeat' (split <;> try dsimp only)) <;> simp_all, by apply State.command_same_net; intros; (try dsimp only); (repeat' (split <;> try dsimp only)) <;> simp_all, by apply State.command_same_mem; intros; (try dsimp only); (repeat' (split <;> try dsimp only)) <;> simp_all, by apply State.command_same_span; intros; (try dsimp only); (repeat' (split <;> try dsimp only)) <;> simp_all, by apply State.command_same_boot; intros; (try dsimp only); (repeat' (split <;> try dsimp only)) <;> simp_all, by apply State.command_same_free; intros; (try dsimp only); (repeat' (split <;> try dsimp only)) <;> simp_all⟩
@[simp] theorem execCopyComplete_same (a0 : Nat) (a1 : Nat) (a2 : State) :
    (resState a2 (execCopyComplete a0 a1 a2)).pending = a2.pending ∧ (resState a2 (execCopyComplete a0 a1 a2)).clk = a2.clk ∧
      (resState a2 (execCopyComplete a0 a1 a2)).boot = a2.boot := by
  unfold execCopyComplete; (repeat' split) <;> simp
@[simp] theorem execCopyComplete_wf_mem_stack (a0 : Nat) (a1 : Nat) (a2 : State)  (hw : a2.mem.stack.wf = true) :
    (resState a2 (execCopyComplete a0 a1 a2)).mem.stack.wf = true := by
  unfold execCopyComplete; (repeat' split) <;> simp_all (maxDischargeDepth := 30)
@[simp] theorem execCoreFence_same (a0 : Who) (a1 : Nat) (a2 : Nat) (a3 : State) :
    (resState a3 (execCoreFence a0 a1 a2 a3)).pending = a3.pending ∧ (resState a3 (execCoreFence a0 a1 a2 a3)).clk = a3.clk ∧
      (resState a3 (execCoreFence a0 a1 a2 a3)).boot = a3.boot ∧ (resState a3 (execCoreFence a0 a1 a2 a3)).free = a3.free := by
  unfold execCoreFence; (repeat' split) <;> simp
@[simp] theorem execCoreFence_wf_mem_stack (a0 : Who) (a1 : Nat) (a2 : Nat) (a3 : State)  (hw : a3.mem.stack.wf = true) :
    (resState a3 (execCoreFence a0 a1 a2 a3)).mem.stack.wf = true := by
  unfold execCoreFence; (repeat' split) <;> simp_all (maxDischargeDepth := 30)
@[simp] theorem execCoreGate_same (a0 : Nat) (a1 : State) :
    (resState a1 (execCoreGate a0 a1)).pending = a1.pending ∧ (resState a1 (execCoreGate a0 a1)).clk = a1.clk ∧
      (resState a1 (execCoreGate a0 a1)).net = a1.net ∧ (resState a1 (execCoreGate a0 a1)).vats = a1.vats ∧
      (resState a1 (execCoreGate a0 a1)).mem = a1.mem ∧ (resState a1 (execCoreGate a0 a1)).hub = a1.hub ∧
      (resState a1 (execCoreGate a0 a1)).span = a1.span ∧ (resState a1 (execCoreGate a0 a1)).host = a1.host ∧
      (resState a1 (execCoreGate a0 a1)).pwr = a1.pwr ∧ (resState a1 (execCoreGate a0 a1)).boot = a1.boot ∧
      (resState a1 (execCoreGate a0 a1)).out = a1.out ∧ (resState a1 (execCoreGate a0 a1)).free = a1.free := by
  unfold execCoreGate; (repeat' split) <;> simp
@[simp] theorem execCoreStart_same (a0 : Nat) (a1 : State) :
    (resState a1 (execCoreStart a0 a1)).pending = a1.pending ∧ (resState a1 (execCoreStart a0 a1)).clk = a1.clk ∧
      (resState a1 (execCoreStart a0 a1)).net = a1.net ∧ (resState a1 (execCoreStart a0 a1)).vats = a1.vats ∧
      (resState a1 (execCoreStart a0 a1)).mem = a1.mem ∧ (resState a1 (execCoreStart a0 a1)).hub = a1.hub ∧
      (resState a1 (execCoreStart a0 a1)).span = a1.span ∧ (resState a1 (execCoreStart a0 a1)).host = a1.host ∧
      (resState a1 (execCoreStart a0 a1)).pwr = a1.pwr ∧ (resState a1 (execCoreStart a0 a1)).boot = a1.boot ∧
      (resState a1 (execCoreStart a0 a1)).out = a1.out ∧ (resState a1 (execCoreStart a0 a1)).free = a1.free := by
  unfold execCoreStart; (repeat' split) <;> simp
@[simp] theorem execCoreViewAccess_same (a0 : Who) (a1 : Bool) (a2 : Nat) (a3 : Nat) (a4 : Nat)
      (a5 : State) : (resState a5 (execCoreViewAccess a0 a1 a2 a3 a4 a5)).pending = a5.pending := by
  unfold execCoreViewAccess; (repeat' (split <;> try dsimp only)) <;> simp
theorem execCoreViewAccess_memOk (a0 : Who) (a1 : Bool) (a2 : Nat) (a3 : Nat) (a4 : Nat) (a5 : State)
      (h : a5.MemOk) : (resState a5 (execCoreViewAccess a0 a1 a2 a3 a4 a5)).MemOk := by
  unfold execCoreViewAccess; rw [resState_next]
  split
  · exact h
  · split
    · exact State.writeCmd_memOk _ _ _ _ _ h
    · exact State.readCmd_memOk _ _ _ _ h
@[simp] theorem execCqHead_same (a0 : Nat) (a1 : Nat) (a2 : Nat) (a3 : Nat) (a4 : State) :
    (resState a4 (execCqHead a0 a1 a2 a3 a4)).pending = a4.pending ∧ (resState a4 (execCqHead a0 a1 a2 a3 a4)).clk = a4.clk ∧
      (resState a4 (execCqHead a0 a1 a2 a3 a4)).cores = a4.cores ∧ (resState a4 (execCqHead a0 a1 a2 a3 a4)).net = a4.net ∧
      (resState a4 (execCqHead a0 a1 a2 a3 a4)).vats = a4.vats ∧ (resState a4 (execCqHead a0 a1 a2 a3 a4)).mem = a4.mem ∧
      (resState a4 (execCqHead a0 a1 a2 a3 a4)).span = a4.span ∧ (resState a4 (execCqHead a0 a1 a2 a3 a4)).boot = a4.boot ∧
      (resState a4 (execCqHead a0 a1 a2 a3 a4)).free = a4.free := by
  unfold execCqHead; (repeat' split) <;> simp
@[simp] theorem execCreditReturn_same (a0 : Nat) (a1 : Nat) (a2 : ChMsg) (a3 : State) :
    (resState a3 (execCreditReturn a0 a1 a2 a3)).pending = a3.pending ∧ (resState a3 (execCreditReturn a0 a1 a2 a3)).clk = a3.clk ∧
      (resState a3 (execCreditReturn a0 a1 a2 a3)).vats = a3.vats ∧ (resState a3 (execCreditReturn a0 a1 a2 a3)).mem = a3.mem ∧
      (resState a3 (execCreditReturn a0 a1 a2 a3)).host = a3.host ∧ (resState a3 (execCreditReturn a0 a1 a2 a3)).boot = a3.boot ∧
      (resState a3 (execCreditReturn a0 a1 a2 a3)).free = a3.free := by
  unfold execCreditReturn; refine ⟨by first | (simp; done) | (rw [resState_next]; apply State.chanArrive_same_pending; intros; (first | (simp; done) | (dsimp only; (repeat' (split <;> try dsimp only)) <;> simp_all)); done) | ((repeat' split) <;> first | (simp; done) | (rw [resState_next]; apply State.chanArrive_same_pending; intros; (first | (simp; done) | (dsimp only; (repeat' (split <;> try dsimp only)) <;> simp_all)); done)), by first | (simp; done) | (rw [resState_next]; apply State.chanArrive_same_clk; intros; (first | (simp; done) | (dsimp only; (repeat' (split <;> try dsimp only)) <;> simp_all)); done) | ((repeat' split) <;> first | (simp; done) | (rw [resState_next]; apply State.chanArrive_same_clk; intros; (first | (simp; done) | (dsimp only; (repeat' (split <;> try dsimp only)) <;> simp_all)); done)), by first | (simp; done) | (rw [resState_next]; apply State.chanArrive_same_vats; intros; (first | (simp; done) | (dsimp only; (repeat' (split <;> try dsimp only)) <;> simp_all)); done) | ((repeat' split) <;> first | (simp; done) | (rw [resState_next]; apply State.chanArrive_same_vats; intros; (first | (simp; done) | (dsimp only; (repeat' (split <;> try dsimp only)) <;> simp_all)); done)), by first | (simp; done) | (rw [resState_next]; apply State.chanArrive_same_mem; intros; (first | (simp; done) | (dsimp only; (repeat' (split <;> try dsimp only)) <;> simp_all)); done) | ((repeat' split) <;> first | (simp; done) | (rw [resState_next]; apply State.chanArrive_same_mem; intros; (first | (simp; done) | (dsimp only; (repeat' (split <;> try dsimp only)) <;> simp_all)); done)), by first | (simp; done) | (rw [resState_next]; apply State.chanArrive_same_host; intros; (first | (simp; done) | (dsimp only; (repeat' (split <;> try dsimp only)) <;> simp_all)); done) | ((repeat' split) <;> first | (simp; done) | (rw [resState_next]; apply State.chanArrive_same_host; intros; (first | (simp; done) | (dsimp only; (repeat' (split <;> try dsimp only)) <;> simp_all)); done)), by first | (simp; done) | (rw [resState_next]; apply State.chanArrive_same_boot; intros; (first | (simp; done) | (dsimp only; (repeat' (split <;> try dsimp only)) <;> simp_all)); done) | ((repeat' split) <;> first | (simp; done) | (rw [resState_next]; apply State.chanArrive_same_boot; intros; (first | (simp; done) | (dsimp only; (repeat' (split <;> try dsimp only)) <;> simp_all)); done)), by first | (simp; done) | (rw [resState_next]; apply State.chanArrive_same_free; intros; (first | (simp; done) | (dsimp only; (repeat' (split <;> try dsimp only)) <;> simp_all)); done) | ((repeat' split) <;> first | (simp; done) | (rw [resState_next]; apply State.chanArrive_same_free; intros; (first | (simp; done) | (dsimp only; (repeat' (split <;> try dsimp only)) <;> simp_all)); done))⟩
@[simp] theorem execCtlDisable_same (a0 : State) :
    (resState a0 (execCtlDisable a0)).pending = a0.pending ∧ (resState a0 (execCtlDisable a0)).clk = a0.clk ∧
      (resState a0 (execCtlDisable a0)).cores = a0.cores ∧ (resState a0 (execCtlDisable a0)).net = a0.net ∧
      (resState a0 (execCtlDisable a0)).mem = a0.mem ∧ (resState a0 (execCtlDisable a0)).hub = a0.hub ∧
      (resState a0 (execCtlDisable a0)).pwr = a0.pwr ∧ (resState a0 (execCtlDisable a0)).boot = a0.boot ∧
      (resState a0 (execCtlDisable a0)).out = a0.out ∧ (resState a0 (execCtlDisable a0)).free = a0.free := by
  unfold execCtlDisable; dsimp only; split <;> first | (rename_i hq; have hq' := State.takeFrame_same hq; (repeat' (split <;> try dsimp only)) <;> simp_all; done) | (simp; done)
@[simp] theorem execCtlEnable_same (a0 : State) :
    (resState a0 (execCtlEnable a0)).pending = a0.pending ∧ (resState a0 (execCtlEnable a0)).clk = a0.clk ∧
      (resState a0 (execCtlEnable a0)).cores = a0.cores ∧ (resState a0 (execCtlEnable a0)).net = a0.net ∧
      (resState a0 (execCtlEnable a0)).mem = a0.mem ∧ (resState a0 (execCtlEnable a0)).host = a0.host ∧
      (resState a0 (execCtlEnable a0)).boot = a0.boot ∧ (resState a0 (execCtlEnable a0)).free = a0.free := by
  unfold execCtlEnable; dsimp only; split <;> first | (rename_i hq; have hq' := State.takeFrame_same hq; (repeat' (split <;> try dsimp only)) <;> simp_all; done) | (simp; done)
@[simp] theorem execCtlHandover_same (a0 : State) :
    (resState a0 (execCtlHandover a0)).pending = a0.pending ∧ (resState a0 (execCtlHandover a0)).clk = a0.clk ∧
      (resState a0 (execCtlHandover a0)).cores = a0.cores ∧ (resState a0 (execCtlHandover a0)).net = a0.net ∧
      (resState a0 (execCtlHandover a0)).vats = a0.vats ∧ (resState a0 (execCtlHandover a0)).mem = a0.mem ∧
      (resState a0 (execCtlHandover a0)).hub = a0.hub ∧ (resState a0 (execCtlHandover a0)).host = a0.host ∧
      (resState a0 (execCtlHandover a0)).pwr = a0.pwr ∧ (resState a0 (execCtlHandover a0)).boot = a0.boot ∧
      (resState a0 (execCtlHandover a0)).out = a0.out ∧ (resState a0 (execCtlHandover a0)).free = a0.free := by
  unfold execCtlHandover; rw [resState_next]; split <;> first | (rename_i hq; have hq' := State.takeFrame_same hq; simp_all; done) | simp
@[simp] theorem execCtlPacketRoute_same (a0 : Nat) (a1 : Nat) (a2 : Nat) (a3 : Prod (List Byte) NetMarks) (a4 : State) :
    (resState a4 (execCtlPacketRoute a0 a1 a2 a3 a4)).pending = a4.pending ∧ (resState a4 (execCtlPacketRoute a0 a1 a2 a3 a4)).clk = a4.clk ∧
      (resState a4 (execCtlPacketRoute a0 a1 a2 a3 a4)).cores = a4.cores ∧ (resState a4 (execCtlPacketRoute a0 a1 a2 a3 a4)).mem = a4.mem ∧
      (resState a4 (execCtlPacketRoute a0 a1 a2 a3 a4)).span = a4.span ∧ (resState a4 (execCtlPacketRoute a0 a1 a2 a3 a4)).host = a4.host ∧
      (resState a4 (execCtlPacketRoute a0 a1 a2 a3 a4)).boot = a4.boot ∧ (resState a4 (execCtlPacketRoute a0 a1 a2 a3 a4)).free = a4.free := by
  unfold execCtlPacketRoute; (repeat' split) <;> simp
@[simp] theorem execCtlrsp_same (a0 : State) :
    (resState a0 (execCtlrsp a0)).pending = a0.pending ∧ (resState a0 (execCtlrsp a0)).clk = a0.clk ∧
      (resState a0 (execCtlrsp a0)).cores = a0.cores ∧ (resState a0 (execCtlrsp a0)).net = a0.net ∧ (resState a0 (execCtlrsp a0)).boot = a0.boot ∧
      (resState a0 (execCtlrsp a0)).free = a0.free := by
  unfold execCtlrsp; dsimp only; split <;> first | (rename_i hq; have hq' := State.takeFrame_same hq; (repeat' (split <;> try dsimp only)) <;> simp_all; done) | (simp; done)
@[simp] theorem execCtlrsp_kept (a0 : State) :
    (resState a0 (execCtlrsp a0)).mem.stack = a0.mem.stack := by
  unfold execCtlrsp; dsimp only; split <;> first | (rename_i hq; have hq' := State.takeFrame_same hq; (repeat' (split <;> try dsimp only)) <;> simp_all; done) | (simp; done) | (simp_all; done)
@[simp] theorem execCvt_same (a0 : Nat) (a1 : Nat) (a2 : State) :
    (resState a2 (execCvt a0 a1 a2)).pending = a2.pending ∧ (resState a2 (execCvt a0 a1 a2)).clk = a2.clk ∧
      (resState a2 (execCvt a0 a1 a2)).mem = a2.mem ∧ (resState a2 (execCvt a0 a1 a2)).host = a2.host ∧
      (resState a2 (execCvt a0 a1 a2)).boot = a2.boot ∧ (resState a2 (execCvt a0 a1 a2)).free = a2.free := by
  unfold execCvt; refine ⟨by first | (simp; done) | (rw [resState_next]; apply State.seInstr_same_pending; intros; (first | (simp; done) | (dsimp only; (repeat' (split <;> try dsimp only)) <;> simp_all)); done) | ((repeat' split) <;> first | (simp; done) | (rw [resState_next]; apply State.seInstr_same_pending; intros; (first | (simp; done) | (dsimp only; (repeat' (split <;> try dsimp only)) <;> simp_all)); done)), by first | (simp; done) | (rw [resState_next]; apply State.seInstr_same_clk; intros; (first | (simp; done) | (dsimp only; (repeat' (split <;> try dsimp only)) <;> simp_all)); done) | ((repeat' split) <;> first | (simp; done) | (rw [resState_next]; apply State.seInstr_same_clk; intros; (first | (simp; done) | (dsimp only; (repeat' (split <;> try dsimp only)) <;> simp_all)); done)), by first | (simp; done) | (rw [resState_next]; apply State.seInstr_same_mem; intros; (first | (simp; done) | (dsimp only; (repeat' (split <;> try dsimp only)) <;> simp_all)); done) | ((repeat' split) <;> first | (simp; done) | (rw [resState_next]; apply State.seInstr_same_mem; intros; (first | (simp; done) | (dsimp only; (repeat' (split <;> try dsimp only)) <;> simp_all)); done)), by first | (simp; done) | (rw [resState_next]; apply State.seInstr_same_host; intros; (first | (simp; done) | (dsimp only; (repeat' (split <;> try dsimp only)) <;> simp_all)); done) | ((repeat' split) <;> first | (simp; done) | (rw [resState_next]; apply State.seInstr_same_host; intros; (first | (simp; done) | (dsimp only; (repeat' (split <;> try dsimp only)) <;> simp_all)); done)), by first | (simp; done) | (rw [resState_next]; apply State.seInstr_same_boot; intros; (first | (simp; done) | (dsimp only; (repeat' (split <;> try dsimp only)) <;> simp_all)); done) | ((repeat' split) <;> first | (simp; done) | (rw [resState_next]; apply State.seInstr_same_boot; intros; (first | (simp; done) | (dsimp only; (repeat' (split <;> try dsimp only)) <;> simp_all)); done)), by first | (simp; done) | (rw [resState_next]; apply State.seInstr_same_free; intros; (first | (simp; done) | (dsimp only; (repeat' (split <;> try dsimp only)) <;> simp_all)); done) | ((repeat' split) <;> first | (simp; done) | (rw [resState_next]; apply State.seInstr_same_free; intros; (first | (simp; done) | (dsimp only; (repeat' (split <;> try dsimp only)) <;> simp_all)); done))⟩
@[simp] theorem execDapHalt_same (a0 : Nat) (a1 : State) :
    (resState a1 (execDapHalt a0 a1)).pending = a1.pending ∧ (resState a1 (execDapHalt a0 a1)).clk = a1.clk ∧
      (resState a1 (execDapHalt a0 a1)).mem = a1.mem ∧ (resState a1 (execDapHalt a0 a1)).span = a1.span ∧
      (resState a1 (execDapHalt a0 a1)).host = a1.host ∧ (resState a1 (execDapHalt a0 a1)).free = a1.free := by
  unfold execDapHalt; refine ⟨by first | (simp; done) | (rw [resState_next]; apply State.dapStart_same_pending; intros; (first | (simp; done) | (dsimp only; (repeat' (split <;> try dsimp only)) <;> simp_all)); done) | ((repeat' split) <;> first | (simp; done) | (rw [resState_next]; apply State.dapStart_same_pending; intros; (first | (simp; done) | (dsimp only; (repeat' (split <;> try dsimp only)) <;> simp_all)); done)), by first | (simp; done) | (rw [resState_next]; apply State.dapStart_same_clk; intros; (first | (simp; done) | (dsimp only; (repeat' (split <;> try dsimp only)) <;> simp_all)); done) | ((repeat' split) <;> first | (simp; done) | (rw [resState_next]; apply State.dapStart_same_clk; intros; (first | (simp; done) | (dsimp only; (repeat' (split <;> try dsimp only)) <;> simp_all)); done)), by first | (simp; done) | (rw [resState_next]; apply State.dapStart_same_mem; intros; (first | (simp; done) | (dsimp only; (repeat' (split <;> try dsimp only)) <;> simp_all)); done) | ((repeat' split) <;> first | (simp; done) | (rw [resState_next]; apply State.dapStart_same_mem; intros; (first | (simp; done) | (dsimp only; (repeat' (split <;> try dsimp only)) <;> simp_all)); done)), by first | (simp; done) | (rw [resState_next]; apply State.dapStart_same_span; intros; (first | (simp; done) | (dsimp only; (repeat' (split <;> try dsimp only)) <;> simp_all)); done) | ((repeat' split) <;> first | (simp; done) | (rw [resState_next]; apply State.dapStart_same_span; intros; (first | (simp; done) | (dsimp only; (repeat' (split <;> try dsimp only)) <;> simp_all)); done)), by first | (simp; done) | (rw [resState_next]; apply State.dapStart_same_host; intros; (first | (simp; done) | (dsimp only; (repeat' (split <;> try dsimp only)) <;> simp_all)); done) | ((repeat' split) <;> first | (simp; done) | (rw [resState_next]; apply State.dapStart_same_host; intros; (first | (simp; done) | (dsimp only; (repeat' (split <;> try dsimp only)) <;> simp_all)); done)), by first | (simp; done) | (rw [resState_next]; apply State.dapStart_same_free; intros; (first | (simp; done) | (dsimp only; (repeat' (split <;> try dsimp only)) <;> simp_all)); done) | ((repeat' split) <;> first | (simp; done) | (rw [resState_next]; apply State.dapStart_same_free; intros; (first | (simp; done) | (dsimp only; (repeat' (split <;> try dsimp only)) <;> simp_all)); done))⟩
@[simp] theorem execDapHalt_kept (a0 : Nat) (a1 : State) :
    (resState a1 (execDapHalt a0 a1)).boot.flash = a1.boot.flash ∧ (resState a1 (execDapHalt a0 a1)).boot.flashBuf = a1.boot.flashBuf := by
  unfold execDapHalt; refine ⟨by first | (simp; done) | (rw [resState_next]; apply State.dapStart_kept_boot_flash <;> (intros; (first | (simp; done) | (simp_all; done) | (dsimp only; (repeat' (split <;> try dsimp only)) <;> simp_all; done) | ((repeat' split) <;> simp_all; done))); done) | ((repeat' split) <;> first | (simp; done) | (simp_all; done) | (rw [resState_next]; apply State.dapStart_kept_boot_flash <;> (intros; (first | (simp; done) | (simp_all; done) | (dsimp only; (repeat' (split <;> try dsimp only)) <;> simp_all; done) | ((repeat' split) <;> simp_all; done))); done)), by first | (simp; done) | (rw [resState_next]; apply State.dapStart_kept_boot_flashBuf <;> (intros; (first | (simp; done) | (simp_all; done) | (dsimp only; (repeat' (split <;> try dsimp only)) <;> simp_all; done) | ((repeat' split) <;> simp_all; done))); done) | ((repeat' split) <;> first | (simp; done) | (simp_all; done) | (rw [resState_next]; apply State.dapStart_kept_boot_flashBuf <;> (intros; (first | (simp; done) | (simp_all; done) | (dsimp only; (repeat' (split <;> try dsimp only)) <;> simp_all; done) | ((repeat' split) <;> simp_all; done))); done))⟩
@[simp] theorem execDapNop_same (a0 : State) :
    (resState a0 (execDapNop a0)).pending = a0.pending ∧ (resState a0 (execDapNop a0)).clk = a0.clk ∧
      (resState a0 (execDapNop a0)).cores = a0.cores ∧ (resState a0 (execDapNop a0)).net = a0.net ∧ (resState a0 (execDapNop a0)).vats = a0.vats ∧
      (resState a0 (execDapNop a0)).mem = a0.mem ∧ (resState a0 (execDapNop a0)).hub = a0.hub ∧ (resState a0 (execDapNop a0)).span = a0.span ∧
      (resState a0 (execDapNop a0)).host = a0.host ∧ (resState a0 (execDapNop a0)).pwr = a0.pwr ∧ (resState a0 (execDapNop a0)).out = a0.out ∧
      (resState a0 (execDapNop a0)).free = a0.free := by
  unfold execDapNop; refine ⟨by first | (simp; done) | (rw [resState_next]; apply State.dapStart_same_pending; intros; (first | (simp; done) | (dsimp only; (repeat' (split <;> try dsimp only)) <;> simp_all)); done) | ((repeat' split) <;> first | (simp; done) | (rw [resState_next]; apply State.dapStart_same_pending; intros; (first | (simp; done) | (dsimp only; (repeat' (split <;> try dsimp only)) <;> simp_all)); done)), by first | (simp; done) | (rw [resState_next]; apply State.dapStart_same_clk; intros; (first | (simp; done) | (dsimp only; (repeat' (split <;> try dsimp only)) <;> simp_all)); done) | ((repeat' split) <;> first | (simp; done) | (rw [resState_next]; apply State.dapStart_same_clk; intros; (first | (simp; done) | (dsimp only; (repeat' (split <;> try dsimp only)) <;> simp_all)); done)), by first | (simp; done) | (rw [resState_next]; apply State.dapStart_same_cores; intros; (first | (simp; done) | (dsimp only; (repeat' (split <;> try dsimp only)) <;> simp_all)); done) | ((repeat' split) <;> first | (simp; done) | (rw [resState_next]; apply State.dapStart_same_cores; intros; (first | (simp; done) | (dsimp only; (repeat' (split <;> try dsimp only)) <;> simp_all)); done)), by first | (simp; done) | (rw [resState_next]; apply State.dapStart_same_net; intros; (first | (simp; done) | (dsimp only; (repeat' (split <;> try dsimp only)) <;> simp_all)); done) | ((repeat' split) <;> first | (simp; done) | (rw [resState_next]; apply State.dapStart_same_net; intros; (first | (simp; done) | (dsimp only; (repeat' (split <;> try dsimp only)) <;> simp_all)); done)), by first | (simp; done) | (rw [resState_next]; apply State.dapStart_same_vats; intros; (first | (simp; done) | (dsimp only; (repeat' (split <;> try dsimp only)) <;> simp_all)); done) | ((repeat' split) <;> first | (simp; done) | (rw [resState_next]; apply State.dapStart_same_vats; intros; (first | (simp; done) | (dsimp only; (repeat' (split <;> try dsimp only)) <;> simp_all)); done)), by first | (simp; done) | (rw [resState_next]; apply State.dapStart_same_mem; intros; (first | (simp; done) | (dsimp only; (repeat' (split <;> try dsimp only)) <;> simp_all)); done) | ((repeat' split) <;> first | (simp; done) | (rw [resState_next]; apply State.dapStart_same_mem; intros; (first | (simp; done) | (dsimp only; (repeat' (split <;> try dsimp only)) <;> simp_all)); done)), by first | (simp; done) | (rw [resState_next]; apply State.dapStart_same_hub; intros; (first | (simp; done) | (dsimp only; (repeat' (split <;> try dsimp only)) <;> simp_all)); done) | ((repeat' split) <;> first | (simp; done) | (rw [resState_next]; apply State.dapStart_same_hub; intros; (first | (simp; done) | (dsimp only; (repeat' (split <;> try dsimp only)) <;> simp_all)); done)), by first | (simp; done) | (rw [resState_next]; apply State.dapStart_same_span; intros; (first | (simp; done) | (dsimp only; (repeat' (split <;> try dsimp only)) <;> simp_all)); done) | ((repeat' split) <;> first | (simp; done) | (rw [resState_next]; apply State.dapStart_same_span; intros; (first | (simp; done) | (dsimp only; (repeat' (split <;> try dsimp only)) <;> simp_all)); done)), by first | (simp; done) | (rw [resState_next]; apply State.dapStart_same_host; intros; (first | (simp; done) | (dsimp only; (repeat' (split <;> try dsimp only)) <;> simp_all)); done) | ((repeat' split) <;> first | (simp; done) | (rw [resState_next]; apply State.dapStart_same_host; intros; (first | (simp; done) | (dsimp only; (repeat' (split <;> try dsimp only)) <;> simp_all)); done)), by first | (simp; done) | (rw [resState_next]; apply State.dapStart_same_pwr; intros; (first | (simp; done) | (dsimp only; (repeat' (split <;> try dsimp only)) <;> simp_all)); done) | ((repeat' split) <;> first | (simp; done) | (rw [resState_next]; apply State.dapStart_same_pwr; intros; (first | (simp; done) | (dsimp only; (repeat' (split <;> try dsimp only)) <;> simp_all)); done)), by first | (simp; done) | (rw [resState_next]; apply State.dapStart_same_out; intros; (first | (simp; done) | (dsimp only; (repeat' (split <;> try dsimp only)) <;> simp_all)); done) | ((repeat' split) <;> first | (simp; done) | (rw [resState_next]; apply State.dapStart_same_out; intros; (first | (simp; done) | (dsimp only; (repeat' (split <;> try dsimp only)) <;> simp_all)); done)), by first | (simp; done) | (rw [resState_next]; apply State.dapStart_same_free; intros; (first | (simp; done) | (dsimp only; (repeat' (split <;> try dsimp only)) <;> simp_all)); done) | ((repeat' split) <;> first | (simp; done) | (rw [resState_next]; apply State.dapStart_same_free; intros; (first | (simp; done) | (dsimp only; (repeat' (split <;> try dsimp only)) <;> simp_all)); done))⟩
@[simp] theorem execDapNop_kept (a0 : State) :
    (resState a0 (execDapNop a0)).boot.flash = a0.boot.flash ∧ (resState a0 (execDapNop a0)).boot.flashBuf = a0.boot.flashBuf := by
  unfold execDapNop; refine ⟨by first | (simp; done) | (rw [resState_next]; apply State.dapStart_kept_boot_flash <;> (intros; (first | (simp; done) | (simp_all; done) | (dsimp only; (repeat' (split <;> try dsimp only)) <;> simp_all; done) | ((repeat' split) <;> simp_all; done))); done) | ((repeat' split) <;> first | (simp; done) | (simp_all; done) | (rw [resState_next]; apply State.dapStart_kept_boot_flash <;> (intros; (first | (simp; done) | (simp_all; done) | (dsimp only; (repeat' (split <;> try dsimp only)) <;> simp_all; done) | ((repeat' split) <;> simp_all; done))); done)), by first | (simp; done) | (rw [resState_next]; apply State.dapStart_kept_boot_flashBuf <;> (intros; (first | (simp; done) | (simp_all; done) | (dsimp only; (repeat' (split <;> try dsimp only)) <;> simp_all; done) | ((repeat' split) <;> simp_all; done))); done) | ((repeat' split) <;> first | (simp; done) | (simp_all; done) | (rw [resState_next]; apply State.dapStart_kept_boot_flashBuf <;> (intros; (first | (simp; done) | (simp_all; done) | (dsimp only; (repeat' (split <;> try dsimp only)) <;> simp_all; done) | ((repeat' split) <;> simp_all; done))); done))⟩
@[simp] theorem execDapRead_same (a0 : Nat) (a1 : Nat) (a2 : State) : (resState a2 (execDapRead a0 a1 a2)).pending = a2.pending := by
  unfold execDapRead; (repeat' (split <;> try dsimp only)) <;> simp
theorem execDapRead_memOk (a0 : Nat) (a1 : Nat) (a2 : State) (h : a2.MemOk) : (resState a2 (execDapRead a0 a1 a2)).MemOk := by
  unfold execDapRead; rw [resState_next]
  split
  · exact h
  · split
    · exact (State.wakeCl_memOk _ _).mpr h
    · refine State.dapStart_memOk _ _ h ?_
      split
      · exact State.dapRead_memOk _ _ _ h
      · exact (State.regRefuse_memOk _ _ _ _).mpr h
@[simp] theorem execDapResume_same (a0 : Nat) (a1 : State) :
    (resState a1 (execDapResume a0 a1)).pending = a1.pending ∧ (resState a1 (execDapResume a0 a1)).clk = a1.clk ∧
      (resState a1 (execDapResume a0 a1)).net = a1.net ∧ (resState a1 (execDapResume a0 a1)).vats = a1.vats ∧
      (resState a1 (execDapResume a0 a1)).mem = a1.mem ∧ (resState a1 (execDapResume a0 a1)).hub = a1.hub ∧
      (resState a1 (execDapResume a0 a1)).span = a1.span ∧ (resState a1 (execDapResume a0 a1)).host = a1.host ∧
      (resState a1 (execDapResume a0 a1)).out = a1.out ∧ (resState a1 (execDapResume a0 a1)).free = a1.free := by
  unfold execDapResume; refine ⟨by first | (simp; done) | (rw [resState_next]; apply State.dapStart_same_pending; intros; (first | (simp; done) | (dsimp only; (repeat' (split <;> try dsimp only)) <;> simp_all)); done) | ((repeat' split) <;> first | (simp; done) | (rw [resState_next]; apply State.dapStart_same_pending; intros; (first | (simp; done) | (dsimp only; (repeat' (split <;> try dsimp only)) <;> simp_all)); done)), by first | (simp; done) | (rw [resState_next]; apply State.dapStart_same_clk; intros; (first | (simp; done) | (dsimp only; (repeat' (split <;> try dsimp only)) <;> simp_all)); done) | ((repeat' split) <;> first | (simp; done) | (rw [resState_next]; apply State.dapStart_same_clk; intros; (first | (simp; done) | (dsimp only; (repeat' (split <;> try dsimp only)) <;> simp_all)); done)), by first | (simp; done) | (rw [resState_next]; apply State.dapStart_same_net; intros; (first | (simp; done) | (dsimp only; (repeat' (split <;> try dsimp only)) <;> simp_all)); done) | ((repeat' split) <;> first | (simp; done) | (rw [resState_next]; apply State.dapStart_same_net; intros; (first | (simp; done) | (dsimp only; (repeat' (split <;> try dsimp only)) <;> simp_all)); done)), by first | (simp; done) | (rw [resState_next]; apply State.dapStart_same_vats; intros; (first | (simp; done) | (dsimp only; (repeat' (split <;> try dsimp only)) <;> simp_all)); done) | ((repeat' split) <;> first | (simp; done) | (rw [resState_next]; apply State.dapStart_same_vats; intros; (first | (simp; done) | (dsimp only; (repeat' (split <;> try dsimp only)) <;> simp_all)); done)), by first | (simp; done) | (rw [resState_next]; apply State.dapStart_same_mem; intros; (first | (simp; done) | (dsimp only; (repeat' (split <;> try dsimp only)) <;> simp_all)); done) | ((repeat' split) <;> first | (simp; done) | (rw [resState_next]; apply State.dapStart_same_mem; intros; (first | (simp; done) | (dsimp only; (repeat' (split <;> try dsimp only)) <;> simp_all)); done)), by first | (simp; done) | (rw [resState_next]; apply State.dapStart_same_hub; intros; (first | (simp; done) | (dsimp only; (repeat' (split <;> try dsimp only)) <;> simp_all)); done) | ((repeat' split) <;> first | (simp; done) | (rw [resState_next]; apply State.dapStart_same_hub; intros; (first | (simp; done) | (dsimp only; (repeat' (split <;> try dsimp only)) <;> simp_all)); done)), by first | (simp; done) | (rw [resState_next]; apply State.dapStart_same_span; intros; (first | (simp; done) | (dsimp only; (repeat' (split <;> try dsimp only)) <;> simp_all)); done) | ((repeat' split) <;> first | (simp; done) | (rw [resState_next]; apply State.dapStart_same_span; intros; (first | (simp; done) | (dsimp only; (repeat' (split <;> try dsimp only)) <;> simp_all)); done)), by first | (simp; done) | (rw [resState_next]; apply State.dapStart_same_host; intros; (first | (simp; done) | (dsimp only; (repeat' (split <;> try dsimp only)) <;> simp_all)); done) | ((repeat' split) <;> first | (simp; done) | (rw [resState_next]; apply State.dapStart_same_host; intros; (first | (simp; done) | (dsimp only; (repeat' (split <;> try dsimp only)) <;> simp_all)); done)), by first | (simp; done) | (rw [resState_next]; apply State.dapStart_same_out; intros; (first | (simp; done) | (dsimp only; (repeat' (split <;> try dsimp only)) <;> simp_all)); done) | ((repeat' split) <;> first | (simp; done) | (rw [resState_next]; apply State.dapStart_same_out; intros; (first | (simp; done) | (dsimp only; (repeat' (split <;> try dsimp only)) <;> simp_all)); done)), by first | (simp; done) | (rw [resState_next]; apply State.dapStart_same_free; intros; (first | (simp; done) | (dsimp only; (repeat' (split <;> try dsimp only)) <;> simp_all)); done) | ((repeat' split) <;> first | (simp; done) | (rw [resState_next]; apply State.dapStart_same_free; intros; (first | (simp; done) | (dsimp only; (repeat' (split <;> try dsimp only)) <;> simp_all)); done))⟩
@[simp] theorem execDapResume_kept (a0 : Nat) (a1 : State) :
    (resState a1 (execDapResume a0 a1)).boot.flash = a1.boot.flash ∧ (resState a1 (execDapResume a0 a1)).boot.flashBuf = a1.boot.flashBuf := by
  unfold execDapResume; refine ⟨by first | (simp; done) | (rw [resState_next]; apply State.dapStart_kept_boot_flash <;> (intros; (first | (simp; done) | (simp_all; done) | (dsimp only; (repeat' (split <;> try dsimp only)) <;> simp_all; done) | ((repeat' split) <;> simp_all; done))); done) | ((repeat' split) <;> first | (simp; done) | (simp_all; done) | (rw [resState_next]; apply State.dapStart_kept_boot_flash <;> (intros; (first | (simp; done) | (simp_all; done) | (dsimp only; (repeat' (split <;> try dsimp only)) <;> simp_all; done) | ((repeat' split) <;> simp_all; done))); done)), by first | (simp; done) | (rw [resState_next]; apply State.dapStart_kept_boot_flashBuf <;> (intros; (first | (simp; done) | (simp_all; done) | (dsimp only; (repeat' (split <;> try dsimp only)) <;> simp_all; done) | ((repeat' split) <;> simp_all; done))); done) | ((repeat' split) <;> first | (simp; done) | (simp_all; done) | (rw [resState_next]; apply State.dapStart_kept_boot_flashBuf <;> (intros; (first | (simp; done) | (simp_all; done) | (dsimp only; (repeat' (split <;> try dsimp only)) <;> simp_all; done) | ((repeat' split) <;> simp_all; done))); done))⟩
@[simp] theorem execDapStep_same (a0 : Nat) (a1 : State) :
    (resState a1 (execDapStep a0 a1)).pending = a1.pending ∧ (resState a1 (execDapStep a0 a1)).clk = a1.clk ∧
      (resState a1 (execDapStep a0 a1)).net = a1.net ∧ (resState a1 (execDapStep a0 a1)).vats = a1.vats ∧
      (resState a1 (execDapStep a0 a1)).mem = a1.mem ∧ (resState a1 (execDapStep a0 a1)).hub = a1.hub ∧
      (resState a1 (execDapStep a0 a1)).span = a1.span ∧ (resState a1 (execDapStep a0 a1)).host = a1.host ∧
      (resState a1 (execDapStep a0 a1)).out = a1.out ∧ (resState a1 (execDapStep a0 a1)).free = a1.free := by
  unfold execDapStep; refine ⟨by first | (simp; done) | (rw [resState_next]; apply State.dapStart_same_pending; intros; (first | (simp; done) | (dsimp only; (repeat' (split <;> try dsimp only)) <;> simp_all)); done) | ((repeat' split) <;> first | (simp; done) | (rw [resState_next]; apply State.dapStart_same_pending; intros; (first | (simp; done) | (dsimp only; (repeat' (split <;> try dsimp only)) <;> simp_all)); done)), by first | (simp; done) | (rw [resState_next]; apply State.dapStart_same_clk; intros; (first | (simp; done) | (dsimp only; (repeat' (split <;> try dsimp only)) <;> simp_all)); done) | ((repeat' split) <;> first | (simp; done) | (rw [resState_next]; apply State.dapStart_same_clk; intros; (first | (simp; done) | (dsimp only; (repeat' (split <;> try dsimp only)) <;> simp_all)); done)), by first | (simp; done) | (rw [resState_next]; apply State.dapStart_same_net; intros; (first | (simp; done) | (dsimp only; (repeat' (split <;> try dsimp only)) <;> simp_all)); done) | ((repeat' split) <;> first | (simp; done) | (rw [resState_next]; apply State.dapStart_same_net; intros; (first | (simp; done) | (dsimp only; (repeat' (split <;> try dsimp only)) <;> simp_all)); done)), by first | (simp; done) | (rw [resState_next]; apply State.dapStart_same_vats; intros; (first | (simp; done) | (dsimp only; (repeat' (split <;> try dsimp only)) <;> simp_all)); done) | ((repeat' split) <;> first | (simp; done) | (rw [resState_next]; apply State.dapStart_same_vats; intros; (first | (simp; done) | (dsimp only; (repeat' (split <;> try dsimp only)) <;> simp_all)); done)), by first | (simp; done) | (rw [resState_next]; apply State.dapStart_same_mem; intros; (first | (simp; done) | (dsimp only; (repeat' (split <;> try dsimp only)) <;> simp_all)); done) | ((repeat' split) <;> first | (simp; done) | (rw [resState_next]; apply State.dapStart_same_mem; intros; (first | (simp; done) | (dsimp only; (repeat' (split <;> try dsimp only)) <;> simp_all)); done)), by first | (simp; done) | (rw [resState_next]; apply State.dapStart_same_hub; intros; (first | (simp; done) | (dsimp only; (repeat' (split <;> try dsimp only)) <;> simp_all)); done) | ((repeat' split) <;> first | (simp; done) | (rw [resState_next]; apply State.dapStart_same_hub; intros; (first | (simp; done) | (dsimp only; (repeat' (split <;> try dsimp only)) <;> simp_all)); done)), by first | (simp; done) | (rw [resState_next]; apply State.dapStart_same_span; intros; (first | (simp; done) | (dsimp only; (repeat' (split <;> try dsimp only)) <;> simp_all)); done) | ((repeat' split) <;> first | (simp; done) | (rw [resState_next]; apply State.dapStart_same_span; intros; (first | (simp; done) | (dsimp only; (repeat' (split <;> try dsimp only)) <;> simp_all)); done)), by first | (simp; done) | (rw [resState_next]; apply State.dapStart_same_host; intros; (first | (simp; done) | (dsimp only; (repeat' (split <;> try dsimp only)) <;> simp_all)); done) | ((repeat' split) <;> first | (simp; done) | (rw [resState_next]; apply State.dapStart_same_host; intros; (first | (simp; done) | (dsimp only; (repeat' (split <;> try dsimp only)) <;> simp_all)); done)), by first | (simp; done) | (rw [resState_next]; apply State.dapStart_same_out; intros; (first | (simp; done) | (dsimp only; (repeat' (split <;> try dsimp only)) <;> simp_all)); done) | ((repeat' split) <;> first | (simp; done) | (rw [resState_next]; apply State.dapStart_same_out; intros; (first | (simp; done) | (dsimp only; (repeat' (split <;> try dsimp only)) <;> simp_all)); done)), by first | (simp; done) | (rw [resState_next]; apply State.dapStart_same_free; intros; (first | (simp; done) | (dsimp only; (repeat' (split <;> try dsimp only)) <;> simp_all)); done) | ((repeat' split) <;> first | (simp; done) | (rw [resState_next]; apply State.dapStart_same_free; intros; (first | (simp; done) | (dsimp only; (repeat' (split <;> try dsimp only)) <;> simp_all)); done))⟩
@[simp] theorem execDapStep_kept (a0 : Nat) (a1 : State) :
    (resState a1 (execDapStep a0 a1)).boot.flash = a1.boot.flash ∧ (resState a1 (execDapStep a0 a1)).boot.flashBuf = a1.boot.flashBuf := by
  unfold execDapStep; refine ⟨by first | (simp; done) | (rw [resState_next]; apply State.dapStart_kept_boot_flash <;> (intros; (first | (simp; done) | (simp_all; done) | (dsimp only; (repeat' (split <;> try dsimp only)) <;> simp_all; done) | ((repeat' split) <;> simp_all; done))); done) | ((repeat' split) <;> first | (simp; done) | (simp_all; done) | (rw [resState_next]; apply State.dapStart_kept_boot_flash <;> (intros; (first | (simp; done) | (simp_all; done) | (dsimp only; (repeat' (split <;> try dsimp only)) <;> simp_all; done) | ((repeat' split) <;> simp_all; done))); done)), by first | (simp; done) | (rw [resState_next]; apply State.dapStart_kept_boot_flashBuf <;> (intros; (first | (simp; done) | (simp_all; done) | (dsimp only; (repeat' (split <;> try dsimp only)) <;> simp_all; done) | ((repeat' split) <;> simp_all; done))); done) | ((repeat' split) <;> first | (simp; done) | (simp_all; done) | (rw [resState_next]; apply State.dapStart_kept_boot_flashBuf <;> (intros; (first | (simp; done) | (simp_all; done) | (dsimp only; (repeat' (split <;> try dsimp only)) <;> simp_all; done) | ((repeat' split) <;> simp_all; done))); done))⟩

end Sys2Proof.Machine
end

