-- ==== Sys2Proof/Laws/Exec2.lean ====
section
/-! SUPPORT. What each meaning leaves unchanged: the parts of the state it does not touch, and the canonical form of the memories (2 of 6). -/

namespace Sys2Proof.Machine

@[simp] theorem execDapStepTimeout_same (a0 : Nat) (a1 : State) :
    (resState a1 (execDapStepTimeout a0 a1)).pending = a1.pending ∧ (resState a1 (execDapStepTimeout a0 a1)).clk = a1.clk ∧
      (resState a1 (execDapStepTimeout a0 a1)).vats = a1.vats ∧ (resState a1 (execDapStepTimeout a0 a1)).mem = a1.mem ∧
      (resState a1 (execDapStepTimeout a0 a1)).span = a1.span ∧ (resState a1 (execDapStepTimeout a0 a1)).host = a1.host ∧
      (resState a1 (execDapStepTimeout a0 a1)).free = a1.free := by
  unfold execDapStepTimeout; (repeat' split) <;> simp
@[simp] theorem execDapStepTimeout_kept (a0 : Nat) (a1 : State) :
    (resState a1 (execDapStepTimeout a0 a1)).boot.flash = a1.boot.flash ∧ (resState a1 (execDapStepTimeout a0 a1)).boot.flashBuf = a1.boot.flashBuf := by
  unfold execDapStepTimeout; (repeat' split) <;> simp
@[simp] theorem execDapTransactionComplete_same (a0 : State) :
    (resState a0 (execDapTransactionComplete a0)).pending = a0.pending ∧ (resState a0 (execDapTransactionComplete a0)).clk = a0.clk ∧
      (resState a0 (execDapTransactionComplete a0)).cores = a0.cores ∧ (resState a0 (execDapTransactionComplete a0)).net = a0.net ∧
      (resState a0 (execDapTransactionComplete a0)).vats = a0.vats ∧ (resState a0 (execDapTransactionComplete a0)).mem = a0.mem ∧
      (resState a0 (execDapTransactionComplete a0)).hub = a0.hub ∧ (resState a0 (execDapTransactionComplete a0)).span = a0.span ∧
      (resState a0 (execDapTransactionComplete a0)).host = a0.host ∧ (resState a0 (execDapTransactionComplete a0)).pwr = a0.pwr ∧
      (resState a0 (execDapTransactionComplete a0)).out = a0.out ∧ (resState a0 (execDapTransactionComplete a0)).free = a0.free := by
  unfold execDapTransactionComplete; (repeat' split) <;> simp
@[simp] theorem execDapTransactionComplete_kept (a0 : State) :
    (resState a0 (execDapTransactionComplete a0)).boot.flash = a0.boot.flash ∧
      (resState a0 (execDapTransactionComplete a0)).boot.flashBuf = a0.boot.flashBuf := by
  unfold execDapTransactionComplete; (repeat' split) <;> simp
@[simp] theorem execDapWrite_same (a0 : Nat) (a1 : Nat) (a2 : Nat) (a3 : State) : (resState a3 (execDapWrite a0 a1 a2 a3)).pending = a3.pending := by
  unfold execDapWrite; (repeat' (split <;> try dsimp only)) <;> simp
theorem execDapWrite_memOk (a0 : Nat) (a1 : Nat) (a2 : Nat) (a3 : State) (h : a3.MemOk) : (resState a3 (execDapWrite a0 a1 a2 a3)).MemOk := by
  unfold execDapWrite; rw [resState_next]
  split
  · exact h
  · split
    · exact (State.wakeCl_memOk _ _).mpr h
    · refine State.dapStart_memOk _ _ h ?_
      split
      · exact State.dapWrite_memOk _ _ _ _ h
      · exact (State.regRefuse_memOk _ _ _ _).mpr h
@[simp] theorem execDbnz_same (a0 : Nat) (a1 : Guard) (a2 : Reg) (a3 : BitVec 15) (a4 : State) :
    (resState a4 (execDbnz a0 a1 a2 a3 a4)).pending = a4.pending ∧ (resState a4 (execDbnz a0 a1 a2 a3 a4)).clk = a4.clk ∧
      (resState a4 (execDbnz a0 a1 a2 a3 a4)).mem = a4.mem ∧ (resState a4 (execDbnz a0 a1 a2 a3 a4)).span = a4.span ∧
      (resState a4 (execDbnz a0 a1 a2 a3 a4)).host = a4.host ∧ (resState a4 (execDbnz a0 a1 a2 a3 a4)).boot = a4.boot ∧
      (resState a4 (execDbnz a0 a1 a2 a3 a4)).free = a4.free := by
  unfold execDbnz; refine ⟨by first | (simp; done) | (rw [resState_next]; apply State.instrIf_same_pending; intros; (first | (simp; done) | (dsimp only; (repeat' (split <;> try dsimp only)) <;> simp_all)); done) | ((repeat' split) <;> first | (simp; done) | (rw [resState_next]; apply State.instrIf_same_pending; intros; (first | (simp; done) | (dsimp only; (repeat' (split <;> try dsimp only)) <;> simp_all)); done)), by first | (simp; done) | (rw [resState_next]; apply State.instrIf_same_clk; intros; (first | (simp; done) | (dsimp only; (repeat' (split <;> try dsimp only)) <;> simp_all)); done) | ((repeat' split) <;> first | (simp; done) | (rw [resState_next]; apply State.instrIf_same_clk; intros; (first | (simp; done) | (dsimp only; (repeat' (split <;> try dsimp only)) <;> simp_all)); done)), by first | (simp; done) | (rw [resState_next]; apply State.instrIf_same_mem; intros; (first | (simp; done) | (dsimp only; (repeat' (split <;> try dsimp only)) <;> simp_all)); done) | ((repeat' split) <;> first | (simp; done) | (rw [resState_next]; apply State.instrIf_same_mem; intros; (first | (simp; done) | (dsimp only; (repeat' (split <;> try dsimp only)) <;> simp_all)); done)), by first | (simp; done) | (rw [resState_next]; apply State.instrIf_same_span; intros; (first | (simp; done) | (dsimp only; (repeat' (split <;> try dsimp only)) <;> simp_all)); done) | ((repeat' split) <;> first | (simp; done) | (rw [resState_next]; apply State.instrIf_same_span; intros; (first | (simp; done) | (dsimp only; (repeat' (split <;> try dsimp only)) <;> simp_all)); done)), by first | (simp; done) | (rw [resState_next]; apply State.instrIf_same_host; intros; (first | (simp; done) | (dsimp only; (repeat' (split <;> try dsimp only)) <;> simp_all)); done) | ((repeat' split) <;> first | (simp; done) | (rw [resState_next]; apply State.instrIf_same_host; intros; (first | (simp; done) | (dsimp only; (repeat' (split <;> try dsimp only)) <;> simp_all)); done)), by first | (simp; done) | (rw [resState_next]; apply State.instrIf_same_boot; intros; (first | (simp; done) | (dsimp only; (repeat' (split <;> try dsimp only)) <;> simp_all)); done) | ((repeat' split) <;> first | (simp; done) | (rw [resState_next]; apply State.instrIf_same_boot; intros; (first | (simp; done) | (dsimp only; (repeat' (split <;> try dsimp only)) <;> simp_all)); done)), by first | (simp; done) | (rw [resState_next]; apply State.instrIf_same_free; intros; (first | (simp; done) | (dsimp only; (repeat' (split <;> try dsimp only)) <;> simp_all)); done) | ((repeat' split) <;> first | (simp; done) | (rw [resState_next]; apply State.instrIf_same_free; intros; (first | (simp; done) | (dsimp only; (repeat' (split <;> try dsimp only)) <;> simp_all)); done))⟩
@[simp] theorem execDeadlockDetect_same (a0 : Nat) (a1 : Nat) (a2 : State) :
    (resState a2 (execDeadlockDetect a0 a1 a2)).pending = a2.pending ∧ (resState a2 (execDeadlockDetect a0 a1 a2)).clk = a2.clk ∧
      (resState a2 (execDeadlockDetect a0 a1 a2)).net = a2.net ∧ (resState a2 (execDeadlockDetect a0 a1 a2)).vats = a2.vats ∧
      (resState a2 (execDeadlockDetect a0 a1 a2)).mem = a2.mem ∧ (resState a2 (execDeadlockDetect a0 a1 a2)).span = a2.span ∧
      (resState a2 (execDeadlockDetect a0 a1 a2)).host = a2.host ∧ (resState a2 (execDeadlockDetect a0 a1 a2)).boot = a2.boot ∧
      (resState a2 (execDeadlockDetect a0 a1 a2)).free = a2.free := by
  unfold execDeadlockDetect; dsimp only; (repeat' (split <;> try dsimp only)) <;> simp_all
@[simp] theorem execDeliv_same (a0 : Nat) (a1 : Nat) (a2 : State) :
    (resState a2 (execDeliv a0 a1 a2)).pending = a2.pending ∧ (resState a2 (execDeliv a0 a1 a2)).clk = a2.clk ∧
      (resState a2 (execDeliv a0 a1 a2)).mem = a2.mem ∧ (resState a2 (execDeliv a0 a1 a2)).host = a2.host ∧
      (resState a2 (execDeliv a0 a1 a2)).boot = a2.boot ∧ (resState a2 (execDeliv a0 a1 a2)).free = a2.free := by
  unfold execDeliv; refine ⟨by first | (simp; done) | (rw [resState_next]; apply State.seInstr_same_pending; intros; (first | (simp; done) | (dsimp only; (repeat' (split <;> try dsimp only)) <;> simp_all)); done) | ((repeat' split) <;> first | (simp; done) | (rw [resState_next]; apply State.seInstr_same_pending; intros; (first | (simp; done) | (dsimp only; (repeat' (split <;> try dsimp only)) <;> simp_all)); done)), by first | (simp; done) | (rw [resState_next]; apply State.seInstr_same_clk; intros; (first | (simp; done) | (dsimp only; (repeat' (split <;> try dsimp only)) <;> simp_all)); done) | ((repeat' split) <;> first | (simp; done) | (rw [resState_next]; apply State.seInstr_same_clk; intros; (first | (simp; done) | (dsimp only; (repeat' (split <;> try dsimp only)) <;> simp_all)); done)), by first | (simp; done) | (rw [resState_next]; apply State.seInstr_same_mem; intros; (first | (simp; done) | (dsimp only; (repeat' (split <;> try dsimp only)) <;> simp_all)); done) | ((repeat' split) <;> first | (simp; done) | (rw [resState_next]; apply State.seInstr_same_mem; intros; (first | (simp; done) | (dsimp only; (repeat' (split <;> try dsimp only)) <;> simp_all)); done)), by first | (simp; done) | (rw [resState_next]; apply State.seInstr_same_host; intros; (first | (simp; done) | (dsimp only; (repeat' (split <;> try dsimp only)) <;> simp_all)); done) | ((repeat' split) <;> first | (simp; done) | (rw [resState_next]; apply State.seInstr_same_host; intros; (first | (simp; done) | (dsimp only; (repeat' (split <;> try dsimp only)) <;> simp_all)); done)), by first | (simp; done) | (rw [resState_next]; apply State.seInstr_same_boot; intros; (first | (simp; done) | (dsimp only; (repeat' (split <;> try dsimp only)) <;> simp_all)); done) | ((repeat' split) <;> first | (simp; done) | (rw [resState_next]; apply State.seInstr_same_boot; intros; (first | (simp; done) | (dsimp only; (repeat' (split <;> try dsimp only)) <;> simp_all)); done)), by first | (simp; done) | (rw [resState_next]; apply State.seInstr_same_free; intros; (first | (simp; done) | (dsimp only; (repeat' (split <;> try dsimp only)) <;> simp_all)); done) | ((repeat' split) <;> first | (simp; done) | (rw [resState_next]; apply State.seInstr_same_free; intros; (first | (simp; done) | (dsimp only; (repeat' (split <;> try dsimp only)) <;> simp_all)); done))⟩
@[simp] theorem execDeliveryAction_same (a0 : Nat) (a1 : Nat) (a2 : State) :
    (resState a2 (execDeliveryAction a0 a1 a2)).pending = a2.pending ∧ (resState a2 (execDeliveryAction a0 a1 a2)).clk = a2.clk ∧
      (resState a2 (execDeliveryAction a0 a1 a2)).mem = a2.mem ∧ (resState a2 (execDeliveryAction a0 a1 a2)).span = a2.span ∧
      (resState a2 (execDeliveryAction a0 a1 a2)).host = a2.host ∧ (resState a2 (execDeliveryAction a0 a1 a2)).boot = a2.boot ∧
      (resState a2 (execDeliveryAction a0 a1 a2)).free = a2.free := by
  unfold execDeliveryAction; dsimp only; (repeat' (split <;> try dsimp only)) <;> simp_all
@[simp] theorem execDeliveryPieceWrite_same (a0 : Nat) (a1 : Nat) (a2 : State) :
    (resState a2 (execDeliveryPieceWrite a0 a1 a2)).pending = a2.pending ∧ (resState a2 (execDeliveryPieceWrite a0 a1 a2)).clk = a2.clk ∧
      (resState a2 (execDeliveryPieceWrite a0 a1 a2)).mem = a2.mem ∧ (resState a2 (execDeliveryPieceWrite a0 a1 a2)).host = a2.host ∧
      (resState a2 (execDeliveryPieceWrite a0 a1 a2)).boot = a2.boot ∧ (resState a2 (execDeliveryPieceWrite a0 a1 a2)).free = a2.free := by
  unfold execDeliveryPieceWrite; dsimp only; (repeat' (split <;> try dsimp only)) <;> simp_all
@[simp] theorem execDeviceFault_same (a0 : Nat) (a1 : State) :
    (resState a1 (execDeviceFault a0 a1)).pending = a1.pending ∧ (resState a1 (execDeviceFault a0 a1)).clk = a1.clk ∧
      (resState a1 (execDeviceFault a0 a1)).net = a1.net ∧ (resState a1 (execDeviceFault a0 a1)).span = a1.span ∧
      (resState a1 (execDeviceFault a0 a1)).boot = a1.boot ∧ (resState a1 (execDeviceFault a0 a1)).free = a1.free := by
  unfold execDeviceFault; (repeat' split) <;> simp
@[simp] theorem execDeviceFault_kept (a0 : Nat) (a1 : State) :
    (resState a1 (execDeviceFault a0 a1)).mem.stack = a1.mem.stack := by
  unfold execDeviceFault; (repeat' split) <;> simp
@[simp] theorem execDeviceWake_same (a0 : State) :
    (resState a0 (execDeviceWake a0)).pending = a0.pending ∧ (resState a0 (execDeviceWake a0)).clk = a0.clk ∧
      (resState a0 (execDeviceWake a0)).cores = a0.cores ∧ (resState a0 (execDeviceWake a0)).net = a0.net ∧
      (resState a0 (execDeviceWake a0)).vats = a0.vats ∧ (resState a0 (execDeviceWake a0)).hub = a0.hub ∧
      (resState a0 (execDeviceWake a0)).span = a0.span ∧ (resState a0 (execDeviceWake a0)).host = a0.host ∧
      (resState a0 (execDeviceWake a0)).boot = a0.boot ∧ (resState a0 (execDeviceWake a0)).out = a0.out ∧
      (resState a0 (execDeviceWake a0)).free = a0.free := by
  unfold execDeviceWake; (repeat' split) <;> simp
@[simp] theorem execDeviceWake_kept (a0 : State) :
    (resState a0 (execDeviceWake a0)).mem.stack = a0.mem.stack := by
  unfold execDeviceWake; (repeat' split) <;> simp
@[simp] theorem execDeviceWriteAck_same (a0 : Nat) (a1 : Nat) (a2 : Nat) (a3 : Nat) (a4 : State) :
    (resState a4 (execDeviceWriteAck a0 a1 a2 a3 a4)).pending = a4.pending ∧ (resState a4 (execDeviceWriteAck a0 a1 a2 a3 a4)).clk = a4.clk ∧
      (resState a4 (execDeviceWriteAck a0 a1 a2 a3 a4)).mem = a4.mem ∧ (resState a4 (execDeviceWriteAck a0 a1 a2 a3 a4)).span = a4.span ∧
      (resState a4 (execDeviceWriteAck a0 a1 a2 a3 a4)).host = a4.host ∧ (resState a4 (execDeviceWriteAck a0 a1 a2 a3 a4)).boot = a4.boot ∧
      (resState a4 (execDeviceWriteAck a0 a1 a2 a3 a4)).free = a4.free := by
  unfold execDeviceWriteAck; dsimp only; (repeat' (split <;> try dsimp only)) <;> simp_all
@[simp] theorem execDiv_same (a0 : Nat) (a1 : Guard) (a2 : Reg) (a3 : Reg) (a4 : Reg) (a5 : State) :
    (resState a5 (execDiv a0 a1 a2 a3 a4 a5)).pending = a5.pending ∧ (resState a5 (execDiv a0 a1 a2 a3 a4 a5)).clk = a5.clk ∧
      (resState a5 (execDiv a0 a1 a2 a3 a4 a5)).mem = a5.mem ∧ (resState a5 (execDiv a0 a1 a2 a3 a4 a5)).span = a5.span ∧
      (resState a5 (execDiv a0 a1 a2 a3 a4 a5)).host = a5.host ∧ (resState a5 (execDiv a0 a1 a2 a3 a4 a5)).boot = a5.boot ∧
      (resState a5 (execDiv a0 a1 a2 a3 a4 a5)).free = a5.free := by
  unfold execDiv; (repeat' split) <;> simp
@[simp] theorem execDivu_same (a0 : Nat) (a1 : Guard) (a2 : Reg) (a3 : Reg) (a4 : Reg) (a5 : State) :
    (resState a5 (execDivu a0 a1 a2 a3 a4 a5)).pending = a5.pending ∧ (resState a5 (execDivu a0 a1 a2 a3 a4 a5)).clk = a5.clk ∧
      (resState a5 (execDivu a0 a1 a2 a3 a4 a5)).mem = a5.mem ∧ (resState a5 (execDivu a0 a1 a2 a3 a4 a5)).span = a5.span ∧
      (resState a5 (execDivu a0 a1 a2 a3 a4 a5)).host = a5.host ∧ (resState a5 (execDivu a0 a1 a2 a3 a4 a5)).boot = a5.boot ∧
      (resState a5 (execDivu a0 a1 a2 a3 a4 a5)).free = a5.free := by
  unfold execDivu; (repeat' split) <;> simp
@[simp] theorem execDmaCompletionTimeout_same (a0 : Nat) (a1 : Option Nat) (a2 : State) :
    (resState a2 (execDmaCompletionTimeout a0 a1 a2)).pending = a2.pending ∧ (resState a2 (execDmaCompletionTimeout a0 a1 a2)).clk = a2.clk ∧
      (resState a2 (execDmaCompletionTimeout a0 a1 a2)).cores = a2.cores ∧ (resState a2 (execDmaCompletionTimeout a0 a1 a2)).net = a2.net ∧
      (resState a2 (execDmaCompletionTimeout a0 a1 a2)).mem = a2.mem ∧ (resState a2 (execDmaCompletionTimeout a0 a1 a2)).span = a2.span ∧
      (resState a2 (execDmaCompletionTimeout a0 a1 a2)).boot = a2.boot ∧ (resState a2 (execDmaCompletionTimeout a0 a1 a2)).free = a2.free := by
  unfold execDmaCompletionTimeout; (repeat' split) <;> simp
@[simp] theorem execDrainTimeout_same (a0 : Nat) (a1 : State) :
    (resState a1 (execDrainTimeout a0 a1)).pending = a1.pending ∧ (resState a1 (execDrainTimeout a0 a1)).clk = a1.clk ∧
      (resState a1 (execDrainTimeout a0 a1)).cores = a1.cores ∧ (resState a1 (execDrainTimeout a0 a1)).net = a1.net ∧
      (resState a1 (execDrainTimeout a0 a1)).mem = a1.mem ∧ (resState a1 (execDrainTimeout a0 a1)).hub = a1.hub ∧
      (resState a1 (execDrainTimeout a0 a1)).span = a1.span ∧ (resState a1 (execDrainTimeout a0 a1)).host = a1.host ∧
      (resState a1 (execDrainTimeout a0 a1)).pwr = a1.pwr ∧ (resState a1 (execDrainTimeout a0 a1)).boot = a1.boot ∧
      (resState a1 (execDrainTimeout a0 a1)).out = a1.out ∧ (resState a1 (execDrainTimeout a0 a1)).free = a1.free := by
  unfold execDrainTimeout; dsimp only; (repeat' (split <;> try dsimp only)) <;> simp_all
@[simp] theorem execDroopTrip_same (a0 : Nat) (a1 : Nat) (a2 : State) :
    (resState a2 (execDroopTrip a0 a1 a2)).pending = a2.pending ∧ (resState a2 (execDroopTrip a0 a1 a2)).clk = a2.clk ∧
      (resState a2 (execDroopTrip a0 a1 a2)).cores = a2.cores ∧ (resState a2 (execDroopTrip a0 a1 a2)).net = a2.net ∧
      (resState a2 (execDroopTrip a0 a1 a2)).mem = a2.mem ∧ (resState a2 (execDroopTrip a0 a1 a2)).span = a2.span ∧
      (resState a2 (execDroopTrip a0 a1 a2)).host = a2.host ∧ (resState a2 (execDroopTrip a0 a1 a2)).boot = a2.boot ∧
      (resState a2 (execDroopTrip a0 a1 a2)).free = a2.free := by
  unfold execDroopTrip; (repeat' split) <;> simp
@[simp] theorem execDvfsSwitch_same (a0 : State) :
    (resState a0 (execDvfsSwitch a0)).pending = a0.pending ∧ (resState a0 (execDvfsSwitch a0)).clk = a0.clk ∧
      (resState a0 (execDvfsSwitch a0)).cores = a0.cores ∧ (resState a0 (execDvfsSwitch a0)).net = a0.net ∧
      (resState a0 (execDvfsSwitch a0)).vats = a0.vats ∧ (resState a0 (execDvfsSwitch a0)).mem = a0.mem ∧
      (resState a0 (execDvfsSwitch a0)).span = a0.span ∧ (resState a0 (execDvfsSwitch a0)).host = a0.host ∧
      (resState a0 (execDvfsSwitch a0)).pwr = a0.pwr ∧ (resState a0 (execDvfsSwitch a0)).boot = a0.boot ∧
      (resState a0 (execDvfsSwitch a0)).out = a0.out ∧ (resState a0 (execDvfsSwitch a0)).free = a0.free := by
  unfold execDvfsSwitch; (repeat' split) <;> simp
@[simp] theorem execEndProg_same (a0 : Nat) (a1 : Guard) (a2 : State) :
    (resState a2 (execEndProg a0 a1 a2)).pending = a2.pending ∧ (resState a2 (execEndProg a0 a1 a2)).clk = a2.clk ∧
      (resState a2 (execEndProg a0 a1 a2)).mem = a2.mem ∧ (resState a2 (execEndProg a0 a1 a2)).span = a2.span ∧
      (resState a2 (execEndProg a0 a1 a2)).host = a2.host ∧ (resState a2 (execEndProg a0 a1 a2)).boot = a2.boot ∧
      (resState a2 (execEndProg a0 a1 a2)).free = a2.free := by
  unfold execEndProg; refine ⟨by first | (simp; done) | (rw [resState_next]; apply State.instr_same_pending; intros; (first | (simp; done) | (dsimp only; (repeat' (split <;> try dsimp only)) <;> simp_all)); done) | ((repeat' split) <;> first | (simp; done) | (rw [resState_next]; apply State.instr_same_pending; intros; (first | (simp; done) | (dsimp only; (repeat' (split <;> try dsimp only)) <;> simp_all)); done)), by first | (simp; done) | (rw [resState_next]; apply State.instr_same_clk; intros; (first | (simp; done) | (dsimp only; (repeat' (split <;> try dsimp only)) <;> simp_all)); done) | ((repeat' split) <;> first | (simp; done) | (rw [resState_next]; apply State.instr_same_clk; intros; (first | (simp; done) | (dsimp only; (repeat' (split <;> try dsimp only)) <;> simp_all)); done)), by first | (simp; done) | (rw [resState_next]; apply State.instr_same_mem; intros; (first | (simp; done) | (dsimp only; (repeat' (split <;> try dsimp only)) <;> simp_all)); done) | ((repeat' split) <;> first | (simp; done) | (rw [resState_next]; apply State.instr_same_mem; intros; (first | (simp; done) | (dsimp only; (repeat' (split <;> try dsimp only)) <;> simp_all)); done)), by first | (simp; done) | (rw [resState_next]; apply State.instr_same_span; intros; (first | (simp; done) | (dsimp only; (repeat' (split <;> try dsimp only)) <;> simp_all)); done) | ((repeat' split) <;> first | (simp; done) | (rw [resState_next]; apply State.instr_same_span; intros; (first | (simp; done) | (dsimp only; (repeat' (split <;> try dsimp only)) <;> simp_all)); done)), by first | (simp; done) | (rw [resState_next]; apply State.instr_same_host; intros; (first | (simp; done) | (dsimp only; (repeat' (split <;> try dsimp only)) <;> simp_all)); done) | ((repeat' split) <;> first | (simp; done) | (rw [resState_next]; apply State.instr_same_host; intros; (first | (simp; done) | (dsimp only; (repeat' (split <;> try dsimp only)) <;> simp_all)); done)), by first | (simp; done) | (rw [resState_next]; apply State.instr_same_boot; intros; (first | (simp; done) | (dsimp only; (repeat' (split <;> try dsimp only)) <;> simp_all)); done) | ((repeat' split) <;> first | (simp; done) | (rw [resState_next]; apply State.instr_same_boot; intros; (first | (simp; done) | (dsimp only; (repeat' (split <;> try dsimp only)) <;> simp_all)); done)), by first | (simp; done) | (rw [resState_next]; apply State.instr_same_free; intros; (first | (simp; done) | (dsimp only; (repeat' (split <;> try dsimp only)) <;> simp_all)); done) | ((repeat' split) <;> first | (simp; done) | (rw [resState_next]; apply State.instr_same_free; intros; (first | (simp; done) | (dsimp only; (repeat' (split <;> try dsimp only)) <;> simp_all)); done))⟩
@[simp] theorem execEndpointFreeTestPass_same (a0 : Nat) (a1 : Nat) (a2 : State) :
    (resState a2 (execEndpointFreeTestPass a0 a1 a2)).pending = a2.pending ∧ (resState a2 (execEndpointFreeTestPass a0 a1 a2)).clk = a2.clk ∧
      (resState a2 (execEndpointFreeTestPass a0 a1 a2)).mem = a2.mem ∧ (resState a2 (execEndpointFreeTestPass a0 a1 a2)).host = a2.host ∧
      (resState a2 (execEndpointFreeTestPass a0 a1 a2)).boot = a2.boot ∧ (resState a2 (execEndpointFreeTestPass a0 a1 a2)).free = a2.free := by
  unfold execEndpointFreeTestPass; (repeat' split) <;> simp
@[simp] theorem execEntryFetch_same (a0 : Nat) (a1 : ReadAns) (a2 : State) :
    (resState a2 (execEntryFetch a0 a1 a2)).pending = a2.pending ∧ (resState a2 (execEntryFetch a0 a1 a2)).clk = a2.clk ∧
      (resState a2 (execEntryFetch a0 a1 a2)).cores = a2.cores ∧ (resState a2 (execEntryFetch a0 a1 a2)).net = a2.net ∧
      (resState a2 (execEntryFetch a0 a1 a2)).vats = a2.vats ∧ (resState a2 (execEntryFetch a0 a1 a2)).mem = a2.mem ∧
      (resState a2 (execEntryFetch a0 a1 a2)).span = a2.span ∧ (resState a2 (execEntryFetch a0 a1 a2)).boot = a2.boot ∧
      (resState a2 (execEntryFetch a0 a1 a2)).free = a2.free := by
  unfold execEntryFetch; (repeat' split) <;> simp
@[simp] theorem execEret_same (a0 : Nat) (a1 : Guard) (a2 : State) :
    (resState a2 (execEret a0 a1 a2)).pending = a2.pending ∧ (resState a2 (execEret a0 a1 a2)).clk = a2.clk ∧
      (resState a2 (execEret a0 a1 a2)).mem = a2.mem ∧ (resState a2 (execEret a0 a1 a2)).span = a2.span ∧
      (resState a2 (execEret a0 a1 a2)).host = a2.host ∧ (resState a2 (execEret a0 a1 a2)).boot = a2.boot ∧
      (resState a2 (execEret a0 a1 a2)).free = a2.free := by
  unfold execEret; refine ⟨by first | (simp; done) | (rw [resState_next]; apply State.instr_same_pending; intros; (first | (simp; done) | (dsimp only; (repeat' (split <;> try dsimp only)) <;> simp_all)); done) | ((repeat' split) <;> first | (simp; done) | (rw [resState_next]; apply State.instr_same_pending; intros; (first | (simp; done) | (dsimp only; (repeat' (split <;> try dsimp only)) <;> simp_all)); done)), by first | (simp; done) | (rw [resState_next]; apply State.instr_same_clk; intros; (first | (simp; done) | (dsimp only; (repeat' (split <;> try dsimp only)) <;> simp_all)); done) | ((repeat' split) <;> first | (simp; done) | (rw [resState_next]; apply State.instr_same_clk; intros; (first | (simp; done) | (dsimp only; (repeat' (split <;> try dsimp only)) <;> simp_all)); done)), by first | (simp; done) | (rw [resState_next]; apply State.instr_same_mem; intros; (first | (simp; done) | (dsimp only; (repeat' (split <;> try dsimp only)) <;> simp_all)); done) | ((repeat' split) <;> first | (simp; done) | (rw [resState_next]; apply State.instr_same_mem; intros; (first | (simp; done) | (dsimp only; (repeat' (split <;> try dsimp only)) <;> simp_all)); done)), by first | (simp; done) | (rw [resState_next]; apply State.instr_same_span; intros; (first | (simp; done) | (dsimp only; (repeat' (split <;> try dsimp only)) <;> simp_all)); done) | ((repeat' split) <;> first | (simp; done) | (rw [resState_next]; apply State.instr_same_span; intros; (first | (simp; done) | (dsimp only; (repeat' (split <;> try dsimp only)) <;> simp_all)); done)), by first | (simp; done) | (rw [resState_next]; apply State.instr_same_host; intros; (first | (simp; done) | (dsimp only; (repeat' (split <;> try dsimp only)) <;> simp_all)); done) | ((repeat' split) <;> first | (simp; done) | (rw [resState_next]; apply State.instr_same_host; intros; (first | (simp; done) | (dsimp only; (repeat' (split <;> try dsimp only)) <;> simp_all)); done)), by first | (simp; done) | (rw [resState_next]; apply State.instr_same_boot; intros; (first | (simp; done) | (dsimp only; (repeat' (split <;> try dsimp only)) <;> simp_all)); done) | ((repeat' split) <;> first | (simp; done) | (rw [resState_next]; apply State.instr_same_boot; intros; (first | (simp; done) | (dsimp only; (repeat' (split <;> try dsimp only)) <;> simp_all)); done)), by first | (simp; done) | (rw [resState_next]; apply State.instr_same_free; intros; (first | (simp; done) | (dsimp only; (repeat' (split <;> try dsimp only)) <;> simp_all)); done) | ((repeat' split) <;> first | (simp; done) | (rw [resState_next]; apply State.instr_same_free; intros; (first | (simp; done) | (dsimp only; (repeat' (split <;> try dsimp only)) <;> simp_all)); done))⟩
@[simp] theorem execErrlogTail_same (a0 : Who) (a1 : Nat) (a2 : State) :
    (resState a2 (execErrlogTail a0 a1 a2)).pending = a2.pending ∧ (resState a2 (execErrlogTail a0 a1 a2)).clk = a2.clk ∧
      (resState a2 (execErrlogTail a0 a1 a2)).cores = a2.cores ∧ (resState a2 (execErrlogTail a0 a1 a2)).net = a2.net ∧
      (resState a2 (execErrlogTail a0 a1 a2)).vats = a2.vats ∧ (resState a2 (execErrlogTail a0 a1 a2)).mem = a2.mem ∧
      (resState a2 (execErrlogTail a0 a1 a2)).span = a2.span ∧ (resState a2 (execErrlogTail a0 a1 a2)).host = a2.host ∧
      (resState a2 (execErrlogTail a0 a1 a2)).boot = a2.boot ∧ (resState a2 (execErrlogTail a0 a1 a2)).free = a2.free := by
  unfold execErrlogTail; (repeat' split) <;> simp
@[simp] theorem execErrorReport_same (a0 : Nat) (a1 : Nat) (a2 : Nat) (a3 : Option Nat) (a4 : Nat) (a5 : Nat) (a6 : State) :
    (resState a6 (execErrorReport a0 a1 a2 a3 a4 a5 a6)).pending = a6.pending ∧ (resState a6 (execErrorReport a0 a1 a2 a3 a4 a5 a6)).clk = a6.clk ∧
      (resState a6 (execErrorReport a0 a1 a2 a3 a4 a5 a6)).cores = a6.cores ∧ (resState a6 (execErrorReport a0 a1 a2 a3 a4 a5 a6)).net = a6.net ∧
      (resState a6 (execErrorReport a0 a1 a2 a3 a4 a5 a6)).vats = a6.vats ∧ (resState a6 (execErrorReport a0 a1 a2 a3 a4 a5 a6)).mem = a6.mem ∧
      (resState a6 (execErrorReport a0 a1 a2 a3 a4 a5 a6)).span = a6.span ∧ (resState a6 (execErrorReport a0 a1 a2 a3 a4 a5 a6)).host = a6.host ∧
      (resState a6 (execErrorReport a0 a1 a2 a3 a4 a5 a6)).boot = a6.boot ∧ (resState a6 (execErrorReport a0 a1 a2 a3 a4 a5 a6)).free = a6.free := by
  unfold execErrorReport; (repeat' split) <;> simp
@[simp] theorem execEvacuate_same (a0 : Nat) (a1 : Nat) (a2 : State) :
    (resState a2 (execEvacuate a0 a1 a2)).pending = a2.pending ∧ (resState a2 (execEvacuate a0 a1 a2)).clk = a2.clk ∧
      (resState a2 (execEvacuate a0 a1 a2)).boot = a2.boot ∧ (resState a2 (execEvacuate a0 a1 a2)).free = a2.free := by
  unfold execEvacuate; refine ⟨by first | (simp; done) | (rw [resState_next]; apply State.command_same_pending; intros; (first | (simp; done) | (dsimp only; (repeat' (split <;> try dsimp only)) <;> simp_all)); done) | ((repeat' split) <;> first | (simp; done) | (rw [resState_next]; apply State.command_same_pending; intros; (first | (simp; done) | (dsimp only; (repeat' (split <;> try dsimp only)) <;> simp_all)); done)), by first | (simp; done) | (rw [resState_next]; apply State.command_same_clk; intros; (first | (simp; done) | (dsimp only; (repeat' (split <;> try dsimp only)) <;> simp_all)); done) | ((repeat' split) <;> first | (simp; done) | (rw [resState_next]; apply State.command_same_clk; intros; (first | (simp; done) | (dsimp only; (repeat' (split <;> try dsimp only)) <;> simp_all)); done)), by first | (simp; done) | (rw [resState_next]; apply State.command_same_boot; intros; (first | (simp; done) | (dsimp only; (repeat' (split <;> try dsimp only)) <;> simp_all)); done) | ((repeat' split) <;> first | (simp; done) | (rw [resState_next]; apply State.command_same_boot; intros; (first | (simp; done) | (dsimp only; (repeat' (split <;> try dsimp only)) <;> simp_all)); done)), by first | (simp; done) | (rw [resState_next]; apply State.command_same_free; intros; (first | (simp; done) | (dsimp only; (repeat' (split <;> try dsimp only)) <;> simp_all)); done) | ((repeat' split) <;> first | (simp; done) | (rw [resState_next]; apply State.command_same_free; intros; (first | (simp; done) | (dsimp only; (repeat' (split <;> try dsimp only)) <;> simp_all)); done))⟩
@[simp] theorem execEvacuate_wf_mem_stack (a0 : Nat) (a1 : Nat) (a2 : State)  (hw : a2.mem.stack.wf = true) :
    (resState a2 (execEvacuate a0 a1 a2)).mem.stack.wf = true := by
  unfold execEvacuate; first | (simp (maxDischargeDepth := 30); done) | (rw [resState_next]; apply State.command_wf_mem_stack <;> (intros; (first | (simp (maxDischargeDepth := 30); done) | (simp_all (maxDischargeDepth := 30); done) | (dsimp only; (repeat' (split <;> try dsimp only)) <;> simp_all (maxDischargeDepth := 30); done) | ((repeat' split) <;> simp_all (maxDischargeDepth := 30); done))); done) | ((repeat' split) <;> first | (simp (maxDischargeDepth := 30); done) | (simp_all (maxDischargeDepth := 30); done) | (rw [resState_next]; apply State.command_wf_mem_stack <;> (intros; (first | (simp (maxDischargeDepth := 30); done) | (simp_all (maxDischargeDepth := 30); done) | (dsimp only; (repeat' (split <;> try dsimp only)) <;> simp_all (maxDischargeDepth := 30); done) | ((repeat' split) <;> simp_all (maxDischargeDepth := 30); done))); done))
@[simp] theorem execEvacuationComplete_same (a0 : Nat) (a1 : State) :
    (resState a1 (execEvacuationComplete a0 a1)).pending = a1.pending ∧ (resState a1 (execEvacuationComplete a0 a1)).clk = a1.clk ∧
      (resState a1 (execEvacuationComplete a0 a1)).boot = a1.boot ∧ (resState a1 (execEvacuationComplete a0 a1)).free = a1.free := by
  unfold execEvacuationComplete; dsimp only; (repeat' (split <;> try dsimp only)) <;> simp_all
@[simp] theorem execEvacuationComplete_wf_mem_stack (a0 : Nat) (a1 : State)  (hw : a1.mem.stack.wf = true) :
    (resState a1 (execEvacuationComplete a0 a1)).mem.stack.wf = true := by
  unfold execEvacuationComplete; dsimp only; (repeat' (split <;> try dsimp only)) <;> simp_all (maxDischargeDepth := 30)
@[simp] theorem execEvacuationFailure_same (a0 : Nat) (a1 : Nat) (a2 : State) :
    (resState a2 (execEvacuationFailure a0 a1 a2)).pending = a2.pending ∧ (resState a2 (execEvacuationFailure a0 a1 a2)).clk = a2.clk ∧
      (resState a2 (execEvacuationFailure a0 a1 a2)).cores = a2.cores ∧ (resState a2 (execEvacuationFailure a0 a1 a2)).net = a2.net ∧
      (resState a2 (execEvacuationFailure a0 a1 a2)).span = a2.span ∧ (resState a2 (execEvacuationFailure a0 a1 a2)).boot = a2.boot := by
  unfold execEvacuationFailure; (repeat' split) <;> simp
@[simp] theorem execEvacuationFailure_kept (a0 : Nat) (a1 : Nat) (a2 : State) :
    (resState a2 (execEvacuationFailure a0 a1 a2)).mem.stack = a2.mem.stack := by
  unfold execEvacuationFailure; (repeat' split) <;> simp
@[simp] theorem execExportWindowClose_same (a0 : Nat) (a1 : Nat) (a2 : State) :
    (resState a2 (execExportWindowClose a0 a1 a2)).pending = a2.pending ∧ (resState a2 (execExportWindowClose a0 a1 a2)).clk = a2.clk ∧
      (resState a2 (execExportWindowClose a0 a1 a2)).cores = a2.cores ∧ (resState a2 (execExportWindowClose a0 a1 a2)).net = a2.net ∧
      (resState a2 (execExportWindowClose a0 a1 a2)).vats = a2.vats ∧ (resState a2 (execExportWindowClose a0 a1 a2)).mem = a2.mem ∧
      (resState a2 (execExportWindowClose a0 a1 a2)).hub = a2.hub ∧ (resState a2 (execExportWindowClose a0 a1 a2)).host = a2.host ∧
      (resState a2 (execExportWindowClose a0 a1 a2)).pwr = a2.pwr ∧ (resState a2 (execExportWindowClose a0 a1 a2)).boot = a2.boot ∧
      (resState a2 (execExportWindowClose a0 a1 a2)).out = a2.out ∧ (resState a2 (execExportWindowClose a0 a1 a2)).free = a2.free := by
  unfold execExportWindowClose; (repeat' split) <;> simp
@[simp] theorem execExtest_same (a0 : State) :
    (resState a0 (execExtest a0)).pending = a0.pending ∧ (resState a0 (execExtest a0)).clk = a0.clk ∧
      (resState a0 (execExtest a0)).cores = a0.cores ∧ (resState a0 (execExtest a0)).net = a0.net ∧ (resState a0 (execExtest a0)).vats = a0.vats ∧
      (resState a0 (execExtest a0)).mem = a0.mem ∧ (resState a0 (execExtest a0)).free = a0.free := by
  unfold execExtest; (repeat' split) <;> simp
@[simp] theorem execExtest_kept (a0 : State) :
    (resState a0 (execExtest a0)).boot.flash = a0.boot.flash ∧ (resState a0 (execExtest a0)).boot.flashBuf = a0.boot.flashBuf := by
  unfold execExtest; (repeat' split) <;> simp
@[simp] theorem execFenceNotice_same (a0 : Nat) (a1 : Option Nat) (a2 : State) :
    (resState a2 (execFenceNotice a0 a1 a2)).pending = a2.pending ∧ (resState a2 (execFenceNotice a0 a1 a2)).clk = a2.clk ∧
      (resState a2 (execFenceNotice a0 a1 a2)).cores = a2.cores ∧ (resState a2 (execFenceNotice a0 a1 a2)).vats = a2.vats ∧
      (resState a2 (execFenceNotice a0 a1 a2)).mem = a2.mem ∧ (resState a2 (execFenceNotice a0 a1 a2)).hub = a2.hub ∧
      (resState a2 (execFenceNotice a0 a1 a2)).span = a2.span ∧ (resState a2 (execFenceNotice a0 a1 a2)).host = a2.host ∧
      (resState a2 (execFenceNotice a0 a1 a2)).pwr = a2.pwr ∧ (resState a2 (execFenceNotice a0 a1 a2)).boot = a2.boot ∧
      (resState a2 (execFenceNotice a0 a1 a2)).out = a2.out ∧ (resState a2 (execFenceNotice a0 a1 a2)).free = a2.free := by
  unfold execFenceNotice; (repeat' split) <;> simp
@[simp] theorem execFirmwareUpdate_same (a0 : Bool) (a1 : List Byte) (a2 : Bool) (a3 : State) :
    (resState a3 (execFirmwareUpdate a0 a1 a2 a3)).pending = a3.pending ∧ (resState a3 (execFirmwareUpdate a0 a1 a2 a3)).clk = a3.clk ∧
      (resState a3 (execFirmwareUpdate a0 a1 a2 a3)).cores = a3.cores ∧ (resState a3 (execFirmwareUpdate a0 a1 a2 a3)).net = a3.net ∧
      (resState a3 (execFirmwareUpdate a0 a1 a2 a3)).vats = a3.vats ∧ (resState a3 (execFirmwareUpdate a0 a1 a2 a3)).mem = a3.mem ∧
      (resState a3 (execFirmwareUpdate a0 a1 a2 a3)).hub = a3.hub ∧ (resState a3 (execFirmwareUpdate a0 a1 a2 a3)).span = a3.span ∧
      (resState a3 (execFirmwareUpdate a0 a1 a2 a3)).host = a3.host ∧ (resState a3 (execFirmwareUpdate a0 a1 a2 a3)).pwr = a3.pwr ∧
      (resState a3 (execFirmwareUpdate a0 a1 a2 a3)).free = a3.free := by
  unfold execFirmwareUpdate; (repeat' split) <;> simp
@[simp] theorem execFirmwareUpdate_kept (a0 : Bool) (a1 : List Byte) (a2 : Bool) (a3 : State) :
    (resState a3 (execFirmwareUpdate a0 a1 a2 a3)).boot.flashBuf = a3.boot.flashBuf := by
  unfold execFirmwareUpdate; (try dsimp only); rw [resState_next]; split
  · rfl
  · split
    · simp only [State.send_same]
    · simp only [State.send_same, State.flashWrite_kept, State.modBoot_boot]
@[simp] theorem execFirmwareUpdate_wf_boot_flash (a0 : Bool) (a1 : List Byte) (a2 : Bool) (a3 : State)  (hw : a3.boot.flash.wf = true) :
    (resState a3 (execFirmwareUpdate a0 a1 a2 a3)).boot.flash.wf = true := by
  unfold execFirmwareUpdate; (try dsimp only); rw [resState_next]; split
  · exact hw
  · split
    · simp only [State.send_same, hw]
    · simp only [State.send_same]; exact State.flashWrite_wf_boot_flash _ _ _ (Memory.clear_wf _ _ _ hw)
@[simp] theorem execFlashCommandComplete_same (a0 : Bool) (a1 : State) :
    (resState a1 (execFlashCommandComplete a0 a1)).pending = a1.pending ∧ (resState a1 (execFlashCommandComplete a0 a1)).clk = a1.clk ∧
      (resState a1 (execFlashCommandComplete a0 a1)).cores = a1.cores ∧ (resState a1 (execFlashCommandComplete a0 a1)).net = a1.net ∧
      (resState a1 (execFlashCommandComplete a0 a1)).vats = a1.vats ∧ (resState a1 (execFlashCommandComplete a0 a1)).mem = a1.mem ∧
      (resState a1 (execFlashCommandComplete a0 a1)).hub = a1.hub ∧ (resState a1 (execFlashCommandComplete a0 a1)).span = a1.span ∧
      (resState a1 (execFlashCommandComplete a0 a1)).host = a1.host ∧ (resState a1 (execFlashCommandComplete a0 a1)).pwr = a1.pwr ∧
      (resState a1 (execFlashCommandComplete a0 a1)).out = a1.out := by
  unfold execFlashCommandComplete; (repeat' split) <;> simp
@[simp] theorem execFlashCommandComplete_wf_boot_flash (a0 : Bool) (a1 : State)  (hw : a1.boot.flash.wf = true) :
    (resState a1 (execFlashCommandComplete a0 a1)).boot.flash.wf = true := by
  unfold execFlashCommandComplete; rw [resState_next]; split
  · exact hw
  · split
    · simp only [State.modBoot_boot, hw]
    · split
      · simp only [State.modBoot_boot, hw]
      · split
        · apply State.flashWrite_wf_boot_flash; simp only [State.modBoot_boot, hw]
        · simp only [State.modBoot_boot]; exact Memory.clear_wf _ _ _ hw
@[simp] theorem execFlashCommandComplete_wf_boot_flashBuf (a0 : Bool) (a1 : State)  (hw : a1.boot.flashBuf.wf = true) :
    (resState a1 (execFlashCommandComplete a0 a1)).boot.flashBuf.wf = true := by
  unfold execFlashCommandComplete; rw [resState_next]; split
  · exact hw
  · split
    · dsimp only; apply Memory.writeBytes_wf; rfl
    · split
      · simp only [State.modBoot_boot]; apply Memory.writeBytes_wf; rfl
      · split
        · simp only [State.flashWrite_kept, State.modBoot_boot, hw]
        · simp only [State.modBoot_boot, hw]
@[simp] theorem execFlashErase_same (a0 : Who) (a1 : Bool) (a2 : State) :
    (resState a2 (execFlashErase a0 a1 a2)).pending = a2.pending ∧ (resState a2 (execFlashErase a0 a1 a2)).clk = a2.clk ∧
      (resState a2 (execFlashErase a0 a1 a2)).cores = a2.cores ∧ (resState a2 (execFlashErase a0 a1 a2)).net = a2.net ∧
      (resState a2 (execFlashErase a0 a1 a2)).vats = a2.vats ∧ (resState a2 (execFlashErase a0 a1 a2)).mem = a2.mem ∧
      (resState a2 (execFlashErase a0 a1 a2)).span = a2.span ∧ (resState a2 (execFlashErase a0 a1 a2)).host = a2.host ∧
      (resState a2 (execFlashErase a0 a1 a2)).free = a2.free := by
  unfold execFlashErase; (repeat' split) <;> simp
@[simp] theorem execFlashErase_kept (a0 : Who) (a1 : Bool) (a2 : State) :
    (resState a2 (execFlashErase a0 a1 a2)).boot.flash = a2.boot.flash ∧ (resState a2 (execFlashErase a0 a1 a2)).boot.flashBuf = a2.boot.flashBuf := by
  unfold execFlashErase; (repeat' split) <;> simp
@[simp] theorem execFlashProgram_same (a0 : Who) (a1 : Bool) (a2 : State) :
    (resState a2 (execFlashProgram a0 a1 a2)).pending = a2.pending ∧ (resState a2 (execFlashProgram a0 a1 a2)).clk = a2.clk ∧
      (resState a2 (execFlashProgram a0 a1 a2)).cores = a2.cores ∧ (resState a2 (execFlashProgram a0 a1 a2)).net = a2.net ∧
      (resState a2 (execFlashProgram a0 a1 a2)).vats = a2.vats ∧ (resState a2 (execFlashProgram a0 a1 a2)).mem = a2.mem ∧
      (resState a2 (execFlashProgram a0 a1 a2)).span = a2.span ∧ (resState a2 (execFlashProgram a0 a1 a2)).host = a2.host ∧
      (resState a2 (execFlashProgram a0 a1 a2)).free = a2.free := by
  unfold execFlashProgram; (repeat' split) <;> simp
@[simp] theorem execFlashProgram_kept (a0 : Who) (a1 : Bool) (a2 : State) :
    (resState a2 (execFlashProgram a0 a1 a2)).boot.flash = a2.boot.flash ∧
      (resState a2 (execFlashProgram a0 a1 a2)).boot.flashBuf = a2.boot.flashBuf := by
  unfold execFlashProgram; (repeat' split) <;> simp
@[simp] theorem execFlashRead_same (a0 : Who) (a1 : State) :
    (resState a1 (execFlashRead a0 a1)).pending = a1.pending ∧ (resState a1 (execFlashRead a0 a1)).clk = a1.clk ∧
      (resState a1 (execFlashRead a0 a1)).cores = a1.cores ∧ (resState a1 (execFlashRead a0 a1)).net = a1.net ∧
      (resState a1 (execFlashRead a0 a1)).vats = a1.vats ∧ (resState a1 (execFlashRead a0 a1)).mem = a1.mem ∧
      (resState a1 (execFlashRead a0 a1)).span = a1.span ∧ (resState a1 (execFlashRead a0 a1)).host = a1.host ∧
      (resState a1 (execFlashRead a0 a1)).free = a1.free := by
  unfold execFlashRead; (repeat' split) <;> simp
@[simp] theorem execFlashRead_kept (a0 : Who) (a1 : State) :
    (resState a1 (execFlashRead a0 a1)).boot.flash = a1.boot.flash ∧ (resState a1 (execFlashRead a0 a1)).boot.flashBuf = a1.boot.flashBuf := by
  unfold execFlashRead; (repeat' split) <;> simp
@[simp] theorem execForcedStop_same (a0 : Nat) (a1 : State) :
    (resState a1 (execForcedStop a0 a1)).pending = a1.pending ∧ (resState a1 (execForcedStop a0 a1)).clk = a1.clk ∧
      (resState a1 (execForcedStop a0 a1)).net = a1.net ∧ (resState a1 (execForcedStop a0 a1)).span = a1.span ∧
      (resState a1 (execForcedStop a0 a1)).boot = a1.boot ∧ (resState a1 (execForcedStop a0 a1)).free = a1.free := by
  unfold execForcedStop; (repeat' split) <;> simp
@[simp] theorem execForcedStop_kept (a0 : Nat) (a1 : State) :
    (resState a1 (execForcedStop a0 a1)).mem.stack = a1.mem.stack := by
  unfold execForcedStop; (repeat' split) <;> simp
@[simp] theorem execFrameJoinTimeout_same (a0 : Nat) (a1 : State) :
    (resState a1 (execFrameJoinTimeout a0 a1)).pending = a1.pending ∧ (resState a1 (execFrameJoinTimeout a0 a1)).clk = a1.clk ∧
      (resState a1 (execFrameJoinTimeout a0 a1)).cores = a1.cores ∧ (resState a1 (execFrameJoinTimeout a0 a1)).net = a1.net ∧
      (resState a1 (execFrameJoinTimeout a0 a1)).vats = a1.vats ∧ (resState a1 (execFrameJoinTimeout a0 a1)).mem = a1.mem ∧
      (resState a1 (execFrameJoinTimeout a0 a1)).hub = a1.hub ∧ (resState a1 (execFrameJoinTimeout a0 a1)).host = a1.host ∧
      (resState a1 (execFrameJoinTimeout a0 a1)).pwr = a1.pwr ∧ (resState a1 (execFrameJoinTimeout a0 a1)).boot = a1.boot ∧
      (resState a1 (execFrameJoinTimeout a0 a1)).out = a1.out ∧ (resState a1 (execFrameJoinTimeout a0 a1)).free = a1.free := by
  unfold execFrameJoinTimeout; (repeat' split) <;> simp
@[simp] theorem execFunctionLevelReset_same (a0 : Nat) (a1 : State) :
    (resState a1 (execFunctionLevelReset a0 a1)).pending = a1.pending ∧ (resState a1 (execFunctionLevelReset a0 a1)).clk = a1.clk ∧
      (resState a1 (execFunctionLevelReset a0 a1)).cores = a1.cores ∧ (resState a1 (execFunctionLevelReset a0 a1)).net = a1.net ∧
      (resState a1 (execFunctionLevelReset a0 a1)).vats = a1.vats ∧ (resState a1 (execFunctionLevelReset a0 a1)).mem = a1.mem ∧
      (resState a1 (execFunctionLevelReset a0 a1)).hub = a1.hub ∧ (resState a1 (execFunctionLevelReset a0 a1)).span = a1.span ∧
      (resState a1 (execFunctionLevelReset a0 a1)).pwr = a1.pwr ∧ (resState a1 (execFunctionLevelReset a0 a1)).boot = a1.boot ∧
      (resState a1 (execFunctionLevelReset a0 a1)).out = a1.out ∧ (resState a1 (execFunctionLevelReset a0 a1)).free = a1.free := by
  unfold execFunctionLevelReset; (repeat' split) <;> simp
@[simp] theorem execFuseProg_same (a0 : Who) (a1 : Nat) (a2 : Nat) (a3 : Nat) (a4 : State) :
    (resState a4 (execFuseProg a0 a1 a2 a3 a4)).pending = a4.pending ∧ (resState a4 (execFuseProg a0 a1 a2 a3 a4)).clk = a4.clk ∧
      (resState a4 (execFuseProg a0 a1 a2 a3 a4)).cores = a4.cores ∧ (resState a4 (execFuseProg a0 a1 a2 a3 a4)).net = a4.net ∧
      (resState a4 (execFuseProg a0 a1 a2 a3 a4)).vats = a4.vats ∧ (resState a4 (execFuseProg a0 a1 a2 a3 a4)).mem = a4.mem ∧
      (resState a4 (execFuseProg a0 a1 a2 a3 a4)).span = a4.span ∧ (resState a4 (execFuseProg a0 a1 a2 a3 a4)).host = a4.host ∧
      (resState a4 (execFuseProg a0 a1 a2 a3 a4)).free = a4.free := by
  unfold execFuseProg; (repeat' split) <;> simp
@[simp] theorem execFuseProg_kept (a0 : Who) (a1 : Nat) (a2 : Nat) (a3 : Nat) (a4 : State) :
    (resState a4 (execFuseProg a0 a1 a2 a3 a4)).boot.flash = a4.boot.flash ∧
      (resState a4 (execFuseProg a0 a1 a2 a3 a4)).boot.flashBuf = a4.boot.flashBuf := by
  unfold execFuseProg; (repeat' split) <;> simp
@[simp] theorem execFuseProgramComplete_same (a0 : State) :
    (resState a0 (execFuseProgramComplete a0)).pending = a0.pending ∧ (resState a0 (execFuseProgramComplete a0)).clk = a0.clk ∧
      (resState a0 (execFuseProgramComplete a0)).cores = a0.cores ∧ (resState a0 (execFuseProgramComplete a0)).net = a0.net ∧
      (resState a0 (execFuseProgramComplete a0)).vats = a0.vats ∧ (resState a0 (execFuseProgramComplete a0)).mem = a0.mem ∧
      (resState a0 (execFuseProgramComplete a0)).hub = a0.hub ∧ (resState a0 (execFuseProgramComplete a0)).span = a0.span ∧
      (resState a0 (execFuseProgramComplete a0)).host = a0.host ∧ (resState a0 (execFuseProgramComplete a0)).pwr = a0.pwr ∧
      (resState a0 (execFuseProgramComplete a0)).out = a0.out ∧ (resState a0 (execFuseProgramComplete a0)).free = a0.free := by
  unfold execFuseProgramComplete; (repeat' split) <;> simp
@[simp] theorem execFuseProgramComplete_kept (a0 : State) :
    (resState a0 (execFuseProgramComplete a0)).boot.flash = a0.boot.flash ∧
      (resState a0 (execFuseProgramComplete a0)).boot.flashBuf = a0.boot.flashBuf := by
  unfold execFuseProgramComplete; (repeat' split) <;> simp
@[simp] theorem execGather_same (a0 : Nat) (a1 : State) :
    (resState a1 (execGather a0 a1)).pending = a1.pending ∧ (resState a1 (execGather a0 a1)).clk = a1.clk ∧
      (resState a1 (execGather a0 a1)).net = a1.net ∧ (resState a1 (execGather a0 a1)).host = a1.host ∧
      (resState a1 (execGather a0 a1)).boot = a1.boot ∧ (resState a1 (execGather a0 a1)).free = a1.free := by
  unfold execGather; refine ⟨by first | (simp; done) | (rw [resState_next]; apply State.stkOp_same_pending; intros; (first | (simp; done) | (dsimp only; (repeat' (split <;> try dsimp only)) <;> simp_all)); done) | ((repeat' split) <;> first | (simp; done) | (rw [resState_next]; apply State.stkOp_same_pending; intros; (first | (simp; done) | (dsimp only; (repeat' (split <;> try dsimp only)) <;> simp_all)); done)), by first | (simp; done) | (rw [resState_next]; apply State.stkOp_same_clk; intros; (first | (simp; done) | (dsimp only; (repeat' (split <;> try dsimp only)) <;> simp_all)); done) | ((repeat' split) <;> first | (simp; done) | (rw [resState_next]; apply State.stkOp_same_clk; intros; (first | (simp; done) | (dsimp only; (repeat' (split <;> try dsimp only)) <;> simp_all)); done)), by first | (simp; done) | (rw [resState_next]; apply State.stkOp_same_net; intros; (first | (simp; done) | (dsimp only; (repeat' (split <;> try dsimp only)) <;> simp_all)); done) | ((repeat' split) <;> first | (simp; done) | (rw [resState_next]; apply State.stkOp_same_net; intros; (first | (simp; done) | (dsimp only; (repeat' (split <;> try dsimp only)) <;> simp_all)); done)), by first | (simp; done) | (rw [resState_next]; apply State.stkOp_same_host; intros; (first | (simp; done) | (dsimp only; (repeat' (split <;> try dsimp only)) <;> simp_all)); done) | ((repeat' split) <;> first | (simp; done) | (rw [resState_next]; apply State.stkOp_same_host; intros; (first | (simp; done) | (dsimp only; (repeat' (split <;> try dsimp only)) <;> simp_all)); done)), by first | (simp; done) | (rw [resState_next]; apply State.stkOp_same_boot; intros; (first | (simp; done) | (dsimp only; (repeat' (split <;> try dsimp only)) <;> simp_all)); done) | ((repeat' split) <;> first | (simp; done) | (rw [resState_next]; apply State.stkOp_same_boot; intros; (first | (simp; done) | (dsimp only; (repeat' (split <;> try dsimp only)) <;> simp_all)); done)), by first | (simp; done) | (rw [resState_next]; apply State.stkOp_same_free; intros; (first | (simp; done) | (dsimp only; (repeat' (split <;> try dsimp only)) <;> simp_all)); done) | ((repeat' split) <;> first | (simp; done) | (rw [resState_next]; apply State.stkOp_same_free; intros; (first | (simp; done) | (dsimp only; (repeat' (split <;> try dsimp only)) <;> simp_all)); done))⟩
@[simp] theorem execGather_wf_mem_stack (a0 : Nat) (a1 : State)  (hw : a1.mem.stack.wf = true) :
    (resState a1 (execGather a0 a1)).mem.stack.wf = true := by
  unfold execGather; first | (simp (maxDischargeDepth := 30); done) | (rw [resState_next]; apply State.stkOp_wf_mem_stack <;> (intros; (first | (simp (maxDischargeDepth := 30); done) | (simp_all (maxDischargeDepth := 30); done) | (dsimp only; (repeat' (split <;> try dsimp only)) <;> simp_all (maxDischargeDepth := 30); done) | ((repeat' split) <;> simp_all (maxDischargeDepth := 30); done))); done) | ((repeat' split) <;> first | (simp (maxDischargeDepth := 30); done) | (simp_all (maxDischargeDepth := 30); done) | (rw [resState_next]; apply State.stkOp_wf_mem_stack <;> (intros; (first | (simp (maxDischargeDepth := 30); done) | (simp_all (maxDischargeDepth := 30); done) | (dsimp only; (repeat' (split <;> try dsimp only)) <;> simp_all (maxDischargeDepth := 30); done) | ((repeat' split) <;> simp_all (maxDischargeDepth := 30); done))); done))
@[simp] theorem execGetAcct_same (a0 : Bool) (a1 : Nat) (a2 : State) :
    (resState a2 (execGetAcct a0 a1 a2)).pending = a2.pending ∧ (resState a2 (execGetAcct a0 a1 a2)).clk = a2.clk ∧
      (resState a2 (execGetAcct a0 a1 a2)).cores = a2.cores ∧ (resState a2 (execGetAcct a0 a1 a2)).net = a2.net ∧
      (resState a2 (execGetAcct a0 a1 a2)).vats = a2.vats ∧ (resState a2 (execGetAcct a0 a1 a2)).mem = a2.mem ∧
      (resState a2 (execGetAcct a0 a1 a2)).hub = a2.hub ∧ (resState a2 (execGetAcct a0 a1 a2)).span = a2.span ∧
      (resState a2 (execGetAcct a0 a1 a2)).host = a2.host ∧ (resState a2 (execGetAcct a0 a1 a2)).pwr = a2.pwr ∧
      (resState a2 (execGetAcct a0 a1 a2)).boot = a2.boot ∧ (resState a2 (execGetAcct a0 a1 a2)).free = a2.free := by
  unfold execGetAcct; (repeat' split) <;> simp
@[simp] theorem execGetLc_same (a0 : Bool) (a1 : State) :
    (resState a1 (execGetLc a0 a1)).pending = a1.pending ∧ (resState a1 (execGetLc a0 a1)).clk = a1.clk ∧
      (resState a1 (execGetLc a0 a1)).cores = a1.cores ∧ (resState a1 (execGetLc a0 a1)).net = a1.net ∧
      (resState a1 (execGetLc a0 a1)).vats = a1.vats ∧ (resState a1 (execGetLc a0 a1)).mem = a1.mem ∧
      (resState a1 (execGetLc a0 a1)).hub = a1.hub ∧ (resState a1 (execGetLc a0 a1)).span = a1.span ∧
      (resState a1 (execGetLc a0 a1)).host = a1.host ∧ (resState a1 (execGetLc a0 a1)).pwr = a1.pwr ∧
      (resState a1 (execGetLc a0 a1)).boot = a1.boot ∧ (resState a1 (execGetLc a0 a1)).free = a1.free := by
  unfold execGetLc; (repeat' split) <;> simp
@[simp] theorem execGetLog_same (a0 : Bool) (a1 : State) :
    (resState a1 (execGetLog a0 a1)).pending = a1.pending ∧ (resState a1 (execGetLog a0 a1)).clk = a1.clk ∧
      (resState a1 (execGetLog a0 a1)).cores = a1.cores ∧ (resState a1 (execGetLog a0 a1)).net = a1.net ∧
      (resState a1 (execGetLog a0 a1)).vats = a1.vats ∧ (resState a1 (execGetLog a0 a1)).mem = a1.mem ∧
      (resState a1 (execGetLog a0 a1)).span = a1.span ∧ (resState a1 (execGetLog a0 a1)).host = a1.host ∧
      (resState a1 (execGetLog a0 a1)).boot = a1.boot ∧ (resState a1 (execGetLog a0 a1)).free = a1.free := by
  unfold execGetLog; (repeat' split) <;> simp
@[simp] theorem execGrow_same (a0 : Nat) (a1 : Nat) (a2 : Nat) (a3 : State) :
    (resState a3 (execGrow a0 a1 a2 a3)).pending = a3.pending ∧ (resState a3 (execGrow a0 a1 a2 a3)).clk = a3.clk ∧
      (resState a3 (execGrow a0 a1 a2 a3)).cores = a3.cores ∧ (resState a3 (execGrow a0 a1 a2 a3)).net = a3.net ∧
      (resState a3 (execGrow a0 a1 a2 a3)).mem = a3.mem ∧ (resState a3 (execGrow a0 a1 a2 a3)).span = a3.span ∧
      (resState a3 (execGrow a0 a1 a2 a3)).boot = a3.boot ∧ (resState a3 (execGrow a0 a1 a2 a3)).free = a3.free := by
  unfold execGrow; (repeat' split) <;> simp
@[simp] theorem execGtcAlarm_same (a0 : State) :
    (resState a0 (execGtcAlarm a0)).pending = a0.pending ∧ (resState a0 (execGtcAlarm a0)).clk = a0.clk ∧
      (resState a0 (execGtcAlarm a0)).cores = a0.cores ∧ (resState a0 (execGtcAlarm a0)).net = a0.net ∧
      (resState a0 (execGtcAlarm a0)).vats = a0.vats ∧ (resState a0 (execGtcAlarm a0)).mem = a0.mem ∧
      (resState a0 (execGtcAlarm a0)).span = a0.span ∧ (resState a0 (execGtcAlarm a0)).host = a0.host ∧
      (resState a0 (execGtcAlarm a0)).boot = a0.boot ∧ (resState a0 (execGtcAlarm a0)).free = a0.free := by
  unfold execGtcAlarm; (repeat' split) <;> simp
@[simp] theorem execHalt_same (a0 : Nat) (a1 : Guard) (a2 : State) :
    (resState a2 (execHalt a0 a1 a2)).pending = a2.pending ∧ (resState a2 (execHalt a0 a1 a2)).clk = a2.clk ∧
      (resState a2 (execHalt a0 a1 a2)).mem = a2.mem ∧ (resState a2 (execHalt a0 a1 a2)).span = a2.span ∧
      (resState a2 (execHalt a0 a1 a2)).host = a2.host ∧ (resState a2 (execHalt a0 a1 a2)).boot = a2.boot ∧
      (resState a2 (execHalt a0 a1 a2)).free = a2.free := by
  unfold execHalt; refine ⟨by first | (simp; done) | (rw [resState_next]; apply State.instr_same_pending; intros; (first | (simp; done) | (dsimp only; (repeat' (split <;> try dsimp only)) <;> simp_all)); done) | ((repeat' split) <;> first | (simp; done) | (rw [resState_next]; apply State.instr_same_pending; intros; (first | (simp; done) | (dsimp only; (repeat' (split <;> try dsimp only)) <;> simp_all)); done)), by first | (simp; done) | (rw [resState_next]; apply State.instr_same_clk; intros; (first | (simp; done) | (dsimp only; (repeat' (split <;> try dsimp only)) <;> simp_all)); done) | ((repeat' split) <;> first | (simp; done) | (rw [resState_next]; apply State.instr_same_clk; intros; (first | (simp; done) | (dsimp only; (repeat' (split <;> try dsimp only)) <;> simp_all)); done)), by first | (simp; done) | (rw [resState_next]; apply State.instr_same_mem; intros; (first | (simp; done) | (dsimp only; (repeat' (split <;> try dsimp only)) <;> simp_all)); done) | ((repeat' split) <;> first | (simp; done) | (rw [resState_next]; apply State.instr_same_mem; intros; (first | (simp; done) | (dsimp only; (repeat' (split <;> try dsimp only)) <;> simp_all)); done)), by first | (simp; done) | (rw [resState_next]; apply State.instr_same_span; intros; (first | (simp; done) | (dsimp only; (repeat' (split <;> try dsimp only)) <;> simp_all)); done) | ((repeat' split) <;> first | (simp; done) | (rw [resState_next]; apply State.instr_same_span; intros; (first | (simp; done) | (dsimp only; (repeat' (split <;> try dsimp only)) <;> simp_all)); done)), by first | (simp; done) | (rw [resState_next]; apply State.instr_same_host; intros; (first | (simp; done) | (dsimp only; (repeat' (split <;> try dsimp only)) <;> simp_all)); done) | ((repeat' split) <;> first | (simp; done) | (rw [resState_next]; apply State.instr_same_host; intros; (first | (simp; done) | (dsimp only; (repeat' (split <;> try dsimp only)) <;> simp_all)); done)), by first | (simp; done) | (rw [resState_next]; apply State.instr_same_boot; intros; (first | (simp; done) | (dsimp only; (repeat' (split <;> try dsimp only)) <;> simp_all)); done) | ((repeat' split) <;> first | (simp; done) | (rw [resState_next]; apply State.instr_same_boot; intros; (first | (simp; done) | (dsimp only; (repeat' (split <;> try dsimp only)) <;> simp_all)); done)), by first | (simp; done) | (rw [resState_next]; apply State.instr_same_free; intros; (first | (simp; done) | (dsimp only; (repeat' (split <;> try dsimp only)) <;> simp_all)); done) | ((repeat' split) <;> first | (simp; done) | (rw [resState_next]; apply State.instr_same_free; intros; (first | (simp; done) | (dsimp only; (repeat' (split <;> try dsimp only)) <;> simp_all)); done))⟩
@[simp] theorem execHandover_same (a0 : State) :
    (resState a0 (execHandover a0)).pending = a0.pending ∧ (resState a0 (execHandover a0)).clk = a0.clk ∧
      (resState a0 (execHandover a0)).cores = a0.cores ∧ (resState a0 (execHandover a0)).net = a0.net ∧
      (resState a0 (execHandover a0)).boot = a0.boot ∧ (resState a0 (execHandover a0)).free = a0.free := by
  unfold execHandover; (repeat' split) <;> simp
@[simp] theorem execHandover_kept (a0 : State) :
    (resState a0 (execHandover a0)).mem.stack = a0.mem.stack := by
  unfold execHandover; (repeat' split) <;> simp
@[simp] theorem execHeartbeatLoss_same (a0 : State) :
    (resState a0 (execHeartbeatLoss a0)).pending = a0.pending ∧ (resState a0 (execHeartbeatLoss a0)).clk = a0.clk ∧
      (resState a0 (execHeartbeatLoss a0)).cores = a0.cores ∧ (resState a0 (execHeartbeatLoss a0)).net = a0.net ∧
      (resState a0 (execHeartbeatLoss a0)).vats = a0.vats ∧ (resState a0 (execHeartbeatLoss a0)).mem = a0.mem ∧
      (resState a0 (execHeartbeatLoss a0)).host = a0.host ∧ (resState a0 (execHeartbeatLoss a0)).boot = a0.boot ∧
      (resState a0 (execHeartbeatLoss a0)).free = a0.free := by
  unfold execHeartbeatLoss; (repeat' split) <;> simp
@[simp] theorem execHello_same (a0 : Nat) (a1 : State) :
    (resState a1 (execHello a0 a1)).pending = a1.pending ∧ (resState a1 (execHello a0 a1)).clk = a1.clk ∧
      (resState a1 (execHello a0 a1)).cores = a1.cores ∧ (resState a1 (execHello a0 a1)).net = a1.net ∧
      (resState a1 (execHello a0 a1)).vats = a1.vats ∧ (resState a1 (execHello a0 a1)).mem = a1.mem ∧
      (resState a1 (execHello a0 a1)).boot = a1.boot ∧ (resState a1 (execHello a0 a1)).free = a1.free := by
  unfold execHello; dsimp only; split <;> first | (rename_i hq; have hq' := State.takeFrame_same hq; (repeat' (split <;> try dsimp only)) <;> simp_all; done) | (simp; done)
@[simp] theorem execHelloTimeout_same (a0 : Nat) (a1 : State) :
    (resState a1 (execHelloTimeout a0 a1)).pending = a1.pending ∧ (resState a1 (execHelloTimeout a0 a1)).clk = a1.clk ∧
      (resState a1 (execHelloTimeout a0 a1)).cores = a1.cores ∧ (resState a1 (execHelloTimeout a0 a1)).net = a1.net ∧
      (resState a1 (execHelloTimeout a0 a1)).vats = a1.vats ∧ (resState a1 (execHelloTimeout a0 a1)).mem = a1.mem ∧
      (resState a1 (execHelloTimeout a0 a1)).host = a1.host ∧ (resState a1 (execHelloTimeout a0 a1)).boot = a1.boot ∧
      (resState a1 (execHelloTimeout a0 a1)).free = a1.free := by
  unfold execHelloTimeout; (repeat' split) <;> simp
@[simp] theorem execHostLinkDown_same (a0 : State) :
    (resState a0 (execHostLinkDown a0)).pending = a0.pending ∧ (resState a0 (execHostLinkDown a0)).clk = a0.clk ∧
      (resState a0 (execHostLinkDown a0)).cores = a0.cores ∧ (resState a0 (execHostLinkDown a0)).net = a0.net ∧
      (resState a0 (execHostLinkDown a0)).vats = a0.vats ∧ (resState a0 (execHostLinkDown a0)).mem = a0.mem ∧
      (resState a0 (execHostLinkDown a0)).span = a0.span ∧ (resState a0 (execHostLinkDown a0)).boot = a0.boot ∧
      (resState a0 (execHostLinkDown a0)).free = a0.free := by
  unfold execHostLinkDown; (repeat' split) <;> simp
@[simp] theorem execHostLinkUp_same (a0 : Nat) (a1 : Nat) (a2 : State) :
    (resState a2 (execHostLinkUp a0 a1 a2)).pending = a2.pending ∧ (resState a2 (execHostLinkUp a0 a1 a2)).clk = a2.clk ∧
      (resState a2 (execHostLinkUp a0 a1 a2)).cores = a2.cores ∧ (resState a2 (execHostLinkUp a0 a1 a2)).net = a2.net ∧
      (resState a2 (execHostLinkUp a0 a1 a2)).vats = a2.vats ∧ (resState a2 (execHostLinkUp a0 a1 a2)).mem = a2.mem ∧
      (resState a2 (execHostLinkUp a0 a1 a2)).span = a2.span ∧ (resState a2 (execHostLinkUp a0 a1 a2)).boot = a2.boot ∧
      (resState a2 (execHostLinkUp a0 a1 a2)).free = a2.free := by
  unfold execHostLinkUp; (repeat' split) <;> simp
@[simp] theorem execHostNop_same (a0 : Nat) (a1 : State) :
    (resState a1 (execHostNop a0 a1)).pending = a1.pending ∧ (resState a1 (execHostNop a0 a1)).clk = a1.clk ∧
      (resState a1 (execHostNop a0 a1)).cores = a1.cores ∧ (resState a1 (execHostNop a0 a1)).net = a1.net ∧
      (resState a1 (execHostNop a0 a1)).vats = a1.vats ∧ (resState a1 (execHostNop a0 a1)).mem = a1.mem ∧
      (resState a1 (execHostNop a0 a1)).hub = a1.hub ∧ (resState a1 (execHostNop a0 a1)).span = a1.span ∧
      (resState a1 (execHostNop a0 a1)).pwr = a1.pwr ∧ (resState a1 (execHostNop a0 a1)).boot = a1.boot ∧
      (resState a1 (execHostNop a0 a1)).out = a1.out ∧ (resState a1 (execHostNop a0 a1)).free = a1.free := by
  unfold execHostNop; (repeat' split) <;> simp
@[simp] theorem execHostReadCompletion_same (a0 : Nat) (a1 : Nat) (a2 : Nat) (a3 : ReadAns) (a4 : State) :
    (resState a4 (execHostReadCompletion a0 a1 a2 a3 a4)).pending = a4.pending ∧
      (resState a4 (execHostReadCompletion a0 a1 a2 a3 a4)).clk = a4.clk ∧ (resState a4 (execHostReadCompletion a0 a1 a2 a3 a4)).net = a4.net ∧
      (resState a4 (execHostReadCompletion a0 a1 a2 a3 a4)).boot = a4.boot ∧ (resState a4 (execHostReadCompletion a0 a1 a2 a3 a4)).free = a4.free := by
  unfold execHostReadCompletion; (repeat' split) <;> simp
@[simp] theorem execHostReadCompletion_wf_mem_stack (a0 : Nat) (a1 : Nat) (a2 : Nat) (a3 : ReadAns) (a4 : State)  (hw : a4.mem.stack.wf = true) :
    (resState a4 (execHostReadCompletion a0 a1 a2 a3 a4)).mem.stack.wf = true := by
  unfold execHostReadCompletion; (repeat' split) <;> simp_all (maxDischargeDepth := 30)
@[simp] theorem execHostSadd_same (a0 : Nat) (a1 : Nat) (a2 : State) :
    (resState a2 (execHostSadd a0 a1 a2)).pending = a2.pending ∧ (resState a2 (execHostSadd a0 a1 a2)).clk = a2.clk ∧
      (resState a2 (execHostSadd a0 a1 a2)).mem = a2.mem ∧ (resState a2 (execHostSadd a0 a1 a2)).span = a2.span ∧
      (resState a2 (execHostSadd a0 a1 a2)).boot = a2.boot ∧ (resState a2 (execHostSadd a0 a1 a2)).free = a2.free := by
  unfold execHostSadd; refine ⟨by first | (simp; done) | (rw [resState_next]; apply State.command_same_pending; intros; (first | (simp; done) | (dsimp only; (repeat' (split <;> try dsimp only)) <;> simp_all)); done) | ((repeat' split) <;> first | (simp; done) | (rw [resState_next]; apply State.command_same_pending; intros; (first | (simp; done) | (dsimp only; (repeat' (split <;> try dsimp only)) <;> simp_all)); done)), by first | (simp; done) | (rw [resState_next]; apply State.command_same_clk; intros; (first | (simp; done) | (dsimp only; (repeat' (split <;> try dsimp only)) <;> simp_all)); done) | ((repeat' split) <;> first | (simp; done) | (rw [resState_next]; apply State.command_same_clk; intros; (first | (simp; done) | (dsimp only; (repeat' (split <;> try dsimp only)) <;> simp_all)); done)), by first | (simp; done) | (rw [resState_next]; apply State.command_same_mem; intros; (first | (simp; done) | (dsimp only; (repeat' (split <;> try dsimp only)) <;> simp_all)); done) | ((repeat' split) <;> first | (simp; done) | (rw [resState_next]; apply State.command_same_mem; intros; (first | (simp; done) | (dsimp only; (repeat' (split <;> try dsimp only)) <;> simp_all)); done)), by first | (simp; done) | (rw [resState_next]; apply State.command_same_span; intros; (first | (simp; done) | (dsimp only; (repeat' (split <;> try dsimp only)) <;> simp_all)); done) | ((repeat' split) <;> first | (simp; done) | (rw [resState_next]; apply State.command_same_span; intros; (first | (simp; done) | (dsimp only; (repeat' (split <;> try dsimp only)) <;> simp_all)); done)), by first | (simp; done) | (rw [resState_next]; apply State.command_same_boot; intros; (first | (simp; done) | (dsimp only; (repeat' (split <;> try dsimp only)) <;> simp_all)); done) | ((repeat' split) <;> first | (simp; done) | (rw [resState_next]; apply State.command_same_boot; intros; (first | (simp; done) | (dsimp only; (repeat' (split <;> try dsimp only)) <;> simp_all)); done)), by first | (simp; done) | (rw [resState_next]; apply State.command_same_free; intros; (first | (simp; done) | (dsimp only; (repeat' (split <;> try dsimp only)) <;> simp_all)); done) | ((repeat' split) <;> first | (simp; done) | (rw [resState_next]; apply State.command_same_free; intros; (first | (simp; done) | (dsimp only; (repeat' (split <;> try dsimp only)) <;> simp_all)); done))⟩
@[simp] theorem execHotReset_same (a0 : State) :
    (resState a0 (execHotReset a0)).pending = a0.pending ∧ (resState a0 (execHotReset a0)).clk = a0.clk ∧
      (resState a0 (execHotReset a0)).cores = a0.cores ∧ (resState a0 (execHotReset a0)).net = a0.net ∧
      (resState a0 (execHotReset a0)).vats = a0.vats ∧ (resState a0 (execHotReset a0)).mem = a0.mem ∧
      (resState a0 (execHotReset a0)).hub = a0.hub ∧ (resState a0 (execHotReset a0)).span = a0.span ∧
      (resState a0 (execHotReset a0)).pwr = a0.pwr ∧ (resState a0 (execHotReset a0)).boot = a0.boot ∧
      (resState a0 (execHotReset a0)).out = a0.out ∧ (resState a0 (execHotReset a0)).free = a0.free := by
  unfold execHotReset; (repeat' split) <;> simp
@[simp] theorem execIbins_same (a0 : Nat) (a1 : Guard) (a2 : BitVec 2) (a3 : BitVec 6) (a4 : BitVec 6) (a5 : Reg) (a6 : State) :
    (resState a6 (execIbins a0 a1 a2 a3 a4 a5 a6)).pending = a6.pending ∧ (resState a6 (execIbins a0 a1 a2 a3 a4 a5 a6)).clk = a6.clk ∧
      (resState a6 (execIbins a0 a1 a2 a3 a4 a5 a6)).mem = a6.mem ∧ (resState a6 (execIbins a0 a1 a2 a3 a4 a5 a6)).span = a6.span ∧
      (resState a6 (execIbins a0 a1 a2 a3 a4 a5 a6)).host = a6.host ∧ (resState a6 (execIbins a0 a1 a2 a3 a4 a5 a6)).boot = a6.boot ∧
      (resState a6 (execIbins a0 a1 a2 a3 a4 a5 a6)).free = a6.free := by
  unfold execIbins; refine ⟨by first | (simp; done) | (rw [resState_next]; apply State.instrIf_same_pending; intros; (first | (simp; done) | (dsimp only; (repeat' (split <;> try dsimp only)) <;> simp_all)); done) | ((repeat' split) <;> first | (simp; done) | (rw [resState_next]; apply State.instrIf_same_pending; intros; (first | (simp; done) | (dsimp only; (repeat' (split <;> try dsimp only)) <;> simp_all)); done)), by first | (simp; done) | (rw [resState_next]; apply State.instrIf_same_clk; intros; (first | (simp; done) | (dsimp only; (repeat' (split <;> try dsimp only)) <;> simp_all)); done) | ((repeat' split) <;> first | (simp; done) | (rw [resState_next]; apply State.instrIf_same_clk; intros; (first | (simp; done) | (dsimp only; (repeat' (split <;> try dsimp only)) <;> simp_all)); done)), by first | (simp; done) | (rw [resState_next]; apply State.instrIf_same_mem; intros; (first | (simp; done) | (dsimp only; (repeat' (split <;> try dsimp only)) <;> simp_all)); done) | ((repeat' split) <;> first | (simp; done) | (rw [resState_next]; apply State.instrIf_same_mem; intros; (first | (simp; done) | (dsimp only; (repeat' (split <;> try dsimp only)) <;> simp_all)); done)), by first | (simp; done) | (rw [resState_next]; apply State.instrIf_same_span; intros; (first | (simp; done) | (dsimp only; (repeat' (split <;> try dsimp only)) <;> simp_all)); done) | ((repeat' split) <;> first | (simp; done) | (rw [resState_next]; apply State.instrIf_same_span; intros; (first | (simp; done) | (dsimp only; (repeat' (split <;> try dsimp only)) <;> simp_all)); done)), by first | (simp; done) | (rw [resState_next]; apply State.instrIf_same_host; intros; (first | (simp; done) | (dsimp only; (repeat' (split <;> try dsimp only)) <;> simp_all)); done) | ((repeat' split) <;> first | (simp; done) | (rw [resState_next]; apply State.instrIf_same_host; intros; (first | (simp; done) | (dsimp only; (repeat' (split <;> try dsimp only)) <;> simp_all)); done)), by first | (simp; done) | (rw [resState_next]; apply State.instrIf_same_boot; intros; (first | (simp; done) | (dsimp only; (repeat' (split <;> try dsimp only)) <;> simp_all)); done) | ((repeat' split) <;> first | (simp; done) | (rw [resState_next]; apply State.instrIf_same_boot; intros; (first | (simp; done) | (dsimp only; (repeat' (split <;> try dsimp only)) <;> simp_all)); done)), by first | (simp; done) | (rw [resState_next]; apply State.instrIf_same_free; intros; (first | (simp; done) | (dsimp only; (repeat' (split <;> try dsimp only)) <;> simp_all)); done) | ((repeat' split) <;> first | (simp; done) | (rw [resState_next]; apply State.instrIf_same_free; intros; (first | (simp; done) | (dsimp only; (repeat' (split <;> try dsimp only)) <;> simp_all)); done))⟩
@[simp] theorem execInterruptTaken_same (a0 : Nat) (a1 : Boundary) (a2 : State) :
    (resState a2 (execInterruptTaken a0 a1 a2)).pending = a2.pending ∧ (resState a2 (execInterruptTaken a0 a1 a2)).clk = a2.clk ∧
      (resState a2 (execInterruptTaken a0 a1 a2)).vats = a2.vats ∧ (resState a2 (execInterruptTaken a0 a1 a2)).mem = a2.mem ∧
      (resState a2 (execInterruptTaken a0 a1 a2)).span = a2.span ∧ (resState a2 (execInterruptTaken a0 a1 a2)).host = a2.host ∧
      (resState a2 (execInterruptTaken a0 a1 a2)).boot = a2.boot ∧ (resState a2 (execInterruptTaken a0 a1 a2)).free = a2.free := by
  unfold execInterruptTaken; (repeat' split) <;> simp
@[simp] theorem execIrqClaim_same (a0 : Nat) (a1 : Bool) (a2 : State) :
    (resState a2 (execIrqClaim a0 a1 a2)).pending = a2.pending ∧ (resState a2 (execIrqClaim a0 a1 a2)).clk = a2.clk ∧
      (resState a2 (execIrqClaim a0 a1 a2)).cores = a2.cores ∧ (resState a2 (execIrqClaim a0 a1 a2)).net = a2.net ∧
      (resState a2 (execIrqClaim a0 a1 a2)).vats = a2.vats ∧ (resState a2 (execIrqClaim a0 a1 a2)).mem = a2.mem ∧
      (resState a2 (execIrqClaim a0 a1 a2)).span = a2.span ∧ (resState a2 (execIrqClaim a0 a1 a2)).host = a2.host ∧
      (resState a2 (execIrqClaim a0 a1 a2)).pwr = a2.pwr ∧ (resState a2 (execIrqClaim a0 a1 a2)).boot = a2.boot ∧
      (resState a2 (execIrqClaim a0 a1 a2)).free = a2.free := by
  unfold execIrqClaim; (repeat' split) <;> simp
@[simp] theorem execIrqComplete_same (a0 : Who) (a1 : Nat) (a2 : Nat) (a3 : State) :
    (resState a3 (execIrqComplete a0 a1 a2 a3)).pending = a3.pending ∧ (resState a3 (execIrqComplete a0 a1 a2 a3)).clk = a3.clk ∧
      (resState a3 (execIrqComplete a0 a1 a2 a3)).cores = a3.cores ∧ (resState a3 (execIrqComplete a0 a1 a2 a3)).net = a3.net ∧
      (resState a3 (execIrqComplete a0 a1 a2 a3)).vats = a3.vats ∧ (resState a3 (execIrqComplete a0 a1 a2 a3)).mem = a3.mem ∧
      (resState a3 (execIrqComplete a0 a1 a2 a3)).span = a3.span ∧ (resState a3 (execIrqComplete a0 a1 a2 a3)).host = a3.host ∧
      (resState a3 (execIrqComplete a0 a1 a2 a3)).boot = a3.boot ∧ (resState a3 (execIrqComplete a0 a1 a2 a3)).free = a3.free := by
  unfold execIrqComplete; (repeat' split) <;> simp
@[simp] theorem execIrqEvent_same (a0 : Nat) (a1 : State) :
    (resState a1 (execIrqEvent a0 a1)).pending = a1.pending ∧ (resState a1 (execIrqEvent a0 a1)).clk = a1.clk ∧
      (resState a1 (execIrqEvent a0 a1)).cores = a1.cores ∧ (resState a1 (execIrqEvent a0 a1)).net = a1.net ∧
      (resState a1 (execIrqEvent a0 a1)).vats = a1.vats ∧ (resState a1 (execIrqEvent a0 a1)).mem = a1.mem ∧
      (resState a1 (execIrqEvent a0 a1)).span = a1.span ∧ (resState a1 (execIrqEvent a0 a1)).host = a1.host ∧
      (resState a1 (execIrqEvent a0 a1)).boot = a1.boot ∧ (resState a1 (execIrqEvent a0 a1)).free = a1.free := by
  unfold execIrqEvent; (repeat' split) <;> simp
@[simp] theorem execIssue_same (a0 : Nat) (a1 : Guard) (a2 : BitVec 4) (a3 : Bool) (a4 : Reg) (a5 : BitVec 3) (a6 : BitVec 7) (a7 : State) :
    (resState a7 (execIssue a0 a1 a2 a3 a4 a5 a6 a7)).pending = a7.pending ∧ (resState a7 (execIssue a0 a1 a2 a3 a4 a5 a6 a7)).clk = a7.clk ∧
      (resState a7 (execIssue a0 a1 a2 a3 a4 a5 a6 a7)).mem = a7.mem ∧ (resState a7 (execIssue a0 a1 a2 a3 a4 a5 a6 a7)).span = a7.span ∧
      (resState a7 (execIssue a0 a1 a2 a3 a4 a5 a6 a7)).host = a7.host ∧ (resState a7 (execIssue a0 a1 a2 a3 a4 a5 a6 a7)).boot = a7.boot ∧
      (resState a7 (execIssue a0 a1 a2 a3 a4 a5 a6 a7)).free = a7.free := by
  unfold execIssue; refine ⟨by first | (simp; done) | (rw [resState_next]; apply State.instr_same_pending; intros; (first | (simp; done) | (dsimp only; (repeat' (split <;> try dsimp only)) <;> simp_all)); done) | ((repeat' split) <;> first | (simp; done) | (rw [resState_next]; apply State.instr_same_pending; intros; (first | (simp; done) | (dsimp only; (repeat' (split <;> try dsimp only)) <;> simp_all)); done)), by first | (simp; done) | (rw [resState_next]; apply State.instr_same_clk; intros; (first | (simp; done) | (dsimp only; (repeat' (split <;> try dsimp only)) <;> simp_all)); done) | ((repeat' split) <;> first | (simp; done) | (rw [resState_next]; apply State.instr_same_clk; intros; (first | (simp; done) | (dsimp only; (repeat' (split <;> try dsimp only)) <;> simp_all)); done)), by first | (simp; done) | (rw [resState_next]; apply State.instr_same_mem; intros; (first | (simp; done) | (dsimp only; (repeat' (split <;> try dsimp only)) <;> simp_all)); done) | ((repeat' split) <;> first | (simp; done) | (rw [resState_next]; apply State.instr_same_mem; intros; (first | (simp; done) | (dsimp only; (repeat' (split <;> try dsimp only)) <;> simp_all)); done)), by first | (simp; done) | (rw [resState_next]; apply State.instr_same_span; intros; (first | (simp; done) | (dsimp only; (repeat' (split <;> try dsimp only)) <;> simp_all)); done) | ((repeat' split) <;> first | (simp; done) | (rw [resState_next]; apply State.instr_same_span; intros; (first | (simp; done) | (dsimp only; (repeat' (split <;> try dsimp only)) <;> simp_all)); done)), by first | (simp; done) | (rw [resState_next]; apply State.instr_same_host; intros; (first | (simp; done) | (dsimp only; (repeat' (split <;> try dsimp only)) <;> simp_all)); done) | ((repeat' split) <;> first | (simp; done) | (rw [resState_next]; apply State.instr_same_host; intros; (first | (simp; done) | (dsimp only; (repeat' (split <;> try dsimp only)) <;> simp_all)); done)), by first | (simp; done) | (rw [resState_next]; apply State.instr_same_boot; intros; (first | (simp; done) | (dsimp only; (repeat' (split <;> try dsimp only)) <;> simp_all)); done) | ((repeat' split) <;> first | (simp; done) | (rw [resState_next]; apply State.instr_same_boot; intros; (first | (simp; done) | (dsimp only; (repeat' (split <;> try dsimp only)) <;> simp_all)); done)), by first | (simp; done) | (rw [resState_next]; apply State.instr_same_free; intros; (first | (simp; done) | (dsimp only; (repeat' (split <;> try dsimp only)) <;> simp_all)); done) | ((repeat' split) <;> first | (simp; done) | (rw [resState_next]; apply State.instr_same_free; intros; (first | (simp; done) | (dsimp only; (repeat' (split <;> try dsimp only)) <;> simp_all)); done))⟩
@[simp] theorem execIssueB_same (a0 : Nat) (a1 : Guard) (a2 : BitVec 4) (a3 : Bool) (a4 : BitVec 3) (a5 : State) :
    (resState a5 (execIssueB a0 a1 a2 a3 a4 a5)).pending = a5.pending ∧ (resState a5 (execIssueB a0 a1 a2 a3 a4 a5)).clk = a5.clk ∧
      (resState a5 (execIssueB a0 a1 a2 a3 a4 a5)).mem = a5.mem ∧ (resState a5 (execIssueB a0 a1 a2 a3 a4 a5)).span = a5.span ∧
      (resState a5 (execIssueB a0 a1 a2 a3 a4 a5)).host = a5.host ∧ (resState a5 (execIssueB a0 a1 a2 a3 a4 a5)).boot = a5.boot ∧
      (resState a5 (execIssueB a0 a1 a2 a3 a4 a5)).free = a5.free := by
  unfold execIssueB; refine ⟨by first | (simp; done) | (rw [resState_next]; apply State.instr_same_pending; intros; (first | (simp; done) | (dsimp only; (repeat' (split <;> try dsimp only)) <;> simp_all)); done) | ((repeat' split) <;> first | (simp; done) | (rw [resState_next]; apply State.instr_same_pending; intros; (first | (simp; done) | (dsimp only; (repeat' (split <;> try dsimp only)) <;> simp_all)); done)), by first | (simp; done) | (rw [resState_next]; apply State.instr_same_clk; intros; (first | (simp; done) | (dsimp only; (repeat' (split <;> try dsimp only)) <;> simp_all)); done) | ((repeat' split) <;> first | (simp; done) | (rw [resState_next]; apply State.instr_same_clk; intros; (first | (simp; done) | (dsimp only; (repeat' (split <;> try dsimp only)) <;> simp_all)); done)), by first | (simp; done) | (rw [resState_next]; apply State.instr_same_mem; intros; (first | (simp; done) | (dsimp only; (repeat' (split <;> try dsimp only)) <;> simp_all)); done) | ((repeat' split) <;> first | (simp; done) | (rw [resState_next]; apply State.instr_same_mem; intros; (first | (simp; done) | (dsimp only; (repeat' (split <;> try dsimp only)) <;> simp_all)); done)), by first | (simp; done) | (rw [resState_next]; apply State.instr_same_span; intros; (first | (simp; done) | (dsimp only; (repeat' (split <;> try dsimp only)) <;> simp_all)); done) | ((repeat' split) <;> first | (simp; done) | (rw [resState_next]; apply State.instr_same_span; intros; (first | (simp; done) | (dsimp only; (repeat' (split <;> try dsimp only)) <;> simp_all)); done)), by first | (simp; done) | (rw [resState_next]; apply State.instr_same_host; intros; (first | (simp; done) | (dsimp only; (repeat' (split <;> try dsimp only)) <;> simp_all)); done) | ((repeat' split) <;> first | (simp; done) | (rw [resState_next]; apply State.instr_same_host; intros; (first | (simp; done) | (dsimp only; (repeat' (split <;> try dsimp only)) <;> simp_all)); done)), by first | (simp; done) | (rw [resState_next]; apply State.instr_same_boot; intros; (first | (simp; done) | (dsimp only; (repeat' (split <;> try dsimp only)) <;> simp_all)); done) | ((repeat' split) <;> first | (simp; done) | (rw [resState_next]; apply State.instr_same_boot; intros; (first | (simp; done) | (dsimp only; (repeat' (split <;> try dsimp only)) <;> simp_all)); done)), by first | (simp; done) | (rw [resState_next]; apply State.instr_same_free; intros; (first | (simp; done) | (dsimp only; (repeat' (split <;> try dsimp only)) <;> simp_all)); done) | ((repeat' split) <;> first | (simp; done) | (rw [resState_next]; apply State.instr_same_free; intros; (first | (simp; done) | (dsimp only; (repeat' (split <;> try dsimp only)) <;> simp_all)); done))⟩
@[simp] theorem execIssueReserve_same (a0 : Nat) (a1 : State) :
    (resState a1 (execIssueReserve a0 a1)).pending = a1.pending ∧ (resState a1 (execIssueReserve a0 a1)).clk = a1.clk ∧
      (resState a1 (execIssueReserve a0 a1)).mem = a1.mem ∧ (resState a1 (execIssueReserve a0 a1)).span = a1.span ∧
      (resState a1 (execIssueReserve a0 a1)).host = a1.host ∧ (resState a1 (execIssueReserve a0 a1)).boot = a1.boot ∧
      (resState a1 (execIssueReserve a0 a1)).free = a1.free := by
  unfold execIssueReserve; rw [resState_next]; split; · simp
  · split <;> (try split) <;> simp
@[simp] theorem execJalr_same (a0 : Nat) (a1 : Guard) (a2 : Reg) (a3 : Reg) (a4 : BitVec 10) (a5 : State) :
    (resState a5 (execJalr a0 a1 a2 a3 a4 a5)).pending = a5.pending ∧ (resState a5 (execJalr a0 a1 a2 a3 a4 a5)).clk = a5.clk ∧
      (resState a5 (execJalr a0 a1 a2 a3 a4 a5)).mem = a5.mem ∧ (resState a5 (execJalr a0 a1 a2 a3 a4 a5)).span = a5.span ∧
      (resState a5 (execJalr a0 a1 a2 a3 a4 a5)).host = a5.host ∧ (resState a5 (execJalr a0 a1 a2 a3 a4 a5)).boot = a5.boot ∧
      (resState a5 (execJalr a0 a1 a2 a3 a4 a5)).free = a5.free := by
  unfold execJalr; refine ⟨by first | (simp; done) | (rw [resState_next]; apply State.instr_same_pending; intros; (first | (simp; done) | (dsimp only; (repeat' (split <;> try dsimp only)) <;> simp_all)); done) | ((repeat' split) <;> first | (simp; done) | (rw [resState_next]; apply State.instr_same_pending; intros; (first | (simp; done) | (dsimp only; (repeat' (split <;> try dsimp only)) <;> simp_all)); done)), by first | (simp; done) | (rw [resState_next]; apply State.instr_same_clk; intros; (first | (simp; done) | (dsimp only; (repeat' (split <;> try dsimp only)) <;> simp_all)); done) | ((repeat' split) <;> first | (simp; done) | (rw [resState_next]; apply State.instr_same_clk; intros; (first | (simp; done) | (dsimp only; (repeat' (split <;> try dsimp only)) <;> simp_all)); done)), by first | (simp; done) | (rw [resState_next]; apply State.instr_same_mem; intros; (first | (simp; done) | (dsimp only; (repeat' (split <;> try dsimp only)) <;> simp_all)); done) | ((repeat' split) <;> first | (simp; done) | (rw [resState_next]; apply State.instr_same_mem; intros; (first | (simp; done) | (dsimp only; (repeat' (split <;> try dsimp only)) <;> simp_all)); done)), by first | (simp; done) | (rw [resState_next]; apply State.instr_same_span; intros; (first | (simp; done) | (dsimp only; (repeat' (split <;> try dsimp only)) <;> simp_all)); done) | ((repeat' split) <;> first | (simp; done) | (rw [resState_next]; apply State.instr_same_span; intros; (first | (simp; done) | (dsimp only; (repeat' (split <;> try dsimp only)) <;> simp_all)); done)), by first | (simp; done) | (rw [resState_next]; apply State.instr_same_host; intros; (first | (simp; done) | (dsimp only; (repeat' (split <;> try dsimp only)) <;> simp_all)); done) | ((repeat' split) <;> first | (simp; done) | (rw [resState_next]; apply State.instr_same_host; intros; (first | (simp; done) | (dsimp only; (repeat' (split <;> try dsimp only)) <;> simp_all)); done)), by first | (simp; done) | (rw [resState_next]; apply State.instr_same_boot; intros; (first | (simp; done) | (dsimp only; (repeat' (split <;> try dsimp only)) <;> simp_all)); done) | ((repeat' split) <;> first | (simp; done) | (rw [resState_next]; apply State.instr_same_boot; intros; (first | (simp; done) | (dsimp only; (repeat' (split <;> try dsimp only)) <;> simp_all)); done)), by first | (simp; done) | (rw [resState_next]; apply State.instr_same_free; intros; (first | (simp; done) | (dsimp only; (repeat' (split <;> try dsimp only)) <;> simp_all)); done) | ((repeat' split) <;> first | (simp; done) | (rw [resState_next]; apply State.instr_same_free; intros; (first | (simp; done) | (dsimp only; (repeat' (split <;> try dsimp only)) <;> simp_all)); done))⟩
@[simp] theorem execJr_same (a0 : Nat) (a1 : Guard) (a2 : Reg) (a3 : BitVec 10) (a4 : State) :
    (resState a4 (execJr a0 a1 a2 a3 a4)).pending = a4.pending ∧ (resState a4 (execJr a0 a1 a2 a3 a4)).clk = a4.clk ∧
      (resState a4 (execJr a0 a1 a2 a3 a4)).mem = a4.mem ∧ (resState a4 (execJr a0 a1 a2 a3 a4)).span = a4.span ∧
      (resState a4 (execJr a0 a1 a2 a3 a4)).host = a4.host ∧ (resState a4 (execJr a0 a1 a2 a3 a4)).boot = a4.boot ∧
      (resState a4 (execJr a0 a1 a2 a3 a4)).free = a4.free := by
  unfold execJr; refine ⟨by first | (simp; done) | (rw [resState_next]; apply State.instr_same_pending; intros; (first | (simp; done) | (dsimp only; (repeat' (split <;> try dsimp only)) <;> simp_all)); done) | ((repeat' split) <;> first | (simp; done) | (rw [resState_next]; apply State.instr_same_pending; intros; (first | (simp; done) | (dsimp only; (repeat' (split <;> try dsimp only)) <;> simp_all)); done)), by first | (simp; done) | (rw [resState_next]; apply State.instr_same_clk; intros; (first | (simp; done) | (dsimp only; (repeat' (split <;> try dsimp only)) <;> simp_all)); done) | ((repeat' split) <;> first | (simp; done) | (rw [resState_next]; apply State.instr_same_clk; intros; (first | (simp; done) | (dsimp only; (repeat' (split <;> try dsimp only)) <;> simp_all)); done)), by first | (simp; done) | (rw [resState_next]; apply State.instr_same_mem; intros; (first | (simp; done) | (dsimp only; (repeat' (split <;> try dsimp only)) <;> simp_all)); done) | ((repeat' split) <;> first | (simp; done) | (rw [resState_next]; apply State.instr_same_mem; intros; (first | (simp; done) | (dsimp only; (repeat' (split <;> try dsimp only)) <;> simp_all)); done)), by first | (simp; done) | (rw [resState_next]; apply State.instr_same_span; intros; (first | (simp; done) | (dsimp only; (repeat' (split <;> try dsimp only)) <;> simp_all)); done) | ((repeat' split) <;> first | (simp; done) | (rw [resState_next]; apply State.instr_same_span; intros; (first | (simp; done) | (dsimp only; (repeat' (split <;> try dsimp only)) <;> simp_all)); done)), by first | (simp; done) | (rw [resState_next]; apply State.instr_same_host; intros; (first | (simp; done) | (dsimp only; (repeat' (split <;> try dsimp only)) <;> simp_all)); done) | ((repeat' split) <;> first | (simp; done) | (rw [resState_next]; apply State.instr_same_host; intros; (first | (simp; done) | (dsimp only; (repeat' (split <;> try dsimp only)) <;> simp_all)); done)), by first | (simp; done) | (rw [resState_next]; apply State.instr_same_boot; intros; (first | (simp; done) | (dsimp only; (repeat' (split <;> try dsimp only)) <;> simp_all)); done) | ((repeat' split) <;> first | (simp; done) | (rw [resState_next]; apply State.instr_same_boot; intros; (first | (simp; done) | (dsimp only; (repeat' (split <;> try dsimp only)) <;> simp_all)); done)), by first | (simp; done) | (rw [resState_next]; apply State.instr_same_free; intros; (first | (simp; done) | (dsimp only; (repeat' (split <;> try dsimp only)) <;> simp_all)); done) | ((repeat' split) <;> first | (simp; done) | (rw [resState_next]; apply State.instr_same_free; intros; (first | (simp; done) | (dsimp only; (repeat' (split <;> try dsimp only)) <;> simp_all)); done))⟩
@[simp] theorem execKill_same (a0 : Nat) (a1 : Nat) (a2 : State) :
    (resState a2 (execKill a0 a1 a2)).pending = a2.pending ∧ (resState a2 (execKill a0 a1 a2)).clk = a2.clk ∧
      (resState a2 (execKill a0 a1 a2)).boot = a2.boot ∧ (resState a2 (execKill a0 a1 a2)).free = a2.free := by
  unfold execKill; refine ⟨by first | (simp; done) | (rw [resState_next]; apply State.command_same_pending; intros; (first | (simp; done) | (dsimp only; (repeat' (split <;> try dsimp only)) <;> simp_all)); done) | ((repeat' split) <;> first | (simp; done) | (rw [resState_next]; apply State.command_same_pending; intros; (first | (simp; done) | (dsimp only; (repeat' (split <;> try dsimp only)) <;> simp_all)); done)), by first | (simp; done) | (rw [resState_next]; apply State.command_same_clk; intros; (first | (simp; done) | (dsimp only; (repeat' (split <;> try dsimp only)) <;> simp_all)); done) | ((repeat' split) <;> first | (simp; done) | (rw [resState_next]; apply State.command_same_clk; intros; (first | (simp; done) | (dsimp only; (repeat' (split <;> try dsimp only)) <;> simp_all)); done)), by first | (simp; done) | (rw [resState_next]; apply State.command_same_boot; intros; (first | (simp; done) | (dsimp only; (repeat' (split <;> try dsimp only)) <;> simp_all)); done) | ((repeat' split) <;> first | (simp; done) | (rw [resState_next]; apply State.command_same_boot; intros; (first | (simp; done) | (dsimp only; (repeat' (split <;> try dsimp only)) <;> simp_all)); done)), by first | (simp; done) | (rw [resState_next]; apply State.command_same_free; intros; (first | (simp; done) | (dsimp only; (repeat' (split <;> try dsimp only)) <;> simp_all)); done) | ((repeat' split) <;> first | (simp; done) | (rw [resState_next]; apply State.command_same_free; intros; (first | (simp; done) | (dsimp only; (repeat' (split <;> try dsimp only)) <;> simp_all)); done))⟩
@[simp] theorem execKill_wf_mem_stack (a0 : Nat) (a1 : Nat) (a2 : State)  (hw : a2.mem.stack.wf = true) :
    (resState a2 (execKill a0 a1 a2)).mem.stack.wf = true := by
  unfold execKill; first | (simp (maxDischargeDepth := 30); done) | (rw [resState_next]; apply State.command_wf_mem_stack <;> (intros; (first | (simp (maxDischargeDepth := 30); done) | (simp_all (maxDischargeDepth := 30); done) | (dsimp only; (repeat' (split <;> try dsimp only)) <;> simp_all (maxDischargeDepth := 30); done) | ((repeat' split) <;> simp_all (maxDischargeDepth := 30); done))); done) | ((repeat' split) <;> first | (simp (maxDischargeDepth := 30); done) | (simp_all (maxDischargeDepth := 30); done) | (rw [resState_next]; apply State.command_wf_mem_stack <;> (intros; (first | (simp (maxDischargeDepth := 30); done) | (simp_all (maxDischargeDepth := 30); done) | (dsimp only; (repeat' (split <;> try dsimp only)) <;> simp_all (maxDischargeDepth := 30); done) | ((repeat' split) <;> simp_all (maxDischargeDepth := 30); done))); done))
@[simp] theorem execKvcopy_same (a0 : Nat) (a1 : State) :
    (resState a1 (execKvcopy a0 a1)).pending = a1.pending ∧ (resState a1 (execKvcopy a0 a1)).clk = a1.clk ∧
      (resState a1 (execKvcopy a0 a1)).net = a1.net ∧ (resState a1 (execKvcopy a0 a1)).host = a1.host ∧
      (resState a1 (execKvcopy a0 a1)).boot = a1.boot ∧ (resState a1 (execKvcopy a0 a1)).free = a1.free := by
  unfold execKvcopy; refine ⟨by first | (simp; done) | (rw [resState_next]; apply State.stkOp_same_pending; intros; (first | (simp; done) | (dsimp only; (repeat' (split <;> try dsimp only)) <;> simp_all)); done) | ((repeat' split) <;> first | (simp; done) | (rw [resState_next]; apply State.stkOp_same_pending; intros; (first | (simp; done) | (dsimp only; (repeat' (split <;> try dsimp only)) <;> simp_all)); done)), by first | (simp; done) | (rw [resState_next]; apply State.stkOp_same_clk; intros; (first | (simp; done) | (dsimp only; (repeat' (split <;> try dsimp only)) <;> simp_all)); done) | ((repeat' split) <;> first | (simp; done) | (rw [resState_next]; apply State.stkOp_same_clk; intros; (first | (simp; done) | (dsimp only; (repeat' (split <;> try dsimp only)) <;> simp_all)); done)), by first | (simp; done) | (rw [resState_next]; apply State.stkOp_same_net; intros; (first | (simp; done) | (dsimp only; (repeat' (split <;> try dsimp only)) <;> simp_all)); done) | ((repeat' split) <;> first | (simp; done) | (rw [resState_next]; apply State.stkOp_same_net; intros; (first | (simp; done) | (dsimp only; (repeat' (split <;> try dsimp only)) <;> simp_all)); done)), by first | (simp; done) | (rw [resState_next]; apply State.stkOp_same_host; intros; (first | (simp; done) | (dsimp only; (repeat' (split <;> try dsimp only)) <;> simp_all)); done) | ((repeat' split) <;> first | (simp; done) | (rw [resState_next]; apply State.stkOp_same_host; intros; (first | (simp; done) | (dsimp only; (repeat' (split <;> try dsimp only)) <;> simp_all)); done)), by first | (simp; done) | (rw [resState_next]; apply State.stkOp_same_boot; intros; (first | (simp; done) | (dsimp only; (repeat' (split <;> try dsimp only)) <;> simp_all)); done) | ((repeat' split) <;> first | (simp; done) | (rw [resState_next]; apply State.stkOp_same_boot; intros; (first | (simp; done) | (dsimp only; (repeat' (split <;> try dsimp only)) <;> simp_all)); done)), by first | (simp; done) | (rw [resState_next]; apply State.stkOp_same_free; intros; (first | (simp; done) | (dsimp only; (repeat' (split <;> try dsimp only)) <;> simp_all)); done) | ((repeat' split) <;> first | (simp; done) | (rw [resState_next]; apply State.stkOp_same_free; intros; (first | (simp; done) | (dsimp only; (repeat' (split <;> try dsimp only)) <;> simp_all)); done))⟩
@[simp] theorem execKvcopy_wf_mem_stack (a0 : Nat) (a1 : State)  (hw : a1.mem.stack.wf = true) :
    (resState a1 (execKvcopy a0 a1)).mem.stack.wf = true := by
  unfold execKvcopy; first | (simp (maxDischargeDepth := 30); done) | (rw [resState_next]; apply State.stkOp_wf_mem_stack <;> (intros; (first | (simp (maxDischargeDepth := 30); done) | (simp_all (maxDischargeDepth := 30); done) | (dsimp only; (repeat' (split <;> try dsimp only)) <;> simp_all (maxDischargeDepth := 30); done) | ((repeat' split) <;> simp_all (maxDischargeDepth := 30); done))); done) | ((repeat' split) <;> first | (simp (maxDischargeDepth := 30); done) | (simp_all (maxDischargeDepth := 30); done) | (rw [resState_next]; apply State.stkOp_wf_mem_stack <;> (intros; (first | (simp (maxDischargeDepth := 30); done) | (simp_all (maxDischargeDepth := 30); done) | (dsimp only; (repeat' (split <;> try dsimp only)) <;> simp_all (maxDischargeDepth := 30); done) | ((repeat' split) <;> simp_all (maxDischargeDepth := 30); done))); done))
@[simp] theorem execLamb_same (a0 : Nat) (a1 : State) :
    (resState a1 (execLamb a0 a1)).pending = a1.pending ∧ (resState a1 (execLamb a0 a1)).clk = a1.clk ∧
      (resState a1 (execLamb a0 a1)).net = a1.net ∧ (resState a1 (execLamb a0 a1)).host = a1.host ∧ (resState a1 (execLamb a0 a1)).boot = a1.boot ∧
      (resState a1 (execLamb a0 a1)).free = a1.free := by
  unfold execLamb; refine ⟨by first | (simp; done) | (rw [resState_next]; apply State.stkOp_same_pending; intros; (first | (simp; done) | (dsimp only; (repeat' (split <;> try dsimp only)) <;> simp_all)); done) | ((repeat' split) <;> first | (simp; done) | (rw [resState_next]; apply State.stkOp_same_pending; intros; (first | (simp; done) | (dsimp only; (repeat' (split <;> try dsimp only)) <;> simp_all)); done)), by first | (simp; done) | (rw [resState_next]; apply State.stkOp_same_clk; intros; (first | (simp; done) | (dsimp only; (repeat' (split <;> try dsimp only)) <;> simp_all)); done) | ((repeat' split) <;> first | (simp; done) | (rw [resState_next]; apply State.stkOp_same_clk; intros; (first | (simp; done) | (dsimp only; (repeat' (split <;> try dsimp only)) <;> simp_all)); done)), by first | (simp; done) | (rw [resState_next]; apply State.stkOp_same_net; intros; (first | (simp; done) | (dsimp only; (repeat' (split <;> try dsimp only)) <;> simp_all)); done) | ((repeat' split) <;> first | (simp; done) | (rw [resState_next]; apply State.stkOp_same_net; intros; (first | (simp; done) | (dsimp only; (repeat' (split <;> try dsimp only)) <;> simp_all)); done)), by first | (simp; done) | (rw [resState_next]; apply State.stkOp_same_host; intros; (first | (simp; done) | (dsimp only; (repeat' (split <;> try dsimp only)) <;> simp_all)); done) | ((repeat' split) <;> first | (simp; done) | (rw [resState_next]; apply State.stkOp_same_host; intros; (first | (simp; done) | (dsimp only; (repeat' (split <;> try dsimp only)) <;> simp_all)); done)), by first | (simp; done) | (rw [resState_next]; apply State.stkOp_same_boot; intros; (first | (simp; done) | (dsimp only; (repeat' (split <;> try dsimp only)) <;> simp_all)); done) | ((repeat' split) <;> first | (simp; done) | (rw [resState_next]; apply State.stkOp_same_boot; intros; (first | (simp; done) | (dsimp only; (repeat' (split <;> try dsimp only)) <;> simp_all)); done)), by first | (simp; done) | (rw [resState_next]; apply State.stkOp_same_free; intros; (first | (simp; done) | (dsimp only; (repeat' (split <;> try dsimp only)) <;> simp_all)); done) | ((repeat' split) <;> first | (simp; done) | (rw [resState_next]; apply State.stkOp_same_free; intros; (first | (simp; done) | (dsimp only; (repeat' (split <;> try dsimp only)) <;> simp_all)); done))⟩
@[simp] theorem execLamb_wf_mem_stack (a0 : Nat) (a1 : State)  (hw : a1.mem.stack.wf = true) :
    (resState a1 (execLamb a0 a1)).mem.stack.wf = true := by
  unfold execLamb; first | (simp (maxDischargeDepth := 30); done) | (rw [resState_next]; apply State.stkOp_wf_mem_stack <;> (intros; (first | (simp (maxDischargeDepth := 30); done) | (simp_all (maxDischargeDepth := 30); done) | (dsimp only; (repeat' (split <;> try dsimp only)) <;> simp_all (maxDischargeDepth := 30); done) | ((repeat' split) <;> simp_all (maxDischargeDepth := 30); done))); done) | ((repeat' split) <;> first | (simp (maxDischargeDepth := 30); done) | (simp_all (maxDischargeDepth := 30); done) | (rw [resState_next]; apply State.stkOp_wf_mem_stack <;> (intros; (first | (simp (maxDischargeDepth := 30); done) | (simp_all (maxDischargeDepth := 30); done) | (dsimp only; (repeat' (split <;> try dsimp only)) <;> simp_all (maxDischargeDepth := 30); done) | ((repeat' split) <;> simp_all (maxDischargeDepth := 30); done))); done))
@[simp] theorem execLandingAck_same (a0 : Nat) (a1 : Nat) (a2 : ChMsg) (a3 : State) :
    (resState a3 (execLandingAck a0 a1 a2 a3)).pending = a3.pending ∧ (resState a3 (execLandingAck a0 a1 a2 a3)).clk = a3.clk ∧
      (resState a3 (execLandingAck a0 a1 a2 a3)).mem = a3.mem ∧ (resState a3 (execLandingAck a0 a1 a2 a3)).host = a3.host ∧
      (resState a3 (execLandingAck a0 a1 a2 a3)).boot = a3.boot ∧ (resState a3 (execLandingAck a0 a1 a2 a3)).free = a3.free := by
  unfold execLandingAck; refine ⟨by first | (simp; done) | (rw [resState_next]; apply State.chanArrive_same_pending; intros; (first | (simp; done) | (dsimp only; (repeat' (split <;> try dsimp only)) <;> simp_all)); done) | ((repeat' split) <;> first | (simp; done) | (rw [resState_next]; apply State.chanArrive_same_pending; intros; (first | (simp; done) | (dsimp only; (repeat' (split <;> try dsimp only)) <;> simp_all)); done)), by first | (simp; done) | (rw [resState_next]; apply State.chanArrive_same_clk; intros; (first | (simp; done) | (dsimp only; (repeat' (split <;> try dsimp only)) <;> simp_all)); done) | ((repeat' split) <;> first | (simp; done) | (rw [resState_next]; apply State.chanArrive_same_clk; intros; (first | (simp; done) | (dsimp only; (repeat' (split <;> try dsimp only)) <;> simp_all)); done)), by first | (simp; done) | (rw [resState_next]; apply State.chanArrive_same_mem; intros; (first | (simp; done) | (dsimp only; (repeat' (split <;> try dsimp only)) <;> simp_all)); done) | ((repeat' split) <;> first | (simp; done) | (rw [resState_next]; apply State.chanArrive_same_mem; intros; (first | (simp; done) | (dsimp only; (repeat' (split <;> try dsimp only)) <;> simp_all)); done)), by first | (simp; done) | (rw [resState_next]; apply State.chanArrive_same_host; intros; (first | (simp; done) | (dsimp only; (repeat' (split <;> try dsimp only)) <;> simp_all)); done) | ((repeat' split) <;> first | (simp; done) | (rw [resState_next]; apply State.chanArrive_same_host; intros; (first | (simp; done) | (dsimp only; (repeat' (split <;> try dsimp only)) <;> simp_all)); done)), by first | (simp; done) | (rw [resState_next]; apply State.chanArrive_same_boot; intros; (first | (simp; done) | (dsimp only; (repeat' (split <;> try dsimp only)) <;> simp_all)); done) | ((repeat' split) <;> first | (simp; done) | (rw [resState_next]; apply State.chanArrive_same_boot; intros; (first | (simp; done) | (dsimp only; (repeat' (split <;> try dsimp only)) <;> simp_all)); done)), by first | (simp; done) | (rw [resState_next]; apply State.chanArrive_same_free; intros; (first | (simp; done) | (dsimp only; (repeat' (split <;> try dsimp only)) <;> simp_all)); done) | ((repeat' split) <;> first | (simp; done) | (rw [resState_next]; apply State.chanArrive_same_free; intros; (first | (simp; done) | (dsimp only; (repeat' (split <;> try dsimp only)) <;> simp_all)); done))⟩
@[simp] theorem execLaunchTick_same (a0 : Nat) (a1 : State) :
    (resState a1 (execLaunchTick a0 a1)).pending = a1.pending ∧ (resState a1 (execLaunchTick a0 a1)).clk = a1.clk ∧
      (resState a1 (execLaunchTick a0 a1)).mem = a1.mem ∧ (resState a1 (execLaunchTick a0 a1)).span = a1.span ∧
      (resState a1 (execLaunchTick a0 a1)).boot = a1.boot ∧ (resState a1 (execLaunchTick a0 a1)).free = a1.free := by
  unfold execLaunchTick; (try dsimp only); rw [resState_next]; (repeat' split) <;> simp_all
@[simp] theorem execLcReq_same (a0 : Bool) (a1 : Nat) (a2 : List Byte) (a3 : State) :
    (resState a3 (execLcReq a0 a1 a2 a3)).pending = a3.pending ∧ (resState a3 (execLcReq a0 a1 a2 a3)).clk = a3.clk ∧
      (resState a3 (execLcReq a0 a1 a2 a3)).cores = a3.cores ∧ (resState a3 (execLcReq a0 a1 a2 a3)).net = a3.net ∧
      (resState a3 (execLcReq a0 a1 a2 a3)).vats = a3.vats ∧ (resState a3 (execLcReq a0 a1 a2 a3)).mem = a3.mem ∧
      (resState a3 (execLcReq a0 a1 a2 a3)).span = a3.span ∧ (resState a3 (execLcReq a0 a1 a2 a3)).host = a3.host ∧
      (resState a3 (execLcReq a0 a1 a2 a3)).free = a3.free := by
  unfold execLcReq; (repeat' split) <;> simp
@[simp] theorem execLcReq_kept (a0 : Bool) (a1 : Nat) (a2 : List Byte) (a3 : State) :
    (resState a3 (execLcReq a0 a1 a2 a3)).boot.flash = a3.boot.flash ∧ (resState a3 (execLcReq a0 a1 a2 a3)).boot.flashBuf = a3.boot.flashBuf := by
  unfold execLcReq; (repeat' split) <;> simp
@[simp] theorem execLdB_same (a0 : Nat) (a1 : Guard) (a2 : Reg) (a3 : Reg) (a4 : BitVec 10) (a5 : State) :
    (resState a5 (execLdB a0 a1 a2 a3 a4 a5)).pending = a5.pending ∧ (resState a5 (execLdB a0 a1 a2 a3 a4 a5)).clk = a5.clk ∧
      (resState a5 (execLdB a0 a1 a2 a3 a4 a5)).mem = a5.mem ∧ (resState a5 (execLdB a0 a1 a2 a3 a4 a5)).span = a5.span ∧
      (resState a5 (execLdB a0 a1 a2 a3 a4 a5)).host = a5.host ∧ (resState a5 (execLdB a0 a1 a2 a3 a4 a5)).boot = a5.boot ∧
      (resState a5 (execLdB a0 a1 a2 a3 a4 a5)).free = a5.free := by
  unfold execLdB; (repeat' split) <;> simp
@[simp] theorem execLdBu_same (a0 : Nat) (a1 : Guard) (a2 : Reg) (a3 : Reg) (a4 : BitVec 10) (a5 : State) :
    (resState a5 (execLdBu a0 a1 a2 a3 a4 a5)).pending = a5.pending ∧ (resState a5 (execLdBu a0 a1 a2 a3 a4 a5)).clk = a5.clk ∧
      (resState a5 (execLdBu a0 a1 a2 a3 a4 a5)).mem = a5.mem ∧ (resState a5 (execLdBu a0 a1 a2 a3 a4 a5)).span = a5.span ∧
      (resState a5 (execLdBu a0 a1 a2 a3 a4 a5)).host = a5.host ∧ (resState a5 (execLdBu a0 a1 a2 a3 a4 a5)).boot = a5.boot ∧
      (resState a5 (execLdBu a0 a1 a2 a3 a4 a5)).free = a5.free := by
  unfold execLdBu; (repeat' split) <;> simp
@[simp] theorem execLdD_same (a0 : Nat) (a1 : Guard) (a2 : Reg) (a3 : Reg) (a4 : BitVec 10) (a5 : State) :
    (resState a5 (execLdD a0 a1 a2 a3 a4 a5)).pending = a5.pending ∧ (resState a5 (execLdD a0 a1 a2 a3 a4 a5)).clk = a5.clk ∧
      (resState a5 (execLdD a0 a1 a2 a3 a4 a5)).mem = a5.mem ∧ (resState a5 (execLdD a0 a1 a2 a3 a4 a5)).span = a5.span ∧
      (resState a5 (execLdD a0 a1 a2 a3 a4 a5)).host = a5.host ∧ (resState a5 (execLdD a0 a1 a2 a3 a4 a5)).boot = a5.boot ∧
      (resState a5 (execLdD a0 a1 a2 a3 a4 a5)).free = a5.free := by
  unfold execLdD; (repeat' split) <;> simp
@[simp] theorem execLdH_same (a0 : Nat) (a1 : Guard) (a2 : Reg) (a3 : Reg) (a4 : BitVec 10) (a5 : State) :
    (resState a5 (execLdH a0 a1 a2 a3 a4 a5)).pending = a5.pending ∧ (resState a5 (execLdH a0 a1 a2 a3 a4 a5)).clk = a5.clk ∧
      (resState a5 (execLdH a0 a1 a2 a3 a4 a5)).mem = a5.mem ∧ (resState a5 (execLdH a0 a1 a2 a3 a4 a5)).span = a5.span ∧
      (resState a5 (execLdH a0 a1 a2 a3 a4 a5)).host = a5.host ∧ (resState a5 (execLdH a0 a1 a2 a3 a4 a5)).boot = a5.boot ∧
      (resState a5 (execLdH a0 a1 a2 a3 a4 a5)).free = a5.free := by
  unfold execLdH; (repeat' split) <;> simp
@[simp] theorem execLdHu_same (a0 : Nat) (a1 : Guard) (a2 : Reg) (a3 : Reg) (a4 : BitVec 10) (a5 : State) :
    (resState a5 (execLdHu a0 a1 a2 a3 a4 a5)).pending = a5.pending ∧ (resState a5 (execLdHu a0 a1 a2 a3 a4 a5)).clk = a5.clk ∧
      (resState a5 (execLdHu a0 a1 a2 a3 a4 a5)).mem = a5.mem ∧ (resState a5 (execLdHu a0 a1 a2 a3 a4 a5)).span = a5.span ∧
      (resState a5 (execLdHu a0 a1 a2 a3 a4 a5)).host = a5.host ∧ (resState a5 (execLdHu a0 a1 a2 a3 a4 a5)).boot = a5.boot ∧
      (resState a5 (execLdHu a0 a1 a2 a3 a4 a5)).free = a5.free := by
  unfold execLdHu; (repeat' split) <;> simp
@[simp] theorem execLdW_same (a0 : Nat) (a1 : Guard) (a2 : Reg) (a3 : Reg) (a4 : BitVec 10) (a5 : State) :
    (resState a5 (execLdW a0 a1 a2 a3 a4 a5)).pending = a5.pending ∧ (resState a5 (execLdW a0 a1 a2 a3 a4 a5)).clk = a5.clk ∧
      (resState a5 (execLdW a0 a1 a2 a3 a4 a5)).mem = a5.mem ∧ (resState a5 (execLdW a0 a1 a2 a3 a4 a5)).span = a5.span ∧
      (resState a5 (execLdW a0 a1 a2 a3 a4 a5)).host = a5.host ∧ (resState a5 (execLdW a0 a1 a2 a3 a4 a5)).boot = a5.boot ∧
      (resState a5 (execLdW a0 a1 a2 a3 a4 a5)).free = a5.free := by
  unfold execLdW; (repeat' split) <;> simp

end Sys2Proof.Machine
end

