-- ==== Sys2Proof/Laws/Exec3.lean ====
section
/-! SUPPORT. What each meaning leaves unchanged: the parts of the state it does not touch, and the canonical form of the memories (3 of 6). -/

namespace Sys2Proof.Machine

@[simp] theorem execLdWu_same (a0 : Nat) (a1 : Guard) (a2 : Reg) (a3 : Reg) (a4 : BitVec 10) (a5 : State) :
    (resState a5 (execLdWu a0 a1 a2 a3 a4 a5)).pending = a5.pending ∧ (resState a5 (execLdWu a0 a1 a2 a3 a4 a5)).clk = a5.clk ∧
      (resState a5 (execLdWu a0 a1 a2 a3 a4 a5)).mem = a5.mem ∧ (resState a5 (execLdWu a0 a1 a2 a3 a4 a5)).span = a5.span ∧
      (resState a5 (execLdWu a0 a1 a2 a3 a4 a5)).host = a5.host ∧ (resState a5 (execLdWu a0 a1 a2 a3 a4 a5)).boot = a5.boot ∧
      (resState a5 (execLdWu a0 a1 a2 a3 a4 a5)).free = a5.free := by
  unfold execLdWu; (repeat' split) <;> simp
@[simp] theorem execLdd_same (a0 : Nat) (a1 : Nat) (a2 : State) :
    (resState a2 (execLdd a0 a1 a2)).pending = a2.pending ∧ (resState a2 (execLdd a0 a1 a2)).clk = a2.clk ∧
      (resState a2 (execLdd a0 a1 a2)).mem = a2.mem ∧ (resState a2 (execLdd a0 a1 a2)).host = a2.host ∧
      (resState a2 (execLdd a0 a1 a2)).boot = a2.boot ∧ (resState a2 (execLdd a0 a1 a2)).free = a2.free := by
  unfold execLdd; (repeat' split) <;> simp
@[simp] theorem execLdrD_same (a0 : Nat) (a1 : Guard) (a2 : Reg) (a3 : Reg) (a4 : BitVec 10) (a5 : State) :
    (resState a5 (execLdrD a0 a1 a2 a3 a4 a5)).pending = a5.pending ∧ (resState a5 (execLdrD a0 a1 a2 a3 a4 a5)).clk = a5.clk ∧
      (resState a5 (execLdrD a0 a1 a2 a3 a4 a5)).mem = a5.mem ∧ (resState a5 (execLdrD a0 a1 a2 a3 a4 a5)).host = a5.host ∧
      (resState a5 (execLdrD a0 a1 a2 a3 a4 a5)).boot = a5.boot ∧ (resState a5 (execLdrD a0 a1 a2 a3 a4 a5)).free = a5.free := by
  unfold execLdrD; (repeat' split) <;> simp
@[simp] theorem execLdrReturn_same (a0 : Nat) (a1 : Answer) (a2 : State) :
    (resState a2 (execLdrReturn a0 a1 a2)).pending = a2.pending ∧ (resState a2 (execLdrReturn a0 a1 a2)).clk = a2.clk ∧
      (resState a2 (execLdrReturn a0 a1 a2)).vats = a2.vats ∧ (resState a2 (execLdrReturn a0 a1 a2)).mem = a2.mem ∧
      (resState a2 (execLdrReturn a0 a1 a2)).span = a2.span ∧ (resState a2 (execLdrReturn a0 a1 a2)).host = a2.host ∧
      (resState a2 (execLdrReturn a0 a1 a2)).boot = a2.boot ∧ (resState a2 (execLdrReturn a0 a1 a2)).free = a2.free := by
  unfold execLdrReturn; (repeat' split) <;> simp
@[simp] theorem execLdrW_same (a0 : Nat) (a1 : Guard) (a2 : Reg) (a3 : Reg) (a4 : BitVec 10) (a5 : State) :
    (resState a5 (execLdrW a0 a1 a2 a3 a4 a5)).pending = a5.pending ∧ (resState a5 (execLdrW a0 a1 a2 a3 a4 a5)).clk = a5.clk ∧
      (resState a5 (execLdrW a0 a1 a2 a3 a4 a5)).mem = a5.mem ∧ (resState a5 (execLdrW a0 a1 a2 a3 a4 a5)).host = a5.host ∧
      (resState a5 (execLdrW a0 a1 a2 a3 a4 a5)).boot = a5.boot ∧ (resState a5 (execLdrW a0 a1 a2 a3 a4 a5)).free = a5.free := by
  unfold execLdrW; (repeat' split) <;> simp
@[simp] theorem execLi_same (a0 : Nat) (a1 : Guard) (a2 : Reg) (a3 : BitVec 15) (a4 : State) :
    (resState a4 (execLi a0 a1 a2 a3 a4)).pending = a4.pending ∧ (resState a4 (execLi a0 a1 a2 a3 a4)).clk = a4.clk ∧
      (resState a4 (execLi a0 a1 a2 a3 a4)).mem = a4.mem ∧ (resState a4 (execLi a0 a1 a2 a3 a4)).span = a4.span ∧
      (resState a4 (execLi a0 a1 a2 a3 a4)).host = a4.host ∧ (resState a4 (execLi a0 a1 a2 a3 a4)).boot = a4.boot ∧
      (resState a4 (execLi a0 a1 a2 a3 a4)).free = a4.free := by
  unfold execLi; refine ⟨by first | (simp; done) | (rw [resState_next]; apply State.instr_same_pending; intros; (first | (simp; done) | (dsimp only; (repeat' (split <;> try dsimp only)) <;> simp_all)); done) | ((repeat' split) <;> first | (simp; done) | (rw [resState_next]; apply State.instr_same_pending; intros; (first | (simp; done) | (dsimp only; (repeat' (split <;> try dsimp only)) <;> simp_all)); done)), by first | (simp; done) | (rw [resState_next]; apply State.instr_same_clk; intros; (first | (simp; done) | (dsimp only; (repeat' (split <;> try dsimp only)) <;> simp_all)); done) | ((repeat' split) <;> first | (simp; done) | (rw [resState_next]; apply State.instr_same_clk; intros; (first | (simp; done) | (dsimp only; (repeat' (split <;> try dsimp only)) <;> simp_all)); done)), by first | (simp; done) | (rw [resState_next]; apply State.instr_same_mem; intros; (first | (simp; done) | (dsimp only; (repeat' (split <;> try dsimp only)) <;> simp_all)); done) | ((repeat' split) <;> first | (simp; done) | (rw [resState_next]; apply State.instr_same_mem; intros; (first | (simp; done) | (dsimp only; (repeat' (split <;> try dsimp only)) <;> simp_all)); done)), by first | (simp; done) | (rw [resState_next]; apply State.instr_same_span; intros; (first | (simp; done) | (dsimp only; (repeat' (split <;> try dsimp only)) <;> simp_all)); done) | ((repeat' split) <;> first | (simp; done) | (rw [resState_next]; apply State.instr_same_span; intros; (first | (simp; done) | (dsimp only; (repeat' (split <;> try dsimp only)) <;> simp_all)); done)), by first | (simp; done) | (rw [resState_next]; apply State.instr_same_host; intros; (first | (simp; done) | (dsimp only; (repeat' (split <;> try dsimp only)) <;> simp_all)); done) | ((repeat' split) <;> first | (simp; done) | (rw [resState_next]; apply State.instr_same_host; intros; (first | (simp; done) | (dsimp only; (repeat' (split <;> try dsimp only)) <;> simp_all)); done)), by first | (simp; done) | (rw [resState_next]; apply State.instr_same_boot; intros; (first | (simp; done) | (dsimp only; (repeat' (split <;> try dsimp only)) <;> simp_all)); done) | ((repeat' split) <;> first | (simp; done) | (rw [resState_next]; apply State.instr_same_boot; intros; (first | (simp; done) | (dsimp only; (repeat' (split <;> try dsimp only)) <;> simp_all)); done)), by first | (simp; done) | (rw [resState_next]; apply State.instr_same_free; intros; (first | (simp; done) | (dsimp only; (repeat' (split <;> try dsimp only)) <;> simp_all)); done) | ((repeat' split) <;> first | (simp; done) | (rw [resState_next]; apply State.instr_same_free; intros; (first | (simp; done) | (dsimp only; (repeat' (split <;> try dsimp only)) <;> simp_all)); done))⟩
@[simp] theorem execLifecycleRequest_same (a0 : Who) (a1 : Nat) (a2 : Nat) (a3 : State) :
    (resState a3 (execLifecycleRequest a0 a1 a2 a3)).pending = a3.pending ∧ (resState a3 (execLifecycleRequest a0 a1 a2 a3)).clk = a3.clk ∧
      (resState a3 (execLifecycleRequest a0 a1 a2 a3)).cores = a3.cores ∧ (resState a3 (execLifecycleRequest a0 a1 a2 a3)).net = a3.net ∧
      (resState a3 (execLifecycleRequest a0 a1 a2 a3)).vats = a3.vats ∧ (resState a3 (execLifecycleRequest a0 a1 a2 a3)).mem = a3.mem ∧
      (resState a3 (execLifecycleRequest a0 a1 a2 a3)).span = a3.span ∧ (resState a3 (execLifecycleRequest a0 a1 a2 a3)).host = a3.host ∧
      (resState a3 (execLifecycleRequest a0 a1 a2 a3)).free = a3.free := by
  unfold execLifecycleRequest; (repeat' split) <;> simp
@[simp] theorem execLifecycleRequest_kept (a0 : Who) (a1 : Nat) (a2 : Nat) (a3 : State) :
    (resState a3 (execLifecycleRequest a0 a1 a2 a3)).boot.flash = a3.boot.flash ∧
      (resState a3 (execLifecycleRequest a0 a1 a2 a3)).boot.flashBuf = a3.boot.flashBuf := by
  unfold execLifecycleRequest; (repeat' split) <;> simp
@[simp] theorem execLifecycleStrapSample_same (a0 : State) :
    (resState a0 (execLifecycleStrapSample a0)).pending = a0.pending ∧ (resState a0 (execLifecycleStrapSample a0)).clk = a0.clk ∧
      (resState a0 (execLifecycleStrapSample a0)).cores = a0.cores ∧ (resState a0 (execLifecycleStrapSample a0)).net = a0.net ∧
      (resState a0 (execLifecycleStrapSample a0)).vats = a0.vats ∧ (resState a0 (execLifecycleStrapSample a0)).mem = a0.mem ∧
      (resState a0 (execLifecycleStrapSample a0)).hub = a0.hub ∧ (resState a0 (execLifecycleStrapSample a0)).span = a0.span ∧
      (resState a0 (execLifecycleStrapSample a0)).host = a0.host ∧ (resState a0 (execLifecycleStrapSample a0)).pwr = a0.pwr ∧
      (resState a0 (execLifecycleStrapSample a0)).out = a0.out ∧ (resState a0 (execLifecycleStrapSample a0)).free = a0.free := by
  unfold execLifecycleStrapSample; (repeat' split) <;> simp
@[simp] theorem execLifecycleStrapSample_kept (a0 : State) :
    (resState a0 (execLifecycleStrapSample a0)).boot.flash = a0.boot.flash ∧
      (resState a0 (execLifecycleStrapSample a0)).boot.flashBuf = a0.boot.flashBuf := by
  unfold execLifecycleStrapSample; (repeat' split) <;> simp
@[simp] theorem execLinkDownFrame_same (a0 : Nat) (a1 : State) :
    (resState a1 (execLinkDownFrame a0 a1)).pending = a1.pending ∧ (resState a1 (execLinkDownFrame a0 a1)).clk = a1.clk ∧
      (resState a1 (execLinkDownFrame a0 a1)).cores = a1.cores ∧ (resState a1 (execLinkDownFrame a0 a1)).net = a1.net ∧
      (resState a1 (execLinkDownFrame a0 a1)).vats = a1.vats ∧ (resState a1 (execLinkDownFrame a0 a1)).mem = a1.mem ∧
      (resState a1 (execLinkDownFrame a0 a1)).host = a1.host ∧ (resState a1 (execLinkDownFrame a0 a1)).boot = a1.boot ∧
      (resState a1 (execLinkDownFrame a0 a1)).free = a1.free := by
  unfold execLinkDownFrame; rw [resState_next]; split <;> first | (rename_i hq; have hq' := State.takeFrame_same hq; split <;> simp_all; done) | simp
@[simp] theorem execLoadCheckComplete_same (a0 : Nat) (a1 : State) :
    (resState a1 (execLoadCheckComplete a0 a1)).pending = a1.pending ∧ (resState a1 (execLoadCheckComplete a0 a1)).clk = a1.clk ∧
      (resState a1 (execLoadCheckComplete a0 a1)).boot = a1.boot ∧ (resState a1 (execLoadCheckComplete a0 a1)).free = a1.free := by
  unfold execLoadCheckComplete; dsimp only; (repeat' (split <;> try dsimp only)) <;> simp_all
@[simp] theorem execLoadCheckComplete_wf_mem_stack (a0 : Nat) (a1 : State)  (hw : a1.mem.stack.wf = true) :
    (resState a1 (execLoadCheckComplete a0 a1)).mem.stack.wf = true := by
  unfold execLoadCheckComplete; dsimp only; (repeat' (split <;> try dsimp only)) <;> simp_all (maxDischargeDepth := 30)
@[simp] theorem execLoadFinish_same (a0 : Nat) (a1 : State) :
    (resState a1 (execLoadFinish a0 a1)).pending = a1.pending ∧ (resState a1 (execLoadFinish a0 a1)).clk = a1.clk ∧
      (resState a1 (execLoadFinish a0 a1)).boot = a1.boot ∧ (resState a1 (execLoadFinish a0 a1)).free = a1.free := by
  unfold execLoadFinish; dsimp only; (repeat' (split <;> try dsimp only)) <;> simp_all
@[simp] theorem execLoadFinish_wf_mem_stack (a0 : Nat) (a1 : State)  (hw : a1.mem.stack.wf = true) :
    (resState a1 (execLoadFinish a0 a1)).mem.stack.wf = true := by
  unfold execLoadFinish; dsimp only; (repeat' (split <;> try dsimp only)) <;> simp_all (maxDischargeDepth := 30)
@[simp] theorem execLoadFrameFetch_same (a0 : Nat) (a1 : Nat) (a2 : List Byte) (a3 : List Nat) (a4 : State) :
    (resState a4 (execLoadFrameFetch a0 a1 a2 a3 a4)).pending = a4.pending ∧ (resState a4 (execLoadFrameFetch a0 a1 a2 a3 a4)).clk = a4.clk ∧
      (resState a4 (execLoadFrameFetch a0 a1 a2 a3 a4)).boot = a4.boot ∧ (resState a4 (execLoadFrameFetch a0 a1 a2 a3 a4)).free = a4.free := by
  unfold execLoadFrameFetch; dsimp only; (repeat' (split <;> try dsimp only)) <;> simp_all
@[simp] theorem execLoadFrameFetch_wf_mem_stack (a0 : Nat) (a1 : Nat) (a2 : List Byte) (a3 : List Nat) (a4 : State)  (hw : a4.mem.stack.wf = true) :
    (resState a4 (execLoadFrameFetch a0 a1 a2 a3 a4)).mem.stack.wf = true := by
  unfold execLoadFrameFetch; extract_lets x; rw [resState_next]
  (repeat' (split <;> try extract_lets)) <;> first | exact hw | (simp only [State.setVat_same, State.modVat_same, State.raiseDeckle_same, State.putFrame_same, hw]; done) | (exact State.loadEnd_wf_mem_stack _ _ _ _ _ hw)
@[simp] theorem execLoadWriteComplete_same (a0 : Nat) (a1 : State) :
    (resState a1 (execLoadWriteComplete a0 a1)).pending = a1.pending ∧ (resState a1 (execLoadWriteComplete a0 a1)).clk = a1.clk ∧
      (resState a1 (execLoadWriteComplete a0 a1)).cores = a1.cores ∧ (resState a1 (execLoadWriteComplete a0 a1)).net = a1.net ∧
      (resState a1 (execLoadWriteComplete a0 a1)).mem = a1.mem ∧ (resState a1 (execLoadWriteComplete a0 a1)).hub = a1.hub ∧
      (resState a1 (execLoadWriteComplete a0 a1)).span = a1.span ∧ (resState a1 (execLoadWriteComplete a0 a1)).host = a1.host ∧
      (resState a1 (execLoadWriteComplete a0 a1)).pwr = a1.pwr ∧ (resState a1 (execLoadWriteComplete a0 a1)).boot = a1.boot ∧
      (resState a1 (execLoadWriteComplete a0 a1)).out = a1.out ∧ (resState a1 (execLoadWriteComplete a0 a1)).free = a1.free := by
  unfold execLoadWriteComplete; dsimp only; (repeat' (split <;> try dsimp only)) <;> simp_all
@[simp] theorem execLoop_same (a0 : Nat) (a1 : Nat) (a2 : State) :
    (resState a2 (execLoop a0 a1 a2)).pending = a2.pending ∧ (resState a2 (execLoop a0 a1 a2)).clk = a2.clk ∧
      (resState a2 (execLoop a0 a1 a2)).mem = a2.mem ∧ (resState a2 (execLoop a0 a1 a2)).host = a2.host ∧
      (resState a2 (execLoop a0 a1 a2)).boot = a2.boot ∧ (resState a2 (execLoop a0 a1 a2)).free = a2.free := by
  unfold execLoop; refine ⟨by first | (simp; done) | (rw [resState_next]; apply State.seInstr_same_pending; intros; (first | (simp; done) | (dsimp only; (repeat' (split <;> try dsimp only)) <;> simp_all)); done) | ((repeat' split) <;> first | (simp; done) | (rw [resState_next]; apply State.seInstr_same_pending; intros; (first | (simp; done) | (dsimp only; (repeat' (split <;> try dsimp only)) <;> simp_all)); done)), by first | (simp; done) | (rw [resState_next]; apply State.seInstr_same_clk; intros; (first | (simp; done) | (dsimp only; (repeat' (split <;> try dsimp only)) <;> simp_all)); done) | ((repeat' split) <;> first | (simp; done) | (rw [resState_next]; apply State.seInstr_same_clk; intros; (first | (simp; done) | (dsimp only; (repeat' (split <;> try dsimp only)) <;> simp_all)); done)), by first | (simp; done) | (rw [resState_next]; apply State.seInstr_same_mem; intros; (first | (simp; done) | (dsimp only; (repeat' (split <;> try dsimp only)) <;> simp_all)); done) | ((repeat' split) <;> first | (simp; done) | (rw [resState_next]; apply State.seInstr_same_mem; intros; (first | (simp; done) | (dsimp only; (repeat' (split <;> try dsimp only)) <;> simp_all)); done)), by first | (simp; done) | (rw [resState_next]; apply State.seInstr_same_host; intros; (first | (simp; done) | (dsimp only; (repeat' (split <;> try dsimp only)) <;> simp_all)); done) | ((repeat' split) <;> first | (simp; done) | (rw [resState_next]; apply State.seInstr_same_host; intros; (first | (simp; done) | (dsimp only; (repeat' (split <;> try dsimp only)) <;> simp_all)); done)), by first | (simp; done) | (rw [resState_next]; apply State.seInstr_same_boot; intros; (first | (simp; done) | (dsimp only; (repeat' (split <;> try dsimp only)) <;> simp_all)); done) | ((repeat' split) <;> first | (simp; done) | (rw [resState_next]; apply State.seInstr_same_boot; intros; (first | (simp; done) | (dsimp only; (repeat' (split <;> try dsimp only)) <;> simp_all)); done)), by first | (simp; done) | (rw [resState_next]; apply State.seInstr_same_free; intros; (first | (simp; done) | (dsimp only; (repeat' (split <;> try dsimp only)) <;> simp_all)); done) | ((repeat' split) <;> first | (simp; done) | (rw [resState_next]; apply State.seInstr_same_free; intros; (first | (simp; done) | (dsimp only; (repeat' (split <;> try dsimp only)) <;> simp_all)); done))⟩
@[simp] theorem execLoopm_same (a0 : Nat) (a1 : Nat) (a2 : State) :
    (resState a2 (execLoopm a0 a1 a2)).pending = a2.pending ∧ (resState a2 (execLoopm a0 a1 a2)).clk = a2.clk ∧
      (resState a2 (execLoopm a0 a1 a2)).mem = a2.mem ∧ (resState a2 (execLoopm a0 a1 a2)).host = a2.host ∧
      (resState a2 (execLoopm a0 a1 a2)).boot = a2.boot ∧ (resState a2 (execLoopm a0 a1 a2)).free = a2.free := by
  unfold execLoopm; refine ⟨by first | (simp; done) | (rw [resState_next]; apply State.seInstr_same_pending; intros; (first | (simp; done) | (dsimp only; (repeat' (split <;> try dsimp only)) <;> simp_all)); done) | ((repeat' split) <;> first | (simp; done) | (rw [resState_next]; apply State.seInstr_same_pending; intros; (first | (simp; done) | (dsimp only; (repeat' (split <;> try dsimp only)) <;> simp_all)); done)), by first | (simp; done) | (rw [resState_next]; apply State.seInstr_same_clk; intros; (first | (simp; done) | (dsimp only; (repeat' (split <;> try dsimp only)) <;> simp_all)); done) | ((repeat' split) <;> first | (simp; done) | (rw [resState_next]; apply State.seInstr_same_clk; intros; (first | (simp; done) | (dsimp only; (repeat' (split <;> try dsimp only)) <;> simp_all)); done)), by first | (simp; done) | (rw [resState_next]; apply State.seInstr_same_mem; intros; (first | (simp; done) | (dsimp only; (repeat' (split <;> try dsimp only)) <;> simp_all)); done) | ((repeat' split) <;> first | (simp; done) | (rw [resState_next]; apply State.seInstr_same_mem; intros; (first | (simp; done) | (dsimp only; (repeat' (split <;> try dsimp only)) <;> simp_all)); done)), by first | (simp; done) | (rw [resState_next]; apply State.seInstr_same_host; intros; (first | (simp; done) | (dsimp only; (repeat' (split <;> try dsimp only)) <;> simp_all)); done) | ((repeat' split) <;> first | (simp; done) | (rw [resState_next]; apply State.seInstr_same_host; intros; (first | (simp; done) | (dsimp only; (repeat' (split <;> try dsimp only)) <;> simp_all)); done)), by first | (simp; done) | (rw [resState_next]; apply State.seInstr_same_boot; intros; (first | (simp; done) | (dsimp only; (repeat' (split <;> try dsimp only)) <;> simp_all)); done) | ((repeat' split) <;> first | (simp; done) | (rw [resState_next]; apply State.seInstr_same_boot; intros; (first | (simp; done) | (dsimp only; (repeat' (split <;> try dsimp only)) <;> simp_all)); done)), by first | (simp; done) | (rw [resState_next]; apply State.seInstr_same_free; intros; (first | (simp; done) | (dsimp only; (repeat' (split <;> try dsimp only)) <;> simp_all)); done) | ((repeat' split) <;> first | (simp; done) | (rw [resState_next]; apply State.seInstr_same_free; intros; (first | (simp; done) | (dsimp only; (repeat' (split <;> try dsimp only)) <;> simp_all)); done))⟩
@[simp] theorem execLossOfSignal_same (a0 : Nat) (a1 : State) :
    (resState a1 (execLossOfSignal a0 a1)).pending = a1.pending ∧ (resState a1 (execLossOfSignal a0 a1)).clk = a1.clk ∧
      (resState a1 (execLossOfSignal a0 a1)).cores = a1.cores ∧ (resState a1 (execLossOfSignal a0 a1)).net = a1.net ∧
      (resState a1 (execLossOfSignal a0 a1)).vats = a1.vats ∧ (resState a1 (execLossOfSignal a0 a1)).mem = a1.mem ∧
      (resState a1 (execLossOfSignal a0 a1)).host = a1.host ∧ (resState a1 (execLossOfSignal a0 a1)).boot = a1.boot ∧
      (resState a1 (execLossOfSignal a0 a1)).free = a1.free := by
  unfold execLossOfSignal; (repeat' split) <;> simp
@[simp] theorem execLsi_same (a0 : Nat) (a1 : Guard) (a2 : Reg) (a3 : BitVec 15) (a4 : State) :
    (resState a4 (execLsi a0 a1 a2 a3 a4)).pending = a4.pending ∧ (resState a4 (execLsi a0 a1 a2 a3 a4)).clk = a4.clk ∧
      (resState a4 (execLsi a0 a1 a2 a3 a4)).mem = a4.mem ∧ (resState a4 (execLsi a0 a1 a2 a3 a4)).span = a4.span ∧
      (resState a4 (execLsi a0 a1 a2 a3 a4)).host = a4.host ∧ (resState a4 (execLsi a0 a1 a2 a3 a4)).boot = a4.boot ∧
      (resState a4 (execLsi a0 a1 a2 a3 a4)).free = a4.free := by
  unfold execLsi; refine ⟨by first | (simp; done) | (rw [resState_next]; apply State.instr_same_pending; intros; (first | (simp; done) | (dsimp only; (repeat' (split <;> try dsimp only)) <;> simp_all)); done) | ((repeat' split) <;> first | (simp; done) | (rw [resState_next]; apply State.instr_same_pending; intros; (first | (simp; done) | (dsimp only; (repeat' (split <;> try dsimp only)) <;> simp_all)); done)), by first | (simp; done) | (rw [resState_next]; apply State.instr_same_clk; intros; (first | (simp; done) | (dsimp only; (repeat' (split <;> try dsimp only)) <;> simp_all)); done) | ((repeat' split) <;> first | (simp; done) | (rw [resState_next]; apply State.instr_same_clk; intros; (first | (simp; done) | (dsimp only; (repeat' (split <;> try dsimp only)) <;> simp_all)); done)), by first | (simp; done) | (rw [resState_next]; apply State.instr_same_mem; intros; (first | (simp; done) | (dsimp only; (repeat' (split <;> try dsimp only)) <;> simp_all)); done) | ((repeat' split) <;> first | (simp; done) | (rw [resState_next]; apply State.instr_same_mem; intros; (first | (simp; done) | (dsimp only; (repeat' (split <;> try dsimp only)) <;> simp_all)); done)), by first | (simp; done) | (rw [resState_next]; apply State.instr_same_span; intros; (first | (simp; done) | (dsimp only; (repeat' (split <;> try dsimp only)) <;> simp_all)); done) | ((repeat' split) <;> first | (simp; done) | (rw [resState_next]; apply State.instr_same_span; intros; (first | (simp; done) | (dsimp only; (repeat' (split <;> try dsimp only)) <;> simp_all)); done)), by first | (simp; done) | (rw [resState_next]; apply State.instr_same_host; intros; (first | (simp; done) | (dsimp only; (repeat' (split <;> try dsimp only)) <;> simp_all)); done) | ((repeat' split) <;> first | (simp; done) | (rw [resState_next]; apply State.instr_same_host; intros; (first | (simp; done) | (dsimp only; (repeat' (split <;> try dsimp only)) <;> simp_all)); done)), by first | (simp; done) | (rw [resState_next]; apply State.instr_same_boot; intros; (first | (simp; done) | (dsimp only; (repeat' (split <;> try dsimp only)) <;> simp_all)); done) | ((repeat' split) <;> first | (simp; done) | (rw [resState_next]; apply State.instr_same_boot; intros; (first | (simp; done) | (dsimp only; (repeat' (split <;> try dsimp only)) <;> simp_all)); done)), by first | (simp; done) | (rw [resState_next]; apply State.instr_same_free; intros; (first | (simp; done) | (dsimp only; (repeat' (split <;> try dsimp only)) <;> simp_all)); done) | ((repeat' split) <;> first | (simp; done) | (rw [resState_next]; apply State.instr_same_free; intros; (first | (simp; done) | (dsimp only; (repeat' (split <;> try dsimp only)) <;> simp_all)); done))⟩
@[simp] theorem execMack_same (a0 : State) :
    (resState a0 (execMack a0)).pending = a0.pending ∧ (resState a0 (execMack a0)).clk = a0.clk ∧ (resState a0 (execMack a0)).cores = a0.cores ∧
      (resState a0 (execMack a0)).net = a0.net ∧ (resState a0 (execMack a0)).mem = a0.mem ∧ (resState a0 (execMack a0)).hub = a0.hub ∧
      (resState a0 (execMack a0)).host = a0.host ∧ (resState a0 (execMack a0)).pwr = a0.pwr ∧ (resState a0 (execMack a0)).boot = a0.boot ∧
      (resState a0 (execMack a0)).out = a0.out ∧ (resState a0 (execMack a0)).free = a0.free := by
  unfold execMack; dsimp only; split <;> first | (rename_i hq; have hq' := State.takeFrame_same hq; (repeat' (split <;> try dsimp only)) <;> simp_all; done) | (simp; done)
@[simp] theorem execMailboxAnswer_same (a0 : Nat) (a1 : ChMsg) (a2 : State) :
    (resState a2 (execMailboxAnswer a0 a1 a2)).pending = a2.pending ∧ (resState a2 (execMailboxAnswer a0 a1 a2)).clk = a2.clk ∧
      (resState a2 (execMailboxAnswer a0 a1 a2)).mem = a2.mem ∧ (resState a2 (execMailboxAnswer a0 a1 a2)).host = a2.host ∧
      (resState a2 (execMailboxAnswer a0 a1 a2)).boot = a2.boot ∧ (resState a2 (execMailboxAnswer a0 a1 a2)).free = a2.free := by
  unfold execMailboxAnswer; rw [resState_next]; refine ⟨by apply State.chanArrive_same_pending; intros; (repeat' split) <;> simp, by apply State.chanArrive_same_clk; intros; (repeat' split) <;> simp, by apply State.chanArrive_same_mem; intros; (repeat' split) <;> simp, by apply State.chanArrive_same_host; intros; (repeat' split) <;> simp, by apply State.chanArrive_same_boot; intros; (repeat' split) <;> simp, by apply State.chanArrive_same_free; intros; (repeat' split) <;> simp⟩
@[simp] theorem execMailboxClear_same (a0 : Nat) (a1 : Nat) (a2 : State) :
    (resState a2 (execMailboxClear a0 a1 a2)).pending = a2.pending ∧ (resState a2 (execMailboxClear a0 a1 a2)).clk = a2.clk ∧
      (resState a2 (execMailboxClear a0 a1 a2)).net = a2.net ∧ (resState a2 (execMailboxClear a0 a1 a2)).vats = a2.vats ∧
      (resState a2 (execMailboxClear a0 a1 a2)).mem = a2.mem ∧ (resState a2 (execMailboxClear a0 a1 a2)).hub = a2.hub ∧
      (resState a2 (execMailboxClear a0 a1 a2)).span = a2.span ∧ (resState a2 (execMailboxClear a0 a1 a2)).host = a2.host ∧
      (resState a2 (execMailboxClear a0 a1 a2)).pwr = a2.pwr ∧ (resState a2 (execMailboxClear a0 a1 a2)).boot = a2.boot ∧
      (resState a2 (execMailboxClear a0 a1 a2)).out = a2.out ∧ (resState a2 (execMailboxClear a0 a1 a2)).free = a2.free := by
  unfold execMailboxClear; (repeat' split) <;> simp
@[simp] theorem execMailboxMessage_same (a0 : Nat) (a1 : ChMsg) (a2 : State) :
    (resState a2 (execMailboxMessage a0 a1 a2)).pending = a2.pending ∧ (resState a2 (execMailboxMessage a0 a1 a2)).clk = a2.clk ∧
      (resState a2 (execMailboxMessage a0 a1 a2)).mem = a2.mem ∧ (resState a2 (execMailboxMessage a0 a1 a2)).host = a2.host ∧
      (resState a2 (execMailboxMessage a0 a1 a2)).boot = a2.boot ∧ (resState a2 (execMailboxMessage a0 a1 a2)).free = a2.free := by
  unfold execMailboxMessage; (repeat' split) <;> simp
@[simp] theorem execMatRingTestPass_same (a0 : Nat) (a1 : State) :
    (resState a1 (execMatRingTestPass a0 a1)).pending = a1.pending ∧ (resState a1 (execMatRingTestPass a0 a1)).clk = a1.clk ∧
      (resState a1 (execMatRingTestPass a0 a1)).mem = a1.mem ∧ (resState a1 (execMatRingTestPass a0 a1)).span = a1.span ∧
      (resState a1 (execMatRingTestPass a0 a1)).host = a1.host ∧ (resState a1 (execMatRingTestPass a0 a1)).boot = a1.boot ∧
      (resState a1 (execMatRingTestPass a0 a1)).free = a1.free := by
  unfold execMatRingTestPass; (repeat' split) <;> simp
@[simp] theorem execMatmul_same (a0 : Nat) (a1 : State) :
    (resState a1 (execMatmul a0 a1)).pending = a1.pending ∧ (resState a1 (execMatmul a0 a1)).clk = a1.clk ∧
      (resState a1 (execMatmul a0 a1)).mem = a1.mem ∧ (resState a1 (execMatmul a0 a1)).span = a1.span ∧
      (resState a1 (execMatmul a0 a1)).host = a1.host ∧ (resState a1 (execMatmul a0 a1)).boot = a1.boot ∧
      (resState a1 (execMatmul a0 a1)).free = a1.free := by
  unfold execMatmul; (repeat' split) <;> simp
@[simp] theorem execMatmulComplete_same (a0 : Nat) (a1 : State) :
    (resState a1 (execMatmulComplete a0 a1)).pending = a1.pending ∧ (resState a1 (execMatmulComplete a0 a1)).clk = a1.clk ∧
      (resState a1 (execMatmulComplete a0 a1)).mem = a1.mem ∧ (resState a1 (execMatmulComplete a0 a1)).span = a1.span ∧
      (resState a1 (execMatmulComplete a0 a1)).host = a1.host ∧ (resState a1 (execMatmulComplete a0 a1)).boot = a1.boot ∧
      (resState a1 (execMatmulComplete a0 a1)).free = a1.free := by
  unfold execMatmulComplete; dsimp only; (repeat' (split <;> try dsimp only)) <;> simp_all
@[simp] theorem execMatmulSp_same (a0 : Nat) (a1 : State) :
    (resState a1 (execMatmulSp a0 a1)).pending = a1.pending ∧ (resState a1 (execMatmulSp a0 a1)).clk = a1.clk ∧
      (resState a1 (execMatmulSp a0 a1)).mem = a1.mem ∧ (resState a1 (execMatmulSp a0 a1)).span = a1.span ∧
      (resState a1 (execMatmulSp a0 a1)).host = a1.host ∧ (resState a1 (execMatmulSp a0 a1)).boot = a1.boot ∧
      (resState a1 (execMatmulSp a0 a1)).free = a1.free := by
  unfold execMatmulSp; (repeat' split) <;> simp
@[simp] theorem execMax_same (a0 : Nat) (a1 : Guard) (a2 : Reg) (a3 : Reg) (a4 : Reg) (a5 : State) :
    (resState a5 (execMax a0 a1 a2 a3 a4 a5)).pending = a5.pending ∧ (resState a5 (execMax a0 a1 a2 a3 a4 a5)).clk = a5.clk ∧
      (resState a5 (execMax a0 a1 a2 a3 a4 a5)).mem = a5.mem ∧ (resState a5 (execMax a0 a1 a2 a3 a4 a5)).span = a5.span ∧
      (resState a5 (execMax a0 a1 a2 a3 a4 a5)).host = a5.host ∧ (resState a5 (execMax a0 a1 a2 a3 a4 a5)).boot = a5.boot ∧
      (resState a5 (execMax a0 a1 a2 a3 a4 a5)).free = a5.free := by
  unfold execMax; (repeat' split) <;> simp
@[simp] theorem execMaxu_same (a0 : Nat) (a1 : Guard) (a2 : Reg) (a3 : Reg) (a4 : Reg) (a5 : State) :
    (resState a5 (execMaxu a0 a1 a2 a3 a4 a5)).pending = a5.pending ∧ (resState a5 (execMaxu a0 a1 a2 a3 a4 a5)).clk = a5.clk ∧
      (resState a5 (execMaxu a0 a1 a2 a3 a4 a5)).mem = a5.mem ∧ (resState a5 (execMaxu a0 a1 a2 a3 a4 a5)).span = a5.span ∧
      (resState a5 (execMaxu a0 a1 a2 a3 a4 a5)).host = a5.host ∧ (resState a5 (execMaxu a0 a1 a2 a3 a4 a5)).boot = a5.boot ∧
      (resState a5 (execMaxu a0 a1 a2 a3 a4 a5)).free = a5.free := by
  unfold execMaxu; (repeat' split) <;> simp
@[simp] theorem execMclr_same (a0 : Nat) (a1 : Guard) (a2 : Reg) (a3 : BitVec 10) (a4 : State) :
    (resState a4 (execMclr a0 a1 a2 a3 a4)).pending = a4.pending ∧ (resState a4 (execMclr a0 a1 a2 a3 a4)).clk = a4.clk ∧
      (resState a4 (execMclr a0 a1 a2 a3 a4)).mem = a4.mem ∧ (resState a4 (execMclr a0 a1 a2 a3 a4)).span = a4.span ∧
      (resState a4 (execMclr a0 a1 a2 a3 a4)).host = a4.host ∧ (resState a4 (execMclr a0 a1 a2 a3 a4)).boot = a4.boot ∧
      (resState a4 (execMclr a0 a1 a2 a3 a4)).free = a4.free := by
  unfold execMclr; refine ⟨by first | (simp; done) | (rw [resState_next]; apply State.srInstr_same_pending; intros; (first | (simp; done) | (dsimp only; (repeat' (split <;> try dsimp only)) <;> simp_all)); done) | ((repeat' split) <;> first | (simp; done) | (rw [resState_next]; apply State.srInstr_same_pending; intros; (first | (simp; done) | (dsimp only; (repeat' (split <;> try dsimp only)) <;> simp_all)); done)), by first | (simp; done) | (rw [resState_next]; apply State.srInstr_same_clk; intros; (first | (simp; done) | (dsimp only; (repeat' (split <;> try dsimp only)) <;> simp_all)); done) | ((repeat' split) <;> first | (simp; done) | (rw [resState_next]; apply State.srInstr_same_clk; intros; (first | (simp; done) | (dsimp only; (repeat' (split <;> try dsimp only)) <;> simp_all)); done)), by first | (simp; done) | (rw [resState_next]; apply State.srInstr_same_mem; intros; (first | (simp; done) | (dsimp only; (repeat' (split <;> try dsimp only)) <;> simp_all)); done) | ((repeat' split) <;> first | (simp; done) | (rw [resState_next]; apply State.srInstr_same_mem; intros; (first | (simp; done) | (dsimp only; (repeat' (split <;> try dsimp only)) <;> simp_all)); done)), by first | (simp; done) | (rw [resState_next]; apply State.srInstr_same_span; intros; (first | (simp; done) | (dsimp only; (repeat' (split <;> try dsimp only)) <;> simp_all)); done) | ((repeat' split) <;> first | (simp; done) | (rw [resState_next]; apply State.srInstr_same_span; intros; (first | (simp; done) | (dsimp only; (repeat' (split <;> try dsimp only)) <;> simp_all)); done)), by first | (simp; done) | (rw [resState_next]; apply State.srInstr_same_host; intros; (first | (simp; done) | (dsimp only; (repeat' (split <;> try dsimp only)) <;> simp_all)); done) | ((repeat' split) <;> first | (simp; done) | (rw [resState_next]; apply State.srInstr_same_host; intros; (first | (simp; done) | (dsimp only; (repeat' (split <;> try dsimp only)) <;> simp_all)); done)), by first | (simp; done) | (rw [resState_next]; apply State.srInstr_same_boot; intros; (first | (simp; done) | (dsimp only; (repeat' (split <;> try dsimp only)) <;> simp_all)); done) | ((repeat' split) <;> first | (simp; done) | (rw [resState_next]; apply State.srInstr_same_boot; intros; (first | (simp; done) | (dsimp only; (repeat' (split <;> try dsimp only)) <;> simp_all)); done)), by first | (simp; done) | (rw [resState_next]; apply State.srInstr_same_free; intros; (first | (simp; done) | (dsimp only; (repeat' (split <;> try dsimp only)) <;> simp_all)); done) | ((repeat' split) <;> first | (simp; done) | (rw [resState_next]; apply State.srInstr_same_free; intros; (first | (simp; done) | (dsimp only; (repeat' (split <;> try dsimp only)) <;> simp_all)); done))⟩
@[simp] theorem execMctpReset_same (a0 : Bool) (a1 : State) :
    (resState a1 (execMctpReset a0 a1)).pending = a1.pending ∧ (resState a1 (execMctpReset a0 a1)).clk = a1.clk ∧
      (resState a1 (execMctpReset a0 a1)).cores = a1.cores ∧ (resState a1 (execMctpReset a0 a1)).net = a1.net ∧
      (resState a1 (execMctpReset a0 a1)).vats = a1.vats ∧ (resState a1 (execMctpReset a0 a1)).mem = a1.mem ∧
      (resState a1 (execMctpReset a0 a1)).hub = a1.hub ∧ (resState a1 (execMctpReset a0 a1)).span = a1.span ∧
      (resState a1 (execMctpReset a0 a1)).host = a1.host ∧ (resState a1 (execMctpReset a0 a1)).pwr = a1.pwr ∧
      (resState a1 (execMctpReset a0 a1)).out = a1.out ∧ (resState a1 (execMctpReset a0 a1)).free = a1.free := by
  unfold execMctpReset; (repeat' split) <;> simp
@[simp] theorem execMctpReset_kept (a0 : Bool) (a1 : State) :
    (resState a1 (execMctpReset a0 a1)).boot.flash = a1.boot.flash ∧ (resState a1 (execMctpReset a0 a1)).boot.flashBuf = a1.boot.flashBuf := by
  unfold execMctpReset; (repeat' split) <;> simp
@[simp] theorem execMemoryWindowRead_same (a0 : Nat) (a1 : Nat) (a2 : Nat) (a3 : State) :
    (resState a3 (execMemoryWindowRead a0 a1 a2 a3)).pending = a3.pending ∧ (resState a3 (execMemoryWindowRead a0 a1 a2 a3)).clk = a3.clk ∧
      (resState a3 (execMemoryWindowRead a0 a1 a2 a3)).net = a3.net ∧ (resState a3 (execMemoryWindowRead a0 a1 a2 a3)).span = a3.span ∧
      (resState a3 (execMemoryWindowRead a0 a1 a2 a3)).boot = a3.boot ∧ (resState a3 (execMemoryWindowRead a0 a1 a2 a3)).free = a3.free := by
  unfold execMemoryWindowRead; dsimp only; (repeat' (split <;> try dsimp only)) <;> simp_all
@[simp] theorem execMemoryWindowRead_kept (a0 : Nat) (a1 : Nat) (a2 : Nat) (a3 : State) :
    (resState a3 (execMemoryWindowRead a0 a1 a2 a3)).mem.stack = a3.mem.stack := by
  unfold execMemoryWindowRead; dsimp only; (repeat' (split <;> try dsimp only)) <;> simp_all
@[simp] theorem execMemoryWindowWrite_same (a0 : Nat) (a1 : Nat) (a2 : List Byte) (a3 : Bool) (a4 : State) :
    (resState a4 (execMemoryWindowWrite a0 a1 a2 a3 a4)).pending = a4.pending ∧ (resState a4 (execMemoryWindowWrite a0 a1 a2 a3 a4)).clk = a4.clk ∧
      (resState a4 (execMemoryWindowWrite a0 a1 a2 a3 a4)).net = a4.net ∧ (resState a4 (execMemoryWindowWrite a0 a1 a2 a3 a4)).boot = a4.boot ∧
      (resState a4 (execMemoryWindowWrite a0 a1 a2 a3 a4)).free = a4.free := by
  unfold execMemoryWindowWrite; dsimp only; (repeat' (split <;> try dsimp only)) <;> simp_all
@[simp] theorem execMemoryWindowWrite_wf_mem_stack (a0 : Nat) (a1 : Nat) (a2 : List Byte) (a3 : Bool) (a4 : State)  (hw : a4.mem.stack.wf = true) :
    (resState a4 (execMemoryWindowWrite a0 a1 a2 a3 a4)).mem.stack.wf = true := by
  unfold execMemoryWindowWrite; dsimp only; (repeat' (split <;> try dsimp only)) <;> simp_all (maxDischargeDepth := 30)
@[simp] theorem execMeshPacketRoute_same (a0 : Nat) (a1 : Nat) (a2 : Nat) (a3 : List Byte) (a4 : NetMarks) (a5 : State) :
    (resState a5 (execMeshPacketRoute a0 a1 a2 a3 a4 a5)).pending = a5.pending ∧
      (resState a5 (execMeshPacketRoute a0 a1 a2 a3 a4 a5)).clk = a5.clk ∧ (resState a5 (execMeshPacketRoute a0 a1 a2 a3 a4 a5)).cores = a5.cores ∧
      (resState a5 (execMeshPacketRoute a0 a1 a2 a3 a4 a5)).mem = a5.mem ∧ (resState a5 (execMeshPacketRoute a0 a1 a2 a3 a4 a5)).span = a5.span ∧
      (resState a5 (execMeshPacketRoute a0 a1 a2 a3 a4 a5)).host = a5.host ∧ (resState a5 (execMeshPacketRoute a0 a1 a2 a3 a4 a5)).boot = a5.boot ∧
      (resState a5 (execMeshPacketRoute a0 a1 a2 a3 a4 a5)).free = a5.free := by
  unfold execMeshPacketRoute; (repeat' split) <;> simp
@[simp] theorem execMfence_same (a0 : Nat) (a1 : Guard) (a2 : State) :
    (resState a2 (execMfence a0 a1 a2)).pending = a2.pending ∧ (resState a2 (execMfence a0 a1 a2)).clk = a2.clk ∧
      (resState a2 (execMfence a0 a1 a2)).mem = a2.mem ∧ (resState a2 (execMfence a0 a1 a2)).span = a2.span ∧
      (resState a2 (execMfence a0 a1 a2)).host = a2.host ∧ (resState a2 (execMfence a0 a1 a2)).boot = a2.boot ∧
      (resState a2 (execMfence a0 a1 a2)).free = a2.free := by
  unfold execMfence; refine ⟨by first | (simp; done) | (rw [resState_next]; apply State.instr_same_pending; intros; (first | (simp; done) | (dsimp only; (repeat' (split <;> try dsimp only)) <;> simp_all)); done) | ((repeat' split) <;> first | (simp; done) | (rw [resState_next]; apply State.instr_same_pending; intros; (first | (simp; done) | (dsimp only; (repeat' (split <;> try dsimp only)) <;> simp_all)); done)), by first | (simp; done) | (rw [resState_next]; apply State.instr_same_clk; intros; (first | (simp; done) | (dsimp only; (repeat' (split <;> try dsimp only)) <;> simp_all)); done) | ((repeat' split) <;> first | (simp; done) | (rw [resState_next]; apply State.instr_same_clk; intros; (first | (simp; done) | (dsimp only; (repeat' (split <;> try dsimp only)) <;> simp_all)); done)), by first | (simp; done) | (rw [resState_next]; apply State.instr_same_mem; intros; (first | (simp; done) | (dsimp only; (repeat' (split <;> try dsimp only)) <;> simp_all)); done) | ((repeat' split) <;> first | (simp; done) | (rw [resState_next]; apply State.instr_same_mem; intros; (first | (simp; done) | (dsimp only; (repeat' (split <;> try dsimp only)) <;> simp_all)); done)), by first | (simp; done) | (rw [resState_next]; apply State.instr_same_span; intros; (first | (simp; done) | (dsimp only; (repeat' (split <;> try dsimp only)) <;> simp_all)); done) | ((repeat' split) <;> first | (simp; done) | (rw [resState_next]; apply State.instr_same_span; intros; (first | (simp; done) | (dsimp only; (repeat' (split <;> try dsimp only)) <;> simp_all)); done)), by first | (simp; done) | (rw [resState_next]; apply State.instr_same_host; intros; (first | (simp; done) | (dsimp only; (repeat' (split <;> try dsimp only)) <;> simp_all)); done) | ((repeat' split) <;> first | (simp; done) | (rw [resState_next]; apply State.instr_same_host; intros; (first | (simp; done) | (dsimp only; (repeat' (split <;> try dsimp only)) <;> simp_all)); done)), by first | (simp; done) | (rw [resState_next]; apply State.instr_same_boot; intros; (first | (simp; done) | (dsimp only; (repeat' (split <;> try dsimp only)) <;> simp_all)); done) | ((repeat' split) <;> first | (simp; done) | (rw [resState_next]; apply State.instr_same_boot; intros; (first | (simp; done) | (dsimp only; (repeat' (split <;> try dsimp only)) <;> simp_all)); done)), by first | (simp; done) | (rw [resState_next]; apply State.instr_same_free; intros; (first | (simp; done) | (dsimp only; (repeat' (split <;> try dsimp only)) <;> simp_all)); done) | ((repeat' split) <;> first | (simp; done) | (rw [resState_next]; apply State.instr_same_free; intros; (first | (simp; done) | (dsimp only; (repeat' (split <;> try dsimp only)) <;> simp_all)); done))⟩
@[simp] theorem execMfenceComplete_same (a0 : Nat) (a1 : State) :
    (resState a1 (execMfenceComplete a0 a1)).pending = a1.pending ∧ (resState a1 (execMfenceComplete a0 a1)).clk = a1.clk ∧
      (resState a1 (execMfenceComplete a0 a1)).vats = a1.vats ∧ (resState a1 (execMfenceComplete a0 a1)).mem = a1.mem ∧
      (resState a1 (execMfenceComplete a0 a1)).span = a1.span ∧ (resState a1 (execMfenceComplete a0 a1)).host = a1.host ∧
      (resState a1 (execMfenceComplete a0 a1)).boot = a1.boot ∧ (resState a1 (execMfenceComplete a0 a1)).free = a1.free := by
  unfold execMfenceComplete; (repeat' split) <;> simp
@[simp] theorem execMfs_same (a0 : Nat) (a1 : Guard) (a2 : Reg) (a3 : BitVec 10) (a4 : State) :
    (resState a4 (execMfs a0 a1 a2 a3 a4)).pending = a4.pending ∧ (resState a4 (execMfs a0 a1 a2 a3 a4)).clk = a4.clk ∧
      (resState a4 (execMfs a0 a1 a2 a3 a4)).mem = a4.mem ∧ (resState a4 (execMfs a0 a1 a2 a3 a4)).span = a4.span ∧
      (resState a4 (execMfs a0 a1 a2 a3 a4)).host = a4.host ∧ (resState a4 (execMfs a0 a1 a2 a3 a4)).boot = a4.boot ∧
      (resState a4 (execMfs a0 a1 a2 a3 a4)).free = a4.free := by
  unfold execMfs; refine ⟨by first | (simp; done) | (rw [resState_next]; apply State.srInstr_same_pending; intros; (first | (simp; done) | (dsimp only; (repeat' (split <;> try dsimp only)) <;> simp_all)); done) | ((repeat' split) <;> first | (simp; done) | (rw [resState_next]; apply State.srInstr_same_pending; intros; (first | (simp; done) | (dsimp only; (repeat' (split <;> try dsimp only)) <;> simp_all)); done)), by first | (simp; done) | (rw [resState_next]; apply State.srInstr_same_clk; intros; (first | (simp; done) | (dsimp only; (repeat' (split <;> try dsimp only)) <;> simp_all)); done) | ((repeat' split) <;> first | (simp; done) | (rw [resState_next]; apply State.srInstr_same_clk; intros; (first | (simp; done) | (dsimp only; (repeat' (split <;> try dsimp only)) <;> simp_all)); done)), by first | (simp; done) | (rw [resState_next]; apply State.srInstr_same_mem; intros; (first | (simp; done) | (dsimp only; (repeat' (split <;> try dsimp only)) <;> simp_all)); done) | ((repeat' split) <;> first | (simp; done) | (rw [resState_next]; apply State.srInstr_same_mem; intros; (first | (simp; done) | (dsimp only; (repeat' (split <;> try dsimp only)) <;> simp_all)); done)), by first | (simp; done) | (rw [resState_next]; apply State.srInstr_same_span; intros; (first | (simp; done) | (dsimp only; (repeat' (split <;> try dsimp only)) <;> simp_all)); done) | ((repeat' split) <;> first | (simp; done) | (rw [resState_next]; apply State.srInstr_same_span; intros; (first | (simp; done) | (dsimp only; (repeat' (split <;> try dsimp only)) <;> simp_all)); done)), by first | (simp; done) | (rw [resState_next]; apply State.srInstr_same_host; intros; (first | (simp; done) | (dsimp only; (repeat' (split <;> try dsimp only)) <;> simp_all)); done) | ((repeat' split) <;> first | (simp; done) | (rw [resState_next]; apply State.srInstr_same_host; intros; (first | (simp; done) | (dsimp only; (repeat' (split <;> try dsimp only)) <;> simp_all)); done)), by first | (simp; done) | (rw [resState_next]; apply State.srInstr_same_boot; intros; (first | (simp; done) | (dsimp only; (repeat' (split <;> try dsimp only)) <;> simp_all)); done) | ((repeat' split) <;> first | (simp; done) | (rw [resState_next]; apply State.srInstr_same_boot; intros; (first | (simp; done) | (dsimp only; (repeat' (split <;> try dsimp only)) <;> simp_all)); done)), by first | (simp; done) | (rw [resState_next]; apply State.srInstr_same_free; intros; (first | (simp; done) | (dsimp only; (repeat' (split <;> try dsimp only)) <;> simp_all)); done) | ((repeat' split) <;> first | (simp; done) | (rw [resState_next]; apply State.srInstr_same_free; intros; (first | (simp; done) | (dsimp only; (repeat' (split <;> try dsimp only)) <;> simp_all)); done))⟩
@[simp] theorem execMin_same (a0 : Nat) (a1 : Guard) (a2 : Reg) (a3 : Reg) (a4 : Reg) (a5 : State) :
    (resState a5 (execMin a0 a1 a2 a3 a4 a5)).pending = a5.pending ∧ (resState a5 (execMin a0 a1 a2 a3 a4 a5)).clk = a5.clk ∧
      (resState a5 (execMin a0 a1 a2 a3 a4 a5)).mem = a5.mem ∧ (resState a5 (execMin a0 a1 a2 a3 a4 a5)).span = a5.span ∧
      (resState a5 (execMin a0 a1 a2 a3 a4 a5)).host = a5.host ∧ (resState a5 (execMin a0 a1 a2 a3 a4 a5)).boot = a5.boot ∧
      (resState a5 (execMin a0 a1 a2 a3 a4 a5)).free = a5.free := by
  unfold execMin; (repeat' split) <;> simp
@[simp] theorem execMinu_same (a0 : Nat) (a1 : Guard) (a2 : Reg) (a3 : Reg) (a4 : Reg) (a5 : State) :
    (resState a5 (execMinu a0 a1 a2 a3 a4 a5)).pending = a5.pending ∧ (resState a5 (execMinu a0 a1 a2 a3 a4 a5)).clk = a5.clk ∧
      (resState a5 (execMinu a0 a1 a2 a3 a4 a5)).mem = a5.mem ∧ (resState a5 (execMinu a0 a1 a2 a3 a4 a5)).span = a5.span ∧
      (resState a5 (execMinu a0 a1 a2 a3 a4 a5)).host = a5.host ∧ (resState a5 (execMinu a0 a1 a2 a3 a4 a5)).boot = a5.boot ∧
      (resState a5 (execMinu a0 a1 a2 a3 a4 a5)).free = a5.free := by
  unfold execMinu; (repeat' split) <;> simp
@[simp] theorem execModuleStart_same (a0 : Nat) (a1 : Nat) (a2 : Nat) (a3 : State) :
    (resState a3 (execModuleStart a0 a1 a2 a3)).pending = a3.pending ∧ (resState a3 (execModuleStart a0 a1 a2 a3)).out = a3.out ∧
      (resState a3 (execModuleStart a0 a1 a2 a3)).free = a3.free := by
  unfold execModuleStart; (repeat' split) <;> simp
@[simp] theorem execModuleStart_kept (a0 : Nat) (a1 : Nat) (a2 : Nat) (a3 : State) :
    (resState a3 (execModuleStart a0 a1 a2 a3)).boot.flash = a3.boot.flash := by
  unfold execModuleStart; (repeat' split) <;> simp
@[simp] theorem execModuleStart_wf_mem_stack (a0 : Nat) (a1 : Nat) (a2 : Nat) (a3 : State)  (hw : a3.mem.stack.wf = true) :
    (resState a3 (execModuleStart a0 a1 a2 a3)).mem.stack.wf = true := by
  unfold execModuleStart; (repeat' split) <;> simp_all (maxDischargeDepth := 30)
@[simp] theorem execModuleStart_wf_boot_flashBuf (a0 : Nat) (a1 : Nat) (a2 : Nat) (a3 : State)  (hw : a3.boot.flashBuf.wf = true) :
    (resState a3 (execModuleStart a0 a1 a2 a3)).boot.flashBuf.wf = true := by
  unfold execModuleStart; (repeat' split) <;> simp_all (maxDischargeDepth := 30)
@[simp] theorem execModuleStop_same (a0 : Nat) (a1 : Bool) (a2 : Nat) (a3 : State) :
    (resState a3 (execModuleStop a0 a1 a2 a3)).pending = a3.pending ∧ (resState a3 (execModuleStop a0 a1 a2 a3)).out = a3.out ∧
      (resState a3 (execModuleStop a0 a1 a2 a3)).free = a3.free := by
  unfold execModuleStop; (repeat' split) <;> simp
@[simp] theorem execModuleStop_kept (a0 : Nat) (a1 : Bool) (a2 : Nat) (a3 : State) :
    (resState a3 (execModuleStop a0 a1 a2 a3)).boot.flash = a3.boot.flash := by
  unfold execModuleStop; (repeat' split) <;> simp
@[simp] theorem execModuleStop_wf_mem_stack (a0 : Nat) (a1 : Bool) (a2 : Nat) (a3 : State)  (hw : a3.mem.stack.wf = true) :
    (resState a3 (execModuleStop a0 a1 a2 a3)).mem.stack.wf = true := by
  unfold execModuleStop; (repeat' split) <;> simp_all (maxDischargeDepth := 30)
@[simp] theorem execModuleStop_wf_boot_flashBuf (a0 : Nat) (a1 : Bool) (a2 : Nat) (a3 : State)  (hw : a3.boot.flashBuf.wf = true) :
    (resState a3 (execModuleStop a0 a1 a2 a3)).boot.flashBuf.wf = true := by
  unfold execModuleStop; (repeat' split) <;> simp_all (maxDischargeDepth := 30)
@[simp] theorem execMov_same (a0 : Nat) (a1 : Nat) (a2 : State) :
    (resState a2 (execMov a0 a1 a2)).pending = a2.pending ∧ (resState a2 (execMov a0 a1 a2)).clk = a2.clk ∧
      (resState a2 (execMov a0 a1 a2)).mem = a2.mem ∧ (resState a2 (execMov a0 a1 a2)).host = a2.host ∧
      (resState a2 (execMov a0 a1 a2)).boot = a2.boot ∧ (resState a2 (execMov a0 a1 a2)).free = a2.free := by
  unfold execMov; refine ⟨by first | (simp; done) | (rw [resState_next]; apply State.seInstr_same_pending; intros; (first | (simp; done) | (dsimp only; (repeat' (split <;> try dsimp only)) <;> simp_all)); done) | ((repeat' split) <;> first | (simp; done) | (rw [resState_next]; apply State.seInstr_same_pending; intros; (first | (simp; done) | (dsimp only; (repeat' (split <;> try dsimp only)) <;> simp_all)); done)), by first | (simp; done) | (rw [resState_next]; apply State.seInstr_same_clk; intros; (first | (simp; done) | (dsimp only; (repeat' (split <;> try dsimp only)) <;> simp_all)); done) | ((repeat' split) <;> first | (simp; done) | (rw [resState_next]; apply State.seInstr_same_clk; intros; (first | (simp; done) | (dsimp only; (repeat' (split <;> try dsimp only)) <;> simp_all)); done)), by first | (simp; done) | (rw [resState_next]; apply State.seInstr_same_mem; intros; (first | (simp; done) | (dsimp only; (repeat' (split <;> try dsimp only)) <;> simp_all)); done) | ((repeat' split) <;> first | (simp; done) | (rw [resState_next]; apply State.seInstr_same_mem; intros; (first | (simp; done) | (dsimp only; (repeat' (split <;> try dsimp only)) <;> simp_all)); done)), by first | (simp; done) | (rw [resState_next]; apply State.seInstr_same_host; intros; (first | (simp; done) | (dsimp only; (repeat' (split <;> try dsimp only)) <;> simp_all)); done) | ((repeat' split) <;> first | (simp; done) | (rw [resState_next]; apply State.seInstr_same_host; intros; (first | (simp; done) | (dsimp only; (repeat' (split <;> try dsimp only)) <;> simp_all)); done)), by first | (simp; done) | (rw [resState_next]; apply State.seInstr_same_boot; intros; (first | (simp; done) | (dsimp only; (repeat' (split <;> try dsimp only)) <;> simp_all)); done) | ((repeat' split) <;> first | (simp; done) | (rw [resState_next]; apply State.seInstr_same_boot; intros; (first | (simp; done) | (dsimp only; (repeat' (split <;> try dsimp only)) <;> simp_all)); done)), by first | (simp; done) | (rw [resState_next]; apply State.seInstr_same_free; intros; (first | (simp; done) | (dsimp only; (repeat' (split <;> try dsimp only)) <;> simp_all)); done) | ((repeat' split) <;> first | (simp; done) | (rw [resState_next]; apply State.seInstr_same_free; intros; (first | (simp; done) | (dsimp only; (repeat' (split <;> try dsimp only)) <;> simp_all)); done))⟩
@[simp] theorem execMrec_same (a0 : State) :
    (resState a0 (execMrec a0)).pending = a0.pending ∧ (resState a0 (execMrec a0)).clk = a0.clk ∧ (resState a0 (execMrec a0)).cores = a0.cores ∧
      (resState a0 (execMrec a0)).net = a0.net ∧ (resState a0 (execMrec a0)).hub = a0.hub ∧ (resState a0 (execMrec a0)).host = a0.host ∧
      (resState a0 (execMrec a0)).pwr = a0.pwr ∧ (resState a0 (execMrec a0)).boot = a0.boot ∧ (resState a0 (execMrec a0)).out = a0.out := by
  unfold execMrec; dsimp only; split <;> first | (rename_i hq; have hq' := State.takeFrame_same hq; (repeat' (split <;> try dsimp only)) <;> simp_all; done) | (simp; done)
@[simp] theorem execMrec_wf_mem_stack (a0 : State)  (hw : a0.mem.stack.wf = true) :
    (resState a0 (execMrec a0)).mem.stack.wf = true := by
  unfold execMrec; dsimp only; split <;> first | (rename_i hq; have hq' := State.takeFrame_same hq; (repeat' (split <;> try dsimp only)) <;> simp_all (maxDischargeDepth := 30); done) | (simp (maxDischargeDepth := 30); done) | (simp_all (maxDischargeDepth := 30); done)
@[simp] theorem execMset_same (a0 : Nat) (a1 : Guard) (a2 : Reg) (a3 : BitVec 10) (a4 : State) :
    (resState a4 (execMset a0 a1 a2 a3 a4)).pending = a4.pending ∧ (resState a4 (execMset a0 a1 a2 a3 a4)).clk = a4.clk ∧
      (resState a4 (execMset a0 a1 a2 a3 a4)).mem = a4.mem ∧ (resState a4 (execMset a0 a1 a2 a3 a4)).span = a4.span ∧
      (resState a4 (execMset a0 a1 a2 a3 a4)).host = a4.host ∧ (resState a4 (execMset a0 a1 a2 a3 a4)).boot = a4.boot ∧
      (resState a4 (execMset a0 a1 a2 a3 a4)).free = a4.free := by
  unfold execMset; refine ⟨by first | (simp; done) | (rw [resState_next]; apply State.srInstr_same_pending; intros; (first | (simp; done) | (dsimp only; (repeat' (split <;> try dsimp only)) <;> simp_all)); done) | ((repeat' split) <;> first | (simp; done) | (rw [resState_next]; apply State.srInstr_same_pending; intros; (first | (simp; done) | (dsimp only; (repeat' (split <;> try dsimp only)) <;> simp_all)); done)), by first | (simp; done) | (rw [resState_next]; apply State.srInstr_same_clk; intros; (first | (simp; done) | (dsimp only; (repeat' (split <;> try dsimp only)) <;> simp_all)); done) | ((repeat' split) <;> first | (simp; done) | (rw [resState_next]; apply State.srInstr_same_clk; intros; (first | (simp; done) | (dsimp only; (repeat' (split <;> try dsimp only)) <;> simp_all)); done)), by first | (simp; done) | (rw [resState_next]; apply State.srInstr_same_mem; intros; (first | (simp; done) | (dsimp only; (repeat' (split <;> try dsimp only)) <;> simp_all)); done) | ((repeat' split) <;> first | (simp; done) | (rw [resState_next]; apply State.srInstr_same_mem; intros; (first | (simp; done) | (dsimp only; (repeat' (split <;> try dsimp only)) <;> simp_all)); done)), by first | (simp; done) | (rw [resState_next]; apply State.srInstr_same_span; intros; (first | (simp; done) | (dsimp only; (repeat' (split <;> try dsimp only)) <;> simp_all)); done) | ((repeat' split) <;> first | (simp; done) | (rw [resState_next]; apply State.srInstr_same_span; intros; (first | (simp; done) | (dsimp only; (repeat' (split <;> try dsimp only)) <;> simp_all)); done)), by first | (simp; done) | (rw [resState_next]; apply State.srInstr_same_host; intros; (first | (simp; done) | (dsimp only; (repeat' (split <;> try dsimp only)) <;> simp_all)); done) | ((repeat' split) <;> first | (simp; done) | (rw [resState_next]; apply State.srInstr_same_host; intros; (first | (simp; done) | (dsimp only; (repeat' (split <;> try dsimp only)) <;> simp_all)); done)), by first | (simp; done) | (rw [resState_next]; apply State.srInstr_same_boot; intros; (first | (simp; done) | (dsimp only; (repeat' (split <;> try dsimp only)) <;> simp_all)); done) | ((repeat' split) <;> first | (simp; done) | (rw [resState_next]; apply State.srInstr_same_boot; intros; (first | (simp; done) | (dsimp only; (repeat' (split <;> try dsimp only)) <;> simp_all)); done)), by first | (simp; done) | (rw [resState_next]; apply State.srInstr_same_free; intros; (first | (simp; done) | (dsimp only; (repeat' (split <;> try dsimp only)) <;> simp_all)); done) | ((repeat' split) <;> first | (simp; done) | (rw [resState_next]; apply State.srInstr_same_free; intros; (first | (simp; done) | (dsimp only; (repeat' (split <;> try dsimp only)) <;> simp_all)); done))⟩
@[simp] theorem execMts_same (a0 : Nat) (a1 : Guard) (a2 : Reg) (a3 : BitVec 10) (a4 : State) :
    (resState a4 (execMts a0 a1 a2 a3 a4)).pending = a4.pending ∧ (resState a4 (execMts a0 a1 a2 a3 a4)).clk = a4.clk ∧
      (resState a4 (execMts a0 a1 a2 a3 a4)).mem = a4.mem ∧ (resState a4 (execMts a0 a1 a2 a3 a4)).span = a4.span ∧
      (resState a4 (execMts a0 a1 a2 a3 a4)).host = a4.host ∧ (resState a4 (execMts a0 a1 a2 a3 a4)).boot = a4.boot ∧
      (resState a4 (execMts a0 a1 a2 a3 a4)).free = a4.free := by
  unfold execMts; refine ⟨by first | (simp; done) | (rw [resState_next]; apply State.srInstr_same_pending; intros; (first | (simp; done) | (dsimp only; (repeat' (split <;> try dsimp only)) <;> simp_all)); done) | ((repeat' split) <;> first | (simp; done) | (rw [resState_next]; apply State.srInstr_same_pending; intros; (first | (simp; done) | (dsimp only; (repeat' (split <;> try dsimp only)) <;> simp_all)); done)), by first | (simp; done) | (rw [resState_next]; apply State.srInstr_same_clk; intros; (first | (simp; done) | (dsimp only; (repeat' (split <;> try dsimp only)) <;> simp_all)); done) | ((repeat' split) <;> first | (simp; done) | (rw [resState_next]; apply State.srInstr_same_clk; intros; (first | (simp; done) | (dsimp only; (repeat' (split <;> try dsimp only)) <;> simp_all)); done)), by first | (simp; done) | (rw [resState_next]; apply State.srInstr_same_mem; intros; (first | (simp; done) | (dsimp only; (repeat' (split <;> try dsimp only)) <;> simp_all)); done) | ((repeat' split) <;> first | (simp; done) | (rw [resState_next]; apply State.srInstr_same_mem; intros; (first | (simp; done) | (dsimp only; (repeat' (split <;> try dsimp only)) <;> simp_all)); done)), by first | (simp; done) | (rw [resState_next]; apply State.srInstr_same_span; intros; (first | (simp; done) | (dsimp only; (repeat' (split <;> try dsimp only)) <;> simp_all)); done) | ((repeat' split) <;> first | (simp; done) | (rw [resState_next]; apply State.srInstr_same_span; intros; (first | (simp; done) | (dsimp only; (repeat' (split <;> try dsimp only)) <;> simp_all)); done)), by first | (simp; done) | (rw [resState_next]; apply State.srInstr_same_host; intros; (first | (simp; done) | (dsimp only; (repeat' (split <;> try dsimp only)) <;> simp_all)); done) | ((repeat' split) <;> first | (simp; done) | (rw [resState_next]; apply State.srInstr_same_host; intros; (first | (simp; done) | (dsimp only; (repeat' (split <;> try dsimp only)) <;> simp_all)); done)), by first | (simp; done) | (rw [resState_next]; apply State.srInstr_same_boot; intros; (first | (simp; done) | (dsimp only; (repeat' (split <;> try dsimp only)) <;> simp_all)); done) | ((repeat' split) <;> first | (simp; done) | (rw [resState_next]; apply State.srInstr_same_boot; intros; (first | (simp; done) | (dsimp only; (repeat' (split <;> try dsimp only)) <;> simp_all)); done)), by first | (simp; done) | (rw [resState_next]; apply State.srInstr_same_free; intros; (first | (simp; done) | (dsimp only; (repeat' (split <;> try dsimp only)) <;> simp_all)); done) | ((repeat' split) <;> first | (simp; done) | (rw [resState_next]; apply State.srInstr_same_free; intros; (first | (simp; done) | (dsimp only; (repeat' (split <;> try dsimp only)) <;> simp_all)); done))⟩
@[simp] theorem execMul_same (a0 : Nat) (a1 : Guard) (a2 : Reg) (a3 : Reg) (a4 : Reg) (a5 : State) :
    (resState a5 (execMul a0 a1 a2 a3 a4 a5)).pending = a5.pending ∧ (resState a5 (execMul a0 a1 a2 a3 a4 a5)).clk = a5.clk ∧
      (resState a5 (execMul a0 a1 a2 a3 a4 a5)).mem = a5.mem ∧ (resState a5 (execMul a0 a1 a2 a3 a4 a5)).span = a5.span ∧
      (resState a5 (execMul a0 a1 a2 a3 a4 a5)).host = a5.host ∧ (resState a5 (execMul a0 a1 a2 a3 a4 a5)).boot = a5.boot ∧
      (resState a5 (execMul a0 a1 a2 a3 a4 a5)).free = a5.free := by
  unfold execMul; (repeat' split) <;> simp
@[simp] theorem execMulh_same (a0 : Nat) (a1 : Guard) (a2 : Reg) (a3 : Reg) (a4 : Reg) (a5 : State) :
    (resState a5 (execMulh a0 a1 a2 a3 a4 a5)).pending = a5.pending ∧ (resState a5 (execMulh a0 a1 a2 a3 a4 a5)).clk = a5.clk ∧
      (resState a5 (execMulh a0 a1 a2 a3 a4 a5)).mem = a5.mem ∧ (resState a5 (execMulh a0 a1 a2 a3 a4 a5)).span = a5.span ∧
      (resState a5 (execMulh a0 a1 a2 a3 a4 a5)).host = a5.host ∧ (resState a5 (execMulh a0 a1 a2 a3 a4 a5)).boot = a5.boot ∧
      (resState a5 (execMulh a0 a1 a2 a3 a4 a5)).free = a5.free := by
  unfold execMulh; (repeat' split) <;> simp
@[simp] theorem execMulhu_same (a0 : Nat) (a1 : Guard) (a2 : Reg) (a3 : Reg) (a4 : Reg) (a5 : State) :
    (resState a5 (execMulhu a0 a1 a2 a3 a4 a5)).pending = a5.pending ∧ (resState a5 (execMulhu a0 a1 a2 a3 a4 a5)).clk = a5.clk ∧
      (resState a5 (execMulhu a0 a1 a2 a3 a4 a5)).mem = a5.mem ∧ (resState a5 (execMulhu a0 a1 a2 a3 a4 a5)).span = a5.span ∧
      (resState a5 (execMulhu a0 a1 a2 a3 a4 a5)).host = a5.host ∧ (resState a5 (execMulhu a0 a1 a2 a3 a4 a5)).boot = a5.boot ∧
      (resState a5 (execMulhu a0 a1 a2 a3 a4 a5)).free = a5.free := by
  unfold execMulhu; (repeat' split) <;> simp
@[simp] theorem execMwrite_same (a0 : State) :
    (resState a0 (execMwrite a0)).pending = a0.pending ∧ (resState a0 (execMwrite a0)).clk = a0.clk ∧
      (resState a0 (execMwrite a0)).cores = a0.cores ∧ (resState a0 (execMwrite a0)).net = a0.net ∧ (resState a0 (execMwrite a0)).hub = a0.hub ∧
      (resState a0 (execMwrite a0)).host = a0.host ∧ (resState a0 (execMwrite a0)).pwr = a0.pwr ∧ (resState a0 (execMwrite a0)).boot = a0.boot ∧
      (resState a0 (execMwrite a0)).out = a0.out := by
  unfold execMwrite; dsimp only; split <;> first | (rename_i hq; have hq' := State.takeFrame_same hq; (repeat' (split <;> try dsimp only)) <;> simp_all; done) | (simp; done)
@[simp] theorem execMwrite_wf_mem_stack (a0 : State)  (hw : a0.mem.stack.wf = true) :
    (resState a0 (execMwrite a0)).mem.stack.wf = true := by
  unfold execMwrite; dsimp only; split <;> first | (rename_i hq; have hq' := State.takeFrame_same hq; (repeat' (split <;> try dsimp only)) <;> simp_all (maxDischargeDepth := 30); done) | (simp (maxDischargeDepth := 30); done) | (simp_all (maxDischargeDepth := 30); done)
@[simp] theorem execNop_same (a0 : Nat) (a1 : Guard) (a2 : State) :
    (resState a2 (execNop a0 a1 a2)).pending = a2.pending ∧ (resState a2 (execNop a0 a1 a2)).clk = a2.clk ∧
      (resState a2 (execNop a0 a1 a2)).mem = a2.mem ∧ (resState a2 (execNop a0 a1 a2)).span = a2.span ∧
      (resState a2 (execNop a0 a1 a2)).host = a2.host ∧ (resState a2 (execNop a0 a1 a2)).boot = a2.boot ∧
      (resState a2 (execNop a0 a1 a2)).free = a2.free := by
  unfold execNop; refine ⟨by first | (simp; done) | (rw [resState_next]; apply State.instr_same_pending; intros; (first | (simp; done) | (dsimp only; (repeat' (split <;> try dsimp only)) <;> simp_all)); done) | ((repeat' split) <;> first | (simp; done) | (rw [resState_next]; apply State.instr_same_pending; intros; (first | (simp; done) | (dsimp only; (repeat' (split <;> try dsimp only)) <;> simp_all)); done)), by first | (simp; done) | (rw [resState_next]; apply State.instr_same_clk; intros; (first | (simp; done) | (dsimp only; (repeat' (split <;> try dsimp only)) <;> simp_all)); done) | ((repeat' split) <;> first | (simp; done) | (rw [resState_next]; apply State.instr_same_clk; intros; (first | (simp; done) | (dsimp only; (repeat' (split <;> try dsimp only)) <;> simp_all)); done)), by first | (simp; done) | (rw [resState_next]; apply State.instr_same_mem; intros; (first | (simp; done) | (dsimp only; (repeat' (split <;> try dsimp only)) <;> simp_all)); done) | ((repeat' split) <;> first | (simp; done) | (rw [resState_next]; apply State.instr_same_mem; intros; (first | (simp; done) | (dsimp only; (repeat' (split <;> try dsimp only)) <;> simp_all)); done)), by first | (simp; done) | (rw [resState_next]; apply State.instr_same_span; intros; (first | (simp; done) | (dsimp only; (repeat' (split <;> try dsimp only)) <;> simp_all)); done) | ((repeat' split) <;> first | (simp; done) | (rw [resState_next]; apply State.instr_same_span; intros; (first | (simp; done) | (dsimp only; (repeat' (split <;> try dsimp only)) <;> simp_all)); done)), by first | (simp; done) | (rw [resState_next]; apply State.instr_same_host; intros; (first | (simp; done) | (dsimp only; (repeat' (split <;> try dsimp only)) <;> simp_all)); done) | ((repeat' split) <;> first | (simp; done) | (rw [resState_next]; apply State.instr_same_host; intros; (first | (simp; done) | (dsimp only; (repeat' (split <;> try dsimp only)) <;> simp_all)); done)), by first | (simp; done) | (rw [resState_next]; apply State.instr_same_boot; intros; (first | (simp; done) | (dsimp only; (repeat' (split <;> try dsimp only)) <;> simp_all)); done) | ((repeat' split) <;> first | (simp; done) | (rw [resState_next]; apply State.instr_same_boot; intros; (first | (simp; done) | (dsimp only; (repeat' (split <;> try dsimp only)) <;> simp_all)); done)), by first | (simp; done) | (rw [resState_next]; apply State.instr_same_free; intros; (first | (simp; done) | (dsimp only; (repeat' (split <;> try dsimp only)) <;> simp_all)); done) | ((repeat' split) <;> first | (simp; done) | (rw [resState_next]; apply State.instr_same_free; intros; (first | (simp; done) | (dsimp only; (repeat' (split <;> try dsimp only)) <;> simp_all)); done))⟩
@[simp] theorem execOpenChan_same (a0 : Nat) (a1 : State) :
    (resState a1 (execOpenChan a0 a1)).pending = a1.pending ∧ (resState a1 (execOpenChan a0 a1)).clk = a1.clk ∧
      (resState a1 (execOpenChan a0 a1)).vats = a1.vats ∧ (resState a1 (execOpenChan a0 a1)).mem = a1.mem ∧
      (resState a1 (execOpenChan a0 a1)).host = a1.host ∧ (resState a1 (execOpenChan a0 a1)).boot = a1.boot ∧
      (resState a1 (execOpenChan a0 a1)).free = a1.free := by
  unfold execOpenChan; refine ⟨by first | (simp; done) | (rw [resState_next]; apply State.chnAccept_same_pending; intros; (first | (simp; done) | (dsimp only; (repeat' (split <;> try dsimp only)) <;> simp_all)); done) | ((repeat' split) <;> first | (simp; done) | (rw [resState_next]; apply State.chnAccept_same_pending; intros; (first | (simp; done) | (dsimp only; (repeat' (split <;> try dsimp only)) <;> simp_all)); done)), by first | (simp; done) | (rw [resState_next]; apply State.chnAccept_same_clk; intros; (first | (simp; done) | (dsimp only; (repeat' (split <;> try dsimp only)) <;> simp_all)); done) | ((repeat' split) <;> first | (simp; done) | (rw [resState_next]; apply State.chnAccept_same_clk; intros; (first | (simp; done) | (dsimp only; (repeat' (split <;> try dsimp only)) <;> simp_all)); done)), by first | (simp; done) | (rw [resState_next]; apply State.chnAccept_same_vats; intros; (first | (simp; done) | (dsimp only; (repeat' (split <;> try dsimp only)) <;> simp_all)); done) | ((repeat' split) <;> first | (simp; done) | (rw [resState_next]; apply State.chnAccept_same_vats; intros; (first | (simp; done) | (dsimp only; (repeat' (split <;> try dsimp only)) <;> simp_all)); done)), by first | (simp; done) | (rw [resState_next]; apply State.chnAccept_same_mem; intros; (first | (simp; done) | (dsimp only; (repeat' (split <;> try dsimp only)) <;> simp_all)); done) | ((repeat' split) <;> first | (simp; done) | (rw [resState_next]; apply State.chnAccept_same_mem; intros; (first | (simp; done) | (dsimp only; (repeat' (split <;> try dsimp only)) <;> simp_all)); done)), by first | (simp; done) | (rw [resState_next]; apply State.chnAccept_same_host; intros; (first | (simp; done) | (dsimp only; (repeat' (split <;> try dsimp only)) <;> simp_all)); done) | ((repeat' split) <;> first | (simp; done) | (rw [resState_next]; apply State.chnAccept_same_host; intros; (first | (simp; done) | (dsimp only; (repeat' (split <;> try dsimp only)) <;> simp_all)); done)), by first | (simp; done) | (rw [resState_next]; apply State.chnAccept_same_boot; intros; (first | (simp; done) | (dsimp only; (repeat' (split <;> try dsimp only)) <;> simp_all)); done) | ((repeat' split) <;> first | (simp; done) | (rw [resState_next]; apply State.chnAccept_same_boot; intros; (first | (simp; done) | (dsimp only; (repeat' (split <;> try dsimp only)) <;> simp_all)); done)), by first | (simp; done) | (rw [resState_next]; apply State.chnAccept_same_free; intros; (first | (simp; done) | (dsimp only; (repeat' (split <;> try dsimp only)) <;> simp_all)); done) | ((repeat' split) <;> first | (simp; done) | (rw [resState_next]; apply State.chnAccept_same_free; intros; (first | (simp; done) | (dsimp only; (repeat' (split <;> try dsimp only)) <;> simp_all)); done))⟩
@[simp] theorem execOpenPacket_same (a0 : Nat) (a1 : ChMsg) (a2 : State) :
    (resState a2 (execOpenPacket a0 a1 a2)).pending = a2.pending ∧ (resState a2 (execOpenPacket a0 a1 a2)).clk = a2.clk ∧
      (resState a2 (execOpenPacket a0 a1 a2)).mem = a2.mem ∧ (resState a2 (execOpenPacket a0 a1 a2)).host = a2.host ∧
      (resState a2 (execOpenPacket a0 a1 a2)).boot = a2.boot ∧ (resState a2 (execOpenPacket a0 a1 a2)).free = a2.free := by
  unfold execOpenPacket; refine ⟨by first | (simp; done) | (rw [resState_next]; apply State.chanArrive_same_pending; intros; (first | (simp; done) | (dsimp only; (repeat' (split <;> try dsimp only)) <;> simp_all)); done) | ((repeat' split) <;> first | (simp; done) | (rw [resState_next]; apply State.chanArrive_same_pending; intros; (first | (simp; done) | (dsimp only; (repeat' (split <;> try dsimp only)) <;> simp_all)); done)), by first | (simp; done) | (rw [resState_next]; apply State.chanArrive_same_clk; intros; (first | (simp; done) | (dsimp only; (repeat' (split <;> try dsimp only)) <;> simp_all)); done) | ((repeat' split) <;> first | (simp; done) | (rw [resState_next]; apply State.chanArrive_same_clk; intros; (first | (simp; done) | (dsimp only; (repeat' (split <;> try dsimp only)) <;> simp_all)); done)), by first | (simp; done) | (rw [resState_next]; apply State.chanArrive_same_mem; intros; (first | (simp; done) | (dsimp only; (repeat' (split <;> try dsimp only)) <;> simp_all)); done) | ((repeat' split) <;> first | (simp; done) | (rw [resState_next]; apply State.chanArrive_same_mem; intros; (first | (simp; done) | (dsimp only; (repeat' (split <;> try dsimp only)) <;> simp_all)); done)), by first | (simp; done) | (rw [resState_next]; apply State.chanArrive_same_host; intros; (first | (simp; done) | (dsimp only; (repeat' (split <;> try dsimp only)) <;> simp_all)); done) | ((repeat' split) <;> first | (simp; done) | (rw [resState_next]; apply State.chanArrive_same_host; intros; (first | (simp; done) | (dsimp only; (repeat' (split <;> try dsimp only)) <;> simp_all)); done)), by first | (simp; done) | (rw [resState_next]; apply State.chanArrive_same_boot; intros; (first | (simp; done) | (dsimp only; (repeat' (split <;> try dsimp only)) <;> simp_all)); done) | ((repeat' split) <;> first | (simp; done) | (rw [resState_next]; apply State.chanArrive_same_boot; intros; (first | (simp; done) | (dsimp only; (repeat' (split <;> try dsimp only)) <;> simp_all)); done)), by first | (simp; done) | (rw [resState_next]; apply State.chanArrive_same_free; intros; (first | (simp; done) | (dsimp only; (repeat' (split <;> try dsimp only)) <;> simp_all)); done) | ((repeat' split) <;> first | (simp; done) | (rw [resState_next]; apply State.chanArrive_same_free; intros; (first | (simp; done) | (dsimp only; (repeat' (split <;> try dsimp only)) <;> simp_all)); done))⟩
@[simp] theorem execOpenTimeout_same (a0 : Nat) (a1 : State) :
    (resState a1 (execOpenTimeout a0 a1)).pending = a1.pending ∧ (resState a1 (execOpenTimeout a0 a1)).clk = a1.clk ∧
      (resState a1 (execOpenTimeout a0 a1)).vats = a1.vats ∧ (resState a1 (execOpenTimeout a0 a1)).mem = a1.mem ∧
      (resState a1 (execOpenTimeout a0 a1)).span = a1.span ∧ (resState a1 (execOpenTimeout a0 a1)).host = a1.host ∧
      (resState a1 (execOpenTimeout a0 a1)).boot = a1.boot ∧ (resState a1 (execOpenTimeout a0 a1)).free = a1.free := by
  unfold execOpenTimeout; (repeat' split) <;> simp
@[simp] theorem execOr_same (a0 : Nat) (a1 : Guard) (a2 : Reg) (a3 : Reg) (a4 : Reg) (a5 : State) :
    (resState a5 (execOr a0 a1 a2 a3 a4 a5)).pending = a5.pending ∧ (resState a5 (execOr a0 a1 a2 a3 a4 a5)).clk = a5.clk ∧
      (resState a5 (execOr a0 a1 a2 a3 a4 a5)).mem = a5.mem ∧ (resState a5 (execOr a0 a1 a2 a3 a4 a5)).span = a5.span ∧
      (resState a5 (execOr a0 a1 a2 a3 a4 a5)).host = a5.host ∧ (resState a5 (execOr a0 a1 a2 a3 a4 a5)).boot = a5.boot ∧
      (resState a5 (execOr a0 a1 a2 a3 a4 a5)).free = a5.free := by
  unfold execOr; (repeat' split) <;> simp
@[simp] theorem execOri_same (a0 : Nat) (a1 : Guard) (a2 : Reg) (a3 : Reg) (a4 : BitVec 10) (a5 : State) :
    (resState a5 (execOri a0 a1 a2 a3 a4 a5)).pending = a5.pending ∧ (resState a5 (execOri a0 a1 a2 a3 a4 a5)).clk = a5.clk ∧
      (resState a5 (execOri a0 a1 a2 a3 a4 a5)).mem = a5.mem ∧ (resState a5 (execOri a0 a1 a2 a3 a4 a5)).span = a5.span ∧
      (resState a5 (execOri a0 a1 a2 a3 a4 a5)).host = a5.host ∧ (resState a5 (execOri a0 a1 a2 a3 a4 a5)).boot = a5.boot ∧
      (resState a5 (execOri a0 a1 a2 a3 a4 a5)).free = a5.free := by
  unfold execOri; (repeat' split) <;> simp
@[simp] theorem execPage_same (a0 : Nat) (a1 : Nat) (a2 : State) :
    (resState a2 (execPage a0 a1 a2)).pending = a2.pending ∧ (resState a2 (execPage a0 a1 a2)).clk = a2.clk ∧
      (resState a2 (execPage a0 a1 a2)).mem = a2.mem ∧ (resState a2 (execPage a0 a1 a2)).host = a2.host ∧
      (resState a2 (execPage a0 a1 a2)).boot = a2.boot ∧ (resState a2 (execPage a0 a1 a2)).free = a2.free := by
  unfold execPage; refine ⟨by first | (simp; done) | (rw [resState_next]; apply State.seInstr_same_pending; intros; (first | (simp; done) | (dsimp only; (repeat' (split <;> try dsimp only)) <;> simp_all)); done) | ((repeat' split) <;> first | (simp; done) | (rw [resState_next]; apply State.seInstr_same_pending; intros; (first | (simp; done) | (dsimp only; (repeat' (split <;> try dsimp only)) <;> simp_all)); done)), by first | (simp; done) | (rw [resState_next]; apply State.seInstr_same_clk; intros; (first | (simp; done) | (dsimp only; (repeat' (split <;> try dsimp only)) <;> simp_all)); done) | ((repeat' split) <;> first | (simp; done) | (rw [resState_next]; apply State.seInstr_same_clk; intros; (first | (simp; done) | (dsimp only; (repeat' (split <;> try dsimp only)) <;> simp_all)); done)), by first | (simp; done) | (rw [resState_next]; apply State.seInstr_same_mem; intros; (first | (simp; done) | (dsimp only; (repeat' (split <;> try dsimp only)) <;> simp_all)); done) | ((repeat' split) <;> first | (simp; done) | (rw [resState_next]; apply State.seInstr_same_mem; intros; (first | (simp; done) | (dsimp only; (repeat' (split <;> try dsimp only)) <;> simp_all)); done)), by first | (simp; done) | (rw [resState_next]; apply State.seInstr_same_host; intros; (first | (simp; done) | (dsimp only; (repeat' (split <;> try dsimp only)) <;> simp_all)); done) | ((repeat' split) <;> first | (simp; done) | (rw [resState_next]; apply State.seInstr_same_host; intros; (first | (simp; done) | (dsimp only; (repeat' (split <;> try dsimp only)) <;> simp_all)); done)), by first | (simp; done) | (rw [resState_next]; apply State.seInstr_same_boot; intros; (first | (simp; done) | (dsimp only; (repeat' (split <;> try dsimp only)) <;> simp_all)); done) | ((repeat' split) <;> first | (simp; done) | (rw [resState_next]; apply State.seInstr_same_boot; intros; (first | (simp; done) | (dsimp only; (repeat' (split <;> try dsimp only)) <;> simp_all)); done)), by first | (simp; done) | (rw [resState_next]; apply State.seInstr_same_free; intros; (first | (simp; done) | (dsimp only; (repeat' (split <;> try dsimp only)) <;> simp_all)); done) | ((repeat' split) <;> first | (simp; done) | (rw [resState_next]; apply State.seInstr_same_free; intros; (first | (simp; done) | (dsimp only; (repeat' (split <;> try dsimp only)) <;> simp_all)); done))⟩
@[simp] theorem execPairActive_same (a0 : State) :
    (resState a0 (execPairActive a0)).pending = a0.pending ∧ (resState a0 (execPairActive a0)).clk = a0.clk ∧
      (resState a0 (execPairActive a0)).cores = a0.cores ∧ (resState a0 (execPairActive a0)).net = a0.net ∧
      (resState a0 (execPairActive a0)).boot = a0.boot ∧ (resState a0 (execPairActive a0)).free = a0.free := by
  unfold execPairActive; (repeat' split) <;> simp
@[simp] theorem execPairActive_kept (a0 : State) :
    (resState a0 (execPairActive a0)).mem.stack = a0.mem.stack := by
  unfold execPairActive; (repeat' split) <;> simp
@[simp] theorem execPairMirror_same (a0 : State) :
    (resState a0 (execPairMirror a0)).pending = a0.pending ∧ (resState a0 (execPairMirror a0)).clk = a0.clk ∧
      (resState a0 (execPairMirror a0)).cores = a0.cores ∧ (resState a0 (execPairMirror a0)).net = a0.net ∧
      (resState a0 (execPairMirror a0)).boot = a0.boot ∧ (resState a0 (execPairMirror a0)).free = a0.free := by
  unfold execPairMirror; (repeat' split) <;> simp
@[simp] theorem execPairMirror_kept (a0 : State) :
    (resState a0 (execPairMirror a0)).mem.stack = a0.mem.stack := by
  unfold execPairMirror; (repeat' split) <;> simp
@[simp] theorem execPairReceive_same (a0 : Nat) (a1 : Option Pair) (a2 : Nat) (a3 : State) :
    (resState a3 (execPairReceive a0 a1 a2 a3)).pending = a3.pending ∧ (resState a3 (execPairReceive a0 a1 a2 a3)).clk = a3.clk ∧
      (resState a3 (execPairReceive a0 a1 a2 a3)).cores = a3.cores ∧ (resState a3 (execPairReceive a0 a1 a2 a3)).net = a3.net ∧
      (resState a3 (execPairReceive a0 a1 a2 a3)).vats = a3.vats ∧ (resState a3 (execPairReceive a0 a1 a2 a3)).mem = a3.mem ∧
      (resState a3 (execPairReceive a0 a1 a2 a3)).host = a3.host ∧ (resState a3 (execPairReceive a0 a1 a2 a3)).boot = a3.boot ∧
      (resState a3 (execPairReceive a0 a1 a2 a3)).free = a3.free := by
  unfold execPairReceive; (repeat' split) <;> simp
@[simp] theorem execPairSend_same (a0 : Nat) (a1 : State) :
    (resState a1 (execPairSend a0 a1)).pending = a1.pending ∧ (resState a1 (execPairSend a0 a1)).clk = a1.clk ∧
      (resState a1 (execPairSend a0 a1)).cores = a1.cores ∧ (resState a1 (execPairSend a0 a1)).net = a1.net ∧
      (resState a1 (execPairSend a0 a1)).mem = a1.mem ∧ (resState a1 (execPairSend a0 a1)).host = a1.host ∧
      (resState a1 (execPairSend a0 a1)).boot = a1.boot ∧ (resState a1 (execPairSend a0 a1)).free = a1.free := by
  unfold execPairSend; (try dsimp only); rw [resState_next]; (repeat' (split <;> try dsimp only)) <;> simp [-List.reduceReplicate]
@[simp] theorem execPairingTimeout_same (a0 : State) :
    (resState a0 (execPairingTimeout a0)).pending = a0.pending ∧ (resState a0 (execPairingTimeout a0)).clk = a0.clk ∧
      (resState a0 (execPairingTimeout a0)).cores = a0.cores ∧ (resState a0 (execPairingTimeout a0)).net = a0.net ∧
      (resState a0 (execPairingTimeout a0)).vats = a0.vats ∧ (resState a0 (execPairingTimeout a0)).mem = a0.mem ∧
      (resState a0 (execPairingTimeout a0)).hub = a0.hub ∧ (resState a0 (execPairingTimeout a0)).pwr = a0.pwr ∧
      (resState a0 (execPairingTimeout a0)).boot = a0.boot ∧ (resState a0 (execPairingTimeout a0)).out = a0.out ∧
      (resState a0 (execPairingTimeout a0)).free = a0.free := by
  unfold execPairingTimeout; (repeat' split) <;> simp
@[simp] theorem execPand_same (a0 : Nat) (a1 : Guard) (a2 : BitVec 3) (a3 : BitVec 3) (a4 : Bool) (a5 : BitVec 3) (a6 : Bool) (a7 : State) :
    (resState a7 (execPand a0 a1 a2 a3 a4 a5 a6 a7)).pending = a7.pending ∧ (resState a7 (execPand a0 a1 a2 a3 a4 a5 a6 a7)).clk = a7.clk ∧
      (resState a7 (execPand a0 a1 a2 a3 a4 a5 a6 a7)).mem = a7.mem ∧ (resState a7 (execPand a0 a1 a2 a3 a4 a5 a6 a7)).span = a7.span ∧
      (resState a7 (execPand a0 a1 a2 a3 a4 a5 a6 a7)).host = a7.host ∧ (resState a7 (execPand a0 a1 a2 a3 a4 a5 a6 a7)).boot = a7.boot ∧
      (resState a7 (execPand a0 a1 a2 a3 a4 a5 a6 a7)).free = a7.free := by
  unfold execPand; (repeat' split) <;> simp
@[simp] theorem execPause_same (a0 : Nat) (a1 : Nat) (a2 : State) :
    (resState a2 (execPause a0 a1 a2)).pending = a2.pending ∧ (resState a2 (execPause a0 a1 a2)).clk = a2.clk ∧
      (resState a2 (execPause a0 a1 a2)).cores = a2.cores ∧ (resState a2 (execPause a0 a1 a2)).net = a2.net ∧
      (resState a2 (execPause a0 a1 a2)).mem = a2.mem ∧ (resState a2 (execPause a0 a1 a2)).span = a2.span ∧
      (resState a2 (execPause a0 a1 a2)).boot = a2.boot ∧ (resState a2 (execPause a0 a1 a2)).free = a2.free := by
  unfold execPause; (repeat' split) <;> simp
@[simp] theorem execPerstAssert_same (a0 : State) :
    (resState a0 (execPerstAssert a0)).pending = a0.pending ∧ (resState a0 (execPerstAssert a0)).clk = a0.clk ∧
      (resState a0 (execPerstAssert a0)).cores = a0.cores ∧ (resState a0 (execPerstAssert a0)).net = a0.net ∧
      (resState a0 (execPerstAssert a0)).vats = a0.vats ∧ (resState a0 (execPerstAssert a0)).mem = a0.mem ∧
      (resState a0 (execPerstAssert a0)).hub = a0.hub ∧ (resState a0 (execPerstAssert a0)).span = a0.span ∧
      (resState a0 (execPerstAssert a0)).host = a0.host ∧ (resState a0 (execPerstAssert a0)).pwr = a0.pwr ∧
      (resState a0 (execPerstAssert a0)).out = a0.out ∧ (resState a0 (execPerstAssert a0)).free = a0.free := by
  unfold execPerstAssert; (repeat' split) <;> simp
@[simp] theorem execPerstAssert_kept (a0 : State) :
    (resState a0 (execPerstAssert a0)).boot.flash = a0.boot.flash ∧ (resState a0 (execPerstAssert a0)).boot.flashBuf = a0.boot.flashBuf := by
  unfold execPerstAssert; (repeat' split) <;> simp
@[simp] theorem execPerstDeassert_same (a0 : State) :
    (resState a0 (execPerstDeassert a0)).pending = a0.pending ∧ (resState a0 (execPerstDeassert a0)).clk = a0.clk ∧
      (resState a0 (execPerstDeassert a0)).cores = a0.cores ∧ (resState a0 (execPerstDeassert a0)).net = a0.net ∧
      (resState a0 (execPerstDeassert a0)).vats = a0.vats ∧ (resState a0 (execPerstDeassert a0)).mem = a0.mem ∧
      (resState a0 (execPerstDeassert a0)).hub = a0.hub ∧ (resState a0 (execPerstDeassert a0)).span = a0.span ∧
      (resState a0 (execPerstDeassert a0)).host = a0.host ∧ (resState a0 (execPerstDeassert a0)).pwr = a0.pwr ∧
      (resState a0 (execPerstDeassert a0)).out = a0.out ∧ (resState a0 (execPerstDeassert a0)).free = a0.free := by
  unfold execPerstDeassert; (repeat' split) <;> simp
@[simp] theorem execPerstDeassert_kept (a0 : State) :
    (resState a0 (execPerstDeassert a0)).boot.flash = a0.boot.flash ∧ (resState a0 (execPerstDeassert a0)).boot.flashBuf = a0.boot.flashBuf := by
  unfold execPerstDeassert; (repeat' split) <;> simp
@[simp] theorem execPget_same (a0 : Nat) (a1 : Guard) (a2 : Reg) (a3 : State) :
    (resState a3 (execPget a0 a1 a2 a3)).pending = a3.pending ∧ (resState a3 (execPget a0 a1 a2 a3)).clk = a3.clk ∧
      (resState a3 (execPget a0 a1 a2 a3)).mem = a3.mem ∧ (resState a3 (execPget a0 a1 a2 a3)).span = a3.span ∧
      (resState a3 (execPget a0 a1 a2 a3)).host = a3.host ∧ (resState a3 (execPget a0 a1 a2 a3)).boot = a3.boot ∧
      (resState a3 (execPget a0 a1 a2 a3)).free = a3.free := by
  unfold execPget; refine ⟨by first | (simp; done) | (rw [resState_next]; apply State.instr_same_pending; intros; (first | (simp; done) | (dsimp only; (repeat' (split <;> try dsimp only)) <;> simp_all)); done) | ((repeat' split) <;> first | (simp; done) | (rw [resState_next]; apply State.instr_same_pending; intros; (first | (simp; done) | (dsimp only; (repeat' (split <;> try dsimp only)) <;> simp_all)); done)), by first | (simp; done) | (rw [resState_next]; apply State.instr_same_clk; intros; (first | (simp; done) | (dsimp only; (repeat' (split <;> try dsimp only)) <;> simp_all)); done) | ((repeat' split) <;> first | (simp; done) | (rw [resState_next]; apply State.instr_same_clk; intros; (first | (simp; done) | (dsimp only; (repeat' (split <;> try dsimp only)) <;> simp_all)); done)), by first | (simp; done) | (rw [resState_next]; apply State.instr_same_mem; intros; (first | (simp; done) | (dsimp only; (repeat' (split <;> try dsimp only)) <;> simp_all)); done) | ((repeat' split) <;> first | (simp; done) | (rw [resState_next]; apply State.instr_same_mem; intros; (first | (simp; done) | (dsimp only; (repeat' (split <;> try dsimp only)) <;> simp_all)); done)), by first | (simp; done) | (rw [resState_next]; apply State.instr_same_span; intros; (first | (simp; done) | (dsimp only; (repeat' (split <;> try dsimp only)) <;> simp_all)); done) | ((repeat' split) <;> first | (simp; done) | (rw [resState_next]; apply State.instr_same_span; intros; (first | (simp; done) | (dsimp only; (repeat' (split <;> try dsimp only)) <;> simp_all)); done)), by first | (simp; done) | (rw [resState_next]; apply State.instr_same_host; intros; (first | (simp; done) | (dsimp only; (repeat' (split <;> try dsimp only)) <;> simp_all)); done) | ((repeat' split) <;> first | (simp; done) | (rw [resState_next]; apply State.instr_same_host; intros; (first | (simp; done) | (dsimp only; (repeat' (split <;> try dsimp only)) <;> simp_all)); done)), by first | (simp; done) | (rw [resState_next]; apply State.instr_same_boot; intros; (first | (simp; done) | (dsimp only; (repeat' (split <;> try dsimp only)) <;> simp_all)); done) | ((repeat' split) <;> first | (simp; done) | (rw [resState_next]; apply State.instr_same_boot; intros; (first | (simp; done) | (dsimp only; (repeat' (split <;> try dsimp only)) <;> simp_all)); done)), by first | (simp; done) | (rw [resState_next]; apply State.instr_same_free; intros; (first | (simp; done) | (dsimp only; (repeat' (split <;> try dsimp only)) <;> simp_all)); done) | ((repeat' split) <;> first | (simp; done) | (rw [resState_next]; apply State.instr_same_free; intros; (first | (simp; done) | (dsimp only; (repeat' (split <;> try dsimp only)) <;> simp_all)); done))⟩
@[simp] theorem execPlan_same (a0 : Nat) (a1 : State) :
    (resState a1 (execPlan a0 a1)).pending = a1.pending ∧ (resState a1 (execPlan a0 a1)).clk = a1.clk ∧
      (resState a1 (execPlan a0 a1)).vats = a1.vats ∧ (resState a1 (execPlan a0 a1)).mem = a1.mem ∧ (resState a1 (execPlan a0 a1)).span = a1.span ∧
      (resState a1 (execPlan a0 a1)).boot = a1.boot ∧ (resState a1 (execPlan a0 a1)).free = a1.free := by
  unfold execPlan; refine ⟨by first | (simp; done) | (rw [resState_next]; apply State.command_same_pending; intros; (first | (simp; done) | (dsimp only; (repeat' (split <;> try dsimp only)) <;> simp_all)); done) | ((repeat' split) <;> first | (simp; done) | (rw [resState_next]; apply State.command_same_pending; intros; (first | (simp; done) | (dsimp only; (repeat' (split <;> try dsimp only)) <;> simp_all)); done)), by first | (simp; done) | (rw [resState_next]; apply State.command_same_clk; intros; (first | (simp; done) | (dsimp only; (repeat' (split <;> try dsimp only)) <;> simp_all)); done) | ((repeat' split) <;> first | (simp; done) | (rw [resState_next]; apply State.command_same_clk; intros; (first | (simp; done) | (dsimp only; (repeat' (split <;> try dsimp only)) <;> simp_all)); done)), by first | (simp; done) | (rw [resState_next]; apply State.command_same_vats; intros; (first | (simp; done) | (dsimp only; (repeat' (split <;> try dsimp only)) <;> simp_all)); done) | ((repeat' split) <;> first | (simp; done) | (rw [resState_next]; apply State.command_same_vats; intros; (first | (simp; done) | (dsimp only; (repeat' (split <;> try dsimp only)) <;> simp_all)); done)), by first | (simp; done) | (rw [resState_next]; apply State.command_same_mem; intros; (first | (simp; done) | (dsimp only; (repeat' (split <;> try dsimp only)) <;> simp_all)); done) | ((repeat' split) <;> first | (simp; done) | (rw [resState_next]; apply State.command_same_mem; intros; (first | (simp; done) | (dsimp only; (repeat' (split <;> try dsimp only)) <;> simp_all)); done)), by first | (simp; done) | (rw [resState_next]; apply State.command_same_span; intros; (first | (simp; done) | (dsimp only; (repeat' (split <;> try dsimp only)) <;> simp_all)); done) | ((repeat' split) <;> first | (simp; done) | (rw [resState_next]; apply State.command_same_span; intros; (first | (simp; done) | (dsimp only; (repeat' (split <;> try dsimp only)) <;> simp_all)); done)), by first | (simp; done) | (rw [resState_next]; apply State.command_same_boot; intros; (first | (simp; done) | (dsimp only; (repeat' (split <;> try dsimp only)) <;> simp_all)); done) | ((repeat' split) <;> first | (simp; done) | (rw [resState_next]; apply State.command_same_boot; intros; (first | (simp; done) | (dsimp only; (repeat' (split <;> try dsimp only)) <;> simp_all)); done)), by first | (simp; done) | (rw [resState_next]; apply State.command_same_free; intros; (first | (simp; done) | (dsimp only; (repeat' (split <;> try dsimp only)) <;> simp_all)); done) | ((repeat' split) <;> first | (simp; done) | (rw [resState_next]; apply State.command_same_free; intros; (first | (simp; done) | (dsimp only; (repeat' (split <;> try dsimp only)) <;> simp_all)); done))⟩
@[simp] theorem execPop_same (a0 : Nat) (a1 : Nat) (a2 : State) :
    (resState a2 (execPop a0 a1 a2)).pending = a2.pending ∧ (resState a2 (execPop a0 a1 a2)).clk = a2.clk ∧
      (resState a2 (execPop a0 a1 a2)).mem = a2.mem ∧ (resState a2 (execPop a0 a1 a2)).host = a2.host ∧
      (resState a2 (execPop a0 a1 a2)).boot = a2.boot ∧ (resState a2 (execPop a0 a1 a2)).free = a2.free := by
  unfold execPop; refine ⟨by first | (simp; done) | (rw [resState_next]; apply State.seInstr_same_pending; intros; (first | (simp; done) | (dsimp only; (repeat' (split <;> try dsimp only)) <;> first | (simp; done) | simp_all)); done) | ((repeat' split) <;> first | (simp; done) | (rw [resState_next]; apply State.seInstr_same_pending; intros; (first | (simp; done) | (dsimp only; (repeat' (split <;> try dsimp only)) <;> first | (simp; done) | simp_all)); done)), by first | (simp; done) | (rw [resState_next]; apply State.seInstr_same_clk; intros; (first | (simp; done) | (dsimp only; (repeat' (split <;> try dsimp only)) <;> first | (simp; done) | simp_all)); done) | ((repeat' split) <;> first | (simp; done) | (rw [resState_next]; apply State.seInstr_same_clk; intros; (first | (simp; done) | (dsimp only; (repeat' (split <;> try dsimp only)) <;> first | (simp; done) | simp_all)); done)), by first | (simp; done) | (rw [resState_next]; apply State.seInstr_same_mem; intros; (first | (simp; done) | (dsimp only; (repeat' (split <;> try dsimp only)) <;> first | (simp; done) | simp_all)); done) | ((repeat' split) <;> first | (simp; done) | (rw [resState_next]; apply State.seInstr_same_mem; intros; (first | (simp; done) | (dsimp only; (repeat' (split <;> try dsimp only)) <;> first | (simp; done) | simp_all)); done)), by first | (simp; done) | (rw [resState_next]; apply State.seInstr_same_host; intros; (first | (simp; done) | (dsimp only; (repeat' (split <;> try dsimp only)) <;> first | (simp; done) | simp_all)); done) | ((repeat' split) <;> first | (simp; done) | (rw [resState_next]; apply State.seInstr_same_host; intros; (first | (simp; done) | (dsimp only; (repeat' (split <;> try dsimp only)) <;> first | (simp; done) | simp_all)); done)), by first | (simp; done) | (rw [resState_next]; apply State.seInstr_same_boot; intros; (first | (simp; done) | (dsimp only; (repeat' (split <;> try dsimp only)) <;> first | (simp; done) | simp_all)); done) | ((repeat' split) <;> first | (simp; done) | (rw [resState_next]; apply State.seInstr_same_boot; intros; (first | (simp; done) | (dsimp only; (repeat' (split <;> try dsimp only)) <;> first | (simp; done) | simp_all)); done)), by first | (simp; done) | (rw [resState_next]; apply State.seInstr_same_free; intros; (first | (simp; done) | (dsimp only; (repeat' (split <;> try dsimp only)) <;> first | (simp; done) | simp_all)); done) | ((repeat' split) <;> first | (simp; done) | (rw [resState_next]; apply State.seInstr_same_free; intros; (first | (simp; done) | (dsimp only; (repeat' (split <;> try dsimp only)) <;> first | (simp; done) | simp_all)); done))⟩
@[simp] theorem execPor_same (a0 : Nat) (a1 : Guard) (a2 : BitVec 3) (a3 : BitVec 3) (a4 : Bool) (a5 : BitVec 3) (a6 : Bool) (a7 : State) :
    (resState a7 (execPor a0 a1 a2 a3 a4 a5 a6 a7)).pending = a7.pending ∧ (resState a7 (execPor a0 a1 a2 a3 a4 a5 a6 a7)).clk = a7.clk ∧
      (resState a7 (execPor a0 a1 a2 a3 a4 a5 a6 a7)).mem = a7.mem ∧ (resState a7 (execPor a0 a1 a2 a3 a4 a5 a6 a7)).span = a7.span ∧
      (resState a7 (execPor a0 a1 a2 a3 a4 a5 a6 a7)).host = a7.host ∧ (resState a7 (execPor a0 a1 a2 a3 a4 a5 a6 a7)).boot = a7.boot ∧
      (resState a7 (execPor a0 a1 a2 a3 a4 a5 a6 a7)).free = a7.free := by
  unfold execPor; (repeat' split) <;> simp
@[simp] theorem execPowerSample_same (a0 : Nat) (a1 : Nat) (a2 : Nat) (a3 : State) :
    (resState a3 (execPowerSample a0 a1 a2 a3)).pending = a3.pending ∧ (resState a3 (execPowerSample a0 a1 a2 a3)).clk = a3.clk ∧
      (resState a3 (execPowerSample a0 a1 a2 a3)).cores = a3.cores ∧ (resState a3 (execPowerSample a0 a1 a2 a3)).net = a3.net ∧
      (resState a3 (execPowerSample a0 a1 a2 a3)).mem = a3.mem ∧ (resState a3 (execPowerSample a0 a1 a2 a3)).span = a3.span ∧
      (resState a3 (execPowerSample a0 a1 a2 a3)).host = a3.host ∧ (resState a3 (execPowerSample a0 a1 a2 a3)).boot = a3.boot ∧
      (resState a3 (execPowerSample a0 a1 a2 a3)).free = a3.free := by
  unfold execPowerSample; (repeat' split) <;> simp
@[simp] theorem execProtSeal_same (a0 : Who) (a1 : State) :
    (resState a1 (execProtSeal a0 a1)).pending = a1.pending ∧ (resState a1 (execProtSeal a0 a1)).clk = a1.clk ∧
      (resState a1 (execProtSeal a0 a1)).cores = a1.cores ∧ (resState a1 (execProtSeal a0 a1)).vats = a1.vats ∧
      (resState a1 (execProtSeal a0 a1)).mem = a1.mem ∧ (resState a1 (execProtSeal a0 a1)).host = a1.host ∧
      (resState a1 (execProtSeal a0 a1)).free = a1.free := by
  unfold execProtSeal; (repeat' split) <;> simp
@[simp] theorem execProtSeal_kept (a0 : Who) (a1 : State) :
    (resState a1 (execProtSeal a0 a1)).boot.flash = a1.boot.flash ∧ (resState a1 (execProtSeal a0 a1)).boot.flashBuf = a1.boot.flashBuf := by
  unfold execProtSeal; (repeat' split) <;> simp
@[simp] theorem execPset_same (a0 : Nat) (a1 : Guard) (a2 : Reg) (a3 : State) :
    (resState a3 (execPset a0 a1 a2 a3)).pending = a3.pending ∧ (resState a3 (execPset a0 a1 a2 a3)).clk = a3.clk ∧
      (resState a3 (execPset a0 a1 a2 a3)).mem = a3.mem ∧ (resState a3 (execPset a0 a1 a2 a3)).span = a3.span ∧
      (resState a3 (execPset a0 a1 a2 a3)).host = a3.host ∧ (resState a3 (execPset a0 a1 a2 a3)).boot = a3.boot ∧
      (resState a3 (execPset a0 a1 a2 a3)).free = a3.free := by
  unfold execPset; refine ⟨by first | (simp; done) | (rw [resState_next]; apply State.instr_same_pending; intros; (first | (simp; done) | (dsimp only; (repeat' (split <;> try dsimp only)) <;> simp_all)); done) | ((repeat' split) <;> first | (simp; done) | (rw [resState_next]; apply State.instr_same_pending; intros; (first | (simp; done) | (dsimp only; (repeat' (split <;> try dsimp only)) <;> simp_all)); done)), by first | (simp; done) | (rw [resState_next]; apply State.instr_same_clk; intros; (first | (simp; done) | (dsimp only; (repeat' (split <;> try dsimp only)) <;> simp_all)); done) | ((repeat' split) <;> first | (simp; done) | (rw [resState_next]; apply State.instr_same_clk; intros; (first | (simp; done) | (dsimp only; (repeat' (split <;> try dsimp only)) <;> simp_all)); done)), by first | (simp; done) | (rw [resState_next]; apply State.instr_same_mem; intros; (first | (simp; done) | (dsimp only; (repeat' (split <;> try dsimp only)) <;> simp_all)); done) | ((repeat' split) <;> first | (simp; done) | (rw [resState_next]; apply State.instr_same_mem; intros; (first | (simp; done) | (dsimp only; (repeat' (split <;> try dsimp only)) <;> simp_all)); done)), by first | (simp; done) | (rw [resState_next]; apply State.instr_same_span; intros; (first | (simp; done) | (dsimp only; (repeat' (split <;> try dsimp only)) <;> simp_all)); done) | ((repeat' split) <;> first | (simp; done) | (rw [resState_next]; apply State.instr_same_span; intros; (first | (simp; done) | (dsimp only; (repeat' (split <;> try dsimp only)) <;> simp_all)); done)), by first | (simp; done) | (rw [resState_next]; apply State.instr_same_host; intros; (first | (simp; done) | (dsimp only; (repeat' (split <;> try dsimp only)) <;> simp_all)); done) | ((repeat' split) <;> first | (simp; done) | (rw [resState_next]; apply State.instr_same_host; intros; (first | (simp; done) | (dsimp only; (repeat' (split <;> try dsimp only)) <;> simp_all)); done)), by first | (simp; done) | (rw [resState_next]; apply State.instr_same_boot; intros; (first | (simp; done) | (dsimp only; (repeat' (split <;> try dsimp only)) <;> simp_all)); done) | ((repeat' split) <;> first | (simp; done) | (rw [resState_next]; apply State.instr_same_boot; intros; (first | (simp; done) | (dsimp only; (repeat' (split <;> try dsimp only)) <;> simp_all)); done)), by first | (simp; done) | (rw [resState_next]; apply State.instr_same_free; intros; (first | (simp; done) | (dsimp only; (repeat' (split <;> try dsimp only)) <;> simp_all)); done) | ((repeat' split) <;> first | (simp; done) | (rw [resState_next]; apply State.instr_same_free; intros; (first | (simp; done) | (dsimp only; (repeat' (split <;> try dsimp only)) <;> simp_all)); done))⟩
@[simp] theorem execPush_same (a0 : Nat) (a1 : Nat) (a2 : State) :
    (resState a2 (execPush a0 a1 a2)).pending = a2.pending ∧ (resState a2 (execPush a0 a1 a2)).clk = a2.clk ∧
      (resState a2 (execPush a0 a1 a2)).mem = a2.mem ∧ (resState a2 (execPush a0 a1 a2)).host = a2.host ∧
      (resState a2 (execPush a0 a1 a2)).boot = a2.boot ∧ (resState a2 (execPush a0 a1 a2)).free = a2.free := by
  unfold execPush; refine ⟨by first | (simp; done) | (rw [resState_next]; apply State.seInstr_same_pending; intros; (first | (simp; done) | (dsimp only; (repeat' (split <;> try dsimp only)) <;> simp_all)); done) | ((repeat' split) <;> first | (simp; done) | (rw [resState_next]; apply State.seInstr_same_pending; intros; (first | (simp; done) | (dsimp only; (repeat' (split <;> try dsimp only)) <;> simp_all)); done)), by first | (simp; done) | (rw [resState_next]; apply State.seInstr_same_clk; intros; (first | (simp; done) | (dsimp only; (repeat' (split <;> try dsimp only)) <;> simp_all)); done) | ((repeat' split) <;> first | (simp; done) | (rw [resState_next]; apply State.seInstr_same_clk; intros; (first | (simp; done) | (dsimp only; (repeat' (split <;> try dsimp only)) <;> simp_all)); done)), by first | (simp; done) | (rw [resState_next]; apply State.seInstr_same_mem; intros; (first | (simp; done) | (dsimp only; (repeat' (split <;> try dsimp only)) <;> simp_all)); done) | ((repeat' split) <;> first | (simp; done) | (rw [resState_next]; apply State.seInstr_same_mem; intros; (first | (simp; done) | (dsimp only; (repeat' (split <;> try dsimp only)) <;> simp_all)); done)), by first | (simp; done) | (rw [resState_next]; apply State.seInstr_same_host; intros; (first | (simp; done) | (dsimp only; (repeat' (split <;> try dsimp only)) <;> simp_all)); done) | ((repeat' split) <;> first | (simp; done) | (rw [resState_next]; apply State.seInstr_same_host; intros; (first | (simp; done) | (dsimp only; (repeat' (split <;> try dsimp only)) <;> simp_all)); done)), by first | (simp; done) | (rw [resState_next]; apply State.seInstr_same_boot; intros; (first | (simp; done) | (dsimp only; (repeat' (split <;> try dsimp only)) <;> simp_all)); done) | ((repeat' split) <;> first | (simp; done) | (rw [resState_next]; apply State.seInstr_same_boot; intros; (first | (simp; done) | (dsimp only; (repeat' (split <;> try dsimp only)) <;> simp_all)); done)), by first | (simp; done) | (rw [resState_next]; apply State.seInstr_same_free; intros; (first | (simp; done) | (dsimp only; (repeat' (split <;> try dsimp only)) <;> simp_all)); done) | ((repeat' split) <;> first | (simp; done) | (rw [resState_next]; apply State.seInstr_same_free; intros; (first | (simp; done) | (dsimp only; (repeat' (split <;> try dsimp only)) <;> simp_all)); done))⟩
@[simp] theorem execPxor_same (a0 : Nat) (a1 : Guard) (a2 : BitVec 3) (a3 : BitVec 3) (a4 : Bool) (a5 : BitVec 3) (a6 : Bool) (a7 : State) :
    (resState a7 (execPxor a0 a1 a2 a3 a4 a5 a6 a7)).pending = a7.pending ∧ (resState a7 (execPxor a0 a1 a2 a3 a4 a5 a6 a7)).clk = a7.clk ∧
      (resState a7 (execPxor a0 a1 a2 a3 a4 a5 a6 a7)).mem = a7.mem ∧ (resState a7 (execPxor a0 a1 a2 a3 a4 a5 a6 a7)).span = a7.span ∧
      (resState a7 (execPxor a0 a1 a2 a3 a4 a5 a6 a7)).host = a7.host ∧ (resState a7 (execPxor a0 a1 a2 a3 a4 a5 a6 a7)).boot = a7.boot ∧
      (resState a7 (execPxor a0 a1 a2 a3 a4 a5 a6 a7)).free = a7.free := by
  unfold execPxor; (repeat' split) <;> simp
@[simp] theorem execQctlDrop_same (a0 : Nat) (a1 : Nat) (a2 : State) :
    (resState a2 (execQctlDrop a0 a1 a2)).pending = a2.pending ∧ (resState a2 (execQctlDrop a0 a1 a2)).clk = a2.clk ∧
      (resState a2 (execQctlDrop a0 a1 a2)).net = a2.net ∧ (resState a2 (execQctlDrop a0 a1 a2)).vats = a2.vats ∧
      (resState a2 (execQctlDrop a0 a1 a2)).mem = a2.mem ∧ (resState a2 (execQctlDrop a0 a1 a2)).hub = a2.hub ∧
      (resState a2 (execQctlDrop a0 a1 a2)).span = a2.span ∧ (resState a2 (execQctlDrop a0 a1 a2)).host = a2.host ∧
      (resState a2 (execQctlDrop a0 a1 a2)).pwr = a2.pwr ∧ (resState a2 (execQctlDrop a0 a1 a2)).boot = a2.boot ∧
      (resState a2 (execQctlDrop a0 a1 a2)).out = a2.out ∧ (resState a2 (execQctlDrop a0 a1 a2)).free = a2.free := by
  unfold execQctlDrop; (repeat' split) <;> simp
@[simp] theorem execQctlRetry_same (a0 : Nat) (a1 : Nat) (a2 : State) :
    (resState a2 (execQctlRetry a0 a1 a2)).pending = a2.pending ∧ (resState a2 (execQctlRetry a0 a1 a2)).clk = a2.clk ∧
      (resState a2 (execQctlRetry a0 a1 a2)).net = a2.net ∧ (resState a2 (execQctlRetry a0 a1 a2)).vats = a2.vats ∧
      (resState a2 (execQctlRetry a0 a1 a2)).mem = a2.mem ∧ (resState a2 (execQctlRetry a0 a1 a2)).hub = a2.hub ∧
      (resState a2 (execQctlRetry a0 a1 a2)).span = a2.span ∧ (resState a2 (execQctlRetry a0 a1 a2)).host = a2.host ∧
      (resState a2 (execQctlRetry a0 a1 a2)).pwr = a2.pwr ∧ (resState a2 (execQctlRetry a0 a1 a2)).boot = a2.boot ∧
      (resState a2 (execQctlRetry a0 a1 a2)).out = a2.out ∧ (resState a2 (execQctlRetry a0 a1 a2)).free = a2.free := by
  unfold execQctlRetry; (repeat' split) <;> simp
@[simp] theorem execQwait_same (a0 : Nat) (a1 : Guard) (a2 : Bool) (a3 : BitVec 3) (a4 : BitVec 7) (a5 : State) :
    (resState a5 (execQwait a0 a1 a2 a3 a4 a5)).pending = a5.pending ∧ (resState a5 (execQwait a0 a1 a2 a3 a4 a5)).clk = a5.clk ∧
      (resState a5 (execQwait a0 a1 a2 a3 a4 a5)).mem = a5.mem ∧ (resState a5 (execQwait a0 a1 a2 a3 a4 a5)).span = a5.span ∧
      (resState a5 (execQwait a0 a1 a2 a3 a4 a5)).host = a5.host ∧ (resState a5 (execQwait a0 a1 a2 a3 a4 a5)).boot = a5.boot ∧
      (resState a5 (execQwait a0 a1 a2 a3 a4 a5)).free = a5.free := by
  unfold execQwait; refine ⟨by first | (simp; done) | (rw [resState_next]; apply State.instrIf_same_pending; intros; (first | (simp; done) | (dsimp only; (repeat' (split <;> try dsimp only)) <;> simp_all)); done) | ((repeat' split) <;> first | (simp; done) | (rw [resState_next]; apply State.instrIf_same_pending; intros; (first | (simp; done) | (dsimp only; (repeat' (split <;> try dsimp only)) <;> simp_all)); done)), by first | (simp; done) | (rw [resState_next]; apply State.instrIf_same_clk; intros; (first | (simp; done) | (dsimp only; (repeat' (split <;> try dsimp only)) <;> simp_all)); done) | ((repeat' split) <;> first | (simp; done) | (rw [resState_next]; apply State.instrIf_same_clk; intros; (first | (simp; done) | (dsimp only; (repeat' (split <;> try dsimp only)) <;> simp_all)); done)), by first | (simp; done) | (rw [resState_next]; apply State.instrIf_same_mem; intros; (first | (simp; done) | (dsimp only; (repeat' (split <;> try dsimp only)) <;> simp_all)); done) | ((repeat' split) <;> first | (simp; done) | (rw [resState_next]; apply State.instrIf_same_mem; intros; (first | (simp; done) | (dsimp only; (repeat' (split <;> try dsimp only)) <;> simp_all)); done)), by first | (simp; done) | (rw [resState_next]; apply State.instrIf_same_span; intros; (first | (simp; done) | (dsimp only; (repeat' (split <;> try dsimp only)) <;> simp_all)); done) | ((repeat' split) <;> first | (simp; done) | (rw [resState_next]; apply State.instrIf_same_span; intros; (first | (simp; done) | (dsimp only; (repeat' (split <;> try dsimp only)) <;> simp_all)); done)), by first | (simp; done) | (rw [resState_next]; apply State.instrIf_same_host; intros; (first | (simp; done) | (dsimp only; (repeat' (split <;> try dsimp only)) <;> simp_all)); done) | ((repeat' split) <;> first | (simp; done) | (rw [resState_next]; apply State.instrIf_same_host; intros; (first | (simp; done) | (dsimp only; (repeat' (split <;> try dsimp only)) <;> simp_all)); done)), by first | (simp; done) | (rw [resState_next]; apply State.instrIf_same_boot; intros; (first | (simp; done) | (dsimp only; (repeat' (split <;> try dsimp only)) <;> simp_all)); done) | ((repeat' split) <;> first | (simp; done) | (rw [resState_next]; apply State.instrIf_same_boot; intros; (first | (simp; done) | (dsimp only; (repeat' (split <;> try dsimp only)) <;> simp_all)); done)), by first | (simp; done) | (rw [resState_next]; apply State.instrIf_same_free; intros; (first | (simp; done) | (dsimp only; (repeat' (split <;> try dsimp only)) <;> simp_all)); done) | ((repeat' split) <;> first | (simp; done) | (rw [resState_next]; apply State.instrIf_same_free; intros; (first | (simp; done) | (dsimp only; (repeat' (split <;> try dsimp only)) <;> simp_all)); done))⟩

end Sys2Proof.Machine
end

