-- ==== Sys2Proof/Laws/Exec4.lean ====
section
/-! SUPPORT. What each meaning leaves unchanged: the parts of the state it does not touch, and the canonical form of the memories (4 of 6). -/

namespace Sys2Proof.Machine

@[simp] theorem execQwaitRetire_same (a0 : Nat) (a1 : State) :
    (resState a1 (execQwaitRetire a0 a1)).pending = a1.pending ∧ (resState a1 (execQwaitRetire a0 a1)).clk = a1.clk ∧
      (resState a1 (execQwaitRetire a0 a1)).vats = a1.vats ∧ (resState a1 (execQwaitRetire a0 a1)).mem = a1.mem ∧
      (resState a1 (execQwaitRetire a0 a1)).span = a1.span ∧ (resState a1 (execQwaitRetire a0 a1)).host = a1.host ∧
      (resState a1 (execQwaitRetire a0 a1)).boot = a1.boot ∧ (resState a1 (execQwaitRetire a0 a1)).free = a1.free := by
  unfold execQwaitRetire; (repeat' split) <;> simp
@[simp] theorem execRack_same (a0 : Nat) (a1 : State) :
    (resState a1 (execRack a0 a1)).pending = a1.pending ∧ (resState a1 (execRack a0 a1)).clk = a1.clk ∧
      (resState a1 (execRack a0 a1)).cores = a1.cores ∧ (resState a1 (execRack a0 a1)).net = a1.net ∧ (resState a1 (execRack a0 a1)).mem = a1.mem ∧
      (resState a1 (execRack a0 a1)).hub = a1.hub ∧ (resState a1 (execRack a0 a1)).host = a1.host ∧ (resState a1 (execRack a0 a1)).pwr = a1.pwr ∧
      (resState a1 (execRack a0 a1)).boot = a1.boot ∧ (resState a1 (execRack a0 a1)).free = a1.free := by
  unfold execRack; rw [resState_next]; split <;> first | (rename_i hq; have hq' := State.takeFrame_same hq; split <;> simp_all; done) | simp
@[simp] theorem execRcRead_same (a0 : Who) (a1 : Nat) (a2 : Nat) (a3 : State) : (resState a3 (execRcRead a0 a1 a2 a3)).pending = a3.pending := by
  unfold execRcRead; (repeat' (split <;> try dsimp only)) <;> simp
theorem execRcRead_memOk (a0 : Who) (a1 : Nat) (a2 : Nat) (a3 : State) (h : a3.MemOk) : (resState a3 (execRcRead a0 a1 a2 a3)).MemOk := by
  unfold execRcRead; rw [resState_next]
  exact State.readCmd_memOk _ _ _ _ h
@[simp] theorem execRdata_same (a0 : Nat) (a1 : State) :
    (resState a1 (execRdata a0 a1)).pending = a1.pending ∧ (resState a1 (execRdata a0 a1)).clk = a1.clk ∧
      (resState a1 (execRdata a0 a1)).cores = a1.cores ∧ (resState a1 (execRdata a0 a1)).net = a1.net ∧
      (resState a1 (execRdata a0 a1)).mem = a1.mem ∧ (resState a1 (execRdata a0 a1)).host = a1.host ∧
      (resState a1 (execRdata a0 a1)).boot = a1.boot ∧ (resState a1 (execRdata a0 a1)).free = a1.free := by
  unfold execRdata; dsimp only; split <;> first | (rename_i hq; have hq' := State.takeFrame_same hq; (repeat' (split <;> try dsimp only)) <;> simp_all; done) | (simp; done)
@[simp] theorem execRdone_same (a0 : Nat) (a1 : Nat) (a2 : State) :
    (resState a2 (execRdone a0 a1 a2)).pending = a2.pending ∧ (resState a2 (execRdone a0 a1 a2)).clk = a2.clk ∧
      (resState a2 (execRdone a0 a1 a2)).mem = a2.mem ∧ (resState a2 (execRdone a0 a1 a2)).host = a2.host ∧
      (resState a2 (execRdone a0 a1 a2)).boot = a2.boot ∧ (resState a2 (execRdone a0 a1 a2)).free = a2.free := by
  unfold execRdone; refine ⟨by first | (simp; done) | (rw [resState_next]; apply State.seInstr_same_pending; intros; (first | (simp; done) | (dsimp only; (repeat' (split <;> try dsimp only)) <;> simp_all)); done) | ((repeat' split) <;> first | (simp; done) | (rw [resState_next]; apply State.seInstr_same_pending; intros; (first | (simp; done) | (dsimp only; (repeat' (split <;> try dsimp only)) <;> simp_all)); done)), by first | (simp; done) | (rw [resState_next]; apply State.seInstr_same_clk; intros; (first | (simp; done) | (dsimp only; (repeat' (split <;> try dsimp only)) <;> simp_all)); done) | ((repeat' split) <;> first | (simp; done) | (rw [resState_next]; apply State.seInstr_same_clk; intros; (first | (simp; done) | (dsimp only; (repeat' (split <;> try dsimp only)) <;> simp_all)); done)), by first | (simp; done) | (rw [resState_next]; apply State.seInstr_same_mem; intros; (first | (simp; done) | (dsimp only; (repeat' (split <;> try dsimp only)) <;> simp_all)); done) | ((repeat' split) <;> first | (simp; done) | (rw [resState_next]; apply State.seInstr_same_mem; intros; (first | (simp; done) | (dsimp only; (repeat' (split <;> try dsimp only)) <;> simp_all)); done)), by first | (simp; done) | (rw [resState_next]; apply State.seInstr_same_host; intros; (first | (simp; done) | (dsimp only; (repeat' (split <;> try dsimp only)) <;> simp_all)); done) | ((repeat' split) <;> first | (simp; done) | (rw [resState_next]; apply State.seInstr_same_host; intros; (first | (simp; done) | (dsimp only; (repeat' (split <;> try dsimp only)) <;> simp_all)); done)), by first | (simp; done) | (rw [resState_next]; apply State.seInstr_same_boot; intros; (first | (simp; done) | (dsimp only; (repeat' (split <;> try dsimp only)) <;> simp_all)); done) | ((repeat' split) <;> first | (simp; done) | (rw [resState_next]; apply State.seInstr_same_boot; intros; (first | (simp; done) | (dsimp only; (repeat' (split <;> try dsimp only)) <;> simp_all)); done)), by first | (simp; done) | (rw [resState_next]; apply State.seInstr_same_free; intros; (first | (simp; done) | (dsimp only; (repeat' (split <;> try dsimp only)) <;> simp_all)); done) | ((repeat' split) <;> first | (simp; done) | (rw [resState_next]; apply State.seInstr_same_free; intros; (first | (simp; done) | (dsimp only; (repeat' (split <;> try dsimp only)) <;> simp_all)); done))⟩
@[simp] theorem execReadModifyWriteAck_same (a0 : Nat) (a1 : State) :
    (resState a1 (execReadModifyWriteAck a0 a1)).pending = a1.pending ∧ (resState a1 (execReadModifyWriteAck a0 a1)).clk = a1.clk ∧
      (resState a1 (execReadModifyWriteAck a0 a1)).cores = a1.cores ∧ (resState a1 (execReadModifyWriteAck a0 a1)).net = a1.net ∧
      (resState a1 (execReadModifyWriteAck a0 a1)).vats = a1.vats ∧ (resState a1 (execReadModifyWriteAck a0 a1)).hub = a1.hub ∧
      (resState a1 (execReadModifyWriteAck a0 a1)).span = a1.span ∧ (resState a1 (execReadModifyWriteAck a0 a1)).host = a1.host ∧
      (resState a1 (execReadModifyWriteAck a0 a1)).pwr = a1.pwr ∧ (resState a1 (execReadModifyWriteAck a0 a1)).boot = a1.boot ∧
      (resState a1 (execReadModifyWriteAck a0 a1)).free = a1.free := by
  unfold execReadModifyWriteAck; (repeat' split) <;> simp
@[simp] theorem execReadModifyWriteAck_kept (a0 : Nat) (a1 : State) :
    (resState a1 (execReadModifyWriteAck a0 a1)).mem.stack = a1.mem.stack := by
  unfold execReadModifyWriteAck; (repeat' split) <;> simp
@[simp] theorem execReclaim_same (a0 : Nat) (a1 : Nat) (a2 : State) :
    (resState a2 (execReclaim a0 a1 a2)).pending = a2.pending ∧ (resState a2 (execReclaim a0 a1 a2)).clk = a2.clk ∧
      (resState a2 (execReclaim a0 a1 a2)).cores = a2.cores ∧ (resState a2 (execReclaim a0 a1 a2)).net = a2.net ∧
      (resState a2 (execReclaim a0 a1 a2)).mem = a2.mem ∧ (resState a2 (execReclaim a0 a1 a2)).boot = a2.boot ∧
      (resState a2 (execReclaim a0 a1 a2)).free = a2.free := by
  unfold execReclaim; refine ⟨by first | (simp; done) | (rw [resState_next]; apply State.command_same_pending; intros; (first | (simp; done) | (dsimp only; (repeat' (split <;> try dsimp only)) <;> simp_all)); done) | ((repeat' split) <;> first | (simp; done) | (rw [resState_next]; apply State.command_same_pending; intros; (first | (simp; done) | (dsimp only; (repeat' (split <;> try dsimp only)) <;> simp_all)); done)), by first | (simp; done) | (rw [resState_next]; apply State.command_same_clk; intros; (first | (simp; done) | (dsimp only; (repeat' (split <;> try dsimp only)) <;> simp_all)); done) | ((repeat' split) <;> first | (simp; done) | (rw [resState_next]; apply State.command_same_clk; intros; (first | (simp; done) | (dsimp only; (repeat' (split <;> try dsimp only)) <;> simp_all)); done)), by first | (simp; done) | (rw [resState_next]; apply State.command_same_cores; intros; (first | (simp; done) | (dsimp only; (repeat' (split <;> try dsimp only)) <;> simp_all)); done) | ((repeat' split) <;> first | (simp; done) | (rw [resState_next]; apply State.command_same_cores; intros; (first | (simp; done) | (dsimp only; (repeat' (split <;> try dsimp only)) <;> simp_all)); done)), by first | (simp; done) | (rw [resState_next]; apply State.command_same_net; intros; (first | (simp; done) | (dsimp only; (repeat' (split <;> try dsimp only)) <;> simp_all)); done) | ((repeat' split) <;> first | (simp; done) | (rw [resState_next]; apply State.command_same_net; intros; (first | (simp; done) | (dsimp only; (repeat' (split <;> try dsimp only)) <;> simp_all)); done)), by first | (simp; done) | (rw [resState_next]; apply State.command_same_mem; intros; (first | (simp; done) | (dsimp only; (repeat' (split <;> try dsimp only)) <;> simp_all)); done) | ((repeat' split) <;> first | (simp; done) | (rw [resState_next]; apply State.command_same_mem; intros; (first | (simp; done) | (dsimp only; (repeat' (split <;> try dsimp only)) <;> simp_all)); done)), by first | (simp; done) | (rw [resState_next]; apply State.command_same_boot; intros; (first | (simp; done) | (dsimp only; (repeat' (split <;> try dsimp only)) <;> simp_all)); done) | ((repeat' split) <;> first | (simp; done) | (rw [resState_next]; apply State.command_same_boot; intros; (first | (simp; done) | (dsimp only; (repeat' (split <;> try dsimp only)) <;> simp_all)); done)), by first | (simp; done) | (rw [resState_next]; apply State.command_same_free; intros; (first | (simp; done) | (dsimp only; (repeat' (split <;> try dsimp only)) <;> simp_all)); done) | ((repeat' split) <;> first | (simp; done) | (rw [resState_next]; apply State.command_same_free; intros; (first | (simp; done) | (dsimp only; (repeat' (split <;> try dsimp only)) <;> simp_all)); done))⟩
@[simp] theorem execReclaimDeadline_same (a0 : Nat) (a1 : State) :
    (resState a1 (execReclaimDeadline a0 a1)).pending = a1.pending ∧ (resState a1 (execReclaimDeadline a0 a1)).clk = a1.clk ∧
      (resState a1 (execReclaimDeadline a0 a1)).net = a1.net ∧ (resState a1 (execReclaimDeadline a0 a1)).hub = a1.hub ∧
      (resState a1 (execReclaimDeadline a0 a1)).pwr = a1.pwr ∧ (resState a1 (execReclaimDeadline a0 a1)).boot = a1.boot ∧
      (resState a1 (execReclaimDeadline a0 a1)).out = a1.out ∧ (resState a1 (execReclaimDeadline a0 a1)).free = a1.free := by
  unfold execReclaimDeadline; dsimp only; (repeat' (split <;> try dsimp only)) <;> simp_all
@[simp] theorem execReclaimDeadline_kept (a0 : Nat) (a1 : State) :
    (resState a1 (execReclaimDeadline a0 a1)).mem.stack = a1.mem.stack := by
  unfold execReclaimDeadline; dsimp only; (repeat' (split <;> try dsimp only)) <;> simp_all
@[simp] theorem execReduce_same (a0 : Nat) (a1 : State) :
    (resState a1 (execReduce a0 a1)).pending = a1.pending ∧ (resState a1 (execReduce a0 a1)).clk = a1.clk ∧
      (resState a1 (execReduce a0 a1)).mem = a1.mem ∧ (resState a1 (execReduce a0 a1)).span = a1.span ∧
      (resState a1 (execReduce a0 a1)).host = a1.host ∧ (resState a1 (execReduce a0 a1)).boot = a1.boot ∧
      (resState a1 (execReduce a0 a1)).free = a1.free := by
  unfold execReduce; refine ⟨by first | (simp; done) | (rw [resState_next]; apply State.vecAccept_same_pending; intros; (first | (simp; done) | (dsimp only; (repeat' (split <;> try dsimp only)) <;> simp_all)); done) | ((repeat' split) <;> first | (simp; done) | (rw [resState_next]; apply State.vecAccept_same_pending; intros; (first | (simp; done) | (dsimp only; (repeat' (split <;> try dsimp only)) <;> simp_all)); done)), by first | (simp; done) | (rw [resState_next]; apply State.vecAccept_same_clk; intros; (first | (simp; done) | (dsimp only; (repeat' (split <;> try dsimp only)) <;> simp_all)); done) | ((repeat' split) <;> first | (simp; done) | (rw [resState_next]; apply State.vecAccept_same_clk; intros; (first | (simp; done) | (dsimp only; (repeat' (split <;> try dsimp only)) <;> simp_all)); done)), by first | (simp; done) | (rw [resState_next]; apply State.vecAccept_same_mem; intros; (first | (simp; done) | (dsimp only; (repeat' (split <;> try dsimp only)) <;> simp_all)); done) | ((repeat' split) <;> first | (simp; done) | (rw [resState_next]; apply State.vecAccept_same_mem; intros; (first | (simp; done) | (dsimp only; (repeat' (split <;> try dsimp only)) <;> simp_all)); done)), by first | (simp; done) | (rw [resState_next]; apply State.vecAccept_same_span; intros; (first | (simp; done) | (dsimp only; (repeat' (split <;> try dsimp only)) <;> simp_all)); done) | ((repeat' split) <;> first | (simp; done) | (rw [resState_next]; apply State.vecAccept_same_span; intros; (first | (simp; done) | (dsimp only; (repeat' (split <;> try dsimp only)) <;> simp_all)); done)), by first | (simp; done) | (rw [resState_next]; apply State.vecAccept_same_host; intros; (first | (simp; done) | (dsimp only; (repeat' (split <;> try dsimp only)) <;> simp_all)); done) | ((repeat' split) <;> first | (simp; done) | (rw [resState_next]; apply State.vecAccept_same_host; intros; (first | (simp; done) | (dsimp only; (repeat' (split <;> try dsimp only)) <;> simp_all)); done)), by first | (simp; done) | (rw [resState_next]; apply State.vecAccept_same_boot; intros; (first | (simp; done) | (dsimp only; (repeat' (split <;> try dsimp only)) <;> simp_all)); done) | ((repeat' split) <;> first | (simp; done) | (rw [resState_next]; apply State.vecAccept_same_boot; intros; (first | (simp; done) | (dsimp only; (repeat' (split <;> try dsimp only)) <;> simp_all)); done)), by first | (simp; done) | (rw [resState_next]; apply State.vecAccept_same_free; intros; (first | (simp; done) | (dsimp only; (repeat' (split <;> try dsimp only)) <;> simp_all)); done) | ((repeat' split) <;> first | (simp; done) | (rw [resState_next]; apply State.vecAccept_same_free; intros; (first | (simp; done) | (dsimp only; (repeat' (split <;> try dsimp only)) <;> simp_all)); done))⟩
@[simp] theorem execReduceComplete_same (a0 : Nat) (a1 : State) :
    (resState a1 (execReduceComplete a0 a1)).pending = a1.pending ∧ (resState a1 (execReduceComplete a0 a1)).clk = a1.clk ∧
      (resState a1 (execReduceComplete a0 a1)).mem = a1.mem ∧ (resState a1 (execReduceComplete a0 a1)).span = a1.span ∧
      (resState a1 (execReduceComplete a0 a1)).host = a1.host ∧ (resState a1 (execReduceComplete a0 a1)).boot = a1.boot ∧
      (resState a1 (execReduceComplete a0 a1)).free = a1.free := by
  unfold execReduceComplete; (repeat' split) <;> simp
@[simp] theorem execRefreshSlot_same (a0 : Nat) (a1 : State) :
    (resState a1 (execRefreshSlot a0 a1)).pending = a1.pending ∧ (resState a1 (execRefreshSlot a0 a1)).clk = a1.clk ∧
      (resState a1 (execRefreshSlot a0 a1)).cores = a1.cores ∧ (resState a1 (execRefreshSlot a0 a1)).net = a1.net ∧
      (resState a1 (execRefreshSlot a0 a1)).span = a1.span ∧ (resState a1 (execRefreshSlot a0 a1)).host = a1.host ∧
      (resState a1 (execRefreshSlot a0 a1)).boot = a1.boot ∧ (resState a1 (execRefreshSlot a0 a1)).free = a1.free := by
  unfold execRefreshSlot; (repeat' split) <;> simp
@[simp] theorem execRefreshSlot_kept (a0 : Nat) (a1 : State) :
    (resState a1 (execRefreshSlot a0 a1)).mem.stack = a1.mem.stack := by
  unfold execRefreshSlot; (repeat' split) <;> simp
@[simp] theorem execRefuse_same (a0 : Nat) (a1 : State) :
    (resState a1 (execRefuse a0 a1)).pending = a1.pending ∧ (resState a1 (execRefuse a0 a1)).clk = a1.clk ∧
      (resState a1 (execRefuse a0 a1)).boot = a1.boot := by
  unfold execRefuse; dsimp only; split <;> first | (rename_i hq; have hq' := State.takeFrame_same hq; (repeat' (split <;> try dsimp only)) <;> simp_all; done) | (simp; done)
@[simp] theorem execRefuse_wf_mem_stack (a0 : Nat) (a1 : State)  (hw : a1.mem.stack.wf = true) :
    (resState a1 (execRefuse a0 a1)).mem.stack.wf = true := by
  unfold execRefuse; dsimp only; split <;> first | (rename_i hq; have hq' := State.takeFrame_same hq; (repeat' (split <;> try dsimp only)) <;> simp_all (maxDischargeDepth := 30); done) | (simp (maxDischargeDepth := 30); done) | (simp_all (maxDischargeDepth := 30); done)
@[simp] theorem execRegisterWrite_same (a0 : Who) (a1 : Nat) (a2 : Nat) (a3 : Nat)
      (a4 : State) : (resState a4 (execRegisterWrite a0 a1 a2 a3 a4)).pending = a4.pending := by
  unfold execRegisterWrite; (repeat' (split <;> try dsimp only)) <;> simp
theorem execRegisterWrite_memOk (a0 : Who) (a1 : Nat) (a2 : Nat) (a3 : Nat) (a4 : State)
      (h : a4.MemOk) : (resState a4 (execRegisterWrite a0 a1 a2 a3 a4)).MemOk := by
  unfold execRegisterWrite; rw [resState_next]; split
  · exact State.firmwareWrite_memOk _ _ _ _ h
  · exact State.writeCmd_memOk _ _ _ _ _ h
@[simp] theorem execReject_same (a0 : Nat) (a1 : Nat) (a2 : ChMsg) (a3 : State) :
    (resState a3 (execReject a0 a1 a2 a3)).pending = a3.pending ∧ (resState a3 (execReject a0 a1 a2 a3)).clk = a3.clk ∧
      (resState a3 (execReject a0 a1 a2 a3)).vats = a3.vats ∧ (resState a3 (execReject a0 a1 a2 a3)).mem = a3.mem ∧
      (resState a3 (execReject a0 a1 a2 a3)).host = a3.host ∧ (resState a3 (execReject a0 a1 a2 a3)).boot = a3.boot ∧
      (resState a3 (execReject a0 a1 a2 a3)).free = a3.free := by
  unfold execReject; refine ⟨by first | (simp; done) | (rw [resState_next]; apply State.chanArrive_same_pending; intros; (first | (simp; done) | (dsimp only; (repeat' (split <;> try dsimp only)) <;> simp_all)); done) | ((repeat' split) <;> first | (simp; done) | (rw [resState_next]; apply State.chanArrive_same_pending; intros; (first | (simp; done) | (dsimp only; (repeat' (split <;> try dsimp only)) <;> simp_all)); done)), by first | (simp; done) | (rw [resState_next]; apply State.chanArrive_same_clk; intros; (first | (simp; done) | (dsimp only; (repeat' (split <;> try dsimp only)) <;> simp_all)); done) | ((repeat' split) <;> first | (simp; done) | (rw [resState_next]; apply State.chanArrive_same_clk; intros; (first | (simp; done) | (dsimp only; (repeat' (split <;> try dsimp only)) <;> simp_all)); done)), by first | (simp; done) | (rw [resState_next]; apply State.chanArrive_same_vats; intros; (first | (simp; done) | (dsimp only; (repeat' (split <;> try dsimp only)) <;> simp_all)); done) | ((repeat' split) <;> first | (simp; done) | (rw [resState_next]; apply State.chanArrive_same_vats; intros; (first | (simp; done) | (dsimp only; (repeat' (split <;> try dsimp only)) <;> simp_all)); done)), by first | (simp; done) | (rw [resState_next]; apply State.chanArrive_same_mem; intros; (first | (simp; done) | (dsimp only; (repeat' (split <;> try dsimp only)) <;> simp_all)); done) | ((repeat' split) <;> first | (simp; done) | (rw [resState_next]; apply State.chanArrive_same_mem; intros; (first | (simp; done) | (dsimp only; (repeat' (split <;> try dsimp only)) <;> simp_all)); done)), by first | (simp; done) | (rw [resState_next]; apply State.chanArrive_same_host; intros; (first | (simp; done) | (dsimp only; (repeat' (split <;> try dsimp only)) <;> simp_all)); done) | ((repeat' split) <;> first | (simp; done) | (rw [resState_next]; apply State.chanArrive_same_host; intros; (first | (simp; done) | (dsimp only; (repeat' (split <;> try dsimp only)) <;> simp_all)); done)), by first | (simp; done) | (rw [resState_next]; apply State.chanArrive_same_boot; intros; (first | (simp; done) | (dsimp only; (repeat' (split <;> try dsimp only)) <;> simp_all)); done) | ((repeat' split) <;> first | (simp; done) | (rw [resState_next]; apply State.chanArrive_same_boot; intros; (first | (simp; done) | (dsimp only; (repeat' (split <;> try dsimp only)) <;> simp_all)); done)), by first | (simp; done) | (rw [resState_next]; apply State.chanArrive_same_free; intros; (first | (simp; done) | (dsimp only; (repeat' (split <;> try dsimp only)) <;> simp_all)); done) | ((repeat' split) <;> first | (simp; done) | (rw [resState_next]; apply State.chanArrive_same_free; intros; (first | (simp; done) | (dsimp only; (repeat' (split <;> try dsimp only)) <;> simp_all)); done))⟩
@[simp] theorem execReleaseCycle_same (a0 : Nat) (a1 : Nat) (a2 : State) :
    (resState a2 (execReleaseCycle a0 a1 a2)).pending = a2.pending ∧ (resState a2 (execReleaseCycle a0 a1 a2)).clk = a2.clk ∧
      (resState a2 (execReleaseCycle a0 a1 a2)).mem = a2.mem ∧ (resState a2 (execReleaseCycle a0 a1 a2)).span = a2.span ∧
      (resState a2 (execReleaseCycle a0 a1 a2)).host = a2.host ∧ (resState a2 (execReleaseCycle a0 a1 a2)).boot = a2.boot ∧
      (resState a2 (execReleaseCycle a0 a1 a2)).free = a2.free := by
  unfold execReleaseCycle; dsimp only; (repeat' (split <;> try dsimp only)) <;> simp_all
@[simp] theorem execReleaseJob_same (a0 : Nat) (a1 : Nat) (a2 : State) :
    (resState a2 (execReleaseJob a0 a1 a2)).pending = a2.pending ∧ (resState a2 (execReleaseJob a0 a1 a2)).clk = a2.clk ∧
      (resState a2 (execReleaseJob a0 a1 a2)).cores = a2.cores ∧ (resState a2 (execReleaseJob a0 a1 a2)).net = a2.net ∧
      (resState a2 (execReleaseJob a0 a1 a2)).boot = a2.boot ∧ (resState a2 (execReleaseJob a0 a1 a2)).free = a2.free := by
  unfold execReleaseJob; refine ⟨by first | (simp; done) | (rw [resState_next]; apply State.command_same_pending; intros; (first | (simp; done) | (dsimp only; (repeat' (split <;> try dsimp only)) <;> simp_all)); done) | ((repeat' split) <;> first | (simp; done) | (rw [resState_next]; apply State.command_same_pending; intros; (first | (simp; done) | (dsimp only; (repeat' (split <;> try dsimp only)) <;> simp_all)); done)), by first | (simp; done) | (rw [resState_next]; apply State.command_same_clk; intros; (first | (simp; done) | (dsimp only; (repeat' (split <;> try dsimp only)) <;> simp_all)); done) | ((repeat' split) <;> first | (simp; done) | (rw [resState_next]; apply State.command_same_clk; intros; (first | (simp; done) | (dsimp only; (repeat' (split <;> try dsimp only)) <;> simp_all)); done)), by first | (simp; done) | (rw [resState_next]; apply State.command_same_cores; intros; (first | (simp; done) | (dsimp only; (repeat' (split <;> try dsimp only)) <;> simp_all)); done) | ((repeat' split) <;> first | (simp; done) | (rw [resState_next]; apply State.command_same_cores; intros; (first | (simp; done) | (dsimp only; (repeat' (split <;> try dsimp only)) <;> simp_all)); done)), by first | (simp; done) | (rw [resState_next]; apply State.command_same_net; intros; (first | (simp; done) | (dsimp only; (repeat' (split <;> try dsimp only)) <;> simp_all)); done) | ((repeat' split) <;> first | (simp; done) | (rw [resState_next]; apply State.command_same_net; intros; (first | (simp; done) | (dsimp only; (repeat' (split <;> try dsimp only)) <;> simp_all)); done)), by first | (simp; done) | (rw [resState_next]; apply State.command_same_boot; intros; (first | (simp; done) | (dsimp only; (repeat' (split <;> try dsimp only)) <;> simp_all)); done) | ((repeat' split) <;> first | (simp; done) | (rw [resState_next]; apply State.command_same_boot; intros; (first | (simp; done) | (dsimp only; (repeat' (split <;> try dsimp only)) <;> simp_all)); done)), by first | (simp; done) | (rw [resState_next]; apply State.command_same_free; intros; (first | (simp; done) | (dsimp only; (repeat' (split <;> try dsimp only)) <;> simp_all)); done) | ((repeat' split) <;> first | (simp; done) | (rw [resState_next]; apply State.command_same_free; intros; (first | (simp; done) | (dsimp only; (repeat' (split <;> try dsimp only)) <;> simp_all)); done))⟩
@[simp] theorem execReleaseJob_wf_mem_stack (a0 : Nat) (a1 : Nat) (a2 : State)  (hw : a2.mem.stack.wf = true) :
    (resState a2 (execReleaseJob a0 a1 a2)).mem.stack.wf = true := by
  unfold execReleaseJob; first | (simp (maxDischargeDepth := 30); done) | (rw [resState_next]; apply State.command_wf_mem_stack <;> (intros; (first | (simp (maxDischargeDepth := 30); done) | (simp_all (maxDischargeDepth := 30); done) | (dsimp only; (repeat' (split <;> try dsimp only)) <;> simp_all (maxDischargeDepth := 30); done) | ((repeat' split) <;> simp_all (maxDischargeDepth := 30); done))); done) | ((repeat' split) <;> first | (simp (maxDischargeDepth := 30); done) | (simp_all (maxDischargeDepth := 30); done) | (rw [resState_next]; apply State.command_wf_mem_stack <;> (intros; (first | (simp (maxDischargeDepth := 30); done) | (simp_all (maxDischargeDepth := 30); done) | (dsimp only; (repeat' (split <;> try dsimp only)) <;> simp_all (maxDischargeDepth := 30); done) | ((repeat' split) <;> simp_all (maxDischargeDepth := 30); done))); done))
@[simp] theorem execReleaseWipeComplete_same (a0 : Nat) (a1 : State) :
    (resState a1 (execReleaseWipeComplete a0 a1)).pending = a1.pending ∧ (resState a1 (execReleaseWipeComplete a0 a1)).clk = a1.clk ∧
      (resState a1 (execReleaseWipeComplete a0 a1)).span = a1.span ∧ (resState a1 (execReleaseWipeComplete a0 a1)).boot = a1.boot ∧
      (resState a1 (execReleaseWipeComplete a0 a1)).free = a1.free := by
  unfold execReleaseWipeComplete; (repeat' split) <;> simp
@[simp] theorem execReleaseWipeComplete_wf_mem_stack (a0 : Nat) (a1 : State)  (hw : a1.mem.stack.wf = true) :
    (resState a1 (execReleaseWipeComplete a0 a1)).mem.stack.wf = true := by
  unfold execReleaseWipeComplete; (repeat' split) <;> simp_all (maxDischargeDepth := 30)
@[simp] theorem execRem_same (a0 : Nat) (a1 : Guard) (a2 : Reg) (a3 : Reg) (a4 : Reg) (a5 : State) :
    (resState a5 (execRem a0 a1 a2 a3 a4 a5)).pending = a5.pending ∧ (resState a5 (execRem a0 a1 a2 a3 a4 a5)).clk = a5.clk ∧
      (resState a5 (execRem a0 a1 a2 a3 a4 a5)).mem = a5.mem ∧ (resState a5 (execRem a0 a1 a2 a3 a4 a5)).span = a5.span ∧
      (resState a5 (execRem a0 a1 a2 a3 a4 a5)).host = a5.host ∧ (resState a5 (execRem a0 a1 a2 a3 a4 a5)).boot = a5.boot ∧
      (resState a5 (execRem a0 a1 a2 a3 a4 a5)).free = a5.free := by
  unfold execRem; (repeat' split) <;> simp
@[simp] theorem execRemu_same (a0 : Nat) (a1 : Guard) (a2 : Reg) (a3 : Reg) (a4 : Reg) (a5 : State) :
    (resState a5 (execRemu a0 a1 a2 a3 a4 a5)).pending = a5.pending ∧ (resState a5 (execRemu a0 a1 a2 a3 a4 a5)).clk = a5.clk ∧
      (resState a5 (execRemu a0 a1 a2 a3 a4 a5)).mem = a5.mem ∧ (resState a5 (execRemu a0 a1 a2 a3 a4 a5)).span = a5.span ∧
      (resState a5 (execRemu a0 a1 a2 a3 a4 a5)).host = a5.host ∧ (resState a5 (execRemu a0 a1 a2 a3 a4 a5)).boot = a5.boot ∧
      (resState a5 (execRemu a0 a1 a2 a3 a4 a5)).free = a5.free := by
  unfold execRemu; (repeat' split) <;> simp
@[simp] theorem execRequestTimeout_same (a0 : Nat) (a1 : State) :
    (resState a1 (execRequestTimeout a0 a1)).pending = a1.pending ∧ (resState a1 (execRequestTimeout a0 a1)).clk = a1.clk ∧
      (resState a1 (execRequestTimeout a0 a1)).cores = a1.cores ∧ (resState a1 (execRequestTimeout a0 a1)).net = a1.net ∧
      (resState a1 (execRequestTimeout a0 a1)).vats = a1.vats ∧ (resState a1 (execRequestTimeout a0 a1)).mem = a1.mem ∧
      (resState a1 (execRequestTimeout a0 a1)).hub = a1.hub ∧ (resState a1 (execRequestTimeout a0 a1)).host = a1.host ∧
      (resState a1 (execRequestTimeout a0 a1)).pwr = a1.pwr ∧ (resState a1 (execRequestTimeout a0 a1)).boot = a1.boot ∧
      (resState a1 (execRequestTimeout a0 a1)).free = a1.free := by
  unfold execRequestTimeout; (repeat' split) <;> simp
@[simp] theorem execReservedMop_same (a0 : Nat) (a1 : Nat) (a2 : State) :
    (resState a2 (execReservedMop a0 a1 a2)).pending = a2.pending ∧ (resState a2 (execReservedMop a0 a1 a2)).clk = a2.clk ∧
      (resState a2 (execReservedMop a0 a1 a2)).vats = a2.vats ∧ (resState a2 (execReservedMop a0 a1 a2)).mem = a2.mem ∧
      (resState a2 (execReservedMop a0 a1 a2)).span = a2.span ∧ (resState a2 (execReservedMop a0 a1 a2)).host = a2.host ∧
      (resState a2 (execReservedMop a0 a1 a2)).boot = a2.boot ∧ (resState a2 (execReservedMop a0 a1 a2)).free = a2.free := by
  unfold execReservedMop; (repeat' split) <;> simp
@[simp] theorem execResetCold_same (a0 : Who) (a1 : Nat) (a2 : State) :
    (resState a2 (execResetCold a0 a1 a2)).pending = a2.pending ∧ (resState a2 (execResetCold a0 a1 a2)).clk = a2.clk ∧
      (resState a2 (execResetCold a0 a1 a2)).cores = a2.cores ∧ (resState a2 (execResetCold a0 a1 a2)).net = a2.net ∧
      (resState a2 (execResetCold a0 a1 a2)).vats = a2.vats ∧ (resState a2 (execResetCold a0 a1 a2)).mem = a2.mem ∧
      (resState a2 (execResetCold a0 a1 a2)).span = a2.span ∧ (resState a2 (execResetCold a0 a1 a2)).host = a2.host ∧
      (resState a2 (execResetCold a0 a1 a2)).free = a2.free := by
  unfold execResetCold; (repeat' split) <;> simp
@[simp] theorem execResetCold_kept (a0 : Who) (a1 : Nat) (a2 : State) :
    (resState a2 (execResetCold a0 a1 a2)).boot.flash = a2.boot.flash ∧ (resState a2 (execResetCold a0 a1 a2)).boot.flashBuf = a2.boot.flashBuf := by
  unfold execResetCold; (repeat' split) <;> simp
@[simp] theorem execResetWarm_same (a0 : Who) (a1 : Nat) (a2 : State) :
    (resState a2 (execResetWarm a0 a1 a2)).pending = a2.pending ∧ (resState a2 (execResetWarm a0 a1 a2)).clk = a2.clk ∧
      (resState a2 (execResetWarm a0 a1 a2)).cores = a2.cores ∧ (resState a2 (execResetWarm a0 a1 a2)).net = a2.net ∧
      (resState a2 (execResetWarm a0 a1 a2)).vats = a2.vats ∧ (resState a2 (execResetWarm a0 a1 a2)).mem = a2.mem ∧
      (resState a2 (execResetWarm a0 a1 a2)).span = a2.span ∧ (resState a2 (execResetWarm a0 a1 a2)).host = a2.host ∧
      (resState a2 (execResetWarm a0 a1 a2)).free = a2.free := by
  unfold execResetWarm; (repeat' split) <;> simp
@[simp] theorem execResetWarm_kept (a0 : Who) (a1 : Nat) (a2 : State) :
    (resState a2 (execResetWarm a0 a1 a2)).boot.flash = a2.boot.flash ∧ (resState a2 (execResetWarm a0 a1 a2)).boot.flashBuf = a2.boot.flashBuf := by
  unfold execResetWarm; (repeat' split) <;> simp
@[simp] theorem execResetWipeComplete_same (a0 : State) :
    (resState a0 (execResetWipeComplete a0)).pending = a0.pending ∧ (resState a0 (execResetWipeComplete a0)).clk = a0.clk ∧
      (resState a0 (execResetWipeComplete a0)).cores = a0.cores ∧ (resState a0 (execResetWipeComplete a0)).net = a0.net ∧
      (resState a0 (execResetWipeComplete a0)).vats = a0.vats ∧ (resState a0 (execResetWipeComplete a0)).hub = a0.hub ∧
      (resState a0 (execResetWipeComplete a0)).span = a0.span ∧ (resState a0 (execResetWipeComplete a0)).host = a0.host ∧
      (resState a0 (execResetWipeComplete a0)).pwr = a0.pwr ∧ (resState a0 (execResetWipeComplete a0)).out = a0.out ∧
      (resState a0 (execResetWipeComplete a0)).free = a0.free := by
  unfold execResetWipeComplete; (repeat' split) <;> simp
@[simp] theorem execResetWipeComplete_kept (a0 : State) :
    (resState a0 (execResetWipeComplete a0)).mem.stack = a0.mem.stack ∧ (resState a0 (execResetWipeComplete a0)).boot.flash = a0.boot.flash ∧
      (resState a0 (execResetWipeComplete a0)).boot.flashBuf = a0.boot.flashBuf := by
  unfold execResetWipeComplete; (repeat' split) <;> simp
@[simp] theorem execRetire_same (a0 : Nat) (a1 : Nat) (a2 : State) :
    (resState a2 (execRetire a0 a1 a2)).pending = a2.pending ∧ (resState a2 (execRetire a0 a1 a2)).clk = a2.clk ∧
      (resState a2 (execRetire a0 a1 a2)).cores = a2.cores ∧ (resState a2 (execRetire a0 a1 a2)).net = a2.net ∧
      (resState a2 (execRetire a0 a1 a2)).mem = a2.mem ∧ (resState a2 (execRetire a0 a1 a2)).span = a2.span ∧
      (resState a2 (execRetire a0 a1 a2)).boot = a2.boot ∧ (resState a2 (execRetire a0 a1 a2)).free = a2.free := by
  unfold execRetire; (repeat' split) <;> simp
@[simp] theorem execRetrain_same (a0 : Nat) (a1 : State) :
    (resState a1 (execRetrain a0 a1)).pending = a1.pending ∧ (resState a1 (execRetrain a0 a1)).clk = a1.clk ∧
      (resState a1 (execRetrain a0 a1)).cores = a1.cores ∧ (resState a1 (execRetrain a0 a1)).net = a1.net ∧
      (resState a1 (execRetrain a0 a1)).vats = a1.vats ∧ (resState a1 (execRetrain a0 a1)).mem = a1.mem ∧
      (resState a1 (execRetrain a0 a1)).host = a1.host ∧ (resState a1 (execRetrain a0 a1)).boot = a1.boot ∧
      (resState a1 (execRetrain a0 a1)).free = a1.free := by
  unfold execRetrain; (repeat' split) <;> simp
@[simp] theorem execRfill_same (a0 : Nat) (a1 : Nat) (a2 : State) :
    (resState a2 (execRfill a0 a1 a2)).pending = a2.pending ∧ (resState a2 (execRfill a0 a1 a2)).clk = a2.clk ∧
      (resState a2 (execRfill a0 a1 a2)).mem = a2.mem ∧ (resState a2 (execRfill a0 a1 a2)).host = a2.host ∧
      (resState a2 (execRfill a0 a1 a2)).boot = a2.boot ∧ (resState a2 (execRfill a0 a1 a2)).free = a2.free := by
  unfold execRfill; refine ⟨by first | (simp; done) | (rw [resState_next]; apply State.seInstr_same_pending; intros; (first | (simp; done) | (dsimp only; (repeat' (split <;> try dsimp only)) <;> simp_all)); done) | ((repeat' split) <;> first | (simp; done) | (rw [resState_next]; apply State.seInstr_same_pending; intros; (first | (simp; done) | (dsimp only; (repeat' (split <;> try dsimp only)) <;> simp_all)); done)), by first | (simp; done) | (rw [resState_next]; apply State.seInstr_same_clk; intros; (first | (simp; done) | (dsimp only; (repeat' (split <;> try dsimp only)) <;> simp_all)); done) | ((repeat' split) <;> first | (simp; done) | (rw [resState_next]; apply State.seInstr_same_clk; intros; (first | (simp; done) | (dsimp only; (repeat' (split <;> try dsimp only)) <;> simp_all)); done)), by first | (simp; done) | (rw [resState_next]; apply State.seInstr_same_mem; intros; (first | (simp; done) | (dsimp only; (repeat' (split <;> try dsimp only)) <;> simp_all)); done) | ((repeat' split) <;> first | (simp; done) | (rw [resState_next]; apply State.seInstr_same_mem; intros; (first | (simp; done) | (dsimp only; (repeat' (split <;> try dsimp only)) <;> simp_all)); done)), by first | (simp; done) | (rw [resState_next]; apply State.seInstr_same_host; intros; (first | (simp; done) | (dsimp only; (repeat' (split <;> try dsimp only)) <;> simp_all)); done) | ((repeat' split) <;> first | (simp; done) | (rw [resState_next]; apply State.seInstr_same_host; intros; (first | (simp; done) | (dsimp only; (repeat' (split <;> try dsimp only)) <;> simp_all)); done)), by first | (simp; done) | (rw [resState_next]; apply State.seInstr_same_boot; intros; (first | (simp; done) | (dsimp only; (repeat' (split <;> try dsimp only)) <;> simp_all)); done) | ((repeat' split) <;> first | (simp; done) | (rw [resState_next]; apply State.seInstr_same_boot; intros; (first | (simp; done) | (dsimp only; (repeat' (split <;> try dsimp only)) <;> simp_all)); done)), by first | (simp; done) | (rw [resState_next]; apply State.seInstr_same_free; intros; (first | (simp; done) | (dsimp only; (repeat' (split <;> try dsimp only)) <;> simp_all)); done) | ((repeat' split) <;> first | (simp; done) | (rw [resState_next]; apply State.seInstr_same_free; intros; (first | (simp; done) | (dsimp only; (repeat' (split <;> try dsimp only)) <;> simp_all)); done))⟩
@[simp] theorem execRfillFreeTestPass_same (a0 : Nat) (a1 : Nat) (a2 : State) :
    (resState a2 (execRfillFreeTestPass a0 a1 a2)).pending = a2.pending ∧ (resState a2 (execRfillFreeTestPass a0 a1 a2)).clk = a2.clk ∧
      (resState a2 (execRfillFreeTestPass a0 a1 a2)).vats = a2.vats ∧ (resState a2 (execRfillFreeTestPass a0 a1 a2)).mem = a2.mem ∧
      (resState a2 (execRfillFreeTestPass a0 a1 a2)).span = a2.span ∧ (resState a2 (execRfillFreeTestPass a0 a1 a2)).host = a2.host ∧
      (resState a2 (execRfillFreeTestPass a0 a1 a2)).boot = a2.boot ∧ (resState a2 (execRfillFreeTestPass a0 a1 a2)).free = a2.free := by
  unfold execRfillFreeTestPass; (repeat' split) <;> simp
@[simp] theorem execRfree_same (a0 : Nat) (a1 : Nat) (a2 : State) :
    (resState a2 (execRfree a0 a1 a2)).pending = a2.pending ∧ (resState a2 (execRfree a0 a1 a2)).clk = a2.clk ∧
      (resState a2 (execRfree a0 a1 a2)).mem = a2.mem ∧ (resState a2 (execRfree a0 a1 a2)).host = a2.host ∧
      (resState a2 (execRfree a0 a1 a2)).boot = a2.boot ∧ (resState a2 (execRfree a0 a1 a2)).free = a2.free := by
  unfold execRfree; refine ⟨by first | (simp; done) | (rw [resState_next]; apply State.seInstr_same_pending; intros; (first | (simp; done) | (dsimp only; (repeat' (split <;> try dsimp only)) <;> simp_all)); done) | ((repeat' split) <;> first | (simp; done) | (rw [resState_next]; apply State.seInstr_same_pending; intros; (first | (simp; done) | (dsimp only; (repeat' (split <;> try dsimp only)) <;> simp_all)); done)), by first | (simp; done) | (rw [resState_next]; apply State.seInstr_same_clk; intros; (first | (simp; done) | (dsimp only; (repeat' (split <;> try dsimp only)) <;> simp_all)); done) | ((repeat' split) <;> first | (simp; done) | (rw [resState_next]; apply State.seInstr_same_clk; intros; (first | (simp; done) | (dsimp only; (repeat' (split <;> try dsimp only)) <;> simp_all)); done)), by first | (simp; done) | (rw [resState_next]; apply State.seInstr_same_mem; intros; (first | (simp; done) | (dsimp only; (repeat' (split <;> try dsimp only)) <;> simp_all)); done) | ((repeat' split) <;> first | (simp; done) | (rw [resState_next]; apply State.seInstr_same_mem; intros; (first | (simp; done) | (dsimp only; (repeat' (split <;> try dsimp only)) <;> simp_all)); done)), by first | (simp; done) | (rw [resState_next]; apply State.seInstr_same_host; intros; (first | (simp; done) | (dsimp only; (repeat' (split <;> try dsimp only)) <;> simp_all)); done) | ((repeat' split) <;> first | (simp; done) | (rw [resState_next]; apply State.seInstr_same_host; intros; (first | (simp; done) | (dsimp only; (repeat' (split <;> try dsimp only)) <;> simp_all)); done)), by first | (simp; done) | (rw [resState_next]; apply State.seInstr_same_boot; intros; (first | (simp; done) | (dsimp only; (repeat' (split <;> try dsimp only)) <;> simp_all)); done) | ((repeat' split) <;> first | (simp; done) | (rw [resState_next]; apply State.seInstr_same_boot; intros; (first | (simp; done) | (dsimp only; (repeat' (split <;> try dsimp only)) <;> simp_all)); done)), by first | (simp; done) | (rw [resState_next]; apply State.seInstr_same_free; intros; (first | (simp; done) | (dsimp only; (repeat' (split <;> try dsimp only)) <;> simp_all)); done) | ((repeat' split) <;> first | (simp; done) | (rw [resState_next]; apply State.seInstr_same_free; intros; (first | (simp; done) | (dsimp only; (repeat' (split <;> try dsimp only)) <;> simp_all)); done))⟩
@[simp] theorem execRingDisable_same (a0 : Nat) (a1 : Nat) (a2 : State) :
    (resState a2 (execRingDisable a0 a1 a2)).pending = a2.pending ∧ (resState a2 (execRingDisable a0 a1 a2)).clk = a2.clk ∧
      (resState a2 (execRingDisable a0 a1 a2)).cores = a2.cores ∧ (resState a2 (execRingDisable a0 a1 a2)).net = a2.net ∧
      (resState a2 (execRingDisable a0 a1 a2)).vats = a2.vats ∧ (resState a2 (execRingDisable a0 a1 a2)).mem = a2.mem ∧
      (resState a2 (execRingDisable a0 a1 a2)).hub = a2.hub ∧ (resState a2 (execRingDisable a0 a1 a2)).span = a2.span ∧
      (resState a2 (execRingDisable a0 a1 a2)).pwr = a2.pwr ∧ (resState a2 (execRingDisable a0 a1 a2)).boot = a2.boot ∧
      (resState a2 (execRingDisable a0 a1 a2)).out = a2.out ∧ (resState a2 (execRingDisable a0 a1 a2)).free = a2.free := by
  unfold execRingDisable; (repeat' split) <;> simp
@[simp] theorem execRomBoot_same (a0 : Nat) (a1 : Nat) (a2 : State) :
    (resState a2 (execRomBoot a0 a1 a2)).pending = a2.pending ∧ (resState a2 (execRomBoot a0 a1 a2)).clk = a2.clk ∧
      (resState a2 (execRomBoot a0 a1 a2)).net = a2.net ∧ (resState a2 (execRomBoot a0 a1 a2)).vats = a2.vats ∧
      (resState a2 (execRomBoot a0 a1 a2)).mem = a2.mem ∧ (resState a2 (execRomBoot a0 a1 a2)).hub = a2.hub ∧
      (resState a2 (execRomBoot a0 a1 a2)).span = a2.span ∧ (resState a2 (execRomBoot a0 a1 a2)).host = a2.host ∧
      (resState a2 (execRomBoot a0 a1 a2)).pwr = a2.pwr ∧ (resState a2 (execRomBoot a0 a1 a2)).out = a2.out ∧
      (resState a2 (execRomBoot a0 a1 a2)).free = a2.free := by
  unfold execRomBoot; (try dsimp only); rw [resState_next]; split
  · simp
  · split
    · split
      · simp
      · split <;> simp
    · simp
@[simp] theorem execRomBoot_kept (a0 : Nat) (a1 : Nat) (a2 : State) :
    (resState a2 (execRomBoot a0 a1 a2)).boot.flash = a2.boot.flash ∧ (resState a2 (execRomBoot a0 a1 a2)).boot.flashBuf = a2.boot.flashBuf := by
  unfold execRomBoot; dsimp only; (repeat' (split <;> try dsimp only)) <;> simp_all
@[simp] theorem execRread_same (a0 : Nat) (a1 : State) :
    (resState a1 (execRread a0 a1)).pending = a1.pending ∧ (resState a1 (execRread a0 a1)).clk = a1.clk ∧
      (resState a1 (execRread a0 a1)).net = a1.net ∧ (resState a1 (execRread a0 a1)).host = a1.host ∧
      (resState a1 (execRread a0 a1)).boot = a1.boot ∧ (resState a1 (execRread a0 a1)).free = a1.free := by
  unfold execRread; dsimp only; split <;> first | (rename_i hq; have hq' := State.takeFrame_same hq; (repeat' (split <;> try dsimp only)) <;> simp_all; done) | (simp; done)
@[simp] theorem execRread_kept (a0 : Nat) (a1 : State) :
    (resState a1 (execRread a0 a1)).mem.stack = a1.mem.stack := by
  unfold execRread; dsimp only; split <;> first | (rename_i hq; have hq' := State.takeFrame_same hq; (repeat' (split <;> try dsimp only)) <;> simp_all; done) | (simp; done) | (simp_all; done)
@[simp] theorem execRsync_same (a0 : Nat) (a1 : State) :
    (resState a1 (execRsync a0 a1)).pending = a1.pending ∧ (resState a1 (execRsync a0 a1)).clk = a1.clk ∧
      (resState a1 (execRsync a0 a1)).vats = a1.vats ∧ (resState a1 (execRsync a0 a1)).mem = a1.mem ∧
      (resState a1 (execRsync a0 a1)).span = a1.span ∧ (resState a1 (execRsync a0 a1)).host = a1.host ∧
      (resState a1 (execRsync a0 a1)).boot = a1.boot ∧ (resState a1 (execRsync a0 a1)).free = a1.free := by
  unfold execRsync; refine ⟨by first | (simp; done) | (rw [resState_next]; apply State.chnAccept_same_pending; intros; (first | (simp; done) | (dsimp only; (repeat' (split <;> try dsimp only)) <;> simp_all)); done) | ((repeat' split) <;> first | (simp; done) | (rw [resState_next]; apply State.chnAccept_same_pending; intros; (first | (simp; done) | (dsimp only; (repeat' (split <;> try dsimp only)) <;> simp_all)); done)), by first | (simp; done) | (rw [resState_next]; apply State.chnAccept_same_clk; intros; (first | (simp; done) | (dsimp only; (repeat' (split <;> try dsimp only)) <;> simp_all)); done) | ((repeat' split) <;> first | (simp; done) | (rw [resState_next]; apply State.chnAccept_same_clk; intros; (first | (simp; done) | (dsimp only; (repeat' (split <;> try dsimp only)) <;> simp_all)); done)), by first | (simp; done) | (rw [resState_next]; apply State.chnAccept_same_vats; intros; (first | (simp; done) | (dsimp only; (repeat' (split <;> try dsimp only)) <;> simp_all)); done) | ((repeat' split) <;> first | (simp; done) | (rw [resState_next]; apply State.chnAccept_same_vats; intros; (first | (simp; done) | (dsimp only; (repeat' (split <;> try dsimp only)) <;> simp_all)); done)), by first | (simp; done) | (rw [resState_next]; apply State.chnAccept_same_mem; intros; (first | (simp; done) | (dsimp only; (repeat' (split <;> try dsimp only)) <;> simp_all)); done) | ((repeat' split) <;> first | (simp; done) | (rw [resState_next]; apply State.chnAccept_same_mem; intros; (first | (simp; done) | (dsimp only; (repeat' (split <;> try dsimp only)) <;> simp_all)); done)), by first | (simp; done) | (rw [resState_next]; apply State.chnAccept_same_span; intros; (first | (simp; done) | (dsimp only; (repeat' (split <;> try dsimp only)) <;> simp_all)); done) | ((repeat' split) <;> first | (simp; done) | (rw [resState_next]; apply State.chnAccept_same_span; intros; (first | (simp; done) | (dsimp only; (repeat' (split <;> try dsimp only)) <;> simp_all)); done)), by first | (simp; done) | (rw [resState_next]; apply State.chnAccept_same_host; intros; (first | (simp; done) | (dsimp only; (repeat' (split <;> try dsimp only)) <;> simp_all)); done) | ((repeat' split) <;> first | (simp; done) | (rw [resState_next]; apply State.chnAccept_same_host; intros; (first | (simp; done) | (dsimp only; (repeat' (split <;> try dsimp only)) <;> simp_all)); done)), by first | (simp; done) | (rw [resState_next]; apply State.chnAccept_same_boot; intros; (first | (simp; done) | (dsimp only; (repeat' (split <;> try dsimp only)) <;> simp_all)); done) | ((repeat' split) <;> first | (simp; done) | (rw [resState_next]; apply State.chnAccept_same_boot; intros; (first | (simp; done) | (dsimp only; (repeat' (split <;> try dsimp only)) <;> simp_all)); done)), by first | (simp; done) | (rw [resState_next]; apply State.chnAccept_same_free; intros; (first | (simp; done) | (dsimp only; (repeat' (split <;> try dsimp only)) <;> simp_all)); done) | ((repeat' split) <;> first | (simp; done) | (rw [resState_next]; apply State.chnAccept_same_free; intros; (first | (simp; done) | (dsimp only; (repeat' (split <;> try dsimp only)) <;> simp_all)); done))⟩
@[simp] theorem execRtake_same (a0 : Nat) (a1 : Nat) (a2 : State) :
    (resState a2 (execRtake a0 a1 a2)).pending = a2.pending ∧ (resState a2 (execRtake a0 a1 a2)).clk = a2.clk ∧
      (resState a2 (execRtake a0 a1 a2)).mem = a2.mem ∧ (resState a2 (execRtake a0 a1 a2)).host = a2.host ∧
      (resState a2 (execRtake a0 a1 a2)).boot = a2.boot ∧ (resState a2 (execRtake a0 a1 a2)).free = a2.free := by
  unfold execRtake; refine ⟨by first | (simp; done) | (rw [resState_next]; apply State.seInstr_same_pending; intros; (first | (simp; done) | (dsimp only; (repeat' (split <;> try dsimp only)) <;> simp_all)); done) | ((repeat' split) <;> first | (simp; done) | (rw [resState_next]; apply State.seInstr_same_pending; intros; (first | (simp; done) | (dsimp only; (repeat' (split <;> try dsimp only)) <;> simp_all)); done)), by first | (simp; done) | (rw [resState_next]; apply State.seInstr_same_clk; intros; (first | (simp; done) | (dsimp only; (repeat' (split <;> try dsimp only)) <;> simp_all)); done) | ((repeat' split) <;> first | (simp; done) | (rw [resState_next]; apply State.seInstr_same_clk; intros; (first | (simp; done) | (dsimp only; (repeat' (split <;> try dsimp only)) <;> simp_all)); done)), by first | (simp; done) | (rw [resState_next]; apply State.seInstr_same_mem; intros; (first | (simp; done) | (dsimp only; (repeat' (split <;> try dsimp only)) <;> simp_all)); done) | ((repeat' split) <;> first | (simp; done) | (rw [resState_next]; apply State.seInstr_same_mem; intros; (first | (simp; done) | (dsimp only; (repeat' (split <;> try dsimp only)) <;> simp_all)); done)), by first | (simp; done) | (rw [resState_next]; apply State.seInstr_same_host; intros; (first | (simp; done) | (dsimp only; (repeat' (split <;> try dsimp only)) <;> simp_all)); done) | ((repeat' split) <;> first | (simp; done) | (rw [resState_next]; apply State.seInstr_same_host; intros; (first | (simp; done) | (dsimp only; (repeat' (split <;> try dsimp only)) <;> simp_all)); done)), by first | (simp; done) | (rw [resState_next]; apply State.seInstr_same_boot; intros; (first | (simp; done) | (dsimp only; (repeat' (split <;> try dsimp only)) <;> simp_all)); done) | ((repeat' split) <;> first | (simp; done) | (rw [resState_next]; apply State.seInstr_same_boot; intros; (first | (simp; done) | (dsimp only; (repeat' (split <;> try dsimp only)) <;> simp_all)); done)), by first | (simp; done) | (rw [resState_next]; apply State.seInstr_same_free; intros; (first | (simp; done) | (dsimp only; (repeat' (split <;> try dsimp only)) <;> simp_all)); done) | ((repeat' split) <;> first | (simp; done) | (rw [resState_next]; apply State.seInstr_same_free; intros; (first | (simp; done) | (dsimp only; (repeat' (split <;> try dsimp only)) <;> simp_all)); done))⟩
@[simp] theorem execRtakePass_same (a0 : Nat) (a1 : Nat) (a2 : State) :
    (resState a2 (execRtakePass a0 a1 a2)).pending = a2.pending ∧ (resState a2 (execRtakePass a0 a1 a2)).clk = a2.clk ∧
      (resState a2 (execRtakePass a0 a1 a2)).vats = a2.vats ∧ (resState a2 (execRtakePass a0 a1 a2)).mem = a2.mem ∧
      (resState a2 (execRtakePass a0 a1 a2)).span = a2.span ∧ (resState a2 (execRtakePass a0 a1 a2)).host = a2.host ∧
      (resState a2 (execRtakePass a0 a1 a2)).boot = a2.boot ∧ (resState a2 (execRtakePass a0 a1 a2)).free = a2.free := by
  unfold execRtakePass; (repeat' split) <;> simp
@[simp] theorem execRwrite_same (a0 : Nat) (a1 : State) :
    (resState a1 (execRwrite a0 a1)).pending = a1.pending ∧ (resState a1 (execRwrite a0 a1)).clk = a1.clk ∧
      (resState a1 (execRwrite a0 a1)).net = a1.net ∧ (resState a1 (execRwrite a0 a1)).host = a1.host ∧
      (resState a1 (execRwrite a0 a1)).boot = a1.boot ∧ (resState a1 (execRwrite a0 a1)).free = a1.free := by
  unfold execRwrite; dsimp only; split <;> first | (rename_i hq; have hq' := State.takeFrame_same hq; (repeat' (split <;> try dsimp only)) <;> simp_all; done) | (simp; done)
@[simp] theorem execRwrite_wf_mem_stack (a0 : Nat) (a1 : State)  (hw : a1.mem.stack.wf = true) :
    (resState a1 (execRwrite a0 a1)).mem.stack.wf = true := by
  unfold execRwrite; dsimp only; split <;> first | (rename_i hq; have hq' := State.takeFrame_same hq; (repeat' (split <;> try dsimp only)) <;> simp_all (maxDischargeDepth := 30); done) | (simp (maxDischargeDepth := 30); done) | (simp_all (maxDischargeDepth := 30); done)
@[simp] theorem execS1StrapChange_same (a0 : Bool) (a1 : Nat) (a2 : State) :
    (resState a2 (execS1StrapChange a0 a1 a2)).pending = a2.pending ∧ (resState a2 (execS1StrapChange a0 a1 a2)).clk = a2.clk ∧
      (resState a2 (execS1StrapChange a0 a1 a2)).cores = a2.cores ∧ (resState a2 (execS1StrapChange a0 a1 a2)).net = a2.net ∧
      (resState a2 (execS1StrapChange a0 a1 a2)).vats = a2.vats ∧ (resState a2 (execS1StrapChange a0 a1 a2)).mem = a2.mem ∧
      (resState a2 (execS1StrapChange a0 a1 a2)).span = a2.span ∧ (resState a2 (execS1StrapChange a0 a1 a2)).host = a2.host ∧
      (resState a2 (execS1StrapChange a0 a1 a2)).free = a2.free := by
  unfold execS1StrapChange; (repeat' split) <;> simp
@[simp] theorem execS1StrapChange_kept (a0 : Bool) (a1 : Nat) (a2 : State) :
    (resState a2 (execS1StrapChange a0 a1 a2)).boot.flash = a2.boot.flash ∧
      (resState a2 (execS1StrapChange a0 a1 a2)).boot.flashBuf = a2.boot.flashBuf := by
  unfold execS1StrapChange; (repeat' split) <;> simp
@[simp] theorem execSadd_same (a0 : Nat) (a1 : Guard) (a2 : Reg) (a3 : Reg) (a4 : State) :
    (resState a4 (execSadd a0 a1 a2 a3 a4)).pending = a4.pending ∧ (resState a4 (execSadd a0 a1 a2 a3 a4)).clk = a4.clk ∧
      (resState a4 (execSadd a0 a1 a2 a3 a4)).mem = a4.mem ∧ (resState a4 (execSadd a0 a1 a2 a3 a4)).span = a4.span ∧
      (resState a4 (execSadd a0 a1 a2 a3 a4)).host = a4.host ∧ (resState a4 (execSadd a0 a1 a2 a3 a4)).boot = a4.boot ∧
      (resState a4 (execSadd a0 a1 a2 a3 a4)).free = a4.free := by
  unfold execSadd; refine ⟨by first | (simp; done) | (rw [resState_next]; apply State.syncInstr_same_pending; intros; (first | (simp; done) | (dsimp only; (repeat' (split <;> try dsimp only)) <;> simp_all)); done) | ((repeat' split) <;> first | (simp; done) | (rw [resState_next]; apply State.syncInstr_same_pending; intros; (first | (simp; done) | (dsimp only; (repeat' (split <;> try dsimp only)) <;> simp_all)); done)), by first | (simp; done) | (rw [resState_next]; apply State.syncInstr_same_clk; intros; (first | (simp; done) | (dsimp only; (repeat' (split <;> try dsimp only)) <;> simp_all)); done) | ((repeat' split) <;> first | (simp; done) | (rw [resState_next]; apply State.syncInstr_same_clk; intros; (first | (simp; done) | (dsimp only; (repeat' (split <;> try dsimp only)) <;> simp_all)); done)), by first | (simp; done) | (rw [resState_next]; apply State.syncInstr_same_mem; intros; (first | (simp; done) | (dsimp only; (repeat' (split <;> try dsimp only)) <;> simp_all)); done) | ((repeat' split) <;> first | (simp; done) | (rw [resState_next]; apply State.syncInstr_same_mem; intros; (first | (simp; done) | (dsimp only; (repeat' (split <;> try dsimp only)) <;> simp_all)); done)), by first | (simp; done) | (rw [resState_next]; apply State.syncInstr_same_span; intros; (first | (simp; done) | (dsimp only; (repeat' (split <;> try dsimp only)) <;> simp_all)); done) | ((repeat' split) <;> first | (simp; done) | (rw [resState_next]; apply State.syncInstr_same_span; intros; (first | (simp; done) | (dsimp only; (repeat' (split <;> try dsimp only)) <;> simp_all)); done)), by first | (simp; done) | (rw [resState_next]; apply State.syncInstr_same_host; intros; (first | (simp; done) | (dsimp only; (repeat' (split <;> try dsimp only)) <;> simp_all)); done) | ((repeat' split) <;> first | (simp; done) | (rw [resState_next]; apply State.syncInstr_same_host; intros; (first | (simp; done) | (dsimp only; (repeat' (split <;> try dsimp only)) <;> simp_all)); done)), by first | (simp; done) | (rw [resState_next]; apply State.syncInstr_same_boot; intros; (first | (simp; done) | (dsimp only; (repeat' (split <;> try dsimp only)) <;> simp_all)); done) | ((repeat' split) <;> first | (simp; done) | (rw [resState_next]; apply State.syncInstr_same_boot; intros; (first | (simp; done) | (dsimp only; (repeat' (split <;> try dsimp only)) <;> simp_all)); done)), by first | (simp; done) | (rw [resState_next]; apply State.syncInstr_same_free; intros; (first | (simp; done) | (dsimp only; (repeat' (split <;> try dsimp only)) <;> simp_all)); done) | ((repeat' split) <;> first | (simp; done) | (rw [resState_next]; apply State.syncInstr_same_free; intros; (first | (simp; done) | (dsimp only; (repeat' (split <;> try dsimp only)) <;> simp_all)); done))⟩
@[simp] theorem execScanInComplete_same (a0 : Nat) (a1 : State) :
    (resState a1 (execScanInComplete a0 a1)).pending = a1.pending ∧ (resState a1 (execScanInComplete a0 a1)).clk = a1.clk ∧
      (resState a1 (execScanInComplete a0 a1)).boot = a1.boot ∧ (resState a1 (execScanInComplete a0 a1)).free = a1.free := by
  unfold execScanInComplete; dsimp only; (repeat' (split <;> try dsimp only)) <;> simp_all
@[simp] theorem execScanInComplete_wf_mem_stack (a0 : Nat) (a1 : State)  (hw : a1.mem.stack.wf = true) :
    (resState a1 (execScanInComplete a0 a1)).mem.stack.wf = true := by
  unfold execScanInComplete; dsimp only; (repeat' (split <;> try dsimp only)) <;> simp_all (maxDischargeDepth := 30)
@[simp] theorem execScanOutComplete_same (a0 : Nat) (a1 : State) :
    (resState a1 (execScanOutComplete a0 a1)).pending = a1.pending ∧ (resState a1 (execScanOutComplete a0 a1)).clk = a1.clk ∧
      (resState a1 (execScanOutComplete a0 a1)).cores = a1.cores ∧ (resState a1 (execScanOutComplete a0 a1)).net = a1.net ∧
      (resState a1 (execScanOutComplete a0 a1)).boot = a1.boot := by
  unfold execScanOutComplete; (repeat' split) <;> simp
@[simp] theorem execScanOutComplete_wf_mem_stack (a0 : Nat) (a1 : State)  (hw : a1.mem.stack.wf = true) :
    (resState a1 (execScanOutComplete a0 a1)).mem.stack.wf = true := by
  unfold execScanOutComplete; (repeat' split) <;> simp_all (maxDischargeDepth := 30)
@[simp] theorem execScanOutStart_same (a0 : Nat) (a1 : State) :
    (resState a1 (execScanOutStart a0 a1)).pending = a1.pending ∧ (resState a1 (execScanOutStart a0 a1)).clk = a1.clk ∧
      (resState a1 (execScanOutStart a0 a1)).net = a1.net ∧ (resState a1 (execScanOutStart a0 a1)).mem = a1.mem ∧
      (resState a1 (execScanOutStart a0 a1)).span = a1.span ∧ (resState a1 (execScanOutStart a0 a1)).host = a1.host ∧
      (resState a1 (execScanOutStart a0 a1)).boot = a1.boot := by
  unfold execScanOutStart; (repeat' split) <;> simp
@[simp] theorem execScanWindowAccess_same (a0 : Who) (a1 : Bool) (a2 : Nat) (a3 : Nat) (a4 : Nat)
      (a5 : State) : (resState a5 (execScanWindowAccess a0 a1 a2 a3 a4 a5)).pending = a5.pending := by
  unfold execScanWindowAccess; (repeat' (split <;> try dsimp only)) <;> simp
theorem execScanWindowAccess_memOk (a0 : Who) (a1 : Bool) (a2 : Nat) (a3 : Nat) (a4 : Nat) (a5 : State)
      (h : a5.MemOk) : (resState a5 (execScanWindowAccess a0 a1 a2 a3 a4 a5)).MemOk := by
  unfold execScanWindowAccess; rw [resState_next]
  split
  · exact h
  · split
    · exact State.writeCmd_memOk _ _ _ _ _ h
    · exact State.readCmd_memOk _ _ _ _ h
@[simp] theorem execScatterAdd_same (a0 : Nat) (a1 : State) :
    (resState a1 (execScatterAdd a0 a1)).pending = a1.pending ∧ (resState a1 (execScatterAdd a0 a1)).clk = a1.clk ∧
      (resState a1 (execScatterAdd a0 a1)).net = a1.net ∧ (resState a1 (execScatterAdd a0 a1)).host = a1.host ∧
      (resState a1 (execScatterAdd a0 a1)).boot = a1.boot ∧ (resState a1 (execScatterAdd a0 a1)).free = a1.free := by
  unfold execScatterAdd; refine ⟨by first | (simp; done) | (rw [resState_next]; apply State.stkOp_same_pending; intros; (first | (simp; done) | (dsimp only; (repeat' (split <;> try dsimp only)) <;> simp_all)); done) | ((repeat' split) <;> first | (simp; done) | (rw [resState_next]; apply State.stkOp_same_pending; intros; (first | (simp; done) | (dsimp only; (repeat' (split <;> try dsimp only)) <;> simp_all)); done)), by first | (simp; done) | (rw [resState_next]; apply State.stkOp_same_clk; intros; (first | (simp; done) | (dsimp only; (repeat' (split <;> try dsimp only)) <;> simp_all)); done) | ((repeat' split) <;> first | (simp; done) | (rw [resState_next]; apply State.stkOp_same_clk; intros; (first | (simp; done) | (dsimp only; (repeat' (split <;> try dsimp only)) <;> simp_all)); done)), by first | (simp; done) | (rw [resState_next]; apply State.stkOp_same_net; intros; (first | (simp; done) | (dsimp only; (repeat' (split <;> try dsimp only)) <;> simp_all)); done) | ((repeat' split) <;> first | (simp; done) | (rw [resState_next]; apply State.stkOp_same_net; intros; (first | (simp; done) | (dsimp only; (repeat' (split <;> try dsimp only)) <;> simp_all)); done)), by first | (simp; done) | (rw [resState_next]; apply State.stkOp_same_host; intros; (first | (simp; done) | (dsimp only; (repeat' (split <;> try dsimp only)) <;> simp_all)); done) | ((repeat' split) <;> first | (simp; done) | (rw [resState_next]; apply State.stkOp_same_host; intros; (first | (simp; done) | (dsimp only; (repeat' (split <;> try dsimp only)) <;> simp_all)); done)), by first | (simp; done) | (rw [resState_next]; apply State.stkOp_same_boot; intros; (first | (simp; done) | (dsimp only; (repeat' (split <;> try dsimp only)) <;> simp_all)); done) | ((repeat' split) <;> first | (simp; done) | (rw [resState_next]; apply State.stkOp_same_boot; intros; (first | (simp; done) | (dsimp only; (repeat' (split <;> try dsimp only)) <;> simp_all)); done)), by first | (simp; done) | (rw [resState_next]; apply State.stkOp_same_free; intros; (first | (simp; done) | (dsimp only; (repeat' (split <;> try dsimp only)) <;> simp_all)); done) | ((repeat' split) <;> first | (simp; done) | (rw [resState_next]; apply State.stkOp_same_free; intros; (first | (simp; done) | (dsimp only; (repeat' (split <;> try dsimp only)) <;> simp_all)); done))⟩
@[simp] theorem execScatterAdd_wf_mem_stack (a0 : Nat) (a1 : State)  (hw : a1.mem.stack.wf = true) :
    (resState a1 (execScatterAdd a0 a1)).mem.stack.wf = true := by
  unfold execScatterAdd; first | (simp (maxDischargeDepth := 30); done) | (rw [resState_next]; apply State.stkOp_wf_mem_stack <;> (intros; (first | (simp (maxDischargeDepth := 30); done) | (simp_all (maxDischargeDepth := 30); done) | (dsimp only; (repeat' (split <;> try dsimp only)) <;> simp_all (maxDischargeDepth := 30); done) | ((repeat' split) <;> simp_all (maxDischargeDepth := 30); done))); done) | ((repeat' split) <;> first | (simp (maxDischargeDepth := 30); done) | (simp_all (maxDischargeDepth := 30); done) | (rw [resState_next]; apply State.stkOp_wf_mem_stack <;> (intros; (first | (simp (maxDischargeDepth := 30); done) | (simp_all (maxDischargeDepth := 30); done) | (dsimp only; (repeat' (split <;> try dsimp only)) <;> simp_all (maxDischargeDepth := 30); done) | ((repeat' split) <;> simp_all (maxDischargeDepth := 30); done))); done))
@[simp] theorem execSend_same (a0 : Nat) (a1 : State) :
    (resState a1 (execSend a0 a1)).pending = a1.pending ∧ (resState a1 (execSend a0 a1)).clk = a1.clk ∧
      (resState a1 (execSend a0 a1)).vats = a1.vats ∧ (resState a1 (execSend a0 a1)).mem = a1.mem ∧ (resState a1 (execSend a0 a1)).span = a1.span ∧
      (resState a1 (execSend a0 a1)).host = a1.host ∧ (resState a1 (execSend a0 a1)).boot = a1.boot ∧ (resState a1 (execSend a0 a1)).free = a1.free := by
  unfold execSend; refine ⟨by first | (simp; done) | (rw [resState_next]; apply State.chnAccept_same_pending; intros; (first | (simp; done) | (dsimp only; (repeat' (split <;> try dsimp only)) <;> simp_all)); done) | ((repeat' split) <;> first | (simp; done) | (rw [resState_next]; apply State.chnAccept_same_pending; intros; (first | (simp; done) | (dsimp only; (repeat' (split <;> try dsimp only)) <;> simp_all)); done)), by first | (simp; done) | (rw [resState_next]; apply State.chnAccept_same_clk; intros; (first | (simp; done) | (dsimp only; (repeat' (split <;> try dsimp only)) <;> simp_all)); done) | ((repeat' split) <;> first | (simp; done) | (rw [resState_next]; apply State.chnAccept_same_clk; intros; (first | (simp; done) | (dsimp only; (repeat' (split <;> try dsimp only)) <;> simp_all)); done)), by first | (simp; done) | (rw [resState_next]; apply State.chnAccept_same_vats; intros; (first | (simp; done) | (dsimp only; (repeat' (split <;> try dsimp only)) <;> simp_all)); done) | ((repeat' split) <;> first | (simp; done) | (rw [resState_next]; apply State.chnAccept_same_vats; intros; (first | (simp; done) | (dsimp only; (repeat' (split <;> try dsimp only)) <;> simp_all)); done)), by first | (simp; done) | (rw [resState_next]; apply State.chnAccept_same_mem; intros; (first | (simp; done) | (dsimp only; (repeat' (split <;> try dsimp only)) <;> simp_all)); done) | ((repeat' split) <;> first | (simp; done) | (rw [resState_next]; apply State.chnAccept_same_mem; intros; (first | (simp; done) | (dsimp only; (repeat' (split <;> try dsimp only)) <;> simp_all)); done)), by first | (simp; done) | (rw [resState_next]; apply State.chnAccept_same_span; intros; (first | (simp; done) | (dsimp only; (repeat' (split <;> try dsimp only)) <;> simp_all)); done) | ((repeat' split) <;> first | (simp; done) | (rw [resState_next]; apply State.chnAccept_same_span; intros; (first | (simp; done) | (dsimp only; (repeat' (split <;> try dsimp only)) <;> simp_all)); done)), by first | (simp; done) | (rw [resState_next]; apply State.chnAccept_same_host; intros; (first | (simp; done) | (dsimp only; (repeat' (split <;> try dsimp only)) <;> simp_all)); done) | ((repeat' split) <;> first | (simp; done) | (rw [resState_next]; apply State.chnAccept_same_host; intros; (first | (simp; done) | (dsimp only; (repeat' (split <;> try dsimp only)) <;> simp_all)); done)), by first | (simp; done) | (rw [resState_next]; apply State.chnAccept_same_boot; intros; (first | (simp; done) | (dsimp only; (repeat' (split <;> try dsimp only)) <;> simp_all)); done) | ((repeat' split) <;> first | (simp; done) | (rw [resState_next]; apply State.chnAccept_same_boot; intros; (first | (simp; done) | (dsimp only; (repeat' (split <;> try dsimp only)) <;> simp_all)); done)), by first | (simp; done) | (rw [resState_next]; apply State.chnAccept_same_free; intros; (first | (simp; done) | (dsimp only; (repeat' (split <;> try dsimp only)) <;> simp_all)); done) | ((repeat' split) <;> first | (simp; done) | (rw [resState_next]; apply State.chnAccept_same_free; intros; (first | (simp; done) | (dsimp only; (repeat' (split <;> try dsimp only)) <;> simp_all)); done))⟩
@[simp] theorem execSendM_same (a0 : Nat) (a1 : State) :
    (resState a1 (execSendM a0 a1)).pending = a1.pending ∧ (resState a1 (execSendM a0 a1)).clk = a1.clk ∧
      (resState a1 (execSendM a0 a1)).vats = a1.vats ∧ (resState a1 (execSendM a0 a1)).mem = a1.mem ∧
      (resState a1 (execSendM a0 a1)).host = a1.host ∧ (resState a1 (execSendM a0 a1)).boot = a1.boot ∧
      (resState a1 (execSendM a0 a1)).free = a1.free := by
  unfold execSendM; refine ⟨by first | (simp; done) | (rw [resState_next]; apply State.chnAccept_same_pending; intros; (first | (simp; done) | (dsimp only; (repeat' (split <;> try dsimp only)) <;> simp_all)); done) | ((repeat' split) <;> first | (simp; done) | (rw [resState_next]; apply State.chnAccept_same_pending; intros; (first | (simp; done) | (dsimp only; (repeat' (split <;> try dsimp only)) <;> simp_all)); done)), by first | (simp; done) | (rw [resState_next]; apply State.chnAccept_same_clk; intros; (first | (simp; done) | (dsimp only; (repeat' (split <;> try dsimp only)) <;> simp_all)); done) | ((repeat' split) <;> first | (simp; done) | (rw [resState_next]; apply State.chnAccept_same_clk; intros; (first | (simp; done) | (dsimp only; (repeat' (split <;> try dsimp only)) <;> simp_all)); done)), by first | (simp; done) | (rw [resState_next]; apply State.chnAccept_same_vats; intros; (first | (simp; done) | (dsimp only; (repeat' (split <;> try dsimp only)) <;> simp_all)); done) | ((repeat' split) <;> first | (simp; done) | (rw [resState_next]; apply State.chnAccept_same_vats; intros; (first | (simp; done) | (dsimp only; (repeat' (split <;> try dsimp only)) <;> simp_all)); done)), by first | (simp; done) | (rw [resState_next]; apply State.chnAccept_same_mem; intros; (first | (simp; done) | (dsimp only; (repeat' (split <;> try dsimp only)) <;> simp_all)); done) | ((repeat' split) <;> first | (simp; done) | (rw [resState_next]; apply State.chnAccept_same_mem; intros; (first | (simp; done) | (dsimp only; (repeat' (split <;> try dsimp only)) <;> simp_all)); done)), by first | (simp; done) | (rw [resState_next]; apply State.chnAccept_same_host; intros; (first | (simp; done) | (dsimp only; (repeat' (split <;> try dsimp only)) <;> simp_all)); done) | ((repeat' split) <;> first | (simp; done) | (rw [resState_next]; apply State.chnAccept_same_host; intros; (first | (simp; done) | (dsimp only; (repeat' (split <;> try dsimp only)) <;> simp_all)); done)), by first | (simp; done) | (rw [resState_next]; apply State.chnAccept_same_boot; intros; (first | (simp; done) | (dsimp only; (repeat' (split <;> try dsimp only)) <;> simp_all)); done) | ((repeat' split) <;> first | (simp; done) | (rw [resState_next]; apply State.chnAccept_same_boot; intros; (first | (simp; done) | (dsimp only; (repeat' (split <;> try dsimp only)) <;> simp_all)); done)), by first | (simp; done) | (rw [resState_next]; apply State.chnAccept_same_free; intros; (first | (simp; done) | (dsimp only; (repeat' (split <;> try dsimp only)) <;> simp_all)); done) | ((repeat' split) <;> first | (simp; done) | (rw [resState_next]; apply State.chnAccept_same_free; intros; (first | (simp; done) | (dsimp only; (repeat' (split <;> try dsimp only)) <;> simp_all)); done))⟩
@[simp] theorem execSendMessage_same (a0 : Nat) (a1 : State) :
    (resState a1 (execSendMessage a0 a1)).pending = a1.pending ∧ (resState a1 (execSendMessage a0 a1)).clk = a1.clk ∧
      (resState a1 (execSendMessage a0 a1)).mem = a1.mem ∧ (resState a1 (execSendMessage a0 a1)).host = a1.host ∧
      (resState a1 (execSendMessage a0 a1)).boot = a1.boot ∧ (resState a1 (execSendMessage a0 a1)).free = a1.free := by
  unfold execSendMessage; (repeat' split) <;> simp
@[simp] theorem execSendRefused_same (a0 : Nat) (a1 : Nat) (a2 : Nat) (a3 : Nat) (a4 : Nat) (a5 : State) :
    (resState a5 (execSendRefused a0 a1 a2 a3 a4 a5)).pending = a5.pending ∧ (resState a5 (execSendRefused a0 a1 a2 a3 a4 a5)).clk = a5.clk ∧
      (resState a5 (execSendRefused a0 a1 a2 a3 a4 a5)).boot = a5.boot := by
  unfold execSendRefused; dsimp only; (repeat' (split <;> try dsimp only)) <;> simp_all
@[simp] theorem execSendRefused_wf_mem_stack (a0 : Nat) (a1 : Nat) (a2 : Nat) (a3 : Nat) (a4 : Nat) (a5 : State)  (hw : a5.mem.stack.wf = true) :
    (resState a5 (execSendRefused a0 a1 a2 a3 a4 a5)).mem.stack.wf = true := by
  unfold execSendRefused; dsimp only; (repeat' (split <;> try dsimp only)) <;> simp_all (maxDischargeDepth := 30)
@[simp] theorem execSeq_same (a0 : Nat) (a1 : Nat) (a2 : State) :
    (resState a2 (execSeq a0 a1 a2)).pending = a2.pending ∧ (resState a2 (execSeq a0 a1 a2)).clk = a2.clk ∧
      (resState a2 (execSeq a0 a1 a2)).cores = a2.cores ∧ (resState a2 (execSeq a0 a1 a2)).net = a2.net ∧
      (resState a2 (execSeq a0 a1 a2)).mem = a2.mem ∧ (resState a2 (execSeq a0 a1 a2)).span = a2.span ∧
      (resState a2 (execSeq a0 a1 a2)).boot = a2.boot ∧ (resState a2 (execSeq a0 a1 a2)).free = a2.free := by
  unfold execSeq; refine ⟨by first | (simp; done) | (rw [resState_next]; apply State.command_same_pending; intros; (first | (simp; done) | (dsimp only; (repeat' (split <;> try dsimp only)) <;> simp_all)); done) | ((repeat' split) <;> first | (simp; done) | (rw [resState_next]; apply State.command_same_pending; intros; (first | (simp; done) | (dsimp only; (repeat' (split <;> try dsimp only)) <;> simp_all)); done)), by first | (simp; done) | (rw [resState_next]; apply State.command_same_clk; intros; (first | (simp; done) | (dsimp only; (repeat' (split <;> try dsimp only)) <;> simp_all)); done) | ((repeat' split) <;> first | (simp; done) | (rw [resState_next]; apply State.command_same_clk; intros; (first | (simp; done) | (dsimp only; (repeat' (split <;> try dsimp only)) <;> simp_all)); done)), by first | (simp; done) | (rw [resState_next]; apply State.command_same_cores; intros; (first | (simp; done) | (dsimp only; (repeat' (split <;> try dsimp only)) <;> simp_all)); done) | ((repeat' split) <;> first | (simp; done) | (rw [resState_next]; apply State.command_same_cores; intros; (first | (simp; done) | (dsimp only; (repeat' (split <;> try dsimp only)) <;> simp_all)); done)), by first | (simp; done) | (rw [resState_next]; apply State.command_same_net; intros; (first | (simp; done) | (dsimp only; (repeat' (split <;> try dsimp only)) <;> simp_all)); done) | ((repeat' split) <;> first | (simp; done) | (rw [resState_next]; apply State.command_same_net; intros; (first | (simp; done) | (dsimp only; (repeat' (split <;> try dsimp only)) <;> simp_all)); done)), by first | (simp; done) | (rw [resState_next]; apply State.command_same_mem; intros; (first | (simp; done) | (dsimp only; (repeat' (split <;> try dsimp only)) <;> simp_all)); done) | ((repeat' split) <;> first | (simp; done) | (rw [resState_next]; apply State.command_same_mem; intros; (first | (simp; done) | (dsimp only; (repeat' (split <;> try dsimp only)) <;> simp_all)); done)), by first | (simp; done) | (rw [resState_next]; apply State.command_same_span; intros; (first | (simp; done) | (dsimp only; (repeat' (split <;> try dsimp only)) <;> simp_all)); done) | ((repeat' split) <;> first | (simp; done) | (rw [resState_next]; apply State.command_same_span; intros; (first | (simp; done) | (dsimp only; (repeat' (split <;> try dsimp only)) <;> simp_all)); done)), by first | (simp; done) | (rw [resState_next]; apply State.command_same_boot; intros; (first | (simp; done) | (dsimp only; (repeat' (split <;> try dsimp only)) <;> simp_all)); done) | ((repeat' split) <;> first | (simp; done) | (rw [resState_next]; apply State.command_same_boot; intros; (first | (simp; done) | (dsimp only; (repeat' (split <;> try dsimp only)) <;> simp_all)); done)), by first | (simp; done) | (rw [resState_next]; apply State.command_same_free; intros; (first | (simp; done) | (dsimp only; (repeat' (split <;> try dsimp only)) <;> simp_all)); done) | ((repeat' split) <;> first | (simp; done) | (rw [resState_next]; apply State.command_same_free; intros; (first | (simp; done) | (dsimp only; (repeat' (split <;> try dsimp only)) <;> simp_all)); done))⟩
@[simp] theorem execSeqAdmit_same (a0 : Nat) (a1 : Nat) (a2 : State) :
    (resState a2 (execSeqAdmit a0 a1 a2)).pending = a2.pending ∧ (resState a2 (execSeqAdmit a0 a1 a2)).clk = a2.clk ∧
      (resState a2 (execSeqAdmit a0 a1 a2)).cores = a2.cores ∧ (resState a2 (execSeqAdmit a0 a1 a2)).net = a2.net ∧
      (resState a2 (execSeqAdmit a0 a1 a2)).mem = a2.mem ∧ (resState a2 (execSeqAdmit a0 a1 a2)).span = a2.span ∧
      (resState a2 (execSeqAdmit a0 a1 a2)).boot = a2.boot ∧ (resState a2 (execSeqAdmit a0 a1 a2)).free = a2.free := by
  unfold execSeqAdmit; (repeat' split) <;> simp
@[simp] theorem execSeqResume_same (a0 : Nat) (a1 : Nat) (a2 : State) :
    (resState a2 (execSeqResume a0 a1 a2)).pending = a2.pending ∧ (resState a2 (execSeqResume a0 a1 a2)).clk = a2.clk ∧
      (resState a2 (execSeqResume a0 a1 a2)).cores = a2.cores ∧ (resState a2 (execSeqResume a0 a1 a2)).net = a2.net ∧
      (resState a2 (execSeqResume a0 a1 a2)).mem = a2.mem ∧ (resState a2 (execSeqResume a0 a1 a2)).span = a2.span ∧
      (resState a2 (execSeqResume a0 a1 a2)).boot = a2.boot ∧ (resState a2 (execSeqResume a0 a1 a2)).free = a2.free := by
  unfold execSeqResume; (repeat' split) <;> simp
@[simp] theorem execSeqStop_same (a0 : Nat) (a1 : Nat) (a2 : State) :
    (resState a2 (execSeqStop a0 a1 a2)).pending = a2.pending ∧ (resState a2 (execSeqStop a0 a1 a2)).clk = a2.clk ∧
      (resState a2 (execSeqStop a0 a1 a2)).cores = a2.cores ∧ (resState a2 (execSeqStop a0 a1 a2)).net = a2.net ∧
      (resState a2 (execSeqStop a0 a1 a2)).mem = a2.mem ∧ (resState a2 (execSeqStop a0 a1 a2)).span = a2.span ∧
      (resState a2 (execSeqStop a0 a1 a2)).boot = a2.boot ∧ (resState a2 (execSeqStop a0 a1 a2)).free = a2.free := by
  unfold execSeqStop; (repeat' split) <;> simp
@[simp] theorem execSetAsideRelease_same (a0 : Nat) (a1 : State) :
    (resState a1 (execSetAsideRelease a0 a1)).pending = a1.pending ∧ (resState a1 (execSetAsideRelease a0 a1)).clk = a1.clk ∧
      (resState a1 (execSetAsideRelease a0 a1)).cores = a1.cores ∧ (resState a1 (execSetAsideRelease a0 a1)).net = a1.net ∧
      (resState a1 (execSetAsideRelease a0 a1)).vats = a1.vats ∧ (resState a1 (execSetAsideRelease a0 a1)).hub = a1.hub ∧
      (resState a1 (execSetAsideRelease a0 a1)).span = a1.span ∧ (resState a1 (execSetAsideRelease a0 a1)).host = a1.host ∧
      (resState a1 (execSetAsideRelease a0 a1)).pwr = a1.pwr ∧ (resState a1 (execSetAsideRelease a0 a1)).boot = a1.boot ∧
      (resState a1 (execSetAsideRelease a0 a1)).out = a1.out ∧ (resState a1 (execSetAsideRelease a0 a1)).free = a1.free := by
  unfold execSetAsideRelease; (repeat' split) <;> simp
@[simp] theorem execSetAsideRelease_kept (a0 : Nat) (a1 : State) :
    (resState a1 (execSetAsideRelease a0 a1)).mem.stack = a1.mem.stack := by
  unfold execSetAsideRelease; (repeat' split) <;> simp
@[simp] theorem execSeta_same (a0 : Nat) (a1 : Nat) (a2 : State) :
    (resState a2 (execSeta a0 a1 a2)).pending = a2.pending ∧ (resState a2 (execSeta a0 a1 a2)).clk = a2.clk ∧
      (resState a2 (execSeta a0 a1 a2)).mem = a2.mem ∧ (resState a2 (execSeta a0 a1 a2)).host = a2.host ∧
      (resState a2 (execSeta a0 a1 a2)).boot = a2.boot ∧ (resState a2 (execSeta a0 a1 a2)).free = a2.free := by
  unfold execSeta; (repeat' split) <;> simp
@[simp] theorem execSetx_same (a0 : Nat) (a1 : Nat) (a2 : State) :
    (resState a2 (execSetx a0 a1 a2)).pending = a2.pending ∧ (resState a2 (execSetx a0 a1 a2)).clk = a2.clk ∧
      (resState a2 (execSetx a0 a1 a2)).mem = a2.mem ∧ (resState a2 (execSetx a0 a1 a2)).host = a2.host ∧
      (resState a2 (execSetx a0 a1 a2)).boot = a2.boot ∧ (resState a2 (execSetx a0 a1 a2)).free = a2.free := by
  unfold execSetx; (repeat' split) <;> simp
@[simp] theorem execSgd_same (a0 : Nat) (a1 : State) :
    (resState a1 (execSgd a0 a1)).pending = a1.pending ∧ (resState a1 (execSgd a0 a1)).clk = a1.clk ∧ (resState a1 (execSgd a0 a1)).net = a1.net ∧
      (resState a1 (execSgd a0 a1)).host = a1.host ∧ (resState a1 (execSgd a0 a1)).boot = a1.boot ∧ (resState a1 (execSgd a0 a1)).free = a1.free := by
  unfold execSgd; refine ⟨by first | (simp; done) | (rw [resState_next]; apply State.stkOp_same_pending; intros; (first | (simp; done) | (dsimp only; (repeat' (split <;> try dsimp only)) <;> simp_all)); done) | ((repeat' split) <;> first | (simp; done) | (rw [resState_next]; apply State.stkOp_same_pending; intros; (first | (simp; done) | (dsimp only; (repeat' (split <;> try dsimp only)) <;> simp_all)); done)), by first | (simp; done) | (rw [resState_next]; apply State.stkOp_same_clk; intros; (first | (simp; done) | (dsimp only; (repeat' (split <;> try dsimp only)) <;> simp_all)); done) | ((repeat' split) <;> first | (simp; done) | (rw [resState_next]; apply State.stkOp_same_clk; intros; (first | (simp; done) | (dsimp only; (repeat' (split <;> try dsimp only)) <;> simp_all)); done)), by first | (simp; done) | (rw [resState_next]; apply State.stkOp_same_net; intros; (first | (simp; done) | (dsimp only; (repeat' (split <;> try dsimp only)) <;> simp_all)); done) | ((repeat' split) <;> first | (simp; done) | (rw [resState_next]; apply State.stkOp_same_net; intros; (first | (simp; done) | (dsimp only; (repeat' (split <;> try dsimp only)) <;> simp_all)); done)), by first | (simp; done) | (rw [resState_next]; apply State.stkOp_same_host; intros; (first | (simp; done) | (dsimp only; (repeat' (split <;> try dsimp only)) <;> simp_all)); done) | ((repeat' split) <;> first | (simp; done) | (rw [resState_next]; apply State.stkOp_same_host; intros; (first | (simp; done) | (dsimp only; (repeat' (split <;> try dsimp only)) <;> simp_all)); done)), by first | (simp; done) | (rw [resState_next]; apply State.stkOp_same_boot; intros; (first | (simp; done) | (dsimp only; (repeat' (split <;> try dsimp only)) <;> simp_all)); done) | ((repeat' split) <;> first | (simp; done) | (rw [resState_next]; apply State.stkOp_same_boot; intros; (first | (simp; done) | (dsimp only; (repeat' (split <;> try dsimp only)) <;> simp_all)); done)), by first | (simp; done) | (rw [resState_next]; apply State.stkOp_same_free; intros; (first | (simp; done) | (dsimp only; (repeat' (split <;> try dsimp only)) <;> simp_all)); done) | ((repeat' split) <;> first | (simp; done) | (rw [resState_next]; apply State.stkOp_same_free; intros; (first | (simp; done) | (dsimp only; (repeat' (split <;> try dsimp only)) <;> simp_all)); done))⟩
@[simp] theorem execSgd_wf_mem_stack (a0 : Nat) (a1 : State)  (hw : a1.mem.stack.wf = true) :
    (resState a1 (execSgd a0 a1)).mem.stack.wf = true := by
  unfold execSgd; first | (simp (maxDischargeDepth := 30); done) | (rw [resState_next]; apply State.stkOp_wf_mem_stack <;> (intros; (first | (simp (maxDischargeDepth := 30); done) | (simp_all (maxDischargeDepth := 30); done) | (dsimp only; (repeat' (split <;> try dsimp only)) <;> simp_all (maxDischargeDepth := 30); done) | ((repeat' split) <;> simp_all (maxDischargeDepth := 30); done))); done) | ((repeat' split) <;> first | (simp (maxDischargeDepth := 30); done) | (simp_all (maxDischargeDepth := 30); done) | (rw [resState_next]; apply State.stkOp_wf_mem_stack <;> (intros; (first | (simp (maxDischargeDepth := 30); done) | (simp_all (maxDischargeDepth := 30); done) | (dsimp only; (repeat' (split <;> try dsimp only)) <;> simp_all (maxDischargeDepth := 30); done) | ((repeat' split) <;> simp_all (maxDischargeDepth := 30); done))); done))
@[simp] theorem execSheet_same (a0 : Nat) (a1 : Nat) (a2 : Nat) (a3 : Nat) (a4 : State) :
    (resState a4 (execSheet a0 a1 a2 a3 a4)).pending = a4.pending ∧ (resState a4 (execSheet a0 a1 a2 a3 a4)).clk = a4.clk ∧
      (resState a4 (execSheet a0 a1 a2 a3 a4)).cores = a4.cores ∧ (resState a4 (execSheet a0 a1 a2 a3 a4)).net = a4.net ∧
      (resState a4 (execSheet a0 a1 a2 a3 a4)).mem = a4.mem ∧ (resState a4 (execSheet a0 a1 a2 a3 a4)).span = a4.span ∧
      (resState a4 (execSheet a0 a1 a2 a3 a4)).boot = a4.boot ∧ (resState a4 (execSheet a0 a1 a2 a3 a4)).free = a4.free := by
  unfold execSheet; (repeat' split) <;> simp
@[simp] theorem execSheetEnd_same (a0 : Nat) (a1 : State) :
    (resState a1 (execSheetEnd a0 a1)).pending = a1.pending ∧ (resState a1 (execSheetEnd a0 a1)).clk = a1.clk ∧
      (resState a1 (execSheetEnd a0 a1)).net = a1.net ∧ (resState a1 (execSheetEnd a0 a1)).boot = a1.boot ∧
      (resState a1 (execSheetEnd a0 a1)).free = a1.free := by
  unfold execSheetEnd; (repeat' split) <;> simp
@[simp] theorem execSheetEnd_wf_mem_stack (a0 : Nat) (a1 : State)  (hw : a1.mem.stack.wf = true) :
    (resState a1 (execSheetEnd a0 a1)).mem.stack.wf = true := by
  unfold execSheetEnd; (repeat' split) <;> simp_all (maxDischargeDepth := 30)
@[simp] theorem execSheetStart_same (a0 : Nat) (a1 : State) :
    (resState a1 (execSheetStart a0 a1)).pending = a1.pending ∧ (resState a1 (execSheetStart a0 a1)).clk = a1.clk ∧
      (resState a1 (execSheetStart a0 a1)).mem = a1.mem ∧ (resState a1 (execSheetStart a0 a1)).span = a1.span ∧
      (resState a1 (execSheetStart a0 a1)).boot = a1.boot ∧ (resState a1 (execSheetStart a0 a1)).free = a1.free := by
  unfold execSheetStart; refine ⟨by first | (simp; done) | (rw [resState_next]; apply State.sheetStart_same_pending; intros; (first | (simp; done) | (dsimp only; (repeat' (split <;> try dsimp only)) <;> simp_all)); done) | ((repeat' split) <;> first | (simp; done) | (rw [resState_next]; apply State.sheetStart_same_pending; intros; (first | (simp; done) | (dsimp only; (repeat' (split <;> try dsimp only)) <;> simp_all)); done)), by first | (simp; done) | (rw [resState_next]; apply State.sheetStart_same_clk; intros; (first | (simp; done) | (dsimp only; (repeat' (split <;> try dsimp only)) <;> simp_all)); done) | ((repeat' split) <;> first | (simp; done) | (rw [resState_next]; apply State.sheetStart_same_clk; intros; (first | (simp; done) | (dsimp only; (repeat' (split <;> try dsimp only)) <;> simp_all)); done)), by first | (simp; done) | (rw [resState_next]; apply State.sheetStart_same_mem; intros; (first | (simp; done) | (dsimp only; (repeat' (split <;> try dsimp only)) <;> simp_all)); done) | ((repeat' split) <;> first | (simp; done) | (rw [resState_next]; apply State.sheetStart_same_mem; intros; (first | (simp; done) | (dsimp only; (repeat' (split <;> try dsimp only)) <;> simp_all)); done)), by first | (simp; done) | (rw [resState_next]; apply State.sheetStart_same_span; intros; (first | (simp; done) | (dsimp only; (repeat' (split <;> try dsimp only)) <;> simp_all)); done) | ((repeat' split) <;> first | (simp; done) | (rw [resState_next]; apply State.sheetStart_same_span; intros; (first | (simp; done) | (dsimp only; (repeat' (split <;> try dsimp only)) <;> simp_all)); done)), by first | (simp; done) | (rw [resState_next]; apply State.sheetStart_same_boot; intros; (first | (simp; done) | (dsimp only; (repeat' (split <;> try dsimp only)) <;> simp_all)); done) | ((repeat' split) <;> first | (simp; done) | (rw [resState_next]; apply State.sheetStart_same_boot; intros; (first | (simp; done) | (dsimp only; (repeat' (split <;> try dsimp only)) <;> simp_all)); done)), by first | (simp; done) | (rw [resState_next]; apply State.sheetStart_same_free; intros; (first | (simp; done) | (dsimp only; (repeat' (split <;> try dsimp only)) <;> simp_all)); done) | ((repeat' split) <;> first | (simp; done) | (rw [resState_next]; apply State.sheetStart_same_free; intros; (first | (simp; done) | (dsimp only; (repeat' (split <;> try dsimp only)) <;> simp_all)); done))⟩
@[simp] theorem execSignal_same (a0 : Nat) (a1 : Nat) (a2 : State) :
    (resState a2 (execSignal a0 a1 a2)).pending = a2.pending ∧ (resState a2 (execSignal a0 a1 a2)).clk = a2.clk ∧
      (resState a2 (execSignal a0 a1 a2)).mem = a2.mem ∧ (resState a2 (execSignal a0 a1 a2)).span = a2.span ∧
      (resState a2 (execSignal a0 a1 a2)).host = a2.host ∧ (resState a2 (execSignal a0 a1 a2)).boot = a2.boot ∧
      (resState a2 (execSignal a0 a1 a2)).free = a2.free := by
  unfold execSignal; (repeat' split) <;> simp
@[simp] theorem execSignalDetect_same (a0 : Nat) (a1 : State) :
    (resState a1 (execSignalDetect a0 a1)).pending = a1.pending ∧ (resState a1 (execSignalDetect a0 a1)).clk = a1.clk ∧
      (resState a1 (execSignalDetect a0 a1)).cores = a1.cores ∧ (resState a1 (execSignalDetect a0 a1)).net = a1.net ∧
      (resState a1 (execSignalDetect a0 a1)).vats = a1.vats ∧ (resState a1 (execSignalDetect a0 a1)).mem = a1.mem ∧
      (resState a1 (execSignalDetect a0 a1)).host = a1.host ∧ (resState a1 (execSignalDetect a0 a1)).boot = a1.boot ∧
      (resState a1 (execSignalDetect a0 a1)).free = a1.free := by
  unfold execSignalDetect; (repeat' split) <;> simp
@[simp] theorem execSleepRequest_same (a0 : Who) (a1 : State) :
    (resState a1 (execSleepRequest a0 a1)).pending = a1.pending ∧ (resState a1 (execSleepRequest a0 a1)).clk = a1.clk ∧
      (resState a1 (execSleepRequest a0 a1)).cores = a1.cores ∧ (resState a1 (execSleepRequest a0 a1)).net = a1.net ∧
      (resState a1 (execSleepRequest a0 a1)).mem = a1.mem ∧ (resState a1 (execSleepRequest a0 a1)).host = a1.host ∧
      (resState a1 (execSleepRequest a0 a1)).boot = a1.boot ∧ (resState a1 (execSleepRequest a0 a1)).free = a1.free := by
  unfold execSleepRequest; (repeat' split) <;> simp
@[simp] theorem execSll_same (a0 : Nat) (a1 : Guard) (a2 : Reg) (a3 : Reg) (a4 : Reg) (a5 : State) :
    (resState a5 (execSll a0 a1 a2 a3 a4 a5)).pending = a5.pending ∧ (resState a5 (execSll a0 a1 a2 a3 a4 a5)).clk = a5.clk ∧
      (resState a5 (execSll a0 a1 a2 a3 a4 a5)).mem = a5.mem ∧ (resState a5 (execSll a0 a1 a2 a3 a4 a5)).span = a5.span ∧
      (resState a5 (execSll a0 a1 a2 a3 a4 a5)).host = a5.host ∧ (resState a5 (execSll a0 a1 a2 a3 a4 a5)).boot = a5.boot ∧
      (resState a5 (execSll a0 a1 a2 a3 a4 a5)).free = a5.free := by
  unfold execSll; (repeat' split) <;> simp
@[simp] theorem execSlli_same (a0 : Nat) (a1 : Guard) (a2 : Reg) (a3 : Reg) (a4 : BitVec 6) (a5 : State) :
    (resState a5 (execSlli a0 a1 a2 a3 a4 a5)).pending = a5.pending ∧ (resState a5 (execSlli a0 a1 a2 a3 a4 a5)).clk = a5.clk ∧
      (resState a5 (execSlli a0 a1 a2 a3 a4 a5)).mem = a5.mem ∧ (resState a5 (execSlli a0 a1 a2 a3 a4 a5)).span = a5.span ∧
      (resState a5 (execSlli a0 a1 a2 a3 a4 a5)).host = a5.host ∧ (resState a5 (execSlli a0 a1 a2 a3 a4 a5)).boot = a5.boot ∧
      (resState a5 (execSlli a0 a1 a2 a3 a4 a5)).free = a5.free := by
  unfold execSlli; (repeat' split) <;> simp
@[simp] theorem execSpanPortEnable_same (a0 : Nat) (a1 : Nat) (a2 : State) :
    (resState a2 (execSpanPortEnable a0 a1 a2)).pending = a2.pending ∧ (resState a2 (execSpanPortEnable a0 a1 a2)).clk = a2.clk ∧
      (resState a2 (execSpanPortEnable a0 a1 a2)).cores = a2.cores ∧ (resState a2 (execSpanPortEnable a0 a1 a2)).net = a2.net ∧
      (resState a2 (execSpanPortEnable a0 a1 a2)).vats = a2.vats ∧ (resState a2 (execSpanPortEnable a0 a1 a2)).mem = a2.mem ∧
      (resState a2 (execSpanPortEnable a0 a1 a2)).host = a2.host ∧ (resState a2 (execSpanPortEnable a0 a1 a2)).boot = a2.boot ∧
      (resState a2 (execSpanPortEnable a0 a1 a2)).free = a2.free := by
  unfold execSpanPortEnable; (repeat' split) <;> simp
@[simp] theorem execSpillDrain_same (a0 : Nat) (a1 : Nat) (a2 : ReadAns) (a3 : State) :
    (resState a3 (execSpillDrain a0 a1 a2 a3)).pending = a3.pending ∧ (resState a3 (execSpillDrain a0 a1 a2 a3)).clk = a3.clk ∧
      (resState a3 (execSpillDrain a0 a1 a2 a3)).mem = a3.mem ∧ (resState a3 (execSpillDrain a0 a1 a2 a3)).span = a3.span ∧
      (resState a3 (execSpillDrain a0 a1 a2 a3)).host = a3.host ∧ (resState a3 (execSpillDrain a0 a1 a2 a3)).boot = a3.boot ∧
      (resState a3 (execSpillDrain a0 a1 a2 a3)).free = a3.free := by
  unfold execSpillDrain; dsimp only; (repeat' (split <;> try dsimp only)) <;> simp_all
@[simp] theorem execSpillWriteAck_same (a0 : Nat) (a1 : Nat) (a2 : State) :
    (resState a2 (execSpillWriteAck a0 a1 a2)).pending = a2.pending ∧ (resState a2 (execSpillWriteAck a0 a1 a2)).clk = a2.clk ∧
      (resState a2 (execSpillWriteAck a0 a1 a2)).net = a2.net ∧ (resState a2 (execSpillWriteAck a0 a1 a2)).vats = a2.vats ∧
      (resState a2 (execSpillWriteAck a0 a1 a2)).mem = a2.mem ∧ (resState a2 (execSpillWriteAck a0 a1 a2)).host = a2.host ∧
      (resState a2 (execSpillWriteAck a0 a1 a2)).boot = a2.boot ∧ (resState a2 (execSpillWriteAck a0 a1 a2)).free = a2.free := by
  unfold execSpillWriteAck; dsimp only; (repeat' (split <;> try dsimp only)) <;> simp_all
@[simp] theorem execSpload_same (a0 : Nat) (a1 : Nat) (a2 : State) :
    (resState a2 (execSpload a0 a1 a2)).pending = a2.pending ∧ (resState a2 (execSpload a0 a1 a2)).clk = a2.clk ∧
      (resState a2 (execSpload a0 a1 a2)).mem = a2.mem ∧ (resState a2 (execSpload a0 a1 a2)).span = a2.span ∧
      (resState a2 (execSpload a0 a1 a2)).host = a2.host ∧ (resState a2 (execSpload a0 a1 a2)).boot = a2.boot ∧
      (resState a2 (execSpload a0 a1 a2)).free = a2.free := by
  unfold execSpload; dsimp only; (repeat' (split <;> try dsimp only)) <;> simp_all
@[simp] theorem execSploadComplete_same (a0 : Nat) (a1 : Nat) (a2 : State) :
    (resState a2 (execSploadComplete a0 a1 a2)).pending = a2.pending ∧ (resState a2 (execSploadComplete a0 a1 a2)).clk = a2.clk ∧
      (resState a2 (execSploadComplete a0 a1 a2)).mem = a2.mem ∧ (resState a2 (execSploadComplete a0 a1 a2)).span = a2.span ∧
      (resState a2 (execSploadComplete a0 a1 a2)).host = a2.host ∧ (resState a2 (execSploadComplete a0 a1 a2)).boot = a2.boot ∧
      (resState a2 (execSploadComplete a0 a1 a2)).free = a2.free := by
  unfold execSploadComplete; dsimp only; (repeat' (split <;> try dsimp only)) <;> simp_all
@[simp] theorem execSqTail_same (a0 : Nat) (a1 : Nat) (a2 : Nat) (a3 : Nat) (a4 : State) :
    (resState a4 (execSqTail a0 a1 a2 a3 a4)).pending = a4.pending ∧ (resState a4 (execSqTail a0 a1 a2 a3 a4)).clk = a4.clk ∧
      (resState a4 (execSqTail a0 a1 a2 a3 a4)).cores = a4.cores ∧ (resState a4 (execSqTail a0 a1 a2 a3 a4)).net = a4.net ∧
      (resState a4 (execSqTail a0 a1 a2 a3 a4)).vats = a4.vats ∧ (resState a4 (execSqTail a0 a1 a2 a3 a4)).mem = a4.mem ∧
      (resState a4 (execSqTail a0 a1 a2 a3 a4)).span = a4.span ∧ (resState a4 (execSqTail a0 a1 a2 a3 a4)).boot = a4.boot ∧
      (resState a4 (execSqTail a0 a1 a2 a3 a4)).free = a4.free := by
  unfold execSqTail; (repeat' split) <;> simp
@[simp] theorem execSra_same (a0 : Nat) (a1 : Guard) (a2 : Reg) (a3 : Reg) (a4 : Reg) (a5 : State) :
    (resState a5 (execSra a0 a1 a2 a3 a4 a5)).pending = a5.pending ∧ (resState a5 (execSra a0 a1 a2 a3 a4 a5)).clk = a5.clk ∧
      (resState a5 (execSra a0 a1 a2 a3 a4 a5)).mem = a5.mem ∧ (resState a5 (execSra a0 a1 a2 a3 a4 a5)).span = a5.span ∧
      (resState a5 (execSra a0 a1 a2 a3 a4 a5)).host = a5.host ∧ (resState a5 (execSra a0 a1 a2 a3 a4 a5)).boot = a5.boot ∧
      (resState a5 (execSra a0 a1 a2 a3 a4 a5)).free = a5.free := by
  unfold execSra; (repeat' split) <;> simp
@[simp] theorem execSrai_same (a0 : Nat) (a1 : Guard) (a2 : Reg) (a3 : Reg) (a4 : BitVec 6) (a5 : State) :
    (resState a5 (execSrai a0 a1 a2 a3 a4 a5)).pending = a5.pending ∧ (resState a5 (execSrai a0 a1 a2 a3 a4 a5)).clk = a5.clk ∧
      (resState a5 (execSrai a0 a1 a2 a3 a4 a5)).mem = a5.mem ∧ (resState a5 (execSrai a0 a1 a2 a3 a4 a5)).span = a5.span ∧
      (resState a5 (execSrai a0 a1 a2 a3 a4 a5)).host = a5.host ∧ (resState a5 (execSrai a0 a1 a2 a3 a4 a5)).boot = a5.boot ∧
      (resState a5 (execSrai a0 a1 a2 a3 a4 a5)).free = a5.free := by
  unfold execSrai; (repeat' split) <;> simp
@[simp] theorem execSread_same (a0 : Nat) (a1 : Guard) (a2 : Reg) (a3 : Reg) (a4 : State) :
    (resState a4 (execSread a0 a1 a2 a3 a4)).pending = a4.pending ∧ (resState a4 (execSread a0 a1 a2 a3 a4)).clk = a4.clk ∧
      (resState a4 (execSread a0 a1 a2 a3 a4)).mem = a4.mem ∧ (resState a4 (execSread a0 a1 a2 a3 a4)).span = a4.span ∧
      (resState a4 (execSread a0 a1 a2 a3 a4)).host = a4.host ∧ (resState a4 (execSread a0 a1 a2 a3 a4)).boot = a4.boot ∧
      (resState a4 (execSread a0 a1 a2 a3 a4)).free = a4.free := by
  unfold execSread; refine ⟨by first | (simp; done) | (rw [resState_next]; apply State.syncInstr_same_pending; intros; (first | (simp; done) | (dsimp only; (repeat' (split <;> try dsimp only)) <;> simp_all)); done) | ((repeat' split) <;> first | (simp; done) | (rw [resState_next]; apply State.syncInstr_same_pending; intros; (first | (simp; done) | (dsimp only; (repeat' (split <;> try dsimp only)) <;> simp_all)); done)), by first | (simp; done) | (rw [resState_next]; apply State.syncInstr_same_clk; intros; (first | (simp; done) | (dsimp only; (repeat' (split <;> try dsimp only)) <;> simp_all)); done) | ((repeat' split) <;> first | (simp; done) | (rw [resState_next]; apply State.syncInstr_same_clk; intros; (first | (simp; done) | (dsimp only; (repeat' (split <;> try dsimp only)) <;> simp_all)); done)), by first | (simp; done) | (rw [resState_next]; apply State.syncInstr_same_mem; intros; (first | (simp; done) | (dsimp only; (repeat' (split <;> try dsimp only)) <;> simp_all)); done) | ((repeat' split) <;> first | (simp; done) | (rw [resState_next]; apply State.syncInstr_same_mem; intros; (first | (simp; done) | (dsimp only; (repeat' (split <;> try dsimp only)) <;> simp_all)); done)), by first | (simp; done) | (rw [resState_next]; apply State.syncInstr_same_span; intros; (first | (simp; done) | (dsimp only; (repeat' (split <;> try dsimp only)) <;> simp_all)); done) | ((repeat' split) <;> first | (simp; done) | (rw [resState_next]; apply State.syncInstr_same_span; intros; (first | (simp; done) | (dsimp only; (repeat' (split <;> try dsimp only)) <;> simp_all)); done)), by first | (simp; done) | (rw [resState_next]; apply State.syncInstr_same_host; intros; (first | (simp; done) | (dsimp only; (repeat' (split <;> try dsimp only)) <;> simp_all)); done) | ((repeat' split) <;> first | (simp; done) | (rw [resState_next]; apply State.syncInstr_same_host; intros; (first | (simp; done) | (dsimp only; (repeat' (split <;> try dsimp only)) <;> simp_all)); done)), by first | (simp; done) | (rw [resState_next]; apply State.syncInstr_same_boot; intros; (first | (simp; done) | (dsimp only; (repeat' (split <;> try dsimp only)) <;> simp_all)); done) | ((repeat' split) <;> first | (simp; done) | (rw [resState_next]; apply State.syncInstr_same_boot; intros; (first | (simp; done) | (dsimp only; (repeat' (split <;> try dsimp only)) <;> simp_all)); done)), by first | (simp; done) | (rw [resState_next]; apply State.syncInstr_same_free; intros; (first | (simp; done) | (dsimp only; (repeat' (split <;> try dsimp only)) <;> simp_all)); done) | ((repeat' split) <;> first | (simp; done) | (rw [resState_next]; apply State.syncInstr_same_free; intros; (first | (simp; done) | (dsimp only; (repeat' (split <;> try dsimp only)) <;> simp_all)); done))⟩
@[simp] theorem execSrl_same (a0 : Nat) (a1 : Guard) (a2 : Reg) (a3 : Reg) (a4 : Reg) (a5 : State) :
    (resState a5 (execSrl a0 a1 a2 a3 a4 a5)).pending = a5.pending ∧ (resState a5 (execSrl a0 a1 a2 a3 a4 a5)).clk = a5.clk ∧
      (resState a5 (execSrl a0 a1 a2 a3 a4 a5)).mem = a5.mem ∧ (resState a5 (execSrl a0 a1 a2 a3 a4 a5)).span = a5.span ∧
      (resState a5 (execSrl a0 a1 a2 a3 a4 a5)).host = a5.host ∧ (resState a5 (execSrl a0 a1 a2 a3 a4 a5)).boot = a5.boot ∧
      (resState a5 (execSrl a0 a1 a2 a3 a4 a5)).free = a5.free := by
  unfold execSrl; (repeat' split) <;> simp
@[simp] theorem execSrli_same (a0 : Nat) (a1 : Guard) (a2 : Reg) (a3 : Reg) (a4 : BitVec 6) (a5 : State) :
    (resState a5 (execSrli a0 a1 a2 a3 a4 a5)).pending = a5.pending ∧ (resState a5 (execSrli a0 a1 a2 a3 a4 a5)).clk = a5.clk ∧
      (resState a5 (execSrli a0 a1 a2 a3 a4 a5)).mem = a5.mem ∧ (resState a5 (execSrli a0 a1 a2 a3 a4 a5)).span = a5.span ∧
      (resState a5 (execSrli a0 a1 a2 a3 a4 a5)).host = a5.host ∧ (resState a5 (execSrli a0 a1 a2 a3 a4 a5)).boot = a5.boot ∧
      (resState a5 (execSrli a0 a1 a2 a3 a4 a5)).free = a5.free := by
  unfold execSrli; (repeat' split) <;> simp
@[simp] theorem execSsig_same (a0 : Nat) (a1 : Nat) (a2 : State) :
    (resState a2 (execSsig a0 a1 a2)).pending = a2.pending ∧ (resState a2 (execSsig a0 a1 a2)).clk = a2.clk ∧
      (resState a2 (execSsig a0 a1 a2)).mem = a2.mem ∧ (resState a2 (execSsig a0 a1 a2)).host = a2.host ∧
      (resState a2 (execSsig a0 a1 a2)).boot = a2.boot ∧ (resState a2 (execSsig a0 a1 a2)).free = a2.free := by
  unfold execSsig; refine ⟨by first | (simp; done) | (rw [resState_next]; apply State.seInstr_same_pending; intros; (first | (simp; done) | (dsimp only; (repeat' (split <;> try dsimp only)) <;> simp_all)); done) | ((repeat' split) <;> first | (simp; done) | (rw [resState_next]; apply State.seInstr_same_pending; intros; (first | (simp; done) | (dsimp only; (repeat' (split <;> try dsimp only)) <;> simp_all)); done)), by first | (simp; done) | (rw [resState_next]; apply State.seInstr_same_clk; intros; (first | (simp; done) | (dsimp only; (repeat' (split <;> try dsimp only)) <;> simp_all)); done) | ((repeat' split) <;> first | (simp; done) | (rw [resState_next]; apply State.seInstr_same_clk; intros; (first | (simp; done) | (dsimp only; (repeat' (split <;> try dsimp only)) <;> simp_all)); done)), by first | (simp; done) | (rw [resState_next]; apply State.seInstr_same_mem; intros; (first | (simp; done) | (dsimp only; (repeat' (split <;> try dsimp only)) <;> simp_all)); done) | ((repeat' split) <;> first | (simp; done) | (rw [resState_next]; apply State.seInstr_same_mem; intros; (first | (simp; done) | (dsimp only; (repeat' (split <;> try dsimp only)) <;> simp_all)); done)), by first | (simp; done) | (rw [resState_next]; apply State.seInstr_same_host; intros; (first | (simp; done) | (dsimp only; (repeat' (split <;> try dsimp only)) <;> simp_all)); done) | ((repeat' split) <;> first | (simp; done) | (rw [resState_next]; apply State.seInstr_same_host; intros; (first | (simp; done) | (dsimp only; (repeat' (split <;> try dsimp only)) <;> simp_all)); done)), by first | (simp; done) | (rw [resState_next]; apply State.seInstr_same_boot; intros; (first | (simp; done) | (dsimp only; (repeat' (split <;> try dsimp only)) <;> simp_all)); done) | ((repeat' split) <;> first | (simp; done) | (rw [resState_next]; apply State.seInstr_same_boot; intros; (first | (simp; done) | (dsimp only; (repeat' (split <;> try dsimp only)) <;> simp_all)); done)), by first | (simp; done) | (rw [resState_next]; apply State.seInstr_same_free; intros; (first | (simp; done) | (dsimp only; (repeat' (split <;> try dsimp only)) <;> simp_all)); done) | ((repeat' split) <;> first | (simp; done) | (rw [resState_next]; apply State.seInstr_same_free; intros; (first | (simp; done) | (dsimp only; (repeat' (split <;> try dsimp only)) <;> simp_all)); done))⟩
@[simp] theorem execSsub_same (a0 : Nat) (a1 : Guard) (a2 : Reg) (a3 : Reg) (a4 : State) :
    (resState a4 (execSsub a0 a1 a2 a3 a4)).pending = a4.pending ∧ (resState a4 (execSsub a0 a1 a2 a3 a4)).clk = a4.clk ∧
      (resState a4 (execSsub a0 a1 a2 a3 a4)).mem = a4.mem ∧ (resState a4 (execSsub a0 a1 a2 a3 a4)).span = a4.span ∧
      (resState a4 (execSsub a0 a1 a2 a3 a4)).host = a4.host ∧ (resState a4 (execSsub a0 a1 a2 a3 a4)).boot = a4.boot ∧
      (resState a4 (execSsub a0 a1 a2 a3 a4)).free = a4.free := by
  unfold execSsub; refine ⟨by first | (simp; done) | (rw [resState_next]; apply State.syncInstr_same_pending; intros; (first | (simp; done) | (dsimp only; (repeat' (split <;> try dsimp only)) <;> simp_all)); done) | ((repeat' split) <;> first | (simp; done) | (rw [resState_next]; apply State.syncInstr_same_pending; intros; (first | (simp; done) | (dsimp only; (repeat' (split <;> try dsimp only)) <;> simp_all)); done)), by first | (simp; done) | (rw [resState_next]; apply State.syncInstr_same_clk; intros; (first | (simp; done) | (dsimp only; (repeat' (split <;> try dsimp only)) <;> simp_all)); done) | ((repeat' split) <;> first | (simp; done) | (rw [resState_next]; apply State.syncInstr_same_clk; intros; (first | (simp; done) | (dsimp only; (repeat' (split <;> try dsimp only)) <;> simp_all)); done)), by first | (simp; done) | (rw [resState_next]; apply State.syncInstr_same_mem; intros; (first | (simp; done) | (dsimp only; (repeat' (split <;> try dsimp only)) <;> simp_all)); done) | ((repeat' split) <;> first | (simp; done) | (rw [resState_next]; apply State.syncInstr_same_mem; intros; (first | (simp; done) | (dsimp only; (repeat' (split <;> try dsimp only)) <;> simp_all)); done)), by first | (simp; done) | (rw [resState_next]; apply State.syncInstr_same_span; intros; (first | (simp; done) | (dsimp only; (repeat' (split <;> try dsimp only)) <;> simp_all)); done) | ((repeat' split) <;> first | (simp; done) | (rw [resState_next]; apply State.syncInstr_same_span; intros; (first | (simp; done) | (dsimp only; (repeat' (split <;> try dsimp only)) <;> simp_all)); done)), by first | (simp; done) | (rw [resState_next]; apply State.syncInstr_same_host; intros; (first | (simp; done) | (dsimp only; (repeat' (split <;> try dsimp only)) <;> simp_all)); done) | ((repeat' split) <;> first | (simp; done) | (rw [resState_next]; apply State.syncInstr_same_host; intros; (first | (simp; done) | (dsimp only; (repeat' (split <;> try dsimp only)) <;> simp_all)); done)), by first | (simp; done) | (rw [resState_next]; apply State.syncInstr_same_boot; intros; (first | (simp; done) | (dsimp only; (repeat' (split <;> try dsimp only)) <;> simp_all)); done) | ((repeat' split) <;> first | (simp; done) | (rw [resState_next]; apply State.syncInstr_same_boot; intros; (first | (simp; done) | (dsimp only; (repeat' (split <;> try dsimp only)) <;> simp_all)); done)), by first | (simp; done) | (rw [resState_next]; apply State.syncInstr_same_free; intros; (first | (simp; done) | (dsimp only; (repeat' (split <;> try dsimp only)) <;> simp_all)); done) | ((repeat' split) <;> first | (simp; done) | (rw [resState_next]; apply State.syncInstr_same_free; intros; (first | (simp; done) | (dsimp only; (repeat' (split <;> try dsimp only)) <;> simp_all)); done))⟩
@[simp] theorem execStB_same (a0 : Nat) (a1 : Guard) (a2 : Reg) (a3 : Reg) (a4 : BitVec 10) (a5 : State) :
    (resState a5 (execStB a0 a1 a2 a3 a4 a5)).pending = a5.pending ∧ (resState a5 (execStB a0 a1 a2 a3 a4 a5)).clk = a5.clk ∧
      (resState a5 (execStB a0 a1 a2 a3 a4 a5)).mem = a5.mem ∧ (resState a5 (execStB a0 a1 a2 a3 a4 a5)).span = a5.span ∧
      (resState a5 (execStB a0 a1 a2 a3 a4 a5)).host = a5.host ∧ (resState a5 (execStB a0 a1 a2 a3 a4 a5)).boot = a5.boot ∧
      (resState a5 (execStB a0 a1 a2 a3 a4 a5)).free = a5.free := by
  unfold execStB; (repeat' split) <;> simp

end Sys2Proof.Machine
end

