-- ==== Sys2Proof/Laws/Exec5.lean ====
section
/-! SUPPORT. What each meaning leaves unchanged: the parts of the state it does not touch, and the canonical form of the memories (5 of 6). -/

namespace Sys2Proof.Machine

@[simp] theorem execStD_same (a0 : Nat) (a1 : Guard) (a2 : Reg) (a3 : Reg) (a4 : BitVec 10) (a5 : State) :
    (resState a5 (execStD a0 a1 a2 a3 a4 a5)).pending = a5.pending ∧ (resState a5 (execStD a0 a1 a2 a3 a4 a5)).clk = a5.clk ∧
      (resState a5 (execStD a0 a1 a2 a3 a4 a5)).mem = a5.mem ∧ (resState a5 (execStD a0 a1 a2 a3 a4 a5)).span = a5.span ∧
      (resState a5 (execStD a0 a1 a2 a3 a4 a5)).host = a5.host ∧ (resState a5 (execStD a0 a1 a2 a3 a4 a5)).boot = a5.boot ∧
      (resState a5 (execStD a0 a1 a2 a3 a4 a5)).free = a5.free := by
  unfold execStD; (repeat' split) <;> simp
@[simp] theorem execStH_same (a0 : Nat) (a1 : Guard) (a2 : Reg) (a3 : Reg) (a4 : BitVec 10) (a5 : State) :
    (resState a5 (execStH a0 a1 a2 a3 a4 a5)).pending = a5.pending ∧ (resState a5 (execStH a0 a1 a2 a3 a4 a5)).clk = a5.clk ∧
      (resState a5 (execStH a0 a1 a2 a3 a4 a5)).mem = a5.mem ∧ (resState a5 (execStH a0 a1 a2 a3 a4 a5)).span = a5.span ∧
      (resState a5 (execStH a0 a1 a2 a3 a4 a5)).host = a5.host ∧ (resState a5 (execStH a0 a1 a2 a3 a4 a5)).boot = a5.boot ∧
      (resState a5 (execStH a0 a1 a2 a3 a4 a5)).free = a5.free := by
  unfold execStH; (repeat' split) <;> simp
@[simp] theorem execStW_same (a0 : Nat) (a1 : Guard) (a2 : Reg) (a3 : Reg) (a4 : BitVec 10) (a5 : State) :
    (resState a5 (execStW a0 a1 a2 a3 a4 a5)).pending = a5.pending ∧ (resState a5 (execStW a0 a1 a2 a3 a4 a5)).clk = a5.clk ∧
      (resState a5 (execStW a0 a1 a2 a3 a4 a5)).mem = a5.mem ∧ (resState a5 (execStW a0 a1 a2 a3 a4 a5)).span = a5.span ∧
      (resState a5 (execStW a0 a1 a2 a3 a4 a5)).host = a5.host ∧ (resState a5 (execStW a0 a1 a2 a3 a4 a5)).boot = a5.boot ∧
      (resState a5 (execStW a0 a1 a2 a3 a4 a5)).free = a5.free := by
  unfold execStW; (repeat' split) <;> simp
@[simp] theorem execStackCommand_same (a0 : StkBy) (a1 : Nat) (a2 : Nat) (a3 : List Byte) (a4 : List Nat) (a5 : State) :
    (resState a5 (execStackCommand a0 a1 a2 a3 a4 a5)).pending = a5.pending ∧ (resState a5 (execStackCommand a0 a1 a2 a3 a4 a5)).clk = a5.clk ∧
      (resState a5 (execStackCommand a0 a1 a2 a3 a4 a5)).cores = a5.cores ∧ (resState a5 (execStackCommand a0 a1 a2 a3 a4 a5)).net = a5.net ∧
      (resState a5 (execStackCommand a0 a1 a2 a3 a4 a5)).vats = a5.vats ∧ (resState a5 (execStackCommand a0 a1 a2 a3 a4 a5)).span = a5.span ∧
      (resState a5 (execStackCommand a0 a1 a2 a3 a4 a5)).host = a5.host ∧ (resState a5 (execStackCommand a0 a1 a2 a3 a4 a5)).boot = a5.boot ∧
      (resState a5 (execStackCommand a0 a1 a2 a3 a4 a5)).free = a5.free := by
  unfold execStackCommand; (repeat' split) <;> simp
@[simp] theorem execStackCommand_kept (a0 : StkBy) (a1 : Nat) (a2 : Nat) (a3 : List Byte) (a4 : List Nat) (a5 : State) :
    (resState a5 (execStackCommand a0 a1 a2 a3 a4 a5)).mem.stack = a5.mem.stack := by
  unfold execStackCommand; (repeat' split) <;> simp
@[simp] theorem execStackCommandComplete_same (a0 : Nat) (a1 : State) :
    (resState a1 (execStackCommandComplete a0 a1)).pending = a1.pending ∧ (resState a1 (execStackCommandComplete a0 a1)).clk = a1.clk ∧
      (resState a1 (execStackCommandComplete a0 a1)).boot = a1.boot := by
  unfold execStackCommandComplete; (repeat' split) <;> simp
@[simp] theorem execStackCommandComplete_wf_mem_stack (a0 : Nat) (a1 : State)  (hw : a1.mem.stack.wf = true) :
    (resState a1 (execStackCommandComplete a0 a1)).mem.stack.wf = true := by
  unfold execStackCommandComplete; (repeat' split) <;> simp_all (maxDischargeDepth := 30)
@[simp] theorem execStackCommandStart_same (a0 : Nat) (a1 : State) :
    (resState a1 (execStackCommandStart a0 a1)).pending = a1.pending ∧ (resState a1 (execStackCommandStart a0 a1)).clk = a1.clk ∧
      (resState a1 (execStackCommandStart a0 a1)).cores = a1.cores ∧ (resState a1 (execStackCommandStart a0 a1)).net = a1.net ∧
      (resState a1 (execStackCommandStart a0 a1)).span = a1.span ∧ (resState a1 (execStackCommandStart a0 a1)).host = a1.host ∧
      (resState a1 (execStackCommandStart a0 a1)).boot = a1.boot ∧ (resState a1 (execStackCommandStart a0 a1)).free = a1.free := by
  unfold execStackCommandStart; dsimp only; (repeat' (split <;> try dsimp only)) <;> simp_all
@[simp] theorem execStackCommandStart_kept (a0 : Nat) (a1 : State) :
    (resState a1 (execStackCommandStart a0 a1)).mem.stack = a1.mem.stack := by
  unfold execStackCommandStart; dsimp only; (repeat' (split <;> try dsimp only)) <;> simp_all
@[simp] theorem execStackMergeSend_same (a0 : Nat) (a1 : Nat) (a2 : State) :
    (resState a2 (execStackMergeSend a0 a1 a2)).pending = a2.pending ∧ (resState a2 (execStackMergeSend a0 a1 a2)).clk = a2.clk ∧
      (resState a2 (execStackMergeSend a0 a1 a2)).net = a2.net ∧ (resState a2 (execStackMergeSend a0 a1 a2)).vats = a2.vats ∧
      (resState a2 (execStackMergeSend a0 a1 a2)).mem = a2.mem ∧ (resState a2 (execStackMergeSend a0 a1 a2)).host = a2.host ∧
      (resState a2 (execStackMergeSend a0 a1 a2)).boot = a2.boot ∧ (resState a2 (execStackMergeSend a0 a1 a2)).free = a2.free := by
  unfold execStackMergeSend; (repeat' split) <;> simp
@[simp] theorem execStackRead_same (a0 : Prod StkWho (Option Nat)) (a1 : Nat) (a2 : Nat) (a3 : State) :
    (resState a3 (execStackRead a0 a1 a2 a3)).pending = a3.pending ∧ (resState a3 (execStackRead a0 a1 a2 a3)).clk = a3.clk ∧
      (resState a3 (execStackRead a0 a1 a2 a3)).cores = a3.cores ∧ (resState a3 (execStackRead a0 a1 a2 a3)).net = a3.net ∧
      (resState a3 (execStackRead a0 a1 a2 a3)).span = a3.span ∧ (resState a3 (execStackRead a0 a1 a2 a3)).host = a3.host ∧
      (resState a3 (execStackRead a0 a1 a2 a3)).boot = a3.boot ∧ (resState a3 (execStackRead a0 a1 a2 a3)).free = a3.free := by
  unfold execStackRead; (repeat' split) <;> simp
@[simp] theorem execStackRead_kept (a0 : Prod StkWho (Option Nat)) (a1 : Nat) (a2 : Nat) (a3 : State) :
    (resState a3 (execStackRead a0 a1 a2 a3)).mem.stack = a3.mem.stack := by
  unfold execStackRead; (repeat' split) <;> simp
@[simp] theorem execStackReadReturn_same (a0 : Nat) (a1 : State) :
    (resState a1 (execStackReadReturn a0 a1)).pending = a1.pending ∧ (resState a1 (execStackReadReturn a0 a1)).clk = a1.clk ∧
      (resState a1 (execStackReadReturn a0 a1)).cores = a1.cores ∧ (resState a1 (execStackReadReturn a0 a1)).net = a1.net ∧
      (resState a1 (execStackReadReturn a0 a1)).vats = a1.vats ∧ (resState a1 (execStackReadReturn a0 a1)).hub = a1.hub ∧
      (resState a1 (execStackReadReturn a0 a1)).span = a1.span ∧ (resState a1 (execStackReadReturn a0 a1)).host = a1.host ∧
      (resState a1 (execStackReadReturn a0 a1)).pwr = a1.pwr ∧ (resState a1 (execStackReadReturn a0 a1)).boot = a1.boot ∧
      (resState a1 (execStackReadReturn a0 a1)).free = a1.free := by
  unfold execStackReadReturn; (repeat' split) <;> simp
@[simp] theorem execStackReadReturn_kept (a0 : Nat) (a1 : State) :
    (resState a1 (execStackReadReturn a0 a1)).mem.stack = a1.mem.stack := by
  unfold execStackReadReturn; (repeat' split) <;> simp
@[simp] theorem execStackShareComplete_same (a0 : Nat) (a1 : Nat) (a2 : State) :
    (resState a2 (execStackShareComplete a0 a1 a2)).pending = a2.pending ∧ (resState a2 (execStackShareComplete a0 a1 a2)).clk = a2.clk ∧
      (resState a2 (execStackShareComplete a0 a1 a2)).cores = a2.cores ∧ (resState a2 (execStackShareComplete a0 a1 a2)).net = a2.net ∧
      (resState a2 (execStackShareComplete a0 a1 a2)).vats = a2.vats ∧ (resState a2 (execStackShareComplete a0 a1 a2)).hub = a2.hub ∧
      (resState a2 (execStackShareComplete a0 a1 a2)).span = a2.span ∧ (resState a2 (execStackShareComplete a0 a1 a2)).host = a2.host ∧
      (resState a2 (execStackShareComplete a0 a1 a2)).pwr = a2.pwr ∧ (resState a2 (execStackShareComplete a0 a1 a2)).boot = a2.boot ∧
      (resState a2 (execStackShareComplete a0 a1 a2)).out = a2.out ∧ (resState a2 (execStackShareComplete a0 a1 a2)).free = a2.free := by
  unfold execStackShareComplete; (repeat' split) <;> simp
@[simp] theorem execStackShareComplete_kept (a0 : Nat) (a1 : Nat) (a2 : State) :
    (resState a2 (execStackShareComplete a0 a1 a2)).mem.stack = a2.mem.stack := by
  unfold execStackShareComplete; (repeat' split) <;> simp
@[simp] theorem execStackTempRead_same (a0 : Nat) (a1 : Nat) (a2 : State) :
    (resState a2 (execStackTempRead a0 a1 a2)).pending = a2.pending ∧ (resState a2 (execStackTempRead a0 a1 a2)).clk = a2.clk ∧
      (resState a2 (execStackTempRead a0 a1 a2)).cores = a2.cores ∧ (resState a2 (execStackTempRead a0 a1 a2)).net = a2.net ∧
      (resState a2 (execStackTempRead a0 a1 a2)).vats = a2.vats ∧ (resState a2 (execStackTempRead a0 a1 a2)).span = a2.span ∧
      (resState a2 (execStackTempRead a0 a1 a2)).host = a2.host ∧ (resState a2 (execStackTempRead a0 a1 a2)).boot = a2.boot ∧
      (resState a2 (execStackTempRead a0 a1 a2)).free = a2.free := by
  unfold execStackTempRead; (repeat' split) <;> simp
@[simp] theorem execStackTempRead_kept (a0 : Nat) (a1 : Nat) (a2 : State) :
    (resState a2 (execStackTempRead a0 a1 a2)).mem.stack = a2.mem.stack := by
  unfold execStackTempRead; (repeat' split) <;> simp
@[simp] theorem execStackWrite_same (a0 : Prod StkWho (Option Nat)) (a1 : Nat) (a2 : List Byte) (a3 : List Nat) (a4 : State) :
    (resState a4 (execStackWrite a0 a1 a2 a3 a4)).pending = a4.pending ∧ (resState a4 (execStackWrite a0 a1 a2 a3 a4)).clk = a4.clk ∧
      (resState a4 (execStackWrite a0 a1 a2 a3 a4)).cores = a4.cores ∧ (resState a4 (execStackWrite a0 a1 a2 a3 a4)).net = a4.net ∧
      (resState a4 (execStackWrite a0 a1 a2 a3 a4)).host = a4.host ∧ (resState a4 (execStackWrite a0 a1 a2 a3 a4)).boot = a4.boot ∧
      (resState a4 (execStackWrite a0 a1 a2 a3 a4)).free = a4.free := by
  unfold execStackWrite; (repeat' split) <;> simp
@[simp] theorem execStackWrite_wf_mem_stack (a0 : Prod StkWho (Option Nat)) (a1 : Nat) (a2 : List Byte) (a3 : List Nat)
      (a4 : State)  (hw : a4.mem.stack.wf = true) :
    (resState a4 (execStackWrite a0 a1 a2 a3 a4)).mem.stack.wf = true := by
  unfold execStackWrite; (repeat' split) <;> simp_all (maxDischargeDepth := 30)
@[simp] theorem execStepComplete_same (a0 : Nat) (a1 : State) :
    (resState a1 (execStepComplete a0 a1)).pending = a1.pending ∧ (resState a1 (execStepComplete a0 a1)).clk = a1.clk ∧
      (resState a1 (execStepComplete a0 a1)).mem = a1.mem ∧ (resState a1 (execStepComplete a0 a1)).boot = a1.boot ∧
      (resState a1 (execStepComplete a0 a1)).free = a1.free := by
  unfold execStepComplete; (repeat' split) <;> simp
@[simp] theorem execStkcmd_same (a0 : Nat) (a1 : Nat) (a2 : State) :
    (resState a2 (execStkcmd a0 a1 a2)).pending = a2.pending ∧ (resState a2 (execStkcmd a0 a1 a2)).clk = a2.clk ∧
      (resState a2 (execStkcmd a0 a1 a2)).cores = a2.cores ∧ (resState a2 (execStkcmd a0 a1 a2)).net = a2.net ∧
      (resState a2 (execStkcmd a0 a1 a2)).span = a2.span ∧ (resState a2 (execStkcmd a0 a1 a2)).boot = a2.boot ∧
      (resState a2 (execStkcmd a0 a1 a2)).free = a2.free := by
  unfold execStkcmd; refine ⟨by first | (simp; done) | (rw [resState_next]; apply State.command_same_pending; intros; (first | (simp; done) | (dsimp only; (repeat' (split <;> try dsimp only)) <;> simp_all)); done) | ((repeat' split) <;> first | (simp; done) | (rw [resState_next]; apply State.command_same_pending; intros; (first | (simp; done) | (dsimp only; (repeat' (split <;> try dsimp only)) <;> simp_all)); done)), by first | (simp; done) | (rw [resState_next]; apply State.command_same_clk; intros; (first | (simp; done) | (dsimp only; (repeat' (split <;> try dsimp only)) <;> simp_all)); done) | ((repeat' split) <;> first | (simp; done) | (rw [resState_next]; apply State.command_same_clk; intros; (first | (simp; done) | (dsimp only; (repeat' (split <;> try dsimp only)) <;> simp_all)); done)), by first | (simp; done) | (rw [resState_next]; apply State.command_same_cores; intros; (first | (simp; done) | (dsimp only; (repeat' (split <;> try dsimp only)) <;> simp_all)); done) | ((repeat' split) <;> first | (simp; done) | (rw [resState_next]; apply State.command_same_cores; intros; (first | (simp; done) | (dsimp only; (repeat' (split <;> try dsimp only)) <;> simp_all)); done)), by first | (simp; done) | (rw [resState_next]; apply State.command_same_net; intros; (first | (simp; done) | (dsimp only; (repeat' (split <;> try dsimp only)) <;> simp_all)); done) | ((repeat' split) <;> first | (simp; done) | (rw [resState_next]; apply State.command_same_net; intros; (first | (simp; done) | (dsimp only; (repeat' (split <;> try dsimp only)) <;> simp_all)); done)), by first | (simp; done) | (rw [resState_next]; apply State.command_same_span; intros; (first | (simp; done) | (dsimp only; (repeat' (split <;> try dsimp only)) <;> simp_all)); done) | ((repeat' split) <;> first | (simp; done) | (rw [resState_next]; apply State.command_same_span; intros; (first | (simp; done) | (dsimp only; (repeat' (split <;> try dsimp only)) <;> simp_all)); done)), by first | (simp; done) | (rw [resState_next]; apply State.command_same_boot; intros; (first | (simp; done) | (dsimp only; (repeat' (split <;> try dsimp only)) <;> simp_all)); done) | ((repeat' split) <;> first | (simp; done) | (rw [resState_next]; apply State.command_same_boot; intros; (first | (simp; done) | (dsimp only; (repeat' (split <;> try dsimp only)) <;> simp_all)); done)), by first | (simp; done) | (rw [resState_next]; apply State.command_same_free; intros; (first | (simp; done) | (dsimp only; (repeat' (split <;> try dsimp only)) <;> simp_all)); done) | ((repeat' split) <;> first | (simp; done) | (rw [resState_next]; apply State.command_same_free; intros; (first | (simp; done) | (dsimp only; (repeat' (split <;> try dsimp only)) <;> simp_all)); done))⟩
@[simp] theorem execStkcmd_kept (a0 : Nat) (a1 : Nat) (a2 : State) :
    (resState a2 (execStkcmd a0 a1 a2)).mem.stack = a2.mem.stack := by
  unfold execStkcmd; first | (simp; done) | (rw [resState_next]; apply State.command_kept_mem_stack <;> (intros; (first | (simp; done) | (simp_all; done) | (dsimp only; (repeat' (split <;> try dsimp only)) <;> simp_all; done) | ((repeat' split) <;> simp_all; done))); done) | ((repeat' split) <;> first | (simp; done) | (simp_all; done) | (rw [resState_next]; apply State.command_kept_mem_stack <;> (intros; (first | (simp; done) | (simp_all; done) | (dsimp only; (repeat' (split <;> try dsimp only)) <;> simp_all; done) | ((repeat' split) <;> simp_all; done))); done))
@[simp] theorem execStop_same (a0 : Nat) (a1 : Nat) (a2 : State) :
    (resState a2 (execStop a0 a1 a2)).pending = a2.pending ∧ (resState a2 (execStop a0 a1 a2)).clk = a2.clk ∧
      (resState a2 (execStop a0 a1 a2)).net = a2.net ∧ (resState a2 (execStop a0 a1 a2)).span = a2.span ∧
      (resState a2 (execStop a0 a1 a2)).boot = a2.boot ∧ (resState a2 (execStop a0 a1 a2)).free = a2.free := by
  unfold execStop; refine ⟨by first | (simp; done) | (rw [resState_next]; apply State.command_same_pending; intros; (first | (simp; done) | (dsimp only; (repeat' (split <;> try dsimp only)) <;> simp_all)); done) | ((repeat' split) <;> first | (simp; done) | (rw [resState_next]; apply State.command_same_pending; intros; (first | (simp; done) | (dsimp only; (repeat' (split <;> try dsimp only)) <;> simp_all)); done)), by first | (simp; done) | (rw [resState_next]; apply State.command_same_clk; intros; (first | (simp; done) | (dsimp only; (repeat' (split <;> try dsimp only)) <;> simp_all)); done) | ((repeat' split) <;> first | (simp; done) | (rw [resState_next]; apply State.command_same_clk; intros; (first | (simp; done) | (dsimp only; (repeat' (split <;> try dsimp only)) <;> simp_all)); done)), by first | (simp; done) | (rw [resState_next]; apply State.command_same_net; intros; (first | (simp; done) | (dsimp only; (repeat' (split <;> try dsimp only)) <;> simp_all)); done) | ((repeat' split) <;> first | (simp; done) | (rw [resState_next]; apply State.command_same_net; intros; (first | (simp; done) | (dsimp only; (repeat' (split <;> try dsimp only)) <;> simp_all)); done)), by first | (simp; done) | (rw [resState_next]; apply State.command_same_span; intros; (first | (simp; done) | (dsimp only; (repeat' (split <;> try dsimp only)) <;> simp_all)); done) | ((repeat' split) <;> first | (simp; done) | (rw [resState_next]; apply State.command_same_span; intros; (first | (simp; done) | (dsimp only; (repeat' (split <;> try dsimp only)) <;> simp_all)); done)), by first | (simp; done) | (rw [resState_next]; apply State.command_same_boot; intros; (first | (simp; done) | (dsimp only; (repeat' (split <;> try dsimp only)) <;> simp_all)); done) | ((repeat' split) <;> first | (simp; done) | (rw [resState_next]; apply State.command_same_boot; intros; (first | (simp; done) | (dsimp only; (repeat' (split <;> try dsimp only)) <;> simp_all)); done)), by first | (simp; done) | (rw [resState_next]; apply State.command_same_free; intros; (first | (simp; done) | (dsimp only; (repeat' (split <;> try dsimp only)) <;> simp_all)); done) | ((repeat' split) <;> first | (simp; done) | (rw [resState_next]; apply State.command_same_free; intros; (first | (simp; done) | (dsimp only; (repeat' (split <;> try dsimp only)) <;> simp_all)); done))⟩
@[simp] theorem execStop_kept (a0 : Nat) (a1 : Nat) (a2 : State) :
    (resState a2 (execStop a0 a1 a2)).mem.stack = a2.mem.stack := by
  unfold execStop; first | (simp; done) | (rw [resState_next]; apply State.command_kept_mem_stack <;> (intros; (first | (simp; done) | (simp_all; done) | (dsimp only; (repeat' (split <;> try dsimp only)) <;> simp_all; done) | ((repeat' split) <;> simp_all; done))); done) | ((repeat' split) <;> first | (simp; done) | (simp_all; done) | (rw [resState_next]; apply State.command_kept_mem_stack <;> (intros; (first | (simp; done) | (simp_all; done) | (dsimp only; (repeat' (split <;> try dsimp only)) <;> simp_all; done) | ((repeat' split) <;> simp_all; done))); done))
@[simp] theorem execStrD_same (a0 : Nat) (a1 : Guard) (a2 : Reg) (a3 : Reg) (a4 : BitVec 10) (a5 : State) :
    (resState a5 (execStrD a0 a1 a2 a3 a4 a5)).pending = a5.pending ∧ (resState a5 (execStrD a0 a1 a2 a3 a4 a5)).clk = a5.clk ∧
      (resState a5 (execStrD a0 a1 a2 a3 a4 a5)).mem = a5.mem ∧ (resState a5 (execStrD a0 a1 a2 a3 a4 a5)).host = a5.host ∧
      (resState a5 (execStrD a0 a1 a2 a3 a4 a5)).boot = a5.boot ∧ (resState a5 (execStrD a0 a1 a2 a3 a4 a5)).free = a5.free := by
  unfold execStrD; (repeat' split) <;> simp
@[simp] theorem execStrRefused_same (a0 : Nat) (a1 : W64) (a2 : BitVec 8) (a3 : State) :
    (resState a3 (execStrRefused a0 a1 a2 a3)).pending = a3.pending ∧ (resState a3 (execStrRefused a0 a1 a2 a3)).clk = a3.clk ∧
      (resState a3 (execStrRefused a0 a1 a2 a3)).net = a3.net ∧ (resState a3 (execStrRefused a0 a1 a2 a3)).vats = a3.vats ∧
      (resState a3 (execStrRefused a0 a1 a2 a3)).mem = a3.mem ∧ (resState a3 (execStrRefused a0 a1 a2 a3)).hub = a3.hub ∧
      (resState a3 (execStrRefused a0 a1 a2 a3)).span = a3.span ∧ (resState a3 (execStrRefused a0 a1 a2 a3)).host = a3.host ∧
      (resState a3 (execStrRefused a0 a1 a2 a3)).pwr = a3.pwr ∧ (resState a3 (execStrRefused a0 a1 a2 a3)).boot = a3.boot ∧
      (resState a3 (execStrRefused a0 a1 a2 a3)).out = a3.out ∧ (resState a3 (execStrRefused a0 a1 a2 a3)).free = a3.free := by
  unfold execStrRefused; (repeat' split) <;> simp
@[simp] theorem execStrW_same (a0 : Nat) (a1 : Guard) (a2 : Reg) (a3 : Reg) (a4 : BitVec 10) (a5 : State) :
    (resState a5 (execStrW a0 a1 a2 a3 a4 a5)).pending = a5.pending ∧ (resState a5 (execStrW a0 a1 a2 a3 a4 a5)).clk = a5.clk ∧
      (resState a5 (execStrW a0 a1 a2 a3 a4 a5)).mem = a5.mem ∧ (resState a5 (execStrW a0 a1 a2 a3 a4 a5)).host = a5.host ∧
      (resState a5 (execStrW a0 a1 a2 a3 a4 a5)).boot = a5.boot ∧ (resState a5 (execStrW a0 a1 a2 a3 a4 a5)).free = a5.free := by
  unfold execStrW; (repeat' split) <;> simp
@[simp] theorem execStream_same (a0 : Nat) (a1 : Nat) (a2 : State) :
    (resState a2 (execStream a0 a1 a2)).pending = a2.pending ∧ (resState a2 (execStream a0 a1 a2)).clk = a2.clk ∧
      (resState a2 (execStream a0 a1 a2)).mem = a2.mem ∧ (resState a2 (execStream a0 a1 a2)).span = a2.span ∧
      (resState a2 (execStream a0 a1 a2)).host = a2.host ∧ (resState a2 (execStream a0 a1 a2)).boot = a2.boot ∧
      (resState a2 (execStream a0 a1 a2)).free = a2.free := by
  unfold execStream; dsimp only; (repeat' (split <;> try dsimp only)) <;> simp_all
@[simp] theorem execStreamComplete_same (a0 : Nat) (a1 : Nat) (a2 : State) :
    (resState a2 (execStreamComplete a0 a1 a2)).pending = a2.pending ∧ (resState a2 (execStreamComplete a0 a1 a2)).clk = a2.clk ∧
      (resState a2 (execStreamComplete a0 a1 a2)).mem = a2.mem ∧ (resState a2 (execStreamComplete a0 a1 a2)).span = a2.span ∧
      (resState a2 (execStreamComplete a0 a1 a2)).host = a2.host ∧ (resState a2 (execStreamComplete a0 a1 a2)).boot = a2.boot ∧
      (resState a2 (execStreamComplete a0 a1 a2)).free = a2.free := by
  unfold execStreamComplete; dsimp only; (repeat' (split <;> try dsimp only)) <;> simp_all
@[simp] theorem execStreamEnd_same (a0 : Nat) (a1 : Nat) (a2 : State) :
    (resState a2 (execStreamEnd a0 a1 a2)).pending = a2.pending ∧ (resState a2 (execStreamEnd a0 a1 a2)).clk = a2.clk ∧
      (resState a2 (execStreamEnd a0 a1 a2)).mem = a2.mem ∧ (resState a2 (execStreamEnd a0 a1 a2)).host = a2.host ∧
      (resState a2 (execStreamEnd a0 a1 a2)).boot = a2.boot ∧ (resState a2 (execStreamEnd a0 a1 a2)).free = a2.free := by
  unfold execStreamEnd; refine ⟨by first | (simp; done) | (rw [resState_next]; apply State.seInstr_same_pending; intros; (first | (simp; done) | (dsimp only; (repeat' (split <;> try dsimp only)) <;> simp_all)); done) | ((repeat' split) <;> first | (simp; done) | (rw [resState_next]; apply State.seInstr_same_pending; intros; (first | (simp; done) | (dsimp only; (repeat' (split <;> try dsimp only)) <;> simp_all)); done)), by first | (simp; done) | (rw [resState_next]; apply State.seInstr_same_clk; intros; (first | (simp; done) | (dsimp only; (repeat' (split <;> try dsimp only)) <;> simp_all)); done) | ((repeat' split) <;> first | (simp; done) | (rw [resState_next]; apply State.seInstr_same_clk; intros; (first | (simp; done) | (dsimp only; (repeat' (split <;> try dsimp only)) <;> simp_all)); done)), by first | (simp; done) | (rw [resState_next]; apply State.seInstr_same_mem; intros; (first | (simp; done) | (dsimp only; (repeat' (split <;> try dsimp only)) <;> simp_all)); done) | ((repeat' split) <;> first | (simp; done) | (rw [resState_next]; apply State.seInstr_same_mem; intros; (first | (simp; done) | (dsimp only; (repeat' (split <;> try dsimp only)) <;> simp_all)); done)), by first | (simp; done) | (rw [resState_next]; apply State.seInstr_same_host; intros; (first | (simp; done) | (dsimp only; (repeat' (split <;> try dsimp only)) <;> simp_all)); done) | ((repeat' split) <;> first | (simp; done) | (rw [resState_next]; apply State.seInstr_same_host; intros; (first | (simp; done) | (dsimp only; (repeat' (split <;> try dsimp only)) <;> simp_all)); done)), by first | (simp; done) | (rw [resState_next]; apply State.seInstr_same_boot; intros; (first | (simp; done) | (dsimp only; (repeat' (split <;> try dsimp only)) <;> simp_all)); done) | ((repeat' split) <;> first | (simp; done) | (rw [resState_next]; apply State.seInstr_same_boot; intros; (first | (simp; done) | (dsimp only; (repeat' (split <;> try dsimp only)) <;> simp_all)); done)), by first | (simp; done) | (rw [resState_next]; apply State.seInstr_same_free; intros; (first | (simp; done) | (dsimp only; (repeat' (split <;> try dsimp only)) <;> simp_all)); done) | ((repeat' split) <;> first | (simp; done) | (rw [resState_next]; apply State.seInstr_same_free; intros; (first | (simp; done) | (dsimp only; (repeat' (split <;> try dsimp only)) <;> simp_all)); done))⟩
@[simp] theorem execStreamReadReturn_same (a0 : Nat) (a1 : Nat) (a2 : Nat) (a3 : ReadAns) (a4 : State) :
    (resState a4 (execStreamReadReturn a0 a1 a2 a3 a4)).pending = a4.pending ∧ (resState a4 (execStreamReadReturn a0 a1 a2 a3 a4)).clk = a4.clk ∧
      (resState a4 (execStreamReadReturn a0 a1 a2 a3 a4)).mem = a4.mem ∧ (resState a4 (execStreamReadReturn a0 a1 a2 a3 a4)).host = a4.host ∧
      (resState a4 (execStreamReadReturn a0 a1 a2 a3 a4)).boot = a4.boot ∧ (resState a4 (execStreamReadReturn a0 a1 a2 a3 a4)).free = a4.free := by
  unfold execStreamReadReturn; dsimp only; (repeat' (split <;> try dsimp only)) <;> simp_all
@[simp] theorem execStretchEnd_same (a0 : Nat) (a1 : State) :
    (resState a1 (execStretchEnd a0 a1)).pending = a1.pending ∧ (resState a1 (execStretchEnd a0 a1)).clk = a1.clk ∧
      (resState a1 (execStretchEnd a0 a1)).cores = a1.cores ∧ (resState a1 (execStretchEnd a0 a1)).net = a1.net ∧
      (resState a1 (execStretchEnd a0 a1)).vats = a1.vats ∧ (resState a1 (execStretchEnd a0 a1)).mem = a1.mem ∧
      (resState a1 (execStretchEnd a0 a1)).hub = a1.hub ∧ (resState a1 (execStretchEnd a0 a1)).span = a1.span ∧
      (resState a1 (execStretchEnd a0 a1)).host = a1.host ∧ (resState a1 (execStretchEnd a0 a1)).boot = a1.boot ∧
      (resState a1 (execStretchEnd a0 a1)).out = a1.out ∧ (resState a1 (execStretchEnd a0 a1)).free = a1.free := by
  unfold execStretchEnd; (repeat' split) <;> simp
@[simp] theorem execSub_same (a0 : Nat) (a1 : Guard) (a2 : Reg) (a3 : Reg) (a4 : Reg) (a5 : State) :
    (resState a5 (execSub a0 a1 a2 a3 a4 a5)).pending = a5.pending ∧ (resState a5 (execSub a0 a1 a2 a3 a4 a5)).clk = a5.clk ∧
      (resState a5 (execSub a0 a1 a2 a3 a4 a5)).mem = a5.mem ∧ (resState a5 (execSub a0 a1 a2 a3 a4 a5)).span = a5.span ∧
      (resState a5 (execSub a0 a1 a2 a3 a4 a5)).host = a5.host ∧ (resState a5 (execSub a0 a1 a2 a3 a4 a5)).boot = a5.boot ∧
      (resState a5 (execSub a0 a1 a2 a3 a4 a5)).free = a5.free := by
  unfold execSub; (repeat' split) <;> simp
@[simp] theorem execSumsq_same (a0 : Nat) (a1 : State) :
    (resState a1 (execSumsq a0 a1)).pending = a1.pending ∧ (resState a1 (execSumsq a0 a1)).clk = a1.clk ∧
      (resState a1 (execSumsq a0 a1)).net = a1.net ∧ (resState a1 (execSumsq a0 a1)).host = a1.host ∧
      (resState a1 (execSumsq a0 a1)).boot = a1.boot ∧ (resState a1 (execSumsq a0 a1)).free = a1.free := by
  unfold execSumsq; refine ⟨by first | (simp; done) | (rw [resState_next]; apply State.stkOp_same_pending; intros; (first | (simp; done) | (dsimp only; (repeat' (split <;> try dsimp only)) <;> simp_all)); done) | ((repeat' split) <;> first | (simp; done) | (rw [resState_next]; apply State.stkOp_same_pending; intros; (first | (simp; done) | (dsimp only; (repeat' (split <;> try dsimp only)) <;> simp_all)); done)), by first | (simp; done) | (rw [resState_next]; apply State.stkOp_same_clk; intros; (first | (simp; done) | (dsimp only; (repeat' (split <;> try dsimp only)) <;> simp_all)); done) | ((repeat' split) <;> first | (simp; done) | (rw [resState_next]; apply State.stkOp_same_clk; intros; (first | (simp; done) | (dsimp only; (repeat' (split <;> try dsimp only)) <;> simp_all)); done)), by first | (simp; done) | (rw [resState_next]; apply State.stkOp_same_net; intros; (first | (simp; done) | (dsimp only; (repeat' (split <;> try dsimp only)) <;> simp_all)); done) | ((repeat' split) <;> first | (simp; done) | (rw [resState_next]; apply State.stkOp_same_net; intros; (first | (simp; done) | (dsimp only; (repeat' (split <;> try dsimp only)) <;> simp_all)); done)), by first | (simp; done) | (rw [resState_next]; apply State.stkOp_same_host; intros; (first | (simp; done) | (dsimp only; (repeat' (split <;> try dsimp only)) <;> simp_all)); done) | ((repeat' split) <;> first | (simp; done) | (rw [resState_next]; apply State.stkOp_same_host; intros; (first | (simp; done) | (dsimp only; (repeat' (split <;> try dsimp only)) <;> simp_all)); done)), by first | (simp; done) | (rw [resState_next]; apply State.stkOp_same_boot; intros; (first | (simp; done) | (dsimp only; (repeat' (split <;> try dsimp only)) <;> simp_all)); done) | ((repeat' split) <;> first | (simp; done) | (rw [resState_next]; apply State.stkOp_same_boot; intros; (first | (simp; done) | (dsimp only; (repeat' (split <;> try dsimp only)) <;> simp_all)); done)), by first | (simp; done) | (rw [resState_next]; apply State.stkOp_same_free; intros; (first | (simp; done) | (dsimp only; (repeat' (split <;> try dsimp only)) <;> simp_all)); done) | ((repeat' split) <;> first | (simp; done) | (rw [resState_next]; apply State.stkOp_same_free; intros; (first | (simp; done) | (dsimp only; (repeat' (split <;> try dsimp only)) <;> simp_all)); done))⟩
@[simp] theorem execSumsq_wf_mem_stack (a0 : Nat) (a1 : State)  (hw : a1.mem.stack.wf = true) :
    (resState a1 (execSumsq a0 a1)).mem.stack.wf = true := by
  unfold execSumsq; first | (simp (maxDischargeDepth := 30); done) | (rw [resState_next]; apply State.stkOp_wf_mem_stack <;> (intros; (first | (simp (maxDischargeDepth := 30); done) | (simp_all (maxDischargeDepth := 30); done) | (dsimp only; (repeat' (split <;> try dsimp only)) <;> simp_all (maxDischargeDepth := 30); done) | ((repeat' split) <;> simp_all (maxDischargeDepth := 30); done))); done) | ((repeat' split) <;> first | (simp (maxDischargeDepth := 30); done) | (simp_all (maxDischargeDepth := 30); done) | (rw [resState_next]; apply State.stkOp_wf_mem_stack <;> (intros; (first | (simp (maxDischargeDepth := 30); done) | (simp_all (maxDischargeDepth := 30); done) | (dsimp only; (repeat' (split <;> try dsimp only)) <;> simp_all (maxDischargeDepth := 30); done) | ((repeat' split) <;> simp_all (maxDischargeDepth := 30); done))); done))
@[simp] theorem execSwait_same (a0 : Nat) (a1 : Guard) (a2 : Reg) (a3 : Reg) (a4 : BitVec 3) (a5 : Bool) (a6 : State) :
    (resState a6 (execSwait a0 a1 a2 a3 a4 a5 a6)).pending = a6.pending ∧ (resState a6 (execSwait a0 a1 a2 a3 a4 a5 a6)).clk = a6.clk ∧
      (resState a6 (execSwait a0 a1 a2 a3 a4 a5 a6)).mem = a6.mem ∧ (resState a6 (execSwait a0 a1 a2 a3 a4 a5 a6)).span = a6.span ∧
      (resState a6 (execSwait a0 a1 a2 a3 a4 a5 a6)).host = a6.host ∧ (resState a6 (execSwait a0 a1 a2 a3 a4 a5 a6)).boot = a6.boot ∧
      (resState a6 (execSwait a0 a1 a2 a3 a4 a5 a6)).free = a6.free := by
  unfold execSwait; refine ⟨by first | (simp; done) | (rw [resState_next]; apply State.instrIf_same_pending; intros; (first | (simp; done) | (dsimp only; (repeat' (split <;> try dsimp only)) <;> simp_all)); done) | ((repeat' split) <;> first | (simp; done) | (rw [resState_next]; apply State.instrIf_same_pending; intros; (first | (simp; done) | (dsimp only; (repeat' (split <;> try dsimp only)) <;> simp_all)); done)), by first | (simp; done) | (rw [resState_next]; apply State.instrIf_same_clk; intros; (first | (simp; done) | (dsimp only; (repeat' (split <;> try dsimp only)) <;> simp_all)); done) | ((repeat' split) <;> first | (simp; done) | (rw [resState_next]; apply State.instrIf_same_clk; intros; (first | (simp; done) | (dsimp only; (repeat' (split <;> try dsimp only)) <;> simp_all)); done)), by first | (simp; done) | (rw [resState_next]; apply State.instrIf_same_mem; intros; (first | (simp; done) | (dsimp only; (repeat' (split <;> try dsimp only)) <;> simp_all)); done) | ((repeat' split) <;> first | (simp; done) | (rw [resState_next]; apply State.instrIf_same_mem; intros; (first | (simp; done) | (dsimp only; (repeat' (split <;> try dsimp only)) <;> simp_all)); done)), by first | (simp; done) | (rw [resState_next]; apply State.instrIf_same_span; intros; (first | (simp; done) | (dsimp only; (repeat' (split <;> try dsimp only)) <;> simp_all)); done) | ((repeat' split) <;> first | (simp; done) | (rw [resState_next]; apply State.instrIf_same_span; intros; (first | (simp; done) | (dsimp only; (repeat' (split <;> try dsimp only)) <;> simp_all)); done)), by first | (simp; done) | (rw [resState_next]; apply State.instrIf_same_host; intros; (first | (simp; done) | (dsimp only; (repeat' (split <;> try dsimp only)) <;> simp_all)); done) | ((repeat' split) <;> first | (simp; done) | (rw [resState_next]; apply State.instrIf_same_host; intros; (first | (simp; done) | (dsimp only; (repeat' (split <;> try dsimp only)) <;> simp_all)); done)), by first | (simp; done) | (rw [resState_next]; apply State.instrIf_same_boot; intros; (first | (simp; done) | (dsimp only; (repeat' (split <;> try dsimp only)) <;> simp_all)); done) | ((repeat' split) <;> first | (simp; done) | (rw [resState_next]; apply State.instrIf_same_boot; intros; (first | (simp; done) | (dsimp only; (repeat' (split <;> try dsimp only)) <;> simp_all)); done)), by first | (simp; done) | (rw [resState_next]; apply State.instrIf_same_free; intros; (first | (simp; done) | (dsimp only; (repeat' (split <;> try dsimp only)) <;> simp_all)); done) | ((repeat' split) <;> first | (simp; done) | (rw [resState_next]; apply State.instrIf_same_free; intros; (first | (simp; done) | (dsimp only; (repeat' (split <;> try dsimp only)) <;> simp_all)); done))⟩
@[simp] theorem execSwt_same (a0 : Nat) (a1 : Nat) (a2 : State) :
    (resState a2 (execSwt a0 a1 a2)).pending = a2.pending ∧ (resState a2 (execSwt a0 a1 a2)).clk = a2.clk ∧
      (resState a2 (execSwt a0 a1 a2)).mem = a2.mem ∧ (resState a2 (execSwt a0 a1 a2)).host = a2.host ∧
      (resState a2 (execSwt a0 a1 a2)).boot = a2.boot ∧ (resState a2 (execSwt a0 a1 a2)).free = a2.free := by
  unfold execSwt; refine ⟨by first | (simp; done) | (rw [resState_next]; apply State.seInstr_same_pending; intros; (first | (simp; done) | (dsimp only; (repeat' (split <;> try dsimp only)) <;> simp_all)); done) | ((repeat' split) <;> first | (simp; done) | (rw [resState_next]; apply State.seInstr_same_pending; intros; (first | (simp; done) | (dsimp only; (repeat' (split <;> try dsimp only)) <;> simp_all)); done)), by first | (simp; done) | (rw [resState_next]; apply State.seInstr_same_clk; intros; (first | (simp; done) | (dsimp only; (repeat' (split <;> try dsimp only)) <;> simp_all)); done) | ((repeat' split) <;> first | (simp; done) | (rw [resState_next]; apply State.seInstr_same_clk; intros; (first | (simp; done) | (dsimp only; (repeat' (split <;> try dsimp only)) <;> simp_all)); done)), by first | (simp; done) | (rw [resState_next]; apply State.seInstr_same_mem; intros; (first | (simp; done) | (dsimp only; (repeat' (split <;> try dsimp only)) <;> simp_all)); done) | ((repeat' split) <;> first | (simp; done) | (rw [resState_next]; apply State.seInstr_same_mem; intros; (first | (simp; done) | (dsimp only; (repeat' (split <;> try dsimp only)) <;> simp_all)); done)), by first | (simp; done) | (rw [resState_next]; apply State.seInstr_same_host; intros; (first | (simp; done) | (dsimp only; (repeat' (split <;> try dsimp only)) <;> simp_all)); done) | ((repeat' split) <;> first | (simp; done) | (rw [resState_next]; apply State.seInstr_same_host; intros; (first | (simp; done) | (dsimp only; (repeat' (split <;> try dsimp only)) <;> simp_all)); done)), by first | (simp; done) | (rw [resState_next]; apply State.seInstr_same_boot; intros; (first | (simp; done) | (dsimp only; (repeat' (split <;> try dsimp only)) <;> simp_all)); done) | ((repeat' split) <;> first | (simp; done) | (rw [resState_next]; apply State.seInstr_same_boot; intros; (first | (simp; done) | (dsimp only; (repeat' (split <;> try dsimp only)) <;> simp_all)); done)), by first | (simp; done) | (rw [resState_next]; apply State.seInstr_same_free; intros; (first | (simp; done) | (dsimp only; (repeat' (split <;> try dsimp only)) <;> simp_all)); done) | ((repeat' split) <;> first | (simp; done) | (rw [resState_next]; apply State.seInstr_same_free; intros; (first | (simp; done) | (dsimp only; (repeat' (split <;> try dsimp only)) <;> simp_all)); done))⟩
@[simp] theorem execSyncApply_same (a0 : Nat) (a1 : State) :
    (resState a1 (execSyncApply a0 a1)).pending = a1.pending ∧ (resState a1 (execSyncApply a0 a1)).clk = a1.clk ∧
      (resState a1 (execSyncApply a0 a1)).vats = a1.vats ∧ (resState a1 (execSyncApply a0 a1)).mem = a1.mem ∧
      (resState a1 (execSyncApply a0 a1)).span = a1.span ∧ (resState a1 (execSyncApply a0 a1)).host = a1.host ∧
      (resState a1 (execSyncApply a0 a1)).boot = a1.boot ∧ (resState a1 (execSyncApply a0 a1)).free = a1.free := by
  unfold execSyncApply; (repeat' split) <;> simp
@[simp] theorem execSyncCtrSet_same (a0 : Who) (a1 : Nat) (a2 : Nat) (a3 : State) : (resState a3 (execSyncCtrSet a0 a1 a2 a3)).pending = a3.pending := by
  unfold execSyncCtrSet; (repeat' (split <;> try dsimp only)) <;> simp
theorem execSyncCtrSet_memOk (a0 : Who) (a1 : Nat) (a2 : Nat) (a3 : State) (h : a3.MemOk) : (resState a3 (execSyncCtrSet a0 a1 a2 a3)).MemOk := by
  unfold execSyncCtrSet; rw [resState_next]
  split
  · exact h
  · exact State.writeCmd_memOk _ _ _ _ _ h
@[simp] theorem execSyncFrameReceive_same (a0 : Nat) (a1 : State) :
    (resState a1 (execSyncFrameReceive a0 a1)).pending = a1.pending ∧ (resState a1 (execSyncFrameReceive a0 a1)).clk = a1.clk ∧
      (resState a1 (execSyncFrameReceive a0 a1)).mem = a1.mem ∧ (resState a1 (execSyncFrameReceive a0 a1)).host = a1.host ∧
      (resState a1 (execSyncFrameReceive a0 a1)).boot = a1.boot ∧ (resState a1 (execSyncFrameReceive a0 a1)).free = a1.free := by
  unfold execSyncFrameReceive; dsimp only; split <;> first | (rename_i hq; have hq' := State.takeFrame_same hq; (repeat' (split <;> try dsimp only)) <;> simp_all; done) | (simp; done)
@[simp] theorem execSyncFrameRelease_same (a0 : Nat) (a1 : State) :
    (resState a1 (execSyncFrameRelease a0 a1)).pending = a1.pending ∧ (resState a1 (execSyncFrameRelease a0 a1)).clk = a1.clk ∧
      (resState a1 (execSyncFrameRelease a0 a1)).mem = a1.mem ∧ (resState a1 (execSyncFrameRelease a0 a1)).host = a1.host ∧
      (resState a1 (execSyncFrameRelease a0 a1)).boot = a1.boot ∧ (resState a1 (execSyncFrameRelease a0 a1)).free = a1.free := by
  unfold execSyncFrameRelease; (repeat' split) <;> simp
@[simp] theorem execSyncLossTimeout_same (a0 : State) :
    (resState a0 (execSyncLossTimeout a0)).pending = a0.pending ∧ (resState a0 (execSyncLossTimeout a0)).clk = a0.clk ∧
      (resState a0 (execSyncLossTimeout a0)).cores = a0.cores ∧ (resState a0 (execSyncLossTimeout a0)).net = a0.net ∧
      (resState a0 (execSyncLossTimeout a0)).mem = a0.mem ∧ (resState a0 (execSyncLossTimeout a0)).span = a0.span ∧
      (resState a0 (execSyncLossTimeout a0)).host = a0.host ∧ (resState a0 (execSyncLossTimeout a0)).boot = a0.boot ∧
      (resState a0 (execSyncLossTimeout a0)).free = a0.free := by
  unfold execSyncLossTimeout; (repeat' split) <;> simp
@[simp] theorem execSyncWord_same (a0 : Nat) (a1 : W64) (a2 : State) :
    (resState a2 (execSyncWord a0 a1 a2)).pending = a2.pending ∧ (resState a2 (execSyncWord a0 a1 a2)).clk = a2.clk ∧
      (resState a2 (execSyncWord a0 a1 a2)).mem = a2.mem ∧ (resState a2 (execSyncWord a0 a1 a2)).host = a2.host ∧
      (resState a2 (execSyncWord a0 a1 a2)).boot = a2.boot ∧ (resState a2 (execSyncWord a0 a1 a2)).free = a2.free := by
  unfold execSyncWord; dsimp only; (repeat' (split <;> try dsimp only)) <;> simp_all
@[simp] theorem execTakeover_same (a0 : State) :
    (resState a0 (execTakeover a0)).pending = a0.pending ∧ (resState a0 (execTakeover a0)).clk = a0.clk ∧
      (resState a0 (execTakeover a0)).cores = a0.cores ∧ (resState a0 (execTakeover a0)).net = a0.net ∧
      (resState a0 (execTakeover a0)).boot = a0.boot ∧ (resState a0 (execTakeover a0)).free = a0.free := by
  unfold execTakeover; (repeat' split) <;> simp
@[simp] theorem execTakeover_kept (a0 : State) :
    (resState a0 (execTakeover a0)).mem.stack = a0.mem.stack := by
  unfold execTakeover; (repeat' split) <;> simp
@[simp] theorem execTakeoverComplete_same (a0 : State) :
    (resState a0 (execTakeoverComplete a0)).pending = a0.pending ∧ (resState a0 (execTakeoverComplete a0)).clk = a0.clk ∧
      (resState a0 (execTakeoverComplete a0)).cores = a0.cores ∧ (resState a0 (execTakeoverComplete a0)).net = a0.net ∧
      (resState a0 (execTakeoverComplete a0)).mem = a0.mem ∧ (resState a0 (execTakeoverComplete a0)).boot = a0.boot ∧
      (resState a0 (execTakeoverComplete a0)).free = a0.free := by
  unfold execTakeoverComplete; (repeat' split) <;> simp
@[simp] theorem execTelemetryUpdate_same (a0 : Int) (a1 : Int) (a2 : State) :
    (resState a2 (execTelemetryUpdate a0 a1 a2)).pending = a2.pending ∧ (resState a2 (execTelemetryUpdate a0 a1 a2)).clk = a2.clk ∧
      (resState a2 (execTelemetryUpdate a0 a1 a2)).cores = a2.cores ∧ (resState a2 (execTelemetryUpdate a0 a1 a2)).net = a2.net ∧
      (resState a2 (execTelemetryUpdate a0 a1 a2)).vats = a2.vats ∧ (resState a2 (execTelemetryUpdate a0 a1 a2)).mem = a2.mem ∧
      (resState a2 (execTelemetryUpdate a0 a1 a2)).hub = a2.hub ∧ (resState a2 (execTelemetryUpdate a0 a1 a2)).span = a2.span ∧
      (resState a2 (execTelemetryUpdate a0 a1 a2)).host = a2.host ∧ (resState a2 (execTelemetryUpdate a0 a1 a2)).boot = a2.boot ∧
      (resState a2 (execTelemetryUpdate a0 a1 a2)).out = a2.out ∧ (resState a2 (execTelemetryUpdate a0 a1 a2)).free = a2.free := by
  unfold execTelemetryUpdate; (repeat' split) <;> simp
@[simp] theorem execTestLogicReset_same (a0 : State) :
    (resState a0 (execTestLogicReset a0)).pending = a0.pending ∧ (resState a0 (execTestLogicReset a0)).clk = a0.clk ∧
      (resState a0 (execTestLogicReset a0)).cores = a0.cores ∧ (resState a0 (execTestLogicReset a0)).net = a0.net ∧
      (resState a0 (execTestLogicReset a0)).vats = a0.vats ∧ (resState a0 (execTestLogicReset a0)).mem = a0.mem ∧
      (resState a0 (execTestLogicReset a0)).hub = a0.hub ∧ (resState a0 (execTestLogicReset a0)).span = a0.span ∧
      (resState a0 (execTestLogicReset a0)).host = a0.host ∧ (resState a0 (execTestLogicReset a0)).pwr = a0.pwr ∧
      (resState a0 (execTestLogicReset a0)).out = a0.out ∧ (resState a0 (execTestLogicReset a0)).free = a0.free := by
  unfold execTestLogicReset; (repeat' split) <;> simp
@[simp] theorem execTestLogicReset_kept (a0 : State) :
    (resState a0 (execTestLogicReset a0)).boot.flash = a0.boot.flash ∧ (resState a0 (execTestLogicReset a0)).boot.flashBuf = a0.boot.flashBuf := by
  unfold execTestLogicReset; (repeat' split) <;> simp
@[simp] theorem execTfill_same (a0 : Nat) (a1 : State) :
    (resState a1 (execTfill a0 a1)).pending = a1.pending ∧ (resState a1 (execTfill a0 a1)).clk = a1.clk ∧
      (resState a1 (execTfill a0 a1)).mem = a1.mem ∧ (resState a1 (execTfill a0 a1)).span = a1.span ∧
      (resState a1 (execTfill a0 a1)).host = a1.host ∧ (resState a1 (execTfill a0 a1)).boot = a1.boot ∧
      (resState a1 (execTfill a0 a1)).free = a1.free := by
  unfold execTfill; (repeat' split) <;> simp
@[simp] theorem execTfillComplete_same (a0 : Nat) (a1 : State) :
    (resState a1 (execTfillComplete a0 a1)).pending = a1.pending ∧ (resState a1 (execTfillComplete a0 a1)).clk = a1.clk ∧
      (resState a1 (execTfillComplete a0 a1)).mem = a1.mem ∧ (resState a1 (execTfillComplete a0 a1)).span = a1.span ∧
      (resState a1 (execTfillComplete a0 a1)).host = a1.host ∧ (resState a1 (execTfillComplete a0 a1)).boot = a1.boot ∧
      (resState a1 (execTfillComplete a0 a1)).free = a1.free := by
  unfold execTfillComplete; refine ⟨by first | (simp; done) | (rw [resState_next]; apply State.tileDone_same_pending; intros; (first | (simp; done) | (dsimp only; (repeat' (split <;> try dsimp only)) <;> simp_all)); done) | ((repeat' split) <;> first | (simp; done) | (rw [resState_next]; apply State.tileDone_same_pending; intros; (first | (simp; done) | (dsimp only; (repeat' (split <;> try dsimp only)) <;> simp_all)); done)), by first | (simp; done) | (rw [resState_next]; apply State.tileDone_same_clk; intros; (first | (simp; done) | (dsimp only; (repeat' (split <;> try dsimp only)) <;> simp_all)); done) | ((repeat' split) <;> first | (simp; done) | (rw [resState_next]; apply State.tileDone_same_clk; intros; (first | (simp; done) | (dsimp only; (repeat' (split <;> try dsimp only)) <;> simp_all)); done)), by first | (simp; done) | (rw [resState_next]; apply State.tileDone_same_mem; intros; (first | (simp; done) | (dsimp only; (repeat' (split <;> try dsimp only)) <;> simp_all)); done) | ((repeat' split) <;> first | (simp; done) | (rw [resState_next]; apply State.tileDone_same_mem; intros; (first | (simp; done) | (dsimp only; (repeat' (split <;> try dsimp only)) <;> simp_all)); done)), by first | (simp; done) | (rw [resState_next]; apply State.tileDone_same_span; intros; (first | (simp; done) | (dsimp only; (repeat' (split <;> try dsimp only)) <;> simp_all)); done) | ((repeat' split) <;> first | (simp; done) | (rw [resState_next]; apply State.tileDone_same_span; intros; (first | (simp; done) | (dsimp only; (repeat' (split <;> try dsimp only)) <;> simp_all)); done)), by first | (simp; done) | (rw [resState_next]; apply State.tileDone_same_host; intros; (first | (simp; done) | (dsimp only; (repeat' (split <;> try dsimp only)) <;> simp_all)); done) | ((repeat' split) <;> first | (simp; done) | (rw [resState_next]; apply State.tileDone_same_host; intros; (first | (simp; done) | (dsimp only; (repeat' (split <;> try dsimp only)) <;> simp_all)); done)), by first | (simp; done) | (rw [resState_next]; apply State.tileDone_same_boot; intros; (first | (simp; done) | (dsimp only; (repeat' (split <;> try dsimp only)) <;> simp_all)); done) | ((repeat' split) <;> first | (simp; done) | (rw [resState_next]; apply State.tileDone_same_boot; intros; (first | (simp; done) | (dsimp only; (repeat' (split <;> try dsimp only)) <;> simp_all)); done)), by first | (simp; done) | (rw [resState_next]; apply State.tileDone_same_free; intros; (first | (simp; done) | (dsimp only; (repeat' (split <;> try dsimp only)) <;> simp_all)); done) | ((repeat' split) <;> first | (simp; done) | (rw [resState_next]; apply State.tileDone_same_free; intros; (first | (simp; done) | (dsimp only; (repeat' (split <;> try dsimp only)) <;> simp_all)); done))⟩
@[simp] theorem execThermalSample_same (a0 : List Int) (a1 : State) :
    (resState a1 (execThermalSample a0 a1)).pending = a1.pending ∧ (resState a1 (execThermalSample a0 a1)).free = a1.free := by
  unfold execThermalSample; (repeat' split) <;> simp
@[simp] theorem execThermalSample_kept (a0 : List Int) (a1 : State) :
    (resState a1 (execThermalSample a0 a1)).boot.flash = a1.boot.flash := by
  unfold execThermalSample; (repeat' split) <;> simp
@[simp] theorem execThermalSample_wf_mem_stack (a0 : List Int) (a1 : State)  (hw : a1.mem.stack.wf = true) :
    (resState a1 (execThermalSample a0 a1)).mem.stack.wf = true := by
  unfold execThermalSample; (repeat' split) <;> simp_all (maxDischargeDepth := 30)
@[simp] theorem execThermalSample_wf_boot_flashBuf (a0 : List Int) (a1 : State)  (hw : a1.boot.flashBuf.wf = true) :
    (resState a1 (execThermalSample a0 a1)).boot.flashBuf.wf = true := by
  unfold execThermalSample; (repeat' split) <;> simp_all (maxDischargeDepth := 30)
@[simp] theorem execThrottleRecovery_same (a0 : State) :
    (resState a0 (execThrottleRecovery a0)).pending = a0.pending ∧ (resState a0 (execThrottleRecovery a0)).clk = a0.clk ∧
      (resState a0 (execThrottleRecovery a0)).cores = a0.cores ∧ (resState a0 (execThrottleRecovery a0)).net = a0.net ∧
      (resState a0 (execThrottleRecovery a0)).vats = a0.vats ∧ (resState a0 (execThrottleRecovery a0)).mem = a0.mem ∧
      (resState a0 (execThrottleRecovery a0)).hub = a0.hub ∧ (resState a0 (execThrottleRecovery a0)).span = a0.span ∧
      (resState a0 (execThrottleRecovery a0)).host = a0.host ∧ (resState a0 (execThrottleRecovery a0)).boot = a0.boot ∧
      (resState a0 (execThrottleRecovery a0)).out = a0.out ∧ (resState a0 (execThrottleRecovery a0)).free = a0.free := by
  unfold execThrottleRecovery; (repeat' split) <;> simp
@[simp] theorem execThrottleStep_same (a0 : State) :
    (resState a0 (execThrottleStep a0)).pending = a0.pending ∧ (resState a0 (execThrottleStep a0)).clk = a0.clk ∧
      (resState a0 (execThrottleStep a0)).cores = a0.cores ∧ (resState a0 (execThrottleStep a0)).net = a0.net ∧
      (resState a0 (execThrottleStep a0)).mem = a0.mem ∧ (resState a0 (execThrottleStep a0)).hub = a0.hub ∧
      (resState a0 (execThrottleStep a0)).span = a0.span ∧ (resState a0 (execThrottleStep a0)).host = a0.host ∧
      (resState a0 (execThrottleStep a0)).boot = a0.boot ∧ (resState a0 (execThrottleStep a0)).out = a0.out ∧
      (resState a0 (execThrottleStep a0)).free = a0.free := by
  unfold execThrottleStep; (repeat' split) <;> simp
@[simp] theorem execTload_same (a0 : Nat) (a1 : State) :
    (resState a1 (execTload a0 a1)).pending = a1.pending ∧ (resState a1 (execTload a0 a1)).clk = a1.clk ∧
      (resState a1 (execTload a0 a1)).mem = a1.mem ∧ (resState a1 (execTload a0 a1)).span = a1.span ∧
      (resState a1 (execTload a0 a1)).host = a1.host ∧ (resState a1 (execTload a0 a1)).boot = a1.boot ∧
      (resState a1 (execTload a0 a1)).free = a1.free := by
  unfold execTload; (repeat' split) <;> simp
@[simp] theorem execTloadComplete_same (a0 : Nat) (a1 : State) :
    (resState a1 (execTloadComplete a0 a1)).pending = a1.pending ∧ (resState a1 (execTloadComplete a0 a1)).clk = a1.clk ∧
      (resState a1 (execTloadComplete a0 a1)).mem = a1.mem ∧ (resState a1 (execTloadComplete a0 a1)).span = a1.span ∧
      (resState a1 (execTloadComplete a0 a1)).host = a1.host ∧ (resState a1 (execTloadComplete a0 a1)).boot = a1.boot ∧
      (resState a1 (execTloadComplete a0 a1)).free = a1.free := by
  unfold execTloadComplete; refine ⟨by first | (simp; done) | (rw [resState_next]; apply State.tileDone_same_pending; intros; (first | (simp; done) | (dsimp only; (repeat' (split <;> try dsimp only)) <;> simp_all)); done) | ((repeat' split) <;> first | (simp; done) | (rw [resState_next]; apply State.tileDone_same_pending; intros; (first | (simp; done) | (dsimp only; (repeat' (split <;> try dsimp only)) <;> simp_all)); done)), by first | (simp; done) | (rw [resState_next]; apply State.tileDone_same_clk; intros; (first | (simp; done) | (dsimp only; (repeat' (split <;> try dsimp only)) <;> simp_all)); done) | ((repeat' split) <;> first | (simp; done) | (rw [resState_next]; apply State.tileDone_same_clk; intros; (first | (simp; done) | (dsimp only; (repeat' (split <;> try dsimp only)) <;> simp_all)); done)), by first | (simp; done) | (rw [resState_next]; apply State.tileDone_same_mem; intros; (first | (simp; done) | (dsimp only; (repeat' (split <;> try dsimp only)) <;> simp_all)); done) | ((repeat' split) <;> first | (simp; done) | (rw [resState_next]; apply State.tileDone_same_mem; intros; (first | (simp; done) | (dsimp only; (repeat' (split <;> try dsimp only)) <;> simp_all)); done)), by first | (simp; done) | (rw [resState_next]; apply State.tileDone_same_span; intros; (first | (simp; done) | (dsimp only; (repeat' (split <;> try dsimp only)) <;> simp_all)); done) | ((repeat' split) <;> first | (simp; done) | (rw [resState_next]; apply State.tileDone_same_span; intros; (first | (simp; done) | (dsimp only; (repeat' (split <;> try dsimp only)) <;> simp_all)); done)), by first | (simp; done) | (rw [resState_next]; apply State.tileDone_same_host; intros; (first | (simp; done) | (dsimp only; (repeat' (split <;> try dsimp only)) <;> simp_all)); done) | ((repeat' split) <;> first | (simp; done) | (rw [resState_next]; apply State.tileDone_same_host; intros; (first | (simp; done) | (dsimp only; (repeat' (split <;> try dsimp only)) <;> simp_all)); done)), by first | (simp; done) | (rw [resState_next]; apply State.tileDone_same_boot; intros; (first | (simp; done) | (dsimp only; (repeat' (split <;> try dsimp only)) <;> simp_all)); done) | ((repeat' split) <;> first | (simp; done) | (rw [resState_next]; apply State.tileDone_same_boot; intros; (first | (simp; done) | (dsimp only; (repeat' (split <;> try dsimp only)) <;> simp_all)); done)), by first | (simp; done) | (rw [resState_next]; apply State.tileDone_same_free; intros; (first | (simp; done) | (dsimp only; (repeat' (split <;> try dsimp only)) <;> simp_all)); done) | ((repeat' split) <;> first | (simp; done) | (rw [resState_next]; apply State.tileDone_same_free; intros; (first | (simp; done) | (dsimp only; (repeat' (split <;> try dsimp only)) <;> simp_all)); done))⟩
@[simp] theorem execTrainTimeout_same (a0 : Nat) (a1 : State) :
    (resState a1 (execTrainTimeout a0 a1)).pending = a1.pending ∧ (resState a1 (execTrainTimeout a0 a1)).clk = a1.clk ∧
      (resState a1 (execTrainTimeout a0 a1)).cores = a1.cores ∧ (resState a1 (execTrainTimeout a0 a1)).net = a1.net ∧
      (resState a1 (execTrainTimeout a0 a1)).vats = a1.vats ∧ (resState a1 (execTrainTimeout a0 a1)).mem = a1.mem ∧
      (resState a1 (execTrainTimeout a0 a1)).host = a1.host ∧ (resState a1 (execTrainTimeout a0 a1)).boot = a1.boot ∧
      (resState a1 (execTrainTimeout a0 a1)).free = a1.free := by
  unfold execTrainTimeout; (repeat' split) <;> simp
@[simp] theorem execTrainingComplete_same (a0 : Nat) (a1 : State) :
    (resState a1 (execTrainingComplete a0 a1)).pending = a1.pending ∧ (resState a1 (execTrainingComplete a0 a1)).clk = a1.clk ∧
      (resState a1 (execTrainingComplete a0 a1)).cores = a1.cores ∧ (resState a1 (execTrainingComplete a0 a1)).net = a1.net ∧
      (resState a1 (execTrainingComplete a0 a1)).vats = a1.vats ∧ (resState a1 (execTrainingComplete a0 a1)).mem = a1.mem ∧
      (resState a1 (execTrainingComplete a0 a1)).host = a1.host ∧ (resState a1 (execTrainingComplete a0 a1)).boot = a1.boot ∧
      (resState a1 (execTrainingComplete a0 a1)).free = a1.free := by
  unfold execTrainingComplete; (repeat' split) <;> simp
@[simp] theorem execTrap_same (a0 : Nat) (a1 : Guard) (a2 : BitVec 20) (a3 : State) :
    (resState a3 (execTrap a0 a1 a2 a3)).pending = a3.pending ∧ (resState a3 (execTrap a0 a1 a2 a3)).clk = a3.clk ∧
      (resState a3 (execTrap a0 a1 a2 a3)).mem = a3.mem ∧ (resState a3 (execTrap a0 a1 a2 a3)).span = a3.span ∧
      (resState a3 (execTrap a0 a1 a2 a3)).host = a3.host ∧ (resState a3 (execTrap a0 a1 a2 a3)).boot = a3.boot ∧
      (resState a3 (execTrap a0 a1 a2 a3)).free = a3.free := by
  unfold execTrap; refine ⟨by first | (simp; done) | (rw [resState_next]; apply State.instr_same_pending; intros; (first | (simp; done) | (dsimp only; (repeat' (split <;> try dsimp only)) <;> simp_all)); done) | ((repeat' split) <;> first | (simp; done) | (rw [resState_next]; apply State.instr_same_pending; intros; (first | (simp; done) | (dsimp only; (repeat' (split <;> try dsimp only)) <;> simp_all)); done)), by first | (simp; done) | (rw [resState_next]; apply State.instr_same_clk; intros; (first | (simp; done) | (dsimp only; (repeat' (split <;> try dsimp only)) <;> simp_all)); done) | ((repeat' split) <;> first | (simp; done) | (rw [resState_next]; apply State.instr_same_clk; intros; (first | (simp; done) | (dsimp only; (repeat' (split <;> try dsimp only)) <;> simp_all)); done)), by first | (simp; done) | (rw [resState_next]; apply State.instr_same_mem; intros; (first | (simp; done) | (dsimp only; (repeat' (split <;> try dsimp only)) <;> simp_all)); done) | ((repeat' split) <;> first | (simp; done) | (rw [resState_next]; apply State.instr_same_mem; intros; (first | (simp; done) | (dsimp only; (repeat' (split <;> try dsimp only)) <;> simp_all)); done)), by first | (simp; done) | (rw [resState_next]; apply State.instr_same_span; intros; (first | (simp; done) | (dsimp only; (repeat' (split <;> try dsimp only)) <;> simp_all)); done) | ((repeat' split) <;> first | (simp; done) | (rw [resState_next]; apply State.instr_same_span; intros; (first | (simp; done) | (dsimp only; (repeat' (split <;> try dsimp only)) <;> simp_all)); done)), by first | (simp; done) | (rw [resState_next]; apply State.instr_same_host; intros; (first | (simp; done) | (dsimp only; (repeat' (split <;> try dsimp only)) <;> simp_all)); done) | ((repeat' split) <;> first | (simp; done) | (rw [resState_next]; apply State.instr_same_host; intros; (first | (simp; done) | (dsimp only; (repeat' (split <;> try dsimp only)) <;> simp_all)); done)), by first | (simp; done) | (rw [resState_next]; apply State.instr_same_boot; intros; (first | (simp; done) | (dsimp only; (repeat' (split <;> try dsimp only)) <;> simp_all)); done) | ((repeat' split) <;> first | (simp; done) | (rw [resState_next]; apply State.instr_same_boot; intros; (first | (simp; done) | (dsimp only; (repeat' (split <;> try dsimp only)) <;> simp_all)); done)), by first | (simp; done) | (rw [resState_next]; apply State.instr_same_free; intros; (first | (simp; done) | (dsimp only; (repeat' (split <;> try dsimp only)) <;> simp_all)); done) | ((repeat' split) <;> first | (simp; done) | (rw [resState_next]; apply State.instr_same_free; intros; (first | (simp; done) | (dsimp only; (repeat' (split <;> try dsimp only)) <;> simp_all)); done))⟩
@[simp] theorem execTreqReceive_same (a0 : Nat) (a1 : State) :
    (resState a1 (execTreqReceive a0 a1)).pending = a1.pending ∧ (resState a1 (execTreqReceive a0 a1)).clk = a1.clk ∧
      (resState a1 (execTreqReceive a0 a1)).cores = a1.cores ∧ (resState a1 (execTreqReceive a0 a1)).net = a1.net ∧
      (resState a1 (execTreqReceive a0 a1)).vats = a1.vats ∧ (resState a1 (execTreqReceive a0 a1)).mem = a1.mem ∧
      (resState a1 (execTreqReceive a0 a1)).host = a1.host ∧ (resState a1 (execTreqReceive a0 a1)).boot = a1.boot ∧
      (resState a1 (execTreqReceive a0 a1)).free = a1.free := by
  unfold execTreqReceive; dsimp only; split <;> first | (rename_i hq; have hq' := State.takeFrame_same hq; (repeat' (split <;> try dsimp only)) <;> simp_all; done) | (simp; done)
@[simp] theorem execTreqSend_same (a0 : State) :
    (resState a0 (execTreqSend a0)).pending = a0.pending ∧ (resState a0 (execTreqSend a0)).clk = a0.clk ∧
      (resState a0 (execTreqSend a0)).cores = a0.cores ∧ (resState a0 (execTreqSend a0)).net = a0.net ∧
      (resState a0 (execTreqSend a0)).vats = a0.vats ∧ (resState a0 (execTreqSend a0)).mem = a0.mem ∧
      (resState a0 (execTreqSend a0)).host = a0.host ∧ (resState a0 (execTreqSend a0)).boot = a0.boot ∧
      (resState a0 (execTreqSend a0)).free = a0.free := by
  unfold execTreqSend; (repeat' split) <;> simp
@[simp] theorem execTrspReceive_same (a0 : Nat) (a1 : State) :
    (resState a1 (execTrspReceive a0 a1)).pending = a1.pending ∧ (resState a1 (execTrspReceive a0 a1)).cores = a1.cores ∧
      (resState a1 (execTrspReceive a0 a1)).net = a1.net ∧ (resState a1 (execTrspReceive a0 a1)).host = a1.host ∧
      (resState a1 (execTrspReceive a0 a1)).boot = a1.boot := by
  unfold execTrspReceive; dsimp only; split <;> first | (rename_i hq; have hq' := State.takeFrame_same hq; (repeat' (split <;> try dsimp only)) <;> simp_all; done) | (simp; done)
@[simp] theorem execTrspReceive_kept (a0 : Nat) (a1 : State) :
    (resState a1 (execTrspReceive a0 a1)).mem.stack = a1.mem.stack := by
  unfold execTrspReceive; dsimp only; split <;> first | (rename_i hq; have hq' := State.takeFrame_same hq; (repeat' (split <;> try dsimp only)) <;> simp_all; done) | (simp; done) | (simp_all; done)
@[simp] theorem execTstore_same (a0 : Nat) (a1 : State) :
    (resState a1 (execTstore a0 a1)).pending = a1.pending ∧ (resState a1 (execTstore a0 a1)).clk = a1.clk ∧
      (resState a1 (execTstore a0 a1)).mem = a1.mem ∧ (resState a1 (execTstore a0 a1)).span = a1.span ∧
      (resState a1 (execTstore a0 a1)).host = a1.host ∧ (resState a1 (execTstore a0 a1)).boot = a1.boot ∧
      (resState a1 (execTstore a0 a1)).free = a1.free := by
  unfold execTstore; (repeat' split) <;> simp
@[simp] theorem execTstoreComplete_same (a0 : Nat) (a1 : State) :
    (resState a1 (execTstoreComplete a0 a1)).pending = a1.pending ∧ (resState a1 (execTstoreComplete a0 a1)).clk = a1.clk ∧
      (resState a1 (execTstoreComplete a0 a1)).mem = a1.mem ∧ (resState a1 (execTstoreComplete a0 a1)).span = a1.span ∧
      (resState a1 (execTstoreComplete a0 a1)).host = a1.host ∧ (resState a1 (execTstoreComplete a0 a1)).boot = a1.boot ∧
      (resState a1 (execTstoreComplete a0 a1)).free = a1.free := by
  unfold execTstoreComplete; refine ⟨by first | (simp; done) | (rw [resState_next]; apply State.tileDone_same_pending; intros; (first | (simp; done) | (dsimp only; (repeat' (split <;> try dsimp only)) <;> simp_all)); done) | ((repeat' split) <;> first | (simp; done) | (rw [resState_next]; apply State.tileDone_same_pending; intros; (first | (simp; done) | (dsimp only; (repeat' (split <;> try dsimp only)) <;> simp_all)); done)), by first | (simp; done) | (rw [resState_next]; apply State.tileDone_same_clk; intros; (first | (simp; done) | (dsimp only; (repeat' (split <;> try dsimp only)) <;> simp_all)); done) | ((repeat' split) <;> first | (simp; done) | (rw [resState_next]; apply State.tileDone_same_clk; intros; (first | (simp; done) | (dsimp only; (repeat' (split <;> try dsimp only)) <;> simp_all)); done)), by first | (simp; done) | (rw [resState_next]; apply State.tileDone_same_mem; intros; (first | (simp; done) | (dsimp only; (repeat' (split <;> try dsimp only)) <;> simp_all)); done) | ((repeat' split) <;> first | (simp; done) | (rw [resState_next]; apply State.tileDone_same_mem; intros; (first | (simp; done) | (dsimp only; (repeat' (split <;> try dsimp only)) <;> simp_all)); done)), by first | (simp; done) | (rw [resState_next]; apply State.tileDone_same_span; intros; (first | (simp; done) | (dsimp only; (repeat' (split <;> try dsimp only)) <;> simp_all)); done) | ((repeat' split) <;> first | (simp; done) | (rw [resState_next]; apply State.tileDone_same_span; intros; (first | (simp; done) | (dsimp only; (repeat' (split <;> try dsimp only)) <;> simp_all)); done)), by first | (simp; done) | (rw [resState_next]; apply State.tileDone_same_host; intros; (first | (simp; done) | (dsimp only; (repeat' (split <;> try dsimp only)) <;> simp_all)); done) | ((repeat' split) <;> first | (simp; done) | (rw [resState_next]; apply State.tileDone_same_host; intros; (first | (simp; done) | (dsimp only; (repeat' (split <;> try dsimp only)) <;> simp_all)); done)), by first | (simp; done) | (rw [resState_next]; apply State.tileDone_same_boot; intros; (first | (simp; done) | (dsimp only; (repeat' (split <;> try dsimp only)) <;> simp_all)); done) | ((repeat' split) <;> first | (simp; done) | (rw [resState_next]; apply State.tileDone_same_boot; intros; (first | (simp; done) | (dsimp only; (repeat' (split <;> try dsimp only)) <;> simp_all)); done)), by first | (simp; done) | (rw [resState_next]; apply State.tileDone_same_free; intros; (first | (simp; done) | (dsimp only; (repeat' (split <;> try dsimp only)) <;> simp_all)); done) | ((repeat' split) <;> first | (simp; done) | (rw [resState_next]; apply State.tileDone_same_free; intros; (first | (simp; done) | (dsimp only; (repeat' (split <;> try dsimp only)) <;> simp_all)); done))⟩
@[simp] theorem execTwin_same (a0 : Nat) (a1 : State) :
    (resState a1 (execTwin a0 a1)).pending = a1.pending ∧ (resState a1 (execTwin a0 a1)).clk = a1.clk ∧
      (resState a1 (execTwin a0 a1)).cores = a1.cores ∧ (resState a1 (execTwin a0 a1)).net = a1.net ∧
      (resState a1 (execTwin a0 a1)).boot = a1.boot ∧ (resState a1 (execTwin a0 a1)).free = a1.free := by
  unfold execTwin; refine ⟨by first | (simp; done) | (rw [resState_next]; apply State.command_same_pending; intros; (first | (simp; done) | (dsimp only; (repeat' (split <;> try dsimp only)) <;> simp_all)); done) | ((repeat' split) <;> first | (simp; done) | (rw [resState_next]; apply State.command_same_pending; intros; (first | (simp; done) | (dsimp only; (repeat' (split <;> try dsimp only)) <;> simp_all)); done)), by first | (simp; done) | (rw [resState_next]; apply State.command_same_clk; intros; (first | (simp; done) | (dsimp only; (repeat' (split <;> try dsimp only)) <;> simp_all)); done) | ((repeat' split) <;> first | (simp; done) | (rw [resState_next]; apply State.command_same_clk; intros; (first | (simp; done) | (dsimp only; (repeat' (split <;> try dsimp only)) <;> simp_all)); done)), by first | (simp; done) | (rw [resState_next]; apply State.command_same_cores; intros; (first | (simp; done) | (dsimp only; (repeat' (split <;> try dsimp only)) <;> simp_all)); done) | ((repeat' split) <;> first | (simp; done) | (rw [resState_next]; apply State.command_same_cores; intros; (first | (simp; done) | (dsimp only; (repeat' (split <;> try dsimp only)) <;> simp_all)); done)), by first | (simp; done) | (rw [resState_next]; apply State.command_same_net; intros; (first | (simp; done) | (dsimp only; (repeat' (split <;> try dsimp only)) <;> simp_all)); done) | ((repeat' split) <;> first | (simp; done) | (rw [resState_next]; apply State.command_same_net; intros; (first | (simp; done) | (dsimp only; (repeat' (split <;> try dsimp only)) <;> simp_all)); done)), by first | (simp; done) | (rw [resState_next]; apply State.command_same_boot; intros; (first | (simp; done) | (dsimp only; (repeat' (split <;> try dsimp only)) <;> simp_all)); done) | ((repeat' split) <;> first | (simp; done) | (rw [resState_next]; apply State.command_same_boot; intros; (first | (simp; done) | (dsimp only; (repeat' (split <;> try dsimp only)) <;> simp_all)); done)), by first | (simp; done) | (rw [resState_next]; apply State.command_same_free; intros; (first | (simp; done) | (dsimp only; (repeat' (split <;> try dsimp only)) <;> simp_all)); done) | ((repeat' split) <;> first | (simp; done) | (rw [resState_next]; apply State.command_same_free; intros; (first | (simp; done) | (dsimp only; (repeat' (split <;> try dsimp only)) <;> simp_all)); done))⟩
@[simp] theorem execTwin_kept (a0 : Nat) (a1 : State) :
    (resState a1 (execTwin a0 a1)).mem.stack = a1.mem.stack := by
  unfold execTwin; first | (simp; done) | (rw [resState_next]; apply State.command_kept_mem_stack <;> (intros; (first | (simp; done) | (simp_all; done) | (dsimp only; (repeat' (split <;> try dsimp only)) <;> simp_all; done) | ((repeat' split) <;> simp_all; done))); done) | ((repeat' split) <;> first | (simp; done) | (simp_all; done) | (rw [resState_next]; apply State.command_kept_mem_stack <;> (intros; (first | (simp; done) | (simp_all; done) | (dsimp only; (repeat' (split <;> try dsimp only)) <;> simp_all; done) | ((repeat' split) <;> simp_all; done))); done))
@[simp] theorem execUnpair_same (a0 : State) :
    (resState a0 (execUnpair a0)).pending = a0.pending ∧ (resState a0 (execUnpair a0)).clk = a0.clk ∧
      (resState a0 (execUnpair a0)).cores = a0.cores ∧ (resState a0 (execUnpair a0)).net = a0.net ∧ (resState a0 (execUnpair a0)).boot = a0.boot ∧
      (resState a0 (execUnpair a0)).free = a0.free := by
  unfold execUnpair; (repeat' split) <;> simp
@[simp] theorem execUnpair_kept (a0 : State) :
    (resState a0 (execUnpair a0)).mem.stack = a0.mem.stack := by
  unfold execUnpair; (repeat' split) <;> simp
@[simp] theorem execVatHostMsg_same (a0 : Nat) (a1 : Nat) (a2 : Nat) (a3 : State) :
    (resState a3 (execVatHostMsg a0 a1 a2 a3)).pending = a3.pending ∧ (resState a3 (execVatHostMsg a0 a1 a2 a3)).clk = a3.clk ∧
      (resState a3 (execVatHostMsg a0 a1 a2 a3)).cores = a3.cores ∧ (resState a3 (execVatHostMsg a0 a1 a2 a3)).net = a3.net ∧
      (resState a3 (execVatHostMsg a0 a1 a2 a3)).mem = a3.mem ∧ (resState a3 (execVatHostMsg a0 a1 a2 a3)).span = a3.span ∧
      (resState a3 (execVatHostMsg a0 a1 a2 a3)).host = a3.host ∧ (resState a3 (execVatHostMsg a0 a1 a2 a3)).boot = a3.boot ∧
      (resState a3 (execVatHostMsg a0 a1 a2 a3)).free = a3.free := by
  unfold execVatHostMsg; (repeat' split) <;> simp
@[simp] theorem execVatReset_same (a0 : Nat) (a1 : Nat) (a2 : State) :
    (resState a2 (execVatReset a0 a1 a2)).pending = a2.pending ∧ (resState a2 (execVatReset a0 a1 a2)).clk = a2.clk ∧
      (resState a2 (execVatReset a0 a1 a2)).boot = a2.boot ∧ (resState a2 (execVatReset a0 a1 a2)).free = a2.free := by
  unfold execVatReset; refine ⟨by first | (simp; done) | (rw [resState_next]; apply State.command_same_pending; intros; (first | (simp; done) | (dsimp only; (repeat' (split <;> try dsimp only)) <;> simp_all)); done) | ((repeat' split) <;> first | (simp; done) | (rw [resState_next]; apply State.command_same_pending; intros; (first | (simp; done) | (dsimp only; (repeat' (split <;> try dsimp only)) <;> simp_all)); done)), by first | (simp; done) | (rw [resState_next]; apply State.command_same_clk; intros; (first | (simp; done) | (dsimp only; (repeat' (split <;> try dsimp only)) <;> simp_all)); done) | ((repeat' split) <;> first | (simp; done) | (rw [resState_next]; apply State.command_same_clk; intros; (first | (simp; done) | (dsimp only; (repeat' (split <;> try dsimp only)) <;> simp_all)); done)), by first | (simp; done) | (rw [resState_next]; apply State.command_same_boot; intros; (first | (simp; done) | (dsimp only; (repeat' (split <;> try dsimp only)) <;> simp_all)); done) | ((repeat' split) <;> first | (simp; done) | (rw [resState_next]; apply State.command_same_boot; intros; (first | (simp; done) | (dsimp only; (repeat' (split <;> try dsimp only)) <;> simp_all)); done)), by first | (simp; done) | (rw [resState_next]; apply State.command_same_free; intros; (first | (simp; done) | (dsimp only; (repeat' (split <;> try dsimp only)) <;> simp_all)); done) | ((repeat' split) <;> first | (simp; done) | (rw [resState_next]; apply State.command_same_free; intros; (first | (simp; done) | (dsimp only; (repeat' (split <;> try dsimp only)) <;> simp_all)); done))⟩
@[simp] theorem execVatReset_wf_mem_stack (a0 : Nat) (a1 : Nat) (a2 : State)  (hw : a2.mem.stack.wf = true) :
    (resState a2 (execVatReset a0 a1 a2)).mem.stack.wf = true := by
  unfold execVatReset; first | (simp (maxDischargeDepth := 30); done) | (rw [resState_next]; apply State.command_wf_mem_stack <;> (intros; (first | (simp (maxDischargeDepth := 30); done) | (simp_all (maxDischargeDepth := 30); done) | (dsimp only; (repeat' (split <;> try dsimp only)) <;> simp_all (maxDischargeDepth := 30); done) | ((repeat' split) <;> simp_all (maxDischargeDepth := 30); done))); done) | ((repeat' split) <;> first | (simp (maxDischargeDepth := 30); done) | (simp_all (maxDischargeDepth := 30); done) | (rw [resState_next]; apply State.command_wf_mem_stack <;> (intros; (first | (simp (maxDischargeDepth := 30); done) | (simp_all (maxDischargeDepth := 30); done) | (dsimp only; (repeat' (split <;> try dsimp only)) <;> simp_all (maxDischargeDepth := 30); done) | ((repeat' split) <;> simp_all (maxDischargeDepth := 30); done))); done))
@[simp] theorem execVchain_same (a0 : Nat) (a1 : State) :
    (resState a1 (execVchain a0 a1)).pending = a1.pending ∧ (resState a1 (execVchain a0 a1)).clk = a1.clk ∧
      (resState a1 (execVchain a0 a1)).mem = a1.mem ∧ (resState a1 (execVchain a0 a1)).span = a1.span ∧
      (resState a1 (execVchain a0 a1)).host = a1.host ∧ (resState a1 (execVchain a0 a1)).boot = a1.boot ∧
      (resState a1 (execVchain a0 a1)).free = a1.free := by
  unfold execVchain; refine ⟨by first | (simp; done) | (rw [resState_next]; apply State.vecAccept_same_pending; intros; (first | (simp; done) | (dsimp only; (repeat' (split <;> try dsimp only)) <;> simp_all)); done) | ((repeat' split) <;> first | (simp; done) | (rw [resState_next]; apply State.vecAccept_same_pending; intros; (first | (simp; done) | (dsimp only; (repeat' (split <;> try dsimp only)) <;> simp_all)); done)), by first | (simp; done) | (rw [resState_next]; apply State.vecAccept_same_clk; intros; (first | (simp; done) | (dsimp only; (repeat' (split <;> try dsimp only)) <;> simp_all)); done) | ((repeat' split) <;> first | (simp; done) | (rw [resState_next]; apply State.vecAccept_same_clk; intros; (first | (simp; done) | (dsimp only; (repeat' (split <;> try dsimp only)) <;> simp_all)); done)), by first | (simp; done) | (rw [resState_next]; apply State.vecAccept_same_mem; intros; (first | (simp; done) | (dsimp only; (repeat' (split <;> try dsimp only)) <;> simp_all)); done) | ((repeat' split) <;> first | (simp; done) | (rw [resState_next]; apply State.vecAccept_same_mem; intros; (first | (simp; done) | (dsimp only; (repeat' (split <;> try dsimp only)) <;> simp_all)); done)), by first | (simp; done) | (rw [resState_next]; apply State.vecAccept_same_span; intros; (first | (simp; done) | (dsimp only; (repeat' (split <;> try dsimp only)) <;> simp_all)); done) | ((repeat' split) <;> first | (simp; done) | (rw [resState_next]; apply State.vecAccept_same_span; intros; (first | (simp; done) | (dsimp only; (repeat' (split <;> try dsimp only)) <;> simp_all)); done)), by first | (simp; done) | (rw [resState_next]; apply State.vecAccept_same_host; intros; (first | (simp; done) | (dsimp only; (repeat' (split <;> try dsimp only)) <;> simp_all)); done) | ((repeat' split) <;> first | (simp; done) | (rw [resState_next]; apply State.vecAccept_same_host; intros; (first | (simp; done) | (dsimp only; (repeat' (split <;> try dsimp only)) <;> simp_all)); done)), by first | (simp; done) | (rw [resState_next]; apply State.vecAccept_same_boot; intros; (first | (simp; done) | (dsimp only; (repeat' (split <;> try dsimp only)) <;> simp_all)); done) | ((repeat' split) <;> first | (simp; done) | (rw [resState_next]; apply State.vecAccept_same_boot; intros; (first | (simp; done) | (dsimp only; (repeat' (split <;> try dsimp only)) <;> simp_all)); done)), by first | (simp; done) | (rw [resState_next]; apply State.vecAccept_same_free; intros; (first | (simp; done) | (dsimp only; (repeat' (split <;> try dsimp only)) <;> simp_all)); done) | ((repeat' split) <;> first | (simp; done) | (rw [resState_next]; apply State.vecAccept_same_free; intros; (first | (simp; done) | (dsimp only; (repeat' (split <;> try dsimp only)) <;> simp_all)); done))⟩
@[simp] theorem execVchainComplete_same (a0 : Nat) (a1 : State) :
    (resState a1 (execVchainComplete a0 a1)).pending = a1.pending ∧ (resState a1 (execVchainComplete a0 a1)).clk = a1.clk ∧
      (resState a1 (execVchainComplete a0 a1)).mem = a1.mem ∧ (resState a1 (execVchainComplete a0 a1)).span = a1.span ∧
      (resState a1 (execVchainComplete a0 a1)).host = a1.host ∧ (resState a1 (execVchainComplete a0 a1)).boot = a1.boot ∧
      (resState a1 (execVchainComplete a0 a1)).free = a1.free := by
  unfold execVchainComplete; simp only []; (repeat' (split <;> try simp)) <;> simp_all
@[simp] theorem execVdef_same (a0 : Nat) (a1 : State) :
    (resState a1 (execVdef a0 a1)).pending = a1.pending ∧ (resState a1 (execVdef a0 a1)).clk = a1.clk ∧
      (resState a1 (execVdef a0 a1)).cores = a1.cores ∧ (resState a1 (execVdef a0 a1)).net = a1.net ∧
      (resState a1 (execVdef a0 a1)).span = a1.span ∧ (resState a1 (execVdef a0 a1)).host = a1.host ∧
      (resState a1 (execVdef a0 a1)).boot = a1.boot ∧ (resState a1 (execVdef a0 a1)).free = a1.free := by
  unfold execVdef; refine ⟨by first | (simp; done) | (rw [resState_next]; apply State.verOp_same_pending; intros; (first | (simp; done) | (dsimp only; (repeat' (split <;> try dsimp only)) <;> simp_all)); done) | ((repeat' split) <;> first | (simp; done) | (rw [resState_next]; apply State.verOp_same_pending; intros; (first | (simp; done) | (dsimp only; (repeat' (split <;> try dsimp only)) <;> simp_all)); done)), by first | (simp; done) | (rw [resState_next]; apply State.verOp_same_clk; intros; (first | (simp; done) | (dsimp only; (repeat' (split <;> try dsimp only)) <;> simp_all)); done) | ((repeat' split) <;> first | (simp; done) | (rw [resState_next]; apply State.verOp_same_clk; intros; (first | (simp; done) | (dsimp only; (repeat' (split <;> try dsimp only)) <;> simp_all)); done)), by first | (simp; done) | (rw [resState_next]; apply State.verOp_same_cores; intros; (first | (simp; done) | (dsimp only; (repeat' (split <;> try dsimp only)) <;> simp_all)); done) | ((repeat' split) <;> first | (simp; done) | (rw [resState_next]; apply State.verOp_same_cores; intros; (first | (simp; done) | (dsimp only; (repeat' (split <;> try dsimp only)) <;> simp_all)); done)), by first | (simp; done) | (rw [resState_next]; apply State.verOp_same_net; intros; (first | (simp; done) | (dsimp only; (repeat' (split <;> try dsimp only)) <;> simp_all)); done) | ((repeat' split) <;> first | (simp; done) | (rw [resState_next]; apply State.verOp_same_net; intros; (first | (simp; done) | (dsimp only; (repeat' (split <;> try dsimp only)) <;> simp_all)); done)), by first | (simp; done) | (rw [resState_next]; apply State.verOp_same_span; intros; (first | (simp; done) | (dsimp only; (repeat' (split <;> try dsimp only)) <;> simp_all)); done) | ((repeat' split) <;> first | (simp; done) | (rw [resState_next]; apply State.verOp_same_span; intros; (first | (simp; done) | (dsimp only; (repeat' (split <;> try dsimp only)) <;> simp_all)); done)), by first | (simp; done) | (rw [resState_next]; apply State.verOp_same_host; intros; (first | (simp; done) | (dsimp only; (repeat' (split <;> try dsimp only)) <;> simp_all)); done) | ((repeat' split) <;> first | (simp; done) | (rw [resState_next]; apply State.verOp_same_host; intros; (first | (simp; done) | (dsimp only; (repeat' (split <;> try dsimp only)) <;> simp_all)); done)), by first | (simp; done) | (rw [resState_next]; apply State.verOp_same_boot; intros; (first | (simp; done) | (dsimp only; (repeat' (split <;> try dsimp only)) <;> simp_all)); done) | ((repeat' split) <;> first | (simp; done) | (rw [resState_next]; apply State.verOp_same_boot; intros; (first | (simp; done) | (dsimp only; (repeat' (split <;> try dsimp only)) <;> simp_all)); done)), by first | (simp; done) | (rw [resState_next]; apply State.verOp_same_free; intros; (first | (simp; done) | (dsimp only; (repeat' (split <;> try dsimp only)) <;> simp_all)); done) | ((repeat' split) <;> first | (simp; done) | (rw [resState_next]; apply State.verOp_same_free; intros; (first | (simp; done) | (dsimp only; (repeat' (split <;> try dsimp only)) <;> simp_all)); done))⟩
@[simp] theorem execVdef_kept (a0 : Nat) (a1 : State) :
    (resState a1 (execVdef a0 a1)).mem.stack = a1.mem.stack := by
  unfold execVdef; first | (simp; done) | (rw [resState_next]; apply State.verOp_kept_mem_stack <;> (intros; (first | (simp; done) | (simp_all; done) | (dsimp only; (repeat' (split <;> try dsimp only)) <;> simp_all; done) | ((repeat' split) <;> simp_all; done))); done) | ((repeat' split) <;> first | (simp; done) | (simp_all; done) | (rw [resState_next]; apply State.verOp_kept_mem_stack <;> (intros; (first | (simp; done) | (simp_all; done) | (dsimp only; (repeat' (split <;> try dsimp only)) <;> simp_all; done) | ((repeat' split) <;> simp_all; done))); done))
@[simp] theorem execVmChtabApply_same (a0 : Who) (a1 : Nat) (a2 : Nat) (a3 : Nat) (a4 : State) :
    (resState a4 (execVmChtabApply a0 a1 a2 a3 a4)).pending = a4.pending ∧ (resState a4 (execVmChtabApply a0 a1 a2 a3 a4)).clk = a4.clk ∧
      (resState a4 (execVmChtabApply a0 a1 a2 a3 a4)).vats = a4.vats ∧ (resState a4 (execVmChtabApply a0 a1 a2 a3 a4)).mem = a4.mem ∧
      (resState a4 (execVmChtabApply a0 a1 a2 a3 a4)).span = a4.span ∧ (resState a4 (execVmChtabApply a0 a1 a2 a3 a4)).host = a4.host ∧
      (resState a4 (execVmChtabApply a0 a1 a2 a3 a4)).boot = a4.boot ∧ (resState a4 (execVmChtabApply a0 a1 a2 a3 a4)).free = a4.free := by
  unfold execVmChtabApply; (repeat' split) <;> simp
@[simp] theorem execVmStart_same (a0 : Who) (a1 : Nat) (a2 : Nat) (a3 : Nat) (a4 : State) :
    (resState a4 (execVmStart a0 a1 a2 a3 a4)).pending = a4.pending ∧ (resState a4 (execVmStart a0 a1 a2 a3 a4)).clk = a4.clk ∧
      (resState a4 (execVmStart a0 a1 a2 a3 a4)).net = a4.net ∧ (resState a4 (execVmStart a0 a1 a2 a3 a4)).mem = a4.mem ∧
      (resState a4 (execVmStart a0 a1 a2 a3 a4)).span = a4.span ∧ (resState a4 (execVmStart a0 a1 a2 a3 a4)).host = a4.host ∧
      (resState a4 (execVmStart a0 a1 a2 a3 a4)).boot = a4.boot ∧ (resState a4 (execVmStart a0 a1 a2 a3 a4)).free = a4.free := by
  unfold execVmStart; (repeat' split) <;> simp
@[simp] theorem execVpin_same (a0 : Nat) (a1 : State) :
    (resState a1 (execVpin a0 a1)).pending = a1.pending ∧ (resState a1 (execVpin a0 a1)).clk = a1.clk ∧
      (resState a1 (execVpin a0 a1)).net = a1.net ∧ (resState a1 (execVpin a0 a1)).host = a1.host ∧ (resState a1 (execVpin a0 a1)).boot = a1.boot ∧
      (resState a1 (execVpin a0 a1)).free = a1.free := by
  unfold execVpin; refine ⟨by first | (simp; done) | (rw [resState_next]; apply State.verOp_same_pending; intros; (first | (simp; done) | (dsimp only; (repeat' (split <;> try dsimp only)) <;> simp_all)); done) | ((repeat' split) <;> first | (simp; done) | (rw [resState_next]; apply State.verOp_same_pending; intros; (first | (simp; done) | (dsimp only; (repeat' (split <;> try dsimp only)) <;> simp_all)); done)), by first | (simp; done) | (rw [resState_next]; apply State.verOp_same_clk; intros; (first | (simp; done) | (dsimp only; (repeat' (split <;> try dsimp only)) <;> simp_all)); done) | ((repeat' split) <;> first | (simp; done) | (rw [resState_next]; apply State.verOp_same_clk; intros; (first | (simp; done) | (dsimp only; (repeat' (split <;> try dsimp only)) <;> simp_all)); done)), by first | (simp; done) | (rw [resState_next]; apply State.verOp_same_net; intros; (first | (simp; done) | (dsimp only; (repeat' (split <;> try dsimp only)) <;> simp_all)); done) | ((repeat' split) <;> first | (simp; done) | (rw [resState_next]; apply State.verOp_same_net; intros; (first | (simp; done) | (dsimp only; (repeat' (split <;> try dsimp only)) <;> simp_all)); done)), by first | (simp; done) | (rw [resState_next]; apply State.verOp_same_host; intros; (first | (simp; done) | (dsimp only; (repeat' (split <;> try dsimp only)) <;> simp_all)); done) | ((repeat' split) <;> first | (simp; done) | (rw [resState_next]; apply State.verOp_same_host; intros; (first | (simp; done) | (dsimp only; (repeat' (split <;> try dsimp only)) <;> simp_all)); done)), by first | (simp; done) | (rw [resState_next]; apply State.verOp_same_boot; intros; (first | (simp; done) | (dsimp only; (repeat' (split <;> try dsimp only)) <;> simp_all)); done) | ((repeat' split) <;> first | (simp; done) | (rw [resState_next]; apply State.verOp_same_boot; intros; (first | (simp; done) | (dsimp only; (repeat' (split <;> try dsimp only)) <;> simp_all)); done)), by first | (simp; done) | (rw [resState_next]; apply State.verOp_same_free; intros; (first | (simp; done) | (dsimp only; (repeat' (split <;> try dsimp only)) <;> simp_all)); done) | ((repeat' split) <;> first | (simp; done) | (rw [resState_next]; apply State.verOp_same_free; intros; (first | (simp; done) | (dsimp only; (repeat' (split <;> try dsimp only)) <;> simp_all)); done))⟩
@[simp] theorem execVpin_wf_mem_stack (a0 : Nat) (a1 : State)  (hw : a1.mem.stack.wf = true) :
    (resState a1 (execVpin a0 a1)).mem.stack.wf = true := by
  unfold execVpin; first | (simp (maxDischargeDepth := 30); done) | (rw [resState_next]; apply State.verOp_wf_mem_stack <;> (intros; (first | (simp (maxDischargeDepth := 30); done) | (simp_all (maxDischargeDepth := 30); done) | (dsimp only; (repeat' (split <;> try dsimp only)) <;> simp_all (maxDischargeDepth := 30); done) | ((repeat' split) <;> simp_all (maxDischargeDepth := 30); done))); done) | ((repeat' split) <;> first | (simp (maxDischargeDepth := 30); done) | (simp_all (maxDischargeDepth := 30); done) | (rw [resState_next]; apply State.verOp_wf_mem_stack <;> (intros; (first | (simp (maxDischargeDepth := 30); done) | (simp_all (maxDischargeDepth := 30); done) | (dsimp only; (repeat' (split <;> try dsimp only)) <;> simp_all (maxDischargeDepth := 30); done) | ((repeat' split) <;> simp_all (maxDischargeDepth := 30); done))); done))
@[simp] theorem execVunpin_same (a0 : Nat) (a1 : State) :
    (resState a1 (execVunpin a0 a1)).pending = a1.pending ∧ (resState a1 (execVunpin a0 a1)).clk = a1.clk ∧
      (resState a1 (execVunpin a0 a1)).cores = a1.cores ∧ (resState a1 (execVunpin a0 a1)).net = a1.net ∧
      (resState a1 (execVunpin a0 a1)).span = a1.span ∧ (resState a1 (execVunpin a0 a1)).host = a1.host ∧
      (resState a1 (execVunpin a0 a1)).boot = a1.boot ∧ (resState a1 (execVunpin a0 a1)).free = a1.free := by
  unfold execVunpin; rw [resState_next]; refine ⟨by apply State.verOp_same_pending; intros; split <;> simp, by apply State.verOp_same_clk; intros; split <;> simp, by apply State.verOp_same_cores; intros; split <;> simp, by apply State.verOp_same_net; intros; split <;> simp, by apply State.verOp_same_span; intros; split <;> simp, by apply State.verOp_same_host; intros; split <;> simp, by apply State.verOp_same_boot; intros; split <;> simp, by apply State.verOp_same_free; intros; split <;> simp⟩
@[simp] theorem execVunpin_kept (a0 : Nat) (a1 : State) :
    (resState a1 (execVunpin a0 a1)).mem.stack = a1.mem.stack := by
  unfold execVunpin; first | (simp; done) | (rw [resState_next]; apply State.verOp_kept_mem_stack <;> (intros; (first | (simp; done) | (simp_all; done) | (dsimp only; (repeat' (split <;> try dsimp only)) <;> simp_all; done) | ((repeat' split) <;> simp_all; done))); done) | ((repeat' split) <;> first | (simp; done) | (simp_all; done) | (rw [resState_next]; apply State.verOp_kept_mem_stack <;> (intros; (first | (simp; done) | (simp_all; done) | (dsimp only; (repeat' (split <;> try dsimp only)) <;> simp_all; done) | ((repeat' split) <;> simp_all; done))); done))
@[simp] theorem execWait_same (a0 : Nat) (a1 : Nat) (a2 : State) :
    (resState a2 (execWait a0 a1 a2)).pending = a2.pending ∧ (resState a2 (execWait a0 a1 a2)).clk = a2.clk ∧
      (resState a2 (execWait a0 a1 a2)).vats = a2.vats ∧ (resState a2 (execWait a0 a1 a2)).mem = a2.mem ∧
      (resState a2 (execWait a0 a1 a2)).span = a2.span ∧ (resState a2 (execWait a0 a1 a2)).host = a2.host ∧
      (resState a2 (execWait a0 a1 a2)).boot = a2.boot ∧ (resState a2 (execWait a0 a1 a2)).free = a2.free := by
  unfold execWait; (repeat' split) <;> simp
@[simp] theorem execWakeLatchDeliver_same (a0 : State) :
    (resState a0 (execWakeLatchDeliver a0)).pending = a0.pending ∧ (resState a0 (execWakeLatchDeliver a0)).clk = a0.clk ∧
      (resState a0 (execWakeLatchDeliver a0)).cores = a0.cores ∧ (resState a0 (execWakeLatchDeliver a0)).net = a0.net ∧
      (resState a0 (execWakeLatchDeliver a0)).vats = a0.vats ∧ (resState a0 (execWakeLatchDeliver a0)).mem = a0.mem ∧
      (resState a0 (execWakeLatchDeliver a0)).span = a0.span ∧ (resState a0 (execWakeLatchDeliver a0)).host = a0.host ∧
      (resState a0 (execWakeLatchDeliver a0)).boot = a0.boot ∧ (resState a0 (execWakeLatchDeliver a0)).free = a0.free := by
  unfold execWakeLatchDeliver; (repeat' split) <;> simp
@[simp] theorem execWakeWatchEvent_same (a0 : Nat) (a1 : State) :
    (resState a1 (execWakeWatchEvent a0 a1)).pending = a1.pending ∧ (resState a1 (execWakeWatchEvent a0 a1)).clk = a1.clk ∧
      (resState a1 (execWakeWatchEvent a0 a1)).cores = a1.cores ∧ (resState a1 (execWakeWatchEvent a0 a1)).net = a1.net ∧
      (resState a1 (execWakeWatchEvent a0 a1)).vats = a1.vats ∧ (resState a1 (execWakeWatchEvent a0 a1)).mem = a1.mem ∧
      (resState a1 (execWakeWatchEvent a0 a1)).span = a1.span ∧ (resState a1 (execWakeWatchEvent a0 a1)).host = a1.host ∧
      (resState a1 (execWakeWatchEvent a0 a1)).boot = a1.boot ∧ (resState a1 (execWakeWatchEvent a0 a1)).free = a1.free := by
  unfold execWakeWatchEvent; (repeat' split) <;> simp
@[simp] theorem execWarmReset_same (a0 : State) :
    (resState a0 (execWarmReset a0)).pending = a0.pending ∧ (resState a0 (execWarmReset a0)).out = a0.out ∧
      (resState a0 (execWarmReset a0)).free = a0.free := by
  unfold execWarmReset; (repeat' split) <;> simp
@[simp] theorem execWarmReset_kept (a0 : State) :
    (resState a0 (execWarmReset a0)).boot.flash = a0.boot.flash := by
  unfold execWarmReset; (repeat' split) <;> simp
@[simp] theorem execWarmReset_wf_mem_stack (a0 : State)  (hw : a0.mem.stack.wf = true) :
    (resState a0 (execWarmReset a0)).mem.stack.wf = true := by
  unfold execWarmReset; (repeat' split) <;> simp_all (maxDischargeDepth := 30)
@[simp] theorem execWarmReset_wf_boot_flashBuf (a0 : State)  (hw : a0.boot.flashBuf.wf = true) :
    (resState a0 (execWarmReset a0)).boot.flashBuf.wf = true := by
  unfold execWarmReset; (repeat' split) <;> simp_all (maxDischargeDepth := 30)
@[simp] theorem execWfi_same (a0 : Nat) (a1 : Guard) (a2 : State) :
    (resState a2 (execWfi a0 a1 a2)).pending = a2.pending ∧ (resState a2 (execWfi a0 a1 a2)).clk = a2.clk ∧
      (resState a2 (execWfi a0 a1 a2)).mem = a2.mem ∧ (resState a2 (execWfi a0 a1 a2)).span = a2.span ∧
      (resState a2 (execWfi a0 a1 a2)).host = a2.host ∧ (resState a2 (execWfi a0 a1 a2)).boot = a2.boot ∧
      (resState a2 (execWfi a0 a1 a2)).free = a2.free := by
  unfold execWfi; refine ⟨by first | (simp; done) | (rw [resState_next]; apply State.instr_same_pending; intros; (first | (simp; done) | (dsimp only; (repeat' (split <;> try dsimp only)) <;> simp_all)); done) | ((repeat' split) <;> first | (simp; done) | (rw [resState_next]; apply State.instr_same_pending; intros; (first | (simp; done) | (dsimp only; (repeat' (split <;> try dsimp only)) <;> simp_all)); done)), by first | (simp; done) | (rw [resState_next]; apply State.instr_same_clk; intros; (first | (simp; done) | (dsimp only; (repeat' (split <;> try dsimp only)) <;> simp_all)); done) | ((repeat' split) <;> first | (simp; done) | (rw [resState_next]; apply State.instr_same_clk; intros; (first | (simp; done) | (dsimp only; (repeat' (split <;> try dsimp only)) <;> simp_all)); done)), by first | (simp; done) | (rw [resState_next]; apply State.instr_same_mem; intros; (first | (simp; done) | (dsimp only; (repeat' (split <;> try dsimp only)) <;> simp_all)); done) | ((repeat' split) <;> first | (simp; done) | (rw [resState_next]; apply State.instr_same_mem; intros; (first | (simp; done) | (dsimp only; (repeat' (split <;> try dsimp only)) <;> simp_all)); done)), by first | (simp; done) | (rw [resState_next]; apply State.instr_same_span; intros; (first | (simp; done) | (dsimp only; (repeat' (split <;> try dsimp only)) <;> simp_all)); done) | ((repeat' split) <;> first | (simp; done) | (rw [resState_next]; apply State.instr_same_span; intros; (first | (simp; done) | (dsimp only; (repeat' (split <;> try dsimp only)) <;> simp_all)); done)), by first | (simp; done) | (rw [resState_next]; apply State.instr_same_host; intros; (first | (simp; done) | (dsimp only; (repeat' (split <;> try dsimp only)) <;> simp_all)); done) | ((repeat' split) <;> first | (simp; done) | (rw [resState_next]; apply State.instr_same_host; intros; (first | (simp; done) | (dsimp only; (repeat' (split <;> try dsimp only)) <;> simp_all)); done)), by first | (simp; done) | (rw [resState_next]; apply State.instr_same_boot; intros; (first | (simp; done) | (dsimp only; (repeat' (split <;> try dsimp only)) <;> simp_all)); done) | ((repeat' split) <;> first | (simp; done) | (rw [resState_next]; apply State.instr_same_boot; intros; (first | (simp; done) | (dsimp only; (repeat' (split <;> try dsimp only)) <;> simp_all)); done)), by first | (simp; done) | (rw [resState_next]; apply State.instr_same_free; intros; (first | (simp; done) | (dsimp only; (repeat' (split <;> try dsimp only)) <;> simp_all)); done) | ((repeat' split) <;> first | (simp; done) | (rw [resState_next]; apply State.instr_same_free; intros; (first | (simp; done) | (dsimp only; (repeat' (split <;> try dsimp only)) <;> simp_all)); done))⟩
@[simp] theorem execWfiWake_same (a0 : Nat) (a1 : State) :
    (resState a1 (execWfiWake a0 a1)).pending = a1.pending ∧ (resState a1 (execWfiWake a0 a1)).clk = a1.clk ∧
      (resState a1 (execWfiWake a0 a1)).vats = a1.vats ∧ (resState a1 (execWfiWake a0 a1)).mem = a1.mem ∧
      (resState a1 (execWfiWake a0 a1)).span = a1.span ∧ (resState a1 (execWfiWake a0 a1)).host = a1.host ∧
      (resState a1 (execWfiWake a0 a1)).boot = a1.boot ∧ (resState a1 (execWfiWake a0 a1)).free = a1.free := by
  unfold execWfiWake; (repeat' split) <;> simp
@[simp] theorem execWideRegisterRead_same (a0 : Who) (a1 : Nat) (a2 : State) : (resState a2 (execWideRegisterRead a0 a1 a2)).pending = a2.pending := by
  unfold execWideRegisterRead; (repeat' (split <;> try dsimp only)) <;> simp
theorem execWideRegisterRead_memOk (a0 : Who) (a1 : Nat) (a2 : State) (h : a2.MemOk) : (resState a2 (execWideRegisterRead a0 a1 a2)).MemOk := by
  unfold execWideRegisterRead; rw [resState_next]
  exact State.readCmd_memOk _ _ _ _ h
@[simp] theorem execWindowRead_same (a0 : Nat) (a1 : Nat) (a2 : Nat) (a3 : WinBy) (a4 : State) :
    (resState a4 (execWindowRead a0 a1 a2 a3 a4)).pending = a4.pending ∧ (resState a4 (execWindowRead a0 a1 a2 a3 a4)).clk = a4.clk ∧
      (resState a4 (execWindowRead a0 a1 a2 a3 a4)).mem = a4.mem ∧ (resState a4 (execWindowRead a0 a1 a2 a3 a4)).span = a4.span ∧
      (resState a4 (execWindowRead a0 a1 a2 a3 a4)).host = a4.host ∧ (resState a4 (execWindowRead a0 a1 a2 a3 a4)).boot = a4.boot ∧
      (resState a4 (execWindowRead a0 a1 a2 a3 a4)).free = a4.free := by
  unfold execWindowRead; (repeat' split) <;> simp
@[simp] theorem execWindowWrite_same (a0 : Nat) (a1 : Nat) (a2 : List Byte) (a3 : List Nat) (a4 : WinBy) (a5 : State) :
    (resState a5 (execWindowWrite a0 a1 a2 a3 a4 a5)).pending = a5.pending ∧ (resState a5 (execWindowWrite a0 a1 a2 a3 a4 a5)).clk = a5.clk ∧
      (resState a5 (execWindowWrite a0 a1 a2 a3 a4 a5)).mem = a5.mem ∧ (resState a5 (execWindowWrite a0 a1 a2 a3 a4 a5)).span = a5.span ∧
      (resState a5 (execWindowWrite a0 a1 a2 a3 a4 a5)).host = a5.host ∧ (resState a5 (execWindowWrite a0 a1 a2 a3 a4 a5)).boot = a5.boot ∧
      (resState a5 (execWindowWrite a0 a1 a2 a3 a4 a5)).free = a5.free := by
  unfold execWindowWrite; (repeat' split) <;> simp
@[simp] theorem execWipe_same (a0 : Nat) (a1 : State) :
    (resState a1 (execWipe a0 a1)).pending = a1.pending ∧ (resState a1 (execWipe a0 a1)).clk = a1.clk ∧
      (resState a1 (execWipe a0 a1)).cores = a1.cores ∧ (resState a1 (execWipe a0 a1)).net = a1.net ∧
      (resState a1 (execWipe a0 a1)).host = a1.host ∧ (resState a1 (execWipe a0 a1)).boot = a1.boot ∧ (resState a1 (execWipe a0 a1)).free = a1.free := by
  unfold execWipe; refine ⟨by first | (simp; done) | (rw [resState_next]; apply State.stkOp_same_pending; intros; (first | (simp; done) | (dsimp only; (repeat' (split <;> try dsimp only)) <;> simp_all)); done) | ((repeat' split) <;> first | (simp; done) | (rw [resState_next]; apply State.stkOp_same_pending; intros; (first | (simp; done) | (dsimp only; (repeat' (split <;> try dsimp only)) <;> simp_all)); done)), by first | (simp; done) | (rw [resState_next]; apply State.stkOp_same_clk; intros; (first | (simp; done) | (dsimp only; (repeat' (split <;> try dsimp only)) <;> simp_all)); done) | ((repeat' split) <;> first | (simp; done) | (rw [resState_next]; apply State.stkOp_same_clk; intros; (first | (simp; done) | (dsimp only; (repeat' (split <;> try dsimp only)) <;> simp_all)); done)), by first | (simp; done) | (rw [resState_next]; apply State.stkOp_same_cores; intros; (first | (simp; done) | (dsimp only; (repeat' (split <;> try dsimp only)) <;> simp_all)); done) | ((repeat' split) <;> first | (simp; done) | (rw [resState_next]; apply State.stkOp_same_cores; intros; (first | (simp; done) | (dsimp only; (repeat' (split <;> try dsimp only)) <;> simp_all)); done)), by first | (simp; done) | (rw [resState_next]; apply State.stkOp_same_net; intros; (first | (simp; done) | (dsimp only; (repeat' (split <;> try dsimp only)) <;> simp_all)); done) | ((repeat' split) <;> first | (simp; done) | (rw [resState_next]; apply State.stkOp_same_net; intros; (first | (simp; done) | (dsimp only; (repeat' (split <;> try dsimp only)) <;> simp_all)); done)), by first | (simp; done) | (rw [resState_next]; apply State.stkOp_same_host; intros; (first | (simp; done) | (dsimp only; (repeat' (split <;> try dsimp only)) <;> simp_all)); done) | ((repeat' split) <;> first | (simp; done) | (rw [resState_next]; apply State.stkOp_same_host; intros; (first | (simp; done) | (dsimp only; (repeat' (split <;> try dsimp only)) <;> simp_all)); done)), by first | (simp; done) | (rw [resState_next]; apply State.stkOp_same_boot; intros; (first | (simp; done) | (dsimp only; (repeat' (split <;> try dsimp only)) <;> simp_all)); done) | ((repeat' split) <;> first | (simp; done) | (rw [resState_next]; apply State.stkOp_same_boot; intros; (first | (simp; done) | (dsimp only; (repeat' (split <;> try dsimp only)) <;> simp_all)); done)), by first | (simp; done) | (rw [resState_next]; apply State.stkOp_same_free; intros; (first | (simp; done) | (dsimp only; (repeat' (split <;> try dsimp only)) <;> simp_all)); done) | ((repeat' split) <;> first | (simp; done) | (rw [resState_next]; apply State.stkOp_same_free; intros; (first | (simp; done) | (dsimp only; (repeat' (split <;> try dsimp only)) <;> simp_all)); done))⟩
@[simp] theorem execWipe_wf_mem_stack (a0 : Nat) (a1 : State)  (hw : a1.mem.stack.wf = true) :
    (resState a1 (execWipe a0 a1)).mem.stack.wf = true := by
  unfold execWipe; first | (simp (maxDischargeDepth := 30); done) | (rw [resState_next]; apply State.stkOp_wf_mem_stack <;> (intros; (first | (simp (maxDischargeDepth := 30); done) | (simp_all (maxDischargeDepth := 30); done) | (dsimp only; (repeat' (split <;> try dsimp only)) <;> simp_all (maxDischargeDepth := 30); done) | ((repeat' split) <;> simp_all (maxDischargeDepth := 30); done))); done) | ((repeat' split) <;> first | (simp (maxDischargeDepth := 30); done) | (simp_all (maxDischargeDepth := 30); done) | (rw [resState_next]; apply State.stkOp_wf_mem_stack <;> (intros; (first | (simp (maxDischargeDepth := 30); done) | (simp_all (maxDischargeDepth := 30); done) | (dsimp only; (repeat' (split <;> try dsimp only)) <;> simp_all (maxDischargeDepth := 30); done) | ((repeat' split) <;> simp_all (maxDischargeDepth := 30); done))); done))
@[simp] theorem execWipeComplete_same (a0 : Nat) (a1 : State) :
    (resState a1 (execWipeComplete a0 a1)).pending = a1.pending ∧ (resState a1 (execWipeComplete a0 a1)).clk = a1.clk ∧
      (resState a1 (execWipeComplete a0 a1)).span = a1.span ∧ (resState a1 (execWipeComplete a0 a1)).boot = a1.boot ∧
      (resState a1 (execWipeComplete a0 a1)).free = a1.free := by
  unfold execWipeComplete; (repeat' split) <;> simp
@[simp] theorem execWipeComplete_wf_mem_stack (a0 : Nat) (a1 : State)  (hw : a1.mem.stack.wf = true) :
    (resState a1 (execWipeComplete a0 a1)).mem.stack.wf = true := by
  unfold execWipeComplete; (repeat' split) <;> simp_all (maxDischargeDepth := 30)
@[simp] theorem execXor_same (a0 : Nat) (a1 : Guard) (a2 : Reg) (a3 : Reg) (a4 : Reg) (a5 : State) :
    (resState a5 (execXor a0 a1 a2 a3 a4 a5)).pending = a5.pending ∧ (resState a5 (execXor a0 a1 a2 a3 a4 a5)).clk = a5.clk ∧
      (resState a5 (execXor a0 a1 a2 a3 a4 a5)).mem = a5.mem ∧ (resState a5 (execXor a0 a1 a2 a3 a4 a5)).span = a5.span ∧
      (resState a5 (execXor a0 a1 a2 a3 a4 a5)).host = a5.host ∧ (resState a5 (execXor a0 a1 a2 a3 a4 a5)).boot = a5.boot ∧
      (resState a5 (execXor a0 a1 a2 a3 a4 a5)).free = a5.free := by
  unfold execXor; (repeat' split) <;> simp
@[simp] theorem execXori_same (a0 : Nat) (a1 : Guard) (a2 : Reg) (a3 : Reg) (a4 : BitVec 10) (a5 : State) :
    (resState a5 (execXori a0 a1 a2 a3 a4 a5)).pending = a5.pending ∧ (resState a5 (execXori a0 a1 a2 a3 a4 a5)).clk = a5.clk ∧
      (resState a5 (execXori a0 a1 a2 a3 a4 a5)).mem = a5.mem ∧ (resState a5 (execXori a0 a1 a2 a3 a4 a5)).span = a5.span ∧
      (resState a5 (execXori a0 a1 a2 a3 a4 a5)).host = a5.host ∧ (resState a5 (execXori a0 a1 a2 a3 a4 a5)).boot = a5.boot ∧
      (resState a5 (execXori a0 a1 a2 a3 a4 a5)).free = a5.free := by
  unfold execXori; (repeat' split) <;> simp

end Sys2Proof.Machine
end

