-- ==== Sys2Proof/Laws/Exec6.lean ====
section
/-! SUPPORT. What each meaning leaves unchanged: the parts of the state it does not touch, and the canonical form of the memories (6 of 6). -/

namespace Sys2Proof.Machine

theorem execAdvClose_memOk (a0 : Nat) (a1 : Nat) (a2 : State) (h : a2.MemOk) : (resState a2 (execAdvClose a0 a1 a2)).MemOk := by
  obtain ⟨h1, h2, h3⟩ := h; unfold State.MemOk; simp (maxDischargeDepth := 30) [h1, h2, h3]
theorem execAdvLoad_memOk (a0 : Nat) (a1 : Nat) (a2 : State) (h : a2.MemOk) : (resState a2 (execAdvLoad a0 a1 a2)).MemOk := by
  obtain ⟨h1, h2, h3⟩ := h; unfold State.MemOk; simp (maxDischargeDepth := 30) [h1, h2, h3]
theorem execBatchReset_memOk (a0 : Nat) (a1 : Src) (a2 : State) (h : a2.MemOk) : (resState a2 (execBatchReset a0 a1 a2)).MemOk := by
  obtain ⟨h1, h2, h3⟩ := h; unfold State.MemOk; simp (maxDischargeDepth := 30) [h1, h2, h3]
theorem execStep_memOk (a0 : Nat) (a1 : Src) (a2 : State) (h : a2.MemOk) : (resState a2 (execStep a0 a1 a2)).MemOk := by
  obtain ⟨h1, h2, h3⟩ := h; unfold State.MemOk; simp (maxDischargeDepth := 30) [h1, h2, h3]
theorem execStepNoadv_memOk (a0 : Nat) (a1 : Src) (a2 : State) (h : a2.MemOk) : (resState a2 (execStepNoadv a0 a1 a2)).MemOk := by
  obtain ⟨h1, h2, h3⟩ := h; unfold State.MemOk; simp (maxDischargeDepth := 30) [h1, h2, h3]
theorem execGtcSet_memOk (a0 : W64) (a1 : State) (h : a1.MemOk) : (resState a1 (execGtcSet a0 a1)).MemOk := by
  obtain ⟨h1, h2, h3⟩ := h; unfold State.MemOk; simp (maxDischargeDepth := 30) [h1, h2, h3]
theorem execHostToMgmt_memOk (a0 : Nat) (a1 : State) (h : a1.MemOk) : (resState a1 (execHostToMgmt a0 a1)).MemOk := by
  obtain ⟨h1, h2, h3⟩ := h; unfold State.MemOk; simp (maxDischargeDepth := 30) [h1, h2, h3]
theorem execMgmtToHost_memOk (a0 : Nat) (a1 : State) (h : a1.MemOk) : (resState a1 (execMgmtToHost a0 a1)).MemOk := by
  obtain ⟨h1, h2, h3⟩ := h; unfold State.MemOk; simp (maxDischargeDepth := 30) [h1, h2, h3]
theorem execYield_memOk (a0 : Nat) (a1 : State) (h : a1.MemOk) : (resState a1 (execYield a0 a1)).MemOk := by
  obtain ⟨h1, h2, h3⟩ := h; unfold State.MemOk; simp (maxDischargeDepth := 30) [h1, h2, h3]
theorem execArm_memOk (a0 : Nat) (a1 : W32) (a2 : State) (h : a2.MemOk) : (resState a2 (execArm a0 a1 a2)).MemOk := by
  obtain ⟨h1, h2, h3⟩ := h; unfold State.MemOk; simp (maxDischargeDepth := 30) [h1, h2, h3]
theorem execMirrorDisable_memOk (a0 : Nat) (a1 : Nat) (a2 : State) (h : a2.MemOk) : (resState a2 (execMirrorDisable a0 a1 a2)).MemOk := by
  obtain ⟨h1, h2, h3⟩ := h; unfold State.MemOk; simp (maxDischargeDepth := 30) [h1, h2, h3]
theorem execMirrorEnable_memOk (a0 : Nat) (a1 : Nat) (a2 : State) (h : a2.MemOk) : (resState a2 (execMirrorEnable a0 a1 a2)).MemOk := by
  obtain ⟨h1, h2, h3⟩ := h; unfold State.MemOk; simp (maxDischargeDepth := 30) [h1, h2, h3]
theorem execResync_memOk (a0 : Nat) (a1 : State) (h : a1.MemOk) : (resState a1 (execResync a0 a1)).MemOk := by
  obtain ⟨h1, h2, h3⟩ := h; unfold State.MemOk; simp (maxDischargeDepth := 30) [h1, h2, h3]
theorem execTwinCommit_memOk (a0 : Nat) (a1 : State) (h : a1.MemOk) : (resState a1 (execTwinCommit a0 a1)).MemOk := by
  obtain ⟨h1, h2, h3⟩ := h; unfold State.MemOk; simp (maxDischargeDepth := 30) [h1, h2, h3]
theorem execCouchReset_memOk (a0 : Nat) (a1 : State) (h : a1.MemOk) : (resState a1 (execCouchReset a0 a1)).MemOk := by
  obtain ⟨h1, h2, h3⟩ := h; unfold State.MemOk; simp (maxDischargeDepth := 30) [h1, h2, h3]
theorem execAbort_memOk (a0 : Nat) (a1 : Src) (a2 : State) (h : a2.MemOk) : (resState a2 (execAbort a0 a1 a2)).MemOk := by
  obtain ⟨h1, h2, h3⟩ := h; unfold State.MemOk; simp (maxDischargeDepth := 30) [h1, h2, h3]
theorem execLoad_memOk (a0 : Nat) (a1 : Src) (a2 : State) (h : a2.MemOk) : (resState a2 (execLoad a0 a1 a2)).MemOk := by
  obtain ⟨h1, h2, h3⟩ := h; unfold State.MemOk; simp (maxDischargeDepth := 30) [h1, h2, h3]
theorem execRelease_memOk (a0 : Nat) (a1 : Src) (a2 : State) (h : a2.MemOk) : (resState a2 (execRelease a0 a1 a2)).MemOk := by
  obtain ⟨h1, h2, h3⟩ := h; unfold State.MemOk; simp (maxDischargeDepth := 30) [h1, h2, h3]
theorem execResume_memOk (a0 : Nat) (a1 : Src) (a2 : State) (h : a2.MemOk) : (resState a2 (execResume a0 a1 a2)).MemOk := by
  obtain ⟨h1, h2, h3⟩ := h; unfold State.MemOk; simp (maxDischargeDepth := 30) [h1, h2, h3]
theorem execScanIn_memOk (a0 : Nat) (a1 : Src) (a2 : State) (h : a2.MemOk) : (resState a2 (execScanIn a0 a1 a2)).MemOk := by
  obtain ⟨h1, h2, h3⟩ := h; unfold State.MemOk; simp (maxDischargeDepth := 30) [h1, h2, h3]
theorem execStart_memOk (a0 : Nat) (a1 : Src) (a2 : State) (h : a2.MemOk) : (resState a2 (execStart a0 a1 a2)).MemOk := by
  obtain ⟨h1, h2, h3⟩ := h; unfold State.MemOk; simp (maxDischargeDepth := 30) [h1, h2, h3]
theorem execAcc96InputHalt_memOk (a0 : Nat) (a1 : State) (h : a1.MemOk) : (resState a1 (execAcc96InputHalt a0 a1)).MemOk := by
  obtain ⟨h1, h2, h3⟩ := h; unfold State.MemOk; simp (maxDischargeDepth := 30) [h1, h2, h3]
theorem execAccInFormatHalt_memOk (a0 : Nat) (a1 : State) (h : a1.MemOk) : (resState a1 (execAccInFormatHalt a0 a1)).MemOk := by
  obtain ⟨h1, h2, h3⟩ := h; unfold State.MemOk; simp (maxDischargeDepth := 30) [h1, h2, h3]
theorem execAccept_memOk (a0 : Nat) (a1 : ChMsg) (a2 : State) (h : a2.MemOk) : (resState a2 (execAccept a0 a1 a2)).MemOk := by
  obtain ⟨h1, h2, h3⟩ := h; unfold State.MemOk; simp (maxDischargeDepth := 30) [h1, h2, h3]
theorem execAccountingWindowEnd_memOk (a0 : State) (h : a0.MemOk) : (resState a0 (execAccountingWindowEnd a0)).MemOk := by
  obtain ⟨h1, h2, h3⟩ := h; unfold State.MemOk; simp (maxDischargeDepth := 30) [h1, h2, h3]
theorem execAccum_memOk (a0 : Nat) (a1 : State) (h : a1.MemOk) : (resState a1 (execAccum a0 a1)).MemOk := by
  obtain ⟨h1, h2, h3⟩ := h; unfold State.MemOk; simp (maxDischargeDepth := 30) [h1, h2, h3]
theorem execAckWindowExpiry_memOk (a0 : Nat) (a1 : Nat) (a2 : State) (h : a2.MemOk) : (resState a2 (execAckWindowExpiry a0 a1 a2)).MemOk := by
  obtain ⟨h1, h2, h3⟩ := h; unfold State.MemOk; simp (maxDischargeDepth := 30) [h1, h2, h3]
theorem execAdam_memOk (a0 : Nat) (a1 : State) (h : a1.MemOk) : (resState a1 (execAdam a0 a1)).MemOk := by
  obtain ⟨h1, h2, h3⟩ := h; unfold State.MemOk; simp (maxDischargeDepth := 30) [h1, h2, h3]
theorem execAdd_memOk (a0 : Nat) (a1 : Guard) (a2 : Reg) (a3 : Reg) (a4 : Reg) (a5 : State)
      (h : a5.MemOk) : (resState a5 (execAdd a0 a1 a2 a3 a4 a5)).MemOk := by
  obtain ⟨h1, h2, h3⟩ := h; unfold State.MemOk; simp (maxDischargeDepth := 30) [h1, h2, h3]
theorem execAdda_memOk (a0 : Nat) (a1 : Nat) (a2 : State) (h : a2.MemOk) : (resState a2 (execAdda a0 a1 a2)).MemOk := by
  obtain ⟨h1, h2, h3⟩ := h; unfold State.MemOk; simp (maxDischargeDepth := 30) [h1, h2, h3]
theorem execAddi_memOk (a0 : Nat) (a1 : Guard) (a2 : Reg) (a3 : Reg) (a4 : BitVec 10) (a5 : State)
      (h : a5.MemOk) : (resState a5 (execAddi a0 a1 a2 a3 a4 a5)).MemOk := by
  obtain ⟨h1, h2, h3⟩ := h; unfold State.MemOk; simp (maxDischargeDepth := 30) [h1, h2, h3]
theorem execAddr_memOk (a0 : Nat) (a1 : Nat) (a2 : State) (h : a2.MemOk) : (resState a2 (execAddr a0 a1 a2)).MemOk := by
  obtain ⟨h1, h2, h3⟩ := h; unfold State.MemOk; simp (maxDischargeDepth := 30) [h1, h2, h3]
theorem execAdvCloseComplete_memOk (a0 : Nat) (a1 : State) (h : a1.MemOk) : (resState a1 (execAdvCloseComplete a0 a1)).MemOk := by
  obtain ⟨h1, h2, h3⟩ := h; unfold State.MemOk; simp (maxDischargeDepth := 30) [h1, h2, h3]
theorem execAlignComplete_memOk (a0 : Nat) (a1 : Bool) (a2 : State) (h : a2.MemOk) : (resState a2 (execAlignComplete a0 a1 a2)).MemOk := by
  obtain ⟨h1, h2, h3⟩ := h; unfold State.MemOk; simp (maxDischargeDepth := 30) [h1, h2, h3]
theorem execAlignTimeout_memOk (a0 : Nat) (a1 : State) (h : a1.MemOk) : (resState a1 (execAlignTimeout a0 a1)).MemOk := by
  obtain ⟨h1, h2, h3⟩ := h; unfold State.MemOk; simp (maxDischargeDepth := 30) [h1, h2, h3]
theorem execAnd_memOk (a0 : Nat) (a1 : Guard) (a2 : Reg) (a3 : Reg) (a4 : Reg) (a5 : State)
      (h : a5.MemOk) : (resState a5 (execAnd a0 a1 a2 a3 a4 a5)).MemOk := by
  obtain ⟨h1, h2, h3⟩ := h; unfold State.MemOk; simp (maxDischargeDepth := 30) [h1, h2, h3]
theorem execAndi_memOk (a0 : Nat) (a1 : Guard) (a2 : Reg) (a3 : Reg) (a4 : BitVec 10) (a5 : State)
      (h : a5.MemOk) : (resState a5 (execAndi a0 a1 a2 a3 a4 a5)).MemOk := by
  obtain ⟨h1, h2, h3⟩ := h; unfold State.MemOk; simp (maxDischargeDepth := 30) [h1, h2, h3]
theorem execAssign_memOk (a0 : Nat) (a1 : Src) (a2 : Nat) (a3 : State) (h : a3.MemOk) : (resState a3 (execAssign a0 a1 a2 a3)).MemOk := by
  obtain ⟨h1, h2, h3⟩ := h; unfold State.MemOk; simp (maxDischargeDepth := 30) [h1, h2, h3]
theorem execBalNext_memOk (a0 : Nat) (a1 : Nat) (a2 : Nat) (a3 : State) (h : a3.MemOk) : (resState a3 (execBalNext a0 a1 a2 a3)).MemOk := by
  obtain ⟨h1, h2, h3⟩ := h; unfold State.MemOk; simp (maxDischargeDepth := 30) [h1, h2, h3]
theorem execBankRefresh_memOk (a0 : Nat) (a1 : State) (h : a1.MemOk) : (resState a1 (execBankRefresh a0 a1)).MemOk := by
  obtain ⟨h1, h2, h3⟩ := h; unfold State.MemOk; simp (maxDischargeDepth := 30) [h1, h2, h3]
theorem execBeatReceive_memOk (a0 : State) (h : a0.MemOk) : (resState a0 (execBeatReceive a0)).MemOk := by
  obtain ⟨h1, h2, h3⟩ := h; unfold State.MemOk; simp (maxDischargeDepth := 30) [h1, h2, h3]
theorem execBeatSend_memOk (a0 : State) (h : a0.MemOk) : (resState a0 (execBeatSend a0)).MemOk := by
  obtain ⟨h1, h2, h3⟩ := h; unfold State.MemOk; simp (maxDischargeDepth := 30) [h1, h2, h3]
theorem execBr_memOk (a0 : Nat) (a1 : Guard) (a2 : BitVec 20) (a3 : State) (h : a3.MemOk) : (resState a3 (execBr a0 a1 a2 a3)).MemOk := by
  obtain ⟨h1, h2, h3⟩ := h; unfold State.MemOk; simp (maxDischargeDepth := 30) [h1, h2, h3]
theorem execBrk_memOk (a0 : Nat) (a1 : Guard) (a2 : State) (h : a2.MemOk) : (resState a2 (execBrk a0 a1 a2)).MemOk := by
  obtain ⟨h1, h2, h3⟩ := h; unfold State.MemOk; simp (maxDischargeDepth := 30) [h1, h2, h3]
theorem execCack_memOk (a0 : State) (h : a0.MemOk) : (resState a0 (execCack a0)).MemOk := by
  obtain ⟨h1, h2, h3⟩ := h; unfold State.MemOk; simp (maxDischargeDepth := 30) [h1, h2, h3]
theorem execCalibrationInterval_memOk (a0 : Nat) (a1 : State) (h : a1.MemOk) : (resState a1 (execCalibrationInterval a0 a1)).MemOk := by
  obtain ⟨h1, h2, h3⟩ := h; unfold State.MemOk; simp (maxDischargeDepth := 30) [h1, h2, h3]
theorem execCall_memOk (a0 : Nat) (a1 : Guard) (a2 : BitVec 20) (a3 : State) (h : a3.MemOk) : (resState a3 (execCall a0 a1 a2 a3)).MemOk := by
  obtain ⟨h1, h2, h3⟩ := h; unfold State.MemOk; simp (maxDischargeDepth := 30) [h1, h2, h3]
theorem execCapRiseWindow_memOk (a0 : State) (h : a0.MemOk) : (resState a0 (execCapRiseWindow a0)).MemOk := by
  obtain ⟨h1, h2, h3⟩ := h; unfold State.MemOk; simp (maxDischargeDepth := 30) [h1, h2, h3]
theorem execCapWindow_memOk (a0 : State) (h : a0.MemOk) : (resState a0 (execCapWindow a0)).MemOk := by
  obtain ⟨h1, h2, h3⟩ := h; unfold State.MemOk; simp (maxDischargeDepth := 30) [h1, h2, h3]
theorem execChainRecordRead_memOk (a0 : Nat) (a1 : State) (h : a1.MemOk) : (resState a1 (execChainRecordRead a0 a1)).MemOk := by
  obtain ⟨h1, h2, h3⟩ := h; unfold State.MemOk; simp (maxDischargeDepth := 30) [h1, h2, h3]
theorem execChan_memOk (a0 : Nat) (a1 : State) (h : a1.MemOk) : (resState a1 (execChan a0 a1)).MemOk := by
  obtain ⟨h1, h2, h3⟩ := h; unfold State.MemOk; simp (maxDischargeDepth := 30) [h1, h2, h3]
theorem execChannelData_memOk (a0 : Nat) (a1 : ChMsg) (a2 : State) (h : a2.MemOk) : (resState a2 (execChannelData a0 a1 a2)).MemOk := by
  obtain ⟨h1, h2, h3⟩ := h; unfold State.MemOk; simp (maxDischargeDepth := 30) [h1, h2, h3]
theorem execChreq_memOk (a0 : Nat) (a1 : State) (h : a1.MemOk) : (resState a1 (execChreq a0 a1)).MemOk := by
  obtain ⟨h1, h2, h3⟩ := h; unfold State.MemOk; simp (maxDischargeDepth := 30) [h1, h2, h3]
theorem execChrsp_memOk (a0 : Nat) (a1 : State) (h : a1.MemOk) : (resState a1 (execChrsp a0 a1)).MemOk := by
  obtain ⟨h1, h2, h3⟩ := h; unfold State.MemOk; simp (maxDischargeDepth := 30) [h1, h2, h3]
theorem execCloseChan_memOk (a0 : Nat) (a1 : State) (h : a1.MemOk) : (resState a1 (execCloseChan a0 a1)).MemOk := by
  obtain ⟨h1, h2, h3⟩ := h; unfold State.MemOk; simp (maxDischargeDepth := 30) [h1, h2, h3]
theorem execClosePacket_memOk (a0 : Prod Nat ChMsg) (a1 : State) (h : a1.MemOk) : (resState a1 (execClosePacket a0 a1)).MemOk := by
  obtain ⟨h1, h2, h3⟩ := h; unfold State.MemOk; simp (maxDischargeDepth := 30) [h1, h2, h3]
theorem execClusterPowerEntry_memOk (a0 : Nat) (a1 : State) (h : a1.MemOk) : (resState a1 (execClusterPowerEntry a0 a1)).MemOk := by
  obtain ⟨h1, h2, h3⟩ := h; unfold State.MemOk; simp (maxDischargeDepth := 30) [h1, h2, h3]
theorem execClusterPowerRequest_memOk (a0 : Who) (a1 : Nat) (a2 : Nat) (a3 : State)
      (h : a3.MemOk) : (resState a3 (execClusterPowerRequest a0 a1 a2 a3)).MemOk := by
  obtain ⟨h1, h2, h3⟩ := h; unfold State.MemOk; simp (maxDischargeDepth := 30) [h1, h2, h3]
theorem execClusterWakeComplete_memOk (a0 : Nat) (a1 : State) (h : a1.MemOk) : (resState a1 (execClusterWakeComplete a0 a1)).MemOk := by
  obtain ⟨h1, h2, h3⟩ := h; unfold State.MemOk; simp (maxDischargeDepth := 30) [h1, h2, h3]
theorem execCmpEq_memOk (a0 : Nat) (a1 : Guard) (a2 : BitVec 3) (a3 : Reg) (a4 : Reg) (a5 : State)
      (h : a5.MemOk) : (resState a5 (execCmpEq a0 a1 a2 a3 a4 a5)).MemOk := by
  obtain ⟨h1, h2, h3⟩ := h; unfold State.MemOk; simp (maxDischargeDepth := 30) [h1, h2, h3]
theorem execCmpGe_memOk (a0 : Nat) (a1 : Guard) (a2 : BitVec 3) (a3 : Reg) (a4 : Reg) (a5 : State)
      (h : a5.MemOk) : (resState a5 (execCmpGe a0 a1 a2 a3 a4 a5)).MemOk := by
  obtain ⟨h1, h2, h3⟩ := h; unfold State.MemOk; simp (maxDischargeDepth := 30) [h1, h2, h3]
theorem execCmpGeu_memOk (a0 : Nat) (a1 : Guard) (a2 : BitVec 3) (a3 : Reg) (a4 : Reg) (a5 : State)
      (h : a5.MemOk) : (resState a5 (execCmpGeu a0 a1 a2 a3 a4 a5)).MemOk := by
  obtain ⟨h1, h2, h3⟩ := h; unfold State.MemOk; simp (maxDischargeDepth := 30) [h1, h2, h3]
theorem execCmpLt_memOk (a0 : Nat) (a1 : Guard) (a2 : BitVec 3) (a3 : Reg) (a4 : Reg) (a5 : State)
      (h : a5.MemOk) : (resState a5 (execCmpLt a0 a1 a2 a3 a4 a5)).MemOk := by
  obtain ⟨h1, h2, h3⟩ := h; unfold State.MemOk; simp (maxDischargeDepth := 30) [h1, h2, h3]
theorem execCmpLtu_memOk (a0 : Nat) (a1 : Guard) (a2 : BitVec 3) (a3 : Reg) (a4 : Reg) (a5 : State)
      (h : a5.MemOk) : (resState a5 (execCmpLtu a0 a1 a2 a3 a4 a5)).MemOk := by
  obtain ⟨h1, h2, h3⟩ := h; unfold State.MemOk; simp (maxDischargeDepth := 30) [h1, h2, h3]
theorem execCmpNe_memOk (a0 : Nat) (a1 : Guard) (a2 : BitVec 3) (a3 : Reg) (a4 : Reg) (a5 : State)
      (h : a5.MemOk) : (resState a5 (execCmpNe a0 a1 a2 a3 a4 a5)).MemOk := by
  obtain ⟨h1, h2, h3⟩ := h; unfold State.MemOk; simp (maxDischargeDepth := 30) [h1, h2, h3]
theorem execCmpiEq_memOk (a0 : Nat) (a1 : Guard) (a2 : BitVec 3) (a3 : Reg) (a4 : BitVec 10) (a5 : State)
      (h : a5.MemOk) : (resState a5 (execCmpiEq a0 a1 a2 a3 a4 a5)).MemOk := by
  obtain ⟨h1, h2, h3⟩ := h; unfold State.MemOk; simp (maxDischargeDepth := 30) [h1, h2, h3]
theorem execCmpiGe_memOk (a0 : Nat) (a1 : Guard) (a2 : BitVec 3) (a3 : Reg) (a4 : BitVec 10) (a5 : State)
      (h : a5.MemOk) : (resState a5 (execCmpiGe a0 a1 a2 a3 a4 a5)).MemOk := by
  obtain ⟨h1, h2, h3⟩ := h; unfold State.MemOk; simp (maxDischargeDepth := 30) [h1, h2, h3]
theorem execCmpiGeu_memOk (a0 : Nat) (a1 : Guard) (a2 : BitVec 3) (a3 : Reg) (a4 : BitVec 10) (a5 : State)
      (h : a5.MemOk) : (resState a5 (execCmpiGeu a0 a1 a2 a3 a4 a5)).MemOk := by
  obtain ⟨h1, h2, h3⟩ := h; unfold State.MemOk; simp (maxDischargeDepth := 30) [h1, h2, h3]
theorem execCmpiLt_memOk (a0 : Nat) (a1 : Guard) (a2 : BitVec 3) (a3 : Reg) (a4 : BitVec 10) (a5 : State)
      (h : a5.MemOk) : (resState a5 (execCmpiLt a0 a1 a2 a3 a4 a5)).MemOk := by
  obtain ⟨h1, h2, h3⟩ := h; unfold State.MemOk; simp (maxDischargeDepth := 30) [h1, h2, h3]
theorem execCmpiLtu_memOk (a0 : Nat) (a1 : Guard) (a2 : BitVec 3) (a3 : Reg) (a4 : BitVec 10) (a5 : State)
      (h : a5.MemOk) : (resState a5 (execCmpiLtu a0 a1 a2 a3 a4 a5)).MemOk := by
  obtain ⟨h1, h2, h3⟩ := h; unfold State.MemOk; simp (maxDischargeDepth := 30) [h1, h2, h3]
theorem execCmpiNe_memOk (a0 : Nat) (a1 : Guard) (a2 : BitVec 3) (a3 : Reg) (a4 : BitVec 10) (a5 : State)
      (h : a5.MemOk) : (resState a5 (execCmpiNe a0 a1 a2 a3 a4 a5)).MemOk := by
  obtain ⟨h1, h2, h3⟩ := h; unfold State.MemOk; simp (maxDischargeDepth := 30) [h1, h2, h3]
theorem execColdReset_memOk (a0 : State) (h : a0.MemOk) : (resState a0 (execColdReset a0)).MemOk := by
  obtain ⟨h1, h2, h3⟩ := h; unfold State.MemOk; simp (maxDischargeDepth := 30) [h1, h2, h3]
theorem execCommitApplied_memOk (a0 : Nat) (a1 : State) (h : a1.MemOk) : (resState a1 (execCommitApplied a0 a1)).MemOk := by
  obtain ⟨h1, h2, h3⟩ := h; unfold State.MemOk; simp (maxDischargeDepth := 30) [h1, h2, h3]
theorem execCommitFrame_memOk (a0 : State) (h : a0.MemOk) : (resState a0 (execCommitFrame a0)).MemOk := by
  obtain ⟨h1, h2, h3⟩ := h; unfold State.MemOk; simp (maxDischargeDepth := 30) [h1, h2, h3]
theorem execCompletionRecordWrite_memOk (a0 : Nat) (a1 : State) (h : a1.MemOk) : (resState a1 (execCompletionRecordWrite a0 a1)).MemOk := by
  obtain ⟨h1, h2, h3⟩ := h; unfold State.MemOk; simp (maxDischargeDepth := 30) [h1, h2, h3]
theorem execControllerRingExchange_memOk (a0 : Nat) (a1 : State) (h : a1.MemOk) : (resState a1 (execControllerRingExchange a0 a1)).MemOk := by
  obtain ⟨h1, h2, h3⟩ := h; unfold State.MemOk; simp (maxDischargeDepth := 30) [h1, h2, h3]
theorem execConvert_memOk (a0 : Nat) (a1 : State) (h : a1.MemOk) : (resState a1 (execConvert a0 a1)).MemOk := by
  obtain ⟨h1, h2, h3⟩ := h; unfold State.MemOk; simp (maxDischargeDepth := 30) [h1, h2, h3]
theorem execCopy_memOk (a0 : Nat) (a1 : Nat) (a2 : State) (h : a2.MemOk) : (resState a2 (execCopy a0 a1 a2)).MemOk := by
  obtain ⟨h1, h2, h3⟩ := h; unfold State.MemOk; simp (maxDischargeDepth := 30) [h1, h2, h3]
theorem execCopyComplete_memOk (a0 : Nat) (a1 : Nat) (a2 : State) (h : a2.MemOk) : (resState a2 (execCopyComplete a0 a1 a2)).MemOk := by
  obtain ⟨h1, h2, h3⟩ := h; unfold State.MemOk; simp (maxDischargeDepth := 30) [h1, h2, h3]
theorem execCoreFence_memOk (a0 : Who) (a1 : Nat) (a2 : Nat) (a3 : State) (h : a3.MemOk) : (resState a3 (execCoreFence a0 a1 a2 a3)).MemOk := by
  obtain ⟨h1, h2, h3⟩ := h; unfold State.MemOk; simp (maxDischargeDepth := 30) [h1, h2, h3]
theorem execCoreGate_memOk (a0 : Nat) (a1 : State) (h : a1.MemOk) : (resState a1 (execCoreGate a0 a1)).MemOk := by
  obtain ⟨h1, h2, h3⟩ := h; unfold State.MemOk; simp (maxDischargeDepth := 30) [h1, h2, h3]
theorem execCoreStart_memOk (a0 : Nat) (a1 : State) (h : a1.MemOk) : (resState a1 (execCoreStart a0 a1)).MemOk := by
  obtain ⟨h1, h2, h3⟩ := h; unfold State.MemOk; simp (maxDischargeDepth := 30) [h1, h2, h3]
theorem execCqHead_memOk (a0 : Nat) (a1 : Nat) (a2 : Nat) (a3 : Nat) (a4 : State) (h : a4.MemOk) : (resState a4 (execCqHead a0 a1 a2 a3 a4)).MemOk := by
  obtain ⟨h1, h2, h3⟩ := h; unfold State.MemOk; simp (maxDischargeDepth := 30) [h1, h2, h3]
theorem execCreditReturn_memOk (a0 : Nat) (a1 : Nat) (a2 : ChMsg) (a3 : State) (h : a3.MemOk) : (resState a3 (execCreditReturn a0 a1 a2 a3)).MemOk := by
  obtain ⟨h1, h2, h3⟩ := h; unfold State.MemOk; simp (maxDischargeDepth := 30) [h1, h2, h3]
theorem execCtlDisable_memOk (a0 : State) (h : a0.MemOk) : (resState a0 (execCtlDisable a0)).MemOk := by
  obtain ⟨h1, h2, h3⟩ := h; unfold State.MemOk; simp (maxDischargeDepth := 30) [h1, h2, h3]
theorem execCtlEnable_memOk (a0 : State) (h : a0.MemOk) : (resState a0 (execCtlEnable a0)).MemOk := by
  obtain ⟨h1, h2, h3⟩ := h; unfold State.MemOk; simp (maxDischargeDepth := 30) [h1, h2, h3]
theorem execCtlHandover_memOk (a0 : State) (h : a0.MemOk) : (resState a0 (execCtlHandover a0)).MemOk := by
  obtain ⟨h1, h2, h3⟩ := h; unfold State.MemOk; simp (maxDischargeDepth := 30) [h1, h2, h3]
theorem execCtlPacketRoute_memOk (a0 : Nat) (a1 : Nat) (a2 : Nat) (a3 : Prod (List Byte) NetMarks) (a4 : State)
      (h : a4.MemOk) : (resState a4 (execCtlPacketRoute a0 a1 a2 a3 a4)).MemOk := by
  obtain ⟨h1, h2, h3⟩ := h; unfold State.MemOk; simp (maxDischargeDepth := 30) [h1, h2, h3]
theorem execCtlrsp_memOk (a0 : State) (h : a0.MemOk) : (resState a0 (execCtlrsp a0)).MemOk := by
  obtain ⟨h1, h2, h3⟩ := h; unfold State.MemOk; simp (maxDischargeDepth := 30) [h1, h2, h3]
theorem execCvt_memOk (a0 : Nat) (a1 : Nat) (a2 : State) (h : a2.MemOk) : (resState a2 (execCvt a0 a1 a2)).MemOk := by
  obtain ⟨h1, h2, h3⟩ := h; unfold State.MemOk; simp (maxDischargeDepth := 30) [h1, h2, h3]
theorem execDapHalt_memOk (a0 : Nat) (a1 : State) (h : a1.MemOk) : (resState a1 (execDapHalt a0 a1)).MemOk := by
  obtain ⟨h1, h2, h3⟩ := h; unfold State.MemOk; simp (maxDischargeDepth := 30) [h1, h2, h3]
theorem execDapNop_memOk (a0 : State) (h : a0.MemOk) : (resState a0 (execDapNop a0)).MemOk := by
  obtain ⟨h1, h2, h3⟩ := h; unfold State.MemOk; simp (maxDischargeDepth := 30) [h1, h2, h3]
theorem execDapResume_memOk (a0 : Nat) (a1 : State) (h : a1.MemOk) : (resState a1 (execDapResume a0 a1)).MemOk := by
  obtain ⟨h1, h2, h3⟩ := h; unfold State.MemOk; simp (maxDischargeDepth := 30) [h1, h2, h3]
theorem execDapStep_memOk (a0 : Nat) (a1 : State) (h : a1.MemOk) : (resState a1 (execDapStep a0 a1)).MemOk := by
  obtain ⟨h1, h2, h3⟩ := h; unfold State.MemOk; simp (maxDischargeDepth := 30) [h1, h2, h3]
theorem execDapStepTimeout_memOk (a0 : Nat) (a1 : State) (h : a1.MemOk) : (resState a1 (execDapStepTimeout a0 a1)).MemOk := by
  obtain ⟨h1, h2, h3⟩ := h; unfold State.MemOk; simp (maxDischargeDepth := 30) [h1, h2, h3]
theorem execDapTransactionComplete_memOk (a0 : State) (h : a0.MemOk) : (resState a0 (execDapTransactionComplete a0)).MemOk := by
  obtain ⟨h1, h2, h3⟩ := h; unfold State.MemOk; simp (maxDischargeDepth := 30) [h1, h2, h3]
theorem execDbnz_memOk (a0 : Nat) (a1 : Guard) (a2 : Reg) (a3 : BitVec 15) (a4 : State)
      (h : a4.MemOk) : (resState a4 (execDbnz a0 a1 a2 a3 a4)).MemOk := by
  obtain ⟨h1, h2, h3⟩ := h; unfold State.MemOk; simp (maxDischargeDepth := 30) [h1, h2, h3]
theorem execDeadlockDetect_memOk (a0 : Nat) (a1 : Nat) (a2 : State) (h : a2.MemOk) : (resState a2 (execDeadlockDetect a0 a1 a2)).MemOk := by
  obtain ⟨h1, h2, h3⟩ := h; unfold State.MemOk; simp (maxDischargeDepth := 30) [h1, h2, h3]
theorem execDeliv_memOk (a0 : Nat) (a1 : Nat) (a2 : State) (h : a2.MemOk) : (resState a2 (execDeliv a0 a1 a2)).MemOk := by
  obtain ⟨h1, h2, h3⟩ := h; unfold State.MemOk; simp (maxDischargeDepth := 30) [h1, h2, h3]
theorem execDeliveryAction_memOk (a0 : Nat) (a1 : Nat) (a2 : State) (h : a2.MemOk) : (resState a2 (execDeliveryAction a0 a1 a2)).MemOk := by
  obtain ⟨h1, h2, h3⟩ := h; unfold State.MemOk; simp (maxDischargeDepth := 30) [h1, h2, h3]
theorem execDeliveryPieceWrite_memOk (a0 : Nat) (a1 : Nat) (a2 : State) (h : a2.MemOk) : (resState a2 (execDeliveryPieceWrite a0 a1 a2)).MemOk := by
  obtain ⟨h1, h2, h3⟩ := h; unfold State.MemOk; simp (maxDischargeDepth := 30) [h1, h2, h3]
theorem execDeviceFault_memOk (a0 : Nat) (a1 : State) (h : a1.MemOk) : (resState a1 (execDeviceFault a0 a1)).MemOk := by
  obtain ⟨h1, h2, h3⟩ := h; unfold State.MemOk; simp (maxDischargeDepth := 30) [h1, h2, h3]
theorem execDeviceWake_memOk (a0 : State) (h : a0.MemOk) : (resState a0 (execDeviceWake a0)).MemOk := by
  obtain ⟨h1, h2, h3⟩ := h; unfold State.MemOk; simp (maxDischargeDepth := 30) [h1, h2, h3]
theorem execDeviceWriteAck_memOk (a0 : Nat) (a1 : Nat) (a2 : Nat) (a3 : Nat) (a4 : State)
      (h : a4.MemOk) : (resState a4 (execDeviceWriteAck a0 a1 a2 a3 a4)).MemOk := by
  obtain ⟨h1, h2, h3⟩ := h; unfold State.MemOk; simp (maxDischargeDepth := 30) [h1, h2, h3]
theorem execDiv_memOk (a0 : Nat) (a1 : Guard) (a2 : Reg) (a3 : Reg) (a4 : Reg) (a5 : State)
      (h : a5.MemOk) : (resState a5 (execDiv a0 a1 a2 a3 a4 a5)).MemOk := by
  obtain ⟨h1, h2, h3⟩ := h; unfold State.MemOk; simp (maxDischargeDepth := 30) [h1, h2, h3]
theorem execDivu_memOk (a0 : Nat) (a1 : Guard) (a2 : Reg) (a3 : Reg) (a4 : Reg) (a5 : State)
      (h : a5.MemOk) : (resState a5 (execDivu a0 a1 a2 a3 a4 a5)).MemOk := by
  obtain ⟨h1, h2, h3⟩ := h; unfold State.MemOk; simp (maxDischargeDepth := 30) [h1, h2, h3]
theorem execDmaCompletionTimeout_memOk (a0 : Nat) (a1 : Option Nat) (a2 : State)
      (h : a2.MemOk) : (resState a2 (execDmaCompletionTimeout a0 a1 a2)).MemOk := by
  obtain ⟨h1, h2, h3⟩ := h; unfold State.MemOk; simp (maxDischargeDepth := 30) [h1, h2, h3]
theorem execDrainTimeout_memOk (a0 : Nat) (a1 : State) (h : a1.MemOk) : (resState a1 (execDrainTimeout a0 a1)).MemOk := by
  obtain ⟨h1, h2, h3⟩ := h; unfold State.MemOk; simp (maxDischargeDepth := 30) [h1, h2, h3]
theorem execDroopTrip_memOk (a0 : Nat) (a1 : Nat) (a2 : State) (h : a2.MemOk) : (resState a2 (execDroopTrip a0 a1 a2)).MemOk := by
  obtain ⟨h1, h2, h3⟩ := h; unfold State.MemOk; simp (maxDischargeDepth := 30) [h1, h2, h3]
theorem execDvfsSwitch_memOk (a0 : State) (h : a0.MemOk) : (resState a0 (execDvfsSwitch a0)).MemOk := by
  obtain ⟨h1, h2, h3⟩ := h; unfold State.MemOk; simp (maxDischargeDepth := 30) [h1, h2, h3]
theorem execEndProg_memOk (a0 : Nat) (a1 : Guard) (a2 : State) (h : a2.MemOk) : (resState a2 (execEndProg a0 a1 a2)).MemOk := by
  obtain ⟨h1, h2, h3⟩ := h; unfold State.MemOk; simp (maxDischargeDepth := 30) [h1, h2, h3]
theorem execEndpointFreeTestPass_memOk (a0 : Nat) (a1 : Nat) (a2 : State) (h : a2.MemOk) : (resState a2 (execEndpointFreeTestPass a0 a1 a2)).MemOk := by
  obtain ⟨h1, h2, h3⟩ := h; unfold State.MemOk; simp (maxDischargeDepth := 30) [h1, h2, h3]
theorem execEntryFetch_memOk (a0 : Nat) (a1 : ReadAns) (a2 : State) (h : a2.MemOk) : (resState a2 (execEntryFetch a0 a1 a2)).MemOk := by
  obtain ⟨h1, h2, h3⟩ := h; unfold State.MemOk; simp (maxDischargeDepth := 30) [h1, h2, h3]
theorem execEret_memOk (a0 : Nat) (a1 : Guard) (a2 : State) (h : a2.MemOk) : (resState a2 (execEret a0 a1 a2)).MemOk := by
  obtain ⟨h1, h2, h3⟩ := h; unfold State.MemOk; simp (maxDischargeDepth := 30) [h1, h2, h3]
theorem execErrlogTail_memOk (a0 : Who) (a1 : Nat) (a2 : State) (h : a2.MemOk) : (resState a2 (execErrlogTail a0 a1 a2)).MemOk := by
  obtain ⟨h1, h2, h3⟩ := h; unfold State.MemOk; simp (maxDischargeDepth := 30) [h1, h2, h3]
theorem execErrorReport_memOk (a0 : Nat) (a1 : Nat) (a2 : Nat) (a3 : Option Nat) (a4 : Nat) (a5 : Nat) (a6 : State)
      (h : a6.MemOk) : (resState a6 (execErrorReport a0 a1 a2 a3 a4 a5 a6)).MemOk := by
  obtain ⟨h1, h2, h3⟩ := h; unfold State.MemOk; simp (maxDischargeDepth := 30) [h1, h2, h3]
theorem execEvacuate_memOk (a0 : Nat) (a1 : Nat) (a2 : State) (h : a2.MemOk) : (resState a2 (execEvacuate a0 a1 a2)).MemOk := by
  obtain ⟨h1, h2, h3⟩ := h; unfold State.MemOk; simp (maxDischargeDepth := 30) [h1, h2, h3]
theorem execEvacuationComplete_memOk (a0 : Nat) (a1 : State) (h : a1.MemOk) : (resState a1 (execEvacuationComplete a0 a1)).MemOk := by
  obtain ⟨h1, h2, h3⟩ := h; unfold State.MemOk; simp (maxDischargeDepth := 30) [h1, h2, h3]
theorem execEvacuationFailure_memOk (a0 : Nat) (a1 : Nat) (a2 : State) (h : a2.MemOk) : (resState a2 (execEvacuationFailure a0 a1 a2)).MemOk := by
  obtain ⟨h1, h2, h3⟩ := h; unfold State.MemOk; simp (maxDischargeDepth := 30) [h1, h2, h3]
theorem execExportWindowClose_memOk (a0 : Nat) (a1 : Nat) (a2 : State) (h : a2.MemOk) : (resState a2 (execExportWindowClose a0 a1 a2)).MemOk := by
  obtain ⟨h1, h2, h3⟩ := h; unfold State.MemOk; simp (maxDischargeDepth := 30) [h1, h2, h3]
theorem execExtest_memOk (a0 : State) (h : a0.MemOk) : (resState a0 (execExtest a0)).MemOk := by
  obtain ⟨h1, h2, h3⟩ := h; unfold State.MemOk; simp (maxDischargeDepth := 30) [h1, h2, h3]
theorem execFenceNotice_memOk (a0 : Nat) (a1 : Option Nat) (a2 : State) (h : a2.MemOk) : (resState a2 (execFenceNotice a0 a1 a2)).MemOk := by
  obtain ⟨h1, h2, h3⟩ := h; unfold State.MemOk; simp (maxDischargeDepth := 30) [h1, h2, h3]
theorem execFirmwareUpdate_memOk (a0 : Bool) (a1 : List Byte) (a2 : Bool) (a3 : State)
      (h : a3.MemOk) : (resState a3 (execFirmwareUpdate a0 a1 a2 a3)).MemOk := by
  obtain ⟨h1, h2, h3⟩ := h; unfold State.MemOk; simp (maxDischargeDepth := 30) [h1, h2, h3]
theorem execFlashCommandComplete_memOk (a0 : Bool) (a1 : State) (h : a1.MemOk) : (resState a1 (execFlashCommandComplete a0 a1)).MemOk := by
  obtain ⟨h1, h2, h3⟩ := h; unfold State.MemOk; simp (maxDischargeDepth := 30) [h1, h2, h3]
theorem execFlashErase_memOk (a0 : Who) (a1 : Bool) (a2 : State) (h : a2.MemOk) : (resState a2 (execFlashErase a0 a1 a2)).MemOk := by
  obtain ⟨h1, h2, h3⟩ := h; unfold State.MemOk; simp (maxDischargeDepth := 30) [h1, h2, h3]
theorem execFlashProgram_memOk (a0 : Who) (a1 : Bool) (a2 : State) (h : a2.MemOk) : (resState a2 (execFlashProgram a0 a1 a2)).MemOk := by
  obtain ⟨h1, h2, h3⟩ := h; unfold State.MemOk; simp (maxDischargeDepth := 30) [h1, h2, h3]
theorem execFlashRead_memOk (a0 : Who) (a1 : State) (h : a1.MemOk) : (resState a1 (execFlashRead a0 a1)).MemOk := by
  obtain ⟨h1, h2, h3⟩ := h; unfold State.MemOk; simp (maxDischargeDepth := 30) [h1, h2, h3]
theorem execForcedStop_memOk (a0 : Nat) (a1 : State) (h : a1.MemOk) : (resState a1 (execForcedStop a0 a1)).MemOk := by
  obtain ⟨h1, h2, h3⟩ := h; unfold State.MemOk; simp (maxDischargeDepth := 30) [h1, h2, h3]
theorem execFrameJoinTimeout_memOk (a0 : Nat) (a1 : State) (h : a1.MemOk) : (resState a1 (execFrameJoinTimeout a0 a1)).MemOk := by
  obtain ⟨h1, h2, h3⟩ := h; unfold State.MemOk; simp (maxDischargeDepth := 30) [h1, h2, h3]
theorem execFunctionLevelReset_memOk (a0 : Nat) (a1 : State) (h : a1.MemOk) : (resState a1 (execFunctionLevelReset a0 a1)).MemOk := by
  obtain ⟨h1, h2, h3⟩ := h; unfold State.MemOk; simp (maxDischargeDepth := 30) [h1, h2, h3]
theorem execFuseProg_memOk (a0 : Who) (a1 : Nat) (a2 : Nat) (a3 : Nat) (a4 : State)
      (h : a4.MemOk) : (resState a4 (execFuseProg a0 a1 a2 a3 a4)).MemOk := by
  obtain ⟨h1, h2, h3⟩ := h; unfold State.MemOk; simp (maxDischargeDepth := 30) [h1, h2, h3]
theorem execFuseProgramComplete_memOk (a0 : State) (h : a0.MemOk) : (resState a0 (execFuseProgramComplete a0)).MemOk := by
  obtain ⟨h1, h2, h3⟩ := h; unfold State.MemOk; simp (maxDischargeDepth := 30) [h1, h2, h3]
theorem execGather_memOk (a0 : Nat) (a1 : State) (h : a1.MemOk) : (resState a1 (execGather a0 a1)).MemOk := by
  obtain ⟨h1, h2, h3⟩ := h; unfold State.MemOk; simp (maxDischargeDepth := 30) [h1, h2, h3]
theorem execGetAcct_memOk (a0 : Bool) (a1 : Nat) (a2 : State) (h : a2.MemOk) : (resState a2 (execGetAcct a0 a1 a2)).MemOk := by
  obtain ⟨h1, h2, h3⟩ := h; unfold State.MemOk; simp (maxDischargeDepth := 30) [h1, h2, h3]
theorem execGetLc_memOk (a0 : Bool) (a1 : State) (h : a1.MemOk) : (resState a1 (execGetLc a0 a1)).MemOk := by
  obtain ⟨h1, h2, h3⟩ := h; unfold State.MemOk; simp (maxDischargeDepth := 30) [h1, h2, h3]
theorem execGetLog_memOk (a0 : Bool) (a1 : State) (h : a1.MemOk) : (resState a1 (execGetLog a0 a1)).MemOk := by
  obtain ⟨h1, h2, h3⟩ := h; unfold State.MemOk; simp (maxDischargeDepth := 30) [h1, h2, h3]
theorem execGrow_memOk (a0 : Nat) (a1 : Nat) (a2 : Nat) (a3 : State) (h : a3.MemOk) : (resState a3 (execGrow a0 a1 a2 a3)).MemOk := by
  obtain ⟨h1, h2, h3⟩ := h; unfold State.MemOk; simp (maxDischargeDepth := 30) [h1, h2, h3]
theorem execGtcAlarm_memOk (a0 : State) (h : a0.MemOk) : (resState a0 (execGtcAlarm a0)).MemOk := by
  obtain ⟨h1, h2, h3⟩ := h; unfold State.MemOk; simp (maxDischargeDepth := 30) [h1, h2, h3]
theorem execHalt_memOk (a0 : Nat) (a1 : Guard) (a2 : State) (h : a2.MemOk) : (resState a2 (execHalt a0 a1 a2)).MemOk := by
  obtain ⟨h1, h2, h3⟩ := h; unfold State.MemOk; simp (maxDischargeDepth := 30) [h1, h2, h3]
theorem execHandover_memOk (a0 : State) (h : a0.MemOk) : (resState a0 (execHandover a0)).MemOk := by
  obtain ⟨h1, h2, h3⟩ := h; unfold State.MemOk; simp (maxDischargeDepth := 30) [h1, h2, h3]
theorem execHeartbeatLoss_memOk (a0 : State) (h : a0.MemOk) : (resState a0 (execHeartbeatLoss a0)).MemOk := by
  obtain ⟨h1, h2, h3⟩ := h; unfold State.MemOk; simp (maxDischargeDepth := 30) [h1, h2, h3]
theorem execHello_memOk (a0 : Nat) (a1 : State) (h : a1.MemOk) : (resState a1 (execHello a0 a1)).MemOk := by
  obtain ⟨h1, h2, h3⟩ := h; unfold State.MemOk; simp (maxDischargeDepth := 30) [h1, h2, h3]
theorem execHelloTimeout_memOk (a0 : Nat) (a1 : State) (h : a1.MemOk) : (resState a1 (execHelloTimeout a0 a1)).MemOk := by
  obtain ⟨h1, h2, h3⟩ := h; unfold State.MemOk; simp (maxDischargeDepth := 30) [h1, h2, h3]
theorem execHostLinkDown_memOk (a0 : State) (h : a0.MemOk) : (resState a0 (execHostLinkDown a0)).MemOk := by
  obtain ⟨h1, h2, h3⟩ := h; unfold State.MemOk; simp (maxDischargeDepth := 30) [h1, h2, h3]
theorem execHostLinkUp_memOk (a0 : Nat) (a1 : Nat) (a2 : State) (h : a2.MemOk) : (resState a2 (execHostLinkUp a0 a1 a2)).MemOk := by
  obtain ⟨h1, h2, h3⟩ := h; unfold State.MemOk; simp (maxDischargeDepth := 30) [h1, h2, h3]
theorem execHostNop_memOk (a0 : Nat) (a1 : State) (h : a1.MemOk) : (resState a1 (execHostNop a0 a1)).MemOk := by
  obtain ⟨h1, h2, h3⟩ := h; unfold State.MemOk; simp (maxDischargeDepth := 30) [h1, h2, h3]
theorem execHostReadCompletion_memOk (a0 : Nat) (a1 : Nat) (a2 : Nat) (a3 : ReadAns) (a4 : State)
      (h : a4.MemOk) : (resState a4 (execHostReadCompletion a0 a1 a2 a3 a4)).MemOk := by
  obtain ⟨h1, h2, h3⟩ := h; unfold State.MemOk; simp (maxDischargeDepth := 30) [h1, h2, h3]
theorem execHostSadd_memOk (a0 : Nat) (a1 : Nat) (a2 : State) (h : a2.MemOk) : (resState a2 (execHostSadd a0 a1 a2)).MemOk := by
  obtain ⟨h1, h2, h3⟩ := h; unfold State.MemOk; simp (maxDischargeDepth := 30) [h1, h2, h3]
theorem execHotReset_memOk (a0 : State) (h : a0.MemOk) : (resState a0 (execHotReset a0)).MemOk := by
  obtain ⟨h1, h2, h3⟩ := h; unfold State.MemOk; simp (maxDischargeDepth := 30) [h1, h2, h3]
theorem execIbins_memOk (a0 : Nat) (a1 : Guard) (a2 : BitVec 2) (a3 : BitVec 6) (a4 : BitVec 6) (a5 : Reg) (a6 : State)
      (h : a6.MemOk) : (resState a6 (execIbins a0 a1 a2 a3 a4 a5 a6)).MemOk := by
  obtain ⟨h1, h2, h3⟩ := h; unfold State.MemOk; simp (maxDischargeDepth := 30) [h1, h2, h3]
theorem execInterruptTaken_memOk (a0 : Nat) (a1 : Boundary) (a2 : State) (h : a2.MemOk) : (resState a2 (execInterruptTaken a0 a1 a2)).MemOk := by
  obtain ⟨h1, h2, h3⟩ := h; unfold State.MemOk; simp (maxDischargeDepth := 30) [h1, h2, h3]
theorem execIrqClaim_memOk (a0 : Nat) (a1 : Bool) (a2 : State) (h : a2.MemOk) : (resState a2 (execIrqClaim a0 a1 a2)).MemOk := by
  obtain ⟨h1, h2, h3⟩ := h; unfold State.MemOk; simp (maxDischargeDepth := 30) [h1, h2, h3]
theorem execIrqComplete_memOk (a0 : Who) (a1 : Nat) (a2 : Nat) (a3 : State) (h : a3.MemOk) : (resState a3 (execIrqComplete a0 a1 a2 a3)).MemOk := by
  obtain ⟨h1, h2, h3⟩ := h; unfold State.MemOk; simp (maxDischargeDepth := 30) [h1, h2, h3]
theorem execIrqEvent_memOk (a0 : Nat) (a1 : State) (h : a1.MemOk) : (resState a1 (execIrqEvent a0 a1)).MemOk := by
  obtain ⟨h1, h2, h3⟩ := h; unfold State.MemOk; simp (maxDischargeDepth := 30) [h1, h2, h3]
theorem execIssue_memOk (a0 : Nat) (a1 : Guard) (a2 : BitVec 4) (a3 : Bool) (a4 : Reg) (a5 : BitVec 3) (a6 : BitVec 7) (a7 : State)
      (h : a7.MemOk) : (resState a7 (execIssue a0 a1 a2 a3 a4 a5 a6 a7)).MemOk := by
  obtain ⟨h1, h2, h3⟩ := h; unfold State.MemOk; simp (maxDischargeDepth := 30) [h1, h2, h3]
theorem execIssueB_memOk (a0 : Nat) (a1 : Guard) (a2 : BitVec 4) (a3 : Bool) (a4 : BitVec 3) (a5 : State)
      (h : a5.MemOk) : (resState a5 (execIssueB a0 a1 a2 a3 a4 a5)).MemOk := by
  obtain ⟨h1, h2, h3⟩ := h; unfold State.MemOk; simp (maxDischargeDepth := 30) [h1, h2, h3]
theorem execIssueReserve_memOk (a0 : Nat) (a1 : State) (h : a1.MemOk) : (resState a1 (execIssueReserve a0 a1)).MemOk := by
  obtain ⟨h1, h2, h3⟩ := h; unfold State.MemOk; simp (maxDischargeDepth := 30) [h1, h2, h3]
theorem execJalr_memOk (a0 : Nat) (a1 : Guard) (a2 : Reg) (a3 : Reg) (a4 : BitVec 10) (a5 : State)
      (h : a5.MemOk) : (resState a5 (execJalr a0 a1 a2 a3 a4 a5)).MemOk := by
  obtain ⟨h1, h2, h3⟩ := h; unfold State.MemOk; simp (maxDischargeDepth := 30) [h1, h2, h3]
theorem execJr_memOk (a0 : Nat) (a1 : Guard) (a2 : Reg) (a3 : BitVec 10) (a4 : State) (h : a4.MemOk) : (resState a4 (execJr a0 a1 a2 a3 a4)).MemOk := by
  obtain ⟨h1, h2, h3⟩ := h; unfold State.MemOk; simp (maxDischargeDepth := 30) [h1, h2, h3]
theorem execKill_memOk (a0 : Nat) (a1 : Nat) (a2 : State) (h : a2.MemOk) : (resState a2 (execKill a0 a1 a2)).MemOk := by
  obtain ⟨h1, h2, h3⟩ := h; unfold State.MemOk; simp (maxDischargeDepth := 30) [h1, h2, h3]
theorem execKvcopy_memOk (a0 : Nat) (a1 : State) (h : a1.MemOk) : (resState a1 (execKvcopy a0 a1)).MemOk := by
  obtain ⟨h1, h2, h3⟩ := h; unfold State.MemOk; simp (maxDischargeDepth := 30) [h1, h2, h3]
theorem execLamb_memOk (a0 : Nat) (a1 : State) (h : a1.MemOk) : (resState a1 (execLamb a0 a1)).MemOk := by
  obtain ⟨h1, h2, h3⟩ := h; unfold State.MemOk; simp (maxDischargeDepth := 30) [h1, h2, h3]
theorem execLandingAck_memOk (a0 : Nat) (a1 : Nat) (a2 : ChMsg) (a3 : State) (h : a3.MemOk) : (resState a3 (execLandingAck a0 a1 a2 a3)).MemOk := by
  obtain ⟨h1, h2, h3⟩ := h; unfold State.MemOk; simp (maxDischargeDepth := 30) [h1, h2, h3]
theorem execLaunchTick_memOk (a0 : Nat) (a1 : State) (h : a1.MemOk) : (resState a1 (execLaunchTick a0 a1)).MemOk := by
  obtain ⟨h1, h2, h3⟩ := h; unfold State.MemOk; simp (maxDischargeDepth := 30) [h1, h2, h3]
theorem execLcReq_memOk (a0 : Bool) (a1 : Nat) (a2 : List Byte) (a3 : State) (h : a3.MemOk) : (resState a3 (execLcReq a0 a1 a2 a3)).MemOk := by
  obtain ⟨h1, h2, h3⟩ := h; unfold State.MemOk; simp (maxDischargeDepth := 30) [h1, h2, h3]
theorem execLdB_memOk (a0 : Nat) (a1 : Guard) (a2 : Reg) (a3 : Reg) (a4 : BitVec 10) (a5 : State)
      (h : a5.MemOk) : (resState a5 (execLdB a0 a1 a2 a3 a4 a5)).MemOk := by
  obtain ⟨h1, h2, h3⟩ := h; unfold State.MemOk; simp (maxDischargeDepth := 30) [h1, h2, h3]
theorem execLdBu_memOk (a0 : Nat) (a1 : Guard) (a2 : Reg) (a3 : Reg) (a4 : BitVec 10) (a5 : State)
      (h : a5.MemOk) : (resState a5 (execLdBu a0 a1 a2 a3 a4 a5)).MemOk := by
  obtain ⟨h1, h2, h3⟩ := h; unfold State.MemOk; simp (maxDischargeDepth := 30) [h1, h2, h3]
theorem execLdD_memOk (a0 : Nat) (a1 : Guard) (a2 : Reg) (a3 : Reg) (a4 : BitVec 10) (a5 : State)
      (h : a5.MemOk) : (resState a5 (execLdD a0 a1 a2 a3 a4 a5)).MemOk := by
  obtain ⟨h1, h2, h3⟩ := h; unfold State.MemOk; simp (maxDischargeDepth := 30) [h1, h2, h3]
theorem execLdH_memOk (a0 : Nat) (a1 : Guard) (a2 : Reg) (a3 : Reg) (a4 : BitVec 10) (a5 : State)
      (h : a5.MemOk) : (resState a5 (execLdH a0 a1 a2 a3 a4 a5)).MemOk := by
  obtain ⟨h1, h2, h3⟩ := h; unfold State.MemOk; simp (maxDischargeDepth := 30) [h1, h2, h3]
theorem execLdHu_memOk (a0 : Nat) (a1 : Guard) (a2 : Reg) (a3 : Reg) (a4 : BitVec 10) (a5 : State)
      (h : a5.MemOk) : (resState a5 (execLdHu a0 a1 a2 a3 a4 a5)).MemOk := by
  obtain ⟨h1, h2, h3⟩ := h; unfold State.MemOk; simp (maxDischargeDepth := 30) [h1, h2, h3]
theorem execLdW_memOk (a0 : Nat) (a1 : Guard) (a2 : Reg) (a3 : Reg) (a4 : BitVec 10) (a5 : State)
      (h : a5.MemOk) : (resState a5 (execLdW a0 a1 a2 a3 a4 a5)).MemOk := by
  obtain ⟨h1, h2, h3⟩ := h; unfold State.MemOk; simp (maxDischargeDepth := 30) [h1, h2, h3]
theorem execLdWu_memOk (a0 : Nat) (a1 : Guard) (a2 : Reg) (a3 : Reg) (a4 : BitVec 10) (a5 : State)
      (h : a5.MemOk) : (resState a5 (execLdWu a0 a1 a2 a3 a4 a5)).MemOk := by
  obtain ⟨h1, h2, h3⟩ := h; unfold State.MemOk; simp (maxDischargeDepth := 30) [h1, h2, h3]
theorem execLdd_memOk (a0 : Nat) (a1 : Nat) (a2 : State) (h : a2.MemOk) : (resState a2 (execLdd a0 a1 a2)).MemOk := by
  obtain ⟨h1, h2, h3⟩ := h; unfold State.MemOk; simp (maxDischargeDepth := 30) [h1, h2, h3]
theorem execLdrD_memOk (a0 : Nat) (a1 : Guard) (a2 : Reg) (a3 : Reg) (a4 : BitVec 10) (a5 : State)
      (h : a5.MemOk) : (resState a5 (execLdrD a0 a1 a2 a3 a4 a5)).MemOk := by
  obtain ⟨h1, h2, h3⟩ := h; unfold State.MemOk; simp (maxDischargeDepth := 30) [h1, h2, h3]
theorem execLdrReturn_memOk (a0 : Nat) (a1 : Answer) (a2 : State) (h : a2.MemOk) : (resState a2 (execLdrReturn a0 a1 a2)).MemOk := by
  obtain ⟨h1, h2, h3⟩ := h; unfold State.MemOk; simp (maxDischargeDepth := 30) [h1, h2, h3]
theorem execLdrW_memOk (a0 : Nat) (a1 : Guard) (a2 : Reg) (a3 : Reg) (a4 : BitVec 10) (a5 : State)
      (h : a5.MemOk) : (resState a5 (execLdrW a0 a1 a2 a3 a4 a5)).MemOk := by
  obtain ⟨h1, h2, h3⟩ := h; unfold State.MemOk; simp (maxDischargeDepth := 30) [h1, h2, h3]
theorem execLi_memOk (a0 : Nat) (a1 : Guard) (a2 : Reg) (a3 : BitVec 15) (a4 : State) (h : a4.MemOk) : (resState a4 (execLi a0 a1 a2 a3 a4)).MemOk := by
  obtain ⟨h1, h2, h3⟩ := h; unfold State.MemOk; simp (maxDischargeDepth := 30) [h1, h2, h3]
theorem execLifecycleRequest_memOk (a0 : Who) (a1 : Nat) (a2 : Nat) (a3 : State)
      (h : a3.MemOk) : (resState a3 (execLifecycleRequest a0 a1 a2 a3)).MemOk := by
  obtain ⟨h1, h2, h3⟩ := h; unfold State.MemOk; simp (maxDischargeDepth := 30) [h1, h2, h3]
theorem execLifecycleStrapSample_memOk (a0 : State) (h : a0.MemOk) : (resState a0 (execLifecycleStrapSample a0)).MemOk := by
  obtain ⟨h1, h2, h3⟩ := h; unfold State.MemOk; simp (maxDischargeDepth := 30) [h1, h2, h3]
theorem execLinkDownFrame_memOk (a0 : Nat) (a1 : State) (h : a1.MemOk) : (resState a1 (execLinkDownFrame a0 a1)).MemOk := by
  obtain ⟨h1, h2, h3⟩ := h; unfold State.MemOk; simp (maxDischargeDepth := 30) [h1, h2, h3]
theorem execLoadCheckComplete_memOk (a0 : Nat) (a1 : State) (h : a1.MemOk) : (resState a1 (execLoadCheckComplete a0 a1)).MemOk := by
  obtain ⟨h1, h2, h3⟩ := h; unfold State.MemOk; simp (maxDischargeDepth := 30) [h1, h2, h3]
theorem execLoadFinish_memOk (a0 : Nat) (a1 : State) (h : a1.MemOk) : (resState a1 (execLoadFinish a0 a1)).MemOk := by
  obtain ⟨h1, h2, h3⟩ := h; unfold State.MemOk; simp (maxDischargeDepth := 30) [h1, h2, h3]
theorem execLoadFrameFetch_memOk (a0 : Nat) (a1 : Nat) (a2 : List Byte) (a3 : List Nat) (a4 : State)
      (h : a4.MemOk) : (resState a4 (execLoadFrameFetch a0 a1 a2 a3 a4)).MemOk := by
  obtain ⟨h1, h2, h3⟩ := h; unfold State.MemOk; simp (maxDischargeDepth := 30) [h1, h2, h3]
theorem execLoadWriteComplete_memOk (a0 : Nat) (a1 : State) (h : a1.MemOk) : (resState a1 (execLoadWriteComplete a0 a1)).MemOk := by
  obtain ⟨h1, h2, h3⟩ := h; unfold State.MemOk; simp (maxDischargeDepth := 30) [h1, h2, h3]
theorem execLoop_memOk (a0 : Nat) (a1 : Nat) (a2 : State) (h : a2.MemOk) : (resState a2 (execLoop a0 a1 a2)).MemOk := by
  obtain ⟨h1, h2, h3⟩ := h; unfold State.MemOk; simp (maxDischargeDepth := 30) [h1, h2, h3]
theorem execLoopm_memOk (a0 : Nat) (a1 : Nat) (a2 : State) (h : a2.MemOk) : (resState a2 (execLoopm a0 a1 a2)).MemOk := by
  obtain ⟨h1, h2, h3⟩ := h; unfold State.MemOk; simp (maxDischargeDepth := 30) [h1, h2, h3]
theorem execLossOfSignal_memOk (a0 : Nat) (a1 : State) (h : a1.MemOk) : (resState a1 (execLossOfSignal a0 a1)).MemOk := by
  obtain ⟨h1, h2, h3⟩ := h; unfold State.MemOk; simp (maxDischargeDepth := 30) [h1, h2, h3]
theorem execLsi_memOk (a0 : Nat) (a1 : Guard) (a2 : Reg) (a3 : BitVec 15) (a4 : State)
      (h : a4.MemOk) : (resState a4 (execLsi a0 a1 a2 a3 a4)).MemOk := by
  obtain ⟨h1, h2, h3⟩ := h; unfold State.MemOk; simp (maxDischargeDepth := 30) [h1, h2, h3]
theorem execMack_memOk (a0 : State) (h : a0.MemOk) : (resState a0 (execMack a0)).MemOk := by
  obtain ⟨h1, h2, h3⟩ := h; unfold State.MemOk; simp (maxDischargeDepth := 30) [h1, h2, h3]
theorem execMailboxAnswer_memOk (a0 : Nat) (a1 : ChMsg) (a2 : State) (h : a2.MemOk) : (resState a2 (execMailboxAnswer a0 a1 a2)).MemOk := by
  obtain ⟨h1, h2, h3⟩ := h; unfold State.MemOk; simp (maxDischargeDepth := 30) [h1, h2, h3]
theorem execMailboxClear_memOk (a0 : Nat) (a1 : Nat) (a2 : State) (h : a2.MemOk) : (resState a2 (execMailboxClear a0 a1 a2)).MemOk := by
  obtain ⟨h1, h2, h3⟩ := h; unfold State.MemOk; simp (maxDischargeDepth := 30) [h1, h2, h3]
theorem execMailboxMessage_memOk (a0 : Nat) (a1 : ChMsg) (a2 : State) (h : a2.MemOk) : (resState a2 (execMailboxMessage a0 a1 a2)).MemOk := by
  obtain ⟨h1, h2, h3⟩ := h; unfold State.MemOk; simp (maxDischargeDepth := 30) [h1, h2, h3]
theorem execMatRingTestPass_memOk (a0 : Nat) (a1 : State) (h : a1.MemOk) : (resState a1 (execMatRingTestPass a0 a1)).MemOk := by
  obtain ⟨h1, h2, h3⟩ := h; unfold State.MemOk; simp (maxDischargeDepth := 30) [h1, h2, h3]
theorem execMatmul_memOk (a0 : Nat) (a1 : State) (h : a1.MemOk) : (resState a1 (execMatmul a0 a1)).MemOk := by
  obtain ⟨h1, h2, h3⟩ := h; unfold State.MemOk; simp (maxDischargeDepth := 30) [h1, h2, h3]
theorem execMatmulComplete_memOk (a0 : Nat) (a1 : State) (h : a1.MemOk) : (resState a1 (execMatmulComplete a0 a1)).MemOk := by
  obtain ⟨h1, h2, h3⟩ := h; unfold State.MemOk; simp (maxDischargeDepth := 30) [h1, h2, h3]
theorem execMatmulSp_memOk (a0 : Nat) (a1 : State) (h : a1.MemOk) : (resState a1 (execMatmulSp a0 a1)).MemOk := by
  obtain ⟨h1, h2, h3⟩ := h; unfold State.MemOk; simp (maxDischargeDepth := 30) [h1, h2, h3]
theorem execMax_memOk (a0 : Nat) (a1 : Guard) (a2 : Reg) (a3 : Reg) (a4 : Reg) (a5 : State)
      (h : a5.MemOk) : (resState a5 (execMax a0 a1 a2 a3 a4 a5)).MemOk := by
  obtain ⟨h1, h2, h3⟩ := h; unfold State.MemOk; simp (maxDischargeDepth := 30) [h1, h2, h3]
theorem execMaxu_memOk (a0 : Nat) (a1 : Guard) (a2 : Reg) (a3 : Reg) (a4 : Reg) (a5 : State)
      (h : a5.MemOk) : (resState a5 (execMaxu a0 a1 a2 a3 a4 a5)).MemOk := by
  obtain ⟨h1, h2, h3⟩ := h; unfold State.MemOk; simp (maxDischargeDepth := 30) [h1, h2, h3]
theorem execMclr_memOk (a0 : Nat) (a1 : Guard) (a2 : Reg) (a3 : BitVec 10) (a4 : State)
      (h : a4.MemOk) : (resState a4 (execMclr a0 a1 a2 a3 a4)).MemOk := by
  obtain ⟨h1, h2, h3⟩ := h; unfold State.MemOk; simp (maxDischargeDepth := 30) [h1, h2, h3]
theorem execMctpReset_memOk (a0 : Bool) (a1 : State) (h : a1.MemOk) : (resState a1 (execMctpReset a0 a1)).MemOk := by
  obtain ⟨h1, h2, h3⟩ := h; unfold State.MemOk; simp (maxDischargeDepth := 30) [h1, h2, h3]
theorem execMemoryWindowRead_memOk (a0 : Nat) (a1 : Nat) (a2 : Nat) (a3 : State)
      (h : a3.MemOk) : (resState a3 (execMemoryWindowRead a0 a1 a2 a3)).MemOk := by
  obtain ⟨h1, h2, h3⟩ := h; unfold State.MemOk; simp (maxDischargeDepth := 30) [h1, h2, h3]
theorem execMemoryWindowWrite_memOk (a0 : Nat) (a1 : Nat) (a2 : List Byte) (a3 : Bool) (a4 : State)
      (h : a4.MemOk) : (resState a4 (execMemoryWindowWrite a0 a1 a2 a3 a4)).MemOk := by
  obtain ⟨h1, h2, h3⟩ := h; unfold State.MemOk; simp (maxDischargeDepth := 30) [h1, h2, h3]
theorem execMeshPacketRoute_memOk (a0 : Nat) (a1 : Nat) (a2 : Nat) (a3 : List Byte) (a4 : NetMarks) (a5 : State)
      (h : a5.MemOk) : (resState a5 (execMeshPacketRoute a0 a1 a2 a3 a4 a5)).MemOk := by
  obtain ⟨h1, h2, h3⟩ := h; unfold State.MemOk; simp (maxDischargeDepth := 30) [h1, h2, h3]
theorem execMfence_memOk (a0 : Nat) (a1 : Guard) (a2 : State) (h : a2.MemOk) : (resState a2 (execMfence a0 a1 a2)).MemOk := by
  obtain ⟨h1, h2, h3⟩ := h; unfold State.MemOk; simp (maxDischargeDepth := 30) [h1, h2, h3]
theorem execMfenceComplete_memOk (a0 : Nat) (a1 : State) (h : a1.MemOk) : (resState a1 (execMfenceComplete a0 a1)).MemOk := by
  obtain ⟨h1, h2, h3⟩ := h; unfold State.MemOk; simp (maxDischargeDepth := 30) [h1, h2, h3]
theorem execMfs_memOk (a0 : Nat) (a1 : Guard) (a2 : Reg) (a3 : BitVec 10) (a4 : State)
      (h : a4.MemOk) : (resState a4 (execMfs a0 a1 a2 a3 a4)).MemOk := by
  obtain ⟨h1, h2, h3⟩ := h; unfold State.MemOk; simp (maxDischargeDepth := 30) [h1, h2, h3]
theorem execMin_memOk (a0 : Nat) (a1 : Guard) (a2 : Reg) (a3 : Reg) (a4 : Reg) (a5 : State)
      (h : a5.MemOk) : (resState a5 (execMin a0 a1 a2 a3 a4 a5)).MemOk := by
  obtain ⟨h1, h2, h3⟩ := h; unfold State.MemOk; simp (maxDischargeDepth := 30) [h1, h2, h3]
theorem execMinu_memOk (a0 : Nat) (a1 : Guard) (a2 : Reg) (a3 : Reg) (a4 : Reg) (a5 : State)
      (h : a5.MemOk) : (resState a5 (execMinu a0 a1 a2 a3 a4 a5)).MemOk := by
  obtain ⟨h1, h2, h3⟩ := h; unfold State.MemOk; simp (maxDischargeDepth := 30) [h1, h2, h3]
theorem execModuleStart_memOk (a0 : Nat) (a1 : Nat) (a2 : Nat) (a3 : State) (h : a3.MemOk) : (resState a3 (execModuleStart a0 a1 a2 a3)).MemOk := by
  obtain ⟨h1, h2, h3⟩ := h; unfold State.MemOk; simp (maxDischargeDepth := 30) [h1, h2, h3]
theorem execModuleStop_memOk (a0 : Nat) (a1 : Bool) (a2 : Nat) (a3 : State) (h : a3.MemOk) : (resState a3 (execModuleStop a0 a1 a2 a3)).MemOk := by
  obtain ⟨h1, h2, h3⟩ := h; unfold State.MemOk; simp (maxDischargeDepth := 30) [h1, h2, h3]
theorem execMov_memOk (a0 : Nat) (a1 : Nat) (a2 : State) (h : a2.MemOk) : (resState a2 (execMov a0 a1 a2)).MemOk := by
  obtain ⟨h1, h2, h3⟩ := h; unfold State.MemOk; simp (maxDischargeDepth := 30) [h1, h2, h3]
theorem execMrec_memOk (a0 : State) (h : a0.MemOk) : (resState a0 (execMrec a0)).MemOk := by
  obtain ⟨h1, h2, h3⟩ := h; unfold State.MemOk; simp (maxDischargeDepth := 30) [h1, h2, h3]
theorem execMset_memOk (a0 : Nat) (a1 : Guard) (a2 : Reg) (a3 : BitVec 10) (a4 : State)
      (h : a4.MemOk) : (resState a4 (execMset a0 a1 a2 a3 a4)).MemOk := by
  obtain ⟨h1, h2, h3⟩ := h; unfold State.MemOk; simp (maxDischargeDepth := 30) [h1, h2, h3]
theorem execMts_memOk (a0 : Nat) (a1 : Guard) (a2 : Reg) (a3 : BitVec 10) (a4 : State)
      (h : a4.MemOk) : (resState a4 (execMts a0 a1 a2 a3 a4)).MemOk := by
  obtain ⟨h1, h2, h3⟩ := h; unfold State.MemOk; simp (maxDischargeDepth := 30) [h1, h2, h3]
theorem execMul_memOk (a0 : Nat) (a1 : Guard) (a2 : Reg) (a3 : Reg) (a4 : Reg) (a5 : State)
      (h : a5.MemOk) : (resState a5 (execMul a0 a1 a2 a3 a4 a5)).MemOk := by
  obtain ⟨h1, h2, h3⟩ := h; unfold State.MemOk; simp (maxDischargeDepth := 30) [h1, h2, h3]
theorem execMulh_memOk (a0 : Nat) (a1 : Guard) (a2 : Reg) (a3 : Reg) (a4 : Reg) (a5 : State)
      (h : a5.MemOk) : (resState a5 (execMulh a0 a1 a2 a3 a4 a5)).MemOk := by
  obtain ⟨h1, h2, h3⟩ := h; unfold State.MemOk; simp (maxDischargeDepth := 30) [h1, h2, h3]
theorem execMulhu_memOk (a0 : Nat) (a1 : Guard) (a2 : Reg) (a3 : Reg) (a4 : Reg) (a5 : State)
      (h : a5.MemOk) : (resState a5 (execMulhu a0 a1 a2 a3 a4 a5)).MemOk := by
  obtain ⟨h1, h2, h3⟩ := h; unfold State.MemOk; simp (maxDischargeDepth := 30) [h1, h2, h3]
theorem execMwrite_memOk (a0 : State) (h : a0.MemOk) : (resState a0 (execMwrite a0)).MemOk := by
  obtain ⟨h1, h2, h3⟩ := h; unfold State.MemOk; simp (maxDischargeDepth := 30) [h1, h2, h3]
theorem execNop_memOk (a0 : Nat) (a1 : Guard) (a2 : State) (h : a2.MemOk) : (resState a2 (execNop a0 a1 a2)).MemOk := by
  obtain ⟨h1, h2, h3⟩ := h; unfold State.MemOk; simp (maxDischargeDepth := 30) [h1, h2, h3]
theorem execOpenChan_memOk (a0 : Nat) (a1 : State) (h : a1.MemOk) : (resState a1 (execOpenChan a0 a1)).MemOk := by
  obtain ⟨h1, h2, h3⟩ := h; unfold State.MemOk; simp (maxDischargeDepth := 30) [h1, h2, h3]
theorem execOpenPacket_memOk (a0 : Nat) (a1 : ChMsg) (a2 : State) (h : a2.MemOk) : (resState a2 (execOpenPacket a0 a1 a2)).MemOk := by
  obtain ⟨h1, h2, h3⟩ := h; unfold State.MemOk; simp (maxDischargeDepth := 30) [h1, h2, h3]
theorem execOpenTimeout_memOk (a0 : Nat) (a1 : State) (h : a1.MemOk) : (resState a1 (execOpenTimeout a0 a1)).MemOk := by
  obtain ⟨h1, h2, h3⟩ := h; unfold State.MemOk; simp (maxDischargeDepth := 30) [h1, h2, h3]
theorem execOr_memOk (a0 : Nat) (a1 : Guard) (a2 : Reg) (a3 : Reg) (a4 : Reg) (a5 : State)
      (h : a5.MemOk) : (resState a5 (execOr a0 a1 a2 a3 a4 a5)).MemOk := by
  obtain ⟨h1, h2, h3⟩ := h; unfold State.MemOk; simp (maxDischargeDepth := 30) [h1, h2, h3]
theorem execOri_memOk (a0 : Nat) (a1 : Guard) (a2 : Reg) (a3 : Reg) (a4 : BitVec 10) (a5 : State)
      (h : a5.MemOk) : (resState a5 (execOri a0 a1 a2 a3 a4 a5)).MemOk := by
  obtain ⟨h1, h2, h3⟩ := h; unfold State.MemOk; simp (maxDischargeDepth := 30) [h1, h2, h3]
theorem execPage_memOk (a0 : Nat) (a1 : Nat) (a2 : State) (h : a2.MemOk) : (resState a2 (execPage a0 a1 a2)).MemOk := by
  obtain ⟨h1, h2, h3⟩ := h; unfold State.MemOk; simp (maxDischargeDepth := 30) [h1, h2, h3]
theorem execPairActive_memOk (a0 : State) (h : a0.MemOk) : (resState a0 (execPairActive a0)).MemOk := by
  obtain ⟨h1, h2, h3⟩ := h; unfold State.MemOk; simp (maxDischargeDepth := 30) [h1, h2, h3]
theorem execPairMirror_memOk (a0 : State) (h : a0.MemOk) : (resState a0 (execPairMirror a0)).MemOk := by
  obtain ⟨h1, h2, h3⟩ := h; unfold State.MemOk; simp (maxDischargeDepth := 30) [h1, h2, h3]
theorem execPairReceive_memOk (a0 : Nat) (a1 : Option Pair) (a2 : Nat) (a3 : State)
      (h : a3.MemOk) : (resState a3 (execPairReceive a0 a1 a2 a3)).MemOk := by
  obtain ⟨h1, h2, h3⟩ := h; unfold State.MemOk; simp (maxDischargeDepth := 30) [h1, h2, h3]
theorem execPairSend_memOk (a0 : Nat) (a1 : State) (h : a1.MemOk) : (resState a1 (execPairSend a0 a1)).MemOk := by
  obtain ⟨h1, h2, h3⟩ := h; unfold State.MemOk; simp (maxDischargeDepth := 30) [h1, h2, h3]
theorem execPairingTimeout_memOk (a0 : State) (h : a0.MemOk) : (resState a0 (execPairingTimeout a0)).MemOk := by
  obtain ⟨h1, h2, h3⟩ := h; unfold State.MemOk; simp (maxDischargeDepth := 30) [h1, h2, h3]
theorem execPand_memOk (a0 : Nat) (a1 : Guard) (a2 : BitVec 3) (a3 : BitVec 3) (a4 : Bool) (a5 : BitVec 3) (a6 : Bool) (a7 : State)
      (h : a7.MemOk) : (resState a7 (execPand a0 a1 a2 a3 a4 a5 a6 a7)).MemOk := by
  obtain ⟨h1, h2, h3⟩ := h; unfold State.MemOk; simp (maxDischargeDepth := 30) [h1, h2, h3]
theorem execPause_memOk (a0 : Nat) (a1 : Nat) (a2 : State) (h : a2.MemOk) : (resState a2 (execPause a0 a1 a2)).MemOk := by
  obtain ⟨h1, h2, h3⟩ := h; unfold State.MemOk; simp (maxDischargeDepth := 30) [h1, h2, h3]
theorem execPerstAssert_memOk (a0 : State) (h : a0.MemOk) : (resState a0 (execPerstAssert a0)).MemOk := by
  obtain ⟨h1, h2, h3⟩ := h; unfold State.MemOk; simp (maxDischargeDepth := 30) [h1, h2, h3]
theorem execPerstDeassert_memOk (a0 : State) (h : a0.MemOk) : (resState a0 (execPerstDeassert a0)).MemOk := by
  obtain ⟨h1, h2, h3⟩ := h; unfold State.MemOk; simp (maxDischargeDepth := 30) [h1, h2, h3]
theorem execPget_memOk (a0 : Nat) (a1 : Guard) (a2 : Reg) (a3 : State) (h : a3.MemOk) : (resState a3 (execPget a0 a1 a2 a3)).MemOk := by
  obtain ⟨h1, h2, h3⟩ := h; unfold State.MemOk; simp (maxDischargeDepth := 30) [h1, h2, h3]
theorem execPlan_memOk (a0 : Nat) (a1 : State) (h : a1.MemOk) : (resState a1 (execPlan a0 a1)).MemOk := by
  obtain ⟨h1, h2, h3⟩ := h; unfold State.MemOk; simp (maxDischargeDepth := 30) [h1, h2, h3]
theorem execPop_memOk (a0 : Nat) (a1 : Nat) (a2 : State) (h : a2.MemOk) : (resState a2 (execPop a0 a1 a2)).MemOk := by
  obtain ⟨h1, h2, h3⟩ := h; unfold State.MemOk; simp (maxDischargeDepth := 30) [h1, h2, h3]
theorem execPor_memOk (a0 : Nat) (a1 : Guard) (a2 : BitVec 3) (a3 : BitVec 3) (a4 : Bool) (a5 : BitVec 3) (a6 : Bool) (a7 : State)
      (h : a7.MemOk) : (resState a7 (execPor a0 a1 a2 a3 a4 a5 a6 a7)).MemOk := by
  obtain ⟨h1, h2, h3⟩ := h; unfold State.MemOk; simp (maxDischargeDepth := 30) [h1, h2, h3]
theorem execPowerSample_memOk (a0 : Nat) (a1 : Nat) (a2 : Nat) (a3 : State) (h : a3.MemOk) : (resState a3 (execPowerSample a0 a1 a2 a3)).MemOk := by
  obtain ⟨h1, h2, h3⟩ := h; unfold State.MemOk; simp (maxDischargeDepth := 30) [h1, h2, h3]
theorem execProtSeal_memOk (a0 : Who) (a1 : State) (h : a1.MemOk) : (resState a1 (execProtSeal a0 a1)).MemOk := by
  obtain ⟨h1, h2, h3⟩ := h; unfold State.MemOk; simp (maxDischargeDepth := 30) [h1, h2, h3]
theorem execPset_memOk (a0 : Nat) (a1 : Guard) (a2 : Reg) (a3 : State) (h : a3.MemOk) : (resState a3 (execPset a0 a1 a2 a3)).MemOk := by
  obtain ⟨h1, h2, h3⟩ := h; unfold State.MemOk; simp (maxDischargeDepth := 30) [h1, h2, h3]
theorem execPush_memOk (a0 : Nat) (a1 : Nat) (a2 : State) (h : a2.MemOk) : (resState a2 (execPush a0 a1 a2)).MemOk := by
  obtain ⟨h1, h2, h3⟩ := h; unfold State.MemOk; simp (maxDischargeDepth := 30) [h1, h2, h3]
theorem execPxor_memOk (a0 : Nat) (a1 : Guard) (a2 : BitVec 3) (a3 : BitVec 3) (a4 : Bool) (a5 : BitVec 3) (a6 : Bool) (a7 : State)
      (h : a7.MemOk) : (resState a7 (execPxor a0 a1 a2 a3 a4 a5 a6 a7)).MemOk := by
  obtain ⟨h1, h2, h3⟩ := h; unfold State.MemOk; simp (maxDischargeDepth := 30) [h1, h2, h3]
theorem execQctlDrop_memOk (a0 : Nat) (a1 : Nat) (a2 : State) (h : a2.MemOk) : (resState a2 (execQctlDrop a0 a1 a2)).MemOk := by
  obtain ⟨h1, h2, h3⟩ := h; unfold State.MemOk; simp (maxDischargeDepth := 30) [h1, h2, h3]
theorem execQctlRetry_memOk (a0 : Nat) (a1 : Nat) (a2 : State) (h : a2.MemOk) : (resState a2 (execQctlRetry a0 a1 a2)).MemOk := by
  obtain ⟨h1, h2, h3⟩ := h; unfold State.MemOk; simp (maxDischargeDepth := 30) [h1, h2, h3]
theorem execQwait_memOk (a0 : Nat) (a1 : Guard) (a2 : Bool) (a3 : BitVec 3) (a4 : BitVec 7) (a5 : State)
      (h : a5.MemOk) : (resState a5 (execQwait a0 a1 a2 a3 a4 a5)).MemOk := by
  obtain ⟨h1, h2, h3⟩ := h; unfold State.MemOk; simp (maxDischargeDepth := 30) [h1, h2, h3]
theorem execQwaitRetire_memOk (a0 : Nat) (a1 : State) (h : a1.MemOk) : (resState a1 (execQwaitRetire a0 a1)).MemOk := by
  obtain ⟨h1, h2, h3⟩ := h; unfold State.MemOk; simp (maxDischargeDepth := 30) [h1, h2, h3]
theorem execRack_memOk (a0 : Nat) (a1 : State) (h : a1.MemOk) : (resState a1 (execRack a0 a1)).MemOk := by
  obtain ⟨h1, h2, h3⟩ := h; unfold State.MemOk; simp (maxDischargeDepth := 30) [h1, h2, h3]
theorem execRdata_memOk (a0 : Nat) (a1 : State) (h : a1.MemOk) : (resState a1 (execRdata a0 a1)).MemOk := by
  obtain ⟨h1, h2, h3⟩ := h; unfold State.MemOk; simp (maxDischargeDepth := 30) [h1, h2, h3]
theorem execRdone_memOk (a0 : Nat) (a1 : Nat) (a2 : State) (h : a2.MemOk) : (resState a2 (execRdone a0 a1 a2)).MemOk := by
  obtain ⟨h1, h2, h3⟩ := h; unfold State.MemOk; simp (maxDischargeDepth := 30) [h1, h2, h3]
theorem execReadModifyWriteAck_memOk (a0 : Nat) (a1 : State) (h : a1.MemOk) : (resState a1 (execReadModifyWriteAck a0 a1)).MemOk := by
  obtain ⟨h1, h2, h3⟩ := h; unfold State.MemOk; simp (maxDischargeDepth := 30) [h1, h2, h3]
theorem execReclaim_memOk (a0 : Nat) (a1 : Nat) (a2 : State) (h : a2.MemOk) : (resState a2 (execReclaim a0 a1 a2)).MemOk := by
  obtain ⟨h1, h2, h3⟩ := h; unfold State.MemOk; simp (maxDischargeDepth := 30) [h1, h2, h3]
theorem execReclaimDeadline_memOk (a0 : Nat) (a1 : State) (h : a1.MemOk) : (resState a1 (execReclaimDeadline a0 a1)).MemOk := by
  obtain ⟨h1, h2, h3⟩ := h; unfold State.MemOk; simp (maxDischargeDepth := 30) [h1, h2, h3]
theorem execReduce_memOk (a0 : Nat) (a1 : State) (h : a1.MemOk) : (resState a1 (execReduce a0 a1)).MemOk := by
  obtain ⟨h1, h2, h3⟩ := h; unfold State.MemOk; simp (maxDischargeDepth := 30) [h1, h2, h3]
theorem execReduceComplete_memOk (a0 : Nat) (a1 : State) (h : a1.MemOk) : (resState a1 (execReduceComplete a0 a1)).MemOk := by
  obtain ⟨h1, h2, h3⟩ := h; unfold State.MemOk; simp (maxDischargeDepth := 30) [h1, h2, h3]
theorem execRefreshSlot_memOk (a0 : Nat) (a1 : State) (h : a1.MemOk) : (resState a1 (execRefreshSlot a0 a1)).MemOk := by
  obtain ⟨h1, h2, h3⟩ := h; unfold State.MemOk; simp (maxDischargeDepth := 30) [h1, h2, h3]
theorem execRefuse_memOk (a0 : Nat) (a1 : State) (h : a1.MemOk) : (resState a1 (execRefuse a0 a1)).MemOk := by
  obtain ⟨h1, h2, h3⟩ := h; unfold State.MemOk; simp (maxDischargeDepth := 30) [h1, h2, h3]
theorem execReject_memOk (a0 : Nat) (a1 : Nat) (a2 : ChMsg) (a3 : State) (h : a3.MemOk) : (resState a3 (execReject a0 a1 a2 a3)).MemOk := by
  obtain ⟨h1, h2, h3⟩ := h; unfold State.MemOk; simp (maxDischargeDepth := 30) [h1, h2, h3]
theorem execReleaseCycle_memOk (a0 : Nat) (a1 : Nat) (a2 : State) (h : a2.MemOk) : (resState a2 (execReleaseCycle a0 a1 a2)).MemOk := by
  obtain ⟨h1, h2, h3⟩ := h; unfold State.MemOk; simp (maxDischargeDepth := 30) [h1, h2, h3]
theorem execReleaseJob_memOk (a0 : Nat) (a1 : Nat) (a2 : State) (h : a2.MemOk) : (resState a2 (execReleaseJob a0 a1 a2)).MemOk := by
  obtain ⟨h1, h2, h3⟩ := h; unfold State.MemOk; simp (maxDischargeDepth := 30) [h1, h2, h3]
theorem execReleaseWipeComplete_memOk (a0 : Nat) (a1 : State) (h : a1.MemOk) : (resState a1 (execReleaseWipeComplete a0 a1)).MemOk := by
  obtain ⟨h1, h2, h3⟩ := h; unfold State.MemOk; simp (maxDischargeDepth := 30) [h1, h2, h3]
theorem execRem_memOk (a0 : Nat) (a1 : Guard) (a2 : Reg) (a3 : Reg) (a4 : Reg) (a5 : State)
      (h : a5.MemOk) : (resState a5 (execRem a0 a1 a2 a3 a4 a5)).MemOk := by
  obtain ⟨h1, h2, h3⟩ := h; unfold State.MemOk; simp (maxDischargeDepth := 30) [h1, h2, h3]
theorem execRemu_memOk (a0 : Nat) (a1 : Guard) (a2 : Reg) (a3 : Reg) (a4 : Reg) (a5 : State)
      (h : a5.MemOk) : (resState a5 (execRemu a0 a1 a2 a3 a4 a5)).MemOk := by
  obtain ⟨h1, h2, h3⟩ := h; unfold State.MemOk; simp (maxDischargeDepth := 30) [h1, h2, h3]
theorem execRequestTimeout_memOk (a0 : Nat) (a1 : State) (h : a1.MemOk) : (resState a1 (execRequestTimeout a0 a1)).MemOk := by
  obtain ⟨h1, h2, h3⟩ := h; unfold State.MemOk; simp (maxDischargeDepth := 30) [h1, h2, h3]
theorem execReservedMop_memOk (a0 : Nat) (a1 : Nat) (a2 : State) (h : a2.MemOk) : (resState a2 (execReservedMop a0 a1 a2)).MemOk := by
  obtain ⟨h1, h2, h3⟩ := h; unfold State.MemOk; simp (maxDischargeDepth := 30) [h1, h2, h3]
theorem execResetCold_memOk (a0 : Who) (a1 : Nat) (a2 : State) (h : a2.MemOk) : (resState a2 (execResetCold a0 a1 a2)).MemOk := by
  obtain ⟨h1, h2, h3⟩ := h; unfold State.MemOk; simp (maxDischargeDepth := 30) [h1, h2, h3]
theorem execResetWarm_memOk (a0 : Who) (a1 : Nat) (a2 : State) (h : a2.MemOk) : (resState a2 (execResetWarm a0 a1 a2)).MemOk := by
  obtain ⟨h1, h2, h3⟩ := h; unfold State.MemOk; simp (maxDischargeDepth := 30) [h1, h2, h3]
theorem execResetWipeComplete_memOk (a0 : State) (h : a0.MemOk) : (resState a0 (execResetWipeComplete a0)).MemOk := by
  obtain ⟨h1, h2, h3⟩ := h; unfold State.MemOk; simp (maxDischargeDepth := 30) [h1, h2, h3]
theorem execRetire_memOk (a0 : Nat) (a1 : Nat) (a2 : State) (h : a2.MemOk) : (resState a2 (execRetire a0 a1 a2)).MemOk := by
  obtain ⟨h1, h2, h3⟩ := h; unfold State.MemOk; simp (maxDischargeDepth := 30) [h1, h2, h3]
theorem execRetrain_memOk (a0 : Nat) (a1 : State) (h : a1.MemOk) : (resState a1 (execRetrain a0 a1)).MemOk := by
  obtain ⟨h1, h2, h3⟩ := h; unfold State.MemOk; simp (maxDischargeDepth := 30) [h1, h2, h3]
theorem execRfill_memOk (a0 : Nat) (a1 : Nat) (a2 : State) (h : a2.MemOk) : (resState a2 (execRfill a0 a1 a2)).MemOk := by
  obtain ⟨h1, h2, h3⟩ := h; unfold State.MemOk; simp (maxDischargeDepth := 30) [h1, h2, h3]
theorem execRfillFreeTestPass_memOk (a0 : Nat) (a1 : Nat) (a2 : State) (h : a2.MemOk) : (resState a2 (execRfillFreeTestPass a0 a1 a2)).MemOk := by
  obtain ⟨h1, h2, h3⟩ := h; unfold State.MemOk; simp (maxDischargeDepth := 30) [h1, h2, h3]
theorem execRfree_memOk (a0 : Nat) (a1 : Nat) (a2 : State) (h : a2.MemOk) : (resState a2 (execRfree a0 a1 a2)).MemOk := by
  obtain ⟨h1, h2, h3⟩ := h; unfold State.MemOk; simp (maxDischargeDepth := 30) [h1, h2, h3]
theorem execRingDisable_memOk (a0 : Nat) (a1 : Nat) (a2 : State) (h : a2.MemOk) : (resState a2 (execRingDisable a0 a1 a2)).MemOk := by
  obtain ⟨h1, h2, h3⟩ := h; unfold State.MemOk; simp (maxDischargeDepth := 30) [h1, h2, h3]
theorem execRomBoot_memOk (a0 : Nat) (a1 : Nat) (a2 : State) (h : a2.MemOk) : (resState a2 (execRomBoot a0 a1 a2)).MemOk := by
  obtain ⟨h1, h2, h3⟩ := h; unfold State.MemOk; simp (maxDischargeDepth := 30) [h1, h2, h3]
theorem execRread_memOk (a0 : Nat) (a1 : State) (h : a1.MemOk) : (resState a1 (execRread a0 a1)).MemOk := by
  obtain ⟨h1, h2, h3⟩ := h; unfold State.MemOk; simp (maxDischargeDepth := 30) [h1, h2, h3]
theorem execRsync_memOk (a0 : Nat) (a1 : State) (h : a1.MemOk) : (resState a1 (execRsync a0 a1)).MemOk := by
  obtain ⟨h1, h2, h3⟩ := h; unfold State.MemOk; simp (maxDischargeDepth := 30) [h1, h2, h3]
theorem execRtake_memOk (a0 : Nat) (a1 : Nat) (a2 : State) (h : a2.MemOk) : (resState a2 (execRtake a0 a1 a2)).MemOk := by
  obtain ⟨h1, h2, h3⟩ := h; unfold State.MemOk; simp (maxDischargeDepth := 30) [h1, h2, h3]
theorem execRtakePass_memOk (a0 : Nat) (a1 : Nat) (a2 : State) (h : a2.MemOk) : (resState a2 (execRtakePass a0 a1 a2)).MemOk := by
  obtain ⟨h1, h2, h3⟩ := h; unfold State.MemOk; simp (maxDischargeDepth := 30) [h1, h2, h3]
theorem execRwrite_memOk (a0 : Nat) (a1 : State) (h : a1.MemOk) : (resState a1 (execRwrite a0 a1)).MemOk := by
  obtain ⟨h1, h2, h3⟩ := h; unfold State.MemOk; simp (maxDischargeDepth := 30) [h1, h2, h3]
theorem execS1StrapChange_memOk (a0 : Bool) (a1 : Nat) (a2 : State) (h : a2.MemOk) : (resState a2 (execS1StrapChange a0 a1 a2)).MemOk := by
  obtain ⟨h1, h2, h3⟩ := h; unfold State.MemOk; simp (maxDischargeDepth := 30) [h1, h2, h3]
theorem execSadd_memOk (a0 : Nat) (a1 : Guard) (a2 : Reg) (a3 : Reg) (a4 : State) (h : a4.MemOk) : (resState a4 (execSadd a0 a1 a2 a3 a4)).MemOk := by
  obtain ⟨h1, h2, h3⟩ := h; unfold State.MemOk; simp (maxDischargeDepth := 30) [h1, h2, h3]
theorem execScanInComplete_memOk (a0 : Nat) (a1 : State) (h : a1.MemOk) : (resState a1 (execScanInComplete a0 a1)).MemOk := by
  obtain ⟨h1, h2, h3⟩ := h; unfold State.MemOk; simp (maxDischargeDepth := 30) [h1, h2, h3]
theorem execScanOutComplete_memOk (a0 : Nat) (a1 : State) (h : a1.MemOk) : (resState a1 (execScanOutComplete a0 a1)).MemOk := by
  obtain ⟨h1, h2, h3⟩ := h; unfold State.MemOk; simp (maxDischargeDepth := 30) [h1, h2, h3]
theorem execScanOutStart_memOk (a0 : Nat) (a1 : State) (h : a1.MemOk) : (resState a1 (execScanOutStart a0 a1)).MemOk := by
  obtain ⟨h1, h2, h3⟩ := h; unfold State.MemOk; simp (maxDischargeDepth := 30) [h1, h2, h3]
theorem execScatterAdd_memOk (a0 : Nat) (a1 : State) (h : a1.MemOk) : (resState a1 (execScatterAdd a0 a1)).MemOk := by
  obtain ⟨h1, h2, h3⟩ := h; unfold State.MemOk; simp (maxDischargeDepth := 30) [h1, h2, h3]
theorem execSend_memOk (a0 : Nat) (a1 : State) (h : a1.MemOk) : (resState a1 (execSend a0 a1)).MemOk := by
  obtain ⟨h1, h2, h3⟩ := h; unfold State.MemOk; simp (maxDischargeDepth := 30) [h1, h2, h3]
theorem execSendM_memOk (a0 : Nat) (a1 : State) (h : a1.MemOk) : (resState a1 (execSendM a0 a1)).MemOk := by
  obtain ⟨h1, h2, h3⟩ := h; unfold State.MemOk; simp (maxDischargeDepth := 30) [h1, h2, h3]
theorem execSendMessage_memOk (a0 : Nat) (a1 : State) (h : a1.MemOk) : (resState a1 (execSendMessage a0 a1)).MemOk := by
  obtain ⟨h1, h2, h3⟩ := h; unfold State.MemOk; simp (maxDischargeDepth := 30) [h1, h2, h3]
theorem execSendRefused_memOk (a0 : Nat) (a1 : Nat) (a2 : Nat) (a3 : Nat) (a4 : Nat) (a5 : State)
      (h : a5.MemOk) : (resState a5 (execSendRefused a0 a1 a2 a3 a4 a5)).MemOk := by
  obtain ⟨h1, h2, h3⟩ := h; unfold State.MemOk; simp (maxDischargeDepth := 30) [h1, h2, h3]
theorem execSeq_memOk (a0 : Nat) (a1 : Nat) (a2 : State) (h : a2.MemOk) : (resState a2 (execSeq a0 a1 a2)).MemOk := by
  obtain ⟨h1, h2, h3⟩ := h; unfold State.MemOk; simp (maxDischargeDepth := 30) [h1, h2, h3]
theorem execSeqAdmit_memOk (a0 : Nat) (a1 : Nat) (a2 : State) (h : a2.MemOk) : (resState a2 (execSeqAdmit a0 a1 a2)).MemOk := by
  obtain ⟨h1, h2, h3⟩ := h; unfold State.MemOk; simp (maxDischargeDepth := 30) [h1, h2, h3]
theorem execSeqResume_memOk (a0 : Nat) (a1 : Nat) (a2 : State) (h : a2.MemOk) : (resState a2 (execSeqResume a0 a1 a2)).MemOk := by
  obtain ⟨h1, h2, h3⟩ := h; unfold State.MemOk; simp (maxDischargeDepth := 30) [h1, h2, h3]
theorem execSeqStop_memOk (a0 : Nat) (a1 : Nat) (a2 : State) (h : a2.MemOk) : (resState a2 (execSeqStop a0 a1 a2)).MemOk := by
  obtain ⟨h1, h2, h3⟩ := h; unfold State.MemOk; simp (maxDischargeDepth := 30) [h1, h2, h3]
theorem execSetAsideRelease_memOk (a0 : Nat) (a1 : State) (h : a1.MemOk) : (resState a1 (execSetAsideRelease a0 a1)).MemOk := by
  obtain ⟨h1, h2, h3⟩ := h; unfold State.MemOk; simp (maxDischargeDepth := 30) [h1, h2, h3]
theorem execSeta_memOk (a0 : Nat) (a1 : Nat) (a2 : State) (h : a2.MemOk) : (resState a2 (execSeta a0 a1 a2)).MemOk := by
  obtain ⟨h1, h2, h3⟩ := h; unfold State.MemOk; simp (maxDischargeDepth := 30) [h1, h2, h3]
theorem execSetx_memOk (a0 : Nat) (a1 : Nat) (a2 : State) (h : a2.MemOk) : (resState a2 (execSetx a0 a1 a2)).MemOk := by
  obtain ⟨h1, h2, h3⟩ := h; unfold State.MemOk; simp (maxDischargeDepth := 30) [h1, h2, h3]
theorem execSgd_memOk (a0 : Nat) (a1 : State) (h : a1.MemOk) : (resState a1 (execSgd a0 a1)).MemOk := by
  obtain ⟨h1, h2, h3⟩ := h; unfold State.MemOk; simp (maxDischargeDepth := 30) [h1, h2, h3]
theorem execSheet_memOk (a0 : Nat) (a1 : Nat) (a2 : Nat) (a3 : Nat) (a4 : State) (h : a4.MemOk) : (resState a4 (execSheet a0 a1 a2 a3 a4)).MemOk := by
  obtain ⟨h1, h2, h3⟩ := h; unfold State.MemOk; simp (maxDischargeDepth := 30) [h1, h2, h3]
theorem execSheetEnd_memOk (a0 : Nat) (a1 : State) (h : a1.MemOk) : (resState a1 (execSheetEnd a0 a1)).MemOk := by
  obtain ⟨h1, h2, h3⟩ := h; unfold State.MemOk; simp (maxDischargeDepth := 30) [h1, h2, h3]
theorem execSheetStart_memOk (a0 : Nat) (a1 : State) (h : a1.MemOk) : (resState a1 (execSheetStart a0 a1)).MemOk := by
  obtain ⟨h1, h2, h3⟩ := h; unfold State.MemOk; simp (maxDischargeDepth := 30) [h1, h2, h3]
theorem execSignal_memOk (a0 : Nat) (a1 : Nat) (a2 : State) (h : a2.MemOk) : (resState a2 (execSignal a0 a1 a2)).MemOk := by
  obtain ⟨h1, h2, h3⟩ := h; unfold State.MemOk; simp (maxDischargeDepth := 30) [h1, h2, h3]
theorem execSignalDetect_memOk (a0 : Nat) (a1 : State) (h : a1.MemOk) : (resState a1 (execSignalDetect a0 a1)).MemOk := by
  obtain ⟨h1, h2, h3⟩ := h; unfold State.MemOk; simp (maxDischargeDepth := 30) [h1, h2, h3]
theorem execSleepRequest_memOk (a0 : Who) (a1 : State) (h : a1.MemOk) : (resState a1 (execSleepRequest a0 a1)).MemOk := by
  obtain ⟨h1, h2, h3⟩ := h; unfold State.MemOk; simp (maxDischargeDepth := 30) [h1, h2, h3]
theorem execSll_memOk (a0 : Nat) (a1 : Guard) (a2 : Reg) (a3 : Reg) (a4 : Reg) (a5 : State)
      (h : a5.MemOk) : (resState a5 (execSll a0 a1 a2 a3 a4 a5)).MemOk := by
  obtain ⟨h1, h2, h3⟩ := h; unfold State.MemOk; simp (maxDischargeDepth := 30) [h1, h2, h3]
theorem execSlli_memOk (a0 : Nat) (a1 : Guard) (a2 : Reg) (a3 : Reg) (a4 : BitVec 6) (a5 : State)
      (h : a5.MemOk) : (resState a5 (execSlli a0 a1 a2 a3 a4 a5)).MemOk := by
  obtain ⟨h1, h2, h3⟩ := h; unfold State.MemOk; simp (maxDischargeDepth := 30) [h1, h2, h3]
theorem execSpanPortEnable_memOk (a0 : Nat) (a1 : Nat) (a2 : State) (h : a2.MemOk) : (resState a2 (execSpanPortEnable a0 a1 a2)).MemOk := by
  obtain ⟨h1, h2, h3⟩ := h; unfold State.MemOk; simp (maxDischargeDepth := 30) [h1, h2, h3]
theorem execSpillDrain_memOk (a0 : Nat) (a1 : Nat) (a2 : ReadAns) (a3 : State) (h : a3.MemOk) : (resState a3 (execSpillDrain a0 a1 a2 a3)).MemOk := by
  obtain ⟨h1, h2, h3⟩ := h; unfold State.MemOk; simp (maxDischargeDepth := 30) [h1, h2, h3]
theorem execSpillWriteAck_memOk (a0 : Nat) (a1 : Nat) (a2 : State) (h : a2.MemOk) : (resState a2 (execSpillWriteAck a0 a1 a2)).MemOk := by
  obtain ⟨h1, h2, h3⟩ := h; unfold State.MemOk; simp (maxDischargeDepth := 30) [h1, h2, h3]
theorem execSpload_memOk (a0 : Nat) (a1 : Nat) (a2 : State) (h : a2.MemOk) : (resState a2 (execSpload a0 a1 a2)).MemOk := by
  obtain ⟨h1, h2, h3⟩ := h; unfold State.MemOk; simp (maxDischargeDepth := 30) [h1, h2, h3]
theorem execSploadComplete_memOk (a0 : Nat) (a1 : Nat) (a2 : State) (h : a2.MemOk) : (resState a2 (execSploadComplete a0 a1 a2)).MemOk := by
  obtain ⟨h1, h2, h3⟩ := h; unfold State.MemOk; simp (maxDischargeDepth := 30) [h1, h2, h3]
theorem execSqTail_memOk (a0 : Nat) (a1 : Nat) (a2 : Nat) (a3 : Nat) (a4 : State) (h : a4.MemOk) : (resState a4 (execSqTail a0 a1 a2 a3 a4)).MemOk := by
  obtain ⟨h1, h2, h3⟩ := h; unfold State.MemOk; simp (maxDischargeDepth := 30) [h1, h2, h3]
theorem execSra_memOk (a0 : Nat) (a1 : Guard) (a2 : Reg) (a3 : Reg) (a4 : Reg) (a5 : State)
      (h : a5.MemOk) : (resState a5 (execSra a0 a1 a2 a3 a4 a5)).MemOk := by
  obtain ⟨h1, h2, h3⟩ := h; unfold State.MemOk; simp (maxDischargeDepth := 30) [h1, h2, h3]
theorem execSrai_memOk (a0 : Nat) (a1 : Guard) (a2 : Reg) (a3 : Reg) (a4 : BitVec 6) (a5 : State)
      (h : a5.MemOk) : (resState a5 (execSrai a0 a1 a2 a3 a4 a5)).MemOk := by
  obtain ⟨h1, h2, h3⟩ := h; unfold State.MemOk; simp (maxDischargeDepth := 30) [h1, h2, h3]
theorem execSread_memOk (a0 : Nat) (a1 : Guard) (a2 : Reg) (a3 : Reg) (a4 : State) (h : a4.MemOk) : (resState a4 (execSread a0 a1 a2 a3 a4)).MemOk := by
  obtain ⟨h1, h2, h3⟩ := h; unfold State.MemOk; simp (maxDischargeDepth := 30) [h1, h2, h3]
theorem execSrl_memOk (a0 : Nat) (a1 : Guard) (a2 : Reg) (a3 : Reg) (a4 : Reg) (a5 : State)
      (h : a5.MemOk) : (resState a5 (execSrl a0 a1 a2 a3 a4 a5)).MemOk := by
  obtain ⟨h1, h2, h3⟩ := h; unfold State.MemOk; simp (maxDischargeDepth := 30) [h1, h2, h3]
theorem execSrli_memOk (a0 : Nat) (a1 : Guard) (a2 : Reg) (a3 : Reg) (a4 : BitVec 6) (a5 : State)
      (h : a5.MemOk) : (resState a5 (execSrli a0 a1 a2 a3 a4 a5)).MemOk := by
  obtain ⟨h1, h2, h3⟩ := h; unfold State.MemOk; simp (maxDischargeDepth := 30) [h1, h2, h3]
theorem execSsig_memOk (a0 : Nat) (a1 : Nat) (a2 : State) (h : a2.MemOk) : (resState a2 (execSsig a0 a1 a2)).MemOk := by
  obtain ⟨h1, h2, h3⟩ := h; unfold State.MemOk; simp (maxDischargeDepth := 30) [h1, h2, h3]
theorem execSsub_memOk (a0 : Nat) (a1 : Guard) (a2 : Reg) (a3 : Reg) (a4 : State) (h : a4.MemOk) : (resState a4 (execSsub a0 a1 a2 a3 a4)).MemOk := by
  obtain ⟨h1, h2, h3⟩ := h; unfold State.MemOk; simp (maxDischargeDepth := 30) [h1, h2, h3]
theorem execStB_memOk (a0 : Nat) (a1 : Guard) (a2 : Reg) (a3 : Reg) (a4 : BitVec 10) (a5 : State)
      (h : a5.MemOk) : (resState a5 (execStB a0 a1 a2 a3 a4 a5)).MemOk := by
  obtain ⟨h1, h2, h3⟩ := h; unfold State.MemOk; simp (maxDischargeDepth := 30) [h1, h2, h3]
theorem execStD_memOk (a0 : Nat) (a1 : Guard) (a2 : Reg) (a3 : Reg) (a4 : BitVec 10) (a5 : State)
      (h : a5.MemOk) : (resState a5 (execStD a0 a1 a2 a3 a4 a5)).MemOk := by
  obtain ⟨h1, h2, h3⟩ := h; unfold State.MemOk; simp (maxDischargeDepth := 30) [h1, h2, h3]
theorem execStH_memOk (a0 : Nat) (a1 : Guard) (a2 : Reg) (a3 : Reg) (a4 : BitVec 10) (a5 : State)
      (h : a5.MemOk) : (resState a5 (execStH a0 a1 a2 a3 a4 a5)).MemOk := by
  obtain ⟨h1, h2, h3⟩ := h; unfold State.MemOk; simp (maxDischargeDepth := 30) [h1, h2, h3]
theorem execStW_memOk (a0 : Nat) (a1 : Guard) (a2 : Reg) (a3 : Reg) (a4 : BitVec 10) (a5 : State)
      (h : a5.MemOk) : (resState a5 (execStW a0 a1 a2 a3 a4 a5)).MemOk := by
  obtain ⟨h1, h2, h3⟩ := h; unfold State.MemOk; simp (maxDischargeDepth := 30) [h1, h2, h3]
theorem execStackCommand_memOk (a0 : StkBy) (a1 : Nat) (a2 : Nat) (a3 : List Byte) (a4 : List Nat) (a5 : State)
      (h : a5.MemOk) : (resState a5 (execStackCommand a0 a1 a2 a3 a4 a5)).MemOk := by
  obtain ⟨h1, h2, h3⟩ := h; unfold State.MemOk; simp (maxDischargeDepth := 30) [h1, h2, h3]
theorem execStackCommandComplete_memOk (a0 : Nat) (a1 : State) (h : a1.MemOk) : (resState a1 (execStackCommandComplete a0 a1)).MemOk := by
  obtain ⟨h1, h2, h3⟩ := h; unfold State.MemOk; simp (maxDischargeDepth := 30) [h1, h2, h3]
theorem execStackCommandStart_memOk (a0 : Nat) (a1 : State) (h : a1.MemOk) : (resState a1 (execStackCommandStart a0 a1)).MemOk := by
  obtain ⟨h1, h2, h3⟩ := h; unfold State.MemOk; simp (maxDischargeDepth := 30) [h1, h2, h3]
theorem execStackMergeSend_memOk (a0 : Nat) (a1 : Nat) (a2 : State) (h : a2.MemOk) : (resState a2 (execStackMergeSend a0 a1 a2)).MemOk := by
  obtain ⟨h1, h2, h3⟩ := h; unfold State.MemOk; simp (maxDischargeDepth := 30) [h1, h2, h3]
theorem execStackRead_memOk (a0 : Prod StkWho (Option Nat)) (a1 : Nat) (a2 : Nat) (a3 : State)
      (h : a3.MemOk) : (resState a3 (execStackRead a0 a1 a2 a3)).MemOk := by
  obtain ⟨h1, h2, h3⟩ := h; unfold State.MemOk; simp (maxDischargeDepth := 30) [h1, h2, h3]
theorem execStackReadReturn_memOk (a0 : Nat) (a1 : State) (h : a1.MemOk) : (resState a1 (execStackReadReturn a0 a1)).MemOk := by
  obtain ⟨h1, h2, h3⟩ := h; unfold State.MemOk; simp (maxDischargeDepth := 30) [h1, h2, h3]
theorem execStackShareComplete_memOk (a0 : Nat) (a1 : Nat) (a2 : State) (h : a2.MemOk) : (resState a2 (execStackShareComplete a0 a1 a2)).MemOk := by
  obtain ⟨h1, h2, h3⟩ := h; unfold State.MemOk; simp (maxDischargeDepth := 30) [h1, h2, h3]
theorem execStackTempRead_memOk (a0 : Nat) (a1 : Nat) (a2 : State) (h : a2.MemOk) : (resState a2 (execStackTempRead a0 a1 a2)).MemOk := by
  obtain ⟨h1, h2, h3⟩ := h; unfold State.MemOk; simp (maxDischargeDepth := 30) [h1, h2, h3]
theorem execStackWrite_memOk (a0 : Prod StkWho (Option Nat)) (a1 : Nat) (a2 : List Byte) (a3 : List Nat) (a4 : State)
      (h : a4.MemOk) : (resState a4 (execStackWrite a0 a1 a2 a3 a4)).MemOk := by
  obtain ⟨h1, h2, h3⟩ := h; unfold State.MemOk; simp (maxDischargeDepth := 30) [h1, h2, h3]
theorem execStepComplete_memOk (a0 : Nat) (a1 : State) (h : a1.MemOk) : (resState a1 (execStepComplete a0 a1)).MemOk := by
  obtain ⟨h1, h2, h3⟩ := h; unfold State.MemOk; simp (maxDischargeDepth := 30) [h1, h2, h3]
theorem execStkcmd_memOk (a0 : Nat) (a1 : Nat) (a2 : State) (h : a2.MemOk) : (resState a2 (execStkcmd a0 a1 a2)).MemOk := by
  obtain ⟨h1, h2, h3⟩ := h; unfold State.MemOk; simp (maxDischargeDepth := 30) [h1, h2, h3]
theorem execStop_memOk (a0 : Nat) (a1 : Nat) (a2 : State) (h : a2.MemOk) : (resState a2 (execStop a0 a1 a2)).MemOk := by
  obtain ⟨h1, h2, h3⟩ := h; unfold State.MemOk; simp (maxDischargeDepth := 30) [h1, h2, h3]
theorem execStrD_memOk (a0 : Nat) (a1 : Guard) (a2 : Reg) (a3 : Reg) (a4 : BitVec 10) (a5 : State)
      (h : a5.MemOk) : (resState a5 (execStrD a0 a1 a2 a3 a4 a5)).MemOk := by
  obtain ⟨h1, h2, h3⟩ := h; unfold State.MemOk; simp (maxDischargeDepth := 30) [h1, h2, h3]
theorem execStrRefused_memOk (a0 : Nat) (a1 : W64) (a2 : BitVec 8) (a3 : State) (h : a3.MemOk) : (resState a3 (execStrRefused a0 a1 a2 a3)).MemOk := by
  obtain ⟨h1, h2, h3⟩ := h; unfold State.MemOk; simp (maxDischargeDepth := 30) [h1, h2, h3]
theorem execStrW_memOk (a0 : Nat) (a1 : Guard) (a2 : Reg) (a3 : Reg) (a4 : BitVec 10) (a5 : State)
      (h : a5.MemOk) : (resState a5 (execStrW a0 a1 a2 a3 a4 a5)).MemOk := by
  obtain ⟨h1, h2, h3⟩ := h; unfold State.MemOk; simp (maxDischargeDepth := 30) [h1, h2, h3]
theorem execStream_memOk (a0 : Nat) (a1 : Nat) (a2 : State) (h : a2.MemOk) : (resState a2 (execStream a0 a1 a2)).MemOk := by
  obtain ⟨h1, h2, h3⟩ := h; unfold State.MemOk; simp (maxDischargeDepth := 30) [h1, h2, h3]
theorem execStreamComplete_memOk (a0 : Nat) (a1 : Nat) (a2 : State) (h : a2.MemOk) : (resState a2 (execStreamComplete a0 a1 a2)).MemOk := by
  obtain ⟨h1, h2, h3⟩ := h; unfold State.MemOk; simp (maxDischargeDepth := 30) [h1, h2, h3]
theorem execStreamEnd_memOk (a0 : Nat) (a1 : Nat) (a2 : State) (h : a2.MemOk) : (resState a2 (execStreamEnd a0 a1 a2)).MemOk := by
  obtain ⟨h1, h2, h3⟩ := h; unfold State.MemOk; simp (maxDischargeDepth := 30) [h1, h2, h3]
theorem execStreamReadReturn_memOk (a0 : Nat) (a1 : Nat) (a2 : Nat) (a3 : ReadAns) (a4 : State)
      (h : a4.MemOk) : (resState a4 (execStreamReadReturn a0 a1 a2 a3 a4)).MemOk := by
  obtain ⟨h1, h2, h3⟩ := h; unfold State.MemOk; simp (maxDischargeDepth := 30) [h1, h2, h3]
theorem execStretchEnd_memOk (a0 : Nat) (a1 : State) (h : a1.MemOk) : (resState a1 (execStretchEnd a0 a1)).MemOk := by
  obtain ⟨h1, h2, h3⟩ := h; unfold State.MemOk; simp (maxDischargeDepth := 30) [h1, h2, h3]
theorem execSub_memOk (a0 : Nat) (a1 : Guard) (a2 : Reg) (a3 : Reg) (a4 : Reg) (a5 : State)
      (h : a5.MemOk) : (resState a5 (execSub a0 a1 a2 a3 a4 a5)).MemOk := by
  obtain ⟨h1, h2, h3⟩ := h; unfold State.MemOk; simp (maxDischargeDepth := 30) [h1, h2, h3]
theorem execSumsq_memOk (a0 : Nat) (a1 : State) (h : a1.MemOk) : (resState a1 (execSumsq a0 a1)).MemOk := by
  obtain ⟨h1, h2, h3⟩ := h; unfold State.MemOk; simp (maxDischargeDepth := 30) [h1, h2, h3]
theorem execSwait_memOk (a0 : Nat) (a1 : Guard) (a2 : Reg) (a3 : Reg) (a4 : BitVec 3) (a5 : Bool) (a6 : State)
      (h : a6.MemOk) : (resState a6 (execSwait a0 a1 a2 a3 a4 a5 a6)).MemOk := by
  obtain ⟨h1, h2, h3⟩ := h; unfold State.MemOk; simp (maxDischargeDepth := 30) [h1, h2, h3]
theorem execSwt_memOk (a0 : Nat) (a1 : Nat) (a2 : State) (h : a2.MemOk) : (resState a2 (execSwt a0 a1 a2)).MemOk := by
  obtain ⟨h1, h2, h3⟩ := h; unfold State.MemOk; simp (maxDischargeDepth := 30) [h1, h2, h3]
theorem execSyncApply_memOk (a0 : Nat) (a1 : State) (h : a1.MemOk) : (resState a1 (execSyncApply a0 a1)).MemOk := by
  obtain ⟨h1, h2, h3⟩ := h; unfold State.MemOk; simp (maxDischargeDepth := 30) [h1, h2, h3]
theorem execSyncFrameReceive_memOk (a0 : Nat) (a1 : State) (h : a1.MemOk) : (resState a1 (execSyncFrameReceive a0 a1)).MemOk := by
  obtain ⟨h1, h2, h3⟩ := h; unfold State.MemOk; simp (maxDischargeDepth := 30) [h1, h2, h3]
theorem execSyncFrameRelease_memOk (a0 : Nat) (a1 : State) (h : a1.MemOk) : (resState a1 (execSyncFrameRelease a0 a1)).MemOk := by
  obtain ⟨h1, h2, h3⟩ := h; unfold State.MemOk; simp (maxDischargeDepth := 30) [h1, h2, h3]
theorem execSyncLossTimeout_memOk (a0 : State) (h : a0.MemOk) : (resState a0 (execSyncLossTimeout a0)).MemOk := by
  obtain ⟨h1, h2, h3⟩ := h; unfold State.MemOk; simp (maxDischargeDepth := 30) [h1, h2, h3]
theorem execSyncWord_memOk (a0 : Nat) (a1 : W64) (a2 : State) (h : a2.MemOk) : (resState a2 (execSyncWord a0 a1 a2)).MemOk := by
  obtain ⟨h1, h2, h3⟩ := h; unfold State.MemOk; simp (maxDischargeDepth := 30) [h1, h2, h3]
theorem execTakeover_memOk (a0 : State) (h : a0.MemOk) : (resState a0 (execTakeover a0)).MemOk := by
  obtain ⟨h1, h2, h3⟩ := h; unfold State.MemOk; simp (maxDischargeDepth := 30) [h1, h2, h3]
theorem execTakeoverComplete_memOk (a0 : State) (h : a0.MemOk) : (resState a0 (execTakeoverComplete a0)).MemOk := by
  obtain ⟨h1, h2, h3⟩ := h; unfold State.MemOk; simp (maxDischargeDepth := 30) [h1, h2, h3]
theorem execTelemetryUpdate_memOk (a0 : Int) (a1 : Int) (a2 : State) (h : a2.MemOk) : (resState a2 (execTelemetryUpdate a0 a1 a2)).MemOk := by
  obtain ⟨h1, h2, h3⟩ := h; unfold State.MemOk; simp (maxDischargeDepth := 30) [h1, h2, h3]
theorem execTestLogicReset_memOk (a0 : State) (h : a0.MemOk) : (resState a0 (execTestLogicReset a0)).MemOk := by
  obtain ⟨h1, h2, h3⟩ := h; unfold State.MemOk; simp (maxDischargeDepth := 30) [h1, h2, h3]
theorem execTfill_memOk (a0 : Nat) (a1 : State) (h : a1.MemOk) : (resState a1 (execTfill a0 a1)).MemOk := by
  obtain ⟨h1, h2, h3⟩ := h; unfold State.MemOk; simp (maxDischargeDepth := 30) [h1, h2, h3]
theorem execTfillComplete_memOk (a0 : Nat) (a1 : State) (h : a1.MemOk) : (resState a1 (execTfillComplete a0 a1)).MemOk := by
  obtain ⟨h1, h2, h3⟩ := h; unfold State.MemOk; simp (maxDischargeDepth := 30) [h1, h2, h3]
theorem execThermalSample_memOk (a0 : List Int) (a1 : State) (h : a1.MemOk) : (resState a1 (execThermalSample a0 a1)).MemOk := by
  obtain ⟨h1, h2, h3⟩ := h; unfold State.MemOk; simp (maxDischargeDepth := 30) [h1, h2, h3]
theorem execThrottleRecovery_memOk (a0 : State) (h : a0.MemOk) : (resState a0 (execThrottleRecovery a0)).MemOk := by
  obtain ⟨h1, h2, h3⟩ := h; unfold State.MemOk; simp (maxDischargeDepth := 30) [h1, h2, h3]
theorem execThrottleStep_memOk (a0 : State) (h : a0.MemOk) : (resState a0 (execThrottleStep a0)).MemOk := by
  obtain ⟨h1, h2, h3⟩ := h; unfold State.MemOk; simp (maxDischargeDepth := 30) [h1, h2, h3]
theorem execTload_memOk (a0 : Nat) (a1 : State) (h : a1.MemOk) : (resState a1 (execTload a0 a1)).MemOk := by
  obtain ⟨h1, h2, h3⟩ := h; unfold State.MemOk; simp (maxDischargeDepth := 30) [h1, h2, h3]
theorem execTloadComplete_memOk (a0 : Nat) (a1 : State) (h : a1.MemOk) : (resState a1 (execTloadComplete a0 a1)).MemOk := by
  obtain ⟨h1, h2, h3⟩ := h; unfold State.MemOk; simp (maxDischargeDepth := 30) [h1, h2, h3]
theorem execTrainTimeout_memOk (a0 : Nat) (a1 : State) (h : a1.MemOk) : (resState a1 (execTrainTimeout a0 a1)).MemOk := by
  obtain ⟨h1, h2, h3⟩ := h; unfold State.MemOk; simp (maxDischargeDepth := 30) [h1, h2, h3]
theorem execTrainingComplete_memOk (a0 : Nat) (a1 : State) (h : a1.MemOk) : (resState a1 (execTrainingComplete a0 a1)).MemOk := by
  obtain ⟨h1, h2, h3⟩ := h; unfold State.MemOk; simp (maxDischargeDepth := 30) [h1, h2, h3]
theorem execTrap_memOk (a0 : Nat) (a1 : Guard) (a2 : BitVec 20) (a3 : State) (h : a3.MemOk) : (resState a3 (execTrap a0 a1 a2 a3)).MemOk := by
  obtain ⟨h1, h2, h3⟩ := h; unfold State.MemOk; simp (maxDischargeDepth := 30) [h1, h2, h3]
theorem execTreqReceive_memOk (a0 : Nat) (a1 : State) (h : a1.MemOk) : (resState a1 (execTreqReceive a0 a1)).MemOk := by
  obtain ⟨h1, h2, h3⟩ := h; unfold State.MemOk; simp (maxDischargeDepth := 30) [h1, h2, h3]
theorem execTreqSend_memOk (a0 : State) (h : a0.MemOk) : (resState a0 (execTreqSend a0)).MemOk := by
  obtain ⟨h1, h2, h3⟩ := h; unfold State.MemOk; simp (maxDischargeDepth := 30) [h1, h2, h3]
theorem execTrspReceive_memOk (a0 : Nat) (a1 : State) (h : a1.MemOk) : (resState a1 (execTrspReceive a0 a1)).MemOk := by
  obtain ⟨h1, h2, h3⟩ := h; unfold State.MemOk; simp (maxDischargeDepth := 30) [h1, h2, h3]
theorem execTstore_memOk (a0 : Nat) (a1 : State) (h : a1.MemOk) : (resState a1 (execTstore a0 a1)).MemOk := by
  obtain ⟨h1, h2, h3⟩ := h; unfold State.MemOk; simp (maxDischargeDepth := 30) [h1, h2, h3]
theorem execTstoreComplete_memOk (a0 : Nat) (a1 : State) (h : a1.MemOk) : (resState a1 (execTstoreComplete a0 a1)).MemOk := by
  obtain ⟨h1, h2, h3⟩ := h; unfold State.MemOk; simp (maxDischargeDepth := 30) [h1, h2, h3]
theorem execTwin_memOk (a0 : Nat) (a1 : State) (h : a1.MemOk) : (resState a1 (execTwin a0 a1)).MemOk := by
  obtain ⟨h1, h2, h3⟩ := h; unfold State.MemOk; simp (maxDischargeDepth := 30) [h1, h2, h3]
theorem execUnpair_memOk (a0 : State) (h : a0.MemOk) : (resState a0 (execUnpair a0)).MemOk := by
  obtain ⟨h1, h2, h3⟩ := h; unfold State.MemOk; simp (maxDischargeDepth := 30) [h1, h2, h3]
theorem execVatHostMsg_memOk (a0 : Nat) (a1 : Nat) (a2 : Nat) (a3 : State) (h : a3.MemOk) : (resState a3 (execVatHostMsg a0 a1 a2 a3)).MemOk := by
  obtain ⟨h1, h2, h3⟩ := h; unfold State.MemOk; simp (maxDischargeDepth := 30) [h1, h2, h3]
theorem execVatReset_memOk (a0 : Nat) (a1 : Nat) (a2 : State) (h : a2.MemOk) : (resState a2 (execVatReset a0 a1 a2)).MemOk := by
  obtain ⟨h1, h2, h3⟩ := h; unfold State.MemOk; simp (maxDischargeDepth := 30) [h1, h2, h3]
theorem execVchain_memOk (a0 : Nat) (a1 : State) (h : a1.MemOk) : (resState a1 (execVchain a0 a1)).MemOk := by
  obtain ⟨h1, h2, h3⟩ := h; unfold State.MemOk; simp (maxDischargeDepth := 30) [h1, h2, h3]
theorem execVchainComplete_memOk (a0 : Nat) (a1 : State) (h : a1.MemOk) : (resState a1 (execVchainComplete a0 a1)).MemOk := by
  obtain ⟨h1, h2, h3⟩ := h; unfold State.MemOk; simp (maxDischargeDepth := 30) [h1, h2, h3]
theorem execVdef_memOk (a0 : Nat) (a1 : State) (h : a1.MemOk) : (resState a1 (execVdef a0 a1)).MemOk := by
  obtain ⟨h1, h2, h3⟩ := h; unfold State.MemOk; simp (maxDischargeDepth := 30) [h1, h2, h3]
theorem execVmChtabApply_memOk (a0 : Who) (a1 : Nat) (a2 : Nat) (a3 : Nat) (a4 : State)
      (h : a4.MemOk) : (resState a4 (execVmChtabApply a0 a1 a2 a3 a4)).MemOk := by
  obtain ⟨h1, h2, h3⟩ := h; unfold State.MemOk; simp (maxDischargeDepth := 30) [h1, h2, h3]
theorem execVmStart_memOk (a0 : Who) (a1 : Nat) (a2 : Nat) (a3 : Nat) (a4 : State)
      (h : a4.MemOk) : (resState a4 (execVmStart a0 a1 a2 a3 a4)).MemOk := by
  obtain ⟨h1, h2, h3⟩ := h; unfold State.MemOk; simp (maxDischargeDepth := 30) [h1, h2, h3]
theorem execVpin_memOk (a0 : Nat) (a1 : State) (h : a1.MemOk) : (resState a1 (execVpin a0 a1)).MemOk := by
  obtain ⟨h1, h2, h3⟩ := h; unfold State.MemOk; simp (maxDischargeDepth := 30) [h1, h2, h3]
theorem execVunpin_memOk (a0 : Nat) (a1 : State) (h : a1.MemOk) : (resState a1 (execVunpin a0 a1)).MemOk := by
  obtain ⟨h1, h2, h3⟩ := h; unfold State.MemOk; simp (maxDischargeDepth := 30) [h1, h2, h3]
theorem execWait_memOk (a0 : Nat) (a1 : Nat) (a2 : State) (h : a2.MemOk) : (resState a2 (execWait a0 a1 a2)).MemOk := by
  obtain ⟨h1, h2, h3⟩ := h; unfold State.MemOk; simp (maxDischargeDepth := 30) [h1, h2, h3]
theorem execWakeLatchDeliver_memOk (a0 : State) (h : a0.MemOk) : (resState a0 (execWakeLatchDeliver a0)).MemOk := by
  obtain ⟨h1, h2, h3⟩ := h; unfold State.MemOk; simp (maxDischargeDepth := 30) [h1, h2, h3]
theorem execWakeWatchEvent_memOk (a0 : Nat) (a1 : State) (h : a1.MemOk) : (resState a1 (execWakeWatchEvent a0 a1)).MemOk := by
  obtain ⟨h1, h2, h3⟩ := h; unfold State.MemOk; simp (maxDischargeDepth := 30) [h1, h2, h3]
theorem execWarmReset_memOk (a0 : State) (h : a0.MemOk) : (resState a0 (execWarmReset a0)).MemOk := by
  obtain ⟨h1, h2, h3⟩ := h; unfold State.MemOk; simp (maxDischargeDepth := 30) [h1, h2, h3]
theorem execWfi_memOk (a0 : Nat) (a1 : Guard) (a2 : State) (h : a2.MemOk) : (resState a2 (execWfi a0 a1 a2)).MemOk := by
  obtain ⟨h1, h2, h3⟩ := h; unfold State.MemOk; simp (maxDischargeDepth := 30) [h1, h2, h3]
theorem execWfiWake_memOk (a0 : Nat) (a1 : State) (h : a1.MemOk) : (resState a1 (execWfiWake a0 a1)).MemOk := by
  obtain ⟨h1, h2, h3⟩ := h; unfold State.MemOk; simp (maxDischargeDepth := 30) [h1, h2, h3]
theorem execWindowRead_memOk (a0 : Nat) (a1 : Nat) (a2 : Nat) (a3 : WinBy) (a4 : State)
      (h : a4.MemOk) : (resState a4 (execWindowRead a0 a1 a2 a3 a4)).MemOk := by
  obtain ⟨h1, h2, h3⟩ := h; unfold State.MemOk; simp (maxDischargeDepth := 30) [h1, h2, h3]
theorem execWindowWrite_memOk (a0 : Nat) (a1 : Nat) (a2 : List Byte) (a3 : List Nat) (a4 : WinBy) (a5 : State)
      (h : a5.MemOk) : (resState a5 (execWindowWrite a0 a1 a2 a3 a4 a5)).MemOk := by
  obtain ⟨h1, h2, h3⟩ := h; unfold State.MemOk; simp (maxDischargeDepth := 30) [h1, h2, h3]
theorem execWipe_memOk (a0 : Nat) (a1 : State) (h : a1.MemOk) : (resState a1 (execWipe a0 a1)).MemOk := by
  obtain ⟨h1, h2, h3⟩ := h; unfold State.MemOk; simp (maxDischargeDepth := 30) [h1, h2, h3]
theorem execWipeComplete_memOk (a0 : Nat) (a1 : State) (h : a1.MemOk) : (resState a1 (execWipeComplete a0 a1)).MemOk := by
  obtain ⟨h1, h2, h3⟩ := h; unfold State.MemOk; simp (maxDischargeDepth := 30) [h1, h2, h3]
theorem execXor_memOk (a0 : Nat) (a1 : Guard) (a2 : Reg) (a3 : Reg) (a4 : Reg) (a5 : State)
      (h : a5.MemOk) : (resState a5 (execXor a0 a1 a2 a3 a4 a5)).MemOk := by
  obtain ⟨h1, h2, h3⟩ := h; unfold State.MemOk; simp (maxDischargeDepth := 30) [h1, h2, h3]
theorem execXori_memOk (a0 : Nat) (a1 : Guard) (a2 : Reg) (a3 : Reg) (a4 : BitVec 10) (a5 : State)
      (h : a5.MemOk) : (resState a5 (execXori a0 a1 a2 a3 a4 a5)).MemOk := by
  obtain ⟨h1, h2, h3⟩ := h; unfold State.MemOk; simp (maxDischargeDepth := 30) [h1, h2, h3]

end Sys2Proof.Machine
end

