-- ==== Sys2Proof/Laws/Ways1.lean ====
section
/-! SUPPORT. Once each, what the shared operations and the commands over them do: the control processor: guards, jumps, halts, interrupt events and remote accesses (R75-R113, R541-R549). -/

namespace Sys2Proof.Machine

theorem State.goes_parts {s : State} {c : Nat} {g : Guard} (h : s.goes c g = true) :
    s.ctlOn c = true ∧ s.fetchBad c = false ∧ (s.ctl c).guardTrue g = true ∧ ¬ (g.gn && g.gp == 0) = true := by
  simp only [State.goes, Bool.and_eq_true, Bool.not_eq_true'] at h
  refine ⟨h.1.1, h.1.2, h.2, ?_⟩
  intro h3
  have h4 := h.2
  simp only [Bool.and_eq_true, beq_iff_eq] at h3
  simp [Ctl.guardTrue, Ctl.rp, h3.1, h3.2] at h4

theorem State.instr_goes {s : State} {c : Nat} {g : Guard} (w : W32) (f : Ctl → State) (h : s.goes c g = true) :
    s.instr c g w f = (f (s.ctl c)).stepOver c := by
  obtain ⟨h1, h2, h3, h4⟩ := State.goes_parts h
  simp only [State.instr, h1, h2, h3, Bool.not_true, Bool.false_eq_true, if_false, if_neg h4, if_true]

theorem State.instrIf_goes {s : State} {c : Nat} {g : Guard} (w : W32) (ok : Bool) (f : Ctl → State) (h : s.goes c g = true) :
    s.instrIf c g w ok f = if ok then (f (s.ctl c)).stepOver c else (s.illegal c w).stepOver c := by
  have e := State.instr_goes w f h
  obtain ⟨h1, h2, h3, h4⟩ := State.goes_parts h
  cases ok <;> simp [State.instrIf, h1, h2, e]

theorem Ctl.rp_wp (k : Ctl) (i j : BitVec 3) (b : Bool) (hi : i ≠ 0) :
    (k.wp i b).rp i = b ∧ (j ≠ i → (k.wp i b).rp j = k.rp j) ∧ { (k.wp i b) with p := k.p } = k := by
  have hi0 : i.toNat ≠ 0 := by intro h; apply hi; apply BitVec.eq_of_toNat_eq; simpa using h
  have hl := i.isLt
  refine ⟨?_, ?_, ?_⟩
  · simp only [Ctl.wp, Ctl.rp, if_neg hi]
    cases b <;> simp <;> omega
  · intro hj
    have hj' : j.toNat ≠ i.toNat := fun h => hj (BitVec.eq_of_toNat_eq h)
    have hjl := j.isLt
    simp only [Ctl.wp, Ctl.rp, if_neg hi]
    have e2 : j.toNat < 8 := by omega
    rcases Nat.lt_or_gt_of_ne hj' with h1 | h1
    · cases b <;> by_cases h0 : j = 0 <;> simp [h0, h1] <;> (try simp [e2])
    · have h2 : ¬ j.toNat < i.toNat := by omega
      have h3 : j.toNat - i.toNat ≠ 0 := by omega
      cases b <;> by_cases h0 : j = 0 <;> simp [h0, h2, h3] <;> (try simp [e2])
  · rw [Ctl.wp, if_neg hi]

theorem NSet.has_add (s : NSet) (i w : Nat) : (NSet.add s i).has w = (s.has w || i == w) := by
  induction s with
  | nil => simp [NSet.add, NSet.has]
  | cons k t ih =>
    simp only [NSet.add, NSet.has, List.any_cons] at *
    split
    · simp [Bool.or_comm]
    · split
      · rename_i h; subst h; simp only [List.any_cons]; cases h1 : (i == w) <;> simp [h1]
      · simp only [List.any_cons, ih, Bool.or_assoc]

theorem NSet.has_rem (s : NSet) (i w : Nat) (h : i ≠ w) : (NSet.rem s i).has w = s.has w := by
  induction s with
  | nil => simp [NSet.rem, NSet.has]
  | cons k t ih =>
    simp only [NSet.rem, NSet.has, List.filter_cons, List.any_cons] at *
    split
    · simp [ih]
    · rename_i hk; simp at hk; subst hk; simp [ih, h]

theorem foldl_has (l : List Nat) (f : NSet → Nat → NSet) (p : NSet) (w : Nat) (h : ∀ q i, i ∈ l → (f q i).has w = q.has w) :
    (l.foldl f p).has w = p.has w := by
  induction l generalizing p with
  | nil => rfl
  | cons a t ih => rw [List.foldl_cons, ih _ (fun q i hi => h q i (List.mem_cons_of_mem _ hi)), h _ _ List.mem_cons_self]

theorem Spad.mark_other (x : Spad) (a n : Nat) (bad : Nat → Bool) (w : Nat) (hw : 4 * w + 4 ≤ a ∨ a + n ≤ 4 * w) :
    (x.mark a n bad).has w = x.poison.has w := by
  unfold Spad.mark
  split
  · rfl
  · apply foldl_has
    intro q i hi
    simp only [List.mem_range] at hi
    have hne : a / 4 + i ≠ w := by omega
    dsimp only
    split
    · rw [NSet.has_add]; simp [hne]
    · split
      · exact NSet.has_rem _ _ _ hne
      · rfl

theorem State.instr_false {s : State} {c : Nat} {g : Guard} {w : W32} {f : Ctl → State} (h : s.ctlOn c = true) (hb : s.fetchBad c = false)
    (h2 : (g.gn && g.gp == 0) = false) (h3 : (s.ctl c).guardTrue g = false) : Host.Outcome.next (s.instr c g w f) = s.ends c (s.ctl c).adv := by
  simp only [State.instr, h, hb, h2, h3, State.ends, Bool.not_true, Bool.false_eq_true, if_false]

theorem State.guardTrue_reserved {k : Ctl} {g : Guard} (h2 : g.gn = true) (h3 : g.gp = 0) : k.guardTrue g = false := by
  simp [Ctl.guardTrue, Ctl.rp, h2, h3]

theorem State.instr_reserved {s : State} {c : Nat} {g : Guard} {w : W32} {f : Ctl → State} (h : s.ctlOn c = true) (hb : s.fetchBad c = false)
    (h2 : g.gn = true) (h3 : g.gp = 0) : Host.Outcome.next (s.instr c g w f) = s.raises c cIllegal eFormat (s.ctl c).pc (w.setWidth 64) := by
  simp [State.instr, h, hb, h2, h3, State.raises, State.illegal, zext64]

theorem State.instrIf_bad {s : State} {c : Nat} {g : Guard} {w : W32} {ok : Bool} {f : Ctl → State} (h : s.ctlOn c = true) (hb : s.fetchBad c = false)
    (h2 : ok = false) : Host.Outcome.next (s.instrIf c g w ok f) = s.raises c cIllegal eFormat (s.ctl c).pc (w.setWidth 64) := by
  simp [State.instrIf, h, hb, h2, State.raises, State.illegal, zext64]

theorem State.instrIf_ok {s : State} {c : Nat} {g : Guard} {w : W32} {ok : Bool} {f : Ctl → State} (h : ok = true) :
    s.instrIf c g w ok f = s.instr c g w f := by simp [State.instrIf, h]

theorem State.instrIf_reserved {s : State} {c : Nat} {g : Guard} {w : W32} {ok : Bool} {f : Ctl → State} (h : s.ctlOn c = true) (hb : s.fetchBad c = false)
    (h2 : g.gn = true) (h3 : g.gp = 0) : Host.Outcome.next (s.instrIf c g w ok f) = s.raises c cIllegal eFormat (s.ctl c).pc (w.setWidth 64) := by
  cases ok
  · exact State.instrIf_bad h hb rfl
  · rw [State.instrIf_ok rfl]; exact State.instr_reserved h hb h2 h3

theorem State.instr_poison {s : State} {c : Nat} {g : Guard} {w : W32} {f : Ctl → State} (h : s.ctlOn c = true) (hb : s.fetchBad c = true) :
    Host.Outcome.next (s.instr c g w f) = (s.sramError c (s.ctl c).pc.toNat 0).raises c cPoison ePoison (s.ctl c).pc (s.ctl c).pc := by
  simp [State.instr, h, hb, State.fetchPoison, State.raises]

theorem State.instrIf_poison {s : State} {c : Nat} {g : Guard} {w : W32} {ok : Bool} {f : Ctl → State} (h : s.ctlOn c = true) (hb : s.fetchBad c = true) :
    Host.Outcome.next (s.instrIf c g w ok f) = (s.sramError c (s.ctl c).pc.toNat 0).raises c cPoison ePoison (s.ctl c).pc (s.ctl c).pc := by
  simp only [State.instrIf, hb, Bool.not_true, Bool.and_false, Bool.false_eq_true, if_false]; exact State.instr_poison h hb

theorem State.instr_off {s : State} {c : Nat} {g : Guard} {w : W32} {f : Ctl → State} (h : s.ctlOn c = false) : s.instr c g w f = s := by
  simp [State.instr, h]

theorem State.instrIf_off {s : State} {c : Nat} {g : Guard} {w : W32} {ok : Bool} {f : Ctl → State} (h : s.ctlOn c = false) :
    s.instrIf c g w ok f = s := by simp [State.instrIf, h, State.instr]

theorem State.goes_waiting {s : State} {c : Nat} {g : Guard} (h : s.goes c g = true) : (s.ctl c).waiting = none := by
  have h1 := (State.goes_parts h).1
  simp only [State.ctlOn, Bool.and_eq_true, Option.isNone_iff_eq_none] at h1
  exact h1.1.2

theorem State.jump_target (s : State) (c : Nat) (k k' : Ctl) (t : W64) : s.jump c k k' t = match s.target c t with
    | none => s.setCtl c { k' with pc := t }
    | some x => s.takeException c x eRange k.pc t := by
  unfold State.jump State.target
  by_cases h : t.toNat % 4 = 0
  · cases h2 : inImem c t <;> simp [h, h2]
  · simp [h]

theorem fire_ctl (s : State) (n : Nat) (c : Nat) : (s.fire n).ctl c = s.ctl c := by
  have h := State.fire_same s n
  simp [State.ctl, h]

theorem fire_irqCause (s : State) (n : Nat) (c : Nat) : (s.fire n).irqCause c = s.irqCause c := by
  have h := State.fire_same s n
  simp [State.irqCause, h]

theorem log_cores (s : State) (a b d : Nat) (v : Option Nat) (e f : Nat) : (s.log a b d v e f).cores = s.cores := by
  have h := State.log_same s a b d v e f
  simp [h]

theorem raiseCore_ctl (s : State) (c b d : Nat) : (s.raiseCore c b).ctl d = s.ctl d := by
  unfold State.raiseCore
  dsimp only
  split
  · rfl
  · split
    · rw [fire_ctl]; rfl
    · rfl

theorem raiseCore_cause (s : State) (c b : Nat) : (s.raiseCore c b).irqCause c = s.irqCause c ||| (1#6 <<< b) := by
  unfold State.raiseCore
  dsimp only
  split
  · simp
  · split
    · rw [fire_irqCause]; simp
    · simp

theorem log_ctl (s : State) (a b d : Nat) (v : Option Nat) (e f : Nat) (c : Nat) : (s.log a b d v e f).ctl c = s.ctl c := by
  simp only [State.ctl, log_cores]

theorem State.haltCore_ctl (s : State) (c : Nat) (r : BitVec 8) (h1 : c ≠ mgmtCore) :
    (s.haltCore c r).ctl c = { s.ctl c with run := .halted, haltReason := r, waiting := none } ∧ (∀ d, d ≠ c → (s.haltCore c r).ctl d = s.ctl d) ∧
    ((s.haltCore c r).irqCause c).getLsbD 0 = true := by
  unfold State.haltCore
  dsimp only
  rw [if_neg h1]
  refine ⟨?_, fun d hd => ?_, ?_⟩
  · rw [log_ctl, raiseCore_ctl]
    split
    · simp [State.modTrace, State.setTrace, State.ctl, State.modCtl, State.setCtl, Table.get_put_self]
    · simp [State.modCtl]
  · rw [log_ctl, raiseCore_ctl]
    split
    · simp [State.modTrace, State.setTrace, State.ctl, State.modCtl, State.setCtl, Table.get_put_other _ _ _ _ _ hd]
    · simp [State.modCtl, State.ctl_setCtl_other _ _ _ _ hd]
  · have e : ∀ (u : State) a b d v e f, (u.log a b d v e f).irqCause c = u.irqCause c := by intro u a b d v e f; simp only [State.irqCause, log_cores]
    rw [e, raiseCore_cause]; simp [causeHalted]

theorem get_map {α : Type} (d : α) (f : α → α) (t : Table α) (n : Nat) : Table.get d (t.map (fun p => (p.1, f p.2))) n = (if t.any (fun p => p.1 == n) then f (Table.get d t n) else d) := by
  induction t with
  | nil => rfl
  | cons a t ih =>
    obtain ⟨k, v⟩ := a
    simp only [List.map_cons, Table.get, List.any_cons]
    by_cases h : k = n
    · simp [h]
    · simp only [if_neg h, ih, beq_eq_false_iff_ne.mpr h, Bool.false_or]

theorem get_absent {α : Type} (d : α) (t : Table α) (n : Nat) (h : t.any (fun p => p.1 == n) = false) : Table.get d t n = d := by
  induction t with
  | nil => rfl
  | cons a t ih => obtain ⟨k, v⟩ := a; simp only [List.any_cons, Bool.or_eq_false_iff, beq_eq_false_iff_ne] at h; simp [Table.get, h.1, ih h.2]

theorem assign_pending (s : State) (x : IrqSrc) : (s.assignSrc x).pending = x.pending := by
  unfold State.assignSrc; (repeat' split) <;> rfl

theorem settle_pending (s : State) (l : Bool) (n : Nat) : ((s.irqSettle l).irqSrc n).pending = (s.irqSrc n).pending := by
  have h : ∀ u : State, u.hub.srcs = s.hub.srcs.map (fun p => (p.1, s.assignSrc p.2)) → (u.irqSrc n).pending = (s.irqSrc n).pending := by
    intro u hu
    simp only [State.irqSrc, hu, get_map]
    split
    · exact assign_pending _ _
    · rename_i h; rw [get_absent _ _ _ (Bool.eq_false_iff.mpr h)]
  unfold State.irqSettle
  dsimp only
  split <;> exact h _ rfl

theorem watch_src (s : State) (m n : Nat) : ((s.watchEvent m).irqSrc n) = s.irqSrc n := by
  have hf : ∀ (l : List Nat) (u : State) , ((l.foldl (fun s i => s.modWakeSel i (fun w => { w with latch := true })) u).irqSrc n) = u.irqSrc n := by
    intro l; induction l with
    | nil => intro u; rfl
    | cons a t ih => intro u; rw [List.foldl_cons, ih]; rfl
  unfold State.watchEvent
  dsimp only
  split
  · rfl
  · split
    · exact hf _ _
    · exact hf _ _

theorem fire_mono (s : State) (m n : Nat) (h : (s.irqSrc n).pending = true) : ((s.fire m).irqSrc n).pending = true := by
  unfold State.fire
  split
  · exact h
  split
  · rw [watch_src]; exact h
  · dsimp only; rw [settle_pending]
    by_cases hn : n = m
    · subst hn; simp
    · simp [State.modIrqSrc, State.irqSrc_setIrqSrc_other _ _ _ _ hn, h]

theorem fire_self (s : State) (n : Nat) (h4 : s.pwr.on = true) (h5 : s.pwr.off = false) (h6 : s.pwr.asleep = false) : ((s.fire n).irqSrc n).pending = true := by
  unfold State.fire
  simp only [h4, h5, h6, Bool.not_true, Bool.or_self, Bool.false_eq_true, if_false, Bool.false_and]
  rw [settle_pending]; simp

theorem report_src (s : State) (r : Report) (n : Nat) (h : (s.irqSrc n).pending = true) : ((s.report r).irqSrc n).pending = true := by
  have hh : ∀ r', (s.hub.hold r').srcs = s.hub.srcs := by intro r'; unfold Hub.hold; split <;> rfl
  unfold State.report
  dsimp only
  split
  · split
    · exact fire_mono _ _ _ h
    · exact h
  · have e : ∀ b, (({ s with hub := { s.hub.hold r with logOvf := b } } : State).irqSrc n).pending = true := by
      intro b; simp only [State.irqSrc, hh]; exact h
    split
    · exact fire_mono _ _ _ (e _)
    · exact e _

theorem State.haltCore_reports (s : State) (c n : Nat) (r : BitVec 8) (h1 : c ≠ mgmtCore) (h2 : (s.irqCause c).getLsbD 0 = false) (h3 : s.coreSource c = some n)
   (h4 : s.pwr.on = true) (h5 : s.pwr.off = false) (h6 : s.pwr.asleep = false) : ((s.haltCore c r).irqSrc n).pending = true := by
  have key : ∀ u : State, u.irqCause c = s.irqCause c → (∀ x, (u.setIrqCause c x).coreSource c = s.coreSource c) → u.pwr = s.pwr → ((u.raiseCore c causeHalted).irqSrc n).pending = true := by
    intro u e1 e5 e4
    unfold State.raiseCore
    dsimp only
    rw [e1, show causeHalted = 0 from rfl, h2]
    rw [h3] at e5
    simp only [Bool.false_eq_true, if_false, e5]
    apply fire_self
    · simp [State.setIrqCause, e4, h4]
    · simp [State.setIrqCause, e4, h5]
    · simp [State.setIrqCause, e4, h6]
  unfold State.haltCore
  dsimp only
  rw [if_neg h1]
  unfold State.log
  apply report_src
  split
  · apply key <;> intros <;> rfl
  · apply key <;> intros <;> rfl

theorem State.mfence_waits (s : State) (c : Nat) (g : Guard) (h : s.goes c g = true) (h2 : (s.ctl c).strOut ≠ 0) :
   Does (.mfence c g) s (fun t => t.ctl c = { s.ctl c with waiting := some .mfence } ∧ (∀ d, d ≠ c → t.ctl d = s.ctl d)) := by
  have e : ∀ u : State, (u.ctl c).waiting.isSome = true → u.stepOver c = u := by
    intro u hu; unfold State.stepOver; dsimp only; rw [hu]; simp
  have f : ∀ (u : State) d, (u.detBreakCore c 5).ctl d = u.ctl d := by intro u d; have := State.detBreakCore_same u c 5; simp [State.ctl, this]
  refine ⟨_, by simp only [exec, execMfence, State.instr_goes _ _ h, if_neg h2]; rfl, ?_⟩
  rw [e]
  · constructor
    · split <;> simp [f]
    · intro d hd; split <;> simp [f, State.ctl_setCtl_other _ _ _ _ hd]
  · split <;> simp [f]

theorem Table.put_put {α : Type} (t : Table α) (i : Nat) (x y : α) : (t.put i x).put i y = t.put i y := by
  induction t with
  | nil => simp [Table.put]
  | cons a t ih =>
    obtain ⟨k, v⟩ := a
    simp only [Table.put]
    split
    · simp [Table.put]
    · split
      · simp [Table.put]
      · rename_i h1 h2; simp [Table.put, h1, h2, ih]

theorem State.setCtl_setCtl (s : State) (c : Nat) (x y : Ctl) : (s.setCtl c x).setCtl c y = s.setCtl c y := by
  simp [State.setCtl, Table.put_put]

theorem stepOver_held (u : State) (c : Nat) (h : (u.ctl c).ldr.isSome = true) : u.stepOver c = u := by
  unfold State.stepOver; simp [h]

theorem fire_out (s : State) (n : Nat) : ∃ l, (s.fire n).out = s.out ++ l := by
  unfold State.fire
  split
  · exact ⟨[], by simp⟩
  split
  · exact ⟨[], by simp⟩
  · unfold State.irqSettle
    dsimp only
    split
    · exact ⟨_, rfl⟩
    · exact ⟨[], by simp [State.modIrqSrc, State.setIrqSrc]⟩

theorem detBreakCore_out (s : State) (c n : Nat) : ∃ l, (s.detBreakCore c n).out = s.out ++ l := by
  unfold State.detBreakCore
  split
  · unfold State.detBreak
    dsimp only
    split
    · exact ⟨[], by simp⟩
    · split
      · exact fire_out _ _
      · exact ⟨[], by simp [State.modVat, State.setVat]⟩
  · exact ⟨[], by simp⟩

theorem ldrIssue_sends (s : State) (c n : Nat) (rd : Reg) (a : W64) (h : s.devFault c a n false = none) (k : Ctl) :
   let t := (s.ldrIssue c k rd a n).stepOver c
   t.ctl c = { k with ldr := some { rd := rd, size := n, addr := a } } ∧ (∀ d, d ≠ c → t.ctl d = s.ctl d) ∧
        (a.toNat < remoteBase → .readReq c a.toNat n (s.meshTo c a.toNat) ∈ t.out) ∧ Only [.cores, .vats, .hub, .span, .out, .pwr] s t := by
  have e1 : (s.ldrIssue c k rd a n).cores = (s.setCtl c { k with ldr := some { rd := rd, size := n, addr := a } }).cores := by
    unfold State.ldrIssue; rw [h]; dsimp only; split <;> simp
  have e2 : (s.ldrIssue c k rd a n).ctl c = { k with ldr := some { rd := rd, size := n, addr := a } } := by
    have := State.ctl_setCtl s c { k with ldr := some { rd := rd, size := n, addr := a } }
    simp only [State.ctl, e1] at *; exact this
  intro t
  have e3 : t = s.ldrIssue c k rd a n := stepOver_held _ _ (by rw [e2]; rfl)
  rw [e3]
  refine ⟨e2, fun d hd => ?_, fun hr => ?_, ?_⟩
  · have := State.ctl_setCtl_other s c d { k with ldr := some { rd := rd, size := n, addr := a } } hd
    simp only [State.ctl, e1] at *; exact this
  · have e4 : ((s.setCtl c { k with ldr := some { rd := rd, size := n, addr := a } }).devRead c a.toNat n (.ldr c a.toNat n) (.readReq c a.toNat n (s.meshTo c a.toNat))).out = s.out ++ [.readReq c a.toNat n (s.meshTo c a.toNat)] := by
      unfold State.devRead; rw [if_neg (by omega)]; rfl
    unfold State.ldrIssue; rw [h]; dsimp only
    split
    · obtain ⟨l, hl⟩ := detBreakCore_out ((s.setCtl c { k with ldr := some { rd := rd, size := n, addr := a } }).devRead c a.toNat n (.ldr c a.toNat n) (.readReq c a.toNat n (s.meshTo c a.toNat))) c 5
      rw [hl, e4]; simp
    · rw [e4]; simp
  · unfold State.ldrIssue; rw [h]; dsimp only
    split <;> (intro p hp; cases p <;> first | (exfalso; simp at hp; done) | (simp [Part.same]; done))

theorem State.ldr_sends (s : State) (c : Nat) (g : Guard) (rd rs1 : Reg) (imm : BitVec 10) (h1 : s.goes c g = true) :
  ∀ n ∈ [4, 8], let k := s.ctl c; let a := k.ea rs1 imm n; let i := if n = 4 then Instr.ldrW c g rd rs1 imm else .ldrD c g rd rs1 imm
    match s.devFault c a n false with
    | some (x, st) => exec i s = s.raises c x st k.pc a
    | none => Does i s (fun t => t.ctl c = { k with ldr := some { rd := rd, size := n, addr := a } } ∧ (∀ d, d ≠ c → t.ctl d = s.ctl d) ∧
        (a.toNat < remoteBase → .readReq c a.toNat n (s.meshTo c a.toNat) ∈ t.out) ∧ Only [.cores, .vats, .hub, .span, .out, .pwr] s t) := by
  intro n hn k a i
  have hi : exec i s = .next ((s.ldrIssue c k rd a n).stepOver c) := by
    rcases List.mem_cons.mp hn with rfl | hn
    · simp [i, exec, execLdrW, State.ldrSend, State.instr_goes _ _ h1, k, a]
    · rcases List.mem_singleton.mp hn with rfl
      simp [i, exec, execLdrD, State.ldrSend, State.instr_goes _ _ h1, k, a]
  split
  · rename_i x st h; rw [hi, State.ldrIssue, h]; rfl
  · rename_i h; exact ⟨_, hi, ldrIssue_sends s c n rd a h k⟩

theorem noteCoreWrite_out (s : State) (c a : Nat) (l : List Byte) (f : Nat → Bool) : (s.noteCoreWrite c a l f).out = s.out := by simp

theorem strIssue_sends (s : State) (c n : Nat) (rs2 : Reg) (a : W64) (h : s.devFault c a n true = none) (k : Ctl) :
   let u := s.strIssue c k rs2 a n
   u.ctl c = { k with strOut := k.strOut + 1, strAsync := k.strAsync + b2n (targetAsync (targetOf a.toNat)) }.adv ∧ (∀ d, d ≠ c → u.ctl d = s.ctl d) ∧
        (a.toNat < remoteBase → u.out = s.out ++ [.writeReq c a.toNat (leBytes n (k.rg rs2).toNat) (s.meshTo c a.toNat)]) ∧ Only [.cores, .vats, .hub, .span, .out, .pwr] s u := by
  have e1 : (s.strIssue c k rs2 a n).cores = (s.setCtl c { k with strOut := k.strOut + 1, strAsync := k.strAsync + b2n (targetAsync (targetOf a.toNat)) }.adv).cores := by
    unfold State.strIssue; rw [h]; dsimp only; simp
  intro u
  refine ⟨?_, fun d hd => ?_, fun hr => ?_, ?_⟩
  · have := State.ctl_setCtl s c { k with strOut := k.strOut + 1, strAsync := k.strAsync + b2n (targetAsync (targetOf a.toNat)) }.adv
    simp only [State.ctl, e1, u] at *; exact this
  · have := State.ctl_setCtl_other s c d { k with strOut := k.strOut + 1, strAsync := k.strAsync + b2n (targetAsync (targetOf a.toNat)) }.adv hd
    simp only [State.ctl, e1, u] at *; exact this
  · simp only [u]
    unfold State.strIssue; rw [h]; dsimp only
    rw [noteCoreWrite_out]; unfold State.devWrite; rw [if_neg (by omega)]; rfl
  · simp only [u]; unfold State.strIssue; rw [h]; dsimp only; (intro p hp; cases p <;> first | (exfalso; simp at hp; done) | (simp [Part.same]; done))

theorem State.str_sends (s : State) (c : Nat) (g : Guard) (rs2 rs1 : Reg) (imm : BitVec 10) (h1 : s.goes c g = true) :
  ∀ n ∈ [4, 8], let k := s.ctl c; let a := k.ea rs1 imm n; let i := if n = 4 then Instr.strW c g rs2 rs1 imm else .strD c g rs2 rs1 imm
    match s.devFault c a n true with
    | some (x, st) => exec i s = s.raises c x st k.pc a
    | none => ∃ u, exec i s = .next (u.stepOver c) ∧ u.ctl c = { k with strOut := k.strOut + 1, strAsync := k.strAsync + b2n (targetAsync (targetOf a.toNat)) }.adv ∧ (∀ d, d ≠ c → u.ctl d = s.ctl d) ∧
        (a.toNat < remoteBase → u.out = s.out ++ [.writeReq c a.toNat (leBytes n (k.rg rs2).toNat) (s.meshTo c a.toNat)]) ∧ Only [.cores, .vats, .hub, .span, .out, .pwr] s u := by
  intro n hn k a i
  have hi : exec i s = .next ((s.strIssue c k rs2 a n).stepOver c) := by
    rcases List.mem_cons.mp hn with rfl | hn
    · simp [i, exec, execStrW, State.strSend, State.instr_goes _ _ h1, k, a]
    · rcases List.mem_singleton.mp hn with rfl
      simp [i, exec, execStrD, State.strSend, State.instr_goes _ _ h1, k, a]
  split
  · rename_i x st h; rw [hi, State.strIssue, h]; rfl
  · rename_i h; exact ⟨_, hi, strIssue_sends s c n rs2 a h k⟩

end Sys2Proof.Machine
end

