-- ==== Sys2Proof/Laws/Ways2.lean ====
section
/-! SUPPORT. Once each, what the shared operations and the commands over them do: engine queues, descriptor entries and ISSUE (R114-R116, R98). -/

namespace Sys2Proof.Machine

theorem fire_cores (s : State) (n : Nat) : (s.fire n).cores = s.cores := by have h := State.fire_same s n; simp [h]

theorem raiseCore_keeps (s : State) (c b : Nat) : (s.raiseCore c b).cores.ctls = s.cores.ctls ∧ (s.raiseCore c b).cores.queues = s.cores.queues ∧ (s.raiseCore c b).cores.spads = s.cores.spads := by
  unfold State.raiseCore
  dsimp only
  split
  · exact ⟨rfl, rfl, rfl⟩
  · split
    · rw [fire_cores]; exact ⟨rfl, rfl, rfl⟩
    · exact ⟨rfl, rfl, rfl⟩

theorem sramError_keeps (s : State) (c a i : Nat) : (s.sramError c a i).cores.ctls = s.cores.ctls ∧ (s.sramError c a i).cores.queues = s.cores.queues := by
  have h := raiseCore_keeps s c causeSramUe
  have hp : ∀ (u : State) v e f, (u.poisonOrigin v e f).cores = u.cores := by intro u v e f; simp
  unfold State.sramError
  dsimp only
  split
  · rw [hp, log_cores]; exact ⟨h.1, h.2.1⟩
  · rw [log_cores]; exact ⟨h.1, h.2.1⟩

theorem noteWord_keeps (ue ce : NSet) (c a : Nat) (s : State) (i : Nat) : (State.noteWord ue ce c a s i).cores.ctls = s.cores.ctls ∧ (State.noteWord ue ce c a s i).cores.queues = s.cores.queues := by
  unfold State.noteWord
  dsimp only
  split
  · have h := fun a' i' => sramError_keeps (s.modSpad c fun y => { y with eccUnc := satAdd top16 y.eccUnc 1 }) c a' i'
    exact h _ _
  · split
    · rw [log_cores]; exact ⟨rfl, rfl⟩
    · exact ⟨rfl, rfl⟩

theorem noteRead_keeps (s : State) (c a n : Nat) : (s.noteRead c a n).cores.ctls = s.cores.ctls ∧ (s.noteRead c a n).cores.queues = s.cores.queues := by
  have hf : ∀ (l : List Nat) ue ce (u : State), (l.foldl (State.noteWord ue ce c a) u).cores.ctls = u.cores.ctls ∧ (l.foldl (State.noteWord ue ce c a) u).cores.queues = u.cores.queues := by
    intro l ue ce
    induction l with
    | nil => intro u; exact ⟨rfl, rfl⟩
    | cons x t ih => intro u; have h := ih (State.noteWord ue ce c a u x); have h2 := noteWord_keeps ue ce c a u x; exact ⟨h.1.trans h2.1, h.2.trans h2.2⟩
  unfold State.noteRead
  dsimp only
  split
  · exact ⟨rfl, rfl⟩
  · exact hf _ _ _ _

theorem queue_of {s u : State} (h : u.cores.queues = s.cores.queues) (c q : Nat) : u.queue c q = s.queue c q := by simp only [State.queue, h]

theorem ctl_of {s u : State} (h : u.cores.ctls = s.cores.ctls) (c : Nat) : u.ctl c = s.ctl c := by simp only [State.ctl, h]

theorem issueEnd_does (s r : State) (c q : Nat) (src : Option Nat) (nb : Option (BitVec 3)) (m : W256) (hr : r.cores.queues = s.cores.queues) (hc : r.cores.ctls = s.cores.ctls)
    (ho : Only [.cores, .net, .vats, .hub, .out, .pwr] s r) (k : Ctl) :
    let u := ((r.setCtl c k).modQueue c q (fun x => { x with entries := x.entries ++ [m] })).traceRec c q 0 (mMop m) 0 (m.toNat % 2 ^ 128)
    u.ctl c = k ∧ s.queued c q m u := by
  intro u
  have e : u.cores = ((r.setCtl c k).modQueue c q (fun x => { x with entries := x.entries ++ [m] })).cores := by simp [u]
  refine ⟨?_, ?_, fun d p hd => ?_, fun d hd => ?_, ?_⟩
  · rw [ctl_of (congrArg Cores.ctls e)]; simp
  · rw [queue_of (congrArg Cores.queues e)]; simp [State.modQueue, queue_of hr]
  · rw [queue_of (congrArg Cores.queues e)]
    have := Table.get_put_other ({} : EngQ) (r.setCtl c k).cores.queues (8 * c + q) (8 * d + p) { (r.setCtl c k).queue c q with entries := ((r.setCtl c k).queue c q).entries ++ [m] } hd
    simp only [State.modQueue, State.setQueue, State.queue] at *
    rw [this]; simp [State.setCtl, hr]
  · rw [ctl_of (congrArg Cores.ctls e)]
    show (r.setCtl c k).ctl d = _
    rw [State.ctl_setCtl_other _ _ _ _ hd, ctl_of hc]
  · intro p hp
    have := ho p hp
    cases p <;> first | (exfalso; simp at hp; done) | (simp [Part.same, u] at *; exact this) 

theorem only_refl (l : List Part) (s : State) : Only l s s := by intro p hp; cases p <;> simp [Part.same]

theorem live_waiting {s : State} {c : Nat} {g : Guard} (h : s.goes c g = true) (k : Ctl) (hk : k = s.ctl c) : ({ k with waiting := none } : Ctl) = s.ctl c := by
  subst hk; have := State.goes_waiting h; rw [← this]

theorem State.issueB_does (s : State) (c : Nat) (g : Guard) (q : BitVec 4) (nb : Bool) (pd : BitVec 3) (h1 : s.goes c g = true) (h2 : q.toNat ≤ 6) (h3 : c ≠ mgmtCore) (h4 : nb = true ∨ pd = 0)
   (h5 : headerOk (s.ctl c).ibuf = true) (h6 : layoutOk (s.ctl c).ibuf = true) :
   let k := s.ctl c
    if s.qFree c q.toNat = 0 then exec (.issueB c g q nb pd) s = if nb then s.ends c (k.wp pd false).adv else s.ends c { k with waiting := some (.issueB q.toNat) }
    else ∃ u, exec (.issueB c g q nb pd) s = .next (u.stepOver c) ∧ u.ctl c = (if nb then k.wp pd true else k).adv ∧ s.queued c q.toNat k.ibuf u := by
  intro k
  have hi : (c == mgmtCore) = false := by simp [h3]
  have hf0 : issueForm q nb pd = true := by rcases h4 with h | h <;> simp [issueForm, h, h2]
  have ex : exec (.issueB c g q nb pd) s = .next ((s.issue c q nb pd none (encQ 0x71 g q nb 0 pd 0)).stepOver c) := by
    simp only [exec, execIssueB, State.instrIf_goes _ _ _ h1, hf0, if_true]
  rw [ex]
  split
  · rename_i hf
    simp only [State.issue, hi, hf, State.ends]
    cases nb <;> simp [k]
  · rename_i hf
    have e : s.issue c q nb pd none (encQ 0x71 g q nb 0 pd 0) = s.issueEnd c q.toNat none (if nb then some pd else none) := by
      simp only [State.issue, hi, if_neg hf]; simp
    rw [e]
    refine ⟨_, rfl, ?_⟩
    have hw := live_waiting h1 _ rfl
    have := issueEnd_does s s c q.toNat none none k.ibuf rfl rfl (only_refl _ _) ((if nb then k.wp pd true else k).adv)
    simp only [State.issueEnd, hw, h5, h6] at *
    cases nb <;> simpa [k] using this

theorem noteRead_only (s : State) (c a n : Nat) : Only [.cores, .net, .vats, .hub, .out, .pwr] s (s.noteRead c a n) := by (intro p hp; cases p <;> first | (exfalso; simp at hp; done) | (simp [Part.same]; done))

theorem State.issue_does (s : State) (c : Nat) (g : Guard) (q : BitVec 4) (nb : Bool) (rs1 : Reg) (pd : BitVec 3) (imm : BitVec 7) (a : Nat) (m : W256)
   (h1 : s.goes c g = true) (h2 : q.toNat ≤ 6) (h3 : c ≠ mgmtCore) (h4 : nb = true ∨ pd = 0) (ha : a = ((s.ctl c).rg rs1 + imm.setWidth 64 * 32).toNat) (ha1 : a % 32 = 0) (ha2 : a < 0x80000)
   (hb : (s.spad c).bad a 32 = false) (hm : m = BitVec.ofNat 256 ((s.spad c).nat a 32)) (h5 : headerOk m = true) (h6 : layoutOk m = true) :
   let k := s.ctl c; let i := Instr.issue c g q nb rs1 pd imm
    if s.qFree c q.toNat = 0 then exec i s = if nb then s.ends c (k.wp pd false).adv else s.ends c { k with waiting := some (.issue q.toNat a) }
    else ∃ u, exec i s = .next (u.stepOver c) ∧ u.ctl c = (if nb then k.wp pd true else k).adv ∧ s.queued c q.toNat m u := by
  intro k i
  have hi : (c == mgmtCore) = false := by simp [h3]
  have hf0 : issueForm q nb pd = true := by rcases h4 with h | h <;> simp [issueForm, h, h2]
  have ex : exec i s = .next ((s.issue c q nb pd (some ((s.ctl c).rg rs1 + zext64 imm * 32)) (encQ 0x70 g q nb rs1 pd imm)).stepOver c) := by
    simp only [i, exec, execIssue, State.instrIf_goes _ _ _ h1, hf0, if_true]
  rw [ex]
  have hz : ((s.ctl c).rg rs1 + zext64 imm * 32).toNat = a := ha.symm
  have ha2' : ¬ spadSize ≤ a := by simp only [spadSize]; omega
  split
  · rename_i hf
    simp only [State.issue, hi, hf, State.ends, hz, ha1, ha2']
    cases nb <;> simp [k]
    all_goals simp [ha2']
  · rename_i hf
    have e : s.issue c q nb pd (some ((s.ctl c).rg rs1 + zext64 imm * 32)) (encQ 0x70 g q nb rs1 pd imm) = s.issueEnd c q.toNat (some a) (if nb then some pd else none) := by
      simp only [State.issue, hi, if_neg hf, hz, ha1]; simp [ha2']; rw [← hz]; simp
    rw [e]
    refine ⟨_, rfl, ?_⟩
    have hw := live_waiting h1 _ rfl
    have hk := noteRead_keeps s c a 32
    have := issueEnd_does s (s.noteRead c a 32) c q.toNat none none m hk.2 hk.1 (noteRead_only _ _ _ _) ((if nb then k.wp pd true else k).adv)
    subst hm
    simp only [State.issueEnd, hw, h5, h6, hb] at *
    cases nb <;> simpa [k] using this

theorem State.issueReserve_does (s : State) (c q : Nat) (src : Option Nat) (m : W256) :
   (s.ctl c).waiting = (match src with | some a => some (.issue q a) | none => some (.issueB q)) → (s.ctl c).live = true → s.vatLets c = true → s.qFree c q ≠ 0 →
   (match src with | some a => (s.spad c).bad a 32 = false ∧ m = BitVec.ofNat 256 ((s.spad c).nat a 32) | none => m = (s.ctl c).ibuf) → headerOk m = true → layoutOk m = true →
   ∃ u, exec (.issueReserve c) s = .next (u.stepOver c) ∧ u.ctl c = { s.ctl c with waiting := none }.adv ∧ s.queued c q m u := by
  intro hw hl hv hq hm h5 h6
  cases src with
  | none =>
    have e : exec (.issueReserve c) s = .next ((s.issueEnd c q none none).stepOver c) := by
      simp only [exec, execIssueReserve, hw, hl, hv]; simp [hq]
    refine ⟨_, e, ?_⟩
    have := issueEnd_does s s c q none none m rfl rfl (only_refl _ _) ({ s.ctl c with waiting := none }.adv)
    subst hm
    have hib : ({ s.ctl c with waiting := none } : Ctl).ibuf = (s.ctl c).ibuf := rfl
    simp only [State.issueEnd, hib, h5, h6]
    simpa using this
  | some a =>
    have e : exec (.issueReserve c) s = .next ((s.issueEnd c q (some a) none).stepOver c) := by
      simp only [exec, execIssueReserve, hw, hl, hv]; simp [hq]
    refine ⟨_, e, ?_⟩
    have hk := noteRead_keeps s c a 32
    have := issueEnd_does s (s.noteRead c a 32) c q none none m hk.2 hk.1 (noteRead_only _ _ _ _) ({ s.ctl c with waiting := none }.adv)
    obtain ⟨hb, hm⟩ := hm
    subst hm
    simp only [State.issueEnd, h5, h6, hb]
    simpa using this

theorem State.ibins_does (s : State) (c : Nat) (g : Guard) (ib : BitVec 2) (pos lenm1 : BitVec 6) (rs1 : Reg) (h1 : s.goes c g = true) (h2 : pos.toNat + lenm1.toNat + 1 ≤ 64) (h3 : c ≠ mgmtCore) :
  let k := s.ctl c; let w := insertField (k.ib ib) pos.toNat (lenm1.toNat + 1) (k.rg rs1)
    exec (.ibins c g ib pos lenm1 rs1) s = s.ends c (k.setIb ib w).adv ∧
    ∀ j, j < 64 → w.getLsbD j = if pos.toNat ≤ j ∧ j ≤ pos.toNat + lenm1.toNat then (k.rg rs1).getLsbD (j - pos.toNat) else (k.ib ib).getLsbD j := by
  intro k w
  constructor
  · have : ¬ (pos.toNat + lenm1.toNat + 1 > 64) := by omega
    simp [exec, execIbins, State.instrIf_goes _ _ _ h1, h2, h3, State.ends, k, w]
  · intro j hj
    have hmask : (BitVec.ofNat 64 ((2 ^ (lenm1.toNat + 1) - 1) <<< pos.toNat)).getLsbD j = decide (pos.toNat ≤ j ∧ j ≤ pos.toNat + lenm1.toNat) := by
      simp only [BitVec.getLsbD_ofNat, hj, decide_true, Bool.true_and, Nat.testBit_shiftLeft, Nat.testBit_two_pow_sub_one]
      by_cases h : pos.toNat ≤ j <;> simp [h]; try omega
    have hw : w = insertField (k.ib ib) pos.toNat (lenm1.toNat + 1) (k.rg rs1) := rfl
    rw [hw]
    generalize k.ib ib = x
    generalize k.rg rs1 = y
    unfold insertField
    simp only [BitVec.getLsbD_or, BitVec.getLsbD_and, BitVec.getLsbD_not, hmask, BitVec.getLsbD_shiftLeft, hj, decide_true, Bool.true_and]
    by_cases h : pos.toNat ≤ j ∧ j ≤ pos.toNat + lenm1.toNat
    · have : ¬ j < pos.toNat := by omega
      simp [h, this]
    · simp [h]

theorem State.qctl_does (s : State) (c q : Nat) (h1 : (s.queue c q).halted = true) (h2 : q ≤ 6) :
  let x := s.queue c q;
    Does (.qctlRetry c q) s (fun t => t.queue c q = { x with halted := false } ∧ (∀ d p, 8 * d + p ≠ 8 * c + q → t.queue d p = s.queue d p) ∧ t.cores.ctls = s.cores.ctls ∧ Only [.cores] s t) ∧
    Does (.qctlDrop c q) s (fun t => t.queue c q = (match x.held with | some _ => { x with held := x.held2, held2 := none, halted := false } | none => { x with entries := x.entries.tail, halted := false }) ∧
      (∀ d p, 8 * d + p ≠ 8 * c + q → t.queue d p = s.queue d p) ∧ t.cores.ctls = s.cores.ctls ∧ Only [.cores] s t) := by
  intro x
  have hm : ∀ (f : EngQ → EngQ) d p, 8 * d + p ≠ 8 * c + q → (s.modQueue c q f).queue d p = s.queue d p := by
    intro f d p hd
    exact Table.get_put_other _ _ _ _ _ hd
  have hs : ∀ (u : State) e f d p, (u.modSe c e f).queue d p = u.queue d p := fun _ _ _ _ _ => rfl
  constructor
  · refine ⟨_, rfl, ?_⟩
    simp only [State.qRetry, h1, if_true]
    refine ⟨by (rw [hs]; simp [x]), fun d p hd => by (rw [hs]; exact hm _ _ _ hd), rfl, by (intro p hp; cases p <;> first | (exfalso; simp at hp; done) | (simp [Part.same]; done))⟩
  · refine ⟨_, rfl, ?_⟩
    simp only [State.qDrop, h1, if_true]
    split
    · refine ⟨by (rw [hs]; simp only [State.queue_modQueue, EngQ.pop, x]; (cases hh : (s.queue c q).held <;> simp_all)), fun d p hd => by (rw [hs]; exact hm _ _ _ hd), rfl, by (intro p hp; cases p <;> first | (exfalso; simp at hp; done) | (simp [Part.same]; done))⟩
    · refine ⟨by (simp only [State.queue_modQueue, EngQ.pop, x]; (cases hh : (s.queue c q).held <;> simp_all)), fun d p hd => hm _ _ _ hd, rfl, by (intro p hp; cases p <;> first | (exfalso; simp at hp; done) | (simp [Part.same]; done))⟩

end Sys2Proof.Machine
end

