-- ==== Sys2Proof/Laws/Ways3.lean ====
section
/-! SUPPORT. Once each, what the shared operations and the commands over them do: sync counters, watches and the records they make (R265-R277). -/

namespace Sys2Proof.Machine

theorem log_net (s : State) (a b d : Nat) (v : Option Nat) (e f : Nat) : (s.log a b d v e f).net = s.net := by simp

theorem syncErr_keeps (s : State) (a : Nat) (u : Bool) : (s.syncErr a u).cores = s.cores ∧ (s.syncErr a u).net.ctrs = s.net.ctrs ∧ (s.syncErr a u).net.watches = s.net.watches := by
  unfold State.syncErr; dsimp only; split <;> simp

theorem syncErr_over (s : State) (a : Nat) : (s.syncErr a false).net.errOvf.get 0 (ctrNode a) = satAdd top16 (s.net.errOvf.get 0 (ctrNode a)) 1 := by
  unfold State.syncErr; dsimp only; rw [log_net]; simp [Table.get_put_self]

theorem syncErr_under (s : State) (a : Nat) : (s.syncErr a true).net.errUnf.get 0 (ctrNode a) = satAdd top16 (s.net.errUnf.get 0 (ctrNode a)) 1 := by
  unfold State.syncErr; dsimp only; rw [log_net]; simp [Table.get_put_self]

theorem ctr_of {s u : State} (h : u.net.ctrs = s.net.ctrs) (a : Nat) : u.ctr a = s.ctr a := by simp only [State.ctr, h]

theorem State.addCtr_does (s : State) (a n : Nat) : let t := s.addCtr a n;
    t.ctr a = min (s.ctr a + n) 0xFFFFFFFF ∧ (∀ b, b ≠ a → t.ctr b = s.ctr b) ∧ t.cores.ctls = s.cores.ctls ∧ t.cores.queues = s.cores.queues ∧
    (s.ctr a + n ≤ 0xFFFFFFFF → Only [.net] s t ∧ t.net.errOvf = s.net.errOvf) ∧
    (0xFFFFFFFF < s.ctr a + n → t.net.errOvf.get 0 (ctrNode a) = min 0xFFFF (s.net.errOvf.get 0 (ctrNode a) + 1)) := by
  intro t
  by_cases h : s.ctr a + n ≤ top32
  · have e : t = s.setCtr a (s.ctr a + n) := by simp [t, State.addCtr, h]
    simp only [top32] at h
    rw [e]
    refine ⟨by simp; omega, fun b hb => State.ctr_setCtr_other _ _ _ _ hb, rfl, rfl, fun _ => ⟨by (intro p hp; cases p <;> first | (exfalso; simp at hp; done) | (simp [Part.same]; done)), rfl⟩, fun h2 => by omega⟩
  · have e : t = (s.setCtr a top32).syncErr a false := by simp [t, State.addCtr, h]
    simp only [top32] at h
    rw [e]
    have k := syncErr_keeps (s.setCtr a top32) a false
    refine ⟨?_, fun b hb => ?_, by rw [k.1]; rfl, by rw [k.1]; rfl, fun h2 => by omega, fun _ => by rw [syncErr_over]; rfl⟩
    · rw [ctr_of k.2.1]; simp [top32]; omega
    · rw [ctr_of k.2.1, State.ctr_setCtr_other _ _ _ _ hb]

theorem State.subCtr_does (s : State) (a n : Nat) : let r := s.subCtr a n;
    (n ≤ s.ctr a → r.2 = true ∧ r.1.ctr a = s.ctr a - n ∧ (∀ b, b ≠ a → r.1.ctr b = s.ctr b) ∧ Only [.net] s r.1 ∧ r.1.net.errUnf = s.net.errUnf) ∧
    (s.ctr a < n → r.2 = false ∧ r.1.net.ctrs = s.net.ctrs ∧ r.1.net.errUnf.get 0 (ctrNode a) = min 0xFFFF (s.net.errUnf.get 0 (ctrNode a) + 1)) := by
  intro r
  constructor
  · intro h
    have e : r = (s.setCtr a (s.ctr a - n), true) := by simp [r, State.subCtr, h]
    rw [e]; exact ⟨rfl, by simp, fun b hb => State.ctr_setCtr_other _ _ _ _ hb, by (intro p hp; cases p <;> first | (exfalso; simp at hp; done) | (simp [Part.same]; done)), rfl⟩
  · intro h
    have e : r = (s.syncErr a true, false) := by simp [r, State.subCtr, Nat.not_le.mpr h]
    rw [e]; exact ⟨rfl, (syncErr_keeps s a true).2.1, syncErr_under s a⟩

theorem State.sync_completes (s : State) (c : Nat) (g : Guard) (rs1 rs2 rd : Reg) (a n : Nat) (h1 : s.goes c g = true) (ha : a = ((s.ctl c).rg rs1).toNat)
   (hn : n = ((s.ctl c).rg rs2).toNat % 2 ^ 32) (hw : ctrWf a = true) : let k := s.ctl c;
   (s.mayAdd c a = true → exec (.sread c g rd rs1) s = s.ends c (k.wg rd (BitVec.ofNat 64 (s.ctr a))).adv) ∧
  (s.mayAdd c a = true → k.strOut = 0 → (c = mgmtCore → (s.addOutside a n).2 = true) → exec (.sadd c g rs1 rs2) s = .next (((s.setCtl c k.adv).addFrom c a n).stepOver c)) ∧
  (c = mgmtCore → k.strOut = 0 → (s.addOutside a n).2 = false → exec (.sadd c g rs1 rs2) s = (s.addOutside a n).1.raises c cSync eState k.pc (k.rg rs1)) ∧
  (k.strOut ≠ 0 → exec (.sadd c g rs1 rs2) s = .next s ∧ exec (.ssub c g rs1 rs2) s = .next s) ∧
  (s.mayTest c a = true → k.strOut = 0 → n ≤ s.ctr a → exec (.ssub c g rs1 rs2) s = .next (((((s.subCtr a n).1).setCtl c k.adv).testWatches (ctrNode a)).stepOver c)) ∧
  (s.mayTest c a = true → k.strOut = 0 → s.ctr a < n → exec (.ssub c g rs1 rs2) s = (s.subCtr a n).1.raises c cSync eSyncUnderflow k.pc (k.rg rs1)) := by
  intro k
  have hb : s.fetchBad c = false ∧ (s.ctl c).guardTrue g = true := by
    simp only [State.goes, Bool.and_eq_true, Bool.not_eq_true'] at h1; exact ⟨h1.1.2, h1.2⟩
  refine ⟨fun h2 => ?_, fun h2 h3 h4 => ?_, fun h2 h3 h4 => ?_, fun h3 => ?_, fun h2 h3 h4 => ?_, fun h2 h3 h4 => ?_⟩
  · simp only [exec, execSread, State.syncInstr, State.instr_goes _ _ h1, ← ha, hw, h2, State.ends, State.retire]; rfl
  · have : s.syncWaits c g = false := by simp only [State.syncWaits, State.strDrained, k] at *; simp [h3]
    have h5 : (decide (c = mgmtCore) && !(s.addOutside a n).2) = false := by
      by_cases hc : c = mgmtCore
      · simp [h4 hc]
      · simp [hc]
    simp only [exec, execSadd, this, State.syncInstr, State.instr_goes _ _ h1, ← ha, ← hn, hw, h2, h5]; rfl
  · have : s.syncWaits c g = false := by simp only [State.syncWaits, State.strDrained, k] at *; simp [h3]
    have h5 : s.mayAdd c a = true := by simp [State.mayAdd, h2]
    have h6 : (decide (c = mgmtCore) && !(s.addOutside a n).2) = true := by simp [h2, h4]
    simp only [exec, execSadd, this, State.syncInstr, State.instr_goes _ _ h1, ← ha, ← hn, hw, h5, h6, State.raises]; rfl
  · have : s.syncWaits c g = true := by simp only [State.syncWaits, State.strDrained, k] at *; simp [h3, hb.1, hb.2]
    simp [exec, execSadd, execSsub, this]
  · have : s.syncWaits c g = false := by simp only [State.syncWaits, State.strDrained, k] at *; simp [h3]
    have e := ((s.subCtr_does a n).1 h4).1
    simp only [exec, execSsub, this, State.syncInstr, State.instr_goes _ _ h1, ← ha, ← hn, hw, h2, e]; rfl
  · have : s.syncWaits c g = false := by simp only [State.syncWaits, State.strDrained, k] at *; simp [h3]
    have e := ((s.subCtr_does a n).2 h4).1
    simp only [exec, execSsub, this, State.syncInstr, State.instr_goes _ _ h1, ← ha, ← hn, hw, h2, e]; rfl

theorem State.swait_does (s : State) (c : Nat) (g : Guard) (rs1 rs2 : Reg) (cond : BitVec 3) (cd : Cond) (dec : Bool) (a n : Nat) (h1 : s.goes c g = true) (ha : a = ((s.ctl c).rg rs1).toNat)
   (hn : n = ((s.ctl c).rg rs2).toNat % 2 ^ 32) (hw : ctrWf a = true) (h2 : s.mayTest c a = true) (h3 : Cond.ofBits cond.toNat = some cd) (h4 : dec = true → cd = .ge ∨ cd = .eq) :
   let w : Watch := { core := c, unit := .cpu, ctr := a, cond := cd, value := n, dec := dec };
    exec (.swait c g rs1 rs2 cond dec) s = .next (((s.setCtl c { s.ctl c with waiting := some .swait }).register w).stepOver c) := by
  intro w
  have h5 : (dec && (cd == .ne || cd == .lt)) = false := by cases dec <;> cases cd <;> simp_all
  simp only [exec, execSwait, h3, h5, State.syncInstr, State.instr_goes _ _ h1, ← ha, ← hn, hw, h2]; rfl

theorem State.swait_reserved (s : State) (c : Nat) (g : Guard) (rs1 rs2 : Reg) (cond : BitVec 3) (dec : Bool) (h1 : s.ctlOn c = true) (h2 : s.fetchBad c = false) (h3 : 4 ≤ cond.toNat ∨ (dec = true ∧ 2 ≤ cond.toNat)) :
    exec (.swait c g rs1 rs2 cond dec) s = s.raises c cIllegal eFormat (s.ctl c).pc ((encR 0x7A g 0 rs1 rs2 (BitVec.ofNat 5 (cond.toNat + 8 * b2n dec))).setWidth 64) := by
  simp only [exec, execSwait]
  have hI : ∀ w f, Host.Outcome.next (s.instrIf c g w false f) = s.raises c cIllegal eFormat (s.ctl c).pc (w.setWidth 64) := fun w f => State.instrIf_bad h1 h2 rfl
  split
  · exact hI _ _
  · rename_i cd hcd
    have h4 : (dec && (cd == .ne || cd == .lt)) = true := by
      unfold Cond.ofBits at hcd
      split at hcd
      · omega
      · split at hcd
        · omega
        · split at hcd
          · cases hcd; rcases h3 with h3 | ⟨rfl, h3⟩
            · omega
            · rfl
          · split at hcd
            · cases hcd; rcases h3 with h3 | ⟨rfl, h3⟩
              · omega
              · rfl
            · cases hcd
    rw [if_pos h4]; exact hI _ _

theorem State.sync_refused (s : State) (c : Nat) (g : Guard) (rs1 rs2 rd : Reg) (h1 : s.goes c g = true) (h2 : (s.ctl c).strOut = 0) :
 let k := s.ctl c; let a := k.rg rs1;
 (ctrWf a.toNat = false → exec (.sadd c g rs1 rs2) s = s.raises c cRange eRange k.pc a ∧ exec (.ssub c g rs1 rs2) s = s.raises c cRange eRange k.pc a ∧ exec (.sread c g rd rs1) s = s.raises c cRange eRange k.pc a) ∧
 (ctrWf a.toNat = true → s.mayAdd c a.toNat = false → exec (.sadd c g rs1 rs2) s = s.raises c cAccess ePermission k.pc a ∧ exec (.sread c g rd rs1) s = s.raises c cAccess ePermission k.pc a) ∧
 (ctrWf a.toNat = true → s.mayTest c a.toNat = false → exec (.ssub c g rs1 rs2) s = s.raises c cAccess ePermission k.pc a) := by
  intro k a
  have e : s.syncWaits c g = false := by simp [State.syncWaits, State.strDrained, h2]
  refine ⟨fun h => ⟨?_, ?_, ?_⟩, fun h h3 => ⟨?_, ?_⟩, fun h h3 => ?_⟩
  all_goals simp only [exec, execSadd, execSsub, execSread, e, State.syncInstr, State.instr_goes _ _ h1, State.raises]
  all_goals simp only [k, a] at *
  all_goals simp [h]
  all_goals simp [h3]

theorem haltCore_net (s : State) (c : Nat) (r : BitVec 8) : (s.haltCore c r).net.watches = s.net.watches ∧ (s.haltCore c r).net.ctrs = s.net.ctrs ∧ (s.haltCore c r).cores.queues = s.cores.queues ∧ (s.haltCore c r).cores.ses = s.cores.ses := by
  have hs : ∀ (u : State) c b, (u.raiseCore c b).cores.ses = u.cores.ses := by
    intro u c b; unfold State.raiseCore; dsimp only; split
    · rfl
    · split
      · rw [fire_cores]; rfl
      · rfl
  have hn : ∀ (u : State) c b, (u.raiseCore c b).net = u.net := by intro u c b; simp
  unfold State.haltCore
  dsimp only
  split <;> split <;> simp only [log_net, log_cores, hn, hs, (raiseCore_keeps _ _ _).2.1] <;> exact ⟨rfl, rfl, rfl, rfl⟩

theorem stepOver_net (s : State) (c : Nat) : (s.stepOver c).net.watches = s.net.watches ∧ (s.stepOver c).net.ctrs = s.net.ctrs := by
  unfold State.stepOver
  dsimp only
  split
  · exact ⟨rfl, rfl⟩
  · split
    · have := haltCore_net (s.setCtl c { s.ctl c with stepping := false }) c 3
      exact ⟨this.1, this.2.1⟩
    · exact ⟨rfl, rfl⟩

theorem traceRec_net (s : State) (c q k m st i : Nat) : (s.traceRec c q k m st i).net.watches = s.net.watches ∧ (s.traceRec c q k m st i).net.ctrs = s.net.ctrs ∧ (s.traceRec c q k m st i).cores = s.cores := by
  unfold State.traceRec
  dsimp only
  split
  · exact ⟨rfl, rfl, rfl⟩
  · (repeat' split) <;> exact ⟨rfl, rfl, rfl⟩

theorem release_net (s : State) (w : Watch) : (s.release w).net.watches = s.net.watches ∧ (s.release w).net.ctrs = s.net.ctrs := by
  unfold State.release
  split
  · have := stepOver_net (s.modCtl w.core fun k => { k with waiting := none, pc := k.pc + 4 }) w.core
    exact ⟨this.1, this.2⟩
  · rename_i q _
    have h1 := traceRec_net s w.core q 1 0xF0 0 0
    have h2 := traceRec_net ((s.traceRec w.core q 1 0xF0 0 0).modQueue w.core q fun x => { x with entries := x.entries.tail, waiting := false }) w.core q 2 0xF0 0 0
    exact ⟨h2.1.trans h1.1, h2.2.1.trans h1.2.1⟩
  · exact ⟨rfl, rfl⟩

theorem State.testWatch_does (s : State) (w : Watch) : let t := s.testWatch w;
    (w.cond.holds (s.ctr w.ctr) w.value = false → t = s) ∧
    (w.cond.holds (s.ctr w.ctr) w.value = true → w ∉ t.net.watches ∧ t.ctr w.ctr = (if w.dec then s.ctr w.ctr - w.value else s.ctr w.ctr) ∧ (∀ b, b ≠ w.ctr → t.ctr b = s.ctr b) ∧
      (∀ x ∈ s.net.watches, x ≠ w → x ∈ t.net.watches) ∧
      (∀ e, w.unit = .stream e → t.se w.core e = { s.se w.core e with waitSwt := false }) ∧
      (∀ q, w.unit = .queue q → t.queue w.core q = { s.queue w.core q with entries := (s.queue w.core q).entries.tail, waiting := false }) ∧
      (w.unit = .cpu → (s.ctl w.core).stepping = false → t.ctl w.core = { s.ctl w.core with waiting := none }.adv)) := by
  intro t
  constructor
  · intro h; simp [t, State.testWatch, h]
  · intro h
    let s1 : State := { s with net := { s.net with watches := s.net.watches.filter (· != w) } }
    let s2 : State := if w.dec then s1.setCtr w.ctr (s1.ctr w.ctr - w.value) else s1
    have ht : t = s2.release w := by simp only [t, State.testWatch, h, if_true]; rfl
    have hc2 : s2.cores = s.cores := by simp only [s2]; split <;> rfl
    have hw2 : s2.net.watches = s.net.watches.filter (· != w) := by simp only [s2]; split <;> rfl
    have hr := release_net s2 w
    rw [ht]
    refine ⟨by rw [hr.1, hw2]; simp, ?_, fun b hb => ?_, fun x hx hne => by rw [hr.1, hw2]; simp [hx, hne], fun e he => ?_, fun q hq => ?_, fun hu hst => ?_⟩
    · rw [ctr_of hr.2]; simp only [s2]; split <;> simp [s1, State.ctr]
      exact Table.get_put_self _ _ _ _
    · rw [ctr_of hr.2]; simp only [s2]; split
      · rw [State.ctr_setCtr_other _ _ _ _ hb]; rfl
      · rfl
    · simp [State.release, he]; simp [State.se, hc2]
    · simp only [State.release, hq]
      rw [queue_of (congrArg Cores.queues (traceRec_net _ _ _ _ _ _ _).2.2)]
      simp only [State.queue_modQueue]
      rw [queue_of (congrArg Cores.queues (traceRec_net _ _ _ _ _ _ _).2.2)]
      simp [State.queue, hc2]
    · simp only [State.release, hu]
      have hk : (s2.ctl w.core) = s.ctl w.core := ctl_of (congrArg Cores.ctls hc2) _
      unfold State.stepOver
      simp [State.modCtl, hk, hst, Ctl.adv]

theorem State.haltQueue_does (s : State) (c q status : Nat) (m : W256) : let t := s.haltQueue c q status m;
    t.queue c q = { s.queue c q with halted := true, errStatus := BitVec.ofNat 8 status, errMop := BitVec.ofNat 8 (mMop m) } ∧ (∀ d p, 8 * d + p ≠ 8 * c + q → t.queue d p = s.queue d p) ∧ t.net.ctrs = s.net.ctrs ∧ (t.irqCause c).getLsbD 1 = true ∧ t.cores.ctls = s.cores.ctls ∧ t.mem = s.mem := by
  intro t
  have e : t.cores = ((s.modQueue c q (fun x => { x with halted := true, errStatus := BitVec.ofNat 8 status, errMop := BitVec.ofNat 8 (mMop m) })).raiseCore c causeQhalt).cores := by
    simp only [t, State.haltQueue, log_cores, (traceRec_net _ _ _ _ _ _ _).2.2]
  have k := raiseCore_keeps (s.modQueue c q (fun x => { x with halted := true, errStatus := BitVec.ofNat 8 status, errMop := BitVec.ofNat 8 (mMop m) })) c causeQhalt
  refine ⟨?_, fun d p hd => ?_, ?_, ?_, ?_, by simp [t, State.haltQueue]⟩
  · rw [queue_of (congrArg Cores.queues e), queue_of k.2.1]; simp
  · rw [queue_of (congrArg Cores.queues e), queue_of k.2.1]; exact Table.get_put_other _ _ _ _ _ hd
  · simp only [t, State.haltQueue, log_net, (traceRec_net _ _ _ _ _ _ _).2.1]
    have hn : ∀ (u : State) c b, (u.raiseCore c b).net = u.net := by intro u c b; simp
    rw [hn]; rfl
  · have := raiseCore_cause (s.modQueue c q (fun x => { x with halted := true, errStatus := BitVec.ofNat 8 status, errMop := BitVec.ofNat 8 (mMop m) })) c causeQhalt
    simp only [State.irqCause, e] at *; rw [this]; simp [causeQhalt]
  · rw [e, k.1]; rfl

theorem State.reject_queue (s : State) (c q status : Nat) (m : W256) :
    (s.reject c q status m).queue c q = { s.queue c q with held := some m, held2 := (s.queue c q).held, waiting := false, halted := true, errStatus := BitVec.ofNat 8 status, errMop := BitVec.ofNat 8 (mMop m) } := by
  unfold State.reject
  rw [(State.haltQueue_does _ c q status m).1]
  have h : ∀ u : State, (u.dropQueueWatch c q).queue c q = u.queue c q := fun _ => rfl
  rw [h]; simp

end Sys2Proof.Machine
end

