-- ==== Sys2Proof/Laws/Ways4.lean ====
section
/-! SUPPORT. Once each, what the shared operations and the commands over them do: the matrix engine, the vector engine and the reduction unit: what an entry does (R117-R183). -/

namespace Sys2Proof.Machine

/-- engines and queues alike -/
def SE (s u : State) : Prop := u.cores.ctls = s.cores.ctls ∧ u.cores.queues = s.cores.queues ∧ u.cores.mats = s.cores.mats ∧ u.cores.vecs = s.cores.vecs ∧ u.cores.ses = s.cores.ses ∧ u.cores.eps = s.cores.eps ∧ u.cores.chns = s.cores.chns

theorem SE.refl (s : State) : SE s s := ⟨rfl, rfl, rfl, rfl, rfl, rfl, rfl⟩

theorem SE.trans {s u v : State} (h : SE s u) (k : SE u v) : SE s v := ⟨k.1.trans h.1, k.2.1.trans h.2.1, k.2.2.1.trans h.2.2.1, k.2.2.2.1.trans h.2.2.2.1, k.2.2.2.2.1.trans h.2.2.2.2.1, k.2.2.2.2.2.1.trans h.2.2.2.2.2.1, k.2.2.2.2.2.2.trans h.2.2.2.2.2.2⟩

theorem SE.of_cores {s u : State} (h : u.cores = s.cores) : SE s u := by simp [SE, h]

theorem SE.of_fn {s u : State} (h : s.cores = u.cores) : SE s u := by simp [SE, h]

theorem SE.raise (s : State) (c b : Nat) : SE s (s.raiseCore c b) := by
  unfold State.raiseCore
  dsimp only
  split
  · exact ⟨rfl, rfl, rfl, rfl, rfl, rfl, rfl⟩
  · split
    · exact SE.trans (u := s.setIrqCause c (s.irqCause c ||| 1#6 <<< b)) ⟨rfl, rfl, rfl, rfl, rfl, rfl, rfl⟩ (SE.of_cores (fire_cores _ _))
    · exact ⟨rfl, rfl, rfl, rfl, rfl, rfl, rfl⟩

theorem SE.log (s : State) (a b d : Nat) (v : Option Nat) (e f : Nat) : SE s (s.log a b d v e f) := SE.of_cores (log_cores _ _ _ _ _ _ _)

theorem SE.trace (s : State) (c q k m st i : Nat) : SE s (s.traceRec c q k m st i) := SE.of_cores (traceRec_net _ _ _ _ _ _ _).2.2

theorem SE.spad (s : State) (c : Nat) (f : Spad → Spad) : SE s (s.modSpad c f) := ⟨rfl, rfl, rfl, rfl, rfl, rfl, rfl⟩

theorem SE.elems (s : State) (c : Nat) (l : List ElemWrite) : SE s (s.storeElems c l) := (SE.spad s c (fun sp => sp.putElems l)).trans (SE.of_cores (State.storeElems_does s c l).1)

theorem elems_other (s : State) (c d : Nat) (l : List ElemWrite) (x : BitVec 8) (f : Vec → Vec) (hd : d ≠ c) :
    (((s.storeElems c l).orArith c x).modVec c f).spad d = s.spad d :=
  (congrArg (fun z : Cores => Table.get ({} : Spad) z.spads d) (State.storeElems_does s c l).1).trans (State.spad_setSpad_other s c d ((s.spad c).putElems l) hd)

theorem SE.arith (s : State) (c : Nat) (f : BitVec 8) : SE s (s.orArith c f) := ⟨rfl, rfl, rfl, rfl, rfl, rfl, rfl⟩

theorem SE.origin (s : State) (v a b : Nat) : SE s (s.poisonOrigin v a b) := SE.of_cores (by simp)

theorem SE.acct (s : State) (c j n : Nat) : SE s (s.accountCore c j n) := SE.of_cores (by simp)

theorem SE.tap (s : State) (v j : Nat) (l : List (F32 × Bool)) : SE s (s.tap v j l) := SE.of_cores (by simp)

theorem SE.foldl {α : Type} (l : List α) (f : State → α → State) (h : ∀ s x, SE s (f s x)) (s : State) : SE s (l.foldl f s) := by
  induction l generalizing s with
  | nil => exact SE.refl _
  | cons a t ih => exact (h s a).trans (ih _)

theorem SE.sram (s : State) (c a i : Nat) : SE s (s.sramError c a i) := by
  unfold State.sramError
  dsimp only
  split
  · exact ((SE.raise _ _ _).trans (SE.log _ _ _ _ _ _ _)).trans (SE.origin _ _ _ _)
  · exact (SE.raise _ _ _).trans (SE.log _ _ _ _ _ _ _)

theorem SE.noteWord (ue ce : NSet) (c a : Nat) (s : State) (i : Nat) : SE s (State.noteWord ue ce c a s i) := by
  unfold State.noteWord
  dsimp only
  split
  · exact (SE.spad _ _ _).trans (SE.sram _ _ _ _)
  · split
    · exact (SE.spad _ _ _).trans (SE.log _ _ _ _ _ _ _)
    · exact SE.refl _

theorem spad_of' {s u : State} (h : u.cores.spads = s.cores.spads) (c : Nat) : u.spad c = s.spad c := by simp only [State.spad, h]

/-- scratchpads hold the same bytes and marks -/
def SB (s u : State) : Prop := ∀ d, (u.spad d).mem = (s.spad d).mem ∧ (u.spad d).poison = (s.spad d).poison

theorem SB.refl (s : State) : SB s s := fun _ => ⟨rfl, rfl⟩

theorem SB.trans {s u v : State} (h : SB s u) (k : SB u v) : SB s v := fun d => ⟨(k d).1.trans (h d).1, (k d).2.trans (h d).2⟩

theorem SB.of_spads {s u : State} (h : u.cores.spads = s.cores.spads) : SB s u := fun d => by rw [spad_of' h]; exact ⟨rfl, rfl⟩

theorem SB.mod (s : State) (c : Nat) (f : Spad → Spad) (hf : ∀ y, (f y).mem = y.mem ∧ (f y).poison = y.poison) : SB s (s.modSpad c f) := by
  intro d
  by_cases h : d = c
  · subst h
    have : (s.modSpad d f).spad d = f (s.spad d) := State.spad_setSpad _ _ _
    rw [this]; exact hf _
  · have : (s.modSpad c f).spad d = s.spad d := State.spad_setSpad_other _ _ _ _ h
    rw [this]; exact ⟨rfl, rfl⟩

theorem SB.raise (s : State) (c b : Nat) : SB s (s.raiseCore c b) := SB.of_spads (raiseCore_keeps s c b).2.2

theorem SB.log (s : State) (a b d : Nat) (v : Option Nat) (e f : Nat) : SB s (s.log a b d v e f) := SB.of_spads (congrArg Cores.spads (log_cores _ _ _ _ _ _ _))

theorem SB.origin (s : State) (v a b : Nat) : SB s (s.poisonOrigin v a b) := SB.of_spads (by simp)

theorem SB.sram (s : State) (c a i : Nat) : SB s (s.sramError c a i) := by
  unfold State.sramError
  dsimp only
  split
  · exact ((SB.raise _ _ _).trans (SB.log _ _ _ _ _ _ _)).trans (SB.origin _ _ _ _)
  · exact (SB.raise _ _ _).trans (SB.log _ _ _ _ _ _ _)

theorem SB.noteWord (ue ce : NSet) (c a : Nat) (s : State) (i : Nat) : SB s (State.noteWord ue ce c a s i) := by
  unfold State.noteWord
  dsimp only
  split
  · exact (SB.mod s c (fun y => { y with eccUnc := satAdd top16 y.eccUnc 1 }) (fun _ => ⟨rfl, rfl⟩)).trans (SB.sram _ _ _ _)
  · split
    · exact (SB.mod s c (fun y => { y with eccCor := satAdd top16 y.eccCor 1 }) (fun _ => ⟨rfl, rfl⟩)).trans (SB.log _ _ _ _ _ _ _)
    · exact SB.refl _

theorem SB.foldl {α : Type} (l : List α) (f : State → α → State) (h : ∀ s x, SB s (f s x)) (s : State) : SB s (l.foldl f s) := by
  induction l generalizing s with
  | nil => exact SB.refl _
  | cons a t ih => exact (h s a).trans (ih _)

theorem SB.noteRead (s : State) (c a n : Nat) : SB s (s.noteRead c a n) := by
  unfold State.noteRead
  dsimp only
  split
  · exact SB.refl _
  · exact SB.foldl _ _ (fun _ _ => SB.noteWord _ _ _ _ _ _) _

theorem SB.noteBytes (s : State) (c : Nat) (l : List Nat) : SB s (s.noteBytes c l) := by
  unfold State.noteBytes
  split
  · exact SB.refl _
  · exact SB.foldl _ _ (fun _ _ => SB.noteRead _ _ _ _) _

theorem SE.noteRead (s : State) (c a n : Nat) : SE s (s.noteRead c a n) := by
  unfold State.noteRead
  dsimp only
  split
  · exact SE.refl _
  · exact SE.foldl _ _ (fun _ _ => SE.noteWord _ _ _ _ _ _) _

theorem SE.noteBytes (s : State) (c : Nat) (l : List Nat) : SE s (s.noteBytes c l) := by
  unfold State.noteBytes
  split
  · exact SE.refl _
  · exact SE.foldl _ _ (fun _ _ => SE.noteRead _ _ _ _) _

theorem SE.mat {s u : State} (h : SE s u) (c : Nat) : u.mat c = s.mat c := by simp only [State.mat, h.2.2.1]

theorem SE.vec {s u : State} (h : SE s u) (c : Nat) : u.vec c = s.vec c := by simp only [State.vec, h.2.2.2.1]

theorem SE.queue {s u : State} (h : SE s u) (c q : Nat) : u.queue c q = s.queue c q := queue_of h.2.1 _ _

theorem popQ_queue (s : State) (c q : Nat) : (s.popQ c q).queue c q = (s.queue c q).pop := by
  unfold State.popQ
  rw [State.queue_modQueue, (SE.trace _ _ _ _ _ _ _).queue]

theorem popQ_cores (s : State) (c q : Nat) : (s.popQ c q).cores = (s.modQueue c q EngQ.pop).cores := by
  unfold State.popQ
  have hm : ∀ t : State, t.cores = s.cores → (t.modQueue c q EngQ.pop).cores = (s.modQueue c q EngQ.pop).cores := by
    intro t ht; simp only [State.modQueue, State.setQueue, State.queue, ht]
  exact hm _ (traceRec_net _ _ _ _ _ _ _).2.2

theorem dropQ_same (u : State) (c q d p : Nat) : (u.dropQueueWatch c q).queue d p = u.queue d p ∧ (u.dropQueueWatch c q).cores = u.cores ∧ (u.dropQueueWatch c q).net.ctrs = u.net.ctrs := ⟨rfl, rfl, rfl⟩

theorem reject_does (s u : State) (c q st : Nat) (e : W256) (hq : u.queue c q = (s.queue c q).pop) (hc : u.cores.ctls = s.cores.ctls) : (u.reject c q st e).rejected s c q st e := by
  unfold State.reject
  have := State.haltQueue_does ((u.modQueue c q (fun x => { x with held := some e, held2 := x.held, waiting := false })).dropQueueWatch c q) c q st e
  dsimp only at this
  refine ⟨?_, this.2.2.2.1, ?_⟩
  · rw [this.1, (dropQ_same _ _ _ _ _).1, State.queue_modQueue, hq]
  · rw [this.2.2.2.2.1]; exact hc

theorem reject_held (s u : State) (c q st : Nat) (e : W256) (hq : u.queue c q = s.queue c q) (hc : u.cores.ctls = s.cores.ctls) : (u.reject c q st e).held s c q st e := by
  unfold State.reject
  have := State.haltQueue_does ((u.modQueue c q (fun x => { x with held := some e, held2 := x.held, waiting := false })).dropQueueWatch c q) c q st e
  dsimp only at this
  refine ⟨?_, this.2.2.2.1, ?_⟩
  · rw [this.1, (dropQ_same _ _ _ _ _).1, State.queue_modQueue, hq]
  · rw [this.2.2.2.2.1]; exact hc

theorem reject_SEx (u : State) (c q st : Nat) (e : W256) : (u.reject c q st e).cores.mats = u.cores.mats ∧ (u.reject c q st e).cores.vecs = u.cores.vecs ∧ (u.reject c q st e).cores.spads = u.cores.spads ∧ (u.reject c q st e).net.ctrs = u.net.ctrs := by
  unfold State.reject State.haltQueue
  generalize hw : ((u.modQueue c q (fun x => { x with held := some e, held2 := x.held, waiting := false })).dropQueueWatch c q).modQueue c q (fun x => { x with halted := true, errStatus := BitVec.ofNat 8 st, errMop := BitVec.ofNat 8 (mMop e) }) = w
  have h1 := SE.raise w c causeQhalt
  have h2 := (raiseCore_keeps w c causeQhalt).2.2
  have h3 : ∀ (v : State) c b, (v.raiseCore c b).net = v.net := by intro v c b; simp
  simp only [log_cores, log_net, (traceRec_net _ _ _ _ _ _ _).2.2, (traceRec_net _ _ _ _ _ _ _).2.1, h3]
  subst hw
  exact ⟨h1.2.2.1, h1.2.2.2.1, h2, rfl⟩

theorem mat_of {s u : State} (h : u.cores.mats = s.cores.mats) (c : Nat) : u.mat c = s.mat c := by simp only [State.mat, h]

theorem vec_of {s u : State} (h : u.cores.vecs = s.cores.vecs) (c : Nat) : u.vec c = s.vec c := by simp only [State.vec, h]

theorem spad_of {s u : State} (h : u.cores.spads = s.cores.spads) (c : Nat) : u.spad c = s.spad c := by simp only [State.spad, h]

theorem modMat_queue (s : State) (c : Nat) (f : Mat → Mat) (d q : Nat) : (s.modMat c f).queue d q = s.queue d q := rfl

theorem modVec_queue (s : State) (c : Nat) (f : Vec → Vec) (d q : Nat) : (s.modVec c f).queue d q = s.queue d q := rfl

theorem State.mat_permission (s : State) (c : Nat) (i : Instr) (e : W256) (h1 : (s.queue c 0).head = some e) (h2 : (i, mMop e) ∈ [(Instr.matmul c, 1), (.matmulSp c, 2)]) (h3 : s.enginesOn c = true)
   (h4 : (s.mat c).entry = none) (h5 : s.sigRight c e = false) : exec i s = .next (s.haltQueue c 0 ePermission e) := by
  have ex : exec i s = .next (s.matAccept c (mMop e)) := by
    simp only [List.mem_cons, Prod.mk.injEq, List.not_mem_nil, or_false] at h2
    rcases h2 with ⟨rfl, h⟩ | ⟨rfl, h⟩ <;> simp [exec, execMatmul, execMatmulSp, h]
  rw [ex]; simp [State.matAccept, h1, h3, h4, h5]

theorem State.mat_accepts (s : State) (c : Nat) (i : Instr) (e : W256) (h1 : (s.queue c 0).head = some e) (h2 : (i, mMop e) ∈ [(Instr.matmul c, 1), (.matmulSp c, 2)]) (h3 : s.enginesOn c = true)
   (h4 : (s.mat c).entry = none) (h5 : s.sigRight c e = true) :
  let d := fun (i : Nat) => (s.spad c).nat (descAt (mmTd e.toNat i)) 64; let q : MM := { m := e.toNat, a := d 0, b := d 1, c := d 2, meta_ := d 3, acc := d 4 };
    if s.matCheck c q = eOk then ∃ u : State, exec i s = .next (u.matRun c) ∧ u.queue c 0 = (s.queue c 0).pop ∧ (u.mat c).entry = some e ∧ (u.mat c).pos = 0 ∧
        (u.mat c).descs = [(0, d 0), (1, d 1), (2, d 2), (3, d 3), (4, d 4)]
    else ∃ u : State, exec i s = .next u ∧ u.rejected s c 0 (s.matCheck c q) e ∧ (u.mat c).entry = none := by
  intro d q
  have ex : exec i s = .next (s.matAccept c (mMop e)) := by
    simp only [List.mem_cons, Prod.mk.injEq, List.not_mem_nil, or_false] at h2
    rcases h2 with ⟨rfl, h⟩ | ⟨rfl, h⟩ <;> simp [exec, execMatmul, execMatmulSp, h]
  rw [ex]
  have e1 : (mMop e != mMop e || !s.enginesOn c || (s.mat c).entry.isSome) = false := by simp [h3, h4]
  split
  · rename_i hk
    have hk' : (s.matCheck c q != eOk) = false := by simp [hk]
    simp only [State.matAccept, h1, e1, h5]
    refine ⟨_, by rw [if_neg (by simp), if_neg (by simp), if_neg (by simpa [q, d] using hk)], ?_, ?_, ?_, ?_⟩
    · show State.queue _ c 0 = _
      rw [modMat_queue]
      rw [(SE.noteBytes _ _ _).queue, popQ_queue]
    all_goals simp [d]
  · rename_i hk
    simp only [State.matAccept, h1, e1, h5]
    refine ⟨_, by rw [if_neg (by simp), if_neg (by simp), if_pos (by simpa [q, d] using hk)], ?_, ?_⟩
    · apply reject_does
      · show State.queue (State.modMat _ _ _) c 0 = _
        rw [modMat_queue]
        rw [(SE.noteBytes _ _ _).queue, popQ_queue]
      · show (State.noteBytes _ _ _).cores.ctls = _
        rw [(SE.noteBytes _ _ _).1, popQ_cores]; rfl
    · rw [mat_of (reject_SEx _ _ _ _ _).1]; simp
      rw [(SE.noteBytes _ _ _).mat, mat_of (congrArg Cores.mats (popQ_cores s c 0))]; exact h4

def KW (s u : State) : Prop := u.cores.mats = s.cores.mats ∧ u.cores.vecs = s.cores.vecs ∧ u.cores.spads = s.cores.spads ∧ u.cores.eps = s.cores.eps ∧ u.cores.chns = s.cores.chns

theorem KW.refl (s : State) : KW s s := ⟨rfl, rfl, rfl, rfl, rfl⟩

theorem KW.trans {s u v : State} (h : KW s u) (k : KW u v) : KW s v := ⟨k.1.trans h.1, k.2.1.trans h.2.1, k.2.2.1.trans h.2.2.1, k.2.2.2.1.trans h.2.2.2.1, k.2.2.2.2.trans h.2.2.2.2⟩

theorem KW.of_cores {s u : State} (h : u.cores = s.cores) : KW s u := by simp [KW, h]

theorem KW.foldl {α : Type} (l : List α) (f : State → α → State) (h : ∀ s x, KW s (f s x)) (s : State) : KW s (l.foldl f s) := by
  induction l generalizing s with
  | nil => exact KW.refl _
  | cons a t ih => exact (h s a).trans (ih _)

theorem KW.raise (s : State) (c b : Nat) : KW s (s.raiseCore c b) := ⟨(SE.raise s c b).2.2.1, (SE.raise s c b).2.2.2.1, (raiseCore_keeps s c b).2.2, (SE.raise s c b).2.2.2.2.2.1, (SE.raise s c b).2.2.2.2.2.2⟩

theorem KW.halt (s : State) (c : Nat) (r : BitVec 8) : KW s (s.haltCore c r) := by
  unfold State.haltCore
  dsimp only
  split <;> split
  · refine KW.trans ?_ (KW.of_cores (log_cores _ _ _ _ _ _ _))
    exact ⟨rfl, rfl, rfl, rfl, rfl⟩
  · refine KW.trans ?_ (KW.of_cores (log_cores _ _ _ _ _ _ _))
    exact ⟨rfl, rfl, rfl, rfl, rfl⟩
  · refine KW.trans ?_ (KW.of_cores (log_cores _ _ _ _ _ _ _))
    refine KW.trans ?_ (KW.raise _ _ _)
    exact ⟨rfl, rfl, rfl, rfl, rfl⟩
  · refine KW.trans ?_ (KW.of_cores (log_cores _ _ _ _ _ _ _))
    refine KW.trans ?_ (KW.raise _ _ _)
    exact ⟨rfl, rfl, rfl, rfl, rfl⟩

theorem KW.stepOver (s : State) (c : Nat) : KW s (s.stepOver c) := by
  unfold State.stepOver
  dsimp only
  split
  · exact KW.refl _
  · split
    · exact KW.trans (u := s.setCtl c { s.ctl c with stepping := false }) ⟨rfl, rfl, rfl, rfl, rfl⟩ (KW.halt _ _ _)
    · exact ⟨rfl, rfl, rfl, rfl, rfl⟩

theorem KW.trace (s : State) (c q k m st i : Nat) : KW s (s.traceRec c q k m st i) := KW.of_cores (traceRec_net _ _ _ _ _ _ _).2.2

theorem KW.release (s : State) (w : Watch) : KW s (s.release w) := by
  unfold State.release
  split
  · exact KW.trans (u := s.modCtl w.core fun k => { k with waiting := none, pc := k.pc + 4 }) ⟨rfl, rfl, rfl, rfl, rfl⟩ (KW.stepOver _ _)
  · refine KW.trans ?_ (KW.trace _ _ _ _ _ _ _)
    exact KW.trans (KW.trace s w.core _ 1 0xF0 0 0) ⟨rfl, rfl, rfl, rfl, rfl⟩
  · exact ⟨rfl, rfl, rfl, rfl, rfl⟩

theorem KW.testWatch (s : State) (w : Watch) : KW s (s.testWatch w) := by
  unfold State.testWatch
  split
  · dsimp only
    refine KW.trans ?_ (KW.release _ _)
    split <;> exact ⟨rfl, rfl, rfl, rfl, rfl⟩
  · exact KW.refl _

theorem KW.loop (n : Nat) (s : State) (node : Nat) : KW s (State.watchLoop n s node) := by
  induction n generalizing s with
  | zero => exact KW.refl _
  | succ n ih =>
    unfold State.watchLoop
    dsimp only
    have h : KW s (s.watchPass node) := KW.foldl _ _ (fun s w => KW.testWatch s w) _
    split
    · exact h
    · exact h.trans (ih _)

theorem KW.watches (s : State) (n : Nat) : KW s (s.testWatches n) := KW.loop _ _ _

theorem KW.addCtr (s : State) (a n : Nat) : KW s (s.addCtr a n) := by
  unfold State.addCtr
  split
  · exact ⟨rfl, rfl, rfl, rfl, rfl⟩
  · exact KW.of_cores ((syncErr_keeps _ _ _).1.trans rfl)

theorem KW.outside (s : State) (a n : Nat) : KW s (s.addOutside a n).1 := by
  unfold State.addOutside
  split
  · split
    · split <;> exact ⟨rfl, rfl, rfl, rfl, rfl⟩
    · exact KW.refl _
  · exact (KW.addCtr _ _ _).trans (KW.watches _ _)

theorem KW.addFrom (s : State) (c a n : Nat) : KW s (s.addFrom c a n) := by
  unfold State.addFrom
  split
  · exact (KW.addCtr _ _ _).trans (KW.watches _ _)
  · split
    · exact KW.outside _ _ _
    · exact KW.of_cores rfl

theorem State.mat_bad (s : State) (c : Nat) (e : W256) (h1 : (s.mat c).entry = some e) (h2 : (s.mat c).badAcc = true) (h3 : s.enginesOn c = true) :
   ∃ u : State, exec (.accInFormatHalt c) s = .next u ∧ u.held s c 0 eFormat e ∧ (u.mat c).entry = none ∧ u.spad c = s.spad c ∧ u.net.ctrs = s.net.ctrs := by
  refine ⟨(s.modMat c (fun y => { y with entry := none, badAcc := false })).reject c 0 eFormat e, by simp only [exec, execAccInFormatHalt, h1, h2, h3, Bool.and_self, if_true], reject_held _ _ _ _ _ _ rfl rfl, ?_, ?_, ?_⟩
  · rw [mat_of (reject_SEx _ _ _ _ _).1]; simp
  · rw [spad_of (reject_SEx _ _ _ _ _).2.2.1]; rfl
  · rw [(reject_SEx _ _ _ _ _).2.2.2]; rfl

theorem State.mat_ends (s : State) (c : Nat) (e : W256) (h1 : (s.mat c).entry = some e) (h2 : (s.mat c).badAcc = false) (h3 : (s.mat c).ringWait = false) (h4 : (s.mat c).steps.length ≤ (s.mat c).pos) (h5 : s.enginesOn c = true) :
  ∃ u : State, exec (.matmulComplete c) s = .next (u.sigDone c 0 e) ∧ (u.mat c).entry = none ∧ u.spad c = s.spad c ∧
      ((∀ op ∈ [0, 1], (s.mat c).inSlice op = none ∨ dNbuf ((s.mat c).mm.opDesc op) = 0) → u.net.ctrs = s.net.ctrs) := by
  have hk : KW (s.modMat c (fun y => { y with entry := none })) ([0, 1].foldl (fun (t : State) op =>
          if ((s.mat c).inSlice op).isSome && dNbuf ((s.mat c).mm.opDesc op) != 0 then t.addFrom c (dFree ((s.mat c).mm.opDesc op)) 1 else t)
          (s.modMat c (fun y => { y with entry := none }))) := by
    apply KW.foldl
    intro t x; split
    · exact KW.addFrom _ _ _ _
    · exact KW.refl _
  refine ⟨_, by simp only [exec, execMatmulComplete, h1, h2, h3, Nat.not_lt.mpr h4, h5, Bool.or_self, decide_false, Bool.not_true, Bool.false_eq_true, if_false]; rfl, ?_, ?_, ?_⟩
  · rw [mat_of hk.1]; simp
  · rw [spad_of hk.2.2.1]; rfl
  · intro h
    have e0 : (((s.mat c).inSlice 0).isSome && dNbuf ((s.mat c).mm.opDesc 0) != 0) = false := by rcases h 0 (by simp) with h | h <;> simp [h]
    have e1 : (((s.mat c).inSlice 1).isSome && dNbuf ((s.mat c).mm.opDesc 1) != 0) = false := by rcases h 1 (by simp) with h | h <;> simp [h]
    simp only [List.foldl_cons, List.foldl_nil, e0, e1, Bool.false_eq_true, if_false]
    rfl

theorem State.vec_record (s : State) (c : Nat) (e : W256) (h1 : (s.queue c 1).head = some e) (h2 : mMop e = 1) (h3 : (s.vec c).copy = none) (h4 : s.enginesOn c = true) :
  let a := vcChain e.toNat; let r : Nat × Nat := if 0x7C000 < a + 64 then (0, 2) else ((s.spad c).nat a 64, if (s.spad c).bad a 64 then 1 else 0);
    ∃ t : State, exec (.chainRecordRead c) s = .next t ∧ t.vec c = { s.vec c with copy := some r } ∧ t.cores.queues = s.cores.queues ∧ t.cores.ctls = s.cores.ctls := by
  intro a r
  have ex : exec (.chainRecordRead c) s = .next (if 0x7C000 < a + 64 then s.modVec c (fun x => { x with copy := some (0, 2) })
      else (s.noteRead c a 64).modVec c (fun x => { x with copy := some ((s.spad c).nat a 64, if (s.spad c).bad a 64 then 1 else 0) })) := by
    simp only [exec, execChainRecordRead, h1, h2, h3, h4]; rfl
  refine ⟨_, ex, ?_⟩
  by_cases h : 0x7C000 < a + 64
  · simp only [if_pos h]; refine ⟨by simp [r, h], rfl, rfl⟩
  · simp only [if_neg h]; exact ⟨by simp [r, h, (SE.noteRead _ _ _ _).vec], (SE.noteRead _ _ _ _).2.1, (SE.noteRead _ _ _ _).1⟩

theorem vecAccept_ok {s : State} {c mop : Nat} {e : W256} {f : State → W256 → State} (h0 : mMop e = mop) (h1 : (s.queue c 1).head = some e) (h2 : s.enginesOn c = true) (h3 : (s.vec c).admits e = true) (h4 : s.sigRight c e = true) :
   s.vecAccept c mop f = f (s.popQ c 1) e := by
  simp only [State.vecAccept, h1, h0, h2, h3, h4]; simp

theorem popQ_vec (s : State) (c q d : Nat) : (s.popQ c q).vec d = s.vec d := vec_of (congrArg Cores.vecs (popQ_cores s c q)) _

theorem popQ_spad (s : State) (c q d : Nat) : (s.popQ c q).spad d = s.spad d := spad_of (congrArg Cores.spads (popQ_cores s c q)) _

theorem popQ_ctls (s : State) (c q : Nat) : (s.popQ c q).cores.ctls = s.cores.ctls := by rw [popQ_cores]; rfl

theorem tileCheck_pop (s : State) (c m mop d q : Nat) : (s.popQ c q).tileCheck c m mop d = s.tileCheck c m mop d := by
  unfold State.tileCheck; simp only [popQ_spad]

theorem State.vec_tiles (s : State) (c : Nat) (i : Instr) (e : W256) (h0 : (i, mMop e) ∈ [(Instr.tload c, 2), (.tstore c, 3), (.tfill c, 4)]) (h1 : (s.queue c 1).head = some e) (h2 : s.enginesOn c = true) (h3 : (s.vec c).admits e = true) (h4 : s.sigRight c e = true) :
   let d := if mMop e = 4 then 0 else (s.spad c).nat (descAt (fld e.toNat 32 8)) 64; let k := s.tileCheck c e.toNat (mMop e) d;
    let x := { s.vec c with vecMop := mMop e, groupsDone := 0 };
    ∃ u : State, exec i s = .next u ∧ if k = eOk then u.queue c 1 = (s.queue c 1).pop ∧ u.vec c = { x with vec := some e, vdescs := [(0, d)], next := 0 } else u.rejected s c 1 k e ∧ u.vec c = x := by
  intro d k x
  have ex : exec i s = .next (s.tileAccept c (mMop e)) := by
    simp only [List.mem_cons, Prod.mk.injEq, List.not_mem_nil, or_false] at h0
    rcases h0 with ⟨rfl, h⟩ | ⟨rfl, h⟩ | ⟨rfl, h⟩ <;> simp [exec, execTload, execTstore, execTfill, h]
  refine ⟨_, ex, ?_⟩
  unfold State.tileAccept
  rw [vecAccept_ok rfl h1 h2 h3 h4]
  simp only [popQ_spad, tileCheck_pop]
  have hd : (if mMop e = 4 then 0 else (s.spad c).nat (descAt (fld e.toNat 32 8)) 64) = d := rfl
  rw [hd]
  have hk : s.tileCheck c e.toNat (mMop e) d = k := rfl
  rw [hk]
  by_cases h : k = eOk
  · rw [if_pos h, if_neg (by simp [h])]
    have hs : ∀ v : State, SE v (if mMop e = 4 then v else v.noteRead c (descAt (fld e.toNat 32 8)) 64) := by
      intro v; split
      · exact SE.refl _
      · exact SE.noteRead _ _ _ _
    refine ⟨?_, ?_⟩
    · rw [modVec_queue, (hs _).queue, modVec_queue, popQ_queue]
    · simp only [State.vec_modVec]; rw [(hs _).vec]; simp [popQ_vec, x]
  · rw [if_neg h, if_pos (by simp [h])]
    refine ⟨reject_does _ _ _ _ _ _ (by rw [modVec_queue, popQ_queue]) (popQ_ctls s c 1), ?_⟩
    rw [vec_of (reject_SEx _ _ _ _ _).2.1]; simp [popQ_vec, x]

theorem State.vec_permission (s : State) (c : Nat) (i : Instr) (e : W256) (h0 : (i, mMop e) ∈ [(Instr.vchain c, 1), (.tload c, 2), (.tstore c, 3), (.tfill c, 4), (.reduce c, 8)]) (h1 : (s.queue c 1).head = some e) (h2 : s.enginesOn c = true) (h3 : (s.vec c).admits e = true) (h4 : s.sigRight c e = false) :
   exec i s = .next ((s.modVec c (fun x => { x with copy := none })).haltQueue c 1 ePermission e) := by
  have hv : ∀ mop f, mMop e = mop → s.vecAccept c mop f = (s.modVec c (fun x => { x with copy := none })).haltQueue c 1 ePermission e := by
    intro mop f h; simp only [State.vecAccept, h1, h, h2, h3, h4]; simp
  simp only [List.mem_cons, Prod.mk.injEq, List.not_mem_nil, or_false] at h0
  rcases h0 with ⟨rfl, h⟩ | ⟨rfl, h⟩ | ⟨rfl, h⟩ | ⟨rfl, h⟩ | ⟨rfl, h⟩ <;> simp only [exec, execVchain, execTload, execTstore, execTfill, execReduce, State.tileAccept] <;> rw [hv _ _ h]

theorem get_foldl_put {α : Type} (d : α) (f : Nat → Nat) (g : Nat → α) (l : List Nat) (t : Table α) (hf : ∀ a ∈ l, ∀ b ∈ l, f a = f b → a = b) :
   (∀ n ∈ l, (l.foldl (fun t n => t.put (f n) (g n)) t).get d (f n) = g n) ∧ (∀ k, (∀ n ∈ l, f n ≠ k) → (l.foldl (fun t n => t.put (f n) (g n)) t).get d k = t.get d k) := by
  induction l generalizing t with
  | nil => simp
  | cons a l ih =>
    have ih := ih (t.put (f a) (g a)) (fun x hx y hy => hf x (List.mem_cons_of_mem _ hx) y (List.mem_cons_of_mem _ hy))
    constructor
    · intro n hn
      rw [List.foldl_cons]
      by_cases hl : n ∈ l
      · exact ih.1 n hl
      · rcases List.mem_cons.mp hn with rfl | h
        · rw [ih.2 _ (fun m hm he => hl ((hf m (List.mem_cons_of_mem _ hm) n List.mem_cons_self he) ▸ hm)), Table.get_put_self]
        · exact absurd h hl
    · intro k hk
      rw [List.foldl_cons, ih.2 _ (fun n hn => hk n (List.mem_cons_of_mem _ hn)), Table.get_put_other _ _ _ _ _ (fun h => hk a List.mem_cons_self h.symm)]

theorem tileDone_ok {s : State} {c mop : Nat} {e : W256} {f : State → Nat → Nat → State} (h0 : mMop e = mop) (h1 : (s.vec c).vec = some e) (h2 : s.enginesOn c = true) :
   s.tileDone c mop f = ((f s e.toNat ((s.vec c).vdescs.get 0 0)).modVec c (fun x => { x with vec := none, groupsDone := tileGroups mop e.toNat })).sigDone c 1 e := by
  simp only [State.tileDone, h1, h0, h2, bne_self_eq_false, Bool.not_true, Bool.or_self, Bool.false_eq_true, if_false]

theorem State.vec_fill (s : State) (c : Nat) (e : W256) (h1 : (s.vec c).vec = some e) (h0 : mMop e = 4) (h2 : s.enginesOn c = true) :
 ∃ u : State, exec (.tfillComplete c) s = .next (u.sigDone c 1 e) ∧ (u.vec c).vec = none ∧ u.cores.spads = s.cores.spads ∧ u.cores.queues = s.cores.queues ∧ (∀ n, n < 1024 → (u.vec c).tiles.get {} (1024 * tlT e.toNat + n) = { bits := fld e.toNat 64 32 }) ∧
      (∀ k, k < 1024 * tlT e.toNat ∨ 1024 * tlT e.toNat + 1024 ≤ k → (u.vec c).tiles.get {} k = (s.vec c).tiles.get {} k) := by
  have hg := tileDone_ok (f := fun s m _ => s.modVec c (fun x => { x with tiles := (List.range 1024).foldl (fun t n => t.put (1024 * tlT m + n) { bits := fld m 64 32 }) x.tiles })) h0 h1 h2
  refine ⟨_, congrArg Host.Outcome.next hg, by simp, rfl, rfl, ?_, ?_⟩
  · intro n hn
    simp only [State.vec_modVec]
    exact (get_foldl_put ({} : MCell) (fun n => 1024 * tlT e.toNat + n) (fun _ => { bits := fld e.toNat 64 32 }) (List.range 1024) _ (fun a _ b _ h => by omega)).1 n (List.mem_range.mpr hn)
  · intro k hk
    simp only [State.vec_modVec]
    exact (get_foldl_put ({} : MCell) (fun n => 1024 * tlT e.toNat + n) (fun _ => { bits := fld e.toNat 64 32 }) (List.range 1024) _ (fun a _ b _ h => by omega)).2 k (fun n hn => by have := List.mem_range.mp hn; omega)

def tcell (sp : Spad) (m d n : Nat) : MCell := match tileIx m d n with | some ix => let x := sp.elem d 0 {} (dStored d ix); { bits := (fEnter (dFmt d) x).1, bad := x.bad } | none => {}

theorem foldl_congr {α β : Type} (f g : β → α → β) (l : List α) (b : β) (h : ∀ b x, f b x = g b x) : l.foldl f b = l.foldl g b := by
  induction l generalizing b with
  | nil => rfl
  | cons a t ih => rw [List.foldl_cons, List.foldl_cons, h, ih]

theorem tload_tiles (s : State) (c m d hi : Nat) : ((s.tloadRun c m d hi).vec c).tiles = ((s.vec c).tileElems m hi).foldl (fun t n => t.put (1024 * tlT m + n) (tcell (s.spad c) m d n)) (s.vec c).tiles := by
  simp only [State.tloadRun]
  have ha : ∀ (v : State) f, (v.orArith c f).vec c = v.vec c := fun _ _ => rfl
  rw [ha, State.vec_modVec, (SE.noteBytes _ _ _).vec, List.foldl_map]
  apply foldl_congr
  intro t n
  unfold tcell
  cases tileIx m d n <;> simp only

theorem State.vec_load (s : State) (c : Nat) (e : W256) (h1 : (s.vec c).vec = some e) (h0 : mMop e = 2) (h2 : s.enginesOn c = true) :
 let m := e.toNat; let d := (s.vec c).vdescs.get 0 0;
    ∃ u : State, exec (.tloadComplete c) s = .next (u.sigDone c 1 e) ∧ (u.vec c).vec = none ∧ (u.vec c).groupsDone = (if tlLin m then cdiv (tlCount m) 128 else 32) ∧ u.cores.queues = s.cores.queues ∧
      (∀ n, n < 1024 → (s.vec c).next ≤ n / (if tlLin m then 128 else 32) → (u.vec c).tiles.get {} (1024 * tlT m + n) = (match tileIx m d n with | some ix => let x := (s.spad c).elem d 0 {} (dStored d ix); { bits := (fEnter (dFmt d) x).1, bad := x.bad } | none => {})) ∧
      (∀ k, k < 1024 * tlT m ∨ 1024 * tlT m + 1024 ≤ k → (u.vec c).tiles.get {} k = (s.vec c).tiles.get {} k) := by
  intro m d
  have hg := get_foldl_put ({} : MCell) (fun n => 1024 * tlT m + n) (tcell (s.spad c) m d) ((s.vec c).tileElems m 32) (s.vec c).tiles (fun a _ b _ h => by omega)
  refine ⟨_, congrArg Host.Outcome.next (tileDone_ok h0 h1 h2), by simp, by simp [tileGroups, m], (SE.noteBytes _ _ _).2.1, ?_, ?_⟩
  · intro n hn hx
    have hmem : n ∈ (s.vec c).tileElems m 32 := by
      simp only [Vec.tileElems, List.mem_filter, List.mem_range, Bool.and_eq_true, decide_eq_true_eq]
      refine ⟨hn, hx, ?_⟩
      split <;> omega
    simp only [State.vec_modVec]
    rw [tload_tiles]
    exact hg.1 n hmem
  · intro k hk
    simp only [State.vec_modVec]
    rw [tload_tiles]
    exact hg.2 k (fun n hn => by simp only [Vec.tileElems, List.mem_filter, List.mem_range] at hn; omega)

theorem tstore_does (s : State) (c m d hi : Nat) :
    let x := s.vec c; let o := outWrites d (tsRnd m) (tsOvf m) ((x.tileElems m hi).filterMap (fun n => (tileIx m d n).map (fun ix => let y : MCell := x.tiles.get {} (1024 * tlT m + n); (ix, y.bits, y.bad)))) (s.rword c (tsSr m) 1);
    let u := s.tstoreRun c m d hi;
    (u.vec c).tiles = x.tiles ∧ u.spad c = (s.spad c).putElems o.1 ∧ u.arith c = s.arith c ||| o.2 ∧ (∀ b, b ≠ c → u.spad b = s.spad b) ∧ u.cores.queues = s.cores.queues ∧ u.cores.ctls = s.cores.ctls := by
  intro x o u
  have hu : u = ((s.storeElems c o.1).orArith c o.2).modVec c (fun y => { y with next := hi }) := rfl
  have hv : ∀ (t : State) f g, ((t.orArith c f).modVec c g).cores.spads = t.cores.spads := fun _ _ _ => rfl
  have hs := State.storeElems_does s c o.1
  rw [hu]
  generalize o.1 = w at *
  generalize o.2 = f
  refine ⟨?_, ?_, ?_, fun b hb => elems_other _ _ _ _ _ _ hb, (SE.elems _ _ _).2.1, (SE.elems _ _ _).1⟩
  · have h := congrArg Vec.tiles (SE.vec (SE.trans (SE.elems s c w) (SE.arith _ c f)) c)
    rw [State.vec_modVec]; exact h
  · rw [spad_of (hv _ _ _), spad_of (congrArg Cores.spads hs.1)]
    exact State.spad_setSpad s c _
  · have e : ∀ (t : State) g, ((t.orArith c f).modVec c g).arith c = t.arith c ||| f := by
      intro t g
      show (t.orArith c f).arith c = _
      simp [State.orArith, State.modArith]
    rw [e]
    have : State.arith (s.storeElems c w) c = s.arith c := by
      simp only [State.arith, hs.1]; rfl
    rw [this]

theorem State.vec_store (s : State) (c : Nat) (e : W256) (h1 : (s.vec c).vec = some e) (h0 : mMop e = 3) (h2 : s.enginesOn c = true) :
 let m := e.toNat; let x := s.vec c; let d := x.vdescs.get 0 0;
    let o := outWrites d (tsRnd m) (tsOvf m) ((x.tileElems m 32).filterMap (fun n => (tileIx m d n).map (fun ix => let y : MCell := x.tiles.get {} (1024 * tlT m + n); (ix, y.bits, y.bad)))) (s.rword c (tsSr m) 1);
    ∃ u : State, exec (.tstoreComplete c) s = .next (u.sigDone c 1 e) ∧ (u.vec c).vec = none ∧ (u.vec c).tiles = x.tiles ∧ u.spad c = (s.spad c).putElems o.1 ∧ u.arith c = s.arith c ||| o.2 ∧
      (∀ b, b ≠ c → u.spad b = s.spad b) ∧ u.cores.queues = s.cores.queues ∧ u.cores.ctls = s.cores.ctls := by
  intro m x d o
  have h := tstore_does s c m d 32
  dsimp only at h
  refine ⟨_, congrArg Host.Outcome.next (tileDone_ok h0 h1 h2), by simp, ?_, h.2.1, h.2.2.1, h.2.2.2.1, h.2.2.2.2.1, h.2.2.2.2.2⟩
  rw [State.vec_modVec]; exact h.1

theorem State.vec_chain (s : State) (c : Nat) (e : W256) (h0 : mMop e = 1) (h1 : (s.queue c 1).head = some e) (h2 : s.enginesOn c = true) (h3 : (s.vec c).admits e = true) (h4 : s.sigRight c e = true) :
 let x := s.vec c; let p := x.copy.getD (0, 2); let sp := s.spad c; let m := e.toNat; let descs : Table Nat := (vchainTds m p.1).map (fun t => (t.1, sp.nat (descAt t.2) 64)); let g := if vcO m then descs.get 0 3 else descs.get 0 0;
    let dim : Table Nat := [(0, vPadded sp (vcDynMask m) (vcDynAddr m) g 0), (1, vPadded sp (vcDynMask m) (vcDynAddr m) g 1), (2, vValid sp (vcDynMask m) (vcDynAddr m) g 0), (3, vValid sp (vcDynMask m) (vcDynAddr m) g 1)];
    let k := (s.popQ c 1).vchainCheck c { m := m, r := p.1, descs := descs, dim := dim } p.2;
    ∃ u : State, exec (.vchain c) s = .next u ∧ (u.vec c).copy = none ∧ (u.vec c).tiles = x.tiles ∧ (u.vec c).vecMop = 1 ∧
      if k = eOk then u.queue c 1 = (s.queue c 1).pop ∧ (u.vec c).vec = some e ∧ (u.vec c).vdescs = descs ∧ (u.vec c).vdim = dim ∧ (u.vec c).chain = p.1 ∧ (u.vec c).next = 0 ∧ (u.vec c).red = (if crRed p.1 then some e else x.red)
      else u.rejected s c 1 k e ∧ (u.vec c).vec = x.vec ∧ (u.vec c).red = x.red := by
  intro x p sp m descs g dim k
  refine ⟨_, congrArg Host.Outcome.next (vecAccept_ok h0 h1 h2 h3 h4), ?_⟩
  simp only [popQ_spad, popQ_vec]
  have hk : k = (s.popQ c 1).vchainCheck c { m := e.toNat, r := ((s.vec c).copy.getD (0, 2)).1, descs := descs, dim := dim } ((s.vec c).copy.getD (0, 2)).2 := rfl
  generalize hp : (s.vec c).copy.getD (0, 2) = p' at *
  have hp2 : p = p' := hp
  obtain ⟨r, st⟩ := p'
  have hr : p.1 = r := by rw [hp2]
  have hst : p.2 = st := by rw [hp2]
  have hds : descs = (vchainTds e.toNat r).map (fun t => (t.1, (s.spad c).nat (descAt t.2) 64)) := by simp only [descs, m, sp, hr]
  have hg : g = if vcO e.toNat then Table.get 0 ((vchainTds e.toNat r).map (fun t => (t.1, (s.spad c).nat (descAt t.2) 64))) 3 else Table.get 0 ((vchainTds e.toNat r).map (fun t => (t.1, (s.spad c).nat (descAt t.2) 64))) 0 := by simp only [g, hds, m]
  have hdm : dim = [(0, vPadded sp (vcDynMask m) (vcDynAddr m) g 0), (1, vPadded sp (vcDynMask m) (vcDynAddr m) g 1), (2, vValid sp (vcDynMask m) (vcDynAddr m) g 0), (3, vValid sp (vcDynMask m) (vcDynAddr m) g 1)] := rfl
  clear_value descs g dim
  simp only [m, sp] at hdm
  rw [hg] at hdm
  rw [← hds] at hdm
  rw [← hds]
  rw [← hdm]
  have hk' : State.vchainCheck (s.popQ c 1) c { m := e.toNat, r := r, descs := descs, dim := dim } st = k := hk.symm
  rw [hr]
  by_cases h : k = eOk
  · rw [if_neg (by rw [hk']; simp [h]), if_pos h]
    refine ⟨?_, ?_, ?_, ?_, ?_⟩
    · simp; rw [(SE.noteBytes _ _ _).vec]; simp
    · simp; rw [(SE.noteBytes _ _ _).vec]; simp [popQ_vec, x]
    · simp; rw [(SE.noteBytes _ _ _).vec]; simp
    · rw [modVec_queue, (SE.noteBytes _ _ _).queue, modVec_queue, popQ_queue]
    · simp only [State.vec_modVec]
      rw [(SE.noteBytes _ _ _).vec]
      simp only [State.vec_modVec, popQ_vec]
      exact ⟨trivial, trivial, trivial, trivial, trivial, rfl⟩
  · rw [if_pos (by rw [hk']; simp [h]), if_neg h]
    have hv := vec_of (reject_SEx ((s.popQ c 1).modVec c (fun x => { x with copy := none, vecMop := 1, redMop := if (crRed r || st != 0) = true then 1 else x.redMop, groupsDone := 0 })) c 1 k e).2.1 c
    rw [hk']
    refine ⟨by rw [hv]; simp, by rw [hv]; simp [popQ_vec, x], by rw [hv]; simp, reject_does _ _ _ _ _ _ (by rw [modVec_queue, popQ_queue]) (popQ_ctls s c 1), by rw [hv]; simp [popQ_vec, x], by rw [hv]; simp [popQ_vec, x]⟩

/-- work of the vector engine: the queues, the control processors and other cores' vector engines stay -/
def VR (c : Nat) (s u : State) : Prop := u.cores.queues = s.cores.queues ∧ u.cores.ctls = s.cores.ctls ∧ ∀ b, b ≠ c → u.vec b = s.vec b

theorem VR.trans {c : Nat} {s u v : State} (h : VR c s u) (k : VR c u v) : VR c s v := ⟨k.1.trans h.1, k.2.1.trans h.2.1, fun b hb => (k.2.2 b hb).trans (h.2.2 b hb)⟩

theorem VR.of_SE {c : Nat} {s u : State} (h : SE s u) : VR c s u := ⟨h.2.1, h.1, fun b _ => h.vec b⟩

theorem VR.mod (s : State) (c : Nat) (f : Vec → Vec) : VR c s (s.modVec c f) := ⟨rfl, rfl, fun b hb => Table.get_put_other _ _ _ _ _ hb⟩

theorem VR.red (s : State) (c : Nat) (o) : VR c s (s.redWrite c o) := ((VR.mod s c _).trans (VR.of_SE (SE.elems _ _ _))).trans (VR.of_SE (SE.arith _ _ _))

theorem VR.refl (c : Nat) (s : State) : VR c s s := VR.of_SE (SE.refl s)

theorem VR.vchain (s : State) (c : Nat) (e : W256) (hi : Nat) : VR c s (s.vchainRun c e hi) := by
  unfold State.vchainRun
  extract_lets q pts flags w0 w1 s1 s2 s3 s4 n s5
  have h2 : VR c s s2 := VR.of_SE ((((SE.noteBytes s c _).trans (SE.arith _ c _)).trans (SE.elems _ c _)).trans (SE.elems _ c _))
  clear_value s2
  have h3 : VR c s s3 := by
    simp only [s3]; split
    · exact h2.trans ((VR.red _ _ _).trans (VR.mod _ _ _))
    · exact h2
  clear_value s3
  have h4 : VR c s s4 := by
    simp only [s4]; split
    · split
      · exact h3.trans (VR.of_SE (SE.tap _ _ _ _))
      · exact h3
    · exact h3
  clear_value s4
  refine VR.trans ?_ (VR.mod _ c _)
  split
  · exact h4.trans (VR.of_SE ((SE.acct _ _ _ _).trans (SE.acct _ _ _ _)))
  · exact h4.trans (VR.of_SE (SE.acct _ _ _ _))

theorem SE.next (s u : State) (c n : Nat) (h : SE s u) : ((u.modVec c (fun y => { y with next := n })).vec c).tiles = (s.vec c).tiles := by
  have h2 := congrArg Vec.tiles (h.vec c)
  rw [State.vec_modVec]; exact h2

theorem vchain_quiet (s : State) (c : Nat) (e : W256) (hi : Nat) (h : crRed ((s.vec c).vc e).r = false) : ((s.vchainRun c e hi).vec c).tiles = (s.vec c).tiles ∧
    (vcO ((s.vec c).vc e).m = false → crO2 ((s.vec c).vc e).r = false → ((s.vchainRun c e hi).spad c).mem = (s.spad c).mem ∧ ((s.vchainRun c e hi).spad c).poison = (s.spad c).poison) := by
  unfold State.vchainRun
  extract_lets q pts flags w0 w1 s1 s2 s3 s4 n s5
  have hq : crRed q.r = false := h
  have h2 : SE s s2 := (((SE.noteBytes s c _).trans (SE.arith _ c _)).trans (SE.elems _ c _)).trans (SE.elems _ c _)
  have b2 : vcO q.m = false → crO2 q.r = false → SB s s2 := by
    intro h1 h2
    have he : ∀ (v : State), SB v (v.storeElems c []) := fun v => (SB.mod v c (fun sp => sp.putElems []) (fun _ => ⟨rfl, rfl⟩)).trans (SB.of_spads (congrArg Cores.spads (State.storeElems_does v c []).1))
    have ha : ∀ (v : State) f, SB v (v.orArith c f) := fun _ _ => SB.of_spads rfl
    have e0 : w0.1 = [] := by simp [w0, h1]
    have e1 : w1.1 = [] := by simp [w1, h2]
    simp only [s2, e0, e1]
    exact (((SB.noteBytes _ _ _).trans (ha _ _)).trans (he _)).trans (he _)
  clear_value s2
  have e3 : s3 = s2 := by simp [s3, hq]
  have h4 : SE s2 s4 ∧ SB s2 s4 := by
    simp only [s4, e3]; split
    · split
      · exact ⟨SE.tap _ _ _ _, SB.of_spads (by simp)⟩
      · exact ⟨SE.refl _, SB.refl _⟩
    · exact ⟨SE.refl _, SB.refl _⟩
  clear_value s4
  have h5 : SE s4 s5 ∧ SB s4 s5 := ⟨SE.acct _ _ _ _, SB.of_spads (by simp [s5])⟩
  clear_value s5
  rw [if_neg (by simp [hq])]
  exact ⟨SE.next _ _ _ _ ((h2.trans h4.1).trans h5.1), fun h1 h2 => ((((b2 h1 h2).trans h4.2).trans h5.2).trans (SB.of_spads rfl)) c⟩

theorem State.vec_chainEnds (s : State) (c : Nat) (e : W256) (h1 : (s.vec c).vec = some e) (h0 : mMop e = 1) (h2 : s.enginesOn c = true) :
 let x := s.vec c; let q := x.vc e; let w := s.vchainRun c e q.total;
    ∃ u : State, exec (.vchainComplete c) s = .next (u.sigDone c 1 e) ∧ u = w.modVec c (fun y => { y with vec := none, red := (if crRed q.r then none else y.red), groupsDone := q.total % 2 ^ 24 }) ∧ (u.vec c).vec = none ∧ (crRed q.r = true → (u.vec c).red = none) ∧
      u.cores.queues = s.cores.queues ∧ u.cores.ctls = s.cores.ctls ∧ (∀ b, b ≠ c → u.vec b = s.vec b) ∧ (crRed q.r = false → (u.vec c).tiles = x.tiles) ∧ (vcO q.m = false → crO2 q.r = false → crRed q.r = false → (u.spad c).mem = (s.spad c).mem ∧ (u.spad c).poison = (s.spad c).poison) := by
  intro x q w
  have hs : (mMop e != 1 || !s.enginesOn c) = false := by simp [h0, h2]
  have hw := VR.vchain s c e q.total
  refine ⟨_, by simp only [exec, execVchainComplete, h1, hs, Bool.false_eq_true, if_false]; rfl, rfl, by simp, fun h => by simp [q, x] at h ⊢; simp [h], hw.1, hw.2.1, fun b hb => ?_, fun h => ?_, fun ha hb h => (vchain_quiet s c e _ h).2 ha hb⟩
  · exact ((VR.mod _ c _).2.2 b hb).trans (hw.2.2 b hb)
  · rw [State.vec_modVec]; exact (vchain_quiet s c e _ h).1

theorem State.vec_reduce (s : State) (c : Nat) (e : W256) (h0 : mMop e = 8) (h1 : (s.queue c 1).head = some e) (h2 : s.enginesOn c = true) (h3 : (s.vec c).admits e = true) (h4 : s.sigRight c e = true) :
 let x := (s.spad c).nat (descAt (fld e.toNat 32 8)) 64; let y := (s.spad c).nat (descAt (fld e.toNat 40 8)) 64; let k := (s.popQ c 1).reduceCheck c e.toNat x y;
    ∃ u : State, exec (.reduce c) s = .next u ∧ (u.vec c).redMop = 8 ∧ (u.vec c).vec = (s.vec c).vec ∧ (u.vec c).tiles = (s.vec c).tiles ∧
      if k = eOk then u.queue c 1 = (s.queue c 1).pop ∧ (u.vec c).red = some e ∧ (u.vec c).rdescs = [(0, x), (1, y)] ∧ (u.vec c).rnext = 0 ∧ (u.vec c).entered = [] else u.rejected s c 1 k e ∧ (u.vec c).red = (s.vec c).red := by
  intro x y k
  refine ⟨_, congrArg Host.Outcome.next (vecAccept_ok h0 h1 h2 h3 h4), ?_⟩
  simp only [popQ_spad]
  have hk : (s.popQ c 1).reduceCheck c e.toNat x y = k := rfl
  simp only [x, y] at hk ⊢
  rw [hk]
  by_cases h : k = eOk
  · rw [if_pos h, if_neg (by simp [h])]
    simp only [State.vec_modVec]
    rw [(SE.noteRead _ _ _ _).vec]
    simp only [State.vec_modVec, popQ_vec]
    refine ⟨trivial, trivial, trivial, ?_, trivial, trivial, trivial, trivial⟩
    rw [modVec_queue, (SE.noteRead _ _ _ _).queue, modVec_queue, popQ_queue]
  · rw [if_neg h, if_pos (by simp [h])]
    have hv := vec_of (reject_SEx ((s.popQ c 1).modVec c (fun x => { x with redMop := 8 })) c 1 k e).2.1 c
    rw [hv]
    simp only [State.vec_modVec, popQ_vec]
    exact ⟨trivial, trivial, trivial, reject_does _ _ _ _ _ _ (by rw [modVec_queue, popQ_queue]) (popQ_ctls s c 1), trivial⟩

theorem VR.reduce (s : State) (c m hi : Nat) (k : Nat × Nat → Bool) : VR c s (s.reduceRun c m hi k) := by
  unfold State.reduceRun
  dsimp only
  exact ((VR.of_SE ((SE.noteBytes _ _ _).trans (SE.arith _ _ _))).trans (VR.red _ _ _)).trans ((VR.of_SE (SE.acct _ _ _ _)).trans (VR.mod _ _ _))

theorem State.vec_reduceEnds (s : State) (c : Nat) (e : W256) (h1 : (s.vec c).red = some e) (h0 : mMop e = 8) (h2 : s.enginesOn c = true) :
 (s.reduceBad c e.toNat = none → ∃ u : State, exec (.reduceComplete c) s = .next (u.sigDone c 1 e) ∧ u = (s.reduceRun c e.toNat (reduceGroups (s.vec c)) (fun _ => true)).modVec c (fun x => { x with red := none }) ∧ (u.vec c).red = none ∧ u.cores.queues = s.cores.queues ∧ u.cores.ctls = s.cores.ctls) ∧
    (∀ p, s.reduceBad c e.toNat = some p → ∃ u : State, exec (.acc96InputHalt c) s = .next u ∧ u.held s c 1 eFormat e ∧ u.cores.vecs = ((s.reduceRun c e.toNat (reduceGroups (s.vec c)) (keysBefore (rdAxis e.toNat) p)).modVec c (fun x => { x with red := none })).cores.vecs ∧ u.cores.spads = (s.reduceRun c e.toNat (reduceGroups (s.vec c)) (keysBefore (rdAxis e.toNat) p)).cores.spads) := by
  constructor
  · intro h
    have ex : exec (.reduceComplete c) s = .next (((s.reduceRun c e.toNat (reduceGroups (s.vec c)) (fun _ => true)).modVec c (fun x => { x with red := none })).sigDone c 1 e) := by
      simp only [exec, execReduceComplete, h1, h]
      rw [if_neg (by simp [h0, h2])]
    have hv := VR.reduce s c e.toNat (reduceGroups (s.vec c)) (fun _ => true)
    exact ⟨_, ex, rfl, by rw [State.vec_modVec], hv.1, hv.2.1⟩
  · intro p h
    have hv := VR.reduce s c e.toNat (reduceGroups (s.vec c)) (keysBefore (rdAxis e.toNat) p)
    have ex : exec (.acc96InputHalt c) s = .next (((s.reduceRun c e.toNat (reduceGroups (s.vec c)) (keysBefore (rdAxis e.toNat) p)).modVec c (fun x => { x with red := none })).reject c 1 eFormat e) := by
      simp only [exec, execAcc96InputHalt, h1, h]
      rw [if_neg (by simp [h0, h2])]
    exact ⟨_, ex, reject_held _ _ _ _ _ _ (queue_of hv.1 c 1) hv.2.1, (reject_SEx _ _ _ _ _).2.1, (reject_SEx _ _ _ _ _).2.2.1⟩

end Sys2Proof.Machine
end

