-- ==== Sys2Proof/Laws/Ways5.lean ====
section
/-! SUPPORT. Once each, what the shared operations and the commands over them do: the stream engines, channel frames and the commands of vats (R190-R220, R298-R328). -/

namespace Sys2Proof.Machine

theorem State.seInstr_go {s u : State} {c e w : Nat} (h : s.seGoes c e u w) (op : Nat) (ho : iOp w = op) (f : State → Nat → State) :
    s.seInstr c e op f = f u w := by
  obtain ⟨h1, h0, rfl, h2, h3, h4⟩ := h
  simp only [State.seInstr, h1, h0, ← h4, ho, bne_self_eq_false, Bool.not_true, Bool.or_self, Bool.false_eq_true, if_false, h2, if_true, ← h3]

theorem seEffect {s u : State} {c e w : Nat} (h : s.seGoes c e u w) (op : Nat) (ho : iOp w = op) (y : Se) (hy : ((u.se c e).addrEffect w).past = y) :
    s.seAddr c e op = u.setSe c e y := by
  simp only [State.seAddr, State.seInstr_go h op ho, State.modSe, hy]

theorem se_ar (u : State) (c e i : Nat) : (u.se c e).ar i = (u.se c e).a.get {} i := rfl

theorem se_of {s u : State} (h : u.cores.ses = s.cores.ses) (c e : Nat) : u.se c e = s.se c e := by simp only [State.se, h]

theorem popQ_se (s : State) (c q d e : Nat) : (s.popQ c q).se d e = s.se d e := se_of (congrArg Cores.ses (popQ_cores s c q)) _ _

theorem SE.se {s u : State} (h : SE s u) (c e : Nat) : u.se c e = s.se c e := se_of h.2.2.2.2.1 _ _

theorem reject_se (u : State) (c q st : Nat) (e : W256) (d i : Nat) : (u.reject c q st e).se d i = u.se d i := by
  unfold State.reject State.haltQueue
  rw [SE.se (SE.log _ _ _ _ _ _ _), SE.se (SE.trace _ _ _ _ _ _ _), SE.se (SE.raise _ _ _)]
  rfl

theorem State.stream_does (s : State) (c e : Nat) (m : W256) (h1 : mMop m = 1) (h2 : (s.queue c (2 + e)).head = some m) (h3 : e < 4) (h4 : s.enginesOn c = true)
 (h5 : (s.se c e).idle = true) (h6 : s.sigRight c m = true) :
 let x := s.se c e; let tds := match progFrom x.store 32 (stEntry m.toNat) with | some p => progTds p | none => []
 let ue := match progFrom x.store 32 (stEntry m.toNat) with | some p => p.any (fun q => NSet.has x.storeUe q.1) | none => false
 let ds := readDescs (s.spad c) tds; let k := if ue then ePoison else s.streamCheck c e m.toNat x.store ds (fun i => (s.spad c).bad (descAt i) 64)
 ∃ u : State, exec (.stream c e) s = .next u ∧ if k = eOk then u.queue c (2 + e) = (s.queue c (2 + e)).pop ∧ u.se c e = x.start m ds else u.rejected s c (2 + e) k m ∧ (u.se c e) = { x with mop := 1 } := by
  intro x tds ue ds k
  have hs : (mMop m != 1 || !(s.enginesOn c) || !(s.se c e).idle || decide (e ≥ 4)) = false := by simp [h1, h4, h5]; omega
  have ex : exec (.stream c e) s = .next (
      let s0 := tds.foldl (fun s i => s.noteRead c (descAt i) 64) (s.popQ c (2 + e))
      let v := if ue then s0.sramError c 0 0 else s0
      if (k != eOk) = true then (v.modSe c e (fun y => { y with mop := 1 })).reject c (2 + e) k m else v.modSe c e (fun y => y.start m ds)) := by
    simp only [exec, execStream, seQueue, h2, hs, h6, Bool.not_true, Bool.false_eq_true, if_false]; rfl
  dsimp only at ex
  generalize hv : (if ue then (tds.foldl (fun s i => s.noteRead c (descAt i) 64) (s.popQ c (2 + e))).sramError c 0 0 else tds.foldl (fun s i => s.noteRead c (descAt i) 64) (s.popQ c (2 + e))) = v at ex
  have hse : SE (s.popQ c (2 + e)) v := by
    rw [← hv]
    split
    · exact (SE.foldl _ _ (fun s i => SE.noteRead s c _ _) _).trans (SE.sram _ _ _ _)
    · exact SE.foldl _ _ (fun s i => SE.noteRead s c _ _) _
  have q1 : v.queue c (2 + e) = (s.queue c (2 + e)).pop := by rw [hse.queue, popQ_queue]
  have q2 : v.se c e = s.se c e := by rw [hse.se, popQ_se]
  refine ⟨_, ex, ?_⟩
  by_cases h : k = eOk
  · simp only [h, bne_self_eq_false, Bool.false_eq_true, if_false, if_true]
    refine ⟨?_, ?_⟩
    · rw [← q1]; rfl
    · simp [State.modSe, q2, x]
  · rw [if_neg h, if_pos (by simp [h])]
    refine ⟨reject_does _ _ _ _ _ _ (by rw [← q1]; rfl) (by have := hse.1; rw [popQ_ctls] at this; exact this), ?_⟩
    rw [reject_se, State.se_modSe, q2]

theorem State.spload_does (s : State) (c e : Nat) (m : W256) (h1 : mMop m = 2) (h2 : (s.queue c (2 + e)).head = some m) (h3 : e < 4) (h4 : s.enginesOn c = true)
 (h5 : (s.se c e).idle = true) (h6 : s.sigRight c m = true) :
 let n := m.toNat; let first := fld n 32 5; let cnt := fld n 37 5 + 1; let src := fld n 64 19
    let k := if 32 < first + cnt ∨ src % 8 ≠ 0 ∨ fld n 42 22 ≠ 0 ∨ fld n 83 173 ≠ 0 then eFormat else if 0x80000 < src + 8 * cnt then eRange
      else if (s.spad c).bad src (8 * cnt) then ePoison else eOk
    ∃ u : State, exec (.spload c e) s = .next u ∧ if k = eOk then u.queue c (2 + e) = (s.queue c (2 + e)).pop ∧
        u.se c e = { s.se c e with mop := 2, entry := some m, spload := some (first, (List.range cnt).map (fun i => (s.spad c).nat (src + 8 * i) 8)) }
      else u.rejected s c (2 + e) k m ∧ u.se c e = { s.se c e with mop := 2 } := by
  intro n first cnt src k
  have hs : (mMop m != 2 || !(s.enginesOn c) || !(s.se c e).idle || decide (e ≥ 4)) = false := by simp [h1, h4, h5]; omega
  generalize hv : (s.popQ c (2 + e)).modSe c e (fun y => { y with mop := 2 }) = v
  have q1 : v.queue c (2 + e) = (s.queue c (2 + e)).pop := by rw [← hv, ← popQ_queue]; rfl
  have q2 : v.cores.ctls = s.cores.ctls := by rw [← hv]; exact popQ_ctls s c _
  have q3 : v.se c e = { s.se c e with mop := 2 } := by rw [← hv, State.se_modSe, popQ_se]
  have ex : exec (.spload c e) s = .next (if 32 < first + cnt ∨ src % 8 ≠ 0 ∨ fld n 42 22 ≠ 0 ∨ fld n 83 173 ≠ 0 then v.reject c (2 + e) eFormat m
      else if 0x80000 < src + 8 * cnt then v.reject c (2 + e) eRange m
      else if (s.spad c).bad src (8 * cnt) then (v.noteRead c src (8 * cnt)).reject c (2 + e) ePoison m
      else (v.noteRead c src (8 * cnt)).modSe c e (fun y => { y with entry := some m, spload := some (first, (List.range cnt).map (fun i => (s.spad c).nat (src + 8 * i) 8)) })) := by
    simp only [exec, execSpload, seQueue, h2, hs, h6, Bool.not_true, Bool.false_eq_true, if_false, hv, Bool.or_eq_true, decide_eq_true_eq, bne_iff_ne, spadSize, gt_iff_lt, or_assoc]; rfl
  refine ⟨_, ex, ?_⟩
  by_cases a1 : 32 < first + cnt ∨ src % 8 ≠ 0 ∨ fld n 42 22 ≠ 0 ∨ fld n 83 173 ≠ 0
  · have hk : k = eFormat := if_pos a1
    rw [if_pos a1, hk, if_neg (by decide)]
    exact ⟨reject_does _ _ _ _ _ _ q1 q2, by rw [reject_se, q3]⟩
  · by_cases a2 : 0x80000 < src + 8 * cnt
    · have hk : k = eRange := by simp only [k]; rw [if_neg a1, if_pos a2]
      rw [if_neg a1, if_pos a2, hk, if_neg (by decide)]
      exact ⟨reject_does _ _ _ _ _ _ q1 q2, by rw [reject_se, q3]⟩
    · by_cases a3 : (s.spad c).bad src (8 * cnt) = true
      · have hk : k = ePoison := by simp only [k]; rw [if_neg a1, if_neg a2, if_pos a3]
        rw [if_neg a1, if_neg a2, if_pos a3, hk, if_neg (by decide)]
        exact ⟨reject_does _ _ _ _ _ _ (by rw [(SE.noteRead _ _ _ _).queue, q1]) ((SE.noteRead _ _ _ _).1.trans q2), by rw [reject_se, (SE.noteRead _ _ _ _).se, q3]⟩
      · have hk : k = eOk := by simp only [k]; rw [if_neg a1, if_neg a2, if_neg a3]
        rw [if_neg a1, if_neg a2, if_neg a3, hk, if_pos rfl]
        refine ⟨?_, ?_⟩
        · rw [← q1, ← (SE.noteRead v c src (8 * cnt)).queue]; rfl
        · rw [State.se_modSe, (SE.noteRead _ _ _ _).se, q3]

theorem noteRead_ses (s : State) (c a n : Nat) : (s.noteRead c a n).cores.ses = s.cores.ses := (SE.noteRead s c a n).2.2.2.2.1

theorem get_put_words (ws : List Nat) (first j : Nat) (t : Table Nat) :
  (∀ i x, ws[i]? = some x → ((ws.mapIdx (fun i w => (first + (i + j), w))).foldl (fun t q => Table.put t q.1 q.2) t).get 0 (first + (i + j)) = x) ∧
  (∀ k, k < first + j ∨ first + j + ws.length ≤ k → ((ws.mapIdx (fun i w => (first + (i + j), w))).foldl (fun t q => Table.put t q.1 q.2) t).get 0 k = t.get 0 k) := by
  induction ws generalizing j t with
  | nil => simp
  | cons a l ih =>
    simp only [List.mapIdx_cons, List.foldl_cons, Nat.zero_add]
    have hf : (fun (i : Nat) (w : Nat) => (first + (i + 1 + j), w)) = fun i w => (first + (i + (j + 1)), w) := by funext i w; rw [Nat.add_assoc i 1 j, Nat.add_comm 1 j]
    rw [hf]
    have ih := ih (j + 1) (t.put (first + j) a)
    refine ⟨fun i x hx => ?_, fun k hk => ?_⟩
    · cases i with
      | zero =>
        simp only [List.getElem?_cons_zero, Option.some.injEq] at hx
        subst hx
        rw [Nat.zero_add, ih.2 _ (by omega), Table.get_put_self]
      | succ i =>
        simp only [List.getElem?_cons_succ] at hx
        have := ih.1 i x hx
        rw [show first + (i + 1 + j) = first + (i + (j + 1)) by omega]
        exact this
    · rw [ih.2 k (by simp only [List.length_cons] at hk; omega), Table.get_put_other _ _ _ _ _ (by simp only [List.length_cons] at hk; omega)]

theorem has_remRange (s : NSet) (a n k : Nat) (h : a ≤ k ∧ k < a + n) : NSet.has (NSet.remRange s a n) k = false := by
  simp only [NSet.has, NSet.remRange]
  rw [Bool.eq_false_iff]
  intro hc
  simp at hc
  omega

theorem State.sploaded_does (s : State) (c e first : Nat) (ws : List Nat) (m : W256) (h1 : (s.se c e).entry = some m) (h2 : (s.se c e).spload = some (first, ws)) :
 ∃ u : State, exec (.sploadComplete c e) s = .next (u.sigDone c (2 + e) m) ∧ (u.se c e).entry = none ∧ (u.se c e).spload = none ∧ (∀ i x, ws[i]? = some x → (u.se c e).store.get 0 (first + i) = x ∧ NSet.has (u.se c e).storeUe (first + i) = false) ∧
      (∀ k, k < first ∨ first + ws.length ≤ k → (u.se c e).store.get 0 k = (s.se c e).store.get 0 k) := by
  have hg := get_put_words ws first 0 (s.se c e).store
  simp only [Nat.add_zero] at hg
  refine ⟨_, by simp only [exec, execSploadComplete, h1, h2, seQueue]; rfl, by simp, by simp, ?_, ?_⟩
  · intro i x hx
    rw [State.se_modSe]
    refine ⟨hg.1 i x hx, has_remRange _ _ _ _ ⟨by omega, ?_⟩⟩
    have := (List.getElem?_eq_some_iff.mp hx).1
    omega
  · intro i hi; rw [State.se_modSe]; exact hg.2 i hi

theorem op_ne {w a b : Nat} (h : iOp w = a) (k : (a == b) = false) : (iOp w = b) = False := by rw [h]; simpa using k

theorem st_ctr_setSe (u : State) (c e : Nat) (x : Se) (a : Nat) : (u.setSe c e x).ctr a = u.ctr a := rfl

theorem ite_ne {α : Type} (k : Nat) (a b : α) : (if (k != eOk) = true then a else b) = if k = eOk then b else a := by by_cases h : k = eOk <;> simp [h]

theorem State.openCheck_ok (s : State) (c : Nat) (m : ChMsg) (h1 : s.openCheck c m = eOk) :
  let x := s.ep c (m.dstEp % 64); let p := (s.port m.port).perm
    cdRole x.desc = 2 ∧ cdPath x.desc = 3 ∧ x.st = .listen ∧ (m.remote = true → p.chan = true ∧ p.lo ≤ m.srcNode ∧ m.srcNode ≤ p.hi) ∧
    (∃ v, s.vatOfCore c = some v ∧ (s.vat v).jobValid = true ∧ (s.vat v).jobId = m.job) ∧ (∃ i, i < 4096 ∧ (s.conn i).opened = false) := by
  intro x p
  unfold State.openCheck at h1
  dsimp only at h1
  by_cases b1 : (m.remote && !((s.port m.port).perm.chan && decide ((s.port m.port).perm.lo ≤ m.srcNode) && decide (m.srcNode ≤ (s.port m.port).perm.hi))) = true
  · rw [if_pos b1] at h1; cases h1
  by_cases b2 : (cdRole x.desc != 2 || cdPath x.desc != 3 || x.st != .listen) = true
  · rw [if_neg b1, if_pos b2] at h1; cases h1
  rw [if_neg b1, if_neg b2] at h1
  cases hv : s.vatOfCore c with
  | none => simp [hv] at h1; cases h1
  | some v =>
    by_cases b3 : ((s.vat v).jobValid && (s.vat v).jobId == m.job) = true
    · by_cases b4 : ((List.range 4096).find? (fun i => !(s.conn i).opened)).isNone = true
      · simp only [hv, b3, b4, if_true, if_false, Bool.not_true, Bool.false_eq_true] at h1; cases h1
      · simp only [Option.isNone_iff_eq_none, List.find?_eq_none, not_forall] at b4
        obtain ⟨i, hi, h⟩ := b4
        simp at b1 b2 b3
        exact ⟨b2.1.1, b2.1.2, b2.2, fun h => by have := b1 h; simp only [p]; exact ⟨this.1.1, this.1.2, this.2⟩, ⟨v, rfl, b3⟩, ⟨i, by simpa using hi, by simpa using h⟩⟩
    · simp only [hv, b3] at h1; simp at h1; cases h1

theorem mapIdx_id {α : Type} (l : List α) (f : Nat → α → α) (h : ∀ j y, f j y = y) : List.mapIdx f l = l := by
  apply List.ext_getElem <;> simp [h]

theorem ite_ne0 {α : Type} (k : Nat) (a b : α) : (if (k != 0) = true then a else b) = if k = 0 then b else a := by by_cases h : k = 0 <;> simp [h]

theorem fire_span (s : State) (n : Nat) : (s.fire n).span = s.span := by have h := State.fire_same s n; simp only [h]

theorem take_drop_while {α : Type} (p : α → Bool) (a b : List α) (x : α) (h : a.all p = true) (hx : p x = false) :
  (a ++ x :: b).takeWhile p = a ∧ (a ++ x :: b).dropWhile p = x :: b := by
  induction a with
  | nil => simp [List.takeWhile, List.dropWhile, hx]
  | cons y l ih =>
    simp only [List.all_cons, Bool.and_eq_true] at h
    simp [List.takeWhile_cons, List.dropWhile_cons, h.1, ih h.2]

theorem log_dw {p0 : LogItem → Bool} {log items rest : List LogItem} {no : Nat} (h1 : log = items ++ .commit no :: rest) (h2 : items.all p0 = true) (h0 : p0 (.commit no) = false) (p : LogItem → Bool) (hp : p = p0) :
  log.dropWhile p = .commit no :: rest ∧ log.takeWhile p = items := by
  subst hp; subst h1; exact (take_drop_while p items rest _ h2 h0).symm

theorem State.command_taken {s u : State} {src : Src} {op v : Nat} {k : Caller} (h : s.taken src op v = some (u, k)) (f : State → Caller → State) :
  s.command src op v f = f u k := by
  unfold State.taken at h
  split at h
  · cases h
  · rename_i h1
    simp only [Bool.or_eq_true, not_or, Bool.not_eq_true', Bool.not_eq_true, Bool.not_eq_false'] at h1
    have hf : (!s.fastOn) = false := by simp [h1.1]
    have hn := h1.2
    cases src with
    | host r =>
      simp only at h
      cases hq : (s.ring r).nextCmd with
      | none => rw [hq] at h; cases h
      | some c =>
        rw [hq] at h; simp only at h
        split at h
        · rename_i h2
          obtain ⟨rfl, rfl⟩ := Prod.mk.inj (Option.some.inj h)
          simp only [State.command, hq, h2.1, h2.2.1, bne_self_eq_false, hf, Bool.or_self, Bool.false_eq_true, if_false, hn]
          rw [if_neg (by rcases h2.2.2 with h3 | h3 | h3 <;> simp [h3])]
        · cases h
    | vatman =>
      simp only at h
      split at h
      · rename_i h2
        obtain ⟨rfl, rfl⟩ := Prod.mk.inj (Option.some.inj h)
        simp only [State.command, h2, hf, Bool.not_true, Bool.or_self, Bool.false_eq_true, if_false, hn]
      · cases h
    | mgmt =>
      simp only at h
      split at h
      · rename_i h2
        obtain ⟨rfl, rfl⟩ := Prod.mk.inj (Option.some.inj h)
        simp only [State.command, h2, hf, Bool.not_true, Bool.or_self, Bool.false_eq_true, if_false, hn]
      · cases h
    | debug =>
      simp only at h
      split at h
      · rename_i h2
        obtain ⟨rfl, rfl⟩ := Prod.mk.inj (Option.some.inj h)
        simp only [State.command, h2, hf, Bool.not_true, Bool.or_self, Bool.false_eq_true, if_false, hn]
      · cases h

theorem endReclaim_hub (s : State) (v e : Nat) : (s.endReclaim v e).hub = s.hub := by have h := State.endReclaim_same s v e; simp [h]

theorem irqSettle_net (s : State) (b : Bool) : (s.irqSettle b).net = s.net := by have h := State.irqSettle_same s b; simp [h]

end Sys2Proof.Machine
end

