-- ==== Sys2Proof/Laws/Ways6.lean ====
section
/-! SUPPORT. Once each, what the shared operations and the commands over them do: the stack engines, the register space and the tick (R370-R398, R610-R625). -/

namespace Sys2Proof.Machine

theorem ifn {α : Type} {c : Bool} {a b : α} (q : c = false) : (if c = true then a else b) = b := by rw [q]; rfl

theorem ift {α : Type} {c : Bool} {a b : α} (q : c = true) : (if c = true then a else b) = a := by rw [q]; rfl

theorem nexts {s t : State} (h : s = t) : (Host.Outcome.next s : Res) = .next t := by rw [h]

theorem stkOp_run {s : State} {id op : Nat} {k : StkCmd} {f : State → StkCmd → State} (h1 : s.stkCmd id = some k) (h2 : rOp k.rec_ = op)
    (h3 : rOptim k.rec_ = false ∨ rPrescan k.rec_ = false ∨ k.stage ≠ .ready) (h4 : k.stage = .ready ∨ k.stage = .go ∨ k.stage = .total) :
    s.stkOp id op f = f s k := by
  have q : (k.stage == .ready && rOptim k.rec_ && rPrescan k.rec_) = false := by
    rcases h3 with a | a | a <;> simp [a]
  have q2 : (k.stage == .ready || k.stage == .go || k.stage == .total) = true := by rcases h4 with a | a | a <;> simp [a]
  simp only [State.stkOp, h1, h2, bne_self_eq_false, Bool.false_eq_true, if_false, q, q2, if_true]

theorem not_optim {r op : Nat} (h : rOp r = op) (n : op ≠ 3) (n4 : op ≠ 4) (n5 : op ≠ 5) : rOptim r = false := by simp [rOptim, h, n, n4, n5]

theorem stkOp_plain {s : State} {id op : Nat} {k : StkCmd} {f : State → StkCmd → State} (h1 : s.stkCmd id = some k) (h2 : rOp k.rec_ = op)
    (h4 : k.stage = .ready ∨ k.stage = .go ∨ k.stage = .total) (n : op ≠ 3) (n4 : op ≠ 4) (n5 : op ≠ 5) : s.stkOp id op f = f s k :=
  stkOp_run h1 h2 (.inl (not_optim h2 n n4 n5)) h4

theorem stkOp_opt {s : State} {id op : Nat} {k : StkCmd} {f : State → StkCmd → State} (h1 : s.stkCmd id = some k) (h2 : rOp k.rec_ = op)
    (h3 : (k.stage = .ready ∧ rPrescan k.rec_ = false) ∨ k.stage = .go) : s.stkOp id op f = f s k :=
  stkOp_run h1 h2 (by rcases h3 with a | a
                      · exact .inr (.inl a.2)
                      · exact .inr (.inr (by simp [a]))) (by rcases h3 with a | a
                                                             · exact .inl a.1
                                                             · exact .inr (.inl a))

theorem foldl_inv {α β : Type} (P : β → Prop) (f : β → α → β) (l : List α) (b : β) (h : P b) (hs : ∀ b a, P b → P (f b a)) : P (l.foldl f b) := by
  induction l generalizing b with
  | nil => exact h
  | cons a t ih => exact ih _ (hs _ _ h)

theorem planOk_bit (f : Nat → Bool) (p : Nat) (hp : p < 8) :
    ((List.range 8).foldl (fun (b : BitVec 8) p => if f p then b ||| (1#8 <<< p) else b) 0).getLsbD p = f p := by
  have e : List.range 8 = [0, 1, 2, 3, 4, 5, 6, 7] := by decide
  rw [e]; simp only [List.foldl]
  generalize e0 : f 0 = a0; generalize e1 : f 1 = a1; generalize e2 : f 2 = a2; generalize e3 : f 3 = a3
  generalize e4 : f 4 = a4; generalize e5 : f 5 = a5; generalize e6 : f 6 = a6; generalize e7 : f 7 = a7
  match p, hp with
  | 0, _ => rw [e0]; clear e e0 e1 e2 e3 e4 e5 e6 e7; revert a0 a1 a2 a3 a4 a5 a6 a7; decide
  | 1, _ => rw [e1]; clear e e0 e1 e2 e3 e4 e5 e6 e7; revert a0 a1 a2 a3 a4 a5 a6 a7; decide
  | 2, _ => rw [e2]; clear e e0 e1 e2 e3 e4 e5 e6 e7; revert a0 a1 a2 a3 a4 a5 a6 a7; decide
  | 3, _ => rw [e3]; clear e e0 e1 e2 e3 e4 e5 e6 e7; revert a0 a1 a2 a3 a4 a5 a6 a7; decide
  | 4, _ => rw [e4]; clear e e0 e1 e2 e3 e4 e5 e6 e7; revert a0 a1 a2 a3 a4 a5 a6 a7; decide
  | 5, _ => rw [e5]; clear e e0 e1 e2 e3 e4 e5 e6 e7; revert a0 a1 a2 a3 a4 a5 a6 a7; decide
  | 6, _ => rw [e6]; clear e e0 e1 e2 e3 e4 e5 e6 e7; revert a0 a1 a2 a3 a4 a5 a6 a7; decide
  | 7, _ => rw [e7]; clear e e0 e1 e2 e3 e4 e5 e6 e7; revert a0 a1 a2 a3 a4 a5 a6 a7; decide

theorem links_boot_net (f : State → Nat → Bool) (l : List Nat) (s : State) :
    (l.foldl (fun s p => if f s p then s.linkTo p .down else s) s).boot = s.boot ∧ (l.foldl (fun s p => if f s p then s.linkTo p .down else s) s).net = s.net := by
  induction l generalizing s with
  | nil => exact ⟨rfl, rfl⟩
  | cons a t ih =>
    have h := ih (if f s a then s.linkTo a .down else s)
    simp only [List.foldl]; rw [h.1, h.2]
    cases f s a <;> simp

theorem seal_parts (s : State) :
    let ok := (List.range 8).foldl (fun (b : BitVec 8) p => if s.planWf p then b ||| (1#8 <<< p) else b) 0
    let s1 : State := { s with net := { s.net with planOk := ok }, boot := { s.boot with sealed := true, stage := .sealed, rst := none } }
    let s2 := (List.range 6).foldl (fun s p => if (s.port p).en && (s.port p).st == .disabled then s.linkTo p .down else s) s1
    let t := if s2.span.tw.cfgEn && (s2.port twinPort).st == .disabled then s2.linkTo twinPort .down else s2
    t.boot.sealed = true ∧ t.boot.stage = .sealed ∧ t.boot.rst = none ∧ (∀ p, p < 8 → t.net.planOk.getLsbD p = s.planWf p) := by
  intro ok s1 s2 t
  have a := links_boot_net (fun s p => (s.port p).en && (s.port p).st == .disabled) (List.range 6) s1
  have b : t.boot = s2.boot ∧ t.net = s2.net := by
    simp only [t]; split
    · simp
    · exact ⟨rfl, rfl⟩
  have hb : t.boot = s1.boot := b.1.trans a.1
  have hn : t.net = s1.net := b.2.trans a.2
  rw [hb, hn]
  exact ⟨rfl, rfl, rfl, fun p hp => planOk_bit _ p hp⟩

theorem inArray_hit {o n k w i : Nat} (hi : i < n) (hk : 0 < w) (hw : w ≤ k) : inArray (o + k * i) o n k w = some i := by
  have e : o + k * i - o = k * i := by omega
  have m : k * i % k = 0 := Nat.mul_mod_right k i
  have d : k * i / k = i := Nat.mul_div_cancel_left i (by omega)
  have l : k * i < n * k := by rw [Nat.mul_comm n k]; exact Nat.mul_lt_mul_of_pos_left hi (by omega)
  unfold inArray
  rw [e, m, d]
  exact if_pos (by simp; omega)

theorem inArray_miss {a o n k w : Nat} (h : a < o ∨ o + n * k ≤ a) : inArray a o n k w = none := by
  unfold inArray
  exact if_neg (by simp; omega)

theorem mgmt_write (s : State) (off size x : Nat) (k : RegView) (h1 : s.pwr.on = true) (h2 : 0x4000 ≤ off) (h3 : off < 0x1000000)
    (hk : s.regAt (.core mgmtCore) off = some k) (hf : k.fits off size = true) (hc : off < 0x500000 ∨ 0x600000 ≤ off)
    (hr : off < 0x380000 ∨ (0x400000 ≤ off ∧ off < 0xA00000)) :
    s.writeCmd (.core mgmtCore) off size x =
      (k.write ((off - k.base) / 8) (x % 2 ^ (8 * size))).1.send (.regAnswer (.core mgmtCore) off (k.write ((off - k.base) / 8) (x % 2 ^ (8 * size))).2 0) := by
  have t : s.throughView off = some off := if_neg (by simp; omega)
  have bc : s.blockCore off = none := if_neg (by simp; omega)
  have f : s.regFind (.core mgmtCore) off size true = .ok (k, off) := by
    have r : s.regMay (.core mgmtCore) off true = eOk := by
      have q : (decide (3670016 ≤ off) && decide (off < 4194304) || decide (10485760 ≤ off) && decide (off < 16777216)) = false := by simp; omega
      simp only [State.regMay, State.regRight, if_true, q]; rfl
    simp only [State.regFind, State.whoOff, Option.bind, t]
    exact (ifn (by rw [r]; rfl)).trans (by rw [hk]; exact if_pos hf)
  have rc : s.reached (.core mgmtCore) off = none := by simp only [State.reached, State.whoOff, Option.bind, t]; exact bc
  have tc : s.touchCore (.core mgmtCore) off true = s := by simp only [State.touchCore, rc]
  have w : s.regWrite (.core mgmtCore) off size x = k.write ((off - k.base) / 8) (x % 2 ^ (8 * size)) := by
    unfold State.regWrite
    refine (if_neg (by simp; omega)).trans ?_
    rw [f]; simp only; rw [tc, f]
  have cs : s.cmdSleeps (.core mgmtCore) off x = none := by
    simp only [State.cmdSleeps, State.whoOff]
    refine if_neg ?_
    intro c
    have c' := c
    simp only [Bool.and_eq_true, decide_eq_true_eq] at c'
    omega
  refine (ifn (congrArg Bool.not h1)).trans ?_
  simp only [State.pfAlone, whoHost, State.lostVf, State.sleepingCl, w, whoSees, cs]; rfl

theorem firmware_idle (s : State) (off size x : Nat) (h1 : s.pwr.on = true) (h2 : s.boot.stage ≠ .failed) (h3 : s.manRec = none) :
    exec (.registerWrite (.core mgmtCore) off size x) s = .next (s.writeCmd (.core mgmtCore) off size x) := by
  refine nexts ((ift (beq_self_eq_true _)).trans ((ifn (by simp [h1, h2])).trans ?_))
  rw [h3]

theorem tickVat_clk (s : State) (n v : Nat) : (s.tickVat n v).clk = s.clk := by
  unfold State.tickVat; split <;> simp [State.drawFree]

theorem fold_clk {α : Type} (f : State → α → State) (h : ∀ s a, (f s a).clk = s.clk) (l : List α) (z : State) : (l.foldl f z).clk = z.clk :=
  foldl_inv (fun w => w.clk = z.clk) f l z rfl (fun b a k => (h b a).trans k)

theorem tick_clk (s : State) (h : s.pwr.on = true) :
    s.tick.clk = s.tickClock.clk := by
  have hv := fun (l : List (Nat × Vec)) z => fold_clk (fun s p => s.vecSettle p.1) (fun s p => (State.vecSettle_same s p.1).2.1) l z
  have hc := fun (l : List (Nat × Chn)) z => fold_clk (fun s p => s.chnWindow p.1) (fun s p => (State.chnWindow_same s p.1).2.1) l z
  have hf := fun (l : List (Nat × Ctl)) z => fold_clk (fun s p => s.fetch p.1) (fun s p => (State.fetch_same s p.1).2.1) l z
  have ht := fun (n : Nat) (l : List Nat) z => fold_clk (fun s v => s.tickVat n v) (fun s v => tickVat_clk s n v) l z
  unfold State.tick
  refine (congrArg State.clk (ifn (by rw [h]; rfl))).trans ?_
  simp only [hv, hc, hf, ht]
  simp only [State.tickIdle, State.holdStretch_same, State.tickStretch, State.tickSlot]
  repeat' split
  all_goals simp

end Sys2Proof.Machine
end

