-- ==== Sys2Proof/Tests/Slice0.lean ====
section
/-! SUPPORT. Tests: the checks of well-formed commands, effects of single commands, the worked examples of the spec, and for every statement
with hypotheses a state and operands that meet them together. -/

set_option maxRecDepth 100000

open Sys2Proof Sys2Proof.Machine

/-! Small states that the tests and the witnesses below share. -/

/-- A device in which vat 0, of cluster 0, runs its sheet and core 0 runs in it. -/
def Demo.live : State :=
  { State.reset with
    cores := { ctls := [(0, { run := .running, started := true, pc := 0x40 })] }
    net := { plans := [(0, { valid := true, vatmanCluster := 0, clusters := 1 })] }
    vats := [(0, { st := .running })] }

/-- The same with a value in a register of core 0. -/
def Demo.with (r : Reg) (x : W64) : State := { Demo.live with cores := { ctls := [(0, { run := .running, started := true, pc := 0x40, g := [(r.toNat, x)] })] } }

/-- A device whose stream engine 3 of core 0 runs a program that is one DELIV. -/
def Demo.stream : State :=
  { Demo.live with cores := { ctls := [(0, { run := .running, started := true })], ses := [(3, { entry := some 1, mop := 1, store := [(0, 0x7800000000000000)] })] } }

/-- The same with a program that is one MOV. -/
def Demo.mov : State :=
  { Demo.live with cores := { ctls := [(0, { run := .running, started := true })], ses := [(3, { entry := some 1, mop := 1, store := [(0, 0x3000000000000000)] })] } }

/-- The engine of `Demo.stream` with a move whose pieces wait for buffer room. -/
def Demo.moving : State :=
  { Demo.live with cores := { ctls := [(0, { run := .running, started := true })], ses := [(3, { entry := some 1, mop := 1, store := [(0, 0x7800000000000000)], moves := [{ todo := [(0, 4)] }] })] } }

/-- The same with one page of couch stack for each core of the vat. -/
def Demo.couch : State := { Demo.stream with vats := [(0, { st := .running, couchPages := 1 })] }

/-- A device whose span port 0 has received one frame. -/
def Demo.rx (f : Frame) : State := { State.reset with span := { ports := [(0, { en := true, st := .up, rxq := [{ f := f }] })] } }

/-- The state after that frame is taken. -/
def Demo.taken (f : Frame) : State := (((Demo.rx f).takeFrame 0 (fun _ => true)).getD ({}, State.reset)).2

/-- A device whose vat 0 holds job 0 with export window 0 over stack memory, which span port 0 may reach, and which has a request to it. -/
def Demo.openWith (o : Bool) (k : Nat) : State :=
  { State.reset with
    vats := [(0, { st := .running, jobValid := true })]
    mem := { region := [(0, (true, 0))] }
    span := { exports := [(0, { base := 0, npages := 1, rd := true, wr := true, open_ := o })], ports := [(0, { perm := { win := true }, rxq := [{ f := { kind := k, len := 32 } }] })] } }

/-- The state after its frame is taken. -/
def Demo.opened (o : Bool) (k : Nat) : State := (((Demo.openWith o k).takeFrame 0 (fun _ => true)).getD ({}, State.reset)).2

/-- A device whose twin port has received one frame, in a twin state. -/
def Demo.twin (t : Twin) (f : Frame) : State := { State.reset with span := { tw := t, ports := [(twinPort, { st := .up, rxq := [{ f := f }] })] } }

/-- The state after that frame is taken. -/
def Demo.twinTaken (t : Twin) (f : Frame) : State := (((Demo.twin t f).takeFrame twinPort (fun _ => true)).getD ({}, State.reset)).2

/-- An active twin with a BEAT of its peer. -/
def Demo.beat : State := { State.reset with span := { tw := { st := .active }, ports := [(twinPort, { st := .up, rxq := [{ f := { kind := 1 }, stamped := true }] })] } }

/-- The same with the BEAT taken. -/
def Demo.beaten : State := ((Demo.beat.takeFrame twinPort (fun _ => true)).getD ({}, State.reset)).2

/-- An active twin with a commit of vat 0 open and its CACK received. -/
def Demo.cack : State := { Demo.twin {} { kind := 5 } with vats := [(0, { tw := { commits := [{}] } })] }

/-- The same with the CACK taken. -/
def Demo.cacked : State := ((Demo.cack.takeFrame twinPort (fun _ => true)).getD ({}, State.reset)).2

/-- An active twin with a commit of vat 0 open and a CACK with E_POISON received. -/
def Demo.cackBad : State := { Demo.twin {} { kind := 5, unit := 0x700 } with vats := [(0, { tw := { commits := [{}] } })] }

/-- The same with the CACK taken. -/
def Demo.cackedBad : State := ((Demo.cackBad.takeFrame twinPort (fun _ => true)).getD ({}, State.reset)).2

/-- A mirror whose vat 0 is standby, with a COMMIT received. -/
def Demo.standby : State := { Demo.twin { st := .mirror } { kind := 0xA } with vats := [(0, { tw := { standby := true } })] }

/-- The same with the COMMIT taken. -/
def Demo.stoodBy : State := ((Demo.standby.takeFrame twinPort (fun _ => true)).getD ({}, State.reset)).2

/-- A device with vat 0 of cluster 0 in a state, and one command for it at the head of ring 0. -/
def Demo.cmd (op : Nat) (x : Vat) (entry : Nat) : State :=
  { State.reset with
    pwr := { on := true }
    net := { plans := [(0, { valid := true, vatmanCluster := 0, clusters := 1 })] }
    vats := [(0, x)]
    host := { rings := [(0, { en := true, cmds := [{ uid := 1, op := op, entry := entry }] })] } }

/-- The state and the caller with which that command is taken. -/
def Demo.took (op : Nat) (x : Vat) (entry : Nat) : State := (((Demo.cmd op x entry).taken (.host 0) op 0).getD (State.reset, {})).1

/-- A synchronisation unit whose answer waits at port 0. -/
def Demo.exchanged (unit : Nat) (g : GtcSync) : State := { State.reset with hub := { State.reset.hub with gs := g }, span := { ports := [(0, { en := true, st := .up, rxq := [{ f := { kind := 2, unit := unit }, stamped := true, tick := 30 }] })] } }
/-- The same state after the frame is taken. -/
def Demo.exchangedTaken (unit : Nat) (g : GtcSync) : State := (((Demo.exchanged unit g).takeFrame 0 (fun _ => true)).getD ({}, State.reset)).2

/-- The host port in service, ring 0 enabled with the given fields. -/
def Demo.hosted (r : Ring) (b : Nat) : State := { State.reset with boot := { State.reset.boot with sealed := true }, pwr := { State.reset.pwr with on := true }, host := { rings := [(0, { r with en := true })] } }

/-- A COPY of ring 0 in progress. -/
def Demo.copying (k : CopyJob) : State := { State.reset with host := { copies := [{ k with host := (0, 1) }] } }

/-- A sealed device whose vat 0 has a vatman in cluster 0. -/
def Demo.vm : State := { State.reset with boot := { State.reset.boot with sealed := true }, net := { plans := [(0, { valid := true, vatmanCluster := 0, clusters := 1 })] } }
/-- Its vatman core. -/
def Demo.vmCore : Nat := (Demo.vm.vatmanOf 0).getD 0

/-- The device with input power. -/
def Demo.powered : State := { State.reset with pwr := { State.reset.pwr with on := true } }
/-- The register that an access finds there. -/
def Demo.found (w : Who) (off size : Nat) (write : Bool) : RegView := match Demo.powered.regFind w off size write with | .ok p => p.1 | .error _ => State.reset.roReg 0 32 0
def Demo.view (off size : Nat) : RegView := Demo.found (.core 4096) off size false
def Demo.viewDebug : RegView := Demo.found .debug 0x280000 8 false
def Demo.viewWrite : RegView := Demo.found (.core 4096) 0x280100 4 true

def Demo.firmware : State := { Demo.powered with boot := { Demo.powered.boot with stage := .firmware }, cores := { spads := [(mgmtCore, { mem := [(0x70008, 1)] })] } }

/-- The next state a command answers, or the state as it was where the command stops. -/
def Demo.after (i : Instr) (s : State) : State :=
  match exec i s with
  | .next t => t
  | _ => s

/-- Demo.live with two register values. -/
def Demo.two (a : Reg) (x : W64) (b : Reg) (y : W64) : State :=
  { Demo.live with cores := { ctls := [(0, { run := .running, started := true, pc := 0x40, g := [(a.toNat, x), (b.toNat, y)] })] } }

/-- The guard that always holds. -/
def Demo.always : Guard := { gn := false, gp := 0 }

/-! Well-formed commands: for each check one command that it refuses. -/

theorem test_wf_core : Instr.wf (.windowRead 4096 0 8 .debug) = false := by decide
theorem test_wf_cpu : Instr.wf (.nop 4097 {}) = false := by decide
theorem test_wf_queue : Instr.wf (.qctlRetry 0 7) = false := by decide
theorem test_wf_engine : Instr.wf (.stream 0 4) = false := by decide
theorem test_wf_endpoint : Instr.wf (.endpointFreeTestPass 0 64) = false := by decide
theorem test_wf_hub_node : Instr.wf (.syncApply 65) = false := by decide
theorem test_wf_counter : Instr.wf (.syncCtrSet .pf 0x4040 0) = false := by decide
theorem test_wf_mesh_port : Instr.wf (.meshPacketRoute 0 6 0 [] {}) = false := by decide
theorem test_wf_ctl_port : Instr.wf (.ctlPacketRoute 0 7 0 ([], {})) = false := by decide
theorem test_wf_vat : Instr.wf (.load 16 .mgmt) = false := by decide
theorem test_wf_source_ring : Instr.wf (.load 0 (.host 17)) = false := by decide
theorem test_wf_stop_ring : Instr.wf (.stop 0 17) = false := by decide
theorem test_wf_plan_ring : Instr.wf (.plan 17) = false := by decide
theorem test_wf_stack : Instr.wf (.refreshSlot 8) = false := by decide
theorem test_wf_export : Instr.wf (.exportWindowClose 0 16) = false := by decide
theorem test_wf_connection : Instr.wf (.connClose .pf 4096) = false := by decide
theorem test_wf_slot : Instr.wf (.seqAdmit 0 16384) = false := by decide
theorem test_wf_span_port : Instr.wf (.retrain 7) = false := by decide
theorem test_wf_function : Instr.wf (.functionLevelReset 17) = false := by decide
theorem test_wf_ring : Instr.wf (.ringDisable 0 17) = false := by decide
theorem test_wf_irq_source : Instr.wf (.irqEvent 1024) = false := by decide
theorem test_wf_irq_target : Instr.wf (.irqClaim 18 false) = false := by decide
theorem test_wf_complete_target : Instr.wf (.irqComplete .pf 18 0) = false := by decide
theorem test_wf_droop : Instr.wf (.droopTrip 268 0) = false := by decide
theorem test_wf_cluster : Instr.wf (.clusterPowerEntry 64) = false := by decide
theorem test_wf_cluster_requester : Instr.wf (.clusterPowerRequest (.vf 16) 0 0) = false := by decide
theorem test_wf_requester : Instr.wf (.sleepRequest (.core 4097)) = false := by decide
theorem test_wf_fence_position : Instr.wf (.coreFence .debug 0 64) = false := by decide
theorem test_wf_sync_port : Instr.wf (.syncFrameReceive 7) = false := by decide
theorem test_wf_member : Instr.wf (.balNext 0 16 0) = false := by decide
theorem test_wf_vm_endpoint : Instr.wf (.vmChtabApply (.core 4096) 0 64 0) = false := by decide
theorem test_wf_message_function : Instr.wf (.vatHostMsg 17 0 0) = false := by decide
theorem test_wf_message_core : Instr.wf (.closePacket (4096, {})) = false := by decide
theorem test_wf_read_completion : Instr.wf (.hostReadCompletion 17 0 0 (.refused 0)) = false := by decide
theorem test_wf_accepts : Instr.wf (.add 4096 Demo.always 1 2 3) = true ∧ Instr.wf (.stream 4095 3) = true ∧ Instr.wf (.seqAdmit 15 16383) = true := by decide

/-! What commands do on small states. Expected values are worked out by hand from the rules named. -/

/-- R82: LI g1, 1 and SLLI g1, g1, 41 make the register base (the text before R84). -/
theorem test_li : ((Demo.after (.li 0 Demo.always 1 1) Demo.live).ctl 0).rg 1 = 1 := by decide
theorem test_li_sign : ((Demo.after (.li 0 Demo.always 1 0x7FFF) Demo.live).ctl 0).rg 1 = 0xFFFFFFFFFFFFFFFF := by decide
theorem test_slli_base : ((Demo.after (.slli 0 Demo.always 1 1 41) (Demo.with 1 1)).ctl 0).rg 1 = 0x20000000000 := by decide
theorem test_lsi : ((Demo.after (.lsi 0 Demo.always 1 0x7FFF) (Demo.with 1 1)).ctl 0).rg 1 = 0xFFFF := by decide
/-- R75, R82: sums wrap; register 0 reads zero and discards writes. -/
theorem test_add_wraps : ((Demo.after (.add 0 Demo.always 3 1 2) (Demo.two 1 0xFFFFFFFFFFFFFFFF 2 2)).ctl 0).rg 3 = 1 := by decide
theorem test_add_zero_register : ((Demo.after (.add 0 Demo.always 0 1 2) (Demo.two 1 5 2 2)).ctl 0).rg 0 = 0 := by decide
theorem test_sub_order : ((Demo.after (.sub 0 Demo.always 3 1 2) (Demo.two 1 3 2 5)).ctl 0).rg 3 = 0xFFFFFFFFFFFFFFFE := by decide
theorem test_mulh_signed : ((Demo.after (.mulh 0 Demo.always 3 1 2) (Demo.two 1 0xFFFFFFFFFFFFFFFF 2 2)).ctl 0).rg 3 = 0xFFFFFFFFFFFFFFFF := by decide
theorem test_mulhu_unsigned : ((Demo.after (.mulhu 0 Demo.always 3 1 2) (Demo.two 1 0xFFFFFFFFFFFFFFFF 2 2)).ctl 0).rg 3 = 1 := by decide
theorem test_div_truncates : ((Demo.after (.div 0 Demo.always 3 1 2) (Demo.two 1 0xFFFFFFFFFFFFFFF9 2 2)).ctl 0).rg 3 = 0xFFFFFFFFFFFFFFFD := by decide
theorem test_rem_sign : ((Demo.after (.rem 0 Demo.always 3 1 2) (Demo.two 1 0xFFFFFFFFFFFFFFF9 2 2)).ctl 0).rg 3 = 0xFFFFFFFFFFFFFFFF := by decide
theorem test_sra_fills : ((Demo.after (.sra 0 Demo.always 3 1 2) (Demo.two 1 0x8000000000000000 2 4)).ctl 0).rg 3 = 0xF800000000000000 := by decide
theorem test_addi_sign : ((Demo.after (.addi 0 Demo.always 1 1 0x3FF) (Demo.with 1 5)).ctl 0).rg 1 = 4 := by decide
/-- R84: signed and unsigned compares differ; predicate 0 stays true. -/
theorem test_cmp_lt : ((Demo.after (.cmpLt 0 Demo.always 2 1 3) (Demo.two 1 0xFFFFFFFFFFFFFFFF 3 1)).ctl 0).rp 2 = true := by decide
theorem test_cmp_ltu : ((Demo.after (.cmpLtu 0 Demo.always 2 1 3) (Demo.two 1 0xFFFFFFFFFFFFFFFF 3 1)).ctl 0).rp 2 = false := by decide
/-- R85, R11: little-endian stores; signed and unsigned loads. -/
theorem test_st_bytes : let s := Demo.after (.stW 0 Demo.always 1 0 1) (Demo.with 1 0x80818283); ((s.spad 0).mem.readBytes 4 4, (s.spad 0).mem.readBytes 8 1) = ([0x83, 0x82, 0x81, 0x80], [0]) := by decide
theorem test_ld_sign : ((Demo.after (.ldB 0 Demo.always 2 0 4) (Demo.after (.stW 0 Demo.always 1 0 1) (Demo.with 1 0x80818283))).ctl 0).rg 2 = 0xFFFFFFFFFFFFFF83 := by decide
theorem test_ld_zero : ((Demo.after (.ldHu 0 Demo.always 2 0 3) (Demo.after (.stW 0 Demo.always 1 0 1) (Demo.with 1 0x80818283))).ctl 0).rg 2 = 0x8081 := by decide
/-- R79: a false guard only moves past the instruction. -/
theorem test_guard_false : let k := (Demo.after (.li 0 { gn := false, gp := 1 } 1 7) Demo.live).ctl 0; (k.rg 1, k.pc) = (0, 0x44) := by decide
/-- R98: BR adds its offset in words to its own address; DBNZ falls through at zero. -/
theorem test_br : ((Demo.after (.br 0 Demo.always 0xFFFFE) Demo.live).ctl 0).pc = 0x38 := by decide
theorem test_dbnz_ends : let k := (Demo.after (.dbnz 0 Demo.always 1 0x7FFF) (Demo.with 1 1)).ctl 0; (k.rg 1, k.pc) = (0, 0x44) := by decide

/-! The worked examples of the spec. -/

/-- One dot product, three tilings (02_arithmetic): cores A and B, their sum, and its drain. -/
def Demo.accA : Acc := ({} : Acc).addUnit (-32) ((({} : UnitSum).put (decodeElem 4 0x74) (decodeElem 4 0x74)).put (decodeElem 4 0x3C) (decodeElem 4 0x3C))
def Demo.accB : Acc := ({} : Acc).addUnit (-32) ((({} : UnitSum).put (decodeElem 4 0xF4) (decodeElem 4 0x74)).put (decodeElem 4 0x3C) (decodeElem 4 0x3C))
theorem test_dot_core_a : Demo.accA = { gv := 0x1000000100000000 } := by decide
theorem test_dot_core_b : Demo.accB.gv = 0xFFFFFFFFFFF000000100000000 + 0xF0000000000000000000000 - 0xF0000000000000000000000 := by decide
theorem test_dot_sum : Demo.accA.combine Demo.accB = { gv := 0x200000000 } := by decide
theorem test_dot_drain : ((Demo.accA.combine Demo.accB).drain (-32) 0 0 0 0 0).bits = 0x40000000 := by decide
/-- An MXFP8 E4M3 block with amax 1,000 and an element 3.3 (0x4053_3333): scale 0x80, elements 0x7E and 0x3D, sat (R54). -/
theorem test_mx_block : let b := mxProduce 0x13 0 [(f32 0x447A0000, 0), (f32 0x40533333, 0)]; (b.scale, b.elems, b.flags) = (0x80, [0x7E, 0x3D], fSat) := by decide
/-- The address 0x4004_0000 is linear offset 0x800_8000 of stack 0 (R354). -/
theorem test_stack_address : stackAddr 0 0x8008000 = 0x40040000 := by decide
/-- R355's worked example. -/
theorem test_stack_place : stackPlace 0x40040000 = { stack := 0, chan := 0, bank := 20, layer := 5, col := 5, row := 42 } ∧ stackQ (stackLocal 0x40040000) = 16388 := by decide
/-- The gradient slot with eo = -40 (R413, R414): top exponent -9, E5M2 chosen, adopted because the streak passes hyst. -/
def Demo.policy : Nat := 3 * 2 ^ 24 + 4 * 2 ^ 32 + 1 * 2 ^ 40 + 2 * 2 ^ 56 + 10 * 2 ^ 64 + 7 * 2 ^ 68 + 1 * 2 ^ 72
def Demo.bank : Table Nat := [(2, 5000), (15, 14500), (20, 60000), (30, 900000), (33, 20000), (34, 500)]
theorem test_advise : let e := advEval Demo.policy (-40) Demo.bank; (e.top, e.c, e.anomaly, e.range) = (-9, 1, false, false) := by decide
theorem test_adopt : advAdopt { adopted := some 2, streak := 1 } 1 { c := 1, top := -9 } = (1, 0) := by decide
/-- A calibration interval of 1.2 J (R505). -/
def Demo.interval : State :=
  { State.reset with
    clk := { State.reset.clk with gtc := 1000000 }
    hub := { State.reset.hub with acct := { weights := [(0, 1000), (15, 180000)] } }
    vats := [(0, { jobValid := true, ac := { stopped := false, acct := [(0, 500000000)] } }), (1, { jobValid := true, ac := { stopped := false, acct := [(0, 250000000)] } })] }
theorem test_energy : let s := Demo.after (.calibrationInterval 1200000000) Demo.interval; ((s.vat 0).ac.acct.get 0 21, (s.vat 1).ac.acct.get 0 21, s.hub.acct.sysEnergy) = (645161290, 322580645, 232258065) := by decide
/-- Core group source 42 with target 4 (R544, R545): pending and assigned, claimed, and pending again while active. -/
def Demo.irq : State := { Demo.powered with net := { plans := [(3, { valid := true, vatmanCluster := 0, clusters := 1 })] }, hub := { State.reset.hub with srcs := [(42, { tgt := 0x10 })], tgts := [(4, { en := true })] } }
def Demo.irq1 : State := Demo.irq.fire 42
def Demo.irq2 : State := (Demo.irq1.irqClaim 4 false).2
def Demo.irq3 : State := Demo.irq2.fire 42
theorem test_irq_pending : let x := Demo.irq1.irqSrc 42; (x.pending, x.active, x.assigned, Demo.irq1.irqLine 4) = (true, false, some 4, true) := by decide
theorem test_irq_claimed : let x := Demo.irq2.irqSrc 42; (x.pending, x.active, Demo.irq2.irqLine 4) = (false, true, false) := by decide
theorem test_irq_again : let x := Demo.irq3.irqSrc 42; (x.pending, x.active, Demo.irq3.irqLine 4) = (true, true, false) := by decide
/-- The log and its holder (R551): a second report of a source whose entry stands is held, a third replaces it with a count. -/
def Demo.logged : State := Demo.powered.log 0x3003 1 0 none 0 0
theorem test_log_entry : Demo.logged.hub.logHead = 1 ∧ Demo.logged.hub.holders = [] := by decide
theorem test_log_holder : let s := Demo.after (.errorReport 0x3003 1 0 none 0 0) (Demo.after (.errorReport 0x3003 1 0 none 0 0) Demo.logged); (s.hub.logHead, s.hub.holders.map (·.drops)) = (1, [1]) := by decide
/-- The stretched clock at 1.35 GHz (R571): cycle 54 ends nothing, as 55 is no multiple of 27; cycle 80 is the last stretched one. -/
def Demo.stretched (m : Nat) : State := { Demo.powered with hub := { State.reset.hub with dvfs := 3 }, pwr := { State.reset.pwr with on := true, stretch := true, m := m } }
theorem test_stretch_goes_on : (Demo.after (.stretchEnd 32) (Demo.stretched 55)).pwr.stretch = true := by decide
theorem test_stretch_ends : (Demo.after (.stretchEnd 58) (Demo.stretched 81)).pwr.stretch = false := by decide

/-! One command of other families each. -/

/-- R93: TRAP enters at EVEC with the address after it saved and its code in EVAL; with a vector outside the memory it halts with reason 6. -/
theorem test_trap_saves : let k := (Demo.after (.trap 0 Demo.always 5) { Demo.live with cores := { ctls := [(0, { run := .running, started := true, pc := 0x40, evec := 0x100 })] } }).ctl 0; (k.pc, k.epc, k.exc, k.eval) = (0x100, 0x44, true, 5) := by decide
theorem test_trap_bad_vector : let k := (Demo.after (.trap 0 Demo.always 5) { Demo.live with cores := { ctls := [(0, { run := .running, started := true, pc := 0x40, evec := 0x8000 })] } }).ctl 0; (k.run, k.haltReason) = (.halted, 6) := by decide
theorem test_eret_returns : ((Demo.after (.eret 0 Demo.always) { Demo.live with cores := { ctls := [(0, { run := .running, started := true, pc := 0x40, exc := true, epc := 0x80 })] } }).ctl 0).pc = 0x80 := by decide
/-- R265: SADD on counter 5 of cluster 0 of an idle counter. -/
theorem test_sadd : ((Demo.after (.sadd 0 Demo.always 1 2) (Demo.two 1 5 2 3)).ctr 5) = 3 := by decide
theorem test_irq_event : Demo.after (.irqEvent 42) Demo.irq = Demo.irq1 := by decide
theorem test_irq_claim : (Demo.after (.irqClaim 4 false) Demo.irq1).hub.srcs = Demo.irq2.hub.srcs := by decide
theorem test_irq_source_out_of_range : Demo.after (.irqEvent 700) Demo.powered = Demo.powered := by decide
/-- An empty queue is one cycle of the fast clock (log entries 1, 108). At 1.5 GHz, the 30 cycles in 20 ticks of Table 10.1: two cycles end 1 and 1/3 ticks on (R333). -/
theorem test_tick : (let s := { Demo.powered with hub := { Demo.powered.hub with dvfs := 4 } }; (s.tick.clk.gtc, s.tick.clk.fast, s.tick.tick.clk.gtc, s.tick.tick.clk.phase)) = (0, 1, 1, 720) := by decide
/-- The front command runs first, and the rest waits. -/
theorem test_queue_order : (match step { Demo.powered with pending := [.hostToMgmt 7, .hostToMgmt 9] } with | .next t => (t.pending, t.hub.hostToMgmt) | _ => ([], 0)) = ([.hostToMgmt 9], 7) := by decide
theorem test_decode_none : decodeTableWord 32 0x40000000 = none := by decide
theorem test_fetch_word : State.reset.withFetchWord 32 0 = State.reset := by decide
/-- Known answers of the algorithms the spec names (R69, R350, R304): Philox-4x32-10 of zero, CRC-32C and CRC-64 of the digits 1 to 9. -/
theorem test_philox : (List.range 4).map (srWord 0 0 0 0) = [0x6627E8D5, 0xE169C58D, 0xBC57AC4C, 0x9B00DBD8] := by decide
theorem test_crc32c : crc32c [0x31, 0x32, 0x33, 0x34, 0x35, 0x36, 0x37, 0x38, 0x39] = 0xE3069283 := by decide
theorem test_crc64 : crc64 [0x31, 0x32, 0x33, 0x34, 0x35, 0x36, 0x37, 0x38, 0x39] = 0x6C40DF5F0B497347 := by decide
/-- Core (17, L40) and its endpoint 5 (R618): the block's address, with the physical position that the cluster offers as L40. -/
theorem test_core_block : targetOf 0x200018D0428 = .reg 0x18D0428 ∧ State.reset.blockCore 0x18D0428 = some (64 * 17 + 40) := by decide

/-! For every clause of a statement that has hypotheses, a state and operands that meet all of them together. -/

theorem test_hyp_AluRegister_r : ∃ (c : Nat) (g : Guard) (rd rs1 rs2 : Reg) (s : State),
    s.goes c g = true :=
  ⟨0, ⟨true, 1⟩, 1, 2, 3, Demo.live, by decide⟩
theorem test_hyp_AluImmediate_i : ∃ (c : Nat) (g : Guard) (rd rs1 : Reg) (imm : BitVec 10) (sh : BitVec 6) (u : BitVec 15) (s : State),
    s.goes c g = true :=
  ⟨0, ⟨false, 0⟩, 1, 2, 3, 4, 5, Demo.live, by decide⟩
theorem test_hyp_CompareAndPredicate_compare : ∃ (c : Nat) (g : Guard) (pd : BitVec 3) (rs1 rs2 : Reg) (imm : BitVec 10) (s : State),
    s.goes c g = true :=
  ⟨0, ⟨false, 0⟩, 7, 2, 3, 4, Demo.live, by decide⟩
theorem test_hyp_CompareAndPredicate_predicate : ∃ (c : Nat) (g : Guard) (pd pa : BitVec 3) (na : Bool) (pb : BitVec 3) (nb : Bool) (rd rs1 : Reg) (s : State),
    s.goes c g = true :=
  ⟨0, ⟨false, 0⟩, 1, 2, true, 3, false, 1, 2, Demo.live, by decide⟩
theorem test_hyp_CompareAndPredicate_write : ∃ (k : Ctl) (i j : BitVec 3) (b : Bool),
    i ≠ 0 :=
  ⟨{}, 7, 1, true, by decide⟩
theorem test_hyp_ScratchpadAccess_completes : ∃ (i : Instr) (c : Nat) (g : Guard) (rs1 : Reg) (imm : BitVec 10) (n : Nat) (s : State),
    (spadAccess i = some (c, g, rs1, imm, n)) ∧ (s.goes c g = true) ∧ (((s.ctl c).ea rs1 imm n).toNat % n = 0) ∧ (((s.ctl c).ea rs1 imm n).toNat < 0x80000) ∧ ((isLoad i = true → (s.spad c).bad ((s.ctl c).ea rs1 imm n).toNat n = false)) :=
  ⟨.ldD 0 ⟨false, 0⟩ 1 0 2, 0, ⟨false, 0⟩, 0, 2, 8, Demo.live, by decide⟩
theorem test_hyp_ScratchpadAccess_align : ∃ (i : Instr) (c : Nat) (g : Guard) (rs1 : Reg) (imm : BitVec 10) (n : Nat) (s : State),
    (spadAccess i = some (c, g, rs1, imm, n)) ∧ (s.goes c g = true) ∧ (((s.ctl c).ea rs1 imm n).toNat % n ≠ 0) :=
  ⟨.stH 0 ⟨false, 0⟩ 1 2 1, 0, ⟨false, 0⟩, 2, 1, 2, Demo.with 2 1, by decide⟩
theorem test_hyp_ScratchpadAccess_range : ∃ (i : Instr) (c : Nat) (g : Guard) (rs1 : Reg) (imm : BitVec 10) (n : Nat) (s : State),
    (spadAccess i = some (c, g, rs1, imm, n)) ∧ (s.goes c g = true) ∧ (((s.ctl c).ea rs1 imm n).toNat % n = 0) ∧ (0x80000 ≤ ((s.ctl c).ea rs1 imm n).toNat) :=
  ⟨.ldB 0 ⟨false, 0⟩ 1 2 0, 0, ⟨false, 0⟩, 2, 0, 1, Demo.with 2 0x80000, by decide⟩
theorem test_hyp_ScratchpadAccess_poison : ∃ (i : Instr) (c : Nat) (g : Guard) (rs1 : Reg) (imm : BitVec 10) (n : Nat) (s : State),
    (spadAccess i = some (c, g, rs1, imm, n)) ∧ (isLoad i = true) ∧ (s.goes c g = true) ∧ (((s.ctl c).ea rs1 imm n).toNat % n = 0) ∧ (((s.ctl c).ea rs1 imm n).toNat < 0x80000) ∧ ((s.spad c).bad ((s.ctl c).ea rs1 imm n).toNat n = true) :=
  ⟨.ldBu 0 ⟨false, 0⟩ 1 2 0, 0, ⟨false, 0⟩, 2, 0, 1, { Demo.with 2 0x7FFFF with cores := { (Demo.with 2 0x7FFFF).cores with spads := [(0, { poison := [0x1FFFF] })] } }, by decide⟩
theorem test_hyp_ScratchpadStoreFrame_reads : ∃ (s : State) (c a : Nat) (bs : List Byte) (bad : Nat → Bool),
    (s.spad c).mem.wf = true :=
  ⟨Demo.live, 0, 5, [1, 0], fun _ => false, by decide⟩
theorem test_hyp_ScratchpadStoreFrame_sum : ∃ (s : State) (c v a : Nat) (bs : List Byte) (bad : Nat → Bool),
    (s.vatOfCore c = some v) ∧ ((s.vat v).st = .running) ∧ ((s.vat v).det.wmRange ≠ []) :=
  ⟨{ Demo.live with vats := [(0, { st := .running, det := { wmRange := [(0, 1)] } })] }, 0, 0, 0, [1], fun _ => false, by decide⟩
theorem test_hyp_GuardAndReserved_false : ∃ (i : Instr) (c : Nat) (g : Guard) (s : State),
    (guardOf i = some (c, g)) ∧ (s.ctlOn c = true) ∧ (s.fetchBad c = false) ∧ (s.wordFine i = true) ∧ ((g.gn && g.gp == 0) = false) ∧ ((s.ctl c).guardTrue g = false) :=
  ⟨.brk 0 ⟨true, 1⟩, 0, ⟨true, 1⟩, { Demo.live with cores := { ctls := [(0, { run := .running, started := true, p := 2 })] } }, by decide⟩
theorem test_hyp_GuardAndReserved_reserved : ∃ (i : Instr) (c : Nat) (g : Guard) (s : State),
    (guardOf i = some (c, g)) ∧ (s.ctlOn c = true) ∧ (s.fetchBad c = false) ∧ (g.gn = true) ∧ (g.gp = 0) :=
  ⟨.nop 0 ⟨true, 0⟩, 0, ⟨true, 0⟩, Demo.live, by decide⟩
theorem test_hyp_GuardAndReserved_illegal : ∃ (i : Instr) (c : Nat) (g : Guard) (s : State),
    (guardOf i = some (c, g)) ∧ (s.ctlOn c = true) ∧ (s.fetchBad c = false) ∧ (s.wordFine i = false) :=
  ⟨.dbnz 0 ⟨true, 1⟩ 0 0, 0, ⟨true, 1⟩, Demo.live, by decide⟩
theorem test_hyp_GuardAndReserved_poisoned : ∃ (i : Instr) (c : Nat) (g : Guard) (s : State),
    (guardOf i = some (c, g)) ∧ (s.ctlOn c = true) ∧ (s.fetchBad c = true) :=
  ⟨.nop 0 ⟨false, 0⟩, 0, ⟨false, 0⟩, { Demo.live with cores := { ctls := [(0, { run := .running, started := true, pc := 0x40 })], imemUe := [(0, [4])] } }, by decide⟩
theorem test_hyp_GuardAndReserved_off : ∃ (i : Instr) (c : Nat) (g : Guard) (s : State),
    (guardOf i = some (c, g)) ∧ (s.ctlOn c = false) :=
  ⟨.nop 0 ⟨false, 0⟩, 0, ⟨false, 0⟩, State.reset, by decide⟩
theorem test_hyp_ExceptionEntry_double : ∃ (s : State) (c : Nat) (cause : BitVec 8) (status : Nat) (ep v : W64),
    (s.ctl c).exc = true :=
  ⟨{ State.reset with cores := { ctls := [(0, { exc := true })] } }, 0, 1, 2, 3, 4, by decide⟩
theorem test_hyp_ExceptionEntry_vector : ∃ (s : State) (c : Nat) (cause : BitVec 8) (status : Nat) (ep v : W64),
    ((s.ctl c).exc = false) ∧ (inImem c (s.ctl c).evec = false) :=
  ⟨{ State.reset with cores := { ctls := [(0, { evec := 0x8000 })] } }, 0, 1, 2, 3, 4, by decide⟩
theorem test_hyp_ExceptionEntry_enters : ∃ (s : State) (c : Nat) (cause : BitVec 8) (status : Nat) (ep v : W64),
    ((s.ctl c).exc = false) ∧ (inImem c (s.ctl c).evec = true) :=
  ⟨{ State.reset with cores := { ctls := [(0, { evec := 0x7FFC })] } }, 0, 1, 2, 3, 4, by decide⟩
theorem test_hyp_ExceptionEntry_halts : ∃ (s : State) (c : Nat) (r : BitVec 8),
    c ≠ mgmtCore :=
  ⟨State.reset, 4095, 5, by decide⟩
theorem test_hyp_ExceptionEntry_reports : ∃ (s : State) (c n : Nat) (r : BitVec 8),
    (c ≠ mgmtCore) ∧ ((s.irqCause c).getLsbD 0 = false) ∧ (s.coreSource c = some n) ∧ (s.pwr.on = true) ∧ (s.pwr.off = false) ∧ (s.pwr.asleep = false) :=
  ⟨State.reset, 0, 0, 5, by decide⟩
theorem test_hyp_ReturnFromException_returns : ∃ (c : Nat) (g : Guard) (s : State),
    (s.goes c g = true) ∧ ((s.ctl c).exc = true) :=
  ⟨0, ⟨false, 0⟩, { Demo.live with cores := { ctls := [(0, { run := .running, started := true, exc := true, epc := 0x44 })] } }, by decide⟩
theorem test_hyp_ReturnFromException_illegal : ∃ (c : Nat) (g : Guard) (s : State),
    (s.goes c g = true) ∧ ((s.ctl c).exc = false) :=
  ⟨0, ⟨false, 0⟩, Demo.live, by decide⟩
theorem test_hyp_ControlFlow_jumps : ∃ (c : Nat) (g : Guard) (off : BitVec 20) (rd rs1 : Reg) (imm : BitVec 10) (s : State),
    s.goes c g = true :=
  ⟨0, ⟨false, 0⟩, 3, 1, 2, 0, Demo.live, by decide⟩
theorem test_hyp_ControlFlow_dbnz : ∃ (c : Nat) (g : Guard) (rd : Reg) (imm : BitVec 15) (s : State),
    (s.goes c g = true) ∧ (rd ≠ 0) :=
  ⟨0, ⟨false, 0⟩, 1, 3, Demo.live, by decide⟩
theorem test_hyp_ControlFlow_system : ∃ (c : Nat) (g : Guard) (code : BitVec 20) (s : State),
    s.goes c g = true :=
  ⟨0, ⟨false, 0⟩, 3, Demo.live, by decide⟩
theorem test_hyp_ControlFlow_illegal : ∃ (c : Nat) (g : Guard) (s : State),
    (s.goes c g = true) ∧ ((s.ctl c).mode.toNat ≥ 2) :=
  ⟨0, ⟨false, 0⟩, { Demo.live with cores := { ctls := [(0, { run := .running, started := true, mode := 3 })] } }, by decide⟩
theorem test_hyp_ControlFlow_reserved : ∃ (c : Nat) (g : Guard) (s : State),
    (s.ctlOn c = true) ∧ (s.fetchBad c = false) :=
  ⟨0, ⟨false, 5⟩, Demo.live, by decide⟩
theorem test_hyp_ControlFlow_fetch : ∃ (c : Nat) (s : State),
    s.ctlOn c = true :=
  ⟨0, Demo.live, by decide⟩
theorem test_hyp_WaitsAndEvents_wfi : ∃ (c : Nat) (g : Guard) (s : State),
    s.goes c g = true :=
  ⟨0, ⟨false, 0⟩, Demo.live, by decide⟩
theorem test_hyp_WaitsAndEvents_wake : ∃ (c : Nat) (s : State),
    ((s.ctl c).waiting = some .wfi) ∧ (s.lineOf c = true) :=
  ⟨4096, { State.reset with cores := { ctls := [(4096, { mode := 3, waiting := some .wfi })] }, hub := { srcs := [(659, { pending := true, assigned := some 0 })] } }, by decide⟩
theorem test_hyp_WaitsAndEvents_mfence : ∃ (c : Nat) (g : Guard) (s : State),
    s.goes c g = true :=
  ⟨0, ⟨false, 0⟩, Demo.live, by decide⟩
theorem test_hyp_WaitsAndEvents_mfenceEnds : ∃ (c : Nat) (s : State),
    (s.ctl c).waiting = some .mfence :=
  ⟨0, { State.reset with cores := { ctls := [(0, { waiting := some .mfence, rserrSet := true })] } }, by decide⟩
theorem test_hyp_WaitsAndEvents_events : ∃ (c : Nat) (s : State),
    ((s.ctl c).run = .running) ∧ ((s.ctl c).ldr = none) :=
  ⟨0, Demo.live, by decide⟩
theorem test_hyp_SpecialRegisters_instructions : ∃ (c : Nat) (g : Guard) (rd rs1 : Reg) (sr : BitVec 10) (s : State),
    (s.goes c g = true) ∧ (s.srAssigned c sr.toNat = true) :=
  ⟨0, ⟨false, 0⟩, 1, 2, 0x2F, Demo.live, by decide⟩
theorem test_hyp_SpecialRegisters_unassigned : ∃ (c : Nat) (g : Guard) (rd rs1 : Reg) (sr : BitVec 10) (s : State),
    (s.ctlOn c = true) ∧ (s.fetchBad c = false) ∧ (s.srAssigned c sr.toNat = false) :=
  ⟨0, ⟨true, 3⟩, 1, 2, 8, Demo.live, by decide⟩
theorem test_hyp_DeviceAccess_ldr : ∃ (c : Nat) (g : Guard) (rd rs1 : Reg) (imm : BitVec 10) (s : State),
    s.goes c g = true :=
  ⟨0, ⟨false, 0⟩, 1, 2, 0, Demo.live, by decide⟩
theorem test_hyp_DeviceAccess_str : ∃ (c : Nat) (g : Guard) (rs2 rs1 : Reg) (imm : BitVec 10) (s : State),
    s.goes c g = true :=
  ⟨0, ⟨false, 0⟩, 1, 2, 0, Demo.live, by decide⟩
theorem test_hyp_DeviceAccess_answers : ∃ (c : Nat) (v : W64) (st : BitVec 8) (x : LdrOut) (s : State),
    ((s.ctl c).ldr = some x) ∧ ((s.ctl c).haltReq = false) :=
  ⟨0, 7, 2, { rd := 1, size := 8, addr := 0 }, { State.reset with cores := { ctls := [(0, { ldr := some { rd := 1, size := 8, addr := 0 } })] } }, by decide⟩
theorem test_hyp_IssueAndQueues_buffer : ∃ (c : Nat) (g : Guard) (q : BitVec 4) (nb : Bool) (pd : BitVec 3) (s : State),
    (s.goes c g = true) ∧ (q.toNat ≤ 6) ∧ (c ≠ mgmtCore) ∧ ((nb = true ∨ pd = 0)) ∧ (headerOk (s.ctl c).ibuf = true) ∧ (layoutOk (s.ctl c).ibuf = true) :=
  ⟨0, ⟨false, 0⟩, 6, true, 1, { Demo.live with cores := { ctls := [(0, { run := .running, started := true, ib0 := 1 })] } }, by decide⟩
theorem test_hyp_IssueAndQueues_scratchpad : ∃ (c : Nat) (g : Guard) (q : BitVec 4) (nb : Bool) (rs1 : Reg) (pd : BitVec 3) (imm : BitVec 7) (a : Nat) (m : W256) (s : State),
    (s.goes c g = true) ∧ (q.toNat ≤ 6) ∧ (c ≠ mgmtCore) ∧ ((nb = true ∨ pd = 0)) ∧ (a = ((s.ctl c).rg rs1 + imm.setWidth 64 * 32).toNat) ∧ (a % 32 = 0) ∧ (a < 0x80000) ∧ ((s.spad c).bad a 32 = false) ∧ (m = BitVec.ofNat 256 ((s.spad c).nat a 32)) ∧ (headerOk m = true) ∧ (layoutOk m = true) :=
  ⟨0, ⟨false, 0⟩, 0, false, 2, 0, 1, 32, 1, { Demo.live with cores := { ctls := [(0, { run := .running, started := true })], spads := [(0, { mem := [(32, 1)] })] } }, by decide⟩
theorem test_hyp_IssueAndQueues_reserves : ∃ (c q : Nat) (src : Option Nat) (m : W256) (s : State),
    ((s.ctl c).waiting = (match src with | some a => some (.issue q a) | none => some (.issueB q))) ∧ ((s.ctl c).live = true) ∧ (s.vatLets c = true) ∧ (s.qFree c q ≠ 0) ∧ ((match src with | some a => (s.spad c).bad a 32 = false ∧ m = BitVec.ofNat 256 ((s.spad c).nat a 32) | none => m = (s.ctl c).ibuf)) ∧ (headerOk m = true) ∧ (layoutOk m = true) :=
  ⟨0, 6, none, 1, { Demo.live with cores := { ctls := [(0, { run := .running, started := true, ib0 := 1, waiting := some (.issueB 6) })] } }, by decide⟩
theorem test_hyp_IssueAndQueues_ibins : ∃ (c : Nat) (g : Guard) (ib : BitVec 2) (pos lenm1 : BitVec 6) (rs1 : Reg) (s : State),
    (s.goes c g = true) ∧ (pos.toNat + lenm1.toNat + 1 ≤ 64) ∧ (c ≠ mgmtCore) :=
  ⟨0, ⟨false, 0⟩, 3, 1, 62, 2, Demo.live, by decide⟩
theorem test_hyp_IssueAndQueues_qwait : ∃ (c : Nat) (g : Guard) (nb : Bool) (pd : BitVec 3) (mask : BitVec 7) (s : State),
    (s.goes c g = true) ∧ (mask ≠ 0) ∧ (c ≠ mgmtCore) ∧ ((nb = true ∨ pd = 0)) :=
  ⟨0, ⟨false, 0⟩, true, 7, 0x7F, Demo.live, by decide⟩
theorem test_hyp_IssueAndQueues_qwaitRetires : ∃ (c : Nat) (mask : BitVec 7) (s : State),
    ((s.ctl c).waiting = some (.qwait mask)) ∧ ((s.ctl c).live = true) ∧ (s.qwaitHolds c mask = true) :=
  ⟨0, 0x40, { Demo.live with cores := { ctls := [(0, { run := .running, started := true, waiting := some (.qwait 0x40) })] } }, by decide⟩
theorem test_hyp_IssueAndQueues_qctl : ∃ (c q : Nat) (s : State),
    ((s.queue c q).halted = true) ∧ (q ≤ 6) :=
  ⟨0, 6, { State.reset with cores := { queues := [(6, { halted := true })] } }, by decide⟩
theorem test_hyp_SyncInstructions_completes : ∃ (c : Nat) (g : Guard) (rs1 rs2 rd : Reg) (a n : Nat) (s : State),
    (s.goes c g = true) ∧ (a = ((s.ctl c).rg rs1).toNat) ∧ (n = ((s.ctl c).rg rs2).toNat % 2 ^ 32) ∧ (ctrWf a = true) :=
  ⟨0, ⟨false, 0⟩, 1, 2, 3, 0, 0, Demo.live, by decide⟩
theorem test_hyp_SyncInstructions_waits : ∃ (c : Nat) (g : Guard) (rs1 rs2 : Reg) (cond : BitVec 3) (cd : Cond) (dec : Bool) (a n : Nat) (s : State),
    (s.goes c g = true) ∧ (a = ((s.ctl c).rg rs1).toNat) ∧ (n = ((s.ctl c).rg rs2).toNat % 2 ^ 32) ∧ (ctrWf a = true) ∧ (s.mayTest c a = true) ∧ (Cond.ofBits cond.toNat = some cd) ∧ ((dec = true → cd = .ge ∨ cd = .eq)) :=
  ⟨0, ⟨false, 0⟩, 1, 2, 1, .eq, true, 0, 0, Demo.live, by decide⟩
theorem test_hyp_SyncInstructions_refused : ∃ (c : Nat) (g : Guard) (rs1 rs2 rd : Reg) (s : State),
    (s.goes c g = true) ∧ ((s.ctl c).strOut = 0) :=
  ⟨0, ⟨false, 0⟩, 1, 2, 3, Demo.live, by decide⟩
theorem test_hyp_SyncInstructions_swaitReserved : ∃ (c : Nat) (g : Guard) (rs1 rs2 : Reg) (cond : BitVec 3) (dec : Bool) (s : State),
    (s.ctlOn c = true) ∧ (s.fetchBad c = false) ∧ ((4 ≤ cond.toNat ∨ (dec = true ∧ 2 ≤ cond.toNat))) :=
  ⟨0, ⟨false, 0⟩, 1, 2, 2, true, Demo.live, by decide⟩
theorem test_hyp_SyncInstructions_own : ∃ (s : State) (c a n : Nat),
    (c < 4096) ∧ (a < 0x4000) :=
  ⟨Demo.live, 64, 0x100, 3, by decide⟩
theorem test_hyp_QueueWaitAndSignal_wait : ∃ (c q : Nat) (m : W256) (cd : Cond) (s : State),
    ((s.queue c q).head = some m) ∧ (mMop m = 0xF0) ∧ (s.enginesOn c = true) ∧ (s.mayTest c (wsCtr m) = true) ∧ (Cond.ofBits (waitCond m) = some cd) :=
  ⟨0, 2, 0x1000000000000000000F0, .ge, { Demo.live with cores := { ctls := [(0, { run := .running, started := true })], queues := [(2, { entries := [0x1000000000000000000F0] })] } }, by decide⟩
theorem test_hyp_QueueWaitAndSignal_waitPermission : ∃ (c q : Nat) (m : W256) (s : State),
    ((s.queue c q).head = some m) ∧ (mMop m = 0xF0) ∧ (s.enginesOn c = true) ∧ (s.mayTest c (wsCtr m) = false) :=
  ⟨64, 2, 0x1000000000000000000F0, { Demo.live with cores := { ctls := [(64, { run := .running, started := true })], queues := [(514, { entries := [0x1000000000000000000F0] })] }, net := { plans := [(0, { valid := true, vatmanCluster := 0, clusters := 2 })] } }, by decide⟩
theorem test_hyp_QueueWaitAndSignal_signal : ∃ (c q : Nat) (m : W256) (s : State),
    ((s.queue c q).head = some m) ∧ (mMop m = 0xF1) ∧ (s.enginesOn c = true) ∧ (s.engineIdle c q = true) :=
  ⟨0, 2, 0x1000000000000000000F1, { Demo.live with cores := { ctls := [(0, { run := .running, started := true })], queues := [(2, { entries := [0x1000000000000000000F1] })] } }, by decide⟩
theorem test_hyp_QueueWaitAndSignal_reserved : ∃ (c q : Nat) (m : W256) (s : State),
    ((s.queue c q).head = some m) ∧ (mMop m < 0xF0) ∧ (mopKnown q (mMop m) = false) ∧ (s.enginesOn c = true) ∧ (s.engineIdle c q = true) :=
  ⟨0, 2, 0x77, { Demo.live with cores := { ctls := [(0, { run := .running, started := true })], queues := [(2, { entries := [0x77] })] } }, by decide⟩
theorem test_hyp_QueueWaitAndSignal_waits : ∃ (c q : Nat) (m : W256) (s : State),
    ((s.queue c q).head = some m) ∧ (mMop m = 0xF1) ∧ (s.engineIdle c q = false) :=
  ⟨0, 2, 0x1000000000000000000F1, { Demo.live with cores := { ctls := [(0, { run := .running, started := true })], queues := [(2, { entries := [0x1000000000000000000F1] })], ses := [(0, { entry := some 1 })] } }, by decide⟩
theorem test_hyp_MatrixEngine_accepts : ∃ (c : Nat) (i : Instr) (e : W256) (s : State),
    ((s.queue c 0).head = some e) ∧ ((i, mMop e) ∈ [(Instr.matmul c, 1), (.matmulSp c, 2)]) ∧ (s.enginesOn c = true) ∧ ((s.mat c).entry = none) ∧ (s.sigRight c e = true) :=
  ⟨0, .matmul 0, 1, { Demo.live with cores := { ctls := [(0, { run := .running, started := true })], queues := [(0, { entries := [1] })] } }, by decide⟩
theorem test_hyp_MatrixEngine_permission : ∃ (c : Nat) (i : Instr) (e : W256) (s : State),
    ((s.queue c 0).head = some e) ∧ ((i, mMop e) ∈ [(Instr.matmul c, 1), (.matmulSp c, 2)]) ∧ (s.enginesOn c = true) ∧ ((s.mat c).entry = none) ∧ (s.sigRight c e = false) :=
  ⟨0, .matmul 0, 0x40000301, { Demo.live with cores := { ctls := [(0, { run := .running, started := true })], queues := [(0, { entries := [0x40000301] })] } }, by decide⟩
theorem test_hyp_MatrixEngine_ringTest : ∃ (c : Nat) (e : W256) (s : State),
    ((s.mat c).entry = some e) ∧ ((s.mat c).ringWait = true) ∧ (s.enginesOn c = true) :=
  ⟨0, 1, { Demo.live with cores := { ctls := [(0, { run := .running, started := true })], mats := [(0, { entry := some 1, ringWait := true })] } }, by decide⟩
theorem test_hyp_MatrixEngine_badRecord : ∃ (c : Nat) (e : W256) (s : State),
    ((s.mat c).entry = some e) ∧ ((s.mat c).badAcc = true) ∧ (s.enginesOn c = true) :=
  ⟨0, 1, { Demo.live with cores := { ctls := [(0, { run := .running, started := true })], mats := [(0, { entry := some 1, badAcc := true })] } }, by decide⟩
theorem test_hyp_MatrixEngine_ends : ∃ (c : Nat) (e : W256) (s : State),
    ((s.mat c).entry = some e) ∧ ((s.mat c).badAcc = false) ∧ ((s.mat c).ringWait = false) ∧ ((s.mat c).steps.length ≤ (s.mat c).pos) ∧ (s.enginesOn c = true) :=
  ⟨0, 1, { Demo.live with cores := { ctls := [(0, { run := .running, started := true })], mats := [(0, { entry := some 1 })] } }, by decide⟩
theorem test_hyp_VectorEngine_record : ∃ (c : Nat) (e : W256) (s : State),
    ((s.queue c 1).head = some e) ∧ (mMop e = 1) ∧ ((s.vec c).copy = none) ∧ (s.enginesOn c = true) :=
  ⟨0, 1, { Demo.live with cores := { ctls := [(0, { run := .running, started := true })], queues := [(1, { entries := [1] })], vecs := [(0, {})] } }, by decide⟩
theorem test_hyp_VectorEngine_tiles : ∃ (c : Nat) (i : Instr) (e : W256) (s : State),
    ((i, mMop e) ∈ [(Instr.tload c, 2), (.tstore c, 3), (.tfill c, 4)]) ∧ ((s.queue c 1).head = some e) ∧ (s.enginesOn c = true) ∧ ((s.vec c).admits e = true) ∧ (s.sigRight c e = true) :=
  ⟨0, .tfill 0, 4, { Demo.live with cores := { ctls := [(0, { run := .running, started := true })], queues := [(1, { entries := [4] })], vecs := [(0, {})] } }, by decide⟩
theorem test_hyp_VectorEngine_permission : ∃ (c : Nat) (i : Instr) (e : W256) (s : State),
    ((i, mMop e) ∈ [(Instr.vchain c, 1), (.tload c, 2), (.tstore c, 3), (.tfill c, 4), (.reduce c, 8)]) ∧ ((s.queue c 1).head = some e) ∧ (s.enginesOn c = true) ∧ ((s.vec c).admits e = true) ∧ (s.sigRight c e = false) :=
  ⟨0, .tfill 0, 0x40000304, { Demo.live with cores := { ctls := [(0, { run := .running, started := true })], queues := [(1, { entries := [0x40000304] })], vecs := [(0, {})] } }, by decide⟩
theorem test_hyp_VectorEngine_fill : ∃ (c : Nat) (e : W256) (s : State),
    ((s.vec c).vec = some e) ∧ (mMop e = 4) ∧ (s.enginesOn c = true) :=
  ⟨0, 4, { Demo.live with cores := { ctls := [(0, { run := .running, started := true })], queues := [(1, { entries := [4] })], vecs := [(0, { vec := some 4 })] } }, by decide⟩
theorem test_hyp_VectorEngine_load : ∃ (c : Nat) (e : W256) (s : State),
    ((s.vec c).vec = some e) ∧ (mMop e = 2) ∧ (s.enginesOn c = true) :=
  ⟨0, 2, { Demo.live with cores := { ctls := [(0, { run := .running, started := true })], queues := [(1, { entries := [2] })], vecs := [(0, { vec := some 2 })] } }, by decide⟩
theorem test_hyp_VectorEngine_store : ∃ (c : Nat) (e : W256) (s : State),
    ((s.vec c).vec = some e) ∧ (mMop e = 3) ∧ (s.enginesOn c = true) :=
  ⟨0, 3, { Demo.live with cores := { ctls := [(0, { run := .running, started := true })], queues := [(1, { entries := [3] })], vecs := [(0, { vec := some 3 })] } }, by decide⟩
theorem test_hyp_VectorEngine_chain : ∃ (c : Nat) (e : W256) (s : State),
    (mMop e = 1) ∧ ((s.queue c 1).head = some e) ∧ (s.enginesOn c = true) ∧ ((s.vec c).admits e = true) ∧ (s.sigRight c e = true) :=
  ⟨0, 1, { Demo.live with cores := { ctls := [(0, { run := .running, started := true })], queues := [(1, { entries := [1] })], vecs := [(0, { copy := some (0, 0) })] } }, by decide⟩
theorem test_hyp_VectorEngine_chainEnds : ∃ (c : Nat) (e : W256) (s : State),
    ((s.vec c).vec = some e) ∧ (mMop e = 1) ∧ (s.enginesOn c = true) :=
  ⟨0, 1, { Demo.live with cores := { ctls := [(0, { run := .running, started := true })], queues := [(1, { entries := [1] })], vecs := [(0, { vec := some 1 })] } }, by decide⟩
theorem test_hyp_VectorEngine_reduce : ∃ (c : Nat) (e : W256) (s : State),
    (mMop e = 8) ∧ ((s.queue c 1).head = some e) ∧ (s.enginesOn c = true) ∧ ((s.vec c).admits e = true) ∧ (s.sigRight c e = true) :=
  ⟨0, 8, { Demo.live with cores := { ctls := [(0, { run := .running, started := true })], queues := [(1, { entries := [8] })], vecs := [(0, {})] } }, by decide⟩
theorem test_hyp_VectorEngine_reduceEnds : ∃ (c : Nat) (e : W256) (s : State),
    ((s.vec c).red = some e) ∧ (mMop e = 8) ∧ (s.enginesOn c = true) :=
  ⟨0, 8, { Demo.live with cores := { ctls := [(0, { run := .running, started := true })], queues := [(1, { entries := [8] })], vecs := [(0, { red := some 8 })] } }, by decide⟩
theorem test_hyp_StreamAcceptance_stream : ∃ (c e : Nat) (m : W256) (s : State),
    (mMop m = 1) ∧ ((s.queue c (2 + e)).head = some m) ∧ (e < 4) ∧ (s.enginesOn c = true) ∧ ((s.se c e).idle = true) ∧ (s.sigRight c m = true) :=
  ⟨0, 3, 1, { Demo.live with cores := { ctls := [(0, { run := .running, started := true })], queues := [(5, { entries := [1] })] } }, by decide⟩
theorem test_hyp_StreamAcceptance_permission : ∃ (c e : Nat) (i : Instr) (m : W256) (s : State),
    ((i, mMop m) ∈ [(Instr.stream c e, 1), (.spload c e, 2)]) ∧ ((s.queue c (2 + e)).head = some m) ∧ (e < 4) ∧ (s.enginesOn c = true) ∧ ((s.se c e).idle = true) ∧ (s.sigRight c m = false) :=
  ⟨0, 3, .spload 0 3, 0x40000302, { Demo.live with cores := { ctls := [(0, { run := .running, started := true })], queues := [(5, { entries := [0x40000302] })] } }, by decide⟩
theorem test_hyp_StreamAcceptance_spload : ∃ (c e : Nat) (m : W256) (s : State),
    (mMop m = 2) ∧ ((s.queue c (2 + e)).head = some m) ∧ (e < 4) ∧ (s.enginesOn c = true) ∧ ((s.se c e).idle = true) ∧ (s.sigRight c m = true) :=
  ⟨0, 3, 2, { Demo.live with cores := { ctls := [(0, { run := .running, started := true })], queues := [(5, { entries := [2] })] } }, by decide⟩
theorem test_hyp_StreamAcceptance_loaded : ∃ (c e first : Nat) (ws : List Nat) (m : W256) (s : State),
    ((s.se c e).entry = some m) ∧ ((s.se c e).spload = some (first, ws)) :=
  ⟨0, 3, 31, [5], 2, { Demo.live with cores := { ses := [(3, { entry := some 2, spload := some (31, [5]) })] } }, by decide⟩
theorem test_hyp_StreamAcceptance_ends : ∃ (c e : Nat) (m : W256) (s : State),
    ((s.se c e).entry = some m) ∧ ((s.se c e).ended = true) ∧ ((s.se c e).acts = []) ∧ ((s.se c e).moves = []) ∧ ((s.se c e).reads = []) ∧ ((s.se c e).writes = []) ∧ (s.ackOver c (s.se c e).asyncA = true) :=
  ⟨0, 3, 1, { Demo.live with cores := { ses := [(3, { entry := some 1, ended := true })] } }, by decide⟩
theorem test_hyp_StreamInstructions_registers : ∃ (c e w : Nat) (s u : State),
    s.seGoes c e u w :=
  ⟨0, 3, 0x7800000000000000, Demo.stream, Demo.stream, by unfold State.seGoes; decide⟩
theorem test_hyp_StreamInstructions_memory : ∃ (c e w : Nat) (s u : State),
    s.seGoes c e u w :=
  ⟨0, 3, 0x7800000000000000, Demo.stream, Demo.stream, by unfold State.seGoes; decide⟩
theorem test_hyp_StreamInstructions_moves : ∃ (c e w : Nat) (s u : State),
    (s.seGoes c e u w) ∧ (iOp w = opMov) :=
  ⟨0, 3, 0x3000000000000000, Demo.mov, Demo.mov, by unfold State.seGoes; decide⟩
theorem test_hyp_StreamInstructions_couch : ∃ (c e w v base seg i : Nat) (s u : State),
    (s.seGoes c e u w) ∧ (u.couchSeg c = some (v, base, seg, i)) ∧ ((u.se c e).moving = none) :=
  ⟨0, 3, 0x7800000000000000, 0, 0, 4096, 0, Demo.couch, Demo.couch, by unfold State.seGoes; decide⟩
theorem test_hyp_StreamInstructions_waiting : ∃ (c e w : Nat) (m : SeMove) (s u : State),
    (s.seGoes c e u w) ∧ ((u.se c e).moving = some m) :=
  ⟨0, 3, 0x7800000000000000, { todo := [(0, 4)] }, Demo.moving, Demo.moving, by unfold State.seGoes; decide⟩
theorem test_hyp_StreamInstructions_poisoned : ∃ (c e : Nat) (i : Instr) (s : State),
    (i ∈ [Instr.seta c e, .adda c e, .addr c e, .ldd c e, .setx c e, .loop c e, .loopm c e, .mov c e, .cvt c e, .page c e, .rfill c e, .rdone c e, .rtake c e, .rfree c e, .push c e, .pop c e, .swt c e, .ssig c e, .deliv c e, .streamEnd c e]) ∧ (s.seqOn c e = true) ∧ (NSet.has (s.se c e).storeUe (s.se c e).pc = true) :=
  ⟨0, 3, .deliv 0 3, { Demo.stream with cores := { ctls := [(0, { run := .running, started := true })], ses := [(3, { entry := some 1, mop := 1, storeUe := [0] })] } }, by decide⟩
theorem test_hyp_StreamDeliveries_readReturn : ∃ (c e : Nat) (r : SeRead) (ans : ReadAns) (s : State),
    (s.se c e).reads.find? (fun q => q.id == r.id) = some r :=
  ⟨0, 0, { id := 4, kind := .loopm, async := false }, .refused 2, { Demo.live with cores := { ses := [(0, { reads := [{ id := 4, kind := .loopm, async := false }] })] } }, by decide⟩
theorem test_hyp_StreamDeliveries_tests : ∃ (c e ctr k : Nat) (s : State),
    (1 ≤ s.ctr ctr) ∧ (s.enginesOn c = true) :=
  ⟨0, 0, 3, 0, { Demo.live with cores := { ctls := [(0, { run := .running, started := true })] }, net := { plans := [(0, { valid := true, vatmanCluster := 0, clusters := 1 })], ctrs := [(3, 1)] } }, by decide⟩
theorem test_hyp_StreamDeliveries_point : ∃ (c e k at_ val : Nat) (rdy : Option Nat) (l : List SeAct) (s : State),
    ((s.se c e).acts = .point k rdy at_ val :: l) ∧ ((s.se c e).moves.any (fun m => m.k == k && m.done < (m.ownRuns (s.se c e).rate).length) = false) ∧ ((s.se c e).freeTests.any (fun f => f.1 ≤ k) = false) ∧ (s.enginesOn c = true) ∧ (at_ < (s.cycleOf c).toNat) ∧ ((s.se c e).wroteAt ≤ (s.cycleOf c).toNat) ∧ ((stDl (s.se c e).ent = true → stBase (s.se c e).ent + k * stStep (s.se c e).ent + (s.se c e).slip ≤ (s.cycleOf c).toNat)) :=
  ⟨0, 0, 0, 0, 0, none, [], { Demo.live with clk := { fast := 5 }, cores := { ctls := [(0, { run := .running, started := true })], ses := [(0, { acts := [.point 0 none 0 0] })] } }, by decide⟩
theorem test_hyp_StreamDeliveries_piece : ∃ (c e : Nat) (p : Bool × Nat × Nat) (m : SeMove) (s : State),
    ((s.se c e).moves.find? (fun m => m.done < (m.ownRuns (s.se c e).rate).length) = some m) ∧ ((m.ownRuns (s.se c e).rate)[m.done]? = some p) ∧ (s.enginesOn c = true) :=
  ⟨0, 0, (false, 0, 4), { sn := 4, dn := 4 }, { Demo.live with cores := { ctls := [(0, { run := .running, started := true })], ses := [(0, { moves := [{ sn := 4, dn := 4 }] })] } }, by decide⟩
theorem test_hyp_StreamDeliveries_due : ∃ (x : Se) (m : SeMove) (p : Bool × Nat × Nat) (now : Nat),
    x.pieceDue m p now = true :=
  ⟨{}, { sn := 4, dn := 4 }, (false, 0, 4), 5, by decide⟩
theorem test_hyp_StreamDeliveries_acks : ∃ (c e st : Nat) (p : SeWrite) (s : State),
    (s.se c e).writes.find? (fun q => q.id == p.id) = some p :=
  ⟨0, 0, 0, { id := 5, async := true }, { Demo.live with cores := { ses := [(0, { writes := [{ id := 5, async := true }] })] } }, by decide⟩
theorem test_hyp_StreamDeliveries_faults : ∃ (c e mid k st : Nat) (m : W256) (s : State),
    (s.se c e).entry = some m :=
  ⟨0, 3, 0, 0, 2, 1, Demo.stream, by decide⟩
theorem test_hyp_ChannelEngine_accepts : ∃ (c mop : Nat) (m : W256) (s : State),
    ((s.queue c 6).head = some m) ∧ (mMop m = mop) ∧ (s.enginesOn c = true) ∧ ((s.chn c).entry = none) ∧ (s.sigRight c m = true) :=
  ⟨0, 1, 1, { Demo.live with cores := { ctls := [(0, { run := .running, started := true })], queues := [(6, { entries := [1] })] } }, by decide⟩
theorem test_hyp_ChannelEngine_permission : ∃ (c : Nat) (i : Instr) (m : W256) (s : State),
    ((i, mMop m) ∈ [(Instr.send c, 1), (.sendM c, 2), (.rsync c, 3), (.openChan c, 4), (.closeChan c, 5)]) ∧ ((s.queue c 6).head = some m) ∧ (s.enginesOn c = true) ∧ ((s.chn c).entry = none) ∧ (s.sigRight c m = false) :=
  ⟨0, .send 0, 0x40000301, { Demo.live with cores := { ctls := [(0, { run := .running, started := true })], queues := [(6, { entries := [0x40000301] })] } }, by decide⟩
theorem test_hyp_ChannelEngine_message : ∃ (c : Nat) (m : W256) (s : State),
    ((s.chn c).entry = some m) ∧ (mMop m = 1) ∧ (s.enginesOn c = true) ∧ ((s.chn c).refusal = none) ∧ ((s.chn c).idx < sdCount m.toNat) ∧ ((s.ep c (sdEp m.toNat)).creditMin ≠ 0) :=
  ⟨0, 1, { Demo.live with cores := { ctls := [(0, { run := .running, started := true })], chns := [(0, { entry := some 1 })], eps := [(0, { desc := 1, credits := [(0, 2)] })] } }, by decide⟩
theorem test_hyp_ChannelEngine_credit : ∃ (c e : Nat) (m : ChMsg) (s : State),
    (s.net.fenced.has c = false) ∧ (m.reserved = false) ∧ (cdRole (s.ep c e).desc = 1) ∧ (m.mc < cdMcCount (s.ep c e).desc) :=
  ⟨0, 0, {}, { Demo.live with cores := { ctls := [(0, { run := .running, started := true })], eps := [(0, { desc := 1 })] } }, by decide⟩
theorem test_hyp_ChannelEngine_landed : ∃ (c e : Nat) (w : W256) (m : ChMsg) (s : State),
    (s.net.fenced.has c = false) ∧ (m.reserved = false) ∧ ((s.chn c).entry = some w) ∧ (mMop w = 1) ∧ (sdEp w.toNat = e) :=
  ⟨0, 0, 1, {}, { Demo.live with cores := { ctls := [(0, { run := .running, started := true })], chns := [(0, { entry := some 1, idx := 1 })] } }, by decide⟩
theorem test_hyp_ChannelEngine_refusedMessage : ∃ (c e mc seq status : Nat) (m : W256) (s : State),
    ((s.chn c).entry = some m) ∧ (mMop m = 1) ∧ (sdEp m.toNat = e) ∧ ((s.chn c).sentBad = none) ∧ ((seq + (s.chn c).idx + 2 ^ 32 - (s.ep c e).seq % 2 ^ 32) % 2 ^ 32 < (s.chn c).idx) ∧ (mc < cdMcCount (s.ep c e).desc) :=
  ⟨0, 0, 0, 0, 4, 1, { Demo.live with cores := { ctls := [(0, { run := .running, started := true })], chns := [(0, { entry := some 1, idx := 1 })], eps := [(0, { desc := 1, seq := 1 })] } }, by decide⟩
theorem test_hyp_ChannelEngine_refusedOther : ∃ (c e mc seq status : Nat) (w : W256) (s : State),
    (s.chn c).entry = some w :=
  ⟨0, 0, 0, 0, 4, 2, { Demo.live with cores := { ctls := [(0, { run := .running, started := true })], chns := [(0, { entry := some 2 })] } }, by decide⟩
theorem test_hyp_ChannelEngine_answers : ∃ (c e : Nat) (m : ChMsg) (w : W256) (s : State),
    (s.net.fenced.has c = false) ∧ (m.reserved = false) ∧ ((s.chn c).entry = some w) :=
  ⟨0, 0, {}, 4, { Demo.live with cores := { ctls := [(0, { run := .running, started := true })], chns := [(0, { entry := some 4 })] } }, by decide⟩
theorem test_hyp_ChannelArrivals_foreign : ∃ (c kind : Nat) (i : Instr) (m : ChMsg) (s : State),
    (i, kind) ∈ [(Instr.channelData c m, 1), (.mailboxMessage c m, 4), (.mailboxAnswer c m, 5), (.openPacket c m, 6), (.accept c m, 7), (.closePacket (c, m), 9)] :=
  ⟨0, 1, .channelData 0 {}, {}, Demo.live, by decide⟩
theorem test_hyp_ChannelArrivals_foreignSender : ∃ (c e kind : Nat) (i : Instr) (m : ChMsg) (s : State),
    (i, kind) ∈ [(Instr.creditReturn c e m, 2), (.landingAck c e m, 3), (.reject c e m, 8)] :=
  ⟨0, 0, 2, .creditReturn 0 0 {}, {}, Demo.live, by decide⟩
theorem test_hyp_ChannelArrivals_data : ∃ (c : Nat) (m : ChMsg) (s : State),
    (s.net.fenced.has c = false) ∧ (m.reserved = false) :=
  ⟨0, {}, Demo.live, by decide⟩
theorem test_hyp_ChannelArrivals_frees : ∃ (c e : Nat) (s : State),
    (cdRole (s.ep c e).desc = 2) ∧ ((s.ep c e).occ ≠ 0) ∧ (1 ≤ s.ctr (cdFree (s.ep c e).desc)) ∧ (s.net.fenced.has c = false) :=
  ⟨0, 0, { Demo.live with cores := { ctls := [(0, { run := .running, started := true })], eps := [(0, { desc := 2, occ := 1 })] }, net := { ctrs := [(0, 1)] } }, by decide⟩
theorem test_hyp_ChannelArrivals_drains : ∃ (c e : Nat) (data : List Byte) (bad : NSet) (q : Spilled) (l : List Spilled) (s : State),
    ((s.ep c e).spill = q :: l) ∧ ((s.ep c e).drains ≠ 0) :=
  ⟨0, 0, [], [], {}, [], { Demo.live with cores := { ctls := [(0, { run := .running, started := true })], eps := [(0, { desc := 2, spill := [{}], drains := 1 })] } }, by decide⟩
theorem test_hyp_ChannelArrivals_spillAck : ∃ (c e : Nat) (a : Bool) (l : List Bool) (s : State),
    (s.ep c e).spillAcks = a :: l :=
  ⟨0, 0, true, [], { Demo.live with cores := { ctls := [(0, { run := .running, started := true })], eps := [(0, { desc := 2, spillAcks := [true] })] } }, by decide⟩
theorem test_hyp_ChannelArrivals_mailbox : ∃ (c : Nat) (m : ChMsg) (s : State),
    (s.net.fenced.has c = false) ∧ (m.reserved = false) :=
  ⟨0, {}, Demo.live, by decide⟩
theorem test_hyp_ChannelArrivals_deadlock : ∃ (c e t v : Nat) (s : State),
    ((s.ep c e).dlSince = some t) ∧ (s.vatOfCore c = some v) :=
  ⟨0, 0, 0, 0, { Demo.live with cores := { ctls := [(0, { run := .running, started := true })], eps := [(0, { dlSince := some 0 })] }, clk := { fast := 0x10000000000 } }, by decide⟩
theorem test_hyp_ChannelArrivals_released : ∃ (c e r : Nat) (l : List Nat) (s : State),
    (s.ep c e).heldRdy = r :: l :=
  ⟨0, 0, 0, [], { Demo.live with cores := { ctls := [(0, { run := .running, started := true })], eps := [(0, { heldRdy := [0] })] } }, by decide⟩
theorem test_hyp_Connections_opens : ∃ (c : Nat) (m : ChMsg) (s : State),
    (s.net.fenced.has c = false) ∧ (m.reserved = false) :=
  ⟨0, {}, Demo.live, by decide⟩
theorem test_hyp_Connections_closes : ∃ (c : Nat) (m : ChMsg) (s : State),
    (s.net.fenced.has c = false) ∧ (m.reserved = false) :=
  ⟨0, {}, Demo.live, by decide⟩
theorem test_hyp_Networks_control : ∃ (n p h : Nat) (pay : List Byte) (k : NetMarks) (s : State),
    ctlHdrOk h = true :=
  ⟨0, 0, 2 ^ 42 + 2 ^ 12, [], {}, State.reset, by decide⟩
theorem test_hyp_Networks_controlFault : ∃ (n p h : Nat) (pay : List Byte × NetMarks) (s : State),
    ctlHdrOk h = false :=
  ⟨0, 0, 0, ([], {}), State.reset, by decide⟩
theorem test_hyp_Networks_fence : ∃ (c k : Nat) (s : State),
    s.net.fenced.has c = true :=
  ⟨5, 0, { State.reset with net := { fenced := [5] } }, by decide⟩
theorem test_hyp_Networks_window : ∃ (c off n : Nat) (data : List Byte) (bad : List Nat) (w : WinBy) (s : State),
    s.clRun (clusterOf c) = true :=
  ⟨0, 0, 8, [], [], .mgmt, Demo.live, by decide⟩
theorem test_hyp_SyncFrames_word : ∃ (c : Nat) (w : W64) (s u : State),
    u = (match (s.chn c).entry with | some m => if mMop m == 3 then s.chnDone c else s | none => s) :=
  ⟨0, 0, State.reset, State.reset, by decide⟩
theorem test_hyp_SyncFrames_receive : ∃ (port : Nat) (x : RxFrame) (s u : State),
    (s.takeFrame port (fun f => f.kind == 1) = some (x, u)) ∧ (port ≠ twinPort) :=
  ⟨0, { f := { kind := 1 } }, Demo.rx { kind := 1 }, Demo.taken { kind := 1 }, by decide⟩
theorem test_hyp_SyncFrames_release : ∃ (i : Nat) (h : HeldTick) (s : State),
    (s.net.heldTicks[i]? = some h) ∧ (h.stamp.toNat ≤ s.clk.gtc.toNat) :=
  ⟨0, {}, { State.reset with net := { heldTicks := [{}] } }, by decide⟩
theorem test_hyp_LinkStates_hello : ∃ (port : Nat) (x : RxFrame) (s u : State),
    (s.takeFrame port (fun f => f.kind == 3 && (fld f.unit 0 4 == 1 || fld f.unit 0 4 == 2)) = some (x, u)) ∧ ((s.port port).st = .hello ∨ (s.port port).st = .up) :=
  ⟨0, { f := { kind := 3, unit := 2 ^ 4 + 1 } }, Demo.rx { kind := 3, unit := 2 ^ 4 + 1 }, Demo.taken { kind := 3, unit := 2 ^ 4 + 1 }, by decide⟩
theorem test_hyp_LinkStates_up : ∃ (port n : Nat) (s : State),
    port ≠ twinPort :=
  ⟨0, 0, State.reset, by decide⟩
theorem test_hyp_LinkStates_down : ∃ (port : Nat) (x : RxFrame) (s u : State),
    s.takeFrame port (fun f => f.kind == 3 && fld f.unit 0 4 == 3) = some (x, u) :=
  ⟨0, { f := { kind := 3, unit := 3 } }, Demo.rx { kind := 3, unit := 3 }, Demo.taken { kind := 3, unit := 3 }, by decide⟩
theorem test_hyp_LinkStates_enable : ∃ (port n : Nat) (s : State),
    port < 6 :=
  ⟨0, 1, State.reset, by decide⟩
theorem test_hyp_LinkPairs_receives : ∃ (port k : Nat) (p : Pair) (s : State),
    (s.port port).st.live = true :=
  ⟨0, 0, {}, Demo.rx {}, by decide⟩
theorem test_hyp_LinkPairs_sends : ∃ (port : Nat) (s : State),
    (s.port port).st = .hello ∨ (s.port port).st = .up :=
  ⟨0, Demo.rx {}, by decide⟩
theorem test_hyp_LinkPairs_aligns : ∃ (port : Nat) (s : State),
    (s.port port).st = .align :=
  ⟨0, { State.reset with span := { ports := [(0, { st := .align })] } }, by decide⟩
theorem test_hyp_RemoteAccesses_read : ∃ (port v : Nat) (x : RxFrame) (s u : State),
    (s.takeFrame port (fun f => f.kind == 9) = some (x, u)) ∧ (u.frameAdmit port x.f false = .ok v) ∧ (u.spadAwake (fld x.f.unit 0 48) = true) :=
  ⟨0, 0, { f := { kind := 9, len := 32 } }, Demo.openWith true 9, Demo.opened true 9, by refine ⟨?_, ?_, ?_⟩ <;> first | decide | rfl | exact ⟨rfl, rfl, rfl⟩⟩
theorem test_hyp_RemoteAccesses_write : ∃ (port v : Nat) (x : RxFrame) (s u : State),
    (s.takeFrame port (fun f => f.kind == 0xA) = some (x, u)) ∧ (u.frameAdmit port x.f true = .ok v) ∧ (u.spadAwake (fld x.f.unit 0 48) = true) :=
  ⟨0, 0, { f := { kind := 10, len := 32 } }, Demo.openWith true 10, Demo.opened true 10, by refine ⟨?_, ?_, ?_⟩ <;> first | decide | rfl | exact ⟨rfl, rfl, rfl⟩⟩
theorem test_hyp_RemoteAccesses_refused : ∃ (port st : Nat) (v : Option Nat) (x : RxFrame) (s u : State),
    (u.frameAdmit port x.f false = .error (st, v)) ∧ (u.frameAdmit port x.f true = .error (st, v)) ∧ (st ≠ eWindowClosed) :=
  ⟨0, ePermission, none, { f := { kind := 9, len := 32 } }, State.reset, State.reset, by refine ⟨?_, ?_, ?_⟩ <;> first | decide | rfl | exact ⟨rfl, rfl, rfl⟩⟩
theorem test_hyp_RemoteAccesses_closed : ∃ (port v : Nat) (x : RxFrame) (s u : State),
    (s.takeFrame port (fun f => f.kind == 0xA) = some (x, u)) ∧ (u.frameAdmit port x.f true = .error (eWindowClosed, some v)) :=
  ⟨0, 0, { f := { kind := 10, len := 32 } }, Demo.openWith false 10, Demo.opened false 10, by refine ⟨?_, ?_⟩ <;> first | decide | rfl | exact ⟨rfl, rfl, rfl⟩⟩
theorem test_hyp_RemoteAccesses_answers : ∃ (port : Nat) (x : RxFrame) (t : TagEnt) (s u : State),
    (u.clk.gtc.toNat < t.sentAt.toNat + u.span.reqTo) ∧ ((u.port port).tags.find? (fun z => z.1 == x.f.tag) = some (x.f.tag, t)) :=
  ⟨0, {}, {}, State.reset, { State.reset with span := { reqTo := 1, ports := [(0, { tags := [(0, {})] })] } }, by decide⟩
theorem test_hyp_RemoteAccesses_late : ∃ (port : Nat) (x : RxFrame) (s u : State),
    (u.port port).tags.find? (fun z => z.1 == x.f.tag) = none :=
  ⟨0, {}, State.reset, State.reset, by decide⟩
theorem test_hyp_ChannelFrames_frames : ∃ (port : Nat) (x : RxFrame) (s u : State),
    (s.port port).perm.admits x.f.src (s.port port).perm.chan = true :=
  ⟨0, {}, { State.reset with span := { ports := [(0, { perm := { chan := true } })] } }, State.reset, by decide⟩
theorem test_hyp_ChannelFrames_shutOut : ∃ (port : Nat) (x : RxFrame) (s u : State),
    (s.port port).perm.admits x.f.src (s.port port).perm.chan = false :=
  ⟨0, {}, State.reset, State.reset, by decide⟩
theorem test_hyp_ChannelFrames_refuse : ∃ (port : Nat) (x : RxFrame) (s u : State),
    s.takeFrame port (fun f => f.kind == 0xC) = some (x, u) :=
  ⟨0, { f := { kind := 0xC } }, Demo.rx { kind := 0xC }, Demo.taken { kind := 0xC }, by decide⟩
theorem test_hyp_TwinPairing_commands : ∃ (s : State),
    s.span.tw.cfgEn = true :=
  ⟨{ State.reset with span := { tw := { cfgEn := true } } }, by decide⟩
theorem test_hyp_TwinPairing_unpairs : ∃ (s : State),
    (s.span.tw.cfgEn = true) ∧ (s.span.tw.st = .active ∨ s.span.tw.st = .mirror ∨ s.span.tw.st = .broken) :=
  ⟨{ State.reset with span := { tw := { cfgEn := true, st := .active } } }, by decide⟩
theorem test_hyp_TwinPairing_hands : ∃ (s : State),
    (s.span.tw.cfgEn = true) ∧ (s.span.tw.st = .active) ∧ (s.span.tw.handover = false) ∧ (s.mirroredVats.any (fun v => let x := s.vat v; !(x.st == .ready || x.st == .free) || x.tw.mstat != 2 || x.tw.busy) = false) :=
  ⟨{ State.reset with span := { tw := { cfgEn := true, st := .active } } }, by decide⟩
theorem test_hyp_TwinPairing_pairTime : ∃ (s : State),
    (s.span.tw.st = .pairing) ∧ (s.span.tw.pairAt.toNat + 1000000000 ≤ s.clk.gtc.toNat) :=
  ⟨{ State.reset with clk := { gtc := 1000000000 }, span := { tw := { st := .pairing } } }, by decide⟩
theorem test_hyp_TwinPairing_beats : ∃ (s : State),
    (s.clk.gtc.toNat % 10000 = 0 ∨ s.clk.prev.toNat / 10000 ≠ s.clk.gtc.toNat / 10000) ∧ ((s.span.tw.st = .pairing ∧ (s.port twinPort).st = .up) ∨ s.span.tw.st = .active ∨ s.span.tw.st = .mirror ∨ s.span.tw.st = .takeover ∨ s.span.tw.st = .broken) :=
  ⟨{ State.reset with span := { tw := { st := .active } } }, by decide⟩
theorem test_hyp_TwinPairing_beatIn : ∃ (x : RxFrame) (s u : State),
    (s.takeFrame twinPort (fun f => f.kind == 1) = some (x, u)) ∧ (x.f.src = s.span.tw.cfgPeer) ∧ (x.stamped = true) ∧ (fld x.f.unit 16 3 ≤ 5) :=
  ⟨{ f := { kind := 1 }, stamped := true }, Demo.beat, Demo.beaten, by decide⟩
theorem test_hyp_TwinPairing_loss : ∃ (s : State),
    (s.paired = true) ∧ (s.span.tw.lastBeat.toNat + 30000 ≤ s.clk.gtc.toNat) :=
  ⟨{ State.reset with clk := { gtc := 30000 }, span := { tw := { st := .active } } }, by decide⟩
theorem test_hyp_TwinPairing_taken : ∃ (s : State),
    (s.span.tw.st = .takeover) ∧ (s.mirroredVats.any (fun v => !(s.vat v).tw.log.isEmpty) = false) :=
  ⟨{ State.reset with span := { tw := { st := .takeover } } }, by decide⟩
theorem test_hyp_TwinControl_enable : ∃ (v n : Nat) (s : State),
    v < 16 :=
  ⟨0, 1, State.reset, by decide⟩
theorem test_hyp_TwinControl_disable : ∃ (v n : Nat) (s : State),
    (v < 16) ∧ (fld n 0 2 = 0) :=
  ⟨0, 0, State.reset, by decide⟩
theorem test_hyp_TwinControl_answer : ∃ (x : RxFrame) (s u : State),
    s.takeFrame twinPort (fun f => f.kind == 7) = some (x, u) :=
  ⟨{ f := { kind := 7 } }, Demo.twin {} { kind := 7 }, Demo.twinTaken {} { kind := 7 }, by decide⟩
theorem test_hyp_TwinControl_acknowledged : ∃ (c : TwCommit) (l : List TwCommit) (x : RxFrame) (s u : State),
    (s.takeFrame twinPort (fun f => f.kind == 5) = some (x, u)) ∧ ((u.vat (fld x.f.unit 0 4)).tw.commits = c :: l) ∧ (c.no = fld x.f.unit 16 32) ∧ (fld x.f.unit 8 8 = eOk) :=
  ⟨{}, [], { f := { kind := 5 } }, Demo.cack, Demo.cacked, by decide⟩
theorem test_hyp_TwinControl_lapses : ∃ (c : TwCommit) (l : List TwCommit) (x : RxFrame) (s u : State),
    (s.takeFrame twinPort (fun f => f.kind == 5) = some (x, u)) ∧ ((u.vat (fld x.f.unit 0 4)).tw.commits = c :: l) ∧ (c.no = fld x.f.unit 16 32) ∧ (fld x.f.unit 8 8 ≠ eOk) :=
  ⟨{}, [], { f := { kind := 5, unit := 0x700 } }, Demo.cackBad, Demo.cackedBad, by decide⟩
theorem test_hyp_TwinControl_freed : ∃ (x : RxFrame) (s u : State),
    s.takeFrame twinPort (fun f => f.kind == 4) = some (x, u) :=
  ⟨{ f := { kind := 4 } }, Demo.twin {} { kind := 4 }, Demo.twinTaken {} { kind := 4 }, by decide⟩
theorem test_hyp_TwinMirror_commits : ∃ (x : RxFrame) (s u : State),
    (s.takeFrame twinPort (fun f => f.kind == 0xA) = some (x, u)) ∧ (u.takesMirror (fld x.f.unit 0 4) = true) :=
  ⟨{ f := { kind := 0xA } }, Demo.standby, Demo.stoodBy, by decide⟩
theorem test_hyp_TwinMirror_applies : ∃ (v no : Nat) (items rest : List LogItem) (s : State),
    ((s.vat v).tw.log = items ++ .commit no :: rest) ∧ (items.all (fun i => match i with | .commit _ => false | _ => true) = true) :=
  ⟨0, 7, [], [], { State.reset with vats := [(0, { tw := { log := [.commit 7] } })] }, by decide⟩
theorem test_hyp_MouldLoads_load : ∃ (v : Nat) (src : Src) (k : Caller) (s u : State),
    s.taken src 0x01 v = some (u, k) :=
  ⟨0, .host 0, { host := some (0, 1) }, Demo.cmd 1 { st := .ready } 0, Demo.took 1 { st := .ready } 0, by decide⟩
theorem test_hyp_MouldLoads_header : ∃ (v i : Nat) (j : LoadJob) (rec : List Byte) (bad : List Nat) (s : State),
    ((s.vat v).job_ = some j) ∧ (j.scanIn = false) ∧ ((s.vat v).st = .loading) ∧ ((s.vat v).ld = .header) ∧ (rec.length = 256) ∧ (i < 3) :=
  ⟨0, 0, {}, List.replicate 256 0, [], { State.reset with vats := [(0, { st := .loading, ld := .header, job_ := some {} })] }, by decide⟩
theorem test_hyp_MouldLoads_frames : ∃ (v i : Nat) (j : LoadJob) (rec : List Byte) (bad : List Nat) (s : State),
    ((s.vat v).job_ = some j) ∧ (j.scanIn = false) ∧ ((s.vat v).st = .loading) ∧ (rec.length = 256) ∧ (3 ≤ i) ∧ (i < 3 + mhFrames j.hdr) :=
  ⟨0, 3, { recs := [(0, [0, 0, 0, 0, 0, 0, 0, 0, 0, 0, 0, 0, 0, 0, 0, 0, 0, 0, 0, 0, 1])] }, List.replicate 256 0, [], { State.reset with vats := [(0, { st := .loading, ld := .check, job_ := some { recs := [(0, [0, 0, 0, 0, 0, 0, 0, 0, 0, 0, 0, 0, 0, 0, 0, 0, 0, 0, 0, 0, 1])] } })] }, by decide⟩
theorem test_hyp_MouldLoads_checked : ∃ (v : Nat) (j : LoadJob) (s : State),
    ((s.vat v).job_ = some j) ∧ (j.scanIn = false) ∧ ((s.vat v).ld = .check) ∧ ((List.range (mhFrames j.hdr)).all (fun i => (j.rec_ (3 + i)).length == 256) = true) :=
  ⟨0, {}, { State.reset with vats := [(0, { st := .loading, ld := .check, job_ := some {} })] }, by decide⟩
theorem test_hyp_MouldLoads_written : ∃ (v : Nat) (j : LoadJob) (s : State),
    ((s.vat v).job_ = some j) ∧ (j.scanIn = false) :=
  ⟨0, {}, { State.reset with vats := [(0, { st := .loading, ld := .write, job_ := some {} })] }, by decide⟩
theorem test_hyp_MouldLoads_abort : ∃ (v : Nat) (src : Src) (k : Caller) (j : LoadJob) (s u : State),
    (s.taken src 0x02 v = some (u, k)) ∧ ((u.vat v).job_ = some j) :=
  ⟨0, .host 0, { host := some (0, 1) }, {}, Demo.cmd 2 { st := .loading, job_ := some {} } 0, Demo.took 2 { st := .loading, job_ := some {} } 0, by decide⟩
theorem test_hyp_MouldLoads_release : ∃ (v : Nat) (src : Src) (k : Caller) (s u : State),
    s.taken src 0x03 v = some (u, k) :=
  ⟨0, .host 0, { host := some (0, 1) }, Demo.cmd 3 { st := .ready } 0, Demo.took 3 { st := .ready } 0, by decide⟩
theorem test_hyp_Sheets_start : ∃ (v : Nat) (src : Src) (k : Caller) (s u : State),
    s.taken src 0x04 v = some (u, k) :=
  ⟨0, .host 0, { host := some (0, 1) }, Demo.cmd 4 { st := .ready } 0, Demo.took 4 { st := .ready } 0, by decide⟩
theorem test_hyp_Sheets_begins : ∃ (v : Nat) (t : W64) (s : State),
    ((s.vat v).det.pendStart = some t) ∧ ((s.vat v).st = .ready) ∧ ((s.vat v).advBusy = false) :=
  ⟨0, 0, { State.reset with vats := [(0, { st := .ready, det := { pendStart := some 0 } })] }, by decide⟩
theorem test_hyp_Sheets_dropped : ∃ (v : Nat) (t : W64) (s : State),
    ((s.vat v).det.pendStart = some t) ∧ ((s.vat v).st ≠ .ready) :=
  ⟨0, 0, { State.reset with vats := [(0, { st := .free, det := { pendStart := some 0 } })] }, by decide⟩
theorem test_hyp_Sheets_core : ∃ (c v : Nat) (s : State),
    (s.vatOfCore c = some v) ∧ ((s.vat v).st = .running) ∧ ((s.vat v).enlisted.has c = true) ∧ ((s.ctl c).run = .running) ∧ ((s.vat v).startOff.get 0 (regionOf (clusterOf c)) ≤ (s.cycleOf c).toNat) :=
  ⟨0, 0, { Demo.live with vats := [(0, { st := .running, enlisted := [0] })] }, by decide⟩
theorem test_hyp_Sheets_stop : ∃ (v r : Nat) (k : Caller) (s u : State),
    (s.taken (.host r) 0x07 v = some (u, k)) ∧ ((s.vat v).spadCopies = 0) :=
  ⟨0, 0, { host := some (0, 1) }, Demo.cmd 7 { st := .running } 0, Demo.took 7 { st := .running } 0, by decide⟩
theorem test_hyp_Sheets_arm : ∃ (v : Nat) (x : W32) (s : State),
    x.toNat < 8 :=
  ⟨0, 4, State.reset, by decide⟩
theorem test_hyp_ScanImages_out : ∃ (v : Nat) (s : State),
    ((s.vat v).st = .stopping) ∧ ((s.vat v).scanning = false) ∧ (s.still v = true) :=
  ⟨0, { State.reset with vats := [(0, { st := .stopping })] }, by decide⟩
theorem test_hyp_ScanImages_done : ∃ (v : Nat) (s : State),
    ((s.vat v).st = .stopping) ∧ ((s.vat v).scanning = true) :=
  ⟨0, { State.reset with vats := [(0, { st := .stopping, scanning := true })] }, by decide⟩
theorem test_hyp_ScanImages_scanIn : ∃ (v : Nat) (src : Src) (k : Caller) (s u : State),
    s.taken src 0x05 v = some (u, k) :=
  ⟨0, .host 0, { host := some (0, 1) }, Demo.cmd 5 { st := .free } 0, Demo.took 5 { st := .free } 0, by decide⟩
theorem test_hyp_ScanImages_restored : ∃ (v : Nat) (j : LoadJob) (s : State),
    ((s.vat v).job_ = some j) ∧ (j.scanIn = true) ∧ ((s.vat v).ld = .check) :=
  ⟨0, { scanIn := true }, { State.reset with vats := [(0, { st := .loading, ld := .check, job_ := some { scanIn := true } })] }, by decide⟩
theorem test_hyp_ScanImages_resume : ∃ (v : Nat) (src : Src) (k : Caller) (s u : State),
    s.taken src 0x06 v = some (u, k) :=
  ⟨0, .host 0, { host := some (0, 1) }, Demo.cmd 6 { st := .scanned } 0, Demo.took 6 { st := .scanned } 0, by decide⟩
theorem test_hyp_VatEnds_plan : ∃ (r v : Nat) (k : HostCmd) (s : State),
    ((s.ring r).nextCmd = some k) ∧ (k.op = 0x26) ∧ (s.fastOn = true) :=
  ⟨0, 0, { uid := 1, op := 0x26 }, Demo.cmd 0x26 {} 0, by decide⟩
theorem test_hyp_VatEnds_assign : ∃ (v : Nat) (src : Src) (job : Nat) (k : Caller) (s u : State),
    (s.taken src 0x20 v = some (u, k)) ∧ (src ≠ .vatman) :=
  ⟨0, .host 0, 0, { host := some (0, 1), entry := 2 ^ 64 }, Demo.cmd 0x20 { jobValid := false } (2 ^ 64), Demo.took 0x20 { jobValid := false } (2 ^ 64), by decide⟩
theorem test_hyp_VatEnds_releaseJob : ∃ (v r : Nat) (k : Caller) (s u : State),
    s.taken (.host r) 0x21 v = some (u, k) :=
  ⟨0, 0, { host := some (0, 1) }, Demo.cmd 0x21 { jobValid := true } 0, Demo.took 0x21 { jobValid := true } 0, by decide⟩
theorem test_hyp_VatEnds_kill : ∃ (v r : Nat) (k : Caller) (s u : State),
    s.taken (.host r) 0x24 v = some (u, k) :=
  ⟨0, 0, { host := some (0, 1) }, Demo.cmd 0x24 { st := .ready } 0, Demo.took 0x24 { st := .ready } 0, by decide⟩
theorem test_hyp_VatEnds_reset : ∃ (v r : Nat) (k : Caller) (s u : State),
    s.taken (.host r) 0x25 v = some (u, k) :=
  ⟨0, 0, { host := some (0, 1) }, Demo.cmd 0x25 { st := .ready } 0, Demo.took 0x25 { st := .ready } 0, by decide⟩
theorem test_hyp_Reclaim_reclaim : ∃ (v r : Nat) (k : Caller) (s u : State),
    s.taken (.host r) 0x22 v = some (u, k) :=
  ⟨0, 0, { host := some (0, 1) }, Demo.cmd 0x22 { st := .ready } 0, Demo.took 0x22 { st := .ready } 0, by decide⟩
theorem test_hyp_Reclaim_deadline : ∃ (v : Nat) (s : State),
    ((s.vat v).reclaim.step = .pending) ∧ ((s.vat v).reclaim.deadline.toNat ≤ s.clk.gtc.toNat) :=
  ⟨0, { State.reset with vats := [(0, { st := .ready, reclaim := { step := .pending } })] }, by decide⟩
theorem test_hyp_Reclaim_evacuate : ∃ (v r : Nat) (k : Caller) (s u : State),
    s.taken (.host r) 0x23 v = some (u, k) :=
  ⟨0, 0, { host := some (0, 1) }, Demo.cmd 0x23 { reclaim := { step := .held } } 0, Demo.took 0x23 { reclaim := { step := .held } } 0, by decide⟩
theorem test_hyp_Reclaim_evacuated : ∃ (v : Nat) (s : State),
    (s.vat v).reclaim.step = .evacuating :=
  ⟨0, { State.reset with vats := [(0, { reclaim := { step := .evacuating } })] }, by decide⟩
theorem test_hyp_GlobalTime_alarm : ∃ (s : State),
    (s.hub.alarmDone = false) ∧ (s.hub.gtcAlarm.toNat ≤ s.clk.gtc.toNat) :=
  ⟨{ State.reset with hub := { State.reset.hub with gtcAlarm := 0 } }, by decide⟩
theorem test_hyp_GlobalTime_send : ∃ (s : State),
    (s.hub.gs.en = true) ∧ (s.hub.gs.upPort ≠ 7) :=
  ⟨{ State.reset with hub := { State.reset.hub with gs := { en := true, upPort := 0 } } }, by decide⟩
theorem test_hyp_GlobalTime_answer : ∃ (p : Nat) (x : RxFrame) (s u : State),
    s.takeFrame p (fun f => f.kind == 2 && fld f.unit 0 4 == 1) = some (x, u) :=
  ⟨0, { f := { kind := 2, unit := 1 } }, Demo.rx { kind := 2, unit := 1 }, Demo.taken { kind := 2, unit := 1 }, by decide⟩
theorem test_hyp_GlobalTime_stray : ∃ (p : Nat) (x : RxFrame) (t1 : W64) (s u : State),
    (s.takeFrame p (fun f => f.kind == 2 && fld f.unit 0 4 == 2) = some (x, u)) ∧ (s.hub.gs.t1 = some t1) ∧ (x.stamped = false ∨ p ≠ s.hub.gs.upPort ∨ s.hub.gs.en = false ∨ p = 7 ∨ (fld x.f.unit 4 16 ≠ s.hub.gs.seq ∧ (s.hub.gs.st = .locked → fld x.f.unit 20 17 < 131071 ∧ (s.hub.gs.root = none ∨ s.hub.gs.root = some (fld x.f.unit 39 17))))) :=
  ⟨0, { f := { kind := 2, unit := 2 + 5 * 2 ^ 4 }, stamped := true, tick := 30 }, 10, Demo.exchanged (2 + 5 * 2 ^ 4) { st := .acquire, en := true, upPort := 0, t1 := some 10, perLog2 := 20 }, Demo.exchangedTaken (2 + 5 * 2 ^ 4) { st := .acquire, en := true, upPort := 0, t1 := some 10, perLog2 := 20 }, by decide⟩
theorem test_hyp_GlobalTime_rooted : ∃ (p r : Nat) (x : RxFrame) (s u : State),
    (s.takeFrame p (fun f => f.kind == 2 && fld f.unit 0 4 == 2) = some (x, u)) ∧ (x.stamped = true) ∧ (p = s.hub.gs.upPort) ∧ (s.hub.gs.en = true) ∧ (p ≠ 7) ∧ (s.hub.gs.st = .locked) ∧ (s.hub.gs.root = some r) ∧ (131071 ≤ fld x.f.unit 20 17 ∨ r ≠ fld x.f.unit 39 17) :=
  ⟨0, 1, { f := { kind := 2, unit := 2 + 2 * 2 ^ 39 }, stamped := true, tick := 30 }, Demo.exchanged (2 + 2 * 2 ^ 39) { st := .locked, en := true, upPort := 0, t1 := some 10, root := some 1, perLog2 := 20 }, Demo.exchangedTaken (2 + 2 * 2 ^ 39) { st := .locked, en := true, upPort := 0, t1 := some 10, root := some 1, perLog2 := 20 }, by decide⟩
theorem test_hyp_GlobalTime_valid : ∃ (p : Nat) (x : RxFrame) (t1 : W64) (s u : State),
    (s.takeFrame p (fun f => f.kind == 2 && fld f.unit 0 4 == 2) = some (x, u)) ∧ (s.hub.gs.t1 = some t1) ∧ (x.stamped = true) ∧ (p = s.hub.gs.upPort) ∧ (s.hub.gs.en = true) ∧ (p ≠ 7) ∧ (fld x.f.unit 4 16 = s.hub.gs.seq) ∧ (s.hub.gs.root = none ∨ s.hub.gs.root = some (fld x.f.unit 39 17)) ∧ (t1.toNat + 2 ^ s.hub.gs.perLog2 > x.tick.toNat) ∧ (fld x.f.unit 37 2 = 2 ∨ fld x.f.unit 20 17 = 0) ∧ (fld x.f.unit 20 17 < 131071) :=
  ⟨0, { f := { kind := 2, unit := 2 + 20 * 2 ^ 64 + 20 * 2 ^ 128 }, stamped := true, tick := 30 }, 10, Demo.exchanged (2 + 20 * 2 ^ 64 + 20 * 2 ^ 128) { st := .acquire, en := true, upPort := 0, t1 := some 10, perLog2 := 20 }, Demo.exchangedTaken (2 + 20 * 2 ^ 64 + 20 * 2 ^ 128) { st := .acquire, en := true, upPort := 0, t1 := some 10, perLog2 := 20 }, by decide⟩
theorem test_hyp_GlobalTime_loss : ∃ (s : State),
    (s.hub.gs.st = .locked) ∧ (s.hub.gs.lastValid.toNat + 4 * 2 ^ s.hub.gs.perLog2 ≤ s.clk.gtc.toNat) :=
  ⟨{ State.reset with clk := { State.reset.clk with gtc := 2 ^ 40 }, hub := { State.reset.hub with gs := { st := .locked, perLog2 := 20 } } }, by decide⟩
theorem test_hyp_Accounting_window : ∃ (s : State),
    (s.hub.acct.winIdx < s.clk.gtc.toNat / (s.hub.acct.perMs * 1000000)) ∧ (s.clk.gtc.toNat / (s.hub.acct.perMs * 1000000) * s.hub.acct.perMs ≤ s.hub.acct.calIdx) :=
  ⟨{ State.reset with clk := { State.reset.clk with gtc := 2 ^ 50 }, hub := { State.reset.hub with acct := { perMs := 1, calIdx := 2 ^ 40 } } }, by decide⟩
theorem test_hyp_Accounting_shares : ∃ (measured : Nat) (s : State),
    s.hub.acct.calIdx < s.clk.gtc.toNat / 1000000 :=
  ⟨0, { State.reset with clk := { State.reset.clk with gtc := 2 ^ 50 } }, by decide⟩
theorem test_hyp_StackRequests_read : ∃ (who : StkWho) (at_ : Option Nat) (a n : Nat) (s : State),
    (stackPacket a n = true) ∧ (s.stkAdmit who a n false = eOk) :=
  ⟨.mgmt, none, 0, 16, State.reset, by decide⟩
theorem test_hyp_StackRequests_answered : ∃ (k : Nat) (r : StkReq) (s : State),
    s.mem.reads[k]? = some r :=
  ⟨0, {}, { State.reset with mem := { reads := [{}] } }, by decide⟩
theorem test_hyp_StackRequests_write : ∃ (who : StkWho) (at_ : Option Nat) (a : Nat) (data : List Byte) (bad : List Nat) (s : State),
    (stackPacket a data.length = true) ∧ (s.stkAdmit who a data.length true = eOk) :=
  ⟨.mgmt, none, 0, [0], [], State.reset, by decide⟩
theorem test_hyp_StackRequests_acked : ∃ (k : Nat) (r : StkReq) (s : State),
    s.mem.rmws[k]? = some r :=
  ⟨0, {}, { State.reset with mem := { rmws := [{}] } }, by decide⟩
theorem test_hyp_StackRequests_refresh : ∃ (i : Nat) (s : State),
    (i < 8) ∧ (s.pwr.asleep = false) ∧ (s.boot.wiped = true ∨ (s.stk i).hot = true) :=
  ⟨0, { State.reset with boot := { State.reset.boot with wiped := true } }, by decide⟩
theorem test_hyp_StackRequests_heat : ∃ (i t : Nat) (s : State),
    i < 8 :=
  ⟨0, 0, State.reset, by decide⟩
theorem test_hyp_StackCommands_held : ∃ (b : StkBy) (v r : Nat) (s : State),
    ((s.mem.cmds.filter (fun k => k.vat == v)).length < 16) ∧ ((s.vat v).st ≠ .wiping) ∧ ((s.vat v).st ≠ .faulted) ∧ (s.recordCheck v r = eOk) :=
  ⟨.core 0 0 0, 0, 0x10 + 2 ^ 182 + 2 ^ 246, State.reset, by decide⟩
theorem test_hyp_StackCommands_start : ∃ (v : Nat) (k : StkCmd) (s : State),
    ((s.mem.cmds.filter (fun k => k.vat == v)).find? (fun k => k.stage == .queued) = some k) ∧ ((s.vat v).tw.busy = false ∨ k.id < (s.vat v).tw.cmdLine) ∧ (((s.mem.cmds.filter (fun k => k.vat == v)).takeWhile (fun k => k.stage != .queued)).all (fun j => j.stage == .ran || j.stage == .aside) = true) :=
  ⟨0, {}, { State.reset with mem := { cmds := [{}] } }, by decide⟩
theorem test_hyp_StackCommands_exchange : ∃ (id : Nat) (k : StkCmd) (s : State),
    s.stkCmd id = some k :=
  ⟨0, {}, { State.reset with mem := { cmds := [{}] } }, by decide⟩
theorem test_hyp_StackCommands_share : ∃ (id i : Nat) (k : StkCmd) (s : State),
    (s.stkCmd id = some k) ∧ (k.stage = .ran) ∧ (i < 8) ∧ (k.ans.has i = false) :=
  ⟨0, 0, { rec_ := 0, stage := .ran }, { State.reset with mem := { cmds := [{ rec_ := 0, stage := .ran }] } }, by decide⟩
theorem test_hyp_StackCommands_publish : ∃ (k : StkCmd) (s : State),
    (rVout k.rec_ = true) ∧ (k.poisoned = false) ∧ (k.status = eOk) ∧ (k.target = 1) ∧ ((s.ver (rRegion k.rec_)).cur = 0) :=
  ⟨{ rec_ := 2 ^ 114, target := 1 }, State.reset, by decide⟩
theorem test_hyp_StackCommands_aside : ∃ (id : Nat) (k : StkCmd) (s : State),
    (s.stkCmd id = some k) ∧ (k.stage = .aside) ∧ ((s.ver (rRegion k.rec_)).upd = false) ∧ ((s.ver (rRegion k.rec_)).pins (1 - (s.ver (rRegion k.rec_)).cur) = 0) :=
  ⟨0, { rec_ := 0, stage := .aside }, { State.reset with mem := { cmds := [{ rec_ := 0, stage := .aside }] } }, by decide⟩
theorem test_hyp_StackCommands_complete : ∃ (id : Nat) (k : StkCmd) (s : State),
    (s.stkCmd id = some k) ∧ (k.ans.length = 8) ∧ (rOptim k.rec_ = false ∨ k.poisoned = false) :=
  ⟨0, { rec_ := 0, stage := .ran, ans := List.range 8 }, { State.reset with mem := { cmds := [{ rec_ := 0, stage := .ran, ans := List.range 8 }] } }, by decide⟩
theorem test_hyp_StackCommands_vdef : ∃ (id : Nat) (k : StkCmd) (y : VerEnt) (s : State),
    (s.stkCmd id = some k) ∧ (rOp k.rec_ = 0x10) ∧ (k.stage = .ready) ∧ (y = s.ver (rRegion k.rec_)) ∧ (y.bad = false) ∧ (y.defined = false ∨ y.vat = k.vat) ∧ (y.allows k.rec_ = true) :=
  ⟨0, { rec_ := 0x10 + 2 ^ 64, stage := .ready }, {}, { State.reset with mem := { cmds := [{ rec_ := 0x10 + 2 ^ 64, stage := .ready }] } }, by decide⟩
theorem test_hyp_StackCommands_vpin : ∃ (id i : Nat) (k : StkCmd) (y : VerEnt) (s : State),
    (s.stkCmd id = some k) ∧ (rOp k.rec_ = 0x11) ∧ (k.stage = .ready) ∧ (y = s.ver (rRegion k.rec_)) ∧ (y.bad = false) ∧ (y.defined = false ∨ y.vat = k.vat) ∧ (y.allows k.rec_ = true) ∧ (y.find (bit (rAux k.rec_) 0) (slAddr (rSlot k.rec_ 1)) = some i) :=
  ⟨0, 0, { rec_ := 0x1011, stage := .ready }, { defined := true, valid0 := true }, { State.reset with mem := { cmds := [{ rec_ := 0x1011, stage := .ready }], vers := [(0, { defined := true, valid0 := true })] } }, by decide⟩
theorem test_hyp_StackCommands_vunpin : ∃ (id i : Nat) (k : StkCmd) (y : VerEnt) (s : State),
    (s.stkCmd id = some k) ∧ (rOp k.rec_ = 0x12) ∧ (k.stage = .ready) ∧ (y = s.ver (rRegion k.rec_)) ∧ (y.bad = false) ∧ (y.defined = false ∨ y.vat = k.vat) ∧ (y.allows k.rec_ = true) ∧ (y.find false (slAddr (rSlot k.rec_ 1)) = some i) :=
  ⟨0, 0, { rec_ := 0x12, stage := .ready }, { defined := true, valid0 := true, pins0 := 1 }, { State.reset with mem := { cmds := [{ rec_ := 0x12, stage := .ready }], vers := [(0, { defined := true, valid0 := true, pins0 := 1 })] } }, by decide⟩
theorem test_hyp_StackEngines_accum : ∃ (id : Nat) (k : StkCmd) (s : State),
    (s.stkCmd id = some k) ∧ (rOp k.rec_ = 0x01) ∧ (k.stage = .ready ∨ k.stage = .go ∨ k.stage = .total) :=
  ⟨0, { rec_ := 1, stage := .ready }, { State.reset with mem := { cmds := [{ rec_ := 1, stage := .ready }] } }, by decide⟩
theorem test_hyp_StackEngines_convert : ∃ (id : Nat) (k : StkCmd) (s : State),
    (s.stkCmd id = some k) ∧ (rOp k.rec_ = 0x02) ∧ (k.stage = .ready ∨ k.stage = .go ∨ k.stage = .total) ∧ (bit (rAux k.rec_) 0 = false) :=
  ⟨0, { rec_ := 2, stage := .ready }, { State.reset with mem := { cmds := [{ rec_ := 2, stage := .ready }] } }, by decide⟩
theorem test_hyp_StackEngines_convertPruned : ∃ (id : Nat) (k : StkCmd) (s : State),
    (s.stkCmd id = some k) ∧ (rOp k.rec_ = 0x02) ∧ (k.stage = .ready ∨ k.stage = .go ∨ k.stage = .total) ∧ (bit (rAux k.rec_) 0 = true) :=
  ⟨0, { rec_ := 0x1002, stage := .ready }, { State.reset with mem := { cmds := [{ rec_ := 0x1002, stage := .ready }] } }, by decide⟩
theorem test_hyp_StackEngines_prescan : ∃ (i : Instr) (id : Nat) (k : StkCmd) (s : State),
    (s.stkCmd id = some k) ∧ ((i = .adam id ∧ rOp k.rec_ = 3) ∨ (i = .lamb id ∧ rOp k.rec_ = 4) ∨ (i = .sgd id ∧ rOp k.rec_ = 5)) ∧ (k.stage = .ready) ∧ (rPrescan k.rec_ = true) :=
  ⟨.adam 0, 0, { rec_ := 0x803, stage := .ready }, { State.reset with mem := { cmds := [{ rec_ := 0x803, stage := .ready }] } }, by decide⟩
theorem test_hyp_StackEngines_adam : ∃ (id : Nat) (k : StkCmd) (s : State),
    (s.stkCmd id = some k) ∧ (rOp k.rec_ = 3) ∧ ((k.stage = .ready ∧ rPrescan k.rec_ = false) ∨ k.stage = .go) :=
  ⟨0, { rec_ := 3, stage := .ready }, { State.reset with mem := { cmds := [{ rec_ := 3, stage := .ready }] } }, by decide⟩
theorem test_hyp_StackEngines_sgd : ∃ (id : Nat) (k : StkCmd) (s : State),
    (s.stkCmd id = some k) ∧ (rOp k.rec_ = 5) ∧ ((k.stage = .ready ∧ rPrescan k.rec_ = false) ∨ k.stage = .go) :=
  ⟨0, { rec_ := 5, stage := .ready }, { State.reset with mem := { cmds := [{ rec_ := 5, stage := .ready }] } }, by decide⟩
theorem test_hyp_StackEngines_lamb : ∃ (id : Nat) (k : StkCmd) (s : State),
    (s.stkCmd id = some k) ∧ (rOp k.rec_ = 4) ∧ ((k.stage = .ready ∧ rPrescan k.rec_ = false) ∨ k.stage = .go) :=
  ⟨0, { rec_ := 4, stage := .ready }, { State.reset with mem := { cmds := [{ rec_ := 4, stage := .ready }] } }, by decide⟩
theorem test_hyp_StackEngines_lambTotal : ∃ (id : Nat) (k : StkCmd) (s : State),
    (s.stkCmd id = some k) ∧ (rOp k.rec_ = 4) ∧ (k.stage = .total) :=
  ⟨0, { rec_ := 4, stage := .total }, { State.reset with mem := { cmds := [{ rec_ := 4, stage := .total }] } }, by decide⟩
theorem test_hyp_StackEngines_sumsqTotal : ∃ (id : Nat) (k : StkCmd) (s : State),
    (s.stkCmd id = some k) ∧ (rOp k.rec_ = 6) ∧ (k.stage = .total) :=
  ⟨0, { rec_ := 6, stage := .total }, { State.reset with mem := { cmds := [{ rec_ := 6, stage := .total }] } }, by decide⟩
theorem test_hyp_StackEngines_sumsq : ∃ (id : Nat) (k : StkCmd) (s : State),
    (s.stkCmd id = some k) ∧ (rOp k.rec_ = 6) ∧ (k.stage = .ready ∨ k.stage = .go) :=
  ⟨0, { rec_ := 6, stage := .ready }, { State.reset with mem := { cmds := [{ rec_ := 6, stage := .ready }] } }, by decide⟩
theorem test_hyp_StackMoves_gather : ∃ (id : Nat) (k : StkCmd) (s : State),
    (s.stkCmd id = some k) ∧ (rOp k.rec_ = 0x08) ∧ (k.stage = .ready ∨ k.stage = .go ∨ k.stage = .total) :=
  ⟨0, { rec_ := 8, stage := .ready }, { State.reset with mem := { cmds := [{ rec_ := 8, stage := .ready }] } }, by decide⟩
theorem test_hyp_StackMoves_scatter : ∃ (id : Nat) (k : StkCmd) (s : State),
    (s.stkCmd id = some k) ∧ (rOp k.rec_ = 0x09) ∧ (k.stage = .ready ∨ k.stage = .go ∨ k.stage = .total) :=
  ⟨0, { rec_ := 9, stage := .ready }, { State.reset with mem := { cmds := [{ rec_ := 9, stage := .ready }] } }, by decide⟩
theorem test_hyp_StackMoves_kvcopy : ∃ (id : Nat) (k : StkCmd) (s : State),
    (s.stkCmd id = some k) ∧ (rOp k.rec_ = 0x0A) ∧ (k.stage = .ready ∨ k.stage = .go ∨ k.stage = .total) :=
  ⟨0, { rec_ := 10, stage := .ready }, { State.reset with mem := { cmds := [{ rec_ := 10, stage := .ready }] } }, by decide⟩
theorem test_hyp_StackMoves_wipe : ∃ (id : Nat) (k : StkCmd) (s : State),
    (s.stkCmd id = some k) ∧ (rOp k.rec_ = 0x0B) ∧ (k.stage = .ready ∨ k.stage = .go ∨ k.stage = .total) :=
  ⟨0, { rec_ := 11, stage := .ready }, { State.reset with mem := { cmds := [{ rec_ := 11, stage := .ready }] } }, by decide⟩
theorem test_hyp_CouchAndAdvisor_couch : ∃ (v : Nat) (s : State),
    v < 16 :=
  ⟨0, State.reset, by decide⟩
theorem test_hyp_CouchAndAdvisor_load : ∃ (v x : Nat) (y : Vat) (s u : State),
    (v < 16) ∧ (u = s.advCtl v x) ∧ (y = u.vat v) ∧ ((y.st = .free ∧ y.jobValid = true) ∨ y.st = .ready) ∧ (u.advBad v = false) ∧ (y.advCount = 0 ∨ u.stackWithin v y.advBase (32 * y.advCount) = true) ∧ (u.stackBad y.advBase (32 * y.advCount) = false) :=
  ⟨0, 0, { st := .ready }, { State.reset with vats := [(0, { st := .ready })] }, { State.reset with vats := [(0, { st := .ready })] }, by decide⟩
theorem test_hyp_CouchAndAdvisor_loadRefused : ∃ (v x : Nat) (y : Vat) (s u : State),
    (v < 16) ∧ (u = s.advCtl v x) ∧ (y = u.vat v) :=
  ⟨0, 0, State.reset.vat 0, State.reset, State.reset.advCtl 0 0, by decide⟩
theorem test_hyp_CouchAndAdvisor_close : ∃ (v x : Nat) (y : Vat) (s u : State),
    (v < 16) ∧ (u = s.advCtl v x) ∧ (y = u.vat v) ∧ (y.st = .ready) ∧ (y.advBusy = false) ∧ (u.advBad v = false) :=
  ⟨0, 0, { st := .ready }, { State.reset with vats := [(0, { st := .ready })] }, { State.reset with vats := [(0, { st := .ready })] }, by decide⟩
theorem test_hyp_CouchAndAdvisor_verdict : ∃ (v i r : Nat) (x : Vat) (s : State),
    (x = s.vat v) ∧ (x.advEnd = eOk) ∧ (s.stackWithin v (x.advBase + 32 * i) 32 = true) ∧ (s.stackWithin v (x.advBase + 0x20000 + 16 * i) 16 = true) ∧ (s.stackBad (x.advBase + 32 * i) 32 = false) ∧ (r = s.stackNat (x.advBase + 32 * i) 32) ∧ (polDump r = false) :=
  ⟨0, 0, 0, { advBase := 2 ^ 30 }, { State.reset with vats := [(0, { advBase := 2 ^ 30 })], mem := { region := [(1, (true, 0))] } }, by decide⟩
theorem test_hyp_CouchAndAdvisor_evaluated : ∃ (r n : Nat) (y : AdvSlot) (s : State),
    (polOk r = true) ∧ (polEn r = true) ∧ ((advEval r y.eo y.frozen).empty = false) ∧ (y.verdict = some n) :=
  ⟨1 + 1 * 2 ^ 68, 0, { frozen := [(5, 1)], verdict := some 0 }, State.reset, by decide⟩
theorem test_hyp_CouchAndAdvisor_closed : ∃ (v : Nat) (s : State),
    (s.vat v).advBusy = true :=
  ⟨0, { State.reset with vats := [(0, { advBusy := true })] }, by decide⟩
theorem test_hyp_Batcher_slots : ∃ (v slot arg : Nat) (s : State),
    ((s.planOf v).valid = true) ∧ ((s.vat v).tw.standby = false) ∧ ((s.vat v).heldOrLater = false) :=
  ⟨0, 0, 0, { State.reset with net := { plans := [(0, { valid := true })] } }, by decide⟩
theorem test_hyp_Batcher_table : ∃ (v slot arg : Nat) (s : State) (y : Seq),
    ((s.vat v).inRange slot = true) ∧ (y = s.seqSlot slot) ∧ (y.bad = false) :=
  ⟨0, 0, 0, { State.reset with vats := [(0, { btCount := 1 })] }, {}, by decide⟩
theorem test_hyp_Batcher_begun : ∃ (v : Nat) (src : Src) (k : Caller) (s u : State),
    ((match src with | .host r => ∃ c, (s.ring r).nextCmd = some c ∧ fld c.entry 64 2 = 1 | _ => True)) ∧ (s.taken src 0x0A v = some (u, k)) :=
  ⟨0, .host 0, { host := some (0, 1), entry := 2 ^ 64 }, Demo.cmd 0x0A { st := .ready } (2 ^ 64), Demo.took 0x0A { st := .ready } (2 ^ 64), by decide⟩
theorem test_hyp_Batcher_begunNoadv : ∃ (v : Nat) (src : Src) (k : Caller) (s u : State),
    ((match src with | .host r => ∃ c, (s.ring r).nextCmd = some c ∧ fld c.entry 64 2 = 2 | _ => True)) ∧ (s.taken src 0x0A v = some (u, k)) :=
  ⟨0, .host 0, { host := some (0, 1), entry := 2 ^ 65 }, Demo.cmd 0x0A { st := .ready } (2 ^ 65), Demo.took 0x0A { st := .ready } (2 ^ 65), by decide⟩
theorem test_hyp_Batcher_reset : ∃ (v : Nat) (src : Src) (k : Caller) (s u : State),
    ((match src with | .host r => ∃ c, (s.ring r).nextCmd = some c ∧ fld c.entry 64 2 = 3 | _ => True)) ∧ (s.taken src 0x0A v = some (u, k)) :=
  ⟨0, .host 0, { host := some (0, 1), entry := 3 * 2 ^ 64 }, Demo.cmd 0x0A { st := .ready } (3 * 2 ^ 64), Demo.took 0x0A { st := .ready } (3 * 2 ^ 64), by decide⟩
theorem test_hyp_Batcher_stepDoes : ∃ (v : Nat) (k : Caller) (adv : Bool) (x : Vat) (s : State),
    (x = s.vat v) ∧ (x.st = .ready ∨ (x.st = .free ∧ x.jobValid = true)) ∧ (x.bt.busy = false) ∧ (x.tw.standby = false) ∧ (x.heldOrLater = false) ∧ (((List.range x.btCount).map (x.btFirst + ·)).any (fun i => (s.seqSlot i).bad) = false) ∧ (adv = false ∨ x.bt.prev = false ∨ s.badOutcome x.bt.base ((s.outRows v).map (fun p => (p.1, p.2.2))) = none) :=
  ⟨0, {}, false, { st := .ready, bt := { base := 2 ^ 30 } }, { State.reset with vats := [(0, { st := .ready, bt := { base := 2 ^ 30 } })], mem := { region := [(1, (true, 0))] } }, by decide⟩
theorem test_hyp_Batcher_ended : ∃ (v : Nat) (s : State),
    ((s.vat v).bt.busy = true) ∧ ((s.vat v).bt.endStatus = eOk) :=
  ⟨0, { State.reset with vats := [(0, { bt := { busy := true } })] }, by decide⟩
theorem test_hyp_Batcher_row : ∃ (v g m : Nat) (s : State),
    m < (s.vat v).balGroup.get 0 g :=
  ⟨0, 0, 0, { State.reset with vats := [(0, { balGroup := [(0, 1)] })] }, by decide⟩
theorem test_hyp_HostRings_closed : ∃ (fn r len x : Nat) (s : State),
    s.hostOpen = false :=
  ⟨0, 0, 4, 0, State.reset, by decide⟩
theorem test_hyp_HostRings_refused : ∃ (fn r len x : Nat) (s : State),
    (s.hostOpen = true) ∧ (s.ownsRing fn r = true) ∧ ((s.ring r).dbOk len x = false) :=
  ⟨0, 0, 8, 0, Demo.hosted {} 0, by decide⟩
theorem test_hyp_HostRings_taken : ∃ (fn r len x : Nat) (s : State),
    (s.hostOpen = true) ∧ (s.ownsRing fn r = true) ∧ ((s.ring r).dbOk len x = true) :=
  ⟨0, 0, 4, 0, Demo.hosted {} 0, by decide⟩
theorem test_hyp_HostRings_sheet : ∃ (fn r len x : Nat) (s : State),
    (s.hostOpen = true) ∧ (s.ownsRing fn r = true) ∧ ((s.ring r).dbOk len x = true) ∧ (r ≠ 16) :=
  ⟨0, 0, 4, 0, Demo.hosted {} 0, by decide⟩
theorem test_hyp_HostRings_fetched : ∃ (r : Nat) (data : List Byte) (bad : List Nat) (s : State),
    (s.ring r).fetchAt.isSome = true :=
  ⟨0, [], [], Demo.hosted { fetchAt := some 0 } 0, by decide⟩
theorem test_hyp_HostRings_entry : ∃ (r e : Nat) (s : State),
    s.entryCheck r e = eOk :=
  ⟨0, 0x0F, State.reset, by decide⟩
theorem test_hyp_HostRings_record : ∃ (r : Nat) (d : HostDone) (rest : List HostDone) (s : State),
    ((s.ring r).done = d :: rest) ∧ ((s.ring r).cqUsed < 2 ^ (s.ring r).sizeLog2) :=
  ⟨0, {}, [], Demo.hosted { done := [{}] } 0, by decide⟩
theorem test_hyp_HostRings_linkUp : ∃ (rate width : Nat) (s : State),
    (s.host.up = false) ∧ (s.boot.extest = false) ∧ (rate = 5 ∨ rate = 6) ∧ (width = 8 ∨ width = 15) :=
  ⟨5, 8, State.reset, by decide⟩
theorem test_hyp_HostRings_nop : ∃ (r : Nat) (k : HostCmd) (s : State),
    ((s.ring r).nextCmd = some k) ∧ (k.op = 0x0F) :=
  ⟨0, { uid := 1, op := 0x0F }, Demo.cmd 0x0F {} 0, by decide⟩
theorem test_hyp_HostRings_lateFetch : ∃ (r : Nat) (t : W64) (s : State),
    ((s.ring r).fetchAt = some t) ∧ (t.toNat + s.host.ctoUs * 1000 ≤ s.clk.gtc.toNat) :=
  ⟨0, 0, { Demo.hosted { fetchAt := some 0 } 0 with clk := { State.reset.clk with gtc := 2 ^ 60 } }, by decide⟩
theorem test_hyp_HostTransfers_read : ∃ (fn off len : Nat) (c : Nat) (t : Option Nat) (s : State),
    (s.hostOpen = true) ∧ (s.winCheck fn (s.winAddr fn off) len false = eOk) ∧ (s.spadAwake (s.winAddr fn off) = true) ∧ (fn = 0 ∨ (s.fnVat fn).isSome = true) ∧ (s.winTarget (s.winAddr fn off) len = some (t, some c)) :=
  ⟨0, 2 ^ 33, 4, 0, none, { Demo.hosted {} 0 with host := { fns := [(0, { segs := [(1, 0x10000000000)] })] } }, by decide⟩
theorem test_hyp_HostTransfers_readStack : ∃ (fn off len : Nat) (t : Option Nat) (s : State),
    (s.hostOpen = true) ∧ (s.winCheck fn (s.winAddr fn off) len false = eOk) ∧ (s.spadAwake (s.winAddr fn off) = true) ∧ (fn = 0 ∨ (s.fnVat fn).isSome = true) ∧ (s.winTarget (s.winAddr fn off) len = some (t, none)) :=
  ⟨0, 0, 4, none, Demo.hosted {} 0, by decide⟩
theorem test_hyp_HostTransfers_write : ∃ (fn off : Nat) (data : List Byte) (ep : Bool) (c : Option Nat) (t : Option Nat) (s : State),
    (s.hostOpen = true) ∧ (s.winCheck fn (s.winAddr fn off) data.length true = eOk) ∧ (s.spadAwake (s.winAddr fn off) = true) ∧ (fn = 0 ∨ (s.fnVat fn).isSome = true) ∧ (s.winTarget (s.winAddr fn off) data.length = some (t, c)) :=
  ⟨0, 0, [0], false, none, none, Demo.hosted {} 0, by decide⟩
theorem test_hyp_HostTransfers_windowRefused : ∃ (fn off : Nat) (data : List Byte) (ep : Bool) (s : State),
    s.hostOpen = true :=
  ⟨0, 0, [0], false, Demo.hosted {} 0, by decide⟩
theorem test_hyp_HostTransfers_sadd : ∃ (r v : Nat) (k : Caller) (s u : State),
    s.taken (.host r) 0x08 v = some (u, k) :=
  ⟨0, 0, { host := some (0, 1) }, Demo.cmd 8 {} 0, Demo.took 8 {} 0, by decide⟩
theorem test_hyp_HostTransfers_seq : ∃ (r v : Nat) (k : Caller) (s u : State),
    s.taken (.host r) 0x09 v = some (u, k) :=
  ⟨0, 0, { host := some (0, 1) }, Demo.cmd 9 {} 0, Demo.took 9 {} 0, by decide⟩
theorem test_hyp_HostTransfers_stkcmd : ∃ (r v ring uid : Nat) (k : Caller) (s u : State),
    (s.taken (.host r) 0x0B v = some (u, k)) ∧ ((s.mem.cmds.filter (fun k => k.vat == v)).length < 16) ∧ (k.host = some (ring, uid)) :=
  ⟨0, 0, 0, 1, { host := some (0, 1) }, Demo.cmd 0x0B {} 0, Demo.took 0x0B {} 0, by decide⟩
theorem test_hyp_HostTransfers_copy : ∃ (r v : Nat) (c : HostCmd) (k : Caller) (s u : State),
    (s.taken (.host r) 0x0C v = some (u, k)) ∧ ((s.ring r).nextCmd = some c) ∧ (s.spadAwake (fld c.entry 192 48) = true) :=
  ⟨0, 0, { uid := 1, op := 0x0C }, { host := some (0, 1) }, Demo.cmd 0x0C {} 0, Demo.took 0x0C {} 0, by decide⟩
theorem test_hyp_HostTransfers_copyData : ∃ (r uid off : Nat) (k : CopyJob) (s : State),
    (s.copyOf r uid = some k) ∧ (k.out = false) :=
  ⟨0, 1, 0, { host := (0, 1) }, Demo.copying {}, by decide⟩
theorem test_hyp_HostTransfers_copied : ∃ (r uid : Nat) (k : CopyJob) (s : State),
    s.copyOf r uid = some k :=
  ⟨0, 1, { host := (0, 1) }, Demo.copying {}, by decide⟩
theorem test_hyp_HostTransfers_late : ∃ (r uid : Nat) (k : CopyJob) (s : State),
    (s.copyOf r uid = some k) ∧ (k.out = false) ∧ (k.moved < k.bytes) ∧ (k.since.toNat + s.host.ctoUs * 1000 ≤ s.clk.gtc.toNat) :=
  ⟨0, 1, { host := (0, 1), bytes := 1 }, { Demo.copying { bytes := 1 } with clk := { State.reset.clk with gtc := 2 ^ 60 } }, by decide⟩
theorem test_hyp_InterruptsAndErrors_event : ∃ (n : Nat) (s : State),
    n < 670 :=
  ⟨0, State.reset, by decide⟩
theorem test_hyp_InterruptsAndErrors_claim : ∃ (t n : Nat) (s : State),
    (t ≤ 17) ∧ (s.claimable t = some n) :=
  ⟨0, 5, { State.reset with hub := { State.reset.hub with srcs := [(5, { pending := true, assigned := some 0 })] } }, by decide⟩
theorem test_hyp_InterruptsAndErrors_unclaimed : ∃ (t : Nat) (d : Bool) (s : State),
    (t ≤ 17) ∧ (s.claimable t = none) :=
  ⟨0, false, State.reset, by decide⟩
theorem test_hyp_InterruptsAndErrors_complete : ∃ (w : Who) (t n : Nat) (s : State),
    (t ≤ 17) ∧ (n ≤ 1023) :=
  ⟨.core 4096, 0, 0, State.reset, by decide⟩
theorem test_hyp_InterruptsAndErrors_latch : ∃ (i : Nat) (s : State),
    (s.fastOn = true) ∧ ((List.range 32).find? (fun j => (s.wakeSel j).latch) = some i) :=
  ⟨3, { State.reset with pwr := { State.reset.pwr with on := true }, hub := { State.reset.hub with wakeSel := [(3, { latch := true })] } }, by decide⟩
theorem test_hyp_InterruptsAndErrors_report : ∃ (src event status : Nat) (vat : Option Nat) (i0 i1 : Nat) (s : State),
    (src < 0xB000) ∧ (event ≠ 0) ∧ (event ≤ 0x10) :=
  ⟨0, 1, 0, none, 0, 0, State.reset, by decide⟩
theorem test_hyp_InterruptsAndErrors_fence : ∃ (w : Who) (cl p : Nat) (s : State),
    (cl < 64) ∧ (p < 64) :=
  ⟨.core 4096, 0, 0, State.reset, by decide⟩
theorem test_hyp_InterruptsAndErrors_deviceFault : ∃ (b : Nat) (s : State),
    b ≤ 13 :=
  ⟨0, State.reset, by decide⟩
theorem test_hyp_InterruptsAndErrors_messages : ∃ (fn v x : Nat) (s : State),
    (v < 16) ∧ (fn = 0 ∨ s.fnVat fn = some v) :=
  ⟨0, 0, 0, State.reset, by decide⟩
theorem test_hyp_PowerControl_switch : ∃ (s : State),
    (s.wantedPoint ≠ s.hub.dvfs) ∧ (s.detRunning = false) ∧ (s.pwr.stretch = false) ∧ (s.fastOn = true) ∧ (s.clk.gtc.toNat % 20 = 0) ∧ (s.clk.phase = 0) :=
  ⟨{ State.reset with pwr := { State.reset.pwr with on := true, target := 0 }, hub := { State.reset.hub with dvfs := 4 }, clk := { State.reset.clk with gtc := 0 } }, by decide⟩
theorem test_hyp_PowerControl_droop : ∃ (i d : Nat) (s : State),
    (i ≤ 267) ∧ (s.pwr.tripMv < d) ∧ (s.fastOn = true) :=
  ⟨0, 1000, { State.reset with pwr := { State.reset.pwr with on := true }, hub := { State.reset.hub with dvfs := State.reset.hub.dvfs }, clk := { State.reset.clk with gtc := 0 } }, by decide⟩
theorem test_hyp_PowerControl_begins : ∃ (b : Bool) (s : State),
    s.pwr.stretch = false :=
  ⟨true, State.reset, by decide⟩
theorem test_hyp_PowerControl_ends : ∃ (n : Nat) (s : State),
    (s.pwr.stretch = true) ∧ (32 ≤ n) ∧ (s.thermReq = false) ∧ (s.pwr.capReq = false) ∧ (s.pwr.m ≠ 0) ∧ (s.pwr.m % stretchUnit s.hub.dvfs = 0) :=
  ⟨32, { State.reset with pwr := { State.reset.pwr with on := true, stretch := true, m := stretchUnit State.reset.hub.dvfs }, hub := { State.reset.hub with dvfs := State.reset.hub.dvfs }, clk := { State.reset.clk with gtc := 0 } }, by decide⟩
theorem test_hyp_PowerControl_sample : ∃ (t : List Int) (s : State),
    (t.length = 73) ∧ (s.pwr.off = false) ∧ (s.pwr.on = true) :=
  ⟨List.replicate 73 0, { State.reset with pwr := { State.reset.pwr with on := true }, hub := { State.reset.hub with dvfs := State.reset.hub.dvfs }, clk := { State.reset.clk with gtc := 0 } }, by decide⟩
theorem test_hyp_PowerControl_throttle : ∃ (s : State),
    (s.pwr.dieLvl.getLsbD 1 = true) ∧ (s.pwr.stepAt.toNat + 10 ^ 7 ≤ s.clk.gtc.toNat) :=
  ⟨{ State.reset with pwr := { State.reset.pwr with on := true, dieLvl := 2 }, hub := { State.reset.hub with dvfs := State.reset.hub.dvfs }, clk := { State.reset.clk with gtc := 2 ^ 60 } }, by decide⟩
theorem test_hyp_PowerControl_recovery : ∃ (s : State),
    (s.pwr.dieLvl.getLsbD 1 = false) ∧ (s.critical = false) ∧ (s.pwr.thermLimit < 4) ∧ (s.pwr.riseAt.toNat + 10 ^ 8 ≤ s.clk.gtc.toNat) :=
  ⟨{ State.reset with pwr := { State.reset.pwr with on := true, thermLimit := 1 }, hub := { State.reset.hub with dvfs := State.reset.hub.dvfs }, clk := { State.reset.clk with gtc := 2 ^ 60 } }, by decide⟩
theorem test_hyp_PowerControl_power : ∃ (mv ma nj : Nat) (s : State),
    (s.pwr.on = true) ∧ (s.clk.gtc.toNat % 1000 = 0 ∨ s.clk.prev.toNat / 1000 ≠ s.clk.gtc.toNat / 1000) ∧ (s.pwr.sampleAt ≠ s.clk.gtc ∨ s.pwr.samples = []) :=
  ⟨0, 0, 0, { State.reset with pwr := { State.reset.pwr with on := true }, hub := { State.reset.hub with dvfs := State.reset.hub.dvfs }, clk := { State.reset.clk with gtc := 0 } }, by decide⟩
theorem test_hyp_PowerControl_cap : ∃ (s : State),
    s.pwr.samples.length = 10 :=
  ⟨{ State.reset with pwr := { State.reset.pwr with on := true, samples := List.replicate 10 (0, 0) }, hub := { State.reset.hub with dvfs := State.reset.hub.dvfs }, clk := { State.reset.clk with gtc := 0 } }, by decide⟩
theorem test_hyp_PowerControl_telemetry : ∃ (inlet conv : Int) (s : State),
    (s.clk.gtc.toNat % 10 ^ 8 = 0 ∨ s.clk.prev.toNat / 10 ^ 8 ≠ s.clk.gtc.toNat / 10 ^ 8) ∧ (s.pwr.telemAt.toNat < s.clk.gtc.toNat) :=
  ⟨0, 0, { State.reset with pwr := { State.reset.pwr with on := true }, hub := { State.reset.hub with dvfs := State.reset.hub.dvfs }, clk := { State.reset.clk with gtc := 10 ^ 8 } }, by decide⟩
theorem test_hyp_PowerStates_gate : ∃ (c : Nat) (s : State),
    (c < 4096) ∧ (s.fastOn = true) ∧ (s.clRun (clusterOf c) = true) ∧ (s.gateIdle c ≠ 0) ∧ (s.idleCore c = true) ∧ (s.gateIdle c ≤ (s.clk.fast - (s.ctl c).idleSince).toNat) :=
  ⟨0, { State.reset with pwr := { State.reset.pwr with on := true }, clk := { State.reset.clk with fast := 0x1000 } }, by decide⟩
theorem test_hyp_PowerStates_request : ∃ (w : Who) (cl req : Nat) (s : State),
    cl < 64 :=
  ⟨.pf, 0, 0, State.reset, by decide⟩
theorem test_hyp_PowerStates_entry : ∃ (cl : Nat) (s : State),
    (s.clPwr cl).busy = true :=
  ⟨0, { State.reset with pwr := { State.reset.pwr with cls := [(0, { busy := true })] } }, by decide⟩
theorem test_hyp_PowerStates_sleep : ∃ (w : Who) (s : State),
    s.pwr.asleep = false :=
  ⟨.pf, State.reset, by decide⟩
theorem test_hyp_PowerStates_wake : ∃ (s : State),
    (s.pwr.asleep = true) ∧ (s.pwr.wakeAsk = true) :=
  ⟨{ State.reset with pwr := { State.reset.pwr with on := true, asleep := true, wakeAsk := true }, hub := { State.reset.hub with dvfs := State.reset.hub.dvfs }, clk := { State.reset.clk with gtc := 0 } }, by decide⟩
theorem test_hyp_ResetAndBoot_effect : ∃ (s : State),
    (s.pwr.on = true) ∧ (s.boot.effect = false) :=
  ⟨{ State.reset with boot := { State.reset.boot with rst := some .cold, effect := false }, pwr := { State.reset.pwr with on := true } }, by decide⟩
theorem test_hyp_ResetAndBoot_perst : ∃ (s : State),
    s.pwr.on = true :=
  ⟨{ State.reset with boot := { State.reset.boot with perst := false }, pwr := { State.reset.pwr with on := true } }, by decide⟩
theorem test_hyp_ResetAndBoot_wiped : ∃ (s : State),
    (s.boot.effect = true) ∧ (s.boot.wiped = false) ∧ (s.pwr.on = true) ∧ (s.pwr.off = false) :=
  ⟨{ State.reset with boot := { State.reset.boot with effect := true, wiped := false }, pwr := { State.reset.pwr with on := true } }, by decide⟩
theorem test_hyp_ResetAndBoot_rom : ∃ (a b : Nat) (s : State),
    (s.boot.stage = .rom) ∧ (s.released = true) ∧ (s.boot.lcTo = none) ∧ (s.pwr.on = true) ∧ (s.pwr.off = false) ∧ (s.boot.rst.isSome = true) :=
  ⟨0, 0, { State.reset with boot := { State.reset.boot with stage := .rom, effect := true, wiped := true, rst := some .warm }, pwr := { State.reset.pwr with on := true } }, by decide⟩
theorem test_hyp_ResetAndBoot_seal : ∃ (w : Who) (s : State),
    s.boot.sealed = false :=
  ⟨.pf, { State.reset with boot := { State.reset.boot with sealed := false } }, by decide⟩
theorem test_hyp_ResetAndBoot_vatman : ∃ (w : Who) (v e i : Nat) (c : Nat) (s : State),
    (v < 16) ∧ (whoMgmt w = true) ∧ (s.vatmanOf v = some c) ∧ (s.boot.sealed = true) ∧ ((s.ctl c).run ≠ .running) :=
  ⟨.debug, 0, 0, 0, Demo.vmCore, Demo.vm, by decide⟩
theorem test_hyp_ResetAndBoot_chtab : ∃ (w : Who) (v e x c : Nat) (s : State),
    (v < 16) ∧ (e < 64) ∧ (s.vatmanOf v = some c) :=
  ⟨.debug, 0, 0, 0, Demo.vmCore, Demo.vm, by decide⟩
theorem test_hyp_LifecycleFlashAndPort_strap : ∃ (s : State),
    (s.boot.rst = some .lifecycle) ∧ (s.boot.effect = true) ∧ (s.boot.wiped = true) ∧ (s.boot.lcTo.isSome = true) :=
  ⟨{ State.reset with boot := { State.reset.boot with rst := some .lifecycle, effect := true, wiped := true, lcTo := some 1 } }, by decide⟩
theorem test_hyp_LifecycleFlashAndPort_s1 : ∃ (on : Bool) (n : Nat) (s : State),
    (10 ^ 7 ≤ n) ∧ (s.boot.strap ≠ on) :=
  ⟨true, 10 ^ 7, { State.reset with boot := { State.reset.boot with strap := false } }, by decide⟩
theorem test_hyp_LifecycleFlashAndPort_flash : ∃ (w : Who) (wp : Bool) (s : State),
    (w = .core mgmtCore ∨ (w = .debug ∧ (s.boot.sealed = false ∨ s.boot.stage = .failed))) ∧ (s.boot.flashCmd = none) :=
  ⟨.core mgmtCore, false, State.reset, by decide⟩
theorem test_hyp_LifecycleFlashAndPort_flashEnd : ∃ (err : Bool) (k : FlashCmd) (s : State),
    s.boot.flashCmd = some k :=
  ⟨false, {}, { State.reset with boot := { State.reset.boot with flashCmd := some {} } }, by decide⟩
theorem test_hyp_LifecycleFlashAndPort_port : ∃ (v : Bool) (seq aim : Nat) (token image : List Byte) (s : State),
    s.mctpOn v = true :=
  ⟨true, 0, 0, [], [], { State.reset with boot := { State.reset.boot with sealed := true, effect := true, rst := none }, pwr := { State.reset.pwr with on := true } }, by decide⟩
theorem test_hyp_DebugPort_halt : ∃ (c : Nat) (s : State),
    (c < 4096) ∧ (s.clRun (clusterOf c) = true) ∧ (s.boot.dap.pend = false) :=
  ⟨0, State.reset, by decide⟩
theorem test_hyp_DebugPort_steps : ∃ (c : Nat) (s : State),
    (c < 4096) ∧ (s.clRun (clusterOf c) = true) ∧ (s.boot.dap.pend = false) :=
  ⟨0, State.reset, by decide⟩
theorem test_hyp_DebugPort_asleep : ∃ (c : Nat) (s : State),
    (c < 4096) ∧ (s.clRun (clusterOf c) = false) :=
  ⟨0, { State.reset with pwr := { State.reset.pwr with cls := [(0, { state := 1 })] } }, by decide⟩
theorem test_hyp_DebugPort_stepLate : ∃ (c : Nat) (r : StepRec) (s : State),
    (s.boot.steps.find? (fun r => r.core == c) = some r) ∧ ((s.ctl c).stepping = true) ∧ ((s.ctl c).ldr = none) ∧ (65536 ≤ (s.clk.fast - r.since).toNat) :=
  ⟨0, {}, { State.reset with boot := { State.reset.boot with steps := [{}] }, clk := { State.reset.clk with fast := 2 ^ 20 }, cores := { ctls := [(0, { stepping := true })] } }, by decide⟩
theorem test_hyp_DebugPort_access : ∃ (a size n x : Nat) (s : State),
    (s.pwr.on = true) ∧ (s.dapSleeps a = none) ∧ (s.boot.dap.pend = false) ∧ (dapBytes size = some n) :=
  ⟨0, 2, 4, 0, { State.reset with pwr := { State.reset.pwr with on := true } }, by decide⟩
theorem test_hyp_DebugPort_memory : ∃ (a n x : Nat) (s : State),
    (a + n ≤ stackTop) ∧ (0 < n) :=
  ⟨0, 4, 0, State.reset, by decide⟩
theorem test_hyp_DebugPort_pins : ∃ (s : State),
    s.host.up = false :=
  ⟨State.reset, by decide⟩
theorem test_hyp_Registers_read : ∃ (c off size a : Nat) (k y : RegView) (s x : State),
    (s.pwr.on = true) ∧ (off < 0x3000000) ∧ (s.regFind (.core c) off size false = .ok (k, a)) ∧ (x = s.touchCore (.core c) off false) ∧ (y = x.freshView (.core c) off size k) ∧ (y.bits ≤ 64) :=
  ⟨4096, 0x280000, 8, 0x280000, Demo.view 0x280000 8, Demo.view 0x280000 8, Demo.powered, Demo.powered, by refine ⟨?_, ?_, ?_, ?_, ?_, ?_⟩ <;> first | decide | rfl | exact ⟨rfl, rfl, rfl⟩⟩
theorem test_hyp_Registers_wide : ∃ (c off a : Nat) (k y : RegView) (s x : State),
    (s.pwr.on = true) ∧ (off < 0x3000000) ∧ (s.regFind (.core c) off 8 false = .ok (k, a)) ∧ (x = s.touchCore (.core c) off false) ∧ (y = x.freshView (.core c) off 8 k) ∧ (64 < y.bits) :=
  ⟨4096, 0x340000, 0x340000, Demo.view 0x340000 8, Demo.view 0x340000 8, Demo.powered, Demo.powered, by refine ⟨?_, ?_, ?_, ?_, ?_, ?_⟩ <;> first | decide | rfl | exact ⟨rfl, rfl, rfl⟩⟩
theorem test_hyp_Registers_debug : ∃ (off size a : Nat) (k y : RegView) (s x : State),
    (s.pwr.on = true) ∧ (off < 0x3000000) ∧ (s.regFind .debug off size false = .ok (k, a)) ∧ (x = s.touchCore .debug off false) ∧ (y = x.freshView .debug off size k) ∧ (y.bits ≤ 64) ∧ (s.sleepingCl .debug off = none) :=
  ⟨0x280000, 8, 0x280000, Demo.viewDebug, Demo.viewDebug, Demo.powered, Demo.powered, by refine ⟨?_, ?_, ?_, ?_, ?_, ?_, ?_⟩ <;> first | decide | rfl | exact ⟨rfl, rfl, rfl⟩⟩
theorem test_hyp_Registers_write : ∃ (c off size x a : Nat) (k : RegView) (p : RegView × Nat) (s : State),
    (s.pwr.on = true) ∧ (off < 0x3000000) ∧ (s.regFind (.core c) off size true = .ok p) ∧ ((s.touchCore (.core c) off true).regFind (.core c) off size true = .ok (k, a)) ∧ (s.cmdSleeps (.core c) off x = none) ∧ (c ≠ mgmtCore ∨ (s.boot.stage ≠ .failed ∧ s.manRec = none)) :=
  ⟨4096, 0x280100, 4, 0, 0x280100, Demo.viewWrite, (Demo.viewWrite, 0x280100), Demo.powered, by refine ⟨?_, ?_, ?_, ?_, ?_, ?_⟩ <;> first | decide | rfl | exact ⟨rfl, rfl, rfl⟩⟩
theorem test_hyp_Registers_refused : ∃ (w : Who) (off size x e : Nat) (s : State),
    (s.pwr.on = true) ∧ (off < 0x3000000) ∧ (s.pfAlone w = false) ∧ (whoHost w = false ∨ s.hostOpen = true) ∧ (s.lostVf w = false) ∧ (s.sleepingCl w off = none) ∧ (s.cmdSleeps w off x = none) ∧ (w ≠ .core mgmtCore ∨ (s.boot.stage ≠ .failed ∧ s.manRec = none)) :=
  ⟨.core 4096, 0x380000, 4, 0, eRange, { State.reset with pwr := { State.reset.pwr with on := true } }, by decide⟩
theorem test_hyp_Registers_lost : ∃ (n off size x : Nat) (s : State),
    (s.pwr.on = true) ∧ (s.hostOpen = true) ∧ (s.vfVat n = none) :=
  ⟨0, 0, 4, 0, Demo.hosted {} 0, by decide⟩
theorem test_hyp_Registers_firmware : ∃ (r : Nat) (s : State),
    (s.pwr.on = true) ∧ (s.boot.stage ≠ .failed) ∧ (s.manRec = some r) :=
  ⟨0, Demo.firmware, by decide⟩
theorem test_hyp_Registers_counter : ∃ (n x : Nat) (s : State),
    (s.pwr.on = true) ∧ (n < 0x4040) :=
  ⟨0, 1, { State.reset with pwr := { State.reset.pwr with on := true } }, by decide⟩
theorem test_hyp_Registers_close : ∃ (i : Nat) (s : State),
    (s.pwr.on = true) ∧ (i < 4096) :=
  ⟨0, { State.reset with pwr := { State.reset.pwr with on := true } }, by decide⟩
theorem test_hyp_StepTakesFront_idle : ∃ (s : State),
    s.pending = [] :=
  ⟨State.reset, by decide⟩
theorem test_hyp_CommandFrames_frame : ∃ (i : Instr) (s t : State),
    exec i s = .next t :=
  ⟨.hostNop 0, State.reset, State.reset, by first | decide | rfl | exact ⟨rfl, rfl, rfl⟩⟩
theorem test_hyp_StepKeepsMemoryForm_keeps : ∃ (s t : State),
    (s.MemOk) ∧ (step s = .next t) :=
  ⟨State.reset, State.reset.tick, by refine ⟨?_, ?_⟩ <;> first | decide | rfl | exact ⟨rfl, rfl, rfl⟩⟩
end

section
/-! PROOFS. A step (O57), the channel engine (O23) and the register space (O56). -/

namespace Sys2Proof.Machine

/-! ## A step (R4, R332) -/

theorem step_command (s : State) (c : Instr) (l : List Instr) :
    step { s with pending := c :: l } = exec c { s with pending := l } := rfl

theorem step_idle {s : State} (h : s.pending = []) : step s = .next s.tick := by
  simp only [step, h]

theorem State.tick_without_power {s : State} (h : s.pwr.on = false) : s.tick = s := by
  simp only [State.tick, h, Bool.not_false, if_true]

/-- While the fast clock runs, the next instant is its next edge. -/
theorem State.tickClock_clk_running {s : State} (h : s.fastOn = true) :
    s.tickClock.clk =
      { gtc := s.clk.gtc + BitVec.ofNat 64 ((s.clk.phase + s.cycleLen) / 2160), fast := s.clk.fast + 1,
        phase := (s.clk.phase + s.cycleLen) % 2160, prev := s.clk.gtc,
        ao := s.clk.ao + BitVec.ofNat 64 ((s.clk.aoTick + (s.clk.phase + s.cycleLen) / 2160) / 40),
        aoTick := (s.clk.aoTick + (s.clk.phase + s.cycleLen) / 2160) % 40 } := by
  simp only [State.tickClock, State.nextEdge, h, if_true]
  rfl

/-- While the fast clock stands still, the next instant is the next tick. -/
theorem State.tickClock_clk_stopped {s : State} (h : s.fastOn = false) :
    s.tickClock.clk =
      { gtc := s.clk.gtc + 1, fast := s.clk.fast, phase := edgePhase (s.clk.gtc.toNat + 1) s.hub.dvfs,
        prev := s.clk.gtc, ao := s.clk.ao + BitVec.ofNat 64 ((s.clk.aoTick + 1) / 40),
        aoTick := (s.clk.aoTick + 1) % 40 } := by
  simp only [State.tickClock, State.nextEdge, h, Bool.false_eq_true, if_false, BitVec.ofNat_eq_ofNat, BitVec.add_zero]

/-- Settles O57: a command at the front is executed, and on an empty queue the clocks move to their next instant. -/
theorem stepTakesFront : Obligations.StepTakesFront := by
  unfold Obligations.StepTakesFront
  refine ⟨fun c l s => step_command s c l, fun s h => ⟨step_idle h, State.tick_without_power, ?_, ?_⟩⟩
  · intro hon hfast
    rw [tick_clk s hon, State.tickClock_clk_running hfast]
  · intro hon hfast
    rw [tick_clk s hon, State.tickClock_clk_stopped hfast]

/-! ## The channel engine's acceptance (R116, R262) -/

section
variable {s : State} {c : Nat} {m : W256}

/-- An idle engine whose head entry may raise its signal takes the entry off its queue, then begins or rejects it. -/
theorem State.chnAccept_idle (hq : (s.queue c 6).head = some m) (hon : s.enginesOn c = true) (hidle : (s.chn c).entry = none)
    (hsig : s.sigRight c m = true) (f : State → Nat → State) :
    let a := (s.popQ c 6).modChn c (fun x => { x with mop := mMop m })
    s.chnAccept c (mMop m) f = if s.chnCheck c m.toNat (mMop m) = eOk
      then f (a.modChn c (fun x => { x with entry := some m, idx := 0, refusal := none, sentBad := none, landed := false, answered := [] })) m.toNat
      else a.reject c 6 (s.chnCheck c m.toNat (mMop m)) m := by
  intro a
  rw [← ite_ne]
  simp only [State.chnAccept, hq, hon, hidle, hsig, bne_self_eq_false, Bool.not_true, Option.isSome_none, Bool.or_self,
    Bool.false_eq_true, if_false, a]

theorem State.chnAccept_no_signal_right (hq : (s.queue c 6).head = some m) (hon : s.enginesOn c = true)
    (hidle : (s.chn c).entry = none) (hsig : s.sigRight c m = false) (f : State → Nat → State) :
    s.chnAccept c (mMop m) f = s.haltQueue c 6 ePermission m := by
  simp only [State.chnAccept, hq, hon, hidle, hsig, bne_self_eq_false, Bool.not_true, Option.isSome_none, Bool.or_self,
    Bool.false_eq_true, if_false, Bool.not_false, if_true]

/-- Each entry of the channel engine's queue is accepted the same way; what it begins differs. -/
theorem exec_chn_accept {i : Instr} {mop : Nat}
    (hi : (i, mop) ∈ [(Instr.send c, 1), (.sendM c, 2), (.rsync c, 3), (.openChan c, 4), (.closeChan c, 5)]) (s : State) :
    ∃ f : State → Nat → State, exec i s = .next (s.chnAccept c mop f) := by
  simp only [List.mem_cons, Prod.mk.injEq, List.not_mem_nil, or_false] at hi
  rcases hi with ⟨rfl, rfl⟩ | ⟨rfl, rfl⟩ | ⟨rfl, rfl⟩ | ⟨rfl, rfl⟩ | ⟨rfl, rfl⟩ <;> exact ⟨_, rfl⟩

end

/-! ## Packets and answers that reach a core (R245, R265) -/

theorem State.chanArrive_open {s : State} {c : Nat} {m : ChMsg} (hf : s.net.fenced.has c = false) (hr : m.reserved = false)
    (kind : Nat) (f : State → State) : s.chanArrive c kind m f = f s := by
  simp only [State.chanArrive, hf, hr, Bool.false_eq_true, if_false]

section
variable {s : State} {c : Nat} {m : W256}

theorem State.openFails_opening {e : Nat} (he : (s.chn c).entry = some m) (hop : mMop m = 4) (hep : sdEp m.toNat = e)
    (hst : (s.ep c e).st = .opening) (status : Nat) :
    s.openFails c e status = (s.modEp c e (fun x => { x with st := .closed })).chnHalt c status := by
  simp only [State.openFails, he, hop, hep, hst, beq_self_eq_true, Bool.and_self, if_true]

/-- One message of a SEND with a credit of every receiver (R263). -/
theorem exec_sendMessage (he : (s.chn c).entry = some m) (hop : mMop m = 1) (hon : s.enginesOn c = true)
    (href : (s.chn c).refusal = none) (hleft : (s.chn c).idx < sdCount m.toNat) (hcred : (s.ep c (sdEp m.toNat)).creditMin ≠ 0) :
    let d := (s.ep c (sdEp m.toNat)).desc
    exec (.sendMessage c) s = .next (if cdPath d = 0 ∧ s.physFor c (cdDstCl d) (cdDstCore d) = none then s.chnHalt c eRange
      else ((s.sendPackets c m.toNat (s.chn c).idx).modEp c (sdEp m.toNat) (fun x => { (x.stallTo s.clk.fast.toNat) with
        credits := (List.range (cdMcCount x.desc)).map (fun i => (i, x.credits.get 0 i - 1)), seq := (x.seq + 1) % 2 ^ 32,
        msgs := min 0xFFFFFF (x.msgs + 1), dlSince := none, dlTold := false })).chnStall c) := by
  intro d
  have hgo : (mMop m != 1 || !(s.enginesOn c) || (s.chn c).refusal.isSome || decide (sdCount m.toNat ≤ (s.chn c).idx)
      || (s.ep c (sdEp m.toNat)).creditMin == 0) = false := by
    simp [hop, hon, href, hcred, hleft]
  simp only [exec, execSendMessage, he, hgo, Bool.false_eq_true, if_false, Bool.and_eq_true, decide_eq_true_eq,
    Option.isNone_iff_eq_none]
  rfl

/-- A credit that returns may complete a refusal or end a stall (R263, R264, R277). -/
theorem exec_creditReturn {e : Nat} {p : ChMsg} (hf : s.net.fenced.has c = false) (hr : p.reserved = false)
    (hrole : cdRole (s.ep c e).desc = 1) (hmc : p.mc < cdMcCount (s.ep c e).desc) :
    let x := s.ep c e
    exec (.creditReturn c e p) s = .next (((s.setEp c e { (x.unwait s.clk.fast.toNat) with
      credits := x.credits.put p.mc (x.credits.get 0 p.mc + 1) }).chnRefusalDone c).chnStall c) := by
  intro x
  simp only [exec, execCreditReturn, State.chanArrive_open, hf, hr]
  simp only [hrole, hmc, beq_self_eq_true, decide_true, Bool.and_self, if_true, x]

/-- A LACK is the answer of its receiver for every message of the SEND (R263, R264). -/
theorem exec_landingAck {e : Nat} {p : ChMsg} (hf : s.net.fenced.has c = false) (hr : p.reserved = false)
    (he : (s.chn c).entry = some m) (hop : mMop m = 1) (hep : sdEp m.toNat = e) :
    let n := sdCount m.toNat; let u := s.modChn c (fun y => { y with answered := y.answered.put (s.ackFrom c p) n })
    exec (.landingAck c e p) s = .next (if (s.chn c).refusal.isSome then u.chnRefusalDone c
      else if n ≤ (s.chn c).idx ∧ u.allAnswered c e n false = true then u.chnLanded c else u) := by
  intro n u
  have hlanded : (decide ((s.chn c).idx < n) || !(u.allAnswered c e n false)) = true ↔
      ¬ (n ≤ (s.chn c).idx ∧ u.allAnswered c e n false = true) := by
    simp [imp_iff_not_or]
  simp only [exec, execLandingAck, State.chanArrive_open, hf, hr]
  simp only [he, hop, hep, bne_self_eq_false, Bool.or_self, Bool.false_eq_true, if_false]
  refine nexts (congrArg (ite _ _) ?_)
  exact (if_congr hlanded rfl rfl).trans (ite_not _ _ _)

theorem exec_sendRefused {e mc seq status : Nat} (he : (s.chn c).entry = some m) (hop : mMop m = 1) (hep : sdEp m.toNat = e)
    (hbad : (s.chn c).sentBad = none) (hmc : mc < cdMcCount (s.ep c e).desc)
    (hsent : (seq + (s.chn c).idx + 2 ^ 32 - (s.ep c e).seq % 2 ^ 32) % 2 ^ 32 < (s.chn c).idx) :
    let n := (seq + (s.chn c).idx + 2 ^ 32 - (s.ep c e).seq % 2 ^ 32) % 2 ^ 32
    exec (.sendRefused c e mc seq status) s = .next (((s.modEp c e (fun x => { (x.unwait s.clk.fast.toNat) with
      credits := x.credits.put mc (x.credits.get 0 mc + 1) })).modChn c (fun y => { y with
        refusal := some (y.refusal.getD status), answered := y.answered.put mc (max (n + 1) (y.answered.get 0 mc)) })).chnRefusalDone c) := by
  intro n
  have hgo : (decide ((s.chn c).idx ≤ n) || decide (cdMcCount (s.ep c e).desc ≤ mc)) = false := by
    rw [decide_eq_false (Nat.not_le.mpr hsent), decide_eq_false (Nat.not_le.mpr hmc), Bool.or_self]
  simp only [exec, execSendRefused, he, hop, hep, hbad, bne_self_eq_false, Bool.or_self, Nat.reduceBEq,
    Bool.false_eq_true, if_false]
  exact nexts (if_neg (Bool.eq_false_iff.mp hgo))

/-- A refusal of a SEND.M halts it with the status (R263). -/
theorem exec_sendRefused_sendM (he : (s.chn c).entry = some m) (hop : mMop m = 2) (e mc seq status : Nat) :
    exec (.sendRefused c e mc seq status) s = .next (s.chnHalt c status) := by
  simp only [exec, execSendRefused, he, hop, beq_self_eq_true, if_true]

theorem exec_sendRefused_open (he : (s.chn c).entry = some m) (hop : mMop m = 4) (e mc seq status : Nat) :
    exec (.sendRefused c e mc seq status) s = .next (s.openFails c e status) := by
  simp only [exec, execSendRefused, he, hop, beq_self_eq_true, if_true, Nat.reduceBEq, Bool.false_eq_true, if_false]

end

/-! ## Answers to SEND.M and OPEN (R260, R270) -/

/-- The CLOSE that answers an ACCEPT nobody waits for any longer (R270). -/
def closeAnswer (c : Nat) (p : ChMsg) (u : State) : State :=
  u.chanOut c 9 p.srcNode p.srcCl p.srcCore none { (u.chHead c (p.dstEp % 64) true) with dstEp := p.srcEp, conn := p.conn }

section
variable {s : State} {c : Nat} {w : W256} {p : ChMsg}

theorem exec_mailboxAnswer (hf : s.net.fenced.has c = false) (hr : p.reserved = false) (he : (s.chn c).entry = some w)
    (hop : mMop w = 2) : exec (.mailboxAnswer c p) s = .next (if p.status = eOk then s.chnDone c else s.chnHalt c p.status) := by
  simp only [exec, execMailboxAnswer, State.chanArrive_open, hf, hr, he, hop, bne_self_eq_false, Bool.false_eq_true, if_false]

theorem exec_reject (hf : s.net.fenced.has c = false) (hr : p.reserved = false) (e : Nat) :
    exec (.reject c e p) s = .next (s.openFails c e (if s.openLate c then eTimeout else p.status)) := by
  simp only [exec, execReject, State.chanArrive_open, hf, hr]

/-- An ACCEPT opens the endpoint of the OPEN in progress before its deadline; any other is answered with CLOSE (R270). -/
theorem exec_accept (hf : s.net.fenced.has c = false) (hr : p.reserved = false) (he : (s.chn c).entry = some w) :
    let e := p.dstEp % 64; let x := s.ep c e
    exec (.accept c p) s = .next (if mMop w = 4 ∧ sdEp w.toNat = e ∧ x.st = .opening then
        if s.openLate c then closeAnswer c p (s.openFails c e eTimeout)
        else (s.setEp c e { x with st := .opened, conn := p.conn, credits := [(0, leNat (p.data.take 2))],
                                   creditsMax := leNat (p.data.take 2), wp := 0, seq := 0 }).chnDone c
      else closeAnswer c p s) := by
  intro e x
  simp only [exec, execAccept, State.chanArrive_open, hf, hr, he, Bool.and_eq_true, beq_iff_eq, and_assoc]
  rfl

theorem exec_openTimeout (he : (s.chn c).entry = some w) (hop : mMop w = 4) (hlate : s.openLate c = true) :
    exec (.openTimeout c) s = .next (s.openFails c (sdEp w.toNat) eTimeout) := by
  simp only [exec, execOpenTimeout, he, hop, hlate, beq_self_eq_true, Bool.and_self, if_true]

end

/-! ## The channel engine's entries -/

section
variable {s : State} {c : Nat} {m : W256}

/-- What an entry of the channel engine's queue does at its acceptance, with `begun` what it begins (R262). -/
theorem exec_chn_begins {i : Instr} {begun : State → Nat → State} (hi : exec i s = .next (s.chnAccept c (mMop m) begun))
    (hq : (s.queue c 6).head = some m) (hon : s.enginesOn c = true) (hidle : (s.chn c).entry = none) (hsig : s.sigRight c m = true) :
    let a := (s.popQ c 6).modChn c (fun x => { x with mop := mMop m })
    exec i s = .next (if s.chnCheck c m.toNat (mMop m) = eOk
      then begun (a.modChn c (fun x => { x with entry := some m, idx := 0, refusal := none, sentBad := none, landed := false, answered := [] })) m.toNat
      else a.reject c 6 (s.chnCheck c m.toNat (mMop m)) m) :=
  hi.trans (nexts (State.chnAccept_idle hq hon hidle hsig begun))

end

/-- Settles O23: each command of the channel engine by its own equation. -/
theorem channelEngine : Obligations.ChannelEngine := by
  unfold Obligations.ChannelEngine
  refine ⟨?_, ?_, ?_, ?_, ?_, ?_, ?_, ?_, ?_⟩
  · rintro c _ m s hq rfl hon hidle hsig a n b out far
    refine ⟨fun hop => ?_, fun hop => ?_, fun hop => ?_, fun hop => ?_, fun hop => ?_⟩ <;>
      refine (exec_chn_begins (by rw [hop]; rfl) hq hon hidle hsig).trans ?_
    · rfl
    · simp only [Bool.and_eq_true, Bool.not_eq_eq_eq_not, Bool.not_true, Option.isNone_iff_eq_none]
      rfl
    · rfl
    · rfl
    · rfl
  · intro c i m s hi hq hon hidle hsig
    obtain ⟨f, hf⟩ := exec_chn_accept hi s
    rw [hf, State.chnAccept_no_signal_right hq hon hidle hsig]
  · intro c m s he hop hon href hleft hcred
    exact exec_sendMessage he hop hon href hleft hcred
  · intro c e p s hf hr hrole hmc
    exact exec_creditReturn hf hr hrole hmc
  · intro c e w p s hf hr he hop hep
    exact exec_landingAck hf hr he hop hep
  · intro c s
    simp only [State.chnLanded, Bool.and_eq_true]
  · intro c e mc seq status m s he hop hep hbad hsent hmc
    exact exec_sendRefused he hop hep hbad hmc hsent
  · intro c e mc seq status w s he
    exact ⟨fun hop => exec_sendRefused_sendM he hop e mc seq status, fun hop => exec_sendRefused_open he hop e mc seq status⟩
  · intro c e p w s hf hr he late x close
    refine ⟨exec_mailboxAnswer hf hr he, exec_reject hf hr e, ?_, ?_, ?_, exec_openTimeout he, ?_⟩
    · intro hop hep hst hlate
      rw [exec_accept hf hr he, if_pos ⟨hop, hep, hst⟩, if_neg (Bool.eq_false_iff.mp hlate)]
    · intro hop hep hst hlate
      rw [exec_accept hf hr he, if_pos ⟨hop, hep, hst⟩, if_pos hlate]
      rfl
    · intro hno
      rw [exec_accept hf hr he, if_neg (by rintro ⟨hop, hep, hst⟩; simp [hop, hep, hst, x] at hno)]
      rfl
    · intro hop hep hst status
      exact State.openFails_opening he hop hep hst status

/-! ## What a register access reads and writes (R612-R614, R622, R625) -/

section
variable {s : State} {w : Who} {off size : Nat}

theorem below_scanWindow (hoff : off < 0x3000000) : (decide (0x3000000 ≤ off) && decide (off < 0x3100000)) = false := by
  rw [decide_eq_false (Nat.not_le.mpr hoff), Bool.false_and]

theorem State.regRead_refused {e : Nat} (hoff : off < 0x3000000) (hf : s.regFind w off size false = .error e) :
    s.regRead w off size = (s.regRefuse w e off, e, 0) := by
  simp only [State.regRead, below_scanWindow hoff, hf, Bool.false_eq_true, if_false]

theorem State.regRead_narrow {k : RegView} {a : Nat} (hoff : off < 0x3000000) (hf : s.regFind w off size false = .ok (k, a))
    (hb : ((s.touchCore w off false).freshView w off size k).bits ≤ 64) :
    let x := s.touchCore w off false; let y := x.freshView w off size k
    s.regRead w off size = (if w == .debug then x else y.cleared, eOk, y.value % 2 ^ y.bits) := by
  intro x y
  simp only [State.regRead, below_scanWindow hoff, hf, Bool.false_eq_true, if_false, hb, if_true, x, y]

/-- The lowest word of a wide register is kept as a snapshot, which the higher words answer from (R614). -/
theorem State.regRead_wide {k : RegView} {a : Nat} (hoff : off < 0x3000000) (hf : s.regFind w off size false = .ok (k, a))
    (hb : 64 < ((s.touchCore w off false).freshView w off size k).bits) :
    let x := s.touchCore w off false; let y := x.freshView w off size k; let i := (a - y.base) / 8
    s.regRead w off size = if i = 0 then ((if w == .debug then x else y.cleared).keepSnap w y, eOk, fld y.value 0 64)
      else (x, eOk, x.snapWord w y i) := by
  intro x y i
  simp only [State.regRead, below_scanWindow hoff, hf, Bool.false_eq_true, if_false, Nat.not_le.mpr hb, x, y, i]

theorem State.regRead_scan {o : Nat} (ho : o < 0x100000) : s.regRead w (0x3000000 + o) size = s.scanRead w o size := by
  have hscan : (decide (0x3000000 ≤ 0x3000000 + o) && decide (0x3000000 + o < 0x3100000)) = true := by simp; omega
  simp only [State.regRead, hscan, if_true, Nat.add_sub_cancel_left]

theorem State.regWrite_refused {e : Nat} (hoff : off < 0x3000000) (hf : s.regFind w off size true = .error e) (x : Nat) :
    s.regWrite w off size x = (s.regRefuse w e off, e) := by
  simp only [State.regWrite, below_scanWindow hoff, hf, Bool.false_eq_true, if_false, State.deny]

theorem State.regWrite_found {k : RegView} {a : Nat} {p : RegView × Nat} (hoff : off < 0x3000000)
    (hf : s.regFind w off size true = .ok p) (hk : (s.touchCore w off true).regFind w off size true = .ok (k, a)) (x : Nat) :
    s.regWrite w off size x = k.write ((a - k.base) / 8) (x % 2 ^ (8 * size)) := by
  simp only [State.regWrite, below_scanWindow hoff, hf, hk, Bool.false_eq_true, if_false]

/-! ## Register accesses as commands (R572, R593, R612, R613) -/

/-- Does the register space answer an access now: powered, open to its requester, and with no cluster asleep on the way? -/
structure State.Answers (s : State) (w : Who) (off : Nat) : Prop where
  on : s.pwr.on = true
  notFailed : s.pfAlone w = false
  hostOpen : whoHost w = false ∨ s.hostOpen = true
  hasVat : s.lostVf w = false
  awake : s.sleepingCl w off = none

theorem State.Answers.core (hon : s.pwr.on = true) (c : Nat) : s.Answers (.core c) off :=
  ⟨hon, rfl, .inl rfl, rfl, rfl⟩

theorem State.Answers.debug (hon : s.pwr.on = true) (hawake : s.sleepingCl .debug off = none) : s.Answers .debug off :=
  ⟨hon, rfl, .inl rfl, rfl, hawake⟩

theorem State.Answers.notWaiting (h : s.Answers w off) : (whoHost w && !s.hostOpen) = false := by
  rcases h.hostOpen with hw | ho <;> simp [*]

theorem State.Answers.readCmd (h : s.Answers w off) {t : State} {st v : Nat} (hr : s.regRead w off size = (t, st, v)) :
    s.readCmd w off size = t.regAnswered w off (whoSees w st) (some v) := by
  simp only [State.readCmd, h.on, h.notFailed, h.notWaiting, h.hasVat, h.awake, hr, Bool.not_true, Bool.false_eq_true, if_false]

theorem State.Answers.writeCmd (h : s.Answers w off) {x : Nat} (hv : s.cmdSleeps w off x = none) {r : State × Nat}
    (hr : s.regWrite w off size x = r) : s.writeCmd w off size x = r.1.regAnswered w off (whoSees w r.2) none := by
  simp only [State.writeCmd, h.on, h.notFailed, h.notWaiting, h.hasVat, h.awake, hv, hr, Bool.not_true, Bool.false_eq_true, if_false]

theorem whoSees_eq (w : Who) (st : Nat) : whoSees w st = if whoHost w then eOk else st := by
  cases w <;> rfl

/-- A VF without a vat reads zero and writes nothing (R517). -/
theorem State.readCmd_lost {n : Nat} (hon : s.pwr.on = true) (ho : s.hostOpen = true) (hv : s.vfVat n = none) :
    s.readCmd (.vf n) off size = s.send (.regAnswer (.vf n) off eOk 0) := by
  simp [State.readCmd, State.pfAlone, State.lostVf, hon, ho, hv]

theorem State.writeCmd_lost {n x : Nat} (hon : s.pwr.on = true) (ho : s.hostOpen = true) (hv : s.vfVat n = none) :
    s.writeCmd (.vf n) off size x = s.send (.regAnswer (.vf n) off eOk 0) := by
  simp [State.writeCmd, State.pfAlone, State.lostVf, hon, ho, hv]

theorem State.regAnswered_direct (hw : w = .core mgmtCore ∨ ∀ c, w ≠ .core c) (st : Nat) (v : Option Nat) :
    s.regAnswered w off st v = s.send (.regAnswer w off st (v.getD 0)) := by
  cases w with
  | core c =>
    have hc : c = mgmtCore := by simpa using hw
    simp only [State.regAnswered, hc, if_true]
  | pf => rfl
  | vf n => rfl
  | debug => rfl

/-! ## The boot firmware's writes (R594) -/

theorem exec_registerWrite_plain (hon : s.pwr.on = true) (hw : w ≠ .core mgmtCore ∨ (s.boot.stage ≠ .failed ∧ s.manRec = none)) (x : Nat) :
    exec (.registerWrite w off size x) s = .next (s.writeCmd w off size x) := by
  by_cases hm : w = .core mgmtCore
  · obtain ⟨hst, hrec⟩ := hw.resolve_left (not_not.mpr hm)
    rw [hm]
    exact firmware_idle s off size x hon hst hrec
  · exact nexts (if_neg (by simpa using hm))

end

theorem State.firmwareWrite_record {s : State} {r : Nat} (hon : s.pwr.on = true) (hst : s.boot.stage ≠ .failed) (hr : s.manRec = some r) :
    s.firmwareWrite (recOff r) (recSize r) (recValue r) = if s.recordFits r
      then (s.modBoot (fun b => { b with manAt := b.manAt + 1 })).writeCmd (.core mgmtCore) (recOff r) (recSize r) (recValue r)
      else s.modBoot (fun b => { b with code := 8, stage := .failed, rst := none }) := by
  have hval : recValue r % 2 ^ (8 * recSize r) = recValue r := Nat.mod_mod _ _
  simp only [State.firmwareWrite, hon, beq_eq_false_iff_ne.mpr hst, hr, hval, bne_self_eq_false, Bool.or_self, Bool.not_true,
    Bool.false_eq_true, if_false]

theorem State.firmwareWrite_failed {s : State} (h : s.boot.stage = .failed) (off size x : Nat) : s.firmwareWrite off size x = s := by
  simp only [State.firmwareWrite, h, beq_self_eq_true, Bool.or_true, if_true]

/-- A record that names a register of Chapter 20 may not be applied. -/
theorem State.recordFits_bootChapter {s : State} {r : Nat} (h : bootChapter (recOff r) = true) : s.recordFits r = false := by
  simp only [State.recordFits, h, Bool.not_true, Bool.and_false, Bool.false_and]

/-! ## Counters and connections as registers (R622, R625) -/

theorem inArray_within {o n k w i r : Nat} (hi : i < n) (hr : r < w) (hw : w ≤ k) : inArray (o + (r + k * i)) o n k w = some i := by
  have hlast : k * (i + 1) ≤ n * k := by rw [Nat.mul_comm n k]; exact Nat.mul_le_mul_left k hi
  have hmod : (r + k * i) % k = r := by rw [Nat.add_mul_mod_self_left, Nat.mod_eq_of_lt (by omega)]
  have hdiv : (r + k * i) / k = i := by rw [Nat.add_mul_div_left _ _ (by omega), Nat.div_eq_of_lt (by omega), Nat.zero_add]
  rw [inArray, Nat.add_sub_cancel_left, hmod, hdiv]
  exact if_pos (by simp [Nat.mul_add] at hlast ⊢; omega)

theorem State.clReg_counter (s : State) (w : Who) (cl : Nat) {i : Nat} (hi : i < 256) :
    s.clReg w cl (0x400 + 4 * i) = some (s.ctrReg w (0x600000 + 0x10000 * cl + (0x400 + 4 * i)) (256 * cl + i)) := by
  have hnode : ¬ 0x400 + 4 * i < 0x100 := by omega
  have hcouch : inArray (0x400 + 4 * i) 0x100 63 8 8 = none := inArray_miss (by omega)
  have hctr : inArray (0x400 + 4 * i) 0x400 256 4 4 = some i := inArray_hit hi (by omega) (by omega)
  simp only [State.clReg, hnode, if_false, hcouch, hctr]

theorem State.syncfReg_counter (s : State) (w : Who) {i : Nat} (hi : i < 64) :
    s.syncfReg w (0x200 + 4 * i) = some (s.ctrReg w (0x280000 + (0x200 + 4 * i)) (0x4000 + i)) := by
  have hlate : ¬ 0x200 + 4 * i = 0 := by omega
  have herr : ¬ 0x200 + 4 * i = 8 := by omega
  have hctl : inArray (0x200 + 4 * i) 0x100 64 4 4 = none := inArray_miss (by omega)
  have hval : inArray (0x200 + 4 * i) 0x200 64 4 4 = some i := inArray_hit hi (by omega) (by omega)
  simp only [State.syncfReg, hlate, herr, if_false, hctl, hval, Option.map_some]

theorem State.connReg_close (s : State) (w : Who) {i : Nat} (hi : i < 4096) :
    s.connReg w (8 + 16 * i) = some (s.rwReg (0x340000 + 16 * i) 128 (s.connWord (s.conn i))
      (fun k x => if k = 1 && bit x 0 then s.connClose w i else (s, eOk))) := by
  have hent : inArray (8 + 16 * i) 0 4096 16 16 = some i := by
    rw [← Nat.zero_add (8 + 16 * i)]
    exact inArray_within hi (by omega) (by omega)
  simp only [State.connReg, hent, Option.map_some]

theorem State.hubReg_syncf (s : State) (w : Who) (o : Nat) : s.hubReg w 10 o = s.syncfReg w o := rfl

theorem State.hubReg_conn (s : State) (w : Who) (o : Nat) : s.hubReg w 13 o = s.connReg w o := rfl

/-- The hub's block of an offset (Table 21.2). -/
theorem State.regAt_hub (s : State) (w : Who) {b o : Nat} (hb : b < 14) (ho : o < 0x40000) :
    s.regAt w (0x40000 * b + o) = s.hubReg w b o := by
  have hlow : 0x40000 * b + o < 0x380000 := by omega
  have hdiv : (0x40000 * b + o) / 0x40000 = b := by omega
  have hmod : (0x40000 * b + o) % 0x40000 = o := by omega
  simp only [State.regAt, hlow, if_true, hdiv, hmod]

theorem State.regAt_cluster (s : State) (w : Who) {cl o : Nat} (hcl : cl < 64) (ho : o < 0x10000) :
    s.regAt w (0x600000 + 0x10000 * cl + o) = s.clReg w cl o := by
  have hhub : ¬ 0x600000 + 0x10000 * cl + o < 0x380000 := by omega
  have hseq : ¬ (0x400000 ≤ 0x600000 + 0x10000 * cl + o ∧ 0x600000 + 0x10000 * cl + o < 0x500000) := by omega
  have hvat : ¬ (0x500000 ≤ 0x600000 + 0x10000 * cl + o ∧ 0x600000 + 0x10000 * cl + o < 0x600000) := by omega
  have hclu : 0x600000 ≤ 0x600000 + 0x10000 * cl + o ∧ 0x600000 + 0x10000 * cl + o < 0xA00000 := by omega
  have hdiv : (0x600000 + 0x10000 * cl + o - 0x600000) / 0x10000 = cl := by omega
  have hmod : (0x600000 + 0x10000 * cl + o) % 0x10000 = o := by omega
  simp only [State.regAt, Bool.and_eq_true, decide_eq_true_eq, hhub, hseq, hvat, hclu, if_false, if_true, hdiv, hmod,
    and_self]

theorem State.regAt_counter (s : State) (w : Who) {n : Nat} (hn : n < 0x4040) : s.regAt w (ctrOff n) = some (s.ctrReg w (ctrOff n) n) := by
  by_cases hc : n < 0x4000
  · have hoff : ctrOff n = 0x600000 + 0x10000 * (n / 256) + (0x400 + 4 * (n % 256)) := by rw [ctrOff, if_pos hc]; omega
    rw [hoff, State.regAt_cluster s w (by omega) (by omega), State.clReg_counter s w _ (by omega), Nat.div_add_mod]
  · have hoff : ctrOff n = 0x280000 + (0x200 + 4 * (n - 0x4000)) := by rw [ctrOff, if_neg hc]; omega
    calc s.regAt w (ctrOff n)
      _ = s.syncfReg w (0x200 + 4 * (n - 0x4000)) := by
        rw [show ctrOff n = 0x40000 * 10 + (0x200 + 4 * (n - 0x4000)) by omega, State.regAt_hub s w (by omega) (by omega), State.hubReg_syncf]
      _ = some (s.ctrReg w (0x280000 + (0x200 + 4 * (n - 0x4000))) (0x4000 + (n - 0x4000))) := State.syncfReg_counter s w (by omega)
      _ = some (s.ctrReg w (ctrOff n) n) := by rw [← hoff, Nat.add_sub_cancel' (Nat.not_lt.mp hc)]

theorem State.regAt_conn (s : State) (w : Who) {i : Nat} (hi : i < 4096) :
    s.regAt w (0x340008 + 16 * i) = some (s.rwReg (0x340000 + 16 * i) 128 (s.connWord (s.conn i))
      (fun k x => if k = 1 && bit x 0 then s.connClose w i else (s, eOk))) := by
  have hoff : 0x340008 + 16 * i = 0x40000 * 13 + (8 + 16 * i) := by omega
  rw [hoff, State.regAt_hub s w (by omega) (by omega), State.hubReg_conn, State.connReg_close s w hi]

/-- The management core sets any counter, and its watches are tested (R281, R622). -/
theorem exec_syncCtrSet_mgmt {s : State} {n : Nat} (hon : s.pwr.on = true) (hn : n < 0x4040) (x : Nat) :
    exec (.syncCtrSet (.core mgmtCore) n x) s =
      .next (((s.setCtr n (x % 2 ^ 32)).testWatches (ctrNode n)).send (.regAnswer (.core mgmtCore) (ctrOff n) eOk 0)) := by
  have hoff : (0x280200 ≤ ctrOff n ∧ ctrOff n < 0x280300) ∨ (0x600400 ≤ ctrOff n ∧ ctrOff n < 0xA00000) := by
    unfold ctrOff; split <;> omega
  have hfit : (s.ctrReg (.core mgmtCore) (ctrOff n) n).fits (ctrOff n) 4 = true := by
    simp [RegView.fits, State.ctrReg, State.rwReg]
  have hset : ∀ j, (s.ctrReg (.core mgmtCore) (ctrOff n) n).write j (x % 2 ^ (8 * 4)) = (s.putCtr n (x % 2 ^ 32), eOk) := by
    intro j
    simp [State.ctrReg, State.rwReg, State.onlyIf, whoMgmt]
  have hw := mgmt_write s (ctrOff n) 4 x _ hon (by omega) (by omega) (State.regAt_counter s _ hn) hfit (by omega) (by omega)
  rw [hset] at hw
  simp only [exec, execSyncCtrSet, if_neg (show ¬ 0x4040 ≤ n by omega), hw]
  rfl

/-- The management core closes an open connection; a closed one is refused with E_STATE (R625). -/
theorem exec_connClose_mgmt {s : State} {i : Nat} (hon : s.pwr.on = true) (hi : i < 4096) :
    exec (.connClose (.core mgmtCore) i) s = .next (if (s.conn i).opened
      then (s.closeConn i).send (.regAnswer (.core mgmtCore) (0x340008 + 16 * i) eOk 0)
      else (s.regRefuse (.core mgmtCore) eState (0x340000 + 16 * i)).send (.regAnswer (.core mgmtCore) (0x340008 + 16 * i) eState 0)) := by
  have hword : (0x340008 + 16 * i - (0x340000 + 16 * i)) / 8 = 1 := by omega
  have hw := mgmt_write s (0x340008 + 16 * i) 8 1 _ hon (by omega) (by omega) (State.regAt_conn s _ hi)
    (by simp [RegView.fits, State.rwReg]; omega) (by omega) (by omega)
  have hclose : s.connClose (.core mgmtCore) i = if (s.conn i).opened then (s.closeConn i, eOk)
      else (s.regRefuse (.core mgmtCore) eState (0x340000 + 16 * i), eState) := by
    simp [State.connClose, State.onlyIf, whoMgmt, State.deny]
  simp only [exec, execConnClose, if_neg (show ¬ 4096 ≤ i by omega), hw]
  cases ho : (s.conn i).opened <;> simp [State.rwReg, hword, hclose, ho, bit]

/-- The REGRSP packet of Table 7.6 for a core of the mesh. -/
theorem State.regAnswered_mesh (s : State) {c : Nat} (hc : c ≠ mgmtCore) (off st : Nat) (v : Option Nat) :
    let src := regSource off ((s.blockCore off).getD 0)
    let data := if st = eOk ∧ v.isSome = true then leBytes 16 (v.getD 0 % 2 ^ 64) else []
    let h := regRsp c ((s.vatOfCore c).getD 0) src.2 st (data.length / 16)
    s.regAnswered (.core c) off st v =
      (s.send (.regAnswer (.core c) off st (v.getD 0))).send (.ctl src.1 (ctlPort src.1 (ctlTarget h)) h data []) := by
  intro src data h
  simp only [State.regAnswered, hc, if_false, Bool.and_eq_true, decide_eq_true_eq]
  rfl

theorem State.throughView_open {s : State} (h : s.boot.viewEn = true) {o : Nat} (ho : o < 0x2000) :
    s.throughView (0x2000 + o) = some (0x1000000 + s.boot.viewSel * 0x2000 + o) := by
  have hview : (decide (0x2000 ≤ 0x2000 + o) && decide (0x2000 + o < 0x4000)) = true := by simp; omega
  simp only [State.throughView, hview, h, if_true, Nat.add_sub_cancel_left]

/-- Settles O56: each access by the lemma of the read or write it makes. -/
theorem registers : Obligations.Registers := by
  unfold Obligations.Registers
  refine ⟨?_, ?_, ?_, ?_, ?_, ?_, ?_, ?_, ?_, ?_, ?_⟩
  · rintro c off size a k _ s _ hon hoff hk rfl rfl hb
    exact nexts ((State.Answers.core hon c).readCmd (State.regRead_narrow hoff hk hb))
  · rintro c off a k y s _ hon hoff hk rfl rfl hb i
    have hr := State.regRead_wide hoff hk hb
    exact ⟨fun hi => nexts ((State.Answers.core hon c).readCmd (hr.trans (if_pos hi))),
      fun hi => nexts ((State.Answers.core hon c).readCmd (hr.trans (if_neg hi)))⟩
  · rintro off size a k _ s _ hon hoff hk rfl rfl hb hawake
    exact nexts ((State.Answers.debug hon hawake).readCmd (State.regRead_narrow hoff hk hb))
  · intro c off size x a k p s hon hoff hp hk hv hw r
    rw [exec_registerWrite_plain hon (by simpa using hw)]
    exact nexts ((State.Answers.core hon c).writeCmd hv (State.regWrite_found hoff hp hk x))
  · intro w off size x e s hon hoff hnf hopen hvat hawake hv hw seen t
    have hans : s.Answers w off := ⟨hon, hnf, hopen, hvat, hawake⟩
    refine ⟨fun hf => ?_, fun hf => ?_⟩
    · refine nexts ((hans.readCmd (State.regRead_refused hoff hf)).trans ?_)
      rw [whoSees_eq]
    · rw [exec_registerWrite_plain hon hw, hans.writeCmd hv (State.regWrite_refused hoff hf x), whoSees_eq]
  · intro w off st v s
    refine ⟨fun hw => State.regAnswered_direct hw st v, ?_⟩
    rintro c rfl hc
    exact State.regAnswered_mesh s hc off st v
  · intro n off size x s hon ho hv
    refine ⟨nexts (State.readCmd_lost hon ho hv), ?_⟩
    rw [exec_registerWrite_plain hon (.inl (by simp)), State.writeCmd_lost hon ho hv]
  · intro r s hon hst hr
    refine ⟨fun hfit => ?_, fun hfit => ?_, fun off size x => ?_, fun hoff => ?_⟩
    · exact nexts ((State.firmwareWrite_record hon hst hr).trans (if_pos hfit))
    · exact nexts ((State.firmwareWrite_record hon hst hr).trans (if_neg (Bool.eq_false_iff.mp hfit)))
    · exact nexts (State.firmwareWrite_failed rfl off size x)
    · exact State.recordFits_bootChapter (by rw [hoff]; rfl)
  · intro w o size x s
    refine ⟨fun ho => ⟨?_, ?_, fun hen => State.throughView_open hen ho⟩, fun ho => ⟨?_, ?_, State.regRead_scan ho⟩⟩
    · simp only [exec, execCoreViewAccess, Nat.not_le.mpr ho, if_false, Bool.false_eq_true]
    · simp only [exec, execCoreViewAccess, Nat.not_le.mpr ho, if_false, if_true]
    · simp only [exec, execScanWindowAccess, Nat.not_le.mpr ho, if_false, Bool.false_eq_true]
    · simp only [exec, execScanWindowAccess, Nat.not_le.mpr ho, if_false, if_true]
  · intro n x s hon hn off
    exact exec_syncCtrSet_mgmt hon hn x
  · intro i s hon hi off u
    refine ⟨fun ho => ?_, fun ho => ?_⟩
    · rw [exec_connClose_mgmt hon hi, if_pos ho]
    · rw [exec_connClose_mgmt hon hi, if_neg (Bool.eq_false_iff.mp ho)]

end Sys2Proof.Machine
end

section
/-! PROOFS. The form of the memories (O59) and the networks (O26). -/

namespace Sys2Proof.Machine

/-! ## The form of the memories (R36, R355, R621) -/

/-- The memories of a state that has the stack memory and the boot block of `s` are in canonical form when those of `s` are. -/
theorem State.MemOk.of_same {s t : State} (h : s.MemOk) (hmem : t.mem = s.mem) (hboot : t.boot = s.boot) : t.MemOk := by
  unfold State.MemOk at h ⊢
  rw [hmem, hboot]
  exact h

/-- Time passes over the memories without a change. -/
theorem State.tick_memOk {s : State} (h : s.MemOk) : s.tick.MemOk := by
  obtain ⟨_, hmem, _, _, hboot⟩ := State.tick_same s
  exact h.of_same hmem hboot

/-- Every command keeps the form of the memories: one arm per command, each by that command's own law. -/
theorem exec_memOk (i : Instr) {s : State} (h : s.MemOk) : (resState s (exec i s)).MemOk :=
  match i with
  | .add .. => execAdd_memOk (h := h) ..
  | .sub .. => execSub_memOk (h := h) ..
  | .and .. => execAnd_memOk (h := h) ..
  | .or .. => execOr_memOk (h := h) ..
  | .xor .. => execXor_memOk (h := h) ..
  | .sll .. => execSll_memOk (h := h) ..
  | .srl .. => execSrl_memOk (h := h) ..
  | .sra .. => execSra_memOk (h := h) ..
  | .mul .. => execMul_memOk (h := h) ..
  | .mulh .. => execMulh_memOk (h := h) ..
  | .mulhu .. => execMulhu_memOk (h := h) ..
  | .div .. => execDiv_memOk (h := h) ..
  | .divu .. => execDivu_memOk (h := h) ..
  | .rem .. => execRem_memOk (h := h) ..
  | .remu .. => execRemu_memOk (h := h) ..
  | .min .. => execMin_memOk (h := h) ..
  | .max .. => execMax_memOk (h := h) ..
  | .minu .. => execMinu_memOk (h := h) ..
  | .maxu .. => execMaxu_memOk (h := h) ..
  | .addi .. => execAddi_memOk (h := h) ..
  | .andi .. => execAndi_memOk (h := h) ..
  | .ori .. => execOri_memOk (h := h) ..
  | .xori .. => execXori_memOk (h := h) ..
  | .slli .. => execSlli_memOk (h := h) ..
  | .srli .. => execSrli_memOk (h := h) ..
  | .srai .. => execSrai_memOk (h := h) ..
  | .li .. => execLi_memOk (h := h) ..
  | .lsi .. => execLsi_memOk (h := h) ..
  | .cmpEq .. => execCmpEq_memOk (h := h) ..
  | .cmpNe .. => execCmpNe_memOk (h := h) ..
  | .cmpLt .. => execCmpLt_memOk (h := h) ..
  | .cmpGe .. => execCmpGe_memOk (h := h) ..
  | .cmpLtu .. => execCmpLtu_memOk (h := h) ..
  | .cmpGeu .. => execCmpGeu_memOk (h := h) ..
  | .cmpiEq .. => execCmpiEq_memOk (h := h) ..
  | .cmpiNe .. => execCmpiNe_memOk (h := h) ..
  | .cmpiLt .. => execCmpiLt_memOk (h := h) ..
  | .cmpiGe .. => execCmpiGe_memOk (h := h) ..
  | .cmpiLtu .. => execCmpiLtu_memOk (h := h) ..
  | .cmpiGeu .. => execCmpiGeu_memOk (h := h) ..
  | .pand .. => execPand_memOk (h := h) ..
  | .por .. => execPor_memOk (h := h) ..
  | .pxor .. => execPxor_memOk (h := h) ..
  | .pget .. => execPget_memOk (h := h) ..
  | .pset .. => execPset_memOk (h := h) ..
  | .ldB .. => execLdB_memOk (h := h) ..
  | .ldBu .. => execLdBu_memOk (h := h) ..
  | .ldH .. => execLdH_memOk (h := h) ..
  | .ldHu .. => execLdHu_memOk (h := h) ..
  | .ldW .. => execLdW_memOk (h := h) ..
  | .ldWu .. => execLdWu_memOk (h := h) ..
  | .ldD .. => execLdD_memOk (h := h) ..
  | .stB .. => execStB_memOk (h := h) ..
  | .stH .. => execStH_memOk (h := h) ..
  | .stW .. => execStW_memOk (h := h) ..
  | .stD .. => execStD_memOk (h := h) ..
  | .ldrW .. => execLdrW_memOk (h := h) ..
  | .ldrD .. => execLdrD_memOk (h := h) ..
  | .strW .. => execStrW_memOk (h := h) ..
  | .strD .. => execStrD_memOk (h := h) ..
  | .ldrReturn .. => execLdrReturn_memOk (h := h) ..
  | .strRefused .. => execStrRefused_memOk (h := h) ..
  | .mfs .. => execMfs_memOk (h := h) ..
  | .mts .. => execMts_memOk (h := h) ..
  | .mset .. => execMset_memOk (h := h) ..
  | .mclr .. => execMclr_memOk (h := h) ..
  | .qctlRetry .. => execQctlRetry_memOk (h := h) ..
  | .qctlDrop .. => execQctlDrop_memOk (h := h) ..
  | .br .. => execBr_memOk (h := h) ..
  | .call .. => execCall_memOk (h := h) ..
  | .jr .. => execJr_memOk (h := h) ..
  | .jalr .. => execJalr_memOk (h := h) ..
  | .dbnz .. => execDbnz_memOk (h := h) ..
  | .eret .. => execEret_memOk (h := h) ..
  | .endProg .. => execEndProg_memOk (h := h) ..
  | .halt .. => execHalt_memOk (h := h) ..
  | .nop .. => execNop_memOk (h := h) ..
  | .mfence .. => execMfence_memOk (h := h) ..
  | .mfenceComplete .. => execMfenceComplete_memOk (h := h) ..
  | .trap .. => execTrap_memOk (h := h) ..
  | .brk .. => execBrk_memOk (h := h) ..
  | .wfi .. => execWfi_memOk (h := h) ..
  | .wfiWake .. => execWfiWake_memOk (h := h) ..
  | .interruptTaken .. => execInterruptTaken_memOk (h := h) ..
  | .issue .. => execIssue_memOk (h := h) ..
  | .issueB .. => execIssueB_memOk (h := h) ..
  | .issueReserve .. => execIssueReserve_memOk (h := h) ..
  | .ibins .. => execIbins_memOk (h := h) ..
  | .qwait .. => execQwait_memOk (h := h) ..
  | .qwaitRetire .. => execQwaitRetire_memOk (h := h) ..
  | .sadd .. => execSadd_memOk (h := h) ..
  | .ssub .. => execSsub_memOk (h := h) ..
  | .swait .. => execSwait_memOk (h := h) ..
  | .sread .. => execSread_memOk (h := h) ..
  | .wait .. => execWait_memOk (h := h) ..
  | .signal .. => execSignal_memOk (h := h) ..
  | .matmul .. => execMatmul_memOk (h := h) ..
  | .matmulSp .. => execMatmulSp_memOk (h := h) ..
  | .matRingTestPass .. => execMatRingTestPass_memOk (h := h) ..
  | .accInFormatHalt .. => execAccInFormatHalt_memOk (h := h) ..
  | .matmulComplete .. => execMatmulComplete_memOk (h := h) ..
  | .chainRecordRead .. => execChainRecordRead_memOk (h := h) ..
  | .vchain .. => execVchain_memOk (h := h) ..
  | .vchainComplete .. => execVchainComplete_memOk (h := h) ..
  | .tload .. => execTload_memOk (h := h) ..
  | .tloadComplete .. => execTloadComplete_memOk (h := h) ..
  | .tstore .. => execTstore_memOk (h := h) ..
  | .tstoreComplete .. => execTstoreComplete_memOk (h := h) ..
  | .tfill .. => execTfill_memOk (h := h) ..
  | .tfillComplete .. => execTfillComplete_memOk (h := h) ..
  | .reduce .. => execReduce_memOk (h := h) ..
  | .reduceComplete .. => execReduceComplete_memOk (h := h) ..
  | .acc96InputHalt .. => execAcc96InputHalt_memOk (h := h) ..
  | .stream .. => execStream_memOk (h := h) ..
  | .spload .. => execSpload_memOk (h := h) ..
  | .sploadComplete .. => execSploadComplete_memOk (h := h) ..
  | .seta .. => execSeta_memOk (h := h) ..
  | .adda .. => execAdda_memOk (h := h) ..
  | .addr .. => execAddr_memOk (h := h) ..
  | .ldd .. => execLdd_memOk (h := h) ..
  | .setx .. => execSetx_memOk (h := h) ..
  | .loop .. => execLoop_memOk (h := h) ..
  | .loopm .. => execLoopm_memOk (h := h) ..
  | .mov .. => execMov_memOk (h := h) ..
  | .cvt .. => execCvt_memOk (h := h) ..
  | .page .. => execPage_memOk (h := h) ..
  | .streamReadReturn .. => execStreamReadReturn_memOk (h := h) ..
  | .rfill .. => execRfill_memOk (h := h) ..
  | .rfillFreeTestPass .. => execRfillFreeTestPass_memOk (h := h) ..
  | .rdone .. => execRdone_memOk (h := h) ..
  | .rtake .. => execRtake_memOk (h := h) ..
  | .rtakePass .. => execRtakePass_memOk (h := h) ..
  | .rfree .. => execRfree_memOk (h := h) ..
  | .push .. => execPush_memOk (h := h) ..
  | .pop .. => execPop_memOk (h := h) ..
  | .swt .. => execSwt_memOk (h := h) ..
  | .ssig .. => execSsig_memOk (h := h) ..
  | .deliv .. => execDeliv_memOk (h := h) ..
  | .streamEnd .. => execStreamEnd_memOk (h := h) ..
  | .deliveryPieceWrite .. => execDeliveryPieceWrite_memOk (h := h) ..
  | .deliveryAction .. => execDeliveryAction_memOk (h := h) ..
  | .stackMergeSend .. => execStackMergeSend_memOk (h := h) ..
  | .deviceWriteAck .. => execDeviceWriteAck_memOk (h := h) ..
  | .ackWindowExpiry .. => execAckWindowExpiry_memOk (h := h) ..
  | .streamComplete .. => execStreamComplete_memOk (h := h) ..
  | .send .. => execSend_memOk (h := h) ..
  | .sendMessage .. => execSendMessage_memOk (h := h) ..
  | .sendM .. => execSendM_memOk (h := h) ..
  | .rsync .. => execRsync_memOk (h := h) ..
  | .openChan .. => execOpenChan_memOk (h := h) ..
  | .closeChan .. => execCloseChan_memOk (h := h) ..
  | .channelData .. => execChannelData_memOk (h := h) ..
  | .endpointFreeTestPass .. => execEndpointFreeTestPass_memOk (h := h) ..
  | .spillDrain .. => execSpillDrain_memOk (h := h) ..
  | .creditReturn .. => execCreditReturn_memOk (h := h) ..
  | .landingAck .. => execLandingAck_memOk (h := h) ..
  | .sendRefused .. => execSendRefused_memOk (h := h) ..
  | .mailboxMessage .. => execMailboxMessage_memOk (h := h) ..
  | .mailboxAnswer .. => execMailboxAnswer_memOk (h := h) ..
  | .mailboxClear .. => execMailboxClear_memOk (h := h) ..
  | .openPacket .. => execOpenPacket_memOk (h := h) ..
  | .accept .. => execAccept_memOk (h := h) ..
  | .reject .. => execReject_memOk (h := h) ..
  | .closePacket .. => execClosePacket_memOk (h := h) ..
  | .openTimeout .. => execOpenTimeout_memOk (h := h) ..
  | .deadlockDetect .. => execDeadlockDetect_memOk (h := h) ..
  | .releaseCycle .. => execReleaseCycle_memOk (h := h) ..
  | .syncApply .. => execSyncApply_memOk (h := h) ..
  | .syncWord .. => execSyncWord_memOk (h := h) ..
  | .syncFrameReceive .. => execSyncFrameReceive_memOk (h := h) ..
  | .syncFrameRelease .. => execSyncFrameRelease_memOk (h := h) ..
  | .meshPacketRoute .. => execMeshPacketRoute_memOk (h := h) ..
  | .ctlPacketRoute .. => execCtlPacketRoute_memOk (h := h) ..
  | .fenceNotice .. => execFenceNotice_memOk (h := h) ..
  | .windowRead .. => execWindowRead_memOk (h := h) ..
  | .windowWrite .. => execWindowWrite_memOk (h := h) ..
  | .load .. => execLoad_memOk (h := h) ..
  | .loadFrameFetch .. => execLoadFrameFetch_memOk (h := h) ..
  | .loadCheckComplete .. => execLoadCheckComplete_memOk (h := h) ..
  | .loadWriteComplete .. => execLoadWriteComplete_memOk (h := h) ..
  | .loadFinish .. => execLoadFinish_memOk (h := h) ..
  | .abort .. => execAbort_memOk (h := h) ..
  | .release .. => execRelease_memOk (h := h) ..
  | .start .. => execStart_memOk (h := h) ..
  | .sheetStart .. => execSheetStart_memOk (h := h) ..
  | .coreStart .. => execCoreStart_memOk (h := h) ..
  | .sheetEnd .. => execSheetEnd_memOk (h := h) ..
  | .forcedStop .. => execForcedStop_memOk (h := h) ..
  | .stop .. => execStop_memOk (h := h) ..
  | .drainTimeout .. => execDrainTimeout_memOk (h := h) ..
  | .scanOutStart .. => execScanOutStart_memOk (h := h) ..
  | .scanOutComplete .. => execScanOutComplete_memOk (h := h) ..
  | .scanIn .. => execScanIn_memOk (h := h) ..
  | .scanInComplete .. => execScanInComplete_memOk (h := h) ..
  | .resume .. => execResume_memOk (h := h) ..
  | .plan .. => execPlan_memOk (h := h) ..
  | .kill .. => execKill_memOk (h := h) ..
  | .vatReset .. => execVatReset_memOk (h := h) ..
  | .wipeComplete .. => execWipeComplete_memOk (h := h) ..
  | .arm .. => execArm_memOk (h := h) ..
  | .launchTick .. => execLaunchTick_memOk (h := h) ..
  | .gtcSet .. => execGtcSet_memOk (h := h) ..
  | .gtcAlarm .. => execGtcAlarm_memOk (h := h) ..
  | .treqSend .. => execTreqSend_memOk (h := h) ..
  | .treqReceive .. => execTreqReceive_memOk (h := h) ..
  | .trspReceive .. => execTrspReceive_memOk (h := h) ..
  | .syncLossTimeout .. => execSyncLossTimeout_memOk (h := h) ..
  | .refreshSlot .. => execRefreshSlot_memOk (h := h) ..
  | .stackTempRead .. => execStackTempRead_memOk (h := h) ..
  | .stackRead .. => execStackRead_memOk (h := h) ..
  | .stackReadReturn .. => execStackReadReturn_memOk (h := h) ..
  | .stackWrite .. => execStackWrite_memOk (h := h) ..
  | .readModifyWriteAck .. => execReadModifyWriteAck_memOk (h := h) ..
  | .stackCommand .. => execStackCommand_memOk (h := h) ..
  | .stackCommandStart .. => execStackCommandStart_memOk (h := h) ..
  | .accum .. => execAccum_memOk (h := h) ..
  | .convert .. => execConvert_memOk (h := h) ..
  | .adam .. => execAdam_memOk (h := h) ..
  | .lamb .. => execLamb_memOk (h := h) ..
  | .sgd .. => execSgd_memOk (h := h) ..
  | .sumsq .. => execSumsq_memOk (h := h) ..
  | .gather .. => execGather_memOk (h := h) ..
  | .scatterAdd .. => execScatterAdd_memOk (h := h) ..
  | .kvcopy .. => execKvcopy_memOk (h := h) ..
  | .wipe .. => execWipe_memOk (h := h) ..
  | .vdef .. => execVdef_memOk (h := h) ..
  | .vpin .. => execVpin_memOk (h := h) ..
  | .vunpin .. => execVunpin_memOk (h := h) ..
  | .controllerRingExchange .. => execControllerRingExchange_memOk (h := h) ..
  | .stackShareComplete .. => execStackShareComplete_memOk (h := h) ..
  | .setAsideRelease .. => execSetAsideRelease_memOk (h := h) ..
  | .stackCommandComplete .. => execStackCommandComplete_memOk (h := h) ..
  | .couchReset .. => execCouchReset_memOk (h := h) ..
  | .advLoad .. => execAdvLoad_memOk (h := h) ..
  | .advClose .. => execAdvClose_memOk (h := h) ..
  | .advCloseComplete .. => execAdvCloseComplete_memOk (h := h) ..
  | .seqAdmit .. => execSeqAdmit_memOk (h := h) ..
  | .pause .. => execPause_memOk (h := h) ..
  | .seqResume .. => execSeqResume_memOk (h := h) ..
  | .seqStop .. => execSeqStop_memOk (h := h) ..
  | .retire .. => execRetire_memOk (h := h) ..
  | .grow .. => execGrow_memOk (h := h) ..
  | .step .. => execStep_memOk (h := h) ..
  | .stepNoadv .. => execStepNoadv_memOk (h := h) ..
  | .batchReset .. => execBatchReset_memOk (h := h) ..
  | .stepComplete .. => execStepComplete_memOk (h := h) ..
  | .balNext .. => execBalNext_memOk (h := h) ..
  | .pairReceive .. => execPairReceive_memOk (h := h) ..
  | .retrain .. => execRetrain_memOk (h := h) ..
  | .lossOfSignal .. => execLossOfSignal_memOk (h := h) ..
  | .signalDetect .. => execSignalDetect_memOk (h := h) ..
  | .trainingComplete .. => execTrainingComplete_memOk (h := h) ..
  | .trainTimeout .. => execTrainTimeout_memOk (h := h) ..
  | .alignComplete .. => execAlignComplete_memOk (h := h) ..
  | .alignTimeout .. => execAlignTimeout_memOk (h := h) ..
  | .hello .. => execHello_memOk (h := h) ..
  | .helloTimeout .. => execHelloTimeout_memOk (h := h) ..
  | .linkDownFrame .. => execLinkDownFrame_memOk (h := h) ..
  | .spanPortEnable .. => execSpanPortEnable_memOk (h := h) ..
  | .frameJoinTimeout .. => execFrameJoinTimeout_memOk (h := h) ..
  | .rread .. => execRread_memOk (h := h) ..
  | .rwrite .. => execRwrite_memOk (h := h) ..
  | .rdata .. => execRdata_memOk (h := h) ..
  | .rack .. => execRack_memOk (h := h) ..
  | .chan .. => execChan_memOk (h := h) ..
  | .chreq .. => execChreq_memOk (h := h) ..
  | .chrsp .. => execChrsp_memOk (h := h) ..
  | .refuse .. => execRefuse_memOk (h := h) ..
  | .requestTimeout .. => execRequestTimeout_memOk (h := h) ..
  | .exportWindowClose .. => execExportWindowClose_memOk (h := h) ..
  | .pairActive .. => execPairActive_memOk (h := h) ..
  | .pairMirror .. => execPairMirror_memOk (h := h) ..
  | .pairingTimeout .. => execPairingTimeout_memOk (h := h) ..
  | .unpair .. => execUnpair_memOk (h := h) ..
  | .handover .. => execHandover_memOk (h := h) ..
  | .takeover .. => execTakeover_memOk (h := h) ..
  | .takeoverComplete .. => execTakeoverComplete_memOk (h := h) ..
  | .beatSend .. => execBeatSend_memOk (h := h) ..
  | .beatReceive .. => execBeatReceive_memOk (h := h) ..
  | .heartbeatLoss .. => execHeartbeatLoss_memOk (h := h) ..
  | .mirrorEnable .. => execMirrorEnable_memOk (h := h) ..
  | .mirrorDisable .. => execMirrorDisable_memOk (h := h) ..
  | .ctlEnable .. => execCtlEnable_memOk (h := h) ..
  | .ctlDisable .. => execCtlDisable_memOk (h := h) ..
  | .ctlHandover .. => execCtlHandover_memOk (h := h) ..
  | .ctlrsp .. => execCtlrsp_memOk (h := h) ..
  | .twinCommit .. => execTwinCommit_memOk (h := h) ..
  | .resync .. => execResync_memOk (h := h) ..
  | .mwrite .. => execMwrite_memOk (h := h) ..
  | .mrec .. => execMrec_memOk (h := h) ..
  | .commitFrame .. => execCommitFrame_memOk (h := h) ..
  | .cack .. => execCack_memOk (h := h) ..
  | .mack .. => execMack_memOk (h := h) ..
  | .commitApplied .. => execCommitApplied_memOk (h := h) ..
  | .assign .. => execAssign_memOk (h := h) ..
  | .releaseJob .. => execReleaseJob_memOk (h := h) ..
  | .releaseWipeComplete .. => execReleaseWipeComplete_memOk (h := h) ..
  | .reclaim .. => execReclaim_memOk (h := h) ..
  | .yield .. => execYield_memOk (h := h) ..
  | .reclaimDeadline .. => execReclaimDeadline_memOk (h := h) ..
  | .evacuate .. => execEvacuate_memOk (h := h) ..
  | .evacuationComplete .. => execEvacuationComplete_memOk (h := h) ..
  | .evacuationFailure .. => execEvacuationFailure_memOk (h := h) ..
  | .accountingWindowEnd .. => execAccountingWindowEnd_memOk (h := h) ..
  | .calibrationInterval .. => execCalibrationInterval_memOk (h := h) ..
  | .sqTail .. => execSqTail_memOk (h := h) ..
  | .cqHead .. => execCqHead_memOk (h := h) ..
  | .sheet .. => execSheet_memOk (h := h) ..
  | .entryFetch .. => execEntryFetch_memOk (h := h) ..
  | .completionRecordWrite .. => execCompletionRecordWrite_memOk (h := h) ..
  | .ringDisable .. => execRingDisable_memOk (h := h) ..
  | .functionLevelReset .. => execFunctionLevelReset_memOk (h := h) ..
  | .memoryWindowRead .. => execMemoryWindowRead_memOk (h := h) ..
  | .memoryWindowWrite .. => execMemoryWindowWrite_memOk (h := h) ..
  | .hostSadd .. => execHostSadd_memOk (h := h) ..
  | .seq .. => execSeq_memOk (h := h) ..
  | .stkcmd .. => execStkcmd_memOk (h := h) ..
  | .copy .. => execCopy_memOk (h := h) ..
  | .copyComplete .. => execCopyComplete_memOk (h := h) ..
  | .hostNop .. => execHostNop_memOk (h := h) ..
  | .twin .. => execTwin_memOk (h := h) ..
  | .irqEvent .. => execIrqEvent_memOk (h := h) ..
  | .irqClaim .. => execIrqClaim_memOk (h := h) ..
  | .irqComplete .. => execIrqComplete_memOk (h := h) ..
  | .wakeWatchEvent .. => execWakeWatchEvent_memOk (h := h) ..
  | .wakeLatchDeliver .. => execWakeLatchDeliver_memOk (h := h) ..
  | .errorReport .. => execErrorReport_memOk (h := h) ..
  | .errlogTail .. => execErrlogTail_memOk (h := h) ..
  | .coreFence .. => execCoreFence_memOk (h := h) ..
  | .deviceFault .. => execDeviceFault_memOk (h := h) ..
  | .vatHostMsg .. => execVatHostMsg_memOk (h := h) ..
  | .hostToMgmt .. => execHostToMgmt_memOk (h := h) ..
  | .mgmtToHost .. => execMgmtToHost_memOk (h := h) ..
  | .dvfsSwitch .. => execDvfsSwitch_memOk (h := h) ..
  | .droopTrip .. => execDroopTrip_memOk (h := h) ..
  | .stretchEnd .. => execStretchEnd_memOk (h := h) ..
  | .thermalSample .. => execThermalSample_memOk (h := h) ..
  | .throttleStep .. => execThrottleStep_memOk (h := h) ..
  | .throttleRecovery .. => execThrottleRecovery_memOk (h := h) ..
  | .powerSample .. => execPowerSample_memOk (h := h) ..
  | .capWindow .. => execCapWindow_memOk (h := h) ..
  | .capRiseWindow .. => execCapRiseWindow_memOk (h := h) ..
  | .telemetryUpdate .. => execTelemetryUpdate_memOk (h := h) ..
  | .coreGate .. => execCoreGate_memOk (h := h) ..
  | .clusterPowerRequest .. => execClusterPowerRequest_memOk (h := h) ..
  | .clusterPowerEntry .. => execClusterPowerEntry_memOk (h := h) ..
  | .clusterWakeComplete .. => execClusterWakeComplete_memOk (h := h) ..
  | .sleepRequest .. => execSleepRequest_memOk (h := h) ..
  | .deviceWake .. => execDeviceWake_memOk (h := h) ..
  | .moduleStart .. => execModuleStart_memOk (h := h) ..
  | .moduleStop .. => execModuleStop_memOk (h := h) ..
  | .coldReset .. => execColdReset_memOk (h := h) ..
  | .resetCold .. => execResetCold_memOk (h := h) ..
  | .resetWarm .. => execResetWarm_memOk (h := h) ..
  | .warmReset .. => execWarmReset_memOk (h := h) ..
  | .perstAssert .. => execPerstAssert_memOk (h := h) ..
  | .perstDeassert .. => execPerstDeassert_memOk (h := h) ..
  | .romBoot .. => execRomBoot_memOk (h := h) ..
  | .protSeal .. => execProtSeal_memOk (h := h) ..
  | .vmStart .. => execVmStart_memOk (h := h) ..
  | .vmChtabApply .. => execVmChtabApply_memOk (h := h) ..
  | .lifecycleRequest .. => execLifecycleRequest_memOk (h := h) ..
  | .lifecycleStrapSample .. => execLifecycleStrapSample_memOk (h := h) ..
  | .fuseProg .. => execFuseProg_memOk (h := h) ..
  | .fuseProgramComplete .. => execFuseProgramComplete_memOk (h := h) ..
  | .s1StrapChange .. => execS1StrapChange_memOk (h := h) ..
  | .extest .. => execExtest_memOk (h := h) ..
  | .dapRead .. => execDapRead_memOk (h := h) ..
  | .dapWrite .. => execDapWrite_memOk (h := h) ..
  | .dapHalt .. => execDapHalt_memOk (h := h) ..
  | .dapResume .. => execDapResume_memOk (h := h) ..
  | .dapStep .. => execDapStep_memOk (h := h) ..
  | .dapStepTimeout .. => execDapStepTimeout_memOk (h := h) ..
  | .dapNop .. => execDapNop_memOk (h := h) ..
  | .dapTransactionComplete .. => execDapTransactionComplete_memOk (h := h) ..
  | .getAcct .. => execGetAcct_memOk (h := h) ..
  | .getLog .. => execGetLog_memOk (h := h) ..
  | .getLc .. => execGetLc_memOk (h := h) ..
  | .mctpReset .. => execMctpReset_memOk (h := h) ..
  | .lcReq .. => execLcReq_memOk (h := h) ..
  | .firmwareUpdate .. => execFirmwareUpdate_memOk (h := h) ..
  | .flashRead .. => execFlashRead_memOk (h := h) ..
  | .flashProgram .. => execFlashProgram_memOk (h := h) ..
  | .flashErase .. => execFlashErase_memOk (h := h) ..
  | .flashCommandComplete .. => execFlashCommandComplete_memOk (h := h) ..
  | .rcRead .. => execRcRead_memOk (h := h) ..
  | .wideRegisterRead .. => execWideRegisterRead_memOk (h := h) ..
  | .coreViewAccess .. => execCoreViewAccess_memOk (h := h) ..
  | .scanWindowAccess .. => execScanWindowAccess_memOk (h := h) ..
  | .syncCtrSet .. => execSyncCtrSet_memOk (h := h) ..
  | .connClose .. => execConnClose_memOk (h := h) ..
  | .registerWrite .. => execRegisterWrite_memOk (h := h) ..
  | .reservedMop .. => execReservedMop_memOk (h := h) ..
  | .resetWipeComplete .. => execResetWipeComplete_memOk (h := h) ..
  | .bankRefresh .. => execBankRefresh_memOk (h := h) ..
  | .spillWriteAck .. => execSpillWriteAck_memOk (h := h) ..
  | .pairSend .. => execPairSend_memOk (h := h) ..
  | .hostLinkUp .. => execHostLinkUp_memOk (h := h) ..
  | .hostLinkDown .. => execHostLinkDown_memOk (h := h) ..
  | .hotReset .. => execHotReset_memOk (h := h) ..
  | .hostReadCompletion .. => execHostReadCompletion_memOk (h := h) ..
  | .dmaCompletionTimeout .. => execDmaCompletionTimeout_memOk (h := h) ..
  | .testLogicReset .. => execTestLogicReset_memOk (h := h) ..

/-- The queue of waiting commands is no part of the memories. -/
theorem State.MemOk.withPending {s : State} (h : s.MemOk) (l : List Instr) : State.MemOk { s with pending := l } :=
  h.of_same rfl rfl

/-- Settles O59: a step is a command at the front of the queue or the passage of time, and both keep the form. -/
theorem stepKeepsMemoryForm : Obligations.StepKeepsMemoryForm := by
  unfold Obligations.StepKeepsMemoryForm
  intro s t h hstep
  cases hp : s.pending with
  | nil =>
    have htick : t = s.tick := by
      rw [step_idle hp] at hstep
      exact (Host.Outcome.next.inj hstep).symm
    rw [htick]
    exact State.tick_memOk h
  | cons i l =>
    have hexec : exec i { s with pending := l } = .next t := by
      rw [← step_command, ← hp]
      exact hstep
    have hkeep := exec_memOk i (h.withPending l)
    rw [hexec] at hkeep
    exact hkeep

/-! ## Mesh packets (R227, R228, R232, R245, R344) -/

section
variable {r p h : Nat} {data : List Byte} {k : NetMarks} {s : State}

theorem exec_meshPacketRoute_fault (hdr : meshHdrOk h = false) : exec (.meshPacketRoute r p h data k) s = .next (s.meshBad r h) := by
  simp only [exec, execMeshPacketRoute, hdr, Bool.not_false, if_true]

theorem exec_meshPacketRoute_multicast (hdr : meshHdrOk h = true) (hsel : mhSel h = 2) :
    exec (.meshPacketRoute r p h data k) s = .next (s.meshMulti r p h data k.bad k.behind) := by
  simp only [exec, execMeshPacketRoute, hdr, hsel, Bool.not_true, Bool.false_eq_true, if_false, if_true]

/-- Away from its destination a packet leaves by the link toward it (R227). -/
theorem exec_meshPacketRoute_link (hdr : meshHdrOk h = true) (hsel : mhSel h ≠ 2) (hd : portToward r (mhDst h) ≠ pLocal) :
    exec (.meshPacketRoute r p h data k) s =
      .next (s.meshLeave r (if portToward r (mhDst h) = pEast then 1 else if portToward r (mhDst h) = pWest then 2
        else if portToward r (mhDst h) = pNorth then 3 else 4) h data k.bad k.behind) := by
  simp only [exec, execMeshPacketRoute, hdr, hsel, hd, Bool.not_true, Bool.false_eq_true, if_false]

theorem exec_meshPacketRoute_edge (hdr : meshHdrOk h = true) (hsel : mhSel h = 1) (hd : portToward r (mhDst h) = pLocal) :
    exec (.meshPacketRoute r p h data k) s = .next (s.meshLeave r 5 h data k.bad k.behind) := by
  simp only [exec, execMeshPacketRoute, hdr, hsel, hd, Bool.not_true, Bool.false_eq_true, if_false, if_true,
    show (1 : Nat) ≠ 2 by decide]

/-- At its destination a packet enters the core unless the position is out of service (R245). -/
theorem exec_meshPacketRoute_core (hdr : meshHdrOk h = true) (hsel : mhSel h = 0) (hd : portToward r (mhDst h) = pLocal) :
    exec (.meshPacketRoute r p h data k) s =
      .next (if s.portShut r then s.meshShut r h else s.meshLeave r 0 h data k.bad k.behind) := by
  simp only [exec, execMeshPacketRoute, hdr, hsel, hd, Bool.not_true, Bool.false_eq_true, if_false, if_true,
    show (0 : Nat) ≠ 2 by decide, show (0 : Nat) ≠ 1 by decide]

end

/-! ## Multicast and contention (R228, R344) -/

/-- A copy of a multicast packet at port `q`: none if the entry does not name it, else it leaves, or meets a core out of service. -/
def State.meshCopy (r h : Nat) (data : List Byte) (bad behind : List Nat) (m : Nat) (s : State) (q : Nat) : State :=
  if bit m q = false then s else if q = 0 ∧ s.portShut r = true then s.meshShut r h else s.meshLeave r q h data bad behind

/-- May the packet `h`, arrived by port `p`, not go by entry `e`: the entry is empty, of another vat, or it turns a packet of the north or south
port to the side (R228)? -/
def mcastBarred (e : RouteEnt) (p h : Nat) : Prop :=
  e.valid = false ∨ e.vat ≠ mhVat h ∨ ((p = 3 ∨ p = 4) ∧ (bit e.outMask.toNat 1 = true ∨ bit e.outMask.toNat 2 = true))

theorem mcastBarred_iff (e : RouteEnt) (p h : Nat) :
    (!e.valid || e.vat != mhVat h || ((p = 3 || p = 4) && (bit e.outMask.toNat 1 || bit e.outMask.toNat 2))) = true ↔ mcastBarred e p h := by
  simp [mcastBarred, or_assoc]

section
variable {r p h : Nat} {s : State} (data : List Byte) (bad behind : List Nat)

theorem State.meshMulti_copies (hgo : ¬ mcastBarred (s.route r (fld h 40 6)) p h) :
    s.meshMulti r p h data bad behind =
      (List.range 5).foldl (State.meshCopy r h data bad behind (s.route r (fld h 40 6)).outMask.toNat) s := by
  rw [State.meshMulti, if_neg (mt (mcastBarred_iff _ p h).mp hgo)]
  congr 1
  funext u q
  simp [State.meshCopy]

/-- No copy leaves, and the source is refused with E_STATE. -/
theorem State.meshMulti_refused (hstop : mcastBarred (s.route r (fld h 40 6)) p h) :
    s.meshMulti r p h data bad behind =
      ((s.modDrops (clusterOf r) (fun x => { x with routeDrop := min 0xFFFF (x.routeDrop + 1) })).log (srcNode (clusterOf r)) evDropped eState
        (some (mhVat h)) (mhSrc h * 2 ^ 48) (mhKind h)).meshRefuse r h eState := by
  rw [State.meshMulti, if_pos ((mcastBarred_iff _ p h).mpr hstop)]
  rfl

/-- A hop charges the flits to the packet's vat (Table 16.3). -/
theorem State.meshLeave_eq (port : Nat) :
    s.meshLeave r port h data bad behind =
      (if 1 ≤ port ∧ port ≤ 4 then (s.foreign (mhVat h) behind).account (mhVat h) 11 (mhFlits h) else s.foreign (mhVat h) behind).send
        (.mesh r port h data bad) := by
  simp only [State.meshLeave, Bool.and_eq_true, decide_eq_true_eq]

end

theorem State.foreign_nil (s : State) (v : Nat) : s.foreign v [] = s := rfl

/-- A packet that waited behind one of vat `v` counts for its own vat when that is another one, RUNNING in deterministic mode (R344). -/
theorem State.foreign_cons (s : State) (v w : Nat) (behind : List Nat) :
    s.foreign v (w :: behind) =
      (if w ≠ v ∧ w < 16 ∧ (s.vat w).st = .running ∧ (s.vat w).det.detOn = true then s.detBreak w 0x12 else s).foreign v behind := by
  simp only [State.foreign, List.foldl_cons, Bool.and_eq_true, bne_iff_ne, beq_iff_eq, decide_eq_true_eq, and_assoc]

/-! ## Control packets (R236, R238, R246) -/

section
variable {n p h : Nat} {pay : List Byte} {k : NetMarks} {s : State}

theorem exec_ctlPacketRoute_fault (hdr : ctlHdrOk h = false) (pay : List Byte × NetMarks) :
    exec (.ctlPacketRoute n p h pay) s = .next (
      let u := (s.modDrops (dropNode n) (fun x => { x with badHdr := min 0xFFFF (x.badHdr + 1) })).log (srcNode (dropNode n)) evDropped eFormat none
        (coreNo (fld h 18 6) (fld h 24 6) * 2 ^ 48) (chOp h)
      if ctlAsks h then u.ctlAnswer n h eFormat else u) := by
  simp only [exec, execCtlPacketRoute, hdr, Bool.not_false, if_true]
  rfl

/-- On its way a packet leaves by the port toward its target. -/
theorem exec_ctlPacketRoute_transit (hdr : ctlHdrOk h = true) (ht : n ≠ ctlTarget h) :
    exec (.ctlPacketRoute n p h (pay, k)) s = .next (s.ctlLeave n (ctlPort n (ctlTarget h)) h pay k.bad k.behind) := by
  simp only [exec, execCtlPacketRoute, hdr, Bool.not_true, Bool.false_eq_true, if_false, bne_iff_ne, ne_eq, ht, not_false_eq_true, if_true]

/-- A SYNC at its node waits there for the node's counters, with its port's place in the order of R283. -/
theorem exec_ctlPacketRoute_sync (hdr : ctlHdrOk h = true) (ht : n = ctlTarget h) (hop : chOp h = 1) (hkind : chDstKind h ≠ 0) :
    exec (.ctlPacketRoute n p h (pay, k)) s = .next (s.modPresented (ctrNode (fld h 64 15)) (fun l =>
      l ++ [{ port := if p = 3 then 0 else if p = 1 then 1 else if p = 4 then 2 else if p = 2 then 3 else 4,
              ctr := fld h 64 15, amount := fld h 80 32, sub := bit h 79 }])) := by
  simp [exec, execCtlPacketRoute, hdr, ← ht, hop, hkind]

theorem exec_ctlPacketRoute_core (hdr : ctlHdrOk h = true) (ht : n = ctlTarget h) (hkind : chDstKind h = 0) :
    exec (.ctlPacketRoute n p h (pay, k)) s = .next (
      if s.portShut (coreNo (fld h 0 6) (fld h 6 6)) = true then
        let u := s.modDrops (dropNode n) (fun x => { x with ctlFenced := min 0xFFFF (x.ctlFenced + 1) })
        if ctlAsks h then u.ctlAnswer n h eFenced else u
      else s.ctlLeave n 0 h pay k.bad k.behind) := by
  simp [exec, execCtlPacketRoute, hdr, ← ht, hkind, satAdd, top16]

/-- What is neither for a counter nor for a core goes to the unit at the node. -/
theorem exec_ctlPacketRoute_unit (hdr : ctlHdrOk h = true) (ht : n = ctlTarget h) (hop : chOp h ≠ 1) (hkind : chDstKind h ≠ 0) :
    exec (.ctlPacketRoute n p h (pay, k)) s = .next (s.ctlLeave n (ctlPort n (ctlTarget h)) h pay k.bad k.behind) := by
  simp [exec, execCtlPacketRoute, hdr, ← ht, hop, hkind]

end

/-! ## The port of a control packet: X, then Y (R236) -/

/-- The node a packet for `t` travels to: the hub stands beyond node 3. -/
def ctlGoal (t : Nat) : Nat := if t = hubNode then 3 else t

/-- Between the nodes of the clusters a packet moves along its row to the column of its goal, and then along that column. -/
theorem ctlPort_node {n t : Nat} (hn : n < 64) (ht : n ≠ t) :
    ctlPort n t = if n % 8 < ctlGoal t % 8 then 1 else if ctlGoal t % 8 < n % 8 then 2
      else if n / 8 < ctlGoal t / 8 then 4 else if ctlGoal t / 8 < n / 8 then 3 else 5 := by
  have hhub : n ≠ hubNode := Nat.ne_of_lt hn
  simp only [ctlPort, ht, hhub, if_false]
  rfl

theorem ctlPort_east {n t : Nat} (hn : n < 64) (ht : n ≠ t) (hx : n % 8 < ctlGoal t % 8) : ctlPort n t = 1 := by
  rw [ctlPort_node hn ht, if_pos hx]

theorem ctlPort_west {n t : Nat} (hn : n < 64) (ht : n ≠ t) (hx : ctlGoal t % 8 < n % 8) : ctlPort n t = 2 := by
  rw [ctlPort_node hn ht, if_neg (Nat.lt_asymm hx), if_pos hx]

theorem ctlPort_south {n t : Nat} (hn : n < 64) (ht : n ≠ t) (hx : n % 8 = ctlGoal t % 8) (hy : n / 8 < ctlGoal t / 8) : ctlPort n t = 4 := by
  rw [ctlPort_node hn ht, if_neg hx.not_lt, if_neg hx.not_gt, if_pos hy]

theorem ctlPort_north {n t : Nat} (hn : n < 64) (ht : n ≠ t) (hx : n % 8 = ctlGoal t % 8) (hy : ctlGoal t / 8 < n / 8) : ctlPort n t = 3 := by
  rw [ctlPort_node hn ht, if_neg hx.not_lt, if_neg hx.not_gt, if_neg (Nat.lt_asymm hy), if_pos hy]

theorem ctlPort_hub : ctlPort 3 hubNode = 5 := rfl

/-! ## Fence notices (R222, R247) -/

section
variable {c : Nat} {s : State} (hf : s.net.fenced.has c = true)
include hf

theorem exec_fenceNotice_router : exec (.fenceNotice c none) s = .next { s with net := { s.net with fenceSeen := s.net.fenceSeen.add c } } := by
  simp only [exec, execFenceNotice, hf, Bool.not_true, Bool.false_eq_true, if_false]

theorem exec_fenceNotice_copy (k : Nat) :
    exec (.fenceNotice c (some k)) s = .next { s with net := { s.net with remapSeen := s.net.remapSeen.add (8192 * k + c) } } := by
  simp only [exec, execFenceNotice, hf, Bool.not_true, Bool.false_eq_true, if_false]

end

/-! ## The scratchpad window (R30, R245, R248) -/

section
variable {c off n : Nat} {data : List Byte} {bad : List Nat} {w : WinBy} {s : State} (hrun : s.clRun (clusterOf c) = true)
include hrun

/-- A READ that reaches a core out of service is counted and answered. -/
theorem exec_windowRead_shut (hshut : s.portShut c = true) :
    exec (.windowRead c off n w) s =
      .next ((s.modDrops (clusterOf c) (fun x => { x with meshFenced := min 0xFFFF (x.meshFenced + 1) })).send (.winAnswer w eFenced [] [])) := by
  simp only [exec, execWindowRead, hrun, hshut, Bool.not_true, Bool.false_eq_true, if_false, if_true]
  rfl

theorem exec_windowRead_open (hopen : s.portShut c = false) :
    exec (.windowRead c off n w) s = .next (
      if s.windowCheck c off n w false = eOk then
        ((s.extAccess c w).noteRead c off n).send
          (.winAnswer w eOk ((s.spad c).mem.readBytes off n) ((List.range n).filter (fun i => (s.spad c).badAt (off + i))))
      else ((s.extAccess c w).log (srcCore c) evRefused (s.windowCheck c off n w false) (s.vatOfCore c) off 1).send
        (.winAnswer w (s.windowCheck c off n w false) [] [])) := by
  simp only [exec, execWindowRead, hrun, hopen, Bool.not_true, Bool.false_eq_true, if_false, bne_iff_ne, ite_not]

theorem exec_windowWrite_open (hopen : s.portShut c = false) :
    exec (.windowWrite c off data bad w) s = .next (
      if s.windowCheck c off data.length w true = eOk then
        ((s.extAccess c w).spadPut c off data (fun i => bad.contains i)).send (.winAnswer w eOk [] [])
      else ((s.extAccess c w).log (srcCore c) evRefused (s.windowCheck c off data.length w true) (s.vatOfCore c) off 2).send
        (.winAnswer w (s.windowCheck c off data.length w true) [] [])) := by
  simp only [exec, execWindowWrite, hrun, hopen, Bool.not_true, Bool.false_eq_true, if_false, bne_iff_ne, ite_not]

end

/-- Settles O26: each route, answer and window access by the lemma of its case. -/
theorem networks : Obligations.Networks := by
  unfold Obligations.Networks
  refine ⟨?mesh, ?multicast, ?leave, ?ctl, ?ctlFault, ?ctlPorts, ?sync, ?fence, ?window⟩
  case mesh =>
    intro r p h data k s
    exact ⟨exec_meshPacketRoute_fault, exec_meshPacketRoute_link, exec_meshPacketRoute_edge, exec_meshPacketRoute_core,
      exec_meshPacketRoute_multicast⟩
  case multicast =>
    intro r p h data bad behind s
    refine ⟨fun hvalid hvat hside => State.meshMulti_copies data bad behind ?_, State.meshMulti_refused data bad behind⟩
    simp only [mcastBarred, hvalid, hvat, ne_eq, not_true_eq_false, Bool.true_eq_false, false_or]
    exact hside
  case leave =>
    intro r port h v w data bad behind s
    exact ⟨State.meshLeave_eq data bad behind port, State.foreign_nil s v, State.foreign_cons s v w behind⟩
  case ctl =>
    intro n p h pay k s hdr
    refine ⟨exec_ctlPacketRoute_transit hdr, exec_ctlPacketRoute_sync hdr, fun ht hkind hopen => ?_, fun ht hkind hshut => ?_,
      exec_ctlPacketRoute_unit hdr⟩
    · rw [exec_ctlPacketRoute_core hdr ht hkind, if_neg (Bool.eq_false_iff.mp hopen)]
      rfl
    · rw [exec_ctlPacketRoute_core hdr ht hkind, if_pos hshut]
  case ctlFault =>
    intro n p h pay s hdr
    exact exec_ctlPacketRoute_fault hdr pay
  case ctlPorts =>
    intro h
    refine ⟨fun n hn ht => ctlPort_east hn ht, fun n hn ht => ctlPort_west hn ht, fun n hn ht => ctlPort_south hn ht,
      fun n hn ht => ctlPort_north hn ht, fun hhub => ?_⟩
    rw [hhub]
    exact ctlPort_hub
  case sync =>
    intro n s
    rfl
  case fence =>
    intro c k s hf
    exact ⟨exec_fenceNotice_router hf, exec_fenceNotice_copy hf k⟩
  case window =>
    intro c off n data bad w s hrun
    refine ⟨exec_windowRead_shut hrun, fun hopen hok => ?_, fun hopen hbad => ?_, fun hopen hok => ?_, fun hopen hbad => ?_⟩
    · rw [exec_windowRead_open hrun hopen, if_pos hok]
    · rw [exec_windowRead_open hrun hopen, if_neg hbad]
    · rw [exec_windowWrite_open hrun hopen, if_pos hok]
    · rw [exec_windowWrite_open hrun hopen, if_neg hbad]

end Sys2Proof.Machine
end

section
/-! PROOFS. The control processor's arithmetic, compares and scratchpad accesses (O1 to O5). -/

namespace Sys2Proof.Machine

/-! ## Instructions that write a register or a predicate (R75, R79, R82, R84) -/

section
variable {s : State} {c : Nat} {g : Guard} (h : s.goes c g = true)
include h

/-- An instruction whose work is to leave the control processor as `f` makes it. -/
theorem State.instr_setCtl (w : W32) (f : Ctl → Ctl) :
    (.next (s.instr c g w (fun k => s.setCtl c (f k))) : Res) = s.ends c (f (s.ctl c)) := by
  rw [State.instr_goes w _ h]
  rfl

theorem State.instr_retire (w : W32) (rd : Reg) (f : Ctl → W64) :
    (.next (s.instr c g w (fun k => s.retire c k rd (f k))) : Res) = s.ends c ((s.ctl c).wg rd (f (s.ctl c))).adv :=
  State.instr_setCtl h w (fun k => (k.wg rd (f k)).adv)

theorem State.cmp_goes (w : W32) (pd : BitVec 3) {f : Ctl → Bool} {b : Bool} (hb : f (s.ctl c) = b) :
    (.next (s.cmp c g w pd f) : Res) = s.ends c ((s.ctl c).wp pd b).adv := by
  rw [← hb]
  exact State.instr_setCtl h w (fun k => (k.wp pd (f k)).adv)

end

/-- Settles O1: every instruction of format R writes the value of its function to rd (R82, R83). -/
theorem aluRegister : Obligations.AluRegister := by
  unfold Obligations.AluRegister
  intro c g rd rs1 rs2 s h k a b
  have signed : ∀ x y : W64, (if a.slt b then x else y) = if a.toInt < b.toInt then x else y :=
    fun _ _ => if_congr decide_eq_true_iff rfl rfl
  have unsigned : ∀ x y : W64, (if a.ult b then x else y) = if a.toNat < b.toNat then x else y :=
    fun _ _ => if_congr decide_eq_true_iff rfl rfl
  simp only [← signed, ← unsigned]
  have alu := fun op f => State.instr_retire h (encR op g rd rs1 rs2 0) rd f
  exact ⟨alu _ _, alu _ _, alu _ _, alu _ _, alu _ _, alu _ _, alu _ _, alu _ _, alu _ _, alu _ _, alu _ _, alu _ _, alu _ _, alu _ _,
    alu _ _, alu _ _, alu _ _, alu _ _, alu _ _⟩

/-- Settles O2: every instruction with an immediate writes the value of its function to rd (R82). -/
theorem aluImmediate : Obligations.AluImmediate := by
  unfold Obligations.AluImmediate
  intro c g rd rs1 imm sh u s h k a
  have alu := fun w f => State.instr_retire h w rd f
  exact ⟨alu _ _, alu _ _, alu _ _, alu _ _, alu _ _, alu _ _, alu _ _, alu _ _, alu _ _⟩

/-! ## Compares (R84) -/

section
variable (a b : W64)

theorem not_slt_eq_decide : (!a.slt b) = decide (b.toInt ≤ a.toInt) :=
  decide_not.symm.trans (decide_eq_decide.mpr Int.not_lt)

theorem not_ult_eq_decide : (!a.ult b) = decide (b.toNat ≤ a.toNat) :=
  decide_not.symm.trans (decide_eq_decide.mpr Nat.not_lt)

end

/-- Settles O3: each compare by the relation it tests; a written predicate reads back and no other changes (R75). -/
theorem compareAndPredicate : Obligations.CompareAndPredicate := by
  unfold Obligations.CompareAndPredicate
  refine ⟨?compare, ?predicate, fun k b => ⟨rfl, rfl⟩, fun k i j b hi => Ctl.rp_wp k i j b hi⟩
  case compare =>
    intro c g pd rs1 rs2 imm s h k a b i
    exact ⟨State.cmp_goes h _ pd rfl, State.cmp_goes h _ pd decide_not.symm, State.cmp_goes h _ pd rfl,
      State.cmp_goes h _ pd (not_slt_eq_decide a b), State.cmp_goes h _ pd rfl, State.cmp_goes h _ pd (not_ult_eq_decide a b),
      State.cmp_goes h _ pd rfl, State.cmp_goes h _ pd decide_not.symm, State.cmp_goes h _ pd rfl,
      State.cmp_goes h _ pd (not_slt_eq_decide a i), State.cmp_goes h _ pd rfl, State.cmp_goes h _ pd (not_ult_eq_decide a i)⟩
  case predicate =>
    intro c g pd pa na pb nb rd rs1 s h k x y
    exact ⟨State.cmp_goes h _ pd rfl, State.cmp_goes h _ pd rfl, State.cmp_goes h _ pd rfl, State.instr_retire h _ rd _,
      nexts (State.instr_goes _ _ h)⟩

/-! ## Scratchpad loads and stores (R85, R86, R190) -/

section
variable {s : State} {c : Nat} {g : Guard} {rs1 : Reg} {imm : BitVec 10} {n : Nat} (h : s.goes c g = true)
include h

theorem State.load_misaligned (op : BitVec 8) (rd : Reg) (ext : Nat → W64) (hal : ((s.ctl c).ea rs1 imm n).toNat % n ≠ 0) :
    (.next (s.load op c g rd rs1 imm n ext) : Res) = s.raises c cAlign eRange (s.ctl c).pc ((s.ctl c).ea rs1 imm n) := by
  rw [State.load, State.instr_goes _ _ h, if_pos (bne_iff_ne.mpr hal)]
  rfl

theorem State.store_misaligned (op : BitVec 8) (rs2 : Reg) (hal : ((s.ctl c).ea rs1 imm n).toNat % n ≠ 0) :
    (.next (s.store op c g rs2 rs1 imm n) : Res) = s.raises c cAlign eRange (s.ctl c).pc ((s.ctl c).ea rs1 imm n) := by
  rw [State.store, State.instr_goes _ _ h, if_pos (bne_iff_ne.mpr hal)]
  rfl

variable (hal : ((s.ctl c).ea rs1 imm n).toNat % n = 0)
include hal

theorem State.load_outside (op : BitVec 8) (rd : Reg) (ext : Nat → W64) (hout : spadSize ≤ ((s.ctl c).ea rs1 imm n).toNat) :
    (.next (s.load op c g rd rs1 imm n ext) : Res) = s.raises c cRange eRange (s.ctl c).pc ((s.ctl c).ea rs1 imm n) := by
  rw [State.load, State.instr_goes _ _ h, if_neg (by simp [hal]), if_pos hout]
  rfl

theorem State.store_outside (op : BitVec 8) (rs2 : Reg) (hout : spadSize ≤ ((s.ctl c).ea rs1 imm n).toNat) :
    (.next (s.store op c g rs2 rs1 imm n) : Res) = s.raises c cRange eRange (s.ctl c).pc ((s.ctl c).ea rs1 imm n) := by
  rw [State.store, State.instr_goes _ _ h, if_neg (by simp [hal]), if_pos hout]
  rfl

variable (hin : ((s.ctl c).ea rs1 imm n).toNat < spadSize)
include hin

theorem State.load_poisoned (op : BitVec 8) (rd : Reg) (ext : Nat → W64) (hbad : (s.spad c).bad ((s.ctl c).ea rs1 imm n).toNat n = true) :
    let a := (s.ctl c).ea rs1 imm n
    (.next (s.load op c g rd rs1 imm n ext) : Res) = (s.noteRead c a.toNat n).raises c cPoison ePoison (s.ctl c).pc a := by
  intro a
  rw [State.load, State.instr_goes _ _ h, if_neg (by simp [hal]), if_neg (Nat.not_le.mpr hin), if_pos hbad]
  rfl

theorem State.load_goes (op : BitVec 8) (rd : Reg) (ext : Nat → W64) (hgood : (s.spad c).bad ((s.ctl c).ea rs1 imm n).toNat n = false) :
    let a := ((s.ctl c).ea rs1 imm n).toNat
    (.next (s.load op c g rd rs1 imm n ext) : Res) =
      (s.noteRead c a n).ends c ((s.ctl c).wg rd (ext ((s.spad c).nat a n))).adv := by
  intro a
  rw [State.load, State.instr_goes _ _ h, if_neg (by simp [hal]), if_neg (Nat.not_le.mpr hin), if_neg (Bool.eq_false_iff.mp hgood)]
  rfl

theorem State.store_goes (op : BitVec 8) (rs2 : Reg) :
    let a := ((s.ctl c).ea rs1 imm n).toNat
    (.next (s.store op c g rs2 rs1 imm n) : Res) =
      (s.spadStore c a (leBytes n ((s.ctl c).rg rs2).toNat) (fun _ => false)).ends c (s.ctl c).adv := by
  intro a
  rw [State.store, State.instr_goes _ _ h, if_neg (by simp [hal]), if_neg (Nat.not_le.mpr hin)]
  rfl

end

/-- An access to the scratchpad is a load or a store of its size (Table 3.5). -/
theorem exec_spadAccess {i : Instr} {c : Nat} {g : Guard} {rs1 : Reg} {imm : BitVec 10} {n : Nat}
    (hi : spadAccess i = some (c, g, rs1, imm, n)) (s : State) :
    (isLoad i = true ∧ ∃ op rd ext, exec i s = .next (s.load op c g rd rs1 imm n ext)) ∨
      (isLoad i = false ∧ ∃ op rs2, exec i s = .next (s.store op c g rs2 rs1 imm n)) := by
  cases i with
  | ldB | ldBu | ldH | ldHu | ldW | ldWu | ldD => cases hi; exact .inl ⟨rfl, _, _, _, rfl⟩
  | stB | stH | stW | stD => cases hi; exact .inr ⟨rfl, _, _, rfl⟩
  | _ => cases hi

/-- Settles O4: the checks of a load or store in their order, then the access (R85). -/
theorem scratchpadAccess : Obligations.ScratchpadAccess := by
  unfold Obligations.ScratchpadAccess
  refine ⟨?done, ?misaligned, ?outside, ?poisoned⟩
  case done =>
    intro i c g rs1 imm n s hi h hal hin hgood k a v r
    cases i with
    | ldB | ldBu | ldH | ldHu | ldW | ldWu | ldD => cases hi; exact State.load_goes h hal hin _ _ _ (hgood rfl)
    | stB | stH | stW | stD => cases hi; exact State.store_goes h hal hin _ _
    | _ => cases hi
  case misaligned =>
    intro i c g rs1 imm n s hi h hal
    rcases exec_spadAccess hi s with ⟨_, op, rd, ext, he⟩ | ⟨_, op, rs2, he⟩
    · rw [he, State.load_misaligned h op rd ext hal]
    · rw [he, State.store_misaligned h op rs2 hal]
  case outside =>
    intro i c g rs1 imm n s hi h hal hout
    rcases exec_spadAccess hi s with ⟨_, op, rd, ext, he⟩ | ⟨_, op, rs2, he⟩
    · rw [he, State.load_outside h hal op rd ext hout]
    · rw [he, State.store_outside h hal op rs2 hout]
  case poisoned =>
    intro i c g rs1 imm n s hi hload h hal hin hbad a
    rcases exec_spadAccess hi s with ⟨_, op, rd, ext, he⟩ | ⟨hstore, _⟩
    · rw [he, State.load_poisoned h hal hin op rd ext hbad]
    · rw [hload] at hstore
      cases hstore

/-! ## What a store leaves (R190, R350) -/

section
variable (s : State) (c a : Nat) (bs : List Byte) (bad : Nat → Bool)

theorem State.spad_spadPut : (s.spadPut c a bs bad).spad c = (s.spad c).put a bs bad := State.spad_modSpad s c _

theorem State.spad_spadPut_other {d : Nat} (hd : d ≠ c) : (s.spadPut c a bs bad).spad d = s.spad d :=
  State.spad_setSpad_other s c d _ hd

theorem State.spadPut_keeps : { s.spadPut c a bs bad with cores := { (s.spadPut c a bs bad).cores with spads := s.cores.spads } } = s := rfl

end

/-- While the sheet of its vat runs with an output range, a store adds the contribution of the written words to out_crc (R350). -/
theorem State.spadStore_outCrc {s : State} {c v : Nat} (hv : s.vatOfCore c = some v) (hrun : (s.vat v).st = .running)
    (hwm : (s.vat v).det.wmRange ≠ []) (a : Nat) (bs : List Byte) (bad : Nat → Bool) :
    let x := (s.spadPut c a bs bad).vat v
    ((s.spadStore c a bs bad).vat v).det.outCrc = x.det.outCrc + BitVec.ofNat 64 (wmSum x.det.wmRange (s.spadAddr c a) bs bad) := by
  intro x
  have hvat : (s.spadPut c a bs bad).vatOfCore c = some v := hv
  have hnote : (x.st == .running && !x.det.wmRange.isEmpty) = true := by
    have hx : x = s.vat v := rfl
    simp [hx, hrun, hwm]
  simp only [State.spadStore, State.noteCoreWrite, hvat, State.noteWrite]
  rw [if_pos hnote, State.vat_setVat]

/-- Settles O5: what a write to a scratchpad changes and leaves, and what a store adds to out_crc. -/
theorem scratchpadStoreFrame : Obligations.ScratchpadStoreFrame := by
  unfold Obligations.ScratchpadStoreFrame
  refine ⟨?frame, ?readBack, ?outCrc, fun k rs1 imm n => rfl, fun c => rfl⟩
  case frame =>
    intro s c a bs bad t
    refine ⟨fun b hb => ?_, fun w hw => ?_, ?_, ?_, fun d hd => State.spad_spadPut_other s c a bs bad hd, State.spadPut_keeps s c a bs bad⟩ <;>
      simp only [t, State.spad_spadPut, Spad.put]
    · exact Memory.read_writeBytes_other _ _ _ _ hb
    · exact Spad.mark_other _ _ _ _ _ hw
  case readBack =>
    intro s c a bs bad hwf t
    simp only [t, State.spad_spadPut, Spad.put]
    exact ⟨Memory.readBytes_writeBytes _ _ _ hwf, Memory.writeBytes_wf _ _ _ hwf⟩
  case outCrc =>
    intro s c v a bs bad hv hrun hwm u x
    exact ⟨State.spadStore_outCrc hv hrun hwm a bs bad, (State.spadStore_does s c a bs bad).2⟩

end Sys2Proof.Machine
end

section
/-! PROOFS. The control processor's guards, exceptions and control flow (O6 to O9). -/

namespace Sys2Proof.Machine

/-! ## The guard in an instruction word (R79) -/

/-- A word of any width carries guard `g`: gp in the three bits from bit `n`, gn in the bit above them. -/
def GuardAt {m : Nat} (n : Nat) (w : BitVec m) (g : Guard) : Prop := w.extractLsb' n 3 = g.gp ∧ w.getLsbD (n + 3) = g.gn

section
variable (op : BitVec 8) (g : Guard)

theorem guardAt_gbits : GuardAt 0 (op ++ gbits g) g := by
  constructor
  · apply BitVec.eq_of_getLsbD_eq
    intro i hi
    simp only [gbits, BitVec.getLsbD_extractLsb', BitVec.getLsbD_append, Nat.zero_add, hi, decide_true, Bool.true_and,
      show i < 1 + 3 by omega, if_true]
  · rw [Nat.zero_add, BitVec.getLsbD_append, if_pos (by omega), gbits, BitVec.getLsbD_append, if_neg (by omega)]
    cases g.gn <;> rfl

variable {g}

/-- Fields below the guard move it up by their width. -/
theorem GuardAt.append {m n k : Nat} {w : BitVec m} (h : GuardAt n w g) (x : BitVec k) : GuardAt (n + k) (w ++ x) g := by
  obtain ⟨hgp, hgn⟩ := h
  constructor
  · rw [← hgp]
    apply BitVec.eq_of_getLsbD_eq
    intro i hi
    rw [BitVec.getLsbD_extractLsb', BitVec.getLsbD_extractLsb', BitVec.getLsbD_append, if_neg (by omega),
      show n + k + i - k = n + i by omega]
  · rw [← hgn, BitVec.getLsbD_append, if_neg (by omega), show n + k + 3 - k = n + 3 by omega]

variable (g)

theorem guardAt_encR (rd rs1 rs2 fn : BitVec 5) : GuardAt 20 (encR op g rd rs1 rs2 fn) g :=
  ((((guardAt_gbits op g).append rd).append rs1).append rs2).append fn

theorem guardAt_encI (rd rs1 : BitVec 5) (imm : BitVec 10) : GuardAt 20 (encI op g rd rs1 imm) g :=
  (((guardAt_gbits op g).append rd).append rs1).append imm

theorem guardAt_encU (rd : BitVec 5) (imm : BitVec 15) : GuardAt 20 (encU op g rd imm) g :=
  ((guardAt_gbits op g).append rd).append imm

theorem guardAt_encB (off : BitVec 20) : GuardAt 20 (encB op g off) g := (guardAt_gbits op g).append off

theorem guardAt_encC (pd : BitVec 3) (rs1 rs2 : BitVec 5) : GuardAt 20 (encC op g pd rs1 rs2) g :=
  (((((guardAt_gbits op g).append pd).append 0#2).append rs1).append rs2).append 0#5

theorem guardAt_encCI (pd : BitVec 3) (rs1 : BitVec 5) (imm : BitVec 10) : GuardAt 20 (encCI op g pd rs1 imm) g :=
  ((((guardAt_gbits op g).append pd).append 0#2).append rs1).append imm

theorem guardAt_encP (pd pa : BitVec 3) (na : Bool) (pb : BitVec 3) (nb : Bool) : GuardAt 20 (encP op g pd pa na pb nb) g :=
  ((((((guardAt_gbits op g).append pd).append pa).append (BitVec.ofBool na)).append pb).append (BitVec.ofBool nb)).append 0#9

theorem guardAt_encQ (q : BitVec 4) (nb : Bool) (rs1 : BitVec 5) (pd : BitVec 3) (imm : BitVec 7) :
    GuardAt 20 (encQ op g q nb rs1 pd imm) g :=
  (((((guardAt_gbits op g).append q).append (BitVec.ofBool nb)).append rs1).append pd).append imm

theorem guardAt_encX (ib : BitVec 2) (pos lenm1 : BitVec 6) (rs1 : BitVec 5) : GuardAt 20 (encX op g ib pos lenm1 rs1) g :=
  (((((guardAt_gbits op g).append ib).append pos).append lenm1).append 0#1).append rs1

end

/-! ## What every instruction of Chapter 3 does with its guard (R79, R80, R109) -/

/-- Instruction `i` runs under guard `g`: its word carries the guard, and is illegal when it is not fine, whatever the guard. SADD and SSUB
alone may `hold` before they run: they wait for earlier stores, without an effect, and only when their guard holds (log entry 18). -/
def Guarded (s : State) (i : Instr) (c : Nat) (g : Guard) : Prop :=
  ∃ (hold : Bool) (w : W32) (f : Ctl → State), GuardAt 20 w g ∧
    (hold = true → s.wordFine i = true ∧ s.fetchBad c = false ∧ (s.ctl c).guardTrue g = true) ∧
    exec i s = .next (if hold then s else s.instrIf c g w (s.wordFine i) f)

section
variable {s : State} {i : Instr} {c : Nat} {g : Guard} {w : W32} {f : Ctl → State} (hw : GuardAt 20 w g)
include hw

theorem Guarded.of_instrIf (he : exec i s = .next (s.instrIf c g w (s.wordFine i) f)) : Guarded s i c g :=
  ⟨false, w, f, hw, nofun, he⟩

theorem Guarded.of_instr (hfine : s.wordFine i = true) (he : exec i s = .next (s.instr c g w f)) : Guarded s i c g :=
  .of_instrIf (f := f) hw (by rw [he, State.instrIf_ok hfine])

theorem Guarded.of_syncWaits (hfine : s.wordFine i = true) (he : exec i s = .next (if s.syncWaits c g then s else s.instr c g w f)) :
    Guarded s i c g := by
  refine ⟨s.syncWaits c g, w, f, hw, fun hwait => ?_, by rw [he, State.instrIf_ok hfine]⟩
  simp only [State.syncWaits, Bool.and_eq_true, Bool.not_eq_true'] at hwait
  exact ⟨hfine, hwait.1.2, hwait.2⟩

end

theorem guarded_swait (s : State) (c : Nat) (g : Guard) (rs1 rs2 : Reg) (cond : BitVec 3) (dec : Bool) :
    Guarded s (.swait c g rs1 rs2 cond dec) c g := by
  have hw := guardAt_encR 0x7A g 0 rs1 rs2 (BitVec.ofNat 5 (cond.toNat + 8 * b2n dec))
  cases hcond : Cond.ofBits cond.toNat with
  | none => exact .of_instrIf (f := fun _ => s) hw (by simp only [exec, execSwait, State.wordFine, hcond])
  | some cd =>
    by_cases hbad : (dec && (cd == .ne || cd == .lt)) = true
    · exact .of_instrIf (f := fun _ => s) hw (by simp only [exec, execSwait, State.wordFine, hcond, hbad, if_true, Bool.not_true])
    · have hfine : s.wordFine (.swait c g rs1 rs2 cond dec) = true := by
        simp only [State.wordFine, hcond, Bool.eq_false_iff.mpr hbad, Bool.not_false]
      have he : ∃ f, exec (.swait c g rs1 rs2 cond dec) s = .next (s.instr c g _ f) :=
        ⟨_, by simp only [exec, execSwait, hcond, if_neg hbad]; rfl⟩
      obtain ⟨f, he⟩ := he
      exact .of_instr hw hfine he

theorem exec_guarded {i : Instr} {c : Nat} {g : Guard} (hi : guardOf i = some (c, g)) (s : State) : Guarded s i c g := by
  cases i with
  | add | sub | and | or | xor | sll | srl | sra | mul | mulh | mulhu | div | divu | rem | remu | min | max | minu | maxu | sread =>
    cases hi; exact .of_instr (guardAt_encR _ _ _ _ _ _) rfl rfl
  | addi | andi | ori | xori | slli | srli | srai | pget | pset | ldB | ldBu | ldH | ldHu | ldW | ldWu | ldD | stB | stH | stW | stD
  | ldrW | ldrD | strW | strD | jr | jalr =>
    cases hi; exact .of_instr (guardAt_encI _ _ _ _ _) rfl rfl
  | li | lsi => cases hi; exact .of_instr (guardAt_encU _ _ _ _) rfl rfl
  | br | call | eret | endProg | halt | nop | mfence | trap | brk | wfi =>
    cases hi; exact .of_instr (guardAt_encB _ _ _) rfl rfl
  | cmpEq | cmpNe | cmpLt | cmpGe | cmpLtu | cmpGeu => cases hi; exact .of_instr (guardAt_encC _ _ _ _ _) rfl rfl
  | cmpiEq | cmpiNe | cmpiLt | cmpiGe | cmpiLtu | cmpiGeu => cases hi; exact .of_instr (guardAt_encCI _ _ _ _ _) rfl rfl
  | pand | por | pxor => cases hi; exact .of_instr (guardAt_encP _ _ _ _ _ _ _) rfl rfl
  | mfs | mts | mset | mclr => cases hi; exact .of_instrIf (guardAt_encI _ _ _ _ _) rfl
  | dbnz => cases hi; exact .of_instrIf (guardAt_encU _ _ _ _) rfl
  | issue | issueB | qwait => cases hi; exact .of_instrIf (guardAt_encQ _ _ _ _ _ _ _) rfl
  | ibins => cases hi; exact .of_instrIf (guardAt_encX _ _ _ _ _ _) rfl
  | sadd | ssub => cases hi; exact .of_syncWaits (guardAt_encR _ _ _ _ _ _) rfl rfl
  | swait => cases hi; exact guarded_swait s _ _ _ _ _ _
  | _ => cases hi

/-- An instruction that cannot wait for earlier stores runs under its guard. -/
theorem Guarded.runs {s : State} {i : Instr} {c : Nat} {g : Guard} (h : Guarded s i c g)
    (hn : ¬ (s.wordFine i = true ∧ s.fetchBad c = false ∧ (s.ctl c).guardTrue g = true)) :
    ∃ w f, GuardAt 20 w g ∧ exec i s = .next (s.instrIf c g w (s.wordFine i) f) := by
  obtain ⟨hold, w, f, hw, hhold, he⟩ := h
  cases hold with
  | true => exact absurd (hhold rfl) hn
  | false => exact ⟨w, f, hw, he⟩

theorem Guarded.off {s : State} {i : Instr} {c : Nat} {g : Guard} (h : Guarded s i c g) (hoff : s.ctlOn c = false) :
    exec i s = .next s := by
  obtain ⟨hold, w, f, _, _, he⟩ := h
  rw [he, State.instrIf_off hoff, ite_self]

/-- Settles O6: how an instruction meets its guard is the same for all, and each case is a case of that. -/
theorem guardAndReserved : Obligations.GuardAndReserved := by
  unfold Obligations.GuardAndReserved
  refine ⟨?guardFalse, ?guardReserved, ?wordReserved, ?poisoned, fun i c g s hi hoff => (exec_guarded hi s).off hoff⟩
  case guardFalse =>
    intro i c g s hi hon hgood hfine hres hfalse
    obtain ⟨w, f, _, he⟩ := (exec_guarded hi s).runs (fun hall => by simp [hall.2.2] at hfalse)
    rw [he, State.instrIf_ok hfine, State.instr_false hon hgood hres hfalse]
  case guardReserved =>
    intro i c g s hi hon hgood hgn hgp
    obtain ⟨w, f, ⟨hwp, hwn⟩, he⟩ := (exec_guarded hi s).runs (fun hall => by simp [State.guardTrue_reserved hgn hgp] at hall)
    exact ⟨w, hwp, hwn, he.trans (State.instrIf_reserved hon hgood hgn hgp)⟩
  case wordReserved =>
    intro i c g s hi hon hgood hbad
    obtain ⟨w, f, ⟨hwp, hwn⟩, he⟩ := (exec_guarded hi s).runs (fun hall => by simp [hall.1] at hbad)
    exact ⟨w, hwp, hwn, he.trans (State.instrIf_bad hon hgood hbad)⟩
  case poisoned =>
    intro i c g s hi hon hbad pc
    obtain ⟨w, f, _, he⟩ := (exec_guarded hi s).runs (fun hall => by simp [hall.2.1] at hbad)
    rw [he, State.instrIf_poison hon hbad]

/-! ## Exceptions (R93, R94) -/

section
variable {s : State} {c : Nat} (cause : BitVec 8) (status : Nat) (ep v : W64)

theorem State.takeException_double (hexc : (s.ctl c).exc = true) : s.takeException c cause status ep v = s.haltCore c 5 := by
  rw [State.takeException, if_pos hexc]

variable (hexc : (s.ctl c).exc = false)
include hexc

theorem State.takeException_badVector (hvec : inImem c (s.ctl c).evec = false) :
    s.takeException c cause status ep v = s.haltCore c 6 := by
  rw [State.takeException, if_neg (Bool.eq_false_iff.mp hexc), hvec, Bool.not_false, if_pos rfl]

theorem State.takeException_enters (hvec : inImem c (s.ctl c).evec = true) :
    s.takeException c cause status ep v = s.setCtl c ((s.ctl c).enter cause status ep v) := by
  rw [State.takeException, if_neg (Bool.eq_false_iff.mp hexc), hvec, Bool.not_true, if_neg Bool.false_ne_true]

end

/-- Settles O7: the three ways of taking an exception, and what entering HALTED does. -/
theorem exceptionEntry : Obligations.ExceptionEntry := by
  unfold Obligations.ExceptionEntry
  refine ⟨fun s c cause status ep v hexc => State.takeException_double cause status ep v hexc,
    fun s c cause status ep v hexc hvec => State.takeException_badVector cause status ep v hexc hvec,
    fun s c cause status ep v hexc hvec => State.takeException_enters cause status ep v hexc hvec,
    fun c a => ⟨fun hc => if_neg hc, if_pos rfl⟩, fun s c r hc => State.haltCore_ctl s c r hc,
    fun s c n r hc hclear hsrc hon hoff hawake => State.haltCore_reports s c n r hc hclear hsrc hon hoff hawake⟩

theorem encB_major (op : BitVec 8) (g : Guard) (off : BitVec 20) : (encB op g off).extractLsb' 24 8 = op := by
  apply BitVec.eq_of_getLsbD_eq
  intro i hi
  simp only [encB, BitVec.getLsbD_extractLsb', BitVec.getLsbD_append, hi, decide_true, Bool.true_and]
  rw [if_neg (by omega), if_neg (by omega), show 24 + i - 20 - 4 = i by omega]

/-- Settles O8: ERET leaves the processor as R94 says inside an exception, and is illegal outside. -/
theorem returnFromException : Obligations.ReturnFromException := by
  unfold Obligations.ReturnFromException
  refine ⟨fun c g s h hexc => ?_, fun c g s h hexc => ⟨encB 0x68 g 0, encB_major _ _ _, ?_⟩⟩
  · exact nexts ((State.instr_goes _ _ h).trans (congrArg (State.stepOver · c) (ift hexc)))
  · exact nexts ((State.instr_goes _ _ h).trans (congrArg (State.stepOver · c) (ifn hexc)))

/-! ## Jumps and system instructions (R98, R110, R111) -/

/-- A jump raises what its target raises, and otherwise ends with the pc there (R98). -/
theorem State.jump_stepOver (s : State) (c : Nat) (k : Ctl) (t : W64) :
    (.next ((s.jump c (s.ctl c) k t).stepOver c) : Res) = match s.target c t with
      | none => s.ends c { k with pc := t }
      | some x => s.raises c x eRange (s.ctl c).pc t := by
  rw [State.jump_target]
  cases s.target c t <;> rfl

section
variable {s : State} {c : Nat} {g : Guard} (h : s.goes c g = true)
include h

theorem State.jump_goes (w : W32) (k : Ctl → Ctl) (t : Ctl → W64) :
    (.next (s.instr c g w (fun x => s.jump c x (k x) (t x))) : Res) = match s.target c (t (s.ctl c)) with
      | none => s.ends c { k (s.ctl c) with pc := t (s.ctl c) }
      | some x => s.raises c x eRange (s.ctl c).pc (t (s.ctl c)) := by
  rw [State.instr_goes w _ h]
  exact State.jump_stepOver s c (k (s.ctl c)) (t (s.ctl c))

theorem exec_dbnz_goes (rd : Reg) (imm : BitVec 15) (hrd : rd ≠ 0) :
    let k := s.ctl c; let x := k.rg rd - 1; let t := k.pc + imm.signExtend 64 * 4
    exec (.dbnz c g rd imm) s = if x = 0 then s.ends c (k.wg rd x).adv else match s.target c t with
      | none => s.ends c { k.wg rd x with pc := t }
      | some y => s.raises c y eRange k.pc t := by
  intro k x t
  have hok : (rd != 0) = true := bne_iff_ne.mpr hrd
  simp only [exec, execDbnz, State.instrIf_ok hok, State.instr_goes _ _ h]
  by_cases hx : x = 0
  · rw [if_pos hx, if_pos hx]
    rfl
  · rw [if_neg hx, if_neg hx]
    exact State.jump_stepOver s c (k.wg rd x) t

/-- END is an instruction of compute cores only (R110). -/
theorem exec_endProg_goes :
    exec (.endProg c g) s = if 2 ≤ (s.ctl c).mode.toNat then s.raises c cIllegal eFormat (s.ctl c).pc ((encB 0x69 g 0).setWidth 64)
      else s.ends c { s.ctl c with run := .ended }.adv := by
  have hmode : (decide ((s.ctl c).mode = 2) || decide ((s.ctl c).mode = 3)) = true ↔ 2 ≤ (s.ctl c).mode.toNat := by
    simp only [Bool.or_eq_true, decide_eq_true_eq]
    bv_omega
  simp only [exec, execEndProg, State.instr_goes _ _ h, hmode]
  split <;> rfl

end

/-! ## Reserved words and fetches (R80, R81, R327) -/

theorem wordOk_zero : wordOk 0 = false := rfl

theorem wordOk_unassigned {x : Nat} (hx : 0x80 ≤ fld x 24 8) : wordOk x = false := by
  have hop : opAssigned (fld x 24 8) = false := by
    simp only [opAssigned, Bool.or_eq_false_iff, Bool.and_eq_false_iff, decide_eq_false_iff_not, beq_eq_false_iff_ne]
    omega
  rw [wordOk, hop, Bool.false_and, Bool.false_and]

theorem wordOk_reservedGuard {x : Nat} (hx : fld x 20 4 = 8) : wordOk x = false := by
  rw [wordOk, hx, bne_self_eq_false, Bool.and_false, Bool.false_and]

section
variable {s : State} {c : Nat} (hon : s.ctlOn c = true)
include hon

theorem State.fetch_poisoned (hbad : s.fetchBad c = true) : s.fetch c = s.fetchPoison c := by
  simp only [State.fetch, hon, hbad, Bool.not_true, Bool.false_eq_true, if_false, if_true]

variable (hgood : s.fetchBad c = false)
include hgood

theorem State.fetch_outside (hout : inImem c (s.ctl c).pc = false) :
    s.fetch c = (s.takeException c cRange eRange (s.ctl c).pc (s.ctl c).pc).stepOver c := by
  simp only [State.fetch, hon, hgood, hout, Bool.not_true, Bool.not_false, Bool.false_eq_true, if_false, if_true]

variable (hin : inImem c (s.ctl c).pc = true)
include hin

theorem State.fetch_inside :
    let w := leNat ((s.imem c).readBytes (s.ctl c).pc.toNat 4)
    s.fetch c = if wordOk w || (c == mgmtCore && (s.ctl c).pc.toNat < 0x8000) then s else (s.illegal c (BitVec.ofNat 32 w)).stepOver c := by
  simp only [State.fetch, hon, hgood, hin, Bool.not_true, Bool.false_eq_true, if_false]

theorem State.fetch_noInstruction (hc : c ≠ mgmtCore) (hw : wordOk (leNat ((s.imem c).readBytes (s.ctl c).pc.toNat 4)) = false) :
    s.fetch c = (s.illegal c (BitVec.ofNat 32 (leNat ((s.imem c).readBytes (s.ctl c).pc.toNat 4)))).stepOver c := by
  simp only [State.fetch_inside hon hgood hin, hw, beq_eq_false_iff_ne.mpr hc, Bool.false_and, Bool.or_self, Bool.false_eq_true, if_false]

theorem State.fetch_instruction (hw : wordOk (leNat ((s.imem c).readBytes (s.ctl c).pc.toNat 4)) = true) : s.fetch c = s := by
  simp only [State.fetch_inside hon hgood hin, hw, Bool.true_or, if_true]

end

/-- Settles O9: jumps by their target, system instructions one by one, reserved words whatever their guard, and fetches. -/
theorem controlFlow : Obligations.ControlFlow := by
  unfold Obligations.ControlFlow
  refine ⟨?jumps, ?dbnz, fun s c t => rfl, ?system, ?endElsewhere, ?reserved, ?fetch⟩
  case jumps =>
    intro c g off rd rs1 imm s h k
    exact ⟨State.jump_goes h _ (fun k => k) (fun k => k.pc + off.signExtend 64 * 4),
      State.jump_goes h _ (fun k => k.wg 31 (k.pc + 4)) (fun k => k.pc + off.signExtend 64 * 4),
      State.jump_goes h _ (fun k => k) (fun k => k.rg rs1 + imm.signExtend 64 * 4),
      State.jump_goes h _ (fun k => k.wg rd (k.pc + 4)) (fun k => k.rg rs1 + imm.signExtend 64 * 4)⟩
  case dbnz =>
    intro c g rd imm s h hrd
    exact exec_dbnz_goes h rd imm hrd
  case system =>
    intro c g code s h k
    have run := fun w f => nexts (State.instr_goes w f h)
    refine ⟨run _ _, fun h2 h3 => ?_, run _ _, run _ _, run _ _⟩
    rw [exec_endProg_goes h, if_neg]
    simp only [k] at h2 h3
    bv_omega
  case endElsewhere =>
    intro c g s h hmode
    rw [exec_endProg_goes h, if_pos hmode]
  case reserved =>
    intro c g s hon hgood bad
    refine ⟨fun imm => State.instrIf_bad hon hgood rfl, fun ib pos lenm1 rs1 hlen => State.instrIf_bad hon hgood ?_,
      fun nb pd => State.instrIf_bad hon hgood rfl, fun pd mask hpd => State.instrIf_bad hon hgood ?_,
      fun rd sr hsr => State.instrIf_bad hon hgood hsr⟩
    · exact decide_eq_false (by omega)
    · simpa using fun _ => hpd
  case fetch =>
    intro c s hon pc w
    exact ⟨State.fetch_poisoned hon, State.fetch_outside hon, fun hgood hin hc hw => State.fetch_noInstruction hon hgood hin hc hw,
      fun hgood hin hw => State.fetch_instruction hon hgood hin hw, wordOk_zero, fun x => wordOk_unassigned, fun x => wordOk_reservedGuard⟩

end Sys2Proof.Machine
end

section
/-! PROOFS. Waits, special registers, device accesses, issue and sync instructions (O10 to O13, O15, O17). -/

namespace Sys2Proof.Machine

/-! ## WFI and MFENCE (R89, R95) -/

/-- The processor as MFENCE leaves it before it retires or raises. -/
def Ctl.fenced (k : Ctl) : Ctl := { k with waiting := none, strOut := 0, strAsync := 0 }

theorem Ctl.fenced_idle {k : Ctl} (hw : k.waiting = none) (ho : k.strOut = 0) : k.fenced = { k with strAsync := 0 } := by
  rw [Ctl.fenced, ← hw, ← ho]

theorem State.mfenceEnd_stepOver (s : State) (c : Nat) :
    let k := (s.ctl c).fenced
    (.next ((s.mfenceEnd c).stepOver c) : Res) =
      if k.rserrSet then (s.setCtl c k).raises c cRemote (k.rserr.toNat / 2 ^ 48 % 256) k.pc k.rserr else s.ends c k.adv := by
  intro k
  have hstatus : fld k.rserr.toNat 48 8 = k.rserr.toNat / 2 ^ 48 % 256 := by
    simp only [fld, Nat.shiftRight_eq_div_pow, Nat.reducePow]
  rw [State.mfenceEnd, ← hstatus]
  by_cases hr : k.rserrSet = true
  · rw [if_pos hr]
    exact nexts (congrArg (State.stepOver · c) (if_pos hr))
  · rw [if_neg hr]
    exact nexts (congrArg (State.stepOver · c) (if_neg hr))

section
variable {s : State} {c : Nat} {g : Guard} (h : s.goes c g = true)
include h

theorem exec_wfi_goes :
    let k := s.ctl c
    exec (.wfi c g) s = if k.mode.toNat < 2 then s.raises c cPrivilege ePermission k.pc 0 else if s.lineOf c then s.ends c k.adv
      else s.ends c { k with waiting := some .wfi } := by
  have hmode : (decide ((s.ctl c).mode = 0) || decide ((s.ctl c).mode = 1)) = true ↔ (s.ctl c).mode.toNat < 2 := by
    simp only [Bool.or_eq_true, decide_eq_true_eq]
    bv_omega
  simp only [exec, execWfi, State.instr_goes _ _ h, hmode]
  split
  · rfl
  · split <;> rfl

theorem exec_mfence_drained (ho : (s.ctl c).strOut = 0) :
    let k := s.ctl c; let z := { k with strAsync := 0 }
    exec (.mfence c g) s =
      if k.rserrSet then (s.setCtl c z).raises c cRemote (k.rserr.toNat / 2 ^ 48 % 256) k.pc k.rserr else s.ends c z.adv := by
  intro k z
  have hz : k.fenced = z := Ctl.fenced_idle (State.goes_waiting h) ho
  simp only [exec, execMfence, State.instr_goes _ _ h, if_pos ho]
  rw [State.mfenceEnd_stepOver, ← hz]
  rfl

end

theorem exec_wfiWake_line {s : State} {c : Nat} (hw : (s.ctl c).waiting = some .wfi) (hline : s.lineOf c = true) :
    exec (.wfiWake c) s = s.ends c { s.ctl c with waiting := none }.adv := by
  simp only [exec, execWfiWake, hw, hline, decide_true, Bool.and_self, if_true]
  rfl

theorem exec_mfenceComplete_waiting {s : State} {c : Nat} (hw : (s.ctl c).waiting = some .mfence) :
    let k := (s.ctl c).fenced
    exec (.mfenceComplete c) s =
      if k.rserrSet then (s.setCtl c k).raises c cRemote (k.rserr.toNat / 2 ^ 48 % 256) k.pc k.rserr else s.ends c k.adv := by
  simp only [exec, execMfenceComplete, if_pos hw]
  exact State.mfenceEnd_stepOver s c

/-! ## The events of an instruction boundary (R96, R97) -/

/-- What an event does at the boundary of a running control processor, in the order of R96. -/
def State.atBoundary (s : State) (c : Nat) (ev : Boundary) : State :=
  let k := s.ctl c
  let s1 := (s.setCtl c { k with waiting := none }).dropCpuWatch c
  match ev with
  | .forcedStop => if s.mustStop c then s1.haltCore c 4 else s
  | .debugHalt => s.debugHalt c
  | .interrupt =>
    if s.mustStop c then s1.haltCore c 4
    else if k.ie && s.lineOf c then s1.takeException c cInterrupt eOk k.pc 0 else s

theorem exec_interruptTaken_running {s : State} {c : Nat} (hrun : (s.ctl c).run = .running) (hldr : (s.ctl c).ldr = none) (ev : Boundary) :
    exec (.interruptTaken c ev) s = .next (s.atBoundary c ev) := by
  have hgo : ((s.ctl c).run != .running || (s.ctl c).ldr.isSome) = false := by
    rw [hrun, hldr, bne_self_eq_false, Option.isSome_none, Bool.or_self]
  exact nexts (ifn hgo)

/-- Settles O10: WFI and MFENCE by the state they wait for, and each event after the forced stop that comes first. -/
theorem waitsAndEvents : Obligations.WaitsAndEvents := by
  unfold Obligations.WaitsAndEvents
  refine ⟨fun c g s h => exec_wfi_goes h, fun c s hw hline => exec_wfiWake_line hw hline,
    fun c g s h => ⟨exec_mfence_drained h, State.mfence_waits s c g h⟩, fun c s hw => exec_mfenceComplete_waiting hw, ?events⟩
  case events =>
    intro c s hrun hldr k r z
    have event := fun {ev t} (ht : s.atBoundary c ev = t) => (exec_interruptTaken_running hrun hldr ev).trans (nexts ht)
    have halt : s.debugHalt c = z.haltCore c (if s.mustStop c then 4 else 3) := rfl
    refine ⟨fun hstop => ⟨event (ift hstop), event (halt.trans ?_), event (ift hstop)⟩,
      fun hgo => ⟨event (halt.trans ?_), fun hie hline => event ((ifn hgo).trans (ift ?_)), fun hie => event ((ifn hgo).trans (ifn ?_))⟩⟩
    · rw [ift hstop]
    · rw [ifn hgo]
    · exact Bool.and_eq_true_iff.mpr ⟨hie, hline⟩
    · exact Bool.and_eq_false_iff.mpr (.inl hie)

/-! ## Special registers (R91, Tables 3.9, 3.10) -/

theorem State.setCtl_modCtl (s : State) (c : Nat) (x : Ctl) (f : Ctl → Ctl) : (s.setCtl c x).modCtl c f = s.setCtl c (f x) := by
  rw [State.modCtl, State.ctl_setCtl, State.setCtl_setCtl]

/-- MTS of any register but QCTL writes its RW fields, and a 1 in bit 7 of STATUS clears rserr (R91). -/
theorem State.srWrite_adv (s : State) (c n : Nat) (x : W64) (hn : n ≠ 0x02F) :
    let k := (s.ctl c).srPut n x
    (s.srWrite c n x).modCtl c Ctl.adv = s.setCtl c (if n = 0 ∧ x.getLsbD 7 = true then { k with rserrSet := false } else k).adv := by
  intro k
  have hclears : (decide (n = 0) && x.getLsbD 7) = true ↔ n = 0 ∧ x.getLsbD 7 = true := by
    rw [Bool.and_eq_true, decide_eq_true_eq]
  rw [State.srWrite, if_neg hn]
  exact (State.setCtl_modCtl s c _ _).trans (congrArg (fun k : Ctl => s.setCtl c k.adv) (if_congr hclears rfl rfl))

section
variable {s : State} {c : Nat} {g : Guard} {sr : BitVec 10} (op : BitVec 8) (rd rs1 : Reg) (f : Ctl → State)

theorem State.srInstr_assigned (h : s.goes c g = true) (ha : s.srAssigned c sr.toNat = true) :
    (.next (s.srInstr op c g rd rs1 sr f) : Res) = .next ((f (s.ctl c)).stepOver c) := by
  rw [State.srInstr, State.instrIf_ok ha, State.instr_goes _ _ h]

theorem State.srInstr_unassigned (hon : s.ctlOn c = true) (hgood : s.fetchBad c = false) (ha : s.srAssigned c sr.toNat = false) :
    (.next (s.srInstr op c g rd rs1 sr f) : Res) =
      s.raises c cIllegal eFormat (s.ctl c).pc ((encI op g rd rs1 sr).setWidth 64) :=
  State.instrIf_bad hon hgood ha

end

theorem exec_mts_goes {s : State} {c : Nat} {g : Guard} {sr : BitVec 10} (h : s.goes c g = true) (ha : s.srAssigned c sr.toNat = true)
    (hn : sr.toNat ≠ 0x02F) (rs1 : Reg) :
    let x := (s.ctl c).rg rs1; let k := (s.ctl c).srPut sr.toNat x
    exec (.mts c g rs1 sr) s = s.ends c (if sr.toNat = 0 ∧ x.getLsbD 7 = true then { k with rserrSet := false } else k).adv := by
  intro x k
  rw [State.ends, ← State.srWrite_adv s c sr.toNat x hn]
  exact State.srInstr_assigned _ _ _ _ h ha

theorem Ctl.srPut_status (k : Ctl) (x : W64) :
    k.srPut 0x000 x = { k with pie := x.getLsbD 3, ie := decide (k.mode.toNat ≥ 2) && x.getLsbD 2 } := by
  have hie : (if k.mode.toNat ≥ 2 then x.getLsbD 2 else false) = (decide (k.mode.toNat ≥ 2) && x.getLsbD 2) := by
    by_cases hmode : k.mode.toNat ≥ 2 <;> simp [hmode]
  rw [← hie]
  rfl

theorem Ctl.srPut_other (k : Ctl) (x : W64) {n : Nat} (hn : n ∉ [0x000, 0x001, 0x004, 0x005, 0x006, 0x030, 0x031, 0x032, 0x033]) :
    k.srPut n x = k := by
  simp only [List.mem_cons, List.not_mem_nil, or_false, not_or] at hn
  obtain ⟨h0, h1, h4, h5, h6, h30, h31, h32, h33⟩ := hn
  rw [Ctl.srPut, if_neg h0, if_neg h1, if_neg h4, if_neg h5, if_neg h6, if_neg h30, if_neg h31, if_neg h32, if_neg h33]

theorem b2n_le (b : Bool) : b2n b ≤ 1 := by cases b <;> decide

theorem Ctl.status_toNat (k : Ctl) :
    k.status.toNat = k.mode.toNat + 4 * b2n k.ie + 8 * b2n k.pie + 16 * b2n k.exc + 128 * b2n k.rserrSet := by
  have hie := b2n_le k.ie
  have hpie := b2n_le k.pie
  have hexc := b2n_le k.exc
  have hset := b2n_le k.rserrSet
  have hmode := k.mode.isLt
  rw [Ctl.status, BitVec.toNat_ofNat, Nat.mod_eq_of_lt (by omega)]
  omega

theorem ecause_toNat (x y : BitVec 8) : (BitVec.ofNat 64 (x.toNat + 256 * y.toNat)).toNat = x.toNat + 256 * y.toNat := by
  rw [BitVec.toNat_ofNat, Nat.mod_eq_of_lt (by have := x.isLt; have := y.isLt; omega)]

/-- Settles O11: special register instructions by whether their number is assigned, and each register's fields. -/
theorem specialRegisters : Obligations.SpecialRegisters := by
  unfold Obligations.SpecialRegisters
  refine ⟨?assigned, ?unassigned, ?written, ?read⟩
  case assigned =>
    intro c g rd rs1 sr s h ha k n x v
    refine ⟨State.srInstr_assigned _ _ _ _ h ha, fun hn hs => ?_, fun hn hs => ?_, fun hq => ?_,
      State.srInstr_assigned _ _ _ _ h ha, State.srInstr_assigned _ _ _ _ h ha⟩
    · rw [exec_mts_goes h ha hn, if_neg hs]
    · rw [exec_mts_goes h ha (hn.trans_ne (by decide)), if_pos ⟨hn, hs⟩]
    · exact (State.srInstr_assigned _ _ _ _ h ha).trans (nexts (by rw [State.srWrite, if_pos hq]))
  case unassigned =>
    intro c g rd rs1 sr s hon hgood ha pc
    exact ⟨State.srInstr_unassigned _ _ _ _ hon hgood ha, State.srInstr_unassigned _ _ _ _ hon hgood ha,
      State.srInstr_unassigned _ _ _ _ hon hgood ha, State.srInstr_unassigned _ _ _ _ hon hgood ha⟩
  case written =>
    intro k x
    exact ⟨Ctl.srPut_status k x, rfl, rfl, rfl, rfl, rfl, rfl, rfl, rfl, fun n hn => Ctl.srPut_other k x hn⟩
  case read =>
    intro s c k
    exact ⟨Ctl.status_toNat k, rfl, ecause_toNat _ _, rfl, rfl, rfl, rfl, rfl, rfl, rfl, rfl, rfl, rfl, rfl, rfl, rfl, rfl⟩

/-! ## LDR and STR (R88, R89) -/

theorem State.devFault_eq (s : State) (c n : Nat) (a : W64) (w : Bool) :
    s.devFault c a n w = if a.toNat % n ≠ 0 then some (cAlign, eRange)
      else if 2 ^ 48 ≤ a.toNat ∨ s.devRight c a.toNat w = eRange then some (cRange, eRange)
      else if s.devRight c a.toNat w ≠ eOk then some (cAccess, ePermission) else none := by
  simp only [State.devFault, bne_iff_ne, beq_iff_eq, ite_or]
  rfl

section
variable {s : State} {c : Nat} {x : LdrOut} (hldr : (s.ctl c).ldr = some x) (hreq : (s.ctl c).haltReq = false)
include hldr hreq

theorem exec_ldrReturn_data (v : W64) :
    exec (.ldrReturn c (.data v)) s =
      s.ends c ({ s.ctl c with ldr := none }.wg x.rd (BitVec.ofNat 64 (v.toNat % 2 ^ (8 * x.size)))).adv := by
  simp only [exec, execLdrReturn, State.ldrReturn, hldr, hreq, Bool.false_and, Bool.false_eq_true, if_false]
  rfl

theorem exec_ldrReturn_refused (st : BitVec 8) :
    exec (.ldrReturn c (.refused st)) s =
      (s.setCtl c { s.ctl c with ldr := none }).raises c cRemote st.toNat (s.ctl c).pc x.addr := by
  simp only [exec, execLdrReturn, State.ldrReturn, hldr, hreq, Bool.false_and, Bool.false_eq_true, if_false]
  rfl

end

/-- Settles O12: an access leaves or raises by the checks of R88, and its answer ends it. -/
theorem deviceAccess : Obligations.DeviceAccess := by
  unfold Obligations.DeviceAccess
  exact ⟨fun c g rd rs1 imm s h => State.ldr_sends s c g rd rs1 imm h, fun c g rs2 rs1 imm s h => State.str_sends s c g rs2 rs1 imm h,
    fun s c n a w => State.devFault_eq s c n a w,
    fun c v st x s hldr hreq => ⟨exec_ldrReturn_data hldr hreq v, exec_ldrReturn_refused hldr hreq st⟩, fun c a st s => rfl⟩

/-! ## QWAIT (R106) -/

theorem exec_qwait_goes {s : State} {c : Nat} {g : Guard} {nb : Bool} {pd : BitVec 3} {mask : BitVec 7} (h : s.goes c g = true)
    (hmask : mask ≠ 0) (hc : c ≠ mgmtCore) (hpd : nb = true ∨ pd = 0) :
    let k := s.ctl c; let ok := s.qwaitHolds c mask
    exec (.qwait c g nb pd mask) s = if nb then s.ends c (k.wp pd ok).adv else if ok then s.ends c k.adv
      else s.ends c { k with waiting := some (.qwait mask) } := by
  intro k ok
  have hform : (mask != 0 && (nb || pd == 0)) = true := by simpa using ⟨hmask, hpd⟩
  simp only [exec, execQwait, State.instrIf_ok hform, State.instr_goes _ _ h, beq_eq_false_iff_ne.mpr hc, Bool.false_eq_true, if_false]
  split
  · rfl
  · split <;> rfl

theorem exec_qwaitRetire_drained {s : State} {c : Nat} {mask : BitVec 7} (hw : (s.ctl c).waiting = some (.qwait mask))
    (hlive : (s.ctl c).live = true) (hok : s.qwaitHolds c mask = true) :
    exec (.qwaitRetire c) s = s.ends c { s.ctl c with waiting := none }.adv := by
  simp only [exec, execQwaitRetire, hw, hlive, hok, Bool.and_self, if_true]
  rfl

/-- Settles O13: ISSUE, IBINS and QCTL by the laws of queues and issue, QWAIT by its condition. -/
theorem issueAndQueues : Obligations.IssueAndQueues := by
  unfold Obligations.IssueAndQueues
  refine ⟨?issueB, ?issue, fun c q src m s => State.issueReserve_does s c q src m, ?ibins, ?qwait,
    fun c mask s hw hlive hok => exec_qwaitRetire_drained hw hlive hok, fun c q s hhalted hq => State.qctl_does s c q hhalted hq⟩
  case issueB =>
    intro c g q nb pd s h hq hc hpd hhead hlay
    exact State.issueB_does s c g q nb pd h hq hc hpd hhead hlay
  case issue =>
    intro c g q nb rs1 pd imm a m s h hq hc hpd ha hal hin hgood hm hhead hlay
    exact State.issue_does s c g q nb rs1 pd imm a m h hq hc hpd ha hal hin hgood hm hhead hlay
  case ibins =>
    intro c g ib pos lenm1 rs1 s h hlen hc
    exact State.ibins_does s c g ib pos lenm1 rs1 h hlen hc
  case qwait =>
    intro c g nb pd mask s h hmask hc hpd
    exact exec_qwait_goes h hmask hc hpd

/-! ## Sync counter instructions (R108, R109, R282) -/

/-- A compute core adds to a counter of its own cluster at once, and sends every other addition as a packet (R282). -/
theorem State.addFrom_compute (s : State) {c a : Nat} (n : Nat) (hc : c < 4096) (ha : a < 0x4000) :
    s.addFrom c a n = if a / 256 = c / 64 then (s.addCtr a n).testWatches (a / 256) else s.send (.sync a n) := by
  have hne : c ≠ mgmtCore := Nat.ne_of_lt hc
  have hown : (c != mgmtCore && a / 256 == clusterOf c && a < 0x4000) = true ↔ a / 256 = c / 64 := by
    simp [hne, ha, clusterOf]
  have hnode : ctrNode a = a / 256 := if_pos ha
  simp only [State.addFrom, hown, hnode, beq_eq_false_iff_ne.mpr hne, Bool.false_eq_true, if_false]

/-- Settles O15: the sync instructions by the laws of counters and watches. -/
theorem syncInstructions : Obligations.SyncInstructions := by
  unfold Obligations.SyncInstructions
  refine ⟨?completes, ?swait, ?refused, ?reserved, fun s c a n hc ha => State.addFrom_compute s n hc ha⟩
  case completes =>
    intro c g rs1 rs2 rd a n s h ha hn hwf
    exact State.sync_completes s c g rs1 rs2 rd a n h ha hn hwf
  case swait =>
    intro c g rs1 rs2 cond cd dec a n s h ha hn hwf hright hcond hdec
    exact State.swait_does s c g rs1 rs2 cond cd dec a n h ha hn hwf hright hcond hdec
  case refused =>
    intro c g rs1 rs2 rd s h hout
    exact State.sync_refused s c g rs1 rs2 rd h hout
  case reserved =>
    intro c g rs1 rs2 cond dec s hon hgood hres
    exact State.swait_reserved s c g rs1 rs2 cond dec hon hgood hres

/-! ## WAIT, SIGNAL and reserved mops at the head of a queue (R105, R107, R281) -/

section
variable {s : State} {c q : Nat} {m : W256} (hhead : (s.queue c q).head = some m)
include hhead

theorem exec_signal_waits (hidle : s.engineIdle c q = false) : exec (.signal c q) s = .next s := by
  simp only [exec, execSignal, hhead, hidle, Bool.not_false, Bool.or_true, if_true]

variable (hon : s.enginesOn c = true)
include hon

theorem exec_wait_head (hmop : mMop m = 0xF0) :
    exec (.wait c q) s = .next (if s.mayTest c (wsCtr m) then
        (s.modQueue c q (fun x => { x with waiting := true })).register
          { core := c, unit := .queue q, ctr := wsCtr m, cond := (Cond.ofBits (waitCond m)).getD .ge, value := wsValue m, dec := waitDec m }
      else (s.modVec c (fun x => if q = 1 then { x with copy := none } else x)).haltQueue c q ePermission m) := by
  simp only [exec, execWait, hhead, hmop, mopWait, hon, bne_self_eq_false, Bool.not_true, Bool.or_self, Bool.false_eq_true, if_false,
    Bool.not_eq_true', ← ite_not (p := s.mayTest c (wsCtr m) = true), Bool.not_eq_true]

variable (hidle : s.engineIdle c q = true)
include hidle

theorem exec_signal_add (hmop : mMop m = 0xF1) (hadd : signalSub m = false) :
    exec (.signal c q) s = .next (if s.mayAdd c (wsCtr m) then ((s.popQ c q).traceRec c q 2 0xF1 0 0).addFrom c (wsCtr m) (wsValue m)
      else s.haltQueue c q ePermission m) := by
  simp only [exec, execSignal, hhead, hmop, mopSignal, hon, hidle, hadd, bne_self_eq_false, Bool.not_true, Bool.or_self, Bool.false_eq_true,
    if_false, Bool.not_eq_true', ← ite_not (p := s.mayAdd c (wsCtr m) = true), Bool.not_eq_true]

theorem exec_signal_sub (hmop : mMop m = 0xF1) (hsub : signalSub m = true) :
    let r := s.subCtr (wsCtr m) (wsValue m)
    exec (.signal c q) s = .next (if s.mayTest c (wsCtr m) then
        if r.2 then ((r.1.popQ c q).traceRec c q 2 0xF1 0 0).testWatches (ctrNode (wsCtr m)) else r.1.haltQueue c q eSyncUnderflow m
      else s.haltQueue c q ePermission m) := by
  simp only [exec, execSignal, hhead, hmop, mopSignal, hon, hidle, hsub, bne_self_eq_false, Bool.not_true, Bool.or_self, Bool.false_eq_true,
    if_false, if_true, Bool.not_eq_true', ← ite_not (p := s.mayTest c (wsCtr m) = true), Bool.not_eq_true]

theorem exec_reservedMop_head (hmop : mMop m < 0xF0) (hres : mopKnown q (mMop m) = false) :
    exec (.reservedMop c q) s = .next (if s.sigRight c m then ((s.popQ c q).noteMop c q (mMop m)).reject c q eFormat m
      else s.haltQueue c q ePermission m) := by
  simp only [exec, execReservedMop, hhead, decide_eq_false (Nat.not_le.mpr hmop), ge_iff_le, hres, hon, hidle, Bool.not_true, Bool.or_self,
    Bool.false_eq_true, if_false, Bool.not_eq_true', ← ite_not (p := s.sigRight c m = true), Bool.not_eq_true]

end

/-- Settles O17: each entry at the head by what it may do to its counter, and what a halt leaves. -/
theorem queueWaitAndSignal : Obligations.QueueWaitAndSignal := by
  unfold Obligations.QueueWaitAndSignal
  refine ⟨?wait, ?waitRefused, ?signal, ?reserved, ?busy, fun s c q st m => State.haltQueue_does s c q st m,
    fun s c q st m => State.reject_queue s c q st m⟩
  case wait =>
    intro c q m cd s hhead hmop hon hright hcond
    rw [exec_wait_head hhead hon hmop, if_pos hright, hcond]
    rfl
  case waitRefused =>
    intro c q m s hhead hmop hon hright
    rw [exec_wait_head hhead hon hmop, if_neg (Bool.eq_false_iff.mp hright)]
  case signal =>
    intro c q m s hhead hmop hon hidle a u
    refine ⟨fun hadd hright => ?_, fun hadd hright => ?_, fun hsub hright hle => ?_, fun hsub hright hlt => ?_, fun hsub hright => ?_⟩
    · rw [exec_signal_add hhead hon hidle hmop hadd, if_pos hright]
    · rw [exec_signal_add hhead hon hidle hmop hadd, if_neg (Bool.eq_false_iff.mp hright)]
    · obtain ⟨hok, _⟩ := (State.subCtr_does s a (wsValue m)).1 hle
      rw [exec_signal_sub hhead hon hidle hmop hsub, if_pos hright, if_pos hok]
    · obtain ⟨hbad, _⟩ := (State.subCtr_does s a (wsValue m)).2 hlt
      rw [exec_signal_sub hhead hon hidle hmop hsub, if_pos hright, if_neg (Bool.eq_false_iff.mp hbad)]
    · rw [exec_signal_sub hhead hon hidle hmop hsub, if_neg (Bool.eq_false_iff.mp hright)]
  case reserved =>
    intro c q m s hhead hmop hres hon hidle
    refine ⟨fun hright => ?_, fun hright => ?_⟩
    · rw [exec_reservedMop_head hhead hon hidle hmop hres, if_pos hright]
    · rw [exec_reservedMop_head hhead hon hidle hmop hres, if_neg (Bool.eq_false_iff.mp hright)]
  case busy =>
    intro c q m s hhead _ hidle
    exact exec_signal_waits hhead hidle

end Sys2Proof.Machine
end

section
/-! PROOFS. Starting and ending a sheet (O36). -/

namespace Sys2Proof.Machine

/-! ## START and its tick (R314, R339) -/

section
variable {s u : State} {v : Nat} {k : Caller} {src : Src} (ht : s.taken src 0x04 v = some (u, k))
include ht

theorem exec_start_refused (hno : ¬ ((u.vat v).startable = true ∧ u.brokenHold v = false)) :
    exec (.start v src) s = .next (u.refuseCmd v k eState) := by
  have hrefused : (!(u.vat v).startable || u.brokenHold v) = true := by
    simpa only [Bool.or_eq_true, Bool.not_eq_true', not_and_or, Bool.not_eq_true, Bool.not_eq_false] using hno
  exact nexts ((State.command_taken ht _).trans (ift hrefused))

variable (hstart : (u.vat v).startable = true) (hfree : u.brokenHold v = false)
include hstart hfree

theorem exec_start_local (hk : k.host = none) : exec (.start v src) s = .next (u.acceptStart v none) := by
  have hok : (!(u.vat v).startable || u.brokenHold v) = false := by rw [hstart, hfree]; rfl
  exact nexts ((State.command_taken ht _).trans ((ifn hok).trans (by rw [hk])))

/-- The host's START carries arm and the launch tick (R314). -/
theorem exec_start_host {h : Nat × Nat} (hk : k.host = some h) :
    exec (.start v src) s = .next (((u.modVat v (fun x => { x with det := { x.det with launch := BitVec.ofNat 64 (fld k.entry 128 64) } })).armWrite v
      (bit k.entry 64)).acceptStart v (some h)) := by
  have hok : (!(u.vat v).startable || u.brokenHold v) = false := by rw [hstart, hfree]; rfl
  exact nexts ((State.command_taken ht _).trans ((ifn hok).trans (by rw [hk])))

end

section
variable (s : State) (v : Nat) (h : Option (Nat × Nat))

/-- A start without an armed launch is for now, or in deterministic mode for the next tick of the grid (R339). -/
theorem State.acceptStart_unarmed (harm : (s.vat v).det.arm = false) :
    let w := (s.acceptStart v h).vat v
    w.det.pendStart = some (if (s.vat v).det.det then BitVec.ofNat 64 (nextGrid s.clk.gtc.toNat) else s.clk.gtc) ∧
      w.det.pendGrid = (s.vat v).det.det := by
  simp only [State.acceptStart, State.vat_setVat, harm, Bool.false_and, Bool.false_or, Bool.false_eq_true, if_false, and_self]

/-- An armed launch is for its tick, or for the next tick of the grid when that has passed (R339). -/
theorem State.acceptStart_armed (harm : (s.vat v).det.arm = true) :
    let late := decide ((s.vat v).det.launch.toNat ≤ s.clk.gtc.toNat); let w := (s.acceptStart v h).vat v
    w.det.pendStart = some (if late then BitVec.ofNat 64 (nextGrid s.clk.gtc.toNat) else (s.vat v).det.launch) ∧
      w.det.pendArmed = true ∧ w.det.pendLate = late := by
  intro late w
  simp only [w, late, State.acceptStart, State.vat_setVat, harm, Bool.true_and, Bool.true_or, if_true, and_self, and_true]
  by_cases hlate : (s.vat v).det.launch.toNat ≤ s.clk.gtc.toNat <;> simp [hlate]

end

/-! ## A pending start that is due (R313, R339, R416) -/

/-- What a pending start comes to when it is due: the sheet, or the end of the start where the vat is no longer READY. -/
def State.startDue (s : State) (v : Nat) : State :=
  if (s.vat v).st = .ready then s.sheetStart (fun z c => (z.epsOf c).foldl (fun z e => z.epReset c e) z) v else s.cancelStart v

section
variable {s : State} {v : Nat} {t : W64} (hpend : (s.vat v).det.pendStart = some t) (hfree : (s.vat v).st = .ready → (s.vat v).advBusy = false)
include hpend hfree

theorem exec_sheetStart_due (hgrid : (s.vat v).det.pendGrid = false) : exec (.sheetStart v) s = .next (s.startDue v) := by
  have hclose : ((s.vat v).st == .ready && (s.vat v).advBusy) = false := by simpa using hfree
  simp only [exec, execSheetStart, hpend, hgrid, hclose, Option.isNone_some, Bool.or_self, Bool.false_eq_true, if_false, bne_iff_ne, ite_not]
  rfl

theorem exec_launchTick_due (hgrid : (s.vat v).det.pendGrid = true) (hdue : t.toNat ≤ s.clk.gtc.toNat) :
    exec (.launchTick v) s = .next (s.startDue v) := by
  have hclose : ((s.vat v).st == .ready && (s.vat v).advBusy) = false := by simpa using hfree
  simp only [exec, execLaunchTick, hpend, hgrid, hclose, decide_eq_false (Nat.not_lt.mpr hdue), Bool.not_true, Bool.or_self, Bool.false_eq_true,
    if_false, bne_iff_ne, ite_not]
  rfl

end

theorem exec_coreStart_due {s : State} {c v : Nat} (hv : s.vatOfCore c = some v) (hst : (s.vat v).st = .running)
    (hen : (s.vat v).enlisted.has c = true) (hrun : (s.ctl c).run = .running)
    (hoff : (s.vat v).startOff.get 0 (regionOf (clusterOf c)) ≤ (s.cycleOf c).toNat) :
    exec (.coreStart c) s = .next (s.modCtl c (fun k => { k with started := true })) := by
  simp only [exec, execCoreStart, hv, hst, hen, hrun, hoff, beq_self_eq_true, decide_true, Bool.and_self, if_true]

/-! ## The end of a sheet and its stops (R112, R319, R352, R536) -/

section
variable {s : State} {v : Nat}

theorem exec_sheetEnd_drained (hst : (s.vat v).st = .running) (hend : s.sheetEnded v = true) :
    exec (.sheetEnd v) s = .next (s.sheetOver v eOk) := by
  simp only [exec, execSheetEnd, hst, hend, beq_self_eq_true, Bool.and_self, if_true]

theorem exec_forcedStop_planned (hplan : (s.planOf v).valid = true) (hawake : s.vatAwake v = true) :
    exec (.forcedStop v) s = .next (if (s.forceStopOr v).2 then (s.forceStopOr v).1
      else (s.forceStopOr v).1.log (srcVat v) evRefused eState (some v) 0 0) := by
  simp only [exec, execForcedStop, hplan, hawake, Bool.not_true, Bool.false_eq_true, if_false]

theorem exec_drainTimeout_passed {t : W64} (hstop : (s.vat v).stopTick = some t) (hst : (s.vat v).st = .stopping)
    (hpast : t.toNat + (s.vat v).drainTo ≤ s.clk.gtc.toNat) :
    exec (.drainTimeout v) s = .next (s.setVat v { s.vat v with drained := true }) := by
  simp only [exec, execDrainTimeout, hstop, hst, hpast, beq_self_eq_true, decide_true, Bool.and_self, if_true]

/-- The host's STOP is refused while another waits for its end, or where a forced stop is (R536). -/
theorem exec_stop_taken {u : State} {k : Caller} {r : Nat} (ht : s.taken (.host r) 0x07 v = some (u, k)) (hcopy : (s.vat v).spadCopies = 0) :
    let w := if fld k.entry 64 48 = 0 then u else u.setVat v { u.vat v with scanBase := fld k.entry 64 48 }
    exec (.stop v r) s = .next (if (u.vat v).stopHost ≠ none ∨ (w.forceStopOr v).2 = false then u.refuseCmd v k eState
      else (w.forceStopOr v).1.modVat v (fun y => { y with stopHost := k.host })) := by
  intro w
  simp only [exec, execStop, hcopy, bne_self_eq_false, Bool.false_eq_true, if_false, State.command_taken ht, Bool.or_eq_true,
    Bool.not_eq_true', Option.isSome_iff_ne_none]
  rfl

end

/-! ## Arming a launch (R339, Table 10.7) -/

theorem exec_arm_fields {s : State} {v : Nat} {x : W32} (hx : x.toNat < 8) :
    let w := s.modVat v (fun y => { y with det := { y.det with det := x.getLsbD 0, brkIrq := x.getLsbD 1 } })
    let set := fun (b : Bool) => w.modVat v (fun y => { y with det := { y.det with arm := b } })
    exec (.arm v x) s = .next (if x.getLsbD 2 = true ∧ (s.vat v).det.launch.toNat % 20 ≠ 0 then
        (set false).log (srcVat v) evRefused eRange (some v) 0 0 else set (x.getLsbD 2)) := by
  intro w set
  have hlaunch : (w.vat v).det.launch = (s.vat v).det.launch := by simp only [w, State.vat_modVat]
  simp only [exec, execArm, ge_iff_le, if_neg (Nat.not_le.mpr hx), State.armWrite, Bool.and_eq_true, bne_iff_ne]
  rw [hlaunch]

/-- Settles O36: the life of a sheet, command by command. -/
theorem sheets : Obligations.Sheets := by
  unfold Obligations.Sheets
  refine ⟨?start, ?accepted, ?due, ?cancelled, fun c v s hv hst hen hrun hoff => exec_coreStart_due hv hst hen hrun hoff, ?ends, ?stop, ?arm⟩
  case start =>
    intro v src k s u ht ok
    exact ⟨exec_start_refused ht, fun ⟨hstart, hfree⟩ => exec_start_local ht hstart hfree,
      fun h ⟨hstart, hfree⟩ => exec_start_host ht hstart hfree⟩
  case accepted =>
    intro v h s now x w
    have hvat : w.sheetHost = h ∧ w.ctlStatus = eOk := by
      simp only [w, State.acceptStart, State.vat_setVat, and_self]
    refine ⟨hvat.1, hvat.2, fun harm hdet => ?_, fun harm hdet => ?_, fun harm hearly => ?_, fun harm hlate => ?_⟩
    · obtain ⟨hat, hgrid⟩ := State.acceptStart_unarmed s v h harm
      exact ⟨hat.trans (by rw [hdet]; rfl), hgrid.trans hdet⟩
    · obtain ⟨hat, hgrid⟩ := State.acceptStart_unarmed s v h harm
      exact ⟨hat.trans (by rw [hdet]; rfl), hgrid.trans hdet⟩
    · obtain ⟨hat, harmed, hpend⟩ := State.acceptStart_armed s v h harm
      have hnot : decide (x.det.launch.toNat ≤ now) = false := decide_eq_false (Nat.not_le.mpr hearly)
      exact ⟨hat.trans (by rw [hnot]; rfl), harmed, hpend.trans hnot⟩
    · obtain ⟨hat, _, hpend⟩ := State.acceptStart_armed s v h harm
      have his : decide (x.det.launch.toNat ≤ now) = true := decide_eq_true hlate
      exact ⟨hat.trans (by rw [his]; rfl), hpend.trans his⟩
  case due =>
    intro v t s hpend hst hfree go
    have hgo : s.startDue v = go := if_pos hst
    exact ⟨fun hgrid => hgo ▸ exec_sheetStart_due hpend (fun _ => hfree) hgrid,
      fun hgrid hdue => hgo ▸ exec_launchTick_due hpend (fun _ => hfree) hgrid hdue⟩
  case cancelled =>
    intro v t s hpend hst
    have hgo : s.startDue v = s.cancelStart v := if_neg hst
    exact ⟨fun hgrid => hgo ▸ exec_sheetStart_due hpend (fun hr => absurd hr hst) hgrid,
      fun hgrid hdue => hgo ▸ exec_launchTick_due hpend (fun hr => absurd hr hst) hgrid hdue⟩
  case ends =>
    intro v s
    exact ⟨exec_sheetEnd_drained, exec_forcedStop_planned, fun t => exec_drainTimeout_passed⟩
  case stop =>
    intro v r k s u ht hcopy w
    refine ⟨fun hno => ?_, fun hfree htaken => ?_⟩
    · rw [exec_stop_taken ht hcopy, if_pos hno]
    · rw [exec_stop_taken ht hcopy, if_neg]
      rintro (hbusy | hbad)
      · exact hbusy hfree
      · exact Bool.false_ne_true (hbad.symm.trans htaken)
  case arm =>
    intro v x s hx w set
    refine ⟨fun hgrid => ?_, fun harm hoff => ?_⟩
    · rw [exec_arm_fields hx, if_neg]
      rintro ⟨harm, hoff⟩
      rcases hgrid with hno | hon
      · exact Bool.false_ne_true (hno.symm.trans harm)
      · exact hoff hon
    · rw [exec_arm_fields hx, if_pos ⟨harm, hoff⟩]

end Sys2Proof.Machine
end

section
/-! PROOFS. The matrix engine (O18). -/

namespace Sys2Proof.Machine

/-! ## The ring test of a held MATMUL (R133) -/

/-- A failing ring test runs the walk again; the cycles waited are counted once the walk moves or no longer waits. -/
theorem exec_matRingTestPass_waiting {s : State} {c : Nat} {e : W256} (hheld : (s.mat c).entry = some e)
    (hwait : (s.mat c).ringWait = true) (hon : s.enginesOn c = true) :
    let u := s.matRun c
    exec (.matRingTestPass c) s = .next (if (u.mat c).pos = (s.mat c).pos ∧ (u.mat c).ringWait = true then u
      else u.modMat c (fun y => { y with ringCycles := satAdd top32 y.ringCycles (s.clk.fast.toNat - (s.mat c).waitSince) })) := by
  simp only [exec, execMatRingTestPass, hheld, hwait, hon, Option.isSome_some, Bool.and_self, if_true, Bool.and_eq_true, beq_iff_eq]

/-- Settles O18: acceptance, the ring test made again, the reserved td_acc record and the end of the walk, one law each. -/
theorem matrixEngine : Obligations.MatrixEngine := by
  unfold Obligations.MatrixEngine
  refine ⟨?accepts, ?permission, ?ringTest, ?badRecord, ?ends⟩
  case accepts =>
    intro c i e s hhead hmop hon hidle hright
    exact State.mat_accepts s c i e hhead hmop hon hidle hright
  case permission =>
    intro c i e s hhead hmop hon hidle hright
    exact State.mat_permission s c i e hhead hmop hon hidle hright
  case ringTest =>
    intro c e s hheld hwait hon
    exact exec_matRingTestPass_waiting hheld hwait hon
  case badRecord =>
    intro c e s hheld hbad hon
    exact State.mat_bad s c e hheld hbad hon
  case ends =>
    intro c e s hheld hgood hpass hlast hon
    exact State.mat_ends s c e hheld hgood hpass hlast hon

end Sys2Proof.Machine
end

section
/-! PROOFS. The vector engine and the reduction unit (O19). -/

namespace Sys2Proof.Machine

/-- Settles O19: the copied chain record, acceptance and completion of the tile macro-instructions, of VCHAIN and of REDUCE, one law each. -/
theorem vectorEngine : Obligations.VectorEngine := by
  unfold Obligations.VectorEngine
  refine ⟨?record, ?tiles, ?permission, ?fill, ?load, ?store, ?chain, ?chainEnds, ?reduce, ?reduceEnds⟩
  case record =>
    intro c e s hhead hmop hnone hon
    exact State.vec_record s c e hhead hmop hnone hon
  case tiles =>
    intro c i e s hmop hhead hon hadmits hright
    exact State.vec_tiles s c i e hmop hhead hon hadmits hright
  case permission =>
    intro c i e s hmop hhead hon hadmits hright
    exact State.vec_permission s c i e hmop hhead hon hadmits hright
  case fill =>
    intro c e s hheld hmop hon
    exact State.vec_fill s c e hheld hmop hon
  case load =>
    intro c e s hheld hmop hon
    exact State.vec_load s c e hheld hmop hon
  case store =>
    intro c e s hheld hmop hon
    exact State.vec_store s c e hheld hmop hon
  case chain =>
    intro c e s hmop hhead hon hadmits hright
    exact State.vec_chain s c e hmop hhead hon hadmits hright
  case chainEnds =>
    intro c e s hheld hmop hon
    exact State.vec_chainEnds s c e hheld hmop hon
  case reduce =>
    intro c e s hmop hhead hon hadmits hright
    exact State.vec_reduce s c e hmop hhead hon hadmits hright
  case reduceEnds =>
    intro c e s hheld hmop hon
    exact State.vec_reduceEnds s c e hheld hmop hon

end Sys2Proof.Machine
end

section
/-! PROOFS. The acceptance and the end of a STREAM and an SPLOAD (O20). -/

namespace Sys2Proof.Machine

/-! ## An entry without the right to its signal (R281) -/

section
variable {s : State} {c e : Nat} {m : W256} (hhead : (s.queue c (2 + e)).head = some m) (he : e < 4) (hon : s.enginesOn c = true)
  (hidle : (s.se c e).idle = true) (hright : s.sigRight c m = false)
include hhead he hon hidle hright

theorem exec_stream_no_signal_right (hmop : mMop m = 1) : exec (.stream c e) s = .next (s.haltQueue c (2 + e) ePermission m) := by
  have hgo : (mMop m != 1 || !s.enginesOn c || !(s.se c e).idle || decide (e ≥ 4)) = false := by
    simp [hmop, hon, hidle, he]
  simp only [exec, execStream, seQueue, hhead, ifn hgo, hright, Bool.not_false, if_true]

theorem exec_spload_no_signal_right (hmop : mMop m = 2) : exec (.spload c e) s = .next (s.haltQueue c (2 + e) ePermission m) := by
  have hgo : (mMop m != 2 || !s.enginesOn c || !(s.se c e).idle || decide (e ≥ 4)) = false := by
    simp [hmop, hon, hidle, he]
  simp only [exec, execSpload, seQueue, hhead, ifn hgo, hright, Bool.not_false, if_true]

end

/-! ## The end of a STREAM (R213, R219) -/

/-- A STREAM whose program has ended and whose work is done: an untimed one that read across a crossing is a break of determinism. -/
theorem exec_streamComplete_done {s : State} {c e : Nat} {m : W256} (hentry : (s.se c e).entry = some m) (hended : (s.se c e).ended = true)
    (hacts : (s.se c e).acts = []) (hmoves : (s.se c e).moves = []) (hreads : (s.se c e).reads = []) (hwrites : (s.se c e).writes = [])
    (hack : s.ackOver c (s.se c e).asyncA = true) :
    let u := s.modSe c e (fun y => { y with entry := none })
    exec (.streamComplete c e) s =
      .next ((if !stDl m.toNat && (s.se c e).readAsync then u.detBreakCore c 2 else u).sigDone c (2 + e) m) := by
  intro u
  simp only [exec, execStreamComplete, hentry, hended, hacts, hmoves, hreads, hwrites, hack, List.isEmpty_nil, Bool.and_self, if_true]
  rfl

/-- Settles O20: acceptance, refusal for the signal, the program store and the end of a STREAM, one law each. -/
theorem streamAcceptance : Obligations.StreamAcceptance := by
  unfold Obligations.StreamAcceptance
  refine ⟨?stream, ?permission, ?spload, ?loaded, ?ends⟩
  case stream =>
    intro c e m s hmop hhead he hon hidle hright
    exact State.stream_does s c e m hmop hhead he hon hidle hright
  case permission =>
    intro c e i m s hmop hhead he hon hidle hright
    simp only [List.mem_cons, Prod.mk.injEq, List.not_mem_nil, or_false] at hmop
    rcases hmop with ⟨rfl, hstream⟩ | ⟨rfl, hspload⟩
    · exact exec_stream_no_signal_right hhead he hon hidle hright hstream
    · exact exec_spload_no_signal_right hhead he hon hidle hright hspload
  case spload =>
    intro c e m s hmop hhead he hon hidle hright
    exact State.spload_does s c e m hmop hhead he hon hidle hright
  case loaded =>
    intro c e first ws m s hentry hload
    exact State.sploaded_does s c e first ws m hentry hload
  case ends =>
    intro c e m s hentry hended hacts hmoves hreads hwrites hack
    exact exec_streamComplete_done hentry hended hacts hmoves hreads hwrites hack

end Sys2Proof.Machine
end

section
/-! PROOFS. The instructions of a stream program (O21). -/

namespace Sys2Proof.Machine

/-! ## Running one instruction (R197, R327) -/

/-- An instruction at the pc of an engine that can run it does its work in the state after the piece count of R645. -/
theorem exec_seGoes {s u : State} {c e w op : Nat} {i : Instr} {f : State → Nat → State} (h : s.seGoes c e u w) (hop : iOp w = op)
    (hi : exec i s = .next (s.seInstr c e op f)) {t : State} (ht : f u w = t) : exec i s = .next t :=
  hi.trans (nexts ((State.seInstr_go h op hop f).trans ht))

theorem State.seInstr_poisoned {s : State} {c e : Nat} (hon : s.seqOn c e = true) (hbad : NSet.has (s.se c e).storeUe (s.se c e).pc = true)
    (op : Nat) (f : State → Nat → State) : s.seInstr c e op f = s.seFault c e ePoison := by
  simp only [State.seInstr, hon, hbad, Bool.not_true, Bool.false_eq_true, if_false, if_true]

/-- Every instruction of Table 6.7 is fetched the same way; what it does then differs. -/
theorem exec_streamInstr {c e : Nat} {i : Instr} (hi : i ∈ [Instr.seta c e, .adda c e, .addr c e, .ldd c e, .setx c e, .loop c e, .loopm c e,
      .mov c e, .cvt c e, .page c e, .rfill c e, .rdone c e, .rtake c e, .rfree c e, .push c e, .pop c e, .swt c e, .ssig c e, .deliv c e,
      .streamEnd c e]) (s : State) :
    ∃ (op : Nat) (f : State → Nat → State), exec i s = .next (s.seInstr c e op f) := by
  simp only [List.mem_cons, List.not_mem_nil, or_false] at hi
  rcases hi with rfl | rfl | rfl | rfl | rfl | rfl | rfl | rfl | rfl | rfl | rfl | rfl | rfl | rfl | rfl | rfl | rfl | rfl | rfl | rfl <;>
    exact ⟨_, _, rfl⟩

/-! ## The address instructions' effects (Table 6.7) -/

section
variable {w : Nat} (x : Se)

theorem Se.addrEffect_seta (hop : iOp w = opSeta) : x.addrEffect w = x.setA (iRa w) (fld w 0 48) (bit w 48) := by
  rw [Se.addrEffect, hop]; rfl

theorem Se.addrEffect_adda (hop : iOp w = opAdda) :
    x.addrEffect w = x.setA (iRa w) (((x.ar (iRb w)).addr : Int) + sfld w 0 32 + 2 ^ 48).toNat (x.ar (iRb w)).dev := by
  rw [Se.addrEffect, hop]; rfl

theorem Se.addrEffect_addr (hop : iOp w = opAddr) :
    x.addrEffect w = x.setA (iRa w) ((x.ar (iRb w)).addr + (x.ar (iRc w)).addr) (x.ar (iRb w)).dev := by
  rw [Se.addrEffect, hop]; rfl

theorem Se.addrEffect_ldd (hop : iOp w = opLdd) :
    x.addrEffect w = x.setA (iRa w) (if bit w 39 then dScaleBase (x.desc w) else dBase (x.desc w)) (dSpace (x.desc w)) := by
  rw [Se.addrEffect, hop]; rfl

theorem Se.addrEffect_setx (hop : iOp w = opSetx) : x.addrEffect w = { x with x := fld w 0 48 } := by
  rw [Se.addrEffect, hop]; rfl

end

/-! ## Ring tests and watches (R205, R206) -/

section
variable {s u : State} {c e w : Nat} (h : s.seGoes c e u w)
include h

theorem exec_rtake_goes (hop : iOp w = opRtake) :
    let x := u.se c e; let ctr := dRdy (x.desc w)
    exec (.rtake c e) s = .next (if 1 ≤ u.ctr ctr then (u.decCtr ctr 1).modSe c e (fun y => (y.addrEffect w).past)
      else u.setSe c e { x with waitTake := some ctr }) := by
  intro x ctr
  exact exec_seGoes h hop rfl rfl

theorem exec_rfill_goes (hop : iOp w = opRfill) :
    let x := u.se c e; let ctr := dFree (x.desc w); let v := u.setSe c e (x.addrEffect w).past
    exec (.rfill c e) s = .next (if 1 ≤ u.ctr ctr then v.freePass c e x.k ctr
      else v.modSe c e (fun y => { y with freeTests := y.freeTests ++ [(x.k, ctr)] })) := by
  intro x ctr v
  exact exec_seGoes h hop rfl rfl

theorem exec_swt_goes (hop : iOp w = opSwt) {k : Cond} (hk : Cond.ofBits (iRa w) = some k) :
    exec (.swt c e) s = .next ((u.setSe c e { (u.se c e).past with waitSwt := true }).register
      { core := c, unit := .stream e, ctr := iCtr w, cond := k, value := iVal w, dec := bit w 54 }) :=
  exec_seGoes h hop rfl (by rw [hk]; rfl)

theorem exec_swt_reserved (hop : iOp w = opSwt) (hk : Cond.ofBits (iRa w) = none) :
    exec (.swt c e) s = .next (u.seFault c e eFormat) :=
  exec_seGoes h hop rfl (by rw [hk])

/-! ## LOOPM and PAGE (R201, R203) -/

theorem exec_loopm_walked (hop : iOp w = opLoopm) {n : Nat} (hcnt : (u.se c e).walkCnt.get none (u.se c e).pc = some n) :
    exec (.loopm c e) s = .next (u.loopmCount c e n false) :=
  exec_seGoes h hop rfl (by simp only [hcnt])

/-- A LOOPM whose count the walk has not read: it stands at its address register, own or device. -/
theorem exec_loopm_unwalked (hop : iOp w = opLoopm) (hcnt : (u.se c e).walkCnt.get none (u.se c e).pc = none) :
    let a := (u.se c e).ar (iLoopRb w)
    exec (.loopm c e) s = .next (if a.addr % 4 ≠ 0 then u.seFault c e eRange
      else if a.dev then if u.devRight c a.addr false ≠ eOk then u.seFault c e (u.devRight c a.addr false)
        else u.seReadValue c e .loopm a.addr 4
      else if 0x80000 < a.addr + 4 then u.seFault c e eRange
      else (u.noteRead c a.addr 4).loopmCount c e ((u.spad c).nat a.addr 4) ((u.spad c).bad a.addr 4)) := by
  intro a
  refine exec_seGoes h hop rfl ?_
  simp only [hcnt, bne_iff_ne, gt_iff_lt]
  rfl

/-- The page entry stands at its address register, own or device. -/
theorem exec_page_goes (hop : iOp w = opPage) :
    let x := u.se c e; let a := x.ar (iRb w); let low := (x.ar (iRc w)).addr % 2 ^ 14
    exec (.page c e) s = .next (if a.addr % 8 ≠ 0 then u.seFault c e eRange
      else if a.dev then if u.devRight c a.addr false ≠ eOk then u.seFault c e (u.devRight c a.addr false)
        else u.seReadValue c e (.page (iRa w) low) a.addr 8
      else if 0x80000 < a.addr + 8 then u.seFault c e eRange
      else (u.noteRead c a.addr 8).pageEntry c e ((u.spad c).nat a.addr 8) (iRa w) low ((u.spad c).bad a.addr 8)) := by
  intro x a low
  refine exec_seGoes h hop rfl ?_
  simp only [bne_iff_ne, gt_iff_lt]
  rfl

/-! ## MOV, PUSH and POP (R200, R212, R404, R405) -/

/-- The statuses of a MOV's addresses and of its scale array, in order. -/
theorem exec_mov_goes (hop : iOp w = opMov) :
    let x := u.se c e; let dst := x.ar (iRa w); let src := x.ar (iRb w); let b := movBytes x.cvt (iLen w); let blocks := movBlocks x.cvt (iLen w)
    let scale : ARef := match x.cvt with | some cw => x.ar (cvRs cw) | none => {}
    let mxS := match x.cvt with | some cw => fmtMx (cvS cw) | none => false
    let k0 := u.movCheck c e src dst b.1 b.2 x.cvt.isSome
    let k := if k0 ≠ eOk ∨ blocks = 0 then k0 else if scale.dev then u.rangeRight c scale.addr blocks (!mxS)
      else if 0x80000 < scale.addr + blocks then eRange else eOk
    exec (.mov c e) s = .next (if x.moving.isSome then u.seRequest c e else if k ≠ eOk then u.seFault c e k
      else (u.chargeRemote c src dst b.1 b.2).seMove c e
        { dst := dst, src := src, sn := b.1, dn := b.2, blocks := blocks, cvt := x.cvt, x := x.x, scale := scale }) := by
  intro x dst src b blocks scale mxS k0 k
  refine exec_seGoes h hop rfl ?_
  simp only [bne_iff_ne, Bool.or_eq_true, decide_eq_true_eq, gt_iff_lt]
  rfl

theorem exec_push_requesting {m : SeMove} (hop : iOp w = opPush) (hmove : (u.se c e).moving = some m) :
    exec (.push c e) s = .next (u.seRequest c e) :=
  exec_seGoes h hop rfl (by simp only [hmove, Option.isSome_some, if_true])

theorem exec_pop_requesting {m : SeMove} (hop : iOp w = opPop) (hmove : (u.se c e).moving = some m) :
    exec (.pop c e) s = .next (u.seRequest c e) :=
  exec_seGoes h hop rfl (by simp only [hmove, Option.isSome_some, if_true])

theorem exec_push_device (hop : iOp w = opPush) (hmove : (u.se c e).moving = none) (hdev : ((u.se c e).ar (iRb w)).dev = true) :
    exec (.push c e) s = .next (u.seFault c e ePermission) :=
  exec_seGoes h hop rfl (by simp only [hmove, hdev, Option.isSome_none, Bool.false_eq_true, if_false, if_true])

theorem exec_pop_device (hop : iOp w = opPop) (hmove : (u.se c e).moving = none) (hdev : ((u.se c e).ar (iRa w)).dev = true) :
    exec (.pop c e) s = .next (u.seFault c e ePermission) :=
  exec_seGoes h hop rfl (by simp only [hmove, hdev, Option.isSome_none, Bool.false_eq_true, if_false, if_true])

section
variable {v base seg i : Nat} (hseg : u.couchSeg c = some (v, base, seg, i)) (hmove : (u.se c e).moving = none)
include hseg hmove

/-- A PUSH from own scratchpad, of a core with a couch segment: the pointer moves unless the segment is too small. -/
theorem exec_push_own (hop : iOp w = opPush) (hdev : ((u.se c e).ar (iRb w)).dev = false)
    (hfit : ((u.se c e).ar (iRb w)).addr + iLen w ≤ spadSize) :
    let n := iLen w; let top := u.couchTop i
    exec (.push c e) s = .next (if seg < top + n then u.seFault c e eStash
      else ((u.setCouchTop i (top + n)).modVat v (fun y => { y with couchHwm := max y.couchHwm (top + n) })).seMove c e
        { dst := { addr := base + top, dev := true }, src := (u.se c e).ar (iRb w), sn := n, dn := n, push := true }) := by
  intro n top
  refine exec_seGoes h hop rfl ?_
  simp only [hmove, hdev, hseg, Option.isSome_none, Bool.false_eq_true, if_false, gt_iff_lt, if_neg (Nat.not_lt.mpr hfit)]
  rfl

/-- A POP to own scratchpad, of a core with a couch segment: it waits for an unacknowledged PUSH of its bytes. -/
theorem exec_pop_own (hop : iOp w = opPop) (hdev : ((u.se c e).ar (iRa w)).dev = false)
    (hfit : ((u.se c e).ar (iRa w)).addr + iLen w ≤ spadSize) :
    let n := iLen w; let top := u.couchTop i
    exec (.pop c e) s = .next (if top < n then u.seFault c e eStash
      else if (u.se c e).pushOut.any (fun p => p.2.1 < base + top - n + n && base + top - n < p.2.1 + p.2.2) then u
      else (u.setCouchTop i (top - n)).seMove c e
        { dst := (u.se c e).ar (iRa w), src := { addr := base + top - n, dev := true }, sn := n, dn := n }) := by
  intro n top
  refine exec_seGoes h hop rfl ?_
  simp only [hmove, hdev, hseg, Option.isSome_none, Bool.false_eq_true, if_false, gt_iff_lt, if_neg (Nat.not_lt.mpr hfit)]
  rfl

end

end

/-! ## What a LOOPM count and a page entry come to (R201, R203, Table 6.10) -/

section
variable (s : State) (c e n ent ra low : Nat)

theorem State.loopmCount_good : s.loopmCount c e n false = if 2 ^ 24 ≤ n then s.seFault c e eRange
    else s.setSe c e { (s.se c e).enterLoop (iCn (s.se c e).cur) (iEnd (s.se c e).cur) n with waitRead := false } := rfl

theorem State.loopmCount_poisoned : s.loopmCount c e n true = s.seFault c e ePoison := rfl

theorem State.pageEntry_valid (hv : bit ent 0 = true) : s.pageEntry c e ent ra low false =
    s.setSe c e { ((s.se c e).setA ra (fld ent 14 34 * 2 ^ 14 + low) true).past with waitRead := false } := by
  simp only [State.pageEntry, hv, Bool.not_true, Bool.false_eq_true, if_false]
  rfl

theorem State.pageEntry_invalid (hv : bit ent 0 = false) : s.pageEntry c e ent ra low false = s.seFault c e eRange := by
  simp only [State.pageEntry, hv, Bool.not_false, Bool.false_eq_true, if_false, if_true]

theorem State.pageEntry_poisoned : s.pageEntry c e ent ra low true = s.seFault c e ePoison := rfl

end

/-- Settles O21: each instruction of a stream program by its own equation. -/
theorem streamInstructions : Obligations.StreamInstructions := by
  unfold Obligations.StreamInstructions
  refine ⟨?registers, ?reads, ?mov, ?values, ?couch, ?requesting, ?poisoned⟩
  case registers =>
    intro c e w s u h x
    refine ⟨?seta, ?adda, ?addr, ?ldd, ?setx, fun hop => exec_seGoes h hop rfl rfl, fun hop => exec_seGoes h hop rfl rfl,
      fun hop => exec_seGoes h hop rfl rfl, fun hop => exec_seGoes h hop rfl rfl, fun hop => exec_seGoes h hop rfl rfl,
      fun hop => exec_seGoes h hop rfl rfl, fun hop => exec_seGoes h hop rfl rfl, ?takes, ?takeWaits, ?fills, ?fillWaits,
      fun k hop hk => exec_swt_goes h hop hk, exec_swt_reserved h⟩
    case seta => exact fun hop => nexts (seEffect h _ hop _ (by rw [Se.addrEffect_seta _ hop]))
    case adda => exact fun hop => nexts (seEffect h _ hop _ (by rw [Se.addrEffect_adda _ hop]))
    case addr => exact fun hop => nexts (seEffect h _ hop _ (by rw [Se.addrEffect_addr _ hop]))
    case ldd => exact fun hop => nexts (seEffect h _ hop _ (by rw [Se.addrEffect_ldd _ hop]))
    case setx => exact fun hop => nexts (seEffect h _ hop _ (by rw [Se.addrEffect_setx _ hop]))
    case takes => exact fun hop hready => (exec_rtake_goes h hop).trans (nexts (if_pos hready))
    case takeWaits => exact fun hop hzero => (exec_rtake_goes h hop).trans (nexts (if_neg (by rw [hzero]; decide)))
    case fills => exact fun hop hfree => (exec_rfill_goes h hop).trans (nexts (if_pos hfree))
    case fillWaits => exact fun hop hzero => (exec_rfill_goes h hop).trans (nexts (if_neg (by rw [hzero]; decide)))
  case reads =>
    intro c e w s u h x a
    refine ⟨?loopOwn, ?loopDevice, fun n hop hcnt => exec_loopm_walked h hop hcnt, ?loopMisaligned, ?pageOwn, ?pageDevice, ?pageMisaligned⟩
    case loopOwn =>
      intro hop hcnt hdev hal hfit
      rw [exec_loopm_unwalked h hop hcnt, if_neg (not_not_intro hal), ifn hdev, if_neg (Nat.not_lt.mpr hfit)]
    case loopDevice =>
      intro hop hcnt hdev hal hright
      rw [exec_loopm_unwalked h hop hcnt, if_neg (not_not_intro hal), ift hdev, if_neg (not_not_intro hright)]
    case loopMisaligned =>
      intro hop hcnt hal
      rw [exec_loopm_unwalked h hop hcnt, if_pos hal]
    case pageOwn =>
      intro hop hdev hal hfit
      rw [exec_page_goes h hop, if_neg (not_not_intro hal), ifn hdev, if_neg (Nat.not_lt.mpr hfit)]
    case pageDevice =>
      intro hop hdev hal hright
      rw [exec_page_goes h hop, if_neg (not_not_intro hal), ift hdev, if_neg (not_not_intro hright)]
    case pageMisaligned =>
      intro hop hal
      rw [exec_page_goes h hop, if_pos hal]
  case mov =>
    intro c e w s u h hop
    exact exec_mov_goes h hop
  case values =>
    intro c e n ent ra low s x
    exact ⟨fun hsmall => (State.loopmCount_good s c e n).trans (if_neg (Nat.not_le.mpr hsmall)),
      fun hlarge => (State.loopmCount_good s c e n).trans (if_pos hlarge),
      State.loopmCount_poisoned s c e n, State.pageEntry_valid s c e ent ra low, State.pageEntry_invalid s c e ent ra low,
      State.pageEntry_poisoned s c e ent ra low⟩
  case couch =>
    intro c e w v base seg i s u h hseg hmove x n top
    refine ⟨fun hop hdev hfit hfull => ?_, fun hop hdev hfit hroom => ?_, fun hop hdev => exec_push_device h hop hmove hdev,
      fun hop hdev hfit hempty => ?_, fun hop hdev hfit hholds => ?_, fun hop hdev => exec_pop_device h hop hmove hdev⟩
    · exact (exec_push_own h hseg hmove hop hdev hfit).trans (nexts (if_pos hfull))
    · exact (exec_push_own h hseg hmove hop hdev hfit).trans (nexts (if_neg (Nat.not_lt.mpr hroom)))
    · exact (exec_pop_own h hseg hmove hop hdev hfit).trans (nexts (if_pos hempty))
    · exact (exec_pop_own h hseg hmove hop hdev hfit).trans (nexts (if_neg (Nat.not_lt.mpr hholds)))
  case requesting =>
    intro c e w m s u h hmove
    exact ⟨fun hop => exec_push_requesting h hop hmove, fun hop => exec_pop_requesting h hop hmove⟩
  case poisoned =>
    intro c e i s hi hon hbad
    obtain ⟨op, f, hfetch⟩ := exec_streamInstr hi s
    rw [hfetch, State.seInstr_poisoned hon hbad]

end Sys2Proof.Machine
end

section
/-! PROOFS. The arrivals, ring tests, write pieces and delivery points of streams (O22). -/

namespace Sys2Proof.Machine

/-! ## Ring tests that pass (R205) -/

/-- A free test made again: it stands until its counter is not 0. -/
def State.freeTest (c e : Nat) (s : State) (t : Nat × Nat) : State :=
  if 1 ≤ s.ctr t.2 then (s.freePass c e t.1 t.2).modSe c e (fun y => { y with freeTests := y.freeTests.erase t }) else s

theorem State.freeTest_stands {s : State} {t : Nat × Nat} (c e : Nat) (hzero : s.ctr t.2 = 0) : s.freeTest c e t = s :=
  if_neg (by rw [hzero]; decide)

theorem foldl_freeTest_stands {s : State} {l : List (Nat × Nat)} (c e : Nat) (hzero : ∀ t ∈ l, s.ctr t.2 = 0) :
    l.foldl (State.freeTest c e) s = s := by
  induction l with
  | nil => rfl
  | cons t l ih =>
    rw [List.foldl_cons, State.freeTest_stands c e (hzero t List.mem_cons_self), ih (fun t' ht' => hzero t' (List.mem_cons_of_mem t ht'))]

theorem exec_rfillFreeTestPass_on {s : State} {c e : Nat} (hon : s.enginesOn c = true) :
    exec (.rfillFreeTestPass c e) s = .next ((s.se c e).freeTests.foldl (State.freeTest c e) s) := by
  simp only [exec, execRfillFreeTestPass, hon, Bool.not_true, Bool.false_eq_true, if_false]
  rfl

section
variable {s : State} {c e ctr : Nat} (hready : 1 ≤ s.ctr ctr) (hon : s.enginesOn c = true)
include hready hon

/-- Only the last of the waiting free tests has a counter to lower. -/
theorem exec_rfillFreeTestPass_last {k : Nat} {l : List (Nat × Nat)} (htests : (s.se c e).freeTests = l ++ [(k, ctr)])
    (hzero : ∀ t ∈ l, s.ctr t.2 = 0) :
    exec (.rfillFreeTestPass c e) s =
      .next ((s.freePass c e k ctr).modSe c e (fun y => { y with freeTests := y.freeTests.erase (k, ctr) })) := by
  rw [exec_rfillFreeTestPass_on hon, htests, List.foldl_append, foldl_freeTest_stands c e hzero]
  exact nexts (if_pos hready)

theorem exec_rtakePass_waiting (hwait : (s.se c e).waitTake = some ctr) :
    exec (.rtakePass c e) s =
      .next ((s.decCtr ctr 1).modSe c e (fun y => { (y.addrEffect y.cur).past with waitTake := none })) := by
  simp only [exec, execRtakePass, hwait, hready, hon, decide_true, Bool.and_self, if_true]

end

/-! ## Write pieces (R205, R209, R210, R213) -/

/-- When the next write piece of a move may be made. -/
theorem Se.pieceDue_iff (x : Se) (m : SeMove) (p : Bool × Nat × Nat) (now : Nat) :
    let h := if p.1 then m.dn else p.2.1 + p.2.2
    x.pieceDue m p now = true ↔ m.ready h = true ∧ (∀ q ∈ m.reqs, m.wants (m.srcNeed h) q.1 = true → q.2 ≤ now) ∧
      (∀ t ∈ x.freeTests, m.k < t.1) ∧ x.gate.get 0 m.k ≤ now ∧ m.k = x.delivery ∧
      (if stDl x.ent then x.schedule m.k ≤ now else x.wroteAt ≤ now) := by
  intro h
  simp only [Se.pieceDue, Bool.and_eq_true, List.all_eq_true, Bool.or_eq_true, Bool.not_eq_true', decide_eq_true_eq, List.any_eq_false,
    beq_iff_eq, Nat.not_le, and_assoc, Bool.not_eq_true, imp_iff_not_or, Bool.ite_eq_true_distrib, h]

section
variable {s : State} {c e : Nat} {p : Bool × Nat × Nat} {m : SeMove}
  (hmove : (s.se c e).moves.find? (fun m => m.done < (m.ownRuns (s.se c e).rate).length) = some m)
  (hpiece : (m.ownRuns (s.se c e).rate)[m.done]? = some p)
include hmove hpiece

theorem exec_deliveryPieceWrite_early (hearly : (s.se c e).pieceDue m p (s.cycleOf c).toNat = false) :
    exec (.deliveryPieceWrite c e) s = .next s := by
  simp only [exec, execDeliveryPieceWrite, hmove, hpiece, hearly, Bool.not_false, Bool.or_true, if_true]

theorem exec_deliveryPieceWrite_due (hon : s.enginesOn c = true) (hdue : (s.se c e).pieceDue m p (s.cycleOf c).toNat = true) :
    let x := s.se c e; let now := (s.cycleOf c).toNat; let o := s.movOut c m
    let u := if p.1 then s.spadStore c m.scale.addr o.scales (fun i => o.scaleBad.has i)
      else s.spadStore c (m.dst.addr + p.2.1) ((o.bytes.drop p.2.1).take p.2.2) (fun i => o.bad.has (p.2.1 + i))
    let late := stDl x.ent && m.asyncLate (if p.1 then m.dn else p.2.1 + p.2.2) (x.schedule m.k)
    let v := u.modSe c e (fun y => { y.modMove m.id (fun z => { z with done := z.done + 1 }) with
      piecesMade := y.piecesMade + 1, wroteAt := now + 1, slip := if stDl x.ent then y.slip + (now - x.schedule m.k) else y.slip,
      asyncSlip := y.asyncSlip || late })
    exec (.deliveryPieceWrite c e) s = .next (((v.seDone c e m.id).seRequest c e).seSettle c e) := by
  intro x now o u late v
  simp only [exec, execDeliveryPieceWrite, hmove, hpiece, hon, hdue, Bool.not_true, Bool.or_self, Bool.false_eq_true, if_false]
  rfl

end

/-! ## Delivery points (R209 to R211, R213) -/

section
variable {s : State} {c e k at_ val : Nat} {rdy : Option Nat} {l : List SeAct} (hact : (s.se c e).acts = .point k rdy at_ val :: l)
  (hwritten : (s.se c e).moves.any (fun m => m.k == k && m.done < (m.ownRuns (s.se c e).rate).length) = false)
  (hfree : (s.se c e).freeTests.any (fun f => f.1 ≤ k) = false) (hon : s.enginesOn c = true) (hpoint : at_ < (s.cycleOf c).toNat)
  (hwrote : (s.se c e).wroteAt ≤ (s.cycleOf c).toNat)
  (hdue : stDl (s.se c e).ent = true → stBase (s.se c e).ent + k * stStep (s.se c e).ent + (s.se c e).slip ≤ (s.cycleOf c).toNat)
include hact hwritten hfree hon hpoint hwrote hdue

/-- The point at the front is passed: its ring counter is raised and a late delivery is counted in its class. -/
theorem exec_deliveryAction_due :
    let x := s.se c e; let now := (s.cycleOf c).toNat; let d := stBase x.ent + k * stStep x.ent
    let late := stDl x.ent && decide (d < now) && decide (x.exempt ≤ d)
    let u := s.modSe c e (fun y => { y with
      acts := l, deliveries := (y.deliveries + 1) % 2 ^ 16, piecesMade := 0, slip := 0, asyncSlip := false, wroteAt := 0, gate := y.gate.del k })
    let v := match rdy with | some a => u.addFrom c a 1 | none => u
    exec (.deliveryAction c e) s = .next ((if late && (x.asyncSlip || (val != 0 && decide (d ≤ val) && decide (d < at_ + 1)))
        then (v.modSeAsyncLate c (fun n => min 0xFFFF (n + 1))).detBreakCore c 1
      else if late then v.modSeOndieLate c (fun n => min 0xFFFF (n + 1)) else v).seSettle c e) := by
  intro x now d late u v
  have hontime : (stDl x.ent && decide (now < d + x.slip)) = false := by
    simpa only [Bool.and_eq_false_imp, decide_eq_false_iff_not, Nat.not_lt] using hdue
  simp only [exec, execDeliveryAction, hact]
  refine nexts ((if_neg ?_).trans rfl)
  rw [hwritten, hfree, hon, decide_eq_false (Nat.not_le.mpr hpoint), decide_eq_false (Nat.not_lt.mpr hwrote), hontime]
  decide

end

/-! ## Acknowledgements (R214, R216, R371) -/

theorem exec_deviceWriteAck_waiting {s : State} {c e : Nat} {p : SeWrite} (hwrite : (s.se c e).writes.find? (fun q => q.id == p.id) = some p)
    (st : Nat) :
    let x := s.se c e; let now := (s.cycleOf c).toNat
    let u := s.modSe c e (fun y => { y with
      writes := y.writes.filter (fun q => q.id != p.id), pushOut := y.pushOut.filter (fun q => q.1 != p.id),
      cmdA := y.cmdA.filter (fun q => q.1 != p.id) })
    let v := if (s.vat ((s.vatOfCore c).getD 0)).det.detOn then (match x.cmdA.find? (fun q => q.1 == p.id) with
      | some q => if q.2 < now then u.detBreakCore c 0x10 else u
      | none => if p.async && x.ackDue p < now then u.detBreakCore c 4 else u) else u
    exec (.deviceWriteAck c e p.id st) s = .next (if st ≠ eOk then v.seFaultAt c e p.mv p.k st else v.seSettle c e) := by
  intro x now u v
  simp only [exec, execDeviceWriteAck, hwrite, bne_iff_ne, Bool.not_eq_true', ← Bool.not_eq_true, ite_not]
  rfl

/-- The queue of a STREAM in progress halts with the fault's status (R216). -/
theorem State.seFault_running {s : State} {c e : Nat} {m : W256} (hentry : (s.se c e).entry = some m) (st : Nat) :
    s.seFault c e st = (s.modSe c e (fun x => { x with entry := none, faulted := true })).reject c (2 + e) st m := by
  simp only [State.seFault, hentry, seQueue]

/-- Settles O22: each event of a stream's deliveries by its own equation. -/
theorem streamDeliveries : Obligations.StreamDeliveries := by
  unfold Obligations.StreamDeliveries
  refine ⟨?returns, ?tests, fun c e ctr k s => rfl, ?point, ?piece, ?due, ?acks, fun c e s => ⟨rfl, rfl⟩, ?faults⟩
  case returns =>
    -- The answer and what the read was made for decide what comes of it; a refused read of bytes faults the move of its first piece.
    intro c e r ans s hread x now u v
    simp only [exec, execStreamReadReturn, hread]
    cases ans with
    | ok data bad => cases hkind : r.kind <;> rfl
    | refused st =>
      cases hkind : r.kind with
      | pieces ps => cases ps <;> rfl
      | page ra low => rfl
      | loopm => rfl
      | walk slot => rfl
  case tests =>
    intro c e ctr k s hready hon
    exact ⟨fun l htests hzero => exec_rfillFreeTestPass_last hready hon htests hzero, exec_rtakePass_waiting hready hon⟩
  case point =>
    intro c e k at_ val rdy l s hact hwritten hfree hon hpoint hwrote hdue
    exact exec_deliveryAction_due hact hwritten hfree hon hpoint hwrote hdue
  case piece =>
    intro c e p m s hmove hpiece hon
    exact ⟨exec_deliveryPieceWrite_due hmove hpiece hon, exec_deliveryPieceWrite_early hmove hpiece⟩
  case due =>
    intro x m p now hdue
    obtain ⟨hready, hreqs, htests, hgate, hturn, hwhen⟩ := (Se.pieceDue_iff x m p now).mp hdue
    exact ⟨hready, hreqs, htests, hgate, hturn, fun hdl => (if_pos hdl).mp hwhen, fun hdl => (if_neg (Bool.eq_false_iff.mp hdl)).mp hwhen⟩
  case acks =>
    intro c e st p s hwrite
    exact exec_deviceWriteAck_waiting hwrite st
  case faults =>
    intro c e mid k st m s hentry
    exact ⟨State.seFault_running hentry st, rfl⟩

end Sys2Proof.Machine
end

section
/-! PROOFS. Packets that reach an endpoint or a mailbox (O24), and the opening and closing of channels (O25). -/

namespace Sys2Proof.Machine

/-! ## Packets that a core or its router refuses (R245, R265) -/

section
variable {s : State} {c kind : Nat} {m : ChMsg}

theorem State.chanArrive_fenced (hf : s.net.fenced.has c = true) (kind : Nat) (m : ChMsg) (f : State → State) :
    s.chanArrive c kind m f = s.chanRefused kind m eFenced := by
  simp only [State.chanArrive, hf, if_true]

theorem State.chanArrive_reserved (hf : s.net.fenced.has c = false) (hr : m.reserved = true) (kind : Nat) (f : State → State) :
    s.chanArrive c kind m f = s.chanRefuse c kind m eFormat true := by
  simp only [State.chanArrive, hf, hr, Bool.false_eq_true, if_false, if_true]

/-- A command whose work is a packet's arrival refuses it at a fenced core and one with a reserved field, whatever it does with another. -/
theorem exec_arrival_refused {i : Instr} (hi : ∃ f, exec i s = .next (s.chanArrive c kind m f)) :
    (s.net.fenced.has c = true → exec i s = .next (s.chanRefused kind m eFenced)) ∧
    (s.net.fenced.has c = false → m.reserved = true → exec i s = .next (s.chanRefuse c kind m eFormat true)) := by
  obtain ⟨f, hexec⟩ := hi
  rw [hexec]
  exact ⟨fun hf => nexts (State.chanArrive_fenced hf kind m f), fun hf hr => nexts (State.chanArrive_reserved hf hr kind f)⟩

/-- The packets whose header names their endpoint. -/
theorem exec_packet_arrives {i : Instr}
    (hi : (i, kind) ∈ [(Instr.channelData c m, 1), (.mailboxMessage c m, 4), (.mailboxAnswer c m, 5), (.openPacket c m, 6), (.accept c m, 7),
      (.closePacket (c, m), 9)]) (s : State) : ∃ f, exec i s = .next (s.chanArrive c kind m f) := by
  simp only [List.mem_cons, Prod.mk.injEq, List.not_mem_nil, or_false] at hi
  rcases hi with ⟨rfl, rfl⟩ | ⟨rfl, rfl⟩ | ⟨rfl, rfl⟩ | ⟨rfl, rfl⟩ | ⟨rfl, rfl⟩ | ⟨rfl, rfl⟩ <;> exact ⟨_, rfl⟩

/-- The packets that return to the endpoint that asked. -/
theorem exec_answer_arrives {e : Nat} {i : Instr} (hi : (i, kind) ∈ [(Instr.creditReturn c e m, 2), (.landingAck c e m, 3), (.reject c e m, 8)])
    (s : State) : ∃ f, exec i s = .next (s.chanArrive c kind { m with dstEp := e } f) := by
  simp only [List.mem_cons, Prod.mk.injEq, List.not_mem_nil, or_false] at hi
  rcases hi with ⟨rfl, rfl⟩ | ⟨rfl, rfl⟩ | ⟨rfl, rfl⟩ <;> exact ⟨_, rfl⟩

end

/-! ## DATA packets (R265, R266, R316) -/

/-- The packet continues a message at a receive endpoint: it comes from the endpoint's peer, at the offset where the bytes kept so far end. -/
def State.continues (s : State) (c : Nat) (m : ChMsg) : Prop :=
  cdRole (s.ep c (m.dstEp % 64)).desc = 2 ∧ s.fromPeer c (m.dstEp % 64) m = true ∧ m.off = ((s.ep c (m.dstEp % 64)).arriving (chFar m)).data.length

theorem State.not_continues_iff (s : State) (c : Nat) (m : ChMsg) :
    ¬ s.continues c m ↔ cdRole (s.ep c (m.dstEp % 64)).desc ≠ 2 ∨ s.fromPeer c (m.dstEp % 64) m = false ∨
      m.off ≠ ((s.ep c (m.dstEp % 64)).arriving (chFar m)).data.length := by
  simp only [State.continues, Classical.not_and_iff_not_or_not, Bool.not_eq_true]

section
variable {s : State} {c : Nat} {m : ChMsg} (hf : s.net.fenced.has c = false) (hr : m.reserved = false)
include hf hr

/-- Of a message already refused nothing is kept, and its last packet ends it. -/
theorem exec_channelData_discarded (hdrop : ((s.ep c (m.dstEp % 64)).arriving (chFar m)).drop = true) :
    exec (.channelData c m) s = .next (if m.last then s.dropRest c m else s) := by
  simp only [exec, execChannelData, State.chanArrive_open hf hr, hdrop, if_true]

theorem exec_channelData_deckle (hdrop : ((s.ep c (m.dstEp % 64)).arriving (chFar m)).drop = false) (hdeckle : s.crossesDeckle c m = true) :
    exec (.channelData c m) s = .next (((s.dropRest c m).countDeckle c).chanRefused 1 m eState) := by
  simp only [exec, execChannelData, State.chanArrive_open hf hr, hdrop, hdeckle, Bool.false_eq_true, if_false, if_true]

/-- A packet that does not continue its message refuses it: R266 applies no message in part (log entry 148). -/
theorem exec_channelData_refused (hdrop : ((s.ep c (m.dstEp % 64)).arriving (chFar m)).drop = false) (hdeckle : s.crossesDeckle c m = false)
    (hgoes : ¬ s.continues c m) : exec (.channelData c m) s = .next ((s.dropRest c m).chanRefuse c 1 m eState false) := by
  have htest : (cdRole (s.ep c (m.dstEp % 64)).desc != 2 || !(s.fromPeer c (m.dstEp % 64) m) ||
      m.off != ((s.ep c (m.dstEp % 64)).arriving (chFar m)).data.length) = true := by
    simpa only [Bool.or_eq_true, bne_iff_ne, Bool.not_eq_true', or_assoc] using (s.not_continues_iff c m).mp hgoes
  simp only [exec, execChannelData, State.chanArrive_open hf hr, hdrop, hdeckle, htest, Bool.false_eq_true, if_false, if_true]

/-- A packet that continues its message is kept, and the last one has the whole message placed (R265, R266). -/
theorem exec_channelData_kept (hdrop : ((s.ep c (m.dstEp % 64)).arriving (chFar m)).drop = false) (hdeckle : s.crossesDeckle c m = false)
    (hgoes : s.continues c m) :
    let e := m.dstEp % 64; let x := s.ep c e; let r := x.arriving (chFar m); let data := r.data ++ m.data
    let bad := m.bad.foldl (fun b k => b.add (m.off + k)) r.bad
    exec (.channelData c m) s = .next (if m.last
      then (s.setEp c e { (x.arrived (chFar m) none) with far := if m.remote then chFar m else x.far }).place c e m data bad
      else s.setEp c e (x.arrived (chFar m) (some { far := chFar m, data := data, bad := bad }))) := by
  obtain ⟨hrole, hpeer, hoff⟩ := hgoes
  intro e x r data bad
  have htest : (cdRole x.desc != 2 || !(s.fromPeer c e m) || m.off != r.data.length) = false := by
    simp only [hrole, hpeer, hoff, e, x, r, bne_self_eq_false, Bool.not_true, Bool.or_self]
  simp only [exec, execChannelData, State.chanArrive_open hf hr]
  simp only [hdrop, hdeckle, htest, e, x, r, data, bad, Bool.false_eq_true, if_false]

end

/-! ## Where a whole message goes (R257, R272, R276, R279) -/

section
variable {s : State} {c e : Nat} (m : ChMsg) (data : List Byte) (bad : NSet)

/-- A message takes the write slot only behind no spilled one and while a slot is free (R276). -/
theorem slotFree_false_iff {x : Ep} {n : Nat} : (x.spill.isEmpty && decide (x.occ < n)) = false ↔ x.spill ≠ [] ∨ n ≤ x.occ := by
  simp [or_iff_not_imp_left]

theorem State.place_slot (hspill : (s.ep c e).spill = []) (hfree : (s.ep c e).occ < cdSlots (s.ep c e).desc) :
    let u := s.land c e data bad m.seq (if m.remote then m.srcNode else 0) false
    s.place c e m data bad = if m.ackReq then u.toSender c e 3 else u := by
  simp only [State.place, hspill, hfree, List.isEmpty_nil, decide_true, Bool.and_self, if_true]

theorem State.place_spill (hfull : (s.ep c e).spill ≠ [] ∨ cdSlots (s.ep c e).desc ≤ (s.ep c e).occ)
    (hroom : (s.ep c e).spill.length < cdSpillN (s.ep c e).desc) :
    s.place c e m data bad = s.spillOut c e data bad m.seq (if m.remote then m.srcNode else 0) m.ackReq := by
  simp only [State.place, slotFree_false_iff.mpr hfull, hroom, Bool.false_eq_true, if_false, if_true]

theorem State.place_overrun (hfull : (s.ep c e).spill ≠ [] ∨ cdSlots (s.ep c e).desc ≤ (s.ep c e).occ)
    (hroom : cdSpillN (s.ep c e).desc ≤ (s.ep c e).spill.length) :
    s.place c e m data bad = (((s.modEp c e (fun y => { y with overrun := true })).chanRefused 1 m eState).raiseCore c causeOverrun).log
      (srcCore c) evOverrun eState (s.vatOfCore c) 0 e := by
  simp only [State.place, slotFree_false_iff.mpr hfull, Nat.not_lt.mpr hroom, Bool.false_eq_true, if_false]

end

section
variable (s : State) (c e : Nat) (data : List Byte) (bad : NSet) (seq src : Nat) (spilled : Bool)

/-- Is the message in endpoint `e` of core `c` held to a release cycle (R279)? -/
def State.landTimed : Bool := cdRelEn (s.ep c e).desc && s.detNow c

/-- Payload and slot record are written and the slot is taken, before the message is announced (R257). -/
def State.landWrites : State :=
  let x := s.ep c e; let d := x.desc; let at_ := cdRing d + x.wp * cdStride d
  let late := s.landTimed c e && decide (cdRelease d seq < (s.cycleOf c).toNat)
  ((s.spadStore c at_ data (fun i => bad.has i)).spadStore c (cdRec d + 16 * x.wp)
    (leBytes 16 (slotRecord data.length (!bad.isEmpty) spilled late seq at_ src)) (fun _ => false)).setEp c e
      { x with wp := (x.wp + 1) % cdSlots d, occ := x.occ + 1, msgs := satAdd top24 x.msgs 1 }

/-- Landing writes the message, counts what breaks determinism, and announces the message at once or at its release cycle (R257, R279). -/
theorem State.land_eq :
    let d := (s.ep c e).desc; let timed := s.landTimed c e; let rel := cdRelease d seq; let cyc := (s.cycleOf c).toNat
    let u := s.landWrites c e data bad seq src spilled
    let v := if timed && decide (rel < cyc) then u.detBreakCore c 7 else if decide (2 ≤ cdPath d) && !cdRelEn d then u.detBreakCore c 9 else u
    s.land c e data bad seq src spilled =
      if timed && decide (cyc < rel) then v.modEp c e (fun y => { y with heldRdy := y.heldRdy ++ [rel] }) else v.addFrom c (cdRdy d) 1 := rfl

variable {s c e}

theorem State.land_timed (htimed : s.landTimed c e = true) :
    let d := (s.ep c e).desc; let rel := cdRelease d seq; let cyc := (s.cycleOf c).toNat
    let u := s.landWrites c e data bad seq src spilled
    let v := if rel < cyc then u.detBreakCore c 7 else u
    s.land c e data bad seq src spilled =
      if cyc < rel then v.modEp c e (fun y => { y with heldRdy := y.heldRdy ++ [rel] }) else v.addFrom c (cdRdy d) 1 := by
  have hrel : cdRelEn (s.ep c e).desc = true := ((Bool.and_eq_true _ _).mp htimed).1
  simp only [State.land_eq, htimed, hrel, Bool.true_and, Bool.not_true, Bool.and_false, Bool.false_eq_true, if_false, decide_eq_true_eq]

theorem State.land_untimed (htimed : s.landTimed c e = false) :
    let d := (s.ep c e).desc; let u := s.landWrites c e data bad seq src spilled
    s.land c e data bad seq src spilled = (if 2 ≤ cdPath d ∧ cdRelEn d = false then u.detBreakCore c 9 else u).addFrom c (cdRdy d) 1 := by
  simp only [State.land_eq, htimed, Bool.false_and, Bool.false_eq_true, if_false, Bool.and_eq_true, decide_eq_true_eq, Bool.not_eq_true']

end

/-! ## Free tests, drains, releases and credit-less counts (R258, R276, R277, R279, R316) -/

section
variable {s : State} {c e : Nat}

/-- A free test that passes frees the oldest slot and returns its credit, unless a deckle stands between (R258, R276, R316). -/
theorem exec_endpointFreeTestPass (hrole : cdRole (s.ep c e).desc = 2) (hocc : (s.ep c e).occ ≠ 0) (hctr : 1 ≤ s.ctr (cdFree (s.ep c e).desc))
    (hf : s.net.fenced.has c = false) :
    let d := (s.ep c e).desc; let across := if cdPath d ≤ 1 then s.deckleBetween c (cdPeerCl d) else s.deckled (clusterOf c)
    exec (.endpointFreeTestPass c e) s = .next (if across then s
      else (((s.decCtr (cdFree d) 1).modEp c e (fun y => { y with occ := y.occ - 1 })).toSender c e 2).drainSpill c e) := by
  intro d across
  simp only [exec, execEndpointFreeTestPass, hrole, hctr, hf, bne_iff_ne.mpr hocc, beq_self_eq_true, decide_true, Bool.not_false, Bool.and_self,
    Bool.true_and, Bool.not_eq_true', ← Bool.not_eq_true, ite_not]
  rfl

theorem exec_spillDrain {q : Spilled} {l : List Spilled} (hspill : (s.ep c e).spill = q :: l) (hdrains : (s.ep c e).drains ≠ 0)
    (data : List Byte) (bad : NSet) :
    let x := s.ep c e
    exec (.spillDrain c e (.ok data bad)) s = .next ((s.setEp c e { x with
      spill := l, drains := x.drains - 1, spHead := (x.spHead + 1) % cdSpillN x.desc }).land c e
        ((data.drop 16).take q.len) ((bad.filter (fun k => decide (16 ≤ k))).map (fun k => k - 16)) q.seq q.srcNode true) := by
  simp only [exec, execSpillDrain, hspill, beq_eq_false_iff_ne.mpr hdrains, Bool.false_eq_true, if_false]

theorem exec_spillWriteAck {a : Bool} {l : List Bool} (hacks : (s.ep c e).spillAcks = a :: l) :
    let u := s.setEp c e { (s.ep c e) with spillAcks := l }
    exec (.spillWriteAck c e) s = .next (if a then u.toSender c e 3 else u) := by
  simp only [exec, execSpillWriteAck, hacks]

theorem exec_deadlockDetect {t v : Nat} (hsince : (s.ep c e).dlSince = some t) (hvat : s.vatOfCore c = some v) :
    exec (.deadlockDetect c e) s = .next (if (s.ep c e).dlTold = true ∨ s.clk.fast.toNat < t + 2 ^ (s.vat v).dlLog2Latch then s
      else ((s.setEp c e { (s.ep c e) with deadlock := true, dlTold := true }).raiseCore c causeDeadlock).log
        (srcCore c) evDeadlock eDeadlock (some v) 0 e) := by
  simp only [exec, execDeadlockDetect, hsince, hvat, Bool.or_eq_true, decide_eq_true_eq]

theorem exec_releaseCycle {r : Nat} {l : List Nat} (hheld : (s.ep c e).heldRdy = r :: l) :
    exec (.releaseCycle c e) s = .next (if r ≤ (s.cycleOf c).toNat
      then (s.setEp c e { (s.ep c e) with heldRdy := l }).addFrom c (cdRdy (s.ep c e).desc) 1 else s) := by
  simp only [exec, execReleaseCycle, hheld]

end

/-! ## Mailboxes (R260) -/

/-- The MBRSP that answers a mailbox message. -/
def State.mailboxReply (s : State) (c : Nat) (m : ChMsg) (status : Nat) : State :=
  s.chanOut c 5 (if m.remote then m.srcNode else 0) m.srcCl m.srcCore none
    { (s.chHead c (m.dstEp % 64) m.remote) with dstEp := m.srcEp, status := status }

section
variable {s : State} {c : Nat} {m : ChMsg} (hf : s.net.fenced.has c = false) (hr : m.reserved = false)
include hf hr

theorem exec_mailboxMessage_deckle (hdeckle : s.crossesDeckle c m = true) :
    exec (.mailboxMessage c m) s = .next ((s.countDeckle c).chanRefused 4 m eState) := by
  simp only [exec, execMailboxMessage, State.chanArrive_open hf hr, hdeckle, if_true]

theorem exec_mailboxMessage_refused (hdeckle : s.crossesDeckle c m = false)
    (hfull : cdRole (s.ep c (m.dstEp % 64)).desc ≠ 3 ∨ (s.ep c (m.dstEp % 64)).full = true) :
    exec (.mailboxMessage c m) s = .next ((s.log (srcCore c) evRefused eState (s.vatOfCore c) 0 (m.dstEp % 64)).mailboxReply c m eState) := by
  have htest : (cdRole (s.ep c (m.dstEp % 64)).desc != 3 || (s.ep c (m.dstEp % 64)).full) = true := by
    simpa only [Bool.or_eq_true, bne_iff_ne] using hfull
  simp only [exec, execMailboxMessage, State.chanArrive_open hf hr, hdeckle, htest, Bool.false_eq_true, if_false, if_true]
  rfl

theorem exec_mailboxMessage_stored (hdeckle : s.crossesDeckle c m = false) (hrole : cdRole (s.ep c (m.dstEp % 64)).desc = 3)
    (hempty : (s.ep c (m.dstEp % 64)).full = false) :
    let e := m.dstEp % 64; let x := s.ep c e
    let u := s.setEp c e { x with full := true, mbox :=
      { srcNode := if m.remote then m.srcNode else 0, remote := m.remote, srcCl := m.srcCl, srcCore := m.srcCore, srcEp := m.srcEp, data := m.data } }
    exec (.mailboxMessage c m) s = .next (((if cdRdy x.desc = 0 then u
      else u.addFrom c (cdRdy x.desc) 1).raiseCore c causeMbox).mailboxReply c m eOk) := by
  intro e x u
  simp only [exec, execMailboxMessage, State.chanArrive_open hf hr, hdeckle, hrole, hempty, bne_self_eq_false, Bool.or_self, Bool.false_eq_true,
    if_false, ite_ne0]
  rfl

end

/-- Settles O24: each packet, ring test and count by the equation of its own case. -/
theorem channelArrivals : Obligations.ChannelArrivals := by
  unfold Obligations.ChannelArrivals
  refine ⟨?packets, ?answers, ?data, ?place, ?land, ?frees, ?drains, ?spillAck, ?mailbox, ?deadlock, ?released⟩
  case packets => exact fun c kind i m s hi => exec_arrival_refused (exec_packet_arrives hi s)
  case answers => exact fun c e kind i m s hi => exec_arrival_refused (exec_answer_arrives hi s)
  case data =>
    intro c m s hf hr e x f r data bad
    refine ⟨fun hdrop hdeckle hrole hpeer hoff hlast => ?_, fun hdrop hdeckle hrole hpeer hoff hlast => ?_,
      fun hdrop hdeckle hbad => exec_channelData_refused hf hr hdrop hdeckle ((s.not_continues_iff c m).mpr hbad),
      exec_channelData_deckle hf hr, exec_channelData_discarded hf hr, rfl⟩
    · exact (exec_channelData_kept hf hr hdrop hdeckle ⟨hrole, hpeer, hoff⟩).trans (nexts (ifn hlast))
    · exact (exec_channelData_kept hf hr hdrop hdeckle ⟨hrole, hpeer, hoff⟩).trans (nexts (ift hlast))
  case place =>
    intro c e m data bad s x d src
    exact ⟨State.place_slot m data bad, State.place_spill m data bad, State.place_overrun m data bad⟩
  case land =>
    intro c e seq src data bad sp s x d at_ timed rel cyc u
    refine ⟨fun htimed hbefore => ?_, fun htimed hat => ?_, fun htimed hafter => ?_, State.land_untimed data bad seq src sp⟩ <;>
      refine (State.land_timed data bad seq src sp htimed).trans ?_
    · exact (if_pos hbefore).trans (congrArg (fun v : State => v.modEp c e _) (if_neg (Nat.lt_asymm hbefore)))
    · exact (if_neg hat.not_gt).trans (congrArg (fun v : State => v.addFrom c _ 1) (if_neg hat.not_lt))
    · exact (if_neg (Nat.lt_asymm hafter)).trans (congrArg (fun v : State => v.addFrom c _ 1) (if_pos hafter))
  case frees => exact fun c e s hrole hocc hctr hf => exec_endpointFreeTestPass hrole hocc hctr hf
  case drains => exact fun c e data bad q l s hspill hdrains => exec_spillDrain hspill hdrains data bad
  case spillAck => exact fun c e a l s hacks => exec_spillWriteAck hacks
  case mailbox =>
    intro c m s hf hr e x u ans
    exact ⟨exec_mailboxMessage_stored hf hr, exec_mailboxMessage_refused hf hr, exec_mailboxMessage_deckle hf hr, fun i => rfl⟩
  case deadlock => exact fun c e t v s hsince hvat => exec_deadlockDetect hsince hvat
  case released => exact fun c e r l s hheld => exec_releaseCycle hheld

/-! ## Opening and closing channels (R269-R271) -/

section
variable {s : State} {c : Nat} {m : ChMsg}

/-- A sender on another device outside the port's permissions is refused before any other check (R270). -/
theorem State.openCheck_permission (hremote : m.remote = true)
    (hbar : (s.port m.port).perm.chan = false ∨ m.srcNode < (s.port m.port).perm.lo ∨ (s.port m.port).perm.hi < m.srcNode) :
    s.openCheck c m = ePermission := by
  have htest : (m.remote && !((s.port m.port).perm.chan && decide ((s.port m.port).perm.lo ≤ m.srcNode) &&
      decide (m.srcNode ≤ (s.port m.port).perm.hi))) = true := by
    simpa [hremote, or_assoc, or_iff_not_imp_left] using hbar
  simp only [State.openCheck, htest, if_true]

theorem State.closeConn_opened {i : Nat} (hopen : (s.conn i).opened = true) :
    s.closeConn i = (s.setConn i { (s.conn i) with opened := false, gen := ((s.conn i).gen + 1) % 4096 }).modEp (s.conn i).core (s.conn i).ep
      (fun x => { x.emptied with st := .listen, conn := 0 }) := by
  simp only [State.closeConn, hopen, Bool.not_true, Bool.false_eq_true, if_false]

variable (hf : s.net.fenced.has c = false) (hr : m.reserved = false)
include hf hr

theorem exec_openPacket_deckle (hdeckle : s.crossesDeckle c m = true) :
    exec (.openPacket c m) s = .next ((s.countDeckle c).chanRefused 6 m eState) := by
  simp only [exec, execOpenPacket, State.chanArrive_open hf hr, hdeckle, if_true]

/-- Short of the deckle an OPEN is answered: REJECT with the status of its check, or ACCEPT with the lowest free connection entry (R270, log entry 44). -/
theorem exec_openPacket_answered (hdeckle : s.crossesDeckle c m = false) :
    let e := m.dstEp % 64; let x := s.ep c e; let h := s.chHead c e true
    let i := ((List.range 4096).find? (fun i => !(s.conn i).opened)).getD 0; let id := (s.conn i).gen * 4096 + i
    exec (.openPacket c m) s = .next (if s.openCheck c m = eOk then
        ((s.modConn i (fun k => { k with opened := true, core := c, ep := e, node := m.srcNode, peerEp := m.srcEp })).setEp c e
          { x.emptied with st := .opened, conn := id, far := chFar m, wp := 0, seq := 0 }).chanOut c 7 m.srcNode m.srcCl m.srcCore none
            { h with dstEp := m.srcEp, conn := id, data := leBytes 16 (cdSlots x.desc + cdSpillN x.desc + fld x.desc 16 14 * 2 ^ 16) }
      else s.chanOut c 8 m.srcNode m.srcCl m.srcCore none { h with dstEp := m.srcEp, status := s.openCheck c m }) := by
  intro e x h i id
  simp only [exec, execOpenPacket, State.chanArrive_open hf hr, hdeckle, Bool.false_eq_true, if_false, ite_ne]
  rfl

/-- A CLOSE acts on the connection it names only while that is open, of its generation, and with its sender (R269, R271). -/
theorem exec_closePacket :
    let k := s.conn (m.conn % 4096)
    exec (.closePacket (c, m)) s = .next (if k.opened = true ∧ k.gen = m.conn / 4096 ∧ k.node = m.srcNode
      then s.closeConn (m.conn % 4096) else s.chanRefuse c 9 m eState false) := by
  simp only [exec, execClosePacket, State.chanArrive_open hf hr, Bool.and_eq_true, beq_iff_eq, and_assoc]

end

/-- Settles O25: an OPEN by the result of its check, a CLOSE by the connection it names. -/
theorem connections : Obligations.Connections := by
  unfold Obligations.Connections
  refine ⟨?opens, ?check, ?closes⟩
  case opens =>
    intro c m s hf hr e x h i id
    refine ⟨fun hdeckle hbad => ?_, fun hdeckle hok => ?_, exec_openPacket_deckle hf hr⟩
    · exact (exec_openPacket_answered hf hr hdeckle).trans (nexts (if_neg hbad))
    · exact (exec_openPacket_answered hf hr hdeckle).trans (nexts (if_pos hok))
  case check => exact fun c m s => ⟨s.openCheck_ok c m, State.openCheck_permission⟩
  case closes =>
    intro c m s hf hr i k
    refine ⟨fun hopen hgen hnode => ?_, fun hother => ?_⟩
    · rw [exec_closePacket hf hr, if_pos ⟨hopen, hgen, hnode⟩, State.closeConn_opened hopen]
      rfl
    · refine (exec_closePacket hf hr).trans (nexts (if_neg ?_))
      rintro ⟨hopen, hgen, hnode⟩
      rcases hother with h | h | h
      · exact Bool.false_ne_true (h.symm.trans hopen)
      · exact h hgen
      · exact h hnode

end Sys2Proof.Machine
end

section
/-! PROOFS. Sync counters and watches (O14, O16), frames of counter increments (O27), channel frames and refusals (O31), and resets and boot (O53). -/

namespace Sys2Proof.Machine

/-! ## Sync counters and watches (R102, R280, R282-R284) -/

/-- The addresses of the cluster counters and of the 64 global counters stand in one row (R102). -/
theorem ctrWf_iff (a : Nat) : ctrWf a = true ↔ a < 0x4040 := by
  simp only [ctrWf, Bool.or_eq_true, Bool.and_eq_true, decide_eq_true_eq]
  omega

/-- Settles O14: additions and checked subtracts by the laws of counters. -/
theorem syncCounterArithmetic : Obligations.SyncCounterArithmetic := by
  unfold Obligations.SyncCounterArithmetic
  exact ⟨State.addCtr_does, State.subCtr_does, fun a => ⟨rfl, ctrWf_iff a⟩⟩

/-- Table 3.20. -/
theorem Cond.holds_eq (x v : Nat) :
    Cond.ge.holds x v = decide (v ≤ x) ∧ Cond.eq.holds x v = decide (x = v) ∧ Cond.ne.holds x v = decide (x ≠ v) ∧
      Cond.lt.holds x v = decide (x < v) :=
  ⟨rfl, beq_eq_decide x v, by simp only [Cond.holds, bne, beq_eq_decide, decide_not], rfl⟩

/-- Settles O16: one test of a watch by the law of its test, the conditions by their definition. -/
theorem watches : Obligations.Watches := by
  unfold Obligations.Watches
  exact ⟨State.testWatch_does, Cond.holds_eq⟩

/-! ## Sync words and SYNC frames (R287, R288, R340, R463, R468) -/

/-- The state after a sync word has left core `c`: the RSYNC that sent it is complete (R287). -/
def State.rsyncDone (s : State) (c : Nat) : State :=
  match (s.chn c).entry with
  | some m => if mMop m == 3 then s.chnDone c else s
  | none => s

/-- The tick that the SYNC frame of a word of core `c` carries (R340). -/
def State.syncStamp (s : State) (c : Nat) : W64 := s.clk.gtc + BitVec.ofNat 64 (s.vat ((s.vatOfCore c).getD 0)).xsyncDelay

/-- The SYNC frame that carries a word of core `c` to its node (R287, R340). -/
def State.syncWordFrame (s : State) (c : Nat) (w : W64) : Frame :=
  let job := (s.vat ((s.vatOfCore c).getD 0)).jobId
  { kind := 1, dst := fld w.toNat 0 17, src := s.span.node, job := job
    unit := fld w.toNat 0 17 + s.span.node * 2 ^ 17 + fld w.toNat 17 15 * 2 ^ 34 + fld w.toNat 32 32 * 2 ^ 64 + job * 2 ^ 96 +
      (s.syncStamp c).toNat * 2 ^ 128 }

section
variable {s : State} {c : Nat} {w : W64}

theorem exec_syncWord_home (hhome : fld w.toNat 0 17 = s.span.node) :
    exec (.syncWord c w) s = .next ((s.rsyncDone c).syncAdmit true (fld w.toNat 0 17) (fld w.toNat 17 15) (fld w.toNat 32 32)
      (s.vat ((s.vatOfCore c).getD 0)).jobId (s.syncStamp c)) :=
  nexts (if_pos hhome)

theorem exec_syncWord_routed {p : Nat} (haway : fld w.toNat 0 17 ≠ s.span.node) (hroute : s.spanRoute (fld w.toNat 0 17) = some p) :
    exec (.syncWord c w) s = .next ((s.rsyncDone c).queueTx p { f := s.syncWordFrame c w, vat := s.vatOfCore c }) := by
  simp only [exec, execSyncWord, if_neg haway, hroute]
  rfl

theorem exec_syncWord_dropped {v : Nat} (haway : fld w.toNat 0 17 ≠ s.span.node) (hroute : s.spanRoute (fld w.toNat 0 17) = none)
    (hvat : s.vatOfCore c = some v) :
    let u := s.rsyncDone c
    exec (.syncWord c w) s = .next ((({ u with span := { u.span with routeDrops := satAdd top16 u.span.routeDrops 1 } } : State).log
      (srcHub 10) evRefused eRange (some v) 0 1).fireVat v 4) := by
  simp only [exec, execSyncWord, if_neg haway, hroute, hvat]
  rfl

end

/-- A SYNC frame is charged to the vat that holds its counter with its job, if there is one (R288). -/
def State.chargeSync (s : State) (v : Option Nat) (x : RxFrame) : State :=
  match v with
  | some v => s.chargeRx v x
  | none => s

theorem exec_syncFrameReceive_taken {port : Nat} {x : RxFrame} {s u : State} (htake : s.takeFrame port (fun f => f.kind == 1) = some (x, u))
    (hport : port ≠ twinPort) :
    exec (.syncFrameReceive port) s = .next ((u.chargeSync (s.syncVat (fld x.f.unit 34 15) x.f.job) x).syncAdmit
      ((s.port port).perm.admits x.f.src (s.port port).perm.sync) x.f.src (fld x.f.unit 34 15) (fld x.f.unit 64 32) x.f.job
      (BitVec.ofNat 64 (fld x.f.unit 128 64))) := by
  simp only [exec, execSyncFrameReceive, htake, if_neg hport]
  rfl

/-- A held increment whose stamp has come is no longer held, and is applied (R340). -/
theorem exec_syncFrameRelease_due {i : Nat} {h : HeldTick} {s : State} (hheld : s.net.heldTicks[i]? = some h)
    (hdue : h.stamp.toNat ≤ s.clk.gtc.toNat) :
    let u : State := { s with net := { s.net with heldTicks := s.net.heldTicks.eraseIdx i } }
    exec (.syncFrameRelease i) s = .next (match s.vatOfCtr h.ctr with
      | some v => u.syncApply v (h.src.getD s.span.node) h.ctr h.amount h.job
      | none => (u.addOutside h.ctr h.amount).1) := by
  cases hvat : s.vatOfCtr h.ctr with
  | some v => simp only [exec, execSyncFrameRelease, hheld, if_neg (Nat.not_lt.mpr hdue), hvat]
  | none => simp only [exec, execSyncFrameRelease, hheld, if_neg (Nat.not_lt.mpr hdue), hvat]

/-- Settles O27: a sync word by where its node lies, a SYNC frame by its arrival and by its release. -/
theorem syncFrames : Obligations.SyncFrames := by
  unfold Obligations.SyncFrames
  refine ⟨?words, ?arrives, ?released⟩
  case words =>
    rintro c w s u rfl n dst ctr amount x stamp
    exact ⟨exec_syncWord_home, fun p haway hroute => exec_syncWord_routed haway hroute,
      fun v haway hroute hvat => exec_syncWord_dropped haway hroute hvat⟩
  case arrives => exact fun port x s u htake hport => exec_syncFrameReceive_taken htake hport
  case released => exact fun i h s hheld hdue => exec_syncFrameRelease_due hheld hdue

/-! ## Channel frames (R264, R453, R463) -/

section
variable {port : Nat} {x : RxFrame} {s u : State}

section
variable (hadmits : (s.port port).perm.admits x.f.src (s.port port).perm.chan = true)
include hadmits

/-- A CHAN frame that its port admits becomes DATA packets of at most 240 B (R453). -/
theorem exec_chan_admitted (htake : s.takeFrame port (fun f => f.kind == 8) = some (x, u)) :
    let dest := u.frameCore x.f
    exec (.chan port) s = .next ((splitChan (x.f.chMsg port)).foldl (fun z q => z.send (.chan 1 (z.physOf dest.1 dest.2) none q))
      (u.chanRx port x dest.1)) := by
  simp only [exec, execChan, htake, hadmits, Bool.not_true, Bool.false_eq_true, if_false]

/-- An OPEN goes to the core that its data name, any other request to the core of its frame (R463, Table 8.6). -/
theorem exec_chreq_admitted (htake : s.takeFrame port (fun f => f.kind == 0xB) = some (x, u)) :
    let d := leNat x.f.data; let dest := if chKind x.f.unit = 6 then (fld d 28 6, fld d 22 6) else u.frameCore x.f
    exec (.chreq port) s = .next ((u.chanRx port x dest.1).send (.chan (chKind x.f.unit) (u.physOf dest.1 dest.2) none (x.f.chMsg port))) := by
  simp only [exec, execChreq, htake, hadmits, Bool.not_true, Bool.false_eq_true, if_false]

theorem exec_chrsp_admitted (htake : s.takeFrame port (fun f => f.kind == 7) = some (x, u)) :
    exec (.chrsp port) s = .next ((u.chanRx port x x.f.dstCl).send
      (.chan (chKind x.f.unit) (u.physOf x.f.dstCl x.f.dstCore) none (x.f.chMsg port))) := by
  simp only [exec, execChrsp, htake, hadmits, Bool.not_true, Bool.false_eq_true, if_false]

end

/-- A channel frame of any of the three kinds that its port does not admit is refused (R463; for CHRSP log entry 56). -/
theorem exec_channelFrame_shutOut {i : Instr} {kind : Nat} (hi : (i, kind) ∈ [(Instr.chan port, 8), (.chreq port, 0xB), (.chrsp port, 7)])
    (hbar : (s.port port).perm.admits x.f.src (s.port port).perm.chan = false)
    (htake : s.takeFrame port (fun f => f.kind == kind) = some (x, u)) :
    exec i s = .next (u.frameRefuse port x.f ePermission true none) := by
  simp only [List.mem_cons, Prod.mk.injEq, List.not_mem_nil, or_false] at hi
  obtain ⟨rfl, rfl⟩ | ⟨rfl, rfl⟩ | ⟨rfl, rfl⟩ := hi
  · simp only [exec, execChan, htake, hbar, Bool.not_false, if_true]
  · simp only [exec, execChreq, htake, hbar, Bool.not_false, if_true]
  · simp only [exec, execChrsp, htake, hbar, Bool.not_false, if_true]

/-! ## Refusals (R451, R467, R468, R553) -/

/-- The request of a port that a REFUSE answers: the one of its order tag and unit (log entry 59). -/
def State.refusedTag (s : State) (port : Nat) (f : Frame) : Option (Nat × TagEnt) :=
  (s.port port).tags.find? (fun t => t.1 == f.tag && t.2.unit == f.unit)

variable (htake : s.takeFrame port (fun f => f.kind == 0xC) = some (x, u))
include htake

section
variable {t : Nat × TagEnt} (hfound : s.refusedTag port x.f = some t) (hintime : s.clk.gtc.toNat < t.2.sentAt.toNat + s.span.reqTo)
include hfound hintime

/-- A REFUSE in time frees the tag of its request and answers everything that waits for it (R451, R467). -/
theorem exec_refuse_clean (hgood : t.2.badAt = none) :
    exec (.refuse port) s = .next ((u.modPort port (fun y => { y with tags := y.tags.del x.f.tag })).answerAll t.2.who x.f.status) := by
  unfold State.refusedTag at hfound
  simp only [exec, execRefuse, htake, hfound, if_neg (Nat.not_le.mpr hintime), hgood]

/-- A refused request that held poison is a commit point of its sender, which aborts the sheet (R553). -/
theorem exec_refuse_poisoned {a v : Nat} (hbad : t.2.badAt = some a) (hvat : t.2.vat = some v) :
    exec (.refuse port) s = .next ((((u.modPort port (fun y => { y with tags := y.tags.del x.f.tag })).answerAll t.2.who x.f.status).containPoint
      v 4 (srcPort port) a a).abortSheet v) := by
  unfold State.refusedTag at hfound
  simp only [exec, execRefuse, htake, hfound, if_neg (Nat.not_le.mpr hintime), hbad, hvat]

end

variable (hnone : s.refusedTag port x.f = none)
include hnone

theorem exec_refuse_sync {v : Nat} (hsync : s.isSyncRefusal x.f = true) (hjob : (s.jobVats x.f.job).head? = some v) :
    exec (.refuse port) s = .next ((u.log (srcHub 10) evRefused x.f.status (some v) 0 1).fireVat v 4) := by
  unfold State.refusedTag at hnone
  simp only [exec, execRefuse, htake, hnone, hsync, hjob, if_true]

theorem exec_refuse_packet (hother : s.isSyncRefusal x.f = false)
    (hkind : chKind x.f.unit = 1 ∨ chKind x.f.unit = 4 ∨ chKind x.f.unit = 6 ∨ chKind x.f.unit = 9) :
    exec (.refuse port) s = .next (u.answerAll [.packet (x.f.tag / 64) (x.f.tag % 64) (fld x.f.unit 10 6) (chKind x.f.unit)] x.f.status) := by
  unfold State.refusedTag at hnone
  have htest : (decide (chKind x.f.unit = 1) || decide (chKind x.f.unit = 4) || decide (chKind x.f.unit = 6) ||
      decide (chKind x.f.unit = 9)) = true := by
    simpa only [Bool.or_eq_true, decide_eq_true_eq, or_assoc] using hkind
  simp only [exec, execRefuse, htake, hnone, hother, Bool.false_eq_true, if_false, htest, if_true]

end

/-- Settles O31: channel frames by the right of their port, a REFUSE by what it answers. -/
theorem channelFrames : Obligations.ChannelFrames := by
  unfold Obligations.ChannelFrames
  refine ⟨?admitted, ?shutOut, ?refusals⟩
  case admitted =>
    intro port x s u hadmits m k d to6
    exact ⟨exec_chan_admitted hadmits, exec_chreq_admitted hadmits, exec_chrsp_admitted hadmits⟩
  case shutOut =>
    intro port x s u hbar w
    exact ⟨exec_channelFrame_shutOut (by simp) hbar, exec_channelFrame_shutOut (by simp) hbar, exec_channelFrame_shutOut (by simp) hbar⟩
  case refusals =>
    intro port x s u htake f q
    exact ⟨fun t hfound hintime hgood => exec_refuse_clean htake hfound hintime hgood,
      fun t a v hfound hintime hbad hvat => exec_refuse_poisoned htake hfound hintime hbad hvat,
      fun v hnone hsync hjob => exec_refuse_sync htake hnone hsync hjob,
      fun hnone hother hkind => exec_refuse_packet htake hnone hother hkind⟩

/-! ## Resets (R584-R587, R599, R630) -/

/-- The word that RESET_COLD and RESET_WARM write to RESET_CTL: its kind and its key (R584). -/
theorem resetCtl_fields (kind key : Nat) (hk : kind < 4) :
    let x := kind + 2 ^ 8 * (key % 2 ^ 16)
    fld x 8 16 = key % 2 ^ 16 ∧ fld x 0 2 = kind := by
  intro x
  simp only [fld, Nat.shiftRight_eq_div_pow, x]
  omega

section
variable {s : State} {w : Who}

theorem State.resetWrite_refused (hmay : ¬ (whoMgmt w = true ∨ w = .pf)) (x : Nat) : (s.resetWrite w x).1 = s.regRefuse w ePermission 0x100 := by
  have htest : (!(whoMgmt w || w == .pf)) = true := by simpa using hmay
  simp only [State.resetWrite, htest, if_true]

/-- What a requester with the right to RESET_CTL brings about is decided by the key and the kind it writes. -/
theorem State.resetWrite_allowed (hmay : whoMgmt w = true ∨ w = .pf) (x : Nat) :
    (s.resetWrite w x).1 = if fld x 8 16 ≠ 0x0D72 then s
      else if fld x 0 2 = 1 then s.askReset .warm 3 else if fld x 0 2 = 2 then s.askReset .cold 1 else s := by
  have htest : (!(whoMgmt w || w == .pf)) = false := by
    simpa only [Bool.not_eq_false', Bool.or_eq_true, beq_iff_eq] using hmay
  simp only [State.resetWrite, htest, Bool.false_eq_true, if_false, bne_iff_ne]
  split_ifs <;> rfl

theorem exec_resetCold_allowed (hmay : whoMgmt w = true ∨ w = .pf) (key : Nat) :
    exec (.resetCold w key) s = .next (if key % 2 ^ 16 = 0x0D72 then s.askReset .cold 1 else s) := by
  obtain ⟨hkey, hkind⟩ := resetCtl_fields 2 key (by decide)
  refine nexts ((State.resetWrite_allowed hmay _).trans ?_)
  simp only [hkey, hkind, ite_not, if_true, OfNat.ofNat_ne_one, if_false]

theorem exec_resetWarm_allowed (hmay : whoMgmt w = true ∨ w = .pf) (key : Nat) :
    exec (.resetWarm w key) s = .next (if key % 2 ^ 16 = 0x0D72 then s.askReset .warm 3 else s) := by
  obtain ⟨hkey, hkind⟩ := resetCtl_fields 1 key (by decide)
  refine nexts ((State.resetWrite_allowed hmay _).trans ?_)
  simp only [hkey, hkind, ite_not, if_true]

end

section
variable {s : State} {k : RstKind} (n : Nat)

theorem State.askReset_first (hnone : s.boot.rst = none) :
    s.askReset k n = { s with boot := { s.boot with rst := some k, effect := false, wiped := false, cause := s.boot.cause ||| (1#8 <<< n) } } := by
  simp only [State.askReset, hnone]

theorem State.askReset_takesOver {r : RstKind} (hrst : s.boot.rst = some r) (hrank : r.rank < k.rank) :
    s.askReset k n =
      { s with boot := { s.boot with rst := some k, effect := false, wiped := false, cause := s.boot.cause ||| (1#8 <<< n), lcTo := none } } := by
  simp only [State.askReset, hrst, hrank, if_true]

theorem State.askReset_merges {r : RstKind} (hrst : s.boot.rst = some r) (hrank : k.rank ≤ r.rank) :
    s.askReset k n = { s with boot := { s.boot with cause := s.boot.cause ||| (1#8 <<< n), merged := true } } := by
  simp only [State.askReset, hrst, Nat.not_lt.mpr hrank, if_false]

end

section
variable {s : State}

theorem exec_coldReset_due (hon : s.pwr.on = true) (heffect : s.boot.effect = false) (hrst : s.boot.rst = some .cold) :
    exec .coldReset s = .next (s.applyReset .cold) := by
  have htest : (s.boot.rst == some .cold && !s.boot.effect && s.pwr.on) = true := by rw [hrst, heffect, hon]; rfl
  simp only [exec, execColdReset, htest, if_true]

/-- The command of the warm reset applies a lifecycle reset too (R586). -/
theorem exec_warmReset_due {k : RstKind} (hon : s.pwr.on = true) (heffect : s.boot.effect = false) (hrst : s.boot.rst = some k)
    (hk : k ≠ .cold) :
    exec .warmReset s = .next (s.applyReset k) := by
  cases k with
  | cold => exact absurd rfl hk
  | warm => simp only [exec, execWarmReset, hon, heffect, hrst, Bool.not_true, Bool.or_self, Bool.false_eq_true, if_false]
  | lifecycle => simp only [exec, execWarmReset, hon, heffect, hrst, Bool.not_true, Bool.or_self, Bool.false_eq_true, if_false]

/-- A reset that is not cold takes the disabled cores from the fuses again (Table 20.2). -/
theorem State.applyReset_coreDis {k : RstKind} (hk : k ≠ .cold) : (s.applyReset k).net.coreDis = fuseCoreMap s.boot.fuse := by
  cases k with
  | cold => exact absurd rfl hk
  | warm | lifecycle => simp only [State.applyReset, State.devWipe]

theorem exec_perstAssert_powered (hon : s.pwr.on = true) :
    exec .perstAssert s = .next ((s.modBoot (fun b => { b with perst := true })).askReset .warm 4) := by
  simp only [exec, execPerstAssert, hon, Bool.not_true, Bool.false_eq_true, if_false]

theorem exec_resetWipeComplete_due (heffect : s.boot.effect = true) (hwiped : s.boot.wiped = false) (hon : s.pwr.on = true)
    (hoff : s.pwr.off = false) :
    exec .resetWipeComplete s = .next ((List.range 8).foldl (fun z i => z.modStk i (fun x => { x with ready := true }))
      (s.modBoot (fun b => { b with wiped := true }))) := by
  simp only [exec, execResetWipeComplete, heffect, hwiped, hon, hoff, Bool.not_true, Bool.or_self, Bool.false_eq_true, if_false]

end

/-! ## The boot ROM (R592) -/

section
variable {s : State}

/-- The ROM tries a slot, and a second one when the first does not boot; when neither does, the code of the second stands (R592). -/
def State.bootTwo (s : State) (p q : Nat × Nat) : State :=
  let x := s.bootSlot p.1 p.2
  match x.1 with
  | none => x.2
  | some _ =>
    let y := x.2.bootSlot q.1 q.2
    match y.1 with
    | none => y.2
    | some code => y.2.modBoot (fun z => { z with code := code, stage := .failed, rst := none })

theorem State.bootTwo_first {p q : Nat × Nat} (hboots : (s.bootSlot p.1 p.2).1 = none) : s.bootTwo p q = (s.bootSlot p.1 p.2).2 := by
  simp only [State.bootTwo, hboots]

theorem State.bootTwo_second {p q : Nat × Nat} (hfails : (s.bootSlot p.1 p.2).1 ≠ none)
    (hboots : ((s.bootSlot p.1 p.2).2.bootSlot q.1 q.2).1 = none) : s.bootTwo p q = ((s.bootSlot p.1 p.2).2.bootSlot q.1 q.2).2 := by
  obtain ⟨e, he⟩ := Option.ne_none_iff_exists'.mp hfails
  simp only [State.bootTwo, he, hboots]

theorem State.bootTwo_failed {p q : Nat × Nat} {code : Nat} (hfails : (s.bootSlot p.1 p.2).1 ≠ none)
    (hcode : ((s.bootSlot p.1 p.2).2.bootSlot q.1 q.2).1 = some code) :
    s.bootTwo p q = ((s.bootSlot p.1 p.2).2.bootSlot q.1 q.2).2.modBoot (fun z => { z with code := code, stage := .failed, rst := none }) := by
  obtain ⟨e, he⟩ := Option.ne_none_iff_exists'.mp hfails
  simp only [State.bootTwo, he, hcode]

/-- Does the ROM of a device try slot B before slot A: both headers can be read and the svn of B is the higher one (R592)? -/
def State.romFirstB (s : State) (a b : Nat) : Prop :=
  a ≠ 1 ∧ b ≠ 1 ∧ ihSvn (s.flashRead (0x100000 * 0) 512) < ihSvn (s.flashRead (0x100000 * 1) 512)

/-- Is the ROM ready to boot: not yet left, released by a reset in progress that carries no lifecycle transition, and powered (R587, R592)? -/
structure State.RomReady (s : State) : Prop where
  stage : s.boot.stage = .rom
  released : s.released = true
  noTransition : s.boot.lcTo = none
  on : s.pwr.on = true
  notOff : s.pwr.off = false
  inReset : s.boot.rst.isSome = true

theorem State.RomReady.passes (h : s.RomReady) :
    (s.boot.stage != .rom || !s.released || s.boot.lcTo.isSome || !s.pwr.on || s.pwr.off || s.boot.rst.isNone) = false := by
  have hrst : s.boot.rst.isNone = false := by rw [← Option.not_isSome, h.inReset]; rfl
  simp only [h.stage, h.released, h.noTransition, h.on, h.notOff, hrst, bne_self_eq_false, Bool.not_true, Option.isSome_none, Bool.or_self]

theorem State.romFirstB_iff (s : State) (a b : Nat) :
    (a != 1 && b != 1 && decide (ihSvn (s.flashRead (0x100000 * 0) 512) < ihSvn (s.flashRead (0x100000 * 1) 512))) = true ↔ s.romFirstB a b := by
  simp only [State.romFirstB, Bool.and_eq_true, bne_iff_ne, decide_eq_true_eq, and_assoc]

theorem exec_romBoot_firstB (h : s.RomReady) {a b : Nat} (hB : s.romFirstB a b) : exec (.romBoot a b) s = .next (s.bootTwo (1, b) (0, a)) := by
  simp only [exec, execRomBoot, h.passes, if_pos ((s.romFirstB_iff a b).mpr hB), Bool.false_eq_true, if_false]
  rfl

theorem exec_romBoot_firstA (h : s.RomReady) {a b : Nat} (hA : ¬ s.romFirstB a b) : exec (.romBoot a b) s = .next (s.bootTwo (0, a) (1, b)) := by
  simp only [exec, execRomBoot, h.passes, if_neg (mt (s.romFirstB_iff a b).mp hA), Bool.false_eq_true, if_false]
  rfl

/-- The three ends of a boot that tries `p` and then `q`. -/
theorem exec_romBoot_ends {a b : Nat} {p q : Nat × Nat} (hexec : exec (.romBoot a b) s = .next (s.bootTwo p q)) :
    let x := s.bootSlot p.1 p.2; let y := x.2.bootSlot q.1 q.2
    (x.1 = none → exec (.romBoot a b) s = .next x.2) ∧ (x.1 ≠ none → y.1 = none → exec (.romBoot a b) s = .next y.2) ∧
    (∀ code, x.1 ≠ none → y.1 = some code →
      exec (.romBoot a b) s = .next (y.2.modBoot (fun z => { z with code := code, stage := .failed, rst := none }))) := by
  rw [hexec]
  exact ⟨fun hboots => nexts (State.bootTwo_first hboots), fun hfails hboots => nexts (State.bootTwo_second hfails hboots),
    fun code hfails hcode => nexts (State.bootTwo_failed hfails hcode)⟩

end

/-! ## The seal (R597-R599) -/

section
variable {s : State} {w : Who} (hopen : s.boot.sealed = false)

theorem exec_protSeal_noRight (hw : whoMgmt w = false) : exec (.protSeal w) s = .next (s.regRefuse w ePermission 0x114) := by
  simp only [exec, execProtSeal, State.seal, hw, Bool.not_false, if_true]

include hopen

theorem exec_protSeal_notReady (hw : whoMgmt w = true) (hready : (List.range 8).all (fun i => (s.stk i).ready) = false) :
    exec (.protSeal w) s = .next (s.regRefuse w eState 0x114) := by
  simp only [exec, execProtSeal, State.seal, hw, hopen, hready, Bool.not_true, Bool.not_false, Bool.false_eq_true, if_false, if_true]

theorem exec_protSeal_malformed (hw : whoMgmt w = true) (hready : (List.range 8).all (fun i => (s.stk i).ready) = true)
    (hformed : (s.planWf s.net.planActive && s.vfMapOk) = false) : exec (.protSeal w) s = .next (s.regRefuse w eFormat 0x114) := by
  have htest : (!(s.planWf s.net.planActive) || !s.vfMapOk) = true := by rw [← Bool.not_and, hformed]; rfl
  simp only [exec, execProtSeal, State.seal, hw, hopen, hready, htest, Bool.not_true, Bool.false_eq_true, if_false, if_true]

/-- A seal that passes its checks seals the device, ends the reset, and records which plans are well formed (R598, R599). -/
theorem exec_protSeal_seals (hw : whoMgmt w = true) (hready : (List.range 8).all (fun i => (s.stk i).ready) = true)
    (hformed : (s.planWf s.net.planActive && s.vfMapOk) = true) :
    ∃ t : State, exec (.protSeal w) s = .next t ∧ t.boot.sealed = true ∧ t.boot.stage = .sealed ∧ t.boot.rst = none ∧
      ∀ p, p < 8 → t.net.planOk.getLsbD p = s.planWf p := by
  have htest : (!(s.planWf s.net.planActive) || !s.vfMapOk) = false := by rw [← Bool.not_and, hformed]; rfl
  refine ⟨_, ?_, seal_parts s⟩
  simp only [exec, execProtSeal, State.seal, hw, hopen, hready, htest, Bool.not_true, Bool.false_eq_true, if_false]

end

/-! ## Vatmen (R252, R595) -/

/-- The fields of the word that VM_START writes to VM_CTL: entry, exception vector and go (R595). -/
theorem vmCtl_fields (e i : Nat) :
    let x := e % 2 ^ 13 + i % 2 ^ 13 * 2 ^ 16 + 2 ^ 30
    fld x 0 13 = e % 2 ^ 13 ∧ fld x 16 13 = i % 2 ^ 13 ∧ bit x 30 = true := by
  intro x
  simp only [fld, bit, Nat.shiftRight_eq_div_pow, Nat.testBit_eq_decide_div_mod_eq, decide_eq_true_eq, x]
  omega

theorem exec_vmStart_starts {w : Who} {v c : Nat} {s : State} (hv : v < 16) (hw : whoMgmt w = true) (hc : s.vatmanOf v = some c)
    (hsealed : s.boot.sealed = true) (hrun : (s.ctl c).run ≠ .running) (e i : Nat) :
    exec (.vmStart w v e i) s = .next ((s.modVat v (fun y => { y with vmEntry := e % 2 ^ 13, vmEvec := i % 2 ^ 13 })).setCtl c
      { pc := BitVec.ofNat 64 (4 * (e % 2 ^ 13)), evec := BitVec.ofNat 64 (4 * (i % 2 ^ 13)), mode := 2, run := .running, started := true,
        cycleBase := s.clk.fast, idleSince := s.clk.fast }) := by
  obtain ⟨hentry, hevec, hgo⟩ := vmCtl_fields e i
  simp only [exec, execVmStart, State.vmWrite, if_neg (show ¬ 15 < v by omega), hw, hc, hsealed, beq_eq_false_iff_ne.mpr hrun, hentry, hevec, hgo,
    Bool.not_true, Bool.or_self, Bool.and_false, Bool.false_eq_true, if_false]

/-- Is endpoint `e` of core `c` in use, so that its descriptor may not be replaced (R252)? -/
def State.epInUse (s : State) (c e : Nat) : Prop :=
  let y := s.ep c e
  s.epBusy c e = true ∨ y.occ ≠ 0 ∨ y.full = true ∨ y.spill ≠ [] ∨ y.st = .opening ∨ y.st = .opened

theorem State.epInUse_iff (s : State) (c e : Nat) :
    let y := s.ep c e
    (s.epBusy c e || y.occ != 0 || y.full || !y.spill.isEmpty || y.st == .opening || y.st == .opened) = true ↔ s.epInUse c e := by
  simp only [State.epInUse, Bool.or_eq_true, bne_iff_ne, beq_iff_eq, Bool.not_eq_true', List.isEmpty_eq_false_iff, or_assoc]

/-- The descriptor that the write of `x` to its last word completes (R252). -/
def Ep.staged (y : Ep) (x : Nat) : Nat :=
  (y.staging.get 0 0).toNat + (y.staging.get 0 1).toNat * 2 ^ 64 + (y.staging.get 0 2).toNat * 2 ^ 128 + x % 2 ^ 64 * 2 ^ 192

section
variable {w : Who} {v e c : Nat} {s : State}

theorem exec_vmChtabApply_eq (hv : v < 16) (he : e < 64) (x : Nat) : exec (.vmChtabApply w v e x) s = .next (s.chtabApply w v e x).1 := by
  have htest : (decide (15 < v) || decide (63 < e)) = false := by
    simp only [Bool.or_eq_false_iff, decide_eq_false_iff_not]
    omega
  exact nexts (ifn htest)

variable (hc : s.vatmanOf v = some c) (x : Nat)
include hc

theorem State.chtabApply_noRight (hmay : s.mayChtab w c = false) :
    (s.chtabApply w v e x).1 = s.regRefuse w ePermission (0x504000 + 0x10000 * v + 32 * e + 24) := by
  simp only [State.chtabApply, hc, hmay, Bool.not_false, if_true]

theorem State.chtabApply_inUse (hmay : s.mayChtab w c = true) (huse : s.epInUse c e) :
    (s.chtabApply w v e x).1 = s.regRefuse w eState (0x504000 + 0x10000 * v + 32 * e + 24) := by
  simp only [State.chtabApply, hc, hmay, (s.epInUse_iff c e).mpr huse, Bool.not_true, Bool.false_eq_true, if_false, if_true]

theorem State.chtabApply_malformed (hmay : s.mayChtab w c = true) (hidle : ¬ s.epInUse c e)
    (hform : s.vmDescOk v c e ((s.ep c e).staged x) = false) :
    (s.chtabApply w v e x).1 = s.regRefuse w eFormat (0x504000 + 0x10000 * v + 32 * e + 24) := by
  unfold Ep.staged at hform
  simp only [State.chtabApply, hc, hmay, if_neg (mt (s.epInUse_iff c e).mp hidle), hform, Bool.not_true, Bool.not_false, Bool.false_eq_true, if_false,
    if_true]

/-- A descriptor that passes R252 replaces that of its endpoint, which starts afresh; a receiver's two counters are set to zero. -/
theorem State.chtabApply_applied (hmay : s.mayChtab w c = true) (hidle : ¬ s.epInUse c e) (hform : s.vmDescOk v c e ((s.ep c e).staged x) = true) :
    let d := (s.ep c e).staged x; let u := s.setEp c e ({ (s.ep c e) with desc := d } : Ep).init
    (s.chtabApply w v e x).1 = if cdRole d = 2 then (u.putCtr (cdRdy d) 0).putCtr (cdFree d) 0 else u := by
  unfold Ep.staged at *
  simp only [State.chtabApply, hc, hmay, if_neg (mt (s.epInUse_iff c e).mp hidle), hform, Bool.not_true, Bool.false_eq_true, if_false]

end

/-- Settles O53: requests for resets and their effects, the ROM by the slots it tries, the seal and the vatmen's registers by their checks. -/
theorem resetAndBoot : Obligations.ResetAndBoot := by
  unfold Obligations.ResetAndBoot
  refine ⟨?requests, ?ranks, ?effects, ?applied, ?perst, ?wipes, ?rom, ?seals, ?starts, ?descriptors⟩
  case requests =>
    intro w key s may
    refine ⟨fun hnot => ⟨nexts (State.resetWrite_refused hnot _), nexts (State.resetWrite_refused hnot _)⟩,
      fun hmay hkey => ?_, fun hmay hkey => ?_⟩
    · have hmod : key % 2 ^ 16 = 0x0D72 := by rw [hkey]; rfl
      exact ⟨(exec_resetCold_allowed hmay key).trans (nexts (if_pos hmod)), (exec_resetWarm_allowed hmay key).trans (nexts (if_pos hmod))⟩
    · exact ⟨(exec_resetCold_allowed hmay key).trans (nexts (if_neg hkey)), (exec_resetWarm_allowed hmay key).trans (nexts (if_neg hkey))⟩
  case ranks =>
    intro k n s c
    exact ⟨State.askReset_first n, fun r => State.askReset_takesOver n, fun r => State.askReset_merges n⟩
  case effects =>
    intro s hon heffect
    exact ⟨exec_coldReset_due hon heffect, fun hrst => exec_warmReset_due hon heffect hrst (by decide),
      fun hrst => exec_warmReset_due hon heffect hrst (by decide)⟩
  case applied =>
    intro k s t
    have hmap : t.net.coreDis = if k = .cold then t.net.coreDis else fuseCoreMap s.boot.fuse := by
      split
      · rfl
      · next hk => exact State.applyReset_coreDis hk
    cases k with
    | cold => exact ⟨rfl, rfl, rfl, rfl, rfl, rfl, rfl, rfl, rfl, rfl, rfl, rfl, hmap, fun hk => absurd rfl hk⟩
    | warm | lifecycle => exact ⟨rfl, rfl, rfl, rfl, rfl, rfl, rfl, rfl, rfl, rfl, rfl, rfl, hmap, fun _ => ⟨rfl, rfl⟩⟩
  case perst => exact fun s hon => ⟨exec_perstAssert_powered hon, rfl⟩
  case wipes => exact fun s heffect hwiped hon hoff => exec_resetWipeComplete_due heffect hwiped hon hoff
  case rom =>
    intro a b s hstage hreleased hlc hon hoff hrst svn bFirst x y
    have hready : s.RomReady := ⟨hstage, hreleased, hlc, hon, hoff, hrst⟩
    by_cases hB : s.romFirstB a b
    · have hx : x = s.bootSlot 1 b := if_pos hB
      have hy : y = x.2.bootSlot 0 a := if_pos hB
      rw [hy, hx]
      exact exec_romBoot_ends (exec_romBoot_firstB hready hB)
    · have hx : x = s.bootSlot 0 a := if_neg hB
      have hy : y = x.2.bootSlot 1 b := if_neg hB
      rw [hy, hx]
      exact exec_romBoot_ends (exec_romBoot_firstA hready hB)
  case seals =>
    intro w s hopen ready formed
    exact ⟨exec_protSeal_noRight, exec_protSeal_notReady hopen, exec_protSeal_malformed hopen, exec_protSeal_seals hopen⟩
  case starts => exact fun w v e i c s hv hw hc hsealed hrun => exec_vmStart_starts hv hw hc hsealed hrun e i
  case descriptors =>
    intro w v e x c s hv he hc off y busy d u
    have hexec : exec (.vmChtabApply w v e x) s = .next (s.chtabApply w v e x).1 := exec_vmChtabApply_eq hv he x
    rw [hexec]
    exact ⟨fun hmay => nexts (State.chtabApply_noRight hc x hmay), fun hmay huse => nexts (State.chtabApply_inUse hc x hmay huse),
      fun hmay hidle hform => nexts (State.chtabApply_malformed hc x hmay hidle hform),
      fun hmay hidle hform => nexts (State.chtabApply_applied hc x hmay hidle hform)⟩

end Sys2Proof.Machine
end

section
/-! PROOFS. Plans, jobs, kills, resets and wipes (O38). -/

namespace Sys2Proof.Machine

/-! ## Plans (R293, R542, R595) -/

/-- The switch to plan `p`: the vatmen of the affected vats halted and wiped, and the sources of core groups retargeted (R293, R542, R595). -/
def State.switchPlan (u : State) (p : Nat) : State :=
  let z := ((u.affected p).filterMap u.vatmanOf).foldl
    (fun s c => (s.wipeCore c).modCtl c (fun k => { k with run := .halted, haltReason := 4, waiting := none })) u
  let y : State := { z with net := { z.net with planActive := p } }
  State.irqSettle { y with hub := { y.hub with srcs := y.hub.srcs.map (fun q => (q.1, { q.2 with tgt := y.retarget u.ownerOf q.1 q.2.tgt })) } } (u.irqLine 17)

section
variable {s : State} {r : Nat} {k : HostCmd} (hk : (s.ring r).nextCmd = some k) (hop : k.op = 0x26) (hon : s.fastOn = true)
include hk hop hon

/-- PLAN is a device command: it needs neither cores nor a vat of the plan in force (R526, R569). -/
theorem State.taken_plan :
    s.taken (.host r) 0x26 k.vat = some (s.setRing r ((s.ring r).apply k.uid), { host := some (r, k.uid), entry := k.entry }) := by
  have hcores : needsCores 0x26 = false := rfl
  simp [State.taken, hk, hop, hon, hcores]

theorem exec_plan_taken :
    let u := s.setRing r ((s.ring r).apply k.uid); let p := fld k.entry 64 3
    exec (.plan r) s = .next (if u.net.planOk.getLsbD p = false then u.hostRefuse r k.uid eFormat
      else if (u.affected p).all (fun v => (u.vat v).st == .free) = false then u.hostRefuse r k.uid eState
      else (u.switchPlan p).hostFinish (some (r, k.uid)) eOk 0 0) := by
  intro u p
  simp only [exec, execPlan, hk, State.command_taken (State.taken_plan hk hop hon), Bool.not_eq_true']
  rfl

end

/-! ## Jobs (R497, R498) -/

section
variable {s u : State} {v : Nat} {k : Caller}

theorem exec_assign_taken {src : Src} {job : Nat} (ht : s.taken src 0x20 v = some (u, k)) (hsrc : src ≠ .vatman) :
    let x := u.vat v; let j := match k.host with | some _ => fld k.entry 64 16 | none => job % 2 ^ 16
    exec (.assign v src job) s = .next (if j = 0 then u.refuseDev v k eRange
      else if x.st ≠ .free ∨ x.jobValid = true ∨ x.relWipe = true then u.refuseDev v k eState
      else (u.setVat v { x with jobId := j, jobValid := true, ac := { from_ := u.clk.gtc, stopped := false } }).hostFinish k.host eOk 0 0) := by
  intro x j
  cases src with
  | vatman => exact absurd rfl hsrc
  | host | mgmt | debug =>
    simp only [exec, execAssign, State.command_taken ht, Bool.or_eq_true, bne_iff_ne, or_assoc]
    rfl

theorem exec_releaseJob_taken {r : Nat} (ht : s.taken (.host r) 0x21 v = some (u, k)) :
    let x := u.vat v
    exec (.releaseJob v r) s = .next (if x.st = .free ∧ x.jobValid = true ∧ x.relWipe = false
      then (u.stopCounting v).modVat v (fun y => { y with relWipe := true, relHost := k.host }) else u.refuseDev v k eState) := by
  intro x
  have hno : (x.st != .free || !x.jobValid || x.relWipe) = true ↔ ¬ (x.st = .free ∧ x.jobValid = true ∧ x.relWipe = false) := by
    simp only [Bool.or_eq_true, bne_iff_ne, Bool.not_eq_true', not_and_or, or_assoc, Bool.not_eq_true, Bool.not_eq_false]
  simp only [exec, execReleaseJob, State.command_taken ht]
  exact nexts ((if_congr hno rfl rfl).trans (ite_not _ _ _))

/-! ## KILL and VAT_RESET (R511 to R513, Table 9.3) -/

theorem exec_kill_taken {r : Nat} (ht : s.taken (.host r) 0x24 v = some (u, k)) :
    let st := (u.vat v).st; let w := u.endReclaim v eAborted
    exec (.kill v r) s = .next (if st = .free ∨ st = .wiping ∨ st = .faulted then u.refuseCmd v k eState
      else if w.hub.holdPm then (w.toFaulted v).hostFinish k.host eOk 0 0
      else (w.modVat v (fun x => { x with killHost := k.host })).toWiping v) := by
  intro st w
  have hhub : w.hub = u.hub := endReclaim_hub u v eAborted
  simp only [exec, execKill, State.command_taken ht, Bool.or_eq_true, beq_iff_eq, or_assoc, hhub]
  rfl

theorem exec_vatReset_taken {r : Nat} (ht : s.taken (.host r) 0x25 v = some (u, k)) :
    let st := (u.vat v).st
    exec (.vatReset v r) s = .next (if st = .free ∨ st = .wiping then u.refuseCmd v k eState
      else ((u.endReclaim v eAborted).modVat v (fun x => { x with killHost := k.host })).toWiping v) := by
  intro st
  simp only [exec, execVatReset, State.command_taken ht, Bool.or_eq_true, beq_iff_eq]
  rfl

end

/-! ## The end of a wipe (R192, R397, R498, R511) -/

section
variable {s : State} {v : Nat}

theorem exec_wipeComplete_wiping (hst : (s.vat v).st = .wiping) :
    let x := s.vat v; let e := fun (u : State) => if x.reclaim.step = .none then u else u.endReclaim v eOk
    exec (.wipeComplete v) s = .next (((e (((s.wipeMemory v).clearTops v).modVat v
      (fun y => { y with st := .free, jobId := 0, jobValid := false, killHost := none, ctlStatus := eOk }))).hostFinish x.killHost eOk 0 0).fireVat v 2) := by
  simp only [exec, execWipeComplete, hst, bne_self_eq_false, Bool.false_eq_true, if_false, beq_iff_eq]

theorem exec_releaseWipeComplete_wiping (hwipe : (s.vat v).relWipe = true) :
    let x := s.vat v; let e := fun (u : State) => if x.reclaim.step = .none then u else u.endReclaim v eOk
    exec (.releaseWipeComplete v) s = .next (((e ((if x.reclaim.step = .none then s.wipeMemory v else (s.wipeMemory v).clearTops v).modVat v
      (fun y => { y with relWipe := false, jobId := 0, jobValid := false, relHost := none }))).hostFinish x.relHost eOk 0 0).fireVat v 2) := by
  simp only [exec, execReleaseWipeComplete, hwipe, Bool.not_true, Bool.false_eq_true, if_false, beq_iff_eq]

/-- No byte of stack memory in a granule of the vat stays written. -/
theorem State.stackOwner_of_mem_wipeMemory_stack {p : Host.Cell} (hp : p ∈ (s.wipeMemory v).mem.stack) : s.stackOwner p.1 ≠ some v := by
  obtain ⟨-, hkept⟩ := List.mem_filter.mp hp
  simpa using hkept

/-- No word in a granule of the vat stays poisoned. -/
theorem State.stackOwner_of_mem_wipeMemory_poison {w : Nat} (hw : w ∈ (s.wipeMemory v).mem.poison) : s.stackOwner (16 * w) ≠ some v := by
  obtain ⟨-, hkept⟩ := List.mem_filter.mp hw
  simpa using hkept

/-- No version entry of the vat stays defined (R397). -/
theorem State.vat_of_mem_wipeMemory_vers {p : Nat × VerEnt} (hp : p ∈ (s.wipeMemory v).mem.vers) (hdef : p.2.defined = true) : p.2.vat ≠ v := by
  obtain ⟨-, hkept⟩ := List.mem_filter.mp hp
  simpa [hdef] using hkept

end

/-- Settles O38: each command's refusals and effects, and what a wipe leaves of the vat. -/
theorem vatEnds : Obligations.VatEnds := by
  unfold Obligations.VatEnds
  refine ⟨?plan, ?assign, ?vatman, ?releaseJob, ?kill, ?reset, fun v s => ⟨exec_wipeComplete_wiping, exec_releaseWipeComplete_wiping⟩, ?wiped⟩
  case plan =>
    intro r _ k s hk hop hon u p vs z y
    have hexec := exec_plan_taken hk hop hon
    refine ⟨fun hbad => ?_, fun hok hbusy => ?_, fun hok hfree => ?_⟩
    · exact hexec.trans (nexts (if_pos hbad))
    · exact hexec.trans (nexts ((if_neg (ne_false_of_eq_true hok)).trans (if_pos hbusy)))
    · exact hexec.trans (nexts ((if_neg (ne_false_of_eq_true hok)).trans (if_neg (ne_false_of_eq_true hfree))))
  case assign =>
    intro v src job k s u ht hsrc x j
    have hexec := exec_assign_taken (job := job) ht hsrc
    refine ⟨fun hzero => ?_, fun hjob hstate => ?_, fun hjob hst hvalid hwipe => ?_⟩
    · exact hexec.trans (nexts (if_pos hzero))
    · exact hexec.trans (nexts ((if_neg hjob).trans (if_pos hstate)))
    · exact hexec.trans (nexts ((if_neg hjob).trans (if_neg (by simp [x, hst, hvalid, hwipe]))))
  case vatman => exact fun v job s => rfl
  case releaseJob =>
    intro v r k s u ht x ok
    have hexec := exec_releaseJob_taken ht
    exact ⟨fun hok => hexec.trans (nexts (if_pos hok)), fun hno => hexec.trans (nexts (if_neg hno))⟩
  case kill =>
    intro v r k s u ht st w
    have hexec := exec_kill_taken ht
    refine ⟨fun hno => hexec.trans (nexts (if_pos hno)), fun hfree hwiping hfaulted => hexec.trans (nexts (if_neg ?_))⟩
    exact not_or.mpr ⟨hfree, not_or.mpr ⟨hwiping, hfaulted⟩⟩
  case reset =>
    intro v r k s u ht st
    have hexec := exec_vatReset_taken ht
    exact ⟨fun hno => hexec.trans (nexts (if_pos hno)),
      fun hfree hwiping => hexec.trans (nexts (if_neg (not_or.mpr ⟨hfree, hwiping⟩)))⟩
  case wiped =>
    intro v s u
    have hvat : (u.vat v).st = .free ∧ (u.vat v).jobValid = false := by simp only [u, State.vat_modVat, and_self]
    have hmem : u.mem = (s.wipeMemory v).mem := by simp only [u, State.modVat_same, State.clearTops_same]
    rw [hmem]
    exact ⟨hvat.1, hvat.2, fun p => State.stackOwner_of_mem_wipeMemory_stack, fun w => State.stackOwner_of_mem_wipeMemory_poison,
      fun p => State.vat_of_mem_wipeMemory_vers⟩

end Sys2Proof.Machine
end

section
/-! PROOFS. The global tick counter and its exchanges (O40). -/

namespace Sys2Proof.Machine

/-! ## The alarm (Table 18.1) -/

section
variable {s : State}

theorem exec_gtcAlarm_due (hnew : s.hub.alarmDone = false) (hdue : s.hub.gtcAlarm.toNat ≤ s.clk.gtc.toNat) :
    exec .gtcAlarm s = .next (({ s with hub := { s.hub with alarmDone := true } } : State).fire 668) := by
  simp only [exec, execGtcAlarm, hnew, decide_eq_false (Nat.not_lt.mpr hdue), Bool.or_self, Bool.false_eq_true, if_false]

/-! ## Requests (R336, R469) -/

theorem exec_treqSend_follower (hen : s.hub.gs.en = true) (hup : s.hub.gs.upPort ≠ 7) :
    let q := (s.hub.gs.seq + 1) % 2 ^ 16
    exec .treqSend s = .next ((s.modGs (fun g => { g with seq := q, t1 := none })).queueTx s.hub.gs.upPort
      (s.timeFrame s.hub.gs.upPort (1 + q * 2 ^ 4))) := by
  simp only [exec, execTreqSend, hen, decide_eq_false hup, Bool.not_true, Bool.or_self, Bool.false_eq_true, if_false]

/-- The TRSP that answers the TREQ `x` of port `p`: its number, the device's hops, state and root, and the stamp of the TREQ (R336). Only a
root shows the hop count 0 (log entry 71). -/
def State.timeAnswer (s : State) (p : Nat) (x : RxFrame) : TxFrame :=
  let g := s.hub.gs; let hops := if g.upPort = 7 then 0 else max 1 g.hops; let root := if g.upPort = 7 then s.span.node else g.root.getD 0
  s.timeFrame p (2 + fld x.f.unit 4 16 * 2 ^ 4 + hops % 2 ^ 17 * 2 ^ 20 + g.st.code * 2 ^ 37 + root * 2 ^ 39 + x.tick.toNat * 2 ^ 64)

theorem exec_treqReceive_taken {p : Nat} {x : RxFrame} {u : State}
    (htake : s.takeFrame p (fun f => f.kind == 2 && fld f.unit 0 4 == 1) = some (x, u)) :
    exec (.treqReceive p) s = .next (if x.stamped = false then u else u.queueTx p (s.timeAnswer p x)) := by
  simp only [exec, execTreqReceive, htake, Bool.not_eq_true', beq_iff_eq]
  rfl

end

/-! ## Answers (R336, R337, R469, Table 10.3) -/

/-- A TRSP with this unit lets a LOCKED device stay LOCKED: not too many hops, and no other root than the one it follows (Table 10.3). -/
def GtcSync.keeps (g : GtcSync) (unit : Nat) : Prop :=
  fld unit 20 17 < 131071 ∧ (g.root = none ∨ g.root = some (fld unit 39 17))

/-- The synchronisation unit takes notice of a TRSP at port `p`: the frame was stamped, and `p` is the port of an enabled unit toward its
upstream (R336, R469). -/
structure GtcSync.Hears (g : GtcSync) (p : Nat) (x : RxFrame) : Prop where
  stamped : x.stamped = true
  upstream : p = g.upPort
  enabled : g.en = true
  notRoot : p ≠ 7

theorem GtcSync.Hears.passes {g : GtcSync} {p : Nat} {x : RxFrame} (h : g.Hears p x) :
    (!x.stamped || p != g.upPort || !g.en || decide (g.upPort = 7)) = false := by
  have hroot : g.upPort ≠ 7 := h.upstream ▸ h.notRoot
  simp only [h.stamped, h.enabled, ← h.upstream, bne_self_eq_false, Bool.not_true, Bool.or_self, decide_eq_false h.notRoot]

/-- A valid TRSP for the TREQ stamped `t1` completes the exchange at tick `now`: hops, root, offset and delay are stored, and the unit moves
(R336, R337). -/
def State.completeExchange (u : State) (now t1 : W64) (x : RxFrame) : State :=
  let a : Int := (fld x.f.unit 64 64 : Int) - t1.toNat; let b : Int := (x.tick.toNat : Int) - fld x.f.unit 128 64
  let th := (a - b).tdiv 2
  (u.modGs (fun g => { g with t1 := none, lastValid := now, hops := fld x.f.unit 20 17 + 1, root := some (fld x.f.unit 39 17),
                              offset := clampOff th, delay := min 0xFFFF ((a + b).tdiv 2).toNat })).exchange th

section
variable {p : Nat} {x : RxFrame} {s u : State} (htake : s.takeFrame p (fun f => f.kind == 2 && fld f.unit 0 4 == 2) = some (x, u))
include htake

theorem exec_trspReceive_unheard (hdeaf : ¬ s.hub.gs.Hears p x) : exec (.trspReceive p) s = .next u := by
  have htest : (!x.stamped || p != s.hub.gs.upPort || !s.hub.gs.en || decide (s.hub.gs.upPort = 7)) = true := by
    by_contra hpass
    simp only [Bool.or_eq_true, not_or, Bool.not_eq_true', Bool.not_eq_false, bne_iff_ne, ne_eq, not_not, decide_eq_true_eq] at hpass
    obtain ⟨⟨⟨hstamped, hup⟩, hen⟩, hroot⟩ := hpass
    exact hdeaf ⟨hstamped, hup, hen, hup ▸ hroot⟩
  simp only [exec, execTrspReceive, htake, htest, if_true]

variable (hears : s.hub.gs.Hears p x)
include hears

/-- A TRSP with too many hops or another root ends LOCKED, whatever exchange it answers (Table 10.3). -/
theorem exec_trspReceive_unlocks (hlocked : s.hub.gs.st = .locked) (hends : ¬ s.hub.gs.keeps x.f.unit) :
    exec (.trspReceive p) s = .next (u.unlock .holdover) := by
  simp only [exec, execTrspReceive, htake, hears.passes, hlocked, Bool.false_eq_true, if_false]
  refine nexts (ift ?_)
  cases hroot : s.hub.gs.root with
  | none => simpa [GtcSync.keeps, hroot] using hends
  | some r =>
    have h : fld x.f.unit 20 17 < 131071 → r ≠ fld x.f.unit 39 17 := by simpa [GtcSync.keeps, hroot] using hends
    simpa [Nat.lt_or_ge, or_iff_not_imp_left] using h

/-- Any other TRSP is taken by its number, then by the period, the state and the hop count that it shows (R336). -/
theorem exec_trspReceive_judged {t1 : W64} (hsent : s.hub.gs.t1 = some t1) (hkeeps : s.hub.gs.st = .locked → s.hub.gs.keeps x.f.unit) :
    exec (.trspReceive p) s = .next (if fld x.f.unit 4 16 ≠ s.hub.gs.seq then u
      else if t1.toNat + 2 ^ s.hub.gs.perLog2 ≤ x.tick.toNat ∨ ¬ (fld x.f.unit 37 2 = 2 ∨ fld x.f.unit 20 17 = 0) ∨
        131071 ≤ fld x.f.unit 20 17 then u
      else u.completeExchange s.clk.gtc t1 x) := by
  have hstays : s.hub.gs.st = .locked → fld x.f.unit 20 17 < 131071 ∧ ∀ r, s.hub.gs.root = some r → r = fld x.f.unit 39 17 := by
    intro hlocked
    obtain ⟨hhops, hroot⟩ := hkeeps hlocked
    exact ⟨hhops, fun r hr => by simpa [hr] using hroot⟩
  simp only [exec, execTrspReceive, htake, hears.passes, hsent, Bool.false_eq_true, if_false]
  refine nexts ((ifn ?_).trans ?_)
  · cases hroot : s.hub.gs.root with
    | none => simpa [hroot] using hstays
    | some r => simpa [hroot] using hstays
  · simp only [bne_iff_ne, Bool.or_eq_true, Bool.not_eq_true', Bool.or_eq_false_iff, beq_eq_false_iff_ne, decide_eq_true_eq, not_or, or_assoc]
    rfl

end

/-! ## The states of the synchronisation unit (R337, Table 10.3) -/

section
variable {s : State} {th : Int}

theorem State.trimFree_st (s : State) (th : Int) : (s.trimFree th).hub.gs.st = s.hub.gs.st := rfl

theorem State.exchange_holdover (hst : s.hub.gs.st = .holdover) :
    s.exchange th = s.modGs (fun g => { g with st := .acquire, good := 0, badN := 0 }) := by
  simp [State.exchange, hst]

/-- In LOCKED a second exchange in a row beyond 16 ticks ends LOCKED; any other moves the trim. -/
theorem State.exchange_locked (hst : s.hub.gs.st = .locked) :
    let n := if 16 < th.natAbs then s.hub.gs.badN + 1 else 0
    s.exchange th = if 2 ≤ n then s.unlock .holdover else (s.modGs (fun g => { g with badN := n })).trimFree th := by
  simp [State.exchange, hst]

/-- In ACQUIRE the eighth exchange in a row within 4 ticks locks the unit; an exchange beyond 1,000 ticks steps the counter while no vat is
RUNNING, any other moves the trim. -/
theorem State.exchange_acquire (hst : s.hub.gs.st = .acquire) :
    let n := if th.natAbs ≤ 4 then s.hub.gs.good + 1 else 0
    let u := s.modGs (fun g => { g with good := n, st := if 8 ≤ n then .locked else .acquire })
    s.exchange th = if 1000 < th.natAbs ∧ s.anyRunning = false then u.setGtc (BitVec.ofInt 64 ((s.clk.gtc.toNat : Int) + th))
      else u.trimFree th := by
  simp [State.exchange, hst]

theorem State.exchange_st_acquire_near (hst : s.hub.gs.st = .acquire) (hnear : th.natAbs ≤ 4) :
    (s.exchange th).hub.gs.st = if 7 ≤ s.hub.gs.good then .locked else .acquire := by
  rw [State.exchange_acquire hst, if_neg (by omega), State.trimFree_st, if_pos hnear]
  simp [State.modGs]

theorem State.exchange_st_locked_near (hst : s.hub.gs.st = .locked) (hnear : th.natAbs ≤ 16) : (s.exchange th).hub.gs.st = .locked := by
  rw [State.exchange_locked hst, if_neg (Nat.not_lt.mpr hnear), if_neg (by decide), State.trimFree_st]
  exact hst

theorem exec_syncLossTimeout_due (hst : s.hub.gs.st = .locked)
    (hlate : s.hub.gs.lastValid.toNat + 4 * 2 ^ s.hub.gs.perLog2 ≤ s.clk.gtc.toNat) :
    exec .syncLossTimeout s = .next (s.unlock .holdover) := by
  simp only [exec, execSyncLossTimeout, hst, hlate, beq_self_eq_true, decide_true, Bool.and_self, if_true]

end

/-- Settles O40: each command by what it does when it is due, a TRSP by whether the unit hears it, what it shows and its number. -/
theorem globalTime : Obligations.GlobalTime := by
  unfold Obligations.GlobalTime
  refine ⟨?set, fun s => exec_gtcAlarm_due, fun s => exec_treqSend_follower, ?treq, ?ignored, ?unlocks, ?valid, ?states,
    fun s => exec_syncLossTimeout_due⟩
  case set =>
    intro t s
    exact ⟨fun hrun => nexts (ift hrun), fun hidle => nexts (ifn hidle), rfl⟩
  case treq =>
    intro p x s u htake g hops root
    have hexec := exec_treqReceive_taken htake
    exact ⟨fun hplain => hexec.trans (nexts (if_pos hplain)),
      fun hstamped => hexec.trans (nexts (if_neg (ne_false_of_eq_true hstamped)))⟩
  case ignored =>
    intro p x t1 s u htake hsent hwhy
    by_cases hears : s.hub.gs.Hears p x
    · obtain ⟨hnumber, hkeeps⟩ : fld x.f.unit 4 16 ≠ s.hub.gs.seq ∧ (s.hub.gs.st = .locked → s.hub.gs.keeps x.f.unit) := by
        simpa [GtcSync.keeps, hears.stamped, hears.upstream.symm, hears.enabled, hears.notRoot] using hwhy
      exact (exec_trspReceive_judged htake hears hsent hkeeps).trans (nexts (if_pos hnumber))
    · exact exec_trspReceive_unheard htake hears
  case unlocks =>
    intro p r x s u htake hstamped hup hen hport hlocked hroot hbad
    refine exec_trspReceive_unlocks htake ⟨hstamped, hup, hen, hport⟩ hlocked ?_
    rintro ⟨hhops, hnone | hsame⟩
    · simp [hroot] at hnone
    · have hr : r = fld x.f.unit 39 17 := Option.some.inj (hroot.symm.trans hsame)
      exact hbad.elim (Nat.not_le.mpr hhops) (absurd hr)
  case valid =>
    intro p x t1 s u htake hsent hstamped hup hen hport hnumber hroot hperiod hlock hhops a b th w
    refine (exec_trspReceive_judged htake ⟨hstamped, hup, hen, hport⟩ hsent (fun _ => ⟨hhops, hroot⟩)).trans
      (nexts ((if_neg (not_not.mpr hnumber)).trans (if_neg ?_)))
    rintro (hlate | hunlocked | hfar)
    · exact Nat.not_le.mpr hperiod hlate
    · exact hunlocked hlock
    · exact Nat.not_le.mpr hhops hfar
  case states =>
    intro th s g
    refine ⟨State.exchange_holdover, fun hst hfar hbad => ?_, State.exchange_st_locked_near, State.exchange_st_acquire_near,
      fun hst hfar hidle => ?_⟩
    · rw [State.exchange_locked hst, if_pos hfar, if_pos (Nat.succ_le_succ hbad)]
    · rw [State.exchange_acquire hst, if_pos ⟨hfar, hidle⟩]
      rfl

end Sys2Proof.Machine
end

section
/-! PROOFS. The memory window, copies and data commands of the host (O49). -/

namespace Sys2Proof.Machine

/-! ## The memory window (R517, R520, R521, Table 17.4) -/

/-- Function `fn` is the PF or a VF mapped to a vat (R517). -/
def State.FnServed (s : State) (fn : Nat) : Prop := fn = 0 ∨ (s.fnVat fn).isSome = true

theorem State.fnServed_iff (s : State) (fn : Nat) : (fn != 0 && (s.fnVat fn).isNone) = false ↔ s.FnServed fn := by
  simp only [State.FnServed, Bool.and_eq_false_iff, bne_eq_false_iff_eq, Option.isNone_eq_false_iff]

theorem State.not_fnServed_iff (s : State) (fn : Nat) : (fn != 0 && (s.fnVat fn).isNone) = true ↔ ¬ s.FnServed fn := by
  rw [← s.fnServed_iff, Bool.not_eq_false]

/-- A window request of function `fn` for the `n` bytes at `a` that is carried out: the port is open, the request lies inside the function's
rights, its target is awake and the function is served. -/
structure State.WinAdmits (s : State) (fn a n : Nat) (write : Bool) : Prop where
  opened : s.hostOpen = true
  rights : s.winCheck fn a n write = eOk
  awake : s.spadAwake a = true
  served : s.FnServed fn

/-- Stack traffic is charged to a vat, when the function that causes it has one. -/
def State.chargeFn (s : State) (v : Option Nat) (k n : Nat) : State :=
  match v with
  | some v => s.accountStk v k n
  | none => s

section
variable {s : State} {fn off : Nat}

section
variable {len : Nat} {t : Option Nat} (hadmits : s.WinAdmits fn (s.winAddr fn off) len false)
include hadmits

theorem exec_memoryWindowRead_spad {c : Nat} (htarget : s.winTarget (s.winAddr fn off) len = some (t, some c)) :
    let o := fld (s.winAddr fn off) 0 19
    exec (.memoryWindowRead fn off len) s =
      .next ((s.noteRead c o len).send (.hostCpl fn true ((s.spad c).bad o len) ((s.spad c).mem.readBytes o len))) := by
  simp only [exec, execMemoryWindowRead, hadmits.opened, hadmits.rights, hadmits.awake, (s.fnServed_iff fn).mpr hadmits.served, htarget,
    bne_self_eq_false, Bool.not_true, Bool.and_false, Bool.false_eq_true, if_false]

theorem exec_memoryWindowRead_stack (htarget : s.winTarget (s.winAddr fn off) len = some (t, none)) :
    let a := s.winAddr fn off
    exec (.memoryWindowRead fn off len) s =
      .next (((s.noteStack (s.fnVat fn) a len).send (.hostCpl fn true (s.stackBad a len) (s.stackRead a len))).chargeFn (s.fnVat fn) 0
        (chargeOf a len)) := by
  simp only [exec, execMemoryWindowRead, hadmits.opened, hadmits.rights, hadmits.awake, (s.fnServed_iff fn).mpr hadmits.served, htarget,
    bne_self_eq_false, Bool.not_true, Bool.and_false, Bool.false_eq_true, if_false]
  rfl

end

section
variable {data : List Byte} {t : Option Nat} (hadmits : s.WinAdmits fn (s.winAddr fn off) data.length true) (ep : Bool)
include hadmits

theorem exec_memoryWindowWrite_spad {c : Nat} (htarget : s.winTarget (s.winAddr fn off) data.length = some (t, some c)) :
    let a := s.winAddr fn off; let u := if ep then s.epReceived fn a t else s
    exec (.memoryWindowWrite fn off data ep) s = .next (u.spadPut c (fld a 0 19) data (fun _ => ep)) := by
  simp only [exec, execMemoryWindowWrite, hadmits.opened, hadmits.rights, hadmits.awake, (s.fnServed_iff fn).mpr hadmits.served, htarget,
    bne_self_eq_false, Bool.not_true, Bool.and_false, Bool.false_eq_true, if_false]

theorem exec_memoryWindowWrite_stack (htarget : s.winTarget (s.winAddr fn off) data.length = some (t, none)) :
    let a := s.winAddr fn off; let u := if ep then s.epReceived fn a t else s
    exec (.memoryWindowWrite fn off data ep) s =
      .next ((u.stackPut a data (fun _ => ep)).chargeFn (s.fnVat fn) 1 (chargeOf a data.length)) := by
  simp only [exec, execMemoryWindowWrite, hadmits.opened, hadmits.rights, hadmits.awake, (s.fnServed_iff fn).mpr hadmits.served, htarget,
    bne_self_eq_false, Bool.not_true, Bool.and_false, Bool.false_eq_true, if_false]
  rfl

end

section
variable {len : Nat} (hopen : s.hostOpen = true) (hno : s.winCheck fn (s.winAddr fn off) len false ≠ eOk)
include hopen hno

theorem exec_memoryWindowRead_refused (hserved : s.FnServed fn) :
    exec (.memoryWindowRead fn off len) s = .next ((s.winRefuse fn (s.winCheck fn (s.winAddr fn off) len false) (s.winAddr fn off)).send
      (.hostCpl fn false false [])) := by
  simp only [exec, execMemoryWindowRead, hopen, decide_eq_false hno, (s.fnServed_iff fn).mpr hserved, bne_iff_ne.mpr hno, Bool.not_true,
    Bool.false_and, Bool.false_eq_true, if_false, if_true]

theorem exec_memoryWindowRead_unserved (hfree : ¬ s.FnServed fn) :
    exec (.memoryWindowRead fn off len) s = .next (s.send (.hostCpl fn true false (List.replicate len 0))) := by
  simp only [exec, execMemoryWindowRead, hopen, decide_eq_false hno, (s.not_fnServed_iff fn).mpr hfree, Bool.not_true,
    Bool.false_and, Bool.false_eq_true, if_false, if_true]

end

section
variable {data : List Byte} (hopen : s.hostOpen = true) (hno : s.winCheck fn (s.winAddr fn off) data.length true ≠ eOk) (ep : Bool)
include hopen hno

theorem exec_memoryWindowWrite_refused (hserved : s.FnServed fn) :
    exec (.memoryWindowWrite fn off data ep) s =
      .next (s.winRefuse fn (s.winCheck fn (s.winAddr fn off) data.length true) (s.winAddr fn off)) := by
  simp only [exec, execMemoryWindowWrite, hopen, decide_eq_false hno, (s.fnServed_iff fn).mpr hserved, bne_iff_ne.mpr hno, Bool.not_true,
    Bool.false_and, Bool.false_eq_true, if_false, if_true]

theorem exec_memoryWindowWrite_unserved (hfree : ¬ s.FnServed fn) : exec (.memoryWindowWrite fn off data ep) s = .next s := by
  simp only [exec, execMemoryWindowWrite, hopen, decide_eq_false hno, (s.not_fnServed_iff fn).mpr hfree, Bool.not_true,
    Bool.false_and, Bool.false_eq_true, if_false, if_true]

end
end

/-! ## SADD, SEQ and STKCMD (R342, R372, R425, R532) -/

section
variable {s u : State} {r v : Nat} {k : Caller}

/-- An increment of a counter whose vat `tv` runs in deterministic mode: held to its tick `t`; one without a tick, or past it, is added at once
and breaks determinism (R317, R342). -/
def State.hostAddRunning (u : State) (tv v : Nat) (k : Caller) (a n t : Nat) : State :=
  if t ≠ 0 ∧ u.clk.gtc.toNat < t then
    ({ u with net := { u.net with heldTicks := u.net.heldTicks ++ [{ stamp := BitVec.ofNat 64 t, ctr := a, amount := n }] } } : State).hostFinish
      k.host eOk 0 0
  else
    let w := if t = 0 ∨ u.pastStamp tv (BitVec.ofNat 64 t) = true then u.detBreak tv 0x0B else u
    (if t ≠ 0 ∧ (u.vat tv).det.stretched = true then w.detBreak tv 0x0D else w).hostAdd v k a n

theorem State.hostAddRunning_unstamped (u : State) (tv v : Nat) (k : Caller) (a n : Nat) :
    u.hostAddRunning tv v k a n 0 = (u.detBreak tv 0x0B).hostAdd v k a n := by
  simp [State.hostAddRunning]

theorem State.hostAddRunning_late (u : State) (tv v : Nat) (k : Caller) (a n : Nat) {t : Nat} (hstamped : t ≠ 0) (hlate : t ≤ u.clk.gtc.toNat) :
    let w := if u.pastStamp tv (BitVec.ofNat 64 t) = true then u.detBreak tv 0x0B else u
    u.hostAddRunning tv v k a n t = (if (u.vat tv).det.stretched = true then w.detBreak tv 0x0D else w).hostAdd v k a n := by
  simp [State.hostAddRunning, hstamped, Nat.not_lt.mpr hlate]

/-- SADD is refused in a vat without a job, WIPING or FAULTED, and where the vat has no right to the counter (R342, R532). -/
theorem exec_hostSadd_taken (ht : s.taken (.host r) 0x08 v = some (u, k)) :
    let x := u.vat v; let a := fld k.entry 64 15; let n := fld k.entry 96 32; let t := fld k.entry 128 64
    let right := if a < 0x4000 then u.owns v (a / 256) else u.globalFor (some v) a; let tv := (u.vatOfCtr a).getD v
    exec (.hostSadd r v) s = .next (if x.jobValid = false ∨ x.st = .wiping ∨ x.st = .faulted then u.refuseCmd v k eState
      else if right = false then u.refuseCmd v k ePermission
      else if (u.vat tv).st = .running ∧ (u.vat tv).det.detOn = true then u.hostAddRunning tv v k a n t
      else u.hostAdd v k a n) := by
  intro x a n t right tv
  simp only [exec, execHostSadd, State.command_taken ht, Bool.or_eq_true, Bool.and_eq_true, Bool.not_eq_true', beq_iff_eq, bne_iff_ne,
    decide_eq_true_eq, or_assoc]
  rfl

theorem exec_seq_taken (ht : s.taken (.host r) 0x09 v = some (u, k)) : exec (.seq r v) s = .next (u.seqReq v (seqOfEntry k.entry k.host)) :=
  nexts (State.command_taken ht _)

/-- A vat in the states of R532 takes a STKCMD of the host. -/
def Vat.TakesStkcmd (x : Vat) : Prop :=
  (x.st = .ready ∨ x.st = .running ∨ x.st = .scanned ∨ (x.st = .free ∧ x.jobValid = true)) ∧ x.tw.standby = false ∧ x.heldOrLater = false

theorem Vat.takesStkcmd_iff (x : Vat) :
    (!(x.st == .ready || x.st == .running || x.st == .scanned || (x.st == .free && x.jobValid)) || x.tw.standby || x.heldOrLater) = false ↔
      x.TakesStkcmd := by
  simp only [Vat.TakesStkcmd, Bool.or_eq_false_iff, Bool.not_eq_false', Bool.or_eq_true, Bool.and_eq_true, beq_iff_eq, or_assoc, and_assoc]

section
variable (ht : s.taken (.host r) 0x0B v = some (u, k)) (hroom : (s.mem.cmds.filter (fun k => k.vat == v)).length < 16)
include ht hroom

theorem exec_stkcmd_refused (hno : ¬ (u.vat v).TakesStkcmd) : exec (.stkcmd r v) s = .next (u.refuseCmd v k eState) := by
  have htest := (Bool.not_eq_false _).mp (mt (u.vat v).takesStkcmd_iff.mp hno)
  simp only [exec, execStkcmd, ge_iff_le, if_neg (Nat.not_le.mpr hroom), State.command_taken ht, htest, if_true]

/-- A record with a window field is refused when it can be read; any other is read, charged and issued (R372, R532). -/
theorem exec_stkcmd_allowed {ring uid : Nat} (hk : k.host = some (ring, uid)) (htakes : (u.vat v).TakesStkcmd) :
    let a := fld k.entry 64 48; let rec_ := u.stackNat a 128
    exec (.stkcmd r v) s = .next (if rWin rec_ ≠ 0 ∧ u.stackBad a 128 = false then u.refuseCmd v k eFormat
      else ((u.noteStack (some v) a 128).accountStk v 0 (chargeOf a 128)).stkAccept (.host ring uid) v rec_ (u.stackBad a 128)) := by
  have htest := (u.vat v).takesStkcmd_iff.mpr htakes
  simp only [exec, execStkcmd, ge_iff_le, if_neg (Nat.not_le.mpr hroom), State.command_taken ht, htest, hk, Bool.false_eq_true, if_false,
    Bool.and_eq_true, bne_iff_ne, Bool.not_eq_true']

end

end

/-! ## COPY (R536, R537, R554) -/

/-- The copy `j` begins: a scratchpad copy holds the vat, and a copy into the device asks the host for its data (R536). -/
def State.beginCopy (u : State) (j : CopyJob) : State :=
  let y : State := { u with host := { u.host with copies := u.host.copies ++ [j] } }
  let w := if j.spad.isSome then y.modVat j.vat (fun x => { x with spadCopies := x.spadCopies + 1 }) else y
  if j.out then w else w.send (.hostRead j.hostAddr j.bytes)

section
variable {s u : State} {r v : Nat} {c : HostCmd} {k : Caller} (ht : s.taken (.host r) 0x0C v = some (u, k))
  (hc : (s.ring r).nextCmd = some c) (hawake : s.spadAwake (fld c.entry 192 48) = true)
include ht hc hawake

theorem exec_copy_outside (hrange : u.copyRange v (fld k.entry 192 48) (fld k.entry 256 32) = none) :
    exec (.copy r v) s = .next (u.refuseCmd v k ePermission) := by
  simp only [exec, execCopy, hc, hawake, State.command_taken ht, hrange, Bool.not_true, Bool.and_false, Bool.false_eq_true, if_false]

theorem exec_copy_inside {core : Option Nat} (hrange : u.copyRange v (fld k.entry 192 48) (fld k.entry 256 32) = some core) :
    let e := k.entry; let a := fld e 192 48; let n := fld e 256 32; let out := bit e 64
    exec (.copy r v) s = .next (if u.copyState v core.isSome out a n = false then u.refuseCmd v k eState
      else u.beginCopy { host := k.host.getD (0, 0), vat := v, out := out, hostAddr := fld e 128 64, dev := a, bytes := n, spad := core,
                         since := u.clk.gtc }) := by
  intro e a n out
  simp only [exec, execCopy, hc, hawake, State.command_taken ht, hrange, Bool.not_true, Bool.and_false, Bool.false_eq_true, if_false,
    Bool.not_eq_true']
  rfl

end

/-- The bytes that a copy to the host takes from the device are read: noted, and charged where they lie in stack memory (R537). -/
def State.noteCopySource (s : State) (k : CopyJob) : State :=
  match k.spad with
  | some c => s.noteRead c (fld k.dev 0 19) k.bytes
  | none => (s.noteStack (some k.vat) k.dev k.bytes).accountStk k.vat 0 (chargeOf k.dev k.bytes)

section
variable {s : State} {r uid : Nat} {k : CopyJob} (hcopy : s.copyOf r uid = some k)
include hcopy

section
variable (hin : k.out = false)
include hin

theorem exec_hostReadCompletion_refused (off e : Nat) :
    exec (.hostReadCompletion r uid off (.refused e)) s = .next (s.copyEnd k ePermission k.moved) := by
  simp only [exec, execHostReadCompletion, hcopy, hin, Bool.false_eq_true, if_false]

/-- Data that lies in the copy and has not come before is written, poisoned as a whole when a part of it is (R537). -/
theorem exec_hostReadCompletion_data {off : Nat} {data : List Byte} (bad : List Nat) (hfits : off + data.length ≤ k.bytes)
    (hnew : k.got.any (fun g => meets off data.length g.1 g.2) = false) :
    let u := if bad = [] then s else s.epReceived (s.ringFn r) (k.dev + off) (some k.vat)
    exec (.hostReadCompletion r uid off (.ok data bad)) s = .next ((u.copyPut k off data (fun _ => !bad.isEmpty)).putCopy
      { k with moved := k.moved + data.length, got := k.got ++ [(off, data.length)], since := s.clk.gtc }) := by
  intro u
  have hu : (if (!bad.isEmpty) = true then s.epReceived (s.ringFn r) (k.dev + off) (some k.vat) else s) = u := by
    simp only [u, Bool.not_eq_true', List.isEmpty_eq_false_iff, ite_not]
  simp only [exec, execHostReadCompletion, hcopy, hin, hnew, decide_eq_false (Nat.not_lt.mpr hfits), Bool.or_self, Bool.false_eq_true, if_false,
    hu]

theorem exec_copyComplete_arrived (hall : k.moved = k.bytes) : exec (.copyComplete r uid) s = .next (s.copyEnd k eOk k.moved) := by
  simp only [exec, execCopyComplete, hcopy, hin, hall, Bool.not_false, if_true]

theorem exec_dmaCompletionTimeout_copy (hwaits : k.moved < k.bytes) (hlate : k.since.toNat + s.host.ctoUs * 1000 ≤ s.clk.gtc.toNat) :
    exec (.dmaCompletionTimeout r (some uid)) s =
      .next (({ s with host := { s.host with cplTimeout := satAdd top16 s.host.cplTimeout 1 } } : State).copyEnd k eTimeout k.moved) := by
  simp only [exec, execDmaCompletionTimeout, hcopy, hin, hwaits, hlate, Bool.not_false, decide_true, Bool.and_self, if_true]

end

section
variable (hout : k.out = true)
include hout

theorem exec_copyComplete_clean (hclean : s.copyBad k = none) :
    exec (.copyComplete r uid) s =
      .next (((s.noteCopySource k).send (.hostWrite k.hostAddr (s.copyGet k k.bytes))).copyEnd k eOk k.bytes) := by
  simp only [exec, execCopyComplete, hcopy, hout, hclean, Bool.not_true, Bool.false_eq_true, if_false]
  rfl

/-- Poison on its way to the host is a commit point: the data before the poisoned word leaves, and the sheet is aborted (R537, R554; log entry 76). -/
theorem exec_copyComplete_poisoned {off : Nat} (hbad : s.copyBad k = some off) :
    let cut := off / 4 * 4
    let w := if cut = 0 then s.noteCopySource k else (s.noteCopySource k).send (.hostWrite k.hostAddr (s.copyGet k cut))
    exec (.copyComplete r uid) s =
      .next (((w.containPoint k.vat 1 (srcHub 9) (k.hostAddr + cut) (k.dev + cut)).copyEnd k ePoison cut).abortSheet k.vat) := by
  simp only [exec, execCopyComplete, hcopy, hout, hbad, Bool.not_true, Bool.false_eq_true, if_false]
  rfl

end
end

/-- Settles O49: window requests by the rights of their function, the data commands by their checks, a COPY from its beginning to its end. -/
theorem hostTransfers : Obligations.HostTransfers := by
  unfold Obligations.HostTransfers
  refine ⟨?readSpad, ?readStack, ?write, ?refused, ?sadd, fun r v k s u => exec_seq_taken, ?stkcmd, ?copy, ?arrives, ?completes,
    fun r uid k s hcopy hin => exec_dmaCompletionTimeout_copy hcopy hin⟩
  case readSpad =>
    intro fn off len c t s hopen hrights hawake hserved htarget o
    exact exec_memoryWindowRead_spad ⟨hopen, hrights, hawake, hserved⟩ htarget
  case readStack =>
    intro fn off len t s hopen hrights hawake hserved htarget a u
    exact exec_memoryWindowRead_stack ⟨hopen, hrights, hawake, hserved⟩ htarget
  case write =>
    intro fn off data ep c t s hopen hrights hawake hserved htarget a u
    refine ⟨fun core hc => ?_, fun hc => ?_⟩
    · subst hc
      exact exec_memoryWindowWrite_spad ⟨hopen, hrights, hawake, hserved⟩ ep htarget
    · subst hc
      exact exec_memoryWindowWrite_stack ⟨hopen, hrights, hawake, hserved⟩ ep htarget
  case refused =>
    intro fn off data ep s hopen a er ew owner
    exact ⟨exec_memoryWindowRead_refused hopen, fun hno => exec_memoryWindowWrite_refused hopen hno ep,
      exec_memoryWindowRead_unserved hopen, fun hno => exec_memoryWindowWrite_unserved hopen hno ep⟩
  case sadd =>
    intro r v k s u ht x a n t right shut tv live
    have hexec := exec_hostSadd_taken ht
    have hruns : ¬ shut → right = true → live → exec (.hostSadd r v) s = .next (u.hostAddRunning tv v k a n t) := fun hopen hright hlive =>
      hexec.trans (nexts ((if_neg hopen).trans ((if_neg (ne_false_of_eq_true hright)).trans (if_pos hlive))))
    refine ⟨fun hshut => ?_, fun hopen hright => ?_, fun hopen hright hidle => ?_, fun hopen hright hlive hstamped hearly => ?_,
      fun hopen hright hlive hplain => ?_, fun hopen hright hlive hstamped hlate => ?_⟩
    · exact hexec.trans (nexts (if_pos hshut))
    · exact hexec.trans (nexts ((if_neg hopen).trans (if_pos hright)))
    · exact hexec.trans (nexts ((if_neg hopen).trans ((if_neg (ne_false_of_eq_true hright)).trans (if_neg hidle))))
    · exact (hruns hopen hright hlive).trans (nexts (if_pos ⟨hstamped, hearly⟩))
    · rw [hruns hopen hright hlive, hplain, State.hostAddRunning_unstamped]
    · exact (hruns hopen hright hlive).trans (nexts (State.hostAddRunning_late u tv v k a n hstamped hlate))
  case stkcmd =>
    intro r v ring uid k s u ht hroom hk x a rec_ legal
    refine ⟨exec_stkcmd_refused ht hroom, fun hlegal hwin hclean => ?_, fun hlegal hform => ?_⟩
    · exact (exec_stkcmd_allowed ht hroom hk hlegal).trans (nexts (if_pos ⟨hwin, hclean⟩))
    · refine (exec_stkcmd_allowed ht hroom hk hlegal).trans (nexts (if_neg ?_))
      rintro ⟨hwin, hclean⟩
      exact hform.elim hwin (ne_true_of_eq_false hclean)
  case copy =>
    intro r v c k s u ht hc hawake e a n out
    refine ⟨exec_copy_outside ht hc hawake, fun core hrange hno => ?_, fun core hrange hgoes => ?_⟩
    · exact (exec_copy_inside ht hc hawake hrange).trans (nexts (if_pos hno))
    · exact (exec_copy_inside ht hc hawake hrange).trans (nexts (if_neg (ne_false_of_eq_true hgoes)))
  case arrives =>
    intro r uid off k s hcopy hin
    exact ⟨exec_hostReadCompletion_refused hcopy hin off, fun data bad => exec_hostReadCompletion_data hcopy hin bad⟩
  case completes =>
    intro r uid k s hcopy
    exact ⟨exec_copyComplete_arrived hcopy,
      fun hout => ⟨exec_copyComplete_clean hcopy hout, fun off => exec_copyComplete_poisoned hcopy hout⟩⟩

end Sys2Proof.Machine
end

section
/-! PROOFS. The memory stacks: places, plain requests, refresh and heat (O42). -/

namespace Sys2Proof.Machine

/-! ## The place of an address (R355) -/

theorem stackOf_eq (a : Nat) : stackOf a = a / 4096 % 8 := by
  simp only [stackOf, fld, Nat.shiftRight_eq_div_pow, Nat.reducePow]

theorem stackLocal_eq (a : Nat) : stackLocal a = a / 2 ^ 15 * 4096 + a % 4096 := by
  rw [stackLocal, Nat.shiftRight_eq_div_pow]

theorem stackPlace_eq (a : Nat) :
    let l := a / 2 ^ 15 * 4096 + a % 4096; let q := l / 2 ^ 13
    stackPlace a = { stack := a / 4096 % 8, chan := l / 256 % 32, bank := q % 48, layer := q % 48 / 4, col := q / 48 % 8, row := q / 384 } := by
  simp only [stackPlace, stackOf_eq, stackLocal_eq, stackQ]

theorem stackOf_granule {a b : Nat} (h : a / 4096 = b / 4096) : stackOf a = stackOf b := by
  rw [stackOf_eq, stackOf_eq, h]

/-- An even granule of a stack holds channels 0 to 15, the next granule of the same stack channels 16 to 31. -/
theorem stackPlace_chan {g c : Nat} (hg : g % 2 = 0) (hc : c < 32) : (stackPlace (2 ^ 15 * (g + c / 16) + 256 * (c % 16))).chan = c := by
  simp only [stackPlace_eq]
  omega

/-! ## Plain requests (R357 to R359, R367) -/

/-- For whom the words of an access are noted: the vat that asks, else the granule's owner. -/
def State.stkFor (s : State) (who : StkWho) (a : Nat) : Option Nat :=
  match who with
  | .vat v => some v
  | _ => s.stackOwner a

/-- A vat has no right to a granule of another. -/
theorem State.stkAdmit_notOwner {s : State} {v a : Nat} (hother : s.stackOwner a ≠ some v) (n : Nat) (write : Bool) :
    s.stkAdmit (.vat v) a n write = ePermission := by
  simp only [State.stkAdmit, beq_eq_false_iff_ne.mpr hother, Bool.not_false, if_true]

theorem State.stkAdmit_wiping {s : State} {who : StkWho} {v a : Nat} (howner : s.stackOwner a = some v) (hwipe : (s.vat v).st = .wiping)
    (hwho : who = .vat v ∨ who = .mgmt) (n : Nat) (write : Bool) : s.stkAdmit who a n write = eState := by
  rcases hwho with rfl | rfl <;>
    simp only [State.stkAdmit, howner, hwipe, beq_self_eq_true, Bool.not_true, Bool.false_eq_true, if_false, if_true]

section
variable {s : State} {who : StkWho} {a : Nat} (at_ : Option Nat)

section
variable {n : Nat} (hpacket : stackPacket a n = true)
include hpacket

/-- A read's data is what the block holds at its admission. -/
theorem exec_stackRead_admitted (hok : s.stkAdmit who a n false = eOk) :
    let r : StkReq := { who := who, via := stackVia at_ a, addr := a, data := s.stackRead a n, bad := s.stackBadOffs a n }
    let u := (s.noteStack (s.stkFor who a) a n).stkCharge who 0 (chargeOf a n)
    exec (.stackRead (who, at_) a n) s = .next { u with mem := { u.mem with reads := u.mem.reads ++ [r] } } := by
  simp only [exec, execStackRead, hpacket, hok, bne_self_eq_false, Bool.not_true, Bool.false_eq_true, if_false]
  rfl

theorem exec_stackRead_refused (hno : s.stkAdmit who a n false ≠ eOk) :
    exec (.stackRead (who, at_) a n) s = .next (s.stkReject who (stackVia at_ a) a (s.stkAdmit who a n false)) := by
  simp only [exec, execStackRead, hpacket, bne_iff_ne.mpr hno, Bool.not_true, Bool.false_eq_true, if_false, if_true]

end

section
variable {data : List Byte} (bad : List Nat) (hpacket : stackPacket a data.length = true)
include hpacket

section
variable (hok : s.stkAdmit who a data.length true = eOk)
include hok

theorem exec_stackWrite_words (hwords : a % 16 = 0 ∧ data.length % 16 = 0) :
    exec (.stackWrite (who, at_) a data bad) s =
      .next (((s.stackPut a data (fun i => bad.contains i)).stkCharge who 1 (chargeOf a data.length)).send
        (.stackAnswer who (stackVia at_ a) a eOk [] [])) := by
  simp only [exec, execStackWrite, hpacket, hok, hwords, bne_self_eq_false, Bool.not_true, Bool.false_eq_true, if_false, decide_true,
    Bool.and_self, if_true]

/-- A write in parts of words reads them first, is charged both and acknowledged later (R359; log entry 36). -/
theorem exec_stackWrite_parts (hparts : ¬ (a % 16 = 0 ∧ data.length % 16 = 0)) :
    let u := ((s.noteStack (s.stkFor who a) a data.length).stackPut a data (fun i => bad.contains i)).stkCharge who 1
      (2 * chargeOf a data.length)
    exec (.stackWrite (who, at_) a data bad) s =
      .next { u with mem := { u.mem with rmws := u.mem.rmws ++ [{ who := who, via := stackVia at_ a, addr := a }] } } := by
  simp only [exec, execStackWrite, hpacket, hok, hparts, bne_self_eq_false, Bool.not_true, Bool.false_eq_true, if_false, Bool.and_eq_true,
    decide_eq_true_eq]
  rfl

end

theorem exec_stackWrite_refused (hno : s.stkAdmit who a data.length true ≠ eOk) :
    exec (.stackWrite (who, at_) a data bad) s = .next (s.stkReject who (stackVia at_ a) a (s.stkAdmit who a data.length true)) := by
  simp only [exec, execStackWrite, hpacket, bne_iff_ne.mpr hno, Bool.not_true, Bool.false_eq_true, if_false, if_true]

end
end

section
variable {s : State} {k : Nat} {r : StkReq}

theorem exec_stackReadReturn_waiting (hwaits : s.mem.reads[k]? = some r) :
    exec (.stackReadReturn k) s = .next (({ s with mem := { s.mem with reads := s.mem.reads.eraseIdx k } } : State).send
      (.stackAnswer r.who r.via r.addr eOk r.data r.bad)) := by
  simp only [exec, execStackReadReturn, hwaits]

theorem exec_readModifyWriteAck_waiting (hwaits : s.mem.rmws[k]? = some r) :
    exec (.readModifyWriteAck k) s = .next (({ s with mem := { s.mem with rmws := s.mem.rmws.eraseIdx k } } : State).send
      (.stackAnswer r.who r.via r.addr eOk [] [])) := by
  simp only [exec, execReadModifyWriteAck, hwaits]

end

/-! ## Refresh, scrub and heat (R361 to R364) -/

theorem State.slotNow_eq_some {s : State} {t : Nat} :
    s.slotNow = some t ↔ s.clk.gtc.toNat % s.hub.refPeriod < s.hub.refLen ∧ t = s.clk.gtc.toNat - s.clk.gtc.toNat % s.hub.refPeriod := by
  simp only [State.slotNow, Option.ite_none_right_eq_some, Option.some.injEq]
  exact and_congr_right fun _ => eq_comm

theorem State.noRefresh_eq_false {s : State} {i : Nat} (hruns : s.boot.wiped = true ∨ (s.stk i).hot = true) : s.noRefresh i = false := by
  rcases hruns with h | h <;> simp [State.noRefresh, h]

section
variable {s : State} {i : Nat} (hi : i < 8)
include hi

section
variable (hawake : s.pwr.asleep = false) (hruns : s.boot.wiped = true ∨ (s.stk i).hot = true)
include hawake hruns

/-- With refresh slots off, a bank refreshes on its own count. -/
theorem exec_bankRefresh_unslotted (hoff : s.hub.refEn = false) : exec (.bankRefresh i) s = .next ((s.scrubRewrite i).scrubRead i) := by
  have hgoes := State.noRefresh_eq_false hruns
  simp only [exec, execBankRefresh, Nat.not_le.mpr hi, decide_false, hawake, hoff, hgoes, Bool.or_self, Bool.false_eq_true, if_false]

/-- A slot is used once by a stack. -/
theorem exec_refreshSlot_fresh {t : Nat} (hon : s.hub.refEn = true) (hslot : s.slotNow = some t) (hnew : (s.stk i).slotAt ≠ some t) :
    exec (.refreshSlot i) s =
      .next (((s.modStk i (fun x => { x with rows := s.slotRows i, slotAt := some t })).scrubRewrite i).scrubRead i) := by
  have hgoes := State.noRefresh_eq_false hruns
  simp only [exec, execRefreshSlot, Nat.not_le.mpr hi, decide_false, hawake, hon, hslot, beq_eq_false_iff_ne.mpr hnew, hgoes, Bool.not_true,
    Option.isNone_some, Bool.or_self, Bool.false_eq_true, if_false]

end

theorem exec_stackTempRead_stack (t : Nat) :
    let hot := decide (85 < t); let u := s.modStk i (fun x => { x with temp := min t 255, hot := hot })
    exec (.stackTempRead i t) s = .next (if hot = (s.stk i).hot then u else u.fire (651 + i)) := by
  simp only [exec, execStackTempRead, Nat.not_le.mpr hi, if_false, bne_iff_ne, ite_not]

end

/-- Settles O42: an address by its place, a request by its admission, refresh and heat by the stack they meet. -/
theorem stackRequests : Obligations.StackRequests := by
  unfold Obligations.StackRequests
  refine ⟨?read, fun k r s => exec_stackReadReturn_waiting, ?write, ?refused, fun k r s => exec_readModifyWriteAck_waiting, ?refresh, ?place,
    fun i t s hi => exec_stackTempRead_stack hi t⟩
  case read =>
    intro who at_ a n s hpacket hok
    exact exec_stackRead_admitted at_ hpacket hok
  case write =>
    intro who at_ a data bad s hpacket hok
    exact ⟨exec_stackWrite_words at_ bad hpacket hok, exec_stackWrite_parts at_ bad hpacket hok⟩
  case refused =>
    intro who at_ a n data bad s
    refine ⟨exec_stackRead_refused at_, exec_stackWrite_refused at_ bad, fun v st => ⟨?_, ?_⟩⟩
    · rintro howner hwipe rfl hwho
      exact State.stkAdmit_wiping howner hwipe hwho n false
    · rintro rfl hother
      exact State.stkAdmit_notOwner hother n false
  case refresh =>
    intro i s hi hawake hruns
    exact ⟨exec_bankRefresh_unslotted hi hawake hruns, fun t => exec_refreshSlot_fresh hi hawake hruns, fun t => State.slotNow_eq_some⟩
  case place =>
    intro a b
    exact ⟨stackPlace_eq a, stackOf_granule, fun g c => stackPlace_chan⟩

end Sys2Proof.Machine
end

section
/-! PROOFS. The life of a stack engine command (O43). -/

namespace Sys2Proof.Machine

/-! ## Acceptance and start (R370 to R372, R376, R389 to R393, R483) -/

/-- A record is a command when it fills one of the 128 B places of its window. -/
theorem exec_stackCommand_record (b : StkBy) (v off : Nat) (data : List Byte) (bad : List Nat) (s : State) :
    exec (.stackCommand b v off data bad) s = .next (if data.length = 128 ∧ off % 128 = 0 ∧ off < 4096
      then s.stkAccept b v (leNat data) (!bad.isEmpty)
      else (s.send (.commandAnswer b eFormat)).log (srcHub 6) evRefused eFormat (some v) off 0) := by
  have hform : (data.length != 128 || off % 128 != 0 || decide (4096 ≤ off)) = true ↔ ¬ (data.length = 128 ∧ off % 128 = 0 ∧ off < 4096) := by
    simp [imp_iff_not_or, or_assoc]
  simp only [exec, execStackCommand, hform, ite_not]

/-- A legal record of a vat with room in the store joins it. -/
theorem State.stkAccept_legal {s : State} {v r : Nat} (b : StkBy) (hroom : (s.mem.cmds.filter (fun k => k.vat == v)).length < 16)
    (hwipe : (s.vat v).st ≠ .wiping) (hfault : (s.vat v).st ≠ .faulted) (hlegal : s.recordCheck v r = eOk) :
    let k : StkCmd := { id := s.mem.nextCmd, vat := v, by_ := b, rec_ := r }
    s.stkAccept b v r false = { s with mem := { s.mem with cmds := s.mem.cmds ++ [k], nextCmd := s.mem.nextCmd + 1 } } := by
  simp only [State.stkAccept, ge_iff_le, Nat.not_le.mpr hroom, beq_eq_false_iff_ne.mpr hwipe, beq_eq_false_iff_ne.mpr hfault, Bool.or_self,
    Bool.false_eq_true, if_false, hlegal, if_true]

theorem exec_stackCommandStart_oldest {s : State} {v : Nat} {k : StkCmd}
    (hfirst : (s.mem.cmds.filter (fun k => k.vat == v)).find? (fun k => k.stage == .queued) = some k)
    (hcopy : (s.vat v).tw.busy = false ∨ k.id < (s.vat v).tw.cmdLine)
    (hbefore : ((s.mem.cmds.filter (fun k => k.vat == v)).takeWhile (fun k => k.stage != .queued)).all
      (fun j => j.stage == .ran || j.stage == .aside) = true) :
    exec (.stackCommandStart v) s = .next (s.stkStart k) := by
  have hfree : ((s.vat v).tw.busy && decide ((s.vat v).tw.cmdLine ≤ k.id)) = false := by
    rcases hcopy with h | h
    · rw [h, Bool.false_and]
    · rw [decide_eq_false (Nat.not_le.mpr h), Bool.and_false]
  simp only [exec, execStackCommandStart, hfirst, hfree, hbefore, Bool.not_true, Bool.or_self, Bool.false_eq_true, if_false]

/-- A command that writes no version is ready at its start. -/
theorem State.stkStart_plain {k : StkCmd} (hplain : rVout k.rec_ = false) (s : State) : s.stkStart k = s.setCmd { k with stage := .ready } := by
  simp only [State.stkStart, hplain, Bool.not_false, if_true]

section
variable {s : State} {id : Nat} {k : StkCmd} (hcmd : s.stkCmd id = some k)
include hcmd

/-! ## Exchange, shares and completion (R371, R388, R389, R392, R393) -/

theorem exec_controllerRingExchange_decided (hstage : k.stage = .decide) :
    exec (.controllerRingExchange id) s = .next (s.setCmd { k with stage := .ready }) := by
  simp only [exec, execControllerRingExchange, hcmd, hstage]

theorem exec_controllerRingExchange_scanned (hstage : k.stage = .scanned) :
    exec (.controllerRingExchange id) s = .next (if k.poisoned then s.stkRan k ePoison else s.setCmd { k with stage := .go }) := by
  simp only [exec, execControllerRingExchange, hcmd, hstage]

theorem exec_controllerRingExchange_summed (hstage : k.stage = .summed) :
    exec (.controllerRingExchange id) s = .next (s.setCmd { k with stage := .total }) := by
  simp only [exec, execControllerRingExchange, hcmd, hstage]

/-- Engine `i` answers for its share; the eighth answer publishes. -/
theorem exec_stackShareComplete_answers {i : Nat} (hran : k.stage = .ran) (hi : i < 8) (hnew : k.ans.has i = false) :
    let k1 := { k with ans := k.ans.add i }
    exec (.stackShareComplete id i) s = .next (if k1.ans.length = 8 then (s.setCmd k1).stkPublish k1 else s.setCmd k1) := by
  simp only [exec, execStackShareComplete, hcmd, hran, hnew, bne_self_eq_false, Nat.not_le.mpr hi, decide_false, Bool.or_self,
    Bool.false_eq_true, if_false]

/-- A set-aside update starts once its target has no pin and no update is in progress. -/
theorem exec_setAsideRelease_free (haside : k.stage = .aside) (hupd : (s.ver (rRegion k.rec_)).upd = false)
    (hpins : (s.ver (rRegion k.rec_)).pins (1 - (s.ver (rRegion k.rec_)).cur) = 0) : exec (.setAsideRelease id) s = .next (s.decide_ k) := by
  simp only [exec, execSetAsideRelease, hcmd, haside, hupd, hpins, bne_self_eq_false, Bool.or_self, Bool.false_eq_true, if_false]

/-- A command whose eight answers are there leaves the store; without poison met by an optimizer it contains nothing. -/
theorem exec_stackCommandComplete_clean (hall : k.ans.length = 8) (hclean : rOptim k.rec_ = false ∨ k.poisoned = false) :
    let u := ({ s with mem := { s.mem with cmds := s.mem.cmds.filter (fun j => j.id != id) } } : State).stkAnswer k
    exec (.stackCommandComplete id) s = .next ((u.yieldEnd k.vat).twinGo k.vat) := by
  have hpoint : (rOptim k.rec_ && k.poisoned) = false := Bool.and_eq_false_iff.mpr hclean
  simp only [exec, execStackCommandComplete, hcmd, hall, hpoint, bne_self_eq_false, Bool.false_eq_true, if_false]

end

/-- An update that met nothing wrong makes its target the current version, one epoch on. -/
theorem State.stkPublish_slot1 {k : StkCmd} (hvout : rVout k.rec_ = true) (hclean : k.poisoned = false) (hok : k.status = eOk)
    (htarget : k.target = 1) (s : State) :
    s.stkPublish k = s.modVer (rRegion k.rec_) (fun y => { y.setValid 1 true with upd := false, cur := 1, epoch1 := y.epoch y.cur + 1 }) := by
  simp only [State.stkPublish, hvout, hclean, hok, htarget, bne_self_eq_false, Bool.or_self, Bool.not_true, Bool.false_eq_true, if_false,
    one_ne_zero]

/-! ## Version commands (R390, R391) -/

/-- A version command of the region's vat whose entry is sound and allows it does what its op does. -/
theorem State.verOp_allowed {s : State} {id op : Nat} {k : StkCmd} (hcmd : s.stkCmd id = some k) (hop : rOp k.rec_ = op) (hready : k.stage = .ready)
    (hver : op ≠ 3 ∧ op ≠ 4 ∧ op ≠ 5) (hgood : (s.ver (rRegion k.rec_)).bad = false)
    (hown : (s.ver (rRegion k.rec_)).defined = false ∨ (s.ver (rRegion k.rec_)).vat = k.vat)
    (hallows : (s.ver (rRegion k.rec_)).allows k.rec_ = true) (f : State → StkCmd → VerEnt → State) :
    s.verOp id op f = (f s k (s.ver (rRegion k.rec_))).stkRan k eOk := by
  obtain ⟨hadam, hlamb, hsgd⟩ := hver
  have hmine : ((s.ver (rRegion k.rec_)).defined && (s.ver (rRegion k.rec_)).vat != k.vat) = false := by
    rcases hown with h | h <;> simp [h]
  refine (stkOp_plain hcmd hop (.inl hready) hadam hlamb hsgd).trans ?_
  simp only [hmine, hgood, hallows, Bool.not_true, Bool.false_eq_true, if_false]

/-- Settles O43: a record by its form and its checks, a command by the stage it stands in, the version commands by the law of their entry. -/
theorem stackCommands : Obligations.StackCommands := by
  unfold Obligations.StackCommands
  refine ⟨?record, fun b v r s => State.stkAccept_legal b, ?start, ?exchange, fun id i k s hcmd => exec_stackShareComplete_answers hcmd, ?publish,
    fun id k s => exec_setAsideRelease_free, fun id k s => exec_stackCommandComplete_clean, ?vdef, ?vpin, ?vunpin⟩
  case record =>
    intro b v off data bad s ok
    have hexec := exec_stackCommand_record b v off data bad s
    exact ⟨fun hok => hexec.trans (nexts (if_pos hok)), fun hno => hexec.trans (nexts (if_neg hno))⟩
  case start =>
    intro v k s hfirst hcopy hbefore
    exact ⟨exec_stackCommandStart_oldest hfirst hcopy hbefore, fun hplain => State.stkStart_plain hplain s⟩
  case exchange =>
    intro id k s hcmd
    exact ⟨exec_controllerRingExchange_decided hcmd, exec_controllerRingExchange_scanned hcmd, exec_controllerRingExchange_summed hcmd⟩
  case publish =>
    intro k s hvout hclean hok htarget _
    exact State.stkPublish_slot1 hvout hclean hok htarget s
  case vdef =>
    rintro id k _ s hcmd hop hready rfl hgood hown hallows
    exact nexts (State.verOp_allowed hcmd hop hready (by decide) hgood hown hallows _)
  case vpin =>
    rintro id i k _ s hcmd hop hready rfl hgood hown hallows hfind a
    refine nexts ((State.verOp_allowed hcmd hop hready (by decide) hgood hown hallows _).trans ?_)
    simp only [hfind, a]
  case vunpin =>
    rintro id i k _ s hcmd hop hready rfl hgood hown hallows hfind
    refine nexts ((State.verOp_allowed hcmd hop hready (by decide) hgood hown hallows _).trans ?_)
    simp only [hfind]

end Sys2Proof.Machine
end

section
/-! PROOFS. The element engines (O44) and the row and page engines (O45) of the stacks. -/

namespace Sys2Proof.Machine

/-! ## Element-wise ops (R377 to R383, R388) -/

/-- An optimizer with prescan first reads its inputs and notes whether one is poisoned. -/
theorem stkOp_prescan {s : State} {id op : Nat} {k : StkCmd} (hcmd : s.stkCmd id = some k) (hop : rOp k.rec_ = op)
    (hoptim : rOptim k.rec_ = true) (hready : k.stage = .ready) (hscan : rPrescan k.rec_ = true) (f : State → StkCmd → State) :
    s.stkOp id op f =
      (s.readOpnds k.vat (homeOf k.rec_) (readsOf k.rec_)).setCmd { k.meet (s.optScan k.rec_) with stage := .scanned } := by
  simp only [State.stkOp, hcmd, hop, hoptim, hready, hscan, bne_self_eq_false, beq_self_eq_true, Bool.and_self, Bool.false_eq_true, if_false,
    if_true]

/-- The three optimizers are run as such. -/
theorem exec_optimizer {i : Instr} {id : Nat} {k : StkCmd} (s : State)
    (hi : (i = .adam id ∧ rOp k.rec_ = 3) ∨ (i = .lamb id ∧ rOp k.rec_ = 4) ∨ (i = .sgd id ∧ rOp k.rec_ = 5)) :
    rOptim k.rec_ = true ∧ ∃ f, exec i s = .next (s.stkOp id (rOp k.rec_) f) := by
  rcases hi with ⟨rfl, hop⟩ | ⟨rfl, hop⟩ | ⟨rfl, hop⟩ <;> rw [rOptim, hop] <;> exact ⟨rfl, _, rfl⟩

/-- Settles O44: each op by the equation of a command that runs, an optimizer by the phase it stands in. -/
theorem stackEngines : Obligations.StackEngines := by
  unfold Obligations.StackEngines
  refine ⟨?accum, ?convert, ?pruned, ?prescan, ?adam, ?sgd, ?moments, ?weights, ?result, ?sums⟩
  case accum =>
    intro id k s hcmd hop hstage
    exact nexts (stkOp_plain hcmd hop hstage (by decide) (by decide) (by decide))
  case convert =>
    intro id k s hcmd hop hstage hdense
    refine nexts ((stkOp_plain hcmd hop hstage (by decide) (by decide) (by decide)).trans ?_)
    simp only [hdense, Bool.false_eq_true, if_false, List.foldl_nil, List.map_map]
    rfl
  case pruned =>
    intro id k s hcmd hop hstage hpruned
    refine nexts ((stkOp_plain hcmd hop hstage (by decide) (by decide) (by decide)).trans ?_)
    simp only [hpruned, if_true]
  case prescan =>
    intro i id k s hcmd hi hready hscan
    obtain ⟨hoptim, f, hexec⟩ := exec_optimizer s hi
    exact hexec.trans (nexts (stkOp_prescan hcmd rfl hoptim hready hscan f))
  case adam =>
    intro id k s hcmd hop hstage
    exact nexts (stkOp_opt hcmd hop hstage)
  case sgd =>
    intro id k s hcmd hop hstage
    exact nexts (stkOp_opt hcmd hop hstage)
  case moments =>
    intro id k s hcmd hop hstage
    have hphase : (k.stage == .total) = false := by rcases hstage with ⟨h, -⟩ | h <;> rw [h] <;> rfl
    refine nexts ((stkOp_opt hcmd hop hstage).trans ?_)
    simp only [hphase, Bool.false_eq_true, if_false]
  case weights =>
    intro id k s hcmd hop hstage
    refine nexts ((stkOp_run hcmd hop (.inr (.inr (by rw [hstage]; decide))) (.inr (.inr hstage))).trans ?_)
    simp only [hstage, beq_self_eq_true, if_true]
    rfl
  case result =>
    intro id k s hcmd hop hstage
    have hphase : (k.stage == .total) = true := beq_iff_eq.mpr hstage
    exact nexts ((stkOp_plain hcmd hop (.inr (.inr hstage)) (by decide) (by decide) (by decide)).trans (ift hphase))
  case sums =>
    intro id k s hcmd hop hstage
    have hphase : (k.stage == .total) = false := by rcases hstage with h | h <;> rw [h] <;> rfl
    exact nexts ((stkOp_plain hcmd hop (hstage.imp_right .inl) (by decide) (by decide) (by decide)).trans (ifn hphase))

/-! ## Row and page ops (R384 to R387) -/

/-- Settles O45: a list by its check, a command of a sound list by the rows or pages it moves. -/
theorem stackMoves : Obligations.StackMoves := by
  unfold Obligations.StackMoves
  refine ⟨?gather, ?scatter, ?kvcopy, ?wipe⟩
  case gather =>
    intro id k s hcmd hop hstage r l w y
    have hrun := fun f => stkOp_plain (f := f) hcmd hop hstage (by decide) (by decide) (by decide)
    exact ⟨fun hbad => nexts ((hrun _).trans (ift (by rw [hbad]; rfl))), fun hgood => nexts ((hrun _).trans (ifn (by rw [hgood]; rfl)))⟩
  case scatter =>
    intro id k s hcmd hop hstage r l w y m f src srow
    have hrun := fun f => stkOp_plain (f := f) hcmd hop hstage (by decide) (by decide) (by decide)
    exact ⟨fun hbad => nexts ((hrun _).trans (ift (by rw [hbad]; rfl))), fun hgood => nexts ((hrun _).trans (ifn (by rw [hgood]; rfl)))⟩
  case kvcopy =>
    intro id k s hcmd hop hstage r l y st
    have hrun := fun f => stkOp_plain (f := f) hcmd hop hstage (by decide) (by decide) (by decide)
    exact ⟨fun hbad => nexts ((hrun _).trans (ift (bne_iff_ne.mpr hbad))), fun hgood => nexts ((hrun _).trans (ifn (bne_eq_false_iff_eq.mpr hgood)))⟩
  case wipe =>
    intro id k s hcmd hop hstage
    exact nexts (stkOp_plain hcmd hop hstage (by decide) (by decide) (by decide))

end Sys2Proof.Machine
end

section
/-! PROOFS. What each command leaves unchanged (O58) and the state right after reset (O60). -/

namespace Sys2Proof.Machine

/-! ## Parts that a command keeps -/

/-- The parts of the state in the order of their declaration. -/
def Part.all : List Part := [.pending, .clk, .cores, .net, .vats, .mem, .hub, .span, .host, .pwr, .boot, .out, .free]

theorem Part.mem_all (p : Part) : p ∈ Part.all := by cases p <;> decide

/-- Each part of the list is the same in two states. -/
def Kept : List Part → State → State → Prop
  | [], _, _ => True
  | [p], s, t => p.same s t
  | p :: q :: l, s, t => p.same s t ∧ Kept (q :: l) s t

theorem Kept.same {p : Part} {s t : State} : ∀ {l : List Part}, Kept l s t → p ∈ l → p.same s t
  | [q], h, hp => List.mem_singleton.mp hp ▸ h
  | q :: r :: l, h, hp => by
    obtain ⟨hq, hl⟩ := h
    rcases List.mem_cons.mp hp with rfl | hp
    · exact hq
    · exact Kept.same hl hp

/-- The parts outside a list. -/
def Part.others (l : List Part) : List Part := Part.all.diff l

/-- Where every part outside a list is kept, only the parts of the list may differ. -/
theorem Only.of_kept {l : List Part} {s t : State} (h : Kept (Part.others l) s t) : Only l s t := fun p hp =>
  h.same (List.mem_diff_of_mem (Part.mem_all p) hp)

/-- Every command keeps the parts that `partsOf` does not name: one arm per command, each by that command's own law. -/
theorem exec_kept (i : Instr) (s : State) : Kept (Part.others (partsOf i)) s (resState s (exec i s)) :=
  match i with
  | .add .. => execAdd_same ..
  | .sub .. => execSub_same ..
  | .and .. => execAnd_same ..
  | .or .. => execOr_same ..
  | .xor .. => execXor_same ..
  | .sll .. => execSll_same ..
  | .srl .. => execSrl_same ..
  | .sra .. => execSra_same ..
  | .mul .. => execMul_same ..
  | .mulh .. => execMulh_same ..
  | .mulhu .. => execMulhu_same ..
  | .div .. => execDiv_same ..
  | .divu .. => execDivu_same ..
  | .rem .. => execRem_same ..
  | .remu .. => execRemu_same ..
  | .min .. => execMin_same ..
  | .max .. => execMax_same ..
  | .minu .. => execMinu_same ..
  | .maxu .. => execMaxu_same ..
  | .addi .. => execAddi_same ..
  | .andi .. => execAndi_same ..
  | .ori .. => execOri_same ..
  | .xori .. => execXori_same ..
  | .slli .. => execSlli_same ..
  | .srli .. => execSrli_same ..
  | .srai .. => execSrai_same ..
  | .li .. => execLi_same ..
  | .lsi .. => execLsi_same ..
  | .cmpEq .. => execCmpEq_same ..
  | .cmpNe .. => execCmpNe_same ..
  | .cmpLt .. => execCmpLt_same ..
  | .cmpGe .. => execCmpGe_same ..
  | .cmpLtu .. => execCmpLtu_same ..
  | .cmpGeu .. => execCmpGeu_same ..
  | .cmpiEq .. => execCmpiEq_same ..
  | .cmpiNe .. => execCmpiNe_same ..
  | .cmpiLt .. => execCmpiLt_same ..
  | .cmpiGe .. => execCmpiGe_same ..
  | .cmpiLtu .. => execCmpiLtu_same ..
  | .cmpiGeu .. => execCmpiGeu_same ..
  | .pand .. => execPand_same ..
  | .por .. => execPor_same ..
  | .pxor .. => execPxor_same ..
  | .pget .. => execPget_same ..
  | .pset .. => execPset_same ..
  | .ldB .. => execLdB_same ..
  | .ldBu .. => execLdBu_same ..
  | .ldH .. => execLdH_same ..
  | .ldHu .. => execLdHu_same ..
  | .ldW .. => execLdW_same ..
  | .ldWu .. => execLdWu_same ..
  | .ldD .. => execLdD_same ..
  | .stB .. => execStB_same ..
  | .stH .. => execStH_same ..
  | .stW .. => execStW_same ..
  | .stD .. => execStD_same ..
  | .ldrW .. => execLdrW_same ..
  | .ldrD .. => execLdrD_same ..
  | .strW .. => execStrW_same ..
  | .strD .. => execStrD_same ..
  | .ldrReturn .. => execLdrReturn_same ..
  | .strRefused .. => execStrRefused_same ..
  | .mfs .. => execMfs_same ..
  | .mts .. => execMts_same ..
  | .mset .. => execMset_same ..
  | .mclr .. => execMclr_same ..
  | .qctlRetry .. => execQctlRetry_same ..
  | .qctlDrop .. => execQctlDrop_same ..
  | .br .. => execBr_same ..
  | .call .. => execCall_same ..
  | .jr .. => execJr_same ..
  | .jalr .. => execJalr_same ..
  | .dbnz .. => execDbnz_same ..
  | .eret .. => execEret_same ..
  | .endProg .. => execEndProg_same ..
  | .halt .. => execHalt_same ..
  | .nop .. => execNop_same ..
  | .mfence .. => execMfence_same ..
  | .mfenceComplete .. => execMfenceComplete_same ..
  | .trap .. => execTrap_same ..
  | .brk .. => execBrk_same ..
  | .wfi .. => execWfi_same ..
  | .wfiWake .. => execWfiWake_same ..
  | .interruptTaken .. => execInterruptTaken_same ..
  | .issue .. => execIssue_same ..
  | .issueB .. => execIssueB_same ..
  | .issueReserve .. => execIssueReserve_same ..
  | .ibins .. => execIbins_same ..
  | .qwait .. => execQwait_same ..
  | .qwaitRetire .. => execQwaitRetire_same ..
  | .sadd .. => execSadd_same ..
  | .ssub .. => execSsub_same ..
  | .swait .. => execSwait_same ..
  | .sread .. => execSread_same ..
  | .wait .. => execWait_same ..
  | .signal .. => execSignal_same ..
  | .matmul .. => execMatmul_same ..
  | .matmulSp .. => execMatmulSp_same ..
  | .matRingTestPass .. => execMatRingTestPass_same ..
  | .accInFormatHalt .. => execAccInFormatHalt_same ..
  | .matmulComplete .. => execMatmulComplete_same ..
  | .chainRecordRead .. => execChainRecordRead_same ..
  | .vchain .. => execVchain_same ..
  | .vchainComplete .. => execVchainComplete_same ..
  | .tload .. => execTload_same ..
  | .tloadComplete .. => execTloadComplete_same ..
  | .tstore .. => execTstore_same ..
  | .tstoreComplete .. => execTstoreComplete_same ..
  | .tfill .. => execTfill_same ..
  | .tfillComplete .. => execTfillComplete_same ..
  | .reduce .. => execReduce_same ..
  | .reduceComplete .. => execReduceComplete_same ..
  | .acc96InputHalt .. => execAcc96InputHalt_same ..
  | .stream .. => execStream_same ..
  | .spload .. => execSpload_same ..
  | .sploadComplete .. => execSploadComplete_same ..
  | .seta .. => execSeta_same ..
  | .adda .. => execAdda_same ..
  | .addr .. => execAddr_same ..
  | .ldd .. => execLdd_same ..
  | .setx .. => execSetx_same ..
  | .loop .. => execLoop_same ..
  | .loopm .. => execLoopm_same ..
  | .mov .. => execMov_same ..
  | .cvt .. => execCvt_same ..
  | .page .. => execPage_same ..
  | .streamReadReturn .. => execStreamReadReturn_same ..
  | .rfill .. => execRfill_same ..
  | .rfillFreeTestPass .. => execRfillFreeTestPass_same ..
  | .rdone .. => execRdone_same ..
  | .rtake .. => execRtake_same ..
  | .rtakePass .. => execRtakePass_same ..
  | .rfree .. => execRfree_same ..
  | .push .. => execPush_same ..
  | .pop .. => execPop_same ..
  | .swt .. => execSwt_same ..
  | .ssig .. => execSsig_same ..
  | .deliv .. => execDeliv_same ..
  | .streamEnd .. => execStreamEnd_same ..
  | .deliveryPieceWrite .. => execDeliveryPieceWrite_same ..
  | .deliveryAction .. => execDeliveryAction_same ..
  | .stackMergeSend .. => execStackMergeSend_same ..
  | .deviceWriteAck .. => execDeviceWriteAck_same ..
  | .ackWindowExpiry .. => execAckWindowExpiry_same ..
  | .streamComplete .. => execStreamComplete_same ..
  | .send .. => execSend_same ..
  | .sendMessage .. => execSendMessage_same ..
  | .sendM .. => execSendM_same ..
  | .rsync .. => execRsync_same ..
  | .openChan .. => execOpenChan_same ..
  | .closeChan .. => execCloseChan_same ..
  | .channelData .. => execChannelData_same ..
  | .endpointFreeTestPass .. => execEndpointFreeTestPass_same ..
  | .spillDrain .. => execSpillDrain_same ..
  | .creditReturn .. => execCreditReturn_same ..
  | .landingAck .. => execLandingAck_same ..
  | .sendRefused .. => execSendRefused_same ..
  | .mailboxMessage .. => execMailboxMessage_same ..
  | .mailboxAnswer .. => execMailboxAnswer_same ..
  | .mailboxClear .. => execMailboxClear_same ..
  | .openPacket .. => execOpenPacket_same ..
  | .accept .. => execAccept_same ..
  | .reject .. => execReject_same ..
  | .closePacket .. => execClosePacket_same ..
  | .openTimeout .. => execOpenTimeout_same ..
  | .deadlockDetect .. => execDeadlockDetect_same ..
  | .releaseCycle .. => execReleaseCycle_same ..
  | .syncApply .. => execSyncApply_same ..
  | .syncWord .. => execSyncWord_same ..
  | .syncFrameReceive .. => execSyncFrameReceive_same ..
  | .syncFrameRelease .. => execSyncFrameRelease_same ..
  | .meshPacketRoute .. => execMeshPacketRoute_same ..
  | .ctlPacketRoute .. => execCtlPacketRoute_same ..
  | .fenceNotice .. => execFenceNotice_same ..
  | .windowRead .. => execWindowRead_same ..
  | .windowWrite .. => execWindowWrite_same ..
  | .load .. => execLoad_same ..
  | .loadFrameFetch .. => execLoadFrameFetch_same ..
  | .loadCheckComplete .. => execLoadCheckComplete_same ..
  | .loadWriteComplete .. => execLoadWriteComplete_same ..
  | .loadFinish .. => execLoadFinish_same ..
  | .abort .. => execAbort_same ..
  | .release .. => execRelease_same ..
  | .start .. => execStart_same ..
  | .sheetStart .. => execSheetStart_same ..
  | .coreStart .. => execCoreStart_same ..
  | .sheetEnd .. => execSheetEnd_same ..
  | .forcedStop .. => execForcedStop_same ..
  | .stop .. => execStop_same ..
  | .drainTimeout .. => execDrainTimeout_same ..
  | .scanOutStart .. => execScanOutStart_same ..
  | .scanOutComplete .. => execScanOutComplete_same ..
  | .scanIn .. => execScanIn_same ..
  | .scanInComplete .. => execScanInComplete_same ..
  | .resume .. => execResume_same ..
  | .plan .. => execPlan_same ..
  | .kill .. => execKill_same ..
  | .vatReset .. => execVatReset_same ..
  | .wipeComplete .. => execWipeComplete_same ..
  | .arm .. => execArm_same ..
  | .launchTick .. => execLaunchTick_same ..
  | .gtcSet .. => execGtcSet_same ..
  | .gtcAlarm .. => execGtcAlarm_same ..
  | .treqSend .. => execTreqSend_same ..
  | .treqReceive .. => execTreqReceive_same ..
  | .trspReceive .. => execTrspReceive_same ..
  | .syncLossTimeout .. => execSyncLossTimeout_same ..
  | .refreshSlot .. => execRefreshSlot_same ..
  | .stackTempRead .. => execStackTempRead_same ..
  | .stackRead .. => execStackRead_same ..
  | .stackReadReturn .. => execStackReadReturn_same ..
  | .stackWrite .. => execStackWrite_same ..
  | .readModifyWriteAck .. => execReadModifyWriteAck_same ..
  | .stackCommand .. => execStackCommand_same ..
  | .stackCommandStart .. => execStackCommandStart_same ..
  | .accum .. => execAccum_same ..
  | .convert .. => execConvert_same ..
  | .adam .. => execAdam_same ..
  | .lamb .. => execLamb_same ..
  | .sgd .. => execSgd_same ..
  | .sumsq .. => execSumsq_same ..
  | .gather .. => execGather_same ..
  | .scatterAdd .. => execScatterAdd_same ..
  | .kvcopy .. => execKvcopy_same ..
  | .wipe .. => execWipe_same ..
  | .vdef .. => execVdef_same ..
  | .vpin .. => execVpin_same ..
  | .vunpin .. => execVunpin_same ..
  | .controllerRingExchange .. => execControllerRingExchange_same ..
  | .stackShareComplete .. => execStackShareComplete_same ..
  | .setAsideRelease .. => execSetAsideRelease_same ..
  | .stackCommandComplete .. => execStackCommandComplete_same ..
  | .couchReset .. => execCouchReset_same ..
  | .advLoad .. => execAdvLoad_same ..
  | .advClose .. => execAdvClose_same ..
  | .advCloseComplete .. => execAdvCloseComplete_same ..
  | .seqAdmit .. => execSeqAdmit_same ..
  | .pause .. => execPause_same ..
  | .seqResume .. => execSeqResume_same ..
  | .seqStop .. => execSeqStop_same ..
  | .retire .. => execRetire_same ..
  | .grow .. => execGrow_same ..
  | .step .. => execStep_same ..
  | .stepNoadv .. => execStepNoadv_same ..
  | .batchReset .. => execBatchReset_same ..
  | .stepComplete .. => execStepComplete_same ..
  | .balNext .. => execBalNext_same ..
  | .pairReceive .. => execPairReceive_same ..
  | .retrain .. => execRetrain_same ..
  | .lossOfSignal .. => execLossOfSignal_same ..
  | .signalDetect .. => execSignalDetect_same ..
  | .trainingComplete .. => execTrainingComplete_same ..
  | .trainTimeout .. => execTrainTimeout_same ..
  | .alignComplete .. => execAlignComplete_same ..
  | .alignTimeout .. => execAlignTimeout_same ..
  | .hello .. => execHello_same ..
  | .helloTimeout .. => execHelloTimeout_same ..
  | .linkDownFrame .. => execLinkDownFrame_same ..
  | .spanPortEnable .. => execSpanPortEnable_same ..
  | .frameJoinTimeout .. => execFrameJoinTimeout_same ..
  | .rread .. => execRread_same ..
  | .rwrite .. => execRwrite_same ..
  | .rdata .. => execRdata_same ..
  | .rack .. => execRack_same ..
  | .chan .. => execChan_same ..
  | .chreq .. => execChreq_same ..
  | .chrsp .. => execChrsp_same ..
  | .refuse .. => execRefuse_same ..
  | .requestTimeout .. => execRequestTimeout_same ..
  | .exportWindowClose .. => execExportWindowClose_same ..
  | .pairActive .. => execPairActive_same ..
  | .pairMirror .. => execPairMirror_same ..
  | .pairingTimeout .. => execPairingTimeout_same ..
  | .unpair .. => execUnpair_same ..
  | .handover .. => execHandover_same ..
  | .takeover .. => execTakeover_same ..
  | .takeoverComplete .. => execTakeoverComplete_same ..
  | .beatSend .. => execBeatSend_same ..
  | .beatReceive .. => execBeatReceive_same ..
  | .heartbeatLoss .. => execHeartbeatLoss_same ..
  | .mirrorEnable .. => execMirrorEnable_same ..
  | .mirrorDisable .. => execMirrorDisable_same ..
  | .ctlEnable .. => execCtlEnable_same ..
  | .ctlDisable .. => execCtlDisable_same ..
  | .ctlHandover .. => execCtlHandover_same ..
  | .ctlrsp .. => execCtlrsp_same ..
  | .twinCommit .. => execTwinCommit_same ..
  | .resync .. => execResync_same ..
  | .mwrite .. => execMwrite_same ..
  | .mrec .. => execMrec_same ..
  | .commitFrame .. => execCommitFrame_same ..
  | .cack .. => execCack_same ..
  | .mack .. => execMack_same ..
  | .commitApplied .. => execCommitApplied_same ..
  | .assign .. => execAssign_same ..
  | .releaseJob .. => execReleaseJob_same ..
  | .releaseWipeComplete .. => execReleaseWipeComplete_same ..
  | .reclaim .. => execReclaim_same ..
  | .yield .. => execYield_same ..
  | .reclaimDeadline .. => execReclaimDeadline_same ..
  | .evacuate .. => execEvacuate_same ..
  | .evacuationComplete .. => execEvacuationComplete_same ..
  | .evacuationFailure .. => execEvacuationFailure_same ..
  | .accountingWindowEnd .. => execAccountingWindowEnd_same ..
  | .calibrationInterval .. => execCalibrationInterval_same ..
  | .sqTail .. => execSqTail_same ..
  | .cqHead .. => execCqHead_same ..
  | .sheet .. => execSheet_same ..
  | .entryFetch .. => execEntryFetch_same ..
  | .completionRecordWrite .. => execCompletionRecordWrite_same ..
  | .ringDisable .. => execRingDisable_same ..
  | .functionLevelReset .. => execFunctionLevelReset_same ..
  | .memoryWindowRead .. => execMemoryWindowRead_same ..
  | .memoryWindowWrite .. => execMemoryWindowWrite_same ..
  | .hostSadd .. => execHostSadd_same ..
  | .seq .. => execSeq_same ..
  | .stkcmd .. => execStkcmd_same ..
  | .copy .. => execCopy_same ..
  | .copyComplete .. => execCopyComplete_same ..
  | .hostNop .. => execHostNop_same ..
  | .twin .. => execTwin_same ..
  | .irqEvent .. => execIrqEvent_same ..
  | .irqClaim .. => execIrqClaim_same ..
  | .irqComplete .. => execIrqComplete_same ..
  | .wakeWatchEvent .. => execWakeWatchEvent_same ..
  | .wakeLatchDeliver .. => execWakeLatchDeliver_same ..
  | .errorReport .. => execErrorReport_same ..
  | .errlogTail .. => execErrlogTail_same ..
  | .coreFence .. => execCoreFence_same ..
  | .deviceFault .. => execDeviceFault_same ..
  | .vatHostMsg .. => execVatHostMsg_same ..
  | .hostToMgmt .. => execHostToMgmt_same ..
  | .mgmtToHost .. => execMgmtToHost_same ..
  | .dvfsSwitch .. => execDvfsSwitch_same ..
  | .droopTrip .. => execDroopTrip_same ..
  | .stretchEnd .. => execStretchEnd_same ..
  | .thermalSample .. => execThermalSample_same ..
  | .throttleStep .. => execThrottleStep_same ..
  | .throttleRecovery .. => execThrottleRecovery_same ..
  | .powerSample .. => execPowerSample_same ..
  | .capWindow .. => execCapWindow_same ..
  | .capRiseWindow .. => execCapRiseWindow_same ..
  | .telemetryUpdate .. => execTelemetryUpdate_same ..
  | .coreGate .. => execCoreGate_same ..
  | .clusterPowerRequest .. => execClusterPowerRequest_same ..
  | .clusterPowerEntry .. => execClusterPowerEntry_same ..
  | .clusterWakeComplete .. => execClusterWakeComplete_same ..
  | .sleepRequest .. => execSleepRequest_same ..
  | .deviceWake .. => execDeviceWake_same ..
  | .moduleStart .. => execModuleStart_same ..
  | .moduleStop .. => execModuleStop_same ..
  | .coldReset .. => execColdReset_same ..
  | .resetCold .. => execResetCold_same ..
  | .resetWarm .. => execResetWarm_same ..
  | .warmReset .. => execWarmReset_same ..
  | .perstAssert .. => execPerstAssert_same ..
  | .perstDeassert .. => execPerstDeassert_same ..
  | .romBoot .. => execRomBoot_same ..
  | .protSeal .. => execProtSeal_same ..
  | .vmStart .. => execVmStart_same ..
  | .vmChtabApply .. => execVmChtabApply_same ..
  | .lifecycleRequest .. => execLifecycleRequest_same ..
  | .lifecycleStrapSample .. => execLifecycleStrapSample_same ..
  | .fuseProg .. => execFuseProg_same ..
  | .fuseProgramComplete .. => execFuseProgramComplete_same ..
  | .s1StrapChange .. => execS1StrapChange_same ..
  | .extest .. => execExtest_same ..
  | .dapRead .. => execDapRead_same ..
  | .dapWrite .. => execDapWrite_same ..
  | .dapHalt .. => execDapHalt_same ..
  | .dapResume .. => execDapResume_same ..
  | .dapStep .. => execDapStep_same ..
  | .dapStepTimeout .. => execDapStepTimeout_same ..
  | .dapNop .. => execDapNop_same ..
  | .dapTransactionComplete .. => execDapTransactionComplete_same ..
  | .getAcct .. => execGetAcct_same ..
  | .getLog .. => execGetLog_same ..
  | .getLc .. => execGetLc_same ..
  | .mctpReset .. => execMctpReset_same ..
  | .lcReq .. => execLcReq_same ..
  | .firmwareUpdate .. => execFirmwareUpdate_same ..
  | .flashRead .. => execFlashRead_same ..
  | .flashProgram .. => execFlashProgram_same ..
  | .flashErase .. => execFlashErase_same ..
  | .flashCommandComplete .. => execFlashCommandComplete_same ..
  | .rcRead .. => execRcRead_same ..
  | .wideRegisterRead .. => execWideRegisterRead_same ..
  | .coreViewAccess .. => execCoreViewAccess_same ..
  | .scanWindowAccess .. => execScanWindowAccess_same ..
  | .syncCtrSet .. => execSyncCtrSet_same ..
  | .connClose .. => execConnClose_same ..
  | .registerWrite .. => execRegisterWrite_same ..
  | .reservedMop .. => execReservedMop_same ..
  | .resetWipeComplete .. => execResetWipeComplete_same ..
  | .bankRefresh .. => execBankRefresh_same ..
  | .spillWriteAck .. => execSpillWriteAck_same ..
  | .pairSend .. => execPairSend_same ..
  | .hostLinkUp .. => execHostLinkUp_same ..
  | .hostLinkDown .. => execHostLinkDown_same ..
  | .hotReset .. => execHotReset_same ..
  | .hostReadCompletion .. => execHostReadCompletion_same ..
  | .dmaCompletionTimeout .. => execDmaCompletionTimeout_same ..
  | .testLogicReset .. => execTestLogicReset_same ..

/-- Settles O58: a command keeps the parts that `partsOf` does not name. -/
theorem commandFrames : Obligations.CommandFrames := by
  unfold Obligations.CommandFrames
  intro i s t hexec
  have hkept := exec_kept i s
  rw [hexec] at hkept
  exact Only.of_kept hkept

/-- The memories of the reset state list nothing, so they have their canonical form. -/
theorem State.reset_memOk : State.reset.MemOk := ⟨rfl, rfl, rfl⟩

/-- Settles O60: each part of the reset state is read off its definition; a table that lists nothing gives every vat, core, port and ring its default. -/
theorem resetState : Obligations.ResetState := by
  unfold Obligations.ResetState
  exact ⟨rfl, rfl, State.reset_memOk, fun _ => ⟨rfl, rfl⟩, fun _ => ⟨rfl, rfl⟩, rfl, rfl, rfl, fun _ => rfl, rfl, rfl, fun _ => rfl, rfl, rfl⟩

end Sys2Proof.Machine
end

section
/-! PROOFS. The couch reset and the format advisor (O46). -/

namespace Sys2Proof.Machine

/-! ## The couch reset (R406) -/

theorem Vat.couchOpen_eq_false_iff (x : Vat) : x.couchOpen = false ↔ x.st = .loading ∨ x.st = .running ∨ x.st = .stopping := by
  simp only [Vat.couchOpen, Bool.and_eq_false_iff, bne_eq_false_iff_eq, or_assoc]

theorem exec_couchReset_vat {v : Nat} (hv : v < 16) (s : State) :
    exec (.couchReset v) s = .next (if (s.vat v).st = .loading ∨ (s.vat v).st = .running ∨ (s.vat v).st = .stopping
      then s.log (srcVat v) evRefused eState (some v) 0 0 else s.clearTops v) := by
  change execCouchReset .. = _
  simp only [execCouchReset, Nat.not_le.mpr hv, if_false, Bool.not_eq_true', Vat.couchOpen_eq_false_iff]

/-! ## LOAD and CLOSE of the advisor (R411, R412) -/

/-- LOAD is legal: the vat is FREE with a job, or READY. -/
def Vat.AdvLoads (x : Vat) : Prop := (x.st = .free ∧ x.jobValid = true) ∨ x.st = .ready

theorem Vat.advLoads_iff (x : Vat) : ((x.st == .free && x.jobValid) || x.st == .ready) = true ↔ x.AdvLoads := by
  simp only [Vat.AdvLoads, Bool.or_eq_true, Bool.and_eq_true, beq_iff_eq]

theorem Vat.not_advLoads_iff (x : Vat) : ((x.st == .free && x.jobValid) || x.st == .ready) = false ↔ ¬ x.AdvLoads := by
  rw [← Vat.advLoads_iff, Bool.not_eq_true]

section
variable {v x : Nat} {s u : State} {y : Vat} (hv : v < 16) (hu : u = s.advCtl v x) (hy : y = u.vat v)
include hv hu hy

theorem exec_advLoad_shut (hshut : ¬ y.AdvLoads) : exec (.advLoad v x) s = .next (u.advRefuse v eState) := by
  subst hu hy
  change execAdvLoad .. = _
  simp only [execAdvLoad, Nat.not_le.mpr hv, if_false, (Vat.not_advLoads_iff _).mpr hshut, Bool.not_false, if_true]

section
variable (hopen : y.AdvLoads) (hgood : u.advBad v = false)
include hopen hgood

theorem exec_advLoad_outside (hsome : y.advCount ≠ 0) (hout : u.stackWithin v y.advBase (32 * y.advCount) = false) :
    exec (.advLoad v x) s = .next (u.advRefuse v ePermission) := by
  subst hu hy
  have hlen : (32 * ((s.advCtl v x).vat v).advCount != 0) = true := bne_iff_ne.mpr (by omega)
  change execAdvLoad .. = _
  simp only [execAdvLoad, Nat.not_le.mpr hv, if_false, (Vat.advLoads_iff _).mpr hopen, hgood, hlen, hout, Bool.not_true, Bool.not_false,
    Bool.and_self, Bool.false_eq_true, if_true]

theorem exec_advLoad_loads (hin : y.advCount = 0 ∨ u.stackWithin v y.advBase (32 * y.advCount) = true)
    (hclean : u.stackBad y.advBase (32 * y.advCount) = false) :
    let a := y.advBase; let n := 32 * y.advCount
    let w := (u.noteStack (some v) a n).accountStk v 0 (chargeOf a n)
    exec (.advLoad v x) s = .next (((List.range y.advCount).foldl (fun z i => z.setAdv (y.advFirst + i)
      { eo := polEo (z.stackNat (a + 32 * i) 32) }) w).modVat v (fun z => { z with advStatus := eOk })) := by
  subst hu hy
  have hwithin : (32 * ((s.advCtl v x).vat v).advCount != 0 &&
      !(s.advCtl v x).stackWithin v ((s.advCtl v x).vat v).advBase (32 * ((s.advCtl v x).vat v).advCount)) = false := by
    rcases hin with h | h <;> simp only [h, Nat.mul_zero, bne_self_eq_false, Bool.false_and, Bool.not_true, Bool.and_false]
  change execAdvLoad .. = _
  simp only [execAdvLoad, Nat.not_le.mpr hv, if_false, (Vat.advLoads_iff _).mpr hopen, hgood, hwithin, hclean, Bool.not_true,
    Bool.false_eq_true]

end

theorem exec_advClose_shut (hshut : y.st ≠ .ready ∨ y.advBusy = true) : exec (.advClose v x) s = .next (u.advRefuse v eState) := by
  subst hu hy
  have hno : (((s.advCtl v x).vat v).st != .ready || ((s.advCtl v x).vat v).advBusy) = true :=
    Bool.or_eq_true_iff.mpr (hshut.imp_left bne_iff_ne.mpr)
  change execAdvClose .. = _
  simp only [execAdvClose, Nat.not_le.mpr hv, if_false, hno, if_true]

/-- A legal close freezes the live banks and then closes the slots one after another. -/
theorem exec_advClose_freezes (hready : y.st = .ready) (hidle : y.advBusy = false) (hgood : u.advBad v = false) :
    let w := (y.advSlots.foldl (fun z j => z.modAdv j (fun a => { a with frozen := a.live, live := [] })) u).modVat v
      (fun z => { z with advBusy := true, advEnd := eOk, advCloses := z.advCloses + 1 })
    exec (.advClose v x) s = .next ((List.range y.advCount).foldl (fun z i => z.advClose1 v i) w) := by
  subst hu hy
  change execAdvClose .. = _
  simp only [execAdvClose, Nat.not_le.mpr hv, if_false, hready, hidle, hgood, bne_self_eq_false, Bool.or_self, Bool.false_eq_true]

end

/-! ## The verdicts of a close (R413 to R415) -/

theorem State.advClose1_writes {v i r : Nat} {x : Vat} {s : State} (hx : x = s.vat v) (hgoes : x.advEnd = eOk)
    (hpol : s.stackWithin v (x.advBase + 32 * i) 32 = true) (hout : s.stackWithin v (x.advBase + 0x20000 + 16 * i) 16 = true)
    (hclean : s.stackBad (x.advBase + 32 * i) 32 = false) (hr : r = s.stackNat (x.advBase + 32 * i) 32) (hdump : polDump r = false) :
    let u := (s.noteStack (some v) (x.advBase + 32 * i) 32).accountStk v 0 256; let j := x.advFirst + i
    let q := u.advVerdict (s.adv j) r x.advCloses.toNat
    let w := (q.2.2.setAdv j { q.1 with verdict := some q.2.1 }).modVat v
      (fun y => { y with advBadPolicy := if polOk r then y.advBadPolicy else satAdd top16 y.advBadPolicy 1 })
    s.advClose1 v i = (w.stackPut (x.advBase + 0x20000 + 16 * i) (leBytes 16 q.2.1) (fun _ => false)).accountStk v 1 256 := by
  simp only [State.advClose1, ← hx, ← hr, hgoes, bne_self_eq_false, hpol, hout, hclean, hdump, Bool.not_true, Bool.not_false, Bool.or_self,
    Bool.false_eq_true, if_false, if_true]

/-- The verdict of an enabled slot whose bank is not empty and that has a verdict already. -/
theorem State.advVerdict_evaluated {r n : Nat} {y : AdvSlot} (hok : polOk r = true) (hen : polEn r = true)
    (hfull : (advEval r y.eo y.frozen).empty = false) (hprev : y.verdict = some n) (s : State) :
    let e := advEval r y.eo y.frozen; let a := advAdopt y (polHyst r) e; let f := polCand r a.1
    s.advVerdict y r 0 = ({ y with adopted := some a.1, streak := a.2 },
      advWord f (b2n (fld n 0 5 != f)) a.2 e (b2n (bankSat y.frozen) * 2 ^ 18), s) := by
  simp only [State.advVerdict, State.advEvaluated, State.advChanged, hok, hen, hfull, hprev, Bool.not_true, Bool.false_eq_true, if_false,
    Nat.zero_mul, Nat.zero_add]

theorem exec_advCloseComplete_busy {v : Nat} {s : State} (hbusy : (s.vat v).advBusy = true) :
    let x := s.vat v; let u := s.modVat v (fun y => { y with advBusy := false, advStatus := y.advEnd })
    let w := if x.advEnd = eOk then u else u.log (srcVat v) evRefused x.advEnd (some v) 0 0
    exec (.advCloseComplete v) s = .next (if x.advCtrEn then (w.addOutside x.advCtr 1).1 else w) := by
  change execAdvCloseComplete .. = _
  simp only [execAdvCloseComplete, hbusy, Bool.not_true, Bool.false_eq_true, if_false]

/-- Settles O46: the couch reset by the vat's state, LOAD and CLOSE by their checks, a slot's close by its record. -/
theorem couchAndAdvisor : Obligations.CouchAndAdvisor := by
  unfold Obligations.CouchAndAdvisor
  refine ⟨?couch, ?load, ?refused, ?close, ?slot, fun r n y s hok hen hfull hprev => State.advVerdict_evaluated hok hen hfull hprev s,
    fun v s => exec_advCloseComplete_busy⟩
  case couch =>
    intro v s hv shut
    have hexec := exec_couchReset_vat hv s
    exact ⟨fun hshut => hexec.trans (nexts (if_pos hshut)), fun hopen => hexec.trans (nexts (if_neg hopen))⟩
  case load =>
    intro v x y s u hv hu hy hopen hgood hin hclean
    exact exec_advLoad_loads hv hu hy hopen hgood hin hclean
  case refused =>
    intro v x y s u hv hu hy right
    exact ⟨exec_advLoad_shut hv hu hy, exec_advLoad_outside hv hu hy, exec_advClose_shut hv hu hy⟩
  case close =>
    intro v x y s u hv hu hy hready hidle hgood
    exact exec_advClose_freezes hv hu hy hready hidle hgood
  case slot =>
    intro v i r x s hx hgoes hpol hout hclean hr hdump
    exact State.advClose1_writes hx hgoes hpol hout hclean hr hdump

end Sys2Proof.Machine
end

section
/-! PROOFS. The batcher (O47). -/

namespace Sys2Proof.Machine

/-! ## Slot commands (R424 to R426) -/

/-- The vatman's six slot commands of Table 13.3 as requests. -/
def State.slotCommands (s : State) (v slot arg : Nat) : List (Instr × SeqReq) :=
  let q := fun (op arg : Nat) => ({ op := op, slot := slot, image := (s.vat v).bt.stage, arg := arg } : SeqReq)
  [(.seqAdmit v slot, q 1 0), (.pause v slot, q 2 0), (.seqResume v slot, q 3 0), (.seqStop v slot, q 4 0), (.retire v slot, q 5 0),
    (.grow v slot arg, q 6 (arg % 2 ^ 16))]

theorem exec_slotCommand {s : State} {v slot arg : Nat} {p : Instr × SeqReq} (hplan : (s.planOf v).valid = true)
    (hp : p ∈ s.slotCommands v slot arg) : exec p.1 s = .next (s.seqReq v p.2) := by
  simp only [State.slotCommands, List.mem_cons, List.not_mem_nil, or_false] at hp
  rcases hp with rfl | rfl | rfl | rfl | rfl | rfl <;> exact nexts (if_pos hplan)

section
variable {s : State} {v : Nat} (hactive : (s.vat v).tw.standby = false) (hhere : (s.vat v).heldOrLater = false)
include hactive hhere

theorem State.seqReq_idle (hidle : (s.vat v).bt.busy = false) (q : SeqReq) : s.seqReq v q = s.seqApply v q := by
  simp only [State.seqReq, hactive, hhere, hidle, Bool.or_self, Bool.false_eq_true, if_false]

theorem State.seqReq_held (hbusy : (s.vat v).bt.busy = true) (hroom : (s.vat v).bt.held.length < 64) (q : SeqReq) :
    s.seqReq v q = s.setVat v { s.vat v with bt := { (s.vat v).bt with held := (s.vat v).bt.held ++ [q] } } := by
  simp only [State.seqReq, hactive, hhere, hbusy, hroom, Bool.or_self, Bool.false_eq_true, if_false, if_true]

theorem State.seqReq_full (hbusy : (s.vat v).bt.busy = true) (hfull : 64 ≤ (s.vat v).bt.held.length) (q : SeqReq) :
    s.seqReq v q = s.seqAnswer v q eState 0 := by
  simp only [State.seqReq, hactive, hhere, hbusy, Nat.not_lt.mpr hfull, Bool.or_self, Bool.false_eq_true, if_false, if_true]

end

/-- An EMPTY slot takes no command but ADMIT. -/
theorem State.seqCommand_empty {s : State} {v : Nat} {q : SeqReq} (hin : (s.vat v).inRange q.slot = true) (hgood : (s.seqSlot q.slot).bad = false)
    (hst : (s.seqSlot q.slot).st = .empty) (hlow : 2 ≤ q.op) (hop : q.op ≠ 7) : s.seqCommand v q = .error eState := by
  have hassigned : (decide (q.op = 0) || decide (q.op = 7)) = false := by simpa [hop] using Nat.ne_of_gt (Nat.lt_of_lt_of_le Nat.two_pos hlow)
  simp only [State.seqCommand, hassigned, hin, hgood, hst, Bool.not_true, Bool.false_eq_true, if_false]
  split
  case h_1 => omega
  case h_17 => rfl
  all_goals contradiction

theorem State.seqApply_admitted {s : State} {v : Nat} {q : SeqReq} {y : Seq} (hok : s.seqCommand v q = .ok (y, true)) :
    s.seqApply v q = ((s.setSeqSlot q.slot y).modVat v (fun x => { x with bt := { x.bt with admitNext := x.bt.admitNext + 1 } })).seqAnswer v q eOk
      y.admitNo := by
  simp only [State.seqApply, hok, if_true]

theorem State.seqApply_refused {s : State} {v e : Nat} {q : SeqReq} (hno : s.seqCommand v q = .error e) (hclean : e ≠ ePoison) :
    s.seqApply v q = s.seqAnswer v q e 0 := by
  simp only [State.seqApply, hno, hclean, decide_false, Bool.false_and, Bool.false_eq_true, if_false]

/-! ## STEP, STEP_NOADV and RESET (R428 to R432) -/

/-- A ring's next command is the form `n` of op 0x0A; any other source names its form by its command. -/
def State.StepForm (s : State) (src : Src) (n : Nat) : Prop :=
  ∀ r, src = .host r → ∃ c, (s.ring r).nextCmd = some c ∧ fld c.entry 64 2 = n

theorem State.stepFrom_taken {s u : State} {v n : Nat} {src : Src} {k : Caller} (hform : s.StepForm src n)
    (ht : s.taken src 0x0A v = some (u, k)) (f : State → Caller → State) : s.stepFrom v src n f = f u k := by
  have hcommand := State.command_taken ht f
  cases src with
  | host r =>
    obtain ⟨c, hnext, hfld⟩ := hform r rfl
    simp only [State.stepFrom, hnext, hfld, beq_self_eq_true, if_true, hcommand]
  | vatman => exact hcommand
  | mgmt => exact hcommand
  | debug => exact hcommand

section
variable {s : State} {v : Nat} {k : Caller}

theorem exec_batchReset_taken {u : State} {src : Src} (hform : s.StepForm src 3) (ht : s.taken src 0x0A v = some (u, k)) :
    let x := u.vat v
    exec (.batchReset v src) s = .next (if x.tw.standby || x.heldOrLater then u.stepRefuse v k eState 0
      else (u.setVat v { x with bt := { x.bt with prev := false, status := if x.bt.busy then x.bt.status else eOk } }).hostFinish k.host eOk
        x.bt.steps.toNat 0) :=
  nexts (State.stepFrom_taken hform ht _)

/-- May STEP begin in the vat's state (R428)? -/
def Vat.Steps (x : Vat) : Prop :=
  (x.st = .ready ∨ (x.st = .free ∧ x.jobValid = true)) ∧ x.bt.busy = false ∧ x.tw.standby = false ∧ x.heldOrLater = false

theorem Vat.steps_iff (x : Vat) :
    (!((x.st == .ready || (x.st == .free && x.jobValid)) && !x.bt.busy) || x.tw.standby || x.heldOrLater) = false ↔ x.Steps := by
  simp only [Vat.Steps, Bool.or_eq_false_iff, Bool.not_eq_false', Bool.and_eq_true, Bool.or_eq_true, beq_iff_eq, Bool.not_eq_true', and_assoc]

theorem State.stepGo_shut (hshut : ¬ (s.vat v).Steps) (adv : Bool) : s.stepGo v k adv = s.stepRefuse v k eState 0 := by
  have hno := Bool.eq_true_of_not_eq_false (mt (Vat.steps_iff _).mp hshut)
  simp only [State.stepGo, hno, if_true]

/-- A STEP that is legal and meets no bad slot or outcome builds its list and writes it. -/
theorem State.stepGo_builds {adv : Bool} (hopen : (s.vat v).Steps)
    (hgood : ((List.range (s.vat v).btCount).map ((s.vat v).btFirst + ·)).any (fun i => (s.seqSlot i).bad) = false)
    (hout : adv = false ∨ (s.vat v).bt.prev = false ∨
      s.badOutcome (s.vat v).bt.base ((s.outRows v).map (fun p => (p.1, p.2.2))) = none) :
    let x := s.vat v
    let b := x.bt; let inside := s.stackWithin v b.base stepAreaSize; let slots := (List.range x.btCount).map (x.btFirst + ·)
    let active := fun (t : Table Seq) => (slots.filter (fun i => (t.get {} i).st == .active)).length
    let t := s.stepSlots v adv
    let l := (candidates t x.btFirst x.btCount b.rot).foldl (StepList.add b (min b.tokens b.maxBkt)) { seqs := t, rot := b.rot }
    let left := active s.hub.seqs - active t
    let starved := active t - (l.rows.filter (fun r => !r.2.2.1)).length - l.nopageActive
    let rows := l.rows.flatMap (fun r => rowBytesOf (l.seqs.get {} r.1) r)
    let c := { b with busy := true, rot := l.rot, starved := satAdd top16 b.starved starved, nopage := satAdd top16 b.nopage l.nopage,
                      left := satAdd top16 b.left left, joined := satAdd top16 b.joined l.joined, host := k.host,
                      list := if inside then l.rows.map (fun r => (r.1, r.2.1)) else b.list, endStatus := if inside then eOk else ePermission }
    let w := ({ s with hub := { s.hub with seqs := l.seqs } } : State).setVat v { x with bt := c }
    s.stepGo v k adv = if inside then (w.stackPut (b.base + 0x1000) rows (fun _ => false)).stackPut b.base (stepHeader b l left rows) (fun _ => false)
      else w := by
  have hopen := (Vat.steps_iff _).mpr hopen
  have hnone : (if adv && (s.vat v).bt.prev then s.badOutcome (s.vat v).bt.base ((s.outRows v).map (fun p => (p.1, p.2.2))) else none) = none := by
    rcases hout with h | h | h <;> simp only [h, Bool.false_and, Bool.and_false, Bool.false_eq_true, if_false, ite_self]
  simp only [State.stepGo, hopen, hgood, hnone, Bool.false_eq_true, if_false]

theorem exec_stepComplete_ok (hbusy : (s.vat v).bt.busy = true) (hend : (s.vat v).bt.endStatus = eOk) :
    let x := s.vat v; let b := x.bt
    let u := s.setVat v { x with bt := { b with busy := false, prev := true, steps := b.steps + 1, status := eOk, host := none, held := [] } }
    let w := if b.ctrEn then (u.addOutside b.ctr 1).1 else u
    exec (.stepComplete v) s = .next (b.held.foldl (fun z q => z.seqApply v q) ((w.autoCommit v).hostFinish b.host eOk b.steps.toNat 0)) := by
  change execStepComplete .. = _
  simp only [execStepComplete, State.stepEnd, hbusy, hend, Bool.not_true, Bool.false_eq_true, if_false, beq_self_eq_true, if_true,
    Bool.or_true, Bool.and_true]

end

/-! ## The balancer (R438) -/

section
variable {s : State} {v g m : Nat} (hm : m < (s.vat v).balGroup.get 0 g)
include hm

theorem exec_balNext_row {r : Nat × Nat} (hpick : s.balPick v g m = some r) :
    exec (.balNext v g m) s =
      .next ((s.modVat v (fun x => { x with balPos := x.balPos.put r.1 (x.balPos.get 0 r.1 + 1) })).send (.regData 0 r.2)) := by
  change execBalNext .. = _
  simp only [execBalNext, State.balTake, State.balWord, Nat.not_le.mpr hm, if_false, hpick]

theorem exec_balNext_none (hpick : s.balPick v g m = none) : exec (.balNext v g m) s = .next (s.send (.regData 0 (2 ^ 13))) := by
  change execBalNext .. = _
  simp only [execBalNext, State.balTake, State.balWord, Nat.not_le.mpr hm, if_false, hpick]

end

/-- Settles O47: slot commands by the STEP they meet and by Table 13.3, STEP by its checks, its end, RESET and BAL_NEXT one law each. -/
theorem batcher : Obligations.Batcher := by
  unfold Obligations.Batcher
  refine ⟨?slots, ?table, fun v q s => ⟨fun y => State.seqApply_admitted, fun e => State.seqApply_refused⟩, ?step, ?noadv, ?reset, ?shut, ?builds,
    fun v s => exec_stepComplete_ok, fun v g m s hm => ⟨fun r => exec_balNext_row hm, exec_balNext_none hm⟩⟩
  case slots =>
    intro v slot arg s hplan hactive hhere p hp
    have hexec := exec_slotCommand (arg := arg) hplan hp
    exact ⟨fun hidle => hexec.trans (nexts (State.seqReq_idle hactive hhere hidle _)),
      fun hbusy hroom => hexec.trans (nexts (State.seqReq_held hactive hhere hbusy hroom _)),
      fun hbusy hfull => hexec.trans (nexts (State.seqReq_full hactive hhere hbusy hfull _))⟩
  case table =>
    rintro v slot arg s _ hin rfl hgood q gives
    refine ⟨fun hst => ?_, fun hst => ?_, fun hst => ?_, fun hst => ?_, fun hst op hlow hop => ?_, ?_, ?_⟩
    · simp [gives, q, State.seqCommand, hin, hgood, hst]
    · simp +contextual [gives, q, State.seqCommand, hin, hgood, hst]
    · simp [gives, q, State.seqCommand, hin, hgood, hst]
    · simp [gives, q, State.seqCommand, hin, hgood, hst]
    · exact State.seqCommand_empty hin hgood hst hlow hop
    · simp [q, State.seqCommand]
    · simp [q, State.seqCommand]
  case step =>
    intro v src k s u hform ht
    exact nexts (State.stepFrom_taken (fun r hr => by subst hr; exact hform) ht _)
  case noadv =>
    intro v src k s u hform ht
    exact nexts (State.stepFrom_taken (fun r hr => by subst hr; exact hform) ht _)
  case reset =>
    intro v src k s u hform ht x ok
    have hexec := exec_batchReset_taken (fun r hr => by subst hr; exact hform) ht
    exact ⟨fun hno => hexec.trans (nexts (if_pos (Bool.eq_true_of_not_eq_false (mt Bool.or_eq_false_iff.mp hno)))),
      fun hok => hexec.trans (nexts (ifn (Bool.or_eq_false_iff.mpr hok)))⟩
  case shut =>
    intro v k adv s x hshut
    refine State.stepGo_shut ?_ adv
    rintro ⟨hst, hidle, hactive, hhere⟩
    rcases hshut with ⟨hready, hfree⟩ | h | h | h
    · rcases hst with h | ⟨h, hjob⟩
      · exact hready h
      · exact hfree.elim (· h) (fun hno => Bool.false_ne_true (hno.symm.trans hjob))
    · exact Bool.false_ne_true (hidle.symm.trans h)
    · exact Bool.false_ne_true (hactive.symm.trans h)
    · exact Bool.false_ne_true (hhere.symm.trans h)
  case builds =>
    rintro v k adv _ s rfl hst hidle hactive hhere hgood hout
    exact State.stepGo_builds ⟨hst, hidle, hactive, hhere⟩ hgood hout

end Sys2Proof.Machine
end

section
/-! PROOFS. The states of a span link (O28), its pairs (O29), and requests and answers over it (O30). -/

namespace Sys2Proof.Machine

/-! ## Link states (R443, R457, Table 14.9) -/

section
variable {s : State} {port : Nat}

theorem exec_retrain_due (hup : (s.port port).st = .up) (hcause : 32 ≤ (s.port port).badRun ∨ 16 ≤ (s.port port).nakRun) :
    exec (.retrain port) s = .next (s.linkTo port .train) := nexts (if_pos (by simpa [hup] using hcause))

theorem exec_lossOfSignal_lit
    (hlit : (s.port port).st = .train ∨ (s.port port).st = .align ∨ (s.port port).st = .hello ∨ (s.port port).st = .up) :
    exec (.lossOfSignal port) s = .next (s.linkTo port .down) := nexts (if_pos (by simpa [LinkSt.live, or_assoc] using hlit))

theorem exec_signalDetect_down (hdown : (s.port port).st = .down) (hpins : s.boot.extest = false) :
    exec (.signalDetect port) s = .next (s.linkTo port .train) := nexts (if_pos (by simp [hdown, hpins]))

theorem exec_trainingComplete_train (htrain : (s.port port).st = .train) :
    exec (.trainingComplete port) s =
      .next ((s.modPort port (fun z => { z.fresh with txq := z.txq.filter (fun x => !(isPrio x.f.kind)) })).linkTo port .align) :=
  nexts (if_pos htrain)

theorem State.overdue_iff {st : LinkSt} {n : Nat} :
    s.overdue port st n = true ↔ (s.port port).st = st ∧ (s.port port).since.toNat + n ≤ s.clk.gtc.toNat := by
  simp only [State.overdue, Bool.and_eq_true, beq_iff_eq, decide_eq_true_eq]

/-- The three timeouts of Table 14.9: a link that stands too long in a state goes back. -/
theorem exec_linkTimeout_overdue {i : Instr} {st back : LinkSt} {n : Nat}
    (hi : (i, st, n, back) ∈ [(Instr.trainTimeout port, LinkSt.train, 500000000, LinkSt.down), (.alignTimeout port, .align, 1000000, .train),
      (.helloTimeout port, .hello, 100000, .train)])
    (hst : (s.port port).st = st) (hlate : (s.port port).since.toNat + n ≤ s.clk.gtc.toNat) : exec i s = .next (s.linkTo port back) := by
  simp only [List.mem_cons, Prod.mk.injEq, List.not_mem_nil, or_false] at hi
  rcases hi with ⟨rfl, rfl, rfl, rfl⟩ | ⟨rfl, rfl, rfl, rfl⟩ | ⟨rfl, rfl, rfl, rfl⟩ <;> exact nexts (if_pos (State.overdue_iff.mpr ⟨hst, hlate⟩))

theorem exec_alignComplete_good (b : Bool) (halign : (s.port port).st = .align) (hgood : 64 ≤ (s.port port).goodRun) :
    exec (.alignComplete port b) s = .next
      (let u := (s.modPort port (fun z => { z with reversed := b })).linkTo port .hello
       u.modPort port (fun z => { z with txq := u.linkFrame port 1 :: z.txq })) := nexts (if_pos (by simp [halign, hgood]))

/-! ## HELLO and its answer (R458, R476) -/

/-- A link that waits for a HELLO, or is up, takes one. -/
theorem hello_heard (hst : (s.port port).st = .hello ∨ (s.port port).st = .up) :
    ((s.port port).st != .hello && (s.port port).st != .up) = false := by
  simpa [imp_iff_not_or] using hst

section
variable {u : State} {x : RxFrame}
  (htake : s.takeFrame port (fun f => f.kind == 3 && (fld f.unit 0 4 == 1 || fld f.unit 0 4 == 2)) = some (x, u))
  (hst : (s.port port).st = .hello ∨ (s.port port).st = .up)
include htake hst

theorem exec_hello_failed {e : Nat} (hcheck : u.helloCheck port x.f.unit = some e) :
    exec (.hello port) s = .next
      (let f := (u.linkTo port .failed).log (srcPort port) evLink e none (fld x.f.unit 4 17) LinkSt.failed.code
       if port = twinPort then f.pairFail e else f) := by
  have hheard := hello_heard hst
  change execHello .. = _
  simp only [execHello, htake, hheard, hcheck, Bool.false_eq_true, if_false]

section
variable (hcheck : u.helloCheck port x.f.unit = none)
include hcheck

theorem exec_hello_asked (hask : fld x.f.unit 0 4 = 1) :
    let v := u.modPort port (fun y => { y with peer := fld x.f.unit 4 17, peerPort := fld x.f.unit 21 3 })
    exec (.hello port) s = .next (v.modPort port (fun y => { y with txq := v.linkFrame port 2 :: y.txq })) := by
  have hheard := hello_heard hst
  change execHello .. = _
  simp only [execHello, htake, hheard, hcheck, hask, Bool.false_eq_true, if_false, if_true]

theorem exec_hello_answered (hanswer : fld x.f.unit 0 4 = 2) (hwait : (s.port port).st = .hello) :
    exec (.hello port) s =
      .next ((u.modPort port (fun y => { y with peer := fld x.f.unit 4 17, peerPort := fld x.f.unit 21 3 })).toUp port x.f.unit) := by
  have hheard := hello_heard hst
  have hno : ¬ fld x.f.unit 0 4 = 1 := by omega
  change execHello .. = _
  simp only [execHello, htake, hheard, hcheck, hno, Bool.false_eq_true, if_false]
  exact nexts (if_pos hwait)

end
end

theorem State.toUp_span (hport : port ≠ twinPort) (s : State) (n : Nat) :
    s.toUp port n = (s.modPort port (fun y =>
      { y with datelineOn := y.dateline, credit := (List.range 9).map (fun i => (i, fld n (24 + 16 * i) 16)) })).linkTo port .up := by
  simp only [State.toUp, hport, if_false]

theorem exec_linkDownFrame_taken {u : State} {x : RxFrame} (htake : s.takeFrame port (fun f => f.kind == 3 && fld f.unit 0 4 == 3) = some (x, u)) :
    exec (.linkDownFrame port) s = .next (if (s.port port).st = .up then u.linkTo port .down else u) := by
  change execLinkDownFrame .. = _
  simp only [execLinkDownFrame, htake]

/-! ## SPAN_PORT_CTL (R457, R599, Table 14.11) -/

/-- The state with the fields of SPAN_PORT_CTL as written. -/
def State.portFields (s : State) (port n : Nat) : State :=
  s.modPort port (fun y => { y with en := bit n 0, dateline := bit n 1, expect := bit n 2, peerNode := fld n 3 17 })

section
variable (hport : port < 6) {n : Nat}
include hport

theorem exec_spanPortEnable_on (hon : bit n 0 = true) :
    exec (.spanPortEnable port n) s = .next (if (s.port port).st = .disabled ∧ s.boot.sealed = true then (s.portFields port n).linkTo port .down
      else s.portFields port n) := by
  change execSpanPortEnable .. = _
  simp only [execSpanPortEnable, hport, State.portCtl, State.portFields, State.port_modPort, hon, if_true, Bool.and_eq_true, decide_eq_true_eq]

theorem exec_spanPortEnable_off (hoff : bit n 0 = false) (hst : (s.port port).st ≠ .disabled) :
    exec (.spanPortEnable port n) s = .next ((if (s.port port).st = .up
      then (s.portFields port n).sendPair port (s.port port).txSeq 1 false
        (((s.portFields port n).linkFrame port 3).f.bytes false ++ List.replicate 1216 0)
      else s.portFields port n).linkTo port .disabled) := by
  change execSpanPortEnable .. = _
  simp only [execSpanPortEnable, hport, State.portCtl, State.portFields, State.port_modPort, hoff, hst, if_true, Bool.false_eq_true, if_false]

end
end

/-- Settles O28: each event of a link by the state that it meets, HELLO by its check, SPAN_PORT_CTL by its enable bit. -/
theorem linkStates : Obligations.LinkStates := by
  unfold Obligations.LinkStates
  refine ⟨?events, ?hello, fun port n s hport => State.toUp_span hport s n, fun port x s u => exec_linkDownFrame_taken, ?control⟩
  case events =>
    intro port s y
    exact ⟨exec_retrain_due, exec_lossOfSignal_lit, exec_signalDetect_down, exec_trainingComplete_train,
      exec_linkTimeout_overdue (by simp), exec_linkTimeout_overdue (by simp), exec_linkTimeout_overdue (by simp), exec_alignComplete_good⟩
  case hello =>
    intro port x s u htake hst n v
    exact ⟨exec_hello_asked htake hst, exec_hello_answered htake hst, fun e => exec_hello_failed htake hst⟩
  case control =>
    intro port n s hport u st
    refine ⟨fun hon hst hsealed => ?_, fun hon hno => ?_, fun hoff hst hup => ?_, fun hoff hup => ?_⟩
    · exact (exec_spanPortEnable_on hport hon).trans (nexts (if_pos ⟨hst, hsealed⟩))
    · refine (exec_spanPortEnable_on hport hon).trans (nexts (if_neg ?_))
      rintro ⟨hst, hsealed⟩
      exact hno.elim (· hst) (fun hopen => Bool.false_ne_true (hopen.symm.trans hsealed))
    · exact (exec_spanPortEnable_off hport hoff hst).trans (nexts (congrArg (State.linkTo · port .disabled) (if_neg hup)))
    · have hst : (s.port port).st ≠ .disabled := by rw [show (s.port port).st = .up from hup]; decide
      exact (exec_spanPortEnable_off hport hoff hst).trans (nexts (congrArg (State.linkTo · port .disabled) (if_pos hup)))

/-! ## Pairs that arrive (R446 to R449) -/

section
variable {s : State} {port : Nat}

section
variable (hlive : (s.port port).st.live = true) (k : Nat)
include hlive

theorem exec_pairReceive_bad :
    exec (.pairReceive port none k) s = .next (((s.countCorrected port k).modPort port (fun y =>
      { y with badPair := satAdd top16 y.badPair 1, badRun := y.badRun + 1, goodRun := 0, nakOut := y.st != .align || y.nakOut,
               noStamp := y.noStamp - 1 })).log (srcPort port) evDropped eOk none 0 0) :=
  nexts (ifn (by rw [hlive]; rfl))

/-- A good pair's control codewords are acted on; in ALIGN, and of an idle pair, nothing else is taken. -/
theorem exec_pairReceive_codewords {p : Pair} (hidle : (s.port port).st = .align ∨ p.idle = true) :
    exec (.pairReceive port (some p) k) s = .next ((s.countCorrected port k).modPort port (fun y => y.takeCcw p s.clk.gtc)) := by
  have hdone : (decide ((s.port port).st = .align) || p.idle) = true := by simpa using hidle
  change execPairReceive port (some p) k s = _
  simp only [execPairReceive, hlive, hdone, Bool.not_true, Bool.false_eq_true, if_false, if_true]

theorem exec_pairReceive_flits {p : Pair} (hst : (s.port port).st ≠ .align) (hfull : p.idle = false) :
    let v := (s.countCorrected port k).modPort port (fun y => y.takeCcw p s.clk.gtc)
    exec (.pairReceive port (some p) k) s = .next (if p.seq % 256 = (s.port port).rxSeq
      then (v.modPort port (fun y => { y with rxSeq := (y.rxSeq + 1) % 256, nakOut := false })).rxFlits port p
      else v.modPort port (fun y => { y with nakOut := true })) := by
  change execPairReceive port (some p) k s = _
  simp only [execPairReceive, hlive, hst, hfull, decide_false, Bool.or_self, Bool.not_true, Bool.false_eq_true, if_false]

end

/-! ## Pairs that leave (R446, R448) -/

theorem exec_pairSend_align (hst : (s.port port).st = .align) :
    exec (.pairSend port) s = .next (s.sendPair port (((s.port port).txSeq + 255) % 256) 0 true (List.replicate 1280 0)) := by
  change execPairSend .. = _
  simp only [execPairSend, hst, LinkSt.live, beq_self_eq_true, Bool.true_or, Bool.not_true, Bool.false_eq_true, if_false, if_true]

section
variable (hst : (s.port port).st = .hello ∨ (s.port port).st = .up)
include hst

theorem sends_live : (s.port port).st.live = true ∧ (s.port port).st ≠ .align := by
  rcases hst with h | h <;> rw [h] <;> decide

theorem exec_pairSend_resend {h : HeldPair} {l : List HeldPair} (hdue : (s.port port).resend = h :: l) :
    exec (.pairSend port) s = .next (((s.modPort port (fun y => { y with resend := l, resends := satAdd top16 y.resends 1 })).sendPair port h.seq
      h.pflit false h.data).log (srcPort port) evCorrected eOk none 0 h.seq) := by
  obtain ⟨hlive, hno⟩ := sends_live hst
  change execPairSend .. = _
  simp only [execPairSend, hlive, hno, hdue, Bool.not_true, Bool.false_eq_true, if_false]

theorem exec_pairSend_next (hnone : (s.port port).resend = []) :
    exec (.pairSend port) s = .next (if 255 ≤ (s.port port).held.length
      then s.sendPair port (((s.port port).txSeq + 255) % 256) 0 true (List.replicate 1280 0) else s.newPair port) := by
  obtain ⟨hlive, hno⟩ := sends_live hst
  change execPairSend .. = _
  simp only [execPairSend, hlive, hno, hnone, Bool.not_true, Bool.false_eq_true, if_false]

end

/-- A frame whose joining has lasted 8 cycles joins no more. -/
theorem TxFrame.stopJoining (x : TxFrame) (n : Nat) :
    (if x.joining && decide (x.joinAt + 8 ≤ n) then { x with joining := false } else x) =
      { x with joining := x.joining && !decide (x.joinAt + 8 ≤ n) } := by
  obtain ⟨f, vat, who, joining, joinAt, badAt⟩ := x
  cases joining <;> by_cases h : joinAt + 8 ≤ n <;> simp [h]

theorem exec_frameJoinTimeout (port : Nat) (s : State) :
    exec (.frameJoinTimeout port) s = .next (s.modPort port (fun y =>
      { y with txq := y.txq.map (fun x => { x with joining := x.joining && !decide (x.joinAt + 8 ≤ s.clk.fast.toNat) }) })) := by
  change execFrameJoinTimeout .. = _
  simp only [execFrameJoinTimeout, TxFrame.stopJoining]

end

/-- Settles O29: a pair that arrives by whether it is good and expected, a pair that leaves by what is due. -/
theorem linkPairs : Obligations.LinkPairs := by
  unfold Obligations.LinkPairs
  refine ⟨?arrives, ?leaves, fun port s => exec_pairSend_align, exec_frameJoinTimeout⟩
  case arrives =>
    intro port k p s hlive y u v
    refine ⟨exec_pairReceive_bad hlive k, exec_pairReceive_codewords hlive k, fun hst hfull hnext => ?_, fun hst hfull hother => ?_⟩
    · exact (exec_pairReceive_flits hlive k hst hfull).trans (nexts (if_pos hnext))
    · exact (exec_pairReceive_flits hlive k hst hfull).trans (nexts (if_neg hother))
  case leaves =>
    intro port s hst y
    refine ⟨fun h l => exec_pairSend_resend hst, fun hnone hfull => ?_, fun hnone hroom => ?_⟩
    · exact (exec_pairSend_next hst hnone).trans (nexts (if_pos hfull))
    · exact (exec_pairSend_next hst hnone).trans (nexts (if_neg (Nat.not_le.mpr hroom)))

/-! ## Requests that arrive (R463, R465, R466, Table 14.7) -/

section
variable {s u : State} {port v : Nat} {x : RxFrame}

section
variable (htake : s.takeFrame port (fun f => f.kind == 9) = some (x, u))
include htake

section
variable (hadmit : u.frameAdmit port x.f false = .ok v) (hawake : u.spadAwake (fld x.f.unit 0 48) = true)
include hadmit hawake

theorem exec_rread_read (hst : (u.chargeRx v x).accessState v (fld x.f.unit 0 48) = eOk) :
    let f := x.f; let r := (u.chargeRx v x).remoteRead v (fld f.unit 0 48) f.len
    exec (.rread port) s = .next (r.1.egress { f := { kind := 4, dst := f.src, src := s.span.node, job := f.job, tag := f.tag, len := f.len,
                                                      data := r.2.1, bad := badWords (fun i => r.2.2.has i) 0 f.len } }) := by
  change execRread .. = _
  simp only [execRread, htake, hadmit, hawake, hst, bne_self_eq_false, Bool.not_true, Bool.false_eq_true, if_false]

theorem exec_rread_shut (hst : (u.chargeRx v x).accessState v (fld x.f.unit 0 48) ≠ eOk) :
    let f := x.f; let w := u.chargeRx v x
    exec (.rread port) s = .next (w.egress { f := { kind := 4, dst := f.src, src := s.span.node, job := f.job, tag := f.tag,
                                                    status := w.accessState v (fld f.unit 0 48) } }) := by
  change execRread .. = _
  simp only [execRread, htake, hadmit, hawake, bne_iff_ne.mpr hst, Bool.not_true, Bool.false_eq_true, if_false, if_true]

end

theorem exec_rread_refused {st : Nat} {w : Option Nat} (hno : u.frameAdmit port x.f false = .error (st, w)) :
    exec (.rread port) s = .next (u.frameRefuse port x.f st (!((s.port port).perm.admits x.f.src (s.port port).perm.win)) w) := by
  change execRread .. = _
  simp only [execRread, htake, hno]

end

section
variable (htake : s.takeFrame port (fun f => f.kind == 0xA) = some (x, u))
include htake

/-- The blocks of an admitted write are written one after another; the answer carries the first status that is not OK. -/
theorem exec_rwrite_written (hadmit : u.frameAdmit port x.f true = .ok v) (hawake : u.spadAwake (fld x.f.unit 0 48) = true) :
    let f := x.f; let a := fld f.unit 0 48
    let r := (blocksOf a f.len).foldl (fun (r : State × Nat) b => if r.1.accessState v (a + b.1) = eOk
      then (r.1.remoteWrite v (a + b.1) ((f.data.drop b.1).take b.2) (fun i => f.bad.has ((b.1 + i) / 4)), r.2)
      else (r.1, if r.2 = eOk then r.1.accessState v (a + b.1) else r.2)) ((u.chargeRx v x).poisonIn port v a f, eOk)
    exec (.rwrite port) s = .next (r.1.egress { f := { kind := 5, dst := f.src, src := s.span.node, job := f.job, tag := f.tag,
                                                       status := r.2 } }) := by
  change execRwrite .. = _
  simp only [execRwrite, htake, hadmit, hawake, ite_ne, Bool.not_true, Bool.false_eq_true, if_false]

theorem exec_rwrite_refused {st : Nat} {w : Option Nat} (hno : u.frameAdmit port x.f true = .error (st, w)) (hst : st ≠ eWindowClosed) :
    exec (.rwrite port) s = .next (u.frameRefuse port x.f st (!((s.port port).perm.admits x.f.src (s.port port).perm.win)) w) := by
  change execRwrite .. = _
  cases w <;> simp only [execRwrite, htake, hno, hst, if_false]

/-- A write to a closed window is also counted at its vat (R466). -/
theorem exec_rwrite_closed (hno : u.frameAdmit port x.f true = .error (eWindowClosed, some v)) :
    exec (.rwrite port) s =
      .next ((({ u with span := { u.span with lateWrites := u.span.lateWrites.upd 0 v (fun n => satAdd top32 n 1) } } : State)).frameRefuse port x.f
        eWindowClosed (!((s.port port).perm.admits x.f.src (s.port port).perm.win)) (some v)) := by
  change execRwrite .. = _
  simp only [execRwrite, htake, hno, if_true]

end

/-! ## Answers and timeouts (R451, R467) -/

theorem State.answered_within {t : TagEnt} {read : Bool} (hfind : (u.port port).tags.find? (fun z => z.1 == x.f.tag) = some (x.f.tag, t))
    (hread : t.read = read) (hlive : u.clk.gtc.toNat < t.sentAt.toNat + u.span.reqTo) : u.answered port x.f read = some t := by
  simp only [State.answered, hfind, hread, hlive, beq_self_eq_true, decide_true, Bool.and_self, if_true]

theorem State.answered_unknown (hfind : (u.port port).tags.find? (fun z => z.1 == x.f.tag) = none) (read : Bool) :
    u.answered port x.f read = none := by
  simp only [State.answered, hfind]

/-- The state in which the tag of an answer is free and its bytes are charged. -/
def State.freeTag (u : State) (port : Nat) (t : TagEnt) (x : RxFrame) : State :=
  (u.modPort port (fun y => { y with tags := y.tags.del x.f.tag })).chargeTag t x

/-- Poison in the data of an answer is recorded for the vat of its request. -/
def State.poisonTag (w : State) (port : Nat) (t : TagEnt) (x : RxFrame) : State :=
  match t.vat with
  | some v => w.poisonIn port v (fld t.unit 0 48) x.f
  | none => w

theorem exec_rdata_answers {t : TagEnt} (htake : s.takeFrame port (fun f => f.kind == 4) = some (x, u)) (hans : u.answered port x.f true = some t) :
    exec (.rdata port) s = .next (t.who.foldl (fun z k => z.send (.spanAnswer k x.f.status x.f.data
      ((List.range x.f.data.length).filter (fun i => x.f.bad.has (i / 4))))) ((u.freeTag port t x).poisonTag port t x)) := by
  change execRdata .. = _
  simp only [execRdata, htake, hans]
  rfl

theorem exec_rack_answers {t : TagEnt} (htake : s.takeFrame port (fun f => f.kind == 5) = some (x, u)) (hans : u.answered port x.f false = some t) :
    exec (.rack port) s = .next ((u.freeTag port t x).answerAll t.who x.f.status) := by
  change execRack .. = _
  simp only [execRack, htake, hans]
  rfl

theorem exec_rdata_late (htake : s.takeFrame port (fun f => f.kind == 4) = some (x, u)) (hans : u.answered port x.f true = none) :
    exec (.rdata port) s = .next u.lateFrame := by
  change execRdata .. = _
  simp only [execRdata, htake, hans]

theorem exec_rack_late (htake : s.takeFrame port (fun f => f.kind == 5) = some (x, u)) (hans : u.answered port x.f false = none) :
    exec (.rack port) s = .next u.lateFrame := by
  change execRack .. = _
  simp only [execRack, htake, hans]

theorem exec_requestTimeout (port : Nat) (s : State) :
    let due := fun (t : Nat × TagEnt) => decide (t.2.sentAt.toNat + s.span.reqTo ≤ s.clk.gtc.toNat)
    exec (.requestTimeout port) s = .next (((s.port port).tags.filter due).foldl (fun u t => u.answerAll t.2.who eTimeout)
      (s.modPort port (fun y => { y with tags := y.tags.filter (fun t => !due t) }))) := rfl

theorem exec_exportWindowClose (v i : Nat) (s : State) :
    exec (.exportWindowClose v i) s = .next (s.modExport_ v i (fun x => { x with open_ := false })) := rfl

end

/-- Settles O30: a request by what its checks give, an answer by the tag it meets. -/
theorem remoteAccesses : Obligations.RemoteAccesses := by
  unfold Obligations.RemoteAccesses
  refine ⟨?read, ?write, ?refused, fun port v x s u => exec_rwrite_closed, ?answers, ?late,
    fun port s => ⟨exec_requestTimeout port s, fun v i => exec_exportWindowClose v i s⟩⟩
  case read =>
    intro port v x s u htake hadmit hawake f a w r
    exact ⟨exec_rread_read htake hadmit hawake, exec_rread_shut htake hadmit hawake⟩
  case write =>
    intro port v x s u htake hadmit hawake f a r
    exact exec_rwrite_written htake hadmit hawake
  case refused =>
    intro port st v x s u hread hwrite hst b
    exact ⟨fun htake => exec_rread_refused htake hread, fun htake => exec_rwrite_refused htake hwrite hst⟩
  case answers =>
    intro port x t s u hlive hfind w
    exact ⟨fun htake hread => exec_rdata_answers htake (State.answered_within hfind hread hlive),
      fun htake hread => exec_rack_answers htake (State.answered_within hfind hread hlive)⟩
  case late =>
    intro port x s u hfind w
    exact ⟨fun htake => exec_rdata_late htake (State.answered_unknown hfind true),
      fun htake => exec_rack_late htake (State.answered_unknown hfind false)⟩

end Sys2Proof.Machine
end

section
/-! PROOFS. Pairing, heartbeat and takeover of twins (O32), and the two sides of a mirrored vat (O33, O34). -/

namespace Sys2Proof.Machine

/-! ## Twin commands (R475 to R477, R492 to R494) -/

section
variable {s : State} (hcfg : s.span.tw.cfgEn = true)
include hcfg

theorem exec_pairActive_configured : exec .pairActive s = .next (s.twinPair {} false) := by
  change execPairActive .. = _
  simp only [execPairActive, State.twinCmd, hcfg]
  rfl

theorem exec_pairMirror_configured : exec .pairMirror s = .next (s.twinPair {} true) := by
  change execPairMirror .. = _
  simp only [execPairMirror, State.twinCmd, hcfg]
  rfl

theorem exec_unpair_configured : exec .unpair s = .next (s.twinUnpair {}) := by
  change execUnpair .. = _
  simp only [execUnpair, State.twinCmd, hcfg]
  rfl

theorem exec_takeover_configured : exec .takeover s = .next (s.twinTakeover {}) := by
  change execTakeover .. = _
  simp only [execTakeover, State.twinCmd, hcfg]
  rfl

theorem exec_handover_configured : exec .handover s = .next (s.twinHandover {}) := by
  change execHandover .. = _
  simp only [execHandover, State.twinCmd, hcfg]
  rfl

end

section
variable {s : State} (k : Caller)

theorem State.twinCmd_unassigned {code : Nat} (hcode : code = 0 ∨ 5 < code) : s.twinCmd code k = s.twinRefuse k eFormat :=
  if_pos (by simpa [or_iff_not_imp_left, Nat.one_le_iff_ne_zero] using hcode)

theorem State.twinCmd_unconfigured {code : Nat} (hlow : 1 ≤ code) (hhigh : code ≤ 5) (hcfg : s.span.tw.cfgEn = false) :
    s.twinCmd code k = s.twinRefuse k ePermission := by
  simp only [State.twinCmd, hlow, hhigh, hcfg, decide_true, Bool.and_self, Bool.not_true, Bool.not_false, Bool.false_eq_true, if_false, if_true]

theorem State.twinPair_single (hst : s.span.tw.st = .single) (hsealed : s.boot.sealed = true) (mirror : Bool) :
    s.twinPair k mirror =
      (s.modTwin (fun t => { t with st := .pairing, want := mirror, pairAt := s.clk.gtc, host := k.host })).linkTo twinPort .down := by
  simp only [State.twinPair, hst, hsealed, bne_self_eq_false, Bool.not_true, Bool.or_self, Bool.false_eq_true, if_false]

theorem State.twinPair_refused (hno : s.span.tw.st ≠ .single ∨ s.boot.sealed = false) (mirror : Bool) :
    s.twinPair k mirror = s.twinRefuse k eState := if_pos (by simpa using hno)

theorem State.twinUnpair_refused (hactive : s.span.tw.st ≠ .active) (hmirror : s.span.tw.st ≠ .mirror) (hbroken : s.span.tw.st ≠ .broken) :
    s.twinUnpair k = s.twinRefuse k eState := if_pos (by simp [hactive, hmirror, hbroken])

/-- UNPAIR without a host command: the state it leaves. -/
theorem State.twinUnpair_single (hst : s.span.tw.st = .active ∨ s.span.tw.st = .mirror ∨ s.span.tw.st = .broken) :
    (s.twinUnpair {}).span.tw.st = .single ∧ (s.twinUnpair {}).span.tw.handover = false ∧ (s.twinUnpair {}).span.tw.status = eOk := by
  have hlegal : (!(s.span.tw.st == .active || s.span.tw.st == .mirror || s.span.tw.st == .broken)) = false := by
    rcases hst with h | h | h <;> rw [h] <;> rfl
  simp only [State.twinUnpair, hlegal, Bool.false_eq_true, if_false]
  exact ⟨rfl, rfl, rfl⟩

theorem State.twinHandover_refused (hno : s.span.tw.st ≠ .active ∨ s.span.tw.handover = true) : s.twinHandover k = s.twinRefuse k eState :=
  if_pos (by rw [Bool.or_eq_true]; exact .inl (by simpa using hno))

/-- A HANDOVER takes a commit of every mirrored vat, or begins one in STEP mode. -/
theorem State.twinHandover_active (hst : s.span.tw.st = .active) (hnew : s.span.tw.handover = false)
    (hvats : s.mirroredVats.any (fun v => let x := s.vat v; !(x.st == .ready || x.st == .free) || x.tw.mstat != 2 || x.tw.busy) = false) :
    s.twinHandover k = ((s.mirroredVats.foldl (fun u v => if (u.vat v).tw.mode = 1
        then (u.modVat v (fun x => { x with tw := { x.tw with busy := true, pendCmd := 1, cmdLine := u.mem.nextCmd } })).twinGo v
        else u.takeCommit v false false) (s.modTwin (fun t => { t with handover := true }))).twinOk k).handoverGo := by
  simp only [State.twinHandover, hst, hnew, hvats, bne_self_eq_false, Bool.or_self, Bool.false_eq_true, if_false]

theorem State.twinTakeover_legal
    (hst : (s.span.tw.st = .broken ∧ s.span.tw.role = true) ∨ (s.span.tw.st = .mirror ∧ s.span.tw.peerState = 3)) :
    s.twinTakeover k = (s.mirroredVats.foldl (fun s v => s.modVat v (fun x => { x with tw := { x.tw with log := logWhole x.tw.log } })) s).modTwin
      (fun t => { t with st := .takeover, host := k.host }) :=
  if_neg (by simpa [or_iff_not_imp_left] using hst)

end

/-! ## The pairing's end, BEATs and the end of a takeover (R476, R489 to R491, R494) -/

section
variable {s : State}

theorem exec_pairingTimeout_late (hst : s.span.tw.st = .pairing) (hlate : s.span.tw.pairAt.toNat + 1000000000 ≤ s.clk.gtc.toNat) :
    exec .pairingTimeout s = .next (s.pairFail eTimeout) := nexts (if_pos (by simp [hst, hlate]))

theorem State.pairFail_tw (hst : s.span.tw.st = .pairing) (status : Nat) :
    (s.pairFail status).span.tw = { s.span.tw with st := .single, status := status, host := none } := by
  simp only [State.pairFail, hst, bne_self_eq_false, Bool.false_eq_true, if_false, State.hostFinish_same]

/-- A device sends BEATs in every state of Table 15.2 but SINGLE, and in PAIRING once its link is up. -/
def State.beats (s : State) : Prop :=
  (s.span.tw.st = .pairing ∧ (s.port twinPort).st = .up) ∨ s.span.tw.st = .active ∨ s.span.tw.st = .mirror ∨ s.span.tw.st = .takeover ∨
    s.span.tw.st = .broken

theorem State.reaches_iff {n : Nat} :
    s.reaches n = true ↔ s.clk.gtc.toNat % n = 0 ∨ s.clk.prev.toNat / n ≠ s.clk.gtc.toNat / n := by
  simp [State.reaches]

theorem exec_beatSend_due (hdue : s.reaches 10000 = true) (hbeats : s.beats) :
    let t := s.span.tw; let w := s.modTwin (fun t => { t with beat := t.beat + 1 })
    let m := (List.range 16).foldl (fun m v => m + b2n ((s.vat v).tw.mstat == 2) * 2 ^ v) 0
    exec .beatSend s = .next (if (s.port twinPort).st = .up then w.queueTwin { f := {
      kind := 1, dst := t.cfgPeer, src := s.span.node,
      unit := t.beat % 65536 + t.st.code * 2 ^ 16 + b2n t.role * 2 ^ 19 + m * 2 ^ 20 } } else w) := by
  have hon : ((s.span.tw.st == .pairing && (s.port twinPort).st == .up) || s.span.tw.st == .active || s.span.tw.st == .mirror ||
      s.span.tw.st == .takeover || s.span.tw.st == .broken) = true := by simpa [State.beats, or_assoc] using hbeats
  change execBeatSend .. = _
  simp only [execBeatSend, hon, hdue, Bool.not_true, Bool.or_self, Bool.false_eq_true, if_false, beq_iff_eq]

theorem exec_beatReceive_valid {x : RxFrame} {u : State} (htake : s.takeFrame twinPort (fun f => f.kind == 1) = some (x, u))
    (hpeer : x.f.src = s.span.tw.cfgPeer) (hstamp : x.stamped = true) (hcode : fld x.f.unit 16 3 ≤ 5) :
    let k := fld x.f.unit 16 3; let w := u.modTwin (fun t => { t with peerState := k, peerRole := bit x.f.unit 19, lastBeat := x.tick })
    exec .beatReceive s = .next (if s.span.tw.st = .active ∧ (k = 2 ∨ (k = 4 ∧ bit x.f.unit 19 = false))
      then (w.modTwin (fun t => { t with conflict := true })).toBroken else w) := by
  change execBeatReceive .. = _
  simp only [execBeatReceive, htake, hpeer, hstamp, Nat.not_lt.mpr hcode, bne_self_eq_false, Bool.not_true, decide_false, Bool.or_self,
    Bool.false_eq_true, if_false, Bool.and_eq_true, Bool.or_eq_true, beq_iff_eq, Bool.not_eq_true']

theorem State.fireTwin_span (s : State) : s.fireTwin.span = s.span := by rw [State.fireTwin, fire_span, fire_span]

theorem exec_heartbeatLoss_late (hpaired : s.paired = true) (hlate : s.span.tw.lastBeat.toNat + 30000 ≤ s.clk.gtc.toNat) :
    exec .heartbeatLoss s = .next (s.modTwin (fun t => { t with missed := satAdd top16 t.missed 1 })).toBroken :=
  nexts (if_pos (by simp [hpaired, hlate]))

theorem State.toBroken_tw (s : State) : s.toBroken.span.tw = { s.span.tw with st := .broken, handover := false } := by
  rw [State.toBroken, State.fireTwin_span]
  rfl

/-- A mirrored vat at the end of a takeover: standby is lifted, and without a peer its mirroring ends. -/
def State.liftStandby (act : Bool) (s : State) (v : Nat) : State :=
  let u := s.modVat v (fun x => { x with tw := { x.tw with standby := false, no := x.tw.applied.toNat } })
  if act then u
  else (u.endMirror v).modVat v (fun x => { x with tw := { x.tw with mstat := if (s.vat v).tw.mstat = 2 then 0 else (s.vat v).tw.mstat } })

/-- The state in which a takeover has ended, before its host command finishes. -/
def State.takenOver (s : State) : State :=
  let act := s.span.tw.peerState == 3
  ((s.mirroredVats.foldl (State.liftStandby act) s).modTwin (fun t =>
    { t with st := if act then .active else .single, role := t.role && !act, status := eOk, host := none, lastBeat := s.clk.gtc })).fireTwin

theorem exec_takeoverComplete_applied (hst : s.span.tw.st = .takeover)
    (hall : s.mirroredVats.any (fun v => !(s.vat v).tw.log.isEmpty) = false) :
    exec .takeoverComplete s = .next (s.takenOver.hostFinish s.span.tw.host eOk 0 0) := by
  change execTakeoverComplete .. = _
  simp only [execTakeoverComplete, hst, hall, bne_self_eq_false, Bool.or_self, Bool.false_eq_true, if_false]
  rfl

theorem State.takenOver_tw (s : State) :
    let t := s.takenOver.span.tw
    t.st = (if s.span.tw.peerState = 3 then .active else .single) ∧ t.status = eOk ∧ t.host = none ∧ t.lastBeat = s.clk.gtc := by
  simp only [State.takenOver, State.fireTwin_span, beq_iff_eq]
  exact ⟨rfl, rfl, rfl, rfl⟩

end

/-- Settles O32: each twin command by the state it meets, the events of a pair by when they are due. -/
theorem twinPairing : Obligations.TwinPairing := by
  unfold Obligations.TwinPairing
  refine ⟨?commands, ?unpair, ?handover, ?codes, ?timeout, ?beat, fun x s u => exec_beatReceive_valid, ?loss, ?takeover⟩
  case commands =>
    intro s hcfg t vs
    refine ⟨fun hst hsealed => ⟨?_, ?_⟩, fun hno => ⟨?_, ?_⟩, fun hactive hmirror hbroken => ?_, fun hno => ?_, fun hlegal => ?_⟩
    · exact (exec_pairActive_configured hcfg).trans (nexts (State.twinPair_single {} hst hsealed false))
    · exact (exec_pairMirror_configured hcfg).trans (nexts (State.twinPair_single {} hst hsealed true))
    · exact (exec_pairActive_configured hcfg).trans (nexts (State.twinPair_refused {} hno false))
    · exact (exec_pairMirror_configured hcfg).trans (nexts (State.twinPair_refused {} hno true))
    · exact (exec_unpair_configured hcfg).trans (nexts (State.twinUnpair_refused {} hactive hmirror hbroken))
    · exact (exec_handover_configured hcfg).trans (nexts (State.twinHandover_refused {} hno))
    · exact (exec_takeover_configured hcfg).trans (nexts (State.twinTakeover_legal {} hlegal))
  case unpair =>
    intro s hcfg hst
    exact ⟨_, exec_unpair_configured hcfg, State.twinUnpair_single hst⟩
  case handover =>
    intro s hcfg hst hnew hvats
    exact (exec_handover_configured hcfg).trans (nexts (State.twinHandover_active {} hst hnew hvats))
  case codes =>
    intro r code s v
    exact ⟨rfl, fun k => State.twinCmd_unassigned k, fun k => State.twinCmd_unconfigured k⟩
  case timeout =>
    intro s hst hlate
    refine ⟨exec_pairingTimeout_late hst hlate, ?_, ?_⟩ <;> rw [State.pairFail_tw hst]
  case beat =>
    intro s hdue hbeats t w m
    exact exec_beatSend_due (State.reaches_iff.mpr hdue) hbeats
  case loss =>
    intro s hpaired hlate
    refine ⟨_, exec_heartbeatLoss_late hpaired hlate, ?_⟩
    rw [State.toBroken_tw]
    exact ⟨rfl, rfl, rfl⟩
  case takeover =>
    intro s hst hall
    exact ⟨s.takenOver, exec_takeoverComplete_applied hst hall, s.takenOver_tw⟩

/-! ## TWIN_VAT_CTL: the mode (R481) -/

theorem twinMode_assigned {n : Nat} (hmode : fld n 0 2 = 1 ∨ fld n 0 2 = 2) :
    (decide (fld n 0 2 = 0) || decide (fld n 0 2 = 3)) = false := by
  rcases hmode with h | h <;> rw [h] <;> rfl

section
variable {s : State} {v n : Nat} (hv : v < 16)
include hv

theorem exec_mirrorEnable_reserved (hmode : fld n 0 2 = 0 ∨ fld n 0 2 = 3) :
    exec (.mirrorEnable v n) s = .next ((s.twinVatCtl v n).twinVatRefuse v eFormat) := by
  have hno : (decide (fld n 0 2 = 0) || decide (fld n 0 2 = 3)) = true := by simpa using hmode
  change execMirrorEnable .. = _
  simp only [execMirrorEnable, Nat.not_le.mpr hv, hno, if_false, if_true]

section
variable (hmode : fld n 0 2 = 1 ∨ fld n 0 2 = 2)
include hmode

theorem exec_mirrorEnable_unconfigured (hcfg : s.span.tw.cfgEn = false) :
    exec (.mirrorEnable v n) s = .next ((s.twinVatCtl v n).twinVatRefuse v ePermission) := by
  have hmode := twinMode_assigned hmode
  have hno : (s.twinVatCtl v n).span.tw.cfgEn = false := hcfg
  change execMirrorEnable .. = _
  simp only [execMirrorEnable, Nat.not_le.mpr hv, hmode, hno, Bool.false_eq_true, Bool.not_false, if_false, if_true]

/-- A legal mode leaves in CTL ENABLE with the ranges and the slot count of the vat. -/
theorem exec_mirrorEnable_asks (hcfg : s.span.tw.cfgEn = true) (hst : s.span.tw.st = .active)
    (hactive : ((s.twinVatCtl v n).vat v).tw.standby = false)
    (hready : (((s.twinVatCtl v n).vat v).st = .free ∧ ((s.twinVatCtl v n).vat v).jobValid = true) ∨ ((s.twinVatCtl v n).vat v).st = .ready)
    (hidle : ((s.twinVatCtl v n).vat v).tw.busy = false) (hnone : ((s.twinVatCtl v n).vat v).tw.commits = [])
    (hmine : s.span.tw.cfgVats.getLsbD v = true) :
    let w := s.twinVatCtl v n; let y := w.vat v; let m := fld n 0 2
    exec (.mirrorEnable v n) s = .next ((w.modVat v (fun y => { y with tw := { y.tw with pendMode := m, freeUnits := 0, peerUnits := 0 } })).sendCtl v 1
      (leBytes 8 m ++ (List.range 8).flatMap (fun i => leBytes 8 (y.tw.ranges.get 0 i).toNat) ++ leBytes 8 y.btCount)) := by
  have hmode := twinMode_assigned hmode
  have hspan : (s.twinVatCtl v n).span = s.span := rfl
  have hlegal := (Vat.advLoads_iff _).mpr hready
  change execMirrorEnable .. = _
  simp only [execMirrorEnable, Nat.not_le.mpr hv, hmode, hspan, hcfg, hst, hactive, hlegal, hidle, hnone, hmine, bne_self_eq_false,
    List.isEmpty_nil, Bool.not_true, Bool.or_self, Bool.false_eq_true, if_false]

end

section
variable (hmode : fld n 0 2 = 0)
include hmode

theorem exec_mirrorDisable_off (hmode0 : ((s.twinVatCtl v n).vat v).tw.mode = 0) (hpend : ((s.twinVatCtl v n).vat v).tw.pendMode = 0)
    (hactive : ((s.twinVatCtl v n).vat v).tw.standby = false) : exec (.mirrorDisable v n) s = .next (s.twinVatCtl v n) := by
  change execMirrorDisable .. = _
  simp only [execMirrorDisable, Nat.not_le.mpr hv, hmode, hmode0, hpend, hactive, bne_self_eq_false, decide_true, Bool.not_false,
    Bool.and_self, Bool.false_eq_true, if_false, if_true]

theorem exec_mirrorDisable_ends (hon : ((s.twinVatCtl v n).vat v).tw.mode ≠ 0 ∨ ((s.twinVatCtl v n).vat v).tw.pendMode ≠ 0 ∨
      ((s.twinVatCtl v n).vat v).tw.standby = true) :
    let w := s.twinVatCtl v n; let k := (w.releaseHost v (fun _ => some none)).endMirror v
    exec (.mirrorDisable v n) s = .next (if w.paired then k.sendCtl v 2 [] else k) := by
  have hsome : (decide (((s.twinVatCtl v n).vat v).tw.mode = 0) && decide (((s.twinVatCtl v n).vat v).tw.pendMode = 0) &&
      !((s.twinVatCtl v n).vat v).tw.standby) = false := by
    rcases hon with h | h | h <;> simp [h]
  change execMirrorDisable .. = _
  simp only [execMirrorDisable, Nat.not_le.mpr hv, hmode, hsome, bne_self_eq_false, Bool.false_eq_true, if_false]

end
end

/-! ## Answers, commits and acknowledgements on the active side (R481, R483 to R488) -/

section
variable {s u : State} {x : RxFrame}

section
variable (htake : s.takeFrame twinPort (fun f => f.kind == 7) = some (x, u))
include htake

theorem exec_ctlrsp_accepted (hpend : (u.vat (fld x.f.unit 0 4)).tw.pendMode ≠ 0) (hok : fld x.f.unit 8 8 = eOk) :
    let v := fld x.f.unit 0 4; let st := fld x.f.unit 8 8; let p := (u.vat v).tw.pendMode
    exec .ctlrsp s = .next ((u.modVat v (fun y => { y with tw := { y.tw with status := st, pendMode := 0, mode := p } })).resyncBegin v) := by
  change execCtlrsp .. = _
  simp only [execCtlrsp, htake, bne_iff_ne.mpr hpend, hok, beq_self_eq_true, Bool.and_self, if_true]

theorem exec_ctlrsp_ends (hno : (u.vat (fld x.f.unit 0 4)).tw.pendMode = 0 ∨ fld x.f.unit 8 8 ≠ eOk) :
    let v := fld x.f.unit 0 4; let st := fld x.f.unit 8 8
    exec .ctlrsp s = .next (u.modVat v (fun y => { y with tw := { y.tw with status := st, pendMode := 0 } })) := by
  have hnone : ((u.vat (fld x.f.unit 0 4)).tw.pendMode != 0 && fld x.f.unit 8 8 == eOk) = false := by
    rcases hno with h | h <;> simp [h]
  change execCtlrsp .. = _
  simp only [execCtlrsp, htake, hnone, Bool.false_eq_true, if_false]

end

section
variable {v : Nat}

theorem exec_twinCommit_begins (hmode : (s.vat v).tw.mode = 1) (hactive : (s.vat v).tw.standby = false) (hready : (s.vat v).st = .ready)
    (hsynced : (s.vat v).tw.mstat = 2) (hidle : (s.vat v).tw.busy = false) (hhere : (s.vat v).heldOrLater = false)
    (hclean : (s.vat v).tw.commits.any (fun c => c.bad.isSome) = false) :
    exec (.twinCommit v) s =
      .next ((s.modVat v (fun y => { y with tw := { y.tw with busy := true, pendCmd := 1, cmdLine := s.mem.nextCmd } })).twinGo v) := by
  change execTwinCommit .. = _
  simp only [execTwinCommit, hmode, hactive, hready, hsynced, hidle, hhere, hclean, bne_self_eq_false, Bool.or_self, Bool.false_eq_true,
    if_false]

theorem exec_twinCommit_refused (hno : (s.vat v).tw.mode ≠ 1 ∨ (s.vat v).st ≠ .ready ∨ (s.vat v).tw.mstat ≠ 2) :
    exec (.twinCommit v) s = .next (s.twinVatRefuse v eState) :=
  nexts (if_pos (by rcases hno with h | h | h <;> simp [h]))

theorem exec_resync_begins (hmode : (s.vat v).tw.mode ≠ 0) (hactive : (s.vat v).tw.standby = false) (hst : s.span.tw.st = .active)
    (hready : (s.vat v).st = .ready ∨ ((s.vat v).st = .free ∧ (s.vat v).jobValid = true)) (hidle : (s.vat v).tw.busy = false)
    (hhere : (s.vat v).heldOrLater = false) (hnone : (s.vat v).tw.commits = []) : exec (.resync v) s = .next (s.resyncBegin v) := by
  have hlegal : ((s.vat v).st == .ready || ((s.vat v).st == .free && (s.vat v).jobValid)) = true := by simpa using hready
  change execResync .. = _
  simp only [execResync, hmode, hactive, hst, hlegal, hidle, hhere, hnone, decide_false, bne_self_eq_false, List.isEmpty_nil, Bool.not_true,
    Bool.or_self, Bool.false_eq_true, if_false]

theorem exec_resync_refused (hno : (s.vat v).tw.mode = 0 ∨ s.span.tw.st ≠ .active) : exec (.resync v) s = .next (s.twinVatRefuse v eState) :=
  nexts (if_pos (by rcases hno with h | h <;> simp [h]))

end

/-- A vat's counter for made releases is raised, where it has one, and a HANDOVER that waited for the CACK goes on. -/
def State.releasesMade (z : State) (v : Nat) : State :=
  (if (z.vat v).tw.relEn then (z.addOutside (z.vat v).tw.relCtr 1).1 else z).handoverGo

section
variable {c : TwCommit} {l : List TwCommit} (htake : s.takeFrame twinPort (fun f => f.kind == 5) = some (x, u))
  (hold : (u.vat (fld x.f.unit 0 4)).tw.commits = c :: l) (hno : c.no = fld x.f.unit 16 32)
include htake hold hno

/-- The oldest commit is whole at the mirror: its releases are made. -/
theorem exec_cack_committed (hok : fld x.f.unit 8 8 = eOk) :
    let v := fld x.f.unit 0 4
    let w := (u.releaseHost v (fun k => if k = fld x.f.unit 16 32 then some none else none)).modVat v (fun y => { y with tw := { y.tw with
      committed := BitVec.ofNat 32 (fld x.f.unit 16 32), status := eOk, commits := l, busy := y.tw.busy && !(c.resync || c.cmd) } })
    exec .cack s = .next ((if c.resync then w.setMstat v 2 else w).releasesMade v) := by
  change execCack .. = _
  simp only [execCack, htake, hold, hno, hok, bne_self_eq_false, beq_self_eq_true, Bool.false_eq_true, if_false, if_true]
  rfl

/-- A commit that failed at the mirror ends the later ones with its status (R488). -/
theorem exec_cack_failed (hbad : fld x.f.unit 8 8 ≠ eOk) :
    let v := fld x.f.unit 0 4; let st := fld x.f.unit 8 8
    let w := (u.releaseHost v (fun _ => some (some st))).modVat v (fun y => { y with tw := { y.tw with
      status := st, commits := [], busy := y.tw.busy && !(c.resync || c.cmd) } })
    exec .cack s = .next ((w.setMstat v 3).releasesMade v) := by
  change execCack .. = _
  simp only [execCack, htake, hold, hno, beq_eq_false_iff_ne.mpr hbad, bne_self_eq_false, Bool.false_eq_true, if_false]
  rfl

end

theorem exec_mack_taken (htake : s.takeFrame twinPort (fun f => f.kind == 4) = some (x, u)) :
    exec .mack s = .next (u.modVat (fld x.f.unit 0 4) (fun y => { y with tw := { y.tw with
      freeUnits := y.tw.freeUnits + fld x.f.unit 4 32, peerUnits := max y.tw.peerUnits (y.tw.freeUnits + fld x.f.unit 4 32) } })) := by
  change execMack .. = _
  simp only [execMack, htake]

end

/-- Settles O33: the mode by its checks, answers and acknowledgements by their status, COMMIT and RESYNC by the vat's state. -/
theorem twinControl : Obligations.TwinControl := by
  unfold Obligations.TwinControl
  refine ⟨?enable, ?disable, fun x s u htake => ⟨exec_ctlrsp_accepted htake, exec_ctlrsp_ends htake⟩, ?commands,
    fun c l x s u => exec_cack_committed, fun c l x s u => exec_cack_failed, fun x s u => exec_mack_taken⟩
  case enable =>
    intro v n s hv w y m
    exact ⟨exec_mirrorEnable_reserved hv, exec_mirrorEnable_unconfigured hv, exec_mirrorEnable_asks hv⟩
  case disable =>
    intro v n s hv hmode w k
    exact ⟨exec_mirrorDisable_off hv hmode, exec_mirrorDisable_ends hv hmode⟩
  case commands =>
    intro v s x
    exact ⟨exec_twinCommit_begins, exec_twinCommit_refused, exec_resync_begins, exec_resync_refused⟩

/-! ## CTL frames at the mirror (R481, R493) -/

section
variable {s u : State} {x : RxFrame}

/-- The ranges of a CTL ENABLE. -/
def RxFrame.ctlWord (x : RxFrame) (i : Nat) : Nat := leNat ((x.f.data.drop (8 * i)).take 8)

/-- The eight ranges that a CTL ENABLE carries. -/
def RxFrame.ctlRanges (x : RxFrame) : Table W64 := (List.range 8).map (fun i => (i, BitVec.ofNat 64 (x.ctlWord (i + 1))))

section
variable (htake : s.takeFrame twinPort (fun f => f.kind == 0xB && fld f.unit 4 4 == 1) = some (x, u))
include htake

theorem exec_ctlEnable_passes (hok : u.enableCheck (fld x.f.unit 0 4) x.f.job x.ctlRanges (x.ctlWord 9) = eOk) :
    let v := fld x.f.unit 0 4
    let w := u.modVat v (fun y => { y with tw := { y.tw with
      mode := x.ctlWord 0 % 4, ranges := x.ctlRanges, standby := true, log := [], logAt := 0 } })
    exec .ctlEnable s = .next (((w.setMstat v 1).sendMack v (w.vat v).logUnits).ctlAnswerTwin v x.f.job eOk) := by
  change execCtlEnable .. = _
  simp only [execCtlEnable, htake]
  exact nexts (ifn (bne_eq_false_iff_eq.mpr hok))

theorem exec_ctlEnable_fails (hno : u.enableCheck (fld x.f.unit 0 4) x.f.job x.ctlRanges (x.ctlWord 9) ≠ eOk) :
    exec .ctlEnable s = .next (u.ctlAnswerTwin (fld x.f.unit 0 4) x.f.job
      (u.enableCheck (fld x.f.unit 0 4) x.f.job x.ctlRanges (x.ctlWord 9))) := by
  change execCtlEnable .. = _
  simp only [execCtlEnable, htake]
  exact nexts (ift (bne_iff_ne.mpr hno))

end

theorem exec_ctlDisable_taken (htake : s.takeFrame twinPort (fun f => f.kind == 0xB && fld f.unit 4 4 == 2) = some (x, u)) :
    let v := fld x.f.unit 0 4
    exec .ctlDisable s = .next (((u.releaseHost v (fun _ => some none)).endMirror v).ctlAnswerTwin v x.f.job eOk) := by
  change execCtlDisable .. = _
  simp only [execCtlDisable, htake]

theorem exec_ctlHandover_taken (htake : s.takeFrame twinPort (fun f => f.kind == 0xB && fld f.unit 4 4 == 3) = some (x, u)) :
    exec .ctlHandover s = .next (u.ctlAnswerTwin (fld x.f.unit 0 4) x.f.job eOk) := by
  change execCtlHandover .. = _
  simp only [execCtlHandover, htake]

/-! ## The log of a standby vat (R485, R486, R488) -/

theorem exec_mwrite_taken (htake : s.takeFrame twinPort (fun f => f.kind == 8) = some (x, u)) :
    exec .mwrite s = .next (if u.takesMirror (fld x.f.unit 48 4)
      then u.logItem (fld x.f.unit 48 4) (.write (fld x.f.unit 0 48) x.f.data x.f.bad) else u) := by
  change execMwrite .. = _
  simp only [execMwrite, htake]

theorem exec_mrec_taken (htake : s.takeFrame twinPort (fun f => f.kind == 9) = some (x, u)) :
    exec .mrec s = .next (if u.takesMirror (fld x.f.unit 0 4)
      then u.logItem (fld x.f.unit 0 4) (.record (fld x.f.unit 4 8) x.f.data) else u) := by
  change execMrec .. = _
  simp only [execMrec, htake]

section
variable (htake : s.takeFrame twinPort (fun f => f.kind == 0xA) = some (x, u)) (hmirror : u.takesMirror (fld x.f.unit 0 4) = true)
include htake hmirror

theorem exec_commitFrame_closes (hok : fld x.f.unit 8 8 = eOk) :
    let v := fld x.f.unit 0 4; let no := fld x.f.unit 16 32
    exec .commitFrame s = .next ((((u.logItem v (.commit no)).modVat v (fun y =>
      { y with tw := { y.tw with committed := BitVec.ofNat 32 no, status := eOk } })).setMstat v 2).sendCack v no eOk) := by
  change execCommitFrame .. = _
  simp only [execCommitFrame, htake, hmirror, hok, Bool.not_true, Bool.false_eq_true, if_false, if_true]

theorem exec_commitFrame_discards (hbad : fld x.f.unit 8 8 ≠ eOk) :
    let v := fld x.f.unit 0 4; let st := fld x.f.unit 8 8; let no := fld x.f.unit 16 32; let l := (u.vat v).tw.log; let keep := logWhole l
    exec .commitFrame s = .next ((((u.modVat v (fun y => { y with tw := { y.tw with log := keep, status := st } })).setMstat v 3).sendCack v no
      st).sendMack v ((l.drop keep.length).foldl (fun n i => n + LogItem.units i) 0)) := by
  change execCommitFrame .. = _
  simp only [execCommitFrame, htake, hmirror, hbad, Bool.not_true, Bool.false_eq_true, if_false]

end

/-- An item of a log that closes no commit. -/
def LogItem.open_ (i : LogItem) : Bool := match i with | .commit _ => false | _ => true

/-- The version regions that the records of a commit list. -/
def listedVersions (items : List LogItem) : List Nat :=
  items.filterMap (fun i => match i with | .record 2 d => some (leNat (d.take 4)) | _ => none)

/-- The oldest closed commit of a log is applied item by item. -/
theorem exec_commitApplied_oldest {v no : Nat} {items rest : List LogItem} (hlog : (s.vat v).tw.log = items ++ .commit no :: rest)
    (hopen : items.all LogItem.open_ = true) :
    let w : State := { s with mem := { s.mem with
      vers := s.mem.vers.filter (fun p => !(p.2.defined && p.2.vat == v) || (listedVersions items).contains p.1) } }
    exec (.commitApplied v) s = .next (((items.foldl (fun s i => s.applyItem v i) w).modVat v (fun x =>
      { x with tw := { x.tw with log := rest, applied := BitVec.ofNat 32 no } })).sendMack v (items.foldl (fun n i => n + LogItem.units i) 0)) := by
  obtain ⟨hrest, hitems⟩ := log_dw hlog hopen rfl LogItem.open_ rfl
  have hexec : exec (.commitApplied v) s = .next (match (s.vat v).tw.log.dropWhile LogItem.open_ with
    | .commit no :: rest =>
      let items := (s.vat v).tw.log.takeWhile LogItem.open_
      let w : State := { s with mem := { s.mem with
        vers := s.mem.vers.filter (fun p => !(p.2.defined && p.2.vat == v) || (listedVersions items).contains p.1) } }
      ((items.foldl (fun s i => s.applyItem v i) w).modVat v (fun x =>
        { x with tw := { x.tw with log := rest, applied := BitVec.ofNat 32 no } })).sendMack v (items.foldl (fun n i => n + LogItem.units i) 0)
    | _ => s) := rfl
  rw [hexec, hrest, hitems]

end

/-- Settles O34: CTL frames by their check, mirror frames by whether the vat takes them, a commit by its status and its items. -/
theorem twinMirror : Obligations.TwinMirror := by
  unfold Obligations.TwinMirror
  refine ⟨?ctl, ?log, ?commit, fun v no items rest s => exec_commitApplied_oldest⟩
  case ctl =>
    intro x s u v word ranges st w
    exact ⟨exec_ctlEnable_passes, exec_ctlEnable_fails, exec_ctlDisable_taken, exec_ctlHandover_taken⟩
  case log =>
    intro x s u
    exact ⟨fun htake hmirror => (exec_mwrite_taken htake).trans (nexts (ift hmirror)),
      fun htake hno => (exec_mwrite_taken htake).trans (nexts (ifn hno)),
      fun htake hmirror => (exec_mrec_taken htake).trans (nexts (ift hmirror)),
      fun htake hno => (exec_mrec_taken htake).trans (nexts (ifn hno))⟩
  case commit =>
    intro x s u htake hmirror v st no l keep
    exact ⟨exec_commitFrame_closes htake hmirror, exec_commitFrame_discards htake hmirror⟩

end Sys2Proof.Machine
end

section
/-! PROOFS. The accounting window and the calibration interval (O41). -/

namespace Sys2Proof.Machine

/-- A window is written when a new one has begun and the calibration intervals that it holds have ended (R503, R505). -/
theorem exec_accountingWindowEnd_due {s : State} {j : Nat} (hj : j = s.clk.gtc.toNat / (s.hub.acct.perMs * 1000000)) (hnew : s.hub.acct.winIdx < j)
    (hcal : j * s.hub.acct.perMs ≤ s.hub.acct.calIdx) :
    let e : W64 := BitVec.ofNat 64 (j * (s.hub.acct.perMs * 1000000))
    let live := (List.range 16).filter (fun v => (s.vat v).jobValid && !(s.vat v).ac.stopped)
    let w := live.foldl (fun s v => s.modVat v (fun x => { x with ac := x.ac.roll e })) ((live.foldl (fun s v => s.acctWrite v 0 e) s).acctWrite 0 2 e)
    exec .accountingWindowEnd s = .next
      { w with hub := { w.hub with acct := { w.hub.acct with winIdx := j, from_ := e, sysEnergy0 := w.hub.acct.sysEnergy, clamp := false } } } := by
  subst hj
  exact nexts (if_neg (by simpa only [Bool.or_eq_true, decide_eq_true_eq, not_or, Nat.not_le, Nat.not_lt] using ⟨hnew, hcal⟩))

/-- Settles O41: the two ends of an interval by the steps they take; where the ratio has no denominator, the ratio shown is a free value. -/
theorem accounting : Obligations.Accounting := by
  unfold Obligations.Accounting
  refine ⟨?window, ?calibration⟩
  case window => exact fun s hnew hcal => exec_accountingWindowEnd_due rfl hnew hcal
  case calibration =>
    intro measured s hnew
    have hexec : exec (.calibrationInterval measured) s = execCalibrationInterval measured s := rfl
    simp only [hexec, execCalibrationInterval, Nat.not_le.mpr hnew, if_false]
    refine ⟨fun hden => ?_, fun hden => ?_⟩
    · simp only [hden, if_true]
    · simp only [hden, if_false]

end Sys2Proof.Machine
end

section
/-! PROOFS. The command rings of the host (O48). -/

namespace Sys2Proof.Machine

/-! ## Doorbells (R524, R572, R593) -/

section
variable {fn r len x : Nat} {s : State}

section
variable (hshut : s.hostOpen = false)
include hshut

theorem exec_sqTail_shut : exec (.sqTail fn r len x) s = .next s.hostAsk := nexts (if_pos (by rw [hshut]; rfl))

theorem exec_cqHead_shut : exec (.cqHead fn r len x) s = .next s.hostAsk := nexts (if_pos (by rw [hshut]; rfl))

theorem exec_sheet_shut : exec (.sheet fn r len x) s = .next s.hostAsk := nexts (if_pos (by rw [hshut]; rfl))

end

section
variable (hopen : s.hostOpen = true) (howns : s.ownsRing fn r = true)
include hopen howns

section
variable (hbad : (s.ring r).dbOk len x = false)
include hbad

theorem exec_sqTail_bad : exec (.sqTail fn r len x) s = .next (s.dbRefuse fn eRange) := by
  change execSqTail .. = _
  simp only [execSqTail, hopen, howns, hbad, Bool.not_true, Bool.not_false, Bool.false_eq_true, if_false, if_true]

theorem exec_cqHead_bad : exec (.cqHead fn r len x) s = .next (s.dbRefuse fn eRange) := by
  change execCqHead .. = _
  simp only [execCqHead, hopen, howns, hbad, Bool.not_true, Bool.not_false, Bool.false_eq_true, if_false, if_true]

theorem exec_sheet_bad : exec (.sheet fn r len x) s = .next (s.dbRefuse fn eRange) := by
  change execSheet .. = _
  simp only [execSheet, hopen, howns, hbad, Bool.not_true, Bool.not_false, Bool.true_or, Bool.false_eq_true, if_false, if_true]

end

section
variable (hgood : (s.ring r).dbOk len x = true)
include hgood

theorem exec_sqTail_taken : exec (.sqTail fn r len x) s = .next ((s.modRing r (fun y => { y with sqTail := x })).ringFetch r) := by
  change execSqTail .. = _
  simp only [execSqTail, hopen, howns, hgood, Bool.not_true, Bool.false_eq_true, if_false]

theorem exec_cqHead_taken :
    exec (.cqHead fn r len x) s = .next (s.modRing r (fun y =>
      { y with cqHead := x, cqUsed := y.cqUsed - (x + 2 ^ y.sizeLog2 - y.cqHead) % 2 ^ y.sizeLog2 })) := by
  change execCqHead .. = _
  simp only [execCqHead, hopen, howns, hgood, Bool.not_true, Bool.false_eq_true, if_false]

section
variable (hvat : r ≠ 16)
include hvat

theorem exec_sheet_full (hfull : 64 ≤ (s.ring r).outstanding) : exec (.sheet fn r len x) s = .next (s.dbRefuse fn eState) := by
  change execSheet .. = _
  simp only [execSheet, hopen, howns, hgood, hvat, hfull, Bool.not_true, Bool.or_self, decide_false, Bool.false_eq_true, if_false, if_true]

section
variable (hroom : (s.ring r).outstanding < 64) (hawake : s.vatAwake r = true) {y : Ring} (hy : y = s.ring r) {k : HostCmd}
  (hk : k = { uid := y.nextUid, index := 0xFFFF, op := 0x10, vat := r, tag := x, applied := true }) {u : State}
  (hu : u = s.setRing r { y with cmds := y.cmds ++ [k], nextUid := y.nextUid + 1 })
include hroom hawake hy hk hu

theorem exec_sheet_starts (hplan : (s.planOf r).valid = true) (hstart : (s.vat r).startable = true) (hheld : s.brokenHold r = false) :
    exec (.sheet fn r len x) s = .next ((u.armWrite r false).acceptStart r (some (r, k.uid))) := by
  subst hu hk hy
  change execSheet .. = _
  simp only [execSheet, hopen, howns, hgood, hvat, Nat.not_le.mpr hroom, hawake, hplan, hstart, hheld, Bool.not_true, Bool.or_self,
    decide_false, Bool.false_eq_true, if_false]

theorem exec_sheet_refused (hno : ¬ ((s.planOf r).valid = true ∧ (s.vat r).startable = true ∧ s.brokenHold r = false)) :
    exec (.sheet fn r len x) s = .next (u.hostRefuse r k.uid eState) := by
  subst hu hk hy
  have hcond : (!(s.planOf r).valid || !(s.vat r).startable || s.brokenHold r) = true := by
    rw [← Bool.not_eq_false]
    simpa only [Bool.or_eq_false_iff, Bool.not_eq_false', and_assoc] using hno
  change execSheet .. = _
  simp only [execSheet, hopen, howns, hgood, hvat, Nat.not_le.mpr hroom, hawake, hcond, Bool.not_true, Bool.or_self, decide_false,
    Bool.false_eq_true, if_false, if_true]

end
end
end
end
end

/-! ## Entries (R526, R527) -/

section
variable {r : Nat} {s : State} {t : W64} (hread : (s.ring r).fetchAt = some t)
include hread

theorem exec_entryFetch_arrives (data : List Byte) :
    let x := s.ring r
    exec (.entryFetch r (.ok data [])) s = .next (((List.range (min (data.length / 64) (min x.waiting (64 - x.outstanding)))).foldl
      (fun z i => z.takeEntry r (leNat ((data.drop (64 * i)).take 64))) (s.setRing r { x with fetchAt := none })).ringFetch r) := by
  change execEntryFetch r (.ok data []) s = _
  simp only [execEntryFetch, hread, Option.isNone_some, List.isEmpty_nil, Bool.not_true, Bool.false_eq_true, if_false]

theorem exec_entryFetch_poisoned (data : List Byte) {bad : List Nat} (hbad : bad ≠ []) :
    exec (.entryFetch r (.ok data bad)) s =
      .next ((s.setRing r { s.ring r with fetchAt := none, halted := true }).log (srcHost (s.ringFn r)) evRefused ePoison none 0 r) := by
  have hnonempty : (!bad.isEmpty) = true := by simpa using hbad
  change execEntryFetch r (.ok data bad) s = _
  simp only [execEntryFetch, hread, hnonempty, Option.isNone_some, Bool.false_eq_true, if_false, if_true]

theorem exec_entryFetch_refused (e : Nat) :
    exec (.entryFetch r (.refused e)) s =
      .next ((s.setRing r { s.ring r with fetchAt := none, halted := true }).log (srcHost (s.ringFn r)) evRefused e none 0 r) := by
  change execEntryFetch r (.refused e) s = _
  simp only [execEntryFetch, hread, Option.isNone_some, Bool.false_eq_true, if_false]

theorem exec_dmaCompletionTimeout_fetch (hlate : t.toNat + s.host.ctoUs * 1000 ≤ s.clk.gtc.toNat) :
    exec (.dmaCompletionTimeout r none) s =
      .next ((({ s with host := { s.host with cplTimeout := satAdd top16 s.host.cplTimeout 1 } } : State).modRing r
        (fun x => { x with fetchAt := none, halted := true })).log (srcHost (s.ringFn r)) evRefused eTimeout none 0 r) := by
  change execDmaCompletionTimeout r none s = _
  simp only [execDmaCompletionTimeout, hread, hlate, decide_true, if_true]

end

/-! ## Records, the end of a ring and the link (R516, R529, R530, R534) -/

section
variable {r : Nat} {s : State}

theorem exec_completionRecordWrite_room {d : HostDone} {rest : List HostDone} (hdone : (s.ring r).done = d :: rest)
    (hroom : (s.ring r).cqUsed < 2 ^ (s.ring r).sizeLog2) :
    let x := s.ring r
    let last := x.cqTail + 1 == 2 ^ x.sizeLog2
    let y : Ring := { x with done := rest, cqUsed := x.cqUsed + 1, cqTail := if last then 0 else x.cqTail + 1, phase := if last then !x.phase else x.phase }
    let u := (s.setRing r y.settle).send (.record r (x.cqBase + 32 * x.cqTail) (recordBytes d x.phase))
    exec (.completionRecordWrite r) s = .next ((if d.cmd.irq then u.send (.msix (s.ringFn r) x.vec) else u).ringFetch r) := by
  change execCompletionRecordWrite .. = _
  simp only [execCompletionRecordWrite, hdone, Nat.not_le.mpr hroom, if_false]

theorem exec_ringDisable_own {fn : Nat} (howns : s.ownsRing fn r = true) : exec (.ringDisable fn r) s = .next (s.ringStop false r) :=
  nexts (if_pos howns)

theorem exec_hostLinkDown_up (hup : s.host.up = true) :
    exec .hostLinkDown s =
      .next (({ s with host := { s.host with up := false, flit := false, rate := 0, width := 0 } } : State).fire 650).hostReset :=
  nexts (if_neg (by simp [hup]))

theorem exec_hostLinkUp_trained {rate width : Nat} (hdown : s.host.up = false) (hpins : s.boot.extest = false) (hrate : rate = 5 ∨ rate = 6)
    (hwidth : width = 8 ∨ width = 15) :
    exec (.hostLinkUp rate width) s =
      .next (({ s with host := { s.host with up := true, flit := rate == 6, rate := rate, width := width } } : State).fire 650) :=
  nexts (if_neg (by simpa [hdown, hpins, or_iff_not_imp_left] using And.intro hrate hwidth))

theorem exec_hostNop_next {k : HostCmd} (hnext : (s.ring r).nextCmd = some k) (hop : k.op = 0x0F) :
    exec (.hostNop r) s = .next ((s.setRing r ((s.ring r).apply k.uid)).hostFinish (some (r, k.uid)) eOk 0 0) := by
  change execHostNop .. = _
  simp only [execHostNop, hnext, hop, bne_self_eq_false, Bool.false_eq_true, if_false]

end

/-- Settles O48, command by command: the guards of a doorbell, an answer and a record decide its case. -/
theorem hostRings : Obligations.HostRings := by
  unfold Obligations.HostRings
  refine ⟨?shut, ?bad, ?taken, ?sheet, ?entries, ?entry, ?record, ?stops, ?linkUp, ?nop, ?late⟩
  case shut => exact fun fn r len x s hshut => ⟨exec_sqTail_shut hshut, exec_cqHead_shut hshut, exec_sheet_shut hshut, rfl⟩
  case bad =>
    exact fun fn r len x s hopen howns hbad =>
      ⟨exec_sqTail_bad hopen howns hbad, exec_cqHead_bad hopen howns hbad, exec_sheet_bad hopen howns hbad⟩
  case taken => exact fun fn r len x s hopen howns hgood => ⟨exec_sqTail_taken hopen howns hgood, exec_cqHead_taken hopen howns hgood⟩
  case sheet =>
    intro fn r len x s hopen howns hgood hvat y k u ok
    refine ⟨exec_sheet_full hopen howns hgood hvat, fun hroom hawake hok => ?_, fun hroom hawake hno => ?_⟩
    · obtain ⟨hplan, hstart, hheld⟩ := hok
      exact exec_sheet_starts hopen howns hgood hvat hroom hawake rfl rfl rfl hplan hstart hheld
    · exact exec_sheet_refused hopen howns hgood hvat hroom hawake rfl rfl rfl hno
  case entries =>
    intro r data bad s hread x halt
    obtain ⟨t, hread⟩ := Option.isSome_iff_exists.mp hread
    exact ⟨fun hclean => hclean ▸ exec_entryFetch_arrives hread data, exec_entryFetch_poisoned hread data, exec_entryFetch_refused hread⟩
  case entry => exact fun r e s hcheck => if_pos hcheck
  case record => exact fun r d rest s hdone hroom => exec_completionRecordWrite_room hdone hroom
  case stops => exact fun fn r s => ⟨exec_ringDisable_own, rfl, rfl, exec_hostLinkDown_up⟩
  case linkUp => exact fun rate width s hdown hpins hrate hwidth => exec_hostLinkUp_trained hdown hpins hrate hwidth
  case nop => exact fun r k s hnext hop => exec_hostNop_next hnext hop
  case late => exact fun r t s hread hlate => exec_dmaCompletionTimeout_fetch hread hlate

end Sys2Proof.Machine
end

section
/-! PROOFS. Interrupts, the error log, fences and messages (O50). -/

namespace Sys2Proof.Machine

/-! ## Interrupts and the wake watcher (R541 to R549) -/

section
variable {t n : Nat} {s : State}

theorem exec_irqEvent_source (hn : n < 670) : exec (.irqEvent n) s = .next (s.fire n) := nexts (if_pos hn)

theorem exec_wakeWatchEvent_ao (hao : aoSource n = true) : exec (.wakeWatchEvent n) s = .next (s.fire n) := nexts (if_pos hao)

section
variable (ht : t ≤ 17)
include ht

theorem exec_irqClaim_some (hclaim : s.claimable t = some n) :
    let u := (s.modIrqSrc n (fun x => { x with pending := false, active := true, assigned := none, last := t, claimer := some t })).irqSettle
      (s.irqLine 17)
    exec (.irqClaim t false) s = .next (u.send (.regData (0x42000 + 16 * t) (2 ^ 31 + n))) := by
  change execIrqClaim .. = _
  simp only [execIrqClaim, State.irqClaim, hclaim, Nat.not_lt.mpr ht, Bool.false_eq_true, if_false]

theorem exec_irqClaim_debug (hclaim : s.claimable t = some n) :
    exec (.irqClaim t true) s = .next (s.send (.regData (0x42000 + 16 * t) (2 ^ 31 + n))) := by
  change execIrqClaim .. = _
  simp only [execIrqClaim, State.irqClaim, hclaim, Nat.not_lt.mpr ht, if_false, if_true]

theorem exec_irqClaim_none (debug : Bool) (hclaim : s.claimable t = none) :
    exec (.irqClaim t debug) s = .next (s.send (.regData (0x42000 + 16 * t) 0)) := by
  change execIrqClaim .. = _
  simp only [execIrqClaim, State.irqClaim, hclaim, Nat.not_lt.mpr ht, if_false]

theorem exec_irqComplete_source (hn : n ≤ 1023) (w : Who) : exec (.irqComplete w t n) s = .next (s.irqComplete w t n) :=
  nexts (if_neg (by simpa using ⟨ht, hn⟩))

end

/-- A source that the target claimed is completed; the PF's message is repeated when its line stays asserted (R547). -/
theorem State.irqComplete_claimed (hactive : (s.irqSrc n).active = true) (hclaimer : (s.irqSrc n).claimer = some t) (w : Who) :
    let line := s.irqLine 17
    let u := (s.modIrqSrc n (fun y => { y with active := false, claimer := none, last := t })).irqSettle line
    s.irqComplete w t n = if t = 17 ∧ line = true ∧ u.irqLine 17 = true then u.send (.msix 0 (u.irqTgt 17).vec.toNat) else u := by
  simp only [State.irqComplete, hactive, hclaimer, bne_self_eq_false, Bool.not_true, Bool.or_self, Bool.false_eq_true, if_false, Bool.and_eq_true,
    decide_eq_true_eq, and_assoc]

theorem State.irqComplete_ignored (hother : (s.irqSrc n).active = false ∨ (s.irqSrc n).claimer ≠ some t) (w : Who) :
    s.irqComplete w t n = s.log (whoSrc w) evRefused eState none 0 n := if_pos (by simpa using hother)

theorem exec_wakeLatchDeliver_lowest {i : Nat} (hon : s.fastOn = true) (hlow : (List.range 32).find? (fun j => (s.wakeSel j).latch) = some i) :
    exec .wakeLatchDeliver s = .next ((s.modWakeSel i (fun x => { x with latch := false })).fire (s.wakeSel i).src.toNat) := by
  change execWakeLatchDeliver .. = _
  simp only [execWakeLatchDeliver, hon, hlow, Bool.not_true, Bool.false_eq_true, if_false]

end

/-! ## The error log (R550 to R552) -/

theorem exec_errorReport_event {src event : Nat} (hsrc : src < 0xB000) (hpos : event ≠ 0) (hmax : event ≤ 0x10) (status : Nat) (vat : Option Nat)
    (i0 i1 : Nat) (s : State) : exec (.errorReport src event status vat i0 i1) s = .next (s.log src event status vat i0 i1) :=
  nexts (if_neg (by simpa using ⟨⟨hsrc, hpos⟩, hmax⟩))

/-- Is the requester the consumer of the error log? -/
def State.logOwner (s : State) (w : Who) : Bool := if s.hub.logOwnerPf then w == .pf else whoMgmt w

section
variable {s : State} {w : Who} (x : Nat)

theorem exec_errlogTail_other (hother : s.logOwner w = false) : exec (.errlogTail w x) s = .next (s.regRefuse w ePermission 0x80004) := by
  have hcond : (!(if s.hub.logOwnerPf then w == .pf else whoMgmt w)) = true := by rw [Bool.not_eq_true']; exact hother
  change execErrlogTail .. = _
  simp only [execErrlogTail, State.logTailWrite, hcond, if_true]

section
variable {x} (howner : s.logOwner w = true)
include howner

theorem exec_errlogTail_beyond
    (hbeyond : (s.hub.logHead + 512 - s.hub.logTail) % 512 < (x % 512 + 512 - s.hub.logTail) % 512) :
    exec (.errlogTail w x) s = .next (s.regRefuse w eRange 0x80004) := by
  have hcond : (!(if s.hub.logOwnerPf then w == .pf else whoMgmt w)) = false := by rw [Bool.not_eq_false']; exact howner
  change execErrlogTail .. = _
  simp only [execErrlogTail, State.logTailWrite, hcond, hbeyond, Bool.false_eq_true, if_false, if_true]

theorem exec_errlogTail_within
    (hwithin : ¬ (s.hub.logHead + 512 - s.hub.logTail) % 512 < (x % 512 + 512 - s.hub.logTail) % 512) :
    let h1 : Hub := { s.hub with logTail := x % 512 }
    let u : State := { s with hub := h1.drainHolders }
    exec (.errlogTail w x) s = .next (if h1.logHead == x % 512 && h1.drainHolders.logHead != h1.logHead then u.fire 659 else u) := by
  have hcond : (!(if s.hub.logOwnerPf then w == .pf else whoMgmt w)) = false := by rw [Bool.not_eq_false']; exact howner
  change execErrlogTail .. = _
  simp only [execErrlogTail, State.logTailWrite, hcond, hwithin, Bool.false_eq_true, if_false]

end
end

/-! ## Fences, device faults and messages (R541, R558, R560) -/

section
variable {w : Who} {cl p : Nat} {s : State} (hcl : cl < 64) (hp : p < 64)
include hcl hp

theorem exec_coreFence_position : exec (.coreFence w cl p) s = .next (s.fenceWrite w (coreNo cl p)).1 :=
  nexts (if_neg (by simpa using ⟨Nat.le_of_lt_succ hcl, Nat.le_of_lt_succ hp⟩))

theorem exec_coreFence_other (hother : whoMgmt w = false) : exec (.coreFence w cl p) s = .next (s.regRefuse w ePermission 0x12C) := by
  rw [exec_coreFence_position hcl hp]
  simp only [State.fenceWrite, hother, Bool.not_false, if_true]

section
variable (hmgmt : whoMgmt w = true) {c : Nat} (hc : c = coreNo cl p)
include hmgmt hc

theorem exec_coreFence_unusable (hbad : c % 64 = s.disabledPos (clusterOf c) ∨ s.net.fenced.has c = true) :
    exec (.coreFence w cl p) s = .next (s.regRefuse w eState 0x12C) := by
  subst hc
  rw [exec_coreFence_position hcl hp]
  have hcond : (decide (coreNo cl p % 64 = s.disabledPos (clusterOf (coreNo cl p))) || s.net.fenced.has (coreNo cl p)) = true := by simpa using hbad
  simp only [State.fenceWrite, hmgmt, hcond, Bool.not_true, Bool.false_eq_true, if_false, if_true]

theorem exec_coreFence_usable (hgood : ¬ (c % 64 = s.disabledPos (clusterOf c) ∨ s.net.fenced.has c = true)) :
    exec (.coreFence w cl p) s = .next (s.fence c) := by
  subst hc
  rw [exec_coreFence_position hcl hp]
  have hcond : (decide (coreNo cl p % 64 = s.disabledPos (clusterOf (coreNo cl p))) || s.net.fenced.has (coreNo cl p)) = false := by
    simpa using hgood
  simp only [State.fenceWrite, hmgmt, hcond, Bool.not_true, Bool.false_eq_true, if_false]

end
end

/-- The control processor of a fenced core has stopped for good. -/
theorem State.fenceCore_ctl (s : State) (c : Nat) :
    (s.fenceCore c).ctl c =
      { (s.dropEngines c).ctl c with run := .fenced, waiting := none, ldr := none, strOut := 0, strAsync := 0, stepping := false } := by
  change ((s.dropEngines c).modCtl c (fun k =>
    { k with run := .fenced, waiting := none, ldr := none, strOut := 0, strAsync := 0, stepping := false })).ctl c = _
  exact State.ctl_modCtl ..

theorem exec_deviceFault_block {b : Nat} (hb : b ≤ 13) (s : State) :
    exec (.deviceFault b) s = .next ((List.range 16).foldl
      (fun z v => if (z.vat v).st = .ready ∨ (z.vat v).st = .running then (z.forceStopOr v).1 else z)
      ((({ s with hub := { s.hub with deviceFault := true } } : State).log (srcHub b) evDevice 0 none 0 b).fire 664)) := by
  change execDeviceFault .. = _
  simp only [execDeviceFault, Nat.not_lt.mpr hb, if_false, Bool.or_eq_true, beq_iff_eq]

theorem exec_vatHostMsg_allowed {fn v : Nat} {s : State} (hv : v < 16) (hfn : fn = 0 ∨ s.fnVat fn = some v) (x : Nat) :
    exec (.vatHostMsg fn v x) s = .next ((s.modVat v (fun y => { y with hostMsg := BitVec.ofNat 32 x })).fireVat v 5) := by
  have hcond : (fn != 0 && s.fnVat fn != some v) = false := by simpa [or_iff_not_imp_left] using hfn
  change execVatHostMsg .. = _
  simp only [execVatHostMsg, Nat.not_lt.mpr (Nat.le_of_lt_succ hv), hcond, Bool.false_eq_true, if_false]

/-- Settles O50, command by command: the guards of a claim, a completion, a tail write and a fence decide its case. -/
theorem interruptsAndErrors : Obligations.InterruptsAndErrors := by
  unfold Obligations.InterruptsAndErrors
  refine ⟨?event, ?claim, ?claimNone, ?complete, ?latch, ?report, ?tail, ?fence, ?fault, ?messages⟩
  case event => exact fun n s hn => ⟨exec_irqEvent_source hn, exec_wakeWatchEvent_ao⟩
  case claim => exact fun t n s ht hclaim => ⟨exec_irqClaim_some ht hclaim, exec_irqClaim_debug ht hclaim⟩
  case claimNone => exact fun t d s ht hclaim => exec_irqClaim_none ht d hclaim
  case complete =>
    intro w t n s ht hn x line u
    rw [exec_irqComplete_source ht hn]
    exact ⟨fun hactive hclaimer => nexts (State.irqComplete_claimed hactive hclaimer w), fun hother => nexts (State.irqComplete_ignored hother w)⟩
  case latch => exact fun i s hon hlow => exec_wakeLatchDeliver_lowest hon hlow
  case report => exact fun src event status vat i0 i1 s hsrc hpos hmax => exec_errorReport_event hsrc hpos hmax status vat i0 i1 s
  case tail =>
    exact fun w x s => ⟨exec_errlogTail_other x, exec_errlogTail_beyond, exec_errlogTail_within⟩
  case fence =>
    exact fun w cl p s hcl hp => ⟨exec_coreFence_other hcl hp, fun hmgmt => exec_coreFence_unusable hcl hp hmgmt rfl,
      fun hmgmt => exec_coreFence_usable hcl hp hmgmt rfl, State.fenceCore_ctl s _⟩
  case fault => exact fun b s hb => exec_deviceFault_block hb s
  case messages => exact fun fn v x s hv hfn => ⟨exec_vatHostMsg_allowed hv hfn x, rfl, rfl⟩

end Sys2Proof.Machine
end

section
/-! PROOFS. The power controller (O51), and the power states of cores, clusters and the device (O52). -/

namespace Sys2Proof.Machine

/-! ## Operating points and stretch (R563 to R565) -/

section
variable {s : State}

theorem exec_dvfsSwitch_eligible (hwant : s.wantedPoint ≠ s.hub.dvfs) (hdet : s.detRunning = false) (hstretch : s.pwr.stretch = false)
    (hon : s.fastOn = true) (hgrid : s.clk.gtc.toNat % 20 = 0) (hphase : s.clk.phase = 0) :
    exec .dvfsSwitch s = .next { s with hub := { s.hub with dvfs := min s.pwr.target (min s.pwr.thermLimit s.pwr.capLimit) } } :=
  nexts (if_neg (by simp [hwant, hdet, hstretch, hon, hgrid, hphase]))

theorem State.beginStretch_new (hstretch : s.pwr.stretch = false) (b : Bool) :
    s.beginStretch b = (s.modPwr (fun p => { p with
      stretch := true, m := 0, epTherm := false, epCap := false, droopEps := if b then satAdd top16 p.droopEps 1 else p.droopEps })).markStretched :=
  ifn hstretch

theorem exec_droopTrip_beyond {i d : Nat} (hi : i ≤ 267) (hd : s.pwr.tripMv < d) (hon : s.fastOn = true) :
    exec (.droopTrip i d) s = .next ((if s.pwr.stretch then s else s.beginStretch true).fire 662) := by
  change execDroopTrip .. = _
  simp only [execDroopTrip, hon, Nat.not_lt.mpr hi, Nat.not_le.mpr hd, decide_false, Bool.not_true, Bool.or_self, Bool.false_eq_true, if_false]
  rw [apply_ite (fun u : State => u.fire 662)]

theorem exec_stretchEnd_idle {n : Nat} (hstretch : s.pwr.stretch = true) (hn : 32 ≤ n) (htherm : s.thermReq = false)
    (hcap : s.pwr.capReq = false) (hm : s.pwr.m ≠ 0) (hunit : s.pwr.m % stretchUnit s.hub.dvfs = 0) :
    exec (.stretchEnd n) s = .next (s.modPwr (fun p => { p with stretch := false, m := 0, epTherm := false, epCap := false })) :=
  nexts (if_neg (by simp [hstretch, hn, htherm, hcap, hm, hunit]))

/-! ## Thermal limits (R573, R574) -/

theorem exec_thermalSample_read {t : List Int} (hlen : t.length = 73) (hoff : s.pwr.off = false) (hon : s.pwr.on = true) :
    let f := s.reading t
    exec (.thermalSample t) s = .next (if dieThr s.pwr.warn 3 ≤ f (hottest f dieCodes) ∨ stackThr 3 ≤ f (hottest f stackCodes) then s.trip
      else s.thermalLevels f) := by
  change execThermalSample .. = _
  simp only [execThermalSample, hlen, hoff, hon, bne_self_eq_false, Bool.not_true, Bool.or_self, Bool.false_eq_true, if_false,
    Bool.or_eq_true, decide_eq_true_eq]

theorem exec_throttleStep_due (hlvl : s.pwr.dieLvl.getLsbD 1 = true) (hdue : s.pwr.stepAt.toNat + 10 ^ 7 ≤ s.clk.gtc.toNat) :
    exec .throttleStep s = .next (s.modPwr (fun p => { p with thermLimit := p.thermLimit - 1, stepAt := s.clk.gtc })).holdStretch := by
  change execThrottleStep .. = _
  simp only [execThrottleStep, hlvl, Nat.not_lt.mpr hdue, decide_false, Bool.not_true, Bool.or_self, Bool.false_eq_true, if_false]

theorem exec_throttleRecovery_due (hlvl : s.pwr.dieLvl.getLsbD 1 = false) (hcrit : s.critical = false) (hlow : s.pwr.thermLimit < 4)
    (hdue : s.pwr.riseAt.toNat + 10 ^ 8 ≤ s.clk.gtc.toNat) :
    exec .throttleRecovery s = .next (s.modPwr (fun p => { p with thermLimit := p.thermLimit + 1, riseAt := s.clk.gtc })) := by
  change execThrottleRecovery .. = _
  simp only [execThrottleRecovery, hlvl, hcrit, Nat.not_le.mpr hlow, Nat.not_lt.mpr hdue, decide_false, Bool.or_self, Bool.false_eq_true,
    if_false]

/-! ## Power samples, the cap and telemetry (R577 to R581) -/

theorem exec_powerSample_due {mv ma nj : Nat} (hon : s.pwr.on = true) (hdue : s.reaches 1000 = true)
    (hnew : s.pwr.sampleAt ≠ s.clk.gtc ∨ s.pwr.samples = []) :
    exec (.powerSample mv ma nj) s = .next (((s.modPwr (fun p => { p with
      samples := ((mv, ma) :: p.samples).take 10, sampleAt := s.clk.gtc, energy := p.energy + BitVec.ofNat 64 nj, sumMv := p.sumMv + mv,
      sumMa := p.sumMa + ma, sumUw := p.sumUw + mv * ma, nSum := p.nSum + 1 })).sagCount mv).capCheck) := by
  have hfresh : (s.pwr.sampleAt == s.clk.gtc && !s.pwr.samples.isEmpty) = false := by
    rcases hnew with h | h
    · rw [beq_eq_false_iff_ne.mpr h, Bool.false_and]
    · simp only [h, List.isEmpty_nil, Bool.not_true, Bool.and_false]
  change execPowerSample .. = _
  simp only [execPowerSample, hon, hdue, hfresh, Bool.not_true, Bool.or_self, Bool.false_eq_true, if_false]

section
variable (hlen : s.pwr.samples.length = 10)
include hlen

/-- A sample above the cap that this 10 ms window has logged already: the request is in force. -/
theorem State.capCheck_above (hreq : s.pwr.capReq = false) (hover : s.pwr.cap10 < s.pwr.power10)
    (hlogged : s.pwr.capLogged = s.clk.gtc.toNat / 10 ^ 7 + 1) :
    s.capCheck = ((s.modPwr (fun p => { p with cEff := s.pwr.cap10 / 10 ^ 7 })).modPwr
      (fun p => { p with capReq := true, capSince := s.clk.gtc })).holdStretch := by
  simp only [State.capCheck, hlen, hreq, hover, hlogged, bne_self_eq_false, decide_true, Bool.not_false, Bool.and_self, Bool.false_eq_true,
    if_false, if_true]

theorem State.capCheck_below (hreq : s.pwr.capReq = true) (hunder : 20 * s.pwr.power10 ≤ 19 * s.pwr.cap10) :
    s.capCheck = (s.modPwr (fun p => { p with cEff := s.pwr.cap10 / 10 ^ 7 })).modPwr
      (fun p => { p with capReq := false, capTicks := p.capTicks + (s.clk.gtc.toNat - p.capSince.toNat) }) := by
  simp only [State.capCheck, hlen, hreq, hunder, bne_self_eq_false, decide_true, Bool.not_true, Bool.false_and, Bool.and_self,
    Bool.false_eq_true, if_false, if_true]

end

theorem exec_capWindow_due (hdue : s.reaches (10 ^ 7) = true) (hnew : s.pwr.winAt.toNat < s.clk.gtc.toNat) :
    let held := s.pwr.capTicks + (if s.pwr.capReq then s.clk.gtc.toNat - s.pwr.capSince.toNat else 0)
    exec .capWindow s = .next (s.modPwr (fun p => { p with
      winAt := s.clk.gtc, capTicks := 0, capSince := if p.capReq then s.clk.gtc else p.capSince,
      capLimit := if 10 ^ 7 < 5 * held then p.capLimit - 1 else p.capLimit })) := by
  change execCapWindow .. = _
  simp only [execCapWindow, hdue, Nat.not_le.mpr hnew, decide_false, Bool.not_true, Bool.or_self, Bool.false_eq_true, if_false,
    decide_eq_true_eq]

theorem exec_capRiseWindow_due (hdue : s.reaches (10 ^ 9) = true) (hnew : s.pwr.riseWinAt.toNat < s.clk.gtc.toNat) :
    let avg := (s.pwr.energy - s.pwr.energyWin).toNat
    let c := if s.pwr.samples.length = 10 then s.pwr.cap10 else s.pwr.watts * 10 ^ 7
    exec .capRiseWindow s = .next (s.modPwr (fun p => { p with
      riseWinAt := s.clk.gtc, energyWin := p.energy,
      capLimit := if 5 * 10 ^ 7 * avg < 4 * 10 ^ 9 * c then min 4 (p.capLimit + 1) else p.capLimit })) := by
  change execCapRiseWindow .. = _
  simp only [execCapRiseWindow, hdue, Nat.not_le.mpr hnew, decide_false, Bool.not_true, Bool.or_self, Bool.false_eq_true, if_false,
    decide_eq_true_eq]

/-- The sensors of the telemetry before its own 14 to 18: the averages since the last update, the energy and the hottest readings. -/
def Pwr.telemMeasured (p : Pwr) : Table Nat :=
  let t := if p.nSum = 0 then p.telem
    else ((p.telem.put 0 (p.sumMv / (10 * p.nSum))).put 1 (p.sumMa / (10 * p.nSum))).put 2 (p.sumUw / (100000 * p.nSum))
  p.hot.foldl (fun (t : Table Nat) q => t.put q.1 (enc32 q.2)) (t.put 3 (p.energy.toNat / 10 ^ 9 % 2 ^ 32))

theorem exec_telemetryUpdate_due (inlet conv : Int) (hdue : s.reaches (10 ^ 8) = true) (hnew : s.pwr.telemAt.toNat < s.clk.gtc.toNat) :
    let dc := (s.clk.fast - s.pwr.fast0).toNat
    let ds := (s.pwr.cycles - s.pwr.cycles0).toNat
    exec (.telemetryUpdate inlet conv) s = .next (s.modPwr (fun p => { p with
      telem := ((((s.pwr.telemMeasured.put 14 (enc32 inlet)).put 15 (enc32 conv)).put 16 s.hub.dvfs).put 17
        (if dc = 0 then 0 else ds * 65536 / dc)).put 18 p.lvlMax,
      telemSeq := p.telemSeq + 1, telemAt := s.clk.gtc, sumMv := 0, sumMa := 0, sumUw := 0, nSum := 0, hot := [],
      lvlMax := levelCode (p.dieLvl ||| p.stackLvl), fast0 := s.clk.fast, cycles0 := p.cycles })) := by
  change execTelemetryUpdate .. = _
  simp only [execTelemetryUpdate, hdue, Nat.not_le.mpr hnew, decide_false, Bool.not_true, Bool.or_self, Bool.false_eq_true, if_false]
  rfl

/-! ## The module (R635) -/

theorem exec_moduleStart_ready {mv ticks off : Nat} (hon : s.pwr.on = false) (hmv : 58000 ≤ mv) (hticks : 10 ^ 6 ≤ ticks) (hoff : 10 ^ 8 ≤ off) :
    exec (.moduleStart mv ticks off) s =
      .next (({ s with boot := { s.boot with rst := some .cold, effect := true } } : State).coldWipe true) := by
  change execModuleStart .. = _
  simp only [execModuleStart, hon, Nat.not_lt.mpr hmv, Nat.not_lt.mpr hticks, Nat.not_lt.mpr hoff, decide_false, Bool.or_self,
    Bool.false_eq_true, if_false]

theorem exec_moduleStop_lost {mv ticks : Nat} {en : Bool} (hon : s.pwr.on = true) (hlow : mv < 54000 ∨ en = false) (hticks : 10 ^ 4 < ticks) :
    let u := s.coldWipe true
    exec (.moduleStop mv en ticks) s =
      .next { u with pwr := { u.pwr with on := false }, boot := { u.boot with effect := false, rst := some .cold } } := by
  have hlost : (decide (54000 ≤ mv) && en) = false := by
    rcases hlow with h | h
    · rw [decide_eq_false (Nat.not_le.mpr h), Bool.false_and]
    · rw [h, Bool.and_false]
  change execModuleStop .. = _
  simp only [execModuleStop, hon, hlost, Nat.not_le.mpr hticks, decide_false, Bool.not_true, Bool.or_self, Bool.false_eq_true, if_false]

end

/-- Settles O51, command by command: the guards of a command, taken from the clause, select its one step. -/
theorem powerControl : Obligations.PowerControl := by
  unfold Obligations.PowerControl
  refine ⟨?switch, ?droop, ?stretch, ?stretchEnd, ?thermal, ?fall, ?rise, ?sample, ?cap, ?windows, ?telemetry, ?module⟩
  case switch => exact fun s hwant hdet hstretch hon hgrid hphase => exec_dvfsSwitch_eligible hwant hdet hstretch hon hgrid hphase
  case droop => exact fun i d s hi hd hon => exec_droopTrip_beyond hi hd hon
  case stretch => exact fun b s hstretch => State.beginStretch_new hstretch b
  case stretchEnd => exact fun n s hstretch hn htherm hcap hm hunit => exec_stretchEnd_idle hstretch hn htherm hcap hm hunit
  case thermal =>
    intro t s hlen hoff hon f trips
    rw [exec_thermalSample_read hlen hoff hon]
    exact ⟨fun htrips => nexts (if_pos htrips), fun hcool => nexts (if_neg hcool)⟩
  case fall => exact fun s hlvl hdue => exec_throttleStep_due hlvl hdue
  case rise => exact fun s hlvl hcrit hlow hdue => exec_throttleRecovery_due hlvl hcrit hlow hdue
  case sample => exact fun mv ma nj s hon hdue hnew => exec_powerSample_due hon (State.reaches_iff.mpr hdue) hnew
  case cap => exact fun s hlen => ⟨State.capCheck_above hlen, State.capCheck_below hlen⟩
  case windows => exact fun s => ⟨exec_capWindow_due, exec_capRiseWindow_due⟩
  case telemetry => exact fun inlet conv s hdue hnew => exec_telemetryUpdate_due inlet conv (State.reaches_iff.mpr hdue) hnew
  case module => exact fun mv ticks off en s => ⟨exec_moduleStart_ready, exec_moduleStop_lost⟩

/-! ## Cores and clusters (R567 to R569) -/

theorem exec_coreGate_idle {c : Nat} {s : State} (hc : c < 4096) (hon : s.fastOn = true) (hrun : s.clRun (clusterOf c) = true)
    (hgate : s.gateIdle c ≠ 0) (hidle : s.idleCore c = true) (hdue : s.gateIdle c ≤ (s.clk.fast - (s.ctl c).idleSince).toNat) :
    exec (.coreGate c) s = .next (s.modCtl c (fun k => { k with gated := true })) := by
  change execCoreGate .. = _
  simp only [execCoreGate, Nat.not_le.mpr hc, hon, hrun, hgate, hidle, Nat.not_lt.mpr hdue, decide_false, Bool.not_true, Bool.or_self,
    Bool.false_eq_true, if_false]

/-- Does the state of the cluster's owner allow the power state asked for (R568)? -/
def pwrLegal (st : Option VatSt) (req : Nat) : Prop :=
  req = 0 ∨ st = none ∨ st = some .free ∨ (req = 1 ∧ (st = some .ready ∨ st = some .scanned))

/-- The model's test of a request is `pwrLegal`. -/
theorem pwrLegal_iff (st : Option VatSt) (req : Nat) :
    (decide (req = 0) || st.isNone || st == some .free || (decide (req = 1) && (st == some .ready || st == some .scanned))) = true ↔
      pwrLegal st req := by
  simp only [pwrLegal, Bool.or_eq_true, Bool.and_eq_true, decide_eq_true_eq, beq_iff_eq, Option.isNone_iff_eq_none, or_assoc]

section
variable {w : Who} {cl req : Nat} {s : State} (hcl : cl < 64)
include hcl

theorem exec_clusterPowerRequest_cluster : exec (.clusterPowerRequest w cl req) s = .next (s.pwrRequest w cl req).1 :=
  nexts (if_neg (Nat.not_lt.mpr (Nat.le_of_lt_succ hcl)))

theorem exec_clusterPowerRequest_other (hmay : s.mayPwr w cl = false) :
    exec (.clusterPowerRequest w cl req) s = .next (s.regRefuse w ePermission (0x600028 + 0x10000 * cl)) := by
  rw [exec_clusterPowerRequest_cluster hcl]
  simp only [State.pwrRequest, hmay, Bool.not_false, if_true]

section
variable (hmay : s.mayPwr w cl = true)
include hmay

theorem exec_clusterPowerRequest_range (hreq : 2 < req) :
    exec (.clusterPowerRequest w cl req) s = .next (s.regRefuse w eRange (0x600028 + 0x10000 * cl)) := by
  rw [exec_clusterPowerRequest_cluster hcl]
  simp only [State.pwrRequest, hmay, hreq, Bool.not_true, Bool.false_eq_true, if_false, if_true]

theorem exec_clusterPowerRequest_illegal (hreq : req ≤ 2) (hno : ¬ pwrLegal ((s.ownerOf cl).map (fun v => (s.vat v).st)) req) :
    exec (.clusterPowerRequest w cl req) s = .next (s.regRefuse w eState (0x600028 + 0x10000 * cl)) := by
  rw [← pwrLegal_iff, Bool.not_eq_true] at hno
  rw [exec_clusterPowerRequest_cluster hcl]
  simp only [State.pwrRequest, hmay, Nat.not_lt.mpr hreq, hno, Bool.not_true, Bool.not_false, Bool.false_eq_true, if_false, if_true]

theorem exec_clusterPowerRequest_legal (hreq : req ≤ 2) (hlegal : pwrLegal ((s.ownerOf cl).map (fun v => (s.vat v).st)) req) :
    exec (.clusterPowerRequest w cl req) s =
      .next (s.modClPwr cl (fun x => { x with req := req, busy := x.busy || x.state != req })) := by
  rw [← pwrLegal_iff] at hlegal
  rw [exec_clusterPowerRequest_cluster hcl]
  simp only [State.pwrRequest, hmay, Nat.not_lt.mpr hreq, hlegal, Bool.not_true, Bool.false_eq_true, if_false]

end
end

section
variable {cl : Nat} {s : State} (hbusy : (s.clPwr cl).busy = true)
include hbusy

theorem exec_clusterPowerEntry_retain (hreq : (s.clPwr cl).req = 1) :
    let x := s.clPwr cl
    exec (.clusterPowerEntry cl) s = .next (s.setClPwr cl { x with state := x.req, busy := false }) := by
  change execClusterPowerEntry .. = _
  simp only [execClusterPowerEntry, hbusy, hreq, Bool.not_true, Nat.one_ne_zero, decide_false, Bool.or_self, Bool.false_eq_true, if_false,
    Nat.reduceEqDiff]

theorem exec_clusterPowerEntry_off (hreq : (s.clPwr cl).req = 2) :
    let x := s.clPwr cl
    exec (.clusterPowerEntry cl) s =
      .next ((List.range 64).foldl (fun z p => z.loseCore (coreNo cl p)) (s.setClPwr cl { x with state := x.req, busy := false })) := by
  change execClusterPowerEntry .. = _
  simp only [execClusterPowerEntry, hbusy, hreq, Bool.not_true, Nat.reduceEqDiff, decide_false, Bool.or_self, Bool.false_eq_true, if_false,
    if_true]

theorem exec_clusterWakeComplete_run (hreq : (s.clPwr cl).req = 0) (hon : s.fastOn = true) :
    let x := s.clPwr cl
    exec (.clusterWakeComplete cl) s = .next (s.setClPwr cl { x with state := 0, busy := false }) := by
  change execClusterWakeComplete .. = _
  simp only [execClusterWakeComplete, hbusy, hreq, hon, bne_self_eq_false, Bool.not_true, Bool.or_self, Bool.false_eq_true, if_false]

end

/-! ## Sleep and wake (R571, R572) -/

section
variable {w : Who} {s : State}

theorem exec_sleepRequest_other (hother : whoMgmt w = false) :
    exec (.sleepRequest w) s = .next (s.regRefuse w ePermission 0x140004) := by
  change execSleepRequest .. = _
  simp only [execSleepRequest, State.sleepWrite, hother, Bool.not_false, if_true]

theorem exec_sleepRequest_refused (hawake : s.pwr.asleep = false) (hmgmt : whoMgmt w = true) (hno : s.maySleep = false) :
    exec (.sleepRequest w) s = .next (s.regRefuse w eState 0x140004) := by
  change execSleepRequest .. = _
  simp only [execSleepRequest, State.sleepWrite, hawake, hmgmt, hno, Bool.not_true, Bool.not_false, Bool.false_eq_true, if_false, if_true]

theorem exec_sleepRequest_sleeps (hawake : s.pwr.asleep = false) (hmgmt : whoMgmt w = true) (hmay : s.maySleep = true) :
    exec (.sleepRequest w) s = .next (s.modPwr (fun p => { p with sleep := true })).enterSleep := by
  change execSleepRequest .. = _
  simp only [execSleepRequest, State.sleepWrite, hawake, hmgmt, hmay, Bool.not_true, Bool.false_eq_true, if_false]

theorem exec_deviceWake_asked (hasleep : s.pwr.asleep = true) (hask : s.pwr.wakeAsk = true) :
    let u := (List.range 64).foldl (fun z cl => z.modClPwr cl (fun x => { x with state := x.before })) s
    let w := (List.range 8).foldl (fun z i => z.modStk i (fun x => { x with slotAt := z.slotNow })) u
    exec .deviceWake s = .next (w.modPwr (fun p => { p with asleep := false, sleep := false, wakeAsk := false })) := by
  change execDeviceWake .. = _
  simp only [execDeviceWake, hasleep, hask, Bool.not_true, Bool.or_self, Bool.false_eq_true, if_false]

end

/-- Settles O52, command by command: a request for a power state is legal as `pwrLegal` says. -/
theorem powerStates : Obligations.PowerStates := by
  unfold Obligations.PowerStates
  refine ⟨?gate, ?request, ?entry, ?sleep, ?wake⟩
  case gate => exact fun c s hc hon hrun hgate hidle hdue => exec_coreGate_idle hc hon hrun hgate hidle hdue
  case request =>
    exact fun w cl req s hcl => ⟨exec_clusterPowerRequest_other hcl, exec_clusterPowerRequest_range hcl, exec_clusterPowerRequest_illegal hcl,
      exec_clusterPowerRequest_legal hcl⟩
  case entry =>
    exact fun cl s hbusy =>
      ⟨exec_clusterPowerEntry_retain hbusy, exec_clusterPowerEntry_off hbusy, exec_clusterWakeComplete_run hbusy⟩
  case sleep =>
    exact fun w s hawake => ⟨exec_sleepRequest_other, exec_sleepRequest_refused hawake, exec_sleepRequest_sleeps hawake⟩
  case wake => exact fun s hasleep hask => exec_deviceWake_asked hasleep hask

end Sys2Proof.Machine
end

section
/-! PROOFS. Lifecycle, fuses, flash and the management port (O54), and the debug port (O55). -/

namespace Sys2Proof.Machine

/-! ## Lifecycle requests (R600, R601) -/

/-- The status of a lifecycle request: its checks in order. -/
def State.lcCheck (s : State) (w : Who) (aim : Nat) (token : List Byte) : Nat :=
  if !(s.boot.stage == .sealed || s.boot.stage == .failed) then eState
  else if !(whoMgmt w) then ePermission
  else if !s.boot.strap then ePermission
  else if !(lcLegal s.boot.lcShadow aim) then eState
  else if lcState s.boot.lcShadow != 0 && !(s.tokenOk aim token) then ePermission
  else eOk

section
variable {s : State} {w : Who} {aim : Nat} {token : List Byte}

/-- A lifecycle request goes by the status of its checks. -/
theorem State.lcRequest_eq :
    let st := s.lcCheck w aim token
    let u := s.modBoot (fun b => { b with lcStatus := st })
    let r := u.askReset .lifecycle 5
    s.lcRequest w aim token = if st != eOk then (u.regRefuse w st 0x118, st)
      else (if r.boot.rst == some .lifecycle then r.modBoot (fun b => { b with lcTo := some aim }) else r, eOk) := rfl

theorem State.lcRequest_refused {e : Nat} (hcheck : s.lcCheck w aim token = e) (hbad : e ≠ eOk) :
    (s.lcRequest w aim token).1 = (s.modBoot (fun b => { b with lcStatus := e })).regRefuse w e 0x118 := by
  simp only [State.lcRequest_eq, hcheck, bne_iff_ne.mpr hbad, if_true]

/-- A request whose checks pass asks for a lifecycle reset; its aim is kept when that reset is the one in progress. -/
theorem State.lcRequest_passed (hcheck : s.lcCheck w aim token = eOk) :
    let u := (s.modBoot (fun b => { b with lcStatus := eOk })).askReset .lifecycle 5
    (s.lcRequest w aim token).1 = if u.boot.rst = some .lifecycle then u.modBoot (fun b => { b with lcTo := some aim }) else u := by
  simp only [State.lcRequest_eq, hcheck, bne_self_eq_false, Bool.false_eq_true, if_false, beq_iff_eq]

theorem State.lcCheck_stage (hstage : ¬ (s.boot.stage = .sealed ∨ s.boot.stage = .failed)) : s.lcCheck w aim token = eState :=
  if_pos (by simpa using hstage)

section
variable (hstage : s.boot.stage = .sealed ∨ s.boot.stage = .failed)
include hstage

theorem State.lcCheck_permission (hno : whoMgmt w = false ∨ s.boot.strap = false) : s.lcCheck w aim token = ePermission := by
  have hopen : (s.boot.stage == .sealed || s.boot.stage == .failed) = true := by simpa using hstage
  rcases hno with h | h
  · simp only [State.lcCheck, hopen, h, Bool.not_true, Bool.not_false, Bool.false_eq_true, if_false, if_true]
  · simp only [State.lcCheck, hopen, h, Bool.not_true, Bool.not_false, Bool.false_eq_true, if_false, if_true, ite_self]

section
variable (hmgmt : whoMgmt w = true) (hstrap : s.boot.strap = true)
include hmgmt hstrap

theorem State.lcCheck_illegal (hlegal : lcLegal s.boot.lcShadow aim = false) : s.lcCheck w aim token = eState := by
  have hopen : (s.boot.stage == .sealed || s.boot.stage == .failed) = true := by simpa using hstage
  simp only [State.lcCheck, hopen, hmgmt, hstrap, hlegal, Bool.not_true, Bool.not_false, Bool.false_eq_true, if_false, if_true]

section
variable (hlegal : lcLegal s.boot.lcShadow aim = true)
include hlegal

theorem State.lcCheck_token (hbad : ¬ (lcState s.boot.lcShadow = 0 ∨ s.tokenOk aim token = true)) : s.lcCheck w aim token = ePermission := by
  have hopen : (s.boot.stage == .sealed || s.boot.stage == .failed) = true := by simpa using hstage
  have hcond : (lcState s.boot.lcShadow != 0 && !(s.tokenOk aim token)) = true := by simpa using hbad
  simp only [State.lcCheck, hopen, hmgmt, hstrap, hlegal, hcond, Bool.not_true, Bool.false_eq_true, if_false, if_true]

theorem State.lcCheck_good (hgood : lcState s.boot.lcShadow = 0 ∨ s.tokenOk aim token = true) : s.lcCheck w aim token = eOk := by
  have hopen : (s.boot.stage == .sealed || s.boot.stage == .failed) = true := by simpa using hstage
  have hcond : (lcState s.boot.lcShadow != 0 && !(s.tokenOk aim token)) = false := by simpa [or_iff_not_imp_left] using hgood
  simp only [State.lcCheck, hopen, hmgmt, hstrap, hlegal, hcond, Bool.not_true, Bool.false_eq_true, if_false]

end
end
end
end

section
variable {s : State} (hrst : s.boot.rst = some .lifecycle) (heffect : s.boot.effect = true) (hwiped : s.boot.wiped = true)
  (hto : s.boot.lcTo.isSome = true)
include hrst heffect hwiped hto

theorem exec_lifecycleStrapSample_wiped :
    exec .lifecycleStrapSample s = .next (if s.boot.strap then
      s.modBoot (fun b => { b with lcFuse := b.lcFuse + 1, lcShadow := b.lcFuse + 1, lcTo := none })
      else s.modBoot (fun b => { b with lcStatus := eAborted, lcTo := none })) := by
  have hasked : s.boot.lcTo.isNone = false := by rw [← Option.not_isSome, hto]; rfl
  change execLifecycleStrapSample .. = _
  simp only [execLifecycleStrapSample, hrst, heffect, hwiped, hasked, bne_self_eq_false, Bool.not_true, Bool.or_self, Bool.false_eq_true,
    if_false]

end

/-! ## The strap, fuses and flash (R602, R621, R631, R641) -/

theorem exec_s1StrapChange_taken {on : Bool} {n : Nat} {s : State} (hlong : 10 ^ 7 ≤ n) (hnew : s.boot.strap ≠ on) :
    exec (.s1StrapChange on n) s = .next ((s.modBoot (fun b => { b with strap := on })).fire 669) := by
  have hother : (s.boot.strap == on) = false := beq_eq_false_iff_ne.mpr hnew
  change execS1StrapChange .. = _
  simp only [execS1StrapChange, hother, Nat.not_lt.mpr hlong, decide_false, Bool.or_self, Bool.false_eq_true, if_false]

section
variable {w : Who} {item i value x st : Nat} {s : State} (hx : x = if item = 3 then value % 16 else value % 2 ^ 32)
  (hst : st = s.fuseCheck w item i x)
include hx hst

theorem exec_fuseProg_refused (hbad : st ≠ eOk) :
    exec (.fuseProg w item i value) s = .next ((s.modBoot (fun b => { b with lcStatus := st })).regRefuse w st 0x120) := by
  subst hx hst
  exact nexts (congrArg Prod.fst (if_pos (bne_iff_ne.mpr hbad)))

theorem exec_fuseProg_taken (hgood : st = eOk) :
    exec (.fuseProg w item i value) s = .next ((s.modBoot (fun b => { b with lcStatus := st })).modBoot (fun b =>
      { b with fuseCmd := some { item := item, index := i, value := x } })) := by
  subst hx hst
  exact nexts (congrArg Prod.fst (if_neg (by rw [bne_iff_ne, not_not]; exact hgood)))

end

theorem exec_fuseProgramComplete_word {k : FuseCmd} {s : State} (hk : s.boot.fuseCmd = some k) :
    exec .fuseProgramComplete s =
      .next (s.modBoot (fun b => { b with fuseCmd := none, fuse := b.fuse.put (256 * k.item + k.index) k.value })) := by
  change execFuseProgramComplete .. = _
  simp only [execFuseProgramComplete, hk]

section
variable {w : Who} {s : State} (hmay : w = .core mgmtCore ∨ (w = .debug ∧ (s.boot.sealed = false ∨ s.boot.stage = .failed)))
  (hidle : s.boot.flashCmd = none)
include hmay hidle

/-- READ, or PROGRAM, by a requester that may, while no command is in progress. -/
theorem State.flashStart_access {op : Nat} (hop : op = 1 ∨ op = 2) (wp : Bool) :
    (s.flashStart w op wp).1 = if op = 2 ∧ wp = true then s.modBoot (fun b => { b with flashStatus := ePermission })
      else s.modBoot (fun b => { b with flashCmd := some { op := op, page := b.flashPage } }) := by
  have hallowed : (w == .core mgmtCore || (w == .debug && (!s.boot.sealed || s.boot.stage == .failed))) = true := by simpa using hmay
  rcases hop with rfl | rfl <;> cases wp <;> simp [State.flashStart, hallowed, hidle]

theorem State.flashStart_erase (wp : Bool) (hpage : s.boot.flashPage % 16 = 0) :
    (s.flashStart w 3 wp).1 = if wp then s.modBoot (fun b => { b with flashStatus := ePermission })
      else s.modBoot (fun b => { b with flashCmd := some { op := 3, page := b.flashPage } }) := by
  have hallowed : (w == .core mgmtCore || (w == .debug && (!s.boot.sealed || s.boot.stage == .failed))) = true := by simpa using hmay
  cases wp <;> simp [State.flashStart, hallowed, hidle, hpage]

theorem State.flashStart_misplaced (wp : Bool) (hpage : s.boot.flashPage % 16 ≠ 0) :
    (s.flashStart w 3 wp).1 = s.regRefuse w eRange 0x300010 := by
  have hallowed : (w == .core mgmtCore || (w == .debug && (!s.boot.sealed || s.boot.stage == .failed))) = true := by simpa using hmay
  simp [State.flashStart, hallowed, hidle, hpage]

theorem exec_flashRead_starts :
    exec (.flashRead w) s = .next (s.modBoot (fun b => { b with flashCmd := some { op := 1, page := b.flashPage } })) :=
  nexts ((State.flashStart_access hmay hidle (.inl rfl) false).trans (if_neg (by simp)))

theorem exec_flashProgram_starts (wp : Bool) :
    exec (.flashProgram w wp) s = .next (if wp then s.modBoot (fun b => { b with flashStatus := ePermission })
      else s.modBoot (fun b => { b with flashCmd := some { op := 2, page := b.flashPage } })) :=
  nexts ((State.flashStart_access hmay hidle (.inr rfl) wp).trans (by simp only [true_and]))

end

section
variable {k : FlashCmd} {s : State} (hk : s.boot.flashCmd = some k)
include hk

theorem exec_flashCommandComplete_error :
    let u := s.modBoot (fun b => { b with flashCmd := none, flashStatus := eTimeout })
    exec (.flashCommandComplete true) s = .next { u with
      free := u.free + 1, boot := { u.boot with flashBuf := Memory.writeBytes [] 0 ((List.range 4096).map (Config.freeByte u.free)) } } := by
  change execFlashCommandComplete .. = _
  simp only [execFlashCommandComplete, hk, if_true]

theorem exec_flashCommandComplete_done :
    let u := s.modBoot (fun b => { b with flashCmd := none, flashStatus := eOk })
    exec (.flashCommandComplete false) s = .next (
      if k.op = 1 then u.modBoot (fun b => { b with flashBuf := Memory.writeBytes [] 0 (s.flashRead (4096 * k.page) 4096) })
      else if k.op = 2 then u.flashWrite (4096 * k.page) (s.boot.flashBuf.readBytes 0 4096)
      else u.modBoot (fun b => { b with flash := b.flash.clear (4096 * k.page) 65536 })) := by
  change execFlashCommandComplete .. = _
  simp only [execFlashCommandComplete, hk, Bool.false_eq_true, if_false]

end

/-! ## The management port (R608) -/

section
variable {v : Bool} {s : State} (hon : s.mctpOn v = true)
include hon

theorem exec_getAcct_served (seq : Nat) :
    let a := s.hub.acct
    let n := 2 ^ a.slotsLog2
    let first := max seq (a.idx.toNat - n)
    exec (.getAcct v seq) s = .next (s.send (.mctp 0 ((List.range (a.idx.toNat - first)).flatMap (fun i =>
      s.stackRead (a.base + 256 * ((first + i) % n)) 256)))) := nexts (if_neg (by simp [hon]))

theorem exec_getLog_served :
    let log := s.send (.mctp 1 (s.hub.unconsumed.flatMap (fun i => leBytes 32 (s.hub.log.get {} i).word)))
    exec (.getLog v) s = .next (if s.hub.logOwnerPf then log else (log.logTailWrite (.core mgmtCore) log.hub.logHead).1) :=
  nexts (if_neg (by simp [hon]))

theorem exec_getLc_served : exec (.getLc v) s = .next (s.send (.mctp 2 (leBytes 4 s.boot.lcWord ++ leBytes 4 s.boot.statWord))) :=
  nexts (if_neg (by simp [hon]))

theorem exec_mctpReset_served : exec (.mctpReset v) s = .next (s.askReset .warm 6) := nexts (if_neg (by simp [hon]))

theorem exec_lcReq_served (aim : Nat) (token : List Byte) :
    exec (.lcReq v aim token) s = .next (s.lcRequest (.core mgmtCore) aim token).1 := nexts (if_neg (by simp [hon]))

theorem exec_firmwareUpdate_served {image : List Byte} (hlen : image.length ≤ 0x100000) (wp : Bool) :
    let base := 0x100000 * (1 - s.boot.slot)
    exec (.firmwareUpdate v image wp) s = .next (if wp then s.send (.mctp 5 [BitVec.ofNat 8 ePermission])
      else ((s.modBoot (fun b => { b with flash := b.flash.clear base 0x100000 })).flashWrite base image).send (.mctp 5 [BitVec.ofNat 8 eOk])) :=
  nexts (if_neg (by simp only [hon, Bool.not_true, Nat.not_lt.mpr hlen, decide_false, Bool.or_self, Bool.false_eq_true, not_false_eq_true]))

end

/-- Settles O54: the checks of a lifecycle request in their order, and the other commands by their guards. -/
theorem lifecycleFlashAndPort : Obligations.LifecycleFlashAndPort := by
  unfold Obligations.LifecycleFlashAndPort
  refine ⟨?request, ?sample, ?strap, ?fuse, ?flash, ?flashDone, ?port⟩
  case request =>
    intro w aim off s token b say stage good
    exact ⟨fun hstage => nexts (State.lcRequest_refused (State.lcCheck_stage hstage) (by decide)),
      fun hstage hno => nexts (State.lcRequest_refused (State.lcCheck_permission hstage hno) (by decide)),
      fun hstage hmgmt hstrap hlegal => nexts (State.lcRequest_refused (State.lcCheck_illegal hstage hmgmt hstrap hlegal) (by decide)),
      fun hstage hmgmt hstrap hlegal hbad =>
        nexts (State.lcRequest_refused (State.lcCheck_token hstage hmgmt hstrap hlegal hbad) (by decide)),
      fun hstage hmgmt hstrap hlegal hgood => nexts (State.lcRequest_passed (State.lcCheck_good hstage hmgmt hstrap hlegal hgood))⟩
  case sample =>
    intro s hrst heffect hwiped hto
    rw [exec_lifecycleStrapSample_wiped hrst heffect hwiped hto]
    exact ⟨fun hstrap => nexts (if_pos hstrap), fun hstrap => nexts (ifn hstrap)⟩
  case strap => exact fun on n s hlong hnew => exec_s1StrapChange_taken hlong hnew
  case fuse =>
    exact fun w item i value s =>
      ⟨exec_fuseProg_refused rfl rfl, exec_fuseProg_taken rfl rfl, fun k hk => exec_fuseProgramComplete_word hk⟩
  case flash =>
    exact fun w wp s hmay hidle => ⟨exec_flashRead_starts hmay hidle, exec_flashProgram_starts hmay hidle wp,
      fun hpage => nexts (State.flashStart_erase hmay hidle wp hpage), fun hpage => nexts (State.flashStart_misplaced hmay hidle wp hpage)⟩
  case flashDone =>
    intro err k s hk u
    refine ⟨fun herr => ?_, fun hok hop => ?_, fun hok hop => ?_, fun hok hop => ?_⟩
    · subst herr
      exact exec_flashCommandComplete_error hk
    · subst hok
      rw [exec_flashCommandComplete_done hk]
      exact nexts (if_pos hop)
    · subst hok
      rw [exec_flashCommandComplete_done hk]
      exact nexts ((if_neg (by omega)).trans (if_pos hop))
    · subst hok
      rw [exec_flashCommandComplete_done hk]
      exact nexts ((if_neg (by omega)).trans (if_neg (by omega)))
  case port =>
    intro v seq aim token image s hon a n first log
    rw [exec_getLog_served hon]
    exact ⟨exec_getAcct_served hon seq, fun hpf => nexts (if_pos hpf), fun hmgmt => nexts (ifn hmgmt), exec_getLc_served hon,
      exec_mctpReset_served hon, exec_lcReq_served hon aim token,
      fun hlen => ⟨exec_firmwareUpdate_served hon hlen true, exec_firmwareUpdate_served hon hlen false⟩⟩

/-! ## Debug transactions (R604) -/

section
variable {s : State}

theorem State.dapStart_busy (hpend : s.boot.dap.pend = true) (f : State → State × Nat × Nat) :
    s.dapStart f = s.modBoot (fun b => { b with dap := { b.dap with ovr := true } }) := if_pos hpend

theorem State.dapStart_idle (hpend : s.boot.dap.pend = false) (f : State → State × Nat × Nat) :
    s.dapStart f = (f s).1.modBoot (fun b =>
      { b with dap := { b.dap with pend := true, ovr := false, nextStatus := (f s).2.1, nextData := (f s).2.2 } }) := ifn hpend

theorem exec_dapTransactionComplete_shown (hpend : s.boot.dap.pend = true) :
    exec .dapTransactionComplete s = .next (s.modBoot (fun b =>
      { b with dap := { b.dap with pend := false, status := b.dap.nextStatus, data := b.dap.nextData } })) := nexts (if_pos hpend)

/-- What HALT does to a core of a cluster in RUN: the state, the status and the data. -/
def State.dapHaltCore (c : Nat) (s : State) : State × Nat × Nat :=
  let u := (if s.detNow c then s.detBreakCore c 0x0F else s).dapWake c
  let k := u.ctl c
  if s.net.fenced.has c || c % 64 = s.disabledPos (clusterOf c) then (u, eState, 0)
  else if k.run == .halted then (u, eOk, 0)
  else if k.run == .running then (if k.ldr.isSome then u.setCtl c { k with haltReq := true } else u.debugHalt c, eOk, 0)
  else (u, eState, 0)

theorem State.dapHaltCore_gone {c : Nat} (hgone : s.net.fenced.has c = true ∨ c % 64 = s.disabledPos (clusterOf c)) :
    s.dapHaltCore c = ((if s.detNow c then s.detBreakCore c 0x0F else s).dapWake c, eState, 0) := if_pos (by simpa using hgone)

theorem State.dapHaltCore_present {c : Nat} (hthere : ¬ (s.net.fenced.has c = true ∨ c % 64 = s.disabledPos (clusterOf c))) :
    let u := (if s.detNow c then s.detBreakCore c 0x0F else s).dapWake c
    let k := u.ctl c
    s.dapHaltCore c = if k.run = .halted then (u, eOk, 0)
      else if k.run = .running then (if k.ldr.isSome then u.setCtl c { k with haltReq := true } else u.debugHalt c, eOk, 0)
      else (u, eState, 0) := by
  have hcond : (s.net.fenced.has c || decide (c % 64 = s.disabledPos (clusterOf c))) = false := by simpa using hthere
  simp only [State.dapHaltCore, hcond, Bool.false_eq_true, if_false, beq_iff_eq]

theorem Ctl.debugHalted_iff (k : Ctl) :
    k.debugHalted = true ↔ k.run = .halted ∧ (k.haltReason = 1 ∨ k.haltReason = 2 ∨ k.haltReason = 3) := by
  simp only [Ctl.debugHalted, Bool.and_eq_true, Bool.or_eq_true, beq_iff_eq, or_assoc]

/-! ## Run control (R569, R606) -/

section
variable {c : Nat} (hc : c < 4096)
include hc

section
variable (hsleep : s.clRun (clusterOf c) = false)
include hsleep

theorem exec_dapHalt_sleeping : exec (.dapHalt c) s = .next (s.wakeCl (clusterOf c)) := by
  change execDapHalt .. = _
  simp only [execDapHalt, Nat.not_le.mpr hc, hsleep, Bool.not_false, if_false, if_true]

theorem exec_dapResume_sleeping : exec (.dapResume c) s = .next (s.wakeCl (clusterOf c)) := by
  change execDapResume .. = _
  simp only [execDapResume, Nat.not_le.mpr hc, hsleep, Bool.not_false, if_false, if_true]

theorem exec_dapStep_sleeping : exec (.dapStep c) s = .next (s.wakeCl (clusterOf c)) := by
  change execDapStep .. = _
  simp only [execDapStep, Nat.not_le.mpr hc, hsleep, Bool.not_false, if_false, if_true]

end

section
variable (hrun : s.clRun (clusterOf c) = true) (hpend : s.boot.dap.pend = false)
include hrun hpend

theorem exec_dapHalt_starts {r : State × Nat × Nat} (hr : s.dapHaltCore c = r) :
    exec (.dapHalt c) s = .next (r.1.modBoot (fun b =>
      { b with dap := { b.dap with pend := true, ovr := false, nextStatus := r.2.1, nextData := r.2.2 } })) := by
  subst hr
  change execDapHalt .. = _
  simp only [execDapHalt, Nat.not_le.mpr hc, hrun, Bool.not_true, Bool.false_eq_true, if_false]
  exact nexts (State.dapStart_idle hpend _)

theorem exec_dapResume_halted (hmine : ((s.dapWake c).ctl c).debugHalted = true) :
    exec (.dapResume c) s =
      .next (((s.dapWake c).modCtl c (fun k => { k with run := .running, started := true, stepping := false })).modBoot (fun b =>
        { b with dap := { b.dap with pend := true, ovr := false, nextStatus := eOk, nextData := 0 } })) := by
  change execDapResume .. = _
  simp only [execDapResume, Nat.not_le.mpr hc, hrun, State.dapStart_idle hpend, hmine, Bool.not_true, Bool.false_eq_true, if_false, if_true]

theorem exec_dapStep_halted (hmine : ((s.dapWake c).ctl c).debugHalted = true) :
    exec (.dapStep c) s =
      .next ((((s.dapWake c).modCtl c (fun k => { k with stepping := true })).modBoot (fun b =>
        { b with steps := (b.steps.filter (fun r => r.core != c)) ++ [{ core := c, since := s.clk.fast }] })).modBoot (fun b =>
        { b with dap := { b.dap with pend := true, ovr := false, nextStatus := eOk, nextData := 0 } })) := by
  change execDapStep .. = _
  simp only [execDapStep, Nat.not_le.mpr hc, hrun, State.dapStart_idle hpend, hmine, Bool.not_true, Bool.false_eq_true, if_false, if_true]

section
variable (hother : ((s.dapWake c).ctl c).debugHalted = false)
include hother

theorem exec_dapResume_other :
    exec (.dapResume c) s =
      .next ((s.dapWake c).modBoot (fun b => { b with dap := { b.dap with pend := true, ovr := false, nextStatus := eState, nextData := 0 } })) := by
  change execDapResume .. = _
  simp only [execDapResume, Nat.not_le.mpr hc, hrun, State.dapStart_idle hpend, hother, Bool.not_true, Bool.false_eq_true, if_false]

theorem exec_dapStep_other :
    exec (.dapStep c) s =
      .next ((s.dapWake c).modBoot (fun b => { b with dap := { b.dap with pend := true, ovr := false, nextStatus := eState, nextData := 0 } })) := by
  change execDapStep .. = _
  simp only [execDapStep, Nat.not_le.mpr hc, hrun, State.dapStart_idle hpend, hother, Bool.not_true, Bool.false_eq_true, if_false]

end
end
end

theorem exec_dapStepTimeout_late {c : Nat} {r : StepRec} (hrec : s.boot.steps.find? (fun r => r.core == c) = some r)
    (hstep : (s.ctl c).stepping = true) (hldr : (s.ctl c).ldr = none) (hlate : 65536 ≤ (s.clk.fast - r.since).toNat) :
    exec (.dapStepTimeout c) s =
      .next ((((s.modCtl c (fun k => { k with waiting := none, stepping := false })).dropCpuWatch c).haltCore c 3).modBoot (fun b =>
        { b with steps := b.steps.filter (fun r => r.core != c) })) := by
  change execDapStepTimeout .. = _
  simp only [execDapStepTimeout, hrec, hstep, hldr, Nat.not_lt.mpr hlate, Option.isSome_none, decide_false, Bool.not_true, Bool.or_self,
    Bool.false_eq_true, if_false]

/-! ## READ and WRITE (R605) -/

section
variable {a size n : Nat} (hon : s.pwr.on = true) (hawake : s.dapSleeps a = none) (hpend : s.boot.dap.pend = false) (hsize : dapBytes size = some n)
include hon hawake hpend hsize

theorem exec_dapRead_starts :
    let r := s.dapRead a n
    exec (.dapRead a size) s = .next (r.1.modBoot (fun b =>
      { b with dap := { b.dap with pend := true, ovr := false, nextStatus := r.2.1, nextData := r.2.2 } })) := by
  change execDapRead .. = _
  simp only [execDapRead, hon, hawake, State.dapStart_idle hpend, hsize, Bool.not_true, Bool.false_eq_true, if_false]

theorem exec_dapWrite_starts (x : Nat) :
    let r := s.dapWrite a n x
    exec (.dapWrite a size x) s = .next (r.1.modBoot (fun b =>
      { b with dap := { b.dap with pend := true, ovr := false, nextStatus := r.2, nextData := 0 } })) := by
  change execDapWrite .. = _
  simp only [execDapWrite, hon, hawake, State.dapStart_idle hpend, hsize, Bool.not_true, Bool.false_eq_true, if_false]

end

section
variable {a n : Nat} (hin : a + n ≤ stackTop) (hn : 0 < n)
include hin hn

theorem targetOf_stack : targetOf a = .stack a := if_pos (by omega)

theorem State.dapRead_stack (hadmit : s.stkAdmit .debug a n false = eOk) :
    s.dapRead a n = (s.noteStack (s.stackOwner a) a n, if s.stackBad a n then ePoison else eOk, s.stackNat a n) := by
  simp only [State.dapRead, targetOf_stack hin hn, Nat.not_lt.mpr hin, hadmit, bne_self_eq_false, Bool.false_eq_true, if_false]

theorem State.dapRead_stackRefused (hno : s.stkAdmit .debug a n false ≠ eOk) :
    s.dapRead a n = (s.regRefuse .debug (s.stkAdmit .debug a n false) a, s.stkAdmit .debug a n false, 0) := by
  simp only [State.dapRead, targetOf_stack hin hn, Nat.not_lt.mpr hin, bne_iff_ne.mpr hno, if_false, if_true]

theorem State.dapWrite_stack (x : Nat) (hadmit : s.stkAdmit .debug a n true = eOk) :
    s.dapWrite a n x = ((s.noteStack (s.stackOwner a) a n).stackPut a (leBytes n x) (fun _ => false), eOk) := by
  simp only [State.dapWrite, targetOf_stack hin hn, Nat.not_lt.mpr hin, hadmit, bne_self_eq_false, Bool.false_eq_true, if_false]

end

/-! ## The TAP's boundary instructions (R603) -/

/-- A port whose pins are held goes DOWN, as at a loss of signal. -/
def State.holdPins (s : State) (p : Nat) : State :=
  if (s.port p).st = .up ∨ (s.port p).st = .hello ∨ (s.port p).st = .align ∨ (s.port p).st = .train then s.linkTo p .down else s

theorem State.holdPins_host (s : State) (p : Nat) : (s.holdPins p).host = s.host := by
  unfold State.holdPins
  split
  · simp only [State.linkTo_same]
  · rfl

theorem exec_extest_hostDown (hdown : s.host.up = false) :
    exec .extest s = .next ((List.range 7).foldl State.holdPins (s.modBoot (fun b => { b with extest := true }))) := by
  have hhost : ((List.range 7).foldl State.holdPins (s.modBoot (fun b => { b with extest := true }))).host.up = false := by
    rw [State.host_foldl State.holdPins State.holdPins_host]
    exact hdown
  have hstep : ∀ (u : State) (p : Nat), (let st := (u.port p).st
      if st == .up || st == .hello || st == .align || st == .train then u.linkTo p .down else u) = u.holdPins p := fun u p => by
    simp only [State.holdPins, Bool.or_eq_true, beq_iff_eq, or_assoc]
  change execExtest .. = _
  simp only [execExtest]
  rw [foldl_congr _ State.holdPins _ _ hstep]
  exact nexts (ifn hhost)

end

/-- Settles O55, command by command: what HALT does is `State.dapHaltCore`, and a stack access of the port goes by its admission. -/
theorem debugPort : Obligations.DebugPort := by
  unfold Obligations.DebugPort
  refine ⟨?start, ?nop, ?halt, ?resume, ?sleeping, ?late, ?access, ?stack, ?pins⟩
  case start => exact fun f s => ⟨fun hpend => State.dapStart_busy hpend f, fun hpend => State.dapStart_idle hpend f⟩
  case nop => exact fun s => ⟨rfl, exec_dapTransactionComplete_shown⟩
  case halt =>
    intro c s hc hrun hpend u k gone
    refine ⟨fun hgone => exec_dapHalt_starts hc hrun hpend (State.dapHaltCore_gone hgone), fun hthere hhalted => ?_, fun hthere hrunning => ?_,
      fun hthere hhalted hrunning => ?_⟩
    · exact exec_dapHalt_starts hc hrun hpend ((State.dapHaltCore_present hthere).trans (if_pos hhalted))
    · have hhalted : k.run ≠ .halted := by rw [hrunning]; decide
      exact exec_dapHalt_starts hc hrun hpend ((State.dapHaltCore_present hthere).trans ((if_neg hhalted).trans (if_pos hrunning)))
    · exact exec_dapHalt_starts hc hrun hpend ((State.dapHaltCore_present hthere).trans ((if_neg hhalted).trans (if_neg hrunning)))
  case resume =>
    intro c s hc hrun hpend u k mine
    refine ⟨fun hmine => ?_, fun hother => ?_⟩
    · have hhalted : k.debugHalted = true := k.debugHalted_iff.mpr hmine
      exact ⟨exec_dapResume_halted hc hrun hpend hhalted, exec_dapStep_halted hc hrun hpend hhalted⟩
    · have hrunning : k.debugHalted = false := Bool.eq_false_iff.mpr fun h => hother (k.debugHalted_iff.mp h)
      exact ⟨exec_dapResume_other hc hrun hpend hrunning, exec_dapStep_other hc hrun hpend hrunning⟩
  case sleeping =>
    exact fun c s hc hsleep => ⟨exec_dapHalt_sleeping hc hsleep, exec_dapResume_sleeping hc hsleep, exec_dapStep_sleeping hc hsleep⟩
  case late => exact fun c r s hrec hstep hldr hlate => exec_dapStepTimeout_late hrec hstep hldr hlate
  case access =>
    exact fun a size n x s hon hawake hpend hsize =>
      ⟨exec_dapRead_starts hon hawake hpend hsize, exec_dapWrite_starts hon hawake hpend hsize x⟩
  case stack =>
    exact fun a n x s hin hn => ⟨State.dapRead_stack hin hn, State.dapWrite_stack hin hn x, State.dapRead_stackRefused hin hn⟩
  case pins => exact fun s hdown => ⟨exec_extest_hostDown hdown, rfl⟩

end Sys2Proof.Machine
end
